-- ==== Sys2Proof/Word.lean ====
section
/-! DEFINITION. The words of the XNV-4810: 64-bit register words (spec/03 intro), bytes, and the four
register-fabric agents with their worlds (R53). -/

namespace Sys2Proof

/-- A register, a budget word, an instruction word: 64 bits, bit 0 least significant (R3). -/
abbrev Word := BitVec 64

/-- One byte of memory, of a cell or of a frame. -/
abbrev Byte := BitVec 8

/-- The agents of the register fabric (R53), in the order of their agent codes 0 to 3. -/
inductive Agent where
  | secure | normal | host | debug
  deriving DecidableEq, Repr

/-- The agent code of R53. -/
def Agent.code : Agent → Nat
  | .secure => 0
  | .normal => 1
  | .host => 2
  | .debug => 3

/-- The two VAON feeds (R29). -/
inductive Feed where
  | a | b
  deriving DecidableEq, Repr

/-- The rails of R48 in `RAIL_OK` order, bit 0 first. -/
inductive Rail where
  | vana | vcore | vsram | vlane | vlaneh | vhbmc | vhbmq | vio
  deriving DecidableEq, Repr

/-- The bit of `RAIL_OK`, `RAIL_EARLY` and `RAIL_UV` that stands for the rail (R48). -/
def Rail.bit : Rail → Nat
  | .vana => 0
  | .vcore => 1
  | .vsram => 2
  | .vlane => 3
  | .vlaneh => 4
  | .vhbmc => 5
  | .vhbmq => 6
  | .vio => 7

/-- A unit that runs a sequencer program (R264, R300): a pan, a feeder or a rake. -/
inductive SeqUnit where
  | pan (p : Fin 256)
  | feeder (f : Fin 32)
  | rake (k : Fin 64)
  deriving DecidableEq, Repr

/-- A producer of output blocks (R341). -/
inductive Producer where
  | dump (k : Fin 64)
  | voltage (r : Fin 16)
  | resample (r : Fin 16)
  deriving DecidableEq, Repr

end Sys2Proof
end

