-- ==== Sys2Proof/Syntax.lean ====
section
/-! DEFINITION. The commands of the block: one constructor of `Instr` for each row of
spec/opcode_table.json, in the table's order. A command's operands are what the world outside the device
decides or observes: which unit an event concerns, the bytes of a cell or frame that arrived, the value
an agent writes, a measurement the analog side made. Everything else a command needs is read from State. -/

namespace Sys2Proof

/-- One access of an agent's port to the register space (R53, R54): the page, the byte offset in it, the
width in bytes and, for a write, the value. The bank is the one the agent's `PG_BANK` names (R66). -/
structure Access where
  agent : Agent
  page : Fin 128
  off : Fin 4096
  size : Nat := 8
  value : Word := 0
  deriving DecidableEq, Repr

/-- The ECC outcome of one 64-byte read transfer of a slot (R222, R237): which transfer, how many of its
words were corrected, and whether one was uncorrectable. -/
structure EccObs where
  k : Nat
  corrected : Nat
  uncorrectable : Bool
  deriving DecidableEq, Repr

/-- How the alignment of a link's lanes ended (R163, `DESKEW`). -/
inductive DeskewResult where
  | aligned | skew | crossed
  deriving DecidableEq, Repr

/-- Why an arriving cell's type cannot be trusted (R152, R157); of a cell cut short, the words that came before the cut. -/
inductive MalformedCell where
  | cutShort (words : List Word) | badCrc | reservedType
  deriving DecidableEq, Repr

/-- An inbound PCIe request to a BAR (R378, R379). -/
structure PcieReq where
  bar : Fin 6
  off : Nat
  len : Nat
  write : Bool
  data : List Byte
  deriving DecidableEq, Repr

/-- An open (unscheduled) request of a crossbar master (R359, R360). -/
structure XbarReq where
  master : Fin 9
  secure : Bool
  write : Bool
  addr : BitVec 48
  len : Nat
  data : List Byte
  deriving DecidableEq, Repr

/-- The completion status of an outbound PCIe request (R380). -/
inductive CplStatus where
  | ok | failed | poisoned
  deriving DecidableEq, Repr

/-- What the host's configuration writes say of the function (R377, R380, R381): D3hot, Bus Master Enable, MSI-X
enable and function mask, maximum payload size 128 × 2^`mps`, maximum read request size 128 × 2^`mrrs`, and the completion timeout
of Device Control 2 in µs. -/
structure HostCfg where
  d3 : Bool
  bme : Bool
  msixEn : Bool
  maskAll : Bool
  mps : Fin 3
  mrrs : Fin 6
  cplUs : Nat := 50000
  deriving DecidableEq, Repr

/-- What the PHY says of a received frame beside its bytes (R335): whether the PCS marked a block of it
as an error, and how many codewords of it the FEC corrected and could not correct (R355). -/
structure FrameObs where
  codeErr : Bool
  corrected : BitVec 16
  uncorrectable : BitVec 16
  deriving DecidableEq, Repr

/-- A 66-bit block as it arrives on a lane of a quad (R148): sync header, and payload as it stands on the line. -/
structure LaneBlock where
  lane : Fin 4
  sync : BitVec 2
  payload : Word
  deriving DecidableEq, Repr

/-- One conversion of the salinometer (R476, R484): the code before clamping. -/
abbrev RawCode := Int

/-- A command channel whose command is served, and whether what it does to non-volatile memory succeeds (R8, R439, R440). -/
structure NvmChan where
  chan : Fin 16
  ok : Bool
  deriving DecidableEq, Repr

/-- A side of an Ethernet port: its transmitter, or the peer that it receives from (R348). -/
structure LpiSide where
  port : Fin 32
  peer : Bool
  deriving DecidableEq, Repr

/-- Bits that a lane receives, in order (R169). -/
structure LaneBits where
  lane : Fin 1024
  bits : List Bool
  deriving DecidableEq, Repr

/-- `BCNT` mismatches of a link: the later lane of each, in order (R151). -/
structure SkewObs where
  quad : Fin 256
  lanes : List (Fin 4)
  deriving DecidableEq, Repr

/-- The commands of the XNV-4810, one constructor per row of the table. -/
inductive Instr where
  -- tides, shadow sets, power and pins (spec/01, 02, 04)
  | tideBoundary
  | shadowSetAdoption
  | feedQualified (f : Feed)
  | feedDisqualified (f : Feed)
  | railStart (r : Rail)
  | railQualified (r : Rail)
  | step3QualTimeout
  | seqHoldRelease
  | porNAssert
  | warmNAssert (t : BitVec 8)
  | warmNRelease
  | perstNAssert
  | bootComplete
  | coreRailLoss (r : Rail)
  | vanaLoss
  | vanaRestore
  | vaonBothLost
  | runEntry
  | panRowUngate
  | idleEntry
  | standbyReady
  | dryModeRowStart (r : Fin 16)
  | dryModeRowStop (r : Fin 16)
  | tempWarning (t : BitVec 8)
  | tempOutOfRange (t : BitVec 8)
  | thermalTrip (t : BitVec 8)
  | lowTempHold (t : BitVec 8)
  | lowTempRelease (t : BitVec 8)
  | pinOvercurrentDisable (p : Fin 18)
  | pinRetryReenable (p : Fin 18)
  | pinContention (ps : List (Fin 18))
  | pinMismatch (p : Fin 18)
  | pinOeWrite (a : Agent) (v : Word)
  -- register model (spec/03)
  | registerWrite (ws : List Access)
  | groupHeadRead (a : Agent) (page : Fin 128) (off : Fin 4096)
  | groupHeldWrite (w : Access)
  | groupHeadWrite (w : Access)
  | pgCtrlWrite (a : Agent) (page : Fin 128) (v : Word)
  | pgOwnerWrite (a : Agent) (page : Fin 128) (v : Word)
  | postedWriteApply
  -- schedule images (spec/04)
  | loadStart (a : Agent) (store : Fin 2)
  | loadCheckDone (us : BitVec 16)
  | loadClear (a : Agent) (store : Fin 2)
  | storeWindowWrite (master : Fin 9) (store : Fin 2) (off : Nat) (data : List Byte)
  | armCommit (a : Agent) (v : Word)
  | armCancel (a : Agent)
  | armWithdrawal
  | swap
  | dataPathHalt
  | epochOpen
  -- heap (spec/05, 08)
  | heapSlotTransfer (j : Fin 512) (slot : Fin 4096) (ecc : List EccObs) (seqFail : Bool)
  | openSlotService (j : Fin 512) (slot : Fin 4096) (ecc : List EccObs)
  | heapOpenRequest (r : XbarReq) (qos : Fin 16)
  | refreshStep (j : Fin 512) (slot : Fin 4096) (temp : BitVec 8)
  | mitigateSlot (j : Fin 512) (slot : Fin 4096)
  | trimSlot (j : Fin 512) (slot : Fin 4096) (pass : List (BitVec 8))
  | heapTrainDone (h : Fin 256) (sweeps : List (BitVec 128)) (temp : BitVec 8)
  | caParityError (h : Fin 256) (m : Fin 2)
  | hcCmdRetrain (a : Agent) (stack : Fin 8)
  | hcCmdClrAddr (a : Agent) (stack : Fin 8)
  | hcCmdClrLost (a : Agent) (stack : Fin 8)
  | hcXcmdFreeze (a : Agent) (stack : Fin 8)
  | brClearFirst (a : Agent)
  -- brine links and lanes (spec/06)
  | linkTxSlot (q : Fin 256) (slot : Fin 4096) (rx : List LaneBlock)
  | cellRelease (q : Fin 256)
  | sampleCellRx (q : Fin 256) (cell : List Word)
  | psumCellRx (q : Fin 256) (cell : List Word)
  | controlCellRx (q : Fin 256) (cell : List Word)
  | meshCellRx (q : Fin 256) (cell : List Word)
  | fillerCellRx (q : Fin 256) (cell : List Word)
  | nakReceived (q : Fin 256) (ack : BitVec 12)
  | replayTimeout (q : Fin 256)
  | blockLockLost (l : Fin 1024)
  | skewRetrain (q : SkewObs)
  | linkSignalDetect (q : Fin 256)
  | linkLockDone (q : Fin 256)
  | linkLockTimeout (q : Fin 256) (locked : BitVec 4)
  | linkDeskewDone (q : Fin 256) (r : DeskewResult)
  | linkParamDone (q : Fin 256) (serial : Word) (peerQuad : BitVec 8) (session : BitVec 15) (width : BitVec 2)
      (us : BitVec 32)
  | linkParamTimeout (q : Fin 256)
  | tsReceivedActive (q : Fin 256)
  | negWidthReq (q : Fin 256) (target : BitVec 2) (token : BitVec 8)
  | negSleepReq (q : Fin 256) (token : BitVec 8)
  | negRetrainReq (q : Fin 256) (token : BitVec 8)
  | negAck (q : Fin 256) (token : BitVec 8)
  | negNak (q : Fin 256) (token : BitVec 8)
  | negCommit (q : Fin 256)
  | negAbort (q : Fin 256)
  | negRequestLapse (q : Fin 256)
  | lowUtilTimer (q : Fin 256)
  | highUtilTrigger (q : Fin 256)
  | sleepIdleTimer (q : Fin 256)
  | wakeEvent (q : Fin 256)
  | wakeBurstDetect (q : Fin 256)
  | peerIdleDetect (q : Fin 256)
  | linkWakeDone (q : Fin 256) (us : BitVec 32)
  | linkCmdRetrain (a : Agent) (page : Fin 4)
  | linkCmdSleep (a : Agent) (page : Fin 4)
  | linkCmdWake (a : Agent) (page : Fin 4)
  | linkCmdWidthUp (a : Agent) (page : Fin 4)
  | laneCmdBitSlip (a : Agent) (page : Fin 8)
  | laneCmdInjBurst (a : Agent) (page : Fin 8)
  | laneCmdPrbsResync (a : Agent) (page : Fin 8)
  | prbsCtrlWrite (a : Agent) (page : Fin 8) (v : Word)
  | prbsLockLost (l : LaneBits)
  | quadModeWrite (a : Agent) (page : Fin 4) (v : Word)
  | eqAdapt (l : Fin 1024) (below here above : Nat)
  | eqLimit (l : Fin 1024)
  -- sluice (spec/07)
  | correctedSample (u : Fin 256) (m : Nat)
  | levelBlock (u : Fin 256) (k : Fin 16)
  | spectrumComplete (u : Fin 256) (j : Nat)
  | dmCommit (a : Agent) (page : Fin 16) (k : Fin 16) (v : Word)
  | gainCommit (a : Agent) (page : Fin 16)
  | winCommit (a : Agent) (page : Fin 16)
  | gainCopy (a : Agent) (page : Fin 16) (k : Fin 16)
  | winDefault (a : Agent) (page : Fin 16)
  | streamReset (a : Agent) (page : Fin 16) (k : Fin 16)
  | clipClr (a : Agent) (page : Fin 16) (k : Fin 16)
  | gainDataWrite (a : Agent) (page : Fin 16) (v : Word)
  | winDataWrite (a : Agent) (page : Fin 16) (v : Word)
  -- pan field, feeders, rakes (spec/09, 10)
  | wait (u : SeqUnit)
  | cstep (p : Fin 256)
  | bstep (p : Fin 256)
  | wload (p : Fin 256)
  | wswap (p : Fin 256)
  | bank (p : Fin 256)
  | drain (p : Fin 256)
  | fill (p : Fin 256)
  | loop (u : SeqUnit)
  | ctx (p : Fin 256)
  | waitat (u : SeqUnit)
  | halt (u : SeqUnit)
  | fcfg (f : Fin 32)
  | fread (f : Fin 32)
  | fadv (f : Fin 32)
  | femit (f : Fin 32)
  | panXcmdPreempt (a : Agent) (page : Fin 16)
  | preemptBoundary (p : Fin 256)
  | panXcmdResume (a : Agent) (page : Fin 16)
  | resumeBoundary (p : Fin 256)
  | panXcmdJobStart (a : Agent) (page : Fin 16)
  | panXcmdJobAbort (a : Agent) (page : Fin 16)
  | opmDataWrite (a : Agent) (page : Fin 16) (v : Word)
  | jobDataWrite (a : Agent) (page : Fin 16) (v : Word)
  | rbind (k : Fin 64)
  | rcfg (k : Fin 64)
  | rxfer (k : Fin 64)
  | rakeStreamEnd (k : Fin 64) (t : Fin 4)
  | blockNotify (p : Producer)
  -- beamforming (spec/11)
  | wtSelCommit (a : Agent) (v : Word)
  | resampleOutput (u : Fin 256) (n : Nat) (nu : Nat)
  -- Ethernet and rings (spec/12)
  | ethLinkUp (e : Fin 32) (eee : Bool)
  | ethLinkDown (e : Fin 32)
  | ethFrameReceive (e : Fin 32) (frame : List Byte) (obs : FrameObs)
  | ringHoldoffExpiry (r : Fin 4096)
  | ethRingFrameTx (e : Fin 32)
  | brynizPacketSend (e : Fin 32)
  | lpiEntry (e : LpiSide)
  | lpiExit (e : LpiSide)
  | ethCmdRestart (a : Agent) (page : Fin 4)
  | dstDataWrite (a : Agent) (v : Word)
  | dstCommit (a : Agent)
  | ringDoorbell (a : Agent) (v : Word)
  -- crossbar, DMA and PCIe (spec/13)
  | xbarArbitration (t : Fin 8)
  | xbarResponse (id : Nat)
  | chCmdStart (a : Agent)
  | chCmdAbort (a : Agent)
  | chCmdClear (a : Agent)
  | move (c : Fin 64)
  | move2d (c : Fin 64)
  | dmaLoop (c : Fin 64)
  | dmaWait (c : Fin 64)
  | dmaWaitTimeout (c : Fin 64)
  | signal (c : Fin 64)
  | fence (c : Fin 64)
  | dmaEnd (c : Fin 64)
  | dmaRetry (c : Fin 64)
  | dmaChannelHalt (c : Fin 64)
  | dmaEvtSet (a : Agent) (v : Word)
  | dmaEvtClr (a : Agent) (v : Word)
  | pcieInboundRequest (r : PcieReq)
  | pcieInboundTimeout (id : Nat)
  | pcieOutboundCompletion (id : Nat) (status : CplStatus) (data : List Byte)
  | pcieCplTimeout (id : Nat)
  | msixUnmask (v : Fin 2048)
  -- references and time bases (spec/14)
  | sourceQualified (k : Fin 7)
  | sourceDisqualified (k : Fin 7)
  | freqWindow (ppb : List Int)
  | sourceEligible (k : Fin 7)
  | refSelection (theta : Int)
  | xoCheck (ppm : Int)
  | pllLock
  | pllUnlock
  | holdoverLimit
  | holdoverSecond (mean : Int)
  | netSlewDone
  | tbMasterEdge
  | tbMasterLost
  | tb0StepCommit (a : Agent) (v : Word)
  | tb3StepCommit (a : Agent) (v : Word)
  | tbSrcWrite (a : Agent) (tb : Fin 4) (v : Word)
  | ptpSample (a : Agent) (v : Word)
  | ptpSampleTimeout
  | ppsOutEdge (rise : Bool)
  -- Yelmel commands (spec/15)
  | commandTakeup (c : Fin 16) (host : Option (List Byte))
  | commandEntryRetry (c : Fin 16) (host : Option (List Byte))
  | nop (c : Fin 16)
  | devInfo (c : Fin 16)
  | status (c : Fin 16)
  | timeRead (c : Fin 16)
  | sessionOpen (c : Fin 16)
  | sessionAuth (c : Fin 16) (host : Option (List Byte))
  | sessionClose (c : Fin 16)
  | notifySet (c : Fin 16)
  | pwrRun (c : Fin 16)
  | pwrIdle (c : Fin 16)
  | pwrStandby (c : Fin 16)
  | imageLoad (c : Fin 16) (host : Option (List Byte))
  | imageArm (c : Fin 16)
  | imageHalt (c : Fin 16)
  | imageCancel (c : Fin 16)
  | imageClear (c : Fin 16)
  | delayModels (c : Fin 16) (host : Option (List Byte))
  | gains (c : Fin 16) (host : Option (List Byte))
  | window (c : Fin 16) (host : Option (List Byte))
  | weightSel (c : Fin 16)
  | destTable (c : Fin 16) (host : Option (List Byte))
  | timeStepArm (c : Fin 16)
  | refSelect (c : Fin 16)
  | tb3Set (c : Fin 16)
  | heapRetrain (c : Fin 16)
  | linkRetrain (c : Fin 16)
  | panPreempt (c : Fin 16)
  | panResume (c : Fin 16)
  | checkpoint (c : Fin 16)
  | updateBegin (c : NvmChan)
  | updateChunk (c : NvmChan) (host : Option (List Byte))
  | updateEnd (c : NvmChan)
  | updateActivate (c : NvmChan)
  | updateConfirm (c : NvmChan)
  | updateStatus (c : Fin 16)
  | updateAbort (c : Fin 16)
  | fwRules (c : Fin 16) (host : Option (List Byte))
  | sigPolicy (c : NvmChan)
  | opkeySet (c : NvmChan) (host : Option (List Byte))
  | keyRevoke (c : NvmChan)
  | tamperCfg (c : Fin 16)
  | resultPost (c : Fin 16)
  | commandTimeout (c : Fin 16)
  | sessionTimeout (c : Fin 16)
  | challengeExpiry (c : Fin 16)
  | authLockoutEnd (c : Fin 16)
  | cqChWrite (a : Agent) (k : Fin 16) (v : Word)
  -- supervisors, updates, security (spec/16)
  | wdFeed (a : Agent) (v : Word)
  | watchdogExpiry
  | coreLockup
  | failoverStart
  | supervisorRelease
  | bootRomDone (ok : Bool) (corrected : BitVec 16) (uncorr : Bool)
  | supervisorActive
  | firmwareReady
  | svCmdRearm (a : Agent) (target : Fin 2)
  | svCmdFailover (a : Agent)
  | svCmdRestart (a : Agent)
  | mgmtRestartTimeout
  | qualifyingBootDone (sv : Fin 2) (ok : Bool)
  | unsupLimitExpiry
  | unsupLimitWrite (a : Agent) (v : Word)
  | checkpointDue
  | checkpointDone (ok : Bool)
  | confirmTimeout
  | gatingEffect (page : Fin 128)
  | debugUnlock (bytes : List Byte)
  | tamperCondition (k : Fin 7)
  | nvmDataWrite (a : Agent) (v : Word)
  | eraseSlot (a : Agent) (slot : Fin 2)
  | nvmEraseDone
  -- salinometer (spec/17)
  | salRunWrite (a : Agent) (v : Word)
  | salEntryStart
  | salDwellEnd (codes : List RawCode)
  | salDelayEnd
  | trigInEdge
  | salSchedRequest
  | urgCtrlGo (a : Agent) (v : Word)
  | urgentDone (codes : List RawCode)
  | trigClr (a : Agent)
  | urgCancel (a : Agent)
  | salConverged (slices : List Word)
  | calStale (t : BitVec 8)
  -- saltern (spec/18)
  | lsaOriginate
  | lsaReceive (q : Fin 256) (cell : List Word)
  | lsaExpiry (k : Fin 64)
  | alignExchange
  | alignReq (q : Fin 256) (cell : List Word) (t2 t3 : BitVec 24)
  | alignRsp (q : Fin 256) (cell : List Word) (t4 : BitVec 24)
  | syncInEdge (phase : Int)
  | alignTimeout
  | epochAdoption
  | meshRequest (r : XbarReq)
  | meshServe
  | meshResponse
  | meshTimeout (tag : Fin 4096)
  -- bittern, test, boundary scan (spec/19)
  | bitternRecord
  | errRseqWrite (a : Agent) (v : Word)
  | sumWrite (a : Agent)
  | ringClr (a : Agent)
  | ffClr (a : Agent)
  | summaryWrite
  | testModeWrite (a : Agent) (v : Word)
  | bistStart (a : Agent) (group : Fin 16)
  | bistDone (failing : List Nat)
  | tapInstruction (op : BitVec 8)
  | trstNAssert
  -- rows at the table's end
  | porNRelease
  | perstNRelease
  | pcieLinkUp (speed : Fin 6) (width : Fin 17)
  | pcieLinkDown
  | pcieDstateChange (cfg : HostCfg)
  | refusedRead (r : Access)
  | prbsLock (l : LaneBits)
  | widthIncreaseLanesReady (q : Fin 256)
  | malformedCellRx (q : Fin 256) (why : MalformedCell)
  deriving DecidableEq, Repr

end Sys2Proof
end

