-- ==== Sys2Proof/Config.lean ====
section
/-! DEFINITION. What the spec leaves open, as constants with no body: nothing can be proved of their values.
Each is applied to the model's counter of free values (`State.free`) or to the operands it depends on; each has
its row in notes/assumptions. -/

namespace Sys2Proof.Config

/-- Which feed lies at the higher voltage when both are qualified (R29): notes/assumptions/10.md. -/
opaque feedHigher : Nat → Bool

/-- The order in which test back-pressure takes the 1 µs windows of a page (R515): of 256 windows in a row those of the lowest
keys are pressed. By page and window number: notes/assumptions/11.md. -/
opaque pressKey : Nat → Nat → Nat

/-- A byte of a frozen controller's lost data, by the freeze and the address (R236): notes/assumptions/261.md. -/
opaque lostByte : Nat → Nat → BitVec 8

/-- For how many slots a pseudo-channel holds the data of a write slot until they are in the array, by pseudo-channel and
absolute slot number (R233): notes/assumptions/262.md. -/
opaque holdSlots : Nat → Nat → Nat

/-- The peaking at which a lane's eye is widest when it trains (R168): notes/assumptions/12.md. -/
opaque eqTrained : Nat → BitVec 4

/-- What a PRBS generator starts from (R169): notes/assumptions/267.md. -/
opaque prbsSeed : Nat → Nat

/-- How far a filter-bank component lies from the exact value, within the bound of R201: notes/assumptions/14.md. -/
opaque filterDev : Nat → Int

/-- A byte of Ethernet staging memory read for diagnosis (R358): notes/assumptions/15.md. -/
opaque stagingByte : Nat → BitVec 8

/-- How far a time stamp lies from its event, in quarter nanoseconds, within the bound of R347:
notes/assumptions/16.md. -/
opaque stampDev : Nat → Int

/-- A port's PHY latency in quarter nanoseconds (R347): notes/assumptions/16.md. -/
opaque phyDelay : Nat → Int

/-- How long a port takes to wake from low-power idle, in SCLK, by its PHY (R348 leaves it to Clause 78):
notes/assumptions/273.md. -/
opaque fastWake : Nat → Nat

/-- A fixed-point delay value whose binary64 value the format of R192 cannot hold: notes/assumptions/17.md. -/
opaque delayFixed : Nat → Int

/-- The default window's centre coefficient 1.0 as signed 1.17 holds it (R202): notes/assumptions/18.md. -/
opaque winPeak : BitVec 18

/-- Whether an 18-bit rotation coefficient is the exact value rounded up or down (R206), by 2 × the angle in 2^-16
turn, plus 1 for the sine: notes/assumptions/19.md. -/
opaque rotUp : Nat → Bool

/-- A requantised component whose scale R211 does not state: notes/assumptions/20.md. -/
opaque quantOpen : Nat → Int

/-- NG of a window adopted while no image runs, a binary64 word (R210 gives it no C): notes/assumptions/265.md. -/
opaque noiseOpen : Nat → Word

/-- A beam sum outside int32 (R255): notes/assumptions/21.md. -/
opaque beamOver : Nat → Int

/-- The heap word of a block or record put into a ring whose `SPAN` is 0 (R294, R300, R325): notes/assumptions/22.md. -/
opaque dumpPlace : Nat → BitVec 33

/-- `INNER` or `OUTER` after an `FADV` whose `WRAP` or `OMOD` is 0 (R260, R268): notes/assumptions/23.md. -/
opaque indexOpen : Nat → BitVec 33

/-- Whether the lid switch reads open, by SCLK since AON start (R474): notes/assumptions/24.md. -/
opaque lidOpen : Nat → Bool

/-- A challenge drawn for a session or for debug unlock, as a 256-bit number (R426, R467): notes/assumptions/25.md. -/
opaque challenge : Nat → Nat

/-- The levels at pins that nothing drives (R43): notes/assumptions/26.md. -/
opaque pinLevel : Nat → BitVec 18

/-- Whether a page whose `PG_STAT.STATE` the spec does not state reads `ACTIVE` rather than `READY`, by page and SCLK
since AON start (R59): notes/assumptions/27.md. -/
opaque pageBusy : Nat → Nat → Bool

/-- How long a page whose chapter states no condition for it stays in `STARTING` once enabled, in SCLK, by page and the moment of its
`ENABLE` (R59, R61): notes/assumptions/27.md. -/
opaque startTime : Nat → Nat → Nat

/-- The phase θ in ps that the root PLL measures when it restarts from XO with a source eligible (R396, R408):
notes/assumptions/28.md. -/
opaque restartPhase : Nat → Int

/-- The control value that the reference loop of the root PLL gives, in 2^-40, by SCLK since AON start (R389, R393):
notes/assumptions/29.md. -/
opaque loopCtrl : Nat → Int

/-- The phase error of the root PLL's loop in ps, by SCLK since AON start (R393): notes/assumptions/29.md. -/
opaque loopPhase : Nat → Int

/-- A result word of an event entry that no rule states (R419, R434 to R441): notes/assumptions/30.md. -/
opaque openResult : Nat → BitVec 64

/-- A session identifier as drawn (R424): notes/assumptions/31.md. -/
opaque sessionId : Nat → BitVec 32

/-- The bytes that an erased overlay slot reads as, by NVM offset (R474): notes/assumptions/32.md. -/
opaque erasedByte : Nat → BitVec 8

end Sys2Proof.Config
end

