-- ==== Sys2Proof/Machine/Bits.lean ====
section
/-! DEFINITION. Bit fields of words and bytes, saturating counts, byte order, and the sparse maps in which
State keeps what is indexed: a list of (key, value) pairs with keys strictly rising and no entry equal to what
an unlisted key reads as. -/

namespace Sys2Proof.Machine

/-- Field [hi:lo] of a word. -/
def fld (w : Word) (hi lo : Nat) : Nat := w.toNat / 2 ^ lo % 2 ^ (hi + 1 - lo)

/-- Field [hi:lo] of a word, as a two's complement number. -/
def sfld (w : Word) (hi lo : Nat) : Int :=
  let n := hi + 1 - lo
  if fld w hi lo < 2 ^ (n - 1) then (fld w hi lo : Int) else (fld w hi lo : Int) - (2 ^ n : Nat)

/-- The word with field [hi:lo] replaced by the low bits of `v`. -/
def setFld (w : Word) (hi lo v : Nat) : Word :=
  BitVec.ofNat 64 (w.toNat - fld w hi lo * 2 ^ lo + v % 2 ^ (hi + 1 - lo) * 2 ^ lo)

/-- Bit `i` of a word. -/
def bit (w : Word) (i : Nat) : Bool := w.getLsbD i

/-- The word with bit `i` set. -/
def setBit (w : Word) (i : Nat) : Word := w ||| BitVec.ofNat 64 (2 ^ i)

/-- The word with bit `i` clear. -/
def clrBit (w : Word) (i : Nat) : Word := w &&& ~~~(BitVec.ofNat 64 (2 ^ i))

/-- The word with bit `i` put to `b`. -/
def putBit (w : Word) (i : Nat) (b : Bool) : Word := if b then setBit w i else clrBit w i

/-- A word of a number, modulo 2^64. -/
def word (n : Nat) : Word := BitVec.ofNat 64 n

/-- A word of a signed number, in two's complement. -/
def wordI (n : Int) : Word := BitVec.ofInt 64 n

/-- 1 for true. -/
def b2n (b : Bool) : Nat := if b then 1 else 0

/-- A field holding `v` at bit `lo`, for assembling a word as a sum of fields. -/
def at_ (lo v : Nat) : Nat := v * 2 ^ lo

/-- A field of `n` bits that saturates, `k` added to it. -/
def satAdd (n v k : Nat) : Nat := min (v + k) (2 ^ n - 1)

/-- Field [hi:lo] of a word with `k` added, saturating at all ones. -/
def satFld (w : Word) (hi lo k : Nat) : Word := setFld w hi lo (satAdd (hi + 1 - lo) (fld w hi lo) k)

/-- A 64-bit counter with `k` added, saturating. -/
def satWord (w : Word) (k : Nat) : Word := word (satAdd 64 w.toNat k)

/-- The number a little-endian byte string spells. -/
def leNat : List Byte → Nat
  | [] => 0
  | b :: bs => b.toNat + 256 * leNat bs

/-- The `n` bytes of a number, least significant first. -/
def leBytes : Nat → Nat → List Byte
  | 0, _ => []
  | n + 1, v => BitVec.ofNat 8 v :: leBytes n (v / 256)

/-- The number a big-endian byte string spells. -/
def beNat (bs : List Byte) : Nat := bs.foldl (fun a b => a * 256 + b.toNat) 0

/-- The `n` bytes of a number, most significant first. -/
def beBytes (n v : Nat) : List Byte := (leBytes n v).reverse

/-- A signed number clamped to `lo..hi`. -/
def clampI (lo hi v : Int) : Int := if v < lo then lo else if hi < v then hi else v

/-- A signed number as a field of `n` bits. -/
def field2c (n : Nat) (v : Int) : Nat := (v % (2 ^ n : Nat)).toNat

/-- The two's complement number of an `n`-bit field. -/
def int2c (n : Nat) (v : Nat) : Int :=
  if v % 2 ^ n < 2 ^ (n - 1) then (v % 2 ^ n : Nat) else ((v % 2 ^ n : Nat) : Int) - (2 ^ n : Nat)

/-- The positions of the ones of a mask of `n` bits. -/
def onesOf (n : Nat) (w : Nat) : List Nat := (List.range n).filter fun i => w.testBit i

/-- A sparse map from numbers to values. -/
abbrev Map (α : Type) := List (Nat × α)

/-- What a map has at a key: the listed value, or what an unlisted key reads as. -/
def mget {α : Type} (d : Nat → α) : Map α → Nat → α
  | [], k => d k
  | (k', v) :: m, k => if k' = k then v else mget d m k

/-- Insertion before the first greater key. -/
def minsert {α : Type} (k : Nat) (v : α) : Map α → Map α
  | [] => [(k, v)]
  | (k', v') :: m => if k < k' then (k, v) :: (k', v') :: m else (k', v') :: minsert k v m

/-- A map without its entry at a key. -/
def merase {α : Type} (m : Map α) (k : Nat) : Map α := m.filter fun e => e.1 ≠ k

/-- The map with a key at a value; the value an unlisted key reads as is not listed. -/
def mset {α : Type} [DecidableEq α] (d : Nat → α) (m : Map α) (k : Nat) (v : α) : Map α :=
  if v = d k then merase m k else minsert k v (merase m k)

/-- The canonical form: keys strictly rising, no entry equal to what an unlisted key reads as. -/
def mwf {α : Type} [DecidableEq α] (d : Nat → α) : Map α → Bool
  | [] => true
  | [(k, v)] => decide (v ≠ d k)
  | (k, v) :: (k', v') :: m => decide (v ≠ d k) && decide (k < k') && mwf d ((k', v') :: m)

/-- A map of present entries: `none` where nothing is held. -/
abbrev PMap (α : Type) := Map (Option α)

/-- The entry a map of present entries holds at a key. -/
def pget {α : Type} (m : PMap α) (k : Nat) : Option α := mget (fun _ => none) m k

/-- The map with an entry present, or removed with `none`. -/
def pset {α : Type} [DecidableEq α] (m : PMap α) (k : Nat) (v : Option α) : PMap α := mset (fun _ => none) m k v

/-- Memory: bytes by address; a byte nothing has written reads 0. -/
abbrev Memory := Map Byte

/-- One byte of memory. -/
def Memory.byte (m : Memory) (a : Nat) : Byte := mget (fun _ => 0) m a

/-- Memory with one byte written. -/
def Memory.setByte (m : Memory) (a : Nat) (b : Byte) : Memory := mset (fun _ => 0) m a b

/-- The `n` bytes from an address on. -/
def Memory.bytes (m : Memory) (a : Nat) : Nat → List Byte
  | 0 => []
  | n + 1 => m.byte a :: m.bytes (a + 1) n

/-- Memory with a byte string written from an address on. -/
def Memory.write (m : Memory) (a : Nat) : List Byte → Memory
  | [] => m
  | b :: bs => (m.setByte a b).write (a + 1) bs

/-- The 64-bit little-endian word at an address. -/
def Memory.word (m : Memory) (a : Nat) : Word := BitVec.ofNat 64 (leNat (m.bytes a 8))

/-- Memory with a 64-bit little-endian word written. -/
def Memory.setWord (m : Memory) (a : Nat) (w : Word) : Memory := m.write a (leBytes 8 w.toNat)

/-- Memory with the bytes alone whose addresses are to stay; the others read 0. -/
def Memory.keep (m : Memory) (p : Nat → Bool) : Memory := m.filter fun e => p e.1

/-- The canonical form of memory. -/
def Memory.wf (m : Memory) : Bool := mwf (fun _ => (0 : Byte)) m

end Sys2Proof.Machine
end

