-- ==== Sys2Proof/Machine/Crypto.lean ====
section
/-! DEFINITION. The checks that the spec takes from standards: CRC-32C (R92), SHA-384 and ECDSA over P-384
(R99, R424, R460, R467). -/

namespace Sys2Proof.Machine

/-- One bit step of a reflected CRC of polynomial `poly`. -/
def crcBit (poly c : Nat) : Nat := if c % 2 = 1 then (c / 2) ^^^ poly else c / 2

/-- A byte taken into a reflected CRC. -/
def crcByte (poly c : Nat) (b : Byte) : Nat :=
  (List.range 8).foldl (fun a _ => crcBit poly a) (c ^^^ b.toNat)

/-- CRC-32C of a byte string: Castagnoli polynomial 0x1EDC6F41 reflected, initial value and final XOR all ones
(R92). -/
def crc32c (bs : List Byte) : Nat := bs.foldl (crcByte 0x82F63B78) 0xFFFFFFFF ^^^ 0xFFFFFFFF

/-- CRC-32 of IEEE 802.3, for the frame check sequence. -/
def crc32 (bs : List Byte) : Nat := bs.foldl (crcByte 0xEDB88320) 0xFFFFFFFF ^^^ 0xFFFFFFFF

/-- The largest r below 2^(n) with r^k ≤ v, one bit at a time from the highest. -/
def rootBits (k v : Nat) : Nat → Nat → Nat
  | 0, r => r
  | n + 1, r => if (r + 2 ^ n) ^ k ≤ v then rootBits k v n (r + 2 ^ n) else rootBits k v n r

/-- Whether a number is prime, by trial of every smaller divisor. -/
def isPrime (n : Nat) : Bool := 2 ≤ n && (List.range n).all fun d => d < 2 || n % d ≠ 0

/-- The first 80 primes. -/
def primes80 : List Nat := (List.range 410).filter isPrime

/-- The round constants of SHA-384: the first 64 bits of the fractional parts of the primes' cube roots. -/
def shaK : List Nat := primes80.map fun p => rootBits 3 (p * 2 ^ 192) 68 0 % 2 ^ 64

/-- The initial hash of SHA-384: the first 64 bits of the fractional parts of the square roots of the ninth to
sixteenth primes. -/
def shaInit : List Nat := ((primes80.drop 8).take 8).map fun p => rootBits 2 (p * 2 ^ 128) 68 0 % 2 ^ 64

/-- Rotation right of a 64-bit word. -/
def rotr (n : Nat) (w : Word) : Word := w.rotateRight n

/-- The message schedule extended by one word from its last sixteen, newest first. -/
def shaNext (ws : List Word) : Word :=
  let g := fun i => ws.getD i 0
  let s0 := rotr 1 (g 14) ^^^ rotr 8 (g 14) ^^^ (g 14 >>> 7)
  let s1 := rotr 19 (g 1) ^^^ rotr 61 (g 1) ^^^ (g 1 >>> 6)
  g 15 + s0 + g 6 + s1

/-- The schedule's 80 words, oldest first. -/
def shaSchedule (block : List Word) : List Word :=
  ((List.range 64).foldl (fun ws _ => shaNext ws :: ws) block.reverse).reverse

/-- The eight working words of a round. -/
structure ShaRegs where
  a : Word
  b : Word
  c : Word
  d : Word
  e : Word
  f : Word
  g : Word
  h : Word
  deriving DecidableEq, Repr

/-- One round with constant `k` and schedule word `w`. -/
def shaRound (r : ShaRegs) (kw : Nat × Word) : ShaRegs :=
  let t1 := r.h + (rotr 14 r.e ^^^ rotr 18 r.e ^^^ rotr 41 r.e) + ((r.e &&& r.f) ^^^ (~~~r.e &&& r.g))
    + word kw.1 + kw.2
  let t2 := (rotr 28 r.a ^^^ rotr 34 r.a ^^^ rotr 39 r.a) + ((r.a &&& r.b) ^^^ (r.a &&& r.c) ^^^ (r.b &&& r.c))
  { a := t1 + t2, b := r.a, c := r.b, d := r.c, e := r.d + t1, f := r.e, g := r.f, h := r.g }

/-- The hash after one 128-byte block. -/
def shaBlock (h : ShaRegs) (block : List Word) : ShaRegs :=
  let r := (shaK.zip (shaSchedule block)).foldl shaRound h
  { a := h.a + r.a, b := h.b + r.b, c := h.c + r.c, d := h.d + r.d,
    e := h.e + r.e, f := h.f + r.f, g := h.g + r.g, h := h.h + r.h }

/-- A list cut into pieces of `n`, at most `fuel` of them. -/
def chunks {α : Type} (n : Nat) : Nat → List α → List (List α)
  | 0, _ => []
  | _, [] => []
  | fuel + 1, xs => xs.take n :: chunks n fuel (xs.drop n)

/-- The message with SHA-384's padding: a one bit, zeros, the 128-bit length. -/
def shaPad (m : List Byte) : List Byte :=
  let z := (240 - (m.length + 1) % 128) % 128
  m ++ [0x80] ++ List.replicate z 0 ++ beBytes 16 (8 * m.length)

/-- SHA-384 of a byte string, as a number of 384 bits. -/
def sha384 (m : List Byte) : Nat :=
  let p := shaPad m
  let i := fun k => word (shaInit.getD k 0)
  let h := (chunks 128 p.length p).foldl
    (fun h b => shaBlock h ((chunks 8 16 b).map fun w => word (beNat w)))
    { a := i 0, b := i 1, c := i 2, d := i 3, e := i 4, f := i 5, g := i 6, h := i 7 }
  [h.a, h.b, h.c, h.d, h.e, h.f].foldl (fun n w => n * 2 ^ 64 + w.toNat) 0

/-- The field prime of P-384. -/
def p384p : Nat := 2 ^ 384 - 2 ^ 128 - 2 ^ 96 + 2 ^ 32 - 1

/-- The group order of P-384. -/
def p384n : Nat :=
  0xFFFFFFFFFFFFFFFFFFFFFFFFFFFFFFFFFFFFFFFFFFFFFFFFC7634D81F4372DDF581A0DB248B0A77AECEC196ACCC52973

/-- The curve constant b of P-384. -/
def p384b : Nat :=
  0xB3312FA7E23EE7E4988E056BE3F82D19181D9C6EFE8141120314088F5013875AC656398D8A2ED19D2A85C8EDD3EC2AEF

/-- The base point of P-384. -/
def p384g : Nat × Nat :=
  (0xAA87CA22BE8B05378EB1C71EF320AD746E1D3B628BA79B9859F741E082542A385502F25DBF55296C3A545E3872760AB7,
   0x3617DE4A96262C6F5D9E98BF9292DC29F8F41DBD289A147CE9DA3113B5F0B8C00A60B1CE1D7E819D7A431D7C90EA0E5F)

/-- x^e modulo m, over the low `bits` bits of e from the highest. -/
def powMod (m x e : Nat) : Nat → Nat
  | 0 => 1 % m
  | n + 1 =>
    let h := powMod m x (e / 2) n
    if e % 2 = 1 then h * h % m * x % m else h * h % m

/-- The inverse modulo a prime below 2^384. -/
def invMod (m x : Nat) : Nat := powMod m (x % m) (m - 2) 384

/-- Difference modulo m. -/
def subMod (m a b : Nat) : Nat := (a + m - b % m) % m

/-- The sum of two points of P-384; `none` is the point at infinity. -/
def ecAdd : Option (Nat × Nat) → Option (Nat × Nat) → Option (Nat × Nat)
  | none, q => q
  | p, none => p
  | some (x1, y1), some (x2, y2) =>
    let m := p384p
    if x1 = x2 ∧ (y1 + y2) % m = 0 then none
    else
      let l := if x1 = x2 then subMod m (3 * x1 * x1) 3 * invMod m (2 * y1) % m
        else subMod m y2 y1 * invMod m (subMod m x2 x1) % m
      let x3 := subMod m (subMod m (l * l) x1) x2
      some (x3, subMod m (l * subMod m x1 x3) y1)

/-- The multiple of a point by the low `bits` bits of a number. -/
def ecMul (p : Option (Nat × Nat)) (k : Nat) : Nat → Option (Nat × Nat)
  | 0 => none
  | n + 1 =>
    let h := ecMul p (k / 2) n
    let d := ecAdd h h
    if k % 2 = 1 then ecAdd d p else d

/-- Whether a point lies on the curve. -/
def onCurve (x y : Nat) : Bool :=
  decide (x < p384p) && decide (y < p384p) && decide (y * y % p384p = (subMod p384p (x * x * x) (3 * x) + p384b) % p384p)

/-- Whether (r, s) is an ECDSA P-384 signature of a 384-bit digest under the key (x, y). -/
def ecdsaVerify (x y digest r s : Nat) : Bool :=
  let n := p384n
  if r = 0 ∨ n ≤ r ∨ s = 0 ∨ n ≤ s then false
  else if !onCurve x y then false
  else
    let w := invMod n s
    match ecAdd (ecMul (some p384g) (digest * w % n) 384) (ecMul (some (x, y)) (r * w % n) 384) with
    | none => false
    | some (x1, _) => x1 % n == r

end Sys2Proof.Machine
end

