-- ==== Sys2Proof/Machine/RegTable.lean ====
section
/-! DEFINITION. The register tables of the spec's chapters, one descriptor for each row: where the register
lies (R51), how it may be accessed (R6), its value after power-on reset and the bits that a write must leave
zero (the reserved ranges of its field tables). Which descriptor an offset of a page names is `findReg`. -/

namespace Sys2Proof.Machine

/-- The access codes of R6. -/
inductive Acc where
  | ro | rw | w1c | wo | rwl
  deriving DecidableEq, Repr

/-- One row of a register table. `pages` pages from `page` on hold it, each with `banks` banks; `count`
registers lie `stride` apart from `off`. `share` banks show one register (256: page-wide). `grp` is the number
of members of a group whose head this is, `mem` a member's distance from its head (R56). -/
structure Reg where
  page : Nat
  off : Nat
  pages : Nat := 1
  banks : Nat := 1
  count : Nat := 1
  stride : Nat := 8
  acc : Acc
  reset : Nat := 0
  resetStep : Nat := 0
  resv : Nat := 0
  share : Nat := 1
  perAgent : Bool := false
  held : Bool := false
  grp : Nat := 0
  mem : Nat := 0
  deriving DecidableEq, Repr

namespace R

/-- `PWR_STAT` (spec/02 R48). -/
def PWR_STAT : Reg := { page := 0x08, off := 0x100, acc := .ro }
/-- `PWR_FAULT` (spec/02 R48). -/
def PWR_FAULT : Reg := { page := 0x08, off := 0x108, acc := .w1c, resv := 0xFFFFFFFFFFFF0000 }
/-- `PIN_OE` (spec/02 R49). -/
def PIN_OE : Reg := { page := 0x5C, off := 0x100, acc := .rw, resv := 0xFFFFFFFFFFFC0000 }
/-- `PIN_OUT` (spec/02 R49). -/
def PIN_OUT : Reg := { page := 0x5C, off := 0x108, acc := .rw, resv := 0xFFFFFFFFFFFF0000 }
/-- `PIN_IN` (spec/02 R49). -/
def PIN_IN : Reg := { page := 0x5C, off := 0x110, acc := .ro }
/-- `PIN_FAULT` (spec/02 R49). -/
def PIN_FAULT : Reg := { page := 0x5C, off := 0x118, acc := .w1c, resv := 0xFFFC0000FFFC0000 }
/-- `PIN_MISMATCH` (spec/02 R49). -/
def PIN_MISMATCH : Reg := { page := 0x5C, off := 0x120, acc := .ro }
/-- `PIN_RETRY` (spec/02 R49). -/
def PIN_RETRY : Reg := { page := 0x5C, off := 0x128, acc := .rw, resv := 0xFFFFFFFFFFFF0F0E }
/-- `PIN_LAST_EVT` (spec/02 R49). -/
def PIN_LAST_EVT : Reg := { page := 0x5C, off := 0x130, acc := .ro }
/-- `DEV_ID` (spec/03 R81). -/
def DEV_ID : Reg := { page := 0x00, off := 0x100, acc := .ro, reset := 0x4C4D481001000001 }
/-- `DEV_SERIAL` (spec/03 R81). -/
def DEV_SERIAL : Reg := { page := 0x00, off := 0x108, acc := .ro }
/-- `DEV_STATUS` (spec/03 R81). -/
def DEV_STATUS : Reg := { page := 0x00, off := 0x110, acc := .ro }
/-- `LAST_REJECT` (spec/03 R81). -/
def LAST_REJECT : Reg := { page := 0x00, off := 0x118, acc := .w1c, resv := 0xF0F80000 }
/-- `TIDE_NOW` (spec/03 R81). -/
def TIDE_NOW : Reg := { page := 0x00, off := 0x120, acc := .ro }
/-- `EVT_SUM_LO` (spec/03 R81). -/
def EVT_SUM_LO : Reg := { page := 0x00, off := 0x128, acc := .ro }
/-- `EVT_SUM_HI` (spec/03 R81). -/
def EVT_SUM_HI : Reg := { page := 0x00, off := 0x130, acc := .ro }
/-- `REJ_SUM_LO` (spec/03 R81). -/
def REJ_SUM_LO : Reg := { page := 0x00, off := 0x138, acc := .ro }
/-- `REJ_SUM_HI` (spec/03 R81). -/
def REJ_SUM_HI : Reg := { page := 0x00, off := 0x140, acc := .ro }
/-- `EVT_ROUTE` (spec/03 R81). -/
def EVT_ROUTE : Reg := { page := 0x00, off := 0x148, acc := .rw, resv := 0xFFFFF800FFFFFFFC }
/-- `SCRATCH` (spec/03 R81). -/
def SCRATCH : Reg := { page := 0x00, off := 0x150, acc := .rw }
/-- `AGENT_ID` (spec/03 R81). -/
def AGENT_ID : Reg := { page := 0x00, off := 0x158, acc := .ro }
/-- `RESET_CAUSE` (spec/03 R81). -/
def RESET_CAUSE : Reg := { page := 0x00, off := 0x160, acc := .ro }
/-- `SCHED_STAT` (spec/04 R115). -/
def SCHED_STAT : Reg := { page := 0x10, off := 0x100, acc := .ro }
/-- `TIDE` (spec/04 R115). -/
def TIDE : Reg := { page := 0x10, off := 0x108, acc := .ro, grp := 1 }
/-- `EPOCH_SLOT` (spec/04 R115). -/
def EPOCH_SLOT : Reg := { page := 0x10, off := 0x110, acc := .ro, mem := 8 }
/-- `RUN_ID` (spec/04 R115). -/
def RUN_ID : Reg := { page := 0x10, off := 0x118, acc := .ro }
/-- `STORE0_ID` (spec/04 R115). -/
def STORE0_ID : Reg := { page := 0x10, off := 0x120, acc := .ro }
/-- `STORE1_ID` (spec/04 R115). -/
def STORE1_ID : Reg := { page := 0x10, off := 0x128, acc := .ro }
/-- `LOAD_CMD` (spec/04 R115). -/
def LOAD_CMD : Reg := { page := 0x10, off := 0x130, acc := .wo, resv := 0xFFFFFFFFFFFFFEFC }
/-- `LOAD_STAT` (spec/04 R115). -/
def LOAD_STAT : Reg := { page := 0x10, off := 0x138, acc := .ro }
/-- `ARM_TIDE` (spec/04 R115). -/
def ARM_TIDE : Reg := { page := 0x10, off := 0x140, acc := .rw }
/-- `ARM_CTRL` (spec/04 R115). -/
def ARM_CTRL : Reg := { page := 0x10, off := 0x148, acc := .rw, resv := 0xFFFFFCFC }
/-- `ARM_CANCEL` (spec/04 R115). -/
def ARM_CANCEL : Reg := { page := 0x10, off := 0x150, acc := .wo, resv := 0xFFFFFFFFFFFFFFFE }
/-- `SWAP_STAT` (spec/04 R115). -/
def SWAP_STAT : Reg := { page := 0x10, off := 0x158, acc := .ro }
/-- `SWAP_TIDE` (spec/04 R115). -/
def SWAP_TIDE : Reg := { page := 0x10, off := 0x160, acc := .ro }
/-- `BUD_SHAPE` (spec/04 R116). -/
def BUD_SHAPE : Reg := { page := 0x11, off := 0x100, acc := .ro }
/-- `BUD_CHUNK_INTEG` (spec/04 R116). -/
def BUD_CHUNK_INTEG : Reg := { page := 0x11, off := 0x108, acc := .ro }
/-- `BUD_PHASE` (spec/04 R116). -/
def BUD_PHASE : Reg := { page := 0x11, off := 0x110, acc := .ro }
/-- `BUD_DUMP` (spec/04 R116). -/
def BUD_DUMP : Reg := { page := 0x11, off := 0x118, acc := .ro }
/-- `BUD_LAYOUT` (spec/04 R116). -/
def BUD_LAYOUT : Reg := { page := 0x11, off := 0x120, acc := .ro }
/-- `BUD_HEAP_ALLOC` (spec/04 R116). -/
def BUD_HEAP_ALLOC : Reg := { page := 0x11, off := 0x128, acc := .ro }
/-- `BUD_HEAP_BW` (spec/04 R116). -/
def BUD_HEAP_BW : Reg := { page := 0x11, off := 0x130, acc := .ro }
/-- `BUD_PORTS` (spec/04 R116). -/
def BUD_PORTS : Reg := { page := 0x11, off := 0x138, acc := .ro }
/-- `PROBE_SEL` (spec/04 R117). -/
def PROBE_SEL : Reg := { page := 0x12, off := 0x100, acc := .rw, resv := 0xFFFFFFFF3FE00000 }
/-- `PROBE_DATA` (spec/04 R117). -/
def PROBE_DATA : Reg := { page := 0x12, off := 0x108, acc := .ro }
/-- `BR_HEAP` (spec/05 R143). -/
def BR_HEAP : Reg := { page := 0x12, off := 0x110, acc := .rw }
/-- `BR_BUDGET` (spec/05 R143). -/
def BR_BUDGET : Reg := { page := 0x12, off := 0x118, acc := .rw }
/-- `BR_BANK` (spec/05 R143). -/
def BR_BANK : Reg := { page := 0x12, off := 0x120, acc := .rw }
/-- `BR_RAKE` (spec/05 R143). -/
def BR_RAKE : Reg := { page := 0x12, off := 0x128, acc := .rw }
/-- `BR_FEED` (spec/05 R143). -/
def BR_FEED : Reg := { page := 0x12, off := 0x130, acc := .rw }
/-- `BR_LINK` (spec/05 R143). -/
def BR_LINK : Reg := { page := 0x12, off := 0x138, acc := .rw }
/-- `BR_ETH` (spec/05 R143). -/
def BR_ETH : Reg := { page := 0x12, off := 0x140, acc := .rw }
/-- `BR_SLUICE` (spec/05 R143). -/
def BR_SLUICE : Reg := { page := 0x12, off := 0x148, acc := .rw }
/-- `BR_FIRST` (spec/05 R143). -/
def BR_FIRST : Reg := { page := 0x12, off := 0x150, acc := .ro }
/-- `BR_CLEAR` (spec/05 R143). -/
def BR_CLEAR : Reg := { page := 0x12, off := 0x158, acc := .wo, resv := 0xFFFFFFFFFFFFFFFE }
/-- `STRESS_TIDES` (spec/05 R143). -/
def STRESS_TIDES : Reg := { page := 0x12, off := 0x160, acc := .rw }
/-- `LANE_CFG` (spec/06 R181). -/
def LANE_CFG : Reg := { page := 0x48, off := 0x100, pages := 8, banks := 128, acc := .rw, reset := 0x834, resv := 0xFFFFFFFFFFFFE083 }
/-- `LANE_STAT` (spec/06 R181). -/
def LANE_STAT : Reg := { page := 0x48, off := 0x108, pages := 8, banks := 128, acc := .ro }
/-- `PRBS_CTRL` (spec/06 R181). -/
def PRBS_CTRL : Reg := { page := 0x48, off := 0x110, pages := 8, banks := 128, acc := .rw, resv := 0xFFFFFFFFFFFFF1F1 }
/-- `PRBS_ERR` (spec/06 R181). -/
def PRBS_ERR : Reg := { page := 0x48, off := 0x118, pages := 8, banks := 128, acc := .rw }
/-- `PRBS_BITS` (spec/06 R181). -/
def PRBS_BITS : Reg := { page := 0x48, off := 0x120, pages := 8, banks := 128, acc := .rw }
/-- `PRBS_RESYNC` (spec/06 R181). -/
def PRBS_RESYNC : Reg := { page := 0x48, off := 0x128, pages := 8, banks := 128, acc := .rw }
/-- `BLK_ERR` (spec/06 R181). -/
def BLK_ERR : Reg := { page := 0x48, off := 0x130, pages := 8, banks := 128, acc := .rw }
/-- `LOCK_LOSS` (spec/06 R181). -/
def LOCK_LOSS : Reg := { page := 0x48, off := 0x138, pages := 8, banks := 128, acc := .rw }
/-- `LANE_INJ` (spec/06 R181). -/
def LANE_INJ : Reg := { page := 0x48, off := 0x140, pages := 8, banks := 128, acc := .rw, resv := 0xFFFFFFFFFF00FF03 }
/-- `LANE_CMD` (spec/06 R181). -/
def LANE_CMD : Reg := { page := 0x48, off := 0x148, pages := 8, banks := 128, acc := .wo, resv := 0xFFFFFFFFFFFFFFF8 }
/-- `LANE_XCFG` (spec/06 R181). -/
def LANE_XCFG : Reg := { page := 0x48, off := 0x800, pages := 8, banks := 128, acc := .rw, resv := 0xFFFFFFFFFFFFFFF8 }
/-- `QUAD_MODE` (spec/06 R183). -/
def QUAD_MODE : Reg := { page := 0x50, off := 0x100, pages := 4, banks := 64, acc := .rw, resv := 0xFFFFFFFFFFFFFCFC, held := true }
/-- `LINK_CFG` (spec/06 R183). -/
def LINK_CFG : Reg := { page := 0x50, off := 0x108, pages := 4, banks := 64, acc := .rw, reset := 0x8000C84002, resv := 0xFFFFFF0F000000CC }
/-- `LINK_PWR` (spec/06 R183). -/
def LINK_PWR : Reg := { page := 0x50, off := 0x110, pages := 4, banks := 64, acc := .rw, reset := 0x3E800000064 }
/-- `LINK_STAT` (spec/06 R183). -/
def LINK_STAT : Reg := { page := 0x50, off := 0x118, pages := 4, banks := 64, acc := .ro }
/-- `PEER_SERIAL` (spec/06 R183). -/
def PEER_SERIAL : Reg := { page := 0x50, off := 0x120, pages := 4, banks := 64, acc := .ro }
/-- `PEER_PORT` (spec/06 R183). -/
def PEER_PORT : Reg := { page := 0x50, off := 0x128, pages := 4, banks := 64, acc := .ro }
/-- `LINK_CMD` (spec/06 R183). -/
def LINK_CMD : Reg := { page := 0x50, off := 0x130, pages := 4, banks := 64, acc := .wo, resv := 0xFFFFFFFFFFFFFFF0 }
/-- `RX_BOUND` (spec/06 R183). -/
def RX_BOUND : Reg := { page := 0x50, off := 0x138, pages := 4, banks := 64, acc := .rw, resv := 0xFFFFFFFFFFFF0000, held := true }
/-- `CELLS_RX` (spec/06 R183). -/
def CELLS_RX : Reg := { page := 0x50, off := 0x140, pages := 4, banks := 64, acc := .rw }
/-- `CELLS_TX` (spec/06 R183). -/
def CELLS_TX : Reg := { page := 0x50, off := 0x148, pages := 4, banks := 64, acc := .rw }
/-- `DROP_CRC` (spec/06 R183). -/
def DROP_CRC : Reg := { page := 0x50, off := 0x150, pages := 4, banks := 64, acc := .rw }
/-- `DROP_FORM` (spec/06 R183). -/
def DROP_FORM : Reg := { page := 0x50, off := 0x158, pages := 4, banks := 64, acc := .rw }
/-- `DROP_TIME` (spec/06 R183). -/
def DROP_TIME : Reg := { page := 0x50, off := 0x160, pages := 4, banks := 64, acc := .rw }
/-- `DROP_OVF` (spec/06 R183). -/
def DROP_OVF : Reg := { page := 0x50, off := 0x168, pages := 4, banks := 64, acc := .rw }
/-- `DROP_DUP` (spec/06 R183). -/
def DROP_DUP : Reg := { page := 0x50, off := 0x170, pages := 4, banks := 64, acc := .rw }
/-- `SEQ_JUMP` (spec/06 R183). -/
def SEQ_JUMP : Reg := { page := 0x50, off := 0x178, pages := 4, banks := 64, acc := .rw }
/-- `REPLAYS` (spec/06 R183). -/
def REPLAYS : Reg := { page := 0x50, off := 0x180, pages := 4, banks := 64, acc := .rw }
/-- `NEG_COUNT` (spec/06 R183). -/
def NEG_COUNT : Reg := { page := 0x50, off := 0x188, pages := 4, banks := 64, acc := .rw }
/-- `TRAIN_TIME` (spec/06 R183). -/
def TRAIN_TIME : Reg := { page := 0x50, off := 0x190, pages := 4, banks := 64, acc := .ro }
/-- `SLU_STAT` (spec/07 R216). -/
def SLU_STAT : Reg := { page := 0x20, off := 0x100, pages := 16, banks := 16, acc := .ro }
/-- `LVL_CFG` (spec/07 R216). -/
def LVL_CFG : Reg := { page := 0x20, off := 0x108, pages := 16, banks := 16, acc := .rw, reset := 0x5000620, resv := 0xFFFFFFFF000000C0, held := true }
/-- `GAIN_ADDR` (spec/07 R216). -/
def GAIN_ADDR : Reg := { page := 0x20, off := 0x110, pages := 16, banks := 16, acc := .rw, resv := 0xFFFFFFFFFFFE0000, perAgent := true }
/-- `GAIN_DATA` (spec/07 R216). -/
def GAIN_DATA : Reg := { page := 0x20, off := 0x118, pages := 16, banks := 16, acc := .rw, resv := 0xFFFFFFFFFFFF0000 }
/-- `GAIN_CTRL` (spec/07 R216). -/
def GAIN_CTRL : Reg := { page := 0x20, off := 0x120, pages := 16, banks := 16, acc := .rw, resv := 0xFFFFFFFFFFFFFFFE }
/-- `WIN_ADDR` (spec/07 R216). -/
def WIN_ADDR : Reg := { page := 0x20, off := 0x128, pages := 16, banks := 16, acc := .rw, resv := 0xFFFFFFFFFFFE8000, perAgent := true }
/-- `WIN_DATA` (spec/07 R216). -/
def WIN_DATA : Reg := { page := 0x20, off := 0x130, pages := 16, banks := 16, acc := .rw, resv := 0xFFFFFFFFFFFC0000 }
/-- `WIN_CTRL` (spec/07 R216). -/
def WIN_CTRL : Reg := { page := 0x20, off := 0x138, pages := 16, banks := 16, acc := .rw, resv := 0xFFFFFFFFFFFFFFFE }
/-- `SLU_CMD` (spec/07 R216). -/
def SLU_CMD : Reg := { page := 0x20, off := 0x140, pages := 16, banks := 16, acc := .wo, resv := 0xFFFFFFFFFFF0FFF0 }
/-- `CLIP_ADDR` (spec/07 R216). -/
def CLIP_ADDR : Reg := { page := 0x20, off := 0x148, pages := 16, banks := 16, acc := .rw, resv := 0xFFFFFFFFFFFF0000, perAgent := true }
/-- `CLIP_DATA` (spec/07 R216). -/
def CLIP_DATA : Reg := { page := 0x20, off := 0x150, pages := 16, banks := 16, acc := .ro }
/-- `CNT_GAP_SPECTRA` (spec/07 R216). -/
def CNT_GAP_SPECTRA : Reg := { page := 0x20, off := 0x158, pages := 16, banks := 16, acc := .rw }
/-- `CNT_MISSING` (spec/07 R216). -/
def CNT_MISSING : Reg := { page := 0x20, off := 0x160, pages := 16, banks := 16, acc := .rw }
/-- `CNT_CLIP` (spec/07 R216). -/
def CNT_CLIP : Reg := { page := 0x20, off := 0x168, pages := 16, banks := 16, acc := .rw }
/-- `CNT_OVR` (spec/07 R216). -/
def CNT_OVR : Reg := { page := 0x20, off := 0x170, pages := 16, banks := 16, acc := .rw }
/-- `CNT_IN_SAT` (spec/07 R216). -/
def CNT_IN_SAT : Reg := { page := 0x20, off := 0x178, pages := 16, banks := 16, acc := .rw }
/-- `CNT_TIME_ALIGN` (spec/07 R216). -/
def CNT_TIME_ALIGN : Reg := { page := 0x20, off := 0x180, pages := 16, banks := 16, acc := .rw }
/-- `CNT_DLY_RANGE` (spec/07 R216). -/
def CNT_DLY_RANGE : Reg := { page := 0x20, off := 0x188, pages := 16, banks := 16, acc := .rw }
/-- `CNT_MODEL` (spec/07 R216). -/
def CNT_MODEL : Reg := { page := 0x20, off := 0x190, pages := 16, banks := 16, acc := .rw }
/-- `CNT_LATE` (spec/07 R216). -/
def CNT_LATE : Reg := { page := 0x20, off := 0x198, pages := 16, banks := 16, acc := .rw }
/-- `LVL` (spec/07 R216). -/
def LVL : Reg := { page := 0x20, off := 0x300, pages := 16, banks := 16, count := 16, acc := .ro }
/-- `SLU_XCFG` (spec/07 R216). -/
def SLU_XCFG : Reg := { page := 0x20, off := 0x800, pages := 16, banks := 16, acc := .rw, resv := 0xFFFFFFFFFFFFFFFC }
/-- `DM_T0` (spec/07 R217). -/
def DM_T0 : Reg := { page := 0x20, off := 0x400, pages := 16, banks := 16, count := 16, stride := 64, acc := .rw }
/-- `DM_D0` (spec/07 R217). -/
def DM_D0 : Reg := { page := 0x20, off := 0x408, pages := 16, banks := 16, count := 16, stride := 64, acc := .rw }
/-- `DM_D1` (spec/07 R217). -/
def DM_D1 : Reg := { page := 0x20, off := 0x410, pages := 16, banks := 16, count := 16, stride := 64, acc := .rw }
/-- `DM_D2` (spec/07 R217). -/
def DM_D2 : Reg := { page := 0x20, off := 0x418, pages := 16, banks := 16, count := 16, stride := 64, acc := .rw }
/-- `FR_FLO` (spec/07 R217). -/
def FR_FLO : Reg := { page := 0x20, off := 0x420, pages := 16, banks := 16, count := 16, stride := 64, acc := .rw }
/-- `FR_PH0` (spec/07 R217). -/
def FR_PH0 : Reg := { page := 0x20, off := 0x428, pages := 16, banks := 16, count := 16, stride := 64, acc := .rw, resv := 0xFFFFFFFF00000000 }
/-- `DM_CTRL` (spec/07 R217). -/
def DM_CTRL : Reg := { page := 0x20, off := 0x430, pages := 16, banks := 16, count := 16, stride := 64, acc := .rw, resv := 0xFFFFFFFE }
/-- `SLOT_STAT` (spec/07 R217). -/
def SLOT_STAT : Reg := { page := 0x20, off := 0x438, pages := 16, banks := 16, count := 16, stride := 64, acc := .ro }
/-- `HC_STAT` (spec/08 R246). -/
def HC_STAT : Reg := { page := 0x40, off := 0x100, pages := 8, banks := 32, acc := .ro }
/-- `HC_CFG` (spec/08 R246). -/
def HC_CFG : Reg := { page := 0x40, off := 0x108, pages := 8, banks := 32, acc := .rw, reset := 0x8000066000A, resv := 0xFFFF0000FF00FF00 }
/-- `HC_TEMP` (spec/08 R246). -/
def HC_TEMP : Reg := { page := 0x40, off := 0x110, pages := 8, banks := 32, acc := .ro, share := 256 }
/-- `TRN_TAG0` (spec/08 R246). -/
def TRN_TAG0 : Reg := { page := 0x40, off := 0x118, pages := 8, banks := 32, acc := .ro }
/-- `TRN_TAG1` (spec/08 R246). -/
def TRN_TAG1 : Reg := { page := 0x40, off := 0x120, pages := 8, banks := 32, acc := .ro }
/-- `TRN_LANE` (spec/08 R246). -/
def TRN_LANE : Reg := { page := 0x40, off := 0x128, pages := 8, banks := 32, count := 8, acc := .ro }
/-- `ERR_CORR` (spec/08 R246). -/
def ERR_CORR : Reg := { page := 0x40, off := 0x168, pages := 8, banks := 32, acc := .rw }
/-- `ERR_UNCORR` (spec/08 R246). -/
def ERR_UNCORR : Reg := { page := 0x40, off := 0x170, pages := 8, banks := 32, acc := .rw }
/-- `ERR_ADDR` (spec/08 R246). -/
def ERR_ADDR : Reg := { page := 0x40, off := 0x178, pages := 8, banks := 32, acc := .ro }
/-- `POISON_OUT` (spec/08 R246). -/
def POISON_OUT : Reg := { page := 0x40, off := 0x180, pages := 8, banks := 32, acc := .rw }
/-- `FWD_HITS` (spec/08 R246). -/
def FWD_HITS : Reg := { page := 0x40, off := 0x188, pages := 8, banks := 32, acc := .rw }
/-- `MIT_COUNT` (spec/08 R246). -/
def MIT_COUNT : Reg := { page := 0x40, off := 0x190, pages := 8, banks := 32, acc := .rw }
/-- `MIT_OVF` (spec/08 R246). -/
def MIT_OVF : Reg := { page := 0x40, off := 0x198, pages := 8, banks := 32, acc := .rw }
/-- `FRZ_INFO` (spec/08 R246). -/
def FRZ_INFO : Reg := { page := 0x40, off := 0x1A0, pages := 8, banks := 32, acc := .ro }
/-- `HC_CMD` (spec/08 R246). -/
def HC_CMD : Reg := { page := 0x40, off := 0x1A8, pages := 8, banks := 32, acc := .wo, resv := 0xFFFFFFFFFFFFFFF8 }
/-- `POND_CFG` (spec/08 R246). -/
def POND_CFG : Reg := { page := 0x40, off := 0x700, banks := 32, acc := .rw, reset := 0x1, resv := 0xFFFFFFFFFFF00000, share := 256, held := true }
/-- `HC_XCFG` (spec/08 R246). -/
def HC_XCFG : Reg := { page := 0x40, off := 0x800, pages := 8, banks := 32, acc := .rw, resv := 0xFFFFFFFFFFFFFFFC }
/-- `HC_XCMD` (spec/08 R246). -/
def HC_XCMD : Reg := { page := 0x40, off := 0x808, pages := 8, banks := 32, acc := .wo, resv := 0xFFFFFFFFFFFFFFFE }
/-- `PAN_STAT` (spec/09 R279). -/
def PAN_STAT : Reg := { page := 0x30, off := 0x100, pages := 16, banks := 16, acc := .ro }
/-- `PAN_ERR` (spec/09 R279). -/
def PAN_ERR : Reg := { page := 0x30, off := 0x108, pages := 16, banks := 16, acc := .rw }
/-- `PAN_STEPS` (spec/09 R279). -/
def PAN_STEPS : Reg := { page := 0x30, off := 0x110, pages := 16, banks := 16, acc := .rw }
/-- `BEAM_CLIP` (spec/09 R279). -/
def BEAM_CLIP : Reg := { page := 0x30, off := 0x118, pages := 16, banks := 16, acc := .rw }
/-- `OPM_ADDR` (spec/09 R279). -/
def OPM_ADDR : Reg := { page := 0x30, off := 0x120, pages := 16, banks := 16, acc := .rw, resv := 0xFFFFFFFFFFFF8000, perAgent := true }
/-- `OPM_DATA` (spec/09 R279). -/
def OPM_DATA : Reg := { page := 0x30, off := 0x128, pages := 16, banks := 16, acc := .rw }
/-- `ACC_ADDR` (spec/09 R279). -/
def ACC_ADDR : Reg := { page := 0x30, off := 0x130, pages := 16, banks := 16, acc := .rw, resv := 0xFFFFFFFFFFFFC000, perAgent := true }
/-- `ACC_DATA` (spec/09 R279). -/
def ACC_DATA : Reg := { page := 0x30, off := 0x138, pages := 16, banks := 16, acc := .ro }
/-- `ACC_STAT` (spec/09 R279). -/
def ACC_STAT : Reg := { page := 0x30, off := 0x140, pages := 16, banks := 16, acc := .ro }
/-- `FEED_R_STAT` (spec/09 R279). -/
def FEED_R_STAT : Reg := { page := 0x30, off := 0x700, pages := 16, banks := 16, acc := .ro, share := 256 }
/-- `FEED_R_ERR` (spec/09 R279). -/
def FEED_R_ERR : Reg := { page := 0x30, off := 0x708, pages := 16, banks := 16, acc := .rw, share := 256 }
/-- `FEED_C_STAT` (spec/09 R279). -/
def FEED_C_STAT : Reg := { page := 0x30, off := 0x710, pages := 16, banks := 16, acc := .ro, share := 256 }
/-- `FEED_C_ERR` (spec/09 R279). -/
def FEED_C_ERR : Reg := { page := 0x30, off := 0x718, pages := 16, banks := 16, acc := .rw, share := 256 }
/-- `PAN_XPC` (spec/09 R279). -/
def PAN_XPC : Reg := { page := 0x30, off := 0x800, pages := 16, banks := 16, acc := .rw, resv := 0xFFFFFFFFFFFFF000 }
/-- `PAN_XLOOP0` (spec/09 R279). -/
def PAN_XLOOP0 : Reg := { page := 0x30, off := 0x808, pages := 16, banks := 16, acc := .rw, reset := 0xFFF0000000000 }
/-- `PAN_XLOOP1` (spec/09 R279). -/
def PAN_XLOOP1 : Reg := { page := 0x30, off := 0x810, pages := 16, banks := 16, acc := .rw, reset := 0xFFF0000000000 }
/-- `PAN_XLOOP2` (spec/09 R279). -/
def PAN_XLOOP2 : Reg := { page := 0x30, off := 0x818, pages := 16, banks := 16, acc := .rw, reset := 0xFFF0000000000 }
/-- `PAN_XTIDE` (spec/09 R279). -/
def PAN_XTIDE : Reg := { page := 0x30, off := 0x820, pages := 16, banks := 16, acc := .rw }
/-- `PAN_XCMD` (spec/09 R279). -/
def PAN_XCMD : Reg := { page := 0x30, off := 0x828, pages := 16, banks := 16, acc := .wo, resv := 0xFFFFFFFFFFFFFFF0 }
/-- `JOB_ADDR` (spec/09 R279). -/
def JOB_ADDR : Reg := { page := 0x30, off := 0x830, pages := 16, banks := 16, acc := .rw, resv := 0xFFFFFFFFFFFFFF00, perAgent := true }
/-- `JOB_DATA` (spec/09 R279). -/
def JOB_DATA : Reg := { page := 0x30, off := 0x838, pages := 16, banks := 16, acc := .rw }
/-- `ACC_CFG` (spec/10 R303). -/
def ACC_CFG : Reg := { page := 0x40, off := 0x708, banks := 32, acc := .rw, reset := 0x1, resv := 0xFF00E0FFFFE00000, share := 256, held := true }
/-- `ACC_STAGGER` (spec/10 R303). -/
def ACC_STAGGER : Reg := { page := 0x40, off := 0x710, banks := 32, acc := .rw, resv := 0xFFFFFFFF00000000, share := 256, held := true }
/-- `ACC_GEN` (spec/10 R303). -/
def ACC_GEN : Reg := { page := 0x40, off := 0x718, banks := 32, acc := .ro, reset := 0x1, share := 256 }
/-- `RK_STAT` (spec/10 R304). -/
def RK_STAT : Reg := { page := 0x40, off := 0x200, pages := 8, banks := 32, acc := .ro, share := 4 }
/-- `RK_PROMOTED` (spec/10 R304). -/
def RK_PROMOTED : Reg := { page := 0x40, off := 0x208, pages := 8, banks := 32, acc := .rw, share := 4 }
/-- `RK_INF` (spec/10 R304). -/
def RK_INF : Reg := { page := 0x40, off := 0x210, pages := 8, banks := 32, acc := .rw, share := 4 }
/-- `RK_WRAP_INF` (spec/10 R304). -/
def RK_WRAP_INF : Reg := { page := 0x40, off := 0x218, pages := 8, banks := 32, acc := .rw, share := 4 }
/-- `RK_ERR` (spec/10 R304). -/
def RK_ERR : Reg := { page := 0x40, off := 0x220, pages := 8, banks := 32, acc := .rw, share := 4 }
/-- `RK_DUMPS` (spec/10 R304). -/
def RK_DUMPS : Reg := { page := 0x40, off := 0x228, pages := 8, banks := 32, acc := .rw, share := 4 }
/-- `DUMP_SAT` (spec/10 R304). -/
def DUMP_SAT : Reg := { page := 0x40, off := 0x230, pages := 8, banks := 32, acc := .rw, share := 4 }
/-- `RK_DUMP_PTR` (spec/10 R304). -/
def RK_DUMP_PTR : Reg := { page := 0x40, off := 0x238, pages := 8, banks := 32, acc := .ro, share := 4 }
/-- `WT_BASE` (spec/11 R327). -/
def WT_BASE : Reg := { page := 0x30, off := 0x7C0, banks := 16, acc := .rw, resv := 0xFFFFFFFE00000000, share := 256, held := true }
/-- `WT_SIZE` (spec/11 R327). -/
def WT_SIZE : Reg := { page := 0x30, off := 0x7C8, banks := 16, acc := .rw, resv := 0xFFFFFFFE00000000, share := 256, held := true }
/-- `WT_SEL` (spec/11 R327). -/
def WT_SEL : Reg := { page := 0x30, off := 0x7D0, banks := 16, acc := .rw, resv := 0xFFFFFFFFFFFFFFFC, share := 256 }
/-- `WT_STAT` (spec/11 R327). -/
def WT_STAT : Reg := { page := 0x30, off := 0x7D8, banks := 16, acc := .ro, share := 256 }
/-- `WT_REFUSED` (spec/11 R327). -/
def WT_REFUSED : Reg := { page := 0x30, off := 0x7E0, banks := 16, acc := .rw, share := 256 }
/-- `BF_PSUM` (spec/11 R328). -/
def BF_PSUM : Reg := { page := 0x30, off := 0x720, pages := 16, banks := 16, acc := .rw, resv := 0xF800F800FFFFFFFC, share := 256, held := true }
/-- `BF_VBCFG` (spec/11 R328). -/
def BF_VBCFG : Reg := { page := 0x30, off := 0x728, pages := 16, banks := 16, acc := .rw, resv := 0xFFFF, share := 256, held := true }
/-- `BF_VBLAG` (spec/11 R328). -/
def BF_VBLAG : Reg := { page := 0x30, off := 0x730, pages := 16, banks := 16, acc := .rw, resv := 0xFFFFFFFF00000000, share := 256, held := true }
/-- `VB_BASE` (spec/11 R328). -/
def VB_BASE : Reg := { page := 0x30, off := 0x738, pages := 16, banks := 16, acc := .rw, resv := 0xFFFFFFFE00000000, share := 256, held := true }
/-- `VB_SPAN` (spec/11 R328). -/
def VB_SPAN : Reg := { page := 0x30, off := 0x740, pages := 16, banks := 16, acc := .rw, resv := 0xFFFFFFFE00000000, share := 256, held := true }
/-- `RS_BASE` (spec/11 R328). -/
def RS_BASE : Reg := { page := 0x30, off := 0x748, pages := 16, banks := 16, acc := .rw, resv := 0xFFFFFFFE00000000, share := 256, held := true }
/-- `RS_SPAN` (spec/11 R328). -/
def RS_SPAN : Reg := { page := 0x30, off := 0x750, pages := 16, banks := 16, acc := .rw, resv := 0xFFFFFFFE00000000, share := 256, held := true }
/-- `BF_RS` (spec/11 R328). -/
def BF_RS : Reg := { page := 0x30, off := 0x758, pages := 16, banks := 16, acc := .rw, resv := 0xFFFFFFFFFFFF00C0, share := 256, held := true }
/-- `VB_PTR` (spec/11 R328). -/
def VB_PTR : Reg := { page := 0x30, off := 0x760, pages := 16, banks := 16, acc := .ro, share := 256 }
/-- `RS_PTR` (spec/11 R328). -/
def RS_PTR : Reg := { page := 0x30, off := 0x768, pages := 16, banks := 16, acc := .ro, share := 256 }
/-- `BF_PS_ERR` (spec/11 R328). -/
def BF_PS_ERR : Reg := { page := 0x30, off := 0x770, pages := 16, banks := 16, acc := .rw, share := 256 }
/-- `BF_VB_ERR` (spec/11 R328). -/
def BF_VB_ERR : Reg := { page := 0x30, off := 0x778, pages := 16, banks := 16, acc := .rw, resv := 0xFFFF, share := 256 }
/-- `BF_SEQ` (spec/11 R328). -/
def BF_SEQ : Reg := { page := 0x30, off := 0x780, pages := 16, banks := 16, acc := .ro, share := 256 }
/-- `ACC_STOKES` (spec/11 R329). -/
def ACC_STOKES : Reg := { page := 0x40, off := 0x720, banks := 32, acc := .rw, resv := 0xFFFFFFFFFFFFFFFC, share := 256, held := true }
/-- `ETH_CFG` (spec/12 R355). -/
def ETH_CFG : Reg := { page := 0x54, off := 0x100, pages := 4, banks := 8, acc := .rw, reset := 0x2400000000640000, resv := 0xF00000C000 }
/-- `ETH_STAT` (spec/12 R355). -/
def ETH_STAT : Reg := { page := 0x54, off := 0x108, pages := 4, banks := 8, acc := .ro }
/-- `ETH_CMD` (spec/12 R355). -/
def ETH_CMD : Reg := { page := 0x54, off := 0x110, pages := 4, banks := 8, acc := .wo, resv := 0xFFFFFFFFFFFFFFFE }
/-- `RX_FRAMES` (spec/12 R355). -/
def RX_FRAMES : Reg := { page := 0x54, off := 0x118, pages := 4, banks := 8, acc := .rw }
/-- `RX_BYTES` (spec/12 R355). -/
def RX_BYTES : Reg := { page := 0x54, off := 0x120, pages := 4, banks := 8, acc := .rw }
/-- `RX_BAD` (spec/12 R355). -/
def RX_BAD : Reg := { page := 0x54, off := 0x128, pages := 4, banks := 8, acc := .rw }
/-- `RX_DROP` (spec/12 R355). -/
def RX_DROP : Reg := { page := 0x54, off := 0x130, pages := 4, banks := 8, acc := .rw }
/-- `RX_RING` (spec/12 R355). -/
def RX_RING : Reg := { page := 0x54, off := 0x138, pages := 4, banks := 8, acc := .rw }
/-- `TX_FRAMES` (spec/12 R355). -/
def TX_FRAMES : Reg := { page := 0x54, off := 0x140, pages := 4, banks := 8, acc := .rw }
/-- `TX_BYTES` (spec/12 R355). -/
def TX_BYTES : Reg := { page := 0x54, off := 0x148, pages := 4, banks := 8, acc := .rw }
/-- `TX_ERR` (spec/12 R355). -/
def TX_ERR : Reg := { page := 0x54, off := 0x150, pages := 4, banks := 8, acc := .rw }
/-- `FEC_CORR` (spec/12 R355). -/
def FEC_CORR : Reg := { page := 0x54, off := 0x158, pages := 4, banks := 8, acc := .rw }
/-- `FEC_UNCORR` (spec/12 R355). -/
def FEC_UNCORR : Reg := { page := 0x54, off := 0x160, pages := 4, banks := 8, acc := .rw }
/-- `OUT_SRC` (spec/12 R355). -/
def OUT_SRC : Reg := { page := 0x54, off := 0x300, pages := 4, banks := 8, count := 16, acc := .rw, resv := 0xFFFFFFFFFFFF0040, held := true }
/-- `FLT_SEL` (spec/12 R355). -/
def FLT_SEL : Reg := { page := 0x54, off := 0x700, banks := 8, acc := .rw, resv := 0xFFFFFFFFFFFFFC00, share := 256, perAgent := true }
/-- `FLT_W0` (spec/12 R355). -/
def FLT_W0 : Reg := { page := 0x54, off := 0x708, banks := 8, acc := .rw, resv := 0x7F01000000000000, share := 256, grp := 2 }
/-- `FLT_W1` (spec/12 R355). -/
def FLT_W1 : Reg := { page := 0x54, off := 0x710, banks := 8, acc := .rw, resv := 0xF000FF0000, share := 256, mem := 8 }
/-- `FLT_W2` (spec/12 R355). -/
def FLT_W2 : Reg := { page := 0x54, off := 0x718, banks := 8, acc := .rw, resv := 0xFFFFFFFFFFE0C000, share := 256, mem := 16 }
/-- `DST_SEL` (spec/12 R355). -/
def DST_SEL : Reg := { page := 0x54, off := 0x740, banks := 8, acc := .rw, resv := 0xFFFFFFFFFFFEFE00, share := 256, perAgent := true }
/-- `DST_DATA` (spec/12 R355). -/
def DST_DATA : Reg := { page := 0x54, off := 0x748, banks := 8, acc := .rw, share := 256 }
/-- `DST_CTRL` (spec/12 R355). -/
def DST_CTRL : Reg := { page := 0x54, off := 0x750, banks := 8, acc := .rw, resv := 0xFFFFFFFFFFFFFFFE, share := 256 }
/-- `TS_XADJ` (spec/12 R355). -/
def TS_XADJ : Reg := { page := 0x54, off := 0x800, pages := 4, banks := 8, acc := .rw }
/-- `QM_STAT` (spec/12 R356). -/
def QM_STAT : Reg := { page := 0x58, off := 0x100, acc := .ro }
/-- `RING_SEL` (spec/12 R356). -/
def RING_SEL : Reg := { page := 0x58, off := 0x108, acc := .rw, resv := 0xFFFFFFFFFFFFF000, perAgent := true }
/-- `RING_D0` (spec/12 R356). -/
def RING_D0 : Reg := { page := 0x58, off := 0x110, acc := .rw, resv := 0xF00000000000000, grp := 3 }
/-- `RING_D1` (spec/12 R356). -/
def RING_D1 : Reg := { page := 0x58, off := 0x118, acc := .rw, mem := 8 }
/-- `RING_D2` (spec/12 R356). -/
def RING_D2 : Reg := { page := 0x58, off := 0x120, acc := .rw, resv := 0xFFE001FF00000000, mem := 16 }
/-- `RING_D3` (spec/12 R356). -/
def RING_D3 : Reg := { page := 0x58, off := 0x128, acc := .rw, resv := 0xFE0000000000000, mem := 24 }
/-- `RING_DB` (spec/12 R356). -/
def RING_DB : Reg := { page := 0x58, off := 0x130, acc := .wo, resv := 0xFFFFF00000000000 }
/-- `QM_ERR` (spec/12 R356). -/
def QM_ERR : Reg := { page := 0x58, off := 0x138, acc := .rw, resv := 0xFFFFFFFF }
/-- `QM_LAST_ERR` (spec/12 R356). -/
def QM_LAST_ERR : Reg := { page := 0x58, off := 0x140, acc := .ro }
/-- `XB_MAP` (spec/13 R382). -/
def XB_MAP : Reg := { page := 0x0C, off := 0x100, acc := .rwl, resv := 0xFFFFFFFFFFFFFFFE }
/-- `XB_QOS` (spec/13 R382). -/
def XB_QOS : Reg := { page := 0x0C, off := 0x108, acc := .rw, reset := 0x444444488, resv := 0xFFFFFFF000000000 }
/-- `FW_CTRL` (spec/13 R382). -/
def FW_CTRL : Reg := { page := 0x0C, off := 0x110, acc := .rwl, resv := 0xFFFFFFFFFFFFFFFC }
/-- `FW_GEN` (spec/13 R382). -/
def FW_GEN : Reg := { page := 0x0C, off := 0x118, acc := .ro }
/-- `FW_FENCE` (spec/13 R382). -/
def FW_FENCE : Reg := { page := 0x0C, off := 0x120, acc := .ro, reset := 0x8000000000000000 }
/-- `FW_DENIED` (spec/13 R382). -/
def FW_DENIED : Reg := { page := 0x0C, off := 0x128, acc := .rw }
/-- `XB_DECODE` (spec/13 R382). -/
def XB_DECODE : Reg := { page := 0x0C, off := 0x130, acc := .rw }
/-- `FW_LAST` (spec/13 R382). -/
def FW_LAST : Reg := { page := 0x0C, off := 0x138, acc := .ro }
/-- `FW_RULE_A` (spec/13 R382). -/
def FW_RULE_A : Reg := { page := 0x0C, off := 0x200, count := 32, stride := 16, acc := .rw, resv := 0xE00000000000FFF, grp := 1 }
/-- `FW_RULE_B` (spec/13 R382). -/
def FW_RULE_B : Reg := { page := 0x0C, off := 0x208, count := 32, stride := 16, acc := .rw, resv := 0xFFFF000000000FFF, mem := 8 }
/-- `DMA_STAT` (spec/13 R383). -/
def DMA_STAT : Reg := { page := 0x59, off := 0x100, acc := .ro }
/-- `DMA_EVT` (spec/13 R383). -/
def DMA_EVT : Reg := { page := 0x59, off := 0x108, acc := .ro }
/-- `DMA_EVT_SET` (spec/13 R383). -/
def DMA_EVT_SET : Reg := { page := 0x59, off := 0x110, acc := .wo }
/-- `DMA_EVT_CLR` (spec/13 R383). -/
def DMA_EVT_CLR : Reg := { page := 0x59, off := 0x118, acc := .wo }
/-- `CH_SEL` (spec/13 R383). -/
def CH_SEL : Reg := { page := 0x59, off := 0x120, acc := .rw, resv := 0xFFFFFFFFFFFFFFC0, perAgent := true }
/-- `CH_PROG` (spec/13 R383). -/
def CH_PROG : Reg := { page := 0x59, off := 0x128, acc := .rw, resv := 0xFFFF000000000000 }
/-- `CH_CFG` (spec/13 R383). -/
def CH_CFG : Reg := { page := 0x59, off := 0x130, acc := .rw, reset := 0x400403, resv := 0x7FF0007FF800F0F8 }
/-- `CH_CMD` (spec/13 R383). -/
def CH_CMD : Reg := { page := 0x59, off := 0x138, acc := .wo, resv := 0xFFFFFFFFFFFFFFF8 }
/-- `DMA_ERR` (spec/13 R383). -/
def DMA_ERR : Reg := { page := 0x59, off := 0x140, acc := .rw, resv := 0xFFFFFFFF }
/-- `CH_STAT` (spec/13 R384). -/
def CH_STAT : Reg := { page := 0x5A, off := 0x100, count := 64, acc := .ro }
/-- `CH_PC` (spec/13 R384). -/
def CH_PC : Reg := { page := 0x5A, off := 0x300, count := 64, acc := .ro }
/-- `CH_BYTES` (spec/13 R384). -/
def CH_BYTES : Reg := { page := 0x5A, off := 0x500, count := 64, acc := .ro }
/-- `PCIE_STAT` (spec/13 R385). -/
def PCIE_STAT : Reg := { page := 0x0D, off := 0x100, acc := .ro }
/-- `PCIE_ID` (spec/13 R385). -/
def PCIE_ID : Reg := { page := 0x0D, off := 0x108, acc := .ro }
/-- `HOST_OFS` (spec/13 R385). -/
def HOST_OFS : Reg := { page := 0x0D, off := 0x110, acc := .rw }
/-- `INB_TMO` (spec/13 R385). -/
def INB_TMO : Reg := { page := 0x0D, off := 0x118, acc := .rw, reset := 0xA, resv := 0xFFFFFFFFFFFFFF80 }
/-- `PCIE_ERR` (spec/13 R385). -/
def PCIE_ERR : Reg := { page := 0x0D, off := 0x120, acc := .rw }
/-- `BAR2_WIN` (spec/13 R385). -/
def BAR2_WIN : Reg := { page := 0x0D, off := 0x200, count := 16, acc := .rw, resetStep := 0x100000000, resv := 0xFFFF0000FFFFFFFF }
/-- `PLL_STAT` (spec/14 R409). -/
def PLL_STAT : Reg := { page := 0x01, off := 0x100, acc := .ro, reset := 0xC0F0 }
/-- `CTRL_NOW` (spec/14 R409). -/
def CTRL_NOW : Reg := { page := 0x01, off := 0x108, acc := .ro }
/-- `HO_VALUE` (spec/14 R409). -/
def HO_VALUE : Reg := { page := 0x01, off := 0x110, acc := .ro }
/-- `PHASE_ERR` (spec/14 R409). -/
def PHASE_ERR : Reg := { page := 0x01, off := 0x118, acc := .ro }
/-- `NET_PHASE` (spec/14 R409). -/
def NET_PHASE : Reg := { page := 0x01, off := 0x120, acc := .ro }
/-- `NET_TARGET` (spec/14 R409). -/
def NET_TARGET : Reg := { page := 0x01, off := 0x128, acc := .ro }
/-- `NET_SLOPE` (spec/14 R409). -/
def NET_SLOPE : Reg := { page := 0x01, off := 0x130, acc := .rw, reset := 0xA, resv := 0xFFFFFFFFFFFF0000 }
/-- `ABSORB_LAST` (spec/14 R409). -/
def ABSORB_LAST : Reg := { page := 0x01, off := 0x138, acc := .ro }
/-- `SWITCH_CNT` (spec/14 R409). -/
def SWITCH_CNT : Reg := { page := 0x01, off := 0x140, acc := .rw }
/-- `LAST_SWITCH` (spec/14 R409). -/
def LAST_SWITCH : Reg := { page := 0x01, off := 0x148, acc := .ro }
/-- `PPS_OUT_CFG` (spec/14 R409). -/
def PPS_OUT_CFG : Reg := { page := 0x01, off := 0x150, acc := .rw, reset := 0x186A0000, resv := 0xFFFFFFFF00000FF2 }
/-- `CLK_XCFG` (spec/14 R409). -/
def CLK_XCFG : Reg := { page := 0x01, off := 0x800, acc := .rw }
/-- `SEL_CFG` (spec/14 R410). -/
def SEL_CFG : Reg := { page := 0x02, off := 0x100, acc := .rw, reset := 0xC00, resv := 0xFFFFFFFFFFFFE00C }
/-- `PRIO` (spec/14 R410). -/
def PRIO : Reg := { page := 0x02, off := 0x108, acc := .rw, reset := 0x6543210, resv := 0xFFFFFFFFF0000000 }
/-- `SRC_CFG` (spec/14 R410). -/
def SRC_CFG : Reg := { page := 0x02, off := 0x110, acc := .rw, reset := 0x7F00, resv := 0xFFFFFFFFFFFF80FC }
/-- `WTR` (spec/14 R410). -/
def WTR : Reg := { page := 0x02, off := 0x118, acc := .rw, reset := 0x12C, resv := 0xFFFFFFFFFFFFF000 }
/-- `HO_CFG` (spec/14 R410). -/
def HO_CFG : Reg := { page := 0x02, off := 0x120, acc := .rw, reset := 0x2580001E, resv := 0xFFC00 }
/-- `SRC_STAT` (spec/14 R410). -/
def SRC_STAT : Reg := { page := 0x02, off := 0x128, acc := .ro, reset := 0x1111111 }
/-- `DISQ_CNT` (spec/14 R410). -/
def DISQ_CNT : Reg := { page := 0x02, off := 0x130, acc := .rw, resv := 0xFF00000000000000 }
/-- `TB_SEC` (spec/14 R411). -/
def TB_SEC : Reg := { page := 0x03, off := 0x100, pages := 4, acc := .ro, grp := 1 }
/-- `TB_NS` (spec/14 R411). -/
def TB_NS : Reg := { page := 0x03, off := 0x108, pages := 4, acc := .ro, mem := 8 }
/-- `TB_STAT` (spec/14 R411). -/
def TB_STAT : Reg := { page := 0x03, off := 0x110, pages := 4, acc := .ro }
/-- `TB_RATE` (spec/14 R411). -/
def TB_RATE : Reg := { page := 0x03, off := 0x118, pages := 4, acc := .rw }
/-- `TB_SRC` (spec/14 R411). -/
def TB_SRC : Reg := { page := 0x03, off := 0x120, pages := 4, acc := .rw }
/-- `TB_OFS` (spec/14 R411). -/
def TB_OFS : Reg := { page := 0x03, off := 0x128, pages := 4, acc := .ro, reset := 0x8000000000000000 }
/-- `STEP_SEC` (spec/14 R411). -/
def STEP_SEC : Reg := { page := 0x03, off := 0x130, pages := 4, acc := .rw }
/-- `STEP_NS` (spec/14 R411). -/
def STEP_NS : Reg := { page := 0x03, off := 0x138, pages := 4, acc := .rw }
/-- `STEP_CTRL` (spec/14 R411). -/
def STEP_CTRL : Reg := { page := 0x03, off := 0x140, pages := 4, acc := .rw, resv := 0xFFFFFFFFFFFFFFF8 }
/-- `EPOCH_SEC` (spec/14 R411). -/
def EPOCH_SEC : Reg := { page := 0x03, off := 0x148, pages := 4, acc := .ro, grp := 1 }
/-- `EPOCH_NS` (spec/14 R411). -/
def EPOCH_NS : Reg := { page := 0x03, off := 0x150, pages := 4, acc := .ro, mem := 8 }
/-- `SRV_CFG` (spec/14 R412). -/
def SRV_CFG : Reg := { page := 0x07, off := 0x100, acc := .rw, reset := 0x8000003E8, resv := 0xFFFFFF0000000000 }
/-- `SRV_GAIN` (spec/14 R412). -/
def SRV_GAIN : Reg := { page := 0x07, off := 0x108, acc := .rw, reset := 0x104, resv := 0xFFFFFFFFFFFFC0C0 }
/-- `SRV_STAT` (spec/14 R412). -/
def SRV_STAT : Reg := { page := 0x07, off := 0x110, acc := .ro }
/-- `SMP_ACCEPT` (spec/14 R412). -/
def SMP_ACCEPT : Reg := { page := 0x07, off := 0x118, acc := .rw }
/-- `SMP_REFUSE` (spec/14 R412). -/
def SMP_REFUSE : Reg := { page := 0x07, off := 0x120, acc := .rw }
/-- `RATE_I` (spec/14 R412). -/
def RATE_I : Reg := { page := 0x07, off := 0x128, acc := .ro }
/-- `SMP_OFS` (spec/14 R412). -/
def SMP_OFS : Reg := { page := 0x07, off := 0x140, acc := .rw, grp := 2 }
/-- `SMP_MT_SEC` (spec/14 R412). -/
def SMP_MT_SEC : Reg := { page := 0x07, off := 0x148, acc := .rw, resv := 0xFFFF000000000000, mem := 8 }
/-- `SMP_MT_NS` (spec/14 R412). -/
def SMP_MT_NS : Reg := { page := 0x07, off := 0x150, acc := .rw, resv := 0xFFFFFFFFC0000000, mem := 16 }
/-- `CQ_STAT` (spec/15 R442). -/
def CQ_STAT : Reg := { page := 0x0E, off := 0x100, acc := .ro }
/-- `CQ_FW` (spec/15 R442). -/
def CQ_FW : Reg := { page := 0x0E, off := 0x108, acc := .ro }
/-- `SESSION_TMO` (spec/15 R442). -/
def SESSION_TMO : Reg := { page := 0x0E, off := 0x110, acc := .rw, reset := 0x384, resv := 0xFFFFFFFFFFFF0000 }
/-- `CQ_CH` (spec/15 R442). -/
def CQ_CH : Reg := { page := 0x0E, off := 0x200, count := 16, acc := .rw, resv := 0x7F000000FFFFFC00 }
/-- `CQ_CNT` (spec/15 R442). -/
def CQ_CNT : Reg := { page := 0x0E, off := 0x300, count := 16, acc := .rw }
/-- `SV_STAT` (spec/16 R471). -/
def SV_STAT : Reg := { page := 0x08, off := 0x110, acc := .ro }
/-- `SV_CMD` (spec/16 R471). -/
def SV_CMD : Reg := { page := 0x08, off := 0x118, acc := .wo, resv := 0xFFFFFFFFFFFFFEF8 }
/-- `WD_FEED` (spec/16 R471). -/
def WD_FEED : Reg := { page := 0x08, off := 0x120, acc := .wo, resv := 0xFFFFFFFFFFFF0000 }
/-- `UNSUP_LIMIT` (spec/16 R471). -/
def UNSUP_LIMIT : Reg := { page := 0x08, off := 0x128, acc := .rw, reset := 0x258, resv := 0xFFFFFFFFFFFE0000 }
/-- `UNSUP_STAT` (spec/16 R471). -/
def UNSUP_STAT : Reg := { page := 0x08, off := 0x130, acc := .ro }
/-- `CKPT_STAT` (spec/16 R471). -/
def CKPT_STAT : Reg := { page := 0x08, off := 0x138, acc := .ro }
/-- `GATE_STAT` (spec/16 R471). -/
def GATE_STAT : Reg := { page := 0x08, off := 0x140, acc := .ro }
/-- `TMP_CFG` (spec/16 R472). -/
def TMP_CFG : Reg := { page := 0x09, off := 0x100, acc := .rw, reset := 0x6F7F, resv := 0xFFFFFFFFFFFF8080 }
/-- `TMP_STAT` (spec/16 R472). -/
def TMP_STAT : Reg := { page := 0x09, off := 0x108, acc := .ro }
/-- `TMP_LATCH` (spec/16 R472). -/
def TMP_LATCH : Reg := { page := 0x09, off := 0x110, acc := .w1c, resv := 0xFFFFFFFFFFFFFF80 }
/-- `TMP_LAST` (spec/16 R472). -/
def TMP_LAST : Reg := { page := 0x09, off := 0x118, acc := .ro }
/-- `TMP_COUNT` (spec/16 R472). -/
def TMP_COUNT : Reg := { page := 0x09, off := 0x120, acc := .ro }
/-- `SEC_STAT` (spec/16 R473). -/
def SEC_STAT : Reg := { page := 0x0F, off := 0x100, acc := .ro }
/-- `NVM_STAT` (spec/16 R474). -/
def NVM_STAT : Reg := { page := 0x0A, off := 0x100, acc := .ro }
/-- `NVM_ADDR` (spec/16 R474). -/
def NVM_ADDR : Reg := { page := 0x0A, off := 0x108, acc := .rw, resv := 0xFFFFFFFFFF000007 }
/-- `NVM_DATA` (spec/16 R474). -/
def NVM_DATA : Reg := { page := 0x0A, off := 0x110, acc := .rw }
/-- `NVM_CMD` (spec/16 R474). -/
def NVM_CMD : Reg := { page := 0x0A, off := 0x118, acc := .wo, resv := 0xFFFFFFFFFFFFFFFC }
/-- `UPD_STAT` (spec/16 R474). -/
def UPD_STAT : Reg := { page := 0x0A, off := 0x120, acc := .ro }
/-- `UPD_VER` (spec/16 R474). -/
def UPD_VER : Reg := { page := 0x0A, off := 0x128, acc := .ro }
/-- `UPD_CFG` (spec/16 R474). -/
def UPD_CFG : Reg := { page := 0x0A, off := 0x130, acc := .rw, reset := 0x258, resv := 0xFFFFFFFFFFFF0000 }
/-- `NVM_ERR` (spec/16 R474). -/
def NVM_ERR : Reg := { page := 0x0A, off := 0x138, acc := .rw, resv := 0xFFFF }
/-- `SAL_STAT` (spec/17 R488). -/
def SAL_STAT : Reg := { page := 0x5B, off := 0x100, acc := .ro }
/-- `SAL_CFG` (spec/17 R488). -/
def SAL_CFG : Reg := { page := 0x5B, off := 0x108, acc := .rw, resv := 0xFFFFFFFFFFFFFE40 }
/-- `SAL_CAL` (spec/17 R488). -/
def SAL_CAL : Reg := { page := 0x5B, off := 0x110, acc := .rw, resv := 0x3FFE0, held := true }
/-- `URG_CTRL` (spec/17 R488). -/
def URG_CTRL : Reg := { page := 0x5B, off := 0x118, acc := .wo, resv := 0x7FFFFF8000000000 }
/-- `SAL_CMD` (spec/17 R488). -/
def SAL_CMD : Reg := { page := 0x5B, off := 0x120, acc := .wo, resv := 0xFFFFFFFFFFFFFFFC }
/-- `TRIG_TIME` (spec/17 R488). -/
def TRIG_TIME : Reg := { page := 0x5B, off := 0x128, acc := .ro }
/-- `RES_WSEQ` (spec/17 R488). -/
def RES_WSEQ : Reg := { page := 0x5B, off := 0x130, acc := .ro }
/-- `RES_RSEQ` (spec/17 R488). -/
def RES_RSEQ : Reg := { page := 0x5B, off := 0x138, acc := .rw, resv := 0xFFFFFFFF00000000 }
/-- `CAP_PTR` (spec/17 R488). -/
def CAP_PTR : Reg := { page := 0x5B, off := 0x140, acc := .ro }
/-- `CAP_ADDR` (spec/17 R488). -/
def CAP_ADDR : Reg := { page := 0x5B, off := 0x148, acc := .rw, resv := 0xFFFFFFFFFFFFE000, perAgent := true }
/-- `CAP_DATA` (spec/17 R488). -/
def CAP_DATA : Reg := { page := 0x5B, off := 0x150, acc := .ro }
/-- `SAL_CNT` (spec/17 R488). -/
def SAL_CNT : Reg := { page := 0x5B, off := 0x158, acc := .rw }
/-- `CAL_STAT` (spec/17 R488). -/
def CAL_STAT : Reg := { page := 0x5B, off := 0x160, acc := .ro }
/-- `SLICE` (spec/17 R488). -/
def SLICE : Reg := { page := 0x5B, off := 0x180, count := 4, acc := .ro }
/-- `SEQ` (spec/17 R488). -/
def SEQ : Reg := { page := 0x5B, off := 0x200, count := 64, acc := .rw, resv := 0xC0000000000000E0 }
/-- `RES_RW` (spec/17 R488). -/
def RES_RW : Reg := { page := 0x5B, off := 0x400, count := 128, acc := .ro }
/-- `SAL_XCFG` (spec/17 R488). -/
def SAL_XCFG : Reg := { page := 0x5B, off := 0x800, acc := .rw, resv := 0xFFFFFFFFFFFFFFFC }
/-- `MESH_CFG` (spec/18 R502). -/
def MESH_CFG : Reg := { page := 0x5D, off := 0x100, acc := .rw, resv := 0xFFFFFF00C0C0FCFE }
/-- `MESH_STAT` (spec/18 R502). -/
def MESH_STAT : Reg := { page := 0x5D, off := 0x108, acc := .ro }
/-- `PART_MASK` (spec/18 R502). -/
def PART_MASK : Reg := { page := 0x5D, off := 0x110, acc := .ro }
/-- `LINK_MASK` (spec/18 R502). -/
def LINK_MASK : Reg := { page := 0x5D, off := 0x118, acc := .ro }
/-- `ALIGN_OFS` (spec/18 R502). -/
def ALIGN_OFS : Reg := { page := 0x5D, off := 0x120, acc := .ro }
/-- `ALIGN_CFG` (spec/18 R502). -/
def ALIGN_CFG : Reg := { page := 0x5D, off := 0x128, acc := .rw, reset := 0x14, resv := 0xFFFFFF0000000000 }
/-- `MESH_TMO` (spec/18 R502). -/
def MESH_TMO : Reg := { page := 0x5D, off := 0x130, acc := .rw, reset := 0x3E8, resv := 0xFFFFFFFFFFFF0000 }
/-- `MESH_ERR` (spec/18 R502). -/
def MESH_ERR : Reg := { page := 0x5D, off := 0x138, acc := .rw }
/-- `PART_TIDE` (spec/18 R502). -/
def PART_TIDE : Reg := { page := 0x5D, off := 0x140, acc := .ro }
/-- `MEMBER_SERIAL` (spec/18 R502). -/
def MEMBER_SERIAL : Reg := { page := 0x5D, off := 0x400, count := 64, acc := .rw }
/-- `ERR_WSEQ` (spec/19 R513). -/
def ERR_WSEQ : Reg := { page := 0x0B, off := 0x100, acc := .ro }
/-- `ERR_RSEQ` (spec/19 R513). -/
def ERR_RSEQ : Reg := { page := 0x0B, off := 0x108, acc := .rw, resv := 0xFFFFFFFF00000000 }
/-- `ERR_OVERWRITTEN` (spec/19 R513). -/
def ERR_OVERWRITTEN : Reg := { page := 0x0B, off := 0x110, acc := .rw }
/-- `ERR_SUPPRESSED` (spec/19 R513). -/
def ERR_SUPPRESSED : Reg := { page := 0x0B, off := 0x118, acc := .rw }
/-- `ERR_CMD` (spec/19 R513). -/
def ERR_CMD : Reg := { page := 0x0B, off := 0x120, acc := .wo, resv := 0xFFFFFFFFFFFFFFF8 }
/-- `RL_SEL` (spec/19 R513). -/
def RL_SEL : Reg := { page := 0x0B, off := 0x128, acc := .rw, resv := 0xFFFFFFFFFFFFFF80, perAgent := true }
/-- `RL_CFG` (spec/19 R513). -/
def RL_CFG : Reg := { page := 0x0B, off := 0x130, acc := .rw, resv := 0xFFFFFFFFFFFF00F0 }
/-- `SUM_STAT` (spec/19 R513). -/
def SUM_STAT : Reg := { page := 0x0B, off := 0x138, acc := .ro }
/-- `FF_W0` (spec/19 R513). -/
def FF_W0 : Reg := { page := 0x0B, off := 0x140, acc := .ro, grp := 3 }
/-- `FF_W1` (spec/19 R513). -/
def FF_W1 : Reg := { page := 0x0B, off := 0x148, acc := .ro, mem := 8 }
/-- `FF_W2` (spec/19 R513). -/
def FF_W2 : Reg := { page := 0x0B, off := 0x150, acc := .ro, mem := 16 }
/-- `FF_W3` (spec/19 R513). -/
def FF_W3 : Reg := { page := 0x0B, off := 0x158, acc := .ro, mem := 24 }
/-- `ERR_RD` (spec/19 R513). -/
def ERR_RD : Reg := { page := 0x0B, off := 0x200, count := 8, acc := .ro, grp := 7 }
/-- `TP_XB` (spec/19 R516). -/
def TP_XB : Reg := { page := 0x5F, off := 0x100, count := 8, acc := .rw, resv := 0xFFFFFFFFFF00FC00 }
/-- `TP_DMA` (spec/19 R516). -/
def TP_DMA : Reg := { page := 0x5F, off := 0x140, acc := .rw, resv := 0xFFFFFFFFFF00FC00 }
/-- `TEST_STAT` (spec/19 R517). -/
def TEST_STAT : Reg := { page := 0x5E, off := 0x100, acc := .ro }
/-- `BIST_RES` (spec/19 R517). -/
def BIST_RES : Reg := { page := 0x5E, off := 0x108, acc := .ro }
/-- `TEST_CTRL` (spec/19 R517). -/
def TEST_CTRL : Reg := { page := 0x5E, off := 0x800, acc := .rw, resv := 0xFFFFFFFFFFFFFFFE }
/-- `BIST_CMD` (spec/19 R517). -/
def BIST_CMD : Reg := { page := 0x5E, off := 0x808, acc := .wo, resv := 0xFFFFFFFFFFFFFFE0 }

end R

/-- The descriptors, by the first page and the number of pages that hold them. -/
def regTable : List (Nat × Nat × List Reg) :=
  [(0x08, 1, [R.PWR_STAT, R.PWR_FAULT, R.SV_STAT, R.SV_CMD, R.WD_FEED, R.UNSUP_LIMIT, R.UNSUP_STAT, R.CKPT_STAT, 
     R.GATE_STAT]),
   (0x5C, 1, [R.PIN_OE, R.PIN_OUT, R.PIN_IN, R.PIN_FAULT, R.PIN_MISMATCH, R.PIN_RETRY, R.PIN_LAST_EVT]),
   (0x00, 1, [R.DEV_ID, R.DEV_SERIAL, R.DEV_STATUS, R.LAST_REJECT, R.TIDE_NOW, R.EVT_SUM_LO, R.EVT_SUM_HI, 
     R.REJ_SUM_LO, R.REJ_SUM_HI, R.EVT_ROUTE, R.SCRATCH, R.AGENT_ID, R.RESET_CAUSE]),
   (0x10, 1, [R.SCHED_STAT, R.TIDE, R.EPOCH_SLOT, R.RUN_ID, R.STORE0_ID, R.STORE1_ID, R.LOAD_CMD, R.LOAD_STAT, 
     R.ARM_TIDE, R.ARM_CTRL, R.ARM_CANCEL, R.SWAP_STAT, R.SWAP_TIDE]),
   (0x11, 1, [R.BUD_SHAPE, R.BUD_CHUNK_INTEG, R.BUD_PHASE, R.BUD_DUMP, R.BUD_LAYOUT, R.BUD_HEAP_ALLOC, 
     R.BUD_HEAP_BW, R.BUD_PORTS]),
   (0x12, 1, [R.PROBE_SEL, R.PROBE_DATA, R.BR_HEAP, R.BR_BUDGET, R.BR_BANK, R.BR_RAKE, R.BR_FEED, R.BR_LINK, 
     R.BR_ETH, R.BR_SLUICE, R.BR_FIRST, R.BR_CLEAR, R.STRESS_TIDES]),
   (0x48, 8, [R.LANE_CFG, R.LANE_STAT, R.PRBS_CTRL, R.PRBS_ERR, R.PRBS_BITS, R.PRBS_RESYNC, R.BLK_ERR, 
     R.LOCK_LOSS, R.LANE_INJ, R.LANE_CMD, R.LANE_XCFG]),
   (0x50, 4, [R.QUAD_MODE, R.LINK_CFG, R.LINK_PWR, R.LINK_STAT, R.PEER_SERIAL, R.PEER_PORT, R.LINK_CMD, 
     R.RX_BOUND, R.CELLS_RX, R.CELLS_TX, R.DROP_CRC, R.DROP_FORM, R.DROP_TIME, R.DROP_OVF, R.DROP_DUP, 
     R.SEQ_JUMP, R.REPLAYS, R.NEG_COUNT, R.TRAIN_TIME]),
   (0x20, 16, [R.SLU_STAT, R.LVL_CFG, R.GAIN_ADDR, R.GAIN_DATA, R.GAIN_CTRL, R.WIN_ADDR, R.WIN_DATA, R.WIN_CTRL, 
     R.SLU_CMD, R.CLIP_ADDR, R.CLIP_DATA, R.CNT_GAP_SPECTRA, R.CNT_MISSING, R.CNT_CLIP, R.CNT_OVR, 
     R.CNT_IN_SAT, R.CNT_TIME_ALIGN, R.CNT_DLY_RANGE, R.CNT_MODEL, R.CNT_LATE, R.LVL, R.SLU_XCFG, 
     R.DM_T0, R.DM_D0, R.DM_D1, R.DM_D2, R.FR_FLO, R.FR_PH0, R.DM_CTRL, R.SLOT_STAT]),
   (0x40, 8, [R.HC_STAT, R.HC_CFG, R.HC_TEMP, R.TRN_TAG0, R.TRN_TAG1, R.TRN_LANE, R.ERR_CORR, R.ERR_UNCORR, 
     R.ERR_ADDR, R.POISON_OUT, R.FWD_HITS, R.MIT_COUNT, R.MIT_OVF, R.FRZ_INFO, R.HC_CMD, R.HC_XCFG, 
     R.HC_XCMD, R.RK_STAT, R.RK_PROMOTED, R.RK_INF, R.RK_WRAP_INF, R.RK_ERR, R.RK_DUMPS, R.DUMP_SAT, 
     R.RK_DUMP_PTR]),
   (0x40, 1, [R.POND_CFG, R.ACC_CFG, R.ACC_STAGGER, R.ACC_GEN, R.ACC_STOKES]),
   (0x30, 16, [R.PAN_STAT, R.PAN_ERR, R.PAN_STEPS, R.BEAM_CLIP, R.OPM_ADDR, R.OPM_DATA, R.ACC_ADDR, R.ACC_DATA, 
     R.ACC_STAT, R.FEED_R_STAT, R.FEED_R_ERR, R.FEED_C_STAT, R.FEED_C_ERR, R.PAN_XPC, R.PAN_XLOOP0, 
     R.PAN_XLOOP1, R.PAN_XLOOP2, R.PAN_XTIDE, R.PAN_XCMD, R.JOB_ADDR, R.JOB_DATA, R.BF_PSUM, R.BF_VBCFG, 
     R.BF_VBLAG, R.VB_BASE, R.VB_SPAN, R.RS_BASE, R.RS_SPAN, R.BF_RS, R.VB_PTR, R.RS_PTR, R.BF_PS_ERR, 
     R.BF_VB_ERR, R.BF_SEQ]),
   (0x30, 1, [R.WT_BASE, R.WT_SIZE, R.WT_SEL, R.WT_STAT, R.WT_REFUSED]),
   (0x54, 4, [R.ETH_CFG, R.ETH_STAT, R.ETH_CMD, R.RX_FRAMES, R.RX_BYTES, R.RX_BAD, R.RX_DROP, R.RX_RING, 
     R.TX_FRAMES, R.TX_BYTES, R.TX_ERR, R.FEC_CORR, R.FEC_UNCORR, R.OUT_SRC, R.TS_XADJ]),
   (0x54, 1, [R.FLT_SEL, R.FLT_W0, R.FLT_W1, R.FLT_W2, R.DST_SEL, R.DST_DATA, R.DST_CTRL]),
   (0x58, 1, [R.QM_STAT, R.RING_SEL, R.RING_D0, R.RING_D1, R.RING_D2, R.RING_D3, R.RING_DB, R.QM_ERR, 
     R.QM_LAST_ERR]),
   (0x0C, 1, [R.XB_MAP, R.XB_QOS, R.FW_CTRL, R.FW_GEN, R.FW_FENCE, R.FW_DENIED, R.XB_DECODE, R.FW_LAST, 
     R.FW_RULE_A, R.FW_RULE_B]),
   (0x59, 1, [R.DMA_STAT, R.DMA_EVT, R.DMA_EVT_SET, R.DMA_EVT_CLR, R.CH_SEL, R.CH_PROG, R.CH_CFG, R.CH_CMD, 
     R.DMA_ERR]),
   (0x5A, 1, [R.CH_STAT, R.CH_PC, R.CH_BYTES]),
   (0x0D, 1, [R.PCIE_STAT, R.PCIE_ID, R.HOST_OFS, R.INB_TMO, R.PCIE_ERR, R.BAR2_WIN]),
   (0x01, 1, [R.PLL_STAT, R.CTRL_NOW, R.HO_VALUE, R.PHASE_ERR, R.NET_PHASE, R.NET_TARGET, R.NET_SLOPE, 
     R.ABSORB_LAST, R.SWITCH_CNT, R.LAST_SWITCH, R.PPS_OUT_CFG, R.CLK_XCFG]),
   (0x02, 1, [R.SEL_CFG, R.PRIO, R.SRC_CFG, R.WTR, R.HO_CFG, R.SRC_STAT, R.DISQ_CNT]),
   (0x03, 4, [R.TB_SEC, R.TB_NS, R.TB_STAT, R.TB_RATE, R.TB_SRC, R.TB_OFS, R.STEP_SEC, R.STEP_NS, R.STEP_CTRL, 
     R.EPOCH_SEC, R.EPOCH_NS]),
   (0x07, 1, [R.SRV_CFG, R.SRV_GAIN, R.SRV_STAT, R.SMP_ACCEPT, R.SMP_REFUSE, R.RATE_I, R.SMP_OFS, R.SMP_MT_SEC, 
     R.SMP_MT_NS]),
   (0x0E, 1, [R.CQ_STAT, R.CQ_FW, R.SESSION_TMO, R.CQ_CH, R.CQ_CNT]),
   (0x09, 1, [R.TMP_CFG, R.TMP_STAT, R.TMP_LATCH, R.TMP_LAST, R.TMP_COUNT]),
   (0x0F, 1, [R.SEC_STAT]),
   (0x0A, 1, [R.NVM_STAT, R.NVM_ADDR, R.NVM_DATA, R.NVM_CMD, R.UPD_STAT, R.UPD_VER, R.UPD_CFG, R.NVM_ERR]),
   (0x5B, 1, [R.SAL_STAT, R.SAL_CFG, R.SAL_CAL, R.URG_CTRL, R.SAL_CMD, R.TRIG_TIME, R.RES_WSEQ, R.RES_RSEQ, 
     R.CAP_PTR, R.CAP_ADDR, R.CAP_DATA, R.SAL_CNT, R.CAL_STAT, R.SLICE, R.SEQ, R.RES_RW, R.SAL_XCFG]),
   (0x5D, 1, [R.MESH_CFG, R.MESH_STAT, R.PART_MASK, R.LINK_MASK, R.ALIGN_OFS, R.ALIGN_CFG, R.MESH_TMO, 
     R.MESH_ERR, R.PART_TIDE, R.MEMBER_SERIAL]),
   (0x0B, 1, [R.ERR_WSEQ, R.ERR_RSEQ, R.ERR_OVERWRITTEN, R.ERR_SUPPRESSED, R.ERR_CMD, R.RL_SEL, R.RL_CFG, 
     R.SUM_STAT, R.FF_W0, R.FF_W1, R.FF_W2, R.FF_W3, R.ERR_RD]),
   (0x5F, 1, [R.TP_XB, R.TP_DMA]),
   (0x5E, 1, [R.TEST_STAT, R.BIST_RES, R.TEST_CTRL, R.BIST_CMD])]

/-- Whether offset `off` is the descriptor's `k`-th register for some `k`; that `k`. -/
def Reg.index? (r : Reg) (off : Nat) : Option Nat :=
  if r.off ≤ off ∧ (off - r.off) % r.stride = 0 ∧ (off - r.off) / r.stride < r.count then
    some ((off - r.off) / r.stride) else none

/-- The register that a list of descriptors has at an offset, with its index in the descriptor. -/
def findIn : List Reg → Nat → Option (Reg × Nat)
  | [], _ => none
  | r :: rs, off =>
    match r.index? off with
    | some k => some (r, k)
    | none => findIn rs off

/-- The register at an offset of a page (offsets from 0x100 on; the header is R57's). -/
def findInTable : List (Nat × Nat × List Reg) → Nat → Nat → Option (Reg × Nat)
  | [], _, _ => none
  | (p, n, rs) :: t, page, off =>
    if p ≤ page ∧ page < p + n then
      match findIn rs off with
      | some x => some x
      | none => findInTable t page off
    else findInTable t page off

/-- The register a page's register table lists at an offset; `none` for an unlisted offset (R52). -/
def findReg (page off : Nat) : Option (Reg × Nat) := findInTable regTable page off

end Sys2Proof.Machine
end

