-- ==== Sys2Proof/Machine/PartsAon.lean ====
section
/-! DEFINITION. The always-on domain's parts of State: power, clocks and time bases, supervisors, the bittern,
non-volatile memory and one-time memory, the tamper monitor. Every part is plain data with its reset value. -/

namespace Sys2Proof.Machine

/-- The power states of R35 and R48, with `off` beside the five that `PWR_STAT.STATE` reports. -/
inductive PowerState where
  | boot | run | idle | standby | held | off
  deriving DecidableEq, Repr

/-- What a pending move to another power state waits for (R35, R36, R37). -/
inductive PowerReq where
  | none
  | toRun (tide : Nat)
  | toIdle
  | toStandby
  deriving DecidableEq, Repr

/-- A pending move with its tide counted anew, when the tide numbers change by `d` at the opening of an epoch: the boundary is
the same (R35, R85). -/
def PowerReq.shift (d : Int) : PowerReq → PowerReq
  | .toRun t => .toRun ((t : Int) + d).toNat
  | r => r

/-- Supplies, reset pins and power states (spec/02). -/
structure Power where
  /-- POR_N, WARM_N and PERST_N are high. -/
  porN : Bool := false
  /-- The level at the POR_N ball; `porN` is high once the device heeds it (R33). -/
  porPin : Bool := false
  warmN : Bool := true
  perstN : Bool := true
  state : PowerState := .boot
  feedA : Bool := false
  feedB : Bool := false
  /-- The feed the AON domain draws through (R29). -/
  load : Option Feed := none
  /-- Rails above 10 % of nominal, and qualified rails, in `RAIL_OK` order (R31, R48). -/
  started : BitVec 8 := 0
  railOk : BitVec 8 := 0
  /-- The core holds of R32, R39 and R519. -/
  seqHold : Bool := false
  tripHold : Bool := false
  tempHold : Bool := false
  scanHold : Bool := false
  /-- The core is out of reset. -/
  coreUp : Bool := false
  coreReady : Bool := false
  /-- `RESET_CAUSE.CAUSE` of the latest core start, and the event that last stopped or held the core (R82). -/
  cause : Nat := 0
  lastStop : Nat := 0
  standbyReady : Bool := false
  req : PowerReq := .none
  /-- Pan rows ungated so far, and `Time.total` at the ungating of the latest or the acceptance of the command (R27). -/
  rows : Nat := 0
  rowAt : Nat := 0
  /-- Dry-mode pan rows of R28: bit r is set while row r issues in dry mode; `dryStop` at a halt's ramp. -/
  dry : BitVec 16 := 0
  dryStop : Bool := false
  /-- The latest junction reading in degrees Celsius, two's complement (R39). -/
  junction : BitVec 8 := 25
  deriving DecidableEq, Repr

/-- States of the root PLL, in the order of `PLL_STAT.STATE` (R409). -/
inductive PllState where
  | freeRun | acquiring | locked | holdover | lost
  deriving DecidableEq, Repr

/-- States of a time base, in the order of `TB_STAT.STATE` (R411). -/
inductive TbState where
  | free | tracking | holdover
  deriving DecidableEq, Repr

/-- States of a reference source (R388); `IN_USE` is read from the source in use. -/
inductive SrcState where
  | disabled | absent | qualifying | restoring | eligible
  deriving DecidableEq, Repr

/-- One second of the holdover history (R394): the TB2 second, its mean control value, whether it was locked. -/
structure HoSecond where
  sec : Nat
  h : Int
  locked : Bool
  deriving DecidableEq, Repr

/-- Clock and time state (spec/01, 04, 14). Times are counted in units of 1/(3 × 10^9 × 2^46) ns, in which an
SCLK, an RCLK, a rate offset of 2^-48, a servo offset of 2^-16 ns and a network phase of 10^-6 ps are all whole. -/
structure Time where
  /-- SCLK since AON start; tide number; SCLK since the tide's start; epoch number and start. -/
  total : Nat := 0
  tide : Nat := 0
  pos : Nat := 0
  epoch : Nat := 0
  epochStart : Int := 0
  tb0 : Int := 0
  tb1 : Int := 0
  tb3 : Int := 0
  tb0St : TbState := .free
  tb1St : TbState := .free
  coarse : Bool := false
  /-- The TB0 step: committed and not yet adopted is `STEP_CTRL.COMMIT`; adopted is `ARM_PEND`, and `closedAt` is the
  tide of the adopting boundary; `stepOfs` is `TB_OFS` in ps as it stood in the commit RCLK (R400). -/
  armPend : Bool := false
  closedAt : Nat := 0
  stepOfs : Int := 0
  /-- TB0's master measurement and whether its master is lost (R401). -/
  ofs : Option Int := none
  masterLost : Bool := false
  /-- TB1's servo (R403): `rI` is the binary64 word of r_i. -/
  jump : Bool := false
  stepUsed : Bool := false
  havePrev : Bool := false
  prevMt : Nat := 0
  rI : Word := 0
  lastOut : Nat := 0
  everSample : Bool := false
  /-- Root PLL (R389 to R397); `netPhase` is in 10^-6 ps, `src` 15 is no source; `ctrl` is the control
  value where no reference loop gives it, `switchAt` is `total` at the latest switch. -/
  pll : PllState := .freeRun
  src : Nat := 15
  ctrl : Int := 0
  hoValue : Int := 0
  hoStart : Nat := 0
  switchAt : Nat := 0
  netPhase : Int := 0
  netTarget : Int := 0
  slewing : Bool := false
  absorb : Int := 0
  xoBad : Bool := false
  hist : List HoSecond := []
  lockedAll : Bool := false
  sources : Map SrcState := []
  everDisq : BitVec 7 := 0
  /-- `total` at: each source's entry to its state (R387, R388), the root PLL's entry to `ACQUIRING` (R393), the latest second edge of
  TB0's master (R401), the latest sample accepted (R404). -/
  srcAt : Map Nat := []
  acqAt : Nat := 0
  edgeAt : Nat := 0
  sampleAt : Nat := 0
  /-- Selection inputs since the last evaluation (R391): the source in use was lost, modes or choices written. -/
  srcLost : Bool := false
  modeWrite : Bool := false
  selWrite : Bool := false
  /-- PPS_OUT: the level and the configuration in force, the time base and second of the latest boundary, and `total` there (R407). -/
  ppsLevel : Bool := false
  ppsSec : Option (Nat × Int) := none
  ppsAt : Nat := 0
  ppsCfg : Word := 0x186A0000
  deriving DecidableEq, Repr

/-- States of a supervisor, in the order of the codes of R443. -/
inductive SvState where
  | off | standby | starting | active | failed | qualifying
  deriving DecidableEq, Repr

/-- Why a supervisor boots (R444, R446, R447). -/
inductive BootKind where
  | coreStart | failover | takeover | restart
  deriving DecidableEq, Repr

/-- A gating request that waits for a secure use to end (R466), with `Time.total` at the request. -/
structure Gate where
  page : Nat
  value : Word
  since : Nat := 0
  deriving DecidableEq, Repr

/-- The supervisor pair, checkpoints, gating and updates (spec/16). -/
structure Supers where
  sv0 : SvState := .off
  sv1 : SvState := .off
  lastCause : Nat := 0
  failovers : Nat := 0
  validated : Nat := 0
  bootKind : BootKind := .coreStart
  /-- The boot ROM has finished (R446, 45 ms step). -/
  romDone : Bool := false
  ready : Bool := false
  recovery : Bool := false
  /-- The failover watchdog: `Time.total` when it was armed or fed last; `none` while it is stopped (R445). -/
  wdAt : Option Nat := none
  /-- A management restart in progress: `Time.total` at its start (R447). -/
  restartAt : Option Nat := none
  restartCause : Nat := 0
  /-- TB2 (in SCLK of `Time.total`) at which the unsupervised timer started; `none` while it is stopped (R450). -/
  unsupStart : Option Nat := none
  expired : Bool := false
  /-- The present count of the timer has met the limit. -/
  limitMet : Bool := false
  haltDue : Bool := false
  /-- A failover cause has occurred and the standby supervisor waits for its release (R446, 1 ms step). -/
  takeoverDue : Bool := false
  /-- A failover cause that has occurred and has not been acted on yet (R446, 1 µs step). -/
  failCause : Option Nat := none
  qualFailover : Bool := false
  /-- When the ROM firmware writes its `REARM`, and the failures of each supervisor in TB2 seconds (R449). -/
  rearmAt : Option Nat := none
  fails0 : List Nat := []
  fails1 : List Nat := []
  ckptSeq : Nat := 0
  ckptSlot : Nat := 0
  mirrorUsed : Bool := false
  nvmUsed : Bool := false
  ckptTrunc : Bool := false
  /-- The cause code of a checkpoint being written, of one due, and when the last one started (TB2 in SCLK). -/
  ckptWriting : Option Nat := none
  ckptDue : Option Nat := none
  ckptLast : Option Nat := none
  gates : List Gate := []
  gateCode : Nat := 0
  gatePage : Nat := 0
  deferrals : Nat := 0
  /-- Debug holds its grant (R467). -/
  dbgGrant : Bool := false
  /-- Firmware version words of `CQ_FW`: the ROM's and the running overlay's. -/
  romVer : Nat := 0
  ovlVer : Nat := 0
  /-- An overlay download in progress (`RECEIVING`, R459): length, bytes received, version. -/
  recvLen : Option Nat := none
  recvGot : Nat := 0
  recvVer : Nat := 0
  lastFail : Nat := 0
  /-- TB2 (in SCLK) at which the confirmation window ends (R461). -/
  confirmEnd : Option Nat := none
  deriving DecidableEq, Repr

/-- A pending report latch (R505, R506), with `Time.total` at its first report. -/
structure Latch where
  src : Nat
  fatal : Bool
  coalesced : Nat
  tide : Word
  epoch : Nat
  slot : Nat
  d0 : Word
  d1 : Word
  sec : Word
  since : Nat := 0
  deriving DecidableEq, Repr

/-- The bittern (spec/19): latches by source in source order, the two collection positions, the ring's words,
rate-limit windows (window number and reports accepted in it) and suppressed counts by source. `newCounts` and `newFatal`
are what the ring recorded since the last summary write: entries by class, and the words of the fatal ones, oldest
first. `recAt` is the RCLK after the one in which the collector recorded last, `lastFatal` the latest fatal entry with the RCLK of its
recording (R505, R510). -/
structure Bittern where
  latches : List Latch := []
  posFatal : Option Nat := none
  posOther : Option Nat := none
  wseq : Nat := 0
  rseq : Nat := 0
  ring : Map Word := []
  windows : Map (Nat × Nat) := []
  suppressed : Map Nat := []
  newCounts : Map Nat := []
  newFatal : List (List Word) := []
  recAt : Nat := 0
  lastFatal : Option (Nat × List Word) := none
  /-- The first-fault set holds an entry (R510). -/
  ffHeld : Bool := false
  /-- A summary write is due, and TB2 seconds of the previous one (R511). -/
  sumDue : Bool := false
  sumLast : Option Nat := none
  deriving DecidableEq, Repr

/-- A P-384 public key. -/
structure PubKey where
  x : Nat
  y : Nat
  deriving DecidableEq, Repr

/-- One-time memory (R463). -/
structure Otp where
  serial : Word := 0
  vendor : BitVec 16 := 0
  mapMode : Bool := false
  manufacturer : BitVec 11 := 0
  verify : PMap PubKey := []
  revoked : BitVec 8 := 0
  opKey0 : Option PubKey := none
  opRights0 : BitVec 8 := 0
  deriving DecidableEq, Repr

/-- Non-volatile memory, one-time memory and the AON SRAM mirror of R455. -/
structure Store where
  nvm : Memory := []
  otp : Otp := {}
  /-- The overlay slot being erased (R474). -/
  erasing : Option Nat := none
  sram : Memory := []
  deriving DecidableEq, Repr

/-- The tamper monitor (R468 to R470). -/
structure Tamper where
  hold : Bool := false
  /-- A condition latched in `STANDBY`, answered at wake (R469). -/
  pendingWake : Bool := false
  deriving DecidableEq, Repr

end Sys2Proof.Machine
end

