-- ==== Sys2Proof/Machine/PartsCore.lean ====
section
/-! DEFINITION. The core domain's register fabric and schedule engine as parts of State (spec/03, 04, 05), and
what the device sends to the world outside. -/

namespace Sys2Proof.Machine

/-- The shadow sets of R13, by the commit bit that adopts them: the swap arm, a slot's delay model, a unit's
gains and window, the weight copy, the destination table, the TB0 step. -/
inductive ShadowSet where
  | arm
  | dm (u k : Nat)
  | gain (u : Nat)
  | win (u : Nat)
  | wtSel
  | dest
  | tb0Step
  deriving DecidableEq, Repr

/-- A committed shadow set, and the tide boundaries that pass before the adopting one: one more for a commit in slot
4,095 (R13). -/
structure Commit where
  set : ShadowSet
  wait : Nat
  deriving DecidableEq, Repr

/-- What leaves the device: MSI-X messages, PCIe requests and completions, Ethernet frames, brine cells and
lane events, pin edges, supervisor interrupts. The list is the model's record of its outputs, newest first. -/
inductive Output where
  | msix (vec : Nat) (addr : Word) (data : BitVec 32)
  | irq (lo hi : Word)
  | ringIrq (r : Nat)
  | pcieReq (id : Nat) (write : Bool) (addr : Word) (len : Nat) (data : List Byte)
  | pcieCpl (status : Nat) (data : List Byte)
  | pcieErr
  | frame (port : Nat) (bytes : List Byte)
  | cell (quad : Nat) (words : List Word)
  | control (quad : Nat) (type : Nat) (fields : Word)
  | laneEvent (lane : Nat) (kind : Nat) (value : Nat)
  | line (lane : Nat) (sync : BitVec 2) (payload : Word)
  | raw (lane : Nat) (n : Nat) (bits : Nat)
  | syncOut
  | ppsOut (level : Bool)
  | psum (row : Nat) (words : List Word)
  deriving DecidableEq, Repr

/-- The register fabric (spec/03): group captures and held words by agent, the posted-write buffer of R77, the
starts of pages and the committed shadow sets. -/
structure Fabric where
  captures : PMap Word := []
  held : PMap Word := []
  posted : List Access := []
  /-- Pages with a start of unstated length (R59, R61): `Time.total` when `ENABLE` was set. -/
  startAt : PMap Nat := []
  commits : List Commit := []
  deriving DecidableEq, Repr

/-- The states of an image store, in the order of the codes of R103. -/
inductive StoreState where
  | empty | written | checking | valid | armed | running | refused
  deriving DecidableEq, Repr

/-- A swap or halt that has been adopted and is pending (R105). -/
structure Arm where
  halt : Bool
  store : Nat
  stress : Bool
  tide : Nat
  epoch : Nat
  deriving DecidableEq, Repr

/-- The schedule engine (spec/04): the two image stores, the running image, the pending swap or halt. -/
structure Sched where
  st0 : StoreState := .empty
  st1 : StoreState := .empty
  image0 : Memory := []
  image1 : Memory := []
  /-- The store under check, and `Time.total` at the start of the check. -/
  check : Option (Nat × Nat) := none
  run : Option Nat := none
  stress : Bool := false
  pend : Option Arm := none
  /-- A withdrawal waits for its boundary (R106). -/
  cancel : Bool := false
  /-- Step 1 of R37 asks for a halt at the next boundary. -/
  standbyHalt : Bool := false
  /-- The store whose pan programs run in dry mode after a halt (R28). -/
  dryStore : Option Nat := none
  /-- Tides since the data path's time began, at the core start; the length in SCLK and the number of the epoch that closed last
  (R261). -/
  age : Nat := 0
  prevLen : Nat := 0
  prevNum : Nat := 0
  /-- The RCLK of the last breach and what `BR_FIRST` says of that RCLK's first (R143). -/
  brLast : Option (Nat × Word) := none
  /-- Runs of tides of this epoch in which conditions of R12 held, newest first: first and last tide, and bits
  0 `PARTITIONED`, 1 `HOLDOVER`, 2 `UNSUPERVISED`. -/
  conds : List (Nat × Nat × Nat) := []
  /-- Integrations flushed (R292): epoch and number. -/
  flushed : List (Nat × Int) := []
  deriving DecidableEq, Repr

end Sys2Proof.Machine
end

