-- ==== Sys2Proof/Machine/PartsHeap.lean ====
section
/-! DEFINITION. The heap, its open queues and the crossbar as parts of State (spec/08, 13). -/

namespace Sys2Proof.Machine

/-- Where the data of a scheduled read goes, and whom a scheduled write is reported to (R238). A write that was
discarded is reported as poison. -/
inductive Dest where
  /-- A write that nobody waits for. -/
  | none
  /-- A feeder's buffer: feeder, first entry, part, or 8 for a raw transfer (R259). -/
  | feeder (f entry pos : Nat)
  /-- A transfer of a sluice slot's delay buffer, read or written (R189, R194). -/
  | delayRead (slot blk : Nat)
  | delayWrite (slot blk : Nat)
  /-- A transfer of a block that a rake reads, and a rake's write (R301, R302). -/
  | rake (k blk idx : Nat)
  | rakeWrite (k : Nat)
  /-- A dump header written: rake, heap address, block length (R294, R341). -/
  | dumpHeader (k addr len : Nat)
  /-- A beam writer's transfer, and the last one of a block or record: row, kind 1 or 2, address, length. -/
  | beamWrite (r : Nat)
  | beamBlock (r kind addr len : Nat)
  /-- A transfer of the fragment that a port reads: port and place (R343). -/
  | fragment (e place : Nat)
  deriving DecidableEq, Repr

/-- A scheduled heap transfer that its unit has asked for. `now` marks one issued for the slot in progress
(a feeder's read), the others wait for a slot of their owner; `addr` is the address as the unit names it. `ready` is when
a write's data are there, in half SCLK of the data path; `mark` says that they carry a poison mark. -/
structure SXfer where
  owner : Nat
  now : Bool
  write : Bool
  addr : Nat
  data : List Byte
  dest : Dest
  ready : Nat := 0
  mark : Bool := false
  deriving DecidableEq, Repr

/-- Controller states (R59, R240); `ACTIVE` is read from the running image and the open queues. -/
inductive CtrlState where
  | disabled | starting | ready | frozen | fault
  deriving DecidableEq, Repr

/-- What a `STARTING` controller runs: all of R223, R223 without the zero fill (R240), or steps 2 to 4 (R239). -/
inductive TrainKind where
  | full | keep | retrain
  deriving DecidableEq, Repr

/-- One channel controller (spec/08). -/
structure Ctrl where
  state : CtrlState := .disabled
  train : TrainKind := .full
  rcFails : Nat := 0
  lost : Bool := false
  deriving DecidableEq, Repr

/-- An activation-table entry (R231). -/
structure ActEntry where
  bank : Nat
  row : Nat
  count : Nat
  deriving DecidableEq, Repr

/-- A re-centring in progress: slots swept, the pass mask of each of eight sweeps, and the marks at its first
slot (R227). -/
structure Trim where
  step : Nat
  masks : List Nat
  act : Nat
  temp : BitVec 8
  deriving DecidableEq, Repr

/-- One part of an open request: a 64-byte transfer, the first byte and count it names, the bytes to write, and
for a partial write the merge buffer once it has been read (R234). -/
structure HPart where
  addr : Nat
  lo : Nat
  len : Nat
  data : List Byte
  merge : Option (List Byte)
  deriving DecidableEq, Repr

/-- An open request at a pseudo-channel's queue: the transaction it belongs to, or `none` for one that the model
was given by HEAP_OPEN_REQUEST alone. -/
structure HReq where
  txn : Nat
  qos : Nat
  write : Bool
  parts : List HPart
  deriving DecidableEq, Repr

/-- One pseudo-channel (spec/08). -/
structure PCh where
  rcDue : Bool := false
  recentres : Nat := 0
  actTag : Nat := 0
  tempTag : BitVec 8 := 0
  trim : Option Trim := none
  refSteps : Nat := 0
  acts : List ActEntry := []
  mits : List (Nat × Nat) := []
  /-- The last three write slots, newest first: absolute slot number and addresses of the transfers (R233). -/
  writes : List (Nat × List Nat) := []
  /-- Absolute slot number and transfers carried, newest first, over the last 1,024 slots (R225). -/
  marks : List (Nat × Nat) := []
  bytes : Nat := 0
  due : List SXfer := []
  queue : List HReq := []
  deriving DecidableEq, Repr

/-- The heap (spec/08). `lost` names the controllers that have lost their data (R236), each with the index of the free
values that stand for them; `known` are the transfers of such a controller written since, and `marks` those that hold
data built on poison (R238), both by heap word. `tempTide` holds, for each stack, the tide in which its temperature was last read, and
`openReads` its open read transfers, counted for test injection (R245). -/
structure Heap where
  mem : Memory := []
  lost : PMap Nat := []
  known : Map Bool := []
  marks : Map Bool := []
  ctrl : Map Ctrl := []
  pch : Map PCh := []
  tempTide : PMap Nat := []
  openReads : Map Nat := []
  deriving DecidableEq, Repr

/-- What a crossbar transaction's response serves. -/
inductive Origin where
  /-- A request the model was given by a command alone. -/
  | outside
  /-- An inbound PCIe request to BAR2. -/
  | pcie
  /-- A DMA channel's fetch, read or write: channel, attempts made, byte count it stands for. -/
  | dmaFetch (c tries : Nat)
  | dmaRead (c tries seq : Nat)
  | dmaWrite (c tries seq : Nat)
  /-- A ring entry and frame data being written, a transmit entry and its frame being read, and a transmit entry
  being completed. -/
  | ringWrite (job : Nat)
  | rxWrite (job : Nat)
  | txEntry (e : Nat)
  | txRead (e ofs : Nat)
  | txDone (e r idx : Nat)
  /-- A mesh request served for another member: its member, tag and originating master. -/
  | mesh (src tag master : Nat)
  deriving DecidableEq, Repr

/-- A crossbar transaction (R360). `port` is its target; `gen` is the generation it was checked under once it
has won (R364); `resp` its response: error flag, poison flag and data. `left` counts the heap parts outstanding; `respAt` is
`Time.total` at the response. -/
structure Txn where
  master : Nat
  secure : Bool
  write : Bool
  addr : Nat
  len : Nat
  data : List Byte
  qos : Nat
  waited : Nat
  port : Nat
  gen : Option Nat
  left : Nat
  bad : Bool := false
  resp : Option (Bool × Bool × List Byte)
  origin : Origin
  respAt : Nat := 0
  deriving DecidableEq, Repr

/-- The crossbar (spec/13): transactions by identifier, previous winners by port, supervisor SRAM. -/
structure Xbar where
  txns : PMap Txn := []
  next : Nat := 0
  winners : Map Nat := []
  sram : Memory := []
  rom : Memory := []
  deriving DecidableEq, Repr

end Sys2Proof.Machine
end

