-- ==== Sys2Proof/Machine/PartsLink.lean ====
section
/-! DEFINITION. Brine links and lanes as parts of State (spec/06): what a link holds beside its registers. -/

namespace Sys2Proof.Machine

/-- A negotiation's subject (R173). -/
inductive NegKind where
  | width | sleep | retrain
  deriving DecidableEq, Repr

/-- A scheduled cell in a link's receive buffer (R158): its 32 words, when it is available to the receive window
and when it is released, in SCLK since the epoch start. -/
structure RxCell where
  words : List Word
  avail : Nat
  release : Nat
  deriving DecidableEq, Repr

/-- A link's partner (R164, R166). -/
structure Peer where
  serial : Word
  quad : Nat
  session : Nat
  deriving DecidableEq, Repr

/-- One brine link (spec/06). `LINK_STAT` holds its state, width and negotiation state. -/
structure Link where
  /-- Own `SESSION`, kept across core resets. -/
  session : Nat := 0
  peer : Option Peer := none
  /-- The partner held by the checkpoint that the core start restored (R166). -/
  saved : Option Peer := none
  /-- The training in progress began in `DETECT`; width trained and width agreed at `PARAM`. -/
  full : Bool := true
  own : Nat := 0
  agreed : Nat := 0
  rx : List RxCell := []
  lastSeq : Map (Nat × Bool) := []
  /-- Open cells not sent yet, oldest first, and sent cells not acknowledged, oldest first. -/
  txq : List (List Word) := []
  replay : List (List Word) := []
  /-- Replay cells from this index on are to be sent again; none while nothing is resent. -/
  resend : Option Nat := none
  resends : Nat := 0
  txSeq : Nat := 0
  rxSeq : Nat := 0
  nak : Bool := false
  /-- Accepted cells that test delay still holds, oldest first (R182): when each is passed on, in SCLK of the data path, its
  words, and the phases that an exchange needs of it. -/
  held : List (Nat × List Word × Nat × Nat × Nat) := []
  /-- The credits as last sent (R161). -/
  outC : Nat := 32
  outM : Nat := 256
  sentC : Nat := 0
  sentM : Nat := 0
  credC : Nat := 32
  credM : Nat := 256
  freedC : Nat := 32
  freedM : Nat := 256
  /-- Cells of `CONTROL` and `MESH` type sent, for test injection (R182). -/
  txCount : Nat := 0
  /-- `Time.total` at each cell sent in the last 1 µs (R174). -/
  txTimes : List Nat := []
  /-- The open negotiation: its subject, whether this end requested it, its token and target, the cause that a
  retrain records, and whether the peer's `COMMIT` has come. -/
  kind : NegKind := .width
  mine : Bool := false
  token : Nat := 0
  target : Nat := 0
  cause : Nat := 0
  peerCommit : Bool := false
  lanesReady : Bool := false
  nextToken : Nat := 0
  /-- A request abandoned to the leader, or waiting for an open negotiation to end (R178). -/
  later : Option (NegKind × Nat × Nat) := none
  /-- The index of the link's next block, by lanes in turn, and `Time.total` when its lanes began to send (R150, R151). -/
  txBlk : Nat := 0
  blkAt : Nat := 0
  /-- The words of the cell being received (R152), the latest round of received blocks with its `BCNT`, and when `BCNT` mismatches
  were found in the last 1 ms (R151). -/
  cell : Option (List Word) := none
  round : Option (Nat × Nat) := none
  skews : List Nat := []
  /-- Fragments sent with `TSTATE` 1 are out; fragments received, the width offered, and `TS` with `TSTATE` 2 received on lane 0
  (R163); `Time.total` when the training in progress began. -/
  tsOut : Bool := false
  frags : PMap Nat := []
  offered : Nat := 0
  readies : Nat := 0
  trainAt : Nat := 0
  /-- Scheduled partial-sum cells dropped as late, by row and `SEQ`, whose closing steps are still to come (R138). -/
  lates : List Nat := []
  deriving DecidableEq, Repr

/-- A lane's test and equaliser state beside its registers: `Time.total` of the equaliser's last move (R168), the block
boundary's position (R172), and `Time.total` from which the locked checker's bits are still to be added to `PRBS_BITS` (R169);
the scramblers' histories (R148); the validity of the last sync headers, newest first, the run of valid ones, and the blocks
received since the lanes were aligned (R151); bits that a burst still inverts and bits sent (R171); the PRBS generator's register,
and the checker's register, the bits it holds, its run of matching bits and the last bits' matches, newest first (R169). -/
structure Lane where
  moved : Option Nat := none
  slip : Nat := 0
  prbsAt : Option Nat := none
  scrTx : BitVec 58 := 0
  scrRx : BitVec 58 := 0
  heads : List Bool := []
  good : Nat := 0
  rxCount : Nat := 0
  inj : Nat := 0
  sentBits : Nat := 0
  gen : Nat := 0
  chk : Nat := 0
  chkGot : Nat := 0
  chkRun : Nat := 0
  chkHits : List Bool := []
  deriving DecidableEq, Repr

/-- The links, the lanes, and the scheduled cells consumed from any link: header identity and `TIME` (R157). `due` holds, for
each stream that has been received, the quad and the `TIME` of its next cell (R138). -/
structure Links where
  link : Map Link := []
  lane : Map Lane := []
  consumed : List (Nat × Nat) := []
  due : PMap (Nat × Nat) := []
  deriving DecidableEq, Repr

end Sys2Proof.Machine
end

