-- ==== Sys2Proof/Machine/PartsHost.lean ====
section
/-! DEFINITION. The DMA channels and the PCIe endpoint as parts of State (spec/13). -/

namespace Sys2Proof.Machine

/-- States of a DMA channel, in the order of `CH_STAT.STATE` (R366). -/
inductive ChState where
  | idle | run | wait | done | halted | stopping
  deriving DecidableEq, Repr

/-- An active `LOOP` level (R370): the word index of its `LOOP`, remaining count and branch count. -/
structure LoopLevel where
  at_ : Nat
  left : Nat
  taken : Nat
  deriving DecidableEq, Repr

/-- A `MOVE` or `MOVE2D` in progress (R369, R373): first row's source and destination, row length, rows, strides,
whether both ranges lie in one row of the map, whether each row completes before the next is read, and what has been issued: rows done
and bytes of the current row. -/
structure Copy where
  src : Nat
  dst : Nat
  rowLen : Nat
  rows : Nat
  sStride : Int
  dStride : Int
  same : Bool
  serial : Bool
  row : Nat := 0
  ofs : Nat := 0
  deriving DecidableEq, Repr

/-- One page of the DMA buffer in use (R367): the destination and length of the read, its data once read, and the bytes whose writes
have been issued. -/
structure BufPage where
  txn : Nat
  seq : Nat
  dst : Nat
  len : Nat
  data : Option (List Byte)
  put : Nat := 0
  deriving DecidableEq, Repr

/-- An instruction whose transfers are outstanding: its number, its address, and the bytes whose writes completed
without error (R374). -/
structure MoveRec where
  seq : Nat
  pc : Nat
  written : Nat
  deriving DecidableEq, Repr

/-- One DMA channel (spec/13). `instr` holds the words of the instruction fetched, `out` counts transactions that
have no response yet, `held` the transactions that wait for a reissue, `fetching` says that a fetch is on its way, `full` that a
final entry has found its ring full. -/
structure Chan where
  state : ChState := .idle
  status : Nat := 0
  pc : Nat := 0
  ofsS : Nat := 0
  ofsD : Nat := 0
  level0 : Option LoopLevel := none
  level1 : Option LoopLevel := none
  instr : List Word := []
  copy : Option Copy := none
  pages : List BufPage := []
  out : Nat := 0
  held : List (Nat × Txn) := []
  moves : List MoveRec := []
  seq : Nat := 0
  waitFrom : Nat := 0
  attempts : Nat := 0
  written : Nat := 0
  discarded : Nat := 0
  /-- A halt's status and the tag of its final entry, while outstanding transactions retire. -/
  ending : Option (Nat × Nat) := none
  fetching : Bool := false
  full : Bool := false
  deriving DecidableEq, Repr

/-- The DMA block: channels, event flags, the channels that the read and the write engine served last (R367), and when each may issue
a transaction that the test holds back (R515). -/
structure Dma where
  chan : Map Chan := []
  events : Word := 0
  prevRd : Nat := 63
  prevWr : Nat := 63
  rdAt : Option Nat := none
  wrAt : Option Nat := none
  deriving DecidableEq, Repr

/-- One MSI-X table entry (R381): masked after reset, as PCIe 5.0 states. -/
structure MsixEntry where
  addr : Word := 0
  data : BitVec 32 := 0
  masked : Bool := true
  deriving DecidableEq, Repr

/-- The PCIe endpoint (R377 to R381): link, power state, what the host's configuration writes left, the MSI-X table
and its pending bits, outbound requests not answered yet. -/
structure Pcie where
  up : Bool := false
  speed : Nat := 0
  width : Nat := 0
  d3 : Bool := false
  bme : Bool := false
  msixEn : Bool := false
  maskAll : Bool := false
  mps : Nat := 0
  mrrs : Nat := 2
  cplUs : Nat := 50000
  table : Map MsixEntry := []
  pba : Map Bool := []
  outbound : List Nat := []
  deriving DecidableEq, Repr

end Sys2Proof.Machine
end

