-- ==== Sys2Proof/Machine/PartsMesh.lean ====
section
/-! DEFINITION. The saltern as a part of State (spec/18). -/

namespace Sys2Proof.Machine

/-- A member's latest `LSA` (R491): sequence number, flags, neighbour mask, epoch and its start, the pending close's
start, the pending arm's tide and image; `seenAt` is `Time.total` at its acceptance (R492). -/
structure Lsa where
  seq : Nat
  flags : BitVec 8
  nbrs : Word
  epoch : Nat
  startSec : Word
  startNs : Word
  closeSec : Word
  closeNs : Word
  arm : Word
  imageId : Word
  seenAt : Nat := 0
  deriving DecidableEq, Repr

/-- Roles, in the order of `MESH_STAT.ROLE` (R495, R502). -/
inductive Role where
  | standalone | joining | primary | minority
  deriving DecidableEq, Repr

/-- A mesh request waiting for its response: its transaction, where its part's data go, its length, and `Time.total` when it left
(R501). -/
structure MeshTag where
  txn : Nat
  ofs : Nat
  len : Nat
  since : Nat := 0
  deriving DecidableEq, Repr

/-- The saltern (spec/18). `ofs` is the offset last measured in 1/16 SCLK and `measAt` `Time.total` then (R493, R494); `viewSince` is `Time.total` since which the view has met
the `PRIMARY` condition; `inbox` holds the mesh cells accepted for this member, with the quad of arrival. -/
structure Mesh where
  lsas : PMap Lsa := []
  ownSeq : Nat := 0
  role : Role := .standalone
  viewSince : Option Nat := none
  aligned : Bool := false
  ofs : Int := 0
  measAt : Nat := 0
  auth : Bool := false
  adoptPend : Bool := false
  tags : PMap MeshTag := []
  nextTag : Nat := 0
  inbox : List (Nat × List Word) := []
  deriving DecidableEq, Repr

end Sys2Proof.Machine
end

