-- ==== Sys2Proof/Machine/PartsEth.lean ====
section
/-! DEFINITION. Rings, Ethernet ports and their tables as parts of State (spec/12). -/

namespace Sys2Proof.Machine

/-- One ring (R349 to R354): its descriptor, the next producer index allocated, entries written ahead of `TAIL`,
entries completed ahead of `HEAD`, progress since the last signal and `Time.total` of the first unsignalled one. -/
structure Ring where
  d0 : Word := 0
  d1 : Word := 0
  d2 : Word := 0
  d3 : Word := 0
  alloc : Nat := 0
  ahead : List Nat := []
  fetched : Nat := 0
  progress : Nat := 0
  since : Option Nat := none
  deriving DecidableEq, Repr

/-- An entry that the device is writing to a ring: ring, index, its eight words, what has to be written before it,
and whether that failed (R338, R351). -/
structure RingJob where
  ring : Nat
  idx : Nat
  words : List Word
  left : Nat
  bad : Bool
  port : Option Nat
  bytes : Nat
  chan : Option Nat
  deriving DecidableEq, Repr

/-- A transmit-ring frame in a port's staging area (R339, R340). -/
structure TxJob where
  ring : Nat
  idx : Nat
  entry : Option (List Word) := none
  frame : List Byte := []
  left : Nat := 0
  bad : Bool := false
  ready : Bool := false
  deriving DecidableEq, Repr

/-- A block notified to an output source (R341): source, number, heap address, length, kind. -/
structure Block where
  src : Nat
  seq : Nat
  addr : Nat
  len : Nat
  kind : Nat
  deriving DecidableEq, Repr

/-- A fragment of a block (R342, R343): F of its block, its number, offset and length, the block's first transfer, the
data read by place, reads outstanding, whether poison was read, and the SCLK at which its data are there. -/
structure Fragment where
  block : Block
  size : Nat
  frag : Nat
  ofs : Nat
  len : Nat
  hdr : List Byte
  parts : Map (List Byte)
  left : Nat
  poison : Bool
  time : Nat := 0
  deriving DecidableEq, Repr

/-- A Bryniz packet chosen for the line: its fragment, its number, whether it carries `SKIP`, and `Time.total` at which its
first byte reaches the MAC (R133, R344). -/
structure Flight where
  time : Nat
  frag : Fragment
  seq : Nat
  skip : Bool
  deriving DecidableEq, Repr

/-- One output source (R341, R345). -/
structure Source where
  streamSeq : Nat := 0
  blockSeq : Nat := 0
  skip : Bool := false
  deriving DecidableEq, Repr

/-- One Ethernet port (spec/12). `stage` is the receive staging in use in bytes; `last` the transmit ring served
last; `order` the blocks notified and not read yet, in order; `run` the transmit run in use (its first slot of the
epoch) and its next free offset in 1/25 SCLK; `flight` the packets whose first byte is yet to come; `fetchAt` when the frame that a
test delay holds may be fetched, `lastReady` when a ring frame was ready last and `wakeAt` when the transmitter is awake, in
`Time.total`. -/
structure Port where
  stage : Nat := 0
  last : Nat := 0
  tx : Option TxJob := none
  sources : Map Source := []
  order : List Block := []
  reading : Option Fragment := none
  ready : List Fragment := []
  run : Option (Nat × Nat) := none
  flight : List Flight := []
  fetchAt : Option Nat := none
  lastReady : Nat := 0
  wakeAt : Nat := 0
  deriving DecidableEq, Repr

/-- A filter-table entry (R336). -/
structure Filter where
  w0 : Word := 0
  w1 : Word := 0
  w2 : Word := 0
  deriving DecidableEq, Repr

/-- Rings, ports, the filter table, and the destination table: words by 8 × entry + word, shadow and working. `lastMsg` is the
vector that a ring signalled last and the FCLK of it (R354). -/
structure Net where
  ring : Map Ring := []
  jobs : PMap RingJob := []
  nextJob : Nat := 0
  port : Map Port := []
  filter : Map Filter := []
  dstShadow : Map Word := []
  dstWork : Map Word := []
  lastMsg : Option (Nat × Nat) := none
  deriving DecidableEq, Repr

end Sys2Proof.Machine
end

