-- ==== Sys2Proof/Machine/PartsSluice.lean ====
section
/-! DEFINITION. The sluice units as parts of State (spec/07), and the resample stores of spec/11. -/

namespace Sys2Proof.Machine

/-- A delay model with its fringe parameters, as a slot adopted them (R190, R195): window start and length in
tides, binary64 words, and the phase in 2^-32 turn. -/
structure Model where
  t0 : Nat
  len : Nat
  d0 : Word
  d1 : Word
  d2 : Word
  flo : Word
  ph0 : Nat
  deriving DecidableEq, Repr

/-- One 64-byte transfer of a slot's delay buffer (R184, R189, R194): which of its 32 samples were received, its
bytes, the completed writes of it by SCLK with the received samples that each held, and what reads of it returned by SCLK,
newest first, with their poison. -/
structure DlyBlk where
  got : Nat
  data : List Byte
  puts : List (Nat × Nat)
  backs : List (Nat × List Byte × Bool)
  deriving DecidableEq, Repr

/-- A corrected sample (R199): its value in 1/16 LSB, or missing; `jump` marks one to which R197 applies, `poison` one that
misses a sample read as poison (R238). -/
structure Corr where
  y : Option (Int × Int)
  jump : Bool
  poison : Bool := false
  deriving DecidableEq, Repr

/-- What R206 needs of a corrected sample whose index is a multiple of C: the delay and its rounded value in units of
2^-64 and 1/4,096 sample, and the governing model. -/
structure Centre where
  m : Nat
  tau : Int
  hat : Int
  model : Option Model
  deriving DecidableEq, Repr

/-- A slot of a sluice unit. `cur` is the delay-buffer transfer being filled; `hist` holds the latest corrected
samples, newest first; `shut` holds the level blocks that have closed and are not evaluated, each with its valid samples,
their sum, and whether it is a first one (R207); `f` and `b` are binary64 words of the level estimators. -/
structure SluSlot where
  newer : Option Model := none
  older : Option Model := none
  blocks : PMap DlyBlk := []
  cur : Option Nat := none
  tau : Int := 0
  dlt : Int := 0
  acc : Int := 0
  seed : Option (Nat × Model) := none
  gov : Option Model := none
  top : Option Int := none
  last : Option Nat := none
  hist : List Corr := []
  centres : List Centre := []
  miss : Nat := 0
  cnt : Nat := 0
  valid : Nat := 0
  sum : Nat := 0
  first : Bool := true
  shut : List (Nat × Nat × Bool) := []
  f : Option Word := none
  b : Option Word := none
  blocksF : Nat := 0
  dev : Bool := false
  deriving DecidableEq, Repr

/-- A sluice unit: its program failed (R186); the pond words of the group in progress by channel (R242); the
last spectrum completed; whether the group holds samples that poison made zero weight (R238); NG as binary64, as the last
window adoption computed it (R210); samples taken beyond what the declared rate has drained since, in units of 1 / (1.5 × 10^9)
sample, and when that was (R138). -/
structure SluUnit where
  bad : Bool := false
  group : Map (List Byte) := []
  done : Option Nat := none
  mark : Bool := false
  noise : Word := 0
  load : Nat := 0
  loadAt : Nat := 0
  deriving DecidableEq, Repr

/-- A handed voltage sample of a resampling unit's buffer position (R322): its spectrum, its value or missing, and the
chain bits of its record. -/
structure RsSample where
  j : Nat
  v : Option (Int × Int)
  gap : Bool
  poison : Bool
  deriving DecidableEq, Repr

/-- The sluice (spec/07): slots by 16 u + k; units; working and shadow gains by (16 u + k) × 4,096 + c and windows by
32,768 u + n; clip counters as gains; resample buffers by (16 u + m) × 2^20 + position, and the outputs formed by
4,096 u + ν. -/
structure Sluice where
  slot : Map SluSlot := []
  unit : Map SluUnit := []
  gainW : Map (BitVec 16) := []
  gainS : Map (BitVec 16) := []
  winW : Map (BitVec 18) := []
  winS : Map (BitVec 18) := []
  clips : Map Nat := []
  rs : PMap RsSample := []
  rsDone : Map Nat := []
  deriving DecidableEq, Repr

end Sys2Proof.Machine
end

