-- ==== Sys2Proof/Machine/PartsField.lean ====
section
/-! DEFINITION. Sequencers, pans, feeders, beam rows and rakes as parts of State (spec/09, 10, 11). Times in this file
are SCLK of the data path's own count, which the first image after a reset or halt starts anew. -/

namespace Sys2Proof.Machine

/-- A loop register (R265). -/
structure Loop where
  start : Nat := 0
  end_ : Nat := 0
  limit : Nat := 0
  iter : Nat := 0
  armed : Bool := false
  deriving DecidableEq, Repr

/-- A sequencer (R264): the SCLK of its next issue, setup instructions in a row, and the tide in which it last
reported an illegal instruction. -/
structure Seq where
  pc : Nat := 0
  at_ : Nat := 0
  halted : Bool := false
  l0 : Loop := {}
  l1 : Loop := {}
  l2 : Loop := {}
  setups : Nat := 0
  badTide : Option Nat := none
  deriving DecidableEq, Repr

/-- Half of an operand word (R247): 64 bytes and the poison mark. -/
structure OpHalf where
  data : List Byte
  poison : Bool
  deriving DecidableEq, Repr

/-- An operand write on its way (R128): when it lands, address, column half or row half, content. -/
structure OpWrite where
  time : Nat
  addr : Nat
  col : Bool
  data : List Byte
  poison : Bool
  deriving DecidableEq, Repr

/-- A bank entry (R253). -/
structure AccEntry where
  re : Int := 0
  im : Int := 0
  wrap : Bool := false
  deriving DecidableEq, Repr

/-- A bank's trailer (R257). -/
structure Trailer where
  poison : Bool := false
  steps : Nat := 0
  gsteps : Nat := 0
  zrow : Nat := 0
  zcol : Nat := 0
  deriving DecidableEq, Repr

/-- Increments on their way to a bank (R125, R126): when they become visible, the bank, and entry, real and imaginary
increment of each. Those of a detected beam carry what they set when they land: the gap latch, the trailer's `POISON` and
`ZROW` (R257, R315). -/
structure IncSet where
  time : Nat
  bank : Bool
  incs : List (Nat × Int × Int)
  gap : Bool := false
  poison : Bool := false
  zrow : Nat := 0
  deriving DecidableEq, Repr

/-- Thirty-two weights of a cell row (R267): their bytes and the poison mark. -/
structure WGroup where
  data : List Byte
  poison : Bool
  deriving DecidableEq, Repr

/-- A weight load on its way (R271): when it lands, 2 × row + half, and the weights. -/
structure WLand where
  time : Nat
  idx : Nat
  w : WGroup
  deriving DecidableEq, Repr

/-- A fill in progress (R271, R299): issue, the bank that it restores, the rake's block, a mark of a step that lands too early
in that bank, the next entry to deliver. -/
structure Fill where
  t : Nat
  bank : Bool
  blk : Option Nat
  early : Bool
  next : Nat := 0
  deriving DecidableEq, Repr

/-- A pan (spec/09). Operand halves by 2 × address + (1 for the column half); entries by 4,096 × bank + e; weight
groups by 128 × set + 2 × row + half, `active` naming the set in use. `busy` and `filling` are the ends of the
latest stream and fill in half SCLK; `stepBank` is the bank of the last step; `visible0` and `visible1` the latest SCLK at which a step's result becomes visible in
each bank (the bank timer). -/
structure Pan where
  seq : Seq := {}
  ctx : Nat := 0
  beam : Bool := false
  bank : Bool := false
  gap : Bool := false
  opm : Map OpHalf := []
  opq : List OpWrite := []
  acc : Map AccEntry := []
  tr0 : Trailer := {}
  tr1 : Trailer := {}
  incs : List IncSet := []
  wts : Map WGroup := []
  active : Bool := false
  wland : List WLand := []
  lastBeam : Option Nat := none
  visible0 : Nat := 0
  visible1 : Nat := 0
  busy : Nat := 0
  filling : Nat := 0
  fill : Option Fill := none
  stepBank : Option Bool := none
  preempted : Bool := false
  prePend : Option Nat := none
  resPend : Option Nat := none
  savedBank : Bool := false
  savedCtx : Nat := 0
  savedBeam : Bool := false
  jobs : Map Word := []
  jobRun : Bool := false
  jobDone : Bool := false
  deriving DecidableEq, Repr

/-- A feeder address register (R260); `anchor` holds its value in spectra and its epoch while valid. -/
structure AReg where
  base : Nat := 0
  wrap : Nat := 0
  p : Nat := 1
  lag : Nat := 0
  ostep : Nat := 0
  omod : Nat := 0
  inner : Nat := 0
  outer : Nat := 0
  anchor : Option (Nat × Nat) := none
  deriving DecidableEq, Repr

/-- A feeder buffer entry (R259): 64 bytes, and the filled and poison marks of its four 16-byte quarters. -/
structure FEntry where
  data : List Byte
  filled : Nat
  poison : Nat
  deriving DecidableEq, Repr

/-- Data on its way to a feeder's buffer: when it lands, entry, quarters, their bytes, poison. -/
structure FLand where
  time : Nat
  entry : Nat
  quarters : List Nat
  data : List Byte
  poison : Bool
  deriving DecidableEq, Repr

/-- An `FEMIT` in progress (R263): issue, fields, emits done. -/
structure Emit where
  t : Nat
  e : Nat
  count : Nat
  addr : Nat
  astep : Nat
  pmask : Nat
  next : Nat
  deriving DecidableEq, Repr

/-- A feeder (spec/09). -/
structure Feeder where
  seq : Seq := {}
  regs : Map AReg := []
  buf : Map FEntry := []
  land : List FLand := []
  emit : Option Emit := none
  deriving DecidableEq, Repr

/-- Partial sums of one SCLK on a pan row's adder chain (R254, R256): 64 row sums, `GAP`, `POISON`. -/
structure ChainSum where
  sums : List (Int × Int)
  gap : Bool
  poison : Bool
  deriving DecidableEq, Repr

/-- A beam step of pan (r, 15) whose row sums have not been used yet: issue SCLK, instruction, bank in use, and for a closing
step what its issue settles: its number and `BF_PSUM` (R311), the count of image starts and of anchors' ends (R318), and
for a voltage record its number, channel and spectrum. -/
structure Closing where
  t : Nat
  op : Word
  bank : Bool
  k : Nat
  psum : Word
  image : Nat
  gen : Nat
  rec_ : Option (Nat × Nat × Nat)
  deriving DecidableEq, Repr

/-- The voltage block being gathered (R316 to R319): the anchor that it counts from, its ring, P and C, first record, channel
and spectrum, records taken, data bytes, header bits, whether it is discarded. -/
structure VBlk where
  gen : Nat
  base : Word
  span : Word
  p : Nat
  c : Nat
  z : Nat
  chan : Nat
  j : Nat
  ptr : Nat
  recs : Nat
  data : List Byte
  gap : Bool
  poison : Bool
  mask : Nat
  flags : Nat
  drop : Bool
  deriving DecidableEq, Repr

/-- A beam row and its writer (spec/11): beam sum registers, the count of closing steps, chain sums by issue SCLK,
waiting closings, export queue of completion SCLK, quad and cell, import buffer by entry, voltage anchor J0 and record count,
counts of image starts and of anchors' ends, the block being gathered,
transfers of the writer's buffer in use, and the tides of the latest first-of-a-tide reports (R330). -/
structure BeamRow where
  sums : List (Int × Int) := []
  k : Nat := 0
  chain : PMap ChainSum := []
  closings : List Closing := []
  exq : List (Nat × Nat × List Word) := []
  imp : PMap (List Word) := []
  anchor : Option Nat := none
  rec_ : Nat := 0
  image : Nat := 0
  gen : Nat := 0
  blk : Option VBlk := none
  buf : Nat := 0
  psTide : Option Nat := none
  vbTide : Option Nat := none
  deriving DecidableEq, Repr

/-- A binding of a rake port (R300). -/
inductive BindKind where
  | promote | save | fill | flush
  deriving DecidableEq, Repr

/-- A bank on its way to a rake (R253, R280, R281): when entry 0 arrives in half SCLK, mode, the bank that its entries leave,
or none where the rake receives poison (R271), a mark of a step that lands too early in that bank, the next entry, and the block that its binding names once entry 0 has come. -/
structure Stream where
  first : Nat
  save : Bool
  bank : Option Bool
  early : Bool
  next : Nat := 0
  blk : Option Nat := none
  deriving DecidableEq, Repr

/-- What a block has of its stream (R285, R287): mode, stream tide and the epoch that it counts from, a mark of a step that
landed too early, entries by e and the trailer, as they have come. -/
structure Intake where
  save : Bool
  tide : Nat
  epoch : Nat
  early : Bool
  entries : Map AccEntry := []
  trailer : Trailer := {}
  deriving DecidableEq, Repr

/-- The settings of the image under which a binding was made (R110, R288, R290, R303): generation, I, P and D of the budget,
`ACC_CFG`, `ACC_STAGGER` and `ACC_STOKES`. -/
structure AccSet where
  gen : Nat
  i : Nat
  p : Nat
  d : Nat
  cfg : Word
  stagger : Nat
  stokes : Nat
  deriving DecidableEq, Repr

/-- What becomes of a block's record (R289): void, added to, or dumped and replaced. -/
inductive RecAction where
  | void | add | replace
  deriving DecidableEq, Repr

/-- A dump in progress (R294): `BASE`, position and `SPAN` in its ring, values converted so far, data transfers
written, bytes not yet written, header flags found on the way (`poison` for a total read as poison, R238). -/
structure Dump where
  base : Nat
  ptr : Nat
  span : Nat
  rank : Nat
  next : Nat
  bytes : List Byte
  inf : Bool
  gap : Bool
  late : Bool
  poison : Bool
  deriving DecidableEq, Repr

/-- A transfer that a rake has read: data, poison mark, and when it came in half SCLK. -/
structure RGot where
  data : List Byte
  poison : Bool
  time : Nat
  deriving DecidableEq, Repr

/-- A block that a rake works on: identifier, port, binding, where it lies (`BASE`, `PTR` and `SPAN` of its register at
binding), the useful entries' shape (R282) and number, transfers. `taken` says that a stream or fill has consumed the
binding; `asked` counts transfers taken from the read queue and `got` holds those read, by place. `arrived` entries of
the stream have come; `runs` are the useful ones not promoted yet, with a mark on those that found no room;
`ranks` totals have been promoted; `out` holds new totals not yet in the write buffer, `inf` that one was
infinite, `totPoison` that one was read as poison. `set` is what the binding's image said. `resv` counts a save block's reserved transfers; `ended` says that the whole stream has come. -/
structure RBlk where
  id : Nat
  port : Nat
  kind : BindKind
  sigma : Nat
  q : Nat
  base : Nat
  ptr : Nat
  span : Nat
  nr : Nat
  nc : Nat
  tri : Bool
  u : Nat
  z : Nat
  taken : Bool := false
  asked : Nat := 0
  got : PMap RGot := []
  set : AccSet
  stream : Option Intake := none
  arrived : Nat := 0
  runs : List (Nat × Bool) := []
  ranks : Nat := 0
  action : Option RecAction := none
  recd : List Word := []
  recPoison : Bool := false
  out : List Byte := []
  inf : Bool := false
  totPoison : Bool := false
  resv : Nat := 0
  ended : Bool := false
  dump : Option Dump := none
  deriving DecidableEq, Repr

/-- A transfer in a rake's read queue: block, place, heap word. -/
structure RRead where
  blk : Nat
  idx : Nat
  addr : Nat
  deriving DecidableEq, Repr

/-- A transfer in a rake's write buffer: heap byte address, data, for a dump header the block's length, and when its data are
there in half SCLK (R130). -/
structure RWrite where
  addr : Nat
  data : List Byte
  header : Option Nat
  ready : Nat
  deriving DecidableEq, Repr

/-- A transfer's data on their way to a rake (R122): when they come in half SCLK, block, place, data, poison mark. -/
structure RLand where
  time : Nat
  blk : Nat
  idx : Nat
  data : List Byte
  poison : Bool
  deriving DecidableEq, Repr

/-- A rake address register (R300). -/
structure RReg where
  base : Nat := 0
  span : Nat := 0
  ptr : Nat := 0
  deriving DecidableEq, Repr

/-- A rake (spec/10): its blocks, the streams on their way with their ports, the read data on their way. -/
structure Rake where
  seq : Seq := {}
  regs : Map RReg := []
  blks : List RBlk := []
  streams : List (Nat × Stream) := []
  land : List RLand := []
  nextId : Nat := 0
  rq : List RRead := []
  wq : List RWrite := []
  fault : Bool := false
  lostAll : Bool := false
  deriving DecidableEq, Repr

/-- The pan field with its feeders, beam rows and rakes, and the blocks that producers have completed and not yet
notified (R341): producer code, heap address, length. -/
structure Field where
  pan : Map Pan := []
  feeder : Map Feeder := []
  row : Map BeamRow := []
  rake : Map Rake := []
  blocks : List (Nat × Nat × Nat) := []
  deriving DecidableEq, Repr

end Sys2Proof.Machine
end

