-- ==== Sys2Proof/Machine/PartsCmd.lean ====
section
/-! DEFINITION. The firmware's command channels, the salinometer, the pins and the test functions as parts of State
(spec/15, 17, 02, 19). -/

namespace Sys2Proof.Machine

/-- A command that a channel runs (R416 to R423): its ring, ring index and words, `Time.total` at take-up, whether its result
will carry `REPLAYED`, whether its effect is in force and only its result is awaited, a number that its wait compares
against, and its result: status, `R0` to `R3`. -/
structure CmdRun where
  ring : Nat
  idx : Nat
  words : List Word
  taken : Nat
  replayed : Bool
  begun : Bool := false
  mark : Nat := 0
  result : Option (Nat × List Word) := none
  full : Bool := false
  deriving DecidableEq, Repr

/-- A journal entry of a channel (R432): index, digest of the command's words, and its result once written. -/
structure Journal where
  idx : Nat
  tag : Nat
  opcode : Nat
  digest : List Byte
  result : Option (Nat × List Word)
  deriving DecidableEq, Repr

/-- A channel's session (R424 to R428), kept in the mirror: identifier, whether it is authenticated, the rights granted
or requested, the key named, the challenge while it is valid, and in `Time.total` when it opened and when a command of it came last. -/
structure Session where
  id : Nat
  auth : Bool
  rights : Nat
  key : Nat
  challenge : Option (List Byte)
  since : Nat := 0
  last : Nat := 0
  deriving DecidableEq, Repr

/-- A command channel: the command it runs, failed authentications in a row, since when `SESSION_OPEN` is locked out (`Time.total`),
whether notifications were lost since its last event, whether the entry at `HEAD` is to be replayed, whether the latest read of
that entry failed (R416). -/
structure Channel where
  run : Option CmdRun := none
  fails : Nat := 0
  lockedAt : Option Nat := none
  lost : Bool := false
  replay : Bool := false
  unseen : Bool := false
  deriving DecidableEq, Repr

/-- A copy of the firmware state in the mirror (R453, R455): its sequence number, the `CQ_CH_k` by channel,
`SESSION_TMO`. -/
structure FwState where
  seq : Nat
  chans : List Word
  tmo : Word
  deriving DecidableEq, Repr

/-- The firmware's channels, and what the AON SRAM mirror holds of them (R432, R455). `kept` are notifications for
events that occurred while no supervisor was active: code and results; `dark` counts the tides that were unsupervised in
any part since supervision ended; `restored` says that configuration has been restored since the core start (R456); `last` is the
channel served last (R420). -/
structure Yelmel where
  chan : Map Channel := []
  session : PMap Session := []
  journal : PMap Journal := []
  mirror : Option FwState := none
  kept : List (Nat × List Word) := []
  dark : Nat := 0
  restored : Bool := false
  last : Nat := 15
  deriving DecidableEq, Repr

/-- Phases of the salinometer, in the order of `SAL_STAT.PHASE` (R488). -/
inductive SalPhase where
  | stopped | switching | dwelling | delay | trigWait | schedule | host
  deriving DecidableEq, Repr

/-- The salinometer (R475 to R488). `cur` is the entry's word as read at its start; `rep` the dwell index; `t0` the
first sample of the dwell or the end of the delay, in half SCLK of `Time.total`; `trig` marks a triggered entry's first
record; `urgS` and `urgH` are the pending latches and `urg` the request that runs (whether the schedule's, and its word);
`resume` the phase that was interrupted, `switching` when an entry is to start; `settle` how many of the next conversions
are marked; `uncal` that the dwell began before convergence. -/
structure Salin where
  phase : SalPhase := .stopped
  entry : Nat := 0
  cur : Word := 0
  rep : Nat := 0
  t0 : Nat := 0
  trig : Bool := false
  trigPend : Bool := false
  urgS : Option Word := none
  urgH : Option Word := none
  urg : Option (Bool × Word) := none
  resume : SalPhase := .stopped
  input : Nat := 0
  lowPwr : Bool := false
  afterLoss : Bool := false
  settle : Nat := 0
  uncal : Bool := false
  cap : Map (BitVec 16) := []
  deriving DecidableEq, Repr

/-- Output pins (R44 to R47): re-enables of each pin since its `PIN_OE` bit was written. -/
structure Pins where
  /-- Re-enables since `PIN_OE` was written last (R45). -/
  retries : Map Nat := []
  /-- Pins that wait for a retry: `Time.total` at the over-current disable (R45). -/
  waits : PMap Nat := []
  /-- Pins that hardware has disabled: the RCLK of the latest disable (R47). -/
  offAt : PMap Nat := []
  deriving DecidableEq, Repr

/-- The test functions (R517 to R519): the TAP's current instruction, the memory group under self-test. -/
structure Test where
  tap : BitVec 8 := 0x02
  bist : Option Nat := none
  deriving DecidableEq, Repr

end Sys2Proof.Machine
end

