-- ==== Sys2Proof/Machine/State.lean ====
section
/-! DEFINITION. The state of the XNV-4810 as plain data, the reasons a step can stop, and the state after
power-on reset. -/

namespace Sys2Proof.Machine

/-- No command of this model faults: everything the spec describes has an effect or none. The one constructor
is raised by no meaning; it stands for a state that no rule reaches. Safe: the machine stops. -/
inductive Fault where
  /-- Raised by nobody. Safe. -/
  | unreachable
  deriving DecidableEq, Repr

/-- Why the model does not answer a command. -/
inductive Refusal where
  /-- Raised by an arm of `exec` whose row has no meaning yet. Safe: nothing is claimed of the command. -/
  | notModelled (mnemonic : String)
  deriving DecidableEq, Repr

/-- The machine. `regs` holds every register of the register tables that is not computed from another part,
by `Reg.key`; a register at its reset value is not listed. `free` counts the free values taken so far: the
model's own field, not the spec's. -/
structure State where
  regs : Map Word := []
  pwr : Power := {}
  time : Time := {}
  sup : Supers := {}
  bitt : Bittern := {}
  nv : Store := {}
  tam : Tamper := {}
  fab : Fabric := {}
  sched : Sched := {}
  heap : Heap := {}
  xbar : Xbar := {}
  links : Links := {}
  dma : Dma := {}
  pcie : Pcie := {}
  mesh : Mesh := {}
  net : Net := {}
  slu : Sluice := {}
  pans : Field := {}
  cmds : Yelmel := {}
  sal : Salin := {}
  pins : Pins := {}
  test : Test := {}
  /-- What the device has sent, newest first (the model's record). -/
  sent : List Output := []
  free : Nat := 0
  pending : List Instr := []
  deriving DecidableEq, Repr

/-- The machine right after power-on reset: POR_N still low, no feed qualified, every register at the value of
its table, every store and memory reading zero, no command waiting. -/
def State.reset : State := {}

end Sys2Proof.Machine
end

