-- ==== Sys2Proof/Machine/Ops.lean ====
section
/-! DEFINITION. The named operations over State: registers by descriptor and unit, page headers, events and
their signals (R63, R82), bittern reports (R505 to R507), reject records (R71), the passing of time. -/

namespace Sys2Proof.Machine

/-- What R51 and the chapters state of a block's pages: first page, page count, `BLOCK`, banks, domain, owner at
reset, whether the owner is fixed, whether `ENABLE` always reads 1 (R61), expert and perturbation flags,
`BLOCK_CAP` and the assigned `PG_EVT` bits. -/
structure PageInfo where
  first : Nat
  count : Nat
  block : Nat
  banks : Nat := 1
  aon : Bool := false
  secure : Bool := false
  fixed : Bool := false
  always : Bool := false
  expert : Bool := false
  perturb : Bool := false
  cap : Nat := 0
  evt : Nat := 0
  deriving DecidableEq, Repr

/-- The page allocation of R51. TB0 is listed apart from TB1 to TB3 because its owner at reset differs, and
the pages of SCHED, DMA and TEST apart where their capabilities and events differ. -/
def pageTable : List PageInfo :=
  [{ first := 0x00, count := 1, block := 1, fixed := true, always := true, evt := 0x7 },
   { first := 0x01, count := 1, block := 2, aon := true, always := true, expert := true, evt := 0xF },
   { first := 0x02, count := 1, block := 3, aon := true, secure := true, always := true, cap := 0x7F, evt := 0x3 },
   { first := 0x03, count := 1, block := 4, aon := true, secure := true, evt := 0x7 },
   { first := 0x04, count := 3, block := 4, aon := true, evt := 0x7 },
   { first := 0x07, count := 1, block := 5, evt := 0x1 },
   { first := 0x08, count := 1, block := 6, aon := true, always := true, evt := 0x1F },
   { first := 0x09, count := 1, block := 7, aon := true, secure := true, fixed := true, always := true, cap := 0x7F,
     evt := 0x1 },
   { first := 0x0A, count := 1, block := 8, aon := true, always := true, cap := 0x10, evt := 0x3 },
   { first := 0x0B, count := 1, block := 9, aon := true, always := true, cap := 0x1000, evt := 0xF },
   { first := 0x0C, count := 1, block := 0xA, secure := true, always := true, cap := 0x20, evt := 0x7 },
   { first := 0x0D, count := 1, block := 0xB, always := true, evt := 0x7 },
   { first := 0x0E, count := 1, block := 0xC, always := true, cap := 0x10, evt := 0x7 },
   { first := 0x0F, count := 1, block := 0xD, secure := true, fixed := true, always := true },
   { first := 0x10, count := 1, block := 0xE, always := true, cap := 0x24, evt := 0x3F },
   { first := 0x11, count := 15, block := 0xE, always := true },
   { first := 0x20, count := 16, block := 0xF, banks := 16, expert := true, evt := 0x3F },
   { first := 0x30, count := 16, block := 0x10, banks := 16, expert := true, cap := 0x1001000, evt := 0xFF },
   { first := 0x40, count := 8, block := 0x11, banks := 32, expert := true, perturb := true, cap := 0x30, evt := 0xFF },
   { first := 0x48, count := 8, block := 0x12, banks := 128, expert := true, perturb := true, evt := 0x7 },
   { first := 0x50, count := 4, block := 0x13, banks := 64, perturb := true, evt := 0x3F },
   { first := 0x54, count := 4, block := 0x14, banks := 8, expert := true, perturb := true, evt := 0xF },
   { first := 0x58, count := 1, block := 0x15, always := true, cap := 0x1000, evt := 0x3 },
   { first := 0x59, count := 1, block := 0x16, always := true, cap := 0x40, evt := 0x3 },
   { first := 0x5A, count := 1, block := 0x16, always := true },
   { first := 0x5B, count := 1, block := 0x17, expert := true, cap := 0x2040, evt := 0x3F },
   { first := 0x5C, count := 1, block := 0x18, evt := 0x7 },
   { first := 0x5D, count := 1, block := 0x19, cap := 0x40, evt := 0xF },
   { first := 0x5E, count := 1, block := 0x1A, expert := true, evt := 0x1 },
   { first := 0x5F, count := 1, block := 0x1A }]

/-- The row of `pageTable` that holds a page, found in a list. -/
def findPage : List PageInfo → Nat → Option PageInfo
  | [], _ => none
  | p :: ps, page => if p.first ≤ page ∧ page < p.first + p.count then some p else findPage ps page

/-- What R51 says of a page; `none` for a reserved page. -/
def pageInfo (page : Nat) : Option PageInfo := findPage pageTable page

/-- The first page of a page's block, for `PG_ID.INSTANCE` (R51). -/
def blockFirst (page : Nat) : Nat :=
  if 0x03 ≤ page ∧ page ≤ 0x06 then 0x03
  else if 0x10 ≤ page ∧ page ≤ 0x1F then 0x10
  else if page = 0x5A then 0x59
  else if page = 0x5F then 0x5E
  else match pageInfo page with
    | some p => p.first
    | none => page

/-- Whether a page's state lies in the always-on domain (R51). -/
def aonPage (page : Nat) : Bool :=
  match pageInfo page with
  | some p => p.aon
  | none => false

/-- The key of a register in `State.regs`: agent slot (0 shared, 1 + code for a register held per agent), page,
bank, offset. -/
def regKey (a page bank off : Nat) : Nat := ((a * 128 + page) * 256 + bank) * 4096 + off

/-- The page of a key. -/
def keyPage (k : Nat) : Nat := k / 4096 / 256 % 128

/-- Offsets of the header registers (R57). -/
def hId : Nat := 0x000
/-- `PG_CAP`. -/
def hCap : Nat := 0x008
/-- `PG_CTRL`. -/
def hCtrl : Nat := 0x010
/-- `PG_STAT`. -/
def hStat : Nat := 0x018
/-- `PG_REJECT`. -/
def hReject : Nat := 0x020
/-- `PG_EVT`. -/
def hEvt : Nat := 0x028
/-- `PG_EVT_EN`. -/
def hEvtEn : Nat := 0x030
/-- `PG_OWNER`. -/
def hOwner : Nat := 0x038
/-- `PG_PERTURB`. -/
def hPerturb : Nat := 0x040
/-- `PG_BANK`. -/
def hBank : Nat := 0x048

/-- What a register reads after reset, by its page and offset: the header's `ENABLE` (R61) and owner (R51), or
the reset value of its table. -/
def resetAt (page off : Nat) : Word :=
  if off < 0x100 then
    match pageInfo page with
    | some p =>
      if off = hCtrl then (if p.always then 1 else 0)
      else if off = hOwner then (if p.secure then 1 else 0)
      else 0
    | none => 0
  else
    match findReg page off with
    | some (r, k) => word (r.reset + k * r.resetStep)
    | none => 0

/-- What an unlisted key of `State.regs` reads as. -/
def regDefault (k : Nat) : Word := resetAt (keyPage k) (k % 4096)

/-- The register at a key. -/
def State.getReg (s : State) (k : Nat) : Word := mget regDefault s.regs k

/-- The state with the register at a key set. -/
def State.setReg (s : State) (k : Nat) (v : Word) : State := { s with regs := mset regDefault s.regs k v }

/-- The key of unit `u`'s register: unit u lies on page u div banks, in bank u mod banks (R51); `k` is the index
in an array of registers, `a` the agent slot. -/
def Reg.key (r : Reg) (u : Nat) (k : Nat := 0) (a : Nat := 0) : Nat :=
  regKey a (r.page + u / r.banks) (u % r.banks / r.share * r.share) (r.off + k * r.stride)

/-- A unit's register. -/
def State.rd (s : State) (r : Reg) (u : Nat := 0) (k : Nat := 0) : Word := s.getReg (r.key u k)

/-- A unit's register, written. -/
def State.wr (s : State) (r : Reg) (u : Nat) (v : Word) (k : Nat := 0) : State := s.setReg (r.key u k) v

/-- A unit's register as one agent holds it. -/
def State.rdAgent (s : State) (r : Reg) (u : Nat) (a : Agent) : Word := s.getReg (r.key u 0 (1 + a.code))

/-- A unit's register as one agent holds it, written. -/
def State.wrAgent (s : State) (r : Reg) (u : Nat) (a : Agent) (v : Word) : State :=
  s.setReg (r.key u 0 (1 + a.code)) v

/-- Field [hi:lo] of a unit's register. -/
def State.rdf (s : State) (r : Reg) (u hi lo : Nat) : Nat := fld (s.rd r u) hi lo

/-- Field [hi:lo] of a unit's register, written. -/
def State.wrf (s : State) (r : Reg) (u hi lo v : Nat) : State := s.wr r u (setFld (s.rd r u) hi lo v)

/-- A bit of a unit's register. -/
def State.rdb (s : State) (r : Reg) (u i : Nat) : Bool := bit (s.rd r u) i

/-- A bit of a unit's register, put to `b`. -/
def State.wrb (s : State) (r : Reg) (u i : Nat) (b : Bool) : State := s.wr r u (putBit (s.rd r u) i b)

/-- A unit's 64-bit counter, raised by `n`, saturating. -/
def State.count (s : State) (r : Reg) (u : Nat) (n : Nat := 1) : State := s.wr r u (satWord (s.rd r u) n)

/-- A field of a unit's counter register, raised by `n`, saturating. -/
def State.countf (s : State) (r : Reg) (u hi lo : Nat) (n : Nat := 1) : State :=
  s.wr r u (satFld (s.rd r u) hi lo n)

/-- A header register of a page. -/
def State.hdr (s : State) (page off : Nat) : Word := s.getReg (regKey 0 page 0 off)

/-- A header register of a page, written. -/
def State.setHdr (s : State) (page off : Nat) (v : Word) : State := s.setReg (regKey 0 page 0 off) v

/-- `PG_CTRL.ENABLE` of a page. -/
def State.enabled (s : State) (page : Nat) : Bool := bit (s.hdr page hCtrl) 0

/-- `PG_CTRL.EXPERT_EN` of a page. -/
def State.expertOn (s : State) (page : Nat) : Bool := bit (s.hdr page hCtrl) 1

/-- Whether the secure world owns a page (R74). -/
def State.secureOwned (s : State) (page : Nat) : Bool := bit (s.hdr page hOwner) 0

/-- An event bit of a page set (R63). -/
def State.raise (s : State) (page i : Nat) : State := s.setHdr page hEvt (setBit (s.hdr page hEvt) i)

/-- `PG_STAT.EVT_PEND` of a page: some bit is set in both `PG_EVT` and `PG_EVT_EN` (R58). -/
def State.evtPend (s : State) (page : Nat) : Bool := s.hdr page hEvt &&& s.hdr page hEvtEn != 0

/-- `PG_STAT.REJECT_PEND` of a page: `PG_REJECT.COUNT` is not zero (R58). -/
def State.rejPend (s : State) (page : Nat) : Bool := fld (s.hdr page hReject) 63 48 != 0

/-- A word with bit i set where `f (lo + i)` holds, for `n` pages from `lo` on. -/
def pageMask (f : Nat → Bool) (lo n : Nat) : Word :=
  (List.range n).foldl (fun w i => putBit w i (f (lo + i))) 0

/-- `DEV.EVT_SUM_LO` (R81). -/
def State.evtSumLo (s : State) : Word := pageMask s.evtPend 0 64

/-- `DEV.EVT_SUM_HI` (R81). -/
def State.evtSumHi (s : State) : Word := pageMask s.evtPend 0x40 32

/-- An output of the device, recorded. -/
def State.emit (s : State) (o : Output) : State := { s with sent := o :: s.sent }

/-- TB2 in RCLK since AON start: 4 ns each (R398). -/
def State.rclk (s : State) : Nat := s.time.total / 6

/-- TB2 seconds. -/
def State.tb2Sec (s : State) : Nat := s.rclk / 250000000

/-- TB2 milliseconds. -/
def State.tb2Ms (s : State) : Nat := s.rclk / 250000

/-- The slot in progress (R83). -/
def State.slot (s : State) : Nat := s.time.pos / 256

/-- The slot and tide numbers as register words. -/
def State.tideWord (s : State) : Word := word s.time.tide

/-- A source's place in source order: page, then bank, then class (R503). -/
def srcKey (page bank cls : Nat) : Nat := (page * 256 + bank) * 256 + cls

/-- The fatal classes of R504. -/
def fatalClass (cls : Nat) : Bool := cls ∈ [0x02, 0x04, 0x07, 0x08, 0x09, 0x0C, 0x0D, 0x13]

/-- A latch list with a source's report added: a new latch, or one more coalesced into a pending one, whose
first report's tide, time and detail stand (R506). -/
def addLatch (l : Latch) : List Latch → List Latch
  | [] => [l]
  | x :: xs =>
    if x.src = l.src then
      { x with coalesced := min (x.coalesced + 1) 0xFFFFFFFF, fatal := x.fatal || l.fatal } :: xs
    else if l.src < x.src then l :: x :: xs
    else x :: addLatch l xs

/-- A source's rate-limit window: the reports accepted in the current window of 2^`WIN_EXP` ms of TB2 (R507). -/
def State.windowCount (s : State) (src w : Nat) : Nat :=
  if (mget (fun _ => (0, 0)) s.bitt.windows src).1 = w then (mget (fun _ => (0, 0)) s.bitt.windows src).2 else 0

/-- A report accepted into its source's latch (R505, R506). -/
def State.latchReport (s : State) (src cls : Nat) (d0 d1 : Word) : State :=
  { s with bitt := { s.bitt with latches := addLatch (
      { src := src, fatal := fatalClass cls, coalesced := 0, tide := s.tideWord, epoch := s.time.epoch,
        slot := s.slot, d0 := d0, d1 := d1, sec := word s.tb2Sec, since := s.time.total } : Latch) s.bitt.latches } }

/-- A report to the bittern (R503 to R507): a non-fatal report of a source that already had `MAX` reports
accepted in the window is suppressed and counted; any other enters its source's latch. -/
def State.report (s : State) (page bank cls : Nat) (d0 d1 : Word) : State :=
  let src := srcKey page bank cls
  let cfg := s.getReg (regKey 0 0x0B page R.RL_CFG.off)
  let max := fld cfg 15 8
  let w := s.tb2Ms / 2 ^ fld cfg 3 0
  if fatalClass cls ∨ max = 0 then s.latchReport src cls d0 d1
  else if s.windowCount src w < max then
    let s := s.latchReport src cls d0 d1
    { s with bitt := { s.bitt with windows := mset (fun _ => (0, 0)) s.bitt.windows src (w, s.windowCount src w + 1) } }
  else
    let s := (s.count R.ERR_SUPPRESSED 0).raise 0x0B 3
    { s with bitt := { s.bitt with
        suppressed := mset (fun _ => 0) s.bitt.suppressed src (mget (fun _ => 0) s.bitt.suppressed src + 1) } }

/-- The status codes of R7, R69 and R512. -/
inductive Code where
  | ok | value | range | resv | state | expert | owner | lock | conflict | sched | align | access | defer
  | opcode | args | auth | image | tamper | timeout | nvm | busy | buffer
  deriving DecidableEq, Repr

/-- The number of a status code. -/
def Code.num : Code → Nat
  | .ok => 0x00
  | .value => 0x01
  | .range => 0x02
  | .resv => 0x03
  | .state => 0x04
  | .expert => 0x05
  | .owner => 0x06
  | .lock => 0x07
  | .conflict => 0x08
  | .sched => 0x09
  | .align => 0x0A
  | .access => 0x0B
  | .defer => 0x0C
  | .opcode => 0x20
  | .args => 0x21
  | .auth => 0x22
  | .image => 0x23
  | .tamper => 0x24
  | .timeout => 0x25
  | .nvm => 0x26
  | .busy => 0x27
  | .buffer => 0x28

/-- A code's place in the order of R69: `E_ALIGN` of a field value stands after order 7 and before order 8, and
the access's own `E_ALIGN` is judged before this order applies. -/
def Code.rank : Code → Nat
  | .access => 2
  | .owner => 3
  | .expert => 4
  | .resv => 5
  | .value => 6
  | .range => 7
  | .align => 8
  | .lock => 9
  | .state => 10
  | .sched => 11
  | _ => 12

/-- One rejection: the agent's code, page, bank (0xFF broadcast), offset and status code. -/
structure Reject where
  agent : Nat
  page : Nat
  bank : Nat
  off : Nat
  code : Code
  deriving DecidableEq, Repr

/-- The rejection of a list with the lowest agent code, the first of equals. -/
def lowestAgent : List Reject → Option Reject
  | [] => none
  | r :: rs =>
    match lowestAgent rs with
    | some q => if q.agent < r.agent then some q else some r
    | none => some r

/-- A reject register after `n` rejections of which `r` is recorded: the fields of R58, or with `dev` those of
`LAST_REJECT` (R81). -/
def rejectWord (old : Word) (n : Nat) (r : Reject) (dev : Bool) : Word :=
  word (at_ 48 (satAdd 16 (fld old 63 48) n) + at_ 40 r.code.num + at_ 32 r.bank + at_ 24 r.agent
    + (if dev then at_ 12 r.page else 0) + r.off)

/-- The rejections of one RCLK recorded in a page's `PG_REJECT` (R71). -/
def State.recordOnPage (s : State) (page : Nat) (rs : List Reject) : State :=
  let here := rs.filter fun r => r.page = page
  match lowestAgent here, pageInfo page with
  | some r, some _ => s.setHdr page hReject (rejectWord (s.hdr page hReject) here.length r false)
  | _, _ => s

/-- The rejections of one RCLK recorded: `PG_REJECT` of each allocated page concerned, `DEV.LAST_REJECT`, and
`DEV.PG_EVT` bit 0 (R52, R71, R81); also while the core is stopped (DEDUCED, notes/assumptions/257.md). -/
def State.recordRejects (s : State) (rs : List Reject) : State :=
  match lowestAgent rs with
  | none => s
  | some r =>
    let s := (rs.map (·.page)).eraseDups.foldl (fun s p => s.recordOnPage p rs) s
    (s.wr R.LAST_REJECT 0 (rejectWord (s.rd R.LAST_REJECT) rs.length r true)).raise 0 0

/-- The pages whose `EVT_PEND` rose from one state to another, as a word. -/
def risen (a b : Word) : Word := ~~~a &&& b

/-- The signals of one RCLK (R82): every rise of an `EVT_SUM` bit interrupts the supervisor, and with `MSIX_EN`
one message is sent on `MSIX_VEC` for all rises together. `send` sends a message on a vector. -/
def signal (send : State → Nat → State) (s0 s1 : State) : State :=
  let lo := risen s0.evtSumLo s1.evtSumLo
  let hi := risen s0.evtSumHi s1.evtSumHi
  if lo = 0 ∧ hi = 0 then s1
  else
    let s := s1.emit (.irq lo hi)
    if s.rdb R.EVT_ROUTE 0 0 then send s (s.rdf R.EVT_ROUTE 0 42 32) else s

/-- Units of `Time` in one nanosecond. -/
def unitsNs : Int := 3000000000 * 2 ^ 46

/-- Units of `Time` in one SCLK: 2/3 ns. -/
def unitsSclk : Int := 2000000000 * 2 ^ 46

/-- SCLK in a tide (R83). -/
def tideSclk : Nat := 1048576

/-- Φ_N after `n` RCLK at the slope of `NET_SLOPE`: it moves toward its target and stops there (R397). -/
def slewBy (phase target slope : Int) (n : Nat) : Int :=
  let goal := target * 1000000
  if phase ≤ goal then min goal (phase + slope * 4 * n) else max goal (phase - slope * 4 * n)

/-- Time passing by `n` SCLK within a tide: the count, the position in the tide (it does not pass the tide's last
SCLK: the boundary is a command of its own), and every time base (R398). While the oscillator of R408 is in use
each base advances 40 ns a tick, which is 4 ns an RCLK. -/
def State.advance (s : State) (n : Nat) : State :=
  let t := s.time
  let r : Nat := (t.total + n) / 6 - t.total / 6
  let slope : Int := (s.rd R.NET_SLOPE).toNat
  let phase := if t.slewing && !t.coarse then slewBy t.netPhase t.netTarget slope r else t.netPhase
  let rate1 : Int := if t.coarse then 0 else (s.rd R.TB_RATE 1).toInt
  let rate3 : Int := if t.coarse then 0 else (s.rd R.TB_RATE 3).toInt
  let tb0 := t.tb0 + (if t.coarse then 4 * unitsNs * r else unitsSclk * n)
  let tb1 := t.tb1 + (2 ^ 48 + rate1) * 3000000000 * r + (phase - t.netPhase) * 3 * 2 ^ 46
  let master := bit (s.rd R.TB_SRC 1) 0
  { s with time := { t with
      total := t.total + n
      pos := min (t.pos + n) (tideSclk - 1)
      netPhase := phase
      tb0 := tb0
      tb1 := if master then tb0 else tb1
      tb3 := t.tb3 + (2 ^ 48 + rate3) * 3000000000 * r + (phase - t.netPhase) * 3 * 2 ^ 46 } }

/-- A map with every listed value changed. -/
def mmap {α : Type} [DecidableEq α] (d : Nat → α) (f : α → α) (m : Map α) : Map α :=
  (m.map fun e => (e.1, f e.2)).filter fun e => e.2 ≠ d e.1

/-- A free value's index, and the state in which the next free value has another. -/
def State.fresh (s : State) : Nat × State := (s.free, { s with free := s.free + 1 })

end Sys2Proof.Machine
end

