-- ==== Sys2Proof/Machine/RegChecks.lean ====
section
/-! DEFINITION. The limits that a register's field tables state of a value taken alone (checks 5 to 7 of R69, and
`E_ALIGN` of a field value): reserved bits, allowed values, numeric ranges. They serve every write and the
`INIT` entries of an image (R98). -/

namespace Sys2Proof.Machine

/-- A reason for rejection and whether it holds. -/
abbrev Reason := Bool × Code

/-- Of the reasons that hold, the code that R69 puts first. -/
def firstCode : List Reason → Option Code
  | [] => none
  | (b, c) :: rs =>
    match firstCode rs with
    | some d => if b ∧ c.rank ≤ d.rank then some c else some d
    | none => if b then some c else none

/-- Counters that agents may write (R73). -/
def counterRegs : List Reg :=
  [R.BR_HEAP, R.BR_BUDGET, R.BR_BANK, R.BR_RAKE, R.BR_FEED, R.BR_LINK, R.BR_ETH, R.BR_SLUICE, R.STRESS_TIDES, R.PRBS_ERR,
   R.PRBS_BITS, R.PRBS_RESYNC, R.BLK_ERR, R.LOCK_LOSS, R.CELLS_RX, R.CELLS_TX, R.DROP_CRC, R.DROP_FORM, R.DROP_TIME, R.DROP_OVF,
   R.DROP_DUP, R.SEQ_JUMP, R.REPLAYS, R.NEG_COUNT]
  ++ [R.CNT_GAP_SPECTRA, R.CNT_MISSING, R.CNT_CLIP, R.CNT_OVR, R.CNT_IN_SAT, R.CNT_TIME_ALIGN, R.CNT_DLY_RANGE, R.CNT_MODEL,
   R.CNT_LATE, R.ERR_CORR, R.ERR_UNCORR, R.POISON_OUT, R.FWD_HITS, R.MIT_COUNT, R.MIT_OVF, R.PAN_ERR, R.PAN_STEPS, R.BEAM_CLIP,
   R.FEED_R_ERR, R.FEED_C_ERR, R.RK_PROMOTED, R.RK_INF, R.RK_WRAP_INF, R.RK_ERR, R.RK_DUMPS, R.DUMP_SAT, R.WT_REFUSED,
   R.BF_PS_ERR, R.BF_VB_ERR]
  ++ [R.RX_FRAMES, R.RX_BYTES, R.RX_BAD, R.RX_DROP, R.RX_RING, R.TX_FRAMES, R.TX_BYTES, R.TX_ERR, R.FEC_CORR, R.FEC_UNCORR,
   R.QM_ERR, R.FW_DENIED, R.XB_DECODE, R.DMA_ERR, R.PCIE_ERR, R.SMP_ACCEPT, R.SMP_REFUSE, R.CQ_CNT, R.SAL_CNT, R.MESH_ERR]

/-- Exactly one of the low `n` bits is set. -/
def oneBit (w : Word) (n : Nat) : Bool := (onesOf n w.toNat).length == 1

/-- A field outside lo..hi. -/
def outside (v lo hi : Nat) : Bool := decide (v < lo) || decide (hi < v)

/-- Whether a signed number is outside ±lim. -/
def beyond (v lim : Int) : Bool := decide (v < -lim) || decide (lim < v)

/-- `PRIO` names a source code of 7 to 14, or one source twice (R410). -/
def badPrio (w : Word) : Bool :=
  let es := (List.range 7).map fun k => fld w (4 * k + 3) (4 * k)
  es.any (fun e => 7 ≤ e && e ≤ 14) || (es.filter (· ≠ 15)).eraseDups.length != (es.filter (· ≠ 15)).length

/-- The binary64 word is infinite or not a number. -/
def notFinite (w : Word) : Bool := fld w 62 52 == 0x7FF

/-- The reasons a value alone gives, for the registers whose tables limit it. `MODE` 2's count of Ethernet
quads and every limit that reads other state are judged where the write takes effect. -/
def staticReasons (r : Reg) (w : Word) : List Reason :=
  if r = R.PIN_RETRY then [(outside (fld w 7 4) 0 10, .value)]
  else if r = R.LOAD_CMD then [(bit w 0 == bit w 1, .value)]
  else if r = R.PROBE_SEL then
    [(decide (([512, 32, 32, 256].getD (fld w 31 30) 0) ≤ fld w 20 12), .range)]
  else if r = R.LANE_CFG then [(fld w 6 4 == 7, .value), (fld w 3 2 == 3, .value)]
  else if r = R.LANE_INJ then
    [(outside (fld w 23 16) 1 64, .range), (fld w 7 2 != 0 && outside (fld w 7 2) 10 40, .range)]
  else if r = R.LANE_CMD then [(decide (1 < (onesOf 3 w.toNat).length), .value)]
  else if r = R.QUAD_MODE then [(fld w 9 8 == 3, .value), (fld w 1 0 == 3, .value)]
  else if r = R.LINK_CFG then
    [(fld w 39 36 == 0, .range), (fld w 31 16 == 0, .range), (fld w 1 0 == 3, .value)]
  else if r = R.LINK_PWR then [(fld w 63 32 == 0, .range), (fld w 31 0 == 0, .range)]
  else if r = R.LINK_CMD then [(!oneBit w 4, .value)]
  else if r = R.LVL_CFG then
    [(fld w 31 21 == 0, .range), (outside (fld w 15 8) 0 60, .range), (outside (fld w 5 1) 0 25, .range)]
  else if r = R.SLU_CMD then [(!oneBit w 4, .value)]
  else if r = R.HC_CFG then
    [(outside (fld w 47 32) 256 65535, .range), (fld w 23 16 == 0, .range), (outside (fld w 7 0) 1 40, .range)]
  else if r = R.HC_CMD then [(!oneBit w 3, .value)]
  else if r = R.POND_CFG then [(fld w 19 0 == 0, .range)]
  else if r = R.ACC_ADDR then [(outside (fld w 12 0) 0 4098, .range)]
  else if r = R.PAN_XCMD then [(!oneBit w 4, .value)]
  else if r = R.ACC_CFG then
    [(outside (fld w 55 48) 0 63, .range), (outside (fld w 43 40) 0 2, .value),
     (outside (fld w 20 0) 1 1048576, .range)]
  else if r = R.BF_PSUM then
    [(decide (255 < fld w 55 48 + fld w 58 56), .range), (decide (255 < fld w 39 32 + fld w 42 40), .range)]
  else if r = R.BF_VBCFG then
    [(fld w 63 48 % 32 != 0, .value), (decide (4095 < fld w 47 36 + fld w 35 24), .range)]
  else if r = R.BF_RS then
    [(fld w 5 4 == 3, .value), (decide (255 < fld w 15 8 + (onesOf 4 w.toNat).getLastD 0), .range)]
  else if r = R.ACC_STOKES then [(fld w 1 0 == 3, .value)]
  else if r = R.ETH_CFG then [(outside (fld w 63 48) 1518 9216, .range), (fld w 31 16 == 0, .range)]
  else if r = R.OUT_SRC then
    [(fld w 15 14 == 3, .value), ((fld w 15 14 == 1 || fld w 15 14 == 2) && outside (fld w 13 8) 0 15, .range)]
  else if r = R.TS_XADJ then [(beyond (sfld w 63 32) 100000, .range), (beyond (sfld w 31 0) 100000, .range)]
  else if r = R.CH_PROG then [(fld w 2 0 != 0, .align)]
  else if r = R.CH_CFG then [(outside (fld w 26 16) 1 1024, .range)]
  else if r = R.CH_CMD then [(!oneBit w 3, .value)]
  else if r = R.INB_TMO then [(outside (fld w 6 0) 1 100, .range)]
  else if r = R.BAR2_WIN then [(outside (fld w 47 32) 0 0x5F, .range)]
  else if r = R.NET_SLOPE then [(outside (fld w 15 0) 1 50000, .range)]
  else if r = R.PPS_OUT_CFG then [(outside (fld w 31 12) 1 500000, .range)]
  else if r = R.CLK_XCFG then [(beyond w.toInt (2 ^ 30), .range)]
  else if r = R.SEL_CFG then
    [(outside (fld w 12 8) 0 20, .value), (outside (fld w 7 4) 0 6, .value), (fld w 1 0 == 3, .value)]
  else if r = R.PRIO then [(badPrio w, .value)]
  else if r = R.WTR then [(outside (fld w 11 0) 0 3600, .range)]
  else if r = R.RING_D0 then [(fld w 50 49 == 3 || decide (6 ≤ fld w 63 60), .value)]
  else if r = R.HO_CFG then [(outside (fld w 31 20) 1 3600, .range), (outside (fld w 9 0) 1 600, .range)]
  else if r = R.TB_RATE then [(beyond w.toInt (2 ^ 37), .range)]
  else if r = R.SRV_CFG then
    [(fld w 39 32 == 0, .range), (outside (fld w 31 0) 100 1000000000, .range)]
  else if r = R.SMP_MT_NS then [(decide (1000000000 ≤ fld w 29 0), .range)]
  else if r = R.SESSION_TMO then [(outside (fld w 15 0) 10 65535, .range)]
  else if r = R.SV_CMD then [(!oneBit w 3, .value)]
  else if r = R.WD_FEED then [(fld w 15 0 != 0xFEED, .value)]
  else if r = R.UNSUP_LIMIT then [(outside (fld w 16 0) 1 86400, .range)]
  else if r = R.NVM_CMD then [(!oneBit w 2, .value)]
  else if r = R.UPD_CFG then [(outside (fld w 15 0) 60 65535, .range)]
  else if r = R.SAL_CAL then [(bit w 38 && decide (32768 ≤ fld w 37 18), .range)]
  else if r = R.SEQ then [(bit w 60 && decide (32768 ≤ fld w 59 40), .range)]
  else if r = R.URG_CTRL then [(!bit w 63, .value), (bit w 38 && decide (32768 ≤ fld w 37 18), .range)]
  else if r = R.SAL_CMD then [(!oneBit w 2, .value)]
  else if r = R.SAL_XCFG then [(fld w 1 0 == 3, .value)]
  else if r = R.MESH_CFG then
    [(fld w 39 32 == 1, .range), (outside (fld w 39 32) 0 64, .range), (fld w 9 8 == 3, .value),
     (decide (max 1 (fld w 39 32) ≤ fld w 29 24), .range),
     (decide (max 1 (fld w 39 32) ≤ fld w 21 16), .range)]
  else if r = R.ALIGN_CFG then [(outside (fld w 7 0) 1 20, .range)]
  else if r = R.MESH_TMO then [(outside (fld w 15 0) 10 65535, .range)]
  else if r = R.ERR_CMD then [(!oneBit w 3, .value)]
  else if r = R.RL_SEL then [(outside (fld w 6 0) 0 0x5F, .range)]
  else if r = R.BIST_CMD then [(decide (5 ≤ fld w 3 0), .value)]
  else []

/-- The bits of a value that its register's reserved ranges forbid (order 5 of R69). -/
def resvReason (r : Reg) (w : Word) : Reason := ((w &&& word r.resv) != 0, .resv)

/-- The code that checks 5 to 7 give a value taken alone, if any (R98). -/
def staticCode (r : Reg) (w : Word) : Option Code := firstCode (resvReason r w :: staticReasons r w)

end Sys2Proof.Machine
end

