-- ==== Sys2Proof/Machine/Image.lean ====
section
/-! DEFINITION. Schedule images (R92 to R101): the header, the directory, sections and their programs, slot maps
and `INIT` entries as read from a store's bytes, and the load checks of R100 with the places of R521. -/

namespace Sys2Proof.Machine

/-- Slot classes (R87). -/
inductive SlotClass where
  | none | unit | open_ | refresh | refresh2 | mitigate | trim | idle
  deriving DecidableEq, Repr

/-- The class of a code; `none` of the option for a reserved code. -/
def slotClass (c : Nat) : Option SlotClass :=
  [SlotClass.none, .unit, .open_, .refresh, .refresh2, .mitigate, .trim, .idle][c]?

/-- Section types of R94. -/
def tyBudget : Nat := 0x01
/-- `SLOTMAP`. -/
def tySlotmap : Nat := 0x02
/-- `PAN_PROG`. -/
def tyPan : Nat := 0x03
/-- `SLUICE_PROG`. -/
def tySluice : Nat := 0x04
/-- `FEEDER_PROG`. -/
def tyFeeder : Nat := 0x05
/-- `RAKE_PROG`. -/
def tyRake : Nat := 0x06
/-- `LINKRX_PROG`. -/
def tyLinkrx : Nat := 0x07
/-- `INIT`. -/
def tyInit : Nat := 0x08
/-- `SIGNATURE`. -/
def tySig : Nat := 0xFF

/-- A directory entry (R94): its index, type, CRC, offset and length, and its words 0 and 3. -/
structure Sect where
  idx : Nat
  type : Nat
  crc : Nat
  off : Nat
  len : Nat
  w0 : Word
  w3 : Word
  deriving DecidableEq, Repr

/-- `SECT_COUNT`, and the image length (R93). -/
def imgCount (m : Memory) : Nat := fld (m.word 0x008) 31 16
/-- `IMAGE_LEN`. -/
def imgLen (m : Memory) : Nat := (m.word 0x010).toNat
/-- `IMAGE_ID`. -/
def imgId (m : Memory) : Word := m.word 0x018
/-- `SIGNED`. -/
def imgSigned (m : Memory) : Bool := bit (m.word 0x008) 0
/-- `PANS`: the image has a pan slot (R36). -/
def imgPans (m : Memory) : Bool := bit (m.word 0x008) 1
/-- `SALTERN`. -/
def imgSaltern (m : Memory) : Bool := bit (m.word 0x008) 2

/-- The k-th directory entry. -/
def sect (m : Memory) (k : Nat) : Sect :=
  let a := 0x100 + 32 * k
  let w0 := m.word a
  { idx := k, type := fld w0 63 56, crc := fld w0 31 0, off := (m.word (a + 8)).toNat,
    len := (m.word (a + 16)).toNat, w0 := w0, w3 := m.word (a + 24) }

/-- The directory, at most 1,024 entries. -/
def sects (m : Memory) : List Sect := (List.range (min (imgCount m) 1024)).map (sect m)

/-- The sections of one type. -/
def sectsOf (m : Memory) (ty : Nat) : List Sect := (sects m).filter fun x => x.type = ty

/-- A budget word (R95). -/
def budget (m : Memory) (w : Nat) : Word :=
  match (sectsOf m tyBudget).head? with
  | some x => m.word (x.off + 8 * w)
  | none => 0

/-- `QUAD_ROLE` of a quad: 0 unused, 1 brine link, 2 Ethernet port (R95). -/
def quadRole (m : Memory) (q : Nat) : Nat := fld (budget m (8 + q / 32)) (2 * (q % 32) + 1) (2 * (q % 32))

/-- `HEAD` of a resource kind. -/
def budHead (m : Memory) (k : Nat) : Nat := fld (budget m (16 + k)) 63 32
/-- `TAIL` of a resource kind. -/
def budTail (m : Memory) (k : Nat) : Nat := fld (budget m (16 + k)) 31 0
/-- `VCORE_EST`. -/
def budVcore (m : Memory) : Nat := fld (budget m 7) 63 48
/-- `INTEG_TIDES` I. -/
def budI (m : Memory) : Nat := fld (budget m 1) 63 32
/-- `INTEG_PHASE` P. -/
def budP (m : Memory) : Nat := (budget m 2).toNat
/-- `DUMP_TIDES` D. -/
def budD (m : Memory) : Nat := fld (budget m 3) 63 32
/-- `ACCUM_LAYOUT_ID`. -/
def budLayout (m : Memory) : Word := budget m 4
/-- `CHUNK_SCLK` L. -/
def budL (m : Memory) : Nat := fld (budget m 1) 31 0
/-- `LOG2_CHAN`. -/
def budLogChan (m : Memory) : Nat := fld (budget m 0) 47 40
/-- `SAMPLE_BITS`. -/
def budBits (m : Memory) : Nat := fld (budget m 0) 39 32
/-- `PC_BYTES` of a pseudo-channel. -/
def budPcBytes (m : Memory) (j : Nat) : Nat := (budget m (280 + j)).toNat

/-- The program sections that bind a unit (R96). -/
def progSect (m : Memory) (ty u : Nat) : Option Sect :=
  (sectsOf m ty).find? fun x => bit (m.word (x.off + 8 + 8 * (u / 64))) (u % 64)

/-- The number of instructions of a program section. -/
def progLen (m : Memory) (x : Sect) : Nat := fld (m.word x.off) 31 0

/-- The instruction at an index of the program bound to a unit; `none` past its end or for an unbound unit. -/
def progWord (m : Memory) (ty u pc : Nat) : Option Word :=
  match progSect m ty u with
  | some x => if pc < progLen m x then some (m.word (x.off + 64 + 8 * pc)) else none
  | none => none

/-- `COND_KEY` of the sluice program bound to a unit (R96, R112). -/
def condKey (m : Memory) (u : Nat) : Option Word := (progSect m tySluice u).map fun x => m.word (x.off + 40)

/-- The `SLOTMAP` section of a map (R97). -/
def mapSect (m : Memory) (kind idx : Nat) : Option Sect :=
  (sectsOf m tySlotmap).find? fun x => fld (m.word x.off) 63 56 = kind ∧ fld (m.word x.off) 15 0 = idx

/-- A 16-bit map entry. -/
def mapEntryAt (m : Memory) (x : Sect) (slot : Nat) : Nat := leNat (m.bytes (x.off + 64 + 2 * slot) 2)

/-- The entry of an image's map; a missing feeder, Ethernet or brine map means all `IDLE` (R97). -/
def mapEntry (m : Memory) (kind idx slot : Nat) : Nat :=
  match mapSect m kind idx with
  | some x => mapEntryAt m x slot
  | none => 0x7000

/-- The entry of the maps in force while no image runs (R91). -/
def idleEntry (kind slot : Nat) : Nat :=
  if kind = 0 then
    if slot % 32 = 0 then 0x3000
    else if slot % 32 = 16 then 0x4000
    else if slot % 128 = 8 then 0x5000
    else if slot % 512 = 72 then 0x6000
    else 0x2000
  else if kind = 1 then 0x7000
  else 0x2000

/-- `INIT` entries: page, bank, offset and value (R98). -/
structure InitEntry where
  page : Nat
  bank : Nat
  off : Nat
  value : Word
  w0 : Word
  deriving DecidableEq, Repr

/-- The entries of an `INIT` section. -/
def initEntries (m : Memory) (x : Sect) : List InitEntry :=
  (List.range (min (fld (m.word x.off) 31 0) ((x.len - 64) / 16))).map fun k =>
    let w0 := m.word (x.off + 64 + 16 * k)
    { page := fld w0 31 24, bank := fld w0 23 16, off := fld w0 11 0, value := m.word (x.off + 72 + 16 * k), w0 := w0 }

/-- Every `INIT` entry of an image. -/
def allInit (m : Memory) : List InitEntry := ((sectsOf m tyInit).map (initEntries m)).flatten

/-- Where a load check fails: `SECTION` and `ENTRY` of R521. -/
abbrev Place := Nat × Nat

/-- Whole-header failures are at (0xFFFE, 0xFFFF). -/
def atHeader (bad : Bool) : Option Place := if bad then some (0xFFFE, 0xFFFF) else none

/-- The first place of a list of possible failures. -/
def firstPlace : List (Option Place) → Option Place
  | [] => none
  | some p :: _ => some p
  | none :: ps => firstPlace ps

/-- An entry index as `LOAD_STAT.ENTRY` shows it (R521). -/
def entryIdx (n : Nat) : Nat := min n 0xFFFE

/-- Check 2: format fields and reserved header bits. -/
def chkFormat (m : Memory) : Option Place :=
  let f := m.word 0x008
  let t := m.word 0x020
  atHeader (fld f 63 48 != 1 || fld f 47 32 != 0x100 || fld f 15 3 != 0 || m.word 0x038 != 0x100
    || fld t 39 32 != 0 || fld t 15 0 != 0 || fld (m.word 0x040) 63 32 != 0 || fld (m.word 0x0F8) 63 32 != 0
    || (List.range 22).any fun k => m.word (0x048 + 8 * k) != 0)

/-- Check 3: the header's and the directory's CRC. -/
def chkHeaderCrc (m : Memory) : Option Place :=
  atHeader (crc32c (m.bytes 0 0xF8) != fld (m.word 0x0F8) 31 0
    || crc32c (m.bytes 0x100 (32 * imgCount m)) != fld (m.word 0x040) 31 0)

/-- Check 5: part, stepping and saltern agree with the device (R489). -/
def chkTarget (m : Memory) (meshCfg : Word) : Option Place :=
  let t := m.word 0x020
  let z := fld meshCfg 39 32
  atHeader (fld t 63 48 != 0x4810 || decide (1 < fld t 47 40) || imgSaltern m != (z != 0)
    || fld t 31 24 != z || fld t 23 16 != (if z = 0 then 0 else fld meshCfg 29 24))

/-- Check 6 for one entry, given where the previous section ends. -/
def chkEntry (m : Memory) (prevEnd : Nat) (x : Sect) : Bool :=
  decide (imgLen m < x.off + x.len) || x.off % 64 != 0 || decide (x.off < prevEnd)
    || (decide (0x09 ≤ x.type) && decide (x.type ≤ 0xFE)) || x.type == 0
    || fld x.w0 55 32 != 0 || x.w3 != 0
    || (x.type == tySig && (x.len != 128 || x.idx + 1 != imgCount m || x.off + x.len != imgLen m))

/-- Check 6 over the directory in order. -/
def chkEntries (m : Memory) : Nat → List Sect → Option Place
  | _, [] => none
  | e, x :: xs => if chkEntry m e x then some (x.idx, 0xFFFF) else chkEntries m (x.off + x.len) xs

/-- Check 6: the directory; a failing entry is named first (DEDUCED, notes/assumptions/253.md). -/
def chkDirectory (m : Memory) : Option Place :=
  let n := imgCount m
  if n < 2 ∨ 1024 < n then some (0xFFFE, 0xFFFF)
  else
    match chkEntries m (0x100 + 32 * n) (sects m) with
    | some p => some p
    | none => atHeader ((sectsOf m tyBudget).length != 1 || decide (1 < (sectsOf m tyInit).length)
        || (sectsOf m tySig).length != b2n (imgSigned m))

/-- Check 7: section CRCs. -/
def chkSectCrc (m : Memory) : Option Place :=
  firstPlace ((sects m).map fun x => if crc32c (m.bytes x.off x.len) != x.crc then some (x.idx, 0xFFFF) else none)

/-- Check 9: the signature's algorithm, reserved parts and key (R99). -/
def chkSigKey (m : Memory) (otp : Otp) : Option Place :=
  match (sectsOf m tySig).head? with
  | none => none
  | some x =>
    let w := m.word x.off
    let k := fld w 7 0
    if fld w 63 56 ≠ 1 ∨ fld w 55 8 ≠ 0 ∨ (m.bytes (x.off + 104) 24).any (· != 0)
        ∨ pget otp.verify k = none ∨ 8 ≤ k ∨ otp.revoked.getLsbD k then some (x.idx, 0xFFFF) else none

/-- Whether the bytes before a signature section verify under the key that it names (R99). -/
def sigVerifies (m : Memory) (off : Nat) (otp : Otp) : Bool :=
  match pget otp.verify (fld (m.word off) 7 0) with
  | none => false
  | some k => ecdsaVerify k.x k.y (sha384 (m.bytes 0 off)) (beNat (m.bytes (off + 8) 48)) (beNat (m.bytes (off + 56) 48))

/-- Check 10: the signature. -/
def chkSig (m : Memory) (otp : Otp) : Option Place :=
  match (sectsOf m tySig).head? with
  | none => none
  | some x => if sigVerifies m x.off otp then none else some (x.idx, 0xFFFF)

/-- The first budget word of a list that fails a check. -/
def budPlace (x : Sect) (bad : Nat → Bool) (ws : List Nat) : Option Place :=
  (ws.find? bad).map fun w => (x.idx, entryIdx w)

/-- Whether a number is a power of two from 256 to 1,048,576. -/
def isChunkLen (n : Nat) : Bool := (List.range 13).any fun k => n == 2 ^ (8 + k)

/-- Check 11 for one word: reserved bits anywhere, and the fields of words 0 to 4 and 8 to 15 (R95). -/
def badForm (m : Memory) (w : Nat) : Bool :=
  let v := budget m w
  if w = 0 then outside (fld v 63 48) 1 4096 || outside (fld v 47 40) 6 12
    || !(fld v 39 32 == 4 || fld v 39 32 == 8) || outside (fld v 31 16) 0 1024 || fld v 15 0 != 0
  else if w = 1 then fld v 63 32 == 0 || !isChunkLen (fld v 31 0)
  else if w = 2 then decide (budI m ≤ v.toNat)
  else if w = 3 then decide (budI m < fld v 63 32) || fld v 31 0 != 0
  else if w = 7 then fld v 39 32 != 0 || fld v 15 0 != 0
  else if 8 ≤ w ∧ w ≤ 15 then (List.range 32).any fun k => fld v (2 * k + 1) (2 * k) == 3
  else if 792 ≤ w then v != 0
  else false

/-- Check 14 for one word. -/
def badLimit (m : Memory) (w : Nat) : Bool :=
  let v := budget m w
  let roles := fun r => ((List.range 256).filter fun q => quadRole m q = r).length
  if w = 7 then decide (720 < fld v 63 48) || decide (32 < fld v 47 40) || fld v 47 40 != roles 2
    || decide (256 < fld v 31 16) || fld v 31 16 != roles 1
  else if 16 ≤ w ∧ w ≤ 23 then decide (1048576 < fld v 63 32) || decide (fld v 63 32 < fld v 31 0)
  else if 24 ≤ w ∧ w ≤ 279 then decide (16 < fld v 63 48) || decide (6000000000 < fld v 47 0)
  else false

/-- The sum of `PC_BYTES`. -/
def pcSum (m : Memory) : Nat := ((List.range 512).map (budPcBytes m)).sum

/-- Checks 11 to 14 on the budget section; a wrong length has no entry (DEDUCED, notes/assumptions/253.md). -/
def chkBudget (m : Memory) (check : Nat) : Option Place :=
  match (sectsOf m tyBudget).head? with
  | none => none
  | some x =>
    if check = 11 then
      if x.len ≠ 6400 then some (x.idx, 0xFFFF) else budPlace x (badForm m) (List.range 800)
    else if check = 12 then budPlace x (fun w => decide (412316860416 < (budget m w).toNat)) [5]
    else if check = 13 then
      if 10307921510 < (budget m 6).toNat ∨ pcSum m ≠ (budget m 6).toNat then some (x.idx, 6)
      else budPlace x (fun w => decide (20132659 < (budget m w).toNat)) ((List.range 512).map (280 + ·))
    else budPlace x (badLimit m) (7 :: (List.range 264).map (16 + ·))

/-- The instruction-count limit of a program section, and its valid unit mask bits (R96). -/
def progLimit (ty : Nat) : Nat := [4096, 1024, 2048, 1024, 512].getD (ty - 3) 0

/-- Whether a unit may be bound by a program section of a type. -/
def validUnit (m : Memory) (ty u : Nat) : Bool :=
  if ty = tyFeeder then decide (u < 32)
  else if ty = tyRake then decide (u < 64)
  else if ty = tyLinkrx then quadRole m u == 1
  else decide (u < 256)

/-- Whether a section is a program section. -/
def isProg (x : Sect) : Bool := decide (3 ≤ x.type) && decide (x.type ≤ 7)

/-- Check 15. -/
def chkProgLen (m : Memory) : Option Place :=
  firstPlace ((sects m).map fun x =>
    if isProg x ∧ (progLen m x = 0 ∨ progLimit x.type < progLen m x ∨ x.len ≠ 64 + 8 * progLen m x)
    then some (x.idx, 0xFFFF) else none)

/-- The units that a program section binds. -/
def maskUnits (m : Memory) (x : Sect) : List Nat :=
  (List.range 256).filter fun u => bit (m.word (x.off + 8 + 8 * (u / 64))) (u % 64)

/-- Check 16 for one section, given the sections before it; a reserved header bit has no entry (DEDUCED,
notes/assumptions/253.md). -/
def chkBind1 (m : Memory) (before : List Sect) (x : Sect) : Option Place :=
  if fld (m.word x.off) 63 32 ≠ 0 ∨ (x.type ≠ tySluice ∧ m.word (x.off + 40) ≠ 0) ∨ m.word (x.off + 48) ≠ 0
      ∨ m.word (x.off + 56) ≠ 0 then some (x.idx, 0xFFFF)
  else
    let earlier := (before.filter fun y => y.type = x.type).map (maskUnits m)
    ((maskUnits m x).find? fun u => !validUnit m x.type u || earlier.any (·.contains u)).map
      fun u => (x.idx, u)

/-- Check 16 over the sections in order. -/
def chkBindAll (m : Memory) : List Sect → List Sect → Option Place
  | _, [] => none
  | before, x :: xs =>
    match (if isProg x then chkBind1 m before x else none) with
    | some p => some p
    | none => chkBindAll m (x :: before) xs

/-- Check 16. -/
def chkBinding (m : Memory) : Option Place :=
  match chkBindAll m [] (sects m) with
  | some p => some p
  | none => atHeader (imgPans m != !(sectsOf m tyPan).isEmpty)

/-- Whether the `INIT` section binds Ethernet port e to a quad of role 2 (R101). -/
def ethBound (m : Memory) (e : Nat) : Bool :=
  (allInit m).any fun i => i.page == 0x54 + e / 8 && i.bank == e % 8 && i.off == 0x100
    && quadRole m (fld i.value 47 40) == 2

/-- The number of maps of each kind (R86). -/
def mapCount (kind : Nat) : Nat := [512, 32, 32, 256].getD kind 0

/-- Check 17 for one `SLOTMAP` section, given the sections before it. -/
def badMap (m : Memory) (before : List Sect) (x : Sect) : Bool :=
  let w := m.word x.off
  let kind := fld w 63 56
  let i := fld w 15 0
  x.len != 8256 || decide (3 < kind) || decide (mapCount kind ≤ i) || fld w 55 16 != 0
    || (List.range 7).any (fun k => m.word (x.off + 8 + 8 * k) != 0)
    || before.any (fun y => m.word y.off == w)
    || (kind == 2 && !ethBound m i) || (kind == 3 && quadRole m i != 1)

/-- Check 17 over the map sections in order. -/
def chkMaps1 (m : Memory) : List Sect → List Sect → Option Place
  | _, [] => none
  | before, x :: xs => if badMap m before x then some (x.idx, 0xFFFF) else chkMaps1 m (x :: before) xs

/-- Check 17. -/
def chkMaps (m : Memory) : Option Place :=
  match chkMaps1 m [] (sectsOf m tySlotmap) with
  | some p => some p
  | none => ((List.range 512).find? fun j => mapSect m 0 j = none).map fun j => (0xFFFE, entryIdx j)

/-- Whether an owner may stand in a map of a kind: its kind is allowed, its index in range, and it is bound
(R86, R88, R101). -/
def ownerOk (m : Memory) (kind idx owner : Nat) : Bool :=
  let k := owner / 512
  let i := owner % 512
  (if kind = 0 then decide (k ≤ 5) else if kind = 1 then k == 6 else if kind = 2 then k == 3 && i == idx
    else k == 4 && i == idx)
  && (if k = 0 then decide (i < 256) && (progSect m tySluice i).isSome
      else if k = 1 then decide (i < 32) && (progSect m tyFeeder i).isSome
      else if k = 2 then decide (i < 64) && (progSect m tyRake i).isSome
      else if k = 3 then decide (i < 32) && ethBound m i
      else if k = 4 then decide (i < 256) && quadRole m i == 1
      else if k = 5 then decide (i < 16) && (progSect m tyPan (16 * i + 15)).isSome
      else if k = 6 then decide (i < 8) && !(sectsOf m tyPan).isEmpty
      else false)

/-- Whether a class may stand in a map of a kind (R86). -/
def classOk (kind : Nat) (c : SlotClass) : Bool :=
  match c with
  | .unit | .idle => true
  | .open_ => kind != 1
  | .none => true
  | _ => kind == 0

/-- Checks 18 to 20 for one entry. -/
def badMapEntry (m : Memory) (check : Nat) (x : Sect) (slot : Nat) : Bool :=
  let kind := fld (m.word x.off) 63 56
  let e := mapEntryAt m x slot
  match slotClass (e / 4096) with
  | none => check == 19
  | some c =>
    if check = 18 then c == .none
    else if check = 19 then !classOk kind c || (c != .unit && e % 4096 != 0)
    else c == .unit && !ownerOk m kind (fld (m.word x.off) 15 0) (e % 4096)

/-- Checks 18 to 20: the first failing slot of the first failing map. -/
def chkMapEntries (m : Memory) (check : Nat) : Option Place :=
  firstPlace ((sectsOf m tySlotmap).map fun x =>
    ((List.range 4096).find? (badMapEntry m check x)).map fun s => (x.idx, s))

/-- The slots of a class in a map. -/
def classSlots (m : Memory) (x : Sect) (c : Nat) : List Nat :=
  (List.range 4096).filter fun s => mapEntryAt m x s / 4096 = c

/-- The slot at which the first gap longer than `g` ends, counted across the tide's end (R89, R521): `prev` is
the slot before, the first entry's predecessor being the last entry less 4,096. -/
def overGap (g : Nat) : Int → List Nat → Option Nat
  | _, [] => none
  | prev, s :: ss => if (g : Int) < (s : Int) - prev then some s else overGap g s ss

/-- The reserved classes' codes, minimum counts and maximum gaps (R89). -/
def reserveRules : List (Nat × Nat × Nat) := [(3, 128, 32), (4, 128, 32), (5, 32, 128), (6, 8, 512)]

/-- The first slot of several, the smallest. -/
def minSlot (xs : List Nat) : Option Nat := xs.min?

/-- Check 21 for one heap map. -/
def chkReserve1 (m : Memory) (x : Sect) : Option Place :=
  let gaps := reserveRules.filterMap fun (c, _, g) =>
    let ss := classSlots m x c
    overGap g ((ss.getLastD 0 : Int) - 4096) ss
  match minSlot gaps with
  | some s => some (x.idx, s)
  | none =>
    if reserveRules.any fun (c, n, _) => decide ((classSlots m x c).length < n) then some (x.idx, 0xFFFF) else none

/-- The heap maps in directory order. -/
def heapMaps (m : Memory) : List Sect := (sectsOf m tySlotmap).filter fun x => fld (m.word x.off) 63 56 = 0

/-- Check 21. -/
def chkReserve (m : Memory) : Option Place := firstPlace ((heapMaps m).map (chkReserve1 m))

/-- Check 22. -/
def chkOver (m : Memory) : Option Place :=
  firstPlace ((heapMaps m).map fun x => if 3686 < (classSlots m x 1).length then some (x.idx, 0xFFFF) else none)

/-- Whether a register's page marks it image-held, wholly or in a field (R70, R98): the marked registers, the
`QUAD` field of `ETH_CFG`, and `LINK_CFG`, held while the link is scheduled (R167). -/
def imageHeld (r : Reg) : Bool := r.held || r = R.ETH_CFG || r = R.LINK_CFG

/-- Check 23 for one `INIT` entry, given the entries before it (R98). -/
def badInit (before : List InitEntry) (i : InitEntry) : Bool :=
  if fld i.w0 63 32 ≠ 0 ∨ fld i.w0 15 12 ≠ 0 then true
  else
    match findReg i.page i.off with
    | none => true
    | some (r, _) =>
      !imageHeld r
      || (if r.banks = 1 ∨ r.share = 256 then i.bank != 0 else decide (r.banks ≤ i.bank))
      || before.any (fun j => j.page == i.page && j.bank == i.bank && j.off == i.off)
      || (staticCode r i.value).isSome

/-- Check 23 over the entries in order. -/
def chkInit1 (x : Sect) : Nat → List InitEntry → List InitEntry → Option Place
  | _, _, [] => none
  | k, before, i :: is => if badInit before i then some (x.idx, entryIdx k) else chkInit1 x (k + 1) (i :: before) is

/-- Check 23. -/
def chkInit (m : Memory) : Option Place :=
  match (sectsOf m tyInit).head? with
  | none => none
  | some x =>
    let w := m.word x.off
    if x.len ≠ 64 + 16 * fld w 31 0 ∨ fld w 63 32 ≠ 0 ∨ (List.range 7).any (fun k => m.word (x.off + 8 + 8 * k) != 0)
    then some (x.idx, 0xFFFF)
    else chkInit1 x 0 [] (initEntries m x)

/-- A check's failure with its reason code. -/
def withReason (n : Nat) (p : Option Place) : Option (Nat × Place) := p.map fun q => (n, q)

/-- The first check that fails of a list of checks, each run only when those before it pass. -/
def firstFailure : List (Unit → Option (Nat × Place)) → Option (Nat × Place)
  | [] => none
  | f :: fs =>
    match f () with
    | some x => some x
    | none => firstFailure fs

/-- The load checks of R100 in order: the reason and the place of the first failure. -/
def loadChecks (m : Memory) (meshCfg : Word) (otp : Otp) (sigRequired : Bool) : Option (Nat × Place) :=
  firstFailure
    [fun _ => withReason 1 (atHeader (m.word 0 != 0x4445484353564E58)),
     fun _ => withReason 2 (chkFormat m),
     fun _ => withReason 3 (chkHeaderCrc m),
     fun _ => withReason 4 (atHeader (decide (16777216 < imgLen m) || decide (imgLen m < 320) || imgLen m % 64 != 0)),
     fun _ => withReason 5 (chkTarget m meshCfg),
     fun _ => withReason 6 (chkDirectory m),
     fun _ => withReason 7 (chkSectCrc m),
     fun _ => withReason 8 (atHeader (sigRequired && !imgSigned m)),
     fun _ => withReason 9 (chkSigKey m otp),
     fun _ => withReason 10 (chkSig m otp),
     fun _ => withReason 11 (chkBudget m 11),
     fun _ => withReason 12 (chkBudget m 12),
     fun _ => withReason 13 (chkBudget m 13),
     fun _ => withReason 14 (chkBudget m 14),
     fun _ => withReason 15 (chkProgLen m),
     fun _ => withReason 16 (chkBinding m),
     fun _ => withReason 17 (chkMaps m),
     fun _ => withReason 18 (chkMapEntries m 18),
     fun _ => withReason 19 (chkMapEntries m 19),
     fun _ => withReason 20 (chkMapEntries m 20),
     fun _ => withReason 21 (chkReserve m),
     fun _ => withReason 22 (chkOver m),
     fun _ => withReason 23 (chkInit m)]

end Sys2Proof.Machine
end

