-- ==== Sys2Proof/Machine/HeapOps.lean ====
section
/-! DEFINITION. The heap's operations (spec/05, 08): maps in force, address mapping, breaches, freezes, scheduled
transfers of a slot, open requests and their service, refresh tables and training. -/

namespace Sys2Proof.Machine

/-- An image store's bytes. -/
def State.storeMem (s : State) (i : Nat) : Memory := if i = 0 then s.sched.image0 else s.sched.image1

/-- The running image. -/
def State.image (s : State) : Option Memory := s.sched.run.map s.storeMem

/-- The map entry in force (R86, R91, R117). -/
def State.entry (s : State) (kind idx slot : Nat) : Nat :=
  match s.image with
  | some m => mapEntry m kind idx slot
  | none => idleEntry kind slot

/-- The class of the entry in force. -/
def State.classAt (s : State) (kind idx slot : Nat) : Option SlotClass := slotClass (s.entry kind idx slot / 4096)

/-- Whether an in-force map has an `OPEN` slot. -/
def State.hasOpen (s : State) (kind idx : Nat) : Bool :=
  match s.image with
  | none => kind != 1
  | some m => (List.range 4096).any fun t => mapEntry m kind idx t / 4096 == 2

/-- Whether the running image gives a map a `UNIT` slot. -/
def State.hasUnit (s : State) (kind idx : Nat) : Bool :=
  match s.image with
  | none => false
  | some m => (List.range 4096).any fun t => mapEntry m kind idx t / 4096 == 1

/-- A counted breach of R138: its counter, `BR_FIRST` if it is empty (R143), and a fatal report. What `BR_FIRST` says of the
first breach of an RCLK is kept for a clear in that RCLK. -/
def State.breach (s : State) (r : Reg) (kind unit : Nat) : State :=
  let s := s.count r 0
  let w := word (at_ 32 (s.time.tide % 2 ^ 32) + at_ 20 s.slot + at_ 16 kind + unit)
  let s := if s.sched.brLast.any fun b => b.1 = s.rclk then s
    else { s with sched := { s.sched with brLast := some (s.rclk, w) } }
  let s := if s.rdf R.BR_FIRST 0 19 16 = 0 then s.wr R.BR_FIRST 0 w else s
  s.report 0x12 0 0x0C (s.rd R.BR_FIRST) 0

/-- `BR_CLEAR.FIRST`: `BR_FIRST` cleared, but for a breach of this RCLK (R143). -/
def State.clearFirst (s : State) : State :=
  s.wr R.BR_FIRST 0 (match s.sched.brLast with
    | some (t, w) => if t = s.rclk then w else 0
    | none => 0)

/-- Bytes of the heap, and of one controller (R220). -/
def heapBytes : Nat := 412316860416
/-- 1.5 GiB. -/
def ctrlBytes : Nat := 1610612736

/-- Controller of a heap address (R220). -/
def hCtl (a : Nat) : Nat := a / ctrlBytes
/-- Offset within the controller. -/
def hOfs (a : Nat) : Nat := a % ctrlBytes
/-- Pseudo-channel. -/
def hPch (a : Nat) : Nat := 2 * hCtl a + hOfs a / 1024 % 2
/-- Offset within the pseudo-channel. -/
def hIn (a : Nat) : Nat := hOfs a / 2048 * 1024 + hOfs a % 1024
/-- Bank. -/
def heapBank (a : Nat) : Nat := hIn a / 1024 % 32
/-- Row. -/
def heapRow (a : Nat) : Nat := hIn a / 32768
/-- The linear address order λ (R221). -/
def hLin (a : Nat) : Nat := (hOfs a / 2048 * 256 + hCtl a) * 2048 + hOfs a % 2048

/-- What an unlisted controller or pseudo-channel is. -/
def ctrlDflt (_ : Nat) : Ctrl := {}
/-- A pseudo-channel at reset. -/
def pchDflt (_ : Nat) : PCh := {}

/-- A controller. -/
def State.ctl (s : State) (h : Nat) : Ctrl := mget ctrlDflt s.heap.ctrl h
/-- A controller, written. -/
def State.setCtl (s : State) (h : Nat) (c : Ctrl) : State :=
  { s with heap := { s.heap with ctrl := mset ctrlDflt s.heap.ctrl h c } }
/-- A pseudo-channel. -/
def State.pc (s : State) (j : Nat) : PCh := mget pchDflt s.heap.pch j
/-- A pseudo-channel, written. -/
def State.setPc (s : State) (j : Nat) (p : PCh) : State :=
  { s with heap := { s.heap with pch := mset pchDflt s.heap.pch j p } }
/-- A mark of a heap word. -/
def wordMark (m : Map Bool) (w : Nat) : Bool := mget (fun _ => false) m w
/-- A heap word's mark, written. -/
def setMark (m : Map Bool) (w : Nat) (b : Bool) : Map Bool := mset (fun _ => false) m w b
/-- One transfer of the heap, written; `mark` says that it holds data built on poison (R238). -/
def State.heapWrite (s : State) (a : Nat) (bs : List Byte) (mark : Bool := false) : State :=
  let known := if (pget s.heap.lost (hCtl a)).isSome then setMark s.heap.known (a / 64) true else s.heap.known
  { s with heap := { s.heap with mem := s.heap.mem.write a bs, known := known
                                 marks := setMark s.heap.marks (a / 64) mark } }
/-- The heap's bytes: what a controller that lost its data holds is free until it is written (R236). -/
def State.heapBytesAt (s : State) (a n : Nat) : List Byte :=
  ((s.heap.mem.bytes a n).zipIdx).map fun x =>
    match pget s.heap.lost (hCtl (a + x.2)) with
    | some i => if wordMark s.heap.known ((a + x.2) / 64) then x.1 else Config.lostByte i (a + x.2)
    | none => x.1
/-- A heap's contents, without its controllers' state. -/
def Heap.contents (h : Heap) : Heap := { mem := h.mem, lost := h.lost, known := h.known, marks := h.marks }
/-- What is held of a controller, dropped: its bytes and their marks. -/
def State.heapDrop (s : State) (h : Nat) (lost : Option Nat) : State :=
  { s with heap := { s.heap with
      mem := s.heap.mem.keep fun a => hCtl a ≠ h
      lost := pset s.heap.lost h lost
      known := s.heap.known.filter fun e => hCtl (64 * e.1) ≠ h
      marks := s.heap.marks.filter fun e => hCtl (64 * e.1) ≠ h } }

/-- Whether a controller serves accesses: neither frozen, faulty, starting nor disabled (R236). -/
def State.serves (s : State) (h : Nat) : Bool := (s.ctl h).state == .ready

/-- `HC_STAT.STATE`: `ACTIVE` while the running image has a `UNIT` entry on the controller or open traffic is in
flight to it (R240). -/
def State.ctlCode (s : State) (h : Nat) : Nat :=
  match (s.ctl h).state with
  | .disabled => 0
  | .starting => 1
  | .ready => if s.hasUnit 0 (2 * h) || s.hasUnit 0 (2 * h + 1) || !(s.pc (2 * h)).queue.isEmpty
      || !(s.pc (2 * h + 1)).queue.isEmpty then 3 else 2
  | .frozen => 5
  | .fault => 6

/-- `HC_STAT` (R246). -/
def State.hcStat (s : State) (h : Nat) : Word :=
  word (at_ 16 (s.ctl h).rcFails + at_ 15 (b2n (s.pc (2 * h + 1)).rcDue) + at_ 14 (b2n (s.pc (2 * h)).rcDue)
    + at_ 12 (b2n (s.ctl h).lost) + s.ctlCode h)

/-- A controller stopped with a cause: frozen, with its data lost, or faulty for a failed training; `FRZ_INFO`, the page's
event and a fatal report (R224, R235, R236). -/
def State.stopCtl (s : State) (h m cause : Nat) : State :=
  let st : CtrlState := if cause = 5 then .fault else .frozen
  let s := if cause = 5 then s else s.fresh.2.heapDrop h (some s.fresh.1)
  let s := s.setCtl h { s.ctl h with state := st }
  let s := s.wr R.FRZ_INFO h (word (at_ 32 (s.time.tide % 2 ^ 32) + at_ 20 s.slot + at_ 16 m + cause))
  let s := s.raise (0x40 + h / 32) (if cause = 5 then 1 else 0)
  s.report (0x40 + h / 32) (h % 32) 0x0D (s.rd R.FRZ_INFO h) (s.hcStat h)

/-- The lowest index of the smallest count in an activation table (R231). -/
def smallestAct : List ActEntry → Nat → Option (Nat × Nat)
  | [], _ => none
  | e :: es, i =>
    match smallestAct es (i + 1) with
    | some (j, c) => if c < e.count then some (j, c) else some (i, e.count)
    | none => some (i, e.count)

/-- The entry index that a row's activation uses, and the table with that entry in place (R231). -/
def touchAct (acts : List ActEntry) (bank row : Nat) : Nat × List ActEntry :=
  match acts.findIdx? fun e => e.bank = bank ∧ e.row = row with
  | some i => (i, acts.modify i fun e => { e with count := e.count + 1 })
  | none =>
    if acts.length < 64 then (acts.length, acts ++ [{ bank := bank, row := row, count := 1 }])
    else
      match smallestAct acts 0 with
      | some (i, c) => (i, acts.set i { bank := bank, row := row, count := c + 1 })
      | none => (0, acts)

/-- A row's activation on a pseudo-channel: the table, and at the threshold a neighbour-refresh request, refused
when 72 wait (R231, R232). The flag says that it was refused. -/
def activate (thresh : Nat) (p : PCh) (bank row : Nat) : PCh × Bool :=
  let (i, acts) := touchAct p.acts bank row
  match acts[i]? with
  | none => (p, false)
  | some e =>
    if e.count < thresh then ({ p with acts := acts }, false)
    else if p.mits.length < 72 then
      ({ p with acts := acts.set i { e with count := 0 }, mits := p.mits ++ [(bank, row)] }, false)
    else ({ p with acts := acts.set i { e with count := thresh } }, true)

/-- The rows that a slot's transfers open, each once, in order. -/
def rowsOf (addrs : List Nat) : List (Nat × Nat) := (addrs.map fun a => (heapBank a, heapRow a)).eraseDups

/-- The activations of a slot's rows, with `MIT_OVF` and its event for a refused request (R232). -/
def State.activateRows (s : State) (j : Nat) (rows : List (Nat × Nat)) : State :=
  rows.foldl (fun s r =>
    let x := activate (s.rdf R.HC_CFG (j / 2) 47 32) (s.pc j) r.1 r.2
    let s := s.setPc j x.1
    if x.2 then (s.count R.MIT_OVF (j / 2)).raise (0x40 + j / 64) 6 else s) s

/-- A slot number that no epoch opening sets back. -/
def State.absSlot (s : State) : Nat := (s.time.total - s.time.pos) / 256 + s.slot

/-- The load mark of R225: transfers of the last 1,024 slots take two HCLK edges each, of 512 edges in every three
slots, in 1/256. -/
def State.loadMark (s : State) (j : Nat) : Nat :=
  let n := (((s.pc j).marks.filter fun m => s.absSlot < m.1 + 1024).map (·.2)).sum
  min 255 (n * 2 * 256 * 3 / (1024 * 512))

/-- A slot's transfers counted into the load mark and, with the writes, into the held-write window (R225, R233). -/
def State.markSlot (s : State) (j n : Nat) (writes : List Nat) : State :=
  let p := s.pc j
  s.setPc j { p with
    marks := (s.absSlot, n) :: p.marks.filter fun m => s.absSlot < m.1 + 1024
    writes := if writes.isEmpty then p.writes else ((s.absSlot, writes) :: p.writes).take 3 }

/-- Whether a pseudo-channel still holds a write to an address: one of its last three write slots, not in the array yet
(R233). -/
def State.holds (s : State) (j a : Nat) : Bool :=
  (s.pc j).writes.any fun w => w.2.contains a && decide (s.absSlot ≤ w.1 + Config.holdSlots j w.1)

/-- Whether one more transfer fits a slot: the direction, at most 85 transfers, at most 8 rows in different
banks (R122, R123). -/
def fitsSlot (acc : List (Bool × Nat)) (write : Bool) (addr : Nat) : Bool :=
  let rows := rowsOf (acc.map (·.2))
  decide (acc.length < 85) && acc.all (fun x => x.1 == write)
    && (rows.contains (heapBank addr, heapRow addr)
        || (decide (rows.length < 8) && !(rows.map (·.1)).contains (heapBank addr)))

/-- Whether a scheduled transfer's address is the pseudo-channel's, aligned, and below `HEAP_ALLOC` (R123). -/
def State.addrOk (s : State) (j : Nat) (a : Nat) : Bool :=
  decide (a < heapBytes) && a % 64 == 0 && hPch a == j &&
    (match s.image with
     | some m => decide (hLin a < (budget m 5).toNat)
     | none => false)

/-- The outcome of sorting a pseudo-channel's asked transfers for a slot: those issued, those that breach, those
that wait on. -/
structure SlotPlan where
  issue : List SXfer := []
  breach : List SXfer := []
  wait : List SXfer := []
  deriving DecidableEq, Repr

/-- Weight-copy redirection (R308): while copy 1 is in use, a scheduled read in copy 0 is served from copy 1. -/
def State.redirect (s : State) (a : Nat) : Nat :=
  let n := (s.rd R.WT_SIZE 0).toNat * 64
  let base := (s.rd R.WT_BASE 0).toNat * 64
  if s.rdb R.WT_STAT 0 0 ∧ base ≤ a ∧ a < base + n then a + n else a

/-- The address at which a transfer is served now: a write's own, a read's by the weight copy in use (R308). -/
def State.servedAt (s : State) (x : SXfer) : Nat := if x.write then x.addr else s.redirect x.addr

/-- The pseudo-channel that serves a transfer; one that lies beyond the heap is the affair of the number modulo 512
(DESIGN CHOICE, notes/assumptions/263.md). -/
def State.servedBy (s : State) (x : SXfer) : Nat := hPch (s.servedAt x) % 512

/-- One asked transfer sorted (R122, R123, R138), `at_` being the address at which it is served. A transfer issued for this
slot must fit it; one that waits for its unit's slots takes the first in which it fits and, for a write, in which its data
are there in time. -/
def planOne (at_ : Nat) (ok : Nat → Bool) (owner : Option Nat) (start : Nat) (p : SlotPlan) (x : SXfer) : SlotPlan :=
  let acc := p.issue.map fun y => (y.write, y.addr)
  let y : SXfer := { x with addr := at_ }
  if x.now then
    if owner = some x.owner ∧ ok at_ = true ∧ fitsSlot acc x.write at_ = true then { p with issue := p.issue ++ [y] }
    else { p with breach := p.breach ++ [y] }
  else if owner ≠ some x.owner ∨ 2 * (if x.write then start + 28 + 3 * p.issue.length else start) < x.ready then
    { p with wait := p.wait ++ [x] }
  else if !ok at_ then { p with breach := p.breach ++ [y] }
  else if fitsSlot acc x.write at_ then { p with issue := p.issue ++ [y] }
  else { p with wait := p.wait ++ [x] }

/-- The owner of a slot of a pseudo-channel. -/
def State.slotOwner (s : State) (j slot : Nat) : Option Nat :=
  if s.classAt 0 j slot = some .unit then some (s.entry 0 j slot % 4096) else none

/-- When a slot's transfer k comes to its requester (R122): from `start`, the slot's first SCLK. -/
def xferTime (start k : Nat) : Nat := start + 41 + 3 * k

/-- Poison data: zero bytes (R238). -/
def poisonData : List Byte := List.replicate 64 0

/-- The uncorrectable read of R237: counters, the captured address, the event, the report. -/
def State.uncorrectable (s : State) (h a : Nat) : State :=
  let s := (s.count R.ERR_UNCORR h).count R.POISON_OUT h
  let s := if s.rdb R.ERR_ADDR h 63 then s else s.wr R.ERR_ADDR h (word (2 ^ 63 + a))
  let s := s.raise (0x40 + h / 32) 2
  s.report (0x40 + h / 32) (h % 32) 0x0E (s.hcStat h) (word a)

/-- The ECC observation of a slot's k-th transfer. -/
def eccOf (ecc : List EccObs) (k : Nat) : Nat × Bool :=
  match ecc.find? fun o => o.k = k with
  | some o => (o.corrected, o.uncorrectable)
  | none => (0, false)

/-- One read transfer: forwarding counted, corrections counted, poison for an uncorrectable word (R222, R233, R237). -/
def State.readXfer (s : State) (j a corrected : Nat) (unc : Bool) : State × List Byte × Bool :=
  let h := j / 2
  let s := if s.holds j a then s.count R.FWD_HITS h else s
  let s := if corrected = 0 then s else s.count R.ERR_CORR h corrected
  if unc then (s.uncorrectable h a, poisonData, true) else (s, s.heapBytesAt a 64, false)

/-- Bytes of `new` over `old` outside positions lo to lo + len − 1. -/
def keepNamed (lo len : Nat) (old new : List Byte) : List Byte :=
  (List.range 64).map fun i => if lo ≤ i ∧ i < lo + len then old.getD i 0 else new.getD i 0

/-- A scheduled write copied into the merge buffers of the open writes to the same transfer (R234). -/
def mergeWatch (a : Nat) (data : List Byte) (q : HReq) : HReq :=
  { q with parts := q.parts.map fun x =>
      if x.addr = a then { x with merge := x.merge.map fun b => keepNamed x.lo x.len b data } else x }

/-- One write transfer: memory, and the merge buffers that watch its address (R233, R234). -/
def State.writeXfer (s : State) (j a : Nat) (data : List Byte) (mark : Bool := false) : State :=
  let s := s.heapWrite a data mark
  s.setPc j { s.pc j with queue := (s.pc j).queue.map (mergeWatch a data) }

/-- What a scheduled transfer delivers: where it goes, its place in the slot, its data, whether it is poison, whether the
data carry a poison mark. -/
structure Delivery where
  dest : Dest
  k : Nat
  data : List Byte
  poison : Bool
  mark : Bool
  deriving DecidableEq, Repr

/-- The transfers of a slot carried out in order, k numbering them (R122). A controller that cannot serve returns
poison to reads and discards writes (R236). -/
def State.carry (s : State) (j : Nat) (ecc : List EccObs) : Nat → List SXfer → State × List Delivery
  | _, [] => (s, [])
  | k, x :: xs =>
    if x.write then
      let s1 := if s.serves (j / 2) then s.writeXfer j x.addr x.data x.mark else s
      let r := s1.carry j ecc (k + 1) xs
      (r.1, { dest := x.dest, k := k, data := x.data, poison := !s.serves (j / 2), mark := x.mark } :: r.2)
    else if s.serves (j / 2) then
      let o := eccOf ecc k
      let (s1, d, p) := s.readXfer j x.addr o.1 o.2
      let r := s1.carry j ecc (k + 1) xs
      (r.1, { dest := x.dest, k := k, data := d, poison := p, mark := p || wordMark s.heap.marks (x.addr / 64) } :: r.2)
    else
      let r := (s.count R.POISON_OUT (j / 2)).carry j ecc (k + 1) xs
      (r.1, { dest := x.dest, k := k, data := poisonData, poison := true, mark := true } :: r.2)

/-- The breaching transfers: counted each, reads returned as poison, writes discarded (R138). -/
def State.breachAll (s : State) (j : Nat) (xs : List SXfer) : State × List Delivery :=
  (xs.foldl (fun s _ => s.breach R.BR_HEAP 1 j) s,
   xs.map fun x => { dest := x.dest, k := 0, data := if x.write then [] else poisonData, poison := true, mark := true })

/-- The scheduled transfers of a pseudo-channel's slot (R122, R123, R138, R225, R233, R235). `seqFail` says that a
command was not issued at its cycle: the sequencer check freezes the controller. `start` is the slot's first SCLK on the data
path. -/
def State.slotTransfers (s : State) (j slot start : Nat) (ecc : List EccObs) (seqFail : Bool) : State × List Delivery :=
  let plan := (s.pc j).due.foldl (fun p x => planOne (s.servedAt x) (s.addrOk j) (s.slotOwner j slot) start p x) {}
  let s := s.setPc j { s.pc j with due := plan.wait }
  let s := if seqFail ∧ s.serves (j / 2) then s.stopCtl (j / 2) (j % 2) 2 else s
  let served := s.serves (j / 2)
  let (s, ds) := s.carry j ecc 0 plan.issue
  let addrs := plan.issue.map (·.addr)
  let s := if served then (s.activateRows j (rowsOf addrs)).markSlot j addrs.length
      ((plan.issue.filter (·.write)).map (·.addr)) else s
  let s := s.setPc j { s.pc j with bytes := (s.pc j).bytes + 64 * addrs.length }
  let (s, es) := s.breachAll j plan.breach
  (s, ds ++ es)

/-- A unit's transfer asked of the pseudo-channel that holds its address. -/
def State.ask (s : State) (x : SXfer) : State :=
  let j := s.servedBy x
  s.setPc j { s.pc j with due := (s.pc j).due ++ [x] }

/-- Waiting transfers sent to the pseudo-channels that serve them now, after a change of the weight copy or its area (R308). -/
def State.rehome (s : State) : State :=
  let all := (s.heap.pch.map fun e => e.2.due.map fun x => (e.1, x)).flatten
  let gone := all.filter fun x => s.servedBy x.2 ≠ x.1
  let stay (x : SXfer) : Bool := !gone.any fun y => y.2 == x
  let s := { s with heap := { s.heap with pch := mmap pchDflt (fun p => { p with due := p.due.filter stay }) s.heap.pch } }
  gone.foldl (fun s x => s.ask x.2) s

/-- A transaction, written. -/
def State.setTxn (s : State) (id : Nat) (t : Option Txn) : State :=
  { s with xbar := { s.xbar with txns := pset s.xbar.txns id t } }

/-- A transaction's response, if it has none yet (R360). -/
def State.respond (s : State) (id : Nat) (err poison : Bool) (data : List Byte) : State :=
  match pget s.xbar.txns id with
  | some t => if t.resp.isSome then s else s.setTxn id (some { t with resp := some (err, poison, data), respAt := s.time.total })
  | none => s

/-- One heap part of a transaction done: its read data placed, poison noted; the response once no part is
outstanding (R234, R238). -/
def State.partDone (s : State) (id : Nat) (off : Nat) (data : List Byte) (poison : Bool) : State :=
  match pget s.xbar.txns id with
  | none => s
  | some t =>
    let d := if t.write then t.data else t.data.take off ++ data ++ t.data.drop (off + data.length)
    let t := { t with data := d, left := t.left - 1, bad := t.bad || poison }
    let s := s.setTxn id (some t)
    if t.left = 0 then s.respond id t.bad t.bad t.data else s

/-- The 64-byte parts of an access to `len` bytes from `a` on. -/
def heapParts (a len : Nat) (data : List Byte) : Nat → List HPart
  | 0 => []
  | fuel + 1 =>
    if len = 0 then []
    else
      let lo := a % 64
      let n := min len (64 - lo)
      { addr := a - lo, lo := lo, len := n, data := data.take n, merge := none }
        :: heapParts (a + n) (len - n) (data.drop n) fuel

/-- Whether the heap bridge can queue a part: the pseudo-channel has an `OPEN` slot in force, and its controller
serves (R113, R236). -/
def State.canQueue (s : State) (x : HPart) : Bool := s.hasOpen 0 (hPch x.addr) && s.serves (hCtl x.addr)

/-- A 1 µs window's rank among its 256 (R515). -/
def pressRank (page w : Nat) : Nat :=
  let k := Config.pressKey page w
  ((List.range 256).filter fun i =>
    let v := w / 256 * 256 + i
    decide (Config.pressKey page v < k) || (Config.pressKey page v == k && decide (v < w))).length

/-- Whether test back-pressure of a page acts now: in `BP_DUTY` of every 256 windows of 1 µs (R58, R515); which of them is
open (DESIGN CHOICE, notes/assumptions/11.md). -/
def State.pressed (s : State) (page : Nat) : Bool :=
  let duty := fld (s.hdr page hPerturb) 23 16
  duty != 0 && decide (pressRank page (s.rclk / 250) < duty)

/-- Whether a 1 µs window is one in which test back-pressure of a share acts. -/
def pressIn (key duty w : Nat) : Bool := duty != 0 && decide (pressRank key w < duty)

/-- How long the back-pressure of `TP_XB_t` (key 0x60 + t) or `TP_DMA` (key 0x68) has acted without a break, in SCLK, as far as 3
windows back (R515, R516). -/
def State.pressFor (s : State) (key duty : Nat) : Nat :=
  let w := s.time.total / 1500
  let n := (((List.range (min 3 w)).map fun i => pressIn key duty (w - 1 - i)).takeWhile id).length
  1500 * n + s.time.total % 1500

/-- Whether the back-pressure of a register of page 0x5F holds its port or engine now: in its share of the windows, for 2,048 FCLK at
a time at most (R515, R516; DESIGN CHOICE, notes/assumptions/280.md). -/
def State.testHeld (s : State) (key : Nat) (v : Word) : Bool :=
  pressIn key (fld v 23 16) (s.time.total / 1500) && decide (s.pressFor key (fld v 23 16) < 4096)

/-- The SCLK until such a hold may end. -/
def State.testLeft (s : State) (key : Nat) (v : Word) : Nat :=
  min (1500 - s.time.total % 1500) (4096 - s.pressFor key (fld v 23 16))

/-- `DELAY` of a register of page 0x5F, in SCLK (R515). -/
def testDelay (v : Word) : Nat := 2 * fld v 9 0

/-- Whether test back-pressure makes the bridge refuse a new request to a controller now (R245, R515). -/
def State.bridgeRefuses (s : State) (h : Nat) : Bool := s.pressed (0x40 + h / 32)

/-- A transaction taken into the heap bridge: its parts queue at their pseudo-channels, or it is answered with an
error response at once (R113, R134, R236). -/
def State.heapAccept (s : State) (id : Nat) : State :=
  match pget s.xbar.txns id with
  | none => s
  | some t =>
    let parts := heapParts t.addr t.len t.data (t.len + 1)
    if parts.isEmpty then s.respond id false false []
    else if parts.all s.canQueue ∧ !(parts.any fun x => s.bridgeRefuses (hCtl x.addr)) then
      let s := s.setTxn id (some { t with left := parts.length
                                          data := if t.write then t.data else List.replicate t.len 0 })
      let js := (parts.map fun x => hPch x.addr).eraseDups
      js.foldl (fun s j =>
        let q : HReq := { txn := id, qos := t.qos, write := t.write, parts := parts.filter fun x => hPch x.addr = j }
        s.setPc j { s.pc j with queue := (s.pc j).queue ++ [q] }) s
    else
      let s := (parts.filter fun x => !s.serves (hCtl x.addr)).foldl
        (fun s x => s.count R.POISON_OUT (hCtl x.addr)) s
      s.respond id true false []

/-- Whether a part is a partial write still to be read (R234). -/
def needsMerge (w : Bool) (x : HPart) : Bool := w && x.len != 64 && x.merge.isNone

/-- Whether a request's next work is a write: every part of it is ready to be written. -/
def wantsWrite (q : HReq) : Bool := q.write && !(q.parts.any (needsMerge true))

/-- The transfers that a request's next work takes: all of a read's or a ready write's parts, or the parts of a
partial write that must be read. -/
def reqWork (q : HReq) : List HPart := if wantsWrite q || !q.write then q.parts else q.parts.filter (needsMerge true)

/-- The queue in service order: higher QoS first, arrival order among equals (R124). -/
def serviceOrder (qs : List HReq) : List HReq :=
  (List.range 16).reverse.flatMap fun k => qs.filter fun q => min q.qos 15 = k

/-- Whether a request is held back by an earlier merge of the same transfer that is not yet written (R234). -/
def heldBack (before : List HReq) (q : HReq) : Bool :=
  before.any fun b => b.txn != q.txn && b.write && b.parts.any fun x => x.len != 64 && q.parts.any (·.addr == x.addr)

/-- Requests before `q` in a queue. -/
def beforeReq (qs : List HReq) (q : HReq) : List HReq := qs.takeWhile (· ≠ q)

/-- A slot's choice among requests: taken while the direction agrees and every transfer fits (R124). -/
def takeReqs : List (Bool × Nat) → List HReq → List HReq → List HReq
  | _, taken, [] => taken.reverse
  | acc, taken, q :: qs =>
    let w := wantsWrite q
    let add := (reqWork q).map fun x => (w, x.addr)
    let ok := (add.foldl (fun (st : List (Bool × Nat) × Bool) x =>
      if fitsSlot st.1 x.1 x.2 then (st.1 ++ [x], st.2) else (st.1, false)) (acc, true))
    if ok.2 then takeReqs ok.1 (q :: taken) qs else takeReqs acc taken qs

/-- Whether an open read transfer is the one that test injection makes uncorrectable (R245). -/
def State.injected (s : State) (h : Nat) : Bool :=
  fld (s.hdr (0x40 + h / 32) hPerturb) 35 32 == 3 && (mget (fun _ => 0) s.heap.openReads (h / 32) + 1) % 1024 == 0

/-- One open read transfer. -/
def State.openRead (s : State) (j a k : Nat) (ecc : List EccObs) : State × List Byte × Bool :=
  let o := eccOf ecc k
  let inj := s.injected (j / 2)
  let r := s.readXfer j a o.1 (o.2 || inj)
  let t := r.1
  let n := mget (fun _ => 0) t.heap.openReads (j / 64) + 1
  ({ t with heap := { t.heap with openReads := mset (fun _ => 0) t.heap.openReads (j / 64) n } }, r.2)

/-- A request's read parts served; `k` numbers the slot's transfers. -/
def State.serveReads (s : State) (j : Nat) (ecc : List EccObs) (base id : Nat) : Nat → List HPart → State
  | _, [] => s
  | k, x :: xs =>
    let (s, d, p) := s.openRead j x.addr k ecc
    let s := s.partDone id (x.addr + x.lo - base) ((d.drop x.lo).take x.len) p
    s.serveReads j ecc base id (k + 1) xs

/-- A partial write's merge reads: the parts with their buffers, and whether any was poisoned (R234). -/
def State.mergeReads (s : State) (j : Nat) (ecc : List EccObs) : Nat → List HPart → State × List HPart × Bool
  | _, [] => (s, [], false)
  | k, x :: xs =>
    if needsMerge true x then
      let (s, d, p) := s.openRead j x.addr k ecc
      let named := d.take x.lo ++ x.data ++ d.drop (x.lo + x.len)
      let (s, ys, q) := s.mergeReads j ecc (k + 1) xs
      (s, { x with merge := some named } :: ys, p || q)
    else
      let (s, ys, q) := s.mergeReads j ecc k xs
      (s, x :: ys, q)

/-- A request's writes carried out, whole transfers or merged ones. -/
def State.serveWrites (s : State) (j id : Nat) : List HPart → State
  | [] => s
  | x :: xs => ((s.writeXfer j x.addr (x.merge.getD x.data)).partDone id 0 [] false).serveWrites j id xs

/-- A request removed from a queue, or replaced by one with its merge buffers filled. -/
def State.requeue (s : State) (j : Nat) (old : HReq) (new : Option HReq) : State :=
  let p := s.pc j
  s.setPc j { p with queue := match new with
    | none => p.queue.filter (·.txn ≠ old.txn)
    | some q => p.queue.map fun x => if x.txn = old.txn then q else x }

/-- Whether an open write touches the weight copy in use (R309). -/
def State.weightRefused (s : State) (a len : Nat) : Bool :=
  let n := (s.rd R.WT_SIZE 0).toNat * 64
  let base := (s.rd R.WT_BASE 0).toNat * 64 + (if s.rdb R.WT_STAT 0 0 then n else 0)
  n != 0 && decide (a < base + n) && decide (base < a + len)

/-- Whether a request would write into the weight copy in use (R309). -/
def State.reqRefused (s : State) (q : HReq) : Bool :=
  q.write && q.parts.any fun x => s.weightRefused (x.addr + x.lo) x.len

/-- One chosen request's work in an `OPEN` slot. A write whose copy has come into use since it was queued is refused (R309). -/
def State.serveReq (s : State) (j : Nat) (ecc : List EccObs) (k : Nat) (q : HReq) : State :=
  let base := (pget s.xbar.txns q.txn).elim 0 (·.addr)
  if s.reqRefused q then ((s.requeue j q none).count R.WT_REFUSED 0).respond q.txn true false []
  else if !q.write then (s.requeue j q none).serveReads j ecc base q.txn k q.parts
  else if wantsWrite q then (s.requeue j q none).serveWrites j q.txn q.parts
  else
    let (s, ps, bad) := s.mergeReads j ecc k q.parts
    if bad then (s.requeue j q none).respond q.txn true true [] else s.requeue j q (some { q with parts := ps })

/-- The chosen requests served in order. -/
def State.serveAll (s : State) (j : Nat) (ecc : List EccObs) : Nat → List HReq → State
  | _, [] => s
  | k, q :: qs => (s.serveReq j ecc k q).serveAll j ecc (k + (reqWork q).length) qs

/-- An `OPEN` slot of a pseudo-channel (R124, R234). In stress mode it is filled to 85 with synthetic reads,
which count into the load mark (R141). -/
def State.openSlot (s : State) (j : Nat) (ecc : List EccObs) : State :=
  let s := ((s.pc j).queue.filter s.reqRefused).foldl (fun s q => s.serveReq j ecc 0 q) s
  let q := (s.pc j).queue
  let ready := (serviceOrder q).filter fun r => !heldBack (beforeReq q r) r
  let chosen := takeReqs [] [] ready
  let w := (chosen.head?.map wantsWrite).getD false
  let chosen := chosen.filter fun r => wantsWrite r == w
  let addrs := (chosen.map reqWork).flatten.map (·.addr)
  let s := s.serveAll j ecc 0 chosen
  let n := if s.sched.stress then 85 else addrs.length
  if n = 0 then s else (s.activateRows j (rowsOf addrs)).markSlot j n (if w then addrs else [])

/-- Every request queued at a pseudo-channel answered with an error response (R113, R236). -/
def State.failQueue (s : State) (j : Nat) : State :=
  let q := (s.pc j).queue
  q.foldl (fun s r => s.respond r.txn true false []) (s.setPc j { s.pc j with queue := [] })

/-- The longest run of ones of a mask of `n` taps: its first tap and its width, the earliest of equals (R224). -/
def longestRun (mask : Nat) : Nat → Nat → Nat → Nat × Nat → Nat × Nat
  | 0, _, _, best => best
  | n + 1, i, run, best =>
    if mask.testBit i then
      longestRun mask n (i + 1) (run + 1) (if best.2 < run + 1 then (i - run, run + 1) else best)
    else longestRun mask n (i + 1) 0 best

/-- The eye of a sweep of 128 taps: centre and width (R224). -/
def eye (mask : Nat) : Nat × Nat :=
  let (first, width) := longestRun mask 128 0 0 (0, 0)
  (first + (width - 1) / 2, width)

/-- Whether every eye of a list of sweeps is at least 24 taps wide. -/
def eyesOpen (masks : List Nat) : Bool := masks.all fun m => decide (24 ≤ (eye m).2)

/-- `TRN_LANE_k` for a read and a write sweep (R246). -/
def laneWord (rd wr : Nat) : Word :=
  word (at_ 24 (eye wr).2 + at_ 16 (eye wr).1 + at_ 8 (eye rd).2 + (eye rd).1)

/-- The stack's latest temperature reading (`HC_TEMP`), signed. -/
def State.stackTemp (s : State) (h : Nat) : BitVec 8 := BitVec.ofNat 8 (s.rdf R.HC_TEMP (h / 32 * 32) 7 0)

/-- Whether the stack of a controller is hot (R229). -/
def State.stackHot (s : State) (h : Nat) : Bool := s.rdb R.HC_TEMP (h / 32 * 32) 8

/-- Zero written into every transfer of a controller (R223 step 5). -/
def State.zeroFill (s : State) (h : Nat) : State := s.heapDrop h none

end Sys2Proof.Machine
end

