-- ==== Sys2Proof/Machine/LineOps.lean ====
section
/-! DEFINITION. The line coding of brine lanes (R148 to R152): 66-bit blocks, the scrambler, control blocks with their check, the
lanes' transmit and receive ends, error injection (R171) and the PRBS patterns (R169). -/

namespace Sys2Proof.Machine

/-- A lane at reset. -/
def laneDflt (_ : Nat) : Lane := {}
/-- A lane. -/
def State.lane (s : State) (l : Nat) : Lane := mget laneDflt s.links.lane l
/-- A lane, written. -/
def State.setLane (s : State) (l : Nat) (v : Lane) : State :=
  { s with links := { s.links with lane := mset laneDflt s.links.lane l v } }

/-- The sync header of a data block and of a control block (R148). -/
def syncData : BitVec 2 := 1
/-- The sync header of a control block. -/
def syncCtl : BitVec 2 := 2

/-- One step of the scrambler's history: `n` bits that have gone onto the line. Bit 57 is the latest. -/
def scrPush (h : Nat) (n bits : Nat) : Nat := h / 2 ^ n + bits * 2 ^ (58 - n)
/-- The two taps of x^58 + x^39 + 1 for the next `n` ≤ 39 bits. -/
def scrTaps (h n : Nat) : Nat := (h / 2 ^ 19 ^^^ h) % 2 ^ n

/-- A payload scrambled (R148), with the history after it. -/
def scramble (h : BitVec 58) (d : Word) : Word × BitVec 58 :=
  let a := (d.toNat % 2 ^ 39) ^^^ scrTaps h.toNat 39
  let h1 := scrPush h.toNat 39 a
  let b := (d.toNat / 2 ^ 39) ^^^ scrTaps h1 25
  (word (a + b * 2 ^ 39), BitVec.ofNat 58 (scrPush h1 25 b))

/-- A payload descrambled (R148), with the history after it. -/
def descramble (h : BitVec 58) (x : Word) : Word × BitVec 58 :=
  let a := x.toNat % 2 ^ 39
  let h1 := scrPush h.toNat 39 a
  let b := x.toNat / 2 ^ 39
  (word ((a ^^^ scrTaps h.toNat 39) + (b ^^^ scrTaps h1 25) * 2 ^ 39), BitVec.ofNat 58 (scrPush h1 25 b))

/-- CRC-8 of a control block's field (R150): x^8 + x^2 + x + 1 from 0, over [55:8] from bit 55 down. -/
def chk8 (f : Nat) : Nat :=
  (List.range 48).foldl (fun c i =>
    let top := c / 128 ^^^ f / 2 ^ (55 - i) % 2
    (2 * c % 256) ^^^ (if top = 1 then 7 else 0)) 0

/-- Block types (R149). -/
def blkIdle : Nat := 0x1E
/-- `START`. -/
def blkStart : Nat := 0x2D
/-- `TS`. -/
def blkTs : Nat := 0x33
/-- `NEG`. -/
def blkNeg : Nat := 0x4B

/-- The payload of a control block (R149, R150): `body` is its bits [41:8], in place. -/
def ctlPayload (type lane bcnt body : Nat) : Word :=
  let f := at_ 54 lane + at_ 42 (bcnt % 4096) + body
  word (type + 256 * (f + chk8 f))

/-- Whether a control block's `CHK` is right. -/
def chkOk (payload : Word) : Bool := chk8 (fld payload 63 8) == fld payload 15 8

/-- A block to be sent on a link: a data word, or a control block of a type with its body. -/
inductive TxBlock where
  | data (w : Word)
  | ctl (type body : Nat)
  deriving DecidableEq, Repr

/-- The 66 bits of a block on its lane before scrambling: header and payload. -/
def TxBlock.bits (b : TxBlock) (lane bcnt : Nat) : BitVec 2 × Word :=
  match b with
  | .data w => (syncData, w)
  | .ctl t body => (syncCtl, ctlPayload t lane bcnt body)

/-- The bits of a block that error injection inverts (R171): the next ones of a burst, and one in every 2^`RATE_EXP` bits where
the rate acts. Bits 1 and 0 are the header. -/
def Lane.flips (v : Lane) (rate : Nat) : Nat :=
  let burst := 2 ^ min v.inj 66 - 1
  let p := (2 ^ rate - 1 - v.sentBits % 2 ^ rate)
  burst ^^^ (if rate ≠ 0 ∧ p < 66 then 2 ^ p else 0)

/-- A block put on a lane: scrambled, spoilt by injection, inverted by `TX_INVERT`. `rate` is `RATE_EXP` where it acts. -/
def State.laneSend (s : State) (l rate : Nat) (sync : BitVec 2) (payload : Word) : State :=
  let v := s.lane l
  let (x, h) := scramble v.scrTx payload
  let inv := if s.rdb R.LANE_XCFG l 1 then 2 ^ 66 - 1 else 0
  let n := (sync.toNat + 4 * x.toNat) ^^^ v.flips rate ^^^ inv
  let s := s.setLane l { v with scrTx := h, inj := v.inj - 66, sentBits := v.sentBits + 66 }
  s.emit (.line l (BitVec.ofNat 2 n) (word (n / 4)))

/-- A received block: inverted back by `RX_INVERT` and descrambled. -/
def State.laneTake (s : State) (l : Nat) (sync : BitVec 2) (payload : Word) : (BitVec 2 × Word) × State :=
  let v := s.lane l
  let inv := s.rdb R.LANE_XCFG l 2
  let p := if inv then ~~~payload else payload
  let (d, h) := descramble v.scrRx p
  ((if inv then ~~~sync else sync, d), s.setLane l { v with scrRx := h })

/-- A sync header noted (R151): whether it is valid, the lane's last 64 and its run of valid ones. -/
def Lane.header (v : Lane) (ok : Bool) : Lane :=
  { v with heads := (ok :: v.heads).take 64, good := if ok then v.good + 1 else 0 }

/-- Invalid headers among the last 64. -/
def Lane.bads (v : Lane) : Nat := (v.heads.filter fun b => !b).length

/-- Order and second tap of a PRBS pattern (R169). -/
def prbsTaps (pat : Nat) : Nat × Nat := ([(7, 6), (15, 14), (31, 28)] : List (Nat × Nat)).getD pat (7, 6)

/-- The next bit of a pattern after the bits of a register, the latest in bit 0. -/
def prbsNext (pat reg : Nat) : Nat :=
  let (n, k) := prbsTaps pat
  (reg / 2 ^ (n - 1) + reg / 2 ^ (k - 1)) % 2

/-- A bit shifted into a pattern's register. -/
def prbsPush (pat reg b : Nat) : Nat := (2 * reg + b) % 2 ^ (prbsTaps pat).1

/-- `n` bits of a pattern, the first in bit 0, and the register after them. -/
def prbsBits (pat : Nat) : Nat → Nat → Nat × Nat
  | reg, 0 => (0, reg)
  | reg, n + 1 =>
    let b := prbsNext pat reg
    let (x, r) := prbsBits pat (prbsPush pat reg b) n
    (b + 2 * x, r)

/-- The generator of a lane started by `GEN_EN` (R169), from bits that the spec does not name and that are not all zero
(a free value: notes/assumptions/267.md). -/
def State.genStart (s : State) (l : Nat) : State :=
  let (i, s) := s.fresh
  let n := (prbsTaps (s.rdf R.PRBS_CTRL l 3 2)).1
  s.setLane l { s.lane l with gen := 1 + Config.prbsSeed i % (2 ^ n - 1) }

/-- Raw pattern bits sent on a lane (R169), spoilt by injection. -/
def State.genSend (s : State) (l n : Nat) : State :=
  let v := s.lane l
  let (x, r) := prbsBits (s.rdf R.PRBS_CTRL l 3 2) v.gen n
  let rate := s.rdf R.LANE_INJ l 7 2
  let flips := (2 ^ min v.inj n - 1) ^^^ (if rate = 0 then 0 else
    ((List.range n).map fun i => if (v.sentBits + i + 1) % 2 ^ rate = 0 then 2 ^ i else 0).sum)
  let s := s.setLane l { v with gen := r, inj := v.inj - n, sentBits := v.sentBits + n }
  s.emit (.raw l n (x ^^^ flips))

end Sys2Proof.Machine
end

