-- ==== Sys2Proof/Machine/LinkOps.lean ====
section
/-! DEFINITION. The operations of brine links and lanes (spec/06): cells and their checks, receive buffers, credits and
replay, the states of R163, negotiation of width, sleep and retrain. -/

namespace Sys2Proof.Machine

/-- A link at reset. -/
def linkDflt (_ : Nat) : Link := {}

/-- A link. -/
def State.lk (s : State) (q : Nat) : Link := mget linkDflt s.links.link q
/-- A link, written. -/
def State.setLk (s : State) (q : Nat) (l : Link) : State :=
  { s with links := { s.links with link := mset linkDflt s.links.link q l } }

/-- Link states (R163). -/
def lkDisabled : Nat := 0
/-- `DETECT`. -/
def lkDetect : Nat := 1
/-- `LOCK`. -/
def lkLock : Nat := 2
/-- `DESKEW`. -/
def lkDeskew : Nat := 3
/-- `PARAM`. -/
def lkParam : Nat := 4
/-- `ACTIVE`. -/
def lkActive : Nat := 5
/-- `SLEEP`. -/
def lkSleep : Nat := 6
/-- `WAKE`. -/
def lkWake : Nat := 7
/-- `PRBS`. -/
def lkPrbs : Nat := 8
/-- `FAULT`. -/
def lkFault : Nat := 9

/-- Causes of `LINK_STAT.LAST_CAUSE` (R183). -/
def cNoLock : Nat := 1
/-- `SKEW`. -/
def cSkew : Nat := 2
/-- `LANE_ORDER`. -/
def cLaneOrder : Nat := 3
/-- `PARAM_TIMEOUT`. -/
def cParamTimeout : Nat := 4
/-- `SELF_LOOP`. -/
def cSelfLoop : Nat := 5
/-- `REPLAY_LIMIT`. -/
def cReplayLimit : Nat := 6
/-- Lock loss. -/
def cLockLoss : Nat := 7
/-- Retrain by command. -/
def cCommand : Nat := 8
/-- Retrain by the peer. -/
def cPeer : Nat := 9
/-- Mode or rate change. -/
def cMode : Nat := 10

/-- `LINK_STAT.STATE`. -/
def State.lkState (s : State) (q : Nat) : Nat := s.rdf R.LINK_STAT q 3 0
/-- Whether a link is `ACTIVE`. -/
def State.lkUp (s : State) (q : Nat) : Bool := s.lkState q == lkActive
/-- The width in force. -/
def State.lkWidth (s : State) (q : Nat) : Nat := s.rdf R.LINK_STAT q 17 16
/-- `LINK_STAT.NEG`. -/
def State.lkNeg (s : State) (q : Nat) : Nat := s.rdf R.LINK_STAT q 27 24
/-- `LINK_STAT.NEG`, written. -/
def State.setNeg (s : State) (q n : Nat) : State := s.wrf R.LINK_STAT q 27 24 n
/-- The page of a quad. -/
def brinePage (q : Nat) : Nat := 0x50 + q / 64
/-- The page of a lane. -/
def lanePage (l : Nat) : Nat := 0x48 + l / 128
/-- `QUAD_MODE.MODE`. -/
def State.quadMode (s : State) (q : Nat) : Nat := s.rdf R.QUAD_MODE q 1 0
/-- The lanes of a width code. -/
def lanesOf (w : Nat) : Nat := 2 ^ w
/-- Lanes 0 to `n` − 1 of a quad. -/
def quadLanes (q n : Nat) : List Nat := (List.range n).map (4 * q + ·)

/-- Whether the running image schedules a link (R167). -/
def State.lkSched (s : State) (q : Nat) : Bool :=
  s.hasUnit 3 q || (match s.image with
    | some m => (progSect m tyLinkrx q).isSome
    | none => false)

/-- `LINK_STAT` as it reads: `SCHED` follows the running image (R167, R183). -/
def State.linkStat (s : State) (q : Nat) : Word := putBit (s.rd R.LINK_STAT q) 31 (s.lkSched q)

/-- Lane bits of several lanes, put to a value. -/
def State.laneBits (s : State) (ls : List Nat) (i : Nat) (b : Bool) : State :=
  ls.foldl (fun s l => s.wrb R.LANE_STAT l i b) s

/-- Lanes whose receivers lose their blocks: `BLOCK_LOCK` and `DESKEWED` clear, and `SIGNAL` where the signal ends (R181). -/
def State.lanesLost (s : State) (ls : List Nat) (signal : Bool) : State :=
  let s := (s.laneBits ls 1 false).laneBits ls 2 false
  let s := if signal then s.laneBits ls 0 false else s
  ls.foldl (fun s l => s.setLane l { s.lane l with heads := [], good := 0, rxCount := 0 }) s

/-- A link's state code, written, with what it makes of the lanes (R145, R163, R181): all in electrical idle, or those up to
`WIDTH_MAX` sending; `PRBS` carries no blocks. -/
def State.setLkState (s : State) (q st : Nat) : State :=
  let s := s.wrf R.LINK_STAT q 3 0 st
  let all := quadLanes q 4
  let n := lanesOf (s.rdf R.LINK_CFG q 1 0)
  if st = lkDisabled ∨ st = lkSleep ∨ st = lkFault then (s.laneBits all 4 true).lanesLost all true
  else if st = lkDetect ∨ st = lkLock ∨ st = lkWake then
    let s := (s.laneBits (all.take n) 4 false).laneBits (all.drop n) 4 true
    s.setLk q { s.lk q with txBlk := 0, blkAt := s.time.total, cell := none, round := none, skews := [], tsOut := false
                            frags := [], readies := 0, trainAt := if st = lkLock then (s.lk q).trainAt else s.time.total }
  else if st = lkPrbs then s.lanesLost all false
  else s

/-- A link leaving `ACTIVE` or failing training with a cause: `LAST_CAUSE`, and `LINK_DOWN` if it was `ACTIVE`. The
open negotiation ends. -/
def State.lkDown (s : State) (q st cause : Nat) : State :=
  let s := if s.lkUp q then s.raise (brinePage q) 1 else s
  let s := if cause = 0 then s else s.wrf R.LINK_STAT q 47 40 cause
  let s := ((s.setNeg q 0).wrb R.LINK_STAT q 30 false).setLkState q st
  if cause = 0 then s else s.report (brinePage q) (q % 64) 0x0F (s.linkStat q) (s.rd R.LANE_STAT (4 * q))

/-- Entry to `DETECT`: a full training, with a new `SESSION` from `DISABLED` or `FAULT` (R164). -/
def State.lkDetectEntry (s : State) (q cause : Nat) : State :=
  let st := s.lkState q
  let l := s.lk q
  let l := { l with full := true, later := none
                    session := if st = lkDisabled ∨ st = lkFault then (l.session + 1) % 32768 else l.session }
  let s := (s.setLk q l).wrb R.LINK_STAT q 29 false
  (s.lkDown q lkDetect cause).lanesLost (quadLanes q 4) false

/-- A retrain: `ACTIVE` to `LOCK` (R163, R177, R178), counted in `RETRAINS`. -/
def State.lkRetrain (s : State) (q cause : Nat) : State :=
  let s := s.countf R.NEG_COUNT q 63 48
  let s := s.setLk q { s.lk q with full := false, trainAt := s.time.total }
  (s.lkDown q lkLock cause).lanesLost (quadLanes q 4) false

/-- What the page's `ENABLE` and the quad's `MODE` make of a link (R163). `rate` says that the quad's mode or rate
has just changed (R146). -/
def State.lkEval (s : State) (q : Nat) (rate : Bool) : State :=
  let on := s.enabled (brinePage q) && s.quadMode q == 1
  let c := if rate then cMode else 0
  if !on then
    if s.lkState q = lkDisabled then s
    else s.lkDown q lkDisabled c
  else if s.lkState q = lkDisabled then s.lkDetectEntry q 0
  else if rate then s.lkDetectEntry q cMode
  else s

/-- Bits that a lane of a mode and rate carries in `n` SCLK (R145): 64/3, 32/3 or 55/8 bits an SCLK on a brine link,
275/16 on an Ethernet port. -/
def laneBitsIn (mode rate n : Nat) : Nat :=
  if mode = 2 then 275 * n / 16
  else if mode = 1 then (if rate = 0 then 64 * n / 3 else if rate = 1 then 32 * n / 3 else 55 * n / 8)
  else 0

/-- Bits that a lane's locked checker has checked and `PRBS_BITS` does not hold yet (R169). -/
def State.prbsNew (s : State) (l : Nat) : Nat :=
  match (s.lane l).prbsAt with
  | some t => laneBitsIn (s.quadMode (l / 4)) (s.rdf R.QUAD_MODE (l / 4) 9 8) (s.time.total - t)
  | none => 0

/-- Those bits added, and the checker's count going on from a time, or ended (R169). -/
def State.prbsFold (s : State) (l : Nat) (next : Option Nat) : State :=
  let n := s.prbsNew l
  let s := if n = 0 then s else s.count R.PRBS_BITS l n
  if (s.lane l).prbsAt = next then s else s.setLane l { s.lane l with prbsAt := next }

/-- The checker's lock, gained or lost (R169). -/
def State.prbsLock (s : State) (l : Nat) (on : Bool) : State :=
  (s.prbsFold l (if on then some s.time.total else none)).wrb R.LANE_STAT l 3 on

/-- The checker reseeded, without lock (R169). -/
def State.prbsReseed (s : State) (l : Nat) : State :=
  let s := s.prbsLock l false
  s.setLane l { s.lane l with chk := 0, chkGot := 0, chkRun := 0, chkHits := [] }

/-- Whether the last 64 bits of a locked checker hold 16 mismatches. -/
def Lane.lostPrbs (v : Lane) : Bool := decide (16 ≤ (v.chkHits.filter fun b => !b).length)

/-- One received bit in a lane's checker (R169, R170). Unlocked, it seeds itself from the bits and locks after 64 that match in a
row; locked, it counts each mismatch, and 16 of 64 drop the lock. -/
def State.prbsBit (s : State) (l : Nat) (b : Bool) : State :=
  let pat := s.rdf R.PRBS_CTRL l 11 10
  let v := s.lane l
  let hit := prbsNext pat v.chk == b2n b
  if s.rdb R.LANE_STAT l 3 then
    let v := { v with chk := prbsPush pat v.chk (prbsNext pat v.chk), chkHits := (hit :: v.chkHits).take 64 }
    let s := if hit then s.setLane l v else (s.setLane l v).count R.PRBS_ERR l
    if v.lostPrbs then ((s.prbsReseed l).count R.PRBS_RESYNC l).raise (lanePage l) 1 else s
  else
    let seeded := decide ((prbsTaps pat).1 ≤ v.chkGot)
    let run := if seeded && hit then v.chkRun + 1 else 0
    let s := s.setLane l { v with chk := prbsPush pat v.chk (b2n b), chkGot := v.chkGot + 1, chkRun := run, chkHits := [] }
    if run = 64 then s.prbsLock l true else s

/-- Received bits in a lane's checker while `CHK_EN` is 1. -/
def State.prbsCheck (s : State) (l : Nat) (bits : List Bool) : State :=
  if s.rdb R.PRBS_CTRL l 9 then bits.foldl (fun s b => s.prbsBit l b) s else s

/-- `QUAD_MODE` put into force (R146): the lanes of an unused quad are in electrical idle, those of a port are not (R145). -/
def State.setQuadMode (s : State) (q : Nat) (v : Word) : State :=
  let old := s.rd R.QUAD_MODE q
  if v = old then s
  else
    let s := (quadLanes q 4).foldl (fun s l => s.prbsFold l ((s.lane l).prbsAt.map fun _ => s.time.total)) s
    let s := (s.wr R.QUAD_MODE q v).lkEval q true
    if fld v 1 0 = 1 then s else s.laneBits (quadLanes q 4) 4 (fld v 1 0 != 2)

/-- A cell's bytes. -/
def cellBytes (ws : List Word) : List Byte := (ws.map fun w => leBytes 8 w.toNat).flatten

/-- Whether a cell's CRC is right (R153). -/
def cellOk (ws : List Word) : Bool := crc32c ((cellBytes ws).drop 4) == fld (ws.headD 0) 31 0

/-- A cell with its CRC put in; `bad` spoils it (R182). -/
def sealCell (ws : List Word) (bad : Bool) : List Word :=
  match ws with
  | [] => []
  | w :: rest =>
    let c := crc32c ((cellBytes (w :: rest)).drop 4)
    setFld w 31 0 (if bad then c ^^^ 0xFFFFFFFF else c) :: rest

/-- A cell's type. -/
def cellType (ws : List Word) : Nat := fld (ws.headD 0) 63 60
/-- A cell's word. -/
def cellWord (ws : List Word) (i : Nat) : Word := ws.getD i 0
/-- Array time now, in SCLK since the epoch start. -/
def State.nowSclk (s : State) : Nat := s.time.tide * tideSclk + s.time.pos

/-- The time of the data path in SCLK. -/
def State.imgNow (s : State) : Nat := s.sched.age * tideSclk + s.time.pos

/-- The array time of an SCLK of the data path, from the epoch start. -/
def State.arr (s : State) (t : Nat) : Int := (t : Int) + ((s.time.tide : Int) - s.sched.age) * tideSclk

/-- The first SCLK of a tide. -/
def State.atBoundary (s : State) : Bool := s.time.pos == 0
/-- The SCLK of the data path at an array time. -/
def State.imgOf (s : State) (t : Nat) : Nat := t + s.imgNow - s.nowSclk

/-- Whether a `LINKRX_PROG` instruction is ignored (R159). -/
def linkrxBad (w : Word) : Bool :=
  let op := fld w 63 60
  if op = 1 then fld w 35 0 != 0 || decide (4095 < fld w 59 48 + fld w 47 36)
  else if op = 2 then fld w 55 0 != 0
  else true

/-- The instructions of the program bound to a unit. -/
def progWords (m : Memory) (ty u : Nat) : List Word :=
  match progSect m ty u with
  | some x => (List.range (progLen m x)).map fun i => m.word (x.off + 64 + 8 * i)
  | none => []

/-- The `LINKRX_PROG` of a quad in the running image. -/
def State.linkrx (s : State) (q : Nat) : List Word :=
  match s.image with
  | some m => progWords m tyLinkrx q
  | none => []

/-- Whether a stream is expected on a quad (R159). -/
def State.expects (s : State) (q stream : Nat) : Bool :=
  (s.linkrx q).any fun w => !linkrxBad w && fld w 63 60 == 1
    && decide (fld w 59 48 ≤ stream) && decide (stream ≤ fld w 59 48 + fld w 47 36)

/-- Whether partial sums of a pan row are expected on a quad. -/
def State.expectsRow (s : State) (q row : Nat) : Bool :=
  (s.linkrx q).any fun w => !linkrxBad w && fld w 63 60 == 2 && fld w 59 56 == row

/-- The unit and slot that the running image binds a stream to (R184). -/
def State.bindOf (s : State) (stream : Nat) : Option (Nat × Nat) :=
  match s.image with
  | none => none
  | some m =>
    (List.range 256).findSome? fun u =>
      ((progWords m tySluice u).find? fun w => fld w 63 60 == 2 && fld w 59 48 == stream).map
        fun w => (u, fld w 47 44)

/-- What makes two scheduled cells copies of each other (R157 check 7): type and stream, or type, row and block. -/
def cellIdent (ws : List Word) : Nat :=
  let w := cellWord ws 0
  if cellType ws = 1 then at_ 12 1 + fld w 55 44 else at_ 12 5 + fld w 55 44

/-- Whether a scheduled cell's copy has been consumed. -/
def State.wasConsumed (s : State) (ws : List Word) : Bool :=
  s.links.consumed.contains (cellIdent ws, (cellWord ws 1).toNat)

/-- Whether a cell's header has a reserved bit set or a `LEN` above 240 (R157 check 2; R153, R154, R491, R500). -/
def cellFormBad (ws : List Word) : Bool :=
  let w := cellWord ws 0
  match cellType ws with
  | 1 => fld w 57 56 != 0
  | 5 => fld w 57 56 != 0
  | 2 => fld w 59 56 != 0 || decide (240 < fld w 43 32) || fld (cellWord ws 1) 49 0 != 0
  | 3 => fld w 59 56 != 0 || decide (240 < fld w 43 32) || fld (cellWord ws 1) 43 40 != 0
  | 4 => false
  | _ => true

/-- A missing scheduled cell, counted at the receiver (R138). -/
def State.linkBreach (s : State) (q : Nat) : State := s.breach R.BR_LINK 6 q

/-- P of the sluice unit that a stream's binding names (R184). -/
def State.streamP (s : State) (stream : Nat) : Option Nat :=
  match s.bindOf stream, s.image with
  | some (u, _), some m =>
    ((progWords m tySluice u).find? fun w => fld w 63 60 == 1).map fun w => fld w 59 52 + 1
  | _, _ => none

/-- The stream's next cell expected on a quad after the one of a `TIME` (R138, R154). -/
def State.expectNext (s : State) (q stream time : Nat) : State :=
  match s.streamP stream with
  | some p => { s with links := { s.links with due := pset s.links.due stream (some (q, time + 120 * p)) } }
  | none => s

/-- A scheduled cell dropped as late (R138): it was missing at its release. Its breach is counted, unless that release has
counted it already. -/
def State.lateCell (s : State) (q : Nat) (ws : List Word) : State :=
  let w := cellWord ws 0
  let t := (cellWord ws 1).toNat
  if cellType ws = 1 then
    let stream := fld w 55 44
    if (pget s.links.due stream).any fun d => decide (t < d.2) then s
    else (s.linkBreach q).expectNext q stream t
  else
    let s := s.linkBreach q
    s.setLk q { s.lk q with lates := (at_ 12 (fld w 55 52) + fld w 43 32) :: (s.lk q).lates.take 511 }

/-- A partial-sum cell missing at its closing step on a quad (R138): counted once. -/
def State.psumAbsent (s : State) (q row seq : Nat) : State :=
  let k := at_ 12 row + seq
  if (s.lk q).lates.contains k then s.setLk q { s.lk q with lates := (s.lk q).lates.erase k } else s.linkBreach q

/-- A scheduled cell's arrival (R157 checks 1 to 7 and R158). -/
def State.rxScheduled (s : State) (q : Nat) (ws : List Word) : State :=
  let w := cellWord ws 0
  let l := s.lk q
  let rel := (cellWord ws 1).toNat + s.rdf R.RX_BOUND q 15 0
  let sample := cellType ws = 1
  if !cellOk ws then s.count R.DROP_CRC q
  else if cellFormBad ws then s.count R.DROP_FORM q
  else if (if sample then !(s.expects q (fld w 55 44)) || (s.bindOf (fld w 55 44)).isNone
      else !(s.expectsRow q (fld w 55 52))) then s.count R.DROP_FORM q
  else if rel < s.nowSclk then (s.count R.DROP_TIME q).lateCell q ws
  else if s.nowSclk + 65536 < rel then s.count R.DROP_TIME q
  else if 512 ≤ l.rx.length then s.count R.DROP_OVF q
  else if s.wasConsumed ws then s.count R.DROP_DUP q
  else
    let avail := if s.sched.stress then rel else s.nowSclk + 64
    let stream := fld w 55 44
    let seq := fld w 43 32
    let prev := mget (fun _ => (0, false)) l.lastSeq stream
    let s := if sample ∧ prev.2 ∧ seq ≠ (prev.1 + 1) % 4096 then s.count R.SEQ_JUMP q else s
    let l := { l with rx := l.rx ++ [{ words := ws, avail := avail, release := rel }]
                      lastSeq := if sample then mset (fun _ => (0, false)) l.lastSeq stream (seq, true)
                        else l.lastSeq }
    (s.setLk q l).count R.CELLS_RX q

/-- The release time of the next cells to be released on a link. -/
def Link.nextRelease (l : Link) : Option Nat := (l.rx.map (·.release)).min?

/-- The cells of a link released at a time, consumed once each; a cell not yet available is missing (R132, R138). -/
def State.takeReleased (s : State) (q t : Nat) : State × List (List Word) :=
  let l := s.lk q
  let due := l.rx.filter fun c => c.release = t
  let s := s.setLk q { l with rx := l.rx.filter fun c => c.release ≠ t }
  due.foldl (fun (acc : State × List (List Word)) c =>
    let s := acc.1
    if t < c.avail then (s.lateCell q c.words, acc.2)
    else if s.wasConsumed c.words then (s.count R.DROP_DUP q, acc.2)
    else
      let keep := s.links.consumed.filter fun k => t ≤ k.2 + 65536
      let s1 : State := { s with links := { s.links with
        consumed := (cellIdent c.words, (cellWord c.words 1).toNat) :: keep } }
      (if cellType c.words = 1 then s1.expectNext q (fld (cellWord c.words 0) 55 44) (cellWord c.words 1).toNat else s1,
       acc.2 ++ [c.words])) (s, [])

/-- When an expected cell is found absent, in array time: the SCLK after its release (R132). -/
def State.absentAt (s : State) (d : Nat × Nat) : Nat := d.2 + s.rdf R.RX_BOUND d.1 15 0 + 1

/-- Whether a stream's cell of a `TIME` waits in some receive buffer. -/
def State.cellWaits (s : State) (stream time : Nat) : Bool :=
  s.links.link.any fun e => e.2.rx.any fun c =>
    cellType c.words == 1 && fld (cellWord c.words 0) 55 44 == stream && (cellWord c.words 1).toNat == time

/-- The streams' cells that are absent by now, counted (R138). -/
def State.absentNow (s : State) : State :=
  let late := s.links.due.filterMap fun e => e.2.bind fun d => if s.nowSclk < s.absentAt d then none else some (e.1, d)
  late.foldl (fun s e =>
    let s1 := if s.cellWaits e.1 e.2.2 ∨ !s.expects e.2.1 e.1 then s else s.linkBreach e.2.1
    match s1.streamP e.1 with
    | some _ => s1.expectNext e.2.1 e.1 e.2.2
    | none => { s1 with links := { s1.links with due := pset s1.links.due e.1 none } }) s

/-- Cells of a type in a link's receive buffers (R161): those that delay holds, and mesh cells that the bridge has not taken. -/
def State.rxHeld (s : State) (q type : Nat) : Nat :=
  ((s.lk q).held.filter fun h => cellType h.2.1 = type).length
    + (if type = 3 then (s.mesh.inbox.filter fun c => c.1 = q).length else 0)

/-- A receive buffer freed: one more credit for the peer (R161). -/
def State.freeBuf (s : State) (q type : Nat) : State :=
  let l := s.lk q
  s.setLk q (if type = 2 then { l with freedC := (l.freedC + 1) % 256 } else { l with freedM := (l.freedM + 1) % 4096 })

/-- Control or mesh cell: accepted in `SEQ` order into its receive buffer, or dropped with `NAK` set (R150, R157, R161, R162). The
flag says that the cell was accepted. -/
def State.rxInOrder (s : State) (q : Nat) (ws : List Word) : State × Bool :=
  let l := s.lk q
  let w := cellWord ws 0
  let s1 := s.setLk q { l with nak := true }
  if !cellOk ws then (s1.count R.DROP_CRC q, false)
  else if cellFormBad ws then (s1.count R.DROP_FORM q, false)
  else if (if cellType ws = 2 then 32 else 256) ≤ s.rxHeld q (cellType ws) then (s1.count R.DROP_OVF q, false)
  else if fld w 55 44 ≠ l.rxSeq then (s1, false)
  else ((s.setLk q { l with nak := false, rxSeq := (l.rxSeq + 1) % 4096 }).count R.CELLS_RX q, true)

/-- `DELAY` of a link's page in SCLK, where perturbation acts (R182): 2 SCLK to an FCLK. -/
def State.rxDelay (s : State) (q : Nat) : Nat := if s.lkSched q then 0 else 2 * fld (s.hdr (brinePage q) hPerturb) 9 0

/-- Cells per slot by rate and width code (R131, R160). -/
def slotCells (rate width : Nat) : Nat := ([[2, 5, 10], [1, 2, 5], [0, 1, 3]].getD rate []).getD width 0

/-- The peer's latest `ACK` taken (R162): the cells up to the acknowledged one leave the replay buffer, and the count of
consecutive resends restarts. -/
def Link.acked (l : Link) (ack : Nat) : Link :=
  match l.replay.findIdx? fun c => fld (cellWord c 0) 55 44 = ack with
  | none => l
  | some i => { l with replay := l.replay.drop (i + 1), resends := 0
                       resend := l.resend.map fun k => k - (i + 1) }

/-- Whether credit and replay space let an open cell be sent (R161, R162). -/
def Link.maySend (l : Link) (ws : List Word) : Bool :=
  decide (l.replay.length < 288) &&
    (if cellType ws = 2 then (l.credC + 256 - l.sentC % 256) % 256 != 0
     else (l.credM + 4096 - l.sentM % 4096) % 4096 != 0)

/-- Lanes on which a link sends blocks: those of its width while it is `ACTIVE`, else those up to `WIDTH_MAX` (R144, R163). -/
def State.txLanes (s : State) (q : Nat) : Nat := lanesOf (if s.lkUp q then s.lkWidth q else s.rdf R.LINK_CFG q 1 0)

/-- Whether a lane carries blocks: of a brine link that is neither off, asleep, faulty nor in `PRBS`, or of a port. -/
def State.carriesBlocks (s : State) (l : Nat) : Bool :=
  let q := l / 4
  let st := s.lkState q
  s.quadMode q == 2 && !(s.rdb R.PRBS_CTRL l 1 || s.rdb R.PRBS_CTRL l 9)
    || s.quadMode q == 1 && !(st == lkDisabled || st == lkSleep || st == lkFault || st == lkPrbs) && decide (l % 4 < s.txLanes q)

/-- Whether a lane is in `PRBS` (R163, R169). -/
def State.inPrbs (s : State) (l : Nat) : Bool :=
  s.quadMode (l / 4) == 1 && s.lkState (l / 4) == lkPrbs
    || s.quadMode (l / 4) == 2 && (s.rdb R.PRBS_CTRL l 1 || s.rdb R.PRBS_CTRL l 9)

/-- Whether line errors may be injected on a lane (R171). -/
def State.mayInject (s : State) (l : Nat) : Bool :=
  s.inPrbs l || (s.carriesBlocks l && fld (s.hdr (lanePage l) hPerturb) 35 32 == 1 && !s.lkSched (l / 4))

/-- `RATE_EXP` of a lane where it acts, else 0 (R171). -/
def State.rateOf (s : State) (l : Nat) : Nat := if s.mayInject l then s.rdf R.LANE_INJ l 7 2 else 0

/-- The blocks that a link's lanes have sent by now counted in `BCNT` (R150), those not listed in `State.sent` too. -/
def State.blkSync (s : State) (q : Nat) : State :=
  let l := s.lk q
  let n := s.txLanes q
  let k := laneBitsIn 1 (s.rdf R.QUAD_MODE q 9 8) (s.time.total - l.blkAt) / 66
  s.setLk q { l with txBlk := max l.txBlk (n * k) }

/-- Blocks sent on a link's lanes in turn (R151). -/
def State.sendBlocks (s : State) (q : Nat) (bs : List TxBlock) : State :=
  bs.foldl (fun s b =>
    let n := s.txLanes q
    let l := s.lk q
    let i := l.txBlk % n
    let x := b.bits i (l.txBlk / n)
    (s.setLk q { l with txBlk := l.txBlk + 1 }).laneSend (4 * q + i) (s.rateOf (4 * q + i)) x.1 x.2) s

/-- The body of an `IDLE` or `START` block now (R150, R161): `BP_DUTY` withholds new credits for its share of the windows. -/
def State.ackBody (s : State) (q : Nat) : Nat × State :=
  let l := s.lk q
  let l := if !s.lkSched q && s.pressed (brinePage q) then l else { l with outC := l.freedC, outM := l.freedM }
  (at_ 41 (b2n l.nak) + at_ 29 ((l.rxSeq + 4095) % 4096) + at_ 21 (l.outC % 256) + at_ 9 (l.outM % 4096), s.setLk q l)

/-- An `IDLE` block on every lane in use (R149, R150). -/
def State.sendIdle (s : State) (q : Nat) : State :=
  let (b, s) := s.ackBody q
  s.sendBlocks q (List.replicate (s.txLanes q) (.ctl blkIdle b))

/-- A cell put on the lanes as a `START` block and 32 data blocks (R152): counted, noted for utilisation, recorded as an output. -/
def State.putCell (s : State) (q : Nat) (ws : List Word) : State :=
  let l := s.lk q
  let s := s.setLk q { l with txTimes := s.time.total :: l.txTimes.filter fun t => s.time.total < t + 1500 }
  let (b, s) := ((s.count R.CELLS_TX q).emit (.cell q ws)).ackBody q
  s.sendBlocks q (.ctl blkStart b :: ws.map .data)

/-- Whether test injection spoils the CRC of the next control or mesh cell (R182). -/
def State.spoils (s : State) (q : Nat) : Bool :=
  fld (s.hdr (brinePage q) hPerturb) 35 32 == 2 && !s.lkSched q && ((s.lk q).txCount + 1) % 1024 == 0

/-- One open cell sent: the next to be resent, or a new one within its credit (R161, R162). -/
def State.sendOpen (s : State) (q : Nat) : State × Bool :=
  let l := s.lk q
  match l.resend with
  | some k =>
    match l.replay[k]? with
    | some c =>
      let l := { l with resend := if k + 1 < l.replay.length then some (k + 1) else none
                        resends := if k = 0 then l.resends + 1 else l.resends, txCount := l.txCount + 1 }
      let sp := s.spoils q
      let s := (s.setLk q l).count R.REPLAYS q
      (s.putCell q (sealCell c sp), true)
    | none => (s.setLk q { l with resend := none }, true)
  | none =>
    match l.txq with
    | [] => (s, false)
    | c :: rest =>
      if l.maySend c then
        let c := match c with
          | [] => []
          | w :: ws => setFld w 55 44 l.txSeq :: ws
        let l := { l with txq := rest, replay := l.replay ++ [c], txSeq := (l.txSeq + 1) % 4096
                          sentC := if cellType c = 2 then l.sentC + 1 else l.sentC
                          sentM := if cellType c = 3 then l.sentM + 1 else l.sentM, txCount := l.txCount + 1 }
        let sp := s.spoils q
        ((s.setLk q l).putCell q (sealCell c sp), true)
      else (s, false)

/-- Up to `n` open cells sent; how many were. -/
def State.sendOpens (s : State) (q : Nat) : Nat → State × Nat
  | 0 => (s, 0)
  | n + 1 =>
    match s.sendOpen q with
    | (s', true) => let r := s'.sendOpens q n; (r.1, r.2 + 1)
    | (s', false) => (s', 0)

/-- A filler cell of stress mode (R141, R156). -/
def fillerCell : List Word := word (at_ 60 4) :: List.replicate 31 0

/-- `n` filler cells sent. -/
def State.sendFillers (s : State) (q : Nat) : Nat → State
  | 0 => s
  | n + 1 => (s.putCell q (sealCell fillerCell false)).sendFillers q n

/-- An open cell queued for sending. -/
def State.queueCell (s : State) (q : Nat) (ws : List Word) : State :=
  let l := s.lk q
  s.setLk q { l with txq := l.txq ++ [ws] }

/-- A negotiation block sent on every lane in use (R173). -/
def State.sendNeg (s : State) (q kind target token : Nat) : State :=
  let body := at_ 38 kind + at_ 36 target + at_ 28 token
  let s := (s.blkSync q).emit (.control q blkNeg (word body))
  s.sendBlocks q (List.replicate (s.txLanes q) (.ctl blkNeg body))

/-- Own link-end identifier, and the recorded peer's (R164). -/
def State.leads (s : State) (q : Nat) : Bool :=
  match (s.lk q).peer with
  | some p => decide (s.nv.otp.serial.toNat * 256 + q < p.serial.toNat * 256 + p.quad)
  | none => true

/-- A request's `KIND` code. -/
def NegKind.code : NegKind → Nat
  | .width => 0
  | .sleep => 1
  | .retrain => 2

/-- A request opened, or noted for later while another negotiation is open (R173, R178). -/
def State.negRequest (s : State) (q : Nat) (k : NegKind) (target cause : Nat) : State :=
  let l := s.lk q
  if s.lkNeg q ≠ 0 ∧ s.lkNeg q ≠ 6 then s.setLk q { l with later := some (k, target, cause) }
  else
    let tok := l.nextToken
    let s := s.setLk q { l with kind := k, mine := true, token := tok, target := target, cause := cause
                                peerCommit := false, lanesReady := false, nextToken := (tok + 1) % 256 }
    ((s.sendNeg q k.code target tok).setNeg q 1).wrb R.LINK_STAT q 30 true

/-- Blocks that a link sends in 1 µs: rate × width / 66. In hundredths of a block. -/
def blocksPerUs (rate width : Nat) : Nat := [3200000, 1600000, 1031250].getD rate 0 * lanesOf width / 66

/-- Whether this end's utilisation over the last 1 µs lies below `LOW_THRESH`/256 (R174): 33 blocks a cell. -/
def State.utilLow (s : State) (q : Nat) : Bool :=
  let n := ((s.lk q).txTimes.filter fun t => s.time.total < t + 1500).length
  decide (n * 33 * 100 * 256 < s.rdf R.LINK_CFG q 15 8 * blocksPerUs (s.rdf R.QUAD_MODE q 9 8) (s.lkWidth q))

/-- Whether a request noted for later still has its grounds. -/
def State.stillDue (s : State) (q : Nat) (k : NegKind) (target : Nat) : Bool :=
  s.lkUp q &&
    match k with
    | .retrain => true
    | .sleep => !s.lkSched q && s.rdb R.LINK_CFG q 5 && (s.lk q).replay.isEmpty && (s.lk q).txq.isEmpty
    | .width => !s.lkSched q && s.rdb R.LINK_CFG q 4 && (if s.lkWidth q < target then decide (target ≤ (s.lk q).agreed)
        else s.utilLow q && decide (target < s.lkWidth q))

/-- The request noted for later taken up if its grounds hold (R178). -/
def State.takeLater (s : State) (q : Nat) : State :=
  match (s.lk q).later with
  | none => s
  | some (k, t, c) =>
    let s := s.setLk q { s.lk q with later := none }
    if s.stillDue q k t then s.negRequest q k t c else s

/-- A negotiation closed without change. -/
def State.negClose (s : State) (q : Nat) : State := ((s.setNeg q 0).wrb R.LINK_STAT q 30 false).takeLater q

/-- A negotiation completed: `NEG_DONE`, then as when it closes. -/
def State.negDone (s : State) (q : Nat) : State := (s.raise (brinePage q) 4).negClose q

/-- The width of a link, changed: released lanes idle, at this end and at the peer's, added lanes not (R175). The lanes go on
counting their blocks. -/
def State.setWidth (s : State) (q w : Nat) : State :=
  let n := s.txLanes q
  let s := s.wrf R.LINK_STAT q 17 16 w
  let s := s.laneBits (quadLanes q (lanesOf w)) 4 false
  let off := (quadLanes q 4).drop (lanesOf w)
  let s := (s.laneBits off 4 true).lanesLost off true
  s.setLk q { s.lk q with txBlk := ((s.lk q).txBlk + n - 1) / n * s.txLanes q }

/-- Both `COMMIT`s have passed (R175, R176): the new width, or `SLEEP`. -/
def State.committed (s : State) (q : Nat) : State :=
  match (s.lk q).kind with
  | .width => ((s.setWidth q (s.lk q).target).countf R.NEG_COUNT q 15 0).negDone q
  | .sleep =>
    let s := (s.countf R.NEG_COUNT q 47 32).raise (brinePage q) 4
    ((s.setNeg q 0).wrb R.LINK_STAT q 30 false).setLkState q lkSleep
  | .retrain => s

/-- An agreed end sends `COMMIT`; with the peer's it is committed (R175). -/
def State.sendCommit (s : State) (q : Nat) : State :=
  let s := (s.sendNeg q 5 (s.lk q).target (s.lk q).token).setNeg q 4
  if (s.lk q).peerCommit then s.committed q else s

/-- An end that has become agreed (R175): a retrain goes to `LOCK`, a wider link first brings up its lanes. -/
def State.agreed (s : State) (q : Nat) : State :=
  match (s.lk q).kind with
  | .retrain =>
    let c := (s.lk q).cause
    (s.raise (brinePage q) 4).lkRetrain q c
  | .sleep => s.sendCommit q
  | .width => if s.lkWidth q < (s.lk q).target ∧ !(s.lk q).lanesReady then s.setNeg q 3 else s.sendCommit q

/-- Whether this end may take up a received request: none of its own is open, or it does not lead, in which case it
abandons its own (R178). -/
def State.yields (s : State) (q : Nat) : Option State :=
  let l := s.lk q
  if s.lkNeg q = 0 ∨ s.lkNeg q = 6 then some s
  else if s.lkNeg q = 1 ∧ !s.leads q then some (s.setLk q { l with later := some (l.kind, l.target, l.cause) })
  else none

/-- A received request answered `ACK`: this end is agreed on sending it (R175). -/
def State.negAccept (s : State) (q : Nat) (k : NegKind) (target token : Nat) : State :=
  let s := s.setLk q { s.lk q with kind := k, mine := false, token := token, target := target, cause := cPeer
                                   peerCommit := false, lanesReady := false }
  let s := ((s.sendNeg q 3 target token).wrb R.LINK_STAT q 30 false).setNeg q 3
  s.agreed q

/-- A received request answered `NAK`. -/
def State.negRefuse (s : State) (q target token : Nat) : State :=
  let s := (s.sendNeg q 4 target token).setNeg q 0
  s.negClose q

/-- A wake event (R177). -/
def State.wakeUp (s : State) (q : Nat) : State :=
  let n := s.lkNeg q
  let abort := fun (s : State) => (s.sendNeg q 6 0 (s.lk q).token).countf R.NEG_COUNT q 31 16
  if s.lkState q = lkSleep then (s.emit (.laneEvent (4 * q) 1 0)).setLkState q lkWake
  else if s.lkUp q ∧ (s.lk q).kind = .sleep then
    if n = 1 then (abort s).negClose q
    else if n = 3 ∨ n = 4 then (abort s).setNeg q 6
    else s
  else s

/-- A partner recorded in `PEER_SERIAL` and `PEER_PORT` (R166). -/
def State.recordPeer (s : State) (q : Nat) (p : Peer) : State :=
  let s := s.setLk q { s.lk q with peer := some p }
  (s.wr R.PEER_SERIAL q p.serial).wr R.PEER_PORT q (word (at_ 9 p.session + at_ 8 1 + p.quad))

/-- A credit reset (R161). -/
def State.creditReset (s : State) (q : Nat) : State :=
  s.setLk q { s.lk q with sentC := 0, sentM := 0, credC := 32, credM := 256, freedC := 32, freedM := 256, outC := 32, outM := 256 }


/-- A lane's training recorded at block lock (R168): the chosen step and the junction's temperature. -/
def State.laneTrained (s : State) (l : Nat) : State :=
  let (i, s) := s.fresh
  let peak := if s.rdb R.LANE_CFG l 12 then s.rdf R.LANE_CFG l 11 8 else (Config.eqTrained i).toNat
  let s := (s.wrf R.LANE_STAT l 23 20 peak).wrf R.LANE_STAT l 19 16 peak
  ((s.wrf R.LANE_STAT l 15 8 s.pwr.junction.toNat).wrb R.LANE_STAT l 1 true).wrb R.LANE_STAT l 0 true

/-- A list of lanes trained. -/
def State.lanesTrained (s : State) (ls : List Nat) : State := ls.foldl State.laneTrained s

/-- Whether a lane's PRBS generator or checker is enabled. -/
def State.prbsOn (s : State) (l : Nat) : Bool := s.rdb R.PRBS_CTRL l 1 || s.rdb R.PRBS_CTRL l 9

/-- What the PRBS enables of the lanes of a link's width make of it (R144, R163, R169). -/
def State.prbsEval (s : State) (q : Nat) : State :=
  let any := (quadLanes q (lanesOf (s.lkWidth q))).any s.prbsOn
  if s.lkUp q ∧ any then s.lkDown q lkPrbs 0
  else if s.lkState q = lkPrbs ∧ !any then
    (s.setLk q { s.lk q with full := false }).setLkState q lkLock
  else s

/-- Entry to `ACTIVE` at a width (R163): `LINK_UP` and the width agreed, except at the end of a sleep; `DEGRADED` below
`WIDTH_MAX`. A request noted for later is taken up (R178), and lanes whose PRBS enables stand take the link to `PRBS`. -/
def State.lkActivate (s : State) (q w : Nat) : State :=
  let woke := s.lkState q = lkWake
  let s := (s.setLkState q lkActive).setWidth q w
  let s := if woke then s
    else (s.setLk q { s.lk q with agreed := w }).wrb R.LINK_STAT q 29 (decide (w < s.rdf R.LINK_CFG q 1 0))
  let s := if woke then s else s.raise (brinePage q) 0
  (s.takeLater q).prbsEval q

/-- `LANE_CMD` on a lane: `BIT_SLIP`, `INJ_BURST`, `PRBS_RESYNC` (R169, R171, R172). -/
def State.laneCmd (s : State) (l : Nat) (v : Word) : State :=
  let s := if bit v 0 then
      (s.setLane l { s.lane l with slip := ((s.lane l).slip + 1) % 66 }).wrb R.LANE_STAT l 1 false else s
  let s := if bit v 1 then
      let n := s.rdf R.LANE_INJ l 23 16
      (s.setLane l { s.lane l with inj := (s.lane l).inj + n }).emit (.laneEvent l 2 n)
    else s
  if bit v 2 then s.prbsReseed l else s

/-- `LINK_CMD` on a quad (R174, R176, R177, R178). -/
def State.linkCmd (s : State) (q : Nat) (v : Word) : State :=
  if bit v 0 then
    if s.lkState q = lkFault then s.lkDetectEntry q 0
    else if s.lkUp q then s.negRequest q .retrain 0 cCommand
    else s
  else if bit v 1 then (if s.rdb R.LINK_CFG q 5 then s.negRequest q .sleep 0 0 else s)
  else if bit v 2 then s.wakeUp q
  else if bit v 3 then
    (if s.rdb R.LINK_CFG q 4 = true ∧ s.lkWidth q < (s.lk q).agreed then s.negRequest q .width (s.lkWidth q + 1) 0 else s)
  else s

/-- A resend from the oldest unacknowledged cell, or a retrain after `REPLAY_MAX` resends of it (R162). -/
def State.replayFromOldest (s : State) (q : Nat) : State :=
  let l := s.lk q
  if l.replay.isEmpty then s
  else if s.rdf R.LINK_CFG q 39 36 ≤ l.resends then
    ((s.setLk q { l with resends := 0 }).raise (brinePage q) 3).negRequest q .retrain 0 cReplayLimit
  else s.setLk q { l with resend := some 0 }

end Sys2Proof.Machine
end

