-- ==== Sys2Proof/Machine/Firewall.lean ====
section
/-! DEFINITION. The address map and the firewall of the crossbar (R357 to R365). -/

namespace Sys2Proof.Machine

/-- Where an address leads (R357, R359): the target port and what lies there. -/
inductive Place357 where
  | heap | rom | sram | nvm | regs | store (i : Nat) | aonSram | staging | mesh (k : Nat) | host
  deriving DecidableEq, Repr

/-- A row of the address map: first address, size, and what it holds. -/
abbrev MapRow := Nat × Nat × Place357

/-- The rows of R357 that are not reserved, the mesh windows apart. -/
def addrMap : List MapRow :=
  [(0, 412316860416, .heap), (0x008000000000, 0x100000, .rom), (0x008001000000, 0x800000, .sram),
   (0x008002000000, 0x1000000, .nvm), (0x008003000000, 0x80000, .regs), (0x008004000000, 0x1000000, .store 0),
   (0x008005000000, 0x1000000, .store 1), (0x008006000000, 0x100000, .aonSram),
   (0x008008000000, 0xA00000, .staging), (0x800000000000, 0x800000000000, .host)]

/-- The row of the map that an address lies in. -/
def mapRow (a : Nat) : Option MapRow :=
  if 0x100000000000 ≤ a ∧ a < 0x500000000000 then
    let k := (a - 0x100000000000) / 0x10000000000
    some (0x100000000000 + k * 0x10000000000, 0x10000000000, .mesh k)
  else addrMap.find? fun r => decide (r.1 ≤ a) && decide (a < r.1 + r.2.1)

/-- The row that holds a whole range of addresses, if one does (R357, R369). -/
def rowOfRange (a len : Nat) : Option MapRow :=
  match mapRow a with
  | some r => if a + len ≤ r.1 + r.2.1 then some r else none
  | none => none

/-- The target port of a place (R357, R359). -/
def Place357.port : Place357 → Nat
  | .heap => 0
  | .sram => 1
  | .store _ => 1
  | .aonSram => 1
  | .rom => 2
  | .nvm => 3
  | .regs => 4
  | .host => 5
  | .staging => 6
  | .mesh _ => 7

/-- The address that a master's access reaches: masters 0 and 1 see the boot ROM or supervisor SRAM at address
zero (R362). -/
def State.mapAddr (s : State) (master a : Nat) : Nat :=
  if master ≤ 1 ∧ a < 0x100000 then (if s.rdb R.XB_MAP 0 0 then 0x008001000000 else 0x008000000000) + a else a

/-- Whether a firewall rule is enabled and its range contains an address (R363, R365). -/
def State.ruleHolds (s : State) (k a : Nat) : Bool :=
  let ra := s.rd R.FW_RULE_A 0 k
  let rb := s.rd R.FW_RULE_B 0 k
  bit ra 63 && decide (fld ra 47 12 ≤ a / 4096) && decide (a / 4096 ≤ fld rb 47 12)

/-- The firewall's refusal of an access, if it refuses: the cause of `FW_LAST` and the deciding rule (R363). -/
def State.fwRefusal (s : State) (master : Nat) (secure write : Bool) (a len : Nat) : Option (Nat × Nat) :=
  if !s.rdb R.FW_CTRL 0 0 then none
  else
    match (List.range 32).find? fun k => s.ruleHolds k a with
    | none => if s.rdb R.FW_CTRL 0 1 then some (1, 63) else none
    | some k =>
      let ra := s.rd R.FW_RULE_A 0 k
      if fld (s.rd R.FW_RULE_B 0 k) 47 12 < (a + len - 1) / 4096 then some (5, k)
      else if !bit ra (48 + master) then some (2, k)
      else if !bit ra (if write then 60 else 61) then some (3, k)
      else if bit ra 62 && !secure then some (4, k)
      else none

/-- `FW_LAST` for a refusal or decode error (R382). -/
def fwLastWord (master : Nat) (write secure : Bool) (cause rule a : Nat) : Word :=
  word (at_ 60 master + at_ 59 (b2n write) + at_ 58 (b2n secure) + at_ 54 cause + at_ 48 rule + a % 2 ^ 48)

/-- A firewall refusal recorded: counter, `FW_LAST`, event, report (R363). -/
def State.fwDenied (s : State) (master : Nat) (write secure : Bool) (cause rule a : Nat) : State :=
  let s := s.count R.FW_DENIED 0
  let s := s.wr R.FW_LAST 0 (fwLastWord master write secure cause rule a)
  (s.raise 0x0C 0).report 0x0C 0 0x16 (s.rd R.FW_LAST) (s.rd R.FW_GEN)

/-- A decode error recorded (R357, R358). -/
def State.decodeError (s : State) (master : Nat) (write secure : Bool) (a : Nat) : State :=
  let s := s.count R.XB_DECODE 0
  let s := s.wr R.FW_LAST 0 (fwLastWord master write secure 6 63 a)
  s.raise 0x0C 1

/-- The lowest generation in flight, or the current one (R364). -/
def State.oldestGen (s : State) : Nat :=
  let gens := s.xbar.txns.filterMap fun e => match e.2 with
    | some t => t.gen
    | none => none
  (gens.min?).getD (s.rdf R.FW_GEN 0 31 0)

/-- `FW_FENCE.DONE`. -/
def State.fenceDone (s : State) : Bool := s.oldestGen == s.rdf R.FW_GEN 0 31 0

/-- A firewall change of one RCLK: the generation increments (R364). -/
def State.fwChange (s : State) : State := s.wr R.FW_GEN 0 (word ((s.rdf R.FW_GEN 0 31 0 + 1) % 2 ^ 32))

end Sys2Proof.Machine
end

