-- ==== Sys2Proof/Machine/Num.lean ====
section
/-! DEFINITION. Binary floating point as the spec uses it (IEEE 754 binary64 and binary32, ties to even), exact
dyadic numbers, and the elementary functions whose values the spec states exactly before rounding, evaluated in
fixed point to 2^-96. -/

namespace Sys2Proof.Machine

/-- A dyadic number m × 2^e. -/
structure Dy where
  m : Int
  e : Int
  deriving DecidableEq, Repr

/-- The quotient of two integers rounded to nearest, ties to even; `d` is positive. -/
def divEven (n : Int) (d : Nat) : Int :=
  let q := n / (d : Int)
  let r := n % (d : Int)
  if 2 * r < d then q else if (d : Int) < 2 * r then q + 1 else if q % 2 = 0 then q else q + 1

/-- A number scaled down by 2^k, ties to even. -/
def shrEven (n : Int) (k : Nat) : Int := divEven n (2 ^ k)

/-- Bit length of a natural number. -/
def bitLen (n : Nat) : Nat := if n = 0 then 0 else Nat.log2 n + 1

/-- A dyadic number rounded to an integer, ties to even. -/
def Dy.round (x : Dy) : Int := if 0 ≤ x.e then x.m * 2 ^ x.e.toNat else shrEven x.m (-x.e).toNat

/-- The floor of a dyadic number. -/
def Dy.floor (x : Dy) : Int := if 0 ≤ x.e then x.m * 2 ^ x.e.toNat else x.m / 2 ^ (-x.e).toNat

/-- Exact sum. -/
def Dy.add (x y : Dy) : Dy :=
  let e := min x.e y.e
  ⟨x.m * 2 ^ (x.e - e).toNat + y.m * 2 ^ (y.e - e).toNat, e⟩

/-- Exact product. -/
def Dy.mul (x y : Dy) : Dy := ⟨x.m * y.m, x.e + y.e⟩

/-- Negation. -/
def Dy.neg (x : Dy) : Dy := ⟨-x.m, x.e⟩

/-- Exact difference. -/
def Dy.sub (x y : Dy) : Dy := x.add y.neg

/-- A whole number. -/
def Dy.ofInt (n : Int) : Dy := ⟨n, 0⟩

/-- Times 2^k. -/
def Dy.scale (x : Dy) (k : Int) : Dy := ⟨x.m, x.e + k⟩

/-- The order of two dyadic numbers. -/
def Dy.lt (x y : Dy) : Bool := decide ((x.sub y).m < 0)

/-- At most. -/
def Dy.le (x y : Dy) : Bool := !y.lt x

/-- Magnitude. -/
def Dy.abs (x : Dy) : Dy := ⟨x.m.natAbs, x.e⟩

/-- The value in units of 2^-k, ties to even. -/
def Dy.fix (x : Dy) (k : Nat) : Int := (x.scale k).round

/-- A floating-point value: finite, infinite by sign, or not a number. -/
inductive Fp where
  | fin (x : Dy)
  | inf (neg : Bool)
  | nan
  deriving DecidableEq, Repr

/-- A dyadic number rounded to `p` significant bits with least exponent `emin`, ties to even. -/
def roundTo (p : Nat) (emin : Int) (x : Dy) : Dy :=
  let e := max (x.e + bitLen x.m.natAbs - p) emin
  if e ≤ x.e then x else ⟨shrEven x.m (e - x.e).toNat, e⟩

/-- A finite value of a format with `p` bits, or infinity above its largest number. -/
def fpRound (p : Nat) (emin emax : Int) (x : Dy) : Fp :=
  let y := roundTo p emin x
  if (Dy.mk (2 ^ p) (emax - (p : Int) + 1)).le y.abs then .inf (decide (x.m < 0)) else .fin y

/-- Rounding to binary64. -/
def to64 (x : Dy) : Fp := fpRound 53 (-1074) 1023 x

/-- Rounding to binary32. -/
def to32 (x : Dy) : Fp := fpRound 24 (-149) 127 x

/-- The words of a format with `p` significant bits and `w` exponent bits that encode a dyadic number it holds. -/
def encodeFin (p w : Nat) (x : Dy) : Nat :=
  let bias : Int := 2 ^ (w - 1) - 1
  let emin : Int := 2 - bias - p
  let sign := if x.m < 0 then 2 ^ (p - 1 + w) else 0
  if x.m = 0 then 0
  else
    let len : Int := bitLen x.m.natAbs
    let e := max (x.e + len - p) emin
    let mant := ((x.scale (-e)).round).natAbs
    let ex : Int := if mant < 2 ^ (p - 1) then 0 else e - emin + 1
    sign + ex.toNat * 2 ^ (p - 1) + mant % 2 ^ (p - 1)

/-- The word of a floating-point value of a format; `nan` is the quiet default. -/
def encodeFp (p w : Nat) : Fp → Nat
  | .fin x => encodeFin p w x
  | .inf s => (if s then 2 ^ (p - 1 + w) else 0) + (2 ^ w - 1) * 2 ^ (p - 1)
  | .nan => (2 ^ w - 1) * 2 ^ (p - 1) + 2 ^ (p - 2)

/-- The value of a word of a format. -/
def decodeFp (p w : Nat) (n : Nat) : Fp :=
  let bias : Int := 2 ^ (w - 1) - 1
  let emin : Int := 2 - bias - p
  let mant : Int := n % 2 ^ (p - 1)
  let ex := n / 2 ^ (p - 1) % 2 ^ w
  let neg := n / 2 ^ (p - 1 + w) % 2 = 1
  let sg : Int := if neg then -1 else 1
  if ex = 2 ^ w - 1 then (if mant = 0 then .inf neg else .nan)
  else if ex = 0 then .fin ⟨sg * mant, emin⟩
  else .fin ⟨sg * (mant + 2 ^ (p - 1)), emin + ex - 1⟩

/-- A binary64 word's value. -/
def of64 (w : Word) : Fp := decodeFp 53 11 w.toNat

/-- The binary64 word of a value. -/
def word64 (x : Fp) : Word := word (encodeFp 53 11 x)

/-- The binary32 word of a value. -/
def word32 (x : Fp) : Nat := encodeFp 24 8 x

/-- A binary32 word's value. -/
def of32 (n : Nat) : Fp := decodeFp 24 8 n

/-- The finite part of a value; 0 for an infinity or a NaN. -/
def Fp.dy : Fp → Dy
  | .fin x => x
  | _ => ⟨0, 0⟩

/-- Whether a value is finite. -/
def Fp.finite : Fp → Bool
  | .fin _ => true
  | _ => false

/-- A quotient of dyadic numbers, kept to 128 more bits than the format needs with a sticky bit; `y` is not 0. -/
def Dy.div (x y : Dy) : Dy :=
  let k := 256 + bitLen y.m.natAbs
  let n := x.m.natAbs * 2 ^ k
  let q := n / y.m.natAbs
  let q := 2 * q + (if n % y.m.natAbs = 0 then 0 else 1)
  let s : Int := if (x.m < 0) = (y.m < 0) then 1 else -1
  ⟨s * q, x.e - y.e - k - 1⟩

/-- The square root of a number that is not negative, to 128 bits beyond its own with a sticky bit. -/
def Dy.sqrt (x : Dy) : Dy :=
  let m := x.m.natAbs
  let odd : Nat := if x.e % 2 = 0 then 0 else 1
  let n := m * 2 ^ (256 + odd)
  let r := Nat.sqrt n
  ⟨2 * (r : Int) + (if r * r = n then 0 else 1), (x.e - odd) / 2 - 128 - 1⟩

/-- A binary64 sum of two finite values. -/
def add64 (x y : Dy) : Dy := (to64 (x.add y)).dy
/-- A binary64 difference. -/
def sub64 (x y : Dy) : Dy := (to64 (x.sub y)).dy
/-- A binary64 product. -/
def mul64 (x y : Dy) : Dy := (to64 (x.mul y)).dy
/-- A binary64 quotient. -/
def div64 (x y : Dy) : Dy := (to64 (x.div y)).dy

/-- Fixed-point unit of the elementary functions: 2^-96. -/
def fx1 : Int := 2 ^ 96

/-- A fixed-point product. -/
def fxMul (a b : Int) : Int := a * b / fx1

/-- π in units of 2^-96. -/
def fxPi : Int := 248902613312231085230521944622

/-- The power series Σ of sin and cos terms: `t` is the current term, `k` its index, `x2` the argument's square. -/
def fxTrig (x2 : Int) : Nat → Nat → Int → Int → Int
  | 0, _, _, acc => acc
  | n + 1, k, t, acc =>
    let t' := -(fxMul t x2) / ((k + 1) * (k + 2) : Nat)
    fxTrig x2 n (k + 2) t' (acc + t')

/-- sin and cos of an angle in radians, at most π in magnitude, in fixed point. -/
def fxSinCos (x : Int) : Int × Int :=
  let x2 := fxMul x x
  (fxTrig x2 24 1 x x, fxTrig x2 24 0 fx1 fx1)

/-- sin and cos of `n`/`d` turns. -/
def fxTurn (n : Int) (d : Nat) : Int × Int :=
  let r := n % (d : Int)
  let r := if (d : Int) < 2 * r then r - d else r
  fxSinCos (2 * fxPi * r / (d : Int))

/-- sinc(n/d) = sin(π n/d) / (π n/d), in fixed point. -/
def fxSinc (n : Int) (d : Nat) : Int :=
  if n = 0 then fx1
  else (fxTurn n (2 * d)).1 * fx1 * (d : Int) / (fxPi * n)

/-- The power series of I0: terms (x²/4)^k / (k!)². -/
def fxBessel (q : Int) : Nat → Nat → Int → Int → Int
  | 0, _, _, acc => acc
  | n + 1, k, t, acc =>
    let t' := fxMul t q / ((k + 1) * (k + 1) : Nat)
    fxBessel q n (k + 1) t' (acc + t')

/-- I0(6 √(v)) for v in fixed point, 0 ≤ v ≤ 1: the series in 9 v. -/
def fxI0of6 (v : Int) : Int := fxBessel (9 * v) 40 0 fx1 fx1

/-- A fixed-point value rounded to units of 2^-k, ties to even. -/
def fxRound (x : Int) (k : Nat) : Int := shrEven x (96 - k)

end Sys2Proof.Machine
end

