-- ==== Sys2Proof/Machine/MeshOps.lean ====
section
/-! DEFINITION. The operations of a saltern (spec/18): mesh links, the view and its roles, `LSA` cells, alignment,
epochs, and the carriage of mesh transactions. -/

namespace Sys2Proof.Machine

/-- Saltern size Z. -/
def State.meshZ (s : State) : Nat := s.rdf R.MESH_CFG 0 39 32
/-- Own member number. -/
def State.meshSelf (s : State) : Nat := s.rdf R.MESH_CFG 0 29 24
/-- The anchor. -/
def State.meshAnchor (s : State) : Nat := s.rdf R.MESH_CFG 0 21 16
/-- `ALIGN_SRC`. -/
def State.alignSrc (s : State) : Nat := s.rdf R.MESH_CFG 0 9 8

/-- The member that a quad's link leads to, if it is a mesh link (R490); none while the page is off (R62). -/
def State.meshPeer (s : State) (q : Nat) : Option Nat :=
  if s.lkUp q && s.enabled 0x5D then
    (List.range s.meshZ).find? fun k => k != s.meshSelf && s.rd R.MEMBER_SERIAL 0 k == s.rd R.PEER_SERIAL q
      && bit (s.rd R.PEER_PORT q) 8
  else none

/-- The lowest quad whose link leads to a member. -/
def State.meshQuad (s : State) (k : Nat) : Option Nat := (List.range 256).find? fun q => s.meshPeer q == some k

/-- The mesh links: quads and members. -/
def State.meshLinks (s : State) : List (Nat × Nat) :=
  if s.meshZ = 0 then []
  else (List.range 256).filterMap fun q => (s.meshPeer q).map fun k => (q, k)

/-- `LINK_MASK`. -/
def State.linkMask (s : State) : Word := s.meshLinks.foldl (fun w l => setBit w l.2) 0

/-- A member's `LSA` that is held and has not expired, 500 µs after it was accepted (R492). -/
def State.lsaHeld (s : State) (k : Nat) : Option Lsa := (pget s.mesh.lsas k).filter fun l => decide (s.time.total < l.seenAt + 750000)

/-- The neighbours of a member: its own mesh links, or the mask of its `LSA`. -/
def State.meshNbrs (s : State) (k : Nat) : Word :=
  if k = s.meshSelf then s.linkMask
  else match s.lsaHeld k with
    | some l => l.nbrs
    | none => 0

/-- One step outward from a set of members. -/
def State.meshGrow (s : State) (set : Word) : Word :=
  (onesOf 64 set.toNat).foldl (fun w k => w ||| s.meshNbrs k) set

/-- `n` steps outward. -/
def State.meshReach (s : State) : Nat → Word → Word
  | 0, w => w
  | n + 1, w => s.meshReach n (s.meshGrow w)

/-- `PART_MASK`: the members connected to this one (R492). -/
def State.partMask (s : State) : Word :=
  if s.meshZ = 0 then 0 else s.meshReach s.meshZ (setBit 0 s.meshSelf)

/-- Hops from one member to another, at most `n`. -/
def State.meshHops (s : State) (dst : Nat) : Nat → Word → Option Nat
  | 0, w => if bit w dst then some 0 else none
  | n + 1, w => if bit w dst then some 0 else (s.meshHops dst n (s.meshGrow w)).map (· + 1)

/-- The neighbour with fewest hops to a member, the lowest of equals (R493). -/
def State.firstHop (s : State) (dst : Nat) : Option Nat :=
  let cands := (onesOf 64 s.linkMask.toNat).filterMap fun k =>
    (s.meshHops dst s.meshZ (setBit 0 k)).map fun h => (h, k)
  match (cands.map (·.1)).min? with
  | none => none
  | some h => (cands.find? fun c => c.1 = h).map (·.2)

/-- The quad of the first link of the path to a member. -/
def State.routeTo (s : State) (dst : Nat) : Option Nat := (s.firstHop dst).bind s.meshQuad

/-- The time leader of this member's part (R495): the anchor if it is in the part, else the lowest member. -/
def State.leader (s : State) : Nat :=
  let p := s.partMask
  if bit p s.meshAnchor then s.meshAnchor else ((onesOf 64 p.toNat).headD s.meshSelf)

/-- Whether this member is the leader, from which its own offset is 0 (R493; DEDUCED, notes/assumptions/278.md). -/
def State.isLeader (s : State) : Bool := s.meshZ != 0 && s.leader == s.meshSelf

/-- `ALIGN_OFS` (R493): 0 with `ALIGN_SRC` 0, and on the leader. -/
def State.alignOfs (s : State) : Int := if s.alignSrc = 0 ∨ s.isLeader = true then 0 else s.mesh.ofs

/-- Whether the latest measurement is less than 1 ms old (R494). -/
def State.measured (s : State) : Bool := decide (s.time.total < s.mesh.measAt + 1500000)

/-- Whether the member is `ALIGNED`; with `ALIGN_SRC` 0 only the leader is (R493, R494). -/
def State.isAligned (s : State) : Bool := s.isLeader || (s.alignSrc != 0 && s.mesh.aligned && s.measured)

/-- H: aligned members of the part (R495). -/
def State.meshH (s : State) : Nat :=
  ((onesOf 64 s.partMask.toNat).filter fun k =>
    if k = s.meshSelf then s.isAligned
    else match s.lsaHeld k with
      | some l => l.flags.getLsbD 0
      | none => false).length

/-- The `PRIMARY` condition of R495. -/
def State.primaryView (s : State) : Bool :=
  decide (s.meshZ < 2 * s.meshH) || (2 * s.meshH == s.meshZ && bit s.partMask s.meshAnchor)

/-- `ARM_AGREE` (R499): every member of the part publishes the same pending arm. -/
def State.armTide (s : State) : Word :=
  match s.sched.pend with
  | some a => word a.tide
  | none => 0

/-- Whether every member of the part has this member's arm. -/
def State.armAgree (s : State) : Bool :=
  s.meshZ != 0 && s.sched.pend.isSome && (onesOf 64 s.partMask.toNat).all fun k =>
    k == s.meshSelf || (match s.lsaHeld k with
      | some l => l.arm == s.armTide
      | none => false)

/-- What every command leaves tracked of the saltern: since when the view has met the `PRIMARY` condition, and the falls of
`ALIGNED` and of `ARM_AGREE` (R494, R495, R499). -/
def State.meshTrack (s0 s1 : State) : State :=
  if s1.meshZ = 0 then s1
  else
    let since := if s1.primaryView then some (s1.mesh.viewSince.getD s1.time.total) else none
    let s := { s1 with mesh := { s1.mesh with viewSince := since } }
    let s := if s0.isAligned ∧ !s.isAligned then s.raise 0x5D 1 else s
    if s0.armAgree ∧ !s.armAgree then s.raise 0x5D 3 else s

/-- The conditions of R12 that hold now: bit 0 `PARTITIONED`, bit 1 `HOLDOVER`, bit 2 `UNSUPERVISED`. -/
def State.condBits (s : State) : Nat :=
  b2n (s.mesh.role == .minority || s.mesh.role == .joining)
    + 2 * b2n (s.time.tb0St == .holdover || s.time.pll == .holdover)
    + 4 * b2n (s.sup.sv0 != .active && s.sup.sv1 != .active)

/-- Condition runs with the bits that hold in a tide added. -/
def addConds (t f : Nat) : List (Nat × Nat × Nat) → List (Nat × Nat × Nat)
  | [] => if f = 0 then [] else [(t, t, f)]
  | (a, b, g) :: rest =>
    if f = 0 then (a, b, g) :: rest
    else if b = t then
      if g ||| f = g then (a, b, g) :: rest
      else if a = t then (t, t, g ||| f) :: rest
      else (t, t, g ||| f) :: (a, b - 1, g) :: rest
    else if b + 1 = t ∧ g = f then (a, t, g) :: rest
    else (t, t, f) :: (a, b, g) :: rest

/-- What every command leaves tracked of the conditions of R12. -/
def State.condTrack (s : State) : State :=
  { s with sched := { s.sched with conds := addConds s.time.tide s.condBits s.sched.conds } }

/-- The conditions that held in some tide after `a` and up to `n` of this epoch. -/
def State.heldIn (s : State) (a : Int) (n : Nat) : Nat :=
  s.sched.conds.foldl (fun f r => if r.1 ≤ n ∧ a < (r.2.1 : Int) then f ||| r.2.2 else f) 0

/-- The words of 256 bytes. -/
def bytesWords : Nat → List Byte → List Word
  | 0, _ => []
  | n + 1, bs => word (leNat (bs.take 8)) :: bytesWords n (bs.drop 8)

/-- A control or mesh cell: type, word 1, payload bytes. -/
def openCell (type : Nat) (w1 : Word) (payload : List Byte) : List Word :=
  word (at_ 60 type + at_ 32 payload.length) :: w1
    :: bytesWords 30 (payload ++ List.replicate (240 - payload.length) 0)

/-- A cell's payload bytes. -/
def payloadOf (ws : List Word) : List Byte := (cellBytes ws).drop 16

/-- A little-endian field of a cell, by its byte positions in the cell. -/
def cellField (ws : List Word) (at_ n : Nat) : Nat := leNat (((cellBytes ws).drop at_).take n)

/-- Word 1 of a control cell (R491). -/
def ctlWord (msg self : Nat) : Word := word (at_ 56 msg + at_ 50 self)

/-- The TB_NS word and seconds of a time in `Time` units: nanoseconds in [63:34], 2^-34 ns below. -/
def timeSec (t : Int) : Nat := (t / (unitsNs * 1000000000)).toNat

/-- The `TB_NS` word of a time: whole nanoseconds [63:34] and the fraction in units of 2^-34 ns. -/
def timeNsWord (t : Int) : Word :=
  wordI (t % (unitsNs * 1000000000) * 2 ^ 34 / unitsNs)

/-- The time of a seconds word and a `TB_NS` word. -/
def timeOf (sec ns : Word) : Int :=
  (sec.toNat : Int) * (unitsNs * 1000000000) + (ns.toNat : Int) * unitsNs / 2 ^ 34

/-- Whether this member's close is pending (R497). -/
def State.closePend (s : State) : Bool := s.time.armPend || bit (s.rd R.STEP_CTRL 0) 0

/-- The member's own `LSA` payload (R491). -/
def State.lsaPayload (s : State) : List Byte :=
  let leads := s.mesh.role == .primary && s.leader == s.meshSelf
  let flags := b2n s.isAligned + 2 * b2n (s.mesh.role == .primary) + 4 * b2n s.mesh.auth + 8 * b2n leads
    + 16 * b2n (leads && s.closePend)
  let arm := s.armTide
  let img : Word := match s.sched.pend with
    | some a => if a.halt then 0 else imgId (s.storeMem a.store)
    | none => 0
  leBytes 4 s.mesh.ownSeq ++ [BitVec.ofNat 8 s.meshSelf, BitVec.ofNat 8 flags, 0, 0] ++ leBytes 8 s.linkMask.toNat
    ++ leBytes 4 s.time.epoch ++ leBytes 8 (timeSec s.time.epochStart) ++ leBytes 8 (timeNsWord s.time.epochStart).toNat
    ++ leBytes 8 (s.rd R.STEP_SEC 0).toNat ++ leBytes 8 (s.rd R.STEP_NS 0).toNat ++ leBytes 8 arm.toNat
    ++ leBytes 8 img.toNat

/-- A cell queued on every mesh link but one. -/
def State.flood (s : State) (except : Option Nat) (ws : List Word) : State :=
  s.meshLinks.foldl (fun s l => if some l.1 = except then s else s.queueCell l.1 ws) s

/-- The `LSA` of a cell: its origin and content. -/
def lsaOf (ws : List Word) : Nat × Lsa :=
  (cellField ws 20 1,
   { seq := cellField ws 16 4, flags := BitVec.ofNat 8 (cellField ws 21 1), nbrs := word (cellField ws 24 8),
     epoch := cellField ws 32 4, startSec := word (cellField ws 36 8), startNs := word (cellField ws 44 8),
     closeSec := word (cellField ws 52 8), closeNs := word (cellField ws 60 8), arm := word (cellField ws 68 8),
     imageId := word (cellField ws 76 8) })

/-- Whether a sequence number is later than another, modulo 2^32. -/
def laterSeq (new old : Nat) : Bool := new != old && decide ((new + 2 ^ 32 - old) % 2 ^ 32 < 2 ^ 31)

/-- The tide of the first boundary after tide `n`'s end at which the tide number is a multiple of 15 (R85). -/
def nextOpening (n : Nat) : Nat := ((n + 1) / 15 + 1) * 15

/-- A close announced by the leader and taken up by a `PRIMARY` member early enough: the same values are committed
(R497). -/
def State.closeAdopt (s : State) (origin : Nat) (l : Lsa) : State :=
  if l.flags.getLsbD 4 ∧ l.flags.getLsbD 3 ∧ s.mesh.role = .primary ∧ origin ≠ s.meshSelf ∧ l.epoch = s.time.epoch
      ∧ !s.closePend ∧ s.time.tide + 2 ≤ (s.time.tide / 15 + 1) * 15 then
    let s := ((s.wr R.STEP_SEC 0 l.closeSec).wr R.STEP_NS 0 l.closeNs).wr R.STEP_CTRL 0 1
    { s with fab := { s.fab with commits := s.fab.commits ++ [{ set := .tb0Step, wait := 1 + b2n (s.slot == 4095) }] } }
  else s

/-- A received `LSA` (R492): a later one replaces the held one and is forwarded once, another is discarded. -/
def State.lsaTake (s : State) (q : Nat) (ws : List Word) : State :=
  let (o, l) := lsaOf ws
  let newer := match s.lsaHeld o with
    | some h => laterSeq l.seq h.seq
    | none => true
  if o = s.meshSelf ∨ !newer then s.countf R.MESH_ERR 0 15 0
  else
    let s := { s with mesh := { s.mesh with lsas := pset s.mesh.lsas o (some { l with seenAt := s.time.total }) } }
    let w := setFld (cellWord ws 1) 55 50 s.meshSelf
    let fwd := match ws with
      | w0 :: _ :: rest => setFld (setFld w0 31 0 0) 55 44 0 :: w :: rest
      | _ => ws
    (s.flood (some q) fwd).closeAdopt o l

/-- An offset of the tide grid wrapped into −2^19 to 2^19 SCLK, in 1/16 SCLK (R493). -/
def wrapOfs (x : Int) : Int := int2c 24 (x % 2 ^ 24).toNat

/-- A measurement of the alignment offset taken (R494): `ALIGNED` sets within 2 SCLK and clears beyond 4. -/
def State.alignTake (s : State) (ofs : Int) : State :=
  let now := if ofs.natAbs ≤ 32 then true else if 64 < ofs.natAbs then false else s.mesh.aligned && s.measured
  { s with mesh := { s.mesh with ofs := ofs, aligned := now, measAt := s.time.total } }

/-- No measurement for 1 ms clears `ALIGNED` (R494). -/
def State.alignLapse (s : State) : State :=
  if s.measured then s else { s with mesh := { s.mesh with aligned := false } }

/-- The term that alignment adds to the root PLL's control value, in 10^-12 (R494): −`ALIGN_OFS` / 10 ms within
±`SLEW_PPM`. One unit of 1/16 SCLK is 1/24 ns, or 10^8/24 units of 10^-12 × 10 ms. -/
def State.alignSteer (s : State) : Int :=
  if s.meshZ = 0 then 0
  else
    let lim : Int := (s.rdf R.ALIGN_CFG 0 7 0 : Int) * 1000000
    clampI (-lim) lim (-(s.alignOfs * 100000 / 24))

/-- The tide phase now, in 1/16 SCLK. -/
def State.phase16 (s : State) : Nat := s.time.pos * 16

/-- The answer to an `ALIGN_REQ` (R493). -/
def State.alignAnswer (s : State) (q : Nat) (ws : List Word) (t2 t3 : Nat) : State :=
  s.queueCell q (openCell 2 (ctlWord 3 s.meshSelf)
    (leBytes 4 (cellField ws 16 4) ++ leBytes 4 t2 ++ leBytes 4 t3))

/-- The offset of an exchange (R493); an odd sum is halved toward minus infinity. -/
def exchangeOfs (t1 t2 t3 t4 : Nat) : Int :=
  let a := wrapOfs ((t2 : Int) - t1)
  let b := wrapOfs ((t4 : Int) - t3)
  wrapOfs ((a - b) / 2)

/-- The reference epoch's member (R498): the latest start among `AUTH` members of the part, else the anchor, else
the latest start. Number and start. -/
def State.refEpoch (s : State) : Nat × Int :=
  let own := (s.time.epoch, s.time.epochStart)
  let of := fun (k : Nat) => if k = s.meshSelf then some (s.mesh.auth, own)
    else (s.lsaHeld k).map fun l => (l.flags.getLsbD 2, (l.epoch, timeOf l.startSec l.startNs))
  let all := (onesOf 64 s.partMask.toNat).filterMap of
  let latest := fun (xs : List (Bool × Nat × Int)) =>
    xs.foldl (fun (b : Nat × Int) x => if b.2 < x.2.2 then x.2 else b) ((xs.headD (false, own)).2)
  let auth := all.filter (·.1)
  if !auth.isEmpty then latest auth
  else if bit s.partMask s.meshAnchor then ((of s.meshAnchor).getD (false, own)).2
  else latest all

/-- A member's epoch at its reference: the tide number that array time gives for a start. -/
def State.refTide (s : State) (start : Int) : Nat :=
  (divEven (s.time.tb0 - start) (unitsSclk * tideSclk).toNat).toNat

/-- A mesh cell's word 1 (R500). -/
def meshWord (kind : Nat) (err sec : Bool) (master src dst addr : Nat) : Word :=
  word (at_ 62 kind + at_ 61 (b2n err) + at_ 60 (b2n sec) + at_ 56 master + at_ 50 src + at_ 44 dst + addr % 2 ^ 40)

/-- A mesh cell's payload: tag, byte count, data (R500). -/
def meshPayload (tag count : Nat) (data : List Byte) : List Byte :=
  leBytes 2 tag ++ leBytes 2 count ++ [0, 0, 0, 0] ++ data

/-- A cell sent toward a member; without a path it is lost. -/
def State.meshSend (s : State) (dst : Nat) (ws : List Word) : State :=
  match s.routeTo dst with
  | some q => s.queueCell q ws
  | none => s

/-- The parts of a mesh transaction: at most 192 bytes each, aligned to 64 (R500). -/
def meshParts (a len : Nat) : Nat → Nat → List (Nat × Nat × Nat)
  | 0, _ => []
  | fuel + 1, ofs =>
    if len ≤ ofs then []
    else
      let n := min (len - ofs) (192 - (a + ofs) % 64)
      (a + ofs, ofs, n) :: meshParts a len fuel (ofs + n)

/-- A transaction to a mesh window carried (R500, R501): answered with an error at once for a member outside the
part, or for want of tags; else its request cells leave. -/
def State.meshCarry (s : State) (id k : Nat) : State :=
  match pget s.xbar.txns id with
  | none => s
  | some t =>
    let a := t.addr % 2 ^ 40
    let parts := meshParts a t.len (t.len + 1) 0
    if !bit s.partMask k ∨ (s.routeTo k).isNone then (s.countf R.MESH_ERR 0 47 32).respond id true false []
    else if parts.isEmpty then s.respond id false false []
    else if 4096 < s.mesh.tags.length + parts.length then s.respond id true false []
    else
      let s := s.setTxn id (some { t with left := parts.length
                                          data := if t.write then t.data else List.replicate t.len 0 })
      parts.foldl (fun s p =>
        let tag := ((List.range 4096).find? fun i =>
          (pget s.mesh.tags ((s.mesh.nextTag + i) % 4096)).isNone).getD 0
        let tag := (s.mesh.nextTag + tag) % 4096
        let s := { s with mesh := { s.mesh with
          tags := pset s.mesh.tags tag (some { txn := id, ofs := p.2.1, len := p.2.2, since := s.time.total })
          nextTag := (tag + 1) % 4096 } }
        let data := if t.write then (t.data.drop p.2.1).take p.2.2 else []
        s.meshSend k (openCell 3 (meshWord (b2n t.write) false t.secure t.master s.meshSelf k p.1)
          (meshPayload tag (if t.write then 0 else p.2.2) data))) s

/-- A mesh tag answered: its part done, or the whole transaction answered with an error (R501). -/
def State.meshDone (s : State) (tag : Nat) (err : Bool) (data : List Byte) : State :=
  match pget s.mesh.tags tag with
  | none => s
  | some m =>
    let s := { s with mesh := { s.mesh with tags := pset s.mesh.tags tag none } }
    if err then s.respond m.txn true false [] else s.partDone m.txn m.ofs (data.take m.len) false

/-- A mesh cell that has reached a member: forwarded, or held for this member in its receive buffer (R161, R500). -/
def State.meshArrive (s : State) (q : Nat) (ws : List Word) : State :=
  let dst := fld (cellWord ws 1) 49 44
  if dst = s.meshSelf then { s with mesh := { s.mesh with inbox := s.mesh.inbox ++ [(q, ws)] } }
  else
    let s := s.freeBuf q 3
    let fwd := match ws with
      | w0 :: rest => setFld (setFld w0 31 0 0) 55 44 0 :: rest
      | [] => []
    s.meshSend dst fwd

/-- Whether an accepted cell is a request for this member. -/
def isRequest (ws : List Word) : Bool := decide (fld (cellWord ws 1) 63 62 < 2)

/-- The first cell of a list that meets a condition, with its quad, and the list without it. -/
def takeFirst (p : List Word → Bool) : List (Nat × List Word) → Option ((Nat × List Word) × List (Nat × List Word))
  | [] => none
  | c :: cs => if p c.2 then some (c, cs) else (takeFirst p cs).map fun r => (r.1, c :: r.2)

/-- A response cell sent to a requesting member. -/
def State.meshRespond (s : State) (src tag master : Nat) (write sec err : Bool) (addr : Nat) (data : List Byte) :
    State :=
  s.meshSend src (openCell 3 (meshWord (if write then 3 else 2) err sec master s.meshSelf src addr)
    (meshPayload tag 0 (if err || write then [] else data)))

/-- Every mesh transaction with a request cell in a list answered with an error response (R166). -/
def State.meshFailCells (s : State) (cells : List (List Word)) : State :=
  (cells.filter fun c => cellType c = 3 ∧ isRequest c ∧ fld (cellWord c 1) 55 50 = s.meshSelf).foldl
    (fun s c => s.meshDone (cellField c 16 2 % 4096) true []) s

/-- A control cell taken under its `MSG` (R490, R491). `t2`, `t3` and `t4` are the phases that an exchange needs. -/
def State.controlTake (s : State) (q : Nat) (ws : List Word) (t2 t3 t4 : Nat) : State :=
  let msg := fld (cellWord ws 1) 63 56
  if (s.meshPeer q).isNone ∨ 3 < msg ∨ msg = 0 then s.countf R.MESH_ERR 0 31 16
  else if msg = 1 then s.lsaTake q ws
  else if msg = 2 then s.alignAnswer q ws t2 t3
  else if s.alignSrc = 2 then
    s.alignTake (exchangeOfs (cellField ws 16 4) (cellField ws 20 4) (cellField ws 24 4) t4)
  else s

/-- An accepted control cell passed on, its buffer freed (R161, R491). -/
def State.controlPass (s : State) (q : Nat) (ws : List Word) (t2 t3 t4 : Nat) : State :=
  (s.freeBuf q 2).controlTake q ws t2 t3 t4

/-- An accepted mesh cell passed to the bridge (R161, R490, R500). -/
def State.meshPass (s : State) (q : Nat) (ws : List Word) : State :=
  if (s.meshPeer q).isNone then (s.freeBuf q 3).countf R.MESH_ERR 0 31 16 else s.meshArrive q ws

/-- An accepted cell held for test delay (R182). -/
def State.holdCell (s : State) (q : Nat) (ws : List Word) (t2 t3 t4 : Nat) : State :=
  let l := s.lk q
  s.setLk q { l with held := l.held ++ [(s.imgNow + s.rxDelay q, ws, t2, t3, t4)] }

/-- A control cell's arrival (R157, R162, R182, R491): cells are passed on in their order. -/
def State.controlRx (s : State) (q : Nat) (ws : List Word) (t2 t3 t4 : Nat) : State :=
  match s.rxInOrder q ws with
  | (s', true) => if s'.rxDelay q = 0 ∧ (s'.lk q).held = [] then s'.controlPass q ws t2 t3 t4 else s'.holdCell q ws t2 t3 t4
  | (s', false) => s'

/-- A mesh cell's arrival (R157, R162, R182, R490, R500). -/
def State.meshRx (s : State) (q : Nat) (ws : List Word) : State :=
  match s.rxInOrder q ws with
  | (s', true) => if s'.rxDelay q = 0 ∧ (s'.lk q).held = [] then s'.meshPass q ws else s'.holdCell q ws 0 0 0
  | (s', false) => s'

/-- The cells whose test delay is over, passed on (R182). -/
def State.passHeld (s : State) (q : Nat) : State :=
  let hs := (s.lk q).held
  let due := hs.takeWhile fun h => h.1 ≤ s.imgNow
  let s := s.setLk q { s.lk q with held := hs.drop due.length }
  due.foldl (fun s h =>
    if cellType h.2.1 = 2 then s.controlPass q h.2.1 h.2.2.1 h.2.2.2.1 h.2.2.2.2 else s.meshPass q h.2.1) s

/-- The links brought up to now: delayed cells passed on, and expected cells found absent (R138, R182). -/
def State.linksNow (s : State) : State :=
  ((s.links.link.map (·.1)).foldl State.passHeld s).absentNow

/-- When the links' next such event comes, in SCLK of the data path. -/
def State.linksNext (s : State) : Option Nat :=
  let ts := (s.links.link.map fun e => (e.2.held.map (·.1)).head?).filterMap id
    ++ s.links.due.filterMap fun e => e.2.map fun d => s.imgOf (s.absentAt d)
  ts.min?

/-- R315: whether a partial-sum cell from a link's partner comes from outside this member's part. -/
def State.outsidePart (s : State) (q : Nat) : Bool :=
  (s.mesh.role == .minority || s.mesh.role == .joining) &&
    (match (List.range s.meshZ).find? fun k => s.rd R.MEMBER_SERIAL 0 k == s.rd R.PEER_SERIAL q with
     | some k => !bit s.partMask k
     | none => false)

end Sys2Proof.Machine
end

