-- ==== Sys2Proof/Machine/RingOps.lean ====
section
/-! DEFINITION. MSI-X messages (R381), crossbar requests, and the queue manager's rings (R349 to R354). -/

namespace Sys2Proof.Machine

/-- An MSI-X table entry at reset. -/
def msixDflt (_ : Nat) : MsixEntry := {}

/-- Whether the function may send requests: link up, not in D3hot, Bus Master Enable set (R377, R380). -/
def State.pcieMaster (s : State) : Bool := s.pcie.up && !s.pcie.d3 && s.pcie.bme

/-- A message on an MSI-X vector (R381): sent, or held by its pending bit while the vector or the function is
masked. -/
def State.msixSend (s : State) (v : Nat) : State :=
  let e := mget msixDflt s.pcie.table v
  if !s.pcie.msixEn then s
  else if e.masked || s.pcie.maskAll then
    { s with pcie := { s.pcie with pba := mset (fun _ => false) s.pcie.pba v true } }
  else if s.pcieMaster then s.emit (.msix v e.addr e.data)
  else s

/-- What every command ends with: the tracking of the saltern and of the conditions of R12, and the signals of R82. -/
def State.finish (s0 s1 : State) : State := signal State.msixSend s0 (State.meshTrack s0 s1).condTrack

/-- A command's outcome: the next state, with its signals. -/
def done (s0 s1 : State) : Host.Outcome State Fault Refusal := .next (s0.finish s1)

/-- A crossbar request entered for arbitration (R360, R361): its QoS is its master's, or the one given. Answers its
identifier. -/
def State.request (s : State) (master : Nat) (secure write : Bool) (addr len : Nat) (data : List Byte)
    (qos : Option Nat) (o : Origin) : Nat × State :=
  let id := s.xbar.next
  let q := qos.getD (s.rdf R.XB_QOS 0 (4 * master + 3) (4 * master))
  let t : Txn := { master := master, secure := secure, write := write, addr := addr, len := len, data := data,
                   qos := q, waited := s.time.total, port := 8, gen := none, left := 0, resp := none, origin := o }
  let a := s.mapAddr master addr
  let t := { t with addr := a, port := match rowOfRange a len with
    | some r => r.2.2.port
    | none => 8 }
  (id, { s with xbar := { s.xbar with next := id + 1, txns := pset s.xbar.txns id (some t) } })

/-- A transaction without a target: answered with a decode error (R357). -/
def State.noTarget (s : State) (id : Nat) : State :=
  match pget s.xbar.txns id with
  | some t => if t.port = 8 ∧ t.resp.isNone then
      (s.decodeError t.master t.write t.secure t.addr).respond id true false [] else s
  | none => s

/-- A request entered, and answered at once where no target holds its range. -/
def State.enter (s : State) (master : Nat) (secure write : Bool) (addr len : Nat) (data : List Byte)
    (qos : Option Nat) (o : Origin) : State :=
  let (id, s) := s.request master secure write addr len data qos o
  s.noTarget id

/-- An access cut at 4 KiB boundaries (R360): offset and length of each burst. -/
def bursts (a len : Nat) : Nat → Nat → List (Nat × Nat)
  | 0, _ => []
  | fuel + 1, ofs =>
    if len ≤ ofs then []
    else
      let n := min (len - ofs) (4096 - (a + ofs) % 4096)
      (ofs, n) :: bursts a len fuel (ofs + n)

/-- A ring at reset. -/
def ringDflt (_ : Nat) : Ring := {}
/-- A ring. -/
def State.ring (s : State) (r : Nat) : Ring := mget ringDflt s.net.ring r
/-- A ring, written. -/
def State.setRing (s : State) (r : Nat) (v : Ring) : State :=
  { s with net := { s.net with ring := mset ringDflt s.net.ring r v } }

/-- `TYPE` of a ring. -/
def Ring.type (r : Ring) : Nat := fld r.d0 63 60
/-- `ENABLE`. -/
def Ring.on (r : Ring) : Bool := bit r.d0 48
/-- The number of entries. -/
def Ring.size (r : Ring) : Nat := 2 ^ fld r.d0 55 51
/-- `BASE`. -/
def Ring.base (r : Ring) : Nat := fld r.d0 47 0
/-- `OWNER`. -/
def Ring.owner (r : Ring) : Nat := fld r.d0 50 49
/-- `HEAD`. -/
def Ring.head (r : Ring) : Nat := fld r.d1 63 32
/-- `TAIL`. -/
def Ring.tail (r : Ring) : Nat := fld r.d1 31 0
/-- An occupancy (R351). -/
def occupancy (tail head : Nat) : Nat := (tail + 2 ^ 32 - head) % 2 ^ 32
/-- Entries that a device producer has allocated and the owner has not consumed. -/
def Ring.used (r : Ring) : Nat := occupancy r.alloc r.head
/-- Whether the software is a ring's producer (R350). -/
def Ring.softFed (r : Ring) : Bool := r.type == 1 || r.type == 4
/-- Free entries (R351, R371): of a ring that the device feeds, those not allocated yet. -/
def Ring.room (r : Ring) : Nat := r.size - (if r.softFed then occupancy r.tail r.head else r.used)
/-- The address of an entry (R351). -/
def Ring.slot (r : Ring) (x : Nat) : Nat := r.base + 64 * (x % r.size)
/-- The phase bit of an entry that the device produces (R351). -/
def Ring.phase (r : Ring) (x : Nat) : Bool := x / r.size % 2 == 0

/-- A ring's message on its vector: rings that signal one vector in one FCLK share it (R354). -/
def State.ringMsg (s : State) (v : Nat) : State :=
  let now := some (v, s.time.total / 2)
  if s.net.lastMsg = now then s
  else
    let s1 : State := { s with net := { s.net with lastMsg := now } }
    s1.msixSend v

/-- A ring's signal (R354). -/
def State.ringSignal (s : State) (r : Nat) : State :=
  let g := s.ring r
  let s := s.setRing r { g with progress := 0, since := none }
  if g.owner = 0 then s.ringMsg (fld g.d2 52 42) else s.emit (.ringIrq r)

/-- Progress on a ring (R354). -/
def State.ringProgress (s : State) (r n : Nat) : State :=
  let g := s.ring r
  let g := { g with progress := g.progress + n, since := some (g.since.getD s.time.total) }
  let s := s.setRing r g
  if bit g.d2 41 ∧ max 1 (fld g.d2 31 16) ≤ g.progress then s.ringSignal r else s

/-- `QM_LAST_ERR` and the event of a full ring or a failed write (R353). -/
def State.ringError (s : State) (r kind : Nat) : State :=
  let s := s.wr R.QM_LAST_ERR 0 (word (at_ 32 (s.time.tide % 2 ^ 32) + at_ 12 kind + r))
  s.raise 0x58 kind

/-- A producer that finds its ring full (R353). -/
def State.ringFull (s : State) (r : Nat) : State := (s.countf R.QM_ERR 0 63 48).ringError r 0

/-- The producer index advanced over every entry written in order (R351). -/
def advanceTail : Nat → List Nat → Nat → Nat × List Nat
  | 0, xs, t => (t, xs)
  | n + 1, xs, t => if xs.contains t then advanceTail n (xs.filter (· ≠ t)) ((t + 1) % 2 ^ 32) else (t, xs)

/-- An entry of a ring written: `TAIL` advances over it once every earlier one is written. -/
def State.ringWritten (s : State) (r idx : Nat) : State :=
  let g := s.ring r
  let xs := idx :: g.ahead
  let (t, ys) := advanceTail xs.length xs g.tail
  let n := occupancy t g.tail
  let s := s.setRing r { g with d1 := setFld g.d1 31 0 t, ahead := ys }
  if n = 0 then s else s.ringProgress r n

/-- An entry write that failed: the ring is disabled (R353). -/
def State.ringWriteFailed (s : State) (r : Nat) : State :=
  let g := s.ring r
  let s := s.setRing r { g with d0 := clrBit g.d0 48 }
  let s := (s.countf R.QM_ERR 0 47 32).ringError r 1
  s.report 0x58 0 0x15 (s.rd R.QM_LAST_ERR) 0

/-- A ring job, written. -/
def State.setJob (s : State) (j : Nat) (v : Option RingJob) : State :=
  { s with net := { s.net with jobs := pset s.net.jobs j v } }

/-- The master that writes a job's entry (R359, R414): the receive writer, the DMA write engine, or the active
supervisor. -/
def State.jobMaster (s : State) (j : RingJob) : Nat :=
  if j.port.isSome then 7 else if j.chan.isSome then 4 else b2n (s.sup.sv1 == .active)

/-- The world of a job's write (R359, R414): secure only for a channel with `SECURE`. -/
def State.jobSecure (s : State) (j : RingJob) : Bool :=
  match j.chan with
  | some c => bit (s.getReg (regKey 0 0x59 c R.CH_CFG.off)) 63
  | none => false

/-- The QoS of a job's write: a channel's own (R361). -/
def State.jobQos (s : State) (j : RingJob) : Option Nat :=
  j.chan.map fun c => fld (s.getReg (regKey 0 0x59 c R.CH_CFG.off)) 11 8

/-- A job's entry written: one 64-byte write (R351). -/
def State.jobEntry (s : State) (id : Nat) : State :=
  match pget s.net.jobs id with
  | none => s
  | some j =>
    let data := (j.words.map fun w => leBytes 8 w.toNat).flatten
    s.enter (s.jobMaster j) (s.jobSecure j) true ((s.ring j.ring).slot j.idx) 64 data (s.jobQos j) (.ringWrite id)

/-- An entry allocated on a ring with its phase bit put in (R351). The caller has checked for space. -/
def State.ringAlloc (s : State) (r : Nat) (ws : List Word) (port chan : Option Nat) (bytes : Nat) : Nat × State :=
  let g := s.ring r
  let x := g.alloc
  let ws := ws.take 7 ++ [putBit (ws.getD 7 0) 63 (g.phase x)]
  let id := s.net.nextJob
  let j : RingJob := { ring := r, idx := x, words := ws, left := 0, bad := false, port := port, bytes := bytes,
                       chan := chan }
  let s := s.setRing r { g with alloc := (x + 1) % 2 ^ 32 }
  (id, { s with net := { s.net with nextJob := id + 1, jobs := pset s.net.jobs id (some j) } })

/-- An entry produced on a ring that has space and is enabled. -/
def State.ringProduce (s : State) (r : Nat) (ws : List Word) (chan : Option Nat) : State :=
  let (id, s) := s.ringAlloc r ws none chan 0
  s.jobEntry id

/-- Whether an agent is of the kind of a ring's owner (R352). -/
def ownerAllows (owner : Nat) (a : Agent) : Bool :=
  match a with
  | .secure => true
  | .normal => owner == 1
  | .host => owner == 0
  | .debug => false

/-- The index that a writer's own side holds after a write of word 1, with the device's half kept while the ring is
enabled (R352): types 1 and 4 have the software as producer, the others as consumer. -/
def ownIndex (type : Nat) (old new : Word) : Word :=
  if type = 1 ∨ type = 4 then setFld old 31 0 (fld new 31 0) else setFld old 63 32 (fld new 63 32)

/-- Whether an index pair is one that R352 allows: the occupancy stays within the ring, and `HEAD` does not pass
`TAIL`. -/
def indexBad (size tail head : Nat) : Bool := decide (size < occupancy tail head)

/-- Whether R352 keeps an agent from writing a descriptor's word 0: `OWNER` 2 is made, and changed, by the secure world alone
(DEDUCED, notes/assumptions/274.md). -/
def ownerBars (g : Ring) (a : Agent) (d0 : Word) : Bool :=
  let owner := fld d0 50 49
  !(ownerAllows g.owner a || (!g.on && ownerAllows owner a))
    || (a != .secure && owner != g.owner && (owner == 2 || g.owner == 2))

/-- The reasons of R352 against a descriptor write beside its owner's; `d1` is word 1 as it would stand. -/
def ringReasons (g : Ring) (d0 d1 d3 : Word) : List Reason :=
  let owner := fld d0 50 49
  let type := fld d0 63 60
  let setOn := bit d0 48
  let changes := setFld (setFld d0 48 48 0) 59 56 0 != setFld (setFld g.d0 48 48 0) 59 56 0 || d3 != g.d3
  [(owner == 3 || decide (6 ≤ type), .value),
   (setOn && type == 0, .value),
   (setOn && outside (fld d0 55 51) 1 16, .range),
   (setOn && type == 3 && outside (fld d3 63 60) 11 14, .range),
   (setOn && fld d0 47 0 % 64 != 0, .align),
   (setOn && type == 3 && fld d3 47 0 % 64 != 0, .align),
   ((setOn || d1 != g.d1) && indexBad (2 ^ fld d0 55 51) (fld d1 31 0) (fld d1 63 32), .range),
   (g.on && changes, .state)]

/-- A descriptor put in place (R349, R352, R353). -/
def State.ringPut (s : State) (r : Nat) (d0 d1 d2 d3 : Word) : State :=
  let g := s.ring r
  let d1 := if g.on then ownIndex g.type g.d1 d1 else d1
  let g' := { g with d0 := d0, d1 := d1, d2 := d2, d3 := d3 }
  let g' := if g.on then g' else { g' with alloc := fld d1 31 0, fetched := fld d1 63 32, ahead := [] }
  s.setRing r g'

/-- The reasons against a doorbell (R352). -/
def doorbellReasons (g : Ring) (a : Agent) (idx : Nat) : List Reason :=
  let d1 := ownIndex g.type g.d1 (word (at_ 32 idx + idx))
  [(!ownerAllows g.owner a, .owner), (indexBad g.size (fld d1 31 0) (fld d1 63 32), .range), (!g.on, .state)]

/-- A doorbell's effect. -/
def State.doorbell (s : State) (r idx : Nat) : State :=
  let g := s.ring r
  s.setRing r { g with d1 := ownIndex g.type g.d1 (word (at_ 32 idx + idx)) }

end Sys2Proof.Machine
end

