-- ==== Sys2Proof/Machine/XbarOps.lean ====
section
/-! DEFINITION. The crossbar's targets and the DMA engines (spec/13): service of a granted transaction, and what a DMA
channel does at its responses. -/

namespace Sys2Proof.Machine

/-- The state of an image store. -/
def State.storeSt (s : State) (i : Nat) : StoreState := if i = 0 then s.sched.st0 else s.sched.st1

/-- An image store's state, written. -/
def State.setStoreSt (s : State) (i : Nat) (v : StoreState) : State :=
  { s with sched := if i = 0 then { s.sched with st0 := v } else { s.sched with st1 := v } }

/-- An image store's bytes, replaced. -/
def State.setStoreMem (s : State) (i : Nat) (m : Memory) : State :=
  { s with sched := if i = 0 then { s.sched with image0 := m } else { s.sched with image1 := m } }

/-- Code of a store's state (R103). -/
def StoreState.code : StoreState → Nat
  | .empty => 0
  | .written => 1
  | .checking => 2
  | .valid => 3
  | .armed => 4
  | .running => 5
  | .refused => 6

/-- `SCHED_STAT` (R115). -/
def State.schedStat (s : State) : Word :=
  let p := s.sched.pend
  word (at_ 15 (b2n (p.any fun a => !a.halt)) + at_ 14 (b2n (p.any (·.halt))) + at_ 13 (b2n s.sched.stress)
    + at_ 12 (b2n s.sched.run.isSome) + at_ 8 (s.sched.run.getD 0) + at_ 4 s.sched.st1.code + s.sched.st0.code)

/-- Whether a store refuses writes: it is under check, armed or running (R104). -/
def State.storeLocked (s : State) (i : Nat) : Bool :=
  s.storeSt i == .checking || s.storeSt i == .armed || s.storeSt i == .running

/-- A write through a store window (R104): done, or refused with an error response, event and report. -/
def State.storeWrite (s : State) (i off : Nat) (data : List Byte) : State × Bool :=
  if s.storeLocked i then
    ((s.raise 0x10 5).report 0x10 0 0x0B s.schedStat (s.rd R.LOAD_STAT), false)
  else ((s.setStoreMem i ((s.storeMem i).write off data)).setStoreSt i .written, true)

/-- The word of the bittern ring, and the checkpoint mirror after it, that AON SRAM shows (R455, R508). -/
def State.aonByte (s : State) (a : Nat) : Byte :=
  if a < 0x40000 then
    BitVec.ofNat 8 ((mget (fun _ => (0 : Word)) s.bitt.ring (a / 8)).toNat / 256 ^ (a % 8))
  else s.nv.sram.byte a

/-- Bytes written to AON SRAM: words of the bittern ring, and the mirror after it (R358, R455, R508). -/
def State.aonWrite (s : State) (a : Nat) : List Byte → State
  | [] => s
  | b :: bs =>
    let s1 : State := if a < 0x40000 then
        let w := mget (fun _ => (0 : Word)) s.bitt.ring (a / 8)
        let o := 8 * (a % 8)
        { s with bitt := { s.bitt with ring := mset (fun _ => (0 : Word)) s.bitt.ring (a / 8) (setFld w (o + 7) o b.toNat) } }
      else { s with nv := { s.nv with sram := s.nv.sram.write a [b] } }
    s1.aonWrite (a + 1) bs

/-- The bytes of an on-chip range. -/
def bytesFrom (f : Nat → Byte) (a : Nat) : Nat → List Byte
  | 0 => []
  | n + 1 => f a :: bytesFrom f (a + 1) n

/-- Outbound requests of a transaction (R380): the TLPs, each within the payload or read request size. -/
def State.tlps (s : State) (id : Nat) (write : Bool) (h : Nat) (data : List Byte) : Nat → Nat → Nat → State
  | 0, _, _ => s
  | fuel + 1, ofs, len =>
    if len ≤ ofs then s
    else
      let n := min (len - ofs) (128 * 2 ^ (if write then s.pcie.mps else s.pcie.mrrs))
      let a := word ((s.rd R.HOST_OFS).toNat + h + ofs)
      (s.emit (.pcieReq id write a n (if write then (data.drop ofs).take n else []))).tlps id write h data fuel
        (ofs + n) len

/-- The agent that a crossbar master is at the register fabric (R50, R53): the supervisor that is active or starts, in its world, or
debug. -/
def State.fabricAgent (s : State) (t : Txn) : Option Agent :=
  let on := fun (v : SvState) => v == .active || v == .starting || v == .qualifying
  match t.master with
  | 0 => if on s.sup.sv0 then some (if t.secure then .secure else .normal) else none
  | 1 => if on s.sup.sv1 then some (if t.secure then .secure else .normal) else none
  | 6 => some .debug
  | _ => none

/-- A transaction that has won its port and passed the firewall, served by its target (R357, R358, R378, R380). An agent's access to
the register space is left to the fabric. -/
def State.serveTxn (s : State) (id : Nat) (t : Txn) (row : MapRow) : State :=
  let o := t.addr - row.1
  let refuse := (s.decodeError t.master t.write t.secure t.addr).respond id true false []
  match row.2.2 with
  | .heap =>
    if t.write && s.weightRefused t.addr t.len then (s.count R.WT_REFUSED 0).respond id true false []
    else s.heapAccept id
  | .rom => if t.write then refuse else s.respond id false false (s.xbar.rom.bytes o t.len)
  | .nvm => if t.write then refuse else s.respond id false false (s.nv.nvm.bytes o t.len)
  | .sram =>
    if t.write then
      ({ s with xbar := { s.xbar with sram := s.xbar.sram.write o t.data } }).respond id false false []
    else s.respond id false false (s.xbar.sram.bytes o t.len)
  | .store i =>
    if t.write then
      match s.storeWrite i o t.data with
      | (s', true) => s'.respond id false false []
      | (s', false) => (s'.decodeError t.master true t.secure t.addr).respond id true false []
    else s.respond id false false ((s.storeMem i).bytes o t.len)
  | .aonSram =>
    if t.write then
      if t.master ≤ 1 ∧ t.secure then
        (s.aonWrite o t.data).respond id false false []
      else refuse
    else s.respond id false false (bytesFrom s.aonByte o t.len)
  | .staging =>
    if t.write then refuse
    else
      let (i, s) := s.fresh
      s.respond id false false (bytesFrom (fun k => Config.stagingByte (i + k)) 0 t.len)
  | .regs =>
    if (s.fabricAgent t).isSome then s
    else
      ((s.recordRejects [{ agent := 4, page := o / 4096, bank := 0, off := o % 4096, code := .access }]).decodeError
        t.master t.write t.secure t.addr).respond id true false []
  | .host =>
    if s.pcieMaster then
      let s := s.tlps id t.write o t.data (t.len + 1) 0 t.len
      if t.write then s.respond id false false []
      else
        let s := s.setTxn id ((pget s.xbar.txns id).map fun x => { x with waited := s.time.total })
        { s with pcie := { s.pcie with outbound := s.pcie.outbound ++ [id] } }
    else s.respond id true false []
  | .mesh k => if s.meshZ ≠ 0 ∧ k = s.meshSelf then refuse else s.meshCarry id k

/-- The granted transaction checked against the firewall and served (R358, R363, R364). -/
def State.grant (s : State) (id : Nat) (t : Txn) : State :=
  let s := { s with xbar := { s.xbar with winners := mset (fun _ => 8) s.xbar.winners t.port t.master } }
  let s := s.setTxn id (some { t with gen := some (s.rdf R.FW_GEN 0 31 0) })
  match rowOfRange t.addr t.len with
  | none => s.respond id true false []
  | some row =>
    match s.fwRefusal t.master t.secure t.write t.addr t.len with
    | some (cause, rule) =>
      (s.fwDenied t.master t.write t.secure cause rule t.addr).respond id true false []
    | none => s.serveTxn id t row

/-- Effective QoS of a waiting request (R361): 2,048 FCLK are 4,096 SCLK. -/
def State.effQos (s : State) (t : Txn) : Nat := if t.waited + 4096 ≤ s.time.total then 15 else t.qos

/-- The requests that a read of the host's memory is split into (R380). -/
def State.readTlps (s : State) (len : Nat) : Nat :=
  let n := 128 * 2 ^ s.pcie.mrrs
  (len + n - 1) / n

/-- Whether the endpoint takes a further read: 768 non-posted requests are outstanding at most (R377). -/
def State.outboundFree (s : State) (len : Nat) : Bool :=
  let used := (s.pcie.outbound.map fun id => match pget s.xbar.txns id with
    | some t => s.readTlps t.len
    | none => 0).sum
  decide (used + s.readTlps len ≤ 768)

/-- The requests waiting at a port that it can accept. -/
def State.waiting (s : State) (port : Nat) : List (Nat × Txn) :=
  s.xbar.txns.filterMap fun e => match e.2 with
    | some t => if t.port = port ∧ t.gen.isNone ∧ t.resp.isNone ∧ (port = 5 → t.write = false → s.outboundFree t.len = true)
        then some (e.1, t) else none
    | none => none

/-- The winner of a port (R360): highest effective QoS, then the first master after the previous winner, then the
master's oldest request. -/
def State.winner (s : State) (port : Nat) : Option (Nat × Txn) :=
  let ws := s.waiting port
  let q := ((ws.map fun w => s.effQos w.2).max?).getD 0
  let ws := ws.filter fun w => s.effQos w.2 = q
  let prev := mget (fun _ => 8) s.xbar.winners port
  let order := (List.range 9).map fun i => (prev + 1 + i) % 9
  order.findSome? fun m => ws.find? fun w => w.2.master = m

/-- A DMA channel at reset. -/
def chanDflt (_ : Nat) : Chan := {}
/-- A DMA channel. -/
def State.ch (s : State) (c : Nat) : Chan := mget chanDflt s.dma.chan c
/-- A DMA channel, written. -/
def State.setCh (s : State) (c : Nat) (v : Chan) : State :=
  { s with dma := { s.dma with chan := mset chanDflt s.dma.chan c v } }
/-- `CH_CFG` and `CH_PROG` are kept for each channel, in the bank of its number. -/
def chKey (c off : Nat) : Nat := regKey 0 0x59 c off
/-- `CH_CFG` of a channel. -/
def State.chCfg (s : State) (c : Nat) : Word := s.getReg (chKey c R.CH_CFG.off)
/-- `CH_PROG` of a channel. -/
def State.chProg (s : State) (c : Nat) : Word := s.getReg (chKey c R.CH_PROG.off)
/-- `CH_STAT_k` (R384). -/
def State.chStat (s : State) (c : Nat) : Word :=
  let h := s.ch c
  let st := match h.state with
    | .idle => 0
    | .run => 1
    | .wait => 2
    | .done => 3
    | .halted => 4
    | .stopping => 5
  word (at_ 56 h.status + at_ 48 st + at_ 40 h.attempts)

/-- Words of an instruction by its first word (R368). -/
def instrLen (w : Word) : Nat :=
  match fld w 63 60 with
  | 1 => 3
  | 2 => 4
  | 3 => 2
  | 4 => if fld w 59 58 = 1 then 2 else 1
  | _ => 1

/-- Whether a fetched instruction is illegal (R368): a reserved `OP` or field, a zero length, a `TARGET` that is not
below the `LOOP`'s own index. -/
def instrBad (idx : Nat) (ws : List Word) : Bool :=
  let w := ws.headD 0
  let addr := fun i => fld (ws.getD i 0) 63 48 != 0
  match fld w 63 60 with
  | 1 => fld w 58 32 != 0 || fld w 31 0 == 0 || addr 1 || addr 2
  | 2 => fld w 58 52 != 0 || fld w 31 0 == 0 || addr 1 || addr 2
  | 3 => fld w 58 48 != 0 || decide (idx ≤ fld w 47 32)
  | 4 => fld w 57 48 != 0 || fld w 59 58 == 3 || (fld w 59 58 == 0 && fld w 31 6 != 0)
      || (fld w 59 58 == 2 && fld w 31 28 != 0)
  | 5 => fld w 58 44 != 0 || (bit w 59 && (fld w 43 32 != 0 || fld w 31 6 != 0))
  | 6 => fld w 59 0 != 0
  | 7 => fld w 59 32 != 0
  | _ => true

/-- A completion entry's words (R375). -/
def State.cplWords (s : State) (c status tag : Nat) : List Word :=
  let h := s.ch c
  [word (at_ 56 status + at_ 48 c + tag), word (h.pc % 2 ^ 48), word (at_ 32 h.discarded + h.written % 2 ^ 32),
   s.tideWord, 0, 0, 0, 0]

/-- Whether a ring takes a completion entry: enabled, of type 5. -/
def State.cplRing (s : State) (r : Nat) : Bool := (s.ring r).on && (s.ring r).type == 5

/-- The final state of a channel: `DONE` or `HALTED` (R374, R375). -/
def State.dmaRest (s : State) (c status : Nat) : State :=
  let s := s.setCh c { s.ch c with state := if status = 1 then .done else .halted, ending := none, pages := [], full := false }
  if status = 1 then s.raise 0x59 0 else (s.countf R.DMA_ERR 0 47 32).raise 0x59 1

/-- Whether a channel's final entry meets a full ring now (R375). -/
def State.finalHeld (s : State) (c : Nat) : Bool :=
  let r := fld (s.chCfg c) 51 40
  bit (s.chCfg c) 39 && s.cplRing r && (s.ring r).room == 0

/-- A channel ended: its final entry written if it has one, then its final state (R374, R375). A full ring leaves it in
`STOPPING`, and counts once (R353). -/
def State.dmaFinal (s : State) (c status tag : Nat) : State :=
  let r := fld (s.chCfg c) 51 40
  if s.finalHeld c then
    if (s.ch c).full then s else (s.setCh c { s.ch c with full := true }).ringFull r
  else (if bit (s.chCfg c) 39 && s.cplRing r then s.ringProduce r (s.cplWords c status tag) (some c) else s).dmaRest c status

/-- Whether a channel is in `STOPPING` only for its final entry, which a full ring holds back (R375). -/
def State.finalPending (s : State) (c : Nat) : Bool :=
  (s.ch c).state == .stopping && (s.ch c).out == 0 && (s.ch c).ending.isSome && s.finalHeld c

/-- A final entry that a full ring holds back dropped by `ABORT` or `CLEAR` (R375). -/
def State.dmaDrop (s : State) (c : Nat) : State := s.dmaRest c ((s.ch c).ending.elim 0 (·.1))

/-- The bytes that a channel has read and not written (R374). -/
def Chan.unwritten (h : Chan) : Nat := ((h.pages.filter fun p => p.data.isSome).map fun p => p.len - p.put).sum

/-- A stopping channel whose transactions have all retired ends (R374, R375); a bus error waits for its own
command. -/
def State.dmaSettle (s : State) (c : Nat) : State :=
  let h := s.ch c
  match h.ending with
  | some (st, tag) =>
    if h.state = .stopping ∧ h.out = 0 ∧ st ≠ 2 then
      let disc := h.unwritten
      let s := s.setCh c { h with discarded := disc }
      s.dmaFinal c st tag
    else s
  | none => s

/-- A channel stopped with a status (R366, R368 to R374): it issues nothing more; transactions held for a reissue
are dropped. -/
def State.dmaStop (s : State) (c status tag : Nat) : State :=
  let h := s.ch c
  let h := { h with state := .stopping, status := status, ending := some (status, tag), copy := none
                    out := h.out - h.held.length, held := [] }
  (s.setCh c h).dmaSettle c

/-- Whether a channel's next instruction word is to be fetched, and none is on its way (R366, R368). -/
def Chan.wantsFetch (h : Chan) : Bool :=
  let need := match h.instr with
    | [] => 1
    | w :: _ => instrLen w
  h.state == .run && h.copy.isNone && !h.fetching && decide (h.instr.length < need)

/-- The instruction done: the next one is to be fetched. -/
def State.dmaNext (s : State) (c : Nat) : State :=
  let h := s.ch c
  let n := match h.instr with
    | [] => 0
    | w :: _ => instrLen w
  s.setCh c { h with state := .run, pc := (h.pc + 8 * n) % 2 ^ 48, instr := [] }

/-- The next burst that a copy reads: source, destination, length (R360, R369). A row whose ranges overlap in one row of the map goes in
descending order where its destination lies above its source (R373). -/
def Copy.next (k : Copy) : Nat × Nat × Nat :=
  let src := ((k.src : Int) + k.sStride * k.row).toNat
  let dst := ((k.dst : Int) + k.dStride * k.row).toNat
  let left := k.rowLen - k.ofs
  if k.same && decide (src < dst) && decide (dst < src + k.rowLen) then
    let e := src + left
    let n := min left ((e - 1) % 4096 + 1)
    (e - n, dst + left - n, n)
  else
    let n := min left (4096 - (src + k.ofs) % 4096)
    (src + k.ofs, dst + k.ofs, n)

/-- A copy after a burst: the next row once this one is read; none when every row is. -/
def Copy.advance (k : Copy) (n : Nat) : Option Copy :=
  if k.ofs + n < k.rowLen then some { k with ofs := k.ofs + n }
  else if k.row + 1 < k.rows then some { k with row := k.row + 1, ofs := 0 }
  else none

/-- Pages of the DMA buffer in use (R367). -/
def State.dmaPages (s : State) : Nat := (s.dma.chan.map fun e => e.2.pages.length).sum

/-- Transactions of one DMA engine (master) in flight. -/
def State.dmaOut (s : State) (master : Nat) : Nat :=
  (s.xbar.txns.filter fun e => match e.2 with
    | some t => t.master == master
    | none => false).length

/-- Whether a channel has a read of a copy ready, with a free page within its limit (R367, R373). -/
def State.copyReady (s : State) (c : Nat) : Bool :=
  let h := s.ch c
  match h.copy with
  | none => false
  | some k =>
    h.state == .run && decide (h.pages.length < fld (s.chCfg c) 26 16) && decide (s.dmaPages < 1024)
      && !(k.serial && k.ofs == 0 && (!h.pages.isEmpty || h.out != 0))

/-- Whether a channel has a transaction for the read engine. -/
def State.readReady (s : State) (c : Nat) : Bool := (s.ch c).wantsFetch || s.copyReady c

/-- Whether a channel has buffered data for the write engine: the oldest page's, in the order of its reads (R367). -/
def State.writeReady (s : State) (c : Nat) : Bool :=
  (s.ch c).state != .stopping && ((s.ch c).pages.head?.any fun p => p.data.isSome)

/-- The channel that an engine serves next (R367): the highest `QOS`, and among equals the first after the previous one. -/
def State.dmaPick (s : State) (prev : Nat) (ok : Nat → Bool) : Option Nat :=
  let qos (c : Nat) : Nat := fld (s.chCfg c) 11 8
  let cs := (s.dma.chan.map (·.1)).filter ok
  let best := cs.filter fun c => qos c = ((cs.map qos).max?).getD 0
  (best.find? fun c => decide (prev < c)).or best.head?

/-- A channel's transaction issued by the read engine: a fetch, or a copy's next read, which takes a page (R360, R367 to R369). -/
def State.dmaReadOne (s : State) (c : Nat) : State :=
  let h := s.ch c
  let cfg := s.chCfg c
  if h.wantsFetch then
    (s.setCh c { h with out := h.out + 1, fetching := true }).enter 3 (bit cfg 63) false (h.pc + 8 * h.instr.length) 8 []
      (some (fld cfg 11 8)) (.dmaFetch c 0)
  else
    match h.copy with
    | none => s
    | some k =>
      let (src, dst, n) := k.next
      let id := s.xbar.next
      let s := s.setCh c { h with out := h.out + 1, copy := k.advance n
                                  pages := h.pages ++ [{ txn := id, seq := h.seq, dst := dst, len := n, data := none }] }
      let s := s.enter 3 (bit cfg 63) false src n [] (some (fld cfg 11 8)) (.dmaRead c 0 h.seq)
      if (k.advance n).isSome then s else s.dmaNext c

/-- A channel's transaction issued by the write engine: the next burst of its oldest page, which is freed after its last (R360,
R367). -/
def State.dmaWriteOne (s : State) (c : Nat) : State :=
  let h := s.ch c
  let cfg := s.chCfg c
  match h.pages with
  | [] => s
  | p :: ps =>
    let n := min (p.len - p.put) (4096 - (p.dst + p.put) % 4096)
    let rest := if p.put + n < p.len then { p with put := p.put + n } :: ps else ps
    (s.setCh c { h with out := h.out + 1, pages := rest }).enter 4 (bit cfg 63) true (p.dst + p.put) n
      (((p.data.getD []).drop p.put).take n) (some (fld cfg 11 8)) (.dmaWrite c 0 p.seq)

/-- When an engine may issue its transaction: the test's delay after it turned to it (R515). -/
def State.dmaDue (s : State) (at_ : Option Nat) : Nat := at_.getD (s.time.total + testDelay (s.rd R.TP_DMA))

/-- Whether an engine that may issue at a time waits now (R515). -/
def State.dmaHeld (s : State) (due : Nat) : Bool := decide (s.time.total < due) || s.testHeld 0x68 (s.rd R.TP_DMA)

/-- A turn of the write engine (R367, R515): none where nothing changes. -/
def State.writeTurn (s : State) : Option State :=
  match (if s.dmaOut 4 < 2048 then s.dmaPick s.dma.prevWr s.writeReady else none) with
  | none => if s.dma.wrAt.isSome then some { s with dma := { s.dma with wrAt := none } } else none
  | some c =>
    let due := s.dmaDue s.dma.wrAt
    if s.dmaHeld due then (if s.dma.wrAt.isSome then none else some { s with dma := { s.dma with wrAt := some due } })
    else some (({ s with dma := { s.dma with prevWr := c, wrAt := none } } : State).dmaWriteOne c)

/-- A turn of the read engine (R367, R515): none where nothing changes. -/
def State.readTurn (s : State) : Option State :=
  match (if s.dmaOut 3 < 2048 then s.dmaPick s.dma.prevRd s.readReady else none) with
  | none => if s.dma.rdAt.isSome then some { s with dma := { s.dma with rdAt := none } } else none
  | some c =>
    let due := s.dmaDue s.dma.rdAt
    if s.dmaHeld due then (if s.dma.rdAt.isSome then none else some { s with dma := { s.dma with rdAt := some due } })
    else some (({ s with dma := { s.dma with prevRd := c, rdAt := none } } : State).dmaReadOne c)

/-- The engines' turns, one transaction of each an FCLK, while there is one to issue within the limit of 2,048 (R367). -/
def State.dmaTurns : Nat → State → State
  | 0, s => s
  | n + 1, s =>
    match s.writeTurn with
    | some s1 => State.dmaTurns n (s1.readTurn.getD s1)
    | none =>
      match s.readTurn with
      | some s1 => State.dmaTurns n s1
      | none => s

/-- When an engine that the test holds back may go on, in SCLK since AON start (R515). -/
def State.dmaNextAt (s : State) : Option Nat :=
  let of := fun (a : Option Nat) => a.map fun t =>
    if s.time.total < t then t
    else if s.testHeld 0x68 (s.rd R.TP_DMA) then s.time.total + s.testLeft 0x68 (s.rd R.TP_DMA)
    else s.time.total
  match of s.dma.rdAt, of s.dma.wrAt with
  | some a, some b => some (min a b)
  | some a, none => some a
  | none, b => b

/-- Everything that the engines can issue now, issued. -/
def State.dmaPump (s : State) : State := State.dmaTurns 8192 s

/-- The engines brought up to now, if the test has held one back (R515). -/
def State.dmaNow (s : State) : State := if s.dma.rdAt.isSome ∨ s.dma.wrAt.isSome then s.dmaPump else s

/-- The record of an instruction's transfers. -/
def Chan.moveRec (h : Chan) (seq : Nat) : MoveRec :=
  (h.moves.find? fun m => m.seq = seq).getD { seq := seq, pc := h.pc, written := h.written }

/-- A failed transaction: reissued 256 FCLK later, or after the last attempt the channel stops with `STATUS` 2 at the failing
instruction (R374). A channel that has been stopped reissues nothing; one that ends by `END` still does. -/
def State.dmaFailed (s : State) (c id tries : Nat) (seq : Option Nat) (t : Txn) : State :=
  let h := s.ch c
  if (h.state = .stopping ∧ h.ending.all (·.1 ≠ 1)) ∨ h.state = .idle then (s.setCh c { h with out := h.out - 1 }).dmaSettle c
  else if tries < fld (s.chCfg c) 2 0 then
    s.setCh c { h with held := h.held ++ [(id, { t with gen := none, resp := none, bad := false, waited := s.time.total })] }
  else
    let h := match seq with
      | some q => { h with pc := (h.moveRec q).pc, written := (h.moveRec q).written }
      | none => h
    (s.setCh c { h with out := h.out - 1, attempts := tries + 1 }).dmaStop c 2 0

/-- A fetched word (R368): an illegal instruction halts the channel with `STATUS` 3. -/
def State.dmaFetched (s : State) (c : Nat) (data : List Byte) : State :=
  let h := s.ch c
  let h := { h with out := h.out - 1, fetching := false }
  if h.state ≠ .run then (s.setCh c h).dmaSettle c
  else
    let ws := h.instr ++ [word (leNat data)]
    let s := s.setCh c { h with instr := ws }
    let idx := (h.pc - (s.chProg c).toNat) / 8
    if (ws.length = 1 ∧ (fld (ws.headD 0) 63 60 = 0 ∨ 8 ≤ fld (ws.headD 0) 63 60)) then s.dmaStop c 3 0
    else if instrLen (ws.headD 0) ≤ ws.length ∧ instrBad idx ws = true then s.dmaStop c 3 0
    else s

/-- Data read for a page. -/
def State.dmaReadDone (s : State) (c id : Nat) (data : List Byte) : State :=
  let h := s.ch c
  let h := { h with out := h.out - 1
                    pages := h.pages.map fun p => if p.txn = id then { p with data := some data } else p }
  (s.setCh c h).dmaSettle c

/-- A write done: counted for its instruction (R374). -/
def State.dmaWriteDone (s : State) (c seq n : Nat) : State :=
  let h := s.ch c
  let h := { h with out := h.out - 1
                    written := if seq = h.seq then h.written + n else h.written
                    moves := h.moves.map fun m => if m.seq = seq then { m with written := m.written + n } else m }
  (s.setCh c h).dmaSettle c

/-- A ring job's buffer write answered: the entry follows the last of them (R338). -/
def State.rxWritten (s : State) (job : Nat) (err : Bool) : State :=
  match pget s.net.jobs job with
  | none => s
  | some j =>
    let j := { j with left := j.left - 1, bad := j.bad || err }
    let j := if j.left = 0 ∧ j.bad then
        { j with words := setBit (setFld (j.words.headD 0) 63 48 0) 31 :: j.words.drop 1 } else j
    let s := s.setJob job (some j)
    if j.left = 0 then
      let s := match j.port with
        | some e => if j.bad then s.countf R.RX_RING e 15 0 else s
        | none => s
      s.jobEntry job
    else s

/-- A port at reset. -/
def portDflt (_ : Nat) : Port := {}
/-- A port. -/
def State.port (s : State) (e : Nat) : Port := mget portDflt s.net.port e
/-- A port, written. -/
def State.setPort (s : State) (e : Nat) (p : Port) : State :=
  { s with net := { s.net with port := mset portDflt s.net.port e p } }

/-- A ring entry's write answered (R338, R351, R353). -/
def State.entryWritten (s : State) (job : Nat) (err : Bool) : State :=
  match pget s.net.jobs job with
  | none => s
  | some j =>
    let s := s.setJob job none
    let s := match j.port with
      | some e =>
        let s := s.setPort e { s.port e with stage := (s.port e).stage - j.bytes }
        if err || j.bad then s
        else (s.count R.RX_FRAMES e).count R.RX_BYTES e (fld (j.words.headD 0) 63 48)
      | none => s
    if err then s.ringWriteFailed j.ring else s.ringWritten j.ring j.idx

/-- A response that has reached its master, by what it serves (R360, R374, R379, R501). -/
def State.deliver (s : State) (id : Nat) (t : Txn) (err poison : Bool) (data : List Byte) : State :=
  match t.origin with
  | .outside => s
  | .pcie =>
    if t.write then (if err then s.emit .pcieErr else s)
    else if err ∧ !poison then
      ((s.countf R.PCIE_ERR 0 63 48).raise 0x0D 2).emit (.pcieCpl 1 [])
    else if poison then
      ((s.countf R.PCIE_ERR 0 31 16).raise 0x0D 2).emit (.pcieCpl 3 (List.replicate t.len 0))
    else s.emit (.pcieCpl 0 data)
  | .dmaFetch c n => if err then s.dmaFailed c id n none t else s.dmaFetched c data
  | .dmaRead c n q => if err then s.dmaFailed c id n (some q) t else s.dmaReadDone c id data
  | .dmaWrite c n q => if err then s.dmaFailed c id n (some q) t else s.dmaWriteDone c q t.len
  | .ringWrite j => s.entryWritten j err
  | .rxWrite j => s.rxWritten j err
  | .txEntry e =>
    let p := s.port e
    match p.tx with
    | some x => s.setPort e { p with tx := some { x with
        entry := some (bytesWords 8 data), bad := err, left := 0 } }
    | none => s
  | .txRead e ofs =>
    let p := s.port e
    match p.tx with
    | some x =>
      let f := x.frame.take ofs ++ data ++ x.frame.drop (ofs + data.length)
      s.setPort e { p with tx := some { x with frame := f, bad := x.bad || err, left := x.left - 1
                                               ready := x.left == 1 } }
    | none => s
  | .txDone _ r idx =>
    let g := s.ring r
    if err then s.ringWriteFailed r
    else (s.setRing r { g with d1 := setFld g.d1 63 32 ((idx + 1) % 2 ^ 32) }).ringProgress r 1
  | .mesh src tag master =>
    s.meshRespond src tag master t.write t.secure (err || poison) t.addr data

/-- What the test adds to each response of a target port, in SCLK (R515). -/
def State.xbDelay (s : State) (port : Nat) : Nat := if port < 8 then testDelay (s.rd R.TP_XB 0 port) else 0

/-- A transaction's response delivered and its generation retired (R364); the DMA engines go on (R367). -/
def State.retire (s : State) (id : Nat) : State :=
  match pget s.xbar.txns id with
  | none => s
  | some t =>
    match t.resp with
    | none => s
    | some (err, poison, data) =>
      if s.time.total < t.respAt + s.xbDelay t.port then s
      else
      let was := s.fenceDone
      let s := s.setTxn id none
      let s := if !was ∧ s.fenceDone then s.raise 0x0C 2 else s
      (s.deliver id t err poison data).dmaPump

end Sys2Proof.Machine
end

