-- ==== Sys2Proof/Machine/LineRx.lean ====
section
/-! DEFINITION. What a brine link makes of what it receives (spec/06): cells, training sequences, negotiation, and the blocks
that carry them (R148 to R152); and what it sends while it trains or tests. -/

namespace Sys2Proof.Machine

/-- Block lock lost on a lane (R151, R163, R170), with `n` invalid headers not counted yet; a lane in use sends its link to
`LOCK`. -/
def State.lockLost (s : State) (l n : Nat) : State :=
  let q := l / 4
  let s := if n = 0 then s else s.count R.BLK_ERR l n
  let s := ((s.count R.LOCK_LOSS l).lanesLost [l] false).raise (lanePage l) 0
  if s.lkUp q ∧ l % 4 < lanesOf (s.lkWidth q) then s.lkRetrain q cLockLoss else s

/-- A `BCNT` mismatch found on a lane (R151, R178): a block error; the eighth within 1 ms requests a retrain. -/
def State.skewMiss (s : State) (q i : Nat) : State :=
  let s := s.count R.BLK_ERR (4 * q + i)
  let ts := s.time.total :: (s.lk q).skews.filter fun t => s.time.total < t + 1500000
  if 8 ≤ ts.length ∧ s.lkUp q = true then (s.setLk q { s.lk q with skews := [] }).negRequest q .retrain 0 cSkew
  else s.setLk q { s.lk q with skews := ts }

/-- A received `WIDTH_REQ` (R167, R174, R178). -/
def State.negWidthReq (s : State) (q target token : Nat) : State :=
  match s.yields q with
  | none => s
  | some s =>
    let ok := !s.lkSched q && s.rdb R.LINK_CFG q 4 && (if s.lkWidth q < target then true else s.utilLow q)
    if ok then s.negAccept q .width target token else s.negRefuse q target token

/-- A received `SLEEP_REQ` (R167, R176, R178). -/
def State.negSleepReq (s : State) (q token : Nat) : State :=
  match s.yields q with
  | none => s
  | some s =>
    let l := s.lk q
    let ok := !s.lkSched q && l.replay.isEmpty && l.txq.isEmpty && s.rdb R.LINK_CFG q 5
    if ok then s.negAccept q .sleep 0 token else s.negRefuse q 0 token

/-- A received `RETRAIN_REQ` (R178): never refused. -/
def State.negRetrainReq (s : State) (q token : Nat) : State :=
  match s.yields q with
  | none => s
  | some s => s.negAccept q .retrain 0 token

/-- A received `ACK` (R175): the requester is agreed. -/
def State.negAcked (s : State) (q token : Nat) : State :=
  if s.lkNeg q = 1 ∧ (s.lk q).token = token then (s.setNeg q 3).agreed q else s

/-- A received `NAK` (R173). -/
def State.negNaked (s : State) (q token : Nat) : State :=
  if s.lkNeg q = 1 ∧ (s.lk q).token = token then s.negClose q else s

/-- A received `COMMIT` (R175): with this end's own it is committed. -/
def State.negCommit (s : State) (q : Nat) : State :=
  if s.lkNeg q = 4 then s.committed q
  else if s.lkNeg q = 3 then s.setLk q { s.lk q with peerCommit := true }
  else s

/-- A received `ABORT` (R177): before this end is committed the link stays `ACTIVE`. -/
def State.negAborted (s : State) (q : Nat) : State := if s.lkNeg q ≠ 0 then s.negClose q else s

/-- A received `NEG` block on a lane (R173): a repeated request that is open already has its answer; `KIND` 7 to 15 is ignored
and counted. -/
def State.negRx (s : State) (q i : Nat) (payload : Word) : State :=
  let f := fld payload 63 8
  let kind := f / 2 ^ 38 % 16
  let target := f / 2 ^ 36 % 4
  let token := f / 2 ^ 28 % 256
  if 7 ≤ kind then s.count R.BLK_ERR (4 * q + i)
  else if !s.lkUp q ∨ (s.lkNeg q ≠ 0 ∧ (s.lk q).mine = false ∧ (s.lk q).token = token ∧ kind < 3) then s
  else match kind with
    | 0 => s.negWidthReq q target token
    | 1 => s.negSleepReq q token
    | 2 => s.negRetrainReq q token
    | 3 => s.negAcked q token
    | 4 => s.negNaked q token
    | 5 => s.negCommit q
    | _ => s.negAborted q

/-- The replay and credit state of a changed partner discarded (R166). -/
def State.newPartner (s : State) (q : Nat) (p : Peer) : State :=
  let l := s.lk q
  let s := (s.count R.REPLAYS q l.replay.length).meshFailCells l.replay
  let s := s.setLk q { s.lk q with replay := [], resend := none, resends := 0, txSeq := 0, rxSeq := 0, nak := false }
  let s := (s.creditReset q).recordPeer q p
  let differs := match l.peer with
    | some _ => true
    | none => match l.saved with
      | some o => o != p
      | none => false
  if differs then s.raise (brinePage q) 2 else s

/-- `PARAM` done with a partner (R163, R164, R166): `ACTIVE` at the lesser of the own width and the one offered, or `FAULT` on a
self loop. `us` is the training's duration. -/
def State.paramDone (s : State) (q : Nat) (p : Peer) (width us : Nat) : State :=
  let l := s.lk q
  if p.serial = s.nv.otp.serial ∧ p.quad = q then s.lkDown q lkFault cSelfLoop
  else
    let s := if l.peer = some p then
        (if l.full then s.creditReset q else s).setLk q
          { (if l.full then s.creditReset q else s).lk q with resend := if l.replay.isEmpty then none else some 0 }
      else s.newPartner q p
    let s := s.setLk q { s.lk q with full := false }
    (s.lkActivate q (min l.own width)).wr R.TRAIN_TIME q (word us)

/-- The partner that the four fragments of `ID_PART` name (R163, R164). -/
def Link.fragPeer (l : Link) : Option Peer :=
  match pget l.frags 0, pget l.frags 1, pget l.frags 2, pget l.frags 3 with
  | some a, some b, some c, some d =>
    some { serial := word (a + at_ 24 b + at_ 48 (c / 256)), quad := c % 256, session := d / 512 % 32768 }
  | _, _, _, _ => none

/-- A received `TS` block (R163): an `ACTIVE` end enters `LOCK`; in `PARAM` its fragment is kept, and with every fragment and 8
`TS` of `TSTATE` 2 on lane 0 the phase is done. -/
def State.tsRx (s : State) (q i : Nat) (payload : Word) : State :=
  let f := fld payload 63 8
  if s.lkUp q then s.lkRetrain q cPeer
  else if s.lkState q = lkParam ∧ f / 2 ^ 39 % 8 ≠ 0 then
    let l := s.lk q
    let l := { l with frags := pset l.frags (f / 2 ^ 37 % 4) (some (f / 2 ^ 13 % 2 ^ 24)), offered := min 2 (f / 2 ^ 11 % 4)
                      readies := if i = 0 ∧ f / 2 ^ 39 % 8 = 2 then l.readies + 1 else l.readies }
    let s := s.setLk q l
    match l.fragPeer with
    | some p => if 8 ≤ l.readies then s.paramDone q p l.offered ((s.time.total - l.trainAt) / 1500) else s
    | none => s
  else s

/-- What a received `IDLE` or `START` block says (R150, R161, R162): the peer's `ACK`, its credits, and `NAK`, which starts a
resend. -/
def State.ackRx (s : State) (q : Nat) (payload : Word) : State :=
  let f := fld payload 63 8
  let l := { (s.lk q).acked (f / 2 ^ 29 % 4096) with credC := f / 2 ^ 21 % 256, credM := f / 2 ^ 9 % 4096 }
  let s := s.setLk q l
  if f.testBit 41 ∧ l.resend = none then s.replayFromOldest q else s

/-- A cell cut short (R150, R152): dropped and counted; `NAK` is set for a control or mesh cell. -/
def State.cellCut (s : State) (q : Nat) (got : List Word) : State :=
  let l := s.lk q
  let nak := !got.isEmpty && (cellType got == 2 || cellType got == 3)
  (s.setLk q { l with cell := none, nak := l.nak || nak }).count R.DROP_FORM q

/-- The cell in progress ended by a block that is not its next data block. -/
def State.cellEnd (s : State) (q : Nat) : State :=
  match (s.lk q).cell with
  | some got => s.cellCut q got
  | none => s

/-- A whole cell received on a link (R153, R156, R157). -/
def State.cellRx (s : State) (q : Nat) (ws : List Word) : State :=
  match cellType ws with
  | 1 => s.rxScheduled q ws
  | 5 => s.rxScheduled q ws
  | 2 => s.controlRx q ws s.phase16 s.phase16 s.phase16
  | 3 => s.meshRx q ws
  | 4 => if cellOk ws then s else s.count R.DROP_CRC q
  | _ => if cellOk ws then s.count R.DROP_FORM q else s.count R.DROP_CRC q

/-- A received data block (R152): the next of its cell, or one outside a cell. -/
def State.dataRx (s : State) (q : Nat) (w : Word) : State :=
  match (s.lk q).cell with
  | none => s
  | some got =>
    if got.length = 31 then (s.setLk q { s.lk q with cell := none }).cellRx q (got ++ [w])
    else s.setLk q { s.lk q with cell := some (got ++ [w]) }

/-- The alignment of a control block against its round (R151): the first of a round gives its `BCNT`, and another on a later lane
is a mismatch. -/
def State.roundRx (s : State) (q i : Nat) (bcnt : Nat) : State :=
  let r := (s.lane (4 * q + i)).rxCount
  match (s.lk q).round with
  | some (r0, b) => if r0 = r then (if b = bcnt then s else s.skewMiss q i)
      else s.setLk q { s.lk q with round := some (r, bcnt) }
  | none => s.setLk q { s.lk q with round := some (r, bcnt) }

/-- A received control block on a lane (R149, R150): a reserved type or a wrong `CHK` is a block error and the block is
ignored. -/
def State.ctlRx (s : State) (q i : Nat) (payload : Word) : State :=
  let s := s.cellEnd q
  let type := fld payload 7 0
  if !([blkIdle, blkStart, blkTs, blkNeg].contains type) ∨ !chkOk payload then s.count R.BLK_ERR (4 * q + i)
  else
    let s := s.roundRx q i (fld payload 61 50)
    if type = blkNeg then s.negRx q i payload
    else if type = blkTs then s.tsRx q i payload
    else if !s.lkUp q then s
    else
      let s := s.ackRx q payload
      if type = blkStart ∧ s.lkUp q = true then s.setLk q { s.lk q with cell := some [] } else s

/-- The sync header of a received block (R148, R151, R170): an invalid one is a block error, 64 valid ones in a row give block
lock, and 16 invalid ones of 64 lose it. -/
def State.headRx (s : State) (l : Nat) (ok : Bool) : State :=
  let s := s.setLane l ((s.lane l).header ok)
  let s := if ok then s else s.count R.BLK_ERR l
  let v := s.lane l
  if s.rdb R.LANE_STAT l 1 then (if 16 ≤ v.bads then s.lockLost l 0 else s)
  else if 64 ≤ v.good then (s.wrb R.LANE_STAT l 1 true).wrb R.LANE_STAT l 0 true
  else s

/-- A block received on a lane of a brine link (R148 to R152). Blocks count once their lane has block lock. -/
def State.blockRx (s : State) (q : Nat) (b : LaneBlock) : State :=
  let i := b.lane.val
  let l := 4 * q + i
  if s.quadMode q ≠ 1 ∨ s.carriesBlocks l = false then s
  else
    let ((sync, payload), s) := s.laneTake l b.sync b.payload
    let s := s.headRx l (sync == syncData || sync == syncCtl)
    if s.rdb R.LANE_STAT l 1 = false then s
    else
      let s := if sync = syncData then s.dataRx q payload
        else if sync = syncCtl then s.ctlRx q i payload
        else s.cellEnd q
      s.setLane l { s.lane l with rxCount := (s.lane l).rxCount + 1 }

/-- The blocks received on a link, in the order of their arrival. -/
def State.blocksRx (s : State) (q : Nat) (bs : List LaneBlock) : State := bs.foldl (fun s b => s.blockRx q b) s

/-- The `ID_PART` of a fragment (R163). -/
def State.idPart (s : State) (q frag : Nat) : Nat :=
  let sn := s.nv.otp.serial.toNat
  match frag with
  | 0 => sn % 2 ^ 24
  | 1 => sn / 2 ^ 24 % 2 ^ 24
  | 2 => at_ 8 (sn / 2 ^ 48) + q
  | _ => at_ 9 (s.lk q).session

/-- The body of a `TS` block (R163). -/
def State.tsBody (s : State) (q tstate frag : Nat) : Nat :=
  at_ 39 tstate + at_ 37 frag + at_ 13 (s.idPart q frag)
    + at_ 11 (if tstate = 0 then s.rdf R.LINK_CFG q 1 0 else (s.lk q).own)

/-- What a link that is not `ACTIVE` sends in a slot (R163, R169): `TS` on the lanes up to `WIDTH_MAX` while it trains, with each
fragment in turn, or the raw pattern of the slot on each lane whose generator is on. -/
def State.trainSend (s : State) (q : Nat) : State :=
  let st := s.lkState q
  if st = lkPrbs then
    (quadLanes q 4).foldl (fun s l =>
      if s.rdb R.PRBS_CTRL l 1 then s.genSend l (laneBitsIn 1 (s.rdf R.QUAD_MODE q 9 8) 256) else s) s
  else if st = lkDetect ∨ st = lkLock ∨ st = lkDeskew ∨ st = lkParam ∨ st = lkWake then
    let ts := if st = lkParam then (if (s.lk q).tsOut then 2 else 1) else 0
    let s := s.blkSync q
    let s := (List.range 4).foldl (fun s f =>
      s.sendBlocks q (List.replicate (s.txLanes q) (.ctl blkTs (s.tsBody q ts f)))) s
    if st = lkParam then s.setLk q { s.lk q with tsOut := true } else s
  else s

/-- A scheduled link at an image start (R167): it runs at `WIDTH_MAX`, as far as its training went. A sleeping link wakes, and a
negotiation of width or sleep is given up (DESIGN CHOICE, notes/assumptions/268.md). -/
def State.linkStart (s : State) (q : Nat) : State :=
  if !s.lkSched q then s
  else
    let s := if s.lkState q = lkSleep ∨ (s.lk q).kind = .sleep then s.wakeUp q
      else if s.lkUp q ∧ s.lkNeg q ≠ 0 ∧ (s.lk q).kind = .width then
        ((s.sendNeg q 6 0 (s.lk q).token).countf R.NEG_COUNT q 31 16).negClose q
      else s
    if s.lkUp q ∧ s.lkWidth q < (s.lk q).agreed then s.setWidth q (s.lk q).agreed else s

end Sys2Proof.Machine
end

