-- ==== Sys2Proof/Machine/Brine.lean ====
section
/-! DEFINITION. What the events of brine links and lanes do (spec/06). An event whose stated condition does not hold
leaves the state as it is. -/

namespace Sys2Proof.Machine

/-- SAMPLE_CELL_RX (R157): the arriving sample cell buffered for its release, or dropped and counted. -/
def execSampleCellRx (q : Fin 256) (cell : List Word) (s : State) : Host.Outcome State Fault Refusal :=
  done s (if s.lkUp q ∧ cell.length = 32 ∧ cellType cell = 1 then s.rxScheduled q cell else s)

/-- PSUM_CELL_RX (R157): the arriving partial-sum cell buffered for its release, or dropped and counted. -/
def execPsumCellRx (q : Fin 256) (cell : List Word) (s : State) : Host.Outcome State Fault Refusal :=
  done s (if s.lkUp q ∧ cell.length = 32 ∧ cellType cell = 5 then s.rxScheduled q cell else s)

/-- CONTROL_CELL_RX (R162, R491): accepted in `SEQ` order and taken under its `MSG`. -/
def execControlCellRx (q : Fin 256) (cell : List Word) (s : State) : Host.Outcome State Fault Refusal :=
  done s (if s.lkUp q ∧ cell.length = 32 ∧ cellType cell = 2 then
    s.controlRx q cell s.phase16 s.phase16 s.phase16 else s)

/-- MESH_CELL_RX (R162, R500): accepted in `SEQ` order and passed to the mesh bridge. -/
def execMeshCellRx (q : Fin 256) (cell : List Word) (s : State) : Host.Outcome State Fault Refusal :=
  done s (if s.lkUp q ∧ cell.length = 32 ∧ cellType cell = 3 then s.meshRx q cell else s)

/-- FILLER_CELL_RX (R156): the CRC is checked and the cell discarded. -/
def execFillerCellRx (q : Fin 256) (cell : List Word) (s : State) : Host.Outcome State Fault Refusal :=
  done s (if s.lkUp q ∧ cell.length = 32 ∧ cellType cell = 4 ∧ !cellOk cell then s.count R.DROP_CRC q else s)

/-- MALFORMED_CELL_RX (R152, R157): dropped and counted. -/
def execMalformedCellRx (q : Fin 256) (why : MalformedCell) (s : State) : Host.Outcome State Fault Refusal :=
  done s (if s.lkUp q then
    match why with
    | .badCrc => s.count R.DROP_CRC q
    | .cutShort got => s.cellCut q got
    | .reservedType => s.count R.DROP_FORM q
    else s)

/-- NAK_RECEIVED (R162): resend from the oldest cell after the acknowledged one, or a retrain at `REPLAY_MAX`. -/
def execNakReceived (q : Fin 256) (ack : BitVec 12) (s : State) : Host.Outcome State Fault Refusal :=
  done s (if s.lkUp q then (s.setLk q ((s.lk q).acked ack.toNat)).replayFromOldest q else s)

/-- REPLAY_TIMEOUT (R162): `ACK` has not advanced for `REPLAY_TMO` with cells outstanding. -/
def execReplayTimeout (q : Fin 256) (s : State) : Host.Outcome State Fault Refusal :=
  done s (if s.lkUp q then s.replayFromOldest q else s)

/-- BLOCK_LOCK_LOST (R151, R163, R170): 16 invalid headers in 64, those counted that have not been; a lane in use sends its link
to `LOCK`. -/
def execBlockLockLost (l : Fin 1024) (s : State) : Host.Outcome State Fault Refusal :=
  done s (if s.rdb R.LANE_STAT l 1 then s.lockLost l (16 - (s.lane l).bads) else s)

/-- SKEW_RETRAIN (R151, R178): `BCNT` mismatches, each a block error on the later lane; the eighth within 1 ms requests a
retrain. -/
def execSkewRetrain (q : SkewObs) (s : State) : Host.Outcome State Fault Refusal :=
  done s (if s.lkUp q.quad then q.lanes.foldl (fun s i => s.skewMiss q.quad i) s else s)

/-- LINK_SIGNAL_DETECT (R163): signal on lane 0 moves the link from `DETECT` to `LOCK`. -/
def execLinkSignalDetect (q : Fin 256) (s : State) : Host.Outcome State Fault Refusal :=
  done s (if s.lkState q = lkDetect then
    (s.wrb R.LANE_STAT (4 * q) 0 true).setLkState q lkLock else s)

/-- LINK_LOCK_DONE (R163, R168): all lanes up to `WIDTH_MAX` locked. -/
def execLinkLockDone (q : Fin 256) (s : State) : Host.Outcome State Fault Refusal :=
  let w := s.rdf R.LINK_CFG q 1 0
  done s (if s.lkState q = lkLock then
    let s := s.lanesTrained (quadLanes q (lanesOf w))
    let s := s.setLk q { s.lk q with own := w }
    s.setLkState q lkDeskew else s)

/-- The widest of the widths up to `max` whose lanes are all locked; lane 0 is. -/
def widestLocked (max : Nat) (locked : BitVec 4) : Nat :=
  ((List.range (max + 1)).filter fun w => (List.range (lanesOf w)).all fun i => locked.getLsbD i).foldl Nat.max 0

/-- LINK_LOCK_TIMEOUT (R163, R165): after 5 ms, or at the bound of a wake, the link deskews at a narrower width, or fails with
`NO_LOCK`. -/
def execLinkLockTimeout (q : Fin 256) (locked : BitVec 4) (s : State) : Host.Outcome State Fault Refusal :=
  let max := s.rdf R.LINK_CFG q 1 0
  let w := widestLocked max locked
  done s (if s.lkState q = lkLock ∨ s.lkState q = lkWake then
    if locked.getLsbD 0 then
      let s := if s.lkState q = lkLock then s.lanesTrained (quadLanes q (lanesOf w)) else s
      let s := (s.setLk q { s.lk q with own := w }).wrb R.LINK_STAT q 29 (decide (w < max))
      if s.lkState q = lkLock then s.setLkState q lkDeskew else s
    else s.lkDetectEntry q cNoLock else s)

/-- LINK_DESKEW_DONE (R163, R165): in `WAKE` its short form. -/
def execLinkDeskewDone (q : Fin 256) (r : DeskewResult) (s : State) : Host.Outcome State Fault Refusal :=
  done s (if s.lkState q = lkDeskew ∨ s.lkState q = lkWake then
    match r with
    | .aligned =>
      let s := s.laneBits (quadLanes q (lanesOf (s.lk q).own)) 2 true
      if s.lkState q = lkDeskew then s.setLkState q lkParam else s
    | .skew => s.lkDetectEntry q cSkew
    | .crossed => s.lkDetectEntry q cLaneOrder
    else s)

/-- LINK_PARAM_DONE (R163, R164, R166): `ACTIVE` at the agreed width, or `FAULT` on a self loop. -/
def execLinkParamDone (q : Fin 256) (serial : Word) (peerQuad : BitVec 8) (session : BitVec 15) (width : BitVec 2)
    (us : BitVec 32) (s : State) : Host.Outcome State Fault Refusal :=
  let p : Peer := { serial := serial, quad := peerQuad.toNat, session := session.toNat }
  done s (if s.lkState q = lkParam ∨ s.lkState q = lkWake then s.paramDone q p (min width.toNat 2) us.toNat else s)

/-- LINK_PARAM_TIMEOUT (R163, R165). -/
def execLinkParamTimeout (q : Fin 256) (s : State) : Host.Outcome State Fault Refusal :=
  done s (if s.lkState q = lkParam ∨ s.lkState q = lkWake then s.lkDetectEntry q cParamTimeout else s)

/-- TS_RECEIVED_ACTIVE (R163): an `ACTIVE` end that receives `TS` enters `LOCK`. -/
def execTsReceivedActive (q : Fin 256) (s : State) : Host.Outcome State Fault Refusal :=
  done s (if s.lkUp q then s.lkRetrain q cPeer else s)

/-- NEG_WIDTH_REQ (R167, R174, R178). -/
def execNegWidthReq (q : Fin 256) (target : BitVec 2) (token : BitVec 8) (s : State) :
    Host.Outcome State Fault Refusal :=
  done s (if s.lkUp q then s.negWidthReq q target.toNat token.toNat else s)

/-- NEG_SLEEP_REQ (R167, R176, R178). -/
def execNegSleepReq (q : Fin 256) (token : BitVec 8) (s : State) : Host.Outcome State Fault Refusal :=
  done s (if s.lkUp q then s.negSleepReq q token.toNat else s)

/-- NEG_RETRAIN_REQ (R178): never refused. -/
def execNegRetrainReq (q : Fin 256) (token : BitVec 8) (s : State) : Host.Outcome State Fault Refusal :=
  done s (if s.lkUp q then s.negRetrainReq q token.toNat else s)

/-- NEG_ACK (R175): the requester is agreed. -/
def execNegAck (q : Fin 256) (token : BitVec 8) (s : State) : Host.Outcome State Fault Refusal :=
  done s (if s.lkUp q then s.negAcked q token.toNat else s)

/-- NEG_NAK (R173): the open request closes without change. -/
def execNegNak (q : Fin 256) (token : BitVec 8) (s : State) : Host.Outcome State Fault Refusal :=
  done s (if s.lkUp q then s.negNaked q token.toNat else s)

/-- NEG_COMMIT (R175): the peer's `COMMIT`; with this end's own it is committed. -/
def execNegCommit (q : Fin 256) (s : State) : Host.Outcome State Fault Refusal :=
  done s (if s.lkUp q then s.negCommit q else s)

/-- NEG_ABORT (R177): before this end is committed the link stays `ACTIVE`. -/
def execNegAbort (q : Fin 256) (s : State) : Host.Outcome State Fault Refusal :=
  done s (if s.lkUp q then s.negAborted q else s)

/-- NEG_REQUEST_LAPSE (R173): no answer within 10 µs; an abort that the peer followed ends too. -/
def execNegRequestLapse (q : Fin 256) (s : State) : Host.Outcome State Fault Refusal :=
  done s (if s.lkUp q ∧ (s.lkNeg q = 1 ∨ s.lkNeg q = 6) then s.negClose q else s)

/-- LOW_UTIL_TIMER (R174): a request for half the width. -/
def execLowUtilTimer (q : Fin 256) (s : State) : Host.Outcome State Fault Refusal :=
  done s (if s.lkUp q ∧ s.lkNeg q = 0 ∧ !s.lkSched q ∧ s.rdb R.LINK_CFG q 4 ∧ 0 < s.lkWidth q then
    s.negRequest q .width (s.lkWidth q - 1) 0 else s)

/-- HIGH_UTIL_TRIGGER (R174): a request for double the width, up to the agreed width of training. -/
def execHighUtilTrigger (q : Fin 256) (s : State) : Host.Outcome State Fault Refusal :=
  done s (if s.lkUp q ∧ s.lkNeg q = 0 ∧ !s.lkSched q ∧ s.rdb R.LINK_CFG q 4 ∧ s.lkWidth q < (s.lk q).agreed then
    s.negRequest q .width (s.lkWidth q + 1) 0 else s)

/-- SLEEP_IDLE_TIMER (R176): a sleep negotiation. -/
def execSleepIdleTimer (q : Fin 256) (s : State) : Host.Outcome State Fault Refusal :=
  done s (if s.lkUp q ∧ s.lkNeg q = 0 ∧ !s.lkSched q ∧ s.rdb R.LINK_CFG q 5 then s.negRequest q .sleep 0 0 else s)

/-- WAKE_EVENT (R177). -/
def execWakeEvent (q : Fin 256) (s : State) : Host.Outcome State Fault Refusal :=
  done s (s.wakeUp q)

/-- WAKE_BURST_DETECT (R177). -/
def execWakeBurstDetect (q : Fin 256) (s : State) : Host.Outcome State Fault Refusal :=
  done s (if s.lkState q = lkSleep then s.setLkState q lkWake else s)

/-- PEER_IDLE_DETECT (R177): after `ABORT`, idle on the peer's lane 0 makes the abort complete as a wake. -/
def execPeerIdleDetect (q : Fin 256) (s : State) : Host.Outcome State Fault Refusal :=
  done s (if s.lkUp q ∧ s.lkNeg q = 6 then
    (((s.emit (.laneEvent (4 * q) 1 0)).setNeg q 0).wrb R.LINK_STAT q 30 false).setLkState q lkWake else s)

/-- LINK_WAKE_DONE (R163, R165, R167): the short-form training is done with the partner unchanged; a scheduled link runs at the
width that it trained. -/
def execLinkWakeDone (q : Fin 256) (us : BitVec 32) (s : State) : Host.Outcome State Fault Refusal :=
  done s (if s.lkState q = lkWake then
    (s.lkActivate q (if s.lkSched q then (s.lk q).agreed else s.lkWidth q)).wr R.TRAIN_TIME q (word us.toNat) else s)

/-- WIDTH_INCREASE_LANES_READY (R175): the agreed end commits to the wider link. -/
def execWidthIncreaseLanesReady (q : Fin 256) (s : State) : Host.Outcome State Fault Refusal :=
  done s (if s.lkUp q ∧ s.lkNeg q = 3 ∧ (s.lk q).kind = .width then
    (s.setLk q { s.lk q with lanesReady := true }).sendCommit q else s)

/-- PRBS_LOCK (R169): received bits in the checker, which locks after 64 in a row that match its prediction. -/
def execPrbsLock (l : LaneBits) (s : State) : Host.Outcome State Fault Refusal :=
  done s (s.prbsCheck l.lane l.bits)

/-- PRBS_LOCK_LOST (R169, R170): received bits in the locked checker; each mismatch counts, and sixteen within 64 bits drop the
lock. -/
def execPrbsLockLost (l : LaneBits) (s : State) : Host.Outcome State Fault Refusal :=
  done s (if s.rdb R.LANE_STAT l.lane 3 then s.prbsCheck l.lane l.bits else s)

/-- EQ_ADAPT (R168): the eye metrics at the step in force and its neighbours; at most one step per 1 ms. -/
def execEqAdapt (l : Fin 1024) (below here above : Nat) (s : State) : Host.Outcome State Fault Refusal :=
  let peak := s.rdf R.LANE_STAT l 23 20
  let free : Bool := match (s.lane l).moved with
    | some t => decide (t + 1500000 ≤ s.time.total)
    | none => true
  let new := if above ≤ below ∧ here < below ∧ 0 < peak then peak - 1
    else if here < above ∧ peak < 15 then peak + 1 else peak
  done s (if !s.rdb R.LANE_CFG l 12 ∧ s.rdb R.LANE_STAT l 1 ∧ free = true ∧ new ≠ peak then
    (s.wrf R.LANE_STAT l 23 20 new).setLane l { s.lane l with moved := some s.time.total } else s)

/-- EQ_LIMIT (R168): adaptation has stayed at 0 dB or 15 dB for 100 ms. -/
def execEqLimit (l : Fin 1024) (s : State) : Host.Outcome State Fault Refusal :=
  let peak := s.rdf R.LANE_STAT l 23 20
  done s (if !s.rdb R.LANE_CFG l 12 ∧ (peak = 0 ∨ peak = 15) then s.raise (lanePage l) 2 else s)

end Sys2Proof.Machine
end

