-- ==== Sys2Proof/Machine/DmaPcie.lean ====
section
/-! DEFINITION. What the crossbar, the DMA channels and the PCIe endpoint's events do (spec/13). -/

namespace Sys2Proof.Machine

/-- XBAR_RESPONSE (R364): the response reaches its master. -/
def execXbarResponse (id : Nat) (s : State) : Host.Outcome State Fault Refusal := done s (s.retire id)

/-- Whether a channel is to execute an instruction with an opcode: running, with the instruction fetched. -/
def State.dmaAt (s : State) (c op : Nat) : Bool :=
  let h := s.ch c
  h.state == .run && h.copy.isNone && fld (h.instr.headD 0) 63 60 == op
    && decide (instrLen (h.instr.headD 0) ≤ h.instr.length)

/-- An address with the channel's offset (R369). -/
def relAddr (rel : Bool) (a ofs : Nat) : Nat := if rel then (a + ofs) % 2 ^ 48 else a

/-- The least and one past the greatest address of rows with a stride. -/
def span (a : Nat) (rows len : Nat) (stride : Int) : Int × Int :=
  let last : Int := (a : Int) + stride * ((rows : Int) - 1)
  (min (a : Int) last, max (a : Int) last + len)

/-- The row of the map that holds a span, if one does. -/
def rowOfSpan (p : Int × Int) : Option MapRow := if p.1 < 0 then none else rowOfRange p.1.toNat (p.2 - p.1).toNat

/-- A copy begun, or the channel halted with `STATUS` 4 for a range outside one row of the map (R369, R373). -/
def State.dmaCopy (s : State) (c : Nat) (src dst rows len : Nat) (ss ds : Int) : State :=
  let a := span src rows len ss
  let b := span dst rows len ds
  match rowOfSpan a, rowOfSpan b with
  | some ra, some rb =>
    let lap := ra.1 == rb.1 && decide (a.1 < b.2) && decide (b.1 < a.2)
    let h := s.ch c
    let k : Copy := { src := src, dst := dst, rowLen := len, rows := rows, sStride := ss, dStride := ds
                      same := ra.1 == rb.1, serial := lap && decide (1 < rows) }
    let h := { h with copy := some k, written := 0, discarded := 0, seq := h.seq + 1
                      moves := { seq := h.seq + 1, pc := h.pc, written := 0 }
                        :: h.moves.filter fun m => h.pages.any fun p => p.seq = m.seq }
    s.setCh c h
  | _, _ => s.dmaStop c 4 0

/-- MOVE (R368, R369, R373). -/
def execMove (c : Fin 64) (s : State) : Host.Outcome State Fault Refusal :=
  let h := s.ch c
  let w := h.instr.headD 0
  done s (if s.dmaAt c 1 then
    (s.dmaCopy c (relAddr (bit w 59) (fld (h.instr.getD 1 0) 47 0) h.ofsS)
      (relAddr (bit w 59) (fld (h.instr.getD 2 0) 47 0) h.ofsD) 1 (fld w 31 0) 0 0).dmaPump
    else s)

/-- MOVE2D (R368, R369, R373). -/
def execMove2d (c : Fin 64) (s : State) : Host.Outcome State Fault Refusal :=
  let h := s.ch c
  let w := h.instr.headD 0
  let w3 := h.instr.getD 3 0
  done s (if s.dmaAt c 2 then
    (s.dmaCopy c (relAddr (bit w 59) (fld (h.instr.getD 1 0) 47 0) h.ofsS)
      (relAddr (bit w 59) (fld (h.instr.getD 2 0) 47 0) h.ofsD) (fld w 51 32 + 1) (fld w 31 0)
      (sfld w3 63 32) (sfld w3 31 0)).dmaPump
    else s)

/-- An offset moved by a signed step, modulo 2^48. -/
def stepOfs (o : Nat) (d : Int) : Nat := (((o : Int) + d) % (2 ^ 48 : Nat)).toNat

/-- A channel's loop level. -/
def Chan.level (h : Chan) (l : Bool) : Option LoopLevel := if l then h.level1 else h.level0

/-- A channel's loop level, written. -/
def Chan.setLevel (h : Chan) (l : Bool) (v : Option LoopLevel) : Chan :=
  if l then { h with level1 := v } else { h with level0 := v }

/-- DMA_LOOP (R370): one pass of the `LOOP`. -/
def execDmaLoop (c : Fin 64) (s : State) : Host.Outcome State Fault Refusal :=
  let h := s.ch c
  let w := h.instr.headD 0
  let w1 := h.instr.getD 1 0
  let idx := (h.pc - (s.chProg c).toNat) / 8
  let l := bit w 59
  let count := fld w 31 0
  let fresh : LoopLevel := { at_ := idx, left := count, taken := 0 }
  let lv := (h.level l).getD fresh
  done s (if s.dmaAt c 3 then
    if lv.at_ ≠ idx then s.dmaStop c 3 0
    else if lv.left ≠ 0 ∨ count = 0 then
      let h := { h with ofsS := stepOfs h.ofsS (sfld w1 63 32), ofsD := stepOfs h.ofsD (sfld w1 31 0)
                        pc := ((s.chProg c).toNat + 8 * fld w 47 32) % 2 ^ 48, instr := [] }
      (s.setCh c (h.setLevel l (some { lv with left := lv.left - 1, taken := lv.taken + 1 }))).dmaPump
    else
      let h := { h with ofsS := stepOfs h.ofsS (-(lv.taken * sfld w1 63 32))
                        ofsD := stepOfs h.ofsD (-(lv.taken * sfld w1 31 0)) }
      ((s.setCh c (h.setLevel l none)).dmaNext c).dmaPump
    else s)

/-- Whether a channel is at a `WAIT` or held by it. -/
def State.dmaWaits (s : State) (c op : Nat) : Bool :=
  s.dmaAt c op || ((s.ch c).state == .wait && fld ((s.ch c).instr.headD 0) 63 60 == op)

/-- A channel held, from now on if it was not. -/
def State.dmaHold (s : State) (c : Nat) : State :=
  let h := s.ch c
  if h.state = .wait then s else s.setCh c { h with state := .wait, waitFrom := s.time.total }

/-- Whether a lower-numbered channel waits for an event flag (R371). -/
def State.lowerWaits (s : State) (c ev : Nat) : Bool :=
  (List.range c).any fun k =>
    let h := s.ch k
    let w := h.instr.headD 0
    h.state == .wait && fld w 63 60 == 4 && fld w 59 58 == 0 && fld w 5 0 == ev

/-- DMA_WAIT (R371): the `WAIT` is judged; it proceeds, holds the channel, or halts it. -/
def execDmaWait (c : Fin 64) (s : State) : Host.Outcome State Fault Refusal :=
  let w := (s.ch c).instr.headD 0
  let w1 := (s.ch c).instr.getD 1 0
  done s (if s.dmaWaits c 4 then
    match fld w 59 58 with
    | 0 =>
      let e := fld w 5 0
      if bit s.dma.events e ∧ !s.lowerWaits c e then
        (({ s with dma := { s.dma with events := clrBit s.dma.events e } }).dmaNext c).dmaPump
      else s.dmaHold c
    | 1 =>
      let ep := fld w 31 0
      if ep < s.time.epoch then s.dmaStop c 7 0
      else if s.time.epoch = ep ∧ w1.toNat ≤ s.time.tide then (s.dmaNext c).dmaPump
      else s.dmaHold c
    | _ =>
      let g := s.ring (fld w 27 16)
      if !g.on then s.dmaStop c 8 0
      else if fld w 15 0 ≤ g.room then (s.dmaNext c).dmaPump
      else s.dmaHold c
    else s)

/-- DMA_WAIT_TIMEOUT (R371): `TIMEOUT` µs after the `WAIT` began to hold the channel. -/
def execDmaWaitTimeout (c : Fin 64) (s : State) : Host.Outcome State Fault Refusal :=
  let h := s.ch c
  let w := h.instr.headD 0
  done s (if h.state = .wait ∧ fld w 63 60 = 4 ∧ fld w 47 32 ≠ 0 ∧ h.waitFrom + 1500 * fld w 47 32 ≤ s.time.total
    then s.dmaStop c 5 0 else s)

/-- SIGNAL (R372): an event flag set, or a completion entry written; a full ring holds the channel. -/
def execSignal (c : Fin 64) (s : State) : Host.Outcome State Fault Refusal :=
  let w := (s.ch c).instr.headD 0
  let r := fld w 43 32
  done s (if s.dmaWaits c 5 then
    if bit w 59 then
      (({ s with dma := { s.dma with events := setBit s.dma.events (fld w 5 0) } }).dmaNext c).dmaPump
    else if !s.cplRing r then s.dmaStop c 8 0
    else if (s.ring r).room = 0 then (if (s.ch c).state = .wait then s else (s.ringFull r).dmaHold c)
    else ((s.ringProduce r (s.cplWords c 0 (fld w 31 0)) (some c)).dmaNext c).dmaPump
    else s)

/-- FENCE (R372): proceeds once every transaction of the channel has its response. -/
def execFence (c : Fin 64) (s : State) : Host.Outcome State Fault Refusal :=
  done s (if s.dmaAt c 6 ∧ (s.ch c).out = 0 ∧ (s.ch c).pages.isEmpty then (s.dmaNext c).dmaPump else s)

/-- END (R375): the channel ends once its transactions have retired and its final entry is written. -/
def execDmaEnd (c : Fin 64) (s : State) : Host.Outcome State Fault Refusal :=
  let h := s.ch c
  done s (if s.dmaAt c 7 then
    if h.pages.isEmpty then s.dmaStop c 1 (fld (h.instr.headD 0) 31 0) else s
    else s.dmaSettle c)

/-- DMA_RETRY (R374): the oldest transaction held is issued again, 256 FCLK after its error response. -/
def execDmaRetry (c : Fin 64) (s : State) : Host.Outcome State Fault Refusal :=
  let h := s.ch c
  done s (match h.held with
    | [] => s
    | (old, t) :: ts =>
      if s.dmaHeld (t.waited + 512 + testDelay (s.rd R.TP_DMA)) = true ∨ 2048 ≤ s.dmaOut t.master then s
      else
        let o := match t.origin with
          | .dmaFetch k n => Origin.dmaFetch k (n + 1)
          | .dmaRead k n q => .dmaRead k (n + 1) q
          | .dmaWrite k n q => .dmaWrite k (n + 1) q
          | o => o
        let id := s.xbar.next
        let pages := h.pages.map fun p => if p.txn = old then { p with txn := id } else p
        let s := (s.setCh c { h with held := ts, pages := pages }).countf R.DMA_ERR 0 63 48
        s.enter t.master t.secure t.write t.addr t.len (if t.write then t.data else []) (some t.qos) o)

/-- DMA_CHANNEL_HALT (R374): the channel that stopped on a bus error has retired its transactions; it discards what
it had read and not written, and halts with `STATUS` 2. -/
def execDmaChannelHalt (c : Fin 64) (s : State) : Host.Outcome State Fault Refusal :=
  let h := s.ch c
  done s (match h.ending with
    | some (2, tag) =>
      if h.state = .stopping ∧ h.out = 0 then
        let s1 := (s.setCh c { h with discarded := h.unwritten, pages := [] }).dmaFinal c 2 tag
        if (s1.ch c).state = .halted then
          s1.report 0x5A 0 0x15 (s1.chStat c) (word ((s1.ch c).pc % 2 ^ 48))
        else s1
      else s
    | _ => s.dmaSettle c)

/-- PCIE_INBOUND_TIMEOUT (R379): a heap read not answered within `INB_TMO`. -/
def execPcieInboundTimeout (id : Nat) (s : State) : Host.Outcome State Fault Refusal :=
  done s (match pget s.xbar.txns id with
    | some t =>
      if t.origin = .pcie ∧ !t.write ∧ t.resp.isNone ∧ t.port = 0 ∧ t.waited + 1500000 * s.rdf R.INB_TMO 0 6 0 ≤ s.time.total then
        let s := s.setTxn id (some { t with origin := .outside })
        ((s.countf R.PCIE_ERR 0 47 32).raise 0x0D 2).emit (.pcieCpl 2 [])
      else s
    | none => s)

/-- An outbound request taken off the list of those that wait for a completion. -/
def State.outboundDone (s : State) (id : Nat) : State :=
  { s with pcie := { s.pcie with outbound := s.pcie.outbound.filter (· ≠ id) } }

/-- PCIE_OUTBOUND_COMPLETION (R380): data, or an error response. -/
def execPcieOutboundCompletion (id : Nat) (status : CplStatus) (data : List Byte) (s : State) :
    Host.Outcome State Fault Refusal :=
  done s (if s.pcie.outbound.contains id then
    match status with
    | .ok => (s.outboundDone id).respond id false false data
    | .failed => (s.outboundDone id).respond id true false []
    | .poisoned => (s.outboundDone id).respond id true false []
    else s)

/-- Whether an outbound request has waited for its completion as long as Device Control 2 says (R380). -/
def State.cplLate (s : State) (id : Nat) : Bool :=
  s.pcie.outbound.contains id && (pget s.xbar.txns id).any fun t => t.waited + 1500 * s.pcie.cplUs ≤ s.time.total

/-- PCIE_CPL_TIMEOUT (R380). -/
def execPcieCplTimeout (id : Nat) (s : State) : Host.Outcome State Fault Refusal :=
  done s (if s.cplLate id then
    (((s.outboundDone id).respond id true false []).countf R.PCIE_ERR 0 15 0).raise 0x0D 2 else s)

/-- A vector unmasked (R381): the message it held is sent. -/
def State.unmask (s : State) (v : Nat) : State :=
  let e := mget msixDflt s.pcie.table v
  let s := { s with pcie := { s.pcie with table := mset msixDflt s.pcie.table v { e with masked := false } } }
  if mget (fun _ => false) s.pcie.pba v ∧ s.pcie.msixEn ∧ !s.pcie.maskAll then
    ({ s with pcie := { s.pcie with pba := mset (fun _ => false) s.pcie.pba v false } }).msixSend v
  else s

/-- MSIX_UNMASK (R381). -/
def execMsixUnmask (v : Fin 2048) (s : State) : Host.Outcome State Fault Refusal := done s (s.unmask v)

/-- Every outbound request waiting answered with an error response (R380). -/
def State.failOutbound (s : State) : State :=
  s.pcie.outbound.foldl (fun s id => (s.outboundDone id).respond id true false []) s

/-- PCIE_LINK_UP (R385). -/
def execPcieLinkUp (speed : Fin 6) (width : Fin 17) (s : State) : Host.Outcome State Fault Refusal :=
  done s (if s.pwr.coreUp ∧ s.pwr.perstN then
    ({ s with pcie := { s.pcie with up := true, speed := speed, width := width } }).raise 0x0D 0 else s)

/-- PCIE_LINK_DOWN (R380, R385). -/
def execPcieLinkDown (s : State) : Host.Outcome State Fault Refusal :=
  done s (if s.pcie.up then
    (({ s with pcie := { s.pcie with up := false, speed := 0, width := 0 } }).raise 0x0D 1).failOutbound else s)

/-- PCIE_DSTATE_CHANGE (R377, R380, R381): what the host's configuration writes left. -/
def execPcieDstateChange (cfg : HostCfg) (s : State) : Host.Outcome State Fault Refusal :=
  let s1 := { s with pcie := { s.pcie with d3 := cfg.d3, bme := cfg.bme, msixEn := cfg.msixEn, maskAll := cfg.maskAll
                                           mps := cfg.mps, mrrs := cfg.mrrs, cplUs := cfg.cplUs } }
  let s1 := if cfg.d3 ∨ !cfg.bme then s1.failOutbound else s1
  done s (if s.pcie.maskAll ∧ !cfg.maskAll then
    ((List.range 2048).filter fun v => mget (fun _ => false) s.pcie.pba v
      && !(mget msixDflt s.pcie.table v).masked).foldl State.unmask s1 else s1)

end Sys2Proof.Machine
end

