-- ==== Sys2Proof/Machine/SluiceOps.lean ====
section
/-! DEFINITION. The sluice's operations (spec/07): programs, sample intake, delay models, the interpolator, the filter
bank, levels and requantisation, the shadow sets. -/

namespace Sys2Proof.Machine

/-- A sluice slot at reset. -/
def slotDflt (_ : Nat) : SluSlot := {}
/-- A sluice unit at reset. -/
def unitDflt (_ : Nat) : SluUnit := {}
/-- Slot k of unit u. -/
def State.slt (s : State) (u k : Nat) : SluSlot := mget slotDflt s.slu.slot (16 * u + k)
/-- A slot, written. -/
def State.setSlt (s : State) (u k : Nat) (v : SluSlot) : State :=
  { s with slu := { s.slu with slot := mset slotDflt s.slu.slot (16 * u + k) v } }
/-- Unit u. -/
def State.sluUnit (s : State) (u : Nat) : SluUnit := mget unitDflt s.slu.unit u
/-- A unit, written. -/
def State.setSluUnit (s : State) (u : Nat) (v : SluUnit) : State :=
  { s with slu := { s.slu with unit := mset unitDflt s.slu.unit u v } }
/-- The page of a unit. -/
def sluPage (u : Nat) : Nat := 0x20 + u / 16
/-- A report of class `SLUICE` (R504). -/
def State.sluReport (s : State) (u k : Nat) : State :=
  s.report (sluPage u) (u % 16) 0x10 (s.rd R.SLU_STAT u) (word k)

/-- The program of a unit in the running image (R184). -/
def State.sluProg (s : State) (u : Nat) : List Word :=
  match s.image with
  | some m => progWords m tySluice u
  | none => []

/-- The first instruction of a kind in a program. -/
def opWord (ws : List Word) (op : Nat) : Option Word := ws.find? fun w => fld w 63 60 = op
/-- The `BIND` instructions. -/
def sluBinds (ws : List Word) : List Word := ws.filter fun w => fld w 63 60 = 2
/-- P. -/
def sluP (ws : List Word) : Nat := ((opWord ws 1).elim 0 fun w => fld w 59 52) + 1
/-- `DLY_BASE` in bytes. -/
def sluBase (ws : List Word) : Nat := ((opWord ws 1).elim 0 fun w => fld w 32 0) * 64
/-- `LAG`. -/
def sluLag (ws : List Word) : Nat := (opWord ws 3).elim 0 fun w => fld w 23 0
/-- The `BIND` of a slot. -/
def sluBind (ws : List Word) (k : Nat) : Option Word := (sluBinds ws).find? fun w => fld w 47 44 = k
/-- `DLY_SPAN` of a slot. -/
def sluSpan (ws : List Word) (k : Nat) : Nat := (sluBind ws k).elim 0 fun w => fld w 27 8
/-- The bound slots, lowest first. -/
def sluSlots (ws : List Word) : List Nat := (List.range 16).filter fun k => (sluBind ws k).isSome

/-- C of the running image. -/
def State.chanC (s : State) : Nat := s.image.elim 1 fun m => 2 ^ budLogChan m
/-- `SAMPLE_BITS`. -/
def State.sampleBits (s : State) : Nat := s.image.elim 4 budBits
/-- Spectra per pond word S_w (R241). -/
def State.specWord (s : State) : Nat := if s.sampleBits = 8 then 2 else 4

/-- Whether a `SLUICE_PROG` instruction has a reserved `OP` or a reserved bit set (R184). -/
def sluResv (w : Word) : Bool :=
  match fld w 63 60 with
  | 1 => fld w 51 33 != 0
  | 2 => fld w 31 28 != 0 || fld w 7 0 != 0
  | 3 => fld w 59 24 != 0
  | 4 => fld w 59 33 != 0
  | 5 => fld w 59 48 != 0
  | _ => true

/-- How many instructions of a kind a program has. -/
def opCount (ws : List Word) (op : Nat) : Nat := (ws.filter fun w => fld w 63 60 = op).length

/-- Whether a list of numbers has one twice. -/
def hasDup (xs : List Nat) : Bool := xs.eraseDups.length != xs.length

/-- Whether a unit's program fails its check at the swap boundary (R186, R200). -/
def State.progFails (s : State) (m : Memory) (u : Nat) : Bool :=
  let ws := progWords m tySluice u
  let bs := sluBinds ws
  let p := sluP ws
  let n := fld (budget m 0) 63 48
  let decl := budget m (24 + u)
  let k := s.rdf R.LVL_CFG u 5 1
  let before := (List.range u).flatMap fun v => sluBinds (progWords m tySluice v)
  ws.any sluResv || opCount ws 1 != 1 || opCount ws 3 != 1
    || (!bs.isEmpty && opCount ws 4 == 0) || decide (1 < opCount ws 4)
    || hasDup (bs.map fun w => fld w 47 44)
    || ((List.range 4).any fun l => decide (p < (bs.filter fun w => fld w 47 44 % 4 = l).length))
    || (bs.any fun w => outside (fld w 27 8) 64 1048575 || decide (n ≤ fld w 43 32))
    || bs.length != fld decl 63 48 || decide (fld decl 47 0 * p < 1500000000 * fld decl 63 48)
    || (opCount ws 5 != 0 && !bs.isEmpty) || ((opWord ws 5).any fun w => fld w 47 0 == 0)
    || decide (10 * 1500000000 < 256 * 2 ^ k * p)
    || (bs.any fun w => before.any fun v => fld v 59 48 == fld w 59 48 || fld v 43 32 == fld w 43 32)

/-- Whether the running image binds a unit whose program stands. -/
def State.sluRuns (s : State) (u : Nat) : Bool :=
  (s.image.any fun m => (progSect m tySluice u).isSome) && !(s.sluUnit u).bad

/-- The missing code of a delay buffer (R189), and a transfer of it. -/
def missPair : List Byte := [0x80, 0x80]
/-- A transfer that holds no sample. -/
def missData : List Byte := (List.replicate 32 missPair).flatten
/-- Transfers of a delay buffer of `span` samples. -/
def dlyBlocks (span : Nat) : Nat := (span + 31) / 32
/-- The transfer, counted over every lap of the buffer, of a sample index, and the sample's place in it (R244). -/
def dlyPlace (span i : Nat) : Nat × Nat := (i / span * dlyBlocks span + i % span / 32, i % span % 32)
/-- The heap address of a transfer of slot k's buffer (R184). -/
def dlyAddr (ws : List Word) (k blk : Nat) : Nat :=
  sluBase ws + k * 2097152 + 64 * (blk % dlyBlocks (sluSpan ws k))
/-- The samples that a transfer holds. -/
def dlySize (span blk : Nat) : Nat := min 32 (span - 32 * (blk % dlyBlocks span))

/-- A delay-buffer transfer of a slot. -/
def SluSlot.blk (sl : SluSlot) (b : Nat) : DlyBlk :=
  (pget sl.blocks b).getD { got := 0, data := missData, puts := [], backs := [] }
/-- A delay-buffer transfer, written. -/
def SluSlot.setBlk (sl : SluSlot) (b : Nat) (v : DlyBlk) : SluSlot := { sl with blocks := pset sl.blocks b (some v) }

/-- A transfer's write asked of the heap (R122), its samples 8 SCLK after their release (R129). -/
def State.dlyFlush (s : State) (u k b : Nat) : State :=
  let ws := s.sluProg u
  let s := s.setSlt u k { s.slt u k with cur := none }
  s.ask { owner := u, now := false, write := true, addr := dlyAddr ws k b, data := ((s.slt u k).blk b).data
          dest := .delayWrite (16 * u + k) b, ready := 2 * (s.imgNow + 8) }

/-- Bytes put into a list from a place on. -/
def putBytes (xs : List Byte) (i : Nat) (ys : List Byte) : List Byte := xs.take i ++ ys ++ xs.drop (i + ys.length)

/-- A component as R188 takes it. -/
def inComp (b : Byte) : Byte := if b = 0x80 then 0x81 else b

/-- One received sample placed by index: the first copy stands, −128 is replaced (R188). A transfer is written once it
is full, or once a sample of another transfer comes. -/
def State.placeSample (s : State) (u k i : Nat) (re im : Byte) : State :=
  let span := sluSpan (s.sluProg u) k
  let (b, p) := dlyPlace span i
  let sl := s.slt u k
  if (sl.blk b).got.testBit p then s
  else
    let s := match sl.cur with
      | some c => if c = b then s else s.dlyFlush u k c
      | none => s
    let n := b2n (re = 0x80) + b2n (im = 0x80)
    let s := if n = 0 then s else s.count R.CNT_IN_SAT u n
    let sl := s.slt u k
    let v := sl.blk b
    let v := { v with got := v.got ||| 2 ^ p, data := putBytes v.data (2 * p) [inComp re, inComp im] }
    let live := sl.blocks.filter fun e => b < e.1 + dlyBlocks span + 2
    let s := s.setSlt u k ({ sl with blocks := live, cur := some b }.setBlk b v)
    if v.got = 2 ^ dlySize span b - 1 then s.dlyFlush u k b else s

/-- The samples of a cell from the i-th on. -/
def State.placeAll (s : State) (u k i : Nat) : List Byte → State
  | re :: im :: rest => (s.placeSample u k i re im).placeAll u k (i + 1) rest
  | _ => s

/-- Samples per second that a unit takes (R138): its declared `SAMPLE_RATE`, at most 6.0 × 10^9. -/
def State.sluRate (s : State) (u : Nat) : Nat :=
  min 6000000000 (s.image.elim 0 fun m => fld (budget m (24 + u)) 47 0)

/-- How many of `n` samples of a released cell a unit has capacity for, taken (R138): the samples taken drain at the unit's
rate, and one cell's 120 samples of each of its streams may stand at once (DESIGN CHOICE, notes/assumptions/266.md). -/
def State.sluTake (s : State) (u n : Nat) : Nat × State :=
  let un := s.sluUnit u
  let streams := (sluBinds (s.sluProg u)).length
  let held := un.load - s.sluRate u * (s.imgNow - un.loadAt)
  let room := (120 * streams * 1500000000 - held) / 1500000000
  let k := min n room
  (k, s.setSluUnit u { un with load := held + k * 1500000000, loadAt := s.imgNow })

/-- A released sample cell (R188). Samples beyond the unit's capacity are dropped (R138). A failed unit discards it (R186). -/
def State.intake (s : State) (ws : List Word) : State :=
  let w := cellWord ws 0
  match s.bindOf (fld w 55 44) with
  | none => s
  | some (u, k) =>
    let p := sluP (s.sluProg u)
    let t := (cellWord ws 1).toNat
    if (s.sluUnit u).bad then s
    else if t % p ≠ 0 then s.count R.CNT_TIME_ALIGN u
    else
      let s := if bit w 59 then s.count R.CNT_OVR u else s
      if bit w 58 then s
      else
        let (n, s) := s.sluTake u 120
        let s := (List.range (120 - n)).foldl (fun s _ => s.breach R.BR_SLUICE 8 u) s
        s.placeAll u k (t / p) ((payloadOf ws).take (2 * n))

/-- A delay-buffer write completed at an SCLK: the samples it held are in the heap from then on, and a read of the transfer is
asked (R122, R194). -/
def State.dlyWritten (s : State) (time slot b : Nat) (data : List Byte) (lost : Bool) : State :=
  let u := slot / 16
  let k := slot % 16
  let sl := s.slt u k
  if (pget sl.blocks b).isNone ∨ lost = true then s
  else
    let v := sl.blk b
    let mask := (List.range 32).foldl (fun n p =>
      if (data.drop (2 * p)).take 2 = missPair then n else n + 2 ^ p) 0
    let s := s.setSlt u k (sl.setBlk b { v with puts := (time, mask) :: v.puts })
    s.ask { owner := u, now := false, write := false, addr := dlyAddr (s.sluProg u) k b, data := []
            dest := .delayRead slot b }

/-- A delay-buffer read whose data come at an SCLK (R122, R238). -/
def State.dlyReadDone (s : State) (time slot b : Nat) (data : List Byte) (poison : Bool) : State :=
  let u := slot / 16
  let k := slot % 16
  let sl := s.slt u k
  if (pget sl.blocks b).isNone then s
  else
    let v := sl.blk b
    s.setSlt u k (sl.setBlk b { v with backs := (time, data, poison) :: v.backs })

/-- A byte as a signed number. -/
def sByte (b : Byte) : Int := b.toInt

/-- The samples of a transfer that the writes completed by an SCLK have put in the heap; none where no write has. -/
def DlyBlk.put (v : DlyBlk) (now : Nat) : Option Nat :=
  match v.puts.filter fun e => e.1 ≤ now with
  | [] => none
  | es => some ((es.map (·.2)).foldl (· ||| ·) 0)

/-- The last read of a transfer whose data have come by an SCLK. -/
def DlyBlk.back (v : DlyBlk) (now : Nat) : Option (List Byte × Bool) := (v.backs.find? fun e => e.1 ≤ now).map (·.2)

/-- An input sample as the interpolator finds it: its value, or missing; whether no completed write has put it in the buffer;
whether its read gave poison (R189, R194, R238). -/
structure InSample where
  val : Option (Int × Int)
  late : Bool
  poison : Bool
  deriving DecidableEq, Repr

/-- The input sample of an index, as the buffer stands now. -/
def State.inSample (s : State) (u k : Nat) (i : Int) : InSample :=
  if i < 0 then { val := none, late := true, poison := false }
  else
    let ws := s.sluProg u
    let (b, p) := dlyPlace (sluSpan ws k) i.toNat
    let v := (s.slt u k).blk b
    let put := v.put s.imgNow
    let back := v.back s.imgNow
    let a := dlyAddr ws k b
    let data := back.elim (s.heap.mem.bytes a 64) (·.1)
    let pair := (data.drop (2 * p)).take 2
    let here := put.any fun m => m.testBit p
    let bad := back.any (·.2)
    let ok := here && !bad && (back.isSome || s.serves (hCtl a)) && pair != missPair
    { val := if ok then some (sByte (pair.getD 0 0), sByte (pair.getD 1 0)) else none
      late := put.isNone || (v.got.testBit p && !here)
      poison := here && (bad || (back.isNone && !s.serves (hCtl a))) }

/-- 1.5 GHz. -/
def sclkHz : Dy := Dy.ofInt 1500000000
/-- T = P / (1.5 × 10^9) in binary64. -/
def sampleT (p : Nat) : Dy := div64 (Dy.ofInt p) sclkHz
/-- t − t0 in seconds, in binary64, of array time `sclk` (R190): the exact difference, divided once (DEDUCED,
notes/assumptions/71.md). -/
def Model.dt (md : Model) (sclk : Nat) : Dy := div64 (Dy.ofInt ((sclk : Int) - (md.t0 * tideSclk : Nat))) sclkHz

/-- d(t) of R190, each operation rounded to binary64. -/
def Model.delay (md : Model) (sclk : Nat) : Fp :=
  let t := md.dt sclk
  to64 ((add64 (of64 md.d0).dy (mul64 (of64 md.d1).dy t)).add
    (div64 (mul64 (of64 md.d2).dy (mul64 t t)) (Dy.ofInt 2)))

/-- A value in signed fixed point with 64 fractional bits and `n` integer bits; free where the format cannot hold it
(R192). -/
def State.fixed64 (s : State) (n : Nat) (x : Fp) : Int × State :=
  let v := x.dy.fix 64
  if x.finite ∧ -(2 ^ (n + 63)) ≤ v ∧ v < 2 ^ (n + 63) then (v, s)
  else
    let (i, s) := s.fresh
    (Config.delayFixed i, s)

/-- The three values that seed the forward differences (R192). -/
def State.seedDelay (s : State) (u k m0 p : Nat) (md : Model) : State :=
  let t := sampleT p
  let d := md.delay (m0 * p)
  let tau := match d with
    | .fin x => to64 (x.div t)
    | y => y
  let (a, s) := s.fixed64 24 tau
  let d2 := (of64 md.d2).dy
  let (b, s) := s.fixed64 8 (to64 ((of64 md.d1).dy.add (mul64 d2 (add64 (md.dt (m0 * p)) (div64 t (Dy.ofInt 2))))))
  let (c, s) := s.fixed64 8 (to64 (d2.mul t))
  s.setSlt u k { s.slt u k with tau := a, dlt := b, acc := c }

/-- Whether an array time lies in a model's window (R190). -/
def Model.covers (md : Model) (sclk : Nat) : Bool :=
  decide (md.t0 * tideSclk ≤ sclk) && decide (sclk < (md.t0 + md.len) * tideSclk)

/-- The model that governs an array time (R191). -/
def SluSlot.governs (sl : SluSlot) (sclk : Nat) : Option Model :=
  match sl.newer, sl.older with
  | some n, o => if n.covers sclk then some n else o.filter fun x => x.covers sclk
  | none, o => o.filter fun x => x.covers sclk

/-- The expiry of a slot's newer model (R196): flagged, counted and reported once. -/
def State.checkExpired (s : State) (u k sclk : Nat) : State :=
  match (s.slt u k).newer with
  | some n =>
    if (n.t0 + n.len) * tideSclk ≤ sclk ∧ bit (s.rd R.SLOT_STAT u k) 5 = false then
      let s := s.wr R.SLOT_STAT u (setBit (s.rd R.SLOT_STAT u k) 5) k
      ((s.countf R.CNT_MODEL u 63 48).raise (sluPage u) 1).sluReport u k
    else s
  | none => s

/-- Whether the first sample of the newer model after the older is a jump (R197): 1 sample or more between the two
models' delays there, or a sample that the older does not cover. -/
def SluSlot.jumps (sl : SluSlot) (md : Model) (sclk p : Nat) : Bool :=
  match sl.gov, sl.older with
  | some g, some o =>
    if sl.newer = some md ∧ g ≠ md then
      if o.covers sclk then
        match o.delay sclk, md.delay sclk with
        | .fin x, .fin y =>
          let t := sampleT p
          !((to64 (x.div t)).dy.sub (to64 (y.div t)).dy).abs.lt (Dy.ofInt 1)
        | _, _ => true
      else true
    else false
  | _, _ => false

/-- g_p[j] of the phase table in units of 2^-17 (R199). -/
def phaseTap (p j : Nat) : Int :=
  let n : Int := 64 * ((j : Int) - 7) - p
  let v := fx1 - n * n * fx1 / (544 * 544)
  fxRound (fxMul (fxSinc n 64) (fxI0of6 v) * fx1 / fxI0of6 fx1) 17

/-- h_j for a fraction of f/4,096, in units of 2^-23 (R199). -/
def tapCoef (f j : Nat) : Int :=
  let p := f / 64
  let w : Int := f % 64
  (64 - w) * phaseTap p j + w * phaseTap (p + 1) j

/-- A sum of taps rounded to 8.4 fixed point, saturated at ±2,047/16 (R199). -/
def interpOut (v : Int) : Int := clampI (-2047) 2047 (shrEven v 19)

/-- The interpolated sample at x = i + f/4,096, from the taps s[i − 7] to s[i + 8]; a missing tap makes it missing. -/
def interpolate (tap : Int → Option (Int × Int)) (i : Int) (f : Nat) : Option (Int × Int) :=
  let ts := (List.range 16).map fun j => tap (i - 7 + j)
  if ts.all Option.isSome then
    let h := (List.range 16).map (tapCoef f)
    let sum := fun (g : Int × Int → Int) => ((h.zip ts).map fun x => x.1 * g (x.2.getD (0, 0))).sum
    some (interpOut (sum (·.1)), interpOut (sum (·.2)))
  else none

/-- The input samples needed for the first time, counted as missing and as late where they are (R194, R213). -/
def State.countInputs (s : State) (u k : Nat) (lo hi : Int) : State :=
  let sl := s.slt u k
  let from_ := match sl.top with
    | some t => max lo (t + 1)
    | none => lo
  let idx := (List.range (hi + 1 - from_).toNat).map fun (n : Nat) => from_ + n
  let seen := idx.map (s.inSample u k)
  let miss := (seen.filter fun x => x.val.isNone).length
  let late := (seen.filter fun x => x.late).length
  let s := if miss = 0 then s else s.count R.CNT_MISSING u miss
  let s := if late = 0 then s else s.count R.CNT_LATE u late
  s.setSlt u k { s.slt u k with top := some (match sl.top with
    | some t => max t hi
    | none => hi) }

/-- A stream switch: both estimators start afresh (R207, R208, R209). -/
def SluSlot.switch (sl : SluSlot) : SluSlot :=
  { sl with cnt := 0, valid := 0, sum := 0, first := true, shut := [], f := none, b := none, blocksF := 0, dev := false }

/-- A stream switch of a slot, with its `SETTLED` bit and level register. -/
def State.streamSwitch (s : State) (u k : Nat) : State :=
  let s := s.setSlt u k (s.slt u k).switch
  (s.wrb R.SLU_STAT u (48 + k) false).wr R.LVL u 0 k

/-- A corrected position counted in the level block, of sample power `sq` or missing: the block closes at its 256th position,
or after a stream switch at the end of the first 1 µs if that is shorter (R207). -/
def SluSlot.level (sl : SluSlot) (p : Nat) (sq : Option Nat) : SluSlot :=
  let n := sl.cnt + 1
  let v := sl.valid + b2n sq.isSome
  let sum := sl.sum + sq.getD 0
  if n = 256 ∨ (sl.first = true ∧ 1500 ≤ n * p) then
    { sl with cnt := 0, valid := 0, sum := 0, first := sl.first && v == 0, shut := sl.shut ++ [(v, sum, sl.first)] }
  else { sl with cnt := n, valid := v, sum := sum }

/-- A corrected sample entered: the history, the run of missing ones, the level block (R207, R209). -/
def State.pushCorr (s : State) (u k m : Nat) (c : Corr) (tau hat : Int) (md : Option Model) : State :=
  let n := s.chanC
  let s := match c.y with
    | some _ => if 65536 ≤ (s.slt u k).miss then s.streamSwitch u k else s
    | none => s
  let sl := s.slt u k
  let kept := if sl.last = some (m - 1) ∧ 0 < m then sl.hist else []
  let sq := c.y.map fun y => (y.1 * y.1 + y.2 * y.2).toNat
  s.setSlt u k ({ sl with
    last := some m
    hist := c :: kept.take (9 * n)
    centres := if m % n = 0 then { m := m, tau := tau, hat := hat, model := md } :: sl.centres.take 15 else sl.centres
    miss := if c.y.isSome then 0 else sl.miss + 1 }.level (sluP (s.sluProg u)) sq)

/-- Corrected sample m of one slot (R190 to R199). -/
def State.corrected (s : State) (u k m : Nat) : State :=
  let ws := s.sluProg u
  let p := sluP ws
  let sclk := m * p
  let tide := (sclk + sluLag ws) / tideSclk
  let sl := s.slt u k
  match sl.governs sclk with
  | none => (s.checkExpired u k sclk).pushCorr u k m { y := none, jump := false } 0 0 none
  | some md =>
    let jump := sl.jumps md sclk p
    let s := if jump then (s.countf R.CNT_MODEL u 47 32).raise (sluPage u) 3 else s
    let next := 0 < m ∧ sl.last = some (m - 1) ∧ sl.seed = some (tide, md)
    let s := if next then s.setSlt u k { sl with tau := sl.tau + sl.dlt, dlt := sl.dlt + sl.acc }
      else s.seedDelay u k m p md
    let s := s.setSlt u k { s.slt u k with seed := some (tide, md), gov := some md }
    let tau := (s.slt u k).tau
    let hat := if s.rdb R.SLU_XCFG u 0 then 0 else shrEven tau 52
    if hat < 0 ∨ ((sluSpan ws k : Int) - 16) * 4096 < hat then
      ((s.count R.CNT_DLY_RANGE u).raise (sluPage u) 5).pushCorr u k m { y := none, jump := jump } tau hat (some md)
    else
      let x := (m : Int) * 4096 - hat
      let i := x / 4096
      let s := s.countInputs u k (i - 7) (i + 8)
      let y := interpolate (fun n => (s.inSample u k n).val) i (x % 4096).toNat
      let poison := (List.range 16).any fun j => (s.inSample u k (i - 7 + j)).poison
      s.pushCorr u k m { y := y, jump := jump, poison := poison } tau hat (some md)

/-- The value of a level word. -/
def lvl (w : Option Word) : Dy := (w.elim (Fp.fin ⟨0, 0⟩) of64).dy

/-- Whether B differs from F by more than `th` × 0.5 dB (R209): the ratio's 20th power against 10^th. -/
def stepAway (th : Nat) (b f : Dy) : Bool :=
  let pw := fun (x : Dy) => (List.replicate 20 x).foldl Dy.mul (Dy.ofInt 1)
  let k := Dy.ofInt (10 ^ th)
  th != 0 && (((pw f).mul k).lt (pw b) || ((pw b).mul k).lt (pw f))

/-- F and B as `LVL_k` shows them, and the `SETTLED` bit (R216). -/
def State.showLevels (s : State) (u k : Nat) : State :=
  let sl := s.slt u k
  let w := fun (x : Option Word) => word32 (to32 (lvl x))
  let s := s.wr R.LVL u (word (at_ 32 (w sl.f) + w sl.b)) k
  s.wrb R.SLU_STAT u (48 + k) (sl.f.isSome && decide (4 * 2 ^ s.rdf R.LVL_CFG u 5 1 ≤ sl.blocksF))

/-- A block of the coarse estimator that gives the value B (R208, R209); blocks that give none do not count toward the settling
(DEDUCED, notes/assumptions/256.md). -/
def State.levelValue (s : State) (u k : Nat) (b : Dy) : State :=
  let sl := s.slt u k
  let bw := some (word64 (.fin b))
  match sl.f with
  | none => (s.setSlt u k { sl with b := bw, f := bw, blocksF := 0, dev := false }).showLevels u k
  | some _ =>
    let f := lvl sl.f
    let away := stepAway (s.rdf R.LVL_CFG u 15 8) b f
    if away ∧ sl.dev then
      let s := s.setSlt u k { sl with b := bw, f := none, blocksF := 0, dev := false }
      ((s.countf R.CNT_MODEL u 15 0).raise (sluPage u) 4).showLevels u k
    else
      let g := add64 f (((to64 (b.sub f)).dy).scale (-(s.rdf R.LVL_CFG u 5 1 : Int)))
      (s.setSlt u k { sl with b := bw, f := some (word64 (.fin g)), blocksF := sl.blocksF + 1, dev := away }).showLevels
        u k

/-- The oldest closed block evaluated (R207): it gives a value from 64 valid samples on, the first after a stream switch from
one on. -/
def State.levelBlock (s : State) (u k : Nat) : State :=
  let sl := s.slt u k
  match sl.shut with
  | [] => s
  | (valid, sum, first) :: rest =>
    let s := s.setSlt u k { sl with shut := rest }
    if (if first then 1 else 64) ≤ valid then s.levelValue u k ((to64 ((Dy.mk sum (-8)).div (Dy.ofInt valid))).dy) else s

/-- A gain of the working table, 4.12. -/
def State.gainOf (s : State) (u k c : Nat) : Nat :=
  (mget (fun _ => (0 : BitVec 16)) s.slu.gainW ((16 * u + k) * 4096 + c)).toNat
/-- A coefficient of the working window in units of 2^-17. -/
def State.winOf (s : State) (u n : Nat) : Int := (mget (fun _ => (0 : BitVec 18)) s.slu.winW (32768 * u + n)).toInt
/-- Whether the working window holds only zeros. -/
def State.winZero (s : State) (u c : Nat) : Bool := (List.range (8 * c)).all fun n => s.winOf u n == 0
/-- S = ⌈log2(C) / 2⌉ for C = 2^l. -/
def chanS (l : Nat) : Nat := (l + 1) / 2
/-- NG = 2^-2S × Σ w² of the working window (R210). -/
def State.noiseGain (s : State) (u l : Nat) : Dy :=
  ⟨((List.range (8 * 2 ^ l)).map fun n => s.winOf u n * s.winOf u n).sum, -34 - 2 * (chanS l : Int)⟩
/-- NG as the unit holds it. -/
def State.noise (s : State) (u : Nat) : Dy := (of64 (s.sluUnit u).noise).dy

/-- One component of X_{c,j} in units of 2^-60 LSB/16 before its rounding (R201): `part` chooses it from the product of
a sample and the conjugate phasor. -/
def filterSum (ws : List Int) (ys : List (Int × Int)) (l c : Nat) (im : Bool) : Int :=
  let n := 2 ^ l
  let terms := (List.range (8 * n)).map fun (i : Nat) =>
    let (sn, cs) := fxTurn (((c : Int) - (n : Int) / 2) * (i : Int)) n
    let y := ys.getD i (0, 0)
    ws.getD i 0 * (if im then y.2 * cs - y.1 * sn else y.1 * cs + y.2 * sn)
  shrEven terms.sum (36 + 17 + chanS l)

/-- A filter-bank component (R201): some whole number of 1/16 LSB within 2 of the exact value, saturated to 24 bits;
whether it saturated. -/
def State.filterOut (s : State) (v : Int) : (Int × Bool) × State :=
  let (i, s) := s.fresh
  let lo := -((-(v - 2 * 2 ^ 60)) / 2 ^ 60)
  let hi := (v + 2 * 2 ^ 60) / 2 ^ 60
  let r := lo + Config.filterDev i % (hi - lo + 1)
  let c := clampI (-8388608) 8388607 r
  ((c, r != c), s)

/-- A rotation coefficient in units of 2^-17, 18 bits signed, +1.0 held as the largest (R206; DESIGN CHOICE,
notes/assumptions/19.md), from its value in units of 2^-96. -/
def rotCoef (v : Int) (i : Nat) : Int :=
  let fl := v / 2 ^ 79
  clampI (-131072) 131071 (if v % 2 ^ 79 = 0 then fl else if Config.rotUp i then fl + 1 else fl)

/-- θ in units of 2^-16 turn (R206), evaluated in binary64. -/
def State.fringe (s : State) (u p l c j : Nat) (ce : Centre) : Nat :=
  if s.rdb R.SLU_XCFG u 1 then 0
  else
    match ce.model with
    | none => 0
    | some md =>
      let t := sampleT p
      let d := (md.delay ((j + 4) * 2 ^ l * p)).dy
      let fc := div64 (Dy.ofInt ((c : Int) - (2 ^ l : Nat) / 2)) (mul64 (Dy.ofInt (2 ^ l : Nat)) t)
      let res := (to64 ⟨ce.tau - ce.hat * 2 ^ 52, -64⟩).dy
      let th := sub64 (sub64 ⟨md.ph0, -32⟩ (mul64 (of64 md.flo).dy d)) (mul64 (mul64 fc res) t)
      ((th.fix 16) % 65536).toNat

/-- A rotated channel value in units of 2^-21 LSB (R206). -/
def rotate (x : Int × Int) (th : Nat) : Int × Int :=
  let (sn, cs) := fxTurn th 65536
  let sn := fxRound sn 90 * 64
  let cs := fxRound cs 90 * 64
  let a := rotCoef cs (2 * th)
  let b := rotCoef sn (2 * th + 1)
  (x.1 * a - x.2 * b, x.1 * b + x.2 * a)

/-- s_c in binary32 (R211); `none` where the formula gives no finite number. -/
def State.scaleOf (s : State) (u k c : Nat) (level : Dy) : Option Dy :=
  let cfg := s.rd R.LVL_CFG u
  let g : Dy := ⟨s.gainOf u k c, -12⟩
  if bit cfg 0 then some ((to32 (g.scale (-(fld cfg 20 16 : Int)))).dy)
  else
    let num := (to32 (g.mul ⟨fld cfg 31 21, -4⟩)).dy
    let den := (to32 (((to32 ((to32 level).dy.mul (to32 (s.noise u)).dy)).dy.scale (-1)).sqrt)).dy
    if den.m = 0 then none
    else match to32 (num.div den) with
      | .fin x => some x
      | _ => none

/-- A requantised component (R211, R214): its code and whether it clipped. A scale of no finite value gives a free
one, except that a zero gain gives 0. -/
def State.quantise (s : State) (m : Int) (sc : Option Dy) (zeroGain sat : Bool) (v : Int) : (Int × Bool) × State :=
  if zeroGain then ((0, sat), s)
  else
    match sc with
    | some x =>
      let y := x.mul ⟨v, -21⟩
      ((clampI (-m) m y.round, sat || (Dy.mk (2 * m + 1) (-1)).lt y.abs), s)
    | none =>
      let (i, s) := s.fresh
      ((clampI (-m) m (Config.quantOpen i), sat), s)

/-- A clip counted (R214). -/
def State.clip (s : State) (u k c : Nat) : State :=
  let key := (16 * u + k) * 4096 + c
  let s := s.count R.CNT_CLIP u
  let n := min 65535 (mget (fun _ => 0) s.slu.clips key + 1)
  { s with slu := { s.slu with clips := mset (fun _ => 0) s.slu.clips key n } }

/-- The bytes of a sample (R212). -/
def sampleBytes (bits : Nat) (q : Int × Int) : List Byte :=
  if bits = 8 then [BitVec.ofInt 8 q.1, BitVec.ofInt 8 q.2]
  else [BitVec.ofNat 8 (16 * field2c 4 q.1 + field2c 4 q.2)]

/-- A pond word of zero-weight codes (R212, R241). -/
def zeroWord (bits : Nat) : List Byte := List.replicate 64 (if bits = 8 then 0x80 else 0x88)

/-- A sample put into the pond word being gathered for a channel (R241). -/
def State.pondPut (s : State) (u c j input : Nat) (q : Option (Int × Int)) : State :=
  let bits := s.sampleBits
  let un := s.sluUnit u
  let old := mget (fun _ => zeroWord bits) un.group c
  let at_ := if bits = 8 then 32 * (j % 2) + 2 * (input % 16) else 16 * (j % 4) + input % 16
  let bs := match q with
    | some v => sampleBytes bits v
    | none => if bits = 8 then [0x80, 0x80] else [0x88]
  s.setSluUnit u { un with group := minsert c (putBytes old at_ bs) (merase un.group c) }

/-- One channel of a spectrum of one slot (R201 to R214). -/
def State.channelOut (s : State) (u k c j p l input : Nat) (ws : List Int) (ys : List (Int × Int)) (ce : Centre)
    (level : Dy) : State :=
  let ((xr, sr), s) := s.filterOut (filterSum ws ys l c false)
  let ((xi, si), s) := s.filterOut (filterSum ws ys l c true)
  let (vr, vi) := rotate (xr, xi) (s.fringe u p l c j ce)
  let sc := s.scaleOf u k c level
  let m : Int := if s.sampleBits = 8 then 127 else 7
  let zg := s.gainOf u k c == 0
  let ((qr, cr), s) := s.quantise m sc zg sr vr
  let ((qi, ci), s) := s.quantise m sc zg si vi
  let s := if cr then s.clip u k c else s
  let s := if ci then s.clip u k c else s
  s.pondPut u c j input (some (qr, qi))

/-- The level L of a spectrum (R210): F once settled, else the latest B. -/
def State.levelOf (s : State) (u k : Nat) : Option Word :=
  if s.rdb R.SLU_STAT u (48 + k) then (s.slt u k).f else (s.slt u k).b

/-- Spectrum j of one slot (R203, R213). -/
def State.slotSpectrum (s : State) (u k j : Nat) : State :=
  let prog := s.sluProg u
  let p := sluP prog
  let c := s.chanC
  let l := Nat.log2 c
  let sl := s.slt u k
  let input := (sluBind prog k).elim 0 fun w => fld w 43 32
  let skip := (sl.last.getD 0) - (j * c + 8 * c - 1)
  let win := ((sl.hist.drop skip).take (8 * c)).reverse
  let bad := win.length != 8 * c || (win.any fun x => x.y.isNone || x.jump) || s.winZero u c
  let s := if win.any (·.poison) then s.setSluUnit u { s.sluUnit u with mark := true } else s
  match s.levelOf u k, sl.centres.find? fun x => x.m = j * c + 4 * c with
  | some lw, some ce =>
    if bad then
      let s := (s.count R.CNT_GAP_SPECTRA u).wrb R.SLU_STAT u (32 + k) true
      (List.range c).foldl (fun s n => s.pondPut u n j input none) s
    else
      let ys := win.map fun x => x.y.getD (0, 0)
      let ws := (List.range (8 * c)).map (s.winOf u)
      let s := s.wrb R.SLU_STAT u (32 + k) false
      (List.range c).foldl (fun s n => s.channelOut u k n j p l input ws ys ce (of64 lw).dy) s
  | _, _ =>
    let s := (s.count R.CNT_GAP_SPECTRA u).wrb R.SLU_STAT u (32 + k) true
    (List.range c).foldl (fun s n => s.pondPut u n j input none) s

/-- W: words of a channel in a unit's pond area (R242, R243). -/
def State.pondW (s : State) : Nat := 4 * s.rdf R.POND_CFG 0 19 0 / s.specWord

/-- The pond words of a group asked to be written (R242). Its last spectrum completed at SCLK `t` of the data path, and the
unit has channel c of every slot 64 + C/2 + k C/4 + c div 4 SCLK later, k being the rank of its last slot (R129, R203). -/
def State.pondFlush (s : State) (u j t : Nat) : State :=
  match opWord (s.sluProg u) 4 with
  | none => s
  | some w =>
    let un := s.sluUnit u
    let bits := s.sampleBits
    let n := s.chanC
    let k := (sluSlots (s.sluProg u)).length - 1
    let s := s.setSluUnit u { un with group := [], mark := false }
    (List.range n).foldl (fun s c =>
      s.ask { owner := u, now := false, write := true
              addr := fld w 32 0 * 64 + (c * s.pondW + j / s.specWord % s.pondW) * 64
              data := mget (fun _ => zeroWord bits) un.group c, dest := .none
              ready := 2 * (t + 64 + n / 2 + k * n / 4 + c / 4), mark := un.mark }) s

/-- Array time of the completion of spectrum j: its last corrected sample (R194, R203). -/
def State.specTime (s : State) (u j : Nat) : Nat :=
  (j * s.chanC + 8 * s.chanC - 1) * sluP (s.sluProg u) + sluLag (s.sluProg u)

/-- Spectrum j of a unit (R203, R242): every bound slot, higher slots first so that of two slots in one position the
lower stands (R241); the group's words once its last spectrum is done. A failed unit writes the zero-weight code
(R186). -/
def State.spectrum (s : State) (u j : Nat) : State :=
  let prog := s.sluProg u
  let un := s.sluUnit u
  let ks := sluSlots prog
  let c := s.chanC
  if un.done.any (fun d => decide (j ≤ d)) ∨ s.nowSclk < s.specTime u j then s
  else if !un.bad && !(ks.all fun k => (s.slt u k).last.any fun m => decide (j * c + 8 * c ≤ m + 1)) then s
  else
    let fresh := un.done.all fun d => d / s.specWord != j / s.specWord
    let s := s.setSluUnit u { un with done := some j, group := if fresh then [] else un.group, mark := !fresh && un.mark }
    let s := if un.bad then s else ks.reverse.foldl (fun s k => s.slotSpectrum u k j) s
    if j % s.specWord = s.specWord - 1 then s.pondFlush u j (s.imgOf (s.specTime u j)) else s

/-- The default window coefficient n for C = 2^l (R202); its centre, 1.0, is what the format makes of it. -/
def winDefaultAt (c n : Nat) : BitVec 18 :=
  if n = 4 * c then Config.winPeak
  else
    let (_, cs) := fxTurn n (8 * c)
    BitVec.ofInt 18 (fxRound (fxMul (fxSinc ((n : Int) - 4 * c) c) ((fx1 - cs) / 2)) 17)

/-- Entries of a table whose keys lie in a range, replaced. -/
def setRange {α : Type} (lo n : Nat) (m : Map α) (new : Map α) : Map α :=
  (m.filter fun e => e.1 < lo) ++ new ++ (m.filter fun e => decide (lo + n ≤ e.1))

/-- The entries of a table in a range. -/
def inRange {α : Type} (lo n : Nat) (m : Map α) : Map α := m.filter fun e => decide (lo ≤ e.1) && decide (e.1 < lo + n)

/-- `SLU_CMD.GAIN_COPY`: working gains to the shadow (R216). -/
def State.gainCopyOp (s : State) (u : Nat) : State :=
  { s with slu := { s.slu with gainS := setRange (u * 65536) 65536 s.slu.gainS (inRange (u * 65536) 65536 s.slu.gainW) } }

/-- `SLU_CMD.WIN_DEFAULT`: the shadow window (R202). -/
def State.winDefaultOp (s : State) (u : Nat) : State :=
  let c := s.chanC
  let new := (List.range (8 * c)).foldl (fun m n => mset (fun _ => (0 : BitVec 18)) m (32768 * u + n) (winDefaultAt c n))
    s.slu.winS
  { s with slu := { s.slu with winS := new } }

/-- `SLU_CMD.CLIP_CLR` (R214). -/
def State.clipClrOp (s : State) (u k : Nat) : State :=
  let lo := (16 * u + k) * 4096
  { s with slu := { s.slu with clips := setRange lo 4096 s.slu.clips [] } }

/-- A command of `SLU_CMD` on a unit (R216). -/
def State.sluCmd (s : State) (u : Nat) (v : Word) : State :=
  let k := fld v 19 16
  if bit v 0 then s.gainCopyOp u
  else if bit v 1 then s.winDefaultOp u
  else if bit v 2 then s.streamSwitch u k
  else if bit v 3 then s.clipClrOp u k
  else s

/-- `SLOT_STAT` of a slot (R217). -/
def State.slotStat (s : State) (u k : Nat) (flags : Nat) : State :=
  let sl := s.slt u k
  s.wr R.SLOT_STAT u (word (at_ 32 ((sl.newer.elim 0 (·.t0)) % 2 ^ 32) + at_ 7 (b2n sl.older.isSome)
    + at_ 6 (b2n sl.newer.isSome) + flags)) k

/-- The shadow model of a slot as its registers hold it (R195). -/
def State.shadowModel (s : State) (u k : Nat) : Model :=
  { t0 := (s.rd R.DM_T0 u k).toNat, len := fld (s.rd R.DM_CTRL u k) 63 32, d0 := s.rd R.DM_D0 u k, d1 := s.rd R.DM_D1 u k
    d2 := s.rd R.DM_D2 u k, flo := s.rd R.FR_FLO u k, ph0 := fld (s.rd R.FR_PH0 u k) 31 0 }

/-- A committed delay model adopted (R13, R191): `EXPIRED` and `REFUSED` clear. -/
def State.adoptModel (s : State) (u k : Nat) : State :=
  let md := s.shadowModel u k
  let sl := s.slt u k
  let s := s.setSlt u k { sl with older := sl.newer, newer := some md }
  (s.wr R.DM_CTRL u (clrBit (s.rd R.DM_CTRL u k) 0) k).slotStat u k 0

/-- Committed gains adopted (R13). -/
def State.adoptGain (s : State) (u : Nat) : State :=
  let g := setRange (u * 65536) 65536 s.slu.gainW (inRange (u * 65536) 65536 s.slu.gainS)
  let s := { s with slu := { s.slu with gainW := g } }
  s.wr R.GAIN_CTRL u 0

/-- NG computed and held (R210). With no image running there is no C, and the value is free (DESIGN CHOICE,
notes/assumptions/265.md). -/
def State.holdNoise (s : State) (u : Nat) : State :=
  let (w, s) : Word × State := match s.image with
    | some m => (word64 (to64 (s.noiseGain u (budLogChan m))), s)
    | none => let (i, s) := s.fresh; (Config.noiseOpen i, s)
  s.setSluUnit u { s.sluUnit u with noise := w }

/-- A committed window adopted (R13). -/
def State.adoptWin (s : State) (u : Nat) : State :=
  let w := setRange (u * 32768) 32768 s.slu.winW (inRange (u * 32768) 32768 s.slu.winS)
  let s := { s with slu := { s.slu with winW := w } }
  (s.holdNoise u).wr R.WIN_CTRL u 0

/-- The state of a unit cleared at a swap (R112): a stream switch of each slot, and no sample held, a resampler's among them
(R322, R323). -/
def State.sluClear (s : State) (u : Nat) : State :=
  let s := { s with slu := { s.slu with
    rs := s.slu.rs.filter fun e => e.1 / 2 ^ 24 ≠ u
    rsDone := s.slu.rsDone.filter fun e => e.1 / 4096 ≠ u } }
  let s := (List.range 16).foldl (fun s k =>
    let sl := s.slt u k
    let s := s.setSlt u k { ({} : SluSlot) with newer := sl.newer, older := sl.older }
    s.streamSwitch u k) s
  let s := s.wr R.SLU_STAT u (setFld (s.rd R.SLU_STAT u) 47 32 0)
  s.setSluUnit u { noise := (s.sluUnit u).noise, load := (s.sluUnit u).load, loadAt := (s.sluUnit u).loadAt }

/-- A unit that no image binds: it carries no stream, and `SLU_STAT` says so (R187, R216). -/
def State.sluStop (s : State) (u : Nat) : State :=
  (s.setSluUnit u { s.sluUnit u with bad := false, group := [], mark := false }).wr R.SLU_STAT u
    (setFld (s.rd R.SLU_STAT u) 31 0 0)

/-- What a swap makes of a unit that the new image `m` binds or not (R112, R186, R187, R200, R241). The
word group in progress is dropped at every start (DEDUCED, notes/assumptions/255.md). -/
def State.sluStart (s : State) (m : Memory) (u : Nat) : State :=
  let ws := progWords m tySluice u
  if (progSect m tySluice u).isNone then
    s.sluStop u
  else
    let bad := s.progFails m u
    let s := s.setSluUnit u { s.sluUnit u with bad := bad, group := [], mark := false }
    let s := s.setHdr (sluPage u) hCtrl (setBit (s.hdr (sluPage u) hCtrl) 0)
    let mask := ((sluBinds ws).map fun w => 2 ^ fld w 47 44).foldl (· ||| ·) 0
    let st := s.rd R.SLU_STAT u
    let s := s.wr R.SLU_STAT u (word (at_ 32 (fld st 63 32) + at_ 16 mask + at_ 9 (b2n ((opWord ws 5).isSome))
      + at_ 8 (b2n bad) + (sluP ws - 1)))
    let s := if bad then (s.raise (sluPage u) 0).sluReport u 0 else s
    if hasDup ((sluBinds ws).map fun w => fld w 43 32 % 16) ∧ !bad then s.sluReport u 0 else s

end Sys2Proof.Machine
end

