-- ==== Sys2Proof/Machine/SeqOps.lean ====
section
/-! DEFINITION. The sequencers of pans, feeders and rakes (R264, R265, R269): time on the data path, fetching, legality,
loops, illegal instructions. -/

namespace Sys2Proof.Machine

/-- The first HCLK edge at or after a time of the data path, in half SCLK (R41, R120): edges lie every 3 half SCLK from
tide 0 of the epoch, and a tide is 2 more than a multiple of 3. -/
def State.hclk (s : State) (h : Nat) : Nat :=
  let r := ((h : Int) + 2 * ((s.time.tide : Int) - s.sched.age)) % 3
  h + ((3 - r) % 3).toNat

/-- A pan at reset. -/
def panDflt (_ : Nat) : Pan := {}
/-- A feeder at reset. -/
def feederDflt (_ : Nat) : Feeder := {}
/-- A beam row at reset. -/
def rowDflt (_ : Nat) : BeamRow := {}
/-- A rake at reset. -/
def rakeDflt (_ : Nat) : Rake := {}
/-- Pan p. -/
def State.pn (s : State) (p : Nat) : Pan := mget panDflt s.pans.pan p
/-- A pan, written. -/
def State.setPn (s : State) (p : Nat) (v : Pan) : State := { s with pans := { s.pans with pan := mset panDflt s.pans.pan p v } }
/-- Feeder f. -/
def State.fd (s : State) (f : Nat) : Feeder := mget feederDflt s.pans.feeder f
/-- A feeder, written. -/
def State.setFd (s : State) (f : Nat) (v : Feeder) : State :=
  { s with pans := { s.pans with feeder := mset feederDflt s.pans.feeder f v } }
/-- Beam row r. -/
def State.bm (s : State) (r : Nat) : BeamRow := mget rowDflt s.pans.row r
/-- A beam row, written. -/
def State.setBm (s : State) (r : Nat) (v : BeamRow) : State :=
  { s with pans := { s.pans with row := mset rowDflt s.pans.row r v } }
/-- Rake k. -/
def State.rk (s : State) (k : Nat) : Rake := mget rakeDflt s.pans.rake k
/-- A rake, written. -/
def State.setRk (s : State) (k : Nat) (v : Rake) : State :=
  { s with pans := { s.pans with rake := mset rakeDflt s.pans.rake k v } }

/-- A unit's sequencer. -/
def State.seqOf (s : State) : SeqUnit → Seq
  | .pan p => (s.pn p).seq
  | .feeder f => (s.fd f).seq
  | .rake k => (s.rk k).seq

/-- A unit's sequencer, written. -/
def State.setSeq (s : State) : SeqUnit → Seq → State
  | .pan p, q => s.setPn p { s.pn p with seq := q }
  | .feeder f, q => s.setFd f { s.fd f with seq := q }
  | .rake k, q => s.setRk k { s.rk k with seq := q }

/-- Whether the pan runs its job store (R276). -/
def State.inJob (s : State) : SeqUnit → Bool
  | .pan p => (s.pn p).jobRun
  | _ => false

/-- Section type and number of a unit's program. -/
def seqProg : SeqUnit → Nat × Nat
  | .pan p => (tyPan, p)
  | .feeder f => (tyFeeder, f)
  | .rake k => (tyRake, k)

/-- Whether the running image binds a unit. -/
def State.seqBound (s : State) (u : SeqUnit) : Bool := s.image.any fun m => (progSect m (seqProg u).1 (seqProg u).2).isSome

/-- The length of the program that a unit runs. -/
def State.seqLen (s : State) (u : SeqUnit) : Nat :=
  if s.inJob u then 256
  else match s.image with
    | some m => (progSect m (seqProg u).1 (seqProg u).2).elim 0 (progLen m)
    | none => 0

/-- The instruction at an index of the program that a unit runs. -/
def State.seqWord (s : State) (u : SeqUnit) (pc : Nat) : Option Word :=
  if s.inJob u then
    match u with
    | .pan p => if pc < 256 then some (mget (fun _ => (0 : Word)) (s.pn p).jobs pc) else none
    | _ => none
  else s.image.bind fun m => progWord m (seqProg u).1 (seqProg u).2 pc

/-- Whether a unit issues: its image runs it and it has not halted, or it is a pan running a job (R264, R276). The pans of a gated row
do not issue (R27, R35). -/
def State.seqLive (s : State) (u : SeqUnit) : Bool :=
  match u with
  | .pan p => decide (p.val / 16 < s.pwr.rows)
      && ((s.pn p).jobRun || (s.seqBound u && !(s.pn p).preempted && !(s.pn p).seq.halted))
  | _ => s.seqBound u && !(s.seqOf u).halted

/-- `OP` of an instruction. -/
def opOf (w : Word) : Nat := fld w 63 58

/-- Whether a `WAIT`, `LOOP`, `WAITAT` or `HALT` has no reserved field set (R267); `none` for other opcodes. -/
def commonLegal (w : Word) : Option Bool :=
  match opOf w with
  | 0x00 => some (fld w 57 20 == 0)
  | 0x08 => some (fld w 57 56 != 3 && fld w 31 20 == 0)
  | 0x0A => some (fld w 37 0 == 0)
  | 0x0B => some (fld w 57 0 == 0)
  | _ => none

/-- Whether a pan instruction is legal (R267, R269). -/
def panLegal (w : Word) : Bool :=
  match commonLegal w with
  | some b => b
  | none =>
    match opOf w with
    | 0x01 => fld w 32 0 == 0 && (bit w 39 || fld w 38 37 == 0)
    | 0x02 => fld w 33 33 == 0 && fld w 21 0 == 0 && (bit w 38 || fld w 37 36 == 0)
    | 0x03 => fld w 21 0 == 0
    | 0x04 => fld w 57 0 == 0
    | 0x05 => fld w 57 0 == 0
    | 0x06 => fld w 56 0 == 0
    | 0x07 => fld w 57 0 == 0
    | 0x09 => fld w 53 0 == 0
    | _ => false

/-- Whether a feeder instruction is legal (R268, R269). -/
def State.feederLegal (s : State) (w : Word) : Bool :=
  match commonLegal w with
  | some b => b
  | none =>
    let wide := s.sampleBits == 8
    match opOf w with
    | 0x10 =>
      let v := fld w 51 19
      fld w 18 0 == 0 && decide (fld w 54 52 < 6) && (fld w 54 52 != 1 || v != 0) && (fld w 54 52 != 5 || v != 0)
        && (fld w 54 52 != 2 || decide (v < 256))
    | 0x11 =>
      let n := fld w 48 42
      fld w 33 0 == 0 && !outside n 1 85 && (bit w 51 || decide (s.specWord * n ≤ 256))
        && (!wide || decide (fld w 50 49 ≤ 1))
    | 0x12 => fld w 23 0 == 0
    | 0x13 => fld w 21 0 == 0 && (!wide || fld w 25 24 == 0)
    | _ => false

/-- b = ⌈N / 1,024⌉ of the running image (R20). -/
def State.blocksB (s : State) : Nat := s.image.elim 1 fun m => (fld (budget m 0) 63 48 + 1023) / 1024

/-- Whether a rake instruction is legal (R282, R300). -/
def State.rakeLegal (s : State) (w : Word) : Bool :=
  match commonLegal w with
  | some b => b
  | none =>
    match opOf w with
    | 0x20 =>
      let kind := fld w 55 54
      let b := s.blocksB
      let sg := fld w 50 47
      fld w 26 0 == 0 && fld w 53 51 != 7
        && (if kind = 1 ∨ kind = 2 then fld w 50 27 == 0
            else (sg == 15 || decide (sg < b * (b + 1) / 2)) && decide (fld w 46 27 < s.rdf R.ACC_CFG 0 20 0))
    | 0x21 => fld w 19 0 == 0 && fld w 54 53 != 3 && (fld w 54 53 != 1 || fld w 52 20 != 0)
    | 0x22 => fld w 49 0 == 0 && !outside (fld w 56 50) 1 85
    | _ => false

/-- Whether an instruction of a unit is legal. -/
def State.seqLegal (s : State) (u : SeqUnit) (w : Word) : Bool :=
  match u with
  | .pan _ => panLegal w
  | .feeder _ => s.feederLegal w
  | .rake _ => s.rakeLegal w

/-- Whether an instruction of a unit is a setup instruction (R264, R300). -/
def isSetup (u : SeqUnit) (w : Word) : Bool :=
  opOf w == 0x08 ||
    match u with
    | .pan _ => opOf w == 0x09
    | .feeder _ => opOf w == 0x10 || opOf w == 0x12
    | .rake _ => opOf w == 0x20 || opOf w == 0x21

/-- A loop level checked at its `END` (R265): the register after it, and whether control branches. -/
def Loop.pass (l : Loop) : Loop × Bool :=
  let it := (l.iter + 1) % 2 ^ 20
  if l.limit = 0 ∨ it < l.limit then ({ l with iter := it }, true) else ({ l with iter := it, armed := false }, false)

/-- Whether a loop level is checked at a pc. -/
def Loop.ends (l : Loop) (pc : Nat) : Bool := l.armed && l.end_ == pc

/-- Level 0 checked. -/
def Seq.next0 (q : Seq) : Seq :=
  if q.l0.ends q.pc then
    let (l, b) := q.l0.pass
    { q with l0 := l, pc := if b then l.start else q.pc + 1 }
  else { q with pc := q.pc + 1 }

/-- Levels 1 and 0 checked. -/
def Seq.next1 (q : Seq) : Seq :=
  if q.l1.ends q.pc then
    let (l, b) := q.l1.pass
    if b then { q with l1 := l, pc := l.start } else ({ q with l1 := l }).next0
  else q.next0

/-- Where control goes after the instruction at pc: the levels whose `END` it is, from the highest down (R265). -/
def Seq.next (q : Seq) : Seq :=
  if q.l2.ends q.pc then
    let (l, b) := q.l2.pass
    if b then { q with l2 := l, pc := l.start } else ({ q with l2 := l }).next1
  else q.next1

/-- A non-setup instruction issued, the next `n` SCLK later. -/
def Seq.issued (q : Seq) (n : Nat) : Seq := { q.next with at_ := q.at_ + n, setups := 0 }

/-- A setup instruction taken: it has no SCLK of its own, except the ninth in a row (R264). -/
def Seq.setup (q : Seq) : Seq :=
  if q.setups = 8 then { q.next with at_ := q.at_ + 1, setups := 0 } else { q.next with setups := q.setups + 1 }

/-- `ITER` of level `AMODE` − 1, or 0 (R266). -/
def Seq.iterOf (q : Seq) (amode : Nat) : Nat :=
  match amode with
  | 1 => q.l0.iter
  | 2 => q.l1.iter
  | 3 => q.l2.iter
  | _ => 0

/-- The page of a pan or of a feeder. -/
def panPage (p : Nat) : Nat := 0x30 + p / 16
/-- The page index of a feeder's registers: row feeder i and column feeder 16 + i (R278). -/
def feederIdx (f : Nat) : Nat := f % 16
/-- The error register of a feeder. -/
def feederErr (f : Nat) : Reg := if f < 16 then R.FEED_R_ERR else R.FEED_C_ERR
/-- A feeder's error counter raised, with `FEED_ERR` (R278). -/
def State.feederCount (s : State) (f hi lo : Nat) (n : Nat := 1) : State :=
  if n = 0 then s
  else (s.countf (feederErr f) (16 * feederIdx f) hi lo n).raise (0x30 + feederIdx f) 7

/-- `PAN_STAT` (R279). -/
def State.panStat (s : State) (p : Nat) : Word :=
  let v := s.pn p
  word (at_ 52 (v.seq.pc % 4096) + at_ 49 v.ctx + at_ 48 (b2n v.beam) + at_ 47 (b2n v.bank)
    + at_ 46 (b2n (decide (2 * s.imgNow < v.busy))) + at_ 45 (b2n (decide (2 * s.imgNow < v.filling)))
    + at_ 44 (b2n v.seq.halted) + at_ 43 (b2n v.preempted) + at_ 42 (b2n v.prePend.isSome)
    + at_ 41 (b2n v.resPend.isSome) + at_ 40 (b2n v.jobRun) + at_ 39 (b2n v.jobDone)
    + at_ 38 (b2n (s.image.any fun m => (progSect m tyPan p).isSome)))

/-- Pending bindings of a rake's port: promote, save and fill bindings not consumed yet (R301). -/
def Rake.pending (r : Rake) (port : Nat) : Nat := (r.blks.filter fun b => b.port = port ∧ b.kind ≠ .flush ∧ !b.taken).length

/-- Short runs of a block's stream that wait for their totals. -/
def RBlk.waiting (b : RBlk) : Nat := (b.runs.filter fun x => !x.2).length

/-- Write transfers that a block holds reserved (R298, R301): two for each total read that is not written back, one of
them for a dump while one may come; the record and a dump header; or the 521 of a save block. -/
def RBlk.reserved (b : RBlk) : Nat :=
  match b.kind with
  | .fill => 0
  | .save => b.resv
  | _ =>
    let written := if b.kind = .flush then b.dump.elim 0 (fun d => d.rank / 4) else b.ranks / 4
    let dumps := b.action.isNone || b.action == some .replace
    if b.asked = 0 then 0
    else (if dumps then 2 else 1) * (1 + (b.asked - 1 - written))

/-- Write transfers of a rake that are buffered or reserved. -/
def Rake.wbuf (r : Rake) : Nat := r.wq.length + (r.blks.map RBlk.reserved).sum

/-- `RK_STAT` (R304). -/
def State.rkStat (s : State) (k : Nat) : Word :=
  let r := s.rk k
  word (at_ 52 (r.seq.pc % 4096) + at_ 51 (b2n r.seq.halted) + at_ 50 (b2n r.fault) + at_ 49 (b2n r.lostAll)
    + at_ 32 ((r.blks.map RBlk.waiting).sum) + at_ 8 r.wbuf
    + ((List.range 4).map fun t => r.pending t * 4 ^ t).sum)

/-- A rake's page and bank for its reports (R503). -/
def State.rakeReport (s : State) (k cls : Nat) (d1 : Word) : State :=
  s.report (0x40 + k / 8) (4 * (k % 8)) cls (s.rkStat k) d1

/-- A unit's report of refused instructions, once in a tide (R269, R504). -/
def State.seqReport (s : State) (u : SeqUnit) : State :=
  let q := s.seqOf u
  if q.badTide = some s.time.tide then s
  else
    let s := s.setSeq u { q with badTide := some s.time.tide }
    match u with
    | .pan p => s.report (panPage p) (p % 16) 0x11 (s.panStat p) (s.rd R.PAN_ERR p)
    | .feeder f => s.report (0x30 + feederIdx f) 0 0x11 (s.panStat (16 * feederIdx f)) (s.rd R.PAN_ERR (16 * feederIdx f))
    | .rake k => s.rakeReport k 0x12 (s.rd R.RK_ERR (4 * k))

/-- An illegal instruction counted and reported (R269). -/
def State.illegal (s : State) (u : SeqUnit) : State :=
  let s := match u with
    | .pan p => (s.countf R.PAN_ERR p 63 48).raise (panPage p) 0
    | .feeder f => s.feederCount f 63 48
    | .rake k => s.countf R.RK_ERR (4 * k) 63 48
  s.seqReport u

/-- A pan's `ORDER` counted (R255, R270). -/
def State.panOrder (s : State) (p : Nat) : State :=
  ((s.countf R.PAN_ERR p 31 16).raise (panPage p) 2).seqReport (.pan (Fin.ofNat 256 p))

/-- A pan's `KIND` counted (R270). -/
def State.panKind (s : State) (p : Nat) : State :=
  ((s.countf R.PAN_ERR p 47 32).raise (panPage p) 1).seqReport (.pan (Fin.ofNat 256 p))

/-- An instruction executed as `WAIT` with `N_M1` = 0 that counts in `ILLEGAL` (R269). -/
def State.illegalWait (s : State) (u : SeqUnit) : State :=
  let s := s.illegal u
  s.setSeq u ((s.seqOf u).issued 1)

/-- Whether a unit's next instruction is illegal as it stands (R269). -/
def State.currentBad (s : State) (u : SeqUnit) : Bool :=
  s.seqLive u && decide ((s.seqOf u).at_ / tideSclk ≤ s.sched.age) && (s.seqWord u (s.seqOf u).pc).any fun w => !s.seqLegal u w

/-- A `LOOP` (R265): the level loaded, and armed when its body stands. -/
def State.loopOp (s : State) (u : SeqUnit) (w : Word) : State :=
  let a := fld w 55 44
  let b := fld w 43 32
  let body := (List.range (b + 1 - a)).any fun i => (s.seqWord u (a + i)).any fun x => !isSetup u x || !s.seqLegal u x
  let ok := decide (a ≤ b) && decide (b < s.seqLen u) && body
  let l : Loop := { start := a, end_ := b, limit := fld w 19 0, iter := 0, armed := ok }
  let s := if ok then s else s.illegal u
  let q := s.seqOf u
  let q := match fld w 57 56 with
    | 0 => { q with l0 := l }
    | 1 => { q with l1 := l }
    | _ => { q with l2 := l }
  s.setSeq u q.setup

/-- The SCLK of the next issue after a `WAITAT` at `t` (R267). -/
def waitAt (t slot offset : Nat) : Nat :=
  let goal := slot * 256 + offset
  t + 1 + (goal + tideSclk - (t + 1) % tideSclk) % tideSclk

/-- A loop register as `PAN_XLOOP` shows it (R279): one that ran out has `START` above `END`, as at reset; one written so is read
back as written. -/
def Loop.word (l : Loop) : Word :=
  let open_ := !l.armed && decide (l.start ≤ l.end_)
  Machine.word (at_ 52 (if open_ then 0 else l.end_) + at_ 40 (if open_ then 0xFFF else l.start) + at_ 20 l.limit + l.iter)

/-- A loop register from its word: armed while `START` ≤ `END`. -/
def loopOf (w : Word) : Loop :=
  { start := fld w 51 40, end_ := fld w 63 52, limit := fld w 39 20, iter := fld w 19 0
    armed := decide (fld w 51 40 ≤ fld w 63 52) }

end Sys2Proof.Machine
end

