-- ==== Sys2Proof/Machine/PanBank.lean ====
section
/-! DEFINITION. The memories of a pan (spec/09): operand halves, weight sets, the two banks with their trailers, and what is on
its way to them. -/

namespace Sys2Proof.Machine

/-- An operand half that nothing has written: zero bytes, poison-marked (R274). -/
def opDflt (_ : Nat) : OpHalf := { data := poisonData, poison := true }
/-- A bank entry at reset. -/
def accDflt (_ : Nat) : AccEntry := {}
/-- A group of zero weights. -/
def wDflt (_ : Nat) : WGroup := { data := poisonData, poison := false }

/-- An operand half of a pan. -/
def Pan.half (p : Pan) (addr : Nat) (col : Bool) : OpHalf := mget opDflt p.opm (2 * addr + b2n col)

/-- The operand writes that phase A can see at `now` (R125, R128); they have no effect on a pan that is not fed (R248). -/
def Pan.settleOps (p : Pan) (fed : Bool) (now : Nat) : Pan :=
  let due := p.opq.filter fun w => decide (w.time < now)
  { p with opq := p.opq.filter fun w => decide (now ≤ w.time)
           opm := if fed then due.foldl (fun m w => mset opDflt m (2 * w.addr + b2n w.col) { data := w.data, poison := w.poison }) p.opm
                  else p.opm }

/-- Weight groups landed by `now` (R271): each in the set that is the shadow one then. -/
def Pan.settleWts (p : Pan) (now : Nat) : Pan :=
  let due := p.wland.filter fun x => decide (x.time ≤ now)
  { p with wland := p.wland.filter fun x => decide (now < x.time)
           wts := due.foldl (fun m x => mset wDflt m (128 * b2n (!p.active) + x.idx) x.w) p.wts }

/-- Whether feeder writes into a pan take effect (R248). -/
def State.feedsPan (s : State) (p : Nat) : Bool :=
  !(s.pn p).preempted && s.image.any fun m => (progSect m tyPan p).isSome

/-- A pan's operand and weight memories brought up to `now`. -/
def State.opsTo (s : State) (p now : Nat) : State :=
  s.setPn p (((s.pn p).settleOps (s.feedsPan p) now).settleWts now)

/-- Every listed pan's operand memory brought up to now: what has been written stands whatever becomes of the pan. -/
def State.opsNow (s : State) : State := (s.pans.pan.map (·.1)).foldl (fun s p => s.opsTo p s.imgNow) s

/-- A number as an int32 holds it, and whether it lies outside (R253). -/
def int32 (v : Int) : Int × Bool := (int2c 32 (v % 2 ^ 32).toNat, !(decide (-2 ^ 31 ≤ v) && decide (v < 2 ^ 31)))

/-- An increment taken into an entry (R253): the entry, and whether its `WRAP` set now. -/
def AccEntry.add (e : AccEntry) (x : Int × Int) : AccEntry × Bool :=
  let a := int32 (e.re + x.1)
  let b := int32 (e.im + x.2)
  ({ re := a.1, im := b.1, wrap := e.wrap || a.2 || b.2 }, (a.2 || b.2) && !e.wrap)

/-- Increments of one entry summed. -/
def sumIncs (xs : List (Nat × Int × Int)) : Map (Int × Int) :=
  xs.foldl (fun m x =>
    let o := mget (fun _ => ((0, 0) : Int × Int)) m x.1
    mset (fun _ => ((0, 0) : Int × Int)) m x.1 (o.1 + x.2.1, o.2 + x.2.2)) []

/-- A bank's trailer of a pan. -/
def Pan.trailer (p : Pan) (b : Bool) : Trailer := if b then p.tr1 else p.tr0
/-- A bank's trailer, written. -/
def Pan.setTrailer (p : Pan) (b : Bool) (t : Trailer) : Pan := if b then { p with tr1 := t } else { p with tr0 := t }

/-- One group of increments landed in a bank; how many entries' `WRAP` set. -/
def Pan.landIncs (p : Pan) (bank : Bool) (xs : List (Nat × Int × Int)) : Pan × Nat :=
  (sumIncs xs).foldl (fun (a : Pan × Nat) x =>
    let key := 4096 * b2n bank + x.1
    let (e, w) := (mget accDflt a.1.acc key).add x.2
    ({ a.1 with acc := mset accDflt a.1.acc key e }, a.2 + b2n w)) (p, 0)

/-- What a set of increments says of its steps, taken into the gap latch and the bank's trailer (R257, R315). -/
def Pan.landMarks (p : Pan) (x : IncSet) : Pan :=
  let tr := p.trailer x.bank
  { p.setTrailer x.bank { tr with poison := tr.poison || x.poison, zrow := tr.zrow ||| x.zrow } with gap := p.gap || x.gap }

/-- The earliest of the increments visible by `now`. -/
def Pan.firstInc (p : Pan) (now : Nat) : Option IncSet :=
  (p.incs.filter fun x => decide (x.time ≤ now)).foldl (fun (m : Option IncSet) x => match m with
    | some y => if x.time < y.time then some x else some y
    | none => some x) none

/-- The increments visible by `now`, in order, with all that land in their bank in the same SCLK summed (R126). -/
def Pan.settleIncs (now : Nat) : Nat → Pan → Nat → Pan × Nat
  | 0, p, n => (p, n)
  | fuel + 1, p, n =>
    match p.firstInc now with
    | none => (p, n)
    | some x =>
      let same (y : IncSet) : Bool := y.time == x.time && y.bank == x.bank
      let sets : List IncSet := p.incs.filter same
      let rest : Pan := { p with incs := p.incs.filter fun y => !same y }
      let (q, w) := (sets.foldl Pan.landMarks rest).landIncs x.bank (sets.map fun y => y.incs).flatten
      Pan.settleIncs now fuel q (n + w)

/-- `WRAPS` and its event (R278, R279). -/
def State.countWraps (s : State) (p n : Nat) : State :=
  if n = 0 then s else (s.countf R.PAN_ERR p 15 0 n).raise (panPage p) 6

/-- A pan's banks brought up to `now`. -/
def State.incsTo (s : State) (p now : Nat) : State :=
  let (v, w) := Pan.settleIncs now ((s.pn p).incs.length + 1) (s.pn p) 0
  (s.setPn p v).countWraps p w

/-- The part of a trailer that entry `e` of a bank is (R257), taken from another. -/
def Trailer.part (old new : Trailer) (e : Nat) : Trailer :=
  if e = 4096 then { old with poison := new.poison, steps := new.steps, gsteps := new.gsteps }
  else if e = 4097 then { old with zrow := new.zrow }
  else { old with zcol := new.zcol }

/-- Entry `e` of a bank, put in place: a short run, or a part of the trailer. -/
def Pan.putEntry (p : Pan) (bank : Bool) (e : Nat) (x : AccEntry) (t : Trailer) : Pan :=
  if e < 4096 then { p with acc := mset accDflt p.acc (4096 * b2n bank + e) x }
  else p.setTrailer bank ((p.trailer bank).part t e)

/-- Entry `e` of a bank leaves for the rake: it is cleared (R253). -/
def State.leave (s : State) (p : Nat) (bank : Bool) (e : Nat) : State × AccEntry × Trailer :=
  let v := s.pn p
  (s.setPn p (v.putEntry bank e {} {}), mget accDflt v.acc (4096 * b2n bank + e), v.trailer bank)

/-- An entry of a stream taken into its block. -/
def Intake.put (i : Intake) (e : Nat) (x : AccEntry) (t : Trailer) : Intake :=
  if e < 4096 then { i with entries := mset accDflt i.entries e x } else { i with trailer := i.trailer.part t e }

/-- A step with `CNT` = 1 into a bank (R257). -/
def Pan.countStep (p : Pan) (b : Bool) : Pan :=
  let t := p.trailer b
  let t := { t with steps := (t.steps + 1) % 2 ^ 28, gsteps := (t.gsteps + b2n p.gap) % 2 ^ 28 }
  { p.setTrailer b t with gap := false }

/-- The latest SCLK at which a step's result is visible, raised. -/
def Pan.sees (p : Pan) (bank : Bool) (t : Nat) : Pan :=
  if bank then { p with visible1 := max p.visible1 t } else { p with visible0 := max p.visible0 t }

/-- A step issued into a bank, its result visible at `t` (the bank timer, R138, R271): a stream that takes the bank's entries, or
a fill that restores them, before then breaches. -/
def State.intoBank (s : State) (p : Nat) (bank : Bool) (t : Nat) : State :=
  let r := s.rk (p / 4)
  let hit (x : Nat × Stream) : Bool := x.1 == p % 4 && x.2.bank == some bank && !x.2.early && decide (x.2.first < 2 * t)
  let s := s.setPn p ((s.pn p).sees bank t)
  let s := if r.streams.any hit then
      let ids := r.streams.filterMap fun x => if hit x then x.2.blk else none
      let mark (b : RBlk) : RBlk := if ids.contains b.id then { b with stream := b.stream.map fun i => { i with early := true } } else b
      (s.setRk (p / 4) { r with streams := r.streams.map fun x => if hit x then (x.1, { x.2 with early := true }) else x
                                blks := r.blks.map mark }).breach R.BR_BANK 3 p
    else s
  match (s.pn p).fill with
  | some f =>
    if f.bank = bank ∧ f.early = false then (s.setPn p { s.pn p with fill := some { f with early := true } }).breach R.BR_BANK 3 p
    else s
  | none => s

end Sys2Proof.Machine
end

