-- ==== Sys2Proof/Machine/RakeOps.lean ====
section
/-! DEFINITION. The rakes (spec/10): bindings, arriving streams, promotion, count records, dumps, saves and fills. -/

namespace Sys2Proof.Machine

/-- The word at place i of a rake register (R300). -/
def ringPlace (base ptr span i : Nat) : Nat := base + (if span = 0 then 0 else (ptr + i) % span)

/-- A rake address register at image start. -/
def rregDflt (_ : Nat) : RReg := {}

/-- A of supertile σ (R258). -/
def superA (sigma : Nat) : Nat := ((List.range 4).filter fun a => a * (a + 1) / 2 ≤ sigma).length - 1

/-- The useful entries of pan p under a supertile code: rows, columns, and whether only j ≤ i count (R282). -/
def State.usefulShape (s : State) (p sigma : Nat) : Nat × Nat × Bool :=
  if sigma = 15 then (64, 64, false)
  else
    let n := s.image.elim 0 fun m => fld (budget m 0) 63 48
    let a := superA sigma
    let b := sigma - a * (a + 1) / 2
    let r := p / 16
    let c := p % 16
    let nr := min 64 (n - 1024 * a - 64 * r)
    let nc := min 64 (n - 1024 * b - 64 * c)
    if b < a ∨ c < r then (nr, nc, false) else if r = c then (nr, nc, true) else (0, 0, false)

/-- U of a shape (R282). -/
def usefulCount (nr nc : Nat) (tri : Bool) : Nat := if tri then nr * (nr + 1) / 2 else nr * nc

/-- Whether entry e is useful in a block. -/
def RBlk.useful (b : RBlk) (e : Nat) : Bool :=
  decide (e < 4096) && decide (e / 64 < b.nr) && decide (e % 64 < b.nc) && (!b.tri || decide (e % 64 ≤ e / 64))

/-- When entry e of a stream arrives, in half SCLK (R271, R280): one entry per HCLK. -/
def Stream.arrival (st : Stream) (e : Nat) : Nat := st.first + 3 * e

/-- The accumulation generation (R290). -/
def State.accGen (s : State) : Nat := s.rdf R.ACC_GEN 0 31 0

/-- What the running image says of accumulation now. -/
def State.accSet (s : State) : AccSet :=
  let m := s.image.getD []
  { gen := s.accGen, i := budI m, p := budP m, d := budD m, cfg := s.rd R.ACC_CFG 0, stagger := s.rdf R.ACC_STAGGER 0 31 0
    stokes := s.rdf R.ACC_STOKES 0 1 0 }

/-- The integration of a short run of context q with stream tide n (R288), as its 32-bit field. -/
def AccSet.integration (a : AccSet) (q n : Nat) : Nat :=
  let delta := q * a.stagger / fld a.cfg 20 0
  field2c 32 (((n : Int) - a.p - delta) / (a.i : Int))

/-- Whether a dump of a record that falls now is late (R291). -/
def State.dumpLate (s : State) (a : AccSet) (recd : List Word) : Bool :=
  if fld (recd.getD 3 0) 63 32 = s.time.epoch then
    decide ((a.p : Int) + (sfld (recd.getD 3 0) 31 0 + 1) * a.i + a.d ≤ s.time.tide)
  else decide (a.d ≤ s.time.tide)

/-- The words of a 64-byte transfer. -/
def xferWords (bs : List Byte) : List Word := bytesWords 8 bs
/-- The bytes of words. -/
def wordsXfer (ws : List Word) : List Byte := (ws.map fun w => leBytes 8 w.toNat).flatten
/-- +∞ in binary64. -/
def infWord : Word := 0x7FF0000000000000#64

/-- The total of rank r that a block has read: both components, or none while it has not come; a poisoned or infinite
one, or a NaN pattern, is `some none` (R285 row 2, R293). -/
def RBlk.total (b : RBlk) (r : Nat) : Option (Option (Word × Word)) :=
  (pget b.got (1 + r / 4)).map fun g =>
    let x := word (leNat ((g.data.drop (16 * (r % 4))).take 8))
    let y := word (leNat ((g.data.drop (16 * (r % 4) + 8)).take 8))
    if g.poison || !(of64 x).finite || !(of64 y).finite then none else some (x, y)

/-- Whether the total of rank r was read as poison (R238). -/
def RBlk.totalPoison (b : RBlk) (r : Nat) : Bool := (pget b.got (1 + r / 4)).any (·.poison)

/-- Whether a binary64 word is −0. -/
def negZero (w : Word) : Bool := w == 0x8000000000000000#64

/-- A component after the division of R297. -/
def meanOf (mean : Bool) (steps : Nat) (w : Word) : Word :=
  if !mean then w
  else if steps = 0 then 0
  else if negZero w then w
  else word64 (to64 ((of64 w).dy.div (Dy.ofInt steps)))

/-- A component as binary32, or none above its maximum. -/
def asSingle (w : Word) : Option Nat :=
  if negZero w then some (2 ^ 31)
  else match to32 (of64 w).dy with
    | .fin x => some (word32 (.fin x))
    | _ => none

/-- A component as scaled int32 with a saturation flag (R296). -/
def asScaled (scale : Nat) (w : Word) : Int × Bool :=
  let v := ((of64 w).dy.scale (-(scale : Int))).round
  (clampI (-(2 ^ 31 - 1)) (2 ^ 31 - 1) v, decide (2 ^ 31 - 1 < v.natAbs))

/-- An infinite value of a format (R296). -/
def infValue (fmt : Nat) : List Byte :=
  match fmt with
  | 0 => leBytes 8 infWord.toNat ++ leBytes 8 infWord.toNat
  | 1 => leBytes 4 0x7F800000 ++ leBytes 4 0x7F800000
  | _ => leBytes 4 0x80000000 ++ leBytes 4 0x80000000

/-- A value as a dump writes it: bytes, whether it is infinite, saturated components (R296). -/
def dumpValue (fmt scale : Nat) (v : Option (Word × Word)) : List Byte × Bool × Nat :=
  match v with
  | none => (infValue fmt, true, 0)
  | some (x, y) =>
    match fmt with
    | 0 => (leBytes 8 x.toNat ++ leBytes 8 y.toNat, false, 0)
    | 1 =>
      match asSingle x, asSingle y with
      | some a, some b => (leBytes 4 a ++ leBytes 4 b, false, 0)
      | _, _ => (infValue 1, true, 0)
    | _ =>
      let a := asScaled scale x
      let b := asScaled scale y
      (leBytes 4 (field2c 32 a.1) ++ leBytes 4 (field2c 32 b.1), false, b2n a.2 + b2n b.2)

/-- Counts of a rake's work on a block. -/
structure Tally where
  promoted : Nat := 0
  inf : Nat := 0
  wrapInf : Nat := 0
  sat : Nat := 0
  deriving DecidableEq, Repr

/-- A rake's counters raised. -/
def State.tally (s : State) (k : Nat) (t : Tally) : State :=
  let s := if t.promoted = 0 then s else s.count R.RK_PROMOTED (4 * k) t.promoted
  let s := if t.inf = 0 then s else s.count R.RK_INF (4 * k) t.inf
  let s := if t.wrapInf = 0 then s else s.count R.RK_WRAP_INF (4 * k) t.wrapInf
  if t.sat = 0 then s else s.count R.DUMP_SAT (4 * k) t.sat

/-- The settings under which a rake works on a block: `ACC_CFG`, `STOKES`, the pan, `LOSTALL`, the generation, and the
conditions of R12 that its record gains. -/
structure DumpCfg where
  cfg : Word
  stokes : Nat
  pan : Nat
  lost : Bool
  gen : Nat
  cond : Nat
  deriving DecidableEq, Repr

/-- Bytes per dumped value. -/
def DumpCfg.size (c : DumpCfg) : Nat := if fld c.cfg 43 40 = 0 then 16 else 8

/-- A dump block's transfers (R294): header and values. -/
def dumpLen (c : DumpCfg) (u : Nat) : Nat := 1 + (u * c.size + 63) / 64

/-- A stored total taken into a dump (R238, R293, R296, R297). -/
def Dump.push (c : DumpCfg) (recd : List Word) (d : Dump) (v : Option (Word × Word)) (poison : Bool) : Dump × Nat :=
  let w0 := recd.getD 0 0
  let mean := bit c.cfg 44
  let steps := fld w0 30 0
  let v := if bit (recd.getD 6 0) 4 then none else v
  let v := if mean ∧ bit w0 31 = true ∧ steps ≠ 0 then none else v
  let (bs, inf, sat) := dumpValue (fld c.cfg 43 40) (fld c.cfg 55 48)
    (v.map fun x => (meanOf mean steps x.1, meanOf mean steps x.2))
  ({ d with rank := d.rank + 1, bytes := d.bytes ++ bs, inf := d.inf || inf
            gap := d.gap || (mean && steps == 0 && v.isSome), poison := d.poison || poison }, sat)

/-- Word 6 of a dump header (R295). -/
def dumpWord6 (c : DumpCfg) (b : RBlk) (d : Dump) : Word :=
  let w0 := b.recd.getD 0 0
  let w6 := b.recd.getD 6 0
  word (at_ 60 (fld c.cfg 43 40) + at_ 59 (fld c.cfg 44 44) + at_ 55 (b2n d.inf) + at_ 54 (b2n (bit w0 63 || d.poison))
    + at_ 53 (b2n (d.gap || fld w0 62 32 != 0)) + at_ 52 (b2n d.late) + at_ 51 (fld w6 2 2) + at_ 50 (fld w6 1 1)
    + at_ 49 (fld w6 0 0) + at_ 44 b.sigma + at_ 36 c.pan + at_ 16 b.q + b.u)

/-- A dump's whole transfers moved to the write buffer, and after the last value the rest and the header (R294). -/
def Dump.flush (c : DumpCfg) (b : RBlk) (h : Nat) : Nat → Dump → Dump × List RWrite
  | 0, d => (d, [])
  | fuel + 1, d =>
    if d.bytes.length < 64 then
      if d.rank < b.u ∨ d.next = dumpLen c b.u then (d, [])
      else
        let len := dumpLen c b.u
        let tail := if d.bytes.isEmpty then []
          else [{ addr := ringPlace d.base d.ptr d.span (1 + d.next) * 64
                  data := d.bytes ++ List.replicate (64 - d.bytes.length) 0, header := none, ready := h : RWrite }]
        let hdr := (b.recd.take 6) ++ [dumpWord6 c b d, b.recd.getD 7 0]
        ({ d with bytes := [], next := len },
         tail ++ [{ addr := ringPlace d.base d.ptr d.span 0 * 64, data := wordsXfer hdr, header := some (64 * len), ready := h }])
    else
      let w : RWrite := { addr := ringPlace d.base d.ptr d.span (1 + d.next) * 64, data := d.bytes.take 64, header := none
                          ready := h }
      let (d, ws) := Dump.flush c b h fuel { d with bytes := d.bytes.drop 64, next := d.next + 1 }
      (d, w :: ws)

/-- A block's own transfer (R283). -/
def RBlk.place (b : RBlk) (i : Nat) : Nat := ringPlace b.base b.ptr b.span i * 64

/-- The new total of a short run (R285): by the first row that applies. -/
def newTotal (act : RecAction) (lost : Bool) (e : AccEntry) (old : Option (Word × Word)) : Word × Word :=
  if e.wrap || lost then (infWord, infWord)
  else match old with
    | none => (infWord, infWord)
    | some (x, y) =>
      match act with
      | .add => (word64 (to64 ((of64 x).dy.add (Dy.ofInt e.re))), word64 (to64 ((of64 y).dy.add (Dy.ofInt e.im))))
      | _ => (word64 (to64 (Dy.ofInt e.re)), word64 (to64 (Dy.ofInt e.im)))

/-- Two binary64 components combined, each sum rounded (R321). -/
def stokesPair (kind : Nat) (odd : Bool) (xx yy re im : Word) : Word × Word :=
  let d (w : Word) : Dy := (of64 w).dy
  let r (x : Dy) : Word := word64 (to64 x)
  let i := r ((d xx).add (d yy))
  if kind = 2 then (if odd then (0, 0) else (i, 0))
  else if odd then (r ((d re).scale 1), r (((d im).scale 1).neg))
  else (i, r ((d xx).sub (d yy)))

/-- A value that holds no infinite component (R293). -/
def finitePair (v : Word × Word) : Option (Word × Word) := if (of64 v.1).finite && (of64 v.2).finite then some v else none

/-- The stored value that a dump takes at a rank (R293, R294, R321): the total, or for a detected-beam block the Stokes value
of its pair of ranks, infinite in both where either is; none while what it needs has not come. The flag says that a total
was read as poison (R238). -/
def RBlk.dumpInput (c : DumpCfg) (b : RBlk) (r : Nat) : Option (Option (Word × Word) × Bool) :=
  if b.sigma = 15 ∧ (c.stokes = 1 ∨ c.stokes = 2) then
    let odd := r / 64 % 2 == 1
    let lo := if odd then r - 64 else r
    let poison := b.totalPoison lo || b.totalPoison (lo + 64)
    match b.total lo, b.total (lo + 64) with
    | some (some e), some (some f) =>
      let v (odd : Bool) := finitePair (stokesPair c.stokes odd e.1 e.2 f.1 f.2)
      some (if (v (!odd)).isSome then v odd else none, poison)
    | some _, some _ => some (none, poison)
    | _, _ => none
  else (b.total r).map fun v => (v, b.totalPoison r)

/-- A dump's values taken from the totals of a block that have come. -/
def RBlk.dumpUpTo (c : DumpCfg) : Nat → RBlk → Tally → RBlk × Tally
  | 0, b, t => (b, t)
  | fuel + 1, b, t =>
    match b.dump with
    | none => (b, t)
    | some d =>
      if b.u ≤ d.rank then (b, t)
      else
        match b.dumpInput c d.rank with
        | none => (b, t)
        | some (v, poison) =>
          let (d, sat) := d.push c b.recd v poison
          RBlk.dumpUpTo c fuel { b with dump := some d } { t with sat := t.sat + sat }

/-- One promotion (R130, R285), when the block's action is known and its next short run's total has come: at `h`, in half SCLK,
and 5 HCLK later the result is there. -/
def RBlk.promote (c : DumpCfg) (h : Nat) : Nat → RBlk → Tally → List RWrite → RBlk × Tally × List RWrite
  | 0, b, t, ws => (b, t, ws)
  | fuel + 1, b, t, ws =>
    match b.stream, b.action, b.runs, b.total b.ranks with
    | some st, some act, (e, lost) :: runs, some old =>
      let x := mget accDflt st.entries e
      let (p, q) := newTotal act (lost || st.early) x old
      let inf := p == infWord || q == infWord || !(of64 p).finite || !(of64 q).finite
      let out := b.out ++ leBytes 8 p.toNat ++ leBytes 8 q.toNat
      let full := decide (64 ≤ out.length)
      let w : RWrite := { addr := b.place (1 + b.ranks / 4), data := out, header := none, ready := h + 15 }
      let b := { b with runs := runs, ranks := b.ranks + 1, out := if full then [] else out, inf := b.inf || inf
                        totPoison := b.totPoison || b.totalPoison b.ranks }
      RBlk.promote c h fuel b
        { t with promoted := t.promoted + 1, inf := t.inf + b2n inf, wrapInf := t.wrapInf + b2n x.wrap }
        (if full then w :: ws else ws)
    | _, _, _, _ => (b, t, ws)

/-- A record's word 0 with a trailer taken in (R284, R287). -/
def recWord0 (old : Word) (tr : Trailer) : Word :=
  let g := fld old 62 32 + tr.gsteps
  let n := fld old 30 0 + tr.steps
  let m := 2 ^ 31 - 1
  word (at_ 63 (b2n (bit old 63 || tr.poison)) + at_ 32 (min g m)
    + at_ 31 (b2n (bit old 31 || decide (m < g) || decide (m < n))) + min n m)

/-- The record that a block's stream leaves (R238, R287, R289). -/
def RBlk.newRecord (c : DumpCfg) (b : RBlk) (st : Intake) : List Word :=
  let add := b.action == some .add
  let o (i : Nat) : Word := if add then b.recd.getD i 0 else 0
  let w0 := if b.recPoison then ~~~(0 : Word) else recWord0 (o 0) { st.trailer with poison := st.trailer.poison || b.totPoison }
  let w6 := fld (o 6) 3 0 ||| c.cond ||| (if b.inf then 8 else 0) ||| (if c.lost then 16 else 0)
  [w0, word (fld (o 1) 63 0 ||| st.trailer.zrow), word (fld (o 2) 63 0 ||| st.trailer.zcol),
   if add then o 3 else word (at_ 32 st.epoch + b.set.integration b.q st.tide), if add then o 4 else word st.tide, word st.tide, word w6,
   if add then o 7 else word (at_ 32 c.gen)]

/-- The settings under which a rake works on a block now. -/
def State.dumpCfg (s : State) (k : Nat) (b : RBlk) : DumpCfg :=
  { cfg := b.set.cfg, stokes := b.set.stokes, pan := 4 * k + b.port, lost := (s.rk k).lostAll, gen := b.set.gen
    cond := match b.stream with
      | some st =>
        let last : Int := if b.action = some .add then (b.recd.getD 5 0).toNat else (st.tide : Int) - 1
        s.heldIn last st.tide
      | none => 0 }

/-- A rake's block, written back, or removed. -/
def State.setBlk (s : State) (k id : Nat) (b : Option RBlk) : State :=
  let r := s.rk k
  s.setRk k { r with blks := r.blks.filterMap fun x => if x.id = id then b else some x }

/-- Transfers put into a rake's write buffer. -/
def State.pushW (s : State) (k : Nat) (ws : List RWrite) : State :=
  let r := s.rk k
  s.setRk k { r with wq := r.wq ++ ws }

/-- A dump started (R291, R294): the block takes the dump ring's position. -/
def State.startDump (s : State) (k : Nat) (b : RBlk) (recd : List Word) : State × Dump :=
  let r := s.rk k
  let g := mget rregDflt r.regs 7
  let (i, s) := if g.span = 0 then s.fresh else (0, s)
  let base := if g.span = 0 then (Config.dumpPlace i).toNat else g.base
  let late := s.dumpLate b.set recd
  let len := dumpLen (s.dumpCfg k b) b.u
  let s := s.setRk k { r with regs := mset rregDflt r.regs 7 { g with ptr := (g.ptr + len) % 2 ^ 33 } }
  let s := s.wr R.RK_DUMP_PTR (4 * k) (word ((g.ptr + len) % 2 ^ 33))
  let s := if late then s.countf R.RK_ERR (4 * k) 15 0 else s
  (s, { base := base, ptr := g.ptr, span := if g.span = 0 then 2 ^ 33 else g.span, rank := 0, next := 0, bytes := []
        inf := false, gap := false, late := late, poison := false })

/-- A promote block's action decided when its record and its stream have come (R289). -/
def State.decideBlk (s : State) (k : Nat) (b : RBlk) : State × RBlk :=
  match b.action, b.stream, pget b.got 0 with
  | none, some st, some g =>
    let recd := if g.poison then List.replicate 8 0 else xferWords g.data
    let here := word (at_ 32 st.epoch + b.set.integration b.q st.tide)
    if fld (recd.getD 7 0) 63 32 ≠ b.set.gen ∨ g.poison = true then
      (s, { b with action := some .void, recd := recd, recPoison := g.poison })
    else if recd.getD 3 0 = here then (s, { b with action := some .add, recd := recd })
    else
      let (s, d) := s.startDump k b recd
      (s, { b with action := some .replace, recd := recd, dump := some d })
  | _, _, _ => (s, b)

/-- A block's dump bytes moved on. -/
def RBlk.flushDump (c : DumpCfg) (b : RBlk) (h : Nat) : RBlk × List RWrite :=
  match b.dump with
  | none => (b, [])
  | some d =>
    let (d, ws) := Dump.flush c b h 70000 d
    ({ b with dump := some d }, ws)

/-- A promote block carried as far as what has come allows, and finished when its stream has ended and every short run
has met its total (R285, R287). -/
def State.workPromote (s : State) (k : Nat) (b : RBlk) (h : Nat) : State :=
  let (s, b) := s.decideBlk k b
  let c := s.dumpCfg k b
  let (b, t) := RBlk.dumpUpTo c b.u b {}
  let (b, t, ws) := RBlk.promote c h (b.runs.length + 1) b t []
  let (b, ds) := b.flushDump c h
  let s := (s.tally k t).pushW k (ws.reverse ++ ds)
  if b.ended ∧ b.runs = [] then
    match b.stream with
    | some st =>
      if b.z = 0 then s.setBlk k b.id none
      else if b.action.isNone then s.setBlk k b.id (some b)
      else
        let last : List RWrite := if b.out.isEmpty then []
          else [{ addr := b.place (1 + b.ranks / 4), data := b.out ++ List.replicate (64 - b.out.length) 0, header := none
                  ready := h + 15 }]
        let recd := b.newRecord c st
        (s.pushW k (last ++ [{ addr := b.place 0, data := wordsXfer recd, header := none, ready := h + 15 }])).setBlk k b.id none
    | none => s.setBlk k b.id (some b)
  else s.setBlk k b.id (some b)

/-- A flush block carried on (R292): a current record's integration is dumped, then the record is written with `GEN`
= 0; any other record is left as it is. -/
def State.workFlush (s : State) (k : Nat) (b : RBlk) (h : Nat) : State :=
  let (s, b) := match b.action, pget b.got 0 with
    | none, some g =>
      let recd := xferWords g.data
      if fld (recd.getD 7 0) 63 32 = b.set.gen ∧ g.poison = false then
        let (s, d) := s.startDump k b recd
        let f : Nat × Int := (fld (recd.getD 3 0) 63 32, sfld (recd.getD 3 0) 31 0)
        let s : State := { s with sched := { s.sched with flushed := f :: s.sched.flushed.filter (· ≠ f) } }
        (s, { b with action := some RecAction.replace, recd := recd, dump := some d })
      else (s, { b with action := some RecAction.void })
    | _, _ => (s, b)
  if b.action = some .void then s.setBlk k b.id none
  else
    let c := s.dumpCfg k b
    let (b, t) := RBlk.dumpUpTo c b.u b {}
    let (b, ds) := b.flushDump c h
    let s := (s.tally k t).pushW k ds
    if (b.dump.any fun d => d.rank == b.u) then
      let w6 := setFld (b.recd.getD 6 0) 4 4 (b2n (c.lost || bit (b.recd.getD 6 0) 4))
      let recd := (b.recd.take 6) ++ [w6, setFld (b.recd.getD 7 0) 63 32 0]
      (s.pushW k [{ addr := b.place 0, data := wordsXfer recd, header := none, ready := h }]).setBlk k b.id none
    else s.setBlk k b.id (some b)

/-- The save block of a bank (R298). -/
def saveBlock (st : Intake) : List (List Byte) :=
  let x (e : Nat) : AccEntry := mget accDflt st.entries e
  let tr := st.trailer
  let w0 := word (at_ 63 (b2n tr.poison) + at_ 28 tr.steps + tr.gsteps)
  let t0 := wordsXfer [w0, word tr.zrow, word tr.zcol, 1, word st.tide, 0, 0, 0]
  let wrapByte (i : Nat) : Byte := BitVec.ofNat 8 ((List.range 8).map fun b => b2n ((x (8 * i + b)).wrap || st.early) * 2 ^ b).sum
  let wraps := (List.range 8).map fun i => (List.range 64).map fun j => wrapByte (64 * i + j)
  let ents := (List.range 512).map fun i => ((List.range 8).map fun j =>
    leBytes 4 (field2c 32 (x (8 * i + j)).re) ++ leBytes 4 (field2c 32 (x (8 * i + j)).im)).flatten
  t0 :: (wraps ++ ents)

/-- A finished save block's transfers put into the write buffer: all of it, or transfer 0 with `VALID` = 0 when they
could not be reserved (R298). -/
def State.workSave (s : State) (k : Nat) (b : RBlk) (h : Nat) : State :=
  match b.ended, b.stream with
  | true, some st =>
    let ws := if b.resv = 0 then [wordsXfer [0, 0, 0, 0, word st.tide, 0, 0, 0]] else saveBlock st
    let xs := (ws.zipIdx).map fun x => ({ addr := b.place x.2, data := x.1, header := none, ready := h } : RWrite)
    (s.setBlk k b.id none).pushW k xs
  | _, _ => s

/-- A block carried on at `h`, in half SCLK. -/
def State.workBlk (s : State) (k id h : Nat) : State :=
  match (s.rk k).blks.find? fun b => b.id = id with
  | none => s
  | some b =>
    match b.kind with
    | .promote => s.workPromote k b h
    | .flush => s.workFlush k b h
    | .save => s.workSave k b h
    | .fill => s

/-- `NOBIND` counted (R299, R302). -/
def State.noBind (s : State) (k : Nat) : State := s.countf R.RK_ERR (4 * k) 47 32

/-- A discarded stream: counted, reported, `LOSTALL` set (R302). -/
def State.discardStream (s : State) (k : Nat) : State :=
  let s := s.noBind k
  let s := s.setRk k { s.rk k with lostAll := true }
  s.rakeReport k 0x12 (s.rd R.RK_ERR (4 * k))

/-- A stream's entry 0 arrives (R280, R301, R302): it meets the port's next promote or save binding, whose block is named. A
rake in `FAULT` discards it. -/
def State.meetStream (s : State) (k port : Nat) (st : Stream) : State × Option Nat :=
  let r := s.rk k
  let b := r.blks.find? fun b => b.port = port ∧ b.taken = false ∧ (b.kind = .promote ∨ b.kind = .save)
  match b with
  | none => (if r.fault then s else s.discardStream k, none)
  | some b =>
    if r.fault then (s.setBlk k b.id none, none)
    else if (b.kind == .save) ≠ st.save then ((s.setBlk k b.id none).discardStream k, none)
    else
      let room := decide (r.wbuf + 521 ≤ 2048)
      let i : Intake := { save := st.save, tide := (s.arr (st.first / 2) / tideSclk).toNat, epoch := s.time.epoch, early := st.early }
      (s.setBlk k b.id (some { b with taken := true, stream := some i, resv := if st.save ∧ room = true then 521 else 0 }), some b.id)

/-- The stream of a rake whose next entry arrives first, and when in half SCLK. -/
def Rake.nextStream (r : Rake) : Option (Nat × Nat × Stream) :=
  (r.streams.map fun x => (x.2.arrival x.2.next, x.1, x.2)).foldl (fun (m : Option (Nat × Nat × Stream)) x =>
    match m with
    | none => some x
    | some y => if x.1 < y.1 ∨ (x.1 = y.1 ∧ x.2.1 < y.2.1) then some x else some y) none

/-- An entry of a stream comes to its block (R280, R302): a useful short run waits for its total, or finds 1,024 waiting and is
lost. -/
def State.arrive (s : State) (k id e : Nat) (x : AccEntry) (t : Trailer) (h : Nat) : State :=
  match (s.rk k).blks.find? fun b => b.id = id with
  | none => s
  | some b =>
    let b := { b with arrived := e + 1, ended := decide (4098 ≤ e), stream := b.stream.map fun i => i.put e x t }
    if b.kind = .promote ∧ b.useful e = true then
      let full := decide (1024 ≤ ((s.rk k).blks.map RBlk.waiting).sum)
      let s := if full then s.breach R.BR_RAKE 4 k else s
      (s.setBlk k id (some { b with runs := b.runs ++ [(e, full)] })).workBlk k id h
    else
      let s := s.setBlk k id (some b)
      if b.ended then s.workBlk k id h else s

/-- The next entry of a stream leaves its bank and reaches the rake at `h` (R253, R280); one of no bank is poison (R271). -/
def State.streamStep (s : State) (k h port : Nat) (st : Stream) : State :=
  let e := st.next
  let r := s.rk k
  let s := s.setRk k { r with streams := r.streams.erase (port, st) }
  let (s, blk) := if e = 0 then s.meetStream k port st else (s, st.blk)
  let s := if 4098 ≤ e then s
    else s.setRk k { s.rk k with streams := (port, { st with next := e + 1, blk := blk }) :: (s.rk k).streams }
  let (s, x, t) : State × AccEntry × Trailer := match st.bank with
    | some b => s.leave (4 * k + port) b e
    | none => (s, {}, { poison := true })
  match blk with
  | some id => s.arrive k id e x t h
  | none => s

/-- Read data that come to a rake (R122, R301). -/
def State.rakeTake (s : State) (k : Nat) (x : RLand) : State :=
  let r := s.rk k
  let s := s.setRk k { r with land := r.land.erase x }
  match (s.rk k).blks.find? fun b => b.id = x.blk with
  | none => s
  | some b =>
    let g : RGot := { data := x.data, poison := x.poison, time := x.time }
    (s.setBlk k x.blk (some { b with got := pset b.got x.idx (some g) })).workBlk k x.blk x.time

/-- The read data that come to a rake first. -/
def Rake.nextLand (r : Rake) : Option RLand :=
  r.land.foldl (fun (m : Option RLand) x => match m with
    | none => some x
    | some y => if x.time < y.time then some x else some y) none

/-- When a rake's next event comes, in half SCLK: read data, or an entry of a stream. -/
def Rake.nextTime (r : Rake) : Option Nat :=
  match r.nextLand, r.nextStream with
  | some x, some y => some (min x.time y.1)
  | some x, none => some x.time
  | none, some y => some y.1
  | none, none => none

/-- What comes to a rake up to a time in half SCLK, in order; read data before an entry of the same time. -/
def State.arrivals (s : State) (k h : Nat) : Nat → State
  | 0 => s
  | fuel + 1 =>
    match (s.rk k).nextLand, (s.rk k).nextStream with
    | none, none => s
    | some x, none => if x.time ≤ h then (s.rakeTake k x).arrivals k h fuel else s
    | none, some (t, port, st) => if t ≤ h then (s.streamStep k t port st).arrivals k h fuel else s
    | some x, some (t, port, st) =>
      if x.time ≤ t then (if x.time ≤ h then (s.rakeTake k x).arrivals k h fuel else s)
      else if t ≤ h then (s.streamStep k t port st).arrivals k h fuel
      else s

/-- A rake brought up to a time in half SCLK. -/
def State.rakeTo (s : State) (k h : Nat) : State := s.arrivals k h (2 ^ 20)

/-- A rake brought up to now: what comes within the SCLK in progress has come. -/
def State.rakeNow (s : State) (k : Nat) : State := s.rakeTo k (2 * s.imgNow + 1)

/-- A transfer read for a block (R122, R301): it comes at `h`, in half SCLK. -/
def State.rakeGot (s : State) (k id idx h : Nat) (data : List Byte) (poison : Bool) : State :=
  let r := s.rk k
  s.setRk k { r with land := r.land ++ [{ time := h, blk := id, idx := idx, data := data, poison := poison }] }

/-- `FAULT` (R302): the read queue and the work on streams are given up. -/
def State.rakeFault (s : State) (k : Nat) : State :=
  let r := s.rk k
  let s := s.setRk k { r with fault := true, lostAll := true, rq := []
                              blks := r.blks.filter fun b => b.stream.isNone && b.kind != .flush }
  s.rakeReport k 0x13 0

/-- A binding that `RBIND` makes (R282, R283, R292, R298, R299): its block, with its reads queued. -/
def State.bindBlk (s : State) (k : Nat) (w : Word) : State :=
  let r := s.rk k
  let port := fld w 57 56
  let kind : BindKind := match fld w 55 54 with
    | 0 => .promote
    | 1 => .save
    | 2 => .fill
    | _ => .flush
  let g := mget rregDflt r.regs (fld w 53 51)
  let (nr, nc, tri) := s.usefulShape (4 * k + port) (fld w 50 47)
  let whole := kind == .save || kind == .fill
  let u := if whole then 0 else usefulCount nr nc tri
  let z := if whole then 521 else if u = 0 then 0 else 1 + (u + 3) / 4
  let b : RBlk := { id := r.nextId, port := port, kind := kind, sigma := fld w 50 47, q := fld w 46 27, base := g.base
                    ptr := g.ptr, span := g.span, nr := nr, nc := nc, tri := tri, u := u, z := z
                    taken := kind == .flush, set := s.accSet }
  let reads : List RRead := if kind = .save then [] else (List.range z).map fun i => { blk := b.id, idx := i, addr := b.place i / 64 }
  let regs := if kind = .save then mset rregDflt r.regs (fld w 53 51) { g with ptr := (g.ptr + 521) % 2 ^ 33 } else r.regs
  let r := { r with nextId := r.nextId + 1, regs := regs }
  if kind = .flush ∧ z = 0 then s.setRk k r
  else if r.fault then s.setRk k (if kind = .flush then r else { r with blks := r.blks ++ [b] })
  else if 8192 < r.rq.length + reads.length then (s.setRk k { r with blks := r.blks ++ [b] }).rakeFault k
  else s.setRk k { r with blks := r.blks ++ [b], rq := r.rq ++ reads }

/-- Whether an `RBIND` is illegal for its register or its port (R300, R301). -/
def State.bindIllegal (s : State) (k : Nat) (w : Word) : Bool :=
  let r := s.rk k
  (mget rregDflt r.regs (fld w 53 51)).span == 0 || (fld w 55 54 != 3 && decide (2 ≤ r.pending (fld w 57 56)))

/-- An `RCFG` (R300). -/
def RReg.config (g : RReg) (w : Word) : RReg :=
  match fld w 54 53 with
  | 0 => { g with base := fld w 52 20, ptr := 0 }
  | 1 => { g with span := fld w 52 20 }
  | _ => { g with ptr := fld w 52 20 }

/-- How many transfers a rake has asked of a slot of the pseudo-channel that serves an address: k of the next (R122). -/
def State.rakeRank (s : State) (k a : Nat) (write : Bool) : Nat :=
  let x : SXfer := { owner := 1024 + k, now := true, write := write, addr := a, data := [], dest := .none }
  ((s.pc (s.servedBy x)).due.filter fun y => y.now && y.owner == 1024 + k).length

/-- The phase-corrected start of a slot for HCLK-domain owners, in half SCLK (R120): `H0` of the slot that holds SCLK t. -/
def State.slotH0 (s : State) (t : Nat) : Nat := s.hclk (2 * (t / 256 * 256))

/-- Whether a read of the queue's head must wait: for its reservation (R301), or, for a fill, while its port's buffer holds an
earlier save block (R299). -/
def Rake.readHeld (r : Rake) (x : RRead) : Bool :=
  match r.blks.find? fun b => b.id = x.blk with
  | none => decide (2048 < r.wbuf)
  | some b =>
    if b.kind = .fill then r.blks.any fun y => y.kind == .fill && y.port == b.port && decide (y.id < b.id)
    else decide (2048 < r.wbuf + 2)

/-- Up to `n` transfers taken from the head of the read queue into the slot (R301); one that waits in the write buffer is taken
from there, at the time of a transfer (DEDUCED, notes/assumptions/264.md). -/
def State.takeReads (s : State) (k t : Nat) : Nat → State
  | 0 => s
  | n + 1 =>
    let r := s.rk k
    match r.rq with
    | [] => s
    | x :: rest =>
      if r.readHeld x then s
      else
        let blks := r.blks.map fun b => if b.id = x.blk then { b with asked := b.asked + 1 } else b
        let s := s.setRk k { r with rq := rest, blks := blks }
        let s := match r.wq.reverse.find? fun y => y.addr = x.addr * 64 with
          | some y => s.rakeGot k x.blk x.idx (max y.ready (s.slotH0 t + 3 * (27 + 2 * s.rakeRank k (x.addr * 64) false))) y.data false
          | none => s.ask { owner := 1024 + k, now := true, write := false, addr := x.addr * 64, data := []
                            dest := .rake k x.blk x.idx }
        s.takeReads k t n

/-- Up to `n` transfers taken from the head of the write buffer into the slot, as far as their data are there when they are due
(R122, R130). -/
def State.takeWrites (s : State) (k t : Nat) : Nat → State
  | 0 => s
  | n + 1 =>
    let r := s.rk k
    match r.wq with
    | [] => s
    | x :: rest =>
      if s.slotH0 t + 3 * (20 + 2 * s.rakeRank k x.addr true) < x.ready then s
      else
        let s := s.setRk k { r with wq := rest }
        let s := s.ask { owner := 1024 + k, now := true, write := true, addr := x.addr, data := x.data
                         dest := match x.header with
                           | some n => .dumpHeader k x.addr n
                           | none => .rakeWrite k }
        s.takeWrites k t n

/-- A `FILL` of pan p takes its port's fill binding (R299, R301): the block's identifier. -/
def State.takeFill (s : State) (p : Nat) : State × Option Nat :=
  let k := p / 4
  let s := s.rakeNow k
  match (s.rk k).blks.find? fun b => b.port = p % 4 ∧ b.taken = false ∧ b.kind = .fill with
  | none => (s.noBind k, none)
  | some b => (s.setBlk k b.id (some { b with taken := true }), some b.id)

/-- Entry `e` as a fill delivers it (R238, R299): the short run and the trailer's part, and whether a transfer is absent that
counts. `h` is when it is due in half SCLK. -/
def fillEntry (b : Option RBlk) (fault : Bool) (e h : Nat) : AccEntry × Trailer × Bool :=
  let at? (i : Nat) : Option RGot := if fault then none
    else b.bind fun b => (pget b.got i).bind fun g => if g.time ≤ h then some g else none
  let g0 := b.bind fun b => if fault then none else (pget b.got 0).bind fun g => if g.time ≤ h - 3 * e then some g else none
  let w0 (g : RGot) : List Word := xferWords g.data
  let lost := match g0 with
    | none => true
    | some g => !bit ((w0 g).getD 3 0) 0
  let read := if b.isNone || fault then false else b.any fun b => (List.range 521).any fun i => (pget b.got i).any (·.poison)
  let bad := lost || g0.any (·.poison)
  if e < 4096 then
    match at? (9 + e / 8), at? (1 + e / 512) with
    | some g, some v =>
      let w := (w0 g).getD (e % 8) 0
      let mark := bit (word (v.data.getD (e % 512 / 8) 0).toNat) (e % 8)
      ({ re := int2c 32 (fld w 31 0), im := int2c 32 (fld w 63 32), wrap := mark || bad || g.poison || v.poison }, {}, false)
    | _, _ => ({ wrap := true }, {}, b.isSome && g0.isSome)
  else
    let tr : Trailer := match g0 with
      | some g =>
        if bad then { poison := true }
        else
          let ws := w0 g
          { poison := bit (ws.getD 0 0) 63 || read, steps := fld (ws.getD 0 0) 55 28, gsteps := fld (ws.getD 0 0) 27 0
            zrow := (ws.getD 1 0).toNat, zcol := (ws.getD 2 0).toNat }
      | none => { poison := true }
    ({}, tr, false)

/-- A rake at the start of an image (R110, R300, R302). At a swap the work in flight goes on; after a reset or a halt nothing of
it is left (DEDUCED, notes/assumptions/108.md). -/
def Rake.start (r : Rake) (fresh : Bool) (t : Nat) : Rake :=
  let q : Seq := { at_ := t }
  if fresh then { nextId := r.nextId, seq := q, lostAll := r.lostAll }
  else { r with seq := q, regs := [], fault := false }

end Sys2Proof.Machine
end

