-- ==== Sys2Proof/Machine/BeamOps.lean ====
section
/-! DEFINITION. The beam rows (spec/11, R254 to R257): chain sums, closing steps, partial sums between devices, voltage
blocks, resampled beams. -/

namespace Sys2Proof.Machine

/-- A row's report (R330). -/
def State.rowReport (s : State) (r : Nat) : State :=
  s.report (0x30 + r) 0 0x14 (s.rd R.BF_PS_ERR (16 * r)) (s.rd R.BF_VB_ERR (16 * r))

/-- A partial-sum counter of a row raised, with the report of the tide's first (R328, R330). -/
def State.psCount (s : State) (r hi lo n : Nat) : State :=
  if n = 0 then s
  else
    let s := s.countf R.BF_PS_ERR (16 * r) hi lo n
    if (s.bm r).psTide = some s.time.tide then s
    else (s.setBm r { s.bm r with psTide := some s.time.tide }).rowReport r

/-- `VB_LOST` or `RS_LOST` raised, with the report of the tide's first. -/
def State.vbCount (s : State) (r hi lo : Nat) : State :=
  let s := s.countf R.BF_VB_ERR (16 * r) hi lo
  if (s.bm r).vbTide = some s.time.tide then s
  else (s.setBm r { s.bm r with vbTide := some s.time.tide }).rowReport r

/-- `PS_SAT` raised, each increment with its report. -/
def State.satCount (s : State) (r : Nat) : Nat → State
  | 0 => s
  | n + 1 => ((s.countf R.BF_PS_ERR (16 * r) 31 16).rowReport r).satCount r n

/-- The invalid code of a partial sum (R312). -/
def psInvalid : Int × Int := (-8388608, -8388608)

/-- A partial-sum cell's value of a beam of its block: place m (R312). -/
def psValue (ws : List Word) (m : Nat) : Int × Int :=
  let bs := (payloadOf ws).drop (6 * m)
  (int2c 24 (leNat (bs.take 3)), int2c 24 (leNat ((bs.drop 3).take 3)))

/-- A partial-sum cell of a row: block, `SEQ`, chain bits and values (R153, R312); `TIME` is put in when it is sent. -/
def psCell (r block seq : Nat) (gap poison : Bool) (vs : List (Int × Int)) : List Word :=
  let payload := (vs.map fun v => leBytes 3 (field2c 24 v.1) ++ leBytes 3 (field2c 24 v.2)).flatten
  word (at_ 60 5 + at_ 59 (b2n gap) + at_ 58 (b2n poison) + at_ 52 r + at_ 44 block + at_ 32 seq) :: 0
    :: bytesWords 30 (payload ++ List.replicate (240 - payload.length) 0)

/-- The quads that a row's export names, if it exports (R312). -/
def State.exportQuads (s : State) (r : Nat) : List Nat :=
  let w := s.rd R.BF_PSUM (16 * r)
  if bit w 0 then (List.range (fld w 42 40 + 1)).map (fld w 39 32 + ·) else []

/-- Whether a quad carries a row's exports: its role is a brine link, and no lower row names it (R313). -/
def State.exportOk (s : State) (r q : Nat) : Bool :=
  (s.image.elim 0 fun m => quadRole m q) == 1 && (List.range r).all fun x => !(s.exportQuads x).contains q

/-- A closing step's export (R312, R313) under `BF_PSUM` as it was at its issue. `miss` marks the beams missing at import. -/
def State.psExport (s : State) (r : Nat) (cl : Closing) (us : List (Int × Int)) (miss : List Bool) (gap poison : Bool) : State :=
  let w := cl.psum
  let k := cl.k
  let t := cl.t
  if !bit w 0 then s
  else
    let no := fld w 42 40 + 1
    let q := fld w 39 32 + k % no
    let far (v : Int) : Bool := decide (8388607 < v.natAbs)
    let s := s.satCount r ((us.map fun u => b2n (far u.1) + b2n (far u.2)).sum)
    let vs := (us.zip miss).map fun x => if x.2 || far x.1.1 || far x.1.2 then psInvalid else x.1
    let seq (b : Nat) := (2 * (k / no) + b) % 4096
    let cells := [psCell r 0 (seq 0) gap poison (vs.take 40), psCell r 1 (seq 1) gap poison (vs.drop 40)]
    if !s.exportOk r q then s.psCount r 47 32 2
    else if 128 < (s.bm r).exq.length + 2 then s.psCount r 47 32 1
    else s.setBm r { s.bm r with exq := (s.bm r).exq ++ cells.map fun c => (t + 40, q, c) }

/-- A released partial-sum cell enters its row's import buffer (R314, R496). -/
def State.psIntake (s : State) (q : Nat) (ws : List Word) : State :=
  let w0 := cellWord ws 0
  let r := fld w0 55 52
  let w := s.rd R.BF_PSUM (16 * r)
  let l := q - fld w 55 48
  if q < fld w 55 48 ∨ fld w 58 56 < l ∨ 1 < fld w0 51 44 then s.psCount r 15 0 1
  else if s.outsidePart q then s
  else
    let key := 32 * l + fld w0 43 32 % 32
    let s := if (pget (s.bm r).imp key).isSome then s.psCount r 47 32 1 else s
    s.setBm r { s.bm r with imp := pset (s.bm r).imp key (some ws) }

/-- A closing step's imported cells, taken from the import buffer: none for a missing one, which counts at its quad (R138,
R314). -/
def State.psTake (s : State) (r k : Nat) (w : Word) : State × List (Option (List Word)) :=
  let ni := fld w 58 56 + 1
  let l := k % ni
  let seq (b : Nat) := (2 * (k / ni) + b) % 4096
  let take (b : Nat) : Option (List Word) :=
    (pget (s.bm r).imp (32 * l + seq b % 32)).bind fun ws =>
      if fld (cellWord ws 0) 43 32 = seq b then some ws else none
  let cells := [take 0, take 1]
  let imp := pset (pset (s.bm r).imp (32 * l + seq 0 % 32) none) (32 * l + seq 1 % 32) none
  let s := s.setBm r { s.bm r with imp := imp }
  let lost := [0, 1].filter fun b => (take b).isNone
  let s := lost.foldl (fun s b => s.psumAbsent (fld w 55 48 + l) r (seq b)) s
  (s.psCount r 63 48 lost.length, cells)

/-- What a closing step imports: ρ and the missing mark of each beam, and the cells' chain bits (R311, R314, R315). -/
def State.psImport (s : State) (r : Nat) (cl : Closing) : State × List (Int × Int) × List Bool × Bool × Bool :=
  if !bit cl.psum 1 then (s, List.replicate 64 (0, 0), List.replicate 64 false, false, false)
  else
    let (s, cells) := s.psTake r cl.k cl.psum
    let one (i : Nat) : Option (Int × Int) :=
      match cells.getD (if i < 40 then 0 else 1) none with
      | none => none
      | some ws =>
        let v := psValue ws (if i < 40 then i else i - 40)
        if v = psInvalid then none else some v
    let vs := (List.range 64).map one
    let flag (b : Nat) : Bool := cells.any fun c => c.any fun ws => bit (cellWord ws 0) b
    (s, vs.map (·.getD (0, 0)), vs.map Option.isNone, flag 59, flag 58)

/-- A beam sum as its int32 register holds it; one outside int32 is open (R255). -/
def State.beamReg (s : State) (v : Int) : Int × State :=
  if -2 ^ 31 ≤ v ∧ v < 2 ^ 31 then (v, s)
  else
    let (i, s) := s.fresh
    (int2c 32 (Config.beamOver i % 2 ^ 32).toNat, s)

/-- The beam sum registers after a step. -/
def State.beamRegs (s : State) : List (Int × Int) → State × List (Int × Int)
  | [] => (s, [])
  | u :: us =>
    let (a, s) := s.beamReg u.1
    let (b, s) := s.beamReg u.2
    let (s, r) := s.beamRegs us
    (s, (a, b) :: r)

/-- A beam sum converted to 8+8 bits, and the clipped components (R255). -/
def beamValue (shift : Nat) (u : Int × Int) : (Int × Int) × Nat :=
  let c (x : Int) : Int × Nat :=
    let y := shrEven x shift
    (clampI (-127) 127 y, b2n (decide (127 < y.natAbs)))
  let a := c u.1
  let b := c u.2
  ((a.1, b.1), a.2 + b.2)

/-- The bytes of a voltage record (R317): a missing beam is the zero-weight code. -/
def vbBytes (vs : List (Int × Int)) (miss : List Bool) : List Byte :=
  ((vs.zip miss).map fun x => if x.2 then missPair else [BitVec.ofInt 8 x.1.1, BitVec.ofInt 8 x.1.2]).flatten

/-- A bit mask of marks. -/
def markMask (ms : List Bool) : Nat := ((ms.zipIdx).map fun x => b2n x.1 * 2 ^ x.2).sum

/-- The heap transfer that holds a resampling slot's position, as the handed samples make it (R322). -/
def State.rsTransfer (s : State) (u m blk : Nat) : List Byte :=
  let a := sluBase (s.sluProg u) + m * 2097152 + 64 * blk
  ((List.range 32).map fun i =>
    match pget s.slu.rs ((16 * u + m) * 2 ^ 20 + 32 * blk + i) with
    | some x => x.v.elim missPair fun v => [BitVec.ofInt 8 v.1, BitVec.ofInt 8 v.2]
    | none => s.heapBytesAt (a + 2 * i) 2).flatten

/-- A write asked for a unit's slots in place of one to the same transfer that still waits. -/
def State.askOver (s : State) (x : SXfer) : State :=
  let j := hPch x.addr
  let same (y : SXfer) : Bool := y.owner == x.owner && y.write && !y.now && y.addr == x.addr
  let p := s.pc j
  if p.due.any same then s.setPc j { p with due := p.due.map fun y => if same y then x else y } else s.ask x

/-- Slots of a resampling unit (R185, R322). -/
def State.rsSlots (s : State) (u : Nat) : Nat := min 16 (4 * sluP (s.sluProg u))

/-- The buffer position of spectrum j and channel ν (R322). -/
def State.rsPos (s : State) (j nu : Nat) : Nat := j % (1048576 / s.chanC) * s.chanC + nu

/-- One sample handed to a resampling unit's slot at SCLK t. -/
def State.rsHand (s : State) (t u m j nu : Nat) (v : Option (Int × Int)) (gap poison : Bool) : State :=
  let pos := s.rsPos j nu
  let x : RsSample := { j := j, v := v, gap := gap, poison := poison }
  let s := { s with slu := { s.slu with rs := pset s.slu.rs ((16 * u + m) * 2 ^ 20 + pos) (some x) } }
  s.askOver { owner := u, now := false, write := true, addr := sluBase (s.sluProg u) + m * 2097152 + 64 * (pos / 32)
              data := s.rsTransfer u m (pos / 32), dest := .none, ready := 2 * t }

/-- A record handed to the resampling units of its row at SCLK t (R322). -/
def State.rsRecord (s : State) (r t j nu : Nat) (vs : List (Int × Int)) (miss : List Bool) (gap poison : Bool) : State :=
  let w := s.rd R.BF_RS (16 * r)
  if fld w 5 4 = 0 then s
  else
    (onesOf 4 (fld w 3 0)).foldl (fun s g =>
      let u := fld w 15 8 + g
      (List.range (s.rsSlots u)).foldl (fun s m =>
        s.rsHand t u m j nu (if miss.getD (16 * g + m) true then none else some (vs.getD (16 * g + m) (0, 0))) gap poison) s) s

/-- Channel and spectrum of record K (R318). -/
def vbPlace (cfg : Word) (j0 k : Nat) : Nat × Nat :=
  let run := fld cfg 63 48
  let n := fld cfg 35 24 + 1
  let m := k / run
  (fld cfg 47 36 + m % n, j0 + run * (m / n) + k % run)

/-- A writer's ring as it is used: `BASE`, pointer, `SPAN`. With `SPAN` = 0 the place is open. -/
def State.writerRing (s : State) (base spanW : Word) (ptr : Nat) : (Nat × Nat × Nat) × State :=
  if spanW = 0 then
    let (n, s) := s.fresh
    (((Config.dumpPlace n).toNat, 0, 2 ^ 33), s)
  else ((base.toNat, ptr, spanW.toNat), s)

/-- A row's voltage block given up: the transfers that it reserved are free. -/
def BeamRow.dropBlk (b : BeamRow) : BeamRow :=
  { b with blk := none, buf := if b.blk.any fun v => !v.drop then b.buf - 65 else b.buf }

/-- An unfinished voltage block of an earlier anchor given up, once no step of that anchor waits (R318). -/
def BeamRow.tidy (b : BeamRow) : BeamRow :=
  if b.blk.any fun v => v.gen != b.gen && !b.closings.any fun c => c.gen == v.gen then b.dropBlk else b

/-- A voltage block begun (R316, R319): it takes the ring's position and reserves its transfers; an unfinished one of an earlier
anchor is given up. -/
def State.vbBegin (s : State) (r gen z nu j : Nat) : State :=
  let b := (s.bm r).dropBlk
  let on := s.rd R.VB_SPAN (16 * r) != 0
  let beyond := decide (s.chanC ≤ nu)
  let full := decide (256 < b.buf + 65)
  let drop := !on || beyond || full
  let ptr := (s.rd R.VB_PTR (16 * r)).toNat
  let v : VBlk := { gen := gen, base := s.rd R.VB_BASE (16 * r), span := s.rd R.VB_SPAN (16 * r)
                    p := s.rdf R.BF_VBCFG (16 * r) 23 16 + 1, c := s.chanC, z := z, chan := nu, j := j, ptr := ptr, recs := 0, data := [], gap := false, poison := false, mask := 0
                    flags := 0, drop := drop }
  let s := if on && (beyond || full) then s.vbCount r 63 48 else s
  let s := s.setBm r { s.bm r with blk := some v, buf := if drop then b.buf else b.buf + 65 }
  if drop then s else s.wr R.VB_PTR (16 * r) (word ((ptr + 65) % (s.rd R.VB_SPAN (16 * r)).toNat))

/-- The header of a voltage block (R317). -/
def vbHeader (r c p : Nat) (v : VBlk) : List Word :=
  [word ((v.j + 4) * c * p),
   word (at_ 52 v.chan + at_ 48 r + at_ 39 (b2n v.gap) + at_ 38 (b2n v.poison) + at_ 37 (b2n (v.mask != 0)) + at_ 34 v.flags
     + v.z % 2 ^ 32),
   word v.mask, word v.j, 0, 0, 0, 0]

/-- Transfers of a row's writer asked for its slots in order, in its buffer from SCLK t on, `last` naming the last one's
destination. -/
def State.writerAsk (s : State) (r t : Nat) (g : Nat × Nat × Nat) (last : Dest) : List (Nat × List Byte) → State
  | [] => s
  | (i, d) :: xs =>
    let dest := if xs.isEmpty then last else .beamWrite r
    (s.ask { owner := 2560 + r, now := false, write := true, addr := ringPlace g.1 g.2.1 g.2.2 i * 64, data := d
             dest := dest, ready := 2 * t }).writerAsk r t g last xs

/-- A finished voltage block asked to be written, header last (R316); `t` is when its last record is in the writer's buffer. -/
def State.vbFinish (s : State) (r t : Nat) (v : VBlk) : State :=
  let s := s.setBm r { s.bm r with blk := none }
  if v.drop then s
  else
    let rows := (List.range 64).map fun i => (1 + i, (v.data.drop (64 * i)).take 64)
    let (g, s) := s.writerRing v.base v.span v.ptr
    s.writerAsk r t g (.beamBlock r 1 (ringPlace g.1 g.2.1 g.2.2 0 * 64) (65 * 64))
      (rows ++ [(0, wordsXfer (vbHeader r v.c v.p v))])

/-- The number, channel and spectrum of the voltage record that a closing step issued at SCLK t makes (R318): the anchor is set by
the first whose time allows it; one before it is discarded and counts. -/
def State.recordAt (s : State) (r t : Nat) : State × Option (Nat × Nat × Nat) :=
  let cfg := s.rd R.BF_VBCFG (16 * r)
  let run := fld cfg 63 48
  let p := fld cfg 23 16 + 1
  let lag : Int := s.rdf R.BF_VBLAG (16 * r) 31 0
  let b := s.bm r
  if run = 0 then (s, none)
  else if b.anchor.isNone ∧ s.arr t < lag then (s.countf R.BF_VB_ERR (16 * r) 47 32, none)
  else
    let j0 := b.anchor.getD (((s.arr t - lag) / (run * s.chanC * p : Nat)).toNat * run)
    let k := if b.anchor.isNone then 0 else b.rec_
    (s.setBm r { b with anchor := some j0, rec_ := k + 1 }, some (k, vbPlace cfg j0 k))

/-- A voltage record (R125, R316 to R319): the block, the hand-off to resampling units, 43 SCLK after the closing step's issue. -/
def State.vbRecord (s : State) (r : Nat) (cl : Closing) (vs : List (Int × Int)) (miss : List Bool) (gap poison : Bool) : State :=
  match cl.rec_ with
  | none => s
  | some (k, nu, j) =>
    let at_ := cl.t + 43
    let s := if nu < s.chanC then s.rsRecord r at_ j nu vs miss gap poison else s
    let s := if k % 32 = 0 then s.vbBegin r cl.gen (k / 32) nu j else s
    match (s.bm r).blk with
    | none => s
    | some v =>
      if v.gen ≠ cl.gen then s
      else
        let tide := (s.arr cl.t / tideSclk).toNat
        let v := { v with recs := v.recs + 1, data := if v.drop then [] else v.data ++ vbBytes vs miss, gap := v.gap || gap
                          poison := v.poison || poison, mask := v.mask ||| markMask miss
                          flags := v.flags ||| s.heldIn ((tide : Int) - 1) tide }
        if v.recs = 32 then s.vbFinish r at_ v else s.setBm r { s.bm r with blk := some v }

/-- The increments of power and pair outputs (R255): entry, real, imaginary. -/
def detected (out dent : Nat) (vs : List (Int × Int)) (miss : List Bool) : List (Nat × Int × Int) :=
  let v (i : Nat) := vs.getD i (0, 0)
  let sq (i : Nat) : Int := (v i).1 * (v i).1 + (v i).2 * (v i).2
  let m (i : Nat) := miss.getD i true
  if out = 2 then
    (List.range 64).filterMap fun i => if m i then none else some (64 * i + dent, sq i, 0)
  else
    ((List.range 32).map fun h =>
      let i := 2 * h
      if m i || m (i + 1) then []
      else
        let a := v i
        let b := v (i + 1)
        [(64 * i + dent, sq i, sq (i + 1)), (64 * (i + 1) + dent, a.1 * b.1 + a.2 * b.2, a.2 * b.1 - a.1 * b.2)]).flatten

/-- The rows that a detected step marks in `ZROW` (R315). -/
def missRows (out : Nat) (miss : List Bool) : Nat :=
  if out = 2 then markMask miss
  else markMask ((List.range 64).map fun i => miss.getD (i / 2 * 2) false || miss.getD (i / 2 * 2 + 1) false)

/-- A detected closing step's increments on their way to pan (r, 15), with what they set when they land (R255 to R257, R315). -/
def State.detect (s : State) (r : Nat) (cl : Closing) (vs : List (Int × Int)) (miss : List Bool) (gap poison : Bool) : State :=
  let p := s.pn (16 * r + 15)
  let out := fld cl.op 37 36
  let set : IncSet := { time := cl.t + 41, bank := cl.bank, incs := detected out (fld cl.op 27 22) vs miss
                        gap := gap || miss.contains true, poison := poison, zrow := missRows out miss }
  s.setPn (16 * r + 15) { p with incs := p.incs ++ [set] }

/-- A closing step carried out with its row sums (R255, R311). -/
def State.closeStep (s : State) (r : Nat) (cl : Closing) (ch : ChainSum) : State :=
  let b := s.bm r
  let old (i : Nat) : Int × Int := if bit cl.op 39 then b.sums.getD i (0, 0) else (0, 0)
  let last := bit cl.op 38
  let (s, rho, miss, g, p) := if last then s.psImport r cl
    else (s, List.replicate 64 (0, 0), List.replicate 64 false, false, false)
  let gap := ch.gap || g
  let poison := ch.poison || p
  let us := (List.range 64).map fun i =>
    let a := old i
    let x := ch.sums.getD i (0, 0)
    let y := rho.getD i (0, 0)
    (a.1 + x.1 + y.1, a.2 + x.2 + y.2)
  let (s, us) := s.beamRegs us
  let s := s.setBm r { s.bm r with sums := us }
  if !last then s
  else
    let n := (cl.k + 1) % 2 ^ 32
    let s := if cl.image = b.image then s.wr R.BF_SEQ (16 * r) (word (at_ 32 n + n)) else s
    let vs := us.map (beamValue (fld cl.op 32 28))
    let clips := (vs.map (·.2)).sum
    let s := if clips = 0 then s else s.count R.BEAM_CLIP (16 * r + 15) clips
    let s := s.psExport r cl us miss gap poison
    match fld cl.op 37 36 with
    | 0 => s
    | 1 => s.vbRecord r cl (vs.map (·.1)) miss gap poison
    | _ => s.detect r cl (vs.map (·.1)) miss gap poison

/-- A beam step of pan (r, 15) issued at SCLK t: what waits for its row sums (R255, R311, R318). -/
def State.closing (s : State) (r t : Nat) (op : Word) (bank : Bool) : State :=
  let last := bit op 38
  let (s, rec_) := if last && fld op 37 36 == 1 then s.recordAt r t else (s, none)
  let b := s.bm r
  let cl : Closing := { t := t, op := op, bank := bank, k := b.k, psum := s.rd R.BF_PSUM (16 * r), image := b.image, gen := b.gen
                        rec_ := rec_ }
  s.setBm r { b with closings := b.closings ++ [cl], k := b.k + b2n last }

/-- Row sums of one issue SCLK used, or discarded where pan (r, 15) issued no beam step then (R255). -/
def State.settleSum (s : State) (r t : Nat) (ch : ChainSum) : State :=
  let b := s.bm r
  let s := s.setBm r { b with chain := pset b.chain t none, closings := b.closings.filter fun c => c.t ≠ t }
  match b.closings.find? fun c => c.t = t with
  | some cl =>
    let s := s.closeStep r cl ch
    s.setBm r (s.bm r).tidy
  | none => s.panOrder (16 * r + 15)

/-- A row's sums that have reached pan (r, 15) by `now` (R125: 37 SCLK after issue), in order. -/
def State.rowDue (s : State) (r now : Nat) : State :=
  ((s.bm r).chain.filter fun e => decide (e.1 + 37 ≤ now)).foldl (fun s e =>
    match e.2 with
    | some ch => s.settleSum r e.1 ch
    | none => s) s

/-- A pan's row sums added to its row's chain (R254). -/
def State.chainAdd (s : State) (r t : Nat) (sums : List (Int × Int)) (gap poison : Bool) : State :=
  let b := s.bm r
  let c := (pget b.chain t).getD { sums := List.replicate 64 (0, 0), gap := false, poison := false }
  let c : ChainSum := { sums := (c.sums.zip sums).map fun x => (x.1.1 + x.2.1, x.1.2 + x.2.2), gap := c.gap || gap
                        poison := c.poison || poison }
  s.setBm r { b with chain := pset b.chain t (some c) }

/-- A writer's transfer written: its place in the buffer is free. -/
def State.writerFreed (s : State) (r : Nat) : State := s.setBm r { s.bm r with buf := (s.bm r).buf - 1 }

/-- A cell of a quad's transmit slot: a row's exported cell that is complete and the first of its queue, with its `TIME` (R155,
R313). -/
def State.psNext (s : State) (q now : Nat) : Option (State × List Word) :=
  (List.range 16).findSome? fun r =>
    match (s.bm r).exq with
    | x :: rest =>
      if x.2.1 = q ∧ x.1 ≤ now then
        let time := word (s.arr (now / 256 * 256)).toNat
        some (s.setBm r { s.bm r with exq := rest },
              match x.2.2 with
              | w0 :: _ :: ws => w0 :: time :: ws
              | ws => ws)
      else none
    | [] => none

/-- A row at an image start (R274, R311, R318, R328): closing steps and the anchor are counted anew; the steps of the image
that ends keep their numbers. -/
def State.rowStart (s : State) (r : Nat) (fresh : Bool) : State :=
  let b := s.bm r
  let v : BeamRow := { b with k := 0, anchor := none, rec_ := 0, image := b.image + 1, gen := b.gen + 1 }
  let s := if b = {} then s
    else s.setBm r (if fresh then { v.dropBlk with sums := [], chain := [], closings := [] } else v.tidy)
  ((s.wr R.BF_SEQ (16 * r) 0).wr R.VB_PTR (16 * r) 0).wr R.RS_PTR (16 * r) 0

/-- A row at tide 0 of an epoch (R318). -/
def State.rowEpoch (s : State) (r : Nat) : State :=
  let b := s.bm r
  s.setBm r (if b = {} then b else ({ b with anchor := none, rec_ := 0, gen := b.gen + 1 } : BeamRow).tidy)

/-- The row that routes beams to a resampling unit (R322). -/
def State.rsRow (s : State) (u : Nat) : Option Nat :=
  (List.range 16).find? fun r =>
    let w := s.rd R.BF_RS (16 * r)
    fld w 5 4 != 0 && decide (fld w 15 8 ≤ u) && decide (u < fld w 15 8 + 4) && bit w (u - fld w 15 8)

/-- A tap of a resampled series: its sample, if the position still holds that spectrum. -/
def State.rsTap (s : State) (u m nu : Nat) (j : Int) : Option RsSample :=
  if j < 0 then none
  else (pget s.slu.rs ((16 * u + m) * 2 ^ 20 + s.rsPos j.toNat nu)).bind fun x => if x.j = j.toNat then some x else none

/-- The Stokes values of a pair of slots (R324), as binary32 bytes. -/
def stokesOf (x y : Int × Int) : List Byte :=
  let xx := x.1 * x.1 + x.2 * x.2
  let yy := y.1 * y.1 + y.2 * y.2
  let re := x.1 * y.1 + x.2 * y.2
  let im := x.2 * y.1 - x.1 * y.2
  ([xx + yy, xx - yy, 2 * re, -2 * im].map fun v => leBytes 4 (word32 (to32 (Dy.ofInt v)))).flatten

/-- Output n of channel ν of a resampling unit (R323 to R325), once every slot has spectrum ⌊x⌋ + 8. -/
def State.resample (s : State) (u n nu : Nat) : State :=
  match opWord (s.sluProg u) 5, s.rsRow u with
  | some w, some r =>
    let rho := fld w 47 0
    let xq := shrEven (n * rho : Nat) 20
    let i := xq / 4096
    let f := (xq % 4096).toNat
    let slots := List.range (s.rsSlots u)
    let key := 4096 * u + nu
    let handed := slots.all fun m => (s.rsTap u m nu (i + 8)).isSome
    if (s.sluUnit u).bad ∨ s.chanC ≤ nu ∨ n < mget (fun _ => 0) s.slu.rsDone key ∨ !handed then s
    else
      let s := { s with slu := { s.slu with rsDone := mset (fun _ => 0) s.slu.rsDone key (n + 1) } }
      let out (m : Nat) : Option (Int × Int) :=
        if m < s.rsSlots u then interpolate (fun j => (s.rsTap u m nu j).bind (·.v)) i f else none
      let taps := (slots.map fun m => (List.range 16).filterMap fun (d : Nat) => s.rsTap u m nu (i - 7 + d)).flatten
      let pairs := (List.range 8).map fun p => match out (2 * p), out (2 * p + 1) with
        | some x, some y => some (stokesOf x y)
        | _, _ => none
      let val (p : Option (List Byte)) : List Byte := p.getD (List.replicate 16 0)
      let iq := s.rdf R.BF_RS (16 * r) 5 4
      let pp := sluP (s.sluProg u)
      let time := shrEven (((n * rho + 4 * 2 ^ 32) * s.chanC * pp : Nat)) 32
      let head := [wordI time,
        word (at_ 52 nu + at_ 44 u + at_ 43 (b2n (taps.any (·.gap))) + at_ 42 (b2n (taps.any (·.poison)))
          + at_ 32 (markMask (pairs.map Option.isNone)) + n % 2 ^ 32), 0, 0]
      let tail := if iq = 1 then (pairs.map fun p => (val p).take 4).flatten else List.replicate 32 0
      let x0 := wordsXfer head ++ tail
      let rest := (pairs.map val).flatten
      let xs := if iq = 1 then [(0, x0)] else [(0, x0), (1, rest.take 64), (2, rest.drop 64)]
      let b := s.bm r
      if 256 < b.buf + xs.length then s.vbCount r 31 16
      else
        let spanW : Word := s.rd R.RS_SPAN (16 * r)
        let ptr := (s.rd R.RS_PTR (16 * r)).toNat
        let s := s.setBm r { b with buf := b.buf + xs.length }
        let next : Nat := if spanW = 0 then (ptr + xs.length) % 2 ^ 33 else (ptr + xs.length) % spanW.toNat
        let s := s.wr R.RS_PTR (16 * r) (word next)
        let (g, s) := s.writerRing (s.rd R.RS_BASE (16 * r)) spanW ptr
        s.writerAsk r s.imgNow g (.beamBlock r 2 (ringPlace g.1 g.2.1 g.2.2 0 * 64) (64 * xs.length)) xs
  | _, _ => s

end Sys2Proof.Machine
end

