-- ==== Sys2Proof/Machine/PanOps.lean ====
section
/-! DEFINITION. Pans and feeders (spec/09): operand memory, steps, banks, weights, streams, fills, feeder reads and
emits, preemption. -/

namespace Sys2Proof.Machine

/-- A feeder entry at reset. -/
def fentryDflt (_ : Nat) : FEntry := { data := poisonData, filled := 0, poison := 0 }
/-- A feeder address register at image start. -/
def aregDflt (_ : Nat) : AReg := {}

/-- The zero-weight code of a byte (R212). -/
def zeroCode (bits : Nat) : Byte := if bits = 8 then 0x80 else 0x88

/-- Data landing in one quarter of a feeder entry: an overrun leaves the content and marks the quarter (R263). The flag
says that it overran. -/
def FEntry.land (e : FEntry) (q : Nat) (data : List Byte) (poison : Bool) : FEntry × Bool :=
  if e.filled.testBit q then ({ e with poison := e.poison ||| 2 ^ q }, true)
  else ({ e with data := putBytes e.data (16 * q) data, filled := e.filled ||| 2 ^ q,
                 poison := if poison then e.poison ||| 2 ^ q else e.poison &&& (15 - 2 ^ q) }, false)

/-- A breach of the feeder buffer (R138, R263). -/
def State.feedBreach (s : State) (f n : Nat) : State := (List.range n).foldl (fun s _ => s.breach R.BR_FEED 5 f) s

/-- One landing of a feeder's data; overruns count once for each part. -/
def State.feedLand (s : State) (f : Nat) (x : FLand) : State :=
  let d := s.fd f
  let e := mget fentryDflt d.buf x.entry
  let (e, n) := (x.quarters.zipIdx).foldl (fun (a : FEntry × Nat) q =>
    let (e, o) := a.1.land q.1 ((x.data.drop (16 * q.2)).take 16) x.poison
    (e, a.2 + b2n o)) (e, 0)
  let per := if s.sampleBits = 8 then 2 else 1
  (s.setFd f { d with buf := mset fentryDflt d.buf x.entry e }).feedBreach f ((n + per - 1) / per)

/-- One emit: entry, address, SCLK (R128, R263). -/
def State.emitOne (s : State) (f entry addr pmask t : Nat) : State :=
  let d := s.fd f
  let e := mget fentryDflt d.buf entry
  let wide := s.sampleBits == 8
  let want (q : Nat) : Bool := pmask.testBit (if wide then q / 2 else q)
  let z := zeroCode s.sampleBits
  let data := ((List.range 4).map fun q => if want q then (e.data.drop (16 * q)).take 16 else List.replicate 16 z).flatten
  let under (q : Nat) : Bool := want q && !e.filled.testBit q
  let n := if wide then b2n (under 0 || under 1) + b2n (under 2 || under 3)
    else ((List.range 4).map fun q => b2n (under q)).sum
  let poison := (List.range 4).any fun q => want q && (e.poison.testBit q || !e.filled.testBit q)
  let s := s.setFd f { d with buf := mset fentryDflt d.buf entry { e with filled := 0 } }
  let s := s.feedBreach f n
  (List.range 16).foldl (fun s i =>
    let p := if f < 16 then 16 * f + i else 16 * i + (f - 16)
    let w : OpWrite := { time := t + 3 + i, addr := addr, col := decide (16 ≤ f), data := data, poison := poison }
    let v := s.pn p
    let q := if s.feedsPan p then v.opq else v.opq.filter fun x => decide (t ≤ x.time)
    s.setPn p { v with opq := q ++ [w] }) s

/-- The next event of a feeder up to `now`: the earliest landing, or the emit in progress; landings of an SCLK come
before its emit. -/
def State.feedNext (s : State) (f now : Nat) : Option State :=
  let d := s.fd f
  let first := d.land.foldl (fun (m : Option FLand) x => match m with
    | some y => if x.time < y.time then some x else some y
    | none => some x) none
  let emit := d.emit.bind fun e => if e.next < e.count then some (e, e.t + e.next) else none
  let landFirst := match first, emit with
    | some x, some (_, t) => decide (x.time ≤ t)
    | some _, none => true
    | none, _ => false
  match landFirst, first, emit with
  | true, some x, _ => if x.time ≤ now then some ((s.setFd f { d with land := d.land.erase x }).feedLand f x) else none
  | _, _, some (e, t) =>
    if t ≤ now then
      let s := s.setFd f { d with emit := some { e with next := e.next + 1 } }
      some (s.emitOne f ((e.e + e.next) % 256) ((e.addr + e.next * e.astep) % 2048) e.pmask t)
    else none
  | _, _, none => none

/-- A feeder brought up to `now`. -/
def State.feedRun (s : State) (f now : Nat) : Nat → State
  | 0 => s
  | fuel + 1 =>
    match s.feedNext f now with
    | some s => s.feedRun f now fuel
    | none => s

/-- A feeder brought up to `now`. -/
def State.feedTo (s : State) (f now : Nat) : State := s.feedRun f now 4096

/-- The entries of a fill that have come by `now`, delivered into its bank; with the last one the fill ends (R271, R299). -/
def State.fillTo (s : State) (p now : Nat) : State :=
  match (s.pn p).fill with
  | none => s
  | some f =>
    let k := p / 4
    let first := s.hclk (2 * f.t + 48)
    let upto := if 2 * now + 1 < first then 0 else min 4099 ((2 * now + 1 - first) / 3 + 1)
    let b := f.blk.bind fun id => (s.rk k).blks.find? fun b => b.id = id
    let fault := (s.rk k).fault
    let none0 := f.next = 0 ∧ upto ≠ 0 ∧ f.blk.isSome = true
      ∧ (fault = true ∨ b.all (fun b => (pget b.got 0).all fun g => decide (first < g.time)) = true)
    let s := if none0 then s.countf R.RK_ERR (4 * k) 31 16 else s
    let s := (List.range (upto - f.next)).foldl (fun s i =>
      let e := f.next + i
      let (x, t, late) := fillEntry b fault e (first + 3 * e)
      let s := if late then s.countf R.RK_ERR (4 * k) 31 16 else s
      s.setPn p ((s.pn p).putEntry f.bank e { x with wrap := x.wrap || f.early } t)) s
    if upto = 4099 then
      let s := s.setPn p { s.pn p with fill := none }
      match b with
      | some b => s.setBlk k b.id none
      | none => s
    else s.setPn p { s.pn p with fill := some { f with next := upto } }

/-- A 4-bit sample (R249): its components, and whether it is zero weight. -/
def sample4 (b : Byte) : (Int × Int) × Bool :=
  let re := int2c 4 (b.toNat / 16)
  let im := int2c 4 (b.toNat % 16)
  if re = -8 ∨ im = -8 then ((0, 0), true) else ((re, im), false)

/-- An 8-bit sample. -/
def sample8 (re im : Byte) : (Int × Int) × Bool :=
  if re = 0x80 ∨ im = 0x80 then ((0, 0), true) else ((re.toInt, im.toInt), false)

/-- x × conj(y). -/
def timesConj (x y : Int × Int) : Int × Int := (x.1 * y.1 + x.2 * y.2, x.2 * y.1 - x.1 * y.2)

/-- The samples that a correlation step takes from a half (R250, R252): 64 4-bit ones, or the 32 8-bit ones. -/
def halfSamples (wide : Bool) (data : List Byte) : List ((Int × Int) × Bool) :=
  if wide then (List.range 32).map fun k => sample8 (data.getD (2 * k) 0) (data.getD (2 * k + 1) 0)
  else (List.range 64).map fun k => sample4 (data.getD k 0)

/-- The increments of a correlation step (R250 to R252). -/
def corrIncs (w : Word) (xs ys : List ((Int × Int) × Bool)) : List (Nat × Int × Int) :=
  let wide := bit w 39
  let diag := bit w 36 && !wide
  let i0 := if wide then 32 * fld w 38 38 else 0
  let j0 := if wide then 32 * fld w 37 37 else 0
  ((xs.zipIdx).map fun x => (ys.zipIdx).map fun y =>
    let v := if diag && x.2 == y.2 then (x.1.1.1 * x.1.1.1 + x.1.1.2 * x.1.1.2, 0) else timesConj x.1.1 y.1.1
    (64 * (i0 + x.2) + j0 + y.2, v)).flatten.filter fun x => x.2 != (0, 0)

/-- The positions of zero-weight samples, as a mask from `base` on. -/
def zeroMask (base : Nat) (xs : List ((Int × Int) × Bool)) : Nat := markMask (xs.map (·.2)) * 2 ^ base

/-- The operand address of an instruction (R266). -/
def opAddr (q : Seq) (w : Word) (extra : Nat) : Nat :=
  (fld w 55 45 + fld w 44 40 * q.iterOf (fld w 57 56) + extra) % 2048

/-- Whether a pan has a stream or a fill in progress (R270). -/
def State.panStreams (s : State) (p t : Nat) : Bool := decide (2 * t < (s.pn p).busy) || decide (2 * t < (s.pn p).filling)

/-- The bank in use switched, unless a stream or fill is in progress (R270). -/
def State.switchBank (s : State) (p t : Nat) : State :=
  if s.panStreams p t then s.panOrder p else s.setPn p { s.pn p with bank := !(s.pn p).bank }

/-- The idle bank's stream begun (R253, R270, R271, R281): its bank timer is checked (R138), and its entries leave one by one. -/
def State.streamBank (s : State) (p t : Nat) (save : Bool) : State :=
  if s.panStreams p t ∨ (s.pn p).jobRun = true then s.panOrder p
  else
    let v := s.pn p
    let bank := !v.bank
    let first := s.hclk (2 * t + 24)
    let early := decide (first < 2 * (if bank then v.visible1 else v.visible0))
    let s := if early then s.breach R.BR_BANK 3 p else s
    let r := s.rk (p / 4)
    let st : Stream := { first := first, save := save, bank := some bank, early := early }
    (s.setPn p { s.pn p with busy := first + 3 * 4098 }).setRk (p / 4) { r with streams := r.streams ++ [(p % 4, st)] }

/-- A fill begun (R271, R299): the rake's binding is taken, and the bank idle now is filled. -/
def State.fillBank (s : State) (p t : Nat) : State :=
  if s.panStreams p t ∨ (s.pn p).jobRun = true then s.panOrder p
  else
    let v := s.pn p
    let first := s.hclk (2 * t + 48)
    let early := decide (t < if v.bank then v.visible0 else v.visible1)
    let s := if early then s.breach R.BR_BANK 3 p else s
    let (s, blk) := s.takeFill p
    s.setPn p { s.pn p with filling := first + 3 * 4098, fill := some { t := t, bank := !v.bank, blk := blk, early := early } }

/-- A correlation step (R250 to R253, R257). -/
def State.corrStep (s : State) (p t : Nat) (w : Word) : State :=
  let s := s.opsTo p t
  let v := s.pn p
  let addr := opAddr v.seq w 0
  let row := v.half addr false
  let col := v.half addr true
  let wide := bit w 39
  let xs := halfSamples wide row.data
  let ys := halfSamples wide col.data
  let lat := if wide then 8 else 6
  let tr := v.trailer v.bank
  let i0 := if wide then 32 * fld w 38 38 else 0
  let j0 := if wide then 32 * fld w 37 37 else 0
  let tr := { tr with poison := tr.poison || row.poison || col.poison, zrow := tr.zrow ||| zeroMask i0 xs
                      zcol := tr.zcol ||| zeroMask j0 ys }
  let gap := v.gap || xs.any (·.2) || ys.any (·.2)
  let set : IncSet := { time := t + lat, bank := v.bank, incs := corrIncs w xs ys }
  let v := { v.setTrailer v.bank tr with gap := gap, stepBank := some v.bank, incs := v.incs ++ [set] }
  ((s.setPn p (if bit w 35 then v.countStep v.bank else v)).intoBank p v.bank (t + lat)).count R.PAN_STEPS p

/-- A weight of the active set. -/
def Pan.weight (p : Pan) (i j : Nat) : Int × Int :=
  let g := mget wDflt p.wts (128 * b2n p.active + 2 * i + j / 32)
  ((g.data.getD (2 * (j % 32)) 0).toInt, (g.data.getD (2 * (j % 32) + 1) 0).toInt)

/-- A pan's partial sum for cell row i (R254). -/
def Pan.rowSum (p : Pan) (ys : List ((Int × Int) × Bool)) (i : Nat) : Int × Int :=
  (ys.zipIdx).foldl (fun a y =>
    let w := p.weight i y.2
    let v := y.1.1
    (a.1 + w.1 * v.1 - w.2 * v.2, a.2 + w.1 * v.2 + w.2 * v.1)) (0, 0)

/-- Whether a weight of the active set carries a poison mark (R256). -/
def Pan.weightsPoison (p : Pan) : Bool :=
  (List.range 128).any fun g => (mget wDflt p.wts (128 * b2n p.active + g)).poison

/-- A beam step (R254 to R257, R311). A detecting step marks its bank's trailer with its own zero samples at issue; what its
chain and its imports add comes with the increments (R257; DEDUCED, notes/assumptions/90.md). -/
def State.beamStep (s : State) (p t : Nat) (w : Word) : State :=
  let s := s.opsTo p t
  let v := s.pn p
  let col := v.half (opAddr v.seq w 0) true
  let ys := halfSamples false col.data
  let gap := ys.any (·.2)
  let poison := col.poison || v.weightsPoison
  let s := s.chainAdd (p / 16) t ((List.range 64).map (v.rowSum ys)) gap poison
  let last := decide (p % 16 = 15)
  let detects := last && decide (2 ≤ fld w 37 36)
  let tr := v.trailer v.bank
  let v := { v with gap := v.gap || gap, stepBank := some v.bank, lastBeam := some t }
  let v := if detects then v.setTrailer v.bank { tr with zcol := tr.zcol ||| zeroMask 0 ys } else v
  let s := s.setPn p (if bit w 35 then v.countStep v.bank else v)
  let s := if detects then s.intoBank p v.bank (t + 41) else s
  let s := if last then s.closing (p / 16) t w v.bank else s
  s.count R.PAN_STEPS p

/-- Whether a step may not issue now (R270): in the SCLK after a beam step, or in a context of the other kind. -/
def State.stepBarred (s : State) (p t : Nat) (beam : Bool) : Option State :=
  let v := s.pn p
  if !v.jobRun && v.beam != beam then some (s.panKind p)
  else if v.lastBeam.any fun b => decide (t = b + 1) then some (s.panOrder p)
  else none

/-- A step with its bank switch and its stream (R267). -/
def State.stepOp (s : State) (p : Nat) (w : Word) (beam : Bool) : State :=
  let t := (s.pn p).seq.at_
  match s.stepBarred p t beam with
  | some s => s
  | none =>
    let s := if beam then s.beamStep p t w else s.corrStep p t w
    let s := if bit w 34 then s.switchBank p t else s
    if bit w 33 && !beam then s.streamBank p t false else s

/-- A weight load (R266, R267, R271). -/
def State.weightLoad (s : State) (p : Nat) (w : Word) : State :=
  let t := (s.pn p).seq.at_
  let s := s.opsTo p t
  let v := s.pn p
  let h := v.half (opAddr v.seq w (p % 16 * fld w 39 29)) false
  s.setPn p { v with wland := v.wland ++ [{ time := t + 3, idx := 2 * fld w 28 23 + fld w 22 22
                                            w := { data := h.data, poison := h.poison } }] }

/-- The weight sets exchanged (R267). -/
def State.weightSwap (s : State) (p : Nat) : State :=
  let s := s.opsTo p (s.pn p).seq.at_
  s.setPn p { s.pn p with active := !(s.pn p).active }

/-- A pan's `CTX` (R272); in a job it is not executed and counts (R276). -/
def State.ctxOp (s : State) (p : Fin 256) (w : Word) : State :=
  if (s.pn p).jobRun then s.illegal (.pan p)
  else s.setPn p { s.pn p with ctx := fld w 57 55, beam := bit w 54 }

/-- A unit's halt (R264, R276). -/
def State.haltOp (s : State) (u : SeqUnit) : State :=
  match u with
  | .pan p =>
    if (s.pn p).jobRun then (s.setPn p { s.pn p with jobRun := false, jobDone := true }).raise (panPage p) 4
    else s.setSeq u { s.seqOf u with halted := true }
  | _ => s.setSeq u { s.seqOf u with halted := true }

/-- An `FCFG` (R268). -/
def AReg.config (g : AReg) (w : Word) : AReg :=
  let v := fld w 51 19
  match fld w 54 52 with
  | 0 => { g with base := v, inner := 0, outer := 0, anchor := none }
  | 1 => { g with wrap := v }
  | 2 => { g with p := v + 1 }
  | 3 => { g with lag := v }
  | 4 => { g with ostep := v }
  | _ => { g with omod := v }

/-- An index modulo a register's length; with a length of 0 it is open. -/
def State.modIndex (s : State) (v : Int) (m : Nat) : Nat × State :=
  if m = 0 then
    let (i, s) := s.fresh
    ((Config.indexOpen i).toNat, s)
  else ((v % m).toNat, s)

/-- An `FADV` at SCLK t (R260, R268). -/
def State.advOp (s : State) (f t : Nat) (w : Word) : State :=
  let g := mget aregDflt (s.fd f).regs (fld w 57 55)
  let (o, s) := if bit w 54 then s.modIndex (g.outer + g.ostep : Nat) g.omod else (g.outer, s)
  let (i, s) := s.modIndex ((g.inner : Int) + sfld w 53 30) g.wrap
  let g := { g with outer := o, inner := i }
  let g := if bit w 29 then
      let al := 2 ^ fld w 28 24
      if s.arr t < g.lag then { g with anchor := none }
      else { g with anchor := some (((s.arr t).toNat - g.lag) / (s.chanC * g.p * al) * al, s.time.epoch), inner := 0 }
    else g
  let d := s.fd f
  s.setFd f { d with regs := mset aregDflt d.regs (fld w 57 55) g }

/-- The quarters of an entry's part. -/
def partQuarters (bits pos : Nat) : List Nat := if bits = 8 then [2 * pos, 2 * pos + 1] else [pos]

/-- The landings of one transfer (R259): `pos` 8 stands for a raw one. -/
def landings (bits time entry pos : Nat) (data : List Byte) (poison : Bool) : List FLand :=
  if pos = 8 then [{ time := time, entry := entry, quarters := [0, 1, 2, 3], data := data, poison := poison }]
  else
    let sw := if bits = 8 then 2 else 4
    (List.range sw).map fun i => { time := time, entry := (entry + i) % 256, quarters := partQuarters bits pos
                                   data := (data.drop (64 / sw * i)).take (64 / sw), poison := poison }

/-- A transfer's data on their way to a feeder (R238, R262): a scatter transfer read as poison is the zero-weight code, a raw
one is zero; `mark` is the poison mark. -/
def State.feedData (s : State) (f time entry pos : Nat) (data : List Byte) (poison mark : Bool) : State :=
  let d := s.fd f
  let data := if poison && pos != 8 then List.replicate 64 (zeroCode s.sampleBits) else data
  s.setFd f { d with land := d.land ++ landings s.sampleBits time entry pos data (poison || mark) }

/-- The length in SCLK of an epoch that has closed: of the one before the current one, or of the current one, which ends at the
first tide number after its close that is a multiple of 15 (R85, R400). -/
def State.closedLen (s : State) (e : Nat) : Option Nat :=
  if e = s.time.epoch then (if s.time.armPend then some ((s.time.closedAt / 15 + 1) * 15 * tideSclk) else none)
  else some s.sched.prevLen

/-- Whether a scatter transfer of group g is filled with the zero-weight code (R261). -/
def State.zeroGroup (s : State) (g : AReg) (grp : Nat) : Bool :=
  match g.anchor with
  | none => true
  | some (_, e) =>
    let sw := s.specWord
    if e = s.time.epoch ∨ e = s.sched.prevNum then
      (s.closedLen e).any fun len => decide (len < (sw * grp + sw + 7) * s.chanC * g.p)
    else true

/-- One transfer of an `FREAD` (R260 to R262). -/
def State.readOne (s : State) (f t : Nat) (w : Word) (g : AReg) (n : Nat) : State :=
  let bits := s.sampleBits
  let raw := bit w 51
  let pos := if raw then 8 else fld w 50 49
  let entry := (fld w 41 34 + (if raw then n else s.specWord * n)) % 256
  let start := t / 256 * 256
  let at_ := xferTime start n
  let grp := (g.anchor.elim 0 fun a => a.1 / s.specWord) + g.inner + n
  let inner := if raw then (g.inner + n) % g.wrap else grp % g.wrap
  let addr := (g.base + g.outer + inner) * 64
  if !raw ∧ s.zeroGroup g grp = true then
    (s.feedData f at_ entry pos (List.replicate 64 (zeroCode bits)) false false).feederCount f 15 0
  else if s.entry 1 f (t / 256 % 4096) ≠ 4096 + 3072 + fld w 54 52 then
    (s.breach R.BR_HEAP 1 (hPch addr % 512)).feedData f at_ entry pos poisonData true true
  else s.ask { owner := 512 + f, now := true, write := false, addr := addr, data := [], dest := .feeder f entry pos }

/-- An `FREAD` at SCLK t (R260, R262). A late one issues no transfer: its breach names the pseudo-channel of its register's `BASE`
(DEDUCED, notes/assumptions/91.md). -/
def State.readOp (s : State) (f t : Nat) (w : Word) : State :=
  let g := mget aregDflt (s.fd f).regs (fld w 57 55)
  let n := fld w 48 42
  let late := decide (16 ≤ t % 256)
  let s := if late then
      let raw := bit w 51
      let s := (s.feederCount f 31 16).breach R.BR_HEAP 1 (hPch (g.base * 64) % 512)
      (List.range n).foldl (fun s i =>
        s.feedData f (xferTime (t / 256 * 256) i) ((fld w 41 34 + (if raw then i else s.specWord * i)) % 256)
          (if raw then 8 else fld w 50 49) poisonData true true) s
    else (List.range n).foldl (fun s i => s.readOne f t w g i) s
  let d := s.fd f
  s.setFd f { d with regs := mset aregDflt d.regs (fld w 57 55) { g with inner := (g.inner + n) % g.wrap } }

/-- An `FEMIT` at SCLK t (R263): it replaces the rest of an earlier one. -/
def State.emitOp (s : State) (f t : Nat) (w : Word) : State :=
  let s := s.feedTo f (t - 1)
  let d := s.fd f
  let cut := d.emit.elim 0 fun e => e.count - e.next
  let s := s.setFd f { d with emit := some { t := t, e := fld w 57 50, count := fld w 49 41 + 1, addr := fld w 40 30
                                             astep := fld w 29 26, pmask := fld w 25 22, next := 0 } }
  s.feederCount f 47 32 cut

/-- Every operand half poison-marked. -/
def poisonOps (m : Map OpHalf) : Map OpHalf :=
  (m.map fun e => (e.1, { e.2 with poison := true })).filter fun e => e.2 ≠ opDflt e.1

/-- A preemption ended by a swap or halt (R277): the job aborted, what is pending cancelled. -/
def State.endPreempt (s : State) (p : Nat) : State :=
  let v := s.pn p
  let s := if v.preempted then s.raise (panPage p) 5 else s
  s.setPn p { v with preempted := false, prePend := none, resPend := none, jobRun := false }

/-- A bound pan at the start of an image (R253, R274): `cleared` after a reset or a halt. -/
def State.panStart (s : State) (p : Nat) (cleared bound : Bool) : State :=
  let now := s.imgNow
  let s := s.endPreempt p
  let v := s.pn p
  let v := { v with seq := { at_ := now }, ctx := 0, beam := false, wts := [], active := false, opm := poisonOps v.opm }
  let v := if cleared then { v with acc := [], tr0 := {}, tr1 := {}, incs := [], bank := false, gap := false, wland := []
                                    opq := [], busy := 0, filling := 0, fill := none, visible0 := 0, visible1 := 0
                                    stepBank := none, lastBeam := none }
    else { v with bank := v.stepBank.elim v.bank (!·), stepBank := none }
  let s := s.setPn p v
  if bound then s.setHdr (panPage p) hCtrl (setBit (s.hdr (panPage p) hCtrl) 0) else s

/-- A feeder at the start of an image (R260, R274). -/
def State.feederStart (s : State) (f : Nat) (cleared bound : Bool) : State :=
  let d := s.fd f
  let q : Seq := { at_ := s.imgNow }
  let s := s.setFd f (if cleared then { seq := q } else { d with seq := q, regs := [] })
  let pg := 0x30 + feederIdx f
  if bound then s.setHdr pg hCtrl (setBit (s.hdr pg hCtrl) 0) else s

/-- A preemption carried out at the boundary of its tide (R275): what feeders have written until then stands, later writes are
ignored (R276). -/
def State.preempt (s : State) (p : Nat) : State :=
  let s := s.opsTo p s.imgNow
  let v := s.pn p
  (s.setPn p { v with preempted := true, prePend := none, savedBank := v.bank, savedCtx := v.ctx, savedBeam := v.beam }).raise
    (panPage p) 3

/-- A resumption carried out at the boundary of its tide (R277). -/
def State.resume (s : State) (p : Nat) : State :=
  let s := s.opsTo p s.imgNow
  let v := s.pn p
  let v := { v with preempted := false, resPend := none, bank := v.savedBank, ctx := v.savedCtx, beam := v.savedBeam
                    acc := [], tr0 := {}, tr1 := {}, incs := [], gap := false, opm := poisonOps v.opm, wland := []
                    wts := (List.range 256).map fun g => (g, { data := poisonData, poison := true })
                    seq := { v.seq with at_ := s.imgNow, halted := false } }
  (s.setPn p v).raise (panPage p) 5

/-- `PAN_XCMD` on a pan (R275 to R279), after its checks. -/
def State.panXcmd (s : State) (p : Nat) (v : Word) : State :=
  let x := s.pn p
  let tide := (s.rd R.PAN_XTIDE p).toNat
  if bit v 0 then s.setPn p { x with prePend := some tide }
  else if bit v 1 then s.setPn p { x with resPend := some tide }
  else if bit v 2 then
    s.setPn p { x with jobRun := true, jobDone := false, seq := { x.seq with pc := 0, at_ := s.imgNow, setups := 0, halted := false } }
  else if bit v 3 then s.setPn p { x with jobRun := false }
  else s

/-- Eight bytes of operand memory written in a preempted pan (R279): the half's poison mark clears. -/
def State.opmWrite (s : State) (p word part : Nat) (v : Word) : State :=
  let x := s.pn p
  let h := x.half word (decide (8 ≤ part))
  let h : OpHalf := { data := putBytes h.data (8 * (part % 8)) (leBytes 8 v.toNat), poison := false }
  s.setPn p { x with opm := mset opDflt x.opm (2 * word + b2n (decide (8 ≤ part))) h }

/-- Eight bytes of operand memory read. -/
def State.opmRead (s : State) (p w part : Nat) : Word :=
  word (leNat (((((s.pn p).settleOps (s.feedsPan p) s.imgNow).half w (decide (8 ≤ part))).data.drop (8 * (part % 8))).take 8))

/-- `ACC_DATA` and `ACC_STAT.WRAP` of a bank's entry (R257, R279). -/
def State.accRead (s : State) (p : Nat) (bank : Bool) (e : Nat) : Word × Bool :=
  let v := s.pn p
  let tr := v.trailer bank
  if e < 4096 then
    let x := mget accDflt v.acc (4096 * b2n bank + e)
    (word (at_ 32 (field2c 32 x.im) + field2c 32 x.re), x.wrap)
  else if e = 4096 then (word (at_ 63 (b2n tr.poison) + at_ 28 tr.steps + tr.gsteps), false)
  else if e = 4097 then (word tr.zrow, false)
  else (word tr.zcol, false)

/-- `FEED_R_STAT` or `FEED_C_STAT` of a feeder (R279). -/
def State.feedStat (s : State) (f : Nat) : Word :=
  let d := s.fd f
  word (at_ 52 (d.seq.pc % 4096) + at_ 51 (b2n d.seq.halted)
    + at_ 50 (b2n (d.emit.any fun e => decide (s.imgNow < e.t + e.count))))

end Sys2Proof.Machine
end

