-- ==== Sys2Proof/Machine/EthOps.lean ====
section
/-! DEFINITION. Ethernet ports (spec/12): binding, received frames and their rings, transmit rings, Bryniz packets, low-power
idle. -/

namespace Sys2Proof.Machine

/-- The page of a port. -/
def ethPage (e : Nat) : Nat := 0x54 + e / 8
/-- `ETH_STAT.STATE` as the model holds it. -/
def State.ethState (s : State) (e : Nat) : Nat := s.rdf R.ETH_STAT e 3 0
/-- `ETH_STAT.STATE`, written. -/
def State.setEth (s : State) (e st : Nat) : State := s.wrf R.ETH_STAT e 3 0 st
/-- `MAX_LEN`. -/
def State.ethMax (s : State) (e : Nat) : Nat := s.rdf R.ETH_CFG e 63 48
/-- `QUAD`. -/
def State.ethQuad (s : State) (e : Nat) : Nat := s.rdf R.ETH_CFG e 47 40

/-- A port that leaves `ACTIVE` (R333, R334): the marks of an established link clear, `PG_EVT` bit 1 sets. -/
def State.ethDown (s : State) (e : Nat) : State :=
  let w := s.rd R.ETH_STAT e
  (s.wr R.ETH_STAT e (setFld (setFld w 12 8 0) 3 0 1)).raise (ethPage e) 1

/-- What a port's quad, page and lanes make of it (R331, R333, R334). -/
def State.ethEval (s : State) (e : Nat) : State :=
  let q := s.ethQuad e
  let taken := (List.range e).any fun x => s.enabled (ethPage x) && s.ethQuad x == q
  let refused := s.rdf R.QUAD_MODE q 1 0 != 2 || taken
  let prbs := (quadLanes q 4).any s.prbsOn
  if !s.enabled (ethPage e) then (if s.rd R.ETH_STAT e = 0 then s else s.wr R.ETH_STAT e 0)
  else if refused then
    if s.ethState e = 6 then s else (s.wr R.ETH_STAT e (word (at_ 14 1 + 6))).raise (ethPage e) 2
  else
    let s := if s.ethState e = 0 ∨ s.ethState e = 6 then s.wr R.ETH_STAT e 1 else s
    let s := if prbs ∧ s.ethState e = 3 then s.ethDown e else s
    if s.rdb R.ETH_STAT e 13 = prbs then s else s.wrb R.ETH_STAT e 13 prbs

/-- Every port evaluated. -/
def State.ethEvalAll (s : State) : State := (List.range 32).foldl State.ethEval s

/-- A 16-bit field of a frame, most significant byte first. -/
def be16 (f : List Byte) (i : Nat) : Nat := beNat ((f.drop i).take 2)
/-- Whether a frame carries a C-tag (R332). -/
def tagged (f : List Byte) : Bool := be16 f 12 == 0x8100
/-- Where what follows the EtherType begins. -/
def l3At (f : List Byte) : Nat := if tagged f then 18 else 14
/-- The EtherType after any C-tag. -/
def etherType (f : List Byte) : Nat := be16 f (l3At f - 2)
/-- The VLAN ID of a C-tag. -/
def vlanId (f : List Byte) : Nat := be16 f 14 % 4096

/-- The IPv4 Protocol, or the Next Header of the IPv6 fixed header (R336, R337). -/
def protoOf (f : List Byte) : Option Nat :=
  let a := l3At f
  if etherType f = 0x0800 then (f[a + 9]?).map (·.toNat)
  else if etherType f = 0x86DD then (f[a + 6]?).map (·.toNat)
  else none

/-- The UDP destination port that a filter compares (R337). -/
def udpDst (f : List Byte) : Option Nat :=
  let a := l3At f
  if protoOf f ≠ some 17 then none
  else
    let o := if etherType f = 0x0800 then a + (f.getD a 0).toNat % 16 * 4 else a + 40
    if etherType f = 0x0800 ∧ be16 f (a + 6) % 8192 ≠ 0 then none
    else if o + 4 ≤ f.length then some (be16 f (o + 2)) else none

/-- Whether a frame matches a filter entry (R336, R337). -/
def Filter.matches (x : Filter) (port : Nat) (f : List Byte) : Bool :=
  let on (i : Nat) (b : Bool) : Bool := !bit x.w0 i || b
  bit x.w0 63
    && on 55 (fld x.w2 20 16 == port)
    && on 54 (fld x.w0 47 0 == beNat (f.take 6))
    && on 53 (tagged f && vlanId f == fld x.w1 35 24)
    && on 52 (!tagged f || vlanId f == 0)
    && on 51 (etherType f == fld x.w1 63 48)
    && on 50 (protoOf f == some (fld x.w1 47 40))
    && on 49 (udpDst f == some (fld x.w1 15 0))

/-- A filter entry at reset. -/
def filterDflt (_ : Nat) : Filter := {}

/-- The lowest matching entry. -/
def State.filterOf (s : State) (port : Nat) (f : List Byte) : Option (Nat × Filter) :=
  (s.net.filter.find? fun e => e.2.matches port f).map fun e => (e.1, e.2)

/-- A time stamp in quarter nanoseconds shifted by an adjustment in ps (R347, R355). -/
def adjustStamp (q adj : Int) : Int := q + divEven adj 250

/-- A time stamp in quarter nanoseconds as seconds, and nanoseconds with quarters at [63:30]. -/
def stampWords (q : Int) : Word × Word :=
  let n := q.toNat
  (word (n / 4000000000), word (at_ 32 (n / 4 % 1000000000) + at_ 30 (n % 4)))

/-- The time base that a port's time stamps are taken on, in quarter nanoseconds, `d` 1/25 SCLK from now (R347). -/
def State.tbQuarters (s : State) (tb : Nat) (d : Int) : Int :=
  let now := match tb with
    | 0 => s.time.tb0
    | 1 => s.time.tb1
    | 2 => 4 * unitsNs * s.rclk
    | _ => s.time.tb3
  (25 * now + unitsSclk * d) * 4 / (25 * unitsNs)

/-- The time stamp of a frame whose time stamp point crosses the package balls `d` 1/25 SCLK from now, with the port's PHY latency
`phy` added: within ±1 ns of the event, on the port's time base, with the port's adjustment `adj` in ps (R347). -/
def State.stamp (s : State) (e : Nat) (d phy adj : Int) : Int × State :=
  let (i, s) := s.fresh
  let q := s.tbQuarters (s.rdf R.ETH_CFG e 35 34) d + phy
  (adjustStamp (q + (Config.stampDev i % 9 - 4)) adj, s)

/-- The time stamp of a frame received, of which the last byte has come now: its first byte crossed the balls its line time and the
port's PHY latency ago (R347; DESIGN CHOICE, notes/assumptions/272.md). -/
def State.rxStamp (s : State) (e bytes : Nat) : Int × State :=
  s.stamp e (-(3 * (bytes : Int))) (-(Config.phyDelay e)) (sfld (s.rd R.TS_XADJ e) 31 0)

/-- A checked frame handed to its ring (R338). `filter` is 1,023 where no entry matched. -/
def State.rxToRing (s : State) (e r filter : Nat) (ts : Bool) (f : List Byte) : State :=
  let g := s.ring r
  let n := f.length
  let page := ethPage e
  let pressed := s.pressed page
  if !g.on ∨ g.type ≠ 3 then s.countf R.RX_RING e 63 48
  else if g.size ≤ g.used then (s.countf R.RX_RING e 47 32).ringFull r
  else if pressed then s.countf R.RX_RING e 47 32
  else if 2 ^ fld g.d3 63 60 < n then s.countf R.RX_RING e 31 16
  else
    let buf := fld g.d3 47 0 + g.alloc % g.size * 2 ^ fld g.d3 63 60
    let (q, s) := s.rxStamp e (n + 4)
    let (sec, ns) := stampWords q
    let ws := [word (at_ 48 n + at_ 38 filter + at_ 33 e + at_ 32 (b2n ts)), word buf, if ts then sec else 0,
               if ts then ns else 0, 0, 0, 0, 0]
    let (id, s) := s.ringAlloc r ws (some e) none (n + 4)
    let parts := bursts buf n (n + 1) 0
    let s := s.setPort e { s.port e with stage := (s.port e).stage + n + 4 }
    let s := match pget s.net.jobs id with
      | some j => s.setJob id (some { j with left := parts.length })
      | none => s
    parts.foldl (fun s x => s.enter 7 false true (buf + x.1) x.2 ((f.drop x.1).take x.2) none (.rxWrite id)) s

/-- A frame that has passed its checks (R336 to R338, R347): classified and handed on, its FCS removed. -/
def State.rxClassify (s : State) (e : Nat) (f : List Byte) : State :=
  let cfg := s.rd R.ETH_CFG e
  match s.filterOf e f with
  | some (i, x) =>
    if bit x.w2 12 then s.countf R.RX_DROP e 31 16
    else s.rxToRing e (fld x.w2 11 0) i (bit x.w2 13 || bit cfg 33) f
  | none =>
    if bit cfg 13 then s.rxToRing e (fld cfg 11 0) 0x3FF (bit cfg 33) f
    else s.countf R.RX_DROP e 47 32

/-- An arriving frame (R335): dropped at the first check that fails. Its code words are counted (R355), and the peer's transmitter is
awake (R348). -/
def State.rxFrame (s : State) (e : Nat) (f : List Byte) (obs : FrameObs) : State :=
  let n := f.length
  let s := (s.count R.FEC_CORR e obs.corrected.toNat).count R.FEC_UNCORR e obs.uncorrectable.toNat
  let s := if s.rdb R.ETH_STAT e 12 then s.wrb R.ETH_STAT e 12 false else s
  if 262144 < (s.port e).stage + s.ethMax e then s.countf R.RX_DROP e 15 0
  else if obs.codeErr || obs.uncorrectable != 0 then s.countf R.RX_BAD e 63 48
  else if n < 64 then s.countf R.RX_BAD e 47 32
  else if s.ethMax e < n then s.countf R.RX_BAD e 31 16
  else if leNat (f.drop (n - 4)) ≠ crc32 (f.take (n - 4)) then s.countf R.RX_BAD e 15 0
  else if etherType f = 0x8808 then s.countf R.RX_DROP e 63 48
  else s.rxClassify e (f.take (n - 4))

/-- Slots of one class in a port's map that follow a slot without a gap, up to a whole map. -/
def State.runAfter (s : State) (e : Nat) (c : SlotClass) : Nat → Nat → Nat
  | 0, _ => 0
  | n + 1, slot => if s.classAt 2 e (slot % 4096) = some c then 1 + s.runAfter e c n (slot + 1) else 0

/-- Slots of one class that come before a slot without a gap. -/
def State.runBefore (s : State) (e : Nat) (c : SlotClass) : Nat → Nat → Nat
  | 0, _ => 0
  | n + 1, slot => if s.classAt 2 e ((slot + 4095) % 4096) = some c then 1 + s.runBefore e c n (slot + 4095) else 0

/-- The run of a port that holds the slot in progress (R133): its first slot of the epoch and its length; a map of one
class throughout is one run without end. -/
def State.ethRun (s : State) (e : Nat) (c : SlotClass) : Option (Nat × Nat) :=
  let n := s.runAfter e c 4096 s.slot
  if n = 0 then none
  else if n = 4096 then some (0, 2 ^ 62)
  else
    let b := min (s.runBefore e c 4096 s.slot) s.absSlot
    some (s.absSlot - b, b + n)

/-- Whether a frame that starts at an offset in 1/25 SCLK ends within a run (R133). -/
def fitsRun (o bytes len : Nat) : Bool := decide (o + 1600 + 3 * (bytes + 20) ≤ 6400 * len)

/-- Where the next frame of a run would start, in 1/25 SCLK of the run. -/
def State.runOffset (s : State) (e first : Nat) : Nat :=
  let now := 25 * ((s.absSlot - first) * 256 + s.time.pos % 256)
  match (s.port e).run with
  | some (f, o) => if f = first then max o now else now
  | none => now

/-- Whether some run of one class in a port's map holds a frame (R133, R340). -/
def State.someRunFits (s : State) (e : Nat) (c : SlotClass) (bytes : Nat) : Bool :=
  (List.range 4096).any fun t => fitsRun 0 bytes (s.runAfter e c 4096 t)

/-- A frame's place in a run taken: the run's next free offset set (R133). -/
def State.ethTake (s : State) (e first o bytes : Nat) : State :=
  s.setPort e { s.port e with run := some (first, o + 3 * (bytes + 20)) }

/-- A frame put on the line, counted and recorded. -/
def State.ethSend (s : State) (e : Nat) (bytes : List Byte) : State :=
  ((s.count R.TX_FRAMES e).count R.TX_BYTES e bytes.length).emit (.frame e bytes)

/-- A frame with its FCS, padded to 64 bytes. -/
def withFcs (f : List Byte) : List Byte :=
  let f := f ++ List.replicate (60 - f.length) 0
  f ++ leBytes 4 (crc32 f)

/-- The time stamp of a frame that starts at an offset of a run: its first byte crosses the balls the port's PHY latency after it is on
the MAC (R133, R347). -/
def State.txStamp (s : State) (e first o : Nat) : Int × State :=
  let at_ := first * 6400 + o + 1600
  let now := 25 * (s.absSlot * 256 + s.time.pos % 256)
  s.stamp e (at_ - now) (Config.phyDelay e) (sfld (s.rd R.TS_XADJ e) 63 32)

/-- A ones'-complement checksum corrected for bytes replaced from `at_` on (R347); a byte's weight goes by its distance
from the checksum field. -/
def fixSum (old : Nat) (at_ sumAt : Nat) (was now : List Byte) : Nat :=
  let weight (i : Nat) : Nat := if (at_ + i + sumAt) % 2 = 0 then 256 else 1
  let total (bs : List Byte) : Nat := ((bs.zipIdx).map fun x => x.1.toNat * weight x.2).sum
  65535 - (65535 - old + total now + 65535 * 65535 - total was) % 65535

/-- The one-step time stamp written into a frame (R347). -/
def oneStep (w0 : Word) (f : List Byte) (q : Int) : List Byte :=
  let at_ := fld w0 29 16
  let n := q.toNat / 4
  let stamp := beBytes 6 (n / 1000000000) ++ beBytes 4 (n % 1000000000)
  let g := putBytes f at_ stamp
  if bit w0 45 then
    let c := fld w0 13 0
    putBytes g c (beBytes 2 (fixSum (be16 f c) at_ c ((f.drop at_).take 10) stamp))
  else g

/-- Why a transmit entry is completed without being sent as `STATUS` 1 (R340). -/
def txEntryBad (max : Nat) (ws : List Word) : Bool :=
  let w0 := ws.getD 0 0
  let len := fld w0 63 48
  outside len 14 (max - 4) || fld w0 44 30 != 0 || fld w0 15 14 != 0 || fld (ws.getD 1 0) 63 48 != 0
    || ws.getD 2 0 != 0 || ws.getD 3 0 != 0 || ws.getD 4 0 != 0
    || (bit w0 46 && decide (len < fld w0 29 16 + 10)) || (bit w0 45 && decide (len < fld w0 13 0 + 2))

/-- A transmit entry completed (R340): words 5 to 7 are written, and `HEAD` advances once they are. -/
def State.txComplete (s : State) (e : Nat) (x : TxJob) (status : Nat) (stamp : Option Int) : State :=
  let s := match status with
    | 0 => s
    | 3 => s.countf R.TX_ERR e 63 48
    | _ => s.countf R.TX_ERR e 47 32
  let (sec, ns) := (stamp.map stampWords).getD (0, 0)
  let s := s.setPort e { s.port e with tx := none, last := x.ring, lastReady := s.time.total }
  let data := ([ns, sec, word (at_ 63 1 + at_ 56 status)].map fun w => leBytes 8 w.toNat).flatten
  s.enter 8 false true ((s.ring x.ring).slot x.idx + 40) 24 data none (.txDone e x.ring x.idx)

/-- The transmit ring that a port serves next: round-robin in ascending number (R339). -/
def State.txRing (s : State) (e : Nat) : Option Nat :=
  let ok (r : Nat) : Bool :=
    let g := s.ring r
    g.on && g.type == 4 && fld g.d3 52 48 == e && g.fetched != g.tail
  let rs := (s.net.ring.map (·.1)).filter ok
  match rs.find? fun r => (s.port e).last < r with
  | some r => some r
  | none => rs.head?

/-- Whether the port has a ring frame to send (R348). -/
def State.txWaiting (s : State) (e : Nat) : Bool := (s.port e).tx.isSome || (s.txRing e).isSome

/-- Every port that had a ring frame ready keeps the time of it (R348). -/
def State.markReady (s s0 : State) : State :=
  (s0.net.port.map (·.1)).foldl (fun s e =>
    if s0.txWaiting e then s.setPort e { s.port e with lastReady := s.time.total } else s) s

/-- The transmitter of a port leaves low-power idle: it is awake once the fast-wake time has passed (R348). -/
def State.lpiWake (s : State) (e : Nat) : State :=
  if s.rdb R.ETH_STAT e 11 then
    (s.wrb R.ETH_STAT e 11 false).setPort e { s.port e with
      wakeAt := s.time.total + Config.fastWake (s.rdf R.ETH_CFG e 12 12) }
  else s

/-- Whether the fetch of a frame waits for the port's test delay (R339): `DELAY` FCLK from when it could be made. -/
def State.fetchWaits (s : State) (e : Nat) : Bool :=
  match (s.port e).fetchAt with
  | some t => decide (s.time.total < t)
  | none => decide (fld (s.hdr (ethPage e) hPerturb) 9 0 ≠ 0)

/-- A frame's reads asked for, once no test delay holds them (R339). -/
def State.txFetch (s : State) (e : Nat) (x : TxJob) (a len : Nat) : State :=
  let p := s.port e
  if s.fetchWaits e then
    if p.fetchAt.isSome then s
    else s.setPort e { p with fetchAt := some (s.time.total + 2 * fld (s.hdr (ethPage e) hPerturb) 9 0) }
  else
    let parts := bursts a len (len + 1) 0
    let s := s.setPort e { p with tx := some { x with frame := List.replicate len 0, left := parts.length }, fetchAt := none }
    parts.foldl (fun s b => s.enter 8 false false (a + b.1) b.2 [] none (.txRead e b.1)) s

/-- A port's transmit reader carried one step on (R339, R340): the next entry fetched, its frame fetched, or the frame
sent in the `OPEN` run in progress if it fits. -/
def State.txStep (s : State) (e : Nat) : State :=
  match (s.port e).tx with
  | none =>
    match s.txRing e with
    | none => s
    | some r =>
      let g := s.ring r
      let s := s.setRing r { g with fetched := (g.fetched + 1) % 2 ^ 32 }
      let s := s.setPort e { s.port e with tx := some { ring := r, idx := g.fetched, left := 1 } }
      s.enter 8 false false (g.slot g.fetched) 64 [] none (.txEntry e)
  | some x =>
    match x.entry with
    | none => s
    | some ws =>
      let w0 := ws.getD 0 0
      let len := fld w0 63 48
      if x.bad ∧ x.left = 0 then s.txComplete e x 2 none
      else if x.ready then
        let bytes := max 60 len + 4
        if !s.someRunFits e .open_ bytes then s.txComplete e x 3 none
        else
          match s.ethRun e .open_ with
          | none => s
          | some (first, n) =>
            let o := s.runOffset e first
            if !fitsRun o bytes n ∨ s.rdb R.ETH_STAT e 11 = true ∨ s.time.total < (s.port e).wakeAt then s
            else
              let (q, s) := s.txStamp e first o
              let f := if bit w0 46 then oneStep w0 x.frame q else x.frame
              ((s.ethTake e first o bytes).ethSend e (withFcs f)).txComplete e x 0 (if bit w0 47 then some q else none)
      else if x.left ≠ 0 then s
      else if txEntryBad (s.ethMax e) ws then s.txComplete e x 1 none
      else
        s.txFetch e x (fld (ws.getD 1 0) 47 0) len

/-- A source's state. -/
def sourceDflt (_ : Nat) : Source := {}
/-- Source k of a port. -/
def State.src (s : State) (e k : Nat) : Source := mget sourceDflt (s.port e).sources k
/-- A source, written. -/
def State.setSrc (s : State) (e k : Nat) (v : Source) : State :=
  let p := s.port e
  s.setPort e { p with sources := mset sourceDflt p.sources k v }

/-- A block notified to a source (R341); a 65th unread one discards the oldest. -/
def State.noticeOne (s : State) (e k kind addr len : Nat) : State :=
  let x := s.src e k
  let b : Block := { src := k, seq := x.blockSeq, addr := addr, len := len, kind := kind }
  let s := s.setSrc e k { x with blockSeq := (x.blockSeq + 1) % 2 ^ 32 }
  let p := s.port e
  if (p.order.filter fun y => y.src = k).length < 64 then s.setPort e { p with order := p.order ++ [b] }
  else
    let rest := match p.order.find? fun y => y.src = k with
      | some y => p.order.erase y
      | none => p.order
    let s := s.setPort e { p with order := rest ++ [b] }
    ((s.setSrc e k { s.src e k with skip := true }).countf R.TX_ERR e 15 0).raise (ethPage e) 3

/-- A block notified to every source that names its producer (R341): `prod` 0 dump, 1 voltage, 2 resample. -/
def State.notice (s : State) (prod idx addr len : Nat) : State :=
  (List.range 512).foldl (fun s i =>
    let w := s.rd R.OUT_SRC (i / 16) (i % 16)
    if bit w 7 && fld w 15 14 == prod && fld w 13 8 == idx then s.noticeOne (i / 16) (i % 16) (prod + 1) addr len else s) s

/-- A word of the working destination table. -/
def State.dstWord (s : State) (dest i : Nat) : Word := mget (fun _ => (0 : Word)) s.net.dstWork (8 * dest + i)

/-- The destination entry of a source. -/
def State.srcDest (s : State) (e k : Nat) : Nat := fld (s.rd R.OUT_SRC e k) 5 0

/-- H of a source's packets (R342). -/
def State.headBytes (s : State) (e k : Nat) : Nat :=
  let w := s.dstWord (s.srcDest e k) 2
  14 + (if bit w 63 then 4 else 0) + (if bit w 40 then 40 else 20) + 8 + 64 + 4

/-- F of a source's packets (R342). -/
def State.fragBytes (s : State) (e k : Nat) : Nat := min 8192 (64 * ((s.ethMax e - s.headBytes e k) / 64))

/-- The reads of a fragment asked for the port's slots (R343). -/
def State.askFragment (s : State) (e : Nat) (f : Fragment) : State :=
  let s := s.setPort e { s.port e with reading := some f }
  (List.range f.left).foldl (fun s i =>
    s.ask { owner := 1536 + e, now := false, write := false, addr := f.block.addr + f.ofs + 64 * i, data := []
            dest := .fragment e i }) s

/-- The next fragment begun, if none is being read (R343): blocks in the order of their notices. -/
def State.readNext (s : State) (e : Nat) : State :=
  let p := s.port e
  match p.reading, p.order with
  | none, b :: rest =>
    let size := max 64 (s.fragBytes e b.src)
    let len := min size b.len
    (s.setPort e { p with order := rest }).askFragment e
      { block := b, size := size, frag := 0, ofs := 0, len := len, hdr := [], parts := [], left := (len + 63) / 64
        poison := false }
  | _, _ => s

/-- A fragment's transfer read, its data there at an SCLK (R122, R238, R343). -/
def State.fragmentRead (s : State) (time e place : Nat) (data : List Byte) (poison : Bool) : State :=
  match (s.port e).reading with
  | none => s
  | some f =>
    let f := { f with parts := minsert place data (merase f.parts place), left := f.left - 1, poison := f.poison || poison
                      time := max f.time time
                      hdr := if f.frag = 0 ∧ place = 0 then data else f.hdr }
    if f.left = 0 then
      let p := s.port e
      let s := s.setPort e { p with reading := none, ready := p.ready ++ [f] }
      let next := f.ofs + f.len
      if next < f.block.len then
        let len := min f.size (f.block.len - next)
        s.askFragment e { f with frag := f.frag + 1, ofs := next, len := len, parts := [], left := (len + 63) / 64 }
      else s.readNext e
    else s.setPort e { s.port e with reading := some f }

/-- The flags of word 6 that a block's header gives (R345): bits [8:0] but for `SKIP`. -/
def blockFlags (kind : Nat) (ws : List Word) : Nat :=
  let w1 := ws.getD 1 0
  let w6 := ws.getD 6 0
  match kind with
  | 1 => at_ 6 (fld w6 52 52) + at_ 5 (fld w6 55 55) + at_ 4 (fld w6 54 54) + at_ 3 (fld w6 53 53) + at_ 2 (fld w6 50 50)
      + at_ 1 (fld w6 51 51) + fld w6 49 49
  | 2 => at_ 7 (fld w1 37 37) + at_ 4 (fld w1 38 38) + at_ 3 (fld w1 39 39) + at_ 2 (fld w1 35 35) + at_ 1 (fld w1 36 36)
      + fld w1 34 34
  | _ => at_ 4 (fld w1 42 42) + at_ 3 (fld w1 43 43)

/-- The conditions of R12 as word 6 shows them. -/
def flagsOf (c : Nat) : Nat := c % 2 + at_ 2 (c / 2 % 2) + at_ 1 (c / 4 % 2)

/-- The Bryniz header of a fragment without its CRC (R345). `tide` is the tide in which the first byte reaches the MAC. -/
def State.brynizWords (s : State) (e : Nat) (x : Flight) (tide : Nat) : List Word :=
  let f := x.frag
  let k := f.block.src
  let ws := xferWords f.hdr
  let member := if s.meshZ = 0 then 0xFF else s.meshSelf
  let cond := s.heldIn ((tide : Int) - 1) tide ||| s.condBits
  let flags := blockFlags f.block.kind ws ||| flagsOf cond ||| at_ 8 (b2n x.skip) ||| at_ 4 (b2n f.poison)
  let ptime := if f.block.kind = 1 then word ((ws.getD 4 0).toNat * 2 ^ 20) else ws.getD 0 0
  [word (at_ 48 0x425A + at_ 40 1 + at_ 36 f.block.kind + x.seq),
   word (at_ 56 member + at_ 48 e + at_ 40 k + s.time.epoch % 2 ^ 32), word tide, ptime,
   word (at_ 32 f.block.seq + at_ 16 f.frag + (f.block.len + f.size - 1) / f.size),
   word (at_ 32 f.len + f.ofs), word flags]

/-- The ones'-complement sum of a byte string in 16-bit words, complemented. -/
def inetSum (bs : List Byte) : Nat :=
  let t := ((bs.zipIdx).map fun x => x.1.toNat * (if x.2 % 2 = 0 then 256 else 1)).sum
  let fold := if t = 0 then 0 else (t - 1) % 65535 + 1
  65535 - fold

/-- A packet's frame without its FCS (R344). -/
def State.brynizFrame (s : State) (e : Nat) (x : Flight) (tide : Nat) : List Byte :=
  let f := x.frag
  let k := f.block.src
  let d (i : Nat) : Word := s.dstWord (s.srcDest e k) i
  let w2 := d 2
  let v6 := bit w2 40
  let payload := (((List.range ((f.len + 63) / 64)).map fun i => mget (fun _ => poisonData) f.parts i).flatten).take f.len
  let hdr := ((s.brynizWords e x tide).map fun w => leBytes 8 w.toNat).flatten
  let body := hdr ++ leBytes 8 (crc32c (hdr ++ payload)) ++ payload
  let udpLen := 8 + body.length
  let addr (i : Nat) : List Byte := if v6 then beBytes 8 (d i).toNat ++ beBytes 8 (d (i + 1)).toNat else beBytes 4 (fld (d i) 31 0)
  let ports := beBytes 2 (fld (d 3) 31 16) ++ beBytes 2 (fld (d 3) 15 0)
  let pseudo := if v6 then addr 4 ++ addr 6 ++ beBytes 4 udpLen ++ beBytes 4 17
    else addr 4 ++ addr 6 ++ beBytes 2 17 ++ beBytes 2 udpLen
  let sum := inetSum (pseudo ++ ports ++ beBytes 2 udpLen ++ beBytes 2 0 ++ body)
  let udp := ports ++ beBytes 2 udpLen ++ beBytes 2 (if sum = 0 then 0xFFFF else sum) ++ body
  let ip4 (c : Nat) : List Byte :=
    [0x45, BitVec.ofNat 8 (fld w2 31 24)] ++ beBytes 2 (20 + udpLen) ++ beBytes 2 x.seq ++ beBytes 2 0x4000
      ++ [BitVec.ofNat 8 (fld w2 39 32), 17] ++ beBytes 2 c ++ addr 4 ++ addr 6
  let ip := if v6 then
      beBytes 4 (6 * 2 ^ 28 + fld w2 31 24 * 2 ^ 20 + fld w2 19 0) ++ beBytes 2 udpLen
        ++ [17, BitVec.ofNat 8 (fld w2 39 32)] ++ addr 4 ++ addr 6
    else ip4 (inetSum (ip4 0))
  let tag := if bit w2 63 then beBytes 2 0x8100 ++ beBytes 2 (fld w2 62 60 * 2 ^ 13 + fld w2 59 48) else []
  beBytes 6 (fld (d 0) 47 0) ++ beBytes 6 (fld (d 1) 47 0) ++ tag ++ beBytes 2 (if v6 then 0x86DD else 0x0800) ++ ip ++ udp

/-- A ready fragment passed: its packet number is used. -/
def State.passFragment (s : State) (e : Nat) (f : Fragment) : State :=
  let p := s.port e
  let s := s.setPort e { p with ready := p.ready.drop 1 }
  let x := s.src e f.block.src
  s.setSrc e f.block.src { x with streamSeq := (x.streamSeq + 1) % 2 ^ 32 }

/-- The next ready fragment, if its data are there, given its place in the `UNIT` run in progress (R334, R343, R345). -/
def State.brynizSend (s : State) (e : Nat) : State :=
  match (s.port e).ready, s.ethRun e .unit with
  | f :: _, some (first, n) =>
    let bytes := s.headBytes e f.block.src + f.len
    if s.imgNow < f.time then s
    else if s.ethState e ≠ 3 then (s.countf R.TX_ERR e 31 16).passFragment e f
    else if !fitsRun 0 bytes n then (s.breach R.BR_ETH 7 e).passFragment e f
    else
      let o := s.runOffset e first
      if !fitsRun o bytes n then s
      else
        let src := s.src e f.block.src
        let x : Flight := { time := s.time.total - s.time.pos + s.slot * 256 + first * 256 + o / 25 + 64 - s.absSlot * 256
                            frag := f, seq := src.streamSeq, skip := src.skip }
        let s := (s.ethTake e first o bytes).passFragment e f
        let s := s.setPort e { s.port e with flight := (s.port e).flight ++ [x] }
        s.setSrc e f.block.src { s.src e f.block.src with skip := false }
  | _, _ => s

/-- A packet whose first byte has reached the MAC: its frame is formed with the destination and the tide of that SCLK (R344, R345),
and sent; a port that is not `ACTIVE` by then sends none (R334). -/
def State.flightOut (s : State) (e : Nat) (x : Flight) : State :=
  if s.ethState e ≠ 3 then s.countf R.TX_ERR e 31 16
  else
    let tide := s.time.tide - b2n (decide (x.time < s.time.total - s.time.pos))
    s.ethSend e (withFcs (s.brynizFrame e x tide))

/-- The packets of a port whose first byte has reached the MAC before now, sent. -/
def State.flightsNow (s : State) (e : Nat) : State :=
  let p := s.port e
  let due := p.flight.takeWhile fun x => decide (x.time < s.time.total)
  if due = [] then s
  else due.foldl (fun s x => s.flightOut e x) (s.setPort e { p with flight := p.flight.drop due.length })

/-- When a port's next packet is out. -/
def Port.nextTime (p : Port) : Option Nat := p.flight.head?.map fun x => x.time + 1

/-- Whether a pending swap is to an image that gives the port a `UNIT` entry (R348). -/
def State.unitComing (s : State) (e : Nat) : Bool :=
  s.sched.pend.any fun a => !a.halt && (List.range 4096).any fun t => mapEntry (s.storeMem a.store) 2 e t / 4096 == 1

/-- Ports at an image start (R345): the sources begin again; a start after a reset or a halt begins with no block. -/
def State.portStart (s : State) (e : Nat) (cleared : Bool) : State :=
  let p := s.port e
  s.setPort e { p with sources := [], order := if cleared then [] else p.order, reading := if cleared then none else p.reading
                       ready := if cleared then [] else p.ready, flight := if cleared then [] else p.flight }

end Sys2Proof.Machine
end

