-- ==== Sys2Proof/Machine/Pass.lean ====
section
/-! DEFINITION. Time passing (R118): the units' work comes at its own SCLK. What a unit has issued is brought up to date as the
time passes, each event at its time. -/

namespace Sys2Proof.Machine

/-- The earlier of two times. -/
def sooner : Option Nat → Option Nat → Option Nat
  | some a, some b => some (min a b)
  | some a, none => some a
  | none, b => b

/-- The earliest of some times. -/
def soonest (xs : List (Option Nat)) : Option Nat := xs.foldl sooner none

/-- When a feeder's next event comes: data landing, or an emit (R263). -/
def Feeder.nextTime (d : Feeder) : Option Nat :=
  sooner (soonest (d.land.map fun x => some x.time)) (d.emit.bind fun e => if e.next < e.count then some (e.t + e.next) else none)

/-- When a row's next sums reach its last pan (R125). -/
def BeamRow.nextTime (b : BeamRow) : Option Nat := soonest (b.chain.map fun e => some (e.1 + 37))

/-- When a pan's next increments become visible, or its fill ends (R125, R271). -/
def Pan.nextTime (p : Pan) : Option Nat :=
  sooner (soonest (p.incs.map fun x => some x.time)) (p.fill.map fun _ => (p.filling + 1) / 2)

/-- The SCLK of the units' next event. -/
def State.nextUnits (s : State) : Option Nat :=
  let f := soonest (s.pans.feeder.map fun e => e.2.nextTime)
  let r := soonest (s.pans.row.map fun e => e.2.nextTime)
  let p := soonest (s.pans.pan.map fun e => e.2.nextTime)
  let k := soonest (s.pans.rake.map fun e => e.2.nextTime.map (· / 2))
  let e := soonest (s.net.port.map fun e => e.2.nextTime.map fun t => t + s.imgNow - s.time.total)
  let d := s.dmaNextAt.map fun t => t + s.imgNow - s.time.total
  sooner (sooner (sooner f r) (sooner p k)) (sooner (sooner s.linksNext e) d)

/-- The units brought up to now: the DMA engines that a test holds back, links, ports, feeders, then rows, then the pans' banks, then
rakes and fills. -/
def State.unitsNow (s : State) : State :=
  let s := s.dmaNow
  let s := (s.net.port.map (·.1)).foldl State.flightsNow s.linksNow
  let s := (s.pans.feeder.map (·.1)).foldl (fun s f => s.feedTo f s.imgNow) s
  let s := (s.pans.row.map (·.1)).foldl (fun s r => s.rowDue r s.imgNow) s
  let s := (s.pans.pan.map (·.1)).foldl (fun s p => s.incsTo p s.imgNow) s
  let s := (s.pans.rake.map (·.1)).foldl State.rakeNow s
  (s.pans.pan.map (·.1)).foldl (fun s p => s.fillTo p s.imgNow) s

/-- `n` SCLK pass, with the units' events on the way. -/
def State.passBy : Nat → State → Nat → State
  | 0, s, n => s.advance n
  | fuel + 1, s, n =>
    match s.nextUnits with
    | none => s.advance n
    | some t =>
      let d := t - s.imgNow
      if d ≤ n then State.passBy fuel (s.advance d).unitsNow (n - d) else s.advance n

/-- `n` SCLK pass within a tide. -/
def State.pass (s : State) (n : Nat) : State := State.passBy (2 ^ 32) s n

/-- Where no unit has anything on its way, time alone passes. -/
theorem pass_quiet {s : State} (h : s.nextUnits = none) (n : Nat) : s.pass n = s.advance n := by
  simp [State.pass, State.passBy, h]

/-- The state at a slot of the tide: time passes to the slot's first SCLK if the tide is not there yet. -/
def State.atSlot (s : State) (slot : Nat) : State :=
  if s.time.pos < slot * 256 then s.pass (slot * 256 - s.time.pos) else s

/-- The data path's SCLK at which a slot of this tide begins. -/
def State.slotStart (s : State) (slot : Nat) : Nat := s.sched.age * tideSclk + 256 * slot

/-- Time passing to a given SCLK of array time, if it lies ahead in this tide. -/
def State.toSclk (s : State) (t : Nat) : State :=
  if s.nowSclk < t ∧ t / tideSclk = s.time.tide then s.pass (t - s.nowSclk) else s

/-- Time passing to an SCLK of the data path, if it lies ahead in this tide. -/
def State.toImg (s : State) (t : Nat) : State :=
  if s.imgNow < t ∧ t / tideSclk = s.sched.age then s.pass (t - s.imgNow) else s

/-- The instruction that a unit issues next, if its opcode is `op`, it is legal, and its issue does not lie in a later
tide; the state is at its issue. -/
def State.current (s : State) (u : SeqUnit) (op : Nat) : Option (Word × State) :=
  if s.seqLive u = true ∧ (s.seqOf u).at_ / tideSclk ≤ s.sched.age then
    match s.seqWord u (s.seqOf u).pc with
    | some w => if opOf w = op ∧ s.seqLegal u w = true then some (w, s.toImg (s.seqOf u).at_) else none
    | none => none
  else none

end Sys2Proof.Machine
end

