-- ==== Sys2Proof/Machine/HeapBlock.lean ====
section
/-! DEFINITION. The heap's commands (spec/05 R124, spec/08): open service, refresh, mitigation, re-centring, training,
freezes. HEAP_SLOT_TRANSFER is in Slots.lean, where every requester of scheduled data is known. -/

namespace Sys2Proof.Machine

/-- The open requests of a controller that cannot serve are answered with an error response at once (R236). -/
def State.dropUnserved (s : State) (h : Nat) : State :=
  if s.serves h then s else (s.failQueue (2 * h)).failQueue (2 * h + 1)

/-- A controller frozen with a cause (R235): it stops issuing commands, and what waits for it is answered. -/
def State.freeze (s : State) (h m cause : Nat) : State := (s.stopCtl h m cause).dropUnserved h

/-- OPEN_SLOT_SERVICE (R113, R124, R234): an `OPEN` slot of the map in force on a controller that serves. -/
def execOpenSlotService (j : Fin 512) (slot : Fin 4096) (ecc : List EccObs) (s : State) :
    Host.Outcome State Fault Refusal :=
  let t := s.atSlot slot
  done s (
    if t.serves (j.val / 2) then
      if !t.hasOpen 0 j then t.failQueue j
      else if t.classAt 0 j slot = some .open_ then t.openSlot j ecc else t
    else t.dropUnserved (j.val / 2))

/-- HEAP_OPEN_REQUEST (R113, R134, R236, R309): the request arrives at the bridge already checked by the crossbar, so
its generation is the one in force. -/
def execHeapOpenRequest (r : XbarReq) (qos : Fin 16) (s : State) : Host.Outcome State Fault Refusal :=
  done s (
    let (id, s) := s.request r.master r.secure r.write r.addr.toNat r.len r.data (some qos.val) .outside
    match pget s.xbar.txns id with
    | none => s
    | some t =>
      let s := s.setTxn id (some { t with gen := some (s.rdf R.FW_GEN 0 31 0) })
      if t.addr + r.len ≤ heapBytes then
        if r.write ∧ s.weightRefused t.addr r.len = true then
          (s.count R.WT_REFUSED 0).respond id true false []
        else s.heapAccept id
      else s.respond id true false [])

/-- Whether a controller issues refresh: it serves, or it is retraining with its contents kept (R230, R239). -/
def Ctrl.refreshes (c : Ctrl) : Bool := c.state == .ready || (c.state == .starting && c.train == .retrain)

/-- The stack's temperature read (R229): once a tide, in the first `REFRESH` slot; `HOT` above 85 °C, cleared at
83 °C or below. -/
def State.readTemp (s : State) (h : Nat) (temp : BitVec 8) : State :=
  let st := h / 32
  if pget s.heap.tempTide st = some s.time.tide then s
  else
    let s := { s with heap := { s.heap with tempTide := pset s.heap.tempTide st (some s.time.tide) } }
    let hot := s.stackHot h
    let now := if 85 < temp.toInt then true else if temp.toInt ≤ 83 then false else hot
    let s := s.wr R.HC_TEMP (st * 32) (word (at_ 8 (b2n now) + temp.toNat))
    if 85 < temp.toInt then s.raise (0x40 + st) 5 else s

/-- One refresh step; after 4,096 of them the activation table is cleared (R228, R231). -/
def PCh.refreshed (p : PCh) : PCh :=
  if p.refSteps + 1 = 4096 then { p with refSteps := 0, acts := [] } else { p with refSteps := p.refSteps + 1 }

/-- REFRESH_STEP (R141, R228, R229, R230). -/
def execRefreshStep (j : Fin 512) (slot : Fin 4096) (temp : BitVec 8) (s : State) :
    Host.Outcome State Fault Refusal :=
  let t := s.atSlot slot
  let h := j.val / 2
  done s (
    if !(t.ctl h).refreshes then t
    else
      match t.classAt 0 j slot with
      | some .refresh =>
        let t := t.readTemp h temp
        t.setPc j (t.pc j).refreshed
      | some .refresh2 =>
        if t.stackHot h ∨ t.rdb R.HC_XCFG h 1 ∨ t.sched.stress then t.setPc j (t.pc j).refreshed else t
      | _ => t)

/-- How many entries of an activation table a mitigation of the highest counts takes: at most `n` (R232). -/
def topActs (n : Nat) (acts : List ActEntry) : Nat := min n acts.length

/-- MITIGATE_SLOT (R232): up to four queued rows, oldest first; in stress mode the rows of the highest counts make up
the four. Neither changes a count of the table. -/
def execMitigateSlot (j : Fin 512) (slot : Fin 4096) (s : State) : Host.Outcome State Fault Refusal :=
  let t := s.atSlot slot
  let h := j.val / 2
  done s (
    if t.serves h ∧ t.classAt 0 j slot = some .mitigate then
      let p := t.pc j
      let n := min 4 p.mits.length
      let m := n + (if t.sched.stress then topActs (4 - n) p.acts else 0)
      let t := t.setPc j { p with mits := p.mits.drop 4 }
      if m = 0 then t else t.count R.MIT_COUNT h m
    else t)

/-- Eight sweep masks with one slot's eight taps added: sweep 2l is lane l's read, 2l + 1 its write (R227). -/
def addTaps (step : Nat) (masks : List Nat) (pass : List (BitVec 8)) : List Nat :=
  (List.range 8).map fun i => masks.getD i 0 + (pass.getD i 0).toNat * 2 ^ (8 * step)

/-- The delays and marks of a re-centring that succeeded (R227). -/
def State.recentred (s : State) (j : Nat) (tr : Trim) : State :=
  let h := j / 2
  let m := j % 2
  let s := (List.range 4).foldl (fun s l =>
    s.wr R.TRN_LANE h (laneWord (tr.masks.getD (2 * l) 0) (tr.masks.getD (2 * l + 1) 0)) (4 * m + l)) s
  let p := s.pc j
  let s := s.setPc j { p with trim := none, rcDue := false, actTag := tr.act, tempTag := tr.temp
                              recentres := satAdd 16 p.recentres 1 }
  let s := s.setCtl h { s.ctl h with rcFails := 0 }
  s.raise (0x40 + h / 32) 3

/-- A re-centring that failed; the third in a row freezes the controller (R227). -/
def State.recentreFailed (s : State) (j : Nat) : State :=
  let h := j / 2
  let s := s.setPc j { s.pc j with trim := none, rcDue := true }
  let s := s.setCtl h { s.ctl h with rcFails := min 3 ((s.ctl h).rcFails + 1) }
  let s := s.raise (0x40 + h / 32) 4
  let s := s.report (0x40 + h / 32) (h % 32) 0x0E (s.hcStat h) 0
  if 3 ≤ (s.ctl h).rcFails then s.freeze h (j % 2) 3 else s

/-- TRIM_SLOT (R141, R227). `pass` holds the eight sweeps' results for the slot's eight taps. -/
def execTrimSlot (j : Fin 512) (slot : Fin 4096) (pass : List (BitVec 8)) (s : State) :
    Host.Outcome State Fault Refusal :=
  let t := s.atSlot slot
  let h := j.val / 2
  let p := t.pc j
  done s (
    if t.serves h ∧ t.classAt 0 j slot = some .trim ∧ (p.rcDue ∨ p.trim.isSome ∨ t.sched.stress) then
      let tr := p.trim.getD { step := 0, masks := [], act := t.loadMark j, temp := t.stackTemp h }
      let tr := { tr with step := tr.step + 1, masks := addTaps tr.step tr.masks pass }
      if tr.step < 16 then t.setPc j { p with trim := some tr }
      else if eyesOpen tr.masks then t.recentred j tr else t.recentreFailed j
    else t)

/-- HEAP_TRAIN_DONE (R223, R224, R239, R240). `sweeps` holds the sixteen sweeps: 2k the read, 2k + 1 the write of lane
k; `temp` is the stack's reading after training. -/
def execHeapTrainDone (h : Fin 256) (sweeps : List (BitVec 128)) (temp : BitVec 8) (s : State) :
    Host.Outcome State Fault Refusal :=
  let c := s.ctl h
  let masks := (List.range 16).map fun i => (sweeps.getD i 0).toNat
  done s (
    if c.state ≠ .starting then s
    else if eyesOpen masks then
      let s := if c.train = .full then s.zeroFill h else s
      let s := (List.range 8).foldl (fun s k =>
        s.wr R.TRN_LANE h (laneWord (masks.getD (2 * k) 0) (masks.getD (2 * k + 1) 0)) k) s
      let tag := fun (s : State) j =>
        let act := if c.train = .retrain then s.loadMark j else 0
        s.setPc j { s.pc j with tempTag := temp, actTag := act, trim := none }
      let s := tag (tag s (2 * h.val)) (2 * h.val + 1)
      (s.setCtl h { s.ctl h with state := .ready }).raise (0x40 + h.val / 32) 7
    else s.freeze h 0 5)

/-- CA_PARITY_ERROR (R219, R235). -/
def execCaParityError (h : Fin 256) (m : Fin 2) (s : State) : Host.Outcome State Fault Refusal :=
  let st := (s.ctl h).state
  done s (if st = .ready ∨ st = .starting then s.freeze h m 1 else s)

end Sys2Proof.Machine
end

