-- ==== Sys2Proof/Machine/Field.lean ====
section
/-! DEFINITION. The instructions of pans, feeders and rakes (spec/09, 10), the ends of streams, preemption boundaries and
resampled outputs. A command whose unit's next instruction is another one leaves the state as it is. -/

namespace Sys2Proof.Machine

/-- A unit's current instruction of an opcode carried out by `f`, which gets the word and the issue SCLK; the next issue
comes one SCLK later. What a command given late has on its way already is taken at once. -/
def State.issue (s : State) (u : SeqUnit) (op : Nat) (f : Word → Nat → State → State) : State :=
  match s.current u op with
  | some (w, s) =>
    let s := f w (s.seqOf u).at_ s
    (s.setSeq u ((s.seqOf u).issued 1)).unitsNow
  | none => s

/-- A unit's current setup instruction carried out by `f` (R264). -/
def State.setupOp (s : State) (u : SeqUnit) (op : Nat) (f : Word → Nat → State → State) : State :=
  match s.current u op with
  | some (w, s) =>
    let s := f w (s.seqOf u).at_ s
    s.setSeq u (s.seqOf u).setup
  | none => s

/-- WAIT (R267, R269): idles for `N_M1` + 1 SCLK; an illegal instruction runs as one that idles one SCLK. -/
def execWait (u : SeqUnit) (s : State) : Host.Outcome State Fault Refusal :=
  done s (
    match s.current u 0x00 with
    | some (w, s) => s.setSeq u ((s.seqOf u).issued (fld w 19 0 + 1))
    | none => if s.currentBad u then (s.toImg (s.seqOf u).at_).illegalWait u else s)

/-- CSTEP (R250 to R253, R257, R270). -/
def execCstep (p : Fin 256) (s : State) : Host.Outcome State Fault Refusal :=
  done s (s.issue (.pan p) 0x01 fun w _ s => s.stepOp p w false)

/-- BSTEP (R254 to R257, R270, R311). -/
def execBstep (p : Fin 256) (s : State) : Host.Outcome State Fault Refusal :=
  done s (s.issue (.pan p) 0x02 fun w _ s => s.stepOp p w true)

/-- WLOAD (R266, R267, R271). -/
def execWload (p : Fin 256) (s : State) : Host.Outcome State Fault Refusal :=
  done s (s.issue (.pan p) 0x03 fun w _ s => s.weightLoad p w)

/-- WSWAP (R267, R271). -/
def execWswap (p : Fin 256) (s : State) : Host.Outcome State Fault Refusal :=
  done s (s.issue (.pan p) 0x04 fun _ _ s => s.weightSwap p)

/-- BANK (R125, R267, R270). -/
def execBank (p : Fin 256) (s : State) : Host.Outcome State Fault Refusal :=
  done s (s.issue (.pan p) 0x05 fun _ t s => s.switchBank p t)

/-- DRAIN (R253, R270, R271, R281): the idle bank streamed, to promote or to save. -/
def execDrain (p : Fin 256) (s : State) : Host.Outcome State Fault Refusal :=
  done s (s.issue (.pan p) 0x06 fun w t s => s.streamBank p t (bit w 57))

/-- FILL (R270, R271, R299). -/
def execFill (p : Fin 256) (s : State) : Host.Outcome State Fault Refusal :=
  done s (s.issue (.pan p) 0x07 fun _ t s => s.fillBank p t)

/-- LOOP (R265). -/
def execLoop (u : SeqUnit) (s : State) : Host.Outcome State Fault Refusal :=
  done s (match s.current u 0x08 with
    | some (w, s) => s.loopOp u w
    | none => s)

/-- CTX (R272, R276). -/
def execCtx (p : Fin 256) (s : State) : Host.Outcome State Fault Refusal :=
  done s (s.setupOp (.pan p) 0x09 fun w _ s => s.ctxOp p w)

/-- WAITAT (R267). -/
def execWaitat (u : SeqUnit) (s : State) : Host.Outcome State Fault Refusal :=
  done s (match s.current u 0x0A with
    | some (w, s) =>
      let q := s.seqOf u
      s.setSeq u { q.next with at_ := waitAt q.at_ (fld w 57 46) (fld w 45 38), setups := 0 }
    | none => s)

/-- HALT (R264, R276): the unit stops issuing, or its job ends; a pc past the program's end acts so and counts. -/
def execHalt (u : SeqUnit) (s : State) : Host.Outcome State Fault Refusal :=
  done s (match s.current u 0x0B with
    | some (_, s) => s.haltOp u
    | none =>
      if s.seqLive u = true ∧ (s.seqOf u).at_ / tideSclk ≤ s.sched.age ∧ (s.seqWord u (s.seqOf u).pc).isNone = true then
        ((s.toImg (s.seqOf u).at_).illegal u).haltOp u
      else s)

/-- FCFG (R268). -/
def execFcfg (f : Fin 32) (s : State) : Host.Outcome State Fault Refusal :=
  done s (s.setupOp (.feeder f) 0x10 fun w _ s =>
    let d := s.fd f
    s.setFd f { d with regs := mset aregDflt d.regs (fld w 57 55) ((mget aregDflt d.regs (fld w 57 55)).config w) })

/-- FREAD (R259 to R262, R269). -/
def execFread (f : Fin 32) (s : State) : Host.Outcome State Fault Refusal :=
  done s (s.issue (.feeder f) 0x11 fun w t s =>
    let g := mget aregDflt (s.fd f).regs (fld w 57 55)
    if g.wrap = 0 ∨ g.omod = 0 then s.illegal (.feeder f) else s.readOp f t w)

/-- FADV (R260, R268). -/
def execFadv (f : Fin 32) (s : State) : Host.Outcome State Fault Refusal :=
  done s (s.setupOp (.feeder f) 0x12 fun w t s => s.advOp f t w)

/-- FEMIT (R128, R263). -/
def execFemit (f : Fin 32) (s : State) : Host.Outcome State Fault Refusal :=
  done s (s.issue (.feeder f) 0x13 fun w t s => s.emitOp f t w)

/-- PREEMPT_BOUNDARY (R275): at the boundary of the tide that was named. -/
def execPreemptBoundary (p : Fin 256) (s : State) : Host.Outcome State Fault Refusal :=
  done s (match (s.pn p).prePend with
    | some t => if s.atBoundary ∧ t = s.time.tide then s.preempt p else s
    | none => s)

/-- RESUME_BOUNDARY (R277): at the boundary of the tide that was named. -/
def execResumeBoundary (p : Fin 256) (s : State) : Host.Outcome State Fault Refusal :=
  done s (match (s.pn p).resPend with
    | some t => if s.atBoundary ∧ t = s.time.tide then s.resume p else s
    | none => s)

/-- RBIND (R282, R292, R298 to R302). -/
def execRbind (k : Fin 64) (s : State) : Host.Outcome State Fault Refusal :=
  done s (match s.current (.rake k) 0x20 with
    | some (w, s) =>
      let s := s.rakeNow k
      if s.bindIllegal k w then s.illegalWait (.rake k)
      else
        let s := s.bindBlk k w
        s.setSeq (.rake k) (s.seqOf (.rake k)).setup
    | none => s)

/-- RCFG (R300). -/
def execRcfg (k : Fin 64) (s : State) : Host.Outcome State Fault Refusal :=
  done s (s.setupOp (.rake k) 0x21 fun w _ s =>
    let r := s.rk k
    let g := (mget rregDflt r.regs (fld w 57 55)).config w
    let s := s.setRk k { r with regs := mset rregDflt r.regs (fld w 57 55) g }
    if fld w 57 55 = 7 then s.wr R.RK_DUMP_PTR (4 * k) (word g.ptr) else s)

/-- RXFER (R300, R301): up to `COUNT` transfers of its direction into the slot; past offset 15 none, and it counts. -/
def execRxfer (k : Fin 64) (s : State) : Host.Outcome State Fault Refusal :=
  done s (s.issue (.rake k) 0x22 fun w t s =>
    let s := s.rakeNow k
    if 16 ≤ t % 256 then s.illegal (.rake k)
    else if (s.rk k).fault then s
    else if bit w 57 then s.takeWrites k t (fld w 56 50)
    else s.takeReads k t (fld w 56 50))

/-- When the last entry of a port's stream in progress reaches the rake, in half SCLK (R280). -/
def State.portStream (s : State) (k t : Nat) : Option Nat :=
  ((s.rk k).streams.find? fun x => x.1 = t).map fun x => x.2.arrival 4098

/-- A stream of poison taken for a port's binding while no stream of its pan delivers one (R271, R276). -/
def State.poisonStream (s : State) (k t : Nat) : State :=
  let b := (s.rk k).blks.find? fun b => b.port = t ∧ b.taken = false ∧ (b.kind = .promote ∨ b.kind = .save)
  match b with
  | some b =>
    let r := s.rk k
    let st : Stream := { first := 2 * s.imgNow - 3 * 4098, save := b.kind == .save, bank := none, early := false }
    (s.setRk k { r with streams := r.streams ++ [(t, st)] }).rakeNow k
  | none => s

/-- RAKE_STREAM_END (R271, R285, R287, R298): the last entry of a port's stream has come; a port that takes its entries while no
stream of its pan delivers one receives poison. -/
def execRakeStreamEnd (k : Fin 64) (t : Fin 4) (s : State) : Host.Outcome State Fault Refusal :=
  done s (
    match s.portStream k t with
    | some h => (s.toImg (h / 2)).unitsNow
    | none => s.poisonStream k t)

/-- RESAMPLE_OUTPUT (R323 to R325). -/
def execResampleOutput (u : Fin 256) (n nu : Nat) (s : State) : Host.Outcome State Fault Refusal :=
  done s (s.resample u n nu)

end Sys2Proof.Machine
end

