-- ==== Sys2Proof/Machine/CmdOps.lean ====
section
/-! DEFINITION. Event entries of the command channels and notifications (R419, R421, R433, R441). -/

namespace Sys2Proof.Machine

/-- Whether a supervisor is active (R443). -/
def State.supervised (s : State) : Bool := s.sup.sv0 == .active || s.sup.sv1 == .active

/-- A channel at reset. -/
def chDflt (_ : Nat) : Channel := {}
/-- A command channel. -/
def State.cchan (s : State) (k : Nat) : Channel := mget chDflt s.cmds.chan k
/-- A command channel, written. -/
def State.setCchan (s : State) (k : Nat) (c : Channel) : State :=
  { s with cmds := { s.cmds with chan := mset chDflt s.cmds.chan k c } }
/-- `CQ_CH_k`. -/
def State.cqCh (s : State) (k : Nat) : Word := s.rd R.CQ_CH 0 k
/-- Whether a channel is enabled. -/
def State.cqOn (s : State) (k : Nat) : Bool := bit (s.cqCh k) 63
/-- A channel's command ring. -/
def State.cqCmd (s : State) (k : Nat) : Nat := fld (s.cqCh k) 55 44
/-- A channel's event ring. -/
def State.cqEvt (s : State) (k : Nat) : Nat := fld (s.cqCh k) 43 32

/-- A field of `CQ_CNT_k` raised by one. -/
def State.cqCount (s : State) (k hi lo : Nat) : State := s.wr R.CQ_CNT 0 (satFld (s.rd R.CQ_CNT 0 k) hi lo 1) k

/-- Whether a channel's event ring takes another entry. -/
def State.cqRoom (s : State) (k : Nat) : Bool := (s.ring (s.cqEvt k)).on && decide (0 < (s.ring (s.cqEvt k)).room)

/-- Whether a channel's event ring is enabled and full: the firmware finds it so (R353). -/
def State.cqFull (s : State) (k : Nat) : Bool := (s.ring (s.cqEvt k)).on && (s.ring (s.cqEvt k)).room == 0

/-- Result words that no rule states. -/
def State.openResults (s : State) : List Word × State :=
  ((List.range 4).map fun i => Config.openResult (4 * s.fresh.1 + i), s.fresh.2)

/-- An event entry (R419) put on a channel's event ring, which has space; results that no rule states are open. -/
def State.cqPost (s : State) (k status kind code tag session index us : Nat) (replayed : Bool) (rs : List Word) :
    State :=
  let c := s.cchan k
  let (free, s) := s.openResults
  let ws := [word (at_ 56 status + at_ 48 kind + at_ 32 code + tag), word (at_ 32 session + index)]
    ++ (rs ++ free.drop rs.length).take 4
    ++ [word (at_ 32 (s.time.tide % 2 ^ 32) + at_ 8 (min us 0xFFFFFF) + 2 * b2n c.lost + b2n replayed), 0]
  (s.setCchan k { c with lost := false }).ringProduce (s.cqEvt k) ws none

/-- A command ring's `HEAD` moved past its command (R416). -/
def State.headPast (s : State) (r : CmdRun) : State :=
  let g := s.ring r.ring
  (s.setRing r.ring { g with d1 := setFld g.d1 63 32 ((r.idx + 1) % 2 ^ 32) }).ringProgress r.ring 1

/-- The session in force on a channel; 0 for none. -/
def State.sessionId (s : State) (k : Nat) : Nat :=
  match pget s.cmds.session k with
  | some x => x.id
  | none => 0

/-- A notification on one channel (R421, R441): discarded and counted if its ring is full. -/
def State.notifyOn (s : State) (code : Nat) (rs : List Word) (k : Nat) : State :=
  if s.cqOn k ∧ bit (s.cqCh k) (code - 0x8001) = true then
    if s.cqRoom k then s.cqPost k 0 2 code 0 (s.sessionId k) 0 0 false rs
    else
      let s := if s.cqFull k then s.ringFull (s.cqEvt k) else s
      ((s.cqCount k 15 0).setCchan k { s.cchan k with lost := true }).raise 0x0E 2
  else s

/-- A notification posted on every enabled channel that asks for it. -/
def State.notifyAll (s : State) (code : Nat) (rs : List Word) : State :=
  (List.range 16).foldl (fun s k => s.notifyOn code rs k) s

/-- A notification (R433, R441): at once while the firmware serves; otherwise kept until `READY` sets. -/
def State.notify (s : State) (code : Nat) (rs : List Word) : State :=
  if s.sup.ready then s.notifyAll code rs
  else { s with cmds := { s.cmds with kept := s.cmds.kept ++ [(code, rs)] } }

/-- The notifications kept until `READY`, posted (R433). -/
def State.postKept (s : State) : State :=
  s.cmds.kept.foldl (fun s n => s.notifyAll n.1 n.2) { s with cmds := { s.cmds with kept := [] } }

end Sys2Proof.Machine
end

