-- ==== Sys2Proof/Machine/TimeOps.lean ====
section
/-! DEFINITION. The operations of the references and time bases (spec/14): sources and selection, the root PLL, the four
time bases, the TB1 servo, epochs. -/

namespace Sys2Proof.Machine

/-- `SRC_STAT` code of a source (R410). -/
def SrcState.code : SrcState → Nat
  | .disabled => 0
  | .absent => 1
  | .qualifying => 2
  | .restoring => 3
  | .eligible => 4

/-- A source at AON start: enabled and not present. -/
def srcDflt (_ : Nat) : SrcState := .absent
/-- The state of a source. -/
def State.srcSt (s : State) (k : Nat) : SrcState := mget srcDflt s.time.sources k
/-- The state of a source, written, with the time of it. -/
def State.setSrcSt (s : State) (k : Nat) (v : SrcState) : State :=
  { s with time := { s.time with sources := mset srcDflt s.time.sources k v, srcAt := mset (fun _ => 0) s.time.srcAt k s.time.total } }
/-- `total` when a source entered its state. -/
def State.srcSince (s : State) (k : Nat) : Nat := mget (fun _ => 0) s.time.srcAt k
/-- SCLK in a second. -/
def sclkSec : Nat := 1500000000
/-- A source's qualification time in SCLK (R386). -/
def qualTime (k : Nat) : Nat := if k = 2 ∨ k = 3 ∨ k = 6 then 10 * sclkSec else sclkSec
/-- Whether a source is qualified (R387, R388). -/
def State.srcQual (s : State) (k : Nat) : Bool := s.srcSt k == .restoring || s.srcSt k == .eligible

/-- `SRC_STAT` (R388, R410). -/
def State.srcStat (s : State) : Word :=
  word (((List.range 7).map fun k => at_ (4 * k) (if s.time.src = k then 5 else (s.srcSt k).code)).sum)

/-- Code of a state of the root PLL (R409). -/
def PllState.code : PllState → Nat
  | .freeRun => 0
  | .acquiring => 1
  | .locked => 2
  | .holdover => 3
  | .lost => 4

/-- Code of a state of a time base (R411). -/
def TbState.code : TbState → Nat
  | .free => 0
  | .tracking => 1
  | .holdover => 2

/-- The highest bandwidth code that a source allows (R386, R392). -/
def srcBand (k : Nat) : Nat := if k = 2 ∨ k = 3 ∨ k = 6 then 6 else 20

/-- `BW_EFF` (R392). -/
def State.bwEff (s : State) : Nat := min (s.rdf R.SEL_CFG 0 12 8) (srcBand s.time.src)

/-- The holdover window (R394): the mean control values of seconds k − G − W to k − G − 1 of TB2, k the one in progress, if
every one of them was locked. -/
def State.hoWindow (s : State) : Option (List Int) :=
  let g := s.rdf R.HO_CFG 0 9 0
  let w := s.rdf R.HO_CFG 0 31 20
  let k := s.tb2Sec
  let xs := s.time.hist.filter fun h => h.locked && decide (k ≤ h.sec + g + w) && decide (h.sec + g < k)
  if xs.length = w then some (xs.map (·.h)) else none

/-- `PLL_STAT` (R409). -/
def State.pllStat (s : State) : Word :=
  word (at_ 12 s.bwEff + at_ 11 (b2n s.time.coarse) + at_ 10 (b2n s.time.xoBad) + at_ 9 (b2n s.time.slewing)
    + at_ 8 (b2n s.hoWindow.isSome) + at_ 4 s.time.src + s.time.pll.code)

/-- The control value without alignment's term (R393, R405): `FR_TRIM` in free run; while a reference loop gives it, and
that is not the servo, a value that nothing states. -/
def State.ctrlBase (s : State) : Int :=
  if s.time.pll = .freeRun then (s.rd R.CLK_XCFG).toInt
  else if (s.time.pll = .acquiring ∨ s.time.pll = .locked) ∧ s.time.src ≠ 6 then
    clampI (-2 ^ 30) (2 ^ 30) (Config.loopCtrl s.time.total)
  else s.time.ctrl

/-- The control value in force (R393, R494): outside free run alignment adds its term. -/
def State.ctrlNow (s : State) : Int :=
  if s.time.pll = .freeRun then s.ctrlBase
  else clampI (-2 ^ 30) (2 ^ 30) (s.ctrlBase + s.alignSteer * 2 ^ 40 / 1000000000000)

/-- `PHASE_ERR` (R393, R396, R409): 0 in free run and where a switch begins. -/
def State.phaseErr (s : State) : Int :=
  if s.time.pll = .freeRun ∨ s.time.total = s.time.switchAt then 0 else Config.loopPhase s.time.total

/-- A report of class `REF` (R504) from a page. -/
def State.refReport (s : State) (page : Nat) : State := s.report page 0 0x05 s.pllStat (s.rd R.LAST_SWITCH)

/-- A source disqualified (R387); one that was not qualified is only no longer present. -/
def State.disqualify (s : State) (k : Nat) (v : SrcState) : State :=
  if s.srcQual k then
    let s := (s.setSrcSt k v).countf R.DISQ_CNT 0 (8 * k + 7) (8 * k)
    let t := s.time
    let s1 : State := { s with time := { t with everDisq := t.everDisq ||| BitVec.ofNat 7 (2 ^ k)
                                                srcLost := t.srcLost || t.src == k } }
    (s1.raise 0x02 0).refReport 0x02
  else s.setSrcSt k v

/-- TB1 is in master mode (R402). -/
def State.tb1Master (s : State) : Bool := s.rdb R.TB_SRC 1 0

/-- TB0's master: 0 none, 1 PPS_A, 2 PPS_B, 3 TB1 (R401). -/
def State.tb0Master (s : State) : Nat :=
  let m := s.rdf R.TB_SRC 0 1 0
  if m = 3 ∧ s.tb1Master = true then 0 else m

/-- Whether TB0's master is lost (R401). -/
def State.tb0Lost (s : State) : Bool :=
  match s.tb0Master with
  | 0 => false
  | 3 => s.time.tb1St != .tracking || s.time.masterLost
  | _ => s.time.masterLost

/-- The state that TB0 has (R399, R401, R408). -/
def State.tb0Want (s : State) : TbState :=
  if s.time.coarse then .holdover
  else if s.time.epoch = 0 then .free
  else if (s.time.pll = .acquiring ∨ s.time.pll = .locked) ∧ s.tb0Lost = false then .tracking
  else .holdover

/-- TB0's state brought in line, with its events (R411); TB1 in master mode reports it too (R402). -/
def State.tb0Eval (s : State) : State :=
  if s.tb0Want = s.time.tb0St then s
  else
    let s1 : State := { s with time := { s.time with tb0St := s.tb0Want } }
    let s2 := s1.raise 0x03 0
    if s.tb1Master then s2.raise 0x04 0 else s2

/-- Source 6 ceases to be present when TB1 leaves `TRACKING` in client mode (R386, R387). -/
def State.ptpLost (s : State) : State :=
  if s.srcSt 6 = .absent ∨ s.srcSt 6 = .disabled then s else s.disqualify 6 .absent

/-- TB1's own state, written. -/
def State.setTb1 (s : State) (v : TbState) : State :=
  if s.time.tb1St = v then s
  else
    let s := if v = .tracking then s else s.ptpLost
    let s1 : State := { s with time := { s.time with tb1St := v } }
    (if s.tb1Master then s1 else s1.raise 0x04 0).tb0Eval

/-- The state that a time base reports (R401, R402, R406). -/
def State.tbState (s : State) (i : Nat) : TbState :=
  match i with
  | 0 => s.time.tb0St
  | 1 => if s.tb1Master then s.time.tb0St else s.time.tb1St
  | _ => .tracking

/-- A time base's time (R398). -/
def State.tbTime (s : State) (i : Nat) : Int :=
  match i with
  | 0 => s.time.tb0
  | 1 => s.time.tb1
  | 2 => 4 * (s.rclk : Int) * unitsNs
  | _ => s.time.tb3

/-- `TB_STAT` (R411). -/
def State.tbStat (s : State) (i : Nat) : Word :=
  word (at_ 32 s.time.epoch + at_ 5 (b2n s.time.coarse) + (if i = 0 then at_ 4 (b2n s.time.armPend) else 0)
    + (if i = 1 then at_ 3 (b2n s.time.stepUsed) + at_ 2 (b2n s.time.jump) else 0) + (s.tbState i).code)

/-- `TB_OFS` (R401): no measurement reads 0x8000000000000000. -/
def State.tbOfs (s : State) (i : Nat) : Word :=
  match i, s.time.ofs with
  | 0, some v => wordI v
  | _, _ => 0x8000000000000000#64

/-- The root PLL's state, written, with what a change brings (R393, R401, R441). -/
def State.setPll (s : State) (v : PllState) : State :=
  if s.time.pll = v then s
  else
    let s1 : State := { s with time := { s.time with pll := v, lockedAll := s.time.lockedAll && v == .locked } }
    let s2 := s1.raise 0x01 0
    let s2 : State := if v = .acquiring then { s2 with time := { s2.time with acqAt := s2.time.total } } else s2
    let s3 := if v = .holdover ∨ v = .lost then s2.refReport 0x01 else s2
    (s3.notify 0x8004 [s3.pllStat, s3.rd R.LAST_SWITCH]).tb0Eval

/-- `PRIO` in order, without empty entries. -/
def State.prio (s : State) : List Nat :=
  ((List.range 7).map fun k => s.rdf R.PRIO 0 (4 * k + 3) (4 * k)).filter (· ≠ 15)

/-- Whether a source is selectable (R393). -/
def State.selectable (s : State) (k : Nat) : Bool :=
  s.prio.contains k || (s.rdf R.SEL_CFG 0 1 0 == 1 && s.rdf R.SEL_CFG 0 7 4 == k)

/-- The source that selection names (R390). -/
def State.candidate (s : State) : Option Nat :=
  let mode := s.rdf R.SEL_CFG 0 1 0
  if mode = 2 then none
  else ((if mode = 1 then [s.rdf R.SEL_CFG 0 7 4] else []) ++ s.prio).find? fun k => s.srcSt k == .eligible

/-- A source's period in ps (R386, R396); a recovered brine clock's is not stated. -/
def State.srcPeriod (s : State) (k : Nat) : Option Nat :=
  match k with
  | 0 => some (if s.rdb R.SRC_CFG 0 0 then 10000 else 100000)
  | 1 => some (if s.rdb R.SRC_CFG 0 1 then 10000 else 100000)
  | 4 => none
  | 5 => none
  | _ => some 1000000000000

/-- θ reduced to the range from minus half the period to plus half (R396). -/
def State.theta (s : State) (k : Nat) (x : Int) : Int :=
  match s.srcPeriod k with
  | some t => (x + t / 2) % (t : Int) - t / 2
  | none => x

/-- A switch to a source (R391, R396, R397). -/
def State.switchTo (s : State) (k cause : Nat) (x : Int) : State :=
  let th := s.theta k x
  let t := s.time
  let s := s.count R.SWITCH_CNT 0
  let s := s.wr R.LAST_SWITCH 0 (word (at_ 32 (s.tb2Sec % 2 ^ 32) + at_ 12 cause + at_ 4 t.src + k))
  let same := t.pll == .acquiring
  let goal := t.netTarget + th
  let base := s.ctrlBase
  let s : State := { s with time := { s.time with
    src := k, absorb := th, netTarget := goal, slewing := goal * 1000000 != t.netPhase, switchAt := t.total, acqAt := t.total, ctrl := base } }
  let s := s.raise 0x01 1
  let s := if same then s.notify 0x8004 [s.pllStat, s.rd R.LAST_SWITCH] else s
  s.setPll .acquiring

/-- No eligible source remains for a PLL that had one (R393, R394). -/
def State.sourceGone (s : State) : State :=
  let win := s.hoWindow
  let t := s.time
  match win with
  | some hs =>
    let f := divEven hs.sum hs.length
    let s1 : State := { s with time := { t with src := 15, ctrl := f, hoValue := f, hoStart := t.total } }
    s1.setPll .holdover
  | none =>
    let s1 : State := { s with time := { t with src := 15, ctrl := s.ctrlBase } }
    s1.setPll .lost

/-- Selection evaluated (R390, R391, R393). `x` is the phase θ that the device would measure for the source chosen. -/
def State.select (s : State) (x : Int) : State :=
  let t := s.time
  let lost := t.srcLost || (t.src != 15 && !s.selectable t.src)
  let cause := if lost then 1 else if t.modeWrite then 4 else if t.selWrite then 3 else 2
  let s : State := { s with time := { t with srcLost := false, modeWrite := false, selWrite := false } }
  if s.rdf R.SEL_CFG 0 1 0 = 2 then
    let s1 : State := { s with time := { s.time with src := 15 } }
    s1.setPll .freeRun
  else
    match s.candidate with
    | some k => if k = t.src then s else s.switchTo k cause x
    | none => (if t.src = 15 then s else s.sourceGone).raise 0x02 1

/-- `SRC_EN` put in force (R386 to R388). -/
def State.srcEnable (s : State) (old new : Word) : State :=
  (List.range 7).foldl (fun s k =>
    if bit old (8 + k) ∧ !bit new (8 + k) then s.disqualify k .disabled
    else if !bit old (8 + k) ∧ bit new (8 + k) then s.setSrcSt k .absent
    else s) s

/-- The bits of a word that differ, in a field. -/
def fldDiffers (a b : Word) (hi lo : Nat) : Bool := fld a hi lo != fld b hi lo

/-- `SEL_CFG` written (R390 to R392). -/
def State.wrSelCfg (s : State) (v : Word) : State :=
  let old := s.rd R.SEL_CFG
  let s := s.wr R.SEL_CFG 0 v
  { s with time := { s.time with modeWrite := s.time.modeWrite || fldDiffers old v 1 0
                                 selWrite := s.time.selWrite || fldDiffers old v 7 4 } }

/-- `PRIO` written (R391). -/
def State.wrPrio (s : State) (v : Word) : State :=
  let s := s.wr R.PRIO 0 v
  { s with time := { s.time with selWrite := true } }

/-- `TB_SRC` written on a page (R401, R402). -/
def State.wrTbSrc (s : State) (i : Nat) (v : Word) : State :=
  let old := s.rd R.TB_SRC i
  let s := s.wr R.TB_SRC i v
  let t := s.time
  if i = 0 then
    if v = old then s
    else
      let s1 : State := { s with time := { t with ofs := none, masterLost := false, edgeAt := t.total } }
      s1.tb0Eval
  else if i = 1 then
    if bit v 0 ∧ !bit old 0 then
      let ofs := if s.rdf R.TB_SRC 0 1 0 = 3 then none else t.ofs
      let s1 : State := { s with time := { t with tb1 := t.tb0, ofs := ofs } }
      let s2 := if t.tb1St = t.tb0St then s1 else s1.raise 0x04 0
      s2.ptpLost.tb0Eval
    else if !bit v 0 ∧ bit old 0 then
      let s1 : State := { s with time := { t with havePrev := false, tb1St := .holdover } }
      let s2 := if t.tb0St = .holdover then s1 else s1.raise 0x04 0
      s2.tb0Eval
    else s
  else s

/-- An offset in ps from a time to the nearest whole second. -/
def toSecond (t : Int) : Int := divEven t (1000000000 * unitsNs).toNat * (1000000000 * unitsNs)

/-- Whether TB1 has crossed a whole second in the RCLK that ends now (R401): it stands less than one count past one. -/
def State.tb1Second (s : State) : Bool := decide (s.time.tb1 % (1000000000 * unitsNs) < 5 * unitsNs)

/-- A second edge of TB0's master (R401). -/
def State.masterEdge (s : State) : State :=
  let m := s.tb0Master
  if m = 0 ∨ s.enabled 0x03 = false ∨ (m = 3 ∧ s.tb1Second = false) then s
  else
    let near := toSecond (if m = 3 then s.time.tb1 else s.time.tb0)
    let ps := divEven ((near - s.time.tb0) * 1000) unitsNs.toNat
    let s1 : State := { s with time := { s.time with ofs := some ps, masterLost := false, edgeAt := s.time.total } }
    s1.tb0Eval

/-- TB1's step: by an offset in 2^-16 ns (R403). -/
def ofsUnits (o : Int) : Int := o * (3000000000 * 2 ^ 30)

/-- A sample refused (R403). -/
def State.refuseSample (s : State) : State :=
  let s := (s.count R.SMP_REFUSE 0).raise 0x07 0
  { s with time := { s.time with lastOut := 3 } }

/-- A sample that puts TB1 into `JUMP` (R403). -/
def State.jumpOut (s : State) (o : Word) : State :=
  let s1 : State := { s with time := { s.time with jump := true } }
  let s2 := ((s1.setTb1 .holdover).refuseSample).raise 0x04 1
  (s2.report 0x04 0 0x06 (s2.tbStat 1) o).notify 0x8003 [s2.tbStat 1]

/-- A sample accepted; 1 slewed, 2 stepped (R403, R404). -/
def State.acceptSample (s : State) (out : Nat) : State :=
  let s := s.count R.SMP_ACCEPT 0
  let s1 : State := { s with time := { s.time with lastOut := out, everSample := true, stepUsed := true, sampleAt := s.time.total } }
  s1.setTb1 .tracking

/-- TB1's rate, or while source 6 is in use the control value of the root PLL, from the servo's rate term (R403, R405). -/
def State.servoRate (s : State) (rate : Dy) : State :=
  if s.time.src = 6 then
    { s with time := { s.time with ctrl := clampI (-2 ^ 30) (2 ^ 30) (rate.fix 40) } }
  else s.wr R.TB_RATE 1 (wordI (rate.fix 48))

/-- A clamped value. -/
def Dy.clamp (lo hi x : Dy) : Dy := if x.lt lo then lo else if hi.lt x then hi else x

/-- The servo's answer to a sample (R403): offset o in 2^-16 ns and the master's time in ns. -/
def State.servo (s : State) (oW : Word) (mt : Nat) : State :=
  let o := oW.toInt
  let t := s.time
  if t.jump then s.refuseSample
  else if t.havePrev ∧ mt < t.prevMt then s.jumpOut oW
  else if t.havePrev ∧ mt = t.prevMt then s
  else if (s.rdf R.SRV_CFG 0 31 0 : Int) * 2 ^ 16 < o.natAbs then
    if t.stepUsed then s.jumpOut oW
    else
      let s1 : State := { s with time := { t with tb1 := t.tb1 + ofsUnits o, havePrev := false, prevMt := 0, rI := 0 } }
      s1.acceptSample 2
  else
    let s := if t.havePrev then
        let dt := div64 (Dy.ofInt ((mt : Int) - t.prevMt)) (Dy.ofInt 1000000000)
        let nano := div64 (Dy.ofInt 1) (Dy.ofInt 1000000000)
        let e := div64 (mul64 ((to64 (Dy.ofInt o)).dy.scale (-16)) nano) dt
        let r := add64 (of64 t.rI).dy (to64 (e.scale (-(s.rdf R.SRV_GAIN 0 5 0 : Int)))).dy
        let x := add64 r (to64 (e.scale (-(s.rdf R.SRV_GAIN 0 13 8 : Int)))).dy
        let s1 : State := { s with time := { s.time with rI := word64 (to64 r) } }
        s1.servoRate (Dy.clamp ⟨-1, -11⟩ ⟨1, -11⟩ x)
      else s
    let s1 : State := { s with time := { s.time with havePrev := true, prevMt := mt } }
    s1.acceptSample 1

/-- TB3 set (R406). -/
def State.tb3Step (s : State) : State :=
  let s1 : State := { s with time := { s.time with tb3 := timeOf (s.rd R.STEP_SEC 3) (s.rd R.STEP_NS 3) } }
  s1.wr R.STEP_CTRL 3 (clrBit (s1.rd R.STEP_CTRL 3) 0)

/-- A received cell's times counted from a new epoch's start. -/
def RxCell.rebase (n : Nat) (c : RxCell) : RxCell := { c with avail := c.avail - n, release := c.release - n }

/-- A sluice slot at tide 0 of an epoch: sample indices begin again (R188, R194, R201). -/
def SluSlot.epoch (sl : SluSlot) : SluSlot :=
  { sl with blocks := [], cur := none, seed := none, top := none, last := none, hist := [], centres := [] }

/-- What counts from the epoch start in every unit, begun again (R188, R201, R318, R323). -/
def State.unitsEpoch (s : State) (len : Nat) : State :=
  let s : State := { s with
    slu := { s.slu with slot := mmap slotDflt SluSlot.epoch s.slu.slot, rs := [], rsDone := []
                        unit := mmap unitDflt (fun u => { u with group := [], done := none }) s.slu.unit }
    links := { s.links with consumed := []
                            link := mmap linkDflt (fun l => { l with rx := l.rx.map (RxCell.rebase len) }) s.links.link }
    heap := { s.heap with tempTide := [] } }
  let s := (List.range 16).foldl State.rowEpoch s
  { s with pans := { s.pans with
      row := mmap rowDflt (fun b => { b with psTide := none, vbTide := none }) s.pans.row
      pan := mmap panDflt (fun p => { p with seq := { p.seq with badTide := none } }) s.pans.pan
      feeder := mmap feederDflt (fun p => { p with seq := { p.seq with badTide := none } }) s.pans.feeder
      rake := mmap rakeDflt (fun p => { p with seq := { p.seq with badTide := none } }) s.pans.rake } }

/-- The next epoch number: 0 is skipped on wrap (R399). -/
def nextEpoch (n : Nat) : Nat := if (n + 1) % 2 ^ 32 = 0 then 1 else (n + 1) % 2 ^ 32

/-- A new epoch opens now with a start and a number (R84, R85, R400, R404): tide 0 begins, and every TB page sets `EPOCH`. -/
def State.openEpoch (s : State) (start : Int) (num : Nat) : State :=
  let t := s.time
  let len := t.tide * tideSclk
  let s := s.unitsEpoch len
  let t1 : Time := { t with
    epoch := num, epochStart := start, tb0 := start, tide := 0, pos := 0, armPend := false, jump := false
    stepUsed := false, havePrev := false, prevMt := 0, rI := 0, tb1 := if s.tb1Master then start else t.tb1 }
  let s1 : State := { s with time := t1, links := { s.links with due := [] }, sched := { s.sched with prevLen := len, prevNum := t.epoch, conds := [], flushed := [] }
                             pwr := { s.pwr with req := s.pwr.req.shift (-(t.tide : Int)) } }
  let s2 := [0x03, 0x04, 0x05, 0x06].foldl (fun s p => s.raise p 2) s1.tb0Eval
  s2.notify 0x8002 [word num, word (timeSec start), timeNsWord start]

/-- The start that a committed step gives (R400): `SRC` 0, 1 or 2. -/
def State.stepStart (s : State) : Int :=
  match s.rdf R.STEP_CTRL 0 2 1 with
  | 0 => timeOf (s.rd R.STEP_SEC 0) (s.rd R.STEP_NS 0)
  | 1 => s.time.tb0
  | _ => s.time.tb0 + s.time.stepOfs * unitsNs / 1000

end Sys2Proof.Machine
end

