-- ==== Sys2Proof/Machine/SchedOps.lean ====
section
/-! DEFINITION. The operations of the schedule engine (spec/04): arms and their outcomes, the swap and halt boundaries,
the adoption of shadow sets, the load checks. -/

namespace Sys2Proof.Machine

/-- A shadow set committed (R13): adopted at the next boundary, or one later for a commit in slot 4,095. -/
def State.commit (s : State) (set : ShadowSet) : State :=
  { s with fab := { s.fab with commits := s.fab.commits ++ [{ set := set, wait := 1 + b2n (s.slot == 4095) }] } }

/-- `ARM_CTRL.COMMIT` reads 1. -/
def State.armCommitted (s : State) : Bool := s.rdb R.ARM_CTRL 0 0

/-- Gate S of R431. -/
def State.swapGate (s : State) : Bool := s.sched.pend.isSome || s.armCommitted

/-- `SWAP_STAT.RESULT` set (R105 to R108): the tide, the abandoned integrations, the event, the notification. -/
def State.swapResult (s : State) (r abandoned : Nat) : State :=
  let s := (s.wr R.SWAP_STAT 0 (word (at_ 32 abandoned + r))).wr R.SWAP_TIDE 0 s.tideWord
  let s := s.raise 0x10 (if 1 ≤ r ∧ r ≤ 4 then 3 else 4)
  s.notify 0x8001 [s.rd R.SWAP_STAT, s.rd R.SWAP_TIDE]

/-- The pending arm withdrawn, a swap's store `VALID` again (R104). -/
def State.dropPend (s : State) : State :=
  match s.sched.pend with
  | some a =>
    let s1 : State := { s with sched := { s.sched with pend := none, cancel := false } }
    if a.halt then s1 else s1.setStoreSt a.store .valid
  | none => s

/-- A committed arm withdrawn before its adoption (R106). -/
def State.dropCommit (s : State) : State :=
  if s.armCommitted then
    let w := s.rd R.ARM_CTRL
    let s := s.wr R.ARM_CTRL 0 (clrBit w 0)
    let s1 : State := { s with fab := { s.fab with commits := s.fab.commits.filter fun c => c.set ≠ .arm }
                               sched := { s.sched with cancel := false } }
    if bit w 1 then s1 else s1.setStoreSt (fld w 8 8) .valid
  else s

/-- Whether an image uses the pans while the device is in `IDLE` or about to be (R36). -/
def State.idleBars (s : State) (m : Memory) : Bool :=
  imgPans m && (s.pwr.state == .idle || s.pwr.req == .toIdle)

/-- The reasons against a write of `ARM_CTRL` (R13, R105). -/
def State.armReasons (s : State) (v : Word) : List Reason :=
  let m := s.storeMem (fld v 8 8)
  let tide := (s.rd R.ARM_TIDE).toNat
  let halt := bit v 1
  let c := bit v 0
  let old := s.image.getD []
  let cmp := c && !halt && s.image.isSome
  [(s.armCommitted, .state),
   (c && !halt && s.storeSt (fld v 8 8) != .valid, .state),
   (c && halt && s.sched.run.isNone, .state),
   (c && s.sched.pend.isSome, .state),
   (c && bit v 9 && !s.rdb R.TEST_CTRL 0 0, .state),
   (c && !halt && s.idleBars m, .state),
   (c && fld v 63 32 != s.time.epoch, .value),
   (c && decide (tide < s.time.tide + 3), .range),
   (cmp && (List.range 8).any (fun k => decide (budHead m k < budTail old k)), .sched),
   (cmp && decide (250 < budVcore m - budVcore old + (budVcore old - budVcore m)), .sched),
   (cmp && budLayout m == budLayout old && budLayout m != 0
     && (budI m != budI old || budP m != budP old || budD m != budD old), .sched)]

/-- `ARM_CTRL` written (R105). -/
def State.wrArmCtrl (s : State) (v : Word) : State :=
  let s := s.wr R.ARM_CTRL 0 v
  if bit v 0 then
    (if bit v 1 then s else s.setStoreSt (fld v 8 8) .armed).commit .arm
  else s

/-- The reasons against `ARM_CANCEL.CANCEL` (R106). -/
def State.cancelReasons (s : State) (v : Word) : List Reason :=
  let target := (s.sched.pend.map (·.tide)).getD (s.rd R.ARM_TIDE).toNat
  [(bit v 0 && !s.swapGate, .state), (bit v 0 && s.sched.cancel, .state),
   (bit v 0 && decide (target ≤ s.time.tide + 2), .state)]

/-- The arm adopted (R13, R105): pending from now; one that names a closed epoch is cancelled (R85). -/
def State.adoptArm (s : State) : State :=
  let w := s.rd R.ARM_CTRL
  let a : Arm := { halt := bit w 1, store := fld w 8 8, stress := bit w 9, tide := (s.rd R.ARM_TIDE).toNat,
                   epoch := fld w 63 32 }
  let s := s.wr R.ARM_CTRL 0 (clrBit w 0)
  let s1 : State := { s with sched := { s.sched with pend := some a } }
  let s2 := s1.raise 0x10 2
  let s2 := (List.range 32).foldl (fun s e => if s.unitComing e then s.lpiWake e else s) s2
  if a.epoch ≠ s.time.epoch ∧ a.halt = false then s2.dropPend.swapResult 6 0 else s2

/-- The weight copy adopted (R308): `WT_STAT` shows it. -/
def State.adoptWt (s : State) : State :=
  let w := s.rd R.WT_SEL
  let s := s.wr R.WT_SEL 0 (clrBit w 0)
  (s.wr R.WT_STAT 0 (word (at_ 32 (s.time.tide % 2 ^ 32) + fld w 1 1))).rehome

/-- The destination table adopted (R346). -/
def State.adoptDest (s : State) : State :=
  let s1 : State := { s with net := { s.net with dstWork := s.net.dstShadow } }
  s1.wr R.DST_CTRL 0 0

/-- The TB0 step adopted: the epoch closes, and waits for its opening (R400). -/
def State.adoptStep (s : State) : State :=
  let s := s.wr R.STEP_CTRL 0 (clrBit (s.rd R.STEP_CTRL 0) 0)
  { s with time := { s.time with armPend := true, closedAt := s.time.tide } }

/-- A shadow set adopted (R13). -/
def State.adopt (s : State) : ShadowSet → State
  | .arm => s.adoptArm
  | .dm u k => s.adoptModel u k
  | .gain u => s.adoptGain u
  | .win u => s.adoptWin u
  | .wtSel => s.adoptWt
  | .dest => s.adoptDest
  | .tb0Step => s.adoptStep

/-- Whether a committed set is adopted at this boundary: an arm under withdrawal never is (R106), and while no supervisor is
active every set but an arm, whose outcome R107 gives, waits (R15; DEDUCED, notes/assumptions/259.md). -/
def State.adopts (s : State) (c : Commit) : Bool :=
  c.wait == 0 && (if c.set == .arm then !s.sched.cancel else s.supervised)

/-- Every shadow set due at this boundary adopted (R13). -/
def State.adoptAll (s : State) : State :=
  let cs := s.fab.commits.filter s.adopts
  let s1 : State := { s with fab := { s.fab with commits := s.fab.commits.filter fun c => !s.adopts c } }
  cs.foldl (fun s c => s.adopt c.set) s1

/-- Integrations of the running image that are abandoned now (R111), at most 2: those with tides before this one whose
dump ends after it, but for those flushed; none of a closed epoch (DEDUCED, notes/assumptions/50.md). -/
def State.abandoned (s : State) : Nat :=
  let m := s.image.getD []
  let i : Int := budI m
  let p : Int := budP m
  let n : Int := s.time.tide
  if s.image.isNone ∨ budLayout m = 0 ∨ n = 0 then 0
  else
    let k := (n - 1 - p) / i
    ([k, k - 1].filter fun j => decide (-1 ≤ j) && (j != -1 || p != 0) && decide (n < p + (j + 1) * i + budD m)
      && !s.sched.flushed.contains (s.time.epoch, j)).length

/-- Whether a swap to an image carries on the accumulation layout (R110). -/
def State.continues (s : State) (m : Memory) : Bool :=
  match s.image with
  | some old => budLayout m == budLayout old && budLayout m != 0
  | none => false

/-- The next generation (R290): 0 is skipped. -/
def nextGen (g : Nat) : Nat := if (g + 1) % 2 ^ 32 = 0 then 1 else (g + 1) % 2 ^ 32

/-- An `INIT` value written, the whole register (R98, R109; DEDUCED, notes/assumptions/254.md); `QUAD_MODE` by its own
operation. -/
def State.initWrite (s : State) (e : InitEntry) : State :=
  match findReg e.page e.off with
  | none => s
  | some (r, _) =>
    if r = R.QUAD_MODE then s.setQuadMode (64 * (e.page - 0x50) + e.bank) (setFld e.value 1 0 (s.rdf R.QUAD_MODE (64 * (e.page - 0x50) + e.bank) 1 0))
    else s.setReg (regKey 0 e.page (e.bank / r.share * r.share) e.off) e.value

/-- The quads' modes at a swap (R146): the image's roles. -/
def State.quadRoles (s : State) (m : Memory) : State :=
  (List.range 256).foldl (fun s q => s.setQuadMode q (setFld (s.rd R.QUAD_MODE q) 1 0 (quadRole m q))) s

/-- The receive windows' programs judged at a swap (R159). -/
def State.linkrxStart (s : State) (q : Nat) : State :=
  let bad := (s.linkrx q).any linkrxBad
  if bad then
    let s := (s.wrb R.LINK_STAT q 32 true).raise (brinePage q) 5
    s.report (brinePage q) (q % 64) 0x0F (s.linkStat q) (s.rd R.LANE_STAT (4 * q))
  else if s.rdb R.LINK_STAT q 32 then s.wrb R.LINK_STAT q 32 false
  else s

/-- A link's receive program at a halt: none runs (R159, R183). -/
def State.linkrxStop (s : State) (q : Nat) : State := if s.rdb R.LINK_STAT q 32 then s.wrb R.LINK_STAT q 32 false else s

/-- A pseudo-channel at a swap (R113): with no `OPEN` slot left its queue is answered with errors. -/
def State.pchStart (s : State) (j : Nat) : State :=
  if (s.pc j).queue.isEmpty ∨ s.hasOpen 0 j = true then s else s.failQueue j

/-- The salinometer, changed. -/
def State.setSal (s : State) (f : Salin → Salin) : State := { s with sal := f s.sal }

/-- `ENABLE` of the SALIN page set: the converter powers up, `SEQ` begins at 0, the coefficients converge again (R477,
R488). -/
def State.salOn (s : State) : State :=
  (((s.wr R.RES_WSEQ 0 0).wr R.RES_RSEQ 0 0).wrb R.CAL_STAT 0 0 false).setSal fun x => { x with afterLoss := false }

/-- The pages that an image's start enables beside those of its units (R62, R482). -/
def State.enablePages (s : State) (m : Memory) : State :=
  let s := if imgSaltern m then s.setHdr 0x5D hCtrl (setBit (s.hdr 0x5D hCtrl) 0) else s
  if s.rdb R.SAL_CAL 0 63 ∧ s.enabled 0x5B = false then (s.setHdr 0x5B hCtrl (setBit (s.hdr 0x5B hCtrl) 0)).salOn else s

/-- The units at an image start (R109 to R112, R187, R274, R302, R311, R345). `fresh` says that no image ran; `old` is the image
that ran. -/
def State.startUnits (s : State) (m : Memory) (fresh : Bool) (old : Option Memory) : State :=
  let s := (List.range 256).foldl (fun s p => s.panStart p fresh (progSect m tyPan p).isSome) s
  let s := (List.range 32).foldl (fun s f => s.feederStart f fresh (progSect m tyFeeder f).isSome) s
  let s := (List.range 16).foldl (fun s r => s.rowStart r fresh) s
  let s := (List.range 64).foldl (fun s k => (s.setRk k ((s.rk k).start fresh s.imgNow)).wr R.RK_DUMP_PTR (4 * k) 0) s
  let s := (List.range 256).foldl (fun s u =>
    let key := condKey m u
    let s := if key.isSome ∧ key = old.bind (fun o => condKey o u) then s else s.sluClear u
    s.sluStart m u) s
  let s := (List.range 32).foldl (fun s e => s.portStart e fresh) s
  let s := (List.range 256).foldl (fun s q => (s.linkrxStart q).linkStart q) s
  (List.range 512).foldl State.pchStart s

/-- The generation advanced; `LOSTALL` clears (R290, R302). -/
def State.newGen (s : State) : State :=
  let s := s.wr R.ACC_GEN 0 (word (nextGen s.accGen))
  { s with pans := { s.pans with rake := mmap rakeDflt (fun r => { r with lostAll := false }) s.pans.rake } }

/-- A pending swap carried out (R109 to R113). -/
def State.swapNow (s : State) (a : Arm) : State :=
  let s := s.adoptAll.opsNow
  let old := s.image
  let m := s.storeMem a.store
  let keep := s.continues m
  let lost := if keep then 0 else s.abandoned
  let s := match s.sched.run with
    | some i => s.setStoreSt i .valid
    | none => s
  let s := s.setStoreSt a.store .running
  let s1 : State := { s with sched := { s.sched with
    run := some a.store, stress := a.stress, pend := none, cancel := false, dryStore := none
    flushed := if keep then s.sched.flushed else [] } }
  let s2 : State := { s1 with pwr := { s1.pwr with dry := 0, dryStop := false } }
  let s := (allInit m).foldl State.initWrite s2
  let s := (s.rehome.quadRoles m).enablePages m
  let s := if keep then s else s.newGen
  (s.startUnits m old.isNone old).ethEvalAll.swapResult 1 lost

/-- Whether a new epoch opens at this boundary (R85); a step of the time waits while no supervisor is active (R15), an opening
without a step does not. -/
def State.epochDue (s : State) : Bool :=
  s.time.armPend && s.time.tide % 15 == 0 && decide (s.time.closedAt < s.time.tide)
    && (s.supervised || s.rdf R.STEP_CTRL 0 2 1 == 1)

/-- The data path halted (R28, R108, R111). Work asked for and not issued is gone. -/
def State.haltNow (s : State) (result : Nat) : State :=
  match s.sched.run with
  | none => s
  | some i =>
    let s := s.adoptAll.opsNow
    let lost := s.abandoned
    let pans := imgPans (s.storeMem i)
    let s := s.setStoreSt i .valid
    let s1 : State := { s with sched := { s.sched with run := none, stress := false, flushed := []
                                                       dryStore := if pans then some i else none } }
    let s2 : State := { s1 with pwr := { s1.pwr with dry := if pans then 0xFFFF#16 else 0, dryStop := pans }
                                links := { s1.links with due := [] }
                                heap := { s1.heap with pch := mmap pchDflt (fun p => { p with due := [] }) s1.heap.pch } }
    let s3 := (List.range 256).foldl (fun s u => (s.sluStop u).linkrxStop u) s2
    ((List.range 256).foldl State.endPreempt s3).ethEvalAll.swapResult result lost

/-- A halt by the always-on domain at the unsupervised limit (R108). -/
def State.unsupHalt (s : State) : State :=
  let armed := s.swapGate
  let s := s.dropPend.dropCommit
  if s.sched.run.isSome then
    let s := s.haltNow 4
    if armed then s.raise 0x10 4 else s
  else if armed then (s.swapResult 4 0).raise 0x10 4
  else s

/-- The reasons against `LOAD_CMD` (R104, R115). -/
def State.loadReasons (s : State) (v : Word) : List Reason :=
  let st := s.storeSt (fld v 8 8)
  let ok := st == .written || st == .valid || st == .refused
  [(!ok, .state), (bit v 0 && s.sched.check.isSome, .state)]

/-- A store returned to `EMPTY`, its bytes zero (R104, R522). -/
def State.clearStore (s : State) (i : Nat) : State := (s.setStoreMem i []).setStoreSt i .empty

/-- `LOAD_CMD` (R100, R104). -/
def State.loadCmd (s : State) (v : Word) : State :=
  let i := fld v 8 8
  if bit v 0 then
    let s := s.setStoreSt i .checking
    { s with sched := { s.sched with check := some (i, s.time.total) } }
  else s.clearStore i

/-- The signature policy in force (R99, R451): the valid copy with the later sequence number, in the layout of the
update flag, with the policy in bit 0 of word 1. -/
def State.policyCopy (s : State) (k : Nat) : Option (Nat × Bool) :=
  let a := 0xF80080 + 64 * k
  let bs := s.nv.nvm.bytes a 56
  if fld (s.nv.nvm.word (a + 56)) 31 0 = crc32c bs then
    some (fld (s.nv.nvm.word a) 63 32, bit (s.nv.nvm.word (a + 8)) 0)
  else none

/-- Of two sequence-numbered copies the one in force. -/
def laterCopy {α : Type} (a b : Option (Nat × α)) : Option α :=
  match a, b with
  | some x, some y => some (if laterSeq y.1 x.1 then y.2 else x.2)
  | some x, none => some x.2
  | none, some y => some y.2
  | none, none => none

/-- Whether images must be signed. -/
def State.sigRequired (s : State) : Bool := (laterCopy (s.policyCopy 0) (s.policyCopy 1)).getD false

/-- The load checks' end (R100, R102, R521); no load ends while no supervisor is active (R15). -/
def State.loadDone (s : State) (us : Nat) : State :=
  match s.sched.check with
  | none => s
  | some (i, _) =>
    if s.supervised = false then s else
    let s1 : State := { s with sched := { s.sched with check := none } }
    match loadChecks (s.storeMem i) (s.rd R.MESH_CFG) s.nv.otp s.sigRequired with
    | none => ((s1.setStoreSt i .valid).wr R.LOAD_STAT 0 (word (at_ 48 0xFFFF + at_ 32 0xFFFF + at_ 16 i + us))).raise 0x10 0
    | some (r, sec, ent) =>
      ((s1.setStoreSt i .refused).wr R.LOAD_STAT 0
        (word (at_ 48 ent + at_ 32 sec + at_ 24 r + at_ 16 i + us))).raise 0x10 1

end Sys2Proof.Machine
end

