-- ==== Sys2Proof/Machine/SupOps.lean ====
section
/-! DEFINITION. The operations of the supervisor pair, of gating requests and of the update state (spec/16). -/

namespace Sys2Proof.Machine

/-- Code of a supervisor's state (R443). -/
def SvState.code : SvState → Nat
  | .off => 0
  | .standby => 1
  | .starting => 2
  | .active => 3
  | .failed => 4
  | .qualifying => 5

/-- The state of a supervisor. -/
def State.sv (s : State) (i : Nat) : SvState := if i = 0 then s.sup.sv0 else s.sup.sv1
/-- The state of a supervisor, written. -/
def State.setSv (s : State) (i : Nat) (v : SvState) : State :=
  { s with sup := if i = 0 then { s.sup with sv0 := v } else { s.sup with sv1 := v } }
/-- Whether the feed of a supervisor's island is qualified. -/
def State.svFeedOk (s : State) (i : Nat) : Bool := if i = 0 then s.pwr.feedA else s.pwr.feedB
/-- A supervisor in a state, the lower first. -/
def State.svIn (s : State) (v : SvState) : Option Nat :=
  if s.sup.sv0 = v then some 0 else if s.sup.sv1 = v then some 1 else none
/-- The supervisor that is active, or else the one that is starting. -/
def State.svRole (s : State) : Option Nat := (s.svIn .active).or (s.svIn .starting)

/-- `SV_STAT` (R471). -/
def State.svStat (s : State) : Word :=
  word (at_ 48 s.sup.failovers + at_ 36 s.sup.lastCause + at_ 16 (s.sup.validated % 2 ^ 20) + at_ 8 s.sup.sv1.code
    + s.sup.sv0.code)

/-- The unsupervised timer in milliseconds of TB2 (R450). -/
def State.unsupMs (s : State) : Nat :=
  match s.sup.unsupStart with
  | some t => (s.time.total - t) / 6 / 250000
  | none => 0

/-- Whether the unsupervised timer stands at its limit or beyond it (R450). -/
def State.unsupOver (s : State) : Bool := s.sup.unsupStart.isSome && decide (1000 * s.rdf R.UNSUP_LIMIT 0 16 0 ≤ s.unsupMs)

/-- `UNSUP_STAT` (R471). -/
def State.unsupStat (s : State) : Word :=
  word (at_ 63 (b2n s.sup.unsupStart.isSome) + at_ 62 (b2n (s.sup.expired || (s.unsupOver && !s.sup.limitMet))) + s.unsupMs % 2 ^ 32)

/-- `CKPT_STAT` (R471). -/
def State.ckptStat (s : State) : Word :=
  word (at_ 16 (s.sup.ckptSeq % 2 ^ 48) + at_ 12 s.sup.ckptSlot + at_ 11 (b2n s.sup.mirrorUsed) + at_ 10 (b2n s.sup.nvmUsed)
    + at_ 9 (b2n s.sup.ckptTrunc) + at_ 8 (b2n s.sup.ckptWriting.isSome))

/-- `GATE_STAT` (R471). -/
def State.gateStat (s : State) : Word :=
  word (at_ 63 (b2n !s.sup.gates.isEmpty) + at_ 48 s.sup.gateCode + at_ 16 s.sup.deferrals + s.sup.gatePage)

/-- The unsupervised timer begun, if it does not run (R446, R450). -/
def State.unsupBegin (s : State) : State :=
  { s with sup := { s.sup with unsupStart := s.sup.unsupStart.or (some s.time.total)
                               limitMet := s.sup.limitMet && s.sup.unsupStart.isSome } }

/-- The unsupervised timer at its limit (R450). -/
def State.unsupCheck (s : State) : State :=
  if s.unsupOver = true ∧ s.sup.limitMet = false then
    { s with sup := { s.sup with expired := true, limitMet := true, haltDue := true } }
  else s

/-- The checkpoint of step 3 of R37 that is still to be written once its supervisor is gone. -/
def State.standbyCkpt (s : State) : Option Nat :=
  if s.pwr.req = .toStandby ∧ (s.sup.ckptDue = some 3 ∨ s.sup.ckptWriting = some 3) then some 3 else none

/-- What a supervisor's firmware was doing, gone with it: commands in progress, a checkpoint being written, a download,
a key operation. -/
def State.dropFirmware (s : State) : State :=
  { s with cmds := { s.cmds with chan := mmap chDflt (fun c => { c with run := none, replay := false, unseen := false }) s.cmds.chan }
           sup := { s.sup with ready := false, recovery := false, romDone := false, rearmAt := none, wdAt := none, restartAt := none
                               ckptWriting := none, ckptDue := s.standbyCkpt, recvLen := none, confirmEnd := none } }

/-- A failover cause (R446); a lost feed outweighs a cause still to be acted on. -/
def State.failNote (s : State) (c : Nat) : State :=
  { s with sup := { s.sup with failCause := if c = 2 then some 2 else s.sup.failCause.or (some c) } }

/-- A supervisor that has failed: held in reset, and its failure noted (R446, R449). -/
def State.svFail (s : State) (i : Nat) : State :=
  let s := s.setSv i .failed
  let t := s.tb2Sec
  { s with sup := if i = 0 then { s.sup with fails0 := t :: s.sup.fails0 } else { s.sup with fails1 := t :: s.sup.fails1 } }

/-- What a failover does beside holding the supervisor that failed (R446). -/
def State.failoverRest (s : State) (c : Nat) : State :=
  let s := s.dropFirmware.unsupBegin
  let u := s.sup
  let s1 : State := { s with sup := { u with
    failCause := none, lastCause := c, failovers := satAdd 16 u.failovers 1, bootKind := .failover
    takeoverDue := (s.svIn .standby).isSome, qualFailover := (s.svIn .qualifying).isSome } }
  (s1.raise 0x08 0).report 0x08 0 0x08 s1.svStat 0

/-- The first step of a failover (R446). A supervisor whose restart failed its boot is `FAILED` already (R447). -/
def State.failoverNow (s : State) (c : Nat) : State :=
  match s.svRole with
  | none => if c = 1 ∧ s.sup.restartAt.isSome then s.failoverRest c else { s with sup := { s.sup with failCause := none } }
  | some i => (if c = 2 then s.setSv i .off else s.svFail i).failoverRest c

/-- The reasons against a write of `SV_CMD`, but for its writer (R471). -/
def State.svReasons (s : State) (v : Word) : List Reason :=
  [(bit v 0 && s.sv (fld v 8 8) != .failed, .state), (bit v 1 && (s.svIn .standby).isNone, .state)]

/-- `SV_CMD.REARM` (R449): a qualifying boot of a failed supervisor whose feed is qualified. -/
def State.svRearm (s : State) (i : Nat) : State :=
  if s.sv i = .failed ∧ s.svFeedOk i = true then s.setSv i .qualifying else s

/-- Whether a supervisor has failed three times within the last 24 hours of TB2 (R449). -/
def State.failedOften (s : State) (i : Nat) : Bool :=
  decide (3 ≤ ((if i = 0 then s.sup.fails0 else s.sup.fails1).filter fun t => s.tb2Sec < t + 86400).length)

/-- The ROM firmware's `REARM` of every failed supervisor, once it is due (R449). -/
def State.romRearm (s : State) : State :=
  if s.sup.rearmAt.any (· ≤ s.time.total) then
    let s1 : State := { s with sup := { s.sup with rearmAt := none } }
    [0, 1].foldl (fun s i => if s.failedOften i then s else s.svRearm i) s1
  else s

/-- `SV_CMD.RESTART` (R447): the active supervisor boots again in its island. -/
def State.svRestart (s : State) : State :=
  match s.svIn .active with
  | none => s
  | some i =>
    let s := (s.setSv i .starting).dropFirmware.unsupBegin
    { s with sup := { s.sup with bootKind := .restart, restartAt := some s.time.total } }

/-- `SV_CMD` (R446, R447, R449). -/
def State.svCmd (s : State) (v : Word) : State :=
  if bit v 0 then s.svRearm (fld v 8 8)
  else if bit v 1 then (if (s.svIn .active).isSome then s.failNote 4 else s)
  else s.svRestart

/-- The reasons against a write of `WD_FEED` by an agent (R471): only the active supervisor feeds it. -/
def State.wdReasons (s : State) (a : Nat) : List Reason := [(decide (2 ≤ a) || !s.supervised, .access)]

-- The update state (R459).

/-- A flag copy (R459). -/
structure UpdFlag where
  seq : Nat := 0
  state : Nat := 0
  boots : Nat := 0
  slot : Nat := 0
  active : Nat := 0
  inactive : Nat := 0
  len : Nat := 0
  crc : Nat := 0
  deriving DecidableEq, Repr

/-- A flag copy as NVM holds it, if it is valid. -/
def State.flagCopy (s : State) (k : Nat) : Option (Nat × UpdFlag) :=
  let a := 0xF80000 + 64 * k
  let w := fun i => s.nv.nvm.word (a + 8 * i)
  if fld (w 7) 31 0 = crc32c (s.nv.nvm.bytes a 56) then
    some (fld (w 0) 63 32,
      { seq := fld (w 0) 63 32, state := fld (w 0) 26 24, boots := fld (w 0) 23 16, slot := fld (w 0) 0 0
        active := fld (w 1) 63 32, inactive := fld (w 1) 31 0, len := (w 2).toNat, crc := (w 3).toNat })
  else none

/-- The flag in force. -/
def State.flag (s : State) : UpdFlag := (laterCopy (s.flagCopy 0) (s.flagCopy 1)).getD {}

/-- The copy that is in force: the valid one, of two the later. -/
def State.flagPlace (s : State) : Nat :=
  match s.flagCopy 0, s.flagCopy 1 with
  | some x, some y => if laterSeq y.1 x.1 then 1 else 0
  | none, some _ => 1
  | _, _ => 0

/-- NVM bytes written. -/
def State.nvmWrite (s : State) (a : Nat) (bs : List Byte) : State := { s with nv := { s.nv with nvm := s.nv.nvm.write a bs } }

/-- Words as bytes. -/
def wordsBytes (ws : List Word) : List Byte := (ws.map fun w => leBytes 8 w.toNat).flatten

/-- A 64-byte copy with its CRC in word 7, from words 0 to 6. -/
def sealCopy (ws : List Word) : List Byte :=
  let bs := wordsBytes ((ws ++ List.replicate 7 0).take 7)
  bs ++ leBytes 8 (crc32c bs)

/-- A flag written to the copy that is not in force, with the next sequence number (R459). -/
def State.setFlag (s : State) (f : UpdFlag) : State :=
  let seq := (s.flag.seq + 1) % 2 ^ 32
  s.nvmWrite (0xF80000 + 64 * (1 - s.flagPlace))
    (sealCopy [word (at_ 32 seq + at_ 24 f.state + at_ 16 f.boots + f.slot), word (at_ 32 f.active + f.inactive), word f.len,
      word f.crc])

/-- The update state (R439, R459): `RECEIVING` is not written. -/
def State.updState (s : State) : Nat := if s.sup.recvLen.isSome then 1 else s.flag.state

/-- Seconds of TB2 left to confirm (R461, R474). -/
def State.confirmLeft (s : State) : Nat :=
  match s.sup.confirmEnd with
  | some t => (t - s.time.total) / 1500000000
  | none => 0

/-- `UPD_STAT` (R474). -/
def State.updStat (s : State) : Word :=
  word (at_ 32 s.confirmLeft + at_ 16 s.sup.lastFail + at_ 8 s.flag.boots + at_ 3 s.flag.slot + s.updState)
/-- `UPD_VER` (R474). -/
def State.updVer (s : State) : Word := word (at_ 32 s.flag.active + s.flag.inactive)

/-- Gate U of R431. -/
def State.updGate (s : State) : Bool := s.updState == 3 || s.updState == 4

-- NVM and gating.

/-- `NVM_DATA` written: the word stored, the address advanced (R474). -/
def State.nvmPut (s : State) (v : Word) : State :=
  let a := fld (s.rd R.NVM_ADDR) 23 3
  (s.nvmWrite (8 * a) (leBytes 8 v.toNat)).wr R.NVM_ADDR 0 (word (8 * ((a + 1) % 2 ^ 21)))

/-- `NVM_CMD`: an overlay slot's erase begun (R474). -/
def State.nvmErase (s : State) (slot : Nat) : State := { s with nv := { s.nv with erasing := some slot } }

/-- Whether a secure transaction between arbitration and response is addressed to a page's block (R466). -/
def txnUses (page : Nat) (t : Txn) : Bool :=
  t.secure && t.gen.isSome && t.resp.isNone &&
    (if 0x40 ≤ page ∧ page ≤ 0x47 then t.port == 0 && hCtl t.addr / 32 == page - 0x40
     else if 0x54 ≤ page ∧ page ≤ 0x57 then t.port == 6
     else page == 0x5D && t.port == 7)

/-- The secure transactions that use a page's block. -/
def State.secureTxns (s : State) (page : Nat) : List Nat :=
  s.xbar.txns.filterMap fun e => match e.2 with
    | some t => if txnUses page t then some e.1 else none
    | none => none

/-- Whether a secure operation uses a page's block (R466). A DMA page takes no gating request: its `ENABLE` always reads 1 (R61). -/
def State.secureUse (s : State) (page : Nat) : Bool := !(s.secureTxns page).isEmpty

/-- A gating request deferred (R466). -/
def State.gateDefer (s : State) (page : Nat) (v : Word) : State :=
  let u := s.sup
  { s with sup := { u with gates := u.gates ++ [{ page := page, value := v, since := s.time.total }], gateCode := Code.defer.num, gatePage := page
                           deferrals := satAdd 16 u.deferrals 1 } }

/-- Whether a page's gating is deferred. -/
def State.gatePending (s : State) (page : Nat) : Bool := s.sup.gates.any fun g => g.page == page

/-- Whether the transmit map in force gives an Ethernet port on a quad a `UNIT` entry (R334). -/
def State.ethSched (s : State) (q : Nat) : Bool := (List.range 32).any fun e => s.ethQuad e == q && s.hasUnit 2 e

/-- A fatal or other state of a page's block at an image: whether the running image uses it (R61, R62, R187, R240). -/
def State.pageUsed (s : State) (page : Nat) : Bool :=
  match s.image with
  | none => false
  | some m =>
    let prog := fun ty lo n => (List.range n).any fun k => (progSect m ty (lo + k)).isSome
    if 0x20 ≤ page ∧ page ≤ 0x2F then prog tySluice (16 * (page - 0x20)) 16
    else if 0x30 ≤ page ∧ page ≤ 0x3F then
      let i := page - 0x30
      prog tyPan (16 * i) 16 || prog tyFeeder i 1 || prog tyFeeder (16 + i) 1 || prog tyRake (4 * i) 4
    else if 0x40 ≤ page ∧ page ≤ 0x47 then (List.range 64).any fun k => s.hasUnit 0 (64 * (page - 0x40) + k)
    else if 0x48 ≤ page ∧ page ≤ 0x4F then
      (List.range 32).any fun k => s.lkSched (32 * (page - 0x48) + k) || s.ethSched (32 * (page - 0x48) + k)
    else if 0x50 ≤ page ∧ page ≤ 0x53 then (List.range 64).any fun k => s.lkSched (64 * (page - 0x50) + k)
    else if 0x54 ≤ page ∧ page ≤ 0x57 then (List.range 8).any fun k => s.hasUnit 2 (8 * (page - 0x54) + k)
    else if page = 0x5B then s.rdb R.SAL_CAL 0 63
    else page == 0x5D && imgSaltern m

end Sys2Proof.Machine
end

