-- ==== Sys2Proof/Machine/SalOps.lean ====
section
/-! DEFINITION. The operations of the salinometer (spec/17): entries, dwells, triggers, urgent requests, records. -/

namespace Sys2Proof.Machine

/-- `CAL_STAT.CONVERGED`. -/
def State.converged (s : State) : Bool := s.rdb R.CAL_STAT 0 0

/-- The model clock at a count of SCLK since AON start, as far as the tide in progress reaches. -/
def State.toTotal (s : State) (t : Nat) : State := s.toSclk (s.nowSclk + (t - s.time.total))

/-- `TIME` (R153, R485) of a count of SCLK since AON start. -/
def State.stampOf (s : State) (t : Nat) : Nat :=
  let d := s.time.total - t
  if d ≤ s.nowSclk then s.nowSclk - d else s.nowSclk + s.sched.prevLen - d

/-- Half SCLK from one sample to the next (R476, R478). -/
def Salin.step (x : Salin) : Nat := if x.lowPwr then 2 else 1

/-- The word that governs the dwell in progress: an urgent request's, or the entry's. -/
def Salin.word (x : Salin) : Word :=
  match x.urg with
  | some (_, w) => w
  | none => x.cur
/-- Samples of the dwell in progress: `SEQ_e` and the request words place `DWELL_M1` differently. -/
def Salin.count (x : Salin) : Nat :=
  match x.urg with
  | some (_, w) => fld w 37 18 + 1
  | none => fld x.cur 59 40 + 1
/-- Whether the dwell in progress is a burst. -/
def Salin.burst (x : Salin) : Bool :=
  match x.urg with
  | some (_, w) => bit w 38
  | none => bit x.cur 60
/-- The last sample's place, in half SCLK. -/
def Salin.lastHalf (x : Salin) : Nat := x.t0 + (x.count - 1) * x.step

/-- `LOWPWR` in force from an input switch or a repeat's start on (R478): a change starts convergence again. -/
def State.salMode (s : State) : State :=
  let want := s.rdb R.SAL_CFG 0 8
  if want = s.sal.lowPwr then s
  else (s.setSal fun x => { x with lowPwr := want }).wrb R.CAL_STAT 0 0 false

/-- A dwell's first sample at a time in half SCLK: whether it begins before convergence (R477). -/
def State.salBegin (s : State) (t0 : Nat) : State :=
  let c := s.converged
  s.setSal fun x => { x with t0 := t0, uncal := !c }

/-- The input switched at an SCLK; conversions for 60 SCLK are discarded (R480, R483, R484). -/
def State.salSwitch (s : State) (input at_ : Nat) : State :=
  ((s.setSal fun x => { x with input := input, settle := 0 }).salMode).salBegin (2 * (at_ + 60))

/-- An entry started at the SCLK `t0` holds (R480, R481): read, its input switched; a latched trigger is consumed. -/
def State.salEntry (s : State) : State :=
  let w := s.rd R.SEQ 0 s.sal.entry
  let at_ := s.sal.t0 / 2
  let s := s.setSal fun x => { x with cur := w, rep := 0, trig := bit w 61 && x.trigPend
                                      trigPend := x.trigPend && !bit w 61
                                      phase := if bit w 61 && !x.trigPend then .trigWait else .dwelling }
  s.salSwitch (fld w 4 0) at_

/-- The entry after the present one (R480). -/
def State.salNext (s : State) : Nat :=
  if s.rdf R.SAL_CFG 0 5 0 ≤ s.sal.entry then 0 else s.sal.entry + 1

/-- A delay that is over: the next entry is to start at its end (R480). -/
def State.delayOver (s : State) : State :=
  if s.sal.phase = .delay ∧ s.sal.t0 ≤ 2 * s.time.total then
    let n := s.salNext
    s.setSal fun x => { x with entry := n, rep := 0, phase := .switching }
  else s

/-- An entry whose start has come (R480). -/
def State.entryDue (s : State) : State :=
  if s.sal.phase = .switching ∧ s.enabled 0x5B = true ∧ s.sal.t0 ≤ 2 * s.time.total then s.salEntry else s

/-- A trigger wait that ends: a latched trigger is taken once the switch period is past (R480, R481). -/
def State.trigOver (s : State) : State :=
  if s.sal.phase = .trigWait ∧ s.sal.trigPend = true ∧ s.sal.t0 ≤ 2 * s.time.total then
    s.setSal fun x => { x with phase := .dwelling, trigPend := false, trig := true }
  else s

/-- The sequencer brought to the present moment (R480, R481). -/
def State.salSettle (s : State) : State := s.delayOver.entryDue.trigOver

/-- An urgent request put to run at SCLK t (R483); `resume` says what it interrupts. -/
def State.urgStart (s : State) (sched : Bool) (w : Word) (t : Nat) : State :=
  let s := s.setSal fun x =>
    let x := if x.phase = .schedule ∨ x.phase = .host then x else { x with resume := x.phase }
    { x with phase := if sched then .schedule else .host, urg := some (sched, w) }
  s.salSwitch (fld w 4 0) (t + 2)

/-- The sequence resumed at SCLK t with a new switch period (R483); after a delay, with the next entry. -/
def State.salResume (s : State) (t : Nat) : State :=
  let r := s.sal.resume
  let n := s.salNext
  let s := s.setSal fun x =>
    if r = .delay then { x with urg := none, phase := .switching, resume := .stopped, entry := n, rep := 0, t0 := 2 * t }
    else { x with urg := none, phase := r, resume := .stopped, t0 := 2 * t }
  if r = .dwelling ∨ r = .trigWait then s.salSwitch (fld s.sal.cur 4 0) t else s

/-- What follows an urgent request: a pending one, the schedule's first, or the sequence (R482, R483). -/
def State.urgNext (s : State) (t : Nat) : State :=
  match s.sal.urgS, s.sal.urgH with
  | some w, _ => (s.setSal fun x => { x with urgS := none }).urgStart true w t
  | none, some w => (s.setSal fun x => { x with urgH := none }).urgStart false w t
  | none, none => s.salResume t

/-- A sample as the converter gives it: its code, whether it was beyond full scale, whether it settles (R484). -/
structure Sample where
  code : Int
  ovr : Bool
  settling : Bool
  deriving DecidableEq, Repr

/-- The samples of a dwell from its raw codes, and how many of the next conversions settle (R484). -/
def salSamples : Nat → List RawCode → List Sample × Nat
  | n, [] => ([], n)
  | n, c :: cs =>
    let o := decide (c < -2048) || decide (2047 < c)
    let r := salSamples (if o then 2 else n - 1) cs
    ({ code := clampI (-2048) 2047 c, ovr := o, settling := decide (0 < n) } :: r.1, r.2)

/-- The 16 bits of a captured sample (R487). -/
def Sample.capture (x : Sample) : BitVec 16 :=
  BitVec.ofNat 16 (at_ 13 (b2n x.settling) + at_ 12 (b2n x.ovr) + field2c 12 x.code)

/-- Samples written to the capture memory from `CAP_PTR` on (R487). -/
def State.capWrite (s : State) (xs : List Sample) : State :=
  let p := (s.rd R.CAP_PTR).toNat
  let s1 := s.setSal fun y => { y with cap := (xs.zipIdx).foldl (fun m e =>
    mset (fun _ => 0) m ((p + e.2) % 32768) e.1.capture) y.cap }
  s1.wr R.CAP_PTR 0 (word ((p + xs.length) % 32768))

/-- A dwell's record (R485). -/
def State.salWords (s : State) (xs : List Sample) : List Word :=
  let x := s.sal
  let src := match x.urg with
    | some (true, _) => 1
    | some (false, _) => 2
    | none => 0
  let uncal := x.uncal || s.rdf R.SAL_XCFG 0 1 0 == 2
  let flags := at_ 7 (b2n (xs.any (·.ovr))) + at_ 6 (b2n (xs.any (·.settling))) + at_ 5 (b2n uncal)
    + at_ 4 (b2n (x.trig && x.urg.isNone)) + at_ 3 (b2n x.burst) + at_ 2 (b2n x.lowPwr) + at_ 1 (b2n x.afterLoss) + x.t0 % 2
  let sum := (xs.map (·.code)).sum
  let sq := (xs.map fun y => y.code * y.code).sum
  [word (at_ 32 (s.rd R.RES_WSEQ).toNat + at_ 30 src + at_ 24 x.entry + at_ 19 x.input + flags),
   word (at_ 44 (xs.length - 1) + (if x.burst then (s.rd R.CAP_PTR).toNat else sq.toNat)),
   word (at_ 32 (if x.urg.isSome then 0 else x.rep) + (if x.burst then 0 else field2c 32 sum)),
   word (s.stampOf (x.t0 / 2))]

/-- A record put into the ring, or lost (R486). -/
def State.salRecord (s : State) (ws : List Word) : State :=
  let n := (s.rd R.RES_WSEQ).toNat
  if 32 ≤ occupancy n (s.rd R.RES_RSEQ).toNat then
    ((s.countf R.SAL_CNT 0 63 48).raise 0x5B 1).setSal fun x => { x with afterLoss := true }
  else
    let s := (List.range 4).foldl (fun s k => s.wr R.RES_RW 0 (ws.getD k 0) (4 * (n % 32) + k)) s
    ((s.wr R.RES_WSEQ 0 (word ((n + 1) % 2 ^ 32))).raise 0x5B 0).setSal fun x => { x with afterLoss := false }

/-- A dwell ended with its raw codes (R484 to R487). -/
def State.dwellEnd (s : State) (codes : List RawCode) : State :=
  let (xs, left) := salSamples s.sal.settle codes
  let ws := s.salWords xs
  let s := if xs.any (·.ovr) then (s.countf R.SAL_CNT 0 15 0).raise 0x5B 2 else s
  let s := if s.sal.burst then s.capWrite xs else s
  (s.setSal fun x => { x with settle := left }).salRecord ws

/-- What follows a dwell of an entry (R480): the next dwell back to back, or the delay. -/
def State.dwellNext (s : State) : State :=
  let x := s.sal
  let next := x.lastHalf + x.step
  if x.rep < fld x.cur 39 24 then
    ((s.setSal fun x => { x with rep := x.rep + 1, trig := false }).salMode).salBegin next
  else s.setSal fun y => { y with phase := .delay, trig := false
                                  t0 := 2 * (x.lastHalf / 2 + 1 + 1500 * fld x.cur 23 8) }

/-- The first SCLK after the RCLK in progress (R483). -/
def State.afterRclk (s : State) : Nat := (s.time.total / 6 + 1) * 6

/-- `SAL_CFG` written (R478, R480). -/
def State.wrSalCfg (s : State) (v : Word) : State :=
  let old := s.rd R.SAL_CFG
  let s := s.wr R.SAL_CFG 0 v
  let p : SalPhase := if bit v 7 then .switching else .stopped
  let now := 2 * s.time.total
  if bit v 7 = bit old 7 then s
  else s.setSal fun x =>
    let x := { x with entry := 0, rep := 0, trig := false }
    if x.urg.isSome then { x with resume := p } else { x with phase := p, t0 := now }

/-- The reasons against `URG_CTRL` (R482). -/
def State.urgReasons (s : State) : List Reason :=
  [(s.sal.urgH.isSome || s.sal.phase == .host || !s.enabled 0x5B, .state)]

/-- `URG_CTRL` with `GO` (R482, R483). -/
def State.urgGo (s : State) (v : Word) : State :=
  if s.sal.urg.isSome then s.setSal fun x => { x with urgH := some v } else s.urgStart false v s.afterRclk

/-- `SAL_CMD` (R481, R482). -/
def State.salCmd (s : State) (v : Word) : State :=
  if bit v 1 then s.setSal fun x => { x with trigPend := false }
  else
    let s := s.setSal fun x => { x with urgH := none }
    if s.sal.phase = .host then s.urgNext s.afterRclk else s

/-- `ENABLE` of the SALIN page cleared (R488). -/
def State.salOff (s : State) : State :=
  (s.wrb R.CAL_STAT 0 0 false).setSal fun x =>
    { x with phase := .stopped, urg := none, urgS := none, urgH := none, trigPend := false, trig := false
             resume := .stopped, settle := 0 }

/-- `SAL_XCFG` written: `STALE` clears when the mode returns to 0 (R477). -/
def State.wrSalXcfg (s : State) (v : Word) : State :=
  let s := s.wr R.SAL_XCFG 0 v
  if fld v 1 0 = 0 then s.wrb R.CAL_STAT 0 1 false else s

/-- `RES_RSEQ` and `ERR_RSEQ`: a write past the producer or backward (R486, R509). -/
def rseqBad (wseq rseq v : Nat) : Bool := decide (occupancy wseq rseq < occupancy v rseq)

/-- `SAL_STAT.PHASE` (R488): a switch period ends with its 60 SCLK. -/
def State.salPhase (s : State) : Nat :=
  match s.sal.phase with
  | .stopped => 0
  | .switching => 1
  | .dwelling => if 2 * s.time.total < s.sal.t0 then 1 else 2
  | .delay => 3
  | .trigWait => if 2 * s.time.total < s.sal.t0 then 1 else 4
  | .schedule => 5
  | .host => 6

/-- `SAL_STAT` (R488), of the sequencer as it stands at the read. -/
def State.salStat (s : State) : Word :=
  let s := s.salSettle
  let x := s.sal
  word (at_ 32 (x.rep % 65536) + at_ 20 x.entry + at_ 15 x.input + at_ 12 s.salPhase + at_ 11 (b2n x.trigPend)
    + at_ 10 (b2n x.urgS.isSome) + at_ 9 (b2n x.urgH.isSome) + at_ 8 (b2n s.converged) + at_ 7 (b2n x.lowPwr))

/-- `CAP_DATA`: four positions of the capture memory (R487). -/
def State.capData (s : State) (w : Nat) : Word :=
  word (((List.range 4).map fun i => at_ (16 * i) (mget (fun _ => 0) s.sal.cap ((4 * w + i) % 32768)).toNat).sum)

end Sys2Proof.Machine
end

