-- ==== Sys2Proof/Machine/ErrOps.lean ====
section
/-! DEFINITION. The operations of the bittern's collector and ring, the NVM summary, test mode and the built-in self-test
(spec/19). -/

namespace Sys2Proof.Machine

/-- The bittern, changed. -/
def State.setBitt (s : State) (f : Bittern → Bittern) : State := { s with bitt := f s.bitt }

/-- The first latch after a position in source order, wrapping (R505). -/
def latchAfter (ls : List Latch) (pos : Option Nat) : Option Latch :=
  (ls.find? fun l => match pos with
    | some p => decide (p < l.src)
    | none => true).or ls.head?

/-- The first RCLK in which the collector can record a latch: the one after its report's (R505). -/
def Latch.from_ (l : Latch) : Nat := l.since / 6 + 1

/-- The latch that the collector records in an RCLK: of those reported before it, a fatal one before any other (R505). -/
def Bittern.pick (b : Bittern) (r : Nat) : Option Latch :=
  let ls := b.latches.filter fun l => decide (l.from_ ≤ r)
  (latchAfter (ls.filter (·.fatal)) b.posFatal).or (latchAfter (ls.filter fun l => !l.fatal) b.posOther)

/-- The RCLK in which the collector records next: one latch in an RCLK (R505). -/
def Bittern.nextAt (b : Bittern) : Option Nat := ((b.latches.map Latch.from_).min?).map (max b.recAt)

/-- A latch as the entry of a sequence number (R508). -/
def Latch.entry (l : Latch) (seq supp : Nat) : List Word :=
  let ws := [word (at_ 32 seq + at_ 24 (l.src % 256) + at_ 23 (b2n l.fatal) + at_ 16 (l.src / 65536) + at_ 8 (l.src / 256 % 256)),
    word (at_ 32 l.coalesced), l.tide, word (at_ 32 l.epoch + l.slot), l.d0, l.d1, l.sec]
  ws ++ [word (at_ 32 (min supp 0xFFFFFFFF) + crc32c (wordsBytes ws))]

/-- An entry put into the ring (R509). -/
def State.ringEntry (s : State) (ws : List Word) : State :=
  let b := s.bitt
  let full := occupancy b.wseq b.rseq = 4096
  let s := s.setBitt fun b => { b with
    ring := ws.zipIdx.foldl (fun m e => mset (fun _ => 0) m (8 * (b.wseq % 4096) + e.2) e.1) b.ring
    wseq := (b.wseq + 1) % 2 ^ 32
    rseq := if full then (b.rseq + 1) % 2 ^ 32 else b.rseq }
  let s := s.raise 0x0B 0
  if full then (s.count R.ERR_OVERWRITTEN 0).raise 0x0B 2 else s

/-- The first fatal entry put into the first-fault set (R510). -/
def State.firstFault (s : State) (ws : List Word) : State :=
  let f := [ws.getD 0 0, ws.getD 2 0, ws.getD 4 0, ws.getD 5 0]
  let s := s.setBitt fun b => { b with ffHeld := true }
  let s := [R.FF_W0, R.FF_W1, R.FF_W2, R.FF_W3].zip f |>.foldl (fun s e => s.wr e.1 0 e.2) s
  (s.raise 0x0B 1).notify 0x8009 f

/-- What a fatal entry does to the first-fault set and the summary (R510, R511). -/
def State.fatalEntry (s : State) (ws : List Word) : State :=
  let now := s.rclk
  let s := s.setBitt fun b => { b with sumDue := true, newFatal := b.newFatal ++ [ws], lastFatal := some (now, ws) }
  if s.bitt.ffHeld then s
  else
    s.firstFault ws

/-- One latch recorded in this RCLK (R505 to R510). -/
def State.collect (s : State) : State :=
  let now := s.rclk
  match s.bitt.pick now with
  | none => s
  | some l =>
    let supp := mget (fun _ => 0) s.bitt.suppressed l.src
    let cls := l.src % 256
    let ws := l.entry s.bitt.wseq supp
    let s := s.setBitt fun b =>
      let b := { b with latches := b.latches.filter (fun x => x.src ≠ l.src), recAt := now + 1
                        suppressed := mset (fun _ => 0) b.suppressed l.src 0
                        newCounts := mset (fun _ => 0) b.newCounts cls (mget (fun _ => 0) b.newCounts cls + 1) }
      if l.fatal then { b with posFatal := some l.src } else { b with posOther := some l.src }
    let s := s.ringEntry ws
    if l.fatal then s.fatalEntry ws else s

/-- The first-fault set emptied; a fatal entry recorded in this RCLK is the first one after it (R510). -/
def State.ffClear (s : State) : State :=
  let t := [R.FF_W0, R.FF_W1, R.FF_W2, R.FF_W3].foldl (fun s r => s.wr r 0 0) (s.setBitt fun b => { b with ffHeld := false })
  match s.bitt.lastFatal with
  | some (r, ws) => if r = s.rclk then (if s.bitt.ffHeld ∧ s.rd R.FF_W0 = ws.getD 0 0 then s else t.firstFault ws) else t
  | none => t

/-- `ERR_CMD` (R510, R511, R513). -/
def State.errCmd (s : State) (v : Word) : State :=
  if bit v 2 then s.setBitt fun b => { b with sumDue := true }
  else if bit v 1 then s.setBitt fun b => { b with wseq := 0, rseq := 0, posFatal := none, posOther := none }
  else s.ffClear

/-- `ERR_RD_w` (R513): word w of entry `ERR_RSEQ`. -/
def State.errRd (s : State) (w : Nat) : Word :=
  if s.bitt.wseq = s.bitt.rseq then 0 else mget (fun _ => 0) s.bitt.ring (8 * (s.bitt.rseq % 4096) + w)

-- The NVM summary (R511).

/-- First byte of a copy of the summary. -/
def sumBase (k : Nat) : Nat := 0xFC0000 + 0x20000 * k

/-- The CRC of a copy: every byte of it except word 7. -/
def sumCrc (bs : List Byte) : Nat := crc32c (bs.take 56 ++ bs.drop 64)

/-- A copy's sequence, if the copy is valid. -/
def State.sumCopy (s : State) (k : Nat) : Option Nat :=
  let a := sumBase k
  if s.nv.nvm.word a = 0x314E525442564E58 ∧ fld (s.nv.nvm.word (a + 56)) 31 0 = sumCrc (s.nv.nvm.bytes a 0x20000) then
    some (s.nv.nvm.word (a + 8)).toNat
  else none

/-- The copy in force: the valid one with the later sequence. -/
def State.sumPlace (s : State) : Option Nat :=
  match s.sumCopy 0, s.sumCopy 1 with
  | some x, some y => some (if x < y then 1 else 0)
  | some _, none => some 0
  | none, some _ => some 1
  | none, none => none

/-- `SUM_STAT` (R513). -/
def State.sumStat (s : State) : Word :=
  match s.sumPlace with
  | some k => word (at_ 32 ((s.nv.nvm.word (sumBase k + 8)).toNat % 2 ^ 32) + fld (s.nv.nvm.word (sumBase k + 16)) 31 0)
  | none => 0

/-- The fatal entries that a copy holds, oldest first: its unused positions are zero. -/
def State.sumFatal (s : State) (k : Nat) : List (List Byte) :=
  (chunks 64 2014 (s.nv.nvm.bytes (sumBase k + 2176) 128896)).filter fun e => e.any (· != 0)

/-- The summary written to the other copy (R511). -/
def State.writeSummary (s : State) : State :=
  let old := s.sumPlace
  let seq := old.elim 1 fun k => (s.nv.nvm.word (sumBase k + 8)).toNat + 1
  let counts := (List.range 256).map fun c =>
    satWord (old.elim 0 fun k => s.nv.nvm.word (sumBase k + 128 + 8 * c)) (mget (fun _ => 0) s.bitt.newCounts c)
  let fatal := old.elim [] s.sumFatal ++ s.bitt.newFatal.map wordsBytes
  let fatal := fatal.drop (fatal.length - 2014)
  let head := wordsBytes [0x314E525442564E58, word seq, word s.tb2Sec, 0, 0, 0, 0]
  let body := wordsBytes ([s.rd R.FF_W0, s.rd R.FF_W1, s.rd R.FF_W2, s.rd R.FF_W3, 0, 0, 0, 0] ++ counts) ++ fatal.flatten
  let body := body ++ List.replicate (131008 - body.length) 0
  let copy := head ++ leBytes 8 (crc32c (head ++ body)) ++ body
  let place := match old with
    | some 0 => 1
    | _ => 0
  (s.nvmWrite (sumBase place) copy).setBitt fun b => { b with sumDue := false, sumLast := some s.tb2Sec, newCounts := [], newFatal := [] }

/-- The first-fault set reloaded at a core start if it is empty (R511). -/
def State.reloadFirst (s : State) : State :=
  match s.bitt.ffHeld, s.sumPlace with
  | false, some k =>
    let f := (List.range 4).map fun i => s.nv.nvm.word (sumBase k + 64 + 8 * i)
    if f.headD 0 = 0 then s
    else ([R.FF_W0, R.FF_W1, R.FF_W2, R.FF_W3].zip f).foldl (fun s e => s.wr e.1 0 e.2)
      (s.setBitt fun b => { b with ffHeld := true })
  | _, _ => s

-- Test mode and self-test (R514, R517).

/-- `DEV_STATUS.TEST_MODE`. -/
def State.testMode (s : State) : Bool := s.rdb R.TEST_CTRL 0 0

/-- The pages that exist (R51). -/
def allPages : List Nat := List.range 0x60

/-- `TEST_CTRL` written (R514): leaving test mode ends every perturbation. -/
def State.wrTestCtrl (s : State) (v : Word) : State :=
  let was := s.testMode
  let s := s.wr R.TEST_CTRL 0 v
  if was ∧ !bit v 0 then
    let s := allPages.foldl (fun s p => s.setHdr p hPerturb 0) s
    (List.range 8).foldl (fun s t => s.wr R.TP_XB 0 0 t) (s.wr R.TP_DMA 0 0)
  else s

/-- The reasons against `TEST_CTRL` (R142, R514). -/
def State.testReasons (s : State) (v : Word) : List Reason :=
  [(bit v 0 && !s.testMode && s.tam.hold, .state), (!bit v 0 && s.testMode && s.sched.stress, .state)]

/-- The reasons against `BIST_CMD` (R517). -/
def State.bistReasons (s : State) (v : Word) : List Reason :=
  [(bit v 4 && (!s.testMode || s.sched.run.isSome || s.test.bist.isSome), .state)]

/-- `BIST_CMD`: a test begun (R517). -/
def State.bistCmd (s : State) (v : Word) : State :=
  if bit v 4 then
    let s1 : State := { s with test := { s.test with bist := some (fld v 3 0) } }
    s1.wr R.BIST_RES 0 (word (at_ 12 (fld v 3 0)))
  else s

/-- The memories of a group left zero (R517). -/
def State.bistZero (s : State) (g : Nat) : State :=
  match g with
  | 0 => { s with pans := { s.pans with pan := mmap (fun _ => {}) (fun (p : Pan) =>
      { p with opm := [], opq := [], acc := [], tr0 := {}, tr1 := {} }) s.pans.pan } }
  | 1 => { s with pans := { s.pans with
      feeder := mmap (fun _ => {}) (fun (f : Feeder) => { f with buf := [], land := [] }) s.pans.feeder
      row := mmap (fun _ => {}) (fun (r : BeamRow) => { r with exq := [], imp := [], blk := none, buf := 0 }) s.pans.row
      rake := mmap (fun _ => {}) (fun (k : Rake) => { k with blks := [], rq := [], wq := [] }) s.pans.rake } }
  | 2 =>
    let s1 : State := { s with slu := { s.slu with
      gainW := [], gainS := [], winW := [], winS := [], clips := []
      slot := mmap (fun _ => {}) (fun (x : SluSlot) => { x with f := none, b := none, cnt := 0, valid := 0, sum := 0 }) s.slu.slot } }
    s.slu.slot.foldl (fun t e => t.showLevels (e.1 / 16) (e.1 % 16)) s1
  | 3 =>
    let s1 : State := { s with sched := { s.sched with check := none } }
    (s1.clearStore 0).clearStore 1
  | _ =>
    let s := s.mesh.inbox.foldl (fun s c => s.freeBuf c.1 3) s
    let s := (s.links.link.map (·.1)).foldl (fun s q => (s.lk q).held.foldl (fun s h => s.freeBuf q (cellType h.2.1)) s) s
    { s with links := { s.links with link := mmap (fun _ => {}) (fun (l : Link) => { l with rx := [], held := [] }) s.links.link }
             mesh := { s.mesh with inbox := [] }
             net := { s.net with port := mmap (fun _ => {}) (fun (p : Port) =>
               { p with stage := 0, reading := none, ready := [], flight := [], tx := none }) s.net.port } }

/-- Elements of a group (R517). -/
def bistCount (g : Nat) : Nat := [256, 112, 256, 2, 288].getD g 0

/-- The self-test's end (R517). -/
def State.bistEnd (s : State) (failing : List Nat) : State :=
  match s.test.bist with
  | none => s
  | some g =>
    let bad := (failing.filter (· < bistCount g)).eraseDups
    let s1 : State := { s with test := { s.test with bist := none } }
    let s2 := (s1.bistZero g).wr R.BIST_RES 0
      (word (at_ 48 bad.length + at_ 32 ((bad.min?).getD 0) + at_ 12 g + at_ 1 (b2n !bad.isEmpty) + 1))
    let s3 := s2.raise 0x5E 0
    if bad.isEmpty then s3 else s3.report 0x5E 0 0x18 (s3.rd R.BIST_RES) 0

/-- `TEST_STAT` (R517). -/
def State.testStat (s : State) : Word :=
  word (at_ 2 (b2n s.sched.stress) + at_ 1 (b2n s.test.bist.isSome) + b2n s.testMode)

end Sys2Proof.Machine
end

