-- ==== Sys2Proof/Machine/RegGuard.lean ====
section
/-! DEFINITION. The reasons for rejecting a register write that depend on more than the value: the agent and its world,
committed shadow sets, the state of the block, fields that the running image holds (R13, R68 to R70 and each chapter's
register tables). Every function here takes the register, its unit `u` and index `k`, and the value. -/

namespace Sys2Proof.Machine

/-- Whether an agent's accesses are of the secure world (R53). -/
def State.secureWorld (s : State) (a : Agent) : Bool := a == .secure || (a == .debug && s.sup.dbgGrant)

/-- `PIN_OE`: a bit whose fault latch is set, or whose pin hardware disables in this RCLK (R47). -/
def State.pinGuard (s : State) (r : Reg) (v : Word) : List Reason :=
  if r = R.PIN_OE then
    let f := s.rd R.PIN_FAULT
    [((v &&& (f ||| (f >>> 32))) &&& 0x3FFFF#64 != 0, .state),
     ((List.range 18).any (fun p => bit v p && pget s.pins.offAt p == some s.rclk), .state)]
  else []

/-- The schedule engine's registers (R104 to R106). -/
def State.schedGuard (s : State) (r : Reg) (v : Word) : List Reason :=
  if r = R.LOAD_CMD then s.loadReasons v
  else if r = R.ARM_TIDE then [(s.swapGate, .state)]
  else if r = R.ARM_CTRL then s.armReasons v
  else if r = R.ARM_CANCEL then s.cancelReasons v
  else []

/-- Lane registers (R167, R169, R171, R172). -/
def State.laneGuard (s : State) (r : Reg) (l : Nat) (v : Word) : List Reason :=
  let q := l / 4
  if r = R.LANE_CFG then [(fld v 12 8 != s.rdf R.LANE_CFG l 12 8 && s.lkSched q, .sched)]
  else if r = R.PRBS_CTRL then
    [(fld v 3 2 == 3 || fld v 11 10 == 3, .value),
     ((bit v 1 || bit v 9) && (s.lkSched q || (s.quadMode q == 2 && s.ethSched q)), .sched)]
  else if r = R.LANE_CMD then
    [(bit v 0 && (!s.rdb R.LANE_XCFG l 0 || s.quadMode q == 2), .state), (bit v 1 && !s.mayInject l, .state)]
  else []

/-- Link registers (R145, R167, R183). -/
def State.brineGuard (s : State) (r : Reg) (q : Nat) (v : Word) : List Reason :=
  if r = R.LINK_CFG then [(v != s.rd R.LINK_CFG q && s.lkSched q, .sched)]
  else if r = R.LINK_CMD then
    [((bit v 1 || bit v 3) && !s.lkUp q, .state), (bit v 2 && s.lkState q != lkSleep, .state),
     ((bit v 1 || bit v 3) && s.lkSched q, .sched)]
  else []

/-- Whether the delay model that slot k's registers would hold may be committed (R195). -/
def State.modelReasons (s : State) (u k : Nat) (v : Word) : List Reason :=
  let d0 := s.rd R.DM_D0 u k
  let d1 := s.rd R.DM_D1 u k
  let d2 := s.rd R.DM_D2 u k
  let flo := s.rd R.FR_FLO u k
  let big := fun (w : Word) (lim : Dy) => lim.le (of64 w).dy.abs
  let len := fld v 63 32
  [(notFinite d0 || notFinite d1 || notFinite d2 || notFinite flo, .value), (len == 0, .range),
   (big d1 ⟨1, -10⟩ || big d2 ⟨1, 0⟩ || big flo ⟨1, 40⟩, .range),
   (decide ((s.rd R.DM_T0 u k).toNat + len ≤ s.time.tide + 2), .range)]

/-- The registers of a slot's model set (R195, R217). -/
def modelRegs : List Reg := [R.DM_T0, R.DM_D0, R.DM_D1, R.DM_D2, R.FR_FLO, R.FR_PH0, R.DM_CTRL]

/-- Sluice registers (R13, R195, R202, R216). -/
def State.sluGuard (s : State) (r : Reg) (u k : Nat) (v : Word) : List Reason :=
  let gain := s.rdb R.GAIN_CTRL u 0
  let win := s.rdb R.WIN_CTRL u 0
  if modelRegs.contains r then
    (bit (s.rd R.DM_CTRL u k) 0, .state) :: (if r = R.DM_CTRL ∧ bit v 0 = true then s.modelReasons u k v else [])
  else if r = R.GAIN_DATA ∨ r = R.GAIN_CTRL then [(gain, .state)]
  else if r = R.WIN_DATA ∨ r = R.WIN_CTRL then [(win, .state)]
  else if r = R.SLU_CMD then
    [(bit v 0 && gain, .state), (bit v 1 && (win || s.image.isNone), .state)]
  else if r = R.SLU_XCFG then [(s.image.any fun m => (progSect m tySluice u).isSome, .sched)]
  else []

/-- Controller commands (R239, R246). -/
def State.heapGuard (s : State) (r : Reg) (h : Nat) (v : Word) : List Reason :=
  let c := s.ctlCode h
  if r = R.HC_CMD then
    [(bit v 0 && (c == 0 || c == 1), .state),
     (bit v 0 && (c == 3 || s.hasUnit 0 (2 * h) || s.hasUnit 0 (2 * h + 1)), .sched)]
  else if r = R.HC_XCMD then [(c == 0 || c == 1, .state)]
  else []

/-- Pan registers (R276, R279) and the weight copy (R308). -/
def State.panGuard (s : State) (r : Reg) (p : Nat) (v : Word) : List Reason :=
  let x := s.pn p
  let idle := x.preempted && !x.jobRun
  let early := decide ((s.rd R.PAN_XTIDE p).toNat < s.time.tide + 2)
  if r = R.OPM_DATA then [(!x.preempted, .state)]
  else if r = R.JOB_DATA ∨ r = R.PAN_XPC ∨ r = R.PAN_XLOOP0 ∨ r = R.PAN_XLOOP1 ∨ r = R.PAN_XLOOP2 then [(!idle, .state)]
  else if r = R.PAN_XCMD then
    [(bit v 0 && (x.preempted || x.prePend.isSome), .state),
     (bit v 1 && (!idle || x.resPend.isSome), .state),
     (bit v 2 && (!idle || x.resPend.isSome), .state),
     (bit v 3 && !x.jobRun, .state),
     ((bit v 0 || bit v 1) && early, .range)]
  else if r = R.WT_SEL then [(s.rdb R.WT_SEL 0 0, .state)]
  else []

/-- The reserved bits of a destination table word (R346); `v6` says that its entry is an IPv6 one. -/
def destResv (i : Nat) (v6 : Bool) : Word :=
  match i with
  | 0 => 0xFFFF000000000000#64
  | 1 => 0xFFFF000000000000#64
  | 2 => 0x0000FE0000F00000#64
  | 3 => 0xFFFFFFFF00000000#64
  | 4 => if v6 then 0 else 0xFFFFFFFF00000000#64
  | 6 => if v6 then 0 else 0xFFFFFFFF00000000#64
  | _ => if v6 then 0 else 0xFFFFFFFFFFFFFFFF#64

/-- Ethernet registers (R331, R346, R355). -/
def State.ethGuard (s : State) (a : Agent) (r : Reg) (e : Nat) (v : Word) : List Reason :=
  if r = R.ETH_CFG then [(s.image.isSome && fld v 47 40 != s.ethQuad e, .sched)]
  else if r = R.ETH_CMD then [(bit v 0 && !(s.ethState e == 1 || s.ethState e == 3), .state)]
  else if r = R.DST_DATA then
    let sel := s.rdAgent R.DST_SEL 0 a
    let v6 := bit (mget (fun _ => (0 : Word)) s.net.dstShadow (8 * fld sel 8 3 + 2)) 40
    [((v &&& destResv (fld sel 2 0) v6) != 0, .resv), (s.rdb R.DST_CTRL 0 0, .state)]
  else if r = R.DST_CTRL then [(s.rdb R.DST_CTRL 0 0, .state)]
  else []

/-- Whether a DMA channel is in `RUN`, `WAIT` or `STOPPING` (R366). -/
def State.chBusy (s : State) (c : Nat) : Bool :=
  match (s.ch c).state with
  | .run => true
  | .wait => true
  | .stopping => true
  | _ => false

/-- DMA registers (R366, R383), the crossbar's (R362, R365) and the endpoint's (R385). -/
def State.busGuard (s : State) (a : Agent) (r : Reg) (v : Word) : List Reason :=
  let c := fld (s.rdAgent R.CH_SEL 0 a) 5 0
  let st := (s.ch c).state
  let rest := st == .done || st == .halted
  if r = R.CH_PROG then [(s.chBusy c, .state)]
  else if r = R.CH_CFG then
    [(!s.secureWorld a && bit v 63 != bit (s.chCfg c) 63, .owner), (s.chBusy c, .state)]
  else if r = R.CH_CMD then
    let held := s.finalPending c
    [(bit v 0 && !(rest || st == .idle), .state), (bit v 1 && !(st == .run || st == .wait || held), .state),
     (bit v 2 && !rest && !held, .state)]
  else if r = R.XB_MAP then [(s.nv.otp.mapMode, .lock)]
  else if r = R.FW_CTRL then [(s.rdb R.FW_CTRL 0 0, .lock)]
  else if r = R.HOST_OFS then [((List.range 64).any s.chBusy, .state)]
  else []

/-- The ring registers that stand alone (R352). -/
def State.ringGuard (s : State) (a : Agent) (r : Reg) (v : Word) : List Reason :=
  if r = R.RING_DB then doorbellReasons (s.ring (fld v 43 32)) a (fld v 31 0)
  else if r = R.RING_D0 then [(ownerBars (s.ring (fld (s.rdAgent R.RING_SEL 0 a) 11 0)) a v, .owner)]
  else if r = R.RING_D1 ∨ r = R.RING_D2 ∨ r = R.RING_D3 then
    let g := s.ring (fld (s.rdAgent R.RING_SEL 0 a) 11 0)
    [(a == .debug || (!ownerAllows g.owner a && g.on), .owner)]
  else []

/-- A commit of TB0's step (R400, R497). -/
def State.stepReasons (s : State) (v : Word) : List Reason :=
  let src := fld v 2 1
  [(src == 3, .value), (decide (1000000000 ≤ fld (s.rd R.STEP_NS 0) 63 34), .range),
   (src == 2 && s.time.ofs.isNone, .state), (s.time.armPend, .state),
   (s.meshZ != 0 && (s.mesh.role != .primary || s.leader != s.meshSelf), .state)]

/-- Time-base registers (R400 to R402, R406, R411). -/
def State.tbGuard (s : State) (r : Reg) (i : Nat) (v : Word) : List Reason :=
  if r = R.TB_RATE then [(i != 3, .state)]
  else if r = R.TB_SRC then
    [((v &&& ([0xFFFFFFFFFFFFFFFC#64, 0xFFFFFFFFFFFFFFFE#64].getD i 0xFFFFFFFFFFFFFFFF#64)) != 0, .resv)]
  else if r = R.STEP_SEC ∨ r = R.STEP_NS then [(i == 0 && s.rdb R.STEP_CTRL 0 0, .state)]
  else if r = R.STEP_CTRL then
    if i = 0 then (s.rdb R.STEP_CTRL 0 0, .state) :: (if bit v 0 then s.stepReasons v else [])
    else if i = 3 then
      [(bit v 0 && fld v 2 1 != 0, .value), (bit v 0 && decide (1000000000 ≤ fld (s.rd R.STEP_NS 3) 63 34), .range)]
    else [(bit v 0, .state)]
  else []

/-- `CQ_CH_k` (R415): the rings that an enabled channel names. -/
def State.cqGuard (s : State) (r : Reg) (k : Nat) (v : Word) : List Reason :=
  if r = R.CQ_CH then
    let cmd := fld v 55 44
    let evt := fld v 43 32
    let fits := fun (n type : Nat) => (s.ring n).type == type && (s.ring n).owner == 0 && (s.ring n).on
    let named := fun n => (List.range 16).any fun j => j != k && s.cqOn j && (s.cqCmd j == n || s.cqEvt j == n)
    [(bit v 63 && !s.cqOn k && (!fits cmd 1 || !fits evt 2 || named cmd || named evt), .value),
     (s.cqOn k && fld v 55 32 != fld (s.cqCh k) 55 32, .state)]
  else []

/-- Supervisor, NVM and update registers (R471, R474). -/
def State.supGuard (s : State) (a : Agent) (r : Reg) (v : Word) : List Reason :=
  let normal := (!s.secureWorld a, Code.owner)
  let busy := (s.nv.erasing.isSome, Code.state)
  if r = R.SV_CMD then normal :: s.svReasons v
  else if r = R.WD_FEED then s.wdReasons a.code
  else if r = R.NVM_ADDR ∨ r = R.UPD_CFG then [normal]
  else if r = R.NVM_DATA ∨ r = R.NVM_CMD then [normal, busy]
  else []

/-- Salinometer registers (R480, R482, R486). -/
def State.salGuard (s : State) (r : Reg) (v : Word) : List Reason :=
  if r = R.SAL_CFG then [(bit v 7 && !s.enabled 0x5B, .state)]
  else if r = R.RES_RSEQ then
    [(rseqBad (s.rd R.RES_WSEQ).toNat (s.rd R.RES_RSEQ).toNat (fld v 31 0), .range)]
  else if r = R.URG_CTRL then s.urgReasons
  else []

/-- Mesh, bittern and test registers (R489, R509, R513, R514, R516, R517). -/
def State.diagGuard (s : State) (a : Agent) (r : Reg) (v : Word) : List Reason :=
  if r = R.MESH_CFG ∨ r = R.MEMBER_SERIAL then [(s.image.any imgSaltern, .sched)]
  else if r = R.ERR_RSEQ then [(rseqBad s.bitt.wseq s.bitt.rseq (fld v 31 0), .range)]
  else if r = R.ERR_CMD then [(bit v 2 && !s.secureWorld a, .owner)]
  else if r = R.TP_XB ∨ r = R.TP_DMA then [(v != 0 && !s.testMode, .state)]
  else if r = R.TEST_CTRL then s.testReasons v
  else if r = R.BIST_CMD then s.bistReasons v
  else []

/-- The reasons of a register's chapter, by its page. -/
def State.pageGuard (s : State) (a : Agent) (r : Reg) (u k : Nat) (v : Word) : List Reason :=
  let p := r.page
  if p = 0x10 then s.schedGuard r v
  else if p = 0x48 then s.laneGuard r u v
  else if p = 0x50 then s.brineGuard r u v
  else if p = 0x20 then s.sluGuard r u k v
  else if p = 0x40 then s.heapGuard r u v
  else if p = 0x30 then s.panGuard r u v
  else if p = 0x54 then s.ethGuard a r u v
  else if p = 0x58 then s.ringGuard a r v
  else if p = 0x59 ∨ p = 0x0C ∨ p = 0x0D then s.busGuard a r v
  else if p = 0x03 then s.tbGuard r u v
  else if p = 0x0E then s.cqGuard r k v
  else if p = 0x08 ∨ p = 0x0A then s.supGuard a r v
  else if p = 0x5B then s.salGuard r v
  else if p = 0x5C then s.pinGuard r v
  else s.diagGuard a r v

/-- An image-held register that a write would change while an image runs (R70). -/
def State.heldReason (s : State) (r : Reg) (u k : Nat) (v : Word) : Reason :=
  (r.held && s.image.isSome && v != s.rd r u k, .sched)

/-- Every reason against writing `v` to a register of a page, but for the access's size and alignment (R69). -/
def State.reasons (s : State) (a : Agent) (page : Nat) (r : Reg) (u k : Nat) (v : Word) : List Reason :=
  [(r.acc == .ro, .access), (s.secureOwned page && !s.secureWorld a, .owner),
   (decide (0x800 ≤ r.off) && !s.expertOn page, .expert), resvReason r v, s.heldReason r u k v]
  ++ staticReasons r v ++ s.pageGuard a r u k v

end Sys2Proof.Machine
end

