-- ==== Sys2Proof/Machine/RegWrite.lean ====
section
/-! DEFINITION. What an accepted register write does, chapter by chapter, and the page header's writes
(R57 to R66, R74). -/

namespace Sys2Proof.Machine

-- Effects by chapter.

/-- A pan's loop register written (R277, R279). -/
def State.wrLoop (s : State) (p : Nat) (i : Nat) (v : Word) : State :=
  let x := s.pn p
  let q := x.seq
  let l := loopOf v
  s.setPn p { x with seq := if i = 0 then { q with l0 := l } else if i = 1 then { q with l1 := l } else { q with l2 := l } }

/-- An address register that an agent's data access advances: its low `n` bits by one, wrapping (R73). -/
def State.advanceSel (s : State) (r : Reg) (u n : Nat) (a : Agent) : State :=
  let w := s.rdAgent r u a
  s.wrAgent r u a (setFld w (n - 1) 0 (fld w (n - 1) 0 + 1))

/-- Schedule-engine registers, and the breach counters' page (R104 to R106, R143). -/
def State.schedPut (s : State) (r : Reg) (v : Word) (k : Nat) : State :=
  if r = R.LOAD_CMD then s.loadCmd v
  else if r = R.ARM_CTRL then s.wrArmCtrl v
  else if r = R.ARM_CANCEL then
    (if bit v 0 then { s with sched := { s.sched with cancel := true } } else s)
  else if r = R.BR_CLEAR then (if bit v 0 then s.clearFirst else s)
  else s.wr r 0 v k

/-- Lane registers (R168 to R172). -/
def State.lanePut (s : State) (r : Reg) (l : Nat) (v : Word) : State :=
  if r = R.LANE_CFG then
    let s := s.wr r l v
    if bit v 12 then s.wrf R.LANE_STAT l 23 20 (fld v 11 8) else s
  else if r = R.PRBS_CTRL then
    let old := s.rd r l
    let s := s.wr r l v
    let s := if bit v 1 ∧ (bit old 1 = false ∨ fld v 3 2 ≠ fld old 3 2) then s.genStart l else s
    let s := if bit v 9 then s else s.prbsReseed l
    (s.prbsEval (l / 4)).ethEvalAll
  else if r = R.PRBS_BITS then (s.prbsFold l ((s.lane l).prbsAt.map fun _ => s.time.total)).wr r l v
  else if r = R.LANE_CMD then s.laneCmd l v
  else s.wr r l v

/-- Link registers (R146, R183). -/
def State.brinePut (s : State) (r : Reg) (q : Nat) (v : Word) : State :=
  if r = R.QUAD_MODE then (s.setQuadMode q v).ethEvalAll
  else if r = R.LINK_CMD then s.linkCmd q v
  else s.wr r q v

/-- A gain written to the shadow at the agent's address (R215, R216). -/
def State.gainPut (s : State) (a : Agent) (u : Nat) (v : Word) : State :=
  let i := fld (s.rdAgent R.GAIN_ADDR u a) 15 0
  let g := mset (fun _ => (0 : BitVec 16)) s.slu.gainS (65536 * u + i) (BitVec.ofNat 16 (fld v 15 0))
  let s1 : State := { s with slu := { s.slu with gainS := g } }
  s1.advanceSel R.GAIN_ADDR u 16 a

/-- A window coefficient written to the shadow at the agent's address (R202, R216). -/
def State.winPut (s : State) (a : Agent) (u : Nat) (v : Word) : State :=
  let i := fld (s.rdAgent R.WIN_ADDR u a) 14 0
  let w := mset (fun _ => (0 : BitVec 18)) s.slu.winS (32768 * u + i) (BitVec.ofNat 18 (fld v 17 0))
  let s1 : State := { s with slu := { s.slu with winS := w } }
  s1.advanceSel R.WIN_ADDR u 15 a

/-- Sluice registers (R195, R202, R215, R216). -/
def State.sluPut (s : State) (a : Agent) (r : Reg) (u k : Nat) (v : Word) : State :=
  if r = R.GAIN_DATA then s.gainPut a u v
  else if r = R.WIN_DATA then s.winPut a u v
  else if r = R.SLU_CMD then s.sluCmd u v
  else if r = R.DM_CTRL then
    let s := s.wr r u v k
    if bit v 0 then s.commit (.dm u k) else s
  else if r = R.GAIN_CTRL then
    let s := s.wr r u v
    if bit v 0 then s.commit (.gain u) else s
  else if r = R.WIN_CTRL then
    let s := s.wr r u v
    if bit v 0 then s.commit (.win u) else s
  else s.wr r u v k

/-- `HC_CMD` on a controller (R239, R246). -/
def State.hcCmd (s : State) (h : Nat) (v : Word) : State :=
  let c := s.ctl h
  if bit v 0 then
    match c.state with
    | .ready => s.setCtl h { c with state := .starting, train := .retrain }
    | .frozen => s.setCtl h { c with state := .starting, train := .full, lost := true }
    | .fault => s.setCtl h { c with state := .starting, train := .full, lost := true }
    | _ => s
  else if bit v 1 then s.wr R.ERR_ADDR h 0
  else s.setCtl h { c with lost := false }

/-- Controller registers (R239, R246). -/
def State.heapPut (s : State) (r : Reg) (h : Nat) (v : Word) : State :=
  if r = R.HC_CMD then s.hcCmd h v
  else if r = R.HC_XCMD then
    (if bit v 0 ∧ ((s.ctl h).state = .ready ∨ (s.ctl h).state = .fault) then s.freeze h 0 4 else s)
  else s.wr r h v

/-- Pan registers (R276 to R279) and the weight copy (R308). -/
def State.panPut (s : State) (a : Agent) (r : Reg) (p : Nat) (v : Word) : State :=
  if r = R.OPM_DATA then
    let ad := s.rdAgent R.OPM_ADDR p a
    (s.opmWrite p (fld ad 14 4) (fld ad 3 0) v).advanceSel R.OPM_ADDR p 15 a
  else if r = R.JOB_DATA then
    let x := s.pn p
    let i := fld (s.rdAgent R.JOB_ADDR p a) 7 0
    (s.setPn p { x with jobs := mset (fun _ => 0) x.jobs i v }).advanceSel R.JOB_ADDR p 8 a
  else if r = R.PAN_XPC then
    let x := s.pn p
    s.setPn p { x with seq := { x.seq with pc := fld v 11 0 } }
  else if r = R.PAN_XLOOP0 then s.wrLoop p 0 v
  else if r = R.PAN_XLOOP1 then s.wrLoop p 1 v
  else if r = R.PAN_XLOOP2 then s.wrLoop p 2 v
  else if r = R.PAN_XCMD then s.panXcmd p v
  else if r = R.WT_SEL then
    let s := s.wr r p v
    if bit v 0 then s.commit .wtSel else s
  else s.wr r p v

/-- A destination-table word written to the shadow (R346, R355). -/
def State.destPut (s : State) (a : Agent) (v : Word) : State :=
  let i := fld (s.rdAgent R.DST_SEL 0 a) 8 0
  let s1 : State := { s with net := { s.net with dstShadow := mset (fun _ => 0) s.net.dstShadow i v } }
  s1.advanceSel R.DST_SEL 0 9 a

/-- Ethernet registers (R331, R333, R346, R355). -/
def State.ethPut (s : State) (a : Agent) (r : Reg) (e k : Nat) (v : Word) : State :=
  if r = R.ETH_CFG then (s.wr r e v).ethEvalAll
  else if r = R.ETH_CMD then
    if bit v 0 then (if s.ethState e = 3 then s.ethDown e else s.wrf R.ETH_STAT e 12 8 0) else s
  else if r = R.DST_DATA then s.destPut a v
  else if r = R.DST_CTRL then
    let s := s.wr r 0 v
    if bit v 0 then s.commit .dest else s
  else s.wr r e v k

/-- `CH_CMD` on a channel (R366, R375). -/
def State.chCmd (s : State) (c : Nat) (v : Word) : State :=
  if bit v 0 then (s.setCh c { state := .run, pc := fld (s.chProg c) 47 0 }).dmaPump
  else if s.finalPending c then s.dmaDrop c
  else if bit v 1 then s.dmaStop c 6 0
  else s.setCh c { s.ch c with state := .idle }

/-- DMA registers (R366, R383). -/
def State.dmaPut (s : State) (a : Agent) (r : Reg) (v : Word) : State :=
  let c := fld (s.rdAgent R.CH_SEL 0 a) 5 0
  if r = R.CH_PROG ∨ r = R.CH_CFG then s.setReg (chKey c r.off) v
  else if r = R.CH_CMD then s.chCmd c v
  else if r = R.DMA_EVT_SET then { s with dma := { s.dma with events := s.dma.events ||| v } }
  else if r = R.DMA_EVT_CLR then { s with dma := { s.dma with events := s.dma.events &&& ~~~v } }
  else s.wr r 0 v

/-- A committed TB0 step (R400, R497): on a saltern's leader sources 1 and 2 become source 0 with the projected time. -/
def State.stepCommit (s : State) (v : Word) : State :=
  let src := fld v 2 1
  let ofs := s.time.ofs.getD 0
  let s := if s.meshZ ≠ 0 ∧ (src = 1 ∨ src = 2) then
      let n := if s.slot = 4095 then s.time.tide + 1 else s.time.tide
      let start := s.time.epochStart + (nextOpening n : Int) * (unitsSclk * tideSclk)
      let start := if src = 2 then start + ofs * unitsNs / 1000 else start
      ((s.wr R.STEP_SEC 0 (word (timeSec start))).wr R.STEP_NS 0 (timeNsWord start)).wr R.STEP_CTRL 0 1
    else s.wr R.STEP_CTRL 0 v
  let s1 : State := { s with time := { s.time with stepOfs := ofs } }
  s1.commit .tb0Step

/-- Time-base registers (R400 to R402, R406). -/
def State.tbPut (s : State) (r : Reg) (i : Nat) (v : Word) : State :=
  if r = R.TB_SRC then s.wrTbSrc i v
  else if r = R.STEP_CTRL then
    if bit v 0 then (if i = 0 then s.stepCommit v else if i = 3 then (s.wr r i v).tb3Step else s)
    else s.wr r i v
  else s.wr r i v

/-- Reference-selection registers (R386 to R392). -/
def State.refPut (s : State) (r : Reg) (v : Word) : State :=
  if r = R.SEL_CFG then s.wrSelCfg v
  else if r = R.PRIO then s.wrPrio v
  else if r = R.SRC_CFG then
    let old := s.rd R.SRC_CFG
    (s.wr r 0 v).srcEnable old v
  else s.wr r 0 v

/-- A channel whose `EN` is cleared (R421, R427): a result that is held is discarded, and the session ends, after a command
that still runs. -/
def State.cqOff (s : State) (k : Nat) : State :=
  let c := s.cchan k
  let ended := fun (s : State) => { s with cmds := { s.cmds with session := pset s.cmds.session k none } }
  match c.run with
  | some r => if r.result.isSome then ended ((s.headPast r).setCchan k { c with run := none }) else s
  | none => ended s

/-- `CQ_CH_k` (R415). -/
def State.cqPut (s : State) (r : Reg) (k : Nat) (v : Word) : State :=
  if r = R.CQ_CH then
    let was := s.cqOn k
    let s := s.wr r 0 v k
    if was ∧ !bit v 63 then s.cqOff k else s
  else s.wr r 0 v k

/-- Supervisor and NVM registers (R450, R471, R474). -/
def State.supPut (s : State) (r : Reg) (v : Word) : State :=
  if r = R.SV_CMD then s.svCmd v
  else if r = R.UNSUP_LIMIT then (s.wr r 0 v).unsupCheck
  else if r = R.WD_FEED then { s with sup := { s.sup with wdAt := some s.time.total } }
  else if r = R.NVM_DATA then s.nvmPut v
  else if r = R.NVM_CMD then s.nvmErase (if bit v 1 then 1 else 0)
  else s.wr r 0 v

/-- Salinometer registers (R477 to R483). -/
def State.salPut (s : State) (r : Reg) (k : Nat) (v : Word) : State :=
  let s := s.salSettle
  if r = R.SAL_CFG then s.wrSalCfg v
  else if r = R.URG_CTRL then s.urgGo v
  else if r = R.SAL_CMD then s.salCmd v
  else if r = R.SAL_XCFG then s.wrSalXcfg v
  else s.wr r 0 v k

/-- Bittern and test registers (R507, R509, R513 to R517), pins (R45) and what a plain register does. -/
def State.diagPut (s : State) (a : Agent) (r : Reg) (u k : Nat) (v : Word) : State :=
  if r = R.ERR_RSEQ then s.setBitt fun b => { b with rseq := fld v 31 0 }
  else if r = R.ERR_CMD then s.errCmd v
  else if r = R.RL_CFG then s.setReg (regKey 0 0x0B (fld (s.rdAgent R.RL_SEL 0 a) 6 0) r.off) v
  else if r = R.TEST_CTRL then s.wrTestCtrl v
  else if r = R.BIST_CMD then s.bistCmd v
  else if r = R.PIN_OE then
    let s1 : State := { s with pins := { s.pins with retries := [], waits := [] } }
    s1.wr r 0 v
  else s.wr r u v k

/-- The effect of an accepted write of a register outside a group. -/
def State.put (s : State) (a : Agent) (r : Reg) (u k : Nat) (v : Word) : State :=
  let p := r.page
  if r.perAgent then s.wrAgent r u a v
  else if r.acc = .w1c then s.wr r u (s.rd r u k &&& ~~~v) k
  else if p = 0x10 ∨ p = 0x12 then s.schedPut r v k
  else if p = 0x48 then s.lanePut r u v
  else if p = 0x50 then s.brinePut r u v
  else if p = 0x20 then s.sluPut a r u k v
  else if p = 0x40 then s.heapPut r u v
  else if p = 0x30 then s.panPut a r u v
  else if p = 0x54 then s.ethPut a r u k v
  else if r = R.RING_DB then s.doorbell (fld v 43 32) (fld v 31 0)
  else if p = 0x59 then s.dmaPut a r v
  else if p = 0x02 then s.refPut r v
  else if p = 0x03 then s.tbPut r u v
  else if p = 0x0E then s.cqPut r k v
  else if p = 0x08 ∨ p = 0x0A then s.supPut r v
  else if p = 0x5B then s.salPut r k v
  else s.diagPut a r u k v

-- Groups (R56).

/-- What an agent holds for a member of a group, or the member's value. -/
def State.heldWord (s : State) (a : Agent) (page off : Nat) (now : Word) : Word :=
  (pget s.fab.held (regKey (1 + a.code) page 0 off)).getD now

/-- The held words of a group discarded. -/
def State.dropHeld (s : State) (a : Agent) (page off n : Nat) : State :=
  { s with fab := { s.fab with held := (List.range n).foldl (fun m i =>
    pset m (regKey (1 + a.code) page 0 (off + 8 * (i + 1))) none) s.fab.held } }

/-- The filter entry that an agent addresses (R336). -/
def State.fltOf (s : State) (a : Agent) : Filter := mget filterDflt s.net.filter (fld (s.rdAgent R.FLT_SEL 0 a) 9 0)

/-- The ring that an agent addresses (R349). -/
def State.ringSel (s : State) (a : Agent) : Nat := fld (s.rdAgent R.RING_SEL 0 a) 11 0

/-- Checks 8 to 10 of a group and the rules that relate its words (R56, R336, R352, R403, R412). -/
def State.groupReasons (s : State) (a : Agent) (r : Reg) (v : Word) : List Reason :=
  if r = R.FLT_W0 then [(bit v 53 && bit v 52, .value)]
  else if r = R.RING_D0 then
    let g := s.ring (s.ringSel a)
    let d1 := s.heldWord a 0x58 R.RING_D1.off g.d1
    let d3 := s.heldWord a 0x58 R.RING_D3.off g.d3
    ringReasons g v (if g.on then ownIndex g.type g.d1 d1 else d1) d3
  else if r = R.SMP_OFS then [(!s.enabled 0x07 || !s.enabled 0x04 || s.tb1Master, .state)]
  else []

/-- A group's head and held words put into effect together. -/
def State.groupPut (s : State) (a : Agent) (r : Reg) (k : Nat) (v : Word) : State :=
  if r = R.FLT_W0 then
    let f := s.fltOf a
    let n : Filter := { w0 := v, w1 := s.heldWord a 0x54 R.FLT_W1.off f.w1, w2 := s.heldWord a 0x54 R.FLT_W2.off f.w2 }
    { s with net := { s.net with filter := mset filterDflt s.net.filter (fld (s.rdAgent R.FLT_SEL 0 a) 9 0) n } }
  else if r = R.RING_D0 then
    let g := s.ring (s.ringSel a)
    (s.ringPut (s.ringSel a) v (s.heldWord a 0x58 R.RING_D1.off g.d1) (s.heldWord a 0x58 R.RING_D2.off g.d2)
      (s.heldWord a 0x58 R.RING_D3.off g.d3)).markReady s
  else if r = R.FW_RULE_A then
    (s.wr r 0 v k).wr R.FW_RULE_B 0 (s.heldWord a 0x0C (R.FW_RULE_B.off + 16 * k) (s.rd R.FW_RULE_B 0 k)) k
  else if r = R.SMP_OFS then
    let sec := s.heldWord a 0x07 R.SMP_MT_SEC.off (s.rd R.SMP_MT_SEC)
    let ns := s.heldWord a 0x07 R.SMP_MT_NS.off (s.rd R.SMP_MT_NS)
    let s := ((s.wr r 0 v).wr R.SMP_MT_SEC 0 sec).wr R.SMP_MT_NS 0 ns
    s.servo v (fld sec 47 0 * 1000000000 + fld ns 29 0)
  else s.wr r 0 v k

-- The page header.

/-- What setting a page's `ENABLE` starts (R61, R62, R163, R223, R331, R488). -/
def State.pageOn (s : State) (page : Nat) : State :=
  if 0x40 ≤ page ∧ page ≤ 0x47 then
    (List.range 32).foldl (fun s b => s.setCtl (32 * (page - 0x40) + b) { s.ctl (32 * (page - 0x40) + b) with
      state := .starting }) s
  else if 0x50 ≤ page ∧ page ≤ 0x53 then (List.range 64).foldl (fun s b => s.lkEval (64 * (page - 0x50) + b) false) s
  else if 0x54 ≤ page ∧ page ≤ 0x57 then s.ethEvalAll
  else if page = 0x5B then s.salOn
  else if (0x48 ≤ page ∧ page ≤ 0x4F) ∨ page = 0x5E ∨ page = 0x5F then
    { s with fab := { s.fab with startAt := pset s.fab.startAt page (some s.time.total) } }
  else if page = 0x07 then { s with time := { s.time with havePrev := false } }
  else s

/-- A change of role (R495): `PART_TIDE`, the event. -/
def State.setRole (s : State) (v : Role) : State :=
  if s.mesh.role = v then s
  else
    let s1 : State := { s with mesh := { s.mesh with role := v } }
    (s1.wr R.PART_TIDE 0 s1.tideWord).raise 0x5D 0

/-- What clearing a page's `ENABLE` stops (R62, R163, R240, R331, R488). -/
def State.pageOff (s : State) (page : Nat) : State :=
  if 0x40 ≤ page ∧ page ≤ 0x47 then
    (List.range 32).foldl (fun s b =>
      let h := 32 * (page - 0x40) + b
      (s.setCtl h { s.ctl h with state := .disabled, train := .keep }).dropUnserved h) s
  else if 0x50 ≤ page ∧ page ≤ 0x53 then (List.range 64).foldl (fun s b => s.lkEval (64 * (page - 0x50) + b) false) s
  else if 0x54 ≤ page ∧ page ≤ 0x57 then s.ethEvalAll
  else if page = 0x5B then s.salOff
  else if page = 0x5D then s.setRole (if s.meshZ = 0 then .standalone else .joining)
  else s

/-- `PG_CTRL` put in place: what its bits' changes start and stop. -/
def State.ctrlPut (s : State) (page : Nat) (v : Word) : State :=
  let old := s.hdr page hCtrl
  let s := s.setHdr page hCtrl (v &&& 3)
  let s := if bit v 1 ∧ !bit old 1 then s.raise 0 2 else s
  if bit v 0 ∧ !bit old 0 then s.pageOn page
  else if !bit v 0 ∧ bit old 0 then s.pageOff page
  else s

/-- `PG_CTRL` accepted: a gating request that meets a secure use is deferred, its other bits take effect (R466). -/
def State.wrPgCtrl (s : State) (page : Nat) (v : Word) : State :=
  if s.enabled page ∧ !bit v 0 ∧ s.secureOwned page = false ∧ s.secureUse page = true then (s.ctrlPut page (setBit v 0)).gateDefer page v
  else s.ctrlPut page v

/-- The reasons against a write of `PG_PERTURB` (R58, R64, R180, R182, R245, R355). -/
def State.perturbReasons (s : State) (page : Nat) (v : Word) : List Reason :=
  let inj := fld v 35 32
  let acts := (pageInfo page).any (·.perturb)
  [((v &&& 0xFFFFFFF0FF00FC00#64) != 0, .resv), (v != 0 && !acts, .value), (decide (4 ≤ inj), .value),
   (decide (0x50 ≤ page ∧ page ≤ 0x53) && inj != 0 && inj != 2, .value),
   (decide (0x40 ≤ page ∧ page ≤ 0x47) && inj != 0 && inj != 3, .value),
   (decide (0x54 ≤ page ∧ page ≤ 0x57) && inj != 0, .value),
   (v != 0 && !s.testMode, .state)]

/-- Every reason against a header write, but for its size and alignment (R57 to R66, R69, R74, R466). -/
def State.hdrReasons (s : State) (a : Agent) (page off : Nat) (v : Word) : List Reason :=
  let info := (pageInfo page).getD { first := 0, count := 0, block := 0 }
  let ro := !(off == hCtrl || off == hReject || off == hEvt || off == hEvtEn || off == hOwner || off == hPerturb
    || off == hBank)
  let normal := !s.secureWorld a
  [(ro, .access), (normal && (s.secureOwned page || off == hOwner), .owner)] ++
  (if off = hCtrl then
    [(bit v 1 && fld v 63 48 != 0x5A17, .expert), (fld v 47 2 != 0, .resv), (!bit v 0 && info.always, .value),
     (s.gatePending page, .state), (!bit v 0 && s.enabled page && s.pageUsed page, .sched)]
  else if off = hReject then [((v &&& 0xF0FFF000#64) != 0, .resv)]
  else if off = hEvt ∨ off = hEvtEn then [((v &&& ~~~(word info.evt)) != 0, .resv)]
  else if off = hOwner then
    [(decide (4 ≤ v.toNat), .resv), (decide (2 ≤ fld v 1 0), .value),
     (info.fixed && fld v 1 0 != (if info.secure then 1 else 0), .value)]
  else if off = hPerturb then s.perturbReasons page v
  else if off = hBank then
    [(fld v 63 8 != 0, .resv),
     (if info.banks = 1 then v != 0 else decide (info.banks ≤ fld v 7 0) && fld v 7 0 != 0xFF, .range)]
  else [])

/-- An accepted header write. -/
def State.hdrPut (s : State) (a : Agent) (page off : Nat) (v : Word) : State :=
  if off = hCtrl then s.wrPgCtrl page v
  else if off = hReject then s.setHdr page off (s.hdr page off &&& ~~~v)
  else if off = hEvt then s.setHdr page off (s.hdr page off &&& ~~~v)
  else if off = hBank then s.setReg (regKey (1 + a.code) page 0 hBank) v
  else s.setHdr page off v

end Sys2Proof.Machine
end

