-- ==== Sys2Proof/Machine/RegAccess.lean ====
section
/-! DEFINITION. Register accesses as the fabric carries them out: who is served, banks and broadcast, conflicts within an
RCLK, groups, the records of rejections (R52 to R56, R66 to R79). -/

namespace Sys2Proof.Machine

/-- Whether the fabric serves an agent's access to a page (R53, R79): a supervisor that runs, the host from
`CORE_READY` on, and the debug agent, before that on always-on pages alone. -/
def State.served (s : State) (a : Agent) (page : Nat) : Bool :=
  match a with
  | .secure => s.pwr.coreUp && (s.svRole.isSome || (s.svIn .qualifying).isSome)
  | .normal => s.pwr.coreUp && (s.svRole.isSome || (s.svIn .qualifying).isSome)
  | .host => s.pwr.coreReady
  | .debug => s.pwr.porN && (s.pwr.coreReady || aonPage page)

/-- An agent's `PG_BANK` of a page (R66). -/
def State.bankOf (s : State) (a : Agent) (page : Nat) : Nat := fld (s.getReg (regKey (1 + a.code) page 0 hBank)) 7 0

/-- The bank that an access of an offset is recorded with (R58): 0 for the header and an unbanked page. -/
def State.bankShown (s : State) (a : Agent) (page off : Nat) : Nat :=
  match pageInfo page with
  | some p => if off < 0x100 ∨ p.banks = 1 then 0 else s.bankOf a page
  | none => 0

/-- The unit that a bank of a page addresses. -/
def unitAt (r : Reg) (page bank : Nat) : Nat := (page - r.page) * r.banks + bank

/-- The banks that a write with a bank select goes to (R66, R67): with broadcast each register of the page once. -/
def banksOf (r : Reg) (sel : Nat) : List Nat :=
  if r.banks = 1 then [0]
  else if sel = 0xFF then (List.range r.banks).filter fun b => b % r.share = 0
  else [sel / r.share * r.share]

/-- The quads that a write puts into Ethernet mode (R145), lowest first. -/
def State.quadsInto (s : State) (w : Access) : List Nat :=
  let page := w.page.val
  match findReg page w.off.val with
  | some (r, _) =>
    if r = R.QUAD_MODE ∧ fld w.value 1 0 = 2 then
      ((banksOf r (s.bankOf w.agent page)).map (unitAt r page)).filter fun q => s.quadMode q != 2
    else []
  | none => []

/-- Whether a quad of those that a write puts into Ethernet mode is past the limit of R145: `taken` quads have gone there in the
same RCLK by the writes of lower agents, and the lower banks of a broadcast go first. -/
def State.quadsFull (s : State) (w : Access) (taken u : Nat) : Bool :=
  let qs := s.quadsInto w
  qs.contains u
    && decide (32 ≤ ((List.range 256).filter fun p => s.quadMode p == 2).length + taken + (qs.filter fun q => decide (q < u)).length)

/-- The code with which R69 rejects a write, if any; a broadcast is judged for every bank, and the lowest that rejects it
gives the code (R67). -/
def State.writeCode (s : State) (w : Access) (taken : Nat := 0) : Option Code :=
  let page := w.page.val
  let off := w.off.val
  if w.size ≠ 8 ∨ off % 8 ≠ 0 then some .align
  else if (pageInfo page).isNone then some .access
  else if off < 0x100 then firstCode (s.hdrReasons w.agent page off w.value)
  else
    match findReg page off with
    | none => some .access
    | some (r, k) =>
      let codes := (banksOf r (s.bankOf w.agent page)).map fun b =>
        let u := unitAt r page b
        firstCode ((s.quadsFull w taken u, .range) :: s.reasons w.agent page r u k w.value)
      (codes.find? Option.isSome).join

/-- The checks of a group head beyond its own (R56). -/
def State.headCode (s : State) (w : Access) : Option Code :=
  match findReg w.page.val w.off.val with
  | some (r, _) => firstCode (s.groupReasons w.agent r w.value)
  | none => none

/-- Whether a write has a group's head as its target. -/
def isHead (w : Access) : Bool :=
  match findReg w.page.val w.off.val with
  | some (r, _) => decide (0x100 ≤ w.off.val) && r.acc != .ro && r.grp != 0
  | none => false

/-- The effect of a write that no check refuses: on a header, a group's member or head, or each bank addressed. -/
def State.writePut (s : State) (w : Access) : State :=
  let page := w.page.val
  let off := w.off.val
  if off < 0x100 then s.hdrPut w.agent page off w.value
  else
    match findReg page off with
    | none => s
    | some (r, k) =>
      if r.mem ≠ 0 then
        { s with fab := { s.fab with held := pset s.fab.held (regKey (1 + w.agent.code) page 0 off) (some w.value) } }
      else if r.grp ≠ 0 then (s.groupPut w.agent r k w.value).dropHeld w.agent page off r.grp
      else (banksOf r (s.bankOf w.agent page)).foldl (fun s b => s.put w.agent r (unitAt r page b) k w.value) s

/-- Whether an accepted write is a change of the firewall's rules (R364). -/
def isFwChange (w : Access) : Bool :=
  match findReg w.page.val w.off.val with
  | some (r, _) => r = R.XB_MAP || r = R.FW_CTRL || r = R.FW_RULE_A
  | none => false

/-- The record of a rejected write (R58, R71). -/
def State.rejectOf (s : State) (w : Access) (c : Code) : Reject :=
  { agent := w.agent.code, page := w.page.val, bank := s.bankShown w.agent w.page.val w.off.val, off := w.off.val, code := c }

/-- Whether two agents' writes meet in one register (R72): registers held for each agent apart do not. -/
def State.meets (s : State) (x y : Access) : Bool :=
  let page := x.page.val
  let off := x.off.val / 8 * 8
  decide (x.page = y.page) && decide (x.off.val / 8 = y.off.val / 8) &&
    (if off < 0x100 then decide ((pageInfo page).isSome) && decide (off < hBank)
     else match findReg page off with
      | some (r, _) =>
        !r.perAgent && r.mem == 0 &&
          (banksOf r (s.bankOf x.agent page)).any fun b => (banksOf r (s.bankOf y.agent page)).contains b
      | none => false)

/-- The writes of one RCLK, lowest agent code first, one an agent, that the fabric serves (R53). -/
def State.portWrites (s : State) (ws : List Access) : List Access :=
  [Agent.secure, .normal, .host, .debug].filterMap fun a => ws.find? fun w => w.agent = a ∧ s.served a w.page.val = true

/-- The outcome of one write of an RCLK, given those of lower agents with their outcomes: a code, or none. -/
def State.codeAmong (s : State) (before : List (Access × Option Code)) (w : Access) : Option Code :=
  if before.any fun x => s.meets x.1 w then some .conflict
  else
    match s.writeCode w ((before.filter fun x => x.2.isNone).map fun x => (s.quadsInto x.1).length).sum with
    | some c => some c
    | none => if isHead w then s.headCode w else none

/-- The writes of an RCLK with their outcomes, lowest agent first. -/
def State.judge (s : State) (seen : List (Access × Option Code)) : List Access → List (Access × Option Code)
  | [] => seen
  | w :: ws => s.judge (seen ++ [(w, s.codeAmong seen w)]) ws

/-- Whether an accepted write only clears what may be set in the same RCLK, or puts a counter to a value: it takes effect before the
other writes of the RCLK, so that a bit ends set and no count is lost (R6, R73, R371). -/
def clearsOnly (w : Access) : Bool :=
  if w.off.val < 0x100 then w.off.val == hReject || w.off.val == hEvt
  else match findReg w.page.val w.off.val with
    | some (r, _) => r.acc == .w1c || r = R.DMA_EVT_CLR || counterRegs.contains r
    | none => false

/-- What a rejected write does beside its record: a refused head discards the agent's held words (R56). -/
def State.afterReject (s : State) (s0 : State) (w : Access) (c : Code) : State :=
  if c ≠ .conflict ∧ (s0.writeCode w).isNone then
    match findReg w.page.val w.off.val with
    | some (r, _) => s.dropHeld w.agent w.page.val w.off.val r.grp
    | none => s
  else s

/-- One write of an RCLK carried out, as it was judged. -/
def State.writeOne (s s0 : State) (p : Access × Option Code) : State :=
  match p.2 with
  | none => s.writePut p.1
  | some c => s.afterReject s0 p.1 c

/-- The writes that the ports carry out in one RCLK (R55, R69 to R73): every check is made on the state at its start. -/
def State.writeNow (s0 : State) (ws : List Access) : State :=
  let ps := s0.judge [] (s0.portWrites ws)
  let s := (ps.filter fun p => clearsOnly p.1).foldl (fun s p => s.writeOne s0 p) s0
  let s := (ps.filter fun p => !clearsOnly p.1).foldl (fun s p => s.writeOne s0 p) s
  let s := if ps.any fun p => p.2.isNone && isFwChange p.1 then s.fwChange else s
  s.recordRejects (ps.filterMap fun p => p.2.map fun c => s0.rejectOf p.1 c)

/-- The writes that fall in one RCLK. While earlier writes of the host wait, its port carries out the oldest of them, and the new
one goes to the end of the buffer (R76, R77). -/
def State.writeAll (s : State) (ws : List Access) : State :=
  match s.fab.posted, ws.find? fun w => w.agent = .host with
  | p :: ps, some w =>
    ({ s with fab := { s.fab with posted := ps ++ [w] } } : State).writeNow (p :: ws.filter fun x => x.agent ≠ .host)
  | _, _ => s.writeNow ws

/-- The oldest posted write applied at the host port (R77); the fabric does not apply it while the core is stopped
(R79). -/
def State.applyPosted (s : State) : State :=
  match s.fab.posted with
  | [] => s
  | w :: ws => ({ s with fab := { s.fab with posted := ws } } : State).writeNow [w]

/-- Every posted write applied (R76, R78), one each RCLK with the signals of that RCLK (R82). -/
def State.drainPosted (s : State) : State :=
  (List.range s.fab.posted.length).foldl (fun s _ => s.finish s.applyPosted) s

/-- The state in which an agent's read falls: the host's earlier writes have taken effect (R76). -/
def State.hostTurn (s : State) (a : Agent) : State := if a = .host then s.drainPosted else s

/-- One write of a register by an agent: what the commands for single registers send. -/
def State.write1 (s : State) (a : Agent) (page : Nat) (off : Nat) (v : Word) : State :=
  s.writeAll [{ agent := a, page := Fin.ofNat 128 page, off := Fin.ofNat 4096 off, value := v }]

/-- A write to a descriptor's register of a page. -/
def State.writeReg (s : State) (a : Agent) (page : Nat) (r : Reg) (v : Word) (k : Nat := 0) : State :=
  s.write1 a page (r.off + r.stride * k) v

end Sys2Proof.Machine
end

