-- ==== Sys2Proof/Machine/TamperOps.lean ====
section
/-! DEFINITION. The operations of the tamper monitor, of the key table and of debug's unlock (spec/16 R463 to R473). -/

namespace Sys2Proof.Machine

/-- The place of the tamper record in NVM: byte k counts the conditions of source k (the layout is the model's). -/
def tamperPlace : Nat := 0xF82000

/-- `TMP_COUNT` (R472). -/
def State.tmpCount (s : State) : Word := word (leNat (s.nv.nvm.bytes tamperPlace 7))

/-- The junction reading in degrees Celsius. -/
def State.junctionC (s : State) : Int := s.pwr.junction.toInt

/-- `TMP_STAT`: the conditions present now (R468, R472). A glitch and a failed unlock are over when they are seen. -/
def State.tmpStat (s : State) : Word :=
  word (at_ 3 (b2n s.time.xoBad) + at_ 4 (b2n (decide (105 < s.junctionC ∨ s.junctionC < -40)))
    + at_ 5 (b2n (Config.lidOpen s.time.total)))

/-- The opcode of a command's words (R417). -/
def CmdRun.opcode (r : CmdRun) : Nat := fld (r.words.getD 0 0) 63 48

/-- Whether an opcode is a key operation (R469). -/
def keyOpcode (o : Nat) : Bool := o == 0x10 || o == 0x11 || (0x700 ≤ o && o ≤ 0x704)

/-- Whether a channel runs a key operation that has no result yet. -/
def Channel.keyOp (c : Channel) : Bool :=
  match c.run with
  | some r => keyOpcode r.opcode && r.result.isNone
  | none => false

/-- `SEC_STAT.KEYOP` (R473): a key operation runs. -/
def State.keyOp (s : State) : Bool := (List.range 16).any fun c => (s.cchan c).keyOp

/-- The phase of R469 in which a condition arises, as `TMP_LAST` shows it: 0 running, 1 start-up, 2 `STANDBY`, 3 key
operation. -/
def State.tmpPhase (s : State) (unlock : Bool) : Nat :=
  if s.pwr.state = .standby then 2
  else if unlock = true ∨ s.keyOp = true then 3
  else if s.sup.ready then 0
  else 1

/-- A halt armed by the firmware in tamper-hold, at the first tide that R105 permits (R470). -/
def State.tamperArm (s : State) : State :=
  if s.tam.hold ∧ s.image.isSome ∧ s.swapGate = false ∧ s.supervised = true then
    (s.wr R.ARM_TIDE 0 (word (s.time.tide + 3))).wrArmCtrl (word (at_ 32 s.time.epoch + 3))
  else s

/-- A swap that is pending or committed, withdrawn where R106 permits (R470). -/
def State.tamperCancel (s : State) : State :=
  let swap := match s.sched.pend with
    | some a => !a.halt
    | none => s.armCommitted && !s.rdb R.ARM_CTRL 0 1
  if swap = true ∧ s.supervised = true ∧ firstCode (s.cancelReasons 1) = none then
    { s with sched := { s.sched with cancel := true } }
  else s

/-- Tamper-hold entered (R469, R470). -/
def State.enterHold (s : State) : State :=
  let s1 : State := { s with tam := { s.tam with hold := true, pendingWake := false }
                             cmds := { s.cmds with session := [] }
                             sup := { s.sup with ckptDue := none, ckptWriting := none } }
  s1.tamperCancel.tamperArm

/-- The key operations in progress end with `E_TAMPER`, their challenges gone (R469). -/
def State.abortKeyOps (s : State) : State :=
  (List.range 16).foldl (fun s c =>
    match (s.cchan c).keyOp, (s.cchan c).run with
    | true, some r =>
      let sess := (pget s.cmds.session c).map fun x => { x with challenge := none }
      let s1 : State := { s with cmds := { s.cmds with session := pset s.cmds.session c sess } }
      s1.setCchan c { s1.cchan c with run := some { r with begun := true, result := some (Code.tamper.num, []) } }
    | _, _ => s) s

/-- The response to a condition of source k by its phase (R469). -/
def State.tmpRespond (s : State) (k phase : Nat) : State :=
  let running := fun (s : State) => if s.rdb R.TMP_CFG 0 (8 + k) then s.enterHold else s
  match phase with
  | 0 => running s
  | 1 => s.enterHold
  | 2 => { s with tam := { s.tam with pendingWake := true } }
  | _ => running s.abortKeyOps

/-- A condition of tamper source k (R468, R469): recorded and answered if the source is enabled. -/
def State.tamper (s : State) (k : Nat) (unlock : Bool := false) : State :=
  if s.rdb R.TMP_CFG 0 k then
    let ph := s.tmpPhase unlock
    let s := s.wr R.TMP_LATCH 0 (setBit (s.rd R.TMP_LATCH) k)
    let s := s.wr R.TMP_LAST 0 (word (at_ 32 (s.tb2Sec % 2 ^ 32) + at_ 16 ph + k))
    let n := s.nv.nvm.byte (tamperPlace + k)
    let s := s.nvmWrite (tamperPlace + k) [BitVec.ofNat 8 (min (n.toNat + 1) 0xFF)]
    let s := (s.report 0x09 0 0x07 (s.rd R.TMP_LAST) (s.rd R.TMP_LATCH)).raise 0x09 0
    s.tmpRespond k ph
  else s

/-- The place of an operator key entry in NVM (R451, R464): entries 1 to 15. -/
def opKeyPlace (k : Nat) : Nat := 0xF81000 + 128 * k

/-- An operator key entry and its rights (R463, R464); an entry whose key is all zeros is empty. -/
def State.opKey (s : State) (k : Nat) : Option (PubKey × Nat) :=
  if k = 0 then s.nv.otp.opKey0.map fun p => (p, s.nv.otp.opRights0.toNat)
  else if k < 16 then
    let a := opKeyPlace k
    let p : PubKey := { x := beNat (s.nv.nvm.bytes a 48), y := beNat (s.nv.nvm.bytes (a + 48) 48) }
    if p.x = 0 ∧ p.y = 0 then none else some (p, (s.nv.nvm.byte (a + 96)).toNat)
  else none

/-- The 48-byte message that R424 has signed. -/
def State.authMessage (s : State) (challenge : List Byte) (id rights chan : Nat) : List Byte :=
  challenge ++ leBytes 8 s.nv.otp.serial.toNat ++ leBytes 4 id ++ leBytes 1 rights ++ leBytes 1 chan ++ leBytes 2 0

/-- Whether a 96-byte signature of R99 verifies a message under a key. -/
def verifies (p : PubKey) (msg sig : List Byte) : Bool :=
  ecdsaVerify p.x p.y (sha384 msg) (beNat (sig.take 48)) (beNat (sig.drop 48))

/-- A challenge drawn: 32 bytes that nothing constrains, and the state after the draw (R424, R467). -/
def State.drawChallenge (s : State) : List Byte × State :=
  (leBytes 32 (Config.challenge s.fresh.1), s.fresh.2)

/-- Whether 97 bytes of the unlock data register unlock debug against a challenge (R467). -/
def State.unlocks (s : State) (challenge bs : List Byte) : Bool :=
  match s.opKey (bs.getD 0 0).toNat with
  | some (p, rights) =>
    rights.testBit 2 && verifies p (s.authMessage challenge 0xFFFFFFFF 4 0xFF) (bs.drop 1)
  | none => false

/-- An unlock attempt at the debug port (R467): the challenge was read just before. -/
def State.debugTry (s : State) (bs : List Byte) : State :=
  let (ch, s) := s.drawChallenge
  if s.unlocks ch bs then { s with sup := { s.sup with dbgGrant := true } } else s.tamper 6 true

/-- The condition of ALERT_N: the sequence hold, `STANDBY_READY`, a junction at 100 °C or more, a latched tamper
condition, and events under `ALERT_EN` (R32, R37, R39, R81, R469). -/
def State.alertLow (s : State) : Bool :=
  s.pwr.seqHold || s.pwr.standbyReady || decide (100 ≤ s.junctionC) || s.rd R.TMP_LATCH != 0
    || (s.rdb R.EVT_ROUTE 0 1 && (s.evtSumLo != 0 || s.evtSumHi != 0))

end Sys2Proof.Machine
end

