-- ==== Sys2Proof/Machine/RegRead.lean ====
section
/-! DEFINITION. What a read of each register returns: the values that registers compute from the rest of State, the page
header's, the group captures, and the reads that the fabric refuses (R52 to R59, R66, R67, R75, R79, R81). -/

namespace Sys2Proof.Machine

-- Power, pins, device (spec/02, 03).

/-- Code of a power state in `PWR_STAT` (R48). -/
def PowerState.code : PowerState → Nat
  | .boot => 0
  | .run => 1
  | .idle => 2
  | .standby => 3
  | .held => 4
  | .off => 0

/-- `PWR_STAT` (R48). -/
def State.pwrStat (s : State) : Word :=
  word (at_ 12 s.pwr.state.code + at_ 11 (b2n s.pwr.standbyReady) + at_ 10 (b2n s.pwr.feedB) + at_ 9 (b2n s.pwr.feedA)
    + at_ 8 (b2n s.pwr.seqHold) + s.pwr.railOk.toNat)

/-- The level that SYNC_OUT's function gives: high for 100 ns from the start of each fifteenth tide (R494). -/
def State.syncLevel (s : State) : Bool := s.rdb R.MESH_CFG 0 0 && s.time.tide % 15 == 0 && decide (s.time.pos < 150)

/-- The values that the outputs are to drive, by pin index (R49). -/
def State.pinDrive (s : State) : Word :=
  putBit (putBit (s.rd R.PIN_OUT) 16 s.syncLevel) 17 s.time.ppsLevel

/-- The outputs that drive (R49, R62). -/
def State.pinOn (s : State) : Word := if s.enabled 0x5C then s.rd R.PIN_OE else 0

/-- An edge that a function gives to an output pin: it leaves the device while the pin drives (R25, R47, R62). -/
def State.pinEmit (s : State) (p : Nat) (o : Output) : State := if bit s.pinOn p then s.emit o else s

/-- `PIN_IN`: the pad levels, which the board decides with the outputs (R44, R46, R49): nothing constrains them. -/
def State.pinIn (s : State) : Word := word (Config.pinLevel s.time.total).toNat

/-- `PIN_MISMATCH`: driving outputs whose pads differ from what they drive (R46, R49). -/
def State.pinMis (s : State) : Word := (s.pinIn ^^^ s.pinDrive) &&& s.pinOn

/-- Whether some page has `EXPERT_EN` set. -/
def State.expertAny (s : State) : Bool := (List.range 96).any s.expertOn

/-- `DEV_STATUS` (R81). -/
def State.devStatus (s : State) : Word :=
  word (at_ 11 (b2n s.tam.hold) + at_ 10 (b2n !s.supervised) + at_ 9 (b2n (s.sup.sv1 == .active))
    + at_ 8 (b2n (s.sup.sv0 == .active)) + at_ 7 (b2n s.sched.run.isSome) + at_ 6 (b2n s.nv.otp.mapMode)
    + at_ 5 (b2n s.expertAny) + at_ 4 (b2n s.testMode) + b2n s.pwr.coreReady)

/-- The bits of secure-owned pages, which the normal world reads as 0 (R75). -/
def State.secureMask (s : State) (lo n : Nat) : Word := pageMask s.secureOwned lo n

/-- A summary register as an agent reads it. -/
def State.sumSeen (s : State) (a : Agent) (f : Nat → Bool) (lo n : Nat) : Word :=
  if s.secureWorld a then pageMask f lo n else pageMask f lo n &&& ~~~(s.secureMask lo n)

/-- DEV registers (R81). -/
def State.devRead (s : State) (a : Agent) (r : Reg) : Word :=
  if r = R.DEV_SERIAL then s.nv.otp.serial
  else if r = R.DEV_STATUS then s.devStatus
  else if r = R.TIDE_NOW then s.tideWord
  else if r = R.EVT_SUM_LO then s.sumSeen a s.evtPend 0 64
  else if r = R.EVT_SUM_HI then s.sumSeen a s.evtPend 0x40 32
  else if r = R.REJ_SUM_LO then s.sumSeen a s.rejPend 0 64
  else if r = R.REJ_SUM_HI then s.sumSeen a s.rejPend 0x40 32
  else if r = R.AGENT_ID then word (at_ 4 (b2n (s.secureWorld a)) + a.code)
  else if r = R.RESET_CAUSE then word s.pwr.cause
  else s.rd r

/-- PINIO registers (R49). -/
def State.pinRead (s : State) (r : Reg) : Word :=
  if r = R.PIN_IN then s.pinIn else if r = R.PIN_MISMATCH then s.pinMis else s.rd r

-- Schedule engine (spec/04).

/-- `STORE0_ID` and `STORE1_ID` (R115). -/
def State.storeId (s : State) (i : Nat) : Word :=
  match s.storeSt i with
  | .valid => imgId (s.storeMem i)
  | .armed => imgId (s.storeMem i)
  | .running => imgId (s.storeMem i)
  | _ => 0

/-- `PROBE_DATA` (R117). -/
def State.probeData (s : State) : Word :=
  let sel := s.rd R.PROBE_SEL
  word (at_ 16 (b2n s.image.isSome) + s.entry (fld sel 31 30) (fld sel 20 12) (fld sel 11 0))

/-- Page 0x11: a budget word of the running image (R116). -/
def State.budRead (s : State) (i : Nat) : Word :=
  match s.image with
  | some m => budget m i
  | none => 0

/-- Schedule-engine registers (R115 to R117). -/
def State.schedRead (s : State) (r : Reg) (k : Nat) : Word :=
  if r = R.SCHED_STAT then s.schedStat
  else if r = R.TIDE then s.tideWord
  else if r = R.EPOCH_SLOT then word (at_ 32 s.time.epoch + s.slot)
  else if r = R.RUN_ID then (s.image.map imgId).getD 0
  else if r = R.STORE0_ID then s.storeId 0
  else if r = R.STORE1_ID then s.storeId 1
  else if r = R.PROBE_DATA then s.probeData
  else if r.page = 0x11 then s.budRead ((r.off - 0x100) / 8)
  else s.rd r 0 k

-- Sluice, heap, pans (spec/07 to 10).

/-- The gain table's entry that an agent's address and `VIEW` select (R216). -/
def State.gainRead (s : State) (a : Agent) (u : Nat) : Word :=
  let ad := s.rdAgent R.GAIN_ADDR u a
  word (mget (fun _ => (0 : BitVec 16)) (if bit ad 16 then s.slu.gainW else s.slu.gainS) (65536 * u + fld ad 15 0)).toNat

/-- The window coefficient that an agent's address and `VIEW` select (R202, R216). -/
def State.winRead (s : State) (a : Agent) (u : Nat) : Word :=
  let ad := s.rdAgent R.WIN_ADDR u a
  word (mget (fun _ => (0 : BitVec 18)) (if bit ad 16 then s.slu.winW else s.slu.winS) (32768 * u + fld ad 14 0)).toNat

/-- Sluice registers (R214 to R217). -/
def State.sluRead (s : State) (a : Agent) (r : Reg) (u k : Nat) : Word :=
  if r = R.GAIN_DATA then s.gainRead a u
  else if r = R.WIN_DATA then s.winRead a u
  else if r = R.CLIP_DATA then word (mget (fun _ => 0) s.slu.clips (65536 * u + fld (s.rdAgent R.CLIP_ADDR u a) 15 0))
  else s.rd r u k

/-- `TRN_TAG0` or `TRN_TAG1` of a pseudo-channel (R225, R246). -/
def State.trnTag (s : State) (j : Nat) : Word :=
  word (at_ 48 (s.pc j).recentres + at_ 16 (s.loadMark j) + at_ 8 (s.pc j).actTag + (s.pc j).tempTag.toNat)

/-- Heap registers and those of rakes (R246, R304). -/
def State.heapRead (s : State) (r : Reg) (u k : Nat) : Word :=
  if r = R.HC_STAT then s.hcStat u
  else if r = R.TRN_TAG0 then s.trnTag (2 * u)
  else if r = R.TRN_TAG1 then s.trnTag (2 * u + 1)
  else if r = R.RK_STAT then s.rkStat (u / 4)
  else if r = R.ACC_GEN then word s.accGen
  else s.rd r u k

/-- Pan and feeder registers (R279). -/
def State.panRead (s : State) (a : Agent) (r : Reg) (p k : Nat) : Word :=
  let acc := fun (f : Word × Bool → Word) =>
    let ad := s.rdAgent R.ACC_ADDR p a
    f (s.accRead p (bit ad 13) (fld ad 12 0))
  if r = R.PAN_STAT then s.panStat p
  else if r = R.OPM_DATA then
    let ad := s.rdAgent R.OPM_ADDR p a
    s.opmRead p (fld ad 14 4) (fld ad 3 0)
  else if r = R.ACC_DATA then acc fun x => x.1
  else if r = R.ACC_STAT then acc fun x => word (b2n x.2)
  else if r = R.JOB_DATA then mget (fun _ => (0 : Word)) (s.pn p).jobs (fld (s.rdAgent R.JOB_ADDR p a) 7 0)
  else if r = R.PAN_XPC then word ((s.pn p).seq.pc % 4096)
  else if r = R.PAN_XLOOP0 then (s.pn p).seq.l0.word
  else if r = R.PAN_XLOOP1 then (s.pn p).seq.l1.word
  else if r = R.PAN_XLOOP2 then (s.pn p).seq.l2.word
  else if r = R.FEED_R_STAT then s.feedStat (p / 16)
  else if r = R.FEED_C_STAT then s.feedStat (16 + p / 16)
  else s.rd r p k

-- Ethernet, rings, crossbar, DMA, PCIe (spec/12, 13).

/-- Ethernet registers and the shared tables (R336, R346, R355). -/
def State.ethRead (s : State) (a : Agent) (r : Reg) (e k : Nat) : Word :=
  if r = R.ETH_STAT then putBit (s.rd r e k) 15 (s.hasUnit 2 e)
  else if r = R.FLT_W0 then (s.fltOf a).w0
  else if r = R.FLT_W1 then (s.fltOf a).w1
  else if r = R.FLT_W2 then (s.fltOf a).w2
  else if r = R.DST_DATA then
    let sel := s.rdAgent R.DST_SEL 0 a
    mget (fun _ => (0 : Word)) (if bit sel 16 then s.net.dstWork else s.net.dstShadow) (fld sel 8 0)
  else s.rd r e k

/-- Ring registers (R349, R356). -/
def State.ringRead (s : State) (a : Agent) (r : Reg) : Word :=
  let g := s.ring (s.ringSel a)
  if r = R.QM_STAT then word (s.net.ring.filter fun e => e.2.on).length
  else if r = R.RING_D0 then g.d0
  else if r = R.RING_D1 then g.d1
  else if r = R.RING_D2 then g.d2
  else if r = R.RING_D3 then g.d3
  else s.rd r

/-- `DMA_STAT` (R383). -/
def State.dmaStat (s : State) : Word :=
  word (at_ 48 (s.dmaOut 3) + at_ 32 (s.dmaOut 4) + at_ 16 s.dmaPages
    + ((List.range 64).filter s.chBusy).length)

/-- DMA registers (R383, R384). -/
def State.dmaRead (s : State) (a : Agent) (r : Reg) (k : Nat) : Word :=
  let c := fld (s.rdAgent R.CH_SEL 0 a) 5 0
  if r = R.DMA_STAT then s.dmaStat
  else if r = R.DMA_EVT then s.dma.events
  else if r = R.CH_PROG then s.chProg c
  else if r = R.CH_CFG then s.chCfg c
  else if r = R.CH_STAT then s.chStat k
  else if r = R.CH_PC then word ((s.ch k).pc % 2 ^ 48)
  else if r = R.CH_BYTES then word (at_ 32 ((s.ch k).discarded % 2 ^ 32) + (s.ch k).written % 2 ^ 32)
  else s.rd r 0 k

/-- Crossbar and endpoint registers (R365, R385). -/
def State.busRead (s : State) (r : Reg) (k : Nat) : Word :=
  let p := s.pcie
  if r = R.FW_FENCE then word (at_ 63 (b2n s.fenceDone) + s.oldestGen)
  else if r = R.PCIE_STAT then
    word (at_ 16 p.speed + at_ 8 p.width + at_ 4 (if p.d3 then 3 else 0) + at_ 1 (b2n p.bme) + b2n p.up)
  else if r = R.PCIE_ID then word (at_ 48 s.nv.otp.vendor.toNat + at_ 32 0x4810 + at_ 24 1 + 0x118000)
  else s.rd r 0 k

-- References and time (spec/14).

/-- Registers of the root PLL, of selection, of the time bases and of the servo (R409 to R412). -/
def State.timeRead (s : State) (r : Reg) (i : Nat) : Word :=
  let t := s.time
  if r = R.PLL_STAT then s.pllStat
  else if r = R.CTRL_NOW then wordI s.ctrlNow
  else if r = R.HO_VALUE then wordI t.hoValue
  else if r = R.PHASE_ERR then wordI s.phaseErr
  else if r = R.NET_PHASE then wordI (t.netPhase / 1000000)
  else if r = R.NET_TARGET then wordI t.netTarget
  else if r = R.ABSORB_LAST then wordI t.absorb
  else if r = R.SRC_STAT then s.srcStat
  else if r = R.TB_SEC then word (timeSec (s.tbTime i))
  else if r = R.TB_NS then timeNsWord (s.tbTime i)
  else if r = R.TB_STAT then s.tbStat i
  else if r = R.TB_OFS then s.tbOfs i
  else if r = R.EPOCH_SEC then word (timeSec t.epochStart)
  else if r = R.EPOCH_NS then timeNsWord t.epochStart
  else if r = R.SRV_STAT then word (at_ 2 (b2n t.havePrev) + t.lastOut)
  else if r = R.RATE_I then wordI ((of64 t.rI).dy.fix 48)
  else s.rd r i

-- Yelmel, supervisors, NVM, tamper monitor (spec/15, 16).

/-- `CQ_STAT` (R442). -/
def State.cqStat (s : State) : Word :=
  let auth := fun k => (pget s.cmds.session k).any (·.auth)
  word (at_ 3 (b2n s.sup.recovery) + at_ 2 (b2n s.updGate) + at_ 1 (b2n s.swapGate) + b2n s.sup.ready
    + ((List.range 16).map fun k => at_ (16 + k) (b2n (auth k))).sum)

/-- `SEC_STAT` (R473). -/
def State.secStat (s : State) : Word :=
  word (((List.range 16).map fun k => at_ (24 + k) (b2n (s.opKey k).isSome)).sum
    + ((List.range 8).map fun k => at_ (16 + k) (b2n (pget s.nv.otp.verify k).isSome)).sum
    + at_ 8 s.nv.otp.revoked.toNat + at_ 7 (b2n s.tam.hold) + at_ 6 (b2n s.sup.dbgGrant)
    + at_ 5 (b2n s.sigRequired) + at_ 4 (b2n s.keyOp))

/-- Registers of CMDQ, AON, TAMPER, NVM and SECURE (R48, R442, R471 to R474). -/
def State.mgmtRead (s : State) (r : Reg) (k : Nat) : Word :=
  if r = R.CQ_STAT then s.cqStat
  else if r = R.CQ_FW then word (at_ 32 (s.sup.romVer % 2 ^ 32) + s.sup.ovlVer % 2 ^ 32)
  else if r = R.PWR_STAT then s.pwrStat
  else if r = R.SV_STAT then s.svStat
  else if r = R.UNSUP_STAT then s.unsupStat
  else if r = R.CKPT_STAT then s.ckptStat
  else if r = R.GATE_STAT then s.gateStat
  else if r = R.TMP_STAT then s.tmpStat
  else if r = R.TMP_COUNT then s.tmpCount
  else if r = R.SEC_STAT then s.secStat
  else if r = R.NVM_STAT then word (b2n s.nv.erasing.isSome)
  else if r = R.NVM_DATA then s.nv.nvm.word (8 * fld (s.rd R.NVM_ADDR) 23 3)
  else if r = R.UPD_STAT then s.updStat
  else if r = R.UPD_VER then s.updVer
  else s.rd r 0 k

-- Salinometer, saltern, bittern, test (spec/17 to 19).

/-- `MESH_STAT` (R502). -/
def State.meshStat (s : State) : Word :=
  let on := s.meshZ != 0
  word (at_ 58 (if on then s.leader else 0) + at_ 40 (if on then s.meshH else 0) + at_ 7 (b2n s.closePend)
    + at_ 6 (b2n s.armAgree) + at_ 5 (b2n s.mesh.auth) + at_ 4 (b2n s.isAligned) + at_ 3 (b2n s.mesh.adoptPend)
    + (match s.mesh.role with
      | .standalone => 0
      | .joining => 1
      | .primary => 2
      | .minority => 3))

/-- Registers of the salinometer, the saltern, the bittern and the test pages (R488, R502, R513, R517). -/
def State.diagRead (s : State) (a : Agent) (r : Reg) (k : Nat) : Word :=
  if r = R.SAL_STAT then s.salStat
  else if r = R.CAP_DATA then s.capData (fld (s.rdAgent R.CAP_ADDR 0 a) 12 0)
  else if r = R.MESH_STAT then s.meshStat
  else if r = R.PART_MASK then s.partMask
  else if r = R.LINK_MASK then s.linkMask
  else if r = R.ALIGN_OFS then wordI s.alignOfs
  else if r = R.ERR_WSEQ then word (s.bitt.wseq % 2 ^ 32)
  else if r = R.ERR_RSEQ then word (s.bitt.rseq % 2 ^ 32)
  else if r = R.RL_CFG then s.getReg (regKey 0 0x0B (fld (s.rdAgent R.RL_SEL 0 a) 6 0) r.off)
  else if r = R.SUM_STAT then s.sumStat
  else if r = R.ERR_RD then s.errRd k
  else if r = R.TEST_STAT then s.testStat
  else s.rd r 0 k

/-- A register's value as an agent finds it now (R55): unit `u`, index `k`. -/
def State.live (s : State) (a : Agent) (r : Reg) (u k : Nat) : Word :=
  let p := r.page
  if r.acc = .wo then 0
  else if r.perAgent then s.rdAgent r u a
  else if p = 0x00 then s.devRead a r
  else if p = 0x5C then s.pinRead r
  else if p = 0x10 ∨ p = 0x11 ∨ p = 0x12 then s.schedRead r k
  else if p = 0x20 then s.sluRead a r u k
  else if p = 0x40 then s.heapRead r u k
  else if p = 0x30 then s.panRead a r u k
  else if p = 0x48 then (if r = R.PRBS_BITS then satWord (s.rd r u) (s.prbsNew u) else s.rd r u k)
  else if p = 0x50 then (if r = R.LINK_STAT then s.linkStat u else s.rd r u k)
  else if p = 0x54 then s.ethRead a r u k
  else if p = 0x58 then s.ringRead a r
  else if p = 0x59 ∨ p = 0x5A then s.dmaRead a r k
  else if p = 0x0C ∨ p = 0x0D then s.busRead r k
  else if p = 0x01 ∨ p = 0x02 ∨ p = 0x03 ∨ p = 0x07 then s.timeRead r u
  else if p = 0x0E ∨ p = 0x08 ∨ p = 0x09 ∨ p = 0x0A ∨ p = 0x0F then s.mgmtRead r k
  else if p = 0x5B ∨ p = 0x5D ∨ p = 0x0B ∨ p = 0x5E then s.diagRead a r k
  else s.rd r u k

-- The page header (R57 to R59).

/-- A block state's place in the order of R59, most severe highest. -/
def severity (st : Nat) : Nat :=
  match st with
  | 6 => 6
  | 5 => 5
  | 1 => 4
  | 4 => 3
  | 3 => 2
  | 2 => 1
  | _ => 0

/-- The more severe of two block states. -/
def worse (x y : Nat) : Nat := if severity x < severity y then y else x

/-- `ACTIVE` or `READY`. -/
def activeOr (b : Bool) : Nat := if b then 3 else 2

/-- A link's block state (R183). -/
def State.linkState (s : State) (q : Nat) : Nat :=
  if s.quadMode q ≠ 1 then 0
  else match s.lkState q with
    | 0 => 0
    | 5 => 3
    | 6 => 4
    | 8 => 3
    | 9 => 6
    | _ => 1

/-- Whether a page whose chapter states no end for its start is still in `STARTING` (R59, R61). -/
def State.inStart (s : State) (page : Nat) : Bool :=
  match pget s.fab.startAt page with
  | some t => decide (s.time.total ≤ t + Config.startTime page t)
  | none => false

/-- The block states of a banked page's banks (R59, R183, R215, R240, R278, R355). -/
def State.bankStates (s : State) (page : Nat) : List Nat :=
  if 0x20 ≤ page ∧ page ≤ 0x2F then
    (List.range 16).map fun b =>
      let u := 16 * (page - 0x20) + b
      if (s.sluUnit u).bad then 6 else activeOr (s.image.any fun m => (progSect m tySluice u).isSome)
  else if 0x30 ≤ page ∧ page ≤ 0x3F then
    (List.range 16).map fun b =>
      let p := 16 * (page - 0x30) + b
      activeOr ((s.pn p).jobRun || s.image.any fun m => (progSect m tyPan p).isSome)
  else if 0x40 ≤ page ∧ page ≤ 0x47 then (List.range 32).map fun b => s.ctlCode (32 * (page - 0x40) + b)
  else if 0x50 ≤ page ∧ page ≤ 0x53 then (List.range 64).map fun b => s.linkState (64 * (page - 0x50) + b)
  else if 0x54 ≤ page ∧ page ≤ 0x57 then (List.range 8).map fun b => s.ethState (8 * (page - 0x54) + b)
  else [if s.inStart page then 1 else activeOr (s.pageUsed page)]

/-- The state of an enabled page of one bank. -/
def State.soleState (s : State) (page : Nat) : Nat :=
  if 0x10 ≤ page ∧ page ≤ 0x1F then activeOr s.image.isSome
  else if 0x03 ≤ page ∧ page ≤ 0x06 then (if s.tbState (page - 3) = .free then 2 else 3)
  else
    match page with
    | 0x01 => match s.time.pll with
      | .freeRun => 2
      | .acquiring => 1
      | .locked => 3
      | .holdover => 2
      | .lost => 6
    | 0x02 => activeOr (s.time.src != 15)
    | 0x07 => activeOr (!s.tb1Master && s.time.tb1St == .tracking)
    | 0x08 => 3
    | 0x0B => 3
    | 0x0E => if s.sup.recovery then 1 else activeOr ((List.range 16).any s.cqOn)
    | 0x58 => activeOr (s.net.ring.any fun e => e.2.on)
    | 0x59 => activeOr ((List.range 64).any s.chBusy)
    | 0x5A => activeOr ((List.range 64).any s.chBusy)
    | 0x5B => if !s.converged then 1 else activeOr (s.sal.phase != .stopped)
    | 0x5C => 3
    | 0x5D => match s.mesh.role with
      | .primary => 3
      | .joining => 1
      | .minority => 6
      | .standalone => 2
    | _ => if s.inStart page then 1 else activeOr (Config.pageBusy page s.time.total)

/-- `PG_STAT.STATE` (R59). -/
def State.pageState (s : State) (page : Nat) : Nat :=
  if !s.enabled page then 0
  else match pageInfo page with
    | some p => if p.banks = 1 then s.soleState page else (s.bankStates page).foldl worse 0
    | none => 0

/-- `PG_STAT.BLOCK_STAT`, in place: frozen controllers and `HOT` of a stack (R240), preempted pans (R278). -/
def State.blockStat (s : State) (page : Nat) : Nat :=
  if 0x40 ≤ page ∧ page ≤ 0x47 then
    at_ 48 (b2n (s.rdb R.HC_TEMP (32 * (page - 0x40)) 8))
      + ((List.range 32).map fun n => at_ (16 + n) (b2n (s.ctlCode (32 * (page - 0x40) + n) == 5))).sum
  else if 0x30 ≤ page ∧ page ≤ 0x3F then
    ((List.range 16).map fun b => at_ (16 + b) (b2n (s.pn (16 * (page - 0x30) + b)).preempted)).sum
  else 0

/-- `PG_STAT` (R58). -/
def State.pgStat (s : State) (page : Nat) : Word :=
  word (s.blockStat page + at_ 7 (b2n (s.rejPend page)) + at_ 6 (b2n (s.evtPend page)) + s.pageState page)

/-- A header register as an agent reads it (R57, R58, R66). -/
def State.hdrRead (s : State) (a : Agent) (page off : Nat) (p : PageInfo) : Word :=
  if off = hId then word (at_ 48 p.block + at_ 32 (page - blockFirst page) + at_ 16 1 + page)
  else if off = hCap then word (at_ 48 p.banks + at_ 47 (b2n p.expert) + at_ 46 (b2n p.perturb) + p.cap)
  else if off = hStat then s.pgStat page
  else if off = hBank then word (s.bankOf a page)
  else s.hdr page off

/-- What the sideband I2C target gives of a register of the AON page, core rails or not (R17, R35); nothing in `OFF`. -/
def State.sidebandRead (s : State) (off : Nat) : Option Word :=
  if s.pwr.state = .off then none
  else if off < 0x100 then (pageInfo 0x08).map fun p => s.hdrRead .debug 0x08 off p
  else (findReg 0x08 off).map fun x => s.live .debug x.1 0 x.2

-- Reads through the fabric.

/-- The bank that a read goes to: bank 0 under a broadcast select (R67). -/
def State.readBank (s : State) (a : Agent) (page : Nat) (r : Reg) : Nat :=
  let b := s.bankOf a page
  if r.banks = 1 ∨ b = 0xFF then 0 else b / r.share * r.share

/-- The members of a group whose head is read: their offsets from the head, in registers (R56). -/
def groupSize (r : Reg) (k : Nat) : Nat := if k = 0 then r.grp else if r.stride = 16 then r.grp else 0

/-- Whether a register, at an index of its array, is a member of a group other than its head. -/
def isMember (r : Reg) (k : Nat) : Bool := r.mem != 0 || (r = R.ERR_RD && k != 0)

/-- The value of the register at an offset of a page, as an agent reads it now. -/
def State.liveAt (s : State) (a : Agent) (page off : Nat) : Word :=
  match findReg page off with
  | some (r, k) => s.live a r (unitAt r page (s.readBank a page r)) k
  | none => 0

/-- A group's members captured for an agent that reads its head (R56). -/
def State.capture (s : State) (a : Agent) (page off n : Nat) : State :=
  { s with fab := { s.fab with captures := (List.range n).foldl (fun m i =>
      let o := off + 8 * (i + 1)
      pset m (regKey (1 + a.code) page 0 o) (some (s.liveAt a page o))) s.fab.captures } }

/-- A read of 8 bytes: its data, the code under which it is refused, and the captures that it leaves (R52, R55, R56,
R75). -/
def State.readWord (s : State) (a : Agent) (page off : Nat) : Word × Option Code × State :=
  match pageInfo page with
  | none => (0, none, s)
  | some p =>
    if off < 0x100 then (if off ≤ hBank then s.hdrRead a page off p else 0, none, s)
    else
      match findReg page off with
      | none => (0, none, s)
      | some (r, k) =>
        if s.secureOwned page ∧ s.secureWorld a = false then (0, some .owner, s)
        else
          let now := s.liveAt a page off
          if isMember r k then ((pget s.fab.captures (regKey (1 + a.code) page 0 off)).getD now, none, s)
          else if groupSize r k = 0 then (now, none, s)
          else (now, none, s.capture a page off (groupSize r k))

/-- Whether a read's size and alignment are served: 8 bytes at a multiple of 8, or 4 at a multiple of 4 (R54). -/
def readFits (off size : Nat) : Bool := (size == 8 && off % 8 == 0) || (size == 4 && off % 4 == 0)

/-- A read by an agent that the fabric serves (R54): its data in the low bytes, the refusal, and the captures. -/
def State.readFor (s : State) (x : Access) : Word × Option Code × State :=
  let off := x.off.val
  if readFits off x.size then
    let (w, c, s1) := s.readWord x.agent x.page.val (off / 8 * 8)
    (if x.size = 8 then w else if off % 8 = 0 then w &&& 0xFFFFFFFF#64 else w >>> 32, c, s1)
  else (0, some .align, s)

/-- A read as an agent's port carries it out (R53 to R56, R71, R75, R79): its data, all ones where the core is stopped,
and the state with the capture or the record of a refusal. -/
def State.read (s : State) (x : Access) : Word × State :=
  if s.served x.agent x.page.val then
    match s.readFor x with
    | (w, none, s1) => (w, s1)
    | (w, some c, s1) => (w, s1.recordRejects [s.rejectOf x c])
  else (0xFFFFFFFFFFFFFFFF#64, s)

end Sys2Proof.Machine
end

