-- ==== Sys2Proof/Machine/PortRows.lean ====
section
/-! DEFINITION. The commands of the register model: writes and reads of any register, groups, the page header, the host's
posted writes, and inbound PCIe requests to the three BARs (spec/03, R378, R379, R381). -/

namespace Sys2Proof.Machine

/-- REGISTER_WRITE (R69 to R73): the writes of the agents' ports in one RCLK. -/
def execRegisterWrite (ws : List Access) (s : State) : Host.Outcome State Fault Refusal := done s (s.writeAll ws)

/-- GROUP_HEAD_READ (R56). -/
def execGroupHeadRead (a : Agent) (page : Fin 128) (off : Fin 4096) (s : State) : Host.Outcome State Fault Refusal :=
  let s := s.hostTurn a
  done s (s.read { agent := a, page := page, off := off }).2

/-- GROUP_HELD_WRITE (R56). -/
def execGroupHeldWrite (w : Access) (s : State) : Host.Outcome State Fault Refusal := done s (s.writeAll [w])

/-- GROUP_HEAD_WRITE (R56). -/
def execGroupHeadWrite (w : Access) (s : State) : Host.Outcome State Fault Refusal := done s (s.writeAll [w])

/-- PG_CTRL_WRITE (R60 to R62, R466). -/
def execPgCtrlWrite (a : Agent) (page : Fin 128) (v : Word) (s : State) : Host.Outcome State Fault Refusal :=
  done s (s.write1 a page hCtrl v)

/-- PG_OWNER_WRITE (R74). -/
def execPgOwnerWrite (a : Agent) (page : Fin 128) (v : Word) (s : State) : Host.Outcome State Fault Refusal :=
  done s (s.write1 a page hOwner v)

/-- REFUSED_READ (R54, R75): a read, with its record if the fabric refuses it. -/
def execRefusedRead (r : Access) (s : State) : Host.Outcome State Fault Refusal :=
  let s := s.hostTurn r.agent
  done s (s.read r).2

/-- POSTED_WRITE_APPLY (R77). -/
def execPostedWriteApply (s : State) : Host.Outcome State Fault Refusal := done s s.applyPosted

/-- The parts of an access of BAR0, one for each register that it touches, in ascending order (R54): offset and length. -/
def regParts (ofs len : Nat) : Nat → List (Nat × Nat)
  | 0 => []
  | fuel + 1 =>
    if len = 0 then []
    else
      let n := min len (8 - ofs % 8)
      (ofs, n) :: regParts (ofs + n) (len - n) fuel

/-- A host access to a part of a register. -/
def hostAccess (ofs len : Nat) (data : List Byte) : Access :=
  { agent := .host, page := Fin.ofNat 128 (ofs / 4096), off := Fin.ofNat 4096 (ofs % 4096), size := len, value := word (leNat data) }

/-- A write to BAR0 (R54, R77, R79): its parts are buffered, and while the buffer is full each waits until the port has applied the
oldest; before `CORE_READY` none is applied. Answers the start of the last RCLK that this takes, and the state after it. -/
def State.bar0Write (s : State) (q : PcieReq) : State × State :=
  if s.pwr.coreReady = false then (s, s)
  else
    (regParts q.off q.len (q.len + 1)).foldl (fun (acc : State × State) p =>
      let acc := if 64 ≤ acc.2.fab.posted.length then (acc.1.finish acc.2, (acc.1.finish acc.2).applyPosted) else acc
      let w := hostAccess p.1 p.2 ((q.data.drop (p.1 - q.off)).take p.2)
      (acc.1, { acc.2 with fab := { acc.2.fab with posted := acc.2.fab.posted ++ [w] } })) (s, s)

/-- A read of BAR0 (R54, R76, R79): what was posted before takes effect first, then one register is read each RCLK. Answers the start
of the last RCLK, and the state after it. -/
def State.bar0Read (s : State) (q : PcieReq) : State × State :=
  let s := s.drainPosted
  let (ds, y, x) := (regParts q.off q.len (q.len + 1)).foldl (fun (acc : List Byte × State × State) p =>
    let y := acc.2.1.finish acc.2.2
    let (w, x) := y.read (hostAccess p.1 p.2 [])
    (acc.1 ++ leBytes p.2 w.toNat, y, x)) ([], s, s)
  (y, x.emit (.pcieCpl 0 ds))

/-- An agent's access through the register-space window of the crossbar (R50, R53, R54): one register each RCLK, in ascending order,
each with its own check. `s0` is the state before the grant. Answers the start of the last RCLK, and the state after it. -/
def State.fabricServe (s s0 : State) (id : Nat) (t : Txn) (a : Agent) (o : Nat) : State × State :=
  let (ds, y, x) := (regParts o t.len (t.len + 1)).foldl (fun (acc : List Byte × State × State) p =>
    let y := acc.2.1.finish acc.2.2
    let w : Access := { hostAccess p.1 p.2 ((t.data.drop (p.1 - o)).take p.2) with agent := a }
    if t.write then (acc.1, y, y.writeAll [w])
    else
      let (v, x) := y.read w
      (acc.1 ++ leBytes p.2 v.toNat, y, x)) ([], s0, s)
  (y, x.respond id false false ds)

/-- A port's winner checked and served (R360, R361, R363): the start of the last RCLK that it takes, and the state after it. -/
def State.arbitrate (s : State) (port : Nat) : State × State :=
  match (if s.testHeld (0x60 + port) (s.rd R.TP_XB 0 port) then none else s.winner port) with
  | none => (s, s)
  | some (id, t) =>
    let s1 := s.grant id t
    match s.fabricAgent t, mapRow t.addr, pget s1.xbar.txns id with
    | some a, some row, some t1 =>
      if row.2.2 = .regs ∧ t1.resp.isNone then s1.fabricServe s id t1 a (t.addr - row.1) else (s, s1)
    | _, _, _ => (s, s1)

/-- XBAR_ARBITRATION (R50, R53, R360, R361, R363): the port's winner is checked and served. -/
def execXbarArbitration (t : Fin 8) (s : State) : Host.Outcome State Fault Refusal := done (s.arbitrate t).1 (s.arbitrate t).2

/-- An Unsupported Request (R379). -/
def State.unsupported (s : State) (q : PcieReq) : State :=
  if q.write then s else ((s.countf R.PCIE_ERR 0 63 48).raise 0x0D 2).emit (.pcieCpl 1 [])

/-- The heap address of an offset of BAR2 (R378). -/
def State.bar2Addr (s : State) (off : Nat) : Nat := (s.rd R.BAR2_WIN 0 (off / 2 ^ 32)).toNat + off % 2 ^ 32

/-- A byte of BAR4: the MSI-X table's entries of 16 bytes, and the pending bits (R378, R381). -/
def State.bar4Byte (s : State) (o : Nat) : Byte :=
  if o < 0x8000 then
    let e := mget msixDflt s.pcie.table (o / 16)
    let w := e.addr.toNat + e.data.toNat * 2 ^ 64 + b2n e.masked * 2 ^ 96
    BitVec.ofNat 8 (w / 256 ^ (o % 16))
  else
    let p := 8 * (o - 0x8000)
    BitVec.ofNat 8 ((List.range 8).map fun i =>
      at_ i (b2n (decide (p + i < 2048) && mget (fun _ => false) s.pcie.pba (p + i)))).sum

/-- An entry of the MSI-X table from its 16 bytes; a vector that is unmasked sends what it holds (R381). -/
def State.bar4Entry (s : State) (v : Nat) (bs : List Byte) : State :=
  let w := leNat bs
  let e : MsixEntry := { addr := word w, data := BitVec.ofNat 32 (w / 2 ^ 64), masked := (w / 2 ^ 96).testBit 0 }
  let was := (mget msixDflt s.pcie.table v).masked
  let s1 : State := { s with pcie := { s.pcie with table := mset msixDflt s.pcie.table v e } }
  if was ∧ !e.masked then s1.unmask v else s1

/-- A write to BAR4: the bytes of the table that it covers; the pending bits are read-only. -/
def State.bar4Write (s : State) (q : PcieReq) : State :=
  (List.range (q.len / 16 + 2)).foldl (fun s i =>
    let v := q.off / 16 + i
    if v < 2048 ∧ 16 * v < q.off + q.len then
      s.bar4Entry v ((List.range 16).map fun b =>
        let o := 16 * v + b
        if q.off ≤ o ∧ o < q.off + q.len then q.data.getD (o - q.off) 0 else s.bar4Byte o)
    else s) s

/-- A request to BAR2 or BAR4, or to no BAR of the function (R378, R379). -/
def State.barOther (s : State) (r : PcieReq) : State :=
  match r.bar.val with
  | 2 =>
    if 2 ^ 36 < r.off + r.len then s.unsupported r
    else s.enter 2 false r.write (s.bar2Addr r.off) r.len r.data none .pcie
  | 4 =>
    if 0x10000 < r.off + r.len then s.unsupported r
    else if r.write then s.bar4Write r
    else s.emit (.pcieCpl 0 ((List.range r.len).map fun i => s.bar4Byte (r.off + i)))
  | _ => s.unsupported r

/-- An inbound request (R377 to R379): the start of the last RCLK that it takes, and the state after it. -/
def State.inbound (s : State) (r : PcieReq) : State × State :=
  if !s.pcie.up then (s, s)
  else if s.pcie.d3 then (s, s.unsupported r)
  else if r.bar.val = 0 then
    if 0x80000 < r.off + r.len then (s, s.unsupported r)
    else if r.write then s.bar0Write r else s.bar0Read r
  else (s, s.barOther r)

/-- PCIE_INBOUND_REQUEST (R377 to R379). -/
def execPcieInboundRequest (r : PcieReq) (s : State) : Host.Outcome State Fault Refusal := done (s.inbound r).1 (s.inbound r).2

end Sys2Proof.Machine
end

