-- ==== Sys2Proof/Machine/UnitRows.lean ====
section
/-! DEFINITION. The commands that are writes of one register: each is that register's write by an agent's port, with
every check of R69 and the register's own, and its effect. A command's page is counted from its block's first page. -/

namespace Sys2Proof.Machine

/-- LOAD_START (R100, R104). -/
def execLoadStart (a : Agent) (store : Fin 2) (s : State) : Host.Outcome State Fault Refusal :=
  done s (s.writeReg a 0x10 R.LOAD_CMD (word (at_ 8 store + 1)))

/-- LOAD_CLEAR (R104). -/
def execLoadClear (a : Agent) (store : Fin 2) (s : State) : Host.Outcome State Fault Refusal :=
  done s (s.writeReg a 0x10 R.LOAD_CMD (word (at_ 8 store + 2)))

/-- ARM_COMMIT (R105). -/
def execArmCommit (a : Agent) (v : Word) (s : State) : Host.Outcome State Fault Refusal :=
  done s (s.writeReg a 0x10 R.ARM_CTRL (setBit v 0))

/-- ARM_CANCEL (R106). -/
def execArmCancel (a : Agent) (s : State) : Host.Outcome State Fault Refusal :=
  done s (s.writeReg a 0x10 R.ARM_CANCEL 1)

/-- HC_CMD_RETRAIN (R239). -/
def execHcCmdRetrain (a : Agent) (stack : Fin 8) (s : State) : Host.Outcome State Fault Refusal :=
  done s (s.writeReg a (0x40 + stack) R.HC_CMD 1)

/-- HC_CMD_CLR_ADDR (R237, R246). -/
def execHcCmdClrAddr (a : Agent) (stack : Fin 8) (s : State) : Host.Outcome State Fault Refusal :=
  done s (s.writeReg a (0x40 + stack) R.HC_CMD 2)

/-- HC_CMD_CLR_LOST (R239, R246). -/
def execHcCmdClrLost (a : Agent) (stack : Fin 8) (s : State) : Host.Outcome State Fault Refusal :=
  done s (s.writeReg a (0x40 + stack) R.HC_CMD 4)

/-- HC_XCMD_FREEZE (R235, R246). -/
def execHcXcmdFreeze (a : Agent) (stack : Fin 8) (s : State) : Host.Outcome State Fault Refusal :=
  done s (s.writeReg a (0x40 + stack) R.HC_XCMD 1)

/-- BR_CLEAR_FIRST (R143). -/
def execBrClearFirst (a : Agent) (s : State) : Host.Outcome State Fault Refusal :=
  done s (s.writeReg a 0x12 R.BR_CLEAR 1)

/-- LINK_CMD_RETRAIN (R177, R183). -/
def execLinkCmdRetrain (a : Agent) (page : Fin 4) (s : State) : Host.Outcome State Fault Refusal :=
  done s (s.writeReg a (0x50 + page) R.LINK_CMD 1)

/-- LINK_CMD_SLEEP (R176, R183). -/
def execLinkCmdSleep (a : Agent) (page : Fin 4) (s : State) : Host.Outcome State Fault Refusal :=
  done s (s.writeReg a (0x50 + page) R.LINK_CMD 2)

/-- LINK_CMD_WAKE (R177, R183). -/
def execLinkCmdWake (a : Agent) (page : Fin 4) (s : State) : Host.Outcome State Fault Refusal :=
  done s (s.writeReg a (0x50 + page) R.LINK_CMD 4)

/-- LINK_CMD_WIDTH_UP (R175, R183). -/
def execLinkCmdWidthUp (a : Agent) (page : Fin 4) (s : State) : Host.Outcome State Fault Refusal :=
  done s (s.writeReg a (0x50 + page) R.LINK_CMD 8)

/-- LANE_CMD_BIT_SLIP (R172). -/
def execLaneCmdBitSlip (a : Agent) (page : Fin 8) (s : State) : Host.Outcome State Fault Refusal :=
  done s (s.writeReg a (0x48 + page) R.LANE_CMD 1)

/-- LANE_CMD_INJ_BURST (R171). -/
def execLaneCmdInjBurst (a : Agent) (page : Fin 8) (s : State) : Host.Outcome State Fault Refusal :=
  done s (s.writeReg a (0x48 + page) R.LANE_CMD 2)

/-- LANE_CMD_PRBS_RESYNC (R169). -/
def execLaneCmdPrbsResync (a : Agent) (page : Fin 8) (s : State) : Host.Outcome State Fault Refusal :=
  done s (s.writeReg a (0x48 + page) R.LANE_CMD 4)

/-- PRBS_CTRL_WRITE (R167, R169). -/
def execPrbsCtrlWrite (a : Agent) (page : Fin 8) (v : Word) (s : State) : Host.Outcome State Fault Refusal :=
  done s (s.writeReg a (0x48 + page) R.PRBS_CTRL v)

/-- QUAD_MODE_WRITE (R145, R146). -/
def execQuadModeWrite (a : Agent) (page : Fin 4) (v : Word) (s : State) : Host.Outcome State Fault Refusal :=
  done s (s.writeReg a (0x50 + page) R.QUAD_MODE v)

/-- DM_COMMIT (R195). -/
def execDmCommit (a : Agent) (page : Fin 16) (k : Fin 16) (v : Word) (s : State) : Host.Outcome State Fault Refusal :=
  done s (s.writeReg a (0x20 + page) R.DM_CTRL (setBit v 0) k)

/-- GAIN_COMMIT (R13, R216). -/
def execGainCommit (a : Agent) (page : Fin 16) (s : State) : Host.Outcome State Fault Refusal :=
  done s (s.writeReg a (0x20 + page) R.GAIN_CTRL 1)

/-- WIN_COMMIT (R13, R202). -/
def execWinCommit (a : Agent) (page : Fin 16) (s : State) : Host.Outcome State Fault Refusal :=
  done s (s.writeReg a (0x20 + page) R.WIN_CTRL 1)

/-- GAIN_COPY (R216). -/
def execGainCopy (a : Agent) (page : Fin 16) (k : Fin 16) (s : State) : Host.Outcome State Fault Refusal :=
  done s (s.writeReg a (0x20 + page) R.SLU_CMD (word (at_ 16 k + 1)))

/-- WIN_DEFAULT (R202). -/
def execWinDefault (a : Agent) (page : Fin 16) (s : State) : Host.Outcome State Fault Refusal :=
  done s (s.writeReg a (0x20 + page) R.SLU_CMD 2)

/-- STREAM_RESET (R194, R216). -/
def execStreamReset (a : Agent) (page : Fin 16) (k : Fin 16) (s : State) : Host.Outcome State Fault Refusal :=
  done s (s.writeReg a (0x20 + page) R.SLU_CMD (word (at_ 16 k + 4)))

/-- CLIP_CLR (R214). -/
def execClipClr (a : Agent) (page : Fin 16) (k : Fin 16) (s : State) : Host.Outcome State Fault Refusal :=
  done s (s.writeReg a (0x20 + page) R.SLU_CMD (word (at_ 16 k + 8)))

/-- GAIN_DATA_WRITE (R215, R216). -/
def execGainDataWrite (a : Agent) (page : Fin 16) (v : Word) (s : State) : Host.Outcome State Fault Refusal :=
  done s (s.writeReg a (0x20 + page) R.GAIN_DATA v)

/-- WIN_DATA_WRITE (R202, R216). -/
def execWinDataWrite (a : Agent) (page : Fin 16) (v : Word) (s : State) : Host.Outcome State Fault Refusal :=
  done s (s.writeReg a (0x20 + page) R.WIN_DATA v)

/-- PAN_XCMD_PREEMPT (R275, R279). -/
def execPanXcmdPreempt (a : Agent) (page : Fin 16) (s : State) : Host.Outcome State Fault Refusal :=
  done s (s.writeReg a (0x30 + page) R.PAN_XCMD 1)

/-- PAN_XCMD_RESUME (R277, R279). -/
def execPanXcmdResume (a : Agent) (page : Fin 16) (s : State) : Host.Outcome State Fault Refusal :=
  done s (s.writeReg a (0x30 + page) R.PAN_XCMD 2)

/-- PAN_XCMD_JOB_START (R276, R279). -/
def execPanXcmdJobStart (a : Agent) (page : Fin 16) (s : State) : Host.Outcome State Fault Refusal :=
  done s (s.writeReg a (0x30 + page) R.PAN_XCMD 4)

/-- PAN_XCMD_JOB_ABORT (R276, R279). -/
def execPanXcmdJobAbort (a : Agent) (page : Fin 16) (s : State) : Host.Outcome State Fault Refusal :=
  done s (s.writeReg a (0x30 + page) R.PAN_XCMD 8)

/-- OPM_DATA_WRITE (R276, R279). -/
def execOpmDataWrite (a : Agent) (page : Fin 16) (v : Word) (s : State) : Host.Outcome State Fault Refusal :=
  done s (s.writeReg a (0x30 + page) R.OPM_DATA v)

/-- JOB_DATA_WRITE (R276, R279). -/
def execJobDataWrite (a : Agent) (page : Fin 16) (v : Word) (s : State) : Host.Outcome State Fault Refusal :=
  done s (s.writeReg a (0x30 + page) R.JOB_DATA v)

/-- WT_SEL_COMMIT (R308). -/
def execWtSelCommit (a : Agent) (v : Word) (s : State) : Host.Outcome State Fault Refusal :=
  done s (s.writeReg a 0x30 R.WT_SEL (setBit v 0))

/-- ETH_CMD_RESTART (R333, R355). -/
def execEthCmdRestart (a : Agent) (page : Fin 4) (s : State) : Host.Outcome State Fault Refusal :=
  done s (s.writeReg a (0x54 + page) R.ETH_CMD 1)

/-- DST_DATA_WRITE (R346). -/
def execDstDataWrite (a : Agent) (v : Word) (s : State) : Host.Outcome State Fault Refusal :=
  done s (s.writeReg a 0x54 R.DST_DATA v)

/-- DST_COMMIT (R346). -/
def execDstCommit (a : Agent) (s : State) : Host.Outcome State Fault Refusal :=
  done s (s.writeReg a 0x54 R.DST_CTRL 1)

/-- RING_DOORBELL (R352). -/
def execRingDoorbell (a : Agent) (v : Word) (s : State) : Host.Outcome State Fault Refusal :=
  done s (s.writeReg a 0x58 R.RING_DB v)

/-- CH_CMD_START (R366). -/
def execChCmdStart (a : Agent) (s : State) : Host.Outcome State Fault Refusal :=
  done s (s.writeReg a 0x59 R.CH_CMD 1)

/-- CH_CMD_ABORT (R366, R374). -/
def execChCmdAbort (a : Agent) (s : State) : Host.Outcome State Fault Refusal :=
  done s (s.writeReg a 0x59 R.CH_CMD 2)

/-- CH_CMD_CLEAR (R366). -/
def execChCmdClear (a : Agent) (s : State) : Host.Outcome State Fault Refusal :=
  done s (s.writeReg a 0x59 R.CH_CMD 4)

/-- DMA_EVT_SET (R383). -/
def execDmaEvtSet (a : Agent) (v : Word) (s : State) : Host.Outcome State Fault Refusal :=
  done s (s.writeReg a 0x59 R.DMA_EVT_SET v)

/-- DMA_EVT_CLR (R383). -/
def execDmaEvtClr (a : Agent) (v : Word) (s : State) : Host.Outcome State Fault Refusal :=
  done s (s.writeReg a 0x59 R.DMA_EVT_CLR v)

/-- TB0_STEP_COMMIT (R400, R497). -/
def execTb0StepCommit (a : Agent) (v : Word) (s : State) : Host.Outcome State Fault Refusal :=
  done s (s.writeReg a 0x03 R.STEP_CTRL (setBit v 0))

/-- TB3_STEP_COMMIT (R406). -/
def execTb3StepCommit (a : Agent) (v : Word) (s : State) : Host.Outcome State Fault Refusal :=
  done s (s.writeReg a 0x06 R.STEP_CTRL (setBit v 0))

/-- TB_SRC_WRITE (R401, R402). -/
def execTbSrcWrite (a : Agent) (tb : Fin 4) (v : Word) (s : State) : Host.Outcome State Fault Refusal :=
  done s (s.writeReg a (0x03 + tb) R.TB_SRC v)

/-- PTP_SAMPLE (R403, R412). -/
def execPtpSample (a : Agent) (v : Word) (s : State) : Host.Outcome State Fault Refusal :=
  done s (s.writeReg a 0x07 R.SMP_OFS v)

/-- CQ_CH_WRITE (R415). -/
def execCqChWrite (a : Agent) (k : Fin 16) (v : Word) (s : State) : Host.Outcome State Fault Refusal :=
  done s (s.writeReg a 0x0E R.CQ_CH v k)

/-- WD_FEED (R445, R471). -/
def execWdFeed (a : Agent) (v : Word) (s : State) : Host.Outcome State Fault Refusal :=
  done s (s.writeReg a 0x08 R.WD_FEED v)

/-- SV_CMD_REARM (R449, R471). -/
def execSvCmdRearm (a : Agent) (target : Fin 2) (s : State) : Host.Outcome State Fault Refusal :=
  done s (s.writeReg a 0x08 R.SV_CMD (word (at_ 8 target + 1)))

/-- SV_CMD_FAILOVER (R446, R471). -/
def execSvCmdFailover (a : Agent) (s : State) : Host.Outcome State Fault Refusal :=
  done s (s.writeReg a 0x08 R.SV_CMD 2)

/-- SV_CMD_RESTART (R447, R471). -/
def execSvCmdRestart (a : Agent) (s : State) : Host.Outcome State Fault Refusal :=
  done s (s.writeReg a 0x08 R.SV_CMD 4)

/-- UNSUP_LIMIT_WRITE (R450, R471). -/
def execUnsupLimitWrite (a : Agent) (v : Word) (s : State) : Host.Outcome State Fault Refusal :=
  done s (s.writeReg a 0x08 R.UNSUP_LIMIT v)

/-- NVM_DATA_WRITE (R474). -/
def execNvmDataWrite (a : Agent) (v : Word) (s : State) : Host.Outcome State Fault Refusal :=
  done s (s.writeReg a 0x0A R.NVM_DATA v)

/-- ERASE_SLOT (R474). -/
def execEraseSlot (a : Agent) (slot : Fin 2) (s : State) : Host.Outcome State Fault Refusal :=
  done s (s.writeReg a 0x0A R.NVM_CMD (word (at_ slot 1)))

/-- SAL_RUN_WRITE (R480, R488). -/
def execSalRunWrite (a : Agent) (v : Word) (s : State) : Host.Outcome State Fault Refusal :=
  done s (s.writeReg a 0x5B R.SAL_CFG v)

/-- URG_CTRL_GO (R482). -/
def execUrgCtrlGo (a : Agent) (v : Word) (s : State) : Host.Outcome State Fault Refusal :=
  done s (s.writeReg a 0x5B R.URG_CTRL (setBit v 63))

/-- TRIG_CLR (R481). -/
def execTrigClr (a : Agent) (s : State) : Host.Outcome State Fault Refusal :=
  done s (s.writeReg a 0x5B R.SAL_CMD 2)

/-- URG_CANCEL (R483). -/
def execUrgCancel (a : Agent) (s : State) : Host.Outcome State Fault Refusal :=
  done s (s.writeReg a 0x5B R.SAL_CMD 1)

/-- ERR_RSEQ_WRITE (R509). -/
def execErrRseqWrite (a : Agent) (v : Word) (s : State) : Host.Outcome State Fault Refusal :=
  done s (s.writeReg a 0x0B R.ERR_RSEQ v)

/-- SUM_WRITE (R511, R513). -/
def execSumWrite (a : Agent) (s : State) : Host.Outcome State Fault Refusal :=
  done s (s.writeReg a 0x0B R.ERR_CMD 4)

/-- RING_CLR (R513). -/
def execRingClr (a : Agent) (s : State) : Host.Outcome State Fault Refusal :=
  done s (s.writeReg a 0x0B R.ERR_CMD 2)

/-- FF_CLR (R510, R513). -/
def execFfClr (a : Agent) (s : State) : Host.Outcome State Fault Refusal :=
  done s (s.writeReg a 0x0B R.ERR_CMD 1)

/-- TEST_MODE_WRITE (R514). -/
def execTestModeWrite (a : Agent) (v : Word) (s : State) : Host.Outcome State Fault Refusal :=
  done s (s.writeReg a 0x5E R.TEST_CTRL v)

/-- BIST_START (R517). -/
def execBistStart (a : Agent) (group : Fin 16) (s : State) : Host.Outcome State Fault Refusal :=
  done s (s.writeReg a 0x5E R.BIST_CMD (word (0x10 + group)))

/-- PIN_OE_WRITE (R47). -/
def execPinOeWrite (a : Agent) (v : Word) (s : State) : Host.Outcome State Fault Refusal :=
  done s (s.writeReg a 0x5C R.PIN_OE v)

end Sys2Proof.Machine
end

