-- ==== Sys2Proof/Machine/PowerOps.lean ====
section
/-! DEFINITION. Supplies, resets and core starts (spec/02): what a core reset and the reset of the always-on domain leave,
when the core may run, and what happens at its start. -/

namespace Sys2Proof.Machine

/-- Whether a VAON feed is qualified: the always-on domain is powered (R16, R29). -/
def State.feedOk (s : State) : Bool := s.pwr.feedA || s.pwr.feedB

/-- The power part, changed. -/
def State.setPwr (s : State) (f : Power → Power) : State := { s with pwr := f s.pwr }

/-- The core rails, those of R31's steps 2 to 4, in `RAIL_OK` order. -/
def coreRails : BitVec 8 := 0x7F

/-- Whether the core may leave reset: POR_N and WARM_N high, a feed and every rail of steps 2 to 4 qualified, no hold (R30
to R33, R39, R519). -/
def State.coreMayRun (s : State) : Bool :=
  let p := s.pwr
  p.porN && p.warmN && s.feedOk && (p.railOk &&& coreRails) == coreRails && !p.seqHold && !p.tripHold && !p.tempHold
    && !p.scanHold

/-- The tide counter and the place in the tide derived from TB0 and the epoch's start (R84). -/
def State.deriveTide (s : State) : State :=
  let n := ((s.time.tb0 - s.time.epochStart) / unitsSclk).toNat
  { s with time := { s.time with tide := n / tideSclk, pos := n % tideSclk } }

/-- The supervisors while the core is in reset: held, or without power (R30, R443). -/
def State.svReset (s : State) (powered : Bool) : State :=
  let st := fun (feed : Bool) => if feed && powered then SvState.standby else SvState.off
  let s := s.dropFirmware
  { s with sup := { s.sup with
      sv0 := st s.pwr.feedA, sv1 := st s.pwr.feedB, unsupStart := none, limitMet := false, haltDue := false
      takeoverDue := false, failCause := none, qualFailover := false, gates := [] } }

/-- Core and heap state lost (R16, R17): every register of the core's pages, the units, the stores, the links but for their
own `SESSION`, the endpoint and the rings. `heap` says that the heap's contents stay until R223 clears them. -/
def State.coreLost (s : State) (heap : Bool) : State :=
  { s with
    regs := s.regs.filter fun e => aonPage (keyPage e.1)
    fab := { commits := s.fab.commits.filter fun c => c.set == .tb0Step }
    sched := { prevLen := s.sched.prevLen, prevNum := s.sched.prevNum }
    heap := if heap then s.heap.contents else {}
    xbar := { rom := s.xbar.rom }
    links := { link := (s.links.link.map fun e => (e.1, ({ session := e.2.session } : Link))).filter fun e => e.2 ≠ linkDflt e.1 }
    dma := {}, pcie := {}, mesh := {}, net := {}, slu := {}, pans := {}, sal := {}, pins := {}
    cmds := { s.cmds with chan := [], restored := false }
    test := { tap := s.test.tap }
    time := { s.time with havePrev := false, prevMt := 0, rI := 0, lastOut := 0 } }

/-- The core put in reset (R33, R34, R37, R39). -/
def State.coreReset (s : State) (standby : Bool) : State :=
  let s := (s.coreLost !standby).svReset !standby
  s.setPwr fun p => { p with coreUp := false, coreReady := false, rows := 0, dry := 0, dryStop := false, req := .none }

/-- The state once the host port has applied what was posted, before a reset of the core that waits for it (R78). -/
def State.drained (s : State) : State := if s.pwr.coreUp then s.drainPosted else s

/-- The `SESSION` of each link at a core start (R164). -/
def State.sessionsNext (s : State) : State :=
  (List.range 256).foldl (fun s q => s.setLk q { s.lk q with session := (((s.lk q).session + 1) % 32768) }) s

/-- Tamper conditions that persist at a start-up, and one latched in `STANDBY` (R469, R470). -/
def State.wakeTamper (s : State) : State :=
  let s := if s.tam.pendingWake then s.enterHold else s
  [3, 4].foldl (fun s k => if bit s.tmpStat k then s.tamper k else s) s

/-- The core leaves reset (R33, R82, R84, R164, R444, R450): one supervisor boots. -/
def State.coreStart (s : State) : State :=
  let first := if s.pwr.feedA then 0 else 1
  let s := s.setPwr fun p => { p with coreUp := true, coreReady := false, state := .boot, cause := p.lastStop
                                      standbyReady := false }
  let s := s.svReset true
  let s := s.setSv first .starting
  let s1 : State := { s with sup := { s.sup with bootKind := .coreStart, unsupStart := some s.time.total } }
  s1.deriveTide.sessionsNext.wakeTamper

/-- The core started if it may run now and does not. -/
def State.coreEval (s : State) : State := if s.coreMayRun ∧ s.pwr.coreUp = false then s.coreStart else s

/-- A core-rail order violation by a set of rails (R32). -/
def State.violation (s : State) (rails : BitVec 8) : State :=
  let s := if s.pwr.coreUp then s.coreReset false else s
  let s := s.wr R.PWR_FAULT 0 (s.rd R.PWR_FAULT ||| word (at_ 8 rails.toNat))
  let s := s.setPwr fun p => { p with seqHold := true, state := .held, lastStop := 6 }
  s.report 0x08 0 0x02 s.pwrStat (s.rd R.PWR_FAULT)

/-- Whether the device checks the rails' order (R32). -/
def State.checking (s : State) : Bool := s.pwr.porN && s.feedOk && !s.pwr.seqHold

/-- A rail is qualified. -/
def Power.ok (p : Power) (r : Rail) : Bool := p.railOk.getLsbD r.bit

/-- Whether a rail's step of R31 permits its start now. -/
def State.mayRise (s : State) (r : Rail) : Bool :=
  let p := s.pwr
  match r with
  | .vana => true
  | .vio => true
  | .vcore => p.ok .vana
  | .vsram => p.ok .vana
  | .vhbmq => p.ok .vcore && p.ok .vsram && p.ok .vhbmc
  | _ => p.ok .vcore && p.ok .vsram

/-- A rail's bit as a mask. -/
def railMask (r : Rail) : BitVec 8 := BitVec.ofNat 8 (2 ^ r.bit)

/-- POR_N heeded once a feed is qualified (R33): checking begins, and the rails of steps 3 and 4 that are up by then have
started early (R32). -/
def State.heedPor (s : State) : State :=
  if s.pwr.porPin ∧ s.pwr.porN = false ∧ s.feedOk = true then
    let s := s.setPwr fun p => { p with porN := true }
    let early := s.pwr.started &&& 0x7E#8
    if early ≠ 0 then s.violation early else s
  else s

/-- The feed that the always-on domain draws through (R29). -/
def State.steer (s : State) : State :=
  match s.pwr.feedA, s.pwr.feedB with
  | true, true =>
    let (i, s) := s.fresh
    s.setPwr fun p => { p with load := some (if Config.feedHigher i then .a else .b) }
  | true, false => s.setPwr fun p => { p with load := some .a }
  | false, true => s.setPwr fun p => { p with load := some .b }
  | false, false => s.setPwr fun p => { p with load := none }

/-- What the reset of the always-on domain keeps of the machine: NVM and OTP, the ROM, what the pins and the board show, the
model's own fields (R33, R34). `por` says that POR_N did it, with the supplies as they were; else both feeds were lost. -/
def State.aonReset (s : State) (por : Bool) : State :=
  let p := s.pwr
  let pw : Power := if por then
      { feedA := p.feedA, feedB := p.feedB, load := p.load, started := p.started, warmN := p.warmN, perstN := p.perstN
        junction := p.junction, state := .boot, lastStop := 1 }
    else { porPin := p.porPin, warmN := p.warmN, perstN := p.perstN, junction := p.junction, state := .off }
  { regs := [], pwr := pw, nv := { nvm := s.nv.nvm, otp := s.nv.otp }, sup := { romVer := s.sup.romVer }
    xbar := { rom := s.xbar.rom }, heap := if por then s.heap.contents else {}
    sent := s.sent, free := s.free, pending := s.pending }

/-- Both feeds lost (R34, R78): everything but NVM and OTP. -/
def State.allLost (s : State) : State := s.aonReset false

/-- An island whose feed has qualified (R444): its supervisor takes over where none is to act, or makes a qualifying
boot. -/
def State.islandUp (s : State) (i : Nat) : State :=
  if s.sv i ≠ .off then s
  else if s.pwr.coreUp = false then (if s.pwr.state = .standby then s else s.setSv i .standby)
  else if s.svRole.isNone ∧ s.sup.takeoverDue = false then
    let s := s.setSv i .standby
    { s with sup := { s.sup with takeoverDue := true, bootKind := .takeover } }
  else s.setSv i .qualifying

/-- An island whose feed is lost (R30, R446). -/
def State.islandDown (s : State) (i : Nat) : State :=
  if s.sv i = .active ∨ s.sv i = .starting then s.failNote 2
  else
    let s := s.setSv i .off
    let other := s.sv (1 - i) == .standby
    { s with sup := { s.sup with takeoverDue := s.sup.takeoverDue && other } }

/-- The number of a feed's island. -/
def feedNum : Feed → Nat
  | .a => 0
  | .b => 1

/-- FEED_QUALIFIED (R29, R33, R444). -/
def State.feedUp (s : State) (f : Feed) : State :=
  let s := s.setPwr fun p => match f with
    | .a => { p with feedA := true }
    | .b => { p with feedB := true }
  let s := if s.pwr.state = .off then s.setPwr fun p => { p with state := .boot } else s
  (s.steer.heedPor.islandUp (feedNum f)).coreEval

/-- FEED_DISQUALIFIED (R29, R34, R446). -/
def State.feedDown (s : State) (f : Feed) : State :=
  let s := s.setPwr fun p => match f with
    | .a => { p with feedA := false }
    | .b => { p with feedB := false }
  if s.feedOk then (s.steer.report 0x08 0 0x01 s.pwrStat 0).islandDown (feedNum f) else s.allLost

/-- Whether a feed is qualified. -/
def State.feedIs (s : State) (f : Feed) : Bool :=
  match f with
  | .a => s.pwr.feedA
  | .b => s.pwr.feedB

/-- A rail started (R31, R32). -/
def State.railUp (s : State) (r : Rail) : State :=
  let s := s.setPwr fun p => { p with started := p.started ||| railMask r }
  if s.checking ∧ s.mayRise r = false then s.violation (railMask r) else s

/-- VANA back after its loss (R408): the root PLL goes on from XO, a new epoch opens without a step. -/
def State.vanaBack (s : State) : State :=
  let s1 : State := { s with time := { s.time with coarse := false } }
  let s2 := match s1.candidate with
    | some k =>
      let (i, s) := s1.fresh
      s.switchTo k 2 (Config.restartPhase i)
    | none => s1
  (s2.openEpoch s2.time.tb0 (nextEpoch s2.time.epoch)).tb0Eval

/-- A rail qualified (R31, R32, R408): VIO at any time, the others only while the order is checked. -/
def State.railGood (s : State) (r : Rail) : State :=
  if s.pwr.started.getLsbD r.bit ∧ (s.checking = true ∨ (r = .vio ∧ s.pwr.porN = true)) then
    let s := s.setPwr fun p => { p with railOk := p.railOk ||| railMask r }
    (if r = .vana ∧ s.time.coarse = true then s.vanaBack else s).coreEval
  else s

/-- VANA lost (R34, R408): the always-on domain runs on its own oscillator, the core is reset as after a rail loss. -/
def State.vanaDown (s : State) : State :=
  let up := s.pwr.coreUp
  let s := if up then s.coreReset false else s
  let s := s.setPwr fun p => { p with railOk := p.railOk &&& ~~~(railMask .vana)
                                      lastStop := if up then 3 else p.lastStop
                                      state := if up then .boot else p.state }
  let s1 : State := { s with time := { s.time with coarse := true, src := 15, ctrl := s.ctrlBase } }
  (s1.setPll .lost).tb0Eval

/-- The step-3 pair's rails that are not qualified. -/
def Power.lateRails (p : Power) : BitVec 8 := 0x06#8 &&& ~~~p.railOk

/-- The sequence hold released once every rail of steps 2 to 4 is down (R32). -/
def State.seqRelease (s : State) : State :=
  let s := if s.pwr.ok .vana then s.vanaDown else s
  s.setPwr fun p => { p with seqHold := false, state := .boot, lastStop := 6, started := p.started &&& 0x80#8
                             railOk := p.railOk &&& 0x80#8 }

/-- POR_N asserted (R33). -/
def State.porDown (s : State) : State := if s.pwr.state = .off then s.setPwr fun p => { p with porPin := false } else s.aonReset true

/-- POR_N released (R33). -/
def State.porUp (s : State) : State := ((s.setPwr fun p => { p with porPin := true }).heedPor).coreEval

/-- The power state while the core is held by WARM_N or the TAP. -/
def Power.warmState (p : Power) : PowerState :=
  match p.state with
  | .standby => .standby
  | .off => .off
  | _ => if p.seqHold || p.tripHold || p.tempHold then .held else .boot

/-- The cause that a reset by WARM_N or the TAP leaves (R82): a hold's own cause outlasts it. -/
def Power.warmCause (p : Power) : Nat := if p.tripHold then 4 else if p.seqHold || p.tempHold || p.state == .standby then p.lastStop else 2

/-- WARM_N asserted at a junction reading, posted writes applied (R33, R39, R78). -/
def State.warmDown (s : State) (t : BitVec 8) : State :=
  let s := if s.pwr.coreUp then s.coreReset false else s
  s.setPwr fun p =>
    let p := { p with warmN := false, junction := t, lastStop := p.warmCause
                      tripHold := p.tripHold && !decide (t.toInt < 100) }
    { p with state := p.warmState }

/-- PERST_N asserted, posted writes applied (R33, R78, R380): only the endpoint is reset. -/
def State.perstDown (s : State) : State :=
  let s := s.failOutbound
  ({ s with pcie := {} } : State).setPwr fun p => { p with perstN := false }

/-- A core, lane or heap rail lost while the core is out of reset (R34); after `STANDBY_READY` the rails' removal is the
entry to `STANDBY` (R35, R37). -/
def State.railDown (s : State) (r : Rail) : State :=
  let p := s.pwr
  let low := fun (p : Power) => { p with railOk := p.railOk &&& ~~~(railMask r) }
  if p.coreUp ∧ p.standbyReady then
    (s.coreReset true).setPwr fun p => { low p with state := .standby, lastStop := 5, started := p.started &&& ~~~(railMask r) }
  else if p.coreUp then
    let s := (s.coreReset false).setPwr fun p => { low p with state := .boot, lastStop := 3 }
    let s := s.wr R.PWR_FAULT 0 (s.rd R.PWR_FAULT ||| word (railMask r).toNat)
    s.report 0x08 0 0x02 s.pwrStat (s.rd R.PWR_FAULT)
  else s.setPwr fun p => if p.state = .standby then { low p with started := p.started &&& ~~~(railMask r) } else low p

/-- Whether a reading lies more than 10 °C from a slice's `TEMP_TAG` (R477). -/
def State.tagFar (s : State) (t : Int) (k : Nat) : Bool := decide (10 < (t - sfld (s.rd R.SLICE 0 k) 63 56).natAbs)

/-- Whether a reading makes the salinometer's frozen coefficients stale (R477). -/
def State.calFar (s : State) (t : Int) : Bool :=
  s.enabled 0x5B && s.rdf R.SAL_XCFG 0 1 0 == 1 && (List.range 4).any (s.tagFar t)

/-- A junction reading (R39, R477). -/
def State.reading (s : State) (t : BitVec 8) : State :=
  let s1 := s.setPwr fun p => { p with junction := t }
  if s.calFar t.toInt then (s1.wrb R.CAL_STAT 0 1 true).raise 0x5B 5 else s1

/-- A reading reported under a class (R39, R504). -/
def State.tempReport (s : State) (cls : Nat) (t : BitVec 8) : State := s.report 0x08 0 cls s.pwrStat (wordI t.toInt)

/-- A thermal trip (R39, R78). -/
def State.trip (s : State) (t : BitVec 8) : State :=
  let s := (if s.pwr.coreUp then s.coreReset false else s).reading t
  let s := s.setPwr fun p => { p with tripHold := true, lastStop := 4
                                      state := if p.state = .standby then .standby else .held }
  s.tempReport 0x04 t

/-- The low-temperature hold of a core start (R39); the cause stays that of the start. -/
def State.coldHold (s : State) (t : BitVec 8) : State :=
  ((s.coreReset false).reading t).setPwr fun p => { p with tempHold := true, state := .held }

/-- The core start completed (R33, R81, R84, R223, R511): `CORE_READY`, `IDLE`, no image; the heap begins to train. -/
def State.bootDone (s : State) : State :=
  let s := s.deriveTide.setPwr fun p => { p with coreReady := true, state := .idle }
  let s := (s.raise 0 1).reloadFirst
  (List.range 8).foldl (fun s i => s.ctrlPut (0x40 + i) (setBit (s.hdr (0x40 + i) hCtrl) 0)) s

/-- A scan instruction that holds the core, entered with posted writes applied (R78, R519). -/
def State.scanDown (s : State) : State :=
  let s := if s.pwr.coreUp then s.coreReset false else s
  s.setPwr fun p => { p with scanHold := true, lastStop := p.warmCause, state := p.warmState }

/-- Those instructions left. -/
def State.scanUp (s : State) : State := (s.setPwr fun p => { p with scanHold := false }).coreEval

-- Power states by command (R27, R35 to R37).

/-- The first tide whose boundary lies at least 16 µs ahead (R35). -/
def State.runTide (s : State) : Nat := if s.time.pos + 24000 ≤ tideSclk then s.time.tide + 1 else s.time.tide + 2

/-- Whether a committed or pending swap, or the running image, uses the pans (R36). -/
def State.pansWanted (s : State) : Bool :=
  s.image.any imgPans || (match s.sched.pend with
    | some a => !a.halt && imgPans (s.storeMem a.store)
    | none => false)
  || (s.armCommitted && !s.rdb R.ARM_CTRL 0 1 && imgPans (s.storeMem (s.rdf R.ARM_CTRL 0 8 8)))

/-- Step 3 of R37, once the data path has halted: a checkpoint due. Step 2 goes before its start. -/
def State.standbyStep (s : State) : State :=
  if s.pwr.req = .toStandby ∧ s.sched.run.isNone then
    { s with sup := { s.sup with ckptDue := some 3 }, bitt := { s.bitt with sumDue := true } }
  else s

/-- A checkpoint asked for by step 3 of R37 is written. -/
def State.standbySaved (s : State) : Bool := s.sup.ckptDue != some 3 && s.sup.ckptWriting != some 3

end Sys2Proof.Machine
end

