-- ==== Sys2Proof/Machine/PowerRows.lean ====
section
/-! DEFINITION. The commands of supplies, resets, power states, temperature and output pins (spec/02). -/

namespace Sys2Proof.Machine

/-- FEED_QUALIFIED (R29, R33, R444). -/
def execFeedQualified (f : Feed) (s : State) : Host.Outcome State Fault Refusal :=
  done s (if s.feedIs f then s else s.feedUp f)

/-- FEED_DISQUALIFIED (R29, R34, R446). -/
def execFeedDisqualified (f : Feed) (s : State) : Host.Outcome State Fault Refusal :=
  done s (if s.feedIs f then s.feedDown f else s)

/-- RAIL_START (R31, R32). -/
def execRailStart (r : Rail) (s : State) : Host.Outcome State Fault Refusal :=
  done s (if s.feedOk then s.railUp r else s.setPwr fun p => { p with started := p.started ||| railMask r })

/-- RAIL_QUALIFIED (R31, R32, R408). -/
def execRailQualified (r : Rail) (s : State) : Host.Outcome State Fault Refusal :=
  done s (if s.pwr.ok r then s else s.railGood r)

/-- STEP3_QUAL_TIMEOUT (R32): the pair has begun to rise and is not qualified. -/
def execStep3QualTimeout (s : State) : Host.Outcome State Fault Refusal :=
  done s (if s.checking ∧ s.pwr.started &&& 0x06#8 ≠ 0 ∧ s.pwr.lateRails ≠ 0 then s.violation s.pwr.lateRails else s)

/-- SEQ_HOLD_RELEASE (R32). -/
def execSeqHoldRelease (s : State) : Host.Outcome State Fault Refusal :=
  done s (if s.pwr.seqHold then s.seqRelease else s)

/-- POR_N_ASSERT (R33). -/
def execPorNAssert (s : State) : Host.Outcome State Fault Refusal := done s s.porDown

/-- POR_N_RELEASE (R32, R33). -/
def execPorNRelease (s : State) : Host.Outcome State Fault Refusal := done s s.porUp

/-- WARM_N_ASSERT (R33, R39, R78), at a junction reading. -/
def execWarmNAssert (t : BitVec 8) (s : State) : Host.Outcome State Fault Refusal :=
  if s.pwr.warmN then done s.drained (s.drained.warmDown t) else done s s

/-- WARM_N_RELEASE (R33). -/
def execWarmNRelease (s : State) : Host.Outcome State Fault Refusal :=
  done s (s.setPwr fun p => { p with warmN := true }).coreEval

/-- PERST_N_ASSERT (R33, R78). -/
def execPerstNAssert (s : State) : Host.Outcome State Fault Refusal :=
  if s.pwr.perstN then done s.drainPosted s.drainPosted.perstDown else done s s

/-- PERST_N_RELEASE (R33). -/
def execPerstNRelease (s : State) : Host.Outcome State Fault Refusal :=
  done s (s.setPwr fun p => { p with perstN := true })

/-- BOOT_COMPLETE (R33, R81, R84). -/
def execBootComplete (s : State) : Host.Outcome State Fault Refusal :=
  done s (if s.pwr.coreUp ∧ s.pwr.coreReady = false then s.bootDone else s)

/-- CORE_RAIL_LOSS (R34, R37): of a qualified core, lane or heap rail. -/
def execCoreRailLoss (r : Rail) (s : State) : Host.Outcome State Fault Refusal :=
  done s (if r ≠ .vana ∧ r ≠ .vio ∧ s.pwr.ok r = true then s.railDown r else s)

/-- VANA_LOSS (R34, R408). -/
def execVanaLoss (s : State) : Host.Outcome State Fault Refusal := done s (if s.pwr.ok .vana then s.vanaDown else s)

/-- VANA_RESTORE (R408): VANA qualifies again, which the order of R31 permits at any time. -/
def execVanaRestore (s : State) : Host.Outcome State Fault Refusal :=
  done s (if s.time.coarse ∧ s.checking = true then
    ((s.setPwr fun p => { p with started := p.started ||| railMask .vana, railOk := p.railOk ||| railMask .vana }).vanaBack).coreEval
    else s)

/-- VAON_BOTH_LOST (R34, R35). -/
def execVaonBothLost (s : State) : Host.Outcome State Fault Refusal :=
  done s (if s.pwr.state = .off then s else s.allLost)

/-- RUN_ENTRY (R27, R35): at the boundary that the command's time fixed, with every pan row ungated. -/
def execRunEntry (s : State) : Host.Outcome State Fault Refusal :=
  done s (match s.pwr.req with
    | .toRun t =>
      if s.atBoundary ∧ t ≤ s.time.tide ∧ s.pwr.state = .idle ∧ s.pwr.rows = 16 then
        s.setPwr fun p => { p with state := .run, req := .none }
      else s
    | _ => s)

/-- PAN_ROW_UNGATE (R27): rows in order, one each 1 µs, on the way from `IDLE` to `RUN`. -/
def execPanRowUngate (s : State) : Host.Outcome State Fault Refusal :=
  done s (match s.pwr.req with
    | .toRun _ =>
      if s.pwr.rows < 16 ∧ s.pwr.rowAt + 1500 ≤ s.time.total then
        s.setPwr fun p => { p with rows := p.rows + 1, rowAt := p.rowAt + 1500 }
      else s
    | _ => s)

/-- IDLE_ENTRY (R35). -/
def execIdleEntry (s : State) : Host.Outcome State Fault Refusal :=
  done s (if s.pwr.req = .toIdle ∧ s.atBoundary = true then
    s.setPwr fun p => { p with state := .idle, req := .none, rows := 0 } else s)

/-- STANDBY_READY (R37): the data path halted, posted writes drained, the checkpoint written; the supervisor sets it. -/
def execStandbyReady (s : State) : Host.Outcome State Fault Refusal :=
  done s (if s.pwr.req = .toStandby ∧ s.sched.run.isNone ∧ s.standbySaved = true ∧ s.supervised = true then
    s.setPwr fun p => { p with standbyReady := true, req := .none } else s)

/-- The swap that starts an image with pans at the next boundary, with no image running (R28). -/
def State.dryStart (s : State) : Bool :=
  s.sched.run.isNone && s.sched.pend.any fun a => !a.halt && a.tide == s.time.tide + 1 && imgPans (s.storeMem a.store)

/-- DRY_MODE_ROW_START (R28): pan row r, 1,500 × r SCLK after the boundary. -/
def execDryModeRowStart (r : Fin 16) (s : State) : Host.Outcome State Fault Refusal :=
  done s (if s.dryStart then
    (s.pass (1500 * r.val - s.time.pos)).setPwr fun p => { p with dry := p.dry ||| BitVec.ofNat 16 (2 ^ r.val) }
    else s)

/-- DRY_MODE_ROW_STOP (R28): pan row r of a halted image, 1,500 × (r + 1) SCLK after the boundary. -/
def execDryModeRowStop (r : Fin 16) (s : State) : Host.Outcome State Fault Refusal :=
  done s (if s.sched.run.isNone ∧ s.dryStart = false then
    (s.pass (1500 * (r.val + 1) - s.time.pos)).setPwr fun p =>
      let d := p.dry &&& ~~~(BitVec.ofNat 16 (2 ^ r.val))
      { p with dry := d, dryStop := p.dryStop && d != 0 }
    else s)

/-- TEMP_WARNING (R39). -/
def execTempWarning (t : BitVec 8) (s : State) : Host.Outcome State Fault Refusal :=
  done s (if 100 ≤ t.toInt ∧ s.pwr.state ≠ .off then (s.reading t).tempReport 0x03 t else s)

/-- TEMP_OUT_OF_RANGE (R39, R468): above 105 °C a report and tamper source 4; below -40 °C tamper source 4 alone. -/
def execTempOutOfRange (t : BitVec 8) (s : State) : Host.Outcome State Fault Refusal :=
  done s (if s.pwr.state = .off then s
    else if 105 < t.toInt then ((s.reading t).tempReport 0x03 t).tamper 4
    else if t.toInt < -40 then (s.reading t).tamper 4
    else s)

/-- THERMAL_TRIP (R39, R78). -/
def execThermalTrip (t : BitVec 8) (s : State) : Host.Outcome State Fault Refusal :=
  done s (if 120 ≤ t.toInt ∧ s.pwr.state ≠ .off then s.trip t else s)

/-- LOW_TEMP_HOLD (R39): at a core start. -/
def execLowTempHold (t : BitVec 8) (s : State) : Host.Outcome State Fault Refusal :=
  done s (if t.toInt < -10 ∧ s.pwr.coreUp = true ∧ s.pwr.coreReady = false then s.coldHold t else s)

/-- LOW_TEMP_RELEASE (R39). -/
def execLowTempRelease (t : BitVec 8) (s : State) : Host.Outcome State Fault Refusal :=
  done s (if s.pwr.tempHold ∧ -10 ≤ t.toInt then
    ((s.reading t).setPwr fun p => { p with tempHold := false, state := .boot }).coreEval
    else s)

-- Output pins (R44 to R47).

/-- A pin event recorded in `PIN_LAST_EVT`: kind, first pin, second pin, whether more were involved (R49). -/
def State.pinEvent (s : State) (kind a b : Nat) (multi : Bool) : State :=
  s.wr R.PIN_LAST_EVT 0 (word (at_ 32 (s.time.tide % 2 ^ 32) + at_ 24 (b2n multi) + at_ 16 b + at_ 8 a + kind))

/-- A pin that hardware disables (R44, R46): its `PIN_OE` bit clears, and the RCLK is held for R47. -/
def State.pinOff (s : State) (p : Nat) : State :=
  let s := s.wrb R.PIN_OE 0 p false
  { s with pins := { s.pins with offAt := pset s.pins.offAt p (some s.rclk) } }

/-- PIN_OVERCURRENT_DISABLE (R44). -/
def execPinOvercurrentDisable (p : Fin 18) (s : State) : Host.Outcome State Fault Refusal :=
  done s (if bit s.pinOn p then
    let s := (s.pinOff p).wrb R.PIN_FAULT 0 p true
    let s1 : State := { s with pins := { s.pins with waits := pset s.pins.waits p (some s.time.total) } }
    (s1.pinEvent 1 p 0xFF false).raise 0x5C 0
    else s)

/-- The delay of R45 has passed since the over-current disable of a pin that waits for its retry. -/
def State.retryDue (s : State) (p : Nat) : Bool :=
  match pget s.pins.waits p with
  | some t => decide (t + 1500000 * 2 ^ s.rdf R.PIN_RETRY 0 7 4 ≤ s.time.total)
  | none => false

/-- PIN_RETRY_REENABLE (R45, R62): in retry mode, while retries are left. -/
def execPinRetryReenable (p : Fin 18) (s : State) : Host.Outcome State Fault Refusal :=
  let n := mget (fun _ => 0) s.pins.retries p
  done s (if s.enabled 0x5C ∧ s.rdb R.PIN_RETRY 0 0 ∧ s.retryDue p ∧ n < s.rdf R.PIN_RETRY 0 15 12 then
    let s1 : State := { s with pins := { s.pins with retries := mset (fun _ => 0) s.pins.retries p (n + 1)
                                                     waits := pset s.pins.waits p none } }
    (s1.wrb R.PIN_OE 0 p true).pinEvent 3 p 0xFF false
    else s)

/-- PIN_CONTENTION (R46): the enabled outputs among those whose mismatches overlap, if they drive opposite values. -/
def execPinContention (ps : List (Fin 18)) (s : State) : Host.Outcome State Fault Refusal :=
  let on := onesOf 18 ((ps.foldl (fun w p => setBit w p) 0) &&& s.pinOn).toNat
  let high := on.filter fun p => bit s.pinDrive p
  done s (match on with
    | a :: b :: rest =>
      if high.isEmpty ∨ high.length = on.length then s
      else
        let s := on.foldl (fun s p => (s.pinOff p).wrb R.PIN_FAULT 0 (32 + p) true) s
        (s.pinEvent 2 a b (!rest.isEmpty)).raise 0x5C 1
    | _ => s)

/-- PIN_MISMATCH (R46). -/
def execPinMismatch (p : Fin 18) (s : State) : Host.Outcome State Fault Refusal :=
  done s (if bit s.pinOn p then (s.pinEvent 4 p 0xFF false).raise 0x5C 2 else s)

end Sys2Proof.Machine
end

