-- ==== Sys2Proof/Machine/TideRows.lean ====
section
/-! DEFINITION. The tide boundary and what the schedule engine does at it (spec/01 R13, spec/04), image stores, epochs. -/

namespace Sys2Proof.Machine

/-- The tide that ends, run to its last SCLK. -/
def State.tideEnd (s : State) : State := s.pass (tideSclk - 1 - s.time.pos)

/-- `PC_BYTES` held against the bytes that a pseudo-channel moved in the tide (R135, R138). -/
def State.budgetCheck (s : State) : State :=
  let late := match s.image with
    | some m => (List.range 512).filter fun j => decide (budPcBytes m j < (s.pc j).bytes)
    | none => []
  let s := late.foldl (fun s j => s.breach R.BR_BUDGET 2 j) s
  { s with heap := { s.heap with pch := mmap pchDflt (fun p => { p with bytes := 0 }) s.heap.pch } }

/-- Whether a pseudo-channel becomes due for re-centring (R226). -/
def State.becomesDue (s : State) (j : Nat) : Bool :=
  let h := j / 2
  let p := s.pc j
  let gap := fun (a b : Int) => (a - b).natAbs
  (s.ctl h).state == .ready && !s.rdb R.HC_XCFG h 0
    && (decide (s.rdf R.HC_CFG h 23 16 < gap (s.loadMark j) p.actTag)
      || decide (s.rdf R.HC_CFG h 7 0 ≤ gap (s.stackTemp h).toInt p.tempTag.toInt))

/-- Pseudo-channels that become due at the boundary (R226). -/
def State.recentreDue (s : State) : State :=
  (List.range 512).foldl (fun s j => if s.becomesDue j then s.setPc j { s.pc j with rcDue := true } else s) s

/-- Whether the view has met the `PRIMARY` condition throughout the last 2 ms (R495). -/
def State.viewHeld (s : State) : Bool :=
  match s.mesh.viewSince with
  | some t => decide (t + 3000000 ≤ s.time.total)
  | none => false

/-- The role of R495 at a boundary, by the view just before it. -/
def State.roleNow (s : State) : Role :=
  if s.meshZ = 0 then .standalone
  else if s.enabled 0x5D = false ∨ s.isAligned = false ∨ s.mesh.adoptPend = true then .joining
  else if s.primaryView then
    (if s.mesh.role = .primary ∨ s.viewHeld = true then .primary else if s.mesh.role = .minority then .minority else .joining)
  else .minority

/-- The withdrawal of a close that the demotion overtakes (R496). -/
def State.demote (s : State) : State :=
  let s1 : State := { s with time := { s.time with armPend := false }
                             mesh := { s.mesh with auth := false }
                             fab := { s.fab with commits := s.fab.commits.filter fun c => c.set ≠ .tb0Step } }
  s1.wr R.STEP_CTRL 0 (clrBit (s1.rd R.STEP_CTRL 0) 0)

/-- Whether an adoption is pending (R498): the member could otherwise be `PRIMARY`, and its epoch is not the reference. -/
def State.adoptionDue (s : State) : Bool :=
  s.meshZ != 0 && s.enabled 0x5D && s.isAligned && s.primaryView && s.refEpoch != (s.time.epoch, s.time.epochStart)

/-- Roles evaluated (R495, R496, R498). -/
def State.roleEval (s : State) : State :=
  let s1 : State := { s with mesh := { s.mesh with adoptPend := s.adoptionDue } }
  let v := s1.roleNow
  let s2 := if s.mesh.role = .primary ∧ v ≠ .primary then s1.demote else s1
  s2.setRole v

/-- The tide counter steps on, and what each boundary does by itself: image time, commits' waits, stress tides, tides
without a supervisor, SYNC_OUT (R13, R84, R143, R494). -/
def State.tideStep (s : State) : State :=
  let t := s.time
  let s1 : State := { s.advance 1 with
    sched := { s.sched with age := s.sched.age + 1 }
    fab := { s.fab with commits := s.fab.commits.map fun c => { c with wait := c.wait - 1 } }
    cmds := { s.cmds with dark := if s.supervised then s.cmds.dark else s.cmds.dark + 1 } }
  let s2 : State := { s1 with time := { s1.time with tide := t.tide + 1, pos := 0 } }
  let s3 := if s2.sched.stress then s2.count R.STRESS_TIDES 0 else s2
  (if s3.rdb R.MESH_CFG 0 0 ∧ s3.time.tide % 15 = 0 then s3.pinEmit 16 .syncOut else s3).unitsNow

/-- TIDE_BOUNDARY (R84, R135, R226, R495): the first SCLK of the next tide. -/
def execTideBoundary (s : State) : Host.Outcome State Fault Refusal :=
  done s (if s.pwr.coreUp then s.unsupCheck.tideEnd.budgetCheck.roleEval.tideStep.recentreDue.tamperArm.romRearm else s)

/-- SHADOW_SET_ADOPTION (R13). -/
def execShadowSetAdoption (s : State) : Host.Outcome State Fault Refusal :=
  done s (if s.atBoundary then s.adoptAll else s)

/-- LOAD_CHECK_DONE (R100, R102): `DURATION` as the device measured it. -/
def execLoadCheckDone (us : BitVec 16) (s : State) : Host.Outcome State Fault Refusal := done s (s.loadDone us.toNat)

/-- STORE_WINDOW_WRITE (R104, R357, R363): a normal-world master's write reaches the store if the firewall lets it. -/
def execStoreWindowWrite (master : Fin 9) (store : Fin 2) (off : Nat) (data : List Byte) (s : State) :
    Host.Outcome State Fault Refusal :=
  let a := 0x008004000000 + 0x1000000 * store.val + off
  done s (if off + data.length ≤ 0x1000000 ∧ data ≠ [] ∧ s.pwr.coreUp = true then
    match s.fwRefusal master false true a data.length with
    | some (cause, rule) => s.fwDenied master true false cause rule a
    | none =>
      match s.storeWrite store off data with
      | (s1, true) => s1
      | (s1, false) => s1.decodeError master true false a
    else s)

/-- ARM_WITHDRAWAL (R106): a cancel takes effect at its boundary. -/
def execArmWithdrawal (s : State) : Host.Outcome State Fault Refusal :=
  done s (if s.atBoundary ∧ s.sched.cancel = true then
    if s.sched.pend.isSome then s.dropPend.swapResult 5 0
    else if s.fab.commits.any (fun c => c.set == .arm && c.wait == 0) then s.dropCommit.swapResult 5 0
    else s
    else s)

/-- A swap at its boundary, by the conditions of R107. -/
def State.swapDue (s : State) (a : Arm) : State :=
  if s.supervised = false then s.dropPend.swapResult 7 0
  else if s.mesh.role = .minority ∨ s.mesh.role = .joining then s.dropPend.swapResult 8 0
  else s.swapNow a

/-- SWAP (R107, R109 to R113, R496). -/
def execSwap (s : State) : Host.Outcome State Fault Refusal :=
  done s (match s.sched.pend with
    | some a =>
      if s.atBoundary ∧ a.halt = false ∧ a.tide = s.time.tide ∧ s.sched.cancel = false ∧ s.epochDue = false then s.swapDue a
      else s
    | none => s)

/-- The halt of the always-on domain (R108, R450). -/
def State.limitHalt (s : State) : State :=
  let s1 : State := { s with sup := { s.sup with haltDue := false } }
  let s2 := s1.unsupHalt.raise 0x08 2
  s2.report 0x08 0 0x09 s2.unsupStat (s2.rd R.SWAP_STAT)

/-- DATA_PATH_HALT (R37, R108, R111): at the unsupervised limit, by step 1 of R37, or at an armed halt's tide. -/
def execDataPathHalt (s : State) : Host.Outcome State Fault Refusal :=
  done s (if s.atBoundary = false then s
    else if s.sup.haltDue then s.limitHalt
    else if s.sched.standbyHalt then
      let s1 : State := { s with sched := { s.sched with standbyHalt := false } }
      (s1.haltNow 3).standbyStep
    else match s.sched.pend with
      | some a => if a.halt ∧ a.tide = s.time.tide ∧ s.sched.cancel = false then s.dropPend.haltNow 2 else s
      | none => s)

/-- A pending swap that names a closed epoch (R85). -/
def State.dropOldEpoch (s : State) : State :=
  match s.sched.pend with
  | some a => if a.halt ∨ a.epoch = s.time.epoch then s else s.dropPend.swapResult 6 0
  | none => s

/-- EPOCH_OPEN (R84, R85, R400). -/
def execEpochOpen (s : State) : Host.Outcome State Fault Refusal :=
  done s (if s.atBoundary ∧ s.epochDue = true then
    let s1 := (s.openEpoch s.stepStart (nextEpoch s.time.epoch)).dropOldEpoch
    { s1 with mesh := { s1.mesh with auth := s1.mesh.role == .primary } }
    else s)

/-- EPOCH_ADOPTION (R498): at a boundary at which the reference epoch's tide number is a multiple of 15. -/
def execEpochAdoption (s : State) : Host.Outcome State Fault Refusal :=
  let (num, start) := s.refEpoch
  let tide := s.refTide start
  done s (if s.atBoundary ∧ s.mesh.adoptPend = true ∧ s.viewHeld = true ∧ tide % 15 = 0 then
    let s1 := (s.openEpoch start num).dropOldEpoch
    let s2 : State := { s1 with time := { s1.time with tide := tide, tb0 := start + tide * (unitsSclk * tideSclk) }
                                pwr := { s1.pwr with req := s1.pwr.req.shift tide }
                                mesh := { s1.mesh with adoptPend := false } }
    (s2.raise 0x5D 2).setRole s2.roleNow
    else s)

end Sys2Proof.Machine
end

