-- ==== Sys2Proof/Machine/TimeRows.lean ====
section
/-! DEFINITION. The events of references, of the root PLL and of the time bases (spec/14). -/

namespace Sys2Proof.Machine

/-- Whether the always-on domain runs: POR_N high, a feed qualified (R16, R33). -/
def State.aonUp (s : State) : Bool := s.pwr.porN && s.feedOk

/-- Time passes to a count of SCLK since AON start, if it has not passed. -/
def State.waitTo (s : State) (t : Nat) : State := s.pass (t - s.time.total)

/-- One SCLK passes with no command waiting: every time base counts and the row sums that reach their last pan are taken;
while the always-on domain is down nothing counts (DESIGN CHOICE, notes/assumptions/2.md). -/
def State.idleSclk (s : State) : State := if s.aonUp then (s.pass 1).romRearm else s

/-- Whether a source can be present by what the device itself knows (R386): a brine source while its link is up in brine
mode, PTP while TB1 tracks in client mode. -/
def State.srcPresent (s : State) (k : Nat) : Bool :=
  if k = 4 then s.lkUp 0 else if k = 5 then s.lkUp 1
  else if k = 6 then s.time.tb1St == .tracking && !s.tb1Master
  else true

/-- SOURCE_QUALIFIED (R387, R388): present for its qualification time. -/
def execSourceQualified (k : Fin 7) (s : State) : Host.Outcome State Fault Refusal :=
  done s (if s.aonUp ∧ s.srcSt k = .qualifying ∧ s.srcPresent k = true ∧ s.srcSince k + qualTime k ≤ s.time.total then
    (s.setSrcSt k (if s.time.everDisq.getLsbD k ∧ s.rd R.WTR ≠ 0 then .restoring else .eligible)).raise 0x02 0
    else s)

/-- SOURCE_DISQUALIFIED (R387): a source ceases to be present. -/
def execSourceDisqualified (k : Fin 7) (s : State) : Host.Outcome State Fault Refusal :=
  done s (if s.aonUp ∧ s.srcSt k ≠ .disabled then s.disqualify k .absent else s)

/-- A source measured over 100 ms, in 10^-9 of nominal (R387): outside 10 ppm it qualifies anew; the first good window of a source that was
absent is the first 100 ms of its qualification. -/
def State.freqTake (s : State) (k : Nat) (ppb : Int) : State :=
  match s.srcSt k with
  | .disabled => s
  | .absent =>
    if ppb.natAbs ≤ 10000 ∧ s.srcPresent k = true then
      let s1 := s.setSrcSt k .qualifying
      { s1 with time := { s1.time with srcAt := mset (fun _ => 0) s1.time.srcAt k (s1.time.total - sclkSec / 10) } }
    else s
  | _ => if ppb.natAbs ≤ 10000 then s else s.disqualify k .qualifying

/-- FREQ_WINDOW (R387): the measurements of the sources present, from source 0 on. -/
def execFreqWindow (ppb : List Int) (s : State) : Host.Outcome State Fault Refusal :=
  done s (if s.aonUp then (List.range (min 7 ppb.length)).foldl (fun s k => s.freqTake k (ppb.getD k 0)) s else s)

/-- SOURCE_ELIGIBLE (R388): `WTR` seconds after it requalified. -/
def execSourceEligible (k : Fin 7) (s : State) : Host.Outcome State Fault Refusal :=
  done s (if s.aonUp ∧ s.srcSt k = .restoring ∧ s.srcSince k + fld (s.rd R.WTR) 11 0 * sclkSec ≤ s.time.total then s.setSrcSt k .eligible else s)

/-- REF_SELECTION (R390, R391, R393, R396): `theta` is the phase in ps that the device measures if it switches. -/
def execRefSelection (theta : Int) (s : State) : Host.Outcome State Fault Refusal :=
  done s (if s.aonUp ∧ s.time.coarse = false then s.select theta else s)

/-- The comparison of XO with the internal oscillator (R389, R468). -/
def State.xoTake (s : State) (bad : Bool) : State :=
  let rise := bad && !s.time.xoBad
  let s1 : State := { s with time := { s.time with xoBad := bad } }
  if rise then ((s1.raise 0x01 2).refReport 0x01).tamper 3 else s1

/-- XO_CHECK (R389): the difference in ppm; beyond 5 % it is bad. -/
def execXoCheck (ppm : Int) (s : State) : Host.Outcome State Fault Refusal :=
  done s (if s.aonUp then s.xoTake (decide (50000 < ppm.natAbs)) else s)

/-- A loop bandwidth in mHz (R392). -/
def bandMilli (code : Nat) : Nat :=
  [1, 2, 5, 10, 20, 50, 100, 200, 500, 1000, 2000, 5000, 10000, 20000, 50000, 100000, 200000, 500000, 1000000, 2000000,
   4000000].getD code 4000000

/-- The time for which the phase error must stay within 500 ps, in SCLK (R393): the longer of 100 ms and 5 periods of the bandwidth in
force. -/
def State.lockTime (s : State) : Nat := max (sclkSec / 10) (5000 * sclkSec / bandMilli s.bwEff)

/-- PLL_LOCK (R393): the lock criterion, which takes its time from the entry to `ACQUIRING` at the least. -/
def execPllLock (s : State) : Host.Outcome State Fault Refusal :=
  done s (if s.time.pll = .acquiring ∧ s.time.acqAt + s.lockTime ≤ s.time.total then s.setPll .locked else s)

/-- PLL_UNLOCK (R393): the source is still qualified. -/
def execPllUnlock (s : State) : Host.Outcome State Fault Refusal :=
  done s (if s.time.pll = .locked ∧ s.srcQual s.time.src = true then s.setPll .acquiring else s)

/-- HOLDOVER_LIMIT (R393). -/
def execHoldoverLimit (s : State) : Host.Outcome State Fault Refusal :=
  let n := s.rdf R.HO_CFG 0 63 32
  done s (if s.time.pll = .holdover ∧ n ≠ 0 then (s.waitTo (s.time.hoStart + n * sclkSec)).setPll .lost else s)

/-- HOLDOVER_SECOND (R394): the next second of TB2 ends, with the mean of its control values. -/
def execHoldoverSecond (mean : Int) (s : State) : Host.Outcome State Fault Refusal :=
  done s (if s.aonUp then
    let k := match s.time.hist with
      | h :: _ => h.sec + 1
      | [] => s.tb2Sec
    let s := s.waitTo ((k + 1) * sclkSec)
    let h : HoSecond := { sec := k, h := clampI (-2 ^ 30) (2 ^ 30) mean, locked := s.time.lockedAll }
    { s with time := { s.time with hist := (h :: s.time.hist).take 4200, lockedAll := s.time.pll == .locked } }
    else s)

/-- RCLK that the network phase still needs to its target (R397). -/
def State.slewLeft (s : State) : Nat :=
  let d := (s.time.netTarget * 1000000 - s.time.netPhase).natAbs
  let step := 4 * (s.rd R.NET_SLOPE).toNat
  (d + step - 1) / step

/-- NET_SLEW_DONE (R397). -/
def execNetSlewDone (s : State) : Host.Outcome State Fault Refusal :=
  done s (if s.time.slewing then
    let s := s.pass (6 * s.slewLeft)
    let s1 : State := { s with time := { s.time with slewing := false } }
    s1.raise 0x01 3
    else s)

/-- TB_MASTER_EDGE (R401). -/
def execTbMasterEdge (s : State) : Host.Outcome State Fault Refusal := done s (if s.aonUp then s.masterEdge else s)

/-- TB_MASTER_LOST (R401): no edge for 3 s. -/
def execTbMasterLost (s : State) : Host.Outcome State Fault Refusal :=
  done s (if s.aonUp ∧ s.tb0Master ≠ 0 ∧ s.time.edgeAt + 3 * sclkSec ≤ s.time.total then
    let s1 : State := { s with time := { s.time with masterLost := true } }
    s1.tb0Eval
    else s)

/-- PTP_SAMPLE_TIMEOUT (R404): no sample accepted for `SMP_TMO` seconds. -/
def execPtpSampleTimeout (s : State) : Host.Outcome State Fault Refusal :=
  done s (if s.time.tb1St = .tracking ∧ s.tb1Master = false
    ∧ s.time.sampleAt + s.rdf R.SRV_CFG 0 39 32 * sclkSec ≤ s.time.total then s.setTb1 .holdover else s)

/-- The level that the function behind PPS_OUT gives, set; the pin shows it while it drives (R25, R47). -/
def State.ppsSet (s : State) (v : Bool) : State :=
  let s1 : State := { s with time := { s.time with ppsLevel := v } }
  s1.pinEmit 17 (.ppsOut v)

/-- The second that PPS_OUT follows: of the time base that `PPS_TB` names, for TB0, TB2 and TB3 displaced by the network phase (R407). -/
def State.ppsSecond (s : State) (tb : Nat) : Int :=
  let d : Int := if tb = 1 then 0 else s.time.netPhase * 3 * 2 ^ 46
  (s.tbTime tb + d) / (1000000000 * unitsNs)

/-- PPS_OUT_EDGE (R407): a second boundary of the time base named, at which the configuration takes effect, or the fall
`WIDTH` after it. -/
def execPpsOutEdge (rise : Bool) (s : State) : Host.Outcome State Fault Refusal :=
  done s (if s.aonUp = false then s
    else if rise then
      let cfg := s.rd R.PPS_OUT_CFG
      let tb := fld cfg 3 2
      let now := some (tb, s.ppsSecond tb)
      if s.time.ppsSec = now then s
      else
        let s1 : State := { s with time := { s.time with ppsCfg := cfg, ppsSec := now, ppsAt := s.time.total } }
        if bit cfg 0 then s1.ppsSet true else s1
    else if s.time.ppsLevel ∧ s.time.ppsAt + 1500 * fld s.time.ppsCfg 31 12 ≤ s.time.total then s.ppsSet false else s)

end Sys2Proof.Machine
end

