-- ==== Sys2Proof/Machine/CmdTable.lean ====
section
/-! DEFINITION. The Yelmel commands as their tables state them (spec/15 R417, R425, R429, R431, R434 to R440): opcode,
rights, gates, the form of the arguments, what a command holds, and its duration bound. -/

namespace Sys2Proof.Machine

/-- The commands of R434 to R440. -/
inductive Yel where
  | nop | devInfo | status | timeRead | sessionOpen | sessionAuth | sessionClose | notifySet
  | pwrRun | pwrIdle | pwrStandby | imageLoad | imageArm | imageHalt | imageCancel | imageClear
  | timeStepArm | refSelect | tb3Set
  | delayModels | gains | window | weightSel | destTable
  | heapRetrain | linkRetrain | panPreempt | panResume | checkpoint
  | updateBegin | updateChunk | updateEnd | updateActivate | updateConfirm | updateStatus | updateAbort
  | fwRules | sigPolicy | opkeySet | keyRevoke | tamperCfg
  deriving DecidableEq, Repr

/-- The rights column (R425, R426). -/
inductive Rights where
  | none | session | expert | time | security | update
  deriving DecidableEq, Repr

/-- One row of the command tables: opcode, command, rights, gates S, U and R, bound in µs. -/
structure YelRow where
  op : Nat
  cmd : Yel
  rights : Rights := .session
  gates : Bool × Bool × Bool := (false, false, true)
  bound : Nat
  deriving DecidableEq, Repr

/-- Gate columns: none, S U R, U R, S R. -/
def noGate : Bool × Bool × Bool := (false, false, false)
/-- Gates S, U and R. -/
def gateSUR : Bool × Bool × Bool := (true, true, true)
/-- Gates U and R. -/
def gateUR : Bool × Bool × Bool := (false, true, true)
/-- Gates S and R. -/
def gateSR : Bool × Bool × Bool := (true, false, true)

/-- The tables of R434 to R440. -/
def yelTable : List YelRow :=
  [{ op := 0x0000, cmd := .nop, rights := .none, gates := noGate, bound := 1000 },
   { op := 0x0001, cmd := .devInfo, rights := .none, gates := noGate, bound := 1000 },
   { op := 0x0002, cmd := .status, rights := .none, gates := noGate, bound := 1000 },
   { op := 0x0003, cmd := .timeRead, rights := .none, gates := noGate, bound := 1000 },
   { op := 0x0010, cmd := .sessionOpen, rights := .none, gates := noGate, bound := 10000 },
   { op := 0x0011, cmd := .sessionAuth, rights := .none, gates := noGate, bound := 50000 },
   { op := 0x0012, cmd := .sessionClose, gates := noGate, bound := 1000 },
   { op := 0x0013, cmd := .notifySet, gates := noGate, bound := 1000 },
   { op := 0x0100, cmd := .pwrRun, bound := 2000 },
   { op := 0x0101, cmd := .pwrIdle, bound := 2000 },
   { op := 0x0102, cmd := .pwrStandby, gates := gateSUR, bound := 1100000 },
   { op := 0x0200, cmd := .imageLoad, bound := 250000 },
   { op := 0x0201, cmd := .imageArm, gates := gateSUR, bound := 1000 },
   { op := 0x0202, cmd := .imageHalt, gates := gateSUR, bound := 1000 },
   { op := 0x0203, cmd := .imageCancel, bound := 1000 },
   { op := 0x0204, cmd := .imageClear, bound := 1000 }]
  ++ [{ op := 0x0300, cmd := .timeStepArm, rights := .time, gates := gateSUR, bound := 1000 },
   { op := 0x0301, cmd := .refSelect, rights := .time, bound := 1000 },
   { op := 0x0302, cmd := .tb3Set, gates := noGate, bound := 1000 },
   { op := 0x0400, cmd := .delayModels, bound := 3000 },
   { op := 0x0401, cmd := .gains, bound := 3000 },
   { op := 0x0402, cmd := .window, bound := 5000 },
   { op := 0x0403, cmd := .weightSel, bound := 2000 },
   { op := 0x0404, cmd := .destTable, bound := 2000 },
   { op := 0x0500, cmd := .heapRetrain, bound := 700000 },
   { op := 0x0501, cmd := .linkRetrain, bound := 20000 },
   { op := 0x0502, cmd := .panPreempt, rights := .expert, gates := gateSR, bound := 2000 },
   { op := 0x0503, cmd := .panResume, rights := .expert, gates := gateSR, bound := 2000 },
   { op := 0x0504, cmd := .checkpoint, bound := 1100000 }]
  ++ [{ op := 0x0600, cmd := .updateBegin, rights := .update, gates := gateSUR, bound := 2000000 },
   { op := 0x0601, cmd := .updateChunk, rights := .update, gates := gateUR, bound := 500000 },
   { op := 0x0602, cmd := .updateEnd, rights := .update, gates := gateUR, bound := 200000 },
   { op := 0x0603, cmd := .updateActivate, rights := .update, gates := gateSUR, bound := 50000 },
   { op := 0x0604, cmd := .updateConfirm, rights := .update, bound := 100000 },
   { op := 0x0605, cmd := .updateStatus, gates := noGate, bound := 1000 },
   { op := 0x0606, cmd := .updateAbort, rights := .update, gates := gateUR, bound := 10000 },
   { op := 0x0700, cmd := .fwRules, rights := .security, bound := 5000 },
   { op := 0x0701, cmd := .sigPolicy, rights := .security, gates := gateSR, bound := 100000 },
   { op := 0x0702, cmd := .opkeySet, rights := .security, bound := 200000 },
   { op := 0x0703, cmd := .keyRevoke, rights := .security, gates := gateSUR, bound := 200000 },
   { op := 0x0704, cmd := .tamperCfg, rights := .security, bound := 1000 }]

/-- The row of an opcode; none for an opcode that is not defined (R413, R441). -/
def yelRow (op : Nat) : Option YelRow := yelTable.find? fun r => r.op == op

-- The fields of a command's words (R417).

/-- `A0` to `A5`. -/
def CmdRun.arg (r : CmdRun) (i : Nat) : Word := r.words.getD (2 + i) 0
/-- `FORM` is expert. -/
def CmdRun.expert (r : CmdRun) : Bool := bit (r.words.getD 0 0) 32
/-- `TAG`. -/
def CmdRun.tag (r : CmdRun) : Nat := fld (r.words.getD 0 0) 31 0
/-- `SESSION`. -/
def CmdRun.sess (r : CmdRun) : Nat := fld (r.words.getD 1 0) 63 32
/-- The row of the command. -/
def CmdRun.row (r : CmdRun) : Option YelRow := yelRow r.opcode
/-- The 64 bytes of the entry. -/
def CmdRun.bytes (r : CmdRun) : List Byte := wordsBytes r.words

/-- Whether a word has a bit outside a mask. -/
def wide (w : Word) (mask : Nat) : Bool := w &&& ~~~(word mask) != 0

/-- Whether a word is no address of an argument buffer (R418). -/
def badBuf (w : Word) : Bool := wide w 0x0000FFFFFFFFFFC0

/-- Whether a length lies outside a range or is no multiple of 64. -/
def badLen (w : Word) (hi : Nat) : Bool := outside w.toNat 64 hi || w.toNat % 64 != 0

/-- Whether the argument fields of a command break their widths or ranges, or expert fields are set in basic form (R417,
R418, R429 check 2); C is the channel count of the running image, if one runs. -/
def CmdRun.badArgs (r : CmdRun) (c : Option Nat) : Yel → Bool
  | .timeRead => wide (r.arg 0) 3
  | .sessionOpen => wide (r.arg 0) 0xFF0F
  | .sessionAuth => badBuf (r.arg 0) || r.arg 1 != 96
  | .notifySet => wide (r.arg 0) 0x3FF
  | .imageLoad => badBuf (r.arg 0) || wide (r.arg 1) 0x100 || badLen (r.arg 2) 16777216
  | .imageArm => wide (r.arg 1) (if r.expert then 0xFFFFFFFF00000300 else 0xFFFFFFFF00000100)
  | .imageHalt => wide (r.arg 1) 0xFFFFFFFF00000000
  | .imageClear => wide (r.arg 0) 0x100
  | .timeStepArm => wide (r.arg 0) 6
  | .refSelect => wide (r.arg 0) 0xF3 || wide (r.arg 2) 0x1F
    || (!r.expert && [1, 2, 3, 4].any fun i => r.arg i != 0)
  | .tb3Set => !r.expert && r.arg 2 != 0
  | .delayModels => badBuf (r.arg 0) || wide (r.arg 1) 0x1FFF || outside (r.arg 1).toNat 1 4096
    || (r.arg 2).toNat != 64 * (r.arg 1).toNat
  | .gains => badBuf (r.arg 0) || wide (r.arg 1) 0xFF0F || wide (r.arg 2) 0x1FFF0FFF || outside (fld (r.arg 2) 28 16) 1 4096
  | .window => wide (r.arg 1) 0x1FF || (!bit (r.arg 1) 8 && (badBuf (r.arg 0) || some (r.arg 2).toNat != c.map (32 * ·)))
  | .weightSel => wide (r.arg 0) 1
  | .destTable => badBuf (r.arg 0) || wide (r.arg 1) 0x7F3F || outside (fld (r.arg 1) 14 8) 1 64
  | .heapRetrain => wide (r.arg 0) 0xFF
  | .linkRetrain => wide (r.arg 0) 0xFF
  | .panPreempt => wide (r.arg 0) 0xFF
  | .panResume => wide (r.arg 0) 0xFF || wide (r.arg 2) 0xFFF
  | .updateBegin => badLen (r.arg 0) 4194304 || wide (r.arg 1) 0xFFFFFFFF
  | .updateChunk => badBuf (r.arg 0) || badLen (r.arg 1) 65536 || wide (r.arg 2) 0xFFFFFFFF
  | .updateEnd => wide (r.arg 0) 0xFFFFFFFF
  | .fwRules => badBuf (r.arg 0) || wide (r.arg 1) 0x300003F3F || outside (fld (r.arg 1) 13 8) 1 32
    || decide (32 < fld (r.arg 1) 5 0 + fld (r.arg 1) 13 8)
  | .sigPolicy => wide (r.arg 0) 1
  | .opkeySet => badBuf (r.arg 0) || wide (r.arg 1) 0xFF
  | .keyRevoke => wide (r.arg 0) 7
  | _ => false

/-- Check 2 of R429. -/
def CmdRun.badForm (r : CmdRun) (row : YelRow) (c : Option Nat) : Bool :=
  wide (r.words.getD 0 0) 0xFFFF0001FFFFFFFF || wide (r.words.getD 1 0) 0xFFFFFFFF00000000
    || (row.rights == .expert && !r.expert) || r.badArgs c row.cmd

/-- What commands hold while they run (R420). -/
inductive Held where
  | schedArm | store (i : Nat) | updateSlot | pan (p : Nat) | heapCtl (h : Nat) | quad (q : Nat) | ckptWriter
  deriving DecidableEq, Repr

/-- What a command holds. -/
def CmdRun.holds (r : CmdRun) : Yel → List Held
  | .imageLoad => [.store (fld (r.arg 1) 8 8)]
  | .imageArm => [.schedArm, .store (fld (r.arg 1) 8 8)]
  | .imageHalt => [.schedArm]
  | .imageCancel => [.schedArm]
  | .imageClear => [.store (fld (r.arg 0) 8 8)]
  | .heapRetrain => [.heapCtl (fld (r.arg 0) 7 0)]
  | .linkRetrain => [.quad (fld (r.arg 0) 7 0)]
  | .panPreempt => [.pan (fld (r.arg 0) 7 0)]
  | .panResume => [.pan (fld (r.arg 0) 7 0)]
  | .checkpoint => [.ckptWriter]
  | .pwrStandby => [.schedArm, .ckptWriter]
  | .updateBegin => [.updateSlot]
  | .updateChunk => [.updateSlot]
  | .updateEnd => [.updateSlot]
  | .updateActivate => [.updateSlot]
  | .updateConfirm => [.updateSlot]
  | .updateAbort => [.updateSlot]
  | _ => []

/-- Commands that tamper-hold still serves (R470). -/
def Yel.inHold : Yel → Bool
  | .nop => true
  | .devInfo => true
  | .status => true
  | .timeRead => true
  | .updateStatus => true
  | _ => false

/-- Commands that change configuration, after which a checkpoint is written (R432, R452). -/
def Yel.changes : Yel → Bool
  | .notifySet => true
  | .refSelect => true
  | .tb3Set => true
  | .delayModels => true
  | .gains => true
  | .window => true
  | .weightSel => true
  | .destTable => true
  | .updateBegin => true
  | .updateEnd => true
  | .updateActivate => true
  | .updateConfirm => true
  | .updateAbort => true
  | .fwRules => true
  | .sigPolicy => true
  | .opkeySet => true
  | .keyRevoke => true
  | .tamperCfg => true
  | _ => false

end Sys2Proof.Machine
end

