-- ==== Sys2Proof/Machine/CmdFirm.lean ====
section
/-! DEFINITION. How the firmware takes, checks, carries out and answers commands (spec/15 R413 to R433). -/

namespace Sys2Proof.Machine

-- Reads through the crossbar (R363, R414, R418).

/-- The active supervisor's master number (R359). -/
def State.fwMaster (s : State) : Nat := b2n (s.sup.sv1 == .active)

/-- A part of what the host's memory answered. -/
def hostPart (host : Option (List Byte)) (ofs n : Nat) : Option (List Byte) :=
  host.bind fun bs => if ofs + n ≤ bs.length then some ((bs.drop ofs).take n) else none

/-- What a place of the map answers to the firmware's read of `n` bytes at its offset `o` (R53, R113, R357, R358, R380, R500). -/
def State.placeRead (s : State) (p : Place357) (a o n ofs : Nat) (host : Option (List Byte)) : State × Option (List Byte) :=
  match p with
  | .heap =>
    let parts := heapParts a n [] (n + 1)
    if parts.all s.canQueue ∧ !(parts.any fun x => s.bridgeRefuses (hCtl x.addr)) then (s, some (s.heapBytesAt a n))
    else ((parts.filter fun x => !s.serves (hCtl x.addr)).foldl (fun s x => s.count R.POISON_OUT (hCtl x.addr)) s, none)
  | .rom => (s, some (s.xbar.rom.bytes o n))
  | .sram => (s, some (s.xbar.sram.bytes o n))
  | .nvm => (s, some (s.nv.nvm.bytes o n))
  | .store i => (s, some ((s.storeMem i).bytes o n))
  | .aonSram => (s, some (bytesFrom s.aonByte o n))
  | .staging => (s.fresh.2, some (bytesFrom (fun k => Config.stagingByte (s.fresh.1 + k)) 0 n))
  | .regs =>
    let r := (regParts o n (n + 1)).foldl (fun (acc : State × List Byte) p =>
      let (v, x) := acc.1.read { hostAccess p.1 p.2 [] with agent := .normal }
      (x, acc.2 ++ leBytes p.2 v.toNat)) (s, [])
    (r.1, some r.2)
  | .host => (s, if s.pcieMaster then hostPart host ofs n else none)
  | .mesh k =>
    if s.meshZ ≠ 0 ∧ k = s.meshSelf then (s.decodeError s.fwMaster false false a, none)
    else if bit s.partMask k then (s, hostPart host ofs n)
    else (s.countf R.MESH_ERR 0 47 32, none)

/-- One transaction of a firmware read, past the address map and the firewall. -/
def State.fwRead1 (s : State) (a n ofs : Nat) (host : Option (List Byte)) : State × Option (List Byte) :=
  let m := s.fwMaster
  let a := s.mapAddr m a
  match rowOfRange a n with
  | none => (s.decodeError m false false a, none)
  | some row =>
    match s.fwRefusal m false false a n with
    | some (cause, rule) => (s.fwDenied m false false cause rule a, none)
    | none => s.placeRead row.2.2 a (a - row.1) n ofs host

/-- A firmware read of `len` bytes, in transactions within 4 KiB; `host` answers for what lies outside the device. -/
def State.fwFetch (s : State) (a len : Nat) (host : Option (List Byte)) : State × Option (List Byte) :=
  (bursts a len (len + 1) 0).foldl (fun (acc : State × Option (List Byte)) b =>
    match acc.2 with
    | none => acc
    | some got =>
      match acc.1.fwRead1 (a + b.1) b.2 b.1 host with
      | (s1, some bs) => (s1, some (got ++ bs))
      | (s1, none) => (s1, none)) (s, some [])

-- Register writes (R414, R423).

/-- One register write asked for by the firmware: agent, register, unit, index, value. -/
structure FwWrite where
  a : Agent := .normal
  r : Reg
  u : Nat := 0
  k : Nat := 0
  v : Word

/-- The record of a rejected firmware write (R71). -/
def FwWrite.reject (w : FwWrite) (c : Code) : Reject :=
  { agent := w.a.code, page := w.r.page + w.u / w.r.banks, bank := w.u % w.r.banks, off := w.r.off + w.k * w.r.stride
    code := c }

/-- A register write by the firmware: its effect, or the rejection; a group's member is held, its head puts the group in
effect (R56). -/
def State.fwWrite (s : State) (w : FwWrite) : State × Option Reject :=
  let page := w.r.page + w.u / w.r.banks
  let off := w.r.off + w.k * w.r.stride
  match firstCode (s.reasons w.a page w.r w.u w.k w.v ++ (if w.r.grp = 0 then [] else s.groupReasons w.a w.r w.v)) with
  | some c => (s, some (w.reject c))
  | none =>
    if w.r.mem ≠ 0 then
      ({ s with fab := { s.fab with held := pset s.fab.held (regKey (1 + w.a.code) page 0 off) (some w.v) } }, none)
    else
      let s := if w.r.grp = 0 then s.put w.a w.r w.u w.k w.v else (s.groupPut w.a w.r w.k w.v).dropHeld w.a page off w.r.grp
      (if w.r = R.XB_MAP ∨ w.r = R.FW_CTRL ∨ w.r = R.FW_RULE_A then s.fwChange else s, none)

/-- Register writes in order, as far as the first rejection. -/
def State.fwWrites (s : State) : List FwWrite → State × Option Reject
  | [] => (s, none)
  | w :: ws =>
    match s.fwWrite w with
    | (s1, none) => s1.fwWrites ws
    | r => r

/-- The outcome of a step of a command: tried again later, in force with the result awaited, or ended with a status and
results. -/
inductive Verdict where
  | later
  | begun
  | ended (code : Nat) (rs : List Word)

/-- A state and what became of the command. -/
abbrev Answer := State × Verdict

/-- A command that succeeds. -/
def State.answer (s : State) (rs : List Word) : Answer := (s, .ended 0 rs)
/-- A command that ends with a code. -/
def State.refuse (s : State) (c : Code) (rs : List Word := []) : Answer := (s, .ended c.num rs)

/-- A command that ends by a rejected register write: `R0` is `LAST_REJECT` (R423). -/
def State.rejected (s : State) (r : Reject) (rest : List Word := []) : Answer :=
  let s := s.recordRejects [r]
  (s, .ended r.code.num (s.rd R.LAST_REJECT :: rest))

/-- Register writes of a shadow set, then `k`: what was written before a rejection stays (R423). -/
def State.viaRegs (s : State) (ws : List FwWrite) (k : State → Answer) : Answer :=
  match s.fwWrites ws with
  | (s1, none) => k s1
  | (s1, some r) => s1.rejected r

/-- Register writes of working settings, then `k`: a rejection leaves every one unchanged (R423). -/
def State.viaAll (s : State) (ws : List FwWrite) (k : State → Answer) : Answer :=
  match s.fwWrites ws with
  | (s1, none) => k s1
  | (_, some r) => s.rejected r

/-- The argument buffer read (R418), then `k`. -/
def State.viaBuffer (s : State) (a : Word) (len : Nat) (host : Option (List Byte)) (k : List Byte → State → Answer) :
    Answer :=
  match s.fwFetch (fld a 47 0) len host with
  | (s1, some bs) => k bs s1
  | (s1, none) => s1.refuse .buffer

-- Checkpoints asked for, restarts.

/-- How a checkpoint's cause ranks when several are due at once. -/
def ckptRank (c : Nat) : Nat := [0, 0, 1, 3, 2].getD c 0

/-- A checkpoint due for a cause (R452); none in tamper-hold (R470). -/
def State.ckptAsk (s : State) (c : Nat) : State :=
  if s.tam.hold then s
  else
    let d := match s.sup.ckptDue with
      | some x => if ckptRank x < ckptRank c then c else x
      | none => c
    { s with sup := { s.sup with ckptDue := some d } }

/-- A management restart with its cause (R441, R447). -/
def State.restartFor (s : State) (cause : Nat) : State :=
  let s1 : State := { s with sup := { s.sup with restartCause := cause } }
  s1.svRestart

-- Posting (R416, R419, R421, R432).

/-- A channel's session ended, with a notification for causes 1 to 3 (R427, R441). -/
def State.endSession (s : State) (c cause : Nat) : State :=
  let s1 : State := { s with cmds := { s.cmds with session := pset s.cmds.session c none } }
  if cause = 0 then s1 else s1.notify 0x8007 [word cause]

/-- A result posted if the event ring has space, and the full ring counted once (R353); on a channel that is no longer enabled it is
discarded (R421). -/
def State.tryPost (s : State) (c : Nat) : State :=
  match (s.cchan c).run with
  | none => s
  | some r =>
    match r.result with
    | none => s
    | some (code, rs) =>
      if s.cqOn c = false then ((s.headPast r).setCchan c { s.cchan c with run := none }).endSession c 0
      else if s.cqRoom c then
        let us := (s.time.total - r.taken) / 1500
        let s := s.cqPost c code 1 r.opcode r.tag (s.sessionId c) r.idx us r.replayed rs
        let s := (s.cqCount c 63 32).headPast r
        let s := s.setCchan c { s.cchan c with run := none }
        if r.opcode = 0x0603 ∧ code = 0 ∧ s.updState = 3 then s.restartFor 1 else s
      else if s.cqFull c ∧ !r.full then
        (s.setCchan c { s.cchan c with run := some { r with full := true } }).ringFull (s.cqEvt c)
      else s

/-- A command's entry in the journal, with its result once it has one (R432). -/
def State.journal (s : State) (c : Nat) (r : CmdRun) : State :=
  let j : Journal := { idx := r.idx, tag := r.tag, opcode := r.opcode, digest := leBytes 48 (sha384 r.bytes), result := r.result }
  { s with cmds := { s.cmds with journal := pset s.cmds.journal c (some j) } }

/-- A command ended (R432, R452): the result in the journal, a checkpoint where configuration changed, then the post. -/
def State.endCmd (s : State) (c : Nat) (r : CmdRun) (code : Nat) (rs : List Word) : State :=
  let r := { r with begun := true, result := some (code, rs) }
  let s := s.setCchan c { s.cchan c with run := some r }
  let s := match r.row with
    | some row =>
      let s := if row.rights = Rights.none then s else s.journal c r
      if row.cmd.changes ∧ code = 0 then s.ckptAsk 2 else s
    | none => s
  s.tryPost c

/-- A step of the command that a channel runs, if it is the command named and has no result yet: `start` before its effect
is in force, `wait` after; tamper-hold ends what it does not serve (R470). -/
def State.runCmd (s : State) (c : Nat) (cmd : Yel) (start wait : CmdRun → State → Answer) : State :=
  match (s.cchan c).run with
  | none => s
  | some r =>
    if r.row.map (·.cmd) = some cmd ∧ r.result = none ∧ s.supervised = true then
      match (if s.tam.hold ∧ cmd.inHold = false then s.refuse .tamper else if r.begun then wait r s else start r s) with
      | (s1, .later) => s1
      | (s1, .begun) =>
        match (s1.cchan c).run with
        | some r1 => s1.setCchan c { s1.cchan c with run := some { r1 with begun := true } }
        | none => s1
      | (s1, .ended code rs) => s1.endCmd c ((s1.cchan c).run.getD r) code rs
    else s

/-- A number kept for a command's wait. -/
def State.setMark (s : State) (c : Nat) (n : Nat) : State :=
  match (s.cchan c).run with
  | some r => s.setCchan c { s.cchan c with run := some { r with mark := n } }
  | none => s

/-- A command that never waits. -/
def noWait (_ : CmdRun) (s : State) : Answer := (s, .later)

-- Take-up (R416, R429, R433).

/-- The authenticated session that a command names on its channel (R426). -/
def State.cmdSession (s : State) (c : Nat) (r : CmdRun) : Option Session :=
  (pget s.cmds.session c).filter fun x => x.auth && x.id == r.sess

/-- Whether the session grants a right. -/
def State.hasRight (s : State) (c : Nat) (r : CmdRun) (b : Nat) : Bool :=
  match s.cmdSession c r with
  | some x => x.rights.testBit b
  | none => false

/-- Whether the right that a row of the tables asks for is missing (checks 3 and 4). -/
def State.lacksRight (s : State) (c : Nat) (r : CmdRun) : Rights → Bool
  | .none => false
  | .session => (s.cmdSession c r).isNone
  | .expert => (s.cmdSession c r).isNone
  | .time => !s.hasRight c r 1
  | .security => !s.hasRight c r 2
  | .update => !s.hasRight c r 3

/-- Whether another channel's command holds something that a command needs (R420). -/
def State.heldElsewhere (s : State) (c : Nat) (hs : List Held) : Bool :=
  (List.range 16).any fun j => j != c && (match (s.cchan j).run with
    | some r => r.result.isNone && (match r.row with
      | some row => (r.holds row.cmd).any fun h => hs.contains h
      | none => false)
    | none => false)

/-- Whether a gate of R431 applies. -/
def State.gated (s : State) (g : Bool × Bool × Bool) : Bool :=
  (g.1 && s.swapGate) || (g.2.1 && s.updGate) || (g.2.2 && s.sup.recovery)

/-- Checks 1 to 6 of R429, with tamper-hold's refusal (R470). -/
def State.preCheck (s : State) (c : Nat) (r : CmdRun) : Option Code :=
  match r.row with
  | none => some .opcode
  | some row =>
    if s.tam.hold ∧ row.cmd.inHold = false then some .tamper
    else if r.badForm row (s.image.map fun _ => s.chanC) then some .args
    else if s.lacksRight c r row.rights then some .auth
    else if r.expert ∧ s.hasRight c r 0 = false then some .expert
    else if s.gated row.gates ∨ s.heldElsewhere c (r.holds row.cmd) = true then some .busy
    else none

/-- Whether a channel can take the entry at `HEAD` (R415, R416, R433). -/
def State.canTake (s : State) (c : Nat) : Bool :=
  let g := s.ring (s.cqCmd c)
  s.supervised && s.cqOn c && (s.cchan c).run.isNone && g.on && occupancy g.tail g.head != 0
    && (!(s.cchan c).replay || s.sup.ready)

/-- Whether the firmware looks at a channel's entry without waiting for a doorbell or the next 10 ms (R416). -/
def State.wants (s : State) (c : Nat) : Bool := s.canTake c && !(s.cchan c).unseen

/-- Whether a channel's turn has come (R420): none after the one served last, in ascending order, has an entry to take before it. -/
def State.turnOf (s : State) (c : Nat) : Bool :=
  (List.range ((c + 15 - s.cmds.last) % 16)).all fun i => !s.wants ((s.cmds.last + 1 + i) % 16)

/-- Whether the firmware takes a channel's entry next (R416, R420). -/
def State.mayTake (s : State) (c : Nat) : Bool := s.wants c && s.turnOf c

/-- Whether the firmware reads an entry again whose read has failed (R416). -/
def State.mayRetry (s : State) (c : Nat) : Bool := s.canTake c && (s.cchan c).unseen

/-- A channel's turn used (R420). -/
def State.served16 (s : State) (c : Nat) : State := { s with cmds := { s.cmds with last := c } }

/-- The session's last command noted (R427). -/
def State.touchSession (s : State) (c : Nat) (r : CmdRun) : State :=
  match s.cmdSession c r with
  | some x => { s with cmds := { s.cmds with session := pset s.cmds.session c (some { x with last := s.time.total }) } }
  | none => s

/-- The result that the journal holds of a repeated command (R433). -/
def State.journaled (s : State) (c : Nat) (r : CmdRun) : Option (Nat × List Word) :=
  match pget s.cmds.journal c with
  | some j => if r.replayed ∧ j.idx = r.idx ∧ j.digest = leBytes 48 (sha384 r.bytes) then j.result else none
  | none => none

/-- A command taken: checked, and entered in the journal before its first change, or answered at once (R429, R432, R433). -/
def State.take (s : State) (c : Nat) (r : CmdRun) : State :=
  let s := (s.setCchan c { s.cchan c with run := some r, replay := false, unseen := false }).touchSession c r
  match s.journaled c r with
  | some (code, rs) =>
    (s.setCchan c { s.cchan c with run := some { r with begun := true, result := some (code, rs) } }).tryPost c
  | none =>
    match s.preCheck c r with
    | some code => s.endCmd c r code.num []
    | none =>
      match r.row with
      | some row => if row.rights = Rights.none then s else s.journal c r
      | none => s

/-- The entry at `HEAD` read, and its command taken; an entry whose read fails is not yet visible (R416). -/
def State.takeUp (s : State) (c : Nat) (host : Option (List Byte)) : State :=
  let n := s.cqCmd c
  let g := s.ring n
  match s.fwFetch (g.slot g.head) 64 host with
  | (s1, some bs) =>
    (s1.served16 c).take c
      { ring := n, idx := g.head, words := bytesWords 8 bs, taken := s.time.total, replayed := (s.cchan c).replay }
  | (s1, none) => (s1.served16 c).setCchan c { s1.cchan c with unseen := true }

-- Time limits (R422, R424, R427, R428).

/-- Whether a command can wait, on hardware or for the adoption of a set. -/
def Yel.waits : Yel → Bool
  | .pwrRun => true
  | .pwrIdle => true
  | .pwrStandby => true
  | .imageLoad => true
  | .delayModels => true
  | .gains => true
  | .window => true
  | .weightSel => true
  | .destTable => true
  | .heapRetrain => true
  | .linkRetrain => true
  | .panPreempt => true
  | .panResume => true
  | .checkpoint => true
  | .updateBegin => true
  | .fwRules => true
  | _ => false

/-- The status register that a command's entry names (R422). -/
def State.cmdStatus (s : State) (r : CmdRun) : Yel → List Word
  | .pwrRun => [s.pwrStat]
  | .pwrIdle => [s.pwrStat]
  | .pwrStandby => [s.pwrStat]
  | .imageLoad => [s.rd R.LOAD_STAT]
  | .weightSel => [s.rd R.WT_STAT]
  | .heapRetrain => [s.hcStat (fld (r.arg 0) 7 0)]
  | .linkRetrain => [s.linkStat (fld (r.arg 0) 7 0)]
  | .panPreempt => [s.live .normal R.PAN_XPC (fld (r.arg 0) 7 0) 0]
  | .panResume => [s.live .normal R.PAN_XPC (fld (r.arg 0) 7 0) 0]
  | .checkpoint => [s.ckptStat]
  | .fwRules => [s.rd R.FW_GEN]
  | _ => []

/-- `Time.total` at a command's duration bound (R422); two commands count from the start of a tide that they name (R438). -/
def State.deadline (s : State) (r : CmdRun) (row : YelRow) : Nat :=
  let t := (r.arg 1).toNat
  let start := if row.cmd = .panPreempt ∨ row.cmd = .panResume then
      s.time.total + (t - s.time.tide) * tideSclk - (if s.time.tide < t then s.time.pos else 0)
    else r.taken
  start + 1500 * row.bound

/-- A command that has waited to its bound (R422). -/
def State.timeOut (s : State) (c : Nat) : State :=
  match (s.cchan c).run with
  | none => s
  | some r =>
    match r.row with
    | none => s
    | some row =>
      if row.cmd.waits ∧ r.result = none ∧ s.supervised = true then
        let s := s.waitTo (s.deadline r row)
        s.endCmd c r Code.timeout.num (s.cmdStatus r row.cmd)
      else s

/-- Whether a command of a channel's session runs. -/
def State.sessionBusy (s : State) (c : Nat) : Bool :=
  match (s.cchan c).run with
  | some r => (s.cmdSession c r).isSome
  | none => false

end Sys2Proof.Machine
end

