-- ==== Sys2Proof/Machine/CmdMain.lean ====
section
/-! DEFINITION. What the session, power, schedule, time, maintenance, update and security commands do (spec/15 R434, R435,
R437 to R440). For each command, what it does before its effect is in force, and, where it waits, what it waits for. -/

namespace Sys2Proof.Machine

-- Session, status and notification commands (R434).

/-- `NOP`. -/
def cmdNop (r : CmdRun) (s : State) : Answer := s.answer [r.arg 0]

/-- `DEV_INFO`. -/
def cmdDevInfo (_ : CmdRun) (s : State) : Answer :=
  s.answer [s.live .normal R.DEV_ID 0 0, s.live .normal R.DEV_SERIAL 0 0, s.live .normal R.CQ_FW 0 0,
    word (4 * b2n s.nv.otp.mapMode + (s.svIn .active).getD 0)]

/-- `STATUS`. -/
def cmdStatusRead (_ : CmdRun) (s : State) : Answer :=
  s.answer [s.devStatus, s.pwrStat, s.schedStat, word (at_ 32 s.time.epoch + s.time.tide % 2 ^ 32)]

/-- `TIME_READ`: one capture of a time base. -/
def cmdTimeRead (r : CmdRun) (s : State) : Answer :=
  let i := fld (r.arg 0) 1 0
  s.answer [s.live .secure R.TB_SEC i 0, s.live .secure R.TB_NS i 0, s.live .secure R.TB_STAT i 0,
    s.live .secure R.EPOCH_SEC i 0]

/-- A session identifier that is new and not 0, from the number drawn (R424). -/
def freshId (drawn : Nat) (used : List Nat) : Nat :=
  (((List.range 20).map fun i => (drawn + i) % 2 ^ 32).find? fun n => n ≠ 0 ∧ used.contains n = false).getD 1

/-- The interval of R428 in which `SESSION_OPEN` is refused. -/
def State.lockedOut (s : State) (c : Nat) : Bool :=
  match (s.cchan c).lockedAt with
  | some t => decide (s.time.total < t + 60 * sclkSec)
  | none => false

/-- `SESSION_OPEN` (R424, R428). -/
def cmdSessionOpen (c : Nat) (r : CmdRun) (s : State) : Answer :=
  if s.lockedOut c then s.refuse .auth
  else
    let s := if (pget s.cmds.session c).isSome then s.endSession c 3 else s
    let (i, s) := s.fresh
    let (ch, s) := s.drawChallenge
    let used := (s.cmds.session.map fun e => e.2.elim 0 fun x => x.id)
    let x : Session := { id := freshId (Config.sessionId i).toNat used, auth := false, rights := fld (r.arg 0) 3 0
                         key := fld (r.arg 0) 15 8, challenge := some ch, since := s.time.total, last := s.time.total }
    let s1 : State := { s with cmds := { s.cmds with session := pset s.cmds.session c (some x) } }
    s1.answer (bytesWords 4 ch)

/-- A failed `SESSION_AUTH` (R428). -/
def State.authFailed (s : State) (c : Nat) : Answer :=
  let ch := s.cchan c
  let s := s.setCchan c (if ch.fails + 1 < 5 then { ch with fails := ch.fails + 1 }
    else { ch with fails := 0, lockedAt := some s.time.total })
  let s := (s.cqCount c 31 16).raise 0x0E 1
  (s.report 0x0E 0 0x17 (s.rd R.CQ_CNT 0 c) (word c)).refuse .auth

/-- The pending session that a command names, while its challenge is valid (R424, R426). -/
def State.pendingSession (s : State) (c : Nat) (r : CmdRun) : Option (Session × List Byte) :=
  match pget s.cmds.session c with
  | some x =>
    match x.challenge with
    | some ch => if x.id = r.sess ∧ x.auth = false ∧ s.time.total ≤ x.since + 10 * sclkSec then some (x, ch) else none
    | none => none
  | none => none

/-- Whether a signature authenticates a pending session, and the rights of its key (R424, R464). -/
def State.authRights (s : State) (c : Nat) (x : Session) (ch bs : List Byte) : Option Nat :=
  match s.opKey x.key with
  | some (p, rights) => if verifies p (s.authMessage ch x.id x.rights c) bs then some rights else none
  | none => none

/-- `SESSION_AUTH` (R424, R428). -/
def cmdSessionAuth (c : Nat) (host : Option (List Byte)) (r : CmdRun) (s : State) : Answer :=
  s.viaBuffer (r.arg 0) 96 host fun bs s =>
    match s.pendingSession c r with
    | none => s.authFailed c
    | some (x, ch) =>
      let used := { x with challenge := none, last := s.time.total }
      let put := fun (x : Session) => ({ s with cmds := { s.cmds with session := pset s.cmds.session c (some x) } } : State)
      match s.authRights c x ch bs with
      | some rights =>
        let granted := x.rights &&& (rights % 16)
        let s := put { used with auth := true, rights := granted }
        (s.setCchan c { s.cchan c with fails := 0 }).answer [word granted]
      | none => (put used).authFailed c

/-- `SESSION_CLOSE` (R427). -/
def cmdSessionClose (c : Nat) (_ : CmdRun) (s : State) : Answer := (s.endSession c 0).answer []

/-- `NOTIFY_SET` (R434, R441). -/
def cmdNotifySet (c : Nat) (r : CmdRun) (s : State) : Answer :=
  s.viaAll [{ r := R.CQ_CH, k := c, v := setFld (s.cqCh c) 9 0 (fld (r.arg 0) 9 0) }] fun s => s.answer []

-- Power commands (R35 to R37, R435).

/-- `PWR_RUN`: asked for. -/
def cmdPwrRun (r : CmdRun) (s : State) : Answer :=
  match s.pwr.state, s.pwr.req with
  | .idle, .none => (s.setPwr fun p => { p with req := .toRun s.runTide, rows := 0, rowAt := s.time.total }, .begun)
  | .idle, .toRun _ => (s, .begun)
  | .run, _ => if r.replayed then s.answer [s.pwrStat] else s.refuse .state
  | _, _ => s.refuse .state

/-- `PWR_RUN`: `RUN` awaited. -/
def waitPwrRun (_ : CmdRun) (s : State) : Answer :=
  if s.pwr.state = .run then s.answer [s.pwrStat] else (s, .later)

/-- `PWR_IDLE`: asked for (R36). -/
def cmdPwrIdle (r : CmdRun) (s : State) : Answer :=
  match s.pwr.state, s.pwr.req with
  | .run, .toStandby => s.refuse .state
  | .run, .toIdle => (s, .begun)
  | .run, _ => if s.pansWanted then s.refuse .sched else (s.setPwr fun p => { p with req := .toIdle }, .begun)
  | .idle, _ => if r.replayed then s.answer [] else s.refuse .state
  | _, _ => s.refuse .state

/-- `PWR_IDLE`: the pans' gating awaited. -/
def waitPwrIdle (_ : CmdRun) (s : State) : Answer := if s.pwr.state = .idle then s.answer [] else (s, .later)

/-- `PWR_STANDBY`: the first step of R37. -/
def cmdPwrStandby (r : CmdRun) (s : State) : Answer :=
  if s.pwr.req = .toStandby ∨ s.pwr.standbyReady = true then (if r.replayed then (s, .begun) else s.refuse .state)
  else if s.pwr.state = .run ∨ s.pwr.state = .idle then
    let s := s.setPwr fun p => { p with req := .toStandby }
    let s1 : State := { s with sched := { s.sched with standbyHalt := s.sched.run.isSome } }
    (s1.standbyStep, .begun)
  else s.refuse .state

/-- `PWR_STANDBY`: `STANDBY_READY` awaited; a checkpoint that failed has withdrawn the request. -/
def waitPwrStandby (_ : CmdRun) (s : State) : Answer :=
  if s.pwr.standbyReady then s.answer [] else if s.pwr.req ≠ .toStandby then s.refuse .nvm else (s, .later)

-- Schedule commands (R435).

/-- One write of `IMAGE_LOAD` through a store's window, within 4 KiB (R104, R358, R360, R363). -/
def State.windowWrite (s : State) (i ofs : Nat) (bs : List Byte) : State × Bool :=
  let w := 0x008004000000 + 0x1000000 * i + ofs
  match s.fwRefusal s.fwMaster false true w bs.length with
  | some (cause, rule) => (s.fwDenied s.fwMaster true false cause rule w, false)
  | none =>
    match s.storeWrite i ofs bs with
    | (s1, true) => (s1, true)
    | (s1, false) => (s1.decodeError s.fwMaster true false w, false)

/-- One step of `IMAGE_LOAD`: up to 65,536 bytes of the buffer copied into the store through its window (R104, R435). -/
def State.copyStep (s : State) (a i ofs n : Nat) (host : Option (List Byte)) : State × Bool :=
  match s.fwFetch (a + ofs) n (host.map fun bs => bs.drop ofs) with
  | (s1, none) => (s1, false)
  | (s1, some bs) =>
    (bursts ofs n (n + 1) 0).foldl (fun (acc : State × Bool) b =>
      if acc.2 then acc.1.windowWrite i (ofs + b.1) ((bs.drop b.1).take b.2) else acc) (s1, true)

/-- The buffer of `IMAGE_LOAD` copied, as far as every access succeeds. -/
def State.copyImage (s : State) (a i len : Nat) (host : Option (List Byte)) : State × Bool :=
  (List.range ((len + 65535) / 65536)).foldl (fun (acc : State × Bool) k =>
    if acc.2 then acc.1.copyStep a i (65536 * k) (min 65536 (len - 65536 * k)) host else acc) (s, true)

/-- `IMAGE_LOAD`: the copy, then `LOAD_CMD.START`. -/
def cmdImageLoad (host : Option (List Byte)) (r : CmdRun) (s : State) : Answer :=
  let i := fld (r.arg 1) 8 8
  if r.replayed ∧ s.storeSt i = .checking then (s, .begun)
  else if s.storeLocked i then s.refuse .state
  else
    let (s, ok) := (s.setStoreSt i .written).copyImage (fld (r.arg 0) 47 0) i (r.arg 2).toNat host
    if ok then s.viaRegs [{ r := R.LOAD_CMD, v := word (at_ 8 i + 1) }] fun s => (s, .begun)
    else s.refuse .buffer

/-- `IMAGE_LOAD`: the checks' end awaited. -/
def waitImageLoad (r : CmdRun) (s : State) : Answer :=
  let i := fld (r.arg 1) 8 8
  if s.sched.check.any fun x => x.1 = i then (s, .later)
  else if s.storeSt i = .refused then s.refuse .image [s.rd R.LOAD_STAT]
  else s.answer [s.rd R.LOAD_STAT]

/-- The `ARM_CTRL` word of an arm by command. -/
def armWord (r : CmdRun) (halt : Bool) : Word :=
  word (at_ 32 (fld (r.arg 1) 63 32) + (if halt then 2 else at_ 9 (fld (r.arg 1) 9 9) + at_ 8 (fld (r.arg 1) 8 8)) + 1)

/-- Whether the arm that a word of `ARM_CTRL` and a tide describe is committed or pending. -/
def State.armStands (s : State) (w : Word) (tide : Word) : Bool :=
  (s.armCommitted && s.rd R.ARM_CTRL == w && s.rd R.ARM_TIDE == tide)
    || s.sched.pend.any fun a => a.halt == bit w 1 && (a.halt || (a.store == fld w 8 8 && a.stress == bit w 9))
      && a.tide == tide.toNat && a.epoch == fld w 63 32

/-- `IMAGE_ARM` and `IMAGE_HALT` (R105). -/
def State.armBy (s : State) (r : CmdRun) (halt : Bool) : Answer :=
  let w := armWord r halt
  if r.replayed ∧ s.armStands w (r.arg 0) = true then s.answer [s.rd R.ARM_TIDE, s.schedStat]
  else
    s.viaRegs [{ r := R.ARM_TIDE, v := r.arg 0 }, { r := R.ARM_CTRL, v := w }] fun s => s.answer [s.rd R.ARM_TIDE, s.schedStat]

/-- `IMAGE_CANCEL` (R106). -/
def cmdImageCancel (r : CmdRun) (s : State) : Answer :=
  if r.replayed ∧ s.sched.cancel = true then s.answer []
  else s.viaAll [{ r := R.ARM_CANCEL, v := 1 }] fun s => s.answer []

/-- `IMAGE_CLEAR` (R104). -/
def cmdImageClear (r : CmdRun) (s : State) : Answer :=
  let i := fld (r.arg 0) 8 8
  if r.replayed ∧ s.storeSt i = .empty then s.answer []
  else s.viaAll [{ r := R.LOAD_CMD, v := word (at_ 8 i + 2) }] fun s => s.answer []

-- Time and reference commands (R437).

/-- Whether a TB0 step that a command asks for is committed or adopted already. -/
def State.stepStands (s : State) (r : CmdRun) : Bool :=
  (s.rdb R.STEP_CTRL 0 0 || s.time.armPend)
    && (fld (r.arg 0) 2 1 != 0 || (s.rd R.STEP_SEC 0 == r.arg 1 && s.rd R.STEP_NS 0 == r.arg 2))

/-- `TIME_STEP_ARM` (R400). -/
def cmdTimeStepArm (r : CmdRun) (s : State) : Answer :=
  let done := fun (s : State) => s.answer [word (nextEpoch s.time.epoch)]
  if r.replayed ∧ s.stepStands r = true then done s
  else
    s.viaRegs [{ a := .secure, r := R.STEP_SEC, v := r.arg 1 }, { a := .secure, r := R.STEP_NS, v := r.arg 2 },
      { a := .secure, r := R.STEP_CTRL, v := word (at_ 1 (fld (r.arg 0) 2 1) + 1) }] done

/-- `REF_SELECT` (R390, R392, R410). -/
def cmdRefSelect (r : CmdRun) (s : State) : Answer :=
  let sel := setFld (setFld (s.rd R.SEL_CFG) 1 0 (fld (r.arg 0) 1 0)) 7 4 (fld (r.arg 0) 7 4)
  let w := fun (g : Reg) (v : Word) => ({ a := .secure, r := g, v := v } : FwWrite)
  s.viaAll (if r.expert then [w R.PRIO (r.arg 1), w R.WTR (r.arg 3), w R.HO_CFG (r.arg 4),
      w R.SEL_CFG (setFld sel 12 8 (fld (r.arg 2) 4 0))] else [w R.SEL_CFG sel])
    fun s => s.answer [s.rd R.SEL_CFG, s.pllStat]

/-- `TB3_SET` (R406). -/
def cmdTb3Set (r : CmdRun) (s : State) : Answer :=
  let w := fun (g : Reg) (v : Word) => ({ r := g, u := 3, v := v } : FwWrite)
  s.viaAll ((if r.expert then [w R.TB_RATE (r.arg 2)] else [])
      ++ [w R.STEP_SEC (r.arg 0), w R.STEP_NS (r.arg 1), w R.STEP_CTRL 1]) fun s => s.answer []

-- Maintenance commands (R438).

/-- `HEAP_RETRAIN` (R239). -/
def cmdHeapRetrain (r : CmdRun) (s : State) : Answer :=
  let h := fld (r.arg 0) 7 0
  if r.replayed ∧ (s.ctl h).state = .starting then (s, .begun)
  else s.viaAll [{ r := R.HC_CMD, u := h, v := 1 }] fun s => (s, .begun)

/-- `HEAP_RETRAIN`: `READY` or `FAULT` awaited. -/
def waitHeapRetrain (r : CmdRun) (s : State) : Answer :=
  let h := fld (r.arg 0) 7 0
  if (s.ctl h).state = .starting then (s, .later) else s.answer [s.hcStat h]

/-- `LINK_RETRAIN` (R183). -/
def cmdLinkRetrain (r : CmdRun) (s : State) : Answer :=
  let q := fld (r.arg 0) 7 0
  if r.replayed ∧ s.lkUp q = false ∧ s.lkState q ≠ lkDetect ∧ s.lkState q ≠ lkFault then (s, .begun)
  else s.viaAll [{ r := R.LINK_CMD, u := q, v := 1 }] fun s => (s, .begun)

/-- `LINK_RETRAIN`: `ACTIVE` with no negotiation open, `DETECT` or `FAULT` awaited. -/
def waitLinkRetrain (r : CmdRun) (s : State) : Answer :=
  let q := fld (r.arg 0) 7 0
  if (s.lkUp q ∧ s.lkNeg q = 0) ∨ s.lkState q = lkDetect ∨ s.lkState q = lkFault then s.answer [s.linkStat q] else (s, .later)

/-- Firmware writes on a pan's page with `EXPERT_EN` set for them and put back after (R438). -/
def State.viaExpert (s : State) (p : Nat) (ws : List FwWrite) (k : State → Answer) : Answer :=
  let page := 0x30 + p / 16
  let old := s.hdr page hCtrl
  let on := setBit old 1
  match firstCode (s.hdrReasons .normal page hCtrl (on ||| 0x5A17000000000000#64)) with
  | some c => s.rejected { agent := 1, page := page, bank := 0, off := hCtrl, code := c }
  | none =>
    let s1 := s.ctrlPut page on
    match s1.fwWrites ws with
    | (s2, none) => k (s2.ctrlPut page old)
    | (_, some r) => (s1.ctrlPut page old).rejected r

/-- The results of `PAN_PREEMPT`. -/
def State.panLoops (s : State) (p : Nat) : List Word :=
  [R.PAN_XPC, R.PAN_XLOOP0, R.PAN_XLOOP1, R.PAN_XLOOP2].map fun g => s.live .normal g p 0

/-- `PAN_PREEMPT` (R275). -/
def cmdPanPreempt (r : CmdRun) (s : State) : Answer :=
  let p := fld (r.arg 0) 7 0
  if r.replayed ∧ ((s.pn p).prePend = some (r.arg 1).toNat ∨ (s.pn p).preempted = true) then (s, .begun)
  else
    s.viaExpert p [{ r := R.PAN_XTIDE, u := p, v := r.arg 1 }, { r := R.PAN_XCMD, u := p, v := 1 }] fun s => (s, .begun)

/-- `PAN_PREEMPT`: the boundary awaited. -/
def waitPanPreempt (r : CmdRun) (s : State) : Answer :=
  let p := fld (r.arg 0) 7 0
  if (s.pn p).preempted then s.answer (s.panLoops p) else (s, .later)

/-- `PAN_RESUME` (R277). -/
def cmdPanResume (r : CmdRun) (s : State) : Answer :=
  let p := fld (r.arg 0) 7 0
  let w := fun (g : Reg) (v : Word) => ({ r := g, u := p, v := v } : FwWrite)
  if r.replayed ∧ ((s.pn p).resPend = some (r.arg 1).toNat ∨ (s.pn p).preempted = false) then (s, .begun)
  else
    s.viaExpert p [w R.PAN_XPC (r.arg 2), w R.PAN_XLOOP0 (r.arg 3), w R.PAN_XLOOP1 (r.arg 4), w R.PAN_XLOOP2 (r.arg 5),
      w R.PAN_XTIDE (r.arg 1), w R.PAN_XCMD 2] fun s => (s, .begun)

/-- `PAN_RESUME`: the boundary awaited. -/
def waitPanResume (r : CmdRun) (s : State) : Answer :=
  if (s.pn (fld (r.arg 0) 7 0)).preempted then (s, .later) else s.answer []

/-- `CHECKPOINT`: one asked for that starts from now on (R452). -/
def cmdCheckpoint (c : Nat) (_ : CmdRun) (s : State) : Answer :=
  ((s.ckptAsk 4).setMark c (s.sup.ckptSeq + 1 + b2n s.sup.ckptWriting.isSome), .begun)

/-- `CHECKPOINT`: its completion awaited. -/
def waitCheckpoint (r : CmdRun) (s : State) : Answer :=
  if r.mark ≤ s.sup.ckptSeq then s.answer [word s.sup.ckptSeq] else (s, .later)

-- Update commands (R439, R459).

/-- The NVM offset of the inactive overlay slot (R451). -/
def State.inactivePlace (s : State) : Nat := 0x400000 * (1 - s.flag.slot)

-- A command that writes or reads non-volatile memory has its outcome as an operand: one that fails ends with `E_NVM` before any change
-- of that step (R8, R439, R440; DESIGN CHOICE, notes/assumptions/275.md).

/-- `UPDATE_BEGIN`: `IDLE` written, the erase begun. -/
def cmdUpdateBegin (ok : Bool) (r : CmdRun) (s : State) : Answer :=
  if r.replayed ∧ s.updState = 0 ∧ s.nv.erasing = some (1 - s.flag.slot) then (s, .begun)
  else if s.updState = 0 ∨ s.updState = 2 then
    if !ok then s.refuse .nvm
    else
      let w : FwWrite := { a := .secure, r := R.NVM_CMD, v := word (2 ^ (1 - s.flag.slot)) }
      match s.fwWrite w with
      | (_, some r) => s.rejected r
      | (_, none) => (((s.setFlag { s.flag with state := 0 }).fwWrite w).1, .begun)
  else s.refuse .state

/-- `UPDATE_BEGIN`: the erase's end awaited; then `RECEIVING`. -/
def waitUpdateBegin (ok : Bool) (r : CmdRun) (s : State) : Answer :=
  if s.nv.erasing.isSome then (s, .later)
  else if !ok then s.refuse .nvm
  else
    let s1 : State := { s with sup := { s.sup with recvLen := some (r.arg 0).toNat, recvGot := 0, recvVer := fld (r.arg 1) 31 0 } }
    s1.answer []

/-- `UPDATE_CHUNK`. -/
def cmdUpdateChunk (ok : Bool) (host : Option (List Byte)) (r : CmdRun) (s : State) : Answer :=
  let n := (r.arg 1).toNat
  s.viaBuffer (r.arg 0) n host fun bs s =>
    match s.sup.recvLen with
    | none => s.refuse .state
    | some len =>
      if (r.arg 2).toNat ≠ s.sup.recvGot ∨ len < s.sup.recvGot + n then s.refuse .args
      else if !ok then s.refuse .nvm
      else
        let s := s.nvmWrite (s.inactivePlace + s.sup.recvGot) bs
        let s1 : State := { s with sup := { s.sup with recvGot := s.sup.recvGot + n } }
        s1.answer [word s1.sup.recvGot]

/-- `UPDATE_END`. -/
def cmdUpdateEnd (ok : Bool) (r : CmdRun) (s : State) : Answer :=
  match s.sup.recvLen with
  | none => if r.replayed ∧ s.updState = 2 ∧ s.flag.crc = (r.arg 0).toNat then s.answer [] else s.refuse .state
  | some len =>
    if !ok then s.refuse .nvm
    else
      let crc := crc32c (s.nv.nvm.bytes s.inactivePlace s.sup.recvGot)
      let s1 : State := { s with sup := { s.sup with recvLen := none } }
      if s.sup.recvGot = len ∧ crc = (r.arg 0).toNat then
        (s1.setFlag { s.flag with state := 2, inactive := s.sup.recvVer, len := len, crc := crc }).answer []
      else s1.refuse .image [word crc]

/-- `UPDATE_ACTIVATE`: the restart follows the result. -/
def cmdUpdateActivate (ok : Bool) (_ : CmdRun) (s : State) : Answer :=
  if s.updState = 2 then (if ok then (s.setFlag { s.flag with state := 3 }).answer [] else s.refuse .nvm) else s.refuse .state

/-- `UPDATE_CONFIRM` (R461). -/
def cmdUpdateConfirm (ok : Bool) (r : CmdRun) (s : State) : Answer :=
  if s.updState = 4 then
    if !ok then s.refuse .nvm
    else
      let s := s.setFlag { s.flag with state := 0, boots := 0 }
      let s1 : State := { s with sup := { s.sup with confirmEnd := none } }
      s1.answer []
  else if r.replayed ∧ s.updState = 0 then s.answer []
  else s.refuse .state

/-- The results of `UPDATE_STATUS`. -/
def State.updResults (s : State) : List Word := [word s.updState, s.updVer, word s.flag.boots, word s.confirmLeft]

/-- `UPDATE_STATUS`. -/
def cmdUpdateStatus (_ : CmdRun) (s : State) : Answer := s.answer s.updResults

/-- `UPDATE_ABORT`. -/
def cmdUpdateAbort (r : CmdRun) (s : State) : Answer :=
  if s.updState = 1 then
    let s1 : State := { s with sup := { s.sup with recvLen := none } }
    s1.answer []
  else if s.updState = 2 then (s.setFlag { s.flag with state := 0 }).answer []
  else if r.replayed ∧ s.updState = 0 then s.answer []
  else s.refuse .state

-- Security commands (R440).

/-- The firewall rules of a buffer, from rule `k` on: `FW_RULE_B` held, then the head (R365). -/
def fwRuleWrites (k : Nat) : List Word → List FwWrite
  | a :: b :: ws =>
    { a := .secure, r := R.FW_RULE_B, k := k, v := b } :: { a := .secure, r := R.FW_RULE_A, k := k, v := a } :: fwRuleWrites (k + 1) ws
  | _ => []

/-- Whether the rules and `FW_CTRL` are already as a command asks. -/
def State.rulesStand (s : State) (ctrl : Word) (ws : List FwWrite) : Bool :=
  s.rd R.FW_CTRL == ctrl && ws.all fun w => s.rd w.r 0 w.k == w.v

/-- `FW_RULES` (R364, R365, R440). -/
def cmdFwRules (host : Option (List Byte)) (r : CmdRun) (s : State) : Answer :=
  let n := fld (r.arg 1) 13 8
  s.viaBuffer (r.arg 0) (16 * n) host fun bs s =>
    let ws := fwRuleWrites (fld (r.arg 1) 5 0) (bytesWords (2 * n) bs)
    let ctrl := word (2 * fld (r.arg 1) 33 33 + fld (r.arg 1) 32 32)
    if r.replayed ∧ s.rulesStand ctrl ws = true then (s, .begun)
    else s.viaAll (ws ++ [{ a := .secure, r := R.FW_CTRL, v := ctrl }]) fun s => (s, .begun)

/-- `FW_RULES`: the fence awaited. -/
def waitFwRules (_ : CmdRun) (s : State) : Answer := if s.fenceDone then s.answer [s.rd R.FW_GEN] else (s, .later)

/-- The policy copy in force, and its sequence number; none is as copy 0 with number 0. -/
def State.policyPlace (s : State) : Nat × Nat :=
  match s.policyCopy 0, s.policyCopy 1 with
  | some x, some y => if laterSeq y.1 x.1 then (1, y.1) else (0, x.1)
  | none, some y => (1, y.1)
  | some x, none => (0, x.1)
  | none, none => (0, 0)

/-- `SIG_POLICY` (R99, R451): the copy that is not in force written. -/
def cmdSigPolicy (ok : Bool) (r : CmdRun) (s : State) : Answer :=
  let (k, seq) := s.policyPlace
  if r.replayed ∧ s.sigRequired = bit (r.arg 0) 0 then s.answer []
  else if !ok then s.refuse .nvm else (s.nvmWrite (0xF80080 + 64 * (1 - k)) (sealCopy [word (at_ 32 ((seq + 1) % 2 ^ 32)), word (fld (r.arg 0) 0 0)])).answer []

/-- `OPKEY_SET` (R464). -/
def cmdOpkeySet (ok : Bool) (host : Option (List Byte)) (r : CmdRun) (s : State) : Answer :=
  let k := fld (r.arg 1) 7 0
  s.viaBuffer (r.arg 0) 104 host fun bs s =>
    if k = 0 ∨ 15 < k then s.refuse .range
    else if ((bs.drop 97).any fun b => b != 0) ∨ 16 ≤ (bs.getD 96 0).toNat then s.refuse .args
    else if onCurve (beNat (bs.take 48)) (beNat ((bs.drop 48).take 48)) then
      (if r.replayed ∧ s.nv.nvm.bytes (opKeyPlace k) 104 = bs.take 104 then s.answer []
       else if ok then (s.nvmWrite (opKeyPlace k) (bs.take 104)).answer [] else s.refuse .nvm)
    else s.refuse .value

/-- `KEY_REVOKE` (R463). -/
def cmdKeyRevoke (ok : Bool) (r : CmdRun) (s : State) : Answer :=
  let k := fld (r.arg 0) 7 0
  if s.nv.otp.revoked.getLsbD k then (if r.replayed then s.answer [] else s.refuse .state)
  else if !ok then s.refuse .nvm
  else
    let o := s.nv.otp
    let s1 : State := { s with nv := { s.nv with otp := { o with revoked := o.revoked ||| BitVec.ofNat 8 (2 ^ k) } } }
    s1.answer []

/-- `TAMPER_CFG` (R472). -/
def cmdTamperCfg (r : CmdRun) (s : State) : Answer :=
  s.viaAll [{ a := .secure, r := R.TMP_CFG, v := r.arg 0 }] fun s => s.answer []

end Sys2Proof.Machine
end

