-- ==== Sys2Proof/Machine/CmdSets.lean ====
section
/-! DEFINITION. The data-path setting commands (spec/15 R436): shadow sets written and committed within one tide. -/

namespace Sys2Proof.Machine

/-- Whether a shadow set is committed and not yet adopted (R13). -/
def State.setDue (s : State) (x : ShadowSet) : Bool := s.fab.commits.any fun c => c.set == x

/-- The tide whose boundary adopts what is committed now (R13). -/
def State.adoptTide (s : State) : Nat := s.time.tide + 1 + b2n (s.slot == 4095)

/-- The tide whose boundary adopts a committed set. -/
def State.dueTide (s : State) (x : ShadowSet) : Nat :=
  s.time.tide + 1 + ((s.fab.commits.find? fun c => c.set == x).map fun c => c.wait - 1).getD 0

/-- One entry of a batch: a code against it that no register gives, and its register writes. -/
structure SetEntry where
  code : Option Code := none
  writes : List FwWrite := []

/-- The entries of a batch written in order on the state before them; the first that fails ends the command with nothing
written, and `R1` is its index (R436). -/
def State.viaEntries (s0 : State) (k : State → Answer) : State → Nat → List SetEntry → Answer
  | s, _, [] => k s
  | s, i, e :: es =>
    match e.code with
    | some c =>
      let (rs, s1) := s0.openResults
      s1.refuse c (rs.take 1 ++ [word i])
    | none =>
      match s.fwWrites e.writes with
      | (s1, none) => s0.viaEntries k s1 (i + 1) es
      | (_, some r) => s0.rejected r [word i]

/-- A batch: replayed with its effect committed, it succeeds; while a set it needs waits for its adoption, it waits. -/
def State.batch (s : State) (r : CmdRun) (sets : List ShadowSet) (stands : Bool) (k : State → Answer) : Answer :=
  if sets.any s.setDue then
    if r.replayed ∧ stands = true ∧ sets.all s.setDue = true then s.answer [word (s.dueTide (sets.headD .arm))] else (s, .later)
  else k s

/-- The result of a batch: the tide of its adoption. -/
def State.adoptsAt (s : State) : Answer := s.answer [word s.adoptTide]

-- DELAY_MODELS.

/-- Unit and slot of an entry. -/
def dmSlot (e : List Word) : Nat × Nat := (fld (e.getD 0 0) 15 8, fld (e.getD 0 0) 3 0)

/-- The registers of an entry's model set and their values, `DM_CTRL` last. -/
def dmWrites (e : List Word) : List FwWrite :=
  let (u, k) := dmSlot e
  let w := fun (g : Reg) (v : Word) => ({ r := g, u := u, k := k, v := v } : FwWrite)
  [w R.DM_T0 (e.getD 1 0), w R.DM_D0 (e.getD 2 0), w R.DM_D1 (e.getD 3 0), w R.DM_D2 (e.getD 4 0), w R.FR_FLO (e.getD 5 0),
    w R.FR_PH0 (e.getD 6 0), w R.DM_CTRL (word (at_ 32 (fld (e.getD 0 0) 63 32) + 1))]

/-- An entry of `DELAY_MODELS`. -/
def State.dmEntry (s : State) (e : List Word) : SetEntry :=
  let (u, k) := dmSlot e
  { code := firstCode [(wide (e.getD 0 0) 0xFFFFFFFF0000FF0F || wide (e.getD 6 0) 0xFFFFFFFF || e.getD 7 0 != 0, .resv),
      (!(sluSlots (s.sluProg u)).contains k, .value)]
    writes := dmWrites e }

/-- `DELAY_MODELS`. -/
def cmdDelayModels (host : Option (List Byte)) (r : CmdRun) (s : State) : Answer :=
  let n := (r.arg 1).toNat
  s.viaBuffer (r.arg 0) (64 * n) host fun bs s =>
    let es := chunks 8 n (bytesWords (8 * n) bs)
    let slots := es.map dmSlot
    if slots.eraseDups.length ≠ slots.length then s.refuse .args
    else
      let stands := es.all fun e => (dmWrites e).all fun w => s.rd w.r w.u w.k == w.v
      s.batch r (slots.map fun x => .dm x.1 x.2) stands fun s => s.viaEntries State.adoptsAt s 0 (es.map s.dmEntry)

-- GAINS.

/-- The 16-bit values of a buffer. -/
def halves (n : Nat) (bs : List Byte) : List Word := (chunks 2 n bs).map fun b => word (leNat b)

/-- `GAINS`. -/
def cmdGains (host : Option (List Byte)) (r : CmdRun) (s : State) : Answer :=
  let u := fld (r.arg 1) 15 8
  let k := fld (r.arg 1) 3 0
  let first := fld (r.arg 2) 11 0
  let n := fld (r.arg 2) 28 16
  let w := fun (g : Reg) (v : Word) => ({ r := g, u := u, v := v } : FwWrite)
  s.viaBuffer (r.arg 0) (2 * n) host fun bs s =>
    let gs := halves n bs
    let stands := (List.range n).all fun i =>
      (mget (fun _ => (0 : BitVec 16)) s.slu.gainS (65536 * u + 4096 * k + first + i)).toNat == (gs.getD i 0).toNat
    s.batch r [.gain u] stands fun s =>
      if 4096 < first + n then s.viaEntries State.adoptsAt s (4096 - first) [{ code := some .range }]
      else
        match s.fwWrites [w R.SLU_CMD (word (at_ 16 k + 1)), w R.GAIN_ADDR (word (at_ 12 k + first))] with
        | (_, some j) => s.rejected j
        | (s1, none) =>
          s.viaEntries (fun s => s.viaRegs [w R.GAIN_CTRL 1] State.adoptsAt) s1 0 (gs.map fun g => { writes := [w R.GAIN_DATA g] })

-- WINDOW.

/-- The 32-bit words of a buffer. -/
def quarters (n : Nat) (bs : List Byte) : List Word := (chunks 4 n bs).map fun b => word (leNat b)

/-- The shadow coefficients of a unit that a list of words gives. -/
def State.winStands (s : State) (u : Nat) (ws : List Word) : Bool :=
  (List.range ws.length).all fun i =>
    (mget (fun _ => (0 : BitVec 18)) s.slu.winS (32768 * u + i)).toNat == (ws.getD i 0).toNat

/-- `WINDOW`. -/
def cmdWindow (host : Option (List Byte)) (r : CmdRun) (s : State) : Answer :=
  let u := fld (r.arg 1) 7 0
  let w := fun (g : Reg) (v : Word) => ({ r := g, u := u, v := v } : FwWrite)
  let commit := fun (s : State) => s.viaRegs [w R.WIN_CTRL 1] State.adoptsAt
  if bit (r.arg 1) 8 then s.batch r [.win u] true fun s => s.viaRegs [w R.SLU_CMD 2] commit
  else
    let n := (r.arg 2).toNat
    s.viaBuffer (r.arg 0) n host fun bs s =>
      let ws := quarters (n / 4) bs
      s.batch r [.win u] (s.winStands u ws) fun s =>
        match s.fwWrites [w R.WIN_ADDR 0] with
        | (_, some j) => s.rejected j
        | (s1, none) => s.viaEntries commit s1 0 (ws.map fun v => { writes := [w R.WIN_DATA v] })

-- WEIGHT_SEL.

/-- `WEIGHT_SEL`: committed; its adoption is awaited. -/
def cmdWeightSel (c : Nat) (r : CmdRun) (s : State) : Answer :=
  let v := word (2 * fld (r.arg 0) 0 0 + 1)
  if s.setDue .wtSel then
    if r.replayed ∧ s.rd R.WT_SEL = v then (s.setMark c (s.dueTide .wtSel), .begun) else (s, .later)
  else s.viaRegs [{ r := R.WT_SEL, v := v }] fun s => (s.setMark c s.adoptTide, .begun)

/-- `WEIGHT_SEL`: the adoption awaited. -/
def waitWeightSel (r : CmdRun) (s : State) : Answer :=
  if s.setDue .wtSel then (s, .later) else s.answer [word r.mark, s.rd R.WT_STAT]

-- DEST_TABLE.

/-- The writes of one destination entry. -/
def destWrites (k : Nat) (ws : List Word) : List FwWrite :=
  { r := R.DST_SEL, v := word (8 * k) } :: ws.map fun v => { r := R.DST_DATA, v := v }

/-- `DEST_TABLE`. -/
def cmdDestTable (host : Option (List Byte)) (r : CmdRun) (s : State) : Answer :=
  let first := fld (r.arg 1) 5 0
  let n := fld (r.arg 1) 14 8
  s.viaBuffer (r.arg 0) (64 * n) host fun bs s =>
    let es := chunks 8 n (bytesWords (8 * n) bs)
    let stands := (List.range (8 * n)).all fun i =>
      mget (fun _ => (0 : Word)) s.net.dstShadow (8 * first + i) == (es.getD (i / 8) []).getD (i % 8) 0
    s.batch r [.dest] stands fun s =>
      if 64 < first + n then s.viaEntries State.adoptsAt s (64 - first) [{ code := some .range }]
      else
        s.viaEntries (fun s => s.viaRegs [{ r := R.DST_CTRL, v := 1 }] State.adoptsAt) s 0
          ((List.range n).map fun i => { writes := destWrites (first + i) (es.getD i []) })

end Sys2Proof.Machine
end

