-- ==== Sys2Proof/Machine/CmdRows.lean ====
section
/-! DEFINITION. The meanings of the command channels' rows: take-up, each command's step, results, time limits (spec/15). A
command's row carries the command out on a channel that has taken it and awaits its end; otherwise it changes nothing. -/

namespace Sys2Proof.Machine

/-- COMMAND_TAKEUP (R416, R420, R429). -/
def execCommandTakeup (c : Fin 16) (host : Option (List Byte)) (s : State) : Host.Outcome State Fault Refusal :=
  done s (if s.mayTake c then s.takeUp c host else s)

/-- COMMAND_ENTRY_RETRY (R416): an entry whose read has failed, read again. -/
def execCommandEntryRetry (c : Fin 16) (host : Option (List Byte)) (s : State) : Host.Outcome State Fault Refusal :=
  done s (if s.mayRetry c then s.takeUp c host else s)

/-- NOP (R434). -/
def execNop (c : Fin 16) (s : State) : Host.Outcome State Fault Refusal := done s (s.runCmd c .nop cmdNop noWait)

/-- DEV_INFO (R434). -/
def execDevInfo (c : Fin 16) (s : State) : Host.Outcome State Fault Refusal := done s (s.runCmd c .devInfo cmdDevInfo noWait)

/-- STATUS (R434). -/
def execStatus (c : Fin 16) (s : State) : Host.Outcome State Fault Refusal :=
  done s (s.runCmd c .status cmdStatusRead noWait)

/-- TIME_READ (R434). -/
def execTimeRead (c : Fin 16) (s : State) : Host.Outcome State Fault Refusal :=
  done s (s.runCmd c .timeRead cmdTimeRead noWait)

/-- SESSION_OPEN (R424, R428). -/
def execSessionOpen (c : Fin 16) (s : State) : Host.Outcome State Fault Refusal :=
  done s (s.runCmd c .sessionOpen (cmdSessionOpen c) noWait)

/-- SESSION_AUTH (R424, R428). -/
def execSessionAuth (c : Fin 16) (host : Option (List Byte)) (s : State) : Host.Outcome State Fault Refusal :=
  done s (s.runCmd c .sessionAuth (cmdSessionAuth c host) noWait)

/-- SESSION_CLOSE (R427). -/
def execSessionClose (c : Fin 16) (s : State) : Host.Outcome State Fault Refusal :=
  done s (s.runCmd c .sessionClose (cmdSessionClose c) noWait)

/-- NOTIFY_SET (R434). -/
def execNotifySet (c : Fin 16) (s : State) : Host.Outcome State Fault Refusal :=
  done s (s.runCmd c .notifySet (cmdNotifySet c) noWait)

/-- PWR_RUN (R35, R435). -/
def execPwrRun (c : Fin 16) (s : State) : Host.Outcome State Fault Refusal :=
  done s (s.runCmd c .pwrRun cmdPwrRun waitPwrRun)

/-- PWR_IDLE (R35, R36, R435). -/
def execPwrIdle (c : Fin 16) (s : State) : Host.Outcome State Fault Refusal :=
  done s (s.runCmd c .pwrIdle cmdPwrIdle waitPwrIdle)

/-- PWR_STANDBY (R37, R435). -/
def execPwrStandby (c : Fin 16) (s : State) : Host.Outcome State Fault Refusal :=
  done s (s.runCmd c .pwrStandby cmdPwrStandby waitPwrStandby)

/-- IMAGE_LOAD (R104, R435). -/
def execImageLoad (c : Fin 16) (host : Option (List Byte)) (s : State) : Host.Outcome State Fault Refusal :=
  done s (s.runCmd c .imageLoad (cmdImageLoad host) waitImageLoad)

/-- IMAGE_ARM (R105, R435). -/
def execImageArm (c : Fin 16) (s : State) : Host.Outcome State Fault Refusal :=
  done s (s.runCmd c .imageArm (fun r s => s.armBy r false) noWait)

/-- IMAGE_HALT (R105, R435). -/
def execImageHalt (c : Fin 16) (s : State) : Host.Outcome State Fault Refusal :=
  done s (s.runCmd c .imageHalt (fun r s => s.armBy r true) noWait)

/-- IMAGE_CANCEL (R106, R435). -/
def execImageCancel (c : Fin 16) (s : State) : Host.Outcome State Fault Refusal :=
  done s (s.runCmd c .imageCancel cmdImageCancel noWait)

/-- IMAGE_CLEAR (R104, R435). -/
def execImageClear (c : Fin 16) (s : State) : Host.Outcome State Fault Refusal :=
  done s (s.runCmd c .imageClear cmdImageClear noWait)

/-- DELAY_MODELS (R195, R436). -/
def execDelayModels (c : Fin 16) (host : Option (List Byte)) (s : State) : Host.Outcome State Fault Refusal :=
  done s (s.runCmd c .delayModels (cmdDelayModels host) noWait)

/-- GAINS (R215, R436). -/
def execGains (c : Fin 16) (host : Option (List Byte)) (s : State) : Host.Outcome State Fault Refusal :=
  done s (s.runCmd c .gains (cmdGains host) noWait)

/-- WINDOW (R202, R436). -/
def execWindow (c : Fin 16) (host : Option (List Byte)) (s : State) : Host.Outcome State Fault Refusal :=
  done s (s.runCmd c .window (cmdWindow host) noWait)

/-- WEIGHT_SEL (R308, R436). -/
def execWeightSel (c : Fin 16) (s : State) : Host.Outcome State Fault Refusal :=
  done s (s.runCmd c .weightSel (cmdWeightSel c) waitWeightSel)

/-- DEST_TABLE (R346, R436). -/
def execDestTable (c : Fin 16) (host : Option (List Byte)) (s : State) : Host.Outcome State Fault Refusal :=
  done s (s.runCmd c .destTable (cmdDestTable host) noWait)

/-- TIME_STEP_ARM (R400, R437). -/
def execTimeStepArm (c : Fin 16) (s : State) : Host.Outcome State Fault Refusal :=
  done s (s.runCmd c .timeStepArm cmdTimeStepArm noWait)

/-- REF_SELECT (R390, R437). -/
def execRefSelect (c : Fin 16) (s : State) : Host.Outcome State Fault Refusal :=
  done s (s.runCmd c .refSelect cmdRefSelect noWait)

/-- TB3_SET (R406, R437). -/
def execTb3Set (c : Fin 16) (s : State) : Host.Outcome State Fault Refusal := done s (s.runCmd c .tb3Set cmdTb3Set noWait)

/-- HEAP_RETRAIN (R239, R438). -/
def execHeapRetrain (c : Fin 16) (s : State) : Host.Outcome State Fault Refusal :=
  done s (s.runCmd c .heapRetrain cmdHeapRetrain waitHeapRetrain)

/-- LINK_RETRAIN (R183, R438). -/
def execLinkRetrain (c : Fin 16) (s : State) : Host.Outcome State Fault Refusal :=
  done s (s.runCmd c .linkRetrain cmdLinkRetrain waitLinkRetrain)

/-- PAN_PREEMPT (R275, R438). -/
def execPanPreempt (c : Fin 16) (s : State) : Host.Outcome State Fault Refusal :=
  done s (s.runCmd c .panPreempt cmdPanPreempt waitPanPreempt)

/-- PAN_RESUME (R277, R438). -/
def execPanResume (c : Fin 16) (s : State) : Host.Outcome State Fault Refusal :=
  done s (s.runCmd c .panResume cmdPanResume waitPanResume)

/-- CHECKPOINT (R438, R452). -/
def execCheckpoint (c : Fin 16) (s : State) : Host.Outcome State Fault Refusal :=
  done s (s.runCmd c .checkpoint (cmdCheckpoint c) waitCheckpoint)

/-- UPDATE_BEGIN (R439, R459). -/
def execUpdateBegin (c : NvmChan) (s : State) : Host.Outcome State Fault Refusal :=
  done s (s.runCmd c.chan .updateBegin (cmdUpdateBegin c.ok) (waitUpdateBegin c.ok))

/-- UPDATE_CHUNK (R439). -/
def execUpdateChunk (c : NvmChan) (host : Option (List Byte)) (s : State) : Host.Outcome State Fault Refusal :=
  done s (s.runCmd c.chan .updateChunk (cmdUpdateChunk c.ok host) noWait)

/-- UPDATE_END (R439). -/
def execUpdateEnd (c : NvmChan) (s : State) : Host.Outcome State Fault Refusal :=
  done s (s.runCmd c.chan .updateEnd (cmdUpdateEnd c.ok) noWait)

/-- UPDATE_ACTIVATE (R439, R447). -/
def execUpdateActivate (c : NvmChan) (s : State) : Host.Outcome State Fault Refusal :=
  done s (s.runCmd c.chan .updateActivate (cmdUpdateActivate c.ok) noWait)

/-- UPDATE_CONFIRM (R439, R461). -/
def execUpdateConfirm (c : NvmChan) (s : State) : Host.Outcome State Fault Refusal :=
  done s (s.runCmd c.chan .updateConfirm (cmdUpdateConfirm c.ok) noWait)

/-- UPDATE_STATUS (R439). -/
def execUpdateStatus (c : Fin 16) (s : State) : Host.Outcome State Fault Refusal :=
  done s (s.runCmd c .updateStatus cmdUpdateStatus noWait)

/-- UPDATE_ABORT (R439). -/
def execUpdateAbort (c : Fin 16) (s : State) : Host.Outcome State Fault Refusal :=
  done s (s.runCmd c .updateAbort cmdUpdateAbort noWait)

/-- FW_RULES (R365, R440). -/
def execFwRules (c : Fin 16) (host : Option (List Byte)) (s : State) : Host.Outcome State Fault Refusal :=
  done s (s.runCmd c .fwRules (cmdFwRules host) waitFwRules)

/-- SIG_POLICY (R99, R440). -/
def execSigPolicy (c : NvmChan) (s : State) : Host.Outcome State Fault Refusal :=
  done s (s.runCmd c.chan .sigPolicy (cmdSigPolicy c.ok) noWait)

/-- OPKEY_SET (R440, R464). -/
def execOpkeySet (c : NvmChan) (host : Option (List Byte)) (s : State) : Host.Outcome State Fault Refusal :=
  done s (s.runCmd c.chan .opkeySet (cmdOpkeySet c.ok host) noWait)

/-- KEY_REVOKE (R440, R463). -/
def execKeyRevoke (c : NvmChan) (s : State) : Host.Outcome State Fault Refusal :=
  done s (s.runCmd c.chan .keyRevoke (cmdKeyRevoke c.ok) noWait)

/-- TAMPER_CFG (R440, R472). -/
def execTamperCfg (c : Fin 16) (s : State) : Host.Outcome State Fault Refusal :=
  done s (s.runCmd c .tamperCfg cmdTamperCfg noWait)

/-- RESULT_POST (R421). -/
def execResultPost (c : Fin 16) (s : State) : Host.Outcome State Fault Refusal := done s (s.tryPost c)

/-- COMMAND_TIMEOUT (R422). -/
def execCommandTimeout (c : Fin 16) (s : State) : Host.Outcome State Fault Refusal := done s (s.timeOut c)

/-- SESSION_TIMEOUT (R427): `SESSION_TMO` seconds with no command; a command that runs keeps its session. -/
def execSessionTimeout (c : Fin 16) (s : State) : Host.Outcome State Fault Refusal :=
  done s (match pget s.cmds.session c with
    | some x =>
      if s.sessionBusy c then s
      else (s.waitTo (x.last + s.rdf R.SESSION_TMO 0 15 0 * sclkSec)).endSession c 1
    | none => s)

/-- CHALLENGE_EXPIRY (R424): 10 s after it was drawn. -/
def execChallengeExpiry (c : Fin 16) (s : State) : Host.Outcome State Fault Refusal :=
  done s (match pget s.cmds.session c with
    | some x =>
      if x.challenge.isSome then
        let s := s.waitTo (x.since + 10 * sclkSec)
        { s with cmds := { s.cmds with session := pset s.cmds.session c (some { x with challenge := none }) } }
      else s
    | none => s)

/-- AUTH_LOCKOUT_END (R428): 60 s after the fifth failure. -/
def execAuthLockoutEnd (c : Fin 16) (s : State) : Host.Outcome State Fault Refusal :=
  done s (match (s.cchan c).lockedAt with
    | some t =>
      let s := s.waitTo (t + 60 * sclkSec)
      s.setCchan c { s.cchan c with lockedAt := none }
    | none => s)

end Sys2Proof.Machine
end

