-- ==== Sys2Proof/Machine/CkptOps.lean ====
section
/-! DEFINITION. Checkpoints and overlays: what a checkpoint holds, where the firmware takes its state from, what a core start
restores, what the boot ROM does with the update flag (spec/16 R451 to R460). -/

namespace Sys2Proof.Machine

-- Slots (R451 to R453).

/-- The NVM offset of a checkpoint slot. -/
def ckptPlace (i : Nat) : Nat := 0x800000 + 0x78000 * i

/-- The magic of word 0. -/
def ckptMagic : Word := 0x3154504B43564E58#64

/-- The CRC-32C of a slot, over bytes 0 to 55 and 64 to 491,519. -/
def State.ckptCrc (s : State) (i : Nat) : Nat :=
  crc32c (s.nv.nvm.bytes (ckptPlace i) 56 ++ s.nv.nvm.bytes (ckptPlace i + 64) (491520 - 64))

/-- A word of a slot. -/
def State.ckptWord (s : State) (i k : Nat) : Word := s.nv.nvm.word (ckptPlace i + 8 * k)

/-- Whether a slot is valid. -/
def State.ckptValid (s : State) (i : Nat) : Bool :=
  s.ckptWord i 0 == ckptMagic && fld (s.ckptWord i 7) 31 0 == s.ckptCrc i

/-- The newest valid slot. -/
def State.ckptNewest (s : State) : Option Nat :=
  ((List.range 16).filter s.ckptValid).foldl (fun best i =>
    match best with
    | some j => if (s.ckptWord j 1).toNat < (s.ckptWord i 1).toNat then some i else some j
    | none => some i) none

/-- Bytes filled up with zeros to a length. -/
def padTo (n : Nat) (bs : List Byte) : List Byte := (bs ++ List.replicate (n - bs.length) 0).take n

-- Firmware state: `CQ_CH_k` at byte 64 + 8k of the slot, `SESSION_TMO` at 192, the journal of channel k at 200 + 96k, the
-- update state at 1,736 (the arrangement is the model's).

/-- A channel's latest journal result, in 96 bytes. -/
def journalBytes (j : Option Journal) : List Byte :=
  match j with
  | some j =>
    match j.result with
    | some (code, rs) =>
      padTo 96 (leBytes 4 j.idx ++ leBytes 4 j.tag ++ leBytes 2 j.opcode ++ leBytes 1 1 ++ leBytes 5 code ++ j.digest ++ wordsBytes rs)
    | none => padTo 96 []
  | none => padTo 96 []

/-- Bytes 64 to 2,047. -/
def State.fwBytes (s : State) : List Byte :=
  padTo 1984 (wordsBytes ((List.range 16).map s.cqCh) ++ wordsBytes [s.rd R.SESSION_TMO]
    ++ ((List.range 16).map fun c => journalBytes (pget s.cmds.journal c)).flatten ++ leBytes 8 s.updState)

/-- Bytes 2,048 to 6,143: the brine peers. -/
def State.peerBytes (s : State) : List Byte :=
  wordsBytes ((List.range 256).map fun q => [s.rd R.PEER_SERIAL q, s.rd R.PEER_PORT q]).flatten

/-- Registers of shadow sets, and of tables that are reached through a window (R13, R454). -/
def shadowRegs : List Reg :=
  modelRegs ++ [R.ARM_TIDE, R.ARM_CTRL, R.GAIN_CTRL, R.WIN_CTRL, R.WT_SEL, R.DST_CTRL, R.CH_PROG, R.CH_CFG]

/-- Whether the register list holds a register (R454). -/
def listedReg (page off : Nat) : Bool :=
  if aonPage page then false
  else if off < 0x100 then off == hCtrl || off == hEvtEn || off == hOwner
  else match findReg page off with
    | some (r, _) => (r.acc == .rw || r.acc == .rwl) && !r.held && !counterRegs.contains r && !shadowRegs.contains r
    | none => false

/-- The page, bank and offset of a register's key; none for one that is held per agent. -/
def keyPlace (k : Nat) : Option (Nat × Nat × Nat) :=
  if k / 4096 / 256 / 128 = 0 then some (keyPage k, k / 4096 % 256, k % 4096) else none

/-- The configuration register list, as far as it goes (R454). -/
def State.ckptRegs (s : State) : List (List Word) :=
  s.regs.filterMap fun e =>
    match keyPlace e.1 with
    | some (page, bank, off) =>
      if listedReg page off then some [word (at_ 24 page + at_ 16 bank + off), e.2] else none
    | none => none

/-- A model record of 56 bytes. -/
def modelRecord (u k : Nat) (newer : Bool) (m : Model) : List Word :=
  [word (at_ 32 m.len + at_ 16 u + at_ 12 k + at_ 11 (b2n newer)), word m.t0, m.d0, m.d1, m.d2, m.flo, word m.ph0]

/-- The model records: the newer and older adopted models of every bound slot (R454). -/
def State.ckptModels (s : State) : List (List Word) :=
  ((List.range 256).map fun u => ((sluSlots (s.sluProg u)).map fun k =>
    ((s.slt u k).newer.map (modelRecord u k true)).toList ++ ((s.slt u k).older.map (modelRecord u k false)).toList).flatten).flatten

/-- Bytes 64 to 491,519 of a checkpoint (R453). -/
def State.ckptBody (s : State) : List Byte :=
  s.fwBytes ++ s.peerBytes ++ padTo 26624 (wordsBytes (s.ckptRegs.take 1664).flatten)
    ++ padTo 458752 (wordsBytes (s.ckptModels.take 8192).flatten)

/-- The header of checkpoint `n` without its CRC. -/
def State.ckptHead (s : State) (n cause : Nat) : List Byte :=
  let regs := s.ckptRegs.length
  wordsBytes [ckptMagic, word n, word (at_ 32 s.time.epoch), word s.time.tide, word s.tb2Sec,
    word (at_ 56 ((s.svIn .active).getD 0) + at_ 48 cause + at_ 32 (b2n (decide (1664 < regs))) + min regs 1664),
    word (min s.ckptModels.length 8192)]

/-- A checkpoint written whole (R453, R455): the slot, the numbers of `CKPT_STAT`, the mirror's older copy. -/
def State.ckptWrite (s : State) (cause : Nat) : State :=
  let n := s.sup.ckptSeq + 1
  let i := n % 16
  let trunc := decide (1664 < s.ckptRegs.length)
  let head := s.ckptHead n cause
  let s := (s.nvmWrite (ckptPlace i + 64) s.ckptBody).nvmWrite (ckptPlace i) (head ++ leBytes 8 0)
  let s := s.nvmWrite (ckptPlace i + 56) (leBytes 8 (s.ckptCrc i))
  { s with sup := { s.sup with ckptSeq := n, ckptSlot := i, ckptTrunc := trunc, ckptWriting := none }
           cmds := { s.cmds with mirror := some { seq := n, chans := (List.range 16).map s.cqCh, tmo := s.rd R.SESSION_TMO } } }

/-- Commands that wait for the checkpoint that has failed end with `E_NVM` (R452). -/
def State.ckptCommandsFail (s : State) (n : Nat) : State :=
  (List.range 16).foldl (fun s c =>
    match (s.cchan c).run with
    | some r => if r.opcode = 0x0504 ∧ r.begun ∧ r.result = none ∧ r.mark = n then s.endCmd c r Code.nvm.num [] else s
    | none => s) s

/-- A checkpoint write that failed (R452). -/
def State.ckptFail (s : State) (cause : Nat) : State :=
  let s1 : State := { s with sup := { s.sup with ckptWriting := none } }
  let s := (s1.countf R.NVM_ERR 0 31 16).raise 0x08 4
  let s := s.raise 0x0A 1
  let s := s.report 0x0A 0 0x0A (s.rd R.NVM_ERR) s.updStat
  let s := if cause = 3 then s.setPwr fun p => { p with req := .none } else s
  s.ckptCommandsFail (s.sup.ckptSeq + 1)

-- Where the firmware takes its state from (R455, R456).

/-- The journal of a channel that a slot holds. -/
def State.ckptJournal (s : State) (i c : Nat) : Option Journal :=
  let a := ckptPlace i + 200 + 96 * c
  if s.nv.nvm.byte (a + 10) = 0 then none
  else
    some { idx := leNat (s.nv.nvm.bytes a 4), tag := leNat (s.nv.nvm.bytes (a + 4) 4), opcode := leNat (s.nv.nvm.bytes (a + 8) 2)
           digest := s.nv.nvm.bytes (a + 16) 48
           result := some (leNat (s.nv.nvm.bytes (a + 11) 5), bytesWords 4 (s.nv.nvm.bytes (a + 64) 32)) }

/-- The firmware state that a slot holds. -/
def State.ckptFw (s : State) (i : Nat) : FwState :=
  { seq := (s.ckptWord i 1).toNat, chans := (List.range 16).map fun c => s.nv.nvm.word (ckptPlace i + 64 + 8 * c)
    tmo := s.nv.nvm.word (ckptPlace i + 192) }

/-- Every session ended, because the state comes from NVM (R427, R456). -/
def State.endSessions (s : State) : State :=
  (List.range 16).foldl (fun s c => if (pget s.cmds.session c).isSome then s.endSession c 2 else s) s

/-- The firmware's state taken over: the mirror's newest copy if it is no older than the newest valid checkpoint, else that
checkpoint; with neither, reset values (R456). The state to put in force, if any. -/
def State.takeState (s : State) : State × Option FwState :=
  let ck := s.ckptNewest
  let seq := (ck.map fun i => (s.ckptWord i 1).toNat).getD 0
  let put := fun (s : State) (m n : Bool) (q : Nat) =>
    ({ s with sup := { s.sup with mirrorUsed := m, nvmUsed := n, ckptSeq := q, ckptSlot := q % 16 } } : State)
  match s.cmds.mirror with
  | some f => if seq ≤ f.seq then (put s true false f.seq, some f) else (put s.endSessions false true seq, ck.map s.ckptFw)
  | none =>
    match ck with
    | some i =>
      let js := (List.range 16).foldl (fun m c => pset m c (s.ckptJournal i c)) s.cmds.journal
      let s1 : State := { s with cmds := { s.cmds with journal := js } }
      (put s1.endSessions false true seq, some (s.ckptFw i))
    | none => (put s false false 0, none)

-- What a core start restores (R456, R457).

/-- A restored value that its register rejects: recorded (R456). -/
def State.restoreReject (s : State) (r : Reject) : State :=
  let s := s.recordRejects [r]
  s.report 0x0A 0 0x0A (s.rd R.NVM_ERR) s.updStat

/-- A restored register, written by the secure world with the page's expert registers open to the firmware; a member of a group
takes effect with its head. -/
def State.restoreReg (s : State) (page bank off : Nat) (v : Word) : State :=
  match findReg page off with
  | none => s
  | some (r, k) =>
    let old := s.hdr page hCtrl
    let w : FwWrite := { a := .secure, r := r, u := unitAt r page bank, k := k, v := v }
    match (s.setHdr page hCtrl (setBit old 1)).fwWrite w with
    | (_, some j) => s.restoreReject j
    | (s1, none) =>
      let s1 := s1.setHdr page hCtrl old
      match if r.mem = 0 then none else findReg page (off - r.mem) with
      | some (h, j) =>
        match s1.fwWrite { a := .secure, r := h, u := w.u, k := j, v := s1.rd h w.u j } with
        | (s2, none) => s2
        | (s2, some j) => s2.restoreReject j
      | none => s1

/-- A restored header register. -/
def State.restoreHdr (s : State) (page off : Nat) (v : Word) : State :=
  let v := if off = hCtrl ∧ bit v 1 then v ||| 0x5A17000000000000#64 else v
  match firstCode (s.hdrReasons .secure page off v) with
  | none => s.hdrPut .secure page off v
  | some c => s.restoreReject { agent := 0, page := page, bank := 0, off := off, code := c }

/-- An entry of a register list: page, bank, offset, value. -/
abbrev CkptEntry := Nat × Nat × Nat × Word

/-- The entries of a slot's register list. -/
def State.ckptEntries (s : State) (i : Nat) : List CkptEntry :=
  (List.range (min (fld (s.ckptWord i 5) 31 0) 1664)).map fun k =>
    let w := s.nv.nvm.word (ckptPlace i + 6144 + 16 * k)
    (fld w 31 24, fld w 23 16, fld w 11 0, s.nv.nvm.word (ckptPlace i + 6144 + 16 * k + 8))

/-- A list's entries with each page's `PG_CTRL` after the others of that page. -/
def ctrlLast : List CkptEntry → List CkptEntry
  | es => ((List.range 96).map fun p =>
    (es.filter fun e => e.1 == p && e.2.2.1 != hCtrl) ++ es.filter fun e => e.1 == p && e.2.2.1 == hCtrl).flatten

/-- A restored entry. -/
def State.restoreEntry (s : State) (e : CkptEntry) : State :=
  if e.2.2.1 < 0x100 then s.restoreHdr e.1 e.2.2.1 e.2.2.2 else s.restoreReg e.1 e.2.1 e.2.2.1 e.2.2.2

/-- A restored model refused (R198, R457). -/
def State.refuseModel (s : State) (u k : Nat) : State :=
  ((s.slotStat u k 16).countf R.CNT_MODEL u 31 16).raise (sluPage u) 2

/-- A model record of a slot, restored (R198, R457). -/
def State.restoreModel (s : State) (i n : Nat) : State :=
  let a := ckptPlace i + 32768 + 56 * n
  let w := fun k => s.nv.nvm.word (a + 8 * k)
  let u := fld (w 0) 23 16
  let k := fld (w 0) 15 12
  let m : Model := { t0 := (w 1).toNat, len := fld (w 0) 63 32, d0 := w 2, d1 := w 3, d2 := w 4, flo := w 5, ph0 := fld (w 6) 31 0 }
  if fld (s.ckptWord i 2) 63 32 ≠ s.time.epoch ∨ m.t0 + m.len ≤ s.time.tide then s.refuseModel u k
  else
    let sl := s.slt u k
    let s := s.setSlt u k (if bit (w 0) 11 then { sl with newer := some m } else { sl with older := some m })
    s.slotStat u k (if bit (s.rd R.SLOT_STAT u k) 4 then 16 else 0)

/-- The partners that a slot holds (R166). -/
def State.restorePeers (s : State) (i : Nat) : State :=
  (List.range 256).foldl (fun s q =>
    let serial := s.nv.nvm.word (ckptPlace i + 2048 + 16 * q)
    let port := s.nv.nvm.word (ckptPlace i + 2056 + 16 * q)
    if bit port 8 then
      s.setLk q { s.lk q with saved := some { serial := serial, quad := fld port 7 0, session := fld port 23 9 } }
    else s) s

/-- The firmware state put in force at a core start: channels and time-out, as far as their registers accept them. -/
def State.restoreFw (s : State) (f : FwState) : State :=
  let ws : List FwWrite := { r := R.SESSION_TMO, v := f.tmo } :: (List.range 16).map fun c => { r := R.CQ_CH, k := c, v := f.chans.getD c 0 }
  ws.foldl (fun s w =>
    match s.fwWrite w with
    | (s1, none) => s1
    | (_, some j) => s.restoreReject j) s

/-- A core start's restoration from the newest valid checkpoint (R456). -/
def State.restoreAll (s : State) : State :=
  match s.ckptNewest with
  | some i =>
    let s := (ctrlLast (s.ckptEntries i)).foldl State.restoreEntry s
    ((List.range (min (fld (s.ckptWord i 6) 31 0) 8192)).foldl (fun s n => s.restoreModel i n) s).restorePeers i
  | none => s

-- Overlays (R458 to R460).

/-- Why the overlay in a slot fails its check, as `UPD_STAT.LAST_FAIL` codes it (R460, R474). -/
def State.overlayFail (s : State) (f : UpdFlag) (uncorr : Bool) : Option Nat :=
  let a := 0x400000 * (1 - f.slot)
  let m := s.nv.nvm
  let k := fld (m.word (a + 16)) 7 0
  let sig := a + f.len - 128
  let bad := decide (f.len < 192 ∨ 4194304 < f.len)
  if uncorr then some 5
  else if m.word a ≠ 0x59414C564F564E58#64 ∨ bad = true ∨ f.len % 64 ≠ 0 ∨ fld (m.word (a + 8)) 31 0 ≠ f.len then some 1
  else if crc32c (m.bytes a f.len) ≠ f.crc then some 2
  else if 8 ≤ k ∨ pget s.nv.otp.verify k = none ∨ s.nv.otp.revoked.getLsbD k ∨ fld (m.word sig) 7 0 ≠ k then some 3
  else
    match pget s.nv.otp.verify k with
    | some p =>
      if fld (m.word sig) 63 56 = 1 ∧ fld (m.word sig) 55 8 = 0 ∧ (m.bytes (sig + 104) 24).all (· == 0) = true
          ∧ ecdsaVerify p.x p.y (sha384 (m.bytes a (f.len - 128))) (beNat (m.bytes (sig + 8) 48)) (beNat (m.bytes (sig + 56) 48)) = true
      then none else some 4
    | none => some 3

/-- The slots and versions exchanged. -/
def UpdFlag.swapped (f : UpdFlag) : UpdFlag := { f with slot := 1 - f.slot, active := f.inactive, inactive := f.active }

/-- The running overlay's version (R413, R442). -/
def State.loadOverlay (s : State) (uncorr : Bool) : State :=
  let s1 : State := { s with sup := { s.sup with ovlVer := if uncorr then 0 else s.flag.active } }
  if uncorr then s1.report 0x0A 0 0x0A (s1.rd R.NVM_ERR) s1.updStat else s1

/-- A change of the update state without a command, notified (R441). -/
def State.updNotice (s : State) : State := s.notify 0x800A s.updResults

/-- What the boot ROM does with the flag in force (R460). -/
def State.bootFlag (s : State) (uncorr : Bool) : State :=
  let f := s.flag
  let quick := s.sup.bootKind == .failover || s.sup.bootKind == .takeover
  if f.state = 3 then
    if quick then (s.setFlag { f with state := 2 }).updNotice.loadOverlay uncorr
    else
      match s.overlayFail f uncorr with
      | none => (s.setFlag { f.swapped with state := 4, boots := 1 }).updNotice.loadOverlay false
      | some e =>
        let s := s.setFlag { f with state := 0 }
        let s1 : State := { s with sup := { s.sup with lastFail := e } }
        s1.updNotice.loadOverlay false
  else if f.state = 4 then
    if f.boots < 3 then (s.setFlag { f with boots := f.boots + 1 }).loadOverlay uncorr
    else
      let s := s.setFlag { f.swapped with state := 0, boots := 0 }
      let s1 : State := { s with sup := { s.sup with restartCause := 3 } }
      s1.updNotice.loadOverlay uncorr
  else s.loadOverlay uncorr

end Sys2Proof.Machine
end

