-- ==== Sys2Proof/Machine/SupRows.lean ====
section
/-! DEFINITION. The meanings of the rows of the supervisor pair, of checkpoints, updates, gating, debug unlock and the tamper
monitor (spec/16). -/

namespace Sys2Proof.Machine

/-- WATCHDOG_EXPIRY (R445, R446): 50 ms after it was fed last. -/
def execWatchdogExpiry (s : State) : Host.Outcome State Fault Refusal :=
  done s (match s.sup.wdAt with
    | some t => if s.supervised then (s.waitTo (t + 75000000)).failNote 1 else s
    | none => s)

/-- CORE_LOCKUP (R446). -/
def execCoreLockup (s : State) : Host.Outcome State Fault Refusal := done s (if s.supervised then s.failNote 3 else s)

/-- FAILOVER_START (R446): the first step, for a cause that has occurred. -/
def execFailoverStart (s : State) : Host.Outcome State Fault Refusal :=
  done s (match s.sup.failCause with
    | some c => s.failoverNow c
    | none => s)

/-- SUPERVISOR_RELEASE (R444, R446). -/
def execSupervisorRelease (s : State) : Host.Outcome State Fault Refusal :=
  done s (match s.svIn .standby with
    | some i =>
      if s.sup.takeoverDue ∧ s.pwr.coreUp = true then
        let s := s.setSv i .starting
        { s with sup := { s.sup with takeoverDue := false, romDone := false } }
      else s
    | none => s)

/-- A boot that failed its self-test (R446, R447): no supervisor is active; a restart's 300 ms still run. -/
def State.bootFailed (s : State) (i : Nat) : State :=
  let t := s.sup.restartAt
  let s := (s.svFail i).dropFirmware
  { s with sup := { s.sup with restartAt := t } }

/-- BOOT_ROM_DONE (R446, R451, R460): the self-test's outcome and the NVM words that the loading corrected or could not. In
tamper-hold no overlay loads and no flag is written (R469, R470). -/
def execBootRomDone (ok : Bool) (corrected : BitVec 16) (uncorr : Bool) (s : State) : Host.Outcome State Fault Refusal :=
  done s (match s.svIn .starting with
    | some i =>
      if s.sup.romDone then s
      else
        let s := s.wr R.NVM_ERR 0 (satFld (s.rd R.NVM_ERR) 63 48 corrected.toNat)
        let s := if uncorr then (s.countf R.NVM_ERR 0 47 32).raise 0x0A 0 else s
        if ok then
          let s := if s.tam.hold then s else s.bootFlag uncorr
          { s with sup := { s.sup with romDone := true, ovlVer := if s.tam.hold then 0 else s.sup.ovlVer } }
        else s.bootFailed i
    | none => s)

/-- Every enabled channel's next command is read as one that may have been carried out already (R433). -/
def State.markReplay (s : State) : State :=
  (List.range 16).foldl (fun s c => if s.cqOn c then s.setCchan c { s.cchan c with replay := true } else s) s

/-- The firmware's state taken over, and at a core start the configuration restored (R456). -/
def State.takeRole (s : State) : State :=
  let x := s.takeState
  let s := x.1
  if s.cmds.restored then s
  else
    let s := (x.2.elim s s.restoreFw).restoreAll
    { s with cmds := { s.cmds with restored := true } }

/-- SUPERVISOR_ACTIVE (R445, R446, R450, R456): the firmware's state taken over, at a core start the configuration restored;
a boot that tamper-hold stopped restores nothing. -/
def execSupervisorActive (s : State) : Host.Outcome State Fault Refusal :=
  done s (match s.svIn .starting with
    | some i =>
      if s.sup.romDone then
        let s := (s.setSv i .active)
        let s1 : State := { s with
          sup := { s.sup with wdAt := some s.time.total, recovery := true, ready := false, unsupStart := none, expired := false, limitMet := false
                              restartAt := none }
          cmds := { s.cmds with dark := s.cmds.dark + b2n (s.time.pos != 0) } }
        (if s1.tam.hold then s1 else s1.takeRole).markReplay
      else s
    | none => s)

/-- The notification of a restart or takeover (R441); no rule states the cause of a restart by `SV_CMD` alone. -/
def State.readyNotice (s : State) : State :=
  let s := match s.sup.bootKind with
    | .restart =>
      let s1 : State := { s with sup := { s.sup with lastCause := 5 } }
      let (free, s2) := s1.openResults
      let cause := if s2.sup.restartCause = 0 then free.headD 0 else word s2.sup.restartCause
      if s2.sup.restartCause = 3 then s2 else s2.notifyAll 0x8006 [cause, word s2.sup.ovlVer]
    | .coreStart => s
    | _ => s.notifyAll 0x8005 [word ((s.svIn .active).getD 0 + at_ 8 (b2n s.sup.nvmUsed)), word s.sup.ckptSeq]
  let s := if s.sup.restartCause = 3 then s.notifyAll 0x8006 [3, word s.sup.ovlVer] else s
  { s with sup := { s.sup with restartCause := 0 } }

/-- FIRMWARE_READY (R431, R433, R441, R447, R461). -/
def execFirmwareReady (s : State) : Host.Outcome State Fault Refusal :=
  done s (if s.supervised ∧ s.sup.ready = false then
    let s1 : State := { s with sup := { s.sup with ready := true, recovery := false } }
    let s := (s1.raise 0x0E 0).postKept.readyNotice
    let s := s.notifyAll 0x8008 [word s.cmds.dark]
    let last := if s.updState = 4 then some (s.time.total + s.rdf R.UPD_CFG 0 15 0 * sclkSec) else none
    { s with cmds := { s.cmds with dark := 0 }, sup := { s.sup with confirmEnd := last, rearmAt := some (s.time.total + 10 * sclkSec) } }
    else s)

/-- MGMT_RESTART_TIMEOUT (R447): 300 ms after the restart with no supervisor in `ACTIVE`. -/
def execMgmtRestartTimeout (s : State) : Host.Outcome State Fault Refusal :=
  done s (match s.sup.restartAt with
    | some t => if s.supervised then s else (s.waitTo (t + 450000000)).failNote 1
    | none => s)

/-- The slots that a returning supervisor wrote and that are older than the newest valid one, discarded (R448); none in
tamper-hold (R470). -/
def State.discardOlder (s : State) (i : Nat) : State :=
  match s.ckptNewest with
  | some n =>
    if s.tam.hold then s
    else
      (List.range 16).foldl (fun t k =>
        if s.ckptValid k ∧ fld (s.ckptWord k 5) 63 56 = i ∧ (s.ckptWord k 1).toNat < (s.ckptWord n 1).toNat then
          t.nvmWrite (ckptPlace k) (leBytes 8 0)
        else t) s
  | none => s

/-- QUALIFYING_BOOT_DONE (R448). -/
def execQualifyingBootDone (sv : Fin 2) (ok : Bool) (s : State) : Host.Outcome State Fault Refusal :=
  done s (if s.sv sv = .qualifying then
    if ok = false then
      let s := s.svFail sv
      { s with sup := { s.sup with qualFailover := false } }
    else if s.sup.qualFailover then
      let s := s.setSv sv .starting
      { s with sup := { s.sup with qualFailover := false, romDone := false } }
    else
      let seq := (s.ckptNewest.map fun n => (s.ckptWord n 1).toNat).getD 0
      let s := (s.discardOlder sv).setSv sv .standby
      ({ s with sup := { s.sup with validated := seq } } : State).raise 0x08 1
    else s)

/-- UNSUP_LIMIT_EXPIRY (R450). -/
def execUnsupLimitExpiry (s : State) : Host.Outcome State Fault Refusal :=
  done s (match s.sup.unsupStart with
    | some t => (s.waitTo (t + s.rdf R.UNSUP_LIMIT 0 16 0 * sclkSec)).unsupCheck
    | none => s)

/-- CHECKPOINT_DUE (R37, R78, R452, R453, R470): at least 1 s after the previous one began, or 8 s after it where nothing else
asks; the slot's word 0 is cleared first. Before the one of R37's step 3 the host's posted writes are applied. -/
def execCheckpointDue (s : State) : Host.Outcome State Fault Refusal :=
  let s := if s.sup.ckptDue = some 3 then s.drainPosted else s
  done s (if s.supervised = false ∨ s.tam.hold = true ∨ s.sup.ckptWriting.isSome = true then s
    else
      let cause := s.sup.ckptDue.getD 1
      let gap := if s.sup.ckptDue.isSome then 1 else 8
      let s := s.waitTo ((s.sup.ckptLast.map fun t => t + gap * sclkSec).getD (if gap = 8 then 8 * sclkSec else 0))
      let s1 : State := { s with sup := { s.sup with ckptWriting := some cause, ckptDue := none, ckptLast := some s.time.total } }
      s1.nvmWrite (ckptPlace ((s.sup.ckptSeq + 1) % 16)) (leBytes 8 0))

/-- CHECKPOINT_DONE (R452, R453). -/
def execCheckpointDone (ok : Bool) (s : State) : Host.Outcome State Fault Refusal :=
  done s (match s.sup.ckptWriting with
    | some c => if ok then s.ckptWrite c else s.ckptFail c
    | none => s)

/-- CONFIRM_TIMEOUT (R461); in tamper-hold no flag is written (R470). -/
def execConfirmTimeout (s : State) : Host.Outcome State Fault Refusal :=
  done s (match s.sup.confirmEnd with
    | some t =>
      if s.updState = 4 ∧ s.supervised = true ∧ s.tam.hold = false then
        let s := s.waitTo t
        let s := s.setFlag { s.flag.swapped with state := 0, boots := 0 }
        s.updNotice.restartFor 2
      else s
    | none => s)

/-- GATING_EFFECT (R466): the use has ended, or after 2 ms what remains of it is answered with errors. -/
def execGatingEffect (page : Fin 128) (s : State) : Host.Outcome State Fault Refusal :=
  done s (match s.sup.gates.find? fun g => g.page == page.val with
    | some g =>
      if s.secureUse page = true ∧ s.time.total < g.since + 3000000 then s
      else
      let s := (s.secureTxns page).foldl (fun s id => s.respond id true false []) s
      let s1 : State := { s with sup := { s.sup with gates := s.sup.gates.filter fun g => g.page != page.val } }
      (s1.ctrlPut page (clrBit (s1.hdr page hCtrl) 0)).raise 0x08 3
    | none => s)

/-- DEBUG_UNLOCK (R467): 97 bytes written to the unlock data register, which the TAP's instruction selects (R518). -/
def execDebugUnlock (bytes : List Byte) (s : State) : Host.Outcome State Fault Refusal :=
  done s (if s.test.tap = 0x10 ∧ bytes.length = 97 ∧ s.pwr.porN = true then s.debugTry bytes else s)

/-- Whether a source can have a condition now (R468). -/
def State.tamperSeen (s : State) (k : Nat) : Bool :=
  s.pwr.state != .off &&
    (match k with
    | 0 => s.pwr.feedA
    | 1 => s.pwr.feedB
    | 2 => s.pwr.state == .run || s.pwr.state == .idle
    | _ => true)

/-- TAMPER_CONDITION (R468, R469). -/
def execTamperCondition (k : Fin 7) (s : State) : Host.Outcome State Fault Refusal :=
  done s (if s.tamperSeen k then s.tamper k (k.val == 6) else s)

/-- NVM_ERASE_DONE (R474). -/
def execNvmEraseDone (s : State) : Host.Outcome State Fault Refusal :=
  done s (match s.nv.erasing with
    | some i =>
      let s := s.nvmWrite (0x400000 * i) (bytesFrom Config.erasedByte (0x400000 * i) 0x400000)
      { s with nv := { s.nv with erasing := none } }
    | none => s)

end Sys2Proof.Machine
end

