-- ==== Sys2Proof/Machine/SalRows.lean ====
section
/-! DEFINITION. The meanings of the salinometer's rows that no register write sends (spec/17). -/

namespace Sys2Proof.Machine

/-- The dwell in progress followed to its last sample: whether the samples given are its samples, and the clock has reached the
last one. -/
def State.dwellOver (s : State) (codes : List RawCode) : Bool :=
  codes.length == s.sal.count && decide (s.sal.lastHalf ≤ 2 * s.time.total + 1)

/-- SAL_ENTRY_START (R480). -/
def execSalEntryStart (s : State) : Host.Outcome State Fault Refusal :=
  done s s.delayOver.entryDue

/-- SAL_DWELL_END (R480, R485): one raw code for each sample. -/
def execSalDwellEnd (codes : List RawCode) (s : State) : Host.Outcome State Fault Refusal :=
  let t := (s.toTotal (s.sal.lastHalf / 2)).salSettle
  done s (if t.sal.phase = .dwelling ∧ t.dwellOver codes = true then (t.dwellEnd codes).dwellNext else s)

/-- SAL_DELAY_END (R480). -/
def execSalDelayEnd (s : State) : Host.Outcome State Fault Refusal :=
  done s (if s.sal.phase = .delay then (s.toTotal (s.sal.t0 / 2)).delayOver else s)

/-- A trigger's time (R481). -/
def State.trigStamp (s : State) : State := s.wr R.TRIG_TIME 0 (word s.nowSclk)

/-- A trigger latched, or lost (R481). -/
def State.trigLatch (s : State) : State :=
  if s.sal.trigPend then (s.countf R.SAL_CNT 0 47 32).raise 0x5B 3 else s.setSal fun x => { x with trigPend := true }

/-- TRIG_IN_EDGE (R481). -/
def execTrigInEdge (s : State) : Host.Outcome State Fault Refusal :=
  done s (if s.enabled 0x5B then
    let s := s.salSettle.trigStamp
    if s.sal.phase = .trigWait ∧ s.sal.t0 ≤ 2 * s.time.total then
      let now := s.time.total
      (s.setSal fun x => { x with phase := .dwelling, trig := true }).salBegin (2 * (now + 4))
    else s.trigLatch
    else s)

/-- A schedule request that issues now (R482). -/
def State.schedUrgent (s : State) (w : Word) : State :=
  match s.sal.urg with
  | some (true, _) =>
    if s.sal.urgS.isSome then (s.countf R.SAL_CNT 0 31 16).raise 0x5B 4 else s.setSal fun x => { x with urgS := some w }
  | some (false, h) => (s.setSal fun x => { x with urgH := some h }).urgStart true w s.time.total
  | none => s.urgStart true w s.time.total

/-- SAL_SCHED_REQUEST (R482): at the slot and offset of `SAL_CAL` in a chosen tide. -/
def execSalSchedRequest (s : State) : Host.Outcome State Fault Refusal :=
  let w := s.rd R.SAL_CAL
  let at_ := 256 * fld w 58 47 + fld w 46 39
  done s (if s.image.isSome ∧ bit w 63 = true ∧ s.enabled 0x5B = true ∧ s.time.tide % 2 ^ fld w 62 59 = 0 ∧ s.time.pos ≤ at_ then
    (s.pass (at_ - s.time.pos)).salSettle.schedUrgent w
    else s)

/-- URGENT_DONE (R483, R485). -/
def execUrgentDone (codes : List RawCode) (s : State) : Host.Outcome State Fault Refusal :=
  let t := s.toTotal (s.sal.lastHalf / 2)
  done s (if t.sal.urg.isSome ∧ t.dwellOver codes = true then
    let next := t.sal.lastHalf / 2 + 1
    (((t.dwellEnd codes).toTotal next).urgNext next)
    else s)

/-- The coefficient registers updated from the estimates, with the junction's temperature; the slices that `LOWPWR` stops keep
theirs (R477, R478). -/
def State.sliceUpdate (s : State) (slices : List Word) : State :=
  let n := if s.sal.lowPwr then 2 else 4
  let s := (List.range n).foldl (fun s k =>
    s.wr R.SLICE 0 (setFld (slices.getD k (s.rd R.SLICE 0 k) &&& 0x00FFFFFFFF00FFFF#64) 63 56 s.pwr.junction.toNat) k) s
  s.wr R.CAL_STAT 0 (satFld (s.rd R.CAL_STAT) 63 32 1)

/-- SAL_CONVERGED (R477): the estimates reached; frozen or unused coefficients are not updated. -/
def execSalConverged (slices : List Word) (s : State) : Host.Outcome State Fault Refusal :=
  done s (if s.enabled 0x5B then
    let s := if s.rdf R.SAL_XCFG 0 1 0 = 0 then s.sliceUpdate slices else s
    let now := s.time.total
    (s.wrb R.CAL_STAT 0 0 true).setSal fun x => { x with uncal := x.uncal && decide (x.t0 < 2 * now) }
    else s)

/-- CAL_STALE (R477): at a junction reading. -/
def execCalStale (t : BitVec 8) (s : State) : Host.Outcome State Fault Refusal :=
  done s (if s.calFar t.toInt then s.reading t else s)

end Sys2Proof.Machine
end

