-- ==== Sys2Proof/Machine/DiagRows.lean ====
section
/-! DEFINITION. The meanings of the rows of the bittern's collector and summary, of the self-test and of the test access port
(spec/19). -/

namespace Sys2Proof.Machine

/-- BITTERN_RECORD (R505 to R510): in the RCLK in which the collector records next. -/
def execBitternRecord (s : State) : Host.Outcome State Fault Refusal :=
  done s (match s.bitt.nextAt with
    | some r => (s.waitTo (6 * r)).collect
    | none => s)

/-- SUMMARY_WRITE (R511): at least 60 s after the previous one; none in tamper-hold (R470). -/
def execSummaryWrite (s : State) : Host.Outcome State Fault Refusal :=
  done s (if s.bitt.sumDue ∧ s.supervised = true ∧ s.tam.hold = false then
    (s.waitTo ((s.bitt.sumLast.map fun t => (t + 60) * sclkSec).getD 0)).writeSummary
    else s)

/-- BIST_DONE (R517): the elements that failed. -/
def execBistDone (failing : List Nat) (s : State) : Host.Outcome State Fault Refusal := done s (s.bistEnd failing)

/-- Instructions that hold the core in reset (R519). -/
def holdOp (op : BitVec 8) : Bool := op == 0x00 || op == 0x03 || op == 0x04 || op == 0x05 || op == 0x06

/-- A TAP instruction made current: the core held or let go (R519). -/
def State.tapTo (s : State) (op : BitVec 8) : State :=
  let was := holdOp s.test.tap
  let s1 : State := { s with test := { s.test with tap := op } }
  if holdOp op ∧ was = false then s1.scanDown
  else if was ∧ holdOp op = false then s1.scanUp
  else s1

/-- The 32 bits of the `IDCODE` data register (R518). -/
def State.idcode (s : State) : Nat := at_ 28 1 + at_ 12 0x4810 + at_ 1 s.nv.otp.manufacturer.toNat + 1

/-- The data registers of the test access port (R518). -/
inductive TapReg where
  /-- The boundary register. -/
  | boundary
  /-- The 32 bits of `IDCODE`. -/
  | idcode
  /-- One bit. -/
  | bypass
  /-- The debug port with the unlock data register (R467). -/
  | debugPort
  deriving DecidableEq, Repr

/-- The data register that an instruction selects (R518). -/
def tapReg (op : BitVec 8) : TapReg :=
  if op = 0x00 ∨ op = 0x01 ∨ op = 0x05 ∨ op = 0x06 then .boundary
  else if op = 0x02 then .idcode
  else if op = 0x10 then .debugPort
  else .bypass

/-- What the instruction register captures (R518). -/
def tapCapture : BitVec 8 := 0x01

/-- The pins of the boundary register (R519). -/
inductive BoundaryPin where
  /-- The transmit pair of a lane. -/
  | laneTx (lane : Nat)
  /-- The receive pair of a lane. -/
  | laneRx (lane : Nat)
  /-- The transmit pair of a PCIe lane. -/
  | pcieTx (lane : Nat)
  /-- The receive pair of a PCIe lane. -/
  | pcieRx (lane : Nat)
  /-- A pad of GPIO: 0 input, 1 output, 2 output enable. -/
  | gpio (pad part : Nat)
  /-- SYNC_OUT (0) or PPS_OUT (1): 0 output, 1 enable. -/
  | timeOut (pin part : Nat)
  /-- TRIG_IN, SYNC_IN, PPS_A, PPS_B, WARM_N, PERST_N, in that order; observe only. -/
  | input (pin : Nat)
  /-- SB_SCL, SB_SDA, ALERT_N, in that order: 0 input, 1 drive low. -/
  | openDrain (pin part : Nat)
  /-- POR_N, REFA, REFB, XO, PCIE_REFCLK, in that order; observe only. -/
  | reference (pin : Nat)
  deriving DecidableEq, Repr

/-- The pin of a cell of the boundary register, cell 0 nearest TDO; it has 2,149 cells (R519). -/
def boundaryPin (cell : Nat) : Option BoundaryPin :=
  if cell < 2048 then some (if cell % 2 = 0 then .laneTx (cell / 2) else .laneRx (cell / 2))
  else if cell < 2080 then
    some (if cell % 2 = 0 then .pcieTx ((cell - 2048) / 2) else .pcieRx ((cell - 2048) / 2))
  else if cell < 2128 then some (.gpio ((cell - 2080) / 3) ((cell - 2080) % 3))
  else if cell < 2132 then some (.timeOut ((cell - 2128) / 2) ((cell - 2128) % 2))
  else if cell < 2138 then some (.input (cell - 2132))
  else if cell < 2144 then some (.openDrain ((cell - 2138) / 2) ((cell - 2138) % 2))
  else if cell < 2149 then some (.reference (cell - 2144))
  else none

/-- The length of the data register in force, where the spec states one (R518, R519). -/
def State.tapLength (s : State) : Option Nat :=
  match tapReg s.test.tap with
  | .boundary => some 2149
  | .idcode => some 32
  | .bypass => some 1
  | .debugPort => none

/-- TAP_INSTRUCTION (R518, R519). -/
def execTapInstruction (op : BitVec 8) (s : State) : Host.Outcome State Fault Refusal :=
  let s := if holdOp op ∧ holdOp s.test.tap = false then s.drained else s
  done s (s.tapTo op)

/-- TRST_N_ASSERT (R518): Test-Logic-Reset with `IDCODE` selected. -/
def execTrstNAssert (s : State) : Host.Outcome State Fault Refusal := done s (s.tapTo 0x02)

end Sys2Proof.Machine
end

