-- ==== Sys2Proof/Machine/Saltern.lean ====
section
/-! DEFINITION. What the events of a saltern do (spec/18). -/

namespace Sys2Proof.Machine

/-- LSA_ORIGINATE (R492). -/
def execLsaOriginate (s : State) : Host.Outcome State Fault Refusal :=
  let s1 := { s with mesh := { s.mesh with ownSeq := (s.mesh.ownSeq + 1) % 2 ^ 32 } }
  done s (if s.meshZ = 0 ∨ s.enabled 0x5D = false then s else s1.flood none (openCell 2 (ctlWord 1 s.meshSelf) s1.lsaPayload))

/-- LSA_RECEIVE (R162, R492, R497): an arriving `LSA` cell. -/
def execLsaReceive (q : Fin 256) (cell : List Word) (s : State) : Host.Outcome State Fault Refusal :=
  done s (if s.lkUp q ∧ cell.length = 32 ∧ cellType cell = 2 ∧ fld (cellWord cell 1) 63 56 = 1 then
    s.controlRx q cell s.phase16 s.phase16 s.phase16 else s)

/-- LSA_EXPIRY (R492): an origin's `LSA` that was accepted 500 µs ago is no longer held. -/
def execLsaExpiry (k : Fin 64) (s : State) : Host.Outcome State Fault Refusal :=
  done s (if (s.lsaHeld k).isSome then s else { s with mesh := { s.mesh with lsas := pset s.mesh.lsas k none } })

/-- ALIGN_EXCHANGE (R493): an `ALIGN_REQ` toward the leader. -/
def execAlignExchange (s : State) : Host.Outcome State Fault Refusal :=
  done s (if s.meshZ ≠ 0 ∧ s.alignSrc = 2 ∧ s.leader ≠ s.meshSelf then
    match s.routeTo s.leader with
    | some q => s.queueCell q (openCell 2 (ctlWord 2 s.meshSelf) (leBytes 4 s.phase16))
    | none => s
    else s)

/-- ALIGN_REQ (R162, R493): answered with `ALIGN_RSP`. -/
def execAlignReq (q : Fin 256) (cell : List Word) (t2 t3 : BitVec 24) (s : State) : Host.Outcome State Fault Refusal :=
  done s (if s.lkUp q ∧ cell.length = 32 ∧ cellType cell = 2 ∧ fld (cellWord cell 1) 63 56 = 2 then
    s.controlRx q cell t2.toNat t3.toNat 0 else s)

/-- ALIGN_RSP (R162, R493, R494): a measurement. -/
def execAlignRsp (q : Fin 256) (cell : List Word) (t4 : BitVec 24) (s : State) : Host.Outcome State Fault Refusal :=
  done s (if s.lkUp q ∧ cell.length = 32 ∧ cellType cell = 2 ∧ fld (cellWord cell 1) 63 56 = 3 then
    s.controlRx q cell 0 0 t4.toNat else s)

/-- SYNC_IN_EDGE (R493, R494): the member's tide phase at the edge, in 1/16 SCLK, less `SYNC_DLY`. -/
def execSyncInEdge (phase : Int) (s : State) : Host.Outcome State Fault Refusal :=
  let dly := sfld (s.rd R.ALIGN_CFG) 39 8 * 3 / 125
  done s (if s.meshZ ≠ 0 ∧ s.alignSrc = 1 then s.alignTake (wrapOfs (-(phase - dly))) else s)

/-- ALIGN_TIMEOUT (R494): no measurement for 1 ms clears `ALIGNED`. -/
def execAlignTimeout (s : State) : Host.Outcome State Fault Refusal :=
  done s s.alignLapse

/-- MESH_REQUEST (R500): a transaction to a mesh window is granted and carried. -/
def execMeshRequest (r : XbarReq) (s : State) : Host.Outcome State Fault Refusal :=
  let (id, s1) := s.request r.master r.secure r.write r.addr.toNat r.len r.data none .outside
  done s (match pget s1.xbar.txns id with
    | some t => if t.port = 7 then s1.grant id t else s
    | none => s)

/-- MESH_SERVE (R501): the oldest request cell for this member is checked and served through the heap bridge. -/
def execMeshServe (s : State) : Host.Outcome State Fault Refusal :=
  done s (match takeFirst isRequest s.mesh.inbox with
    | none => s
    | some ((q, c), rest) =>
      let w := cellWord c 1
      let s := { s with mesh := { s.mesh with inbox := rest } }.freeBuf q 3
      let write := fld w 63 62 = 1
      let master := fld w 59 56
      let src := fld w 55 50
      let sec := bit w 60
      let a := fld w 39 0
      let tag := cellField c 16 2 % 4096
      let len := if write then fld (cellWord c 0) 43 32 - 8 else cellField c 18 2
      let data := ((cellBytes c).drop 24).take len
      let deny := fun (s : State) => s.meshRespond src tag master write sec true a []
      if heapBytes ≤ a then deny s
      else
        match s.fwRefusal master sec write a len with
        | some (cause, rule) => deny (s.fwDenied master write sec cause rule a)
        | none =>
          let (id, s) := s.request master sec write a len data none (.mesh src tag master)
          match pget s.xbar.txns id with
          | some t =>
            let s := s.setTxn id (some { t with gen := some (s.rdf R.FW_GEN 0 31 0), addr := a, port := 0 })
            if write ∧ s.weightRefused a len then (s.count R.WT_REFUSED 0).respond id true false []
            else s.heapAccept id
          | none => s)

/-- MESH_RESPONSE (R501): the oldest response cell for this member completes its part of a transaction. -/
def execMeshResponse (s : State) : Host.Outcome State Fault Refusal :=
  done s (match takeFirst (fun c => !isRequest c) s.mesh.inbox with
    | none => s
    | some ((q, c), rest) =>
      let w := cellWord c 1
      let s := { s with mesh := { s.mesh with inbox := rest } }.freeBuf q 3
      s.meshDone (cellField c 16 2 % 4096) (bit w 61) ((cellBytes c).drop 24))

/-- MESH_TIMEOUT (R501): no response within `MESH_TMO` µs. -/
def execMeshTimeout (tag : Fin 4096) (s : State) : Host.Outcome State Fault Refusal :=
  done s (match pget s.mesh.tags tag with
    | some m =>
      if m.since + 1500 * s.rdf R.MESH_TMO 0 15 0 ≤ s.time.total then (s.countf R.MESH_ERR 0 63 48).meshDone tag true [] else s
    | none => s)

end Sys2Proof.Machine
end

