-- ==== Sys2Proof/Machine/Slots.lean ====
section
/-! DEFINITION. Scheduled slots and what they deliver (spec/05, 06, 07): heap slots, released cells, transmit slots of
links, and the sluice's conditioning of samples. -/

namespace Sys2Proof.Machine

/-- A producer's block, complete with its header and not yet notified (R341). -/
def State.blockDone (s : State) (prod idx addr len : Nat) : State :=
  { s with pans := { s.pans with blocks := s.pans.blocks ++ [(64 * prod + idx, addr, len)] } }

/-- A rake's write that R138 discarded sets `LOSTALL` (R302); one that reached a controller that cannot serve is only
gone (R236). -/
def State.rakeWriteLost (s : State) (k : Nat) (d : Delivery) : State :=
  if d.poison ∧ d.data = [] then s.setRk k { s.rk k with lostAll := true } else s

/-- What a scheduled transfer delivers, taken by its unit (R122, R238). `start` is the slot's first SCLK on the data
path. -/
def State.takeDelivery (s : State) (start : Nat) (d : Delivery) : State :=
  match d.dest with
  | .none => s
  | .feeder f entry pos => s.feedData f (xferTime start d.k) entry pos d.data d.poison d.mark
  | .delayRead slot b => s.dlyReadDone (xferTime start d.k) slot b d.data d.poison
  | .delayWrite slot b => s.dlyWritten (start + 28 + 3 * d.k) slot b d.data d.poison
  | .rake k b idx => s.rakeGot k b idx (s.hclk (2 * start) + 3 * (27 + 2 * d.k)) d.data d.poison
  | .rakeWrite k => s.rakeWriteLost k d
  | .dumpHeader k a n =>
    if d.poison then s.rakeWriteLost k d else (s.count R.RK_DUMPS (4 * k)).blockDone 0 k a n
  | .beamWrite r => s.writerFreed r
  | .beamBlock r kind a n => if d.poison then s.writerFreed r else (s.writerFreed r).blockDone kind r a n
  | .fragment e i => s.fragmentRead (xferTime start d.k) e i d.data d.poison

/-- HEAP_SLOT_TRANSFER (R122, R123, R138, R233, R235 to R238): the scheduled transfers of a pseudo-channel's slot, and
what they deliver. -/
def execHeapSlotTransfer (j : Fin 512) (slot : Fin 4096) (ecc : List EccObs) (seqFail : Bool) (s : State) :
    Host.Outcome State Fault Refusal :=
  done s (
    let t := s.atSlot slot
    let start := t.slotStart slot
    let (t, ds) := t.slotTransfers j slot start ecc seqFail
    let t := if seqFail then t.dropUnserved (j.val / 2) else t
    (ds.foldl (fun t d => t.takeDelivery start d) t).unitsNow)

/-- A released cell handed to its unit (R159). -/
def State.takeCell (s : State) (q : Nat) (ws : List Word) : State :=
  if cellType ws = 1 then s.intake ws
  else if cellType ws = 5 then (s.psIntake q ws).emit (.psum (fld (cellWord ws 0) 55 52) ws)
  else s

/-- CELL_RELEASE (R132, R138, R159, R314): the cells whose release comes next on a link. -/
def execCellRelease (q : Fin 256) (s : State) : Host.Outcome State Fault Refusal :=
  done s (
    match (s.lk q).nextRelease with
    | none => s
    | some t =>
      let s := s.toSclk t
      if s.nowSclk < t then s
      else
        let (s, cells) := s.takeReleased q t
        cells.foldl (fun s c => s.takeCell q c) s)

/-- Up to `n` exported cells of a quad that its slot cannot carry, dropped and counted (R138, R167). -/
def State.dropPsums (s : State) (q : Nat) : Nat → State
  | 0 => s
  | n + 1 =>
    match s.psNext q s.imgNow with
    | some (s, _) => (s.linkBreach q).dropPsums q n
    | none => s

/-- Up to `n` exported cells of a quad sent (R313). -/
def State.sendPsums (s : State) (q : Nat) : Nat → State
  | 0 => s
  | n + 1 =>
    match s.psNext q s.imgNow with
    | some (s, c) => (s.putCell q (sealCell c false)).sendPsums q n
    | none => s

/-- LINK_TX_SLOT (R131, R138, R141, R148 to R152, R156, R160 to R163, R167, R173, R313): a transmit slot of a link. `rx` are the
blocks that it has received by then. A link that is up lists an `IDLE` block of each lane, its open request if it has one, and the
slot's cells; of the cells that a slot of `WIDTH_MAX` carries, those beyond its own width are not sent (DESIGN CHOICE,
notes/assumptions/269.md and 270.md). -/
def execLinkTxSlot (q : Fin 256) (slot : Fin 4096) (rx : List LaneBlock) (s : State) : Host.Outcome State Fault Refusal :=
  done s (
    let s := (s.atSlot slot).blocksRx q rx
    if !s.lkUp q then s.trainSend q
    else
      let s := (s.blkSync q).sendIdle q
      let s := if s.lkNeg q = 1 then s.sendNeg q (s.lk q).kind.code (s.lk q).target (s.lk q).token else s
      let n := slotCells (s.rdf R.QUAD_MODE q 9 8) (s.lkWidth q)
      match s.classAt 3 q slot with
      | some .unit =>
        (s.sendPsums q n).dropPsums q (slotCells (s.rdf R.QUAD_MODE q 9 8) (s.rdf R.LINK_CFG q 1 0) - n)
      | some .open_ =>
        let r := s.sendOpens q (max 1 n)
        if s.sched.stress then r.1.sendFillers q (n - r.2) else r.1
      | _ => s)

/-- CORRECTED_SAMPLE (R190 to R199): corrected sample m of every bound slot of a unit, at m × P + `LAG`. -/
def execCorrectedSample (u : Fin 256) (m : Nat) (s : State) : Host.Outcome State Fault Refusal :=
  done s (
    let ws := s.sluProg u
    let t := m * sluP ws + sluLag ws
    let s := s.toSclk t
    if s.nowSclk < t ∨ (s.sluUnit u).bad = true then s
    else (sluSlots ws).foldl (fun s k => if (s.slt u k).last.all (fun l => decide (l < m)) then s.corrected u k m else s) s)

/-- LEVEL_BLOCK (R207 to R209). -/
def execLevelBlock (u : Fin 256) (k : Fin 16) (s : State) : Host.Outcome State Fault Refusal :=
  done s (if (sluBind (s.sluProg u) k).isSome ∧ (s.sluUnit u).bad = false then s.levelBlock u k else s)

/-- SPECTRUM_COMPLETE (R186, R201 to R214, R241, R242). -/
def execSpectrumComplete (u : Fin 256) (j : Nat) (s : State) : Host.Outcome State Fault Refusal :=
  done s (
    if (sluSlots (s.sluProg u)).isEmpty ∧ (s.sluUnit u).bad = false then s
    else (s.toSclk (s.specTime u j)).spectrum u j)

/-- BLOCK_NOTIFY (R341): the producer's oldest completed block, notified to every source that names it. -/
def execBlockNotify (p : Producer) (s : State) : Host.Outcome State Fault Refusal :=
  let (prod, idx) : Nat × Nat := match p with
    | .dump k => (0, k.val)
    | .voltage r => (1, r.val)
    | .resample r => (2, r.val)
  done s (
    match s.pans.blocks.find? fun b => b.1 = 64 * prod + idx with
    | some b =>
      let s := { s with pans := { s.pans with blocks := s.pans.blocks.erase b } }
      (List.range 32).foldl State.readNext (s.notice prod idx b.2.1 b.2.2)
    | none => s)

/-- ETH_LINK_UP (R333): an enabled, bound port that is `STARTING`, with no PRBS on its lanes, becomes `ACTIVE`. -/
def execEthLinkUp (e : Fin 32) (eee : Bool) (s : State) : Host.Outcome State Fault Refusal :=
  done s (
    if s.ethState e = 1 ∧ !s.rdb R.ETH_STAT e 13 then
      let w := s.rd R.ETH_STAT e
      let agreed := eee && s.rdb R.ETH_CFG e 32
      (s.wr R.ETH_STAT e (setFld (setFld w 10 8 (3 + 4 * b2n agreed)) 3 0 3)).raise (ethPage e) 0
    else s)

/-- ETH_LINK_DOWN (R333). -/
def execEthLinkDown (e : Fin 32) (s : State) : Host.Outcome State Fault Refusal :=
  done s (if s.ethState e = 3 then s.ethDown e else s)

/-- ETH_FRAME_RECEIVE (R335 to R338, R347): a port that is `ACTIVE` takes the frame. -/
def execEthFrameReceive (e : Fin 32) (frame : List Byte) (obs : FrameObs) (s : State) : Host.Outcome State Fault Refusal :=
  done s (if s.ethState e = 3 then s.rxFrame e frame obs else s)

/-- RING_HOLDOFF_EXPIRY (R354): `IRQ_HOLDOFF` µs after the first unsignalled progress. -/
def execRingHoldoffExpiry (r : Fin 4096) (s : State) : Host.Outcome State Fault Refusal :=
  done s (
    let g := s.ring r
    let h := fld g.d2 15 0
    if g.since.any (fun t => decide (t + 1500 * h ≤ s.time.total)) ∧ bit g.d2 41 = true ∧ h ≠ 0 then s.ringSignal r else s)

/-- ETH_RING_FRAME_TX (R339, R340, R347): the port's transmit reader carried as far as what has come allows. -/
def execEthRingFrameTx (e : Fin 32) (s : State) : Host.Outcome State Fault Refusal :=
  done s (if s.ethState e = 3 then s.txStep e else s)

/-- BRYNIZ_PACKET_SEND (R334, R343 to R345). -/
def execBrynizPacketSend (e : Fin 32) (s : State) : Host.Outcome State Fault Refusal := done s (s.brynizSend e)

/-- A transmitter into low-power idle, or the peer in it, as its condition says (R348). -/
def State.lpiEnter (s : State) (e : Fin 32) (peer : Bool) : State :=
  if s.ethState e = 3 ∧ s.rdb R.ETH_CFG e 32 = true ∧ s.rdb R.ETH_STAT e 10 = true then
    if peer then s.wrb R.ETH_STAT e 12 true
    else if !s.txWaiting e ∧ (s.port e).lastReady + 1500 * s.rdf R.ETH_CFG e 31 16 ≤ s.time.total
      ∧ !s.hasUnit 2 e ∧ !s.unitComing e then s.wrb R.ETH_STAT e 11 true
    else s
  else s

/-- A transmitter out of low-power idle, or the peer out of it (R348). -/
def State.lpiLeave (s : State) (e : Fin 32) (peer : Bool) : State :=
  if peer then (if s.rdb R.ETH_STAT e 12 then s.wrb R.ETH_STAT e 12 false else s)
  else if s.txWaiting e || s.unitComing e then s.lpiWake e else s

/-- LPI_ENTRY (R348): the transmitter enters low-power idle, or the peer signals that it has (DESIGN CHOICE,
notes/assumptions/273.md). -/
def execLpiEntry (e : LpiSide) (s : State) : Host.Outcome State Fault Refusal :=
  done s (s.lpiEnter e.port e.peer)

/-- LPI_EXIT (R348): a ready frame, or a pending swap to an image that schedules the port; or the peer signals its wake. -/
def execLpiExit (e : LpiSide) (s : State) : Host.Outcome State Fault Refusal :=
  done s (s.lpiLeave e.port e.peer)

end Sys2Proof.Machine
end

