-- ==== Sys2Proof/Machine/Dispatch.lean ====
section
/-! DEFINITION. One arm for each command: a direct call of its meaning. -/

namespace Sys2Proof.Machine

def exec (i : Instr) (s : State) : Host.Outcome State Fault Refusal :=
  match i with
  | .tideBoundary => Sys2Proof.Machine.execTideBoundary s
  | .shadowSetAdoption => Sys2Proof.Machine.execShadowSetAdoption s
  | .feedQualified f => Sys2Proof.Machine.execFeedQualified f s
  | .feedDisqualified f => Sys2Proof.Machine.execFeedDisqualified f s
  | .railStart r => Sys2Proof.Machine.execRailStart r s
  | .railQualified r => Sys2Proof.Machine.execRailQualified r s
  | .step3QualTimeout => Sys2Proof.Machine.execStep3QualTimeout s
  | .seqHoldRelease => Sys2Proof.Machine.execSeqHoldRelease s
  | .porNAssert => Sys2Proof.Machine.execPorNAssert s
  | .warmNAssert t => Sys2Proof.Machine.execWarmNAssert t s
  | .warmNRelease => Sys2Proof.Machine.execWarmNRelease s
  | .perstNAssert => Sys2Proof.Machine.execPerstNAssert s
  | .bootComplete => Sys2Proof.Machine.execBootComplete s
  | .coreRailLoss r => Sys2Proof.Machine.execCoreRailLoss r s
  | .vanaLoss => Sys2Proof.Machine.execVanaLoss s
  | .vanaRestore => Sys2Proof.Machine.execVanaRestore s
  | .vaonBothLost => Sys2Proof.Machine.execVaonBothLost s
  | .runEntry => Sys2Proof.Machine.execRunEntry s
  | .panRowUngate => Sys2Proof.Machine.execPanRowUngate s
  | .idleEntry => Sys2Proof.Machine.execIdleEntry s
  | .standbyReady => Sys2Proof.Machine.execStandbyReady s
  | .dryModeRowStart r => Sys2Proof.Machine.execDryModeRowStart r s
  | .dryModeRowStop r => Sys2Proof.Machine.execDryModeRowStop r s
  | .tempWarning t => Sys2Proof.Machine.execTempWarning t s
  | .tempOutOfRange t => Sys2Proof.Machine.execTempOutOfRange t s
  | .thermalTrip t => Sys2Proof.Machine.execThermalTrip t s
  | .lowTempHold t => Sys2Proof.Machine.execLowTempHold t s
  | .lowTempRelease t => Sys2Proof.Machine.execLowTempRelease t s
  | .pinOvercurrentDisable p => Sys2Proof.Machine.execPinOvercurrentDisable p s
  | .pinRetryReenable p => Sys2Proof.Machine.execPinRetryReenable p s
  | .pinContention ps => Sys2Proof.Machine.execPinContention ps s
  | .pinMismatch p => Sys2Proof.Machine.execPinMismatch p s
  | .pinOeWrite a v => Sys2Proof.Machine.execPinOeWrite a v s
  | .registerWrite ws => Sys2Proof.Machine.execRegisterWrite ws s
  | .groupHeadRead a page off => Sys2Proof.Machine.execGroupHeadRead a page off s
  | .groupHeldWrite w => Sys2Proof.Machine.execGroupHeldWrite w s
  | .groupHeadWrite w => Sys2Proof.Machine.execGroupHeadWrite w s
  | .pgCtrlWrite a page v => Sys2Proof.Machine.execPgCtrlWrite a page v s
  | .pgOwnerWrite a page v => Sys2Proof.Machine.execPgOwnerWrite a page v s
  | .postedWriteApply => Sys2Proof.Machine.execPostedWriteApply s
  | .loadStart a store => Sys2Proof.Machine.execLoadStart a store s
  | .loadCheckDone us => Sys2Proof.Machine.execLoadCheckDone us s
  | .loadClear a store => Sys2Proof.Machine.execLoadClear a store s
  | .storeWindowWrite master store off data => Sys2Proof.Machine.execStoreWindowWrite master store off data s
  | .armCommit a v => Sys2Proof.Machine.execArmCommit a v s
  | .armCancel a => Sys2Proof.Machine.execArmCancel a s
  | .armWithdrawal => Sys2Proof.Machine.execArmWithdrawal s
  | .swap => Sys2Proof.Machine.execSwap s
  | .dataPathHalt => Sys2Proof.Machine.execDataPathHalt s
  | .epochOpen => Sys2Proof.Machine.execEpochOpen s
  | .heapSlotTransfer j slot ecc seqFail => Sys2Proof.Machine.execHeapSlotTransfer j slot ecc seqFail s
  | .openSlotService j slot ecc => Sys2Proof.Machine.execOpenSlotService j slot ecc s
  | .heapOpenRequest r qos => Sys2Proof.Machine.execHeapOpenRequest r qos s
  | .refreshStep j slot temp => Sys2Proof.Machine.execRefreshStep j slot temp s
  | .mitigateSlot j slot => Sys2Proof.Machine.execMitigateSlot j slot s
  | .trimSlot j slot pass => Sys2Proof.Machine.execTrimSlot j slot pass s
  | .heapTrainDone h sweeps temp => Sys2Proof.Machine.execHeapTrainDone h sweeps temp s
  | .caParityError h m => Sys2Proof.Machine.execCaParityError h m s
  | .hcCmdRetrain a stack => Sys2Proof.Machine.execHcCmdRetrain a stack s
  | .hcCmdClrAddr a stack => Sys2Proof.Machine.execHcCmdClrAddr a stack s
  | .hcCmdClrLost a stack => Sys2Proof.Machine.execHcCmdClrLost a stack s
  | .hcXcmdFreeze a stack => Sys2Proof.Machine.execHcXcmdFreeze a stack s
  | .brClearFirst a => Sys2Proof.Machine.execBrClearFirst a s
  | .linkTxSlot q slot rx => Sys2Proof.Machine.execLinkTxSlot q slot rx s
  | .cellRelease q => Sys2Proof.Machine.execCellRelease q s
  | .sampleCellRx q cell => Sys2Proof.Machine.execSampleCellRx q cell s
  | .psumCellRx q cell => Sys2Proof.Machine.execPsumCellRx q cell s
  | .controlCellRx q cell => Sys2Proof.Machine.execControlCellRx q cell s
  | .meshCellRx q cell => Sys2Proof.Machine.execMeshCellRx q cell s
  | .fillerCellRx q cell => Sys2Proof.Machine.execFillerCellRx q cell s
  | .nakReceived q ack => Sys2Proof.Machine.execNakReceived q ack s
  | .replayTimeout q => Sys2Proof.Machine.execReplayTimeout q s
  | .blockLockLost l => Sys2Proof.Machine.execBlockLockLost l s
  | .skewRetrain q => Sys2Proof.Machine.execSkewRetrain q s
  | .linkSignalDetect q => Sys2Proof.Machine.execLinkSignalDetect q s
  | .linkLockDone q => Sys2Proof.Machine.execLinkLockDone q s
  | .linkLockTimeout q locked => Sys2Proof.Machine.execLinkLockTimeout q locked s
  | .linkDeskewDone q r => Sys2Proof.Machine.execLinkDeskewDone q r s
  | .linkParamDone q serial peerQuad session width us => Sys2Proof.Machine.execLinkParamDone q serial peerQuad session width us s
  | .linkParamTimeout q => Sys2Proof.Machine.execLinkParamTimeout q s
  | .tsReceivedActive q => Sys2Proof.Machine.execTsReceivedActive q s
  | .negWidthReq q target token => Sys2Proof.Machine.execNegWidthReq q target token s
  | .negSleepReq q token => Sys2Proof.Machine.execNegSleepReq q token s
  | .negRetrainReq q token => Sys2Proof.Machine.execNegRetrainReq q token s
  | .negAck q token => Sys2Proof.Machine.execNegAck q token s
  | .negNak q token => Sys2Proof.Machine.execNegNak q token s
  | .negCommit q => Sys2Proof.Machine.execNegCommit q s
  | .negAbort q => Sys2Proof.Machine.execNegAbort q s
  | .negRequestLapse q => Sys2Proof.Machine.execNegRequestLapse q s
  | .lowUtilTimer q => Sys2Proof.Machine.execLowUtilTimer q s
  | .highUtilTrigger q => Sys2Proof.Machine.execHighUtilTrigger q s
  | .sleepIdleTimer q => Sys2Proof.Machine.execSleepIdleTimer q s
  | .wakeEvent q => Sys2Proof.Machine.execWakeEvent q s
  | .wakeBurstDetect q => Sys2Proof.Machine.execWakeBurstDetect q s
  | .peerIdleDetect q => Sys2Proof.Machine.execPeerIdleDetect q s
  | .linkWakeDone q us => Sys2Proof.Machine.execLinkWakeDone q us s
  | .linkCmdRetrain a page => Sys2Proof.Machine.execLinkCmdRetrain a page s
  | .linkCmdSleep a page => Sys2Proof.Machine.execLinkCmdSleep a page s
  | .linkCmdWake a page => Sys2Proof.Machine.execLinkCmdWake a page s
  | .linkCmdWidthUp a page => Sys2Proof.Machine.execLinkCmdWidthUp a page s
  | .laneCmdBitSlip a page => Sys2Proof.Machine.execLaneCmdBitSlip a page s
  | .laneCmdInjBurst a page => Sys2Proof.Machine.execLaneCmdInjBurst a page s
  | .laneCmdPrbsResync a page => Sys2Proof.Machine.execLaneCmdPrbsResync a page s
  | .prbsCtrlWrite a page v => Sys2Proof.Machine.execPrbsCtrlWrite a page v s
  | .prbsLockLost l => Sys2Proof.Machine.execPrbsLockLost l s
  | .quadModeWrite a page v => Sys2Proof.Machine.execQuadModeWrite a page v s
  | .eqAdapt l below here above => Sys2Proof.Machine.execEqAdapt l below here above s
  | .eqLimit l => Sys2Proof.Machine.execEqLimit l s
  | .correctedSample u m => Sys2Proof.Machine.execCorrectedSample u m s
  | .levelBlock u k => Sys2Proof.Machine.execLevelBlock u k s
  | .spectrumComplete u j => Sys2Proof.Machine.execSpectrumComplete u j s
  | .dmCommit a page k v => Sys2Proof.Machine.execDmCommit a page k v s
  | .gainCommit a page => Sys2Proof.Machine.execGainCommit a page s
  | .winCommit a page => Sys2Proof.Machine.execWinCommit a page s
  | .gainCopy a page k => Sys2Proof.Machine.execGainCopy a page k s
  | .winDefault a page => Sys2Proof.Machine.execWinDefault a page s
  | .streamReset a page k => Sys2Proof.Machine.execStreamReset a page k s
  | .clipClr a page k => Sys2Proof.Machine.execClipClr a page k s
  | .gainDataWrite a page v => Sys2Proof.Machine.execGainDataWrite a page v s
  | .winDataWrite a page v => Sys2Proof.Machine.execWinDataWrite a page v s
  | .wait u => Sys2Proof.Machine.execWait u s
  | .cstep p => Sys2Proof.Machine.execCstep p s
  | .bstep p => Sys2Proof.Machine.execBstep p s
  | .wload p => Sys2Proof.Machine.execWload p s
  | .wswap p => Sys2Proof.Machine.execWswap p s
  | .bank p => Sys2Proof.Machine.execBank p s
  | .drain p => Sys2Proof.Machine.execDrain p s
  | .fill p => Sys2Proof.Machine.execFill p s
  | .loop u => Sys2Proof.Machine.execLoop u s
  | .ctx p => Sys2Proof.Machine.execCtx p s
  | .waitat u => Sys2Proof.Machine.execWaitat u s
  | .halt u => Sys2Proof.Machine.execHalt u s
  | .fcfg f => Sys2Proof.Machine.execFcfg f s
  | .fread f => Sys2Proof.Machine.execFread f s
  | .fadv f => Sys2Proof.Machine.execFadv f s
  | .femit f => Sys2Proof.Machine.execFemit f s
  | .panXcmdPreempt a page => Sys2Proof.Machine.execPanXcmdPreempt a page s
  | .preemptBoundary p => Sys2Proof.Machine.execPreemptBoundary p s
  | .panXcmdResume a page => Sys2Proof.Machine.execPanXcmdResume a page s
  | .resumeBoundary p => Sys2Proof.Machine.execResumeBoundary p s
  | .panXcmdJobStart a page => Sys2Proof.Machine.execPanXcmdJobStart a page s
  | .panXcmdJobAbort a page => Sys2Proof.Machine.execPanXcmdJobAbort a page s
  | .opmDataWrite a page v => Sys2Proof.Machine.execOpmDataWrite a page v s
  | .jobDataWrite a page v => Sys2Proof.Machine.execJobDataWrite a page v s
  | .rbind k => Sys2Proof.Machine.execRbind k s
  | .rcfg k => Sys2Proof.Machine.execRcfg k s
  | .rxfer k => Sys2Proof.Machine.execRxfer k s
  | .rakeStreamEnd k t => Sys2Proof.Machine.execRakeStreamEnd k t s
  | .blockNotify p => Sys2Proof.Machine.execBlockNotify p s
  | .wtSelCommit a v => Sys2Proof.Machine.execWtSelCommit a v s
  | .resampleOutput u n nu => Sys2Proof.Machine.execResampleOutput u n nu s
  | .ethLinkUp e eee => Sys2Proof.Machine.execEthLinkUp e eee s
  | .ethLinkDown e => Sys2Proof.Machine.execEthLinkDown e s
  | .ethFrameReceive e frame obs => Sys2Proof.Machine.execEthFrameReceive e frame obs s
  | .ringHoldoffExpiry r => Sys2Proof.Machine.execRingHoldoffExpiry r s
  | .ethRingFrameTx e => Sys2Proof.Machine.execEthRingFrameTx e s
  | .brynizPacketSend e => Sys2Proof.Machine.execBrynizPacketSend e s
  | .lpiEntry e => Sys2Proof.Machine.execLpiEntry e s
  | .lpiExit e => Sys2Proof.Machine.execLpiExit e s
  | .ethCmdRestart a page => Sys2Proof.Machine.execEthCmdRestart a page s
  | .dstDataWrite a v => Sys2Proof.Machine.execDstDataWrite a v s
  | .dstCommit a => Sys2Proof.Machine.execDstCommit a s
  | .ringDoorbell a v => Sys2Proof.Machine.execRingDoorbell a v s
  | .xbarArbitration t => Sys2Proof.Machine.execXbarArbitration t s
  | .xbarResponse id => Sys2Proof.Machine.execXbarResponse id s
  | .chCmdStart a => Sys2Proof.Machine.execChCmdStart a s
  | .chCmdAbort a => Sys2Proof.Machine.execChCmdAbort a s
  | .chCmdClear a => Sys2Proof.Machine.execChCmdClear a s
  | .move c => Sys2Proof.Machine.execMove c s
  | .move2d c => Sys2Proof.Machine.execMove2d c s
  | .dmaLoop c => Sys2Proof.Machine.execDmaLoop c s
  | .dmaWait c => Sys2Proof.Machine.execDmaWait c s
  | .dmaWaitTimeout c => Sys2Proof.Machine.execDmaWaitTimeout c s
  | .signal c => Sys2Proof.Machine.execSignal c s
  | .fence c => Sys2Proof.Machine.execFence c s
  | .dmaEnd c => Sys2Proof.Machine.execDmaEnd c s
  | .dmaRetry c => Sys2Proof.Machine.execDmaRetry c s
  | .dmaChannelHalt c => Sys2Proof.Machine.execDmaChannelHalt c s
  | .dmaEvtSet a v => Sys2Proof.Machine.execDmaEvtSet a v s
  | .dmaEvtClr a v => Sys2Proof.Machine.execDmaEvtClr a v s
  | .pcieInboundRequest r => Sys2Proof.Machine.execPcieInboundRequest r s
  | .pcieInboundTimeout id => Sys2Proof.Machine.execPcieInboundTimeout id s
  | .pcieOutboundCompletion id status data => Sys2Proof.Machine.execPcieOutboundCompletion id status data s
  | .pcieCplTimeout id => Sys2Proof.Machine.execPcieCplTimeout id s
  | .msixUnmask v => Sys2Proof.Machine.execMsixUnmask v s
  | .sourceQualified k => Sys2Proof.Machine.execSourceQualified k s
  | .sourceDisqualified k => Sys2Proof.Machine.execSourceDisqualified k s
  | .freqWindow ppb => Sys2Proof.Machine.execFreqWindow ppb s
  | .sourceEligible k => Sys2Proof.Machine.execSourceEligible k s
  | .refSelection theta => Sys2Proof.Machine.execRefSelection theta s
  | .xoCheck ppm => Sys2Proof.Machine.execXoCheck ppm s
  | .pllLock => Sys2Proof.Machine.execPllLock s
  | .pllUnlock => Sys2Proof.Machine.execPllUnlock s
  | .holdoverLimit => Sys2Proof.Machine.execHoldoverLimit s
  | .holdoverSecond mean => Sys2Proof.Machine.execHoldoverSecond mean s
  | .netSlewDone => Sys2Proof.Machine.execNetSlewDone s
  | .tbMasterEdge => Sys2Proof.Machine.execTbMasterEdge s
  | .tbMasterLost => Sys2Proof.Machine.execTbMasterLost s
  | .tb0StepCommit a v => Sys2Proof.Machine.execTb0StepCommit a v s
  | .tb3StepCommit a v => Sys2Proof.Machine.execTb3StepCommit a v s
  | .tbSrcWrite a tb v => Sys2Proof.Machine.execTbSrcWrite a tb v s
  | .ptpSample a v => Sys2Proof.Machine.execPtpSample a v s
  | .ptpSampleTimeout => Sys2Proof.Machine.execPtpSampleTimeout s
  | .ppsOutEdge rise => Sys2Proof.Machine.execPpsOutEdge rise s
  | .commandTakeup c host => Sys2Proof.Machine.execCommandTakeup c host s
  | .commandEntryRetry c host => Sys2Proof.Machine.execCommandEntryRetry c host s
  | .nop c => Sys2Proof.Machine.execNop c s
  | .devInfo c => Sys2Proof.Machine.execDevInfo c s
  | .status c => Sys2Proof.Machine.execStatus c s
  | .timeRead c => Sys2Proof.Machine.execTimeRead c s
  | .sessionOpen c => Sys2Proof.Machine.execSessionOpen c s
  | .sessionAuth c host => Sys2Proof.Machine.execSessionAuth c host s
  | .sessionClose c => Sys2Proof.Machine.execSessionClose c s
  | .notifySet c => Sys2Proof.Machine.execNotifySet c s
  | .pwrRun c => Sys2Proof.Machine.execPwrRun c s
  | .pwrIdle c => Sys2Proof.Machine.execPwrIdle c s
  | .pwrStandby c => Sys2Proof.Machine.execPwrStandby c s
  | .imageLoad c host => Sys2Proof.Machine.execImageLoad c host s
  | .imageArm c => Sys2Proof.Machine.execImageArm c s
  | .imageHalt c => Sys2Proof.Machine.execImageHalt c s
  | .imageCancel c => Sys2Proof.Machine.execImageCancel c s
  | .imageClear c => Sys2Proof.Machine.execImageClear c s
  | .delayModels c host => Sys2Proof.Machine.execDelayModels c host s
  | .gains c host => Sys2Proof.Machine.execGains c host s
  | .window c host => Sys2Proof.Machine.execWindow c host s
  | .weightSel c => Sys2Proof.Machine.execWeightSel c s
  | .destTable c host => Sys2Proof.Machine.execDestTable c host s
  | .timeStepArm c => Sys2Proof.Machine.execTimeStepArm c s
  | .refSelect c => Sys2Proof.Machine.execRefSelect c s
  | .tb3Set c => Sys2Proof.Machine.execTb3Set c s
  | .heapRetrain c => Sys2Proof.Machine.execHeapRetrain c s
  | .linkRetrain c => Sys2Proof.Machine.execLinkRetrain c s
  | .panPreempt c => Sys2Proof.Machine.execPanPreempt c s
  | .panResume c => Sys2Proof.Machine.execPanResume c s
  | .checkpoint c => Sys2Proof.Machine.execCheckpoint c s
  | .updateBegin c => Sys2Proof.Machine.execUpdateBegin c s
  | .updateChunk c host => Sys2Proof.Machine.execUpdateChunk c host s
  | .updateEnd c => Sys2Proof.Machine.execUpdateEnd c s
  | .updateActivate c => Sys2Proof.Machine.execUpdateActivate c s
  | .updateConfirm c => Sys2Proof.Machine.execUpdateConfirm c s
  | .updateStatus c => Sys2Proof.Machine.execUpdateStatus c s
  | .updateAbort c => Sys2Proof.Machine.execUpdateAbort c s
  | .fwRules c host => Sys2Proof.Machine.execFwRules c host s
  | .sigPolicy c => Sys2Proof.Machine.execSigPolicy c s
  | .opkeySet c host => Sys2Proof.Machine.execOpkeySet c host s
  | .keyRevoke c => Sys2Proof.Machine.execKeyRevoke c s
  | .tamperCfg c => Sys2Proof.Machine.execTamperCfg c s
  | .resultPost c => Sys2Proof.Machine.execResultPost c s
  | .commandTimeout c => Sys2Proof.Machine.execCommandTimeout c s
  | .sessionTimeout c => Sys2Proof.Machine.execSessionTimeout c s
  | .challengeExpiry c => Sys2Proof.Machine.execChallengeExpiry c s
  | .authLockoutEnd c => Sys2Proof.Machine.execAuthLockoutEnd c s
  | .cqChWrite a k v => Sys2Proof.Machine.execCqChWrite a k v s
  | .wdFeed a v => Sys2Proof.Machine.execWdFeed a v s
  | .watchdogExpiry => Sys2Proof.Machine.execWatchdogExpiry s
  | .coreLockup => Sys2Proof.Machine.execCoreLockup s
  | .failoverStart => Sys2Proof.Machine.execFailoverStart s
  | .supervisorRelease => Sys2Proof.Machine.execSupervisorRelease s
  | .bootRomDone ok corrected uncorr => Sys2Proof.Machine.execBootRomDone ok corrected uncorr s
  | .supervisorActive => Sys2Proof.Machine.execSupervisorActive s
  | .firmwareReady => Sys2Proof.Machine.execFirmwareReady s
  | .svCmdRearm a target => Sys2Proof.Machine.execSvCmdRearm a target s
  | .svCmdFailover a => Sys2Proof.Machine.execSvCmdFailover a s
  | .svCmdRestart a => Sys2Proof.Machine.execSvCmdRestart a s
  | .mgmtRestartTimeout => Sys2Proof.Machine.execMgmtRestartTimeout s
  | .qualifyingBootDone sv ok => Sys2Proof.Machine.execQualifyingBootDone sv ok s
  | .unsupLimitExpiry => Sys2Proof.Machine.execUnsupLimitExpiry s
  | .unsupLimitWrite a v => Sys2Proof.Machine.execUnsupLimitWrite a v s
  | .checkpointDue => Sys2Proof.Machine.execCheckpointDue s
  | .checkpointDone ok => Sys2Proof.Machine.execCheckpointDone ok s
  | .confirmTimeout => Sys2Proof.Machine.execConfirmTimeout s
  | .gatingEffect page => Sys2Proof.Machine.execGatingEffect page s
  | .debugUnlock bytes => Sys2Proof.Machine.execDebugUnlock bytes s
  | .tamperCondition k => Sys2Proof.Machine.execTamperCondition k s
  | .nvmDataWrite a v => Sys2Proof.Machine.execNvmDataWrite a v s
  | .eraseSlot a slot => Sys2Proof.Machine.execEraseSlot a slot s
  | .nvmEraseDone => Sys2Proof.Machine.execNvmEraseDone s
  | .salRunWrite a v => Sys2Proof.Machine.execSalRunWrite a v s
  | .salEntryStart => Sys2Proof.Machine.execSalEntryStart s
  | .salDwellEnd codes => Sys2Proof.Machine.execSalDwellEnd codes s
  | .salDelayEnd => Sys2Proof.Machine.execSalDelayEnd s
  | .trigInEdge => Sys2Proof.Machine.execTrigInEdge s
  | .salSchedRequest => Sys2Proof.Machine.execSalSchedRequest s
  | .urgCtrlGo a v => Sys2Proof.Machine.execUrgCtrlGo a v s
  | .urgentDone codes => Sys2Proof.Machine.execUrgentDone codes s
  | .trigClr a => Sys2Proof.Machine.execTrigClr a s
  | .urgCancel a => Sys2Proof.Machine.execUrgCancel a s
  | .salConverged slices => Sys2Proof.Machine.execSalConverged slices s
  | .calStale t => Sys2Proof.Machine.execCalStale t s
  | .lsaOriginate => Sys2Proof.Machine.execLsaOriginate s
  | .lsaReceive q cell => Sys2Proof.Machine.execLsaReceive q cell s
  | .lsaExpiry k => Sys2Proof.Machine.execLsaExpiry k s
  | .alignExchange => Sys2Proof.Machine.execAlignExchange s
  | .alignReq q cell t2 t3 => Sys2Proof.Machine.execAlignReq q cell t2 t3 s
  | .alignRsp q cell t4 => Sys2Proof.Machine.execAlignRsp q cell t4 s
  | .syncInEdge phase => Sys2Proof.Machine.execSyncInEdge phase s
  | .alignTimeout => Sys2Proof.Machine.execAlignTimeout s
  | .epochAdoption => Sys2Proof.Machine.execEpochAdoption s
  | .meshRequest r => Sys2Proof.Machine.execMeshRequest r s
  | .meshServe => Sys2Proof.Machine.execMeshServe s
  | .meshResponse => Sys2Proof.Machine.execMeshResponse s
  | .meshTimeout tag => Sys2Proof.Machine.execMeshTimeout tag s
  | .bitternRecord => Sys2Proof.Machine.execBitternRecord s
  | .errRseqWrite a v => Sys2Proof.Machine.execErrRseqWrite a v s
  | .sumWrite a => Sys2Proof.Machine.execSumWrite a s
  | .ringClr a => Sys2Proof.Machine.execRingClr a s
  | .ffClr a => Sys2Proof.Machine.execFfClr a s
  | .summaryWrite => Sys2Proof.Machine.execSummaryWrite s
  | .testModeWrite a v => Sys2Proof.Machine.execTestModeWrite a v s
  | .bistStart a group => Sys2Proof.Machine.execBistStart a group s
  | .bistDone failing => Sys2Proof.Machine.execBistDone failing s
  | .tapInstruction op => Sys2Proof.Machine.execTapInstruction op s
  | .trstNAssert => Sys2Proof.Machine.execTrstNAssert s
  | .porNRelease => Sys2Proof.Machine.execPorNRelease s
  | .perstNRelease => Sys2Proof.Machine.execPerstNRelease s
  | .pcieLinkUp speed width => Sys2Proof.Machine.execPcieLinkUp speed width s
  | .pcieLinkDown => Sys2Proof.Machine.execPcieLinkDown s
  | .pcieDstateChange cfg => Sys2Proof.Machine.execPcieDstateChange cfg s
  | .refusedRead r => Sys2Proof.Machine.execRefusedRead r s
  | .prbsLock l => Sys2Proof.Machine.execPrbsLock l s
  | .widthIncreaseLanesReady q => Sys2Proof.Machine.execWidthIncreaseLanesReady q s
  | .malformedCellRx q why => Sys2Proof.Machine.execMalformedCellRx q why s

end Sys2Proof.Machine
end

