-- ==== Sys2Proof/WellFormed.lean ====
section
/-! DEFINITION. Well-formed commands: operands of the lengths and shapes that the spec gives what they stand for. Where an operand's
type admits only what can occur, nothing is checked. The meanings are total; a command that is not well formed stands for nothing
that the outside of the device can do. -/

namespace Sys2Proof

/-- An access of 1 to 8 bytes inside its page (R54). Widths that R54 refuses are accesses too: they are rejected. -/
def Access.wf (x : Access) : Bool := decide (1 ≤ x.size ∧ x.size ≤ 8 ∧ x.off.val + x.size ≤ 4096)

/-- Whether a list of naturals has no repeats. -/
def noRepeats : List Nat → Bool
  | [] => true
  | x :: xs => !xs.contains x && noRepeats xs

/-- The accesses of one RCLK: at least one, each agent at most once (R53, R72). -/
def accessesWf (ws : List Access) : Bool := !ws.isEmpty && ws.all (·.wf) && noRepeats (ws.map fun x => x.agent.code)

/-- Data as long as a write says, and none for a read. -/
def dataWf (write : Bool) (len : Nat) (data : List Byte) : Bool := data.length == if write then len else 0

/-- A burst of at most 64 beats that crosses no 4 KiB boundary (R360). -/
def XbarReq.wf (r : XbarReq) : Bool :=
  decide (1 ≤ r.len ∧ r.addr.toNat % 4096 + r.len ≤ 4096) && dataWf r.write r.len r.data

/-- A request of 1 to 4,096 bytes, a write's data at most the largest payload (R377). -/
def PcieReq.wf (r : PcieReq) : Bool := decide (1 ≤ r.len ∧ r.len ≤ 4096) && dataWf r.write r.len r.data

/-- Transfers of a slot: 0 to 84, at most 8 words each (R222, R237). -/
def EccObs.wf (e : EccObs) : Bool := decide (e.k < 85 ∧ e.corrected ≤ 8)

/-- A cell of 256 bytes (R151). -/
def cellWf (c : List Word) : Bool := c.length == 32

/-- What host memory answers: bytes, or an error response. An argument buffer has at most 16,777,216 bytes (R418). -/
def hostWf (host : Option (List Byte)) : Bool :=
  match host with
  | some bs => decide (bs.length ≤ 16777216)
  | none => true

/-- The code of each sample of a dwell, at least one and at most 1,048,576 (R479). -/
def codesWf (cs : List RawCode) : Bool := decide (1 ≤ cs.length ∧ cs.length ≤ 1048576)

/-- Whether a command is well formed. -/
def Instr.wf : Instr → Bool
  | .pinContention ps => !ps.isEmpty && noRepeats (ps.map (·.val))
  | .registerWrite ws => accessesWf ws
  | .groupHeldWrite w => w.wf
  | .groupHeadWrite w => w.wf
  | .refusedRead r => r.wf
  | .storeWindowWrite _ _ off data => decide (1 ≤ data.length ∧ off + data.length ≤ 16777216)
  | .heapSlotTransfer _ _ ecc _ => ecc.all (·.wf)
  | .openSlotService _ _ ecc => ecc.all (·.wf)
  | .heapOpenRequest r _ => r.wf
  | .trimSlot _ _ pass => pass.length == 8
  | .heapTrainDone _ sweeps _ => sweeps.length == 16
  | .sampleCellRx _ c => cellWf c
  | .psumCellRx _ c => cellWf c
  | .controlCellRx _ c => cellWf c
  | .meshCellRx _ c => cellWf c
  | .fillerCellRx _ c => cellWf c
  | .malformedCellRx _ (.cutShort words) => decide (words.length < 32)
  | .skewRetrain q => !q.lanes.isEmpty && noRepeats (q.lanes.map (·.val))
  | .lsaReceive _ c => cellWf c
  | .alignReq _ c _ _ => cellWf c
  | .alignRsp _ c _ => cellWf c
  | .ethFrameReceive _ frame _ => !frame.isEmpty
  | .pcieInboundRequest r => r.wf
  | .pcieOutboundCompletion _ st data => st != .failed || data.isEmpty
  | .pcieLinkUp speed width => decide (1 ≤ speed.val) && [1, 2, 4, 8, 16].contains width.val
  | .freqWindow ppb => decide (ppb.length ≤ 7)
  | .commandTakeup _ host => hostWf host
  | .commandEntryRetry _ host => hostWf host
  | .sessionAuth _ host => hostWf host
  | .imageLoad _ host => hostWf host
  | .delayModels _ host => hostWf host
  | .gains _ host => hostWf host
  | .window _ host => hostWf host
  | .destTable _ host => hostWf host
  | .updateChunk _ host => hostWf host
  | .fwRules _ host => hostWf host
  | .opkeySet _ host => hostWf host
  | .debugUnlock bs => bs.length == 97
  | .salDwellEnd cs => codesWf cs
  | .urgentDone cs => codesWf cs
  | .salConverged slices => decide (slices.length ≤ 4)
  | .meshRequest r => r.wf
  | .bistDone failing => failing.all (· < 288) && noRepeats failing
  | _ => true

end Sys2Proof
end

