-- ==== Sys2Proof/Safety.lean ====
section
/-! DEFINITION. The terms in which statements about the machine are made: a command that completes in a state of which
something holds, what a command leaves as it was, and what holds after every step. -/

namespace Sys2Proof

/-- The number under which a producer's completed blocks wait for their notice (R341). -/
def Producer.code : Producer → Nat
  | .dump k => k.val
  | .voltage r => 64 + r.val
  | .resample r => 128 + r.val

end Sys2Proof

namespace Sys2Proof.Machine

/-- The command completes: it answers a next state, and `P` holds of that state. -/
def Gives (c : Instr) (s : State) (P : State → Prop) : Prop := ∃ t, exec c s = .next t ∧ P t

/-- The parts of State beside the registers. -/
inductive Part where
  | pwr | time | sup | bitt | nv | tam | fab | sched | heap | xbar | links | dma | pcie | mesh | net | slu | pans | cmds
  | sal | pins | test | free | pending
  deriving DecidableEq, Repr

/-- A part is the same in two states. -/
def Part.same (s t : State) : Part → Prop
  | .pwr => t.pwr = s.pwr
  | .time => t.time = s.time
  | .sup => t.sup = s.sup
  | .bitt => t.bitt = s.bitt
  | .nv => t.nv = s.nv
  | .tam => t.tam = s.tam
  | .fab => t.fab = s.fab
  | .sched => t.sched = s.sched
  | .heap => t.heap = s.heap
  | .xbar => t.xbar = s.xbar
  | .links => t.links = s.links
  | .dma => t.dma = s.dma
  | .pcie => t.pcie = s.pcie
  | .mesh => t.mesh = s.mesh
  | .net => t.net = s.net
  | .slu => t.slu = s.slu
  | .pans => t.pans = s.pans
  | .cmds => t.cmds = s.cmds
  | .sal => t.sal = s.sal
  | .pins => t.pins = s.pins
  | .test => t.test = s.test
  | .free => t.free = s.free
  | .pending => t.pending = s.pending

/-- A state with what every command leaves tracked put aside: the runs of R12's conditions, since when the view has met the
`PRIMARY` condition (R495), and the MSI-X pending bits (R381). -/
def State.untracked (s : State) : State :=
  { s with sched := { s.sched with conds := [] }, mesh := { s.mesh with viewSince := none }, pcie := { s.pcie with pba := [] } }

/-- The register in which the falls of `ALIGNED` and of `ARM_AGREE` show: `PG_EVT` of the page MESH (R499). -/
def agreeKey : Nat := regKey 0 0x5D 0 hEvt

/-- `PG_EVT` of MESH after a fall of `ALIGNED` (bit 1), of `ARM_AGREE` (bit 3), of both or of none (R499). -/
def meshFalls (aligned agree : Bool) (w : Word) : Word :=
  let w := if aligned then setBit w 1 else w
  if agree then setBit w 3 else w

/-- Nothing but the registers with keys in `K` and the listed parts differs, exactly, and nothing sent is forgotten. -/
def Only (K : Nat → Prop) (ps : List Part) (s t : State) : Prop :=
  (∀ k, ¬ K k → t.getReg k = s.getReg k) ∧ (∀ p, p ∉ ps → p.same s t) ∧ s.sent <:+ t.sent

/-- What a command leaves unchanged: every register outside `K` and every part not listed, but for what every command leaves
tracked (`State.untracked`) and `PG_EVT` bits 1 and 3 of MESH, which the falls of `ALIGNED` and `ARM_AGREE` set (R499). -/
def Frame (K : Nat → Prop) (ps : List Part) (s t : State) : Prop :=
  (∀ k, ¬ K k → t.getReg k = s.getReg k ∨ (k = agreeKey ∧ ∃ a c, t.getReg k = meshFalls a c (s.getReg k)))
    ∧ (∀ p, p ∉ ps → p.same s.untracked t.untracked) ∧ s.sent <:+ t.sent

/-- No register. -/
def noRegs (_ : Nat) : Prop := False
/-- The registers of a list. -/
def regsIn (ks : List Nat) (k : Nat) : Prop := k ∈ ks
/-- The registers of some pages. -/
def onPages (ps : List Nat) (k : Nat) : Prop := keyPage k ∈ ps
/-- Any register. -/
def anyReg (_ : Nat) : Prop := True

/-- A write of the value `v` at an offset of a page that the agent's port makes alone in its RCLK is served (R53) and passes every
check of R69, and of its group where it is a group's head (R56); of the host, with no earlier write waiting (R77). -/
def State.accepts (s : State) (a : Agent) (page off : Nat) (v : Word) : Bool :=
  let w : Access := { agent := a, page := Fin.ofNat 128 page, off := Fin.ofNat 4096 off, value := v }
  s.served a w.page.val && (s.codeAmong [] w).isNone && (a != .host || s.fab.posted.isEmpty)

/-- The registers that a report to the bittern may write (R507). -/
def reportKeys : List Nat := [R.ERR_SUPPRESSED.key 0, regKey 0 0x0B 0 hEvt]

/-- In `t` the reports are those of `s` with one more, of a page's bank, a class and two data words (R503 to R507). -/
abbrev State.reports (s t : State) (page bank cls : Nat) (d0 d1 : Word) : Prop := t.bitt = (s.report page bank cls d0 d1).bitt

/-- The registers that a rejection on a page writes (R71, R81). -/
def rejectKeys (page : Nat) : List Nat := [regKey 0 page 0 hReject, R.LAST_REJECT.key 0, regKey 0 0 0 hEvt]

/-- The registers in which a request to a range that no target holds shows (R357). -/
def decodeKeys : List Nat := [R.XB_DECODE.key 0, R.FW_LAST.key 0, regKey 0 0x0C 0 hEvt]

/-- The registers in which a link's state, its lanes' states and its page's events show (R163, R172, R183). -/
def linkKeys (q : Nat) : List Nat :=
  R.LINK_STAT.key q :: R.NEG_COUNT.key q :: regKey 0 (brinePage q) 0 hEvt :: (quadLanes q 4).map fun l => R.LANE_STAT.key l

/-- From `s` to `t` a DMA channel has gone on to the instruction at `pc` and asked for its first word (R366, R368). -/
abbrev State.fetches (s t : State) (c pc : Nat) : Prop :=
  (t.ch c).state = .run ∧ (t.ch c).pc = pc ∧ (t.ch c).instr = [] ∧ (t.ch c).copy = none ∧ (t.ch c).out = (s.ch c).out + 1
    ∧ t.xbar.next = s.xbar.next + 1
    ∧ (pget t.xbar.txns s.xbar.next).map (fun y => (y.write, y.addr, y.len, y.origin)) = some (false, pc, 8, .dmaFetch c 0)

/-- The registers in which a change of TB0's state shows (R402, R411). -/
def tbKeys : List Nat := [regKey 0 0x03 0 hEvt, regKey 0 0x04 0 hEvt]

/-- No unit of the data path, link, port or DMA engine has anything on its way. -/
abbrev State.quiet (s : State) : Prop := s.dma = {} ∧ s.net.port = [] ∧ s.links = {} ∧ s.pans = {}

/-- Channel `c` runs the command `y`, which has no result yet, and the firmware may carry it out (R416, R470); `begun` says
whether its effect is in force and only its end is awaited. -/
abbrev State.carries (s : State) (c : Nat) (y : Yel) (r : CmdRun) (begun : Bool) : Prop :=
  (s.cchan c).run = some r ∧ r.row.map (·.cmd) = some y ∧ r.result = none ∧ r.begun = begun ∧ s.supervised = true
    ∧ s.tam.hold = false

/-- Words 0, 1 and 6 of the event entry with a command's result that a channel posts (R419), and as many of words 2 to 5 as the
command gives results. -/
def State.resultEntry (s : State) (c : Nat) (r : CmdRun) (code : Nat) (rs : List Word) : List Word :=
  [word (at_ 56 code + at_ 48 1 + at_ 32 r.opcode + r.tag), word (at_ 32 (s.sessionId c) + r.idx),
    word (at_ 32 (s.time.tide % 2 ^ 32) + at_ 8 (min ((s.time.total - r.taken) / 1500) 0xFFFFFF) + 2 * b2n (s.cchan c).lost
      + b2n r.replayed)] ++ rs.take 4

/-- The state in which a channel's command has its effect in force and waits. -/
abbrev State.begins (s : State) (c : Nat) (r : CmdRun) : State := s.setCchan c { s.cchan c with run := some { r with begun := true } }

/-- Whether a channel runs a command, without a result yet, that the firmware may carry out. -/
def State.runs (s : State) (c : Nat) (y : Yel) : Bool :=
  s.supervised && (s.cchan c).run.any fun r => r.result.isNone && r.row.any fun w => w.cmd == y

/-- In `x` the command that channel `c` runs has ended with a status and results, and `t` is what follows: the journal holds the
result of a command that needs a session (R432); while the event ring has no space the result is held (R421); with space its
entry is put on the ring, counted, and `HEAD` moves past the command (R416, R419); on a disabled channel it is discarded, with
the session (R421). -/
abbrev State.ended (x t : State) (c : Nat) (r : CmdRun) (code : Nat) (rs : List Word) : Prop :=
  ((r.row.any fun w => w.rights != .none) = true → pget t.cmds.journal c
      = some { idx := r.idx, tag := r.tag, opcode := r.opcode, digest := leBytes 48 (sha384 r.bytes), result := some (code, rs) })
  ∧ (x.cqOn c = true → x.cqRoom c = false
      → (t.cchan c).run = some { r with begun := true, result := some (code, rs), full := r.full || x.cqFull c })
  ∧ (x.cqOn c = true → x.cqRoom c = true → (t.cchan c).run = none ∧ (t.ring r.ring).head = (r.idx + 1) % 2 ^ 32
      ∧ fld (t.rd R.CQ_CNT 0 c) 63 32 = min (fld (x.rd R.CQ_CNT 0 c) 63 32 + 1) (2 ^ 32 - 1)
      ∧ (pget t.net.jobs x.net.nextJob).map (fun j => (j.ring, [j.words.getD 0 0, j.words.getD 1 0, j.words.getD 6 0]
          ++ (j.words.drop 2).take (min 4 rs.length))) = some (x.cqEvt c, x.resultEntry c r code rs))
  ∧ (x.cqOn c = false → (t.cchan c).run = none ∧ (t.ring r.ring).head = (r.idx + 1) % 2 ^ 32 ∧ pget t.cmds.session c = none)

/-- Register writes by the firmware on one unit. -/
def writesOn (u : Nat) (ws : List (Reg × Word)) : List FwWrite := ws.map fun z => { r := z.1, u := u, v := z.2 }

/-- While the core runs, the newest run of conditions reaches to the tide in progress and has every condition of R12 that holds. -/
def State.condsKept (s : State) : Prop :=
  s.pwr.coreUp = true → s.condBits ≠ 0 → ∃ a g rest, s.sched.conds = (a, s.time.tide, g) :: rest ∧ s.condBits ||| g = g

/-- In a saltern the time since which the view has met the `PRIMARY` condition is held exactly while it meets it (R495). -/
def State.viewKept (s : State) : Prop := s.meshZ ≠ 0 → (s.mesh.viewSince.isSome = true ↔ s.primaryView = true)

/-- An entry of the MSI-X table (R381). -/
def State.msixOf (s : State) (v : Nat) : MsixEntry := mget msixDflt s.pcie.table v

/-- The start `y` of the last RCLK of a command, and the state `x` in which that RCLK leaves the machine before its signals: an
inbound request and a grant take one RCLK for each register (R54, R77), every other command one RCLK, after those in which the
host's posted writes are applied where the command waits for them (R76, R78). -/
def lastStart (c : Instr) (s y x : State) : Prop :=
  match c with
  | .pcieInboundRequest r => (y, x) = s.inbound r
  | .xbarArbitration t => (y, x) = s.arbitrate t
  | _ => y = s ∨ y = s.drainPosted

/-- No Ethernet port is enabled or shows a state (R331). -/
def State.portsOff (s : State) : Bool :=
  (List.range 32).all fun e => !s.enabled (ethPage e) && s.rd R.ETH_STAT e == 0

end Sys2Proof.Machine
end

