-- ==== Sys2Proof/Certificates/Slice0/Obligations.lean ====
section
/-!
DEFINITION. The statements for the provers, in the order of the spec's chapters. `Gives c s p` says that command `c` at
state `s` answers a next state and that `p` holds of it; `Frame K ps s t` that no register outside `K` and no part of the
state outside `ps` differs between `s` and `t`, the signals of R82 apart. A statement whose docstring names log entries
rests, in the clauses it says, on choices of the model and not on the spec alone.
-/

open Sys2Proof Sys2Proof.Machine

/-- A feed that qualifies carries the always-on domain when the other is not qualified; with POR_N high at its ball it makes
the device heed POR_N, and rails of steps 3 and 4 that are up by then are an order violation. Its island goes to STANDBY
while the core is in reset, to a qualifying boot while a supervisor acts, and takes over while none does. A feed lost
while the other carries the domain is reported, the load moves to the other, an idle island goes off and an acting one
leaves failover cause 2. With no feed left the always-on domain is off, its registers and the heap are lost, NVM, OTP and
ROM remain. A feed that is in that state already changes nothing. Where the rules leave a choice its clauses rest on the
model's, log entries 3, 10, 33, 185, 188 and 209. -/
def Obligations.FeedsSteerTheAlwaysOnDomain : Prop :=
  (∀ (s : State) (f : Feed) (g : Feed), f ≠ g → s.feedIs f = false → s.feedIs g = false → s.pwr.porPin = false →
      s.pwr.porN = false → s.pwr.coreUp = false → s.pwr.state ≠ .standby → s.sv (feedNum f) = .off →
      Gives (.feedQualified f) s fun t => t.feedIs f = true ∧ t.feedIs g = false ∧ t.pwr.load = some f
      ∧ t.sv (feedNum f) = .standby ∧ t.sv (feedNum g) = s.sv (feedNum g)
      ∧ t.pwr.state = (if s.pwr.state = .off then .boot else s.pwr.state) ∧ Frame noRegs [.pwr, .sup] s t)
  ∧ (∀ (s : State) (f : Feed) (g : Feed), f ≠ g → s.feedIs f = false → s.feedIs g = false → s.pwr.porPin = true →
      s.pwr.porN = false → s.pwr.coreUp = false → s.pwr.state ≠ .standby → s.sv (feedNum f) = .off →
      s.pwr.started &&& 0x7E#8 = 0 → s.pwr.railOk &&& 0x7F#8 ≠ 0x7F#8 → Gives (.feedQualified f) s fun t => t.feedIs f = true
      ∧ t.pwr.load = some f ∧ t.pwr.porN = true ∧ t.pwr.seqHold = s.pwr.seqHold ∧ t.sv (feedNum f) = .standby
      ∧ Frame noRegs [.pwr, .sup] s t)
  ∧ (∀ (s : State) (f : Feed) (g : Feed), f ≠ g → s.feedIs f = false → s.feedIs g = false → s.pwr.porPin = true →
      s.pwr.porN = false → s.pwr.coreUp = false → s.pwr.started &&& 0x7E#8 ≠ 0 → Gives (.feedQualified f) s fun t =>
      t.feedIs f = true ∧ t.pwr.porN = true ∧ t.pwr.seqHold = true ∧ t.pwr.state = .held
      ∧ t.rd R.PWR_FAULT = s.rd R.PWR_FAULT ||| word (at_ 8 (s.pwr.started &&& 0x7E#8).toNat)
      ∧ Frame (regsIn (R.PWR_FAULT.key 0 :: reportKeys)) [.pwr, .sup, .bitt] s t)
  ∧ (∀ (s : State) (f : Feed) (g : Feed), f ≠ g → s.feedIs f = false → s.feedIs g = true → s.pwr.porN = true →
      s.pwr.coreUp = true → s.sv (feedNum f) = .off → s.svRole.isSome = true → Gives (.feedQualified f) s fun t =>
      t.feedIs f = true ∧ t.pwr.load.isSome = true ∧ t.sv (feedNum f) = .qualifying ∧ t.sv (feedNum g) = s.sv (feedNum g)
      ∧ Frame noRegs [.pwr, .sup, .free] s t)
  ∧ (∀ (s : State) (f : Feed) (g : Feed), f ≠ g → s.feedIs f = false → s.feedIs g = true → s.pwr.porN = true →
      s.pwr.coreUp = true → s.sv (feedNum f) = .off → s.svRole = none → s.sup.takeoverDue = false →
      Gives (.feedQualified f) s fun t => t.feedIs f = true ∧ t.sv (feedNum f) = .standby ∧ t.sup.takeoverDue = true
      ∧ t.sup.bootKind = .takeover ∧ Frame noRegs [.pwr, .sup, .free] s t)
  ∧ (∀ (s : State) (f : Feed) (g : Feed), f ≠ g → s.feedIs f = false → s.feedIs g = true → s.pwr.porN = true →
      s.pwr.warmN = false → s.pwr.coreUp = false → s.sv (feedNum f) = .off → Gives (.feedQualified f) s fun t =>
      t.feedIs f = true ∧ t.pwr.load.isSome = true ∧ t.sv (feedNum f) = (if s.pwr.state = .standby then .off else .standby)
      ∧ Frame noRegs [.pwr, .sup, .free] s t)
  ∧ (∀ (s : State) (f : Feed), s.feedIs f = true → Gives (.feedQualified f) s fun t => Frame noRegs [] s t)
  ∧ (∀ (s : State) (f : Feed) (g : Feed), f ≠ g → s.feedIs f = true → s.feedIs g = true → s.sv (feedNum f) ≠ .active →
      s.sv (feedNum f) ≠ .starting → Gives (.feedDisqualified f) s fun t => t.feedIs f = false ∧ t.feedIs g = true
      ∧ t.pwr.load = some g ∧ t.sv (feedNum f) = .off ∧ t.sv (feedNum g) = s.sv (feedNum g)
      ∧ s.reports t 0x08 0 0x01 t.pwrStat 0 ∧ Frame (regsIn reportKeys) [.pwr, .bitt, .sup] s t)
  ∧ (∀ (s : State) (f : Feed) (g : Feed), f ≠ g → s.feedIs f = true → s.feedIs g = true →
      s.sv (feedNum f) = .active ∨ s.sv (feedNum f) = .starting → Gives (.feedDisqualified f) s fun t => t.feedIs f = false
      ∧ t.feedIs g = true ∧ t.pwr.load = some g ∧ t.sup = { s.sup with failCause := some 2 }
      ∧ s.reports t 0x08 0 0x01 t.pwrStat 0 ∧ Frame (regsIn reportKeys) [.pwr, .bitt, .sup] s t)
  ∧ (∀ (s : State) (f : Feed) (g : Feed), f ≠ g → s.feedIs f = true → s.feedIs g = false →
      Gives (.feedDisqualified f) s fun t => t.pwr.state = .off ∧ t.pwr.coreUp = false ∧ t.pwr.porN = false
      ∧ t.pwr.load = none ∧ t.regs = [] ∧ t.heap.mem = [] ∧ t.nv.nvm = s.nv.nvm ∧ t.nv.otp = s.nv.otp
      ∧ t.xbar.rom = s.xbar.rom)
  ∧ (∀ (s : State) (f : Feed), s.feedIs f = false → Gives (.feedDisqualified f) s fun t => Frame noRegs [] s t)
  ∧ (∀ (s : State), s.pwr.state ≠ .off → Gives .vaonBothLost s fun t => t.pwr.state = .off ∧ t.pwr.feedA = false
      ∧ t.pwr.feedB = false ∧ t.pwr.coreUp = false ∧ t.regs = [] ∧ t.heap.mem = [] ∧ t.nv.nvm = s.nv.nvm
      ∧ t.nv.otp = s.nv.otp ∧ t.xbar.rom = s.xbar.rom)

/-- A rail that may start now is started and nothing else happens. One that may not holds the core in reset, with its bit in
RAIL_EARLY of PWR_FAULT and a report. A started rail qualifies while the order is checked, VIO at any time with POR_N
high; the last one that the core needs starts the core. The step-3 pair's timeout holds the core, with the late rails in
RAIL_EARLY and a report. The release of the hold, with VANA's loss taken in where it had qualified, begins at step 2
again. Where the rules leave a choice its clauses rest on the model's, log entries 3, 33 and 207. -/
def Obligations.RailsRiseInOrder : Prop :=
  (∀ (s : State) (r : Rail), s.checking = false ∨ s.mayRise r = true → Gives (.railStart r) s fun t =>
      t.pwr = { s.pwr with started := s.pwr.started ||| railMask r } ∧ Frame noRegs [.pwr] s t)
  ∧ (∀ (s : State) (r : Rail), s.checking = true → s.mayRise r = false → Gives (.railStart r) s fun t => t.pwr.seqHold = true
      ∧ t.pwr.coreUp = false ∧ t.pwr.state = .held ∧ t.pwr.started = s.pwr.started ||| railMask r
      ∧ t.rd R.PWR_FAULT = s.rd R.PWR_FAULT ||| word (at_ 8 (railMask r).toNat)
      ∧ s.reports t 0x08 0 0x02 t.pwrStat (t.rd R.PWR_FAULT)
      ∧ (s.pwr.coreUp = false → Frame (regsIn (R.PWR_FAULT.key 0 :: reportKeys)) [.pwr, .bitt] s t))
  ∧ (∀ (s : State) (r : Rail), s.pwr.started.getLsbD r.bit = true → s.checking = true ∨ (r = .vio ∧ s.pwr.porN = true) →
      s.pwr.ok r = false → Gives (.railQualified r) s fun t => t.pwr.ok r = true ∧ t.pwr.railOk = s.pwr.railOk ||| railMask r
      ∧ (s.pwr.coreUp = true → t.pwr = { s.pwr with railOk := t.pwr.railOk }))
  ∧ (∀ (s : State) (r : Rail), s.pwr.started.getLsbD r.bit = true → s.checking = true ∨ (r = .vio ∧ s.pwr.porN = true) →
      s.pwr.ok r = false → r ≠ .vana ∨ s.time.coarse = false →
      ({ s with pwr := { s.pwr with railOk := s.pwr.railOk ||| railMask r } } : State).coreMayRun = false ∨ s.pwr.coreUp = true →
      Gives (.railQualified r) s fun t => t.pwr = { s.pwr with railOk := s.pwr.railOk ||| railMask r }
      ∧ Frame noRegs [.pwr] s t)
  ∧ (∀ (s : State) (r : Rail), s.checking = true → s.pwr.started.getLsbD r.bit = true → s.pwr.ok r = false →
      r ≠ .vana ∨ s.time.coarse = false →
      ({ s with pwr := { s.pwr with railOk := s.pwr.railOk ||| railMask r } } : State).coreMayRun = true →
      s.pwr.coreUp = false → s.tam.pendingWake = false → s.rdb R.TMP_CFG 0 3 = false → s.rdb R.TMP_CFG 0 4 = false →
      Gives (.railQualified r) s fun t => t.pwr.coreUp = true ∧ t.pwr.coreReady = false ∧ t.pwr.state = .boot
      ∧ t.pwr.cause = s.pwr.lastStop ∧ t.sv (if s.pwr.feedA then 0 else 1) = .starting)
  ∧ (∀ (s : State), s.checking = true → s.pwr.started &&& 0x06#8 ≠ 0 → s.pwr.lateRails ≠ 0 →
      Gives .step3QualTimeout s fun t => t.pwr.seqHold = true ∧ t.pwr.coreUp = false ∧ t.pwr.state = .held
      ∧ t.rd R.PWR_FAULT = s.rd R.PWR_FAULT ||| word (at_ 8 s.pwr.lateRails.toNat)
      ∧ s.reports t 0x08 0 0x02 t.pwrStat (t.rd R.PWR_FAULT)
      ∧ (s.pwr.coreUp = false → Frame (regsIn (R.PWR_FAULT.key 0 :: reportKeys)) [.pwr, .bitt] s t))
  ∧ (∀ (s : State), s.checking = false ∨ s.pwr.started &&& 0x06#8 = 0 ∨ s.pwr.lateRails = 0 →
      Gives .step3QualTimeout s fun t => Frame noRegs [] s t)
  ∧ (∀ (s : State), s.pwr.seqHold = true → Gives .seqHoldRelease s fun t => t.pwr.seqHold = false ∧ t.pwr.state = .boot
      ∧ t.pwr.lastStop = 6 ∧ t.pwr.railOk = s.pwr.railOk &&& 0x80#8 ∧ t.pwr.started = s.pwr.started &&& 0x80#8
      ∧ (s.pwr.ok .vana = false → Frame noRegs [.pwr] s t)
      ∧ (s.pwr.ok .vana = true → t.time.coarse = true ∧ t.time.pll = .lost))
  ∧ (∀ (s : State), s.pwr.seqHold = false → Gives .seqHoldRelease s fun t => Frame noRegs [] s t)

/-- A core, lane or heap rail lost while the core runs resets the core, sets its bit in RAIL_UV of PWR_FAULT, is reported and
keeps the heap's contents and NVM; after STANDBY_READY it is the entry to STANDBY and the heap's contents are gone; with
the core in reset the rail is no longer qualified and nothing else happens. VANA lost puts time on the device's own
oscillator, the root PLL is LOST with no source, and a core that runs is reset; VANA back ends that and opens the next
epoch. Where the rules leave a choice its clauses rest on the model's, log entries 3, 34, 35, 36, 150 and 157. -/
def Obligations.RailLossStopsTheCore : Prop :=
  (∀ (s : State) (r : Rail), r ≠ .vana → r ≠ .vio → s.pwr.ok r = true → s.pwr.coreUp = true → s.pwr.standbyReady = true →
      Gives (.coreRailLoss r) s fun t => t.pwr.state = .standby ∧ t.pwr.coreUp = false ∧ t.pwr.lastStop = 5
      ∧ t.pwr.ok r = false ∧ t.heap.mem = [] ∧ t.nv = s.nv)
  ∧ (∀ (s : State) (r : Rail), r ≠ .vana → r ≠ .vio → s.pwr.ok r = true → s.pwr.coreUp = true → s.pwr.standbyReady = false →
      Gives (.coreRailLoss r) s fun t => t.pwr.state = .boot ∧ t.pwr.coreUp = false ∧ t.pwr.lastStop = 3 ∧ t.pwr.ok r = false
      ∧ t.heap.mem = s.heap.mem ∧ t.nv = s.nv ∧ bit (t.rd R.PWR_FAULT) r.bit = true
      ∧ s.reports t 0x08 0 0x02 t.pwrStat (t.rd R.PWR_FAULT))
  ∧ (∀ (s : State) (r : Rail), r ≠ .vana → r ≠ .vio → s.pwr.ok r = true → s.pwr.coreUp = false →
      Gives (.coreRailLoss r) s fun t => t.pwr.ok r = false ∧ t.pwr.railOk = s.pwr.railOk &&& ~~~(railMask r)
      ∧ Frame noRegs [.pwr] s t)
  ∧ (∀ (s : State), s.pwr.ok .vana = true → Gives .vanaLoss s fun t => t.time.coarse = true ∧ t.time.src = 15
      ∧ t.time.pll = .lost ∧ t.pwr.ok .vana = false ∧ t.pwr.coreUp = false
      ∧ (s.pwr.coreUp = true → t.pwr.lastStop = 3 ∧ t.pwr.state = .boot)
      ∧ (s.pwr.coreUp = false → t.pwr.lastStop = s.pwr.lastStop ∧ t.pwr.state = s.pwr.state) ∧ t.heap.mem = s.heap.mem)
  ∧ (∀ (s : State), s.pwr.ok .vana = false → Gives .vanaLoss s fun t => Frame noRegs [] s t)
  ∧ (∀ (s : State), s.time.coarse = true → s.checking = true → Gives .vanaRestore s fun t => t.time.coarse = false
      ∧ t.pwr.ok .vana = true ∧ t.time.epoch = nextEpoch s.time.epoch)

/-- POR_N asserted keeps non-volatile memory, the heap's bytes and what the supplies show, and clears the registers; released
it is heeded once a feed is qualified, with an order violation for rails of steps 3 and 4 already up. WARM_N asserted
applies the posted writes, then resets the core and keeps the always-on domain's registers, NVM and TB0; released it
starts the core where nothing else holds it. PERST_N asserted applies the posted writes, then resets the PCIe endpoint
alone. Each release leaves the pin high. Where the rules leave a choice its clauses rest on the model's, log entries 3,
33, 34, 35, 154 and 209. -/
def Obligations.ResetPins : Prop :=
  (∀ (s : State), s.pwr.state ≠ .off → Gives .porNAssert s fun t => t.pwr.porPin = false ∧ t.pwr.porN = false
      ∧ t.pwr.coreUp = false ∧ t.pwr.state = .boot ∧ t.regs = [] ∧ t.pwr.feedA = s.pwr.feedA ∧ t.pwr.feedB = s.pwr.feedB
      ∧ t.pwr.load = s.pwr.load ∧ t.nv.nvm = s.nv.nvm ∧ t.nv.otp = s.nv.otp ∧ t.heap.mem = s.heap.mem)
  ∧ (∀ (s : State), s.pwr.state = .off → Gives .porNAssert s fun t => t.pwr = { s.pwr with porPin := false }
      ∧ Frame noRegs [.pwr] s t)
  ∧ (∀ (s : State), s.pwr.porN = false → s.feedOk = true → s.pwr.started &&& 0x7E#8 = 0 →
      s.pwr.warmN = false ∨ s.pwr.coreUp = true ∨ s.pwr.railOk &&& 0x7F#8 ≠ 0x7F#8 → Gives .porNRelease s fun t =>
      t.pwr = { s.pwr with porPin := true, porN := true } ∧ Frame noRegs [.pwr] s t)
  ∧ (∀ (s : State), s.feedOk = false → Gives .porNRelease s fun t => t.pwr = { s.pwr with porPin := true }
      ∧ Frame noRegs [.pwr] s t)
  ∧ (∀ (s : State), s.pwr.porN = false → s.feedOk = true → s.pwr.started &&& 0x7E#8 ≠ 0 → Gives .porNRelease s fun t =>
      t.pwr.porPin = true ∧ t.pwr.porN = true ∧ t.pwr.seqHold = true ∧ t.pwr.coreUp = false ∧ t.pwr.state = .held
      ∧ t.rd R.PWR_FAULT = s.rd R.PWR_FAULT ||| word (at_ 8 (s.pwr.started &&& 0x7E#8).toNat))
  ∧ (∀ (s : State) (x : BitVec 8) (y : State), s.pwr.warmN = true → y = s.drained → Gives (.warmNAssert x) s fun t =>
      t.pwr.warmN = false ∧ t.pwr.coreUp = false ∧ t.pwr.junction = x
      ∧ t.pwr.tripHold = (y.pwr.tripHold && decide (100 ≤ x.toInt)) ∧ t.heap.mem = y.heap.mem ∧ t.nv = y.nv
      ∧ t.time.tb0 = y.time.tb0 ∧ (∀ k, aonPage (keyPage k) = true → t.getReg k = y.getReg k))
  ∧ (∀ (s : State) (x : BitVec 8), s.pwr.warmN = true → s.pwr.coreUp = true → s.fab.posted = [] → s.pwr.state ≠ .standby →
      s.pwr.state ≠ .off → s.pwr.tripHold = false → s.pwr.seqHold = false → s.pwr.tempHold = false →
      Gives (.warmNAssert x) s fun t => t.pwr.state = .boot ∧ t.pwr.lastStop = 2)
  ∧ (∀ (s : State) (x : BitVec 8), s.pwr.warmN = false → Gives (.warmNAssert x) s fun t => Frame noRegs [] s t)
  ∧ (∀ (s : State), s.pwr.coreUp = true ∨ ({ s with pwr := { s.pwr with warmN := true } } : State).coreMayRun = false →
      Gives .warmNRelease s fun t => t.pwr = { s.pwr with warmN := true } ∧ Frame noRegs [.pwr] s t)
  ∧ (∀ (s : State), s.pwr.coreUp = false → ({ s with pwr := { s.pwr with warmN := true } } : State).coreMayRun = true →
      s.tam.pendingWake = false → s.rdb R.TMP_CFG 0 3 = false → s.rdb R.TMP_CFG 0 4 = false → Gives .warmNRelease s fun t =>
      t.pwr.warmN = true ∧ t.pwr.coreUp = true ∧ t.pwr.coreReady = false ∧ t.pwr.state = .boot ∧ t.pwr.cause = s.pwr.lastStop
      ∧ t.sv (if s.pwr.feedA then 0 else 1) = .starting ∧ t.sup.unsupStart = some s.time.total
      ∧ (∀ q, q < 256 → (t.lk q).session = ((s.lk q).session + 1) % 32768))
  ∧ (∀ (s : State), Gives .warmNRelease s fun t => t.pwr.warmN = true)
  ∧ (∀ (s : State) (y : State), s.pwr.perstN = true → y = s.drainPosted → Gives .perstNAssert s fun t =>
      t.pwr = { y.pwr with perstN := false } ∧ t.pcie.up = false ∧ t.pcie.outbound = [] ∧ t.pcie.table = []
      ∧ t.heap.mem = y.heap.mem)
  ∧ (∀ (s : State), s.pwr.perstN = true → s.fab.posted = [] → s.pcie.outbound = [] → Gives .perstNAssert s fun t =>
      t.pwr = { s.pwr with perstN := false } ∧ t.pcie.up = false ∧ t.pcie.table = [] ∧ Frame noRegs [.pwr, .pcie] s t)
  ∧ (∀ (s : State), s.pwr.perstN = false → Gives .perstNAssert s fun t => Frame noRegs [] s t)
  ∧ (∀ (s : State), Gives .perstNRelease s fun t => t.pwr = { s.pwr with perstN := true } ∧ Frame noRegs [.pwr] s t)

/-- RUN begins at a boundary at or after the tide that its command fixed, once all 16 pan rows are ungated, and IDLE at the
next boundary after its command; pan rows are ungated one each 1,500 SCLK; STANDBY_READY is set once the data path is
halted and the checkpoint written, by a supervisor. Pan row r enters dry mode when time has passed to SCLK 1,500 r of the
tide before an image start with pans, and leaves it at SCLK 1,500 (r + 1) after a halt; while no unit has anything on its
way that passing time is the only other effect. BOOT_COMPLETE leaves the device IDLE with CORE_READY and its event. Where
the rules leave a choice its clauses rest on the model's, log entries 3, 35 and 37. -/
def Obligations.PowerStatesChangeByCommand : Prop :=
  (∀ (s : State) (n : Nat), s.pwr.req = .toRun n → s.atBoundary = true → n ≤ s.time.tide → s.pwr.state = .idle →
      s.pwr.rows = 16 → Gives .runEntry s fun t => t.pwr = { s.pwr with state := .run, req := .none }
      ∧ Frame noRegs [.pwr] s t)
  ∧ (∀ (s : State) (n : Nat), s.pwr.req = .toRun n → s.atBoundary = false ∨ s.time.tide < n ∨ s.pwr.rows ≠ 16 →
      Gives .runEntry s fun t => Frame noRegs [] s t)
  ∧ (∀ (s : State) (n : Nat), s.pwr.req = .toRun n → s.pwr.rows < 16 → s.pwr.rowAt + 1500 ≤ s.time.total →
      Gives .panRowUngate s fun t => t.pwr = { s.pwr with rows := s.pwr.rows + 1, rowAt := s.pwr.rowAt + 1500 }
      ∧ Frame noRegs [.pwr] s t)
  ∧ (∀ (s : State), s.pwr.rows = 16 ∨ s.time.total < s.pwr.rowAt + 1500 → Gives .panRowUngate s fun t => Frame noRegs [] s t)
  ∧ (∀ (s : State), s.pwr.req = .toIdle → s.atBoundary = true → Gives .idleEntry s fun t =>
      t.pwr = { s.pwr with state := .idle, req := .none, rows := 0 } ∧ Frame noRegs [.pwr] s t)
  ∧ (∀ (s : State), s.pwr.req ≠ .toIdle ∨ s.atBoundary = false → Gives .idleEntry s fun t => Frame noRegs [] s t)
  ∧ (∀ (s : State), s.pwr.req = .toStandby → s.sched.run = none → s.standbySaved = true → s.supervised = true →
      Gives .standbyReady s fun t => t.pwr = { s.pwr with standbyReady := true, req := .none } ∧ Frame noRegs [.pwr] s t)
  ∧ (∀ (s : State), s.pwr.req ≠ .toStandby ∨ s.sched.run.isSome = true ∨ s.standbySaved = false ∨ s.supervised = false →
      Gives .standbyReady s fun t => Frame noRegs [] s t)
  ∧ (∀ (s : State) (r : Fin 16) (x : State), s.dryStart = true → x = s.pass (1500 * r.val - s.time.pos) →
      Gives (.dryModeRowStart r) s fun t => (∀ i, i < 16 → t.pwr.dry.getLsbD i = (x.pwr.dry.getLsbD i || i == r.val))
      ∧ t.time = x.time)
  ∧ (∀ (s : State) (r : Fin 16), s.dryStart = true → s.nextUnits = none → Gives (.dryModeRowStart r) s fun t =>
      (∀ i, i < 16 → t.pwr.dry.getLsbD i = (s.pwr.dry.getLsbD i || i == r.val))
      ∧ t.time.total = s.time.total + (1500 * r.val - s.time.pos) ∧ Frame noRegs [.pwr, .time] s t)
  ∧ (∀ (s : State) (r : Fin 16), s.dryStart = false → Gives (.dryModeRowStart r) s fun t => Frame noRegs [] s t)
  ∧ (∀ (s : State) (r : Fin 16) (x : State), s.sched.run = none → s.dryStart = false →
      x = s.pass (1500 * (r.val + 1) - s.time.pos) → Gives (.dryModeRowStop r) s fun t =>
      (∀ i, i < 16 → t.pwr.dry.getLsbD i = (x.pwr.dry.getLsbD i && i != r.val)) ∧ t.time = x.time)
  ∧ (∀ (s : State) (r : Fin 16), s.sched.run = none → s.dryStart = false → s.nextUnits = none →
      Gives (.dryModeRowStop r) s fun t => (∀ i, i < 16 → t.pwr.dry.getLsbD i = (s.pwr.dry.getLsbD i && i != r.val))
      ∧ t.time.total = s.time.total + (1500 * (r.val + 1) - s.time.pos) ∧ Frame noRegs [.pwr, .time] s t)
  ∧ (∀ (s : State), s.pwr.coreUp = true → s.pwr.coreReady = false → Gives .bootComplete s fun t => t.pwr.coreReady = true
      ∧ t.pwr.state = .idle ∧ bit (t.hdr 0 hEvt) 1 = true ∧ t.time.tb0 = s.time.tb0 ∧ t.nv = s.nv)
  ∧ (∀ (s : State), s.pwr.coreUp = false ∨ s.pwr.coreReady = true → Gives .bootComplete s fun t => Frame noRegs [] s t)

/-- A reading of 100 °C or more, and one above 105 °C, is reported with its value and marks a frozen calibration that it
leaves stale; above 105 °C or below -40 °C an enabled tamper source 4 is latched; 120 °C trips the core; a cold start
holds the core until -10 °C. An over-current disables its pin, a retry whose delay has passed enables it again while
retries are left, contention disables every output involved, a mismatch is recorded, and PIN_OE is written and begins the
retries anew. Where the rules leave a choice its clauses rest on the model's, log entries 3, 34 and 38. -/
def Obligations.TemperatureAndPins : Prop :=
  (∀ (s : State) (x : BitVec 8), 100 ≤ x.toInt → s.pwr.state ≠ .off → Gives (.tempWarning x) s fun t =>
      t.pwr = { s.pwr with junction := x } ∧ s.reports t 0x08 0 0x03 s.pwrStat (wordI x.toInt)
      ∧ (s.calFar x.toInt = true → t.rdb R.CAL_STAT 0 1 = true ∧ bit (t.hdr 0x5B hEvt) 5 = true)
      ∧ (s.calFar x.toInt = false → t.rd R.CAL_STAT = s.rd R.CAL_STAT ∧ t.hdr 0x5B hEvt = s.hdr 0x5B hEvt)
      ∧ Frame (regsIn (R.CAL_STAT.key 0 :: regKey 0 0x5B 0 hEvt :: reportKeys)) [.pwr, .bitt] s t)
  ∧ (∀ (s : State) (x : BitVec 8), 105 < x.toInt → s.pwr.state ≠ .off → s.rdb R.TMP_CFG 0 4 = false →
      Gives (.tempOutOfRange x) s fun t => t.pwr = { s.pwr with junction := x }
      ∧ s.reports t 0x08 0 0x03 s.pwrStat (wordI x.toInt)
      ∧ Frame (regsIn (R.CAL_STAT.key 0 :: regKey 0 0x5B 0 hEvt :: reportKeys)) [.pwr, .bitt] s t)
  ∧ (∀ (s : State) (x : BitVec 8), x.toInt < -40 → s.pwr.state ≠ .off → s.rdb R.TMP_CFG 0 4 = false →
      Gives (.tempOutOfRange x) s fun t => t.pwr = { s.pwr with junction := x }
      ∧ Frame (regsIn [R.CAL_STAT.key 0, regKey 0 0x5B 0 hEvt]) [.pwr] s t)
  ∧ (∀ (s : State) (x : BitVec 8), 105 < x.toInt ∨ x.toInt < -40 → s.pwr.state ≠ .off → s.rdb R.TMP_CFG 0 4 = true →
      Gives (.tempOutOfRange x) s fun t => t.pwr.junction = x ∧ t.rdb R.TMP_LATCH 0 4 = true ∧ t.rdf R.TMP_LAST 0 3 0 = 4
      ∧ t.rdf R.TMP_LAST 0 19 16 = s.tmpPhase false ∧ bit (t.hdr 0x09 hEvt) 0 = true)
  ∧ (∀ (s : State) (x : BitVec 8), 120 ≤ x.toInt → s.pwr.state ≠ .off → Gives (.thermalTrip x) s fun t =>
      t.pwr.tripHold = true ∧ t.pwr.state = (if s.pwr.state = .standby then .standby else .held) ∧ t.pwr.coreUp = false
      ∧ t.pwr.lastStop = 4 ∧ t.pwr.junction = x ∧ s.reports t 0x08 0 0x04 t.pwrStat (wordI x.toInt) ∧ t.heap.mem = s.heap.mem
      ∧ t.nv = s.nv)
  ∧ (∀ (s : State) (x : BitVec 8), x.toInt < -10 → s.pwr.coreUp = true → s.pwr.coreReady = false →
      Gives (.lowTempHold x) s fun t => t.pwr.tempHold = true ∧ t.pwr.state = .held ∧ t.pwr.coreUp = false
      ∧ t.pwr.junction = x ∧ t.pwr.lastStop = s.pwr.lastStop ∧ t.nv = s.nv)
  ∧ (∀ (s : State) (x : BitVec 8), -10 ≤ x.toInt ∨ s.pwr.coreUp = false ∨ s.pwr.coreReady = true →
      Gives (.lowTempHold x) s fun t => Frame noRegs [] s t)
  ∧ (∀ (s : State) (x : BitVec 8), s.pwr.tempHold = true → -10 ≤ x.toInt → Gives (.lowTempRelease x) s fun t =>
      t.pwr.tempHold = false ∧ t.pwr.junction = x
      ∧ (s.pwr.warmN = false → t.pwr = { s.pwr with tempHold := false, state := .boot, junction := x })
      ∧ (s.pwr.warmN = false → Frame (regsIn [R.CAL_STAT.key 0, regKey 0 0x5B 0 hEvt]) [.pwr] s t))
  ∧ (∀ (s : State) (x : BitVec 8), s.pwr.tempHold = false ∨ x.toInt < -10 → Gives (.lowTempRelease x) s fun t =>
      Frame noRegs [] s t)
  ∧ (∀ (s : State) (i : Fin 18), bit s.pinOn i = true → Gives (.pinOvercurrentDisable i) s fun t =>
      t.rd R.PIN_OE = putBit (s.rd R.PIN_OE) i false ∧ t.rd R.PIN_FAULT = putBit (s.rd R.PIN_FAULT) i true
      ∧ t.rdf R.PIN_LAST_EVT 0 15 8 = i.val ∧ t.rdf R.PIN_LAST_EVT 0 7 0 = 1 ∧ bit (t.hdr 0x5C hEvt) 0 = true
      ∧ pget t.pins.waits i = some s.time.total ∧ t.pins.retries = s.pins.retries
      ∧ Frame (regsIn [R.PIN_OE.key 0, R.PIN_FAULT.key 0, R.PIN_LAST_EVT.key 0, regKey 0 0x5C 0 hEvt]) [.pins] s t)
  ∧ (∀ (s : State) (i : Fin 18), bit s.pinOn i = false → Gives (.pinOvercurrentDisable i) s fun t => Frame noRegs [] s t)
  ∧ (∀ (s : State) (i : Fin 18), s.enabled 0x5C = true → s.rdb R.PIN_RETRY 0 0 = true → s.retryDue i = true →
      mget (fun _ => 0) s.pins.retries i < s.rdf R.PIN_RETRY 0 15 12 → Gives (.pinRetryReenable i) s fun t =>
      t.rd R.PIN_OE = putBit (s.rd R.PIN_OE) i true
      ∧ mget (fun _ => 0) t.pins.retries i = mget (fun _ => 0) s.pins.retries i + 1 ∧ pget t.pins.waits i = none
      ∧ t.rdf R.PIN_LAST_EVT 0 15 8 = i.val ∧ t.rdf R.PIN_LAST_EVT 0 7 0 = 3
      ∧ Frame (regsIn [R.PIN_OE.key 0, R.PIN_LAST_EVT.key 0]) [.pins] s t)
  ∧ (∀ (s : State) (i : Fin 18),
      s.enabled 0x5C = false ∨ s.rdb R.PIN_RETRY 0 0 = false ∨ s.retryDue i = false ∨ s.rdf R.PIN_RETRY 0 15 12 ≤ mget (fun _ => 0) s.pins.retries i →
      Gives (.pinRetryReenable i) s fun t => Frame noRegs [] s t)
  ∧ (∀ (s : State) (ps : List (Fin 18)) (on : List Nat),
      on = onesOf 18 ((ps.foldl (fun w p => setBit w p) 0) &&& s.pinOn).toNat → on.any (fun p => bit s.pinDrive p) = true →
      on.any (fun p => !bit s.pinDrive p) = true → Gives (.pinContention ps) s fun t =>
      on.all (fun p => !t.rdb R.PIN_OE 0 p && t.rdb R.PIN_FAULT 0 (32 + p)) = true
      ∧ (List.range 18).all (fun p => on.contains p || t.rdb R.PIN_OE 0 p == s.rdb R.PIN_OE 0 p) = true
      ∧ t.rdf R.PIN_LAST_EVT 0 7 0 = 2 ∧ t.rdf R.PIN_LAST_EVT 0 15 8 = on.getD 0 0
      ∧ t.rdf R.PIN_LAST_EVT 0 23 16 = on.getD 1 0 ∧ t.rdb R.PIN_LAST_EVT 0 24 = decide (2 < on.length)
      ∧ bit (t.hdr 0x5C hEvt) 1 = true
      ∧ Frame (regsIn [R.PIN_OE.key 0, R.PIN_FAULT.key 0, R.PIN_LAST_EVT.key 0, regKey 0 0x5C 0 hEvt]) [.pins] s t)
  ∧ (∀ (s : State) (ps : List (Fin 18)) (on : List Nat),
      on = onesOf 18 ((ps.foldl (fun w p => setBit w p) 0) &&& s.pinOn).toNat →
      on.all (fun p => bit s.pinDrive p) = true ∨ on.all (fun p => !bit s.pinDrive p) = true →
      Gives (.pinContention ps) s fun t => Frame noRegs [] s t)
  ∧ (∀ (s : State) (i : Fin 18), bit s.pinOn i = true → Gives (.pinMismatch i) s fun t => t.rdf R.PIN_LAST_EVT 0 7 0 = 4
      ∧ t.rdf R.PIN_LAST_EVT 0 15 8 = i.val ∧ bit (t.hdr 0x5C hEvt) 2 = true
      ∧ Frame (regsIn [R.PIN_LAST_EVT.key 0, regKey 0 0x5C 0 hEvt]) [] s t)
  ∧ (∀ (s : State) (i : Fin 18), bit s.pinOn i = false → Gives (.pinMismatch i) s fun t => Frame noRegs [] s t)
  ∧ (∀ (s : State) (a : Agent) (v : Word), s.accepts a 0x5C R.PIN_OE.off v = true → Gives (.pinOeWrite a v) s fun t =>
      t.rd R.PIN_OE = v ∧ t.pins = { s.pins with retries := [], waits := [] } ∧ Frame (regsIn [R.PIN_OE.key 0]) [.pins] s t)
  ∧ (∀ (s : State) (a : Agent) (v : Word), a ≠ .host ∨ s.fab.posted = [] → s.served a 0x5C = true →
      s.secureWorld a = true ∨ s.secureOwned 0x5C = false → v &&& 0xFFFFFFFFFFFC0000#64 = 0 →
      v &&& (s.rd R.PIN_FAULT ||| (s.rd R.PIN_FAULT >>> 32)) &&& 0x3FFFF#64 ≠ 0 → Gives (.pinOeWrite a v) s fun t =>
      t.rdf R.LAST_REJECT 0 47 40 = 4 ∧ t.rd R.PIN_OE = s.rd R.PIN_OE ∧ Frame (regsIn (rejectKeys 0x5C)) [] s t)

/-- A write of PG_EVT_EN, PG_EVT, PG_REJECT, PG_BANK or SCRATCH that passes every check takes effect, PG_EVT and PG_REJECT by
clearing the bits written as 1, and nothing else changes. A write that a check refuses changes nothing but the records of
R71 and R81, and the agent's held words where it is a group's head; at a page that is not allocated only DEV records it.
Of two writes of PG_EVT_EN in one RCLK the lower agent's is accepted and the other is rejected with E_CONFLICT. A read of
a wrong size or alignment, and one by the normal world on a secure page, is recorded. An access of an agent that is not
served does nothing. The host's accesses are those that find no earlier write of its own waiting. Where the rules leave a
choice its clauses rest on the model's, log entries 3, 39 and 40. -/
def Obligations.RegisterWritesPassTheirChecks : Prop :=
  (∀ (s : State) (w : Access), w.size = 8 → w.off.val = hEvtEn → s.accepts w.agent w.page w.off w.value = true →
      Gives (.registerWrite [w]) s fun t => t.hdr w.page hEvtEn = w.value ∧ Frame (regsIn [regKey 0 w.page 0 hEvtEn]) [] s t)
  ∧ (∀ (s : State) (w : Access), w.size = 8 → w.off.val = hEvt → w.page ≠ 0x5D →
      s.accepts w.agent w.page w.off w.value = true → Gives (.registerWrite [w]) s fun t =>
      t.hdr w.page hEvt = s.hdr w.page hEvt &&& ~~~w.value ∧ Frame (regsIn [regKey 0 w.page 0 hEvt]) [] s t)
  ∧ (∀ (s : State) (w : Access), w.size = 8 → w.off.val = hReject → s.accepts w.agent w.page w.off w.value = true →
      Gives (.registerWrite [w]) s fun t => t.hdr w.page hReject = s.hdr w.page hReject &&& ~~~w.value
      ∧ Frame (regsIn [regKey 0 w.page 0 hReject]) [] s t)
  ∧ (∀ (s : State) (w : Access), w.size = 8 → w.off.val = hBank → s.accepts w.agent w.page w.off w.value = true →
      Gives (.registerWrite [w]) s fun t => t.bankOf w.agent w.page = w.value.toNat
      ∧ Frame (regsIn [regKey (1 + w.agent.code) w.page 0 hBank]) [] s t)
  ∧ (∀ (s : State) (w : Access), w.size = 8 → w.page = 0 → w.off.val = R.SCRATCH.off →
      s.accepts w.agent w.page w.off w.value = true → Gives (.registerWrite [w]) s fun t => t.rd R.SCRATCH = w.value
      ∧ Frame (regsIn [R.SCRATCH.key 0]) [] s t)
  ∧ (∀ (s : State) (w : Access) (c : Code), s.served w.agent w.page = true → w.agent ≠ .host ∨ s.fab.posted = [] →
      s.codeAmong [] w = some c → (pageInfo w.page).isSome = true → Gives (.registerWrite [w]) s fun t =>
      fld (t.rd R.LAST_REJECT) 47 40 = c.num ∧ fld (t.rd R.LAST_REJECT) 31 24 = w.agent.code
      ∧ fld (t.rd R.LAST_REJECT) 23 12 = w.page.val ∧ fld (t.rd R.LAST_REJECT) 11 0 = w.off.val
      ∧ fld (t.hdr w.page hReject) 47 40 = c.num ∧ fld (t.hdr w.page hReject) 11 0 = w.off.val
      ∧ fld (t.hdr w.page hReject) 63 48 = min (fld (s.hdr w.page hReject) 63 48 + 1) 65535 ∧ bit (t.hdr 0 hEvt) 0 = true
      ∧ (s.writeCode w = some c → t.fab = s.fab) ∧ Frame (regsIn (rejectKeys w.page)) [.fab] s t)
  ∧ (∀ (s : State) (w : Access), s.served w.agent w.page = true → w.agent ≠ .host ∨ s.fab.posted = [] → w.size = 8 →
      w.off.val % 8 = 0 → (pageInfo w.page).isNone = true → Gives (.registerWrite [w]) s fun t =>
      fld (t.rd R.LAST_REJECT) 47 40 = Code.access.num
      ∧ fld (t.rd R.LAST_REJECT) 63 48 = min (fld (s.rd R.LAST_REJECT) 63 48 + 1) 65535 ∧ bit (t.hdr 0 hEvt) 0 = true
      ∧ Frame (regsIn [R.LAST_REJECT.key 0, regKey 0 0 0 hEvt]) [] s t)
  ∧ (∀ (s : State) (w : Access), s.served w.agent w.page = false → w.agent ≠ .host ∨ s.fab.posted = [] →
      Gives (.registerWrite [w]) s fun t => Frame noRegs [] s t)
  ∧ (∀ (s : State) (x : Access) (y : Access), x.size = 8 → y.size = 8 → x.off.val = hEvtEn → y.off = x.off →
      y.page = x.page → x.agent.code < y.agent.code → s.fab.posted = [] → s.accepts x.agent x.page x.off x.value = true →
      s.served y.agent y.page = true → Gives (.registerWrite [x, y]) s fun t => t.hdr x.page hEvtEn = x.value
      ∧ fld (t.hdr x.page hReject) 47 40 = 0x08 ∧ fld (t.hdr x.page hReject) 31 24 = y.agent.code
      ∧ Frame (regsIn (regKey 0 x.page 0 hEvtEn :: rejectKeys x.page)) [] s t)
  ∧ (∀ (s : State) (r : Access), s.served r.agent r.page = true → r.agent ≠ .host ∨ s.fab.posted = [] →
      readFits r.off r.size = false → (pageInfo r.page).isSome = true → Gives (.refusedRead r) s fun t =>
      fld (t.rd R.LAST_REJECT) 47 40 = 0x0A ∧ fld (t.hdr r.page hReject) 47 40 = 0x0A
      ∧ fld (t.hdr r.page hReject) 63 48 = min (fld (s.hdr r.page hReject) 63 48 + 1) 65535 ∧ bit (t.hdr 0 hEvt) 0 = true
      ∧ Frame (regsIn (rejectKeys r.page)) [] s t)
  ∧ (∀ (s : State) (r : Access), s.served r.agent r.page = true → r.agent ≠ .host ∨ s.fab.posted = [] →
      readFits r.off r.size = true → (pageInfo r.page).isSome = true → (findReg r.page (r.off.val / 8 * 8)).isSome = true →
      0x100 ≤ r.off.val → s.secureOwned r.page = true → s.secureWorld r.agent = false → Gives (.refusedRead r) s fun t =>
      fld (t.rd R.LAST_REJECT) 47 40 = 0x06 ∧ fld (t.hdr r.page hReject) 47 40 = 0x06 ∧ bit (t.hdr 0 hEvt) 0 = true
      ∧ Frame (regsIn (rejectKeys r.page)) [] s t)
  ∧ (∀ (s : State) (r : Access), s.served r.agent r.page = false → r.agent ≠ .host ∨ s.fab.posted = [] →
      Gives (.refusedRead r) s fun t => Frame noRegs [] s t)

/-- Reading a group's head captures its members for that agent; a member's write is held for that agent; the head's write of
a ring, a firewall rule or a filter puts all its words in effect and drops the held ones, and a refused head drops the
held ones and changes no register but the records. PG_CTRL takes its two bits, but for a gating request that meets a
secure use, which is deferred with ENABLE kept; on PINIO no other register or part changes. PG_OWNER is written by the
secure world. The oldest posted write is taken from the buffer: of PG_EVT_EN it takes effect, and one that a check
refuses is recorded. Where the rules leave a choice its clauses rest on the model's, log entries 3, 41, 42, 45, 46 and
140. -/
def Obligations.GroupsAndHeaders : Prop :=
  (∀ (s : State) (a : Agent) (p : Fin 128) (o : Fin 4096) (r : Reg) (k : Nat), s.served a p = true →
      a ≠ .host ∨ s.fab.posted = [] → findReg p o = some (r, k) → 0x100 ≤ o.val → o.val % 8 = 0 → isMember r k = false →
      0 < groupSize r k → s.secureOwned p = false ∨ s.secureWorld a = true → Gives (.groupHeadRead a p o) s fun t =>
      (List.range (groupSize r k)).all (fun i => pget t.fab.captures (regKey (1 + a.code) p 0 (o + 8 * (i + 1))) == some (s.liveAt a p (o + 8 * (i + 1)))) = true
      ∧ Frame noRegs [.fab] s t)
  ∧ (∀ (s : State) (w : Access) (r : Reg) (k : Nat), w.size = 8 → 0x100 ≤ w.off.val → findReg w.page w.off = some (r, k) →
      r.mem ≠ 0 → s.accepts w.agent w.page w.off w.value = true → Gives (.groupHeldWrite w) s fun t =>
      pget t.fab.held (regKey (1 + w.agent.code) w.page 0 w.off) = some w.value ∧ Frame noRegs [.fab] s t)
  ∧ (∀ (s : State) (w : Access), w.size = 8 → w.page = 0x58 → w.off.val = R.RING_D0.off →
      s.accepts w.agent w.page w.off w.value = true → Gives (.groupHeadWrite w) s fun t =>
      (t.ring (s.ringSel w.agent)).d0 = w.value
      ∧ (t.ring (s.ringSel w.agent)).d2 = s.heldWord w.agent 0x58 R.RING_D2.off (s.ring (s.ringSel w.agent)).d2
      ∧ (t.ring (s.ringSel w.agent)).d3 = s.heldWord w.agent 0x58 R.RING_D3.off (s.ring (s.ringSel w.agent)).d3
      ∧ pget t.fab.held (regKey (1 + w.agent.code) 0x58 0 R.RING_D1.off) = none
      ∧ pget t.fab.held (regKey (1 + w.agent.code) 0x58 0 R.RING_D2.off) = none
      ∧ pget t.fab.held (regKey (1 + w.agent.code) 0x58 0 R.RING_D3.off) = none ∧ Frame noRegs [.net, .fab] s t)
  ∧ (∀ (s : State) (w : Access) (k : Nat), w.size = 8 → w.page = 0x0C → findReg w.page w.off = some (R.FW_RULE_A, k) →
      s.accepts w.agent w.page w.off w.value = true → Gives (.groupHeadWrite w) s fun t => t.rd R.FW_RULE_A 0 k = w.value
      ∧ t.rd R.FW_RULE_B 0 k = s.heldWord w.agent 0x0C (R.FW_RULE_B.off + 16 * k) (s.rd R.FW_RULE_B 0 k)
      ∧ pget t.fab.held (regKey (1 + w.agent.code) 0x0C 0 (R.FW_RULE_B.off + 16 * k)) = none
      ∧ t.rdf R.FW_GEN 0 31 0 = (s.rdf R.FW_GEN 0 31 0 + 1) % 2 ^ 32
      ∧ Frame (regsIn [R.FW_RULE_A.key 0 k, R.FW_RULE_B.key 0 k, R.FW_GEN.key 0]) [.fab] s t)
  ∧ (∀ (s : State) (w : Access), w.size = 8 → w.page = 0x54 → findReg w.page w.off = some (R.FLT_W0, 0) →
      s.accepts w.agent w.page w.off w.value = true → Gives (.groupHeadWrite w) s fun t =>
      t.fltOf w.agent = { w0 := w.value, w1 := s.heldWord w.agent 0x54 R.FLT_W1.off (s.fltOf w.agent).w1, w2 := s.heldWord w.agent 0x54 R.FLT_W2.off (s.fltOf w.agent).w2 }
      ∧ pget t.fab.held (regKey (1 + w.agent.code) 0x54 0 R.FLT_W1.off) = none
      ∧ pget t.fab.held (regKey (1 + w.agent.code) 0x54 0 R.FLT_W2.off) = none ∧ Frame noRegs [.net, .fab] s t)
  ∧ (∀ (s : State) (w : Access) (r : Reg) (k : Nat) (c : Code), s.served w.agent w.page = true →
      w.agent ≠ .host ∨ s.fab.posted = [] → findReg w.page w.off = some (r, k) → isHead w = true → s.writeCode w = none →
      s.headCode w = some c → Gives (.groupHeadWrite w) s fun t =>
      (List.range r.grp).all (fun i => pget t.fab.held (regKey (1 + w.agent.code) w.page 0 (w.off + 8 * (i + 1))) == none) = true
      ∧ fld (t.hdr w.page hReject) 47 40 = c.num ∧ fld (t.rd R.LAST_REJECT) 47 40 = c.num
      ∧ Frame (regsIn (rejectKeys w.page)) [.fab] s t)
  ∧ (∀ (s : State) (a : Agent) (p : Fin 128) (v : Word), s.accepts a p hCtrl v = true →
      s.enabled p = false ∨ bit v 0 = true ∨ s.secureOwned p = true ∨ s.secureUse p = false →
      Gives (.pgCtrlWrite a p v) s fun t => t.hdr p hCtrl = v &&& 3 ∧ t.enabled p = bit v 0)
  ∧ (∀ (s : State) (a : Agent) (p : Fin 128) (v : Word), p = 0x5C → bit v 1 = false → s.accepts a p hCtrl v = true →
      s.enabled p = false ∨ bit v 0 = true ∨ s.secureOwned p = true ∨ s.secureUse p = false →
      Gives (.pgCtrlWrite a p v) s fun t => t.hdr p hCtrl = v &&& 3 ∧ Frame (regsIn [regKey 0 0x5C 0 hCtrl]) [] s t)
  ∧ (∀ (s : State) (a : Agent) (p : Fin 128) (v : Word), s.accepts a p hCtrl v = true → s.enabled p = true →
      bit v 0 = false → s.secureOwned p = false → s.secureUse p = true → Gives (.pgCtrlWrite a p v) s fun t =>
      t.enabled p = true ∧ t.gatePending p = true ∧ t.sup.gateCode = 0x0C ∧ t.sup.gatePage = p.val
      ∧ t.sup.deferrals = min (s.sup.deferrals + 1) 65535)
  ∧ (∀ (s : State) (a : Agent) (p : Fin 128) (v : Word), s.accepts a p hOwner v = true →
      Gives (.pgOwnerWrite a p v) s fun t => t.hdr p hOwner = v ∧ t.secureOwned p = bit v 0
      ∧ Frame (regsIn [regKey 0 p 0 hOwner]) [] s t)
  ∧ (∀ (s : State) (w : Access) (ws : List Access), s.fab.posted = w :: ws → w.size = 8 → w.off.val = hEvtEn →
      ({ s with fab := { s.fab with posted := [] } } : State).accepts w.agent w.page w.off w.value = true →
      Gives .postedWriteApply s fun t => t.fab.posted = ws ∧ t.hdr w.page hEvtEn = w.value
      ∧ Frame (regsIn [regKey 0 w.page 0 hEvtEn]) [.fab] s t)
  ∧ (∀ (s : State) (w : Access) (ws : List Access) (c : Code), s.fab.posted = w :: ws → s.served w.agent w.page = true →
      s.writeCode w = some c → (pageInfo w.page).isSome = true → Gives .postedWriteApply s fun t =>
      t.fab = { s.fab with posted := ws } ∧ fld (t.hdr w.page hReject) 47 40 = c.num
      ∧ fld (t.hdr w.page hReject) 63 48 = min (fld (s.hdr w.page hReject) 63 48 + 1) 65535
      ∧ fld (t.rd R.LAST_REJECT) 47 40 = c.num ∧ Frame (regsIn (rejectKeys w.page)) [.fab] s t)
  ∧ (∀ (s : State), s.fab.posted = [] → Gives .postedWriteApply s fun t => Frame noRegs [] s t)

/-- At a tide boundary the tide counter increments and the next tide begins, after the rest of the tide that ends has passed;
in a core in reset no tide passes. When the opening of a committed step is due a new epoch begins with tide 0 at the
committed start; at any other time nothing opens. A member with a pending adoption that is due takes the reference
epoch's number, start and tide, with its event; before that nothing changes. Where the rules leave a choice its clauses
rest on the model's, log entries 3, 47, 153, 155, 227 and 228. -/
def Obligations.TidesAndEpochsAdvance : Prop :=
  (∀ (s : State), s.pwr.coreUp = true → s.time.pos < tideSclk → Gives .tideBoundary s fun t => t.time.tide = s.time.tide + 1
      ∧ t.time.pos = 0 ∧ t.time.total = s.time.total + (tideSclk - s.time.pos) ∧ t.time.epoch = s.time.epoch
      ∧ t.heap.mem = s.heap.mem ∧ t.nv = s.nv)
  ∧ (∀ (s : State), s.pwr.coreUp = false → Gives .tideBoundary s fun t => Frame noRegs [] s t)
  ∧ (∀ (s : State), s.atBoundary = true → s.epochDue = true → Gives .epochOpen s fun t =>
      t.time.epoch = nextEpoch s.time.epoch ∧ t.time.epochStart = s.stepStart ∧ t.time.tb0 = s.stepStart ∧ t.time.tide = 0
      ∧ t.time.pos = 0 ∧ t.time.armPend = false ∧ t.heap.mem = s.heap.mem ∧ t.nv = s.nv)
  ∧ (∀ (s : State), s.atBoundary = false ∨ s.epochDue = false → Gives .epochOpen s fun t => Frame noRegs [] s t)
  ∧ (∀ (s : State), s.atBoundary = true → s.mesh.adoptPend = true → s.viewHeld = true → s.refTide s.refEpoch.2 % 15 = 0 →
      Gives .epochAdoption s fun t => t.time.epoch = s.refEpoch.1 ∧ t.time.epochStart = s.refEpoch.2
      ∧ t.time.tide = s.refTide s.refEpoch.2 ∧ t.time.pos = 0 ∧ t.mesh.adoptPend = false ∧ bit (t.hdr 0x5D hEvt) 2 = true
      ∧ t.heap.mem = s.heap.mem)
  ∧ (∀ (s : State), s.atBoundary = false ∨ s.mesh.adoptPend = false ∨ s.viewHeld = false → Gives .epochAdoption s fun t =>
      Frame noRegs [] s t)

/-- At a boundary a committed set that is due becomes the working one and its COMMIT bit clears: the arm, or with RESULT 6
its cancellation where it names a closed epoch, and while a supervisor is active a delay model, gains, a window with the
noise gain of the running image, the weight copy, the destination table, the TB0 step. A set that waits for one boundary
more stays committed; so do, with no supervisor active, all sets but an arm. Away from a boundary nothing is adopted.
Where the rules leave a choice its clauses rest on the model's, log entries 3 and 47. -/
def Obligations.ShadowSetsAreAdopted : Prop :=
  (∀ (s : State), s.atBoundary = true → s.fab.commits = [{ set := .arm, wait := 0 }] → s.sched.cancel = false →
      s.rdf R.ARM_CTRL 0 63 32 = s.time.epoch → Gives .shadowSetAdoption s fun t =>
      t.sched.pend = some { halt := s.rdb R.ARM_CTRL 0 1, store := s.rdf R.ARM_CTRL 0 8 8, stress := s.rdb R.ARM_CTRL 0 9, tide := (s.rd R.ARM_TIDE).toNat, epoch := s.time.epoch }
      ∧ t.rdb R.ARM_CTRL 0 0 = false ∧ bit (t.hdr 0x10 hEvt) 2 = true ∧ t.fab.commits = []
      ∧ ((List.range 32).all (fun e => !s.rdb R.ETH_STAT e 11) = true → Frame (regsIn [R.ARM_CTRL.key 0, regKey 0 0x10 0 hEvt]) [.fab, .sched] s t))
  ∧ (∀ (s : State), s.atBoundary = true → s.fab.commits = [{ set := .arm, wait := 0 }] → s.sched.cancel = false →
      s.rdb R.ARM_CTRL 0 1 = false → s.rdf R.ARM_CTRL 0 63 32 ≠ s.time.epoch → Gives .shadowSetAdoption s fun t =>
      t.sched.pend = none ∧ t.storeSt (s.rdf R.ARM_CTRL 0 8 8) = .valid ∧ t.rd R.SWAP_STAT = 6
      ∧ t.rd R.SWAP_TIDE = word s.time.tide ∧ bit (t.hdr 0x10 hEvt) 4 = true)
  ∧ (∀ (s : State) (u : Nat) (k : Nat), s.atBoundary = true → u < 256 → k < 16 → s.supervised = true →
      s.fab.commits = [{ set := .dm u k, wait := 0 }] → Gives .shadowSetAdoption s fun t =>
      (t.slt u k).newer = some (s.shadowModel u k) ∧ (t.slt u k).older = (s.slt u k).newer
      ∧ bit (t.rd R.DM_CTRL u k) 0 = false ∧ Frame (regsIn [R.DM_CTRL.key u k, R.SLOT_STAT.key u k]) [.fab, .slu] s t)
  ∧ (∀ (s : State) (u : Nat), s.atBoundary = true → u < 256 → s.supervised = true →
      s.fab.commits = [{ set := .gain u, wait := 0 }] → Gives .shadowSetAdoption s fun t =>
      (∀ i, i < 65536 → mget (fun _ => 0) t.slu.gainW (65536 * u + i) = mget (fun _ => 0) s.slu.gainS (65536 * u + i))
      ∧ t.rd R.GAIN_CTRL u = 0 ∧ Frame (regsIn [R.GAIN_CTRL.key u]) [.fab, .slu] s t)
  ∧ (∀ (s : State) (u : Nat), s.atBoundary = true → u < 256 → s.supervised = true →
      s.fab.commits = [{ set := .win u, wait := 0 }] → Gives .shadowSetAdoption s fun t =>
      (∀ i, i < 32768 → mget (fun _ => 0) t.slu.winW (32768 * u + i) = mget (fun _ => 0) s.slu.winS (32768 * u + i))
      ∧ t.rd R.WIN_CTRL u = 0
      ∧ (s.sched.run.isSome = true → (t.sluUnit u).noise = word64 (to64 (t.noiseGain u (budLogChan (s.image.getD [])))))
      ∧ (s.sched.run.isSome = true → t.free = s.free) ∧ Frame (regsIn [R.WIN_CTRL.key u]) [.fab, .slu, .free] s t)
  ∧ (∀ (s : State), s.atBoundary = true → s.supervised = true → s.fab.commits = [{ set := .wtSel, wait := 0 }] →
      Gives .shadowSetAdoption s fun t => t.rdb R.WT_STAT 0 0 = s.rdb R.WT_SEL 0 1
      ∧ t.rdf R.WT_STAT 0 63 32 = s.time.tide % 2 ^ 32 ∧ t.rdb R.WT_SEL 0 0 = false
      ∧ t.heap = { s.heap with pch := t.heap.pch } ∧ Frame (regsIn [R.WT_SEL.key 0, R.WT_STAT.key 0]) [.fab, .heap] s t)
  ∧ (∀ (s : State), s.atBoundary = true → s.supervised = true → s.fab.commits = [{ set := .dest, wait := 0 }] →
      Gives .shadowSetAdoption s fun t => t.net.dstWork = s.net.dstShadow ∧ t.rd R.DST_CTRL = 0
      ∧ Frame (regsIn [R.DST_CTRL.key 0]) [.fab, .net] s t)
  ∧ (∀ (s : State), s.atBoundary = true → s.supervised = true → s.fab.commits = [{ set := .tb0Step, wait := 0 }] →
      Gives .shadowSetAdoption s fun t => t.time = { s.time with armPend := true, closedAt := s.time.tide }
      ∧ t.rdb R.STEP_CTRL 0 0 = false ∧ Frame (regsIn [R.STEP_CTRL.key 0]) [.fab, .time] s t)
  ∧ (∀ (s : State) (c : Commit), s.atBoundary = true → s.fab.commits = [c] → c.wait ≠ 0 → Gives .shadowSetAdoption s fun t =>
      t.fab.commits = [c] ∧ Frame noRegs [] s t)
  ∧ (∀ (s : State) (c : Commit), s.fab.commits = [c] → s.atBoundary = false ∨ (s.supervised = false ∧ c.set ≠ .arm) →
      Gives .shadowSetAdoption s fun t => t.fab.commits = [c] ∧ Frame noRegs [] s t)

/-- LOAD starts the checks of a store, CLEAR empties it, and the checks' end under a supervisor leaves the store VALID or
REFUSED with LOAD_STAT and an event; with none the checks stay open. A window write that the firewall lets through
reaches the store's bytes, or at a store that is checked, armed or running is refused with an event, a report and a
decode error; one that the firewall refuses is recorded there and changes no store. Where the rules leave a choice its
clauses rest on the model's, log entries 3 and 53. -/
def Obligations.ImageStores : Prop :=
  (∀ (s : State) (a : Agent) (i : Fin 2), s.accepts a 0x10 R.LOAD_CMD.off (word (at_ 8 i + 1)) = true →
      Gives (.loadStart a i) s fun t => t.storeSt i = .checking ∧ t.sched.check = some (i.val, s.time.total)
      ∧ t.storeSt (1 - i.val) = s.storeSt (1 - i.val) ∧ t.sched.image0 = s.sched.image0 ∧ t.sched.image1 = s.sched.image1
      ∧ Frame noRegs [.sched] s t)
  ∧ (∀ (s : State) (a : Agent) (i : Fin 2), s.accepts a 0x10 R.LOAD_CMD.off (word (at_ 8 i + 2)) = true →
      Gives (.loadClear a i) s fun t => t.storeSt i = .empty ∧ t.storeMem i = []
      ∧ t.storeSt (1 - i.val) = s.storeSt (1 - i.val) ∧ t.storeMem (1 - i.val) = s.storeMem (1 - i.val)
      ∧ Frame noRegs [.sched] s t)
  ∧ (∀ (s : State) (us : BitVec 16) (i : Nat) (x : Nat), s.sched.check = some (i, x) → i < 2 → s.supervised = true →
      Gives (.loadCheckDone us) s fun t => t.sched.check = none
      ∧ (loadChecks (s.storeMem i) (s.rd R.MESH_CFG) s.nv.otp s.sigRequired = none → t.storeSt i = .valid ∧ t.rd R.LOAD_STAT = word (at_ 48 0xFFFF + at_ 32 0xFFFF + at_ 16 i + us.toNat) ∧ bit (t.hdr 0x10 hEvt) 0 = true)
      ∧ (∀ r pl, loadChecks (s.storeMem i) (s.rd R.MESH_CFG) s.nv.otp s.sigRequired = some (r, pl) → t.storeSt i = .refused ∧ t.rd R.LOAD_STAT = word (at_ 48 pl.2 + at_ 32 pl.1 + at_ 24 r + at_ 16 i + us.toNat) ∧ bit (t.hdr 0x10 hEvt) 1 = true)
      ∧ t.storeMem i = s.storeMem i ∧ Frame (regsIn [R.LOAD_STAT.key 0, regKey 0 0x10 0 hEvt]) [.sched] s t)
  ∧ (∀ (s : State) (us : BitVec 16), s.sched.check = none ∨ s.supervised = false → Gives (.loadCheckDone us) s fun t =>
      Frame noRegs [] s t)
  ∧ (∀ (s : State) (m : Fin 9) (i : Fin 2) (off : Nat) (data : List Byte), off + data.length ≤ 0x1000000 → data ≠ [] →
      s.pwr.coreUp = true → s.fwRefusal m false true (0x008004000000 + 0x1000000 * i.val + off) data.length = none →
      s.storeLocked i = false → Gives (.storeWindowWrite m i off data) s fun t => t.storeSt i = .written
      ∧ (∀ x, (t.storeMem i).byte x = if off ≤ x ∧ x < off + data.length then data.getD (x - off) 0 else (s.storeMem i).byte x)
      ∧ t.storeMem (1 - i.val) = s.storeMem (1 - i.val) ∧ t.storeSt (1 - i.val) = s.storeSt (1 - i.val)
      ∧ Frame noRegs [.sched] s t)
  ∧ (∀ (s : State) (m : Fin 9) (i : Fin 2) (off : Nat) (data : List Byte), off + data.length ≤ 0x1000000 → data ≠ [] →
      s.pwr.coreUp = true → s.fwRefusal m false true (0x008004000000 + 0x1000000 * i.val + off) data.length = none →
      s.storeLocked i = true → Gives (.storeWindowWrite m i off data) s fun t => bit (t.hdr 0x10 hEvt) 5 = true
      ∧ bit (t.hdr 0x0C hEvt) 1 = true
      ∧ t.rd R.FW_LAST = fwLastWord m true false 6 63 (0x008004000000 + 0x1000000 * i.val + off)
      ∧ s.reports t 0x10 0 0x0B s.schedStat (s.rd R.LOAD_STAT)
      ∧ Frame (regsIn (regKey 0 0x10 0 hEvt :: R.XB_DECODE.key 0 :: R.FW_LAST.key 0 :: regKey 0 0x0C 0 hEvt :: reportKeys)) [.bitt] s t)
  ∧ (∀ (s : State) (m : Fin 9) (i : Fin 2) (off : Nat) (data : List Byte) (x : Nat × Nat), off + data.length ≤ 0x1000000 →
      data ≠ [] → s.pwr.coreUp = true →
      s.fwRefusal m false true (0x008004000000 + 0x1000000 * i.val + off) data.length = some x →
      Gives (.storeWindowWrite m i off data) s fun t =>
      t.rd R.FW_LAST = fwLastWord m true false x.1 x.2 (0x008004000000 + 0x1000000 * i.val + off)
      ∧ bit (t.hdr 0x0C hEvt) 0 = true ∧ s.reports t 0x0C 0 0x16 (t.rd R.FW_LAST) (s.rd R.FW_GEN)
      ∧ Frame (regsIn (R.FW_DENIED.key 0 :: R.FW_LAST.key 0 :: regKey 0 0x0C 0 hEvt :: reportKeys)) [.bitt] s t)

/-- A committed arm sets COMMIT and, for a swap, arms its store; CANCEL is noted and takes effect at the boundary, where a
pending arm, or one committed and due, is withdrawn with RESULT 5. A swap at its tide makes its store the running image
with RESULT 1, or is withheld with RESULT 7 without a supervisor and with RESULT 8 in a member whose role is MINORITY or
JOINING. A halt ends the image: at its tide with RESULT 2, as step 1 of STANDBY with RESULT 3, and by the always-on
domain at the unsupervised limit with RESULT 4. Where the rules leave a choice its clauses rest on the model's, log
entries 3, 47, 48, 49, 50, 51, 94, 108 and 268. -/
def Obligations.SwapsAndHalts : Prop :=
  (∀ (s : State) (a : Agent) (v : Word), s.accepts a 0x10 R.ARM_CTRL.off (setBit v 0) = true → bit v 1 = false →
      Gives (.armCommit a v) s fun t => t.rd R.ARM_CTRL = setBit v 0 ∧ t.storeSt (fld v 8 8) = .armed
      ∧ t.fab.commits = s.fab.commits ++ [{ set := .arm, wait := 1 + b2n (s.slot == 4095) }]
      ∧ Frame (regsIn [R.ARM_CTRL.key 0]) [.sched, .fab] s t)
  ∧ (∀ (s : State) (a : Agent) (v : Word), s.accepts a 0x10 R.ARM_CTRL.off (setBit v 0) = true → bit v 1 = true →
      Gives (.armCommit a v) s fun t => t.rd R.ARM_CTRL = setBit v 0
      ∧ t.fab.commits = s.fab.commits ++ [{ set := .arm, wait := 1 + b2n (s.slot == 4095) }]
      ∧ Frame (regsIn [R.ARM_CTRL.key 0]) [.fab] s t)
  ∧ (∀ (s : State) (a : Agent), s.accepts a 0x10 R.ARM_CANCEL.off 1 = true → Gives (.armCancel a) s fun t =>
      t.sched.cancel = true ∧ t.sched.pend = s.sched.pend ∧ Frame noRegs [.sched] s t)
  ∧ (∀ (s : State) (x : Arm), s.atBoundary = true → s.sched.cancel = true → s.sched.pend = some x →
      Gives .armWithdrawal s fun t => t.sched.pend = none ∧ t.sched.cancel = false
      ∧ (x.halt = false → t.storeSt x.store = .valid) ∧ t.rd R.SWAP_STAT = 5 ∧ t.rd R.SWAP_TIDE = word s.time.tide
      ∧ bit (t.hdr 0x10 hEvt) 4 = true
      ∧ (s.sup.ready = false → Frame (regsIn [R.SWAP_STAT.key 0, R.SWAP_TIDE.key 0, regKey 0 0x10 0 hEvt]) [.sched, .cmds] s t))
  ∧ (∀ (s : State), s.atBoundary = true → s.sched.cancel = true → s.sched.pend = none →
      s.fab.commits = [{ set := .arm, wait := 0 }] → s.rdb R.ARM_CTRL 0 0 = true → Gives .armWithdrawal s fun t =>
      t.fab.commits = [] ∧ t.sched.cancel = false
      ∧ (s.rdb R.ARM_CTRL 0 1 = false → t.storeSt (s.rdf R.ARM_CTRL 0 8 8) = .valid) ∧ t.rdb R.ARM_CTRL 0 0 = false
      ∧ t.rd R.SWAP_STAT = 5 ∧ bit (t.hdr 0x10 hEvt) 4 = true)
  ∧ (∀ (s : State), s.atBoundary = false ∨ s.sched.cancel = false → Gives .armWithdrawal s fun t => Frame noRegs [] s t)
  ∧ (∀ (s : State) (x : Arm), s.atBoundary = true → s.sched.pend = some x → x.halt = false → x.store < 2 →
      x.tide = s.time.tide → s.sched.cancel = false → s.epochDue = false → s.supervised = true →
      s.mesh.role = .standalone ∨ s.mesh.role = .primary → Gives .swap s fun t => t.sched.run = some x.store
      ∧ t.storeSt x.store = .running ∧ t.sched.pend = none ∧ t.sched.stress = x.stress ∧ t.rdf R.SWAP_STAT 0 7 0 = 1
      ∧ t.rd R.SWAP_TIDE = word s.time.tide ∧ bit (t.hdr 0x10 hEvt) 3 = true ∧ t.heap.mem = s.heap.mem ∧ t.nv = s.nv)
  ∧ (∀ (s : State) (x : Arm), s.atBoundary = true → s.sched.pend = some x → x.halt = false → x.tide = s.time.tide →
      s.sched.cancel = false → s.epochDue = false → s.supervised = false ∨ s.mesh.role = .minority ∨ s.mesh.role = .joining →
      Gives .swap s fun t => t.sched.run = s.sched.run ∧ t.sched.pend = none ∧ t.storeSt x.store = .valid
      ∧ t.rd R.SWAP_STAT = (if s.supervised then 8 else 7) ∧ bit (t.hdr 0x10 hEvt) 4 = true
      ∧ (s.sup.ready = false → Frame (regsIn [R.SWAP_STAT.key 0, R.SWAP_TIDE.key 0, regKey 0 0x10 0 hEvt]) [.sched, .cmds] s t))
  ∧ (∀ (s : State), s.atBoundary = false ∨ s.sched.pend = none ∨ s.sched.cancel = true ∨ s.epochDue = true →
      Gives .swap s fun t => Frame noRegs [] s t)
  ∧ (∀ (s : State) (x : Arm) (i : Nat), s.atBoundary = true → s.sup.haltDue = false → s.sched.standbyHalt = false →
      s.sched.pend = some x → x.halt = true → x.tide = s.time.tide → s.sched.cancel = false → s.sched.run = some i →
      Gives .dataPathHalt s fun t => t.sched.run = none ∧ t.sched.pend = none ∧ t.storeSt i = .valid
      ∧ t.rdf R.SWAP_STAT 0 7 0 = 2 ∧ t.rd R.SWAP_TIDE = word s.time.tide ∧ bit (t.hdr 0x10 hEvt) 3 = true
      ∧ t.heap.mem = s.heap.mem ∧ t.nv = s.nv)
  ∧ (∀ (s : State) (i : Nat), s.atBoundary = true → s.sup.haltDue = false → s.sched.standbyHalt = true →
      s.sched.run = some i → Gives .dataPathHalt s fun t => t.sched.run = none ∧ t.sched.standbyHalt = false
      ∧ t.rdf R.SWAP_STAT 0 7 0 = 3 ∧ bit (t.hdr 0x10 hEvt) 3 = true
      ∧ (s.pwr.req = .toStandby → t.sup.ckptDue = some 3 ∧ t.bitt.sumDue = true) ∧ t.heap.mem = s.heap.mem)
  ∧ (∀ (s : State) (i : Nat), s.atBoundary = true → s.sup.haltDue = true → s.sched.run = some i →
      Gives .dataPathHalt s fun t => t.sched.run = none ∧ t.sched.pend = none ∧ t.sup.haltDue = false
      ∧ t.rdf R.SWAP_STAT 0 7 0 = 4 ∧ bit (t.hdr 0x10 hEvt) 3 = true ∧ bit (t.hdr 0x08 hEvt) 2 = true
      ∧ t.heap.mem = s.heap.mem)

/-- Of the one scheduled transfer due at a pseudo-channel, its owner's slot writes a write's 64 bytes and no other, or reads;
one issued for the slot that cannot be is a counted breach; one that waits stays; a command that a serving controller's
sequencer did not issue at its cycle freezes it. Of the one open request queued, an OPEN slot writes the bytes or answers
a read with them, with an error where they are uncorrectable; a write into the weight copy in use is refused; a partial
write is read first. With no OPEN slot in the map, or no service, what is queued is answered with an error. A request is
queued at the pseudo-channels of its bytes; one beyond the heap, one that its bridge cannot take, and a write into the
weight copy in use are answered with an error. Where the rules leave a choice its clauses rest on the model's, log
entries 3, 11, 55, 78, 81, 83, 84, 85, 261, 262 and 263. -/
def Obligations.HeapTransfers : Prop :=
  (∀ (s : State) (j : Fin 512) (n : Fin 4096) (ecc : List EccObs) (x : SXfer) (y : State), y = s.atSlot n →
      y.serves (j.val / 2) = true → (y.pc j).due = [x] → x.write = true → x.now = true ∨ 2 * (y.slotStart n + 28) ≥ x.ready →
      x.data.length = 64 → y.slotOwner j n = some x.owner → y.addrOk j x.addr = true →
      Gives (.heapSlotTransfer j n ecc false) s fun t =>
      (∀ z, t.heap.mem.byte z = if x.addr ≤ z ∧ z < x.addr + 64 then x.data.getD (z - x.addr) 0 else y.heap.mem.byte z)
      ∧ (y.quiet → x.dest = .none → (t.pc j).due = []) ∧ (t.pc j).bytes = (y.pc j).bytes + 64
      ∧ (y.quiet → x.dest = .none → Frame (regsIn [R.MIT_OVF.key (j.val / 2), regKey 0 (0x40 + j.val / 64) 0 hEvt]) [.heap] y t))
  ∧ (∀ (s : State) (j : Fin 512) (n : Fin 4096) (ecc : List EccObs) (x : SXfer) (y : State), y = s.atSlot n →
      y.serves (j.val / 2) = true → (y.pc j).due = [x] → x.write = false → x.now = true ∨ 2 * y.slotStart n ≥ x.ready →
      y.slotOwner j n = some x.owner → y.addrOk j (y.redirect x.addr) = true →
      Gives (.heapSlotTransfer j n ecc false) s fun t => t.heap.mem = y.heap.mem ∧ (t.pc j).bytes = (y.pc j).bytes + 64
      ∧ t.rd R.ERR_CORR (j.val / 2) = satWord (y.rd R.ERR_CORR (j.val / 2)) (eccOf ecc 0).1
      ∧ t.rd R.ERR_UNCORR (j.val / 2) = satWord (y.rd R.ERR_UNCORR (j.val / 2)) (b2n (eccOf ecc 0).2)
      ∧ (y.quiet → x.dest = .none → Frame (regsIn ([R.MIT_OVF, R.FWD_HITS, R.ERR_CORR, R.ERR_UNCORR, R.POISON_OUT, R.ERR_ADDR].map (fun r => r.key (j.val / 2)) ++ regKey 0 (0x40 + j.val / 64) 0 hEvt :: reportKeys)) [.heap, .bitt, .xbar] y t))
  ∧ (∀ (s : State) (j : Fin 512) (n : Fin 4096) (ecc : List EccObs) (x : SXfer) (y : State), y = s.atSlot n →
      (y.pc j).due = [x] → x.now = true → y.slotOwner j n ≠ some x.owner ∨ y.addrOk j (y.servedAt x) = false →
      Gives (.heapSlotTransfer j n ecc false) s fun t => t.heap.mem = y.heap.mem
      ∧ (y.quiet → x.dest = .none → t.rd R.BR_HEAP = satWord (y.rd R.BR_HEAP) 1)
      ∧ (y.quiet → x.dest = .none → Frame (regsIn ([R.BR_HEAP.key 0, R.BR_FIRST.key 0] ++ reportKeys)) [.heap, .sched, .bitt, .xbar] y t))
  ∧ (∀ (s : State) (j : Fin 512) (n : Fin 4096) (ecc : List EccObs) (y : State), y = s.atSlot n → y.quiet →
      (y.pc j).due.all (fun x => !x.now && decide (y.slotOwner j n ≠ some x.owner)) = true →
      Gives (.heapSlotTransfer j n ecc false) s fun t => (t.pc j).due = (y.pc j).due ∧ t.heap.mem = y.heap.mem
      ∧ Frame noRegs [.heap] y t)
  ∧ (∀ (s : State) (j : Fin 512) (n : Fin 4096) (ecc : List EccObs) (y : State), y = s.atSlot n →
      y.serves (j.val / 2) = true → Gives (.heapSlotTransfer j n ecc true) s fun t => (t.ctl (j.val / 2)).state = .frozen
      ∧ t.rd R.FRZ_INFO (j.val / 2) = word (at_ 32 (y.time.tide % 2 ^ 32) + at_ 20 y.slot + at_ 16 (j.val % 2) + 2)
      ∧ bit (t.hdr (0x40 + j.val / 64) hEvt) 0 = true)
  ∧ (∀ (s : State) (j : Fin 512) (n : Fin 4096) (ecc : List EccObs) (x : HPart) (y : Txn) (id : Nat) (q : Nat) (z : State),
      z = s.atSlot n → z.serves (j.val / 2) = true → z.hasOpen 0 j = true → z.classAt 0 j n = some .open_ →
      (z.pc j).queue = [{ txn := id, qos := q, write := true, parts := [x] }] → x.len = 64 ∨ x.merge.isSome = true →
      (x.merge.getD x.data).length = 64 → z.weightRefused (x.addr + x.lo) x.len = false → pget z.xbar.txns id = some y →
      y.left = 1 → y.write = true → y.bad = false → y.resp = none → Gives (.openSlotService j n ecc) s fun t =>
      (∀ a, t.heap.mem.byte a = if x.addr ≤ a ∧ a < x.addr + 64 then (x.merge.getD x.data).getD (a - x.addr) 0 else z.heap.mem.byte a)
      ∧ (t.pc j).queue = []
      ∧ pget t.xbar.txns id = some { y with left := 0, resp := some (false, false, y.data), respAt := z.time.total }
      ∧ Frame (regsIn [R.MIT_OVF.key (j.val / 2), regKey 0 (0x40 + j.val / 64) 0 hEvt]) [.heap, .xbar] z t)
  ∧ (∀ (s : State) (j : Fin 512) (n : Fin 4096) (ecc : List EccObs) (x : HPart) (id : Nat) (q : Nat) (z : State),
      z = s.atSlot n → z.serves (j.val / 2) = true → z.hasOpen 0 j = true → z.classAt 0 j n = some .open_ →
      (z.pc j).queue = [{ txn := id, qos := q, write := true, parts := [x] }] → x.len < 64 → x.merge = none →
      (eccOf ecc 0).2 = false → z.injected (j.val / 2) = false → z.weightRefused (x.addr + x.lo) x.len = false →
      Gives (.openSlotService j n ecc) s fun t =>
      (t.pc j).queue = [{ txn := id, qos := q, write := true, parts := [{ x with merge := some ((z.heapBytesAt x.addr 64).take x.lo ++ x.data ++ (z.heapBytesAt x.addr 64).drop (x.lo + x.len)) }] }]
      ∧ t.heap.mem = z.heap.mem ∧ t.xbar = z.xbar
      ∧ Frame (regsIn (regKey 0 (0x40 + j.val / 64) 0 hEvt :: [R.MIT_OVF, R.FWD_HITS, R.ERR_CORR].map fun r => r.key (j.val / 2))) [.heap] z t)
  ∧ (∀ (s : State) (j : Fin 512) (n : Fin 4096) (ecc : List EccObs) (x : HPart) (y : Txn) (id : Nat) (q : Nat) (z : State),
      z = s.atSlot n → z.serves (j.val / 2) = true → z.hasOpen 0 j = true → z.classAt 0 j n = some .open_ →
      (z.pc j).queue = [{ txn := id, qos := q, write := false, parts := [x] }] → (eccOf ecc 0).2 = false →
      z.injected (j.val / 2) = false → x.lo + x.len ≤ 64 → pget z.xbar.txns id = some y → y.addr = x.addr + x.lo →
      y.data.length = x.len → y.left = 1 → y.write = false → y.bad = false → y.resp = none →
      Gives (.openSlotService j n ecc) s fun t =>
      pget t.xbar.txns id = some { y with left := 0, data := ((z.heapBytesAt x.addr 64).drop x.lo).take x.len, resp := some (false, false, ((z.heapBytesAt x.addr 64).drop x.lo).take x.len), respAt := z.time.total }
      ∧ (t.pc j).queue = [] ∧ t.heap.mem = z.heap.mem
      ∧ Frame (regsIn (regKey 0 (0x40 + j.val / 64) 0 hEvt :: [R.MIT_OVF, R.FWD_HITS, R.ERR_CORR].map fun r => r.key (j.val / 2))) [.heap, .xbar] z t)
  ∧ (∀ (s : State) (j : Fin 512) (n : Fin 4096) (ecc : List EccObs) (x : HPart) (y : Txn) (id : Nat) (q : Nat) (z : State),
      z = s.atSlot n → z.serves (j.val / 2) = true → z.hasOpen 0 j = true → z.classAt 0 j n = some .open_ →
      (z.pc j).queue = [{ txn := id, qos := q, write := false, parts := [x] }] →
      (eccOf ecc 0).2 = true ∨ z.injected (j.val / 2) = true → pget z.xbar.txns id = some y → y.left = 1 → y.resp = none →
      Gives (.openSlotService j n ecc) s fun t =>
      (pget t.xbar.txns id).bind (fun y => y.resp.map fun r => (r.1, r.2.1)) = some (true, true)
      ∧ t.rd R.ERR_UNCORR (j.val / 2) = satWord (z.rd R.ERR_UNCORR (j.val / 2)) 1
      ∧ bit (t.hdr (0x40 + j.val / 64) hEvt) 2 = true ∧ (t.pc j).queue = [] ∧ t.heap.mem = z.heap.mem)
  ∧ (∀ (s : State) (j : Fin 512) (n : Fin 4096) (ecc : List EccObs) (x : HPart) (y : Txn) (id : Nat) (q : Nat) (z : State),
      z = s.atSlot n → z.serves (j.val / 2) = true → z.hasOpen 0 j = true → z.classAt 0 j n = some .open_ →
      z.sched.stress = false → (z.pc j).queue = [{ txn := id, qos := q, write := true, parts := [x] }] →
      z.weightRefused (x.addr + x.lo) x.len = true → pget z.xbar.txns id = some y → y.resp = none →
      Gives (.openSlotService j n ecc) s fun t =>
      pget t.xbar.txns id = some { y with resp := some (true, false, []), respAt := z.time.total }
      ∧ t.rd R.WT_REFUSED = satWord (z.rd R.WT_REFUSED) 1 ∧ (t.pc j).queue = [] ∧ t.heap.mem = z.heap.mem
      ∧ Frame (regsIn [R.WT_REFUSED.key 0]) [.heap, .xbar] z t)
  ∧ (∀ (s : State) (j : Fin 512) (n : Fin 4096) (ecc : List EccObs) (z : State), z = s.atSlot n →
      z.serves (j.val / 2) = false ∨ z.hasOpen 0 j = false → Gives (.openSlotService j n ecc) s fun t => (t.pc j).queue = []
      ∧ (∀ q, q ∈ (z.pc j).queue → ∀ y, pget z.xbar.txns q.txn = some y → (pget t.xbar.txns q.txn).map (·.resp.isSome) = some true)
      ∧ t.heap.mem = z.heap.mem ∧ Frame noRegs [.heap, .xbar] z t)
  ∧ (∀ (s : State) (j : Fin 512) (n : Fin 4096) (ecc : List EccObs) (z : State), z = s.atSlot n →
      z.serves (j.val / 2) = true → z.hasOpen 0 j = true → z.classAt 0 j n ≠ some .open_ →
      Gives (.openSlotService j n ecc) s fun t => Frame noRegs [] z t)
  ∧ (∀ (s : State) (n : Fin 16) (r : XbarReq) (a : Nat) (ps : List HPart), a = s.mapAddr r.master r.addr.toNat →
      ps = heapParts a r.len r.data (r.len + 1) → a + r.len ≤ heapBytes → 0 < r.len →
      r.write = false ∨ s.weightRefused a r.len = false → ps.all s.canQueue = true →
      ps.any (fun x => s.bridgeRefuses (hCtl x.addr)) = false → Gives (.heapOpenRequest r n) s fun t =>
      t.xbar.next = s.xbar.next + 1
      ∧ (∀ j, (t.pc j).queue = (s.pc j).queue ++ (if ps.any (fun x => hPch x.addr = j) then [{ txn := s.xbar.next, qos := n.val, write := r.write, parts := ps.filter fun x => hPch x.addr = j }] else []))
      ∧ (pget t.xbar.txns s.xbar.next).map (fun y => (y.resp, y.left, y.addr, y.len, y.write)) = some (none, ps.length, a, r.len, r.write)
      ∧ t.heap.mem = s.heap.mem ∧ Frame noRegs [.heap, .xbar] s t)
  ∧ (∀ (s : State) (n : Fin 16) (r : XbarReq) (a : Nat) (ps : List HPart), a = s.mapAddr r.master r.addr.toNat →
      ps = heapParts a r.len r.data (r.len + 1) → a + r.len ≤ heapBytes → 0 < r.len →
      r.write = false ∨ s.weightRefused a r.len = false →
      ps.all s.canQueue = false ∨ ps.any (fun x => s.bridgeRefuses (hCtl x.addr)) = true →
      Gives (.heapOpenRequest r n) s fun t => (pget t.xbar.txns s.xbar.next).bind (·.resp) = some (true, false, [])
      ∧ t.heap = s.heap ∧ (ps.all (fun x => s.serves (hCtl x.addr)) = true → Frame noRegs [.xbar] s t))
  ∧ (∀ (s : State) (n : Fin 16) (r : XbarReq) (a : Nat), a = s.mapAddr r.master r.addr.toNat → a + r.len ≤ heapBytes →
      r.write = true → s.weightRefused a r.len = true → Gives (.heapOpenRequest r n) s fun t =>
      (pget t.xbar.txns s.xbar.next).bind (·.resp) = some (true, false, [])
      ∧ t.rd R.WT_REFUSED = satWord (s.rd R.WT_REFUSED) 1 ∧ Frame (regsIn [R.WT_REFUSED.key 0]) [.xbar] s t)
  ∧ (∀ (s : State) (n : Fin 16) (r : XbarReq), heapBytes < s.mapAddr r.master r.addr.toNat + r.len →
      Gives (.heapOpenRequest r n) s fun t => (pget t.xbar.txns s.xbar.next).bind (·.resp) = some (true, false, [])
      ∧ Frame noRegs [.xbar] s t)

/-- A REFRESH slot of a controller that refreshes takes a refresh step, and the first of a tide reads the stack's
temperature, hot above 85 °C and no longer at 83 °C; a REFRESH2 slot takes a step where the stack is hot, the controller
doubles its refresh or a stress runs. A MITIGATE slot serves up to four queued rows, and in stress rows of the table
besides, and counts them. A TRIM slot adds its taps; the sixteenth ends the re-centring, with new delays where the eyes
are open. A training with open eyes makes the controller READY, zeroing its bytes when it was a full one; one without
leaves it in FAULT. In any other slot, or without a training, nothing happens. Where the rules leave a choice its clauses
rest on the model's, log entries 3, 80 and 86. -/
def Obligations.HeapUpkeep : Prop :=
  (∀ (s : State) (j : Fin 512) (n : Fin 4096) (x : BitVec 8) (y : State), y = s.atSlot n →
      (y.ctl (j.val / 2)).refreshes = true → y.classAt 0 j n = some .refresh →
      pget y.heap.tempTide (j.val / 64) = some y.time.tide → Gives (.refreshStep j n x) s fun t =>
      t.pc j = (y.pc j).refreshed ∧ t.heap.mem = y.heap.mem ∧ Frame noRegs [.heap] y t)
  ∧ (∀ (s : State) (j : Fin 512) (n : Fin 4096) (x : BitVec 8) (y : State), y = s.atSlot n →
      (y.ctl (j.val / 2)).refreshes = true → y.classAt 0 j n = some .refresh →
      pget y.heap.tempTide (j.val / 64) ≠ some y.time.tide → Gives (.refreshStep j n x) s fun t =>
      t.pc j = (y.pc j).refreshed
      ∧ t.rd R.HC_TEMP (j.val / 64 * 32) = word (at_ 8 (b2n (decide (85 < x.toInt) || (decide (83 < x.toInt) && y.rdb R.HC_TEMP (j.val / 64 * 32) 8))) + x.toNat)
      ∧ (85 < x.toInt → bit (t.hdr (0x40 + j.val / 64) hEvt) 5 = true)
      ∧ (x.toInt ≤ 85 → t.hdr (0x40 + j.val / 64) hEvt = y.hdr (0x40 + j.val / 64) hEvt)
      ∧ pget t.heap.tempTide (j.val / 64) = some y.time.tide ∧ t.heap.mem = y.heap.mem
      ∧ Frame (regsIn [R.HC_TEMP.key (j.val / 64 * 32), regKey 0 (0x40 + j.val / 64) 0 hEvt]) [.heap] y t)
  ∧ (∀ (s : State) (j : Fin 512) (n : Fin 4096) (x : BitVec 8) (y : State), y = s.atSlot n →
      (y.ctl (j.val / 2)).refreshes = true → y.classAt 0 j n = some .refresh2 → Gives (.refreshStep j n x) s fun t =>
      t.pc j = (if y.stackHot (j.val / 2) = true ∨ y.rdb R.HC_XCFG (j.val / 2) 1 = true ∨ y.sched.stress = true then (y.pc j).refreshed else y.pc j)
      ∧ t.heap.mem = y.heap.mem ∧ Frame noRegs [.heap] y t)
  ∧ (∀ (s : State) (j : Fin 512) (n : Fin 4096) (x : BitVec 8) (y : State), y = s.atSlot n →
      (y.ctl (j.val / 2)).refreshes = false ∨ (y.classAt 0 j n ≠ some .refresh ∧ y.classAt 0 j n ≠ some .refresh2) →
      Gives (.refreshStep j n x) s fun t => Frame noRegs [] y t)
  ∧ (∀ (s : State) (j : Fin 512) (n : Fin 4096) (y : State) (m : Nat), y = s.atSlot n → y.serves (j.val / 2) = true →
      y.classAt 0 j n = some .mitigate →
      m = min 4 (y.pc j).mits.length + (if y.sched.stress then min (4 - min 4 (y.pc j).mits.length) (y.pc j).acts.length else 0) →
      Gives (.mitigateSlot j n) s fun t => t.pc j = { y.pc j with mits := (y.pc j).mits.drop 4 }
      ∧ t.rd R.MIT_COUNT (j.val / 2) = satWord (y.rd R.MIT_COUNT (j.val / 2)) m ∧ t.heap.mem = y.heap.mem
      ∧ Frame (regsIn [R.MIT_COUNT.key (j.val / 2)]) [.heap] y t)
  ∧ (∀ (s : State) (j : Fin 512) (n : Fin 4096) (y : State), y = s.atSlot n →
      y.serves (j.val / 2) = false ∨ y.classAt 0 j n ≠ some .mitigate → Gives (.mitigateSlot j n) s fun t =>
      Frame noRegs [] y t)
  ∧ (∀ (s : State) (j : Fin 512) (n : Fin 4096) (ps : List (BitVec 8)) (x : Trim) (y : State), y = s.atSlot n →
      y.serves (j.val / 2) = true → y.classAt 0 j n = some .trim →
      (y.pc j).trim = some x ∨ ((y.pc j).trim = none ∧ ((y.pc j).rcDue = true ∨ y.sched.stress = true) ∧ x = { step := 0, masks := [], act := y.loadMark j, temp := y.stackTemp (j.val / 2) }) →
      x.step < 15 → Gives (.trimSlot j n ps) s fun t =>
      t.pc j = { y.pc j with trim := some { x with step := x.step + 1, masks := addTaps x.step x.masks ps } }
      ∧ t.heap.mem = y.heap.mem ∧ Frame noRegs [.heap] y t)
  ∧ (∀ (s : State) (j : Fin 512) (n : Fin 4096) (ps : List (BitVec 8)) (x : Trim) (y : State), y = s.atSlot n →
      y.serves (j.val / 2) = true → y.classAt 0 j n = some .trim → (y.pc j).trim = some x → x.step = 15 →
      eyesOpen (addTaps 15 x.masks ps) = true → Gives (.trimSlot j n ps) s fun t =>
      t.pc j = { y.pc j with trim := none, rcDue := false, actTag := x.act, tempTag := x.temp, recentres := satAdd 16 (y.pc j).recentres 1 }
      ∧ (t.ctl (j.val / 2)).rcFails = 0 ∧ bit (t.hdr (0x40 + j.val / 64) hEvt) 3 = true ∧ t.heap.mem = y.heap.mem
      ∧ Frame (regsIn (regKey 0 (0x40 + j.val / 64) 0 hEvt :: (List.range 4).map fun l => R.TRN_LANE.key (j.val / 2) (4 * (j.val % 2) + l))) [.heap] y t)
  ∧ (∀ (s : State) (j : Fin 512) (n : Fin 4096) (ps : List (BitVec 8)) (x : Trim) (y : State), y = s.atSlot n →
      y.serves (j.val / 2) = true → y.classAt 0 j n = some .trim → (y.pc j).trim = some x → x.step = 15 →
      eyesOpen (addTaps 15 x.masks ps) = false → Gives (.trimSlot j n ps) s fun t => (t.pc j).trim = none
      ∧ (t.pc j).rcDue = true ∧ bit (t.hdr (0x40 + j.val / 64) hEvt) 4 = true
      ∧ (t.ctl (j.val / 2)).rcFails = min 3 ((y.ctl (j.val / 2)).rcFails + 1)
      ∧ ((y.ctl (j.val / 2)).rcFails < 2 → t.ctl (j.val / 2) = { y.ctl (j.val / 2) with rcFails := (y.ctl (j.val / 2)).rcFails + 1 })
      ∧ (2 ≤ (y.ctl (j.val / 2)).rcFails → (t.ctl (j.val / 2)).state = .frozen ∧ fld (t.rd R.FRZ_INFO (j.val / 2)) 3 0 = 3))
  ∧ (∀ (s : State) (j : Fin 512) (n : Fin 4096) (ps : List (BitVec 8)) (y : State), y = s.atSlot n →
      y.serves (j.val / 2) = false ∨ y.classAt 0 j n ≠ some .trim ∨ ((y.pc j).rcDue = false ∧ (y.pc j).trim = none ∧ y.sched.stress = false) →
      Gives (.trimSlot j n ps) s fun t => Frame noRegs [] y t)
  ∧ (∀ (s : State) (i : Fin 256) (sw : List (BitVec 128)) (x : BitVec 8), (s.ctl i).state = .starting →
      eyesOpen ((List.range 16).map fun k => (sw.getD k 0).toNat) = true → Gives (.heapTrainDone i sw x) s fun t =>
      t.ctl i = { s.ctl i with state := .ready } ∧ (t.pc (2 * i.val)).tempTag = x ∧ (t.pc (2 * i.val + 1)).tempTag = x
      ∧ (∀ y, t.heap.mem.byte y = if (s.ctl i).train = .full ∧ hCtl y = i.val then 0 else s.heap.mem.byte y)
      ∧ bit (t.hdr (0x40 + i.val / 32) hEvt) 7 = true
      ∧ Frame (regsIn (regKey 0 (0x40 + i.val / 32) 0 hEvt :: (List.range 8).map fun k => R.TRN_LANE.key i k)) [.heap] s t)
  ∧ (∀ (s : State) (i : Fin 256) (sw : List (BitVec 128)) (x : BitVec 8), (s.ctl i).state = .starting →
      eyesOpen ((List.range 16).map fun k => (sw.getD k 0).toNat) = false → Gives (.heapTrainDone i sw x) s fun t =>
      t.ctl i = { s.ctl i with state := .fault } ∧ fld (t.rd R.FRZ_INFO i) 3 0 = 5
      ∧ bit (t.hdr (0x40 + i.val / 32) hEvt) 1 = true ∧ t.heap.mem = s.heap.mem
      ∧ Frame (regsIn (regKey 0 (0x40 + i.val / 32) 0 hEvt :: R.FRZ_INFO.key i :: reportKeys)) [.heap, .xbar, .bitt] s t)
  ∧ (∀ (s : State) (i : Fin 256) (sw : List (BitVec 128)) (x : BitVec 8), (s.ctl i).state ≠ .starting →
      Gives (.heapTrainDone i sw x) s fun t => Frame noRegs [] s t)

/-- A parity error of a controller that runs or trains, or FREEZE on any that is not frozen, stops it with its cause, event
and report, answers what waits for it with an error and loses its data. RETRAIN makes a READY controller retrain with its
contents, and a frozen or faulty one train in full with CONTENTS_LOST. The clears clear what they name; BR_CLEAR.FIRST
keeps a breach of its own RCLK. Where the rules leave a choice its clauses rest on the model's, log entries 3, 80, 81, 84
and 261. -/
def Obligations.HeapControllerCommands : Prop :=
  (∀ (s : State) (i : Fin 256) (m : Fin 2), (s.ctl i).state = .ready ∨ (s.ctl i).state = .starting →
      Gives (.caParityError i m) s fun t => t.ctl i = { s.ctl i with state := .frozen }
      ∧ t.rd R.FRZ_INFO i = word (at_ 32 (s.time.tide % 2 ^ 32) + at_ 20 s.slot + at_ 16 m.val + 1)
      ∧ bit (t.hdr (0x40 + i.val / 32) hEvt) 0 = true ∧ (t.pc (2 * i.val)).queue = [] ∧ (t.pc (2 * i.val + 1)).queue = []
      ∧ (∀ z, hCtl z ≠ i.val → t.heap.mem.byte z = s.heap.mem.byte z) ∧ pget t.heap.lost i = some s.free
      ∧ Frame (regsIn (regKey 0 (0x40 + i.val / 32) 0 hEvt :: R.FRZ_INFO.key i :: reportKeys)) [.heap, .xbar, .bitt, .free] s t)
  ∧ (∀ (s : State) (i : Fin 256) (m : Fin 2), (s.ctl i).state ≠ .ready → (s.ctl i).state ≠ .starting →
      Gives (.caParityError i m) s fun t => Frame noRegs [] s t)
  ∧ (∀ (s : State) (a : Agent) (st : Fin 8) (n : Nat), s.accepts a (0x40 + st.val) R.HC_CMD.off 1 = true →
      s.bankOf a (0x40 + st.val) = n → n < 32 → (s.ctl (32 * st.val + n)).state = .ready →
      Gives (.hcCmdRetrain a st) s fun t =>
      t.ctl (32 * st.val + n) = { s.ctl (32 * st.val + n) with state := .starting, train := .retrain }
      ∧ t.heap.mem = s.heap.mem ∧ Frame noRegs [.heap] s t)
  ∧ (∀ (s : State) (a : Agent) (st : Fin 8) (n : Nat), s.accepts a (0x40 + st.val) R.HC_CMD.off 1 = true →
      s.bankOf a (0x40 + st.val) = n → n < 32 →
      (s.ctl (32 * st.val + n)).state = .frozen ∨ (s.ctl (32 * st.val + n)).state = .fault →
      Gives (.hcCmdRetrain a st) s fun t =>
      t.ctl (32 * st.val + n) = { s.ctl (32 * st.val + n) with state := .starting, train := .full, lost := true }
      ∧ t.heap.mem = s.heap.mem ∧ Frame noRegs [.heap] s t)
  ∧ (∀ (s : State) (a : Agent) (st : Fin 8) (n : Nat), s.accepts a (0x40 + st.val) R.HC_CMD.off 2 = true →
      s.bankOf a (0x40 + st.val) = n → n < 32 → Gives (.hcCmdClrAddr a st) s fun t => t.rd R.ERR_ADDR (32 * st.val + n) = 0
      ∧ Frame (regsIn [R.ERR_ADDR.key (32 * st.val + n)]) [] s t)
  ∧ (∀ (s : State) (a : Agent) (st : Fin 8) (n : Nat), s.accepts a (0x40 + st.val) R.HC_CMD.off 4 = true →
      s.bankOf a (0x40 + st.val) = n → n < 32 → Gives (.hcCmdClrLost a st) s fun t =>
      t.ctl (32 * st.val + n) = { s.ctl (32 * st.val + n) with lost := false } ∧ t.heap.mem = s.heap.mem
      ∧ Frame noRegs [.heap] s t)
  ∧ (∀ (s : State) (a : Agent) (st : Fin 8) (n : Nat), s.accepts a (0x40 + st.val) R.HC_XCMD.off 1 = true →
      s.bankOf a (0x40 + st.val) = n → n < 32 → (s.ctl (32 * st.val + n)).state ≠ .frozen →
      Gives (.hcXcmdFreeze a st) s fun t => (t.ctl (32 * st.val + n)).state = .frozen
      ∧ t.rd R.FRZ_INFO (32 * st.val + n) = word (at_ 32 (s.time.tide % 2 ^ 32) + at_ 20 s.slot + 4)
      ∧ bit (t.hdr (0x40 + st.val) hEvt) 0 = true ∧ (∀ z, hCtl z ≠ 32 * st.val + n → t.heap.mem.byte z = s.heap.mem.byte z)
      ∧ Frame (regsIn (regKey 0 (0x40 + st.val) 0 hEvt :: R.FRZ_INFO.key (32 * st.val + n) :: reportKeys)) [.heap, .xbar, .bitt, .free] s t)
  ∧ (∀ (s : State) (a : Agent) (st : Fin 8) (n : Nat), s.accepts a (0x40 + st.val) R.HC_XCMD.off 1 = true →
      s.bankOf a (0x40 + st.val) = n → n < 32 → (s.ctl (32 * st.val + n)).state = .frozen →
      Gives (.hcXcmdFreeze a st) s fun t => Frame noRegs [] s t)
  ∧ (∀ (s : State) (a : Agent), s.accepts a 0x12 R.BR_CLEAR.off 1 = true →
      s.sched.brLast.all (fun z => decide (z.1 ≠ s.rclk)) = true → Gives (.brClearFirst a) s fun t => t.rd R.BR_FIRST = 0
      ∧ Frame (regsIn [R.BR_FIRST.key 0]) [] s t)
  ∧ (∀ (s : State) (a : Agent) (z : Word), s.accepts a 0x12 R.BR_CLEAR.off 1 = true → s.sched.brLast = some (s.rclk, z) →
      Gives (.brClearFirst a) s fun t => t.rd R.BR_FIRST = z ∧ Frame (regsIn [R.BR_FIRST.key 0]) [] s t)

/-- A scheduled cell passes its checks in order: wrong CRC, bad form or not expected, release past, release too far ahead,
buffer full, consumed already; each drops and counts it. A good one is buffered until its release. A control or mesh cell
with the next SEQ is accepted, and held while test delay acts; one with a wrong CRC, a bad form, no buffer or another SEQ
is dropped with NAK set. Fillers with a wrong CRC and malformed cells are counted; a cell cut short ends the cell in
progress. A released cell leaves the buffer and is noted as consumed; one not available by then is missing. On a link
that is not up, and before a release, nothing happens. Where the rules leave a choice its clauses rest on the model's,
log entries 3, 54, 61, 62, 63, 68, 231, 266 and 271. -/
def Obligations.CellsArriveAndAreReleased : Prop :=
  (∀ (s : State) (q : Fin 256) (ws : List Word), s.lkUp q = true → ws.length = 32 → cellType ws = 1 → cellOk ws = true →
      cellFormBad ws = false →
      (s.expects q (fld (cellWord ws 0) 55 44) && (s.bindOf (fld (cellWord ws 0) 55 44)).isSome) = true →
      s.nowSclk ≤ (cellWord ws 1).toNat + s.rdf R.RX_BOUND q 15 0 →
      (cellWord ws 1).toNat + s.rdf R.RX_BOUND q 15 0 ≤ s.nowSclk + 65536 → (s.lk q).rx.length < 512 →
      s.wasConsumed ws = false → Gives (.sampleCellRx q ws) s fun t =>
      (t.lk q).rx = (s.lk q).rx ++ [{ words := ws, avail := if s.sched.stress then (cellWord ws 1).toNat + s.rdf R.RX_BOUND q 15 0 else s.nowSclk + 64, release := (cellWord ws 1).toNat + s.rdf R.RX_BOUND q 15 0 }]
      ∧ t.rd R.CELLS_RX q = satWord (s.rd R.CELLS_RX q) 1 ∧ Frame (regsIn [R.CELLS_RX.key q, R.SEQ_JUMP.key q]) [.links] s t)
  ∧ (∀ (s : State) (q : Fin 256) (ws : List Word), s.lkUp q = true → ws.length = 32 → cellType ws = 1 → cellOk ws = false →
      Gives (.sampleCellRx q ws) s fun t => t.rd R.DROP_CRC q = satWord (s.rd R.DROP_CRC q) 1
      ∧ Frame (regsIn [R.DROP_CRC.key q]) [] s t)
  ∧ (∀ (s : State) (q : Fin 256) (ws : List Word), s.lkUp q = true → ws.length = 32 → cellType ws = 1 → cellOk ws = true →
      cellFormBad ws = true ∨ (s.expects q (fld (cellWord ws 0) 55 44) && (s.bindOf (fld (cellWord ws 0) 55 44)).isSome) = false →
      Gives (.sampleCellRx q ws) s fun t => t.rd R.DROP_FORM q = satWord (s.rd R.DROP_FORM q) 1
      ∧ Frame (regsIn [R.DROP_FORM.key q]) [] s t)
  ∧ (∀ (s : State) (q : Fin 256) (ws : List Word), s.lkUp q = true → ws.length = 32 → cellType ws = 1 → cellOk ws = true →
      cellFormBad ws = false →
      (s.expects q (fld (cellWord ws 0) 55 44) && (s.bindOf (fld (cellWord ws 0) 55 44)).isSome) = true →
      (cellWord ws 1).toNat + s.rdf R.RX_BOUND q 15 0 < s.nowSclk → Gives (.sampleCellRx q ws) s fun t =>
      t.rd R.DROP_TIME q = satWord (s.rd R.DROP_TIME q) 1 ∧ (t.lk q).rx = (s.lk q).rx
      ∧ Frame (regsIn ([R.DROP_TIME.key q, R.BR_LINK.key 0, R.BR_FIRST.key 0] ++ reportKeys)) [.links, .sched, .bitt] s t)
  ∧ (∀ (s : State) (q : Fin 256) (ws : List Word), s.lkUp q = true → ws.length = 32 → cellType ws = 1 → cellOk ws = true →
      cellFormBad ws = false →
      (s.expects q (fld (cellWord ws 0) 55 44) && (s.bindOf (fld (cellWord ws 0) 55 44)).isSome) = true →
      s.nowSclk + 65536 < (cellWord ws 1).toNat + s.rdf R.RX_BOUND q 15 0 → Gives (.sampleCellRx q ws) s fun t =>
      t.rd R.DROP_TIME q = satWord (s.rd R.DROP_TIME q) 1 ∧ Frame (regsIn [R.DROP_TIME.key q]) [] s t)
  ∧ (∀ (s : State) (q : Fin 256) (ws : List Word), s.lkUp q = true → ws.length = 32 → cellType ws = 1 → cellOk ws = true →
      cellFormBad ws = false →
      (s.expects q (fld (cellWord ws 0) 55 44) && (s.bindOf (fld (cellWord ws 0) 55 44)).isSome) = true →
      s.nowSclk ≤ (cellWord ws 1).toNat + s.rdf R.RX_BOUND q 15 0 →
      (cellWord ws 1).toNat + s.rdf R.RX_BOUND q 15 0 ≤ s.nowSclk + 65536 → 512 ≤ (s.lk q).rx.length →
      Gives (.sampleCellRx q ws) s fun t => t.rd R.DROP_OVF q = satWord (s.rd R.DROP_OVF q) 1
      ∧ Frame (regsIn [R.DROP_OVF.key q]) [] s t)
  ∧ (∀ (s : State) (q : Fin 256) (ws : List Word), s.lkUp q = true → ws.length = 32 → cellType ws = 1 → cellOk ws = true →
      cellFormBad ws = false →
      (s.expects q (fld (cellWord ws 0) 55 44) && (s.bindOf (fld (cellWord ws 0) 55 44)).isSome) = true →
      s.nowSclk ≤ (cellWord ws 1).toNat + s.rdf R.RX_BOUND q 15 0 →
      (cellWord ws 1).toNat + s.rdf R.RX_BOUND q 15 0 ≤ s.nowSclk + 65536 → (s.lk q).rx.length < 512 →
      s.wasConsumed ws = true → Gives (.sampleCellRx q ws) s fun t => t.rd R.DROP_DUP q = satWord (s.rd R.DROP_DUP q) 1
      ∧ Frame (regsIn [R.DROP_DUP.key q]) [] s t)
  ∧ (∀ (s : State) (q : Fin 256) (ws : List Word), s.lkUp q = false → Gives (.sampleCellRx q ws) s fun t =>
      Frame noRegs [] s t)
  ∧ (∀ (s : State) (q : Fin 256) (ws : List Word), s.lkUp q = true → ws.length = 32 → cellType ws = 5 → cellOk ws = true →
      cellFormBad ws = false → s.expectsRow q (fld (cellWord ws 0) 55 52) = true →
      s.nowSclk ≤ (cellWord ws 1).toNat + s.rdf R.RX_BOUND q 15 0 →
      (cellWord ws 1).toNat + s.rdf R.RX_BOUND q 15 0 ≤ s.nowSclk + 65536 → (s.lk q).rx.length < 512 →
      s.wasConsumed ws = false → Gives (.psumCellRx q ws) s fun t =>
      (t.lk q).rx = (s.lk q).rx ++ [{ words := ws, avail := if s.sched.stress then (cellWord ws 1).toNat + s.rdf R.RX_BOUND q 15 0 else s.nowSclk + 64, release := (cellWord ws 1).toNat + s.rdf R.RX_BOUND q 15 0 }]
      ∧ t.rd R.CELLS_RX q = satWord (s.rd R.CELLS_RX q) 1 ∧ Frame (regsIn [R.CELLS_RX.key q]) [.links] s t)
  ∧ (∀ (s : State) (q : Fin 256) (ws : List Word), s.lkUp q = true → ws.length = 32 → cellType ws = 5 → cellOk ws = false →
      Gives (.psumCellRx q ws) s fun t => t.rd R.DROP_CRC q = satWord (s.rd R.DROP_CRC q) 1
      ∧ Frame (regsIn [R.DROP_CRC.key q]) [] s t)
  ∧ (∀ (s : State) (q : Fin 256) (ws : List Word), s.lkUp q = true → ws.length = 32 → cellType ws = 5 → cellOk ws = true →
      cellFormBad ws = true ∨ s.expectsRow q (fld (cellWord ws 0) 55 52) = false → Gives (.psumCellRx q ws) s fun t =>
      t.rd R.DROP_FORM q = satWord (s.rd R.DROP_FORM q) 1 ∧ Frame (regsIn [R.DROP_FORM.key q]) [] s t)
  ∧ (∀ (s : State) (q : Fin 256) (ws : List Word), s.lkUp q = true → ws.length = 32 → cellType ws = 5 → cellOk ws = true →
      cellFormBad ws = false → s.expectsRow q (fld (cellWord ws 0) 55 52) = true →
      (cellWord ws 1).toNat + s.rdf R.RX_BOUND q 15 0 < s.nowSclk → Gives (.psumCellRx q ws) s fun t =>
      t.rd R.DROP_TIME q = satWord (s.rd R.DROP_TIME q) 1 ∧ (t.lk q).rx = (s.lk q).rx
      ∧ Frame (regsIn ([R.DROP_TIME.key q, R.BR_LINK.key 0, R.BR_FIRST.key 0] ++ reportKeys)) [.links, .sched, .bitt] s t)
  ∧ (∀ (s : State) (q : Fin 256) (ws : List Word), s.lkUp q = true → ws.length = 32 → cellType ws = 5 → cellOk ws = true →
      cellFormBad ws = false → s.expectsRow q (fld (cellWord ws 0) 55 52) = true →
      s.nowSclk + 65536 < (cellWord ws 1).toNat + s.rdf R.RX_BOUND q 15 0 → Gives (.psumCellRx q ws) s fun t =>
      t.rd R.DROP_TIME q = satWord (s.rd R.DROP_TIME q) 1 ∧ Frame (regsIn [R.DROP_TIME.key q]) [] s t)
  ∧ (∀ (s : State) (q : Fin 256) (ws : List Word), s.lkUp q = true → ws.length = 32 → cellType ws = 5 → cellOk ws = true →
      cellFormBad ws = false → s.expectsRow q (fld (cellWord ws 0) 55 52) = true →
      s.nowSclk ≤ (cellWord ws 1).toNat + s.rdf R.RX_BOUND q 15 0 →
      (cellWord ws 1).toNat + s.rdf R.RX_BOUND q 15 0 ≤ s.nowSclk + 65536 → 512 ≤ (s.lk q).rx.length →
      Gives (.psumCellRx q ws) s fun t => t.rd R.DROP_OVF q = satWord (s.rd R.DROP_OVF q) 1
      ∧ Frame (regsIn [R.DROP_OVF.key q]) [] s t)
  ∧ (∀ (s : State) (q : Fin 256) (ws : List Word), s.lkUp q = true → ws.length = 32 → cellType ws = 5 → cellOk ws = true →
      cellFormBad ws = false → s.expectsRow q (fld (cellWord ws 0) 55 52) = true →
      s.nowSclk ≤ (cellWord ws 1).toNat + s.rdf R.RX_BOUND q 15 0 →
      (cellWord ws 1).toNat + s.rdf R.RX_BOUND q 15 0 ≤ s.nowSclk + 65536 → (s.lk q).rx.length < 512 →
      s.wasConsumed ws = true → Gives (.psumCellRx q ws) s fun t => t.rd R.DROP_DUP q = satWord (s.rd R.DROP_DUP q) 1
      ∧ Frame (regsIn [R.DROP_DUP.key q]) [] s t)
  ∧ (∀ (s : State) (q : Fin 256) (ws : List Word), s.lkUp q = false → Gives (.psumCellRx q ws) s fun t =>
      Frame noRegs [] s t)
  ∧ (∀ (s : State) (q : Fin 256) (ws : List Word), s.lkUp q = true → ws.length = 32 → cellType ws = 2 → cellOk ws = true →
      cellFormBad ws = false → s.rxHeld q 2 < 32 → fld (cellWord ws 0) 55 44 = (s.lk q).rxSeq →
      Gives (.controlCellRx q ws) s fun t => (t.lk q).rxSeq = ((s.lk q).rxSeq + 1) % 4096 ∧ (t.lk q).nak = false
      ∧ t.rd R.CELLS_RX q = satWord (s.rd R.CELLS_RX q) 1)
  ∧ (∀ (s : State) (q : Fin 256) (ws : List Word), s.lkUp q = true → ws.length = 32 → cellType ws = 2 → cellOk ws = true →
      cellFormBad ws = false → s.rxHeld q 2 < 32 → fld (cellWord ws 0) 55 44 = (s.lk q).rxSeq → s.rxDelay q ≠ 0 →
      Gives (.controlCellRx q ws) s fun t =>
      (t.lk q).held.map (fun e => (e.1, e.2.1)) = (s.lk q).held.map (fun e => (e.1, e.2.1)) ++ [(s.imgNow + s.rxDelay q, ws)]
      ∧ t.mesh = s.mesh ∧ Frame (regsIn [R.CELLS_RX.key q]) [.links] s t)
  ∧ (∀ (s : State) (q : Fin 256) (ws : List Word), s.lkUp q = true → ws.length = 32 → cellType ws = 2 → cellOk ws = true →
      cellFormBad ws = false → s.rxHeld q 2 < 32 → fld (cellWord ws 0) 55 44 = (s.lk q).rxSeq → s.rxDelay q = 0 →
      (s.lk q).held = [] → s.meshPeer q = none → Gives (.controlCellRx q ws) s fun t =>
      (t.lk q).freedC = ((s.lk q).freedC + 1) % 256 ∧ t.rdf R.MESH_ERR 0 31 16 = min (s.rdf R.MESH_ERR 0 31 16 + 1) 65535
      ∧ Frame (regsIn [R.CELLS_RX.key q, R.MESH_ERR.key 0]) [.links] s t)
  ∧ (∀ (s : State) (q : Fin 256) (ws : List Word), s.lkUp q = true → ws.length = 32 → cellType ws = 2 → cellOk ws = false →
      Gives (.controlCellRx q ws) s fun t => (t.lk q).nak = true ∧ t.rd R.DROP_CRC q = satWord (s.rd R.DROP_CRC q) 1
      ∧ Frame (regsIn [R.DROP_CRC.key q]) [.links] s t)
  ∧ (∀ (s : State) (q : Fin 256) (ws : List Word), s.lkUp q = true → ws.length = 32 → cellType ws = 2 → cellOk ws = true →
      cellFormBad ws = true → Gives (.controlCellRx q ws) s fun t => (t.lk q).nak = true
      ∧ t.rd R.DROP_FORM q = satWord (s.rd R.DROP_FORM q) 1 ∧ Frame (regsIn [R.DROP_FORM.key q]) [.links] s t)
  ∧ (∀ (s : State) (q : Fin 256) (ws : List Word), s.lkUp q = true → ws.length = 32 → cellType ws = 2 → cellOk ws = true →
      cellFormBad ws = false → 32 ≤ s.rxHeld q 2 → Gives (.controlCellRx q ws) s fun t => (t.lk q).nak = true
      ∧ t.rd R.DROP_OVF q = satWord (s.rd R.DROP_OVF q) 1 ∧ Frame (regsIn [R.DROP_OVF.key q]) [.links] s t)
  ∧ (∀ (s : State) (q : Fin 256) (ws : List Word), s.lkUp q = true → ws.length = 32 → cellType ws = 2 → cellOk ws = true →
      cellFormBad ws = false → s.rxHeld q 2 < 32 → fld (cellWord ws 0) 55 44 ≠ (s.lk q).rxSeq →
      Gives (.controlCellRx q ws) s fun t => t.lk q = { s.lk q with nak := true } ∧ Frame noRegs [.links] s t)
  ∧ (∀ (s : State) (q : Fin 256) (ws : List Word), s.lkUp q = false → Gives (.controlCellRx q ws) s fun t =>
      Frame noRegs [] s t)
  ∧ (∀ (s : State) (q : Fin 256) (ws : List Word), s.lkUp q = true → ws.length = 32 → cellType ws = 3 → cellOk ws = true →
      cellFormBad ws = false → s.rxHeld q 3 < 256 → fld (cellWord ws 0) 55 44 = (s.lk q).rxSeq →
      Gives (.meshCellRx q ws) s fun t => (t.lk q).rxSeq = ((s.lk q).rxSeq + 1) % 4096 ∧ (t.lk q).nak = false
      ∧ t.rd R.CELLS_RX q = satWord (s.rd R.CELLS_RX q) 1)
  ∧ (∀ (s : State) (q : Fin 256) (ws : List Word), s.lkUp q = true → ws.length = 32 → cellType ws = 3 → cellOk ws = true →
      cellFormBad ws = false → s.rxHeld q 3 < 256 → fld (cellWord ws 0) 55 44 = (s.lk q).rxSeq → s.rxDelay q ≠ 0 →
      Gives (.meshCellRx q ws) s fun t =>
      (t.lk q).held.map (fun e => (e.1, e.2.1)) = (s.lk q).held.map (fun e => (e.1, e.2.1)) ++ [(s.imgNow + s.rxDelay q, ws)]
      ∧ t.mesh = s.mesh ∧ Frame (regsIn [R.CELLS_RX.key q]) [.links] s t)
  ∧ (∀ (s : State) (q : Fin 256) (ws : List Word), s.lkUp q = true → ws.length = 32 → cellType ws = 3 → cellOk ws = true →
      cellFormBad ws = false → s.rxHeld q 3 < 256 → fld (cellWord ws 0) 55 44 = (s.lk q).rxSeq → s.rxDelay q = 0 →
      (s.lk q).held = [] → s.meshPeer q = none → Gives (.meshCellRx q ws) s fun t =>
      (t.lk q).freedM = ((s.lk q).freedM + 1) % 4096 ∧ t.rdf R.MESH_ERR 0 31 16 = min (s.rdf R.MESH_ERR 0 31 16 + 1) 65535
      ∧ Frame (regsIn [R.CELLS_RX.key q, R.MESH_ERR.key 0]) [.links] s t)
  ∧ (∀ (s : State) (q : Fin 256) (ws : List Word), s.lkUp q = true → ws.length = 32 → cellType ws = 3 → cellOk ws = false →
      Gives (.meshCellRx q ws) s fun t => (t.lk q).nak = true ∧ t.rd R.DROP_CRC q = satWord (s.rd R.DROP_CRC q) 1
      ∧ Frame (regsIn [R.DROP_CRC.key q]) [.links] s t)
  ∧ (∀ (s : State) (q : Fin 256) (ws : List Word), s.lkUp q = true → ws.length = 32 → cellType ws = 3 → cellOk ws = true →
      cellFormBad ws = true → Gives (.meshCellRx q ws) s fun t => (t.lk q).nak = true
      ∧ t.rd R.DROP_FORM q = satWord (s.rd R.DROP_FORM q) 1 ∧ Frame (regsIn [R.DROP_FORM.key q]) [.links] s t)
  ∧ (∀ (s : State) (q : Fin 256) (ws : List Word), s.lkUp q = true → ws.length = 32 → cellType ws = 3 → cellOk ws = true →
      cellFormBad ws = false → 256 ≤ s.rxHeld q 3 → Gives (.meshCellRx q ws) s fun t => (t.lk q).nak = true
      ∧ t.rd R.DROP_OVF q = satWord (s.rd R.DROP_OVF q) 1 ∧ Frame (regsIn [R.DROP_OVF.key q]) [.links] s t)
  ∧ (∀ (s : State) (q : Fin 256) (ws : List Word), s.lkUp q = true → ws.length = 32 → cellType ws = 3 → cellOk ws = true →
      cellFormBad ws = false → s.rxHeld q 3 < 256 → fld (cellWord ws 0) 55 44 ≠ (s.lk q).rxSeq →
      Gives (.meshCellRx q ws) s fun t => t.lk q = { s.lk q with nak := true } ∧ Frame noRegs [.links] s t)
  ∧ (∀ (s : State) (q : Fin 256) (ws : List Word), s.lkUp q = false → Gives (.meshCellRx q ws) s fun t =>
      Frame noRegs [] s t)
  ∧ (∀ (s : State) (q : Fin 256) (ws : List Word), s.lkUp q = true → ws.length = 32 → cellType ws = 3 → cellOk ws = true →
      cellFormBad ws = false → s.rxHeld q 3 < 256 → fld (cellWord ws 0) 55 44 = (s.lk q).rxSeq → s.rxDelay q = 0 →
      (s.lk q).held = [] → (s.meshPeer q).isSome = true → fld (cellWord ws 1) 49 44 = s.meshSelf →
      Gives (.meshCellRx q ws) s fun t => t.mesh.inbox = s.mesh.inbox ++ [(q.val, ws)] ∧ (t.lk q).freedM = (s.lk q).freedM
      ∧ Frame (regsIn [R.CELLS_RX.key q]) [.links, .mesh] s t)
  ∧ (∀ (s : State) (q : Fin 256) (ws : List Word), s.lkUp q = true → ws.length = 32 → cellType ws = 4 →
      Gives (.fillerCellRx q ws) s fun t =>
      t.rd R.DROP_CRC q = (if cellOk ws then s.rd R.DROP_CRC q else satWord (s.rd R.DROP_CRC q) 1)
      ∧ Frame (regsIn [R.DROP_CRC.key q]) [] s t)
  ∧ (∀ (s : State) (q : Fin 256) (ws : List Word), s.lkUp q = false → Gives (.fillerCellRx q ws) s fun t =>
      Frame noRegs [] s t)
  ∧ (∀ (s : State) (q : Fin 256), s.lkUp q = true → Gives (.malformedCellRx q .badCrc) s fun t =>
      t.rd R.DROP_CRC q = satWord (s.rd R.DROP_CRC q) 1 ∧ Frame (regsIn [R.DROP_CRC.key q]) [] s t)
  ∧ (∀ (s : State) (q : Fin 256), s.lkUp q = true → Gives (.malformedCellRx q .reservedType) s fun t =>
      t.rd R.DROP_FORM q = satWord (s.rd R.DROP_FORM q) 1 ∧ Frame (regsIn [R.DROP_FORM.key q]) [] s t)
  ∧ (∀ (s : State) (q : Fin 256) (ws : List Word), s.lkUp q = true → Gives (.malformedCellRx q (.cutShort ws)) s fun t =>
      t.rd R.DROP_FORM q = satWord (s.rd R.DROP_FORM q) 1
      ∧ t.lk q = { s.lk q with cell := none, nak := (s.lk q).nak || (!ws.isEmpty && (cellType ws == 2 || cellType ws == 3)) }
      ∧ Frame (regsIn [R.DROP_FORM.key q]) [.links] s t)
  ∧ (∀ (s : State) (q : Fin 256) (x : MalformedCell), s.lkUp q = false → Gives (.malformedCellRx q x) s fun t =>
      Frame noRegs [] s t)
  ∧ (∀ (s : State) (q : Fin 256) (c : RxCell) (y : State), (s.lk q).nextRelease = some c.release → y = s.toSclk c.release →
      c.release ≤ y.nowSclk → (y.lk q).rx = [c] → c.avail ≤ c.release → cellType c.words = 5 →
      y.wasConsumed c.words = false → Gives (.cellRelease q) s fun t => (t.lk q).rx = [] ∧ t.wasConsumed c.words = true
      ∧ .psum (fld (cellWord c.words 0) 55 52) c.words ∈ t.sent)
  ∧ (∀ (s : State) (q : Fin 256) (c : RxCell) (y : State), (s.lk q).nextRelease = some c.release → y = s.toSclk c.release →
      c.release ≤ y.nowSclk → (y.lk q).rx = [c] → c.avail ≤ c.release → cellType c.words = 1 →
      y.wasConsumed c.words = false → Gives (.cellRelease q) s fun t => (t.lk q).rx = [] ∧ t.wasConsumed c.words = true
      ∧ Frame (onPages ((List.range 16).map (0x20 + ·) ++ [0x12, 0x0B])) [.links, .slu, .heap, .sched, .bitt, .free] y t)
  ∧ (∀ (s : State) (q : Fin 256) (c : RxCell) (y : State), (s.lk q).nextRelease = some c.release → y = s.toSclk c.release →
      c.release ≤ y.nowSclk → (y.lk q).rx = [c] → c.avail ≤ c.release → y.wasConsumed c.words = true →
      Gives (.cellRelease q) s fun t => (t.lk q).rx = [] ∧ t.rd R.DROP_DUP q = satWord (y.rd R.DROP_DUP q) 1
      ∧ Frame (regsIn [R.DROP_DUP.key q]) [.links] y t)
  ∧ (∀ (s : State) (q : Fin 256) (c : RxCell) (y : State), (s.lk q).nextRelease = some c.release → y = s.toSclk c.release →
      c.release ≤ y.nowSclk → (y.lk q).rx = [c] → c.release < c.avail →
      cellType c.words = 5 ∨ (pget y.links.due (fld (cellWord c.words 0) 55 44)).all (fun d => decide (d.2 ≤ (cellWord c.words 1).toNat)) = true →
      Gives (.cellRelease q) s fun t => (t.lk q).rx = [] ∧ t.rd R.BR_LINK = satWord (y.rd R.BR_LINK) 1
      ∧ Frame (regsIn (R.BR_LINK.key 0 :: R.BR_FIRST.key 0 :: reportKeys)) [.links, .sched, .bitt] y t)
  ∧ (∀ (s : State) (q : Fin 256), (s.lk q).rx = [] → Gives (.cellRelease q) s fun t => Frame noRegs [] s t)
  ∧ (∀ (s : State) (q : Fin 256) (n : Nat), (s.lk q).nextRelease = some n → s.nowSclk < n → n / tideSclk ≠ s.time.tide →
      Gives (.cellRelease q) s fun t => Frame noRegs [] s t)

/-- In a slot the link takes the blocks received by then. One that is up sends, in an OPEN slot, a queued cell within its
credit, numbers it and keeps it for replay; in a UNIT slot, the next exported cell of its quad; in others and with
nothing to send, IDLE alone. One that is not up sends what its state asks, and cells leave it only while it is up. A NAK
or a timeout starts a resend from the oldest cell, and at REPLAY_MAX resends requests a retrain, or notes it where a
negotiation is open; with no cell outstanding nothing is resent. Where the rules leave a choice its clauses rest on the
model's, log entries 3, 60, 61, 64, 68, 109, 269 and 270. -/
def Obligations.CellsAreSentAndResent : Prop :=
  (∀ (s : State) (q : Fin 256) (n : Fin 4096) (rx : List LaneBlock) (y : State) (x : Word) (ws : List Word),
      y = (s.atSlot n).blocksRx q rx → y.lkUp q = true → y.classAt 3 q n = some .open_ → (y.lk q).txq = [x :: ws] →
      (y.lk q).resend = none → (y.lk q).maySend (x :: ws) = true → Gives (.linkTxSlot q n rx) s fun t => (t.lk q).txq = []
      ∧ (t.lk q).replay = (y.lk q).replay ++ [setFld x 55 44 (y.lk q).txSeq :: ws]
      ∧ (t.lk q).txSeq = ((y.lk q).txSeq + 1) % 4096
      ∧ .cell q (sealCell (setFld x 55 44 (y.lk q).txSeq :: ws) (y.spoils q)) ∈ t.sent
      ∧ (y.sched.stress = false → t.rd R.CELLS_TX q = satWord (y.rd R.CELLS_TX q) 1)
      ∧ Frame (regsIn [R.CELLS_TX.key q]) [.links] y t)
  ∧ (∀ (s : State) (q : Fin 256) (n : Fin 4096) (rx : List LaneBlock) (y : State) (c : List Word),
      y = (s.atSlot n).blocksRx q rx → y.lkUp q = true → y.classAt 3 q n = some .open_ → y.sched.stress = false →
      (y.lk q).replay = [c] → (y.lk q).resend = some 0 → (y.lk q).txq = [] → Gives (.linkTxSlot q n rx) s fun t =>
      .cell q (sealCell c (y.spoils q)) ∈ t.sent ∧ (t.lk q).resend = none ∧ (t.lk q).resends = (y.lk q).resends + 1
      ∧ (t.lk q).replay = [c] ∧ t.rd R.REPLAYS q = satWord (y.rd R.REPLAYS q) 1
      ∧ Frame (regsIn [R.CELLS_TX.key q, R.REPLAYS.key q]) [.links] y t)
  ∧ (∀ (s : State) (q : Fin 256) (n : Fin 4096) (rx : List LaneBlock) (y : State), y = (s.atSlot n).blocksRx q rx →
      y.lkUp q = true → y.classAt 3 q n ≠ some .unit →
      y.classAt 3 q n ≠ some .open_ ∨ (y.sched.stress = false ∧ (y.lk q).resend = none ∧ (y.lk q).txq = []) →
      Gives (.linkTxSlot q n rx) s fun t => (t.lk q).txSeq = (y.lk q).txSeq ∧ y.sent.length < t.sent.length
      ∧ Frame noRegs [.links] y t)
  ∧ (∀ (s : State) (q : Fin 256) (n : Fin 4096) (rx : List LaneBlock) (y : State) (c : List Word),
      y = (s.atSlot n).blocksRx q rx → y.lkUp q = true → y.classAt 3 q n = some .unit →
      0 < slotCells (y.rdf R.QUAD_MODE q 9 8) (y.lkWidth q) → (y.psNext q y.imgNow).map (·.2) = some c →
      Gives (.linkTxSlot q n rx) s fun t => .cell q (sealCell c false) ∈ t.sent)
  ∧ (∀ (s : State) (q : Fin 256) (n : Fin 4096) (rx : List LaneBlock) (y : State), y = (s.atSlot n).blocksRx q rx →
      y.lkUp q = false → Gives (.linkTxSlot q n rx) s fun t => (y.lkState q = lkLock → y.sent.length < t.sent.length)
      ∧ (y.lkState q = lkSleep → t.sent = y.sent) ∧ Frame noRegs [.links] y t)
  ∧ (∀ (s : State) (q : Fin 256) (x : BitVec 12) (l : Link), l = ((s.lk q).acked x.toNat) → s.lkUp q = true → l.replay ≠ [] →
      l.resends < s.rdf R.LINK_CFG q 39 36 → Gives (.nakReceived q x) s fun t => t.lk q = { l with resend := some 0 }
      ∧ Frame noRegs [.links] s t)
  ∧ (∀ (s : State) (q : Fin 256) (x : BitVec 12) (l : Link), l = ((s.lk q).acked x.toNat) → s.lkUp q = true → l.replay = [] →
      Gives (.nakReceived q x) s fun t => t.lk q = l ∧ Frame noRegs [.links] s t)
  ∧ (∀ (s : State) (q : Fin 256) (x : BitVec 12) (l : Link), l = ((s.lk q).acked x.toNat) → s.lkUp q = true → l.replay ≠ [] →
      s.rdf R.LINK_CFG q 39 36 ≤ l.resends → s.lkNeg q = 0 ∨ s.lkNeg q = 6 → Gives (.nakReceived q x) s fun t =>
      (t.lk q).resends = 0 ∧ (t.lk q).kind = .retrain ∧ (t.lk q).cause = cReplayLimit ∧ t.lkNeg q = 1
      ∧ bit (t.hdr (brinePage q) hEvt) 3 = true ∧ .control q blkNeg (word (at_ 38 2 + at_ 28 l.nextToken)) ∈ t.sent
      ∧ Frame (regsIn (linkKeys q)) [.links] s t)
  ∧ (∀ (s : State) (q : Fin 256) (x : BitVec 12) (l : Link), l = ((s.lk q).acked x.toNat) → s.lkUp q = true → l.replay ≠ [] →
      s.rdf R.LINK_CFG q 39 36 ≤ l.resends → s.lkNeg q ≠ 0 → s.lkNeg q ≠ 6 → Gives (.nakReceived q x) s fun t =>
      t.lk q = { l with resends := 0, later := some (.retrain, 0, cReplayLimit) } ∧ bit (t.hdr (brinePage q) hEvt) 3 = true
      ∧ Frame (regsIn [regKey 0 (brinePage q) 0 hEvt]) [.links] s t)
  ∧ (∀ (s : State) (q : Fin 256) (x : BitVec 12), s.lkUp q = false → Gives (.nakReceived q x) s fun t => Frame noRegs [] s t)
  ∧ (∀ (s : State) (q : Fin 256) (l : Link), l = (s.lk q) → s.lkUp q = true → l.replay ≠ [] →
      l.resends < s.rdf R.LINK_CFG q 39 36 → Gives (.replayTimeout q) s fun t => t.lk q = { l with resend := some 0 }
      ∧ Frame noRegs [.links] s t)
  ∧ (∀ (s : State) (q : Fin 256) (l : Link), l = (s.lk q) → s.lkUp q = true → l.replay = [] →
      Gives (.replayTimeout q) s fun t => t.lk q = l ∧ Frame noRegs [.links] s t)
  ∧ (∀ (s : State) (q : Fin 256) (l : Link), l = (s.lk q) → s.lkUp q = true → l.replay ≠ [] →
      s.rdf R.LINK_CFG q 39 36 ≤ l.resends → s.lkNeg q = 0 ∨ s.lkNeg q = 6 → Gives (.replayTimeout q) s fun t =>
      (t.lk q).resends = 0 ∧ (t.lk q).kind = .retrain ∧ (t.lk q).cause = cReplayLimit ∧ t.lkNeg q = 1
      ∧ bit (t.hdr (brinePage q) hEvt) 3 = true ∧ .control q blkNeg (word (at_ 38 2 + at_ 28 l.nextToken)) ∈ t.sent
      ∧ Frame (regsIn (linkKeys q)) [.links] s t)
  ∧ (∀ (s : State) (q : Fin 256) (l : Link), l = (s.lk q) → s.lkUp q = true → l.replay ≠ [] →
      s.rdf R.LINK_CFG q 39 36 ≤ l.resends → s.lkNeg q ≠ 0 → s.lkNeg q ≠ 6 → Gives (.replayTimeout q) s fun t =>
      t.lk q = { l with resends := 0, later := some (.retrain, 0, cReplayLimit) } ∧ bit (t.hdr (brinePage q) hEvt) 3 = true
      ∧ Frame (regsIn [regKey 0 (brinePage q) 0 hEvt]) [.links] s t)
  ∧ (∀ (s : State) (q : Fin 256), s.lkUp q = false → Gives (.replayTimeout q) s fun t => Frame noRegs [] s t)

/-- Signal on lane 0 leads to LOCK, lock to DESKEW, alignment to PARAM, and the parameters of a partner to ACTIVE at the
narrower width: of a known one in a full training with new credits, of another with the replay state discarded too.
Failures lead back to DETECT with their cause and a report, in WAKE too, and this port's own identity to FAULT. A link
that is up and receives TS, or loses a lane in use, enters LOCK; a lane not in use only loses its lock. A BCNT mismatch
is a block error of its lane; the eighth in 1 ms requests a retrain. In another state nothing happens. Widths are codes 0
to 2. Where the rules leave a choice its clauses rest on the model's, log entries 3, 12, 58, 59, 60, 65, 67 and 270. -/
def Obligations.LinkTraining : Prop :=
  (∀ (s : State) (q : Fin 256), s.lkState q = lkDetect → s.rdf R.LINK_CFG q 1 0 ≤ 2 → Gives (.linkSignalDetect q) s fun t =>
      t.lkState q = lkLock ∧ t.rdb R.LANE_STAT (4 * q.val) 0 = true ∧ Frame (regsIn (linkKeys q)) [.links] s t)
  ∧ (∀ (s : State) (q : Fin 256), s.lkState q ≠ lkDetect → Gives (.linkSignalDetect q) s fun t => Frame noRegs [] s t)
  ∧ (∀ (s : State) (q : Fin 256), s.lkState q = lkLock → s.rdf R.LINK_CFG q 1 0 ≤ 2 → Gives (.linkLockDone q) s fun t =>
      t.lkState q = lkDeskew ∧ (t.lk q).own = s.rdf R.LINK_CFG q 1 0
      ∧ (quadLanes q (lanesOf (s.rdf R.LINK_CFG q 1 0))).all (fun l => t.rdb R.LANE_STAT l 1) = true
      ∧ Frame (regsIn (linkKeys q)) [.links, .free] s t)
  ∧ (∀ (s : State) (q : Fin 256), s.lkState q ≠ lkLock → Gives (.linkLockDone q) s fun t => Frame noRegs [] s t)
  ∧ (∀ (s : State) (q : Fin 256) (x : BitVec 4), s.lkState q = lkLock → x.getLsbD 0 = true → s.rdf R.LINK_CFG q 1 0 ≤ 2 →
      Gives (.linkLockTimeout q x) s fun t => t.lkState q = lkDeskew ∧ (t.lk q).own = widestLocked (s.rdf R.LINK_CFG q 1 0) x
      ∧ t.rdb R.LINK_STAT q 29 = decide (widestLocked (s.rdf R.LINK_CFG q 1 0) x < s.rdf R.LINK_CFG q 1 0)
      ∧ Frame (regsIn (linkKeys q)) [.links, .free] s t)
  ∧ (∀ (s : State) (q : Fin 256) (x : BitVec 4), s.lkState q = lkWake → x.getLsbD 0 = true →
      Gives (.linkLockTimeout q x) s fun t => t.lkState q = lkWake ∧ (t.lk q).own = widestLocked (s.rdf R.LINK_CFG q 1 0) x
      ∧ t.rdb R.LINK_STAT q 29 = decide (widestLocked (s.rdf R.LINK_CFG q 1 0) x < s.rdf R.LINK_CFG q 1 0)
      ∧ Frame (regsIn [R.LINK_STAT.key q]) [.links] s t)
  ∧ (∀ (s : State) (q : Fin 256) (x : BitVec 4), s.lkState q = lkLock ∨ s.lkState q = lkWake → x.getLsbD 0 = false →
      s.rdf R.LINK_CFG q 1 0 ≤ 2 → Gives (.linkLockTimeout q x) s fun t => t.lkState q = lkDetect
      ∧ t.rdf R.LINK_STAT q 47 40 = cNoLock ∧ Frame (regsIn (linkKeys q ++ reportKeys)) [.links, .bitt] s t)
  ∧ (∀ (s : State) (q : Fin 256) (x : BitVec 4), s.lkState q ≠ lkLock → s.lkState q ≠ lkWake →
      Gives (.linkLockTimeout q x) s fun t => Frame noRegs [] s t)
  ∧ (∀ (s : State) (q : Fin 256) (r : DeskewResult), s.lkState q = lkDeskew ∨ s.lkState q = lkWake →
      s.rdf R.LINK_CFG q 1 0 ≤ 2 → (s.lk q).own ≤ 2 → Gives (.linkDeskewDone q r) s fun t =>
      (r = .aligned → t.lkState q = (if s.lkState q = lkDeskew then lkParam else lkWake))
      ∧ (r = .aligned → (quadLanes q (lanesOf (s.lk q).own)).all (fun l => t.rdb R.LANE_STAT l 2) = true)
      ∧ (r ≠ .aligned → t.lkState q = lkDetect) ∧ (r = .skew → t.rdf R.LINK_STAT q 47 40 = cSkew)
      ∧ (r = .crossed → t.rdf R.LINK_STAT q 47 40 = cLaneOrder)
      ∧ Frame (regsIn (linkKeys q ++ reportKeys)) [.links, .bitt] s t)
  ∧ (∀ (s : State) (q : Fin 256) (r : DeskewResult), s.lkState q ≠ lkDeskew → s.lkState q ≠ lkWake →
      Gives (.linkDeskewDone q r) s fun t => Frame noRegs [] s t)
  ∧ (∀ (s : State) (q : Fin 256) (y : Word) (pq : BitVec 8) (ss : BitVec 15) (wd : BitVec 2) (us : BitVec 32),
      s.lkState q = lkParam → ¬ (y = s.nv.otp.serial ∧ pq.toNat = q.val) →
      (s.lk q).peer = some { serial := y, quad := pq.toNat, session := ss.toNat } → (s.lk q).later = none →
      (quadLanes q (lanesOf (min (s.lk q).own (min wd.toNat 2)))).any s.prbsOn = false →
      Gives (.linkParamDone q y pq ss wd us) s fun t => t.lkUp q = true ∧ t.lkWidth q = min (s.lk q).own (min wd.toNat 2)
      ∧ (t.lk q).agreed = min (s.lk q).own (min wd.toNat 2)
      ∧ t.rdb R.LINK_STAT q 29 = decide (min (s.lk q).own (min wd.toNat 2) < s.rdf R.LINK_CFG q 1 0) ∧ (t.lk q).full = false
      ∧ (t.lk q).peer = (s.lk q).peer ∧ (t.lk q).replay = (s.lk q).replay
      ∧ ((s.lk q).full = true → (t.lk q).credC = 32 ∧ (t.lk q).credM = 256) ∧ t.rd R.TRAIN_TIME q = word us.toNat
      ∧ bit (t.hdr (brinePage q) hEvt) 0 = true ∧ Frame (regsIn (R.TRAIN_TIME.key q :: linkKeys q)) [.links] s t)
  ∧ (∀ (s : State) (q : Fin 256) (y : Word) (pq : BitVec 8) (ss : BitVec 15) (wd : BitVec 2) (us : BitVec 32),
      s.lkState q = lkParam → ¬ (y = s.nv.otp.serial ∧ pq.toNat = q.val) →
      (s.lk q).peer ≠ some { serial := y, quad := pq.toNat, session := ss.toNat } → (s.lk q).replay = [] →
      (s.lk q).later = none → (quadLanes q (lanesOf (min (s.lk q).own (min wd.toNat 2)))).any s.prbsOn = false →
      Gives (.linkParamDone q y pq ss wd us) s fun t => t.lkUp q = true ∧ t.lkWidth q = min (s.lk q).own (min wd.toNat 2)
      ∧ (t.lk q).peer = some { serial := y, quad := pq.toNat, session := ss.toNat } ∧ t.rd R.PEER_SERIAL q = y
      ∧ t.rd R.PEER_PORT q = word (at_ 9 ss.toNat + at_ 8 1 + pq.toNat) ∧ (t.lk q).txSeq = 0 ∧ (t.lk q).rxSeq = 0
      ∧ (t.lk q).credC = 32 ∧ (t.lk q).credM = 256 ∧ ((s.lk q).peer.isSome = true → bit (t.hdr (brinePage q) hEvt) 2 = true)
      ∧ bit (t.hdr (brinePage q) hEvt) 0 = true
      ∧ Frame (regsIn (R.TRAIN_TIME.key q :: R.PEER_SERIAL.key q :: R.PEER_PORT.key q :: linkKeys q)) [.links] s t)
  ∧ (∀ (s : State) (q : Fin 256) (y : Word) (pq : BitVec 8) (ss : BitVec 15) (wd : BitVec 2) (us : BitVec 32),
      s.lkState q = lkParam ∨ s.lkState q = lkWake → y = s.nv.otp.serial → pq.toNat = q.val →
      Gives (.linkParamDone q y pq ss wd us) s fun t => t.lkState q = lkFault ∧ t.rdf R.LINK_STAT q 47 40 = cSelfLoop
      ∧ Frame (regsIn (linkKeys q ++ reportKeys)) [.links, .bitt] s t)
  ∧ (∀ (s : State) (q : Fin 256) (y : Word) (pq : BitVec 8) (ss : BitVec 15) (wd : BitVec 2) (us : BitVec 32),
      s.lkState q = lkWake → ¬ (y = s.nv.otp.serial ∧ pq.toNat = q.val) →
      (s.lk q).peer = some { serial := y, quad := pq.toNat, session := ss.toNat } → (s.lk q).later = none →
      (quadLanes q (lanesOf (min (s.lk q).own (min wd.toNat 2)))).any s.prbsOn = false →
      Gives (.linkParamDone q y pq ss wd us) s fun t => t.lkUp q = true ∧ t.lkWidth q = min (s.lk q).own (min wd.toNat 2)
      ∧ (t.lk q).agreed = (s.lk q).agreed ∧ t.rd R.TRAIN_TIME q = word us.toNat
      ∧ t.hdr (brinePage q) hEvt = s.hdr (brinePage q) hEvt ∧ Frame (regsIn (R.TRAIN_TIME.key q :: linkKeys q)) [.links] s t)
  ∧ (∀ (s : State) (q : Fin 256) (y : Word) (pq : BitVec 8) (ss : BitVec 15) (wd : BitVec 2) (us : BitVec 32),
      s.lkState q ≠ lkParam → s.lkState q ≠ lkWake → Gives (.linkParamDone q y pq ss wd us) s fun t => Frame noRegs [] s t)
  ∧ (∀ (s : State) (q : Fin 256), s.lkState q = lkParam ∨ s.lkState q = lkWake → s.rdf R.LINK_CFG q 1 0 ≤ 2 →
      Gives (.linkParamTimeout q) s fun t => t.lkState q = lkDetect ∧ t.rdf R.LINK_STAT q 47 40 = cParamTimeout
      ∧ Frame (regsIn (linkKeys q ++ reportKeys)) [.links, .bitt] s t)
  ∧ (∀ (s : State) (q : Fin 256), s.lkState q ≠ lkParam → s.lkState q ≠ lkWake → Gives (.linkParamTimeout q) s fun t =>
      Frame noRegs [] s t)
  ∧ (∀ (s : State) (q : Fin 256), s.lkUp q = true → s.rdf R.LINK_CFG q 1 0 ≤ 2 → Gives (.tsReceivedActive q) s fun t =>
      t.lkState q = lkLock ∧ t.rdf R.LINK_STAT q 47 40 = cPeer
      ∧ t.rdf R.NEG_COUNT q 63 48 = min (s.rdf R.NEG_COUNT q 63 48 + 1) 65535 ∧ (t.lk q).full = false
      ∧ bit (t.hdr (brinePage q) hEvt) 1 = true ∧ Frame (regsIn (linkKeys q ++ reportKeys)) [.links, .bitt] s t)
  ∧ (∀ (s : State) (q : Fin 256), s.lkUp q = false → Gives (.tsReceivedActive q) s fun t => Frame noRegs [] s t)
  ∧ (∀ (s : State) (i : Fin 1024), s.rdb R.LANE_STAT i 1 = true → s.lkUp (i.val / 4) = true →
      i.val % 4 < lanesOf (s.lkWidth (i.val / 4)) → s.rdf R.LINK_CFG (i.val / 4) 1 0 ≤ 2 →
      Gives (.blockLockLost i) s fun t => t.lkState (i.val / 4) = lkLock ∧ t.rdf R.LINK_STAT (i.val / 4) 47 40 = cLockLoss
      ∧ t.rd R.BLK_ERR i = satWord (s.rd R.BLK_ERR i) (16 - (s.lane i).bads)
      ∧ t.rd R.LOCK_LOSS i = satWord (s.rd R.LOCK_LOSS i) 1 ∧ t.rdb R.LANE_STAT i 1 = false
      ∧ bit (t.hdr (lanePage i) hEvt) 0 = true
      ∧ Frame (regsIn (R.BLK_ERR.key i :: R.LOCK_LOSS.key i :: regKey 0 (lanePage i) 0 hEvt :: linkKeys (i.val / 4) ++ reportKeys)) [.links, .bitt] s t)
  ∧ (∀ (s : State) (i : Fin 1024), s.rdb R.LANE_STAT i 1 = true →
      s.lkUp (i.val / 4) = false ∨ lanesOf (s.lkWidth (i.val / 4)) ≤ i.val % 4 → Gives (.blockLockLost i) s fun t =>
      t.rd R.BLK_ERR i = satWord (s.rd R.BLK_ERR i) (16 - (s.lane i).bads)
      ∧ t.rd R.LOCK_LOSS i = satWord (s.rd R.LOCK_LOSS i) 1 ∧ t.rdb R.LANE_STAT i 1 = false
      ∧ bit (t.hdr (lanePage i) hEvt) 0 = true
      ∧ Frame (regsIn (R.BLK_ERR.key i :: R.LOCK_LOSS.key i :: regKey 0 (lanePage i) 0 hEvt :: [R.LANE_STAT.key i])) [.links] s t)
  ∧ (∀ (s : State) (i : Fin 1024), s.rdb R.LANE_STAT i 1 = false → Gives (.blockLockLost i) s fun t => Frame noRegs [] s t)
  ∧ (∀ (s : State) (q : Fin 256) (i : Fin 4), s.lkUp q = true →
      ((s.lk q).skews.filter fun z => s.time.total < z + 1500000).length < 7 → Gives (.skewRetrain ⟨q, [i]⟩) s fun t =>
      t.rd R.BLK_ERR (4 * q.val + i.val) = satWord (s.rd R.BLK_ERR (4 * q.val + i.val)) 1
      ∧ t.lk q = { s.lk q with skews := s.time.total :: (s.lk q).skews.filter fun z => s.time.total < z + 1500000 }
      ∧ Frame (regsIn [R.BLK_ERR.key (4 * q.val + i.val)]) [.links] s t)
  ∧ (∀ (s : State) (q : Fin 256) (i : Fin 4), s.lkUp q = true →
      7 ≤ ((s.lk q).skews.filter fun z => s.time.total < z + 1500000).length → s.lkNeg q = 0 ∨ s.lkNeg q = 6 →
      Gives (.skewRetrain ⟨q, [i]⟩) s fun t =>
      t.rd R.BLK_ERR (4 * q.val + i.val) = satWord (s.rd R.BLK_ERR (4 * q.val + i.val)) 1 ∧ t.lkNeg q = 1
      ∧ (t.lk q).kind = .retrain ∧ (t.lk q).cause = cSkew ∧ (t.lk q).skews = []
      ∧ Frame (regsIn (R.BLK_ERR.key (4 * q.val + i.val) :: linkKeys q)) [.links] s t)
  ∧ (∀ (s : State) (q : Fin 256) (i : Fin 4), s.lkUp q = true →
      7 ≤ ((s.lk q).skews.filter fun z => s.time.total < z + 1500000).length → s.lkNeg q ≠ 0 → s.lkNeg q ≠ 6 →
      Gives (.skewRetrain ⟨q, [i]⟩) s fun t =>
      t.rd R.BLK_ERR (4 * q.val + i.val) = satWord (s.rd R.BLK_ERR (4 * q.val + i.val)) 1
      ∧ t.lk q = { s.lk q with skews := [], later := some (.retrain, 0, cSkew) }
      ∧ Frame (regsIn [R.BLK_ERR.key (4 * q.val + i.val)]) [.links] s t)
  ∧ (∀ (s : State) (q : Fin 256) (i : Fin 4), s.lkUp q = true → s.lkNeg q = 0 → (s.lk q).skews = [] →
      Gives (.skewRetrain ⟨q, List.replicate 8 i⟩) s fun t =>
      t.rd R.BLK_ERR (4 * q.val + i.val) = satWord (s.rd R.BLK_ERR (4 * q.val + i.val)) 8 ∧ t.lkNeg q = 1
      ∧ (t.lk q).kind = .retrain ∧ Frame (regsIn (R.BLK_ERR.key (4 * q.val + i.val) :: linkKeys q)) [.links] s t)
  ∧ (∀ (s : State) (q : Fin 256) (x : List (Fin 4)), s.lkUp q = false → Gives (.skewRetrain ⟨q, x⟩) s fun t =>
      Frame noRegs [] s t)

/-- A request that may be accepted is answered ACK and its end is agreed: a narrower width and a sleep commit at once, a
wider one brings up its lanes first, a retrain enters LOCK; another is answered NAK. With this end's own request open,
its leader goes on and the other end abandons its own for later. ACK with the token makes the requester agreed; NAK,
ABORT and the lapse close; COMMIT with this end's own ends the negotiation, and is else noted. Utilisation and idleness
open requests; a wake leads from SLEEP over WAKE to ACTIVE without LINK_UP; a wake event during a sleep negotiation
aborts it. With the premises not met nothing happens. Where the rules leave a choice its clauses rest on the model's, log
entries 3, 66, 268 and 270. -/
def Obligations.LinkNegotiations : Prop :=
  (∀ (s : State) (q : Fin 256) (x : BitVec 2) (k : BitVec 8), s.lkUp q = true → s.lkNeg q = 0 ∨ s.lkNeg q = 6 →
      s.lkSched q = false → s.rdb R.LINK_CFG q 4 = true → s.lkWidth q < x.toNat → Gives (.negWidthReq q x k) s fun t =>
      t.lkNeg q = 3 ∧ (t.lk q).kind = .width ∧ (t.lk q).target = x.toNat ∧ (t.lk q).token = k.toNat ∧ (t.lk q).mine = false
      ∧ (t.lk q).lanesReady = false ∧ t.lkWidth q = s.lkWidth q
      ∧ .control q blkNeg (word (at_ 38 3 + at_ 36 x.toNat + at_ 28 k.toNat)) ∈ t.sent
      ∧ Frame (regsIn (linkKeys q)) [.links] s t)
  ∧ (∀ (s : State) (q : Fin 256) (x : BitVec 2) (k : BitVec 8), s.lkUp q = true → s.lkNeg q = 0 ∨ s.lkNeg q = 6 →
      s.lkSched q = false → s.rdb R.LINK_CFG q 4 = true → x.toNat ≤ s.lkWidth q → s.utilLow q = true →
      Gives (.negWidthReq q x k) s fun t => t.lkNeg q = 4 ∧ (t.lk q).kind = .width ∧ (t.lk q).target = x.toNat
      ∧ (t.lk q).token = k.toNat ∧ (t.lk q).mine = false ∧ t.lkWidth q = s.lkWidth q
      ∧ .control q blkNeg (word (at_ 38 3 + at_ 36 x.toNat + at_ 28 k.toNat)) ∈ t.sent
      ∧ .control q blkNeg (word (at_ 38 5 + at_ 36 x.toNat + at_ 28 k.toNat)) ∈ t.sent
      ∧ Frame (regsIn (linkKeys q)) [.links] s t)
  ∧ (∀ (s : State) (q : Fin 256) (x : BitVec 2) (k : BitVec 8), s.lkUp q = true → s.lkNeg q = 0 ∨ s.lkNeg q = 6 →
      s.lkSched q = true ∨ s.rdb R.LINK_CFG q 4 = false ∨ (x.toNat ≤ s.lkWidth q ∧ s.utilLow q = false) →
      (s.lk q).later = none → Gives (.negWidthReq q x k) s fun t => t.lkNeg q = 0 ∧ t.lkWidth q = s.lkWidth q
      ∧ .control q blkNeg (word (at_ 38 4 + at_ 36 x.toNat + at_ 28 k.toNat)) ∈ t.sent
      ∧ Frame (regsIn (linkKeys q)) [.links] s t)
  ∧ (∀ (s : State) (q : Fin 256) (x : BitVec 2) (k : BitVec 8), s.lkUp q = true → s.lkNeg q = 1 → s.leads q = false →
      s.lkSched q = false → s.rdb R.LINK_CFG q 4 = true → s.lkWidth q < x.toNat → Gives (.negWidthReq q x k) s fun t =>
      t.lkNeg q = 3 ∧ (t.lk q).mine = false ∧ (t.lk q).token = k.toNat
      ∧ (t.lk q).later = some ((s.lk q).kind, (s.lk q).target, (s.lk q).cause)
      ∧ .control q blkNeg (word (at_ 38 3 + at_ 36 x.toNat + at_ 28 k.toNat)) ∈ t.sent
      ∧ Frame (regsIn (linkKeys q)) [.links] s t)
  ∧ (∀ (s : State) (q : Fin 256) (x : BitVec 2) (k : BitVec 8),
      s.lkUp q = false ∨ (s.lkNeg q = 1 ∧ s.leads q = true) ∨ (s.lkNeg q ≠ 0 ∧ s.lkNeg q ≠ 1 ∧ s.lkNeg q ≠ 6) →
      Gives (.negWidthReq q x k) s fun t => Frame noRegs [] s t)
  ∧ (∀ (s : State) (q : Fin 256) (k : BitVec 8),
      s.lkUp q = false ∨ (s.lkNeg q = 1 ∧ s.leads q = true) ∨ (s.lkNeg q ≠ 0 ∧ s.lkNeg q ≠ 1 ∧ s.lkNeg q ≠ 6) →
      Gives (.negSleepReq q k) s fun t => Frame noRegs [] s t)
  ∧ (∀ (s : State) (q : Fin 256) (k : BitVec 8),
      s.lkUp q = false ∨ (s.lkNeg q = 1 ∧ s.leads q = true) ∨ (s.lkNeg q ≠ 0 ∧ s.lkNeg q ≠ 1 ∧ s.lkNeg q ≠ 6) →
      Gives (.negRetrainReq q k) s fun t => Frame noRegs [] s t)
  ∧ (∀ (s : State) (q : Fin 256) (k : BitVec 8), s.lkUp q = true → s.lkNeg q = 0 ∨ s.lkNeg q = 6 → s.lkSched q = false →
      (s.lk q).replay = [] → (s.lk q).txq = [] → s.rdb R.LINK_CFG q 5 = true → Gives (.negSleepReq q k) s fun t =>
      t.lkNeg q = 4 ∧ (t.lk q).kind = .sleep ∧ (t.lk q).token = k.toNat ∧ t.lkUp q = true
      ∧ .control q blkNeg (word (at_ 38 3 + at_ 28 k.toNat)) ∈ t.sent
      ∧ .control q blkNeg (word (at_ 38 5 + at_ 28 k.toNat)) ∈ t.sent ∧ Frame (regsIn (linkKeys q)) [.links] s t)
  ∧ (∀ (s : State) (q : Fin 256) (k : BitVec 8), s.lkUp q = true → s.lkNeg q = 0 ∨ s.lkNeg q = 6 →
      s.lkSched q = true ∨ (s.lk q).replay ≠ [] ∨ (s.lk q).txq ≠ [] ∨ s.rdb R.LINK_CFG q 5 = false → (s.lk q).later = none →
      Gives (.negSleepReq q k) s fun t => t.lkNeg q = 0 ∧ t.lkUp q = true
      ∧ .control q blkNeg (word (at_ 38 4 + at_ 28 k.toNat)) ∈ t.sent ∧ Frame (regsIn (linkKeys q)) [.links] s t)
  ∧ (∀ (s : State) (q : Fin 256) (k : BitVec 8), s.lkUp q = true → s.lkNeg q = 1 → s.leads q = false → s.lkSched q = false →
      (s.lk q).replay = [] → (s.lk q).txq = [] → s.rdb R.LINK_CFG q 5 = true → Gives (.negSleepReq q k) s fun t =>
      t.lkNeg q = 4 ∧ (t.lk q).kind = .sleep ∧ (t.lk q).mine = false
      ∧ (t.lk q).later = some ((s.lk q).kind, (s.lk q).target, (s.lk q).cause) ∧ Frame (regsIn (linkKeys q)) [.links] s t)
  ∧ (∀ (s : State) (q : Fin 256) (k : BitVec 8), s.lkUp q = true →
      s.lkNeg q = 0 ∨ s.lkNeg q = 6 ∨ (s.lkNeg q = 1 ∧ s.leads q = false) → s.rdf R.LINK_CFG q 1 0 ≤ 2 →
      Gives (.negRetrainReq q k) s fun t => t.lkState q = lkLock ∧ t.lkNeg q = 0 ∧ t.rdf R.LINK_STAT q 47 40 = cPeer
      ∧ (s.lkNeg q = 1 → (t.lk q).later = some ((s.lk q).kind, (s.lk q).target, (s.lk q).cause))
      ∧ .control q blkNeg (word (at_ 38 3 + at_ 28 k.toNat)) ∈ t.sent ∧ bit (t.hdr (brinePage q) hEvt) 4 = true
      ∧ Frame (regsIn (linkKeys q ++ reportKeys)) [.links, .bitt] s t)
  ∧ (∀ (s : State) (q : Fin 256) (k : BitVec 8), s.lkUp q = true → s.lkNeg q = 1 → (s.lk q).token = k.toNat →
      (s.lk q).kind = .sleep ∨ ((s.lk q).kind = .width ∧ ((s.lk q).target ≤ s.lkWidth q ∨ (s.lk q).lanesReady = true)) →
      (s.lk q).peerCommit = false → Gives (.negAck q k) s fun t => t.lkNeg q = 4 ∧ t.lkUp q = true
      ∧ t.lkWidth q = s.lkWidth q ∧ .control q blkNeg (word (at_ 38 5 + at_ 36 (s.lk q).target + at_ 28 k.toNat)) ∈ t.sent
      ∧ Frame (regsIn [R.LINK_STAT.key q]) [.links] s t)
  ∧ (∀ (s : State) (q : Fin 256) (k : BitVec 8), s.lkUp q = true → s.lkNeg q = 1 → (s.lk q).token = k.toNat →
      (s.lk q).kind = .width → s.lkWidth q < (s.lk q).target → (s.lk q).lanesReady = false → Gives (.negAck q k) s fun t =>
      t.lkNeg q = 3 ∧ t.lkWidth q = s.lkWidth q ∧ Frame (regsIn [R.LINK_STAT.key q]) [] s t)
  ∧ (∀ (s : State) (q : Fin 256) (k : BitVec 8), s.lkUp q = true → s.lkNeg q = 1 → (s.lk q).token = k.toNat →
      (s.lk q).kind = .retrain → s.rdf R.LINK_CFG q 1 0 ≤ 2 → Gives (.negAck q k) s fun t => t.lkState q = lkLock
      ∧ t.lkNeg q = 0 ∧ ((s.lk q).cause ≠ 0 → t.rdf R.LINK_STAT q 47 40 = (s.lk q).cause % 256)
      ∧ bit (t.hdr (brinePage q) hEvt) 4 = true ∧ Frame (regsIn (linkKeys q ++ reportKeys)) [.links, .bitt] s t)
  ∧ (∀ (s : State) (q : Fin 256) (k : BitVec 8), s.lkUp q = false ∨ s.lkNeg q ≠ 1 ∨ (s.lk q).token ≠ k.toNat →
      Gives (.negAck q k) s fun t => Frame noRegs [] s t)
  ∧ (∀ (s : State) (q : Fin 256) (k : BitVec 8), s.lkUp q = true → s.lkNeg q = 1 → (s.lk q).token = k.toNat →
      (s.lk q).later = none → Gives (.negNak q k) s fun t => t.lkNeg q = 0 ∧ t.rdb R.LINK_STAT q 30 = false ∧ t.lkUp q = true
      ∧ t.lkWidth q = s.lkWidth q ∧ Frame (regsIn [R.LINK_STAT.key q]) [] s t)
  ∧ (∀ (s : State) (q : Fin 256) (k : BitVec 8), s.lkUp q = false ∨ s.lkNeg q ≠ 1 ∨ (s.lk q).token ≠ k.toNat →
      Gives (.negNak q k) s fun t => Frame noRegs [] s t)
  ∧ (∀ (s : State) (q : Fin 256), s.lkUp q = true → s.lkNeg q = 4 → (s.lk q).kind = .width → (s.lk q).target ≤ 2 →
      (s.lk q).later = none → Gives (.negCommit q) s fun t => t.lkWidth q = (s.lk q).target ∧ t.lkNeg q = 0 ∧ t.lkUp q = true
      ∧ t.rdf R.NEG_COUNT q 15 0 = min (s.rdf R.NEG_COUNT q 15 0 + 1) 65535 ∧ bit (t.hdr (brinePage q) hEvt) 4 = true
      ∧ Frame (regsIn (linkKeys q)) [.links] s t)
  ∧ (∀ (s : State) (q : Fin 256), s.lkUp q = true → s.lkNeg q = 4 → (s.lk q).kind = .sleep → Gives (.negCommit q) s fun t =>
      t.lkState q = lkSleep ∧ t.lkNeg q = 0 ∧ t.rdf R.NEG_COUNT q 47 32 = min (s.rdf R.NEG_COUNT q 47 32 + 1) 65535
      ∧ bit (t.hdr (brinePage q) hEvt) 4 = true ∧ Frame (regsIn (linkKeys q)) [.links] s t)
  ∧ (∀ (s : State) (q : Fin 256), s.lkUp q = true → s.lkNeg q = 3 → Gives (.negCommit q) s fun t =>
      t.lk q = { s.lk q with peerCommit := true } ∧ Frame noRegs [.links] s t)
  ∧ (∀ (s : State) (q : Fin 256), s.lkUp q = false ∨ (s.lkNeg q ≠ 3 ∧ s.lkNeg q ≠ 4) → Gives (.negCommit q) s fun t =>
      Frame noRegs [] s t)
  ∧ (∀ (s : State) (q : Fin 256), s.lkUp q = true → s.lkNeg q ≠ 0 → (s.lk q).later = none → Gives (.negAbort q) s fun t =>
      t.lkNeg q = 0 ∧ t.rdb R.LINK_STAT q 30 = false ∧ t.lkUp q = true ∧ t.lkWidth q = s.lkWidth q
      ∧ Frame (regsIn [R.LINK_STAT.key q]) [] s t)
  ∧ (∀ (s : State) (q : Fin 256) (n : Nat), s.lkUp q = true → s.lkNeg q ≠ 0 → (s.lk q).later = some (.retrain, 0, n) →
      Gives (.negAbort q) s fun t => t.lkNeg q = 1 ∧ (t.lk q).kind = .retrain ∧ (t.lk q).cause = n ∧ (t.lk q).later = none
      ∧ Frame (regsIn [R.LINK_STAT.key q]) [.links] s t)
  ∧ (∀ (s : State) (q : Fin 256), s.lkUp q = false ∨ s.lkNeg q = 0 → Gives (.negAbort q) s fun t => Frame noRegs [] s t)
  ∧ (∀ (s : State) (q : Fin 256), s.lkUp q = true → s.lkNeg q = 1 ∨ s.lkNeg q = 6 → (s.lk q).later = none →
      Gives (.negRequestLapse q) s fun t => t.lkNeg q = 0 ∧ t.rdb R.LINK_STAT q 30 = false ∧ t.lkUp q = true
      ∧ t.lkWidth q = s.lkWidth q ∧ Frame (regsIn [R.LINK_STAT.key q]) [] s t)
  ∧ (∀ (s : State) (q : Fin 256) (n : Nat), s.lkUp q = true → s.lkNeg q = 1 ∨ s.lkNeg q = 6 →
      (s.lk q).later = some (.retrain, 0, n) → Gives (.negRequestLapse q) s fun t => t.lkNeg q = 1 ∧ (t.lk q).kind = .retrain
      ∧ (t.lk q).cause = n ∧ (t.lk q).later = none ∧ Frame (regsIn [R.LINK_STAT.key q]) [.links] s t)
  ∧ (∀ (s : State) (q : Fin 256), s.lkUp q = false ∨ (s.lkNeg q ≠ 1 ∧ s.lkNeg q ≠ 6) → Gives (.negRequestLapse q) s fun t =>
      Frame noRegs [] s t)
  ∧ (∀ (s : State) (q : Fin 256), s.lkUp q = true → s.lkNeg q = 0 → s.lkSched q = false → s.rdb R.LINK_CFG q 4 = true →
      0 < s.lkWidth q → Gives (.lowUtilTimer q) s fun t => t.lkNeg q = 1 ∧ (t.lk q).kind = .width
      ∧ (t.lk q).target = s.lkWidth q - 1 ∧ (t.lk q).token = (s.lk q).nextToken ∧ (t.lk q).mine = true
      ∧ t.rdb R.LINK_STAT q 30 = true
      ∧ .control q blkNeg (word (at_ 38 0 + at_ 36 (s.lkWidth q - 1) + at_ 28 (s.lk q).nextToken)) ∈ t.sent
      ∧ Frame (regsIn [R.LINK_STAT.key q]) [.links] s t)
  ∧ (∀ (s : State) (q : Fin 256),
      s.lkUp q = false ∨ s.lkNeg q ≠ 0 ∨ s.lkSched q = true ∨ s.rdb R.LINK_CFG q 4 = false ∨ s.lkWidth q = 0 →
      Gives (.lowUtilTimer q) s fun t => Frame noRegs [] s t)
  ∧ (∀ (s : State) (q : Fin 256), s.lkUp q = true → s.lkNeg q = 0 → s.lkSched q = false → s.rdb R.LINK_CFG q 4 = true →
      s.lkWidth q < (s.lk q).agreed → Gives (.highUtilTrigger q) s fun t => t.lkNeg q = 1 ∧ (t.lk q).kind = .width
      ∧ (t.lk q).target = s.lkWidth q + 1 ∧ (t.lk q).token = (s.lk q).nextToken ∧ (t.lk q).mine = true
      ∧ t.rdb R.LINK_STAT q 30 = true
      ∧ .control q blkNeg (word (at_ 38 0 + at_ 36 (s.lkWidth q + 1) + at_ 28 (s.lk q).nextToken)) ∈ t.sent
      ∧ Frame (regsIn [R.LINK_STAT.key q]) [.links] s t)
  ∧ (∀ (s : State) (q : Fin 256),
      s.lkUp q = false ∨ s.lkNeg q ≠ 0 ∨ s.lkSched q = true ∨ s.rdb R.LINK_CFG q 4 = false ∨ (s.lk q).agreed ≤ s.lkWidth q →
      Gives (.highUtilTrigger q) s fun t => Frame noRegs [] s t)
  ∧ (∀ (s : State) (q : Fin 256), s.lkUp q = true → s.lkNeg q = 0 → s.lkSched q = false → s.rdb R.LINK_CFG q 5 = true →
      Gives (.sleepIdleTimer q) s fun t => t.lkNeg q = 1 ∧ (t.lk q).kind = .sleep ∧ (t.lk q).target = 0
      ∧ (t.lk q).token = (s.lk q).nextToken ∧ (t.lk q).mine = true ∧ t.rdb R.LINK_STAT q 30 = true
      ∧ .control q blkNeg (word (at_ 38 1 + at_ 36 (0) + at_ 28 (s.lk q).nextToken)) ∈ t.sent
      ∧ Frame (regsIn [R.LINK_STAT.key q]) [.links] s t)
  ∧ (∀ (s : State) (q : Fin 256), s.lkUp q = false ∨ s.lkNeg q ≠ 0 ∨ s.lkSched q = true ∨ s.rdb R.LINK_CFG q 5 = false →
      Gives (.sleepIdleTimer q) s fun t => Frame noRegs [] s t)
  ∧ (∀ (s : State) (q : Fin 256), s.lkState q = lkSleep → s.rdf R.LINK_CFG q 1 0 ≤ 2 → Gives (.wakeEvent q) s fun t =>
      t.lkState q = lkWake ∧ .laneEvent (4 * q.val) 1 0 ∈ t.sent ∧ Frame (regsIn (linkKeys q)) [.links] s t)
  ∧ (∀ (s : State) (q : Fin 256), s.lkUp q = true → (s.lk q).kind = .sleep → s.lkNeg q = 3 ∨ s.lkNeg q = 4 →
      Gives (.wakeEvent q) s fun t => t.lkNeg q = 6 ∧ .control q blkNeg (word (at_ 38 6 + at_ 28 (s.lk q).token)) ∈ t.sent
      ∧ t.rdf R.NEG_COUNT q 31 16 = min (s.rdf R.NEG_COUNT q 31 16 + 1) 65535
      ∧ Frame (regsIn [R.LINK_STAT.key q, R.NEG_COUNT.key q]) [.links] s t)
  ∧ (∀ (s : State) (q : Fin 256), s.lkUp q = true → (s.lk q).kind = .sleep → s.lkNeg q = 1 → (s.lk q).later = none →
      Gives (.wakeEvent q) s fun t => t.lkNeg q = 0 ∧ t.lkUp q = true
      ∧ .control q blkNeg (word (at_ 38 6 + at_ 28 (s.lk q).token)) ∈ t.sent
      ∧ t.rdf R.NEG_COUNT q 31 16 = min (s.rdf R.NEG_COUNT q 31 16 + 1) 65535
      ∧ Frame (regsIn [R.LINK_STAT.key q, R.NEG_COUNT.key q]) [.links] s t)
  ∧ (∀ (s : State) (q : Fin 256), s.lkState q ≠ lkSleep → s.lkUp q = false ∨ (s.lk q).kind ≠ .sleep ∨ s.lkNeg q = 0 →
      Gives (.wakeEvent q) s fun t => Frame noRegs [] s t)
  ∧ (∀ (s : State) (q : Fin 256), s.lkState q = lkSleep → s.rdf R.LINK_CFG q 1 0 ≤ 2 → Gives (.wakeBurstDetect q) s fun t =>
      t.lkState q = lkWake ∧ Frame (regsIn (linkKeys q)) [.links] s t)
  ∧ (∀ (s : State) (q : Fin 256), s.lkState q ≠ lkSleep → Gives (.wakeBurstDetect q) s fun t => Frame noRegs [] s t)
  ∧ (∀ (s : State) (q : Fin 256), s.lkUp q = true → s.lkNeg q = 6 → s.rdf R.LINK_CFG q 1 0 ≤ 2 →
      Gives (.peerIdleDetect q) s fun t => t.lkState q = lkWake ∧ t.lkNeg q = 0 ∧ t.rdb R.LINK_STAT q 30 = false
      ∧ .laneEvent (4 * q.val) 1 0 ∈ t.sent ∧ Frame (regsIn (linkKeys q)) [.links] s t)
  ∧ (∀ (s : State) (q : Fin 256), s.lkUp q = false ∨ s.lkNeg q ≠ 6 → Gives (.peerIdleDetect q) s fun t =>
      Frame noRegs [] s t)
  ∧ (∀ (s : State) (q : Fin 256) (us : BitVec 32), s.lkState q = lkWake →
      (if s.lkSched q then (s.lk q).agreed else s.lkWidth q) ≤ 2 → (s.lk q).later = none →
      (quadLanes q (lanesOf (if s.lkSched q then (s.lk q).agreed else s.lkWidth q))).any s.prbsOn = false →
      Gives (.linkWakeDone q us) s fun t => t.lkUp q = true
      ∧ t.lkWidth q = (if s.lkSched q then (s.lk q).agreed else s.lkWidth q) ∧ t.rd R.TRAIN_TIME q = word us.toNat
      ∧ t.hdr (brinePage q) hEvt = s.hdr (brinePage q) hEvt ∧ Frame (regsIn (R.TRAIN_TIME.key q :: linkKeys q)) [.links] s t)
  ∧ (∀ (s : State) (q : Fin 256) (us : BitVec 32), s.lkState q ≠ lkWake → Gives (.linkWakeDone q us) s fun t =>
      Frame noRegs [] s t)
  ∧ (∀ (s : State) (q : Fin 256), s.lkUp q = true → s.lkNeg q = 3 → (s.lk q).kind = .width → (s.lk q).peerCommit = false →
      Gives (.widthIncreaseLanesReady q) s fun t => t.lkNeg q = 4 ∧ (t.lk q).lanesReady = true
      ∧ .control q blkNeg (word (at_ 38 5 + at_ 36 (s.lk q).target + at_ 28 (s.lk q).token)) ∈ t.sent
      ∧ Frame (regsIn [R.LINK_STAT.key q]) [.links] s t)
  ∧ (∀ (s : State) (q : Fin 256), s.lkUp q = true → s.lkNeg q = 3 → (s.lk q).kind = .width → (s.lk q).peerCommit = true →
      (s.lk q).target ≤ 2 → (s.lk q).later = none → Gives (.widthIncreaseLanesReady q) s fun t => t.lkNeg q = 0
      ∧ t.lkWidth q = (s.lk q).target ∧ t.rdf R.NEG_COUNT q 15 0 = min (s.rdf R.NEG_COUNT q 15 0 + 1) 65535
      ∧ Frame (regsIn (linkKeys q)) [.links] s t)
  ∧ (∀ (s : State) (q : Fin 256), s.lkUp q = false ∨ s.lkNeg q ≠ 3 ∨ (s.lk q).kind ≠ .width →
      Gives (.widthIncreaseLanesReady q) s fun t => Frame noRegs [] s t)

/-- LINK_CMD requests a retrain, or leaves FAULT for DETECT, requests a sleep or the next width where its enable allows, or
wakes the link; with a negotiation open the request is noted for later. LANE_CMD slips a bit, injects a burst or unlocks
the checker; PRBS_CTRL and QUAD_MODE take effect. Received bits drive an enabled checker: a matching run of 64 locks it,
each mismatch of a locked one counts, and 16 in 64 drop its lock. The equaliser moves one step, at most once in 1 ms, and
not where it is off, fixed or best where it is; its limit sets the event. Where the rules leave a choice its clauses rest
on the model's, log entries 3, 65, 66, 67, 267 and 270. -/
def Obligations.LinkAndLaneCommands : Prop :=
  (∀ (s : State) (a : Agent) (g : Fin 4) (n : Nat) (q : Nat), s.accepts a (0x50 + g.val) R.LINK_CMD.off 1 = true →
      s.bankOf a (0x50 + g.val) = n → n < 64 → q = 64 * g.val + n → s.lkUp q = true → s.lkNeg q = 0 ∨ s.lkNeg q = 6 →
      Gives (.linkCmdRetrain a g) s fun t => t.lkNeg q = 1 ∧ (t.lk q).kind = .retrain ∧ (t.lk q).cause = cCommand
      ∧ .control q blkNeg (word (at_ 38 2 + at_ 28 (s.lk q).nextToken)) ∈ t.sent
      ∧ Frame (regsIn [R.LINK_STAT.key q]) [.links] s t)
  ∧ (∀ (s : State) (a : Agent) (g : Fin 4) (n : Nat) (q : Nat), s.accepts a (0x50 + g.val) R.LINK_CMD.off 1 = true →
      s.bankOf a (0x50 + g.val) = n → n < 64 → q = 64 * g.val + n → s.lkUp q = true → s.lkNeg q ≠ 0 → s.lkNeg q ≠ 6 →
      Gives (.linkCmdRetrain a g) s fun t => t.lk q = { s.lk q with later := some (.retrain, 0, cCommand) }
      ∧ Frame noRegs [.links] s t)
  ∧ (∀ (s : State) (a : Agent) (g : Fin 4) (n : Nat) (q : Nat), s.accepts a (0x50 + g.val) R.LINK_CMD.off 1 = true →
      s.bankOf a (0x50 + g.val) = n → n < 64 → q = 64 * g.val + n → s.lkState q = lkFault → s.rdf R.LINK_CFG q 1 0 ≤ 2 →
      Gives (.linkCmdRetrain a g) s fun t => t.lkState q = lkDetect ∧ (t.lk q).session = ((s.lk q).session + 1) % 32768
      ∧ Frame (regsIn (linkKeys q)) [.links] s t)
  ∧ (∀ (s : State) (a : Agent) (g : Fin 4) (n : Nat) (q : Nat), s.accepts a (0x50 + g.val) R.LINK_CMD.off 1 = true →
      s.bankOf a (0x50 + g.val) = n → n < 64 → q = 64 * g.val + n → s.lkUp q = false → s.lkState q ≠ lkFault →
      Gives (.linkCmdRetrain a g) s fun t => Frame noRegs [] s t)
  ∧ (∀ (s : State) (a : Agent) (g : Fin 4) (n : Nat) (q : Nat), s.accepts a (0x50 + g.val) R.LINK_CMD.off 2 = true →
      s.bankOf a (0x50 + g.val) = n → n < 64 → q = 64 * g.val + n → s.rdb R.LINK_CFG q 5 = true →
      s.lkNeg q = 0 ∨ s.lkNeg q = 6 → Gives (.linkCmdSleep a g) s fun t => t.lkNeg q = 1 ∧ (t.lk q).kind = .sleep
      ∧ .control q blkNeg (word (at_ 38 1 + at_ 28 (s.lk q).nextToken)) ∈ t.sent
      ∧ Frame (regsIn [R.LINK_STAT.key q]) [.links] s t)
  ∧ (∀ (s : State) (a : Agent) (g : Fin 4) (n : Nat) (q : Nat), s.accepts a (0x50 + g.val) R.LINK_CMD.off 2 = true →
      s.bankOf a (0x50 + g.val) = n → n < 64 → q = 64 * g.val + n → s.rdb R.LINK_CFG q 5 = true → s.lkNeg q ≠ 0 →
      s.lkNeg q ≠ 6 → Gives (.linkCmdSleep a g) s fun t => t.lk q = { s.lk q with later := some (.sleep, 0, 0) }
      ∧ Frame noRegs [.links] s t)
  ∧ (∀ (s : State) (a : Agent) (g : Fin 4) (n : Nat) (q : Nat), s.accepts a (0x50 + g.val) R.LINK_CMD.off 2 = true →
      s.bankOf a (0x50 + g.val) = n → n < 64 → q = 64 * g.val + n → s.rdb R.LINK_CFG q 5 = false →
      Gives (.linkCmdSleep a g) s fun t => Frame noRegs [] s t)
  ∧ (∀ (s : State) (a : Agent) (g : Fin 4) (n : Nat) (q : Nat), s.accepts a (0x50 + g.val) R.LINK_CMD.off 4 = true →
      s.bankOf a (0x50 + g.val) = n → n < 64 → q = 64 * g.val + n → s.lkState q = lkSleep → s.rdf R.LINK_CFG q 1 0 ≤ 2 →
      Gives (.linkCmdWake a g) s fun t => t.lkState q = lkWake ∧ .laneEvent (4 * q) 1 0 ∈ t.sent
      ∧ Frame (regsIn (linkKeys q)) [.links] s t)
  ∧ (∀ (s : State) (a : Agent) (g : Fin 4) (n : Nat) (q : Nat), s.accepts a (0x50 + g.val) R.LINK_CMD.off 8 = true →
      s.bankOf a (0x50 + g.val) = n → n < 64 → q = 64 * g.val + n → s.rdb R.LINK_CFG q 4 = true →
      s.lkWidth q < (s.lk q).agreed → s.lkNeg q = 0 ∨ s.lkNeg q = 6 → Gives (.linkCmdWidthUp a g) s fun t => t.lkNeg q = 1
      ∧ (t.lk q).kind = .width ∧ (t.lk q).target = s.lkWidth q + 1
      ∧ .control q blkNeg (word (at_ 36 (s.lkWidth q + 1) + at_ 28 (s.lk q).nextToken)) ∈ t.sent
      ∧ Frame (regsIn [R.LINK_STAT.key q]) [.links] s t)
  ∧ (∀ (s : State) (a : Agent) (g : Fin 4) (n : Nat) (q : Nat), s.accepts a (0x50 + g.val) R.LINK_CMD.off 8 = true →
      s.bankOf a (0x50 + g.val) = n → n < 64 → q = 64 * g.val + n → s.rdb R.LINK_CFG q 4 = true →
      s.lkWidth q < (s.lk q).agreed → s.lkNeg q ≠ 0 → s.lkNeg q ≠ 6 → Gives (.linkCmdWidthUp a g) s fun t =>
      t.lk q = { s.lk q with later := some (.width, s.lkWidth q + 1, 0) } ∧ Frame noRegs [.links] s t)
  ∧ (∀ (s : State) (a : Agent) (g : Fin 4) (n : Nat) (q : Nat), s.accepts a (0x50 + g.val) R.LINK_CMD.off 8 = true →
      s.bankOf a (0x50 + g.val) = n → n < 64 → q = 64 * g.val + n →
      s.rdb R.LINK_CFG q 4 = false ∨ (s.lk q).agreed ≤ s.lkWidth q → Gives (.linkCmdWidthUp a g) s fun t =>
      Frame noRegs [] s t)
  ∧ (∀ (s : State) (a : Agent) (g : Fin 8) (n : Nat) (i : Nat), s.accepts a (0x48 + g.val) R.LANE_CMD.off 1 = true →
      s.bankOf a (0x48 + g.val) = n → n < 128 → i = 128 * g.val + n → Gives (.laneCmdBitSlip a g) s fun t =>
      (t.lane i).slip = ((s.lane i).slip + 1) % 66 ∧ t.rdb R.LANE_STAT i 1 = false
      ∧ Frame (regsIn [R.LANE_STAT.key i]) [.links] s t)
  ∧ (∀ (s : State) (a : Agent) (g : Fin 8) (n : Nat) (i : Nat), s.accepts a (0x48 + g.val) R.LANE_CMD.off 2 = true →
      s.bankOf a (0x48 + g.val) = n → n < 128 → i = 128 * g.val + n → Gives (.laneCmdInjBurst a g) s fun t =>
      (t.lane i).inj = (s.lane i).inj + s.rdf R.LANE_INJ i 23 16 ∧ .laneEvent i 2 (s.rdf R.LANE_INJ i 23 16) ∈ t.sent
      ∧ Frame noRegs [.links] s t)
  ∧ (∀ (s : State) (a : Agent) (g : Fin 8) (n : Nat) (i : Nat), s.accepts a (0x48 + g.val) R.LANE_CMD.off 4 = true →
      s.bankOf a (0x48 + g.val) = n → n < 128 → i = 128 * g.val + n → Gives (.laneCmdPrbsResync a g) s fun t =>
      t.rdb R.LANE_STAT i 3 = false ∧ (t.lane i).prbsAt = none ∧ (t.lane i).chkGot = 0
      ∧ t.rd R.PRBS_BITS i = satWord (s.rd R.PRBS_BITS i) (s.prbsNew i)
      ∧ Frame (regsIn [R.LANE_STAT.key i, R.PRBS_BITS.key i]) [.links] s t)
  ∧ (∀ (s : State) (a : Agent) (g : Fin 8) (v : Word) (n : Nat) (i : Nat),
      s.accepts a (0x48 + g.val) R.PRBS_CTRL.off v = true → s.bankOf a (0x48 + g.val) = n → n < 128 → i = 128 * g.val + n →
      s.portsOff = true → s.lkUp (i / 4) = true → bit v 1 = true → i % 4 < lanesOf (s.lkWidth (i / 4)) →
      Gives (.prbsCtrlWrite a g v) s fun t => t.rd R.PRBS_CTRL i = v ∧ t.lkState (i / 4) = lkPrbs
      ∧ bit (t.hdr (brinePage (i / 4)) hEvt) 1 = true
      ∧ Frame (regsIn (R.PRBS_CTRL.key i :: R.PRBS_BITS.key i :: linkKeys (i / 4))) [.links, .free] s t)
  ∧ (∀ (s : State) (a : Agent) (g : Fin 8) (v : Word) (n : Nat) (i : Nat),
      s.accepts a (0x48 + g.val) R.PRBS_CTRL.off v = true → s.bankOf a (0x48 + g.val) = n → n < 128 → i = 128 * g.val + n →
      s.portsOff = true → s.lkUp (i / 4) = false → s.lkState (i / 4) ≠ lkPrbs → Gives (.prbsCtrlWrite a g v) s fun t =>
      t.rd R.PRBS_CTRL i = v ∧ t.lkState (i / 4) = s.lkState (i / 4)
      ∧ Frame (regsIn [R.PRBS_CTRL.key i, R.PRBS_BITS.key i, R.LANE_STAT.key i]) [.links, .free] s t)
  ∧ (∀ (s : State) (a : Agent) (g : Fin 4) (v : Word) (n : Nat) (q : Nat),
      s.accepts a (0x50 + g.val) R.QUAD_MODE.off v = true → s.bankOf a (0x50 + g.val) = n → n < 64 → q = 64 * g.val + n →
      s.portsOff = true → v ≠ s.rd R.QUAD_MODE q → fld v 1 0 = 1 → s.enabled (0x50 + g.val) = true →
      s.lkState q = lkDisabled → s.rdf R.LINK_CFG q 1 0 ≤ 2 → Gives (.quadModeWrite a g v) s fun t => t.rd R.QUAD_MODE q = v
      ∧ t.lkState q = lkDetect ∧ (t.lk q).session = ((s.lk q).session + 1) % 32768
      ∧ Frame (regsIn (R.QUAD_MODE.key q :: linkKeys q ++ (quadLanes q 4).map fun i => R.PRBS_BITS.key i)) [.links] s t)
  ∧ (∀ (s : State) (a : Agent) (g : Fin 4) (v : Word) (n : Nat) (q : Nat),
      s.accepts a (0x50 + g.val) R.QUAD_MODE.off v = true → s.bankOf a (0x50 + g.val) = n → n < 64 → q = 64 * g.val + n →
      s.portsOff = true → v ≠ s.rd R.QUAD_MODE q → fld v 1 0 ≠ 1 ∨ s.enabled (0x50 + g.val) = false →
      s.rdf R.LINK_CFG q 1 0 ≤ 2 → Gives (.quadModeWrite a g v) s fun t => t.rd R.QUAD_MODE q = v ∧ t.lkState q = lkDisabled
      ∧ (fld v 1 0 = 0 → (quadLanes q 4).all (fun l => t.rdb R.LANE_STAT l 4) = true)
      ∧ Frame (regsIn (R.QUAD_MODE.key q :: linkKeys q ++ reportKeys ++ (quadLanes q 4).map fun i => R.PRBS_BITS.key i)) [.links, .bitt] s t)
  ∧ (∀ (s : State) (i : Fin 1024) (x : Bool), s.rdb R.PRBS_CTRL i 9 = true → s.rdb R.LANE_STAT i 3 = false →
      (prbsTaps (s.rdf R.PRBS_CTRL i 11 10)).1 ≤ (s.lane i).chkGot →
      prbsNext (s.rdf R.PRBS_CTRL i 11 10) (s.lane i).chk = b2n x → (s.lane i).chkRun = 63 →
      Gives (.prbsLock ⟨i, [x]⟩) s fun t => t.rdb R.LANE_STAT i 3 = true ∧ (t.lane i).prbsAt = some s.time.total
      ∧ Frame (regsIn [R.LANE_STAT.key i, R.PRBS_BITS.key i]) [.links] s t)
  ∧ (∀ (s : State) (i : Fin 1024) (x : Bool), s.rdb R.PRBS_CTRL i 9 = true → s.rdb R.LANE_STAT i 3 = false →
      ¬ ((prbsTaps (s.rdf R.PRBS_CTRL i 11 10)).1 ≤ (s.lane i).chkGot ∧ prbsNext (s.rdf R.PRBS_CTRL i 11 10) (s.lane i).chk = b2n x ∧ (s.lane i).chkRun = 63) →
      Gives (.prbsLock ⟨i, [x]⟩) s fun t => t.rdb R.LANE_STAT i 3 = false ∧ (t.lane i).chkGot = (s.lane i).chkGot + 1
      ∧ (t.lane i).chkRun = (if (prbsTaps (s.rdf R.PRBS_CTRL i 11 10)).1 ≤ (s.lane i).chkGot ∧ prbsNext (s.rdf R.PRBS_CTRL i 11 10) (s.lane i).chk = b2n x then (s.lane i).chkRun + 1 else 0)
      ∧ Frame noRegs [.links] s t)
  ∧ (∀ (s : State) (i : Fin 1024) (x : List Bool), s.rdb R.PRBS_CTRL i 9 = false ∨ x = [] →
      Gives (.prbsLock ⟨i, x⟩) s fun t => Frame noRegs [] s t)
  ∧ (∀ (s : State) (i : Fin 1024) (x : Bool), s.rdb R.PRBS_CTRL i 9 = true → s.rdb R.LANE_STAT i 3 = true →
      16 ≤ (((decide (prbsNext (s.rdf R.PRBS_CTRL i 11 10) (s.lane i).chk = b2n x) :: (s.lane i).chkHits).take 64).filter fun b => !b).length →
      Gives (.prbsLockLost ⟨i, [x]⟩) s fun t => t.rdb R.LANE_STAT i 3 = false
      ∧ t.rd R.PRBS_RESYNC i = satWord (s.rd R.PRBS_RESYNC i) 1
      ∧ t.rd R.PRBS_ERR i = satWord (s.rd R.PRBS_ERR i) (b2n (decide (prbsNext (s.rdf R.PRBS_CTRL i 11 10) (s.lane i).chk ≠ b2n x)))
      ∧ bit (t.hdr (lanePage i) hEvt) 1 = true
      ∧ Frame (regsIn [R.LANE_STAT.key i, R.PRBS_BITS.key i, R.PRBS_RESYNC.key i, R.PRBS_ERR.key i, regKey 0 (lanePage i) 0 hEvt]) [.links] s t)
  ∧ (∀ (s : State) (i : Fin 1024) (x : Bool), s.rdb R.PRBS_CTRL i 9 = true → s.rdb R.LANE_STAT i 3 = true →
      (((decide (prbsNext (s.rdf R.PRBS_CTRL i 11 10) (s.lane i).chk = b2n x) :: (s.lane i).chkHits).take 64).filter fun b => !b).length < 16 →
      Gives (.prbsLockLost ⟨i, [x]⟩) s fun t => t.rdb R.LANE_STAT i 3 = true
      ∧ t.rd R.PRBS_ERR i = satWord (s.rd R.PRBS_ERR i) (b2n (decide (prbsNext (s.rdf R.PRBS_CTRL i 11 10) (s.lane i).chk ≠ b2n x)))
      ∧ t.rd R.PRBS_RESYNC i = s.rd R.PRBS_RESYNC i ∧ Frame (regsIn [R.PRBS_ERR.key i]) [.links] s t)
  ∧ (∀ (s : State) (i : Fin 1024) (x : List Bool), s.rdb R.LANE_STAT i 3 = false ∨ s.rdb R.PRBS_CTRL i 9 = false →
      Gives (.prbsLockLost ⟨i, x⟩) s fun t => Frame noRegs [] s t)
  ∧ (∀ (s : State) (i : Fin 1024) (lo : Nat) (here : Nat) (hi : Nat), s.rdb R.LANE_CFG i 12 = false →
      s.rdb R.LANE_STAT i 1 = true → (s.lane i).moved.all (fun z => decide (z + 1500000 ≤ s.time.total)) = true → lo < hi →
      here < hi → s.rdf R.LANE_STAT i 23 20 < 15 → Gives (.eqAdapt i lo here hi) s fun t =>
      t.rdf R.LANE_STAT i 23 20 = s.rdf R.LANE_STAT i 23 20 + 1 ∧ (t.lane i).moved = some s.time.total
      ∧ Frame (regsIn [R.LANE_STAT.key i]) [.links] s t)
  ∧ (∀ (s : State) (i : Fin 1024) (lo : Nat) (here : Nat) (hi : Nat), s.rdb R.LANE_CFG i 12 = false →
      s.rdb R.LANE_STAT i 1 = true → (s.lane i).moved.all (fun z => decide (z + 1500000 ≤ s.time.total)) = true → hi ≤ lo →
      here < lo → 0 < s.rdf R.LANE_STAT i 23 20 → Gives (.eqAdapt i lo here hi) s fun t =>
      t.rdf R.LANE_STAT i 23 20 = s.rdf R.LANE_STAT i 23 20 - 1 ∧ (t.lane i).moved = some s.time.total
      ∧ Frame (regsIn [R.LANE_STAT.key i]) [.links] s t)
  ∧ (∀ (s : State) (i : Fin 1024) (lo : Nat) (here : Nat) (hi : Nat),
      s.rdb R.LANE_CFG i 12 = true ∨ s.rdb R.LANE_STAT i 1 = false ∨ (s.lane i).moved.any (fun z => decide (s.time.total < z + 1500000)) = true ∨ (hi ≤ here ∧ lo ≤ here) →
      Gives (.eqAdapt i lo here hi) s fun t => Frame noRegs [] s t)
  ∧ (∀ (s : State) (i : Fin 1024), s.rdb R.LANE_CFG i 12 = false →
      s.rdf R.LANE_STAT i 23 20 = 0 ∨ s.rdf R.LANE_STAT i 23 20 = 15 → Gives (.eqLimit i) s fun t =>
      bit (t.hdr (lanePage i) hEvt) 2 = true ∧ Frame (regsIn [regKey 0 (lanePage i) 0 hEvt]) [] s t)
  ∧ (∀ (s : State) (i : Fin 1024),
      s.rdb R.LANE_CFG i 12 = true ∨ (s.rdf R.LANE_STAT i 23 20 ≠ 0 ∧ s.rdf R.LANE_STAT i 23 20 ≠ 15) →
      Gives (.eqLimit i) s fun t => Frame noRegs [] s t)

/-- At its time a corrected sample with no governing model is missing; one of the governing model adds its differences to the
delay and interpolates at the sample index less the delay; one whose delay does not fit the span is missing, counted with
its event; one at a delay of 0 in test is the interpolation at its own index. A closed block with enough valid samples
gives the level's first value, moves it, or at the second step in a row away starts it anew with its event; one with
fewer gives none. A spectrum whose window is not whole is marked and counted, a whole one is not; a failed unit's last
spectrum of a word writes the zero-weight code. Before its time, when done already, for a failed unit, and with no block
closed nothing of this happens. Where the rules leave a choice its clauses rest on the model's, log entries 3, 14, 69,
70, 71, 74, 75, 76 and 265. -/
def Obligations.CorrectedSamplesAndLevels : Prop :=
  (∀ (s : State) (u : Fin 256) (m : Nat) (k : Nat) (y : State),
      y = s.toSclk (m * sluP (s.sluProg u) + sluLag (s.sluProg u)) →
      m * sluP (s.sluProg u) + sluLag (s.sluProg u) ≤ y.nowSclk → (y.sluUnit u).bad = false → sluSlots (s.sluProg u) = [k] →
      (y.slt u k).last.all (fun l => decide (l < m)) = true → (y.slt u k).governs (m * sluP (s.sluProg u)) = none →
      Gives (.correctedSample u m) s fun t => (t.slt u k).last = some m
      ∧ (t.slt u k).hist = { y := none, jump := false } :: (if (y.slt u k).last = some (m - 1) ∧ 0 < m then (y.slt u k).hist.take (9 * y.chanC) else [])
      ∧ (t.slt u k).miss = (y.slt u k).miss + 1
      ∧ Frame (regsIn ([R.SLOT_STAT.key u k, R.CNT_MODEL.key u, regKey 0 (sluPage u) 0 hEvt] ++ reportKeys)) [.slu, .bitt] y t)
  ∧ (∀ (s : State) (u : Fin 256) (m : Nat) (k : Nat) (y : State) (md : Model) (d : Int),
      y = s.toSclk (m * sluP (s.sluProg u) + sluLag (s.sluProg u)) →
      m * sluP (s.sluProg u) + sluLag (s.sluProg u) ≤ y.nowSclk → (y.sluUnit u).bad = false → sluSlots (s.sluProg u) = [k] →
      0 < m → (y.slt u k).last = some (m - 1) → (y.slt u k).governs (m * sluP (s.sluProg u)) = some md →
      (y.slt u k).seed = some ((m * sluP (s.sluProg u) + sluLag (s.sluProg u)) / tideSclk, md) → (y.slt u k).gov = some md →
      d = (if y.rdb R.SLU_XCFG u 0 then 0 else shrEven ((y.slt u k).tau + (y.slt u k).dlt) 52) → 0 ≤ d →
      d ≤ ((sluSpan (s.sluProg u) k : Int) - 16) * 4096 → Gives (.correctedSample u m) s fun t =>
      (t.slt u k).tau = (y.slt u k).tau + (y.slt u k).dlt ∧ (t.slt u k).dlt = (y.slt u k).dlt + (y.slt u k).acc
      ∧ (t.slt u k).last = some m
      ∧ (t.slt u k).hist.head?.map (fun c => (c.y, c.jump)) = some (interpolate (fun n => (y.inSample u k n).val) (((m : Int) * 4096 - d) / 4096) (((m : Int) * 4096 - d) % 4096).toNat, false)
      ∧ Frame (regsIn [R.CNT_MISSING.key u, R.CNT_LATE.key u, R.SLU_STAT.key u, R.LVL.key u k]) [.slu] y t)
  ∧ (∀ (s : State) (u : Fin 256) (m : Nat) (k : Nat) (y : State) (md : Model) (d : Int),
      y = s.toSclk (m * sluP (s.sluProg u) + sluLag (s.sluProg u)) →
      m * sluP (s.sluProg u) + sluLag (s.sluProg u) ≤ y.nowSclk → (y.sluUnit u).bad = false → sluSlots (s.sluProg u) = [k] →
      0 < m → (y.slt u k).last = some (m - 1) → (y.slt u k).governs (m * sluP (s.sluProg u)) = some md →
      (y.slt u k).seed = some ((m * sluP (s.sluProg u) + sluLag (s.sluProg u)) / tideSclk, md) → (y.slt u k).gov = some md →
      d = (if y.rdb R.SLU_XCFG u 0 then 0 else shrEven ((y.slt u k).tau + (y.slt u k).dlt) 52) →
      d < 0 ∨ ((sluSpan (s.sluProg u) k : Int) - 16) * 4096 < d → Gives (.correctedSample u m) s fun t =>
      (t.slt u k).last = some m ∧ (t.slt u k).hist = { y := none, jump := false } :: (y.slt u k).hist.take (9 * y.chanC)
      ∧ t.rd R.CNT_DLY_RANGE u = satWord (y.rd R.CNT_DLY_RANGE u) 1 ∧ bit (t.hdr (sluPage u) hEvt) 5 = true
      ∧ Frame (regsIn [R.CNT_DLY_RANGE.key u, regKey 0 (sluPage u) 0 hEvt]) [.slu] y t)
  ∧ (∀ (s : State) (u : Fin 256) (m : Nat) (k : Nat) (md : Model) (y : State),
      y = s.toSclk (m * sluP (s.sluProg u) + sluLag (s.sluProg u)) →
      m * sluP (s.sluProg u) + sluLag (s.sluProg u) ≤ y.nowSclk → (y.sluUnit u).bad = false → sluSlots (s.sluProg u) = [k] →
      0 < m → (y.slt u k).last = some (m - 1) → (y.slt u k).governs (m * sluP (s.sluProg u)) = some md →
      (y.slt u k).older = none → y.rdb R.SLU_XCFG u 0 = true → 16 ≤ sluSpan (s.sluProg u) k → (y.slt u k).miss < 65536 →
      (y.slt u k).top = some (m + 7) → y.inSample u k (m + 8) = { val := none, late := true, poison := false } →
      Gives (.correctedSample u m) s fun t => (t.slt u k).last = some m ∧ (t.slt u k).gov = some md
      ∧ (t.slt u k).hist.head?.map (·.y) = some (interpolate (fun n => (y.inSample u k n).val) m 0)
      ∧ (t.slt u k).top = some (m + 8) ∧ t.rd R.CNT_MISSING u = satWord (y.rd R.CNT_MISSING u) 1
      ∧ t.rd R.CNT_LATE u = satWord (y.rd R.CNT_LATE u) 1
      ∧ Frame (regsIn [R.CNT_MISSING.key u, R.CNT_LATE.key u]) [.slu, .free] y t)
  ∧ (∀ (s : State) (u : Fin 256) (m : Nat) (y : State), y = s.toSclk (m * sluP (s.sluProg u) + sluLag (s.sluProg u)) →
      y.nowSclk < m * sluP (s.sluProg u) + sluLag (s.sluProg u) ∨ (y.sluUnit u).bad = true ∨ sluSlots (s.sluProg u) = [] →
      Gives (.correctedSample u m) s fun t => Frame noRegs [] y t)
  ∧ (∀ (s : State) (u : Fin 256) (m : Nat) (k : Nat) (l : Nat) (y : State),
      y = s.toSclk (m * sluP (s.sluProg u) + sluLag (s.sluProg u)) →
      m * sluP (s.sluProg u) + sluLag (s.sluProg u) ≤ y.nowSclk → (y.sluUnit u).bad = false → sluSlots (s.sluProg u) = [k] →
      (y.slt u k).last = some l → m ≤ l → Gives (.correctedSample u m) s fun t => Frame noRegs [] y t)
  ∧ (∀ (s : State) (u : Fin 256) (k : Fin 16) (v : Nat) (sm : Nat) (fi : Bool) (rest : List (Nat × Nat × Bool)),
      (sluBind (s.sluProg u) k).isSome = true → (s.sluUnit u).bad = false → (s.slt u k).shut = (v, sm, fi) :: rest →
      v < (if fi then 1 else 64) → Gives (.levelBlock u k) s fun t => t.slt u k = { s.slt u k with shut := rest }
      ∧ Frame noRegs [.slu] s t)
  ∧ (∀ (s : State) (u : Fin 256) (k : Fin 16) (v : Nat) (sm : Nat) (fi : Bool) (rest : List (Nat × Nat × Bool)),
      (sluBind (s.sluProg u) k).isSome = true → (s.sluUnit u).bad = false → (s.slt u k).shut = (v, sm, fi) :: rest →
      (if fi then 1 else 64) ≤ v → (s.slt u k).f = none → Gives (.levelBlock u k) s fun t =>
      (t.slt u k).b = some (word64 (.fin (to64 ((Dy.mk sm (-8)).div (Dy.ofInt v))).dy)) ∧ (t.slt u k).f = (t.slt u k).b
      ∧ (t.slt u k).shut = rest ∧ (t.slt u k).blocksF = 0 ∧ t.rdb R.SLU_STAT u (48 + k.val) = false
      ∧ Frame (regsIn [R.LVL.key u k, R.SLU_STAT.key u]) [.slu] s t)
  ∧ (∀ (s : State) (u : Fin 256) (k : Fin 16) (v : Nat) (sm : Nat) (fi : Bool) (rest : List (Nat × Nat × Bool)) (x : Word) (a : Bool),
      (sluBind (s.sluProg u) k).isSome = true → (s.sluUnit u).bad = false → (s.slt u k).shut = (v, sm, fi) :: rest →
      (if fi then 1 else 64) ≤ v → (s.slt u k).f = some x →
      a = stepAway (s.rdf R.LVL_CFG u 15 8) (to64 ((Dy.mk sm (-8)).div (Dy.ofInt v))).dy (of64 x).dy →
      a = false ∨ (s.slt u k).dev = false → Gives (.levelBlock u k) s fun t =>
      (t.slt u k).b = some (word64 (.fin (to64 ((Dy.mk sm (-8)).div (Dy.ofInt v))).dy))
      ∧ (t.slt u k).f = some (word64 (.fin (add64 (of64 x).dy (((to64 ((to64 ((Dy.mk sm (-8)).div (Dy.ofInt v))).dy.sub (of64 x).dy)).dy).scale (-(s.rdf R.LVL_CFG u 5 1 : Int))))))
      ∧ (t.slt u k).blocksF = (s.slt u k).blocksF + 1 ∧ (t.slt u k).dev = a
      ∧ t.rdb R.SLU_STAT u (48 + k.val) = decide (4 * 2 ^ s.rdf R.LVL_CFG u 5 1 ≤ (s.slt u k).blocksF + 1)
      ∧ Frame (regsIn [R.LVL.key u k, R.SLU_STAT.key u]) [.slu] s t)
  ∧ (∀ (s : State) (u : Fin 256) (k : Fin 16) (v : Nat) (sm : Nat) (fi : Bool) (rest : List (Nat × Nat × Bool)) (x : Word),
      (sluBind (s.sluProg u) k).isSome = true → (s.sluUnit u).bad = false → (s.slt u k).shut = (v, sm, fi) :: rest →
      (if fi then 1 else 64) ≤ v → (s.slt u k).f = some x →
      stepAway (s.rdf R.LVL_CFG u 15 8) (to64 ((Dy.mk sm (-8)).div (Dy.ofInt v))).dy (of64 x).dy = true →
      (s.slt u k).dev = true → Gives (.levelBlock u k) s fun t =>
      (t.slt u k).b = some (word64 (.fin (to64 ((Dy.mk sm (-8)).div (Dy.ofInt v))).dy)) ∧ (t.slt u k).f = none
      ∧ (t.slt u k).blocksF = 0 ∧ (t.slt u k).dev = false
      ∧ t.rdf R.CNT_MODEL u 15 0 = min (s.rdf R.CNT_MODEL u 15 0 + 1) 65535 ∧ bit (t.hdr (sluPage u) hEvt) 4 = true
      ∧ Frame (regsIn [R.LVL.key u k, R.SLU_STAT.key u, R.CNT_MODEL.key u, regKey 0 (sluPage u) 0 hEvt]) [.slu] s t)
  ∧ (∀ (s : State) (u : Fin 256) (k : Fin 16),
      sluBind (s.sluProg u) k = none ∨ (s.sluUnit u).bad = true ∨ (s.slt u k).shut = [] → Gives (.levelBlock u k) s fun t =>
      Frame noRegs [] s t)
  ∧ (∀ (s : State) (u : Fin 256) (j : Nat) (k : Nat) (y : State), y = s.toSclk (s.specTime u j) →
      y.specTime u j ≤ y.nowSclk → (sluSlots (s.sluProg u)) = [k] → sluSlots (y.sluProg u) = [k] →
      (y.sluUnit u).bad = false → (y.sluUnit u).done.all (fun d => decide (d < j)) = true →
      (y.slt u k).last.any (fun m => decide (j * y.chanC + 8 * y.chanC ≤ m + 1)) = true → j % y.specWord < y.specWord - 1 →
      ¬ ((((y.slt u k).hist.drop ((y.slt u k).last.getD 0 - (j * y.chanC + 8 * y.chanC - 1))).take (8 * y.chanC)).length = 8 * y.chanC ∧ (((y.slt u k).hist.drop ((y.slt u k).last.getD 0 - (j * y.chanC + 8 * y.chanC - 1))).take (8 * y.chanC)).all (fun c => c.y.isSome && !c.jump) = true ∧ y.winZero u y.chanC = false ∧ (y.levelOf u k).isSome = true ∧ (y.slt u k).centres.any (fun x => decide (x.m = j * y.chanC + 4 * y.chanC)) = true) →
      Gives (.spectrumComplete u j) s fun t => (t.sluUnit u).done = some j
      ∧ t.rd R.CNT_GAP_SPECTRA u = satWord (y.rd R.CNT_GAP_SPECTRA u) 1 ∧ t.rdb R.SLU_STAT u (32 + k) = true
      ∧ Frame (regsIn [R.CNT_GAP_SPECTRA.key u, R.SLU_STAT.key u]) [.slu] y t)
  ∧ (∀ (s : State) (u : Fin 256) (j : Nat) (k : Nat) (y : State), y = s.toSclk (s.specTime u j) →
      y.specTime u j ≤ y.nowSclk → (sluSlots (s.sluProg u)) = [k] → sluSlots (y.sluProg u) = [k] →
      (y.sluUnit u).bad = false → (y.sluUnit u).done.all (fun d => decide (d < j)) = true →
      (y.slt u k).last.any (fun m => decide (j * y.chanC + 8 * y.chanC ≤ m + 1)) = true → j % y.specWord < y.specWord - 1 →
      (((y.slt u k).hist.drop ((y.slt u k).last.getD 0 - (j * y.chanC + 8 * y.chanC - 1))).take (8 * y.chanC)).length = 8 * y.chanC ∧ (((y.slt u k).hist.drop ((y.slt u k).last.getD 0 - (j * y.chanC + 8 * y.chanC - 1))).take (8 * y.chanC)).all (fun c => c.y.isSome && !c.jump) = true ∧ y.winZero u y.chanC = false ∧ (y.levelOf u k).isSome = true ∧ (y.slt u k).centres.any (fun x => decide (x.m = j * y.chanC + 4 * y.chanC)) = true →
      Gives (.spectrumComplete u j) s fun t => (t.sluUnit u).done = some j
      ∧ t.rd R.CNT_GAP_SPECTRA u = y.rd R.CNT_GAP_SPECTRA u ∧ t.rdb R.SLU_STAT u (32 + k) = false
      ∧ Frame (regsIn [R.CNT_CLIP.key u, R.SLU_STAT.key u]) [.slu, .free] y t)
  ∧ (∀ (s : State) (u : Fin 256) (j : Nat) (y : State), y = s.toSclk (s.specTime u j) → y.specTime u j ≤ y.nowSclk →
      (y.sluUnit u).bad = true → (s.sluUnit u).bad = true → (y.sluUnit u).done.all (fun d => decide (d < j)) = true →
      j % y.specWord < y.specWord - 1 → Gives (.spectrumComplete u j) s fun t => (t.sluUnit u).done = some j
      ∧ (t.sluUnit u).bad = true ∧ Frame noRegs [.slu] y t)
  ∧ (∀ (s : State) (u : Fin 256) (j : Nat) (y : State) (z : Word) (a : Nat) (i : Nat), y = s.toSclk (s.specTime u j) →
      y.specTime u j ≤ y.nowSclk → (y.sluUnit u).bad = true → (s.sluUnit u).bad = true → y.image.isSome = true →
      opWord (y.sluProg u) 4 = some z → y.chanC = 1 → j = 4 * i + 3 → y.specWord = 4 → (y.sluUnit u).done = some (j - 1) →
      (y.sluUnit u).group = [] → (y.sluUnit u).mark = false → a = fld z 32 0 * 64 + i % y.pondW * 64 →
      Gives (.spectrumComplete u j) s fun t =>
      (t.pc (hPch a % 512)).due = (y.pc (hPch a % 512)).due ++ [{ owner := u, now := false, write := true, addr := a, data := zeroWord y.sampleBits, dest := .none, ready := 2 * (y.imgOf (y.specTime u j) + 64 + ((sluSlots (y.sluProg u)).length - 1) / 4), mark := false }]
      ∧ (t.sluUnit u).done = some j ∧ Frame noRegs [.slu, .heap] y t)
  ∧ (∀ (s : State) (u : Fin 256) (j : Nat) (y : State), y = s.toSclk (s.specTime u j) →
      y.nowSclk < y.specTime u j ∨ (y.sluUnit u).done.any (fun d => decide (j ≤ d)) = true →
      Gives (.spectrumComplete u j) s fun t => Frame noRegs [] y t)
  ∧ (∀ (s : State) (u : Fin 256) (j : Nat), sluSlots (s.sluProg u) = [] → (s.sluUnit u).bad = false →
      Gives (.spectrumComplete u j) s fun t => Frame noRegs [] s t)

/-- A write of GAIN_DATA or WIN_DATA puts its value into the shadow at the agent's address and advances the address. A commit
marks its set and enters it for the next boundary. SLU_CMD copies the working gains to the shadow, fills the shadow
window, restarts a slot's levels, or clears its clip counts. Where the rules leave a choice its clauses rest on the
model's, log entries 3, 18, 77 and 265. -/
def Obligations.SluiceTablesAndShadows : Prop :=
  (∀ (s : State) (a : Agent) (g : Fin 16) (k : Fin 16) (v : Word) (n : Nat),
      s.accepts a (0x20 + g.val) (R.DM_CTRL.off + 64 * k.val) (setBit v 0) = true → s.bankOf a (0x20 + g.val) = n → n < 16 →
      Gives (.dmCommit a g k v) s fun t => t.rd R.DM_CTRL (16 * g.val + n) k = setBit v 0
      ∧ t.fab.commits = s.fab.commits ++ [{ set := .dm (16 * g.val + n) k, wait := 1 + b2n (s.slot == 4095) }]
      ∧ Frame (regsIn [R.DM_CTRL.key (16 * g.val + n) k]) [.fab] s t)
  ∧ (∀ (s : State) (a : Agent) (g : Fin 16) (n : Nat), s.accepts a (0x20 + g.val) R.GAIN_CTRL.off 1 = true →
      s.bankOf a (0x20 + g.val) = n → n < 16 → Gives (.gainCommit a g) s fun t => t.rd R.GAIN_CTRL (16 * g.val + n) = 1
      ∧ t.fab.commits = s.fab.commits ++ [{ set := .gain (16 * g.val + n), wait := 1 + b2n (s.slot == 4095) }]
      ∧ Frame (regsIn [R.GAIN_CTRL.key (16 * g.val + n)]) [.fab] s t)
  ∧ (∀ (s : State) (a : Agent) (g : Fin 16) (n : Nat), s.accepts a (0x20 + g.val) R.WIN_CTRL.off 1 = true →
      s.bankOf a (0x20 + g.val) = n → n < 16 → Gives (.winCommit a g) s fun t => t.rd R.WIN_CTRL (16 * g.val + n) = 1
      ∧ t.fab.commits = s.fab.commits ++ [{ set := .win (16 * g.val + n), wait := 1 + b2n (s.slot == 4095) }]
      ∧ Frame (regsIn [R.WIN_CTRL.key (16 * g.val + n)]) [.fab] s t)
  ∧ (∀ (s : State) (a : Agent) (g : Fin 16) (k : Fin 16) (n : Nat),
      s.accepts a (0x20 + g.val) R.SLU_CMD.off (word (at_ 16 k + 1)) = true → s.bankOf a (0x20 + g.val) = n → n < 16 →
      Gives (.gainCopy a g k) s fun t =>
      (∀ i, mget (fun _ => 0) t.slu.gainS i = if 65536 * (16 * g.val + n) ≤ i ∧ i < 65536 * (16 * g.val + n + 1) then mget (fun _ => 0) s.slu.gainW i else mget (fun _ => 0) s.slu.gainS i)
      ∧ t.slu = { s.slu with gainS := t.slu.gainS } ∧ Frame noRegs [.slu] s t)
  ∧ (∀ (s : State) (a : Agent) (g : Fin 16) (n : Nat), s.accepts a (0x20 + g.val) R.SLU_CMD.off 2 = true →
      s.bankOf a (0x20 + g.val) = n → n < 16 → Gives (.winDefault a g) s fun t =>
      (∀ i, i < 8 * s.chanC → s.chanC ≤ 4096 → mget (fun _ => 0) t.slu.winS (32768 * (16 * g.val + n) + i) = winDefaultAt s.chanC i)
      ∧ t.slu = { s.slu with winS := t.slu.winS } ∧ Frame noRegs [.slu] s t)
  ∧ (∀ (s : State) (a : Agent) (g : Fin 16) (k : Fin 16) (n : Nat),
      s.accepts a (0x20 + g.val) R.SLU_CMD.off (word (at_ 16 k + 4)) = true → s.bankOf a (0x20 + g.val) = n → n < 16 →
      Gives (.streamReset a g k) s fun t => t.slt (16 * g.val + n) k = (s.slt (16 * g.val + n) k).switch
      ∧ t.rd R.LVL (16 * g.val + n) k = 0
      ∧ t.rd R.SLU_STAT (16 * g.val + n) = clrBit (s.rd R.SLU_STAT (16 * g.val + n)) (48 + k.val)
      ∧ Frame (regsIn [R.LVL.key (16 * g.val + n) k, R.SLU_STAT.key (16 * g.val + n)]) [.slu] s t)
  ∧ (∀ (s : State) (a : Agent) (g : Fin 16) (k : Fin 16) (n : Nat),
      s.accepts a (0x20 + g.val) R.SLU_CMD.off (word (at_ 16 k + 8)) = true → s.bankOf a (0x20 + g.val) = n → n < 16 →
      Gives (.clipClr a g k) s fun t =>
      (∀ i, mget (fun _ => 0) t.slu.clips i = if (16 * (16 * g.val + n) + k.val) * 4096 ≤ i ∧ i < (16 * (16 * g.val + n) + k.val + 1) * 4096 then 0 else mget (fun _ => 0) s.slu.clips i)
      ∧ t.slu = { s.slu with clips := t.slu.clips } ∧ Frame noRegs [.slu] s t)
  ∧ (∀ (s : State) (a : Agent) (g : Fin 16) (v : Word) (n : Nat) (i : Nat),
      s.accepts a (0x20 + g.val) R.GAIN_DATA.off v = true → s.bankOf a (0x20 + g.val) = n → n < 16 →
      fld (s.rdAgent R.GAIN_ADDR (16 * g.val + n) a) 15 0 = i → Gives (.gainDataWrite a g v) s fun t =>
      (∀ j, mget (fun _ => 0) t.slu.gainS j = if j = 65536 * (16 * g.val + n) + i then BitVec.ofNat 16 v.toNat else mget (fun _ => 0) s.slu.gainS j)
      ∧ fld (t.rdAgent R.GAIN_ADDR (16 * g.val + n) a) 15 0 = (i + 1) % 65536
      ∧ Frame (regsIn [R.GAIN_ADDR.key (16 * g.val + n) 0 (1 + a.code)]) [.slu] s t)
  ∧ (∀ (s : State) (a : Agent) (g : Fin 16) (v : Word) (n : Nat) (i : Nat),
      s.accepts a (0x20 + g.val) R.WIN_DATA.off v = true → s.bankOf a (0x20 + g.val) = n → n < 16 →
      fld (s.rdAgent R.WIN_ADDR (16 * g.val + n) a) 14 0 = i → Gives (.winDataWrite a g v) s fun t =>
      (∀ j, mget (fun _ => 0) t.slu.winS j = if j = 32768 * (16 * g.val + n) + i then BitVec.ofNat 18 v.toNat else mget (fun _ => 0) s.slu.winS j)
      ∧ fld (t.rdAgent R.WIN_ADDR (16 * g.val + n) a) 14 0 = (i + 1) % 32768
      ∧ Frame (regsIn [R.WIN_ADDR.key (16 * g.val + n) 0 (1 + a.code)]) [.slu] s t)

/-- When a unit's next instruction, legal, is the one named, it is issued at its SCLK. WAIT puts the next issue N_M1 + 1 SCLK
later, WAITAT at the next SCLK of the slot and offset that it names. LOOP loads its level, armed when its body stands;
otherwise it counts as illegal. HALT stops an image's program, or ends a job with its event; a pc past the program's end
does the same and counts as illegal. An illegal instruction counts in ILLEGAL, with its event and the tide's report, and
idles one SCLK. When the unit's next instruction is another, nothing happens. Where the rules leave a choice its clauses
rest on the model's, log entries 3, 87, 93 and 95. -/
def Obligations.SequencersIssueInOrder : Prop :=
  (∀ (s : State) (u : SeqUnit) (w : Word) (y : State), s.current u 0x00 = some (w, y) → Gives (.wait u) s fun t =>
      t.seqOf u = (y.seqOf u).issued (fld w 19 0 + 1)
      ∧ Frame noRegs [] ((y.setSeq u ((y.seqOf u).issued (fld w 19 0 + 1)))) t)
  ∧ (∀ (s : State) (u : SeqUnit) (p : Fin 256) (y : State), s.current u 0x00 = none → s.currentBad u = true →
      y = s.toImg (s.seqOf u).at_ → u = .pan p → Gives (.wait u) s fun t =>
      fld (t.rd R.PAN_ERR p) 63 48 = min (fld (y.rd R.PAN_ERR p) 63 48 + 1) 65535 ∧ bit (t.hdr (panPage p) hEvt) 0 = true
      ∧ t.pans = (y.setSeq u ({ (y.seqOf u).issued 1 with badTide := some y.time.tide })).pans
      ∧ ((y.seqOf u).badTide ≠ some y.time.tide → y.reports t (panPage p) (p % 16) 0x11 (y.panStat p) (t.rd R.PAN_ERR p))
      ∧ ((y.seqOf u).badTide = some y.time.tide → Frame (regsIn [R.PAN_ERR.key p, regKey 0 (panPage p) 0 hEvt]) [.pans] y t)
      ∧ Frame (regsIn ([R.PAN_ERR.key p, regKey 0 (panPage p) 0 hEvt] ++ reportKeys)) [.pans, .bitt] y t)
  ∧ (∀ (s : State) (u : SeqUnit) (p : Fin 32) (y : State), s.current u 0x00 = none → s.currentBad u = true →
      y = s.toImg (s.seqOf u).at_ → u = .feeder p → Gives (.wait u) s fun t =>
      fld (t.rd (feederErr p) (16 * feederIdx p)) 63 48 = min (fld (y.rd (feederErr p) (16 * feederIdx p)) 63 48 + 1) 65535
      ∧ bit (t.hdr (0x30 + feederIdx p) hEvt) 7 = true
      ∧ t.pans = (y.setSeq u ({ (y.seqOf u).issued 1 with badTide := some y.time.tide })).pans
      ∧ ((y.seqOf u).badTide ≠ some y.time.tide → y.reports t (0x30 + feederIdx p) 0 0x11 (y.panStat (16 * feederIdx p)) (y.rd R.PAN_ERR (16 * feederIdx p)))
      ∧ ((y.seqOf u).badTide = some y.time.tide → Frame (regsIn [(feederErr p).key (16 * feederIdx p), regKey 0 (0x30 + feederIdx p) 0 hEvt]) [.pans] y t)
      ∧ Frame (regsIn ([(feederErr p).key (16 * feederIdx p), regKey 0 (0x30 + feederIdx p) 0 hEvt] ++ reportKeys)) [.pans, .bitt] y t)
  ∧ (∀ (s : State) (u : SeqUnit) (p : Fin 64) (y : State), s.current u 0x00 = none → s.currentBad u = true →
      y = s.toImg (s.seqOf u).at_ → u = .rake p → Gives (.wait u) s fun t =>
      fld (t.rd R.RK_ERR (4 * p)) 63 48 = min (fld (y.rd R.RK_ERR (4 * p)) 63 48 + 1) 65535
      ∧ t.pans = (y.setSeq u ({ (y.seqOf u).issued 1 with badTide := some y.time.tide })).pans
      ∧ ((y.seqOf u).badTide ≠ some y.time.tide → y.reports t (0x40 + p / 8) (4 * (p % 8)) 0x12 (y.rkStat p) (t.rd R.RK_ERR (4 * p)))
      ∧ ((y.seqOf u).badTide = some y.time.tide → Frame (regsIn [R.RK_ERR.key (4 * p)]) [.pans] y t)
      ∧ Frame (regsIn ([R.RK_ERR.key (4 * p)] ++ reportKeys)) [.pans, .bitt] y t)
  ∧ (∀ (s : State) (u : SeqUnit), s.current u 0x00 = none → s.currentBad u = false → Gives (.wait u) s fun t =>
      Frame noRegs [] s t)
  ∧ (∀ (s : State) (u : SeqUnit) (w : Word) (y : State), s.current u 0x0A = some (w, y) → Gives (.waitat u) s fun t =>
      t.seqOf u = { (y.seqOf u).next with at_ := waitAt (y.seqOf u).at_ (fld w 57 46) (fld w 45 38), setups := 0 }
      ∧ Frame noRegs [] ((y.setSeq u (t.seqOf u))) t)
  ∧ (∀ (s : State) (u : SeqUnit), s.current u 0x0A = none → Gives (.waitat u) s fun t => Frame noRegs [] s t)
  ∧ (∀ (s : State) (u : SeqUnit) (w : Word) (x : Bool) (l : Loop) (q : Seq) (y : State), s.current u 0x08 = some (w, y) →
      x = (List.range (fld w 43 32 + 1 - fld w 55 44)).any (fun i => (y.seqWord u (fld w 55 44 + i)).any fun v => !isSetup u v || !y.seqLegal u v) →
      fld w 55 44 ≤ fld w 43 32 → fld w 43 32 < y.seqLen u → x = true →
      l = { start := fld w 55 44, end_ := fld w 43 32, limit := fld w 19 0, iter := 0, armed := true } → q = y.seqOf u →
      Gives (.loop u) s fun t =>
      t.seqOf u = ((if fld w 57 56 = 0 then { q with l0 := l } else if fld w 57 56 = 1 then { q with l1 := l } else { q with l2 := l }) : Seq).setup
      ∧ Frame noRegs [] ((y.setSeq u (t.seqOf u))) t)
  ∧ (∀ (s : State) (u : SeqUnit) (w : Word) (x : Bool) (l : Loop) (q : Seq) (y : State) (z : State),
      s.current u 0x08 = some (w, y) →
      x = (List.range (fld w 43 32 + 1 - fld w 55 44)).any (fun i => (y.seqWord u (fld w 55 44 + i)).any fun v => !isSetup u v || !y.seqLegal u v) →
      fld w 43 32 < fld w 55 44 ∨ y.seqLen u ≤ fld w 43 32 ∨ x = false →
      l = { start := fld w 55 44, end_ := fld w 43 32, limit := fld w 19 0, iter := 0, armed := false } → z = y.illegal u →
      q = z.seqOf u → Gives (.loop u) s fun t =>
      Frame noRegs [] ((z.setSeq u ((if fld w 57 56 = 0 then { q with l0 := l } else if fld w 57 56 = 1 then { q with l1 := l } else { q with l2 := l }) : Seq).setup)) t)
  ∧ (∀ (s : State) (u : SeqUnit), s.current u 0x08 = none → Gives (.loop u) s fun t => Frame noRegs [] s t)
  ∧ (∀ (s : State) (u : SeqUnit) (w : Word) (y : State), s.current u 0x0B = some (w, y) → y.inJob u = false →
      Gives (.halt u) s fun t => t.seqOf u = { y.seqOf u with halted := true }
      ∧ Frame noRegs [] ((y.setSeq u { y.seqOf u with halted := true })) t)
  ∧ (∀ (s : State) (u : SeqUnit) (p : Fin 256) (w : Word) (y : State), u = .pan p → s.current u 0x0B = some (w, y) →
      (y.pn p).jobRun = true → Gives (.halt u) s fun t => t.pn p = { y.pn p with jobRun := false, jobDone := true }
      ∧ bit (t.hdr (panPage p) hEvt) 4 = true ∧ t.pans = (y.setPn p (t.pn p)).pans
      ∧ Frame (regsIn [regKey 0 (panPage p) 0 hEvt]) [.pans] y t)
  ∧ (∀ (s : State) (u : SeqUnit) (z : State), s.current u 0x0B = none → s.seqLive u = true →
      (s.seqOf u).at_ / tideSclk ≤ s.sched.age → s.seqWord u (s.seqOf u).pc = none →
      z = (s.toImg (s.seqOf u).at_).illegal u → z.inJob u = false → Gives (.halt u) s fun t => (t.seqOf u).halted = true
      ∧ Frame noRegs [] ((z.setSeq u { z.seqOf u with halted := true })) t)
  ∧ (∀ (s : State) (u : SeqUnit) (p : Fin 256) (z : State), u = .pan p → s.current u 0x0B = none → s.seqLive u = true →
      (s.seqOf u).at_ / tideSclk ≤ s.sched.age → s.seqWord u (s.seqOf u).pc = none →
      z = (s.toImg (s.seqOf u).at_).illegal u → (z.pn p).jobRun = true → Gives (.halt u) s fun t =>
      t.pn p = { z.pn p with jobRun := false, jobDone := true } ∧ bit (t.hdr (panPage p) hEvt) 4 = true
      ∧ t.pans = (z.setPn p (t.pn p)).pans ∧ Frame (regsIn [regKey 0 (panPage p) 0 hEvt]) [.pans] z t)
  ∧ (∀ (s : State) (u : SeqUnit), s.current u 0x0B = none →
      ¬(s.seqLive u = true ∧ (s.seqOf u).at_ / tideSclk ≤ s.sched.age ∧ s.seqWord u (s.seqOf u).pc = none) →
      Gives (.halt u) s fun t => Frame noRegs [] s t)

/-- A correlation step sends its increments on the way to the bank in use, marks the bank's trailer and the gap latch with
what its samples are, and counts; a beam step adds the pan's row sums to its row's chain, and in the last pan closes it.
A step in a context of the other kind counts in KIND, one in the SCLK after a beam step in ORDER, and neither is
executed. WLOAD sends 32 weights on their way to the shadow set, WSWAP exchanges the sets, CTX sets the context, but not
in a job. What else comes due in the SCLK then comes (unitsNow). When the pan's next instruction is another, nothing
happens. Where the rules leave a choice its clauses rest on the model's, log entries 3, 21, 87, 88, 90, 94 and 95. -/
def Obligations.PanStepsAndWeights : Prop :=
  (∀ (s : State) (p : Fin 256) (w : Word) (y : State) (z1 : State) (z2 : State) (z3 : State) (a : Nat) (l : Nat) (d : Pan) (e : Pan) (xs : List ((Int × Int) × Bool)) (ys : List ((Int × Int) × Bool)),
      s.current (.pan p) 0x01 = some (w, y) → a = (y.pn p).seq.at_ → (y.pn p).jobRun = true ∨ (y.pn p).beam = false →
      (y.pn p).lastBeam.map (· + 1) ≠ some a → l = a + (if bit w 39 then 8 else 6) → d = (y.opsTo p a).pn p →
      xs = halfSamples (bit w 39) (d.half (opAddr d.seq w 0) false).data →
      ys = halfSamples (bit w 39) (d.half (opAddr d.seq w 0) true).data →
      e = { d.setTrailer d.bank { d.trailer d.bank with poison := (d.trailer d.bank).poison || (d.half (opAddr d.seq w 0) false).poison || (d.half (opAddr d.seq w 0) true).poison, zrow := (d.trailer d.bank).zrow ||| zeroMask (if bit w 39 then 32 * fld w 38 38 else 0) xs, zcol := (d.trailer d.bank).zcol ||| zeroMask (if bit w 39 then 32 * fld w 37 37 else 0) ys } with gap := d.gap || xs.any (·.2) || ys.any (·.2), stepBank := some d.bank, incs := d.incs ++ [{ time := l, bank := d.bank, incs := corrIncs w xs ys }] } →
      z1 = (((y.opsTo p a).setPn p (if bit w 35 then e.countStep d.bank else e)).intoBank p d.bank l).count R.PAN_STEPS p →
      z2 = (if bit w 34 then z1.switchBank p a else z1) → z3 = (if bit w 33 then z2.streamBank p a false else z2) →
      Gives (.cstep p) s fun t => Frame noRegs [] (((z3.setSeq (.pan p) ((z3.pn p).seq.issued 1)).unitsNow)) t)
  ∧ (∀ (s : State) (p : Fin 256) (w : Word) (y : State) (z : State) (a : Nat), s.current (.pan p) 0x01 = some (w, y) →
      a = (y.pn p).seq.at_ → (y.pn p).jobRun = false → (y.pn p).beam = true →
      z = ((y.countf R.PAN_ERR p 47 32).raise (panPage p) 1).seqReport (.pan p) → Gives (.cstep p) s fun t =>
      Frame noRegs [] (((z.setSeq (.pan p) ((z.pn p).seq.issued 1)).unitsNow)) t)
  ∧ (∀ (s : State) (p : Fin 256) (w : Word) (y : State) (z : State) (a : Nat), s.current (.pan p) 0x01 = some (w, y) →
      a = (y.pn p).seq.at_ → (y.pn p).jobRun = true ∨ (y.pn p).beam = false → (y.pn p).lastBeam.map (· + 1) = some a →
      z = ((y.countf R.PAN_ERR p 31 16).raise (panPage p) 2).seqReport (.pan p) → Gives (.cstep p) s fun t =>
      Frame noRegs [] (((z.setSeq (.pan p) ((z.pn p).seq.issued 1)).unitsNow)) t)
  ∧ (∀ (s : State) (p : Fin 256), s.current (.pan p) 0x01 = none → Gives (.cstep p) s fun t => Frame noRegs [] s t)
  ∧ (∀ (s : State) (p : Fin 256) (w : Word) (y : State) (z0 : State) (z1 : State) (z2 : State) (a : Nat) (d : Pan) (e : Pan) (ys : List ((Int × Int) × Bool)) (c : ChainSum),
      s.current (.pan p) 0x02 = some (w, y) → a = (y.pn p).seq.at_ → (y.pn p).jobRun = true ∨ (y.pn p).beam = true →
      (y.pn p).lastBeam.map (· + 1) ≠ some a → d = (y.opsTo p a).pn p →
      ys = halfSamples false (d.half (opAddr d.seq w 0) true).data →
      c = (pget (y.bm (p.val / 16)).chain a).getD { sums := List.replicate 64 (0, 0), gap := false, poison := false } →
      z0 = (y.opsTo p a).setBm (p.val / 16) { y.bm (p.val / 16) with chain := pset (y.bm (p.val / 16)).chain a (some { sums := (c.sums.zip ((List.range 64).map (d.rowSum ys))).map fun x => (x.1.1 + x.2.1, x.1.2 + x.2.2), gap := c.gap || ys.any (·.2), poison := c.poison || ((d.half (opAddr d.seq w 0) true).poison || d.weightsPoison) }) } →
      p.val % 16 ≠ 15 → e = { d with gap := d.gap || ys.any (·.2), stepBank := some d.bank, lastBeam := some a } →
      z1 = (z0.setPn p (if bit w 35 then e.countStep d.bank else e)).count R.PAN_STEPS p →
      z2 = (if bit w 34 then z1.switchBank p a else z1) → Gives (.bstep p) s fun t =>
      Frame noRegs [] (((z2.setSeq (.pan p) ((z2.pn p).seq.issued 1)).unitsNow)) t)
  ∧ (∀ (s : State) (p : Fin 256) (w : Word) (y : State) (z0 : State) (z1 : State) (z2 : State) (a : Nat) (d : Pan) (e : Pan) (ys : List ((Int × Int) × Bool)) (c : ChainSum),
      s.current (.pan p) 0x02 = some (w, y) → a = (y.pn p).seq.at_ → (y.pn p).jobRun = true ∨ (y.pn p).beam = true →
      (y.pn p).lastBeam.map (· + 1) ≠ some a → d = (y.opsTo p a).pn p →
      ys = halfSamples false (d.half (opAddr d.seq w 0) true).data →
      c = (pget (y.bm (p.val / 16)).chain a).getD { sums := List.replicate 64 (0, 0), gap := false, poison := false } →
      z0 = (y.opsTo p a).setBm (p.val / 16) { y.bm (p.val / 16) with chain := pset (y.bm (p.val / 16)).chain a (some { sums := (c.sums.zip ((List.range 64).map (d.rowSum ys))).map fun x => (x.1.1 + x.2.1, x.1.2 + x.2.2), gap := c.gap || ys.any (·.2), poison := c.poison || ((d.half (opAddr d.seq w 0) true).poison || d.weightsPoison) }) } →
      p.val % 16 = 15 →
      e = (if 2 ≤ fld w 37 36 then Pan.setTrailer { d with gap := d.gap || ys.any (·.2), stepBank := some d.bank, lastBeam := some a } d.bank { d.trailer d.bank with zcol := (d.trailer d.bank).zcol ||| zeroMask 0 ys } else { d with gap := d.gap || ys.any (·.2), stepBank := some d.bank, lastBeam := some a }) →
      z1 = ((if 2 ≤ fld w 37 36 then (z0.setPn p (if bit w 35 then e.countStep d.bank else e)).intoBank p d.bank (a + 41) else z0.setPn p (if bit w 35 then e.countStep d.bank else e)).closing (p.val / 16) a w d.bank).count R.PAN_STEPS p →
      z2 = (if bit w 34 then z1.switchBank p a else z1) → Gives (.bstep p) s fun t =>
      Frame noRegs [] (((z2.setSeq (.pan p) ((z2.pn p).seq.issued 1)).unitsNow)) t)
  ∧ (∀ (s : State) (p : Fin 256) (w : Word) (y : State) (z : State) (a : Nat), s.current (.pan p) 0x02 = some (w, y) →
      a = (y.pn p).seq.at_ → (y.pn p).jobRun = false → (y.pn p).beam = false →
      z = ((y.countf R.PAN_ERR p 47 32).raise (panPage p) 1).seqReport (.pan p) → Gives (.bstep p) s fun t =>
      Frame noRegs [] (((z.setSeq (.pan p) ((z.pn p).seq.issued 1)).unitsNow)) t)
  ∧ (∀ (s : State) (p : Fin 256) (w : Word) (y : State) (z : State) (a : Nat), s.current (.pan p) 0x02 = some (w, y) →
      a = (y.pn p).seq.at_ → (y.pn p).jobRun = true ∨ (y.pn p).beam = true → (y.pn p).lastBeam.map (· + 1) = some a →
      z = ((y.countf R.PAN_ERR p 31 16).raise (panPage p) 2).seqReport (.pan p) → Gives (.bstep p) s fun t =>
      Frame noRegs [] (((z.setSeq (.pan p) ((z.pn p).seq.issued 1)).unitsNow)) t)
  ∧ (∀ (s : State) (p : Fin 256), s.current (.pan p) 0x02 = none → Gives (.bstep p) s fun t => Frame noRegs [] s t)
  ∧ (∀ (s : State) (p : Fin 256) (w : Word) (y : State) (a : Nat) (d : Pan) (x : OpHalf) (z : State),
      s.current (.pan p) 0x03 = some (w, y) → a = (y.pn p).seq.at_ → d = (y.opsTo p a).pn p →
      x = d.half (opAddr d.seq w (p.val % 16 * fld w 39 29)) false →
      z = (y.opsTo p a).setPn p { d with wland := d.wland ++ [{ time := a + 3, idx := 2 * fld w 28 23 + fld w 22 22, w := { data := x.data, poison := x.poison } }] } →
      Gives (.wload p) s fun t => Frame noRegs [] (((z.setSeq (.pan p) ((z.pn p).seq.issued 1)).unitsNow)) t)
  ∧ (∀ (s : State) (p : Fin 256), s.current (.pan p) 0x03 = none → Gives (.wload p) s fun t => Frame noRegs [] s t)
  ∧ (∀ (s : State) (p : Fin 256) (w : Word) (y : State) (a : Nat) (d : Pan) (z : State),
      s.current (.pan p) 0x04 = some (w, y) → a = (y.pn p).seq.at_ → d = (y.opsTo p a).pn p →
      z = (y.opsTo p a).setPn p { d with active := !d.active } → Gives (.wswap p) s fun t =>
      Frame noRegs [] (((z.setSeq (.pan p) ((z.pn p).seq.issued 1)).unitsNow)) t)
  ∧ (∀ (s : State) (p : Fin 256), s.current (.pan p) 0x04 = none → Gives (.wswap p) s fun t => Frame noRegs [] s t)
  ∧ (∀ (s : State) (p : Fin 256) (w : Word) (y : State), s.current (.pan p) 0x09 = some (w, y) → (y.pn p).jobRun = false →
      Gives (.ctx p) s fun t => t.pn p = { y.pn p with ctx := fld w 57 55, beam := bit w 54, seq := (y.pn p).seq.setup }
      ∧ t.pans = (y.setPn p (t.pn p)).pans ∧ Frame noRegs [.pans] y t)
  ∧ (∀ (s : State) (p : Fin 256) (w : Word) (y : State) (z : State), s.current (.pan p) 0x09 = some (w, y) →
      (y.pn p).jobRun = true → z = y.illegal (.pan p) → Gives (.ctx p) s fun t =>
      Frame noRegs [] ((z.setSeq (.pan p) (z.pn p).seq.setup)) t)
  ∧ (∀ (s : State) (p : Fin 256), s.current (.pan p) 0x09 = none → Gives (.ctx p) s fun t => Frame noRegs [] s t)

/-- BANK switches the bank in use. DRAIN begins the stream of the idle bank to the rake, to promote or to save. FILL takes
the rake's binding for its pan and begins to fill the idle bank; with no binding it counts in NOBIND and runs its time. A
stream or a fill that begins before the last step's result is visible breaches the bank timer. While a stream or fill
runs, each counts in ORDER and does nothing else; so do DRAIN and FILL in a job. What else comes due in the SCLK then
comes (unitsNow). Where the rules leave a choice its clauses rest on the model's, log entries 3, 87, 88, 89, 94, 95 and
103. -/
def Obligations.BanksStreamAndFill : Prop :=
  (∀ (s : State) (p : Fin 256) (w : Word) (y : State) (a : Nat) (z : State), s.current (.pan p) 0x05 = some (w, y) →
      a = (y.pn p).seq.at_ → y.panStreams p a = false → z = y.setPn p { y.pn p with bank := !(y.pn p).bank } →
      Gives (.bank p) s fun t => Frame noRegs [] (((z.setSeq (.pan p) ((z.pn p).seq.issued 1)).unitsNow)) t)
  ∧ (∀ (s : State) (p : Fin 256) (w : Word) (y : State) (a : Nat) (z : State), s.current (.pan p) 0x05 = some (w, y) →
      a = (y.pn p).seq.at_ → y.panStreams p a = true →
      z = ((y.countf R.PAN_ERR p 31 16).raise (panPage p) 2).seqReport (.pan p) → Gives (.bank p) s fun t =>
      Frame noRegs [] (((z.setSeq (.pan p) ((z.pn p).seq.issued 1)).unitsNow)) t)
  ∧ (∀ (s : State) (p : Fin 256), s.current (.pan p) 0x05 = none → Gives (.bank p) s fun t => Frame noRegs [] s t)
  ∧ (∀ (s : State) (p : Fin 256) (w : Word) (y : State) (a : Nat) (x : Nat) (early : Bool) (z1 : State) (z : State),
      s.current (.pan p) 0x06 = some (w, y) → a = (y.pn p).seq.at_ → y.panStreams p a = false → (y.pn p).jobRun = false →
      x = y.hclk (2 * a + 24) → early = decide (x < 2 * (if (y.pn p).bank then (y.pn p).visible0 else (y.pn p).visible1)) →
      z1 = (if early then y.breach R.BR_BANK 3 p else y) →
      z = (z1.setPn p { z1.pn p with busy := x + 3 * 4098 }).setRk (p.val / 4) { z1.rk (p.val / 4) with streams := (z1.rk (p.val / 4)).streams ++ [(p.val % 4, { first := x, save := bit w 57, bank := some (!(y.pn p).bank), early := early })] } →
      Gives (.drain p) s fun t => Frame noRegs [] (((z.setSeq (.pan p) ((z.pn p).seq.issued 1)).unitsNow)) t)
  ∧ (∀ (s : State) (p : Fin 256) (w : Word) (y : State) (a : Nat) (x : Nat) (early : Bool) (z1 : State) (z : State),
      s.current (.pan p) 0x06 = some (w, y) → a = (y.pn p).seq.at_ → y.panStreams p a = false → (y.pn p).jobRun = false →
      x = y.hclk (2 * a + 24) → early = decide (x < 2 * (if (y.pn p).bank then (y.pn p).visible0 else (y.pn p).visible1)) →
      z1 = (if early then y.breach R.BR_BANK 3 p else y) →
      z = (z1.setPn p { z1.pn p with busy := x + 3 * 4098 }).setRk (p.val / 4) { z1.rk (p.val / 4) with streams := (z1.rk (p.val / 4)).streams ++ [(p.val % 4, { first := x, save := bit w 57, bank := some (!(y.pn p).bank), early := early })] } →
      Gives (.drain p) s fun t => Frame noRegs [] (((z.setSeq (.pan p) ((z.pn p).seq.issued 1)).unitsNow)) t)
  ∧ (∀ (s : State) (p : Fin 256) (w : Word) (y : State) (a : Nat) (z : State), s.current (.pan p) 0x06 = some (w, y) →
      a = (y.pn p).seq.at_ → y.panStreams p a = true ∨ (y.pn p).jobRun = true →
      z = ((y.countf R.PAN_ERR p 31 16).raise (panPage p) 2).seqReport (.pan p) → Gives (.drain p) s fun t =>
      Frame noRegs [] (((z.setSeq (.pan p) ((z.pn p).seq.issued 1)).unitsNow)) t)
  ∧ (∀ (s : State) (p : Fin 256), s.current (.pan p) 0x06 = none → Gives (.drain p) s fun t => Frame noRegs [] s t)
  ∧ (∀ (s : State) (p : Fin 256) (w : Word) (y : State) (a : Nat) (x : Nat) (early : Bool) (z1 : State) (z2 : State) (z : State),
      s.current (.pan p) 0x07 = some (w, y) → a = (y.pn p).seq.at_ → y.panStreams p a = false → (y.pn p).jobRun = false →
      x = y.hclk (2 * a + 48) → early = decide (a < (if (y.pn p).bank then (y.pn p).visible0 else (y.pn p).visible1)) →
      z1 = (if early then y.breach R.BR_BANK 3 p else y).rakeNow (p.val / 4) →
      (z1.rk (p.val / 4)).blks.find? (fun b => b.port = p.val % 4 ∧ b.taken = false ∧ b.kind = .fill) = none →
      z2 = z1.countf R.RK_ERR (4 * (p.val / 4)) 47 32 →
      z = z2.setPn p { z2.pn p with filling := x + 3 * 4098, fill := some { t := a, bank := !(y.pn p).bank, blk := none, early := early } } →
      Gives (.fill p) s fun t => Frame noRegs [] (((z.setSeq (.pan p) ((z.pn p).seq.issued 1)).unitsNow)) t)
  ∧ (∀ (s : State) (p : Fin 256) (w : Word) (y : State) (a : Nat) (x : Nat) (early : Bool) (z1 : State) (z2 : State) (z : State) (b : RBlk),
      s.current (.pan p) 0x07 = some (w, y) → a = (y.pn p).seq.at_ → y.panStreams p a = false → (y.pn p).jobRun = false →
      x = y.hclk (2 * a + 48) → early = decide (a < (if (y.pn p).bank then (y.pn p).visible0 else (y.pn p).visible1)) →
      z1 = (if early then y.breach R.BR_BANK 3 p else y).rakeNow (p.val / 4) →
      (z1.rk (p.val / 4)).blks.find? (fun b => b.port = p.val % 4 ∧ b.taken = false ∧ b.kind = .fill) = some b →
      z2 = z1.setBlk (p.val / 4) b.id (some { b with taken := true }) →
      z = z2.setPn p { z2.pn p with filling := x + 3 * 4098, fill := some { t := a, bank := !(y.pn p).bank, blk := some b.id, early := early } } →
      Gives (.fill p) s fun t => Frame noRegs [] (((z.setSeq (.pan p) ((z.pn p).seq.issued 1)).unitsNow)) t)
  ∧ (∀ (s : State) (p : Fin 256) (w : Word) (y : State) (a : Nat) (z : State), s.current (.pan p) 0x07 = some (w, y) →
      a = (y.pn p).seq.at_ → y.panStreams p a = true ∨ (y.pn p).jobRun = true →
      z = ((y.countf R.PAN_ERR p 31 16).raise (panPage p) 2).seqReport (.pan p) → Gives (.fill p) s fun t =>
      Frame noRegs [] (((z.setSeq (.pan p) ((z.pn p).seq.issued 1)).unitsNow)) t)
  ∧ (∀ (s : State) (p : Fin 256), s.current (.pan p) 0x07 = none → Gives (.fill p) s fun t => Frame noRegs [] s t)

/-- FCFG sets a part of an address register. FREAD reads its transfers: of a group without an anchor the zero-weight code
lands and is counted; a transfer that the slot is not budgeted for breaches and lands as poison; another is asked of the
heap. One past offset 15 counts in LATE, breaches and lands poison; one through a register without length is illegal.
FADV steps the outer and the inner index modulo the register's lengths and may set the anchor. FEMIT takes over the
emitter and counts what it cuts off. What else comes due in the SCLK then comes (unitsNow). Where the rules leave a
choice its clauses rest on the model's, log entries 3, 23, 87 and 91. -/
def Obligations.FeedersReadAndEmit : Prop :=
  (∀ (s : State) (i : Fin 32) (w : Word) (y : State) (g : AReg), s.current (.feeder i) 0x10 = some (w, y) →
      g = mget aregDflt (y.fd i).regs (fld w 57 55) → Gives (.fcfg i) s fun t =>
      (fld w 54 52 = 0 → mget aregDflt (t.fd i).regs (fld w 57 55) = { g with base := fld w 51 19, inner := 0, outer := 0, anchor := none })
      ∧ (fld w 54 52 = 1 → mget aregDflt (t.fd i).regs (fld w 57 55) = { g with wrap := fld w 51 19 })
      ∧ (fld w 54 52 = 2 → mget aregDflt (t.fd i).regs (fld w 57 55) = { g with p := fld w 51 19 + 1 })
      ∧ (fld w 54 52 = 3 → mget aregDflt (t.fd i).regs (fld w 57 55) = { g with lag := fld w 51 19 })
      ∧ (fld w 54 52 = 4 → mget aregDflt (t.fd i).regs (fld w 57 55) = { g with ostep := fld w 51 19 })
      ∧ (fld w 54 52 = 5 → mget aregDflt (t.fd i).regs (fld w 57 55) = { g with omod := fld w 51 19 })
      ∧ t.fd i = { y.fd i with regs := mset aregDflt (y.fd i).regs (fld w 57 55) (mget aregDflt (t.fd i).regs (fld w 57 55)), seq := (y.fd i).seq.setup }
      ∧ t.pans = (y.setFd i (t.fd i)).pans ∧ Frame noRegs [.pans] y t)
  ∧ (∀ (s : State) (i : Fin 32), s.current (.feeder i) 0x10 = none → Gives (.fcfg i) s fun t => Frame noRegs [] s t)
  ∧ (∀ (s : State) (i : Fin 32) (w : Word) (y : State) (a : Nat) (g : AReg) (z : State),
      s.current (.feeder i) 0x11 = some (w, y) → a = (y.fd i).seq.at_ → g = mget aregDflt (y.fd i).regs (fld w 57 55) →
      g.wrap = 0 ∨ g.omod = 0 → z = y.illegal (.feeder i) → Gives (.fread i) s fun t =>
      Frame noRegs [] (((z.setSeq (.feeder i) ((z.fd i).seq.issued 1)).unitsNow)) t)
  ∧ (∀ (s : State) (i : Fin 32) (w : Word) (y : State) (a : Nat) (g : AReg) (z1 : State) (z : State),
      s.current (.feeder i) 0x11 = some (w, y) → a = (y.fd i).seq.at_ → g = mget aregDflt (y.fd i).regs (fld w 57 55) →
      0 < g.wrap → 0 < g.omod → a % 256 < 16 → z1 = (List.range (fld w 48 42)).foldl (fun x n => x.readOne i a w g n) y →
      z = z1.setFd i { z1.fd i with regs := mset aregDflt (z1.fd i).regs (fld w 57 55) { g with inner := (g.inner + fld w 48 42) % g.wrap } } →
      Gives (.fread i) s fun t => Frame noRegs [] (((z.setSeq (.feeder i) ((z.fd i).seq.issued 1)).unitsNow)) t)
  ∧ (∀ (s : State) (i : Fin 32) (w : Word) (y : State) (a : Nat) (g : AReg) (z1 : State) (z : State),
      s.current (.feeder i) 0x11 = some (w, y) → a = (y.fd i).seq.at_ → g = mget aregDflt (y.fd i).regs (fld w 57 55) →
      0 < g.wrap → 0 < g.omod → 16 ≤ a % 256 →
      z1 = (List.range (fld w 48 42)).foldl (fun x n => x.feedData i (xferTime (a / 256 * 256) n) ((fld w 41 34 + (if bit w 51 then n else y.specWord * n)) % 256) (if bit w 51 then 8 else fld w 50 49) poisonData true true) ((y.feederCount i 31 16).breach R.BR_HEAP 1 (hPch (g.base * 64) % 512)) →
      z = z1.setFd i { z1.fd i with regs := mset aregDflt (z1.fd i).regs (fld w 57 55) { g with inner := (g.inner + fld w 48 42) % g.wrap } } →
      Gives (.fread i) s fun t => Frame noRegs [] (((z.setSeq (.feeder i) ((z.fd i).seq.issued 1)).unitsNow)) t)
  ∧ (∀ (s : State) (i : Fin 32) (w : Word) (y : State) (a : Nat) (g : AReg) (z1 : State) (z : State),
      s.current (.feeder i) 0x11 = some (w, y) → a = (y.fd i).seq.at_ → g = mget aregDflt (y.fd i).regs (fld w 57 55) →
      0 < g.wrap → 0 < g.omod → a % 256 < 16 → fld w 48 42 = 1 → bit w 51 = false → g.anchor = none →
      z1 = (y.feedData i (xferTime (a / 256 * 256) 0) (fld w 41 34 % 256) (fld w 50 49) (List.replicate 64 (zeroCode y.sampleBits)) false false).feederCount i 15 0 →
      z = z1.setFd i { z1.fd i with regs := mset aregDflt (z1.fd i).regs (fld w 57 55) { g with inner := (g.inner + fld w 48 42) % g.wrap } } →
      Gives (.fread i) s fun t => Frame noRegs [] (((z.setSeq (.feeder i) ((z.fd i).seq.issued 1)).unitsNow)) t)
  ∧ (∀ (s : State) (i : Fin 32) (w : Word) (y : State) (a : Nat) (g : AReg) (z1 : State) (z : State),
      s.current (.feeder i) 0x11 = some (w, y) → a = (y.fd i).seq.at_ → g = mget aregDflt (y.fd i).regs (fld w 57 55) →
      0 < g.wrap → 0 < g.omod → a % 256 < 16 → fld w 48 42 = 1 → bit w 51 = true →
      y.entry 1 i (a / 256 % 4096) ≠ 4096 + 3072 + fld w 54 52 →
      z1 = (y.breach R.BR_HEAP 1 (hPch ((g.base + g.outer + g.inner % g.wrap) * 64) % 512)).feedData i (xferTime (a / 256 * 256) 0) (fld w 41 34 % 256) 8 poisonData true true →
      z = z1.setFd i { z1.fd i with regs := mset aregDflt (z1.fd i).regs (fld w 57 55) { g with inner := (g.inner + fld w 48 42) % g.wrap } } →
      Gives (.fread i) s fun t => Frame noRegs [] (((z.setSeq (.feeder i) ((z.fd i).seq.issued 1)).unitsNow)) t)
  ∧ (∀ (s : State) (i : Fin 32) (w : Word) (y : State) (a : Nat) (g : AReg) (z1 : State) (z : State),
      s.current (.feeder i) 0x11 = some (w, y) → a = (y.fd i).seq.at_ → g = mget aregDflt (y.fd i).regs (fld w 57 55) →
      0 < g.wrap → 0 < g.omod → a % 256 < 16 → fld w 48 42 = 1 → bit w 51 = true →
      y.entry 1 i (a / 256 % 4096) = 4096 + 3072 + fld w 54 52 →
      z1 = y.ask { owner := 512 + i, now := true, write := false, addr := (g.base + g.outer + g.inner % g.wrap) * 64, data := [], dest := .feeder i (fld w 41 34 % 256) 8 } →
      z = z1.setFd i { z1.fd i with regs := mset aregDflt (z1.fd i).regs (fld w 57 55) { g with inner := (g.inner + fld w 48 42) % g.wrap } } →
      Gives (.fread i) s fun t => Frame noRegs [] (((z.setSeq (.feeder i) ((z.fd i).seq.issued 1)).unitsNow)) t)
  ∧ (∀ (s : State) (i : Fin 32), s.current (.feeder i) 0x11 = none → Gives (.fread i) s fun t => Frame noRegs [] s t)
  ∧ (∀ (s : State) (i : Fin 32) (w : Word) (y : State) (a : Nat) (g : AReg) (g1 : AReg) (g2 : AReg),
      s.current (.feeder i) 0x12 = some (w, y) → a = (y.fd i).seq.at_ → g = mget aregDflt (y.fd i).regs (fld w 57 55) →
      0 < g.wrap → bit w 54 = false ∨ 0 < g.omod →
      g1 = { g with outer := if bit w 54 then (g.outer + g.ostep) % g.omod else g.outer, inner := (((g.inner : Int) + sfld w 53 30) % g.wrap).toNat } →
      g2 = (if bit w 29 then (if y.arr a < g.lag then { g1 with anchor := none } else { g1 with anchor := some (((y.arr a).toNat - g.lag) / (y.chanC * g.p * 2 ^ fld w 28 24) * 2 ^ fld w 28 24, y.time.epoch), inner := 0 }) else g1) →
      Gives (.fadv i) s fun t =>
      t.fd i = { y.fd i with regs := mset aregDflt (y.fd i).regs (fld w 57 55) g2, seq := (y.fd i).seq.setup }
      ∧ t.pans = (y.setFd i (t.fd i)).pans ∧ Frame noRegs [.pans] y t)
  ∧ (∀ (s : State) (i : Fin 32) (w : Word) (y : State) (a : Nat) (g : AReg) (g1 : AReg) (g2 : AReg),
      s.current (.feeder i) 0x12 = some (w, y) → a = (y.fd i).seq.at_ → g = mget aregDflt (y.fd i).regs (fld w 57 55) →
      0 < g.wrap → bit w 54 = false ∨ 0 < g.omod →
      g1 = { g with outer := if bit w 54 then (g.outer + g.ostep) % g.omod else g.outer, inner := (((g.inner : Int) + sfld w 53 30) % g.wrap).toNat } →
      g2 = (if bit w 29 then (if y.arr a < g.lag then { g1 with anchor := none } else { g1 with anchor := some (((y.arr a).toNat - g.lag) / (y.chanC * g.p * 2 ^ fld w 28 24) * 2 ^ fld w 28 24, y.time.epoch), inner := 0 }) else g1) →
      Gives (.fadv i) s fun t =>
      t.fd i = { y.fd i with regs := mset aregDflt (y.fd i).regs (fld w 57 55) g2, seq := (y.fd i).seq.setup }
      ∧ t.pans = (y.setFd i (t.fd i)).pans ∧ Frame noRegs [.pans] y t)
  ∧ (∀ (s : State) (i : Fin 32) (w : Word) (y : State) (a : Nat) (g : AReg) (g1 : AReg) (g2 : AReg),
      s.current (.feeder i) 0x12 = some (w, y) → a = (y.fd i).seq.at_ → g = mget aregDflt (y.fd i).regs (fld w 57 55) →
      g.wrap = 0 → bit w 54 = false ∨ 0 < g.omod →
      g1 = { g with outer := if bit w 54 then (g.outer + g.ostep) % g.omod else g.outer, inner := (Config.indexOpen y.free).toNat } →
      g2 = (if bit w 29 then (if y.arr a < g.lag then { g1 with anchor := none } else { g1 with anchor := some (((y.arr a).toNat - g.lag) / (y.chanC * g.p * 2 ^ fld w 28 24) * 2 ^ fld w 28 24, y.time.epoch), inner := 0 }) else g1) →
      Gives (.fadv i) s fun t =>
      t.fd i = { y.fd i with regs := mset aregDflt (y.fd i).regs (fld w 57 55) g2, seq := (y.fd i).seq.setup }
      ∧ t.pans = (y.setFd i (t.fd i)).pans ∧ t.free = y.free + 1 ∧ Frame noRegs [.pans, .free] y t)
  ∧ (∀ (s : State) (i : Fin 32) (w : Word) (y : State) (a : Nat) (g : AReg) (g1 : AReg) (g2 : AReg),
      s.current (.feeder i) 0x12 = some (w, y) → a = (y.fd i).seq.at_ → g = mget aregDflt (y.fd i).regs (fld w 57 55) →
      0 < g.wrap → bit w 54 = true → g.omod = 0 →
      g1 = { g with outer := (Config.indexOpen y.free).toNat, inner := (((g.inner : Int) + sfld w 53 30) % g.wrap).toNat } →
      g2 = (if bit w 29 then (if y.arr a < g.lag then { g1 with anchor := none } else { g1 with anchor := some (((y.arr a).toNat - g.lag) / (y.chanC * g.p * 2 ^ fld w 28 24) * 2 ^ fld w 28 24, y.time.epoch), inner := 0 }) else g1) →
      Gives (.fadv i) s fun t =>
      t.fd i = { y.fd i with regs := mset aregDflt (y.fd i).regs (fld w 57 55) g2, seq := (y.fd i).seq.setup }
      ∧ t.pans = (y.setFd i (t.fd i)).pans ∧ t.free = y.free + 1 ∧ Frame noRegs [.pans, .free] y t)
  ∧ (∀ (s : State) (i : Fin 32) (w : Word) (y : State) (a : Nat) (g : AReg) (g1 : AReg) (g2 : AReg),
      s.current (.feeder i) 0x12 = some (w, y) → a = (y.fd i).seq.at_ → g = mget aregDflt (y.fd i).regs (fld w 57 55) →
      g.wrap = 0 → bit w 54 = true → g.omod = 0 →
      g1 = { g with outer := (Config.indexOpen y.free).toNat, inner := (Config.indexOpen (y.free + 1)).toNat } →
      g2 = (if bit w 29 then (if y.arr a < g.lag then { g1 with anchor := none } else { g1 with anchor := some (((y.arr a).toNat - g.lag) / (y.chanC * g.p * 2 ^ fld w 28 24) * 2 ^ fld w 28 24, y.time.epoch), inner := 0 }) else g1) →
      Gives (.fadv i) s fun t =>
      t.fd i = { y.fd i with regs := mset aregDflt (y.fd i).regs (fld w 57 55) g2, seq := (y.fd i).seq.setup }
      ∧ t.pans = (y.setFd i (t.fd i)).pans ∧ t.free = y.free + 2 ∧ Frame noRegs [.pans, .free] y t)
  ∧ (∀ (s : State) (i : Fin 32), s.current (.feeder i) 0x12 = none → Gives (.fadv i) s fun t => Frame noRegs [] s t)
  ∧ (∀ (s : State) (i : Fin 32) (w : Word) (y : State) (a : Nat) (g : AReg) (z1 : State) (c : Nat) (z : State),
      s.current (.feeder i) 0x13 = some (w, y) → a = (y.fd i).seq.at_ → g = mget aregDflt (y.fd i).regs (fld w 57 55) →
      z1 = y.feedTo i (a - 1) → c = (z1.fd i).emit.elim 0 (fun e => e.count - e.next) →
      z = (z1.setFd i { z1.fd i with emit := some { t := a, e := fld w 57 50, count := fld w 49 41 + 1, addr := fld w 40 30, astep := fld w 29 26, pmask := fld w 25 22, next := 0 } }).feederCount i 47 32 c →
      Gives (.femit i) s fun t => Frame noRegs [] (((z.setSeq (.feeder i) ((z.fd i).seq.issued 1)).unitsNow)) t)
  ∧ (∀ (s : State) (i : Fin 32), s.current (.feeder i) 0x13 = none → Gives (.femit i) s fun t => Frame noRegs [] s t)

/-- PREEMPT and RESUME of PAN_XCMD enter the tide of PAN_XTIDE; at that boundary, and at no other, the pan is preempted with
its state saved, or resumes with it and its weights and operands poison-marked. JOB_START starts the job store at 0,
JOB_ABORT ends the job. OPM_DATA and JOB_DATA write eight bytes and advance the agent's address. Where the rules leave a
choice its clauses rest on the model's, log entries 3, 92, 93, 94 and 95. -/
def Obligations.PreemptionAndJobs : Prop :=
  (∀ (s : State) (a : Agent) (g : Fin 16) (n : Nat) (x : Nat), s.accepts a (0x30 + g.val) R.PAN_XCMD.off 1 = true →
      s.bankOf a (0x30 + g.val) = n → n < 16 → x = 16 * g.val + n → Gives (.panXcmdPreempt a g) s fun t =>
      t.pn x = { s.pn x with prePend := some (s.rd R.PAN_XTIDE x).toNat } ∧ t.pans = (s.setPn x (t.pn x)).pans
      ∧ Frame noRegs [.pans] s t)
  ∧ (∀ (s : State) (p : Fin 256) (d : Nat) (y : State), (s.pn p).prePend = some d → s.atBoundary = true → d = s.time.tide →
      y = s.opsTo p s.imgNow → Gives (.preemptBoundary p) s fun t =>
      t.pn p = { y.pn p with preempted := true, prePend := none, savedBank := (y.pn p).bank, savedCtx := (y.pn p).ctx, savedBeam := (y.pn p).beam }
      ∧ bit (t.hdr (panPage p) hEvt) 3 = true ∧ t.pans = (y.setPn p (t.pn p)).pans
      ∧ Frame (regsIn [regKey 0 (panPage p) 0 hEvt]) [.pans] s t)
  ∧ (∀ (s : State) (p : Fin 256), (s.pn p).prePend = none ∨ s.atBoundary = false ∨ (s.pn p).prePend ≠ some s.time.tide →
      Gives (.preemptBoundary p) s fun t => Frame noRegs [] s t)
  ∧ (∀ (s : State) (a : Agent) (g : Fin 16) (n : Nat) (x : Nat), s.accepts a (0x30 + g.val) R.PAN_XCMD.off 2 = true →
      s.bankOf a (0x30 + g.val) = n → n < 16 → x = 16 * g.val + n → Gives (.panXcmdResume a g) s fun t =>
      t.pn x = { s.pn x with resPend := some (s.rd R.PAN_XTIDE x).toNat } ∧ t.pans = (s.setPn x (t.pn x)).pans
      ∧ Frame noRegs [.pans] s t)
  ∧ (∀ (s : State) (p : Fin 256) (d : Nat) (y : State), (s.pn p).resPend = some d → s.atBoundary = true → d = s.time.tide →
      y = s.opsTo p s.imgNow → Gives (.resumeBoundary p) s fun t => (t.pn p).preempted = false ∧ (t.pn p).resPend = none
      ∧ (t.pn p).bank = (s.pn p).savedBank ∧ (t.pn p).ctx = (s.pn p).savedCtx ∧ (t.pn p).beam = (s.pn p).savedBeam
      ∧ (t.pn p).acc = [] ∧ (t.pn p).incs = [] ∧ (t.pn p).weightsPoison = true ∧ (t.pn p).opm = poisonOps (y.pn p).opm
      ∧ (t.pn p).seq = { (s.pn p).seq with at_ := s.imgNow, halted := false } ∧ (t.pn p).jobs = (s.pn p).jobs
      ∧ bit (t.hdr (panPage p) hEvt) 5 = true ∧ t.pans = (y.setPn p (t.pn p)).pans
      ∧ Frame (regsIn [regKey 0 (panPage p) 0 hEvt]) [.pans] s t)
  ∧ (∀ (s : State) (p : Fin 256), (s.pn p).resPend = none ∨ s.atBoundary = false ∨ (s.pn p).resPend ≠ some s.time.tide →
      Gives (.resumeBoundary p) s fun t => Frame noRegs [] s t)
  ∧ (∀ (s : State) (a : Agent) (g : Fin 16) (n : Nat) (x : Nat), s.accepts a (0x30 + g.val) R.PAN_XCMD.off 4 = true →
      s.bankOf a (0x30 + g.val) = n → n < 16 → x = 16 * g.val + n → Gives (.panXcmdJobStart a g) s fun t =>
      t.pn x = { s.pn x with jobRun := true, jobDone := false, seq := { (s.pn x).seq with pc := 0, at_ := s.imgNow, setups := 0, halted := false } }
      ∧ t.pans = (s.setPn x (t.pn x)).pans ∧ Frame noRegs [.pans] s t)
  ∧ (∀ (s : State) (a : Agent) (g : Fin 16) (n : Nat) (x : Nat), s.accepts a (0x30 + g.val) R.PAN_XCMD.off 8 = true →
      s.bankOf a (0x30 + g.val) = n → n < 16 → x = 16 * g.val + n → Gives (.panXcmdJobAbort a g) s fun t =>
      t.pn x = { s.pn x with jobRun := false } ∧ t.pans = (s.setPn x (t.pn x)).pans ∧ Frame noRegs [.pans] s t)
  ∧ (∀ (s : State) (a : Agent) (g : Fin 16) (v : Word) (n : Nat) (x : Nat) (i : Nat),
      s.accepts a (0x30 + g.val) R.OPM_DATA.off v = true → s.bankOf a (0x30 + g.val) = n → n < 16 → x = 16 * g.val + n →
      i = fld (s.rdAgent R.OPM_ADDR x a) 14 0 → Gives (.opmDataWrite a g v) s fun t =>
      (t.pn x).half (i / 16) (decide (8 ≤ i % 16)) = { data := putBytes ((s.pn x).half (i / 16) (decide (8 ≤ i % 16))).data (8 * (i % 8)) (leBytes 8 v.toNat), poison := false }
      ∧ fld (t.rdAgent R.OPM_ADDR x a) 14 0 = (i + 1) % 32768 ∧ t.pans = (s.setPn x (t.pn x)).pans
      ∧ Frame (regsIn [R.OPM_ADDR.key x 0 (1 + a.code)]) [.pans] s t)
  ∧ (∀ (s : State) (a : Agent) (g : Fin 16) (v : Word) (n : Nat) (x : Nat) (i : Nat),
      s.accepts a (0x30 + g.val) R.JOB_DATA.off v = true → s.bankOf a (0x30 + g.val) = n → n < 16 → x = 16 * g.val + n →
      i = fld (s.rdAgent R.JOB_ADDR x a) 7 0 → Gives (.jobDataWrite a g v) s fun t => mget (fun _ => 0) (t.pn x).jobs i = v
      ∧ fld (t.rdAgent R.JOB_ADDR x a) 7 0 = (i + 1) % 256 ∧ t.pans = (s.setPn x (t.pn x)).pans
      ∧ Frame (regsIn [R.JOB_ADDR.key x 0 (1 + a.code)]) [.pans] s t)

/-- RBIND makes a block of its register's place with its reads queued, or in a faulted rake only its binding; one more than
the read queue holds faults the rake; one through a register without span, or a third of its port, is illegal. RCFG sets
a part of an address register and shows the dump pointer. RXFER takes reads from the head of the read queue and writes
from the head of the write buffer into its slot, and past offset 15 is illegal. When a stream ends, a promote block whose
totals are done writes its record, and a save block without room writes transfer 0 with VALID = 0; a port whose binding
no stream serves takes poison. When the rake's next instruction is another, nothing happens. Where the rules leave a
choice its clauses rest on the model's, log entries 3, 96, 98, 99, 100, 103, 104, 105, 107, 108 and 264. -/
def Obligations.RakesBindAndTransfer : Prop :=
  (∀ (s : State) (k : Fin 64) (w : Word) (x : State) (y : State) (r : Rake) (g : RReg) (nr : Nat) (nc : Nat) (tri : Bool) (kd : BindKind) (whole : Bool) (u : Nat) (z : Nat) (e : RBlk) (rq : List RRead) (rs : Map RReg),
      s.current (.rake k) 0x20 = some (w, x) → y = x.rakeNow k → r = y.rk k → g = mget rregDflt r.regs (fld w 53 51) →
      0 < g.span → fld w 55 54 = 3 ∨ r.pending (fld w 57 56) < 2 →
      y.usefulShape (4 * k.val + fld w 57 56) (fld w 50 47) = (nr, nc, tri) →
      kd = (if fld w 55 54 = 0 then BindKind.promote else if fld w 55 54 = 1 then .save else if fld w 55 54 = 2 then .fill else .flush) →
      whole = (kd == .save || kd == .fill) → u = (if whole then 0 else usefulCount nr nc tri) →
      z = (if whole then 521 else if u = 0 then 0 else 1 + (u + 3) / 4) →
      e = { id := r.nextId, port := fld w 57 56, kind := kd, sigma := fld w 50 47, q := fld w 46 27, base := g.base, ptr := g.ptr, span := g.span, nr := nr, nc := nc, tri := tri, u := u, z := z, taken := kd == .flush, set := y.accSet } →
      rq = (if kd = .save then [] else (List.range z).map (fun i => { blk := r.nextId, idx := i, addr := ringPlace g.base g.ptr g.span i })) →
      rs = (if kd = .save then mset rregDflt r.regs (fld w 53 51) { g with ptr := (g.ptr + 521) % 2 ^ 33 } else r.regs) →
      r.fault = false → kd ≠ .flush ∨ 0 < z → r.rq.length + rq.length ≤ 8192 → Gives (.rbind k) s fun t =>
      t.rk k = { r with nextId := r.nextId + 1, regs := rs, blks := r.blks ++ [e], rq := r.rq ++ rq, seq := r.seq.setup }
      ∧ Frame noRegs [] ((y.setRk k (t.rk k))) t)
  ∧ (∀ (s : State) (k : Fin 64) (w : Word) (x : State) (y : State) (r : Rake) (g : RReg) (nr : Nat) (nc : Nat) (tri : Bool) (kd : BindKind) (whole : Bool) (u : Nat) (z : Nat) (e : RBlk) (rq : List RRead) (rs : Map RReg),
      s.current (.rake k) 0x20 = some (w, x) → y = x.rakeNow k → r = y.rk k → g = mget rregDflt r.regs (fld w 53 51) →
      0 < g.span → fld w 55 54 = 3 ∨ r.pending (fld w 57 56) < 2 →
      y.usefulShape (4 * k.val + fld w 57 56) (fld w 50 47) = (nr, nc, tri) →
      kd = (if fld w 55 54 = 0 then BindKind.promote else if fld w 55 54 = 1 then .save else if fld w 55 54 = 2 then .fill else .flush) →
      whole = (kd == .save || kd == .fill) → u = (if whole then 0 else usefulCount nr nc tri) →
      z = (if whole then 521 else if u = 0 then 0 else 1 + (u + 3) / 4) →
      e = { id := r.nextId, port := fld w 57 56, kind := kd, sigma := fld w 50 47, q := fld w 46 27, base := g.base, ptr := g.ptr, span := g.span, nr := nr, nc := nc, tri := tri, u := u, z := z, taken := kd == .flush, set := y.accSet } →
      rq = (if kd = .save then [] else (List.range z).map (fun i => { blk := r.nextId, idx := i, addr := ringPlace g.base g.ptr g.span i })) →
      rs = (if kd = .save then mset rregDflt r.regs (fld w 53 51) { g with ptr := (g.ptr + 521) % 2 ^ 33 } else r.regs) →
      kd = .flush → z = 0 → Gives (.rbind k) s fun t => t.rk k = { r with nextId := r.nextId + 1, seq := r.seq.setup }
      ∧ Frame noRegs [] ((y.setRk k (t.rk k))) t)
  ∧ (∀ (s : State) (k : Fin 64) (w : Word) (x : State) (y : State) (r : Rake) (g : RReg) (nr : Nat) (nc : Nat) (tri : Bool) (kd : BindKind) (whole : Bool) (u : Nat) (z : Nat) (e : RBlk) (rq : List RRead) (rs : Map RReg),
      s.current (.rake k) 0x20 = some (w, x) → y = x.rakeNow k → r = y.rk k → g = mget rregDflt r.regs (fld w 53 51) →
      0 < g.span → fld w 55 54 = 3 ∨ r.pending (fld w 57 56) < 2 →
      y.usefulShape (4 * k.val + fld w 57 56) (fld w 50 47) = (nr, nc, tri) →
      kd = (if fld w 55 54 = 0 then BindKind.promote else if fld w 55 54 = 1 then .save else if fld w 55 54 = 2 then .fill else .flush) →
      whole = (kd == .save || kd == .fill) → u = (if whole then 0 else usefulCount nr nc tri) →
      z = (if whole then 521 else if u = 0 then 0 else 1 + (u + 3) / 4) →
      e = { id := r.nextId, port := fld w 57 56, kind := kd, sigma := fld w 50 47, q := fld w 46 27, base := g.base, ptr := g.ptr, span := g.span, nr := nr, nc := nc, tri := tri, u := u, z := z, taken := kd == .flush, set := y.accSet } →
      rq = (if kd = .save then [] else (List.range z).map (fun i => { blk := r.nextId, idx := i, addr := ringPlace g.base g.ptr g.span i })) →
      rs = (if kd = .save then mset rregDflt r.regs (fld w 53 51) { g with ptr := (g.ptr + 521) % 2 ^ 33 } else r.regs) →
      r.fault = true → kd ≠ .flush ∨ 0 < z → Gives (.rbind k) s fun t =>
      t.rk k = { r with nextId := r.nextId + 1, regs := (if kd = .flush then r.regs else rs), blks := (if kd = .flush then r.blks else r.blks ++ [e]), seq := r.seq.setup }
      ∧ Frame noRegs [] ((y.setRk k (t.rk k))) t)
  ∧ (∀ (s : State) (k : Fin 64) (w : Word) (x : State) (y : State) (r : Rake) (g : RReg) (nr : Nat) (nc : Nat) (tri : Bool) (kd : BindKind) (whole : Bool) (u : Nat) (z : Nat) (e : RBlk) (rq : List RRead) (rs : Map RReg) (v : State),
      s.current (.rake k) 0x20 = some (w, x) → y = x.rakeNow k → r = y.rk k → g = mget rregDflt r.regs (fld w 53 51) →
      0 < g.span → fld w 55 54 = 3 ∨ r.pending (fld w 57 56) < 2 →
      y.usefulShape (4 * k.val + fld w 57 56) (fld w 50 47) = (nr, nc, tri) →
      kd = (if fld w 55 54 = 0 then BindKind.promote else if fld w 55 54 = 1 then .save else if fld w 55 54 = 2 then .fill else .flush) →
      whole = (kd == .save || kd == .fill) → u = (if whole then 0 else usefulCount nr nc tri) →
      z = (if whole then 521 else if u = 0 then 0 else 1 + (u + 3) / 4) →
      e = { id := r.nextId, port := fld w 57 56, kind := kd, sigma := fld w 50 47, q := fld w 46 27, base := g.base, ptr := g.ptr, span := g.span, nr := nr, nc := nc, tri := tri, u := u, z := z, taken := kd == .flush, set := y.accSet } →
      rq = (if kd = .save then [] else (List.range z).map (fun i => { blk := r.nextId, idx := i, addr := ringPlace g.base g.ptr g.span i })) →
      rs = (if kd = .save then mset rregDflt r.regs (fld w 53 51) { g with ptr := (g.ptr + 521) % 2 ^ 33 } else r.regs) →
      r.fault = false → 8192 < r.rq.length + rq.length →
      v = y.setRk k { r with nextId := r.nextId + 1, regs := rs, blks := (r.blks ++ [e]).filter (fun b => b.stream.isNone && b.kind != .flush), rq := [], fault := true, lostAll := true } →
      Gives (.rbind k) s fun t => v.reports t (0x40 + k.val / 8) (4 * (k.val % 8)) 0x13 (v.rkStat k) 0
      ∧ Frame (regsIn reportKeys) [.bitt] ((v.setSeq (.rake k) r.seq.setup)) t)
  ∧ (∀ (s : State) (k : Fin 64) (w : Word) (x : State) (y : State) (r : Rake) (g : RReg) (z : State),
      s.current (.rake k) 0x20 = some (w, x) → y = x.rakeNow k → r = y.rk k → g = mget rregDflt r.regs (fld w 53 51) →
      g.span = 0 ∨ (fld w 55 54 ≠ 3 ∧ 2 ≤ r.pending (fld w 57 56)) → z = y.illegal (.rake k) → Gives (.rbind k) s fun t =>
      Frame noRegs [] ((z.setSeq (.rake k) ((z.rk k).seq.issued 1))) t)
  ∧ (∀ (s : State) (k : Fin 64), s.current (.rake k) 0x20 = none → Gives (.rbind k) s fun t => Frame noRegs [] s t)
  ∧ (∀ (s : State) (k : Fin 64) (w : Word) (y : State) (g : RReg) (g1 : RReg), s.current (.rake k) 0x21 = some (w, y) →
      fld w 57 55 = 7 → g = mget rregDflt (y.rk k).regs (fld w 57 55) →
      g1 = (if fld w 54 53 = 0 then { g with base := fld w 52 20, ptr := 0 } else if fld w 54 53 = 1 then { g with span := fld w 52 20 } else { g with ptr := fld w 52 20 }) →
      Gives (.rcfg k) s fun t => t.rd R.RK_DUMP_PTR (4 * k) = word g1.ptr
      ∧ t.rk k = { y.rk k with regs := mset rregDflt (y.rk k).regs (fld w 57 55) g1, seq := (y.rk k).seq.setup }
      ∧ t.pans = (y.setRk k (t.rk k)).pans ∧ Frame (regsIn [R.RK_DUMP_PTR.key (4 * k)]) [.pans] y t)
  ∧ (∀ (s : State) (k : Fin 64) (w : Word) (y : State) (g : RReg) (g1 : RReg), s.current (.rake k) 0x21 = some (w, y) →
      fld w 57 55 ≠ 7 → g = mget rregDflt (y.rk k).regs (fld w 57 55) →
      g1 = (if fld w 54 53 = 0 then { g with base := fld w 52 20, ptr := 0 } else if fld w 54 53 = 1 then { g with span := fld w 52 20 } else { g with ptr := fld w 52 20 }) →
      Gives (.rcfg k) s fun t =>
      t.rk k = { y.rk k with regs := mset rregDflt (y.rk k).regs (fld w 57 55) g1, seq := (y.rk k).seq.setup }
      ∧ t.pans = (y.setRk k (t.rk k)).pans ∧ Frame noRegs [.pans] y t)
  ∧ (∀ (s : State) (k : Fin 64), s.current (.rake k) 0x21 = none → Gives (.rcfg k) s fun t => Frame noRegs [] s t)
  ∧ (∀ (s : State) (k : Fin 64) (w : Word) (x : State) (y : State) (a : Nat) (z : State),
      s.current (.rake k) 0x22 = some (w, x) → y = x.rakeNow k → a = (y.rk k).seq.at_ → 16 ≤ a % 256 →
      z = y.illegal (.rake k) → Gives (.rxfer k) s fun t =>
      Frame noRegs [] (((z.setSeq (.rake k) ((z.rk k).seq.issued 1)).unitsNow)) t)
  ∧ (∀ (s : State) (k : Fin 64) (w : Word) (x : State) (y : State) (a : Nat), s.current (.rake k) 0x22 = some (w, x) →
      y = x.rakeNow k → a = (y.rk k).seq.at_ → a % 256 < 16 → (y.rk k).fault = true → Gives (.rxfer k) s fun t =>
      Frame noRegs [] (((y.setSeq (.rake k) ((y.rk k).seq.issued 1)).unitsNow)) t)
  ∧ (∀ (s : State) (k : Fin 64) (w : Word) (x : State) (y : State) (a : Nat) (z : State),
      s.current (.rake k) 0x22 = some (w, x) → y = x.rakeNow k → a = (y.rk k).seq.at_ → a % 256 < 16 →
      (y.rk k).fault = false → bit w 57 = true → z = y.takeWrites k a (fld w 56 50) → Gives (.rxfer k) s fun t =>
      Frame noRegs [] (((z.setSeq (.rake k) ((z.rk k).seq.issued 1)).unitsNow)) t)
  ∧ (∀ (s : State) (k : Fin 64) (w : Word) (x : State) (y : State) (a : Nat) (z : State),
      s.current (.rake k) 0x22 = some (w, x) → y = x.rakeNow k → a = (y.rk k).seq.at_ → a % 256 < 16 →
      (y.rk k).fault = false → bit w 57 = false → z = y.takeReads k a (fld w 56 50) → Gives (.rxfer k) s fun t =>
      Frame noRegs [] (((z.setSeq (.rake k) ((z.rk k).seq.issued 1)).unitsNow)) t)
  ∧ (∀ (s : State) (k : Fin 64) (w : Word) (x : State) (y : State) (a : Nat) (v : RWrite) (rest : List RWrite) (z : State),
      s.current (.rake k) 0x22 = some (w, x) → y = x.rakeNow k → a = (y.rk k).seq.at_ → a % 256 < 16 →
      (y.rk k).fault = false → fld w 56 50 = 1 → bit w 57 = true → (y.rk k).wq = v :: rest →
      v.ready ≤ y.slotH0 a + 3 * (20 + 2 * y.rakeRank k v.addr true) →
      z = (y.setRk k { y.rk k with wq := rest }).ask { owner := 1024 + k, now := true, write := true, addr := v.addr, data := v.data, dest := (match v.header with | some n => .dumpHeader k v.addr n | none => .rakeWrite k) } →
      Gives (.rxfer k) s fun t => Frame noRegs [] (((z.setSeq (.rake k) ((z.rk k).seq.issued 1)).unitsNow)) t)
  ∧ (∀ (s : State) (k : Fin 64) (w : Word) (x : State) (y : State) (a : Nat) (v : RWrite) (rest : List RWrite),
      s.current (.rake k) 0x22 = some (w, x) → y = x.rakeNow k → a = (y.rk k).seq.at_ → a % 256 < 16 →
      (y.rk k).fault = false → bit w 57 = true → (y.rk k).wq = v :: rest →
      y.slotH0 a + 3 * (20 + 2 * y.rakeRank k v.addr true) < v.ready → Gives (.rxfer k) s fun t =>
      Frame noRegs [] (((y.setSeq (.rake k) ((y.rk k).seq.issued 1)).unitsNow)) t)
  ∧ (∀ (s : State) (k : Fin 64) (w : Word) (x : State) (y : State) (a : Nat), s.current (.rake k) 0x22 = some (w, x) →
      y = x.rakeNow k → a = (y.rk k).seq.at_ → a % 256 < 16 → (y.rk k).fault = false →
      (if bit w 57 then (y.rk k).wq.isEmpty else (y.rk k).rq.isEmpty) = true → Gives (.rxfer k) s fun t =>
      Frame noRegs [] (((y.setSeq (.rake k) ((y.rk k).seq.issued 1)).unitsNow)) t)
  ∧ (∀ (s : State) (k : Fin 64) (w : Word) (x : State) (y : State) (a : Nat) (v : RRead) (rest : List RRead),
      s.current (.rake k) 0x22 = some (w, x) → y = x.rakeNow k → a = (y.rk k).seq.at_ → a % 256 < 16 →
      (y.rk k).fault = false → bit w 57 = false → (y.rk k).rq = v :: rest → (y.rk k).readHeld v = true →
      Gives (.rxfer k) s fun t => Frame noRegs [] (((y.setSeq (.rake k) ((y.rk k).seq.issued 1)).unitsNow)) t)
  ∧ (∀ (s : State) (k : Fin 64) (w : Word) (x : State) (y : State) (a : Nat) (v : RRead) (rest : List RRead) (z : State),
      s.current (.rake k) 0x22 = some (w, x) → y = x.rakeNow k → a = (y.rk k).seq.at_ → a % 256 < 16 →
      (y.rk k).fault = false → bit w 57 = false → (y.rk k).rq = v :: rest → fld w 56 50 = 1 → (y.rk k).readHeld v = false →
      (y.rk k).wq.all (fun q => q.addr != v.addr * 64) = true →
      z = (y.setRk k { y.rk k with rq := rest, blks := (y.rk k).blks.map fun b => if b.id = v.blk then { b with asked := b.asked + 1 } else b }).ask { owner := 1024 + k, now := true, write := false, addr := v.addr * 64, data := [], dest := .rake k v.blk v.idx } →
      Gives (.rxfer k) s fun t => Frame noRegs [] (((z.setSeq (.rake k) ((z.rk k).seq.issued 1)).unitsNow)) t)
  ∧ (∀ (s : State) (k : Fin 64) (w : Word) (x : State) (y : State) (a : Nat) (v : RRead) (rest : List RRead) (q : RWrite) (z : State),
      s.current (.rake k) 0x22 = some (w, x) → y = x.rakeNow k → a = (y.rk k).seq.at_ → a % 256 < 16 →
      (y.rk k).fault = false → bit w 57 = false → (y.rk k).rq = v :: rest → fld w 56 50 = 1 → (y.rk k).readHeld v = false →
      (y.rk k).wq = [q] → q.addr = v.addr * 64 →
      z = (y.setRk k { y.rk k with rq := rest, blks := (y.rk k).blks.map fun b => if b.id = v.blk then { b with asked := b.asked + 1 } else b }).rakeGot k v.blk v.idx (max q.ready (y.slotH0 a + 3 * (27 + 2 * y.rakeRank k (v.addr * 64) false))) q.data false →
      Gives (.rxfer k) s fun t => Frame noRegs [] (((z.setSeq (.rake k) ((z.rk k).seq.issued 1)).unitsNow)) t)
  ∧ (∀ (s : State) (k : Fin 64), s.current (.rake k) 0x22 = none → Gives (.rxfer k) s fun t => Frame noRegs [] s t)
  ∧ (∀ (s : State) (k : Fin 64) (n : Fin 4) (h : Nat), s.portStream k n = some h → Gives (.rakeStreamEnd k n) s fun t =>
      Frame noRegs [] (((s.toImg (h / 2)).unitsNow)) t)
  ∧ (∀ (s : State) (k : Fin 64) (n : Fin 4) (r : Rake) (e : RBlk) (st : Stream) (i : Intake), s.dma = {} → s.net.port = [] →
      s.links = {} → s.pans = { rake := [(k.val, r)] } → r.land = [] → r.streams = [(n.val, st)] → st.next = 4098 →
      st.bank = none → st.blk = some e.id → r.blks = [e] → e.stream = some i → st.first + 3 * 4098 ≤ 2 * s.imgNow + 1 →
      e.kind = .save → e.resv = 0 → Gives (.rakeStreamEnd k n) s fun t => (t.rk k).blks = [] ∧ (t.rk k).streams = []
      ∧ (t.rk k).wq = r.wq ++ [{ addr := e.place 0, data := wordsXfer [0, 0, 0, 0, word i.tide, 0, 0, 0], header := none, ready := st.first + 3 * 4098 }]
      ∧ Frame noRegs [.pans] s t)
  ∧ (∀ (s : State) (k : Fin 64) (n : Fin 4) (r : Rake) (e : RBlk) (st : Stream) (i : Intake) (e1 : RBlk) (d : DumpCfg),
      s.dma = {} → s.net.port = [] → s.links = {} → s.pans = { rake := [(k.val, r)] } → r.land = [] →
      r.streams = [(n.val, st)] → st.next = 4098 → st.bank = none → st.blk = some e.id → r.blks = [e] → e.stream = some i →
      st.first + 3 * 4098 ≤ 2 * s.imgNow + 1 → e.kind = .promote → e.action = some .add → e.runs = [] → e.out = [] →
      e.dump = none → 0 < e.z →
      e1 = { e with arrived := 4099, ended := true, stream := some { i with trailer := { i.trailer with zcol := 0 } } } →
      d = (s.setRk k { r with streams := [], blks := [e1] }).dumpCfg k e1 → Gives (.rakeStreamEnd k n) s fun t =>
      (t.rk k).blks = [] ∧ (t.rk k).streams = []
      ∧ (t.rk k).wq = r.wq ++ [{ addr := e.place 0, data := wordsXfer (e1.newRecord d { i with trailer := { i.trailer with zcol := 0 } }), header := none, ready := st.first + 3 * 4098 + 15 }]
      ∧ Frame noRegs [.pans] s t)
  ∧ (∀ (s : State) (k : Fin 64) (n : Fin 4) (e : RBlk) (v : State), s.portStream k n = none →
      (s.rk k).blks.find? (fun b => b.port = n.val ∧ b.taken = false ∧ (b.kind = .promote ∨ b.kind = .save)) = some e →
      v = s.setRk k { s.rk k with streams := (s.rk k).streams ++ [(n.val, { first := 2 * s.imgNow - 3 * 4098, save := e.kind == .save, bank := none, early := false })] } →
      Gives (.rakeStreamEnd k n) s fun t => Frame noRegs [] ((v.rakeNow k)) t)
  ∧ (∀ (s : State) (k : Fin 64) (n : Fin 4), s.portStream k n = none →
      (s.rk k).blks.find? (fun b => b.port = n.val ∧ b.taken = false ∧ (b.kind = .promote ∨ b.kind = .save)) = none →
      Gives (.rakeStreamEnd k n) s fun t => Frame noRegs [] s t)
  ∧ (∀ (s : State) (p : Producer) (x : Nat × Nat × Nat) (y : State), s.pans.blocks.find? (fun y => y.1 = p.code) = some x →
      y = { s with pans := { s.pans with blocks := s.pans.blocks.erase x } } → Gives (.blockNotify p) s fun t =>
      Frame noRegs [] (((List.range 32).foldl State.readNext (y.notice (p.code / 64) (p.code % 64) x.2.1 x.2.2))) t)
  ∧ (∀ (s : State) (p : Producer) (x : Nat × Nat × Nat), s.pans.blocks.find? (fun y => y.1 = p.code) = some x →
      (List.range 512).all (fun i => !(bit (s.rd R.OUT_SRC (i / 16) (i % 16)) 7 && 64 * fld (s.rd R.OUT_SRC (i / 16) (i % 16)) 15 14 + fld (s.rd R.OUT_SRC (i / 16) (i % 16)) 13 8 == p.code)) = true →
      (List.range 32).all (fun e => (s.port e).order.isEmpty) = true → Gives (.blockNotify p) s fun t =>
      t.pans = { s.pans with blocks := s.pans.blocks.erase x } ∧ Frame noRegs [.pans] s t)
  ∧ (∀ (s : State) (p : Producer) (x : Nat × Nat × Nat) (e : Fin 32) (k : Fin 16) (o : Fragment),
      s.pans.blocks.find? (fun y => y.1 = p.code) = some x →
      (List.range 512).filter (fun i => bit (s.rd R.OUT_SRC (i / 16) (i % 16)) 7 && 64 * fld (s.rd R.OUT_SRC (i / 16) (i % 16)) 15 14 + fld (s.rd R.OUT_SRC (i / 16) (i % 16)) 13 8 == p.code) = [16 * e.val + k.val] →
      (List.range 32).all (fun j => (s.port j).order.isEmpty) = true → (s.port e).reading = some o →
      Gives (.blockNotify p) s fun t =>
      (t.port e).order = [{ src := k.val, seq := (s.src e k).blockSeq, addr := x.2.1, len := x.2.2, kind := fld (s.rd R.OUT_SRC e k) 15 14 + 1 }]
      ∧ (t.src e k).blockSeq = ((s.src e k).blockSeq + 1) % 2 ^ 32 ∧ t.pans = { s.pans with blocks := s.pans.blocks.erase x }
      ∧ Frame noRegs [.pans, .net] s t)
  ∧ (∀ (s : State) (p : Producer), s.pans.blocks.find? (fun y => y.1 = p.code) = none → Gives (.blockNotify p) s fun t =>
      Frame noRegs [] s t)

/-- A commit of WT_SEL enters it for the next boundary. An output of a resampling unit is formed once its spectra have come,
and takes its transfers at RS_PTR of its row's ring and room in the writer's buffer; without room it is dropped and
counted. One formed before, one of a failed unit or of no channel, and one whose spectra have not come, are not formed.
Where the rules leave a choice its clauses rest on the model's, log entries 3, 22, 112, 113, 114 and 115. -/
def Obligations.BeamWeightsAndResampling : Prop :=
  (∀ (s : State) (a : Agent) (v : Word), s.accepts a 0x30 R.WT_SEL.off (setBit v 0) = true →
      Gives (.wtSelCommit a v) s fun t => t.rd R.WT_SEL = setBit v 0
      ∧ t.fab.commits = s.fab.commits ++ [{ set := .wtSel, wait := 1 + b2n (s.slot == 4095) }]
      ∧ Frame (regsIn [R.WT_SEL.key 0]) [.fab] s t)
  ∧ (∀ (s : State) (u : Fin 256) (n : Nat) (nu : Nat) (w : Word) (r : Nat) (c : Nat), opWord (s.sluProg u) 5 = some w →
      s.rsRow u = some r → (s.sluUnit u).bad = false → nu < s.chanC →
      mget (fun _ => 0) s.slu.rsDone (4096 * u.val + nu) ≤ n →
      (List.range (s.rsSlots u)).all (fun m => (s.rsTap u m nu (shrEven (n * fld w 47 0 : Nat) 20 / 4096 + 8)).isSome) = true →
      c = (if s.rdf R.BF_RS (16 * r) 5 4 = 1 then 1 else 3) → (s.bm r).buf + c ≤ 256 → 0 < (s.rd R.RS_SPAN (16 * r)).toNat →
      Gives (.resampleOutput u n nu) s fun t => mget (fun _ => 0) t.slu.rsDone (4096 * u.val + nu) = n + 1
      ∧ t.slu = { s.slu with rsDone := mset (fun _ => 0) s.slu.rsDone (4096 * u.val + nu) (n + 1) }
      ∧ t.rd R.RS_PTR (16 * r) = word (((s.rd R.RS_PTR (16 * r)).toNat + c) % (s.rd R.RS_SPAN (16 * r)).toNat)
      ∧ (t.bm r).buf = (s.bm r).buf + c ∧ t.pans = (s.setBm r (t.bm r)).pans
      ∧ Frame (regsIn [R.RS_PTR.key (16 * r)]) [.slu, .pans, .heap] s t)
  ∧ (∀ (s : State) (u : Fin 256) (n : Nat) (nu : Nat) (w : Word) (r : Nat) (c : Nat), opWord (s.sluProg u) 5 = some w →
      s.rsRow u = some r → (s.sluUnit u).bad = false → nu < s.chanC →
      mget (fun _ => 0) s.slu.rsDone (4096 * u.val + nu) ≤ n →
      (List.range (s.rsSlots u)).all (fun m => (s.rsTap u m nu (shrEven (n * fld w 47 0 : Nat) 20 / 4096 + 8)).isSome) = true →
      c = (if s.rdf R.BF_RS (16 * r) 5 4 = 1 then 1 else 3) → (s.bm r).buf + c ≤ 256 → s.rd R.RS_SPAN (16 * r) = 0 →
      Gives (.resampleOutput u n nu) s fun t => mget (fun _ => 0) t.slu.rsDone (4096 * u.val + nu) = n + 1
      ∧ t.slu = { s.slu with rsDone := mset (fun _ => 0) s.slu.rsDone (4096 * u.val + nu) (n + 1) }
      ∧ t.rd R.RS_PTR (16 * r) = word (((s.rd R.RS_PTR (16 * r)).toNat + c) % 2 ^ 33) ∧ t.free = s.free + 1
      ∧ (t.bm r).buf = (s.bm r).buf + c ∧ t.pans = (s.setBm r (t.bm r)).pans
      ∧ Frame (regsIn [R.RS_PTR.key (16 * r)]) [.slu, .pans, .heap, .free] s t)
  ∧ (∀ (s : State) (u : Fin 256) (n : Nat) (nu : Nat) (w : Word) (r : Nat) (c : Nat), opWord (s.sluProg u) 5 = some w →
      s.rsRow u = some r → (s.sluUnit u).bad = false → nu < s.chanC →
      mget (fun _ => 0) s.slu.rsDone (4096 * u.val + nu) ≤ n →
      (List.range (s.rsSlots u)).all (fun m => (s.rsTap u m nu (shrEven (n * fld w 47 0 : Nat) 20 / 4096 + 8)).isSome) = true →
      c = (if s.rdf R.BF_RS (16 * r) 5 4 = 1 then 1 else 3) → 256 < (s.bm r).buf + c →
      Gives (.resampleOutput u n nu) s fun t => mget (fun _ => 0) t.slu.rsDone (4096 * u.val + nu) = n + 1
      ∧ t.slu = { s.slu with rsDone := mset (fun _ => 0) s.slu.rsDone (4096 * u.val + nu) (n + 1) }
      ∧ t.rdf R.BF_VB_ERR (16 * r) 31 16 = min (s.rdf R.BF_VB_ERR (16 * r) 31 16 + 1) 65535
      ∧ ((s.bm r).vbTide = some s.time.tide → Frame (regsIn [R.BF_VB_ERR.key (16 * r)]) [.slu] s t)
      ∧ ((s.bm r).vbTide ≠ some s.time.tide → s.reports t (0x30 + r) 0 0x14 (s.rd R.BF_PS_ERR (16 * r)) (t.rd R.BF_VB_ERR (16 * r)))
      ∧ t.pans = (s.setBm r { s.bm r with vbTide := some s.time.tide }).pans
      ∧ Frame (regsIn (R.BF_VB_ERR.key (16 * r) :: reportKeys)) [.slu, .pans, .bitt] s t)
  ∧ (∀ (s : State) (u : Fin 256) (n : Nat) (nu : Nat),
      opWord (s.sluProg u) 5 = none ∨ s.rsRow u = none ∨ (s.sluUnit u).bad = true ∨ s.chanC ≤ nu ∨ n < mget (fun _ => 0) s.slu.rsDone (4096 * u.val + nu) →
      Gives (.resampleOutput u n nu) s fun t => Frame noRegs [] s t)
  ∧ (∀ (s : State) (u : Fin 256) (n : Nat) (nu : Nat) (w : Word), opWord (s.sluProg u) 5 = some w →
      (List.range (s.rsSlots u)).all (fun m => (s.rsTap u m nu (shrEven (n * fld w 47 0 : Nat) 20 / 4096 + 8)).isSome) = false →
      Gives (.resampleOutput u n nu) s fun t => Frame noRegs [] s t)

/-- A STARTING port whose link comes up is ACTIVE, and an ACTIVE one that loses it starts again with its event. Each received
frame's code words are counted, and each check that it fails counts it in its own field: no room, a bad code word, too
short, too long, a wrong FCS, a pause frame, no filter and no default ring, a filter that drops. One for a ring that is
off, full or of smaller buffers is counted at the ring; else it is allocated its entry and its writes are asked. LPI is
entered with nothing to send and left when there is; the peer's LPI shows in its own bit. Where the rules leave a choice
its clauses rest on the model's, log entries 3, 16, 116, 117, 118, 119, 125, 126, 127, 272, 273 and 274. -/
def Obligations.PortsTakeFrames : Prop :=
  (∀ (s : State) (e : Fin 32) (eee : Bool), s.ethState e = 1 → s.rdb R.ETH_STAT e 13 = false →
      Gives (.ethLinkUp e eee) s fun t => t.ethState e = 3 ∧ t.rdb R.ETH_STAT e 10 = (eee && s.rdb R.ETH_CFG e 32)
      ∧ t.rdf R.ETH_STAT e 9 8 = 3 ∧ bit (t.hdr (ethPage e) hEvt) 0 = true
      ∧ Frame (regsIn [R.ETH_STAT.key e, regKey 0 (ethPage e) 0 hEvt]) [] s t)
  ∧ (∀ (s : State) (e : Fin 32) (eee : Bool), s.ethState e ≠ 1 ∨ s.rdb R.ETH_STAT e 13 = true →
      Gives (.ethLinkUp e eee) s fun t => Frame noRegs [] s t)
  ∧ (∀ (s : State) (e : Fin 32), s.ethState e = 3 → Gives (.ethLinkDown e) s fun t => t.ethState e = 1
      ∧ t.rdf R.ETH_STAT e 12 8 = 0 ∧ bit (t.hdr (ethPage e) hEvt) 1 = true
      ∧ Frame (regsIn [R.ETH_STAT.key e, regKey 0 (ethPage e) 0 hEvt]) [] s t)
  ∧ (∀ (s : State) (e : Fin 32), s.ethState e ≠ 3 → Gives (.ethLinkDown e) s fun t => Frame noRegs [] s t)
  ∧ (∀ (s : State) (e : Fin 32) (x : List Byte) (o : FrameObs) (y : State), s.ethState e = 3 →
      y = (if s.rdb R.ETH_STAT e 12 then ((s.count R.FEC_CORR e o.corrected.toNat).count R.FEC_UNCORR e o.uncorrectable.toNat).wrb R.ETH_STAT e 12 false else (s.count R.FEC_CORR e o.corrected.toNat).count R.FEC_UNCORR e o.uncorrectable.toNat) →
      262144 < (y.port e).stage + y.ethMax e → Gives (.ethFrameReceive e x o) s fun t =>
      t.rd R.FEC_CORR e = satWord (s.rd R.FEC_CORR e) o.corrected.toNat
      ∧ t.rd R.FEC_UNCORR e = satWord (s.rd R.FEC_UNCORR e) o.uncorrectable.toNat ∧ t.rdb R.ETH_STAT e 12 = false
      ∧ t.rdf R.RX_DROP e 15 0 = min (y.rdf R.RX_DROP e 15 0 + 1) 65535 ∧ Frame (regsIn [R.RX_DROP.key e]) [] y t)
  ∧ (∀ (s : State) (e : Fin 32) (x : List Byte) (o : FrameObs) (y : State), s.ethState e = 3 →
      y = (if s.rdb R.ETH_STAT e 12 then ((s.count R.FEC_CORR e o.corrected.toNat).count R.FEC_UNCORR e o.uncorrectable.toNat).wrb R.ETH_STAT e 12 false else (s.count R.FEC_CORR e o.corrected.toNat).count R.FEC_UNCORR e o.uncorrectable.toNat) →
      (y.port e).stage + y.ethMax e ≤ 262144 → o.codeErr = true ∨ o.uncorrectable ≠ 0 →
      Gives (.ethFrameReceive e x o) s fun t => t.rd R.FEC_CORR e = satWord (s.rd R.FEC_CORR e) o.corrected.toNat
      ∧ t.rd R.FEC_UNCORR e = satWord (s.rd R.FEC_UNCORR e) o.uncorrectable.toNat ∧ t.rdb R.ETH_STAT e 12 = false
      ∧ t.rdf R.RX_BAD e 63 48 = min (y.rdf R.RX_BAD e 63 48 + 1) 65535 ∧ Frame (regsIn [R.RX_BAD.key e]) [] y t)
  ∧ (∀ (s : State) (e : Fin 32) (x : List Byte) (o : FrameObs) (y : State), s.ethState e = 3 →
      y = (if s.rdb R.ETH_STAT e 12 then ((s.count R.FEC_CORR e o.corrected.toNat).count R.FEC_UNCORR e o.uncorrectable.toNat).wrb R.ETH_STAT e 12 false else (s.count R.FEC_CORR e o.corrected.toNat).count R.FEC_UNCORR e o.uncorrectable.toNat) →
      (y.port e).stage + y.ethMax e ≤ 262144 → o.codeErr = false → o.uncorrectable = 0 → x.length < 64 →
      Gives (.ethFrameReceive e x o) s fun t => t.rd R.FEC_CORR e = satWord (s.rd R.FEC_CORR e) o.corrected.toNat
      ∧ t.rd R.FEC_UNCORR e = satWord (s.rd R.FEC_UNCORR e) o.uncorrectable.toNat ∧ t.rdb R.ETH_STAT e 12 = false
      ∧ t.rdf R.RX_BAD e 47 32 = min (y.rdf R.RX_BAD e 47 32 + 1) 65535 ∧ Frame (regsIn [R.RX_BAD.key e]) [] y t)
  ∧ (∀ (s : State) (e : Fin 32) (x : List Byte) (o : FrameObs) (y : State), s.ethState e = 3 →
      y = (if s.rdb R.ETH_STAT e 12 then ((s.count R.FEC_CORR e o.corrected.toNat).count R.FEC_UNCORR e o.uncorrectable.toNat).wrb R.ETH_STAT e 12 false else (s.count R.FEC_CORR e o.corrected.toNat).count R.FEC_UNCORR e o.uncorrectable.toNat) →
      (y.port e).stage + y.ethMax e ≤ 262144 → o.codeErr = false → o.uncorrectable = 0 → 64 ≤ x.length →
      y.ethMax e < x.length → Gives (.ethFrameReceive e x o) s fun t =>
      t.rd R.FEC_CORR e = satWord (s.rd R.FEC_CORR e) o.corrected.toNat
      ∧ t.rd R.FEC_UNCORR e = satWord (s.rd R.FEC_UNCORR e) o.uncorrectable.toNat ∧ t.rdb R.ETH_STAT e 12 = false
      ∧ t.rdf R.RX_BAD e 31 16 = min (y.rdf R.RX_BAD e 31 16 + 1) 65535 ∧ Frame (regsIn [R.RX_BAD.key e]) [] y t)
  ∧ (∀ (s : State) (e : Fin 32) (x : List Byte) (o : FrameObs) (y : State), s.ethState e = 3 →
      y = (if s.rdb R.ETH_STAT e 12 then ((s.count R.FEC_CORR e o.corrected.toNat).count R.FEC_UNCORR e o.uncorrectable.toNat).wrb R.ETH_STAT e 12 false else (s.count R.FEC_CORR e o.corrected.toNat).count R.FEC_UNCORR e o.uncorrectable.toNat) →
      (y.port e).stage + y.ethMax e ≤ 262144 → o.codeErr = false → o.uncorrectable = 0 → 64 ≤ x.length →
      x.length ≤ y.ethMax e → leNat (x.drop (x.length - 4)) ≠ crc32 (x.take (x.length - 4)) →
      Gives (.ethFrameReceive e x o) s fun t => t.rd R.FEC_CORR e = satWord (s.rd R.FEC_CORR e) o.corrected.toNat
      ∧ t.rd R.FEC_UNCORR e = satWord (s.rd R.FEC_UNCORR e) o.uncorrectable.toNat ∧ t.rdb R.ETH_STAT e 12 = false
      ∧ t.rdf R.RX_BAD e 15 0 = min (y.rdf R.RX_BAD e 15 0 + 1) 65535 ∧ Frame (regsIn [R.RX_BAD.key e]) [] y t)
  ∧ (∀ (s : State) (e : Fin 32) (x : List Byte) (o : FrameObs) (y : State), s.ethState e = 3 →
      y = (if s.rdb R.ETH_STAT e 12 then ((s.count R.FEC_CORR e o.corrected.toNat).count R.FEC_UNCORR e o.uncorrectable.toNat).wrb R.ETH_STAT e 12 false else (s.count R.FEC_CORR e o.corrected.toNat).count R.FEC_UNCORR e o.uncorrectable.toNat) →
      (y.port e).stage + y.ethMax e ≤ 262144 → o.codeErr = false → o.uncorrectable = 0 → 64 ≤ x.length →
      x.length ≤ y.ethMax e → leNat (x.drop (x.length - 4)) = crc32 (x.take (x.length - 4)) → etherType x = 0x8808 →
      Gives (.ethFrameReceive e x o) s fun t => t.rd R.FEC_CORR e = satWord (s.rd R.FEC_CORR e) o.corrected.toNat
      ∧ t.rd R.FEC_UNCORR e = satWord (s.rd R.FEC_UNCORR e) o.uncorrectable.toNat ∧ t.rdb R.ETH_STAT e 12 = false
      ∧ t.rdf R.RX_DROP e 63 48 = min (y.rdf R.RX_DROP e 63 48 + 1) 65535 ∧ Frame (regsIn [R.RX_DROP.key e]) [] y t)
  ∧ (∀ (s : State) (e : Fin 32) (x : List Byte) (o : FrameObs) (y : State), s.ethState e = 3 →
      y = (if s.rdb R.ETH_STAT e 12 then ((s.count R.FEC_CORR e o.corrected.toNat).count R.FEC_UNCORR e o.uncorrectable.toNat).wrb R.ETH_STAT e 12 false else (s.count R.FEC_CORR e o.corrected.toNat).count R.FEC_UNCORR e o.uncorrectable.toNat) →
      (y.port e).stage + y.ethMax e ≤ 262144 → o.codeErr = false → o.uncorrectable = 0 → 64 ≤ x.length →
      x.length ≤ y.ethMax e → leNat (x.drop (x.length - 4)) = crc32 (x.take (x.length - 4)) → etherType x ≠ 0x8808 →
      y.filterOf e (x.take (x.length - 4)) = none → y.rdb R.ETH_CFG e 13 = false → Gives (.ethFrameReceive e x o) s fun t =>
      t.rd R.FEC_CORR e = satWord (s.rd R.FEC_CORR e) o.corrected.toNat
      ∧ t.rd R.FEC_UNCORR e = satWord (s.rd R.FEC_UNCORR e) o.uncorrectable.toNat ∧ t.rdb R.ETH_STAT e 12 = false
      ∧ t.rdf R.RX_DROP e 47 32 = min (y.rdf R.RX_DROP e 47 32 + 1) 65535 ∧ Frame (regsIn [R.RX_DROP.key e]) [] y t)
  ∧ (∀ (s : State) (e : Fin 32) (x : List Byte) (o : FrameObs) (y : State) (i : Nat) (v : Filter), s.ethState e = 3 →
      y = (if s.rdb R.ETH_STAT e 12 then ((s.count R.FEC_CORR e o.corrected.toNat).count R.FEC_UNCORR e o.uncorrectable.toNat).wrb R.ETH_STAT e 12 false else (s.count R.FEC_CORR e o.corrected.toNat).count R.FEC_UNCORR e o.uncorrectable.toNat) →
      (y.port e).stage + y.ethMax e ≤ 262144 → o.codeErr = false → o.uncorrectable = 0 → 64 ≤ x.length →
      x.length ≤ y.ethMax e → leNat (x.drop (x.length - 4)) = crc32 (x.take (x.length - 4)) → etherType x ≠ 0x8808 →
      y.filterOf e (x.take (x.length - 4)) = some (i, v) → bit v.w2 12 = true → Gives (.ethFrameReceive e x o) s fun t =>
      t.rd R.FEC_CORR e = satWord (s.rd R.FEC_CORR e) o.corrected.toNat
      ∧ t.rd R.FEC_UNCORR e = satWord (s.rd R.FEC_UNCORR e) o.uncorrectable.toNat ∧ t.rdb R.ETH_STAT e 12 = false
      ∧ t.rdf R.RX_DROP e 31 16 = min (y.rdf R.RX_DROP e 31 16 + 1) 65535 ∧ Frame (regsIn [R.RX_DROP.key e]) [] y t)
  ∧ (∀ (s : State) (e : Fin 32) (x : List Byte) (o : FrameObs) (y : State) (r : Nat) (i : Nat) (ts : Bool) (g : Ring),
      s.ethState e = 3 →
      y = (if s.rdb R.ETH_STAT e 12 then ((s.count R.FEC_CORR e o.corrected.toNat).count R.FEC_UNCORR e o.uncorrectable.toNat).wrb R.ETH_STAT e 12 false else (s.count R.FEC_CORR e o.corrected.toNat).count R.FEC_UNCORR e o.uncorrectable.toNat) →
      (y.port e).stage + y.ethMax e ≤ 262144 → o.codeErr = false → o.uncorrectable = 0 → 64 ≤ x.length →
      x.length ≤ y.ethMax e → leNat (x.drop (x.length - 4)) = crc32 (x.take (x.length - 4)) → etherType x ≠ 0x8808 →
      (match y.filterOf e (x.take (x.length - 4)) with | some (i, v) => if bit v.w2 12 then none else some (fld v.w2 11 0, i, bit v.w2 13 || y.rdb R.ETH_CFG e 33) | none => if y.rdb R.ETH_CFG e 13 then some (y.rdf R.ETH_CFG e 11 0, 0x3FF, y.rdb R.ETH_CFG e 33) else none) = some (r, i, ts) →
      g = y.ring r → g.on = false ∨ g.type ≠ 3 → Gives (.ethFrameReceive e x o) s fun t =>
      t.rd R.FEC_CORR e = satWord (s.rd R.FEC_CORR e) o.corrected.toNat
      ∧ t.rd R.FEC_UNCORR e = satWord (s.rd R.FEC_UNCORR e) o.uncorrectable.toNat ∧ t.rdb R.ETH_STAT e 12 = false
      ∧ t.rdf R.RX_RING e 63 48 = min (y.rdf R.RX_RING e 63 48 + 1) 65535 ∧ Frame (regsIn [R.RX_RING.key e]) [] y t)
  ∧ (∀ (s : State) (e : Fin 32) (x : List Byte) (o : FrameObs) (y : State) (r : Nat) (i : Nat) (ts : Bool) (g : Ring),
      s.ethState e = 3 →
      y = (if s.rdb R.ETH_STAT e 12 then ((s.count R.FEC_CORR e o.corrected.toNat).count R.FEC_UNCORR e o.uncorrectable.toNat).wrb R.ETH_STAT e 12 false else (s.count R.FEC_CORR e o.corrected.toNat).count R.FEC_UNCORR e o.uncorrectable.toNat) →
      (y.port e).stage + y.ethMax e ≤ 262144 → o.codeErr = false → o.uncorrectable = 0 → 64 ≤ x.length →
      x.length ≤ y.ethMax e → leNat (x.drop (x.length - 4)) = crc32 (x.take (x.length - 4)) → etherType x ≠ 0x8808 →
      (match y.filterOf e (x.take (x.length - 4)) with | some (i, v) => if bit v.w2 12 then none else some (fld v.w2 11 0, i, bit v.w2 13 || y.rdb R.ETH_CFG e 33) | none => if y.rdb R.ETH_CFG e 13 then some (y.rdf R.ETH_CFG e 11 0, 0x3FF, y.rdb R.ETH_CFG e 33) else none) = some (r, i, ts) →
      g = y.ring r → g.on = true → g.type = 3 → g.size ≤ g.used → Gives (.ethFrameReceive e x o) s fun t =>
      t.rd R.FEC_CORR e = satWord (s.rd R.FEC_CORR e) o.corrected.toNat
      ∧ t.rd R.FEC_UNCORR e = satWord (s.rd R.FEC_UNCORR e) o.uncorrectable.toNat ∧ t.rdb R.ETH_STAT e 12 = false
      ∧ t.rdf R.RX_RING e 47 32 = min (y.rdf R.RX_RING e 47 32 + 1) 65535
      ∧ t.rdf R.QM_ERR 0 63 48 = min (y.rdf R.QM_ERR 0 63 48 + 1) 65535
      ∧ t.rd R.QM_LAST_ERR = word (at_ 32 (y.time.tide % 2 ^ 32) + r) ∧ bit (t.hdr 0x58 hEvt) 0 = true
      ∧ Frame (regsIn [R.RX_RING.key e, R.QM_ERR.key 0, R.QM_LAST_ERR.key 0, regKey 0 0x58 0 hEvt]) [] y t)
  ∧ (∀ (s : State) (e : Fin 32) (x : List Byte) (o : FrameObs) (y : State) (r : Nat) (i : Nat) (ts : Bool) (g : Ring),
      s.ethState e = 3 →
      y = (if s.rdb R.ETH_STAT e 12 then ((s.count R.FEC_CORR e o.corrected.toNat).count R.FEC_UNCORR e o.uncorrectable.toNat).wrb R.ETH_STAT e 12 false else (s.count R.FEC_CORR e o.corrected.toNat).count R.FEC_UNCORR e o.uncorrectable.toNat) →
      (y.port e).stage + y.ethMax e ≤ 262144 → o.codeErr = false → o.uncorrectable = 0 → 64 ≤ x.length →
      x.length ≤ y.ethMax e → leNat (x.drop (x.length - 4)) = crc32 (x.take (x.length - 4)) → etherType x ≠ 0x8808 →
      (match y.filterOf e (x.take (x.length - 4)) with | some (i, v) => if bit v.w2 12 then none else some (fld v.w2 11 0, i, bit v.w2 13 || y.rdb R.ETH_CFG e 33) | none => if y.rdb R.ETH_CFG e 13 then some (y.rdf R.ETH_CFG e 11 0, 0x3FF, y.rdb R.ETH_CFG e 33) else none) = some (r, i, ts) →
      g = y.ring r → g.on = true → g.type = 3 → g.used < g.size → y.pressed (ethPage e) = false →
      2 ^ fld g.d3 63 60 < x.length - 4 → Gives (.ethFrameReceive e x o) s fun t =>
      t.rd R.FEC_CORR e = satWord (s.rd R.FEC_CORR e) o.corrected.toNat
      ∧ t.rd R.FEC_UNCORR e = satWord (s.rd R.FEC_UNCORR e) o.uncorrectable.toNat ∧ t.rdb R.ETH_STAT e 12 = false
      ∧ t.rdf R.RX_RING e 31 16 = min (y.rdf R.RX_RING e 31 16 + 1) 65535 ∧ Frame (regsIn [R.RX_RING.key e]) [] y t)
  ∧ (∀ (s : State) (e : Fin 32) (x : List Byte) (o : FrameObs) (y : State) (r : Nat) (i : Nat) (ts : Bool) (g : Ring),
      s.ethState e = 3 →
      y = (if s.rdb R.ETH_STAT e 12 then ((s.count R.FEC_CORR e o.corrected.toNat).count R.FEC_UNCORR e o.uncorrectable.toNat).wrb R.ETH_STAT e 12 false else (s.count R.FEC_CORR e o.corrected.toNat).count R.FEC_UNCORR e o.uncorrectable.toNat) →
      (y.port e).stage + y.ethMax e ≤ 262144 → o.codeErr = false → o.uncorrectable = 0 → 64 ≤ x.length →
      x.length ≤ y.ethMax e → leNat (x.drop (x.length - 4)) = crc32 (x.take (x.length - 4)) → etherType x ≠ 0x8808 →
      (match y.filterOf e (x.take (x.length - 4)) with | some (i, v) => if bit v.w2 12 then none else some (fld v.w2 11 0, i, bit v.w2 13 || y.rdb R.ETH_CFG e 33) | none => if y.rdb R.ETH_CFG e 13 then some (y.rdf R.ETH_CFG e 11 0, 0x3FF, y.rdb R.ETH_CFG e 33) else none) = some (r, i, ts) →
      g = y.ring r → g.on = true → g.type = 3 → g.used < g.size → x.length - 4 ≤ 2 ^ fld g.d3 63 60 →
      Gives (.ethFrameReceive e x o) s fun t => t.rd R.FEC_CORR e = satWord (s.rd R.FEC_CORR e) o.corrected.toNat
      ∧ t.rd R.FEC_UNCORR e = satWord (s.rd R.FEC_UNCORR e) o.uncorrectable.toNat ∧ t.rdb R.ETH_STAT e 12 = false
      ∧ (y.pressed (ethPage e) = true → t.rdf R.RX_RING e 47 32 = min (y.rdf R.RX_RING e 47 32 + 1) 65535 ∧ Frame (regsIn [R.RX_RING.key e]) [] y t)
      ∧ (y.pressed (ethPage e) = false → t.ring r = { g with alloc := (g.alloc + 1) % 2 ^ 32 } ∧ (t.port e).stage = (y.port e).stage + x.length ∧ t.net.nextJob = y.net.nextJob + 1 ∧ t.xbar.next = y.xbar.next + (bursts (fld g.d3 47 0 + g.alloc % g.size * 2 ^ fld g.d3 63 60) (x.length - 4) (x.length - 3) 0).length ∧ (pget t.net.jobs y.net.nextJob).map (fun j => (j.ring, j.idx, j.words.take 2, j.port)) = some (r, g.alloc, [word (at_ 48 (x.length - 4) + at_ 38 i + at_ 33 e.val + at_ 32 (b2n ts)), word (fld g.d3 47 0 + g.alloc % g.size * 2 ^ fld g.d3 63 60)], some e.val) ∧ t.free = y.free + 1 ∧ Frame (regsIn decodeKeys) [.net, .xbar, .free] y t)
      ∧ Frame (regsIn (R.RX_RING.key e :: decodeKeys)) [.net, .xbar, .free] y t)
  ∧ (∀ (s : State) (e : Fin 32) (x : List Byte) (o : FrameObs), s.ethState e ≠ 3 → Gives (.ethFrameReceive e x o) s fun t =>
      Frame noRegs [] s t)
  ∧ (∀ (s : State) (e : Fin 32) (rx : Bool), s.ethState e = 3 → s.rdb R.ETH_CFG e 32 = true → s.rdb R.ETH_STAT e 10 = true →
      rx = true → Gives (.lpiEntry ⟨e, rx⟩) s fun t => t.rdb R.ETH_STAT e 12 = true ∧ t.ethState e = 3
      ∧ Frame (regsIn [R.ETH_STAT.key e]) [] s t)
  ∧ (∀ (s : State) (e : Fin 32) (rx : Bool), s.ethState e = 3 → s.rdb R.ETH_CFG e 32 = true → s.rdb R.ETH_STAT e 10 = true →
      rx = false → s.txWaiting e = false → (s.port e).lastReady + 1500 * s.rdf R.ETH_CFG e 31 16 ≤ s.time.total →
      s.hasUnit 2 e = false → s.unitComing e = false → Gives (.lpiEntry ⟨e, rx⟩) s fun t => t.rdb R.ETH_STAT e 11 = true
      ∧ t.ethState e = 3 ∧ Frame (regsIn [R.ETH_STAT.key e]) [] s t)
  ∧ (∀ (s : State) (e : Fin 32) (rx : Bool),
      s.ethState e ≠ 3 ∨ s.rdb R.ETH_CFG e 32 = false ∨ s.rdb R.ETH_STAT e 10 = false → Gives (.lpiEntry ⟨e, rx⟩) s fun t =>
      Frame noRegs [] s t)
  ∧ (∀ (s : State) (e : Fin 32) (rx : Bool), rx = false →
      s.txWaiting e = true ∨ s.time.total < (s.port e).lastReady + 1500 * s.rdf R.ETH_CFG e 31 16 ∨ s.hasUnit 2 e = true ∨ s.unitComing e = true →
      Gives (.lpiEntry ⟨e, rx⟩) s fun t => Frame noRegs [] s t)
  ∧ (∀ (s : State) (e : Fin 32) (rx : Bool), rx = true → Gives (.lpiExit ⟨e, rx⟩) s fun t => t.rdb R.ETH_STAT e 12 = false
      ∧ t.ethState e = s.ethState e ∧ Frame (regsIn [R.ETH_STAT.key e]) [] s t)
  ∧ (∀ (s : State) (e : Fin 32) (rx : Bool), rx = false → s.txWaiting e = true ∨ s.unitComing e = true →
      s.rdb R.ETH_STAT e 11 = true → Gives (.lpiExit ⟨e, rx⟩) s fun t => t.rdb R.ETH_STAT e 11 = false
      ∧ t.ethState e = s.ethState e ∧ (t.port e).wakeAt = s.time.total + Config.fastWake (s.rdf R.ETH_CFG e 12 12)
      ∧ t.net = (s.setPort e { s.port e with wakeAt := (t.port e).wakeAt }).net
      ∧ Frame (regsIn [R.ETH_STAT.key e]) [.net] s t)
  ∧ (∀ (s : State) (e : Fin 32) (rx : Bool), rx = false →
      (s.txWaiting e = false ∧ s.unitComing e = false) ∨ s.rdb R.ETH_STAT e 11 = false → Gives (.lpiExit ⟨e, rx⟩) s fun t =>
      Frame noRegs [] s t)
  ∧ (∀ (s : State) (a : Agent) (g : Fin 4) (n : Nat) (e : Nat), s.accepts a (0x54 + g.val) R.ETH_CMD.off 1 = true →
      s.bankOf a (0x54 + g.val) = n → n < 8 → e = 8 * g.val + n → s.ethState e = 3 → Gives (.ethCmdRestart a g) s fun t =>
      t.ethState e = 1 ∧ t.rdf R.ETH_STAT e 12 8 = 0 ∧ bit (t.hdr (ethPage e) hEvt) 1 = true
      ∧ Frame (regsIn [R.ETH_STAT.key e, regKey 0 (ethPage e) 0 hEvt]) [] s t)
  ∧ (∀ (s : State) (a : Agent) (g : Fin 4) (n : Nat) (e : Nat), s.accepts a (0x54 + g.val) R.ETH_CMD.off 1 = true →
      s.bankOf a (0x54 + g.val) = n → n < 8 → e = 8 * g.val + n → s.ethState e ≠ 3 → Gives (.ethCmdRestart a g) s fun t =>
      t.ethState e = s.ethState e ∧ t.rdf R.ETH_STAT e 12 8 = 0 ∧ Frame (regsIn [R.ETH_STAT.key e]) [] s t)

/-- A port with nothing in hand asks the next entry of its transmit rings; an entry with a wrong field, one whose frame could
not be read and one that no run holds are completed with their status and counted; the bytes of a sound entry are asked;
a ready frame leaves in an OPEN run with room for it, its FCS added, and its entry is completed. A ready fragment leaves
in a UNIT run; on a port that is not ACTIVE it is passed over and counted, and one too long for its run breaches. With
nothing due nothing happens. Where the rules leave a choice its clauses rest on the model's, log entries 3, 16, 117, 120,
121, 122, 123, 124, 125, 273 and 276. -/
def Obligations.PortsSendFrames : Prop :=
  (∀ (s : State) (e : Fin 32), s.ethState e ≠ 3 → Gives (.ethRingFrameTx e) s fun t => Frame noRegs [] s t)
  ∧ (∀ (s : State) (e : Fin 32), s.ethState e = 3 → (s.port e).tx = none → s.txRing e = none →
      Gives (.ethRingFrameTx e) s fun t => Frame noRegs [] s t)
  ∧ (∀ (s : State) (e : Fin 32) (r : Nat), s.ethState e = 3 → (s.port e).tx = none → s.txRing e = some r →
      Gives (.ethRingFrameTx e) s fun t => t.ring r = { s.ring r with fetched := ((s.ring r).fetched + 1) % 2 ^ 32 }
      ∧ (t.port e).tx = some { ring := r, idx := (s.ring r).fetched, left := 1 } ∧ t.xbar.next = s.xbar.next + 1
      ∧ (pget t.xbar.txns s.xbar.next).map (fun y => (y.write, y.len, y.origin)) = some (false, 64, .txEntry e)
      ∧ Frame (regsIn decodeKeys) [.net, .xbar] s t)
  ∧ (∀ (s : State) (e : Fin 32) (x : TxJob), s.ethState e = 3 → (s.port e).tx = some x → x.entry = none →
      Gives (.ethRingFrameTx e) s fun t => Frame noRegs [] s t)
  ∧ (∀ (s : State) (e : Fin 32) (x : TxJob) (ws : List Word), s.ethState e = 3 → (s.port e).tx = some x → x.entry = some ws →
      x.bad = true → x.left = 0 → Gives (.ethRingFrameTx e) s fun t =>
      t.rdf R.TX_ERR e 47 32 = min (s.rdf R.TX_ERR e 47 32 + 1) 65535 ∧ (t.port e).tx = none ∧ (t.port e).last = x.ring
      ∧ (t.port e).lastReady = s.time.total ∧ t.xbar.next = s.xbar.next + 1
      ∧ (pget t.xbar.txns s.xbar.next).map (fun y => (y.write, y.len, y.data, y.origin)) = some (true, 24, List.replicate 16 0 ++ leBytes 8 (word (at_ 63 1 + at_ 56 2)).toNat, .txDone e x.ring x.idx)
      ∧ Frame (regsIn (R.TX_ERR.key e :: decodeKeys)) [.net, .xbar] s t)
  ∧ (∀ (s : State) (e : Fin 32) (x : TxJob) (ws : List Word) (c : Nat), s.ethState e = 3 → (s.port e).tx = some x →
      x.entry = some ws → x.bad = false ∨ x.left ≠ 0 → x.ready = true → c = max 60 (fld (ws.getD 0 0) 63 48) + 4 →
      s.someRunFits e .open_ c = false → Gives (.ethRingFrameTx e) s fun t =>
      t.rdf R.TX_ERR e 63 48 = min (s.rdf R.TX_ERR e 63 48 + 1) 65535 ∧ (t.port e).tx = none ∧ (t.port e).last = x.ring
      ∧ (t.port e).lastReady = s.time.total ∧ t.xbar.next = s.xbar.next + 1
      ∧ (pget t.xbar.txns s.xbar.next).map (fun y => (y.write, y.len, y.data, y.origin)) = some (true, 24, List.replicate 16 0 ++ leBytes 8 (word (at_ 63 1 + at_ 56 3)).toNat, .txDone e x.ring x.idx)
      ∧ Frame (regsIn (R.TX_ERR.key e :: decodeKeys)) [.net, .xbar] s t)
  ∧ (∀ (s : State) (e : Fin 32) (x : TxJob) (ws : List Word) (c : Nat) (n0 : Nat) (z : Nat) (n : Nat) (o : Nat) (q : Int) (fr : List Byte),
      s.ethState e = 3 → (s.port e).tx = some x → x.entry = some ws → x.bad = false ∨ x.left ≠ 0 → x.ready = true →
      c = max 60 (fld (ws.getD 0 0) 63 48) + 4 → n0 < 4096 → fitsRun 0 c (s.runAfter e .open_ 4096 n0) = true →
      s.ethRun e .open_ = some (z, n) → o = s.runOffset e z → fitsRun o c n = true → s.rdb R.ETH_STAT e 11 = false →
      (s.port e).wakeAt ≤ s.time.total → q = (s.txStamp e z o).1 →
      fr = withFcs (if bit (ws.getD 0 0) 46 then oneStep (ws.getD 0 0) x.frame q else x.frame) →
      Gives (.ethRingFrameTx e) s fun t => .frame e fr ∈ t.sent ∧ t.rd R.TX_FRAMES e = satWord (s.rd R.TX_FRAMES e) 1
      ∧ t.rd R.TX_BYTES e = satWord (s.rd R.TX_BYTES e) fr.length ∧ (t.port e).tx = none ∧ (t.port e).last = x.ring
      ∧ (t.port e).run = some (z, o + 3 * (c + 20)) ∧ t.free = s.free + 1
      ∧ (pget t.xbar.txns s.xbar.next).map (fun y => (y.write, y.len, y.data.drop 16, y.origin)) = some (true, 24, leBytes 8 (word (at_ 63 1)).toNat, .txDone e x.ring x.idx)
      ∧ (bit (ws.getD 0 0) 47 = true → (pget t.xbar.txns s.xbar.next).map (fun y => y.data.take 16) = some (leBytes 8 (stampWords q).2.toNat ++ leBytes 8 (stampWords q).1.toNat))
      ∧ Frame (regsIn (R.TX_FRAMES.key e :: R.TX_BYTES.key e :: decodeKeys)) [.net, .xbar, .free] s t)
  ∧ (∀ (s : State) (e : Fin 32) (x : TxJob) (ws : List Word) (c : Nat) (n0 : Nat), s.ethState e = 3 →
      (s.port e).tx = some x → x.entry = some ws → x.bad = false ∨ x.left ≠ 0 → x.ready = true →
      c = max 60 (fld (ws.getD 0 0) 63 48) + 4 → n0 < 4096 → fitsRun 0 c (s.runAfter e .open_ 4096 n0) = true →
      s.ethRun e .open_ = none ∨ s.rdb R.ETH_STAT e 11 = true ∨ s.time.total < (s.port e).wakeAt →
      Gives (.ethRingFrameTx e) s fun t => Frame noRegs [] s t)
  ∧ (∀ (s : State) (e : Fin 32) (x : TxJob) (ws : List Word) (c : Nat) (n0 : Nat) (z : Nat) (n : Nat), s.ethState e = 3 →
      (s.port e).tx = some x → x.entry = some ws → x.bad = false ∨ x.left ≠ 0 → x.ready = true →
      c = max 60 (fld (ws.getD 0 0) 63 48) + 4 → n0 < 4096 → fitsRun 0 c (s.runAfter e .open_ 4096 n0) = true →
      s.ethRun e .open_ = some (z, n) → fitsRun (s.runOffset e z) c n = false → Gives (.ethRingFrameTx e) s fun t =>
      Frame noRegs [] s t)
  ∧ (∀ (s : State) (e : Fin 32) (x : TxJob) (ws : List Word), s.ethState e = 3 → (s.port e).tx = some x → x.entry = some ws →
      x.bad = false ∨ x.left ≠ 0 → x.ready = false → x.left ≠ 0 → Gives (.ethRingFrameTx e) s fun t => Frame noRegs [] s t)
  ∧ (∀ (s : State) (e : Fin 32) (x : TxJob) (ws : List Word), s.ethState e = 3 → (s.port e).tx = some x → x.entry = some ws →
      x.bad = false → x.ready = false → x.left = 0 → txEntryBad (s.ethMax e) ws = true → Gives (.ethRingFrameTx e) s fun t =>
      t.rdf R.TX_ERR e 47 32 = min (s.rdf R.TX_ERR e 47 32 + 1) 65535 ∧ (t.port e).tx = none ∧ (t.port e).last = x.ring
      ∧ (t.port e).lastReady = s.time.total ∧ t.xbar.next = s.xbar.next + 1
      ∧ (pget t.xbar.txns s.xbar.next).map (fun y => (y.write, y.len, y.data, y.origin)) = some (true, 24, List.replicate 16 0 ++ leBytes 8 (word (at_ 63 1 + at_ 56 1)).toNat, .txDone e x.ring x.idx)
      ∧ Frame (regsIn (R.TX_ERR.key e :: decodeKeys)) [.net, .xbar] s t)
  ∧ (∀ (s : State) (e : Fin 32) (x : TxJob) (ws : List Word) (bs : List (Nat × Nat)) (y : State), s.ethState e = 3 →
      (s.port e).tx = some x → x.entry = some ws → x.bad = false → x.ready = false → x.left = 0 →
      txEntryBad (s.ethMax e) ws = false → s.fetchWaits e = false →
      bs = bursts (fld (ws.getD 1 0) 47 0) (fld (ws.getD 0 0) 63 48) (fld (ws.getD 0 0) 63 48 + 1) 0 →
      y = bs.foldl (fun v b => v.enter 8 false false (fld (ws.getD 1 0) 47 0 + b.1) b.2 [] none (.txRead e b.1)) (s.setPort e { s.port e with tx := some { x with frame := List.replicate (fld (ws.getD 0 0) 63 48) 0, left := bs.length }, fetchAt := none }) →
      Gives (.ethRingFrameTx e) s fun t => t.xbar.next = s.xbar.next + bs.length
      ∧ (t.port e).tx = some { x with frame := List.replicate (fld (ws.getD 0 0) 63 48) 0, left := bs.length }
      ∧ (t.port e).fetchAt = none ∧ Frame noRegs [] y t)
  ∧ (∀ (s : State) (e : Fin 32) (x : TxJob) (ws : List Word), s.ethState e = 3 → (s.port e).tx = some x → x.entry = some ws →
      x.bad = false → x.ready = false → x.left = 0 → txEntryBad (s.ethMax e) ws = false → s.fetchWaits e = true →
      (s.port e).fetchAt = none → Gives (.ethRingFrameTx e) s fun t =>
      (t.port e).fetchAt = some (s.time.total + 2 * fld (s.hdr (ethPage e) hPerturb) 9 0)
      ∧ t.net = (s.setPort e { s.port e with fetchAt := (t.port e).fetchAt }).net ∧ Frame noRegs [.net] s t)
  ∧ (∀ (s : State) (e : Fin 32) (x : TxJob) (ws : List Word) (n : Nat), s.ethState e = 3 → (s.port e).tx = some x →
      x.entry = some ws → x.bad = false → x.ready = false → x.left = 0 → txEntryBad (s.ethMax e) ws = false →
      s.fetchWaits e = true → (s.port e).fetchAt = some n → Gives (.ethRingFrameTx e) s fun t => Frame noRegs [] s t)
  ∧ (∀ (s : State) (e : Fin 32) (x : Fragment) (rest : List Fragment) (z : Nat) (n : Nat), (s.port e).ready = x :: rest →
      s.ethRun e .unit = some (z, n) → x.time ≤ s.imgNow → s.ethState e ≠ 3 → Gives (.brynizPacketSend e) s fun t =>
      (t.port e).ready = rest ∧ (t.src e x.block.src).streamSeq = ((s.src e x.block.src).streamSeq + 1) % 2 ^ 32
      ∧ t.rdf R.TX_ERR e 31 16 = min (s.rdf R.TX_ERR e 31 16 + 1) 65535
      ∧ t.net = (s.setPort e { s.port e with ready := rest, sources := (t.port e).sources }).net
      ∧ Frame (regsIn [R.TX_ERR.key e]) [.net] s t)
  ∧ (∀ (s : State) (e : Fin 32) (x : Fragment) (rest : List Fragment) (z : Nat) (n : Nat) (y : State),
      (s.port e).ready = x :: rest → s.ethRun e .unit = some (z, n) → x.time ≤ s.imgNow → s.ethState e = 3 →
      fitsRun 0 (s.headBytes e x.block.src + x.len) n = false → y = s.breach R.BR_ETH 7 e →
      Gives (.brynizPacketSend e) s fun t => (t.port e).ready = rest
      ∧ (t.src e x.block.src).streamSeq = ((s.src e x.block.src).streamSeq + 1) % 2 ^ 32 ∧ Frame noRegs [.net] y t)
  ∧ (∀ (s : State) (e : Fin 32) (x : Fragment) (rest : List Fragment) (z : Nat) (n : Nat) (o : Nat),
      (s.port e).ready = x :: rest → s.ethRun e .unit = some (z, n) → x.time ≤ s.imgNow → s.ethState e = 3 →
      fitsRun 0 (s.headBytes e x.block.src + x.len) n = true → o = s.runOffset e z →
      fitsRun o (s.headBytes e x.block.src + x.len) n = true → Gives (.brynizPacketSend e) s fun t => (t.port e).ready = rest
      ∧ (t.src e x.block.src).streamSeq = ((s.src e x.block.src).streamSeq + 1) % 2 ^ 32 ∧ (t.src e x.block.src).skip = false
      ∧ (t.port e).run = some (z, o + 3 * (s.headBytes e x.block.src + x.len + 20))
      ∧ (t.port e).flight = (s.port e).flight ++ [{ time := s.time.total - s.time.pos + s.slot * 256 + z * 256 + o / 25 + 64 - s.absSlot * 256, frag := x, seq := (s.src e x.block.src).streamSeq, skip := (s.src e x.block.src).skip }]
      ∧ t.net = (s.setPort e { s.port e with ready := rest, run := (t.port e).run, flight := (t.port e).flight, sources := (t.port e).sources }).net
      ∧ Frame noRegs [.net] s t)
  ∧ (∀ (s : State) (e : Fin 32), (s.port e).ready = [] → Gives (.brynizPacketSend e) s fun t => Frame noRegs [] s t)
  ∧ (∀ (s : State) (e : Fin 32) (x : Fragment) (rest : List Fragment), (s.port e).ready = x :: rest →
      s.imgNow < x.time ∨ s.ethRun e .unit = none → Gives (.brynizPacketSend e) s fun t => Frame noRegs [] s t)
  ∧ (∀ (s : State) (e : Fin 32) (x : Fragment) (rest : List Fragment) (z : Nat) (n : Nat), (s.port e).ready = x :: rest →
      s.ethRun e .unit = some (z, n) → x.time ≤ s.imgNow → s.ethState e = 3 →
      fitsRun 0 (s.headBytes e x.block.src + x.len) n = true →
      fitsRun (s.runOffset e z) (s.headBytes e x.block.src + x.len) n = false → Gives (.brynizPacketSend e) s fun t =>
      Frame noRegs [] s t)

/-- A write of DST_DATA puts a word into the shadow table at the agent's address and advances it; DST_CTRL commits the table.
A doorbell moves the writer's own index. A hold-off that ends signals the ring's owner: the host by its message, a
supervisor by its interrupt. Where the rules leave a choice its clauses rest on the model's, log entries 3, 126, 127, 133
and 274. -/
def Obligations.DestinationsAndRings : Prop :=
  (∀ (s : State) (a : Agent) (v : Word) (i : Nat), s.accepts a 0x54 R.DST_DATA.off v = true →
      i = fld (s.rdAgent R.DST_SEL 0 a) 8 0 → Gives (.dstDataWrite a v) s fun t => mget (fun _ => 0) t.net.dstShadow i = v
      ∧ fld (t.rdAgent R.DST_SEL 0 a) 8 0 = (i + 1) % 512 ∧ t.net = { s.net with dstShadow := t.net.dstShadow }
      ∧ Frame (regsIn [R.DST_SEL.key 0 0 (1 + a.code)]) [.net] s t)
  ∧ (∀ (s : State) (a : Agent), s.accepts a 0x54 R.DST_CTRL.off 1 = true → Gives (.dstCommit a) s fun t =>
      t.rd R.DST_CTRL = 1 ∧ t.fab.commits = s.fab.commits ++ [{ set := .dest, wait := 1 + b2n (s.slot == 4095) }]
      ∧ Frame (regsIn [R.DST_CTRL.key 0]) [.fab] s t)
  ∧ (∀ (s : State) (a : Agent) (v : Word) (r : Nat), s.accepts a 0x58 R.RING_DB.off v = true → r = fld v 43 32 →
      (s.ring r).type = 1 ∨ (s.ring r).type = 4 → Gives (.ringDoorbell a v) s fun t =>
      t.ring r = { s.ring r with d1 := setFld (s.ring r).d1 31 0 (fld v 31 0) } ∧ t.net = (s.setRing r (t.ring r)).net
      ∧ Frame noRegs [.net] s t)
  ∧ (∀ (s : State) (a : Agent) (v : Word) (r : Nat), s.accepts a 0x58 R.RING_DB.off v = true → r = fld v 43 32 →
      (s.ring r).type ≠ 1 → (s.ring r).type ≠ 4 → Gives (.ringDoorbell a v) s fun t =>
      t.ring r = { s.ring r with d1 := setFld (s.ring r).d1 63 32 (fld v 31 0) } ∧ t.net = (s.setRing r (t.ring r)).net
      ∧ Frame noRegs [.net] s t)
  ∧ (∀ (s : State) (r : Fin 4096) (q : Nat), (s.ring r).since = some q → bit (s.ring r).d2 41 = true →
      fld (s.ring r).d2 15 0 ≠ 0 → q + 1500 * fld (s.ring r).d2 15 0 ≤ s.time.total → (s.ring r).owner ≠ 0 →
      Gives (.ringHoldoffExpiry r) s fun t => t.ring r = { s.ring r with progress := 0, since := none } ∧ .ringIrq r ∈ t.sent
      ∧ t.net = (s.setRing r (t.ring r)).net ∧ Frame noRegs [.net] s t)
  ∧ (∀ (s : State) (r : Fin 4096) (q : Nat) (x : MsixEntry), (s.ring r).since = some q → bit (s.ring r).d2 41 = true →
      fld (s.ring r).d2 15 0 ≠ 0 → q + 1500 * fld (s.ring r).d2 15 0 ≤ s.time.total → (s.ring r).owner = 0 →
      s.net.lastMsg ≠ some (fld (s.ring r).d2 52 42, s.time.total / 2) →
      x = mget msixDflt s.pcie.table (fld (s.ring r).d2 52 42) → s.pcie.msixEn = true → x.masked = false →
      s.pcie.maskAll = false → s.pcieMaster = true → Gives (.ringHoldoffExpiry r) s fun t =>
      t.ring r = { s.ring r with progress := 0, since := none } ∧ .msix (fld (s.ring r).d2 52 42) x.addr x.data ∈ t.sent
      ∧ t.net = { (s.setRing r (t.ring r)).net with lastMsg := some (fld (s.ring r).d2 52 42, s.time.total / 2) }
      ∧ Frame noRegs [.net] s t)
  ∧ (∀ (s : State) (r : Fin 4096) (q : Nat), (s.ring r).since = some q → bit (s.ring r).d2 41 = true →
      fld (s.ring r).d2 15 0 ≠ 0 → q + 1500 * fld (s.ring r).d2 15 0 ≤ s.time.total → (s.ring r).owner = 0 →
      s.net.lastMsg ≠ some (fld (s.ring r).d2 52 42, s.time.total / 2) →
      s.pcie.msixEn = false ∨ (mget msixDflt s.pcie.table (fld (s.ring r).d2 52 42)).masked = true ∨ s.pcie.maskAll = true ∨ s.pcieMaster = false →
      Gives (.ringHoldoffExpiry r) s fun t => t.ring r = { s.ring r with progress := 0, since := none }
      ∧ t.net = { (s.setRing r (t.ring r)).net with lastMsg := some (fld (s.ring r).d2 52 42, s.time.total / 2) }
      ∧ (s.pcie.msixEn = true → (mget msixDflt s.pcie.table (fld (s.ring r).d2 52 42)).masked = true ∨ s.pcie.maskAll = true → mget (fun _ => false) t.pcie.pba (fld (s.ring r).d2 52 42) = true)
      ∧ Frame noRegs [.net] s t)
  ∧ (∀ (s : State) (r : Fin 4096) (q : Nat), (s.ring r).since = some q → bit (s.ring r).d2 41 = true →
      fld (s.ring r).d2 15 0 ≠ 0 → q + 1500 * fld (s.ring r).d2 15 0 ≤ s.time.total → (s.ring r).owner = 0 →
      s.net.lastMsg = some (fld (s.ring r).d2 52 42, s.time.total / 2) → Gives (.ringHoldoffExpiry r) s fun t =>
      t.ring r = { s.ring r with progress := 0, since := none } ∧ t.net = (s.setRing r (t.ring r)).net
      ∧ Frame noRegs [.net] s t)
  ∧ (∀ (s : State) (r : Fin 4096),
      bit (s.ring r).d2 41 = false ∨ fld (s.ring r).d2 15 0 = 0 ∨ (s.ring r).since.all (fun q => decide (s.time.total < q + 1500 * fld (s.ring r).d2 15 0)) = true →
      Gives (.ringHoldoffExpiry r) s fun t => Frame noRegs [] s t)

/-- A port without a request, or held by the test, stays as it is. The winner takes its generation; one that the firewall
refuses changes nothing else and gets an error response. A granted access is carried out at its target and answered:
memories are written and read, what a target does not take is a decode error, host memory is reached by PCIe requests,
the heap and the mesh take their parts, and an agent's access to the register space is one register each RCLK. A response
leaves the crossbar for its master: an inbound PCIe read's data complete it; with no channel of the DMA nothing else
follows. Where the rules leave a choice its clauses rest on the model's, log entries 3, 128, 129, 130, 141, 142, 251,
263, 279 and 280. -/
def Obligations.CrossbarServesAndAnswers : Prop :=
  (∀ (s : State) (n : Fin 8), s.testHeld (0x60 + n.val) (s.rd R.TP_XB 0 n) = true ∨ s.winner n = none →
      Gives (.xbarArbitration n) s fun t => Frame noRegs [] s t)
  ∧ (∀ (s : State) (n : Fin 8) (id : Nat) (x : Txn) (y : State), s.testHeld (0x60 + n.val) (s.rd R.TP_XB 0 n) = false →
      s.winner n = some (id, x) → pget s.xbar.txns id = some x → x.resp = none →
      y = { s with xbar := { s.xbar with winners := mset (fun _ => 8) s.xbar.winners x.port x.master, txns := pset s.xbar.txns id (some { x with gen := some (s.rdf R.FW_GEN 0 31 0) }) } } →
      rowOfRange x.addr x.len = none → Gives (.xbarArbitration n) s fun t =>
      (pget t.xbar.txns id).bind (·.resp) = some (true, false, []) ∧ Frame noRegs [] ((y.respond id true false [])) t)
  ∧ (∀ (s : State) (n : Fin 8) (id : Nat) (x : Txn) (y : State) (r : MapRow) (c : Nat) (k : Nat),
      s.testHeld (0x60 + n.val) (s.rd R.TP_XB 0 n) = false → s.winner n = some (id, x) → pget s.xbar.txns id = some x →
      x.resp = none →
      y = { s with xbar := { s.xbar with winners := mset (fun _ => 8) s.xbar.winners x.port x.master, txns := pset s.xbar.txns id (some { x with gen := some (s.rdf R.FW_GEN 0 31 0) }) } } →
      rowOfRange x.addr x.len = some r → s.fwRefusal x.master x.secure x.write x.addr x.len = some (c, k) →
      Gives (.xbarArbitration n) s fun t => (pget t.xbar.txns id).bind (·.resp) = some (true, false, [])
      ∧ t.xbar.sram = s.xbar.sram ∧ t.rd R.FW_DENIED = satWord (s.rd R.FW_DENIED) 1
      ∧ t.rd R.FW_LAST = fwLastWord x.master x.write x.secure c k x.addr ∧ bit (t.hdr 0x0C hEvt) 0 = true
      ∧ Frame (regsIn (R.FW_DENIED.key 0 :: R.FW_LAST.key 0 :: regKey 0 0x0C 0 hEvt :: reportKeys)) [.bitt] ((y.respond id true false [])) t)
  ∧ (∀ (s : State) (n : Fin 8) (id : Nat) (x : Txn) (y : State) (r : MapRow),
      s.testHeld (0x60 + n.val) (s.rd R.TP_XB 0 n) = false → s.winner n = some (id, x) → pget s.xbar.txns id = some x →
      x.resp = none →
      y = { s with xbar := { s.xbar with winners := mset (fun _ => 8) s.xbar.winners x.port x.master, txns := pset s.xbar.txns id (some { x with gen := some (s.rdf R.FW_GEN 0 31 0) }) } } →
      rowOfRange x.addr x.len = some r → s.fwRefusal x.master x.secure x.write x.addr x.len = none →
      s.fabricAgent x = none ∨ r.2.2 ≠ .regs → r.2.2 = .heap → x.write = true → s.weightRefused x.addr x.len = true →
      Gives (.xbarArbitration n) s fun t => (pget t.xbar.txns id).bind (·.resp) = some (true, false, [])
      ∧ t.rd R.WT_REFUSED = satWord (s.rd R.WT_REFUSED) 1
      ∧ Frame (regsIn [R.WT_REFUSED.key 0]) [] ((y.respond id true false [])) t)
  ∧ (∀ (s : State) (n : Fin 8) (id : Nat) (x : Txn) (y : State) (r : MapRow),
      s.testHeld (0x60 + n.val) (s.rd R.TP_XB 0 n) = false → s.winner n = some (id, x) → pget s.xbar.txns id = some x →
      x.resp = none →
      y = { s with xbar := { s.xbar with winners := mset (fun _ => 8) s.xbar.winners x.port x.master, txns := pset s.xbar.txns id (some { x with gen := some (s.rdf R.FW_GEN 0 31 0) }) } } →
      rowOfRange x.addr x.len = some r → s.fwRefusal x.master x.secure x.write x.addr x.len = none →
      s.fabricAgent x = none ∨ r.2.2 ≠ .regs → r.2.2 = .heap → x.write = false ∨ s.weightRefused x.addr x.len = false →
      Gives (.xbarArbitration n) s fun t => Frame noRegs [] ((y.heapAccept id)) t)
  ∧ (∀ (s : State) (n : Fin 8) (id : Nat) (x : Txn) (y : State) (r : MapRow),
      s.testHeld (0x60 + n.val) (s.rd R.TP_XB 0 n) = false → s.winner n = some (id, x) → pget s.xbar.txns id = some x →
      x.resp = none →
      y = { s with xbar := { s.xbar with winners := mset (fun _ => 8) s.xbar.winners x.port x.master, txns := pset s.xbar.txns id (some { x with gen := some (s.rdf R.FW_GEN 0 31 0) }) } } →
      rowOfRange x.addr x.len = some r → s.fwRefusal x.master x.secure x.write x.addr x.len = none →
      s.fabricAgent x = none ∨ r.2.2 ≠ .regs → r.2.2 = .rom → x.write = false → Gives (.xbarArbitration n) s fun t =>
      (pget t.xbar.txns id).bind (·.resp) = some (false, false, s.xbar.rom.bytes (x.addr - r.1) x.len)
      ∧ Frame noRegs [] ((y.respond id false false (s.xbar.rom.bytes (x.addr - r.1) x.len))) t)
  ∧ (∀ (s : State) (n : Fin 8) (id : Nat) (x : Txn) (y : State) (r : MapRow),
      s.testHeld (0x60 + n.val) (s.rd R.TP_XB 0 n) = false → s.winner n = some (id, x) → pget s.xbar.txns id = some x →
      x.resp = none →
      y = { s with xbar := { s.xbar with winners := mset (fun _ => 8) s.xbar.winners x.port x.master, txns := pset s.xbar.txns id (some { x with gen := some (s.rdf R.FW_GEN 0 31 0) }) } } →
      rowOfRange x.addr x.len = some r → s.fwRefusal x.master x.secure x.write x.addr x.len = none →
      s.fabricAgent x = none ∨ r.2.2 ≠ .regs → r.2.2 = .nvm → x.write = false → Gives (.xbarArbitration n) s fun t =>
      (pget t.xbar.txns id).bind (·.resp) = some (false, false, s.nv.nvm.bytes (x.addr - r.1) x.len)
      ∧ Frame noRegs [] ((y.respond id false false (s.nv.nvm.bytes (x.addr - r.1) x.len))) t)
  ∧ (∀ (s : State) (n : Fin 8) (id : Nat) (x : Txn) (y : State) (r : MapRow),
      s.testHeld (0x60 + n.val) (s.rd R.TP_XB 0 n) = false → s.winner n = some (id, x) → pget s.xbar.txns id = some x →
      x.resp = none →
      y = { s with xbar := { s.xbar with winners := mset (fun _ => 8) s.xbar.winners x.port x.master, txns := pset s.xbar.txns id (some { x with gen := some (s.rdf R.FW_GEN 0 31 0) }) } } →
      rowOfRange x.addr x.len = some r → s.fwRefusal x.master x.secure x.write x.addr x.len = none →
      s.fabricAgent x = none ∨ r.2.2 ≠ .regs → r.2.2 = .sram → x.write = false → Gives (.xbarArbitration n) s fun t =>
      (pget t.xbar.txns id).bind (·.resp) = some (false, false, s.xbar.sram.bytes (x.addr - r.1) x.len)
      ∧ Frame noRegs [] ((y.respond id false false (s.xbar.sram.bytes (x.addr - r.1) x.len))) t)
  ∧ (∀ (s : State) (n : Fin 8) (id : Nat) (x : Txn) (y : State) (r : MapRow),
      s.testHeld (0x60 + n.val) (s.rd R.TP_XB 0 n) = false → s.winner n = some (id, x) → pget s.xbar.txns id = some x →
      x.resp = none →
      y = { s with xbar := { s.xbar with winners := mset (fun _ => 8) s.xbar.winners x.port x.master, txns := pset s.xbar.txns id (some { x with gen := some (s.rdf R.FW_GEN 0 31 0) }) } } →
      rowOfRange x.addr x.len = some r → s.fwRefusal x.master x.secure x.write x.addr x.len = none →
      s.fabricAgent x = none ∨ r.2.2 ≠ .regs → r.2.2 = .sram → x.write = true → x.data.length = x.len →
      Gives (.xbarArbitration n) s fun t =>
      (∀ a, t.xbar.sram.byte a = if x.addr - r.1 ≤ a ∧ a < x.addr - r.1 + x.len then x.data.getD (a - (x.addr - r.1)) 0 else s.xbar.sram.byte a)
      ∧ (pget t.xbar.txns id).bind (·.resp) = some (false, false, [])
      ∧ t.xbar = { (y.respond id false false []).xbar with sram := t.xbar.sram } ∧ Frame noRegs [.xbar] s t)
  ∧ (∀ (s : State) (n : Fin 8) (id : Nat) (x : Txn) (y : State) (r : MapRow) (i : Nat) (z : State),
      s.testHeld (0x60 + n.val) (s.rd R.TP_XB 0 n) = false → s.winner n = some (id, x) → pget s.xbar.txns id = some x →
      x.resp = none →
      y = { s with xbar := { s.xbar with winners := mset (fun _ => 8) s.xbar.winners x.port x.master, txns := pset s.xbar.txns id (some { x with gen := some (s.rdf R.FW_GEN 0 31 0) }) } } →
      rowOfRange x.addr x.len = some r → s.fwRefusal x.master x.secure x.write x.addr x.len = none →
      s.fabricAgent x = none ∨ r.2.2 ≠ .regs → r.2.2 = .store 1 → x.write = true → r.2.2 = .store i →
      s.storeLocked i = false → z = y.setStoreMem i ((s.storeMem i).write (x.addr - r.1) x.data) →
      Gives (.xbarArbitration n) s fun t => (pget t.xbar.txns id).bind (·.resp) = some (false, false, [])
      ∧ t.storeSt i = .written ∧ Frame noRegs [] (((z.setStoreSt i .written).respond id false false [])) t)
  ∧ (∀ (s : State) (n : Fin 8) (id : Nat) (x : Txn) (y : State) (r : MapRow) (i : Nat) (z : State),
      s.testHeld (0x60 + n.val) (s.rd R.TP_XB 0 n) = false → s.winner n = some (id, x) → pget s.xbar.txns id = some x →
      x.resp = none →
      y = { s with xbar := { s.xbar with winners := mset (fun _ => 8) s.xbar.winners x.port x.master, txns := pset s.xbar.txns id (some { x with gen := some (s.rdf R.FW_GEN 0 31 0) }) } } →
      rowOfRange x.addr x.len = some r → s.fwRefusal x.master x.secure x.write x.addr x.len = none →
      s.fabricAgent x = none ∨ r.2.2 ≠ .regs → r.2.2 = .store 1 → x.write = true → r.2.2 = .store i →
      s.storeLocked i = true → z = (y.raise 0x10 5).report 0x10 0 0x0B s.schedStat (s.rd R.LOAD_STAT) →
      Gives (.xbarArbitration n) s fun t => (pget t.xbar.txns id).bind (·.resp) = some (true, false, [])
      ∧ Frame noRegs [] (((z.decodeError x.master true x.secure x.addr).respond id true false [])) t)
  ∧ (∀ (s : State) (n : Fin 8) (id : Nat) (x : Txn) (y : State) (r : MapRow) (i : Nat),
      s.testHeld (0x60 + n.val) (s.rd R.TP_XB 0 n) = false → s.winner n = some (id, x) → pget s.xbar.txns id = some x →
      x.resp = none →
      y = { s with xbar := { s.xbar with winners := mset (fun _ => 8) s.xbar.winners x.port x.master, txns := pset s.xbar.txns id (some { x with gen := some (s.rdf R.FW_GEN 0 31 0) }) } } →
      rowOfRange x.addr x.len = some r → s.fwRefusal x.master x.secure x.write x.addr x.len = none →
      s.fabricAgent x = none ∨ r.2.2 ≠ .regs → r.2.2 = .store 1 → x.write = false → r.2.2 = .store i →
      Gives (.xbarArbitration n) s fun t =>
      (pget t.xbar.txns id).bind (·.resp) = some (false, false, (s.storeMem i).bytes (x.addr - r.1) x.len)
      ∧ Frame noRegs [] ((y.respond id false false ((s.storeMem i).bytes (x.addr - r.1) x.len))) t)
  ∧ (∀ (s : State) (n : Fin 8) (id : Nat) (x : Txn) (y : State) (r : MapRow),
      s.testHeld (0x60 + n.val) (s.rd R.TP_XB 0 n) = false → s.winner n = some (id, x) → pget s.xbar.txns id = some x →
      x.resp = none →
      y = { s with xbar := { s.xbar with winners := mset (fun _ => 8) s.xbar.winners x.port x.master, txns := pset s.xbar.txns id (some { x with gen := some (s.rdf R.FW_GEN 0 31 0) }) } } →
      rowOfRange x.addr x.len = some r → s.fwRefusal x.master x.secure x.write x.addr x.len = none →
      s.fabricAgent x = none ∨ r.2.2 ≠ .regs → r.2.2 = .aonSram → x.write = true → x.master ≤ 1 → x.secure = true →
      Gives (.xbarArbitration n) s fun t => (pget t.xbar.txns id).bind (·.resp) = some (false, false, [])
      ∧ Frame noRegs [] (((y.aonWrite (x.addr - r.1) x.data).respond id false false [])) t)
  ∧ (∀ (s : State) (n : Fin 8) (id : Nat) (x : Txn) (y : State) (r : MapRow),
      s.testHeld (0x60 + n.val) (s.rd R.TP_XB 0 n) = false → s.winner n = some (id, x) → pget s.xbar.txns id = some x →
      x.resp = none →
      y = { s with xbar := { s.xbar with winners := mset (fun _ => 8) s.xbar.winners x.port x.master, txns := pset s.xbar.txns id (some { x with gen := some (s.rdf R.FW_GEN 0 31 0) }) } } →
      rowOfRange x.addr x.len = some r → s.fwRefusal x.master x.secure x.write x.addr x.len = none →
      s.fabricAgent x = none ∨ r.2.2 ≠ .regs → r.2.2 = .aonSram → x.write = true → 1 < x.master ∨ x.secure = false →
      Gives (.xbarArbitration n) s fun t => (pget t.xbar.txns id).bind (·.resp) = some (true, false, [])
      ∧ Frame noRegs [] (((y.decodeError x.master x.write x.secure x.addr).respond id true false [])) t)
  ∧ (∀ (s : State) (n : Fin 8) (id : Nat) (x : Txn) (y : State) (r : MapRow),
      s.testHeld (0x60 + n.val) (s.rd R.TP_XB 0 n) = false → s.winner n = some (id, x) → pget s.xbar.txns id = some x →
      x.resp = none →
      y = { s with xbar := { s.xbar with winners := mset (fun _ => 8) s.xbar.winners x.port x.master, txns := pset s.xbar.txns id (some { x with gen := some (s.rdf R.FW_GEN 0 31 0) }) } } →
      rowOfRange x.addr x.len = some r → s.fwRefusal x.master x.secure x.write x.addr x.len = none →
      s.fabricAgent x = none ∨ r.2.2 ≠ .regs → r.2.2 = .aonSram → x.write = false → Gives (.xbarArbitration n) s fun t =>
      (pget t.xbar.txns id).bind (·.resp) = some (false, false, bytesFrom s.aonByte (x.addr - r.1) x.len)
      ∧ Frame noRegs [] ((y.respond id false false (bytesFrom s.aonByte (x.addr - r.1) x.len))) t)
  ∧ (∀ (s : State) (n : Fin 8) (id : Nat) (x : Txn) (y : State) (r : MapRow) (z : State),
      s.testHeld (0x60 + n.val) (s.rd R.TP_XB 0 n) = false → s.winner n = some (id, x) → pget s.xbar.txns id = some x →
      x.resp = none →
      y = { s with xbar := { s.xbar with winners := mset (fun _ => 8) s.xbar.winners x.port x.master, txns := pset s.xbar.txns id (some { x with gen := some (s.rdf R.FW_GEN 0 31 0) }) } } →
      rowOfRange x.addr x.len = some r → s.fwRefusal x.master x.secure x.write x.addr x.len = none →
      s.fabricAgent x = none ∨ r.2.2 ≠ .regs → r.2.2 = .staging → x.write = false → z = { y with free := s.free + 1 } →
      Gives (.xbarArbitration n) s fun t =>
      (pget t.xbar.txns id).bind (·.resp) = some (false, false, bytesFrom (fun k => Config.stagingByte (s.free + k)) 0 x.len)
      ∧ Frame noRegs [] ((z.respond id false false (bytesFrom (fun k => Config.stagingByte (s.free + k)) 0 x.len))) t)
  ∧ (∀ (s : State) (n : Fin 8) (id : Nat) (x : Txn) (y : State) (r : MapRow),
      s.testHeld (0x60 + n.val) (s.rd R.TP_XB 0 n) = false → s.winner n = some (id, x) → pget s.xbar.txns id = some x →
      x.resp = none →
      y = { s with xbar := { s.xbar with winners := mset (fun _ => 8) s.xbar.winners x.port x.master, txns := pset s.xbar.txns id (some { x with gen := some (s.rdf R.FW_GEN 0 31 0) }) } } →
      rowOfRange x.addr x.len = some r → s.fwRefusal x.master x.secure x.write x.addr x.len = none →
      s.fabricAgent x = none ∨ r.2.2 ≠ .regs → r.2.2 = .rom → x.write = true → Gives (.xbarArbitration n) s fun t =>
      (pget t.xbar.txns id).bind (·.resp) = some (true, false, [])
      ∧ Frame noRegs [] (((y.decodeError x.master x.write x.secure x.addr).respond id true false [])) t)
  ∧ (∀ (s : State) (n : Fin 8) (id : Nat) (x : Txn) (y : State) (r : MapRow),
      s.testHeld (0x60 + n.val) (s.rd R.TP_XB 0 n) = false → s.winner n = some (id, x) → pget s.xbar.txns id = some x →
      x.resp = none →
      y = { s with xbar := { s.xbar with winners := mset (fun _ => 8) s.xbar.winners x.port x.master, txns := pset s.xbar.txns id (some { x with gen := some (s.rdf R.FW_GEN 0 31 0) }) } } →
      rowOfRange x.addr x.len = some r → s.fwRefusal x.master x.secure x.write x.addr x.len = none →
      s.fabricAgent x = none ∨ r.2.2 ≠ .regs → r.2.2 = .nvm → x.write = true → Gives (.xbarArbitration n) s fun t =>
      (pget t.xbar.txns id).bind (·.resp) = some (true, false, [])
      ∧ Frame noRegs [] (((y.decodeError x.master x.write x.secure x.addr).respond id true false [])) t)
  ∧ (∀ (s : State) (n : Fin 8) (id : Nat) (x : Txn) (y : State) (r : MapRow),
      s.testHeld (0x60 + n.val) (s.rd R.TP_XB 0 n) = false → s.winner n = some (id, x) → pget s.xbar.txns id = some x →
      x.resp = none →
      y = { s with xbar := { s.xbar with winners := mset (fun _ => 8) s.xbar.winners x.port x.master, txns := pset s.xbar.txns id (some { x with gen := some (s.rdf R.FW_GEN 0 31 0) }) } } →
      rowOfRange x.addr x.len = some r → s.fwRefusal x.master x.secure x.write x.addr x.len = none →
      s.fabricAgent x = none ∨ r.2.2 ≠ .regs → r.2.2 = .staging → x.write = true → Gives (.xbarArbitration n) s fun t =>
      (pget t.xbar.txns id).bind (·.resp) = some (true, false, [])
      ∧ Frame noRegs [] (((y.decodeError x.master x.write x.secure x.addr).respond id true false [])) t)
  ∧ (∀ (s : State) (n : Fin 8) (id : Nat) (x : Txn) (y : State) (r : MapRow) (z : State),
      s.testHeld (0x60 + n.val) (s.rd R.TP_XB 0 n) = false → s.winner n = some (id, x) → pget s.xbar.txns id = some x →
      x.resp = none →
      y = { s with xbar := { s.xbar with winners := mset (fun _ => 8) s.xbar.winners x.port x.master, txns := pset s.xbar.txns id (some { x with gen := some (s.rdf R.FW_GEN 0 31 0) }) } } →
      rowOfRange x.addr x.len = some r → s.fwRefusal x.master x.secure x.write x.addr x.len = none → r.2.2 = .regs →
      s.fabricAgent x = none →
      z = y.recordRejects [{ agent := 4, page := (x.addr - r.1) / 4096, bank := 0, off := (x.addr - r.1) % 4096, code := .access }] →
      Gives (.xbarArbitration n) s fun t => (pget t.xbar.txns id).bind (·.resp) = some (true, false, [])
      ∧ Frame noRegs [] (((z.decodeError x.master x.write x.secure x.addr).respond id true false [])) t)
  ∧ (∀ (s : State) (n : Fin 8) (id : Nat) (x : Txn) (y : State) (r : MapRow) (a : Agent),
      s.testHeld (0x60 + n.val) (s.rd R.TP_XB 0 n) = false → s.winner n = some (id, x) → pget s.xbar.txns id = some x →
      x.resp = none →
      y = { s with xbar := { s.xbar with winners := mset (fun _ => 8) s.xbar.winners x.port x.master, txns := pset s.xbar.txns id (some { x with gen := some (s.rdf R.FW_GEN 0 31 0) }) } } →
      rowOfRange x.addr x.len = some r → s.fwRefusal x.master x.secure x.write x.addr x.len = none → r.2.2 = .regs →
      s.fabricAgent x = some a → Gives (.xbarArbitration n) s fun t =>
      Frame noRegs [] (((y.fabricServe s id { x with gen := some (s.rdf R.FW_GEN 0 31 0) } a (x.addr - r.1)).2)) t)
  ∧ (∀ (s : State) (n : Fin 8) (id : Nat) (x : Txn) (y : State) (r : MapRow),
      s.testHeld (0x60 + n.val) (s.rd R.TP_XB 0 n) = false → s.winner n = some (id, x) → pget s.xbar.txns id = some x →
      x.resp = none →
      y = { s with xbar := { s.xbar with winners := mset (fun _ => 8) s.xbar.winners x.port x.master, txns := pset s.xbar.txns id (some { x with gen := some (s.rdf R.FW_GEN 0 31 0) }) } } →
      rowOfRange x.addr x.len = some r → s.fwRefusal x.master x.secure x.write x.addr x.len = none →
      s.fabricAgent x = none ∨ r.2.2 ≠ .regs → r.2.2 = .host → s.pcieMaster = false → Gives (.xbarArbitration n) s fun t =>
      (pget t.xbar.txns id).bind (·.resp) = some (true, false, []) ∧ Frame noRegs [] ((y.respond id true false [])) t)
  ∧ (∀ (s : State) (n : Fin 8) (id : Nat) (x : Txn) (y : State) (r : MapRow),
      s.testHeld (0x60 + n.val) (s.rd R.TP_XB 0 n) = false → s.winner n = some (id, x) → pget s.xbar.txns id = some x →
      x.resp = none →
      y = { s with xbar := { s.xbar with winners := mset (fun _ => 8) s.xbar.winners x.port x.master, txns := pset s.xbar.txns id (some { x with gen := some (s.rdf R.FW_GEN 0 31 0) }) } } →
      rowOfRange x.addr x.len = some r → s.fwRefusal x.master x.secure x.write x.addr x.len = none →
      s.fabricAgent x = none ∨ r.2.2 ≠ .regs → r.2.2 = .host → x.write = true → s.pcieMaster = true →
      Gives (.xbarArbitration n) s fun t => (pget t.xbar.txns id).bind (·.resp) = some (false, false, [])
      ∧ Frame noRegs [] (((y.tlps id true (x.addr - r.1) x.data (x.len + 1) 0 x.len).respond id false false [])) t)
  ∧ (∀ (s : State) (n : Fin 8) (id : Nat) (x : Txn) (y : State) (r : MapRow) (z : State),
      s.testHeld (0x60 + n.val) (s.rd R.TP_XB 0 n) = false → s.winner n = some (id, x) → pget s.xbar.txns id = some x →
      x.resp = none →
      y = { s with xbar := { s.xbar with winners := mset (fun _ => 8) s.xbar.winners x.port x.master, txns := pset s.xbar.txns id (some { x with gen := some (s.rdf R.FW_GEN 0 31 0) }) } } →
      rowOfRange x.addr x.len = some r → s.fwRefusal x.master x.secure x.write x.addr x.len = none →
      s.fabricAgent x = none ∨ r.2.2 ≠ .regs → r.2.2 = .host → x.write = false → s.pcieMaster = true →
      z = y.tlps id false (x.addr - r.1) x.data (x.len + 1) 0 x.len → Gives (.xbarArbitration n) s fun t =>
      t.pcie.outbound = s.pcie.outbound ++ [id]
      ∧ pget t.xbar.txns id = some { x with gen := some (s.rdf R.FW_GEN 0 31 0), waited := s.time.total }
      ∧ Frame noRegs [.xbar, .pcie] z t)
  ∧ (∀ (s : State) (n : Fin 8) (id : Nat) (x : Txn) (y : State) (r : MapRow) (k : Nat),
      s.testHeld (0x60 + n.val) (s.rd R.TP_XB 0 n) = false → s.winner n = some (id, x) → pget s.xbar.txns id = some x →
      x.resp = none →
      y = { s with xbar := { s.xbar with winners := mset (fun _ => 8) s.xbar.winners x.port x.master, txns := pset s.xbar.txns id (some { x with gen := some (s.rdf R.FW_GEN 0 31 0) }) } } →
      rowOfRange x.addr x.len = some r → s.fwRefusal x.master x.secure x.write x.addr x.len = none →
      s.fabricAgent x = none ∨ r.2.2 ≠ .regs → r.2.2 = .mesh k → s.meshZ ≠ 0 → k = s.meshSelf →
      Gives (.xbarArbitration n) s fun t => (pget t.xbar.txns id).bind (·.resp) = some (true, false, [])
      ∧ Frame noRegs [] (((y.decodeError x.master x.write x.secure x.addr).respond id true false [])) t)
  ∧ (∀ (s : State) (n : Fin 8) (id : Nat) (x : Txn) (y : State) (r : MapRow) (k : Nat),
      s.testHeld (0x60 + n.val) (s.rd R.TP_XB 0 n) = false → s.winner n = some (id, x) → pget s.xbar.txns id = some x →
      x.resp = none →
      y = { s with xbar := { s.xbar with winners := mset (fun _ => 8) s.xbar.winners x.port x.master, txns := pset s.xbar.txns id (some { x with gen := some (s.rdf R.FW_GEN 0 31 0) }) } } →
      rowOfRange x.addr x.len = some r → s.fwRefusal x.master x.secure x.write x.addr x.len = none →
      s.fabricAgent x = none ∨ r.2.2 ≠ .regs → r.2.2 = .mesh k → s.meshZ = 0 ∨ k ≠ s.meshSelf →
      Gives (.xbarArbitration n) s fun t => Frame noRegs [] ((y.meshCarry id k)) t)
  ∧ (∀ (s : State) (id : Nat) (x : Txn) (e : Bool) (q : Bool) (d : List Byte) (y : State) (z : State),
      pget s.xbar.txns id = some x → x.resp = some (e, q, d) → x.respAt + s.xbDelay x.port ≤ s.time.total →
      y = { s with xbar := { s.xbar with txns := pset s.xbar.txns id none } } →
      z = (if s.fenceDone = false ∧ y.fenceDone = true then y.raise 0x0C 2 else y) → Gives (.xbarResponse id) s fun t =>
      Frame noRegs [] (((z.deliver id x e q d).dmaPump)) t)
  ∧ (∀ (s : State) (id : Nat) (x : Txn) (e : Bool) (q : Bool) (d : List Byte) (y : State) (z : State),
      pget s.xbar.txns id = some x → x.resp = some (e, q, d) → x.respAt + s.xbDelay x.port ≤ s.time.total →
      y = { s with xbar := { s.xbar with txns := pset s.xbar.txns id none } } →
      z = (if s.fenceDone = false ∧ y.fenceDone = true then y.raise 0x0C 2 else y) → s.dma = {} →
      x.origin = .outside ∨ (x.origin = .pcie ∧ x.write = true ∧ e = false) → Gives (.xbarResponse id) s fun t =>
      pget t.xbar.txns id = none ∧ Frame noRegs [] z t)
  ∧ (∀ (s : State) (id : Nat) (x : Txn) (e : Bool) (q : Bool) (d : List Byte) (y : State) (z : State),
      pget s.xbar.txns id = some x → x.resp = some (e, q, d) → x.respAt + s.xbDelay x.port ≤ s.time.total →
      y = { s with xbar := { s.xbar with txns := pset s.xbar.txns id none } } →
      z = (if s.fenceDone = false ∧ y.fenceDone = true then y.raise 0x0C 2 else y) → s.dma = {} → x.origin = .pcie →
      x.write = true → e = true → Gives (.xbarResponse id) s fun t => .pcieErr ∈ t.sent ∧ Frame noRegs [] z t)
  ∧ (∀ (s : State) (id : Nat) (x : Txn) (e : Bool) (q : Bool) (d : List Byte) (y : State) (z : State),
      pget s.xbar.txns id = some x → x.resp = some (e, q, d) → x.respAt + s.xbDelay x.port ≤ s.time.total →
      y = { s with xbar := { s.xbar with txns := pset s.xbar.txns id none } } →
      z = (if s.fenceDone = false ∧ y.fenceDone = true then y.raise 0x0C 2 else y) → s.dma = {} → x.origin = .pcie →
      x.write = false → e = false → q = false → Gives (.xbarResponse id) s fun t => pget t.xbar.txns id = none
      ∧ .pcieCpl 0 d ∈ t.sent ∧ Frame noRegs [] z t)
  ∧ (∀ (s : State) (id : Nat) (x : Txn) (e : Bool) (q : Bool) (d : List Byte) (y : State) (z : State),
      pget s.xbar.txns id = some x → x.resp = some (e, q, d) → x.respAt + s.xbDelay x.port ≤ s.time.total →
      y = { s with xbar := { s.xbar with txns := pset s.xbar.txns id none } } →
      z = (if s.fenceDone = false ∧ y.fenceDone = true then y.raise 0x0C 2 else y) → s.dma = {} → x.origin = .pcie →
      x.write = false → e = true → q = false → Gives (.xbarResponse id) s fun t => .pcieCpl 1 [] ∈ t.sent
      ∧ t.rdf R.PCIE_ERR 0 63 48 = min (s.rdf R.PCIE_ERR 0 63 48 + 1) 65535 ∧ bit (t.hdr 0x0D hEvt) 2 = true
      ∧ Frame (regsIn [R.PCIE_ERR.key 0, regKey 0 0x0D 0 hEvt]) [] z t)
  ∧ (∀ (s : State) (id : Nat) (x : Txn) (e : Bool) (q : Bool) (d : List Byte) (y : State) (z : State),
      pget s.xbar.txns id = some x → x.resp = some (e, q, d) → x.respAt + s.xbDelay x.port ≤ s.time.total →
      y = { s with xbar := { s.xbar with txns := pset s.xbar.txns id none } } →
      z = (if s.fenceDone = false ∧ y.fenceDone = true then y.raise 0x0C 2 else y) → s.dma = {} → x.origin = .pcie →
      x.write = false → q = true → Gives (.xbarResponse id) s fun t => .pcieCpl 3 (List.replicate x.len 0) ∈ t.sent
      ∧ t.rdf R.PCIE_ERR 0 31 16 = min (s.rdf R.PCIE_ERR 0 31 16 + 1) 65535 ∧ bit (t.hdr 0x0D hEvt) 2 = true
      ∧ Frame (regsIn [R.PCIE_ERR.key 0, regKey 0 0x0D 0 hEvt]) [] z t)
  ∧ (∀ (s : State) (id : Nat), (pget s.xbar.txns id).bind (·.resp) = none → Gives (.xbarResponse id) s fun t =>
      Frame noRegs [] s t)
  ∧ (∀ (s : State) (id : Nat) (x : Txn), pget s.xbar.txns id = some x → s.time.total < x.respAt + s.xbDelay x.port →
      Gives (.xbarResponse id) s fun t => Frame noRegs [] s t)

/-- START runs a resting channel from its program's first word, and its fetch follows. ABORT stops a busy one with STATUS 6;
with its transactions retired it ends at once, with its final entry if it has one and its ring takes it, else it waits in
STOPPING. CLEAR makes a resting one idle; both drop a final entry that a full ring holds back. A write of DMA_EVT_SET
sets event flags and one of DMA_EVT_CLR clears them. The oldest transaction held is issued again when it is due, with its
QoS, and counted. A channel stopped by a bus error, its transactions retired, discards what it had read and halts with
STATUS 2, its event and its report. Where the rules leave a choice its clauses rest on the model's, log entries 3, 4,
134, 135, 136, 137, 138, 139, 251 and 280. -/
def Obligations.ChannelsAreCommanded : Prop :=
  (∀ (s : State) (a : Agent) (c : Nat) (y : State), s.accepts a 0x59 R.CH_CMD.off 1 = true →
      fld (s.rdAgent R.CH_SEL 0 a) 5 0 = c → y = s.setCh c { state := .run, pc := fld (s.chProg c) 47 0 } →
      Gives (.chCmdStart a) s fun t => Frame noRegs [] (y.dmaPump) t)
  ∧ (∀ (s : State) (a : Agent) (c : Nat) (v : Word), s.accepts a 0x59 R.CH_CMD.off 1 = true →
      fld (s.rdAgent R.CH_SEL 0 a) 5 0 = c → s.dma = { chan := [], events := v } → s.rd R.TP_DMA = 0 → s.dmaOut 3 < 2048 →
      s.dmaOut 4 < 2048 → (rowOfRange (fld (s.chProg c) 47 0) 8).isSome = true → Gives (.chCmdStart a) s fun t =>
      s.fetches t c (fld (s.chProg c) 47 0) ∧ t.dma.events = v ∧ Frame noRegs [.dma, .xbar] s t)
  ∧ (∀ (s : State) (a : Agent) (c : Nat), s.accepts a 0x59 R.CH_CMD.off 2 = true → fld (s.rdAgent R.CH_SEL 0 a) 5 0 = c →
      s.finalPending c = false → (s.ch c).held.length < (s.ch c).out → Gives (.chCmdAbort a) s fun t =>
      t.ch c = { s.ch c with state := .stopping, status := 6, ending := some (6, 0), copy := none, out := (s.ch c).out - (s.ch c).held.length, held := [] }
      ∧ t.dma = (s.setCh c (t.ch c)).dma ∧ Frame noRegs [.dma] s t)
  ∧ (∀ (s : State) (a : Agent) (c : Nat), s.accepts a 0x59 R.CH_CMD.off 2 = true → fld (s.rdAgent R.CH_SEL 0 a) 5 0 = c →
      s.finalPending c = false → (s.ch c).out ≤ (s.ch c).held.length →
      bit (s.chCfg c) 39 = false ∨ s.cplRing (fld (s.chCfg c) 51 40) = false → Gives (.chCmdAbort a) s fun t =>
      t.ch c = { s.ch c with state := .halted, status := 6, ending := none, copy := none, out := 0, held := [], pages := [], full := false, discarded := (s.ch c).unwritten }
      ∧ t.dma = (s.setCh c (t.ch c)).dma ∧ t.rdf R.DMA_ERR 0 47 32 = min (s.rdf R.DMA_ERR 0 47 32 + 1) 65535
      ∧ bit (t.hdr 0x59 hEvt) 1 = true ∧ Frame (regsIn [R.DMA_ERR.key 0, regKey 0 0x59 0 hEvt]) [.dma] s t)
  ∧ (∀ (s : State) (a : Agent) (c : Nat) (y : State) (z : State), s.accepts a 0x59 R.CH_CMD.off 2 = true →
      fld (s.rdAgent R.CH_SEL 0 a) 5 0 = c → s.finalPending c = false → (s.ch c).out ≤ (s.ch c).held.length →
      bit (s.chCfg c) 39 = true → s.cplRing (fld (s.chCfg c) 51 40) = true →
      y = s.setCh c { s.ch c with state := .stopping, status := 6, ending := some (6, 0), copy := none, out := 0, held := [], discarded := (s.ch c).unwritten } →
      (s.ring (fld (s.chCfg c) 51 40)).room ≠ 0 → z = y.ringProduce (fld (s.chCfg c) 51 40) (y.cplWords c 6 0) (some c) →
      Gives (.chCmdAbort a) s fun t => t.rdf R.DMA_ERR 0 47 32 = min (s.rdf R.DMA_ERR 0 47 32 + 1) 65535
      ∧ bit (t.hdr 0x59 hEvt) 1 = true
      ∧ Frame (regsIn [R.DMA_ERR.key 0, regKey 0 0x59 0 hEvt]) [] ((z.setCh c { z.ch c with state := .halted, ending := none, pages := [], full := false })) t)
  ∧ (∀ (s : State) (a : Agent) (c : Nat) (y : State), s.accepts a 0x59 R.CH_CMD.off 2 = true →
      fld (s.rdAgent R.CH_SEL 0 a) 5 0 = c → s.finalPending c = false → (s.ch c).out ≤ (s.ch c).held.length →
      bit (s.chCfg c) 39 = true → s.cplRing (fld (s.chCfg c) 51 40) = true →
      y = s.setCh c { s.ch c with state := .stopping, status := 6, ending := some (6, 0), copy := none, out := 0, held := [], discarded := (s.ch c).unwritten } →
      (s.ring (fld (s.chCfg c) 51 40)).room = 0 → (s.ch c).full = false → Gives (.chCmdAbort a) s fun t =>
      t.ch c = { y.ch c with full := true } ∧ t.rdf R.QM_ERR 0 63 48 = min (s.rdf R.QM_ERR 0 63 48 + 1) 65535
      ∧ bit (t.hdr 0x58 hEvt) 0 = true ∧ t.dma = (s.setCh c (t.ch c)).dma
      ∧ Frame (regsIn [R.QM_ERR.key 0, R.QM_LAST_ERR.key 0, regKey 0 0x58 0 hEvt]) [.dma] s t)
  ∧ (∀ (s : State) (a : Agent) (c : Nat) (y : State), s.accepts a 0x59 R.CH_CMD.off 2 = true →
      fld (s.rdAgent R.CH_SEL 0 a) 5 0 = c → s.finalPending c = false → (s.ch c).out ≤ (s.ch c).held.length →
      bit (s.chCfg c) 39 = true → s.cplRing (fld (s.chCfg c) 51 40) = true →
      y = s.setCh c { s.ch c with state := .stopping, status := 6, ending := some (6, 0), copy := none, out := 0, held := [], discarded := (s.ch c).unwritten } →
      (s.ring (fld (s.chCfg c) 51 40)).room = 0 → (s.ch c).full = true → Gives (.chCmdAbort a) s fun t =>
      Frame noRegs [] y t)
  ∧ (∀ (s : State) (a : Agent) (c : Nat) (n : Nat) (g : Nat), s.accepts a 0x59 R.CH_CMD.off 2 = true →
      fld (s.rdAgent R.CH_SEL 0 a) 5 0 = c → s.finalPending c = true → (s.ch c).ending = some (n, g) →
      Gives (.chCmdAbort a) s fun t =>
      t.ch c = { s.ch c with state := (if n = 1 then .done else .halted), ending := none, pages := [], full := false }
      ∧ t.dma = (s.setCh c (t.ch c)).dma ∧ (n = 1 → bit (t.hdr 0x59 hEvt) 0 = true)
      ∧ (n ≠ 1 → t.rdf R.DMA_ERR 0 47 32 = min (s.rdf R.DMA_ERR 0 47 32 + 1) 65535 ∧ bit (t.hdr 0x59 hEvt) 1 = true)
      ∧ Frame (regsIn [R.DMA_ERR.key 0, regKey 0 0x59 0 hEvt]) [.dma] s t)
  ∧ (∀ (s : State) (a : Agent) (c : Nat), s.accepts a 0x59 R.CH_CMD.off 4 = true → fld (s.rdAgent R.CH_SEL 0 a) 5 0 = c →
      s.finalPending c = false → Gives (.chCmdClear a) s fun t => t.ch c = { s.ch c with state := .idle }
      ∧ t.dma = (s.setCh c (t.ch c)).dma ∧ Frame noRegs [.dma] s t)
  ∧ (∀ (s : State) (a : Agent) (c : Nat) (n : Nat) (g : Nat), s.accepts a 0x59 R.CH_CMD.off 4 = true →
      fld (s.rdAgent R.CH_SEL 0 a) 5 0 = c → s.finalPending c = true → (s.ch c).ending = some (n, g) →
      Gives (.chCmdClear a) s fun t =>
      t.ch c = { s.ch c with state := (if n = 1 then .done else .halted), ending := none, pages := [], full := false }
      ∧ t.dma = (s.setCh c (t.ch c)).dma ∧ (n = 1 → bit (t.hdr 0x59 hEvt) 0 = true)
      ∧ (n ≠ 1 → t.rdf R.DMA_ERR 0 47 32 = min (s.rdf R.DMA_ERR 0 47 32 + 1) 65535 ∧ bit (t.hdr 0x59 hEvt) 1 = true)
      ∧ Frame (regsIn [R.DMA_ERR.key 0, regKey 0 0x59 0 hEvt]) [.dma] s t)
  ∧ (∀ (s : State) (a : Agent) (v : Word), s.accepts a 0x59 R.DMA_EVT_SET.off v = true → Gives (.dmaEvtSet a v) s fun t =>
      t.dma = { s.dma with events := s.dma.events ||| v } ∧ Frame noRegs [.dma] s t)
  ∧ (∀ (s : State) (a : Agent) (v : Word), s.accepts a 0x59 R.DMA_EVT_CLR.off v = true → Gives (.dmaEvtClr a v) s fun t =>
      t.dma = { s.dma with events := s.dma.events &&& ~~~v } ∧ Frame noRegs [.dma] s t)
  ∧ (∀ (s : State) (c : Fin 64) (n : Nat) (x : Txn) (rest : List (Nat × Txn)) (o : Origin) (y : State),
      (s.ch c).held = (n, x) :: rest → s.dmaHeld (x.waited + 512 + testDelay (s.rd R.TP_DMA)) = false →
      s.dmaOut x.master < 2048 →
      o = (match x.origin with | .dmaFetch k i => .dmaFetch k (i + 1) | .dmaRead k i q => .dmaRead k (i + 1) q | .dmaWrite k i q => .dmaWrite k (i + 1) q | o => o) →
      y = (s.setCh c { s.ch c with held := rest, pages := (s.ch c).pages.map fun p => if p.txn = n then { p with txn := s.xbar.next } else p }).countf R.DMA_ERR 0 63 48 →
      Gives (.dmaRetry c) s fun t => t.rdf R.DMA_ERR 0 63 48 = min (s.rdf R.DMA_ERR 0 63 48 + 1) 65535 ∧ (t.ch c).held = rest
      ∧ t.xbar.next = s.xbar.next + 1
      ∧ (pget t.xbar.txns s.xbar.next).map (fun v => (v.write, v.len, v.qos, v.origin)) = some (x.write, x.len, x.qos, o)
      ∧ Frame noRegs [] ((y.enter x.master x.secure x.write x.addr x.len (if x.write then x.data else []) (some x.qos) o)) t)
  ∧ (∀ (s : State) (c : Fin 64), (s.ch c).held = [] → Gives (.dmaRetry c) s fun t => Frame noRegs [] s t)
  ∧ (∀ (s : State) (c : Fin 64) (n : Nat) (x : Txn) (rest : List (Nat × Txn)), (s.ch c).held = (n, x) :: rest →
      s.dmaHeld (x.waited + 512 + testDelay (s.rd R.TP_DMA)) = true ∨ 2048 ≤ s.dmaOut x.master →
      Gives (.dmaRetry c) s fun t => Frame noRegs [] s t)
  ∧ (∀ (s : State) (c : Fin 64) (g : Nat) (k : Chan), (s.ch c).ending = some (2, g) → (s.ch c).state = .stopping →
      (s.ch c).out = 0 → k = { s.ch c with discarded := (s.ch c).unwritten, pages := [] } →
      bit (s.chCfg c) 39 = false ∨ s.cplRing (fld (s.chCfg c) 51 40) = false → Gives (.dmaChannelHalt c) s fun t =>
      t.ch c = { k with state := .halted, ending := none, full := false } ∧ t.dma = (s.setCh c (t.ch c)).dma
      ∧ t.rdf R.DMA_ERR 0 47 32 = min (s.rdf R.DMA_ERR 0 47 32 + 1) 65535 ∧ bit (t.hdr 0x59 hEvt) 1 = true
      ∧ s.reports t 0x5A 0 0x15 (t.chStat c) (word (k.pc % 2 ^ 48))
      ∧ Frame (regsIn (R.DMA_ERR.key 0 :: regKey 0 0x59 0 hEvt :: reportKeys)) [.dma, .bitt] s t)
  ∧ (∀ (s : State) (c : Fin 64) (g : Nat) (k : Chan) (y : State) (z : State), (s.ch c).ending = some (2, g) →
      (s.ch c).state = .stopping → (s.ch c).out = 0 → k = { s.ch c with discarded := (s.ch c).unwritten, pages := [] } →
      bit (s.chCfg c) 39 = true → s.cplRing (fld (s.chCfg c) 51 40) = true → (s.ring (fld (s.chCfg c) 51 40)).room ≠ 0 →
      y = s.setCh c k → z = y.ringProduce (fld (s.chCfg c) 51 40) (y.cplWords c 2 g) (some c) →
      Gives (.dmaChannelHalt c) s fun t => t.rdf R.DMA_ERR 0 47 32 = min (s.rdf R.DMA_ERR 0 47 32 + 1) 65535
      ∧ bit (t.hdr 0x59 hEvt) 1 = true ∧ (t.ch c).state = .halted
      ∧ z.reports t 0x5A 0 0x15 (t.chStat c) (word (k.pc % 2 ^ 48))
      ∧ Frame (regsIn (R.DMA_ERR.key 0 :: regKey 0 0x59 0 hEvt :: reportKeys)) [.bitt] ((z.setCh c { z.ch c with state := .halted, ending := none, pages := [], full := false })) t)
  ∧ (∀ (s : State) (c : Fin 64) (g : Nat) (k : Chan), (s.ch c).ending = some (2, g) → (s.ch c).state = .stopping →
      (s.ch c).out = 0 → k = { s.ch c with discarded := (s.ch c).unwritten, pages := [] } → bit (s.chCfg c) 39 = true →
      s.cplRing (fld (s.chCfg c) 51 40) = true → (s.ring (fld (s.chCfg c) 51 40)).room = 0 →
      Gives (.dmaChannelHalt c) s fun t => t.ch c = { k with full := true } ∧ t.dma = (s.setCh c (t.ch c)).dma
      ∧ ((s.ch c).full = false → t.rdf R.QM_ERR 0 63 48 = min (s.rdf R.QM_ERR 0 63 48 + 1) 65535 ∧ bit (t.hdr 0x58 hEvt) 0 = true)
      ∧ ((s.ch c).full = true → Frame noRegs [.dma] s t)
      ∧ Frame (regsIn [R.QM_ERR.key 0, R.QM_LAST_ERR.key 0, regKey 0 0x58 0 hEvt]) [.dma] s t)
  ∧ (∀ (s : State) (c : Fin 64) (n : Nat) (g : Nat) (y : State), (s.ch c).ending = some (n, g) → n ≠ 2 →
      (s.ch c).state = .stopping → (s.ch c).out = 0 → y = s.setCh c { s.ch c with discarded := (s.ch c).unwritten } →
      Gives (.dmaChannelHalt c) s fun t => Frame noRegs [] ((y.dmaFinal c n g)) t)
  ∧ (∀ (s : State) (c : Fin 64), (s.ch c).ending = none ∨ (s.ch c).state ≠ .stopping ∨ (s.ch c).out ≠ 0 →
      Gives (.dmaChannelHalt c) s fun t => Frame noRegs [] s t)

/-- A MOVE or MOVE2D begins its copy, and one with a range outside one row of the map halts the channel with STATUS 4. A LOOP
with count left steps the offsets and branches, one without restores them and goes on, and one at another LOOP's level
halts with STATUS 3. A WAIT for an event, a tide or ring space goes on when it has come and holds the channel till then;
a past epoch halts it with STATUS 7, a ring that is off with 8, its time-out with 5. SIGNAL sets its flag or writes its
entry, FENCE goes on once nothing is outstanding, END ends the channel. What the engines can issue then follows
(dmaPump): on a lone channel the copy's first read, or the next fetch. A channel that is not at the instruction stays as
it is. Where the rules leave a choice its clauses rest on the model's, log entries 3, 134, 138 and 139. -/
def Obligations.ChannelsRunTheirPrograms : Prop :=
  (∀ (s : State) (c : Fin 64) (k : Chan) (w : Word) (a : Nat) (d : Nat) (ra : MapRow) (rd : MapRow) (e : Chan) (y : State),
      s.dmaAt c 1 = true → k = s.ch c → w = k.instr.headD 0 → a = relAddr (bit w 59) (fld (k.instr.getD 1 0) 47 0) k.ofsS →
      d = relAddr (bit w 59) (fld (k.instr.getD 2 0) 47 0) k.ofsD → rowOfSpan (span a 1 (fld w 31 0) 0) = some ra →
      rowOfSpan (span d 1 (fld w 31 0) 0) = some rd →
      e = { k with copy := some { src := a, dst := d, rowLen := fld w 31 0, rows := 1, sStride := 0, dStride := 0, same := ra.1 == rd.1, serial := (ra.1 == rd.1 && decide ((span a 1 (fld w 31 0) 0).1 < (span d 1 (fld w 31 0) 0).2) && decide ((span d 1 (fld w 31 0) 0).1 < (span a 1 (fld w 31 0) 0).2)) && decide (1 < 1) }, written := 0, discarded := 0, seq := k.seq + 1, moves := { seq := k.seq + 1, pc := k.pc, written := 0 } :: k.moves.filter fun m => k.pages.any fun p => p.seq = m.seq } →
      y = s.setCh c e → Gives (.move c) s fun t => Frame noRegs [] (y.dmaPump) t)
  ∧ (∀ (s : State) (c : Fin 64) (k : Chan) (w : Word) (a : Nat) (d : Nat) (ra : MapRow) (rd : MapRow) (e : Chan) (v : Word),
      s.dmaAt c 1 = true → k = s.ch c → w = k.instr.headD 0 → a = relAddr (bit w 59) (fld (k.instr.getD 1 0) 47 0) k.ofsS →
      d = relAddr (bit w 59) (fld (k.instr.getD 2 0) 47 0) k.ofsD → s.dma = { chan := [(c.val, k)], events := v } →
      s.rd R.TP_DMA = 0 → s.dmaOut 3 < 2048 → s.dmaOut 4 < 2048 → rowOfSpan (span a 1 (fld w 31 0) 0) = some ra →
      rowOfSpan (span d 1 (fld w 31 0) 0) = some rd → k.pages = [] → k.out = 0 → fld (s.chCfg c) 26 16 = 0 →
      e = { k with copy := some { src := a, dst := d, rowLen := fld w 31 0, rows := 1, sStride := 0, dStride := 0, same := ra.1 == rd.1, serial := (ra.1 == rd.1 && decide ((span a 1 (fld w 31 0) 0).1 < (span d 1 (fld w 31 0) 0).2) && decide ((span d 1 (fld w 31 0) 0).1 < (span a 1 (fld w 31 0) 0).2)) && decide (1 < 1) }, written := 0, discarded := 0, seq := k.seq + 1, moves := { seq := k.seq + 1, pc := k.pc, written := 0 } :: k.moves.filter fun m => k.pages.any fun p => p.seq = m.seq } →
      Gives (.move c) s fun t => t.ch c = e ∧ t.dma = (s.setCh c (t.ch c)).dma ∧ Frame noRegs [.dma] s t)
  ∧ (∀ (s : State) (c : Fin 64) (k : Chan) (w : Word) (a : Nat) (d : Nat), s.dmaAt c 1 = true → k = s.ch c →
      w = k.instr.headD 0 → a = relAddr (bit w 59) (fld (k.instr.getD 1 0) 47 0) k.ofsS →
      d = relAddr (bit w 59) (fld (k.instr.getD 2 0) 47 0) k.ofsD →
      rowOfSpan (span a 1 (fld w 31 0) 0) = none ∨ rowOfSpan (span d 1 (fld w 31 0) 0) = none → Gives (.move c) s fun t =>
      Frame noRegs [] ((s.dmaStop c 4 0).dmaPump) t)
  ∧ (∀ (s : State) (c : Fin 64), s.dmaAt c 1 = false → Gives (.move c) s fun t => Frame noRegs [] s t)
  ∧ (∀ (s : State) (c : Fin 64) (k : Chan) (w : Word) (a : Nat) (d : Nat) (ra : MapRow) (rd : MapRow) (v : Word),
      s.dmaAt c 1 = true → k = s.ch c → w = k.instr.headD 0 → a = relAddr (bit w 59) (fld (k.instr.getD 1 0) 47 0) k.ofsS →
      d = relAddr (bit w 59) (fld (k.instr.getD 2 0) 47 0) k.ofsD → s.dma = { chan := [(c.val, k)], events := v } →
      s.rd R.TP_DMA = 0 → s.dmaOut 3 < 2048 → s.dmaOut 4 < 2048 → rowOfSpan (span a 1 (fld w 31 0) 0) = some ra →
      rowOfSpan (span d 1 (fld w 31 0) 0) = some rd → k.pages = [] → 0 < fld (s.chCfg c) 26 16 →
      a % 4096 + fld w 31 0 ≤ 4096 → d < a ∨ a + fld w 31 0 ≤ d → 0 < fld w 31 0 → k.instr.length = 3 →
      (rowOfRange ((k.pc + 24) % 2 ^ 48) 8).isSome = true → (rowOfRange a (fld w 31 0)).isSome = true → k.fetching = false →
      Gives (.move c) s fun t =>
      (t.ch c).pages = [{ txn := s.xbar.next, seq := k.seq + 1, dst := d, len := fld w 31 0, data := none }]
      ∧ (t.ch c).copy = none
      ∧ (pget t.xbar.txns s.xbar.next).map (fun z => (z.write, z.addr, z.len, z.origin)) = some (false, a, fld w 31 0, .dmaRead c 0 (k.seq + 1))
      ∧ (t.ch c).pc = (k.pc + 24) % 2 ^ 48 ∧ t.dma.events = v ∧ Frame noRegs [.dma, .xbar] s t)
  ∧ (∀ (s : State) (c : Fin 64) (k : Chan) (w : Word) (a : Nat) (d : Nat) (ra : MapRow) (rd : MapRow) (e : Chan) (y : State),
      s.dmaAt c 2 = true → k = s.ch c → w = k.instr.headD 0 → a = relAddr (bit w 59) (fld (k.instr.getD 1 0) 47 0) k.ofsS →
      d = relAddr (bit w 59) (fld (k.instr.getD 2 0) 47 0) k.ofsD →
      rowOfSpan (span a (fld w 51 32 + 1) (fld w 31 0) (sfld (k.instr.getD 3 0) 63 32)) = some ra →
      rowOfSpan (span d (fld w 51 32 + 1) (fld w 31 0) (sfld (k.instr.getD 3 0) 31 0)) = some rd →
      e = { k with copy := some { src := a, dst := d, rowLen := fld w 31 0, rows := (fld w 51 32 + 1), sStride := (sfld (k.instr.getD 3 0) 63 32), dStride := (sfld (k.instr.getD 3 0) 31 0), same := ra.1 == rd.1, serial := (ra.1 == rd.1 && decide ((span a (fld w 51 32 + 1) (fld w 31 0) (sfld (k.instr.getD 3 0) 63 32)).1 < (span d (fld w 51 32 + 1) (fld w 31 0) (sfld (k.instr.getD 3 0) 31 0)).2) && decide ((span d (fld w 51 32 + 1) (fld w 31 0) (sfld (k.instr.getD 3 0) 31 0)).1 < (span a (fld w 51 32 + 1) (fld w 31 0) (sfld (k.instr.getD 3 0) 63 32)).2)) && decide (1 < (fld w 51 32 + 1)) }, written := 0, discarded := 0, seq := k.seq + 1, moves := { seq := k.seq + 1, pc := k.pc, written := 0 } :: k.moves.filter fun m => k.pages.any fun p => p.seq = m.seq } →
      y = s.setCh c e → Gives (.move2d c) s fun t => Frame noRegs [] (y.dmaPump) t)
  ∧ (∀ (s : State) (c : Fin 64) (k : Chan) (w : Word) (a : Nat) (d : Nat) (ra : MapRow) (rd : MapRow) (e : Chan) (v : Word),
      s.dmaAt c 2 = true → k = s.ch c → w = k.instr.headD 0 → a = relAddr (bit w 59) (fld (k.instr.getD 1 0) 47 0) k.ofsS →
      d = relAddr (bit w 59) (fld (k.instr.getD 2 0) 47 0) k.ofsD → s.dma = { chan := [(c.val, k)], events := v } →
      s.rd R.TP_DMA = 0 → s.dmaOut 3 < 2048 → s.dmaOut 4 < 2048 →
      rowOfSpan (span a (fld w 51 32 + 1) (fld w 31 0) (sfld (k.instr.getD 3 0) 63 32)) = some ra →
      rowOfSpan (span d (fld w 51 32 + 1) (fld w 31 0) (sfld (k.instr.getD 3 0) 31 0)) = some rd → k.pages = [] → k.out = 0 →
      fld (s.chCfg c) 26 16 = 0 →
      e = { k with copy := some { src := a, dst := d, rowLen := fld w 31 0, rows := (fld w 51 32 + 1), sStride := (sfld (k.instr.getD 3 0) 63 32), dStride := (sfld (k.instr.getD 3 0) 31 0), same := ra.1 == rd.1, serial := (ra.1 == rd.1 && decide ((span a (fld w 51 32 + 1) (fld w 31 0) (sfld (k.instr.getD 3 0) 63 32)).1 < (span d (fld w 51 32 + 1) (fld w 31 0) (sfld (k.instr.getD 3 0) 31 0)).2) && decide ((span d (fld w 51 32 + 1) (fld w 31 0) (sfld (k.instr.getD 3 0) 31 0)).1 < (span a (fld w 51 32 + 1) (fld w 31 0) (sfld (k.instr.getD 3 0) 63 32)).2)) && decide (1 < (fld w 51 32 + 1)) }, written := 0, discarded := 0, seq := k.seq + 1, moves := { seq := k.seq + 1, pc := k.pc, written := 0 } :: k.moves.filter fun m => k.pages.any fun p => p.seq = m.seq } →
      Gives (.move2d c) s fun t => t.ch c = e ∧ t.dma = (s.setCh c (t.ch c)).dma ∧ Frame noRegs [.dma] s t)
  ∧ (∀ (s : State) (c : Fin 64) (k : Chan) (w : Word) (a : Nat) (d : Nat), s.dmaAt c 2 = true → k = s.ch c →
      w = k.instr.headD 0 → a = relAddr (bit w 59) (fld (k.instr.getD 1 0) 47 0) k.ofsS →
      d = relAddr (bit w 59) (fld (k.instr.getD 2 0) 47 0) k.ofsD →
      rowOfSpan (span a (fld w 51 32 + 1) (fld w 31 0) (sfld (k.instr.getD 3 0) 63 32)) = none ∨ rowOfSpan (span d (fld w 51 32 + 1) (fld w 31 0) (sfld (k.instr.getD 3 0) 31 0)) = none →
      Gives (.move2d c) s fun t => Frame noRegs [] ((s.dmaStop c 4 0).dmaPump) t)
  ∧ (∀ (s : State) (c : Fin 64), s.dmaAt c 2 = false → Gives (.move2d c) s fun t => Frame noRegs [] s t)
  ∧ (∀ (s : State) (c : Fin 64) (k : Chan) (w : Word) (u : Word) (i : Nat) (l : LoopLevel) (e : Chan), s.dmaAt c 3 = true →
      k = s.ch c → w = k.instr.headD 0 → u = k.instr.getD 1 0 → i = (k.pc - (s.chProg c).toNat) / 8 →
      l = (k.level (bit w 59)).getD { at_ := i, left := fld w 31 0, taken := 0 } → l.at_ = i → l.left ≠ 0 ∨ fld w 31 0 = 0 →
      e = Chan.setLevel { k with ofsS := stepOfs k.ofsS (sfld u 63 32), ofsD := stepOfs k.ofsD (sfld u 31 0), pc := ((s.chProg c).toNat + 8 * fld w 47 32) % 2 ^ 48, instr := [] } (bit w 59) (some { l with left := l.left - 1, taken := l.taken + 1 }) →
      Gives (.dmaLoop c) s fun t => Frame noRegs [] ((s.setCh c e).dmaPump) t)
  ∧ (∀ (s : State) (c : Fin 64) (k : Chan) (w : Word) (u : Word) (i : Nat) (l : LoopLevel) (e : Chan), s.dmaAt c 3 = true →
      k = s.ch c → w = k.instr.headD 0 → u = k.instr.getD 1 0 → i = (k.pc - (s.chProg c).toNat) / 8 →
      l = (k.level (bit w 59)).getD { at_ := i, left := fld w 31 0, taken := 0 } → l.at_ = i → l.left = 0 → fld w 31 0 ≠ 0 →
      e = Chan.setLevel { k with ofsS := stepOfs k.ofsS (-(l.taken * sfld u 63 32)), ofsD := stepOfs k.ofsD (-(l.taken * sfld u 31 0)) } (bit w 59) none →
      Gives (.dmaLoop c) s fun t => Frame noRegs [] (((s.setCh c e).dmaNext c).dmaPump) t)
  ∧ (∀ (s : State) (c : Fin 64) (k : Chan) (w : Word) (u : Word) (i : Nat) (l : LoopLevel), s.dmaAt c 3 = true → k = s.ch c →
      w = k.instr.headD 0 → u = k.instr.getD 1 0 → i = (k.pc - (s.chProg c).toNat) / 8 →
      l = (k.level (bit w 59)).getD { at_ := i, left := fld w 31 0, taken := 0 } → l.at_ ≠ i → Gives (.dmaLoop c) s fun t =>
      Frame noRegs [] ((s.dmaStop c 3 0)) t)
  ∧ (∀ (s : State) (c : Fin 64), s.dmaAt c 3 = false → Gives (.dmaLoop c) s fun t => Frame noRegs [] s t)
  ∧ (∀ (s : State) (c : Fin 64) (w : Word) (y : State), s.dmaWaits c 4 = true → w = (s.ch c).instr.headD 0 →
      fld w 59 58 = 0 → bit s.dma.events (fld w 5 0) = true → s.lowerWaits c (fld w 5 0) = false →
      y = { s with dma := { s.dma with events := clrBit s.dma.events (fld w 5 0) } } → Gives (.dmaWait c) s fun t =>
      Frame noRegs [] ((y.dmaNext c).dmaPump) t)
  ∧ (∀ (s : State) (c : Fin 64) (w : Word), s.dmaWaits c 4 = true → w = (s.ch c).instr.headD 0 → fld w 59 58 = 0 →
      bit s.dma.events (fld w 5 0) = false ∨ s.lowerWaits c (fld w 5 0) = true → Gives (.dmaWait c) s fun t =>
      t.ch c = (if (s.ch c).state = .wait then s.ch c else { s.ch c with state := .wait, waitFrom := s.time.total })
      ∧ t.dma = (if (s.ch c).state = .wait then s else s.setCh c (t.ch c)).dma ∧ Frame noRegs [.dma] s t)
  ∧ (∀ (s : State) (c : Fin 64) (w : Word), s.dmaWaits c 4 = true → w = (s.ch c).instr.headD 0 → fld w 59 58 = 1 →
      fld w 31 0 = s.time.epoch → ((s.ch c).instr.getD 1 0).toNat ≤ s.time.tide → Gives (.dmaWait c) s fun t =>
      Frame noRegs [] ((s.dmaNext c).dmaPump) t)
  ∧ (∀ (s : State) (c : Fin 64) (w : Word), s.dmaWaits c 4 = true → w = (s.ch c).instr.headD 0 → fld w 59 58 = 1 →
      s.time.epoch < fld w 31 0 ∨ (fld w 31 0 = s.time.epoch ∧ s.time.tide < ((s.ch c).instr.getD 1 0).toNat) →
      Gives (.dmaWait c) s fun t =>
      t.ch c = (if (s.ch c).state = .wait then s.ch c else { s.ch c with state := .wait, waitFrom := s.time.total })
      ∧ t.dma = (if (s.ch c).state = .wait then s else s.setCh c (t.ch c)).dma ∧ Frame noRegs [.dma] s t)
  ∧ (∀ (s : State) (c : Fin 64) (w : Word), s.dmaWaits c 4 = true → w = (s.ch c).instr.headD 0 → fld w 59 58 = 1 →
      fld w 31 0 < s.time.epoch → Gives (.dmaWait c) s fun t => Frame noRegs [] ((s.dmaStop c 7 0)) t)
  ∧ (∀ (s : State) (c : Fin 64) (w : Word) (g : Ring), s.dmaWaits c 4 = true → w = (s.ch c).instr.headD 0 →
      fld w 59 58 = 2 ∨ fld w 59 58 = 3 → g = s.ring (fld w 27 16) → g.on = true → fld w 15 0 ≤ g.room →
      Gives (.dmaWait c) s fun t => Frame noRegs [] ((s.dmaNext c).dmaPump) t)
  ∧ (∀ (s : State) (c : Fin 64) (w : Word) (g : Ring), s.dmaWaits c 4 = true → w = (s.ch c).instr.headD 0 →
      fld w 59 58 = 2 ∨ fld w 59 58 = 3 → g = s.ring (fld w 27 16) → g.on = true → g.room < fld w 15 0 →
      Gives (.dmaWait c) s fun t =>
      t.ch c = (if (s.ch c).state = .wait then s.ch c else { s.ch c with state := .wait, waitFrom := s.time.total })
      ∧ t.dma = (if (s.ch c).state = .wait then s else s.setCh c (t.ch c)).dma ∧ Frame noRegs [.dma] s t)
  ∧ (∀ (s : State) (c : Fin 64) (w : Word) (g : Ring), s.dmaWaits c 4 = true → w = (s.ch c).instr.headD 0 →
      fld w 59 58 = 2 ∨ fld w 59 58 = 3 → g = s.ring (fld w 27 16) → g.on = false → Gives (.dmaWait c) s fun t =>
      Frame noRegs [] ((s.dmaStop c 8 0)) t)
  ∧ (∀ (s : State) (c : Fin 64), s.dmaWaits c 4 = false → Gives (.dmaWait c) s fun t => Frame noRegs [] s t)
  ∧ (∀ (s : State) (c : Fin 64) (w : Word), (s.ch c).state = .wait → w = (s.ch c).instr.headD 0 → fld w 63 60 = 4 →
      fld w 47 32 ≠ 0 → (s.ch c).waitFrom + 1500 * fld w 47 32 ≤ s.time.total → Gives (.dmaWaitTimeout c) s fun t =>
      Frame noRegs [] ((s.dmaStop c 5 0)) t)
  ∧ (∀ (s : State) (c : Fin 64) (w : Word), w = (s.ch c).instr.headD 0 →
      (s.ch c).state ≠ .wait ∨ fld w 63 60 ≠ 4 ∨ fld w 47 32 = 0 ∨ s.time.total < (s.ch c).waitFrom + 1500 * fld w 47 32 →
      Gives (.dmaWaitTimeout c) s fun t => Frame noRegs [] s t)
  ∧ (∀ (s : State) (c : Fin 64) (w : Word) (y : State), s.dmaWaits c 5 = true → w = (s.ch c).instr.headD 0 →
      bit w 59 = true → y = { s with dma := { s.dma with events := setBit s.dma.events (fld w 5 0) } } →
      Gives (.signal c) s fun t => Frame noRegs [] ((y.dmaNext c).dmaPump) t)
  ∧ (∀ (s : State) (c : Fin 64) (w : Word) (v : Word) (k : Chan), s.dmaWaits c 5 = true → w = (s.ch c).instr.headD 0 →
      s.dma = { chan := [(c.val, k)], events := v } → s.rd R.TP_DMA = 0 → s.dmaOut 3 < 2048 → s.dmaOut 4 < 2048 →
      bit w 59 = true → k.pages = [] → k.copy = none → k.instr ≠ [] → k.fetching = false →
      (rowOfRange ((k.pc + 8) % 2 ^ 48) 8).isSome = true → Gives (.signal c) s fun t => s.fetches t c ((k.pc + 8) % 2 ^ 48)
      ∧ t.dma.events = setBit v (fld w 5 0) ∧ Frame noRegs [.dma, .xbar] s t)
  ∧ (∀ (s : State) (c : Fin 64) (w : Word) (r : Nat) (y : State), s.dmaWaits c 5 = true → w = (s.ch c).instr.headD 0 →
      bit w 59 = false → r = fld w 43 32 → s.cplRing r = true → (s.ring r).room ≠ 0 →
      y = s.ringProduce r (s.cplWords c 0 (fld w 31 0)) (some c) → Gives (.signal c) s fun t =>
      Frame noRegs [] ((y.dmaNext c).dmaPump) t)
  ∧ (∀ (s : State) (c : Fin 64) (w : Word) (r : Nat), s.dmaWaits c 5 = true → w = (s.ch c).instr.headD 0 → bit w 59 = false →
      r = fld w 43 32 → s.cplRing r = false → Gives (.signal c) s fun t => Frame noRegs [] ((s.dmaStop c 8 0)) t)
  ∧ (∀ (s : State) (c : Fin 64) (w : Word) (r : Nat), s.dmaWaits c 5 = true → w = (s.ch c).instr.headD 0 → bit w 59 = false →
      r = fld w 43 32 → s.cplRing r = true → (s.ring r).room = 0 → (s.ch c).state ≠ .wait → Gives (.signal c) s fun t =>
      t.ch c = { s.ch c with state := .wait, waitFrom := s.time.total } ∧ t.dma = (s.setCh c (t.ch c)).dma
      ∧ t.rdf R.QM_ERR 0 63 48 = min (s.rdf R.QM_ERR 0 63 48 + 1) 65535 ∧ bit (t.hdr 0x58 hEvt) 0 = true
      ∧ Frame (regsIn [R.QM_ERR.key 0, R.QM_LAST_ERR.key 0, regKey 0 0x58 0 hEvt]) [.dma] s t)
  ∧ (∀ (s : State) (c : Fin 64) (w : Word) (r : Nat), s.dmaWaits c 5 = true → w = (s.ch c).instr.headD 0 → bit w 59 = false →
      r = fld w 43 32 → s.cplRing r = true → (s.ring r).room = 0 → (s.ch c).state = .wait → Gives (.signal c) s fun t =>
      Frame noRegs [] s t)
  ∧ (∀ (s : State) (c : Fin 64), s.dmaWaits c 5 = false → Gives (.signal c) s fun t => Frame noRegs [] s t)
  ∧ (∀ (s : State) (c : Fin 64), s.dmaAt c 6 = true → (s.ch c).out = 0 → (s.ch c).pages = [] → Gives (.fence c) s fun t =>
      Frame noRegs [] ((s.dmaNext c).dmaPump) t)
  ∧ (∀ (s : State) (c : Fin 64), s.dmaAt c 6 = false ∨ (s.ch c).out ≠ 0 ∨ (s.ch c).pages ≠ [] → Gives (.fence c) s fun t =>
      Frame noRegs [] s t)
  ∧ (∀ (s : State) (c : Fin 64), s.dmaAt c 7 = true → (s.ch c).pages = [] → Gives (.dmaEnd c) s fun t =>
      Frame noRegs [] ((s.dmaStop c 1 (fld ((s.ch c).instr.headD 0) 31 0))) t)
  ∧ (∀ (s : State) (c : Fin 64), s.dmaAt c 7 = true → (s.ch c).pages = [] → (s.ch c).out ≤ (s.ch c).held.length →
      bit (s.chCfg c) 39 = false → Gives (.dmaEnd c) s fun t => (t.ch c).state = .done ∧ (t.ch c).status = 1
      ∧ (t.ch c).ending = none ∧ bit (t.hdr 0x59 hEvt) 0 = true ∧ t.dma = (s.setCh c (t.ch c)).dma
      ∧ Frame (regsIn [regKey 0 0x59 0 hEvt]) [.dma] s t)
  ∧ (∀ (s : State) (c : Fin 64), s.dmaAt c 7 = true → (s.ch c).pages ≠ [] → Gives (.dmaEnd c) s fun t => Frame noRegs [] s t)
  ∧ (∀ (s : State) (c : Fin 64), s.dmaAt c 7 = false →
      (s.ch c).ending = none ∨ (s.ch c).state ≠ .stopping ∨ (s.ch c).out ≠ 0 → Gives (.dmaEnd c) s fun t =>
      Frame noRegs [] s t)
  ∧ (∀ (s : State) (c : Fin 64) (n : Nat) (g : Nat) (y : State), s.dmaAt c 7 = false → (s.ch c).ending = some (n, g) →
      n ≠ 2 → (s.ch c).state = .stopping → (s.ch c).out = 0 → y = s.setCh c { s.ch c with discarded := (s.ch c).unwritten } →
      Gives (.dmaEnd c) s fun t => Frame noRegs [] ((y.dmaFinal c n g)) t)

/-- A write through BAR0 is posted part by part, a read takes what was posted and is answered; an access of BAR2 enters the
crossbar at its window's address; BAR4 holds the vectors' table; any other access, one beyond its BAR and one in D3hot is
unsupported; with the link down nothing happens. A late inbound read and a late or failed outbound completion end with
their errors. An unmasked vector sends the message that it held. The link's state and the host's configuration are taken
over, and outstanding requests fail where they cannot go on. Where the rules leave a choice its clauses rest on the
model's, log entries 3, 42, 45, 130, 131, 132, 133 and 140. -/
def Obligations.TheEndpointServesTheHost : Prop :=
  (∀ (s : State) (r : PcieReq), s.pcie.up = false → Gives (.pcieInboundRequest r) s fun t => Frame noRegs [] s t)
  ∧ (∀ (s : State) (r : PcieReq), s.pcie.up = true →
      (s.pcie.d3 = true ∨ (r.bar = 0 ∧ 0x80000 < r.off + r.len) ∨ r.bar = 1 ∨ r.bar = 3 ∨ r.bar = 5 ∨ (r.bar = 2 ∧ 2 ^ 36 < r.off + r.len) ∨ (r.bar = 4 ∧ 0x10000 < r.off + r.len)) →
      r.write = false → Gives (.pcieInboundRequest r) s fun t => .pcieCpl 1 [] ∈ t.sent
      ∧ t.rdf R.PCIE_ERR 0 63 48 = min (s.rdf R.PCIE_ERR 0 63 48 + 1) 65535 ∧ bit (t.hdr 0x0D hEvt) 2 = true
      ∧ Frame (regsIn [R.PCIE_ERR.key 0, regKey 0 0x0D 0 hEvt]) [] s t)
  ∧ (∀ (s : State) (r : PcieReq), s.pcie.up = true →
      (s.pcie.d3 = true ∨ (r.bar = 0 ∧ 0x80000 < r.off + r.len) ∨ r.bar = 1 ∨ r.bar = 3 ∨ r.bar = 5 ∨ (r.bar = 2 ∧ 2 ^ 36 < r.off + r.len) ∨ (r.bar = 4 ∧ 0x10000 < r.off + r.len)) →
      r.write = true → Gives (.pcieInboundRequest r) s fun t => Frame noRegs [] s t)
  ∧ (∀ (s : State) (r : PcieReq), s.pcie.up = true → s.pcie.d3 = false → r.bar = 0 → r.off + r.len ≤ 0x80000 →
      r.write = true → Gives (.pcieInboundRequest r) s fun t => Frame noRegs [] ((s.bar0Write r).2) t)
  ∧ (∀ (s : State) (r : PcieReq), s.pcie.up = true → s.pcie.d3 = false → r.bar = 0 → r.off + r.len ≤ 0x80000 →
      r.write = true → s.pwr.coreReady = true → r.len = 8 → r.off % 8 = 0 → s.fab.posted.length < 64 →
      Gives (.pcieInboundRequest r) s fun t => t.fab.posted = s.fab.posted ++ [hostAccess r.off 8 (r.data.take 8)]
      ∧ Frame noRegs [.fab] s t)
  ∧ (∀ (s : State) (r : PcieReq), s.pcie.up = true → s.pcie.d3 = false → r.bar = 0 → r.off + r.len ≤ 0x80000 →
      r.write = true → s.pwr.coreReady = false → Gives (.pcieInboundRequest r) s fun t => Frame noRegs [] s t)
  ∧ (∀ (s : State) (r : PcieReq), s.pcie.up = true → s.pcie.d3 = false → r.bar = 0 → r.off + r.len ≤ 0x80000 →
      r.write = false → Gives (.pcieInboundRequest r) s fun t => Frame noRegs [] ((s.bar0Read r).2) t)
  ∧ (∀ (s : State) (r : PcieReq) (v : Word), s.pcie.up = true → s.pcie.d3 = false → r.bar = 0 → r.off + r.len ≤ 0x80000 →
      r.write = false → r.len = 8 → r.off % 8 = 0 → s.fab.posted = [] → v = ((s.finish s).read (hostAccess r.off 8 [])).1 →
      Gives (.pcieInboundRequest r) s fun t => .pcieCpl 0 (leBytes 8 v.toNat) ∈ t.sent
      ∧ Frame noRegs [] (((s.finish s).read (hostAccess r.off 8 [])).2) t)
  ∧ (∀ (s : State) (r : PcieReq), s.pcie.up = true → s.pcie.d3 = false → r.bar = 2 → r.off + r.len ≤ 2 ^ 36 →
      Gives (.pcieInboundRequest r) s fun t => t.xbar.next = s.xbar.next + 1
      ∧ (pget t.xbar.txns s.xbar.next).map (fun y => (y.master, y.secure, y.write, y.origin)) = some (2, false, r.write, .pcie)
      ∧ (pget t.xbar.txns s.xbar.next).map (fun y => (y.addr, y.len, y.data)) = some (s.bar2Addr r.off, r.len, r.data)
      ∧ Frame (regsIn decodeKeys) [.xbar] s t)
  ∧ (∀ (s : State) (r : PcieReq), s.pcie.up = true → s.pcie.d3 = false → r.bar = 4 → r.off + r.len ≤ 0x10000 →
      r.write = true → Gives (.pcieInboundRequest r) s fun t => Frame noRegs [] ((s.bar4Write r)) t)
  ∧ (∀ (s : State) (r : PcieReq), s.pcie.up = true → s.pcie.d3 = false → r.bar = 4 → r.off + r.len ≤ 0x10000 →
      r.write = false → Gives (.pcieInboundRequest r) s fun t =>
      .pcieCpl 0 ((List.range r.len).map fun i => s.bar4Byte (r.off + i)) ∈ t.sent ∧ Frame noRegs [] s t)
  ∧ (∀ (s : State) (id : Nat) (x : Txn), pget s.xbar.txns id = some x → x.origin = .pcie → x.write = false → x.resp = none →
      x.port = 0 → x.waited + 1500000 * s.rdf R.INB_TMO 0 6 0 ≤ s.time.total → Gives (.pcieInboundTimeout id) s fun t =>
      pget t.xbar.txns id = some { x with origin := .outside }
      ∧ t.rdf R.PCIE_ERR 0 47 32 = min (s.rdf R.PCIE_ERR 0 47 32 + 1) 65535 ∧ .pcieCpl 2 [] ∈ t.sent
      ∧ bit (t.hdr 0x0D hEvt) 2 = true ∧ t.xbar = (s.setTxn id (pget t.xbar.txns id)).xbar
      ∧ Frame (regsIn [R.PCIE_ERR.key 0, regKey 0 0x0D 0 hEvt]) [.xbar] s t)
  ∧ (∀ (s : State) (id : Nat),
      (pget s.xbar.txns id).all (fun x => decide (x.origin ≠ .pcie) || x.write || x.resp.isSome || decide (x.port ≠ 0) || decide (s.time.total < x.waited + 1500000 * s.rdf R.INB_TMO 0 6 0)) = true →
      Gives (.pcieInboundTimeout id) s fun t => Frame noRegs [] s t)
  ∧ (∀ (s : State) (id : Nat) (st : CplStatus) (d : List Byte) (x : Txn), s.pcie.outbound.contains id = true →
      pget s.xbar.txns id = some x → x.resp = none → Gives (.pcieOutboundCompletion id st d) s fun t =>
      t.pcie.outbound = s.pcie.outbound.filter (· ≠ id)
      ∧ pget t.xbar.txns id = some { x with resp := some (if st = .ok then (false, false, d) else (true, false, [])) }
      ∧ Frame noRegs [.xbar, .pcie] s t)
  ∧ (∀ (s : State) (id : Nat) (st : CplStatus) (d : List Byte), s.pcie.outbound.contains id = false →
      Gives (.pcieOutboundCompletion id st d) s fun t => Frame noRegs [] s t)
  ∧ (∀ (s : State) (id : Nat) (x : Txn), s.pcie.outbound.contains id = true → pget s.xbar.txns id = some x → x.resp = none →
      x.waited + 1500 * s.pcie.cplUs ≤ s.time.total → Gives (.pcieCplTimeout id) s fun t =>
      t.pcie.outbound = s.pcie.outbound.filter (· ≠ id)
      ∧ pget t.xbar.txns id = some { x with resp := some (true, false, []), respAt := s.time.total }
      ∧ t.rdf R.PCIE_ERR 0 15 0 = min (s.rdf R.PCIE_ERR 0 15 0 + 1) 65535 ∧ bit (t.hdr 0x0D hEvt) 2 = true
      ∧ t.xbar = (s.setTxn id (pget t.xbar.txns id)).xbar
      ∧ t.pcie = { s.pcie with outbound := t.pcie.outbound, pba := t.pcie.pba }
      ∧ Frame (regsIn [R.PCIE_ERR.key 0, regKey 0 0x0D 0 hEvt]) [.xbar, .pcie] s t)
  ∧ (∀ (s : State) (id : Nat),
      s.pcie.outbound.contains id = false ∨ (pget s.xbar.txns id).all (fun x => decide (s.time.total < x.waited + 1500 * s.pcie.cplUs)) = true →
      Gives (.pcieCplTimeout id) s fun t => Frame noRegs [] s t)
  ∧ (∀ (s : State) (v : Fin 2048) (x : MsixEntry), x = mget msixDflt s.pcie.table v →
      mget (fun _ => false) s.pcie.pba v = true → s.pcie.msixEn = true → s.pcie.maskAll = false →
      Gives (.msixUnmask v) s fun t => (s.pcieMaster = true → .msix v x.addr x.data ∈ t.sent)
      ∧ t.pcie = { s.pcie with table := mset msixDflt s.pcie.table v { x with masked := false }, pba := t.pcie.pba }
      ∧ Frame noRegs [.pcie] s t)
  ∧ (∀ (s : State) (v : Fin 2048) (x : MsixEntry), x = mget msixDflt s.pcie.table v →
      mget (fun _ => false) s.pcie.pba v = false ∨ s.pcie.msixEn = false ∨ s.pcie.maskAll = true →
      Gives (.msixUnmask v) s fun t =>
      t.pcie = { s.pcie with table := mset msixDflt s.pcie.table v { x with masked := false }, pba := t.pcie.pba }
      ∧ Frame noRegs [.pcie] s t)
  ∧ (∀ (s : State) (sp : Fin 6) (wd : Fin 17), s.pwr.coreUp = true → s.pwr.perstN = true →
      Gives (.pcieLinkUp sp wd) s fun t => t.pcie.up = true ∧ t.pcie.speed = sp ∧ t.pcie.width = wd
      ∧ bit (t.hdr 0x0D hEvt) 0 = true ∧ Frame (regsIn [regKey 0 0x0D 0 hEvt]) [.pcie] s t)
  ∧ (∀ (s : State) (sp : Fin 6) (wd : Fin 17), s.pwr.coreUp = false ∨ s.pwr.perstN = false →
      Gives (.pcieLinkUp sp wd) s fun t => Frame noRegs [] s t)
  ∧ (∀ (s : State) (y : State) (z : State), s.pcie.up = true →
      y = { s with pcie := { s.pcie with up := false, speed := 0, width := 0 } } →
      z = s.pcie.outbound.foldl (fun u id => (u.outboundDone id).respond id true false []) (y.raise 0x0D 1) →
      Gives .pcieLinkDown s fun t => t.pcie.up = false ∧ t.pcie.speed = 0 ∧ t.pcie.width = 0 ∧ bit (t.hdr 0x0D hEvt) 1 = true
      ∧ Frame noRegs [] z t)
  ∧ (∀ (s : State), s.pcie.up = false → Gives .pcieLinkDown s fun t => Frame noRegs [] s t)
  ∧ (∀ (s : State) (x : HostCfg) (y : State) (z : State),
      y = { s with pcie := { s.pcie with d3 := x.d3, bme := x.bme, msixEn := x.msixEn, maskAll := x.maskAll, mps := x.mps, mrrs := x.mrrs, cplUs := x.cplUs } } →
      z = (if x.d3 || !x.bme then s.pcie.outbound.foldl (fun u id => (u.outboundDone id).respond id true false []) y else y) →
      s.pcie.maskAll = false ∨ x.maskAll = true → Gives (.pcieDstateChange x) s fun t => t.pcie.d3 = x.d3
      ∧ t.pcie.bme = x.bme ∧ t.pcie.msixEn = x.msixEn ∧ t.pcie.maskAll = x.maskAll ∧ t.pcie.mps = x.mps
      ∧ t.pcie.mrrs = x.mrrs ∧ t.pcie.cplUs = x.cplUs ∧ Frame noRegs [] z t)
  ∧ (∀ (s : State) (x : HostCfg) (y : State) (z : State),
      y = { s with pcie := { s.pcie with d3 := x.d3, bme := x.bme, msixEn := x.msixEn, maskAll := x.maskAll, mps := x.mps, mrrs := x.mrrs, cplUs := x.cplUs } } →
      z = (if x.d3 || !x.bme then s.pcie.outbound.foldl (fun u id => (u.outboundDone id).respond id true false []) y else y) →
      s.pcie.maskAll = true → x.maskAll = false → Gives (.pcieDstateChange x) s fun t =>
      Frame noRegs [] ((((List.range 2048).filter fun v => mget (fun _ => false) s.pcie.pba v && !(mget msixDflt s.pcie.table v).masked).foldl State.unmask z)) t)

/-- A source that has qualified is eligible, or restoring where it was disqualified before, and eligible after WTR seconds;
one that is measured out of range or lost is disqualified and counted; nothing comes before its time. Selection switches
to the first eligible source, with its phase to be absorbed and the switch counted; with none it goes into holdover at
the window's mean value, or is lost without a window; mode 2 runs free. Where the rules leave a choice its clauses rest
on the model's, log entries 3, 143, 144, 145, 146 and 147. -/
def Obligations.ReferencesAreSelected : Prop :=
  (∀ (s : State) (k : Fin 7) (v : SrcState), s.aonUp = true → s.srcSt k = .qualifying → s.srcPresent k = true →
      s.srcSince k + qualTime k ≤ s.time.total →
      v = (if s.time.everDisq.getLsbD k ∧ s.rd R.WTR ≠ 0 then .restoring else .eligible) →
      Gives (.sourceQualified k) s fun t => t.srcSt k = v ∧ t.srcSince k = s.time.total ∧ bit (t.hdr 0x02 hEvt) 0 = true
      ∧ t.time = (s.setSrcSt k v).time ∧ Frame (regsIn [regKey 0 0x02 0 hEvt]) [.time] s t)
  ∧ (∀ (s : State) (k : Fin 7),
      s.aonUp = false ∨ s.srcSt k ≠ .qualifying ∨ s.srcPresent k = false ∨ s.time.total < s.srcSince k + qualTime k →
      Gives (.sourceQualified k) s fun t => Frame noRegs [] s t)
  ∧ (∀ (s : State) (k : Fin 7) (y : State), s.aonUp = true → s.srcQual k = true →
      y = (s.setSrcSt k .absent).countf R.DISQ_CNT 0 (8 * (k : Fin 7).val + 7) (8 * (k : Fin 7).val) →
      Gives (.sourceDisqualified k) s fun t => t.srcSt k = .absent
      ∧ t.rdf R.DISQ_CNT 0 (8 * (k : Fin 7).val + 7) (8 * (k : Fin 7).val) = min (s.rdf R.DISQ_CNT 0 (8 * (k : Fin 7).val + 7) (8 * (k : Fin 7).val) + 1) 255
      ∧ t.time = { y.time with everDisq := s.time.everDisq ||| BitVec.ofNat 7 (2 ^ (k : Fin 7).val), srcLost := (s.time.srcLost || s.time.src == (k : Fin 7).val) }
      ∧ bit (t.hdr 0x02 hEvt) 0 = true ∧ s.reports t 0x02 0 0x05 s.pllStat (s.rd R.LAST_SWITCH)
      ∧ Frame (regsIn (R.DISQ_CNT.key 0 :: regKey 0 0x02 0 hEvt :: reportKeys)) [.time, .bitt] s t)
  ∧ (∀ (s : State) (k : Fin 7), s.aonUp = true → s.srcQual k = false → s.srcSt k ≠ .disabled →
      Gives (.sourceDisqualified k) s fun t => t.srcSt k = .absent ∧ Frame noRegs [] ((s.setSrcSt k .absent)) t)
  ∧ (∀ (s : State) (k : Fin 7), s.aonUp = false ∨ s.srcSt k = .disabled → Gives (.sourceDisqualified k) s fun t =>
      Frame noRegs [] s t)
  ∧ (∀ (s : State) (y : State) (x : Int), s.aonUp = true → s.srcQual 0 = true → 10000 < x.natAbs →
      y = (s.setSrcSt 0 .qualifying).countf R.DISQ_CNT 0 (8 * (0 : Fin 7).val + 7) (8 * (0 : Fin 7).val) →
      Gives (.freqWindow [x]) s fun t => t.srcSt 0 = .qualifying
      ∧ t.rdf R.DISQ_CNT 0 (8 * (0 : Fin 7).val + 7) (8 * (0 : Fin 7).val) = min (s.rdf R.DISQ_CNT 0 (8 * (0 : Fin 7).val + 7) (8 * (0 : Fin 7).val) + 1) 255
      ∧ t.time = { y.time with everDisq := s.time.everDisq ||| BitVec.ofNat 7 (2 ^ (0 : Fin 7).val), srcLost := (s.time.srcLost || s.time.src == (0 : Fin 7).val) }
      ∧ bit (t.hdr 0x02 hEvt) 0 = true ∧ s.reports t 0x02 0 0x05 s.pllStat (s.rd R.LAST_SWITCH)
      ∧ Frame (regsIn (R.DISQ_CNT.key 0 :: regKey 0 0x02 0 hEvt :: reportKeys)) [.time, .bitt] s t)
  ∧ (∀ (s : State) (x : Int), s.aonUp = true → s.srcQual 0 = false → s.srcSt 0 ≠ .disabled → s.srcSt 0 ≠ .absent →
      10000 < x.natAbs → Gives (.freqWindow [x]) s fun t => t.srcSt 0 = .qualifying
      ∧ Frame noRegs [] ((s.setSrcSt 0 .qualifying)) t)
  ∧ (∀ (s : State) (x : Int) (y : State), s.aonUp = true → s.srcSt 0 = .absent → x.natAbs ≤ 10000 →
      y = s.setSrcSt 0 .qualifying → Gives (.freqWindow [x]) s fun t => t.srcSt 0 = .qualifying
      ∧ t.srcSince 0 = s.time.total - sclkSec / 10 ∧ t.time = { y.time with srcAt := t.time.srcAt }
      ∧ Frame noRegs [.time] s t)
  ∧ (∀ (s : State) (x : Int),
      s.aonUp = false ∨ s.srcSt 0 = .disabled ∨ (s.srcSt 0 = .absent ∧ 10000 < x.natAbs) ∨ (s.srcSt 0 ≠ .absent ∧ x.natAbs ≤ 10000) →
      Gives (.freqWindow [x]) s fun t => Frame noRegs [] s t)
  ∧ (∀ (s : State) (x : Int) (xs : List Int) (y : State), s.aonUp = true →
      y = (List.range (min 6 xs.length)).foldl (fun u k => u.freqTake (k + 1) (xs.getD k 0)) (s.freqTake 0 x) →
      Gives (.freqWindow ([x] ++ xs)) s fun t => Frame noRegs [] y t)
  ∧ (∀ (s : State) (xs : List Int), s.aonUp = false ∨ xs = [] → Gives (.freqWindow xs) s fun t => Frame noRegs [] s t)
  ∧ (∀ (s : State) (k : Fin 7), s.aonUp = true → s.srcSt k = .restoring →
      s.srcSince k + fld (s.rd R.WTR) 11 0 * sclkSec ≤ s.time.total → Gives (.sourceEligible k) s fun t =>
      t.srcSt k = .eligible ∧ Frame noRegs [] ((s.setSrcSt k .eligible)) t)
  ∧ (∀ (s : State) (k : Fin 7),
      s.aonUp = false ∨ s.srcSt k ≠ .restoring ∨ s.time.total < s.srcSince k + fld (s.rd R.WTR) 11 0 * sclkSec →
      Gives (.sourceEligible k) s fun t => Frame noRegs [] s t)
  ∧ (∀ (s : State) (x : Int) (k : Nat) (c : Nat) (y : State), s.aonUp = true → s.time.coarse = false →
      s.rdf R.SEL_CFG 0 1 0 ≠ 2 → s.candidate = some k → k ≠ s.time.src →
      y = { s with time := { s.time with srcLost := false, modeWrite := false, selWrite := false } } →
      c = (if s.time.srcLost || (s.time.src != 15 && !s.selectable s.time.src) then 1 else if s.time.modeWrite then 4 else if s.time.selWrite then 3 else 2) →
      Gives (.refSelection x) s fun t => t.time.src = k ∧ t.time.pll = .acquiring
      ∧ t.time.netTarget = s.time.netTarget + s.theta k x ∧ t.time.absorb = s.theta k x ∧ t.time.srcLost = false
      ∧ t.time.acqAt = s.time.total ∧ t.rd R.SWITCH_CNT = satWord (s.rd R.SWITCH_CNT) 1
      ∧ t.rd R.LAST_SWITCH = word (at_ 32 (s.tb2Sec % 2 ^ 32) + at_ 12 c + at_ 4 s.time.src + k)
      ∧ bit (t.hdr 0x01 hEvt) 1 = true
      ∧ Frame (regsIn (R.SWITCH_CNT.key 0 :: R.LAST_SWITCH.key 0 :: regKey 0 0x01 0 hEvt :: tbKeys)) [.time, .cmds] s t
      ∧ Frame noRegs [] ((y.switchTo k c x)) t)
  ∧ (∀ (s : State) (x : Int) (hs : List Int) (m : Int) (y : State) (z : State), s.aonUp = true → s.time.coarse = false →
      s.rdf R.SEL_CFG 0 1 0 ≠ 2 → s.candidate = none → s.time.src ≠ 15 → s.hoWindow = some hs →
      m = divEven hs.sum hs.length →
      y = { s with time := { s.time with srcLost := false, modeWrite := false, selWrite := false } } →
      z = { y with time := { y.time with src := 15, ctrl := m, hoValue := m, hoStart := s.time.total } } →
      Gives (.refSelection x) s fun t => t.time.src = 15 ∧ t.time.pll = .holdover ∧ t.time.ctrl = m ∧ t.time.hoValue = m
      ∧ t.time.hoStart = s.time.total ∧ bit (t.hdr 0x02 hEvt) 1 = true
      ∧ (s.time.pll ≠ .holdover → bit (t.hdr 0x01 hEvt) 0 = true)
      ∧ Frame (regsIn (regKey 0 0x02 0 hEvt :: regKey 0 0x01 0 hEvt :: (tbKeys ++ reportKeys))) [.time, .cmds, .bitt] s t
      ∧ Frame noRegs [] (((z.setPll .holdover).raise 0x02 1)) t)
  ∧ (∀ (s : State) (x : Int) (y : State) (z : State), s.aonUp = true → s.time.coarse = false → s.rdf R.SEL_CFG 0 1 0 ≠ 2 →
      s.candidate = none → s.time.src ≠ 15 → s.hoWindow = none →
      y = { s with time := { s.time with srcLost := false, modeWrite := false, selWrite := false } } →
      z = { y with time := { y.time with src := 15, ctrl := s.ctrlBase } } → Gives (.refSelection x) s fun t =>
      t.time.src = 15 ∧ t.time.pll = .lost ∧ bit (t.hdr 0x02 hEvt) 1 = true
      ∧ Frame noRegs [] (((z.setPll .lost).raise 0x02 1)) t)
  ∧ (∀ (s : State) (x : Int) (y : State), s.aonUp = true → s.time.coarse = false → s.rdf R.SEL_CFG 0 1 0 ≠ 2 →
      s.candidate = none → s.time.src = 15 →
      y = { s with time := { s.time with srcLost := false, modeWrite := false, selWrite := false } } →
      Gives (.refSelection x) s fun t => t.time.src = 15 ∧ bit (t.hdr 0x02 hEvt) 1 = true
      ∧ Frame noRegs [] ((y.raise 0x02 1)) t)
  ∧ (∀ (s : State) (x : Int) (y : State) (z : State), s.aonUp = true → s.time.coarse = false → s.rdf R.SEL_CFG 0 1 0 = 2 →
      y = { s with time := { s.time with srcLost := false, modeWrite := false, selWrite := false } } →
      z = { y with time := { y.time with src := 15 } } → Gives (.refSelection x) s fun t => t.time.src = 15
      ∧ t.time.pll = .freeRun ∧ Frame noRegs [] ((z.setPll .freeRun)) t)
  ∧ (∀ (s : State) (x : Int) (k : Nat), s.aonUp = true → s.time.coarse = false → s.rdf R.SEL_CFG 0 1 0 ≠ 2 →
      s.candidate = some k → k = s.time.src → Gives (.refSelection x) s fun t =>
      t.time = { s.time with srcLost := false, modeWrite := false, selWrite := false } ∧ Frame noRegs [.time] s t)
  ∧ (∀ (s : State) (x : Int), s.aonUp = false ∨ s.time.coarse = true → Gives (.refSelection x) s fun t =>
      Frame noRegs [] s t)

/-- The XO comparison beyond 5 % sets its mark, with its event and report, and one within it clears the mark. An acquiring
PLL locks once its time within the criterion has passed, a locked one unlocks, and holdover ends at its limit, each with
the PLL's event. A second of TB2 enters the holdover history. A network slew ends at its target. Where the rules leave a
choice its clauses rest on the model's, log entries 3, 143, 147 and 148. -/
def Obligations.TheRootPllHolds : Prop :=
  (∀ (s : State) (x : Int), s.aonUp = true → x.natAbs ≤ 50000 → Gives (.xoCheck x) s fun t =>
      t.time = { s.time with xoBad := false } ∧ Frame noRegs [.time] s t)
  ∧ (∀ (s : State) (x : Int), s.aonUp = true → 50000 < x.natAbs → s.time.xoBad = true → Gives (.xoCheck x) s fun t =>
      Frame noRegs [] s t)
  ∧ (∀ (s : State) (x : Int) (y : State), s.aonUp = true → 50000 < x.natAbs → s.time.xoBad = false →
      y = ({ s with time := { s.time with xoBad := true } }.raise 0x01 2).refReport 0x01 → Gives (.xoCheck x) s fun t =>
      t.time.xoBad = true ∧ bit (t.hdr 0x01 hEvt) 2 = true
      ∧ (s.rdb R.TMP_CFG 0 3 = false → Frame noRegs [] (y) t ∧ t.bitt = y.bitt) ∧ Frame noRegs [] ((y.tamper 3)) t)
  ∧ (∀ (s : State) (x : Int), s.aonUp = false → Gives (.xoCheck x) s fun t => Frame noRegs [] s t)
  ∧ (∀ (s : State), s.time.pll = .acquiring → s.time.acqAt + s.lockTime ≤ s.time.total → Gives .pllLock s fun t =>
      t.time.pll = .locked ∧ bit (t.hdr 0x01 hEvt) 0 = true
      ∧ Frame (regsIn (regKey 0 0x01 0 hEvt :: tbKeys)) [.time, .cmds] s t ∧ Frame noRegs [] ((s.setPll .locked)) t)
  ∧ (∀ (s : State), s.time.pll ≠ .acquiring ∨ s.time.total < s.time.acqAt + s.lockTime → Gives .pllLock s fun t =>
      Frame noRegs [] s t)
  ∧ (∀ (s : State), s.time.pll = .locked → s.srcQual s.time.src = true → Gives .pllUnlock s fun t => t.time.pll = .acquiring
      ∧ t.time.lockedAll = false ∧ t.time.acqAt = s.time.total ∧ bit (t.hdr 0x01 hEvt) 0 = true
      ∧ Frame (regsIn (regKey 0 0x01 0 hEvt :: tbKeys)) [.time, .cmds] s t ∧ Frame noRegs [] ((s.setPll .acquiring)) t)
  ∧ (∀ (s : State), s.time.pll ≠ .locked ∨ s.srcQual s.time.src = false → Gives .pllUnlock s fun t => Frame noRegs [] s t)
  ∧ (∀ (s : State) (n : Nat) (y : State), s.time.pll = .holdover → n = s.rdf R.HO_CFG 0 63 32 → n ≠ 0 →
      y = s.waitTo (s.time.hoStart + n * sclkSec) → Gives .holdoverLimit s fun t => t.time.pll = .lost
      ∧ t.time.total = max s.time.total (s.time.hoStart + n * sclkSec) ∧ bit (t.hdr 0x01 hEvt) 0 = true
      ∧ Frame noRegs [] ((y.setPll .lost)) t)
  ∧ (∀ (s : State), s.time.pll ≠ .holdover ∨ s.rdf R.HO_CFG 0 63 32 = 0 → Gives .holdoverLimit s fun t =>
      Frame noRegs [] s t)
  ∧ (∀ (s : State) (x : Int) (k : Nat) (y : State), s.aonUp = true →
      k = (match s.time.hist with | v :: _ => v.sec + 1 | [] => s.tb2Sec) → y = s.waitTo ((k + 1) * sclkSec) →
      Gives (.holdoverSecond x) s fun t =>
      t.time.hist = ({ sec := k, h := clampI (-2 ^ 30) (2 ^ 30) x, locked := s.time.lockedAll } :: s.time.hist).take 4200
      ∧ t.time.total = max s.time.total ((k + 1) * sclkSec) ∧ t.time.lockedAll = (s.time.pll == .locked)
      ∧ t.time = { y.time with hist := t.time.hist, lockedAll := t.time.lockedAll } ∧ Frame noRegs [.time] y t)
  ∧ (∀ (s : State) (x : Int), s.aonUp = false → Gives (.holdoverSecond x) s fun t => Frame noRegs [] s t)
  ∧ (∀ (s : State) (y : State), s.time.slewing = true → 0 < (s.rd R.NET_SLOPE).toNat → y = s.pass (6 * s.slewLeft) →
      Gives .netSlewDone s fun t => t.time.slewing = false ∧ t.time.netPhase = s.time.netTarget * 1000000
      ∧ bit (t.hdr 0x01 hEvt) 3 = true
      ∧ Frame noRegs [] (({ y with time := { y.time with slewing := false } }.raise 0x01 3)) t)
  ∧ (∀ (s : State) (y : State), s.time.slewing = true → (s.rd R.NET_SLOPE).toNat = 0 → y = s.pass (6 * s.slewLeft) →
      Gives .netSlewDone s fun t => t.time.slewing = false ∧ bit (t.hdr 0x01 hEvt) 3 = true
      ∧ Frame noRegs [] (({ y with time := { y.time with slewing := false } }.raise 0x01 3)) t)
  ∧ (∀ (s : State), s.time.slewing = false → Gives .netSlewDone s fun t => Frame noRegs [] s t)

/-- A second edge of TB0's master is measured; a master without one for 3 s is lost. A committed TB0 step is entered for the
next boundary with its offset; a TB3 step sets TB3. A change of TB0's source discards its measurement; TB1's change of
mode takes TB0's time or leaves it in holdover. The first sample of TB1 within the step limit is accepted and TB1 tracks;
one beyond it steps TB1; without samples it goes into holdover. PPS_OUT rises and falls by its configuration. Where the
rules leave a choice its clauses rest on the model's, log entries 3, 143, 149, 151, 152 and 156. -/
def Obligations.TimeBasesFollowTheirMasters : Prop :=
  (∀ (s : State) (n : Int) (d : Int) (y : State), s.aonUp = true → s.tb0Master ≠ 0 → s.enabled 0x03 = true →
      s.tb0Master ≠ 3 ∨ s.tb1Second = true → n = toSecond (if s.tb0Master = 3 then s.time.tb1 else s.time.tb0) →
      d = divEven ((n - s.time.tb0) * 1000) unitsNs.toNat →
      y = { s with time := { s.time with ofs := some d, masterLost := false, edgeAt := s.time.total } } →
      Gives .tbMasterEdge s fun t => t.time.ofs = some d ∧ t.time.masterLost = false ∧ t.time.tb0 = s.time.tb0
      ∧ Frame (regsIn tbKeys) [.time] s t ∧ Frame noRegs [] (y.tb0Eval) t)
  ∧ (∀ (s : State), s.aonUp = false ∨ s.tb0Master = 0 ∨ s.enabled 0x03 = false ∨ (s.tb0Master = 3 ∧ s.tb1Second = false) →
      Gives .tbMasterEdge s fun t => Frame noRegs [] s t)
  ∧ (∀ (s : State), s.aonUp = true → s.tb0Master ≠ 0 → s.time.edgeAt + 3 * sclkSec ≤ s.time.total →
      Gives .tbMasterLost s fun t => t.time.masterLost = true ∧ t.time.ofs = s.time.ofs ∧ Frame (regsIn tbKeys) [.time] s t
      ∧ Frame noRegs [] (({ s with time := { s.time with masterLost := true } }.tb0Eval)) t)
  ∧ (∀ (s : State), s.aonUp = false ∨ s.tb0Master = 0 ∨ s.time.total < s.time.edgeAt + 3 * sclkSec →
      Gives .tbMasterLost s fun t => Frame noRegs [] s t)
  ∧ (∀ (s : State) (a : Agent) (v : Word), s.accepts a 0x03 R.STEP_CTRL.off (setBit v 0) = true → s.meshZ = 0 →
      Gives (.tb0StepCommit a v) s fun t => t.rd R.STEP_CTRL = setBit v 0
      ∧ t.time = { s.time with stepOfs := s.time.ofs.getD 0 }
      ∧ t.fab = { s.fab with commits := s.fab.commits ++ [{ set := .tb0Step, wait := 1 + b2n (s.slot == 4095) }] }
      ∧ Frame (regsIn [R.STEP_CTRL.key 0]) [.time, .fab] s t)
  ∧ (∀ (s : State) (a : Agent) (v : Word), s.accepts a 0x06 R.STEP_CTRL.off (setBit v 0) = true →
      Gives (.tb3StepCommit a v) s fun t => t.time = { s.time with tb3 := timeOf (s.rd R.STEP_SEC 3) (s.rd R.STEP_NS 3) }
      ∧ t.rd R.STEP_CTRL 3 = clrBit (setBit v 0) 0 ∧ Frame (regsIn [R.STEP_CTRL.key 3]) [.time] s t)
  ∧ (∀ (s : State) (a : Agent) (i : Fin 4) (v : Word) (y : State), s.accepts a (0x03 + i.val) R.TB_SRC.off v = true → i = 0 →
      v ≠ s.rd R.TB_SRC → y = s.wr R.TB_SRC i v → Gives (.tbSrcWrite a i v) s fun t => t.rd R.TB_SRC = v ∧ t.time.ofs = none
      ∧ t.time.masterLost = false ∧ t.time.edgeAt = s.time.total
      ∧ Frame noRegs [] (({ y with time := { s.time with ofs := none, masterLost := false, edgeAt := s.time.total } }.tb0Eval)) t)
  ∧ (∀ (s : State) (a : Agent) (i : Fin 4) (v : Word) (y : State) (z : State) (z2 : State),
      s.accepts a (0x03 + i.val) R.TB_SRC.off v = true → i = 1 → v = 1 → s.tb1Master = false → y = s.wr R.TB_SRC i v →
      z = { y with time := { s.time with tb1 := s.time.tb0, ofs := (if s.rdf R.TB_SRC 0 1 0 = 3 then none else s.time.ofs) } } →
      z2 = (if s.time.tb1St = s.time.tb0St then z else z.raise 0x04 0) → Gives (.tbSrcWrite a i v) s fun t =>
      t.rd R.TB_SRC 1 = 1 ∧ t.time.tb1 = s.time.tb0 ∧ Frame noRegs [] (z2.ptpLost.tb0Eval) t)
  ∧ (∀ (s : State) (a : Agent) (i : Fin 4) (v : Word) (y : State) (z : State) (z2 : State),
      s.accepts a (0x03 + i.val) R.TB_SRC.off v = true → i = 1 → v = 0 → s.tb1Master = true → y = s.wr R.TB_SRC i v →
      z = { y with time := { s.time with havePrev := false, tb1St := .holdover } } →
      z2 = (if s.time.tb0St = .holdover then z else z.raise 0x04 0) → Gives (.tbSrcWrite a i v) s fun t =>
      t.rd R.TB_SRC 1 = 0 ∧ t.time.tb1St = .holdover ∧ t.time.tb1 = s.time.tb1 ∧ Frame noRegs [] (z2.tb0Eval) t)
  ∧ (∀ (s : State) (a : Agent) (i : Fin 4) (v : Word), s.accepts a (0x03 + i.val) R.TB_SRC.off v = true →
      (i.val = 0 ∧ v = s.rd R.TB_SRC) ∨ (i.val = 1 ∧ bit v 0 = s.tb1Master) → Gives (.tbSrcWrite a i v) s fun t =>
      t.rd R.TB_SRC i = v ∧ Frame noRegs [] ((s.wr R.TB_SRC i v)) t)
  ∧ (∀ (s : State) (a : Agent) (v : Word) (x : Nat), s.accepts a 0x07 R.SMP_OFS.off v = true → s.time.jump = false →
      s.time.havePrev = false → v.toInt.natAbs ≤ s.rdf R.SRV_CFG 0 31 0 * 2 ^ 16 →
      x = fld (s.heldWord a 0x07 R.SMP_MT_SEC.off (s.rd R.SMP_MT_SEC)) 47 0 * 1000000000 + fld (s.heldWord a 0x07 R.SMP_MT_NS.off (s.rd R.SMP_MT_NS)) 29 0 →
      Gives (.ptpSample a v) s fun t => t.time.tb1St = .tracking ∧ t.time.prevMt = x ∧ t.time.havePrev = true
      ∧ t.time.lastOut = 1 ∧ t.time.tb1 = s.time.tb1 ∧ t.rd R.SMP_ACCEPT = satWord (s.rd R.SMP_ACCEPT) 1 ∧ t.rd R.SMP_OFS = v
      ∧ Frame (regsIn (R.SMP_ACCEPT.key 0 :: R.SMP_OFS.key 0 :: R.SMP_MT_SEC.key 0 :: R.SMP_MT_NS.key 0 :: tbKeys)) [.time, .fab] s t)
  ∧ (∀ (s : State) (a : Agent) (v : Word), s.accepts a 0x07 R.SMP_OFS.off v = true → s.time.jump = false →
      s.time.havePrev = false → s.time.stepUsed = false → s.rdf R.SRV_CFG 0 31 0 * 2 ^ 16 < v.toInt.natAbs →
      Gives (.ptpSample a v) s fun t => t.time.tb1St = .tracking ∧ t.time.tb1 = s.time.tb1 + ofsUnits v.toInt
      ∧ t.time.havePrev = false ∧ t.time.lastOut = 2 ∧ t.time.stepUsed = true
      ∧ t.rd R.SMP_ACCEPT = satWord (s.rd R.SMP_ACCEPT) 1
      ∧ Frame (regsIn (R.SMP_ACCEPT.key 0 :: R.SMP_OFS.key 0 :: R.SMP_MT_SEC.key 0 :: R.SMP_MT_NS.key 0 :: tbKeys)) [.time, .fab] s t)
  ∧ (∀ (s : State) (a : Agent) (v : Word), s.accepts a 0x07 R.SMP_OFS.off v = true → s.time.jump = true →
      Gives (.ptpSample a v) s fun t => t.time = { s.time with lastOut := 3 }
      ∧ t.rd R.SMP_REFUSE = satWord (s.rd R.SMP_REFUSE) 1 ∧ bit (t.hdr 0x07 hEvt) 0 = true
      ∧ Frame (regsIn (R.SMP_REFUSE.key 0 :: R.SMP_OFS.key 0 :: R.SMP_MT_SEC.key 0 :: R.SMP_MT_NS.key 0 :: [regKey 0 0x07 0 hEvt])) [.time, .fab] s t)
  ∧ (∀ (s : State) (a : Agent) (v : Word) (x : Nat), s.accepts a 0x07 R.SMP_OFS.off v = true → s.time.jump = false →
      s.time.havePrev = true →
      x = fld (s.heldWord a 0x07 R.SMP_MT_SEC.off (s.rd R.SMP_MT_SEC)) 47 0 * 1000000000 + fld (s.heldWord a 0x07 R.SMP_MT_NS.off (s.rd R.SMP_MT_NS)) 29 0 →
      x < s.time.prevMt → Gives (.ptpSample a v) s fun t => t.time.jump = true ∧ t.time.tb1St = .holdover
      ∧ t.time.tb1 = s.time.tb1 ∧ t.time.lastOut = 3 ∧ t.rd R.SMP_REFUSE = satWord (s.rd R.SMP_REFUSE) 1
      ∧ bit (t.hdr 0x04 hEvt) 1 = true
      ∧ Frame (regsIn (R.SMP_REFUSE.key 0 :: R.SMP_OFS.key 0 :: R.SMP_MT_SEC.key 0 :: R.SMP_MT_NS.key 0 :: R.DISQ_CNT.key 0 :: regKey 0 0x02 0 hEvt :: regKey 0 0x07 0 hEvt :: (tbKeys ++ reportKeys))) [.time, .fab, .bitt, .cmds] s t)
  ∧ (∀ (s : State), s.time.tb1St = .tracking → s.tb1Master = false →
      s.time.sampleAt + s.rdf R.SRV_CFG 0 39 32 * sclkSec ≤ s.time.total → Gives .ptpSampleTimeout s fun t =>
      t.time.tb1St = .holdover ∧ bit (t.hdr 0x04 hEvt) 0 = true ∧ Frame noRegs [] ((s.setTb1 .holdover)) t)
  ∧ (∀ (s : State),
      s.time.tb1St ≠ .tracking ∨ s.tb1Master = true ∨ s.time.total < s.time.sampleAt + s.rdf R.SRV_CFG 0 39 32 * sclkSec →
      Gives .ptpSampleTimeout s fun t => Frame noRegs [] s t)
  ∧ (∀ (s : State) (n : Option (Nat × Int)) (y : State), s.aonUp = true →
      n = some (s.rdf R.PPS_OUT_CFG 0 3 2, s.ppsSecond (s.rdf R.PPS_OUT_CFG 0 3 2)) → s.time.ppsSec ≠ n →
      s.rdb R.PPS_OUT_CFG 0 0 = true →
      y = { s with time := { s.time with ppsCfg := s.rd R.PPS_OUT_CFG, ppsSec := n, ppsAt := s.time.total } } →
      Gives (.ppsOutEdge true) s fun t => t.time = { y.time with ppsLevel := true }
      ∧ (bit s.pinOn 17 = true → .ppsOut true ∈ t.sent) ∧ Frame noRegs [] ((y.ppsSet true)) t)
  ∧ (∀ (s : State) (n : Option (Nat × Int)) (y : State), s.aonUp = true →
      n = some (s.rdf R.PPS_OUT_CFG 0 3 2, s.ppsSecond (s.rdf R.PPS_OUT_CFG 0 3 2)) → s.time.ppsSec ≠ n →
      s.rdb R.PPS_OUT_CFG 0 0 = false →
      y = { s with time := { s.time with ppsCfg := s.rd R.PPS_OUT_CFG, ppsSec := n, ppsAt := s.time.total } } →
      Gives (.ppsOutEdge true) s fun t => t.time.ppsLevel = s.time.ppsLevel ∧ Frame noRegs [] y t)
  ∧ (∀ (s : State) (n : Option (Nat × Int)), n = some (s.rdf R.PPS_OUT_CFG 0 3 2, s.ppsSecond (s.rdf R.PPS_OUT_CFG 0 3 2)) →
      s.time.ppsSec = n → Gives (.ppsOutEdge true) s fun t => Frame noRegs [] s t)
  ∧ (∀ (s : State), s.aonUp = true → s.time.ppsLevel = true → s.time.ppsAt + 1500 * fld s.time.ppsCfg 31 12 ≤ s.time.total →
      Gives (.ppsOutEdge false) s fun t => t.time = { s.time with ppsLevel := false }
      ∧ (bit s.pinOn 17 = true → .ppsOut false ∈ t.sent) ∧ Frame noRegs [] ((s.ppsSet false)) t)
  ∧ (∀ (s : State), s.time.ppsLevel = false ∨ s.time.total < s.time.ppsAt + 1500 * fld s.time.ppsCfg 31 12 →
      Gives (.ppsOutEdge false) s fun t => Frame noRegs [] s t)
  ∧ (∀ (s : State) (r : Bool), s.aonUp = false → Gives (.ppsOutEdge r) s fun t => Frame noRegs [] s t)

/-- The queries of R434 end with the values their table gives. SESSION_OPEN makes a pending session with a challenge, after
closing the channel's old one, unless the channel is locked out; SESSION_AUTH grants rights on a signature that verifies
and counts a failure otherwise; SESSION_CLOSE ends the session; NOTIFY_SET writes the channel's NOTIFY bits. Each result
is journaled where R432 asks, and posted, held or discarded as R421 says. Where the rules leave a choice its clauses rest
on the model's, log entries 3, 25, 30, 31, 158, 160, 161, 162, 163 and 183. -/
def Obligations.CommandsAnswerQueries : Prop :=
  (∀ (s : State) (c : Fin 16) (r : CmdRun), s.carries c .nop r false → Gives (.nop c) s fun t => s.ended t c r 0 [r.arg 0]
      ∧ Frame noRegs [] ((s.endCmd c r 0 [r.arg 0])) t)
  ∧ (∀ (s : State) (c : Fin 16) (r : CmdRun), s.carries c .devInfo r false → Gives (.devInfo c) s fun t =>
      s.ended t c r 0 [s.live .normal R.DEV_ID 0 0, s.live .normal R.DEV_SERIAL 0 0, s.live .normal R.CQ_FW 0 0, word (4 * b2n s.nv.otp.mapMode + (s.svIn .active).getD 0)]
      ∧ Frame noRegs [] ((s.endCmd c r 0 [s.live .normal R.DEV_ID 0 0, s.live .normal R.DEV_SERIAL 0 0, s.live .normal R.CQ_FW 0 0, word (4 * b2n s.nv.otp.mapMode + (s.svIn .active).getD 0)])) t)
  ∧ (∀ (s : State) (c : Fin 16) (r : CmdRun), s.carries c .status r false → Gives (.status c) s fun t =>
      s.ended t c r 0 [s.devStatus, s.pwrStat, s.schedStat, word (at_ 32 s.time.epoch + s.time.tide % 2 ^ 32)]
      ∧ Frame noRegs [] ((s.endCmd c r 0 [s.devStatus, s.pwrStat, s.schedStat, word (at_ 32 s.time.epoch + s.time.tide % 2 ^ 32)])) t)
  ∧ (∀ (s : State) (c : Fin 16) (r : CmdRun), s.carries c .timeRead r false → Gives (.timeRead c) s fun t =>
      s.ended t c r 0 ([R.TB_SEC, R.TB_NS, R.TB_STAT, R.EPOCH_SEC].map fun g => s.live .secure g (fld (r.arg 0) 1 0) 0)
      ∧ Frame noRegs [] ((s.endCmd c r 0 ([R.TB_SEC, R.TB_NS, R.TB_STAT, R.EPOCH_SEC].map fun g => s.live .secure g (fld (r.arg 0) 1 0) 0))) t)
  ∧ (∀ (s : State) (c : Fin 16) (r : CmdRun) (x : State) (y : State) (y1 : State) (ch : List Byte) (z : Session),
      s.carries c .sessionOpen r false → s.lockedOut c = false →
      x = (if (pget s.cmds.session c).isSome then s.endSession c 3 else s) → ch = x.fresh.2.drawChallenge.1 →
      y = x.fresh.2.drawChallenge.2 →
      z = { id := freshId (Config.sessionId x.fresh.1).toNat (y.cmds.session.map fun e => e.2.elim 0 fun v => v.id), auth := false, rights := fld (r.arg 0) 3 0, key := fld (r.arg 0) 15 8, challenge := some ch, since := s.time.total, last := s.time.total } →
      y1 = { y with cmds := { y.cmds with session := pset y.cmds.session c (some z) } } → Gives (.sessionOpen c) s fun t =>
      z.id ≠ 0 ∧ (s.cqOn c = true → pget t.cmds.session c = some z) ∧ y1.ended t c r 0 (bytesWords 4 ch)
      ∧ Frame noRegs [] ((y1.endCmd c r 0 (bytesWords 4 ch))) t)
  ∧ (∀ (s : State) (c : Fin 16) (r : CmdRun), s.carries c .sessionOpen r false → s.lockedOut c = true →
      Gives (.sessionOpen c) s fun t => s.ended t c r 0x22 [] ∧ Frame noRegs [] ((s.endCmd c r 0x22 [])) t)
  ∧ (∀ (s : State) (c : Fin 16) (host : Option (List Byte)) (r : CmdRun) (x : State) (z : State) (bs : List Byte) (ch : List Byte) (y : Session) (y2 : Session) (g : Option Nat),
      s.carries c .sessionAuth r false → s.fwFetch (fld (r.arg 0) 47 0) 96 host = (x, some bs) → (x.cchan c).run = some r →
      x.pendingSession c r = some (y, ch) → g = x.authRights c y ch bs →
      y2 = { y with challenge := none, last := x.time.total } →
      z = (match g with | some n => ({ x with cmds := { x.cmds with session := pset x.cmds.session c (some { y2 with auth := true, rights := y.rights &&& (n % 16) }) } } : State).setCchan c { x.cchan c with fails := 0 } | none => (State.authFailed { x with cmds := { x.cmds with session := pset x.cmds.session c (some y2) } } c).1) →
      Gives (.sessionAuth c host) s fun t =>
      (g = none → (t.cchan c).fails = (if (x.cchan c).fails < 4 then (x.cchan c).fails + 1 else 0))
      ∧ (g = none → 4 ≤ (x.cchan c).fails → (t.cchan c).lockedAt = some x.time.total)
      ∧ (g = none → bit (t.hdr 0x0E hEvt) 1 = true ∧ fld (t.rd R.CQ_CNT 0 c) 31 16 = min (fld (x.rd R.CQ_CNT 0 c) 31 16 + 1) 0xFFFF)
      ∧ (g ≠ none → (t.cchan c).fails = 0)
      ∧ z.ended t c r (if g.isSome then 0 else 0x22) (match g with | some n => [word (y.rights &&& (n % 16))] | none => [])
      ∧ Frame noRegs [] ((z.endCmd c r (if g.isSome then 0 else 0x22) (match g with | some n => [word (y.rights &&& (n % 16))] | none => []))) t)
  ∧ (∀ (s : State) (c : Fin 16) (host : Option (List Byte)) (r : CmdRun) (x : State) (bs : List Byte),
      s.carries c .sessionAuth r false → s.fwFetch (fld (r.arg 0) 47 0) 96 host = (x, some bs) → (x.cchan c).run = some r →
      x.pendingSession c r = none → Gives (.sessionAuth c host) s fun t => bit (t.hdr 0x0E hEvt) 1 = true
      ∧ (x.authFailed c).1.ended t c r 0x22 [] ∧ Frame noRegs [] (((x.authFailed c).1.endCmd c r 0x22 [])) t)
  ∧ (∀ (s : State) (c : Fin 16) (r : CmdRun), s.carries c .sessionClose r false → Gives (.sessionClose c) s fun t =>
      pget t.cmds.session c = none ∧ (s.endSession c 0).ended t c r 0 []
      ∧ Frame noRegs [] (((s.endSession c 0).endCmd c r 0 [])) t)
  ∧ (∀ (s : State) (c : Fin 16) (r : CmdRun) (x : State), s.carries c .notifySet r false →
      s.fwWrite { r := R.CQ_CH, k := c, v := setFld (s.cqCh c) 9 0 (fld (r.arg 0) 9 0) } = (x, none) →
      Gives (.notifySet c) s fun t => t.cqCh c = setFld (s.cqCh c) 9 0 (fld (r.arg 0) 9 0) ∧ x.ended t c r 0 []
      ∧ Frame noRegs [] ((x.endCmd c r 0 [])) t)

/-- A power command asks for its transition, waits, and ends once it is made, or ends with E_STATE or E_SCHED. IMAGE_LOAD
copies the buffer into the store and starts its check; the result comes when the check ends. Arm, halt, cancel and clear
are the register writes that R435 names, and a rejected write ends the command with its code and LAST_REJECT. Where the
rules leave a choice its clauses rest on the model's, log entries 3, 30, 158, 160, 164, 165 and 166. -/
def Obligations.PowerAndScheduleCommands : Prop :=
  (∀ (s : State) (c : Fin 16) (r : CmdRun) (y : State), s.carries c .pwrRun r false → s.pwr.state = .idle →
      s.pwr.req = .none → y = (s.setPwr fun p => { p with req := .toRun s.runTide, rows := 0, rowAt := s.time.total }) →
      Gives (.pwrRun c) s fun t => t.pwr = { s.pwr with req := .toRun s.runTide, rows := 0, rowAt := s.time.total }
      ∧ (t.cchan c).run = some { r with begun := true } ∧ Frame noRegs [] ((y.begins c r)) t)
  ∧ (∀ (s : State) (c : Fin 16) (r : CmdRun) (n : Nat), s.carries c .pwrRun r false → s.pwr.state = .idle →
      s.pwr.req = .toRun n → Gives (.pwrRun c) s fun t => t.pwr = s.pwr ∧ (t.cchan c).run = some { r with begun := true }
      ∧ Frame noRegs [] ((s.begins c r)) t)
  ∧ (∀ (s : State) (c : Fin 16) (r : CmdRun), s.carries c .pwrRun r true → s.pwr.state = .run → Gives (.pwrRun c) s fun t =>
      s.ended t c r 0 [s.pwrStat] ∧ Frame noRegs [] ((s.endCmd c r 0 [s.pwrStat])) t)
  ∧ (∀ (s : State) (c : Fin 16) (r : CmdRun), s.carries c .pwrRun r true → s.pwr.state ≠ .run → Gives (.pwrRun c) s fun t =>
      Frame noRegs [] s t)
  ∧ (∀ (s : State) (c : Fin 16) (r : CmdRun), s.carries c .pwrRun r false → s.pwr.state ≠ .idle →
      s.pwr.state ≠ .run ∨ r.replayed = false → Gives (.pwrRun c) s fun t => s.ended t c r 4 []
      ∧ Frame noRegs [] ((s.endCmd c r 4 [])) t)
  ∧ (∀ (s : State) (c : Fin 16) (r : CmdRun), s.carries c .pwrRun r false → s.pwr.state = .run → r.replayed = true →
      Gives (.pwrRun c) s fun t => s.ended t c r 0 [s.pwrStat] ∧ Frame noRegs [] ((s.endCmd c r 0 [s.pwrStat])) t)
  ∧ (∀ (s : State) (c : Fin 16) (r : CmdRun) (n : Nat) (y : State), s.carries c .pwrIdle r false → s.pwr.state = .run →
      s.pwr.req = .none ∨ s.pwr.req = .toRun n → s.pansWanted = false → y = (s.setPwr fun p => { p with req := .toIdle }) →
      Gives (.pwrIdle c) s fun t => t.pwr = { s.pwr with req := .toIdle } ∧ (t.cchan c).run = some { r with begun := true }
      ∧ Frame noRegs [] ((y.begins c r)) t)
  ∧ (∀ (s : State) (c : Fin 16) (r : CmdRun), s.carries c .pwrIdle r false → s.pwr.state = .run → s.pwr.req = .toIdle →
      Gives (.pwrIdle c) s fun t => t.pwr = s.pwr ∧ (t.cchan c).run = some { r with begun := true }
      ∧ Frame noRegs [] ((s.begins c r)) t)
  ∧ (∀ (s : State) (c : Fin 16) (r : CmdRun) (n : Nat), s.carries c .pwrIdle r false → s.pwr.state = .run →
      s.pwr.req = .none ∨ s.pwr.req = .toRun n → s.pansWanted = true → Gives (.pwrIdle c) s fun t => s.ended t c r 9 []
      ∧ Frame noRegs [] ((s.endCmd c r 9 [])) t)
  ∧ (∀ (s : State) (c : Fin 16) (r : CmdRun), s.carries c .pwrIdle r false → s.pwr.state ≠ .run →
      s.pwr.state ≠ .idle ∨ r.replayed = false → Gives (.pwrIdle c) s fun t => s.ended t c r 4 []
      ∧ Frame noRegs [] ((s.endCmd c r 4 [])) t)
  ∧ (∀ (s : State) (c : Fin 16) (r : CmdRun), s.carries c .pwrIdle r false → s.pwr.state = .run → s.pwr.req = .toStandby →
      Gives (.pwrIdle c) s fun t => s.ended t c r 4 [] ∧ Frame noRegs [] ((s.endCmd c r 4 [])) t)
  ∧ (∀ (s : State) (c : Fin 16) (r : CmdRun), s.carries c .pwrIdle r true → s.pwr.state = .idle →
      Gives (.pwrIdle c) s fun t => s.ended t c r 0 [] ∧ Frame noRegs [] ((s.endCmd c r 0 [])) t)
  ∧ (∀ (s : State) (c : Fin 16) (r : CmdRun), s.carries c .pwrIdle r true → s.pwr.state ≠ .idle →
      Gives (.pwrIdle c) s fun t => Frame noRegs [] s t)
  ∧ (∀ (s : State) (c : Fin 16) (r : CmdRun) (y : State), s.carries c .pwrStandby r false → s.pwr.req ≠ .toStandby →
      s.pwr.standbyReady = false → s.pwr.state = .run ∨ s.pwr.state = .idle →
      y = { s with pwr := { s.pwr with req := .toStandby }, sched := { s.sched with standbyHalt := s.sched.run.isSome } } →
      Gives (.pwrStandby c) s fun t => t.pwr.req = .toStandby ∧ (s.sched.run.isSome = true → t.sched.standbyHalt = true)
      ∧ (t.cchan c).run = some { r with begun := true } ∧ Frame noRegs [] ((y.standbyStep.begins c r)) t)
  ∧ (∀ (s : State) (c : Fin 16) (r : CmdRun), s.carries c .pwrStandby r false →
      s.pwr.req = .toStandby ∨ s.pwr.standbyReady = true ∨ (s.pwr.state ≠ .run ∧ s.pwr.state ≠ .idle) → r.replayed = false →
      Gives (.pwrStandby c) s fun t => s.ended t c r 4 [] ∧ Frame noRegs [] ((s.endCmd c r 4 [])) t)
  ∧ (∀ (s : State) (c : Fin 16) (r : CmdRun), s.carries c .pwrStandby r true → s.pwr.standbyReady = true →
      Gives (.pwrStandby c) s fun t => s.ended t c r 0 [] ∧ Frame noRegs [] ((s.endCmd c r 0 [])) t)
  ∧ (∀ (s : State) (c : Fin 16) (r : CmdRun), s.carries c .pwrStandby r true → s.pwr.standbyReady = false →
      s.pwr.req = .toStandby → Gives (.pwrStandby c) s fun t => Frame noRegs [] s t)
  ∧ (∀ (s : State) (c : Fin 16) (r : CmdRun), s.carries c .pwrStandby r true → s.pwr.standbyReady = false →
      s.pwr.req ≠ .toStandby → Gives (.pwrStandby c) s fun t => s.ended t c r Code.nvm.num []
      ∧ Frame noRegs [] ((s.endCmd c r Code.nvm.num [])) t)
  ∧ (∀ (s : State) (c : Fin 16) (host : Option (List Byte)) (r : CmdRun) (x : State) (y : State),
      s.carries c .imageLoad r false → r.replayed = false → s.storeLocked (fld (r.arg 1) 8 8) = false →
      (s.setStoreSt (fld (r.arg 1) 8 8) .written).copyImage (fld (r.arg 0) 47 0) (fld (r.arg 1) 8 8) (r.arg 2).toNat host = (x, true) →
      x.fwWrite { r := R.LOAD_CMD, v := word (at_ 8 (fld (r.arg 1) 8 8) + 1) } = (y, none) → (y.cchan c).run = some r →
      Gives (.imageLoad c host) s fun t => (t.cchan c).run = some { r with begun := true }
      ∧ Frame noRegs [] ((y.begins c r)) t)
  ∧ (∀ (s : State) (c : Fin 16) (host : Option (List Byte)) (r : CmdRun) (x : State), s.carries c .imageLoad r false →
      r.replayed = false → s.storeLocked (fld (r.arg 1) 8 8) = false →
      (s.setStoreSt (fld (r.arg 1) 8 8) .written).copyImage (fld (r.arg 0) 47 0) (fld (r.arg 1) 8 8) (r.arg 2).toNat host = (x, false) →
      (x.cchan c).run = some r → Gives (.imageLoad c host) s fun t => x.ended t c r 0x28 []
      ∧ Frame noRegs [] ((x.endCmd c r 0x28 [])) t)
  ∧ (∀ (s : State) (c : Fin 16) (host : Option (List Byte)) (r : CmdRun), s.carries c .imageLoad r false →
      r.replayed = false → s.storeLocked (fld (r.arg 1) 8 8) = true → Gives (.imageLoad c host) s fun t => s.ended t c r 4 []
      ∧ Frame noRegs [] ((s.endCmd c r 4 [])) t)
  ∧ (∀ (s : State) (c : Fin 16) (host : Option (List Byte)) (r : CmdRun), s.carries c .imageLoad r true →
      (s.sched.check.any fun x => x.1 = fld (r.arg 1) 8 8) = false → Gives (.imageLoad c host) s fun t =>
      s.ended t c r (if s.storeSt (fld (r.arg 1) 8 8) = .refused then 0x23 else 0) [s.rd R.LOAD_STAT]
      ∧ Frame noRegs [] ((s.endCmd c r (if s.storeSt (fld (r.arg 1) 8 8) = .refused then 0x23 else 0) [s.rd R.LOAD_STAT])) t)
  ∧ (∀ (s : State) (c : Fin 16) (host : Option (List Byte)) (r : CmdRun), s.carries c .imageLoad r true →
      (s.sched.check.any fun x => x.1 = fld (r.arg 1) 8 8) = true → Gives (.imageLoad c host) s fun t => Frame noRegs [] s t)
  ∧ (∀ (s : State) (c : Fin 16) (r : CmdRun) (x : State), s.carries c .imageArm r false → r.replayed = false →
      s.fwWrites [{ r := R.ARM_TIDE, v := r.arg 0 }, { r := R.ARM_CTRL, v := armWord r false }] = (x, none) →
      (x.cchan c).run = some r → Gives (.imageArm c) s fun t => x.ended t c r 0 [x.rd R.ARM_TIDE, x.schedStat]
      ∧ Frame noRegs [] ((x.endCmd c r 0 [x.rd R.ARM_TIDE, x.schedStat])) t)
  ∧ (∀ (s : State) (c : Fin 16) (r : CmdRun) (x : State), s.carries c .imageHalt r false → r.replayed = false →
      s.fwWrites [{ r := R.ARM_TIDE, v := r.arg 0 }, { r := R.ARM_CTRL, v := armWord r true }] = (x, none) →
      (x.cchan c).run = some r → Gives (.imageHalt c) s fun t => x.ended t c r 0 [x.rd R.ARM_TIDE, x.schedStat]
      ∧ Frame noRegs [] ((x.endCmd c r 0 [x.rd R.ARM_TIDE, x.schedStat])) t)
  ∧ (∀ (s : State) (c : Fin 16) (r : CmdRun) (x : State) (z : State) (j : Reject), s.carries c .imageArm r false →
      r.replayed = false → (x.cchan c).run = some r →
      s.fwWrites [{ r := R.ARM_TIDE, v := r.arg 0 }, { r := R.ARM_CTRL, v := armWord r false }] = (x, some j) →
      z = x.recordRejects [j] → Gives (.imageArm c) s fun t => t.rd R.LAST_REJECT = z.rd R.LAST_REJECT
      ∧ z.ended t c r j.code.num [z.rd R.LAST_REJECT] ∧ Frame noRegs [] ((z.endCmd c r j.code.num [z.rd R.LAST_REJECT])) t)
  ∧ (∀ (s : State) (c : Fin 16) (r : CmdRun) (x : State), s.carries c .imageCancel r false → r.replayed = false →
      s.fwWrite { r := R.ARM_CANCEL, v := 1 } = (x, none) → (x.cchan c).run = some r → Gives (.imageCancel c) s fun t =>
      t.sched.cancel = true ∧ x.ended t c r 0 [] ∧ Frame noRegs [] ((x.endCmd c r 0 [])) t)
  ∧ (∀ (s : State) (c : Fin 16) (r : CmdRun) (x : State) (z : State) (j : Reject), s.carries c .imageCancel r false →
      r.replayed = false → s.fwWrite { r := R.ARM_CANCEL, v := 1 } = (x, some j) → z = s.recordRejects [j] →
      Gives (.imageCancel c) s fun t => t.rd R.LAST_REJECT = z.rd R.LAST_REJECT
      ∧ z.ended t c r j.code.num [z.rd R.LAST_REJECT] ∧ Frame noRegs [] ((z.endCmd c r j.code.num [z.rd R.LAST_REJECT])) t)
  ∧ (∀ (s : State) (c : Fin 16) (r : CmdRun) (x : State), s.carries c .imageClear r false → r.replayed = false →
      s.fwWrite { r := R.LOAD_CMD, v := word (at_ 8 (fld (r.arg 0) 8 8) + 2) } = (x, none) → (x.cchan c).run = some r →
      Gives (.imageClear c) s fun t => t.storeSt (fld (r.arg 0) 8 8) = .empty ∧ x.ended t c r 0 []
      ∧ Frame noRegs [] ((x.endCmd c r 0 [])) t)

/-- The time and reference commands write their registers and end at once. Retraining a controller or a link, preempting or
resuming a pan and a checkpoint start at once, wait, and end once the hardware is done; EXPERT_EN of a pan's page is put
back after the firmware's writes. Where the rules leave a choice its clauses rest on the model's, log entries 3, 30, 158,
160 and 167. -/
def Obligations.TimeAndMaintenanceCommands : Prop :=
  (∀ (s : State) (c : Fin 16) (r : CmdRun) (x : State), s.carries c .timeStepArm r false → r.replayed = false →
      s.fwWrites [{ a := .secure, r := R.STEP_SEC, v := r.arg 1 }, { a := .secure, r := R.STEP_NS, v := r.arg 2 }, { a := .secure, r := R.STEP_CTRL, v := word (at_ 1 (fld (r.arg 0) 2 1) + 1) }] = (x, none) →
      (x.cchan c).run = some r → Gives (.timeStepArm c) s fun t => x.time.epoch = s.time.epoch
      ∧ x.ended t c r 0 [word (nextEpoch s.time.epoch)]
      ∧ Frame noRegs [] ((x.endCmd c r 0 [word (nextEpoch s.time.epoch)])) t)
  ∧ (∀ (s : State) (c : Fin 16) (r : CmdRun) (x : State), s.carries c .refSelect r false → r.expert = false →
      s.fwWrite { a := .secure, r := R.SEL_CFG, v := setFld (setFld (s.rd R.SEL_CFG) 1 0 (fld (r.arg 0) 1 0)) 7 4 (fld (r.arg 0) 7 4) } = (x, none) →
      (x.cchan c).run = some r → Gives (.refSelect c) s fun t => x.rdf R.SEL_CFG 0 1 0 = fld (r.arg 0) 1 0
      ∧ x.rdf R.SEL_CFG 0 7 4 = fld (r.arg 0) 7 4 ∧ x.rdf R.SEL_CFG 0 12 8 = s.rdf R.SEL_CFG 0 12 8
      ∧ x.ended t c r 0 [x.rd R.SEL_CFG, x.pllStat] ∧ Frame noRegs [] ((x.endCmd c r 0 [x.rd R.SEL_CFG, x.pllStat])) t)
  ∧ (∀ (s : State) (c : Fin 16) (r : CmdRun) (x : State), s.carries c .refSelect r false → r.expert = true →
      s.fwWrites [{ a := .secure, r := R.PRIO, v := r.arg 1 }, { a := .secure, r := R.WTR, v := r.arg 3 }, { a := .secure, r := R.HO_CFG, v := r.arg 4 }, { a := .secure, r := R.SEL_CFG, v := setFld (setFld (setFld (s.rd R.SEL_CFG) 1 0 (fld (r.arg 0) 1 0)) 7 4 (fld (r.arg 0) 7 4)) 12 8 (fld (r.arg 2) 4 0) }] = (x, none) →
      (x.cchan c).run = some r → Gives (.refSelect c) s fun t => x.ended t c r 0 [x.rd R.SEL_CFG, x.pllStat]
      ∧ Frame noRegs [] ((x.endCmd c r 0 [x.rd R.SEL_CFG, x.pllStat])) t)
  ∧ (∀ (s : State) (c : Fin 16) (r : CmdRun) (x : State) (z : State) (j : Reject), s.carries c .refSelect r false →
      r.expert = false →
      s.fwWrite { a := .secure, r := R.SEL_CFG, v := setFld (setFld (s.rd R.SEL_CFG) 1 0 (fld (r.arg 0) 1 0)) 7 4 (fld (r.arg 0) 7 4) } = (x, some j) →
      z = s.recordRejects [j] → Gives (.refSelect c) s fun t => t.rd R.LAST_REJECT = z.rd R.LAST_REJECT
      ∧ z.ended t c r j.code.num [z.rd R.LAST_REJECT] ∧ Frame noRegs [] ((z.endCmd c r j.code.num [z.rd R.LAST_REJECT])) t)
  ∧ (∀ (s : State) (c : Fin 16) (r : CmdRun) (x : State), s.carries c .tb3Set r false →
      s.fwWrites ((if r.expert then [{ r := R.TB_RATE, u := 3, v := r.arg 2 }] else []) ++ [{ r := R.STEP_SEC, u := 3, v := r.arg 0 }, { r := R.STEP_NS, u := 3, v := r.arg 1 }, { r := R.STEP_CTRL, u := 3, v := 1 }]) = (x, none) →
      (x.cchan c).run = some r → Gives (.tb3Set c) s fun t => t.time.tb3 = timeOf (r.arg 0) (r.arg 1) ∧ x.ended t c r 0 []
      ∧ Frame noRegs [] ((x.endCmd c r 0 [])) t)
  ∧ (∀ (s : State) (c : Fin 16) (r : CmdRun) (x : State), s.carries c .heapRetrain r false → r.replayed = false →
      s.fwWrite { r := R.HC_CMD, u := fld (r.arg 0) 7 0, v := 1 } = (x, none) → (x.cchan c).run = some r →
      Gives (.heapRetrain c) s fun t => (t.ctl (fld (r.arg 0) 7 0)).state = .starting
      ∧ (t.cchan c).run = some { r with begun := true } ∧ Frame noRegs [] ((x.begins c r)) t)
  ∧ (∀ (s : State) (c : Fin 16) (r : CmdRun), s.carries c .heapRetrain r true →
      (s.ctl (fld (r.arg 0) 7 0)).state ≠ .starting → Gives (.heapRetrain c) s fun t =>
      s.ended t c r 0 [s.hcStat (fld (r.arg 0) 7 0)] ∧ Frame noRegs [] ((s.endCmd c r 0 [s.hcStat (fld (r.arg 0) 7 0)])) t)
  ∧ (∀ (s : State) (c : Fin 16) (r : CmdRun), s.carries c .heapRetrain r true →
      (s.ctl (fld (r.arg 0) 7 0)).state = .starting → Gives (.heapRetrain c) s fun t => Frame noRegs [] s t)
  ∧ (∀ (s : State) (c : Fin 16) (r : CmdRun) (x : State), s.carries c .linkRetrain r false → r.replayed = false →
      s.fwWrite { r := R.LINK_CMD, u := fld (r.arg 0) 7 0, v := 1 } = (x, none) → (x.cchan c).run = some r →
      Gives (.linkRetrain c) s fun t => (t.cchan c).run = some { r with begun := true } ∧ Frame noRegs [] ((x.begins c r)) t)
  ∧ (∀ (s : State) (c : Fin 16) (r : CmdRun), s.carries c .linkRetrain r true →
      (s.lkUp (fld (r.arg 0) 7 0) = true ∧ s.lkNeg (fld (r.arg 0) 7 0) = 0) ∨ s.lkState (fld (r.arg 0) 7 0) = lkDetect ∨ s.lkState (fld (r.arg 0) 7 0) = lkFault →
      Gives (.linkRetrain c) s fun t => s.ended t c r 0 [s.linkStat (fld (r.arg 0) 7 0)]
      ∧ Frame noRegs [] ((s.endCmd c r 0 [s.linkStat (fld (r.arg 0) 7 0)])) t)
  ∧ (∀ (s : State) (c : Fin 16) (r : CmdRun), s.carries c .linkRetrain r true →
      ¬ ((s.lkUp (fld (r.arg 0) 7 0) = true ∧ s.lkNeg (fld (r.arg 0) 7 0) = 0) ∨ s.lkState (fld (r.arg 0) 7 0) = lkDetect ∨ s.lkState (fld (r.arg 0) 7 0) = lkFault) →
      Gives (.linkRetrain c) s fun t => Frame noRegs [] s t)
  ∧ (∀ (s : State) (c : Fin 16) (r : CmdRun) (pg : Nat) (x : State), s.carries c .panPreempt r false → r.replayed = false →
      pg = 0x30 + fld (r.arg 0) 7 0 / 16 →
      firstCode (s.hdrReasons .normal pg hCtrl (setBit (s.hdr pg hCtrl) 1 ||| 0x5A17000000000000)) = none →
      (s.ctrlPut pg (setBit (s.hdr pg hCtrl) 1)).fwWrites [{ r := R.PAN_XTIDE, u := fld (r.arg 0) 7 0, v := r.arg 1 }, { r := R.PAN_XCMD, u := fld (r.arg 0) 7 0, v := 1 }] = (x, none) →
      (x.cchan c).run = some r → Gives (.panPreempt c) s fun t => t.hdr pg hCtrl = s.hdr pg hCtrl
      ∧ (t.pn (fld (r.arg 0) 7 0)).prePend = some (r.arg 1).toNat ∧ (t.cchan c).run = some { r with begun := true }
      ∧ Frame noRegs [] (((x.ctrlPut pg (s.hdr pg hCtrl)).begins c r)) t)
  ∧ (∀ (s : State) (c : Fin 16) (r : CmdRun), s.carries c .panPreempt r true → (s.pn (fld (r.arg 0) 7 0)).preempted = true →
      Gives (.panPreempt c) s fun t => s.ended t c r 0 (s.panLoops (fld (r.arg 0) 7 0))
      ∧ Frame noRegs [] ((s.endCmd c r 0 (s.panLoops (fld (r.arg 0) 7 0)))) t)
  ∧ (∀ (s : State) (c : Fin 16) (r : CmdRun), s.carries c .panPreempt r true → (s.pn (fld (r.arg 0) 7 0)).preempted = false →
      Gives (.panPreempt c) s fun t => Frame noRegs [] s t)
  ∧ (∀ (s : State) (c : Fin 16) (r : CmdRun) (pg : Nat) (x : State), s.carries c .panResume r false → r.replayed = false →
      pg = 0x30 + fld (r.arg 0) 7 0 / 16 →
      firstCode (s.hdrReasons .normal pg hCtrl (setBit (s.hdr pg hCtrl) 1 ||| 0x5A17000000000000)) = none →
      (s.ctrlPut pg (setBit (s.hdr pg hCtrl) 1)).fwWrites (writesOn (fld (r.arg 0) 7 0) [(R.PAN_XPC, r.arg 2), (R.PAN_XLOOP0, r.arg 3), (R.PAN_XLOOP1, r.arg 4), (R.PAN_XLOOP2, r.arg 5), (R.PAN_XTIDE, r.arg 1), (R.PAN_XCMD, 2)]) = (x, none) →
      (x.cchan c).run = some r → Gives (.panResume c) s fun t => t.hdr pg hCtrl = s.hdr pg hCtrl
      ∧ (t.pn (fld (r.arg 0) 7 0)).resPend = some (r.arg 1).toNat ∧ (t.cchan c).run = some { r with begun := true }
      ∧ Frame noRegs [] (((x.ctrlPut pg (s.hdr pg hCtrl)).begins c r)) t)
  ∧ (∀ (s : State) (c : Fin 16) (r : CmdRun), s.carries c .panResume r true → (s.pn (fld (r.arg 0) 7 0)).preempted = false →
      Gives (.panResume c) s fun t => s.ended t c r 0 [] ∧ Frame noRegs [] ((s.endCmd c r 0 [])) t)
  ∧ (∀ (s : State) (c : Fin 16) (r : CmdRun), s.carries c .panResume r true → (s.pn (fld (r.arg 0) 7 0)).preempted = true →
      Gives (.panResume c) s fun t => Frame noRegs [] s t)
  ∧ (∀ (s : State) (c : Fin 16) (r : CmdRun), s.carries c .checkpoint r false → Gives (.checkpoint c) s fun t =>
      t.sup = (s.ckptAsk 4).sup ∧ t.sup.ckptDue.isSome = true
      ∧ (t.cchan c).run = some { r with begun := true, mark := s.sup.ckptSeq + 1 + b2n s.sup.ckptWriting.isSome }
      ∧ Frame noRegs [] (((s.ckptAsk 4).begins c { r with mark := s.sup.ckptSeq + 1 + b2n s.sup.ckptWriting.isSome })) t)
  ∧ (∀ (s : State) (c : Fin 16) (r : CmdRun), s.carries c .checkpoint r true → r.mark ≤ s.sup.ckptSeq →
      Gives (.checkpoint c) s fun t => s.ended t c r 0 [word s.sup.ckptSeq]
      ∧ Frame noRegs [] ((s.endCmd c r 0 [word s.sup.ckptSeq])) t)
  ∧ (∀ (s : State) (c : Fin 16) (r : CmdRun), s.carries c .checkpoint r true → s.sup.ckptSeq < r.mark →
      Gives (.checkpoint c) s fun t => Frame noRegs [] s t)

/-- A setting command whose buffer is read and whose writes are all accepted leaves its sets committed and answers the tide
of their adoption; while a set it needs is committed and not adopted it waits; a buffer that cannot be read ends it with
E_BUFFER, an entry that fails with its code and index and nothing written. Where the rules leave a choice its clauses
rest on the model's, log entries 3, 18, 158, 159, 169, 170 and 173. -/
def Obligations.SettingCommandsCommitTheirSets : Prop :=
  (∀ (s : State) (c : Fin 16) (host : Option (List Byte)) (r : CmdRun) (x : State) (y : State) (bs : List Byte) (es : List (List Word)),
      s.carries c .delayModels r false → r.replayed = false →
      s.fwFetch (fld (r.arg 0) 47 0) (64 * (r.arg 1).toNat) host = (x, some bs) →
      es = chunks 8 (r.arg 1).toNat (bytesWords (8 * (r.arg 1).toNat) bs) →
      (es.map dmSlot).eraseDups.length = (es.map dmSlot).length →
      ((es.map dmSlot).any fun z => x.setDue (.dm z.1 z.2)) = false → (es.all fun e => (x.dmEntry e).code.isNone) = true →
      x.fwWrites (es.flatMap dmWrites) = (y, none) → (y.cchan c).run = some r → Gives (.delayModels c host) s fun t =>
      ((es.map dmSlot).all fun z => t.setDue (.dm z.1 z.2)) = true ∧ y.ended t c r 0 [word y.adoptTide]
      ∧ Frame noRegs [] ((y.endCmd c r 0 [word y.adoptTide])) t)
  ∧ (∀ (s : State) (c : Fin 16) (host : Option (List Byte)) (r : CmdRun) (x : State) (bs : List Byte) (es : List (List Word)),
      s.carries c .delayModels r false → r.replayed = false →
      s.fwFetch (fld (r.arg 0) 47 0) (64 * (r.arg 1).toNat) host = (x, some bs) →
      es = chunks 8 (r.arg 1).toNat (bytesWords (8 * (r.arg 1).toNat) bs) →
      (es.map dmSlot).eraseDups.length = (es.map dmSlot).length →
      ((es.map dmSlot).any fun z => x.setDue (.dm z.1 z.2)) = true → Gives (.delayModels c host) s fun t => t.cmds = x.cmds
      ∧ Frame noRegs [] x t)
  ∧ (∀ (s : State) (c : Fin 16) (host : Option (List Byte)) (r : CmdRun) (x : State) (bs : List Byte) (es : List (List Word)),
      s.carries c .delayModels r false → r.replayed = false →
      s.fwFetch (fld (r.arg 0) 47 0) (64 * (r.arg 1).toNat) host = (x, some bs) →
      es = chunks 8 (r.arg 1).toNat (bytesWords (8 * (r.arg 1).toNat) bs) →
      (es.map dmSlot).eraseDups.length ≠ (es.map dmSlot).length → (x.cchan c).run = some r →
      Gives (.delayModels c host) s fun t => x.ended t c r Code.args.num []
      ∧ Frame noRegs [] ((x.endCmd c r Code.args.num [])) t)
  ∧ (∀ (s : State) (c : Fin 16) (host : Option (List Byte)) (r : CmdRun) (x : State), s.carries c .delayModels r false →
      s.fwFetch (fld (r.arg 0) 47 0) (64 * (r.arg 1).toNat) host = (x, none) → (x.cchan c).run = some r →
      Gives (.delayModels c host) s fun t => x.ended t c r 0x28 [] ∧ Frame noRegs [] ((x.endCmd c r 0x28 [])) t)
  ∧ (∀ (s : State) (c : Fin 16) (host : Option (List Byte)) (r : CmdRun) (x : State), s.carries c .gains r false →
      s.fwFetch (fld (r.arg 0) 47 0) (2 * fld (r.arg 2) 28 16) host = (x, none) → (x.cchan c).run = some r →
      Gives (.gains c host) s fun t => x.ended t c r 0x28 [] ∧ Frame noRegs [] ((x.endCmd c r 0x28 [])) t)
  ∧ (∀ (s : State) (c : Fin 16) (host : Option (List Byte)) (r : CmdRun) (x : State), s.carries c .destTable r false →
      s.fwFetch (fld (r.arg 0) 47 0) (64 * fld (r.arg 1) 14 8) host = (x, none) → (x.cchan c).run = some r →
      Gives (.destTable c host) s fun t => x.ended t c r 0x28 [] ∧ Frame noRegs [] ((x.endCmd c r 0x28 [])) t)
  ∧ (∀ (s : State) (c : Fin 16) (host : Option (List Byte)) (r : CmdRun) (x : State) (y : State) (bs : List Byte),
      s.carries c .gains r false → s.fwFetch (fld (r.arg 0) 47 0) (2 * fld (r.arg 2) 28 16) host = (x, some bs) →
      x.setDue (.gain (fld (r.arg 1) 15 8)) = false → fld (r.arg 2) 11 0 + fld (r.arg 2) 28 16 ≤ 4096 →
      x.fwWrites (writesOn (fld (r.arg 1) 15 8) ([(R.SLU_CMD, word (at_ 16 (fld (r.arg 1) 3 0) + 1)), (R.GAIN_ADDR, word (at_ 12 (fld (r.arg 1) 3 0) + fld (r.arg 2) 11 0))] ++ (halves (fld (r.arg 2) 28 16) bs).map (fun g => (R.GAIN_DATA, g)) ++ [(R.GAIN_CTRL, 1)])) = (y, none) →
      (y.cchan c).run = some r → Gives (.gains c host) s fun t => t.setDue (.gain (fld (r.arg 1) 15 8)) = true
      ∧ y.ended t c r 0 [word y.adoptTide] ∧ Frame noRegs [] ((y.endCmd c r 0 [word y.adoptTide])) t)
  ∧ (∀ (s : State) (c : Fin 16) (host : Option (List Byte)) (r : CmdRun) (x : State) (bs : List Byte),
      s.carries c .gains r false → s.fwFetch (fld (r.arg 0) 47 0) (2 * fld (r.arg 2) 28 16) host = (x, some bs) →
      x.setDue (.gain (fld (r.arg 1) 15 8)) = false → 4096 < fld (r.arg 2) 11 0 + fld (r.arg 2) 28 16 →
      (x.cchan c).run = some r → Gives (.gains c host) s fun t =>
      x.openResults.2.ended t c r 2 (x.openResults.1.take 1 ++ [word (4096 - fld (r.arg 2) 11 0)])
      ∧ Frame noRegs [] ((x.openResults.2.endCmd c r 2 (x.openResults.1.take 1 ++ [word (4096 - fld (r.arg 2) 11 0)]))) t)
  ∧ (∀ (s : State) (c : Fin 16) (host : Option (List Byte)) (r : CmdRun) (x : State) (bs : List Byte),
      s.carries c .gains r false → r.replayed = false →
      s.fwFetch (fld (r.arg 0) 47 0) (2 * fld (r.arg 2) 28 16) host = (x, some bs) →
      x.setDue (.gain (fld (r.arg 1) 15 8)) = true → Gives (.gains c host) s fun t => t.cmds = x.cmds ∧ Frame noRegs [] x t)
  ∧ (∀ (s : State) (c : Fin 16) (host : Option (List Byte)) (r : CmdRun) (x : State), s.carries c .window r false →
      bit (r.arg 1) 8 = true → s.setDue (.win (fld (r.arg 1) 7 0)) = false →
      s.fwWrites (writesOn (fld (r.arg 1) 7 0) [(R.SLU_CMD, 2), (R.WIN_CTRL, 1)]) = (x, none) → (x.cchan c).run = some r →
      Gives (.window c host) s fun t => t.setDue (.win (fld (r.arg 1) 7 0)) = true ∧ x.ended t c r 0 [word x.adoptTide]
      ∧ Frame noRegs [] ((x.endCmd c r 0 [word x.adoptTide])) t)
  ∧ (∀ (s : State) (c : Fin 16) (host : Option (List Byte)) (r : CmdRun) (x : State) (y : State) (bs : List Byte),
      s.carries c .window r false → bit (r.arg 1) 8 = false →
      s.fwFetch (fld (r.arg 0) 47 0) (r.arg 2).toNat host = (x, some bs) → x.setDue (.win (fld (r.arg 1) 7 0)) = false →
      x.fwWrites (writesOn (fld (r.arg 1) 7 0) ([(R.WIN_ADDR, 0)] ++ (quarters ((r.arg 2).toNat / 4) bs).map (fun v => (R.WIN_DATA, v)) ++ [(R.WIN_CTRL, 1)])) = (y, none) →
      (y.cchan c).run = some r → Gives (.window c host) s fun t => t.setDue (.win (fld (r.arg 1) 7 0)) = true
      ∧ y.ended t c r 0 [word y.adoptTide] ∧ Frame noRegs [] ((y.endCmd c r 0 [word y.adoptTide])) t)
  ∧ (∀ (s : State) (c : Fin 16) (host : Option (List Byte)) (r : CmdRun), s.carries c .window r false → r.replayed = false →
      bit (r.arg 1) 8 = true → s.setDue (.win (fld (r.arg 1) 7 0)) = true → Gives (.window c host) s fun t => t.cmds = s.cmds
      ∧ Frame noRegs [] s t)
  ∧ (∀ (s : State) (c : Fin 16) (r : CmdRun) (r1 : CmdRun) (x : State), s.carries c .weightSel r false →
      s.setDue .wtSel = false → s.fwWrite { r := R.WT_SEL, v := word (2 * fld (r.arg 0) 0 0 + 1) } = (x, none) →
      (x.cchan c).run = some r → r1 = { r with mark := x.adoptTide } → Gives (.weightSel c) s fun t => t.setDue .wtSel = true
      ∧ (t.cchan c).run = some { r1 with begun := true } ∧ Frame noRegs [] ((x.begins c r1)) t)
  ∧ (∀ (s : State) (c : Fin 16) (r : CmdRun), s.carries c .weightSel r true → s.setDue .wtSel = false →
      Gives (.weightSel c) s fun t => s.ended t c r 0 [word r.mark, s.rd R.WT_STAT]
      ∧ Frame noRegs [] ((s.endCmd c r 0 [word r.mark, s.rd R.WT_STAT])) t)
  ∧ (∀ (s : State) (c : Fin 16) (r : CmdRun) (g : Bool), s.carries c .weightSel r g → s.setDue .wtSel = true →
      g = true ∨ r.replayed = false → Gives (.weightSel c) s fun t => t.cmds = s.cmds ∧ Frame noRegs [] s t)
  ∧ (∀ (s : State) (c : Fin 16) (host : Option (List Byte)) (r : CmdRun) (x : State) (y : State) (bs : List Byte),
      s.carries c .destTable r false → s.fwFetch (fld (r.arg 0) 47 0) (64 * fld (r.arg 1) 14 8) host = (x, some bs) →
      x.setDue .dest = false → fld (r.arg 1) 5 0 + fld (r.arg 1) 14 8 ≤ 64 →
      x.fwWrites ((List.range (fld (r.arg 1) 14 8)).flatMap (fun i => destWrites (fld (r.arg 1) 5 0 + i) ((chunks 8 (fld (r.arg 1) 14 8) (bytesWords (8 * fld (r.arg 1) 14 8) bs)).getD i [])) ++ [{ r := R.DST_CTRL, v := 1 }]) = (y, none) →
      (y.cchan c).run = some r → Gives (.destTable c host) s fun t => t.setDue .dest = true
      ∧ y.ended t c r 0 [word y.adoptTide] ∧ Frame noRegs [] ((y.endCmd c r 0 [word y.adoptTide])) t)
  ∧ (∀ (s : State) (c : Fin 16) (host : Option (List Byte)) (r : CmdRun) (x : State) (bs : List Byte),
      s.carries c .destTable r false → r.replayed = false →
      s.fwFetch (fld (r.arg 0) 47 0) (64 * fld (r.arg 1) 14 8) host = (x, some bs) → x.setDue .dest = true →
      Gives (.destTable c host) s fun t => t.cmds = x.cmds ∧ Frame noRegs [] x t)

/-- The update commands move the update state from IDLE through RECEIVING, STAGED and PENDING and from TRIAL, with chunks
written to the inactive slot and its CRC checked; activation restarts management once its result is posted. The security
commands write the policy, the operator keys and the revocations, the firewall's rules and the tamper configuration. A
write of non-volatile memory that fails ends the command with E_NVM and no change. Where the rules leave a choice its
clauses rest on the model's, log entries 3, 13, 30, 52, 158, 159, 168, 205 and 275. -/
def Obligations.UpdateAndSecurityCommands : Prop :=
  (∀ (s : State) (c : Fin 16) (ok : Bool) (r : CmdRun) (x : State) (y : State), s.carries c .updateBegin r false →
      ok = true → r.replayed = false → s.updState = 0 ∨ s.updState = 2 →
      s.fwWrite { a := .secure, r := R.NVM_CMD, v := word (2 ^ (1 - s.flag.slot)) } = (x, none) →
      y = ((s.setFlag { s.flag with state := 0 }).fwWrite { a := .secure, r := R.NVM_CMD, v := word (2 ^ (1 - s.flag.slot)) }).1 →
      Gives (.updateBegin ⟨c, ok⟩) s fun t => t.nv.erasing = some (1 - s.flag.slot)
      ∧ t.nv.nvm = (s.setFlag { s.flag with state := 0 }).nv.nvm ∧ (t.cchan c).run = some { r with begun := true }
      ∧ Frame noRegs [] ((y.begins c r)) t)
  ∧ (∀ (s : State) (c : Fin 16) (ok : Bool) (r : CmdRun), s.carries c .updateBegin r true → ok = true → s.nv.erasing = none →
      Gives (.updateBegin ⟨c, ok⟩) s fun t => t.updState = 1
      ∧ ({ s with sup := { s.sup with recvLen := some (r.arg 0).toNat, recvGot := 0, recvVer := fld (r.arg 1) 31 0 } } : State).ended t c r 0 []
      ∧ Frame noRegs [] ((({ s with sup := { s.sup with recvLen := some (r.arg 0).toNat, recvGot := 0, recvVer := fld (r.arg 1) 31 0 } } : State).endCmd c r 0 [])) t)
  ∧ (∀ (s : State) (c : Fin 16) (ok : Bool) (r : CmdRun) (k : Nat), s.carries c .updateBegin r true → s.nv.erasing = some k →
      Gives (.updateBegin ⟨c, ok⟩) s fun t => Frame noRegs [] s t)
  ∧ (∀ (s : State) (c : Fin 16) (ok : Bool) (r : CmdRun), s.carries c .updateBegin r false → ok = false →
      r.replayed = false → s.updState = 0 ∨ s.updState = 2 → Gives (.updateBegin ⟨c, ok⟩) s fun t =>
      s.ended t c r Code.nvm.num [] ∧ Frame noRegs [] ((s.endCmd c r Code.nvm.num [])) t)
  ∧ (∀ (s : State) (c : Fin 16) (ok : Bool) (r : CmdRun), s.carries c .updateBegin r true → ok = false →
      s.nv.erasing = none → Gives (.updateBegin ⟨c, ok⟩) s fun t => s.ended t c r Code.nvm.num []
      ∧ Frame noRegs [] ((s.endCmd c r Code.nvm.num [])) t)
  ∧ (∀ (s : State) (c : Fin 16) (ok : Bool) (r : CmdRun), s.carries c .updateBegin r false → s.updState ≠ 0 →
      s.updState ≠ 2 → Gives (.updateBegin ⟨c, ok⟩) s fun t => s.ended t c r 4 [] ∧ Frame noRegs [] ((s.endCmd c r 4 [])) t)
  ∧ (∀ (s : State) (c : Fin 16) (ok : Bool) (host : Option (List Byte)) (r : CmdRun) (x : State) (y : State) (bs : List Byte) (len : Nat),
      s.carries c .updateChunk r false → ok = true → s.fwFetch (fld (r.arg 0) 47 0) (r.arg 1).toNat host = (x, some bs) →
      (x.cchan c).run = some r → x.sup.recvLen = some len → (r.arg 2).toNat = x.sup.recvGot →
      x.sup.recvGot + (r.arg 1).toNat ≤ len → y = x.nvmWrite (0x400000 * (1 - x.flag.slot) + x.sup.recvGot) bs →
      Gives (.updateChunk ⟨c, ok⟩ host) s fun t => t.nv = y.nv ∧ t.sup.recvGot = x.sup.recvGot + (r.arg 1).toNat
      ∧ ({ y with sup := { y.sup with recvGot := x.sup.recvGot + (r.arg 1).toNat } } : State).ended t c r 0 [word (x.sup.recvGot + (r.arg 1).toNat)]
      ∧ Frame noRegs [] ((({ y with sup := { y.sup with recvGot := x.sup.recvGot + (r.arg 1).toNat } } : State).endCmd c r 0 [word (x.sup.recvGot + (r.arg 1).toNat)])) t)
  ∧ (∀ (s : State) (c : Fin 16) (ok : Bool) (host : Option (List Byte)) (r : CmdRun) (x : State) (bs : List Byte) (len : Nat),
      s.carries c .updateChunk r false → ok = false → s.fwFetch (fld (r.arg 0) 47 0) (r.arg 1).toNat host = (x, some bs) →
      (x.cchan c).run = some r → x.sup.recvLen = some len → (r.arg 2).toNat = x.sup.recvGot →
      x.sup.recvGot + (r.arg 1).toNat ≤ len → Gives (.updateChunk ⟨c, ok⟩ host) s fun t => x.ended t c r Code.nvm.num []
      ∧ Frame noRegs [] ((x.endCmd c r Code.nvm.num [])) t)
  ∧ (∀ (s : State) (c : Fin 16) (ok : Bool) (host : Option (List Byte)) (r : CmdRun) (x : State) (bs : List Byte) (len : Nat),
      s.carries c .updateChunk r false → s.fwFetch (fld (r.arg 0) 47 0) (r.arg 1).toNat host = (x, some bs) →
      (x.cchan c).run = some r → x.sup.recvLen = some len →
      (r.arg 2).toNat ≠ x.sup.recvGot ∨ len < x.sup.recvGot + (r.arg 1).toNat → Gives (.updateChunk ⟨c, ok⟩ host) s fun t =>
      x.ended t c r 0x21 [] ∧ Frame noRegs [] ((x.endCmd c r 0x21 [])) t)
  ∧ (∀ (s : State) (c : Fin 16) (ok : Bool) (host : Option (List Byte)) (r : CmdRun) (x : State) (bs : List Byte),
      s.carries c .updateChunk r false → s.fwFetch (fld (r.arg 0) 47 0) (r.arg 1).toNat host = (x, some bs) →
      (x.cchan c).run = some r → x.sup.recvLen = none → Gives (.updateChunk ⟨c, ok⟩ host) s fun t => x.ended t c r 4 []
      ∧ Frame noRegs [] ((x.endCmd c r 4 [])) t)
  ∧ (∀ (s : State) (c : Fin 16) (ok : Bool) (r : CmdRun) (len : Nat) (crc : Nat) (y : State),
      s.carries c .updateEnd r false → ok = true → s.sup.recvLen = some len →
      crc = crc32c (s.nv.nvm.bytes (0x400000 * (1 - s.flag.slot)) s.sup.recvGot) →
      y = { s with sup := { s.sup with recvLen := none } } → s.sup.recvGot = len → crc = (r.arg 0).toNat →
      Gives (.updateEnd ⟨c, ok⟩) s fun t => t.sup.recvLen = none
      ∧ t.nv = (s.setFlag { s.flag with state := 2, inactive := s.sup.recvVer, len := len, crc := crc }).nv
      ∧ (y.setFlag { s.flag with state := 2, inactive := s.sup.recvVer, len := len, crc := crc }).ended t c r 0 []
      ∧ Frame noRegs [] (((y.setFlag { s.flag with state := 2, inactive := s.sup.recvVer, len := len, crc := crc }).endCmd c r 0 [])) t)
  ∧ (∀ (s : State) (c : Fin 16) (ok : Bool) (r : CmdRun) (len : Nat) (crc : Nat) (y : State),
      s.carries c .updateEnd r false → ok = true → s.sup.recvLen = some len →
      crc = crc32c (s.nv.nvm.bytes (0x400000 * (1 - s.flag.slot)) s.sup.recvGot) →
      y = { s with sup := { s.sup with recvLen := none } } → s.sup.recvGot ≠ len ∨ crc ≠ (r.arg 0).toNat →
      Gives (.updateEnd ⟨c, ok⟩) s fun t => t.sup = { s.sup with recvLen := none } ∧ y.ended t c r 0x23 [word crc]
      ∧ Frame noRegs [] ((y.endCmd c r 0x23 [word crc])) t)
  ∧ (∀ (s : State) (c : Fin 16) (ok : Bool) (r : CmdRun), s.carries c .updateEnd r false → s.sup.recvLen = none →
      r.replayed = false → Gives (.updateEnd ⟨c, ok⟩) s fun t => s.ended t c r 4 []
      ∧ Frame noRegs [] ((s.endCmd c r 4 [])) t)
  ∧ (∀ (s : State) (c : Fin 16) (ok : Bool) (r : CmdRun) (len : Nat), s.carries c .updateEnd r false → ok = false →
      s.sup.recvLen = some len → Gives (.updateEnd ⟨c, ok⟩) s fun t => s.ended t c r Code.nvm.num []
      ∧ Frame noRegs [] ((s.endCmd c r Code.nvm.num [])) t)
  ∧ (∀ (s : State) (c : Fin 16) (ok : Bool) (r : CmdRun), s.carries c .updateActivate r false → ok = true → s.updState = 2 →
      s.cqOn c = true → s.cqRoom c = false → Gives (.updateActivate ⟨c, ok⟩) s fun t =>
      t.nv = (s.setFlag { s.flag with state := 3 }).nv ∧ (s.setFlag { s.flag with state := 3 }).ended t c r 0 []
      ∧ Frame noRegs [] (((s.setFlag { s.flag with state := 3 }).endCmd c r 0 [])) t)
  ∧ (∀ (s : State) (c : Fin 16) (ok : Bool) (r : CmdRun), s.carries c .updateActivate r false → ok = true → s.updState = 2 →
      Gives (.updateActivate ⟨c, ok⟩) s fun t =>
      Frame noRegs [] (((s.setFlag { s.flag with state := 3 }).endCmd c r 0 [])) t)
  ∧ (∀ (s : State) (c : Fin 16) (ok : Bool) (r : CmdRun), s.carries c .updateActivate r false → s.updState ≠ 2 →
      Gives (.updateActivate ⟨c, ok⟩) s fun t => s.ended t c r 4 [] ∧ Frame noRegs [] ((s.endCmd c r 4 [])) t)
  ∧ (∀ (s : State) (c : Fin 16) (ok : Bool) (r : CmdRun), s.carries c .updateActivate r false → ok = false → s.updState = 2 →
      Gives (.updateActivate ⟨c, ok⟩) s fun t => s.ended t c r Code.nvm.num []
      ∧ Frame noRegs [] ((s.endCmd c r Code.nvm.num [])) t)
  ∧ (∀ (s : State) (c : Fin 16) (ok : Bool) (r : CmdRun) (y : State), s.carries c .updateConfirm r false → ok = true →
      s.updState = 4 → y = s.setFlag { s.flag with state := 0, boots := 0 } → Gives (.updateConfirm ⟨c, ok⟩) s fun t =>
      t.nv = (s.setFlag { s.flag with state := 0, boots := 0 }).nv ∧ t.sup.confirmEnd = none
      ∧ ({ y with sup := { y.sup with confirmEnd := none } } : State).ended t c r 0 []
      ∧ Frame noRegs [] ((({ y with sup := { y.sup with confirmEnd := none } } : State).endCmd c r 0 [])) t)
  ∧ (∀ (s : State) (c : Fin 16) (ok : Bool) (r : CmdRun), s.carries c .updateConfirm r false → ok = false → s.updState = 4 →
      Gives (.updateConfirm ⟨c, ok⟩) s fun t => s.ended t c r Code.nvm.num []
      ∧ Frame noRegs [] ((s.endCmd c r Code.nvm.num [])) t)
  ∧ (∀ (s : State) (c : Fin 16) (ok : Bool) (r : CmdRun), s.carries c .updateConfirm r false → s.updState ≠ 4 →
      r.replayed = false → Gives (.updateConfirm ⟨c, ok⟩) s fun t => s.ended t c r 4 []
      ∧ Frame noRegs [] ((s.endCmd c r 4 [])) t)
  ∧ (∀ (s : State) (c : Fin 16) (r : CmdRun), s.carries c .updateStatus r false → Gives (.updateStatus c) s fun t =>
      s.ended t c r 0 [word s.updState, s.updVer, word s.flag.boots, word s.confirmLeft]
      ∧ Frame noRegs [] ((s.endCmd c r 0 [word s.updState, s.updVer, word s.flag.boots, word s.confirmLeft])) t)
  ∧ (∀ (s : State) (c : Fin 16) (r : CmdRun), s.carries c .updateAbort r false → s.updState = 1 →
      Gives (.updateAbort c) s fun t => t.sup.recvLen = none
      ∧ ({ s with sup := { s.sup with recvLen := none } } : State).ended t c r 0 []
      ∧ Frame noRegs [] ((({ s with sup := { s.sup with recvLen := none } } : State).endCmd c r 0 [])) t)
  ∧ (∀ (s : State) (c : Fin 16) (r : CmdRun), s.carries c .updateAbort r false → s.updState = 2 →
      Gives (.updateAbort c) s fun t => t.nv = (s.setFlag { s.flag with state := 0 }).nv
      ∧ (s.setFlag { s.flag with state := 0 }).ended t c r 0 []
      ∧ Frame noRegs [] (((s.setFlag { s.flag with state := 0 }).endCmd c r 0 [])) t)
  ∧ (∀ (s : State) (c : Fin 16) (r : CmdRun), s.carries c .updateAbort r false → s.updState ≠ 1 → s.updState ≠ 2 →
      s.updState ≠ 0 ∨ r.replayed = false → Gives (.updateAbort c) s fun t => s.ended t c r 4 []
      ∧ Frame noRegs [] ((s.endCmd c r 4 [])) t)
  ∧ (∀ (s : State) (c : Fin 16) (host : Option (List Byte)) (r : CmdRun) (x : State) (y : State) (bs : List Byte),
      s.carries c .fwRules r false → r.replayed = false →
      s.fwFetch (fld (r.arg 0) 47 0) (16 * fld (r.arg 1) 13 8) host = (x, some bs) →
      x.fwWrites (fwRuleWrites (fld (r.arg 1) 5 0) (bytesWords (2 * fld (r.arg 1) 13 8) bs) ++ [{ a := .secure, r := R.FW_CTRL, v := word (2 * fld (r.arg 1) 33 33 + fld (r.arg 1) 32 32) }]) = (y, none) →
      (y.cchan c).run = some r → Gives (.fwRules c host) s fun t => (t.cchan c).run = some { r with begun := true }
      ∧ Frame noRegs [] ((y.begins c r)) t)
  ∧ (∀ (s : State) (c : Fin 16) (host : Option (List Byte)) (r : CmdRun), s.carries c .fwRules r true → s.fenceDone = true →
      Gives (.fwRules c host) s fun t => s.ended t c r 0 [s.rd R.FW_GEN]
      ∧ Frame noRegs [] ((s.endCmd c r 0 [s.rd R.FW_GEN])) t)
  ∧ (∀ (s : State) (c : Fin 16) (host : Option (List Byte)) (r : CmdRun), s.carries c .fwRules r true → s.fenceDone = false →
      Gives (.fwRules c host) s fun t => Frame noRegs [] s t)
  ∧ (∀ (s : State) (c : Fin 16) (ok : Bool) (r : CmdRun), s.carries c .sigPolicy r false → ok = true → r.replayed = false →
      Gives (.sigPolicy ⟨c, ok⟩) s fun t =>
      t.nv = (s.nvmWrite (0xF80080 + 64 * (1 - s.policyPlace.1)) (sealCopy [word (at_ 32 ((s.policyPlace.2 + 1) % 2 ^ 32)), word (fld (r.arg 0) 0 0)])).nv
      ∧ (s.nvmWrite (0xF80080 + 64 * (1 - s.policyPlace.1)) (sealCopy [word (at_ 32 ((s.policyPlace.2 + 1) % 2 ^ 32)), word (fld (r.arg 0) 0 0)])).ended t c r 0 []
      ∧ Frame noRegs [] (((s.nvmWrite (0xF80080 + 64 * (1 - s.policyPlace.1)) (sealCopy [word (at_ 32 ((s.policyPlace.2 + 1) % 2 ^ 32)), word (fld (r.arg 0) 0 0)])).endCmd c r 0 [])) t)
  ∧ (∀ (s : State) (c : Fin 16) (ok : Bool) (r : CmdRun), s.carries c .sigPolicy r false → ok = false → r.replayed = false →
      Gives (.sigPolicy ⟨c, ok⟩) s fun t => s.ended t c r Code.nvm.num []
      ∧ Frame noRegs [] ((s.endCmd c r Code.nvm.num [])) t)
  ∧ (∀ (s : State) (c : Fin 16) (ok : Bool) (host : Option (List Byte)) (r : CmdRun) (x : State) (bs : List Byte),
      s.carries c .opkeySet r false → ok = true → r.replayed = false →
      s.fwFetch (fld (r.arg 0) 47 0) 104 host = (x, some bs) → (x.cchan c).run = some r → 1 ≤ fld (r.arg 1) 7 0 →
      fld (r.arg 1) 7 0 ≤ 15 → ((bs.drop 97).any fun b => b != 0) = false → (bs.getD 96 0).toNat < 16 →
      onCurve (beNat (bs.take 48)) (beNat ((bs.drop 48).take 48)) = true → Gives (.opkeySet ⟨c, ok⟩ host) s fun t =>
      t.nv = (x.nvmWrite (opKeyPlace (fld (r.arg 1) 7 0)) (bs.take 104)).nv
      ∧ (x.nvmWrite (opKeyPlace (fld (r.arg 1) 7 0)) (bs.take 104)).ended t c r 0 []
      ∧ Frame noRegs [] (((x.nvmWrite (opKeyPlace (fld (r.arg 1) 7 0)) (bs.take 104)).endCmd c r 0 [])) t)
  ∧ (∀ (s : State) (c : Fin 16) (ok : Bool) (host : Option (List Byte)) (r : CmdRun) (x : State) (bs : List Byte),
      s.carries c .opkeySet r false → ok = false → r.replayed = false →
      s.fwFetch (fld (r.arg 0) 47 0) 104 host = (x, some bs) → (x.cchan c).run = some r → 1 ≤ fld (r.arg 1) 7 0 →
      fld (r.arg 1) 7 0 ≤ 15 → ((bs.drop 97).any fun b => b != 0) = false → (bs.getD 96 0).toNat < 16 →
      onCurve (beNat (bs.take 48)) (beNat ((bs.drop 48).take 48)) = true → Gives (.opkeySet ⟨c, ok⟩ host) s fun t =>
      x.ended t c r Code.nvm.num [] ∧ Frame noRegs [] ((x.endCmd c r Code.nvm.num [])) t)
  ∧ (∀ (s : State) (c : Fin 16) (ok : Bool) (host : Option (List Byte)) (r : CmdRun) (x : State) (bs : List Byte),
      s.carries c .opkeySet r false → s.fwFetch (fld (r.arg 0) 47 0) 104 host = (x, some bs) → (x.cchan c).run = some r →
      fld (r.arg 1) 7 0 = 0 ∨ 15 < fld (r.arg 1) 7 0 → Gives (.opkeySet ⟨c, ok⟩ host) s fun t => x.ended t c r 2 []
      ∧ Frame noRegs [] ((x.endCmd c r 2 [])) t)
  ∧ (∀ (s : State) (c : Fin 16) (ok : Bool) (host : Option (List Byte)) (r : CmdRun) (x : State) (bs : List Byte),
      s.carries c .opkeySet r false → s.fwFetch (fld (r.arg 0) 47 0) 104 host = (x, some bs) → (x.cchan c).run = some r →
      1 ≤ fld (r.arg 1) 7 0 → fld (r.arg 1) 7 0 ≤ 15 →
      ((bs.drop 97).any fun b => b != 0) = true ∨ 16 ≤ (bs.getD 96 0).toNat → Gives (.opkeySet ⟨c, ok⟩ host) s fun t =>
      x.ended t c r 0x21 [] ∧ Frame noRegs [] ((x.endCmd c r 0x21 [])) t)
  ∧ (∀ (s : State) (c : Fin 16) (ok : Bool) (host : Option (List Byte)) (r : CmdRun) (x : State) (bs : List Byte),
      s.carries c .opkeySet r false → s.fwFetch (fld (r.arg 0) 47 0) 104 host = (x, some bs) → (x.cchan c).run = some r →
      1 ≤ fld (r.arg 1) 7 0 → fld (r.arg 1) 7 0 ≤ 15 → ((bs.drop 97).any fun b => b != 0) = false →
      (bs.getD 96 0).toNat < 16 → onCurve (beNat (bs.take 48)) (beNat ((bs.drop 48).take 48)) = false →
      Gives (.opkeySet ⟨c, ok⟩ host) s fun t => x.ended t c r Code.value.num []
      ∧ Frame noRegs [] ((x.endCmd c r Code.value.num [])) t)
  ∧ (∀ (s : State) (c : Fin 16) (ok : Bool) (r : CmdRun) (y : State), s.carries c .keyRevoke r false → ok = true →
      s.nv.otp.revoked.getLsbD (fld (r.arg 0) 7 0) = false →
      y = { s with nv := { s.nv with otp := { s.nv.otp with revoked := s.nv.otp.revoked ||| BitVec.ofNat 8 (2 ^ fld (r.arg 0) 7 0) } } } →
      Gives (.keyRevoke ⟨c, ok⟩) s fun t => t.nv = y.nv ∧ y.ended t c r 0 [] ∧ Frame noRegs [] ((y.endCmd c r 0 [])) t)
  ∧ (∀ (s : State) (c : Fin 16) (ok : Bool) (r : CmdRun), s.carries c .keyRevoke r false → ok = false →
      s.nv.otp.revoked.getLsbD (fld (r.arg 0) 7 0) = false → Gives (.keyRevoke ⟨c, ok⟩) s fun t =>
      s.ended t c r Code.nvm.num [] ∧ Frame noRegs [] ((s.endCmd c r Code.nvm.num [])) t)
  ∧ (∀ (s : State) (c : Fin 16) (ok : Bool) (r : CmdRun), s.carries c .keyRevoke r false →
      s.nv.otp.revoked.getLsbD (fld (r.arg 0) 7 0) = true → Gives (.keyRevoke ⟨c, ok⟩) s fun t =>
      s.ended t c r (if r.replayed then 0 else 4) [] ∧ Frame noRegs [] ((s.endCmd c r (if r.replayed then 0 else 4) [])) t)
  ∧ (∀ (s : State) (c : Fin 16) (r : CmdRun) (x : State), s.carries c .tamperCfg r false →
      s.fwWrite { a := .secure, r := R.TMP_CFG, v := r.arg 0 } = (x, none) → Gives (.tamperCfg c) s fun t =>
      t.rd R.TMP_CFG = x.rd R.TMP_CFG ∧ x.ended t c r 0 [] ∧ Frame noRegs [] ((x.endCmd c r 0 [])) t)
  ∧ (∀ (s : State) (c : Fin 16) (r : CmdRun) (x : State) (z : State) (j : Reject), s.carries c .tamperCfg r false →
      s.fwWrite { a := .secure, r := R.TMP_CFG, v := r.arg 0 } = (x, some j) → z = s.recordRejects [j] →
      Gives (.tamperCfg c) s fun t => t.rd R.LAST_REJECT = z.rd R.LAST_REJECT ∧ z.ended t c r j.code.num [z.rd R.LAST_REJECT]
      ∧ Frame noRegs [] ((z.endCmd c r j.code.num [z.rd R.LAST_REJECT])) t)

/-- A channel that is idle, enabled, served and whose turn it is takes the entry at HEAD: an entry that fails a check ends
with the check's code, one that passes is journaled and runs, a replayed one whose result the journal holds is answered
from it, and an entry whose read fails stays, to be read again. A command's row does nothing on a channel that does not
run it, and in tamper-hold ends it with E_TAMPER unless it is served there. A held result is posted once its ring has
space. A command that waits past its bound, an idle session, a challenge and a lockout end at their times. Where the
rules leave a choice its clauses rest on the model's, log entries 3, 158, 159, 160, 171, 172, 176, 177, 178, 180 and 212.
-/
def Obligations.ChannelsTakeCheckAndPost : Prop :=
  (∀ (s : State) (i : Instr) (c : Fin 16) (host : Option (List Byte)) (ok : Bool) (y : Yel),
      (i, y) ∈ ([(.nop c, .nop), (.devInfo c, .devInfo), (.status c, .status), (.timeRead c, .timeRead), (.sessionOpen c, .sessionOpen), (.sessionAuth c host, .sessionAuth), (.sessionClose c, .sessionClose), (.notifySet c, .notifySet), (.pwrRun c, .pwrRun), (.pwrIdle c, .pwrIdle), (.pwrStandby c, .pwrStandby), (.imageLoad c host, .imageLoad), (.imageArm c, .imageArm), (.imageHalt c, .imageHalt), (.imageCancel c, .imageCancel), (.imageClear c, .imageClear), (.delayModels c host, .delayModels), (.gains c host, .gains), (.window c host, .window), (.weightSel c, .weightSel), (.destTable c host, .destTable), (.timeStepArm c, .timeStepArm), (.refSelect c, .refSelect), (.tb3Set c, .tb3Set), (.heapRetrain c, .heapRetrain), (.linkRetrain c, .linkRetrain), (.panPreempt c, .panPreempt), (.panResume c, .panResume), (.checkpoint c, .checkpoint), (.updateBegin ⟨c, ok⟩, .updateBegin), (.updateChunk ⟨c, ok⟩ host, .updateChunk), (.updateEnd ⟨c, ok⟩, .updateEnd), (.updateActivate ⟨c, ok⟩, .updateActivate), (.updateConfirm ⟨c, ok⟩, .updateConfirm), (.updateStatus c, .updateStatus), (.updateAbort c, .updateAbort), (.fwRules c host, .fwRules), (.sigPolicy ⟨c, ok⟩, .sigPolicy), (.opkeySet ⟨c, ok⟩ host, .opkeySet), (.keyRevoke ⟨c, ok⟩, .keyRevoke), (.tamperCfg c, .tamperCfg)] : List (Instr × Yel)) →
      s.runs c y = false → Gives i s fun t => Frame noRegs [] s t)
  ∧ (∀ (s : State) (i : Instr) (c : Fin 16) (host : Option (List Byte)) (ok : Bool) (y : Yel) (r : CmdRun),
      (i, y) ∈ ([(.nop c, .nop), (.devInfo c, .devInfo), (.status c, .status), (.timeRead c, .timeRead), (.sessionOpen c, .sessionOpen), (.sessionAuth c host, .sessionAuth), (.sessionClose c, .sessionClose), (.notifySet c, .notifySet), (.pwrRun c, .pwrRun), (.pwrIdle c, .pwrIdle), (.pwrStandby c, .pwrStandby), (.imageLoad c host, .imageLoad), (.imageArm c, .imageArm), (.imageHalt c, .imageHalt), (.imageCancel c, .imageCancel), (.imageClear c, .imageClear), (.delayModels c host, .delayModels), (.gains c host, .gains), (.window c host, .window), (.weightSel c, .weightSel), (.destTable c host, .destTable), (.timeStepArm c, .timeStepArm), (.refSelect c, .refSelect), (.tb3Set c, .tb3Set), (.heapRetrain c, .heapRetrain), (.linkRetrain c, .linkRetrain), (.panPreempt c, .panPreempt), (.panResume c, .panResume), (.checkpoint c, .checkpoint), (.updateBegin ⟨c, ok⟩, .updateBegin), (.updateChunk ⟨c, ok⟩ host, .updateChunk), (.updateEnd ⟨c, ok⟩, .updateEnd), (.updateActivate ⟨c, ok⟩, .updateActivate), (.updateConfirm ⟨c, ok⟩, .updateConfirm), (.updateStatus c, .updateStatus), (.updateAbort c, .updateAbort), (.fwRules c host, .fwRules), (.sigPolicy ⟨c, ok⟩, .sigPolicy), (.opkeySet ⟨c, ok⟩ host, .opkeySet), (.keyRevoke ⟨c, ok⟩, .keyRevoke), (.tamperCfg c, .tamperCfg)] : List (Instr × Yel)) →
      s.runs c y = true → s.tam.hold = true → y.inHold = false → (s.cchan c).run = some r → Gives i s fun t =>
      s.ended t c r 0x24 [] ∧ Frame noRegs [] ((s.endCmd c r 0x24 [])) t)
  ∧ (∀ (s : State) (c : Fin 16) (host : Option (List Byte)) (r : CmdRun) (x : State) (u : State) (bs : List Byte),
      s.mayTake c = true → s.fwFetch ((s.ring (s.cqCmd c)).slot (s.ring (s.cqCmd c)).head) 64 host = (x, some bs) →
      r = { ring := s.cqCmd c, idx := (s.ring (s.cqCmd c)).head, words := bytesWords 8 bs, taken := s.time.total, replayed := (s.cchan c).replay } →
      u = ((x.served16 c).setCchan c { x.cchan c with run := some r, replay := false, unseen := false }).touchSession c r →
      u.journaled c r = none → u.preCheck c r = none → Gives (.commandTakeup c host) s fun t => (t.cchan c).run = some r
      ∧ (t.cchan c).replay = false ∧ t.cmds.last = c
      ∧ ((r.row.any fun w => w.rights != .none) = true → pget t.cmds.journal c = some { idx := r.idx, tag := r.tag, opcode := r.opcode, digest := leBytes 48 (sha384 r.bytes), result := none })
      ∧ (∀ j : Fin 16, j ≠ c → t.cchan j = x.cchan j)
      ∧ Frame noRegs [] ((if (r.row.any fun w => w.rights != .none) = true then u.journal c r else u)) t)
  ∧ (∀ (s : State) (c : Fin 16) (host : Option (List Byte)) (r : CmdRun) (x : State) (u : State) (bs : List Byte) (k : Code),
      s.mayTake c = true → s.fwFetch ((s.ring (s.cqCmd c)).slot (s.ring (s.cqCmd c)).head) 64 host = (x, some bs) →
      r = { ring := s.cqCmd c, idx := (s.ring (s.cqCmd c)).head, words := bytesWords 8 bs, taken := s.time.total, replayed := (s.cchan c).replay } →
      u = ((x.served16 c).setCchan c { x.cchan c with run := some r, replay := false, unseen := false }).touchSession c r →
      u.journaled c r = none → u.preCheck c r = some k → Gives (.commandTakeup c host) s fun t => u.ended t c r k.num []
      ∧ Frame noRegs [] ((u.endCmd c r k.num [])) t)
  ∧ (∀ (s : State) (c : Fin 16) (host : Option (List Byte)) (r : CmdRun) (x : State) (u : State) (bs : List Byte) (code : Nat) (rs : List Word),
      s.mayTake c = true → s.fwFetch ((s.ring (s.cqCmd c)).slot (s.ring (s.cqCmd c)).head) 64 host = (x, some bs) →
      r = { ring := s.cqCmd c, idx := (s.ring (s.cqCmd c)).head, words := bytesWords 8 bs, taken := s.time.total, replayed := (s.cchan c).replay } →
      u = ((x.served16 c).setCchan c { x.cchan c with run := some r, replay := false, unseen := false }).touchSession c r →
      u.journaled c r = some (code, rs) → r.opcode ≠ 0x0603 → Gives (.commandTakeup c host) s fun t =>
      (u.cqRoom c = false → (t.cchan c).run = some { r with begun := true, result := some (code, rs), full := u.cqFull c })
      ∧ (u.cqRoom c = true → (t.cchan c).run = none ∧ (t.ring r.ring).head = (r.idx + 1) % 2 ^ 32)
      ∧ (u.cqRoom c = true → (pget t.net.jobs u.net.nextJob).map (fun j => (j.ring, j.words.take 2)) = some (u.cqEvt c, (u.resultEntry c r code rs).take 2))
      ∧ Frame noRegs [] (((u.setCchan c { u.cchan c with run := some { r with begun := true, result := some (code, rs) } }).tryPost c)) t)
  ∧ (∀ (s : State) (c : Fin 16) (host : Option (List Byte)) (x : State), s.mayTake c = true →
      s.fwFetch ((s.ring (s.cqCmd c)).slot (s.ring (s.cqCmd c)).head) 64 host = (x, none) →
      Gives (.commandTakeup c host) s fun t => (t.cchan c).run = none ∧ (t.cchan c).unseen = true
      ∧ Frame noRegs [] (((x.served16 c).setCchan c { x.cchan c with unseen := true })) t)
  ∧ (∀ (s : State) (c : Fin 16) (host : Option (List Byte)), s.mayTake c = false → Gives (.commandTakeup c host) s fun t =>
      Frame noRegs [] s t)
  ∧ (∀ (s : State) (c : Fin 16) (host : Option (List Byte)) (r : CmdRun) (x : State) (u : State) (bs : List Byte),
      s.mayRetry c = true → s.fwFetch ((s.ring (s.cqCmd c)).slot (s.ring (s.cqCmd c)).head) 64 host = (x, some bs) →
      r = { ring := s.cqCmd c, idx := (s.ring (s.cqCmd c)).head, words := bytesWords 8 bs, taken := s.time.total, replayed := (s.cchan c).replay } →
      u = ((x.served16 c).setCchan c { x.cchan c with run := some r, replay := false, unseen := false }).touchSession c r →
      u.journaled c r = none → u.preCheck c r = none → Gives (.commandEntryRetry c host) s fun t => (t.cchan c).run = some r
      ∧ (t.cchan c).replay = false ∧ t.cmds.last = c
      ∧ ((r.row.any fun w => w.rights != .none) = true → pget t.cmds.journal c = some { idx := r.idx, tag := r.tag, opcode := r.opcode, digest := leBytes 48 (sha384 r.bytes), result := none })
      ∧ (∀ j : Fin 16, j ≠ c → t.cchan j = x.cchan j)
      ∧ Frame noRegs [] ((if (r.row.any fun w => w.rights != .none) = true then u.journal c r else u)) t)
  ∧ (∀ (s : State) (c : Fin 16) (host : Option (List Byte)) (r : CmdRun) (x : State) (u : State) (bs : List Byte) (k : Code),
      s.mayRetry c = true → s.fwFetch ((s.ring (s.cqCmd c)).slot (s.ring (s.cqCmd c)).head) 64 host = (x, some bs) →
      r = { ring := s.cqCmd c, idx := (s.ring (s.cqCmd c)).head, words := bytesWords 8 bs, taken := s.time.total, replayed := (s.cchan c).replay } →
      u = ((x.served16 c).setCchan c { x.cchan c with run := some r, replay := false, unseen := false }).touchSession c r →
      u.journaled c r = none → u.preCheck c r = some k → Gives (.commandEntryRetry c host) s fun t => u.ended t c r k.num []
      ∧ Frame noRegs [] ((u.endCmd c r k.num [])) t)
  ∧ (∀ (s : State) (c : Fin 16) (host : Option (List Byte)) (r : CmdRun) (x : State) (u : State) (bs : List Byte) (code : Nat) (rs : List Word),
      s.mayRetry c = true → s.fwFetch ((s.ring (s.cqCmd c)).slot (s.ring (s.cqCmd c)).head) 64 host = (x, some bs) →
      r = { ring := s.cqCmd c, idx := (s.ring (s.cqCmd c)).head, words := bytesWords 8 bs, taken := s.time.total, replayed := (s.cchan c).replay } →
      u = ((x.served16 c).setCchan c { x.cchan c with run := some r, replay := false, unseen := false }).touchSession c r →
      u.journaled c r = some (code, rs) → r.opcode ≠ 0x0603 → Gives (.commandEntryRetry c host) s fun t =>
      (u.cqRoom c = false → (t.cchan c).run = some { r with begun := true, result := some (code, rs), full := u.cqFull c })
      ∧ (u.cqRoom c = true → (t.cchan c).run = none ∧ (t.ring r.ring).head = (r.idx + 1) % 2 ^ 32)
      ∧ (u.cqRoom c = true → (pget t.net.jobs u.net.nextJob).map (fun j => (j.ring, j.words.take 2)) = some (u.cqEvt c, (u.resultEntry c r code rs).take 2))
      ∧ Frame noRegs [] (((u.setCchan c { u.cchan c with run := some { r with begun := true, result := some (code, rs) } }).tryPost c)) t)
  ∧ (∀ (s : State) (c : Fin 16) (host : Option (List Byte)) (x : State), s.mayRetry c = true →
      s.fwFetch ((s.ring (s.cqCmd c)).slot (s.ring (s.cqCmd c)).head) 64 host = (x, none) →
      Gives (.commandEntryRetry c host) s fun t => (t.cchan c).run = none ∧ (t.cchan c).unseen = true
      ∧ Frame noRegs [] (((x.served16 c).setCchan c { x.cchan c with unseen := true })) t)
  ∧ (∀ (s : State) (c : Fin 16) (host : Option (List Byte)), s.mayRetry c = false →
      Gives (.commandEntryRetry c host) s fun t => Frame noRegs [] s t)
  ∧ (∀ (s : State) (c : Fin 16) (r : CmdRun) (code : Nat) (rs : List Word), (s.cchan c).run = some r →
      r.result = some (code, rs) → s.cqOn c = true → s.cqRoom c = true → r.opcode ≠ 0x0603 → Gives (.resultPost c) s fun t =>
      (t.cchan c).run = none ∧ (t.cchan c).lost = false ∧ (t.ring r.ring).head = (r.idx + 1) % 2 ^ 32
      ∧ fld (t.rd R.CQ_CNT 0 c) 63 32 = min (fld (s.rd R.CQ_CNT 0 c) 63 32 + 1) (2 ^ 32 - 1)
      ∧ (pget t.net.jobs s.net.nextJob).map (fun j => (j.ring, [j.words.getD 0 0, j.words.getD 1 0, j.words.getD 6 0] ++ (j.words.drop 2).take (min 4 rs.length))) = some (s.cqEvt c, s.resultEntry c r code rs)
      ∧ Frame (regsIn (R.CQ_CNT.key 0 c :: decodeKeys)) [.cmds, .net, .xbar, .free] s t)
  ∧ (∀ (s : State) (c : Fin 16) (r : CmdRun), (s.cchan c).run = some r → r.result.isSome = true → s.cqOn c = false →
      Gives (.resultPost c) s fun t => (t.cchan c).run = none ∧ (t.ring r.ring).head = (r.idx + 1) % 2 ^ 32
      ∧ pget t.cmds.session c = none ∧ Frame noRegs [.cmds, .net] s t)
  ∧ (∀ (s : State) (c : Fin 16) (r : CmdRun), (s.cchan c).run = some r → r.result.isSome = true → s.cqOn c = true →
      s.cqFull c = true → r.full = false → Gives (.resultPost c) s fun t => (t.cchan c).run = some { r with full := true }
      ∧ t.rdf R.QM_ERR 0 63 48 = min (s.rdf R.QM_ERR 0 63 48 + 1) 65535 ∧ bit (t.hdr 0x58 hEvt) 0 = true
      ∧ Frame noRegs [] (((s.setCchan c { s.cchan c with run := some { r with full := true } }).ringFull (s.cqEvt c))) t)
  ∧ (∀ (s : State) (c : Fin 16),
      (s.cchan c).run = none ∨ ((s.cchan c).run.any fun r => r.result.isNone) = true ∨ (s.cqOn c = true ∧ s.cqRoom c = false ∧ s.cqFull c = false) →
      Gives (.resultPost c) s fun t => Frame noRegs [] s t)
  ∧ (∀ (s : State) (c : Fin 16) (r : CmdRun) (row : YelRow) (x : State), (s.cchan c).run = some r → r.row = some row →
      row.cmd.waits = true → r.result = none → s.supervised = true → x = s.waitTo (s.deadline r row) →
      (x.cchan c).run = some r → Gives (.commandTimeout c) s fun t => s.deadline r row ≤ t.time.total
      ∧ x.ended t c r 0x25 (x.cmdStatus r row.cmd) ∧ Frame noRegs [] ((x.endCmd c r 0x25 (x.cmdStatus r row.cmd))) t)
  ∧ (∀ (s : State) (c : Fin 16),
      s.supervised = false ∨ ((s.cchan c).run.any fun r => r.result.isNone && r.row.any fun w => w.cmd.waits) = false →
      Gives (.commandTimeout c) s fun t => Frame noRegs [] s t)
  ∧ (∀ (s : State) (c : Fin 16) (z : Session) (x : State), pget s.cmds.session c = some z → s.sessionBusy c = false →
      x = s.waitTo (z.last + s.rdf R.SESSION_TMO 0 15 0 * sclkSec) → Gives (.sessionTimeout c) s fun t =>
      pget t.cmds.session c = none ∧ (x.sup.ready = false → t.cmds.kept = x.cmds.kept ++ [(0x8007, [1])])
      ∧ Frame noRegs [] ((x.endSession c 1)) t)
  ∧ (∀ (s : State) (c : Fin 16), pget s.cmds.session c = none ∨ s.sessionBusy c = true → Gives (.sessionTimeout c) s fun t =>
      Frame noRegs [] s t)
  ∧ (∀ (s : State) (c : Fin 16) (z : Session) (x : State), pget s.cmds.session c = some z → z.challenge.isSome = true →
      x = s.waitTo (z.since + 10 * sclkSec) → Gives (.challengeExpiry c) s fun t =>
      pget t.cmds.session c = some { z with challenge := none }
      ∧ Frame noRegs [] (({ x with cmds := { x.cmds with session := pset x.cmds.session c (some { z with challenge := none }) } } : State)) t)
  ∧ (∀ (s : State) (c : Fin 16), ((pget s.cmds.session c).any fun z => z.challenge.isSome) = false →
      Gives (.challengeExpiry c) s fun t => Frame noRegs [] s t)
  ∧ (∀ (s : State) (c : Fin 16) (n : Nat) (x : State), (s.cchan c).lockedAt = some n → x = s.waitTo (n + 60 * sclkSec) →
      Gives (.authLockoutEnd c) s fun t => (t.cchan c).lockedAt = none ∧ t.lockedOut c = false
      ∧ Frame noRegs [] ((x.setCchan c { x.cchan c with lockedAt := none })) t)
  ∧ (∀ (s : State) (c : Fin 16), (s.cchan c).lockedAt = none → Gives (.authLockoutEnd c) s fun t => Frame noRegs [] s t)
  ∧ (∀ (s : State) (a : Agent) (k : Fin 16) (v : Word), s.accepts a 0x0E (R.CQ_CH.off + R.CQ_CH.stride * k) v = true →
      bit v 63 = true → Gives (.cqChWrite a k v) s fun t => t.cqCh k = v
      ∧ Frame (regsIn [R.CQ_CH.key 0 k]) [.fab, .cmds] s t)
  ∧ (∀ (s : State) (a : Agent) (k : Fin 16) (v : Word), s.accepts a 0x0E (R.CQ_CH.off + R.CQ_CH.stride * k) v = true →
      s.cqOn k = true → bit v 63 = false → (s.cchan k).run = none → Gives (.cqChWrite a k v) s fun t => t.cqCh k = v
      ∧ pget t.cmds.session k = none ∧ Frame (regsIn [R.CQ_CH.key 0 k]) [.fab, .cmds] s t)

/-- A supervisor whose watchdog expires or whose core locks up is held and the standby one is released; the released
supervisor boots, becomes active with its watchdog armed, and its firmware becomes ready. SV_CMD re-arms, fails over and
restarts; a restart that ends in no active supervisor is a failover cause. The unsupervised timer expires at its limit.
Where the rules leave a choice its clauses rest on the model's, log entries 3, 176, 185, 186, 187, 188, 189, 190, 211 and
277. -/
def Obligations.SupervisorsFailOverAndRestart : Prop :=
  (∀ (s : State) (a : Agent) (v : Word), s.accepts a 0x08 R.WD_FEED.off v = true → Gives (.wdFeed a v) s fun t =>
      t.sup = { s.sup with wdAt := some s.time.total } ∧ Frame noRegs [.sup, .fab] s t)
  ∧ (∀ (s : State) (n : Nat) (y : State), s.sup.wdAt = some n → s.supervised = true → y = s.waitTo (n + 75000000) →
      Gives .watchdogExpiry s fun t => n + 75000000 ≤ t.time.total ∧ t.sup.failCause = y.sup.failCause.or (some 1)
      ∧ (y.sup.failCause = none → t.sup.failCause = some 1)
      ∧ Frame noRegs [] (({ y with sup := { y.sup with failCause := y.sup.failCause.or (some 1) } } : State)) t)
  ∧ (∀ (s : State), s.sup.wdAt = none ∨ s.supervised = false → Gives .watchdogExpiry s fun t => Frame noRegs [] s t)
  ∧ (∀ (s : State), s.supervised = true → Gives .coreLockup s fun t =>
      t.sup = { s.sup with failCause := s.sup.failCause.or (some 3) } ∧ Frame noRegs [.sup] s t)
  ∧ (∀ (s : State), s.supervised = false → Gives .coreLockup s fun t => Frame noRegs [] s t)
  ∧ (∀ (s : State) (k : Nat) (i : Fin 2) (y : State), s.sup.failCause = some k → s.svRole = some i →
      y = (if k = 2 then s.setSv i .off else s.svFail i) → Gives .failoverStart s fun t =>
      t.sv i = (if k = 2 then .off else .failed) ∧ t.sup.takeoverDue = (s.svIn .standby).isSome ∧ t.sup.failCause = none
      ∧ t.sup.lastCause = k ∧ t.sup.failovers = min (s.sup.failovers + 1) 0xFFFF
      ∧ t.sup.unsupStart = s.sup.unsupStart.or (some s.time.total) ∧ t.sup.ready = false ∧ t.sup.wdAt = none
      ∧ (∀ c : Nat, (t.cchan c).run = none) ∧ bit (t.hdr 0x08 hEvt) 0 = true
      ∧ Frame (regsIn (regKey 0 0x08 0 hEvt :: reportKeys)) [.sup, .cmds, .bitt] s t
      ∧ Frame noRegs [] ((y.failoverRest k)) t)
  ∧ (∀ (s : State) (n : Nat), s.sup.failCause = some 1 → s.svRole = none → s.sup.restartAt = some n →
      Gives .failoverStart s fun t => t.sup.takeoverDue = (s.svIn .standby).isSome ∧ t.sup.failCause = none
      ∧ t.sup.lastCause = 1 ∧ t.sup.failovers = min (s.sup.failovers + 1) 0xFFFF ∧ bit (t.hdr 0x08 hEvt) 0 = true
      ∧ Frame noRegs [] ((s.failoverRest 1)) t)
  ∧ (∀ (s : State) (k : Nat), s.sup.failCause = some k → s.svRole = none → k ≠ 1 ∨ s.sup.restartAt = none →
      Gives .failoverStart s fun t => t.sup = { s.sup with failCause := none } ∧ Frame noRegs [.sup] s t)
  ∧ (∀ (s : State), s.sup.failCause = none → Gives .failoverStart s fun t => Frame noRegs [] s t)
  ∧ (∀ (s : State) (i : Nat) (y : State), s.svIn .standby = some i → s.sup.takeoverDue = true → s.pwr.coreUp = true →
      y = s.setSv i .starting → Gives .supervisorRelease s fun t => t.sv i = .starting
      ∧ t.sup = { y.sup with takeoverDue := false, romDone := false } ∧ Frame noRegs [.sup] s t)
  ∧ (∀ (s : State), s.svIn .standby = none ∨ s.sup.takeoverDue = false ∨ s.pwr.coreUp = false →
      Gives .supervisorRelease s fun t => Frame noRegs [] s t)
  ∧ (∀ (s : State) (ok : Bool) (corrected : BitVec 16) (uncorr : Bool) (i : Nat) (y : State) (z : State) (u : State),
      ok = true → s.svIn .starting = some i → s.sup.romDone = false →
      y = s.wr R.NVM_ERR 0 (satFld (s.rd R.NVM_ERR) 63 48 corrected.toNat) →
      z = (if uncorr then (y.countf R.NVM_ERR 0 47 32).raise 0x0A 0 else y) → s.tam.hold = false → u = z.bootFlag uncorr →
      Gives (.bootRomDone ok corrected uncorr) s fun t => t.sup = { u.sup with romDone := true }
      ∧ t.rdf R.NVM_ERR 0 63 48 = min (s.rdf R.NVM_ERR 0 63 48 + corrected.toNat) 0xFFFF
      ∧ (uncorr = false → s.flag.state ≠ 3 → s.flag.state ≠ 4 → t.sup.ovlVer = s.flag.active ∧ t.nv = s.nv)
      ∧ (uncorr = true → bit (t.hdr 0x0A hEvt) 0 = true ∧ t.rdf R.NVM_ERR 0 47 32 = min (s.rdf R.NVM_ERR 0 47 32 + 1) 0xFFFF)
      ∧ Frame noRegs [.sup] u t)
  ∧ (∀ (s : State) (ok : Bool) (corrected : BitVec 16) (uncorr : Bool) (i : Nat) (y : State) (z : State), ok = true →
      s.svIn .starting = some i → s.sup.romDone = false →
      y = s.wr R.NVM_ERR 0 (satFld (s.rd R.NVM_ERR) 63 48 corrected.toNat) →
      z = (if uncorr then (y.countf R.NVM_ERR 0 47 32).raise 0x0A 0 else y) → s.tam.hold = true →
      Gives (.bootRomDone ok corrected uncorr) s fun t => t.sup = { s.sup with romDone := true, ovlVer := 0 }
      ∧ Frame noRegs [.sup] z t)
  ∧ (∀ (s : State) (ok : Bool) (corrected : BitVec 16) (uncorr : Bool) (i : Nat) (y : State) (z : State) (u : State),
      ok = false → s.svIn .starting = some i → s.sup.romDone = false →
      y = s.wr R.NVM_ERR 0 (satFld (s.rd R.NVM_ERR) 63 48 corrected.toNat) →
      z = (if uncorr then (y.countf R.NVM_ERR 0 47 32).raise 0x0A 0 else y) → u = (z.svFail i).dropFirmware →
      Gives (.bootRomDone ok corrected uncorr) s fun t => t.sup = { u.sup with restartAt := s.sup.restartAt }
      ∧ (i < 2 → t.sv i = .failed) ∧ Frame noRegs [.sup] u t)
  ∧ (∀ (s : State) (ok : Bool) (corrected : BitVec 16) (uncorr : Bool), s.svIn .starting = none ∨ s.sup.romDone = true →
      Gives (.bootRomDone ok corrected uncorr) s fun t => Frame noRegs [] s t)
  ∧ (∀ (s : State) (ok : Bool) (corrected : BitVec 16) (uncorr : Bool) (i : Nat), ok = true → uncorr = false →
      s.svIn .starting = some i → s.sup.romDone = false → s.sup.ready = false → s.tam.hold = false → s.flag.state = 3 →
      s.sup.bootKind = .failover ∨ s.sup.bootKind = .takeover → Gives (.bootRomDone ok corrected uncorr) s fun t =>
      t.sup.romDone = true ∧ t.nv = (s.setFlag { s.flag with state := 2 }).nv ∧ t.cmds.kept.length = s.cmds.kept.length + 1
      ∧ Frame (regsIn [R.NVM_ERR.key 0]) [.sup, .nv, .cmds] s t)
  ∧ (∀ (s : State) (ok : Bool) (corrected : BitVec 16) (uncorr : Bool) (i : Nat), ok = true → uncorr = false →
      s.svIn .starting = some i → s.sup.romDone = false → s.sup.ready = false → s.tam.hold = false → s.flag.state = 4 →
      Gives (.bootRomDone ok corrected uncorr) s fun t => t.sup.romDone = true
      ∧ t.nv = (if s.flag.boots < 3 then s.setFlag { s.flag with boots := s.flag.boots + 1 } else s.setFlag { s.flag.swapped with state := 0, boots := 0 }).nv
      ∧ (3 ≤ s.flag.boots → t.sup.restartCause = 3) ∧ Frame (regsIn [R.NVM_ERR.key 0]) [.sup, .nv, .cmds] s t)
  ∧ (∀ (s : State) (i : Nat) (y : State) (z : State) (u : State), s.svIn .starting = some i → s.sup.romDone = true →
      y = s.setSv i .active →
      z = { y with sup := { y.sup with wdAt := some s.time.total, recovery := true, ready := false, unsupStart := none, expired := false, limitMet := false, restartAt := none }, cmds := { y.cmds with dark := y.cmds.dark + b2n (s.time.pos != 0) } } →
      u = (if s.tam.hold = true then z else z.takeRole) → Gives .supervisorActive s fun t =>
      (∀ c : Fin 16, u.cqOn c = true → (t.cchan c).replay = true)
      ∧ (s.tam.hold = true → t.sv i = .active ∧ t.sup.wdAt = some s.time.total ∧ t.sup.unsupStart = none)
      ∧ (s.cmds.restored = true → t.sv i = .active ∧ t.sup.wdAt = some s.time.total ∧ t.sup.recovery = true ∧ t.sup.ready = false ∧ t.sup.unsupStart = none ∧ t.sup.expired = false)
      ∧ t.cmds = { u.cmds with chan := t.cmds.chan } ∧ Frame noRegs [.cmds] u t)
  ∧ (∀ (s : State), s.svIn .starting = none ∨ s.sup.romDone = false → Gives .supervisorActive s fun t => Frame noRegs [] s t)
  ∧ (∀ (s : State), s.supervised = true → s.sup.ready = false → s.sup.bootKind = .coreStart → s.sup.restartCause = 0 →
      s.cmds.kept = [] → ((List.range 16).any fun k => s.cqOn k) = false → Gives .firmwareReady s fun t =>
      t.sup = { s.sup with ready := true, recovery := false, confirmEnd := (if s.updState = 4 then some (s.time.total + s.rdf R.UPD_CFG 0 15 0 * sclkSec) else none), rearmAt := some (s.time.total + 10 * sclkSec) }
      ∧ bit (t.hdr 0x0E hEvt) 0 = true ∧ t.cmds.dark = 0 ∧ Frame (regsIn [regKey 0 0x0E 0 hEvt]) [.sup, .cmds] s t)
  ∧ (∀ (s : State) (y : State) (z : State) (u : State), s.supervised = true → s.sup.ready = false →
      y = { s with sup := { s.sup with ready := true, recovery := false } } → z = (y.raise 0x0E 0).postKept.readyNotice →
      u = z.notifyAll 0x8008 [word z.cmds.dark] → Gives .firmwareReady s fun t => t.cmds = { u.cmds with dark := 0 }
      ∧ t.sup = { u.sup with confirmEnd := (if u.updState = 4 then some (u.time.total + u.rdf R.UPD_CFG 0 15 0 * sclkSec) else none), rearmAt := some (u.time.total + 10 * sclkSec) }
      ∧ t.sup.ready = true ∧ Frame noRegs [.cmds, .sup] u t)
  ∧ (∀ (s : State), s.supervised = false ∨ s.sup.ready = true → Gives .firmwareReady s fun t => Frame noRegs [] s t)
  ∧ (∀ (s : State) (a : Agent) (target : Fin 2), s.accepts a 0x08 R.SV_CMD.off (word (at_ 8 target + 1)) = true →
      s.svFeedOk target = true → Gives (.svCmdRearm a target) s fun t => s.sv target = .failed ∧ t.sv target = .qualifying
      ∧ t.sup = (s.setSv target .qualifying).sup ∧ Frame noRegs [.sup, .fab] s t)
  ∧ (∀ (s : State) (a : Agent) (target : Fin 2), s.accepts a 0x08 R.SV_CMD.off (word (at_ 8 target + 1)) = true →
      s.svFeedOk target = false → Gives (.svCmdRearm a target) s fun t => t.sup = s.sup ∧ Frame noRegs [.fab] s t)
  ∧ (∀ (s : State) (a : Agent), s.accepts a 0x08 R.SV_CMD.off 2 = true → (s.svIn .active).isSome = true →
      Gives (.svCmdFailover a) s fun t => (s.svIn .standby).isSome = true
      ∧ t.sup = { s.sup with failCause := s.sup.failCause.or (some 4) } ∧ Frame noRegs [.sup, .fab] s t)
  ∧ (∀ (s : State) (a : Agent) (i : Nat), s.accepts a 0x08 R.SV_CMD.off 4 = true → s.svIn .active = some i →
      Gives (.svCmdRestart a) s fun t => t.sv i = .starting ∧ t.sup.bootKind = .restart ∧ t.sup.restartAt = some s.time.total
      ∧ t.sup.wdAt = none ∧ t.sup.ready = false ∧ t.sup.unsupStart = s.sup.unsupStart.or (some s.time.total)
      ∧ t.sup = s.svRestart.sup ∧ t.cmds = s.svRestart.cmds ∧ (∀ c : Nat, (t.cchan c).run = none)
      ∧ Frame noRegs [.sup, .cmds, .fab] s t)
  ∧ (∀ (s : State) (n : Nat) (y : State), s.sup.restartAt = some n → s.supervised = false → y = s.waitTo (n + 450000000) →
      Gives .mgmtRestartTimeout s fun t => n + 450000000 ≤ t.time.total ∧ t.sup.failCause = y.sup.failCause.or (some 1)
      ∧ Frame noRegs [] (({ y with sup := { y.sup with failCause := y.sup.failCause.or (some 1) } } : State)) t)
  ∧ (∀ (s : State), s.sup.restartAt = none ∨ s.supervised = true → Gives .mgmtRestartTimeout s fun t => Frame noRegs [] s t)
  ∧ (∀ (s : State) (sv : Fin 2) (ok : Bool), ok = true → s.sv sv = .qualifying → s.sup.qualFailover = false →
      s.ckptNewest = none → Gives (.qualifyingBootDone sv ok) s fun t => t.sv sv = .standby ∧ t.sup.validated = 0
      ∧ bit (t.hdr 0x08 hEvt) 1 = true ∧ Frame (regsIn [regKey 0 0x08 0 hEvt]) [.sup] s t)
  ∧ (∀ (s : State) (sv : Fin 2) (ok : Bool) (n : Nat) (y : State), ok = true → s.sv sv = .qualifying →
      s.sup.qualFailover = false → n = (s.ckptNewest.map fun i => (s.ckptWord i 1).toNat).getD 0 →
      y = (s.discardOlder sv).setSv sv .standby → Gives (.qualifyingBootDone sv ok) s fun t => t.sv sv = .standby
      ∧ t.sup = { y.sup with validated := n } ∧ bit (t.hdr 0x08 hEvt) 1 = true
      ∧ Frame (regsIn [regKey 0 0x08 0 hEvt]) [.sup] y t)
  ∧ (∀ (s : State) (sv : Fin 2) (ok : Bool) (y : State), ok = true → s.sv sv = .qualifying → s.sup.qualFailover = true →
      y = s.setSv sv .starting → Gives (.qualifyingBootDone sv ok) s fun t => t.sv sv = .starting
      ∧ t.sup = { y.sup with qualFailover := false, romDone := false } ∧ Frame noRegs [.sup] s t)
  ∧ (∀ (s : State) (sv : Fin 2) (ok : Bool) (y : State), ok = false → s.sv sv = .qualifying → y = s.svFail sv →
      Gives (.qualifyingBootDone sv ok) s fun t => t.sv sv = .failed ∧ t.sup = { y.sup with qualFailover := false }
      ∧ Frame noRegs [.sup] s t)
  ∧ (∀ (s : State) (sv : Fin 2) (ok : Bool), s.sv sv ≠ .qualifying → Gives (.qualifyingBootDone sv ok) s fun t =>
      Frame noRegs [] s t)
  ∧ (∀ (s : State) (n : Nat) (y : State), s.sup.unsupStart = some n →
      y = s.waitTo (n + s.rdf R.UNSUP_LIMIT 0 16 0 * sclkSec) → y.unsupOver = true → y.sup.limitMet = false →
      Gives .unsupLimitExpiry s fun t => t.sup = { y.sup with expired := true, limitMet := true, haltDue := true }
      ∧ Frame noRegs [.sup] y t)
  ∧ (∀ (s : State) (n : Nat) (y : State), s.sup.unsupStart = some n →
      y = s.waitTo (n + s.rdf R.UNSUP_LIMIT 0 16 0 * sclkSec) → y.unsupOver = false ∨ y.sup.limitMet = true →
      Gives .unsupLimitExpiry s fun t => Frame noRegs [] y t)
  ∧ (∀ (s : State), s.sup.unsupStart = none → Gives .unsupLimitExpiry s fun t => Frame noRegs [] s t)
  ∧ (∀ (s : State) (a : Agent) (v : Word), s.accepts a 0x08 R.UNSUP_LIMIT.off v = true →
      Gives (.unsupLimitWrite a v) s fun t => t.rd R.UNSUP_LIMIT = v
      ∧ (t.sup.expired = true → s.sup.expired = true ∨ (s.sup.unsupStart.isSome = true ∧ 1000 * fld v 16 0 ≤ s.unsupMs))
      ∧ Frame (regsIn [R.UNSUP_LIMIT.key 0]) [.sup, .fab] s t)

/-- A checkpoint that is due begins with its slot's word 0 cleared, at the spacing of R452, and is written whole or counted
as failed. An update that is not confirmed in time is rolled back. A deferred gating takes effect and is reported. A
debug attempt is granted or is a tamper condition; an enabled tamper source latches, counts and is answered by its phase.
NVM_DATA writes and advances; an erase takes and ends. Where the rules leave a choice its clauses rest on the model's,
log entries 3, 13, 25, 32, 175, 191, 193, 201, 202, 203, 204, 208 and 275. -/
def Obligations.CheckpointsUpdatesAndTamper : Prop :=
  (∀ (s : State) (x : State) (y : State) (z : State), y = (if s.sup.ckptDue = some 3 then s.drainPosted else s) →
      y.supervised = true → y.tam.hold = false → y.sup.ckptWriting = none →
      x = y.waitTo ((y.sup.ckptLast.map fun n => n + (if y.sup.ckptDue.isSome then 1 else 8) * sclkSec).getD (if y.sup.ckptDue.isSome then 0 else 8 * sclkSec)) →
      z = { x with sup := { x.sup with ckptWriting := some (y.sup.ckptDue.getD 1), ckptDue := none, ckptLast := some x.time.total } } →
      Gives .checkpointDue s fun t => t.sup = z.sup
      ∧ t.nv = (x.nvmWrite (ckptPlace ((x.sup.ckptSeq + 1) % 16)) (leBytes 8 0)).nv ∧ Frame noRegs [.sup, .nv] x t)
  ∧ (∀ (s : State) (y : State), y = (if s.sup.ckptDue = some 3 then s.drainPosted else s) →
      y.supervised = false ∨ y.tam.hold = true ∨ y.sup.ckptWriting.isSome = true → Gives .checkpointDue s fun t =>
      t.sup = y.sup ∧ Frame noRegs [] y t)
  ∧ (∀ (s : State) (ok : Bool) (k : Nat), ok = true → s.sup.ckptWriting = some k → Gives (.checkpointDone ok) s fun t =>
      t.sup = { s.sup with ckptSeq := s.sup.ckptSeq + 1, ckptSlot := (s.sup.ckptSeq + 1) % 16, ckptTrunc := decide (1664 < s.ckptRegs.length), ckptWriting := none }
      ∧ t.cmds = { s.cmds with mirror := some { seq := s.sup.ckptSeq + 1, chans := (List.range 16).map s.cqCh, tmo := s.rd R.SESSION_TMO } }
      ∧ t.ckptWord ((s.sup.ckptSeq + 1) % 16) 0 = 0x3154504B43564E58
      ∧ t.ckptWord ((s.sup.ckptSeq + 1) % 16) 1 = word (s.sup.ckptSeq + 1) ∧ Frame noRegs [.sup, .nv, .cmds] s t)
  ∧ (∀ (s : State) (ok : Bool) (k : Nat), ok = false → s.sup.ckptWriting = some k → s.sup.ready = false →
      ((List.range 16).any fun c => (s.cchan c).run.isSome) = false → Gives (.checkpointDone ok) s fun t =>
      t.sup = { s.sup with ckptWriting := none } ∧ t.rdf R.NVM_ERR 0 31 16 = min (s.rdf R.NVM_ERR 0 31 16 + 1) 0xFFFF
      ∧ bit (t.hdr 0x08 hEvt) 4 = true ∧ bit (t.hdr 0x0A hEvt) 1 = true
      ∧ t.pwr = (if k = 3 then { s.pwr with req := .none } else s.pwr)
      ∧ Frame (regsIn (R.NVM_ERR.key 0 :: regKey 0 0x08 0 hEvt :: regKey 0 0x0A 0 hEvt :: reportKeys)) [.sup, .pwr, .bitt] s t)
  ∧ (∀ (s : State) (ok : Bool) (k : Nat) (y : State) (z : State) (u : State), ok = false → s.sup.ckptWriting = some k →
      y = (({ s with sup := { s.sup with ckptWriting := none } }.countf R.NVM_ERR 0 31 16).raise 0x08 4).raise 0x0A 1 →
      z = y.report 0x0A 0 0x0A (y.rd R.NVM_ERR) y.updStat →
      u = (if k = 3 then z.setPwr fun p => { p with req := .none } else z) → Gives (.checkpointDone ok) s fun t =>
      t.rdf R.NVM_ERR 0 31 16 = min (s.rdf R.NVM_ERR 0 31 16 + 1) 0xFFFF
      ∧ Frame noRegs [] ((u.ckptCommandsFail (s.sup.ckptSeq + 1))) t)
  ∧ (∀ (s : State) (ok : Bool), s.sup.ckptWriting = none → Gives (.checkpointDone ok) s fun t => Frame noRegs [] s t)
  ∧ (∀ (s : State) (n : Nat) (x : State) (y : State), s.sup.confirmEnd = some n → s.updState = 4 → s.supervised = true →
      s.tam.hold = false → x = s.waitTo n → y = x.setFlag { x.flag.swapped with state := 0, boots := 0 } →
      Gives .confirmTimeout s fun t => t.nv = y.nv ∧ t.sup.restartCause = 2
      ∧ (x.svIn .active).map (fun i => t.sv i) = (x.svIn .active).map (fun _ => SvState.starting) ∧ t.sup.bootKind = .restart
      ∧ t.sup.restartAt = some x.time.total ∧ Frame noRegs [] ((y.updNotice.restartFor 2)) t)
  ∧ (∀ (s : State), s.sup.confirmEnd = none ∨ s.updState ≠ 4 ∨ s.supervised = false ∨ s.tam.hold = true →
      Gives .confirmTimeout s fun t => Frame noRegs [] s t)
  ∧ (∀ (s : State) (page : Fin 128) (g : Gate) (y : State) (z : State),
      s.sup.gates.find? (fun v => v.page == page.val) = some g →
      s.secureUse page = false ∨ g.since + 3000000 ≤ s.time.total →
      y = (s.secureTxns page).foldl (fun u id => u.respond id true false []) s →
      z = { y with sup := { y.sup with gates := y.sup.gates.filter fun v => v.page != page.val } } →
      Gives (.gatingEffect page) s fun t => t.gatePending page = false ∧ bit (t.hdr page hCtrl) 0 = false
      ∧ bit (t.hdr 0x08 hEvt) 3 = true ∧ Frame noRegs [] (((z.ctrlPut page (clrBit (z.hdr page hCtrl) 0)).raise 0x08 3)) t)
  ∧ (∀ (s : State) (page : Fin 128) (g : Gate), s.sup.gates.find? (fun v => v.page == page.val) = some g →
      s.secureUse page = true → s.time.total < g.since + 3000000 → Gives (.gatingEffect page) s fun t => Frame noRegs [] s t)
  ∧ (∀ (s : State) (page : Fin 128), s.gatePending page = false → Gives (.gatingEffect page) s fun t => Frame noRegs [] s t)
  ∧ (∀ (s : State) (bytes : List Byte) (ch : List Byte) (y : State), s.test.tap = 0x10 → bytes.length = 97 →
      s.pwr.porN = true → ch = s.drawChallenge.1 → y = s.drawChallenge.2 → Gives (.debugUnlock bytes) s fun t =>
      (y.unlocks ch bytes = true → t.sup = { s.sup with dbgGrant := true } ∧ t.rd R.TMP_LATCH = s.rd R.TMP_LATCH)
      ∧ (y.unlocks ch bytes = false → s.rdb R.TMP_CFG 0 6 = true → t.rdb R.TMP_LATCH 0 6 = true ∧ t.rdf R.TMP_LAST 0 7 0 = 6 ∧ bit (t.hdr 0x09 hEvt) 0 = true ∧ t.sup.dbgGrant = s.sup.dbgGrant)
      ∧ Frame noRegs [] ((if y.unlocks ch bytes = true then { y with sup := { y.sup with dbgGrant := true } } else y.tamper 6 true)) t)
  ∧ (∀ (s : State) (bytes : List Byte), s.test.tap ≠ 0x10 ∨ bytes.length ≠ 97 ∨ s.pwr.porN = false →
      Gives (.debugUnlock bytes) s fun t => Frame noRegs [] s t)
  ∧ (∀ (s : State) (k : Fin 7), s.tamperSeen k = false ∨ s.rdb R.TMP_CFG 0 k = false → Gives (.tamperCondition k) s fun t =>
      Frame noRegs [] s t)
  ∧ (∀ (s : State) (k : Fin 7) (y : State) (z : State) (u : State), s.tamperSeen k = true → s.rdb R.TMP_CFG 0 k = true →
      s.tmpPhase (k.val == 6) = 0 → s.rdb R.TMP_CFG 0 (8 + k) = false →
      y = (s.wr R.TMP_LATCH 0 (setBit (s.rd R.TMP_LATCH) k)).wr R.TMP_LAST 0 (word (at_ 32 (s.tb2Sec % 2 ^ 32) + at_ 16 0 + k)) →
      z = y.nvmWrite (tamperPlace + k) [BitVec.ofNat 8 (min ((s.nv.nvm.byte (tamperPlace + k)).toNat + 1) 0xFF)] →
      u = (z.report 0x09 0 0x07 (z.rd R.TMP_LAST) (z.rd R.TMP_LATCH)).raise 0x09 0 → Gives (.tamperCondition k) s fun t =>
      t.rd R.TMP_LATCH = setBit (s.rd R.TMP_LATCH) k
      ∧ (t.nv.nvm.byte (tamperPlace + k)).toNat = min ((s.nv.nvm.byte (tamperPlace + k)).toNat + 1) 0xFF
      ∧ bit (t.hdr 0x09 hEvt) 0 = true ∧ t.rd R.TMP_LAST = word (at_ 32 (s.tb2Sec % 2 ^ 32) + at_ 16 0 + k) ∧ t.tam = s.tam
      ∧ Frame noRegs [] u t)
  ∧ (∀ (s : State) (k : Fin 7) (ph : Nat) (y : State) (z : State) (u : State), s.tamperSeen k = true →
      s.rdb R.TMP_CFG 0 k = true →
      s.tmpPhase (k.val == 6) = 0 ∧ s.rdb R.TMP_CFG 0 (8 + k) = true ∨ s.tmpPhase (k.val == 6) = 1 →
      ph = s.tmpPhase (k.val == 6) →
      y = (s.wr R.TMP_LATCH 0 (setBit (s.rd R.TMP_LATCH) k)).wr R.TMP_LAST 0 (word (at_ 32 (s.tb2Sec % 2 ^ 32) + at_ 16 ph + k)) →
      z = y.nvmWrite (tamperPlace + k) [BitVec.ofNat 8 (min ((s.nv.nvm.byte (tamperPlace + k)).toNat + 1) 0xFF)] →
      u = (z.report 0x09 0 0x07 (z.rd R.TMP_LAST) (z.rd R.TMP_LATCH)).raise 0x09 0 → Gives (.tamperCondition k) s fun t =>
      (t.nv.nvm.byte (tamperPlace + k)).toNat = min ((s.nv.nvm.byte (tamperPlace + k)).toNat + 1) 0xFF
      ∧ bit (t.hdr 0x09 hEvt) 0 = true ∧ t.rdb R.TMP_LATCH 0 k = true ∧ t.rdf R.TMP_LAST 0 23 16 = ph ∧ t.tam.hold = true
      ∧ t.cmds.session = [] ∧ t.sup.ckptDue = none ∧ Frame noRegs [] (u.enterHold) t)
  ∧ (∀ (s : State) (k : Fin 7) (y : State) (z : State) (u : State), s.tamperSeen k = true → s.rdb R.TMP_CFG 0 k = true →
      s.tmpPhase (k.val == 6) = 2 →
      y = (s.wr R.TMP_LATCH 0 (setBit (s.rd R.TMP_LATCH) k)).wr R.TMP_LAST 0 (word (at_ 32 (s.tb2Sec % 2 ^ 32) + at_ 16 2 + k)) →
      z = y.nvmWrite (tamperPlace + k) [BitVec.ofNat 8 (min ((s.nv.nvm.byte (tamperPlace + k)).toNat + 1) 0xFF)] →
      u = (z.report 0x09 0 0x07 (z.rd R.TMP_LAST) (z.rd R.TMP_LATCH)).raise 0x09 0 → Gives (.tamperCondition k) s fun t =>
      t.rd R.TMP_LATCH = setBit (s.rd R.TMP_LATCH) k
      ∧ (t.nv.nvm.byte (tamperPlace + k)).toNat = min ((s.nv.nvm.byte (tamperPlace + k)).toNat + 1) 0xFF
      ∧ bit (t.hdr 0x09 hEvt) 0 = true ∧ t.rd R.TMP_LAST = word (at_ 32 (s.tb2Sec % 2 ^ 32) + at_ 16 2 + k)
      ∧ t.tam = { s.tam with pendingWake := true }
      ∧ Frame noRegs [] (({ u with tam := { u.tam with pendingWake := true } } : State)) t)
  ∧ (∀ (s : State) (k : Fin 7) (y : State) (z : State) (u : State), s.tamperSeen k = true → s.rdb R.TMP_CFG 0 k = true →
      s.tmpPhase (k.val == 6) = 3 →
      y = (s.wr R.TMP_LATCH 0 (setBit (s.rd R.TMP_LATCH) k)).wr R.TMP_LAST 0 (word (at_ 32 (s.tb2Sec % 2 ^ 32) + at_ 16 3 + k)) →
      z = y.nvmWrite (tamperPlace + k) [BitVec.ofNat 8 (min ((s.nv.nvm.byte (tamperPlace + k)).toNat + 1) 0xFF)] →
      u = (z.report 0x09 0 0x07 (z.rd R.TMP_LAST) (z.rd R.TMP_LATCH)).raise 0x09 0 → Gives (.tamperCondition k) s fun t =>
      t.rdf R.TMP_LAST 0 23 16 = 3 ∧ t.rdb R.TMP_LATCH 0 k = true
      ∧ Frame noRegs [] ((if s.rdb R.TMP_CFG 0 (8 + k) = true then u.abortKeyOps.enterHold else u.abortKeyOps)) t)
  ∧ (∀ (s : State) (a : Agent) (v : Word), s.accepts a 0x0A R.NVM_DATA.off v = true → Gives (.nvmDataWrite a v) s fun t =>
      t.nv = (s.nvmWrite (8 * s.rdf R.NVM_ADDR 0 23 3) (leBytes 8 v.toNat)).nv
      ∧ t.rd R.NVM_ADDR = word (8 * ((s.rdf R.NVM_ADDR 0 23 3 + 1) % 2 ^ 21))
      ∧ Frame (regsIn [R.NVM_ADDR.key 0]) [.nv, .fab] s t)
  ∧ (∀ (s : State) (a : Agent) (slot : Fin 2), s.accepts a 0x0A R.NVM_CMD.off (word (at_ slot 1)) = true →
      Gives (.eraseSlot a slot) s fun t => t.nv = { s.nv with erasing := some slot } ∧ Frame noRegs [.nv, .fab] s t)
  ∧ (∀ (s : State) (i : Nat), s.nv.erasing = some i → Gives .nvmEraseDone s fun t =>
      t.nv = { (s.nvmWrite (0x400000 * i) (bytesFrom Config.erasedByte (0x400000 * i) 0x400000)).nv with erasing := none }
      ∧ Frame noRegs [.nv] s t)
  ∧ (∀ (s : State), s.nv.erasing = none → Gives .nvmEraseDone s fun t => Frame noRegs [] s t)

/-- Setting RUN starts entry 0. An entry start reads SEQ_e and switches the input, with 60 SCLK before the first sample; a
dwell that ends puts its record into the ring with its number, sum, sum of squares and first sample's time, or loses it
while the ring is full; a repeat follows back to back, then the delay, then the next entry. Convergence updates the
slices unless they are frozen, and a frozen calibration far from its temperature is stale. Where the rules leave a choice
its clauses rest on the model's, log entries 3, 213, 214, 216, 217, 218, 219, 220 and 221. -/
def Obligations.SalinometerRunsItsSequence : Prop :=
  (∀ (s : State) (a : Agent) (v : Word), s.accepts a 0x5B R.SAL_CFG.off v = true → s.sal.urg = none →
      Gives (.salRunWrite a v) s fun t => t.rd R.SAL_CFG = v
      ∧ (bit v 7 = true → s.rdb R.SAL_CFG 0 7 = false → t.sal = { s.sal with entry := 0, rep := 0, trig := false, phase := .switching, t0 := 2 * s.time.total })
      ∧ (bit v 7 = false → s.rdb R.SAL_CFG 0 7 = true → t.sal = { s.sal with entry := 0, rep := 0, trig := false, phase := .stopped, t0 := 2 * s.time.total })
      ∧ (bit v 7 = s.rdb R.SAL_CFG 0 7 → t.sal = s.sal) ∧ Frame (regsIn [R.SAL_CFG.key 0]) [.sal, .fab] s t)
  ∧ (∀ (s : State) (a : Agent) (v : Word), s.accepts a 0x5B R.SAL_CFG.off v = true → s.sal.urg ≠ none →
      Gives (.salRunWrite a v) s fun t => t.rd R.SAL_CFG = v
      ∧ (bit v 7 ≠ s.rdb R.SAL_CFG 0 7 → t.sal = { s.sal with entry := 0, rep := 0, trig := false, resume := (if bit v 7 then .switching else .stopped) })
      ∧ (bit v 7 = s.rdb R.SAL_CFG 0 7 → t.sal = s.sal) ∧ Frame (regsIn [R.SAL_CFG.key 0]) [.sal, .fab] s t)
  ∧ (∀ (s : State) (x : State) (e : Word), x = s.delayOver → x.sal.phase = .switching → s.enabled 0x5B = true →
      x.sal.t0 ≤ 2 * s.time.total → e = s.rd R.SEQ 0 x.sal.entry → Gives .salEntryStart s fun t => t.sal.cur = e
      ∧ t.sal.input = fld e 4 0 ∧ t.sal.rep = 0
      ∧ t.sal.phase = (if bit e 61 ∧ s.sal.trigPend = false then .trigWait else .dwelling)
      ∧ t.sal.trigPend = (s.sal.trigPend && !bit e 61) ∧ t.sal.t0 = 2 * (x.sal.t0 / 2 + 60)
      ∧ t.sal.lowPwr = s.rdb R.SAL_CFG 0 8 ∧ (s.sal.lowPwr ≠ s.rdb R.SAL_CFG 0 8 → t.converged = false)
      ∧ Frame (regsIn [R.CAL_STAT.key 0]) [.sal] s t ∧ Frame noRegs [] (x.salEntry) t)
  ∧ (∀ (s : State) (x : State), x = s.delayOver →
      x.sal.phase ≠ .switching ∨ s.enabled 0x5B = false ∨ 2 * s.time.total < x.sal.t0 → Gives .salEntryStart s fun t =>
      Frame noRegs [] x t)
  ∧ (∀ (s : State) (codes : List RawCode) (x : State) (n : Nat), x = (s.toTotal (s.sal.lastHalf / 2)).salSettle →
      x.sal.phase = .dwelling → x.dwellOver codes = true → n = (x.rd R.RES_WSEQ).toNat →
      occupancy n (x.rd R.RES_RSEQ).toNat < 32 → x.sal.burst = false →
      (codes.all fun k => decide (-2048 ≤ k ∧ k ≤ 2047)) = true → x.sal.settle = 0 → x.sal.entry < 64 → x.sal.input < 32 →
      Gives (.salDwellEnd codes) s fun t => (t.rd R.RES_WSEQ).toNat = (n + 1) % 2 ^ 32
      ∧ fld (t.rd R.RES_RW 0 (4 * (n % 32))) 63 32 = n % 2 ^ 32 ∧ fld (t.rd R.RES_RW 0 (4 * (n % 32))) 29 24 = x.sal.entry
      ∧ fld (t.rd R.RES_RW 0 (4 * (n % 32) + 1)) 63 44 = codes.length - 1
      ∧ fld (t.rd R.RES_RW 0 (4 * (n % 32) + 1)) 43 0 = (codes.map fun k => k * k).sum.toNat % 2 ^ 44
      ∧ sfld (t.rd R.RES_RW 0 (4 * (n % 32) + 2)) 31 0 = (codes.sum : Int)
      ∧ t.rd R.RES_RW 0 (4 * (n % 32) + 3) = word (x.stampOf (x.sal.t0 / 2)) ∧ bit (t.hdr 0x5B hEvt) 0 = true
      ∧ t.sal.phase = (if x.sal.rep < fld x.sal.cur 39 24 then .dwelling else .delay)
      ∧ t.sal.rep = (if x.sal.rep < fld x.sal.cur 39 24 then x.sal.rep + 1 else x.sal.rep)
      ∧ (x.sal.rep < fld x.sal.cur 39 24 → t.sal.t0 = x.sal.lastHalf + x.sal.step)
      ∧ (fld x.sal.cur 39 24 ≤ x.sal.rep → t.sal.t0 = 2 * (x.sal.lastHalf / 2 + 1 + 1500 * fld x.sal.cur 23 8))
      ∧ t.sal.afterLoss = false ∧ Frame noRegs [] ((x.dwellEnd codes).dwellNext) t
      ∧ Frame (regsIn (R.RES_WSEQ.key 0 :: regKey 0 0x5B 0 hEvt :: R.CAL_STAT.key 0 :: (List.range 128).map (fun k => R.RES_RW.key 0 k))) [.sal] x t)
  ∧ (∀ (s : State) (codes : List RawCode) (x : State), x = (s.toTotal (s.sal.lastHalf / 2)).salSettle →
      x.sal.phase = .dwelling → x.dwellOver codes = true → occupancy (x.rd R.RES_WSEQ).toNat (x.rd R.RES_RSEQ).toNat = 32 →
      x.sal.burst = false → (codes.all fun k => decide (-2048 ≤ k ∧ k ≤ 2047)) = true → Gives (.salDwellEnd codes) s fun t =>
      t.rd R.RES_WSEQ = x.rd R.RES_WSEQ ∧ t.rdf R.SAL_CNT 0 63 48 = min (x.rdf R.SAL_CNT 0 63 48 + 1) 0xFFFF
      ∧ bit (t.hdr 0x5B hEvt) 1 = true ∧ t.sal.afterLoss = true ∧ Frame noRegs [] ((x.dwellEnd codes).dwellNext) t
      ∧ Frame (regsIn [R.SAL_CNT.key 0, regKey 0 0x5B 0 hEvt, R.CAL_STAT.key 0]) [.sal] x t)
  ∧ (∀ (s : State) (codes : List RawCode) (x : State), x = (s.toTotal (s.sal.lastHalf / 2)).salSettle →
      x.sal.phase = .dwelling → x.dwellOver codes = true → (codes.any fun k => decide (k < -2048 ∨ 2047 < k)) = true →
      Gives (.salDwellEnd codes) s fun t => t.rdf R.SAL_CNT 0 15 0 = min (x.rdf R.SAL_CNT 0 15 0 + 1) 0xFFFF
      ∧ bit (t.hdr 0x5B hEvt) 2 = true ∧ Frame noRegs [] (((x.dwellEnd codes).dwellNext)) t)
  ∧ (∀ (s : State) (codes : List RawCode) (x : State) (n : Nat), x = (s.toTotal (s.sal.lastHalf / 2)).salSettle →
      x.sal.phase = .dwelling → x.dwellOver codes = true → n = (x.rd R.RES_WSEQ).toNat →
      occupancy n (x.rd R.RES_RSEQ).toNat < 32 → x.sal.burst = true → (x.rd R.CAP_PTR).toNat < 32768 →
      Gives (.salDwellEnd codes) s fun t => t.rd R.CAP_PTR = word (((x.rd R.CAP_PTR).toNat + codes.length) % 32768)
      ∧ fld (t.rd R.RES_RW 0 (4 * (n % 32) + 1)) 63 44 = codes.length - 1
      ∧ fld (t.rd R.RES_RW 0 (4 * (n % 32) + 1)) 14 0 = (x.rd R.CAP_PTR).toNat % 32768
      ∧ Frame noRegs [] (((x.dwellEnd codes).dwellNext)) t)
  ∧ (∀ (s : State) (codes : List RawCode) (x : State), x = (s.toTotal (s.sal.lastHalf / 2)).salSettle →
      x.sal.phase ≠ .dwelling ∨ x.dwellOver codes = false → Gives (.salDwellEnd codes) s fun t => Frame noRegs [] s t)
  ∧ (∀ (s : State) (x : State), s.sal.phase = .delay → x = s.toTotal (s.sal.t0 / 2) → x.sal.phase = .delay →
      x.sal.t0 ≤ 2 * x.time.total → Gives .salDelayEnd s fun t =>
      t.sal = { x.sal with entry := (if x.rdf R.SAL_CFG 0 5 0 ≤ x.sal.entry then 0 else x.sal.entry + 1), rep := 0, phase := .switching }
      ∧ Frame noRegs [.sal] x t)
  ∧ (∀ (s : State) (x : State), s.sal.phase = .delay → x = s.toTotal (s.sal.t0 / 2) →
      x.sal.phase ≠ .delay ∨ 2 * x.time.total < x.sal.t0 → Gives .salDelayEnd s fun t => Frame noRegs [] x t)
  ∧ (∀ (s : State), s.sal.phase ≠ .delay → Gives .salDelayEnd s fun t => Frame noRegs [] s t)
  ∧ (∀ (s : State) (slices : List Word), s.enabled 0x5B = true → s.rdf R.SAL_XCFG 0 1 0 = 0 →
      Gives (.salConverged slices) s fun t => t.rdb R.CAL_STAT 0 0 = true
      ∧ t.rdf R.CAL_STAT 0 63 32 = min (s.rdf R.CAL_STAT 0 63 32 + 1) (2 ^ 32 - 1)
      ∧ (∀ k : Nat, k < (if s.sal.lowPwr then 2 else 4) → fld (t.rd R.SLICE 0 k) 63 56 = s.pwr.junction.toNat)
      ∧ (∀ k : Nat, (if s.sal.lowPwr then 2 else 4) ≤ k → k < 4 → t.rd R.SLICE 0 k = s.rd R.SLICE 0 k)
      ∧ t.sal = { s.sal with uncal := s.sal.uncal && decide (s.sal.t0 < 2 * s.time.total) }
      ∧ Frame (regsIn (R.CAL_STAT.key 0 :: (List.range 4).map (fun k => R.SLICE.key 0 k))) [.sal] s t)
  ∧ (∀ (s : State) (slices : List Word), s.enabled 0x5B = true → s.rdf R.SAL_XCFG 0 1 0 ≠ 0 →
      Gives (.salConverged slices) s fun t => t.rdb R.CAL_STAT 0 0 = true
      ∧ t.sal = { s.sal with uncal := s.sal.uncal && decide (s.sal.t0 < 2 * s.time.total) }
      ∧ Frame (regsIn [R.CAL_STAT.key 0]) [.sal] s t)
  ∧ (∀ (s : State) (slices : List Word), s.enabled 0x5B = false → Gives (.salConverged slices) s fun t =>
      Frame noRegs [] s t)
  ∧ (∀ (s : State) (t1 : BitVec 8), s.enabled 0x5B = true → s.rdf R.SAL_XCFG 0 1 0 = 1 →
      ((List.range 4).any fun k => decide (10 < (t1.toInt - sfld (s.rd R.SLICE 0 k) 63 56).natAbs)) = true →
      Gives (.calStale t1) s fun t => t.rdb R.CAL_STAT 0 1 = true ∧ bit (t.hdr 0x5B hEvt) 5 = true
      ∧ Frame noRegs [] ((s.reading t1)) t)
  ∧ (∀ (s : State) (t1 : BitVec 8), s.calFar t1.toInt = false → Gives (.calStale t1) s fun t => Frame noRegs [] s t)

/-- A trigger edge is stamped; it begins the entry that waits for it 4 SCLK later, is latched otherwise, and is lost and
counted while one is latched. A schedule request issues at its slot and offset, ahead of the host's; an urgent dwell's
record is followed by the next pending request or by the sequence it interrupted. URG_CTRL and SAL_CMD start and withdraw
the host's request and clear the latch. Where the rules leave a choice its clauses rest on the model's, log entries 3,
214, 215 and 219. -/
def Obligations.SalinometerServesRequests : Prop :=
  (∀ (s : State) (x : State), s.enabled 0x5B = true → x = s.salSettle → x.sal.phase = .trigWait →
      x.sal.t0 ≤ 2 * s.time.total → Gives .trigInEdge s fun t => t.rd R.TRIG_TIME = word s.nowSclk
      ∧ t.sal = { x.sal with phase := .dwelling, trig := true, t0 := 2 * (s.time.total + 4), uncal := !x.converged }
      ∧ Frame (regsIn [R.TRIG_TIME.key 0]) [.sal] x t)
  ∧ (∀ (s : State) (x : State), s.enabled 0x5B = true → x = s.salSettle →
      x.sal.phase ≠ .trigWait ∨ 2 * s.time.total < x.sal.t0 → x.sal.trigPend = false → Gives .trigInEdge s fun t =>
      t.rd R.TRIG_TIME = word s.nowSclk ∧ t.sal = { x.sal with trigPend := true }
      ∧ Frame (regsIn [R.TRIG_TIME.key 0]) [.sal] x t)
  ∧ (∀ (s : State) (x : State), s.enabled 0x5B = true → x = s.salSettle →
      x.sal.phase ≠ .trigWait ∨ 2 * s.time.total < x.sal.t0 → x.sal.trigPend = true → Gives .trigInEdge s fun t =>
      t.rd R.TRIG_TIME = word s.nowSclk ∧ t.rdf R.SAL_CNT 0 47 32 = min (x.rdf R.SAL_CNT 0 47 32 + 1) 0xFFFF
      ∧ bit (t.hdr 0x5B hEvt) 3 = true ∧ Frame (regsIn [R.TRIG_TIME.key 0, R.SAL_CNT.key 0, regKey 0 0x5B 0 hEvt]) [] x t)
  ∧ (∀ (s : State), s.enabled 0x5B = false → Gives .trigInEdge s fun t => Frame noRegs [] s t)
  ∧ (∀ (s : State) (a : Agent), s.accepts a 0x5B R.SAL_CMD.off 2 = true → Gives (.trigClr a) s fun t =>
      t.sal = { s.sal with trigPend := false } ∧ Frame noRegs [.sal, .fab] s t)
  ∧ (∀ (s : State) (e : Word) (z : Word) (n : Nat) (x : State) (x1 : State), e = s.rd R.SAL_CAL →
      n = 256 * fld e 58 47 + fld e 46 39 → s.image.isSome = true → bit e 63 = true → s.enabled 0x5B = true →
      s.time.tide % 2 ^ fld e 62 59 = 0 → s.time.pos ≤ n → x = (s.pass (n - s.time.pos)).salSettle →
      x.sal.urg = none ∨ x.sal.urg = some (false, z) →
      x1 = (if x.sal.urg.isSome then { x with sal := { x.sal with urgH := some z } } else x) →
      Gives .salSchedRequest s fun t => t.time = x.time ∧ t.sal.phase = .schedule ∧ t.sal.urg = some (true, e)
      ∧ t.sal.resume = (if x.sal.phase = .schedule ∨ x.sal.phase = .host then x.sal.resume else x.sal.phase)
      ∧ t.sal.input = fld e 4 0 ∧ t.sal.t0 = 2 * (x.time.total + 62) ∧ t.sal.urgH = x1.sal.urgH
      ∧ Frame noRegs [] ((x1.urgStart true e x.time.total)) t)
  ∧ (∀ (s : State) (e : Word) (z : Word) (n : Nat) (x : State), e = s.rd R.SAL_CAL → n = 256 * fld e 58 47 + fld e 46 39 →
      s.image.isSome = true → bit e 63 = true → s.enabled 0x5B = true → s.time.tide % 2 ^ fld e 62 59 = 0 → s.time.pos ≤ n →
      x = (s.pass (n - s.time.pos)).salSettle → x.sal.urg = some (true, z) → x.sal.urgS = none →
      Gives .salSchedRequest s fun t => t.sal = { x.sal with urgS := some e } ∧ Frame noRegs [.sal] x t)
  ∧ (∀ (s : State) (e : Word) (z : Word) (n : Nat) (x : State), e = s.rd R.SAL_CAL → n = 256 * fld e 58 47 + fld e 46 39 →
      s.image.isSome = true → bit e 63 = true → s.enabled 0x5B = true → s.time.tide % 2 ^ fld e 62 59 = 0 → s.time.pos ≤ n →
      x = (s.pass (n - s.time.pos)).salSettle → x.sal.urg = some (true, z) → x.sal.urgS ≠ none →
      Gives .salSchedRequest s fun t => t.rdf R.SAL_CNT 0 31 16 = min (x.rdf R.SAL_CNT 0 31 16 + 1) 0xFFFF
      ∧ bit (t.hdr 0x5B hEvt) 4 = true ∧ Frame (regsIn [R.SAL_CNT.key 0, regKey 0 0x5B 0 hEvt]) [] x t)
  ∧ (∀ (s : State) (e : Word), e = s.rd R.SAL_CAL →
      s.image.isSome = false ∨ bit e 63 = false ∨ s.enabled 0x5B = false ∨ s.time.tide % 2 ^ fld e 62 59 ≠ 0 ∨ 256 * fld e 58 47 + fld e 46 39 < s.time.pos →
      Gives .salSchedRequest s fun t => Frame noRegs [] s t)
  ∧ (∀ (s : State) (a : Agent) (v : Word), s.accepts a 0x5B R.URG_CTRL.off (setBit v 63) = true → s.sal.urg = none →
      Gives (.urgCtrlGo a v) s fun t => t.sal.phase = .host ∧ t.sal.urg = some (false, setBit v 63) ∧ t.sal.input = fld v 4 0
      ∧ t.sal.t0 = 2 * ((s.time.total / 6 + 1) * 6 + 62)
      ∧ t.sal.resume = (if s.sal.phase = .schedule ∨ s.sal.phase = .host then s.sal.resume else s.sal.phase)
      ∧ Frame (regsIn [R.CAL_STAT.key 0, R.URG_CTRL.key 0]) [.sal, .fab] s t)
  ∧ (∀ (s : State) (a : Agent) (v : Word), s.accepts a 0x5B R.URG_CTRL.off (setBit v 63) = true → s.sal.urg.isSome = true →
      Gives (.urgCtrlGo a v) s fun t => t.sal = { s.sal with urgH := some (setBit v 63) }
      ∧ Frame (regsIn [R.URG_CTRL.key 0]) [.sal, .fab] s t)
  ∧ (∀ (s : State) (a : Agent), s.accepts a 0x5B R.SAL_CMD.off 1 = true → s.sal.phase ≠ .host →
      Gives (.urgCancel a) s fun t => t.sal = { s.sal with urgH := none } ∧ Frame noRegs [.sal, .fab] s t)
  ∧ (∀ (s : State) (a : Agent), s.accepts a 0x5B R.SAL_CMD.off 1 = true → s.sal.phase = .host → s.sal.urgS = none →
      Gives (.urgCancel a) s fun t => t.sal.urg = none ∧ t.sal.urgH = none
      ∧ t.sal.phase = (if s.sal.resume = .delay then .switching else s.sal.resume)
      ∧ t.sal.entry = (if s.sal.resume = .delay then s.salNext else s.sal.entry)
      ∧ Frame (regsIn [R.CAL_STAT.key 0]) [.sal, .fab] s t)
  ∧ (∀ (s : State) (a : Agent) (e : Word), s.accepts a 0x5B R.SAL_CMD.off 1 = true → s.sal.phase = .host →
      s.sal.urgS = some e → Gives (.urgCancel a) s fun t => t.sal.urg = some (true, e) ∧ t.sal.urgH = none
      ∧ t.sal.urgS = none ∧ t.sal.phase = .schedule ∧ t.sal.t0 = 2 * ((s.time.total / 6 + 1) * 6 + 62)
      ∧ Frame (regsIn [R.CAL_STAT.key 0]) [.sal, .fab] s t)
  ∧ (∀ (s : State) (codes : List RawCode) (n : Nat) (x : State), x = s.toTotal (s.sal.lastHalf / 2) →
      x.sal.urg.isSome = true → x.dwellOver codes = true → n = (x.rd R.RES_WSEQ).toNat →
      occupancy n (x.rd R.RES_RSEQ).toNat < 32 → x.sal.entry < 64 → x.sal.input < 32 → Gives (.urgentDone codes) s fun t =>
      (t.rd R.RES_WSEQ).toNat = (n + 1) % 2 ^ 32
      ∧ fld (t.rd R.RES_RW 0 (4 * (n % 32))) 31 30 = (if x.sal.urg.map (·.1) = some true then 1 else 2)
      ∧ fld (t.rd R.RES_RW 0 (4 * (n % 32) + 2)) 63 32 = 0
      ∧ Frame noRegs [] ((((x.dwellEnd codes).toTotal (x.sal.lastHalf / 2 + 1)).urgNext (x.sal.lastHalf / 2 + 1))) t)
  ∧ (∀ (s : State) (codes : List RawCode) (x : State) (y : State), x = s.toTotal (s.sal.lastHalf / 2) →
      x.sal.urg.isSome = true → x.dwellOver codes = true → y = (x.dwellEnd codes).toTotal (x.sal.lastHalf / 2 + 1) →
      Gives (.urgentDone codes) s fun t =>
      (y.sal.urgS ≠ none → t.sal.phase = .schedule ∧ t.sal.urg = y.sal.urgS.map (fun e => (true, e)) ∧ t.sal.urgS = none)
      ∧ (y.sal.urgS = none → y.sal.urgH ≠ none → t.sal.phase = .host ∧ t.sal.urg = y.sal.urgH.map (fun e => (false, e)) ∧ t.sal.urgH = none)
      ∧ (y.sal.urgS = none → y.sal.urgH = none → t.sal.urg = none ∧ t.sal.phase = (if y.sal.resume = .delay then .switching else y.sal.resume))
      ∧ Frame noRegs [] ((y.urgNext (x.sal.lastHalf / 2 + 1))) t)
  ∧ (∀ (s : State) (codes : List RawCode) (x : State), x = s.toTotal (s.sal.lastHalf / 2) →
      x.sal.urg = none ∨ x.dwellOver codes = false → Gives (.urgentDone codes) s fun t => Frame noRegs [] s t)

/-- A member that originates an LSA numbers it and sends it on every mesh link. A later LSA of another member is held and
forwarded on every other mesh link, an older or own one is counted; a close announced by the leader is committed; a cell
from a link that is no mesh link is counted; a cell that its link refuses or delays is not passed on now. An LSA is
dropped 500 us after it came. Alignment exchanges are asked for, answered and taken, within the thresholds of R494. Where
the rules leave a choice its clauses rest on the model's, log entries 3, 68, 223, 224, 225, 229, 231, 232, 233, 234, 238,
239, 270 and 278. -/
def Obligations.SalternKeepsItsView : Prop :=
  (∀ (s : State) (y : State) (c : List Word), s.meshZ ≠ 0 → s.enabled 0x5D = true →
      y = { s with mesh := { s.mesh with ownSeq := (s.mesh.ownSeq + 1) % 2 ^ 32 } } →
      c = openCell 2 (ctlWord 1 s.meshSelf) y.lsaPayload → Gives .lsaOriginate s fun t =>
      t.mesh.ownSeq = (s.mesh.ownSeq + 1) % 2 ^ 32
      ∧ (∀ q : Nat, (t.lk q).txq = (s.lk q).txq ++ if s.meshLinks.any (fun l => l.1 == q) then [c] else [])
      ∧ Frame noRegs [.mesh, .links] s t ∧ Frame noRegs [] ((y.flood none c)) t)
  ∧ (∀ (s : State), s.meshZ = 0 ∨ s.enabled 0x5D = false → Gives .lsaOriginate s fun t => Frame noRegs [] s t)
  ∧ (∀ (s : State) (q : Fin 256) (cell : List Word) (x : State) (y : State) (z : State) (o : Nat) (l : Lsa) (c : List Word),
      s.lkUp q = true → cell.length = 32 → cellType cell = 2 → fld (cellWord cell 1) 63 56 = 1 →
      s.rxInOrder q cell = (x, true) → x.rxDelay q = 0 → (x.lk q).held = [] → y = x.freeBuf q 2 →
      (y.meshPeer q).isSome = true → o = (lsaOf cell).1 → l = (lsaOf cell).2 → o ≠ y.meshSelf →
      ((y.lsaHeld o).all fun z => laterSeq l.seq z.seq) = true →
      z = { y with mesh := { y.mesh with lsas := pset y.mesh.lsas o (some { l with seenAt := y.time.total }) } } →
      c = setFld (setFld (cellWord cell 0) 31 0 0) 55 44 0 :: setFld (cellWord cell 1) 55 50 y.meshSelf :: cell.drop 2 →
      Gives (.lsaReceive q cell) s fun t => pget t.mesh.lsas o = some { l with seenAt := y.time.total }
      ∧ (∀ k : Nat, k ≠ o → pget t.mesh.lsas k = pget y.mesh.lsas k)
      ∧ (∀ j : Nat, (l.flags.getLsbD 4 && l.flags.getLsbD 3) = false → (t.lk j).txq = (y.lk j).txq ++ if y.meshLinks.any (fun z => z.1 == j) ∧ j ≠ q.val then [c] else [])
      ∧ ((l.flags.getLsbD 4 && l.flags.getLsbD 3) = false → Frame noRegs [.mesh, .links] y t)
      ∧ Frame noRegs [] (((z.flood (some q.val) c).closeAdopt o l)) t)
  ∧ (∀ (s : State) (q : Fin 256) (cell : List Word) (x : State) (y : State) (o : Nat) (l : Lsa), s.lkUp q = true →
      cell.length = 32 → cellType cell = 2 → fld (cellWord cell 1) 63 56 = 1 → s.rxInOrder q cell = (x, true) →
      x.rxDelay q = 0 → (x.lk q).held = [] → y = x.freeBuf q 2 → (y.meshPeer q).isSome = true → o = (lsaOf cell).1 →
      l = (lsaOf cell).2 → o ≠ y.meshSelf → y.lsaHeld o = none → l.flags.getLsbD 4 = true → l.flags.getLsbD 3 = true →
      y.mesh.role = .primary → l.epoch = y.time.epoch → y.closePend = false → y.time.tide + 2 ≤ (y.time.tide / 15 + 1) * 15 →
      Gives (.lsaReceive q cell) s fun t => t.rd R.STEP_SEC 0 = l.closeSec ∧ t.rd R.STEP_NS 0 = l.closeNs
      ∧ t.rd R.STEP_CTRL 0 = 1 ∧ t.fab.commits = y.fab.commits ++ [{ set := .tb0Step, wait := 1 + b2n (y.slot == 4095) }]
      ∧ pget t.mesh.lsas o = some { l with seenAt := y.time.total }
      ∧ Frame (regsIn [R.STEP_SEC.key 0, R.STEP_NS.key 0, R.STEP_CTRL.key 0]) [.mesh, .links, .fab] y t)
  ∧ (∀ (s : State) (q : Fin 256) (cell : List Word) (x : State) (y : State) (o : Nat) (l : Lsa), s.lkUp q = true →
      cell.length = 32 → cellType cell = 2 → fld (cellWord cell 1) 63 56 = 1 → s.rxInOrder q cell = (x, true) →
      x.rxDelay q = 0 → (x.lk q).held = [] → y = x.freeBuf q 2 → (y.meshPeer q).isSome = true → o = (lsaOf cell).1 →
      l = (lsaOf cell).2 → o = y.meshSelf ∨ ((y.lsaHeld o).all fun z => laterSeq l.seq z.seq) = false →
      Gives (.lsaReceive q cell) s fun t => t.rdf R.MESH_ERR 0 15 0 = min (y.rdf R.MESH_ERR 0 15 0 + 1) 0xFFFF
      ∧ t.mesh.lsas = y.mesh.lsas ∧ Frame (regsIn [R.MESH_ERR.key 0]) [] y t)
  ∧ (∀ (s : State) (q : Fin 256) (cell : List Word) (x : State) (y : State), s.lkUp q = true → cell.length = 32 →
      cellType cell = 2 → fld (cellWord cell 1) 63 56 = 1 → s.rxInOrder q cell = (x, true) → x.rxDelay q = 0 →
      (x.lk q).held = [] → y = x.freeBuf q 2 → y.meshPeer q = none → Gives (.lsaReceive q cell) s fun t =>
      t.rdf R.MESH_ERR 0 31 16 = min (y.rdf R.MESH_ERR 0 31 16 + 1) 0xFFFF ∧ Frame (regsIn [R.MESH_ERR.key 0]) [] y t)
  ∧ (∀ (s : State) (q : Fin 256) (cell : List Word) (x : State), s.lkUp q = true → cell.length = 32 → cellType cell = 2 →
      fld (cellWord cell 1) 63 56 = 1 → s.rxInOrder q cell = (x, true) → x.rxDelay q ≠ 0 ∨ (x.lk q).held ≠ [] →
      Gives (.lsaReceive q cell) s fun t => t.mesh.lsas = x.mesh.lsas
      ∧ Frame noRegs [] ((x.holdCell q cell s.phase16 s.phase16 s.phase16)) t)
  ∧ (∀ (s : State) (q : Fin 256) (cell : List Word) (x : State), s.lkUp q = true → cell.length = 32 → cellType cell = 2 →
      fld (cellWord cell 1) 63 56 = 1 → s.rxInOrder q cell = (x, false) → Gives (.lsaReceive q cell) s fun t =>
      t.mesh.lsas = x.mesh.lsas ∧ Frame noRegs [] x t)
  ∧ (∀ (s : State) (q : Fin 256) (cell : List Word),
      s.lkUp q = false ∨ cell.length ≠ 32 ∨ cellType cell ≠ 2 ∨ fld (cellWord cell 1) 63 56 ≠ 1 →
      Gives (.lsaReceive q cell) s fun t => Frame noRegs [] s t)
  ∧ (∀ (s : State) (q : Fin 256) (cell : List Word) (t2 : BitVec 24) (t3 : BitVec 24) (x : State) (y : State),
      s.lkUp q = true → cell.length = 32 → cellType cell = 2 → fld (cellWord cell 1) 63 56 = 2 →
      s.rxInOrder q cell = (x, true) → x.rxDelay q = 0 → (x.lk q).held = [] → y = x.freeBuf q 2 → y.meshPeer q = none →
      Gives (.alignReq q cell t2 t3) s fun t => t.rdf R.MESH_ERR 0 31 16 = min (y.rdf R.MESH_ERR 0 31 16 + 1) 0xFFFF
      ∧ Frame (regsIn [R.MESH_ERR.key 0]) [] y t)
  ∧ (∀ (s : State) (q : Fin 256) (cell : List Word) (t2 : BitVec 24) (t3 : BitVec 24) (x : State), s.lkUp q = true →
      cell.length = 32 → cellType cell = 2 → fld (cellWord cell 1) 63 56 = 2 → s.rxInOrder q cell = (x, true) →
      x.rxDelay q ≠ 0 ∨ (x.lk q).held ≠ [] → Gives (.alignReq q cell t2 t3) s fun t => t.mesh.lsas = x.mesh.lsas
      ∧ Frame noRegs [] ((x.holdCell q cell t2.toNat t3.toNat 0)) t)
  ∧ (∀ (s : State) (q : Fin 256) (cell : List Word) (t2 : BitVec 24) (t3 : BitVec 24) (x : State), s.lkUp q = true →
      cell.length = 32 → cellType cell = 2 → fld (cellWord cell 1) 63 56 = 2 → s.rxInOrder q cell = (x, false) →
      Gives (.alignReq q cell t2 t3) s fun t => t.mesh.lsas = x.mesh.lsas ∧ Frame noRegs [] x t)
  ∧ (∀ (s : State) (q : Fin 256) (cell : List Word) (t2 : BitVec 24) (t3 : BitVec 24),
      s.lkUp q = false ∨ cell.length ≠ 32 ∨ cellType cell ≠ 2 ∨ fld (cellWord cell 1) 63 56 ≠ 2 →
      Gives (.alignReq q cell t2 t3) s fun t => Frame noRegs [] s t)
  ∧ (∀ (s : State) (q : Fin 256) (cell : List Word) (t4 : BitVec 24) (x : State) (y : State), s.lkUp q = true →
      cell.length = 32 → cellType cell = 2 → fld (cellWord cell 1) 63 56 = 3 → s.rxInOrder q cell = (x, true) →
      x.rxDelay q = 0 → (x.lk q).held = [] → y = x.freeBuf q 2 → y.meshPeer q = none → Gives (.alignRsp q cell t4) s fun t =>
      t.rdf R.MESH_ERR 0 31 16 = min (y.rdf R.MESH_ERR 0 31 16 + 1) 0xFFFF ∧ Frame (regsIn [R.MESH_ERR.key 0]) [] y t)
  ∧ (∀ (s : State) (q : Fin 256) (cell : List Word) (t4 : BitVec 24) (x : State), s.lkUp q = true → cell.length = 32 →
      cellType cell = 2 → fld (cellWord cell 1) 63 56 = 3 → s.rxInOrder q cell = (x, true) →
      x.rxDelay q ≠ 0 ∨ (x.lk q).held ≠ [] → Gives (.alignRsp q cell t4) s fun t => t.mesh.lsas = x.mesh.lsas
      ∧ Frame noRegs [] ((x.holdCell q cell 0 0 t4.toNat)) t)
  ∧ (∀ (s : State) (q : Fin 256) (cell : List Word) (t4 : BitVec 24) (x : State), s.lkUp q = true → cell.length = 32 →
      cellType cell = 2 → fld (cellWord cell 1) 63 56 = 3 → s.rxInOrder q cell = (x, false) →
      Gives (.alignRsp q cell t4) s fun t => t.mesh.lsas = x.mesh.lsas ∧ Frame noRegs [] x t)
  ∧ (∀ (s : State) (q : Fin 256) (cell : List Word) (t4 : BitVec 24),
      s.lkUp q = false ∨ cell.length ≠ 32 ∨ cellType cell ≠ 2 ∨ fld (cellWord cell 1) 63 56 ≠ 3 →
      Gives (.alignRsp q cell t4) s fun t => Frame noRegs [] s t)
  ∧ (∀ (s : State) (k : Fin 64), s.lsaHeld k = none → Gives (.lsaExpiry k) s fun t => pget t.mesh.lsas k = none
      ∧ (∀ j : Nat, j ≠ k.val → pget t.mesh.lsas j = pget s.mesh.lsas j)
      ∧ Frame noRegs [] (({ s with mesh := { s.mesh with lsas := pset s.mesh.lsas k none } } : State)) t)
  ∧ (∀ (s : State) (k : Fin 64), (s.lsaHeld k).isSome = true → Gives (.lsaExpiry k) s fun t => Frame noRegs [] s t)
  ∧ (∀ (s : State) (q : Nat) (c : List Word), s.meshZ ≠ 0 → s.alignSrc = 2 → s.leader ≠ s.meshSelf →
      s.routeTo s.leader = some q → c = openCell 2 (ctlWord 2 s.meshSelf) (leBytes 4 (16 * s.time.pos)) →
      Gives .alignExchange s fun t => (t.lk q).txq = (s.lk q).txq ++ [c] ∧ Frame noRegs [] ((s.queueCell q c)) t)
  ∧ (∀ (s : State), s.meshZ = 0 ∨ s.alignSrc ≠ 2 ∨ s.leader = s.meshSelf ∨ s.routeTo s.leader = none →
      Gives .alignExchange s fun t => Frame noRegs [] s t)
  ∧ (∀ (s : State) (q : Fin 256) (cell : List Word) (t2 : BitVec 24) (t3 : BitVec 24) (x : State) (y : State) (c : List Word),
      s.lkUp q = true → cell.length = 32 → cellType cell = 2 → fld (cellWord cell 1) 63 56 = 2 →
      s.rxInOrder q cell = (x, true) → x.rxDelay q = 0 → (x.lk q).held = [] → y = x.freeBuf q 2 →
      (y.meshPeer q).isSome = true →
      c = openCell 2 (ctlWord 3 y.meshSelf) (leBytes 4 (cellField cell 16 4) ++ leBytes 4 t2.toNat ++ leBytes 4 t3.toNat) →
      Gives (.alignReq q cell t2 t3) s fun t => (t.lk q).txq = (y.lk q).txq ++ [c] ∧ Frame noRegs [] ((y.queueCell q c)) t)
  ∧ (∀ (s : State) (q : Fin 256) (cell : List Word) (t4 : BitVec 24) (x : State) (y : State) (n : Int), s.lkUp q = true →
      cell.length = 32 → cellType cell = 2 → fld (cellWord cell 1) 63 56 = 3 → s.rxInOrder q cell = (x, true) →
      x.rxDelay q = 0 → (x.lk q).held = [] → y = x.freeBuf q 2 → (y.meshPeer q).isSome = true → y.alignSrc = 2 →
      n = exchangeOfs (cellField cell 16 4) (cellField cell 20 4) (cellField cell 24 4) t4.toNat →
      Gives (.alignRsp q cell t4) s fun t =>
      t.mesh = { y.mesh with ofs := n, aligned := (decide (n.natAbs ≤ 32) || (decide (n.natAbs ≤ 64) && y.mesh.aligned && y.measured)), measAt := y.time.total, viewSince := t.mesh.viewSince }
      ∧ (y.isAligned = true → t.isAligned = false → bit (t.hdr 0x5D hEvt) 1 = true) ∧ Frame noRegs [.mesh] y t)
  ∧ (∀ (s : State) (q : Fin 256) (cell : List Word) (t4 : BitVec 24) (x : State) (y : State), s.lkUp q = true →
      cell.length = 32 → cellType cell = 2 → fld (cellWord cell 1) 63 56 = 3 → s.rxInOrder q cell = (x, true) →
      x.rxDelay q = 0 → (x.lk q).held = [] → y = x.freeBuf q 2 → (y.meshPeer q).isSome = true → y.alignSrc ≠ 2 →
      Gives (.alignRsp q cell t4) s fun t => Frame noRegs [] y t)
  ∧ (∀ (s : State) (phase : Int) (n : Int), s.meshZ ≠ 0 → s.alignSrc = 1 →
      n = wrapOfs (-(phase - sfld (s.rd R.ALIGN_CFG) 39 8 * 3 / 125)) → Gives (.syncInEdge phase) s fun t =>
      t.mesh = { s.mesh with ofs := n, aligned := (decide (n.natAbs ≤ 32) || (decide (n.natAbs ≤ 64) && s.mesh.aligned && s.measured)), measAt := s.time.total, viewSince := t.mesh.viewSince }
      ∧ (s.isAligned = true → t.isAligned = false → bit (t.hdr 0x5D hEvt) 1 = true) ∧ Frame noRegs [.mesh] s t)
  ∧ (∀ (s : State) (phase : Int), s.meshZ = 0 ∨ s.alignSrc ≠ 1 → Gives (.syncInEdge phase) s fun t => Frame noRegs [] s t)
  ∧ (∀ (s : State), s.mesh.measAt + 1500000 ≤ s.time.total → Gives .alignTimeout s fun t =>
      t.mesh = { s.mesh with aligned := false, viewSince := t.mesh.viewSince } ∧ Frame noRegs [.mesh] s t)
  ∧ (∀ (s : State), s.time.total < s.mesh.measAt + 1500000 → Gives .alignTimeout s fun t => Frame noRegs [] s t)

/-- A granted transaction to a member of this member's part leaves as request cells under tags; one to a member outside the
part gets an error response and is counted; one that the firewall refuses gets an error response. A member serves the
oldest request cell for it through its firewall and heap bridge, or answers it with an error. A response completes its
part; one that does not come in time frees its tag with an error. Where the rules leave a choice its clauses rest on the
model's, log entries 3, 236, 237, 238, 270 and 279. -/
def Obligations.SalternCarriesTransactions : Prop :=
  (∀ (s : State) (r : XbarReq) (id : Nat) (k : Nat) (x : State) (y : State) (u : Txn) (row : MapRow) (q : Nat) (a : Nat),
      id = (s.request r.master r.secure r.write r.addr.toNat r.len r.data none .outside).1 →
      x = (s.request r.master r.secure r.write r.addr.toNat r.len r.data none .outside).2 → pget x.xbar.txns id = some u →
      u.port = 7 →
      y = { x with xbar := { x.xbar with winners := mset (fun _ => 8) x.xbar.winners u.port u.master, txns := pset x.xbar.txns id (some { u with gen := some (x.rdf R.FW_GEN 0 31 0) }) } } →
      rowOfRange u.addr u.len = some row → row.2.2 = .mesh k → x.fwRefusal u.master u.secure u.write u.addr u.len = none →
      k ≠ s.meshSelf → bit s.partMask k = true → s.routeTo k = some q → a = u.addr % 2 ^ 40 → 0 < r.len →
      r.len ≤ 192 - a % 64 → s.mesh.tags.length < 4096 → s.mesh.nextTag < 4096 → pget s.mesh.tags s.mesh.nextTag = none →
      Gives (.meshRequest r) s fun t =>
      pget t.mesh.tags s.mesh.nextTag = some { txn := id, ofs := 0, len := r.len, since := s.time.total }
      ∧ t.mesh.nextTag = (s.mesh.nextTag + 1) % 4096
      ∧ (t.lk q).txq = (s.lk q).txq ++ [openCell 3 (meshWord (b2n r.write) false r.secure r.master s.meshSelf k a) (meshPayload s.mesh.nextTag (if r.write then 0 else r.len) (if r.write then r.data.take r.len else []))]
      ∧ (pget t.xbar.txns id).map (fun z => (z.left, z.resp)) = some (1, none) ∧ Frame noRegs [.xbar, .mesh, .links] s t
      ∧ Frame noRegs [] ((y.meshCarry id k)) t)
  ∧ (∀ (s : State) (r : XbarReq) (id : Nat) (k : Nat) (x : State) (y : State) (u : Txn) (row : MapRow),
      id = (s.request r.master r.secure r.write r.addr.toNat r.len r.data none .outside).1 →
      x = (s.request r.master r.secure r.write r.addr.toNat r.len r.data none .outside).2 → pget x.xbar.txns id = some u →
      u.port = 7 →
      y = { x with xbar := { x.xbar with winners := mset (fun _ => 8) x.xbar.winners u.port u.master, txns := pset x.xbar.txns id (some { u with gen := some (x.rdf R.FW_GEN 0 31 0) }) } } →
      rowOfRange u.addr u.len = some row → row.2.2 = .mesh k → x.fwRefusal u.master u.secure u.write u.addr u.len = none →
      k ≠ s.meshSelf ∨ s.meshZ = 0 → bit s.partMask k = true → Gives (.meshRequest r) s fun t =>
      Frame noRegs [] ((y.meshCarry id k)) t)
  ∧ (∀ (s : State) (r : XbarReq) (id : Nat) (k : Nat) (x : State) (y : State) (u : Txn) (row : MapRow),
      id = (s.request r.master r.secure r.write r.addr.toNat r.len r.data none .outside).1 →
      x = (s.request r.master r.secure r.write r.addr.toNat r.len r.data none .outside).2 → pget x.xbar.txns id = some u →
      u.port = 7 →
      y = { x with xbar := { x.xbar with winners := mset (fun _ => 8) x.xbar.winners u.port u.master, txns := pset x.xbar.txns id (some { u with gen := some (x.rdf R.FW_GEN 0 31 0) }) } } →
      rowOfRange u.addr u.len = some row → row.2.2 = .mesh k → x.fwRefusal u.master u.secure u.write u.addr u.len = none →
      k ≠ s.meshSelf ∨ s.meshZ = 0 → bit s.partMask k = false → Gives (.meshRequest r) s fun t =>
      (pget t.xbar.txns id).bind (·.resp) = some (true, false, [])
      ∧ t.rdf R.MESH_ERR 0 47 32 = min (s.rdf R.MESH_ERR 0 47 32 + 1) 0xFFFF
      ∧ Frame noRegs [] (((y.countf R.MESH_ERR 0 47 32).respond id true false [])) t)
  ∧ (∀ (s : State) (r : XbarReq) (id : Nat) (k : Nat) (x : State) (y : State) (u : Txn) (row : MapRow),
      id = (s.request r.master r.secure r.write r.addr.toNat r.len r.data none .outside).1 →
      x = (s.request r.master r.secure r.write r.addr.toNat r.len r.data none .outside).2 → pget x.xbar.txns id = some u →
      u.port = 7 →
      y = { x with xbar := { x.xbar with winners := mset (fun _ => 8) x.xbar.winners u.port u.master, txns := pset x.xbar.txns id (some { u with gen := some (x.rdf R.FW_GEN 0 31 0) }) } } →
      rowOfRange u.addr u.len = some row → row.2.2 = .mesh k → x.fwRefusal u.master u.secure u.write u.addr u.len = none →
      k = s.meshSelf → s.meshZ ≠ 0 → Gives (.meshRequest r) s fun t =>
      (pget t.xbar.txns id).bind (·.resp) = some (true, false, [])
      ∧ Frame noRegs [] (((y.decodeError u.master u.write u.secure u.addr).respond id true false [])) t)
  ∧ (∀ (s : State) (r : XbarReq) (id : Nat) (k : Nat) (x : State) (y : State) (u : Txn) (row : MapRow) (c : Nat) (i : Nat),
      id = (s.request r.master r.secure r.write r.addr.toNat r.len r.data none .outside).1 →
      x = (s.request r.master r.secure r.write r.addr.toNat r.len r.data none .outside).2 → pget x.xbar.txns id = some u →
      u.port = 7 →
      y = { x with xbar := { x.xbar with winners := mset (fun _ => 8) x.xbar.winners u.port u.master, txns := pset x.xbar.txns id (some { u with gen := some (x.rdf R.FW_GEN 0 31 0) }) } } →
      rowOfRange u.addr u.len = some row → row.2.2 = .mesh k →
      x.fwRefusal u.master u.secure u.write u.addr u.len = some (c, i) → Gives (.meshRequest r) s fun t =>
      (pget t.xbar.txns id).bind (·.resp) = some (true, false, []) ∧ t.rd R.FW_DENIED = satWord (s.rd R.FW_DENIED) 1
      ∧ Frame noRegs [] (((y.fwDenied u.master u.write u.secure c i u.addr).respond id true false [])) t)
  ∧ (∀ (s : State) (r : XbarReq) (id : Nat) (x : State) (u : Txn),
      id = (s.request r.master r.secure r.write r.addr.toNat r.len r.data none .outside).1 →
      x = (s.request r.master r.secure r.write r.addr.toNat r.len r.data none .outside).2 → pget x.xbar.txns id = some u →
      u.port ≠ 7 → Gives (.meshRequest r) s fun t => Frame noRegs [] s t)
  ∧ (∀ (s : State) (q : Nat) (c : List Word) (rest : List (Nat × List Word)) (x : State) (m : Nat) (a : Nat) (src : Nat) (tag : Nat) (n : Nat) (w : Bool) (sec : Bool) (id : Nat) (u : Txn) (y : State) (z : State),
      takeFirst isRequest s.mesh.inbox = some ((q, c), rest) →
      x = { s with mesh := { s.mesh with inbox := rest } }.freeBuf q 3 → m = fld (cellWord c 1) 59 56 →
      a = fld (cellWord c 1) 39 0 → w = decide (fld (cellWord c 1) 63 62 = 1) → sec = bit (cellWord c 1) 60 →
      src = fld (cellWord c 1) 55 50 → tag = cellField c 16 2 % 4096 →
      n = (if fld (cellWord c 1) 63 62 = 1 then fld (cellWord c 0) 43 32 - 8 else cellField c 18 2) → a < heapBytes →
      x.fwRefusal m sec w a n = none →
      id = (x.request m sec w a n (((cellBytes c).drop 24).take n) none (.mesh src tag m)).1 →
      y = (x.request m sec w a n (((cellBytes c).drop 24).take n) none (.mesh src tag m)).2 → pget y.xbar.txns id = some u →
      z = y.setTxn id (some { u with gen := some (s.rdf R.FW_GEN 0 31 0), addr := a, port := 0 }) →
      w = false ∨ x.weightRefused a n = false → Gives .meshServe s fun t => t.mesh.inbox = rest
      ∧ Frame noRegs [] ((z.heapAccept id)) t)
  ∧ (∀ (s : State) (q : Nat) (c : List Word) (rest : List (Nat × List Word)) (x : State) (m : Nat) (a : Nat) (src : Nat) (tag : Nat) (n : Nat) (w : Bool) (sec : Bool),
      takeFirst isRequest s.mesh.inbox = some ((q, c), rest) →
      x = { s with mesh := { s.mesh with inbox := rest } }.freeBuf q 3 → m = fld (cellWord c 1) 59 56 →
      a = fld (cellWord c 1) 39 0 → w = decide (fld (cellWord c 1) 63 62 = 1) → sec = bit (cellWord c 1) 60 →
      src = fld (cellWord c 1) 55 50 → tag = cellField c 16 2 % 4096 →
      n = (if fld (cellWord c 1) 63 62 = 1 then fld (cellWord c 0) 43 32 - 8 else cellField c 18 2) → a < heapBytes →
      x.fwRefusal m sec w a n = none → w = false → 0 < n → a % 64 + n ≤ 64 → a + n ≤ heapBytes →
      s.hasOpen 0 (hPch a) = true → s.serves (hCtl a) = true → s.bridgeRefuses (hCtl a) = false → Gives .meshServe s fun t =>
      t.mesh.inbox = rest ∧ (t.pc (hPch a)).queue.length = (s.pc (hPch a)).queue.length + 1
      ∧ (t.pc (hPch a)).queue.getLast?.map (fun z => (z.txn, z.write, z.parts.map (fun u => (u.addr, u.lo, u.len)))) = some (s.xbar.next, false, [(a - a % 64, a % 64, n)])
      ∧ (pget t.xbar.txns s.xbar.next).map (fun z => (z.master, z.secure, z.write, z.origin)) = some (m, sec, false, .mesh src tag m)
      ∧ Frame noRegs [.xbar, .mesh, .heap] x t)
  ∧ (∀ (s : State) (q : Nat) (c : List Word) (rest : List (Nat × List Word)) (x : State) (m : Nat) (a : Nat) (src : Nat) (tag : Nat) (n : Nat) (w : Bool) (sec : Bool) (id : Nat) (u : Txn) (y : State) (z : State),
      takeFirst isRequest s.mesh.inbox = some ((q, c), rest) →
      x = { s with mesh := { s.mesh with inbox := rest } }.freeBuf q 3 → m = fld (cellWord c 1) 59 56 →
      a = fld (cellWord c 1) 39 0 → w = decide (fld (cellWord c 1) 63 62 = 1) → sec = bit (cellWord c 1) 60 →
      src = fld (cellWord c 1) 55 50 → tag = cellField c 16 2 % 4096 →
      n = (if fld (cellWord c 1) 63 62 = 1 then fld (cellWord c 0) 43 32 - 8 else cellField c 18 2) → a < heapBytes →
      x.fwRefusal m sec w a n = none →
      id = (x.request m sec w a n (((cellBytes c).drop 24).take n) none (.mesh src tag m)).1 →
      y = (x.request m sec w a n (((cellBytes c).drop 24).take n) none (.mesh src tag m)).2 → pget y.xbar.txns id = some u →
      z = y.setTxn id (some { u with gen := some (s.rdf R.FW_GEN 0 31 0), addr := a, port := 0 }) → w = true →
      x.weightRefused a n = true → Gives .meshServe s fun t => t.mesh.inbox = rest
      ∧ t.rd R.WT_REFUSED = satWord (s.rd R.WT_REFUSED) 1
      ∧ Frame noRegs [] (((z.count R.WT_REFUSED 0).respond id true false [])) t)
  ∧ (∀ (s : State) (q : Nat) (c : List Word) (rest : List (Nat × List Word)) (x : State) (m : Nat) (a : Nat) (src : Nat) (tag : Nat) (n : Nat) (w : Bool) (sec : Bool),
      takeFirst isRequest s.mesh.inbox = some ((q, c), rest) →
      x = { s with mesh := { s.mesh with inbox := rest } }.freeBuf q 3 → m = fld (cellWord c 1) 59 56 →
      a = fld (cellWord c 1) 39 0 → w = decide (fld (cellWord c 1) 63 62 = 1) → sec = bit (cellWord c 1) 60 →
      src = fld (cellWord c 1) 55 50 → tag = cellField c 16 2 % 4096 →
      n = (if fld (cellWord c 1) 63 62 = 1 then fld (cellWord c 0) 43 32 - 8 else cellField c 18 2) → heapBytes ≤ a →
      Gives .meshServe s fun t => t.mesh.inbox = rest ∧ Frame noRegs [] ((x.meshRespond src tag m w sec true a [])) t)
  ∧ (∀ (s : State) (q : Nat) (c : List Word) (rest : List (Nat × List Word)) (x : State) (m : Nat) (a : Nat) (src : Nat) (tag : Nat) (n : Nat) (w : Bool) (sec : Bool) (k : Nat) (i : Nat),
      takeFirst isRequest s.mesh.inbox = some ((q, c), rest) →
      x = { s with mesh := { s.mesh with inbox := rest } }.freeBuf q 3 → m = fld (cellWord c 1) 59 56 →
      a = fld (cellWord c 1) 39 0 → w = decide (fld (cellWord c 1) 63 62 = 1) → sec = bit (cellWord c 1) 60 →
      src = fld (cellWord c 1) 55 50 → tag = cellField c 16 2 % 4096 →
      n = (if fld (cellWord c 1) 63 62 = 1 then fld (cellWord c 0) 43 32 - 8 else cellField c 18 2) → a < heapBytes →
      x.fwRefusal m sec w a n = some (k, i) → Gives .meshServe s fun t => t.mesh.inbox = rest
      ∧ t.rd R.FW_DENIED = satWord (s.rd R.FW_DENIED) 1
      ∧ Frame noRegs [] (((x.fwDenied m w sec k i a).meshRespond src tag m w sec true a [])) t)
  ∧ (∀ (s : State), takeFirst isRequest s.mesh.inbox = none → Gives .meshServe s fun t => Frame noRegs [] s t)
  ∧ (∀ (s : State) (q : Nat) (tag : Nat) (c : List Word) (rest : List (Nat × List Word)) (x : State) (m : MeshTag) (y : Txn),
      takeFirst (fun z => !isRequest z) s.mesh.inbox = some ((q, c), rest) →
      x = { s with mesh := { s.mesh with inbox := rest } }.freeBuf q 3 → tag = cellField c 16 2 % 4096 →
      pget s.mesh.tags tag = some m → pget s.xbar.txns m.txn = some y → y.resp = none → bit (cellWord c 1) 61 = false →
      y.write = false → y.left = 1 → Gives .meshResponse s fun t => t.mesh.inbox = rest ∧ pget t.mesh.tags tag = none
      ∧ (pget t.xbar.txns m.txn).bind (·.resp) = some (y.bad, y.bad, y.data.take m.ofs ++ ((cellBytes c).drop 24).take m.len ++ y.data.drop (m.ofs + (((cellBytes c).drop 24).take m.len).length))
      ∧ Frame noRegs [.xbar, .mesh] x t)
  ∧ (∀ (s : State) (q : Nat) (tag : Nat) (c : List Word) (rest : List (Nat × List Word)) (x : State) (m : MeshTag) (y : Txn),
      takeFirst (fun z => !isRequest z) s.mesh.inbox = some ((q, c), rest) →
      x = { s with mesh := { s.mesh with inbox := rest } }.freeBuf q 3 → tag = cellField c 16 2 % 4096 →
      pget s.mesh.tags tag = some m → pget s.xbar.txns m.txn = some y → y.resp = none → bit (cellWord c 1) 61 = true →
      Gives .meshResponse s fun t => t.mesh.inbox = rest ∧ pget t.mesh.tags tag = none
      ∧ (pget t.xbar.txns m.txn).bind (·.resp) = some (true, false, []) ∧ Frame noRegs [.xbar, .mesh] x t)
  ∧ (∀ (s : State) (q : Nat) (tag : Nat) (c : List Word) (rest : List (Nat × List Word)) (x : State),
      takeFirst (fun z => !isRequest z) s.mesh.inbox = some ((q, c), rest) →
      x = { s with mesh := { s.mesh with inbox := rest } }.freeBuf q 3 → tag = cellField c 16 2 % 4096 →
      Gives .meshResponse s fun t => t.mesh.inbox = rest
      ∧ Frame noRegs [] ((x.meshDone tag (bit (cellWord c 1) 61) ((cellBytes c).drop 24))) t)
  ∧ (∀ (s : State), takeFirst (fun z => !isRequest z) s.mesh.inbox = none → Gives .meshResponse s fun t =>
      Frame noRegs [] s t)
  ∧ (∀ (s : State) (tag : Fin 4096) (m : MeshTag) (y : Txn), pget s.mesh.tags tag = some m →
      pget s.xbar.txns m.txn = some y → y.resp = none → m.since + 1500 * s.rdf R.MESH_TMO 0 15 0 ≤ s.time.total →
      Gives (.meshTimeout tag) s fun t => pget t.mesh.tags tag = none
      ∧ (pget t.xbar.txns m.txn).bind (·.resp) = some (true, false, [])
      ∧ t.rdf R.MESH_ERR 0 63 48 = min (s.rdf R.MESH_ERR 0 63 48 + 1) 0xFFFF
      ∧ Frame (regsIn [R.MESH_ERR.key 0]) [.xbar, .mesh] s t)
  ∧ (∀ (s : State) (tag : Fin 4096) (m : MeshTag), pget s.mesh.tags tag = some m →
      m.since + 1500 * s.rdf R.MESH_TMO 0 15 0 ≤ s.time.total → Gives (.meshTimeout tag) s fun t =>
      pget t.mesh.tags tag = none ∧ t.rdf R.MESH_ERR 0 63 48 = min (s.rdf R.MESH_ERR 0 63 48 + 1) 0xFFFF
      ∧ Frame noRegs [] (((s.countf R.MESH_ERR 0 63 48).meshDone tag true [])) t)
  ∧ (∀ (s : State) (tag : Fin 4096),
      ((pget s.mesh.tags tag).all fun m => decide (s.time.total < m.since + 1500 * s.rdf R.MESH_TMO 0 15 0)) = true →
      Gives (.meshTimeout tag) s fun t => Frame noRegs [] s t)

/-- The collector records the next latch, a fatal one before any other, as the ring's next entry, in the RCLK in which it
can; a full ring overwrites its oldest; the first fatal entry is held in the first-fault set. The registers advance and
empty the ring, empty the first-fault set and ask for a summary, which is written to the copy not in force at least 60 s
after the previous one. Where the rules leave a choice its clauses rest on the model's, log entries 3, 240, 242, 243,
244, 245 and 246. -/
def Obligations.BitternRecordsAndSummarizes : Prop :=
  (∀ (s : State) (n : Nat) (x : State) (l : Latch) (ws : List Word), s.bitt.nextAt = some n → x = s.waitTo (6 * n) →
      x.bitt.pick x.rclk = some l → ws = l.entry x.bitt.wseq (mget (fun _ => 0) x.bitt.suppressed l.src) → l.fatal = false →
      Gives .bitternRecord s fun t =>
      t.bitt = { x.bitt with latches := x.bitt.latches.filter (fun z => z.src ≠ l.src), recAt := x.rclk + 1, suppressed := mset (fun _ => 0) x.bitt.suppressed l.src 0, newCounts := mset (fun _ => 0) x.bitt.newCounts (l.src % 256) (mget (fun _ => 0) x.bitt.newCounts (l.src % 256) + 1), ring := t.bitt.ring, wseq := (x.bitt.wseq + 1) % 2 ^ 32, rseq := (if occupancy x.bitt.wseq x.bitt.rseq = 4096 then (x.bitt.rseq + 1) % 2 ^ 32 else x.bitt.rseq), posOther := some l.src }
      ∧ (∀ k : Nat, k < 8 → mget (fun _ => 0) t.bitt.ring (8 * (x.bitt.wseq % 4096) + k) = ws.getD k 0)
      ∧ (∀ k : Nat, k / 8 ≠ x.bitt.wseq % 4096 → mget (fun _ => 0) t.bitt.ring k = mget (fun _ => 0) x.bitt.ring k)
      ∧ bit (t.hdr 0x0B hEvt) 0 = true
      ∧ (occupancy x.bitt.wseq x.bitt.rseq = 4096 → bit (t.hdr 0x0B hEvt) 2 = true ∧ t.rd R.ERR_OVERWRITTEN = satWord (x.rd R.ERR_OVERWRITTEN) 1)
      ∧ (occupancy x.bitt.wseq x.bitt.rseq ≠ 4096 → t.rd R.ERR_OVERWRITTEN = x.rd R.ERR_OVERWRITTEN)
      ∧ Frame (regsIn [regKey 0 0x0B 0 hEvt, R.ERR_OVERWRITTEN.key 0]) [.bitt] x t)
  ∧ (∀ (s : State) (n : Nat) (x : State) (l : Latch) (ws : List Word), s.bitt.nextAt = some n → x = s.waitTo (6 * n) →
      x.bitt.pick x.rclk = some l → ws = l.entry x.bitt.wseq (mget (fun _ => 0) x.bitt.suppressed l.src) → l.fatal = true →
      x.bitt.ffHeld = false → Gives .bitternRecord s fun t =>
      t.bitt = { x.bitt with latches := x.bitt.latches.filter (fun z => z.src ≠ l.src), recAt := x.rclk + 1, suppressed := mset (fun _ => 0) x.bitt.suppressed l.src 0, newCounts := mset (fun _ => 0) x.bitt.newCounts (l.src % 256) (mget (fun _ => 0) x.bitt.newCounts (l.src % 256) + 1), ring := t.bitt.ring, wseq := (x.bitt.wseq + 1) % 2 ^ 32, rseq := (if occupancy x.bitt.wseq x.bitt.rseq = 4096 then (x.bitt.rseq + 1) % 2 ^ 32 else x.bitt.rseq), posFatal := some l.src, sumDue := true, newFatal := x.bitt.newFatal ++ [ws], lastFatal := some (x.rclk, ws), ffHeld := true }
      ∧ (∀ k : Nat, k < 8 → mget (fun _ => 0) t.bitt.ring (8 * (x.bitt.wseq % 4096) + k) = ws.getD k 0)
      ∧ (∀ k : Nat, k / 8 ≠ x.bitt.wseq % 4096 → mget (fun _ => 0) t.bitt.ring k = mget (fun _ => 0) x.bitt.ring k)
      ∧ bit (t.hdr 0x0B hEvt) 0 = true
      ∧ (occupancy x.bitt.wseq x.bitt.rseq = 4096 → bit (t.hdr 0x0B hEvt) 2 = true ∧ t.rd R.ERR_OVERWRITTEN = satWord (x.rd R.ERR_OVERWRITTEN) 1)
      ∧ (occupancy x.bitt.wseq x.bitt.rseq ≠ 4096 → t.rd R.ERR_OVERWRITTEN = x.rd R.ERR_OVERWRITTEN)
      ∧ t.rd R.FF_W0 = ws.getD 0 0 ∧ t.rd R.FF_W1 = ws.getD 2 0 ∧ t.rd R.FF_W2 = ws.getD 4 0 ∧ t.rd R.FF_W3 = ws.getD 5 0
      ∧ bit (t.hdr 0x0B hEvt) 1 = true
      ∧ (x.sup.ready = false → t.cmds.kept = x.cmds.kept ++ [(0x8009, [ws.getD 0 0, ws.getD 2 0, ws.getD 4 0, ws.getD 5 0])])
      ∧ Frame (regsIn (regKey 0 0x0B 0 hEvt :: R.ERR_OVERWRITTEN.key 0 :: R.FF_W0.key 0 :: R.FF_W1.key 0 :: R.FF_W2.key 0 :: R.FF_W3.key 0 :: R.XB_DECODE.key 0 :: R.FW_LAST.key 0 :: regKey 0 0x0C 0 hEvt :: regKey 0 0x0E 0 hEvt :: (List.range 16).map (fun k => R.CQ_CNT.key 0 k))) [.bitt, .cmds, .net, .xbar, .free] x t)
  ∧ (∀ (s : State) (n : Nat) (x : State) (l : Latch) (ws : List Word), s.bitt.nextAt = some n → x = s.waitTo (6 * n) →
      x.bitt.pick x.rclk = some l → ws = l.entry x.bitt.wseq (mget (fun _ => 0) x.bitt.suppressed l.src) → l.fatal = true →
      x.bitt.ffHeld = true → Gives .bitternRecord s fun t =>
      t.bitt = { x.bitt with latches := x.bitt.latches.filter (fun z => z.src ≠ l.src), recAt := x.rclk + 1, suppressed := mset (fun _ => 0) x.bitt.suppressed l.src 0, newCounts := mset (fun _ => 0) x.bitt.newCounts (l.src % 256) (mget (fun _ => 0) x.bitt.newCounts (l.src % 256) + 1), ring := t.bitt.ring, wseq := (x.bitt.wseq + 1) % 2 ^ 32, rseq := (if occupancy x.bitt.wseq x.bitt.rseq = 4096 then (x.bitt.rseq + 1) % 2 ^ 32 else x.bitt.rseq), posFatal := some l.src, sumDue := true, newFatal := x.bitt.newFatal ++ [ws], lastFatal := some (x.rclk, ws) }
      ∧ (∀ k : Nat, k < 8 → mget (fun _ => 0) t.bitt.ring (8 * (x.bitt.wseq % 4096) + k) = ws.getD k 0)
      ∧ (∀ k : Nat, k / 8 ≠ x.bitt.wseq % 4096 → mget (fun _ => 0) t.bitt.ring k = mget (fun _ => 0) x.bitt.ring k)
      ∧ bit (t.hdr 0x0B hEvt) 0 = true
      ∧ (occupancy x.bitt.wseq x.bitt.rseq = 4096 → bit (t.hdr 0x0B hEvt) 2 = true ∧ t.rd R.ERR_OVERWRITTEN = satWord (x.rd R.ERR_OVERWRITTEN) 1)
      ∧ (occupancy x.bitt.wseq x.bitt.rseq ≠ 4096 → t.rd R.ERR_OVERWRITTEN = x.rd R.ERR_OVERWRITTEN)
      ∧ Frame (regsIn [regKey 0 0x0B 0 hEvt, R.ERR_OVERWRITTEN.key 0]) [.bitt] x t)
  ∧ (∀ (s : State), s.bitt.latches = [] → Gives .bitternRecord s fun t => Frame noRegs [] s t)
  ∧ (∀ (s : State) (a : Agent) (v : Word), s.accepts a 0x0B R.ERR_RSEQ.off v = true → Gives (.errRseqWrite a v) s fun t =>
      t.bitt = { s.bitt with rseq := fld v 31 0 } ∧ Frame noRegs [.bitt, .fab] s t)
  ∧ (∀ (s : State) (a : Agent), s.accepts a 0x0B R.ERR_CMD.off 4 = true → Gives (.sumWrite a) s fun t =>
      t.bitt = { s.bitt with sumDue := true } ∧ Frame noRegs [.bitt, .fab] s t)
  ∧ (∀ (s : State) (a : Agent), s.accepts a 0x0B R.ERR_CMD.off 2 = true → Gives (.ringClr a) s fun t =>
      t.bitt = { s.bitt with wseq := 0, rseq := 0, posFatal := none, posOther := none } ∧ Frame noRegs [.bitt, .fab] s t)
  ∧ (∀ (s : State) (a : Agent), s.accepts a 0x0B R.ERR_CMD.off 1 = true →
      (s.bitt.lastFatal.all fun z => decide (z.1 ≠ s.rclk)) = true → Gives (.ffClr a) s fun t =>
      t.bitt = { s.bitt with ffHeld := false } ∧ t.rd R.FF_W0 = 0 ∧ t.rd R.FF_W1 = 0 ∧ t.rd R.FF_W2 = 0 ∧ t.rd R.FF_W3 = 0
      ∧ Frame (regsIn [R.FF_W0.key 0, R.FF_W1.key 0, R.FF_W2.key 0, R.FF_W3.key 0]) [.bitt, .fab] s t)
  ∧ (∀ (s : State) (a : Agent) (ws : List Word), s.accepts a 0x0B R.ERR_CMD.off 1 = true →
      s.bitt.lastFatal = some (s.rclk, ws) → s.bitt.ffHeld = true → s.rd R.FF_W0 = ws.getD 0 0 → Gives (.ffClr a) s fun t =>
      Frame noRegs [.fab] s t)
  ∧ (∀ (s : State) (a : Agent) (ws : List Word), s.accepts a 0x0B R.ERR_CMD.off 1 = true →
      s.bitt.lastFatal = some (s.rclk, ws) → s.bitt.ffHeld = false ∨ s.rd R.FF_W0 ≠ ws.getD 0 0 → Gives (.ffClr a) s fun t =>
      t.bitt = { s.bitt with ffHeld := true } ∧ t.rd R.FF_W0 = ws.getD 0 0 ∧ t.rd R.FF_W1 = ws.getD 2 0
      ∧ t.rd R.FF_W2 = ws.getD 4 0 ∧ t.rd R.FF_W3 = ws.getD 5 0 ∧ bit (t.hdr 0x0B hEvt) 1 = true
      ∧ Frame (regsIn (regKey 0 0x0B 0 hEvt :: R.FF_W0.key 0 :: R.FF_W1.key 0 :: R.FF_W2.key 0 :: R.FF_W3.key 0 :: R.XB_DECODE.key 0 :: R.FW_LAST.key 0 :: regKey 0 0x0C 0 hEvt :: regKey 0 0x0E 0 hEvt :: (List.range 16).map (fun k => R.CQ_CNT.key 0 k))) [.bitt, .fab, .cmds, .net, .xbar, .free] s t)
  ∧ (∀ (s : State) (x : State) (n : Nat) (k : Nat), s.bitt.sumDue = true → s.supervised = true → s.tam.hold = false →
      x = s.waitTo ((s.bitt.sumLast.map fun m => (m + 60) * sclkSec).getD 0) → k = (if x.sumPlace = some 0 then 1 else 0) →
      n = x.sumPlace.elim 1 (fun j => (x.nv.nvm.word (sumBase j + 8)).toNat + 1) → Gives .summaryWrite s fun t =>
      t.bitt = { x.bitt with sumDue := false, sumLast := some x.tb2Sec, newCounts := [], newFatal := [] }
      ∧ t.nv.nvm.word (sumBase k) = 0x314E525442564E58 ∧ t.nv.nvm.word (sumBase k + 8) = word n
      ∧ t.nv.nvm.word (sumBase k + 16) = word x.tb2Sec ∧ t.nv.nvm.word (sumBase k + 64) = x.rd R.FF_W0
      ∧ t.nv.nvm.word (sumBase k + 72) = x.rd R.FF_W1 ∧ t.nv.nvm.word (sumBase k + 80) = x.rd R.FF_W2
      ∧ t.nv.nvm.word (sumBase k + 88) = x.rd R.FF_W3
      ∧ (∀ c : Nat, c < 256 → t.nv.nvm.word (sumBase k + 128 + 8 * c) = satWord (x.sumPlace.elim 0 (fun j => x.nv.nvm.word (sumBase j + 128 + 8 * c))) (mget (fun _ => 0) x.bitt.newCounts c))
      ∧ (∀ y : Nat, y < sumBase k ∨ sumBase k + 0x20000 ≤ y → t.nv.nvm.byte y = x.nv.nvm.byte y)
      ∧ Frame noRegs [.bitt, .nv] x t)
  ∧ (∀ (s : State), s.bitt.sumDue = false ∨ s.supervised = false ∨ s.tam.hold = true → Gives .summaryWrite s fun t =>
      Frame noRegs [] s t)

/-- Test mode is entered and left by TEST_CTRL; leaving it zeroes every perturbation. A self-test leaves its group's memories
zero and shows its result, with a report if an element failed. Instructions that take the pins over hold the core in
reset once the posted writes are applied, and leaving them lets it restart; TRST_N selects IDCODE. What the controllers
do with a packet buffer's link credits on a self-test is the model's choice. Where the rules leave a choice its clauses
rest on the model's, log entries 3, 247, 248, 249 and 250. -/
def Obligations.TestModeSelfTestAndTap : Prop :=
  (∀ (s : State) (a : Agent) (v : Word), s.accepts a 0x5E R.TEST_CTRL.off v = true → bit v 0 = true →
      Gives (.testModeWrite a v) s fun t => t.testMode = true ∧ t.rd R.TEST_CTRL = v
      ∧ Frame (regsIn [R.TEST_CTRL.key 0]) [.fab] s t)
  ∧ (∀ (s : State) (a : Agent) (v : Word), s.accepts a 0x5E R.TEST_CTRL.off v = true → s.testMode = true → bit v 0 = false →
      Gives (.testModeWrite a v) s fun t => t.testMode = false ∧ t.rd R.TEST_CTRL = v
      ∧ (∀ k : Nat, k < 0x60 → t.hdr k hPerturb = 0) ∧ t.rd R.TP_DMA = 0 ∧ (∀ k : Nat, k < 8 → t.rd R.TP_XB 0 k = 0)
      ∧ Frame (regsIn (R.TEST_CTRL.key 0 :: R.TP_DMA.key 0 :: (List.range 8).map (fun k => R.TP_XB.key 0 k) ++ (List.range 0x60).map (fun k => regKey 0 k 0 hPerturb))) [.fab] s t)
  ∧ (∀ (s : State) (a : Agent) (v : Word), s.accepts a 0x5E R.TEST_CTRL.off v = true → s.testMode = false → bit v 0 = false →
      Gives (.testModeWrite a v) s fun t => t.testMode = false ∧ t.rd R.TEST_CTRL = v
      ∧ Frame (regsIn [R.TEST_CTRL.key 0]) [.fab] s t)
  ∧ (∀ (s : State) (a : Agent) (group : Fin 16), s.accepts a 0x5E R.BIST_CMD.off (word (0x10 + group)) = true →
      Gives (.bistStart a group) s fun t => t.test = { s.test with bist := some group }
      ∧ t.rd R.BIST_RES = word (at_ 12 group) ∧ Frame (regsIn [R.BIST_RES.key 0]) [.test, .fab] s t)
  ∧ (∀ (s : State) (failing : List Nat) (g : Nat) (bad : List Nat) (y : State), s.test.bist = some g →
      bad = (failing.filter (fun z => decide (z < bistCount g))).eraseDups →
      y = { s with test := { s.test with bist := none } } → bad = [] → Gives (.bistDone failing) s fun t =>
      t.test.bist = none
      ∧ t.rd R.BIST_RES = word (at_ 48 ([] : List Nat).length + at_ 32 (([] : List Nat).min?.getD 0) + at_ 12 g + at_ 1 (b2n !([] : List Nat).isEmpty) + 1)
      ∧ bit (t.hdr 0x5E hEvt) 0 = true ∧ (∀ p : Nat, g = 0 → (t.pn p).opm = [] ∧ (t.pn p).opq = [] ∧ (t.pn p).acc = [])
      ∧ (∀ p : Nat, g = 1 → (t.fd p).buf = [] ∧ (t.fd p).land = [] ∧ (t.rk p).blks = [])
      ∧ (g = 2 → t.slu.gainW = [] ∧ t.slu.gainS = [] ∧ t.slu.winW = [] ∧ t.slu.winS = [])
      ∧ (g = 3 → t.sched = { s.sched with check := none, image0 := [], image1 := [], st0 := .empty, st1 := .empty, conds := t.sched.conds })
      ∧ (4 ≤ g → t.mesh.inbox = []) ∧ (∀ q : Nat, 4 ≤ g → (t.lk q).rx = [] ∧ (t.lk q).held = [])
      ∧ Frame (regsIn [R.BIST_RES.key 0, regKey 0 0x5E 0 hEvt]) [] ((y.bistZero g)) t)
  ∧ (∀ (s : State) (failing : List Nat) (g : Nat) (bad : List Nat) (y : State), s.test.bist = some g →
      bad = (failing.filter (fun z => decide (z < bistCount g))).eraseDups →
      y = { s with test := { s.test with bist := none } } → bad ≠ [] → Gives (.bistDone failing) s fun t =>
      t.test.bist = none
      ∧ t.rd R.BIST_RES = word (at_ 48 bad.length + at_ 32 (bad.min?.getD 0) + at_ 12 g + at_ 1 (b2n !bad.isEmpty) + 1)
      ∧ bit (t.hdr 0x5E hEvt) 0 = true
      ∧ ((y.bistZero g).reports t 0x5E 0 0x18 (word (at_ 48 bad.length + at_ 32 (bad.min?.getD 0) + at_ 12 g + at_ 1 (b2n !bad.isEmpty) + 1)) 0)
      ∧ (∀ p : Nat, g = 0 → (t.pn p).opm = [] ∧ (t.pn p).opq = [] ∧ (t.pn p).acc = [])
      ∧ (∀ p : Nat, g = 1 → (t.fd p).buf = [] ∧ (t.fd p).land = [] ∧ (t.rk p).blks = [])
      ∧ (g = 2 → t.slu.gainW = [] ∧ t.slu.gainS = [] ∧ t.slu.winW = [] ∧ t.slu.winS = [])
      ∧ (g = 3 → t.sched = { s.sched with check := none, image0 := [], image1 := [], st0 := .empty, st1 := .empty, conds := t.sched.conds })
      ∧ (4 ≤ g → t.mesh.inbox = []) ∧ (∀ q : Nat, 4 ≤ g → (t.lk q).rx = [] ∧ (t.lk q).held = [])
      ∧ Frame (regsIn (R.BIST_RES.key 0 :: regKey 0 0x5E 0 hEvt :: reportKeys)) [.bitt] ((y.bistZero g)) t)
  ∧ (∀ (s : State) (failing : List Nat), s.test.bist = none → Gives (.bistDone failing) s fun t => Frame noRegs [] s t)
  ∧ (∀ (s : State) (op : BitVec 8), holdOp op = holdOp s.test.tap → Gives (.tapInstruction op) s fun t =>
      t.test = { s.test with tap := op } ∧ Frame noRegs [.test] s t)
  ∧ (∀ (s : State) (op : BitVec 8) (y : State), holdOp op = true → holdOp s.test.tap = false → s.pwr.coreUp = true →
      y = s.drained → Gives (.tapInstruction op) s fun t => t.test.tap = op ∧ t.pwr.scanHold = true ∧ t.pwr.coreUp = false
      ∧ t.pwr.state = y.pwr.warmState ∧ t.pwr.lastStop = y.pwr.warmCause ∧ t.nv = y.nv ∧ t.tam = y.tam
      ∧ Frame noRegs [] ((({ y with test := { y.test with tap := op } } : State).scanDown)) t)
  ∧ (∀ (s : State) (op : BitVec 8), holdOp op = true → holdOp s.test.tap = false → s.pwr.coreUp = false →
      Gives (.tapInstruction op) s fun t => t.test = { s.test with tap := op }
      ∧ t.pwr = { s.pwr with scanHold := true, lastStop := s.pwr.warmCause, state := s.pwr.warmState }
      ∧ Frame noRegs [.test, .pwr] s t)
  ∧ (∀ (s : State) (op : BitVec 8), holdOp op = false → holdOp s.test.tap = true →
      ({ s with pwr := { s.pwr with scanHold := false } } : State).coreMayRun = false → s.pwr.coreUp = false →
      Gives (.tapInstruction op) s fun t => t.test.tap = op ∧ t.pwr.scanHold = false ∧ t.pwr.coreUp = false
      ∧ Frame noRegs [.test, .pwr] s t)
  ∧ (∀ (s : State) (op : BitVec 8), holdOp op = false → holdOp s.test.tap = true →
      ({ s with pwr := { s.pwr with scanHold := false } } : State).coreMayRun = true → s.pwr.coreUp = false →
      Gives (.tapInstruction op) s fun t => t.test.tap = op ∧ t.pwr.scanHold = false ∧ t.pwr.coreUp = true
      ∧ Frame noRegs [] ((({ s with test := { s.test with tap := op } } : State).scanUp)) t)
  ∧ (∀ (s : State), holdOp s.test.tap = false → Gives .trstNAssert s fun t => t.test = { s.test with tap := 0x02 }
      ∧ Frame noRegs [.test] s t)
  ∧ (∀ (s : State), holdOp s.test.tap = true →
      ({ s with pwr := { s.pwr with scanHold := false } } : State).coreMayRun = false → s.pwr.coreUp = false →
      Gives .trstNAssert s fun t => t.test.tap = 0x02 ∧ t.pwr.scanHold = false ∧ t.pwr.coreUp = false
      ∧ Frame noRegs [.test, .pwr] s t)
  ∧ (∀ (s : State), holdOp s.test.tap = true →
      ({ s with pwr := { s.pwr with scanHold := false } } : State).coreMayRun = true → s.pwr.coreUp = false →
      Gives .trstNAssert s fun t => t.test.tap = 0x02 ∧ t.pwr.scanHold = false ∧ t.pwr.coreUp = true
      ∧ Frame noRegs [] ((({ s with test := { s.test with tap := 0x02 } } : State).scanUp)) t)

/-- For every command and state, a step with the command at the front of the queue is what the command does to the state with
the queue's rest. With an empty queue one SCLK passes while the always-on domain is up, and nothing does while it is
down; both are the model's choice (log entry 2). -/
def Obligations.StepRunsTheFrontCommand : Prop :=
(∀ (c : Instr) (cs : List Instr) (s : State), step { s with pending := c :: cs } = exec c { s with pending := cs })
  ∧ (∀ s : State, s.pending = [] → (s.aonUp = true → step s = done s (s.pass 1).romRearm) ∧ (s.aonUp = false → step s = done s s))

/-- Every command completes, in a state x and then the signals of its last RCLK, which are the last that it sends. That RCLK
starts at the state s, or, where the host's posted writes are applied first, at the state after them; an inbound request,
and a grant of the register-space window, go through one RCLK for each register. If bits of EVT_SUM_LO or EVT_SUM_HI went
from 0 to 1 in the RCLK, the supervisor gets one interrupt that names them all, whatever EVT_ROUTE holds; with MSIX_EN
set, and a function that may send the message, one message on MSIX_VEC follows, and without MSIX_EN none. Bits that stay
set, or fall, send nothing. -/
def Obligations.EveryCommandSignalsItsEvents : Prop :=
∀ (c : Instr) (s : State), ∃ y x t : State, exec c s = done y x ∧ done y x = .next t ∧
    lastStart c s y x ∧
    (risen y.evtSumLo t.evtSumLo = 0 → risen y.evtSumHi t.evtSumHi = 0 → t.sent = x.sent) ∧
    (¬ (risen y.evtSumLo t.evtSumLo = 0 ∧ risen y.evtSumHi t.evtSumHi = 0) →
      .irq (risen y.evtSumLo t.evtSumLo) (risen y.evtSumHi t.evtSumHi) ∈ t.sent ∧
      (t.rdb R.EVT_ROUTE 0 0 = false → t.sent = .irq (risen y.evtSumLo t.evtSumLo) (risen y.evtSumHi t.evtSumHi) :: x.sent) ∧
      (t.rdb R.EVT_ROUTE 0 0 = true → t.pcie.msixEn = true → t.pcie.maskAll = false → t.pcieMaster = true →
        (t.msixOf (t.rdf R.EVT_ROUTE 0 42 32)).masked = false →
        t.sent = .msix (t.rdf R.EVT_ROUTE 0 42 32) (t.msixOf (t.rdf R.EVT_ROUTE 0 42 32)).addr
            (t.msixOf (t.rdf R.EVT_ROUTE 0 42 32)).data
          :: .irq (risen y.evtSumLo t.evtSumLo) (risen y.evtSumHi t.evtSumHi) :: x.sent))

/-- At a rise of EVT_SUM with MSIX_EN set, every command completes with the interrupt as the last output and no message:
where the vector or the function is masked its pending bit is set, and where MSI-X is disabled, or the link, the D-state
or Bus Master Enable forbids requests, the message is lost. That it is lost and not kept is the model's choice (log entry
133). -/
def Obligations.MessagesThatMayNotLeave : Prop :=
∀ (c : Instr) (s : State), ∃ y x t : State, exec c s = done y x ∧ done y x = .next t ∧
    lastStart c s y x ∧
    (¬ (risen y.evtSumLo t.evtSumLo = 0 ∧ risen y.evtSumHi t.evtSumHi = 0) → t.rdb R.EVT_ROUTE 0 0 = true →
      (t.pcie.msixEn = false ∨ (t.msixOf (t.rdf R.EVT_ROUTE 0 42 32)).masked = true ∨ t.pcie.maskAll = true ∨ t.pcieMaster = false →
        t.sent = .irq (risen y.evtSumLo t.evtSumLo) (risen y.evtSumHi t.evtSumHi) :: x.sent) ∧
      (t.pcie.msixEn = true → (t.msixOf (t.rdf R.EVT_ROUTE 0 42 32)).masked = true ∨ t.pcie.maskAll = true →
        mget (fun _ => false) t.pcie.pba (t.rdf R.EVT_ROUTE 0 42 32) = true))

/-- While the core runs, every condition of R12 that holds (PARTITIONED, HOLDOVER, UNSUPERVISED) is in the newest run of
conditions, which reaches to the tide in progress. Every step keeps this. That the record is kept as runs of tides is the
model's choice. -/
def Obligations.ConditionsAreRecorded : Prop :=
∀ s t : State, s.condsKept → step s = .next t → t.condsKept

/-- While the device is a member of a saltern, the time since which its view has met the PRIMARY condition is held exactly
while the view meets it. Every step keeps this. -/
def Obligations.ViewIsTracked : Prop :=
∀ s t : State, s.viewKept → step s = .next t → t.viewKept

/-- At reset POR_N is low, the core is not running, no image runs, the device is STANDALONE, and every register reads its
table's reset value or its header's, PRIO, WTR, SEL_CFG, UNSUP_LIMIT and MESH_CFG for example. What every step keeps
holds. That no command waits, nothing has been sent and no memory lists a byte is the model's choice (log entries 1 and
6). -/
def Obligations.ResetState : Prop :=
State.reset.pwr.porN = false ∧ State.reset.pwr.coreUp = false ∧ State.reset.sched.run = none
  ∧ State.reset.mesh.role = .standalone ∧ (∀ k, State.reset.getReg k = resetAt (keyPage k) (k % 4096))
  ∧ State.reset.rd R.PRIO = 0x06543210 ∧ State.reset.rd R.WTR = 300 ∧ State.reset.rd R.SEL_CFG = 0xC00
  ∧ State.reset.rd R.UNSUP_LIMIT = 600 ∧ State.reset.rd R.MESH_CFG = 0 ∧ State.reset.enabled 0 = true
  ∧ State.reset.enabled 0x5D = false ∧ State.reset.condsKept ∧ State.reset.viewKept
  ∧ State.reset.pending = [] ∧ State.reset.sent = [] ∧ State.reset.heap.mem = [] ∧ State.reset.nv.nvm = []
  ∧ State.reset.nv.sram = [] ∧ State.reset.xbar.sram = [] ∧ State.reset.xbar.rom = [] ∧ State.reset.sched.image0 = []
  ∧ State.reset.sched.image1 = [] ∧ State.reset.heap.mem.wf = true

/-- A defined, well-formed command outside tamper-hold that is marked with rights ends with E_AUTH unless word 1's SESSION is
the channel's authenticated session; one marked - never does at the session's check, and in basic form its SESSION has no
bearing on any check. SESSION_AUTH looks for the pending session that it names. A command that needs a right (R425) ends
with E_AUTH without its bit of the session's rights, and one in expert form with E_EXPERT. -/
def Obligations.CommandsNeedTheirRights : Prop :=
∀ (s : State) (c : Nat) (r : CmdRun) (row : YelRow), r.row = some row → s.tam.hold = false →
    r.badForm row (s.image.map fun _ => s.chanC) = false →
    (row.rights ≠ .none → (∀ x, pget s.cmds.session c = some x → x.auth = true → x.id ≠ r.sess) → s.preCheck c r = some .auth)
    ∧ (row.rights = .none → s.preCheck c r ≠ some .auth)
    ∧ (∀ n : BitVec 32, row.rights = .none → r.expert = false →
      s.preCheck c { r with words := r.words.set 1 (n ++ (0 : BitVec 32)) } = s.preCheck c r)
    ∧ (∀ x ch, s.pendingSession c r = some (x, ch) → pget s.cmds.session c = some x ∧ x.id = r.sess ∧ x.auth = false)
    ∧ (∀ x, pget s.cmds.session c = some x → x.auth = true → x.id = r.sess →
      (row.rights = .time → x.rights.testBit 1 = false → s.preCheck c r = some .auth)
      ∧ (row.rights = .security → x.rights.testBit 2 = false → s.preCheck c r = some .auth)
      ∧ (row.rights = .update → x.rights.testBit 3 = false → s.preCheck c r = some .auth)
      ∧ ((row.rights = .none ∨ row.rights = .session ∨ row.rights = .expert) → r.expert = true → x.rights.testBit 0 = false →
        s.preCheck c r = some .expert))
end

