-- ==== Sys2Proof/Laws/Maps.lean ====
section
/-! SUPPORT. Laws of the sparse maps and of memory: a read after a write, and that every write keeps the canonical form. -/

namespace Sys2Proof.Machine

/-- Every key of a map lies above a number. -/
def Map.above {α : Type} (n : Nat) (m : Map α) : Prop := ∀ e ∈ m, n < e.1

/-- The canonical form, as a proposition that induction can use: keys strictly rising, no entry at its default. -/
def Map.Sorted {α : Type} (d : Nat → α) : Map α → Prop
  | [] => True
  | e :: m => e.2 ≠ d e.1 ∧ Map.above e.1 m ∧ Map.Sorted d m

theorem Map.sorted_erase {α : Type} {d : Nat → α} (k : Nat) :
    ∀ {m : Map α}, Map.Sorted d m → Map.Sorted d (merase m k)
  | [], _ => trivial
  | e :: m, ⟨hv, ha, hs⟩ => by
    have ih := Map.sorted_erase (d := d) k hs
    by_cases h : e.1 = k
    · simpa [merase, h] using ih
    · have : merase (e :: m) k = e :: merase m k := by simp [merase, h]
      rw [this]
      exact ⟨hv, fun x hx => ha x (List.mem_of_mem_filter hx), ih⟩

theorem Map.sorted_insert {α : Type} {d : Nat → α} {k : Nat} {v : α} (hv : v ≠ d k) :
    ∀ {m : Map α}, Map.Sorted d m → (∀ e ∈ m, e.1 ≠ k) → Map.Sorted d (minsert k v m)
  | [], _, _ => ⟨hv, fun _ h => (List.not_mem_nil h).elim, trivial⟩
  | (k', v') :: m, ⟨hv', ha, hs⟩, hne => by
    unfold minsert
    split
    · rename_i hlt
      refine ⟨hv, ?_, hv', ha, hs⟩
      intro e he
      rcases List.mem_cons.1 he with rfl | he
      · exact hlt
      · exact lt_trans hlt (ha e he)
    · rename_i hge
      have hk : k' ≠ k := hne (k', v') (List.mem_cons_self ..)
      refine ⟨hv', ?_, Map.sorted_insert hv hs fun e he => hne e (List.mem_cons_of_mem _ he)⟩
      intro e he
      have hmem : ∀ {m : Map α}, e ∈ minsert k v m → e = (k, v) ∨ e ∈ m := by
        intro m
        induction m with
        | nil => intro h; exact Or.inl (by simpa [minsert] using h)
        | cons x xs ih =>
          intro h
          unfold minsert at h
          split at h
          · simpa using h
          · rcases List.mem_cons.1 h with rfl | h
            · exact Or.inr (List.mem_cons_self ..)
            · rcases ih h with h | h
              · exact Or.inl h
              · exact Or.inr (List.mem_cons_of_mem _ h)
      rcases hmem he with rfl | he
      · show k' < k
        omega
      · exact ha e he

/-- Entries taken out leave the canonical form. -/
theorem Map.sorted_filter {α : Type} {d : Nat → α} (p : Nat × α → Bool) :
    ∀ {m : Map α}, Map.Sorted d m → Map.Sorted d (m.filter p)
  | [], _ => trivial
  | e :: m, h => by
    have ih := Map.sorted_filter p h.2.2
    rw [List.filter_cons]
    split
    · exact ⟨h.1, fun x hx => h.2.1 x (List.mem_filter.1 hx).1, ih⟩
    · exact ih

/-- A write keeps the canonical form. -/
theorem Map.sorted_mset {α : Type} [DecidableEq α] {d : Nat → α} {m : Map α} (k : Nat) (v : α) (h : Map.Sorted d m) :
    Map.Sorted d (mset d m k v) := by
  unfold mset
  split
  · exact Map.sorted_erase k h
  · rename_i hv
    exact Map.sorted_insert hv (Map.sorted_erase k h) fun e he => by
      have := (List.mem_filter.1 he).2
      simpa using this

/-- The Boolean canonical form is the proposition. -/
theorem mwf_iff {α : Type} [DecidableEq α] {d : Nat → α} : ∀ {m : Map α}, mwf d m = true ↔ Map.Sorted d m
  | [] => by simp [mwf, Map.Sorted]
  | [(k, v)] => by simp [mwf, Map.Sorted, Map.above]
  | (k, v) :: (k', v') :: m => by
    have ih := mwf_iff (d := d) (m := (k', v') :: m)
    simp only [mwf, Bool.and_eq_true, decide_eq_true_eq, Map.Sorted]
    rw [ih]
    constructor
    · rintro ⟨⟨hv, hk⟩, hs⟩
      refine ⟨hv, ?_, hs⟩
      intro e he
      rcases List.mem_cons.1 he with rfl | he
      · exact hk
      · exact lt_trans hk (hs.2.1 e he)
    · rintro ⟨hv, ha, hs⟩
      exact ⟨⟨hv, ha (k', v') (List.mem_cons_self ..)⟩, hs⟩

/-- A write keeps the Boolean canonical form. -/
theorem mwf_mset {α : Type} [DecidableEq α] {d : Nat → α} {m : Map α} (k : Nat) (v : α) (h : mwf d m = true) :
    mwf d (mset d m k v) = true := mwf_iff.2 (Map.sorted_mset k v (mwf_iff.1 h))

theorem mget_merase_ne {α : Type} {d : Nat → α} {k j : Nat} (h : j ≠ k) :
    ∀ (m : Map α), mget d (merase m k) j = mget d m j
  | [] => rfl
  | e :: m => by
    have ih := mget_merase_ne (d := d) h m
    by_cases hk : e.1 = k
    · have : merase (e :: m) k = merase m k := by simp [merase, hk]
      rw [this, ih]
      have hj : e.1 ≠ j := fun he => h (he ▸ hk)
      simp [mget, hj]
    · have : merase (e :: m) k = e :: merase m k := by simp [merase, hk]
      rw [this]
      simp only [mget, ih]

theorem mget_merase_self {α : Type} {d : Nat → α} {k : Nat} : ∀ (m : Map α), mget d (merase m k) k = d k
  | [] => rfl
  | e :: m => by
    have ih := mget_merase_self (d := d) (k := k) m
    by_cases hk : e.1 = k
    · have : merase (e :: m) k = merase m k := by simp [merase, hk]
      rw [this, ih]
    · have : merase (e :: m) k = e :: merase m k := by simp [merase, hk]
      rw [this]
      simp [mget, hk, ih]

theorem mget_minsert_ne {α : Type} {d : Nat → α} {k j : Nat} {v : α} (h : j ≠ k) :
    ∀ (m : Map α), mget d (minsert k v m) j = mget d m j
  | [] => by simp [minsert, mget, h.symm]
  | e :: m => by
    unfold minsert
    split
    · simp [mget, h.symm]
    · simp [mget, mget_minsert_ne h m]

theorem mget_minsert_self {α : Type} {d : Nat → α} {k : Nat} {v : α} :
    ∀ (m : Map α), (∀ e ∈ m, e.1 ≠ k) → mget d (minsert k v m) k = v
  | [], _ => by simp [minsert, mget]
  | e :: m, h => by
    unfold minsert
    split
    · simp [mget]
    · have he : e.1 ≠ k := h e (List.mem_cons_self ..)
      simp [mget, he, mget_minsert_self m fun x hx => h x (List.mem_cons_of_mem _ hx)]

/-- A read of the key that was written. -/
@[simp] theorem mget_mset_self {α : Type} [DecidableEq α] (d : Nat → α) (m : Map α) (k : Nat) (v : α) :
    mget d (mset d m k v) k = v := by
  unfold mset
  split
  · rename_i h
    rw [mget_merase_self, h]
  · exact mget_minsert_self _ fun e he => by
      have := (List.mem_filter.1 he).2
      simpa using this

/-- A read of another key. -/
theorem mget_mset_ne {α : Type} [DecidableEq α] {d : Nat → α} {m : Map α} {k j : Nat} {v : α} (h : j ≠ k) :
    mget d (mset d m k v) j = mget d m j := by
  unfold mset
  split
  · exact mget_merase_ne h m
  · rw [mget_minsert_ne h, mget_merase_ne h]

theorem merase_minsert {α : Type} (k : Nat) (v : α) : ∀ m : Map α, merase (minsert k v m) k = merase m k
  | [] => by simp [minsert, merase]
  | e :: m => by
    have ih := merase_minsert k v m
    unfold minsert
    split
    · simp [merase]
    · by_cases h : e.1 = k <;> simp_all [merase]

/-- A second write of a key replaces the first. -/
@[simp] theorem mset_mset_self {α : Type} [DecidableEq α] (d : Nat → α) (m : Map α) (k : Nat) (v w : α) :
    mset d (mset d m k v) k w = mset d m k w := by
  have h : merase (mset d m k v) k = merase m k := by
    unfold mset
    split
    · simp [merase]
    · rw [merase_minsert]; simp [merase]
  show (if w = d k then merase (mset d m k v) k else minsert k w (merase (mset d m k v) k)) = mset d m k w
  rw [h, mset]

/-- A read after a write. -/
theorem mget_mset {α : Type} [DecidableEq α] (d : Nat → α) (m : Map α) (k j : Nat) (v : α) :
    mget d (mset d m k v) j = if j = k then v else mget d m j := by
  by_cases h : j = k
  · subst h; simp
  · simp [h, mget_mset_ne h]

/-- A read of the entry that was written. -/
@[simp] theorem pget_pset_self {α : Type} [DecidableEq α] (m : PMap α) (k : Nat) (v : Option α) :
    pget (pset m k v) k = v := mget_mset_self _ m k v

/-- A read of another entry. -/
theorem pget_pset_ne {α : Type} [DecidableEq α] {m : PMap α} {k j : Nat} {v : Option α} (h : j ≠ k) :
    pget (pset m k v) j = pget m j := mget_mset_ne h

/-- The byte that was written. -/
@[simp] theorem Memory.byte_setByte_self (m : Memory) (a : Nat) (b : Byte) : (m.setByte a b).byte a = b :=
  mget_mset_self _ m a b

/-- Another byte. -/
theorem Memory.byte_setByte_ne {m : Memory} {a x : Nat} {b : Byte} (h : x ≠ a) : (m.setByte a b).byte x = m.byte x :=
  mget_mset_ne h

/-- A byte below the bytes written. -/
theorem Memory.byte_write_lt : ∀ (bs : List Byte) (m : Memory) (a x : Nat), x < a → (m.write a bs).byte x = m.byte x
  | [], _, _, _, _ => rfl
  | b :: bs, m, a, x, h => by
    unfold Memory.write
    rw [Memory.byte_write_lt bs _ _ _ (by omega), Memory.byte_setByte_ne (by omega)]

/-- A byte above the bytes written. -/
theorem Memory.byte_write_ge : ∀ (bs : List Byte) (m : Memory) (a x : Nat), a + bs.length ≤ x →
    (m.write a bs).byte x = m.byte x
  | [], _, _, _, _ => rfl
  | b :: bs, m, a, x, h => by
    simp only [List.length_cons] at h
    unfold Memory.write
    rw [Memory.byte_write_ge bs _ _ _ (by omega), Memory.byte_setByte_ne (by omega)]

/-- A byte that was written. -/
theorem Memory.byte_write_mid : ∀ (bs : List Byte) (m : Memory) (a i : Nat), i < bs.length →
    (m.write a bs).byte (a + i) = bs.getD i 0
  | [], _, _, _, h => by simp at h
  | b :: bs, m, a, 0, _ => by
    unfold Memory.write
    rw [Memory.byte_write_lt _ _ _ _ (by omega)]
    simp
  | b :: bs, m, a, i + 1, h => by
    simp only [List.length_cons] at h
    unfold Memory.write
    have := Memory.byte_write_mid bs (m.setByte a b) (a + 1) i (by omega)
    rw [show a + (i + 1) = a + 1 + i by omega, this]
    simp

/-- A write of one byte keeps the canonical form. -/
theorem Memory.wf_setByte {m : Memory} (a : Nat) (b : Byte) (h : m.wf = true) : (m.setByte a b).wf = true :=
  mwf_mset a b h

/-- Memory of which a part is dropped keeps the canonical form. -/
theorem Memory.wf_keep {m : Memory} (p : Nat → Bool) (h : m.wf = true) : (m.keep p).wf = true :=
  mwf_iff.2 (Map.sorted_filter _ (mwf_iff.1 h))

/-- A byte of memory of which a part is dropped. -/
theorem Memory.byte_keep (p : Nat → Bool) (a : Nat) : ∀ m : Memory, (m.keep p).byte a = if p a then m.byte a else 0
  | [] => by simp [Memory.keep, Memory.byte, mget]
  | e :: m => by
    have ih := Memory.byte_keep p a m
    by_cases he : e.1 = a
    · by_cases hp : p a
      · simp [Memory.keep, Memory.byte, mget, he, hp]
      · simpa [Memory.keep, Memory.byte, mget, he, hp] using ih
    · by_cases hq : p e.1
      · simpa [Memory.keep, Memory.byte, mget, he, hq] using ih
      · simpa [Memory.keep, Memory.byte, mget, he, hq] using ih

/-- A write of bytes keeps the canonical form. -/
theorem Memory.wf_write : ∀ (bs : List Byte) {m : Memory} (a : Nat), m.wf = true → (m.write a bs).wf = true
  | [], _, _, h => h
  | b :: bs, _, a, h => Memory.wf_write bs (a + 1) (Memory.wf_setByte a b h)

/-- A write of a word keeps the canonical form. -/
theorem Memory.wf_setWord {m : Memory} (a : Nat) (w : Word) (h : m.wf = true) : (m.setWord a w).wf = true :=
  Memory.wf_write _ _ h

end Sys2Proof.Machine
end

