-- ==== Sys2Proof/Laws/State.lean ====
section
/-! SUPPORT. Laws of State: a register read after a register write, what the operations over registers leave of the other
parts, and what `State.finish`, with which every command ends, can do. -/

namespace Sys2Proof.Machine

@[simp] theorem getReg_setReg_self (s : State) (k : Nat) (v : Word) : (s.setReg k v).getReg k = v := by
  simp [State.getReg, State.setReg]

theorem getReg_setReg_ne {s : State} {k j : Nat} {v : Word} (h : j ≠ k) : (s.setReg k v).getReg j = s.getReg j := by
  simp [State.getReg, State.setReg, mget_mset_ne h]

theorem getReg_setReg (s : State) (k j : Nat) (v : Word) :
    (s.setReg k v).getReg j = if j = k then v else s.getReg j := by
  simp [State.getReg, State.setReg, mget_mset]

/-- A register read looks at the registers only. -/
theorem getReg_congr {s t : State} (h : t.regs = s.regs) (k : Nat) : t.getReg k = s.getReg k := by
  simp [State.getReg, h]

@[simp] theorem setReg_pwr (s : State) (k : Nat) (v : Word) : (s.setReg k v).pwr = s.pwr := rfl
@[simp] theorem setReg_time (s : State) (k : Nat) (v : Word) : (s.setReg k v).time = s.time := rfl
@[simp] theorem setReg_sup (s : State) (k : Nat) (v : Word) : (s.setReg k v).sup = s.sup := rfl
@[simp] theorem setReg_bitt (s : State) (k : Nat) (v : Word) : (s.setReg k v).bitt = s.bitt := rfl
@[simp] theorem setReg_nv (s : State) (k : Nat) (v : Word) : (s.setReg k v).nv = s.nv := rfl
@[simp] theorem setReg_tam (s : State) (k : Nat) (v : Word) : (s.setReg k v).tam = s.tam := rfl
@[simp] theorem setReg_fab (s : State) (k : Nat) (v : Word) : (s.setReg k v).fab = s.fab := rfl
@[simp] theorem setReg_heap (s : State) (k : Nat) (v : Word) : (s.setReg k v).heap = s.heap := rfl
@[simp] theorem setReg_xbar (s : State) (k : Nat) (v : Word) : (s.setReg k v).xbar = s.xbar := rfl
@[simp] theorem setReg_links (s : State) (k : Nat) (v : Word) : (s.setReg k v).links = s.links := rfl
@[simp] theorem setReg_dma (s : State) (k : Nat) (v : Word) : (s.setReg k v).dma = s.dma := rfl
@[simp] theorem setReg_net (s : State) (k : Nat) (v : Word) : (s.setReg k v).net = s.net := rfl
@[simp] theorem setReg_slu (s : State) (k : Nat) (v : Word) : (s.setReg k v).slu = s.slu := rfl
@[simp] theorem setReg_pans (s : State) (k : Nat) (v : Word) : (s.setReg k v).pans = s.pans := rfl
@[simp] theorem setReg_cmds (s : State) (k : Nat) (v : Word) : (s.setReg k v).cmds = s.cmds := rfl
@[simp] theorem setReg_sal (s : State) (k : Nat) (v : Word) : (s.setReg k v).sal = s.sal := rfl
@[simp] theorem setReg_pins (s : State) (k : Nat) (v : Word) : (s.setReg k v).pins = s.pins := rfl
@[simp] theorem setReg_test (s : State) (k : Nat) (v : Word) : (s.setReg k v).test = s.test := rfl
@[simp] theorem setReg_free (s : State) (k : Nat) (v : Word) : (s.setReg k v).free = s.free := rfl
@[simp] theorem setReg_pending (s : State) (k : Nat) (v : Word) : (s.setReg k v).pending = s.pending := rfl
@[simp] theorem setReg_sched (s : State) (k : Nat) (v : Word) : (s.setReg k v).sched = s.sched := rfl
@[simp] theorem setReg_pcie (s : State) (k : Nat) (v : Word) : (s.setReg k v).pcie = s.pcie := rfl
@[simp] theorem setReg_mesh (s : State) (k : Nat) (v : Word) : (s.setReg k v).mesh = s.mesh := rfl
@[simp] theorem setReg_sent (s : State) (k : Nat) (v : Word) : (s.setReg k v).sent = s.sent := rfl
@[simp] theorem wr_pwr (s : State) (r : Reg) (u : Nat) (v : Word) (k : Nat) : (s.wr r u v k).pwr = s.pwr := rfl
@[simp] theorem wr_time (s : State) (r : Reg) (u : Nat) (v : Word) (k : Nat) : (s.wr r u v k).time = s.time := rfl
@[simp] theorem wr_sup (s : State) (r : Reg) (u : Nat) (v : Word) (k : Nat) : (s.wr r u v k).sup = s.sup := rfl
@[simp] theorem wr_bitt (s : State) (r : Reg) (u : Nat) (v : Word) (k : Nat) : (s.wr r u v k).bitt = s.bitt := rfl
@[simp] theorem wr_nv (s : State) (r : Reg) (u : Nat) (v : Word) (k : Nat) : (s.wr r u v k).nv = s.nv := rfl
@[simp] theorem wr_tam (s : State) (r : Reg) (u : Nat) (v : Word) (k : Nat) : (s.wr r u v k).tam = s.tam := rfl
@[simp] theorem wr_fab (s : State) (r : Reg) (u : Nat) (v : Word) (k : Nat) : (s.wr r u v k).fab = s.fab := rfl
@[simp] theorem wr_heap (s : State) (r : Reg) (u : Nat) (v : Word) (k : Nat) : (s.wr r u v k).heap = s.heap := rfl
@[simp] theorem wr_xbar (s : State) (r : Reg) (u : Nat) (v : Word) (k : Nat) : (s.wr r u v k).xbar = s.xbar := rfl
@[simp] theorem wr_links (s : State) (r : Reg) (u : Nat) (v : Word) (k : Nat) : (s.wr r u v k).links = s.links := rfl
@[simp] theorem wr_dma (s : State) (r : Reg) (u : Nat) (v : Word) (k : Nat) : (s.wr r u v k).dma = s.dma := rfl
@[simp] theorem wr_net (s : State) (r : Reg) (u : Nat) (v : Word) (k : Nat) : (s.wr r u v k).net = s.net := rfl
@[simp] theorem wr_slu (s : State) (r : Reg) (u : Nat) (v : Word) (k : Nat) : (s.wr r u v k).slu = s.slu := rfl
@[simp] theorem wr_pans (s : State) (r : Reg) (u : Nat) (v : Word) (k : Nat) : (s.wr r u v k).pans = s.pans := rfl
@[simp] theorem wr_cmds (s : State) (r : Reg) (u : Nat) (v : Word) (k : Nat) : (s.wr r u v k).cmds = s.cmds := rfl
@[simp] theorem wr_sal (s : State) (r : Reg) (u : Nat) (v : Word) (k : Nat) : (s.wr r u v k).sal = s.sal := rfl
@[simp] theorem wr_pins (s : State) (r : Reg) (u : Nat) (v : Word) (k : Nat) : (s.wr r u v k).pins = s.pins := rfl
@[simp] theorem wr_test (s : State) (r : Reg) (u : Nat) (v : Word) (k : Nat) : (s.wr r u v k).test = s.test := rfl
@[simp] theorem wr_free (s : State) (r : Reg) (u : Nat) (v : Word) (k : Nat) : (s.wr r u v k).free = s.free := rfl
@[simp] theorem wr_pending (s : State) (r : Reg) (u : Nat) (v : Word) (k : Nat) : (s.wr r u v k).pending = s.pending := rfl
@[simp] theorem wr_sched (s : State) (r : Reg) (u : Nat) (v : Word) (k : Nat) : (s.wr r u v k).sched = s.sched := rfl
@[simp] theorem wr_pcie (s : State) (r : Reg) (u : Nat) (v : Word) (k : Nat) : (s.wr r u v k).pcie = s.pcie := rfl
@[simp] theorem wr_mesh (s : State) (r : Reg) (u : Nat) (v : Word) (k : Nat) : (s.wr r u v k).mesh = s.mesh := rfl
@[simp] theorem wr_sent (s : State) (r : Reg) (u : Nat) (v : Word) (k : Nat) : (s.wr r u v k).sent = s.sent := rfl
@[simp] theorem setHdr_pwr (s : State) (g i : Nat) (v : Word) : (s.setHdr g i v).pwr = s.pwr := rfl
@[simp] theorem setHdr_time (s : State) (g i : Nat) (v : Word) : (s.setHdr g i v).time = s.time := rfl
@[simp] theorem setHdr_sup (s : State) (g i : Nat) (v : Word) : (s.setHdr g i v).sup = s.sup := rfl
@[simp] theorem setHdr_bitt (s : State) (g i : Nat) (v : Word) : (s.setHdr g i v).bitt = s.bitt := rfl
@[simp] theorem setHdr_nv (s : State) (g i : Nat) (v : Word) : (s.setHdr g i v).nv = s.nv := rfl
@[simp] theorem setHdr_tam (s : State) (g i : Nat) (v : Word) : (s.setHdr g i v).tam = s.tam := rfl
@[simp] theorem setHdr_fab (s : State) (g i : Nat) (v : Word) : (s.setHdr g i v).fab = s.fab := rfl
@[simp] theorem setHdr_heap (s : State) (g i : Nat) (v : Word) : (s.setHdr g i v).heap = s.heap := rfl
@[simp] theorem setHdr_xbar (s : State) (g i : Nat) (v : Word) : (s.setHdr g i v).xbar = s.xbar := rfl
@[simp] theorem setHdr_links (s : State) (g i : Nat) (v : Word) : (s.setHdr g i v).links = s.links := rfl
@[simp] theorem setHdr_dma (s : State) (g i : Nat) (v : Word) : (s.setHdr g i v).dma = s.dma := rfl
@[simp] theorem setHdr_net (s : State) (g i : Nat) (v : Word) : (s.setHdr g i v).net = s.net := rfl
@[simp] theorem setHdr_slu (s : State) (g i : Nat) (v : Word) : (s.setHdr g i v).slu = s.slu := rfl
@[simp] theorem setHdr_pans (s : State) (g i : Nat) (v : Word) : (s.setHdr g i v).pans = s.pans := rfl
@[simp] theorem setHdr_cmds (s : State) (g i : Nat) (v : Word) : (s.setHdr g i v).cmds = s.cmds := rfl
@[simp] theorem setHdr_sal (s : State) (g i : Nat) (v : Word) : (s.setHdr g i v).sal = s.sal := rfl
@[simp] theorem setHdr_pins (s : State) (g i : Nat) (v : Word) : (s.setHdr g i v).pins = s.pins := rfl
@[simp] theorem setHdr_test (s : State) (g i : Nat) (v : Word) : (s.setHdr g i v).test = s.test := rfl
@[simp] theorem setHdr_free (s : State) (g i : Nat) (v : Word) : (s.setHdr g i v).free = s.free := rfl
@[simp] theorem setHdr_pending (s : State) (g i : Nat) (v : Word) : (s.setHdr g i v).pending = s.pending := rfl
@[simp] theorem setHdr_sched (s : State) (g i : Nat) (v : Word) : (s.setHdr g i v).sched = s.sched := rfl
@[simp] theorem setHdr_pcie (s : State) (g i : Nat) (v : Word) : (s.setHdr g i v).pcie = s.pcie := rfl
@[simp] theorem setHdr_mesh (s : State) (g i : Nat) (v : Word) : (s.setHdr g i v).mesh = s.mesh := rfl
@[simp] theorem setHdr_sent (s : State) (g i : Nat) (v : Word) : (s.setHdr g i v).sent = s.sent := rfl
@[simp] theorem raise_pwr (s : State) (g i : Nat) : (s.raise g i).pwr = s.pwr := rfl
@[simp] theorem raise_time (s : State) (g i : Nat) : (s.raise g i).time = s.time := rfl
@[simp] theorem raise_sup (s : State) (g i : Nat) : (s.raise g i).sup = s.sup := rfl
@[simp] theorem raise_bitt (s : State) (g i : Nat) : (s.raise g i).bitt = s.bitt := rfl
@[simp] theorem raise_nv (s : State) (g i : Nat) : (s.raise g i).nv = s.nv := rfl
@[simp] theorem raise_tam (s : State) (g i : Nat) : (s.raise g i).tam = s.tam := rfl
@[simp] theorem raise_fab (s : State) (g i : Nat) : (s.raise g i).fab = s.fab := rfl
@[simp] theorem raise_heap (s : State) (g i : Nat) : (s.raise g i).heap = s.heap := rfl
@[simp] theorem raise_xbar (s : State) (g i : Nat) : (s.raise g i).xbar = s.xbar := rfl
@[simp] theorem raise_links (s : State) (g i : Nat) : (s.raise g i).links = s.links := rfl
@[simp] theorem raise_dma (s : State) (g i : Nat) : (s.raise g i).dma = s.dma := rfl
@[simp] theorem raise_net (s : State) (g i : Nat) : (s.raise g i).net = s.net := rfl
@[simp] theorem raise_slu (s : State) (g i : Nat) : (s.raise g i).slu = s.slu := rfl
@[simp] theorem raise_pans (s : State) (g i : Nat) : (s.raise g i).pans = s.pans := rfl
@[simp] theorem raise_cmds (s : State) (g i : Nat) : (s.raise g i).cmds = s.cmds := rfl
@[simp] theorem raise_sal (s : State) (g i : Nat) : (s.raise g i).sal = s.sal := rfl
@[simp] theorem raise_pins (s : State) (g i : Nat) : (s.raise g i).pins = s.pins := rfl
@[simp] theorem raise_test (s : State) (g i : Nat) : (s.raise g i).test = s.test := rfl
@[simp] theorem raise_free (s : State) (g i : Nat) : (s.raise g i).free = s.free := rfl
@[simp] theorem raise_pending (s : State) (g i : Nat) : (s.raise g i).pending = s.pending := rfl
@[simp] theorem raise_sched (s : State) (g i : Nat) : (s.raise g i).sched = s.sched := rfl
@[simp] theorem raise_pcie (s : State) (g i : Nat) : (s.raise g i).pcie = s.pcie := rfl
@[simp] theorem raise_mesh (s : State) (g i : Nat) : (s.raise g i).mesh = s.mesh := rfl
@[simp] theorem raise_sent (s : State) (g i : Nat) : (s.raise g i).sent = s.sent := rfl

/-- What `signal` with `State.msixSend` can do: it adds to what was sent and may set an MSI-X pending bit. -/
theorem signal_spec (s0 s1 : State) : ∃ pba sent, signal State.msixSend s0 s1
      = { s1 with pcie := { s1.pcie with pba := pba }, sent := sent } ∧ s1.sent <:+ sent := by
  unfold signal
  dsimp only
  split
  · exact ⟨s1.pcie.pba, s1.sent, rfl, List.suffix_refl _⟩
  · split
    · unfold State.msixSend
      dsimp only
      split
      · exact ⟨s1.pcie.pba, _, rfl, List.suffix_cons _ _⟩
      · split
        · exact ⟨_, _, rfl, List.suffix_cons _ _⟩
        · split
          · exact ⟨s1.pcie.pba, _, rfl, (List.suffix_cons _ _).trans (List.suffix_cons _ _)⟩
          · exact ⟨s1.pcie.pba, _, rfl, List.suffix_cons _ _⟩
    · exact ⟨s1.pcie.pba, _, rfl, List.suffix_cons _ _⟩

/-- A second write of a register replaces the first. -/
@[simp] theorem setReg_setReg (s : State) (k : Nat) (v w : Word) : (s.setReg k v).setReg k w = s.setReg k w := by
  simp [State.setReg]

/-- What `State.meshTrack` can do. -/
theorem meshTrack_spec (s0 s1 : State) : ∃ since regs, State.meshTrack s0 s1
      = { s1 with mesh := { s1.mesh with viewSince := since }, regs := regs }
    ∧ (regs = s1.regs ∨ ∃ a c, regs = (s1.setReg agreeKey (meshFalls a c (s1.getReg agreeKey))).regs) := by
  unfold State.meshTrack
  split
  · exact ⟨s1.mesh.viewSince, s1.regs, rfl, Or.inl rfl⟩
  · dsimp only
    generalize (if s1.primaryView = true then some (s1.mesh.viewSince.getD s1.time.total) else none) = since
    split
    · split
      · exact ⟨since, _, rfl, Or.inr ⟨true, true, by
          simp [State.raise, State.setHdr, State.hdr, State.getReg, State.setReg, agreeKey, meshFalls]⟩⟩
      · exact ⟨since, _, rfl, Or.inr ⟨true, false, rfl⟩⟩
    · split
      · exact ⟨since, _, rfl, Or.inr ⟨false, true, rfl⟩⟩
      · exact ⟨since, s1.regs, rfl, Or.inl rfl⟩

/-- Everything `State.finish` can do. -/
theorem finish_spec (s0 s1 : State) : ∃ since regs conds pba sent, s0.finish s1
      = { s1 with mesh := { s1.mesh with viewSince := since }, regs := regs, sched := { s1.sched with conds := conds }
                  pcie := { s1.pcie with pba := pba }, sent := sent }
    ∧ (regs = s1.regs ∨ ∃ a c, regs = (s1.setReg agreeKey (meshFalls a c (s1.getReg agreeKey))).regs) ∧ s1.sent <:+ sent := by
  unfold State.finish
  obtain ⟨since, regs, hm, hr⟩ := meshTrack_spec s0 s1
  obtain ⟨pba, sent, hs, hq⟩ := signal_spec s0 (State.meshTrack s0 s1).condTrack
  rw [hs, hm]
  rw [hm] at hq
  exact ⟨since, regs, _, pba, sent, rfl, hr, hq⟩

@[simp] theorem finish_pwr (s0 s1 : State) : (s0.finish s1).pwr = s1.pwr := by
  obtain ⟨_, _, _, _, _, h, -⟩ := finish_spec s0 s1
  rw [h]

@[simp] theorem finish_time (s0 s1 : State) : (s0.finish s1).time = s1.time := by
  obtain ⟨_, _, _, _, _, h, -⟩ := finish_spec s0 s1
  rw [h]

@[simp] theorem finish_sup (s0 s1 : State) : (s0.finish s1).sup = s1.sup := by
  obtain ⟨_, _, _, _, _, h, -⟩ := finish_spec s0 s1
  rw [h]

@[simp] theorem finish_bitt (s0 s1 : State) : (s0.finish s1).bitt = s1.bitt := by
  obtain ⟨_, _, _, _, _, h, -⟩ := finish_spec s0 s1
  rw [h]

@[simp] theorem finish_nv (s0 s1 : State) : (s0.finish s1).nv = s1.nv := by
  obtain ⟨_, _, _, _, _, h, -⟩ := finish_spec s0 s1
  rw [h]

@[simp] theorem finish_tam (s0 s1 : State) : (s0.finish s1).tam = s1.tam := by
  obtain ⟨_, _, _, _, _, h, -⟩ := finish_spec s0 s1
  rw [h]

@[simp] theorem finish_fab (s0 s1 : State) : (s0.finish s1).fab = s1.fab := by
  obtain ⟨_, _, _, _, _, h, -⟩ := finish_spec s0 s1
  rw [h]

@[simp] theorem finish_heap (s0 s1 : State) : (s0.finish s1).heap = s1.heap := by
  obtain ⟨_, _, _, _, _, h, -⟩ := finish_spec s0 s1
  rw [h]

@[simp] theorem finish_xbar (s0 s1 : State) : (s0.finish s1).xbar = s1.xbar := by
  obtain ⟨_, _, _, _, _, h, -⟩ := finish_spec s0 s1
  rw [h]

@[simp] theorem finish_links (s0 s1 : State) : (s0.finish s1).links = s1.links := by
  obtain ⟨_, _, _, _, _, h, -⟩ := finish_spec s0 s1
  rw [h]

@[simp] theorem finish_dma (s0 s1 : State) : (s0.finish s1).dma = s1.dma := by
  obtain ⟨_, _, _, _, _, h, -⟩ := finish_spec s0 s1
  rw [h]

@[simp] theorem finish_net (s0 s1 : State) : (s0.finish s1).net = s1.net := by
  obtain ⟨_, _, _, _, _, h, -⟩ := finish_spec s0 s1
  rw [h]

@[simp] theorem finish_slu (s0 s1 : State) : (s0.finish s1).slu = s1.slu := by
  obtain ⟨_, _, _, _, _, h, -⟩ := finish_spec s0 s1
  rw [h]

@[simp] theorem finish_pans (s0 s1 : State) : (s0.finish s1).pans = s1.pans := by
  obtain ⟨_, _, _, _, _, h, -⟩ := finish_spec s0 s1
  rw [h]

@[simp] theorem finish_cmds (s0 s1 : State) : (s0.finish s1).cmds = s1.cmds := by
  obtain ⟨_, _, _, _, _, h, -⟩ := finish_spec s0 s1
  rw [h]

@[simp] theorem finish_sal (s0 s1 : State) : (s0.finish s1).sal = s1.sal := by
  obtain ⟨_, _, _, _, _, h, -⟩ := finish_spec s0 s1
  rw [h]

@[simp] theorem finish_pins (s0 s1 : State) : (s0.finish s1).pins = s1.pins := by
  obtain ⟨_, _, _, _, _, h, -⟩ := finish_spec s0 s1
  rw [h]

@[simp] theorem finish_test (s0 s1 : State) : (s0.finish s1).test = s1.test := by
  obtain ⟨_, _, _, _, _, h, -⟩ := finish_spec s0 s1
  rw [h]

@[simp] theorem finish_free (s0 s1 : State) : (s0.finish s1).free = s1.free := by
  obtain ⟨_, _, _, _, _, h, -⟩ := finish_spec s0 s1
  rw [h]

@[simp] theorem finish_pending (s0 s1 : State) : (s0.finish s1).pending = s1.pending := by
  obtain ⟨_, _, _, _, _, h, -⟩ := finish_spec s0 s1
  rw [h]

@[simp] theorem finish_mesh_lsas (s0 s1 : State) : (s0.finish s1).mesh.lsas = s1.mesh.lsas := by
  obtain ⟨_, _, _, _, _, h, -⟩ := finish_spec s0 s1
  rw [h]

@[simp] theorem finish_mesh_ownSeq (s0 s1 : State) : (s0.finish s1).mesh.ownSeq = s1.mesh.ownSeq := by
  obtain ⟨_, _, _, _, _, h, -⟩ := finish_spec s0 s1
  rw [h]

@[simp] theorem finish_mesh_role (s0 s1 : State) : (s0.finish s1).mesh.role = s1.mesh.role := by
  obtain ⟨_, _, _, _, _, h, -⟩ := finish_spec s0 s1
  rw [h]

@[simp] theorem finish_mesh_aligned (s0 s1 : State) : (s0.finish s1).mesh.aligned = s1.mesh.aligned := by
  obtain ⟨_, _, _, _, _, h, -⟩ := finish_spec s0 s1
  rw [h]

@[simp] theorem finish_mesh_ofs (s0 s1 : State) : (s0.finish s1).mesh.ofs = s1.mesh.ofs := by
  obtain ⟨_, _, _, _, _, h, -⟩ := finish_spec s0 s1
  rw [h]

@[simp] theorem finish_mesh_measAt (s0 s1 : State) : (s0.finish s1).mesh.measAt = s1.mesh.measAt := by
  obtain ⟨_, _, _, _, _, h, -⟩ := finish_spec s0 s1
  rw [h]

@[simp] theorem finish_mesh_auth (s0 s1 : State) : (s0.finish s1).mesh.auth = s1.mesh.auth := by
  obtain ⟨_, _, _, _, _, h, -⟩ := finish_spec s0 s1
  rw [h]

@[simp] theorem finish_mesh_adoptPend (s0 s1 : State) : (s0.finish s1).mesh.adoptPend = s1.mesh.adoptPend := by
  obtain ⟨_, _, _, _, _, h, -⟩ := finish_spec s0 s1
  rw [h]

@[simp] theorem finish_mesh_tags (s0 s1 : State) : (s0.finish s1).mesh.tags = s1.mesh.tags := by
  obtain ⟨_, _, _, _, _, h, -⟩ := finish_spec s0 s1
  rw [h]

@[simp] theorem finish_mesh_nextTag (s0 s1 : State) : (s0.finish s1).mesh.nextTag = s1.mesh.nextTag := by
  obtain ⟨_, _, _, _, _, h, -⟩ := finish_spec s0 s1
  rw [h]

@[simp] theorem finish_mesh_inbox (s0 s1 : State) : (s0.finish s1).mesh.inbox = s1.mesh.inbox := by
  obtain ⟨_, _, _, _, _, h, -⟩ := finish_spec s0 s1
  rw [h]

@[simp] theorem finish_sched_st0 (s0 s1 : State) : (s0.finish s1).sched.st0 = s1.sched.st0 := by
  obtain ⟨_, _, _, _, _, h, -⟩ := finish_spec s0 s1
  rw [h]

@[simp] theorem finish_sched_st1 (s0 s1 : State) : (s0.finish s1).sched.st1 = s1.sched.st1 := by
  obtain ⟨_, _, _, _, _, h, -⟩ := finish_spec s0 s1
  rw [h]

@[simp] theorem finish_sched_image0 (s0 s1 : State) : (s0.finish s1).sched.image0 = s1.sched.image0 := by
  obtain ⟨_, _, _, _, _, h, -⟩ := finish_spec s0 s1
  rw [h]

@[simp] theorem finish_sched_image1 (s0 s1 : State) : (s0.finish s1).sched.image1 = s1.sched.image1 := by
  obtain ⟨_, _, _, _, _, h, -⟩ := finish_spec s0 s1
  rw [h]

@[simp] theorem finish_sched_check (s0 s1 : State) : (s0.finish s1).sched.check = s1.sched.check := by
  obtain ⟨_, _, _, _, _, h, -⟩ := finish_spec s0 s1
  rw [h]

@[simp] theorem finish_sched_run (s0 s1 : State) : (s0.finish s1).sched.run = s1.sched.run := by
  obtain ⟨_, _, _, _, _, h, -⟩ := finish_spec s0 s1
  rw [h]

@[simp] theorem finish_sched_stress (s0 s1 : State) : (s0.finish s1).sched.stress = s1.sched.stress := by
  obtain ⟨_, _, _, _, _, h, -⟩ := finish_spec s0 s1
  rw [h]

@[simp] theorem finish_sched_pend (s0 s1 : State) : (s0.finish s1).sched.pend = s1.sched.pend := by
  obtain ⟨_, _, _, _, _, h, -⟩ := finish_spec s0 s1
  rw [h]

@[simp] theorem finish_sched_cancel (s0 s1 : State) : (s0.finish s1).sched.cancel = s1.sched.cancel := by
  obtain ⟨_, _, _, _, _, h, -⟩ := finish_spec s0 s1
  rw [h]

@[simp] theorem finish_sched_standbyHalt (s0 s1 : State) : (s0.finish s1).sched.standbyHalt = s1.sched.standbyHalt := by
  obtain ⟨_, _, _, _, _, h, -⟩ := finish_spec s0 s1
  rw [h]

@[simp] theorem finish_sched_dryStore (s0 s1 : State) : (s0.finish s1).sched.dryStore = s1.sched.dryStore := by
  obtain ⟨_, _, _, _, _, h, -⟩ := finish_spec s0 s1
  rw [h]

@[simp] theorem finish_sched_age (s0 s1 : State) : (s0.finish s1).sched.age = s1.sched.age := by
  obtain ⟨_, _, _, _, _, h, -⟩ := finish_spec s0 s1
  rw [h]

@[simp] theorem finish_sched_prevLen (s0 s1 : State) : (s0.finish s1).sched.prevLen = s1.sched.prevLen := by
  obtain ⟨_, _, _, _, _, h, -⟩ := finish_spec s0 s1
  rw [h]

@[simp] theorem finish_sched_prevNum (s0 s1 : State) : (s0.finish s1).sched.prevNum = s1.sched.prevNum := by
  obtain ⟨_, _, _, _, _, h, -⟩ := finish_spec s0 s1
  rw [h]

@[simp] theorem finish_sched_brLast (s0 s1 : State) : (s0.finish s1).sched.brLast = s1.sched.brLast := by
  obtain ⟨_, _, _, _, _, h, -⟩ := finish_spec s0 s1
  rw [h]

@[simp] theorem finish_sched_flushed (s0 s1 : State) : (s0.finish s1).sched.flushed = s1.sched.flushed := by
  obtain ⟨_, _, _, _, _, h, -⟩ := finish_spec s0 s1
  rw [h]

@[simp] theorem finish_pcie_up (s0 s1 : State) : (s0.finish s1).pcie.up = s1.pcie.up := by
  obtain ⟨_, _, _, _, _, h, -⟩ := finish_spec s0 s1
  rw [h]

@[simp] theorem finish_pcie_speed (s0 s1 : State) : (s0.finish s1).pcie.speed = s1.pcie.speed := by
  obtain ⟨_, _, _, _, _, h, -⟩ := finish_spec s0 s1
  rw [h]

@[simp] theorem finish_pcie_width (s0 s1 : State) : (s0.finish s1).pcie.width = s1.pcie.width := by
  obtain ⟨_, _, _, _, _, h, -⟩ := finish_spec s0 s1
  rw [h]

@[simp] theorem finish_pcie_d3 (s0 s1 : State) : (s0.finish s1).pcie.d3 = s1.pcie.d3 := by
  obtain ⟨_, _, _, _, _, h, -⟩ := finish_spec s0 s1
  rw [h]

@[simp] theorem finish_pcie_bme (s0 s1 : State) : (s0.finish s1).pcie.bme = s1.pcie.bme := by
  obtain ⟨_, _, _, _, _, h, -⟩ := finish_spec s0 s1
  rw [h]

@[simp] theorem finish_pcie_msixEn (s0 s1 : State) : (s0.finish s1).pcie.msixEn = s1.pcie.msixEn := by
  obtain ⟨_, _, _, _, _, h, -⟩ := finish_spec s0 s1
  rw [h]

@[simp] theorem finish_pcie_maskAll (s0 s1 : State) : (s0.finish s1).pcie.maskAll = s1.pcie.maskAll := by
  obtain ⟨_, _, _, _, _, h, -⟩ := finish_spec s0 s1
  rw [h]

@[simp] theorem finish_pcie_mps (s0 s1 : State) : (s0.finish s1).pcie.mps = s1.pcie.mps := by
  obtain ⟨_, _, _, _, _, h, -⟩ := finish_spec s0 s1
  rw [h]

@[simp] theorem finish_pcie_mrrs (s0 s1 : State) : (s0.finish s1).pcie.mrrs = s1.pcie.mrrs := by
  obtain ⟨_, _, _, _, _, h, -⟩ := finish_spec s0 s1
  rw [h]

@[simp] theorem finish_pcie_cplUs (s0 s1 : State) : (s0.finish s1).pcie.cplUs = s1.pcie.cplUs := by
  obtain ⟨_, _, _, _, _, h, -⟩ := finish_spec s0 s1
  rw [h]

@[simp] theorem finish_pcie_table (s0 s1 : State) : (s0.finish s1).pcie.table = s1.pcie.table := by
  obtain ⟨_, _, _, _, _, h, -⟩ := finish_spec s0 s1
  rw [h]

@[simp] theorem finish_pcie_outbound (s0 s1 : State) : (s0.finish s1).pcie.outbound = s1.pcie.outbound := by
  obtain ⟨_, _, _, _, _, h, -⟩ := finish_spec s0 s1
  rw [h]


theorem finish_sent (s0 s1 : State) : s1.sent <:+ (s0.finish s1).sent := by
  obtain ⟨_, _, _, _, _, h, -, hs⟩ := finish_spec s0 s1
  rw [h]
  exact hs

/-- The registers after `State.finish`. -/
theorem finish_regs (s0 s1 : State) : (s0.finish s1).regs = s1.regs
    ∨ ∃ a c, (s0.finish s1).regs = (s1.setReg agreeKey (meshFalls a c (s1.getReg agreeKey))).regs := by
  obtain ⟨_, _, _, _, _, h, hr, -⟩ := finish_spec s0 s1
  rw [h]
  exact hr

/-- A register after `State.finish`. -/
theorem finish_getReg (s0 s1 : State) (k : Nat) : (s0.finish s1).getReg k = s1.getReg k
    ∨ (k = agreeKey ∧ ∃ a c, (s0.finish s1).getReg k = meshFalls a c (s1.getReg k)) := by
  rcases finish_regs s0 s1 with h | ⟨a, c, h⟩
  · exact Or.inl (getReg_congr h k)
  · rw [getReg_congr h k, getReg_setReg]
    by_cases hk : k = agreeKey
    · exact Or.inr ⟨hk, a, c, by rw [if_pos hk, hk]⟩
    · exact Or.inl (if_neg hk)

/-- A register other than the one that shows the falls of `ALIGNED` and `ARM_AGREE`, after `State.finish`. -/
@[simp] theorem finish_getReg_ne {s0 s1 : State} {k : Nat} (h : k ≠ agreeKey) : (s0.finish s1).getReg k = s1.getReg k :=
  (finish_getReg s0 s1 k).resolve_right fun hk => h hk.1

theorem Part.same_refl (s : State) (p : Part) : p.same s s := by cases p <;> rfl

theorem Part.same_trans {s t u : State} {p : Part} (h : p.same s t) (g : p.same t u) : p.same s u := by
  cases p <;> exact Eq.trans g h

/-- A part that is the same is the same with what every command leaves tracked put aside. -/
theorem Part.same_untracked {s t : State} {p : Part} (h : p.same s t) : p.same s.untracked t.untracked := by
  cases p <;> simp only [Part.same, State.untracked] at h ⊢ <;> first | exact h | rw [h]

theorem finish_same_untracked (s0 s1 : State) (p : Part) : p.same s1.untracked (s0.finish s1).untracked := by
  obtain ⟨_, _, _, _, _, h, -⟩ := finish_spec s0 s1
  rw [h]
  cases p <;> rfl

theorem Only.refl (K : Nat → Prop) (ps : List Part) (s : State) : Only K ps s s :=
  ⟨fun _ _ => rfl, fun p _ => Part.same_refl s p, List.suffix_refl _⟩

theorem Only.trans {K : Nat → Prop} {ps : List Part} {s t u : State} (h : Only K ps s t) (g : Only K ps t u) : Only K ps s u :=
  ⟨fun k hk => (g.1 k hk).trans (h.1 k hk), fun p hp => Part.same_trans (h.2.1 p hp) (g.2.1 p hp), h.2.2.trans g.2.2⟩

theorem Only.mono {K L : Nat → Prop} {ps qs : List Part} {s t : State} (hK : ∀ k, K k → L k) (hp : ∀ p, p ∈ ps → p ∈ qs)
    (h : Only K ps s t) : Only L qs s t :=
  ⟨fun k hk => h.1 k fun x => hk (hK k x), fun p hq => h.2.1 p fun x => hq (hp p x), h.2.2⟩

/-- A register write inside the frame. -/
theorem Only.setReg {K : Nat → Prop} {ps : List Part} {s t : State} {k : Nat} (v : Word) (hk : K k) (h : Only K ps s t) :
    Only K ps s (t.setReg k v) := by
  refine ⟨fun j hj => ?_, fun p hp => ?_, h.2.2⟩
  · rw [getReg_setReg_ne (fun e => hj (by rw [e]; exact hk))]
    exact h.1 j hj
  · have := h.2.1 p hp
    cases p <;> exact this

theorem Only.wr {K : Nat → Prop} {ps : List Part} {s t : State} {r : Reg} {u i : Nat} (v : Word) (hk : K (r.key u i))
    (h : Only K ps s t) : Only K ps s (t.wr r u v i) := Only.setReg v hk h

theorem Only.setHdr {K : Nat → Prop} {ps : List Part} {s t : State} {g i : Nat} (v : Word) (hk : K (regKey 0 g 0 i))
    (h : Only K ps s t) : Only K ps s (t.setHdr g i v) := Only.setReg v hk h

theorem Only.raise {K : Nat → Prop} {ps : List Part} {s t : State} {g i : Nat} (hk : K (regKey 0 g 0 hEvt))
    (h : Only K ps s t) : Only K ps s (t.raise g i) := Only.setReg _ hk h

/-- A change of listed parts, with the registers and what was sent as they were. -/
theorem Only.parts {K : Nat → Prop} {ps : List Part} {s t u : State} (h : Only K ps s t) (hr : u.regs = t.regs)
    (hs : u.sent = t.sent) (hp : ∀ p, p ∉ ps → p.same t u) : Only K ps s u :=
  ⟨fun k hk => (getReg_congr hr k).trans (h.1 k hk), fun p hq => Part.same_trans (h.2.1 p hq) (hp p hq), hs ▸ h.2.2⟩

theorem Only.emit {K : Nat → Prop} {ps : List Part} {s t : State} (o : Output) (h : Only K ps s t) : Only K ps s (t.emit o) :=
  ⟨h.1, fun p hp => by have := h.2.1 p hp; cases p <;> exact this, h.2.2.trans (List.suffix_cons _ _)⟩

theorem Only.set_pwr {K : Nat → Prop} {ps : List Part} {s t : State} (v) (hp : Part.pwr ∈ ps) (h : Only K ps s t) :
    Only K ps s { t with pwr := v } :=
  h.parts rfl rfl fun p hq => by cases p <;> first | rfl | exact absurd hp hq

theorem Only.set_time {K : Nat → Prop} {ps : List Part} {s t : State} (v) (hp : Part.time ∈ ps) (h : Only K ps s t) :
    Only K ps s { t with time := v } :=
  h.parts rfl rfl fun p hq => by cases p <;> first | rfl | exact absurd hp hq

theorem Only.set_sup {K : Nat → Prop} {ps : List Part} {s t : State} (v) (hp : Part.sup ∈ ps) (h : Only K ps s t) :
    Only K ps s { t with sup := v } :=
  h.parts rfl rfl fun p hq => by cases p <;> first | rfl | exact absurd hp hq

theorem Only.set_bitt {K : Nat → Prop} {ps : List Part} {s t : State} (v) (hp : Part.bitt ∈ ps) (h : Only K ps s t) :
    Only K ps s { t with bitt := v } :=
  h.parts rfl rfl fun p hq => by cases p <;> first | rfl | exact absurd hp hq

theorem Only.set_nv {K : Nat → Prop} {ps : List Part} {s t : State} (v) (hp : Part.nv ∈ ps) (h : Only K ps s t) :
    Only K ps s { t with nv := v } :=
  h.parts rfl rfl fun p hq => by cases p <;> first | rfl | exact absurd hp hq

theorem Only.set_tam {K : Nat → Prop} {ps : List Part} {s t : State} (v) (hp : Part.tam ∈ ps) (h : Only K ps s t) :
    Only K ps s { t with tam := v } :=
  h.parts rfl rfl fun p hq => by cases p <;> first | rfl | exact absurd hp hq

theorem Only.set_fab {K : Nat → Prop} {ps : List Part} {s t : State} (v) (hp : Part.fab ∈ ps) (h : Only K ps s t) :
    Only K ps s { t with fab := v } :=
  h.parts rfl rfl fun p hq => by cases p <;> first | rfl | exact absurd hp hq

theorem Only.set_heap {K : Nat → Prop} {ps : List Part} {s t : State} (v) (hp : Part.heap ∈ ps) (h : Only K ps s t) :
    Only K ps s { t with heap := v } :=
  h.parts rfl rfl fun p hq => by cases p <;> first | rfl | exact absurd hp hq

theorem Only.set_xbar {K : Nat → Prop} {ps : List Part} {s t : State} (v) (hp : Part.xbar ∈ ps) (h : Only K ps s t) :
    Only K ps s { t with xbar := v } :=
  h.parts rfl rfl fun p hq => by cases p <;> first | rfl | exact absurd hp hq

theorem Only.set_links {K : Nat → Prop} {ps : List Part} {s t : State} (v) (hp : Part.links ∈ ps) (h : Only K ps s t) :
    Only K ps s { t with links := v } :=
  h.parts rfl rfl fun p hq => by cases p <;> first | rfl | exact absurd hp hq

theorem Only.set_dma {K : Nat → Prop} {ps : List Part} {s t : State} (v) (hp : Part.dma ∈ ps) (h : Only K ps s t) :
    Only K ps s { t with dma := v } :=
  h.parts rfl rfl fun p hq => by cases p <;> first | rfl | exact absurd hp hq

theorem Only.set_net {K : Nat → Prop} {ps : List Part} {s t : State} (v) (hp : Part.net ∈ ps) (h : Only K ps s t) :
    Only K ps s { t with net := v } :=
  h.parts rfl rfl fun p hq => by cases p <;> first | rfl | exact absurd hp hq

theorem Only.set_slu {K : Nat → Prop} {ps : List Part} {s t : State} (v) (hp : Part.slu ∈ ps) (h : Only K ps s t) :
    Only K ps s { t with slu := v } :=
  h.parts rfl rfl fun p hq => by cases p <;> first | rfl | exact absurd hp hq

theorem Only.set_pans {K : Nat → Prop} {ps : List Part} {s t : State} (v) (hp : Part.pans ∈ ps) (h : Only K ps s t) :
    Only K ps s { t with pans := v } :=
  h.parts rfl rfl fun p hq => by cases p <;> first | rfl | exact absurd hp hq

theorem Only.set_cmds {K : Nat → Prop} {ps : List Part} {s t : State} (v) (hp : Part.cmds ∈ ps) (h : Only K ps s t) :
    Only K ps s { t with cmds := v } :=
  h.parts rfl rfl fun p hq => by cases p <;> first | rfl | exact absurd hp hq

theorem Only.set_sal {K : Nat → Prop} {ps : List Part} {s t : State} (v) (hp : Part.sal ∈ ps) (h : Only K ps s t) :
    Only K ps s { t with sal := v } :=
  h.parts rfl rfl fun p hq => by cases p <;> first | rfl | exact absurd hp hq

theorem Only.set_pins {K : Nat → Prop} {ps : List Part} {s t : State} (v) (hp : Part.pins ∈ ps) (h : Only K ps s t) :
    Only K ps s { t with pins := v } :=
  h.parts rfl rfl fun p hq => by cases p <;> first | rfl | exact absurd hp hq

theorem Only.set_test {K : Nat → Prop} {ps : List Part} {s t : State} (v) (hp : Part.test ∈ ps) (h : Only K ps s t) :
    Only K ps s { t with test := v } :=
  h.parts rfl rfl fun p hq => by cases p <;> first | rfl | exact absurd hp hq

theorem Only.set_free {K : Nat → Prop} {ps : List Part} {s t : State} (v) (hp : Part.free ∈ ps) (h : Only K ps s t) :
    Only K ps s { t with free := v } :=
  h.parts rfl rfl fun p hq => by cases p <;> first | rfl | exact absurd hp hq

theorem Only.set_pending {K : Nat → Prop} {ps : List Part} {s t : State} (v) (hp : Part.pending ∈ ps) (h : Only K ps s t) :
    Only K ps s { t with pending := v } :=
  h.parts rfl rfl fun p hq => by cases p <;> first | rfl | exact absurd hp hq

theorem Only.set_sched {K : Nat → Prop} {ps : List Part} {s t : State} (v) (hp : Part.sched ∈ ps) (h : Only K ps s t) :
    Only K ps s { t with sched := v } :=
  h.parts rfl rfl fun p hq => by cases p <;> first | rfl | exact absurd hp hq

theorem Only.set_pcie {K : Nat → Prop} {ps : List Part} {s t : State} (v) (hp : Part.pcie ∈ ps) (h : Only K ps s t) :
    Only K ps s { t with pcie := v } :=
  h.parts rfl rfl fun p hq => by cases p <;> first | rfl | exact absurd hp hq

theorem Only.set_mesh {K : Nat → Prop} {ps : List Part} {s t : State} (v) (hp : Part.mesh ∈ ps) (h : Only K ps s t) :
    Only K ps s { t with mesh := v } :=
  h.parts rfl rfl fun p hq => by cases p <;> first | rfl | exact absurd hp hq


/-- A report to the bittern writes its part, and where it is suppressed `ERR_SUPPRESSED` and an event (R507). -/
theorem Only.report {K : Nat → Prop} {ps : List Part} {s t : State} (page bank cls : Nat) (d0 d1 : Word)
    (hK : ∀ k ∈ reportKeys, K k) (hp : Part.bitt ∈ ps) (h : Only K ps s t) : Only K ps s (t.report page bank cls d0 d1) := by
  unfold State.report
  dsimp only
  split
  · exact h.set_bitt _ hp
  · split
    · exact Only.set_bitt _ hp (h.set_bitt _ hp)
    · exact Only.set_bitt _ hp (Only.raise (hK _ (by simp [reportKeys])) (Only.wr _ (hK _ (by simp [reportKeys])) h))

/-- What a command leaves unchanged when its effect does. -/
theorem Only.frame {K : Nat → Prop} {ps : List Part} {s s1 : State} (h : Only K ps s s1) : Frame K ps s (s.finish s1) :=
  ⟨fun k hk => by rw [← h.1 k hk]; exact finish_getReg s s1 k,
   fun p hp => Part.same_trans (Part.same_untracked (h.2.1 p hp)) (finish_same_untracked s s1 p),
   h.2.2.trans (finish_sent s s1)⟩

/-- A command that ends in `done` completes. -/
theorem Gives.done {c : Instr} {s s1 : State} {P : State → Prop} (h : exec c s = done s s1) (hP : P (s.finish s1)) :
    Gives c s P := ⟨_, h, hP⟩

end Sys2Proof.Machine
end

