-- ==== Sys2Proof/Laws/Pass.lean ====
section
/-! SUPPORT. Laws of time passing (R118): what each event of the units keeps, and what counting keeps, the passing of time keeps. -/

namespace Sys2Proof.Machine

/-- What each step of a fold keeps, the fold keeps. -/
theorem foldl_keeps {α : Type} {P : State → Prop} {f : State → α → State} (h : ∀ s a, P s → P (f s a)) :
    ∀ (xs : List α) (s : State), P s → P (xs.foldl f s)
  | [], _, hs => hs
  | x :: xs, s, hs => foldl_keeps h xs (f s x) (h s x hs)

/-- What bringing each kind of unit up to date keeps, bringing all of them up to date keeps. -/
theorem unitsNow_keeps {P : State → Prop} (dma : ∀ s, P s → P s.dmaNow) (links : ∀ s, P s → P s.linksNow)
    (ports : ∀ (s : State) (e : Nat), P s → P (s.flightsNow e)) (feeds : ∀ (s : State) (f t : Nat), P s → P (s.feedTo f t))
    (rows : ∀ (s : State) (r t : Nat), P s → P (s.rowDue r t)) (incs : ∀ (s : State) (p t : Nat), P s → P (s.incsTo p t))
    (rakes : ∀ (s : State) (k : Nat), P s → P (s.rakeNow k)) (fills : ∀ (s : State) (p t : Nat), P s → P (s.fillTo p t))
    {s : State} (h : P s) : P s.unitsNow := by
  unfold State.unitsNow
  dsimp only
  exact foldl_keeps (fun s p hs => fills s p _ hs) _ _
    (foldl_keeps rakes _ _
      (foldl_keeps (fun s p hs => incs s p _ hs) _ _
        (foldl_keeps (fun s r hs => rows s r _ hs) _ _
          (foldl_keeps (fun s f hs => feeds s f _ hs) _ _
            (foldl_keeps ports _ _ (links _ (dma _ h)))))))

theorem passBy_keeps {P : State → Prop} (count : ∀ (s : State) (n : Nat), P s → P (s.advance n))
    (units : ∀ s, P s → P s.unitsNow) : ∀ (fuel : Nat) {s : State} (n : Nat), P s → P (State.passBy fuel s n)
  | 0, s, n, h => count s n h
  | fuel + 1, s, n, h => by
    unfold State.passBy
    split
    · exact count s n h
    · dsimp only
      split
      · exact passBy_keeps count units fuel _ (units _ (count _ _ h))
      · exact count s n h

/-- What counting and the units' events keep, the passing of time keeps. -/
theorem pass_keeps {P : State → Prop} (count : ∀ (s : State) (n : Nat), P s → P (s.advance n))
    (units : ∀ s, P s → P s.unitsNow) {s : State} (n : Nat) (h : P s) : P (s.pass n) :=
  passBy_keeps count units _ n h

/-- Waiting for a moment is time passing. -/
theorem waitTo_keeps {P : State → Prop} (count : ∀ (s : State) (n : Nat), P s → P (s.advance n))
    (units : ∀ s, P s → P s.unitsNow) {s : State} (t : Nat) (h : P s) : P (s.waitTo t) :=
  pass_keeps count units _ h

/-- The host's posted writes, applied one in an RCLK: what applying one and ending its RCLK keeps, draining them keeps. -/
theorem drainPosted_keeps {P : State → Prop} (h : ∀ s : State, P s → P (s.finish s.applyPosted)) {s : State} (hs : P s) :
    P s.drainPosted :=
  foldl_keeps (fun s _ => h s) _ _ hs

/-- Counting leaves every register as it is. -/
@[simp] theorem advance_regs (s : State) (n : Nat) : (s.advance n).regs = s.regs := rfl
@[simp] theorem advance_getReg (s : State) (n k : Nat) : (s.advance n).getReg k = s.getReg k := rfl
@[simp] theorem advance_sent (s : State) (n : Nat) : (s.advance n).sent = s.sent := rfl
@[simp] theorem advance_total (s : State) (n : Nat) : (s.advance n).time.total = s.time.total + n := rfl
@[simp] theorem advance_tide (s : State) (n : Nat) : (s.advance n).time.tide = s.time.tide := rfl
@[simp] theorem advance_epoch (s : State) (n : Nat) : (s.advance n).time.epoch = s.time.epoch := rfl

/-- Counting changes the time alone. -/
theorem Only.advance {K : Nat → Prop} {ps : List Part} {s t : State} (n : Nat) (hp : Part.time ∈ ps) (h : Only K ps s t) :
    Only K ps s (t.advance n) :=
  h.parts rfl rfl fun p hq => by cases p <;> first | rfl | exact absurd hp hq

end Sys2Proof.Machine
end

