-- ==== Sys2Proof/Tests/Slice0.lean ====
section
/-!
SUPPORT. Tests: small states for the witnesses, one witness for each clause of a statement that has hypotheses, the
ill-formed commands that `Instr.wf` refuses, and the spec's own worked examples.
-/

set_option Elab.async false
set_option linter.unusedVariables false
set_option linter.unreachableTactic false
set_option linter.unusedTactic false

namespace Sys2Proof.Machine

/-- A machine that runs: supplies, reset pins, both supervisors, no image. -/
def up : State :=
  { pwr := { porPin := true, porN := true, feedA := true, feedB := true, load := some .a, started := 0xFF, railOk := 0xFF
             coreUp := true, coreReady := true, state := .run, rows := 16 }
    sup := { sv0 := .active, sv1 := .standby, ready := true } }

/-- An image's bytes from words at byte offsets. -/
def imageOf (ws : List (Nat × Word)) : Memory := ws.foldl (fun m w => m.setWord w.1 w.2) []

/-- A running image in which unit 5 owns slot 3 of pseudo-channel 0. -/
def heapImage : Memory :=
  imageOf [(8, 0x20000), (0x100, 0x0100000000000000), (0x108, 0x1000), (0x120, 0x0200000000000000), (0x128, 0x2000),
    (0x1028, 0x1000000), (0x2040, 0x1005000000000000)]

/-- Controller 0 serves, and one part of an access waits at pseudo-channel 0 as transaction 4: a write of some bytes, or a read. -/
def openAt (w : Bool) (len : Nat) (merge : Option (List Byte)) : State :=
  let q : HReq := { txn := 4, qos := 0, write := w, parts := [{ addr := 64, lo := 0, len := len, data := if w then List.replicate len 7 else []
                                                                merge := merge }] }
  { up with time := { pos := 768 }, heap := { ctrl := [(0, { state := .ready })], pch := [(0, { queue := [q] })] }
            xbar := { txns := [(4, some { master := 2, secure := false, write := w, addr := 64, len := 64, data := List.replicate 64 (if w then 7 else 0)
                                          qos := 0, waited := 0, port := 0, gen := some 0, left := 1, resp := none, origin := .outside })] } }

/-- A running image whose quad 0 expects stream 0, bound to slot 0 of unit 0, and the sums of pan row 0. -/
def linkImage : Memory :=
  imageOf [(8, 0x20000), (0x100, 0x0700000000000000), (0x108, 0x1000), (0x120, 0x0400000000000000), (0x128, 0x2000),
    (0x1000, 2), (0x1008, 1), (0x1040, 0x1000000000000000), (0x1048, 0x2000000000000000), (0x2000, 1), (0x2008, 1),
    (0x2040, 0x2000000000000000)]

/-- A running image whose only section is quad 7's transmit map: slot 2 of quad 7 itself. -/
def txImage : Memory :=
  imageOf [(8, 0x10000), (0x100, 0x0200000000000000), (0x108, 0x1000), (0x1000, 0x0300000000000007), (0x1040, 0x0000100700000000)]

/-- A cell of a type with all else zero, its CRC in place. -/
def cellOf (type : Nat) : List Word := sealCell (word (at_ 60 type) :: List.replicate 31 0) false

/-- Quad 7's link is up at its slot 2, with an exported cell of row 0 to send. -/
def txAt : State :=
  { up with time := { pos := 512 }, sched := { run := some 0, image0 := txImage }, regs := [(R.LINK_STAT.key 7, 0x20005)]
            pans := { row := [(0, { exq := [(0, 7, cellOf 5)] })] } }

/-- A running image that binds unit 3 with P = 2: stream 0 to slot 2 with a span of 1,024 samples, `LAG` 0, a pond. -/
def sluImage : Memory :=
  imageOf [(8, 0x10000), (0x100, 0x0400000000000000), (0x108, 0x1000), (0x1000, 4), (0x1008, 8),
    (0x1040, 0x1010000000000000), (0x1048, 0x2000200000040000), (0x1050, 0x3000000000000000), (0x1058, 0x4000000000000000)]

/-- A running image whose unit 3 resamples with a step of 1. -/
def rsImage : Memory :=
  imageOf [(8, 0x10000), (0x100, 0x0400000000000000), (0x108, 0x1000), (0x1000, 3), (0x1008, 8),
    (0x1040, 0x1000000000000000), (0x1048, 0x3000000000000000), (0x1050, 0x5000000100000000)]

/-- A running image that binds one unit's program, of one instruction. -/
def oneProg (ty u : Nat) (w : Word) : Memory :=
  imageOf [(8, 0x10000), (0x100, word (at_ 56 ty)), (0x108, 0x1000), (0x1000, 1), (0x1008 + 8 * (u / 64), word (at_ (u % 64) 1)),
    (0x1040, w)]
/-- A machine that runs a unit's one instruction. -/
def runs (ty u : Nat) (w : Word) : State := { up with sched := { run := some 0, image0 := oneProg ty u w } }
/-- Pan 17 runs a job whose first instructions are those. -/
def jobs (ws : List Word) : State :=
  { up with pans := { pan := [(17, { preempted := true, jobRun := true, jobs := ws.zipIdx.map fun x => (x.2, x.1) })] } }
/-- Page, expert mode and bank of a host's writes. -/
def hostOn (page bank : Nat) : Map Word := [(regKey 0 page 0 hCtrl, 3), (regKey 3 page 0 hBank, word bank)]
/-- Rake 63 with an `RBIND` of its port 3 through register 5. -/
def rakeAt : State :=
  { runs tyRake 63 0x832F800000000000 with pans := { rake := [(63, { regs := [(5, { base := 64, span := 4000 })] })] }
                                           regs := [(R.ACC_CFG.key 0, 1)] }
/-- A save block of rake 63 that a stream has met, with one entry still to come. -/
def saveBlk : RBlk :=
  { id := 0, port := 3, kind := .save, sigma := 15, q := 0, base := 6, ptr := 0, span := 600, nr := 0, nc := 0, tri := false, u := 0
    z := 521, taken := true, set := { gen := 0, i := 1, p := 0, d := 0, cfg := 0, stagger := 0, stokes := 0 }, arrived := 4098, resv := 0
    stream := some { save := true, tide := 0, epoch := 0, early := false } }
/-- Its stream, whose last entry comes at SCLK 6,148 of the tide. -/
def lastEntry : Stream := { first := 2, save := true, bank := none, early := false, next := 4098, blk := some 0 }
/-- Rake 63 with them. -/
def rakeEnd (pos : Nat) : State :=
  { up with time := { pos := pos }, pans := { rake := [(63, { blks := [saveBlk], streams := [(3, lastEntry)] })] } }
/-- Unit 3 resamples for row 2, with spectrum 8 of each slot at hand. -/
def rsAt (buf : Nat) : State :=
  { up with sched := { run := some 0, image0 := rsImage }
            regs := [(R.BF_RS.key 32, 0x0018), (R.RS_SPAN.key 32, 100), (R.RS_PTR.key 32, 99)]
            slu := { rs := (List.range 4).map fun m => ((48 + m) * 2 ^ 20 + 8, some { j := 8, v := none, gap := false, poison := false }) }
            pans := { row := [(2, { buf := buf, vbTide := some 0 })] } }
/-- A running image whose only section is port 31's map: slot 0 of port 31 itself. -/
def ethImage : Memory :=
  imageOf [(8, 0x10000), (0x100, 0x0200000000000000), (0x108, 0x1000), (0x1000, 0x020000000000001F), (0x1040, 0x1600)]
/-- Port 31 active, with a ready fragment of 64 bytes. -/
def ethReady (st : Nat) : State :=
  { up with sched := { run := some 0, image0 := ethImage }, regs := [(R.ETH_STAT.key 31, word st)]
            net := { port := [(31, { ready := [{ block := { src := 0, seq := 0, addr := 0, len := 64, kind := 1 }, size := 64
                                                 frag := 0, ofs := 0, len := 64, hdr := [], parts := [], left := 0
                                                 poison := false }] })] } }
/-- A receive ring: type 3, on, 4 entries at 0x10000, buffers of 2,048 bytes at 0x100000. -/
def rxRing : Ring := { d0 := 0x3011000000010000, d3 := 0xB000000000100000 }
/-- A transmit ring of port 31: type 4, on, 4 entries, one of them to be sent. -/
def txRing : Ring := { d0 := 0x4011000000010000, d1 := 1, d3 := 0x001F000000000000 }
/-- DMA channel 5 running, with an instruction's words fetched. -/
def dmaRun (ws : List Word) : State := { up with dma := { chan := [(5, { state := .run, pc := 64, instr := ws })] } }
/-- A write of 64 bytes to supervisor SRAM by master 2, and a machine in which it waits at its port as transaction 4. -/
def xfer : Txn :=
  { master := 2, secure := false, write := true, addr := 0x8001000000, len := 64, data := List.replicate 64 7, qos := 0, waited := 0
    port := 1, gen := none, left := 0, resp := none, origin := .outside }
def xferAt (rs : Map Word) : State := { up with regs := rs, xbar := { next := 5, txns := [(4, some xfer)] } }
/-- The firmware does not serve yet: notices are kept. -/
def early : State := { up with sup := { sv0 := .active, sv1 := .standby } }
/-- A command's words: opcode, expert form or not, arguments. -/
def cmdOf (op : Nat) (args : List Word) (expert : Bool := false) (begun : Bool := false) : CmdRun :=
  { ring := 6, idx := 9, words := word (at_ 48 op + at_ 32 (b2n expert) + 77) :: word (at_ 32 5) :: args, taken := 0
    replayed := false, begun := begun }
/-- Channel 3, on rings 6 and 7, runs a command; ring 7 is off, so that it has no space. -/
def chanAt (r : CmdRun) : State :=
  { up with cmds := { chan := [(3, { run := some r })] }, regs := [(R.CQ_CH.key 0 3, 0x8000600700000000)] }
/-- The same with ring 7 on: an event ring of 4 entries of the host. -/
def chanOpen (r : CmdRun) : State :=
  { chanAt r with net := { ring := [(6, { d0 := 0x1011000000020000, d1 := 0x000000090000000A }), (7, { d0 := 0x2011000000030000 })] } }
/-- The pending session of `authAt`. -/
def authOf : Session := { id := 5, auth := false, rights := 15, key := 2, challenge := some (List.replicate 32 5) }
/-- Channel 3 runs a `SESSION_AUTH` on its pending session, after some failures. -/
def authAt (fails : Nat) : State :=
  let r := cmdOf 0x11 [0x8001000000, 96]
  { chanAt r with cmds := { chan := [(3, { run := some r, fails := fails })], session := [(3, some authOf)] }
                  sup := { sv0 := .active, sv1 := .standby } }
/-- `IMAGE_LOAD` of 64 bytes of the supervisors' SRAM into store 1. -/
def loadRun : CmdRun := cmdOf 0x200 [0x8001000000, 0x100, 64]
/-- Store 1 is loaded, and channel 3 runs an arm of it, or a halt, for tide 64. -/
def armAt (op : Nat) (a1 : Word) : State :=
  { chanOpen (cmdOf op [64, a1]) with sched := { st1 := .valid, image1 := linkImage } }
/-- `REF_SELECT` in expert form. -/
def refRun : CmdRun := cmdOf 0x301 [0, 0x6543210, 4, 5, 0x2580001E] true
/-- Channel 3 runs it, with expert mode of the page on. -/
def refAt : State := { chanOpen refRun with regs := (chanOpen refRun).regs ++ [(regKey 0 0x02 0 hCtrl, 3)] }
/-- Channel 3 runs a command on quad 65, whose link is up. -/
def linkAt (r : CmdRun) : State := { chanOpen r with regs := (chanOpen r).regs ++ [(R.LINK_STAT.key 65, 5)] }
/-- Channel 3 runs a command on pan 17, whose program runs. -/
def preAt (r : CmdRun) (p : Pan) : State :=
  { chanOpen r with sched := { run := some 0, image0 := oneProg tyPan 17 0 }, pans := { pan := [(17, p)] } }
/-- `DELAY_MODELS` of one entry in the supervisors' SRAM, for slot 2 of unit 3. -/
def dmRun : CmdRun := cmdOf 0x400 [0x8001000000, 1, 64]
/-- Channel 3 runs it, while an image that binds the slot runs. -/
def dmAt : State :=
  { chanOpen dmRun with sched := { run := some 0, image0 := sluImage }
                        xbar := { sram := imageOf [(0, 0x6400000302), (16, 5)] } }
/-- `GAINS` of two channels of slot 2 of unit 3, from a channel on. -/
def gainRun (first : Word) : CmdRun := cmdOf 0x401 [0x8001000000, 0x302, 0x20000 + first]
/-- Channel 3 runs it, while an image that binds the slot runs. -/
def gainAt (first : Word) : State := { chanOpen (gainRun first) with sched := { run := some 0, image0 := sluImage } }
/-- Channel 3 runs a `WINDOW` of unit 3 with the default window. -/
def winAt : State := { chanOpen (cmdOf 0x402 [0, 0x103]) with sched := { run := some 0, image0 := sluImage } }
/-- Channel 3 runs a `WINDOW` of unit 3 with no coefficients. -/
def winBuf : State := { chanOpen (cmdOf 0x402 [0x8001000000, 3, 0]) with sched := { run := some 0, image0 := sluImage } }
/-- `DEST_TABLE` of entry 63. -/
def dstRun : CmdRun := cmdOf 0x404 [0x8001000000, 0x13F]
/-- A state with an overlay download of 128 bytes in progress, half of it received. -/
def recvAt (r : CmdRun) : State :=
  { chanOpen r with sup := { up.sup with recvLen := some 128, recvGot := 64, recvVer := 2 } }
/-- `UPDATE_CHUNK` of 64 bytes at an offset. -/
def chunkRun (ofs : Word) : CmdRun := cmdOf 0x601 [0x8001000000, 64, ofs]
/-- A download complete but for `UPDATE_END`. -/
def endAt (crc : Word) : State :=
  { chanOpen (cmdOf 0x602 [crc]) with sup := { up.sup with recvLen := some 64, recvGot := 64, recvVer := 2 } }
/-- A state with the update flag in a state. -/
def flagAt (s : State) (n : Nat) : State := s.setFlag { state := n }
/-- `OPKEY_SET` of a key in the supervisors' SRAM. -/
def keyRun : CmdRun := cmdOf 0x702 [0x8001000000, 15]
/-- P-384's generator as a key with all rights. -/
def keyBytes : List Byte :=
  (leBytes 48 0xAA87CA22BE8B05378EB1C71EF320AD746E1D3B628BA79B9859F741E082542A385502F25DBF55296C3A545E3872760AB7).reverse
    ++ (leBytes 48 0x3617DE4A96262C6F5D9E98BF9292DC29F8F41DBD289A147CE9DA3113B5F0B8C00A60B1CE1D7E819D7A431D7C90EA0E5F).reverse
    ++ [15, 0, 0, 0, 0, 0, 0, 0]
/-- Channel 3 runs it. -/
def keyAt : State := { chanOpen keyRun with xbar := { sram := Memory.write [] 0 keyBytes } }
/-- The bytes of an entry with a command of a session. -/
def takenBytes (op : Nat) (session : Nat) : List Byte := wordsBytes (word (at_ 48 op) :: word (at_ 32 session) :: List.replicate 6 0)
/-- That command as channel 3 takes it from ring 6. -/
def takenRun (op : Nat) (session : Nat) : CmdRun :=
  { ring := 6, idx := 9, words := word (at_ 48 op) :: word (at_ 32 session) :: List.replicate 6 0, taken := 0, replayed := false }
/-- Channel 3 is idle with that command at `HEAD`; its session is 5. -/
def takeAt (op : Nat) (session : Nat) : State :=
  { up with regs := [(R.CQ_CH.key 0 3, 0x8000600700000000)]
            net := { ring := [(6, { d0 := 0x1011008001000000, d1 := 0x000000090000000A }), (7, { d0 := 0x2011000000030000 })] }
            xbar := { sram := Memory.write [] 64 (takenBytes op session) }
            cmds := { session := [(3, some { authOf with auth := true, challenge := none })] } }
/-- The same at a replay, with the command's result in the journal. -/
def replayAt : State :=
  { takeAt 0x605 5 with cmds := { chan := [(3, { replay := true })]
                                  session := [(3, some { authOf with auth := true, challenge := none })]
                                  journal := [(3, some { idx := 9, tag := 0, opcode := 0x605
                                                         digest := leBytes 48 (sha384 (takenBytes 0x605 5))
                                                         result := some (0, [7]) })] } }
/-- A command with its result. -/
def heldRun : CmdRun := { cmdOf 0x100 [] with begun := true, result := some (0x21, [1, 2, 3]) }
/-- The salinometer's page enabled. -/
def salUp (rs : Map Word) : State := { up with regs := (regKey 0 0x5B 0 hCtrl, 1) :: rs }
/-- A dwell of three samples from SCLK 10 on, of an entry with a word's low half. -/
def dwellAt (rep : Nat) : State :=
  { salUp [] with sal := { phase := .dwelling, entry := 5, cur := word (at_ 40 2 + at_ 24 3), t0 := 20, rep := rep } }
/-- The same with the ring full. -/
def dwellFull : State := { dwellAt 0 with regs := (dwellAt 0).regs ++ [(R.RES_WSEQ.key 0, 0x20)] }
/-- The same as a burst. -/
def dwellBurst : State := { dwellAt 0 with sal := { (dwellAt 0).sal with cur := word (at_ 60 1 + at_ 40 2) } }
/-- Member 0 of a saltern of three, with a mesh link to member 1 on quad 65 and some bits of `ALIGN_SRC` and `ANCHOR`; quad 64's
link leads to no member. -/
def meshUp (cfg : Nat) : State :=
  { up with regs := [(R.LINK_STAT.key 64, 5), (R.LINK_STAT.key 65, 5), (R.PEER_SERIAL.key 65, 77), (R.PEER_PORT.key 65, 0x100),
                     (regKey 0 0x5D 0 hCtrl, 1), (R.MESH_CFG.key 0, word (at_ 32 3 + at_ 16 (cfg / 65536) + at_ 8 (cfg % 65536))),
                     (R.MEMBER_SERIAL.key 0 1, 77)] }
/-- A control cell with its CRC. -/
def ctlCell (msg : Nat) : List Word := sealCell (openCell 2 (ctlWord msg 1) (leBytes 4 5 ++ leBytes 4 6 ++ leBytes 4 9)) false
/-- An `LSA` cell of an origin with flags, numbered 3. -/
def lsaCell (o flags : Nat) : List Word :=
  sealCell (openCell 2 (ctlWord 1 o) (leBytes 4 3 ++ leBytes 1 o ++ leBytes 1 flags ++ List.replicate 58 0)) false
/-- A read of 64 bytes of a member. -/
def meshReq (k : Nat) : XbarReq :=
  { master := 2, secure := false, write := false, addr := BitVec.ofNat 48 (0x100000001000 + k * 0x10000000000), len := 64, data := [] }
/-- The same as a transaction. -/
def meshTxn (k : Nat) : Txn :=
  { master := 2, secure := false, write := false, addr := 0x100000001000 + k * 0x10000000000, len := 64, data := [], qos := 4, waited := 0
    port := 7, gen := none, left := 0, resp := none, origin := .outside }
/-- A request cell of member 1 for 64 bytes at heap address 0, and one beyond the heap. -/
def reqCell : List Word := sealCell (openCell 3 (meshWord 0 false false 2 1 0 0) (meshPayload 9 64 [])) false
def farCell : List Word := sealCell (openCell 3 (meshWord 0 false false 2 1 0 0xFFFFFFFF00) (meshPayload 9 64 [])) false
/-- A request cell of member 1 that writes 64 bytes at heap address 0. -/
def putCell : List Word := sealCell (openCell 3 (meshWord 1 false false 2 1 0 0) (meshPayload 9 0 (List.replicate 64 7))) false
/-- A response cell under tag 9. -/
def rspCell (err : Bool) : List Word :=
  sealCell (openCell 3 (meshWord 2 err false 2 1 0 0x1000) (meshPayload 9 0 (List.replicate 64 7))) false
/-- The heap serves, and a request cell waits. -/
def serveAt : State :=
  { meshUp 2 with heap := { ctrl := [(0, { state := .ready })] }
                  mesh := { inbox := [(65, reqCell)] } }
/-- Tag 9 waits for its response. -/
def tagAt (cells : List (Nat × List Word)) : State :=
  { meshUp 2 with xbar := { next := 1, txns := [(0, some { meshTxn 1 with left := 1, data := List.replicate 64 0, gen := some 0 })] }
                  mesh := { tags := [(9, some { txn := 0, ofs := 0, len := 64, since := 0 })], inbox := cells } }
/-- A latch of class 8 of page 8, or a fatal one of class 9. -/
def latchOf (fatal : Bool) : Latch :=
  { src := srcKey 8 0 (if fatal then 9 else 8), fatal := fatal, coalesced := 2, tide := 5, epoch := 1, slot := 3, d0 := 11, d1 := 12, sec := 13 }
/-- A running image that binds feeder 31's program, one raw `FREAD`, and budgets its transfers in slot 0. -/
def feedImage : Memory :=
  imageOf [(8, 0x20000), (0x100, word (at_ 56 tyFeeder)), (0x108, 0x1000), (0x120, 0x0200000000000000), (0x128, 0x2000), (0x1000, 1),
    (0x1008, word (at_ 31 1)), (0x1040, 0x4788040000000000), (0x2000, 0x010000000000001F), (0x2040, 0x1C00)]
/-- Rake 63 of an array of 64 inputs, with a `FLUSH` of pan 255, none of whose products are of the array. -/
def rakeNone : State :=
  { rakeAt with sched := { run := some 0, image0 := imageOf [(8, 0x20000), (0x100, word (at_ 56 tyRake)), (0x108, 0x1000),
      (0x120, word (at_ 56 tyBudget)), (0x128, 0x2000), (0x1000, 1), (0x1008, word (at_ 63 1)), (0x1040, 0x83E8000000000000),
      (0x2000, 0x0040000000000000)] } }
/-- Running images with a map of port 31: no slot of it open, and slots 0 and 4 open. -/
def closedImage : Memory := imageOf [(8, 0x10000), (0x100, 0x0200000000000000), (0x108, 0x1000), (0x1000, 0x020000000000001F)]
def openImage : Memory :=
  imageOf [(8, 0x10000), (0x100, 0x0200000000000000), (0x108, 0x1000), (0x1000, 0x020000000000001F), (0x1040, 0x2000), (0x1048, 0x2000)]

/-- States and operands that meet the hypotheses of the first clauses of `Obligations.FeedsSteerTheAlwaysOnDomain`. -/
theorem witness_FeedsSteerTheAlwaysOnDomain :
  (∃ (s : State) (f : Feed) (g : Feed), f ≠ g ∧ s.feedIs f = false ∧ s.feedIs g = false ∧ s.pwr.porPin = false
      ∧ s.pwr.porN = false ∧ s.pwr.coreUp = false ∧ s.pwr.state ≠ .standby ∧ s.sv (feedNum f) = .off)
  ∧ (∃ (s : State) (f : Feed) (g : Feed), f ≠ g ∧ s.feedIs f = false ∧ s.feedIs g = false ∧ s.pwr.porPin = true
      ∧ s.pwr.porN = false ∧ s.pwr.coreUp = false ∧ s.pwr.state ≠ .standby ∧ s.sv (feedNum f) = .off
      ∧ s.pwr.started &&& 0x7E#8 = 0 ∧ s.pwr.railOk &&& 0x7F#8 ≠ 0x7F#8)
  ∧ (∃ (s : State) (f : Feed) (g : Feed), f ≠ g ∧ s.feedIs f = false ∧ s.feedIs g = false ∧ s.pwr.porPin = true
      ∧ s.pwr.porN = false ∧ s.pwr.coreUp = false ∧ s.pwr.started &&& 0x7E#8 ≠ 0)
  ∧ (∃ (s : State) (f : Feed) (g : Feed), f ≠ g ∧ s.feedIs f = false ∧ s.feedIs g = true ∧ s.pwr.porN = true
      ∧ s.pwr.coreUp = true ∧ s.sv (feedNum f) = .off ∧ s.svRole.isSome = true)
  ∧ (∃ (s : State) (f : Feed) (g : Feed), f ≠ g ∧ s.feedIs f = false ∧ s.feedIs g = true ∧ s.pwr.porN = true
      ∧ s.pwr.coreUp = true ∧ s.sv (feedNum f) = .off ∧ s.svRole = none ∧ s.sup.takeoverDue = false)
  ∧ (∃ (s : State) (f : Feed) (g : Feed), f ≠ g ∧ s.feedIs f = false ∧ s.feedIs g = true ∧ s.pwr.porN = true
      ∧ s.pwr.warmN = false ∧ s.pwr.coreUp = false ∧ s.sv (feedNum f) = .off)
  ∧ (∃ (s : State) (f : Feed) (g : Feed), f ≠ g ∧ s.feedIs f = false ∧ s.feedIs g = true ∧ s.pwr.porN = true
      ∧ s.pwr.warmN = false ∧ s.pwr.coreUp = false ∧ s.sv (feedNum f) = .off)
  ∧ (∃ (s : State) (f : Feed), s.feedIs f = true)
  ∧ (∃ (s : State) (f : Feed) (g : Feed), f ≠ g ∧ s.feedIs f = true ∧ s.feedIs g = true ∧ s.sv (feedNum f) ≠ .active
      ∧ s.sv (feedNum f) ≠ .starting)
  ∧ (∃ (s : State) (f : Feed) (g : Feed), f ≠ g ∧ s.feedIs f = true ∧ s.feedIs g = true
      ∧ (s.sv (feedNum f) = .active ∨ s.sv (feedNum f) = .starting))
  ∧ (∃ (s : State) (f : Feed) (g : Feed), f ≠ g ∧ s.feedIs f = true ∧ s.feedIs g = false)
  ∧ (∃ (s : State) (f : Feed), s.feedIs f = false) :=
  ⟨⟨{ pwr := { state := .off } }, .b, .a, by decide +kernel⟩,
   ⟨{ pwr := { porPin := true, started := 0x81, state := .off } }, .a, .b, by decide +kernel⟩,
   ⟨{ pwr := { porPin := true, started := 0x42, state := .off } }, .a, .b, by decide +kernel⟩,
   ⟨{ up with pwr := { up.pwr with feedB := false }, sup := { up.sup with sv1 := .off } }, .b, .a, by decide +kernel⟩,
   ⟨{ up with pwr := { up.pwr with feedB := false }, sup := { up.sup with sv0 := .failed, sv1 := .off } }, .b, .a,
       by decide +kernel⟩,
   ⟨{ up with pwr := { up.pwr with feedB := false, warmN := false, coreUp := false }, sup := { sv0 := .standby } }, .b,
       .a, by decide +kernel⟩,
   ⟨{ up with pwr := { up.pwr with feedB := false, warmN := false, coreUp := false, state := .standby }, sup := { sv0 := .off } },
       .b, .a, by decide +kernel⟩,
   ⟨up, .a, by decide +kernel⟩,
   ⟨{ up with sup := { up.sup with sv0 := .standby, sv1 := .active } }, .a, .b, by decide +kernel⟩,
   ⟨up, .a, .b, by decide +kernel⟩,
   ⟨{ up with pwr := { up.pwr with feedB := false } }, .a, .b, by decide +kernel⟩,
   ⟨{ up with pwr := { up.pwr with feedB := false } }, .b, by decide +kernel⟩⟩

/-- States and operands that meet the hypotheses of further clauses of `Obligations.FeedsSteerTheAlwaysOnDomain`. -/
theorem witness_FeedsSteerTheAlwaysOnDomain_2 :
  (∃ (s : State), s.pwr.state ≠ .off) :=
  ⟨up, by decide +kernel⟩

/-- States and operands that meet the hypotheses of the first clauses of `Obligations.RailsRiseInOrder`. -/
theorem witness_RailsRiseInOrder :
  (∃ (s : State) (r : Rail), (s.checking = false ∨ s.mayRise r = true))
  ∧ (∃ (s : State) (r : Rail), (s.checking = false ∨ s.mayRise r = true))
  ∧ (∃ (s : State) (r : Rail), s.checking = true ∧ s.mayRise r = false)
  ∧ (∃ (s : State) (r : Rail), s.checking = true ∧ s.mayRise r = false)
  ∧ (∃ (s : State) (r : Rail), s.pwr.started.getLsbD r.bit = true ∧ (s.checking = true ∨ (r = .vio ∧ s.pwr.porN = true))
      ∧ s.pwr.ok r = false)
  ∧ (∃ (s : State) (r : Rail), s.pwr.started.getLsbD r.bit = true ∧ (s.checking = true ∨ (r = .vio ∧ s.pwr.porN = true))
      ∧ s.pwr.ok r = false)
  ∧ (∃ (s : State) (r : Rail), s.pwr.started.getLsbD r.bit = true ∧ (s.checking = true ∨ (r = .vio ∧ s.pwr.porN = true))
      ∧ s.pwr.ok r = false)
  ∧ (∃ (s : State) (r : Rail), s.pwr.started.getLsbD r.bit = true ∧ (s.checking = true ∨ (r = .vio ∧ s.pwr.porN = true))
      ∧ s.pwr.ok r = false ∧ (r ≠ .vana ∨ s.time.coarse = false)
      ∧ (({ s with pwr := { s.pwr with railOk := s.pwr.railOk ||| railMask r } } : State).coreMayRun = false ∨ s.pwr.coreUp = true))
  ∧ (∃ (s : State) (r : Rail), s.checking = true ∧ s.pwr.started.getLsbD r.bit = true ∧ s.pwr.ok r = false
      ∧ (r ≠ .vana ∨ s.time.coarse = false)
      ∧ ({ s with pwr := { s.pwr with railOk := s.pwr.railOk ||| railMask r } } : State).coreMayRun = true
      ∧ s.pwr.coreUp = false ∧ s.tam.pendingWake = false ∧ s.rdb R.TMP_CFG 0 3 = false ∧ s.rdb R.TMP_CFG 0 4 = false)
  ∧ (∃ (s : State), s.checking = true ∧ s.pwr.started &&& 0x06#8 ≠ 0 ∧ s.pwr.lateRails ≠ 0)
  ∧ (∃ (s : State), (s.checking = false ∨ s.pwr.started &&& 0x06#8 = 0 ∨ s.pwr.lateRails = 0))
  ∧ (∃ (s : State), s.pwr.seqHold = true) :=
  ⟨⟨{ up with pwr := { up.pwr with railOk := 0x01, started := 0x01 } }, .vcore, by decide +kernel⟩,
   ⟨{ up with pwr := { up.pwr with railOk := 0x80, started := 0x80, porN := false } }, .vhbmq, by decide +kernel⟩,
   ⟨{ up with pwr := { up.pwr with railOk := 0x01, started := 0x01, coreUp := false } }, .vhbmc, by decide +kernel⟩,
   ⟨{ up with pwr := { up.pwr with railOk := 0x01, started := 0x01 } }, .vlane, by decide +kernel⟩,
   ⟨{ up with pwr := { up.pwr with railOk := 0x01, started := 0x07, coreUp := false } }, .vcore, by decide +kernel⟩,
   ⟨{ up with pwr := { up.pwr with railOk := 0x7E, coreUp := false } }, .vana, by decide +kernel⟩,
   ⟨{ up with pwr := { up.pwr with railOk := 0x7F, seqHold := true } }, .vio, by decide +kernel⟩,
   ⟨{ up with pwr := { up.pwr with railOk := 0x01, started := 0x07, coreUp := false, warmN := false } }, .vcore,
       by decide +kernel⟩,
   ⟨{ up with pwr := { up.pwr with railOk := 0xBF, coreUp := false, state := .boot, lastStop := 3 }, regs := [(R.TMP_CFG.key 0, 0)] },
       .vhbmq, by decide +kernel⟩,
   ⟨{ up with pwr := { up.pwr with railOk := 0x03, started := 0x07, coreUp := false } }, by decide +kernel⟩,
   ⟨up, by decide +kernel⟩,
   ⟨{ up with pwr := { up.pwr with railOk := 0x80, coreUp := false, seqHold := true, state := .held } },
       by decide +kernel⟩⟩

/-- States and operands that meet the hypotheses of further clauses of `Obligations.RailsRiseInOrder`. -/
theorem witness_RailsRiseInOrder_2 :
  (∃ (s : State), s.pwr.seqHold = true)
  ∧ (∃ (s : State), s.pwr.seqHold = false) :=
  ⟨⟨{ up with pwr := { up.pwr with railOk := 0x81, coreUp := false, seqHold := true, state := .held } },
       by decide +kernel⟩,
   ⟨up, by decide +kernel⟩⟩

/-- States and operands that meet the hypotheses of each clause of `Obligations.RailLossStopsTheCore`. -/
theorem witness_RailLossStopsTheCore :
  (∃ (s : State) (r : Rail), r ≠ .vana ∧ r ≠ .vio ∧ s.pwr.ok r = true ∧ s.pwr.coreUp = true ∧ s.pwr.standbyReady = true)
  ∧ (∃ (s : State) (r : Rail), r ≠ .vana ∧ r ≠ .vio ∧ s.pwr.ok r = true ∧ s.pwr.coreUp = true ∧ s.pwr.standbyReady = false)
  ∧ (∃ (s : State) (r : Rail), r ≠ .vana ∧ r ≠ .vio ∧ s.pwr.ok r = true ∧ s.pwr.coreUp = false)
  ∧ (∃ (s : State), s.pwr.ok .vana = true)
  ∧ (∃ (s : State), s.pwr.ok .vana = true)
  ∧ (∃ (s : State), s.pwr.ok .vana = false)
  ∧ (∃ (s : State), s.time.coarse = true ∧ s.checking = true)
  ∧ (∃ (s : State), s.time.coarse = true ∧ s.checking = true) :=
  ⟨⟨{ up with pwr := { up.pwr with standbyReady := true } }, .vcore, by decide +kernel⟩,
   ⟨up, .vhbmq, by decide +kernel⟩,
   ⟨{ up with pwr := { up.pwr with coreUp := false, state := .held, seqHold := true } }, .vcore, by decide +kernel⟩,
   ⟨up, by decide +kernel⟩,
   ⟨{ up with pwr := { up.pwr with coreUp := false, state := .held, seqHold := true } }, by decide +kernel⟩,
   ⟨{ up with pwr := { up.pwr with railOk := 0xFE, coreUp := false } }, by decide +kernel⟩,
   ⟨{ up with pwr := { up.pwr with coreUp := false, warmN := false, railOk := 0xFE }, time := { coarse := true } },
       by decide +kernel⟩,
   ⟨{ up with pwr := { up.pwr with coreUp := false, railOk := 0xFE }, time := { coarse := true, epoch := 0xFFFFFFFF } },
       by decide +kernel⟩⟩

/-- States and operands that meet the hypotheses of the first clauses of `Obligations.ResetPins`. -/
theorem witness_ResetPins :
  (∃ (s : State), s.pwr.state ≠ .off)
  ∧ (∃ (s : State), s.pwr.state = .off)
  ∧ (∃ (s : State), s.pwr.porN = false ∧ s.feedOk = true ∧ s.pwr.started &&& 0x7E#8 = 0
      ∧ (s.pwr.warmN = false ∨ s.pwr.coreUp = true ∨ s.pwr.railOk &&& 0x7F#8 ≠ 0x7F#8))
  ∧ (∃ (s : State), s.feedOk = false)
  ∧ (∃ (s : State), s.pwr.porN = false ∧ s.feedOk = true ∧ s.pwr.started &&& 0x7E#8 ≠ 0)
  ∧ (∃ (s : State) (x : BitVec 8) (y : State), s.pwr.warmN = true ∧ y = s.drained)
  ∧ (∃ (s : State) (x : BitVec 8) (y : State), s.pwr.warmN = true ∧ y = s.drained)
  ∧ (∃ (s : State) (x : BitVec 8), s.pwr.warmN = true ∧ s.pwr.coreUp = true ∧ s.fab.posted = [] ∧ s.pwr.state ≠ .standby
      ∧ s.pwr.state ≠ .off ∧ s.pwr.tripHold = false ∧ s.pwr.seqHold = false ∧ s.pwr.tempHold = false)
  ∧ (∃ (s : State) (x : BitVec 8), s.pwr.warmN = false)
  ∧ (∃ (s : State), (s.pwr.coreUp = true ∨ ({ s with pwr := { s.pwr with warmN := true } } : State).coreMayRun = false))
  ∧ (∃ (s : State), s.pwr.coreUp = false ∧ ({ s with pwr := { s.pwr with warmN := true } } : State).coreMayRun = true
      ∧ s.tam.pendingWake = false ∧ s.rdb R.TMP_CFG 0 3 = false ∧ s.rdb R.TMP_CFG 0 4 = false)
  ∧ (∃ (s : State) (y : State), s.pwr.perstN = true ∧ y = s.drainPosted) :=
  ⟨⟨up, by decide +kernel⟩,
   ⟨{ pwr := { state := .off, porPin := true } }, by decide +kernel⟩,
   ⟨{ up with pwr := { up.pwr with porPin := false, porN := false, railOk := 0x80, started := 0x81, coreUp := false } },
       by decide +kernel⟩,
   ⟨{ pwr := { state := .off } }, by decide +kernel⟩,
   ⟨{ up with pwr := { up.pwr with porPin := false, porN := false, railOk := 0x80, started := 0x87, coreUp := false } },
       by decide +kernel⟩,
   ⟨up, 30, up, by decide +kernel⟩,
   ⟨{ up with pwr := { up.pwr with coreUp := false, tripHold := true, state := .held } }, 99,
       { up with pwr := { up.pwr with coreUp := false, tripHold := true, state := .held } }, by decide +kernel⟩,
   ⟨up, 30, by decide +kernel⟩,
   ⟨{ up with pwr := { up.pwr with warmN := false, coreUp := false } }, 30, by decide +kernel⟩,
   ⟨{ up with pwr := { up.pwr with warmN := false, tripHold := true, coreUp := false, state := .held } },
       by decide +kernel⟩,
   ⟨{ up with pwr := { up.pwr with warmN := false, coreUp := false, state := .boot }, regs := [(R.TMP_CFG.key 0, 0)] },
       by decide +kernel⟩,
   ⟨up, up, by decide +kernel⟩⟩

/-- States and operands that meet the hypotheses of further clauses of `Obligations.ResetPins`. -/
theorem witness_ResetPins_2 :
  (∃ (s : State), s.pwr.perstN = true ∧ s.fab.posted = [] ∧ s.pcie.outbound = [])
  ∧ (∃ (s : State), s.pwr.perstN = false) :=
  ⟨⟨up, by decide +kernel⟩,
   ⟨{ up with pwr := { up.pwr with perstN := false } }, by decide +kernel⟩⟩

/-- States and operands that meet the hypotheses of the first clauses of `Obligations.PowerStatesChangeByCommand`. -/
theorem witness_PowerStatesChangeByCommand :
  (∃ (s : State) (n : Nat), s.pwr.req = .toRun n ∧ s.atBoundary = true ∧ n ≤ s.time.tide ∧ s.pwr.state = .idle
      ∧ s.pwr.rows = 16)
  ∧ (∃ (s : State) (n : Nat), s.pwr.req = .toRun n ∧ (s.atBoundary = false ∨ s.time.tide < n ∨ s.pwr.rows ≠ 16))
  ∧ (∃ (s : State) (n : Nat), s.pwr.req = .toRun n ∧ s.pwr.rows < 16 ∧ s.pwr.rowAt + 1500 ≤ s.time.total)
  ∧ (∃ (s : State), (s.pwr.rows = 16 ∨ s.time.total < s.pwr.rowAt + 1500))
  ∧ (∃ (s : State), s.pwr.req = .toIdle ∧ s.atBoundary = true)
  ∧ (∃ (s : State), (s.pwr.req ≠ .toIdle ∨ s.atBoundary = false))
  ∧ (∃ (s : State), s.pwr.req = .toStandby ∧ s.sched.run = none ∧ s.standbySaved = true ∧ s.supervised = true)
  ∧ (∃ (s : State), (s.pwr.req ≠ .toStandby ∨ s.sched.run.isSome = true ∨ s.standbySaved = false ∨ s.supervised = false))
  ∧ (∃ (s : State) (r : Fin 16) (x : State), s.dryStart = true ∧ x = s.pass (1500 * r.val - s.time.pos))
  ∧ (∃ (s : State) (r : Fin 16), s.dryStart = true ∧ s.nextUnits = none)
  ∧ (∃ (s : State) (r : Fin 16), s.dryStart = false)
  ∧ (∃ (s : State) (r : Fin 16) (x : State), s.sched.run = none ∧ s.dryStart = false
      ∧ x = s.pass (1500 * (r.val + 1) - s.time.pos)) :=
  ⟨⟨{ up with pwr := { up.pwr with state := .idle, req := .toRun 2 }, time := { tide := 2 } }, 2, by decide +kernel⟩,
   ⟨{ up with pwr := { up.pwr with state := .idle, req := .toRun 2, rows := 15 }, time := { tide := 2 } }, 2,
       by decide +kernel⟩,
   ⟨{ up with pwr := { up.pwr with state := .idle, req := .toRun 2, rows := 15 }, time := { tide := 2, total := 1500 } },
       2, by decide +kernel⟩,
   ⟨{ up with pwr := { up.pwr with state := .idle, req := .toRun 2, rows := 15 }, time := { tide := 2, total := 1499 } },
       by decide +kernel⟩,
   ⟨{ up with pwr := { up.pwr with req := .toIdle } }, by decide +kernel⟩,
   ⟨{ up with pwr := { up.pwr with req := .toIdle }, time := { pos := 5 } }, by decide +kernel⟩,
   ⟨{ up with pwr := { up.pwr with req := .toStandby } }, by decide +kernel⟩,
   ⟨{ up with pwr := { up.pwr with req := .toStandby }, sup := { up.sup with ckptDue := some 3 } }, by decide +kernel⟩,
   ⟨{ up with sched := { pend := some { halt := false, store := 0, stress := false, tide := 1, epoch := 0 }, image0 := [(8, 2)] } },
       15,
       ({ up with sched := { pend := some { halt := false, store := 0, stress := false, tide := 1, epoch := 0 }, image0 := [(8, 2)] } } : State).pass 22500,
       by decide +kernel⟩,
   ⟨{ up with sched := { pend := some { halt := false, store := 0, stress := false, tide := 1, epoch := 0 }, image0 := [(8, 2)] } },
       15, by decide +kernel⟩,
   ⟨up, 15, by decide +kernel⟩,
   ⟨{ up with pwr := { up.pwr with dry := 0xFFFF, dryStop := true } }, 15,
       ({ up with pwr := { up.pwr with dry := 0xFFFF, dryStop := true } } : State).pass 24000, by decide +kernel⟩⟩

/-- States and operands that meet the hypotheses of further clauses of `Obligations.PowerStatesChangeByCommand`. -/
theorem witness_PowerStatesChangeByCommand_2 :
  (∃ (s : State) (r : Fin 16), s.sched.run = none ∧ s.dryStart = false ∧ s.nextUnits = none)
  ∧ (∃ (s : State), s.pwr.coreUp = true ∧ s.pwr.coreReady = false)
  ∧ (∃ (s : State), (s.pwr.coreUp = false ∨ s.pwr.coreReady = true)) :=
  ⟨⟨{ up with pwr := { up.pwr with dry := 0xFFFF, dryStop := true } }, 15, by decide +kernel⟩,
   ⟨{ up with pwr := { up.pwr with coreReady := false, state := .boot } }, by decide +kernel⟩,
   ⟨up, by decide +kernel⟩⟩

/-- States and operands that meet the hypotheses of the first clauses of `Obligations.TemperatureAndPins`. -/
theorem witness_TemperatureAndPins :
  (∃ (s : State) (x : BitVec 8), 100 ≤ x.toInt ∧ s.pwr.state ≠ .off)
  ∧ (∃ (s : State) (x : BitVec 8), 100 ≤ x.toInt ∧ s.pwr.state ≠ .off)
  ∧ (∃ (s : State) (x : BitVec 8), 105 < x.toInt ∧ s.pwr.state ≠ .off ∧ s.rdb R.TMP_CFG 0 4 = false)
  ∧ (∃ (s : State) (x : BitVec 8), x.toInt < -40 ∧ s.pwr.state ≠ .off ∧ s.rdb R.TMP_CFG 0 4 = false)
  ∧ (∃ (s : State) (x : BitVec 8), (105 < x.toInt ∨ x.toInt < -40) ∧ s.pwr.state ≠ .off ∧ s.rdb R.TMP_CFG 0 4 = true)
  ∧ (∃ (s : State) (x : BitVec 8), (105 < x.toInt ∨ x.toInt < -40) ∧ s.pwr.state ≠ .off ∧ s.rdb R.TMP_CFG 0 4 = true)
  ∧ (∃ (s : State) (x : BitVec 8), 120 ≤ x.toInt ∧ s.pwr.state ≠ .off)
  ∧ (∃ (s : State) (x : BitVec 8), 120 ≤ x.toInt ∧ s.pwr.state ≠ .off)
  ∧ (∃ (s : State) (x : BitVec 8), x.toInt < -10 ∧ s.pwr.coreUp = true ∧ s.pwr.coreReady = false)
  ∧ (∃ (s : State) (x : BitVec 8), (-10 ≤ x.toInt ∨ s.pwr.coreUp = false ∨ s.pwr.coreReady = true))
  ∧ (∃ (s : State) (x : BitVec 8), s.pwr.tempHold = true ∧ -10 ≤ x.toInt)
  ∧ (∃ (s : State) (x : BitVec 8), s.pwr.tempHold = true ∧ -10 ≤ x.toInt) :=
  ⟨⟨up, 100, by decide +kernel⟩,
   ⟨{ up with regs := [(R.SAL_XCFG.key 0, 1), (regKey 0 0x5B 0 hCtrl, 1)] }, 127, by decide +kernel⟩,
   ⟨{ up with regs := [(R.TMP_CFG.key 0, 0)] }, 106, by decide +kernel⟩,
   ⟨{ up with regs := [(R.TMP_CFG.key 0, 0)] }, 0x80, by decide +kernel⟩,
   ⟨up, 106, by decide +kernel⟩,
   ⟨up, 0xD7, by decide +kernel⟩,
   ⟨up, 127, by decide +kernel⟩,
   ⟨{ up with pwr := { up.pwr with coreUp := false, state := .boot } }, 120, by decide +kernel⟩,
   ⟨{ up with pwr := { up.pwr with coreReady := false, state := .boot } }, 0xF5, by decide +kernel⟩,
   ⟨up, 0xF5, by decide +kernel⟩,
   ⟨{ up with pwr := { up.pwr with coreUp := false, coreReady := false, state := .held, tempHold := true, warmN := false } },
       0xF6, by decide +kernel⟩,
   ⟨{ up with pwr := { up.pwr with coreUp := false, coreReady := false, state := .held, tempHold := true } }, 0xF6,
       by decide +kernel⟩⟩

/-- States and operands that meet the hypotheses of further clauses of `Obligations.TemperatureAndPins`. -/
theorem witness_TemperatureAndPins_2 :
  (∃ (s : State) (x : BitVec 8), (s.pwr.tempHold = false ∨ x.toInt < -10))
  ∧ (∃ (s : State) (i : Fin 18), bit s.pinOn i = true)
  ∧ (∃ (s : State) (i : Fin 18), bit s.pinOn i = false)
  ∧ (∃ (s : State) (i : Fin 18), s.enabled 0x5C = true ∧ s.rdb R.PIN_RETRY 0 0 = true ∧ s.retryDue i = true
      ∧ mget (fun _ => 0) s.pins.retries i < s.rdf R.PIN_RETRY 0 15 12)
  ∧ (∃ (s : State) (i : Fin 18),
      (s.enabled 0x5C = false ∨ s.rdb R.PIN_RETRY 0 0 = false ∨ s.retryDue i = false ∨ s.rdf R.PIN_RETRY 0 15 12 ≤ mget (fun _ => 0) s.pins.retries i))
  ∧ (∃ (s : State) (ps : List (Fin 18)) (on : List Nat), on = onesOf 18 ((ps.foldl (fun w p => setBit w p) 0) &&& s.pinOn).toNat
      ∧ on.any (fun p => bit s.pinDrive p) = true ∧ on.any (fun p => !bit s.pinDrive p) = true)
  ∧ (∃ (s : State) (ps : List (Fin 18)) (on : List Nat), on = onesOf 18 ((ps.foldl (fun w p => setBit w p) 0) &&& s.pinOn).toNat
      ∧ on.any (fun p => bit s.pinDrive p) = true ∧ on.any (fun p => !bit s.pinDrive p) = true)
  ∧ (∃ (s : State) (ps : List (Fin 18)) (on : List Nat), on = onesOf 18 ((ps.foldl (fun w p => setBit w p) 0) &&& s.pinOn).toNat
      ∧ (on.all (fun p => bit s.pinDrive p) = true ∨ on.all (fun p => !bit s.pinDrive p) = true))
  ∧ (∃ (s : State) (i : Fin 18), bit s.pinOn i = true)
  ∧ (∃ (s : State) (i : Fin 18), bit s.pinOn i = false)
  ∧ (∃ (s : State) (a : Agent) (v : Word), s.accepts a 0x5C R.PIN_OE.off v = true)
  ∧ (∃ (s : State) (a : Agent) (v : Word), (a ≠ .host ∨ s.fab.posted = []) ∧ s.served a 0x5C = true
      ∧ (s.secureWorld a = true ∨ s.secureOwned 0x5C = false) ∧ v &&& 0xFFFFFFFFFFFC0000#64 = 0
      ∧ v &&& (s.rd R.PIN_FAULT ||| (s.rd R.PIN_FAULT >>> 32)) &&& 0x3FFFF#64 ≠ 0) :=
  ⟨⟨{ up with pwr := { up.pwr with coreUp := false, coreReady := false, state := .held, tempHold := true } }, 0xF5,
       by decide +kernel⟩,
   ⟨{ up with regs := [(regKey 0 0x5C 0 hCtrl, 1), (R.PIN_OE.key 0, 0x20000)] }, 17, by decide +kernel⟩,
   ⟨up, 17, by decide +kernel⟩,
   ⟨{ up with regs := [(R.PIN_FAULT.key 0, 1), (R.PIN_RETRY.key 0, 0x3001), (regKey 0 0x5C 0 hCtrl, 1)], pins := { waits := [(0, some 0)] }, time := { total := 1500000 } },
       0, by decide +kernel⟩,
   ⟨up, 0, by decide +kernel⟩,
   ⟨{ up with regs := [(regKey 0 0x5C 0 hCtrl, 1), (R.PIN_OE.key 0, 0x20002), (R.PIN_OUT.key 0, 0x2)] }, [17, 1],
       [1, 17], by decide +kernel⟩,
   ⟨{ up with regs := [(regKey 0 0x5C 0 hCtrl, 1), (R.PIN_OE.key 0, 0x20202), (R.PIN_OUT.key 0, 0x2)] }, [17, 1, 9],
       [1, 9, 17], by decide +kernel⟩,
   ⟨{ up with regs := [(regKey 0 0x5C 0 hCtrl, 1), (R.PIN_OE.key 0, 0x20002)] }, [17, 1], [1, 17], by decide +kernel⟩,
   ⟨{ up with regs := [(regKey 0 0x5C 0 hCtrl, 1), (R.PIN_OE.key 0, 0x20000)] }, 17, by decide +kernel⟩,
   ⟨up, 17, by decide +kernel⟩,
   ⟨up, .host, 0x3FFFF, by decide +kernel⟩,
   ⟨{ up with regs := [(R.PIN_FAULT.key 0, 0x200000000)] }, .host, 0x2, by decide +kernel⟩⟩

/-- States and operands that meet the hypotheses of the first clauses of `Obligations.RegisterWritesPassTheirChecks`. -/
theorem witness_RegisterWritesPassTheirChecks :
  (∃ (s : State) (w : Access), w.size = 8 ∧ w.off.val = hEvtEn ∧ s.accepts w.agent w.page w.off w.value = true)
  ∧ (∃ (s : State) (w : Access), w.size = 8 ∧ w.off.val = hEvt ∧ w.page ≠ 0x5D ∧ s.accepts w.agent w.page w.off w.value = true)
  ∧ (∃ (s : State) (w : Access), w.size = 8 ∧ w.off.val = hReject ∧ s.accepts w.agent w.page w.off w.value = true)
  ∧ (∃ (s : State) (w : Access), w.size = 8 ∧ w.off.val = hBank ∧ s.accepts w.agent w.page w.off w.value = true)
  ∧ (∃ (s : State) (w : Access), w.size = 8 ∧ w.page = 0 ∧ w.off.val = R.SCRATCH.off
      ∧ s.accepts w.agent w.page w.off w.value = true)
  ∧ (∃ (s : State) (w : Access) (c : Code), s.served w.agent w.page = true ∧ (w.agent ≠ .host ∨ s.fab.posted = [])
      ∧ s.codeAmong [] w = some c ∧ (pageInfo w.page).isSome = true)
  ∧ (∃ (s : State) (w : Access) (c : Code), s.served w.agent w.page = true ∧ (w.agent ≠ .host ∨ s.fab.posted = [])
      ∧ s.codeAmong [] w = some c ∧ (pageInfo w.page).isSome = true)
  ∧ (∃ (s : State) (w : Access) (c : Code), s.served w.agent w.page = true ∧ (w.agent ≠ .host ∨ s.fab.posted = [])
      ∧ s.codeAmong [] w = some c ∧ (pageInfo w.page).isSome = true)
  ∧ (∃ (s : State) (w : Access), s.served w.agent w.page = true ∧ (w.agent ≠ .host ∨ s.fab.posted = []) ∧ w.size = 8
      ∧ w.off.val % 8 = 0 ∧ (pageInfo w.page).isNone = true)
  ∧ (∃ (s : State) (w : Access), s.served w.agent w.page = false ∧ (w.agent ≠ .host ∨ s.fab.posted = []))
  ∧ (∃ (s : State) (x : Access) (y : Access), x.size = 8 ∧ y.size = 8 ∧ x.off.val = hEvtEn ∧ y.off = x.off ∧ y.page = x.page
      ∧ x.agent.code < y.agent.code ∧ s.fab.posted = [] ∧ s.accepts x.agent x.page x.off x.value = true
      ∧ s.served y.agent y.page = true)
  ∧ (∃ (s : State) (r : Access), s.served r.agent r.page = true ∧ (r.agent ≠ .host ∨ s.fab.posted = [])
      ∧ readFits r.off r.size = false ∧ (pageInfo r.page).isSome = true) :=
  ⟨⟨up, { agent := .host, page := 0x5C, off := 0x30, value := 5 }, by decide +kernel⟩,
   ⟨{ up with regs := [(regKey 0 0x5C 0 hEvt, 7)] }, { agent := .host, page := 0x5C, off := 0x28, value := 5 },
       by decide +kernel⟩,
   ⟨{ up with regs := [(regKey 0 0x5C 0 hReject, 0x0003080002000150)] },
       { agent := .host, page := 0x5C, off := 0x20, value := 0x0001080002000150 }, by decide +kernel⟩,
   ⟨up, { agent := .host, page := 0x40, off := 0x48, value := 31 }, by decide +kernel⟩,
   ⟨up, { agent := .host, page := 0, off := 0x150, value := 0xFFFFFFFFFFFFFFFF }, by decide +kernel⟩,
   ⟨up, { agent := .host, page := 0, off := 0x100, value := 5 }, .access, by decide +kernel⟩,
   ⟨up, { agent := .host, page := 0x5C, off := 0x30, size := 4, value := 5 }, .align, by decide +kernel⟩,
   ⟨up, { agent := .host, page := 0x5C, off := 0x10, value := 4 }, .resv, by decide +kernel⟩,
   ⟨up, { agent := .host, page := 0x7F, off := 0x100, value := 5 }, by decide +kernel⟩,
   ⟨{ up with pwr := { up.pwr with coreReady := false } }, { agent := .host, page := 0x5C, off := 0x30, value := 5 },
       by decide +kernel⟩,
   ⟨up, { agent := .normal, page := 0x5C, off := 0x30, value := 5 },
       { agent := .host, page := 0x5C, off := 0x30, value := 2 }, by decide +kernel⟩,
   ⟨up, { agent := .host, page := 0x5C, off := 0x32, size := 4 }, by decide +kernel⟩⟩

/-- States and operands that meet the hypotheses of further clauses of `Obligations.RegisterWritesPassTheirChecks`. -/
theorem witness_RegisterWritesPassTheirChecks_2 :
  (∃ (s : State) (r : Access), s.served r.agent r.page = true ∧ (r.agent ≠ .host ∨ s.fab.posted = [])
      ∧ readFits r.off r.size = true ∧ (pageInfo r.page).isSome = true ∧ (findReg r.page (r.off.val / 8 * 8)).isSome = true
      ∧ 0x100 ≤ r.off.val ∧ s.secureOwned r.page = true ∧ s.secureWorld r.agent = false)
  ∧ (∃ (s : State) (r : Access), s.served r.agent r.page = false ∧ (r.agent ≠ .host ∨ s.fab.posted = [])) :=
  ⟨⟨{ up with regs := [(regKey 0 0x5C 0 hOwner, 1)] }, { agent := .host, page := 0x5C, off := 0x100 }, by decide +kernel⟩,
   ⟨{ up with pwr := { up.pwr with coreReady := false } }, { agent := .host, page := 0x5C, off := 0x32, size := 4 },
       by decide +kernel⟩⟩

/-- States and operands that meet the hypotheses of the first clauses of `Obligations.GroupsAndHeaders`. -/
theorem witness_GroupsAndHeaders :
  (∃ (s : State) (a : Agent) (p : Fin 128) (o : Fin 4096) (r : Reg) (k : Nat), s.served a p = true
      ∧ (a ≠ .host ∨ s.fab.posted = []) ∧ findReg p o = some (r, k) ∧ 0x100 ≤ o.val ∧ o.val % 8 = 0 ∧ isMember r k = false
      ∧ 0 < groupSize r k ∧ (s.secureOwned p = false ∨ s.secureWorld a = true))
  ∧ (∃ (s : State) (a : Agent) (p : Fin 128) (o : Fin 4096) (r : Reg) (k : Nat), s.served a p = true
      ∧ (a ≠ .host ∨ s.fab.posted = []) ∧ findReg p o = some (r, k) ∧ 0x100 ≤ o.val ∧ o.val % 8 = 0 ∧ isMember r k = false
      ∧ 0 < groupSize r k ∧ (s.secureOwned p = false ∨ s.secureWorld a = true))
  ∧ (∃ (s : State) (w : Access) (r : Reg) (k : Nat), w.size = 8 ∧ 0x100 ≤ w.off.val ∧ findReg w.page w.off = some (r, k)
      ∧ r.mem ≠ 0 ∧ s.accepts w.agent w.page w.off w.value = true)
  ∧ (∃ (s : State) (w : Access) (r : Reg) (k : Nat), w.size = 8 ∧ 0x100 ≤ w.off.val ∧ findReg w.page w.off = some (r, k)
      ∧ r.mem ≠ 0 ∧ s.accepts w.agent w.page w.off w.value = true)
  ∧ (∃ (s : State) (w : Access), w.size = 8 ∧ w.page = 0x58 ∧ w.off.val = R.RING_D0.off
      ∧ s.accepts w.agent w.page w.off w.value = true)
  ∧ (∃ (s : State) (w : Access) (k : Nat), w.size = 8 ∧ w.page = 0x0C ∧ findReg w.page w.off = some (R.FW_RULE_A, k)
      ∧ s.accepts w.agent w.page w.off w.value = true)
  ∧ (∃ (s : State) (w : Access), w.size = 8 ∧ w.page = 0x54 ∧ findReg w.page w.off = some (R.FLT_W0, 0)
      ∧ s.accepts w.agent w.page w.off w.value = true)
  ∧ (∃ (s : State) (w : Access) (r : Reg) (k : Nat) (c : Code), s.served w.agent w.page = true
      ∧ (w.agent ≠ .host ∨ s.fab.posted = []) ∧ findReg w.page w.off = some (r, k) ∧ isHead w = true ∧ s.writeCode w = none
      ∧ s.headCode w = some c)
  ∧ (∃ (s : State) (a : Agent) (p : Fin 128) (v : Word), s.accepts a p hCtrl v = true
      ∧ (s.enabled p = false ∨ bit v 0 = true ∨ s.secureOwned p = true ∨ s.secureUse p = false))
  ∧ (∃ (s : State) (a : Agent) (p : Fin 128) (v : Word), s.accepts a p hCtrl v = true
      ∧ (s.enabled p = false ∨ bit v 0 = true ∨ s.secureOwned p = true ∨ s.secureUse p = false))
  ∧ (∃ (s : State) (a : Agent) (p : Fin 128) (v : Word), p = 0x5C ∧ bit v 1 = false ∧ s.accepts a p hCtrl v = true
      ∧ (s.enabled p = false ∨ bit v 0 = true ∨ s.secureOwned p = true ∨ s.secureUse p = false))
  ∧ (∃ (s : State) (a : Agent) (p : Fin 128) (v : Word), s.accepts a p hCtrl v = true ∧ s.enabled p = true ∧ bit v 0 = false
      ∧ s.secureOwned p = false ∧ s.secureUse p = true) :=
  ⟨⟨{ up with time := { tide := 7, pos := 512 } }, .host, 0x10, 0x108, R.TIDE, 0, by decide +kernel⟩,
   ⟨up, .host, 0x58, 0x110, R.RING_D0, 0, by decide +kernel⟩,
   ⟨up, { agent := .secure, page := 0x0C, off := 0x208, value := 0x1000 }, R.FW_RULE_B, 0, by decide +kernel⟩,
   ⟨up, { agent := .host, page := 0x58, off := 0x120, value := 0 }, R.RING_D2, 0, by decide +kernel⟩,
   ⟨{ up with regs := [(regKey 0 0x58 0 hCtrl, 1)] },
       { agent := .host, page := 0x58, off := 0x110, value := 0x3018000000000000 }, by decide +kernel⟩,
   ⟨{ up with fab := { held := [(regKey 1 0x0C 0 0x3F8, some 0x1000)] } },
       { agent := .secure, page := 0x0C, off := 0x3F0, value := 0 }, 31, by decide +kernel⟩,
   ⟨{ up with fab := { held := [(regKey 3 0x54 0 R.FLT_W1.off, some 5)] } },
       { agent := .host, page := 0x54, off := Fin.ofNat 4096 R.FLT_W0.off, value := 0 }, by decide +kernel⟩,
   ⟨{ up with fab := { held := [(regKey 3 0x54 0 R.FLT_W1.off, some 5)] } },
       { agent := .host, page := 0x54, off := Fin.ofNat 4096 R.FLT_W0.off, value := 0x0030000000000000 }, R.FLT_W0, 0,
       .value, by decide +kernel⟩,
   ⟨up, .host, 0x5C, 1, by decide +kernel⟩,
   ⟨{ up with regs := [(regKey 0 0x40 0 hCtrl, 1)] }, .host, 0x40, 0, by decide +kernel⟩,
   ⟨up, .host, 0x5C, 1, by decide +kernel⟩,
   ⟨{ up with regs := [(regKey 0 0x54 0 hCtrl, 1)], xbar := { next := 5, txns := [(4, some { xfer with secure := true, port := 6, gen := some 0 })] } },
       .host, 0x54, 0, by decide +kernel⟩⟩

/-- States and operands that meet the hypotheses of further clauses of `Obligations.GroupsAndHeaders`. -/
theorem witness_GroupsAndHeaders_2 :
  (∃ (s : State) (a : Agent) (p : Fin 128) (v : Word), s.accepts a p hOwner v = true)
  ∧ (∃ (s : State) (w : Access) (ws : List Access), s.fab.posted = w :: ws ∧ w.size = 8 ∧ w.off.val = hEvtEn
      ∧ ({ s with fab := { s.fab with posted := [] } } : State).accepts w.agent w.page w.off w.value = true)
  ∧ (∃ (s : State) (w : Access) (ws : List Access) (c : Code), s.fab.posted = w :: ws ∧ s.served w.agent w.page = true
      ∧ s.writeCode w = some c ∧ (pageInfo w.page).isSome = true)
  ∧ (∃ (s : State), s.fab.posted = []) :=
  ⟨⟨up, .secure, 0x5C, 1, by decide +kernel⟩,
   ⟨{ up with fab := { posted := [{ agent := .host, page := 0x5C, off := 0x30, value := 5 }] } },
       { agent := .host, page := 0x5C, off := 0x30, value := 5 }, [], by decide +kernel⟩,
   ⟨{ up with fab := { posted := [{ agent := .host, page := 0x5C, off := 0x34, value := 5 }] } },
       { agent := .host, page := 0x5C, off := 0x34, value := 5 }, [], .align, by decide +kernel⟩,
   ⟨up, by decide +kernel⟩⟩

/-- States and operands that meet the hypotheses of each clause of `Obligations.TidesAndEpochsAdvance`. -/
theorem witness_TidesAndEpochsAdvance :
  (∃ (s : State), s.pwr.coreUp = true ∧ s.time.pos < tideSclk)
  ∧ (∃ (s : State), s.pwr.coreUp = false)
  ∧ (∃ (s : State), s.atBoundary = true ∧ s.epochDue = true)
  ∧ (∃ (s : State), (s.atBoundary = false ∨ s.epochDue = false))
  ∧ (∃ (s : State), s.atBoundary = true ∧ s.mesh.adoptPend = true ∧ s.viewHeld = true ∧ s.refTide s.refEpoch.2 % 15 = 0)
  ∧ (∃ (s : State), (s.atBoundary = false ∨ s.mesh.adoptPend = false ∨ s.viewHeld = false)) :=
  ⟨⟨{ up with time := { tide := 6, pos := 1048575 } }, by decide +kernel⟩,
   ⟨{ up with pwr := { up.pwr with coreUp := false } }, by decide +kernel⟩,
   ⟨{ up with time := { tide := 30, armPend := true, closedAt := 20 } }, by decide +kernel⟩,
   ⟨{ up with time := { tide := 31, armPend := true, closedAt := 20 } }, by decide +kernel⟩,
   ⟨{ up with time := { total := 4000000 }, mesh := { adoptPend := true, viewSince := some 0 } }, by decide +kernel⟩,
   ⟨{ up with time := { total := 4000000 }, mesh := { adoptPend := true, viewSince := some 2000000 } },
       by decide +kernel⟩⟩

/-- States and operands that meet the hypotheses of each clause of `Obligations.ShadowSetsAreAdopted`. -/
theorem witness_ShadowSetsAreAdopted :
  (∃ (s : State), s.atBoundary = true ∧ s.fab.commits = [{ set := .arm, wait := 0 }] ∧ s.sched.cancel = false
      ∧ s.rdf R.ARM_CTRL 0 63 32 = s.time.epoch)
  ∧ (∃ (s : State), s.atBoundary = true ∧ s.fab.commits = [{ set := .arm, wait := 0 }] ∧ s.sched.cancel = false
      ∧ s.rdb R.ARM_CTRL 0 1 = false ∧ s.rdf R.ARM_CTRL 0 63 32 ≠ s.time.epoch)
  ∧ (∃ (s : State) (u : Nat) (k : Nat), s.atBoundary = true ∧ u < 256 ∧ k < 16 ∧ s.supervised = true
      ∧ s.fab.commits = [{ set := .dm u k, wait := 0 }])
  ∧ (∃ (s : State) (u : Nat), s.atBoundary = true ∧ u < 256 ∧ s.supervised = true
      ∧ s.fab.commits = [{ set := .gain u, wait := 0 }])
  ∧ (∃ (s : State) (u : Nat), s.atBoundary = true ∧ u < 256 ∧ s.supervised = true
      ∧ s.fab.commits = [{ set := .win u, wait := 0 }])
  ∧ (∃ (s : State), s.atBoundary = true ∧ s.supervised = true ∧ s.fab.commits = [{ set := .wtSel, wait := 0 }])
  ∧ (∃ (s : State), s.atBoundary = true ∧ s.supervised = true ∧ s.fab.commits = [{ set := .dest, wait := 0 }])
  ∧ (∃ (s : State), s.atBoundary = true ∧ s.supervised = true ∧ s.fab.commits = [{ set := .tb0Step, wait := 0 }])
  ∧ (∃ (s : State) (c : Commit), s.atBoundary = true ∧ s.fab.commits = [c] ∧ c.wait ≠ 0)
  ∧ (∃ (s : State) (c : Commit), s.fab.commits = [c] ∧ (s.atBoundary = false ∨ (s.supervised = false ∧ c.set ≠ .arm)))
  ∧ (∃ (s : State) (c : Commit), s.fab.commits = [c] ∧ (s.atBoundary = false ∨ (s.supervised = false ∧ c.set ≠ .arm))) :=
  ⟨⟨{ up with fab := { commits := [{ set := .arm, wait := 0 }] }, regs := [(R.ARM_CTRL.key 0, 1)] }, by decide +kernel⟩,
   ⟨{ up with fab := { commits := [{ set := .arm, wait := 0 }] }, regs := [(R.ARM_CTRL.key 0, 0x300000101)], time := { epoch := 4 } },
       by decide +kernel⟩,
   ⟨{ up with fab := { commits := [{ set := .dm 255 15, wait := 0 }] }, regs := [(R.DM_D0.key 255 15, 7)] }, 255, 15,
       by decide +kernel⟩,
   ⟨{ up with fab := { commits := [{ set := .gain 3, wait := 0 }] }, slu := { gainS := [(196608, 5)] } }, 3,
       by decide +kernel⟩,
   ⟨{ up with fab := { commits := [{ set := .win 3, wait := 0 }] }, slu := { winS := [(98304, 5)] } }, 3,
       by decide +kernel⟩,
   ⟨{ up with fab := { commits := [{ set := .wtSel, wait := 0 }] }, regs := [(R.WT_SEL.key 0, 3)], time := { tide := 9 } },
       by decide +kernel⟩,
   ⟨{ up with fab := { commits := [{ set := .dest, wait := 0 }] }, net := { dstShadow := [(0, 1)] } }, by decide +kernel⟩,
   ⟨{ up with fab := { commits := [{ set := .tb0Step, wait := 0 }] }, regs := [(R.STEP_CTRL.key 0, 1)] },
       by decide +kernel⟩,
   ⟨{ up with fab := { commits := [{ set := .dest, wait := 1 }] } }, { set := .dest, wait := 1 }, by decide +kernel⟩,
   ⟨{ up with sup := {}, fab := { commits := [{ set := .dest, wait := 0 }] } }, { set := .dest, wait := 0 },
       by decide +kernel⟩,
   ⟨{ up with time := { pos := 1 }, fab := { commits := [{ set := .arm, wait := 0 }] } }, { set := .arm, wait := 0 },
       by decide +kernel⟩⟩

/-- States and operands that meet the hypotheses of each clause of `Obligations.ImageStores`. -/
theorem witness_ImageStores :
  (∃ (s : State) (a : Agent) (i : Fin 2), s.accepts a 0x10 R.LOAD_CMD.off (word (at_ 8 i + 1)) = true)
  ∧ (∃ (s : State) (a : Agent) (i : Fin 2), s.accepts a 0x10 R.LOAD_CMD.off (word (at_ 8 i + 2)) = true)
  ∧ (∃ (s : State) (us : BitVec 16) (i : Nat) (x : Nat), s.sched.check = some (i, x) ∧ i < 2 ∧ s.supervised = true)
  ∧ (∃ (s : State) (us : BitVec 16), (s.sched.check = none ∨ s.supervised = false))
  ∧ (∃ (s : State) (m : Fin 9) (i : Fin 2) (off : Nat) (data : List Byte), off + data.length ≤ 0x1000000 ∧ data ≠ []
      ∧ s.pwr.coreUp = true ∧ s.fwRefusal m false true (0x008004000000 + 0x1000000 * i.val + off) data.length = none
      ∧ s.storeLocked i = false)
  ∧ (∃ (s : State) (m : Fin 9) (i : Fin 2) (off : Nat) (data : List Byte), off + data.length ≤ 0x1000000 ∧ data ≠ []
      ∧ s.pwr.coreUp = true ∧ s.fwRefusal m false true (0x008004000000 + 0x1000000 * i.val + off) data.length = none
      ∧ s.storeLocked i = true)
  ∧ (∃ (s : State) (m : Fin 9) (i : Fin 2) (off : Nat) (data : List Byte) (x : Nat × Nat), off + data.length ≤ 0x1000000
      ∧ data ≠ [] ∧ s.pwr.coreUp = true
      ∧ s.fwRefusal m false true (0x008004000000 + 0x1000000 * i.val + off) data.length = some x) :=
  ⟨⟨{ up with sched := { st1 := .written } }, .host, 1, by decide +kernel⟩,
   ⟨{ up with sched := { st1 := .valid } }, .host, 1, by decide +kernel⟩,
   ⟨{ up with sched := { st1 := .checking, check := some (1, 0) } }, 9, 1, 0, by decide +kernel⟩,
   ⟨{ up with sup := {}, sched := { st1 := .checking, check := some (1, 0) } }, 9, by decide +kernel⟩,
   ⟨{ up with regs := [(R.FW_CTRL.key 0, 0)] }, 2, 1, 0xFFFFFE, [1, 2], by decide +kernel⟩,
   ⟨{ up with sched := { st1 := .running }, regs := [(R.FW_CTRL.key 0, 0)] }, 2, 1, 0xFFFFFE, [1, 2], by decide +kernel⟩,
   ⟨{ up with regs := [(R.FW_CTRL.key 0, 3)] }, 2, 1, 5, [1, 2], (1, 63), by decide +kernel⟩⟩

/-- States and operands that meet the hypotheses of the first clauses of `Obligations.SwapsAndHalts`. -/
theorem witness_SwapsAndHalts :
  (∃ (s : State) (a : Agent) (v : Word), s.accepts a 0x10 R.ARM_CTRL.off (setBit v 0) = true ∧ bit v 1 = false)
  ∧ (∃ (s : State) (a : Agent) (v : Word), s.accepts a 0x10 R.ARM_CTRL.off (setBit v 0) = true ∧ bit v 1 = true)
  ∧ (∃ (s : State) (a : Agent), s.accepts a 0x10 R.ARM_CANCEL.off 1 = true)
  ∧ (∃ (s : State) (x : Arm), s.atBoundary = true ∧ s.sched.cancel = true ∧ s.sched.pend = some x)
  ∧ (∃ (s : State), s.atBoundary = true ∧ s.sched.cancel = true ∧ s.sched.pend = none
      ∧ s.fab.commits = [{ set := .arm, wait := 0 }] ∧ s.rdb R.ARM_CTRL 0 0 = true)
  ∧ (∃ (s : State), (s.atBoundary = false ∨ s.sched.cancel = false))
  ∧ (∃ (s : State) (x : Arm), s.atBoundary = true ∧ s.sched.pend = some x ∧ x.halt = false ∧ x.store < 2 ∧ x.tide = s.time.tide
      ∧ s.sched.cancel = false ∧ s.epochDue = false ∧ s.supervised = true
      ∧ (s.mesh.role = .standalone ∨ s.mesh.role = .primary))
  ∧ (∃ (s : State) (x : Arm), s.atBoundary = true ∧ s.sched.pend = some x ∧ x.halt = false ∧ x.tide = s.time.tide
      ∧ s.sched.cancel = false ∧ s.epochDue = false
      ∧ (s.supervised = false ∨ s.mesh.role = .minority ∨ s.mesh.role = .joining))
  ∧ (∃ (s : State) (x : Arm), s.atBoundary = true ∧ s.sched.pend = some x ∧ x.halt = false ∧ x.tide = s.time.tide
      ∧ s.sched.cancel = false ∧ s.epochDue = false
      ∧ (s.supervised = false ∨ s.mesh.role = .minority ∨ s.mesh.role = .joining))
  ∧ (∃ (s : State), (s.atBoundary = false ∨ s.sched.pend = none ∨ s.sched.cancel = true ∨ s.epochDue = true))
  ∧ (∃ (s : State) (x : Arm) (i : Nat), s.atBoundary = true ∧ s.sup.haltDue = false ∧ s.sched.standbyHalt = false
      ∧ s.sched.pend = some x ∧ x.halt = true ∧ x.tide = s.time.tide ∧ s.sched.cancel = false ∧ s.sched.run = some i)
  ∧ (∃ (s : State) (i : Nat), s.atBoundary = true ∧ s.sup.haltDue = false ∧ s.sched.standbyHalt = true ∧ s.sched.run = some i) :=
  ⟨⟨{ up with sched := { st0 := .valid }, regs := [(R.ARM_TIDE.key 0, 9)] }, .host, 0, by decide +kernel⟩,
   ⟨{ up with sched := { st0 := .running, run := some 0 }, regs := [(R.ARM_TIDE.key 0, 9)] }, .host, 2,
       by decide +kernel⟩,
   ⟨{ up with sched := { st0 := .armed, pend := some { halt := false, store := 0, stress := false, tide := 9, epoch := 0 } } },
       .host, by decide +kernel⟩,
   ⟨{ up with sup := { sv0 := .active }, sched := { cancel := true, st0 := .armed, pend := some { halt := false, store := 0, stress := false, tide := 9, epoch := 0 } } },
       { halt := false, store := 0, stress := false, tide := 9, epoch := 0 }, by decide +kernel⟩,
   ⟨{ up with sched := { cancel := true, st0 := .armed }, fab := { commits := [{ set := .arm, wait := 0 }] }, regs := [(R.ARM_CTRL.key 0, 1)] },
       by decide +kernel⟩,
   ⟨up, by decide +kernel⟩,
   ⟨{ up with sched := { st0 := .armed, pend := some { halt := false, store := 0, stress := false, tide := 0, epoch := 0 } } },
       { halt := false, store := 0, stress := false, tide := 0, epoch := 0 }, by decide +kernel⟩,
   ⟨{ up with sup := {}, sched := { st0 := .armed, pend := some { halt := false, store := 0, stress := false, tide := 0, epoch := 0 } } },
       { halt := false, store := 0, stress := false, tide := 0, epoch := 0 }, by decide +kernel⟩,
   ⟨{ up with mesh := { role := .minority }, sched := { st1 := .armed, pend := some { halt := false, store := 1, stress := false, tide := 0, epoch := 0 } } },
       { halt := false, store := 1, stress := false, tide := 0, epoch := 0 }, by decide +kernel⟩,
   ⟨up, by decide +kernel⟩,
   ⟨{ up with sched := { st1 := .running, run := some 1, pend := some { halt := true, store := 0, stress := false, tide := 0, epoch := 0 } } },
       { halt := true, store := 0, stress := false, tide := 0, epoch := 0 }, 1, by decide +kernel⟩,
   ⟨{ up with pwr := { up.pwr with req := .toStandby }, sched := { st1 := .running, run := some 1, standbyHalt := true } },
       1, by decide +kernel⟩⟩

/-- States and operands that meet the hypotheses of further clauses of `Obligations.SwapsAndHalts`. -/
theorem witness_SwapsAndHalts_2 :
  (∃ (s : State) (i : Nat), s.atBoundary = true ∧ s.sup.haltDue = true ∧ s.sched.run = some i) :=
  ⟨{ up with sup := { haltDue := true, expired := true }, sched := { st1 := .running, run := some 1 } }, 1,
       by decide +kernel⟩

/-- States and operands that meet the hypotheses of the first clauses of `Obligations.HeapTransfers`. -/
theorem witness_HeapTransfers :
  (∃ (s : State) (j : Fin 512) (n : Fin 4096) (ecc : List EccObs) (x : SXfer) (y : State), y = s.atSlot n
      ∧ y.serves (j.val / 2) = true ∧ (y.pc j).due = [x] ∧ x.write = true
      ∧ (x.now = true ∨ 2 * (y.slotStart n + 28) ≥ x.ready) ∧ x.data.length = 64 ∧ y.slotOwner j n = some x.owner
      ∧ y.addrOk j x.addr = true)
  ∧ (∃ (s : State) (j : Fin 512) (n : Fin 4096) (ecc : List EccObs) (x : SXfer) (y : State), y = s.atSlot n
      ∧ y.serves (j.val / 2) = true ∧ (y.pc j).due = [x] ∧ x.write = false ∧ (x.now = true ∨ 2 * y.slotStart n ≥ x.ready)
      ∧ y.slotOwner j n = some x.owner ∧ y.addrOk j (y.redirect x.addr) = true)
  ∧ (∃ (s : State) (j : Fin 512) (n : Fin 4096) (ecc : List EccObs) (x : SXfer) (y : State), y = s.atSlot n ∧ (y.pc j).due = [x]
      ∧ x.now = true ∧ (y.slotOwner j n ≠ some x.owner ∨ y.addrOk j (y.servedAt x) = false))
  ∧ (∃ (s : State) (j : Fin 512) (n : Fin 4096) (ecc : List EccObs) (y : State), y = s.atSlot n ∧ y.quiet
      ∧ (y.pc j).due.all (fun x => !x.now && decide (y.slotOwner j n ≠ some x.owner)) = true)
  ∧ (∃ (s : State) (j : Fin 512) (n : Fin 4096) (ecc : List EccObs) (y : State), y = s.atSlot n ∧ y.serves (j.val / 2) = true)
  ∧ (∃ (s : State) (j : Fin 512) (n : Fin 4096) (ecc : List EccObs) (x : HPart) (y : Txn) (id : Nat) (q : Nat) (z : State),
      z = s.atSlot n ∧ z.serves (j.val / 2) = true ∧ z.hasOpen 0 j = true ∧ z.classAt 0 j n = some .open_
      ∧ (z.pc j).queue = [{ txn := id, qos := q, write := true, parts := [x] }] ∧ (x.len = 64 ∨ x.merge.isSome = true)
      ∧ (x.merge.getD x.data).length = 64 ∧ z.weightRefused (x.addr + x.lo) x.len = false ∧ pget z.xbar.txns id = some y
      ∧ y.left = 1 ∧ y.write = true ∧ y.bad = false ∧ y.resp = none)
  ∧ (∃ (s : State) (j : Fin 512) (n : Fin 4096) (ecc : List EccObs) (x : HPart) (y : Txn) (id : Nat) (q : Nat) (z : State),
      z = s.atSlot n ∧ z.serves (j.val / 2) = true ∧ z.hasOpen 0 j = true ∧ z.classAt 0 j n = some .open_
      ∧ (z.pc j).queue = [{ txn := id, qos := q, write := true, parts := [x] }] ∧ (x.len = 64 ∨ x.merge.isSome = true)
      ∧ (x.merge.getD x.data).length = 64 ∧ z.weightRefused (x.addr + x.lo) x.len = false ∧ pget z.xbar.txns id = some y
      ∧ y.left = 1 ∧ y.write = true ∧ y.bad = false ∧ y.resp = none)
  ∧ (∃ (s : State) (j : Fin 512) (n : Fin 4096) (ecc : List EccObs) (x : HPart) (id : Nat) (q : Nat) (z : State), z = s.atSlot n
      ∧ z.serves (j.val / 2) = true ∧ z.hasOpen 0 j = true ∧ z.classAt 0 j n = some .open_
      ∧ (z.pc j).queue = [{ txn := id, qos := q, write := true, parts := [x] }] ∧ x.len < 64 ∧ x.merge = none
      ∧ (eccOf ecc 0).2 = false ∧ z.injected (j.val / 2) = false ∧ z.weightRefused (x.addr + x.lo) x.len = false)
  ∧ (∃ (s : State) (j : Fin 512) (n : Fin 4096) (ecc : List EccObs) (x : HPart) (y : Txn) (id : Nat) (q : Nat) (z : State),
      z = s.atSlot n ∧ z.serves (j.val / 2) = true ∧ z.hasOpen 0 j = true ∧ z.classAt 0 j n = some .open_
      ∧ (z.pc j).queue = [{ txn := id, qos := q, write := false, parts := [x] }] ∧ (eccOf ecc 0).2 = false
      ∧ z.injected (j.val / 2) = false ∧ x.lo + x.len ≤ 64 ∧ pget z.xbar.txns id = some y ∧ y.addr = x.addr + x.lo
      ∧ y.data.length = x.len ∧ y.left = 1 ∧ y.write = false ∧ y.bad = false ∧ y.resp = none)
  ∧ (∃ (s : State) (j : Fin 512) (n : Fin 4096) (ecc : List EccObs) (x : HPart) (y : Txn) (id : Nat) (q : Nat) (z : State),
      z = s.atSlot n ∧ z.serves (j.val / 2) = true ∧ z.hasOpen 0 j = true ∧ z.classAt 0 j n = some .open_
      ∧ (z.pc j).queue = [{ txn := id, qos := q, write := false, parts := [x] }]
      ∧ ((eccOf ecc 0).2 = true ∨ z.injected (j.val / 2) = true) ∧ pget z.xbar.txns id = some y ∧ y.left = 1 ∧ y.resp = none)
  ∧ (∃ (s : State) (j : Fin 512) (n : Fin 4096) (ecc : List EccObs) (x : HPart) (y : Txn) (id : Nat) (q : Nat) (z : State),
      z = s.atSlot n ∧ z.serves (j.val / 2) = true ∧ z.hasOpen 0 j = true ∧ z.classAt 0 j n = some .open_
      ∧ z.sched.stress = false ∧ (z.pc j).queue = [{ txn := id, qos := q, write := true, parts := [x] }]
      ∧ z.weightRefused (x.addr + x.lo) x.len = true ∧ pget z.xbar.txns id = some y ∧ y.resp = none) :=
  ⟨⟨{ up with sched := { run := some 0, image0 := heapImage }, time := { pos := 768 }, heap := { ctrl := [(0, { state := .ready })], pch := [(0, { due := [{ owner := 5, now := false, write := true, addr := 64, data := List.replicate 64 7, dest := .none }] })] } },
       0, 3, [], { owner := 5, now := false, write := true, addr := 64, data := List.replicate 64 7, dest := .none },
       ({ up with sched := { run := some 0, image0 := heapImage }, time := { pos := 768 }, heap := { ctrl := [(0, { state := .ready })], pch := [(0, { due := [{ owner := 5, now := false, write := true, addr := 64, data := List.replicate 64 7, dest := .none }] })] } } : State).atSlot 3,
       by decide +kernel⟩,
   ⟨{ up with sched := { run := some 0, image0 := heapImage }, time := { pos := 700 }, heap := { ctrl := [(0, { state := .ready })], pch := [(0, { due := [{ owner := 5, now := true, write := false, addr := 64, data := [], dest := .none }] })] } },
       0, 3, [{ k := 0, corrected := 3, uncorrectable := true }],
       { owner := 5, now := true, write := false, addr := 64, data := [], dest := .none },
       ({ up with sched := { run := some 0, image0 := heapImage }, time := { pos := 700 }, heap := { ctrl := [(0, { state := .ready })], pch := [(0, { due := [{ owner := 5, now := true, write := false, addr := 64, data := [], dest := .none }] })] } } : State).atSlot 3,
       by decide +kernel⟩,
   ⟨{ up with heap := { pch := [(0, { due := [{ owner := 6, now := true, write := false, addr := 64, data := [], dest := .none }] })] } },
       0, 3, [], { owner := 6, now := true, write := false, addr := 64, data := [], dest := .none },
       ({ up with heap := { pch := [(0, { due := [{ owner := 6, now := true, write := false, addr := 64, data := [], dest := .none }] })] } } : State).atSlot 3,
       by decide +kernel⟩,
   ⟨{ up with heap := { pch := [(511, { due := [{ owner := 6, now := false, write := false, addr := 64, data := [], dest := .none }] })] } },
       511, 3, [],
       ({ up with heap := { pch := [(511, { due := [{ owner := 6, now := false, write := false, addr := 64, data := [], dest := .none }] })] } } : State).atSlot 3,
       by decide +kernel⟩,
   ⟨{ up with heap := { ctrl := [(1, { state := .ready })] } }, 3, 3, [],
       ({ up with heap := { ctrl := [(1, { state := .ready })] } } : State).atSlot 3, by decide +kernel⟩,
   ⟨openAt true 64 none, 0, 3, [], { addr := 64, lo := 0, len := 64, data := List.replicate 64 7, merge := none },
       { master := 2, secure := false, write := true, addr := 64, len := 64, data := List.replicate 64 7, qos := 0, waited := 0, port := 0, gen := some 0, left := 1, resp := none, origin := .outside },
       4, 0, (openAt true 64 none).atSlot 3, by decide +kernel⟩,
   ⟨openAt true 8 (some (List.replicate 64 9)), 0, 3, [],
       { addr := 64, lo := 0, len := 8, data := List.replicate 8 7, merge := some (List.replicate 64 9) },
       { master := 2, secure := false, write := true, addr := 64, len := 64, data := List.replicate 64 7, qos := 0, waited := 0, port := 0, gen := some 0, left := 1, resp := none, origin := .outside },
       4, 0, (openAt true 8 (some (List.replicate 64 9))).atSlot 3, by decide +kernel⟩,
   ⟨openAt true 8 none, 0, 3, [], { addr := 64, lo := 0, len := 8, data := List.replicate 8 7, merge := none }, 4, 0,
       (openAt true 8 none).atSlot 3, by decide +kernel⟩,
   ⟨{ openAt false 64 none with heap := { (openAt false 64 none).heap with mem := [(65, 9)] } }, 0, 3, [],
       { addr := 64, lo := 0, len := 64, data := [], merge := none },
       { master := 2, secure := false, write := false, addr := 64, len := 64, data := List.replicate 64 0, qos := 0, waited := 0, port := 0, gen := some 0, left := 1, resp := none, origin := .outside },
       4, 0,
       ({ openAt false 64 none with heap := { (openAt false 64 none).heap with mem := [(65, 9)] } } : State).atSlot 3,
       by decide +kernel⟩,
   ⟨openAt false 64 none, 0, 3, [{ k := 0, corrected := 0, uncorrectable := true }],
       { addr := 64, lo := 0, len := 64, data := [], merge := none },
       { master := 2, secure := false, write := false, addr := 64, len := 64, data := List.replicate 64 0, qos := 0, waited := 0, port := 0, gen := some 0, left := 1, resp := none, origin := .outside },
       4, 0, (openAt false 64 none).atSlot 3, by decide +kernel⟩,
   ⟨{ openAt true 64 none with regs := [(R.WT_SIZE.key 0, 2)] }, 0, 3, [],
       { addr := 64, lo := 0, len := 64, data := List.replicate 64 7, merge := none },
       { master := 2, secure := false, write := true, addr := 64, len := 64, data := List.replicate 64 7, qos := 0, waited := 0, port := 0, gen := some 0, left := 1, resp := none, origin := .outside },
       4, 0, ({ openAt true 64 none with regs := [(R.WT_SIZE.key 0, 2)] } : State).atSlot 3, by decide +kernel⟩⟩

/-- States and operands that meet the hypotheses of further clauses of `Obligations.HeapTransfers`. -/
theorem witness_HeapTransfers_2 :
  (∃ (s : State) (j : Fin 512) (n : Fin 4096) (ecc : List EccObs) (z : State), z = s.atSlot n
      ∧ (z.serves (j.val / 2) = false ∨ z.hasOpen 0 j = false))
  ∧ (∃ (s : State) (j : Fin 512) (n : Fin 4096) (ecc : List EccObs) (z : State), z = s.atSlot n ∧ z.serves (j.val / 2) = true
      ∧ z.hasOpen 0 j = true ∧ z.classAt 0 j n ≠ some .open_)
  ∧ (∃ (s : State) (n : Fin 16) (r : XbarReq) (a : Nat) (ps : List HPart), a = s.mapAddr r.master r.addr.toNat
      ∧ ps = heapParts a r.len r.data (r.len + 1) ∧ a + r.len ≤ heapBytes ∧ 0 < r.len
      ∧ (r.write = false ∨ s.weightRefused a r.len = false) ∧ ps.all s.canQueue = true
      ∧ ps.any (fun x => s.bridgeRefuses (hCtl x.addr)) = false)
  ∧ (∃ (s : State) (n : Fin 16) (r : XbarReq) (a : Nat) (ps : List HPart), a = s.mapAddr r.master r.addr.toNat
      ∧ ps = heapParts a r.len r.data (r.len + 1) ∧ a + r.len ≤ heapBytes ∧ 0 < r.len
      ∧ (r.write = false ∨ s.weightRefused a r.len = false) ∧ ps.all s.canQueue = true
      ∧ ps.any (fun x => s.bridgeRefuses (hCtl x.addr)) = false)
  ∧ (∃ (s : State) (n : Fin 16) (r : XbarReq) (a : Nat) (ps : List HPart), a = s.mapAddr r.master r.addr.toNat
      ∧ ps = heapParts a r.len r.data (r.len + 1) ∧ a + r.len ≤ heapBytes ∧ 0 < r.len
      ∧ (r.write = false ∨ s.weightRefused a r.len = false)
      ∧ (ps.all s.canQueue = false ∨ ps.any (fun x => s.bridgeRefuses (hCtl x.addr)) = true))
  ∧ (∃ (s : State) (n : Fin 16) (r : XbarReq) (a : Nat), a = s.mapAddr r.master r.addr.toNat ∧ a + r.len ≤ heapBytes
      ∧ r.write = true ∧ s.weightRefused a r.len = true)
  ∧ (∃ (s : State) (n : Fin 16) (r : XbarReq), heapBytes < s.mapAddr r.master r.addr.toNat + r.len) :=
  ⟨⟨{ openAt true 64 none with heap := { pch := (openAt true 64 none).heap.pch } }, 1, 3, [],
       ({ openAt true 64 none with heap := { pch := (openAt true 64 none).heap.pch } } : State).atSlot 3,
       by decide +kernel⟩,
   ⟨openAt true 64 none, 0, 0, [], (openAt true 64 none).atSlot 0, by decide +kernel⟩,
   ⟨{ up with heap := { ctrl := [(0, { state := .ready })] } }, 3,
       { master := 2, secure := false, write := false, addr := 128, len := 64, data := [] }, 128,
       [{ addr := 128, lo := 0, len := 64, data := [], merge := none }], by decide +kernel⟩,
   ⟨{ up with heap := { ctrl := [(0, { state := .ready })] } }, 3,
       { master := 2, secure := false, write := true, addr := 1020, len := 8, data := [1, 2, 3, 4, 5, 6, 7, 8] },
       1020, heapParts 1020 8 [1, 2, 3, 4, 5, 6, 7, 8] 9, by decide +kernel⟩,
   ⟨up, 3, { master := 2, secure := false, write := false, addr := 128, len := 64, data := [] }, 128,
       [{ addr := 128, lo := 0, len := 64, data := [], merge := none }], by decide +kernel⟩,
   ⟨{ up with regs := [(R.WT_SIZE.key 0, 4)] }, 3,
       { master := 2, secure := false, write := true, addr := 128, len := 64, data := [] }, 128, by decide +kernel⟩,
   ⟨up, 3, { master := 2, secure := false, write := false, addr := 0x6000000000, len := 64, data := [] },
       by decide +kernel⟩⟩

/-- States and operands that meet the hypotheses of the first clauses of `Obligations.HeapUpkeep`. -/
theorem witness_HeapUpkeep :
  (∃ (s : State) (j : Fin 512) (n : Fin 4096) (x : BitVec 8) (y : State), y = s.atSlot n ∧ (y.ctl (j.val / 2)).refreshes = true
      ∧ y.classAt 0 j n = some .refresh ∧ pget y.heap.tempTide (j.val / 64) = some y.time.tide)
  ∧ (∃ (s : State) (j : Fin 512) (n : Fin 4096) (x : BitVec 8) (y : State), y = s.atSlot n ∧ (y.ctl (j.val / 2)).refreshes = true
      ∧ y.classAt 0 j n = some .refresh ∧ pget y.heap.tempTide (j.val / 64) ≠ some y.time.tide)
  ∧ (∃ (s : State) (j : Fin 512) (n : Fin 4096) (x : BitVec 8) (y : State), y = s.atSlot n ∧ (y.ctl (j.val / 2)).refreshes = true
      ∧ y.classAt 0 j n = some .refresh ∧ pget y.heap.tempTide (j.val / 64) ≠ some y.time.tide)
  ∧ (∃ (s : State) (j : Fin 512) (n : Fin 4096) (x : BitVec 8) (y : State), y = s.atSlot n ∧ (y.ctl (j.val / 2)).refreshes = true
      ∧ y.classAt 0 j n = some .refresh2)
  ∧ (∃ (s : State) (j : Fin 512) (n : Fin 4096) (x : BitVec 8) (y : State), y = s.atSlot n
      ∧ ((y.ctl (j.val / 2)).refreshes = false ∨ (y.classAt 0 j n ≠ some .refresh ∧ y.classAt 0 j n ≠ some .refresh2)))
  ∧ (∃ (s : State) (j : Fin 512) (n : Fin 4096) (y : State) (m : Nat), y = s.atSlot n ∧ y.serves (j.val / 2) = true
      ∧ y.classAt 0 j n = some .mitigate
      ∧ m = min 4 (y.pc j).mits.length + (if y.sched.stress then min (4 - min 4 (y.pc j).mits.length) (y.pc j).acts.length else 0))
  ∧ (∃ (s : State) (j : Fin 512) (n : Fin 4096) (y : State) (m : Nat), y = s.atSlot n ∧ y.serves (j.val / 2) = true
      ∧ y.classAt 0 j n = some .mitigate
      ∧ m = min 4 (y.pc j).mits.length + (if y.sched.stress then min (4 - min 4 (y.pc j).mits.length) (y.pc j).acts.length else 0))
  ∧ (∃ (s : State) (j : Fin 512) (n : Fin 4096) (y : State), y = s.atSlot n
      ∧ (y.serves (j.val / 2) = false ∨ y.classAt 0 j n ≠ some .mitigate))
  ∧ (∃ (s : State) (j : Fin 512) (n : Fin 4096) (ps : List (BitVec 8)) (x : Trim) (y : State), y = s.atSlot n
      ∧ y.serves (j.val / 2) = true ∧ y.classAt 0 j n = some .trim
      ∧ ((y.pc j).trim = some x ∨ ((y.pc j).trim = none ∧ ((y.pc j).rcDue = true ∨ y.sched.stress = true) ∧ x = { step := 0, masks := [], act := y.loadMark j, temp := y.stackTemp (j.val / 2) }))
      ∧ x.step < 15)
  ∧ (∃ (s : State) (j : Fin 512) (n : Fin 4096) (ps : List (BitVec 8)) (x : Trim) (y : State), y = s.atSlot n
      ∧ y.serves (j.val / 2) = true ∧ y.classAt 0 j n = some .trim ∧ (y.pc j).trim = some x ∧ x.step = 15
      ∧ eyesOpen (addTaps 15 x.masks ps) = true)
  ∧ (∃ (s : State) (j : Fin 512) (n : Fin 4096) (ps : List (BitVec 8)) (x : Trim) (y : State), y = s.atSlot n
      ∧ y.serves (j.val / 2) = true ∧ y.classAt 0 j n = some .trim ∧ (y.pc j).trim = some x ∧ x.step = 15
      ∧ eyesOpen (addTaps 15 x.masks ps) = false)
  ∧ (∃ (s : State) (j : Fin 512) (n : Fin 4096) (ps : List (BitVec 8)) (x : Trim) (y : State), y = s.atSlot n
      ∧ y.serves (j.val / 2) = true ∧ y.classAt 0 j n = some .trim ∧ (y.pc j).trim = some x ∧ x.step = 15
      ∧ eyesOpen (addTaps 15 x.masks ps) = false) :=
  ⟨⟨{ up with heap := { ctrl := [(1, { state := .ready })], tempTide := [(0, some 0)] } }, 2, 0, 40,
       ({ up with heap := { ctrl := [(1, { state := .ready })], tempTide := [(0, some 0)] } } : State).atSlot 0,
       by decide +kernel⟩,
   ⟨{ up with heap := { ctrl := [(1, { state := .ready })] } }, 2, 0, 86,
       ({ up with heap := { ctrl := [(1, { state := .ready })] } } : State).atSlot 0, by decide +kernel⟩,
   ⟨{ up with heap := { ctrl := [(1, { state := .ready })] } }, 2, 0, 84,
       ({ up with heap := { ctrl := [(1, { state := .ready })] } } : State).atSlot 0, by decide +kernel⟩,
   ⟨{ up with heap := { ctrl := [(1, { state := .ready })] }, regs := [(R.HC_XCFG.key 1, 2)] }, 2, 16, 40,
       ({ up with heap := { ctrl := [(1, { state := .ready })] }, regs := [(R.HC_XCFG.key 1, 2)] } : State).atSlot 16,
       by decide +kernel⟩,
   ⟨up, 2, 0, 40, up.atSlot 0, by decide +kernel⟩,
   ⟨{ up with time := { pos := 2048 }, heap := { ctrl := [(1, { state := .ready })], pch := [(2, { mits := [(1, 2)] })] } },
       2, 8,
       { up with time := { pos := 2048 }, heap := { ctrl := [(1, { state := .ready })], pch := [(2, { mits := [(1, 2)] })] } },
       1, by decide +kernel⟩,
   ⟨{ up with time := { pos := 2048 }, heap := { ctrl := [(1, { state := .ready })] } }, 2, 8,
       { up with time := { pos := 2048 }, heap := { ctrl := [(1, { state := .ready })] } }, 0, by decide +kernel⟩,
   ⟨up, 2, 9, up.atSlot 9, by decide +kernel⟩,
   ⟨{ up with time := { pos := 18432 }, heap := { ctrl := [(1, { state := .ready })], pch := [(2, { trim := some { step := 1, masks := [], act := 0, temp := 30 } })] } },
       2, 72, [255, 255, 255, 255, 255, 255, 255, 255], { step := 1, masks := [], act := 0, temp := 30 },
       { up with time := { pos := 18432 }, heap := { ctrl := [(1, { state := .ready })], pch := [(2, { trim := some { step := 1, masks := [], act := 0, temp := 30 } })] } },
       by decide +kernel⟩,
   ⟨{ up with time := { pos := 18432 }, heap := { ctrl := [(1, { state := .ready })], pch := [(2, { trim := some { step := 15, masks := List.replicate 8 0xFFFFFFFFFF, act := 0, temp := 30 } })] } },
       2, 72, [], { step := 15, masks := List.replicate 8 0xFFFFFFFFFF, act := 0, temp := 30 },
       { up with time := { pos := 18432 }, heap := { ctrl := [(1, { state := .ready })], pch := [(2, { trim := some { step := 15, masks := List.replicate 8 0xFFFFFFFFFF, act := 0, temp := 30 } })] } },
       by decide +kernel⟩,
   ⟨{ up with time := { pos := 18432 }, heap := { ctrl := [(1, { state := .ready, rcFails := 2 })], pch := [(2, { trim := some { step := 15, masks := [], act := 0, temp := 30 } })] } },
       2, 72, [], { step := 15, masks := [], act := 0, temp := 30 },
       { up with time := { pos := 18432 }, heap := { ctrl := [(1, { state := .ready, rcFails := 2 })], pch := [(2, { trim := some { step := 15, masks := [], act := 0, temp := 30 } })] } },
       by decide +kernel⟩,
   ⟨{ up with time := { pos := 18432 }, heap := { ctrl := [(1, { state := .ready })], pch := [(2, { trim := some { step := 15, masks := [], act := 0, temp := 30 } })] } },
       2, 72, [], { step := 15, masks := [], act := 0, temp := 30 },
       { up with time := { pos := 18432 }, heap := { ctrl := [(1, { state := .ready })], pch := [(2, { trim := some { step := 15, masks := [], act := 0, temp := 30 } })] } },
       by decide +kernel⟩⟩

/-- States and operands that meet the hypotheses of further clauses of `Obligations.HeapUpkeep`. -/
theorem witness_HeapUpkeep_2 :
  (∃ (s : State) (j : Fin 512) (n : Fin 4096) (ps : List (BitVec 8)) (y : State), y = s.atSlot n
      ∧ (y.serves (j.val / 2) = false ∨ y.classAt 0 j n ≠ some .trim ∨ ((y.pc j).rcDue = false ∧ (y.pc j).trim = none ∧ y.sched.stress = false)))
  ∧ (∃ (s : State) (i : Fin 256) (sw : List (BitVec 128)) (x : BitVec 8), (s.ctl i).state = .starting
      ∧ eyesOpen ((List.range 16).map fun k => (sw.getD k 0).toNat) = true)
  ∧ (∃ (s : State) (i : Fin 256) (sw : List (BitVec 128)) (x : BitVec 8), (s.ctl i).state = .starting
      ∧ eyesOpen ((List.range 16).map fun k => (sw.getD k 0).toNat) = false)
  ∧ (∃ (s : State) (i : Fin 256) (sw : List (BitVec 128)) (x : BitVec 8), (s.ctl i).state ≠ .starting) :=
  ⟨⟨up, 2, 72, [], up.atSlot 72, by decide +kernel⟩,
   ⟨{ up with heap := { ctrl := [(255, { state := .starting })] } }, 255, List.replicate 16 0xFFFFFFFFFF, 30,
       by decide +kernel⟩,
   ⟨{ up with heap := { ctrl := [(255, { state := .starting })] } }, 255, [], 30, by decide +kernel⟩,
   ⟨up, 255, [], 30, by decide +kernel⟩⟩

/-- States and operands that meet the hypotheses of each clause of `Obligations.HeapControllerCommands`. -/
theorem witness_HeapControllerCommands :
  (∃ (s : State) (i : Fin 256) (m : Fin 2), ((s.ctl i).state = .ready ∨ (s.ctl i).state = .starting))
  ∧ (∃ (s : State) (i : Fin 256) (m : Fin 2), ((s.ctl i).state = .ready ∨ (s.ctl i).state = .starting))
  ∧ (∃ (s : State) (i : Fin 256) (m : Fin 2), (s.ctl i).state ≠ .ready ∧ (s.ctl i).state ≠ .starting)
  ∧ (∃ (s : State) (a : Agent) (st : Fin 8) (n : Nat), s.accepts a (0x40 + st.val) R.HC_CMD.off 1 = true
      ∧ s.bankOf a (0x40 + st.val) = n ∧ n < 32 ∧ (s.ctl (32 * st.val + n)).state = .ready)
  ∧ (∃ (s : State) (a : Agent) (st : Fin 8) (n : Nat), s.accepts a (0x40 + st.val) R.HC_CMD.off 1 = true
      ∧ s.bankOf a (0x40 + st.val) = n ∧ n < 32
      ∧ ((s.ctl (32 * st.val + n)).state = .frozen ∨ (s.ctl (32 * st.val + n)).state = .fault))
  ∧ (∃ (s : State) (a : Agent) (st : Fin 8) (n : Nat), s.accepts a (0x40 + st.val) R.HC_CMD.off 2 = true
      ∧ s.bankOf a (0x40 + st.val) = n ∧ n < 32)
  ∧ (∃ (s : State) (a : Agent) (st : Fin 8) (n : Nat), s.accepts a (0x40 + st.val) R.HC_CMD.off 4 = true
      ∧ s.bankOf a (0x40 + st.val) = n ∧ n < 32)
  ∧ (∃ (s : State) (a : Agent) (st : Fin 8) (n : Nat), s.accepts a (0x40 + st.val) R.HC_XCMD.off 1 = true
      ∧ s.bankOf a (0x40 + st.val) = n ∧ n < 32 ∧ (s.ctl (32 * st.val + n)).state ≠ .frozen)
  ∧ (∃ (s : State) (a : Agent) (st : Fin 8) (n : Nat), s.accepts a (0x40 + st.val) R.HC_XCMD.off 1 = true
      ∧ s.bankOf a (0x40 + st.val) = n ∧ n < 32 ∧ (s.ctl (32 * st.val + n)).state = .frozen)
  ∧ (∃ (s : State) (a : Agent), s.accepts a 0x12 R.BR_CLEAR.off 1 = true
      ∧ s.sched.brLast.all (fun z => decide (z.1 ≠ s.rclk)) = true)
  ∧ (∃ (s : State) (a : Agent) (z : Word), s.accepts a 0x12 R.BR_CLEAR.off 1 = true ∧ s.sched.brLast = some (s.rclk, z)) :=
  ⟨⟨{ up with heap := { ctrl := [(255, { state := .ready })] } }, 255, 1, by decide +kernel⟩,
   ⟨{ up with heap := { ctrl := [(255, { state := .starting })] } }, 255, 1, by decide +kernel⟩,
   ⟨up, 255, 1, by decide +kernel⟩,
   ⟨{ up with regs := [(regKey 0 0x47 0 hCtrl, 1), (regKey 3 0x47 0 hBank, 31)], heap := { ctrl := [(255, { state := .ready })] } },
       .host, 7, 31, by decide +kernel⟩,
   ⟨{ up with regs := [(regKey 0 0x47 0 hCtrl, 1), (regKey 3 0x47 0 hBank, 31)], heap := { ctrl := [(255, { state := .frozen })] } },
       .host, 7, 31, by decide +kernel⟩,
   ⟨{ up with regs := [(regKey 0 0x47 0 hCtrl, 1), (regKey 3 0x47 0 hBank, 31), (R.ERR_ADDR.key 255, 9)] }, .host, 7, 31,
       by decide +kernel⟩,
   ⟨{ up with regs := [(regKey 0 0x47 0 hCtrl, 1), (regKey 3 0x47 0 hBank, 31)], heap := { ctrl := [(255, { state := .ready, lost := true })] } },
       .host, 7, 31, by decide +kernel⟩,
   ⟨{ up with regs := [(regKey 0 0x47 0 hCtrl, 3), (regKey 3 0x47 0 hBank, 31)], heap := { ctrl := [(255, { state := .ready })] } },
       .host, 7, 31, by decide +kernel⟩,
   ⟨{ up with regs := [(regKey 0 0x47 0 hCtrl, 3), (regKey 3 0x47 0 hBank, 31)], heap := { ctrl := [(255, { state := .frozen })] } },
       .host, 7, 31, by decide +kernel⟩,
   ⟨{ up with regs := [(R.BR_FIRST.key 0, 9)] }, .host, by decide +kernel⟩,
   ⟨{ up with regs := [(R.BR_FIRST.key 0, 0x20004)], sched := { brLast := some (0, 0x10003) } }, .host, 0x10003,
       by decide +kernel⟩⟩

/-- States and operands that meet the hypotheses of the first clauses of `Obligations.CellsArriveAndAreReleased`. -/
theorem witness_CellsArriveAndAreReleased :
  (∃ (s : State) (q : Fin 256) (ws : List Word), s.lkUp q = true ∧ ws.length = 32 ∧ cellType ws = 1 ∧ cellOk ws = true
      ∧ cellFormBad ws = false
      ∧ (s.expects q (fld (cellWord ws 0) 55 44) && (s.bindOf (fld (cellWord ws 0) 55 44)).isSome) = true
      ∧ s.nowSclk ≤ (cellWord ws 1).toNat + s.rdf R.RX_BOUND q 15 0
      ∧ (cellWord ws 1).toNat + s.rdf R.RX_BOUND q 15 0 ≤ s.nowSclk + 65536 ∧ (s.lk q).rx.length < 512
      ∧ s.wasConsumed ws = false)
  ∧ (∃ (s : State) (q : Fin 256) (ws : List Word), s.lkUp q = true ∧ ws.length = 32 ∧ cellType ws = 1 ∧ cellOk ws = false)
  ∧ (∃ (s : State) (q : Fin 256) (ws : List Word), s.lkUp q = true ∧ ws.length = 32 ∧ cellType ws = 1 ∧ cellOk ws = true
      ∧ (cellFormBad ws = true ∨ (s.expects q (fld (cellWord ws 0) 55 44) && (s.bindOf (fld (cellWord ws 0) 55 44)).isSome) = false))
  ∧ (∃ (s : State) (q : Fin 256) (ws : List Word), s.lkUp q = true ∧ ws.length = 32 ∧ cellType ws = 1 ∧ cellOk ws = true
      ∧ cellFormBad ws = false
      ∧ (s.expects q (fld (cellWord ws 0) 55 44) && (s.bindOf (fld (cellWord ws 0) 55 44)).isSome) = true
      ∧ (cellWord ws 1).toNat + s.rdf R.RX_BOUND q 15 0 < s.nowSclk)
  ∧ (∃ (s : State) (q : Fin 256) (ws : List Word), s.lkUp q = true ∧ ws.length = 32 ∧ cellType ws = 1 ∧ cellOk ws = true
      ∧ cellFormBad ws = false
      ∧ (s.expects q (fld (cellWord ws 0) 55 44) && (s.bindOf (fld (cellWord ws 0) 55 44)).isSome) = true
      ∧ s.nowSclk + 65536 < (cellWord ws 1).toNat + s.rdf R.RX_BOUND q 15 0)
  ∧ (∃ (s : State) (q : Fin 256) (ws : List Word), s.lkUp q = true ∧ ws.length = 32 ∧ cellType ws = 1 ∧ cellOk ws = true
      ∧ cellFormBad ws = false
      ∧ (s.expects q (fld (cellWord ws 0) 55 44) && (s.bindOf (fld (cellWord ws 0) 55 44)).isSome) = true
      ∧ s.nowSclk ≤ (cellWord ws 1).toNat + s.rdf R.RX_BOUND q 15 0
      ∧ (cellWord ws 1).toNat + s.rdf R.RX_BOUND q 15 0 ≤ s.nowSclk + 65536 ∧ 512 ≤ (s.lk q).rx.length)
  ∧ (∃ (s : State) (q : Fin 256) (ws : List Word), s.lkUp q = true ∧ ws.length = 32 ∧ cellType ws = 1 ∧ cellOk ws = true
      ∧ cellFormBad ws = false
      ∧ (s.expects q (fld (cellWord ws 0) 55 44) && (s.bindOf (fld (cellWord ws 0) 55 44)).isSome) = true
      ∧ s.nowSclk ≤ (cellWord ws 1).toNat + s.rdf R.RX_BOUND q 15 0
      ∧ (cellWord ws 1).toNat + s.rdf R.RX_BOUND q 15 0 ≤ s.nowSclk + 65536 ∧ (s.lk q).rx.length < 512
      ∧ s.wasConsumed ws = true)
  ∧ (∃ (s : State) (q : Fin 256) (ws : List Word), s.lkUp q = false)
  ∧ (∃ (s : State) (q : Fin 256) (ws : List Word), s.lkUp q = true ∧ ws.length = 32 ∧ cellType ws = 5 ∧ cellOk ws = true
      ∧ cellFormBad ws = false ∧ s.expectsRow q (fld (cellWord ws 0) 55 52) = true
      ∧ s.nowSclk ≤ (cellWord ws 1).toNat + s.rdf R.RX_BOUND q 15 0
      ∧ (cellWord ws 1).toNat + s.rdf R.RX_BOUND q 15 0 ≤ s.nowSclk + 65536 ∧ (s.lk q).rx.length < 512
      ∧ s.wasConsumed ws = false)
  ∧ (∃ (s : State) (q : Fin 256) (ws : List Word), s.lkUp q = true ∧ ws.length = 32 ∧ cellType ws = 5 ∧ cellOk ws = false)
  ∧ (∃ (s : State) (q : Fin 256) (ws : List Word), s.lkUp q = true ∧ ws.length = 32 ∧ cellType ws = 5 ∧ cellOk ws = true
      ∧ (cellFormBad ws = true ∨ s.expectsRow q (fld (cellWord ws 0) 55 52) = false))
  ∧ (∃ (s : State) (q : Fin 256) (ws : List Word), s.lkUp q = true ∧ ws.length = 32 ∧ cellType ws = 5 ∧ cellOk ws = true
      ∧ cellFormBad ws = false ∧ s.expectsRow q (fld (cellWord ws 0) 55 52) = true
      ∧ (cellWord ws 1).toNat + s.rdf R.RX_BOUND q 15 0 < s.nowSclk) :=
  ⟨⟨{ up with sched := { run := some 0, image0 := linkImage }, regs := [(R.LINK_STAT.key 0, 5)] }, 0, cellOf 1,
       by decide +kernel⟩,
   ⟨{ up with sched := { run := some 0, image0 := linkImage }, regs := [(R.LINK_STAT.key 0, 5)] }, 0,
       word (at_ 60 1 + 1) :: List.replicate 31 0, by decide +kernel⟩,
   ⟨{ up with sched := { run := some 0, image0 := [] }, regs := [(R.LINK_STAT.key 0, 5)] }, 0, cellOf 1,
       by decide +kernel⟩,
   ⟨{ up with sched := { run := some 0, image0 := linkImage }, regs := [(R.LINK_STAT.key 0, 5)], time := { tide := 1 } },
       0, cellOf 1, by decide +kernel⟩,
   ⟨{ up with sched := { run := some 0, image0 := linkImage }, regs := [(R.LINK_STAT.key 0, 5)] }, 0,
       sealCell (word (at_ 60 1) :: 100000 :: List.replicate 30 0) false, by decide +kernel⟩,
   ⟨{ up with sched := { run := some 0, image0 := linkImage }, regs := [(R.LINK_STAT.key 0, 5)], links := { link := [(0, { rx := List.replicate 512 { words := [], avail := 0, release := 0 } })] } },
       0, cellOf 1, by decide +kernel⟩,
   ⟨{ up with sched := { run := some 0, image0 := linkImage }, regs := [(R.LINK_STAT.key 0, 5)], links := { consumed := [(cellIdent (cellOf 1), 0)] } },
       0, cellOf 1, by decide +kernel⟩,
   ⟨up, 0, cellOf 1, by decide +kernel⟩,
   ⟨{ up with sched := { run := some 0, image0 := linkImage }, regs := [(R.LINK_STAT.key 0, 5)] }, 0, cellOf 5,
       by decide +kernel⟩,
   ⟨{ up with sched := { run := some 0, image0 := linkImage }, regs := [(R.LINK_STAT.key 0, 5)] }, 0,
       word (at_ 60 5 + 1) :: List.replicate 31 0, by decide +kernel⟩,
   ⟨{ up with sched := { run := some 0, image0 := [] }, regs := [(R.LINK_STAT.key 0, 5)] }, 0, cellOf 5,
       by decide +kernel⟩,
   ⟨{ up with sched := { run := some 0, image0 := linkImage }, regs := [(R.LINK_STAT.key 0, 5)], time := { tide := 1 } },
       0, cellOf 5, by decide +kernel⟩⟩

/-- States and operands that meet the hypotheses of further clauses of `Obligations.CellsArriveAndAreReleased`. -/
theorem witness_CellsArriveAndAreReleased_2 :
  (∃ (s : State) (q : Fin 256) (ws : List Word), s.lkUp q = true ∧ ws.length = 32 ∧ cellType ws = 5 ∧ cellOk ws = true
      ∧ cellFormBad ws = false ∧ s.expectsRow q (fld (cellWord ws 0) 55 52) = true
      ∧ s.nowSclk + 65536 < (cellWord ws 1).toNat + s.rdf R.RX_BOUND q 15 0)
  ∧ (∃ (s : State) (q : Fin 256) (ws : List Word), s.lkUp q = true ∧ ws.length = 32 ∧ cellType ws = 5 ∧ cellOk ws = true
      ∧ cellFormBad ws = false ∧ s.expectsRow q (fld (cellWord ws 0) 55 52) = true
      ∧ s.nowSclk ≤ (cellWord ws 1).toNat + s.rdf R.RX_BOUND q 15 0
      ∧ (cellWord ws 1).toNat + s.rdf R.RX_BOUND q 15 0 ≤ s.nowSclk + 65536 ∧ 512 ≤ (s.lk q).rx.length)
  ∧ (∃ (s : State) (q : Fin 256) (ws : List Word), s.lkUp q = true ∧ ws.length = 32 ∧ cellType ws = 5 ∧ cellOk ws = true
      ∧ cellFormBad ws = false ∧ s.expectsRow q (fld (cellWord ws 0) 55 52) = true
      ∧ s.nowSclk ≤ (cellWord ws 1).toNat + s.rdf R.RX_BOUND q 15 0
      ∧ (cellWord ws 1).toNat + s.rdf R.RX_BOUND q 15 0 ≤ s.nowSclk + 65536 ∧ (s.lk q).rx.length < 512
      ∧ s.wasConsumed ws = true)
  ∧ (∃ (s : State) (q : Fin 256) (ws : List Word), s.lkUp q = false)
  ∧ (∃ (s : State) (q : Fin 256) (ws : List Word), s.lkUp q = true ∧ ws.length = 32 ∧ cellType ws = 2 ∧ cellOk ws = true
      ∧ cellFormBad ws = false ∧ s.rxHeld q 2 < 32 ∧ fld (cellWord ws 0) 55 44 = (s.lk q).rxSeq)
  ∧ (∃ (s : State) (q : Fin 256) (ws : List Word), s.lkUp q = true ∧ ws.length = 32 ∧ cellType ws = 2 ∧ cellOk ws = true
      ∧ cellFormBad ws = false ∧ s.rxHeld q 2 < 32 ∧ fld (cellWord ws 0) 55 44 = (s.lk q).rxSeq ∧ s.rxDelay q ≠ 0)
  ∧ (∃ (s : State) (q : Fin 256) (ws : List Word), s.lkUp q = true ∧ ws.length = 32 ∧ cellType ws = 2 ∧ cellOk ws = true
      ∧ cellFormBad ws = false ∧ s.rxHeld q 2 < 32 ∧ fld (cellWord ws 0) 55 44 = (s.lk q).rxSeq ∧ s.rxDelay q = 0
      ∧ (s.lk q).held = [] ∧ s.meshPeer q = none)
  ∧ (∃ (s : State) (q : Fin 256) (ws : List Word), s.lkUp q = true ∧ ws.length = 32 ∧ cellType ws = 2 ∧ cellOk ws = false)
  ∧ (∃ (s : State) (q : Fin 256) (ws : List Word), s.lkUp q = true ∧ ws.length = 32 ∧ cellType ws = 2 ∧ cellOk ws = true
      ∧ cellFormBad ws = true)
  ∧ (∃ (s : State) (q : Fin 256) (ws : List Word), s.lkUp q = true ∧ ws.length = 32 ∧ cellType ws = 2 ∧ cellOk ws = true
      ∧ cellFormBad ws = false ∧ 32 ≤ s.rxHeld q 2)
  ∧ (∃ (s : State) (q : Fin 256) (ws : List Word), s.lkUp q = true ∧ ws.length = 32 ∧ cellType ws = 2 ∧ cellOk ws = true
      ∧ cellFormBad ws = false ∧ s.rxHeld q 2 < 32 ∧ fld (cellWord ws 0) 55 44 ≠ (s.lk q).rxSeq)
  ∧ (∃ (s : State) (q : Fin 256) (ws : List Word), s.lkUp q = false) :=
  ⟨⟨{ up with sched := { run := some 0, image0 := linkImage }, regs := [(R.LINK_STAT.key 0, 5)] }, 0,
       sealCell (word (at_ 60 5) :: 100000 :: List.replicate 30 0) false, by decide +kernel⟩,
   ⟨{ up with sched := { run := some 0, image0 := linkImage }, regs := [(R.LINK_STAT.key 0, 5)], links := { link := [(0, { rx := List.replicate 512 { words := [], avail := 0, release := 0 } })] } },
       0, cellOf 5, by decide +kernel⟩,
   ⟨{ up with sched := { run := some 0, image0 := linkImage }, regs := [(R.LINK_STAT.key 0, 5)], links := { consumed := [(cellIdent (cellOf 5), 0)] } },
       0, cellOf 5, by decide +kernel⟩,
   ⟨up, 0, cellOf 5, by decide +kernel⟩,
   ⟨{ up with regs := [(R.LINK_STAT.key 255, 5)] }, 255, cellOf 2, by decide +kernel⟩,
   ⟨{ up with regs := [(R.LINK_STAT.key 255, 5), (regKey 0 0x53 0 hPerturb, 5)] }, 255, cellOf 2, by decide +kernel⟩,
   ⟨{ up with regs := [(R.LINK_STAT.key 255, 5)] }, 255, cellOf 2, by decide +kernel⟩,
   ⟨{ up with regs := [(R.LINK_STAT.key 255, 5)] }, 255, word (at_ 60 2 + 1) :: List.replicate 31 0, by decide +kernel⟩,
   ⟨{ up with regs := [(R.LINK_STAT.key 255, 5)] }, 255,
       sealCell (word (at_ 60 2 + at_ 56 1) :: List.replicate 31 0) false, by decide +kernel⟩,
   ⟨{ up with regs := [(R.LINK_STAT.key 255, 5)], links := { link := [(255, { held := List.replicate 32 (0, [word (at_ 60 2)], 0, 0, 0) })] } },
       255, cellOf 2, by decide +kernel⟩,
   ⟨{ up with regs := [(R.LINK_STAT.key 255, 5)], links := { link := [(255, { rxSeq := 1 })] } }, 255, cellOf 2,
       by decide +kernel⟩,
   ⟨up, 255, cellOf 2, by decide +kernel⟩⟩

/-- States and operands that meet the hypotheses of further clauses of `Obligations.CellsArriveAndAreReleased`. -/
theorem witness_CellsArriveAndAreReleased_3 :
  (∃ (s : State) (q : Fin 256) (ws : List Word), s.lkUp q = true ∧ ws.length = 32 ∧ cellType ws = 3 ∧ cellOk ws = true
      ∧ cellFormBad ws = false ∧ s.rxHeld q 3 < 256 ∧ fld (cellWord ws 0) 55 44 = (s.lk q).rxSeq)
  ∧ (∃ (s : State) (q : Fin 256) (ws : List Word), s.lkUp q = true ∧ ws.length = 32 ∧ cellType ws = 3 ∧ cellOk ws = true
      ∧ cellFormBad ws = false ∧ s.rxHeld q 3 < 256 ∧ fld (cellWord ws 0) 55 44 = (s.lk q).rxSeq ∧ s.rxDelay q ≠ 0)
  ∧ (∃ (s : State) (q : Fin 256) (ws : List Word), s.lkUp q = true ∧ ws.length = 32 ∧ cellType ws = 3 ∧ cellOk ws = true
      ∧ cellFormBad ws = false ∧ s.rxHeld q 3 < 256 ∧ fld (cellWord ws 0) 55 44 = (s.lk q).rxSeq ∧ s.rxDelay q = 0
      ∧ (s.lk q).held = [] ∧ s.meshPeer q = none)
  ∧ (∃ (s : State) (q : Fin 256) (ws : List Word), s.lkUp q = true ∧ ws.length = 32 ∧ cellType ws = 3 ∧ cellOk ws = false)
  ∧ (∃ (s : State) (q : Fin 256) (ws : List Word), s.lkUp q = true ∧ ws.length = 32 ∧ cellType ws = 3 ∧ cellOk ws = true
      ∧ cellFormBad ws = true)
  ∧ (∃ (s : State) (q : Fin 256) (ws : List Word), s.lkUp q = true ∧ ws.length = 32 ∧ cellType ws = 3 ∧ cellOk ws = true
      ∧ cellFormBad ws = false ∧ 256 ≤ s.rxHeld q 3)
  ∧ (∃ (s : State) (q : Fin 256) (ws : List Word), s.lkUp q = true ∧ ws.length = 32 ∧ cellType ws = 3 ∧ cellOk ws = true
      ∧ cellFormBad ws = false ∧ s.rxHeld q 3 < 256 ∧ fld (cellWord ws 0) 55 44 ≠ (s.lk q).rxSeq)
  ∧ (∃ (s : State) (q : Fin 256) (ws : List Word), s.lkUp q = false)
  ∧ (∃ (s : State) (q : Fin 256) (ws : List Word), s.lkUp q = true ∧ ws.length = 32 ∧ cellType ws = 3 ∧ cellOk ws = true
      ∧ cellFormBad ws = false ∧ s.rxHeld q 3 < 256 ∧ fld (cellWord ws 0) 55 44 = (s.lk q).rxSeq ∧ s.rxDelay q = 0
      ∧ (s.lk q).held = [] ∧ (s.meshPeer q).isSome = true ∧ fld (cellWord ws 1) 49 44 = s.meshSelf)
  ∧ (∃ (s : State) (q : Fin 256) (ws : List Word), s.lkUp q = true ∧ ws.length = 32 ∧ cellType ws = 4)
  ∧ (∃ (s : State) (q : Fin 256) (ws : List Word), s.lkUp q = true ∧ ws.length = 32 ∧ cellType ws = 4)
  ∧ (∃ (s : State) (q : Fin 256) (ws : List Word), s.lkUp q = false) :=
  ⟨⟨{ up with regs := [(R.LINK_STAT.key 255, 5)] }, 255, cellOf 3, by decide +kernel⟩,
   ⟨{ up with regs := [(R.LINK_STAT.key 255, 5), (regKey 0 0x53 0 hPerturb, 5)] }, 255, cellOf 3, by decide +kernel⟩,
   ⟨{ up with regs := [(R.LINK_STAT.key 255, 5)] }, 255, cellOf 3, by decide +kernel⟩,
   ⟨{ up with regs := [(R.LINK_STAT.key 255, 5)] }, 255, word (at_ 60 3 + 1) :: List.replicate 31 0, by decide +kernel⟩,
   ⟨{ up with regs := [(R.LINK_STAT.key 255, 5)] }, 255,
       sealCell (word (at_ 60 3 + at_ 56 1) :: List.replicate 31 0) false, by decide +kernel⟩,
   ⟨{ up with regs := [(R.LINK_STAT.key 255, 5)], mesh := { inbox := List.replicate 256 (255, []) } }, 255, cellOf 3,
       by decide +kernel⟩,
   ⟨{ up with regs := [(R.LINK_STAT.key 255, 5)], links := { link := [(255, { rxSeq := 1 })] } }, 255, cellOf 3,
       by decide +kernel⟩,
   ⟨up, 255, cellOf 3, by decide +kernel⟩,
   ⟨{ up with regs := [(R.PEER_PORT.key 255, 0x100), (R.LINK_STAT.key 255, 5), (regKey 0 0x5D 0 hCtrl, 1), (R.MESH_CFG.key 0, 0x200000000)] },
       255, cellOf 3, by decide +kernel⟩,
   ⟨{ up with regs := [(R.LINK_STAT.key 255, 5)] }, 255, word (at_ 60 4 + 1) :: List.replicate 31 0, by decide +kernel⟩,
   ⟨{ up with regs := [(R.LINK_STAT.key 255, 5)] }, 255, cellOf 4, by decide +kernel⟩,
   ⟨up, 255, cellOf 4, by decide +kernel⟩⟩

/-- States and operands that meet the hypotheses of further clauses of `Obligations.CellsArriveAndAreReleased`. -/
theorem witness_CellsArriveAndAreReleased_4 :
  (∃ (s : State) (q : Fin 256), s.lkUp q = true)
  ∧ (∃ (s : State) (q : Fin 256), s.lkUp q = true)
  ∧ (∃ (s : State) (q : Fin 256) (ws : List Word), s.lkUp q = true)
  ∧ (∃ (s : State) (q : Fin 256) (x : MalformedCell), s.lkUp q = false)
  ∧ (∃ (s : State) (q : Fin 256) (c : RxCell) (y : State), (s.lk q).nextRelease = some c.release ∧ y = s.toSclk c.release
      ∧ c.release ≤ y.nowSclk ∧ (y.lk q).rx = [c] ∧ c.avail ≤ c.release ∧ cellType c.words = 5
      ∧ y.wasConsumed c.words = false)
  ∧ (∃ (s : State) (q : Fin 256) (c : RxCell) (y : State), (s.lk q).nextRelease = some c.release ∧ y = s.toSclk c.release
      ∧ c.release ≤ y.nowSclk ∧ (y.lk q).rx = [c] ∧ c.avail ≤ c.release ∧ cellType c.words = 1
      ∧ y.wasConsumed c.words = false)
  ∧ (∃ (s : State) (q : Fin 256) (c : RxCell) (y : State), (s.lk q).nextRelease = some c.release ∧ y = s.toSclk c.release
      ∧ c.release ≤ y.nowSclk ∧ (y.lk q).rx = [c] ∧ c.avail ≤ c.release ∧ y.wasConsumed c.words = true)
  ∧ (∃ (s : State) (q : Fin 256) (c : RxCell) (y : State), (s.lk q).nextRelease = some c.release ∧ y = s.toSclk c.release
      ∧ c.release ≤ y.nowSclk ∧ (y.lk q).rx = [c] ∧ c.release < c.avail
      ∧ (cellType c.words = 5 ∨ (pget y.links.due (fld (cellWord c.words 0) 55 44)).all (fun d => decide (d.2 ≤ (cellWord c.words 1).toNat)) = true))
  ∧ (∃ (s : State) (q : Fin 256), (s.lk q).rx = [])
  ∧ (∃ (s : State) (q : Fin 256) (n : Nat), (s.lk q).nextRelease = some n ∧ s.nowSclk < n ∧ n / tideSclk ≠ s.time.tide) :=
  ⟨⟨{ up with regs := [(R.LINK_STAT.key 255, 5)] }, 255, by decide +kernel⟩,
   ⟨{ up with regs := [(R.LINK_STAT.key 255, 5)] }, 255, by decide +kernel⟩,
   ⟨{ up with regs := [(R.LINK_STAT.key 255, 5)] }, 255, [word (at_ 60 3)], by decide +kernel⟩,
   ⟨up, 255, .badCrc, by decide +kernel⟩,
   ⟨{ up with time := { pos := 510 }, links := { link := [(255, { rx := [{ words := cellOf 5, avail := 64, release := 512 }] })] } },
       255, { words := cellOf 5, avail := 64, release := 512 },
       ({ up with time := { pos := 510 }, links := { link := [(255, { rx := [{ words := cellOf 5, avail := 64, release := 512 }] })] } } : State).toSclk 512,
       by decide +kernel⟩,
   ⟨{ up with sched := { run := some 0, image0 := linkImage }, time := { pos := 512 }, links := { link := [(255, { rx := [{ words := cellOf 1, avail := 64, release := 512 }] })] } },
       255, { words := cellOf 1, avail := 64, release := 512 },
       ({ up with sched := { run := some 0, image0 := linkImage }, time := { pos := 512 }, links := { link := [(255, { rx := [{ words := cellOf 1, avail := 64, release := 512 }] })] } } : State).toSclk 512,
       by decide +kernel⟩,
   ⟨{ up with time := { pos := 512 }, links := { consumed := [(cellIdent (cellOf 5), 0)], link := [(255, { rx := [{ words := cellOf 5, avail := 64, release := 512 }] })] } },
       255, { words := cellOf 5, avail := 64, release := 512 },
       ({ up with time := { pos := 512 }, links := { consumed := [(cellIdent (cellOf 5), 0)], link := [(255, { rx := [{ words := cellOf 5, avail := 64, release := 512 }] })] } } : State).toSclk 512,
       by decide +kernel⟩,
   ⟨{ up with time := { pos := 512 }, links := { link := [(255, { rx := [{ words := cellOf 5, avail := 513, release := 512 }] })] } },
       255, { words := cellOf 5, avail := 513, release := 512 },
       ({ up with time := { pos := 512 }, links := { link := [(255, { rx := [{ words := cellOf 5, avail := 513, release := 512 }] })] } } : State).toSclk 512,
       by decide +kernel⟩,
   ⟨up, 255, by decide +kernel⟩,
   ⟨{ up with links := { link := [(255, { rx := [{ words := cellOf 5, avail := 64, release := 1048577 }] })] } }, 255,
       1048577, by decide +kernel⟩⟩

/-- States and operands that meet the hypotheses of the first clauses of `Obligations.CellsAreSentAndResent`. -/
theorem witness_CellsAreSentAndResent :
  (∃ (s : State) (q : Fin 256) (n : Fin 4096) (rx : List LaneBlock) (y : State) (x : Word) (ws : List Word),
      y = (s.atSlot n).blocksRx q rx ∧ y.lkUp q = true ∧ y.classAt 3 q n = some .open_ ∧ (y.lk q).txq = [x :: ws]
      ∧ (y.lk q).resend = none ∧ (y.lk q).maySend (x :: ws) = true)
  ∧ (∃ (s : State) (q : Fin 256) (n : Fin 4096) (rx : List LaneBlock) (y : State) (c : List Word), y = (s.atSlot n).blocksRx q rx
      ∧ y.lkUp q = true ∧ y.classAt 3 q n = some .open_ ∧ y.sched.stress = false ∧ (y.lk q).replay = [c]
      ∧ (y.lk q).resend = some 0 ∧ (y.lk q).txq = [])
  ∧ (∃ (s : State) (q : Fin 256) (n : Fin 4096) (rx : List LaneBlock) (y : State), y = (s.atSlot n).blocksRx q rx
      ∧ y.lkUp q = true ∧ y.classAt 3 q n ≠ some .unit
      ∧ (y.classAt 3 q n ≠ some .open_ ∨ (y.sched.stress = false ∧ (y.lk q).resend = none ∧ (y.lk q).txq = [])))
  ∧ (∃ (s : State) (q : Fin 256) (n : Fin 4096) (rx : List LaneBlock) (y : State) (c : List Word), y = (s.atSlot n).blocksRx q rx
      ∧ y.lkUp q = true ∧ y.classAt 3 q n = some .unit ∧ 0 < slotCells (y.rdf R.QUAD_MODE q 9 8) (y.lkWidth q)
      ∧ (y.psNext q y.imgNow).map (·.2) = some c)
  ∧ (∃ (s : State) (q : Fin 256) (n : Fin 4096) (rx : List LaneBlock) (y : State), y = (s.atSlot n).blocksRx q rx
      ∧ y.lkUp q = false)
  ∧ (∃ (s : State) (q : Fin 256) (x : BitVec 12) (l : Link), l = ((s.lk q).acked x.toNat) ∧ s.lkUp q = true ∧ l.replay ≠ []
      ∧ l.resends < s.rdf R.LINK_CFG q 39 36)
  ∧ (∃ (s : State) (q : Fin 256) (x : BitVec 12) (l : Link), l = ((s.lk q).acked x.toNat) ∧ s.lkUp q = true ∧ l.replay = [])
  ∧ (∃ (s : State) (q : Fin 256) (x : BitVec 12) (l : Link), l = ((s.lk q).acked x.toNat) ∧ s.lkUp q = true ∧ l.replay ≠ []
      ∧ s.rdf R.LINK_CFG q 39 36 ≤ l.resends ∧ (s.lkNeg q = 0 ∨ s.lkNeg q = 6))
  ∧ (∃ (s : State) (q : Fin 256) (x : BitVec 12) (l : Link), l = ((s.lk q).acked x.toNat) ∧ s.lkUp q = true ∧ l.replay ≠ []
      ∧ s.rdf R.LINK_CFG q 39 36 ≤ l.resends ∧ s.lkNeg q ≠ 0 ∧ s.lkNeg q ≠ 6)
  ∧ (∃ (s : State) (q : Fin 256) (x : BitVec 12), s.lkUp q = false)
  ∧ (∃ (s : State) (q : Fin 256) (l : Link), l = (s.lk q) ∧ s.lkUp q = true ∧ l.replay ≠ []
      ∧ l.resends < s.rdf R.LINK_CFG q 39 36)
  ∧ (∃ (s : State) (q : Fin 256) (l : Link), l = (s.lk q) ∧ s.lkUp q = true ∧ l.replay = []) :=
  ⟨⟨{ up with time := { pos := 256 }, regs := [(R.LINK_STAT.key 7, 5)], links := { link := [(7, { txq := [word (at_ 60 2) :: List.replicate 31 0] })] } },
       7, 1, [],
       { up with time := { pos := 256 }, regs := [(R.LINK_STAT.key 7, 5)], links := { link := [(7, { txq := [word (at_ 60 2) :: List.replicate 31 0] })] } },
       word (at_ 60 2), List.replicate 31 0, by decide +kernel⟩,
   ⟨{ up with time := { pos := 256 }, regs := [(R.LINK_STAT.key 7, 5)], links := { link := [(7, { replay := [cellOf 2], resend := some 0 })] } },
       7, 1, [],
       { up with time := { pos := 256 }, regs := [(R.LINK_STAT.key 7, 5)], links := { link := [(7, { replay := [cellOf 2], resend := some 0 })] } },
       cellOf 2, by decide +kernel⟩,
   ⟨{ up with time := { pos := 256 }, regs := [(R.LINK_STAT.key 7, 5)] }, 7, 1, [],
       { up with time := { pos := 256 }, regs := [(R.LINK_STAT.key 7, 5)] }, by decide +kernel⟩,
   ⟨txAt, 7, 2, [], txAt, (cellOf 5).set 1 512, by decide +kernel⟩,
   ⟨{ up with time := { pos := 256 }, regs := [(R.LINK_STAT.key 7, 2)] }, 7, 1, [],
       { up with time := { pos := 256 }, regs := [(R.LINK_STAT.key 7, 2)] }, by decide +kernel⟩,
   ⟨{ up with regs := [(R.LINK_STAT.key 7, 5)], links := { link := [(7, { replay := [cellOf 2] })] } }, 7, 9,
       { replay := [cellOf 2] }, by decide +kernel⟩,
   ⟨{ up with regs := [(R.LINK_STAT.key 7, 5)] }, 7, 9, { }, by decide +kernel⟩,
   ⟨{ up with regs := [(R.LINK_STAT.key 7, 5)], links := { link := [(7, { replay := [cellOf 2], resends := 15 })] } }, 7,
       9, { replay := [cellOf 2], resends := 15 }, by decide +kernel⟩,
   ⟨{ up with regs := [(R.LINK_STAT.key 7, 0x1000005)], links := { link := [(7, { replay := [cellOf 2], resends := 15 })] } },
       7, 9, { replay := [cellOf 2], resends := 15 }, by decide +kernel⟩,
   ⟨up, 7, 9, by decide +kernel⟩,
   ⟨{ up with regs := [(R.LINK_STAT.key 7, 5)], links := { link := [(7, { replay := [cellOf 2] })] } }, 7,
       { replay := [cellOf 2] }, by decide +kernel⟩,
   ⟨{ up with regs := [(R.LINK_STAT.key 7, 5)] }, 7, { }, by decide +kernel⟩⟩

/-- States and operands that meet the hypotheses of further clauses of `Obligations.CellsAreSentAndResent`. -/
theorem witness_CellsAreSentAndResent_2 :
  (∃ (s : State) (q : Fin 256) (l : Link), l = (s.lk q) ∧ s.lkUp q = true ∧ l.replay ≠ []
      ∧ s.rdf R.LINK_CFG q 39 36 ≤ l.resends ∧ (s.lkNeg q = 0 ∨ s.lkNeg q = 6))
  ∧ (∃ (s : State) (q : Fin 256) (l : Link), l = (s.lk q) ∧ s.lkUp q = true ∧ l.replay ≠ []
      ∧ s.rdf R.LINK_CFG q 39 36 ≤ l.resends ∧ s.lkNeg q ≠ 0 ∧ s.lkNeg q ≠ 6)
  ∧ (∃ (s : State) (q : Fin 256), s.lkUp q = false) :=
  ⟨⟨{ up with regs := [(R.LINK_STAT.key 7, 5)], links := { link := [(7, { replay := [cellOf 2], resends := 15 })] } }, 7,
       { replay := [cellOf 2], resends := 15 }, by decide +kernel⟩,
   ⟨{ up with regs := [(R.LINK_STAT.key 7, 0x1000005)], links := { link := [(7, { replay := [cellOf 2], resends := 15 })] } },
       7, { replay := [cellOf 2], resends := 15 }, by decide +kernel⟩,
   ⟨up, 7, by decide +kernel⟩⟩

/-- States and operands that meet the hypotheses of the first clauses of `Obligations.LinkTraining`. -/
theorem witness_LinkTraining :
  (∃ (s : State) (q : Fin 256), s.lkState q = lkDetect ∧ s.rdf R.LINK_CFG q 1 0 ≤ 2)
  ∧ (∃ (s : State) (q : Fin 256), s.lkState q ≠ lkDetect)
  ∧ (∃ (s : State) (q : Fin 256), s.lkState q = lkLock ∧ s.rdf R.LINK_CFG q 1 0 ≤ 2)
  ∧ (∃ (s : State) (q : Fin 256), s.lkState q ≠ lkLock)
  ∧ (∃ (s : State) (q : Fin 256) (x : BitVec 4), s.lkState q = lkLock ∧ x.getLsbD 0 = true ∧ s.rdf R.LINK_CFG q 1 0 ≤ 2)
  ∧ (∃ (s : State) (q : Fin 256) (x : BitVec 4), s.lkState q = lkWake ∧ x.getLsbD 0 = true)
  ∧ (∃ (s : State) (q : Fin 256) (x : BitVec 4), (s.lkState q = lkLock ∨ s.lkState q = lkWake) ∧ x.getLsbD 0 = false
      ∧ s.rdf R.LINK_CFG q 1 0 ≤ 2)
  ∧ (∃ (s : State) (q : Fin 256) (x : BitVec 4), (s.lkState q = lkLock ∨ s.lkState q = lkWake) ∧ x.getLsbD 0 = false
      ∧ s.rdf R.LINK_CFG q 1 0 ≤ 2)
  ∧ (∃ (s : State) (q : Fin 256) (x : BitVec 4), s.lkState q ≠ lkLock ∧ s.lkState q ≠ lkWake)
  ∧ (∃ (s : State) (q : Fin 256) (r : DeskewResult), (s.lkState q = lkDeskew ∨ s.lkState q = lkWake) ∧ s.rdf R.LINK_CFG q 1 0 ≤ 2
      ∧ (s.lk q).own ≤ 2)
  ∧ (∃ (s : State) (q : Fin 256) (r : DeskewResult), (s.lkState q = lkDeskew ∨ s.lkState q = lkWake) ∧ s.rdf R.LINK_CFG q 1 0 ≤ 2
      ∧ (s.lk q).own ≤ 2)
  ∧ (∃ (s : State) (q : Fin 256) (r : DeskewResult), (s.lkState q = lkDeskew ∨ s.lkState q = lkWake) ∧ s.rdf R.LINK_CFG q 1 0 ≤ 2
      ∧ (s.lk q).own ≤ 2) :=
  ⟨⟨{ up with regs := [(R.LINK_STAT.key 255, 1)] }, 255, by decide +kernel⟩,
   ⟨{ up with regs := [(R.LINK_STAT.key 255, 5)] }, 255, by decide +kernel⟩,
   ⟨{ up with regs := [(R.LINK_STAT.key 255, 2), (R.LINK_CFG.key 255, 0)] }, 255, by decide +kernel⟩,
   ⟨{ up with regs := [(R.LINK_STAT.key 255, 5)] }, 255, by decide +kernel⟩,
   ⟨{ up with regs := [(R.LINK_STAT.key 255, 2)] }, 255, 0x5, by decide +kernel⟩,
   ⟨{ up with regs := [(R.LINK_STAT.key 255, 7)] }, 255, 0x5, by decide +kernel⟩,
   ⟨{ up with regs := [(R.LINK_STAT.key 255, 2)] }, 255, 0xE, by decide +kernel⟩,
   ⟨{ up with regs := [(R.LINK_STAT.key 255, 7)] }, 255, 0xE, by decide +kernel⟩,
   ⟨{ up with regs := [(R.LINK_STAT.key 255, 5)] }, 255, 0xE, by decide +kernel⟩,
   ⟨{ up with regs := [(R.LINK_STAT.key 255, 3)] }, 255, .aligned, by decide +kernel⟩,
   ⟨{ up with regs := [(R.LINK_STAT.key 255, 3)] }, 255, .crossed, by decide +kernel⟩,
   ⟨{ up with regs := [(R.LINK_STAT.key 255, 7)] }, 255, .skew, by decide +kernel⟩⟩

/-- States and operands that meet the hypotheses of further clauses of `Obligations.LinkTraining`. -/
theorem witness_LinkTraining_2 :
  (∃ (s : State) (q : Fin 256) (r : DeskewResult), s.lkState q ≠ lkDeskew ∧ s.lkState q ≠ lkWake)
  ∧ (∃ (s : State) (q : Fin 256) (y : Word) (pq : BitVec 8) (ss : BitVec 15) (wd : BitVec 2) (us : BitVec 32),
      s.lkState q = lkParam ∧ ¬ (y = s.nv.otp.serial ∧ pq.toNat = q.val)
      ∧ (s.lk q).peer = some { serial := y, quad := pq.toNat, session := ss.toNat } ∧ (s.lk q).later = none
      ∧ (quadLanes q (lanesOf (min (s.lk q).own (min wd.toNat 2)))).any s.prbsOn = false)
  ∧ (∃ (s : State) (q : Fin 256) (y : Word) (pq : BitVec 8) (ss : BitVec 15) (wd : BitVec 2) (us : BitVec 32),
      s.lkState q = lkParam ∧ ¬ (y = s.nv.otp.serial ∧ pq.toNat = q.val)
      ∧ (s.lk q).peer ≠ some { serial := y, quad := pq.toNat, session := ss.toNat } ∧ (s.lk q).replay = []
      ∧ (s.lk q).later = none ∧ (quadLanes q (lanesOf (min (s.lk q).own (min wd.toNat 2)))).any s.prbsOn = false)
  ∧ (∃ (s : State) (q : Fin 256) (y : Word) (pq : BitVec 8) (ss : BitVec 15) (wd : BitVec 2) (us : BitVec 32),
      (s.lkState q = lkParam ∨ s.lkState q = lkWake) ∧ y = s.nv.otp.serial ∧ pq.toNat = q.val)
  ∧ (∃ (s : State) (q : Fin 256) (y : Word) (pq : BitVec 8) (ss : BitVec 15) (wd : BitVec 2) (us : BitVec 32),
      s.lkState q = lkWake ∧ ¬ (y = s.nv.otp.serial ∧ pq.toNat = q.val)
      ∧ (s.lk q).peer = some { serial := y, quad := pq.toNat, session := ss.toNat } ∧ (s.lk q).later = none
      ∧ (quadLanes q (lanesOf (min (s.lk q).own (min wd.toNat 2)))).any s.prbsOn = false)
  ∧ (∃ (s : State) (q : Fin 256) (y : Word) (pq : BitVec 8) (ss : BitVec 15) (wd : BitVec 2) (us : BitVec 32),
      s.lkState q ≠ lkParam ∧ s.lkState q ≠ lkWake)
  ∧ (∃ (s : State) (q : Fin 256), (s.lkState q = lkParam ∨ s.lkState q = lkWake) ∧ s.rdf R.LINK_CFG q 1 0 ≤ 2)
  ∧ (∃ (s : State) (q : Fin 256), (s.lkState q = lkParam ∨ s.lkState q = lkWake) ∧ s.rdf R.LINK_CFG q 1 0 ≤ 2)
  ∧ (∃ (s : State) (q : Fin 256), s.lkState q ≠ lkParam ∧ s.lkState q ≠ lkWake)
  ∧ (∃ (s : State) (q : Fin 256), s.lkUp q = true ∧ s.rdf R.LINK_CFG q 1 0 ≤ 2)
  ∧ (∃ (s : State) (q : Fin 256), s.lkUp q = false)
  ∧ (∃ (s : State) (i : Fin 1024), s.rdb R.LANE_STAT i 1 = true ∧ s.lkUp (i.val / 4) = true
      ∧ i.val % 4 < lanesOf (s.lkWidth (i.val / 4)) ∧ s.rdf R.LINK_CFG (i.val / 4) 1 0 ≤ 2) :=
  ⟨⟨{ up with regs := [(R.LINK_STAT.key 255, 5)] }, 255, .skew, by decide +kernel⟩,
   ⟨{ up with regs := [(R.LINK_STAT.key 255, 4)], links := { link := [(255, { own := 1, peer := some { serial := 9, quad := 3, session := 1 } })] } },
       255, 9, 3, 1, 3, 77, by decide +kernel⟩,
   ⟨{ up with regs := [(R.LINK_STAT.key 255, 4)], links := { link := [(255, { own := 1, peer := some { serial := 8, quad := 3, session := 1 } })] } },
       255, 9, 3, 1, 3, 77, by decide +kernel⟩,
   ⟨{ up with regs := [(R.LINK_STAT.key 255, 4)] }, 255, 0, 255, 1, 2, 77, by decide +kernel⟩,
   ⟨{ up with regs := [(R.LINK_STAT.key 255, 7)], links := { link := [(255, { own := 1, peer := some { serial := 9, quad := 3, session := 1 } })] } },
       255, 9, 3, 1, 3, 77, by decide +kernel⟩,
   ⟨{ up with regs := [(R.LINK_STAT.key 255, 5)] }, 255, 9, 3, 1, 3, 77, by decide +kernel⟩,
   ⟨{ up with regs := [(R.LINK_STAT.key 255, 4)] }, 255, by decide +kernel⟩,
   ⟨{ up with regs := [(R.LINK_STAT.key 255, 7)] }, 255, by decide +kernel⟩,
   ⟨{ up with regs := [(R.LINK_STAT.key 255, 5)] }, 255, by decide +kernel⟩,
   ⟨{ up with regs := [(R.LINK_STAT.key 255, 5)] }, 255, by decide +kernel⟩,
   ⟨{ up with regs := [(R.LINK_STAT.key 255, 2)] }, 255, by decide +kernel⟩,
   ⟨{ up with regs := [(R.LANE_STAT.key 1021, 2), (R.LINK_STAT.key 255, 0x10005)] }, 1021, by decide +kernel⟩⟩

/-- States and operands that meet the hypotheses of further clauses of `Obligations.LinkTraining`. -/
theorem witness_LinkTraining_3 :
  (∃ (s : State) (i : Fin 1024), s.rdb R.LANE_STAT i 1 = true
      ∧ (s.lkUp (i.val / 4) = false ∨ lanesOf (s.lkWidth (i.val / 4)) ≤ i.val % 4))
  ∧ (∃ (s : State) (i : Fin 1024), s.rdb R.LANE_STAT i 1 = false)
  ∧ (∃ (s : State) (q : Fin 256) (i : Fin 4), s.lkUp q = true
      ∧ ((s.lk q).skews.filter fun z => s.time.total < z + 1500000).length < 7)
  ∧ (∃ (s : State) (q : Fin 256) (i : Fin 4), s.lkUp q = true
      ∧ 7 ≤ ((s.lk q).skews.filter fun z => s.time.total < z + 1500000).length ∧ (s.lkNeg q = 0 ∨ s.lkNeg q = 6))
  ∧ (∃ (s : State) (q : Fin 256) (i : Fin 4), s.lkUp q = true
      ∧ 7 ≤ ((s.lk q).skews.filter fun z => s.time.total < z + 1500000).length ∧ s.lkNeg q ≠ 0 ∧ s.lkNeg q ≠ 6)
  ∧ (∃ (s : State) (q : Fin 256) (i : Fin 4), s.lkUp q = true ∧ s.lkNeg q = 0 ∧ (s.lk q).skews = [])
  ∧ (∃ (s : State) (q : Fin 256) (x : List (Fin 4)), s.lkUp q = false) :=
  ⟨⟨{ up with regs := [(R.LANE_STAT.key 1023, 2), (R.LINK_STAT.key 255, 0x10005)] }, 1023, by decide +kernel⟩,
   ⟨up, 1023, by decide +kernel⟩,
   ⟨{ up with regs := [(R.LINK_STAT.key 255, 5)] }, 255, 2, by decide +kernel⟩,
   ⟨{ up with regs := [(R.LINK_STAT.key 255, 5)], links := { link := [(255, { skews := List.replicate 7 0 })] } }, 255,
       2, by decide +kernel⟩,
   ⟨{ up with regs := [(R.LINK_STAT.key 255, 0x1000005)], links := { link := [(255, { skews := List.replicate 7 0 })] } },
       255, 2, by decide +kernel⟩,
   ⟨{ up with regs := [(R.LINK_STAT.key 255, 5)] }, 255, 2, by decide +kernel⟩,
   ⟨{ up with regs := [(R.LINK_STAT.key 255, 2)] }, 255, [2], by decide +kernel⟩⟩

/-- States and operands that meet the hypotheses of the first clauses of `Obligations.LinkNegotiations`. -/
theorem witness_LinkNegotiations :
  (∃ (s : State) (q : Fin 256) (x : BitVec 2) (k : BitVec 8), s.lkUp q = true ∧ (s.lkNeg q = 0 ∨ s.lkNeg q = 6)
      ∧ s.lkSched q = false ∧ s.rdb R.LINK_CFG q 4 = true ∧ s.lkWidth q < x.toNat)
  ∧ (∃ (s : State) (q : Fin 256) (x : BitVec 2) (k : BitVec 8), s.lkUp q = true ∧ (s.lkNeg q = 0 ∨ s.lkNeg q = 6)
      ∧ s.lkSched q = false ∧ s.rdb R.LINK_CFG q 4 = true ∧ x.toNat ≤ s.lkWidth q ∧ s.utilLow q = true)
  ∧ (∃ (s : State) (q : Fin 256) (x : BitVec 2) (k : BitVec 8), s.lkUp q = true ∧ (s.lkNeg q = 0 ∨ s.lkNeg q = 6)
      ∧ (s.lkSched q = true ∨ s.rdb R.LINK_CFG q 4 = false ∨ (x.toNat ≤ s.lkWidth q ∧ s.utilLow q = false))
      ∧ (s.lk q).later = none)
  ∧ (∃ (s : State) (q : Fin 256) (x : BitVec 2) (k : BitVec 8), s.lkUp q = true ∧ s.lkNeg q = 1 ∧ s.leads q = false
      ∧ s.lkSched q = false ∧ s.rdb R.LINK_CFG q 4 = true ∧ s.lkWidth q < x.toNat)
  ∧ (∃ (s : State) (q : Fin 256) (x : BitVec 2) (k : BitVec 8),
      (s.lkUp q = false ∨ (s.lkNeg q = 1 ∧ s.leads q = true) ∨ (s.lkNeg q ≠ 0 ∧ s.lkNeg q ≠ 1 ∧ s.lkNeg q ≠ 6)))
  ∧ (∃ (s : State) (q : Fin 256) (k : BitVec 8),
      (s.lkUp q = false ∨ (s.lkNeg q = 1 ∧ s.leads q = true) ∨ (s.lkNeg q ≠ 0 ∧ s.lkNeg q ≠ 1 ∧ s.lkNeg q ≠ 6)))
  ∧ (∃ (s : State) (q : Fin 256) (k : BitVec 8),
      (s.lkUp q = false ∨ (s.lkNeg q = 1 ∧ s.leads q = true) ∨ (s.lkNeg q ≠ 0 ∧ s.lkNeg q ≠ 1 ∧ s.lkNeg q ≠ 6)))
  ∧ (∃ (s : State) (q : Fin 256) (k : BitVec 8), s.lkUp q = true ∧ (s.lkNeg q = 0 ∨ s.lkNeg q = 6) ∧ s.lkSched q = false
      ∧ (s.lk q).replay = [] ∧ (s.lk q).txq = [] ∧ s.rdb R.LINK_CFG q 5 = true)
  ∧ (∃ (s : State) (q : Fin 256) (k : BitVec 8), s.lkUp q = true ∧ (s.lkNeg q = 0 ∨ s.lkNeg q = 6)
      ∧ (s.lkSched q = true ∨ (s.lk q).replay ≠ [] ∨ (s.lk q).txq ≠ [] ∨ s.rdb R.LINK_CFG q 5 = false)
      ∧ (s.lk q).later = none)
  ∧ (∃ (s : State) (q : Fin 256) (k : BitVec 8), s.lkUp q = true ∧ s.lkNeg q = 1 ∧ s.leads q = false ∧ s.lkSched q = false
      ∧ (s.lk q).replay = [] ∧ (s.lk q).txq = [] ∧ s.rdb R.LINK_CFG q 5 = true)
  ∧ (∃ (s : State) (q : Fin 256) (k : BitVec 8), s.lkUp q = true
      ∧ (s.lkNeg q = 0 ∨ s.lkNeg q = 6 ∨ (s.lkNeg q = 1 ∧ s.leads q = false)) ∧ s.rdf R.LINK_CFG q 1 0 ≤ 2)
  ∧ (∃ (s : State) (q : Fin 256) (k : BitVec 8), s.lkUp q = true ∧ s.lkNeg q = 1 ∧ (s.lk q).token = k.toNat
      ∧ ((s.lk q).kind = .sleep ∨ ((s.lk q).kind = .width ∧ ((s.lk q).target ≤ s.lkWidth q ∨ (s.lk q).lanesReady = true)))
      ∧ (s.lk q).peerCommit = false) :=
  ⟨⟨{ up with regs := [(R.LINK_STAT.key 255, 0x10005), (R.LINK_CFG.key 255, 0x112)] }, 255, 2, 9, by decide +kernel⟩,
   ⟨{ up with regs := [(R.LINK_STAT.key 255, 0x10005), (R.LINK_CFG.key 255, 0x112)] }, 255, 0, 9, by decide +kernel⟩,
   ⟨{ up with regs := [(R.LINK_STAT.key 255, 0x10005)] }, 255, 2, 9, by decide +kernel⟩,
   ⟨{ up with regs := [(R.LINK_STAT.key 255, 0x1010005), (R.LINK_CFG.key 255, 0x112)], links := { link := [(255, { peer := some { serial := 0, quad := 3, session := 1 } })] } },
       255, 2, 9, by decide +kernel⟩,
   ⟨{ up with regs := [(R.LINK_STAT.key 255, 0x1010005)] }, 255, 2, 9, by decide +kernel⟩,
   ⟨{ up with regs := [(R.LINK_STAT.key 255, 0x1010005)] }, 255, 9, by decide +kernel⟩,
   ⟨{ up with regs := [(R.LINK_STAT.key 255, 0x1010005)] }, 255, 9, by decide +kernel⟩,
   ⟨{ up with regs := [(R.LINK_STAT.key 255, 0x10005), (R.LINK_CFG.key 255, 0x122)] }, 255, 9, by decide +kernel⟩,
   ⟨{ up with regs := [(R.LINK_STAT.key 255, 0x10005)] }, 255, 9, by decide +kernel⟩,
   ⟨{ up with regs := [(R.LINK_STAT.key 255, 0x1010005), (R.LINK_CFG.key 255, 0x122)], links := { link := [(255, { peer := some { serial := 0, quad := 3, session := 1 } })] } },
       255, 9, by decide +kernel⟩,
   ⟨{ up with regs := [(R.LINK_STAT.key 255, 0x10005)] }, 255, 9, by decide +kernel⟩,
   ⟨{ up with regs := [(R.LINK_STAT.key 255, 0x1000005)], links := { link := [(255, { kind := .sleep, mine := true, token := 9 })] } },
       255, 9, by decide +kernel⟩⟩

/-- States and operands that meet the hypotheses of further clauses of `Obligations.LinkNegotiations`. -/
theorem witness_LinkNegotiations_2 :
  (∃ (s : State) (q : Fin 256) (k : BitVec 8), s.lkUp q = true ∧ s.lkNeg q = 1 ∧ (s.lk q).token = k.toNat
      ∧ (s.lk q).kind = .width ∧ s.lkWidth q < (s.lk q).target ∧ (s.lk q).lanesReady = false)
  ∧ (∃ (s : State) (q : Fin 256) (k : BitVec 8), s.lkUp q = true ∧ s.lkNeg q = 1 ∧ (s.lk q).token = k.toNat
      ∧ (s.lk q).kind = .retrain ∧ s.rdf R.LINK_CFG q 1 0 ≤ 2)
  ∧ (∃ (s : State) (q : Fin 256) (k : BitVec 8), (s.lkUp q = false ∨ s.lkNeg q ≠ 1 ∨ (s.lk q).token ≠ k.toNat))
  ∧ (∃ (s : State) (q : Fin 256) (k : BitVec 8), s.lkUp q = true ∧ s.lkNeg q = 1 ∧ (s.lk q).token = k.toNat
      ∧ (s.lk q).later = none)
  ∧ (∃ (s : State) (q : Fin 256) (k : BitVec 8), (s.lkUp q = false ∨ s.lkNeg q ≠ 1 ∨ (s.lk q).token ≠ k.toNat))
  ∧ (∃ (s : State) (q : Fin 256), s.lkUp q = true ∧ s.lkNeg q = 4 ∧ (s.lk q).kind = .width ∧ (s.lk q).target ≤ 2
      ∧ (s.lk q).later = none)
  ∧ (∃ (s : State) (q : Fin 256), s.lkUp q = true ∧ s.lkNeg q = 4 ∧ (s.lk q).kind = .sleep)
  ∧ (∃ (s : State) (q : Fin 256), s.lkUp q = true ∧ s.lkNeg q = 3)
  ∧ (∃ (s : State) (q : Fin 256), (s.lkUp q = false ∨ (s.lkNeg q ≠ 3 ∧ s.lkNeg q ≠ 4)))
  ∧ (∃ (s : State) (q : Fin 256), s.lkUp q = true ∧ s.lkNeg q ≠ 0 ∧ (s.lk q).later = none)
  ∧ (∃ (s : State) (q : Fin 256) (n : Nat), s.lkUp q = true ∧ s.lkNeg q ≠ 0 ∧ (s.lk q).later = some (.retrain, 0, n))
  ∧ (∃ (s : State) (q : Fin 256), (s.lkUp q = false ∨ s.lkNeg q = 0)) :=
  ⟨⟨{ up with regs := [(R.LINK_STAT.key 255, 0x1000005)], links := { link := [(255, { kind := .width, mine := true, token := 9, target := 2 })] } },
       255, 9, by decide +kernel⟩,
   ⟨{ up with regs := [(R.LINK_STAT.key 255, 0x1000005)], links := { link := [(255, { kind := .retrain, mine := true, token := 9, cause := 8 })] } },
       255, 9, by decide +kernel⟩,
   ⟨{ up with regs := [(R.LINK_STAT.key 255, 0x3000005)] }, 255, 9, by decide +kernel⟩,
   ⟨{ up with regs := [(R.LINK_STAT.key 255, 0x41000005)], links := { link := [(255, { kind := .sleep, mine := true, token := 9 })] } },
       255, 9, by decide +kernel⟩,
   ⟨{ up with regs := [(R.LINK_STAT.key 255, 0x3000005)] }, 255, 9, by decide +kernel⟩,
   ⟨{ up with regs := [(R.LINK_STAT.key 255, 0x4010005)], links := { link := [(255, { kind := .width, target := 2, token := 9 })] } },
       255, by decide +kernel⟩,
   ⟨{ up with regs := [(R.LINK_STAT.key 255, 0x4010005)], links := { link := [(255, { kind := .sleep, token := 9 })] } },
       255, by decide +kernel⟩,
   ⟨{ up with regs := [(R.LINK_STAT.key 255, 0x3010005)] }, 255, by decide +kernel⟩,
   ⟨{ up with regs := [(R.LINK_STAT.key 255, 0x1010005)] }, 255, by decide +kernel⟩,
   ⟨{ up with regs := [(R.LINK_STAT.key 255, 0x3000005)] }, 255, by decide +kernel⟩,
   ⟨{ up with regs := [(R.LINK_STAT.key 255, 0x3000005)], links := { link := [(255, { later := some (.retrain, 0, 8) })] } },
       255, 8, by decide +kernel⟩,
   ⟨{ up with regs := [(R.LINK_STAT.key 255, 0x10005)] }, 255, by decide +kernel⟩⟩

/-- States and operands that meet the hypotheses of further clauses of `Obligations.LinkNegotiations`. -/
theorem witness_LinkNegotiations_3 :
  (∃ (s : State) (q : Fin 256), s.lkUp q = true ∧ (s.lkNeg q = 1 ∨ s.lkNeg q = 6) ∧ (s.lk q).later = none)
  ∧ (∃ (s : State) (q : Fin 256) (n : Nat), s.lkUp q = true ∧ (s.lkNeg q = 1 ∨ s.lkNeg q = 6)
      ∧ (s.lk q).later = some (.retrain, 0, n))
  ∧ (∃ (s : State) (q : Fin 256), (s.lkUp q = false ∨ (s.lkNeg q ≠ 1 ∧ s.lkNeg q ≠ 6)))
  ∧ (∃ (s : State) (q : Fin 256), s.lkUp q = true ∧ s.lkNeg q = 0 ∧ s.lkSched q = false ∧ s.rdb R.LINK_CFG q 4 = true
      ∧ 0 < s.lkWidth q)
  ∧ (∃ (s : State) (q : Fin 256),
      (s.lkUp q = false ∨ s.lkNeg q ≠ 0 ∨ s.lkSched q = true ∨ s.rdb R.LINK_CFG q 4 = false ∨ s.lkWidth q = 0))
  ∧ (∃ (s : State) (q : Fin 256), s.lkUp q = true ∧ s.lkNeg q = 0 ∧ s.lkSched q = false ∧ s.rdb R.LINK_CFG q 4 = true
      ∧ s.lkWidth q < (s.lk q).agreed)
  ∧ (∃ (s : State) (q : Fin 256),
      (s.lkUp q = false ∨ s.lkNeg q ≠ 0 ∨ s.lkSched q = true ∨ s.rdb R.LINK_CFG q 4 = false ∨ (s.lk q).agreed ≤ s.lkWidth q))
  ∧ (∃ (s : State) (q : Fin 256), s.lkUp q = true ∧ s.lkNeg q = 0 ∧ s.lkSched q = false ∧ s.rdb R.LINK_CFG q 5 = true)
  ∧ (∃ (s : State) (q : Fin 256), (s.lkUp q = false ∨ s.lkNeg q ≠ 0 ∨ s.lkSched q = true ∨ s.rdb R.LINK_CFG q 5 = false))
  ∧ (∃ (s : State) (q : Fin 256), s.lkState q = lkSleep ∧ s.rdf R.LINK_CFG q 1 0 ≤ 2)
  ∧ (∃ (s : State) (q : Fin 256), s.lkUp q = true ∧ (s.lk q).kind = .sleep ∧ (s.lkNeg q = 3 ∨ s.lkNeg q = 4))
  ∧ (∃ (s : State) (q : Fin 256), s.lkUp q = true ∧ (s.lk q).kind = .sleep ∧ s.lkNeg q = 1 ∧ (s.lk q).later = none) :=
  ⟨⟨{ up with regs := [(R.LINK_STAT.key 255, 0x41000005)] }, 255, by decide +kernel⟩,
   ⟨{ up with regs := [(R.LINK_STAT.key 255, 0x41000005)], links := { link := [(255, { later := some (.retrain, 0, 8) })] } },
       255, 8, by decide +kernel⟩,
   ⟨{ up with regs := [(R.LINK_STAT.key 255, 0x3000005)] }, 255, by decide +kernel⟩,
   ⟨{ up with regs := [(R.LINK_STAT.key 255, 0x10005), (R.LINK_CFG.key 255, 0x110)] }, 255, by decide +kernel⟩,
   ⟨{ up with regs := [(R.LINK_STAT.key 255, 0x1010005)] }, 255, by decide +kernel⟩,
   ⟨{ up with regs := [(R.LINK_STAT.key 255, 0x10005), (R.LINK_CFG.key 255, 0x110)], links := { link := [(255, { agreed := 2 })] } },
       255, by decide +kernel⟩,
   ⟨{ up with regs := [(R.LINK_STAT.key 255, 0x1010005)] }, 255, by decide +kernel⟩,
   ⟨{ up with regs := [(R.LINK_STAT.key 255, 0x10005), (R.LINK_CFG.key 255, 0x120)] }, 255, by decide +kernel⟩,
   ⟨{ up with regs := [(R.LINK_STAT.key 255, 0x1010005)] }, 255, by decide +kernel⟩,
   ⟨{ up with regs := [(R.LINK_STAT.key 255, 6)] }, 255, by decide +kernel⟩,
   ⟨{ up with regs := [(R.LINK_STAT.key 255, 0x4010005)], links := { link := [(255, { kind := .sleep })] } }, 255,
       by decide +kernel⟩,
   ⟨{ up with regs := [(R.LINK_STAT.key 255, 0x1010005)], links := { link := [(255, { kind := .sleep })] } }, 255,
       by decide +kernel⟩⟩

/-- States and operands that meet the hypotheses of further clauses of `Obligations.LinkNegotiations`. -/
theorem witness_LinkNegotiations_4 :
  (∃ (s : State) (q : Fin 256), s.lkState q ≠ lkSleep ∧ (s.lkUp q = false ∨ (s.lk q).kind ≠ .sleep ∨ s.lkNeg q = 0))
  ∧ (∃ (s : State) (q : Fin 256), s.lkState q = lkSleep ∧ s.rdf R.LINK_CFG q 1 0 ≤ 2)
  ∧ (∃ (s : State) (q : Fin 256), s.lkState q ≠ lkSleep)
  ∧ (∃ (s : State) (q : Fin 256), s.lkUp q = true ∧ s.lkNeg q = 6 ∧ s.rdf R.LINK_CFG q 1 0 ≤ 2)
  ∧ (∃ (s : State) (q : Fin 256), (s.lkUp q = false ∨ s.lkNeg q ≠ 6))
  ∧ (∃ (s : State) (q : Fin 256) (us : BitVec 32), s.lkState q = lkWake
      ∧ (if s.lkSched q then (s.lk q).agreed else s.lkWidth q) ≤ 2 ∧ (s.lk q).later = none
      ∧ (quadLanes q (lanesOf (if s.lkSched q then (s.lk q).agreed else s.lkWidth q))).any s.prbsOn = false)
  ∧ (∃ (s : State) (q : Fin 256) (us : BitVec 32), s.lkState q ≠ lkWake)
  ∧ (∃ (s : State) (q : Fin 256), s.lkUp q = true ∧ s.lkNeg q = 3 ∧ (s.lk q).kind = .width ∧ (s.lk q).peerCommit = false)
  ∧ (∃ (s : State) (q : Fin 256), s.lkUp q = true ∧ s.lkNeg q = 3 ∧ (s.lk q).kind = .width ∧ (s.lk q).peerCommit = true
      ∧ (s.lk q).target ≤ 2 ∧ (s.lk q).later = none)
  ∧ (∃ (s : State) (q : Fin 256), (s.lkUp q = false ∨ s.lkNeg q ≠ 3 ∨ (s.lk q).kind ≠ .width)) :=
  ⟨⟨{ up with regs := [(R.LINK_STAT.key 255, 5)] }, 255, by decide +kernel⟩,
   ⟨{ up with regs := [(R.LINK_STAT.key 255, 6)] }, 255, by decide +kernel⟩,
   ⟨{ up with regs := [(R.LINK_STAT.key 255, 5)] }, 255, by decide +kernel⟩,
   ⟨{ up with regs := [(R.LINK_STAT.key 255, 0x6000005)] }, 255, by decide +kernel⟩,
   ⟨{ up with regs := [(R.LINK_STAT.key 255, 5)] }, 255, by decide +kernel⟩,
   ⟨{ up with regs := [(R.LINK_STAT.key 255, 0x10007)] }, 255, 20, by decide +kernel⟩,
   ⟨{ up with regs := [(R.LINK_STAT.key 255, 5)] }, 255, 20, by decide +kernel⟩,
   ⟨{ up with regs := [(R.LINK_STAT.key 255, 0x3000005)] }, 255, by decide +kernel⟩,
   ⟨{ up with regs := [(R.LINK_STAT.key 255, 0x3000005)], links := { link := [(255, { peerCommit := true, target := 1 })] } },
       255, by decide +kernel⟩,
   ⟨{ up with regs := [(R.LINK_STAT.key 255, 5)] }, 255, by decide +kernel⟩⟩

/-- States and operands that meet the hypotheses of the first clauses of `Obligations.LinkAndLaneCommands`. -/
theorem witness_LinkAndLaneCommands :
  (∃ (s : State) (a : Agent) (g : Fin 4) (n : Nat) (q : Nat), s.accepts a (0x50 + g.val) R.LINK_CMD.off 1 = true
      ∧ s.bankOf a (0x50 + g.val) = n ∧ n < 64 ∧ q = 64 * g.val + n ∧ s.lkUp q = true ∧ (s.lkNeg q = 0 ∨ s.lkNeg q = 6))
  ∧ (∃ (s : State) (a : Agent) (g : Fin 4) (n : Nat) (q : Nat), s.accepts a (0x50 + g.val) R.LINK_CMD.off 1 = true
      ∧ s.bankOf a (0x50 + g.val) = n ∧ n < 64 ∧ q = 64 * g.val + n ∧ s.lkUp q = true ∧ s.lkNeg q ≠ 0 ∧ s.lkNeg q ≠ 6)
  ∧ (∃ (s : State) (a : Agent) (g : Fin 4) (n : Nat) (q : Nat), s.accepts a (0x50 + g.val) R.LINK_CMD.off 1 = true
      ∧ s.bankOf a (0x50 + g.val) = n ∧ n < 64 ∧ q = 64 * g.val + n ∧ s.lkState q = lkFault ∧ s.rdf R.LINK_CFG q 1 0 ≤ 2)
  ∧ (∃ (s : State) (a : Agent) (g : Fin 4) (n : Nat) (q : Nat), s.accepts a (0x50 + g.val) R.LINK_CMD.off 1 = true
      ∧ s.bankOf a (0x50 + g.val) = n ∧ n < 64 ∧ q = 64 * g.val + n ∧ s.lkUp q = false ∧ s.lkState q ≠ lkFault)
  ∧ (∃ (s : State) (a : Agent) (g : Fin 4) (n : Nat) (q : Nat), s.accepts a (0x50 + g.val) R.LINK_CMD.off 2 = true
      ∧ s.bankOf a (0x50 + g.val) = n ∧ n < 64 ∧ q = 64 * g.val + n ∧ s.rdb R.LINK_CFG q 5 = true
      ∧ (s.lkNeg q = 0 ∨ s.lkNeg q = 6))
  ∧ (∃ (s : State) (a : Agent) (g : Fin 4) (n : Nat) (q : Nat), s.accepts a (0x50 + g.val) R.LINK_CMD.off 2 = true
      ∧ s.bankOf a (0x50 + g.val) = n ∧ n < 64 ∧ q = 64 * g.val + n ∧ s.rdb R.LINK_CFG q 5 = true ∧ s.lkNeg q ≠ 0
      ∧ s.lkNeg q ≠ 6)
  ∧ (∃ (s : State) (a : Agent) (g : Fin 4) (n : Nat) (q : Nat), s.accepts a (0x50 + g.val) R.LINK_CMD.off 2 = true
      ∧ s.bankOf a (0x50 + g.val) = n ∧ n < 64 ∧ q = 64 * g.val + n ∧ s.rdb R.LINK_CFG q 5 = false)
  ∧ (∃ (s : State) (a : Agent) (g : Fin 4) (n : Nat) (q : Nat), s.accepts a (0x50 + g.val) R.LINK_CMD.off 4 = true
      ∧ s.bankOf a (0x50 + g.val) = n ∧ n < 64 ∧ q = 64 * g.val + n ∧ s.lkState q = lkSleep ∧ s.rdf R.LINK_CFG q 1 0 ≤ 2)
  ∧ (∃ (s : State) (a : Agent) (g : Fin 4) (n : Nat) (q : Nat), s.accepts a (0x50 + g.val) R.LINK_CMD.off 8 = true
      ∧ s.bankOf a (0x50 + g.val) = n ∧ n < 64 ∧ q = 64 * g.val + n ∧ s.rdb R.LINK_CFG q 4 = true
      ∧ s.lkWidth q < (s.lk q).agreed ∧ (s.lkNeg q = 0 ∨ s.lkNeg q = 6))
  ∧ (∃ (s : State) (a : Agent) (g : Fin 4) (n : Nat) (q : Nat), s.accepts a (0x50 + g.val) R.LINK_CMD.off 8 = true
      ∧ s.bankOf a (0x50 + g.val) = n ∧ n < 64 ∧ q = 64 * g.val + n ∧ s.rdb R.LINK_CFG q 4 = true
      ∧ s.lkWidth q < (s.lk q).agreed ∧ s.lkNeg q ≠ 0 ∧ s.lkNeg q ≠ 6)
  ∧ (∃ (s : State) (a : Agent) (g : Fin 4) (n : Nat) (q : Nat), s.accepts a (0x50 + g.val) R.LINK_CMD.off 8 = true
      ∧ s.bankOf a (0x50 + g.val) = n ∧ n < 64 ∧ q = 64 * g.val + n
      ∧ (s.rdb R.LINK_CFG q 4 = false ∨ (s.lk q).agreed ≤ s.lkWidth q))
  ∧ (∃ (s : State) (a : Agent) (g : Fin 8) (n : Nat) (i : Nat), s.accepts a (0x48 + g.val) R.LANE_CMD.off 1 = true
      ∧ s.bankOf a (0x48 + g.val) = n ∧ n < 128 ∧ i = 128 * g.val + n) :=
  ⟨⟨{ up with regs := [(R.LINK_STAT.key 255, 5), (regKey 0 0x53 0 hCtrl, 1), (regKey 3 0x53 0 hBank, 63)] }, .host, 3,
       63, 255, by decide +kernel⟩,
   ⟨{ up with regs := [(R.LINK_STAT.key 255, 0x1000005), (regKey 0 0x53 0 hCtrl, 1), (regKey 3 0x53 0 hBank, 63)] },
       .host, 3, 63, 255, by decide +kernel⟩,
   ⟨{ up with regs := [(R.LINK_STAT.key 255, 9), (regKey 0 0x53 0 hCtrl, 1), (regKey 3 0x53 0 hBank, 63)] }, .host, 3,
       63, 255, by decide +kernel⟩,
   ⟨{ up with regs := [(R.LINK_STAT.key 255, 2), (regKey 0 0x53 0 hCtrl, 1), (regKey 3 0x53 0 hBank, 63)] }, .host, 3,
       63, 255, by decide +kernel⟩,
   ⟨{ up with regs := [(R.LINK_STAT.key 255, 5), (regKey 0 0x53 0 hCtrl, 1), (regKey 3 0x53 0 hBank, 63), (R.LINK_CFG.key 255, 0x120)] },
       .host, 3, 63, 255, by decide +kernel⟩,
   ⟨{ up with regs := [(R.LINK_STAT.key 255, 0x1000005), (regKey 0 0x53 0 hCtrl, 1), (regKey 3 0x53 0 hBank, 63), (R.LINK_CFG.key 255, 0x120)] },
       .host, 3, 63, 255, by decide +kernel⟩,
   ⟨{ up with regs := [(R.LINK_STAT.key 255, 5), (regKey 0 0x53 0 hCtrl, 1), (regKey 3 0x53 0 hBank, 63)] }, .host, 3,
       63, 255, by decide +kernel⟩,
   ⟨{ up with regs := [(R.LINK_STAT.key 255, 6), (regKey 0 0x53 0 hCtrl, 1), (regKey 3 0x53 0 hBank, 63)] }, .host, 3,
       63, 255, by decide +kernel⟩,
   ⟨{ up with regs := [(R.LINK_STAT.key 255, 5), (regKey 0 0x53 0 hCtrl, 1), (regKey 3 0x53 0 hBank, 63), (R.LINK_CFG.key 255, 0x110)], links := { link := [(255, { agreed := 2 })] } },
       .host, 3, 63, 255, by decide +kernel⟩,
   ⟨{ up with regs := [(R.LINK_STAT.key 255, 0x1000005), (regKey 0 0x53 0 hCtrl, 1), (regKey 3 0x53 0 hBank, 63), (R.LINK_CFG.key 255, 0x110)], links := { link := [(255, { agreed := 2 })] } },
       .host, 3, 63, 255, by decide +kernel⟩,
   ⟨{ up with regs := [(R.LINK_STAT.key 255, 5), (regKey 0 0x53 0 hCtrl, 1), (regKey 3 0x53 0 hBank, 63)] }, .host, 3,
       63, 255, by decide +kernel⟩,
   ⟨{ up with regs := [(regKey 0 0x4F 0 hCtrl, 3), (regKey 3 0x4F 0 hBank, 127), (R.LANE_XCFG.key 1023, 1)] }, .host, 7,
       127, 1023, by decide +kernel⟩⟩

/-- States and operands that meet the hypotheses of further clauses of `Obligations.LinkAndLaneCommands`. -/
theorem witness_LinkAndLaneCommands_2 :
  (∃ (s : State) (a : Agent) (g : Fin 8) (n : Nat) (i : Nat), s.accepts a (0x48 + g.val) R.LANE_CMD.off 2 = true
      ∧ s.bankOf a (0x48 + g.val) = n ∧ n < 128 ∧ i = 128 * g.val + n)
  ∧ (∃ (s : State) (a : Agent) (g : Fin 8) (n : Nat) (i : Nat), s.accepts a (0x48 + g.val) R.LANE_CMD.off 4 = true
      ∧ s.bankOf a (0x48 + g.val) = n ∧ n < 128 ∧ i = 128 * g.val + n)
  ∧ (∃ (s : State) (a : Agent) (g : Fin 8) (v : Word) (n : Nat) (i : Nat), s.accepts a (0x48 + g.val) R.PRBS_CTRL.off v = true
      ∧ s.bankOf a (0x48 + g.val) = n ∧ n < 128 ∧ i = 128 * g.val + n ∧ s.portsOff = true ∧ s.lkUp (i / 4) = true
      ∧ bit v 1 = true ∧ i % 4 < lanesOf (s.lkWidth (i / 4)))
  ∧ (∃ (s : State) (a : Agent) (g : Fin 8) (v : Word) (n : Nat) (i : Nat), s.accepts a (0x48 + g.val) R.PRBS_CTRL.off v = true
      ∧ s.bankOf a (0x48 + g.val) = n ∧ n < 128 ∧ i = 128 * g.val + n ∧ s.portsOff = true ∧ s.lkUp (i / 4) = false
      ∧ s.lkState (i / 4) ≠ lkPrbs)
  ∧ (∃ (s : State) (a : Agent) (g : Fin 4) (v : Word) (n : Nat) (q : Nat), s.accepts a (0x50 + g.val) R.QUAD_MODE.off v = true
      ∧ s.bankOf a (0x50 + g.val) = n ∧ n < 64 ∧ q = 64 * g.val + n ∧ s.portsOff = true ∧ v ≠ s.rd R.QUAD_MODE q
      ∧ fld v 1 0 = 1 ∧ s.enabled (0x50 + g.val) = true ∧ s.lkState q = lkDisabled ∧ s.rdf R.LINK_CFG q 1 0 ≤ 2)
  ∧ (∃ (s : State) (a : Agent) (g : Fin 4) (v : Word) (n : Nat) (q : Nat), s.accepts a (0x50 + g.val) R.QUAD_MODE.off v = true
      ∧ s.bankOf a (0x50 + g.val) = n ∧ n < 64 ∧ q = 64 * g.val + n ∧ s.portsOff = true ∧ v ≠ s.rd R.QUAD_MODE q
      ∧ (fld v 1 0 ≠ 1 ∨ s.enabled (0x50 + g.val) = false) ∧ s.rdf R.LINK_CFG q 1 0 ≤ 2)
  ∧ (∃ (s : State) (i : Fin 1024) (x : Bool), s.rdb R.PRBS_CTRL i 9 = true ∧ s.rdb R.LANE_STAT i 3 = false
      ∧ (prbsTaps (s.rdf R.PRBS_CTRL i 11 10)).1 ≤ (s.lane i).chkGot
      ∧ prbsNext (s.rdf R.PRBS_CTRL i 11 10) (s.lane i).chk = b2n x ∧ (s.lane i).chkRun = 63)
  ∧ (∃ (s : State) (i : Fin 1024) (x : Bool), s.rdb R.PRBS_CTRL i 9 = true ∧ s.rdb R.LANE_STAT i 3 = false
      ∧ ¬ ((prbsTaps (s.rdf R.PRBS_CTRL i 11 10)).1 ≤ (s.lane i).chkGot ∧ prbsNext (s.rdf R.PRBS_CTRL i 11 10) (s.lane i).chk = b2n x ∧ (s.lane i).chkRun = 63))
  ∧ (∃ (s : State) (i : Fin 1024) (x : List Bool), (s.rdb R.PRBS_CTRL i 9 = false ∨ x = []))
  ∧ (∃ (s : State) (i : Fin 1024) (x : Bool), s.rdb R.PRBS_CTRL i 9 = true ∧ s.rdb R.LANE_STAT i 3 = true
      ∧ 16 ≤ (((decide (prbsNext (s.rdf R.PRBS_CTRL i 11 10) (s.lane i).chk = b2n x) :: (s.lane i).chkHits).take 64).filter fun b => !b).length)
  ∧ (∃ (s : State) (i : Fin 1024) (x : Bool), s.rdb R.PRBS_CTRL i 9 = true ∧ s.rdb R.LANE_STAT i 3 = true
      ∧ (((decide (prbsNext (s.rdf R.PRBS_CTRL i 11 10) (s.lane i).chk = b2n x) :: (s.lane i).chkHits).take 64).filter fun b => !b).length < 16)
  ∧ (∃ (s : State) (i : Fin 1024) (x : List Bool), (s.rdb R.LANE_STAT i 3 = false ∨ s.rdb R.PRBS_CTRL i 9 = false)) :=
  ⟨⟨{ up with regs := [(regKey 0 0x4F 0 hCtrl, 1), (regKey 3 0x4F 0 hBank, 127), (R.LINK_STAT.key 255, 8), (R.QUAD_MODE.key 255, 1), (R.LANE_INJ.key 1023, 0x50000)] },
       .host, 7, 127, 1023, by decide +kernel⟩,
   ⟨{ up with regs := [(regKey 0 0x4F 0 hCtrl, 1), (regKey 3 0x4F 0 hBank, 127), (R.LANE_STAT.key 1023, 8)], links := { lane := [(1023, { prbsAt := some 0 })] } },
       .host, 7, 127, 1023, by decide +kernel⟩,
   ⟨{ up with regs := [(regKey 0 0x4F 0 hCtrl, 1), (regKey 3 0x4F 0 hBank, 127), (R.LINK_STAT.key 255, 0x20005)] },
       .host, 7, 2, 127, 1023, by decide +kernel⟩,
   ⟨{ up with regs := [(regKey 0 0x4F 0 hCtrl, 1), (regKey 3 0x4F 0 hBank, 127)] }, .host, 7, 2, 127, 1023,
       by decide +kernel⟩,
   ⟨{ up with regs := [(regKey 0 0x53 0 hCtrl, 1), (regKey 3 0x53 0 hBank, 63)] }, .host, 3, 1, 63, 255,
       by decide +kernel⟩,
   ⟨{ up with regs := [(regKey 0 0x53 0 hCtrl, 1), (regKey 3 0x53 0 hBank, 63), (R.QUAD_MODE.key 255, 1), (R.LINK_STAT.key 255, 5)] },
       .host, 3, 0, 63, 255, by decide +kernel⟩,
   ⟨{ up with regs := [(R.PRBS_CTRL.key 1023, 0x200)], links := { lane := [(1023, { chkGot := 7, chkRun := 63 })] } },
       1023, false, by decide +kernel⟩,
   ⟨{ up with regs := [(R.PRBS_CTRL.key 1023, 0x200)], links := { lane := [(1023, { chkGot := 7, chkRun := 62 })] } },
       1023, true, by decide +kernel⟩,
   ⟨up, 1023, [true], by decide +kernel⟩,
   ⟨{ up with regs := [(R.PRBS_CTRL.key 1023, 0x200), (R.LANE_STAT.key 1023, 8)], links := { lane := [(1023, { chkHits := List.replicate 15 false })] } },
       1023, true, by decide +kernel⟩,
   ⟨{ up with regs := [(R.PRBS_CTRL.key 1023, 0x200), (R.LANE_STAT.key 1023, 8)] }, 1023, true, by decide +kernel⟩,
   ⟨up, 1023, [true], by decide +kernel⟩⟩

/-- States and operands that meet the hypotheses of further clauses of `Obligations.LinkAndLaneCommands`. -/
theorem witness_LinkAndLaneCommands_3 :
  (∃ (s : State) (i : Fin 1024) (lo : Nat) (here : Nat) (hi : Nat), s.rdb R.LANE_CFG i 12 = false
      ∧ s.rdb R.LANE_STAT i 1 = true ∧ (s.lane i).moved.all (fun z => decide (z + 1500000 ≤ s.time.total)) = true ∧ lo < hi
      ∧ here < hi ∧ s.rdf R.LANE_STAT i 23 20 < 15)
  ∧ (∃ (s : State) (i : Fin 1024) (lo : Nat) (here : Nat) (hi : Nat), s.rdb R.LANE_CFG i 12 = false
      ∧ s.rdb R.LANE_STAT i 1 = true ∧ (s.lane i).moved.all (fun z => decide (z + 1500000 ≤ s.time.total)) = true ∧ hi ≤ lo
      ∧ here < lo ∧ 0 < s.rdf R.LANE_STAT i 23 20)
  ∧ (∃ (s : State) (i : Fin 1024) (lo : Nat) (here : Nat) (hi : Nat),
      (s.rdb R.LANE_CFG i 12 = true ∨ s.rdb R.LANE_STAT i 1 = false ∨ (s.lane i).moved.any (fun z => decide (s.time.total < z + 1500000)) = true ∨ (hi ≤ here ∧ lo ≤ here)))
  ∧ (∃ (s : State) (i : Fin 1024), s.rdb R.LANE_CFG i 12 = false
      ∧ (s.rdf R.LANE_STAT i 23 20 = 0 ∨ s.rdf R.LANE_STAT i 23 20 = 15))
  ∧ (∃ (s : State) (i : Fin 1024),
      (s.rdb R.LANE_CFG i 12 = true ∨ (s.rdf R.LANE_STAT i 23 20 ≠ 0 ∧ s.rdf R.LANE_STAT i 23 20 ≠ 15))) :=
  ⟨⟨{ up with regs := [(R.LANE_STAT.key 1023, 0xE00002)] }, 1023, 1, 2, 3, by decide +kernel⟩,
   ⟨{ up with regs := [(R.LANE_STAT.key 1023, 0xE00002)] }, 1023, 3, 2, 1, by decide +kernel⟩,
   ⟨{ up with regs := [(R.LANE_STAT.key 1023, 0xE00002)] }, 1023, 2, 2, 2, by decide +kernel⟩,
   ⟨{ up with regs := [(R.LANE_STAT.key 1023, 0xF00002)] }, 1023, by decide +kernel⟩,
   ⟨{ up with regs := [(R.LANE_STAT.key 1023, 0xE00002)] }, 1023, by decide +kernel⟩⟩

/-- States and operands that meet the hypotheses of the first clauses of `Obligations.CorrectedSamplesAndLevels`. -/
theorem witness_CorrectedSamplesAndLevels :
  (∃ (s : State) (u : Fin 256) (m : Nat) (k : Nat) (y : State), y = s.toSclk (m * sluP (s.sluProg u) + sluLag (s.sluProg u))
      ∧ m * sluP (s.sluProg u) + sluLag (s.sluProg u) ≤ y.nowSclk ∧ (y.sluUnit u).bad = false ∧ sluSlots (s.sluProg u) = [k]
      ∧ (y.slt u k).last.all (fun l => decide (l < m)) = true ∧ (y.slt u k).governs (m * sluP (s.sluProg u)) = none)
  ∧ (∃ (s : State) (u : Fin 256) (m : Nat) (k : Nat) (y : State), y = s.toSclk (m * sluP (s.sluProg u) + sluLag (s.sluProg u))
      ∧ m * sluP (s.sluProg u) + sluLag (s.sluProg u) ≤ y.nowSclk ∧ (y.sluUnit u).bad = false ∧ sluSlots (s.sluProg u) = [k]
      ∧ (y.slt u k).last.all (fun l => decide (l < m)) = true ∧ (y.slt u k).governs (m * sluP (s.sluProg u)) = none)
  ∧ (∃ (s : State) (u : Fin 256) (m : Nat) (k : Nat) (y : State) (md : Model) (d : Int),
      y = s.toSclk (m * sluP (s.sluProg u) + sluLag (s.sluProg u))
      ∧ m * sluP (s.sluProg u) + sluLag (s.sluProg u) ≤ y.nowSclk ∧ (y.sluUnit u).bad = false ∧ sluSlots (s.sluProg u) = [k]
      ∧ 0 < m ∧ (y.slt u k).last = some (m - 1) ∧ (y.slt u k).governs (m * sluP (s.sluProg u)) = some md
      ∧ (y.slt u k).seed = some ((m * sluP (s.sluProg u) + sluLag (s.sluProg u)) / tideSclk, md) ∧ (y.slt u k).gov = some md
      ∧ d = (if y.rdb R.SLU_XCFG u 0 then 0 else shrEven ((y.slt u k).tau + (y.slt u k).dlt) 52) ∧ 0 ≤ d
      ∧ d ≤ ((sluSpan (s.sluProg u) k : Int) - 16) * 4096)
  ∧ (∃ (s : State) (u : Fin 256) (m : Nat) (k : Nat) (y : State) (md : Model) (d : Int),
      y = s.toSclk (m * sluP (s.sluProg u) + sluLag (s.sluProg u))
      ∧ m * sluP (s.sluProg u) + sluLag (s.sluProg u) ≤ y.nowSclk ∧ (y.sluUnit u).bad = false ∧ sluSlots (s.sluProg u) = [k]
      ∧ 0 < m ∧ (y.slt u k).last = some (m - 1) ∧ (y.slt u k).governs (m * sluP (s.sluProg u)) = some md
      ∧ (y.slt u k).seed = some ((m * sluP (s.sluProg u) + sluLag (s.sluProg u)) / tideSclk, md) ∧ (y.slt u k).gov = some md
      ∧ d = (if y.rdb R.SLU_XCFG u 0 then 0 else shrEven ((y.slt u k).tau + (y.slt u k).dlt) 52)
      ∧ (d < 0 ∨ ((sluSpan (s.sluProg u) k : Int) - 16) * 4096 < d))
  ∧ (∃ (s : State) (u : Fin 256) (m : Nat) (k : Nat) (md : Model) (y : State),
      y = s.toSclk (m * sluP (s.sluProg u) + sluLag (s.sluProg u))
      ∧ m * sluP (s.sluProg u) + sluLag (s.sluProg u) ≤ y.nowSclk ∧ (y.sluUnit u).bad = false ∧ sluSlots (s.sluProg u) = [k]
      ∧ 0 < m ∧ (y.slt u k).last = some (m - 1) ∧ (y.slt u k).governs (m * sluP (s.sluProg u)) = some md
      ∧ (y.slt u k).older = none ∧ y.rdb R.SLU_XCFG u 0 = true ∧ 16 ≤ sluSpan (s.sluProg u) k ∧ (y.slt u k).miss < 65536
      ∧ (y.slt u k).top = some (m + 7) ∧ y.inSample u k (m + 8) = { val := none, late := true, poison := false })
  ∧ (∃ (s : State) (u : Fin 256) (m : Nat) (y : State), y = s.toSclk (m * sluP (s.sluProg u) + sluLag (s.sluProg u))
      ∧ (y.nowSclk < m * sluP (s.sluProg u) + sluLag (s.sluProg u) ∨ (y.sluUnit u).bad = true ∨ sluSlots (s.sluProg u) = []))
  ∧ (∃ (s : State) (u : Fin 256) (m : Nat) (k : Nat) (l : Nat) (y : State),
      y = s.toSclk (m * sluP (s.sluProg u) + sluLag (s.sluProg u))
      ∧ m * sluP (s.sluProg u) + sluLag (s.sluProg u) ≤ y.nowSclk ∧ (y.sluUnit u).bad = false ∧ sluSlots (s.sluProg u) = [k]
      ∧ (y.slt u k).last = some l ∧ m ≤ l)
  ∧ (∃ (s : State) (u : Fin 256) (k : Fin 16) (v : Nat) (sm : Nat) (fi : Bool) (rest : List (Nat × Nat × Bool)),
      (sluBind (s.sluProg u) k).isSome = true ∧ (s.sluUnit u).bad = false ∧ (s.slt u k).shut = (v, sm, fi) :: rest
      ∧ v < (if fi then 1 else 64))
  ∧ (∃ (s : State) (u : Fin 256) (k : Fin 16) (v : Nat) (sm : Nat) (fi : Bool) (rest : List (Nat × Nat × Bool)),
      (sluBind (s.sluProg u) k).isSome = true ∧ (s.sluUnit u).bad = false ∧ (s.slt u k).shut = (v, sm, fi) :: rest
      ∧ v < (if fi then 1 else 64))
  ∧ (∃ (s : State) (u : Fin 256) (k : Fin 16) (v : Nat) (sm : Nat) (fi : Bool) (rest : List (Nat × Nat × Bool)),
      (sluBind (s.sluProg u) k).isSome = true ∧ (s.sluUnit u).bad = false ∧ (s.slt u k).shut = (v, sm, fi) :: rest
      ∧ (if fi then 1 else 64) ≤ v ∧ (s.slt u k).f = none)
  ∧ (∃ (s : State) (u : Fin 256) (k : Fin 16) (v : Nat) (sm : Nat) (fi : Bool) (rest : List (Nat × Nat × Bool)),
      (sluBind (s.sluProg u) k).isSome = true ∧ (s.sluUnit u).bad = false ∧ (s.slt u k).shut = (v, sm, fi) :: rest
      ∧ (if fi then 1 else 64) ≤ v ∧ (s.slt u k).f = none) :=
  ⟨⟨{ up with sched := { run := some 0, image0 := sluImage }, time := { pos := 10 }, slu := { slot := [(50, { last := some 4 })] } },
       3, 5, 2,
       { up with sched := { run := some 0, image0 := sluImage }, time := { pos := 10 }, slu := { slot := [(50, { last := some 4 })] } },
       by decide +kernel⟩,
   ⟨{ up with sched := { run := some 0, image0 := sluImage }, time := { pos := 10 }, slu := { slot := [(50, { last := some 4, newer := some { t0 := 0, len := 0, d0 := 0, d1 := 0, d2 := 0, flo := 0, ph0 := 0 } })] } },
       3, 5, 2,
       { up with sched := { run := some 0, image0 := sluImage }, time := { pos := 10 }, slu := { slot := [(50, { last := some 4, newer := some { t0 := 0, len := 0, d0 := 0, d1 := 0, d2 := 0, flo := 0, ph0 := 0 } })] } },
       by decide +kernel⟩,
   ⟨{ up with sched := { run := some 0, image0 := sluImage }, time := { pos := 10 }, slu := { slot := [(50, { last := some 4, newer := some { t0 := 0, len := 9, d0 := 0, d1 := 0, d2 := 0, flo := 0, ph0 := 0 }, gov := some { t0 := 0, len := 9, d0 := 0, d1 := 0, d2 := 0, flo := 0, ph0 := 0 }, seed := some (0, { t0 := 0, len := 9, d0 := 0, d1 := 0, d2 := 0, flo := 0, ph0 := 0 }), tau := 2 * 2 ^ 52, dlt := 3 })] } },
       3, 5, 2,
       { up with sched := { run := some 0, image0 := sluImage }, time := { pos := 10 }, slu := { slot := [(50, { last := some 4, newer := some { t0 := 0, len := 9, d0 := 0, d1 := 0, d2 := 0, flo := 0, ph0 := 0 }, gov := some { t0 := 0, len := 9, d0 := 0, d1 := 0, d2 := 0, flo := 0, ph0 := 0 }, seed := some (0, { t0 := 0, len := 9, d0 := 0, d1 := 0, d2 := 0, flo := 0, ph0 := 0 }), tau := 2 * 2 ^ 52, dlt := 3 })] } },
       { t0 := 0, len := 9, d0 := 0, d1 := 0, d2 := 0, flo := 0, ph0 := 0 }, 2, by decide +kernel⟩,
   ⟨{ up with sched := { run := some 0, image0 := sluImage }, time := { pos := 10 }, slu := { slot := [(50, { last := some 4, newer := some { t0 := 0, len := 9, d0 := 0, d1 := 0, d2 := 0, flo := 0, ph0 := 0 }, gov := some { t0 := 0, len := 9, d0 := 0, d1 := 0, d2 := 0, flo := 0, ph0 := 0 }, seed := some (0, { t0 := 0, len := 9, d0 := 0, d1 := 0, d2 := 0, flo := 0, ph0 := 0 }), tau := -2 * 2 ^ 52 })] } },
       3, 5, 2,
       { up with sched := { run := some 0, image0 := sluImage }, time := { pos := 10 }, slu := { slot := [(50, { last := some 4, newer := some { t0 := 0, len := 9, d0 := 0, d1 := 0, d2 := 0, flo := 0, ph0 := 0 }, gov := some { t0 := 0, len := 9, d0 := 0, d1 := 0, d2 := 0, flo := 0, ph0 := 0 }, seed := some (0, { t0 := 0, len := 9, d0 := 0, d1 := 0, d2 := 0, flo := 0, ph0 := 0 }), tau := -2 * 2 ^ 52 })] } },
       { t0 := 0, len := 9, d0 := 0, d1 := 0, d2 := 0, flo := 0, ph0 := 0 }, -2, by decide +kernel⟩,
   ⟨{ up with sched := { run := some 0, image0 := sluImage }, time := { pos := 10 }, regs := [(R.SLU_XCFG.key 3, 1)], slu := { slot := [(50, { last := some 4, top := some 12, newer := some { t0 := 0, len := 9, d0 := 0, d1 := 0, d2 := 0, flo := 0, ph0 := 0 } })] } },
       3, 5, 2, { t0 := 0, len := 9, d0 := 0, d1 := 0, d2 := 0, flo := 0, ph0 := 0 },
       { up with sched := { run := some 0, image0 := sluImage }, time := { pos := 10 }, regs := [(R.SLU_XCFG.key 3, 1)], slu := { slot := [(50, { last := some 4, top := some 12, newer := some { t0 := 0, len := 9, d0 := 0, d1 := 0, d2 := 0, flo := 0, ph0 := 0 } })] } },
       by decide +kernel⟩,
   ⟨up, 3, 5, up.toSclk (5 * sluP (up.sluProg 3) + sluLag (up.sluProg 3)), by decide +kernel⟩,
   ⟨{ up with sched := { run := some 0, image0 := sluImage }, time := { pos := 10 }, slu := { slot := [(50, { last := some 4 })] } },
       3, 4, 2, 4,
       { up with sched := { run := some 0, image0 := sluImage }, time := { pos := 10 }, slu := { slot := [(50, { last := some 4 })] } },
       by decide +kernel⟩,
   ⟨{ up with sched := { run := some 0, image0 := sluImage }, time := { pos := 10 }, slu := { slot := [(50, { shut := [(63, 999, false)] })] } },
       3, 2, 63, 999, false, [], by decide +kernel⟩,
   ⟨{ up with sched := { run := some 0, image0 := sluImage }, time := { pos := 10 }, slu := { slot := [(50, { shut := [(0, 0, true)] })] } },
       3, 2, 0, 0, true, [], by decide +kernel⟩,
   ⟨{ up with sched := { run := some 0, image0 := sluImage }, time := { pos := 10 }, slu := { slot := [(50, { shut := [(64, 64 * 256 * 9, false)] })] } },
       3, 2, 64, 64 * 256 * 9, false, [], by decide +kernel⟩,
   ⟨{ up with sched := { run := some 0, image0 := sluImage }, time := { pos := 10 }, slu := { slot := [(50, { shut := [(1, 256 * 9, true)] })] } },
       3, 2, 1, 256 * 9, true, [], by decide +kernel⟩⟩

/-- States and operands that meet the hypotheses of further clauses of `Obligations.CorrectedSamplesAndLevels`. -/
theorem witness_CorrectedSamplesAndLevels_2 :
  (∃ (s : State) (u : Fin 256) (k : Fin 16) (v : Nat) (sm : Nat) (fi : Bool) (rest : List (Nat × Nat × Bool)) (x : Word) (a : Bool),
      (sluBind (s.sluProg u) k).isSome = true ∧ (s.sluUnit u).bad = false ∧ (s.slt u k).shut = (v, sm, fi) :: rest
      ∧ (if fi then 1 else 64) ≤ v ∧ (s.slt u k).f = some x
      ∧ a = stepAway (s.rdf R.LVL_CFG u 15 8) (to64 ((Dy.mk sm (-8)).div (Dy.ofInt v))).dy (of64 x).dy
      ∧ (a = false ∨ (s.slt u k).dev = false))
  ∧ (∃ (s : State) (u : Fin 256) (k : Fin 16) (v : Nat) (sm : Nat) (fi : Bool) (rest : List (Nat × Nat × Bool)) (x : Word),
      (sluBind (s.sluProg u) k).isSome = true ∧ (s.sluUnit u).bad = false ∧ (s.slt u k).shut = (v, sm, fi) :: rest
      ∧ (if fi then 1 else 64) ≤ v ∧ (s.slt u k).f = some x
      ∧ stepAway (s.rdf R.LVL_CFG u 15 8) (to64 ((Dy.mk sm (-8)).div (Dy.ofInt v))).dy (of64 x).dy = true
      ∧ (s.slt u k).dev = true)
  ∧ (∃ (s : State) (u : Fin 256) (k : Fin 16),
      (sluBind (s.sluProg u) k = none ∨ (s.sluUnit u).bad = true ∨ (s.slt u k).shut = []))
  ∧ (∃ (s : State) (u : Fin 256) (j : Nat) (k : Nat) (y : State), y = s.toSclk (s.specTime u j) ∧ y.specTime u j ≤ y.nowSclk
      ∧ (sluSlots (s.sluProg u)) = [k] ∧ sluSlots (y.sluProg u) = [k] ∧ (y.sluUnit u).bad = false
      ∧ (y.sluUnit u).done.all (fun d => decide (d < j)) = true
      ∧ (y.slt u k).last.any (fun m => decide (j * y.chanC + 8 * y.chanC ≤ m + 1)) = true ∧ j % y.specWord < y.specWord - 1
      ∧ ¬ ((((y.slt u k).hist.drop ((y.slt u k).last.getD 0 - (j * y.chanC + 8 * y.chanC - 1))).take (8 * y.chanC)).length = 8 * y.chanC ∧ (((y.slt u k).hist.drop ((y.slt u k).last.getD 0 - (j * y.chanC + 8 * y.chanC - 1))).take (8 * y.chanC)).all (fun c => c.y.isSome && !c.jump) = true ∧ y.winZero u y.chanC = false ∧ (y.levelOf u k).isSome = true ∧ (y.slt u k).centres.any (fun x => decide (x.m = j * y.chanC + 4 * y.chanC)) = true))
  ∧ (∃ (s : State) (u : Fin 256) (j : Nat) (k : Nat) (y : State), y = s.toSclk (s.specTime u j) ∧ y.specTime u j ≤ y.nowSclk
      ∧ (sluSlots (s.sluProg u)) = [k] ∧ sluSlots (y.sluProg u) = [k] ∧ (y.sluUnit u).bad = false
      ∧ (y.sluUnit u).done.all (fun d => decide (d < j)) = true
      ∧ (y.slt u k).last.any (fun m => decide (j * y.chanC + 8 * y.chanC ≤ m + 1)) = true ∧ j % y.specWord < y.specWord - 1
      ∧ (((y.slt u k).hist.drop ((y.slt u k).last.getD 0 - (j * y.chanC + 8 * y.chanC - 1))).take (8 * y.chanC)).length = 8 * y.chanC ∧ (((y.slt u k).hist.drop ((y.slt u k).last.getD 0 - (j * y.chanC + 8 * y.chanC - 1))).take (8 * y.chanC)).all (fun c => c.y.isSome && !c.jump) = true ∧ y.winZero u y.chanC = false ∧ (y.levelOf u k).isSome = true ∧ (y.slt u k).centres.any (fun x => decide (x.m = j * y.chanC + 4 * y.chanC)) = true)
  ∧ (∃ (s : State) (u : Fin 256) (j : Nat) (y : State), y = s.toSclk (s.specTime u j) ∧ y.specTime u j ≤ y.nowSclk
      ∧ (y.sluUnit u).bad = true ∧ (s.sluUnit u).bad = true ∧ (y.sluUnit u).done.all (fun d => decide (d < j)) = true
      ∧ j % y.specWord < y.specWord - 1)
  ∧ (∃ (s : State) (u : Fin 256) (j : Nat) (y : State) (z : Word) (a : Nat) (i : Nat), y = s.toSclk (s.specTime u j)
      ∧ y.specTime u j ≤ y.nowSclk ∧ (y.sluUnit u).bad = true ∧ (s.sluUnit u).bad = true ∧ y.image.isSome = true
      ∧ opWord (y.sluProg u) 4 = some z ∧ y.chanC = 1 ∧ j = 4 * i + 3 ∧ y.specWord = 4 ∧ (y.sluUnit u).done = some (j - 1)
      ∧ (y.sluUnit u).group = [] ∧ (y.sluUnit u).mark = false ∧ a = fld z 32 0 * 64 + i % y.pondW * 64)
  ∧ (∃ (s : State) (u : Fin 256) (j : Nat) (y : State), y = s.toSclk (s.specTime u j)
      ∧ (y.nowSclk < y.specTime u j ∨ (y.sluUnit u).done.any (fun d => decide (j ≤ d)) = true))
  ∧ (∃ (s : State) (u : Fin 256) (j : Nat), sluSlots (s.sluProg u) = [] ∧ (s.sluUnit u).bad = false) :=
  ⟨⟨{ up with sched := { run := some 0, image0 := sluImage }, time := { pos := 10 }, slu := { slot := [(50, { shut := [(64, 64 * 256 * 9, false)], f := some 0x4022000000000000 })] } },
       3, 2, 64, 64 * 256 * 9, false, [], 0x4022000000000000, false, by decide +kernel⟩,
   ⟨{ up with sched := { run := some 0, image0 := sluImage }, time := { pos := 10 }, regs := [(R.LVL_CFG.key 3, 0x600)], slu := { slot := [(50, { shut := [(64, 64 * 256 * 900, false)], f := some 0x4022000000000000, dev := true })] } },
       3, 2, 64, 64 * 256 * 900, false, [], 0x4022000000000000, by decide +kernel⟩,
   ⟨{ up with sched := { run := some 0, image0 := sluImage }, time := { pos := 10 }, slu := { slot := [(50, {  })] } },
       3, 2, by decide +kernel⟩,
   ⟨{ up with sched := { run := some 0, image0 := sluImage }, time := { pos := 20 }, slu := { slot := [(50, { last := some 8 })] } },
       3, 1, 2,
       { up with sched := { run := some 0, image0 := sluImage }, time := { pos := 20 }, slu := { slot := [(50, { last := some 8 })] } },
       by decide +kernel⟩,
   ⟨{ up with sched := { run := some 0, image0 := sluImage }, time := { pos := 20 }, slu := { winW := [(32768 * 3, 5)], slot := [(50, { last := some 8, b := some 0x4022000000000000, hist := List.replicate 9 { y := some (3, 4), jump := false }, centres := [{ m := 5, tau := 0, hat := 0, model := none }] })] } },
       3, 1, 2,
       { up with sched := { run := some 0, image0 := sluImage }, time := { pos := 20 }, slu := { winW := [(32768 * 3, 5)], slot := [(50, { last := some 8, b := some 0x4022000000000000, hist := List.replicate 9 { y := some (3, 4), jump := false }, centres := [{ m := 5, tau := 0, hat := 0, model := none }] })] } },
       by decide +kernel⟩,
   ⟨{ up with sched := { run := some 0, image0 := sluImage }, time := { pos := 20 }, slu := { unit := [(3, { bad := true })] } },
       3, 0,
       { up with sched := { run := some 0, image0 := sluImage }, time := { pos := 20 }, slu := { unit := [(3, { bad := true })] } },
       by decide +kernel⟩,
   ⟨{ up with sched := { run := some 0, image0 := sluImage }, time := { pos := 20 }, slu := { unit := [(3, { bad := true, done := some 2 })] } },
       3, 3,
       { up with sched := { run := some 0, image0 := sluImage }, time := { pos := 20 }, slu := { unit := [(3, { bad := true, done := some 2 })] } },
       0x4000000000000000, 0, 0, by decide +kernel⟩,
   ⟨{ up with sched := { run := some 0, image0 := sluImage }, time := { pos := 20 }, slu := { unit := [(3, { bad := true, done := some 2 })] } },
       3, 2,
       { up with sched := { run := some 0, image0 := sluImage }, time := { pos := 20 }, slu := { unit := [(3, { bad := true, done := some 2 })] } },
       by decide +kernel⟩,
   ⟨up, 4, 3, by decide +kernel⟩⟩

/-- States and operands that meet the hypotheses of each clause of `Obligations.SluiceTablesAndShadows`. -/
theorem witness_SluiceTablesAndShadows :
  (∃ (s : State) (a : Agent) (g : Fin 16) (k : Fin 16) (v : Word) (n : Nat),
      s.accepts a (0x20 + g.val) (R.DM_CTRL.off + 64 * k.val) (setBit v 0) = true ∧ s.bankOf a (0x20 + g.val) = n ∧ n < 16)
  ∧ (∃ (s : State) (a : Agent) (g : Fin 16) (n : Nat), s.accepts a (0x20 + g.val) R.GAIN_CTRL.off 1 = true
      ∧ s.bankOf a (0x20 + g.val) = n ∧ n < 16)
  ∧ (∃ (s : State) (a : Agent) (g : Fin 16) (n : Nat), s.accepts a (0x20 + g.val) R.WIN_CTRL.off 1 = true
      ∧ s.bankOf a (0x20 + g.val) = n ∧ n < 16)
  ∧ (∃ (s : State) (a : Agent) (g : Fin 16) (k : Fin 16) (n : Nat),
      s.accepts a (0x20 + g.val) R.SLU_CMD.off (word (at_ 16 k + 1)) = true ∧ s.bankOf a (0x20 + g.val) = n ∧ n < 16)
  ∧ (∃ (s : State) (a : Agent) (g : Fin 16) (n : Nat), s.accepts a (0x20 + g.val) R.SLU_CMD.off 2 = true
      ∧ s.bankOf a (0x20 + g.val) = n ∧ n < 16)
  ∧ (∃ (s : State) (a : Agent) (g : Fin 16) (k : Fin 16) (n : Nat),
      s.accepts a (0x20 + g.val) R.SLU_CMD.off (word (at_ 16 k + 4)) = true ∧ s.bankOf a (0x20 + g.val) = n ∧ n < 16)
  ∧ (∃ (s : State) (a : Agent) (g : Fin 16) (k : Fin 16) (n : Nat),
      s.accepts a (0x20 + g.val) R.SLU_CMD.off (word (at_ 16 k + 8)) = true ∧ s.bankOf a (0x20 + g.val) = n ∧ n < 16)
  ∧ (∃ (s : State) (a : Agent) (g : Fin 16) (v : Word) (n : Nat) (i : Nat), s.accepts a (0x20 + g.val) R.GAIN_DATA.off v = true
      ∧ s.bankOf a (0x20 + g.val) = n ∧ n < 16 ∧ fld (s.rdAgent R.GAIN_ADDR (16 * g.val + n) a) 15 0 = i)
  ∧ (∃ (s : State) (a : Agent) (g : Fin 16) (v : Word) (n : Nat) (i : Nat), s.accepts a (0x20 + g.val) R.WIN_DATA.off v = true
      ∧ s.bankOf a (0x20 + g.val) = n ∧ n < 16 ∧ fld (s.rdAgent R.WIN_ADDR (16 * g.val + n) a) 14 0 = i) :=
  ⟨⟨{ up with sched := { run := some 0, image0 := sluImage }, regs := [(regKey 0 0x2F 0 hCtrl, 1), (regKey 3 0x2F 0 hBank, 15)] },
       .host, 15, 15, 0x900000000, 15, by decide +kernel⟩,
   ⟨{ up with regs := [(regKey 0 0x2F 0 hCtrl, 1), (regKey 3 0x2F 0 hBank, 15)] }, .host, 15, 15, by decide +kernel⟩,
   ⟨{ up with regs := [(regKey 0 0x2F 0 hCtrl, 1), (regKey 3 0x2F 0 hBank, 15)] }, .host, 15, 15, by decide +kernel⟩,
   ⟨{ up with regs := [(regKey 0 0x2F 0 hCtrl, 1), (regKey 3 0x2F 0 hBank, 15)] }, .host, 15, 3, 15, by decide +kernel⟩,
   ⟨{ up with sched := { run := some 0, image0 := sluImage }, regs := [(regKey 0 0x2F 0 hCtrl, 1), (regKey 3 0x2F 0 hBank, 15)] },
       .host, 15, 15, by decide +kernel⟩,
   ⟨{ up with regs := [(regKey 0 0x2F 0 hCtrl, 1), (regKey 3 0x2F 0 hBank, 15), (R.SLU_STAT.key 255, 0x8000000000000000)] },
       .host, 15, 15, 15, by decide +kernel⟩,
   ⟨{ up with regs := [(regKey 0 0x2F 0 hCtrl, 1), (regKey 3 0x2F 0 hBank, 15)], slu := { clips := [(16 * 255 * 4096 + 15 * 4096 + 7, 3)] } },
       .host, 15, 15, 15, by decide +kernel⟩,
   ⟨{ up with regs := [(regKey 0 0x2F 0 hCtrl, 1), (regKey 3 0x2F 0 hBank, 15), (R.GAIN_ADDR.key 255 0 3, 65535)] },
       .host, 15, 0x1000, 15, 65535, by decide +kernel⟩,
   ⟨{ up with regs := [(regKey 0 0x2F 0 hCtrl, 1), (regKey 3 0x2F 0 hBank, 15), (R.WIN_ADDR.key 255 0 3, 32767)] },
       .host, 15, 0x1000, 15, 32767, by decide +kernel⟩⟩

/-- States and operands that meet the hypotheses of the first clauses of `Obligations.SequencersIssueInOrder`. -/
theorem witness_SequencersIssueInOrder :
  (∃ (s : State) (u : SeqUnit) (w : Word) (y : State), s.current u 0x00 = some (w, y))
  ∧ (∃ (s : State) (u : SeqUnit) (w : Word) (y : State), s.current u 0x00 = some (w, y))
  ∧ (∃ (s : State) (u : SeqUnit) (w : Word) (y : State), s.current u 0x00 = some (w, y))
  ∧ (∃ (s : State) (u : SeqUnit) (p : Fin 256) (y : State), s.current u 0x00 = none ∧ s.currentBad u = true
      ∧ y = s.toImg (s.seqOf u).at_ ∧ u = .pan p)
  ∧ (∃ (s : State) (u : SeqUnit) (p : Fin 256) (y : State), s.current u 0x00 = none ∧ s.currentBad u = true
      ∧ y = s.toImg (s.seqOf u).at_ ∧ u = .pan p)
  ∧ (∃ (s : State) (u : SeqUnit) (p : Fin 32) (y : State), s.current u 0x00 = none ∧ s.currentBad u = true
      ∧ y = s.toImg (s.seqOf u).at_ ∧ u = .feeder p)
  ∧ (∃ (s : State) (u : SeqUnit) (p : Fin 64) (y : State), s.current u 0x00 = none ∧ s.currentBad u = true
      ∧ y = s.toImg (s.seqOf u).at_ ∧ u = .rake p)
  ∧ (∃ (s : State) (u : SeqUnit), s.current u 0x00 = none ∧ s.currentBad u = false)
  ∧ (∃ (s : State) (u : SeqUnit) (w : Word) (y : State), s.current u 0x0A = some (w, y))
  ∧ (∃ (s : State) (u : SeqUnit) (w : Word) (y : State), s.current u 0x0A = some (w, y))
  ∧ (∃ (s : State) (u : SeqUnit), s.current u 0x0A = none)
  ∧ (∃ (s : State) (u : SeqUnit) (w : Word) (x : Bool) (l : Loop) (q : Seq) (y : State), s.current u 0x08 = some (w, y)
      ∧ x = (List.range (fld w 43 32 + 1 - fld w 55 44)).any (fun i => (y.seqWord u (fld w 55 44 + i)).any fun v => !isSetup u v || !y.seqLegal u v)
      ∧ fld w 55 44 ≤ fld w 43 32 ∧ fld w 43 32 < y.seqLen u ∧ x = true
      ∧ l = { start := fld w 55 44, end_ := fld w 43 32, limit := fld w 19 0, iter := 0, armed := true } ∧ q = y.seqOf u) :=
  ⟨⟨jobs [99], .pan 17, 99, jobs [99], by decide +kernel⟩,
   ⟨runs tyFeeder 31 99, .feeder 31, 99, runs tyFeeder 31 99, by decide +kernel⟩,
   ⟨runs tyRake 63 0xFFFFF, .rake 63, 0xFFFFF, runs tyRake 63 0xFFFFF, by decide +kernel⟩,
   ⟨{ up with pans := { pan := [(17, { preempted := true, jobRun := true, jobs := [(0, 0x0010000000000000)], seq := { badTide := some 0 } })] } },
       .pan 17, 17,
       { up with pans := { pan := [(17, { preempted := true, jobRun := true, jobs := [(0, 0x0010000000000000)], seq := { badTide := some 0 } })] } },
       by decide +kernel⟩,
   ⟨{ up with pans := { pan := [(17, { preempted := true, jobRun := true, jobs := [(0, 0x0010000000000000)], seq := {  } })] } },
       .pan 17, 17,
       { up with pans := { pan := [(17, { preempted := true, jobRun := true, jobs := [(0, 0x0010000000000000)], seq := {  } })] } },
       by decide +kernel⟩,
   ⟨runs tyFeeder 31 0x0010000000000000, .feeder 31, 31, runs tyFeeder 31 0x0010000000000000, by decide +kernel⟩,
   ⟨runs tyRake 63 0x0010000000000000, .rake 63, 63, runs tyRake 63 0x0010000000000000, by decide +kernel⟩,
   ⟨up, .pan 17, by decide +kernel⟩,
   ⟨runs tyRake 0 0x2BFFFFC000000000, .rake 0, 0x2BFFFFC000000000, runs tyRake 0 0x2BFFFFC000000000, by decide +kernel⟩,
   ⟨runs tyPan 255 0x2800000000000000, .pan 255, 0x2800000000000000, runs tyPan 255 0x2800000000000000,
       by decide +kernel⟩,
   ⟨up, .pan 17, by decide +kernel⟩,
   ⟨jobs [0x2000100100000005, 3], .pan 17, 0x2000100100000005, true,
       { start := 1, end_ := 1, limit := 5, iter := 0, armed := true },
       (jobs [0x2000100100000005, 3]).seqOf (.pan 17), jobs [0x2000100100000005, 3], by decide +kernel⟩⟩

/-- States and operands that meet the hypotheses of further clauses of `Obligations.SequencersIssueInOrder`. -/
theorem witness_SequencersIssueInOrder_2 :
  (∃ (s : State) (u : SeqUnit) (w : Word) (x : Bool) (l : Loop) (q : Seq) (y : State) (z : State),
      s.current u 0x08 = some (w, y)
      ∧ x = (List.range (fld w 43 32 + 1 - fld w 55 44)).any (fun i => (y.seqWord u (fld w 55 44 + i)).any fun v => !isSetup u v || !y.seqLegal u v)
      ∧ (fld w 43 32 < fld w 55 44 ∨ y.seqLen u ≤ fld w 43 32 ∨ x = false)
      ∧ l = { start := fld w 55 44, end_ := fld w 43 32, limit := fld w 19 0, iter := 0, armed := false } ∧ z = y.illegal u
      ∧ q = z.seqOf u)
  ∧ (∃ (s : State) (u : SeqUnit), s.current u 0x08 = none)
  ∧ (∃ (s : State) (u : SeqUnit) (w : Word) (y : State), s.current u 0x0B = some (w, y) ∧ y.inJob u = false)
  ∧ (∃ (s : State) (u : SeqUnit) (p : Fin 256) (w : Word) (y : State), u = .pan p ∧ s.current u 0x0B = some (w, y)
      ∧ (y.pn p).jobRun = true)
  ∧ (∃ (s : State) (u : SeqUnit) (z : State), s.current u 0x0B = none ∧ s.seqLive u = true
      ∧ (s.seqOf u).at_ / tideSclk ≤ s.sched.age ∧ s.seqWord u (s.seqOf u).pc = none
      ∧ z = (s.toImg (s.seqOf u).at_).illegal u ∧ z.inJob u = false)
  ∧ (∃ (s : State) (u : SeqUnit) (p : Fin 256) (z : State), u = .pan p ∧ s.current u 0x0B = none ∧ s.seqLive u = true
      ∧ (s.seqOf u).at_ / tideSclk ≤ s.sched.age ∧ s.seqWord u (s.seqOf u).pc = none
      ∧ z = (s.toImg (s.seqOf u).at_).illegal u ∧ (z.pn p).jobRun = true)
  ∧ (∃ (s : State) (u : SeqUnit), s.current u 0x0B = none
      ∧ ¬(s.seqLive u = true ∧ (s.seqOf u).at_ / tideSclk ≤ s.sched.age ∧ s.seqWord u (s.seqOf u).pc = none)) :=
  ⟨⟨jobs [0x2000200100000005, 3], .pan 17, 0x2000200100000005, false,
       { start := 2, end_ := 1, limit := 5, iter := 0, armed := false },
       ((jobs [0x2000200100000005, 3]).illegal (.pan 17)).seqOf (.pan 17), jobs [0x2000200100000005, 3],
       (jobs [0x2000200100000005, 3]).illegal (.pan 17), by decide +kernel⟩,
   ⟨up, .pan 17, by decide +kernel⟩,
   ⟨runs tyFeeder 0 0x2C00000000000000, .feeder 0, 0x2C00000000000000, runs tyFeeder 0 0x2C00000000000000,
       by decide +kernel⟩,
   ⟨jobs [0x2C00000000000000], .pan 17, 17, 0x2C00000000000000, jobs [0x2C00000000000000], by decide +kernel⟩,
   ⟨{ runs tyFeeder 31 0 with pans := { feeder := [(31, { seq := { pc := 1 } })] } }, .feeder 31,
       ({ runs tyFeeder 31 0 with pans := { feeder := [(31, { seq := { pc := 1 } })] } }).illegal (.feeder 31),
       by decide +kernel⟩,
   ⟨{ up with pans := { pan := [(17, { preempted := true, jobRun := true, seq := { pc := 256 } })] } }, .pan 17, 17,
       ({ up with pans := { pan := [(17, { preempted := true, jobRun := true, seq := { pc := 256 } })] } }).illegal (.pan 17),
       by decide +kernel⟩,
   ⟨up, .pan 17, by decide +kernel⟩⟩

/-- States and operands that meet the hypotheses of the first clauses of `Obligations.PanStepsAndWeights`. -/
theorem witness_PanStepsAndWeights :
  (∃ (s : State) (p : Fin 256) (w : Word) (y : State) (z1 : State) (z2 : State) (z3 : State) (a : Nat) (l : Nat) (d : Pan) (e : Pan) (xs : List ((Int × Int) × Bool)) (ys : List ((Int × Int) × Bool)),
      s.current (.pan p) 0x01 = some (w, y) ∧ a = (y.pn p).seq.at_ ∧ ((y.pn p).jobRun = true ∨ (y.pn p).beam = false)
      ∧ (y.pn p).lastBeam.map (· + 1) ≠ some a ∧ l = a + (if bit w 39 then 8 else 6) ∧ d = (y.opsTo p a).pn p
      ∧ xs = halfSamples (bit w 39) (d.half (opAddr d.seq w 0) false).data
      ∧ ys = halfSamples (bit w 39) (d.half (opAddr d.seq w 0) true).data
      ∧ e = { d.setTrailer d.bank { d.trailer d.bank with poison := (d.trailer d.bank).poison || (d.half (opAddr d.seq w 0) false).poison || (d.half (opAddr d.seq w 0) true).poison, zrow := (d.trailer d.bank).zrow ||| zeroMask (if bit w 39 then 32 * fld w 38 38 else 0) xs, zcol := (d.trailer d.bank).zcol ||| zeroMask (if bit w 39 then 32 * fld w 37 37 else 0) ys } with gap := d.gap || xs.any (·.2) || ys.any (·.2), stepBank := some d.bank, incs := d.incs ++ [{ time := l, bank := d.bank, incs := corrIncs w xs ys }] }
      ∧ z1 = (((y.opsTo p a).setPn p (if bit w 35 then e.countStep d.bank else e)).intoBank p d.bank l).count R.PAN_STEPS p
      ∧ z2 = (if bit w 34 then z1.switchBank p a else z1) ∧ z3 = (if bit w 33 then z2.streamBank p a false else z2))
  ∧ (∃ (s : State) (p : Fin 256) (w : Word) (y : State) (z1 : State) (z2 : State) (z3 : State) (a : Nat) (l : Nat) (d : Pan) (e : Pan) (xs : List ((Int × Int) × Bool)) (ys : List ((Int × Int) × Bool)),
      s.current (.pan p) 0x01 = some (w, y) ∧ a = (y.pn p).seq.at_ ∧ ((y.pn p).jobRun = true ∨ (y.pn p).beam = false)
      ∧ (y.pn p).lastBeam.map (· + 1) ≠ some a ∧ l = a + (if bit w 39 then 8 else 6) ∧ d = (y.opsTo p a).pn p
      ∧ xs = halfSamples (bit w 39) (d.half (opAddr d.seq w 0) false).data
      ∧ ys = halfSamples (bit w 39) (d.half (opAddr d.seq w 0) true).data
      ∧ e = { d.setTrailer d.bank { d.trailer d.bank with poison := (d.trailer d.bank).poison || (d.half (opAddr d.seq w 0) false).poison || (d.half (opAddr d.seq w 0) true).poison, zrow := (d.trailer d.bank).zrow ||| zeroMask (if bit w 39 then 32 * fld w 38 38 else 0) xs, zcol := (d.trailer d.bank).zcol ||| zeroMask (if bit w 39 then 32 * fld w 37 37 else 0) ys } with gap := d.gap || xs.any (·.2) || ys.any (·.2), stepBank := some d.bank, incs := d.incs ++ [{ time := l, bank := d.bank, incs := corrIncs w xs ys }] }
      ∧ z1 = (((y.opsTo p a).setPn p (if bit w 35 then e.countStep d.bank else e)).intoBank p d.bank l).count R.PAN_STEPS p
      ∧ z2 = (if bit w 34 then z1.switchBank p a else z1) ∧ z3 = (if bit w 33 then z2.streamBank p a false else z2))
  ∧ (∃ (s : State) (p : Fin 256) (w : Word) (y : State) (z : State) (a : Nat), s.current (.pan p) 0x01 = some (w, y)
      ∧ a = (y.pn p).seq.at_ ∧ (y.pn p).jobRun = false ∧ (y.pn p).beam = true
      ∧ z = ((y.countf R.PAN_ERR p 47 32).raise (panPage p) 1).seqReport (.pan p))
  ∧ (∃ (s : State) (p : Fin 256) (w : Word) (y : State) (z : State) (a : Nat), s.current (.pan p) 0x01 = some (w, y)
      ∧ a = (y.pn p).seq.at_ ∧ ((y.pn p).jobRun = true ∨ (y.pn p).beam = false) ∧ (y.pn p).lastBeam.map (· + 1) = some a
      ∧ z = ((y.countf R.PAN_ERR p 31 16).raise (panPage p) 2).seqReport (.pan p))
  ∧ (∃ (s : State) (p : Fin 256), s.current (.pan p) 0x01 = none)
  ∧ (∃ (s : State) (p : Fin 256) (w : Word) (y : State) (z0 : State) (z1 : State) (z2 : State) (a : Nat) (d : Pan) (e : Pan) (ys : List ((Int × Int) × Bool)) (c : ChainSum),
      s.current (.pan p) 0x02 = some (w, y) ∧ a = (y.pn p).seq.at_ ∧ ((y.pn p).jobRun = true ∨ (y.pn p).beam = true)
      ∧ (y.pn p).lastBeam.map (· + 1) ≠ some a ∧ d = (y.opsTo p a).pn p
      ∧ ys = halfSamples false (d.half (opAddr d.seq w 0) true).data
      ∧ c = (pget (y.bm (p.val / 16)).chain a).getD { sums := List.replicate 64 (0, 0), gap := false, poison := false }
      ∧ z0 = (y.opsTo p a).setBm (p.val / 16) { y.bm (p.val / 16) with chain := pset (y.bm (p.val / 16)).chain a (some { sums := (c.sums.zip ((List.range 64).map (d.rowSum ys))).map fun x => (x.1.1 + x.2.1, x.1.2 + x.2.2), gap := c.gap || ys.any (·.2), poison := c.poison || ((d.half (opAddr d.seq w 0) true).poison || d.weightsPoison) }) }
      ∧ p.val % 16 ≠ 15 ∧ e = { d with gap := d.gap || ys.any (·.2), stepBank := some d.bank, lastBeam := some a }
      ∧ z1 = (z0.setPn p (if bit w 35 then e.countStep d.bank else e)).count R.PAN_STEPS p
      ∧ z2 = (if bit w 34 then z1.switchBank p a else z1))
  ∧ (∃ (s : State) (p : Fin 256) (w : Word) (y : State) (z0 : State) (z1 : State) (z2 : State) (a : Nat) (d : Pan) (e : Pan) (ys : List ((Int × Int) × Bool)) (c : ChainSum),
      s.current (.pan p) 0x02 = some (w, y) ∧ a = (y.pn p).seq.at_ ∧ ((y.pn p).jobRun = true ∨ (y.pn p).beam = true)
      ∧ (y.pn p).lastBeam.map (· + 1) ≠ some a ∧ d = (y.opsTo p a).pn p
      ∧ ys = halfSamples false (d.half (opAddr d.seq w 0) true).data
      ∧ c = (pget (y.bm (p.val / 16)).chain a).getD { sums := List.replicate 64 (0, 0), gap := false, poison := false }
      ∧ z0 = (y.opsTo p a).setBm (p.val / 16) { y.bm (p.val / 16) with chain := pset (y.bm (p.val / 16)).chain a (some { sums := (c.sums.zip ((List.range 64).map (d.rowSum ys))).map fun x => (x.1.1 + x.2.1, x.1.2 + x.2.2), gap := c.gap || ys.any (·.2), poison := c.poison || ((d.half (opAddr d.seq w 0) true).poison || d.weightsPoison) }) }
      ∧ p.val % 16 ≠ 15 ∧ e = { d with gap := d.gap || ys.any (·.2), stepBank := some d.bank, lastBeam := some a }
      ∧ z1 = (z0.setPn p (if bit w 35 then e.countStep d.bank else e)).count R.PAN_STEPS p
      ∧ z2 = (if bit w 34 then z1.switchBank p a else z1)) :=
  ⟨⟨jobs [0x0400000000000000], 17, 0x0400000000000000, jobs [0x0400000000000000], _, _, _, _, _, _, _, _, _,
       (by first | decide +kernel | rfl), rfl, (by first | decide +kernel | rfl), (by first | decide +kernel | rfl), rfl, rfl, rfl, rfl, rfl, rfl, rfl, rfl⟩,
   ⟨jobs [0x040000CE00000000], 17, 0x040000CE00000000, jobs [0x040000CE00000000], _, _, _, _, _, _, _, _, _,
       (by first | decide +kernel | rfl), rfl, (by first | decide +kernel | rfl), (by first | decide +kernel | rfl), rfl, rfl, rfl, rfl, rfl, rfl, rfl, rfl⟩,
   ⟨{ up with time := { pos := 4 }, sched := { run := some 0, image0 := oneProg tyPan 17 0x0400000000000000 }, pans := { pan := [(17, { beam := true, seq := { at_ := 4 } })] } },
       17, 0x0400000000000000,
       { up with time := { pos := 4 }, sched := { run := some 0, image0 := oneProg tyPan 17 0x0400000000000000 }, pans := { pan := [(17, { beam := true, seq := { at_ := 4 } })] } },
       _, _,
       (by first | decide +kernel | rfl), rfl, (by first | decide +kernel | rfl), (by first | decide +kernel | rfl), rfl⟩,
   ⟨{ up with time := { pos := 4 }, pans := { pan := [(17, { preempted := true, jobRun := true, jobs := [(0, 0x0400000000000000)], lastBeam := some 3, seq := { at_ := 4 } })] } },
       17, 0x0400000000000000,
       { up with time := { pos := 4 }, pans := { pan := [(17, { preempted := true, jobRun := true, jobs := [(0, 0x0400000000000000)], lastBeam := some 3, seq := { at_ := 4 } })] } },
       _, _,
       (by first | decide +kernel | rfl), rfl, (by first | decide +kernel | rfl), (by first | decide +kernel | rfl), rfl⟩,
   ⟨up, 17, by decide +kernel⟩,
   ⟨jobs [0x0800000000000000], 17, 0x0800000000000000, jobs [0x0800000000000000], _, _, _, _, _, _, _, _,
       (by first | decide +kernel | rfl), rfl, (by first | decide +kernel | rfl), (by first | decide +kernel | rfl), rfl, rfl, rfl, rfl, (by first | decide +kernel | rfl), rfl, rfl, rfl⟩,
   ⟨jobs [0x0800000C00000000], 17, 0x0800000C00000000, jobs [0x0800000C00000000], _, _, _, _, _, _, _, _,
       (by first | decide +kernel | rfl), rfl, (by first | decide +kernel | rfl), (by first | decide +kernel | rfl), rfl, rfl, rfl, rfl, (by first | decide +kernel | rfl), rfl, rfl, rfl⟩⟩

/-- States and operands that meet the hypotheses of further clauses of `Obligations.PanStepsAndWeights`. -/
theorem witness_PanStepsAndWeights_2 :
  (∃ (s : State) (p : Fin 256) (w : Word) (y : State) (z0 : State) (z1 : State) (z2 : State) (a : Nat) (d : Pan) (e : Pan) (ys : List ((Int × Int) × Bool)) (c : ChainSum),
      s.current (.pan p) 0x02 = some (w, y) ∧ a = (y.pn p).seq.at_ ∧ ((y.pn p).jobRun = true ∨ (y.pn p).beam = true)
      ∧ (y.pn p).lastBeam.map (· + 1) ≠ some a ∧ d = (y.opsTo p a).pn p
      ∧ ys = halfSamples false (d.half (opAddr d.seq w 0) true).data
      ∧ c = (pget (y.bm (p.val / 16)).chain a).getD { sums := List.replicate 64 (0, 0), gap := false, poison := false }
      ∧ z0 = (y.opsTo p a).setBm (p.val / 16) { y.bm (p.val / 16) with chain := pset (y.bm (p.val / 16)).chain a (some { sums := (c.sums.zip ((List.range 64).map (d.rowSum ys))).map fun x => (x.1.1 + x.2.1, x.1.2 + x.2.2), gap := c.gap || ys.any (·.2), poison := c.poison || ((d.half (opAddr d.seq w 0) true).poison || d.weightsPoison) }) }
      ∧ p.val % 16 = 15
      ∧ e = (if 2 ≤ fld w 37 36 then Pan.setTrailer { d with gap := d.gap || ys.any (·.2), stepBank := some d.bank, lastBeam := some a } d.bank { d.trailer d.bank with zcol := (d.trailer d.bank).zcol ||| zeroMask 0 ys } else { d with gap := d.gap || ys.any (·.2), stepBank := some d.bank, lastBeam := some a })
      ∧ z1 = ((if 2 ≤ fld w 37 36 then (z0.setPn p (if bit w 35 then e.countStep d.bank else e)).intoBank p d.bank (a + 41) else z0.setPn p (if bit w 35 then e.countStep d.bank else e)).closing (p.val / 16) a w d.bank).count R.PAN_STEPS p
      ∧ z2 = (if bit w 34 then z1.switchBank p a else z1))
  ∧ (∃ (s : State) (p : Fin 256) (w : Word) (y : State) (z0 : State) (z1 : State) (z2 : State) (a : Nat) (d : Pan) (e : Pan) (ys : List ((Int × Int) × Bool)) (c : ChainSum),
      s.current (.pan p) 0x02 = some (w, y) ∧ a = (y.pn p).seq.at_ ∧ ((y.pn p).jobRun = true ∨ (y.pn p).beam = true)
      ∧ (y.pn p).lastBeam.map (· + 1) ≠ some a ∧ d = (y.opsTo p a).pn p
      ∧ ys = halfSamples false (d.half (opAddr d.seq w 0) true).data
      ∧ c = (pget (y.bm (p.val / 16)).chain a).getD { sums := List.replicate 64 (0, 0), gap := false, poison := false }
      ∧ z0 = (y.opsTo p a).setBm (p.val / 16) { y.bm (p.val / 16) with chain := pset (y.bm (p.val / 16)).chain a (some { sums := (c.sums.zip ((List.range 64).map (d.rowSum ys))).map fun x => (x.1.1 + x.2.1, x.1.2 + x.2.2), gap := c.gap || ys.any (·.2), poison := c.poison || ((d.half (opAddr d.seq w 0) true).poison || d.weightsPoison) }) }
      ∧ p.val % 16 = 15
      ∧ e = (if 2 ≤ fld w 37 36 then Pan.setTrailer { d with gap := d.gap || ys.any (·.2), stepBank := some d.bank, lastBeam := some a } d.bank { d.trailer d.bank with zcol := (d.trailer d.bank).zcol ||| zeroMask 0 ys } else { d with gap := d.gap || ys.any (·.2), stepBank := some d.bank, lastBeam := some a })
      ∧ z1 = ((if 2 ≤ fld w 37 36 then (z0.setPn p (if bit w 35 then e.countStep d.bank else e)).intoBank p d.bank (a + 41) else z0.setPn p (if bit w 35 then e.countStep d.bank else e)).closing (p.val / 16) a w d.bank).count R.PAN_STEPS p
      ∧ z2 = (if bit w 34 then z1.switchBank p a else z1))
  ∧ (∃ (s : State) (p : Fin 256) (w : Word) (y : State) (z : State) (a : Nat), s.current (.pan p) 0x02 = some (w, y)
      ∧ a = (y.pn p).seq.at_ ∧ (y.pn p).jobRun = false ∧ (y.pn p).beam = false
      ∧ z = ((y.countf R.PAN_ERR p 47 32).raise (panPage p) 1).seqReport (.pan p))
  ∧ (∃ (s : State) (p : Fin 256) (w : Word) (y : State) (z : State) (a : Nat), s.current (.pan p) 0x02 = some (w, y)
      ∧ a = (y.pn p).seq.at_ ∧ ((y.pn p).jobRun = true ∨ (y.pn p).beam = true) ∧ (y.pn p).lastBeam.map (· + 1) = some a
      ∧ z = ((y.countf R.PAN_ERR p 31 16).raise (panPage p) 2).seqReport (.pan p))
  ∧ (∃ (s : State) (p : Fin 256), s.current (.pan p) 0x02 = none)
  ∧ (∃ (s : State) (p : Fin 256) (w : Word) (y : State) (a : Nat) (d : Pan) (x : OpHalf) (z : State),
      s.current (.pan p) 0x03 = some (w, y) ∧ a = (y.pn p).seq.at_ ∧ d = (y.opsTo p a).pn p
      ∧ x = d.half (opAddr d.seq w (p.val % 16 * fld w 39 29)) false
      ∧ z = (y.opsTo p a).setPn p { d with wland := d.wland ++ [{ time := a + 3, idx := 2 * fld w 28 23 + fld w 22 22, w := { data := x.data, poison := x.poison } }] })
  ∧ (∃ (s : State) (p : Fin 256), s.current (.pan p) 0x03 = none)
  ∧ (∃ (s : State) (p : Fin 256) (w : Word) (y : State) (a : Nat) (d : Pan) (z : State), s.current (.pan p) 0x04 = some (w, y)
      ∧ a = (y.pn p).seq.at_ ∧ d = (y.opsTo p a).pn p ∧ z = (y.opsTo p a).setPn p { d with active := !d.active })
  ∧ (∃ (s : State) (p : Fin 256), s.current (.pan p) 0x04 = none)
  ∧ (∃ (s : State) (p : Fin 256) (w : Word) (y : State), s.current (.pan p) 0x09 = some (w, y) ∧ (y.pn p).jobRun = false)
  ∧ (∃ (s : State) (p : Fin 256) (w : Word) (y : State) (z : State), s.current (.pan p) 0x09 = some (w, y)
      ∧ (y.pn p).jobRun = true ∧ z = y.illegal (.pan p))
  ∧ (∃ (s : State) (p : Fin 256), s.current (.pan p) 0x09 = none) :=
  ⟨⟨{ up with pans := { pan := [(31, { preempted := true, jobRun := true, jobs := [(0, 0x0800000000000000)] })] } }, 31,
       0x0800000000000000,
       { up with pans := { pan := [(31, { preempted := true, jobRun := true, jobs := [(0, 0x0800000000000000)] })] } },
       _, _, _, _, _, _, _, _,
       (by first | decide +kernel | rfl), rfl, (by first | decide +kernel | rfl), (by first | decide +kernel | rfl), rfl, rfl, rfl, rfl, (by first | decide +kernel | rfl), rfl, rfl, rfl⟩,
   ⟨{ up with pans := { pan := [(31, { preempted := true, jobRun := true, jobs := [(0, 0x0800007800000000)] })] } }, 31,
       0x0800007800000000,
       { up with pans := { pan := [(31, { preempted := true, jobRun := true, jobs := [(0, 0x0800007800000000)] })] } },
       _, _, _, _, _, _, _, _,
       (by first | decide +kernel | rfl), rfl, (by first | decide +kernel | rfl), (by first | decide +kernel | rfl), rfl, rfl, rfl, rfl, (by first | decide +kernel | rfl), rfl, rfl, rfl⟩,
   ⟨{ up with time := { pos := 4 }, sched := { run := some 0, image0 := oneProg tyPan 17 0x0800000000000000 }, pans := { pan := [(17, { beam := false, seq := { at_ := 4 } })] } },
       17, 0x0800000000000000,
       { up with time := { pos := 4 }, sched := { run := some 0, image0 := oneProg tyPan 17 0x0800000000000000 }, pans := { pan := [(17, { beam := false, seq := { at_ := 4 } })] } },
       _, _,
       (by first | decide +kernel | rfl), rfl, (by first | decide +kernel | rfl), (by first | decide +kernel | rfl), rfl⟩,
   ⟨{ up with time := { pos := 4 }, pans := { pan := [(17, { preempted := true, jobRun := true, jobs := [(0, 0x0800000000000000)], lastBeam := some 3, seq := { at_ := 4 } })] } },
       17, 0x0800000000000000,
       { up with time := { pos := 4 }, pans := { pan := [(17, { preempted := true, jobRun := true, jobs := [(0, 0x0800000000000000)], lastBeam := some 3, seq := { at_ := 4 } })] } },
       _, _,
       (by first | decide +kernel | rfl), rfl, (by first | decide +kernel | rfl), (by first | decide +kernel | rfl), rfl⟩,
   ⟨up, 17, by decide +kernel⟩,
   ⟨runs tyPan 255 0x0C001000FFC00000, 255, 0x0C001000FFC00000, runs tyPan 255 0x0C001000FFC00000, _, _, _, _,
       (by first | decide +kernel | rfl), rfl, rfl, rfl, rfl⟩,
   ⟨up, 17, by decide +kernel⟩,
   ⟨jobs [0x1000000000000000], 17, 0x1000000000000000, jobs [0x1000000000000000], _, _, _,
       (by first | decide +kernel | rfl), rfl, rfl, rfl⟩,
   ⟨up, 17, by decide +kernel⟩,
   ⟨runs tyPan 255 0x27C0000000000000, 255, 0x27C0000000000000, runs tyPan 255 0x27C0000000000000, by decide +kernel⟩,
   ⟨jobs [0x27C0000000000000], 17, 0x27C0000000000000, jobs [0x27C0000000000000],
       (jobs [0x27C0000000000000]).illegal (.pan 17), by decide +kernel⟩,
   ⟨up, 17, by decide +kernel⟩⟩

/-- States and operands that meet the hypotheses of each clause of `Obligations.BanksStreamAndFill`. -/
theorem witness_BanksStreamAndFill :
  (∃ (s : State) (p : Fin 256) (w : Word) (y : State) (a : Nat) (z : State), s.current (.pan p) 0x05 = some (w, y)
      ∧ a = (y.pn p).seq.at_ ∧ y.panStreams p a = false ∧ z = y.setPn p { y.pn p with bank := !(y.pn p).bank })
  ∧ (∃ (s : State) (p : Fin 256) (w : Word) (y : State) (a : Nat) (z : State), s.current (.pan p) 0x05 = some (w, y)
      ∧ a = (y.pn p).seq.at_ ∧ y.panStreams p a = true
      ∧ z = ((y.countf R.PAN_ERR p 31 16).raise (panPage p) 2).seqReport (.pan p))
  ∧ (∃ (s : State) (p : Fin 256), s.current (.pan p) 0x05 = none)
  ∧ (∃ (s : State) (p : Fin 256) (w : Word) (y : State) (a : Nat) (x : Nat) (early : Bool) (z1 : State) (z : State),
      s.current (.pan p) 0x06 = some (w, y) ∧ a = (y.pn p).seq.at_ ∧ y.panStreams p a = false ∧ (y.pn p).jobRun = false
      ∧ x = y.hclk (2 * a + 24) ∧ early = decide (x < 2 * (if (y.pn p).bank then (y.pn p).visible0 else (y.pn p).visible1))
      ∧ z1 = (if early then y.breach R.BR_BANK 3 p else y)
      ∧ z = (z1.setPn p { z1.pn p with busy := x + 3 * 4098 }).setRk (p.val / 4) { z1.rk (p.val / 4) with streams := (z1.rk (p.val / 4)).streams ++ [(p.val % 4, { first := x, save := bit w 57, bank := some (!(y.pn p).bank), early := early })] })
  ∧ (∃ (s : State) (p : Fin 256) (w : Word) (y : State) (a : Nat) (x : Nat) (early : Bool) (z1 : State) (z : State),
      s.current (.pan p) 0x06 = some (w, y) ∧ a = (y.pn p).seq.at_ ∧ y.panStreams p a = false ∧ (y.pn p).jobRun = false
      ∧ x = y.hclk (2 * a + 24) ∧ early = decide (x < 2 * (if (y.pn p).bank then (y.pn p).visible0 else (y.pn p).visible1))
      ∧ z1 = (if early then y.breach R.BR_BANK 3 p else y)
      ∧ z = (z1.setPn p { z1.pn p with busy := x + 3 * 4098 }).setRk (p.val / 4) { z1.rk (p.val / 4) with streams := (z1.rk (p.val / 4)).streams ++ [(p.val % 4, { first := x, save := bit w 57, bank := some (!(y.pn p).bank), early := early })] })
  ∧ (∃ (s : State) (p : Fin 256) (w : Word) (y : State) (a : Nat) (z : State), s.current (.pan p) 0x06 = some (w, y)
      ∧ a = (y.pn p).seq.at_ ∧ (y.panStreams p a = true ∨ (y.pn p).jobRun = true)
      ∧ z = ((y.countf R.PAN_ERR p 31 16).raise (panPage p) 2).seqReport (.pan p))
  ∧ (∃ (s : State) (p : Fin 256), s.current (.pan p) 0x06 = none)
  ∧ (∃ (s : State) (p : Fin 256) (w : Word) (y : State) (a : Nat) (x : Nat) (early : Bool) (z1 : State) (z2 : State) (z : State),
      s.current (.pan p) 0x07 = some (w, y) ∧ a = (y.pn p).seq.at_ ∧ y.panStreams p a = false ∧ (y.pn p).jobRun = false
      ∧ x = y.hclk (2 * a + 48) ∧ early = decide (a < (if (y.pn p).bank then (y.pn p).visible0 else (y.pn p).visible1))
      ∧ z1 = (if early then y.breach R.BR_BANK 3 p else y).rakeNow (p.val / 4)
      ∧ (z1.rk (p.val / 4)).blks.find? (fun b => b.port = p.val % 4 ∧ b.taken = false ∧ b.kind = .fill) = none
      ∧ z2 = z1.countf R.RK_ERR (4 * (p.val / 4)) 47 32
      ∧ z = z2.setPn p { z2.pn p with filling := x + 3 * 4098, fill := some { t := a, bank := !(y.pn p).bank, blk := none, early := early } })
  ∧ (∃ (s : State) (p : Fin 256) (w : Word) (y : State) (a : Nat) (x : Nat) (early : Bool) (z1 : State) (z2 : State) (z : State) (b : RBlk),
      s.current (.pan p) 0x07 = some (w, y) ∧ a = (y.pn p).seq.at_ ∧ y.panStreams p a = false ∧ (y.pn p).jobRun = false
      ∧ x = y.hclk (2 * a + 48) ∧ early = decide (a < (if (y.pn p).bank then (y.pn p).visible0 else (y.pn p).visible1))
      ∧ z1 = (if early then y.breach R.BR_BANK 3 p else y).rakeNow (p.val / 4)
      ∧ (z1.rk (p.val / 4)).blks.find? (fun b => b.port = p.val % 4 ∧ b.taken = false ∧ b.kind = .fill) = some b
      ∧ z2 = z1.setBlk (p.val / 4) b.id (some { b with taken := true })
      ∧ z = z2.setPn p { z2.pn p with filling := x + 3 * 4098, fill := some { t := a, bank := !(y.pn p).bank, blk := some b.id, early := early } })
  ∧ (∃ (s : State) (p : Fin 256) (w : Word) (y : State) (a : Nat) (z : State), s.current (.pan p) 0x07 = some (w, y)
      ∧ a = (y.pn p).seq.at_ ∧ (y.panStreams p a = true ∨ (y.pn p).jobRun = true)
      ∧ z = ((y.countf R.PAN_ERR p 31 16).raise (panPage p) 2).seqReport (.pan p))
  ∧ (∃ (s : State) (p : Fin 256), s.current (.pan p) 0x07 = none) :=
  ⟨⟨jobs [0x1400000000000000], 17, 0x1400000000000000, jobs [0x1400000000000000], _, _,
       (by first | decide +kernel | rfl), rfl, (by first | decide +kernel | rfl), rfl⟩,
   ⟨{ up with pans := { pan := [(17, { preempted := true, jobRun := true, busy := 1, jobs := [(0, 0x1400000000000000)] })] } },
       17, 0x1400000000000000,
       { up with pans := { pan := [(17, { preempted := true, jobRun := true, busy := 1, jobs := [(0, 0x1400000000000000)] })] } },
       _, _, (by first | decide +kernel | rfl), rfl, (by first | decide +kernel | rfl), rfl⟩,
   ⟨up, 17, by decide +kernel⟩,
   ⟨runs tyPan 255 0x1A00000000000000, 255, 0x1A00000000000000, runs tyPan 255 0x1A00000000000000, _, _, _, _, _,
       (by first | decide +kernel | rfl), rfl, (by first | decide +kernel | rfl), (by first | decide +kernel | rfl), rfl, rfl, rfl, rfl⟩,
   ⟨{ runs tyPan 255 0x1800000000000000 with pans := { pan := [(255, { visible1 := 13 })] } }, 255, 0x1800000000000000,
       { runs tyPan 255 0x1800000000000000 with pans := { pan := [(255, { visible1 := 13 })] } }, _, _, _, _, _,
       (by first | decide +kernel | rfl), rfl, (by first | decide +kernel | rfl), (by first | decide +kernel | rfl), rfl, rfl, rfl, rfl⟩,
   ⟨jobs [0x1800000000000000], 17, 0x1800000000000000, jobs [0x1800000000000000], _, _,
       (by first | decide +kernel | rfl), rfl, (by first | decide +kernel | rfl), rfl⟩,
   ⟨up, 17, by decide +kernel⟩,
   ⟨runs tyPan 255 0x1C00000000000000, 255, 0x1C00000000000000, runs tyPan 255 0x1C00000000000000, _, _, _, _, _, _,
       (by first | decide +kernel | rfl), rfl, (by first | decide +kernel | rfl), (by first | decide +kernel | rfl), rfl, rfl, rfl, (by first | decide +kernel | rfl), rfl, rfl⟩,
   ⟨{ runs tyPan 255 0x1C00000000000000 with pans := { rake := [(63, { blks := [{ saveBlk with kind := .fill, taken := false, stream := none, arrived := 0 }] })] } },
       255, 0x1C00000000000000,
       { runs tyPan 255 0x1C00000000000000 with pans := { rake := [(63, { blks := [{ saveBlk with kind := .fill, taken := false, stream := none, arrived := 0 }] })] } },
       _, _, _, _, _, _, { saveBlk with kind := .fill, taken := false, stream := none, arrived := 0 },
       (by first | decide +kernel | rfl), rfl, (by first | decide +kernel | rfl), (by first | decide +kernel | rfl), rfl, rfl, rfl, (by first | decide +kernel | rfl), rfl, rfl⟩,
   ⟨jobs [0x1C00000000000000], 17, 0x1C00000000000000, jobs [0x1C00000000000000], _, _,
       (by first | decide +kernel | rfl), rfl, (by first | decide +kernel | rfl), rfl⟩,
   ⟨up, 17, by decide +kernel⟩⟩

/-- States and operands that meet the hypotheses of the first clauses of `Obligations.FeedersReadAndEmit`. -/
theorem witness_FeedersReadAndEmit :
  (∃ (s : State) (i : Fin 32) (w : Word) (y : State) (g : AReg), s.current (.feeder i) 0x10 = some (w, y)
      ∧ g = mget aregDflt (y.fd i).regs (fld w 57 55))
  ∧ (∃ (s : State) (i : Fin 32), s.current (.feeder i) 0x10 = none)
  ∧ (∃ (s : State) (i : Fin 32) (w : Word) (y : State) (a : Nat) (g : AReg) (z : State), s.current (.feeder i) 0x11 = some (w, y)
      ∧ a = (y.fd i).seq.at_ ∧ g = mget aregDflt (y.fd i).regs (fld w 57 55) ∧ (g.wrap = 0 ∨ g.omod = 0)
      ∧ z = y.illegal (.feeder i))
  ∧ (∃ (s : State) (i : Fin 32) (w : Word) (y : State) (a : Nat) (g : AReg) (z1 : State) (z : State),
      s.current (.feeder i) 0x11 = some (w, y) ∧ a = (y.fd i).seq.at_ ∧ g = mget aregDflt (y.fd i).regs (fld w 57 55)
      ∧ 0 < g.wrap ∧ 0 < g.omod ∧ a % 256 < 16 ∧ z1 = (List.range (fld w 48 42)).foldl (fun x n => x.readOne i a w g n) y
      ∧ z = z1.setFd i { z1.fd i with regs := mset aregDflt (z1.fd i).regs (fld w 57 55) { g with inner := (g.inner + fld w 48 42) % g.wrap } })
  ∧ (∃ (s : State) (i : Fin 32) (w : Word) (y : State) (a : Nat) (g : AReg) (z1 : State) (z : State),
      s.current (.feeder i) 0x11 = some (w, y) ∧ a = (y.fd i).seq.at_ ∧ g = mget aregDflt (y.fd i).regs (fld w 57 55)
      ∧ 0 < g.wrap ∧ 0 < g.omod ∧ 16 ≤ a % 256
      ∧ z1 = (List.range (fld w 48 42)).foldl (fun x n => x.feedData i (xferTime (a / 256 * 256) n) ((fld w 41 34 + (if bit w 51 then n else y.specWord * n)) % 256) (if bit w 51 then 8 else fld w 50 49) poisonData true true) ((y.feederCount i 31 16).breach R.BR_HEAP 1 (hPch (g.base * 64) % 512))
      ∧ z = z1.setFd i { z1.fd i with regs := mset aregDflt (z1.fd i).regs (fld w 57 55) { g with inner := (g.inner + fld w 48 42) % g.wrap } })
  ∧ (∃ (s : State) (i : Fin 32) (w : Word) (y : State) (a : Nat) (g : AReg) (z1 : State) (z : State),
      s.current (.feeder i) 0x11 = some (w, y) ∧ a = (y.fd i).seq.at_ ∧ g = mget aregDflt (y.fd i).regs (fld w 57 55)
      ∧ 0 < g.wrap ∧ 0 < g.omod ∧ a % 256 < 16 ∧ fld w 48 42 = 1 ∧ bit w 51 = false ∧ g.anchor = none
      ∧ z1 = (y.feedData i (xferTime (a / 256 * 256) 0) (fld w 41 34 % 256) (fld w 50 49) (List.replicate 64 (zeroCode y.sampleBits)) false false).feederCount i 15 0
      ∧ z = z1.setFd i { z1.fd i with regs := mset aregDflt (z1.fd i).regs (fld w 57 55) { g with inner := (g.inner + fld w 48 42) % g.wrap } })
  ∧ (∃ (s : State) (i : Fin 32) (w : Word) (y : State) (a : Nat) (g : AReg) (z1 : State) (z : State),
      s.current (.feeder i) 0x11 = some (w, y) ∧ a = (y.fd i).seq.at_ ∧ g = mget aregDflt (y.fd i).regs (fld w 57 55)
      ∧ 0 < g.wrap ∧ 0 < g.omod ∧ a % 256 < 16 ∧ fld w 48 42 = 1 ∧ bit w 51 = true
      ∧ y.entry 1 i (a / 256 % 4096) ≠ 4096 + 3072 + fld w 54 52
      ∧ z1 = (y.breach R.BR_HEAP 1 (hPch ((g.base + g.outer + g.inner % g.wrap) * 64) % 512)).feedData i (xferTime (a / 256 * 256) 0) (fld w 41 34 % 256) 8 poisonData true true
      ∧ z = z1.setFd i { z1.fd i with regs := mset aregDflt (z1.fd i).regs (fld w 57 55) { g with inner := (g.inner + fld w 48 42) % g.wrap } })
  ∧ (∃ (s : State) (i : Fin 32) (w : Word) (y : State) (a : Nat) (g : AReg) (z1 : State) (z : State),
      s.current (.feeder i) 0x11 = some (w, y) ∧ a = (y.fd i).seq.at_ ∧ g = mget aregDflt (y.fd i).regs (fld w 57 55)
      ∧ 0 < g.wrap ∧ 0 < g.omod ∧ a % 256 < 16 ∧ fld w 48 42 = 1 ∧ bit w 51 = true
      ∧ y.entry 1 i (a / 256 % 4096) = 4096 + 3072 + fld w 54 52
      ∧ z1 = y.ask { owner := 512 + i, now := true, write := false, addr := (g.base + g.outer + g.inner % g.wrap) * 64, data := [], dest := .feeder i (fld w 41 34 % 256) 8 }
      ∧ z = z1.setFd i { z1.fd i with regs := mset aregDflt (z1.fd i).regs (fld w 57 55) { g with inner := (g.inner + fld w 48 42) % g.wrap } })
  ∧ (∃ (s : State) (i : Fin 32), s.current (.feeder i) 0x11 = none)
  ∧ (∃ (s : State) (i : Fin 32) (w : Word) (y : State) (a : Nat) (g : AReg) (g1 : AReg) (g2 : AReg),
      s.current (.feeder i) 0x12 = some (w, y) ∧ a = (y.fd i).seq.at_ ∧ g = mget aregDflt (y.fd i).regs (fld w 57 55)
      ∧ 0 < g.wrap ∧ (bit w 54 = false ∨ 0 < g.omod)
      ∧ g1 = { g with outer := if bit w 54 then (g.outer + g.ostep) % g.omod else g.outer, inner := (((g.inner : Int) + sfld w 53 30) % g.wrap).toNat }
      ∧ g2 = (if bit w 29 then (if y.arr a < g.lag then { g1 with anchor := none } else { g1 with anchor := some (((y.arr a).toNat - g.lag) / (y.chanC * g.p * 2 ^ fld w 28 24) * 2 ^ fld w 28 24, y.time.epoch), inner := 0 }) else g1)) :=
  ⟨⟨runs tyFeeder 31 0x4390000000080000, 31, 0x4390000000080000, runs tyFeeder 31 0x4390000000080000, {},
       by decide +kernel⟩,
   ⟨up, 17, by decide +kernel⟩,
   ⟨runs tyFeeder 15 0x4780040C00000000, 15, 0x4780040C00000000, runs tyFeeder 15 0x4780040C00000000, _, _, _,
       (by first | decide +kernel | rfl), rfl, rfl, (by first | decide +kernel | rfl), rfl⟩,
   ⟨{ runs tyFeeder 31 0x4780040C00000000 with pans := { feeder := [(31, { regs := [(7, { wrap := 4, omod := 1, inner := 3 })] })] } },
       31, 0x4780040C00000000,
       { runs tyFeeder 31 0x4780040C00000000 with pans := { feeder := [(31, { regs := [(7, { wrap := 4, omod := 1, inner := 3 })] })] } },
       _, _, _, _,
       (by first | decide +kernel | rfl), rfl, rfl, (by first | decide +kernel | rfl), (by first | decide +kernel | rfl), (by first | decide +kernel | rfl), rfl, rfl⟩,
   ⟨{ runs tyFeeder 31 0x4780040C00000000 with time := { pos := 20 }, pans := { feeder := [(31, { seq := { at_ := 20 }, regs := [(7, { wrap := 4, omod := 1, inner := 3 })] })] } },
       31, 0x4780040C00000000,
       { runs tyFeeder 31 0x4780040C00000000 with time := { pos := 20 }, pans := { feeder := [(31, { seq := { at_ := 20 }, regs := [(7, { wrap := 4, omod := 1, inner := 3 })] })] } },
       _, _, _, _,
       (by first | decide +kernel | rfl), rfl, rfl, (by first | decide +kernel | rfl), (by first | decide +kernel | rfl), (by first | decide +kernel | rfl), rfl, rfl⟩,
   ⟨{ runs tyFeeder 31 0x4780040C00000000 with pans := { feeder := [(31, { regs := [(7, { wrap := 4, omod := 1, inner := 3 })] })] } },
       31, 0x4780040C00000000,
       { runs tyFeeder 31 0x4780040C00000000 with pans := { feeder := [(31, { regs := [(7, { wrap := 4, omod := 1, inner := 3 })] })] } },
       _, _, _, _,
       (by first | decide +kernel | rfl), rfl, rfl, (by first | decide +kernel | rfl), (by first | decide +kernel | rfl), (by first | decide +kernel | rfl), (by first | decide +kernel | rfl), (by first | decide +kernel | rfl), (by first | decide +kernel | rfl), rfl, rfl⟩,
   ⟨{ runs tyFeeder 31 0x4788040000000000 with pans := { feeder := [(31, { regs := [(7, { wrap := 4, omod := 1, inner := 3, base := 64 })] })] } },
       31, 0x4788040000000000,
       { runs tyFeeder 31 0x4788040000000000 with pans := { feeder := [(31, { regs := [(7, { wrap := 4, omod := 1, inner := 3, base := 64 })] })] } },
       _, _, _, _,
       (by first | decide +kernel | rfl), rfl, rfl, (by first | decide +kernel | rfl), (by first | decide +kernel | rfl), (by first | decide +kernel | rfl), (by first | decide +kernel | rfl), (by first | decide +kernel | rfl), (by first | decide +kernel | rfl), rfl, rfl⟩,
   ⟨{ up with sched := { run := some 0, image0 := feedImage }, pans := { feeder := [(31, { regs := [(7, { wrap := 4, omod := 1, inner := 3, base := 64 })] })] } },
       31, 0x4788040000000000,
       { up with sched := { run := some 0, image0 := feedImage }, pans := { feeder := [(31, { regs := [(7, { wrap := 4, omod := 1, inner := 3, base := 64 })] })] } },
       _, _, _, _,
       (by first | decide +kernel | rfl), rfl, rfl, (by first | decide +kernel | rfl), (by first | decide +kernel | rfl), (by first | decide +kernel | rfl), (by first | decide +kernel | rfl), (by first | decide +kernel | rfl), (by first | decide +kernel | rfl), rfl, rfl⟩,
   ⟨up, 17, by decide +kernel⟩,
   ⟨{ runs tyFeeder 0 0x4BFFFFFFC0000000 with pans := { feeder := [(0, { regs := [(7, { wrap := 4, omod := 5, ostep := 3, outer := 2 })] })] } },
       0, 0x4BFFFFFFC0000000,
       { runs tyFeeder 0 0x4BFFFFFFC0000000 with pans := { feeder := [(0, { regs := [(7, { wrap := 4, omod := 5, ostep := 3, outer := 2 })] })] } },
       _, _, _, _,
       (by first | decide +kernel | rfl), rfl, rfl, (by first | decide +kernel | rfl), (by first | decide +kernel | rfl), rfl, rfl⟩⟩

/-- States and operands that meet the hypotheses of further clauses of `Obligations.FeedersReadAndEmit`. -/
theorem witness_FeedersReadAndEmit_2 :
  (∃ (s : State) (i : Fin 32) (w : Word) (y : State) (a : Nat) (g : AReg) (g1 : AReg) (g2 : AReg),
      s.current (.feeder i) 0x12 = some (w, y) ∧ a = (y.fd i).seq.at_ ∧ g = mget aregDflt (y.fd i).regs (fld w 57 55)
      ∧ 0 < g.wrap ∧ (bit w 54 = false ∨ 0 < g.omod)
      ∧ g1 = { g with outer := if bit w 54 then (g.outer + g.ostep) % g.omod else g.outer, inner := (((g.inner : Int) + sfld w 53 30) % g.wrap).toNat }
      ∧ g2 = (if bit w 29 then (if y.arr a < g.lag then { g1 with anchor := none } else { g1 with anchor := some (((y.arr a).toNat - g.lag) / (y.chanC * g.p * 2 ^ fld w 28 24) * 2 ^ fld w 28 24, y.time.epoch), inner := 0 }) else g1))
  ∧ (∃ (s : State) (i : Fin 32) (w : Word) (y : State) (a : Nat) (g : AReg) (g1 : AReg) (g2 : AReg),
      s.current (.feeder i) 0x12 = some (w, y) ∧ a = (y.fd i).seq.at_ ∧ g = mget aregDflt (y.fd i).regs (fld w 57 55)
      ∧ g.wrap = 0 ∧ (bit w 54 = false ∨ 0 < g.omod)
      ∧ g1 = { g with outer := if bit w 54 then (g.outer + g.ostep) % g.omod else g.outer, inner := (Config.indexOpen y.free).toNat }
      ∧ g2 = (if bit w 29 then (if y.arr a < g.lag then { g1 with anchor := none } else { g1 with anchor := some (((y.arr a).toNat - g.lag) / (y.chanC * g.p * 2 ^ fld w 28 24) * 2 ^ fld w 28 24, y.time.epoch), inner := 0 }) else g1))
  ∧ (∃ (s : State) (i : Fin 32) (w : Word) (y : State) (a : Nat) (g : AReg) (g1 : AReg) (g2 : AReg),
      s.current (.feeder i) 0x12 = some (w, y) ∧ a = (y.fd i).seq.at_ ∧ g = mget aregDflt (y.fd i).regs (fld w 57 55)
      ∧ 0 < g.wrap ∧ bit w 54 = true ∧ g.omod = 0
      ∧ g1 = { g with outer := (Config.indexOpen y.free).toNat, inner := (((g.inner : Int) + sfld w 53 30) % g.wrap).toNat }
      ∧ g2 = (if bit w 29 then (if y.arr a < g.lag then { g1 with anchor := none } else { g1 with anchor := some (((y.arr a).toNat - g.lag) / (y.chanC * g.p * 2 ^ fld w 28 24) * 2 ^ fld w 28 24, y.time.epoch), inner := 0 }) else g1))
  ∧ (∃ (s : State) (i : Fin 32) (w : Word) (y : State) (a : Nat) (g : AReg) (g1 : AReg) (g2 : AReg),
      s.current (.feeder i) 0x12 = some (w, y) ∧ a = (y.fd i).seq.at_ ∧ g = mget aregDflt (y.fd i).regs (fld w 57 55)
      ∧ g.wrap = 0 ∧ bit w 54 = true ∧ g.omod = 0
      ∧ g1 = { g with outer := (Config.indexOpen y.free).toNat, inner := (Config.indexOpen (y.free + 1)).toNat }
      ∧ g2 = (if bit w 29 then (if y.arr a < g.lag then { g1 with anchor := none } else { g1 with anchor := some (((y.arr a).toNat - g.lag) / (y.chanC * g.p * 2 ^ fld w 28 24) * 2 ^ fld w 28 24, y.time.epoch), inner := 0 }) else g1))
  ∧ (∃ (s : State) (i : Fin 32), s.current (.feeder i) 0x12 = none)
  ∧ (∃ (s : State) (i : Fin 32) (w : Word) (y : State) (a : Nat) (g : AReg) (z1 : State) (c : Nat) (z : State),
      s.current (.feeder i) 0x13 = some (w, y) ∧ a = (y.fd i).seq.at_ ∧ g = mget aregDflt (y.fd i).regs (fld w 57 55)
      ∧ z1 = y.feedTo i (a - 1) ∧ c = (z1.fd i).emit.elim 0 (fun e => e.count - e.next)
      ∧ z = (z1.setFd i { z1.fd i with emit := some { t := a, e := fld w 57 50, count := fld w 49 41 + 1, addr := fld w 40 30, astep := fld w 29 26, pmask := fld w 25 22, next := 0 } }).feederCount i 47 32 c)
  ∧ (∃ (s : State) (i : Fin 32), s.current (.feeder i) 0x13 = none) :=
  ⟨⟨{ runs tyFeeder 0 0x4B80000025000000 with pans := { feeder := [(0, { regs := [(7, { wrap := 4, lag := 7 })] })] } },
       0, 0x4B80000025000000,
       { runs tyFeeder 0 0x4B80000025000000 with pans := { feeder := [(0, { regs := [(7, { wrap := 4, lag := 7 })] })] } },
       _, _, _, _,
       (by first | decide +kernel | rfl), rfl, rfl, (by first | decide +kernel | rfl), (by first | decide +kernel | rfl), rfl, rfl⟩,
   ⟨{ runs tyFeeder 0 0x4B80000025000000 with pans := { feeder := [(0, { regs := [(7, { omod := 5, ostep := 3 })] })] } },
       0, 0x4B80000025000000,
       { runs tyFeeder 0 0x4B80000025000000 with pans := { feeder := [(0, { regs := [(7, { omod := 5, ostep := 3 })] })] } },
       _, _, _, _,
       (by first | decide +kernel | rfl), rfl, rfl, (by first | decide +kernel | rfl), (by first | decide +kernel | rfl), rfl, rfl⟩,
   ⟨{ runs tyFeeder 0 0x4BFFFFFFC0000000 with pans := { feeder := [(0, { regs := [(7, { wrap := 4 })] })] } }, 0,
       0x4BFFFFFFC0000000,
       { runs tyFeeder 0 0x4BFFFFFFC0000000 with pans := { feeder := [(0, { regs := [(7, { wrap := 4 })] })] } }, _,
       _, _, _,
       (by first | decide +kernel | rfl), rfl, rfl, (by first | decide +kernel | rfl), (by first | decide +kernel | rfl), (by first | decide +kernel | rfl), rfl, rfl⟩,
   ⟨{ runs tyFeeder 0 0x4BFFFFFFC0000000 with pans := { feeder := [(0, { regs := [(7, { p := 4 })] })] } }, 0,
       0x4BFFFFFFC0000000,
       { runs tyFeeder 0 0x4BFFFFFFC0000000 with pans := { feeder := [(0, { regs := [(7, { p := 4 })] })] } }, _, _,
       _, _,
       (by first | decide +kernel | rfl), rfl, rfl, (by first | decide +kernel | rfl), (by first | decide +kernel | rfl), (by first | decide +kernel | rfl), rfl, rfl⟩,
   ⟨up, 17, by decide +kernel⟩,
   ⟨runs tyFeeder 31 0x4FFE000003C00000, 31, 0x4FFE000003C00000, runs tyFeeder 31 0x4FFE000003C00000, _, _, _, _, _,
       (by first | decide +kernel | rfl), rfl, rfl, rfl, rfl, rfl⟩,
   ⟨up, 17, by decide +kernel⟩⟩

/-- States and operands that meet the hypotheses of each clause of `Obligations.PreemptionAndJobs`. -/
theorem witness_PreemptionAndJobs :
  (∃ (s : State) (a : Agent) (g : Fin 16) (n : Nat) (x : Nat), s.accepts a (0x30 + g.val) R.PAN_XCMD.off 1 = true
      ∧ s.bankOf a (0x30 + g.val) = n ∧ n < 16 ∧ x = 16 * g.val + n)
  ∧ (∃ (s : State) (p : Fin 256) (d : Nat) (y : State), (s.pn p).prePend = some d ∧ s.atBoundary = true ∧ d = s.time.tide
      ∧ y = s.opsTo p s.imgNow)
  ∧ (∃ (s : State) (p : Fin 256), ((s.pn p).prePend = none ∨ s.atBoundary = false ∨ (s.pn p).prePend ≠ some s.time.tide))
  ∧ (∃ (s : State) (p : Fin 256), ((s.pn p).prePend = none ∨ s.atBoundary = false ∨ (s.pn p).prePend ≠ some s.time.tide))
  ∧ (∃ (s : State) (a : Agent) (g : Fin 16) (n : Nat) (x : Nat), s.accepts a (0x30 + g.val) R.PAN_XCMD.off 2 = true
      ∧ s.bankOf a (0x30 + g.val) = n ∧ n < 16 ∧ x = 16 * g.val + n)
  ∧ (∃ (s : State) (p : Fin 256) (d : Nat) (y : State), (s.pn p).resPend = some d ∧ s.atBoundary = true ∧ d = s.time.tide
      ∧ y = s.opsTo p s.imgNow)
  ∧ (∃ (s : State) (p : Fin 256), ((s.pn p).resPend = none ∨ s.atBoundary = false ∨ (s.pn p).resPend ≠ some s.time.tide))
  ∧ (∃ (s : State) (a : Agent) (g : Fin 16) (n : Nat) (x : Nat), s.accepts a (0x30 + g.val) R.PAN_XCMD.off 4 = true
      ∧ s.bankOf a (0x30 + g.val) = n ∧ n < 16 ∧ x = 16 * g.val + n)
  ∧ (∃ (s : State) (a : Agent) (g : Fin 16) (n : Nat) (x : Nat), s.accepts a (0x30 + g.val) R.PAN_XCMD.off 8 = true
      ∧ s.bankOf a (0x30 + g.val) = n ∧ n < 16 ∧ x = 16 * g.val + n)
  ∧ (∃ (s : State) (a : Agent) (g : Fin 16) (v : Word) (n : Nat) (x : Nat) (i : Nat),
      s.accepts a (0x30 + g.val) R.OPM_DATA.off v = true ∧ s.bankOf a (0x30 + g.val) = n ∧ n < 16 ∧ x = 16 * g.val + n
      ∧ i = fld (s.rdAgent R.OPM_ADDR x a) 14 0)
  ∧ (∃ (s : State) (a : Agent) (g : Fin 16) (v : Word) (n : Nat) (x : Nat) (i : Nat),
      s.accepts a (0x30 + g.val) R.JOB_DATA.off v = true ∧ s.bankOf a (0x30 + g.val) = n ∧ n < 16 ∧ x = 16 * g.val + n
      ∧ i = fld (s.rdAgent R.JOB_ADDR x a) 7 0) :=
  ⟨⟨{ up with regs := hostOn 0x3F 15 ++ [(R.PAN_XTIDE.key 255, 2)] }, .host, 15, 15, 255, by decide +kernel⟩,
   ⟨{ up with pans := { pan := [(255, { prePend := some 0 })] } }, 255, 0,
       { up with pans := { pan := [(255, { prePend := some 0 })] } }, by decide +kernel⟩,
   ⟨{ up with pans := { pan := [(255, { prePend := some 1 })] } }, 255, by decide +kernel⟩,
   ⟨{ up with time := { pos := 1, total := 1 }, pans := { pan := [(255, { prePend := some 0 })] } }, 255,
       by decide +kernel⟩,
   ⟨{ up with regs := hostOn 0x3F 15 ++ [(R.PAN_XTIDE.key 255, 2)], pans := { pan := [(255, { preempted := true })] } },
       .host, 15, 15, 255, by decide +kernel⟩,
   ⟨{ up with pans := { pan := [(255, { preempted := true, resPend := some 0 })] } }, 255, 0,
       ({ up with pans := { pan := [(255, { preempted := true, resPend := some 0 })] } } : State).opsTo 255 0,
       by decide +kernel⟩,
   ⟨{ up with pans := { pan := [(255, { preempted := true, resPend := some 1 })] } }, 255, by decide +kernel⟩,
   ⟨{ up with regs := hostOn 0x3F 15, pans := { pan := [(255, { preempted := true })] } }, .host, 15, 15, 255,
       by decide +kernel⟩,
   ⟨{ up with regs := hostOn 0x3F 15, pans := { pan := [(255, { preempted := true, jobRun := true })] } }, .host, 15, 15,
       255, by decide +kernel⟩,
   ⟨{ up with regs := hostOn 0x3F 15 ++ [(R.OPM_ADDR.key 255 0 3, 32767)], pans := { pan := [(255, { preempted := true })] } },
       .host, 15, 0x123456789ABCDEF0, 15, 255, 32767, by decide +kernel⟩,
   ⟨{ up with regs := hostOn 0x3F 15 ++ [(R.JOB_ADDR.key 255 0 3, 255)], pans := { pan := [(255, { preempted := true })] } },
       .host, 15, 0x123456789ABCDEF0, 15, 255, 255, by decide +kernel⟩⟩

/-- States and operands that meet the hypotheses of the first clauses of `Obligations.RakesBindAndTransfer`. -/
theorem witness_RakesBindAndTransfer :
  (∃ (s : State) (k : Fin 64) (w : Word) (x : State) (y : State) (r : Rake) (g : RReg) (nr : Nat) (nc : Nat) (tri : Bool) (kd : BindKind) (whole : Bool) (u : Nat) (z : Nat) (e : RBlk) (rq : List RRead) (rs : Map RReg),
      s.current (.rake k) 0x20 = some (w, x) ∧ y = x.rakeNow k ∧ r = y.rk k ∧ g = mget rregDflt r.regs (fld w 53 51)
      ∧ 0 < g.span ∧ (fld w 55 54 = 3 ∨ r.pending (fld w 57 56) < 2)
      ∧ y.usefulShape (4 * k.val + fld w 57 56) (fld w 50 47) = (nr, nc, tri)
      ∧ kd = (if fld w 55 54 = 0 then BindKind.promote else if fld w 55 54 = 1 then .save else if fld w 55 54 = 2 then .fill else .flush)
      ∧ whole = (kd == .save || kd == .fill) ∧ u = (if whole then 0 else usefulCount nr nc tri)
      ∧ z = (if whole then 521 else if u = 0 then 0 else 1 + (u + 3) / 4)
      ∧ e = { id := r.nextId, port := fld w 57 56, kind := kd, sigma := fld w 50 47, q := fld w 46 27, base := g.base, ptr := g.ptr, span := g.span, nr := nr, nc := nc, tri := tri, u := u, z := z, taken := kd == .flush, set := y.accSet }
      ∧ rq = (if kd = .save then [] else (List.range z).map (fun i => { blk := r.nextId, idx := i, addr := ringPlace g.base g.ptr g.span i }))
      ∧ rs = (if kd = .save then mset rregDflt r.regs (fld w 53 51) { g with ptr := (g.ptr + 521) % 2 ^ 33 } else r.regs)
      ∧ r.fault = false ∧ (kd ≠ .flush ∨ 0 < z) ∧ r.rq.length + rq.length ≤ 8192)
  ∧ (∃ (s : State) (k : Fin 64) (w : Word) (x : State) (y : State) (r : Rake) (g : RReg) (nr : Nat) (nc : Nat) (tri : Bool) (kd : BindKind) (whole : Bool) (u : Nat) (z : Nat) (e : RBlk) (rq : List RRead) (rs : Map RReg),
      s.current (.rake k) 0x20 = some (w, x) ∧ y = x.rakeNow k ∧ r = y.rk k ∧ g = mget rregDflt r.regs (fld w 53 51)
      ∧ 0 < g.span ∧ (fld w 55 54 = 3 ∨ r.pending (fld w 57 56) < 2)
      ∧ y.usefulShape (4 * k.val + fld w 57 56) (fld w 50 47) = (nr, nc, tri)
      ∧ kd = (if fld w 55 54 = 0 then BindKind.promote else if fld w 55 54 = 1 then .save else if fld w 55 54 = 2 then .fill else .flush)
      ∧ whole = (kd == .save || kd == .fill) ∧ u = (if whole then 0 else usefulCount nr nc tri)
      ∧ z = (if whole then 521 else if u = 0 then 0 else 1 + (u + 3) / 4)
      ∧ e = { id := r.nextId, port := fld w 57 56, kind := kd, sigma := fld w 50 47, q := fld w 46 27, base := g.base, ptr := g.ptr, span := g.span, nr := nr, nc := nc, tri := tri, u := u, z := z, taken := kd == .flush, set := y.accSet }
      ∧ rq = (if kd = .save then [] else (List.range z).map (fun i => { blk := r.nextId, idx := i, addr := ringPlace g.base g.ptr g.span i }))
      ∧ rs = (if kd = .save then mset rregDflt r.regs (fld w 53 51) { g with ptr := (g.ptr + 521) % 2 ^ 33 } else r.regs)
      ∧ r.fault = false ∧ (kd ≠ .flush ∨ 0 < z) ∧ r.rq.length + rq.length ≤ 8192)
  ∧ (∃ (s : State) (k : Fin 64) (w : Word) (x : State) (y : State) (r : Rake) (g : RReg) (nr : Nat) (nc : Nat) (tri : Bool) (kd : BindKind) (whole : Bool) (u : Nat) (z : Nat) (e : RBlk) (rq : List RRead) (rs : Map RReg),
      s.current (.rake k) 0x20 = some (w, x) ∧ y = x.rakeNow k ∧ r = y.rk k ∧ g = mget rregDflt r.regs (fld w 53 51)
      ∧ 0 < g.span ∧ (fld w 55 54 = 3 ∨ r.pending (fld w 57 56) < 2)
      ∧ y.usefulShape (4 * k.val + fld w 57 56) (fld w 50 47) = (nr, nc, tri)
      ∧ kd = (if fld w 55 54 = 0 then BindKind.promote else if fld w 55 54 = 1 then .save else if fld w 55 54 = 2 then .fill else .flush)
      ∧ whole = (kd == .save || kd == .fill) ∧ u = (if whole then 0 else usefulCount nr nc tri)
      ∧ z = (if whole then 521 else if u = 0 then 0 else 1 + (u + 3) / 4)
      ∧ e = { id := r.nextId, port := fld w 57 56, kind := kd, sigma := fld w 50 47, q := fld w 46 27, base := g.base, ptr := g.ptr, span := g.span, nr := nr, nc := nc, tri := tri, u := u, z := z, taken := kd == .flush, set := y.accSet }
      ∧ rq = (if kd = .save then [] else (List.range z).map (fun i => { blk := r.nextId, idx := i, addr := ringPlace g.base g.ptr g.span i }))
      ∧ rs = (if kd = .save then mset rregDflt r.regs (fld w 53 51) { g with ptr := (g.ptr + 521) % 2 ^ 33 } else r.regs)
      ∧ r.fault = false ∧ (kd ≠ .flush ∨ 0 < z) ∧ r.rq.length + rq.length ≤ 8192)
  ∧ (∃ (s : State) (k : Fin 64) (w : Word) (x : State) (y : State) (r : Rake) (g : RReg) (nr : Nat) (nc : Nat) (tri : Bool) (kd : BindKind) (whole : Bool) (u : Nat) (z : Nat) (e : RBlk) (rq : List RRead) (rs : Map RReg),
      s.current (.rake k) 0x20 = some (w, x) ∧ y = x.rakeNow k ∧ r = y.rk k ∧ g = mget rregDflt r.regs (fld w 53 51)
      ∧ 0 < g.span ∧ (fld w 55 54 = 3 ∨ r.pending (fld w 57 56) < 2)
      ∧ y.usefulShape (4 * k.val + fld w 57 56) (fld w 50 47) = (nr, nc, tri)
      ∧ kd = (if fld w 55 54 = 0 then BindKind.promote else if fld w 55 54 = 1 then .save else if fld w 55 54 = 2 then .fill else .flush)
      ∧ whole = (kd == .save || kd == .fill) ∧ u = (if whole then 0 else usefulCount nr nc tri)
      ∧ z = (if whole then 521 else if u = 0 then 0 else 1 + (u + 3) / 4)
      ∧ e = { id := r.nextId, port := fld w 57 56, kind := kd, sigma := fld w 50 47, q := fld w 46 27, base := g.base, ptr := g.ptr, span := g.span, nr := nr, nc := nc, tri := tri, u := u, z := z, taken := kd == .flush, set := y.accSet }
      ∧ rq = (if kd = .save then [] else (List.range z).map (fun i => { blk := r.nextId, idx := i, addr := ringPlace g.base g.ptr g.span i }))
      ∧ rs = (if kd = .save then mset rregDflt r.regs (fld w 53 51) { g with ptr := (g.ptr + 521) % 2 ^ 33 } else r.regs)
      ∧ r.fault = false ∧ (kd ≠ .flush ∨ 0 < z) ∧ r.rq.length + rq.length ≤ 8192) :=
  ⟨⟨rakeAt, 63, 0x832F800000000000, rakeAt, _, _, _, 64, 64, false, _, _, _, _, _, _, _,
       (by first | decide +kernel | rfl), rfl, rfl, rfl, (by first | decide +kernel | rfl), (by first | decide +kernel | rfl), (by first | decide +kernel | rfl), rfl, rfl, rfl, rfl, rfl, rfl, rfl, (by first | decide +kernel | rfl), (by first | decide +kernel | rfl), (by first | decide +kernel | rfl)⟩,
   ⟨{ rakeAt with sched := { run := some 0, image0 := oneProg tyRake 63 0x8368000000000000 }, pans := { rake := [(63, { regs := [(5, { base := 64, span := 4000 })] })] } },
       63, 0x8368000000000000,
       { rakeAt with sched := { run := some 0, image0 := oneProg tyRake 63 0x8368000000000000 }, pans := { rake := [(63, { regs := [(5, { base := 64, span := 4000 })] })] } },
       _, _, _, 0, 0, true, _, _, _, _, _, _, _,
       (by first | decide +kernel | rfl), rfl, rfl, rfl, (by first | decide +kernel | rfl), (by first | decide +kernel | rfl), (by first | decide +kernel | rfl), rfl, rfl, rfl, rfl, rfl, rfl, rfl, (by first | decide +kernel | rfl), (by first | decide +kernel | rfl), (by first | decide +kernel | rfl)⟩,
   ⟨{ rakeAt with sched := { run := some 0, image0 := oneProg tyRake 63 0x83A8000000000000 }, pans := { rake := [(63, { regs := [(5, { base := 64, span := 4000 })] })] } },
       63, 0x83A8000000000000,
       { rakeAt with sched := { run := some 0, image0 := oneProg tyRake 63 0x83A8000000000000 }, pans := { rake := [(63, { regs := [(5, { base := 64, span := 4000 })] })] } },
       _, _, _, 0, 0, true, _, _, _, _, _, _, _,
       (by first | decide +kernel | rfl), rfl, rfl, rfl, (by first | decide +kernel | rfl), (by first | decide +kernel | rfl), (by first | decide +kernel | rfl), rfl, rfl, rfl, rfl, rfl, rfl, rfl, (by first | decide +kernel | rfl), (by first | decide +kernel | rfl), (by first | decide +kernel | rfl)⟩,
   ⟨{ rakeAt with sched := { run := some 0, image0 := oneProg tyRake 63 0x83EF800000000000 }, pans := { rake := [(63, { regs := [(5, { base := 64, span := 4000 })] })] } },
       63, 0x83EF800000000000,
       { rakeAt with sched := { run := some 0, image0 := oneProg tyRake 63 0x83EF800000000000 }, pans := { rake := [(63, { regs := [(5, { base := 64, span := 4000 })] })] } },
       _, _, _, 64, 64, false, _, _, _, _, _, _, _,
       (by first | decide +kernel | rfl), rfl, rfl, rfl, (by first | decide +kernel | rfl), (by first | decide +kernel | rfl), (by first | decide +kernel | rfl), rfl, rfl, rfl, rfl, rfl, rfl, rfl, (by first | decide +kernel | rfl), (by first | decide +kernel | rfl), (by first | decide +kernel | rfl)⟩⟩

/-- States and operands that meet the hypotheses of further clauses of `Obligations.RakesBindAndTransfer`. -/
theorem witness_RakesBindAndTransfer_2 :
  (∃ (s : State) (k : Fin 64) (w : Word) (x : State) (y : State) (r : Rake) (g : RReg) (nr : Nat) (nc : Nat) (tri : Bool) (kd : BindKind) (whole : Bool) (u : Nat) (z : Nat) (e : RBlk) (rq : List RRead) (rs : Map RReg),
      s.current (.rake k) 0x20 = some (w, x) ∧ y = x.rakeNow k ∧ r = y.rk k ∧ g = mget rregDflt r.regs (fld w 53 51)
      ∧ 0 < g.span ∧ (fld w 55 54 = 3 ∨ r.pending (fld w 57 56) < 2)
      ∧ y.usefulShape (4 * k.val + fld w 57 56) (fld w 50 47) = (nr, nc, tri)
      ∧ kd = (if fld w 55 54 = 0 then BindKind.promote else if fld w 55 54 = 1 then .save else if fld w 55 54 = 2 then .fill else .flush)
      ∧ whole = (kd == .save || kd == .fill) ∧ u = (if whole then 0 else usefulCount nr nc tri)
      ∧ z = (if whole then 521 else if u = 0 then 0 else 1 + (u + 3) / 4)
      ∧ e = { id := r.nextId, port := fld w 57 56, kind := kd, sigma := fld w 50 47, q := fld w 46 27, base := g.base, ptr := g.ptr, span := g.span, nr := nr, nc := nc, tri := tri, u := u, z := z, taken := kd == .flush, set := y.accSet }
      ∧ rq = (if kd = .save then [] else (List.range z).map (fun i => { blk := r.nextId, idx := i, addr := ringPlace g.base g.ptr g.span i }))
      ∧ rs = (if kd = .save then mset rregDflt r.regs (fld w 53 51) { g with ptr := (g.ptr + 521) % 2 ^ 33 } else r.regs)
      ∧ kd = .flush ∧ z = 0)
  ∧ (∃ (s : State) (k : Fin 64) (w : Word) (x : State) (y : State) (r : Rake) (g : RReg) (nr : Nat) (nc : Nat) (tri : Bool) (kd : BindKind) (whole : Bool) (u : Nat) (z : Nat) (e : RBlk) (rq : List RRead) (rs : Map RReg),
      s.current (.rake k) 0x20 = some (w, x) ∧ y = x.rakeNow k ∧ r = y.rk k ∧ g = mget rregDflt r.regs (fld w 53 51)
      ∧ 0 < g.span ∧ (fld w 55 54 = 3 ∨ r.pending (fld w 57 56) < 2)
      ∧ y.usefulShape (4 * k.val + fld w 57 56) (fld w 50 47) = (nr, nc, tri)
      ∧ kd = (if fld w 55 54 = 0 then BindKind.promote else if fld w 55 54 = 1 then .save else if fld w 55 54 = 2 then .fill else .flush)
      ∧ whole = (kd == .save || kd == .fill) ∧ u = (if whole then 0 else usefulCount nr nc tri)
      ∧ z = (if whole then 521 else if u = 0 then 0 else 1 + (u + 3) / 4)
      ∧ e = { id := r.nextId, port := fld w 57 56, kind := kd, sigma := fld w 50 47, q := fld w 46 27, base := g.base, ptr := g.ptr, span := g.span, nr := nr, nc := nc, tri := tri, u := u, z := z, taken := kd == .flush, set := y.accSet }
      ∧ rq = (if kd = .save then [] else (List.range z).map (fun i => { blk := r.nextId, idx := i, addr := ringPlace g.base g.ptr g.span i }))
      ∧ rs = (if kd = .save then mset rregDflt r.regs (fld w 53 51) { g with ptr := (g.ptr + 521) % 2 ^ 33 } else r.regs)
      ∧ r.fault = true ∧ (kd ≠ .flush ∨ 0 < z))
  ∧ (∃ (s : State) (k : Fin 64) (w : Word) (x : State) (y : State) (r : Rake) (g : RReg) (nr : Nat) (nc : Nat) (tri : Bool) (kd : BindKind) (whole : Bool) (u : Nat) (z : Nat) (e : RBlk) (rq : List RRead) (rs : Map RReg) (v : State),
      s.current (.rake k) 0x20 = some (w, x) ∧ y = x.rakeNow k ∧ r = y.rk k ∧ g = mget rregDflt r.regs (fld w 53 51)
      ∧ 0 < g.span ∧ (fld w 55 54 = 3 ∨ r.pending (fld w 57 56) < 2)
      ∧ y.usefulShape (4 * k.val + fld w 57 56) (fld w 50 47) = (nr, nc, tri)
      ∧ kd = (if fld w 55 54 = 0 then BindKind.promote else if fld w 55 54 = 1 then .save else if fld w 55 54 = 2 then .fill else .flush)
      ∧ whole = (kd == .save || kd == .fill) ∧ u = (if whole then 0 else usefulCount nr nc tri)
      ∧ z = (if whole then 521 else if u = 0 then 0 else 1 + (u + 3) / 4)
      ∧ e = { id := r.nextId, port := fld w 57 56, kind := kd, sigma := fld w 50 47, q := fld w 46 27, base := g.base, ptr := g.ptr, span := g.span, nr := nr, nc := nc, tri := tri, u := u, z := z, taken := kd == .flush, set := y.accSet }
      ∧ rq = (if kd = .save then [] else (List.range z).map (fun i => { blk := r.nextId, idx := i, addr := ringPlace g.base g.ptr g.span i }))
      ∧ rs = (if kd = .save then mset rregDflt r.regs (fld w 53 51) { g with ptr := (g.ptr + 521) % 2 ^ 33 } else r.regs)
      ∧ r.fault = false ∧ 8192 < r.rq.length + rq.length
      ∧ v = y.setRk k { r with nextId := r.nextId + 1, regs := rs, blks := (r.blks ++ [e]).filter (fun b => b.stream.isNone && b.kind != .flush), rq := [], fault := true, lostAll := true })
  ∧ (∃ (s : State) (k : Fin 64) (w : Word) (x : State) (y : State) (r : Rake) (g : RReg) (z : State),
      s.current (.rake k) 0x20 = some (w, x) ∧ y = x.rakeNow k ∧ r = y.rk k ∧ g = mget rregDflt r.regs (fld w 53 51)
      ∧ (g.span = 0 ∨ (fld w 55 54 ≠ 3 ∧ 2 ≤ r.pending (fld w 57 56))) ∧ z = y.illegal (.rake k))
  ∧ (∃ (s : State) (k : Fin 64), s.current (.rake k) 0x20 = none)
  ∧ (∃ (s : State) (k : Fin 64) (w : Word) (y : State) (g : RReg) (g1 : RReg), s.current (.rake k) 0x21 = some (w, y)
      ∧ fld w 57 55 = 7 ∧ g = mget rregDflt (y.rk k).regs (fld w 57 55)
      ∧ g1 = (if fld w 54 53 = 0 then { g with base := fld w 52 20, ptr := 0 } else if fld w 54 53 = 1 then { g with span := fld w 52 20 } else { g with ptr := fld w 52 20 }))
  ∧ (∃ (s : State) (k : Fin 64) (w : Word) (y : State) (g : RReg) (g1 : RReg), s.current (.rake k) 0x21 = some (w, y)
      ∧ fld w 57 55 ≠ 7 ∧ g = mget rregDflt (y.rk k).regs (fld w 57 55)
      ∧ g1 = (if fld w 54 53 = 0 then { g with base := fld w 52 20, ptr := 0 } else if fld w 54 53 = 1 then { g with span := fld w 52 20 } else { g with ptr := fld w 52 20 }))
  ∧ (∃ (s : State) (k : Fin 64), s.current (.rake k) 0x21 = none)
  ∧ (∃ (s : State) (k : Fin 64) (w : Word) (x : State) (y : State) (a : Nat) (z : State), s.current (.rake k) 0x22 = some (w, x)
      ∧ y = x.rakeNow k ∧ a = (y.rk k).seq.at_ ∧ 16 ≤ a % 256 ∧ z = y.illegal (.rake k)) :=
  ⟨⟨rakeNone, 63, 0x83E8000000000000, rakeNone, _, _, _, 0, 0, true, _, _, _, _, _, _, _,
       (by first | decide +kernel | rfl), rfl, rfl, rfl, (by first | decide +kernel | rfl), (by first | decide +kernel | rfl), (by first | decide +kernel | rfl), rfl, rfl, rfl, rfl, rfl, rfl, rfl, (by first | decide +kernel | rfl), (by first | decide +kernel | rfl)⟩,
   ⟨{ rakeAt with sched := { run := some 0, image0 := oneProg tyRake 63 0x832F800000000000 }, pans := { rake := [(63, { regs := [(5, { base := 64, span := 4000 })], fault := true })] } },
       63, 0x832F800000000000,
       { rakeAt with sched := { run := some 0, image0 := oneProg tyRake 63 0x832F800000000000 }, pans := { rake := [(63, { regs := [(5, { base := 64, span := 4000 })], fault := true })] } },
       _, _, _, 64, 64, false, _, _, _, _, _, _, _,
       (by first | decide +kernel | rfl), rfl, rfl, rfl, (by first | decide +kernel | rfl), (by first | decide +kernel | rfl), (by first | decide +kernel | rfl), rfl, rfl, rfl, rfl, rfl, rfl, rfl, (by first | decide +kernel | rfl), (by first | decide +kernel | rfl)⟩,
   ⟨{ rakeAt with sched := { run := some 0, image0 := oneProg tyRake 63 0x832F800000000000 }, pans := { rake := [(63, { regs := [(5, { base := 64, span := 4000 })], rq := List.replicate 8000 { blk := 9, idx := 0, addr := 0 } })] } },
       63, 0x832F800000000000,
       { rakeAt with sched := { run := some 0, image0 := oneProg tyRake 63 0x832F800000000000 }, pans := { rake := [(63, { regs := [(5, { base := 64, span := 4000 })], rq := List.replicate 8000 { blk := 9, idx := 0, addr := 0 } })] } },
       _, _, _, 64, 64, false, _, _, _, _, _, _, _, _,
       (by first | decide +kernel | rfl), rfl, rfl, rfl, (by first | decide +kernel | rfl), (by first | decide +kernel | rfl), (by first | decide +kernel | rfl), rfl, rfl, rfl, rfl, rfl, rfl, rfl, (by first | decide +kernel | rfl), (by first | decide +kernel | rfl), rfl⟩,
   ⟨runs tyRake 63 0x80C7800000000000, 63, 0x80C7800000000000, runs tyRake 63 0x80C7800000000000, _, _, _, _,
       (by first | decide +kernel | rfl), rfl, rfl, rfl, (by first | decide +kernel | rfl), rfl⟩,
   ⟨up, 63, by decide +kernel⟩,
   ⟨runs tyRake 63 0x87C0000000500000, 63, 0x87C0000000500000, runs tyRake 63 0x87C0000000500000, _, _,
       (by first | decide +kernel | rfl), (by first | decide +kernel | rfl), rfl, rfl⟩,
   ⟨runs tyRake 63 0x8720000000500000, 63, 0x8720000000500000, runs tyRake 63 0x8720000000500000, _, _,
       (by first | decide +kernel | rfl), (by first | decide +kernel | rfl), rfl, rfl⟩,
   ⟨up, 63, by decide +kernel⟩,
   ⟨{ runs tyRake 63 0x8804000000000000 with pans := { rake := [(63, { seq := { at_ := 16 } })] }, time := { pos := 16 } },
       63, 0x8804000000000000,
       { runs tyRake 63 0x8804000000000000 with pans := { rake := [(63, { seq := { at_ := 16 } })] }, time := { pos := 16 } },
       _, _, _, (by first | decide +kernel | rfl), rfl, rfl, (by first | decide +kernel | rfl), rfl⟩⟩

/-- States and operands that meet the hypotheses of further clauses of `Obligations.RakesBindAndTransfer`. -/
theorem witness_RakesBindAndTransfer_3 :
  (∃ (s : State) (k : Fin 64) (w : Word) (x : State) (y : State) (a : Nat), s.current (.rake k) 0x22 = some (w, x)
      ∧ y = x.rakeNow k ∧ a = (y.rk k).seq.at_ ∧ a % 256 < 16 ∧ (y.rk k).fault = true)
  ∧ (∃ (s : State) (k : Fin 64) (w : Word) (x : State) (y : State) (a : Nat) (z : State), s.current (.rake k) 0x22 = some (w, x)
      ∧ y = x.rakeNow k ∧ a = (y.rk k).seq.at_ ∧ a % 256 < 16 ∧ (y.rk k).fault = false ∧ bit w 57 = true
      ∧ z = y.takeWrites k a (fld w 56 50))
  ∧ (∃ (s : State) (k : Fin 64) (w : Word) (x : State) (y : State) (a : Nat) (z : State), s.current (.rake k) 0x22 = some (w, x)
      ∧ y = x.rakeNow k ∧ a = (y.rk k).seq.at_ ∧ a % 256 < 16 ∧ (y.rk k).fault = false ∧ bit w 57 = false
      ∧ z = y.takeReads k a (fld w 56 50))
  ∧ (∃ (s : State) (k : Fin 64) (w : Word) (x : State) (y : State) (a : Nat) (v : RWrite) (rest : List RWrite) (z : State),
      s.current (.rake k) 0x22 = some (w, x) ∧ y = x.rakeNow k ∧ a = (y.rk k).seq.at_ ∧ a % 256 < 16 ∧ (y.rk k).fault = false
      ∧ fld w 56 50 = 1 ∧ bit w 57 = true ∧ (y.rk k).wq = v :: rest
      ∧ v.ready ≤ y.slotH0 a + 3 * (20 + 2 * y.rakeRank k v.addr true)
      ∧ z = (y.setRk k { y.rk k with wq := rest }).ask { owner := 1024 + k, now := true, write := true, addr := v.addr, data := v.data, dest := (match v.header with | some n => .dumpHeader k v.addr n | none => .rakeWrite k) })
  ∧ (∃ (s : State) (k : Fin 64) (w : Word) (x : State) (y : State) (a : Nat) (v : RWrite) (rest : List RWrite),
      s.current (.rake k) 0x22 = some (w, x) ∧ y = x.rakeNow k ∧ a = (y.rk k).seq.at_ ∧ a % 256 < 16 ∧ (y.rk k).fault = false
      ∧ bit w 57 = true ∧ (y.rk k).wq = v :: rest ∧ y.slotH0 a + 3 * (20 + 2 * y.rakeRank k v.addr true) < v.ready)
  ∧ (∃ (s : State) (k : Fin 64) (w : Word) (x : State) (y : State) (a : Nat), s.current (.rake k) 0x22 = some (w, x)
      ∧ y = x.rakeNow k ∧ a = (y.rk k).seq.at_ ∧ a % 256 < 16 ∧ (y.rk k).fault = false
      ∧ (if bit w 57 then (y.rk k).wq.isEmpty else (y.rk k).rq.isEmpty) = true)
  ∧ (∃ (s : State) (k : Fin 64) (w : Word) (x : State) (y : State) (a : Nat) (v : RRead) (rest : List RRead),
      s.current (.rake k) 0x22 = some (w, x) ∧ y = x.rakeNow k ∧ a = (y.rk k).seq.at_ ∧ a % 256 < 16 ∧ (y.rk k).fault = false
      ∧ bit w 57 = false ∧ (y.rk k).rq = v :: rest ∧ (y.rk k).readHeld v = true)
  ∧ (∃ (s : State) (k : Fin 64) (w : Word) (x : State) (y : State) (a : Nat) (v : RRead) (rest : List RRead) (z : State),
      s.current (.rake k) 0x22 = some (w, x) ∧ y = x.rakeNow k ∧ a = (y.rk k).seq.at_ ∧ a % 256 < 16 ∧ (y.rk k).fault = false
      ∧ bit w 57 = false ∧ (y.rk k).rq = v :: rest ∧ fld w 56 50 = 1 ∧ (y.rk k).readHeld v = false
      ∧ (y.rk k).wq.all (fun q => q.addr != v.addr * 64) = true
      ∧ z = (y.setRk k { y.rk k with rq := rest, blks := (y.rk k).blks.map fun b => if b.id = v.blk then { b with asked := b.asked + 1 } else b }).ask { owner := 1024 + k, now := true, write := false, addr := v.addr * 64, data := [], dest := .rake k v.blk v.idx }) :=
  ⟨⟨{ runs tyRake 63 0x8804000000000000 with pans := { rake := [(63, { fault := true })] } }, 63, 0x8804000000000000,
       { runs tyRake 63 0x8804000000000000 with pans := { rake := [(63, { fault := true })] } }, _, _,
       (by first | decide +kernel | rfl), rfl, rfl, (by first | decide +kernel | rfl), (by first | decide +kernel | rfl)⟩,
   ⟨{ runs tyRake 63 0x8A04000000000000 with pans := { rake := [(63, { wq := [{ addr := 128, data := List.replicate 64 1, header := none, ready := 0 }] })] } },
       63, 0x8A04000000000000,
       { runs tyRake 63 0x8A04000000000000 with pans := { rake := [(63, { wq := [{ addr := 128, data := List.replicate 64 1, header := none, ready := 0 }] })] } },
       _, _, _,
       (by first | decide +kernel | rfl), rfl, rfl, (by first | decide +kernel | rfl), (by first | decide +kernel | rfl), (by first | decide +kernel | rfl), rfl⟩,
   ⟨{ runs tyRake 63 0x8804000000000000 with pans := { rake := [(63, {  })] } }, 63, 0x8804000000000000,
       { runs tyRake 63 0x8804000000000000 with pans := { rake := [(63, {  })] } }, _, _, _,
       (by first | decide +kernel | rfl), rfl, rfl, (by first | decide +kernel | rfl), (by first | decide +kernel | rfl), (by first | decide +kernel | rfl), rfl⟩,
   ⟨{ runs tyRake 63 0x8A04000000000000 with pans := { rake := [(63, { wq := [{ addr := 128, data := List.replicate 64 1, header := none, ready := 0 }] })] } },
       63, 0x8A04000000000000,
       { runs tyRake 63 0x8A04000000000000 with pans := { rake := [(63, { wq := [{ addr := 128, data := List.replicate 64 1, header := none, ready := 0 }] })] } },
       _, _, { addr := 128, data := List.replicate 64 1, header := none, ready := 0 }, [], _,
       (by first | decide +kernel | rfl), rfl, rfl, (by first | decide +kernel | rfl), (by first | decide +kernel | rfl), (by first | decide +kernel | rfl), (by first | decide +kernel | rfl), (by first | decide +kernel | rfl), (by first | decide +kernel | rfl), rfl⟩,
   ⟨{ runs tyRake 63 0x8A04000000000000 with pans := { rake := [(63, { wq := [{ addr := 128, data := List.replicate 64 1, header := none, ready := 61 }] })] } },
       63, 0x8A04000000000000,
       { runs tyRake 63 0x8A04000000000000 with pans := { rake := [(63, { wq := [{ addr := 128, data := List.replicate 64 1, header := none, ready := 61 }] })] } },
       _, _, { addr := 128, data := List.replicate 64 1, header := none, ready := 61 }, [],
       (by first | decide +kernel | rfl), rfl, rfl, (by first | decide +kernel | rfl), (by first | decide +kernel | rfl), (by first | decide +kernel | rfl), (by first | decide +kernel | rfl), (by first | decide +kernel | rfl)⟩,
   ⟨{ runs tyRake 63 0x8804000000000000 with pans := { rake := [(63, {  })] } }, 63, 0x8804000000000000,
       { runs tyRake 63 0x8804000000000000 with pans := { rake := [(63, {  })] } }, _, _,
       (by first | decide +kernel | rfl), rfl, rfl, (by first | decide +kernel | rfl), (by first | decide +kernel | rfl), (by first | decide +kernel | rfl)⟩,
   ⟨{ runs tyRake 63 0x8804000000000000 with pans := { rake := [(63, { rq := [{ blk := 4, idx := 3, addr := 9 }], blks := [{ saveBlk with kind := .fill, taken := false, stream := none, arrived := 0, id := 4 }, { saveBlk with kind := .fill, taken := false, stream := none, arrived := 0 }] })] } },
       63, 0x8804000000000000,
       { runs tyRake 63 0x8804000000000000 with pans := { rake := [(63, { rq := [{ blk := 4, idx := 3, addr := 9 }], blks := [{ saveBlk with kind := .fill, taken := false, stream := none, arrived := 0, id := 4 }, { saveBlk with kind := .fill, taken := false, stream := none, arrived := 0 }] })] } },
       _, _, { blk := 4, idx := 3, addr := 9 }, [],
       (by first | decide +kernel | rfl), rfl, rfl, (by first | decide +kernel | rfl), (by first | decide +kernel | rfl), (by first | decide +kernel | rfl), (by first | decide +kernel | rfl), (by first | decide +kernel | rfl)⟩,
   ⟨{ runs tyRake 63 0x8804000000000000 with pans := { rake := [(63, { rq := [{ blk := 0, idx := 3, addr := 9 }], blks := [{ saveBlk with kind := .fill, taken := false, stream := none, arrived := 0 }] })] } },
       63, 0x8804000000000000,
       { runs tyRake 63 0x8804000000000000 with pans := { rake := [(63, { rq := [{ blk := 0, idx := 3, addr := 9 }], blks := [{ saveBlk with kind := .fill, taken := false, stream := none, arrived := 0 }] })] } },
       _, _, { blk := 0, idx := 3, addr := 9 }, [], _,
       (by first | decide +kernel | rfl), rfl, rfl, (by first | decide +kernel | rfl), (by first | decide +kernel | rfl), (by first | decide +kernel | rfl), (by first | decide +kernel | rfl), (by first | decide +kernel | rfl), (by first | decide +kernel | rfl), (by first | decide +kernel | rfl), rfl⟩⟩

/-- States and operands that meet the hypotheses of further clauses of `Obligations.RakesBindAndTransfer`. -/
theorem witness_RakesBindAndTransfer_4 :
  (∃ (s : State) (k : Fin 64) (w : Word) (x : State) (y : State) (a : Nat) (v : RRead) (rest : List RRead) (q : RWrite) (z : State),
      s.current (.rake k) 0x22 = some (w, x) ∧ y = x.rakeNow k ∧ a = (y.rk k).seq.at_ ∧ a % 256 < 16 ∧ (y.rk k).fault = false
      ∧ bit w 57 = false ∧ (y.rk k).rq = v :: rest ∧ fld w 56 50 = 1 ∧ (y.rk k).readHeld v = false ∧ (y.rk k).wq = [q]
      ∧ q.addr = v.addr * 64
      ∧ z = (y.setRk k { y.rk k with rq := rest, blks := (y.rk k).blks.map fun b => if b.id = v.blk then { b with asked := b.asked + 1 } else b }).rakeGot k v.blk v.idx (max q.ready (y.slotH0 a + 3 * (27 + 2 * y.rakeRank k (v.addr * 64) false))) q.data false)
  ∧ (∃ (s : State) (k : Fin 64), s.current (.rake k) 0x22 = none)
  ∧ (∃ (s : State) (k : Fin 64) (n : Fin 4) (h : Nat), s.portStream k n = some h)
  ∧ (∃ (s : State) (k : Fin 64) (n : Fin 4) (h : Nat), s.portStream k n = some h)
  ∧ (∃ (s : State) (k : Fin 64) (n : Fin 4) (r : Rake) (e : RBlk) (st : Stream) (i : Intake), s.dma = {} ∧ s.net.port = []
      ∧ s.links = {} ∧ s.pans = { rake := [(k.val, r)] } ∧ r.land = [] ∧ r.streams = [(n.val, st)] ∧ st.next = 4098
      ∧ st.bank = none ∧ st.blk = some e.id ∧ r.blks = [e] ∧ e.stream = some i ∧ st.first + 3 * 4098 ≤ 2 * s.imgNow + 1
      ∧ e.kind = .save ∧ e.resv = 0)
  ∧ (∃ (s : State) (k : Fin 64) (n : Fin 4) (r : Rake) (e : RBlk) (st : Stream) (i : Intake) (e1 : RBlk) (d : DumpCfg),
      s.dma = {} ∧ s.net.port = [] ∧ s.links = {} ∧ s.pans = { rake := [(k.val, r)] } ∧ r.land = []
      ∧ r.streams = [(n.val, st)] ∧ st.next = 4098 ∧ st.bank = none ∧ st.blk = some e.id ∧ r.blks = [e] ∧ e.stream = some i
      ∧ st.first + 3 * 4098 ≤ 2 * s.imgNow + 1 ∧ e.kind = .promote ∧ e.action = some .add ∧ e.runs = [] ∧ e.out = []
      ∧ e.dump = none ∧ 0 < e.z
      ∧ e1 = { e with arrived := 4099, ended := true, stream := some { i with trailer := { i.trailer with zcol := 0 } } }
      ∧ d = (s.setRk k { r with streams := [], blks := [e1] }).dumpCfg k e1)
  ∧ (∃ (s : State) (k : Fin 64) (n : Fin 4) (e : RBlk) (v : State), s.portStream k n = none
      ∧ ((s.rk k).blks.find? (fun b => b.port = n.val ∧ b.taken = false ∧ (b.kind = .promote ∨ b.kind = .save)) = some e)
      ∧ v = s.setRk k { s.rk k with streams := (s.rk k).streams ++ [(n.val, { first := 2 * s.imgNow - 3 * 4098, save := e.kind == .save, bank := none, early := false })] })
  ∧ (∃ (s : State) (k : Fin 64) (n : Fin 4), s.portStream k n = none
      ∧ ((s.rk k).blks.find? (fun b => b.port = n.val ∧ b.taken = false ∧ (b.kind = .promote ∨ b.kind = .save)) = none))
  ∧ (∃ (s : State) (p : Producer) (x : Nat × Nat × Nat) (y : State), s.pans.blocks.find? (fun y => y.1 = p.code) = some x
      ∧ y = { s with pans := { s.pans with blocks := s.pans.blocks.erase x } })
  ∧ (∃ (s : State) (p : Producer) (x : Nat × Nat × Nat) (y : State), s.pans.blocks.find? (fun y => y.1 = p.code) = some x
      ∧ y = { s with pans := { s.pans with blocks := s.pans.blocks.erase x } })
  ∧ (∃ (s : State) (p : Producer) (x : Nat × Nat × Nat), s.pans.blocks.find? (fun y => y.1 = p.code) = some x
      ∧ (List.range 512).all (fun i => !(bit (s.rd R.OUT_SRC (i / 16) (i % 16)) 7 && 64 * fld (s.rd R.OUT_SRC (i / 16) (i % 16)) 15 14 + fld (s.rd R.OUT_SRC (i / 16) (i % 16)) 13 8 == p.code)) = true
      ∧ (List.range 32).all (fun e => (s.port e).order.isEmpty) = true)
  ∧ (∃ (s : State) (p : Producer) (x : Nat × Nat × Nat) (e : Fin 32) (k : Fin 16) (o : Fragment),
      s.pans.blocks.find? (fun y => y.1 = p.code) = some x
      ∧ (List.range 512).filter (fun i => bit (s.rd R.OUT_SRC (i / 16) (i % 16)) 7 && 64 * fld (s.rd R.OUT_SRC (i / 16) (i % 16)) 15 14 + fld (s.rd R.OUT_SRC (i / 16) (i % 16)) 13 8 == p.code) = [16 * e.val + k.val]
      ∧ (List.range 32).all (fun j => (s.port j).order.isEmpty) = true ∧ (s.port e).reading = some o) :=
  ⟨⟨{ runs tyRake 63 0x8804000000000000 with pans := { rake := [(63, { rq := [{ blk := 0, idx := 3, addr := 9 }], blks := [{ saveBlk with kind := .fill, taken := false, stream := none, arrived := 0 }], wq := [{ addr := 576, data := List.replicate 64 1, header := none, ready := 0 }] })] } },
       63, 0x8804000000000000,
       { runs tyRake 63 0x8804000000000000 with pans := { rake := [(63, { rq := [{ blk := 0, idx := 3, addr := 9 }], blks := [{ saveBlk with kind := .fill, taken := false, stream := none, arrived := 0 }], wq := [{ addr := 576, data := List.replicate 64 1, header := none, ready := 0 }] })] } },
       _, _, { blk := 0, idx := 3, addr := 9 }, [],
       { addr := 576, data := List.replicate 64 1, header := none, ready := 0 }, _,
       (by first | decide +kernel | rfl), rfl, rfl, (by first | decide +kernel | rfl), (by first | decide +kernel | rfl), (by first | decide +kernel | rfl), (by first | decide +kernel | rfl), (by first | decide +kernel | rfl), (by first | decide +kernel | rfl), (by first | decide +kernel | rfl), (by first | decide +kernel | rfl), rfl⟩,
   ⟨up, 63, by decide +kernel⟩,
   ⟨rakeEnd 6148, 63, 3, 12296, by decide +kernel⟩,
   ⟨rakeEnd 100, 63, 3, 12296, by decide +kernel⟩,
   ⟨rakeEnd 6148, 63, 3, { blks := [saveBlk], streams := [(3, lastEntry)] }, saveBlk, lastEntry,
       { save := true, tide := 0, epoch := 0, early := false }, by decide +kernel⟩,
   ⟨{ rakeEnd 6148 with pans := { rake := [(63, { blks := [{ saveBlk with kind := .promote, z := 1, action := some .add }], streams := [(3, lastEntry)] })] } },
       63, 3,
       { blks := [{ saveBlk with kind := .promote, z := 1, action := some .add }], streams := [(3, lastEntry)] },
       { saveBlk with kind := .promote, z := 1, action := some .add }, lastEntry,
       { save := true, tide := 0, epoch := 0, early := false }, _, _,
       (by first | decide +kernel | rfl), (by first | decide +kernel | rfl), (by first | decide +kernel | rfl), (by first | decide +kernel | rfl), (by first | decide +kernel | rfl), (by first | decide +kernel | rfl), (by first | decide +kernel | rfl), (by first | decide +kernel | rfl), (by first | decide +kernel | rfl), (by first | decide +kernel | rfl), (by first | decide +kernel | rfl), (by first | decide +kernel | rfl), (by first | decide +kernel | rfl), (by first | decide +kernel | rfl), (by first | decide +kernel | rfl), (by first | decide +kernel | rfl), (by first | decide +kernel | rfl), (by first | decide +kernel | rfl), rfl, rfl⟩,
   ⟨{ up with time := { pos := 7000 }, pans := { rake := [(63, { blks := [{ saveBlk with taken := false, stream := none, arrived := 0 }] })] } },
       63, 3, { saveBlk with taken := false, stream := none, arrived := 0 }, _,
       (by first | decide +kernel | rfl), (by first | decide +kernel | rfl), rfl⟩,
   ⟨up, 63, 3, by decide +kernel⟩,
   ⟨{ up with pans := { blocks := [(1, 0, 64), (143, 64, 192), (143, 256, 192)] } }, .resample 15, (143, 64, 192), _,
       (by first | decide +kernel | rfl), rfl⟩,
   ⟨{ up with pans := { blocks := [(3, 64, 192)] } }, .dump 3, (3, 64, 192), _, (by first | decide +kernel | rfl), rfl⟩,
   ⟨{ up with pans := { blocks := [(1, 0, 64), (143, 64, 192), (143, 256, 192)] } }, .resample 15, (143, 64, 192),
       by decide +kernel⟩,
   ⟨{ up with regs := [(R.OUT_SRC.key 31 15, 0x4F80)], pans := { blocks := [(79, 64, 192)] }, net := { port := [(31, { reading := some { block := { src := 0, seq := 0, addr := 0, len := 64, kind := 1 }, size := 64, frag := 0, ofs := 0, len := 64, hdr := [], parts := [], left := 1, poison := false } })] } },
       .voltage 15, (79, 64, 192), 31, 15,
       { block := { src := 0, seq := 0, addr := 0, len := 64, kind := 1 }, size := 64, frag := 0, ofs := 0, len := 64, hdr := [], parts := [], left := 1, poison := false },
       by decide +kernel⟩⟩

/-- States and operands that meet the hypotheses of further clauses of `Obligations.RakesBindAndTransfer`. -/
theorem witness_RakesBindAndTransfer_5 :
  (∃ (s : State) (p : Producer), s.pans.blocks.find? (fun y => y.1 = p.code) = none) :=
  ⟨up, .dump 63, by decide +kernel⟩

/-- States and operands that meet the hypotheses of each clause of `Obligations.BeamWeightsAndResampling`. -/
theorem witness_BeamWeightsAndResampling :
  (∃ (s : State) (a : Agent) (v : Word), s.accepts a 0x30 R.WT_SEL.off (setBit v 0) = true)
  ∧ (∃ (s : State) (u : Fin 256) (n : Nat) (nu : Nat) (w : Word) (r : Nat) (c : Nat), opWord (s.sluProg u) 5 = some w
      ∧ s.rsRow u = some r ∧ (s.sluUnit u).bad = false ∧ nu < s.chanC
      ∧ mget (fun _ => 0) s.slu.rsDone (4096 * u.val + nu) ≤ n
      ∧ (List.range (s.rsSlots u)).all (fun m => (s.rsTap u m nu (shrEven (n * fld w 47 0 : Nat) 20 / 4096 + 8)).isSome) = true
      ∧ c = (if s.rdf R.BF_RS (16 * r) 5 4 = 1 then 1 else 3) ∧ (s.bm r).buf + c ≤ 256 ∧ 0 < (s.rd R.RS_SPAN (16 * r)).toNat)
  ∧ (∃ (s : State) (u : Fin 256) (n : Nat) (nu : Nat) (w : Word) (r : Nat) (c : Nat), opWord (s.sluProg u) 5 = some w
      ∧ s.rsRow u = some r ∧ (s.sluUnit u).bad = false ∧ nu < s.chanC
      ∧ mget (fun _ => 0) s.slu.rsDone (4096 * u.val + nu) ≤ n
      ∧ (List.range (s.rsSlots u)).all (fun m => (s.rsTap u m nu (shrEven (n * fld w 47 0 : Nat) 20 / 4096 + 8)).isSome) = true
      ∧ c = (if s.rdf R.BF_RS (16 * r) 5 4 = 1 then 1 else 3) ∧ (s.bm r).buf + c ≤ 256 ∧ s.rd R.RS_SPAN (16 * r) = 0)
  ∧ (∃ (s : State) (u : Fin 256) (n : Nat) (nu : Nat) (w : Word) (r : Nat) (c : Nat), opWord (s.sluProg u) 5 = some w
      ∧ s.rsRow u = some r ∧ (s.sluUnit u).bad = false ∧ nu < s.chanC
      ∧ mget (fun _ => 0) s.slu.rsDone (4096 * u.val + nu) ≤ n
      ∧ (List.range (s.rsSlots u)).all (fun m => (s.rsTap u m nu (shrEven (n * fld w 47 0 : Nat) 20 / 4096 + 8)).isSome) = true
      ∧ c = (if s.rdf R.BF_RS (16 * r) 5 4 = 1 then 1 else 3) ∧ 256 < (s.bm r).buf + c)
  ∧ (∃ (s : State) (u : Fin 256) (n : Nat) (nu : Nat) (w : Word) (r : Nat) (c : Nat), opWord (s.sluProg u) 5 = some w
      ∧ s.rsRow u = some r ∧ (s.sluUnit u).bad = false ∧ nu < s.chanC
      ∧ mget (fun _ => 0) s.slu.rsDone (4096 * u.val + nu) ≤ n
      ∧ (List.range (s.rsSlots u)).all (fun m => (s.rsTap u m nu (shrEven (n * fld w 47 0 : Nat) 20 / 4096 + 8)).isSome) = true
      ∧ c = (if s.rdf R.BF_RS (16 * r) 5 4 = 1 then 1 else 3) ∧ 256 < (s.bm r).buf + c)
  ∧ (∃ (s : State) (u : Fin 256) (n : Nat) (nu : Nat),
      (opWord (s.sluProg u) 5 = none ∨ s.rsRow u = none ∨ (s.sluUnit u).bad = true ∨ s.chanC ≤ nu ∨ n < mget (fun _ => 0) s.slu.rsDone (4096 * u.val + nu)))
  ∧ (∃ (s : State) (u : Fin 256) (n : Nat) (nu : Nat),
      (opWord (s.sluProg u) 5 = none ∨ s.rsRow u = none ∨ (s.sluUnit u).bad = true ∨ s.chanC ≤ nu ∨ n < mget (fun _ => 0) s.slu.rsDone (4096 * u.val + nu)))
  ∧ (∃ (s : State) (u : Fin 256) (n : Nat) (nu : Nat) (w : Word), opWord (s.sluProg u) 5 = some w
      ∧ (List.range (s.rsSlots u)).all (fun m => (s.rsTap u m nu (shrEven (n * fld w 47 0 : Nat) 20 / 4096 + 8)).isSome) = false) :=
  ⟨⟨{ up with regs := hostOn 0x30 15 }, .host, 2, by decide +kernel⟩,
   ⟨rsAt 0, 3, 0, 0, 0x5000000100000000, 2, 1, by decide +kernel⟩,
   ⟨{ rsAt 0 with regs := [(R.BF_RS.key 32, 0x0018), (R.RS_PTR.key 32, 99)] }, 3, 0, 0, 0x5000000100000000, 2, 1,
       by decide +kernel⟩,
   ⟨rsAt 256, 3, 0, 0, 0x5000000100000000, 2, 1, by decide +kernel⟩,
   ⟨{ rsAt 256 with pans := { row := [(2, { buf := 256 })] } }, 3, 0, 0, 0x5000000100000000, 2, 1, by decide +kernel⟩,
   ⟨up, 3, 1, 0, by decide +kernel⟩,
   ⟨rsAt 0, 3, 1, 70000, by decide +kernel⟩,
   ⟨rsAt 0, 3, 1, 0, 0x5000000100000000, by decide +kernel⟩⟩

/-- States and operands that meet the hypotheses of the first clauses of `Obligations.PortsTakeFrames`. -/
theorem witness_PortsTakeFrames :
  (∃ (s : State) (e : Fin 32) (eee : Bool), s.ethState e = 1 ∧ s.rdb R.ETH_STAT e 13 = false)
  ∧ (∃ (s : State) (e : Fin 32) (eee : Bool), (s.ethState e ≠ 1 ∨ s.rdb R.ETH_STAT e 13 = true))
  ∧ (∃ (s : State) (e : Fin 32), s.ethState e = 3)
  ∧ (∃ (s : State) (e : Fin 32), s.ethState e ≠ 3)
  ∧ (∃ (s : State) (e : Fin 32) (x : List Byte) (o : FrameObs) (y : State), s.ethState e = 3
      ∧ y = (if s.rdb R.ETH_STAT e 12 then ((s.count R.FEC_CORR e o.corrected.toNat).count R.FEC_UNCORR e o.uncorrectable.toNat).wrb R.ETH_STAT e 12 false else (s.count R.FEC_CORR e o.corrected.toNat).count R.FEC_UNCORR e o.uncorrectable.toNat)
      ∧ 262144 < (y.port e).stage + y.ethMax e)
  ∧ (∃ (s : State) (e : Fin 32) (x : List Byte) (o : FrameObs) (y : State), s.ethState e = 3
      ∧ y = (if s.rdb R.ETH_STAT e 12 then ((s.count R.FEC_CORR e o.corrected.toNat).count R.FEC_UNCORR e o.uncorrectable.toNat).wrb R.ETH_STAT e 12 false else (s.count R.FEC_CORR e o.corrected.toNat).count R.FEC_UNCORR e o.uncorrectable.toNat)
      ∧ (y.port e).stage + y.ethMax e ≤ 262144 ∧ (o.codeErr = true ∨ o.uncorrectable ≠ 0))
  ∧ (∃ (s : State) (e : Fin 32) (x : List Byte) (o : FrameObs) (y : State), s.ethState e = 3
      ∧ y = (if s.rdb R.ETH_STAT e 12 then ((s.count R.FEC_CORR e o.corrected.toNat).count R.FEC_UNCORR e o.uncorrectable.toNat).wrb R.ETH_STAT e 12 false else (s.count R.FEC_CORR e o.corrected.toNat).count R.FEC_UNCORR e o.uncorrectable.toNat)
      ∧ (y.port e).stage + y.ethMax e ≤ 262144 ∧ o.codeErr = false ∧ o.uncorrectable = 0 ∧ x.length < 64)
  ∧ (∃ (s : State) (e : Fin 32) (x : List Byte) (o : FrameObs) (y : State), s.ethState e = 3
      ∧ y = (if s.rdb R.ETH_STAT e 12 then ((s.count R.FEC_CORR e o.corrected.toNat).count R.FEC_UNCORR e o.uncorrectable.toNat).wrb R.ETH_STAT e 12 false else (s.count R.FEC_CORR e o.corrected.toNat).count R.FEC_UNCORR e o.uncorrectable.toNat)
      ∧ (y.port e).stage + y.ethMax e ≤ 262144 ∧ o.codeErr = false ∧ o.uncorrectable = 0 ∧ 64 ≤ x.length
      ∧ y.ethMax e < x.length)
  ∧ (∃ (s : State) (e : Fin 32) (x : List Byte) (o : FrameObs) (y : State), s.ethState e = 3
      ∧ y = (if s.rdb R.ETH_STAT e 12 then ((s.count R.FEC_CORR e o.corrected.toNat).count R.FEC_UNCORR e o.uncorrectable.toNat).wrb R.ETH_STAT e 12 false else (s.count R.FEC_CORR e o.corrected.toNat).count R.FEC_UNCORR e o.uncorrectable.toNat)
      ∧ (y.port e).stage + y.ethMax e ≤ 262144 ∧ o.codeErr = false ∧ o.uncorrectable = 0 ∧ 64 ≤ x.length
      ∧ x.length ≤ y.ethMax e ∧ leNat (x.drop (x.length - 4)) ≠ crc32 (x.take (x.length - 4)))
  ∧ (∃ (s : State) (e : Fin 32) (x : List Byte) (o : FrameObs) (y : State), s.ethState e = 3
      ∧ y = (if s.rdb R.ETH_STAT e 12 then ((s.count R.FEC_CORR e o.corrected.toNat).count R.FEC_UNCORR e o.uncorrectable.toNat).wrb R.ETH_STAT e 12 false else (s.count R.FEC_CORR e o.corrected.toNat).count R.FEC_UNCORR e o.uncorrectable.toNat)
      ∧ (y.port e).stage + y.ethMax e ≤ 262144 ∧ o.codeErr = false ∧ o.uncorrectable = 0 ∧ 64 ≤ x.length
      ∧ x.length ≤ y.ethMax e ∧ leNat (x.drop (x.length - 4)) = crc32 (x.take (x.length - 4)) ∧ etherType x = 0x8808)
  ∧ (∃ (s : State) (e : Fin 32) (x : List Byte) (o : FrameObs) (y : State), s.ethState e = 3
      ∧ y = (if s.rdb R.ETH_STAT e 12 then ((s.count R.FEC_CORR e o.corrected.toNat).count R.FEC_UNCORR e o.uncorrectable.toNat).wrb R.ETH_STAT e 12 false else (s.count R.FEC_CORR e o.corrected.toNat).count R.FEC_UNCORR e o.uncorrectable.toNat)
      ∧ (y.port e).stage + y.ethMax e ≤ 262144 ∧ o.codeErr = false ∧ o.uncorrectable = 0 ∧ 64 ≤ x.length
      ∧ x.length ≤ y.ethMax e ∧ leNat (x.drop (x.length - 4)) = crc32 (x.take (x.length - 4)) ∧ etherType x ≠ 0x8808
      ∧ y.filterOf e (x.take (x.length - 4)) = none ∧ y.rdb R.ETH_CFG e 13 = false)
  ∧ (∃ (s : State) (e : Fin 32) (x : List Byte) (o : FrameObs) (y : State) (i : Nat) (v : Filter), s.ethState e = 3
      ∧ y = (if s.rdb R.ETH_STAT e 12 then ((s.count R.FEC_CORR e o.corrected.toNat).count R.FEC_UNCORR e o.uncorrectable.toNat).wrb R.ETH_STAT e 12 false else (s.count R.FEC_CORR e o.corrected.toNat).count R.FEC_UNCORR e o.uncorrectable.toNat)
      ∧ (y.port e).stage + y.ethMax e ≤ 262144 ∧ o.codeErr = false ∧ o.uncorrectable = 0 ∧ 64 ≤ x.length
      ∧ x.length ≤ y.ethMax e ∧ leNat (x.drop (x.length - 4)) = crc32 (x.take (x.length - 4)) ∧ etherType x ≠ 0x8808
      ∧ y.filterOf e (x.take (x.length - 4)) = some (i, v) ∧ bit v.w2 12 = true) :=
  ⟨⟨{ up with regs := [(R.ETH_STAT.key 31, 1), (R.ETH_CFG.key 31, 0x2400000100640000)] }, 31, true, by decide +kernel⟩,
   ⟨up, 31, true, by decide +kernel⟩,
   ⟨{ up with regs := [(R.ETH_STAT.key 31, 0x703)] }, 31, by decide +kernel⟩,
   ⟨up, 31, by decide +kernel⟩,
   ⟨{ up with regs := [(R.ETH_STAT.key 31, 0x1003)], net := { port := [(31, { stage := 262145 })] } }, 31, withFcs [],
       { codeErr := false, corrected := 2, uncorrectable := 0 }, _,
       (by first | decide +kernel | rfl), rfl, (by first | decide +kernel | rfl)⟩,
   ⟨{ up with regs := [(R.ETH_STAT.key 31, 0x1003)] }, 31, withFcs [],
       { codeErr := false, corrected := 2, uncorrectable := 1 }, _,
       (by first | decide +kernel | rfl), rfl, (by first | decide +kernel | rfl), (by first | decide +kernel | rfl)⟩,
   ⟨{ up with regs := [(R.ETH_STAT.key 31, 0x1003)] }, 31, List.replicate 63 0,
       { codeErr := false, corrected := 2, uncorrectable := 0 }, _,
       (by first | decide +kernel | rfl), rfl, (by first | decide +kernel | rfl), (by first | decide +kernel | rfl), (by first | decide +kernel | rfl), (by first | decide +kernel | rfl)⟩,
   ⟨{ up with regs := [(R.ETH_STAT.key 31, 0x1003)] }, 31, List.replicate 9700 0,
       { codeErr := false, corrected := 2, uncorrectable := 0 }, _,
       (by first | decide +kernel | rfl), rfl, (by first | decide +kernel | rfl), (by first | decide +kernel | rfl), (by first | decide +kernel | rfl), (by first | decide +kernel | rfl), (by first | decide +kernel | rfl)⟩,
   ⟨{ up with regs := [(R.ETH_STAT.key 31, 0x1003)] }, 31, List.replicate 64 0,
       { codeErr := false, corrected := 2, uncorrectable := 0 }, _,
       (by first | decide +kernel | rfl), rfl, (by first | decide +kernel | rfl), (by first | decide +kernel | rfl), (by first | decide +kernel | rfl), (by first | decide +kernel | rfl), (by first | decide +kernel | rfl), (by first | decide +kernel | rfl)⟩,
   ⟨{ up with regs := [(R.ETH_STAT.key 31, 0x1003)] }, 31, withFcs (List.replicate 12 0 ++ [0x88, 0x08]),
       { codeErr := false, corrected := 2, uncorrectable := 0 }, _,
       (by first | decide +kernel | rfl), rfl, (by first | decide +kernel | rfl), (by first | decide +kernel | rfl), (by first | decide +kernel | rfl), (by first | decide +kernel | rfl), (by first | decide +kernel | rfl), (by first | decide +kernel | rfl), (by first | decide +kernel | rfl)⟩,
   ⟨{ up with regs := [(R.ETH_STAT.key 31, 0x1003)] }, 31, withFcs [],
       { codeErr := false, corrected := 2, uncorrectable := 0 }, _,
       (by first | decide +kernel | rfl), rfl, (by first | decide +kernel | rfl), (by first | decide +kernel | rfl), (by first | decide +kernel | rfl), (by first | decide +kernel | rfl), (by first | decide +kernel | rfl), (by first | decide +kernel | rfl), (by first | decide +kernel | rfl), (by first | decide +kernel | rfl), (by first | decide +kernel | rfl)⟩,
   ⟨{ up with regs := [(R.ETH_STAT.key 31, 0x1003)], net := { filter := [(5, { w0 := 0x8000000000000000, w1 := 0, w2 := 0x1000 })] } },
       31, withFcs [], { codeErr := false, corrected := 2, uncorrectable := 0 }, _, 5,
       { w0 := 0x8000000000000000, w1 := 0, w2 := 0x1000 },
       (by first | decide +kernel | rfl), rfl, (by first | decide +kernel | rfl), (by first | decide +kernel | rfl), (by first | decide +kernel | rfl), (by first | decide +kernel | rfl), (by first | decide +kernel | rfl), (by first | decide +kernel | rfl), (by first | decide +kernel | rfl), (by first | decide +kernel | rfl), (by first | decide +kernel | rfl)⟩⟩

/-- States and operands that meet the hypotheses of further clauses of `Obligations.PortsTakeFrames`. -/
theorem witness_PortsTakeFrames_2 :
  (∃ (s : State) (e : Fin 32) (x : List Byte) (o : FrameObs) (y : State) (r : Nat) (i : Nat) (ts : Bool) (g : Ring),
      s.ethState e = 3
      ∧ y = (if s.rdb R.ETH_STAT e 12 then ((s.count R.FEC_CORR e o.corrected.toNat).count R.FEC_UNCORR e o.uncorrectable.toNat).wrb R.ETH_STAT e 12 false else (s.count R.FEC_CORR e o.corrected.toNat).count R.FEC_UNCORR e o.uncorrectable.toNat)
      ∧ (y.port e).stage + y.ethMax e ≤ 262144 ∧ o.codeErr = false ∧ o.uncorrectable = 0 ∧ 64 ≤ x.length
      ∧ x.length ≤ y.ethMax e ∧ leNat (x.drop (x.length - 4)) = crc32 (x.take (x.length - 4)) ∧ etherType x ≠ 0x8808
      ∧ (match y.filterOf e (x.take (x.length - 4)) with | some (i, v) => if bit v.w2 12 then none else some (fld v.w2 11 0, i, bit v.w2 13 || y.rdb R.ETH_CFG e 33) | none => if y.rdb R.ETH_CFG e 13 then some (y.rdf R.ETH_CFG e 11 0, 0x3FF, y.rdb R.ETH_CFG e 33) else none) = some (r, i, ts)
      ∧ g = y.ring r ∧ (g.on = false ∨ g.type ≠ 3))
  ∧ (∃ (s : State) (e : Fin 32) (x : List Byte) (o : FrameObs) (y : State) (r : Nat) (i : Nat) (ts : Bool) (g : Ring),
      s.ethState e = 3
      ∧ y = (if s.rdb R.ETH_STAT e 12 then ((s.count R.FEC_CORR e o.corrected.toNat).count R.FEC_UNCORR e o.uncorrectable.toNat).wrb R.ETH_STAT e 12 false else (s.count R.FEC_CORR e o.corrected.toNat).count R.FEC_UNCORR e o.uncorrectable.toNat)
      ∧ (y.port e).stage + y.ethMax e ≤ 262144 ∧ o.codeErr = false ∧ o.uncorrectable = 0 ∧ 64 ≤ x.length
      ∧ x.length ≤ y.ethMax e ∧ leNat (x.drop (x.length - 4)) = crc32 (x.take (x.length - 4)) ∧ etherType x ≠ 0x8808
      ∧ (match y.filterOf e (x.take (x.length - 4)) with | some (i, v) => if bit v.w2 12 then none else some (fld v.w2 11 0, i, bit v.w2 13 || y.rdb R.ETH_CFG e 33) | none => if y.rdb R.ETH_CFG e 13 then some (y.rdf R.ETH_CFG e 11 0, 0x3FF, y.rdb R.ETH_CFG e 33) else none) = some (r, i, ts)
      ∧ g = y.ring r ∧ g.on = true ∧ g.type = 3 ∧ g.size ≤ g.used)
  ∧ (∃ (s : State) (e : Fin 32) (x : List Byte) (o : FrameObs) (y : State) (r : Nat) (i : Nat) (ts : Bool) (g : Ring),
      s.ethState e = 3
      ∧ y = (if s.rdb R.ETH_STAT e 12 then ((s.count R.FEC_CORR e o.corrected.toNat).count R.FEC_UNCORR e o.uncorrectable.toNat).wrb R.ETH_STAT e 12 false else (s.count R.FEC_CORR e o.corrected.toNat).count R.FEC_UNCORR e o.uncorrectable.toNat)
      ∧ (y.port e).stage + y.ethMax e ≤ 262144 ∧ o.codeErr = false ∧ o.uncorrectable = 0 ∧ 64 ≤ x.length
      ∧ x.length ≤ y.ethMax e ∧ leNat (x.drop (x.length - 4)) = crc32 (x.take (x.length - 4)) ∧ etherType x ≠ 0x8808
      ∧ (match y.filterOf e (x.take (x.length - 4)) with | some (i, v) => if bit v.w2 12 then none else some (fld v.w2 11 0, i, bit v.w2 13 || y.rdb R.ETH_CFG e 33) | none => if y.rdb R.ETH_CFG e 13 then some (y.rdf R.ETH_CFG e 11 0, 0x3FF, y.rdb R.ETH_CFG e 33) else none) = some (r, i, ts)
      ∧ g = y.ring r ∧ g.on = true ∧ g.type = 3 ∧ g.used < g.size ∧ y.pressed (ethPage e) = false
      ∧ 2 ^ fld g.d3 63 60 < x.length - 4)
  ∧ (∃ (s : State) (e : Fin 32) (x : List Byte) (o : FrameObs) (y : State) (r : Nat) (i : Nat) (ts : Bool) (g : Ring),
      s.ethState e = 3
      ∧ y = (if s.rdb R.ETH_STAT e 12 then ((s.count R.FEC_CORR e o.corrected.toNat).count R.FEC_UNCORR e o.uncorrectable.toNat).wrb R.ETH_STAT e 12 false else (s.count R.FEC_CORR e o.corrected.toNat).count R.FEC_UNCORR e o.uncorrectable.toNat)
      ∧ (y.port e).stage + y.ethMax e ≤ 262144 ∧ o.codeErr = false ∧ o.uncorrectable = 0 ∧ 64 ≤ x.length
      ∧ x.length ≤ y.ethMax e ∧ leNat (x.drop (x.length - 4)) = crc32 (x.take (x.length - 4)) ∧ etherType x ≠ 0x8808
      ∧ (match y.filterOf e (x.take (x.length - 4)) with | some (i, v) => if bit v.w2 12 then none else some (fld v.w2 11 0, i, bit v.w2 13 || y.rdb R.ETH_CFG e 33) | none => if y.rdb R.ETH_CFG e 13 then some (y.rdf R.ETH_CFG e 11 0, 0x3FF, y.rdb R.ETH_CFG e 33) else none) = some (r, i, ts)
      ∧ g = y.ring r ∧ g.on = true ∧ g.type = 3 ∧ g.used < g.size ∧ x.length - 4 ≤ 2 ^ fld g.d3 63 60)
  ∧ (∃ (s : State) (e : Fin 32) (x : List Byte) (o : FrameObs), s.ethState e ≠ 3)
  ∧ (∃ (s : State) (e : Fin 32) (rx : Bool), s.ethState e = 3 ∧ s.rdb R.ETH_CFG e 32 = true ∧ s.rdb R.ETH_STAT e 10 = true
      ∧ rx = true)
  ∧ (∃ (s : State) (e : Fin 32) (rx : Bool), s.ethState e = 3 ∧ s.rdb R.ETH_CFG e 32 = true ∧ s.rdb R.ETH_STAT e 10 = true
      ∧ rx = false ∧ s.txWaiting e = false ∧ (s.port e).lastReady + 1500 * s.rdf R.ETH_CFG e 31 16 ≤ s.time.total
      ∧ s.hasUnit 2 e = false ∧ s.unitComing e = false)
  ∧ (∃ (s : State) (e : Fin 32) (rx : Bool), (s.ethState e ≠ 3 ∨ s.rdb R.ETH_CFG e 32 = false ∨ s.rdb R.ETH_STAT e 10 = false))
  ∧ (∃ (s : State) (e : Fin 32) (rx : Bool), rx = false
      ∧ (s.txWaiting e = true ∨ s.time.total < (s.port e).lastReady + 1500 * s.rdf R.ETH_CFG e 31 16 ∨ s.hasUnit 2 e = true ∨ s.unitComing e = true))
  ∧ (∃ (s : State) (e : Fin 32) (rx : Bool), rx = true)
  ∧ (∃ (s : State) (e : Fin 32) (rx : Bool), rx = false ∧ (s.txWaiting e = true ∨ s.unitComing e = true)
      ∧ s.rdb R.ETH_STAT e 11 = true)
  ∧ (∃ (s : State) (e : Fin 32) (rx : Bool), rx = false
      ∧ ((s.txWaiting e = false ∧ s.unitComing e = false) ∨ s.rdb R.ETH_STAT e 11 = false)) :=
  ⟨⟨{ up with regs := [(R.ETH_STAT.key 31, 0x1003), (R.ETH_CFG.key 31, 0x2400000000642009)], net := { ring := [(9, txRing)] } },
       31, withFcs [], { codeErr := false, corrected := 2, uncorrectable := 0 }, _, 9, 0x3FF, false, _,
       (by first | decide +kernel | rfl), rfl, (by first | decide +kernel | rfl), (by first | decide +kernel | rfl), (by first | decide +kernel | rfl), (by first | decide +kernel | rfl), (by first | decide +kernel | rfl), (by first | decide +kernel | rfl), (by first | decide +kernel | rfl), (by first | decide +kernel | rfl), rfl, (by first | decide +kernel | rfl)⟩,
   ⟨{ up with regs := [(R.ETH_STAT.key 31, 0x1003), (R.ETH_CFG.key 31, 0x2400000000642009)], net := { ring := [(9, { rxRing with alloc := 4 })] } },
       31, withFcs [], { codeErr := false, corrected := 2, uncorrectable := 0 }, _, 9, 0x3FF, false, _,
       (by first | decide +kernel | rfl), rfl, (by first | decide +kernel | rfl), (by first | decide +kernel | rfl), (by first | decide +kernel | rfl), (by first | decide +kernel | rfl), (by first | decide +kernel | rfl), (by first | decide +kernel | rfl), (by first | decide +kernel | rfl), (by first | decide +kernel | rfl), rfl, (by first | decide +kernel | rfl), (by first | decide +kernel | rfl), (by first | decide +kernel | rfl)⟩,
   ⟨{ up with regs := [(R.ETH_STAT.key 31, 0x1003), (R.ETH_CFG.key 31, 0x2400000000642009)], net := { ring := [(9, { rxRing with d3 := 0 })] } },
       31, withFcs [], { codeErr := false, corrected := 2, uncorrectable := 0 }, _, 9, 0x3FF, false, _,
       (by first | decide +kernel | rfl), rfl, (by first | decide +kernel | rfl), (by first | decide +kernel | rfl), (by first | decide +kernel | rfl), (by first | decide +kernel | rfl), (by first | decide +kernel | rfl), (by first | decide +kernel | rfl), (by first | decide +kernel | rfl), (by first | decide +kernel | rfl), rfl, (by first | decide +kernel | rfl), (by first | decide +kernel | rfl), (by first | decide +kernel | rfl), (by first | decide +kernel | rfl), (by first | decide +kernel | rfl)⟩,
   ⟨{ up with regs := [(R.ETH_STAT.key 31, 0x1003), (R.ETH_CFG.key 31, 0x2400000000642009)], net := { ring := [(9, rxRing)] } },
       31, withFcs [], { codeErr := false, corrected := 2, uncorrectable := 0 }, _, 9, 0x3FF, false, _,
       (by first | decide +kernel | rfl), rfl, (by first | decide +kernel | rfl), (by first | decide +kernel | rfl), (by first | decide +kernel | rfl), (by first | decide +kernel | rfl), (by first | decide +kernel | rfl), (by first | decide +kernel | rfl), (by first | decide +kernel | rfl), (by first | decide +kernel | rfl), rfl, (by first | decide +kernel | rfl), (by first | decide +kernel | rfl), (by first | decide +kernel | rfl), (by first | decide +kernel | rfl)⟩,
   ⟨up, 31, [], { codeErr := false, corrected := 2, uncorrectable := 0 }, by decide +kernel⟩,
   ⟨{ up with time := { total := 150000 }, regs := [(R.ETH_STAT.key 31, 0x403), (R.ETH_CFG.key 31, 0x2400000100640000)] },
       31, true, by decide +kernel⟩,
   ⟨{ up with time := { total := 150000 }, regs := [(R.ETH_STAT.key 31, 0x403), (R.ETH_CFG.key 31, 0x2400000100640000)] },
       31, false, by decide +kernel⟩,
   ⟨up, 31, true, by decide +kernel⟩,
   ⟨{ up with regs := [(R.ETH_STAT.key 31, 0x403), (R.ETH_CFG.key 31, 0x2400000100640000)], net := { ring := [(9, txRing)] } },
       31, false, by decide +kernel⟩,
   ⟨{ up with regs := [(R.ETH_STAT.key 31, 0x1C03)] }, 31, true, by decide +kernel⟩,
   ⟨{ up with regs := [(R.ETH_STAT.key 31, 0xC03)], net := { ring := [(9, txRing)] } }, 31, false, by decide +kernel⟩,
   ⟨up, 31, false, by decide +kernel⟩⟩

/-- States and operands that meet the hypotheses of further clauses of `Obligations.PortsTakeFrames`. -/
theorem witness_PortsTakeFrames_3 :
  (∃ (s : State) (a : Agent) (g : Fin 4) (n : Nat) (e : Nat), s.accepts a (0x54 + g.val) R.ETH_CMD.off 1 = true
      ∧ s.bankOf a (0x54 + g.val) = n ∧ n < 8 ∧ e = 8 * g.val + n ∧ s.ethState e = 3)
  ∧ (∃ (s : State) (a : Agent) (g : Fin 4) (n : Nat) (e : Nat), s.accepts a (0x54 + g.val) R.ETH_CMD.off 1 = true
      ∧ s.bankOf a (0x54 + g.val) = n ∧ n < 8 ∧ e = 8 * g.val + n ∧ s.ethState e ≠ 3) :=
  ⟨⟨{ up with regs := hostOn 0x57 7 ++ [(R.ETH_STAT.key 31, 0x703)] }, .host, 3, 7, 31, by decide +kernel⟩,
   ⟨{ up with regs := hostOn 0x57 7 ++ [(R.ETH_STAT.key 31, 1)] }, .host, 3, 7, 31, by decide +kernel⟩⟩

/-- States and operands that meet the hypotheses of the first clauses of `Obligations.PortsSendFrames`. -/
theorem witness_PortsSendFrames :
  (∃ (s : State) (e : Fin 32), s.ethState e ≠ 3)
  ∧ (∃ (s : State) (e : Fin 32), s.ethState e = 3 ∧ (s.port e).tx = none ∧ s.txRing e = none)
  ∧ (∃ (s : State) (e : Fin 32) (r : Nat), s.ethState e = 3 ∧ (s.port e).tx = none ∧ s.txRing e = some r)
  ∧ (∃ (s : State) (e : Fin 32) (x : TxJob), s.ethState e = 3 ∧ (s.port e).tx = some x ∧ x.entry = none)
  ∧ (∃ (s : State) (e : Fin 32) (x : TxJob) (ws : List Word), s.ethState e = 3 ∧ (s.port e).tx = some x ∧ x.entry = some ws
      ∧ x.bad = true ∧ x.left = 0)
  ∧ (∃ (s : State) (e : Fin 32) (x : TxJob) (ws : List Word) (c : Nat), s.ethState e = 3 ∧ (s.port e).tx = some x
      ∧ x.entry = some ws ∧ (x.bad = false ∨ x.left ≠ 0) ∧ x.ready = true ∧ c = max 60 (fld (ws.getD 0 0) 63 48) + 4
      ∧ s.someRunFits e .open_ c = false)
  ∧ (∃ (s : State) (e : Fin 32) (x : TxJob) (ws : List Word) (c : Nat) (n0 : Nat) (z : Nat) (n : Nat) (o : Nat) (q : Int) (fr : List Byte),
      s.ethState e = 3 ∧ (s.port e).tx = some x ∧ x.entry = some ws ∧ (x.bad = false ∨ x.left ≠ 0) ∧ x.ready = true
      ∧ c = max 60 (fld (ws.getD 0 0) 63 48) + 4 ∧ n0 < 4096 ∧ fitsRun 0 c (s.runAfter e .open_ 4096 n0) = true
      ∧ s.ethRun e .open_ = some (z, n) ∧ o = s.runOffset e z ∧ fitsRun o c n = true ∧ s.rdb R.ETH_STAT e 11 = false
      ∧ (s.port e).wakeAt ≤ s.time.total ∧ q = (s.txStamp e z o).1
      ∧ fr = withFcs (if bit (ws.getD 0 0) 46 then oneStep (ws.getD 0 0) x.frame q else x.frame))
  ∧ (∃ (s : State) (e : Fin 32) (x : TxJob) (ws : List Word) (c : Nat) (n0 : Nat), s.ethState e = 3 ∧ (s.port e).tx = some x
      ∧ x.entry = some ws ∧ (x.bad = false ∨ x.left ≠ 0) ∧ x.ready = true ∧ c = max 60 (fld (ws.getD 0 0) 63 48) + 4
      ∧ n0 < 4096 ∧ fitsRun 0 c (s.runAfter e .open_ 4096 n0) = true
      ∧ (s.ethRun e .open_ = none ∨ s.rdb R.ETH_STAT e 11 = true ∨ s.time.total < (s.port e).wakeAt))
  ∧ (∃ (s : State) (e : Fin 32) (x : TxJob) (ws : List Word) (c : Nat) (n0 : Nat) (z : Nat) (n : Nat), s.ethState e = 3
      ∧ (s.port e).tx = some x ∧ x.entry = some ws ∧ (x.bad = false ∨ x.left ≠ 0) ∧ x.ready = true
      ∧ c = max 60 (fld (ws.getD 0 0) 63 48) + 4 ∧ n0 < 4096 ∧ fitsRun 0 c (s.runAfter e .open_ 4096 n0) = true
      ∧ s.ethRun e .open_ = some (z, n) ∧ fitsRun (s.runOffset e z) c n = false)
  ∧ (∃ (s : State) (e : Fin 32) (x : TxJob) (ws : List Word), s.ethState e = 3 ∧ (s.port e).tx = some x ∧ x.entry = some ws
      ∧ (x.bad = false ∨ x.left ≠ 0) ∧ x.ready = false ∧ x.left ≠ 0)
  ∧ (∃ (s : State) (e : Fin 32) (x : TxJob) (ws : List Word), s.ethState e = 3 ∧ (s.port e).tx = some x ∧ x.entry = some ws
      ∧ x.bad = false ∧ x.ready = false ∧ x.left = 0 ∧ txEntryBad (s.ethMax e) ws = true)
  ∧ (∃ (s : State) (e : Fin 32) (x : TxJob) (ws : List Word) (bs : List (Nat × Nat)) (y : State), s.ethState e = 3
      ∧ (s.port e).tx = some x ∧ x.entry = some ws ∧ x.bad = false ∧ x.ready = false ∧ x.left = 0
      ∧ txEntryBad (s.ethMax e) ws = false ∧ s.fetchWaits e = false
      ∧ bs = bursts (fld (ws.getD 1 0) 47 0) (fld (ws.getD 0 0) 63 48) (fld (ws.getD 0 0) 63 48 + 1) 0
      ∧ y = bs.foldl (fun v b => v.enter 8 false false (fld (ws.getD 1 0) 47 0 + b.1) b.2 [] none (.txRead e b.1)) (s.setPort e { s.port e with tx := some { x with frame := List.replicate (fld (ws.getD 0 0) 63 48) 0, left := bs.length }, fetchAt := none })) :=
  ⟨⟨up, 31, by decide +kernel⟩,
   ⟨{ up with regs := [(R.ETH_STAT.key 31, 3)] }, 31, by decide +kernel⟩,
   ⟨{ up with regs := [(R.ETH_STAT.key 31, 3)], net := { ring := [(9, txRing)] } }, 31, 9, by decide +kernel⟩,
   ⟨{ up with regs := [(R.ETH_STAT.key 31, 3)], net := { ring := [(9, txRing)], port := [(31, { tx := some { ring := 9, idx := 0 } })] } },
       31, { ring := 9, idx := 0 }, by decide +kernel⟩,
   ⟨{ up with regs := [(R.ETH_STAT.key 31, 3)], net := { ring := [(9, txRing)], port := [(31, { tx := some { ring := 9, idx := 0, entry := some [0x0010000000000000], bad := true } })] } },
       31, { ring := 9, idx := 0, entry := some [0x0010000000000000], bad := true }, [0x0010000000000000],
       by decide +kernel⟩,
   ⟨{ { up with regs := [(R.ETH_STAT.key 31, 3)], net := { ring := [(9, txRing)], port := [(31, { tx := some { ring := 9, idx := 0, entry := some [0x0010000000000000], ready := true } })] } } with sched := { run := some 0, image0 := closedImage } },
       31, { ring := 9, idx := 0, entry := some [0x0010000000000000], ready := true }, [0x0010000000000000], _,
       (by first | decide +kernel | rfl), (by first | decide +kernel | rfl), (by first | decide +kernel | rfl), (by first | decide +kernel | rfl), (by first | decide +kernel | rfl), rfl, (by first | decide +kernel | rfl)⟩,
   ⟨{ up with regs := [(R.ETH_STAT.key 31, 3)], net := { ring := [(9, txRing)], port := [(31, { tx := some { ring := 9, idx := 0, entry := some [0x0010000000000000], frame := List.replicate 16 1, ready := true } })] } },
       31, { ring := 9, idx := 0, entry := some [0x0010000000000000], frame := List.replicate 16 1, ready := true },
       [0x0010000000000000], _, 0, 0, 2 ^ 62, _, _, _,
       (by first | decide +kernel | rfl), (by first | decide +kernel | rfl), (by first | decide +kernel | rfl), (by first | decide +kernel | rfl), (by first | decide +kernel | rfl), rfl, (by first | decide +kernel | rfl), (by first | decide +kernel | rfl), (by first | decide +kernel | rfl), rfl, (by first | decide +kernel | rfl), (by first | decide +kernel | rfl), (by first | decide +kernel | rfl), rfl, rfl⟩,
   ⟨{ { up with regs := [(R.ETH_STAT.key 31, 0x803)], net := { ring := [(9, txRing)], port := [(31, { tx := some { ring := 9, idx := 0, entry := some [0x0010000000000000], frame := List.replicate 16 1, ready := true } })] } } with time := {} },
       31, { ring := 9, idx := 0, entry := some [0x0010000000000000], frame := List.replicate 16 1, ready := true },
       [0x0010000000000000], _, 0,
       (by first | decide +kernel | rfl), (by first | decide +kernel | rfl), (by first | decide +kernel | rfl), (by first | decide +kernel | rfl), (by first | decide +kernel | rfl), rfl, (by first | decide +kernel | rfl), (by first | decide +kernel | rfl), (by first | decide +kernel | rfl)⟩,
   ⟨{ { up with regs := [(R.ETH_STAT.key 31, 3)], net := { ring := [(9, txRing)], port := [(31, { tx := some { ring := 9, idx := 0, entry := some [0x0010000000000000], frame := List.replicate 16 1, ready := true } })] } } with sched := { run := some 0, image0 := openImage }, time := { pos := 250, total := 250 } },
       31, { ring := 9, idx := 0, entry := some [0x0010000000000000], frame := List.replicate 16 1, ready := true },
       [0x0010000000000000], _, 0, 0, 1,
       (by first | decide +kernel | rfl), (by first | decide +kernel | rfl), (by first | decide +kernel | rfl), (by first | decide +kernel | rfl), (by first | decide +kernel | rfl), rfl, (by first | decide +kernel | rfl), (by first | decide +kernel | rfl), (by first | decide +kernel | rfl), (by first | decide +kernel | rfl)⟩,
   ⟨{ up with regs := [(R.ETH_STAT.key 31, 3)], net := { ring := [(9, txRing)], port := [(31, { tx := some { ring := 9, idx := 0, entry := some [0x0010000000000000], left := 1 } })] } },
       31, { ring := 9, idx := 0, entry := some [0x0010000000000000], left := 1 }, [0x0010000000000000],
       by decide +kernel⟩,
   ⟨{ up with regs := [(R.ETH_STAT.key 31, 3)], net := { ring := [(9, txRing)], port := [(31, { tx := some { ring := 9, idx := 0, entry := some [0x000D000000000000] } })] } },
       31, { ring := 9, idx := 0, entry := some [0x000D000000000000] }, [0x000D000000000000], by decide +kernel⟩,
   ⟨{ up with regs := [(R.ETH_STAT.key 31, 3), (R.ETH_CFG.key 31, 0x2400000100640000)], net := { ring := [(9, txRing)], port := [(31, { tx := some { ring := 9, idx := 0, entry := some [0x0010000000000000, 0x1000] } })] } },
       31, { ring := 9, idx := 0, entry := some [0x0010000000000000, 0x1000] }, [0x0010000000000000, 0x1000], _, _,
       (by first | decide +kernel | rfl), (by first | decide +kernel | rfl), (by first | decide +kernel | rfl), (by first | decide +kernel | rfl), (by first | decide +kernel | rfl), (by first | decide +kernel | rfl), (by first | decide +kernel | rfl), (by first | decide +kernel | rfl), rfl, rfl⟩⟩

/-- States and operands that meet the hypotheses of further clauses of `Obligations.PortsSendFrames`. -/
theorem witness_PortsSendFrames_2 :
  (∃ (s : State) (e : Fin 32) (x : TxJob) (ws : List Word), s.ethState e = 3 ∧ (s.port e).tx = some x ∧ x.entry = some ws
      ∧ x.bad = false ∧ x.ready = false ∧ x.left = 0 ∧ txEntryBad (s.ethMax e) ws = false ∧ s.fetchWaits e = true
      ∧ (s.port e).fetchAt = none)
  ∧ (∃ (s : State) (e : Fin 32) (x : TxJob) (ws : List Word) (n : Nat), s.ethState e = 3 ∧ (s.port e).tx = some x
      ∧ x.entry = some ws ∧ x.bad = false ∧ x.ready = false ∧ x.left = 0 ∧ txEntryBad (s.ethMax e) ws = false
      ∧ s.fetchWaits e = true ∧ (s.port e).fetchAt = some n)
  ∧ (∃ (s : State) (e : Fin 32) (x : Fragment) (rest : List Fragment) (z : Nat) (n : Nat), (s.port e).ready = x :: rest
      ∧ s.ethRun e .unit = some (z, n) ∧ x.time ≤ s.imgNow ∧ s.ethState e ≠ 3)
  ∧ (∃ (s : State) (e : Fin 32) (x : Fragment) (rest : List Fragment) (z : Nat) (n : Nat) (y : State),
      (s.port e).ready = x :: rest ∧ s.ethRun e .unit = some (z, n) ∧ x.time ≤ s.imgNow ∧ s.ethState e = 3
      ∧ fitsRun 0 (s.headBytes e x.block.src + x.len) n = false ∧ y = s.breach R.BR_ETH 7 e)
  ∧ (∃ (s : State) (e : Fin 32) (x : Fragment) (rest : List Fragment) (z : Nat) (n : Nat) (o : Nat), (s.port e).ready = x :: rest
      ∧ s.ethRun e .unit = some (z, n) ∧ x.time ≤ s.imgNow ∧ s.ethState e = 3
      ∧ fitsRun 0 (s.headBytes e x.block.src + x.len) n = true ∧ o = s.runOffset e z
      ∧ fitsRun o (s.headBytes e x.block.src + x.len) n = true)
  ∧ (∃ (s : State) (e : Fin 32), (s.port e).ready = [])
  ∧ (∃ (s : State) (e : Fin 32) (x : Fragment) (rest : List Fragment), (s.port e).ready = x :: rest
      ∧ (s.imgNow < x.time ∨ s.ethRun e .unit = none))
  ∧ (∃ (s : State) (e : Fin 32) (x : Fragment) (rest : List Fragment) (z : Nat) (n : Nat), (s.port e).ready = x :: rest
      ∧ s.ethRun e .unit = some (z, n) ∧ x.time ≤ s.imgNow ∧ s.ethState e = 3
      ∧ fitsRun 0 (s.headBytes e x.block.src + x.len) n = true
      ∧ fitsRun (s.runOffset e z) (s.headBytes e x.block.src + x.len) n = false) :=
  ⟨⟨{ up with regs := [(R.ETH_STAT.key 31, 3), (R.ETH_CFG.key 31, 0x2400000100640000), (regKey 0 0x57 0 hPerturb, 9)], net := { ring := [(9, txRing)], port := [(31, { tx := some { ring := 9, idx := 0, entry := some [0x0010000000000000, 0x1000] } })] } },
       31, { ring := 9, idx := 0, entry := some [0x0010000000000000, 0x1000] }, [0x0010000000000000, 0x1000],
       by decide +kernel⟩,
   ⟨{ up with regs := [(R.ETH_STAT.key 31, 3), (R.ETH_CFG.key 31, 0x2400000100640000)], net := { ring := [(9, txRing)], port := [(31, { fetchAt := some 9, tx := some { ring := 9, idx := 0, entry := some [0x0010000000000000, 0x1000] } })] } },
       31, { ring := 9, idx := 0, entry := some [0x0010000000000000, 0x1000] }, [0x0010000000000000, 0x1000], 9,
       by decide +kernel⟩,
   ⟨ethReady 1, 31,
       { block := { src := 0, seq := 0, addr := 0, len := 64, kind := 1 }, size := 64, frag := 0, ofs := 0, len := 64, hdr := [], parts := [], left := 0, poison := false },
       [], 0, 1, by decide +kernel⟩,
   ⟨{ ethReady 3 with net := { port := [(31, { ready := [{ block := { src := 0, seq := 0, addr := 0, len := 2112, kind := 1 }, size := 2112, frag := 0, ofs := 0, len := 2112, hdr := [], parts := [], left := 0, poison := false }] })] } },
       31,
       { block := { src := 0, seq := 0, addr := 0, len := 2112, kind := 1 }, size := 2112, frag := 0, ofs := 0, len := 2112, hdr := [], parts := [], left := 0, poison := false },
       [], 0, 1, _,
       (by first | decide +kernel | rfl), (by first | decide +kernel | rfl), (by first | decide +kernel | rfl), (by first | decide +kernel | rfl), (by first | decide +kernel | rfl), rfl⟩,
   ⟨ethReady 3, 31,
       { block := { src := 0, seq := 0, addr := 0, len := 64, kind := 1 }, size := 64, frag := 0, ofs := 0, len := 64, hdr := [], parts := [], left := 0, poison := false },
       [], 0, 1, _,
       (by first | decide +kernel | rfl), (by first | decide +kernel | rfl), (by first | decide +kernel | rfl), (by first | decide +kernel | rfl), (by first | decide +kernel | rfl), rfl, (by first | decide +kernel | rfl)⟩,
   ⟨up, 31, by decide +kernel⟩,
   ⟨{ up with net := { port := [(31, { ready := [{ block := { src := 0, seq := 0, addr := 0, len := 64, kind := 1 }, size := 64, frag := 0, ofs := 0, len := 64, hdr := [], parts := [], left := 0, poison := false }] })] } },
       31,
       { block := { src := 0, seq := 0, addr := 0, len := 64, kind := 1 }, size := 64, frag := 0, ofs := 0, len := 64, hdr := [], parts := [], left := 0, poison := false },
       [], by decide +kernel⟩,
   ⟨{ ethReady 3 with time := { pos := 250, total := 250 } }, 31,
       { block := { src := 0, seq := 0, addr := 0, len := 64, kind := 1 }, size := 64, frag := 0, ofs := 0, len := 64, hdr := [], parts := [], left := 0, poison := false },
       [], 0, 1, by decide +kernel⟩⟩

/-- States and operands that meet the hypotheses of each clause of `Obligations.DestinationsAndRings`. -/
theorem witness_DestinationsAndRings :
  (∃ (s : State) (a : Agent) (v : Word) (i : Nat), s.accepts a 0x54 R.DST_DATA.off v = true
      ∧ i = fld (s.rdAgent R.DST_SEL 0 a) 8 0)
  ∧ (∃ (s : State) (a : Agent), s.accepts a 0x54 R.DST_CTRL.off 1 = true)
  ∧ (∃ (s : State) (a : Agent) (v : Word) (r : Nat), s.accepts a 0x58 R.RING_DB.off v = true ∧ r = fld v 43 32
      ∧ ((s.ring r).type = 1 ∨ (s.ring r).type = 4))
  ∧ (∃ (s : State) (a : Agent) (v : Word) (r : Nat), s.accepts a 0x58 R.RING_DB.off v = true ∧ r = fld v 43 32
      ∧ (s.ring r).type ≠ 1 ∧ (s.ring r).type ≠ 4)
  ∧ (∃ (s : State) (r : Fin 4096) (q : Nat), (s.ring r).since = some q ∧ bit (s.ring r).d2 41 = true ∧ fld (s.ring r).d2 15 0 ≠ 0
      ∧ q + 1500 * fld (s.ring r).d2 15 0 ≤ s.time.total ∧ (s.ring r).owner ≠ 0)
  ∧ (∃ (s : State) (r : Fin 4096) (q : Nat) (x : MsixEntry), (s.ring r).since = some q ∧ bit (s.ring r).d2 41 = true
      ∧ fld (s.ring r).d2 15 0 ≠ 0 ∧ q + 1500 * fld (s.ring r).d2 15 0 ≤ s.time.total ∧ (s.ring r).owner = 0
      ∧ s.net.lastMsg ≠ some (fld (s.ring r).d2 52 42, s.time.total / 2)
      ∧ x = mget msixDflt s.pcie.table (fld (s.ring r).d2 52 42) ∧ s.pcie.msixEn = true ∧ x.masked = false
      ∧ s.pcie.maskAll = false ∧ s.pcieMaster = true)
  ∧ (∃ (s : State) (r : Fin 4096) (q : Nat), (s.ring r).since = some q ∧ bit (s.ring r).d2 41 = true ∧ fld (s.ring r).d2 15 0 ≠ 0
      ∧ q + 1500 * fld (s.ring r).d2 15 0 ≤ s.time.total ∧ (s.ring r).owner = 0
      ∧ s.net.lastMsg ≠ some (fld (s.ring r).d2 52 42, s.time.total / 2)
      ∧ (s.pcie.msixEn = false ∨ (mget msixDflt s.pcie.table (fld (s.ring r).d2 52 42)).masked = true ∨ s.pcie.maskAll = true ∨ s.pcieMaster = false))
  ∧ (∃ (s : State) (r : Fin 4096) (q : Nat), (s.ring r).since = some q ∧ bit (s.ring r).d2 41 = true ∧ fld (s.ring r).d2 15 0 ≠ 0
      ∧ q + 1500 * fld (s.ring r).d2 15 0 ≤ s.time.total ∧ (s.ring r).owner = 0
      ∧ s.net.lastMsg = some (fld (s.ring r).d2 52 42, s.time.total / 2))
  ∧ (∃ (s : State) (r : Fin 4096),
      (bit (s.ring r).d2 41 = false ∨ fld (s.ring r).d2 15 0 = 0 ∨ (s.ring r).since.all (fun q => decide (s.time.total < q + 1500 * fld (s.ring r).d2 15 0)) = true)) :=
  ⟨⟨{ up with regs := hostOn 0x54 7 ++ [(R.DST_SEL.key 0 0 3, 0x101FF)], net := { dstShadow := [(506, 0x10000000000)] } },
       .host, 5, 511, by decide +kernel⟩,
   ⟨{ up with regs := hostOn 0x54 7 }, .host, by decide +kernel⟩,
   ⟨{ up with net := { ring := [(4095, txRing)] } }, .host, 0xFFF00000002, 4095, by decide +kernel⟩,
   ⟨{ up with net := { ring := [(9, rxRing)] } }, .host, 0x00900000000, 9, by decide +kernel⟩,
   ⟨{ up with time := { total := 1503 }, net := { ring := [(4095, { d0 := 0x0002000000000000, d2 := 0x20000000001, since := some 3, progress := 2 })] } },
       4095, 3, by decide +kernel⟩,
   ⟨{ up with time := { total := 1503 }, pcie := { up := true, bme := true, msixEn := true, maskAll := false, table := [(2047, { addr := 64, data := 7, masked := false })] }, net := { ring := [(4095, { d2 := 0x1FFE0000000001, since := some 3, progress := 2 })] } },
       4095, 3, { addr := 64, data := 7, masked := false }, by decide +kernel⟩,
   ⟨{ up with time := { total := 1503 }, net := { ring := [(4095, { d2 := 0x1FFE0000000001, since := some 3, progress := 2 })] } },
       4095, 3, by decide +kernel⟩,
   ⟨{ up with time := { total := 1503 }, pcie := { up := true, bme := true, msixEn := true, maskAll := false, table := [(2047, { addr := 64, data := 7, masked := false })] }, net := { ring := [(4095, { d2 := 0x1FFE0000000001, since := some 3, progress := 2 })], lastMsg := some (2047, 751) } },
       4095, 3, by decide +kernel⟩,
   ⟨up, 4095, by decide +kernel⟩⟩

/-- States and operands that meet the hypotheses of the first clauses of `Obligations.CrossbarServesAndAnswers`. -/
theorem witness_CrossbarServesAndAnswers :
  (∃ (s : State) (n : Fin 8), (s.testHeld (0x60 + n.val) (s.rd R.TP_XB 0 n) = true ∨ s.winner n = none))
  ∧ (∃ (s : State) (n : Fin 8) (id : Nat) (x : Txn) (y : State), s.testHeld (0x60 + n.val) (s.rd R.TP_XB 0 n) = false
      ∧ s.winner n = some (id, x) ∧ pget s.xbar.txns id = some x ∧ x.resp = none
      ∧ y = { s with xbar := { s.xbar with winners := mset (fun _ => 8) s.xbar.winners x.port x.master, txns := pset s.xbar.txns id (some { x with gen := some (s.rdf R.FW_GEN 0 31 0) }) } }
      ∧ rowOfRange x.addr x.len = none)
  ∧ (∃ (s : State) (n : Fin 8) (id : Nat) (x : Txn) (y : State) (r : MapRow) (c : Nat) (k : Nat),
      s.testHeld (0x60 + n.val) (s.rd R.TP_XB 0 n) = false ∧ s.winner n = some (id, x) ∧ pget s.xbar.txns id = some x
      ∧ x.resp = none
      ∧ y = { s with xbar := { s.xbar with winners := mset (fun _ => 8) s.xbar.winners x.port x.master, txns := pset s.xbar.txns id (some { x with gen := some (s.rdf R.FW_GEN 0 31 0) }) } }
      ∧ rowOfRange x.addr x.len = some r ∧ s.fwRefusal x.master x.secure x.write x.addr x.len = some (c, k))
  ∧ (∃ (s : State) (n : Fin 8) (id : Nat) (x : Txn) (y : State) (r : MapRow),
      s.testHeld (0x60 + n.val) (s.rd R.TP_XB 0 n) = false ∧ s.winner n = some (id, x) ∧ pget s.xbar.txns id = some x
      ∧ x.resp = none
      ∧ y = { s with xbar := { s.xbar with winners := mset (fun _ => 8) s.xbar.winners x.port x.master, txns := pset s.xbar.txns id (some { x with gen := some (s.rdf R.FW_GEN 0 31 0) }) } }
      ∧ rowOfRange x.addr x.len = some r ∧ s.fwRefusal x.master x.secure x.write x.addr x.len = none
      ∧ (s.fabricAgent x = none ∨ r.2.2 ≠ .regs) ∧ r.2.2 = .heap ∧ x.write = true ∧ s.weightRefused x.addr x.len = true)
  ∧ (∃ (s : State) (n : Fin 8) (id : Nat) (x : Txn) (y : State) (r : MapRow),
      s.testHeld (0x60 + n.val) (s.rd R.TP_XB 0 n) = false ∧ s.winner n = some (id, x) ∧ pget s.xbar.txns id = some x
      ∧ x.resp = none
      ∧ y = { s with xbar := { s.xbar with winners := mset (fun _ => 8) s.xbar.winners x.port x.master, txns := pset s.xbar.txns id (some { x with gen := some (s.rdf R.FW_GEN 0 31 0) }) } }
      ∧ rowOfRange x.addr x.len = some r ∧ s.fwRefusal x.master x.secure x.write x.addr x.len = none
      ∧ (s.fabricAgent x = none ∨ r.2.2 ≠ .regs) ∧ r.2.2 = .heap ∧ (x.write = false ∨ s.weightRefused x.addr x.len = false))
  ∧ (∃ (s : State) (n : Fin 8) (id : Nat) (x : Txn) (y : State) (r : MapRow),
      s.testHeld (0x60 + n.val) (s.rd R.TP_XB 0 n) = false ∧ s.winner n = some (id, x) ∧ pget s.xbar.txns id = some x
      ∧ x.resp = none
      ∧ y = { s with xbar := { s.xbar with winners := mset (fun _ => 8) s.xbar.winners x.port x.master, txns := pset s.xbar.txns id (some { x with gen := some (s.rdf R.FW_GEN 0 31 0) }) } }
      ∧ rowOfRange x.addr x.len = some r ∧ s.fwRefusal x.master x.secure x.write x.addr x.len = none
      ∧ (s.fabricAgent x = none ∨ r.2.2 ≠ .regs) ∧ r.2.2 = .rom ∧ x.write = false)
  ∧ (∃ (s : State) (n : Fin 8) (id : Nat) (x : Txn) (y : State) (r : MapRow),
      s.testHeld (0x60 + n.val) (s.rd R.TP_XB 0 n) = false ∧ s.winner n = some (id, x) ∧ pget s.xbar.txns id = some x
      ∧ x.resp = none
      ∧ y = { s with xbar := { s.xbar with winners := mset (fun _ => 8) s.xbar.winners x.port x.master, txns := pset s.xbar.txns id (some { x with gen := some (s.rdf R.FW_GEN 0 31 0) }) } }
      ∧ rowOfRange x.addr x.len = some r ∧ s.fwRefusal x.master x.secure x.write x.addr x.len = none
      ∧ (s.fabricAgent x = none ∨ r.2.2 ≠ .regs) ∧ r.2.2 = .nvm ∧ x.write = false)
  ∧ (∃ (s : State) (n : Fin 8) (id : Nat) (x : Txn) (y : State) (r : MapRow),
      s.testHeld (0x60 + n.val) (s.rd R.TP_XB 0 n) = false ∧ s.winner n = some (id, x) ∧ pget s.xbar.txns id = some x
      ∧ x.resp = none
      ∧ y = { s with xbar := { s.xbar with winners := mset (fun _ => 8) s.xbar.winners x.port x.master, txns := pset s.xbar.txns id (some { x with gen := some (s.rdf R.FW_GEN 0 31 0) }) } }
      ∧ rowOfRange x.addr x.len = some r ∧ s.fwRefusal x.master x.secure x.write x.addr x.len = none
      ∧ (s.fabricAgent x = none ∨ r.2.2 ≠ .regs) ∧ r.2.2 = .sram ∧ x.write = false)
  ∧ (∃ (s : State) (n : Fin 8) (id : Nat) (x : Txn) (y : State) (r : MapRow),
      s.testHeld (0x60 + n.val) (s.rd R.TP_XB 0 n) = false ∧ s.winner n = some (id, x) ∧ pget s.xbar.txns id = some x
      ∧ x.resp = none
      ∧ y = { s with xbar := { s.xbar with winners := mset (fun _ => 8) s.xbar.winners x.port x.master, txns := pset s.xbar.txns id (some { x with gen := some (s.rdf R.FW_GEN 0 31 0) }) } }
      ∧ rowOfRange x.addr x.len = some r ∧ s.fwRefusal x.master x.secure x.write x.addr x.len = none
      ∧ (s.fabricAgent x = none ∨ r.2.2 ≠ .regs) ∧ r.2.2 = .sram ∧ x.write = true ∧ x.data.length = x.len) :=
  ⟨⟨up, 7, by decide +kernel⟩,
   ⟨{ up with xbar := { next := 5, txns := [(4, some { xfer with addr := 0x7FFFFFFFFF, port := 1 })] } }, 1, 4,
       { xfer with addr := 0x7FFFFFFFFF, port := 1 }, _,
       (by first | decide +kernel | rfl), (by first | decide +kernel | rfl), (by first | decide +kernel | rfl), (by first | decide +kernel | rfl), rfl, (by first | decide +kernel | rfl)⟩,
   ⟨xferAt [(R.FW_CTRL.key 0, 3)], 1, 4, xfer, _, (0x008001000000, 0x800000, .sram), 1, 63,
       (by first | decide +kernel | rfl), (by first | decide +kernel | rfl), (by first | decide +kernel | rfl), (by first | decide +kernel | rfl), rfl, (by first | decide +kernel | rfl), (by first | decide +kernel | rfl)⟩,
   ⟨{ up with xbar := { next := 5, txns := [(4, some { xfer with addr := 64, port := 0 })] }, regs := [(R.WT_SIZE.key 0, 4)] },
       0, 4, { xfer with addr := 64, port := 0 }, _, (0, 412316860416, .heap),
       (by first | decide +kernel | rfl), (by first | decide +kernel | rfl), (by first | decide +kernel | rfl), (by first | decide +kernel | rfl), rfl, (by first | decide +kernel | rfl), (by first | decide +kernel | rfl), (by first | decide +kernel | rfl), (by first | decide +kernel | rfl), (by first | decide +kernel | rfl), (by first | decide +kernel | rfl)⟩,
   ⟨{ up with xbar := { next := 5, txns := [(4, some { xfer with addr := 64, port := 0, write := false, data := [] })] } },
       0, 4, { xfer with addr := 64, port := 0, write := false, data := [] }, _, (0, 412316860416, .heap),
       (by first | decide +kernel | rfl), (by first | decide +kernel | rfl), (by first | decide +kernel | rfl), (by first | decide +kernel | rfl), rfl, (by first | decide +kernel | rfl), (by first | decide +kernel | rfl), (by first | decide +kernel | rfl), (by first | decide +kernel | rfl), (by first | decide +kernel | rfl)⟩,
   ⟨{ up with xbar := { next := 5, txns := [(4, some { xfer with addr := 0x8000000040, port := 2, write := false, data := [] })] } },
       2, 4, { xfer with addr := 0x8000000040, port := 2, write := false, data := [] }, _,
       (0x008000000000, 0x100000, .rom),
       (by first | decide +kernel | rfl), (by first | decide +kernel | rfl), (by first | decide +kernel | rfl), (by first | decide +kernel | rfl), rfl, (by first | decide +kernel | rfl), (by first | decide +kernel | rfl), (by first | decide +kernel | rfl), (by first | decide +kernel | rfl), (by first | decide +kernel | rfl)⟩,
   ⟨{ up with xbar := { next := 5, txns := [(4, some { xfer with addr := 0x8002000040, port := 3, write := false, data := [] })] } },
       3, 4, { xfer with addr := 0x8002000040, port := 3, write := false, data := [] }, _,
       (0x008002000000, 0x1000000, .nvm),
       (by first | decide +kernel | rfl), (by first | decide +kernel | rfl), (by first | decide +kernel | rfl), (by first | decide +kernel | rfl), rfl, (by first | decide +kernel | rfl), (by first | decide +kernel | rfl), (by first | decide +kernel | rfl), (by first | decide +kernel | rfl), (by first | decide +kernel | rfl)⟩,
   ⟨{ up with xbar := { next := 5, txns := [(4, some { xfer with addr := 0x8001000040, port := 1, write := false, data := [] })] } },
       1, 4, { xfer with addr := 0x8001000040, port := 1, write := false, data := [] }, _,
       (0x008001000000, 0x800000, .sram),
       (by first | decide +kernel | rfl), (by first | decide +kernel | rfl), (by first | decide +kernel | rfl), (by first | decide +kernel | rfl), rfl, (by first | decide +kernel | rfl), (by first | decide +kernel | rfl), (by first | decide +kernel | rfl), (by first | decide +kernel | rfl), (by first | decide +kernel | rfl)⟩,
   ⟨{ up with xbar := { next := 5, txns := [(4, some { xfer with addr := 0x8001000040, port := 1 })] } }, 1, 4,
       { xfer with addr := 0x8001000040, port := 1 }, _, (0x008001000000, 0x800000, .sram),
       (by first | decide +kernel | rfl), (by first | decide +kernel | rfl), (by first | decide +kernel | rfl), (by first | decide +kernel | rfl), rfl, (by first | decide +kernel | rfl), (by first | decide +kernel | rfl), (by first | decide +kernel | rfl), (by first | decide +kernel | rfl), (by first | decide +kernel | rfl), (by first | decide +kernel | rfl)⟩⟩

/-- States and operands that meet the hypotheses of further clauses of `Obligations.CrossbarServesAndAnswers`. -/
theorem witness_CrossbarServesAndAnswers_2 :
  (∃ (s : State) (n : Fin 8) (id : Nat) (x : Txn) (y : State) (r : MapRow) (i : Nat) (z : State),
      s.testHeld (0x60 + n.val) (s.rd R.TP_XB 0 n) = false ∧ s.winner n = some (id, x) ∧ pget s.xbar.txns id = some x
      ∧ x.resp = none
      ∧ y = { s with xbar := { s.xbar with winners := mset (fun _ => 8) s.xbar.winners x.port x.master, txns := pset s.xbar.txns id (some { x with gen := some (s.rdf R.FW_GEN 0 31 0) }) } }
      ∧ rowOfRange x.addr x.len = some r ∧ s.fwRefusal x.master x.secure x.write x.addr x.len = none
      ∧ (s.fabricAgent x = none ∨ r.2.2 ≠ .regs) ∧ r.2.2 = .store 1 ∧ x.write = true ∧ r.2.2 = .store i
      ∧ s.storeLocked i = false ∧ z = y.setStoreMem i ((s.storeMem i).write (x.addr - r.1) x.data))
  ∧ (∃ (s : State) (n : Fin 8) (id : Nat) (x : Txn) (y : State) (r : MapRow) (i : Nat) (z : State),
      s.testHeld (0x60 + n.val) (s.rd R.TP_XB 0 n) = false ∧ s.winner n = some (id, x) ∧ pget s.xbar.txns id = some x
      ∧ x.resp = none
      ∧ y = { s with xbar := { s.xbar with winners := mset (fun _ => 8) s.xbar.winners x.port x.master, txns := pset s.xbar.txns id (some { x with gen := some (s.rdf R.FW_GEN 0 31 0) }) } }
      ∧ rowOfRange x.addr x.len = some r ∧ s.fwRefusal x.master x.secure x.write x.addr x.len = none
      ∧ (s.fabricAgent x = none ∨ r.2.2 ≠ .regs) ∧ r.2.2 = .store 1 ∧ x.write = true ∧ r.2.2 = .store i
      ∧ s.storeLocked i = true ∧ z = (y.raise 0x10 5).report 0x10 0 0x0B s.schedStat (s.rd R.LOAD_STAT))
  ∧ (∃ (s : State) (n : Fin 8) (id : Nat) (x : Txn) (y : State) (r : MapRow) (i : Nat),
      s.testHeld (0x60 + n.val) (s.rd R.TP_XB 0 n) = false ∧ s.winner n = some (id, x) ∧ pget s.xbar.txns id = some x
      ∧ x.resp = none
      ∧ y = { s with xbar := { s.xbar with winners := mset (fun _ => 8) s.xbar.winners x.port x.master, txns := pset s.xbar.txns id (some { x with gen := some (s.rdf R.FW_GEN 0 31 0) }) } }
      ∧ rowOfRange x.addr x.len = some r ∧ s.fwRefusal x.master x.secure x.write x.addr x.len = none
      ∧ (s.fabricAgent x = none ∨ r.2.2 ≠ .regs) ∧ r.2.2 = .store 1 ∧ x.write = false ∧ r.2.2 = .store i)
  ∧ (∃ (s : State) (n : Fin 8) (id : Nat) (x : Txn) (y : State) (r : MapRow),
      s.testHeld (0x60 + n.val) (s.rd R.TP_XB 0 n) = false ∧ s.winner n = some (id, x) ∧ pget s.xbar.txns id = some x
      ∧ x.resp = none
      ∧ y = { s with xbar := { s.xbar with winners := mset (fun _ => 8) s.xbar.winners x.port x.master, txns := pset s.xbar.txns id (some { x with gen := some (s.rdf R.FW_GEN 0 31 0) }) } }
      ∧ rowOfRange x.addr x.len = some r ∧ s.fwRefusal x.master x.secure x.write x.addr x.len = none
      ∧ (s.fabricAgent x = none ∨ r.2.2 ≠ .regs) ∧ r.2.2 = .aonSram ∧ x.write = true ∧ x.master ≤ 1 ∧ x.secure = true)
  ∧ (∃ (s : State) (n : Fin 8) (id : Nat) (x : Txn) (y : State) (r : MapRow),
      s.testHeld (0x60 + n.val) (s.rd R.TP_XB 0 n) = false ∧ s.winner n = some (id, x) ∧ pget s.xbar.txns id = some x
      ∧ x.resp = none
      ∧ y = { s with xbar := { s.xbar with winners := mset (fun _ => 8) s.xbar.winners x.port x.master, txns := pset s.xbar.txns id (some { x with gen := some (s.rdf R.FW_GEN 0 31 0) }) } }
      ∧ rowOfRange x.addr x.len = some r ∧ s.fwRefusal x.master x.secure x.write x.addr x.len = none
      ∧ (s.fabricAgent x = none ∨ r.2.2 ≠ .regs) ∧ r.2.2 = .aonSram ∧ x.write = true ∧ (1 < x.master ∨ x.secure = false))
  ∧ (∃ (s : State) (n : Fin 8) (id : Nat) (x : Txn) (y : State) (r : MapRow),
      s.testHeld (0x60 + n.val) (s.rd R.TP_XB 0 n) = false ∧ s.winner n = some (id, x) ∧ pget s.xbar.txns id = some x
      ∧ x.resp = none
      ∧ y = { s with xbar := { s.xbar with winners := mset (fun _ => 8) s.xbar.winners x.port x.master, txns := pset s.xbar.txns id (some { x with gen := some (s.rdf R.FW_GEN 0 31 0) }) } }
      ∧ rowOfRange x.addr x.len = some r ∧ s.fwRefusal x.master x.secure x.write x.addr x.len = none
      ∧ (s.fabricAgent x = none ∨ r.2.2 ≠ .regs) ∧ r.2.2 = .aonSram ∧ x.write = false)
  ∧ (∃ (s : State) (n : Fin 8) (id : Nat) (x : Txn) (y : State) (r : MapRow) (z : State),
      s.testHeld (0x60 + n.val) (s.rd R.TP_XB 0 n) = false ∧ s.winner n = some (id, x) ∧ pget s.xbar.txns id = some x
      ∧ x.resp = none
      ∧ y = { s with xbar := { s.xbar with winners := mset (fun _ => 8) s.xbar.winners x.port x.master, txns := pset s.xbar.txns id (some { x with gen := some (s.rdf R.FW_GEN 0 31 0) }) } }
      ∧ rowOfRange x.addr x.len = some r ∧ s.fwRefusal x.master x.secure x.write x.addr x.len = none
      ∧ (s.fabricAgent x = none ∨ r.2.2 ≠ .regs) ∧ r.2.2 = .staging ∧ x.write = false ∧ z = { y with free := s.free + 1 }) :=
  ⟨⟨{ up with xbar := { next := 5, txns := [(4, some { xfer with addr := 0x8005000040, port := 1 })] } }, 1, 4,
       { xfer with addr := 0x8005000040, port := 1 }, _, (0x008005000000, 0x1000000, .store 1), 1, _,
       (by first | decide +kernel | rfl), (by first | decide +kernel | rfl), (by first | decide +kernel | rfl), (by first | decide +kernel | rfl), rfl, (by first | decide +kernel | rfl), (by first | decide +kernel | rfl), (by first | decide +kernel | rfl), (by first | decide +kernel | rfl), (by first | decide +kernel | rfl), (by first | decide +kernel | rfl), (by first | decide +kernel | rfl), rfl⟩,
   ⟨{ up with xbar := { next := 5, txns := [(4, some { xfer with addr := 0x8005000040, port := 1 })] }, sched := { st1 := .armed } },
       1, 4, { xfer with addr := 0x8005000040, port := 1 }, _, (0x008005000000, 0x1000000, .store 1), 1, _,
       (by first | decide +kernel | rfl), (by first | decide +kernel | rfl), (by first | decide +kernel | rfl), (by first | decide +kernel | rfl), rfl, (by first | decide +kernel | rfl), (by first | decide +kernel | rfl), (by first | decide +kernel | rfl), (by first | decide +kernel | rfl), (by first | decide +kernel | rfl), (by first | decide +kernel | rfl), (by first | decide +kernel | rfl), rfl⟩,
   ⟨{ up with xbar := { next := 5, txns := [(4, some { xfer with addr := 0x8005000040, port := 1, write := false, data := [] })] } },
       1, 4, { xfer with addr := 0x8005000040, port := 1, write := false, data := [] }, _,
       (0x008005000000, 0x1000000, .store 1), 1,
       (by first | decide +kernel | rfl), (by first | decide +kernel | rfl), (by first | decide +kernel | rfl), (by first | decide +kernel | rfl), rfl, (by first | decide +kernel | rfl), (by first | decide +kernel | rfl), (by first | decide +kernel | rfl), (by first | decide +kernel | rfl), (by first | decide +kernel | rfl), (by first | decide +kernel | rfl)⟩,
   ⟨{ up with xbar := { next := 5, txns := [(4, some { xfer with addr := 0x8006000040, port := 1, master := 1, secure := true })] } },
       1, 4, { xfer with addr := 0x8006000040, port := 1, master := 1, secure := true }, _,
       (0x008006000000, 0x100000, .aonSram),
       (by first | decide +kernel | rfl), (by first | decide +kernel | rfl), (by first | decide +kernel | rfl), (by first | decide +kernel | rfl), rfl, (by first | decide +kernel | rfl), (by first | decide +kernel | rfl), (by first | decide +kernel | rfl), (by first | decide +kernel | rfl), (by first | decide +kernel | rfl), (by first | decide +kernel | rfl), (by first | decide +kernel | rfl)⟩,
   ⟨{ up with xbar := { next := 5, txns := [(4, some { xfer with addr := 0x8006000040, port := 1 })] } }, 1, 4,
       { xfer with addr := 0x8006000040, port := 1 }, _, (0x008006000000, 0x100000, .aonSram),
       (by first | decide +kernel | rfl), (by first | decide +kernel | rfl), (by first | decide +kernel | rfl), (by first | decide +kernel | rfl), rfl, (by first | decide +kernel | rfl), (by first | decide +kernel | rfl), (by first | decide +kernel | rfl), (by first | decide +kernel | rfl), (by first | decide +kernel | rfl), (by first | decide +kernel | rfl)⟩,
   ⟨{ up with xbar := { next := 5, txns := [(4, some { xfer with addr := 0x8006000040, port := 1, write := false, data := [] })] } },
       1, 4, { xfer with addr := 0x8006000040, port := 1, write := false, data := [] }, _,
       (0x008006000000, 0x100000, .aonSram),
       (by first | decide +kernel | rfl), (by first | decide +kernel | rfl), (by first | decide +kernel | rfl), (by first | decide +kernel | rfl), rfl, (by first | decide +kernel | rfl), (by first | decide +kernel | rfl), (by first | decide +kernel | rfl), (by first | decide +kernel | rfl), (by first | decide +kernel | rfl)⟩,
   ⟨{ up with xbar := { next := 5, txns := [(4, some { xfer with addr := 0x8008000040, port := 6, write := false, data := [] })] } },
       6, 4, { xfer with addr := 0x8008000040, port := 6, write := false, data := [] }, _,
       (0x008008000000, 0xA00000, .staging), _,
       (by first | decide +kernel | rfl), (by first | decide +kernel | rfl), (by first | decide +kernel | rfl), (by first | decide +kernel | rfl), rfl, (by first | decide +kernel | rfl), (by first | decide +kernel | rfl), (by first | decide +kernel | rfl), (by first | decide +kernel | rfl), (by first | decide +kernel | rfl), rfl⟩⟩

/-- States and operands that meet the hypotheses of further clauses of `Obligations.CrossbarServesAndAnswers`. -/
theorem witness_CrossbarServesAndAnswers_3 :
  (∃ (s : State) (n : Fin 8) (id : Nat) (x : Txn) (y : State) (r : MapRow),
      s.testHeld (0x60 + n.val) (s.rd R.TP_XB 0 n) = false ∧ s.winner n = some (id, x) ∧ pget s.xbar.txns id = some x
      ∧ x.resp = none
      ∧ y = { s with xbar := { s.xbar with winners := mset (fun _ => 8) s.xbar.winners x.port x.master, txns := pset s.xbar.txns id (some { x with gen := some (s.rdf R.FW_GEN 0 31 0) }) } }
      ∧ rowOfRange x.addr x.len = some r ∧ s.fwRefusal x.master x.secure x.write x.addr x.len = none
      ∧ (s.fabricAgent x = none ∨ r.2.2 ≠ .regs) ∧ r.2.2 = .rom ∧ x.write = true)
  ∧ (∃ (s : State) (n : Fin 8) (id : Nat) (x : Txn) (y : State) (r : MapRow),
      s.testHeld (0x60 + n.val) (s.rd R.TP_XB 0 n) = false ∧ s.winner n = some (id, x) ∧ pget s.xbar.txns id = some x
      ∧ x.resp = none
      ∧ y = { s with xbar := { s.xbar with winners := mset (fun _ => 8) s.xbar.winners x.port x.master, txns := pset s.xbar.txns id (some { x with gen := some (s.rdf R.FW_GEN 0 31 0) }) } }
      ∧ rowOfRange x.addr x.len = some r ∧ s.fwRefusal x.master x.secure x.write x.addr x.len = none
      ∧ (s.fabricAgent x = none ∨ r.2.2 ≠ .regs) ∧ r.2.2 = .nvm ∧ x.write = true)
  ∧ (∃ (s : State) (n : Fin 8) (id : Nat) (x : Txn) (y : State) (r : MapRow),
      s.testHeld (0x60 + n.val) (s.rd R.TP_XB 0 n) = false ∧ s.winner n = some (id, x) ∧ pget s.xbar.txns id = some x
      ∧ x.resp = none
      ∧ y = { s with xbar := { s.xbar with winners := mset (fun _ => 8) s.xbar.winners x.port x.master, txns := pset s.xbar.txns id (some { x with gen := some (s.rdf R.FW_GEN 0 31 0) }) } }
      ∧ rowOfRange x.addr x.len = some r ∧ s.fwRefusal x.master x.secure x.write x.addr x.len = none
      ∧ (s.fabricAgent x = none ∨ r.2.2 ≠ .regs) ∧ r.2.2 = .staging ∧ x.write = true)
  ∧ (∃ (s : State) (n : Fin 8) (id : Nat) (x : Txn) (y : State) (r : MapRow) (z : State),
      s.testHeld (0x60 + n.val) (s.rd R.TP_XB 0 n) = false ∧ s.winner n = some (id, x) ∧ pget s.xbar.txns id = some x
      ∧ x.resp = none
      ∧ y = { s with xbar := { s.xbar with winners := mset (fun _ => 8) s.xbar.winners x.port x.master, txns := pset s.xbar.txns id (some { x with gen := some (s.rdf R.FW_GEN 0 31 0) }) } }
      ∧ rowOfRange x.addr x.len = some r ∧ s.fwRefusal x.master x.secure x.write x.addr x.len = none ∧ r.2.2 = .regs
      ∧ s.fabricAgent x = none
      ∧ z = y.recordRejects [{ agent := 4, page := (x.addr - r.1) / 4096, bank := 0, off := (x.addr - r.1) % 4096, code := .access }])
  ∧ (∃ (s : State) (n : Fin 8) (id : Nat) (x : Txn) (y : State) (r : MapRow) (a : Agent),
      s.testHeld (0x60 + n.val) (s.rd R.TP_XB 0 n) = false ∧ s.winner n = some (id, x) ∧ pget s.xbar.txns id = some x
      ∧ x.resp = none
      ∧ y = { s with xbar := { s.xbar with winners := mset (fun _ => 8) s.xbar.winners x.port x.master, txns := pset s.xbar.txns id (some { x with gen := some (s.rdf R.FW_GEN 0 31 0) }) } }
      ∧ rowOfRange x.addr x.len = some r ∧ s.fwRefusal x.master x.secure x.write x.addr x.len = none ∧ r.2.2 = .regs
      ∧ s.fabricAgent x = some a)
  ∧ (∃ (s : State) (n : Fin 8) (id : Nat) (x : Txn) (y : State) (r : MapRow),
      s.testHeld (0x60 + n.val) (s.rd R.TP_XB 0 n) = false ∧ s.winner n = some (id, x) ∧ pget s.xbar.txns id = some x
      ∧ x.resp = none
      ∧ y = { s with xbar := { s.xbar with winners := mset (fun _ => 8) s.xbar.winners x.port x.master, txns := pset s.xbar.txns id (some { x with gen := some (s.rdf R.FW_GEN 0 31 0) }) } }
      ∧ rowOfRange x.addr x.len = some r ∧ s.fwRefusal x.master x.secure x.write x.addr x.len = none
      ∧ (s.fabricAgent x = none ∨ r.2.2 ≠ .regs) ∧ r.2.2 = .host ∧ s.pcieMaster = false)
  ∧ (∃ (s : State) (n : Fin 8) (id : Nat) (x : Txn) (y : State) (r : MapRow),
      s.testHeld (0x60 + n.val) (s.rd R.TP_XB 0 n) = false ∧ s.winner n = some (id, x) ∧ pget s.xbar.txns id = some x
      ∧ x.resp = none
      ∧ y = { s with xbar := { s.xbar with winners := mset (fun _ => 8) s.xbar.winners x.port x.master, txns := pset s.xbar.txns id (some { x with gen := some (s.rdf R.FW_GEN 0 31 0) }) } }
      ∧ rowOfRange x.addr x.len = some r ∧ s.fwRefusal x.master x.secure x.write x.addr x.len = none
      ∧ (s.fabricAgent x = none ∨ r.2.2 ≠ .regs) ∧ r.2.2 = .host ∧ x.write = true ∧ s.pcieMaster = true) :=
  ⟨⟨{ up with xbar := { next := 5, txns := [(4, some { xfer with addr := 0x8000000040, port := 2 })] } }, 2, 4,
       { xfer with addr := 0x8000000040, port := 2 }, _, (0x008000000000, 0x100000, .rom),
       (by first | decide +kernel | rfl), (by first | decide +kernel | rfl), (by first | decide +kernel | rfl), (by first | decide +kernel | rfl), rfl, (by first | decide +kernel | rfl), (by first | decide +kernel | rfl), (by first | decide +kernel | rfl), (by first | decide +kernel | rfl), (by first | decide +kernel | rfl)⟩,
   ⟨{ up with xbar := { next := 5, txns := [(4, some { xfer with addr := 0x8002000040, port := 3 })] } }, 3, 4,
       { xfer with addr := 0x8002000040, port := 3 }, _, (0x008002000000, 0x1000000, .nvm),
       (by first | decide +kernel | rfl), (by first | decide +kernel | rfl), (by first | decide +kernel | rfl), (by first | decide +kernel | rfl), rfl, (by first | decide +kernel | rfl), (by first | decide +kernel | rfl), (by first | decide +kernel | rfl), (by first | decide +kernel | rfl), (by first | decide +kernel | rfl)⟩,
   ⟨{ up with xbar := { next := 5, txns := [(4, some { xfer with addr := 0x8008000040, port := 6 })] } }, 6, 4,
       { xfer with addr := 0x8008000040, port := 6 }, _, (0x008008000000, 0xA00000, .staging),
       (by first | decide +kernel | rfl), (by first | decide +kernel | rfl), (by first | decide +kernel | rfl), (by first | decide +kernel | rfl), rfl, (by first | decide +kernel | rfl), (by first | decide +kernel | rfl), (by first | decide +kernel | rfl), (by first | decide +kernel | rfl), (by first | decide +kernel | rfl)⟩,
   ⟨{ up with xbar := { next := 5, txns := [(4, some { xfer with addr := 0x8003000040, port := 4 })] } }, 4, 4,
       { xfer with addr := 0x8003000040, port := 4 }, _, (0x008003000000, 0x80000, .regs), _,
       (by first | decide +kernel | rfl), (by first | decide +kernel | rfl), (by first | decide +kernel | rfl), (by first | decide +kernel | rfl), rfl, (by first | decide +kernel | rfl), (by first | decide +kernel | rfl), (by first | decide +kernel | rfl), (by first | decide +kernel | rfl), rfl⟩,
   ⟨{ up with xbar := { next := 5, txns := [(4, some { xfer with addr := 0x8003000040, port := 4, master := 6, write := false, data := [], len := 8 })] } },
       4, 4, { xfer with addr := 0x8003000040, port := 4, master := 6, write := false, data := [], len := 8 }, _,
       (0x008003000000, 0x80000, .regs), .debug,
       (by first | decide +kernel | rfl), (by first | decide +kernel | rfl), (by first | decide +kernel | rfl), (by first | decide +kernel | rfl), rfl, (by first | decide +kernel | rfl), (by first | decide +kernel | rfl), (by first | decide +kernel | rfl), (by first | decide +kernel | rfl)⟩,
   ⟨{ up with xbar := { next := 5, txns := [(4, some { xfer with addr := 0x800000000040, port := 5, write := false, data := [] })] } },
       5, 4, { xfer with addr := 0x800000000040, port := 5, write := false, data := [] }, _,
       (0x800000000000, 0x800000000000, .host),
       (by first | decide +kernel | rfl), (by first | decide +kernel | rfl), (by first | decide +kernel | rfl), (by first | decide +kernel | rfl), rfl, (by first | decide +kernel | rfl), (by first | decide +kernel | rfl), (by first | decide +kernel | rfl), (by first | decide +kernel | rfl), (by first | decide +kernel | rfl)⟩,
   ⟨{ up with xbar := { next := 5, txns := [(4, some { xfer with addr := 0x800000000040, port := 5 })] }, pcie := { up := true, bme := true } },
       5, 4, { xfer with addr := 0x800000000040, port := 5 }, _, (0x800000000000, 0x800000000000, .host),
       (by first | decide +kernel | rfl), (by first | decide +kernel | rfl), (by first | decide +kernel | rfl), (by first | decide +kernel | rfl), rfl, (by first | decide +kernel | rfl), (by first | decide +kernel | rfl), (by first | decide +kernel | rfl), (by first | decide +kernel | rfl), (by first | decide +kernel | rfl), (by first | decide +kernel | rfl)⟩⟩

/-- States and operands that meet the hypotheses of further clauses of `Obligations.CrossbarServesAndAnswers`. -/
theorem witness_CrossbarServesAndAnswers_4 :
  (∃ (s : State) (n : Fin 8) (id : Nat) (x : Txn) (y : State) (r : MapRow) (z : State),
      s.testHeld (0x60 + n.val) (s.rd R.TP_XB 0 n) = false ∧ s.winner n = some (id, x) ∧ pget s.xbar.txns id = some x
      ∧ x.resp = none
      ∧ y = { s with xbar := { s.xbar with winners := mset (fun _ => 8) s.xbar.winners x.port x.master, txns := pset s.xbar.txns id (some { x with gen := some (s.rdf R.FW_GEN 0 31 0) }) } }
      ∧ rowOfRange x.addr x.len = some r ∧ s.fwRefusal x.master x.secure x.write x.addr x.len = none
      ∧ (s.fabricAgent x = none ∨ r.2.2 ≠ .regs) ∧ r.2.2 = .host ∧ x.write = false ∧ s.pcieMaster = true
      ∧ z = y.tlps id false (x.addr - r.1) x.data (x.len + 1) 0 x.len)
  ∧ (∃ (s : State) (n : Fin 8) (id : Nat) (x : Txn) (y : State) (r : MapRow) (k : Nat),
      s.testHeld (0x60 + n.val) (s.rd R.TP_XB 0 n) = false ∧ s.winner n = some (id, x) ∧ pget s.xbar.txns id = some x
      ∧ x.resp = none
      ∧ y = { s with xbar := { s.xbar with winners := mset (fun _ => 8) s.xbar.winners x.port x.master, txns := pset s.xbar.txns id (some { x with gen := some (s.rdf R.FW_GEN 0 31 0) }) } }
      ∧ rowOfRange x.addr x.len = some r ∧ s.fwRefusal x.master x.secure x.write x.addr x.len = none
      ∧ (s.fabricAgent x = none ∨ r.2.2 ≠ .regs) ∧ r.2.2 = .mesh k ∧ s.meshZ ≠ 0 ∧ k = s.meshSelf)
  ∧ (∃ (s : State) (n : Fin 8) (id : Nat) (x : Txn) (y : State) (r : MapRow) (k : Nat),
      s.testHeld (0x60 + n.val) (s.rd R.TP_XB 0 n) = false ∧ s.winner n = some (id, x) ∧ pget s.xbar.txns id = some x
      ∧ x.resp = none
      ∧ y = { s with xbar := { s.xbar with winners := mset (fun _ => 8) s.xbar.winners x.port x.master, txns := pset s.xbar.txns id (some { x with gen := some (s.rdf R.FW_GEN 0 31 0) }) } }
      ∧ rowOfRange x.addr x.len = some r ∧ s.fwRefusal x.master x.secure x.write x.addr x.len = none
      ∧ (s.fabricAgent x = none ∨ r.2.2 ≠ .regs) ∧ r.2.2 = .mesh k ∧ (s.meshZ = 0 ∨ k ≠ s.meshSelf))
  ∧ (∃ (s : State) (id : Nat) (x : Txn) (e : Bool) (q : Bool) (d : List Byte) (y : State) (z : State),
      pget s.xbar.txns id = some x ∧ x.resp = some (e, q, d) ∧ x.respAt + s.xbDelay x.port ≤ s.time.total
      ∧ y = { s with xbar := { s.xbar with txns := pset s.xbar.txns id none } }
      ∧ z = (if s.fenceDone = false ∧ y.fenceDone = true then y.raise 0x0C 2 else y))
  ∧ (∃ (s : State) (id : Nat) (x : Txn) (e : Bool) (q : Bool) (d : List Byte) (y : State) (z : State),
      pget s.xbar.txns id = some x ∧ x.resp = some (e, q, d) ∧ x.respAt + s.xbDelay x.port ≤ s.time.total
      ∧ y = { s with xbar := { s.xbar with txns := pset s.xbar.txns id none } }
      ∧ z = (if s.fenceDone = false ∧ y.fenceDone = true then y.raise 0x0C 2 else y))
  ∧ (∃ (s : State) (id : Nat) (x : Txn) (e : Bool) (q : Bool) (d : List Byte) (y : State) (z : State),
      pget s.xbar.txns id = some x ∧ x.resp = some (e, q, d) ∧ x.respAt + s.xbDelay x.port ≤ s.time.total
      ∧ y = { s with xbar := { s.xbar with txns := pset s.xbar.txns id none } }
      ∧ z = (if s.fenceDone = false ∧ y.fenceDone = true then y.raise 0x0C 2 else y) ∧ s.dma = {}
      ∧ (x.origin = .outside ∨ (x.origin = .pcie ∧ x.write = true ∧ e = false)))
  ∧ (∃ (s : State) (id : Nat) (x : Txn) (e : Bool) (q : Bool) (d : List Byte) (y : State) (z : State),
      pget s.xbar.txns id = some x ∧ x.resp = some (e, q, d) ∧ x.respAt + s.xbDelay x.port ≤ s.time.total
      ∧ y = { s with xbar := { s.xbar with txns := pset s.xbar.txns id none } }
      ∧ z = (if s.fenceDone = false ∧ y.fenceDone = true then y.raise 0x0C 2 else y) ∧ s.dma = {} ∧ x.origin = .pcie
      ∧ x.write = true ∧ e = true)
  ∧ (∃ (s : State) (id : Nat) (x : Txn) (e : Bool) (q : Bool) (d : List Byte) (y : State) (z : State),
      pget s.xbar.txns id = some x ∧ x.resp = some (e, q, d) ∧ x.respAt + s.xbDelay x.port ≤ s.time.total
      ∧ y = { s with xbar := { s.xbar with txns := pset s.xbar.txns id none } }
      ∧ z = (if s.fenceDone = false ∧ y.fenceDone = true then y.raise 0x0C 2 else y) ∧ s.dma = {} ∧ x.origin = .pcie
      ∧ x.write = false ∧ e = false ∧ q = false)
  ∧ (∃ (s : State) (id : Nat) (x : Txn) (e : Bool) (q : Bool) (d : List Byte) (y : State) (z : State),
      pget s.xbar.txns id = some x ∧ x.resp = some (e, q, d) ∧ x.respAt + s.xbDelay x.port ≤ s.time.total
      ∧ y = { s with xbar := { s.xbar with txns := pset s.xbar.txns id none } }
      ∧ z = (if s.fenceDone = false ∧ y.fenceDone = true then y.raise 0x0C 2 else y) ∧ s.dma = {} ∧ x.origin = .pcie
      ∧ x.write = false ∧ e = true ∧ q = false) :=
  ⟨⟨{ up with xbar := { next := 5, txns := [(4, some { xfer with addr := 0x800000000040, port := 5, write := false, data := [] })] }, pcie := { up := true, bme := true } },
       5, 4, { xfer with addr := 0x800000000040, port := 5, write := false, data := [] }, _,
       (0x800000000000, 0x800000000000, .host), _,
       (by first | decide +kernel | rfl), (by first | decide +kernel | rfl), (by first | decide +kernel | rfl), (by first | decide +kernel | rfl), rfl, (by first | decide +kernel | rfl), (by first | decide +kernel | rfl), (by first | decide +kernel | rfl), (by first | decide +kernel | rfl), (by first | decide +kernel | rfl), (by first | decide +kernel | rfl), rfl⟩,
   ⟨{ meshUp 2 with xbar := { next := 5, txns := [(4, some (meshTxn 0))] } }, 7, 4, meshTxn 0, _,
       (0x100000000000, 0x10000000000, .mesh 0), 0,
       (by first | decide +kernel | rfl), (by first | decide +kernel | rfl), (by first | decide +kernel | rfl), (by first | decide +kernel | rfl), rfl, (by first | decide +kernel | rfl), (by first | decide +kernel | rfl), (by first | decide +kernel | rfl), (by first | decide +kernel | rfl), (by first | decide +kernel | rfl), (by first | decide +kernel | rfl)⟩,
   ⟨{ meshUp 2 with xbar := { next := 5, txns := [(4, some (meshTxn 1))] } }, 7, 4, meshTxn 1, _,
       (0x110000000000, 0x10000000000, .mesh 1), 1,
       (by first | decide +kernel | rfl), (by first | decide +kernel | rfl), (by first | decide +kernel | rfl), (by first | decide +kernel | rfl), rfl, (by first | decide +kernel | rfl), (by first | decide +kernel | rfl), (by first | decide +kernel | rfl), (by first | decide +kernel | rfl), (by first | decide +kernel | rfl)⟩,
   ⟨{ up with xbar := { next := 5, txns := [(4, some { xfer with resp := some (false, false, [9]), origin := .pcie, write := false, data := [], len := 1 })] } },
       4, { xfer with resp := some (false, false, [9]), origin := .pcie, write := false, data := [], len := 1 },
       false, false, [9], _, _,
       (by first | decide +kernel | rfl), (by first | decide +kernel | rfl), (by first | decide +kernel | rfl), rfl, rfl⟩,
   ⟨{ up with xbar := { next := 5, txns := [(4, some { xfer with resp := some (true, false, []), gen := some 0, origin := .dmaFetch 5 0 })] } },
       4, { xfer with resp := some (true, false, []), gen := some 0, origin := .dmaFetch 5 0 }, true, false, [], _, _,
       (by first | decide +kernel | rfl), (by first | decide +kernel | rfl), (by first | decide +kernel | rfl), rfl, rfl⟩,
   ⟨{ up with xbar := { next := 5, txns := [(4, some { xfer with resp := some (true, false, []) })] } }, 4,
       { xfer with resp := some (true, false, []) }, true, false, [], _, _,
       (by first | decide +kernel | rfl), (by first | decide +kernel | rfl), (by first | decide +kernel | rfl), rfl, rfl, (by first | decide +kernel | rfl), (by first | decide +kernel | rfl)⟩,
   ⟨{ up with xbar := { next := 5, txns := [(4, some { xfer with resp := some (true, false, []), origin := .pcie })] } },
       4, { xfer with resp := some (true, false, []), origin := .pcie }, true, false, [], _, _,
       (by first | decide +kernel | rfl), (by first | decide +kernel | rfl), (by first | decide +kernel | rfl), rfl, rfl, (by first | decide +kernel | rfl), (by first | decide +kernel | rfl), (by first | decide +kernel | rfl), (by first | decide +kernel | rfl)⟩,
   ⟨{ up with xbar := { next := 5, txns := [(4, some { xfer with resp := some (false, false, [9]), origin := .pcie, write := false, data := [], len := 1 })] } },
       4, { xfer with resp := some (false, false, [9]), origin := .pcie, write := false, data := [], len := 1 },
       false, false, [9], _, _,
       (by first | decide +kernel | rfl), (by first | decide +kernel | rfl), (by first | decide +kernel | rfl), rfl, rfl, (by first | decide +kernel | rfl), (by first | decide +kernel | rfl), (by first | decide +kernel | rfl), (by first | decide +kernel | rfl), (by first | decide +kernel | rfl)⟩,
   ⟨{ up with xbar := { next := 5, txns := [(4, some { xfer with resp := some (true, false, []), origin := .pcie, write := false, data := [], len := 1 })] } },
       4, { xfer with resp := some (true, false, []), origin := .pcie, write := false, data := [], len := 1 }, true,
       false, [], _, _,
       (by first | decide +kernel | rfl), (by first | decide +kernel | rfl), (by first | decide +kernel | rfl), rfl, rfl, (by first | decide +kernel | rfl), (by first | decide +kernel | rfl), (by first | decide +kernel | rfl), (by first | decide +kernel | rfl), (by first | decide +kernel | rfl)⟩⟩

/-- States and operands that meet the hypotheses of further clauses of `Obligations.CrossbarServesAndAnswers`. -/
theorem witness_CrossbarServesAndAnswers_5 :
  (∃ (s : State) (id : Nat) (x : Txn) (e : Bool) (q : Bool) (d : List Byte) (y : State) (z : State),
      pget s.xbar.txns id = some x ∧ x.resp = some (e, q, d) ∧ x.respAt + s.xbDelay x.port ≤ s.time.total
      ∧ y = { s with xbar := { s.xbar with txns := pset s.xbar.txns id none } }
      ∧ z = (if s.fenceDone = false ∧ y.fenceDone = true then y.raise 0x0C 2 else y) ∧ s.dma = {} ∧ x.origin = .pcie
      ∧ x.write = false ∧ q = true)
  ∧ (∃ (s : State) (id : Nat), (pget s.xbar.txns id).bind (·.resp) = none)
  ∧ (∃ (s : State) (id : Nat) (x : Txn), pget s.xbar.txns id = some x ∧ s.time.total < x.respAt + s.xbDelay x.port) :=
  ⟨⟨{ up with xbar := { next := 5, txns := [(4, some { xfer with resp := some (true, true, []), origin := .pcie, write := false, data := [], len := 1 })] } },
       4, { xfer with resp := some (true, true, []), origin := .pcie, write := false, data := [], len := 1 }, true,
       true, [], _, _,
       (by first | decide +kernel | rfl), (by first | decide +kernel | rfl), (by first | decide +kernel | rfl), rfl, rfl, (by first | decide +kernel | rfl), (by first | decide +kernel | rfl), (by first | decide +kernel | rfl), (by first | decide +kernel | rfl)⟩,
   ⟨xferAt [], 4, by decide +kernel⟩,
   ⟨{ up with xbar := { next := 5, txns := [(4, some { xfer with resp := some (true, false, []), respAt := 9 })] } }, 4,
       { xfer with resp := some (true, false, []), respAt := 9 }, by decide +kernel⟩⟩

/-- States and operands that meet the hypotheses of the first clauses of `Obligations.ChannelsAreCommanded`. -/
theorem witness_ChannelsAreCommanded :
  (∃ (s : State) (a : Agent) (c : Nat) (y : State), s.accepts a 0x59 R.CH_CMD.off 1 = true
      ∧ fld (s.rdAgent R.CH_SEL 0 a) 5 0 = c ∧ y = s.setCh c { state := .run, pc := fld (s.chProg c) 47 0 })
  ∧ (∃ (s : State) (a : Agent) (c : Nat) (v : Word), s.accepts a 0x59 R.CH_CMD.off 1 = true
      ∧ fld (s.rdAgent R.CH_SEL 0 a) 5 0 = c ∧ s.dma = { chan := [], events := v } ∧ s.rd R.TP_DMA = 0 ∧ s.dmaOut 3 < 2048
      ∧ s.dmaOut 4 < 2048 ∧ (rowOfRange (fld (s.chProg c) 47 0) 8).isSome = true)
  ∧ (∃ (s : State) (a : Agent) (c : Nat), s.accepts a 0x59 R.CH_CMD.off 2 = true ∧ fld (s.rdAgent R.CH_SEL 0 a) 5 0 = c
      ∧ s.finalPending c = false ∧ (s.ch c).held.length < (s.ch c).out)
  ∧ (∃ (s : State) (a : Agent) (c : Nat), s.accepts a 0x59 R.CH_CMD.off 2 = true ∧ fld (s.rdAgent R.CH_SEL 0 a) 5 0 = c
      ∧ s.finalPending c = false ∧ (s.ch c).out ≤ (s.ch c).held.length
      ∧ (bit (s.chCfg c) 39 = false ∨ s.cplRing (fld (s.chCfg c) 51 40) = false))
  ∧ (∃ (s : State) (a : Agent) (c : Nat) (y : State) (z : State), s.accepts a 0x59 R.CH_CMD.off 2 = true
      ∧ fld (s.rdAgent R.CH_SEL 0 a) 5 0 = c ∧ s.finalPending c = false ∧ (s.ch c).out ≤ (s.ch c).held.length
      ∧ bit (s.chCfg c) 39 = true ∧ s.cplRing (fld (s.chCfg c) 51 40) = true
      ∧ y = s.setCh c { s.ch c with state := .stopping, status := 6, ending := some (6, 0), copy := none, out := 0, held := [], discarded := (s.ch c).unwritten }
      ∧ (s.ring (fld (s.chCfg c) 51 40)).room ≠ 0 ∧ z = y.ringProduce (fld (s.chCfg c) 51 40) (y.cplWords c 6 0) (some c))
  ∧ (∃ (s : State) (a : Agent) (c : Nat) (y : State), s.accepts a 0x59 R.CH_CMD.off 2 = true
      ∧ fld (s.rdAgent R.CH_SEL 0 a) 5 0 = c ∧ s.finalPending c = false ∧ (s.ch c).out ≤ (s.ch c).held.length
      ∧ bit (s.chCfg c) 39 = true ∧ s.cplRing (fld (s.chCfg c) 51 40) = true
      ∧ y = s.setCh c { s.ch c with state := .stopping, status := 6, ending := some (6, 0), copy := none, out := 0, held := [], discarded := (s.ch c).unwritten }
      ∧ (s.ring (fld (s.chCfg c) 51 40)).room = 0 ∧ (s.ch c).full = false)
  ∧ (∃ (s : State) (a : Agent) (c : Nat) (y : State), s.accepts a 0x59 R.CH_CMD.off 2 = true
      ∧ fld (s.rdAgent R.CH_SEL 0 a) 5 0 = c ∧ s.finalPending c = false ∧ (s.ch c).out ≤ (s.ch c).held.length
      ∧ bit (s.chCfg c) 39 = true ∧ s.cplRing (fld (s.chCfg c) 51 40) = true
      ∧ y = s.setCh c { s.ch c with state := .stopping, status := 6, ending := some (6, 0), copy := none, out := 0, held := [], discarded := (s.ch c).unwritten }
      ∧ (s.ring (fld (s.chCfg c) 51 40)).room = 0 ∧ (s.ch c).full = true)
  ∧ (∃ (s : State) (a : Agent) (c : Nat) (n : Nat) (g : Nat), s.accepts a 0x59 R.CH_CMD.off 2 = true
      ∧ fld (s.rdAgent R.CH_SEL 0 a) 5 0 = c ∧ s.finalPending c = true ∧ (s.ch c).ending = some (n, g))
  ∧ (∃ (s : State) (a : Agent) (c : Nat), s.accepts a 0x59 R.CH_CMD.off 4 = true ∧ fld (s.rdAgent R.CH_SEL 0 a) 5 0 = c
      ∧ s.finalPending c = false)
  ∧ (∃ (s : State) (a : Agent) (c : Nat) (n : Nat) (g : Nat), s.accepts a 0x59 R.CH_CMD.off 4 = true
      ∧ fld (s.rdAgent R.CH_SEL 0 a) 5 0 = c ∧ s.finalPending c = true ∧ (s.ch c).ending = some (n, g))
  ∧ (∃ (s : State) (a : Agent) (v : Word), s.accepts a 0x59 R.DMA_EVT_SET.off v = true)
  ∧ (∃ (s : State) (a : Agent) (v : Word), s.accepts a 0x59 R.DMA_EVT_CLR.off v = true) :=
  ⟨⟨{ up with regs := hostOn 0x59 0 ++ [(R.CH_SEL.key 0 0 3, 63), (chKey 63 R.CH_PROG.off, 64)] }, .host, 63, _,
       (by first | decide +kernel | rfl), (by first | decide +kernel | rfl), rfl⟩,
   ⟨{ up with regs := hostOn 0x59 0 ++ [(R.CH_SEL.key 0 0 3, 63), (chKey 63 R.CH_PROG.off, 64)], dma := { events := 6 } },
       .host, 63, 6, by decide +kernel⟩,
   ⟨{ up with regs := hostOn 0x59 0 ++ [(R.CH_SEL.key 0 0 3, 63)], dma := { chan := [(63, { state := .run, out := 1 })] } },
       .host, 63, by decide +kernel⟩,
   ⟨{ up with regs := hostOn 0x59 0 ++ [(R.CH_SEL.key 0 0 3, 63)], dma := { chan := [(63, { state := .run })] } }, .host,
       63, by decide +kernel⟩,
   ⟨{ up with regs := hostOn 0x59 0 ++ [(R.CH_SEL.key 0 0 3, 63), (chKey 63 R.CH_CFG.off, 0x0000098000000000)], dma := { chan := [(63, { state := .run })] }, net := { ring := [(9, { d0 := 0x5001000000020000, d1 := 0 })] } },
       .host, 63, _, _,
       (by first | decide +kernel | rfl), (by first | decide +kernel | rfl), (by first | decide +kernel | rfl), (by first | decide +kernel | rfl), (by first | decide +kernel | rfl), (by first | decide +kernel | rfl), rfl, (by first | decide +kernel | rfl), rfl⟩,
   ⟨{ up with regs := hostOn 0x59 0 ++ [(R.CH_SEL.key 0 0 3, 63), (chKey 63 R.CH_CFG.off, 0x0000098000000000)], dma := { chan := [(63, { state := .run })] }, net := { ring := [(9, { d0 := 0x5001000000020000, alloc := 2 })] } },
       .host, 63, _,
       (by first | decide +kernel | rfl), (by first | decide +kernel | rfl), (by first | decide +kernel | rfl), (by first | decide +kernel | rfl), (by first | decide +kernel | rfl), (by first | decide +kernel | rfl), rfl, (by first | decide +kernel | rfl), (by first | decide +kernel | rfl)⟩,
   ⟨{ up with regs := hostOn 0x59 0 ++ [(R.CH_SEL.key 0 0 3, 63), (chKey 63 R.CH_CFG.off, 0x0000098000000000)], dma := { chan := [(63, { state := .run, full := true })] }, net := { ring := [(9, { d0 := 0x5001000000020000, alloc := 2 })] } },
       .host, 63, _,
       (by first | decide +kernel | rfl), (by first | decide +kernel | rfl), (by first | decide +kernel | rfl), (by first | decide +kernel | rfl), (by first | decide +kernel | rfl), (by first | decide +kernel | rfl), rfl, (by first | decide +kernel | rfl), (by first | decide +kernel | rfl)⟩,
   ⟨{ up with regs := hostOn 0x59 0 ++ [(R.CH_SEL.key 0 0 3, 63), (chKey 63 R.CH_CFG.off, 0x0000098000000000)], dma := { chan := [(63, { state := .stopping, status := 6, ending := some (6, 0) })] }, net := { ring := [(9, { d0 := 0x5001000000020000, alloc := 2 })] } },
       .host, 63, 6, 0, by decide +kernel⟩,
   ⟨{ up with regs := hostOn 0x59 0 ++ [(R.CH_SEL.key 0 0 3, 63)], dma := { chan := [(63, { state := .halted, status := 4 })] } },
       .host, 63, by decide +kernel⟩,
   ⟨{ up with regs := hostOn 0x59 0 ++ [(R.CH_SEL.key 0 0 3, 63), (chKey 63 R.CH_CFG.off, 0x0000098000000000)], dma := { chan := [(63, { state := .stopping, status := 1, ending := some (1, 0) })] }, net := { ring := [(9, { d0 := 0x5001000000020000, alloc := 2 })] } },
       .host, 63, 1, 0, by decide +kernel⟩,
   ⟨up, .host, 0x8000000000000001, by decide +kernel⟩,
   ⟨{ up with dma := { events := 3 } }, .host, 0x8000000000000001, by decide +kernel⟩⟩

/-- States and operands that meet the hypotheses of further clauses of `Obligations.ChannelsAreCommanded`. -/
theorem witness_ChannelsAreCommanded_2 :
  (∃ (s : State) (c : Fin 64) (n : Nat) (x : Txn) (rest : List (Nat × Txn)) (o : Origin) (y : State),
      (s.ch c).held = (n, x) :: rest ∧ s.dmaHeld (x.waited + 512 + testDelay (s.rd R.TP_DMA)) = false
      ∧ s.dmaOut x.master < 2048
      ∧ o = (match x.origin with | .dmaFetch k i => .dmaFetch k (i + 1) | .dmaRead k i q => .dmaRead k (i + 1) q | .dmaWrite k i q => .dmaWrite k (i + 1) q | o => o)
      ∧ y = (s.setCh c { s.ch c with held := rest, pages := (s.ch c).pages.map fun p => if p.txn = n then { p with txn := s.xbar.next } else p }).countf R.DMA_ERR 0 63 48)
  ∧ (∃ (s : State) (c : Fin 64), (s.ch c).held = [])
  ∧ (∃ (s : State) (c : Fin 64) (n : Nat) (x : Txn) (rest : List (Nat × Txn)), (s.ch c).held = (n, x) :: rest
      ∧ (s.dmaHeld (x.waited + 512 + testDelay (s.rd R.TP_DMA)) = true ∨ 2048 ≤ s.dmaOut x.master))
  ∧ (∃ (s : State) (c : Fin 64) (g : Nat) (k : Chan), (s.ch c).ending = some (2, g) ∧ (s.ch c).state = .stopping
      ∧ (s.ch c).out = 0 ∧ k = { s.ch c with discarded := (s.ch c).unwritten, pages := [] }
      ∧ (bit (s.chCfg c) 39 = false ∨ s.cplRing (fld (s.chCfg c) 51 40) = false))
  ∧ (∃ (s : State) (c : Fin 64) (g : Nat) (k : Chan) (y : State) (z : State), (s.ch c).ending = some (2, g)
      ∧ (s.ch c).state = .stopping ∧ (s.ch c).out = 0 ∧ k = { s.ch c with discarded := (s.ch c).unwritten, pages := [] }
      ∧ bit (s.chCfg c) 39 = true ∧ s.cplRing (fld (s.chCfg c) 51 40) = true ∧ (s.ring (fld (s.chCfg c) 51 40)).room ≠ 0
      ∧ y = s.setCh c k ∧ z = y.ringProduce (fld (s.chCfg c) 51 40) (y.cplWords c 2 g) (some c))
  ∧ (∃ (s : State) (c : Fin 64) (g : Nat) (k : Chan), (s.ch c).ending = some (2, g) ∧ (s.ch c).state = .stopping
      ∧ (s.ch c).out = 0 ∧ k = { s.ch c with discarded := (s.ch c).unwritten, pages := [] } ∧ bit (s.chCfg c) 39 = true
      ∧ s.cplRing (fld (s.chCfg c) 51 40) = true ∧ (s.ring (fld (s.chCfg c) 51 40)).room = 0)
  ∧ (∃ (s : State) (c : Fin 64) (n : Nat) (g : Nat) (y : State), (s.ch c).ending = some (n, g) ∧ n ≠ 2
      ∧ (s.ch c).state = .stopping ∧ (s.ch c).out = 0 ∧ y = s.setCh c { s.ch c with discarded := (s.ch c).unwritten })
  ∧ (∃ (s : State) (c : Fin 64), ((s.ch c).ending = none ∨ (s.ch c).state ≠ .stopping ∨ (s.ch c).out ≠ 0)) :=
  ⟨⟨{ up with time := { total := 512 }, dma := { chan := [(5, { state := .run, out := 1, held := [(2, { xfer with master := 3, write := false, data := [], len := 8, addr := 64, origin := .dmaFetch 5 0, qos := 9 })] })] } },
       5, 2,
       { xfer with master := 3, write := false, data := [], len := 8, addr := 64, origin := .dmaFetch 5 0, qos := 9 },
       [], .dmaFetch 5 1, _,
       (by first | decide +kernel | rfl), (by first | decide +kernel | rfl), (by first | decide +kernel | rfl), (by first | decide +kernel | rfl), rfl⟩,
   ⟨up, 5, by decide +kernel⟩,
   ⟨{ up with time := { total := 511 }, dma := { chan := [(5, { state := .run, out := 1, held := [(2, { xfer with master := 3, write := false, data := [], len := 8, addr := 64, origin := .dmaFetch 5 0, qos := 9 })] })] } },
       5, 2,
       { xfer with master := 3, write := false, data := [], len := 8, addr := 64, origin := .dmaFetch 5 0, qos := 9 },
       [], by decide +kernel⟩,
   ⟨{ up with dma := { chan := [(5, { state := .stopping, status := 2, ending := some (2, 0), pages := [{ txn := 1, seq := 1, dst := 0, len := 64, data := some [] }] })] } },
       5, 0, _,
       (by first | decide +kernel | rfl), (by first | decide +kernel | rfl), (by first | decide +kernel | rfl), rfl, (by first | decide +kernel | rfl)⟩,
   ⟨{ up with dma := { chan := [(5, { state := .stopping, status := 2, ending := some (2, 0), pages := [{ txn := 1, seq := 1, dst := 0, len := 64, data := some [] }] })] }, regs := [(chKey 5 R.CH_CFG.off, 0x0000098000000000)], net := { ring := [(9, { d0 := 0x5001000000020000, d1 := 0 })] } },
       5, 0, _, _, _,
       (by first | decide +kernel | rfl), (by first | decide +kernel | rfl), (by first | decide +kernel | rfl), rfl, (by first | decide +kernel | rfl), (by first | decide +kernel | rfl), (by first | decide +kernel | rfl), rfl, rfl⟩,
   ⟨{ up with dma := { chan := [(5, { state := .stopping, status := 2, ending := some (2, 0), pages := [{ txn := 1, seq := 1, dst := 0, len := 64, data := some [] }] })] }, regs := [(chKey 5 R.CH_CFG.off, 0x0000098000000000)], net := { ring := [(9, { d0 := 0x5001000000020000, alloc := 2 })] } },
       5, 0, _,
       (by first | decide +kernel | rfl), (by first | decide +kernel | rfl), (by first | decide +kernel | rfl), rfl, (by first | decide +kernel | rfl), (by first | decide +kernel | rfl), (by first | decide +kernel | rfl)⟩,
   ⟨{ up with dma := { chan := [(5, { state := .stopping, status := 2, ending := some (6, 0), pages := [{ txn := 1, seq := 1, dst := 0, len := 64, data := some [] }] })] } },
       5, 6, 0, _,
       (by first | decide +kernel | rfl), (by first | decide +kernel | rfl), (by first | decide +kernel | rfl), (by first | decide +kernel | rfl), rfl⟩,
   ⟨up, 5, by decide +kernel⟩⟩

/-- States and operands that meet the hypotheses of the first clauses of `Obligations.ChannelsRunTheirPrograms`. -/
theorem witness_ChannelsRunTheirPrograms :
  (∃ (s : State) (c : Fin 64) (k : Chan) (w : Word) (a : Nat) (d : Nat) (ra : MapRow) (rd : MapRow) (e : Chan) (y : State),
      s.dmaAt c 1 = true ∧ k = s.ch c ∧ w = k.instr.headD 0 ∧ a = relAddr (bit w 59) (fld (k.instr.getD 1 0) 47 0) k.ofsS
      ∧ d = relAddr (bit w 59) (fld (k.instr.getD 2 0) 47 0) k.ofsD ∧ rowOfSpan (span a 1 (fld w 31 0) 0) = some ra
      ∧ rowOfSpan (span d 1 (fld w 31 0) 0) = some rd
      ∧ e = { k with copy := some { src := a, dst := d, rowLen := fld w 31 0, rows := 1, sStride := 0, dStride := 0, same := ra.1 == rd.1, serial := (ra.1 == rd.1 && decide ((span a 1 (fld w 31 0) 0).1 < (span d 1 (fld w 31 0) 0).2) && decide ((span d 1 (fld w 31 0) 0).1 < (span a 1 (fld w 31 0) 0).2)) && decide (1 < 1) }, written := 0, discarded := 0, seq := k.seq + 1, moves := { seq := k.seq + 1, pc := k.pc, written := 0 } :: k.moves.filter fun m => k.pages.any fun p => p.seq = m.seq }
      ∧ y = s.setCh c e)
  ∧ (∃ (s : State) (c : Fin 64) (k : Chan) (w : Word) (a : Nat) (d : Nat) (ra : MapRow) (rd : MapRow) (e : Chan) (v : Word),
      s.dmaAt c 1 = true ∧ k = s.ch c ∧ w = k.instr.headD 0 ∧ a = relAddr (bit w 59) (fld (k.instr.getD 1 0) 47 0) k.ofsS
      ∧ d = relAddr (bit w 59) (fld (k.instr.getD 2 0) 47 0) k.ofsD ∧ s.dma = { chan := [(c.val, k)], events := v }
      ∧ s.rd R.TP_DMA = 0 ∧ s.dmaOut 3 < 2048 ∧ s.dmaOut 4 < 2048 ∧ rowOfSpan (span a 1 (fld w 31 0) 0) = some ra
      ∧ rowOfSpan (span d 1 (fld w 31 0) 0) = some rd ∧ k.pages = [] ∧ k.out = 0 ∧ fld (s.chCfg c) 26 16 = 0
      ∧ e = { k with copy := some { src := a, dst := d, rowLen := fld w 31 0, rows := 1, sStride := 0, dStride := 0, same := ra.1 == rd.1, serial := (ra.1 == rd.1 && decide ((span a 1 (fld w 31 0) 0).1 < (span d 1 (fld w 31 0) 0).2) && decide ((span d 1 (fld w 31 0) 0).1 < (span a 1 (fld w 31 0) 0).2)) && decide (1 < 1) }, written := 0, discarded := 0, seq := k.seq + 1, moves := { seq := k.seq + 1, pc := k.pc, written := 0 } :: k.moves.filter fun m => k.pages.any fun p => p.seq = m.seq })
  ∧ (∃ (s : State) (c : Fin 64) (k : Chan) (w : Word) (a : Nat) (d : Nat), s.dmaAt c 1 = true ∧ k = s.ch c ∧ w = k.instr.headD 0
      ∧ a = relAddr (bit w 59) (fld (k.instr.getD 1 0) 47 0) k.ofsS
      ∧ d = relAddr (bit w 59) (fld (k.instr.getD 2 0) 47 0) k.ofsD
      ∧ (rowOfSpan (span a 1 (fld w 31 0) 0) = none ∨ rowOfSpan (span d 1 (fld w 31 0) 0) = none))
  ∧ (∃ (s : State) (c : Fin 64), s.dmaAt c 1 = false)
  ∧ (∃ (s : State) (c : Fin 64) (k : Chan) (w : Word) (a : Nat) (d : Nat) (ra : MapRow) (rd : MapRow) (v : Word),
      s.dmaAt c 1 = true ∧ k = s.ch c ∧ w = k.instr.headD 0 ∧ a = relAddr (bit w 59) (fld (k.instr.getD 1 0) 47 0) k.ofsS
      ∧ d = relAddr (bit w 59) (fld (k.instr.getD 2 0) 47 0) k.ofsD ∧ s.dma = { chan := [(c.val, k)], events := v }
      ∧ s.rd R.TP_DMA = 0 ∧ s.dmaOut 3 < 2048 ∧ s.dmaOut 4 < 2048 ∧ rowOfSpan (span a 1 (fld w 31 0) 0) = some ra
      ∧ rowOfSpan (span d 1 (fld w 31 0) 0) = some rd ∧ k.pages = [] ∧ 0 < fld (s.chCfg c) 26 16
      ∧ a % 4096 + fld w 31 0 ≤ 4096 ∧ (d < a ∨ a + fld w 31 0 ≤ d) ∧ 0 < fld w 31 0 ∧ k.instr.length = 3
      ∧ (rowOfRange ((k.pc + 24) % 2 ^ 48) 8).isSome = true ∧ (rowOfRange a (fld w 31 0)).isSome = true ∧ k.fetching = false)
  ∧ (∃ (s : State) (c : Fin 64) (k : Chan) (w : Word) (a : Nat) (d : Nat) (ra : MapRow) (rd : MapRow) (e : Chan) (y : State),
      s.dmaAt c 2 = true ∧ k = s.ch c ∧ w = k.instr.headD 0 ∧ a = relAddr (bit w 59) (fld (k.instr.getD 1 0) 47 0) k.ofsS
      ∧ d = relAddr (bit w 59) (fld (k.instr.getD 2 0) 47 0) k.ofsD
      ∧ rowOfSpan (span a (fld w 51 32 + 1) (fld w 31 0) (sfld (k.instr.getD 3 0) 63 32)) = some ra
      ∧ rowOfSpan (span d (fld w 51 32 + 1) (fld w 31 0) (sfld (k.instr.getD 3 0) 31 0)) = some rd
      ∧ e = { k with copy := some { src := a, dst := d, rowLen := fld w 31 0, rows := (fld w 51 32 + 1), sStride := (sfld (k.instr.getD 3 0) 63 32), dStride := (sfld (k.instr.getD 3 0) 31 0), same := ra.1 == rd.1, serial := (ra.1 == rd.1 && decide ((span a (fld w 51 32 + 1) (fld w 31 0) (sfld (k.instr.getD 3 0) 63 32)).1 < (span d (fld w 51 32 + 1) (fld w 31 0) (sfld (k.instr.getD 3 0) 31 0)).2) && decide ((span d (fld w 51 32 + 1) (fld w 31 0) (sfld (k.instr.getD 3 0) 31 0)).1 < (span a (fld w 51 32 + 1) (fld w 31 0) (sfld (k.instr.getD 3 0) 63 32)).2)) && decide (1 < (fld w 51 32 + 1)) }, written := 0, discarded := 0, seq := k.seq + 1, moves := { seq := k.seq + 1, pc := k.pc, written := 0 } :: k.moves.filter fun m => k.pages.any fun p => p.seq = m.seq }
      ∧ y = s.setCh c e) :=
  ⟨⟨{ up with dma := { chan := [(5, { state := .run, pc := 64, instr := [0x1000000000000040, 0x1000, 0x8001000000] })] }, regs := [(chKey 5 R.CH_CFG.off, 0x10000)] },
       5, _, _, _, _, (0, 412316860416, .heap), (0x008001000000, 0x800000, .sram), _, _,
       (by first | decide +kernel | rfl), rfl, rfl, rfl, rfl, (by first | decide +kernel | rfl), (by first | decide +kernel | rfl), rfl, rfl⟩,
   ⟨{ up with dma := { chan := [(5, { state := .run, pc := 64, instr := [0x1000000000000040, 0x1000, 0x8001000000] })] }, regs := [(chKey 5 R.CH_CFG.off, 0)] },
       5, _, _, _, _, (0, 412316860416, .heap), (0x008001000000, 0x800000, .sram), _, 0,
       (by first | decide +kernel | rfl), rfl, rfl, rfl, rfl, (by first | decide +kernel | rfl), (by first | decide +kernel | rfl), (by first | decide +kernel | rfl), (by first | decide +kernel | rfl), (by first | decide +kernel | rfl), (by first | decide +kernel | rfl), (by first | decide +kernel | rfl), (by first | decide +kernel | rfl), (by first | decide +kernel | rfl), rfl⟩,
   ⟨{ up with dma := { chan := [(5, { state := .run, pc := 64, instr := [0x1000000000000040, 0x7FFFFFFFFFFF, 0x8001000000], out := 1 })] } },
       5, _, _, _, _, (by first | decide +kernel | rfl), rfl, rfl, rfl, rfl, (by first | decide +kernel | rfl)⟩,
   ⟨up, 5, by decide +kernel⟩,
   ⟨{ up with dma := { chan := [(5, { state := .run, pc := 64, instr := [0x1000000000000040, 0x1000, 0x8001000000] })] }, regs := [(chKey 5 R.CH_CFG.off, 0x10000)] },
       5, _, _, _, _, (0, 412316860416, .heap), (0x008001000000, 0x800000, .sram), 0,
       (by first | decide +kernel | rfl), rfl, rfl, rfl, rfl, (by first | decide +kernel | rfl), (by first | decide +kernel | rfl), (by first | decide +kernel | rfl), (by first | decide +kernel | rfl), (by first | decide +kernel | rfl), (by first | decide +kernel | rfl), (by first | decide +kernel | rfl), (by first | decide +kernel | rfl), (by first | decide +kernel | rfl), (by first | decide +kernel | rfl), (by first | decide +kernel | rfl), (by first | decide +kernel | rfl), (by first | decide +kernel | rfl), (by first | decide +kernel | rfl), (by first | decide +kernel | rfl)⟩,
   ⟨{ up with dma := { chan := [(5, { state := .run, pc := 64, instr := [0x2000000300000040, 0x1000, 0x2000, 0x0000004000000040] })] }, regs := [(chKey 5 R.CH_CFG.off, 0x10000)] },
       5, _, _, _, _, (0, 412316860416, .heap), (0, 412316860416, .heap), _, _,
       (by first | decide +kernel | rfl), rfl, rfl, rfl, rfl, (by first | decide +kernel | rfl), (by first | decide +kernel | rfl), rfl, rfl⟩⟩

/-- States and operands that meet the hypotheses of further clauses of `Obligations.ChannelsRunTheirPrograms`. -/
theorem witness_ChannelsRunTheirPrograms_2 :
  (∃ (s : State) (c : Fin 64) (k : Chan) (w : Word) (a : Nat) (d : Nat) (ra : MapRow) (rd : MapRow) (e : Chan) (v : Word),
      s.dmaAt c 2 = true ∧ k = s.ch c ∧ w = k.instr.headD 0 ∧ a = relAddr (bit w 59) (fld (k.instr.getD 1 0) 47 0) k.ofsS
      ∧ d = relAddr (bit w 59) (fld (k.instr.getD 2 0) 47 0) k.ofsD ∧ s.dma = { chan := [(c.val, k)], events := v }
      ∧ s.rd R.TP_DMA = 0 ∧ s.dmaOut 3 < 2048 ∧ s.dmaOut 4 < 2048
      ∧ rowOfSpan (span a (fld w 51 32 + 1) (fld w 31 0) (sfld (k.instr.getD 3 0) 63 32)) = some ra
      ∧ rowOfSpan (span d (fld w 51 32 + 1) (fld w 31 0) (sfld (k.instr.getD 3 0) 31 0)) = some rd ∧ k.pages = [] ∧ k.out = 0
      ∧ fld (s.chCfg c) 26 16 = 0
      ∧ e = { k with copy := some { src := a, dst := d, rowLen := fld w 31 0, rows := (fld w 51 32 + 1), sStride := (sfld (k.instr.getD 3 0) 63 32), dStride := (sfld (k.instr.getD 3 0) 31 0), same := ra.1 == rd.1, serial := (ra.1 == rd.1 && decide ((span a (fld w 51 32 + 1) (fld w 31 0) (sfld (k.instr.getD 3 0) 63 32)).1 < (span d (fld w 51 32 + 1) (fld w 31 0) (sfld (k.instr.getD 3 0) 31 0)).2) && decide ((span d (fld w 51 32 + 1) (fld w 31 0) (sfld (k.instr.getD 3 0) 31 0)).1 < (span a (fld w 51 32 + 1) (fld w 31 0) (sfld (k.instr.getD 3 0) 63 32)).2)) && decide (1 < (fld w 51 32 + 1)) }, written := 0, discarded := 0, seq := k.seq + 1, moves := { seq := k.seq + 1, pc := k.pc, written := 0 } :: k.moves.filter fun m => k.pages.any fun p => p.seq = m.seq })
  ∧ (∃ (s : State) (c : Fin 64) (k : Chan) (w : Word) (a : Nat) (d : Nat), s.dmaAt c 2 = true ∧ k = s.ch c ∧ w = k.instr.headD 0
      ∧ a = relAddr (bit w 59) (fld (k.instr.getD 1 0) 47 0) k.ofsS
      ∧ d = relAddr (bit w 59) (fld (k.instr.getD 2 0) 47 0) k.ofsD
      ∧ (rowOfSpan (span a (fld w 51 32 + 1) (fld w 31 0) (sfld (k.instr.getD 3 0) 63 32)) = none ∨ rowOfSpan (span d (fld w 51 32 + 1) (fld w 31 0) (sfld (k.instr.getD 3 0) 31 0)) = none))
  ∧ (∃ (s : State) (c : Fin 64), s.dmaAt c 2 = false)
  ∧ (∃ (s : State) (c : Fin 64) (k : Chan) (w : Word) (u : Word) (i : Nat) (l : LoopLevel) (e : Chan), s.dmaAt c 3 = true
      ∧ k = s.ch c ∧ w = k.instr.headD 0 ∧ u = k.instr.getD 1 0 ∧ i = (k.pc - (s.chProg c).toNat) / 8
      ∧ l = (k.level (bit w 59)).getD { at_ := i, left := fld w 31 0, taken := 0 } ∧ l.at_ = i
      ∧ (l.left ≠ 0 ∨ fld w 31 0 = 0)
      ∧ e = Chan.setLevel { k with ofsS := stepOfs k.ofsS (sfld u 63 32), ofsD := stepOfs k.ofsD (sfld u 31 0), pc := ((s.chProg c).toNat + 8 * fld w 47 32) % 2 ^ 48, instr := [] } (bit w 59) (some { l with left := l.left - 1, taken := l.taken + 1 }))
  ∧ (∃ (s : State) (c : Fin 64) (k : Chan) (w : Word) (u : Word) (i : Nat) (l : LoopLevel) (e : Chan), s.dmaAt c 3 = true
      ∧ k = s.ch c ∧ w = k.instr.headD 0 ∧ u = k.instr.getD 1 0 ∧ i = (k.pc - (s.chProg c).toNat) / 8
      ∧ l = (k.level (bit w 59)).getD { at_ := i, left := fld w 31 0, taken := 0 } ∧ l.at_ = i
      ∧ (l.left ≠ 0 ∨ fld w 31 0 = 0)
      ∧ e = Chan.setLevel { k with ofsS := stepOfs k.ofsS (sfld u 63 32), ofsD := stepOfs k.ofsD (sfld u 31 0), pc := ((s.chProg c).toNat + 8 * fld w 47 32) % 2 ^ 48, instr := [] } (bit w 59) (some { l with left := l.left - 1, taken := l.taken + 1 }))
  ∧ (∃ (s : State) (c : Fin 64) (k : Chan) (w : Word) (u : Word) (i : Nat) (l : LoopLevel) (e : Chan), s.dmaAt c 3 = true
      ∧ k = s.ch c ∧ w = k.instr.headD 0 ∧ u = k.instr.getD 1 0 ∧ i = (k.pc - (s.chProg c).toNat) / 8
      ∧ l = (k.level (bit w 59)).getD { at_ := i, left := fld w 31 0, taken := 0 } ∧ l.at_ = i ∧ l.left = 0 ∧ fld w 31 0 ≠ 0
      ∧ e = Chan.setLevel { k with ofsS := stepOfs k.ofsS (-(l.taken * sfld u 63 32)), ofsD := stepOfs k.ofsD (-(l.taken * sfld u 31 0)) } (bit w 59) none)
  ∧ (∃ (s : State) (c : Fin 64) (k : Chan) (w : Word) (u : Word) (i : Nat) (l : LoopLevel), s.dmaAt c 3 = true ∧ k = s.ch c
      ∧ w = k.instr.headD 0 ∧ u = k.instr.getD 1 0 ∧ i = (k.pc - (s.chProg c).toNat) / 8
      ∧ l = (k.level (bit w 59)).getD { at_ := i, left := fld w 31 0, taken := 0 } ∧ l.at_ ≠ i)
  ∧ (∃ (s : State) (c : Fin 64), s.dmaAt c 3 = false)
  ∧ (∃ (s : State) (c : Fin 64) (w : Word) (y : State), s.dmaWaits c 4 = true ∧ w = (s.ch c).instr.headD 0 ∧ fld w 59 58 = 0
      ∧ bit s.dma.events (fld w 5 0) = true ∧ s.lowerWaits c (fld w 5 0) = false
      ∧ y = { s with dma := { s.dma with events := clrBit s.dma.events (fld w 5 0) } })
  ∧ (∃ (s : State) (c : Fin 64) (w : Word), s.dmaWaits c 4 = true ∧ w = (s.ch c).instr.headD 0 ∧ fld w 59 58 = 0
      ∧ (bit s.dma.events (fld w 5 0) = false ∨ s.lowerWaits c (fld w 5 0) = true))
  ∧ (∃ (s : State) (c : Fin 64) (w : Word), s.dmaWaits c 4 = true ∧ w = (s.ch c).instr.headD 0 ∧ fld w 59 58 = 0
      ∧ (bit s.dma.events (fld w 5 0) = false ∨ s.lowerWaits c (fld w 5 0) = true))
  ∧ (∃ (s : State) (c : Fin 64) (w : Word), s.dmaWaits c 4 = true ∧ w = (s.ch c).instr.headD 0 ∧ fld w 59 58 = 1
      ∧ fld w 31 0 = s.time.epoch ∧ ((s.ch c).instr.getD 1 0).toNat ≤ s.time.tide) :=
  ⟨⟨{ up with dma := { chan := [(5, { state := .run, pc := 64, instr := [0x2000000300000040, 0x1000, 0x2000, 0x0000004000000040] })] }, regs := [(chKey 5 R.CH_CFG.off, 0)] },
       5, _, _, _, _, (0, 412316860416, .heap), (0, 412316860416, .heap), _, 0,
       (by first | decide +kernel | rfl), rfl, rfl, rfl, rfl, (by first | decide +kernel | rfl), (by first | decide +kernel | rfl), (by first | decide +kernel | rfl), (by first | decide +kernel | rfl), (by first | decide +kernel | rfl), (by first | decide +kernel | rfl), (by first | decide +kernel | rfl), (by first | decide +kernel | rfl), (by first | decide +kernel | rfl), rfl⟩,
   ⟨{ up with dma := { chan := [(5, { state := .run, pc := 64, instr := [0x2000000300000040, 0x7FFFFFFFFFFF, 0x2000, 0x0000004000000040], out := 1 })] } },
       5, _, _, _, _, (by first | decide +kernel | rfl), rfl, rfl, rfl, rfl, (by first | decide +kernel | rfl)⟩,
   ⟨up, 5, by decide +kernel⟩,
   ⟨{ up with dma := { chan := [(5, { state := .run, pc := 64, instr := [0x3800000000000003, 0xFFFFFFF000000010], level1 := some { at_ := 8, left := 2, taken := 1 } })] } },
       5, _, _, _, _, _, _,
       (by first | decide +kernel | rfl), rfl, rfl, rfl, rfl, rfl, (by first | decide +kernel | rfl), (by first | decide +kernel | rfl), rfl⟩,
   ⟨{ up with dma := { chan := [(5, { state := .run, pc := 64, instr := [0x3000000000000003, 0xFFFFFFF000000010] })] } },
       5, _, _, _, _, _, _,
       (by first | decide +kernel | rfl), rfl, rfl, rfl, rfl, rfl, (by first | decide +kernel | rfl), (by first | decide +kernel | rfl), rfl⟩,
   ⟨{ up with dma := { chan := [(5, { state := .run, pc := 64, instr := [0x3000000000000003, 0xFFFFFFF000000010], level0 := some { at_ := 8, left := 0, taken := 3 }, ofsS := 2 ^ 48 - 48, ofsD := 48 })] } },
       5, _, _, _, _, _, _,
       (by first | decide +kernel | rfl), rfl, rfl, rfl, rfl, rfl, (by first | decide +kernel | rfl), (by first | decide +kernel | rfl), (by first | decide +kernel | rfl), rfl⟩,
   ⟨{ up with dma := { chan := [(5, { state := .run, pc := 64, instr := [0x3800000000000003, 0xFFFFFFF000000010], level1 := some { at_ := 7, left := 2, taken := 1 } })] } },
       5, _, _, _, _, _,
       (by first | decide +kernel | rfl), rfl, rfl, rfl, rfl, rfl, (by first | decide +kernel | rfl)⟩,
   ⟨up, 5, by decide +kernel⟩,
   ⟨{ up with dma := { chan := [(5, { state := .wait, pc := 64, instr := [0x400000000000003F] })], events := 0x8000000000000000 } },
       5, _, _,
       (by first | decide +kernel | rfl), rfl, (by first | decide +kernel | rfl), (by first | decide +kernel | rfl), (by first | decide +kernel | rfl), rfl⟩,
   ⟨{ up with dma := { chan := [(5, { state := .run, pc := 64, instr := [0x400000000000003F] })] } }, 5, _,
       (by first | decide +kernel | rfl), rfl, (by first | decide +kernel | rfl), (by first | decide +kernel | rfl)⟩,
   ⟨{ up with dma := { chan := [(5, { state := .wait, pc := 64, instr := [0x400000000000003F] })] } }, 5, _,
       (by first | decide +kernel | rfl), rfl, (by first | decide +kernel | rfl), (by first | decide +kernel | rfl)⟩,
   ⟨{ up with dma := { chan := [(5, { state := .run, pc := 64, instr := [0x4400000000000000, 0] })] } }, 5, _,
       (by first | decide +kernel | rfl), rfl, (by first | decide +kernel | rfl), (by first | decide +kernel | rfl), (by first | decide +kernel | rfl)⟩⟩

/-- States and operands that meet the hypotheses of further clauses of `Obligations.ChannelsRunTheirPrograms`. -/
theorem witness_ChannelsRunTheirPrograms_3 :
  (∃ (s : State) (c : Fin 64) (w : Word), s.dmaWaits c 4 = true ∧ w = (s.ch c).instr.headD 0 ∧ fld w 59 58 = 1
      ∧ (s.time.epoch < fld w 31 0 ∨ (fld w 31 0 = s.time.epoch ∧ s.time.tide < ((s.ch c).instr.getD 1 0).toNat)))
  ∧ (∃ (s : State) (c : Fin 64) (w : Word), s.dmaWaits c 4 = true ∧ w = (s.ch c).instr.headD 0 ∧ fld w 59 58 = 1
      ∧ fld w 31 0 < s.time.epoch)
  ∧ (∃ (s : State) (c : Fin 64) (w : Word) (g : Ring), s.dmaWaits c 4 = true ∧ w = (s.ch c).instr.headD 0
      ∧ (fld w 59 58 = 2 ∨ fld w 59 58 = 3) ∧ g = s.ring (fld w 27 16) ∧ g.on = true ∧ fld w 15 0 ≤ g.room)
  ∧ (∃ (s : State) (c : Fin 64) (w : Word) (g : Ring), s.dmaWaits c 4 = true ∧ w = (s.ch c).instr.headD 0
      ∧ (fld w 59 58 = 2 ∨ fld w 59 58 = 3) ∧ g = s.ring (fld w 27 16) ∧ g.on = true ∧ g.room < fld w 15 0)
  ∧ (∃ (s : State) (c : Fin 64) (w : Word) (g : Ring), s.dmaWaits c 4 = true ∧ w = (s.ch c).instr.headD 0
      ∧ (fld w 59 58 = 2 ∨ fld w 59 58 = 3) ∧ g = s.ring (fld w 27 16) ∧ g.on = false)
  ∧ (∃ (s : State) (c : Fin 64), s.dmaWaits c 4 = false)
  ∧ (∃ (s : State) (c : Fin 64) (w : Word), (s.ch c).state = .wait ∧ w = (s.ch c).instr.headD 0 ∧ fld w 63 60 = 4
      ∧ fld w 47 32 ≠ 0 ∧ (s.ch c).waitFrom + 1500 * fld w 47 32 ≤ s.time.total)
  ∧ (∃ (s : State) (c : Fin 64) (w : Word), w = (s.ch c).instr.headD 0
      ∧ ((s.ch c).state ≠ .wait ∨ fld w 63 60 ≠ 4 ∨ fld w 47 32 = 0 ∨ s.time.total < (s.ch c).waitFrom + 1500 * fld w 47 32))
  ∧ (∃ (s : State) (c : Fin 64) (w : Word) (y : State), s.dmaWaits c 5 = true ∧ w = (s.ch c).instr.headD 0 ∧ bit w 59 = true
      ∧ y = { s with dma := { s.dma with events := setBit s.dma.events (fld w 5 0) } })
  ∧ (∃ (s : State) (c : Fin 64) (w : Word) (v : Word) (k : Chan), s.dmaWaits c 5 = true ∧ w = (s.ch c).instr.headD 0
      ∧ s.dma = { chan := [(c.val, k)], events := v } ∧ s.rd R.TP_DMA = 0 ∧ s.dmaOut 3 < 2048 ∧ s.dmaOut 4 < 2048
      ∧ bit w 59 = true ∧ k.pages = [] ∧ k.copy = none ∧ k.instr ≠ [] ∧ k.fetching = false
      ∧ (rowOfRange ((k.pc + 8) % 2 ^ 48) 8).isSome = true)
  ∧ (∃ (s : State) (c : Fin 64) (w : Word) (r : Nat) (y : State), s.dmaWaits c 5 = true ∧ w = (s.ch c).instr.headD 0
      ∧ bit w 59 = false ∧ r = fld w 43 32 ∧ s.cplRing r = true ∧ (s.ring r).room ≠ 0
      ∧ y = s.ringProduce r (s.cplWords c 0 (fld w 31 0)) (some c))
  ∧ (∃ (s : State) (c : Fin 64) (w : Word) (r : Nat), s.dmaWaits c 5 = true ∧ w = (s.ch c).instr.headD 0 ∧ bit w 59 = false
      ∧ r = fld w 43 32 ∧ s.cplRing r = false) :=
  ⟨⟨{ up with dma := { chan := [(5, { state := .run, pc := 64, instr := [0x4400000000000001, 0] })] } }, 5, _,
       (by first | decide +kernel | rfl), rfl, (by first | decide +kernel | rfl), (by first | decide +kernel | rfl)⟩,
   ⟨{ up with dma := { chan := [(5, { state := .wait, pc := 64, instr := [0x4400000000000000, 0], out := 1 })] }, time := { epoch := 1 } },
       5, _,
       (by first | decide +kernel | rfl), rfl, (by first | decide +kernel | rfl), (by first | decide +kernel | rfl)⟩,
   ⟨{ up with dma := { chan := [(5, { state := .run, pc := 64, instr := [0x4800000000090002] })] }, net := { ring := [(9, rxRing)] } },
       5, _, _,
       (by first | decide +kernel | rfl), rfl, (by first | decide +kernel | rfl), rfl, (by first | decide +kernel | rfl), (by first | decide +kernel | rfl)⟩,
   ⟨{ up with dma := { chan := [(5, { state := .run, pc := 64, instr := [0x480000000009FFFF] })] }, net := { ring := [(9, rxRing)] } },
       5, _, _,
       (by first | decide +kernel | rfl), rfl, (by first | decide +kernel | rfl), rfl, (by first | decide +kernel | rfl), (by first | decide +kernel | rfl)⟩,
   ⟨{ up with dma := { chan := [(5, { state := .run, pc := 64, instr := [0x4800000000090002], out := 1 })] } }, 5, _, _,
       (by first | decide +kernel | rfl), rfl, (by first | decide +kernel | rfl), rfl, (by first | decide +kernel | rfl)⟩,
   ⟨up, 5, by decide +kernel⟩,
   ⟨{ up with dma := { chan := [(5, { state := .wait, pc := 64, instr := [0x4000000100000000], out := 1 })] }, time := { total := 1500 } },
       5, _,
       (by first | decide +kernel | rfl), rfl, (by first | decide +kernel | rfl), (by first | decide +kernel | rfl), (by first | decide +kernel | rfl)⟩,
   ⟨up, 5, _, rfl, (by first | decide +kernel | rfl)⟩,
   ⟨{ up with dma := { chan := [(5, { state := .run, pc := 64, instr := [0x580000000000003F] })] } }, 5, _, _,
       (by first | decide +kernel | rfl), rfl, (by first | decide +kernel | rfl), rfl⟩,
   ⟨{ up with dma := { chan := [(5, { state := .run, pc := 64, instr := [0x580000000000003F] })] } }, 5, _, 0,
       { state := .run, pc := 64, instr := [0x580000000000003F] },
       (by first | decide +kernel | rfl), rfl, (by first | decide +kernel | rfl), (by first | decide +kernel | rfl), (by first | decide +kernel | rfl), (by first | decide +kernel | rfl), (by first | decide +kernel | rfl), (by first | decide +kernel | rfl), (by first | decide +kernel | rfl), (by first | decide +kernel | rfl), (by first | decide +kernel | rfl), (by first | decide +kernel | rfl)⟩,
   ⟨{ up with dma := { chan := [(5, { state := .run, pc := 64, instr := [0x5000000900000007] })] }, net := { ring := [(9, { d0 := 0x5001000000020000 })] } },
       5, _, _, _,
       (by first | decide +kernel | rfl), rfl, (by first | decide +kernel | rfl), rfl, (by first | decide +kernel | rfl), (by first | decide +kernel | rfl), rfl⟩,
   ⟨{ up with dma := { chan := [(5, { state := .run, pc := 64, instr := [0x5000000900000007] })] } }, 5, _, _,
       (by first | decide +kernel | rfl), rfl, (by first | decide +kernel | rfl), rfl, (by first | decide +kernel | rfl)⟩⟩

/-- States and operands that meet the hypotheses of further clauses of `Obligations.ChannelsRunTheirPrograms`. -/
theorem witness_ChannelsRunTheirPrograms_4 :
  (∃ (s : State) (c : Fin 64) (w : Word) (r : Nat), s.dmaWaits c 5 = true ∧ w = (s.ch c).instr.headD 0 ∧ bit w 59 = false
      ∧ r = fld w 43 32 ∧ s.cplRing r = true ∧ (s.ring r).room = 0 ∧ (s.ch c).state ≠ .wait)
  ∧ (∃ (s : State) (c : Fin 64) (w : Word) (r : Nat), s.dmaWaits c 5 = true ∧ w = (s.ch c).instr.headD 0 ∧ bit w 59 = false
      ∧ r = fld w 43 32 ∧ s.cplRing r = true ∧ (s.ring r).room = 0 ∧ (s.ch c).state = .wait)
  ∧ (∃ (s : State) (c : Fin 64), s.dmaWaits c 5 = false)
  ∧ (∃ (s : State) (c : Fin 64), s.dmaAt c 6 = true ∧ (s.ch c).out = 0 ∧ (s.ch c).pages = [])
  ∧ (∃ (s : State) (c : Fin 64), (s.dmaAt c 6 = false ∨ (s.ch c).out ≠ 0 ∨ (s.ch c).pages ≠ []))
  ∧ (∃ (s : State) (c : Fin 64), s.dmaAt c 7 = true ∧ (s.ch c).pages = [])
  ∧ (∃ (s : State) (c : Fin 64), s.dmaAt c 7 = true ∧ (s.ch c).pages = [] ∧ (s.ch c).out ≤ (s.ch c).held.length
      ∧ bit (s.chCfg c) 39 = false)
  ∧ (∃ (s : State) (c : Fin 64), s.dmaAt c 7 = true ∧ (s.ch c).pages ≠ [])
  ∧ (∃ (s : State) (c : Fin 64), s.dmaAt c 7 = false ∧ ((s.ch c).ending = none ∨ (s.ch c).state ≠ .stopping ∨ (s.ch c).out ≠ 0))
  ∧ (∃ (s : State) (c : Fin 64) (n : Nat) (g : Nat) (y : State), s.dmaAt c 7 = false ∧ (s.ch c).ending = some (n, g) ∧ n ≠ 2
      ∧ (s.ch c).state = .stopping ∧ (s.ch c).out = 0 ∧ y = s.setCh c { s.ch c with discarded := (s.ch c).unwritten }) :=
  ⟨⟨{ up with dma := { chan := [(5, { state := .run, pc := 64, instr := [0x5000000900000007] })] }, net := { ring := [(9, { d0 := 0x5001000000020000, alloc := 2 })] } },
       5, _, _,
       (by first | decide +kernel | rfl), rfl, (by first | decide +kernel | rfl), rfl, (by first | decide +kernel | rfl), (by first | decide +kernel | rfl), (by first | decide +kernel | rfl)⟩,
   ⟨{ up with dma := { chan := [(5, { state := .wait, pc := 64, instr := [0x5000000900000007] })] }, net := { ring := [(9, { d0 := 0x5001000000020000, alloc := 2 })] } },
       5, _, _,
       (by first | decide +kernel | rfl), rfl, (by first | decide +kernel | rfl), rfl, (by first | decide +kernel | rfl), (by first | decide +kernel | rfl), (by first | decide +kernel | rfl)⟩,
   ⟨up, 5, by decide +kernel⟩,
   ⟨dmaRun [0x6000000000000000], 5, by decide +kernel⟩,
   ⟨{ up with dma := { chan := [(5, { state := .run, pc := 64, instr := [0x6000000000000000], out := 1 })] } }, 5,
       by decide +kernel⟩,
   ⟨dmaRun [0x7000000000000009], 5, by decide +kernel⟩,
   ⟨dmaRun [0x7000000000000009], 5, by decide +kernel⟩,
   ⟨{ up with dma := { chan := [(5, { state := .run, pc := 64, instr := [0x7000000000000009], pages := [{ txn := 1, seq := 1, dst := 0, len := 64, data := none }] })] } },
       5, by decide +kernel⟩,
   ⟨up, 5, by decide +kernel⟩,
   ⟨{ up with dma := { chan := [(5, { state := .stopping, status := 2, ending := some (6, 0), pages := [{ txn := 1, seq := 1, dst := 0, len := 64, data := some [] }] })] } },
       5, 6, 0, _,
       (by first | decide +kernel | rfl), (by first | decide +kernel | rfl), (by first | decide +kernel | rfl), (by first | decide +kernel | rfl), (by first | decide +kernel | rfl), rfl⟩⟩

/-- States and operands that meet the hypotheses of the first clauses of `Obligations.TheEndpointServesTheHost`. -/
theorem witness_TheEndpointServesTheHost :
  (∃ (s : State) (r : PcieReq), s.pcie.up = false)
  ∧ (∃ (s : State) (r : PcieReq), s.pcie.up = true
      ∧ ((s.pcie.d3 = true ∨ (r.bar = 0 ∧ 0x80000 < r.off + r.len) ∨ r.bar = 1 ∨ r.bar = 3 ∨ r.bar = 5 ∨ (r.bar = 2 ∧ 2 ^ 36 < r.off + r.len) ∨ (r.bar = 4 ∧ 0x10000 < r.off + r.len)))
      ∧ r.write = false)
  ∧ (∃ (s : State) (r : PcieReq), s.pcie.up = true
      ∧ ((s.pcie.d3 = true ∨ (r.bar = 0 ∧ 0x80000 < r.off + r.len) ∨ r.bar = 1 ∨ r.bar = 3 ∨ r.bar = 5 ∨ (r.bar = 2 ∧ 2 ^ 36 < r.off + r.len) ∨ (r.bar = 4 ∧ 0x10000 < r.off + r.len)))
      ∧ r.write = false)
  ∧ (∃ (s : State) (r : PcieReq), s.pcie.up = true
      ∧ ((s.pcie.d3 = true ∨ (r.bar = 0 ∧ 0x80000 < r.off + r.len) ∨ r.bar = 1 ∨ r.bar = 3 ∨ r.bar = 5 ∨ (r.bar = 2 ∧ 2 ^ 36 < r.off + r.len) ∨ (r.bar = 4 ∧ 0x10000 < r.off + r.len)))
      ∧ r.write = true)
  ∧ (∃ (s : State) (r : PcieReq), s.pcie.up = true ∧ s.pcie.d3 = false ∧ r.bar = 0 ∧ r.off + r.len ≤ 0x80000 ∧ r.write = true)
  ∧ (∃ (s : State) (r : PcieReq), s.pcie.up = true ∧ s.pcie.d3 = false ∧ r.bar = 0 ∧ r.off + r.len ≤ 0x80000 ∧ r.write = true
      ∧ s.pwr.coreReady = true ∧ r.len = 8 ∧ r.off % 8 = 0 ∧ s.fab.posted.length < 64)
  ∧ (∃ (s : State) (r : PcieReq), s.pcie.up = true ∧ s.pcie.d3 = false ∧ r.bar = 0 ∧ r.off + r.len ≤ 0x80000 ∧ r.write = true
      ∧ s.pwr.coreReady = false)
  ∧ (∃ (s : State) (r : PcieReq), s.pcie.up = true ∧ s.pcie.d3 = false ∧ r.bar = 0 ∧ r.off + r.len ≤ 0x80000 ∧ r.write = false)
  ∧ (∃ (s : State) (r : PcieReq) (v : Word), s.pcie.up = true ∧ s.pcie.d3 = false ∧ r.bar = 0 ∧ r.off + r.len ≤ 0x80000
      ∧ r.write = false ∧ r.len = 8 ∧ r.off % 8 = 0 ∧ s.fab.posted = [] ∧ v = ((s.finish s).read (hostAccess r.off 8 [])).1)
  ∧ (∃ (s : State) (r : PcieReq), s.pcie.up = true ∧ s.pcie.d3 = false ∧ r.bar = 2 ∧ r.off + r.len ≤ 2 ^ 36)
  ∧ (∃ (s : State) (r : PcieReq), s.pcie.up = true ∧ s.pcie.d3 = false ∧ r.bar = 4 ∧ r.off + r.len ≤ 0x10000 ∧ r.write = true)
  ∧ (∃ (s : State) (r : PcieReq), s.pcie.up = true ∧ s.pcie.d3 = false ∧ r.bar = 4 ∧ r.off + r.len ≤ 0x10000 ∧ r.write = false) :=
  ⟨⟨up, { bar := 0, off := 0, len := 8, write := false, data := [] }, by decide +kernel⟩,
   ⟨{ up with pcie := { up := true } }, { bar := 1, off := 0, len := 4, write := false, data := [] }, by decide +kernel⟩,
   ⟨{ up with pcie := { up := true } }, { bar := 0, off := 0x7FFFF, len := 2, write := false, data := [] },
       by decide +kernel⟩,
   ⟨{ up with pcie := { up := true } }, { bar := 1, off := 0, len := 4, write := true, data := [] }, by decide +kernel⟩,
   ⟨{ up with pcie := { up := true } },
       { bar := 0, off := 0x5C030, len := 8, write := true, data := List.replicate 8 0 }, by decide +kernel⟩,
   ⟨{ up with pcie := { up := true } },
       { bar := 0, off := 0x5C030, len := 8, write := true, data := List.replicate 8 0 }, by decide +kernel⟩,
   ⟨{ pcie := { up := true } }, { bar := 0, off := 0x5C030, len := 8, write := true, data := List.replicate 8 0 },
       by decide +kernel⟩,
   ⟨{ up with pcie := { up := true } }, { bar := 0, off := 0x5C030, len := 8, write := false, data := [] },
       by decide +kernel⟩,
   ⟨{ { up with pcie := { up := true } } with regs := [(regKey 0 0x5C 0 hEvtEn, 5)] },
       { bar := 0, off := 0x5C030, len := 8, write := false, data := [] }, _,
       (by first | decide +kernel | rfl), (by first | decide +kernel | rfl), (by first | decide +kernel | rfl), (by first | decide +kernel | rfl), (by first | decide +kernel | rfl), (by first | decide +kernel | rfl), (by first | decide +kernel | rfl), (by first | decide +kernel | rfl), rfl⟩,
   ⟨{ up with pcie := { up := true } }, { bar := 2, off := 0x123456789, len := 1, write := true, data := [7] },
       by decide +kernel⟩,
   ⟨{ up with pcie := { up := true } }, { bar := 4, off := 0x10, len := 4, write := true, data := [1, 2, 3, 4] },
       by decide +kernel⟩,
   ⟨{ up with pcie := { up := true } }, { bar := 4, off := 0x10, len := 4, write := false, data := [] },
       by decide +kernel⟩⟩

/-- States and operands that meet the hypotheses of further clauses of `Obligations.TheEndpointServesTheHost`. -/
theorem witness_TheEndpointServesTheHost_2 :
  (∃ (s : State) (id : Nat) (x : Txn), pget s.xbar.txns id = some x ∧ x.origin = .pcie ∧ x.write = false ∧ x.resp = none
      ∧ x.port = 0 ∧ x.waited + 1500000 * s.rdf R.INB_TMO 0 6 0 ≤ s.time.total)
  ∧ (∃ (s : State) (id : Nat),
      (pget s.xbar.txns id).all (fun x => decide (x.origin ≠ .pcie) || x.write || x.resp.isSome || decide (x.port ≠ 0) || decide (s.time.total < x.waited + 1500000 * s.rdf R.INB_TMO 0 6 0)) = true)
  ∧ (∃ (s : State) (id : Nat) (st : CplStatus) (d : List Byte) (x : Txn), s.pcie.outbound.contains id = true
      ∧ pget s.xbar.txns id = some x ∧ x.resp = none)
  ∧ (∃ (s : State) (id : Nat) (st : CplStatus) (d : List Byte) (x : Txn), s.pcie.outbound.contains id = true
      ∧ pget s.xbar.txns id = some x ∧ x.resp = none)
  ∧ (∃ (s : State) (id : Nat) (st : CplStatus) (d : List Byte), s.pcie.outbound.contains id = false)
  ∧ (∃ (s : State) (id : Nat) (x : Txn), s.pcie.outbound.contains id = true ∧ pget s.xbar.txns id = some x ∧ x.resp = none
      ∧ x.waited + 1500 * s.pcie.cplUs ≤ s.time.total)
  ∧ (∃ (s : State) (id : Nat),
      (s.pcie.outbound.contains id = false ∨ (pget s.xbar.txns id).all (fun x => decide (s.time.total < x.waited + 1500 * s.pcie.cplUs)) = true))
  ∧ (∃ (s : State) (v : Fin 2048) (x : MsixEntry), x = mget msixDflt s.pcie.table v ∧ mget (fun _ => false) s.pcie.pba v = true
      ∧ s.pcie.msixEn = true ∧ s.pcie.maskAll = false)
  ∧ (∃ (s : State) (v : Fin 2048) (x : MsixEntry), x = mget msixDflt s.pcie.table v
      ∧ (mget (fun _ => false) s.pcie.pba v = false ∨ s.pcie.msixEn = false ∨ s.pcie.maskAll = true))
  ∧ (∃ (s : State) (sp : Fin 6) (wd : Fin 17), s.pwr.coreUp = true ∧ s.pwr.perstN = true)
  ∧ (∃ (s : State) (sp : Fin 6) (wd : Fin 17), (s.pwr.coreUp = false ∨ s.pwr.perstN = false))
  ∧ (∃ (s : State) (y : State) (z : State), s.pcie.up = true
      ∧ y = { s with pcie := { s.pcie with up := false, speed := 0, width := 0 } }
      ∧ z = s.pcie.outbound.foldl (fun u id => (u.outboundDone id).respond id true false []) (y.raise 0x0D 1)) :=
  ⟨⟨{ up with xbar := { next := 5, txns := [(4, some { xfer with write := false, data := [], len := 1, origin := .pcie, port := 0, addr := 64 })] }, time := { total := 15000000 }, regs := [(R.INB_TMO.key 0, 10)] },
       4, { xfer with write := false, data := [], len := 1, origin := .pcie, port := 0, addr := 64 },
       by decide +kernel⟩,
   ⟨{ up with xbar := { next := 5, txns := [(4, some { xfer with write := false, data := [], len := 1, origin := .pcie, port := 0, addr := 64 })] }, regs := [(R.INB_TMO.key 0, 10)] },
       4, by decide +kernel⟩,
   ⟨{ up with pcie := { outbound := [3, 4] }, xbar := { next := 5, txns := [(4, some xfer)] } }, 4, .poisoned, [], xfer,
       by decide +kernel⟩,
   ⟨{ up with pcie := { outbound := [3, 4] }, xbar := { next := 5, txns := [(4, some xfer)] } }, 4, .ok, [9], xfer,
       by decide +kernel⟩,
   ⟨up, 4, .ok, [], by decide +kernel⟩,
   ⟨{ up with time := { total := 100000000 }, pcie := { outbound := [4] }, xbar := { next := 5, txns := [(4, some xfer)] } },
       4, xfer, by decide +kernel⟩,
   ⟨up, 4, by decide +kernel⟩,
   ⟨{ up with pcie := { up := true, bme := true, msixEn := true, pba := [(2047, true)], table := [(2047, { addr := 64, data := 7, masked := true })] } },
       2047, _,
       rfl, (by first | decide +kernel | rfl), (by first | decide +kernel | rfl), (by first | decide +kernel | rfl)⟩,
   ⟨{ up with pcie := { up := true, bme := true, msixEn := true, pba := [], table := [(2047, { addr := 64, data := 7, masked := true })] } },
       2047, _, rfl, (by first | decide +kernel | rfl)⟩,
   ⟨{ up with pwr := { up.pwr with perstN := true } }, 5, 16, by decide +kernel⟩,
   ⟨{}, 5, 16, by decide +kernel⟩,
   ⟨{ up with pcie := { up := true, speed := 5, width := 16, outbound := [4] }, xbar := { next := 5, txns := [(4, some xfer)] } },
       _, _, (by first | decide +kernel | rfl), rfl, rfl⟩⟩

/-- States and operands that meet the hypotheses of further clauses of `Obligations.TheEndpointServesTheHost`. -/
theorem witness_TheEndpointServesTheHost_3 :
  (∃ (s : State), s.pcie.up = false)
  ∧ (∃ (s : State) (x : HostCfg) (y : State) (z : State),
      y = { s with pcie := { s.pcie with d3 := x.d3, bme := x.bme, msixEn := x.msixEn, maskAll := x.maskAll, mps := x.mps, mrrs := x.mrrs, cplUs := x.cplUs } }
      ∧ z = (if x.d3 || !x.bme then s.pcie.outbound.foldl (fun u id => (u.outboundDone id).respond id true false []) y else y)
      ∧ (s.pcie.maskAll = false ∨ x.maskAll = true))
  ∧ (∃ (s : State) (x : HostCfg) (y : State) (z : State),
      y = { s with pcie := { s.pcie with d3 := x.d3, bme := x.bme, msixEn := x.msixEn, maskAll := x.maskAll, mps := x.mps, mrrs := x.mrrs, cplUs := x.cplUs } }
      ∧ z = (if x.d3 || !x.bme then s.pcie.outbound.foldl (fun u id => (u.outboundDone id).respond id true false []) y else y)
      ∧ s.pcie.maskAll = true ∧ x.maskAll = false) :=
  ⟨⟨up, by decide +kernel⟩,
   ⟨{ up with pcie := { up := true, outbound := [4] }, xbar := { next := 5, txns := [(4, some xfer)] } },
       { d3 := true, bme := true, msixEn := true, maskAll := true, mps := 2, mrrs := 5, cplUs := 50000 }, _, _,
       rfl, rfl, (by first | decide +kernel | rfl)⟩,
   ⟨{ up with pcie := { up := true, bme := true, msixEn := true, maskAll := true, pba := [(9, true)], table := [(9, { addr := 64, data := 7, masked := false })] } },
       { d3 := false, bme := true, msixEn := true, maskAll := false, mps := 2, mrrs := 5, cplUs := 50000 }, _, _,
       rfl, rfl, (by first | decide +kernel | rfl), (by first | decide +kernel | rfl)⟩⟩

/-- States and operands that meet the hypotheses of the first clauses of `Obligations.ReferencesAreSelected`. -/
theorem witness_ReferencesAreSelected :
  (∃ (s : State) (k : Fin 7) (v : SrcState), s.aonUp = true ∧ s.srcSt k = .qualifying ∧ s.srcPresent k = true
      ∧ s.srcSince k + qualTime k ≤ s.time.total
      ∧ v = (if s.time.everDisq.getLsbD k ∧ s.rd R.WTR ≠ 0 then .restoring else .eligible))
  ∧ (∃ (s : State) (k : Fin 7) (v : SrcState), s.aonUp = true ∧ s.srcSt k = .qualifying ∧ s.srcPresent k = true
      ∧ s.srcSince k + qualTime k ≤ s.time.total
      ∧ v = (if s.time.everDisq.getLsbD k ∧ s.rd R.WTR ≠ 0 then .restoring else .eligible))
  ∧ (∃ (s : State) (k : Fin 7),
      (s.aonUp = false ∨ s.srcSt k ≠ .qualifying ∨ s.srcPresent k = false ∨ s.time.total < s.srcSince k + qualTime k))
  ∧ (∃ (s : State) (k : Fin 7) (y : State), s.aonUp = true ∧ s.srcQual k = true
      ∧ y = (s.setSrcSt k .absent).countf R.DISQ_CNT 0 (8 * (k : Fin 7).val + 7) (8 * (k : Fin 7).val))
  ∧ (∃ (s : State) (k : Fin 7), s.aonUp = true ∧ s.srcQual k = false ∧ s.srcSt k ≠ .disabled)
  ∧ (∃ (s : State) (k : Fin 7), (s.aonUp = false ∨ s.srcSt k = .disabled))
  ∧ (∃ (s : State) (y : State) (x : Int), s.aonUp = true ∧ s.srcQual 0 = true ∧ 10000 < x.natAbs
      ∧ y = (s.setSrcSt 0 .qualifying).countf R.DISQ_CNT 0 (8 * (0 : Fin 7).val + 7) (8 * (0 : Fin 7).val))
  ∧ (∃ (s : State) (x : Int), s.aonUp = true ∧ s.srcQual 0 = false ∧ s.srcSt 0 ≠ .disabled ∧ s.srcSt 0 ≠ .absent
      ∧ 10000 < x.natAbs)
  ∧ (∃ (s : State) (x : Int) (y : State), s.aonUp = true ∧ s.srcSt 0 = .absent ∧ x.natAbs ≤ 10000 ∧ y = s.setSrcSt 0 .qualifying)
  ∧ (∃ (s : State) (x : Int),
      (s.aonUp = false ∨ s.srcSt 0 = .disabled ∨ (s.srcSt 0 = .absent ∧ 10000 < x.natAbs) ∨ (s.srcSt 0 ≠ .absent ∧ x.natAbs ≤ 10000)))
  ∧ (∃ (s : State) (x : Int) (xs : List Int) (y : State), s.aonUp = true
      ∧ y = (List.range (min 6 xs.length)).foldl (fun u k => u.freqTake (k + 1) (xs.getD k 0)) (s.freqTake 0 x))
  ∧ (∃ (s : State) (xs : List Int), (s.aonUp = false ∨ xs = [])) :=
  ⟨⟨{ up with time := { total := 20000000000, sources := [(0, .qualifying)] } }, 0, _,
       (by first | decide +kernel | rfl), (by first | decide +kernel | rfl), (by first | decide +kernel | rfl), (by first | decide +kernel | rfl), rfl⟩,
   ⟨{ up with time := { total := 20000000000, sources := [(3, .qualifying)], everDisq := 8 }, regs := [(R.WTR.key 0, 5)] },
       3, _,
       (by first | decide +kernel | rfl), (by first | decide +kernel | rfl), (by first | decide +kernel | rfl), (by first | decide +kernel | rfl), rfl⟩,
   ⟨{ up with time := { total := 14999999999, sources := [(2, .qualifying)] } }, 2, by decide +kernel⟩,
   ⟨{ up with time := { total := 20000000000, sources := [(6, .eligible)], src := 6 } }, 6, _,
       (by first | decide +kernel | rfl), (by first | decide +kernel | rfl), rfl⟩,
   ⟨{ up with time := { sources := [(5, .qualifying)], src := 6 } }, 5, by decide +kernel⟩,
   ⟨{ up with time := { sources := [(5, .disabled)] } }, 5, by decide +kernel⟩,
   ⟨{ up with time := { total := 20000000000, sources := [(0, .eligible)] } }, _, -10001,
       (by first | decide +kernel | rfl), (by first | decide +kernel | rfl), (by first | decide +kernel | rfl), rfl⟩,
   ⟨{ up with time := { total := 20000000000, sources := [(0, .qualifying)] } }, 10001, by decide +kernel⟩,
   ⟨{ up with time := { total := 20000000000 } }, -10000, _,
       (by first | decide +kernel | rfl), (by first | decide +kernel | rfl), (by first | decide +kernel | rfl), rfl⟩,
   ⟨{ up with time := { sources := [(0, .eligible)] } }, 10000, by decide +kernel⟩,
   ⟨{ up with time := { total := 20000000000, sources := [(1, .eligible), (3, .restoring)] } }, 0, [10001, 0, 4], _,
       (by first | decide +kernel | rfl), rfl⟩,
   ⟨up, [], by decide +kernel⟩⟩

/-- States and operands that meet the hypotheses of further clauses of `Obligations.ReferencesAreSelected`. -/
theorem witness_ReferencesAreSelected_2 :
  (∃ (s : State) (k : Fin 7), s.aonUp = true ∧ s.srcSt k = .restoring
      ∧ s.srcSince k + fld (s.rd R.WTR) 11 0 * sclkSec ≤ s.time.total)
  ∧ (∃ (s : State) (k : Fin 7),
      (s.aonUp = false ∨ s.srcSt k ≠ .restoring ∨ s.time.total < s.srcSince k + fld (s.rd R.WTR) 11 0 * sclkSec))
  ∧ (∃ (s : State) (x : Int) (k : Nat) (c : Nat) (y : State), s.aonUp = true ∧ s.time.coarse = false ∧ s.rdf R.SEL_CFG 0 1 0 ≠ 2
      ∧ s.candidate = some k ∧ k ≠ s.time.src
      ∧ y = { s with time := { s.time with srcLost := false, modeWrite := false, selWrite := false } }
      ∧ c = (if s.time.srcLost || (s.time.src != 15 && !s.selectable s.time.src) then 1 else if s.time.modeWrite then 4 else if s.time.selWrite then 3 else 2))
  ∧ (∃ (s : State) (x : Int) (hs : List Int) (m : Int) (y : State) (z : State), s.aonUp = true ∧ s.time.coarse = false
      ∧ s.rdf R.SEL_CFG 0 1 0 ≠ 2 ∧ s.candidate = none ∧ s.time.src ≠ 15 ∧ s.hoWindow = some hs
      ∧ m = divEven hs.sum hs.length
      ∧ y = { s with time := { s.time with srcLost := false, modeWrite := false, selWrite := false } }
      ∧ z = { y with time := { y.time with src := 15, ctrl := m, hoValue := m, hoStart := s.time.total } })
  ∧ (∃ (s : State) (x : Int) (y : State) (z : State), s.aonUp = true ∧ s.time.coarse = false ∧ s.rdf R.SEL_CFG 0 1 0 ≠ 2
      ∧ s.candidate = none ∧ s.time.src ≠ 15 ∧ s.hoWindow = none
      ∧ y = { s with time := { s.time with srcLost := false, modeWrite := false, selWrite := false } }
      ∧ z = { y with time := { y.time with src := 15, ctrl := s.ctrlBase } })
  ∧ (∃ (s : State) (x : Int) (y : State), s.aonUp = true ∧ s.time.coarse = false ∧ s.rdf R.SEL_CFG 0 1 0 ≠ 2 ∧ s.candidate = none
      ∧ s.time.src = 15 ∧ y = { s with time := { s.time with srcLost := false, modeWrite := false, selWrite := false } })
  ∧ (∃ (s : State) (x : Int) (y : State) (z : State), s.aonUp = true ∧ s.time.coarse = false ∧ s.rdf R.SEL_CFG 0 1 0 = 2
      ∧ y = { s with time := { s.time with srcLost := false, modeWrite := false, selWrite := false } }
      ∧ z = { y with time := { y.time with src := 15 } })
  ∧ (∃ (s : State) (x : Int) (k : Nat), s.aonUp = true ∧ s.time.coarse = false ∧ s.rdf R.SEL_CFG 0 1 0 ≠ 2 ∧ s.candidate = some k
      ∧ k = s.time.src)
  ∧ (∃ (s : State) (x : Int), (s.aonUp = false ∨ s.time.coarse = true)) :=
  ⟨⟨{ up with time := { total := 20000000000, sources := [(6, .restoring)] }, regs := [(R.WTR.key 0, 13)] }, 6,
       by decide +kernel⟩,
   ⟨{ up with time := { total := 20000000000, sources := [(6, .restoring)] }, regs := [(R.WTR.key 0, 14)] }, 6,
       by decide +kernel⟩,
   ⟨{ early with time := { sources := [(0, .eligible)] }, regs := [(R.PRIO.key 0, 0xFFFFFF0)] }, 5, 0, _, _,
       (by first | decide +kernel | rfl), (by first | decide +kernel | rfl), (by first | decide +kernel | rfl), (by first | decide +kernel | rfl), (by first | decide +kernel | rfl), rfl, rfl⟩,
   ⟨{ early with time := { src := 0, pll := .locked, total := 3 * sclkSec, hist := [{ sec := 1, h := 1234584, locked := true }] }, regs := [(R.HO_CFG.key 0, 0x100001)] },
       5, [1234584], _, _, _,
       (by first | decide +kernel | rfl), (by first | decide +kernel | rfl), (by first | decide +kernel | rfl), (by first | decide +kernel | rfl), (by first | decide +kernel | rfl), (by first | decide +kernel | rfl), rfl, rfl, rfl⟩,
   ⟨{ early with time := { src := 0, pll := .locked, total := 3 * sclkSec, hist := [{ sec := 1, h := 1234584, locked := false }] }, regs := [(R.HO_CFG.key 0, 0x100001)] },
       5, _, _,
       (by first | decide +kernel | rfl), (by first | decide +kernel | rfl), (by first | decide +kernel | rfl), (by first | decide +kernel | rfl), (by first | decide +kernel | rfl), (by first | decide +kernel | rfl), rfl, rfl⟩,
   ⟨{ up with time := { pll := .holdover } }, 5, _,
       (by first | decide +kernel | rfl), (by first | decide +kernel | rfl), (by first | decide +kernel | rfl), (by first | decide +kernel | rfl), (by first | decide +kernel | rfl), rfl⟩,
   ⟨{ up with time := { pll := .locked, src := 3 }, regs := [(R.SEL_CFG.key 0, 2)] }, 5, _, _,
       (by first | decide +kernel | rfl), (by first | decide +kernel | rfl), (by first | decide +kernel | rfl), rfl, rfl⟩,
   ⟨{ early with time := { src := 0, pll := .locked, selWrite := true, sources := [(0, .eligible)] }, regs := [(R.PRIO.key 0, 0xFFFFFF0)] },
       5, 0, by decide +kernel⟩,
   ⟨{ up with time := { coarse := true } }, 5, by decide +kernel⟩⟩

/-- States and operands that meet the hypotheses of the first clauses of `Obligations.TheRootPllHolds`. -/
theorem witness_TheRootPllHolds :
  (∃ (s : State) (x : Int), s.aonUp = true ∧ x.natAbs ≤ 50000)
  ∧ (∃ (s : State) (x : Int), s.aonUp = true ∧ 50000 < x.natAbs ∧ s.time.xoBad = true)
  ∧ (∃ (s : State) (x : Int) (y : State), s.aonUp = true ∧ 50000 < x.natAbs ∧ s.time.xoBad = false
      ∧ y = ({ s with time := { s.time with xoBad := true } }.raise 0x01 2).refReport 0x01)
  ∧ (∃ (s : State) (x : Int) (y : State), s.aonUp = true ∧ 50000 < x.natAbs ∧ s.time.xoBad = false
      ∧ y = ({ s with time := { s.time with xoBad := true } }.raise 0x01 2).refReport 0x01)
  ∧ (∃ (s : State) (x : Int), s.aonUp = false)
  ∧ (∃ (s : State), s.time.pll = .acquiring ∧ s.time.acqAt + s.lockTime ≤ s.time.total)
  ∧ (∃ (s : State), (s.time.pll ≠ .acquiring ∨ s.time.total < s.time.acqAt + s.lockTime))
  ∧ (∃ (s : State), s.time.pll = .locked ∧ s.srcQual s.time.src = true)
  ∧ (∃ (s : State), (s.time.pll ≠ .locked ∨ s.srcQual s.time.src = false))
  ∧ (∃ (s : State) (n : Nat) (y : State), s.time.pll = .holdover ∧ n = s.rdf R.HO_CFG 0 63 32 ∧ n ≠ 0
      ∧ y = s.waitTo (s.time.hoStart + n * sclkSec))
  ∧ (∃ (s : State), (s.time.pll ≠ .holdover ∨ s.rdf R.HO_CFG 0 63 32 = 0))
  ∧ (∃ (s : State) (x : Int) (k : Nat) (y : State), s.aonUp = true
      ∧ k = (match s.time.hist with | v :: _ => v.sec + 1 | [] => s.tb2Sec) ∧ y = s.waitTo ((k + 1) * sclkSec)) :=
  ⟨⟨{ up with time := { xoBad := true } }, -50000, by decide +kernel⟩,
   ⟨{ up with time := { xoBad := true } }, -50001, by decide +kernel⟩,
   ⟨{ up with regs := [(R.TMP_CFG.key 0, 0)] }, 50001, _,
       (by first | decide +kernel | rfl), (by first | decide +kernel | rfl), (by first | decide +kernel | rfl), rfl⟩,
   ⟨{ up with regs := [(R.TMP_CFG.key 0, 8)] }, 50001, _,
       (by first | decide +kernel | rfl), (by first | decide +kernel | rfl), (by first | decide +kernel | rfl), rfl⟩,
   ⟨{}, 0, by decide +kernel⟩,
   ⟨{ early with time := { total := 20000000000, pll := .acquiring } }, by decide +kernel⟩,
   ⟨{ early with time := { pll := .acquiring } }, by decide +kernel⟩,
   ⟨{ early with time := { pll := .locked, src := 0, sources := [(0, .eligible)] } }, by decide +kernel⟩,
   ⟨{ early with time := { pll := .locked, src := 0, sources := [(0, .absent)] } }, by decide +kernel⟩,
   ⟨{ early with time := { pll := .holdover, hoStart := 7, total := 9 }, regs := [(R.HO_CFG.key 0, 0x100000000)] }, _, _,
       (by first | decide +kernel | rfl), rfl, (by first | decide +kernel | rfl), rfl⟩,
   ⟨{ early with time := { pll := .holdover } }, by decide +kernel⟩,
   ⟨{ up with time := { hist := [{ sec := 2, h := 0, locked := true }] } }, 2 ^ 31, _, _,
       (by first | decide +kernel | rfl), rfl, rfl⟩⟩

/-- States and operands that meet the hypotheses of further clauses of `Obligations.TheRootPllHolds`. -/
theorem witness_TheRootPllHolds_2 :
  (∃ (s : State) (x : Int), s.aonUp = false)
  ∧ (∃ (s : State) (y : State), s.time.slewing = true ∧ 0 < (s.rd R.NET_SLOPE).toNat ∧ y = s.pass (6 * s.slewLeft))
  ∧ (∃ (s : State) (y : State), s.time.slewing = true ∧ (s.rd R.NET_SLOPE).toNat = 0 ∧ y = s.pass (6 * s.slewLeft))
  ∧ (∃ (s : State), s.time.slewing = false) :=
  ⟨⟨{}, 0, by decide +kernel⟩,
   ⟨{ up with time := { slewing := true, netTarget := -7 }, regs := [(R.NET_SLOPE.key 0, 50)] }, _,
       (by first | decide +kernel | rfl), (by first | decide +kernel | rfl), rfl⟩,
   ⟨{ up with time := { slewing := true, netTarget := -7 }, regs := [(R.NET_SLOPE.key 0, 0)] }, _,
       (by first | decide +kernel | rfl), (by first | decide +kernel | rfl), rfl⟩,
   ⟨up, by decide +kernel⟩⟩

/-- States and operands that meet the hypotheses of the first clauses of `Obligations.TimeBasesFollowTheirMasters`. -/
theorem witness_TimeBasesFollowTheirMasters :
  (∃ (s : State) (n : Int) (d : Int) (y : State), s.aonUp = true ∧ s.tb0Master ≠ 0 ∧ s.enabled 0x03 = true
      ∧ (s.tb0Master ≠ 3 ∨ s.tb1Second = true) ∧ n = toSecond (if s.tb0Master = 3 then s.time.tb1 else s.time.tb0)
      ∧ d = divEven ((n - s.time.tb0) * 1000) unitsNs.toNat
      ∧ y = { s with time := { s.time with ofs := some d, masterLost := false, edgeAt := s.time.total } })
  ∧ (∃ (s : State) (n : Int) (d : Int) (y : State), s.aonUp = true ∧ s.tb0Master ≠ 0 ∧ s.enabled 0x03 = true
      ∧ (s.tb0Master ≠ 3 ∨ s.tb1Second = true) ∧ n = toSecond (if s.tb0Master = 3 then s.time.tb1 else s.time.tb0)
      ∧ d = divEven ((n - s.time.tb0) * 1000) unitsNs.toNat
      ∧ y = { s with time := { s.time with ofs := some d, masterLost := false, edgeAt := s.time.total } })
  ∧ (∃ (s : State), (s.aonUp = false ∨ s.tb0Master = 0 ∨ s.enabled 0x03 = false ∨ (s.tb0Master = 3 ∧ s.tb1Second = false)))
  ∧ (∃ (s : State), s.aonUp = true ∧ s.tb0Master ≠ 0 ∧ s.time.edgeAt + 3 * sclkSec ≤ s.time.total)
  ∧ (∃ (s : State), (s.aonUp = false ∨ s.tb0Master = 0 ∨ s.time.total < s.time.edgeAt + 3 * sclkSec))
  ∧ (∃ (s : State) (a : Agent) (v : Word), s.accepts a 0x03 R.STEP_CTRL.off (setBit v 0) = true ∧ s.meshZ = 0)
  ∧ (∃ (s : State) (a : Agent) (v : Word), s.accepts a 0x06 R.STEP_CTRL.off (setBit v 0) = true)
  ∧ (∃ (s : State) (a : Agent) (i : Fin 4) (v : Word) (y : State), s.accepts a (0x03 + i.val) R.TB_SRC.off v = true ∧ i = 0
      ∧ v ≠ s.rd R.TB_SRC ∧ y = s.wr R.TB_SRC i v)
  ∧ (∃ (s : State) (a : Agent) (i : Fin 4) (v : Word) (y : State) (z : State) (z2 : State),
      s.accepts a (0x03 + i.val) R.TB_SRC.off v = true ∧ i = 1 ∧ v = 1 ∧ s.tb1Master = false ∧ y = s.wr R.TB_SRC i v
      ∧ z = { y with time := { s.time with tb1 := s.time.tb0, ofs := (if s.rdf R.TB_SRC 0 1 0 = 3 then none else s.time.ofs) } }
      ∧ z2 = (if s.time.tb1St = s.time.tb0St then z else z.raise 0x04 0))
  ∧ (∃ (s : State) (a : Agent) (i : Fin 4) (v : Word) (y : State) (z : State) (z2 : State),
      s.accepts a (0x03 + i.val) R.TB_SRC.off v = true ∧ i = 1 ∧ v = 0 ∧ s.tb1Master = true ∧ y = s.wr R.TB_SRC i v
      ∧ z = { y with time := { s.time with havePrev := false, tb1St := .holdover } }
      ∧ z2 = (if s.time.tb0St = .holdover then z else z.raise 0x04 0))
  ∧ (∃ (s : State) (a : Agent) (i : Fin 4) (v : Word), s.accepts a (0x03 + i.val) R.TB_SRC.off v = true
      ∧ ((i.val = 0 ∧ v = s.rd R.TB_SRC) ∨ (i.val = 1 ∧ bit v 0 = s.tb1Master)))
  ∧ (∃ (s : State) (a : Agent) (v : Word) (x : Nat), s.accepts a 0x07 R.SMP_OFS.off v = true ∧ s.time.jump = false
      ∧ s.time.havePrev = false ∧ v.toInt.natAbs ≤ s.rdf R.SRV_CFG 0 31 0 * 2 ^ 16
      ∧ x = fld (s.heldWord a 0x07 R.SMP_MT_SEC.off (s.rd R.SMP_MT_SEC)) 47 0 * 1000000000 + fld (s.heldWord a 0x07 R.SMP_MT_NS.off (s.rd R.SMP_MT_NS)) 29 0) :=
  ⟨⟨{ up with time := { masterLost := true, tb0 := 999999999 * unitsNs }, regs := [(R.TB_SRC.key 0, 1), (regKey 0 0x03 0 hCtrl, 1)] },
       _, _, _,
       (by first | decide +kernel | rfl), (by first | decide +kernel | rfl), (by first | decide +kernel | rfl), (by first | decide +kernel | rfl), rfl, rfl, rfl⟩,
   ⟨{ up with time := { masterLost := true, tb0 := 999999999 * unitsNs, tb1 := 1000000001 * unitsNs }, regs := [(R.TB_SRC.key 0, 3), (regKey 0 0x03 0 hCtrl, 1)] },
       _, _, _,
       (by first | decide +kernel | rfl), (by first | decide +kernel | rfl), (by first | decide +kernel | rfl), (by first | decide +kernel | rfl), rfl, rfl, rfl⟩,
   ⟨{ up with time := { tb1 := 5 * unitsNs }, regs := [(R.TB_SRC.key 0, 3), (regKey 0 0x03 0 hCtrl, 1)] },
       by decide +kernel⟩,
   ⟨{ up with time := { total := 20000000000 }, regs := [(R.TB_SRC.key 0, 2)] }, by decide +kernel⟩,
   ⟨{ up with time := { total := 4500000000, edgeAt := 1 }, regs := [(R.TB_SRC.key 0, 2)] }, by decide +kernel⟩,
   ⟨{ up with time := { ofs := some 9 }, regs := hostOn 0x03 0 }, .secure, 4, by decide +kernel⟩,
   ⟨{ up with regs := hostOn 0x06 0 ++ [(R.STEP_SEC.key 3, 5)] }, .host, 0, by decide +kernel⟩,
   ⟨{ up with time := { ofs := some 4, masterLost := true }, regs := hostOn 0x03 0 }, .secure, 0, 3, _,
       (by first | decide +kernel | rfl), (by first | decide +kernel | rfl), (by first | decide +kernel | rfl), rfl⟩,
   ⟨{ up with time := { tb0 := 99 }, regs := hostOn 0x04 0 }, .host, 1, 1, _, _, _,
       (by first | decide +kernel | rfl), (by first | decide +kernel | rfl), (by first | decide +kernel | rfl), (by first | decide +kernel | rfl), rfl, rfl, rfl⟩,
   ⟨{ up with time := { tb0 := 99 }, regs := hostOn 0x04 0 ++ [(R.TB_SRC.key 1, 1)] }, .host, 1, 0, _, _, _,
       (by first | decide +kernel | rfl), (by first | decide +kernel | rfl), (by first | decide +kernel | rfl), (by first | decide +kernel | rfl), rfl, rfl, rfl⟩,
   ⟨{ up with time := { tb0 := 99 }, regs := hostOn 0x04 0 }, .host, 1, 0, by decide +kernel⟩,
   ⟨{ up with regs := hostOn 0x07 0 ++ [(regKey 0 0x04 0 hCtrl, 1), (R.SRV_CFG.key 0, 1), (R.SMP_MT_SEC.key 0, 7)], fab := { held := [(regKey 3 0x07 0 R.SMP_MT_NS.off, some 9)] } },
       .host, 0xFFFFFFFFFFFF0000, _,
       (by first | decide +kernel | rfl), (by first | decide +kernel | rfl), (by first | decide +kernel | rfl), (by first | decide +kernel | rfl), rfl⟩⟩

/-- States and operands that meet the hypotheses of further clauses of `Obligations.TimeBasesFollowTheirMasters`. -/
theorem witness_TimeBasesFollowTheirMasters_2 :
  (∃ (s : State) (a : Agent) (v : Word), s.accepts a 0x07 R.SMP_OFS.off v = true ∧ s.time.jump = false
      ∧ s.time.havePrev = false ∧ s.time.stepUsed = false ∧ s.rdf R.SRV_CFG 0 31 0 * 2 ^ 16 < v.toInt.natAbs)
  ∧ (∃ (s : State) (a : Agent) (v : Word), s.accepts a 0x07 R.SMP_OFS.off v = true ∧ s.time.jump = true)
  ∧ (∃ (s : State) (a : Agent) (v : Word) (x : Nat), s.accepts a 0x07 R.SMP_OFS.off v = true ∧ s.time.jump = false
      ∧ s.time.havePrev = true
      ∧ x = fld (s.heldWord a 0x07 R.SMP_MT_SEC.off (s.rd R.SMP_MT_SEC)) 47 0 * 1000000000 + fld (s.heldWord a 0x07 R.SMP_MT_NS.off (s.rd R.SMP_MT_NS)) 29 0
      ∧ x < s.time.prevMt)
  ∧ (∃ (s : State), s.time.tb1St = .tracking ∧ s.tb1Master = false
      ∧ s.time.sampleAt + s.rdf R.SRV_CFG 0 39 32 * sclkSec ≤ s.time.total)
  ∧ (∃ (s : State),
      (s.time.tb1St ≠ .tracking ∨ s.tb1Master = true ∨ s.time.total < s.time.sampleAt + s.rdf R.SRV_CFG 0 39 32 * sclkSec))
  ∧ (∃ (s : State) (n : Option (Nat × Int)) (y : State), s.aonUp = true
      ∧ n = some (s.rdf R.PPS_OUT_CFG 0 3 2, s.ppsSecond (s.rdf R.PPS_OUT_CFG 0 3 2)) ∧ s.time.ppsSec ≠ n
      ∧ s.rdb R.PPS_OUT_CFG 0 0 = true
      ∧ y = { s with time := { s.time with ppsCfg := s.rd R.PPS_OUT_CFG, ppsSec := n, ppsAt := s.time.total } })
  ∧ (∃ (s : State) (n : Option (Nat × Int)) (y : State), s.aonUp = true
      ∧ n = some (s.rdf R.PPS_OUT_CFG 0 3 2, s.ppsSecond (s.rdf R.PPS_OUT_CFG 0 3 2)) ∧ s.time.ppsSec ≠ n
      ∧ s.rdb R.PPS_OUT_CFG 0 0 = false
      ∧ y = { s with time := { s.time with ppsCfg := s.rd R.PPS_OUT_CFG, ppsSec := n, ppsAt := s.time.total } })
  ∧ (∃ (s : State) (n : Option (Nat × Int)), n = some (s.rdf R.PPS_OUT_CFG 0 3 2, s.ppsSecond (s.rdf R.PPS_OUT_CFG 0 3 2))
      ∧ s.time.ppsSec = n)
  ∧ (∃ (s : State), s.aonUp = true ∧ s.time.ppsLevel = true ∧ s.time.ppsAt + 1500 * fld s.time.ppsCfg 31 12 ≤ s.time.total)
  ∧ (∃ (s : State), (s.time.ppsLevel = false ∨ s.time.total < s.time.ppsAt + 1500 * fld s.time.ppsCfg 31 12))
  ∧ (∃ (s : State) (r : Bool), s.aonUp = false) :=
  ⟨⟨{ up with regs := hostOn 0x07 0 ++ [(regKey 0 0x04 0 hCtrl, 1), (R.SRV_CFG.key 0, 1), (R.SMP_MT_SEC.key 0, 7)], fab := { held := [(regKey 3 0x07 0 R.SMP_MT_NS.off, some 9)] } },
       .host, 0xFFFFFFFFFFFEFFFF, by decide +kernel⟩,
   ⟨{ up with regs := hostOn 0x07 0 ++ [(regKey 0 0x04 0 hCtrl, 1), (R.SRV_CFG.key 0, 1), (R.SMP_MT_SEC.key 0, 7)], fab := { held := [(regKey 3 0x07 0 R.SMP_MT_NS.off, some 9)] }, time := { jump := true } },
       .host, 1, by decide +kernel⟩,
   ⟨{ up with regs := hostOn 0x07 0 ++ [(regKey 0 0x04 0 hCtrl, 1), (R.SRV_CFG.key 0, 1), (R.SMP_MT_SEC.key 0, 7)], fab := { held := [(regKey 3 0x07 0 R.SMP_MT_NS.off, some 9)] }, time := { havePrev := true, prevMt := 7000000010 } },
       .host, 1, _,
       (by first | decide +kernel | rfl), (by first | decide +kernel | rfl), (by first | decide +kernel | rfl), rfl, (by first | decide +kernel | rfl)⟩,
   ⟨{ up with time := { total := 20000000000, tb1St := .tracking }, regs := [(R.SRV_CFG.key 0, 0xD00000000)] },
       by decide +kernel⟩,
   ⟨{ up with time := { total := 20000000000, tb1St := .tracking }, regs := [(R.SRV_CFG.key 0, 0xE00000000)] },
       by decide +kernel⟩,
   ⟨{ up with regs := [(R.PPS_OUT_CFG.key 0, 0x186A0001)] }, _, _,
       (by first | decide +kernel | rfl), rfl, (by first | decide +kernel | rfl), (by first | decide +kernel | rfl), rfl⟩,
   ⟨{ up with regs := [(R.PPS_OUT_CFG.key 0, 0x186A0000)] }, _, _,
       (by first | decide +kernel | rfl), rfl, (by first | decide +kernel | rfl), (by first | decide +kernel | rfl), rfl⟩,
   ⟨{ up with time := { ppsSec := some (0, 0) } }, _, rfl, (by first | decide +kernel | rfl)⟩,
   ⟨{ up with time := { total := 20000000000, ppsLevel := true } }, by decide +kernel⟩,
   ⟨{ up with time := { total := 1499, ppsCfg := 0x1000, ppsLevel := true } }, by decide +kernel⟩,
   ⟨{}, true, by decide +kernel⟩⟩

/-- States and operands that meet the hypotheses of the first clauses of `Obligations.CommandsAnswerQueries`. -/
theorem witness_CommandsAnswerQueries :
  (∃ (s : State) (c : Fin 16) (r : CmdRun), s.carries c .nop r false)
  ∧ (∃ (s : State) (c : Fin 16) (r : CmdRun), s.carries c .nop r false)
  ∧ (∃ (s : State) (c : Fin 16) (r : CmdRun), s.carries c .nop r false)
  ∧ (∃ (s : State) (c : Fin 16) (r : CmdRun), s.carries c .devInfo r false)
  ∧ (∃ (s : State) (c : Fin 16) (r : CmdRun), s.carries c .status r false)
  ∧ (∃ (s : State) (c : Fin 16) (r : CmdRun), s.carries c .timeRead r false)
  ∧ (∃ (s : State) (c : Fin 16) (r : CmdRun) (x : State) (y : State) (y1 : State) (ch : List Byte) (z : Session),
      s.carries c .sessionOpen r false ∧ s.lockedOut c = false
      ∧ x = (if (pget s.cmds.session c).isSome then s.endSession c 3 else s) ∧ ch = x.fresh.2.drawChallenge.1
      ∧ y = x.fresh.2.drawChallenge.2
      ∧ z = { id := freshId (Config.sessionId x.fresh.1).toNat (y.cmds.session.map fun e => e.2.elim 0 fun v => v.id), auth := false, rights := fld (r.arg 0) 3 0, key := fld (r.arg 0) 15 8, challenge := some ch, since := s.time.total, last := s.time.total }
      ∧ y1 = { y with cmds := { y.cmds with session := pset y.cmds.session c (some z) } })
  ∧ (∃ (s : State) (c : Fin 16) (r : CmdRun) (x : State) (y : State) (y1 : State) (ch : List Byte) (z : Session),
      s.carries c .sessionOpen r false ∧ s.lockedOut c = false
      ∧ x = (if (pget s.cmds.session c).isSome then s.endSession c 3 else s) ∧ ch = x.fresh.2.drawChallenge.1
      ∧ y = x.fresh.2.drawChallenge.2
      ∧ z = { id := freshId (Config.sessionId x.fresh.1).toNat (y.cmds.session.map fun e => e.2.elim 0 fun v => v.id), auth := false, rights := fld (r.arg 0) 3 0, key := fld (r.arg 0) 15 8, challenge := some ch, since := s.time.total, last := s.time.total }
      ∧ y1 = { y with cmds := { y.cmds with session := pset y.cmds.session c (some z) } })
  ∧ (∃ (s : State) (c : Fin 16) (r : CmdRun), s.carries c .sessionOpen r false ∧ s.lockedOut c = true)
  ∧ (∃ (s : State) (c : Fin 16) (host : Option (List Byte)) (r : CmdRun) (x : State) (z : State) (bs : List Byte) (ch : List Byte) (y : Session) (y2 : Session) (g : Option Nat),
      s.carries c .sessionAuth r false ∧ s.fwFetch (fld (r.arg 0) 47 0) 96 host = (x, some bs) ∧ (x.cchan c).run = some r
      ∧ x.pendingSession c r = some (y, ch) ∧ g = x.authRights c y ch bs
      ∧ y2 = { y with challenge := none, last := x.time.total }
      ∧ z = (match g with | some n => ({ x with cmds := { x.cmds with session := pset x.cmds.session c (some { y2 with auth := true, rights := y.rights &&& (n % 16) }) } } : State).setCchan c { x.cchan c with fails := 0 } | none => (State.authFailed { x with cmds := { x.cmds with session := pset x.cmds.session c (some y2) } } c).1))
  ∧ (∃ (s : State) (c : Fin 16) (host : Option (List Byte)) (r : CmdRun) (x : State) (z : State) (bs : List Byte) (ch : List Byte) (y : Session) (y2 : Session) (g : Option Nat),
      s.carries c .sessionAuth r false ∧ s.fwFetch (fld (r.arg 0) 47 0) 96 host = (x, some bs) ∧ (x.cchan c).run = some r
      ∧ x.pendingSession c r = some (y, ch) ∧ g = x.authRights c y ch bs
      ∧ y2 = { y with challenge := none, last := x.time.total }
      ∧ z = (match g with | some n => ({ x with cmds := { x.cmds with session := pset x.cmds.session c (some { y2 with auth := true, rights := y.rights &&& (n % 16) }) } } : State).setCchan c { x.cchan c with fails := 0 } | none => (State.authFailed { x with cmds := { x.cmds with session := pset x.cmds.session c (some y2) } } c).1))
  ∧ (∃ (s : State) (c : Fin 16) (host : Option (List Byte)) (r : CmdRun) (x : State) (bs : List Byte),
      s.carries c .sessionAuth r false ∧ s.fwFetch (fld (r.arg 0) 47 0) 96 host = (x, some bs) ∧ (x.cchan c).run = some r
      ∧ x.pendingSession c r = none) :=
  ⟨⟨chanAt (cmdOf 0 [7]), 3, cmdOf 0 [7], by decide +kernel⟩,
   ⟨chanOpen (cmdOf 0 [7]), 3, cmdOf 0 [7], by decide +kernel⟩,
   ⟨{ up with cmds := { chan := [(4, { run := some (cmdOf 0 [7]) })] } }, 4, cmdOf 0 [7], by decide +kernel⟩,
   ⟨chanOpen (cmdOf 1 []), 3, cmdOf 1 [], by decide +kernel⟩,
   ⟨chanOpen (cmdOf 2 []), 3, cmdOf 2 [], by decide +kernel⟩,
   ⟨chanOpen (cmdOf 3 [2]), 3, cmdOf 3 [2], by decide +kernel⟩,
   ⟨chanAt (cmdOf 0x10 [0x20F]), 3, cmdOf 0x10 [0x20F], _, _, _, _, _,
       (by first | decide +kernel | rfl), (by first | decide +kernel | rfl), rfl, rfl, rfl, rfl, rfl⟩,
   ⟨{ chanOpen (cmdOf 0x10 [0x20F]) with cmds := { (chanOpen (cmdOf 0x10 [0x20F])).cmds with session := [(3, some authOf)] } },
       3, cmdOf 0x10 [0x20F], _, _, _, _, _,
       (by first | decide +kernel | rfl), (by first | decide +kernel | rfl), rfl, rfl, rfl, rfl, rfl⟩,
   ⟨{ chanAt (cmdOf 0x10 []) with cmds := { chan := [(3, { run := some (cmdOf 0x10 []), lockedAt := some 5 })] } }, 3,
       cmdOf 0x10 [], by decide +kernel⟩,
   ⟨authAt 0, 3, none, cmdOf 0x11 [0x8001000000, 96], authAt 0, _, List.replicate 96 0, List.replicate 32 5, authOf, _,
       _,
       (by first | decide +kernel | rfl), (by first | decide +kernel | rfl), (by first | decide +kernel | rfl), (by first | decide +kernel | rfl), rfl, rfl, rfl⟩,
   ⟨authAt 4, 3, none, cmdOf 0x11 [0x8001000000, 96], authAt 4, _, List.replicate 96 0, List.replicate 32 5, authOf, _,
       _,
       (by first | decide +kernel | rfl), (by first | decide +kernel | rfl), (by first | decide +kernel | rfl), (by first | decide +kernel | rfl), rfl, rfl, rfl⟩,
   ⟨{ authAt 0 with cmds := { chan := [(3, { run := some (cmdOf 0x11 [0x8001000000, 96]) })] } }, 3, none,
       cmdOf 0x11 [0x8001000000, 96],
       { authAt 0 with cmds := { chan := [(3, { run := some (cmdOf 0x11 [0x8001000000, 96]) })] } },
       List.replicate 96 0, by decide +kernel⟩⟩

/-- States and operands that meet the hypotheses of further clauses of `Obligations.CommandsAnswerQueries`. -/
theorem witness_CommandsAnswerQueries_2 :
  (∃ (s : State) (c : Fin 16) (r : CmdRun), s.carries c .sessionClose r false)
  ∧ (∃ (s : State) (c : Fin 16) (r : CmdRun) (x : State), s.carries c .notifySet r false
      ∧ s.fwWrite { r := R.CQ_CH, k := c, v := setFld (s.cqCh c) 9 0 (fld (r.arg 0) 9 0) } = (x, none)) :=
  ⟨⟨chanOpen (cmdOf 0x12 []), 3, cmdOf 0x12 [], by decide +kernel⟩,
   ⟨chanOpen (cmdOf 0x13 [0x3FF]), 3, cmdOf 0x13 [0x3FF],
       ((chanOpen (cmdOf 0x13 [0x3FF])).fwWrite { r := R.CQ_CH, k := 3, v := 0x80006007000003FF }).1,
       by decide +kernel⟩⟩

/-- States and operands that meet the hypotheses of the first clauses of `Obligations.PowerAndScheduleCommands`. -/
theorem witness_PowerAndScheduleCommands :
  (∃ (s : State) (c : Fin 16) (r : CmdRun) (y : State), s.carries c .pwrRun r false ∧ s.pwr.state = .idle ∧ s.pwr.req = .none
      ∧ y = (s.setPwr fun p => { p with req := .toRun s.runTide, rows := 0, rowAt := s.time.total }))
  ∧ (∃ (s : State) (c : Fin 16) (r : CmdRun) (n : Nat), s.carries c .pwrRun r false ∧ s.pwr.state = .idle ∧ s.pwr.req = .toRun n)
  ∧ (∃ (s : State) (c : Fin 16) (r : CmdRun), s.carries c .pwrRun r true ∧ s.pwr.state = .run)
  ∧ (∃ (s : State) (c : Fin 16) (r : CmdRun), s.carries c .pwrRun r true ∧ s.pwr.state ≠ .run)
  ∧ (∃ (s : State) (c : Fin 16) (r : CmdRun), s.carries c .pwrRun r false ∧ s.pwr.state ≠ .idle
      ∧ (s.pwr.state ≠ .run ∨ r.replayed = false))
  ∧ (∃ (s : State) (c : Fin 16) (r : CmdRun), s.carries c .pwrRun r false ∧ s.pwr.state = .run ∧ r.replayed = true)
  ∧ (∃ (s : State) (c : Fin 16) (r : CmdRun) (n : Nat) (y : State), s.carries c .pwrIdle r false ∧ s.pwr.state = .run
      ∧ (s.pwr.req = .none ∨ s.pwr.req = .toRun n) ∧ s.pansWanted = false
      ∧ y = (s.setPwr fun p => { p with req := .toIdle }))
  ∧ (∃ (s : State) (c : Fin 16) (r : CmdRun), s.carries c .pwrIdle r false ∧ s.pwr.state = .run ∧ s.pwr.req = .toIdle)
  ∧ (∃ (s : State) (c : Fin 16) (r : CmdRun) (n : Nat), s.carries c .pwrIdle r false ∧ s.pwr.state = .run
      ∧ (s.pwr.req = .none ∨ s.pwr.req = .toRun n) ∧ s.pansWanted = true)
  ∧ (∃ (s : State) (c : Fin 16) (r : CmdRun), s.carries c .pwrIdle r false ∧ s.pwr.state ≠ .run
      ∧ (s.pwr.state ≠ .idle ∨ r.replayed = false))
  ∧ (∃ (s : State) (c : Fin 16) (r : CmdRun), s.carries c .pwrIdle r false ∧ s.pwr.state = .run ∧ s.pwr.req = .toStandby)
  ∧ (∃ (s : State) (c : Fin 16) (r : CmdRun), s.carries c .pwrIdle r true ∧ s.pwr.state = .idle) :=
  ⟨⟨{ chanOpen (cmdOf 0x100 []) with pwr := { up.pwr with state := .idle } }, 3, cmdOf 0x100 [], _,
       (by first | decide +kernel | rfl), (by first | decide +kernel | rfl), (by first | decide +kernel | rfl), rfl⟩,
   ⟨{ chanOpen (cmdOf 0x100 []) with pwr := { up.pwr with state := .idle, req := .toRun 7 } }, 3, cmdOf 0x100 [], 7,
       by decide +kernel⟩,
   ⟨chanOpen (cmdOf 0x100 [] false true), 3, cmdOf 0x100 [] false true, by decide +kernel⟩,
   ⟨{ chanOpen (cmdOf 0x100 [] false true) with pwr := { up.pwr with state := .idle, req := .toRun 7 } }, 3,
       cmdOf 0x100 [] false true, by decide +kernel⟩,
   ⟨chanOpen (cmdOf 0x100 []), 3, cmdOf 0x100 [], by decide +kernel⟩,
   ⟨chanOpen { cmdOf 0x100 [] with replayed := true }, 3, { cmdOf 0x100 [] with replayed := true }, by decide +kernel⟩,
   ⟨chanOpen (cmdOf 0x101 []), 3, cmdOf 0x101 [], 0, _,
       (by first | decide +kernel | rfl), (by first | decide +kernel | rfl), (by first | decide +kernel | rfl), (by first | decide +kernel | rfl), rfl⟩,
   ⟨{ chanOpen (cmdOf 0x101 []) with pwr := { up.pwr with req := .toIdle } }, 3, cmdOf 0x101 [], by decide +kernel⟩,
   ⟨{ chanOpen (cmdOf 0x101 []) with sched := { run := some 0, image0 := imageOf [(8, 2)] } }, 3, cmdOf 0x101 [], 0,
       by decide +kernel⟩,
   ⟨{ chanOpen (cmdOf 0x101 []) with pwr := { up.pwr with state := .standby } }, 3, cmdOf 0x101 [], by decide +kernel⟩,
   ⟨{ chanOpen (cmdOf 0x101 []) with pwr := { up.pwr with req := .toStandby } }, 3, cmdOf 0x101 [], by decide +kernel⟩,
   ⟨{ chanOpen (cmdOf 0x101 [] false true) with pwr := { up.pwr with state := .idle } }, 3, cmdOf 0x101 [] false true,
       by decide +kernel⟩⟩

/-- States and operands that meet the hypotheses of further clauses of `Obligations.PowerAndScheduleCommands`. -/
theorem witness_PowerAndScheduleCommands_2 :
  (∃ (s : State) (c : Fin 16) (r : CmdRun), s.carries c .pwrIdle r true ∧ s.pwr.state ≠ .idle)
  ∧ (∃ (s : State) (c : Fin 16) (r : CmdRun) (y : State), s.carries c .pwrStandby r false ∧ s.pwr.req ≠ .toStandby
      ∧ s.pwr.standbyReady = false ∧ (s.pwr.state = .run ∨ s.pwr.state = .idle)
      ∧ y = { s with pwr := { s.pwr with req := .toStandby }, sched := { s.sched with standbyHalt := s.sched.run.isSome } })
  ∧ (∃ (s : State) (c : Fin 16) (r : CmdRun) (y : State), s.carries c .pwrStandby r false ∧ s.pwr.req ≠ .toStandby
      ∧ s.pwr.standbyReady = false ∧ (s.pwr.state = .run ∨ s.pwr.state = .idle)
      ∧ y = { s with pwr := { s.pwr with req := .toStandby }, sched := { s.sched with standbyHalt := s.sched.run.isSome } })
  ∧ (∃ (s : State) (c : Fin 16) (r : CmdRun), s.carries c .pwrStandby r false
      ∧ (s.pwr.req = .toStandby ∨ s.pwr.standbyReady = true ∨ (s.pwr.state ≠ .run ∧ s.pwr.state ≠ .idle))
      ∧ r.replayed = false)
  ∧ (∃ (s : State) (c : Fin 16) (r : CmdRun), s.carries c .pwrStandby r true ∧ s.pwr.standbyReady = true)
  ∧ (∃ (s : State) (c : Fin 16) (r : CmdRun), s.carries c .pwrStandby r true ∧ s.pwr.standbyReady = false
      ∧ s.pwr.req = .toStandby)
  ∧ (∃ (s : State) (c : Fin 16) (r : CmdRun), s.carries c .pwrStandby r true ∧ s.pwr.standbyReady = false
      ∧ s.pwr.req ≠ .toStandby)
  ∧ (∃ (s : State) (c : Fin 16) (host : Option (List Byte)) (r : CmdRun) (x : State) (y : State), s.carries c .imageLoad r false
      ∧ r.replayed = false ∧ s.storeLocked (fld (r.arg 1) 8 8) = false
      ∧ (s.setStoreSt (fld (r.arg 1) 8 8) .written).copyImage (fld (r.arg 0) 47 0) (fld (r.arg 1) 8 8) (r.arg 2).toNat host = (x, true)
      ∧ x.fwWrite { r := R.LOAD_CMD, v := word (at_ 8 (fld (r.arg 1) 8 8) + 1) } = (y, none) ∧ (y.cchan c).run = some r)
  ∧ (∃ (s : State) (c : Fin 16) (host : Option (List Byte)) (r : CmdRun) (x : State), s.carries c .imageLoad r false
      ∧ r.replayed = false ∧ s.storeLocked (fld (r.arg 1) 8 8) = false
      ∧ (s.setStoreSt (fld (r.arg 1) 8 8) .written).copyImage (fld (r.arg 0) 47 0) (fld (r.arg 1) 8 8) (r.arg 2).toNat host = (x, false)
      ∧ (x.cchan c).run = some r)
  ∧ (∃ (s : State) (c : Fin 16) (host : Option (List Byte)) (r : CmdRun), s.carries c .imageLoad r false ∧ r.replayed = false
      ∧ s.storeLocked (fld (r.arg 1) 8 8) = true)
  ∧ (∃ (s : State) (c : Fin 16) (host : Option (List Byte)) (r : CmdRun), s.carries c .imageLoad r true
      ∧ (s.sched.check.any fun x => x.1 = fld (r.arg 1) 8 8) = false)
  ∧ (∃ (s : State) (c : Fin 16) (host : Option (List Byte)) (r : CmdRun), s.carries c .imageLoad r true
      ∧ (s.sched.check.any fun x => x.1 = fld (r.arg 1) 8 8) = true) :=
  ⟨⟨{ chanOpen (cmdOf 0x101 [] false true) with pwr := { up.pwr with req := .toIdle } }, 3, cmdOf 0x101 [] false true,
       by decide +kernel⟩,
   ⟨{ chanAt (cmdOf 0x102 []) with sched := { run := some 0, image0 := linkImage } }, 3, cmdOf 0x102 [], _,
       (by first | decide +kernel | rfl), (by first | decide +kernel | rfl), (by first | decide +kernel | rfl), (by first | decide +kernel | rfl), rfl⟩,
   ⟨chanOpen (cmdOf 0x102 []), 3, cmdOf 0x102 [], _,
       (by first | decide +kernel | rfl), (by first | decide +kernel | rfl), (by first | decide +kernel | rfl), (by first | decide +kernel | rfl), rfl⟩,
   ⟨{ chanOpen (cmdOf 0x102 []) with pwr := { up.pwr with req := .toStandby } }, 3, cmdOf 0x102 [], by decide +kernel⟩,
   ⟨{ chanOpen (cmdOf 0x102 [] false true) with pwr := { up.pwr with req := .toStandby, standbyReady := true } }, 3,
       cmdOf 0x102 [] false true, by decide +kernel⟩,
   ⟨{ chanOpen (cmdOf 0x102 [] false true) with pwr := { up.pwr with req := .toStandby } }, 3, cmdOf 0x102 [] false true,
       by decide +kernel⟩,
   ⟨{ chanOpen (cmdOf 0x102 [] false true) with pwr := { up.pwr with standbyReady := false } }, 3,
       cmdOf 0x102 [] false true, by decide +kernel⟩,
   ⟨chanAt loadRun, 3, none, loadRun, (((chanAt loadRun).setStoreSt 1 .written).copyImage 0x8001000000 1 64 none).1,
       ((((chanAt loadRun).setStoreSt 1 .written).copyImage 0x8001000000 1 64 none).1.fwWrite { r := R.LOAD_CMD, v := 0x101 }).1,
       by decide +kernel⟩,
   ⟨chanOpen (cmdOf 0x200 [0x4000000000, 0x100, 64]), 3, none, cmdOf 0x200 [0x4000000000, 0x100, 64],
       (((chanOpen (cmdOf 0x200 [0x4000000000, 0x100, 64])).setStoreSt 1 .written).copyImage 0x4000000000 1 64 none).1,
       by decide +kernel⟩,
   ⟨{ chanOpen (cmdOf 0x200 [0x8001000000, 0, 64]) with sched := { run := some 0, st0 := .running, image0 := linkImage } },
       3, none, cmdOf 0x200 [0x8001000000, 0, 64], by decide +kernel⟩,
   ⟨chanOpen { loadRun with begun := true }, 3, none, { loadRun with begun := true }, by decide +kernel⟩,
   ⟨{ chanOpen { loadRun with begun := true } with sched := { check := some (1, 5) } }, 3, none,
       { loadRun with begun := true }, by decide +kernel⟩⟩

/-- States and operands that meet the hypotheses of further clauses of `Obligations.PowerAndScheduleCommands`. -/
theorem witness_PowerAndScheduleCommands_3 :
  (∃ (s : State) (c : Fin 16) (r : CmdRun) (x : State), s.carries c .imageArm r false ∧ r.replayed = false
      ∧ s.fwWrites [{ r := R.ARM_TIDE, v := r.arg 0 }, { r := R.ARM_CTRL, v := armWord r false }] = (x, none)
      ∧ (x.cchan c).run = some r)
  ∧ (∃ (s : State) (c : Fin 16) (r : CmdRun) (x : State), s.carries c .imageHalt r false ∧ r.replayed = false
      ∧ s.fwWrites [{ r := R.ARM_TIDE, v := r.arg 0 }, { r := R.ARM_CTRL, v := armWord r true }] = (x, none)
      ∧ (x.cchan c).run = some r)
  ∧ (∃ (s : State) (c : Fin 16) (r : CmdRun) (x : State) (z : State) (j : Reject), s.carries c .imageArm r false
      ∧ r.replayed = false ∧ (x.cchan c).run = some r
      ∧ s.fwWrites [{ r := R.ARM_TIDE, v := r.arg 0 }, { r := R.ARM_CTRL, v := armWord r false }] = (x, some j)
      ∧ z = x.recordRejects [j])
  ∧ (∃ (s : State) (c : Fin 16) (r : CmdRun) (x : State), s.carries c .imageCancel r false ∧ r.replayed = false
      ∧ s.fwWrite { r := R.ARM_CANCEL, v := 1 } = (x, none) ∧ (x.cchan c).run = some r)
  ∧ (∃ (s : State) (c : Fin 16) (r : CmdRun) (x : State) (z : State) (j : Reject), s.carries c .imageCancel r false
      ∧ r.replayed = false ∧ s.fwWrite { r := R.ARM_CANCEL, v := 1 } = (x, some j) ∧ z = s.recordRejects [j])
  ∧ (∃ (s : State) (c : Fin 16) (r : CmdRun) (x : State), s.carries c .imageClear r false ∧ r.replayed = false
      ∧ s.fwWrite { r := R.LOAD_CMD, v := word (at_ 8 (fld (r.arg 0) 8 8) + 2) } = (x, none) ∧ (x.cchan c).run = some r) :=
  ⟨⟨armAt 0x201 0x100, 3, cmdOf 0x201 [64, 0x100],
       ((armAt 0x201 0x100 : State).fwWrites [{ r := R.ARM_TIDE, v := 64 }, { r := R.ARM_CTRL, v := 0x101 }]).1,
       by decide +kernel⟩,
   ⟨{ armAt 0x202 0 with sched := { run := some 0, image0 := linkImage }, cmds := { chan := [(3, { run := some (cmdOf 0x202 [64]) })] } },
       3, cmdOf 0x202 [64],
       (({ armAt 0x202 0 with sched := { run := some 0, image0 := linkImage }, cmds := { chan := [(3, { run := some (cmdOf 0x202 [64]) })] } } : State).fwWrites [{ r := R.ARM_TIDE, v := 64 }, { r := R.ARM_CTRL, v := 3 }]).1,
       by decide +kernel⟩,
   ⟨chanOpen (cmdOf 0x201 [64]), 3, cmdOf 0x201 [64],
       ((chanOpen (cmdOf 0x201 [64])).fwWrites [{ r := R.ARM_TIDE, v := 64 }, { r := R.ARM_CTRL, v := 1 }]).1, _,
       { agent := 1, page := 0x10, bank := 0, off := 0x148, code := .state },
       (by first | decide +kernel | rfl), (by first | decide +kernel | rfl), (by first | decide +kernel | rfl), (by first | decide +kernel | rfl), rfl⟩,
   ⟨{ chanOpen (cmdOf 0x203 []) with sched := { pend := some { halt := true, store := 0, stress := false, tide := 9, epoch := 0 } } },
       3, cmdOf 0x203 [],
       (({ chanOpen (cmdOf 0x203 []) with sched := { pend := some { halt := true, store := 0, stress := false, tide := 9, epoch := 0 } } } : State).fwWrite { r := R.ARM_CANCEL, v := 1 }).1,
       by decide +kernel⟩,
   ⟨chanOpen (cmdOf 0x203 []), 3, cmdOf 0x203 [], chanOpen (cmdOf 0x203 []), _,
       { agent := 1, page := 0x10, bank := 0, off := 0x150, code := .state },
       (by first | decide +kernel | rfl), (by first | decide +kernel | rfl), (by first | decide +kernel | rfl), rfl⟩,
   ⟨{ chanOpen (cmdOf 0x204 [0x100]) with sched := { st1 := .written } }, 3, cmdOf 0x204 [0x100],
       (({ chanOpen (cmdOf 0x204 [0x100]) with sched := { st1 := .written } } : State).fwWrite { r := R.LOAD_CMD, v := 0x102 }).1,
       by decide +kernel⟩⟩

/-- States and operands that meet the hypotheses of the first clauses of `Obligations.TimeAndMaintenanceCommands`. -/
theorem witness_TimeAndMaintenanceCommands :
  (∃ (s : State) (c : Fin 16) (r : CmdRun) (x : State), s.carries c .timeStepArm r false ∧ r.replayed = false
      ∧ s.fwWrites [{ a := .secure, r := R.STEP_SEC, v := r.arg 1 }, { a := .secure, r := R.STEP_NS, v := r.arg 2 }, { a := .secure, r := R.STEP_CTRL, v := word (at_ 1 (fld (r.arg 0) 2 1) + 1) }] = (x, none)
      ∧ (x.cchan c).run = some r)
  ∧ (∃ (s : State) (c : Fin 16) (r : CmdRun) (x : State), s.carries c .refSelect r false ∧ r.expert = false
      ∧ s.fwWrite { a := .secure, r := R.SEL_CFG, v := setFld (setFld (s.rd R.SEL_CFG) 1 0 (fld (r.arg 0) 1 0)) 7 4 (fld (r.arg 0) 7 4) } = (x, none)
      ∧ (x.cchan c).run = some r)
  ∧ (∃ (s : State) (c : Fin 16) (r : CmdRun) (x : State), s.carries c .refSelect r false ∧ r.expert = true
      ∧ s.fwWrites [{ a := .secure, r := R.PRIO, v := r.arg 1 }, { a := .secure, r := R.WTR, v := r.arg 3 }, { a := .secure, r := R.HO_CFG, v := r.arg 4 }, { a := .secure, r := R.SEL_CFG, v := setFld (setFld (setFld (s.rd R.SEL_CFG) 1 0 (fld (r.arg 0) 1 0)) 7 4 (fld (r.arg 0) 7 4)) 12 8 (fld (r.arg 2) 4 0) }] = (x, none)
      ∧ (x.cchan c).run = some r)
  ∧ (∃ (s : State) (c : Fin 16) (r : CmdRun) (x : State) (z : State) (j : Reject), s.carries c .refSelect r false
      ∧ r.expert = false
      ∧ s.fwWrite { a := .secure, r := R.SEL_CFG, v := setFld (setFld (s.rd R.SEL_CFG) 1 0 (fld (r.arg 0) 1 0)) 7 4 (fld (r.arg 0) 7 4) } = (x, some j)
      ∧ z = s.recordRejects [j])
  ∧ (∃ (s : State) (c : Fin 16) (r : CmdRun) (x : State), s.carries c .tb3Set r false
      ∧ s.fwWrites ((if r.expert then [{ r := R.TB_RATE, u := 3, v := r.arg 2 }] else []) ++ [{ r := R.STEP_SEC, u := 3, v := r.arg 0 }, { r := R.STEP_NS, u := 3, v := r.arg 1 }, { r := R.STEP_CTRL, u := 3, v := 1 }]) = (x, none)
      ∧ (x.cchan c).run = some r)
  ∧ (∃ (s : State) (c : Fin 16) (r : CmdRun) (x : State), s.carries c .heapRetrain r false ∧ r.replayed = false
      ∧ s.fwWrite { r := R.HC_CMD, u := fld (r.arg 0) 7 0, v := 1 } = (x, none) ∧ (x.cchan c).run = some r)
  ∧ (∃ (s : State) (c : Fin 16) (r : CmdRun), s.carries c .heapRetrain r true ∧ (s.ctl (fld (r.arg 0) 7 0)).state ≠ .starting)
  ∧ (∃ (s : State) (c : Fin 16) (r : CmdRun), s.carries c .heapRetrain r true ∧ (s.ctl (fld (r.arg 0) 7 0)).state = .starting)
  ∧ (∃ (s : State) (c : Fin 16) (r : CmdRun) (x : State), s.carries c .linkRetrain r false ∧ r.replayed = false
      ∧ s.fwWrite { r := R.LINK_CMD, u := fld (r.arg 0) 7 0, v := 1 } = (x, none) ∧ (x.cchan c).run = some r)
  ∧ (∃ (s : State) (c : Fin 16) (r : CmdRun), s.carries c .linkRetrain r true
      ∧ ((s.lkUp (fld (r.arg 0) 7 0) = true ∧ s.lkNeg (fld (r.arg 0) 7 0) = 0) ∨ s.lkState (fld (r.arg 0) 7 0) = lkDetect ∨ s.lkState (fld (r.arg 0) 7 0) = lkFault))
  ∧ (∃ (s : State) (c : Fin 16) (r : CmdRun), s.carries c .linkRetrain r true
      ∧ (¬ ((s.lkUp (fld (r.arg 0) 7 0) = true ∧ s.lkNeg (fld (r.arg 0) 7 0) = 0) ∨ s.lkState (fld (r.arg 0) 7 0) = lkDetect ∨ s.lkState (fld (r.arg 0) 7 0) = lkFault)))
  ∧ (∃ (s : State) (c : Fin 16) (r : CmdRun) (pg : Nat) (x : State), s.carries c .panPreempt r false ∧ r.replayed = false
      ∧ pg = 0x30 + fld (r.arg 0) 7 0 / 16
      ∧ firstCode (s.hdrReasons .normal pg hCtrl (setBit (s.hdr pg hCtrl) 1 ||| 0x5A17000000000000)) = none
      ∧ (s.ctrlPut pg (setBit (s.hdr pg hCtrl) 1)).fwWrites [{ r := R.PAN_XTIDE, u := fld (r.arg 0) 7 0, v := r.arg 1 }, { r := R.PAN_XCMD, u := fld (r.arg 0) 7 0, v := 1 }] = (x, none)
      ∧ (x.cchan c).run = some r) :=
  ⟨⟨chanOpen (cmdOf 0x300 [0, 5, 0]), 3, cmdOf 0x300 [0, 5, 0],
       ((chanOpen (cmdOf 0x300 [0, 5, 0])).fwWrites [{ a := .secure, r := R.STEP_SEC, v := 5 }, { a := .secure, r := R.STEP_NS, v := 0 }, { a := .secure, r := R.STEP_CTRL, v := 1 }]).1,
       by decide +kernel⟩,
   ⟨chanOpen (cmdOf 0x301 [0x62]), 3, cmdOf 0x301 [0x62],
       ((chanOpen (cmdOf 0x301 [0x62])).fwWrite { a := .secure, r := R.SEL_CFG, v := 0xC62 }).1, by decide +kernel⟩,
   ⟨refAt, 3, refRun,
       (refAt.fwWrites [{ a := .secure, r := R.PRIO, v := 0x6543210 }, { a := .secure, r := R.WTR, v := 5 }, { a := .secure, r := R.HO_CFG, v := 0x2580001E }, { a := .secure, r := R.SEL_CFG, v := 0x400 }]).1,
       by decide +kernel⟩,
   ⟨chanOpen (cmdOf 0x301 [0x63]), 3, cmdOf 0x301 [0x63], chanOpen (cmdOf 0x301 [0x63]), _,
       { agent := 0, page := 2, bank := 0, off := R.SEL_CFG.off, code := .value },
       (by first | decide +kernel | rfl), (by first | decide +kernel | rfl), (by first | decide +kernel | rfl), rfl⟩,
   ⟨chanOpen (cmdOf 0x302 [9, 0]), 3, cmdOf 0x302 [9, 0],
       ((chanOpen (cmdOf 0x302 [9, 0])).fwWrites [{ r := R.STEP_SEC, u := 3, v := 9 }, { r := R.STEP_NS, u := 3, v := 0 }, { r := R.STEP_CTRL, u := 3, v := 1 }]).1,
       by decide +kernel⟩,
   ⟨{ chanAt (cmdOf 0x500 [200]) with heap := { ctrl := [(200, { state := .ready })] } }, 3, cmdOf 0x500 [200],
       (({ chanAt (cmdOf 0x500 [200]) with heap := { ctrl := [(200, { state := .ready })] } } : State).fwWrite { r := R.HC_CMD, u := 200, v := 1 }).1,
       by decide +kernel⟩,
   ⟨{ chanOpen (cmdOf 0x500 [200] false true) with heap := { ctrl := [(200, { state := .ready })] } }, 3,
       cmdOf 0x500 [200] false true, by decide +kernel⟩,
   ⟨{ chanOpen (cmdOf 0x500 [200] false true) with heap := { ctrl := [(200, { state := .starting })] } }, 3,
       cmdOf 0x500 [200] false true, by decide +kernel⟩,
   ⟨linkAt (cmdOf 0x501 [65]), 3, cmdOf 0x501 [65],
       ((linkAt (cmdOf 0x501 [65])).fwWrite { r := R.LINK_CMD, u := 65, v := 1 }).1, by decide +kernel⟩,
   ⟨linkAt (cmdOf 0x501 [65] false true), 3, cmdOf 0x501 [65] false true, by decide +kernel⟩,
   ⟨{ linkAt (cmdOf 0x501 [66] false true) with regs := [(R.LINK_STAT.key 66, 3)] }, 3, cmdOf 0x501 [66] false true,
       by decide +kernel⟩,
   ⟨preAt (cmdOf 0x502 [17, 4] true) {}, 3, cmdOf 0x502 [17, 4] true, 0x31,
       (((preAt (cmdOf 0x502 [17, 4] true) {}).ctrlPut 0x31 2).fwWrites [{ r := R.PAN_XTIDE, u := 17, v := 4 }, { r := R.PAN_XCMD, u := 17, v := 1 }]).1,
       by decide +kernel⟩⟩

/-- States and operands that meet the hypotheses of further clauses of `Obligations.TimeAndMaintenanceCommands`. -/
theorem witness_TimeAndMaintenanceCommands_2 :
  (∃ (s : State) (c : Fin 16) (r : CmdRun), s.carries c .panPreempt r true ∧ (s.pn (fld (r.arg 0) 7 0)).preempted = true)
  ∧ (∃ (s : State) (c : Fin 16) (r : CmdRun), s.carries c .panPreempt r true ∧ (s.pn (fld (r.arg 0) 7 0)).preempted = false)
  ∧ (∃ (s : State) (c : Fin 16) (r : CmdRun) (pg : Nat) (x : State), s.carries c .panResume r false ∧ r.replayed = false
      ∧ pg = 0x30 + fld (r.arg 0) 7 0 / 16
      ∧ firstCode (s.hdrReasons .normal pg hCtrl (setBit (s.hdr pg hCtrl) 1 ||| 0x5A17000000000000)) = none
      ∧ (s.ctrlPut pg (setBit (s.hdr pg hCtrl) 1)).fwWrites (writesOn (fld (r.arg 0) 7 0) [(R.PAN_XPC, r.arg 2), (R.PAN_XLOOP0, r.arg 3), (R.PAN_XLOOP1, r.arg 4), (R.PAN_XLOOP2, r.arg 5), (R.PAN_XTIDE, r.arg 1), (R.PAN_XCMD, 2)]) = (x, none)
      ∧ (x.cchan c).run = some r)
  ∧ (∃ (s : State) (c : Fin 16) (r : CmdRun), s.carries c .panResume r true ∧ (s.pn (fld (r.arg 0) 7 0)).preempted = false)
  ∧ (∃ (s : State) (c : Fin 16) (r : CmdRun), s.carries c .panResume r true ∧ (s.pn (fld (r.arg 0) 7 0)).preempted = true)
  ∧ (∃ (s : State) (c : Fin 16) (r : CmdRun), s.carries c .checkpoint r false)
  ∧ (∃ (s : State) (c : Fin 16) (r : CmdRun), s.carries c .checkpoint r true ∧ r.mark ≤ s.sup.ckptSeq)
  ∧ (∃ (s : State) (c : Fin 16) (r : CmdRun), s.carries c .checkpoint r true ∧ s.sup.ckptSeq < r.mark) :=
  ⟨⟨preAt (cmdOf 0x502 [17, 4] true true) { preempted := true }, 3, cmdOf 0x502 [17, 4] true true, by decide +kernel⟩,
   ⟨preAt (cmdOf 0x502 [17, 4] true true) {}, 3, cmdOf 0x502 [17, 4] true true, by decide +kernel⟩,
   ⟨preAt (cmdOf 0x503 [17, 4, 2] true) { preempted := true }, 3, cmdOf 0x503 [17, 4, 2] true, 0x31,
       (((preAt (cmdOf 0x503 [17, 4, 2] true) { preempted := true }).ctrlPut 0x31 2).fwWrites (writesOn 17 [(R.PAN_XPC, 2), (R.PAN_XLOOP0, 0), (R.PAN_XLOOP1, 0), (R.PAN_XLOOP2, 0), (R.PAN_XTIDE, 4), (R.PAN_XCMD, 2)])).1,
       by decide +kernel⟩,
   ⟨preAt (cmdOf 0x503 [17, 4, 2] true true) {}, 3, cmdOf 0x503 [17, 4, 2] true true, by decide +kernel⟩,
   ⟨preAt (cmdOf 0x503 [17, 4, 2] true true) { preempted := true }, 3, cmdOf 0x503 [17, 4, 2] true true,
       by decide +kernel⟩,
   ⟨chanOpen (cmdOf 0x504 []), 3, cmdOf 0x504 [], by decide +kernel⟩,
   ⟨chanOpen (cmdOf 0x504 [] false true), 3, cmdOf 0x504 [] false true, by decide +kernel⟩,
   ⟨chanOpen { cmdOf 0x504 [] false true with mark := 9 }, 3, { cmdOf 0x504 [] false true with mark := 9 },
       by decide +kernel⟩⟩

/-- States and operands that meet the hypotheses of the first clauses of `Obligations.SettingCommandsCommitTheirSets`. -/
theorem witness_SettingCommandsCommitTheirSets :
  (∃ (s : State) (c : Fin 16) (host : Option (List Byte)) (r : CmdRun) (x : State) (y : State) (bs : List Byte) (es : List (List Word)),
      s.carries c .delayModels r false ∧ r.replayed = false
      ∧ s.fwFetch (fld (r.arg 0) 47 0) (64 * (r.arg 1).toNat) host = (x, some bs)
      ∧ es = chunks 8 (r.arg 1).toNat (bytesWords (8 * (r.arg 1).toNat) bs)
      ∧ (es.map dmSlot).eraseDups.length = (es.map dmSlot).length
      ∧ ((es.map dmSlot).any fun z => x.setDue (.dm z.1 z.2)) = false ∧ (es.all fun e => (x.dmEntry e).code.isNone) = true
      ∧ x.fwWrites (es.flatMap dmWrites) = (y, none) ∧ (y.cchan c).run = some r)
  ∧ (∃ (s : State) (c : Fin 16) (host : Option (List Byte)) (r : CmdRun) (x : State) (bs : List Byte) (es : List (List Word)),
      s.carries c .delayModels r false ∧ r.replayed = false
      ∧ s.fwFetch (fld (r.arg 0) 47 0) (64 * (r.arg 1).toNat) host = (x, some bs)
      ∧ es = chunks 8 (r.arg 1).toNat (bytesWords (8 * (r.arg 1).toNat) bs)
      ∧ (es.map dmSlot).eraseDups.length = (es.map dmSlot).length
      ∧ ((es.map dmSlot).any fun z => x.setDue (.dm z.1 z.2)) = true)
  ∧ (∃ (s : State) (c : Fin 16) (host : Option (List Byte)) (r : CmdRun) (x : State) (bs : List Byte) (es : List (List Word)),
      s.carries c .delayModels r false ∧ r.replayed = false
      ∧ s.fwFetch (fld (r.arg 0) 47 0) (64 * (r.arg 1).toNat) host = (x, some bs)
      ∧ es = chunks 8 (r.arg 1).toNat (bytesWords (8 * (r.arg 1).toNat) bs)
      ∧ (es.map dmSlot).eraseDups.length ≠ (es.map dmSlot).length ∧ (x.cchan c).run = some r)
  ∧ (∃ (s : State) (c : Fin 16) (host : Option (List Byte)) (r : CmdRun) (x : State), s.carries c .delayModels r false
      ∧ s.fwFetch (fld (r.arg 0) 47 0) (64 * (r.arg 1).toNat) host = (x, none) ∧ (x.cchan c).run = some r)
  ∧ (∃ (s : State) (c : Fin 16) (host : Option (List Byte)) (r : CmdRun) (x : State), s.carries c .gains r false
      ∧ s.fwFetch (fld (r.arg 0) 47 0) (2 * fld (r.arg 2) 28 16) host = (x, none) ∧ (x.cchan c).run = some r)
  ∧ (∃ (s : State) (c : Fin 16) (host : Option (List Byte)) (r : CmdRun) (x : State), s.carries c .destTable r false
      ∧ s.fwFetch (fld (r.arg 0) 47 0) (64 * fld (r.arg 1) 14 8) host = (x, none) ∧ (x.cchan c).run = some r)
  ∧ (∃ (s : State) (c : Fin 16) (host : Option (List Byte)) (r : CmdRun) (x : State) (y : State) (bs : List Byte),
      s.carries c .gains r false ∧ s.fwFetch (fld (r.arg 0) 47 0) (2 * fld (r.arg 2) 28 16) host = (x, some bs)
      ∧ x.setDue (.gain (fld (r.arg 1) 15 8)) = false ∧ fld (r.arg 2) 11 0 + fld (r.arg 2) 28 16 ≤ 4096
      ∧ x.fwWrites (writesOn (fld (r.arg 1) 15 8) ([(R.SLU_CMD, word (at_ 16 (fld (r.arg 1) 3 0) + 1)), (R.GAIN_ADDR, word (at_ 12 (fld (r.arg 1) 3 0) + fld (r.arg 2) 11 0))] ++ (halves (fld (r.arg 2) 28 16) bs).map (fun g => (R.GAIN_DATA, g)) ++ [(R.GAIN_CTRL, 1)])) = (y, none)
      ∧ (y.cchan c).run = some r)
  ∧ (∃ (s : State) (c : Fin 16) (host : Option (List Byte)) (r : CmdRun) (x : State) (bs : List Byte), s.carries c .gains r false
      ∧ s.fwFetch (fld (r.arg 0) 47 0) (2 * fld (r.arg 2) 28 16) host = (x, some bs)
      ∧ x.setDue (.gain (fld (r.arg 1) 15 8)) = false ∧ 4096 < fld (r.arg 2) 11 0 + fld (r.arg 2) 28 16
      ∧ (x.cchan c).run = some r)
  ∧ (∃ (s : State) (c : Fin 16) (host : Option (List Byte)) (r : CmdRun) (x : State) (bs : List Byte), s.carries c .gains r false
      ∧ r.replayed = false ∧ s.fwFetch (fld (r.arg 0) 47 0) (2 * fld (r.arg 2) 28 16) host = (x, some bs)
      ∧ x.setDue (.gain (fld (r.arg 1) 15 8)) = true)
  ∧ (∃ (s : State) (c : Fin 16) (host : Option (List Byte)) (r : CmdRun) (x : State), s.carries c .window r false
      ∧ bit (r.arg 1) 8 = true ∧ s.setDue (.win (fld (r.arg 1) 7 0)) = false
      ∧ s.fwWrites (writesOn (fld (r.arg 1) 7 0) [(R.SLU_CMD, 2), (R.WIN_CTRL, 1)]) = (x, none) ∧ (x.cchan c).run = some r)
  ∧ (∃ (s : State) (c : Fin 16) (host : Option (List Byte)) (r : CmdRun) (x : State) (y : State) (bs : List Byte),
      s.carries c .window r false ∧ bit (r.arg 1) 8 = false
      ∧ s.fwFetch (fld (r.arg 0) 47 0) (r.arg 2).toNat host = (x, some bs) ∧ x.setDue (.win (fld (r.arg 1) 7 0)) = false
      ∧ x.fwWrites (writesOn (fld (r.arg 1) 7 0) ([(R.WIN_ADDR, 0)] ++ (quarters ((r.arg 2).toNat / 4) bs).map (fun v => (R.WIN_DATA, v)) ++ [(R.WIN_CTRL, 1)])) = (y, none)
      ∧ (y.cchan c).run = some r)
  ∧ (∃ (s : State) (c : Fin 16) (host : Option (List Byte)) (r : CmdRun), s.carries c .window r false ∧ r.replayed = false
      ∧ bit (r.arg 1) 8 = true ∧ s.setDue (.win (fld (r.arg 1) 7 0)) = true) :=
  ⟨⟨dmAt, 3, none, dmRun, dmAt, (dmAt.fwWrites (dmWrites [0x6400000302, 0, 5, 0, 0, 0, 0, 0])).1,
       (dmAt.fwFetch 0x8001000000 64 none).2.getD [], [[0x6400000302, 0, 5, 0, 0, 0, 0, 0]], by decide +kernel⟩,
   ⟨{ dmAt with fab := { commits := [{ set := .dm 3 2, wait := 1 }] } }, 3, none, dmRun,
       { dmAt with fab := { commits := [{ set := .dm 3 2, wait := 1 }] } },
       (dmAt.fwFetch 0x8001000000 64 none).2.getD [], [[0x6400000302, 0, 5, 0, 0, 0, 0, 0]], by decide +kernel⟩,
   ⟨chanOpen (cmdOf 0x400 [0x8001000000, 2, 128]), 3, none, cmdOf 0x400 [0x8001000000, 2, 128],
       chanOpen (cmdOf 0x400 [0x8001000000, 2, 128]), List.replicate 128 0, List.replicate 2 (List.replicate 8 0),
       by decide +kernel⟩,
   ⟨chanOpen (cmdOf 0x400 [0x4000000000, 1, 64]), 3, none, cmdOf 0x400 [0x4000000000, 1, 64],
       ((chanOpen (cmdOf 0x400 [0x4000000000, 1, 64])).fwFetch 0x4000000000 64 none).1, by decide +kernel⟩,
   ⟨chanOpen (cmdOf 0x401 [0x4000000000, 0x302, 0x20000]), 3, none, cmdOf 0x401 [0x4000000000, 0x302, 0x20000],
       ((chanOpen (cmdOf 0x401 [0x4000000000, 0x302, 0x20000])).fwFetch 0x4000000000 4 none).1, by decide +kernel⟩,
   ⟨chanOpen (cmdOf 0x404 [0x4000000000, 0x13F]), 3, none, cmdOf 0x404 [0x4000000000, 0x13F],
       ((chanOpen (cmdOf 0x404 [0x4000000000, 0x13F])).fwFetch 0x4000000000 64 none).1, by decide +kernel⟩,
   ⟨gainAt 7, 3, none, gainRun 7, gainAt 7,
       ((gainAt 7).fwWrites (writesOn 3 [(R.SLU_CMD, 0x20001), (R.GAIN_ADDR, 0x2007), (R.GAIN_DATA, 0), (R.GAIN_DATA, 0), (R.GAIN_CTRL, 1)])).1,
       [0, 0, 0, 0], by decide +kernel⟩,
   ⟨chanAt (gainRun 4095), 3, none, gainRun 4095, chanAt (gainRun 4095), [0, 0, 0, 0], by decide +kernel⟩,
   ⟨{ gainAt 7 with fab := { commits := [{ set := .gain 3, wait := 1 }] } }, 3, none, gainRun 7,
       { gainAt 7 with fab := { commits := [{ set := .gain 3, wait := 1 }] } }, [0, 0, 0, 0], by decide +kernel⟩,
   ⟨winAt, 3, none, cmdOf 0x402 [0, 0x103], (winAt.fwWrites (writesOn 3 [(R.SLU_CMD, 2), (R.WIN_CTRL, 1)])).1,
       by decide +kernel, by decide +kernel, by decide +kernel, Prod.ext rfl (by decide +kernel), by decide +kernel⟩,
   ⟨winBuf, 3, none, cmdOf 0x402 [0x8001000000, 3, 0], winBuf,
       (winBuf.fwWrites (writesOn 3 [(R.WIN_ADDR, 0), (R.WIN_CTRL, 1)])).1, [], by decide +kernel⟩,
   ⟨{ winAt with fab := { commits := [{ set := .win 3, wait := 1 }] } }, 3, none, cmdOf 0x402 [0, 0x103],
       by decide +kernel⟩⟩

/-- States and operands that meet the hypotheses of further clauses of `Obligations.SettingCommandsCommitTheirSets`. -/
theorem witness_SettingCommandsCommitTheirSets_2 :
  (∃ (s : State) (c : Fin 16) (r : CmdRun) (r1 : CmdRun) (x : State), s.carries c .weightSel r false ∧ s.setDue .wtSel = false
      ∧ s.fwWrite { r := R.WT_SEL, v := word (2 * fld (r.arg 0) 0 0 + 1) } = (x, none) ∧ (x.cchan c).run = some r
      ∧ r1 = { r with mark := x.adoptTide })
  ∧ (∃ (s : State) (c : Fin 16) (r : CmdRun), s.carries c .weightSel r true ∧ s.setDue .wtSel = false)
  ∧ (∃ (s : State) (c : Fin 16) (r : CmdRun) (g : Bool), s.carries c .weightSel r g ∧ s.setDue .wtSel = true
      ∧ (g = true ∨ r.replayed = false))
  ∧ (∃ (s : State) (c : Fin 16) (host : Option (List Byte)) (r : CmdRun) (x : State) (y : State) (bs : List Byte),
      s.carries c .destTable r false ∧ s.fwFetch (fld (r.arg 0) 47 0) (64 * fld (r.arg 1) 14 8) host = (x, some bs)
      ∧ x.setDue .dest = false ∧ fld (r.arg 1) 5 0 + fld (r.arg 1) 14 8 ≤ 64
      ∧ x.fwWrites ((List.range (fld (r.arg 1) 14 8)).flatMap (fun i => destWrites (fld (r.arg 1) 5 0 + i) ((chunks 8 (fld (r.arg 1) 14 8) (bytesWords (8 * fld (r.arg 1) 14 8) bs)).getD i [])) ++ [{ r := R.DST_CTRL, v := 1 }]) = (y, none)
      ∧ (y.cchan c).run = some r)
  ∧ (∃ (s : State) (c : Fin 16) (host : Option (List Byte)) (r : CmdRun) (x : State) (bs : List Byte),
      s.carries c .destTable r false ∧ r.replayed = false
      ∧ s.fwFetch (fld (r.arg 0) 47 0) (64 * fld (r.arg 1) 14 8) host = (x, some bs) ∧ x.setDue .dest = true) :=
  ⟨⟨chanAt (cmdOf 0x403 [1]), 3, cmdOf 0x403 [1], _, ((chanAt (cmdOf 0x403 [1])).fwWrite { r := R.WT_SEL, v := 3 }).1,
       (by first | decide +kernel | rfl), (by first | decide +kernel | rfl), (by first | decide +kernel | rfl), (by first | decide +kernel | rfl), rfl⟩,
   ⟨chanOpen (cmdOf 0x403 [1] false true), 3, cmdOf 0x403 [1] false true, by decide +kernel⟩,
   ⟨{ chanOpen (cmdOf 0x403 [1]) with fab := { commits := [{ set := .wtSel, wait := 1 }] } }, 3, cmdOf 0x403 [1], false,
       by decide +kernel⟩,
   ⟨chanOpen dstRun, 3, none, dstRun, chanOpen dstRun,
       ((chanOpen dstRun).fwWrites (destWrites 63 (List.replicate 8 0) ++ [{ r := R.DST_CTRL, v := 1 }])).1,
       List.replicate 64 0, by decide +kernel⟩,
   ⟨{ chanOpen dstRun with fab := { commits := [{ set := .dest, wait := 1 }] } }, 3, none, dstRun,
       { chanOpen dstRun with fab := { commits := [{ set := .dest, wait := 1 }] } }, List.replicate 64 0,
       by decide +kernel⟩⟩

/-- States and operands that meet the hypotheses of the first clauses of `Obligations.UpdateAndSecurityCommands`. -/
theorem witness_UpdateAndSecurityCommands :
  (∃ (s : State) (c : Fin 16) (ok : Bool) (r : CmdRun) (x : State) (y : State), s.carries c .updateBegin r false ∧ ok = true
      ∧ r.replayed = false ∧ (s.updState = 0 ∨ s.updState = 2)
      ∧ s.fwWrite { a := .secure, r := R.NVM_CMD, v := word (2 ^ (1 - s.flag.slot)) } = (x, none)
      ∧ y = ((s.setFlag { s.flag with state := 0 }).fwWrite { a := .secure, r := R.NVM_CMD, v := word (2 ^ (1 - s.flag.slot)) }).1)
  ∧ (∃ (s : State) (c : Fin 16) (ok : Bool) (r : CmdRun), s.carries c .updateBegin r true ∧ ok = true ∧ s.nv.erasing = none)
  ∧ (∃ (s : State) (c : Fin 16) (ok : Bool) (r : CmdRun) (k : Nat), s.carries c .updateBegin r true ∧ s.nv.erasing = some k)
  ∧ (∃ (s : State) (c : Fin 16) (ok : Bool) (r : CmdRun), s.carries c .updateBegin r false ∧ ok = false ∧ r.replayed = false
      ∧ (s.updState = 0 ∨ s.updState = 2))
  ∧ (∃ (s : State) (c : Fin 16) (ok : Bool) (r : CmdRun), s.carries c .updateBegin r true ∧ ok = false ∧ s.nv.erasing = none)
  ∧ (∃ (s : State) (c : Fin 16) (ok : Bool) (r : CmdRun), s.carries c .updateBegin r false ∧ s.updState ≠ 0 ∧ s.updState ≠ 2)
  ∧ (∃ (s : State) (c : Fin 16) (ok : Bool) (host : Option (List Byte)) (r : CmdRun) (x : State) (y : State) (bs : List Byte) (len : Nat),
      s.carries c .updateChunk r false ∧ ok = true ∧ s.fwFetch (fld (r.arg 0) 47 0) (r.arg 1).toNat host = (x, some bs)
      ∧ (x.cchan c).run = some r ∧ x.sup.recvLen = some len ∧ (r.arg 2).toNat = x.sup.recvGot
      ∧ x.sup.recvGot + (r.arg 1).toNat ≤ len ∧ y = x.nvmWrite (0x400000 * (1 - x.flag.slot) + x.sup.recvGot) bs)
  ∧ (∃ (s : State) (c : Fin 16) (ok : Bool) (host : Option (List Byte)) (r : CmdRun) (x : State) (bs : List Byte) (len : Nat),
      s.carries c .updateChunk r false ∧ ok = false ∧ s.fwFetch (fld (r.arg 0) 47 0) (r.arg 1).toNat host = (x, some bs)
      ∧ (x.cchan c).run = some r ∧ x.sup.recvLen = some len ∧ (r.arg 2).toNat = x.sup.recvGot
      ∧ x.sup.recvGot + (r.arg 1).toNat ≤ len)
  ∧ (∃ (s : State) (c : Fin 16) (ok : Bool) (host : Option (List Byte)) (r : CmdRun) (x : State) (bs : List Byte) (len : Nat),
      s.carries c .updateChunk r false ∧ s.fwFetch (fld (r.arg 0) 47 0) (r.arg 1).toNat host = (x, some bs)
      ∧ (x.cchan c).run = some r ∧ x.sup.recvLen = some len
      ∧ ((r.arg 2).toNat ≠ x.sup.recvGot ∨ len < x.sup.recvGot + (r.arg 1).toNat))
  ∧ (∃ (s : State) (c : Fin 16) (ok : Bool) (host : Option (List Byte)) (r : CmdRun) (x : State) (bs : List Byte),
      s.carries c .updateChunk r false ∧ s.fwFetch (fld (r.arg 0) 47 0) (r.arg 1).toNat host = (x, some bs)
      ∧ (x.cchan c).run = some r ∧ x.sup.recvLen = none)
  ∧ (∃ (s : State) (c : Fin 16) (ok : Bool) (r : CmdRun) (len : Nat) (crc : Nat) (y : State), s.carries c .updateEnd r false
      ∧ ok = true ∧ s.sup.recvLen = some len ∧ crc = crc32c (s.nv.nvm.bytes (0x400000 * (1 - s.flag.slot)) s.sup.recvGot)
      ∧ y = { s with sup := { s.sup with recvLen := none } } ∧ s.sup.recvGot = len ∧ crc = (r.arg 0).toNat)
  ∧ (∃ (s : State) (c : Fin 16) (ok : Bool) (r : CmdRun) (len : Nat) (crc : Nat) (y : State), s.carries c .updateEnd r false
      ∧ ok = true ∧ s.sup.recvLen = some len ∧ crc = crc32c (s.nv.nvm.bytes (0x400000 * (1 - s.flag.slot)) s.sup.recvGot)
      ∧ y = { s with sup := { s.sup with recvLen := none } } ∧ (s.sup.recvGot ≠ len ∨ crc ≠ (r.arg 0).toNat)) :=
  ⟨⟨chanAt (cmdOf 0x600 [64, 2]), 3, true, cmdOf 0x600 [64, 2],
       ((chanAt (cmdOf 0x600 [64, 2])).fwWrite { a := .secure, r := R.NVM_CMD, v := 2 }).1, _,
       (by first | decide +kernel | rfl), (by first | decide +kernel | rfl), (by first | decide +kernel | rfl), (by first | decide +kernel | rfl), (by first | decide +kernel | rfl), rfl⟩,
   ⟨chanOpen (cmdOf 0x600 [64, 2] false true), 3, true, cmdOf 0x600 [64, 2] false true, by decide +kernel⟩,
   ⟨{ chanOpen (cmdOf 0x600 [64, 2] false true) with nv := { erasing := some 1 } }, 3, true,
       cmdOf 0x600 [64, 2] false true, 1, by decide +kernel⟩,
   ⟨chanOpen (cmdOf 0x600 [64, 2]), 3, false, cmdOf 0x600 [64, 2], by decide +kernel⟩,
   ⟨chanOpen (cmdOf 0x600 [64, 2] false true), 3, false, cmdOf 0x600 [64, 2] false true, by decide +kernel⟩,
   ⟨recvAt (cmdOf 0x600 [64, 2]), 3, true, cmdOf 0x600 [64, 2], by decide +kernel⟩,
   ⟨recvAt (chunkRun 64), 3, true, none, chunkRun 64, recvAt (chunkRun 64), _, List.replicate 64 0, 128,
       (by first | decide +kernel | rfl), (by first | decide +kernel | rfl), (by first | decide +kernel | rfl), (by first | decide +kernel | rfl), (by first | decide +kernel | rfl), (by first | decide +kernel | rfl), (by first | decide +kernel | rfl), rfl⟩,
   ⟨recvAt (chunkRun 64), 3, false, none, chunkRun 64, recvAt (chunkRun 64), List.replicate 64 0, 128, by decide +kernel⟩,
   ⟨recvAt (chunkRun 0), 3, true, none, chunkRun 0, recvAt (chunkRun 0), List.replicate 64 0, 128, by decide +kernel⟩,
   ⟨chanOpen (chunkRun 0), 3, true, none, chunkRun 0, chanOpen (chunkRun 0), List.replicate 64 0, by decide +kernel⟩,
   ⟨endAt 63499111, 3, true, cmdOf 0x602 [63499111], 64, 63499111,
       { endAt 63499111 with sup := { (endAt 63499111).sup with recvLen := none } }, by decide +kernel⟩,
   ⟨endAt 0, 3, true, cmdOf 0x602 [0], 64, 63499111, { endAt 0 with sup := { (endAt 0).sup with recvLen := none } },
       by decide +kernel⟩⟩

/-- States and operands that meet the hypotheses of further clauses of `Obligations.UpdateAndSecurityCommands`. -/
theorem witness_UpdateAndSecurityCommands_2 :
  (∃ (s : State) (c : Fin 16) (ok : Bool) (r : CmdRun), s.carries c .updateEnd r false ∧ s.sup.recvLen = none
      ∧ r.replayed = false)
  ∧ (∃ (s : State) (c : Fin 16) (ok : Bool) (r : CmdRun) (len : Nat), s.carries c .updateEnd r false ∧ ok = false
      ∧ s.sup.recvLen = some len)
  ∧ (∃ (s : State) (c : Fin 16) (ok : Bool) (r : CmdRun), s.carries c .updateActivate r false ∧ ok = true ∧ s.updState = 2
      ∧ s.cqOn c = true ∧ s.cqRoom c = false)
  ∧ (∃ (s : State) (c : Fin 16) (ok : Bool) (r : CmdRun), s.carries c .updateActivate r false ∧ ok = true ∧ s.updState = 2)
  ∧ (∃ (s : State) (c : Fin 16) (ok : Bool) (r : CmdRun), s.carries c .updateActivate r false ∧ s.updState ≠ 2)
  ∧ (∃ (s : State) (c : Fin 16) (ok : Bool) (r : CmdRun), s.carries c .updateActivate r false ∧ ok = false ∧ s.updState = 2)
  ∧ (∃ (s : State) (c : Fin 16) (ok : Bool) (r : CmdRun) (y : State), s.carries c .updateConfirm r false ∧ ok = true
      ∧ s.updState = 4 ∧ y = s.setFlag { s.flag with state := 0, boots := 0 })
  ∧ (∃ (s : State) (c : Fin 16) (ok : Bool) (r : CmdRun), s.carries c .updateConfirm r false ∧ ok = false ∧ s.updState = 4)
  ∧ (∃ (s : State) (c : Fin 16) (ok : Bool) (r : CmdRun), s.carries c .updateConfirm r false ∧ s.updState ≠ 4
      ∧ r.replayed = false)
  ∧ (∃ (s : State) (c : Fin 16) (r : CmdRun), s.carries c .updateStatus r false)
  ∧ (∃ (s : State) (c : Fin 16) (r : CmdRun), s.carries c .updateAbort r false ∧ s.updState = 1)
  ∧ (∃ (s : State) (c : Fin 16) (r : CmdRun), s.carries c .updateAbort r false ∧ s.updState = 2) :=
  ⟨⟨chanOpen (cmdOf 0x602 [0]), 3, true, cmdOf 0x602 [0], by decide +kernel⟩,
   ⟨endAt 0, 3, false, cmdOf 0x602 [0], 64, by decide +kernel⟩,
   ⟨flagAt (chanAt (cmdOf 0x603 [])) 2, 3, true, cmdOf 0x603 [], by decide +kernel⟩,
   ⟨flagAt (chanOpen (cmdOf 0x603 [])) 2, 3, true, cmdOf 0x603 [], by decide +kernel⟩,
   ⟨chanOpen (cmdOf 0x603 []), 3, true, cmdOf 0x603 [], by decide +kernel⟩,
   ⟨flagAt (chanAt (cmdOf 0x603 [])) 2, 3, false, cmdOf 0x603 [], by decide +kernel⟩,
   ⟨flagAt (chanOpen (cmdOf 0x604 [])) 4, 3, true, cmdOf 0x604 [], _,
       (by first | decide +kernel | rfl), (by first | decide +kernel | rfl), (by first | decide +kernel | rfl), rfl⟩,
   ⟨flagAt (chanOpen (cmdOf 0x604 [])) 4, 3, false, cmdOf 0x604 [], by decide +kernel⟩,
   ⟨chanOpen (cmdOf 0x604 []), 3, true, cmdOf 0x604 [], by decide +kernel⟩,
   ⟨flagAt (chanOpen (cmdOf 0x605 [])) 4, 3, cmdOf 0x605 [], by decide +kernel⟩,
   ⟨recvAt (cmdOf 0x606 []), 3, cmdOf 0x606 [], by decide +kernel⟩,
   ⟨flagAt (chanOpen (cmdOf 0x606 [])) 2, 3, cmdOf 0x606 [], by decide +kernel⟩⟩

/-- States and operands that meet the hypotheses of further clauses of `Obligations.UpdateAndSecurityCommands`. -/
theorem witness_UpdateAndSecurityCommands_3 :
  (∃ (s : State) (c : Fin 16) (r : CmdRun), s.carries c .updateAbort r false ∧ s.updState ≠ 1 ∧ s.updState ≠ 2
      ∧ (s.updState ≠ 0 ∨ r.replayed = false))
  ∧ (∃ (s : State) (c : Fin 16) (host : Option (List Byte)) (r : CmdRun) (x : State) (y : State) (bs : List Byte),
      s.carries c .fwRules r false ∧ r.replayed = false
      ∧ s.fwFetch (fld (r.arg 0) 47 0) (16 * fld (r.arg 1) 13 8) host = (x, some bs)
      ∧ x.fwWrites (fwRuleWrites (fld (r.arg 1) 5 0) (bytesWords (2 * fld (r.arg 1) 13 8) bs) ++ [{ a := .secure, r := R.FW_CTRL, v := word (2 * fld (r.arg 1) 33 33 + fld (r.arg 1) 32 32) }]) = (y, none)
      ∧ (y.cchan c).run = some r)
  ∧ (∃ (s : State) (c : Fin 16) (host : Option (List Byte)) (r : CmdRun), s.carries c .fwRules r true ∧ s.fenceDone = true)
  ∧ (∃ (s : State) (c : Fin 16) (host : Option (List Byte)) (r : CmdRun), s.carries c .fwRules r true ∧ s.fenceDone = false)
  ∧ (∃ (s : State) (c : Fin 16) (ok : Bool) (r : CmdRun), s.carries c .sigPolicy r false ∧ ok = true ∧ r.replayed = false)
  ∧ (∃ (s : State) (c : Fin 16) (ok : Bool) (r : CmdRun), s.carries c .sigPolicy r false ∧ ok = false ∧ r.replayed = false)
  ∧ (∃ (s : State) (c : Fin 16) (ok : Bool) (host : Option (List Byte)) (r : CmdRun) (x : State) (bs : List Byte),
      s.carries c .opkeySet r false ∧ ok = true ∧ r.replayed = false ∧ s.fwFetch (fld (r.arg 0) 47 0) 104 host = (x, some bs)
      ∧ (x.cchan c).run = some r ∧ 1 ≤ fld (r.arg 1) 7 0 ∧ fld (r.arg 1) 7 0 ≤ 15
      ∧ ((bs.drop 97).any fun b => b != 0) = false ∧ (bs.getD 96 0).toNat < 16
      ∧ onCurve (beNat (bs.take 48)) (beNat ((bs.drop 48).take 48)) = true)
  ∧ (∃ (s : State) (c : Fin 16) (ok : Bool) (host : Option (List Byte)) (r : CmdRun) (x : State) (bs : List Byte),
      s.carries c .opkeySet r false ∧ ok = false ∧ r.replayed = false
      ∧ s.fwFetch (fld (r.arg 0) 47 0) 104 host = (x, some bs) ∧ (x.cchan c).run = some r ∧ 1 ≤ fld (r.arg 1) 7 0
      ∧ fld (r.arg 1) 7 0 ≤ 15 ∧ ((bs.drop 97).any fun b => b != 0) = false ∧ (bs.getD 96 0).toNat < 16
      ∧ onCurve (beNat (bs.take 48)) (beNat ((bs.drop 48).take 48)) = true)
  ∧ (∃ (s : State) (c : Fin 16) (ok : Bool) (host : Option (List Byte)) (r : CmdRun) (x : State) (bs : List Byte),
      s.carries c .opkeySet r false ∧ s.fwFetch (fld (r.arg 0) 47 0) 104 host = (x, some bs) ∧ (x.cchan c).run = some r
      ∧ (fld (r.arg 1) 7 0 = 0 ∨ 15 < fld (r.arg 1) 7 0))
  ∧ (∃ (s : State) (c : Fin 16) (ok : Bool) (host : Option (List Byte)) (r : CmdRun) (x : State) (bs : List Byte),
      s.carries c .opkeySet r false ∧ s.fwFetch (fld (r.arg 0) 47 0) 104 host = (x, some bs) ∧ (x.cchan c).run = some r
      ∧ 1 ≤ fld (r.arg 1) 7 0 ∧ fld (r.arg 1) 7 0 ≤ 15
      ∧ (((bs.drop 97).any fun b => b != 0) = true ∨ 16 ≤ (bs.getD 96 0).toNat))
  ∧ (∃ (s : State) (c : Fin 16) (ok : Bool) (host : Option (List Byte)) (r : CmdRun) (x : State) (bs : List Byte),
      s.carries c .opkeySet r false ∧ s.fwFetch (fld (r.arg 0) 47 0) 104 host = (x, some bs) ∧ (x.cchan c).run = some r
      ∧ 1 ≤ fld (r.arg 1) 7 0 ∧ fld (r.arg 1) 7 0 ≤ 15 ∧ ((bs.drop 97).any fun b => b != 0) = false
      ∧ (bs.getD 96 0).toNat < 16 ∧ onCurve (beNat (bs.take 48)) (beNat ((bs.drop 48).take 48)) = false)
  ∧ (∃ (s : State) (c : Fin 16) (ok : Bool) (r : CmdRun) (y : State), s.carries c .keyRevoke r false ∧ ok = true
      ∧ s.nv.otp.revoked.getLsbD (fld (r.arg 0) 7 0) = false
      ∧ y = { s with nv := { s.nv with otp := { s.nv.otp with revoked := s.nv.otp.revoked ||| BitVec.ofNat 8 (2 ^ fld (r.arg 0) 7 0) } } }) :=
  ⟨⟨chanOpen (cmdOf 0x606 []), 3, cmdOf 0x606 [], by decide +kernel⟩,
   ⟨chanAt (cmdOf 0x700 [0x8001000000, 0x100000101]), 3, none, cmdOf 0x700 [0x8001000000, 0x100000101],
       chanAt (cmdOf 0x700 [0x8001000000, 0x100000101]),
       ((chanAt (cmdOf 0x700 [0x8001000000, 0x100000101])).fwWrites ([{ a := .secure, r := R.FW_RULE_B, k := 1, v := 0 }, { a := .secure, r := R.FW_RULE_A, k := 1, v := 0 }, { a := .secure, r := R.FW_CTRL, v := 1 }])).1,
       List.replicate 16 0, by decide +kernel⟩,
   ⟨chanOpen (cmdOf 0x700 [0, 0] false true), 3, none, cmdOf 0x700 [0, 0] false true, by decide +kernel⟩,
   ⟨{ chanOpen (cmdOf 0x700 [0, 0] false true) with regs := [(R.CQ_CH.key 0 3, 0x8000600700000000), (R.FW_GEN.key 0, 1)], xbar := { next := 5, txns := [(4, some { xfer with gen := some 0 })] } },
       3, none, cmdOf 0x700 [0, 0] false true, by decide +kernel⟩,
   ⟨chanOpen (cmdOf 0x701 [1]), 3, true, cmdOf 0x701 [1], by decide +kernel⟩,
   ⟨chanOpen (cmdOf 0x701 [1]), 3, false, cmdOf 0x701 [1], by decide +kernel⟩,
   ⟨keyAt, 3, true, none, keyRun, keyAt, keyBytes, by decide +kernel⟩,
   ⟨keyAt, 3, false, none, keyRun, keyAt, keyBytes, by decide +kernel⟩,
   ⟨{ chanOpen (cmdOf 0x702 [0x8001000000, 16]) with xbar := { sram := Memory.write [] 0 (List.replicate 104 0) } }, 3,
       true, none, cmdOf 0x702 [0x8001000000, 16],
       { chanOpen (cmdOf 0x702 [0x8001000000, 16]) with xbar := { sram := Memory.write [] 0 (List.replicate 104 0) } },
       List.replicate 104 0, by decide +kernel⟩,
   ⟨{ chanOpen (cmdOf 0x702 [0x8001000000, 15]) with xbar := { sram := Memory.write [] 0 (List.replicate 96 0 ++ [16, 0, 0, 0, 0, 0, 0, 0]) } },
       3, true, none, cmdOf 0x702 [0x8001000000, 15],
       { chanOpen (cmdOf 0x702 [0x8001000000, 15]) with xbar := { sram := Memory.write [] 0 (List.replicate 96 0 ++ [16, 0, 0, 0, 0, 0, 0, 0]) } },
       List.replicate 96 0 ++ [16, 0, 0, 0, 0, 0, 0, 0], by decide +kernel⟩,
   ⟨{ chanOpen (cmdOf 0x702 [0x8001000000, 15]) with xbar := { sram := Memory.write [] 0 (List.replicate 104 0) } }, 3,
       true, none, cmdOf 0x702 [0x8001000000, 15],
       { chanOpen (cmdOf 0x702 [0x8001000000, 15]) with xbar := { sram := Memory.write [] 0 (List.replicate 104 0) } },
       List.replicate 104 0, by decide +kernel⟩,
   ⟨chanOpen (cmdOf 0x703 [7]), 3, true, cmdOf 0x703 [7], _,
       (by first | decide +kernel | rfl), (by first | decide +kernel | rfl), (by first | decide +kernel | rfl), rfl⟩⟩

/-- States and operands that meet the hypotheses of further clauses of `Obligations.UpdateAndSecurityCommands`. -/
theorem witness_UpdateAndSecurityCommands_4 :
  (∃ (s : State) (c : Fin 16) (ok : Bool) (r : CmdRun), s.carries c .keyRevoke r false ∧ ok = false
      ∧ s.nv.otp.revoked.getLsbD (fld (r.arg 0) 7 0) = false)
  ∧ (∃ (s : State) (c : Fin 16) (ok : Bool) (r : CmdRun), s.carries c .keyRevoke r false
      ∧ s.nv.otp.revoked.getLsbD (fld (r.arg 0) 7 0) = true)
  ∧ (∃ (s : State) (c : Fin 16) (r : CmdRun) (x : State), s.carries c .tamperCfg r false
      ∧ s.fwWrite { a := .secure, r := R.TMP_CFG, v := r.arg 0 } = (x, none))
  ∧ (∃ (s : State) (c : Fin 16) (r : CmdRun) (x : State) (z : State) (j : Reject), s.carries c .tamperCfg r false
      ∧ s.fwWrite { a := .secure, r := R.TMP_CFG, v := r.arg 0 } = (x, some j) ∧ z = s.recordRejects [j]) :=
  ⟨⟨chanOpen (cmdOf 0x703 [7]), 3, false, cmdOf 0x703 [7], by decide +kernel⟩,
   ⟨{ chanOpen (cmdOf 0x703 [7]) with nv := { otp := { revoked := 0x80 } } }, 3, true, cmdOf 0x703 [7],
       by decide +kernel⟩,
   ⟨chanOpen (cmdOf 0x704 [0]), 3, cmdOf 0x704 [0],
       ((chanOpen (cmdOf 0x704 [0])).fwWrite { a := .secure, r := R.TMP_CFG, v := 0 }).1, by decide +kernel⟩,
   ⟨chanOpen (cmdOf 0x704 [0x8000000000000000]), 3, cmdOf 0x704 [0x8000000000000000],
       chanOpen (cmdOf 0x704 [0x8000000000000000]), _,
       { agent := 0, page := R.TMP_CFG.page, bank := 0, off := R.TMP_CFG.off, code := .resv },
       (by first | decide +kernel | rfl), (by first | decide +kernel | rfl), rfl⟩⟩

/-- States and operands that meet the hypotheses of the first clauses of `Obligations.ChannelsTakeCheckAndPost`. -/
theorem witness_ChannelsTakeCheckAndPost :
  (∃ (s : State) (i : Instr) (c : Fin 16) (host : Option (List Byte)) (ok : Bool) (y : Yel),
      (i, y) ∈ ([(.nop c, .nop), (.devInfo c, .devInfo), (.status c, .status), (.timeRead c, .timeRead), (.sessionOpen c, .sessionOpen), (.sessionAuth c host, .sessionAuth), (.sessionClose c, .sessionClose), (.notifySet c, .notifySet), (.pwrRun c, .pwrRun), (.pwrIdle c, .pwrIdle), (.pwrStandby c, .pwrStandby), (.imageLoad c host, .imageLoad), (.imageArm c, .imageArm), (.imageHalt c, .imageHalt), (.imageCancel c, .imageCancel), (.imageClear c, .imageClear), (.delayModels c host, .delayModels), (.gains c host, .gains), (.window c host, .window), (.weightSel c, .weightSel), (.destTable c host, .destTable), (.timeStepArm c, .timeStepArm), (.refSelect c, .refSelect), (.tb3Set c, .tb3Set), (.heapRetrain c, .heapRetrain), (.linkRetrain c, .linkRetrain), (.panPreempt c, .panPreempt), (.panResume c, .panResume), (.checkpoint c, .checkpoint), (.updateBegin ⟨c, ok⟩, .updateBegin), (.updateChunk ⟨c, ok⟩ host, .updateChunk), (.updateEnd ⟨c, ok⟩, .updateEnd), (.updateActivate ⟨c, ok⟩, .updateActivate), (.updateConfirm ⟨c, ok⟩, .updateConfirm), (.updateStatus c, .updateStatus), (.updateAbort c, .updateAbort), (.fwRules c host, .fwRules), (.sigPolicy ⟨c, ok⟩, .sigPolicy), (.opkeySet ⟨c, ok⟩ host, .opkeySet), (.keyRevoke ⟨c, ok⟩, .keyRevoke), (.tamperCfg c, .tamperCfg)] : List (Instr × Yel))
      ∧ s.runs c y = false)
  ∧ (∃ (s : State) (i : Instr) (c : Fin 16) (host : Option (List Byte)) (ok : Bool) (y : Yel) (r : CmdRun),
      (i, y) ∈ ([(.nop c, .nop), (.devInfo c, .devInfo), (.status c, .status), (.timeRead c, .timeRead), (.sessionOpen c, .sessionOpen), (.sessionAuth c host, .sessionAuth), (.sessionClose c, .sessionClose), (.notifySet c, .notifySet), (.pwrRun c, .pwrRun), (.pwrIdle c, .pwrIdle), (.pwrStandby c, .pwrStandby), (.imageLoad c host, .imageLoad), (.imageArm c, .imageArm), (.imageHalt c, .imageHalt), (.imageCancel c, .imageCancel), (.imageClear c, .imageClear), (.delayModels c host, .delayModels), (.gains c host, .gains), (.window c host, .window), (.weightSel c, .weightSel), (.destTable c host, .destTable), (.timeStepArm c, .timeStepArm), (.refSelect c, .refSelect), (.tb3Set c, .tb3Set), (.heapRetrain c, .heapRetrain), (.linkRetrain c, .linkRetrain), (.panPreempt c, .panPreempt), (.panResume c, .panResume), (.checkpoint c, .checkpoint), (.updateBegin ⟨c, ok⟩, .updateBegin), (.updateChunk ⟨c, ok⟩ host, .updateChunk), (.updateEnd ⟨c, ok⟩, .updateEnd), (.updateActivate ⟨c, ok⟩, .updateActivate), (.updateConfirm ⟨c, ok⟩, .updateConfirm), (.updateStatus c, .updateStatus), (.updateAbort c, .updateAbort), (.fwRules c host, .fwRules), (.sigPolicy ⟨c, ok⟩, .sigPolicy), (.opkeySet ⟨c, ok⟩ host, .opkeySet), (.keyRevoke ⟨c, ok⟩, .keyRevoke), (.tamperCfg c, .tamperCfg)] : List (Instr × Yel))
      ∧ s.runs c y = true ∧ s.tam.hold = true ∧ y.inHold = false ∧ (s.cchan c).run = some r)
  ∧ (∃ (s : State) (c : Fin 16) (host : Option (List Byte)) (r : CmdRun) (x : State) (u : State) (bs : List Byte),
      s.mayTake c = true ∧ s.fwFetch ((s.ring (s.cqCmd c)).slot (s.ring (s.cqCmd c)).head) 64 host = (x, some bs)
      ∧ r = { ring := s.cqCmd c, idx := (s.ring (s.cqCmd c)).head, words := bytesWords 8 bs, taken := s.time.total, replayed := (s.cchan c).replay }
      ∧ u = ((x.served16 c).setCchan c { x.cchan c with run := some r, replay := false, unseen := false }).touchSession c r
      ∧ u.journaled c r = none ∧ u.preCheck c r = none)
  ∧ (∃ (s : State) (c : Fin 16) (host : Option (List Byte)) (r : CmdRun) (x : State) (u : State) (bs : List Byte) (k : Code),
      s.mayTake c = true ∧ s.fwFetch ((s.ring (s.cqCmd c)).slot (s.ring (s.cqCmd c)).head) 64 host = (x, some bs)
      ∧ r = { ring := s.cqCmd c, idx := (s.ring (s.cqCmd c)).head, words := bytesWords 8 bs, taken := s.time.total, replayed := (s.cchan c).replay }
      ∧ u = ((x.served16 c).setCchan c { x.cchan c with run := some r, replay := false, unseen := false }).touchSession c r
      ∧ u.journaled c r = none ∧ u.preCheck c r = some k)
  ∧ (∃ (s : State) (c : Fin 16) (host : Option (List Byte)) (r : CmdRun) (x : State) (u : State) (bs : List Byte) (k : Code),
      s.mayTake c = true ∧ s.fwFetch ((s.ring (s.cqCmd c)).slot (s.ring (s.cqCmd c)).head) 64 host = (x, some bs)
      ∧ r = { ring := s.cqCmd c, idx := (s.ring (s.cqCmd c)).head, words := bytesWords 8 bs, taken := s.time.total, replayed := (s.cchan c).replay }
      ∧ u = ((x.served16 c).setCchan c { x.cchan c with run := some r, replay := false, unseen := false }).touchSession c r
      ∧ u.journaled c r = none ∧ u.preCheck c r = some k)
  ∧ (∃ (s : State) (c : Fin 16) (host : Option (List Byte)) (r : CmdRun) (x : State) (u : State) (bs : List Byte) (code : Nat) (rs : List Word),
      s.mayTake c = true ∧ s.fwFetch ((s.ring (s.cqCmd c)).slot (s.ring (s.cqCmd c)).head) 64 host = (x, some bs)
      ∧ r = { ring := s.cqCmd c, idx := (s.ring (s.cqCmd c)).head, words := bytesWords 8 bs, taken := s.time.total, replayed := (s.cchan c).replay }
      ∧ u = ((x.served16 c).setCchan c { x.cchan c with run := some r, replay := false, unseen := false }).touchSession c r
      ∧ u.journaled c r = some (code, rs) ∧ r.opcode ≠ 0x0603)
  ∧ (∃ (s : State) (c : Fin 16) (host : Option (List Byte)) (x : State), s.mayTake c = true
      ∧ s.fwFetch ((s.ring (s.cqCmd c)).slot (s.ring (s.cqCmd c)).head) 64 host = (x, none))
  ∧ (∃ (s : State) (c : Fin 16) (host : Option (List Byte)), s.mayTake c = false)
  ∧ (∃ (s : State) (c : Fin 16) (host : Option (List Byte)) (r : CmdRun) (x : State) (u : State) (bs : List Byte),
      s.mayRetry c = true ∧ s.fwFetch ((s.ring (s.cqCmd c)).slot (s.ring (s.cqCmd c)).head) 64 host = (x, some bs)
      ∧ r = { ring := s.cqCmd c, idx := (s.ring (s.cqCmd c)).head, words := bytesWords 8 bs, taken := s.time.total, replayed := (s.cchan c).replay }
      ∧ u = ((x.served16 c).setCchan c { x.cchan c with run := some r, replay := false, unseen := false }).touchSession c r
      ∧ u.journaled c r = none ∧ u.preCheck c r = none)
  ∧ (∃ (s : State) (c : Fin 16) (host : Option (List Byte)) (r : CmdRun) (x : State) (u : State) (bs : List Byte) (k : Code),
      s.mayRetry c = true ∧ s.fwFetch ((s.ring (s.cqCmd c)).slot (s.ring (s.cqCmd c)).head) 64 host = (x, some bs)
      ∧ r = { ring := s.cqCmd c, idx := (s.ring (s.cqCmd c)).head, words := bytesWords 8 bs, taken := s.time.total, replayed := (s.cchan c).replay }
      ∧ u = ((x.served16 c).setCchan c { x.cchan c with run := some r, replay := false, unseen := false }).touchSession c r
      ∧ u.journaled c r = none ∧ u.preCheck c r = some k) :=
  ⟨⟨up, .pwrRun 3, 3, none, true, .pwrRun, by decide +kernel⟩,
   ⟨{ chanOpen (cmdOf 0x100 []) with tam := { hold := true } }, .pwrRun 3, 3, none, true, .pwrRun, cmdOf 0x100 [],
       by decide +kernel⟩,
   ⟨takeAt 0x605 5, 3, none, _, takeAt 0x605 5, _, takenBytes 0x605 5,
       (by first | decide +kernel | rfl), (by first | decide +kernel | rfl), rfl, rfl, (by first | decide +kernel | rfl), (by first | decide +kernel | rfl)⟩,
   ⟨takeAt 0x700F 5, 3, none, _, takeAt 0x700F 5, _, takenBytes 0x700F 5, .opcode,
       (by first | decide +kernel | rfl), (by first | decide +kernel | rfl), rfl, rfl, (by first | decide +kernel | rfl), (by first | decide +kernel | rfl)⟩,
   ⟨takeAt 0x605 6, 3, none, _, takeAt 0x605 6, _, takenBytes 0x605 6, .auth,
       (by first | decide +kernel | rfl), (by first | decide +kernel | rfl), rfl, rfl, (by first | decide +kernel | rfl), (by first | decide +kernel | rfl)⟩,
   ⟨replayAt, 3, none, _, replayAt, _, takenBytes 0x605 5, 0, [7],
       (by first | decide +kernel | rfl), (by first | decide +kernel | rfl), rfl, rfl, (by first | decide +kernel | rfl), (by first | decide +kernel | rfl)⟩,
   ⟨{ takeAt 0x605 5 with net := { ring := [(6, { d0 := 0x1011004000000000, d1 := 0x000000090000000A })] } }, 3, none,
       (({ takeAt 0x605 5 with net := { ring := [(6, { d0 := 0x1011004000000000, d1 := 0x000000090000000A })] } } : State).fwFetch 0x4000000040 64 none).1,
       by decide +kernel⟩,
   ⟨up, 3, none, by decide +kernel⟩,
   ⟨{ takeAt 0x605 5 with cmds := { (takeAt 0x605 5).cmds with chan := [(3, { (takeAt 0x605 5).cchan 3 with unseen := true })] } },
       3, none, _,
       { takeAt 0x605 5 with cmds := { (takeAt 0x605 5).cmds with chan := [(3, { (takeAt 0x605 5).cchan 3 with unseen := true })] } },
       _, takenBytes 0x605 5,
       (by first | decide +kernel | rfl), (by first | decide +kernel | rfl), rfl, rfl, (by first | decide +kernel | rfl), (by first | decide +kernel | rfl)⟩,
   ⟨{ takeAt 0x700F 5 with cmds := { (takeAt 0x700F 5).cmds with chan := [(3, { (takeAt 0x700F 5).cchan 3 with unseen := true })] } },
       3, none, _,
       { takeAt 0x700F 5 with cmds := { (takeAt 0x700F 5).cmds with chan := [(3, { (takeAt 0x700F 5).cchan 3 with unseen := true })] } },
       _, takenBytes 0x700F 5, .opcode,
       (by first | decide +kernel | rfl), (by first | decide +kernel | rfl), rfl, rfl, (by first | decide +kernel | rfl), (by first | decide +kernel | rfl)⟩⟩

/-- States and operands that meet the hypotheses of further clauses of `Obligations.ChannelsTakeCheckAndPost`. -/
theorem witness_ChannelsTakeCheckAndPost_2 :
  (∃ (s : State) (c : Fin 16) (host : Option (List Byte)) (r : CmdRun) (x : State) (u : State) (bs : List Byte) (k : Code),
      s.mayRetry c = true ∧ s.fwFetch ((s.ring (s.cqCmd c)).slot (s.ring (s.cqCmd c)).head) 64 host = (x, some bs)
      ∧ r = { ring := s.cqCmd c, idx := (s.ring (s.cqCmd c)).head, words := bytesWords 8 bs, taken := s.time.total, replayed := (s.cchan c).replay }
      ∧ u = ((x.served16 c).setCchan c { x.cchan c with run := some r, replay := false, unseen := false }).touchSession c r
      ∧ u.journaled c r = none ∧ u.preCheck c r = some k)
  ∧ (∃ (s : State) (c : Fin 16) (host : Option (List Byte)) (r : CmdRun) (x : State) (u : State) (bs : List Byte) (code : Nat) (rs : List Word),
      s.mayRetry c = true ∧ s.fwFetch ((s.ring (s.cqCmd c)).slot (s.ring (s.cqCmd c)).head) 64 host = (x, some bs)
      ∧ r = { ring := s.cqCmd c, idx := (s.ring (s.cqCmd c)).head, words := bytesWords 8 bs, taken := s.time.total, replayed := (s.cchan c).replay }
      ∧ u = ((x.served16 c).setCchan c { x.cchan c with run := some r, replay := false, unseen := false }).touchSession c r
      ∧ u.journaled c r = some (code, rs) ∧ r.opcode ≠ 0x0603)
  ∧ (∃ (s : State) (c : Fin 16) (host : Option (List Byte)) (x : State), s.mayRetry c = true
      ∧ s.fwFetch ((s.ring (s.cqCmd c)).slot (s.ring (s.cqCmd c)).head) 64 host = (x, none))
  ∧ (∃ (s : State) (c : Fin 16) (host : Option (List Byte)), s.mayRetry c = false)
  ∧ (∃ (s : State) (c : Fin 16) (r : CmdRun) (code : Nat) (rs : List Word), (s.cchan c).run = some r ∧ r.result = some (code, rs)
      ∧ s.cqOn c = true ∧ s.cqRoom c = true ∧ r.opcode ≠ 0x0603)
  ∧ (∃ (s : State) (c : Fin 16) (r : CmdRun), (s.cchan c).run = some r ∧ r.result.isSome = true ∧ s.cqOn c = false)
  ∧ (∃ (s : State) (c : Fin 16) (r : CmdRun), (s.cchan c).run = some r ∧ r.result.isSome = true ∧ s.cqOn c = true
      ∧ s.cqFull c = true ∧ r.full = false)
  ∧ (∃ (s : State) (c : Fin 16),
      ((s.cchan c).run = none ∨ ((s.cchan c).run.any fun r => r.result.isNone) = true ∨ (s.cqOn c = true ∧ s.cqRoom c = false ∧ s.cqFull c = false)))
  ∧ (∃ (s : State) (c : Fin 16),
      ((s.cchan c).run = none ∨ ((s.cchan c).run.any fun r => r.result.isNone) = true ∨ (s.cqOn c = true ∧ s.cqRoom c = false ∧ s.cqFull c = false)))
  ∧ (∃ (s : State) (c : Fin 16) (r : CmdRun) (row : YelRow) (x : State), (s.cchan c).run = some r ∧ r.row = some row
      ∧ row.cmd.waits = true ∧ r.result = none ∧ s.supervised = true ∧ x = s.waitTo (s.deadline r row)
      ∧ (x.cchan c).run = some r)
  ∧ (∃ (s : State) (c : Fin 16),
      (s.supervised = false ∨ ((s.cchan c).run.any fun r => r.result.isNone && r.row.any fun w => w.cmd.waits) = false))
  ∧ (∃ (s : State) (c : Fin 16) (z : Session) (x : State), pget s.cmds.session c = some z ∧ s.sessionBusy c = false
      ∧ x = s.waitTo (z.last + s.rdf R.SESSION_TMO 0 15 0 * sclkSec)) :=
  ⟨⟨{ takeAt 0x605 6 with cmds := { (takeAt 0x605 6).cmds with chan := [(3, { (takeAt 0x605 6).cchan 3 with unseen := true })] } },
       3, none, _,
       { takeAt 0x605 6 with cmds := { (takeAt 0x605 6).cmds with chan := [(3, { (takeAt 0x605 6).cchan 3 with unseen := true })] } },
       _, takenBytes 0x605 6, .auth,
       (by first | decide +kernel | rfl), (by first | decide +kernel | rfl), rfl, rfl, (by first | decide +kernel | rfl), (by first | decide +kernel | rfl)⟩,
   ⟨{ replayAt with cmds := { (replayAt).cmds with chan := [(3, { (replayAt).cchan 3 with unseen := true })] } }, 3,
       none, _,
       { replayAt with cmds := { (replayAt).cmds with chan := [(3, { (replayAt).cchan 3 with unseen := true })] } },
       _, takenBytes 0x605 5, 0, [7],
       (by first | decide +kernel | rfl), (by first | decide +kernel | rfl), rfl, rfl, (by first | decide +kernel | rfl), (by first | decide +kernel | rfl)⟩,
   ⟨{ ({ takeAt 0x605 5 with net := { ring := [(6, { d0 := 0x1011004000000000, d1 := 0x000000090000000A })] } } : State) with cmds := { (({ takeAt 0x605 5 with net := { ring := [(6, { d0 := 0x1011004000000000, d1 := 0x000000090000000A })] } } : State)).cmds with chan := [(3, { (({ takeAt 0x605 5 with net := { ring := [(6, { d0 := 0x1011004000000000, d1 := 0x000000090000000A })] } } : State)).cchan 3 with unseen := true })] } },
       3, none,
       (({ ({ takeAt 0x605 5 with net := { ring := [(6, { d0 := 0x1011004000000000, d1 := 0x000000090000000A })] } } : State) with cmds := { (({ takeAt 0x605 5 with net := { ring := [(6, { d0 := 0x1011004000000000, d1 := 0x000000090000000A })] } } : State)).cmds with chan := [(3, { (({ takeAt 0x605 5 with net := { ring := [(6, { d0 := 0x1011004000000000, d1 := 0x000000090000000A })] } } : State)).cchan 3 with unseen := true })] } } : State).fwFetch 0x4000000040 64 none).1,
       by decide +kernel⟩,
   ⟨up, 3, none, by decide +kernel⟩,
   ⟨chanOpen heldRun, 3, heldRun, 0x21, [1, 2, 3], by decide +kernel⟩,
   ⟨{ chanOpen heldRun with cmds := { chan := [(4, { run := some heldRun })], session := [(4, some authOf)] } }, 4,
       heldRun, by decide +kernel⟩,
   ⟨{ chanOpen heldRun with net := { ring := [(6, { d0 := 0x1011000000020000, d1 := 0x000000090000000A }), (7, { d0 := 0x2011000000030000, d1 := 4, alloc := 4 })] } },
       3, heldRun, by decide +kernel⟩,
   ⟨chanAt heldRun, 3, by decide +kernel⟩,
   ⟨chanOpen (cmdOf 0 []), 3, by decide +kernel⟩,
   ⟨chanOpen (cmdOf 0x100 [] false true), 3, cmdOf 0x100 [] false true, { op := 0x100, cmd := .pwrRun, bound := 2000 },
       _,
       (by first | decide +kernel | rfl), (by first | decide +kernel | rfl), (by first | decide +kernel | rfl), (by first | decide +kernel | rfl), (by first | decide +kernel | rfl), rfl, (by first | decide +kernel | rfl)⟩,
   ⟨chanOpen (cmdOf 0 []), 3, by decide +kernel⟩,
   ⟨{ early with cmds := { session := [(3, some authOf)] } }, 3, authOf, _,
       (by first | decide +kernel | rfl), (by first | decide +kernel | rfl), rfl⟩⟩

/-- States and operands that meet the hypotheses of further clauses of `Obligations.ChannelsTakeCheckAndPost`. -/
theorem witness_ChannelsTakeCheckAndPost_3 :
  (∃ (s : State) (c : Fin 16), (pget s.cmds.session c = none ∨ s.sessionBusy c = true))
  ∧ (∃ (s : State) (c : Fin 16) (z : Session) (x : State), pget s.cmds.session c = some z ∧ z.challenge.isSome = true
      ∧ x = s.waitTo (z.since + 10 * sclkSec))
  ∧ (∃ (s : State) (c : Fin 16), ((pget s.cmds.session c).any fun z => z.challenge.isSome) = false)
  ∧ (∃ (s : State) (c : Fin 16) (n : Nat) (x : State), (s.cchan c).lockedAt = some n ∧ x = s.waitTo (n + 60 * sclkSec))
  ∧ (∃ (s : State) (c : Fin 16), (s.cchan c).lockedAt = none)
  ∧ (∃ (s : State) (a : Agent) (k : Fin 16) (v : Word), s.accepts a 0x0E (R.CQ_CH.off + R.CQ_CH.stride * k) v = true
      ∧ bit v 63 = true)
  ∧ (∃ (s : State) (a : Agent) (k : Fin 16) (v : Word), s.accepts a 0x0E (R.CQ_CH.off + R.CQ_CH.stride * k) v = true
      ∧ s.cqOn k = true ∧ bit v 63 = false ∧ (s.cchan k).run = none) :=
  ⟨⟨{ chanOpen (cmdOf 0x605 []) with cmds := { chan := [(3, { run := some (cmdOf 0x605 []) })], session := [(3, some { authOf with auth := true, challenge := none })] } },
       3, by decide +kernel⟩,
   ⟨{ early with cmds := { session := [(3, some authOf)] } }, 3, authOf, _,
       (by first | decide +kernel | rfl), (by first | decide +kernel | rfl), rfl⟩,
   ⟨up, 3, by decide +kernel⟩,
   ⟨{ early with cmds := { chan := [(3, { lockedAt := some 5 })] } }, 3, 5, _, (by first | decide +kernel | rfl), rfl⟩,
   ⟨up, 3, by decide +kernel⟩,
   ⟨{ up with net := { ring := [(6, { d0 := 0x1011000000020000 }), (7, { d0 := 0x2011000000030000 })] } }, .normal, 3,
       0x8000600700000000, by decide +kernel⟩,
   ⟨{ up with regs := [(R.CQ_CH.key 0 3, 0x8000600700000000)], cmds := { session := [(3, some authOf)] } }, .normal, 3,
       0x0000600700000000, by decide +kernel⟩⟩

/-- States and operands that meet the hypotheses of the first clauses of `Obligations.SupervisorsFailOverAndRestart`. -/
theorem witness_SupervisorsFailOverAndRestart :
  (∃ (s : State) (a : Agent) (v : Word), s.accepts a 0x08 R.WD_FEED.off v = true)
  ∧ (∃ (s : State) (n : Nat) (y : State), s.sup.wdAt = some n ∧ s.supervised = true ∧ y = s.waitTo (n + 75000000))
  ∧ (∃ (s : State), (s.sup.wdAt = none ∨ s.supervised = false))
  ∧ (∃ (s : State), s.supervised = true)
  ∧ (∃ (s : State), s.supervised = false)
  ∧ (∃ (s : State) (k : Nat) (i : Fin 2) (y : State), s.sup.failCause = some k ∧ s.svRole = some i
      ∧ y = (if k = 2 then s.setSv i .off else s.svFail i))
  ∧ (∃ (s : State) (k : Nat) (i : Fin 2) (y : State), s.sup.failCause = some k ∧ s.svRole = some i
      ∧ y = (if k = 2 then s.setSv i .off else s.svFail i))
  ∧ (∃ (s : State) (n : Nat), s.sup.failCause = some 1 ∧ s.svRole = none ∧ s.sup.restartAt = some n)
  ∧ (∃ (s : State) (k : Nat), s.sup.failCause = some k ∧ s.svRole = none ∧ (k ≠ 1 ∨ s.sup.restartAt = none))
  ∧ (∃ (s : State), s.sup.failCause = none)
  ∧ (∃ (s : State) (i : Nat) (y : State), s.svIn .standby = some i ∧ s.sup.takeoverDue = true ∧ s.pwr.coreUp = true
      ∧ y = s.setSv i .starting)
  ∧ (∃ (s : State), (s.svIn .standby = none ∨ s.sup.takeoverDue = false ∨ s.pwr.coreUp = false)) :=
  ⟨⟨up, .normal, 0xFEED, by decide +kernel⟩,
   ⟨{ up with sup := { up.sup with wdAt := some 5 } }, 5, _,
       (by first | decide +kernel | rfl), (by first | decide +kernel | rfl), rfl⟩,
   ⟨up, by decide +kernel⟩,
   ⟨up, by decide +kernel⟩,
   ⟨{ up with sup := {} }, by decide +kernel⟩,
   ⟨{ up with sup := { up.sup with failCause := some 1 } }, 1, 0, _,
       (by first | decide +kernel | rfl), (by first | decide +kernel | rfl), rfl⟩,
   ⟨{ up with sup := { up.sup with failCause := some 2 } }, 2, 0, _,
       (by first | decide +kernel | rfl), (by first | decide +kernel | rfl), rfl⟩,
   ⟨{ up with sup := { sv0 := .failed, sv1 := .standby, failCause := some 1, restartAt := some 5 } }, 5,
       by decide +kernel⟩,
   ⟨{ up with sup := { sv0 := .failed, sv1 := .standby, failCause := some 3 } }, 3, by decide +kernel⟩,
   ⟨up, by decide +kernel⟩,
   ⟨{ up with sup := { sv0 := .failed, sv1 := .standby, takeoverDue := true } }, 1, _,
       (by first | decide +kernel | rfl), (by first | decide +kernel | rfl), (by first | decide +kernel | rfl), rfl⟩,
   ⟨up, by decide +kernel⟩⟩

/-- States and operands that meet the hypotheses of further clauses of `Obligations.SupervisorsFailOverAndRestart`. -/
theorem witness_SupervisorsFailOverAndRestart_2 :
  (∃ (s : State) (ok : Bool) (corrected : BitVec 16) (uncorr : Bool) (i : Nat) (y : State) (z : State) (u : State), ok = true
      ∧ s.svIn .starting = some i ∧ s.sup.romDone = false
      ∧ y = s.wr R.NVM_ERR 0 (satFld (s.rd R.NVM_ERR) 63 48 corrected.toNat)
      ∧ z = (if uncorr then (y.countf R.NVM_ERR 0 47 32).raise 0x0A 0 else y) ∧ s.tam.hold = false ∧ u = z.bootFlag uncorr)
  ∧ (∃ (s : State) (ok : Bool) (corrected : BitVec 16) (uncorr : Bool) (i : Nat) (y : State) (z : State) (u : State), ok = true
      ∧ s.svIn .starting = some i ∧ s.sup.romDone = false
      ∧ y = s.wr R.NVM_ERR 0 (satFld (s.rd R.NVM_ERR) 63 48 corrected.toNat)
      ∧ z = (if uncorr then (y.countf R.NVM_ERR 0 47 32).raise 0x0A 0 else y) ∧ s.tam.hold = false ∧ u = z.bootFlag uncorr)
  ∧ (∃ (s : State) (ok : Bool) (corrected : BitVec 16) (uncorr : Bool) (i : Nat) (y : State) (z : State), ok = true
      ∧ s.svIn .starting = some i ∧ s.sup.romDone = false
      ∧ y = s.wr R.NVM_ERR 0 (satFld (s.rd R.NVM_ERR) 63 48 corrected.toNat)
      ∧ z = (if uncorr then (y.countf R.NVM_ERR 0 47 32).raise 0x0A 0 else y) ∧ s.tam.hold = true)
  ∧ (∃ (s : State) (ok : Bool) (corrected : BitVec 16) (uncorr : Bool) (i : Nat) (y : State) (z : State) (u : State), ok = false
      ∧ s.svIn .starting = some i ∧ s.sup.romDone = false
      ∧ y = s.wr R.NVM_ERR 0 (satFld (s.rd R.NVM_ERR) 63 48 corrected.toNat)
      ∧ z = (if uncorr then (y.countf R.NVM_ERR 0 47 32).raise 0x0A 0 else y) ∧ u = (z.svFail i).dropFirmware)
  ∧ (∃ (s : State) (ok : Bool) (corrected : BitVec 16) (uncorr : Bool), (s.svIn .starting = none ∨ s.sup.romDone = true))
  ∧ (∃ (s : State) (ok : Bool) (corrected : BitVec 16) (uncorr : Bool) (i : Nat), ok = true ∧ uncorr = false
      ∧ s.svIn .starting = some i ∧ s.sup.romDone = false ∧ s.sup.ready = false ∧ s.tam.hold = false ∧ s.flag.state = 3
      ∧ (s.sup.bootKind = .failover ∨ s.sup.bootKind = .takeover))
  ∧ (∃ (s : State) (ok : Bool) (corrected : BitVec 16) (uncorr : Bool) (i : Nat), ok = true ∧ uncorr = false
      ∧ s.svIn .starting = some i ∧ s.sup.romDone = false ∧ s.sup.ready = false ∧ s.tam.hold = false ∧ s.flag.state = 4)
  ∧ (∃ (s : State) (ok : Bool) (corrected : BitVec 16) (uncorr : Bool) (i : Nat), ok = true ∧ uncorr = false
      ∧ s.svIn .starting = some i ∧ s.sup.romDone = false ∧ s.sup.ready = false ∧ s.tam.hold = false ∧ s.flag.state = 4)
  ∧ (∃ (s : State) (i : Nat) (y : State) (z : State) (u : State), s.svIn .starting = some i ∧ s.sup.romDone = true
      ∧ y = s.setSv i .active
      ∧ z = { y with sup := { y.sup with wdAt := some s.time.total, recovery := true, ready := false, unsupStart := none, expired := false, limitMet := false, restartAt := none }, cmds := { y.cmds with dark := y.cmds.dark + b2n (s.time.pos != 0) } }
      ∧ u = (if s.tam.hold = true then z else z.takeRole))
  ∧ (∃ (s : State) (i : Nat) (y : State) (z : State) (u : State), s.svIn .starting = some i ∧ s.sup.romDone = true
      ∧ y = s.setSv i .active
      ∧ z = { y with sup := { y.sup with wdAt := some s.time.total, recovery := true, ready := false, unsupStart := none, expired := false, limitMet := false, restartAt := none }, cmds := { y.cmds with dark := y.cmds.dark + b2n (s.time.pos != 0) } }
      ∧ u = (if s.tam.hold = true then z else z.takeRole))
  ∧ (∃ (s : State), (s.svIn .starting = none ∨ s.sup.romDone = false))
  ∧ (∃ (s : State), s.supervised = true ∧ s.sup.ready = false ∧ s.sup.bootKind = .coreStart ∧ s.sup.restartCause = 0
      ∧ s.cmds.kept = [] ∧ ((List.range 16).any fun k => s.cqOn k) = false) :=
  ⟨⟨{ up with sup := { sv0 := .failed, sv1 := .starting } }, true, 3, false, 1, _, _, _,
       (by first | decide +kernel | rfl), (by first | decide +kernel | rfl), (by first | decide +kernel | rfl), rfl, rfl, (by first | decide +kernel | rfl), rfl⟩,
   ⟨{ up with sup := { sv0 := .failed, sv1 := .starting } }, true, 3, true, 1, _, _, _,
       (by first | decide +kernel | rfl), (by first | decide +kernel | rfl), (by first | decide +kernel | rfl), rfl, rfl, (by first | decide +kernel | rfl), rfl⟩,
   ⟨{ up with sup := { sv0 := .failed, sv1 := .starting }, tam := { hold := true } }, true, 3, false, 1, _, _,
       (by first | decide +kernel | rfl), (by first | decide +kernel | rfl), (by first | decide +kernel | rfl), rfl, rfl, (by first | decide +kernel | rfl)⟩,
   ⟨{ up with sup := { sv0 := .failed, sv1 := .starting } }, false, 3, false, 1, _, _, _,
       (by first | decide +kernel | rfl), (by first | decide +kernel | rfl), (by first | decide +kernel | rfl), rfl, rfl, rfl⟩,
   ⟨up, true, 0, false, by decide +kernel⟩,
   ⟨flagAt { up with sup := { sv0 := .failed, sv1 := .starting, bootKind := .failover } } 3, true, 0, false, 1,
       by decide +kernel⟩,
   ⟨flagAt { up with sup := { sv0 := .failed, sv1 := .starting, bootKind := .failover } } 4, true, 0, false, 1,
       by decide +kernel⟩,
   ⟨({ up with sup := { sv0 := .failed, sv1 := .starting, bootKind := .failover } } : State).setFlag { state := 4, boots := 3 },
       true, 0, false, 1, by decide +kernel⟩,
   ⟨{ up with sup := { sv0 := .failed, sv1 := .starting, romDone := true, unsupStart := some 0 }, cmds := { restored := true, mirror := some { seq := 3, chans := [], tmo := 60 } } },
       1, _, _, _, (by first | decide +kernel | rfl), (by first | decide +kernel | rfl), rfl, rfl, rfl⟩,
   ⟨{ up with sup := { sv0 := .failed, sv1 := .starting, romDone := true, unsupStart := some 0 }, tam := { hold := true } },
       1, _, _, _, (by first | decide +kernel | rfl), (by first | decide +kernel | rfl), rfl, rfl, rfl⟩,
   ⟨up, by decide +kernel⟩,
   ⟨early, by decide +kernel⟩⟩

/-- States and operands that meet the hypotheses of further clauses of `Obligations.SupervisorsFailOverAndRestart`. -/
theorem witness_SupervisorsFailOverAndRestart_3 :
  (∃ (s : State) (y : State) (z : State) (u : State), s.supervised = true ∧ s.sup.ready = false
      ∧ y = { s with sup := { s.sup with ready := true, recovery := false } } ∧ z = (y.raise 0x0E 0).postKept.readyNotice
      ∧ u = z.notifyAll 0x8008 [word z.cmds.dark])
  ∧ (∃ (s : State), (s.supervised = false ∨ s.sup.ready = true))
  ∧ (∃ (s : State) (a : Agent) (target : Fin 2), s.accepts a 0x08 R.SV_CMD.off (word (at_ 8 target + 1)) = true
      ∧ s.svFeedOk target = true)
  ∧ (∃ (s : State) (a : Agent) (target : Fin 2), s.accepts a 0x08 R.SV_CMD.off (word (at_ 8 target + 1)) = true
      ∧ s.svFeedOk target = false)
  ∧ (∃ (s : State) (a : Agent), s.accepts a 0x08 R.SV_CMD.off 2 = true ∧ (s.svIn .active).isSome = true)
  ∧ (∃ (s : State) (a : Agent) (i : Nat), s.accepts a 0x08 R.SV_CMD.off 4 = true ∧ s.svIn .active = some i)
  ∧ (∃ (s : State) (n : Nat) (y : State), s.sup.restartAt = some n ∧ s.supervised = false ∧ y = s.waitTo (n + 450000000))
  ∧ (∃ (s : State), (s.sup.restartAt = none ∨ s.supervised = true))
  ∧ (∃ (s : State) (sv : Fin 2) (ok : Bool), ok = true ∧ s.sv sv = .qualifying ∧ s.sup.qualFailover = false
      ∧ s.ckptNewest = none)
  ∧ (∃ (s : State) (sv : Fin 2) (ok : Bool) (n : Nat) (y : State), ok = true ∧ s.sv sv = .qualifying ∧ s.sup.qualFailover = false
      ∧ n = (s.ckptNewest.map fun i => (s.ckptWord i 1).toNat).getD 0 ∧ y = (s.discardOlder sv).setSv sv .standby)
  ∧ (∃ (s : State) (sv : Fin 2) (ok : Bool) (y : State), ok = true ∧ s.sv sv = .qualifying ∧ s.sup.qualFailover = true
      ∧ y = s.setSv sv .starting)
  ∧ (∃ (s : State) (sv : Fin 2) (ok : Bool) (y : State), ok = false ∧ s.sv sv = .qualifying ∧ y = s.svFail sv) :=
  ⟨⟨{ early with sup := { early.sup with bootKind := .failover }, cmds := { kept := [(0x8003, [7])] } }, _, _, _,
       (by first | decide +kernel | rfl), (by first | decide +kernel | rfl), rfl, rfl, rfl⟩,
   ⟨up, by decide +kernel⟩,
   ⟨{ up with sup := { up.sup with sv1 := .failed } }, .secure, 1, by decide +kernel⟩,
   ⟨{ up with sup := { up.sup with sv1 := .failed }, pwr := { up.pwr with feedB := false } }, .secure, 1,
       by decide +kernel⟩,
   ⟨up, .secure, by decide +kernel⟩,
   ⟨up, .secure, 0, by decide +kernel⟩,
   ⟨{ up with sup := { sv0 := .starting, sv1 := .standby, restartAt := some 5 } }, 5, _,
       (by first | decide +kernel | rfl), (by first | decide +kernel | rfl), rfl⟩,
   ⟨up, by decide +kernel⟩,
   ⟨{ up with sup := { up.sup with sv1 := .qualifying } }, 1, true, by decide +kernel⟩,
   ⟨{ up with sup := { up.sup with sv1 := .qualifying } }, 1, true, _, _,
       (by first | decide +kernel | rfl), (by first | decide +kernel | rfl), (by first | decide +kernel | rfl), rfl, rfl⟩,
   ⟨{ up with sup := { sv0 := .failed, sv1 := .qualifying, qualFailover := true } }, 1, true, _,
       (by first | decide +kernel | rfl), (by first | decide +kernel | rfl), (by first | decide +kernel | rfl), rfl⟩,
   ⟨{ up with sup := { sv0 := .qualifying, sv1 := .active, ready := true } }, 0, false, _,
       (by first | decide +kernel | rfl), (by first | decide +kernel | rfl), rfl⟩⟩

/-- States and operands that meet the hypotheses of further clauses of `Obligations.SupervisorsFailOverAndRestart`. -/
theorem witness_SupervisorsFailOverAndRestart_4 :
  (∃ (s : State) (sv : Fin 2) (ok : Bool), s.sv sv ≠ .qualifying)
  ∧ (∃ (s : State) (n : Nat) (y : State), s.sup.unsupStart = some n ∧ y = s.waitTo (n + s.rdf R.UNSUP_LIMIT 0 16 0 * sclkSec)
      ∧ y.unsupOver = true ∧ y.sup.limitMet = false)
  ∧ (∃ (s : State) (n : Nat) (y : State), s.sup.unsupStart = some n ∧ y = s.waitTo (n + s.rdf R.UNSUP_LIMIT 0 16 0 * sclkSec)
      ∧ (y.unsupOver = false ∨ y.sup.limitMet = true))
  ∧ (∃ (s : State), s.sup.unsupStart = none)
  ∧ (∃ (s : State) (a : Agent) (v : Word), s.accepts a 0x08 R.UNSUP_LIMIT.off v = true) :=
  ⟨⟨up, 1, true, by decide +kernel⟩,
   ⟨{ up with sup := { sv0 := .failed, sv1 := .standby, unsupStart := some 5 }, regs := [(R.UNSUP_LIMIT.key 0, 1)] }, 5,
       _,
       (by first | decide +kernel | rfl), rfl, (by first | decide +kernel | rfl), (by first | decide +kernel | rfl)⟩,
   ⟨{ up with sup := { sv0 := .failed, sv1 := .standby, unsupStart := some 5, limitMet := true }, regs := [(R.UNSUP_LIMIT.key 0, 1)] },
       5, _, (by first | decide +kernel | rfl), rfl, (by first | decide +kernel | rfl)⟩,
   ⟨up, by decide +kernel⟩,
   ⟨up, .normal, 3600, by decide +kernel⟩⟩

/-- States and operands that meet the hypotheses of the first clauses of `Obligations.CheckpointsUpdatesAndTamper`. -/
theorem witness_CheckpointsUpdatesAndTamper :
  (∃ (s : State) (x : State) (y : State) (z : State), y = (if s.sup.ckptDue = some 3 then s.drainPosted else s)
      ∧ y.supervised = true ∧ y.tam.hold = false ∧ y.sup.ckptWriting = none
      ∧ x = y.waitTo ((y.sup.ckptLast.map fun n => n + (if y.sup.ckptDue.isSome then 1 else 8) * sclkSec).getD (if y.sup.ckptDue.isSome then 0 else 8 * sclkSec))
      ∧ z = { x with sup := { x.sup with ckptWriting := some (y.sup.ckptDue.getD 1), ckptDue := none, ckptLast := some x.time.total } })
  ∧ (∃ (s : State) (x : State) (y : State) (z : State), y = (if s.sup.ckptDue = some 3 then s.drainPosted else s)
      ∧ y.supervised = true ∧ y.tam.hold = false ∧ y.sup.ckptWriting = none
      ∧ x = y.waitTo ((y.sup.ckptLast.map fun n => n + (if y.sup.ckptDue.isSome then 1 else 8) * sclkSec).getD (if y.sup.ckptDue.isSome then 0 else 8 * sclkSec))
      ∧ z = { x with sup := { x.sup with ckptWriting := some (y.sup.ckptDue.getD 1), ckptDue := none, ckptLast := some x.time.total } })
  ∧ (∃ (s : State) (y : State), y = (if s.sup.ckptDue = some 3 then s.drainPosted else s)
      ∧ (y.supervised = false ∨ y.tam.hold = true ∨ y.sup.ckptWriting.isSome = true))
  ∧ (∃ (s : State) (ok : Bool) (k : Nat), ok = true ∧ s.sup.ckptWriting = some k)
  ∧ (∃ (s : State) (ok : Bool) (k : Nat), ok = false ∧ s.sup.ckptWriting = some k ∧ s.sup.ready = false
      ∧ ((List.range 16).any fun c => (s.cchan c).run.isSome) = false)
  ∧ (∃ (s : State) (ok : Bool) (k : Nat) (y : State) (z : State) (u : State), ok = false ∧ s.sup.ckptWriting = some k
      ∧ y = (({ s with sup := { s.sup with ckptWriting := none } }.countf R.NVM_ERR 0 31 16).raise 0x08 4).raise 0x0A 1
      ∧ z = y.report 0x0A 0 0x0A (y.rd R.NVM_ERR) y.updStat
      ∧ u = (if k = 3 then z.setPwr fun p => { p with req := .none } else z))
  ∧ (∃ (s : State) (ok : Bool), s.sup.ckptWriting = none)
  ∧ (∃ (s : State) (n : Nat) (x : State) (y : State), s.sup.confirmEnd = some n ∧ s.updState = 4 ∧ s.supervised = true
      ∧ s.tam.hold = false ∧ x = s.waitTo n ∧ y = x.setFlag { x.flag.swapped with state := 0, boots := 0 })
  ∧ (∃ (s : State), (s.sup.confirmEnd = none ∨ s.updState ≠ 4 ∨ s.supervised = false ∨ s.tam.hold = true))
  ∧ (∃ (s : State) (page : Fin 128) (g : Gate) (y : State) (z : State), s.sup.gates.find? (fun v => v.page == page.val) = some g
      ∧ (s.secureUse page = false ∨ g.since + 3000000 ≤ s.time.total)
      ∧ y = (s.secureTxns page).foldl (fun u id => u.respond id true false []) s
      ∧ z = { y with sup := { y.sup with gates := y.sup.gates.filter fun v => v.page != page.val } })
  ∧ (∃ (s : State) (page : Fin 128) (g : Gate), s.sup.gates.find? (fun v => v.page == page.val) = some g
      ∧ s.secureUse page = true ∧ s.time.total < g.since + 3000000)
  ∧ (∃ (s : State) (page : Fin 128), s.gatePending page = false) :=
  ⟨⟨{ up with sup := { up.sup with ckptDue := some 2, ckptLast := some 9 } }, _, _, _,
       rfl, (by first | decide +kernel | rfl), (by first | decide +kernel | rfl), (by first | decide +kernel | rfl), rfl, rfl⟩,
   ⟨up, _, _, _,
       rfl, (by first | decide +kernel | rfl), (by first | decide +kernel | rfl), (by first | decide +kernel | rfl), rfl, rfl⟩,
   ⟨{ up with tam := { hold := true } }, _, rfl, (by first | decide +kernel | rfl)⟩,
   ⟨{ up with sup := { up.sup with ckptWriting := some 1 } }, true, 1, by decide +kernel⟩,
   ⟨{ early with sup := { early.sup with ckptWriting := some 3 }, pwr := { up.pwr with req := .toStandby } }, false, 3,
       by decide +kernel⟩,
   ⟨{ chanOpen (cmdOf 0x504 [] false true) with sup := { up.sup with ckptWriting := some 3 }, pwr := { up.pwr with req := .toStandby } },
       false, 3, _, _, _, (by first | decide +kernel | rfl), (by first | decide +kernel | rfl), rfl, rfl, rfl⟩,
   ⟨up, true, by decide +kernel⟩,
   ⟨flagAt { early with sup := { early.sup with confirmEnd := some 5 } } 4, 5, _, _,
       (by first | decide +kernel | rfl), (by first | decide +kernel | rfl), (by first | decide +kernel | rfl), (by first | decide +kernel | rfl), rfl, rfl⟩,
   ⟨up, by decide +kernel⟩,
   ⟨{ up with regs := [(regKey 0 0x54 0 hCtrl, 1)], sup := { up.sup with gates := [{ page := 0x54, value := 0, since := 0 }] } },
       0x54, { page := 0x54, value := 0, since := 0 }, _, _,
       (by first | decide +kernel | rfl), (by first | decide +kernel | rfl), rfl, rfl⟩,
   ⟨{ up with regs := [(regKey 0 0x54 0 hCtrl, 1)], xbar := { next := 5, txns := [(4, some { xfer with secure := true, port := 6, gen := some 0 })] }, sup := { up.sup with gates := [{ page := 0x54, value := 0, since := 0 }] } },
       0x54, { page := 0x54, value := 0, since := 0 }, by decide +kernel⟩,
   ⟨up, 3, by decide +kernel⟩⟩

/-- States and operands that meet the hypotheses of further clauses of `Obligations.CheckpointsUpdatesAndTamper`. -/
theorem witness_CheckpointsUpdatesAndTamper_2 :
  (∃ (s : State) (bytes : List Byte) (ch : List Byte) (y : State), s.test.tap = 0x10 ∧ bytes.length = 97 ∧ s.pwr.porN = true
      ∧ ch = s.drawChallenge.1 ∧ y = s.drawChallenge.2)
  ∧ (∃ (s : State) (bytes : List Byte), (s.test.tap ≠ 0x10 ∨ bytes.length ≠ 97 ∨ s.pwr.porN = false))
  ∧ (∃ (s : State) (k : Fin 7), (s.tamperSeen k = false ∨ s.rdb R.TMP_CFG 0 k = false))
  ∧ (∃ (s : State) (k : Fin 7) (y : State) (z : State) (u : State), s.tamperSeen k = true ∧ s.rdb R.TMP_CFG 0 k = true
      ∧ s.tmpPhase (k.val == 6) = 0 ∧ s.rdb R.TMP_CFG 0 (8 + k) = false
      ∧ y = (s.wr R.TMP_LATCH 0 (setBit (s.rd R.TMP_LATCH) k)).wr R.TMP_LAST 0 (word (at_ 32 (s.tb2Sec % 2 ^ 32) + at_ 16 0 + k))
      ∧ z = y.nvmWrite (tamperPlace + k) [BitVec.ofNat 8 (min ((s.nv.nvm.byte (tamperPlace + k)).toNat + 1) 0xFF)]
      ∧ u = (z.report 0x09 0 0x07 (z.rd R.TMP_LAST) (z.rd R.TMP_LATCH)).raise 0x09 0)
  ∧ (∃ (s : State) (k : Fin 7) (ph : Nat) (y : State) (z : State) (u : State), s.tamperSeen k = true ∧ s.rdb R.TMP_CFG 0 k = true
      ∧ (s.tmpPhase (k.val == 6) = 0 ∧ s.rdb R.TMP_CFG 0 (8 + k) = true ∨ s.tmpPhase (k.val == 6) = 1)
      ∧ ph = s.tmpPhase (k.val == 6)
      ∧ y = (s.wr R.TMP_LATCH 0 (setBit (s.rd R.TMP_LATCH) k)).wr R.TMP_LAST 0 (word (at_ 32 (s.tb2Sec % 2 ^ 32) + at_ 16 ph + k))
      ∧ z = y.nvmWrite (tamperPlace + k) [BitVec.ofNat 8 (min ((s.nv.nvm.byte (tamperPlace + k)).toNat + 1) 0xFF)]
      ∧ u = (z.report 0x09 0 0x07 (z.rd R.TMP_LAST) (z.rd R.TMP_LATCH)).raise 0x09 0)
  ∧ (∃ (s : State) (k : Fin 7) (ph : Nat) (y : State) (z : State) (u : State), s.tamperSeen k = true ∧ s.rdb R.TMP_CFG 0 k = true
      ∧ (s.tmpPhase (k.val == 6) = 0 ∧ s.rdb R.TMP_CFG 0 (8 + k) = true ∨ s.tmpPhase (k.val == 6) = 1)
      ∧ ph = s.tmpPhase (k.val == 6)
      ∧ y = (s.wr R.TMP_LATCH 0 (setBit (s.rd R.TMP_LATCH) k)).wr R.TMP_LAST 0 (word (at_ 32 (s.tb2Sec % 2 ^ 32) + at_ 16 ph + k))
      ∧ z = y.nvmWrite (tamperPlace + k) [BitVec.ofNat 8 (min ((s.nv.nvm.byte (tamperPlace + k)).toNat + 1) 0xFF)]
      ∧ u = (z.report 0x09 0 0x07 (z.rd R.TMP_LAST) (z.rd R.TMP_LATCH)).raise 0x09 0)
  ∧ (∃ (s : State) (k : Fin 7) (y : State) (z : State) (u : State), s.tamperSeen k = true ∧ s.rdb R.TMP_CFG 0 k = true
      ∧ s.tmpPhase (k.val == 6) = 2
      ∧ y = (s.wr R.TMP_LATCH 0 (setBit (s.rd R.TMP_LATCH) k)).wr R.TMP_LAST 0 (word (at_ 32 (s.tb2Sec % 2 ^ 32) + at_ 16 2 + k))
      ∧ z = y.nvmWrite (tamperPlace + k) [BitVec.ofNat 8 (min ((s.nv.nvm.byte (tamperPlace + k)).toNat + 1) 0xFF)]
      ∧ u = (z.report 0x09 0 0x07 (z.rd R.TMP_LAST) (z.rd R.TMP_LATCH)).raise 0x09 0)
  ∧ (∃ (s : State) (k : Fin 7) (y : State) (z : State) (u : State), s.tamperSeen k = true ∧ s.rdb R.TMP_CFG 0 k = true
      ∧ s.tmpPhase (k.val == 6) = 3
      ∧ y = (s.wr R.TMP_LATCH 0 (setBit (s.rd R.TMP_LATCH) k)).wr R.TMP_LAST 0 (word (at_ 32 (s.tb2Sec % 2 ^ 32) + at_ 16 3 + k))
      ∧ z = y.nvmWrite (tamperPlace + k) [BitVec.ofNat 8 (min ((s.nv.nvm.byte (tamperPlace + k)).toNat + 1) 0xFF)]
      ∧ u = (z.report 0x09 0 0x07 (z.rd R.TMP_LAST) (z.rd R.TMP_LATCH)).raise 0x09 0)
  ∧ (∃ (s : State) (k : Fin 7) (y : State) (z : State) (u : State), s.tamperSeen k = true ∧ s.rdb R.TMP_CFG 0 k = true
      ∧ s.tmpPhase (k.val == 6) = 3
      ∧ y = (s.wr R.TMP_LATCH 0 (setBit (s.rd R.TMP_LATCH) k)).wr R.TMP_LAST 0 (word (at_ 32 (s.tb2Sec % 2 ^ 32) + at_ 16 3 + k))
      ∧ z = y.nvmWrite (tamperPlace + k) [BitVec.ofNat 8 (min ((s.nv.nvm.byte (tamperPlace + k)).toNat + 1) 0xFF)]
      ∧ u = (z.report 0x09 0 0x07 (z.rd R.TMP_LAST) (z.rd R.TMP_LATCH)).raise 0x09 0)
  ∧ (∃ (s : State) (a : Agent) (v : Word), s.accepts a 0x0A R.NVM_DATA.off v = true)
  ∧ (∃ (s : State) (a : Agent) (slot : Fin 2), s.accepts a 0x0A R.NVM_CMD.off (word (at_ slot 1)) = true)
  ∧ (∃ (s : State) (i : Nat), s.nv.erasing = some i) :=
  ⟨⟨{ up with test := { tap := 0x10 } }, List.replicate 97 9, _, _,
       (by first | decide +kernel | rfl), (by first | decide +kernel | rfl), (by first | decide +kernel | rfl), rfl, rfl⟩,
   ⟨up, [], by decide +kernel⟩,
   ⟨{ up with regs := [(R.TMP_CFG.key 0, 0)] }, 6, by decide +kernel⟩,
   ⟨{ up with regs := [(R.TMP_CFG.key 0, 0x7F)] }, 0, _, _, _,
       (by first | decide +kernel | rfl), (by first | decide +kernel | rfl), (by first | decide +kernel | rfl), (by first | decide +kernel | rfl), rfl, rfl, rfl⟩,
   ⟨{ early with regs := [(R.TMP_CFG.key 0, 0x7F)] }, 3, _, _, _, _,
       (by first | decide +kernel | rfl), (by first | decide +kernel | rfl), (by first | decide +kernel | rfl), rfl, rfl, rfl, rfl⟩,
   ⟨{ up with regs := [(R.TMP_CFG.key 0, 0x87F)] }, 3, _, _, _, _,
       (by first | decide +kernel | rfl), (by first | decide +kernel | rfl), (by first | decide +kernel | rfl), rfl, rfl, rfl, rfl⟩,
   ⟨{ up with pwr := { up.pwr with state := .standby }, regs := [(R.TMP_CFG.key 0, 0x7F)] }, 3, _, _, _,
       (by first | decide +kernel | rfl), (by first | decide +kernel | rfl), (by first | decide +kernel | rfl), rfl, rfl, rfl⟩,
   ⟨{ up with regs := [(R.TMP_CFG.key 0, 0x7F)] }, 6, _, _, _,
       (by first | decide +kernel | rfl), (by first | decide +kernel | rfl), (by first | decide +kernel | rfl), rfl, rfl, rfl⟩,
   ⟨{ chanOpen (cmdOf 0x702 []) with regs := [(R.TMP_CFG.key 0, 0x47F)] }, 2, _, _, _,
       (by first | decide +kernel | rfl), (by first | decide +kernel | rfl), (by first | decide +kernel | rfl), rfl, rfl, rfl⟩,
   ⟨{ up with regs := [(R.NVM_ADDR.key 0, 0xFFFFF8)] }, .secure, 0x1122334455667788, by decide +kernel⟩,
   ⟨up, .secure, 1, by decide +kernel⟩,
   ⟨{ up with nv := { erasing := some 1 } }, 1, by decide +kernel⟩⟩

/-- States and operands that meet the hypotheses of further clauses of `Obligations.CheckpointsUpdatesAndTamper`. -/
theorem witness_CheckpointsUpdatesAndTamper_3 :
  (∃ (s : State), s.nv.erasing = none) :=
  ⟨up, by decide +kernel⟩

/-- States and operands that meet the hypotheses of the first clauses of `Obligations.SalinometerRunsItsSequence`. -/
theorem witness_SalinometerRunsItsSequence :
  (∃ (s : State) (a : Agent) (v : Word), s.accepts a 0x5B R.SAL_CFG.off v = true ∧ s.sal.urg = none)
  ∧ (∃ (s : State) (a : Agent) (v : Word), s.accepts a 0x5B R.SAL_CFG.off v = true ∧ s.sal.urg ≠ none)
  ∧ (∃ (s : State) (x : State) (e : Word), x = s.delayOver ∧ x.sal.phase = .switching ∧ s.enabled 0x5B = true
      ∧ x.sal.t0 ≤ 2 * s.time.total ∧ e = s.rd R.SEQ 0 x.sal.entry)
  ∧ (∃ (s : State) (x : State) (e : Word), x = s.delayOver ∧ x.sal.phase = .switching ∧ s.enabled 0x5B = true
      ∧ x.sal.t0 ≤ 2 * s.time.total ∧ e = s.rd R.SEQ 0 x.sal.entry)
  ∧ (∃ (s : State) (x : State), x = s.delayOver
      ∧ (x.sal.phase ≠ .switching ∨ s.enabled 0x5B = false ∨ 2 * s.time.total < x.sal.t0))
  ∧ (∃ (s : State) (codes : List RawCode) (x : State) (n : Nat), x = (s.toTotal (s.sal.lastHalf / 2)).salSettle
      ∧ x.sal.phase = .dwelling ∧ x.dwellOver codes = true ∧ n = (x.rd R.RES_WSEQ).toNat
      ∧ occupancy n (x.rd R.RES_RSEQ).toNat < 32 ∧ x.sal.burst = false
      ∧ (codes.all fun k => decide (-2048 ≤ k ∧ k ≤ 2047)) = true ∧ x.sal.settle = 0 ∧ x.sal.entry < 64 ∧ x.sal.input < 32)
  ∧ (∃ (s : State) (codes : List RawCode) (x : State) (n : Nat), x = (s.toTotal (s.sal.lastHalf / 2)).salSettle
      ∧ x.sal.phase = .dwelling ∧ x.dwellOver codes = true ∧ n = (x.rd R.RES_WSEQ).toNat
      ∧ occupancy n (x.rd R.RES_RSEQ).toNat < 32 ∧ x.sal.burst = false
      ∧ (codes.all fun k => decide (-2048 ≤ k ∧ k ≤ 2047)) = true ∧ x.sal.settle = 0 ∧ x.sal.entry < 64 ∧ x.sal.input < 32)
  ∧ (∃ (s : State) (codes : List RawCode) (x : State), x = (s.toTotal (s.sal.lastHalf / 2)).salSettle ∧ x.sal.phase = .dwelling
      ∧ x.dwellOver codes = true ∧ occupancy (x.rd R.RES_WSEQ).toNat (x.rd R.RES_RSEQ).toNat = 32 ∧ x.sal.burst = false
      ∧ (codes.all fun k => decide (-2048 ≤ k ∧ k ≤ 2047)) = true)
  ∧ (∃ (s : State) (codes : List RawCode) (x : State), x = (s.toTotal (s.sal.lastHalf / 2)).salSettle ∧ x.sal.phase = .dwelling
      ∧ x.dwellOver codes = true ∧ ((codes.any fun k => decide (k < -2048 ∨ 2047 < k)) = true))
  ∧ (∃ (s : State) (codes : List RawCode) (x : State) (n : Nat), x = (s.toTotal (s.sal.lastHalf / 2)).salSettle
      ∧ x.sal.phase = .dwelling ∧ x.dwellOver codes = true ∧ n = (x.rd R.RES_WSEQ).toNat
      ∧ occupancy n (x.rd R.RES_RSEQ).toNat < 32 ∧ x.sal.burst = true ∧ (x.rd R.CAP_PTR).toNat < 32768)
  ∧ (∃ (s : State) (codes : List RawCode) (x : State), x = (s.toTotal (s.sal.lastHalf / 2)).salSettle
      ∧ (x.sal.phase ≠ .dwelling ∨ x.dwellOver codes = false))
  ∧ (∃ (s : State) (x : State), s.sal.phase = .delay ∧ x = s.toTotal (s.sal.t0 / 2) ∧ x.sal.phase = .delay
      ∧ x.sal.t0 ≤ 2 * x.time.total) :=
  ⟨⟨salUp [], .normal, 0x81, by decide +kernel⟩,
   ⟨{ salUp [] with sal := { phase := .schedule, urg := some (true, 0) } }, .normal, 0x81, by decide +kernel⟩,
   ⟨{ salUp [(R.SEQ.key 0 5, 0x1000000000000003)] with sal := { phase := .switching, entry := 5, t0 := 0 } }, _, _,
       rfl, (by first | decide +kernel | rfl), (by first | decide +kernel | rfl), (by first | decide +kernel | rfl), rfl⟩,
   ⟨{ salUp [(R.SEQ.key 0 0, 0x2000000000000003), (R.SAL_CFG.key 0, 0x181)] with sal := { phase := .delay, entry := 1 } },
       _, _,
       rfl, (by first | decide +kernel | rfl), (by first | decide +kernel | rfl), (by first | decide +kernel | rfl), rfl⟩,
   ⟨{ salUp [(R.SEQ.key 0 5, 0x1000000000000003)] with sal := { phase := .switching, entry := 5, t0 := 1 } }, _,
       rfl, (by first | decide +kernel | rfl)⟩,
   ⟨dwellAt 0, [5, -7, 2047], _, _,
       rfl, (by first | decide +kernel | rfl), (by first | decide +kernel | rfl), rfl, (by first | decide +kernel | rfl), (by first | decide +kernel | rfl), (by first | decide +kernel | rfl), (by first | decide +kernel | rfl), (by first | decide +kernel | rfl), (by first | decide +kernel | rfl)⟩,
   ⟨dwellAt 0x20, [5, -7, 2047], _, _,
       rfl, (by first | decide +kernel | rfl), (by first | decide +kernel | rfl), rfl, (by first | decide +kernel | rfl), (by first | decide +kernel | rfl), (by first | decide +kernel | rfl), (by first | decide +kernel | rfl), (by first | decide +kernel | rfl), (by first | decide +kernel | rfl)⟩,
   ⟨dwellFull, [5, -7, 2047], _,
       rfl, (by first | decide +kernel | rfl), (by first | decide +kernel | rfl), (by first | decide +kernel | rfl), (by first | decide +kernel | rfl), (by first | decide +kernel | rfl)⟩,
   ⟨dwellAt 0, [5, -7, 2048], _,
       rfl, (by first | decide +kernel | rfl), (by first | decide +kernel | rfl), (by first | decide +kernel | rfl)⟩,
   ⟨dwellBurst, [5, -7, 2047], _, _,
       rfl, (by first | decide +kernel | rfl), (by first | decide +kernel | rfl), rfl, (by first | decide +kernel | rfl), (by first | decide +kernel | rfl), (by first | decide +kernel | rfl)⟩,
   ⟨dwellAt 0, [], _, rfl, (by first | decide +kernel | rfl)⟩,
   ⟨{ salUp [(R.SAL_CFG.key 0, 0x81)] with sal := { phase := .delay, t0 := 100 } }, _,
       (by first | decide +kernel | rfl), rfl, (by first | decide +kernel | rfl), (by first | decide +kernel | rfl)⟩⟩

/-- States and operands that meet the hypotheses of further clauses of `Obligations.SalinometerRunsItsSequence`. -/
theorem witness_SalinometerRunsItsSequence_2 :
  (∃ (s : State) (x : State), s.sal.phase = .delay ∧ x = s.toTotal (s.sal.t0 / 2)
      ∧ (x.sal.phase ≠ .delay ∨ 2 * x.time.total < x.sal.t0))
  ∧ (∃ (s : State), s.sal.phase ≠ .delay)
  ∧ (∃ (s : State) (slices : List Word), s.enabled 0x5B = true ∧ s.rdf R.SAL_XCFG 0 1 0 = 0)
  ∧ (∃ (s : State) (slices : List Word), s.enabled 0x5B = true ∧ s.rdf R.SAL_XCFG 0 1 0 ≠ 0)
  ∧ (∃ (s : State) (slices : List Word), s.enabled 0x5B = false)
  ∧ (∃ (s : State) (t1 : BitVec 8), s.enabled 0x5B = true ∧ s.rdf R.SAL_XCFG 0 1 0 = 1
      ∧ ((List.range 4).any fun k => decide (10 < (t1.toInt - sfld (s.rd R.SLICE 0 k) 63 56).natAbs)) = true)
  ∧ (∃ (s : State) (t1 : BitVec 8), s.calFar t1.toInt = false) :=
  ⟨⟨{ salUp [(R.SAL_CFG.key 0, 0x81)] with sal := { phase := .delay, t0 := 101 } }, _,
       (by first | decide +kernel | rfl), rfl, (by first | decide +kernel | rfl)⟩,
   ⟨dwellAt 0, by decide +kernel⟩,
   ⟨salUp [(R.SAL_XCFG.key 0, 0)], [1, 2, 3, 4], by decide +kernel⟩,
   ⟨salUp [(R.SAL_XCFG.key 0, 1)], [], by decide +kernel⟩,
   ⟨up, [], by decide +kernel⟩,
   ⟨salUp [(R.SAL_XCFG.key 0, 1)], 60, by decide +kernel⟩,
   ⟨salUp [(R.SAL_XCFG.key 0, 0)], 60, by decide +kernel⟩⟩

/-- States and operands that meet the hypotheses of the first clauses of `Obligations.SalinometerServesRequests`. -/
theorem witness_SalinometerServesRequests :
  (∃ (s : State) (x : State), s.enabled 0x5B = true ∧ x = s.salSettle ∧ x.sal.phase = .trigWait ∧ x.sal.t0 ≤ 2 * s.time.total)
  ∧ (∃ (s : State) (x : State), s.enabled 0x5B = true ∧ x = s.salSettle ∧ (x.sal.phase ≠ .trigWait ∨ 2 * s.time.total < x.sal.t0)
      ∧ x.sal.trigPend = false)
  ∧ (∃ (s : State) (x : State), s.enabled 0x5B = true ∧ x = s.salSettle ∧ (x.sal.phase ≠ .trigWait ∨ 2 * s.time.total < x.sal.t0)
      ∧ x.sal.trigPend = true)
  ∧ (∃ (s : State), s.enabled 0x5B = false)
  ∧ (∃ (s : State) (a : Agent), s.accepts a 0x5B R.SAL_CMD.off 2 = true)
  ∧ (∃ (s : State) (e : Word) (z : Word) (n : Nat) (x : State) (x1 : State), e = s.rd R.SAL_CAL
      ∧ n = 256 * fld e 58 47 + fld e 46 39 ∧ s.image.isSome = true ∧ bit e 63 = true ∧ s.enabled 0x5B = true
      ∧ s.time.tide % 2 ^ fld e 62 59 = 0 ∧ s.time.pos ≤ n ∧ x = (s.pass (n - s.time.pos)).salSettle
      ∧ (x.sal.urg = none ∨ x.sal.urg = some (false, z))
      ∧ x1 = (if x.sal.urg.isSome then { x with sal := { x.sal with urgH := some z } } else x))
  ∧ (∃ (s : State) (e : Word) (z : Word) (n : Nat) (x : State) (x1 : State), e = s.rd R.SAL_CAL
      ∧ n = 256 * fld e 58 47 + fld e 46 39 ∧ s.image.isSome = true ∧ bit e 63 = true ∧ s.enabled 0x5B = true
      ∧ s.time.tide % 2 ^ fld e 62 59 = 0 ∧ s.time.pos ≤ n ∧ x = (s.pass (n - s.time.pos)).salSettle
      ∧ (x.sal.urg = none ∨ x.sal.urg = some (false, z))
      ∧ x1 = (if x.sal.urg.isSome then { x with sal := { x.sal with urgH := some z } } else x))
  ∧ (∃ (s : State) (e : Word) (z : Word) (n : Nat) (x : State), e = s.rd R.SAL_CAL ∧ n = 256 * fld e 58 47 + fld e 46 39
      ∧ s.image.isSome = true ∧ bit e 63 = true ∧ s.enabled 0x5B = true ∧ s.time.tide % 2 ^ fld e 62 59 = 0 ∧ s.time.pos ≤ n
      ∧ x = (s.pass (n - s.time.pos)).salSettle ∧ x.sal.urg = some (true, z) ∧ x.sal.urgS = none)
  ∧ (∃ (s : State) (e : Word) (z : Word) (n : Nat) (x : State), e = s.rd R.SAL_CAL ∧ n = 256 * fld e 58 47 + fld e 46 39
      ∧ s.image.isSome = true ∧ bit e 63 = true ∧ s.enabled 0x5B = true ∧ s.time.tide % 2 ^ fld e 62 59 = 0 ∧ s.time.pos ≤ n
      ∧ x = (s.pass (n - s.time.pos)).salSettle ∧ x.sal.urg = some (true, z) ∧ x.sal.urgS ≠ none)
  ∧ (∃ (s : State) (e : Word), e = s.rd R.SAL_CAL
      ∧ (s.image.isSome = false ∨ bit e 63 = false ∨ s.enabled 0x5B = false ∨ s.time.tide % 2 ^ fld e 62 59 ≠ 0 ∨ 256 * fld e 58 47 + fld e 46 39 < s.time.pos))
  ∧ (∃ (s : State) (a : Agent) (v : Word), s.accepts a 0x5B R.URG_CTRL.off (setBit v 63) = true ∧ s.sal.urg = none)
  ∧ (∃ (s : State) (a : Agent) (v : Word), s.accepts a 0x5B R.URG_CTRL.off (setBit v 63) = true ∧ s.sal.urg.isSome = true) :=
  ⟨⟨{ salUp [] with sal := { phase := .trigWait } }, _,
       (by first | decide +kernel | rfl), rfl, (by first | decide +kernel | rfl), (by first | decide +kernel | rfl)⟩,
   ⟨{ salUp [] with sal := { phase := .dwelling } }, _,
       (by first | decide +kernel | rfl), rfl, (by first | decide +kernel | rfl), (by first | decide +kernel | rfl)⟩,
   ⟨{ salUp [] with sal := { phase := .dwelling, trigPend := true } }, _,
       (by first | decide +kernel | rfl), rfl, (by first | decide +kernel | rfl), (by first | decide +kernel | rfl)⟩,
   ⟨up, by decide +kernel⟩,
   ⟨{ salUp [] with sal := { trigPend := true } }, .normal, by decide +kernel⟩,
   ⟨{ runs tyPan 17 0 with regs := [(regKey 0 0x5B 0 hCtrl, 1), (R.SAL_CAL.key 0, 0x8000008000000003)] }, _, 0, _, _, _,
       rfl, rfl, (by first | decide +kernel | rfl), (by first | decide +kernel | rfl), (by first | decide +kernel | rfl), (by first | decide +kernel | rfl), (by first | decide +kernel | rfl), rfl, (by first | decide +kernel | rfl), rfl⟩,
   ⟨{ runs tyPan 17 0 with regs := [(regKey 0 0x5B 0 hCtrl, 1), (R.SAL_CAL.key 0, 0x8000008000000003)], sal := { phase := .host, urg := some (false, 7) } },
       _, 7, _, _, _,
       rfl, rfl, (by first | decide +kernel | rfl), (by first | decide +kernel | rfl), (by first | decide +kernel | rfl), (by first | decide +kernel | rfl), (by first | decide +kernel | rfl), rfl, (by first | decide +kernel | rfl), rfl⟩,
   ⟨{ runs tyPan 17 0 with regs := [(regKey 0 0x5B 0 hCtrl, 1), (R.SAL_CAL.key 0, 0x8000008000000003)], sal := { phase := .schedule, urg := some (true, 0) } },
       _, 0, _, _,
       rfl, rfl, (by first | decide +kernel | rfl), (by first | decide +kernel | rfl), (by first | decide +kernel | rfl), (by first | decide +kernel | rfl), (by first | decide +kernel | rfl), rfl, (by first | decide +kernel | rfl), (by first | decide +kernel | rfl)⟩,
   ⟨{ runs tyPan 17 0 with regs := [(regKey 0 0x5B 0 hCtrl, 1), (R.SAL_CAL.key 0, 0x8000008000000003)], sal := { phase := .schedule, urg := some (true, 0), urgS := some 0 } },
       _, 0, _, _,
       rfl, rfl, (by first | decide +kernel | rfl), (by first | decide +kernel | rfl), (by first | decide +kernel | rfl), (by first | decide +kernel | rfl), (by first | decide +kernel | rfl), rfl, (by first | decide +kernel | rfl), (by first | decide +kernel | rfl)⟩,
   ⟨up, _, rfl, (by first | decide +kernel | rfl)⟩,
   ⟨{ salUp [] with sal := { phase := .dwelling } }, .normal, 3, by decide +kernel⟩,
   ⟨{ salUp [] with sal := { phase := .schedule, urg := some (true, 0) } }, .normal, 3, by decide +kernel⟩⟩

/-- States and operands that meet the hypotheses of further clauses of `Obligations.SalinometerServesRequests`. -/
theorem witness_SalinometerServesRequests_2 :
  (∃ (s : State) (a : Agent), s.accepts a 0x5B R.SAL_CMD.off 1 = true ∧ s.sal.phase ≠ .host)
  ∧ (∃ (s : State) (a : Agent), s.accepts a 0x5B R.SAL_CMD.off 1 = true ∧ s.sal.phase = .host ∧ s.sal.urgS = none)
  ∧ (∃ (s : State) (a : Agent) (e : Word), s.accepts a 0x5B R.SAL_CMD.off 1 = true ∧ s.sal.phase = .host ∧ s.sal.urgS = some e)
  ∧ (∃ (s : State) (codes : List RawCode) (n : Nat) (x : State), x = s.toTotal (s.sal.lastHalf / 2) ∧ x.sal.urg.isSome = true
      ∧ x.dwellOver codes = true ∧ n = (x.rd R.RES_WSEQ).toNat ∧ occupancy n (x.rd R.RES_RSEQ).toNat < 32 ∧ x.sal.entry < 64
      ∧ x.sal.input < 32)
  ∧ (∃ (s : State) (codes : List RawCode) (x : State) (y : State), x = s.toTotal (s.sal.lastHalf / 2) ∧ x.sal.urg.isSome = true
      ∧ x.dwellOver codes = true ∧ y = (x.dwellEnd codes).toTotal (x.sal.lastHalf / 2 + 1))
  ∧ (∃ (s : State) (codes : List RawCode) (x : State) (y : State), x = s.toTotal (s.sal.lastHalf / 2) ∧ x.sal.urg.isSome = true
      ∧ x.dwellOver codes = true ∧ y = (x.dwellEnd codes).toTotal (x.sal.lastHalf / 2 + 1))
  ∧ (∃ (s : State) (codes : List RawCode) (x : State), x = s.toTotal (s.sal.lastHalf / 2)
      ∧ (x.sal.urg = none ∨ x.dwellOver codes = false)) :=
  ⟨⟨{ salUp [] with sal := { phase := .schedule, urg := some (true, 0), urgH := some 3 } }, .normal, by decide +kernel⟩,
   ⟨{ salUp [] with sal := { phase := .host, urg := some (false, 0), resume := .delay } }, .normal, by decide +kernel⟩,
   ⟨{ salUp [] with sal := { phase := .host, urg := some (false, 0), urgS := some 9, resume := .delay } }, .normal, 9,
       by decide +kernel⟩,
   ⟨{ salUp [] with sal := { phase := .schedule, urg := some (true, 0), resume := .dwelling } }, [5], _, _,
       rfl, (by first | decide +kernel | rfl), (by first | decide +kernel | rfl), rfl, (by first | decide +kernel | rfl), (by first | decide +kernel | rfl), (by first | decide +kernel | rfl)⟩,
   ⟨{ salUp [] with sal := { phase := .schedule, urg := some (true, 0), resume := .dwelling } }, [5], _, _,
       rfl, (by first | decide +kernel | rfl), (by first | decide +kernel | rfl), rfl⟩,
   ⟨{ salUp [] with sal := { phase := .schedule, urg := some (true, 0), resume := .dwelling, urgH := some 3 } }, [5], _,
       _, rfl, (by first | decide +kernel | rfl), (by first | decide +kernel | rfl), rfl⟩,
   ⟨{ salUp [] with sal := { phase := .schedule, urg := some (true, 0), resume := .dwelling } }, [], _,
       rfl, (by first | decide +kernel | rfl)⟩⟩

/-- States and operands that meet the hypotheses of the first clauses of `Obligations.SalternKeepsItsView`. -/
theorem witness_SalternKeepsItsView :
  (∃ (s : State) (y : State) (c : List Word), s.meshZ ≠ 0 ∧ s.enabled 0x5D = true
      ∧ y = { s with mesh := { s.mesh with ownSeq := (s.mesh.ownSeq + 1) % 2 ^ 32 } }
      ∧ c = openCell 2 (ctlWord 1 s.meshSelf) y.lsaPayload)
  ∧ (∃ (s : State), (s.meshZ = 0 ∨ s.enabled 0x5D = false))
  ∧ (∃ (s : State) (q : Fin 256) (cell : List Word) (x : State) (y : State) (z : State) (o : Nat) (l : Lsa) (c : List Word),
      s.lkUp q = true ∧ cell.length = 32 ∧ cellType cell = 2 ∧ fld (cellWord cell 1) 63 56 = 1
      ∧ s.rxInOrder q cell = (x, true) ∧ x.rxDelay q = 0 ∧ (x.lk q).held = [] ∧ y = x.freeBuf q 2
      ∧ (y.meshPeer q).isSome = true ∧ o = (lsaOf cell).1 ∧ l = (lsaOf cell).2 ∧ o ≠ y.meshSelf
      ∧ ((y.lsaHeld o).all fun z => laterSeq l.seq z.seq) = true
      ∧ z = { y with mesh := { y.mesh with lsas := pset y.mesh.lsas o (some { l with seenAt := y.time.total }) } }
      ∧ c = setFld (setFld (cellWord cell 0) 31 0 0) 55 44 0 :: setFld (cellWord cell 1) 55 50 y.meshSelf :: cell.drop 2)
  ∧ (∃ (s : State) (q : Fin 256) (cell : List Word) (x : State) (y : State) (o : Nat) (l : Lsa), s.lkUp q = true
      ∧ cell.length = 32 ∧ cellType cell = 2 ∧ fld (cellWord cell 1) 63 56 = 1 ∧ s.rxInOrder q cell = (x, true)
      ∧ x.rxDelay q = 0 ∧ (x.lk q).held = [] ∧ y = x.freeBuf q 2 ∧ (y.meshPeer q).isSome = true ∧ o = (lsaOf cell).1
      ∧ l = (lsaOf cell).2 ∧ o ≠ y.meshSelf ∧ y.lsaHeld o = none ∧ l.flags.getLsbD 4 = true ∧ l.flags.getLsbD 3 = true
      ∧ y.mesh.role = .primary ∧ l.epoch = y.time.epoch ∧ y.closePend = false
      ∧ y.time.tide + 2 ≤ (y.time.tide / 15 + 1) * 15)
  ∧ (∃ (s : State) (q : Fin 256) (cell : List Word) (x : State) (y : State) (o : Nat) (l : Lsa), s.lkUp q = true
      ∧ cell.length = 32 ∧ cellType cell = 2 ∧ fld (cellWord cell 1) 63 56 = 1 ∧ s.rxInOrder q cell = (x, true)
      ∧ x.rxDelay q = 0 ∧ (x.lk q).held = [] ∧ y = x.freeBuf q 2 ∧ (y.meshPeer q).isSome = true ∧ o = (lsaOf cell).1
      ∧ l = (lsaOf cell).2 ∧ (o = y.meshSelf ∨ ((y.lsaHeld o).all fun z => laterSeq l.seq z.seq) = false))
  ∧ (∃ (s : State) (q : Fin 256) (cell : List Word) (x : State) (y : State), s.lkUp q = true ∧ cell.length = 32
      ∧ cellType cell = 2 ∧ fld (cellWord cell 1) 63 56 = 1 ∧ s.rxInOrder q cell = (x, true) ∧ x.rxDelay q = 0
      ∧ (x.lk q).held = [] ∧ y = x.freeBuf q 2 ∧ y.meshPeer q = none)
  ∧ (∃ (s : State) (q : Fin 256) (cell : List Word) (x : State), s.lkUp q = true ∧ cell.length = 32 ∧ cellType cell = 2
      ∧ fld (cellWord cell 1) 63 56 = 1 ∧ s.rxInOrder q cell = (x, true) ∧ (x.rxDelay q ≠ 0 ∨ (x.lk q).held ≠ []))
  ∧ (∃ (s : State) (q : Fin 256) (cell : List Word) (x : State), s.lkUp q = true ∧ cell.length = 32 ∧ cellType cell = 2
      ∧ fld (cellWord cell 1) 63 56 = 1 ∧ s.rxInOrder q cell = (x, false))
  ∧ (∃ (s : State) (q : Fin 256) (cell : List Word),
      (s.lkUp q = false ∨ cell.length ≠ 32 ∨ cellType cell ≠ 2 ∨ fld (cellWord cell 1) 63 56 ≠ 1))
  ∧ (∃ (s : State) (q : Fin 256) (cell : List Word) (t2 : BitVec 24) (t3 : BitVec 24) (x : State) (y : State), s.lkUp q = true
      ∧ cell.length = 32 ∧ cellType cell = 2 ∧ fld (cellWord cell 1) 63 56 = 2 ∧ s.rxInOrder q cell = (x, true)
      ∧ x.rxDelay q = 0 ∧ (x.lk q).held = [] ∧ y = x.freeBuf q 2 ∧ y.meshPeer q = none)
  ∧ (∃ (s : State) (q : Fin 256) (cell : List Word) (t2 : BitVec 24) (t3 : BitVec 24) (x : State), s.lkUp q = true
      ∧ cell.length = 32 ∧ cellType cell = 2 ∧ fld (cellWord cell 1) 63 56 = 2 ∧ s.rxInOrder q cell = (x, true)
      ∧ (x.rxDelay q ≠ 0 ∨ (x.lk q).held ≠ []))
  ∧ (∃ (s : State) (q : Fin 256) (cell : List Word) (t2 : BitVec 24) (t3 : BitVec 24) (x : State), s.lkUp q = true
      ∧ cell.length = 32 ∧ cellType cell = 2 ∧ fld (cellWord cell 1) 63 56 = 2 ∧ s.rxInOrder q cell = (x, false)) :=
  ⟨⟨meshUp 2, _, _, (by first | decide +kernel | rfl), (by first | decide +kernel | rfl), rfl, rfl⟩,
   ⟨up, by decide +kernel⟩,
   ⟨meshUp 2, 65, lsaCell 1 0, ((meshUp 2).rxInOrder 65 (lsaCell 1 0)).1,
       ((meshUp 2).rxInOrder 65 (lsaCell 1 0)).1.freeBuf 65 2,
       { ((meshUp 2).rxInOrder 65 (lsaCell 1 0)).1.freeBuf 65 2 with mesh := { lsas := [(1, some (lsaOf (lsaCell 1 0)).2)] } },
       1, (lsaOf (lsaCell 1 0)).2,
       setFld (setFld (cellWord (lsaCell 1 0) 0) 31 0 0) 55 44 0 :: setFld (cellWord (lsaCell 1 0) 1) 55 50 0 :: (lsaCell 1 0).drop 2,
       by decide +kernel⟩,
   ⟨{ meshUp 2 with mesh := { role := .primary } }, 65, lsaCell 1 0x18,
       (({ meshUp 2 with mesh := { role := .primary } } : State).rxInOrder 65 (lsaCell 1 0x18)).1,
       (({ meshUp 2 with mesh := { role := .primary } } : State).rxInOrder 65 (lsaCell 1 0x18)).1.freeBuf 65 2, 1,
       (lsaOf (lsaCell 1 0x18)).2, by decide +kernel⟩,
   ⟨meshUp 2, 65, lsaCell 0 0, ((meshUp 2).rxInOrder 65 (lsaCell 0 0)).1,
       ((meshUp 2).rxInOrder 65 (lsaCell 0 0)).1.freeBuf 65 2, 0, (lsaOf (lsaCell 0 0)).2, by decide +kernel⟩,
   ⟨meshUp 2, 64, lsaCell 1 0, ((meshUp 2).rxInOrder 64 (lsaCell 1 0)).1,
       ((meshUp 2).rxInOrder 64 (lsaCell 1 0)).1.freeBuf 64 2, by decide +kernel⟩,
   ⟨{ meshUp 2 with links := { link := [(65, { held := [(9, cellOf 2, 0, 0, 0)] })] } }, 65, lsaCell 1 0,
       (({ meshUp 2 with links := { link := [(65, { held := [(9, cellOf 2, 0, 0, 0)] })] } } : State).rxInOrder 65 (lsaCell 1 0)).1,
       by decide +kernel⟩,
   ⟨meshUp 2, 65, (lsaCell 1 0).set 5 1, ((meshUp 2).rxInOrder 65 ((lsaCell 1 0).set 5 1)).1, by decide +kernel⟩,
   ⟨up, 0, [], by decide +kernel⟩,
   ⟨meshUp 2, 64, ctlCell 2, 5, 6, ((meshUp 2).rxInOrder 64 (ctlCell 2)).1,
       ((meshUp 2).rxInOrder 64 (ctlCell 2)).1.freeBuf 64 2, by decide +kernel⟩,
   ⟨{ meshUp 2 with links := { link := [(65, { held := [(9, cellOf 2, 0, 0, 0)] })] } }, 65, ctlCell 2, 5, 6,
       (({ meshUp 2 with links := { link := [(65, { held := [(9, cellOf 2, 0, 0, 0)] })] } } : State).rxInOrder 65 (ctlCell 2)).1,
       by decide +kernel⟩,
   ⟨meshUp 2, 65, (ctlCell 2).set 5 1, 5, 6, ((meshUp 2).rxInOrder 65 ((ctlCell 2).set 5 1)).1, by decide +kernel⟩⟩

/-- States and operands that meet the hypotheses of further clauses of `Obligations.SalternKeepsItsView`. -/
theorem witness_SalternKeepsItsView_2 :
  (∃ (s : State) (q : Fin 256) (cell : List Word) (t2 : BitVec 24) (t3 : BitVec 24),
      (s.lkUp q = false ∨ cell.length ≠ 32 ∨ cellType cell ≠ 2 ∨ fld (cellWord cell 1) 63 56 ≠ 2))
  ∧ (∃ (s : State) (q : Fin 256) (cell : List Word) (t4 : BitVec 24) (x : State) (y : State), s.lkUp q = true ∧ cell.length = 32
      ∧ cellType cell = 2 ∧ fld (cellWord cell 1) 63 56 = 3 ∧ s.rxInOrder q cell = (x, true) ∧ x.rxDelay q = 0
      ∧ (x.lk q).held = [] ∧ y = x.freeBuf q 2 ∧ y.meshPeer q = none)
  ∧ (∃ (s : State) (q : Fin 256) (cell : List Word) (t4 : BitVec 24) (x : State), s.lkUp q = true ∧ cell.length = 32
      ∧ cellType cell = 2 ∧ fld (cellWord cell 1) 63 56 = 3 ∧ s.rxInOrder q cell = (x, true)
      ∧ (x.rxDelay q ≠ 0 ∨ (x.lk q).held ≠ []))
  ∧ (∃ (s : State) (q : Fin 256) (cell : List Word) (t4 : BitVec 24) (x : State), s.lkUp q = true ∧ cell.length = 32
      ∧ cellType cell = 2 ∧ fld (cellWord cell 1) 63 56 = 3 ∧ s.rxInOrder q cell = (x, false))
  ∧ (∃ (s : State) (q : Fin 256) (cell : List Word) (t4 : BitVec 24),
      (s.lkUp q = false ∨ cell.length ≠ 32 ∨ cellType cell ≠ 2 ∨ fld (cellWord cell 1) 63 56 ≠ 3))
  ∧ (∃ (s : State) (k : Fin 64), s.lsaHeld k = none)
  ∧ (∃ (s : State) (k : Fin 64), (s.lsaHeld k).isSome = true)
  ∧ (∃ (s : State) (q : Nat) (c : List Word), s.meshZ ≠ 0 ∧ s.alignSrc = 2 ∧ s.leader ≠ s.meshSelf ∧ s.routeTo s.leader = some q
      ∧ c = openCell 2 (ctlWord 2 s.meshSelf) (leBytes 4 (16 * s.time.pos)))
  ∧ (∃ (s : State), (s.meshZ = 0 ∨ s.alignSrc ≠ 2 ∨ s.leader = s.meshSelf ∨ s.routeTo s.leader = none))
  ∧ (∃ (s : State) (q : Fin 256) (cell : List Word) (t2 : BitVec 24) (t3 : BitVec 24) (x : State) (y : State) (c : List Word),
      s.lkUp q = true ∧ cell.length = 32 ∧ cellType cell = 2 ∧ fld (cellWord cell 1) 63 56 = 2
      ∧ s.rxInOrder q cell = (x, true) ∧ x.rxDelay q = 0 ∧ (x.lk q).held = [] ∧ y = x.freeBuf q 2
      ∧ (y.meshPeer q).isSome = true
      ∧ c = openCell 2 (ctlWord 3 y.meshSelf) (leBytes 4 (cellField cell 16 4) ++ leBytes 4 t2.toNat ++ leBytes 4 t3.toNat))
  ∧ (∃ (s : State) (q : Fin 256) (cell : List Word) (t4 : BitVec 24) (x : State) (y : State) (n : Int), s.lkUp q = true
      ∧ cell.length = 32 ∧ cellType cell = 2 ∧ fld (cellWord cell 1) 63 56 = 3 ∧ s.rxInOrder q cell = (x, true)
      ∧ x.rxDelay q = 0 ∧ (x.lk q).held = [] ∧ y = x.freeBuf q 2 ∧ (y.meshPeer q).isSome = true ∧ y.alignSrc = 2
      ∧ n = exchangeOfs (cellField cell 16 4) (cellField cell 20 4) (cellField cell 24 4) t4.toNat)
  ∧ (∃ (s : State) (q : Fin 256) (cell : List Word) (t4 : BitVec 24) (x : State) (y : State), s.lkUp q = true ∧ cell.length = 32
      ∧ cellType cell = 2 ∧ fld (cellWord cell 1) 63 56 = 3 ∧ s.rxInOrder q cell = (x, true) ∧ x.rxDelay q = 0
      ∧ (x.lk q).held = [] ∧ y = x.freeBuf q 2 ∧ (y.meshPeer q).isSome = true ∧ y.alignSrc ≠ 2) :=
  ⟨⟨up, 0, [], 5, 6, by decide +kernel⟩,
   ⟨meshUp 2, 64, ctlCell 3, 7, ((meshUp 2).rxInOrder 64 (ctlCell 3)).1,
       ((meshUp 2).rxInOrder 64 (ctlCell 3)).1.freeBuf 64 2, by decide +kernel⟩,
   ⟨{ meshUp 2 with links := { link := [(65, { held := [(9, cellOf 2, 0, 0, 0)] })] } }, 65, ctlCell 3, 7,
       (({ meshUp 2 with links := { link := [(65, { held := [(9, cellOf 2, 0, 0, 0)] })] } } : State).rxInOrder 65 (ctlCell 3)).1,
       by decide +kernel⟩,
   ⟨meshUp 2, 65, (ctlCell 3).set 5 1, 7, ((meshUp 2).rxInOrder 65 ((ctlCell 3).set 5 1)).1, by decide +kernel⟩,
   ⟨up, 0, [], 7, by decide +kernel⟩,
   ⟨{ meshUp 2 with time := { total := 750001 }, mesh := { lsas := [(1, some { (lsaOf (lsaCell 1 0)).2 with seenAt := 1 })] } },
       1, by decide +kernel⟩,
   ⟨{ meshUp 2 with time := { total := 750000 }, mesh := { lsas := [(1, some { (lsaOf (lsaCell 1 0)).2 with seenAt := 1 })] } },
       1, by decide +kernel⟩,
   ⟨meshUp 0x10002, 65, _,
       (by first | decide +kernel | rfl), (by first | decide +kernel | rfl), (by first | decide +kernel | rfl), (by first | decide +kernel | rfl), rfl⟩,
   ⟨meshUp 2, by decide +kernel⟩,
   ⟨meshUp 2, 65, ctlCell 2, 0xFFFFFF, 0, ((meshUp 2).rxInOrder 65 (ctlCell 2)).1,
       ((meshUp 2).rxInOrder 65 (ctlCell 2)).1.freeBuf 65 2,
       openCell 2 (ctlWord 3 0) (leBytes 4 (cellField (ctlCell 2) 16 4) ++ leBytes 4 0xFFFFFF ++ leBytes 4 0),
       by decide +kernel⟩,
   ⟨meshUp 0x10002, 65, ctlCell 3, 40, ((meshUp 0x10002).rxInOrder 65 (ctlCell 3)).1,
       ((meshUp 0x10002).rxInOrder 65 (ctlCell 3)).1.freeBuf 65 2,
       exchangeOfs (cellField (ctlCell 3) 16 4) (cellField (ctlCell 3) 20 4) (cellField (ctlCell 3) 24 4) 40,
       by decide +kernel⟩,
   ⟨meshUp 1, 65, ctlCell 3, 40, ((meshUp 1).rxInOrder 65 (ctlCell 3)).1,
       ((meshUp 1).rxInOrder 65 (ctlCell 3)).1.freeBuf 65 2, by decide +kernel⟩⟩

/-- States and operands that meet the hypotheses of further clauses of `Obligations.SalternKeepsItsView`. -/
theorem witness_SalternKeepsItsView_3 :
  (∃ (s : State) (phase : Int) (n : Int), s.meshZ ≠ 0 ∧ s.alignSrc = 1
      ∧ n = wrapOfs (-(phase - sfld (s.rd R.ALIGN_CFG) 39 8 * 3 / 125)))
  ∧ (∃ (s : State) (phase : Int) (n : Int), s.meshZ ≠ 0 ∧ s.alignSrc = 1
      ∧ n = wrapOfs (-(phase - sfld (s.rd R.ALIGN_CFG) 39 8 * 3 / 125)))
  ∧ (∃ (s : State) (phase : Int), (s.meshZ = 0 ∨ s.alignSrc ≠ 1))
  ∧ (∃ (s : State), s.mesh.measAt + 1500000 ≤ s.time.total)
  ∧ (∃ (s : State), s.time.total < s.mesh.measAt + 1500000) :=
  ⟨⟨{ meshUp 0x10001 with mesh := { aligned := true } }, 65, _,
       (by first | decide +kernel | rfl), (by first | decide +kernel | rfl), rfl⟩,
   ⟨meshUp 1, -33, _, (by first | decide +kernel | rfl), (by first | decide +kernel | rfl), rfl⟩,
   ⟨meshUp 2, 65, by decide +kernel⟩,
   ⟨{ meshUp 1 with time := { total := 1500000 }, mesh := { aligned := true } }, by decide +kernel⟩,
   ⟨{ meshUp 1 with time := { total := 1499999 }, mesh := { aligned := true } }, by decide +kernel⟩⟩

/-- States and operands that meet the hypotheses of the first clauses of `Obligations.SalternCarriesTransactions`. -/
theorem witness_SalternCarriesTransactions :
  (∃ (s : State) (r : XbarReq) (id : Nat) (k : Nat) (x : State) (y : State) (u : Txn) (row : MapRow) (q : Nat) (a : Nat),
      id = (s.request r.master r.secure r.write r.addr.toNat r.len r.data none .outside).1
      ∧ x = (s.request r.master r.secure r.write r.addr.toNat r.len r.data none .outside).2 ∧ pget x.xbar.txns id = some u
      ∧ u.port = 7
      ∧ y = { x with xbar := { x.xbar with winners := mset (fun _ => 8) x.xbar.winners u.port u.master, txns := pset x.xbar.txns id (some { u with gen := some (x.rdf R.FW_GEN 0 31 0) }) } }
      ∧ rowOfRange u.addr u.len = some row ∧ row.2.2 = .mesh k ∧ x.fwRefusal u.master u.secure u.write u.addr u.len = none
      ∧ k ≠ s.meshSelf ∧ bit s.partMask k = true ∧ s.routeTo k = some q ∧ a = u.addr % 2 ^ 40 ∧ 0 < r.len
      ∧ r.len ≤ 192 - a % 64 ∧ s.mesh.tags.length < 4096 ∧ s.mesh.nextTag < 4096 ∧ pget s.mesh.tags s.mesh.nextTag = none)
  ∧ (∃ (s : State) (r : XbarReq) (id : Nat) (k : Nat) (x : State) (y : State) (u : Txn) (row : MapRow),
      id = (s.request r.master r.secure r.write r.addr.toNat r.len r.data none .outside).1
      ∧ x = (s.request r.master r.secure r.write r.addr.toNat r.len r.data none .outside).2 ∧ pget x.xbar.txns id = some u
      ∧ u.port = 7
      ∧ y = { x with xbar := { x.xbar with winners := mset (fun _ => 8) x.xbar.winners u.port u.master, txns := pset x.xbar.txns id (some { u with gen := some (x.rdf R.FW_GEN 0 31 0) }) } }
      ∧ rowOfRange u.addr u.len = some row ∧ row.2.2 = .mesh k ∧ x.fwRefusal u.master u.secure u.write u.addr u.len = none
      ∧ (k ≠ s.meshSelf ∨ s.meshZ = 0) ∧ bit s.partMask k = true)
  ∧ (∃ (s : State) (r : XbarReq) (id : Nat) (k : Nat) (x : State) (y : State) (u : Txn) (row : MapRow),
      id = (s.request r.master r.secure r.write r.addr.toNat r.len r.data none .outside).1
      ∧ x = (s.request r.master r.secure r.write r.addr.toNat r.len r.data none .outside).2 ∧ pget x.xbar.txns id = some u
      ∧ u.port = 7
      ∧ y = { x with xbar := { x.xbar with winners := mset (fun _ => 8) x.xbar.winners u.port u.master, txns := pset x.xbar.txns id (some { u with gen := some (x.rdf R.FW_GEN 0 31 0) }) } }
      ∧ rowOfRange u.addr u.len = some row ∧ row.2.2 = .mesh k ∧ x.fwRefusal u.master u.secure u.write u.addr u.len = none
      ∧ (k ≠ s.meshSelf ∨ s.meshZ = 0) ∧ bit s.partMask k = false)
  ∧ (∃ (s : State) (r : XbarReq) (id : Nat) (k : Nat) (x : State) (y : State) (u : Txn) (row : MapRow),
      id = (s.request r.master r.secure r.write r.addr.toNat r.len r.data none .outside).1
      ∧ x = (s.request r.master r.secure r.write r.addr.toNat r.len r.data none .outside).2 ∧ pget x.xbar.txns id = some u
      ∧ u.port = 7
      ∧ y = { x with xbar := { x.xbar with winners := mset (fun _ => 8) x.xbar.winners u.port u.master, txns := pset x.xbar.txns id (some { u with gen := some (x.rdf R.FW_GEN 0 31 0) }) } }
      ∧ rowOfRange u.addr u.len = some row ∧ row.2.2 = .mesh k ∧ x.fwRefusal u.master u.secure u.write u.addr u.len = none
      ∧ k = s.meshSelf ∧ s.meshZ ≠ 0)
  ∧ (∃ (s : State) (r : XbarReq) (id : Nat) (k : Nat) (x : State) (y : State) (u : Txn) (row : MapRow) (c : Nat) (i : Nat),
      id = (s.request r.master r.secure r.write r.addr.toNat r.len r.data none .outside).1
      ∧ x = (s.request r.master r.secure r.write r.addr.toNat r.len r.data none .outside).2 ∧ pget x.xbar.txns id = some u
      ∧ u.port = 7
      ∧ y = { x with xbar := { x.xbar with winners := mset (fun _ => 8) x.xbar.winners u.port u.master, txns := pset x.xbar.txns id (some { u with gen := some (x.rdf R.FW_GEN 0 31 0) }) } }
      ∧ rowOfRange u.addr u.len = some row ∧ row.2.2 = .mesh k
      ∧ x.fwRefusal u.master u.secure u.write u.addr u.len = some (c, i))
  ∧ (∃ (s : State) (r : XbarReq) (id : Nat) (x : State) (u : Txn),
      id = (s.request r.master r.secure r.write r.addr.toNat r.len r.data none .outside).1
      ∧ x = (s.request r.master r.secure r.write r.addr.toNat r.len r.data none .outside).2 ∧ pget x.xbar.txns id = some u
      ∧ u.port ≠ 7)
  ∧ (∃ (s : State) (q : Nat) (c : List Word) (rest : List (Nat × List Word)) (x : State) (m : Nat) (a : Nat) (src : Nat) (tag : Nat) (n : Nat) (w : Bool) (sec : Bool) (id : Nat) (u : Txn) (y : State) (z : State),
      takeFirst isRequest s.mesh.inbox = some ((q, c), rest)
      ∧ x = { s with mesh := { s.mesh with inbox := rest } }.freeBuf q 3 ∧ m = fld (cellWord c 1) 59 56
      ∧ a = fld (cellWord c 1) 39 0 ∧ w = decide (fld (cellWord c 1) 63 62 = 1) ∧ sec = bit (cellWord c 1) 60
      ∧ src = fld (cellWord c 1) 55 50 ∧ tag = cellField c 16 2 % 4096
      ∧ n = (if fld (cellWord c 1) 63 62 = 1 then fld (cellWord c 0) 43 32 - 8 else cellField c 18 2) ∧ a < heapBytes
      ∧ x.fwRefusal m sec w a n = none
      ∧ id = (x.request m sec w a n (((cellBytes c).drop 24).take n) none (.mesh src tag m)).1
      ∧ y = (x.request m sec w a n (((cellBytes c).drop 24).take n) none (.mesh src tag m)).2 ∧ pget y.xbar.txns id = some u
      ∧ z = y.setTxn id (some { u with gen := some (s.rdf R.FW_GEN 0 31 0), addr := a, port := 0 })
      ∧ (w = false ∨ x.weightRefused a n = false)) :=
  ⟨⟨meshUp 2, meshReq 1, _, 1, _, _, meshTxn 1, (0x110000000000, 0x10000000000, .mesh 1), 65, 0x1000,
       rfl, rfl, (by first | decide +kernel | rfl), (by first | decide +kernel | rfl), rfl, (by first | decide +kernel | rfl), (by first | decide +kernel | rfl), (by first | decide +kernel | rfl), (by first | decide +kernel | rfl), (by first | decide +kernel | rfl), (by first | decide +kernel | rfl), (by first | decide +kernel | rfl), (by first | decide +kernel | rfl), (by first | decide +kernel | rfl), (by first | decide +kernel | rfl), (by first | decide +kernel | rfl), (by first | decide +kernel | rfl)⟩,
   ⟨meshUp 2, meshReq 1, _, 1, _, _, meshTxn 1, (0x110000000000, 0x10000000000, .mesh 1),
       rfl, rfl, (by first | decide +kernel | rfl), (by first | decide +kernel | rfl), rfl, (by first | decide +kernel | rfl), (by first | decide +kernel | rfl), (by first | decide +kernel | rfl), (by first | decide +kernel | rfl), (by first | decide +kernel | rfl)⟩,
   ⟨meshUp 2, meshReq 2, _, 2, _, _, meshTxn 2, (0x120000000000, 0x10000000000, .mesh 2),
       rfl, rfl, (by first | decide +kernel | rfl), (by first | decide +kernel | rfl), rfl, (by first | decide +kernel | rfl), (by first | decide +kernel | rfl), (by first | decide +kernel | rfl), (by first | decide +kernel | rfl), (by first | decide +kernel | rfl)⟩,
   ⟨meshUp 2, meshReq 0, _, 0, _, _, meshTxn 0, (0x100000000000, 0x10000000000, .mesh 0),
       rfl, rfl, (by first | decide +kernel | rfl), (by first | decide +kernel | rfl), rfl, (by first | decide +kernel | rfl), (by first | decide +kernel | rfl), (by first | decide +kernel | rfl), (by first | decide +kernel | rfl), (by first | decide +kernel | rfl)⟩,
   ⟨{ meshUp 2 with regs := (meshUp 2).regs ++ [(R.FW_CTRL.key 0, 3)] }, meshReq 1, _, 1, _, _, meshTxn 1,
       (0x110000000000, 0x10000000000, .mesh 1), 1, 63,
       rfl, rfl, (by first | decide +kernel | rfl), (by first | decide +kernel | rfl), rfl, (by first | decide +kernel | rfl), (by first | decide +kernel | rfl), (by first | decide +kernel | rfl)⟩,
   ⟨meshUp 2, { meshReq 1 with addr := 64 }, _, _, { meshTxn 1 with addr := 64, port := 0 },
       rfl, rfl, (by first | decide +kernel | rfl), (by first | decide +kernel | rfl)⟩,
   ⟨{ meshUp 2 with heap := { ctrl := [(0, { state := .ready })] }, mesh := { inbox := [(65, reqCell)] } }, 65, reqCell,
       [], _, _, _, _, _, _, _, _, _,
       { master := 2, secure := false, write := false, addr := 0, len := 64, data := List.replicate 64 0, qos := 4, waited := 0, port := 0, gen := none, left := 0, resp := none, origin := .mesh 1 9 2 },
       _, _,
       (by first | decide +kernel | rfl), rfl, rfl, rfl, rfl, rfl, rfl, rfl, rfl, (by first | decide +kernel | rfl), (by first | decide +kernel | rfl), rfl, rfl, (by first | decide +kernel | rfl), rfl, (by first | decide +kernel | rfl)⟩⟩

/-- States and operands that meet the hypotheses of further clauses of `Obligations.SalternCarriesTransactions`. -/
theorem witness_SalternCarriesTransactions_2 :
  (∃ (s : State) (q : Nat) (c : List Word) (rest : List (Nat × List Word)) (x : State) (m : Nat) (a : Nat) (src : Nat) (tag : Nat) (n : Nat) (w : Bool) (sec : Bool),
      takeFirst isRequest s.mesh.inbox = some ((q, c), rest)
      ∧ x = { s with mesh := { s.mesh with inbox := rest } }.freeBuf q 3 ∧ m = fld (cellWord c 1) 59 56
      ∧ a = fld (cellWord c 1) 39 0 ∧ w = decide (fld (cellWord c 1) 63 62 = 1) ∧ sec = bit (cellWord c 1) 60
      ∧ src = fld (cellWord c 1) 55 50 ∧ tag = cellField c 16 2 % 4096
      ∧ n = (if fld (cellWord c 1) 63 62 = 1 then fld (cellWord c 0) 43 32 - 8 else cellField c 18 2) ∧ a < heapBytes
      ∧ x.fwRefusal m sec w a n = none ∧ w = false ∧ 0 < n ∧ a % 64 + n ≤ 64 ∧ a + n ≤ heapBytes
      ∧ s.hasOpen 0 (hPch a) = true ∧ s.serves (hCtl a) = true ∧ s.bridgeRefuses (hCtl a) = false)
  ∧ (∃ (s : State) (q : Nat) (c : List Word) (rest : List (Nat × List Word)) (x : State) (m : Nat) (a : Nat) (src : Nat) (tag : Nat) (n : Nat) (w : Bool) (sec : Bool) (id : Nat) (u : Txn) (y : State) (z : State),
      takeFirst isRequest s.mesh.inbox = some ((q, c), rest)
      ∧ x = { s with mesh := { s.mesh with inbox := rest } }.freeBuf q 3 ∧ m = fld (cellWord c 1) 59 56
      ∧ a = fld (cellWord c 1) 39 0 ∧ w = decide (fld (cellWord c 1) 63 62 = 1) ∧ sec = bit (cellWord c 1) 60
      ∧ src = fld (cellWord c 1) 55 50 ∧ tag = cellField c 16 2 % 4096
      ∧ n = (if fld (cellWord c 1) 63 62 = 1 then fld (cellWord c 0) 43 32 - 8 else cellField c 18 2) ∧ a < heapBytes
      ∧ x.fwRefusal m sec w a n = none
      ∧ id = (x.request m sec w a n (((cellBytes c).drop 24).take n) none (.mesh src tag m)).1
      ∧ y = (x.request m sec w a n (((cellBytes c).drop 24).take n) none (.mesh src tag m)).2 ∧ pget y.xbar.txns id = some u
      ∧ z = y.setTxn id (some { u with gen := some (s.rdf R.FW_GEN 0 31 0), addr := a, port := 0 }) ∧ w = true
      ∧ x.weightRefused a n = true)
  ∧ (∃ (s : State) (q : Nat) (c : List Word) (rest : List (Nat × List Word)) (x : State) (m : Nat) (a : Nat) (src : Nat) (tag : Nat) (n : Nat) (w : Bool) (sec : Bool),
      takeFirst isRequest s.mesh.inbox = some ((q, c), rest)
      ∧ x = { s with mesh := { s.mesh with inbox := rest } }.freeBuf q 3 ∧ m = fld (cellWord c 1) 59 56
      ∧ a = fld (cellWord c 1) 39 0 ∧ w = decide (fld (cellWord c 1) 63 62 = 1) ∧ sec = bit (cellWord c 1) 60
      ∧ src = fld (cellWord c 1) 55 50 ∧ tag = cellField c 16 2 % 4096
      ∧ n = (if fld (cellWord c 1) 63 62 = 1 then fld (cellWord c 0) 43 32 - 8 else cellField c 18 2) ∧ heapBytes ≤ a)
  ∧ (∃ (s : State) (q : Nat) (c : List Word) (rest : List (Nat × List Word)) (x : State) (m : Nat) (a : Nat) (src : Nat) (tag : Nat) (n : Nat) (w : Bool) (sec : Bool) (k : Nat) (i : Nat),
      takeFirst isRequest s.mesh.inbox = some ((q, c), rest)
      ∧ x = { s with mesh := { s.mesh with inbox := rest } }.freeBuf q 3 ∧ m = fld (cellWord c 1) 59 56
      ∧ a = fld (cellWord c 1) 39 0 ∧ w = decide (fld (cellWord c 1) 63 62 = 1) ∧ sec = bit (cellWord c 1) 60
      ∧ src = fld (cellWord c 1) 55 50 ∧ tag = cellField c 16 2 % 4096
      ∧ n = (if fld (cellWord c 1) 63 62 = 1 then fld (cellWord c 0) 43 32 - 8 else cellField c 18 2) ∧ a < heapBytes
      ∧ x.fwRefusal m sec w a n = some (k, i))
  ∧ (∃ (s : State), takeFirst isRequest s.mesh.inbox = none)
  ∧ (∃ (s : State) (q : Nat) (tag : Nat) (c : List Word) (rest : List (Nat × List Word)) (x : State) (m : MeshTag) (y : Txn),
      takeFirst (fun z => !isRequest z) s.mesh.inbox = some ((q, c), rest)
      ∧ x = { s with mesh := { s.mesh with inbox := rest } }.freeBuf q 3 ∧ tag = cellField c 16 2 % 4096
      ∧ pget s.mesh.tags tag = some m ∧ pget s.xbar.txns m.txn = some y ∧ y.resp = none ∧ bit (cellWord c 1) 61 = false
      ∧ y.write = false ∧ y.left = 1)
  ∧ (∃ (s : State) (q : Nat) (tag : Nat) (c : List Word) (rest : List (Nat × List Word)) (x : State) (m : MeshTag) (y : Txn),
      takeFirst (fun z => !isRequest z) s.mesh.inbox = some ((q, c), rest)
      ∧ x = { s with mesh := { s.mesh with inbox := rest } }.freeBuf q 3 ∧ tag = cellField c 16 2 % 4096
      ∧ pget s.mesh.tags tag = some m ∧ pget s.xbar.txns m.txn = some y ∧ y.resp = none ∧ bit (cellWord c 1) 61 = true)
  ∧ (∃ (s : State) (q : Nat) (tag : Nat) (c : List Word) (rest : List (Nat × List Word)) (x : State),
      takeFirst (fun z => !isRequest z) s.mesh.inbox = some ((q, c), rest)
      ∧ x = { s with mesh := { s.mesh with inbox := rest } }.freeBuf q 3 ∧ tag = cellField c 16 2 % 4096)
  ∧ (∃ (s : State), takeFirst (fun z => !isRequest z) s.mesh.inbox = none)
  ∧ (∃ (s : State) (tag : Fin 4096) (m : MeshTag) (y : Txn), pget s.mesh.tags tag = some m ∧ pget s.xbar.txns m.txn = some y
      ∧ y.resp = none ∧ m.since + 1500 * s.rdf R.MESH_TMO 0 15 0 ≤ s.time.total)
  ∧ (∃ (s : State) (tag : Fin 4096) (m : MeshTag), pget s.mesh.tags tag = some m
      ∧ m.since + 1500 * s.rdf R.MESH_TMO 0 15 0 ≤ s.time.total)
  ∧ (∃ (s : State) (tag : Fin 4096),
      ((pget s.mesh.tags tag).all fun m => decide (s.time.total < m.since + 1500 * s.rdf R.MESH_TMO 0 15 0)) = true) :=
  ⟨⟨{ meshUp 2 with heap := { ctrl := [(0, { state := .ready })] }, mesh := { inbox := [(65, reqCell)] } }, 65, reqCell,
       [], _, _, _, _, _, _, _, _,
       (by first | decide +kernel | rfl), rfl, rfl, rfl, rfl, rfl, rfl, rfl, rfl, (by first | decide +kernel | rfl), (by first | decide +kernel | rfl), (by first | decide +kernel | rfl), (by first | decide +kernel | rfl), (by first | decide +kernel | rfl), (by first | decide +kernel | rfl), (by first | decide +kernel | rfl), (by first | decide +kernel | rfl), (by first | decide +kernel | rfl)⟩,
   ⟨{ meshUp 2 with mesh := { inbox := [(65, putCell)] }, regs := (meshUp 2).regs ++ [(R.WT_SIZE.key 0, 4)] }, 65,
       putCell, [], _, _, _, _, _, _, _, _, _,
       { master := 2, secure := false, write := true, addr := 0, len := 64, data := List.replicate 64 7, qos := 4, waited := 0, port := 0, gen := none, left := 0, resp := none, origin := .mesh 1 9 2 },
       _, _,
       (by first | decide +kernel | rfl), rfl, rfl, rfl, rfl, rfl, rfl, rfl, rfl, (by first | decide +kernel | rfl), (by first | decide +kernel | rfl), rfl, rfl, (by first | decide +kernel | rfl), rfl, (by first | decide +kernel | rfl), (by first | decide +kernel | rfl)⟩,
   ⟨{ meshUp 2 with mesh := { inbox := [(65, farCell)] } }, 65, farCell, [], _, _, _, _, _, _, _, _,
       (by first | decide +kernel | rfl), rfl, rfl, rfl, rfl, rfl, rfl, rfl, rfl, (by first | decide +kernel | rfl)⟩,
   ⟨{ meshUp 2 with mesh := { inbox := [(65, reqCell)] }, regs := (meshUp 2).regs ++ [(R.FW_CTRL.key 0, 3)] }, 65,
       reqCell, [], _, _, _, _, _, _, _, _, 1, 63,
       (by first | decide +kernel | rfl), rfl, rfl, rfl, rfl, rfl, rfl, rfl, rfl, (by first | decide +kernel | rfl), (by first | decide +kernel | rfl)⟩,
   ⟨{ meshUp 2 with mesh := { inbox := [(65, rspCell false)] } }, by decide +kernel⟩,
   ⟨tagAt [(65, rspCell false)], 65, _, rspCell false, [], _, { txn := 0, ofs := 0, len := 64, since := 0 },
       { meshTxn 1 with left := 1, data := List.replicate 64 0, gen := some 0 },
       (by first | decide +kernel | rfl), rfl, rfl, (by first | decide +kernel | rfl), (by first | decide +kernel | rfl), (by first | decide +kernel | rfl), (by first | decide +kernel | rfl), (by first | decide +kernel | rfl), (by first | decide +kernel | rfl)⟩,
   ⟨tagAt [(65, rspCell true)], 65, _, rspCell true, [], _, { txn := 0, ofs := 0, len := 64, since := 0 },
       { meshTxn 1 with left := 1, data := List.replicate 64 0, gen := some 0 },
       (by first | decide +kernel | rfl), rfl, rfl, (by first | decide +kernel | rfl), (by first | decide +kernel | rfl), (by first | decide +kernel | rfl), (by first | decide +kernel | rfl)⟩,
   ⟨tagAt [(65, rspCell true)], 65, _, rspCell true, [], _, (by first | decide +kernel | rfl), rfl, rfl⟩,
   ⟨meshUp 2, by decide +kernel⟩,
   ⟨{ tagAt [] with time := { total := 100000000 } }, 9, { txn := 0, ofs := 0, len := 64, since := 0 },
       { meshTxn 1 with left := 1, data := List.replicate 64 0, gen := some 0 }, by decide +kernel⟩,
   ⟨{ tagAt [] with time := { total := 100000000 } }, 9, { txn := 0, ofs := 0, len := 64, since := 0 },
       by decide +kernel⟩,
   ⟨meshUp 2, 9, by decide +kernel⟩⟩

/-- States and operands that meet the hypotheses of further clauses of `Obligations.SalternCarriesTransactions`. -/
theorem witness_SalternCarriesTransactions_3 :
  (∃ (s : State) (tag : Fin 4096),
      ((pget s.mesh.tags tag).all fun m => decide (s.time.total < m.since + 1500 * s.rdf R.MESH_TMO 0 15 0)) = true) :=
  ⟨tagAt [], 9, by decide +kernel⟩

/-- States and operands that meet the hypotheses of the first clauses of `Obligations.BitternRecordsAndSummarizes`. -/
theorem witness_BitternRecordsAndSummarizes :
  (∃ (s : State) (n : Nat) (x : State) (l : Latch) (ws : List Word), s.bitt.nextAt = some n ∧ x = s.waitTo (6 * n)
      ∧ x.bitt.pick x.rclk = some l ∧ ws = l.entry x.bitt.wseq (mget (fun _ => 0) x.bitt.suppressed l.src) ∧ l.fatal = false)
  ∧ (∃ (s : State) (n : Nat) (x : State) (l : Latch) (ws : List Word), s.bitt.nextAt = some n ∧ x = s.waitTo (6 * n)
      ∧ x.bitt.pick x.rclk = some l ∧ ws = l.entry x.bitt.wseq (mget (fun _ => 0) x.bitt.suppressed l.src) ∧ l.fatal = false)
  ∧ (∃ (s : State) (n : Nat) (x : State) (l : Latch) (ws : List Word), s.bitt.nextAt = some n ∧ x = s.waitTo (6 * n)
      ∧ x.bitt.pick x.rclk = some l ∧ ws = l.entry x.bitt.wseq (mget (fun _ => 0) x.bitt.suppressed l.src) ∧ l.fatal = false)
  ∧ (∃ (s : State) (n : Nat) (x : State) (l : Latch) (ws : List Word), s.bitt.nextAt = some n ∧ x = s.waitTo (6 * n)
      ∧ x.bitt.pick x.rclk = some l ∧ ws = l.entry x.bitt.wseq (mget (fun _ => 0) x.bitt.suppressed l.src) ∧ l.fatal = true
      ∧ x.bitt.ffHeld = false)
  ∧ (∃ (s : State) (n : Nat) (x : State) (l : Latch) (ws : List Word), s.bitt.nextAt = some n ∧ x = s.waitTo (6 * n)
      ∧ x.bitt.pick x.rclk = some l ∧ ws = l.entry x.bitt.wseq (mget (fun _ => 0) x.bitt.suppressed l.src) ∧ l.fatal = true
      ∧ x.bitt.ffHeld = false)
  ∧ (∃ (s : State) (n : Nat) (x : State) (l : Latch) (ws : List Word), s.bitt.nextAt = some n ∧ x = s.waitTo (6 * n)
      ∧ x.bitt.pick x.rclk = some l ∧ ws = l.entry x.bitt.wseq (mget (fun _ => 0) x.bitt.suppressed l.src) ∧ l.fatal = true
      ∧ x.bitt.ffHeld = true)
  ∧ (∃ (s : State), s.bitt.latches = [])
  ∧ (∃ (s : State) (a : Agent) (v : Word), s.accepts a 0x0B R.ERR_RSEQ.off v = true)
  ∧ (∃ (s : State) (a : Agent), s.accepts a 0x0B R.ERR_CMD.off 4 = true)
  ∧ (∃ (s : State) (a : Agent), s.accepts a 0x0B R.ERR_CMD.off 2 = true)
  ∧ (∃ (s : State) (a : Agent), s.accepts a 0x0B R.ERR_CMD.off 1 = true
      ∧ (s.bitt.lastFatal.all fun z => decide (z.1 ≠ s.rclk)) = true)
  ∧ (∃ (s : State) (a : Agent), s.accepts a 0x0B R.ERR_CMD.off 1 = true
      ∧ (s.bitt.lastFatal.all fun z => decide (z.1 ≠ s.rclk)) = true) :=
  ⟨⟨{ up with bitt := { latches := [latchOf false], wseq := 4095 } }, 1,
       ({ up with bitt := { latches := [latchOf false], wseq := 4095 } } : State).waitTo (6 * 1), latchOf false,
       (latchOf false : Latch).entry ({ latches := [latchOf false], wseq := 4095 } : Bittern).wseq 0,
       by decide +kernel⟩,
   ⟨{ up with bitt := { latches := [latchOf false], wseq := 4096 } }, 1,
       ({ up with bitt := { latches := [latchOf false], wseq := 4096 } } : State).waitTo (6 * 1), latchOf false,
       (latchOf false : Latch).entry ({ latches := [latchOf false], wseq := 4096 } : Bittern).wseq 0,
       by decide +kernel⟩,
   ⟨{ up with bitt := { latches := [latchOf false], wseq := 4095, recAt := 3 } }, 3,
       ({ up with bitt := { latches := [latchOf false], wseq := 4095, recAt := 3 } } : State).waitTo (6 * 3),
       latchOf false,
       (latchOf false : Latch).entry ({ latches := [latchOf false], wseq := 4095, recAt := 3 } : Bittern).wseq 0,
       by decide +kernel⟩,
   ⟨{ early with bitt := { latches := [latchOf false, latchOf true], wseq := 7, rseq := 7 } }, 1,
       ({ early with bitt := { latches := [latchOf false, latchOf true], wseq := 7, rseq := 7 } } : State).waitTo (6 * 1),
       latchOf true,
       (latchOf true : Latch).entry ({ latches := [latchOf false, latchOf true], wseq := 7, rseq := 7 } : Bittern).wseq 0,
       by decide +kernel⟩,
   ⟨{ up with bitt := { latches := [latchOf false, latchOf true], wseq := 7, rseq := 7 }, regs := [(R.CQ_CH.key 0 3, 0x8000600700000100)] },
       1,
       ({ up with bitt := { latches := [latchOf false, latchOf true], wseq := 7, rseq := 7 }, regs := [(R.CQ_CH.key 0 3, 0x8000600700000100)] } : State).waitTo (6 * 1),
       latchOf true,
       (latchOf true : Latch).entry ({ latches := [latchOf false, latchOf true], wseq := 7, rseq := 7 } : Bittern).wseq 0,
       by decide +kernel⟩,
   ⟨{ up with bitt := { latches := [latchOf true], ffHeld := true } }, 1,
       ({ up with bitt := { latches := [latchOf true], ffHeld := true } } : State).waitTo (6 * 1), latchOf true,
       (latchOf true : Latch).entry ({ latches := [latchOf true], ffHeld := true } : Bittern).wseq 0,
       by decide +kernel⟩,
   ⟨up, by decide +kernel⟩,
   ⟨{ up with bitt := { wseq := 7, rseq := 3 }, regs := hostOn 0x0B 0 }, .host, 5, by decide +kernel⟩,
   ⟨up, .secure, by decide +kernel⟩,
   ⟨{ up with bitt := { wseq := 7, rseq := 3 } }, .secure, by decide +kernel⟩,
   ⟨{ up with bitt := { ffHeld := true }, regs := [(R.FF_W0.key 0, 9)] }, .secure, by decide +kernel⟩,
   ⟨{ up with bitt := { ffHeld := true, lastFatal := some (4, [9]) }, regs := (R.FF_W0.key 0, 9) :: hostOn 0x0B 0 },
       .host, by decide +kernel⟩⟩

/-- States and operands that meet the hypotheses of further clauses of `Obligations.BitternRecordsAndSummarizes`. -/
theorem witness_BitternRecordsAndSummarizes_2 :
  (∃ (s : State) (a : Agent) (ws : List Word), s.accepts a 0x0B R.ERR_CMD.off 1 = true ∧ s.bitt.lastFatal = some (s.rclk, ws)
      ∧ s.bitt.ffHeld = true ∧ s.rd R.FF_W0 = ws.getD 0 0)
  ∧ (∃ (s : State) (a : Agent) (ws : List Word), s.accepts a 0x0B R.ERR_CMD.off 1 = true ∧ s.bitt.lastFatal = some (s.rclk, ws)
      ∧ (s.bitt.ffHeld = false ∨ s.rd R.FF_W0 ≠ ws.getD 0 0))
  ∧ (∃ (s : State) (x : State) (n : Nat) (k : Nat), s.bitt.sumDue = true ∧ s.supervised = true ∧ s.tam.hold = false
      ∧ x = s.waitTo ((s.bitt.sumLast.map fun m => (m + 60) * sclkSec).getD 0) ∧ k = (if x.sumPlace = some 0 then 1 else 0)
      ∧ n = x.sumPlace.elim 1 (fun j => (x.nv.nvm.word (sumBase j + 8)).toNat + 1))
  ∧ (∃ (s : State), (s.bitt.sumDue = false ∨ s.supervised = false ∨ s.tam.hold = true)) :=
  ⟨⟨{ up with bitt := { ffHeld := true, lastFatal := some (0, [9]) }, regs := [(R.FF_W0.key 0, 9)] }, .secure, [9],
       by decide +kernel⟩,
   ⟨{ up with bitt := { ffHeld := true, lastFatal := some (0, [9, 1, 2, 3, 4, 5]) }, regs := [(R.FF_W0.key 0, 8)] },
       .secure, [9, 1, 2, 3, 4, 5], by decide +kernel⟩,
   ⟨{ up with bitt := { sumDue := true } }, { up with bitt := { sumDue := true } }, 1, 0, by decide +kernel⟩,
   ⟨up, by decide +kernel⟩⟩

/-- States and operands that meet the hypotheses of the first clauses of `Obligations.TestModeSelfTestAndTap`. -/
theorem witness_TestModeSelfTestAndTap :
  (∃ (s : State) (a : Agent) (v : Word), s.accepts a 0x5E R.TEST_CTRL.off v = true ∧ bit v 0 = true)
  ∧ (∃ (s : State) (a : Agent) (v : Word), s.accepts a 0x5E R.TEST_CTRL.off v = true ∧ s.testMode = true ∧ bit v 0 = false)
  ∧ (∃ (s : State) (a : Agent) (v : Word), s.accepts a 0x5E R.TEST_CTRL.off v = true ∧ s.testMode = false ∧ bit v 0 = false)
  ∧ (∃ (s : State) (a : Agent) (group : Fin 16), s.accepts a 0x5E R.BIST_CMD.off (word (0x10 + group)) = true)
  ∧ (∃ (s : State) (failing : List Nat) (g : Nat) (bad : List Nat) (y : State), s.test.bist = some g
      ∧ bad = (failing.filter (fun z => decide (z < bistCount g))).eraseDups
      ∧ y = { s with test := { s.test with bist := none } } ∧ bad = [])
  ∧ (∃ (s : State) (failing : List Nat) (g : Nat) (bad : List Nat) (y : State), s.test.bist = some g
      ∧ bad = (failing.filter (fun z => decide (z < bistCount g))).eraseDups
      ∧ y = { s with test := { s.test with bist := none } } ∧ bad = [])
  ∧ (∃ (s : State) (failing : List Nat) (g : Nat) (bad : List Nat) (y : State), s.test.bist = some g
      ∧ bad = (failing.filter (fun z => decide (z < bistCount g))).eraseDups
      ∧ y = { s with test := { s.test with bist := none } } ∧ bad = [])
  ∧ (∃ (s : State) (failing : List Nat) (g : Nat) (bad : List Nat) (y : State), s.test.bist = some g
      ∧ bad = (failing.filter (fun z => decide (z < bistCount g))).eraseDups
      ∧ y = { s with test := { s.test with bist := none } } ∧ bad ≠ [])
  ∧ (∃ (s : State) (failing : List Nat) (g : Nat) (bad : List Nat) (y : State), s.test.bist = some g
      ∧ bad = (failing.filter (fun z => decide (z < bistCount g))).eraseDups
      ∧ y = { s with test := { s.test with bist := none } } ∧ bad ≠ [])
  ∧ (∃ (s : State) (failing : List Nat) (g : Nat) (bad : List Nat) (y : State), s.test.bist = some g
      ∧ bad = (failing.filter (fun z => decide (z < bistCount g))).eraseDups
      ∧ y = { s with test := { s.test with bist := none } } ∧ bad ≠ [])
  ∧ (∃ (s : State) (failing : List Nat) (g : Nat) (bad : List Nat) (y : State), s.test.bist = some g
      ∧ bad = (failing.filter (fun z => decide (z < bistCount g))).eraseDups
      ∧ y = { s with test := { s.test with bist := none } } ∧ bad ≠ [])
  ∧ (∃ (s : State) (failing : List Nat) (g : Nat) (bad : List Nat) (y : State), s.test.bist = some g
      ∧ bad = (failing.filter (fun z => decide (z < bistCount g))).eraseDups
      ∧ y = { s with test := { s.test with bist := none } } ∧ bad ≠ []) :=
  ⟨⟨{ up with regs := hostOn 0x5E 0 }, .host, 1, by decide +kernel⟩,
   ⟨{ up with regs := hostOn 0x5E 0 ++ [(R.TEST_CTRL.key 0, 1), (R.TP_DMA.key 0, 5), (regKey 0 0x48 0 hPerturb, 3)] },
       .host, 0, by decide +kernel⟩,
   ⟨{ up with regs := hostOn 0x5E 0 }, .host, 0, by decide +kernel⟩,
   ⟨{ up with regs := hostOn 0x5E 0 ++ [(R.TEST_CTRL.key 0, 1)] }, .host, 4, by decide +kernel⟩,
   ⟨{ up with test := { bist := some 4 } }, [], 4, [], { up with test := {} }, by decide +kernel⟩,
   ⟨{ up with test := { bist := some 3 } }, [9, 2], 3, [], { up with test := {} }, by decide +kernel⟩,
   ⟨{ up with test := { bist := some 0 } }, [], 0, [], { up with test := {} }, by decide +kernel⟩,
   ⟨{ up with test := { bist := some 0 } }, [7, 300, 3, 7], 0, [7, 3], { up with test := {} }, by decide +kernel⟩,
   ⟨{ up with test := { bist := some 3 } }, [1], 3, [1], { up with test := {} }, by decide +kernel⟩,
   ⟨{ up with test := { bist := some 2 } }, [5], 2, [5], { up with test := {} }, by decide +kernel⟩,
   ⟨{ up with test := { bist := some 1 } }, [5], 1, [5], { up with test := {} }, by decide +kernel⟩,
   ⟨{ up with test := { bist := some 4 } }, [287], 4, [287], { up with test := {} }, by decide +kernel⟩⟩

/-- States and operands that meet the hypotheses of further clauses of `Obligations.TestModeSelfTestAndTap`. -/
theorem witness_TestModeSelfTestAndTap_2 :
  (∃ (s : State) (failing : List Nat), s.test.bist = none)
  ∧ (∃ (s : State) (op : BitVec 8), holdOp op = holdOp s.test.tap)
  ∧ (∃ (s : State) (op : BitVec 8), holdOp op = holdOp s.test.tap)
  ∧ (∃ (s : State) (op : BitVec 8) (y : State), holdOp op = true ∧ holdOp s.test.tap = false ∧ s.pwr.coreUp = true
      ∧ y = s.drained)
  ∧ (∃ (s : State) (op : BitVec 8), holdOp op = true ∧ holdOp s.test.tap = false ∧ s.pwr.coreUp = false)
  ∧ (∃ (s : State) (op : BitVec 8), holdOp op = false ∧ holdOp s.test.tap = true
      ∧ ({ s with pwr := { s.pwr with scanHold := false } } : State).coreMayRun = false ∧ s.pwr.coreUp = false)
  ∧ (∃ (s : State) (op : BitVec 8), holdOp op = false ∧ holdOp s.test.tap = true
      ∧ ({ s with pwr := { s.pwr with scanHold := false } } : State).coreMayRun = true ∧ s.pwr.coreUp = false)
  ∧ (∃ (s : State), holdOp s.test.tap = false)
  ∧ (∃ (s : State), holdOp s.test.tap = true ∧ ({ s with pwr := { s.pwr with scanHold := false } } : State).coreMayRun = false
      ∧ s.pwr.coreUp = false)
  ∧ (∃ (s : State), holdOp s.test.tap = true ∧ ({ s with pwr := { s.pwr with scanHold := false } } : State).coreMayRun = true
      ∧ s.pwr.coreUp = false) :=
  ⟨⟨up, [1], by decide +kernel⟩,
   ⟨up, 0x10, by decide +kernel⟩,
   ⟨{ up with test := { tap := 0x04 }, pwr := { up.pwr with scanHold := true, coreUp := false } }, 0x03,
       by decide +kernel⟩,
   ⟨up, 0x00, up, by decide +kernel⟩,
   ⟨{ up with pwr := { up.pwr with coreUp := false, state := .standby } }, 0x05, by decide +kernel⟩,
   ⟨{ up with test := { tap := 0x04 }, pwr := { up.pwr with scanHold := true, coreUp := false, warmN := false, state := .held } },
       0xFF, by decide +kernel⟩,
   ⟨{ up with test := { tap := 0x04 }, regs := [(R.TMP_CFG.key 0, 0)], pwr := { up.pwr with scanHold := true, coreUp := false, state := .boot } },
       0xFF, by decide +kernel⟩,
   ⟨{ up with test := { tap := 0x10 } }, by decide +kernel⟩,
   ⟨{ up with test := { tap := 0x04 }, pwr := { up.pwr with scanHold := true, coreUp := false, warmN := false, state := .held } },
       by decide +kernel⟩,
   ⟨{ up with test := { tap := 0x04 }, regs := [(R.TMP_CFG.key 0, 0)], pwr := { up.pwr with scanHold := true, coreUp := false, state := .boot } },
       by decide +kernel⟩⟩


-- Witnesses of the statements about every step and every command.

/-- A queue's front command, and an empty queue (`Obligations.StepRunsTheFrontCommand`). -/
theorem witness_StepRunsTheFrontCommand :
    (∃ s : State, s.pending = [.tideBoundary]) ∧ ∃ s : State, s.pending = [] :=
  ⟨⟨{ up with pending := [.tideBoundary] }, rfl⟩, ⟨up, rfl⟩⟩

/-- A machine whose page `DEV` shows its events, with some bits of `EVT_ROUTE` and a state of the endpoint: a write that it
rejects raises a bit of `EVT_SUM_LO`. -/
def routed (route : Nat) (p : Pcie) : State :=
  { up with regs := [(regKey 0 0 0 hEvtEn, 0xFFFFFFFF), (R.EVT_ROUTE.key 0, word route)], pcie := p }
/-- That write. -/
def badWrite : Instr := .registerWrite [{ agent := .host, page := 0, off := 0xFF8, value := 1 }]
/-- The state that it leaves before the signals of the RCLK. -/
def badAfter (s : State) : State := s.writeAll [{ agent := .host, page := 0, off := 0xFF8, value := 1 }]

/-- No rise, then a rise without `MSIX_EN`, masked, sent, and with no leave to send (`Obligations.EveryCommandSignalsItsEvents`). -/
theorem witness_EveryCommandSignalsItsEvents :
    (∃ c s x t, exec c s = done s x ∧ done s x = .next t ∧ risen s.evtSumLo t.evtSumLo = 0 ∧ risen s.evtSumHi t.evtSumHi = 0)
    ∧ (∃ c s x t, exec c s = done s x ∧ done s x = .next t ∧ risen s.evtSumLo t.evtSumLo = 1 ∧ t.rdb R.EVT_ROUTE 0 0 = false)
    ∧ (∃ c s x t, exec c s = done s x ∧ done s x = .next t ∧ risen s.evtSumLo t.evtSumLo = 1 ∧ t.rdb R.EVT_ROUTE 0 0 = true
      ∧ t.pcie.msixEn = true ∧ (t.msixOf (t.rdf R.EVT_ROUTE 0 42 32)).masked = true)
    ∧ (∃ c s x t, exec c s = done s x ∧ done s x = .next t ∧ risen s.evtSumLo t.evtSumLo = 1 ∧ t.rdb R.EVT_ROUTE 0 0 = true
      ∧ t.pcie.msixEn = true ∧ (t.msixOf (t.rdf R.EVT_ROUTE 0 42 32)).masked = false ∧ t.pcie.maskAll = false
      ∧ t.pcieMaster = true)
    ∧ (∃ c s x t, exec c s = done s x ∧ done s x = .next t ∧ risen s.evtSumLo t.evtSumLo = 1 ∧ t.rdb R.EVT_ROUTE 0 0 = true
      ∧ t.pcie.msixEn = true ∧ (t.msixOf (t.rdf R.EVT_ROUTE 0 42 32)).masked = false ∧ t.pcie.maskAll = false
      ∧ t.pcieMaster = false) :=
  ⟨⟨.swap, up, _, _, rfl, rfl, by decide +kernel⟩,
   ⟨badWrite, routed 0 {}, badAfter (routed 0 {}), _, rfl, rfl, by decide +kernel⟩,
   ⟨badWrite, routed 0x300000001 { msixEn := true }, badAfter (routed 0x300000001 { msixEn := true }), _, rfl, rfl,
    by decide +kernel⟩,
   ⟨badWrite, routed 0x300000001 { up := true, bme := true, msixEn := true, table := [(3, { addr := 64, data := 5, masked := false })] },
    badAfter (routed 0x300000001 { up := true, bme := true, msixEn := true, table := [(3, { addr := 64, data := 5, masked := false })] }),
    _, rfl, rfl, by decide +kernel⟩,
   ⟨badWrite, routed 0x300000001 { up := true, msixEn := true, table := [(3, { addr := 64, data := 5, masked := false })] },
    badAfter (routed 0x300000001 { up := true, msixEn := true, table := [(3, { addr := 64, data := 5, masked := false })] }),
    _, rfl, rfl, by decide +kernel⟩⟩

/-- A rise whose message is masked, and one whose message the function may not send. -/
theorem witness_MessagesThatMayNotLeave :
    (∃ c s x t, exec c s = done s x ∧ done s x = .next t ∧ risen s.evtSumLo t.evtSumLo = 1 ∧ t.rdb R.EVT_ROUTE 0 0 = true
      ∧ t.pcie.msixEn = true ∧ (t.msixOf (t.rdf R.EVT_ROUTE 0 42 32)).masked = true)
    ∧ (∃ c s x t, exec c s = done s x ∧ done s x = .next t ∧ risen s.evtSumLo t.evtSumLo = 1 ∧ t.rdb R.EVT_ROUTE 0 0 = true
      ∧ t.pcie.msixEn = true ∧ (t.msixOf (t.rdf R.EVT_ROUTE 0 42 32)).masked = false ∧ t.pcie.maskAll = false
      ∧ t.pcieMaster = false) :=
  ⟨witness_EveryCommandSignalsItsEvents.2.2.1, witness_EveryCommandSignalsItsEvents.2.2.2.2⟩

/-- An unsupervised core with its condition recorded, and a step (`Obligations.ConditionsAreRecorded`). -/
theorem witness_ConditionsAreRecorded :
    ∃ s t : State, s.condsKept ∧ s.pwr.coreUp = true ∧ s.condBits = 4 ∧ step s = .next t :=
  ⟨{ up with sup := {}, sched := { conds := [(0, 0, 4)] } }, _, fun _ _ => ⟨0, 4, [], rfl, rfl⟩, rfl, rfl, rfl⟩

/-- A member of a saltern of three that sees itself alone, and a step (`Obligations.ViewIsTracked`). -/
theorem witness_ViewIsTracked :
    ∃ s t : State, s.viewKept ∧ s.meshZ = 3 ∧ s.primaryView = false ∧ step s = .next t :=
  ⟨{ up with regs := [(R.MESH_CFG.key 0, 0x300000000)] }, _, by unfold State.viewKept; decide +kernel, rfl, by decide +kernel, rfl⟩

/-- Channel 3 with an authenticated session 5 that has no rights, or with a pending one. -/
def rightless (auth : Bool) : State :=
  { up with cmds := { session := [(3, some { authOf with auth := auth, rights := 0 })] } }

/-- Commands in each case of `Obligations.CommandsNeedTheirRights`: of no session, of a session, for time, security and update,
in expert form, and of a pending session. -/
theorem witness_CommandsNeedTheirRights :
    (∃ (s : State) (c : Nat) (r : CmdRun) (row : YelRow), r.row = some row ∧ s.tam.hold = false
      ∧ r.badForm row (s.image.map fun _ => s.chanC) = false ∧ row.rights = .none ∧ r.expert = false)
    ∧ (∃ (s : State) (c : Nat) (r : CmdRun) (row : YelRow), r.row = some row ∧ s.tam.hold = false
      ∧ r.badForm row (s.image.map fun _ => s.chanC) = false ∧ row.rights ≠ .none ∧ pget s.cmds.session c = none)
    ∧ (∀ q ∈ [(0x301, Rights.time), (0x701, .security), (0x606, .update)], ∃ (s : State) (c : Nat) (r : CmdRun) (row : YelRow)
      (x : Session), r.row = some row ∧ s.tam.hold = false ∧ r.badForm row (s.image.map fun _ => s.chanC) = false
      ∧ pget s.cmds.session c = some x ∧ x.auth = true ∧ x.id = r.sess ∧ r.opcode = q.1 ∧ row.rights = q.2 ∧ x.rights = 0)
    ∧ (∃ (s : State) (c : Nat) (r : CmdRun) (row : YelRow) (x : Session), r.row = some row ∧ s.tam.hold = false
      ∧ r.badForm row (s.image.map fun _ => s.chanC) = false ∧ pget s.cmds.session c = some x ∧ x.auth = true ∧ x.id = r.sess
      ∧ row.rights = .session ∧ r.expert = true ∧ x.rights.testBit 0 = false)
    ∧ (∃ (s : State) (c : Nat) (r : CmdRun) (x : Session) (ch : List Byte), s.pendingSession c r = some (x, ch)) :=
  ⟨⟨up, 3, cmdOf 0 [], _, rfl, rfl, by decide +kernel⟩,
   ⟨up, 3, cmdOf 0x100 [], _, rfl, rfl, by decide +kernel⟩,
   by
    intro q hq
    simp only [List.mem_cons, List.not_mem_nil, or_false] at hq
    rcases hq with rfl | rfl | rfl
    · exact ⟨rightless true, 3, cmdOf 0x301 [], _, _, rfl, rfl, by decide +kernel, rfl, by decide +kernel⟩
    · exact ⟨rightless true, 3, cmdOf 0x701 [], _, _, rfl, rfl, by decide +kernel, rfl, by decide +kernel⟩
    · exact ⟨rightless true, 3, cmdOf 0x606 [], _, _, rfl, rfl, by decide +kernel, rfl, by decide +kernel⟩,
   ⟨rightless true, 3, cmdOf 0x100 [] true, _, _, rfl, rfl, by decide +kernel, rfl, by decide +kernel⟩,
   ⟨rightless false, 3, cmdOf 0x11 [], _, _, rfl⟩⟩

-- The worked examples of the spec.

/-- The state that a command leaves. -/
def after (c : Instr) (s : State) : State :=
  match exec c s with
  | .next t => t
  | _ => s

/-- The worked example of spec/03, RCLK 0: host and normal supervisor write `SCRATCH`; the supervisor's write stands, the
host's is recorded. -/
theorem test_conflict_and_its_record :
    let t := after (.registerWrite [{ agent := .host, page := 0, off := 0x150, value := 0x1111 },
      { agent := .normal, page := 0, off := 0x150, value := 0x2222 }]) up
    t.rd R.SCRATCH = 0x2222 ∧ t.hdr 0 hReject = 0x0001080002000150 ∧ t.rd R.LAST_REJECT = 0x0001080002000150 := by
  decide +kernel

/-- The same example, RCLK 2: writing the record back clears it, and `LAST_REJECT` stays. -/
theorem test_record_clears_by_ones :
    let t := after (.registerWrite [{ agent := .host, page := 0, off := 0x020, value := 0x0001080002000150 }])
      { up with regs := [(regKey 0 0 0 hReject, 0x0001080002000150), (R.LAST_REJECT.key 0, 0x0001080002000150)] }
    t.hdr 0 hReject = 0 ∧ t.rd R.LAST_REJECT = 0x0001080002000150 := by
  decide +kernel

/-- The worked example of spec/04: a cancel two tides before the arm's is rejected with `E_STATE`. -/
theorem test_late_cancel :
    let t := after (.armCancel .host)
      { up with time := { up.time with tide := 2400098, pos := 27000, epoch := 3 }
                sched := { st1 := .armed, pend := some { halt := false, store := 1, stress := false, tide := 2400100, epoch := 3 } } }
    t.hdr 0x10 hReject = 0x0001040002000150 ∧ t.sched.pend.isSome = true ∧ t.sched.cancel = false := by
  decide +kernel

/-- The worked example of spec/08: controller, pseudo-channel, bank and row of unit 77's pond word. -/
theorem test_pond_word_address :
    hCtl 0x1D21000000 = 77 ∧ (let a := 77 * 0x60000000 + 1345516544
      hCtl a = 77 ∧ hPch a = 155 ∧ hIn a = 672757760 ∧ heapBank a = 30 ∧ heapRow a = 20530) := by
  decide +kernel

/-- The worked example of spec/11: while copy 1 is in use, a read in copy 0 is served from copy 1. -/
theorem test_weight_copy :
    State.redirect { up with regs := [(R.WT_SIZE.key 0, 8388608), (R.WT_BASE.key 0, 1000), (R.WT_STAT.key 0, 1)] }
      ((1000 + 6101326) * 64) = (1000 + 14489934) * 64 := by
  decide +kernel

/-- The worked example of spec/14: the holdover value from the window's 600 seconds. -/
theorem test_holdover_value : divEven (300 * 1234567 + 300 * 1234601) 600 = 1234584 := by decide +kernel

/-- The worked example of spec/17: word 0 of record 7,301. -/
theorem test_calibration_record :
    (State.salWords { up with regs := [(R.RES_WSEQ.key 0, 7301)]
                              sal := { urg := some (true, 0), entry := 2, input := 9 } }
      (List.replicate 2 { code := 5, ovr := false, settling := false })).head? = some 0x00001C8542480000 := by
  decide +kernel

/-- The worked example of spec/19: words 0 of entries 100 and 101, and word 1 of the second. -/
theorem test_bittern_entries :
    (Latch.entry { src := 0x42 * 65536 + 13 * 256 + 0x0D, fatal := true, coalesced := 0, tide := 0, epoch := 0, slot := 0
                   d0 := 0, d1 := 0, sec := 0 } 100 0).head? = some 0x000000640DC20D00
    ∧ (Latch.entry { src := 0x40 * 65536 + 5 * 256 + 0x0E, fatal := false, coalesced := 1, tide := 0, epoch := 0, slot := 0
                     d0 := 0, d1 := 0, sec := 0 } 101 0).take 2 = [0x000000650E400500, 0x0000000100000000] := by
  decide +kernel

/-- The worked example of spec/19: the order of collection after a record of page 0x5D. -/
theorem test_collection_order :
    let l (p b c : Nat) (f : Bool) : Latch := { src := p * 65536 + b * 256 + c, fatal := f, coalesced := 0, tide := 0, epoch := 0
                                                slot := 0, d0 := 0, d1 := 0, sec := 0 }
    let b : Bittern := { latches := [l 0x40 5 0x0E false, l 0x41 2 0x0E false, l 0x42 13 0x0D true]
                         posOther := some (0x5D * 65536) }
    (b.pick 1).map (·.src) = some (0x42 * 65536 + 13 * 256 + 0x0D)
    ∧ (Bittern.pick { b with latches := b.latches.take 2 } 1).map (·.src) = some (0x40 * 65536 + 5 * 256 + 0x0E) := by
  decide +kernel

/-- The tables of R518 and R519: what an instruction selects, and the first and last pins of the boundary register's groups. -/
theorem test_boundary_register :
    tapReg 0x01 = .boundary ∧ tapReg 0x03 = .bypass ∧ tapReg 0x10 = .debugPort ∧ tapReg 0xFF = .bypass
    ∧ boundaryPin 2047 = some (.laneRx 1023) ∧ boundaryPin 2079 = some (.pcieRx 15) ∧ boundaryPin 2127 = some (.gpio 15 2)
    ∧ boundaryPin 2130 = some (.timeOut 1 0) ∧ boundaryPin 2137 = some (.input 5) ∧ boundaryPin 2143 = some (.openDrain 2 1)
    ∧ boundaryPin 2148 = some (.reference 4) ∧ boundaryPin 2149 = none := by
  decide +kernel

-- Ill-formed commands, one for each check of `Instr.wf`, and a well-formed neighbour where the check is a bound.

/-- Pins, register accesses and group writes. -/
theorem wf_refuses_accesses :
    Instr.wf (.pinContention []) = false ∧ Instr.wf (.pinContention [3, 3]) = false ∧ Instr.wf (.pinContention [3, 4]) = true
    ∧ Instr.wf (.registerWrite []) = false
    ∧ Instr.wf (.registerWrite [{ agent := .host, page := 0, off := 8 }, { agent := .host, page := 0, off := 16 }]) = false
    ∧ Instr.wf (.registerWrite [{ agent := .host, page := 0, off := 8, size := 0 }]) = false
    ∧ Instr.wf (.registerWrite [{ agent := .host, page := 0, off := 8, size := 9 }]) = false
    ∧ Instr.wf (.groupHeldWrite { agent := .host, page := 0, off := 4095, size := 2 }) = false
    ∧ Instr.wf (.groupHeadWrite { agent := .host, page := 0, off := 4092 }) = false
    ∧ Instr.wf (.groupHeadWrite { agent := .host, page := 0, off := 4088 }) = true
    ∧ Instr.wf (.refusedRead { agent := .host, page := 0, off := 0, size := 16 }) = false := by
  decide +kernel

/-- Stores and the heap. -/
theorem wf_refuses_heap :
    Instr.wf (.storeWindowWrite 2 0 0 []) = false ∧ Instr.wf (.storeWindowWrite 2 0 16777215 [1, 2]) = false
    ∧ Instr.wf (.heapSlotTransfer 0 0 [{ k := 85, corrected := 0, uncorrectable := false }] false) = false
    ∧ Instr.wf (.heapSlotTransfer 0 0 [{ k := 84, corrected := 9, uncorrectable := false }] false) = false
    ∧ Instr.wf (.openSlotService 0 0 [{ k := 90, corrected := 8, uncorrectable := true }]) = false
    ∧ Instr.wf (.heapOpenRequest { master := 2, secure := false, write := true, addr := 0, len := 2, data := [1] } 0) = false
    ∧ Instr.wf (.heapOpenRequest { master := 2, secure := false, write := false, addr := 0xFFF, len := 2, data := [] } 0) = false
    ∧ Instr.wf (.heapOpenRequest { master := 2, secure := false, write := false, addr := 0, len := 0, data := [] } 0) = false
    ∧ Instr.wf (.trimSlot 0 0 [1]) = false ∧ Instr.wf (.heapTrainDone 0 [] 25) = false := by
  decide +kernel

/-- Cells and frames. -/
theorem wf_refuses_cells :
    Instr.wf (.sampleCellRx 0 []) = false ∧ Instr.wf (.psumCellRx 0 [0]) = false
    ∧ Instr.wf (.controlCellRx 0 (List.replicate 33 0)) = false ∧ Instr.wf (.meshCellRx 0 [0]) = false
    ∧ Instr.wf (.fillerCellRx 0 [0]) = false ∧ Instr.wf (.lsaReceive 0 [0]) = false ∧ Instr.wf (.alignReq 0 [0] 1 2) = false
    ∧ Instr.wf (.alignRsp 0 [0] 1) = false ∧ Instr.wf (.malformedCellRx 0 (.cutShort (List.replicate 32 0))) = false
    ∧ Instr.wf (.skewRetrain ⟨0, []⟩) = false ∧ Instr.wf (.skewRetrain ⟨0, [2, 2]⟩) = false
    ∧ Instr.wf (.skewRetrain ⟨0, [2, 3]⟩) = true ∧ Instr.wf (.sampleCellRx 0 (List.replicate 32 0)) = true
    ∧ Instr.wf (.ethFrameReceive 0 [] { codeErr := false, corrected := 0, uncorrectable := 0 }) = false := by
  decide +kernel

/-- The host's bus, the references and the saltern. -/
theorem wf_refuses_bus :
    Instr.wf (.pcieInboundRequest { bar := 0, off := 0, len := 0, write := false, data := [] }) = false
    ∧ Instr.wf (.pcieInboundRequest { bar := 0, off := 0, len := 4097, write := false, data := [] }) = false
    ∧ Instr.wf (.pcieInboundRequest { bar := 0, off := 0, len := 8, write := false, data := [1] }) = false
    ∧ Instr.wf (.pcieOutboundCompletion 0 .failed [1]) = false ∧ Instr.wf (.pcieLinkUp 0 16) = false
    ∧ Instr.wf (.pcieLinkUp 5 3) = false ∧ Instr.wf (.pcieLinkUp 5 16) = true
    ∧ Instr.wf (.freqWindow (List.replicate 8 0)) = false
    ∧ Instr.wf (.meshRequest { master := 2, secure := false, write := true, addr := 0, len := 1, data := [] }) = false := by
  decide +kernel

/-- Commands' buffers: `hostWf` bounds what host memory answers, for every command that reads an argument buffer. -/
theorem wf_refuses_buffers (c : Fin 16) (host : Option (List Byte)) (h : hostWf host = false) :
    ∀ i ∈ [Instr.commandTakeup c host, .commandEntryRetry c host, .sessionAuth c host, .imageLoad c host, .delayModels c host,
      .gains c host, .window c host, .destTable c host, .updateChunk ⟨c, true⟩ host, .fwRules c host, .opkeySet ⟨c, true⟩ host],
      i.wf = false := by
  simp [Instr.wf, h]

/-- A buffer longer than the largest that a command names. -/
theorem wf_refuses_long_buffer (bs : List Byte) (h : 16777216 < bs.length) : hostWf (some bs) = false := by
  simp [hostWf, h]

/-- The debug port, the salinometer and the self-test. -/
theorem wf_refuses_diagnostics :
    Instr.wf (.debugUnlock [1]) = false ∧ Instr.wf (.salDwellEnd []) = false ∧ Instr.wf (.urgentDone []) = false
    ∧ Instr.wf (.salConverged [1, 2, 3, 4, 5]) = false ∧ Instr.wf (.bistDone [288]) = false
    ∧ Instr.wf (.bistDone [1, 1]) = false ∧ Instr.wf (.bistDone [0, 287]) = true := by
  decide +kernel

end Sys2Proof.Machine
end

/-! PROOFS. What registers and headers read at reset, and the settlement of `Obligations.ResetState`. -/

namespace Sys2Proof.Machine

/-- A key's page, when each part of the key fits its field. -/
theorem keyPage_regKey {a page bank off : Nat} (hp : page < 128) (hb : bank < 256) (ho : off < 4096) :
    keyPage (regKey a page bank off) = page := by
  unfold keyPage regKey
  omega

/-- A key's offset. -/
theorem regKey_mod {a page bank off : Nat} (ho : off < 4096) : regKey a page bank off % 4096 = off := by
  unfold regKey
  omega

/-- At reset no key is listed, so each reads what an unlisted key does. -/
theorem reset_getReg (k : Nat) : State.reset.getReg k = resetAt (keyPage k) (k % 4096) := rfl

theorem reset_getReg_regKey {a page bank off : Nat} (hp : page < 128) (hb : bank < 256) (ho : off < 4096) :
    State.reset.getReg (regKey a page bank off) = resetAt page off := by
  rw [reset_getReg, keyPage_regKey hp hb ho, regKey_mod ho]

/-- The reset value of a register's table (R52). -/
theorem resetAt_of_findReg {page off k : Nat} {r : Reg} (ho : 0x100 ≤ off) (h : findReg page off = some (r, k)) :
    resetAt page off = word (r.reset + k * r.resetStep) := by
  simp [resetAt, Nat.not_lt.mpr ho, h]

/-- The reset value of `PG_CTRL`: `ENABLE` alone, and that only where it always reads 1 (R61). -/
theorem resetAt_hCtrl {page : Nat} {p : PageInfo} (h : pageInfo page = some p) :
    resetAt page hCtrl = if p.always then 1 else 0 := by
  simp [resetAt, hCtrl, h]

/-- The register tables list unit `u`'s `k`-th register of a descriptor where the descriptor's key puts it. -/
abbrev Reg.ListedAt (r : Reg) (u k : Nat) : Prop :=
  r.page + u / r.banks < 128 ∧ u % r.banks / r.share * r.share < 256
    ∧ 0x100 ≤ r.off + k * r.stride ∧ r.off + k * r.stride < 4096
    ∧ findReg (r.page + u / r.banks) (r.off + k * r.stride) = some (r, k)

theorem reset_rd {r : Reg} {u k : Nat} (h : r.ListedAt u k) : State.reset.rd r u k = word (r.reset + k * r.resetStep) := by
  obtain ⟨hp, hb, hlo, hhi, hf⟩ := h
  exact (reset_getReg_regKey hp hb hhi).trans (resetAt_of_findReg hlo hf)

theorem reset_enabled {page : Nat} {b : Bool} (hp : page < 128) (h : (pageInfo page).map (·.always) = some b) :
    State.reset.enabled page = b := by
  obtain ⟨p, hpage, rfl⟩ := Option.map_eq_some_iff.mp h
  have hdr : State.reset.hdr page hCtrl = if p.always then 1 else 0 :=
    (reset_getReg_regKey hp (by decide) (by decide)).trans (resetAt_hCtrl hpage)
  rw [State.enabled, hdr]
  cases p.always <;> rfl

theorem reset_rd_PRIO : State.reset.rd R.PRIO = 0x06543210 := reset_rd (by decide +kernel)
theorem reset_rd_WTR : State.reset.rd R.WTR = 300 := reset_rd (by decide +kernel)
theorem reset_rd_SEL_CFG : State.reset.rd R.SEL_CFG = 0xC00 := reset_rd (by decide +kernel)
theorem reset_rd_UNSUP_LIMIT : State.reset.rd R.UNSUP_LIMIT = 600 := reset_rd (by decide +kernel)
theorem reset_rd_MESH_CFG : State.reset.rd R.MESH_CFG = 0 := reset_rd (by decide +kernel)

/-- `MESH_CFG` names no saltern at reset (R489). -/
theorem reset_meshZ : State.reset.meshZ = 0 := by
  rw [State.meshZ, State.rdf, reset_rd_MESH_CFG]
  rfl

/-- The core does not run at reset, so no condition has to be in the record. -/
theorem reset_condsKept : State.reset.condsKept := fun hup => absurd hup Bool.false_ne_true

/-- The device is in no saltern at reset, so there is no view to track. -/
theorem reset_viewKept : State.reset.viewKept := fun hz => absurd reset_meshZ hz

/-- Settles O59: the registers by `reset_getReg` and `reset_rd`, the headers by `reset_enabled`, the two invariants because
the core is down and the device stands alone, every other part by its default. -/
theorem resetState : Obligations.ResetState := by
  unfold Obligations.ResetState
  refine ⟨?porN, ?coreUp, ?run, ?role, reset_getReg, reset_rd_PRIO, reset_rd_WTR, reset_rd_SEL_CFG, reset_rd_UNSUP_LIMIT,
    reset_rd_MESH_CFG, ?dev, ?mesh, reset_condsKept, reset_viewKept, ?empty⟩
  case dev => exact reset_enabled (by decide) (by decide +kernel)
  case mesh => exact reset_enabled (by decide) (by decide +kernel)
  case empty => exact ⟨rfl, rfl, rfl, rfl, rfl, rfl, rfl, rfl, rfl, rfl⟩
  all_goals rfl

end Sys2Proof.Machine

/-! PROOFS. Every command ends in `done`, which brings the record of R12's conditions up to date, and the settlement of
`Obligations.ConditionsAreRecorded`. -/

namespace Sys2Proof.Machine

/-- What is added to the runs of conditions stands in the newest run, which reaches to the tide in progress. -/
theorem addConds_newest {t f : Nat} (hf : f ≠ 0) :
    ∀ cs, ∃ a g rest, addConds t f cs = (a, t, g) :: rest ∧ f ||| g = g
  | [] => ⟨t, f, [], by simp [addConds, hf]⟩
  | (a, b, g) :: rest => by
    rw [addConds, if_neg hf]
    split
    · rename_i hb
      subst hb
      split
      · rename_i hg
        exact ⟨a, g, rest, rfl, by rw [Nat.or_comm, hg]⟩
      · have hself : f ||| (g ||| f) = g ||| f := by rw [Nat.or_comm g, ← Nat.or_assoc, Nat.or_self]
        split
        · exact ⟨b, g ||| f, rest, rfl, hself⟩
        · exact ⟨b, g ||| f, (a, b - 1, g) :: rest, rfl, hself⟩
    · split
      · rename_i hg
        exact ⟨a, g, rest, rfl, by rw [hg.2, Nat.or_self]⟩
      · exact ⟨t, f, (a, b, g) :: rest, rfl, Nat.or_self f⟩

/-- The signals and the view's tracking have no bearing on R12's conditions. -/
@[simp] theorem finish_condBits (s0 s1 : State) : (s0.finish s1).condBits = s1.condBits := by
  simp only [State.condBits, finish_mesh_role, finish_time, finish_sup]

/-- What `State.finish` makes of the record of conditions. -/
@[simp] theorem finish_conds (s0 s1 : State) :
    (s0.finish s1).sched.conds = addConds s1.time.tide s1.condBits s1.sched.conds := by
  obtain ⟨since, regs, hm, -⟩ := meshTrack_spec s0 s1
  obtain ⟨pba, sent, hs, -⟩ := signal_spec s0 (State.meshTrack s0 s1).condTrack
  rw [State.finish, hs, hm]
  rfl

/-- A command's end records every condition that holds, whatever the command has done. -/
theorem finish_condsKept (s0 s1 : State) : (s0.finish s1).condsKept := by
  intro _ hc
  rw [finish_conds, finish_condBits, finish_time]
  rw [finish_condBits] at hc
  exact addConds_newest hc _

/-- Every command ends in `done`: of the arms of `exec` two choose between two such ends. -/
theorem exec_eq_done (c : Instr) (s : State) : ∃ y x, exec c s = done y x := by
  cases c
  case warmNAssert t =>
    show ∃ y x, execWarmNAssert t s = done y x
    unfold execWarmNAssert
    split <;> exact ⟨_, _, rfl⟩
  case perstNAssert =>
    show ∃ y x, execPerstNAssert s = done y x
    unfold execPerstNAssert
    split <;> exact ⟨_, _, rfl⟩
  all_goals exact ⟨_, _, rfl⟩

/-- Every step ends in `done`, a command's or that of an SCLK with none waiting. -/
theorem step_eq_done (s : State) : ∃ y x, step s = done y x := by
  unfold step
  split
  · exact ⟨_, _, rfl⟩
  · exact exec_eq_done _ _

/-- Settles O57: a step ends in `State.finish`, and that leaves the conditions recorded, whatever stood in the record. -/
theorem conditionsAreRecorded : Obligations.ConditionsAreRecorded := by
  unfold Obligations.ConditionsAreRecorded
  intro s t _ hstep
  obtain ⟨y, x, hd⟩ := step_eq_done s
  obtain rfl : y.finish x = t := Host.Outcome.next.inj (hd.symm.trans hstep)
  exact finish_condsKept y x

end Sys2Proof.Machine

/-! PROOFS. Registers told apart by their offsets, what a register reads when a command has ended, fields of words, tables of
which a range is replaced, and the one write that a port makes alone. -/

namespace Sys2Proof.Machine

/-- The offset of a register's key. -/
theorem Reg.key_mod {r : Reg} {u k a : Nat} (h : r.off + k * r.stride < 4096) : r.key u k a % 4096 = r.off + k * r.stride :=
  regKey_mod h

/-- A register beyond its page's header, within the page (R51, R57). -/
abbrev Reg.InPage (r : Reg) (k : Nat := 0) : Prop := 0x100 ≤ r.off + k * r.stride ∧ r.off + k * r.stride < 4096

/-- Registers at different offsets have different keys. -/
theorem Reg.key_ne_key {r q : Reg} {u k a w j b : Nat} (hr : r.InPage k) (hq : q.InPage j)
    (h : r.off + k * r.stride ≠ q.off + j * q.stride) : r.key u k a ≠ q.key w j b := by
  intro he
  exact h (by rw [← Reg.key_mod (u := u) (a := a) hr.2, ← Reg.key_mod (u := w) (a := b) hq.2, he])

/-- No register beyond a header is a header's. -/
theorem Reg.key_ne_hdr {r : Reg} {u k a page off : Nat} (hr : r.InPage k) (ho : off < 0x100) :
    r.key u k a ≠ regKey 0 page 0 off := by
  intro he
  have h := congrArg (· % 4096) he
  simp only [Reg.key_mod hr.2, regKey_mod (show off < 4096 by omega)] at h
  have := hr.1
  omega

theorem Reg.key_ne_agreeKey {r : Reg} {u k a : Nat} (hr : r.InPage k) : r.key u k a ≠ agreeKey :=
  Reg.key_ne_hdr hr (by decide)

/-- Header registers of different pages have different keys. -/
theorem hdr_ne_hdr {page page' off off' : Nat} (hp : page < 128) (hp' : page' < 128) (ho : off < 4096) (ho' : off' < 4096)
    (h : page ≠ page') : regKey 0 page 0 off ≠ regKey 0 page' 0 off' := by
  intro he
  exact h (by rw [← keyPage_regKey (a := 0) hp (by decide : 0 < 256) ho, he, keyPage_regKey hp' (by decide) ho'])

/-- A unit's register reads the same when a command has ended. -/
theorem finish_rd {s0 s1 : State} {r : Reg} {u k : Nat} (hr : r.InPage k) : (s0.finish s1).rd r u k = s1.rd r u k :=
  finish_getReg_ne (Reg.key_ne_agreeKey hr)

theorem finish_rdAgent {s0 s1 : State} {r : Reg} {u : Nat} {a : Agent} (hr : r.InPage) :
    (s0.finish s1).rdAgent r u a = s1.rdAgent r u a :=
  finish_getReg_ne (Reg.key_ne_agreeKey hr)

theorem finish_rdb {s0 s1 : State} {r : Reg} {u i : Nat} (hr : r.InPage) : (s0.finish s1).rdb r u i = s1.rdb r u i := by
  rw [State.rdb, finish_rd hr, State.rdb]

theorem finish_rdf {s0 s1 : State} {r : Reg} {u hi lo : Nat} (hr : r.InPage) :
    (s0.finish s1).rdf r u hi lo = s1.rdf r u hi lo := by
  rw [State.rdf, finish_rd hr, State.rdf]

/-- The header registers of the other pages read the same when a command has ended. -/
theorem finish_hdr {s0 s1 : State} {page off : Nat} (hp : page < 128) (ho : off < 4096) (h : page ≠ 0x5D) :
    (s0.finish s1).hdr page off = s1.hdr page off :=
  finish_getReg_ne (hdr_ne_hdr hp (by decide) ho (by decide) h)

@[simp] theorem rd_wr_self (s : State) (r : Reg) (u k : Nat) (v : Word) : (s.wr r u v k).rd r u k = v :=
  getReg_setReg_self s _ v

/-- A register at another offset than the one written. -/
theorem rd_wr_ne {s : State} {r q : Reg} {u k w j : Nat} {v : Word} (hr : r.InPage k) (hq : q.InPage j)
    (h : q.off + j * q.stride ≠ r.off + k * r.stride) : (s.wr r u v k).rd q w j = s.rd q w j :=
  getReg_setReg_ne (Reg.key_ne_key hq hr h)

theorem bit_setBit {w : Word} {i : Nat} (h : i < 64) : bit (setBit w i) i = true := by
  rw [bit, setBit, BitVec.getLsbD_or, BitVec.getLsbD_ofNat, Nat.testBit_two_pow_self]
  simp [h]

theorem rd_congr {s t : State} (h : t.regs = s.regs) (r : Reg) (u k : Nat) : t.rd r u k = s.rd r u k := getReg_congr h _

/-- An event bit raised writes no register beyond the header, and stands in it (R63). -/
theorem rd_raise {s : State} {r : Reg} {u k g i : Nat} (hr : r.InPage k) : (s.raise g i).rd r u k = s.rd r u k :=
  getReg_setReg_ne (Reg.key_ne_hdr hr (by decide))

theorem hdr_raise {s : State} {g i : Nat} (h : i < 64) : bit ((s.raise g i).hdr g hEvt) i = true := by
  rw [State.raise, State.hdr, State.setHdr, getReg_setReg_self]
  exact bit_setBit h

@[simp] theorem rdAgent_wrAgent_self (s : State) (r : Reg) (u : Nat) (a : Agent) (v : Word) :
    (s.wrAgent r u a v).rdAgent r u a = v := getReg_setReg_self s _ v

theorem Only.wrAgent {K : Nat → Prop} {ps : List Part} {s t : State} {r : Reg} {u : Nat} {a : Agent} (v : Word)
    (hk : K (r.key u 0 (1 + a.code))) (h : Only K ps s t) : Only K ps s (t.wrAgent r u a v) := Only.setReg v hk h

/-- A change of listed parts and registers leaves the other registers and parts. -/
theorem Only.getReg {K : Nat → Prop} {ps : List Part} {s t : State} (h : Only K ps s t) {k : Nat} (hk : ¬K k) :
    t.getReg k = s.getReg k := h.1 k hk

theorem Only.same {K : Nat → Prop} {ps : List Part} {s t : State} (h : Only K ps s t) {p : Part} (hp : p ∉ ps) :
    p.same s t := h.2.1 p hp

theorem Only.sent {K : Nat → Prop} {ps : List Part} {s t : State} (h : Only K ps s t) : s.sent <:+ t.sent := h.2.2

/-- The low field of a word after it was replaced. -/
theorem fld_setFld_low {w : Word} {h v : Nat} (hh : h < 64) : fld (setFld w h 0 v) h 0 = v % 2 ^ (h + 1) := by
  have hd : 2 ^ (h + 1) ∣ 2 ^ 64 := Nat.pow_dvd_pow 2 (by omega)
  have hq : w.toNat - w.toNat % 2 ^ (h + 1) = 2 ^ (h + 1) * (w.toNat / 2 ^ (h + 1)) := by
    have := Nat.div_add_mod w.toNat (2 ^ (h + 1))
    omega
  simp only [fld, setFld, BitVec.toNat_ofNat, pow_zero, Nat.div_one, Nat.sub_zero, Nat.mul_one]
  rw [Nat.mod_mod_of_dvd _ hd, hq, Nat.mul_add_mod_self_left, Nat.mod_mod]

/-- A field is less than the power of its width. -/
theorem fld_lt (w : Word) (hi lo : Nat) : fld w hi lo < 2 ^ (hi + 1 - lo) := Nat.mod_lt _ (Nat.two_pow_pos _)

/-- A field of one bit. -/
theorem fld_bit (w : Word) (i : Nat) : fld w i i = (bit w i).toNat := by
  rw [fld, bit, BitVec.getLsbD, Nat.toNat_testBit, show i + 1 - i = 1 by omega, pow_one]

@[simp] theorem bit_clrBit_self (w : Word) : bit (clrBit w 0) 0 = false := by simp [bit, clrBit]

/-- A number kept by a field of its width is the number of the word's low bits. -/
theorem ofNat_fld_low (w : Word) (n : Nat) : BitVec.ofNat (n + 1) (fld w n 0) = BitVec.ofNat (n + 1) w.toNat := by
  apply BitVec.eq_of_toNat_eq
  simp [fld]

/-- What a map reads at a key depends on its default at that key alone. -/
theorem mget_congr {α : Type} {d d' : Nat → α} {k : Nat} (h : d k = d' k) : ∀ m : Map α, mget d m k = mget d' m k
  | [] => h
  | e :: m => by simp only [mget, mget_congr h m]

/-- The first of two maps put together comes before the second. -/
theorem mget_append {α : Type} (d : Nat → α) (n : Map α) (k : Nat) : ∀ m : Map α, mget d (m ++ n) k = mget (mget d n) m k
  | [] => rfl
  | e :: m => by simp only [List.cons_append, mget, mget_append d n k m]

/-- The entries whose keys meet a condition. -/
theorem mget_filter {α : Type} (d : Nat → α) (p : Nat → Bool) (k : Nat) :
    ∀ m : Map α, mget d (m.filter fun e => p e.1) k = if p k then mget d m k else d k
  | [] => by simp [mget]
  | e :: m => by
    have ih := mget_filter d p k m
    by_cases hk : e.1 = k
    · subst hk
      by_cases hp : p e.1 <;> simp_all [mget]
    · by_cases hp : p e.1 <;> simp_all [mget]

/-- A table of which a range is replaced by another table's entries there. -/
theorem mget_setRange {α : Type} (d : Nat → α) (lo n : Nat) (m m' : Map α) (k : Nat) :
    mget d (setRange lo n m (inRange lo n m')) k = if lo ≤ k ∧ k < lo + n then mget d m' k else mget d m k := by
  have hmid (d' : Nat → α) : mget d' (inRange lo n m') k = if lo ≤ k ∧ k < lo + n then mget d' m' k else d' k :=
    (mget_filter d' (fun i => decide (lo ≤ i) && decide (i < lo + n)) k m').trans (by simp)
  have hlow (d' : Nat → α) : mget d' (m.filter fun e => e.1 < lo) k = if k < lo then mget d' m k else d' k := by
    simpa using mget_filter d' (fun i => decide (i < lo)) k m
  have hhigh (d' : Nat → α) : mget d' (m.filter fun e => decide (lo + n ≤ e.1)) k = if lo + n ≤ k then mget d' m k else d' k := by
    simpa using mget_filter d' (fun i => decide (lo + n ≤ i)) k m
  rw [setRange, List.append_assoc, mget_append, hlow, mget_append, hmid, hhigh]
  by_cases h1 : k < lo
  · have hd : mget d (inRange lo n m' ++ m.filter fun e => decide (lo + n ≤ e.1)) k = d k := by
      rw [mget_append, hmid, if_neg (by omega), hhigh, if_neg (by omega)]
    rw [if_pos h1, if_neg (by omega)]
    exact mget_congr hd m
  · by_cases h2 : k < lo + n
    · rw [if_neg h1, if_pos (by omega), if_pos (by omega)]
      exact mget_congr (by rw [hhigh, if_neg (by omega)]) m'
    · have hout : ¬(lo ≤ k ∧ k < lo + n) := fun h => h2 h.2
      rw [if_neg h1, if_neg hout, if_neg hout, if_pos (by omega)]

/-- A table filled from a base on. -/
theorem mget_fill {α : Type} [DecidableEq α] (d : Nat → α) (base : Nat) (f : Nat → α) (m : Map α) (i : Nat) :
    ∀ c, mget d ((List.range c).foldl (fun m n => mset d m (base + n) (f n)) m) (base + i)
      = if i < c then f i else mget d m (base + i)
  | 0 => by simp
  | c + 1 => by
    rw [List.range_succ, List.foldl_append, List.foldl_cons, List.foldl_nil, mget_mset, mget_fill d base f m i c]
    by_cases h : i = c
    · simp [h]
    · have : (i < c + 1) ↔ (i < c) := by omega
      simp [h, this]

/-- The write that an agent's port makes alone in its RCLK. -/
def soleWrite (a : Agent) (page off : Nat) (v : Word) : Access :=
  { agent := a, page := Fin.ofNat 128 page, off := Fin.ofNat 4096 off, value := v }

/-- An accepted write made alone has its effect, and where it changes the firewall's rules the generation steps on (R364). -/
theorem write1_of_accepts {s : State} {a : Agent} {page off : Nat} {v : Word} (h : s.accepts a page off v = true) :
    s.write1 a page off v = (let w := soleWrite a page off v
      if isFwChange w then (s.writePut w).fwChange else s.writePut w) := by
  simp only [State.accepts, Bool.and_eq_true, Bool.or_eq_true, Option.isNone_iff_eq_none, List.isEmpty_iff, bne_iff_ne] at h
  obtain ⟨⟨hserved, hcode⟩, hhost⟩ := h
  have hport : s.portWrites [soleWrite a page off v] = [soleWrite a page off v] := by
    have hs : s.served a (page % 128) = true := hserved
    cases a <;> simp [State.portWrites, soleWrite, hs]
  have hall : s.writeAll [soleWrite a page off v] = s.writeNow [soleWrite a page off v] := by
    unfold State.writeAll
    split
    · rename_i p ps w hp hw
      rcases hhost with hne | hempty
      · exact absurd (by simpa using List.find?_some hw) (by
          obtain rfl := List.mem_singleton.mp (List.mem_of_find?_eq_some hw)
          exact fun he : (soleWrite a page off v).agent = .host => hne he)
      · rw [hempty] at hp
        exact absurd hp (by simp)
    · rfl
  have hjudge : s.judge [] [soleWrite a page off v] = [(soleWrite a page off v, none)] := by
    simp only [State.judge, List.nil_append]
    rw [show s.codeAmong [] (soleWrite a page off v) = none from hcode]
  show s.writeAll [soleWrite a page off v] = _
  rw [hall, State.writeNow, hport, hjudge]
  cases hclear : clearsOnly (soleWrite a page off v) <;>
    simp [hclear, State.writeOne, State.recordRejects, lowestAgent]

/-- A register of its own at an offset of a page: no group's head or member, and none of the firewall's rules. -/
abbrev Reg.Alone (r : Reg) (page k : Nat) : Prop :=
  page < 128 ∧ 0x100 ≤ r.off + r.stride * k ∧ r.off + r.stride * k < 4096
    ∧ findReg page (r.off + r.stride * k) = some (r, k) ∧ r.mem = 0 ∧ r.grp = 0
    ∧ r ≠ R.XB_MAP ∧ r ≠ R.FW_CTRL ∧ r ≠ R.FW_RULE_A

/-- An accepted write of a register of its own, on the one bank that it addresses. -/
theorem writeReg_of_accepts {s : State} {a : Agent} {page k b : Nat} {r : Reg} {v : Word} (hr : r.Alone page k)
    (hb : banksOf r (s.bankOf a page) = [b]) (h : s.accepts a page (r.off + r.stride * k) v = true) :
    s.writeReg a page r v k = s.put a r (unitAt r page b) k v := by
  obtain ⟨hpage, hlo, hhi, hfind, hmem, hgrp, hmap, hctrl, hrule⟩ := hr
  have hp : (soleWrite a page (r.off + r.stride * k) v).page.val = page := Nat.mod_eq_of_lt hpage
  have ho : (soleWrite a page (r.off + r.stride * k) v).off.val = r.off + r.stride * k := Nat.mod_eq_of_lt hhi
  have hfw : isFwChange (soleWrite a page (r.off + r.stride * k) v) = false := by
    simp [isFwChange, hp, ho, hfind, hmap, hctrl, hrule]
  rw [State.writeReg, write1_of_accepts h]
  simp only [hfw, Bool.false_eq_true, if_false]
  rw [State.writePut, hp, ho, if_neg (by omega)]
  simp only [hfind, hmem, hgrp]
  show (banksOf r (s.bankOf a page)).foldl _ s = _
  rw [hb]
  rfl

/-- The bank of a unit of its own. -/
theorem banksOf_unshared {r : Reg} {n : Nat} (hs : r.share = 1) (hb : r.banks ≠ 1) (hn : n ≠ 0xFF) : banksOf r n = [n] := by
  simp [banksOf, hs, hb, hn]

/-- A register that all banks of its page share is written once, whatever bank is selected (R67). -/
theorem banksOf_shared {r : Reg} (hs : r.share = 256) (hb : r.banks = 8) {n : Nat} (hn : n < 256) :
    banksOf r n = [0] := by
  by_cases hall : n = 0xFF
  · rw [banksOf, if_neg (by omega), if_pos hall, hb, hs]
    decide
  · rw [banksOf, if_neg (by omega), if_neg hall, hs, Nat.div_eq_of_lt hn, Nat.zero_mul]

end Sys2Proof.Machine

/-! PROOFS. The sluice pages' register commands, and the settlement of `Obligations.SluiceTablesAndShadows`. -/

namespace Sys2Proof.Machine

/-- A register that each sluice unit has of its own, written by agents to an effect of its chapter. -/
abbrev Reg.OfSluice (r : Reg) (k : Nat := 0) : Prop :=
  r.page = 0x20 ∧ r.banks = 16 ∧ r.share = 1 ∧ r.perAgent = false ∧ r.acc ≠ .w1c ∧ r.InPage k
    ∧ ∀ g : Fin 16, r.Alone (0x20 + g.val) k

theorem Reg.OfSluice.inPage {r : Reg} {k : Nat} (h : r.OfSluice k) : r.InPage k := by
  obtain ⟨-, -, -, -, -, hin, -⟩ := h
  exact hin

/-- An accepted write of a sluice register, on the unit that the agent's bank selects (R66, R216). -/
theorem sluWrite_of_accepts {s : State} {a : Agent} {g : Fin 16} {r : Reg} {k n : Nat} {v : Word} (hr : r.OfSluice k)
    (h : s.accepts a (0x20 + g.val) (r.off + r.stride * k) v = true) (hn : s.bankOf a (0x20 + g.val) = n) (hlt : n < 16) :
    s.writeReg a (0x20 + g.val) r v k = s.sluPut a r (16 * g.val + n) k v := by
  obtain ⟨hpage, hbanks, hshare, hagent, hacc, -, halone⟩ := hr
  have hb : banksOf r (s.bankOf a (0x20 + g.val)) = [n] := by
    rw [hn]
    exact banksOf_unshared hshare (by omega) (by omega)
  have hu : unitAt r (0x20 + g.val) n = 16 * g.val + n := by
    rw [unitAt, hpage, hbanks]
    omega
  rw [writeReg_of_accepts (halone g) hb h, hu]
  simp [State.put, hpage, hagent, hacc]

/-- A register of a shadow set written with COMMIT: the set is entered for the next boundary (R13). -/
theorem commit_gives {c : Instr} {s : State} {r : Reg} {u k : Nat} {v : Word} {set : ShadowSet} (hr : r.InPage k)
    (h : exec c s = done s ((s.wr r u v k).commit set)) : Gives c s fun t => t.rd r u k = v
      ∧ t.fab.commits = s.fab.commits ++ [{ set := set, wait := 1 + b2n (s.slot == 4095) }]
      ∧ Frame (regsIn [r.key u k]) [.fab] s t := by
  refine Gives.done h ⟨?_, ?_, ?_⟩
  · rw [finish_rd hr]
    exact rd_wr_self s r u k v
  · rw [finish_fab]
    rfl
  · exact (((Only.refl _ _ s).wr v (by simp [regsIn])).set_fab _ (by simp)).frame

/-- An agent's address register advanced over its low bits (R73). -/
theorem advanceSel_fld {s : State} {r : Reg} {u n : Nat} {a : Agent} (hn : 0 < n) (hlt : n ≤ 64) :
    fld ((s.advanceSel r u n a).rdAgent r u a) (n - 1) 0 = (fld (s.rdAgent r u a) (n - 1) 0 + 1) % 2 ^ n := by
  rw [State.advanceSel, rdAgent_wrAgent_self, fld_setFld_low (by omega)]
  congr
  omega

/-- The words of `SLU_CMD`: the command's bit alone below the slot number (R216). -/
theorem sluCmd_gainCopy (s : State) (u : Nat) (k : Fin 16) : s.sluCmd u (word (at_ 16 k + 1)) = s.gainCopyOp u := by
  have h0 : bit (word (at_ 16 k + 1)) 0 = true := by revert k; decide
  simp [State.sluCmd, h0]

theorem sluCmd_winDefault (s : State) (u : Nat) : s.sluCmd u 2 = s.winDefaultOp u := rfl

theorem sluCmd_streamReset (s : State) (u : Nat) (k : Fin 16) : s.sluCmd u (word (at_ 16 k + 4)) = s.streamSwitch u k := by
  have h : bit (word (at_ 16 k + 4)) 0 = false ∧ bit (word (at_ 16 k + 4)) 1 = false ∧ bit (word (at_ 16 k + 4)) 2 = true
      ∧ fld (word (at_ 16 k + 4)) 19 16 = k := by revert k; decide
  obtain ⟨h0, h1, h2, hk⟩ := h
  simp [State.sluCmd, h0, h1, h2, hk]

theorem sluCmd_clipClr (s : State) (u : Nat) (k : Fin 16) : s.sluCmd u (word (at_ 16 k + 8)) = s.clipClrOp u k := by
  have h : bit (word (at_ 16 k + 8)) 0 = false ∧ bit (word (at_ 16 k + 8)) 1 = false ∧ bit (word (at_ 16 k + 8)) 2 = false
      ∧ bit (word (at_ 16 k + 8)) 3 = true ∧ fld (word (at_ 16 k + 8)) 19 16 = k := by revert k; decide
  obtain ⟨h0, h1, h2, h3, hk⟩ := h
  simp [State.sluCmd, h0, h1, h2, h3, hk]

/-- `DM_CTRL` written with COMMIT (R195). -/
theorem sluPut_dmCtrl (s : State) (a : Agent) {u k : Nat} {v : Word} :
    s.sluPut a R.DM_CTRL u k (setBit v 0) = (s.wr R.DM_CTRL u (setBit v 0) k).commit (.dm u k) := by
  show (if bit (setBit v 0) 0 = true then (s.wr R.DM_CTRL u (setBit v 0) k).commit (.dm u k) else _) = _
  rw [if_pos (bit_setBit (by decide))]

/-- A command that changes the sluice's tables alone. -/
theorem slu_frame {s : State} (x : Sluice) : Frame noRegs [.slu] s (s.finish { s with slu := x }) :=
  ((Only.refl _ _ s).set_slu x (by simp)).frame

/-- GAIN_COPY (R216). -/
theorem gainCopy_gives {c : Instr} {s : State} {u : Nat} (h : exec c s = done s (s.gainCopyOp u)) : Gives c s fun t =>
    (∀ i, mget (fun _ => 0) t.slu.gainS i
      = if 65536 * u ≤ i ∧ i < 65536 * (u + 1) then mget (fun _ => 0) s.slu.gainW i else mget (fun _ => 0) s.slu.gainS i)
    ∧ t.slu = { s.slu with gainS := t.slu.gainS } ∧ Frame noRegs [.slu] s t := by
  refine Gives.done h ⟨fun i => ?_, ?_, slu_frame _⟩
  · have hiff : (u * 65536 ≤ i ∧ i < u * 65536 + 65536) ↔ (65536 * u ≤ i ∧ i < 65536 * (u + 1)) := by omega
    rw [finish_slu, ← if_congr hiff rfl rfl]
    exact mget_setRange _ _ _ _ _ i
  · rw [finish_slu]
    rfl

/-- WIN_DEFAULT (R202). -/
theorem winDefault_gives {c : Instr} {s : State} {u : Nat} (h : exec c s = done s (s.winDefaultOp u)) : Gives c s fun t =>
    (∀ i, i < 8 * s.chanC → s.chanC ≤ 4096 → mget (fun _ => 0) t.slu.winS (32768 * u + i) = winDefaultAt s.chanC i)
    ∧ t.slu = { s.slu with winS := t.slu.winS } ∧ Frame noRegs [.slu] s t := by
  refine Gives.done h ⟨fun i hi _ => ?_, ?_, slu_frame _⟩
  · rw [finish_slu]
    exact (mget_fill _ _ _ _ i _).trans (if_pos hi)
  · rw [finish_slu]
    rfl

/-- STREAM_RESET (R194, R216). -/
theorem streamReset_gives {c : Instr} {s : State} {u k : Nat} (hk : k < 16) (h : exec c s = done s (s.streamSwitch u k)) :
    Gives c s fun t => t.slt u k = (s.slt u k).switch ∧ t.rd R.LVL u k = 0
    ∧ t.rd R.SLU_STAT u = clrBit (s.rd R.SLU_STAT u) (48 + k)
    ∧ Frame (regsIn [R.LVL.key u k, R.SLU_STAT.key u]) [.slu] s t := by
  have hlvl : R.LVL.InPage k := by
    simp only [Reg.InPage, R.LVL]
    omega
  have hstat : R.SLU_STAT.InPage := by decide
  refine Gives.done h ⟨?_, ?_, ?_, ?_⟩
  · rw [State.slt, finish_slu]
    exact mget_mset_self _ _ _ _
  · rw [finish_rd hlvl]
    exact rd_wr_self _ _ _ _ _
  · rw [finish_rd hstat, State.streamSwitch, rd_wr_ne hlvl hstat (by simp only [R.LVL, R.SLU_STAT]; omega)]
    exact rd_wr_self _ _ _ _ _
  · exact ((((Only.refl _ _ s).set_slu _ (by simp)).wr _ (by simp [regsIn])).wr _ (by simp [regsIn])).frame

/-- CLIP_CLR (R214). -/
theorem clipClr_gives {c : Instr} {s : State} {u k : Nat} (h : exec c s = done s (s.clipClrOp u k)) : Gives c s fun t =>
    (∀ i, mget (fun _ => 0) t.slu.clips i = if (16 * u + k) * 4096 ≤ i ∧ i < (16 * u + k + 1) * 4096 then 0
      else mget (fun _ => 0) s.slu.clips i)
    ∧ t.slu = { s.slu with clips := t.slu.clips } ∧ Frame noRegs [.slu] s t := by
  refine Gives.done h ⟨fun i => ?_, ?_, slu_frame _⟩
  · have hiff : ((16 * u + k) * 4096 ≤ i ∧ i < (16 * u + k) * 4096 + 4096)
        ↔ ((16 * u + k) * 4096 ≤ i ∧ i < (16 * u + k + 1) * 4096) := by omega
    rw [finish_slu, ← if_congr hiff rfl rfl]
    exact mget_setRange _ _ _ _ [] i
  · rw [finish_slu]
    rfl

/-- GAIN_DATA (R215, R216). -/
theorem gainPut_gives {c : Instr} {s : State} {a : Agent} {u : Nat} {v : Word} (h : exec c s = done s (s.gainPut a u v)) :
    Gives c s fun t =>
    (∀ j, mget (fun _ => 0) t.slu.gainS j = if j = 65536 * u + fld (s.rdAgent R.GAIN_ADDR u a) 15 0
      then BitVec.ofNat 16 v.toNat else mget (fun _ => 0) s.slu.gainS j)
    ∧ fld (t.rdAgent R.GAIN_ADDR u a) 15 0 = (fld (s.rdAgent R.GAIN_ADDR u a) 15 0 + 1) % 65536
    ∧ Frame (regsIn [R.GAIN_ADDR.key u 0 (1 + a.code)]) [.slu] s t := by
  refine Gives.done h ⟨fun j => ?_, ?_, ?_⟩
  · rw [finish_slu, ← ofNat_fld_low]
    exact mget_mset _ _ _ _ _
  · rw [finish_rdAgent (by decide)]
    exact advanceSel_fld (n := 16) (by decide) (by decide)
  · exact (((Only.refl _ _ s).set_slu _ (by simp)).wrAgent _ (by simp [regsIn])).frame

/-- WIN_DATA (R202, R216). -/
theorem winPut_gives {c : Instr} {s : State} {a : Agent} {u : Nat} {v : Word} (h : exec c s = done s (s.winPut a u v)) :
    Gives c s fun t =>
    (∀ j, mget (fun _ => 0) t.slu.winS j = if j = 32768 * u + fld (s.rdAgent R.WIN_ADDR u a) 14 0
      then BitVec.ofNat 18 v.toNat else mget (fun _ => 0) s.slu.winS j)
    ∧ fld (t.rdAgent R.WIN_ADDR u a) 14 0 = (fld (s.rdAgent R.WIN_ADDR u a) 14 0 + 1) % 32768
    ∧ Frame (regsIn [R.WIN_ADDR.key u 0 (1 + a.code)]) [.slu] s t := by
  refine Gives.done h ⟨fun j => ?_, ?_, ?_⟩
  · rw [finish_slu, ← ofNat_fld_low]
    exact mget_mset _ _ _ _ _
  · rw [finish_rdAgent (by decide)]
    exact advanceSel_fld (n := 15) (by decide) (by decide)
  · exact (((Only.refl _ _ s).set_slu _ (by simp)).wrAgent _ (by simp [regsIn])).frame

/-- A command that writes a sluice register and is accepted ends in what the register's chapter makes of it. -/
theorem done_sluWrite {s s1 : State} {a : Agent} {g : Fin 16} {r : Reg} {k n : Nat} {v : Word} (hr : r.OfSluice k)
    (h : s.accepts a (0x20 + g.val) (r.off + r.stride * k) v = true) (hn : s.bankOf a (0x20 + g.val) = n) (hlt : n < 16)
    (hput : s.sluPut a r (16 * g.val + n) k v = s1) : done s (s.writeReg a (0x20 + g.val) r v k) = done s s1 := by
  rw [sluWrite_of_accepts hr h hn hlt, hput]

/-- Settles O22: an accepted write is its chapter's effect on the unit selected (`done_sluWrite`), and each effect gives
what the statement says of it. -/
theorem sluiceTablesAndShadows : Obligations.SluiceTablesAndShadows := by
  unfold Obligations.SluiceTablesAndShadows
  have hcmd : R.SLU_CMD.OfSluice := by decide +kernel
  have hdm : ∀ k : Fin 16, R.DM_CTRL.OfSluice k.val := by decide +kernel
  have hgain : R.GAIN_CTRL.OfSluice := by decide +kernel
  have hwin : R.WIN_CTRL.OfSluice := by decide +kernel
  have hgainData : R.GAIN_DATA.OfSluice := by decide +kernel
  have hwinData : R.WIN_DATA.OfSluice := by decide +kernel
  refine ⟨?dm, ?gain, ?win, ?copy, ?dflt, ?reset, ?clip, ?gainData, ?winData⟩
  case dm =>
    intro s a g k v n h hn hlt
    exact commit_gives (hdm k).inPage (done_sluWrite (hdm k) h hn hlt (sluPut_dmCtrl s a))
  case gain =>
    intro s a g n h hn hlt
    exact commit_gives hgain.inPage (done_sluWrite hgain h hn hlt rfl)
  case win =>
    intro s a g n h hn hlt
    exact commit_gives hwin.inPage (done_sluWrite hwin h hn hlt rfl)
  case copy =>
    intro s a g k n h hn hlt
    exact gainCopy_gives (done_sluWrite hcmd h hn hlt (sluCmd_gainCopy s _ k))
  case dflt =>
    intro s a g n h hn hlt
    exact winDefault_gives (done_sluWrite hcmd h hn hlt (sluCmd_winDefault s _))
  case reset =>
    intro s a g k n h hn hlt
    exact streamReset_gives k.isLt (done_sluWrite hcmd h hn hlt (sluCmd_streamReset s _ k))
  case clip =>
    intro s a g k n h hn hlt
    exact clipClr_gives (done_sluWrite hcmd h hn hlt (sluCmd_clipClr s _ k))
  case gainData =>
    rintro s a g v n i h hn hlt rfl
    exact gainPut_gives (done_sluWrite hgainData h hn hlt rfl)
  case winData =>
    rintro s a g v n i h hn hlt rfl
    exact winPut_gives (done_sluWrite hwinData h hn hlt rfl)

end Sys2Proof.Machine

/-! PROOFS. The destination table's registers, doorbells, rings' signals and MSI-X messages, and the settlement of
`Obligations.DestinationsAndRings`. -/

namespace Sys2Proof.Machine

theorem bankOf_lt (s : State) (a : Agent) (page : Nat) : s.bankOf a page < 256 := fld_lt _ 7 0

/-- An accepted write of a register that all banks of its page share. -/
theorem sharedWrite_of_accepts {s : State} {a : Agent} {page : Nat} {r : Reg} {v : Word} (hr : r.Alone page 0)
    (hs : r.share = 256) (hb : r.banks = 8) (h : s.accepts a page r.off v = true) :
    s.writeReg a page r v = s.put a r (unitAt r page 0) 0 v :=
  writeReg_of_accepts hr (banksOf_shared hs hb (bankOf_lt s a page)) h

theorem dstData_of_accepts {s : State} {a : Agent} {v : Word} (h : s.accepts a 0x54 R.DST_DATA.off v = true) :
    s.writeReg a 0x54 R.DST_DATA v = s.destPut a v :=
  sharedWrite_of_accepts (by decide +kernel) rfl rfl h

theorem dstCtrl_of_accepts {s : State} {a : Agent} (h : s.accepts a 0x54 R.DST_CTRL.off 1 = true) :
    s.writeReg a 0x54 R.DST_CTRL 1 = (s.wr R.DST_CTRL 0 1).commit .dest :=
  sharedWrite_of_accepts (by decide +kernel) rfl rfl h

theorem ringDb_of_accepts {s : State} {a : Agent} {v : Word} (h : s.accepts a 0x58 R.RING_DB.off v = true) :
    s.writeReg a 0x58 R.RING_DB v = s.doorbell (fld v 43 32) (fld v 31 0) :=
  writeReg_of_accepts (by decide +kernel : R.RING_DB.Alone 0x58 0) (rfl : banksOf R.RING_DB (s.bankOf a 0x58) = [0]) h

/-- A word of two equal halves, each of which is the index. -/
theorem fld_halves {i : Nat} (h : i < 2 ^ 32) :
    fld (word (at_ 32 i + i)) 31 0 = i ∧ fld (word (at_ 32 i + i)) 63 32 = i := by
  have hlt : i * 2 ^ 32 + i < 2 ^ 64 := by omega
  have hdiv : (i * 2 ^ 32 + i) / 2 ^ 32 = i := Nat.div_eq_of_lt_le (by omega) (by omega)
  simp only [fld, word, at_, BitVec.toNat_ofNat, Nat.mod_eq_of_lt hlt, hdiv]
  omega

/-- A doorbell moves its writer's own index: `TAIL` where the software is the producer (R350, R352). -/
theorem ownIndex_producer {type i : Nat} (ht : type = 1 ∨ type = 4) (h : i < 2 ^ 32) (old : Word) :
    ownIndex type old (word (at_ 32 i + i)) = setFld old 31 0 i := by
  rw [ownIndex, if_pos ht, (fld_halves h).1]

/-- `HEAD` where it is the consumer. -/
theorem ownIndex_consumer {type i : Nat} (h1 : type ≠ 1) (h4 : type ≠ 4) (h : i < 2 ^ 32) (old : Word) :
    ownIndex type old (word (at_ 32 i + i)) = setFld old 63 32 i := by
  rw [ownIndex, if_neg (by simp [h1, h4]), (fld_halves h).2]

@[simp] theorem ring_setRing_self (s : State) (r : Nat) (g : Ring) : (s.setRing r g).ring r = g := mget_mset_self _ _ _ _

theorem ring_congr {s t : State} (h : t.net = s.net) (r : Nat) : t.ring r = s.ring r := by
  rw [State.ring, h, State.ring]

/-- A command that writes a ring alone. -/
theorem setRing_gives {c : Instr} {s : State} {r : Nat} {g : Ring} (h : exec c s = done s (s.setRing r g)) :
    Gives c s fun t => t.ring r = g ∧ t.net = (s.setRing r (t.ring r)).net ∧ Frame noRegs [.net] s t := by
  have hring : (s.finish (s.setRing r g)).ring r = g := by
    rw [ring_congr (finish_net _ _), ring_setRing_self]
  refine Gives.done h ⟨hring, ?_, ((Only.refl _ _ s).set_net _ (by simp)).frame⟩
  rw [hring, finish_net]

/-- DST_DATA_WRITE (R346). -/
theorem destPut_gives {c : Instr} {s : State} {a : Agent} {v : Word} (h : exec c s = done s (s.destPut a v)) :
    Gives c s fun t => mget (fun _ => 0) t.net.dstShadow (fld (s.rdAgent R.DST_SEL 0 a) 8 0) = v
    ∧ fld (t.rdAgent R.DST_SEL 0 a) 8 0 = (fld (s.rdAgent R.DST_SEL 0 a) 8 0 + 1) % 512
    ∧ t.net = { s.net with dstShadow := t.net.dstShadow } ∧ Frame (regsIn [R.DST_SEL.key 0 0 (1 + a.code)]) [.net] s t := by
  refine Gives.done h ⟨?_, ?_, ?_, ?_⟩
  · rw [finish_net]
    exact mget_mset_self _ _ _ _
  · rw [finish_rdAgent (by decide)]
    exact advanceSel_fld (n := 9) (by decide) (by decide)
  · rw [finish_net]
    rfl
  · exact (((Only.refl _ _ s).set_net _ (by simp)).wrAgent _ (by simp [regsIn])).frame

/-- What `State.msixSend` can do: it sends, or sets a pending bit (R381). -/
theorem msixSend_spec (s : State) (v : Nat) : ∃ pba sent, s.msixSend v
    = { s with pcie := { s.pcie with pba := pba }, sent := sent } ∧ s.sent <:+ sent := by
  unfold State.msixSend
  dsimp only
  split
  · exact ⟨_, _, rfl, List.suffix_refl _⟩
  · split
    · exact ⟨_, _, rfl, List.suffix_refl _⟩
    · split
      · exact ⟨_, _, rfl, List.suffix_cons _ _⟩
      · exact ⟨_, _, rfl, List.suffix_refl _⟩

@[simp] theorem msixSend_net (s : State) (v : Nat) : (s.msixSend v).net = s.net := by
  obtain ⟨pba, sent, h, -⟩ := msixSend_spec s v
  rw [h]

/-- A message that may leave (R377, R381). -/
theorem msixSend_emits {s : State} {v : Nat} (hen : s.pcie.msixEn = true)
    (hmask : (mget msixDflt s.pcie.table v).masked = false) (hall : s.pcie.maskAll = false) (hm : s.pcieMaster = true) :
    s.msixSend v = s.emit (.msix v (mget msixDflt s.pcie.table v).addr (mget msixDflt s.pcie.table v).data) := by
  simp [State.msixSend, hen, hmask, hall, hm]

/-- A message of a masked vector or function is held by its pending bit (R381). -/
theorem msixSend_holds {s : State} {v : Nat} (hen : s.pcie.msixEn = true)
    (hmask : (mget msixDflt s.pcie.table v).masked = true ∨ s.pcie.maskAll = true) :
    mget (fun _ => false) (s.msixSend v).pcie.pba v = true := by
  simp [State.msixSend, hen, hmask]

/-- A message never clears a pending bit. -/
theorem msixSend_keeps_pba {s : State} {v w : Nat} (h : mget (fun _ => false) s.pcie.pba w = true) :
    mget (fun _ => false) (s.msixSend v).pcie.pba w = true := by
  unfold State.msixSend
  dsimp only
  split
  · exact h
  · split
    · rw [mget_mset, h, ite_self]
    · split <;> exact h

/-- A command's end never clears a pending bit. -/
theorem finish_keeps_pba {s0 s1 : State} {w : Nat} (h : mget (fun _ => false) s1.pcie.pba w = true) :
    mget (fun _ => false) (s0.finish s1).pcie.pba w = true := by
  obtain ⟨since, regs, hm, -⟩ := meshTrack_spec s0 s1
  have htrack : mget (fun _ => false) (State.meshTrack s0 s1).condTrack.pcie.pba w = true := by
    rw [hm]
    exact h
  unfold State.finish signal
  dsimp only
  split
  · exact htrack
  · split
    · exact msixSend_keeps_pba htrack
    · exact htrack

/-- A message at a command's end leaves what the command leaves: the pending bits are put aside (`State.untracked`). -/
theorem Only.frame_msixSend {K : Nat → Prop} {ps : List Part} {s s1 : State} (v : Nat) (h : Only K ps s s1) :
    Frame K ps s (s.finish (s1.msixSend v)) := by
  obtain ⟨pba, sent, hm, hs⟩ := msixSend_spec s1 v
  refine ⟨fun k hk => ?_, fun p hp => ?_, h.sent.trans (List.IsSuffix.trans ?_ (finish_sent s _))⟩
  · have hreg : (s1.msixSend v).getReg k = s1.getReg k := by
      rw [hm]
      rfl
    rw [← h.getReg hk, ← hreg]
    exact finish_getReg s _ k
  · have hpart : p.same s1.untracked (s1.msixSend v).untracked := by
      rw [hm]
      cases p <;> rfl
    exact Part.same_trans (Part.same_untracked (h.same hp)) (Part.same_trans hpart (finish_same_untracked s _ p))
  · rw [hm]
    exact hs

/-- The hold-off of a ring that signals has ended (R354). -/
abbrev State.holdoffOver (s : State) (r q : Nat) : Prop := (s.ring r).since = some q ∧ bit (s.ring r).d2 41 = true
  ∧ fld (s.ring r).d2 15 0 ≠ 0 ∧ q + 1500 * fld (s.ring r).d2 15 0 ≤ s.time.total

/-- The ring with its progress signalled. -/
abbrev State.signalled (s : State) (r : Nat) : Ring := { s.ring r with progress := 0, since := none }

theorem holdoff_signals {s : State} {r : Fin 4096} {q : Nat} (h : s.holdoffOver r q) :
    exec (.ringHoldoffExpiry r) s = done s (s.ringSignal r) := by
  obtain ⟨hsince, hen, hne, hle⟩ := h
  show execRingHoldoffExpiry r s = _
  simp [execRingHoldoffExpiry, hsince, hen, hne, hle]

/-- A supervisor's ring signals by interrupt. -/
theorem ringSignal_supervisor {s : State} {r : Nat} (h : (s.ring r).owner ≠ 0) :
    s.ringSignal r = (s.setRing r (s.signalled r)).emit (.ringIrq r) := by
  rw [State.ringSignal, if_neg h]

/-- The host's ring whose vector was signalled in this FCLK shares that message. -/
theorem ringSignal_shares {s : State} {r : Nat} (h : (s.ring r).owner = 0)
    (hm : s.net.lastMsg = some (fld (s.ring r).d2 52 42, s.time.total / 2)) :
    s.ringSignal r = s.setRing r (s.signalled r) := by
  rw [State.ringSignal, if_pos h, State.ringMsg]
  exact if_pos hm

/-- The rings with one signalled by a message, which is noted with its FCLK. -/
abbrev State.noted (s : State) (r : Nat) : State :=
  { s with net := { (s.setRing r (s.signalled r)).net with
      lastMsg := some (fld (s.ring r).d2 52 42, s.time.total / 2) } }

/-- The host's ring signals by its vector's message. -/
theorem ringSignal_host {s : State} {r : Nat} (h : (s.ring r).owner = 0)
    (hm : s.net.lastMsg ≠ some (fld (s.ring r).d2 52 42, s.time.total / 2)) :
    s.ringSignal r = (s.noted r).msixSend (fld (s.ring r).d2 52 42) := by
  rw [State.ringSignal, if_pos h, State.ringMsg]
  exact if_neg hm

/-- What a host's ring shows once its message is due. -/
theorem ringSignal_host_gives {s : State} {r : Nat} (h : (s.ring r).owner = 0)
    (hm : s.net.lastMsg ≠ some (fld (s.ring r).d2 52 42, s.time.total / 2)) :
    (s.finish (s.ringSignal r)).ring r = s.signalled r
    ∧ (s.finish (s.ringSignal r)).net = (s.noted r).net ∧ Frame noRegs [.net] s (s.finish (s.ringSignal r)) := by
  rw [ringSignal_host h hm]
  refine ⟨?_, ?_, ((Only.refl _ _ s).set_net _ (by simp)).frame_msixSend _⟩
  · rw [State.ring, finish_net, msixSend_net]
    exact mget_mset_self _ _ _ _
  · rw [finish_net, msixSend_net]

/-- Settles O32: the registers by what their accepted write does, and a hold-off's end by the ring's owner, the message by
what `State.msixSend` may do with it. -/
theorem destinationsAndRings : Obligations.DestinationsAndRings := by
  unfold Obligations.DestinationsAndRings
  refine ⟨?data, ?ctrl, ?producer, ?consumer, ?supervisor, ?message, ?held, ?shared, ?running⟩
  case data =>
    rintro s a v i h rfl
    exact destPut_gives (congrArg (done s) (dstData_of_accepts h))
  case ctrl =>
    intro s a h
    exact commit_gives (by decide) (congrArg (done s) (dstCtrl_of_accepts h))
  case producer =>
    rintro s a v r h rfl ht
    refine setRing_gives ((congrArg (done s) (ringDb_of_accepts h)).trans ?_)
    rw [State.doorbell, ownIndex_producer ht (fld_lt v 31 0)]
  case consumer =>
    rintro s a v r h rfl h1 h4
    refine setRing_gives ((congrArg (done s) (ringDb_of_accepts h)).trans ?_)
    rw [State.doorbell, ownIndex_consumer h1 h4 (fld_lt v 31 0)]
  case supervisor =>
    intro s r q hsince hen hne hle howner
    have hring : (s.finish ((s.setRing r (s.signalled r)).emit (.ringIrq r))).ring r = s.signalled r := by
      rw [State.ring, finish_net]
      exact mget_mset_self _ _ _ _
    refine Gives.done ((holdoff_signals ⟨hsince, hen, hne, hle⟩).trans
      (congrArg (done s) (ringSignal_supervisor howner))) ⟨hring, ?_, ?_, ?_⟩
    · exact (finish_sent _ _).subset (List.mem_cons_self ..)
    · rw [hring, finish_net]
      rfl
    · exact (((Only.refl _ _ s).set_net _ (by simp)).emit _).frame
  case message =>
    rintro s r q x hsince hen hne hle howner hmsg rfl hmsi hmask hall hm
    obtain ⟨hring, hnet, hframe⟩ := ringSignal_host_gives howner hmsg
    refine Gives.done (holdoff_signals ⟨hsince, hen, hne, hle⟩) ⟨hring, ?_, ?_, hframe⟩
    · rw [ringSignal_host howner hmsg, msixSend_emits (s := s.noted r) hmsi hmask hall hm]
      exact (finish_sent _ _).subset (List.mem_cons_self ..)
    · rw [hring, hnet]
  case held =>
    intro s r q hsince hen hne hle howner hmsg _
    obtain ⟨hring, hnet, hframe⟩ := ringSignal_host_gives howner hmsg
    refine Gives.done (holdoff_signals ⟨hsince, hen, hne, hle⟩) ⟨hring, ?_, fun hmsi hmask => ?_, hframe⟩
    · rw [hring, hnet]
    · rw [ringSignal_host howner hmsg]
      exact finish_keeps_pba (msixSend_holds (s := s.noted r) hmsi hmask)
  case shared =>
    intro s r q hsince hen hne hle howner hmsg
    exact setRing_gives ((holdoff_signals ⟨hsince, hen, hne, hle⟩).trans
      (congrArg (done s) (ringSignal_shares howner hmsg)))
  case running =>
    intro s r h
    have hstill : exec (.ringHoldoffExpiry r) s = done s s := by
      show execRingHoldoffExpiry r s = _
      refine congrArg (done s) (if_neg ?_)
      rintro ⟨hover, hen, hne⟩
      rcases h with hoff | hnone | hwait
      · exact absurd hen (by simp [hoff])
      · exact hne hnone
      · cases hs : (s.ring r).since with
        | none => simp [hs] at hover
        | some q =>
          simp only [hs, Option.any_some, Option.all_some, decide_eq_true_eq] at hover hwait
          omega
    exact Gives.done hstill (Only.refl _ _ s).frame

end Sys2Proof.Machine

/-! PROOFS. What notifications and wakes of ports leave unchanged, each shadow set's adoption, and the settlement of
`Obligations.ShadowSetsAreAdopted`. -/

namespace Sys2Proof.Machine

theorem Only.respond {K : Nat → Prop} {ps : List Part} {s t : State} (id : Nat) (err poison : Bool) (data : List Byte)
    (hp : Part.xbar ∈ ps) (h : Only K ps s t) : Only K ps s (t.respond id err poison data) := by
  unfold State.respond
  split
  · split
    · exact h
    · exact h.set_xbar _ hp
  · exact h

theorem Only.decodeError {K : Nat → Prop} {ps : List Part} {s t : State} (m : Nat) (write secure : Bool) (a : Nat)
    (hK : ∀ k ∈ decodeKeys, K k) (h : Only K ps s t) : Only K ps s (t.decodeError m write secure a) :=
  Only.raise (hK _ (by simp [decodeKeys]))
    (Only.wr _ (hK _ (by simp [decodeKeys])) (Only.wr _ (hK _ (by simp [decodeKeys])) h))

/-- A request entered writes the crossbar, and where no target holds its range the registers of a decode error (R357). -/
theorem Only.enter {K : Nat → Prop} {ps : List Part} {s t : State} (m : Nat) (secure write : Bool) (a len : Nat)
    (data : List Byte) (qos : Option Nat) (o : Origin) (hK : ∀ k ∈ decodeKeys, K k) (hp : Part.xbar ∈ ps)
    (h : Only K ps s t) : Only K ps s (t.enter m secure write a len data qos o) := by
  have hr : Only K ps s (t.request m secure write a len data qos o).2 := h.set_xbar _ hp
  show Only K ps s (State.noTarget _ _)
  unfold State.noTarget
  split
  · split
    · exact (hr.decodeError _ _ _ _ hK).respond _ _ _ _ hp
    · exact hr
  · exact hr

/-- The registers in which a notification may show: those of a ring without space, of the channels' counters and of a write
that finds no target (R353, R357, R421). -/
abbrev noticeKeys : Nat → Prop := onPages [0x0C, 0x0E, 0x58]

theorem onPages_iff {ps : List Nat} {k : Nat} : onPages ps k ↔ keyPage k ∈ ps := Iff.rfl

theorem noticeKeys_decode : ∀ k ∈ decodeKeys, noticeKeys k := by
  simp only [onPages_iff]
  decide

/-- An entry produced on a ring (R351). -/
theorem Only.ringProduce {ps : List Part} {s t : State} (r : Nat) (ws : List Word) (chan : Option Nat) (hn : Part.net ∈ ps)
    (hx : Part.xbar ∈ ps) (h : Only noticeKeys ps s t) : Only noticeKeys ps s (t.ringProduce r ws chan) := by
  have ha : Only noticeKeys ps s (t.ringAlloc r ws none chan 0).2 := Only.set_net _ hn (h.set_net _ hn)
  show Only noticeKeys ps s (State.jobEntry _ _)
  unfold State.jobEntry
  split
  · exact ha
  · exact ha.enter _ _ _ _ _ _ _ _ noticeKeys_decode hx

/-- A notification on one channel (R421). -/
theorem Only.notifyOn {s t : State} (code : Nat) (rs : List Word) {k : Nat} (hk : k < 16)
    (h : Only noticeKeys [.cmds, .net, .xbar, .free] s t) :
    Only noticeKeys [.cmds, .net, .xbar, .free] s (t.notifyOn code rs k) := by
  have hcnt : noticeKeys (R.CQ_CNT.key 0 k) := by
    have hpage : keyPage (R.CQ_CNT.key 0 k) = 0x0E :=
      keyPage_regKey (by decide) (by decide) (by simp only [R.CQ_CNT]; omega)
    simp [onPages_iff, hpage]
  unfold State.notifyOn
  split
  · split
    · exact Only.ringProduce _ _ _ (by simp) (by simp) (Only.set_cmds _ (by simp) (h.set_free _ (by simp)))
    · have hfull : Only noticeKeys [.cmds, .net, .xbar, .free] s (if t.cqFull k then t.ringFull (t.cqEvt k) else t) := by
        split
        · exact Only.raise (onPages_iff.mpr (by decide))
            (Only.wr _ (onPages_iff.mpr (by decide)) (Only.wr _ (onPages_iff.mpr (by decide)) h))
        · exact h
      exact Only.raise (onPages_iff.mpr (by decide)) (Only.set_cmds _ (by simp) (Only.wr _ hcnt hfull))
  · exact h

/-- A notification leaves the other parts and pages as they are (R433, R441). -/
theorem notify_only (s : State) (code : Nat) (rs : List Word) :
    Only noticeKeys [.cmds, .net, .xbar, .free] s (s.notify code rs) := by
  unfold State.notify
  split
  · exact List.foldlRecOn _ _ (Only.refl _ _ s) fun t ht k hk => ht.notifyOn code rs (List.mem_range.mp hk)
  · exact (Only.refl _ _ s).set_cmds _ (by simp)

/-- The registers of the Ethernet ports' pages. -/
abbrev portKeys : Nat → Prop := onPages [0x54, 0x55, 0x56, 0x57]

theorem portKeys_ethStat {e : Nat} (he : e < 32) : portKeys (R.ETH_STAT.key e) := by
  have hpage : keyPage (R.ETH_STAT.key e) = 0x54 + e / 8 :=
    keyPage_regKey (by simp only [R.ETH_STAT]; omega) (by simp only [R.ETH_STAT]; omega) (by decide)
  simp only [onPages_iff, hpage, List.mem_cons, List.not_mem_nil, or_false]
  omega

/-- The ports woken for a swap that is adopted (R348). -/
def State.wakePorts (s : State) : State :=
  (List.range 32).foldl (fun s e => if s.unitComing e then s.lpiWake e else s) s

theorem wakePorts_only (s : State) : Only portKeys [.net] s s.wakePorts := by
  refine List.foldlRecOn _ _ (Only.refl _ _ s) fun t ht e he => ?_
  split
  · unfold State.lpiWake
    split
    · exact Only.set_net _ (by simp) (ht.wr _ (portKeys_ethStat (List.mem_range.mp he)))
    · exact ht
  · exact ht

/-- Ports that are awake stay as they are. -/
theorem wakePorts_awake {s : State} (h : (List.range 32).all (fun e => !s.rdb R.ETH_STAT e 11) = true) : s.wakePorts = s := by
  refine List.foldlRecOn (motive := (· = s)) _ _ rfl fun t ht e he => ?_
  have hawake : s.rdb R.ETH_STAT e 11 = false := by simpa using List.all_eq_true.mp h e he
  subst ht
  split
  · rw [State.lpiWake, if_neg (by simp [hawake])]
  · rfl

/-- The state with its one committed set taken off the list. -/
abbrev State.uncommitted (s : State) : State := { s with fab := { s.fab with commits := [] } }

/-- A boundary at which the one committed set is due. -/
theorem adoption_of_due {s : State} {c : Commit} (hb : s.atBoundary = true) (hc : s.fab.commits = [c])
    (ha : s.adopts c = true) : exec .shadowSetAdoption s = done s (s.uncommitted.adopt c.set) := by
  show done s (if s.atBoundary then s.adoptAll else s) = _
  rw [if_pos hb, State.adoptAll]
  simp only [hc, List.filter_cons, List.filter_nil, ha, Bool.not_true, if_true, Bool.false_eq_true, if_false,
    List.foldl_cons, List.foldl_nil]

/-- A set that is not due stays, and nothing else changes. -/
theorem adoption_of_not_due {s : State} {c : Commit} (hc : s.fab.commits = [c])
    (h : s.atBoundary = false ∨ s.adopts c = false) : exec .shadowSetAdoption s = done s s := by
  show done s (if s.atBoundary then s.adoptAll else s) = _
  split
  · rename_i hb
    have ha : s.adopts c = false := h.resolve_left (by simp [hb])
    have hs : ({ s with fab := { s.fab with commits := [c] } } : State) = s := by rw [← hc]
    simp only [State.adoptAll, hc, List.filter_cons, List.filter_nil, ha, Bool.not_false, if_true, Bool.false_eq_true, if_false,
      List.foldl_nil, hs]
  · rfl

/-- With a supervisor active every set of an expired wait is due, an arm unless it is under withdrawal (R13, R15, R106). -/
theorem adopts_supervised {s : State} {set : ShadowSet} (hs : s.supervised = true) (hset : set ≠ .arm) :
    s.adopts { set := set, wait := 0 } = true := by
  simp [State.adopts, hs, hset]

theorem adopts_arm {s : State} (hc : s.sched.cancel = false) : s.adopts { set := .arm, wait := 0 } = true := by
  simp [State.adopts, hc]

theorem not_adopts_wait {s : State} {c : Commit} (h : c.wait ≠ 0) : s.adopts c = false := by simp [State.adopts, h]

theorem not_adopts_unsupervised {s : State} {c : Commit} (hs : s.supervised = false) (hset : c.set ≠ .arm) :
    s.adopts c = false := by
  simp [State.adopts, hs, hset]

/-- An adoption of a set other than an arm. -/
theorem adoption_supervised {s s1 : State} {set : ShadowSet} (hb : s.atBoundary = true) (hs : s.supervised = true)
    (hc : s.fab.commits = [{ set := set, wait := 0 }]) (hset : set ≠ .arm) (h1 : s.uncommitted.adopt set = s1) :
    exec .shadowSetAdoption s = done s s1 :=
  h1 ▸ adoption_of_due (c := { set := set, wait := 0 }) hb hc (adopts_supervised hs hset)

/-- An arm's adoption at a boundary, while no cancel is noted. -/
theorem adoption_arm {s : State} (hb : s.atBoundary = true) (hc : s.fab.commits = [{ set := .arm, wait := 0 }])
    (hcancel : s.sched.cancel = false) : exec .shadowSetAdoption s = done s s.uncommitted.adoptArm :=
  adoption_of_due (c := { set := .arm, wait := 0 }) hb hc (adopts_arm hcancel)

@[simp] theorem rd_uncommitted (s : State) (r : Reg) (u k : Nat) : s.uncommitted.rd r u k = s.rd r u k := rfl

/-- The arm that `ARM_CTRL` and `ARM_TIDE` hold (R105). -/
def State.armHeld (s : State) : Arm :=
  { halt := s.rdb R.ARM_CTRL 0 1, store := s.rdf R.ARM_CTRL 0 8 8, stress := s.rdb R.ARM_CTRL 0 9
    tide := (s.rd R.ARM_TIDE).toNat, epoch := s.rdf R.ARM_CTRL 0 63 32 }

theorem armHeld_uncommitted (s : State) : s.uncommitted.armHeld = s.armHeld := by
  simp only [State.armHeld, State.rdb, State.rdf, rd_uncommitted]

/-- The state in which an arm is pending and its COMMIT clear. -/
def State.armTaken (s : State) : State :=
  { (s.wr R.ARM_CTRL 0 (clrBit (s.rd R.ARM_CTRL) 0)) with sched := { s.sched with pend := some s.armHeld } }

theorem armTaken_ctrl (s : State) : s.armTaken.rd R.ARM_CTRL = clrBit (s.rd R.ARM_CTRL) 0 := by
  have hregs : s.armTaken.regs = (s.wr R.ARM_CTRL 0 (clrBit (s.rd R.ARM_CTRL) 0)).regs := by rw [State.armTaken]
  rw [rd_congr hregs, rd_wr_self]

/-- An arm of the epoch in force becomes pending, with its event and the ports' wake; one of a closed epoch is cancelled
(R85, R105). -/
theorem adoptArm_eq (s : State) : s.adoptArm = if s.armHeld.epoch ≠ s.time.epoch ∧ s.armHeld.halt = false
    then (s.armTaken.raise 0x10 2).wakePorts.dropPend.swapResult 6 0 else (s.armTaken.raise 0x10 2).wakePorts := rfl

/-- An adopted arm before the ports' wake. -/
theorem armTaken_only (s : State) :
    Only (regsIn [R.ARM_CTRL.key 0, regKey 0 0x10 0 hEvt]) [.fab, .sched] s (s.uncommitted.armTaken.raise 0x10 2) :=
  Only.raise (by simp [regsIn]) (Only.set_sched _ (by simp) (Only.wr _ (by simp [regsIn]) ((Only.refl _ _ s).set_fab _ (by simp))))

@[simp] theorem wakePorts_sched (s : State) : s.wakePorts.sched = s.sched := (wakePorts_only s).same (p := .sched) (by decide)
@[simp] theorem wakePorts_fab (s : State) : s.wakePorts.fab = s.fab := (wakePorts_only s).same (p := .fab) (by decide)
@[simp] theorem wakePorts_time (s : State) : s.wakePorts.time = s.time := (wakePorts_only s).same (p := .time) (by decide)

/-- The ports' wake writes no page but theirs. -/
theorem wakePorts_rd {s : State} {r : Reg} {u k : Nat} (h : keyPage (r.key u k) ∉ [0x54, 0x55, 0x56, 0x57]) :
    s.wakePorts.rd r u k = s.rd r u k := (wakePorts_only s).getReg h

theorem wakePorts_hdr {s : State} {page off : Nat} (h : keyPage (regKey 0 page 0 off) ∉ [0x54, 0x55, 0x56, 0x57]) :
    s.wakePorts.hdr page off = s.hdr page off := (wakePorts_only s).getReg h

/-- A pending swap withdrawn (R104). -/
theorem dropPend_swap {s : State} {a : Arm} (hp : s.sched.pend = some a) (hh : a.halt = false) : s.dropPend
    = State.setStoreSt { s with sched := { s.sched with pend := none, cancel := false } } a.store .valid := by
  simp [State.dropPend, hp, hh]

@[simp] theorem dropPend_time (s : State) : s.dropPend.time = s.time := by
  unfold State.dropPend
  split
  · dsimp only
    split <;> rfl
  · rfl

@[simp] theorem storeSt_setStoreSt_self (s : State) (i : Nat) (v : StoreState) : (s.setStoreSt i v).storeSt i = v := by
  by_cases hi : i = 0 <;> simp [State.storeSt, State.setStoreSt, hi]

@[simp] theorem setStoreSt_pend (s : State) (i : Nat) (v : StoreState) : (s.setStoreSt i v).sched.pend = s.sched.pend := by
  by_cases hi : i = 0 <;> simp [State.setStoreSt, hi]

theorem storeSt_congr {s t : State} (h : t.sched = s.sched) (i : Nat) : t.storeSt i = s.storeSt i := by
  rw [State.storeSt, h, State.storeSt]

@[simp] theorem finish_storeSt (s0 s1 : State) (i : Nat) : (s0.finish s1).storeSt i = s1.storeSt i := by
  simp [State.storeSt]

/-- `SWAP_STAT`, `SWAP_TIDE` and the event of a swap's result, before its notification (R105 to R108). -/
def State.swapShown (s : State) (r n : Nat) : State :=
  ((s.wr R.SWAP_STAT 0 (word (at_ 32 n + r))).wr R.SWAP_TIDE 0 s.tideWord).raise 0x10 (if 1 ≤ r ∧ r ≤ 4 then 3 else 4)

/-- A swap's result is what it shows and its notification. -/
theorem swapResult_only (s : State) (r n : Nat) :
    Only noticeKeys [.cmds, .net, .xbar, .free] (s.swapShown r n) (s.swapResult r n) :=
  notify_only (s.swapShown r n) 0x8001 [(s.swapShown r n).rd R.SWAP_STAT, (s.swapShown r n).rd R.SWAP_TIDE]

@[simp] theorem swapResult_sched (s : State) (r n : Nat) : (s.swapResult r n).sched = s.sched := by
  have hsame : (s.swapResult r n).sched = (s.swapShown r n).sched := (swapResult_only s r n).same (p := .sched) (by decide)
  rw [hsame, State.swapShown, raise_sched, wr_sched, wr_sched]

theorem swapResult_rd {s : State} {r n u k : Nat} {q : Reg} (h : keyPage (q.key u k) ∉ [0x0C, 0x0E, 0x58]) :
    (s.swapResult r n).rd q u k = (s.swapShown r n).rd q u k := (swapResult_only s r n).getReg h

theorem swapResult_stat (s : State) (r n : Nat) : (s.swapResult r n).rd R.SWAP_STAT = word (at_ 32 n + r) := by
  rw [swapResult_rd (by decide), State.swapShown, rd_raise (by decide), rd_wr_ne (by decide) (by decide) (by decide),
    rd_wr_self]

theorem swapResult_tide (s : State) (r n : Nat) : (s.swapResult r n).rd R.SWAP_TIDE = s.tideWord := by
  rw [swapResult_rd (by decide), State.swapShown, rd_raise (by decide), rd_wr_self]

theorem swapResult_event (s : State) (r n : Nat) :
    bit ((s.swapResult r n).hdr 0x10 hEvt) (if 1 ≤ r ∧ r ≤ 4 then 3 else 4) = true := by
  have hsame : (s.swapResult r n).hdr 0x10 hEvt = (s.swapShown r n).hdr 0x10 hEvt :=
    (swapResult_only s r n).getReg (mt onPages_iff.mp (by decide))
  rw [hsame]
  exact hdr_raise (by split <;> decide)

/-- An adopted arm is pending and its event is raised. -/
theorem adoptArm_gives {s : State} (h : exec .shadowSetAdoption s = done s (s.uncommitted.armTaken.raise 0x10 2).wakePorts) :
    Gives .shadowSetAdoption s fun t => t.sched.pend = some s.armHeld ∧ t.rdb R.ARM_CTRL 0 0 = false
    ∧ bit (t.hdr 0x10 hEvt) 2 = true ∧ t.fab.commits = []
    ∧ ((List.range 32).all (fun e => !s.rdb R.ETH_STAT e 11) = true →
      Frame (regsIn [R.ARM_CTRL.key 0, regKey 0 0x10 0 hEvt]) [.fab, .sched] s t) := by
  refine Gives.done h ⟨?_, ?_, ?_, ?_, fun hawake => ?_⟩
  · rw [finish_sched_pend, wakePorts_sched, raise_sched, ← armHeld_uncommitted]
    rfl
  · rw [finish_rdb (by decide), State.rdb, wakePorts_rd (by decide), rd_raise (by decide), armTaken_ctrl,
      bit_clrBit_self]
  · rw [finish_hdr (by decide) (by decide) (by decide), wakePorts_hdr (by decide)]
    exact hdr_raise (by decide)
  · rw [finish_fab, wakePorts_fab, raise_fab]
    rfl
  · have hsame : (s.uncommitted.armTaken.raise 0x10 2).wakePorts = s.uncommitted.armTaken.raise 0x10 2 := by
      refine wakePorts_awake (List.all_eq_true.mpr fun e he => ?_)
      have hstat : (s.uncommitted.armTaken.raise 0x10 2).rd R.ETH_STAT e = s.rd R.ETH_STAT e := by
        refine (armTaken_only s).getReg ?_
        simp only [regsIn, List.mem_cons, List.not_mem_nil, or_false, not_or]
        exact ⟨Reg.key_ne_key (by decide) (by decide) (by decide), Reg.key_ne_hdr (by decide) (by decide)⟩
      rw [State.rdb, hstat]
      exact List.all_eq_true.mp hawake e he
    rw [hsame]
    exact (armTaken_only s).frame

/-- An arm of a closed epoch is cancelled with RESULT 6 (R85). -/
theorem adoptArm_cancel_gives {s : State} (hh : s.armHeld.halt = false) (h : exec .shadowSetAdoption s
      = done s ((s.uncommitted.armTaken.raise 0x10 2).wakePorts.dropPend.swapResult 6 0)) :
    Gives .shadowSetAdoption s fun t => t.sched.pend = none ∧ t.storeSt s.armHeld.store = .valid ∧ t.rd R.SWAP_STAT = 6
    ∧ t.rd R.SWAP_TIDE = word s.time.tide ∧ bit (t.hdr 0x10 hEvt) 4 = true := by
  have hp : (s.uncommitted.armTaken.raise 0x10 2).wakePorts.sched.pend = some s.armHeld := by
    rw [wakePorts_sched, raise_sched, ← armHeld_uncommitted]
    rfl
  have hdrop := dropPend_swap hp hh
  have htime : (s.uncommitted.armTaken.raise 0x10 2).wakePorts.dropPend.time = s.time := by
    rw [dropPend_time, wakePorts_time]
    exact (armTaken_only s).same (p := .time) (by decide)
  refine Gives.done h ⟨?_, ?_, ?_, ?_, ?_⟩
  · rw [finish_sched_pend, swapResult_sched, hdrop, setStoreSt_pend]
  · rw [finish_storeSt, storeSt_congr (swapResult_sched _ _ _), hdrop, storeSt_setStoreSt_self]
  · rw [finish_rd (by decide), swapResult_stat]
    rfl
  · rw [finish_rd (by decide), swapResult_tide, State.tideWord, htime]
  · rw [finish_hdr (by decide) (by decide) (by decide)]
    exact swapResult_event _ 6 0

@[simp] theorem slt_setSlt_self (s : State) (u k : Nat) (v : SluSlot) : (s.setSlt u k v).slt u k = v := mget_mset_self _ _ _ _

theorem slt_congr {s t : State} (h : t.slu = s.slu) (u k : Nat) : t.slt u k = s.slt u k := by
  rw [State.slt, h, State.slt]

/-- A delay model adopted (R13, R191). -/
theorem adoptModel_gives {s : State} {u k : Nat} (hk : k < 16)
    (h : exec .shadowSetAdoption s = done s (s.uncommitted.adoptModel u k)) : Gives .shadowSetAdoption s fun t =>
    (t.slt u k).newer = some (s.shadowModel u k) ∧ (t.slt u k).older = (s.slt u k).newer ∧ bit (t.rd R.DM_CTRL u k) 0 = false
    ∧ Frame (regsIn [R.DM_CTRL.key u k, R.SLOT_STAT.key u k]) [.fab, .slu] s t := by
  have hctrl : R.DM_CTRL.InPage k := by
    simp only [Reg.InPage, R.DM_CTRL]
    omega
  have hstat : R.SLOT_STAT.InPage k := by
    simp only [Reg.InPage, R.SLOT_STAT]
    omega
  have hslot : (s.finish (s.uncommitted.adoptModel u k)).slt u k
      = { s.slt u k with older := (s.slt u k).newer, newer := some (s.shadowModel u k) } := by
    have hslu : (s.finish (s.uncommitted.adoptModel u k)).slu
        = (s.setSlt u k { s.slt u k with older := (s.slt u k).newer, newer := some (s.shadowModel u k) }).slu := by
      rw [finish_slu]
      rfl
    rw [slt_congr hslu, slt_setSlt_self]
  refine Gives.done h ⟨by rw [hslot], by rw [hslot], ?_, ?_⟩
  · rw [finish_rd hctrl, State.adoptModel, State.slotStat,
      rd_wr_ne hstat hctrl (by simp only [R.DM_CTRL, R.SLOT_STAT]; omega), rd_wr_self]
    exact bit_clrBit_self _
  · exact (Only.wr _ (by simp [regsIn]) (Only.wr _ (by simp [regsIn])
      (Only.set_slu _ (by simp) ((Only.refl _ _ s).set_fab _ (by simp))))).frame

/-- Gains adopted (R13). -/
theorem adoptGain_gives {s : State} {u : Nat} (h : exec .shadowSetAdoption s = done s (s.uncommitted.adoptGain u)) :
    Gives .shadowSetAdoption s fun t =>
    (∀ i, i < 65536 → mget (fun _ => 0) t.slu.gainW (65536 * u + i) = mget (fun _ => 0) s.slu.gainS (65536 * u + i))
    ∧ t.rd R.GAIN_CTRL u = 0 ∧ Frame (regsIn [R.GAIN_CTRL.key u]) [.fab, .slu] s t := by
  refine Gives.done h ⟨fun i hi => ?_, ?_, ?_⟩
  · rw [finish_slu]
    exact (mget_setRange _ _ _ _ _ _).trans (if_pos (by omega))
  · rw [finish_rd (by decide)]
    exact rd_wr_self _ _ _ _ _
  · exact (Only.wr _ (by simp [regsIn]) (Only.set_slu _ (by simp) ((Only.refl _ _ s).set_fab _ (by simp)))).frame

/-- While an image runs NG is that of its C (R210). -/
theorem holdNoise_running {s : State} {m : Memory} (u : Nat) (h : s.image = some m) :
    s.holdNoise u = s.setSluUnit u { s.sluUnit u with noise := word64 (to64 (s.noiseGain u (budLogChan m))) } := by
  simp [State.holdNoise, h]

/-- With none it is a free value. -/
theorem holdNoise_idle {s : State} (u : Nat) (h : s.image = none) : s.holdNoise u
    = State.setSluUnit { s with free := s.free + 1 } u { s.sluUnit u with noise := Config.noiseOpen s.free } := by
  simp [State.holdNoise, h, State.fresh]
  rfl

theorem Only.holdNoise {K : Nat → Prop} {ps : List Part} {s t : State} (u : Nat) (hs : Part.slu ∈ ps) (hf : Part.free ∈ ps)
    (h : Only K ps s t) : Only K ps s (t.holdNoise u) := by
  cases hi : t.image with
  | some m =>
    rw [holdNoise_running u hi]
    exact h.set_slu _ hs
  | none =>
    rw [holdNoise_idle u hi]
    exact Only.set_slu _ hs (h.set_free _ hf)

@[simp] theorem holdNoise_winW (s : State) (u : Nat) : (s.holdNoise u).slu.winW = s.slu.winW := by
  cases hi : s.image with
  | some m =>
    rw [holdNoise_running u hi]
    rfl
  | none =>
    rw [holdNoise_idle u hi]
    rfl

/-- NG looks at the working windows alone. -/
theorem noiseGain_congr {s t : State} (h : t.slu.winW = s.slu.winW) (u l : Nat) : t.noiseGain u l = s.noiseGain u l := by
  simp only [State.noiseGain, State.winOf, h]

/-- The state with unit `u`'s shadow window put to work. -/
abbrev State.windowed (s : State) (u : Nat) : State :=
  { s with slu := { s.slu with winW := setRange (u * 32768) 32768 s.slu.winW (inRange (u * 32768) 32768 s.slu.winS) } }

/-- A window adopted, with NG anew (R13, R210). -/
theorem adoptWin_gives {s : State} {u : Nat} (h : exec .shadowSetAdoption s = done s (s.uncommitted.adoptWin u)) :
    Gives .shadowSetAdoption s fun t =>
    (∀ i, i < 32768 → mget (fun _ => 0) t.slu.winW (32768 * u + i) = mget (fun _ => 0) s.slu.winS (32768 * u + i))
    ∧ t.rd R.WIN_CTRL u = 0
    ∧ (s.sched.run.isSome = true → (t.sluUnit u).noise = word64 (to64 (t.noiseGain u (budLogChan (s.image.getD [])))))
    ∧ (s.sched.run.isSome = true → t.free = s.free) ∧ Frame (regsIn [R.WIN_CTRL.key u]) [.fab, .slu, .free] s t := by
  have hwin : (s.finish (s.uncommitted.adoptWin u)).slu.winW = (s.windowed u).slu.winW := by
    rw [finish_slu]
    exact holdNoise_winW (s.uncommitted.windowed u) u
  have hrun : s.sched.run.isSome = true → s.uncommitted.adoptWin u = ((s.uncommitted.windowed u).setSluUnit u
      { (s.uncommitted.windowed u).sluUnit u with
        noise := word64 (to64 ((s.uncommitted.windowed u).noiseGain u (budLogChan (s.image.getD [])))) }).wr R.WIN_CTRL u 0 := by
    intro hsome
    obtain ⟨i, hi⟩ := Option.isSome_iff_exists.mp hsome
    have himage : s.image = some (s.storeMem i) := by rw [State.image, hi, Option.map_some]
    rw [himage]
    exact congrArg (State.wr · R.WIN_CTRL u 0) (holdNoise_running (s := s.uncommitted.windowed u) u himage)
  refine Gives.done h ⟨fun i hi => ?_, ?_, fun hsome => ?_, fun hsome => ?_, ?_⟩
  · rw [hwin]
    exact (mget_setRange _ _ _ _ _ _).trans (if_pos (by omega))
  · rw [finish_rd (by decide)]
    exact rd_wr_self _ _ _ _ _
  · rw [noiseGain_congr (hwin.trans rfl : _ = (s.uncommitted.windowed u).slu.winW), hrun hsome, State.sluUnit, finish_slu]
    exact congrArg SluUnit.noise (mget_mset_self _ _ _ _)
  · rw [finish_free, hrun hsome]
    rfl
  · exact (Only.wr _ (by simp [regsIn]) (Only.holdNoise u (by simp) (by simp)
      (Only.set_slu _ (by simp) ((Only.refl _ _ s).set_fab _ (by simp))))).frame

/-- Waiting transfers sent elsewhere change the pseudo-channels alone (R308). -/
theorem rehome_eq (s : State) : ∃ pch, s.rehome = { s with heap := { s.heap with pch := pch } } := by
  unfold State.rehome
  dsimp only
  refine foldl_keeps (P := fun t => ∃ pch, t = { s with heap := { s.heap with pch := pch } }) ?_ _ _ ⟨_, rfl⟩
  rintro t x ⟨pch, rfl⟩
  exact ⟨_, rfl⟩

theorem rehome_rd (s : State) (r : Reg) (u k : Nat) : s.rehome.rd r u k = s.rd r u k := by
  obtain ⟨pch, h⟩ := rehome_eq s
  rw [h]
  rfl

theorem rehome_heap (s : State) : s.rehome.heap = { s.heap with pch := s.rehome.heap.pch } := by
  obtain ⟨pch, h⟩ := rehome_eq s
  rw [h]

theorem Only.rehome {K : Nat → Prop} {ps : List Part} {s t : State} (hp : Part.heap ∈ ps) (h : Only K ps s t) :
    Only K ps s t.rehome := by
  obtain ⟨pch, ht⟩ := rehome_eq t
  rw [ht]
  exact h.set_heap _ hp

/-- `WT_STAT`'s two fields. -/
theorem wtStat_fields (t : Nat) (b : Bool) : bit (word (at_ 32 (t % 2 ^ 32) + b.toNat)) 0 = b
    ∧ fld (word (at_ 32 (t % 2 ^ 32) + b.toNat)) 63 32 = t % 2 ^ 32 := by
  have ht : t % 2 ^ 32 < 2 ^ 32 := Nat.mod_lt _ (by decide)
  generalize t % 2 ^ 32 = i at ht ⊢
  have hb : b.toNat ≤ 1 := Bool.toNat_le b
  have hlt : i * 2 ^ 32 + b.toNat < 2 ^ 64 := by omega
  have hdiv : (i * 2 ^ 32 + b.toNat) / 2 ^ 32 = i := Nat.div_eq_of_lt_le (by omega) (by omega)
  simp only [bit, fld, word, at_, BitVec.getLsbD_ofNat, BitVec.toNat_ofNat, Nat.mod_eq_of_lt hlt, hdiv, Nat.testBit_zero]
  cases b <;> simp <;> omega

/-- `WT_SEL` and `WT_STAT` as an adoption of the weight copy writes them. -/
def State.weightShown (s : State) : State := (s.wr R.WT_SEL 0 (clrBit (s.rd R.WT_SEL) 0)).wr R.WT_STAT 0
  (word (at_ 32 (s.time.tide % 2 ^ 32) + fld (s.rd R.WT_SEL) 1 1))

theorem adoptWt_eq (s : State) : s.adoptWt = s.weightShown.rehome := rfl

/-- The weight copy adopted (R308). -/
theorem adoptWt_gives {s : State} (h : exec .shadowSetAdoption s = done s s.uncommitted.adoptWt) :
    Gives .shadowSetAdoption s fun t => t.rdb R.WT_STAT 0 0 = s.rdb R.WT_SEL 0 1
    ∧ t.rdf R.WT_STAT 0 63 32 = s.time.tide % 2 ^ 32 ∧ t.rdb R.WT_SEL 0 0 = false
    ∧ t.heap = { s.heap with pch := t.heap.pch } ∧ Frame (regsIn [R.WT_SEL.key 0, R.WT_STAT.key 0]) [.fab, .heap] s t := by
  rw [adoptWt_eq] at h
  have hstat : s.uncommitted.weightShown.rehome.rd R.WT_STAT
      = word (at_ 32 (s.time.tide % 2 ^ 32) + (s.rdb R.WT_SEL 0 1).toNat) := by
    rw [rehome_rd, State.weightShown, rd_wr_self, fld_bit, rd_uncommitted, State.rdb]
  have hsel : s.uncommitted.weightShown.rehome.rd R.WT_SEL = clrBit (s.uncommitted.rd R.WT_SEL) 0 := by
    rw [rehome_rd, State.weightShown, rd_wr_ne (by decide) (by decide) (by decide), rd_wr_self]
  obtain ⟨hcopy, htide⟩ := wtStat_fields s.time.tide (s.rdb R.WT_SEL 0 1)
  refine Gives.done h ⟨?_, ?_, ?_, ?_, ?_⟩
  · rw [finish_rdb (by decide), State.rdb, hstat, hcopy]
  · rw [finish_rdf (by decide), State.rdf, hstat, htide]
  · rw [finish_rdb (by decide), State.rdb, hsel, bit_clrBit_self]
  · rw [finish_heap]
    rw [rehome_heap, State.weightShown, wr_heap, wr_heap]
  · exact (Only.rehome (by simp) (Only.wr _ (by simp [regsIn]) (Only.wr _ (by simp [regsIn])
      ((Only.refl _ _ s).set_fab _ (by simp))))).frame

/-- The destination table adopted (R346). -/
theorem adoptDest_gives {s : State} (h : exec .shadowSetAdoption s = done s s.uncommitted.adoptDest) :
    Gives .shadowSetAdoption s fun t => t.net.dstWork = s.net.dstShadow ∧ t.rd R.DST_CTRL = 0
    ∧ Frame (regsIn [R.DST_CTRL.key 0]) [.fab, .net] s t := by
  refine Gives.done h ⟨?_, ?_, ?_⟩
  · rw [finish_net]
    rfl
  · rw [finish_rd (by decide), State.adoptDest, rd_wr_self]
  · exact (Only.wr _ (by simp [regsIn]) (Only.set_net _ (by simp) ((Only.refl _ _ s).set_fab _ (by simp)))).frame

/-- The TB0 step adopted: its COMMIT clears and the epoch closes (R400). -/
theorem adoptStep_gives {s : State} (h : exec .shadowSetAdoption s = done s s.uncommitted.adoptStep) :
    Gives .shadowSetAdoption s fun t => t.time = { s.time with armPend := true, closedAt := s.time.tide }
    ∧ t.rdb R.STEP_CTRL 0 0 = false ∧ Frame (regsIn [R.STEP_CTRL.key 0]) [.fab, .time] s t := by
  have hregs : s.uncommitted.adoptStep.regs
      = (s.uncommitted.wr R.STEP_CTRL 0 (clrBit (s.uncommitted.rd R.STEP_CTRL) 0)).regs := by rw [State.adoptStep]
  have hctrl : s.uncommitted.adoptStep.rd R.STEP_CTRL = clrBit (s.uncommitted.rd R.STEP_CTRL) 0 := by
    rw [rd_congr hregs, rd_wr_self]
  refine Gives.done h ⟨?_, ?_, ?_⟩
  · rw [finish_time]
    rfl
  · rw [finish_rdb (by decide), State.rdb, hctrl, bit_clrBit_self]
  · exact (Only.set_time _ (by simp) (Only.wr _ (by simp [regsIn]) ((Only.refl _ _ s).set_fab _ (by simp)))).frame

/-- Settles O10: a set that is due is adopted alone (`adoption_of_due`), each kind as its lemma says; one that is not stays. -/
theorem shadowSetsAreAdopted : Obligations.ShadowSetsAreAdopted := by
  unfold Obligations.ShadowSetsAreAdopted
  refine ⟨?arm, ?cancelled, ?dm, ?gain, ?win, ?wt, ?dest, ?step, ?waits, ?stays⟩
  case arm =>
    intro s hb hc hcancel hepoch
    have h := adoption_arm hb hc hcancel
    rw [adoptArm_eq, armHeld_uncommitted, if_neg fun hold => hold.1 hepoch] at h
    have hgives := adoptArm_gives h
    rwa [State.armHeld, hepoch] at hgives
  case cancelled =>
    intro s hb hc hcancel hhalt hepoch
    have h := adoption_arm hb hc hcancel
    rw [adoptArm_eq, armHeld_uncommitted, if_pos ⟨hepoch, hhalt⟩] at h
    exact adoptArm_cancel_gives hhalt h
  case dm =>
    intro s u k hb _ hk hs hc
    exact adoptModel_gives hk (adoption_supervised hb hs hc (by simp) rfl)
  case gain =>
    intro s u hb _ hs hc
    exact adoptGain_gives (adoption_supervised hb hs hc (by simp) rfl)
  case win =>
    intro s u hb _ hs hc
    exact adoptWin_gives (adoption_supervised hb hs hc (by simp) rfl)
  case wt =>
    intro s hb hs hc
    exact adoptWt_gives (adoption_supervised hb hs hc (by simp) rfl)
  case dest =>
    intro s hb hs hc
    exact adoptDest_gives (adoption_supervised hb hs hc (by simp) rfl)
  case step =>
    intro s hb hs hc
    exact adoptStep_gives (adoption_supervised hb hs hc (by simp) rfl)
  case waits =>
    intro s c _ hc hwait
    exact Gives.done (adoption_of_not_due hc (.inr (not_adopts_wait hwait))) ⟨by rw [finish_fab, hc], (Only.refl _ _ s).frame⟩
  case stays =>
    intro s c hc h
    have hdue : s.atBoundary = false ∨ s.adopts c = false := h.imp_right fun hu => not_adopts_unsupervised hu.1 hu.2
    exact Gives.done (adoption_of_not_due hc hdue) ⟨by rw [finish_fab, hc], (Only.refl _ _ s).frame⟩

end Sys2Proof.Machine

/-! PROOFS. What reports, resets of the core and tamper conditions leave unchanged, and what a core start does (spec/02,
spec/16): the rules that the statements on supplies, resets, power states and temperature share. -/

namespace Sys2Proof.Machine

/-- A report writes the bittern's part and, where it is suppressed, the registers that show it (R507). -/
theorem report_only (s : State) (page bank cls : Nat) (d0 d1 : Word) :
    Only (regsIn reportKeys) [.bitt] s (s.report page bank cls d0 d1) :=
  Only.report page bank cls d0 d1 (fun _ h => h) (by simp) (Only.refl _ _ s)

@[simp] theorem report_pwr (s : State) (page bank cls : Nat) (d0 d1 : Word) :
    (s.report page bank cls d0 d1).pwr = s.pwr := (report_only s page bank cls d0 d1).same (p := .pwr) (by decide)

@[simp] theorem report_time (s : State) (page bank cls : Nat) (d0 d1 : Word) :
    (s.report page bank cls d0 d1).time = s.time := (report_only s page bank cls d0 d1).same (p := .time) (by decide)

@[simp] theorem report_sup (s : State) (page bank cls : Nat) (d0 d1 : Word) :
    (s.report page bank cls d0 d1).sup = s.sup := (report_only s page bank cls d0 d1).same (p := .sup) (by decide)

@[simp] theorem report_heap (s : State) (page bank cls : Nat) (d0 d1 : Word) :
    (s.report page bank cls d0 d1).heap = s.heap := (report_only s page bank cls d0 d1).same (p := .heap) (by decide)

@[simp] theorem report_nv (s : State) (page bank cls : Nat) (d0 d1 : Word) :
    (s.report page bank cls d0 d1).nv = s.nv := (report_only s page bank cls d0 d1).same (p := .nv) (by decide)

theorem report_getReg {s : State} {page bank cls k : Nat} {d0 d1 : Word} (h : k ∉ reportKeys) :
    (s.report page bank cls d0 d1).getReg k = s.getReg k := (report_only s page bank cls d0 d1).getReg h

theorem report_rd {s : State} {page bank cls u k : Nat} {d0 d1 : Word} {r : Reg} (h : r.key u k ∉ reportKeys) :
    (s.report page bank cls d0 d1).rd r u k = s.rd r u k := report_getReg h

theorem report_hdr {s : State} {page bank cls g i : Nat} {d0 d1 : Word} (h : regKey 0 g 0 i ∉ reportKeys) :
    (s.report page bank cls d0 d1).hdr g i = s.hdr g i := report_getReg h

/-- What a report makes of the bittern rests on the bittern, the rate limit of its page and the time (R505 to R507). -/
theorem report_bitt_congr {s t : State} {page bank cls : Nat} {d0 d1 : Word} (hb : t.bitt = s.bitt)
    (hcfg : t.getReg (regKey 0 0x0B page R.RL_CFG.off) = s.getReg (regKey 0 0x0B page R.RL_CFG.off))
    (htotal : t.time.total = s.time.total) (htide : t.time.tide = s.time.tide) (hpos : t.time.pos = s.time.pos)
    (hepoch : t.time.epoch = s.time.epoch) :
    (t.report page bank cls d0 d1).bitt = (s.report page bank cls d0 d1).bitt := by
  have hlatch : ∀ src : Nat, (t.latchReport src cls d0 d1).bitt = (s.latchReport src cls d0 d1).bitt := by
    simp only [State.latchReport, State.tideWord, State.slot, State.tb2Sec, State.rclk, hb, htotal, htide, hpos, hepoch,
      implies_true]
  have hwin : ∀ src w : Nat, (t.latchReport src cls d0 d1).windowCount src w = (s.latchReport src cls d0 d1).windowCount src w :=
    fun src w => by simp only [State.windowCount, hlatch]
  have hcount : ∀ src w : Nat, t.windowCount src w = s.windowCount src w := by simp [State.windowCount, hb]
  have hms : t.tb2Ms = s.tb2Ms := by simp only [State.tb2Ms, State.rclk, htotal]
  simp only [State.report, hcfg, hms, hcount]
  split
  · exact hlatch _
  · split
    · simp only [hlatch, hwin]
    · simp only [State.count, raise_bitt, wr_bitt, hb]

/-- `PWR_STAT` shows the power part alone (R48). -/
theorem pwrStat_congr {s t : State} (h : t.pwr = s.pwr) : t.pwrStat = s.pwrStat := by simp only [State.pwrStat, h]

@[simp] theorem finish_pwrStat (s0 s1 : State) : (s0.finish s1).pwrStat = s1.pwrStat := pwrStat_congr (finish_pwr s0 s1)

@[simp] theorem setPwr_pwr (s : State) (f : Power → Power) : (s.setPwr f).pwr = f s.pwr := rfl

@[simp] theorem setPwr_getReg (s : State) (f : Power → Power) (k : Nat) : (s.setPwr f).getReg k = s.getReg k := rfl
@[simp] theorem setPwr_time (s : State) (f : Power → Power) : (s.setPwr f).time = s.time := rfl
@[simp] theorem setPwr_bitt (s : State) (f : Power → Power) : (s.setPwr f).bitt = s.bitt := rfl
@[simp] theorem setPwr_sup (s : State) (f : Power → Power) : (s.setPwr f).sup = s.sup := rfl
@[simp] theorem setPwr_heap (s : State) (f : Power → Power) : (s.setPwr f).heap = s.heap := rfl
@[simp] theorem setPwr_nv (s : State) (f : Power → Power) : (s.setPwr f).nv = s.nv := rfl
@[simp] theorem setPwr_rd (s : State) (f : Power → Power) (r : Reg) (u k : Nat) : (s.setPwr f).rd r u k = s.rd r u k := rfl

theorem Only.setPwr {K : Nat → Prop} {ps : List Part} {s t : State} (f : Power → Power) (hp : Part.pwr ∈ ps)
    (h : Only K ps s t) : Only K ps s (t.setPwr f) := h.set_pwr _ hp

theorem Only.setSv {K : Nat → Prop} {ps : List Part} {s t : State} (i : Nat) (v : SvState) (hp : Part.sup ∈ ps)
    (h : Only K ps s t) : Only K ps s (t.setSv i v) := h.set_sup _ hp

-- A reset of the core.

@[simp] theorem coreReset_pwr (s : State) (standby : Bool) : (s.coreReset standby).pwr = { s.pwr with
    coreUp := false, coreReady := false, rows := 0, dry := 0, dryStop := false, req := .none } := rfl
@[simp] theorem coreReset_bitt (s : State) (standby : Bool) : (s.coreReset standby).bitt = s.bitt := rfl
@[simp] theorem coreReset_nv (s : State) (standby : Bool) : (s.coreReset standby).nv = s.nv := rfl
@[simp] theorem coreReset_time (s : State) (standby : Bool) : (s.coreReset standby).time
    = { s.time with havePrev := false, prevMt := 0, rI := 0, lastOut := 0 } := rfl

/-- The heap's contents outlast a reset of the core that is not the entry to STANDBY (R16, R37). -/
theorem coreReset_mem (s : State) (standby : Bool) : (s.coreReset standby).heap.mem = if standby then [] else s.heap.mem := by
  cases standby <;> rfl

/-- The always-on pages' registers outlast a reset of the core (R16). -/
theorem coreReset_getReg {s : State} {standby : Bool} {k : Nat} (h : aonPage (keyPage k) = true) :
    (s.coreReset standby).getReg k = s.getReg k :=
  (mget_filter regDefault (fun j => aonPage (keyPage j)) k s.regs).trans (if_pos h)

/-- The core put in reset where it runs: what an order violation, VANA's loss, WARM_N and a thermal trip begin with. -/
def State.coreHalted (s : State) : State := if s.pwr.coreUp then s.coreReset false else s

theorem coreHalted_up {s : State} (h : s.pwr.coreUp = true) : s.coreHalted = s.coreReset false := if_pos h

theorem coreHalted_down {s : State} (h : s.pwr.coreUp = false) : s.coreHalted = s := if_neg (by simp [h])

/-- Supplies, holds, causes and the power state are as they were; the core is in reset, its requests at most dropped. -/
theorem coreHalted_pwr (s : State) : ∃ ready rows dry dryStop req, s.coreHalted.pwr = { s.pwr with
    coreUp := false, coreReady := ready, rows := rows, dry := dry, dryStop := dryStop, req := req } := by
  cases h : s.pwr.coreUp with
  | true => exact ⟨_, _, _, _, _, by rw [coreHalted_up h, coreReset_pwr]⟩
  | false => exact ⟨_, _, _, _, _, by rw [coreHalted_down h, ← h]⟩

@[simp] theorem coreHalted_bitt (s : State) : s.coreHalted.bitt = s.bitt := by
  unfold State.coreHalted
  split <;> rfl

@[simp] theorem coreHalted_nv (s : State) : s.coreHalted.nv = s.nv := by
  unfold State.coreHalted
  split <;> rfl

@[simp] theorem coreHalted_mem (s : State) : s.coreHalted.heap.mem = s.heap.mem := by
  unfold State.coreHalted
  split <;> rfl

/-- A reset of the core clears the servo's history and leaves the time (R17, R403). -/
theorem coreHalted_time (s : State) : ∃ have_ mt r out, s.coreHalted.time
    = { s.time with havePrev := have_, prevMt := mt, rI := r, lastOut := out } := by
  unfold State.coreHalted
  split
  · exact ⟨_, _, _, _, rfl⟩
  · exact ⟨_, _, _, _, rfl⟩

theorem coreHalted_getReg {s : State} {k : Nat} (h : aonPage (keyPage k) = true) : s.coreHalted.getReg k = s.getReg k := by
  unfold State.coreHalted
  split
  · exact coreReset_getReg h
  · rfl

/-- A report says the same before and after the core was put in reset. -/
theorem coreHalted_report (s : State) {page : Nat} (hp : page < 256) (bank cls : Nat) (d0 d1 : Word) :
    (s.coreHalted.report page bank cls d0 d1).bitt = (s.report page bank cls d0 d1).bitt := by
  obtain ⟨a, b, c, d, ht⟩ := coreHalted_time s
  have haon : aonPage (keyPage (regKey 0 0x0B page R.RL_CFG.off)) = true := by
    rw [keyPage_regKey (by decide) hp (by decide)]
    rfl
  exact report_bitt_congr (coreHalted_bitt s) (coreHalted_getReg haon) (by rw [ht]) (by rw [ht]) (by rw [ht]) (by rw [ht])

-- Tamper conditions.

/-- The pages in which the firmware's answer to a tamper condition may show: the schedule engine's arm (R470). -/
abbrev armKeys : Nat → Prop := onPages [0x10]

/-- The pages in which a tamper condition may show: the monitor's, the bittern's and the arm's (R468 to R470). -/
abbrev tamperKeys : Nat → Prop := onPages [0x09, 0x0B, 0x10]

theorem tamperKeys_of_mem {k : Nat} (h : keyPage k ∈ [0x09, 0x0B, 0x10]) : tamperKeys k := h

/-- The parts that the answer to a tamper condition may change (R469, R470). -/
abbrev holdParts : List Part := [.tam, .cmds, .sup, .sched, .fab]

/-- The parts that a tamper condition may change, its record and its report included. -/
abbrev tamperParts : List Part := [.tam, .cmds, .sup, .sched, .fab, .nv, .bitt]

theorem Only.ite {K : Nat → Prop} {ps : List Part} {s t u : State} {c : Prop} [Decidable c] (ht : Only K ps s t)
    (hu : Only K ps s u) : Only K ps s (if c then t else u) := by
  split
  · exact ht
  · exact hu

theorem Only.setStoreSt {K : Nat → Prop} {ps : List Part} {s t : State} (i : Nat) (v : StoreState) (hp : Part.sched ∈ ps)
    (h : Only K ps s t) : Only K ps s (t.setStoreSt i v) := h.set_sched _ hp

theorem Only.commit {K : Nat → Prop} {ps : List Part} {s t : State} (set : ShadowSet) (hp : Part.fab ∈ ps)
    (h : Only K ps s t) : Only K ps s (t.commit set) := h.set_fab _ hp

/-- A write of `ARM_CTRL` enters an arm and marks its store (R105). -/
theorem Only.wrArmCtrl {K : Nat → Prop} {ps : List Part} {s t : State} (v : Word) (hk : K (R.ARM_CTRL.key 0))
    (hs : Part.sched ∈ ps) (hf : Part.fab ∈ ps) (h : Only K ps s t) : Only K ps s (t.wrArmCtrl v) := by
  have hw : Only K ps s (t.wr R.ARM_CTRL 0 v) := h.wr v hk
  exact Only.ite (Only.commit _ hf (Only.ite hw (hw.setStoreSt _ _ hs))) hw

theorem tamperCancel_only (s : State) : Only armKeys holdParts s s.tamperCancel :=
  Only.ite ((Only.refl _ _ s).set_sched _ (by decide)) (Only.refl _ _ s)

theorem tamperArm_only (s : State) : Only armKeys holdParts s s.tamperArm :=
  Only.ite (((Only.refl _ _ s).wr _ (onPages_iff.mpr (by decide))).wrArmCtrl _ (onPages_iff.mpr (by decide)) (by decide)
    (by decide)) (Only.refl _ _ s)

/-- Tamper-hold stops sessions and checkpoints, and withdraws or halts what is armed (R469, R470). -/
theorem enterHold_only (s : State) : Only armKeys holdParts s s.enterHold := by
  have hstopped := Only.set_cmds { s.cmds with session := [] } (by decide)
    ((Only.refl armKeys holdParts s).set_tam { s.tam with hold := true, pendingWake := false } (by decide))
  exact (hstopped.set_sup _ (by decide)).trans ((tamperCancel_only _).trans (tamperArm_only _))

theorem abortKeyOps_only (s : State) : Only armKeys holdParts s s.abortKeyOps := by
  refine List.foldlRecOn _ _ (Only.refl _ _ s) fun t ht c _ => ?_
  split
  · exact Only.set_cmds _ (by decide) (ht.set_cmds _ (by decide))
  · exact ht

theorem tmpRespond_only (s : State) (k phase : Nat) : Only armKeys holdParts s (s.tmpRespond k phase) := by
  have hrunning (t : State) : Only armKeys holdParts t (if t.rdb R.TMP_CFG 0 (8 + k) then t.enterHold else t) :=
    Only.ite (enterHold_only t) (Only.refl _ _ t)
  unfold State.tmpRespond
  dsimp only
  split
  · exact hrunning s
  · exact enterHold_only s
  · exact (Only.refl _ _ s).set_tam _ (by decide)
  · exact (abortKeyOps_only s).trans (hrunning _)

/-- A tamper condition as it is recorded, before its answer (R468). -/
def State.tamperNoted (s : State) (k : Nat) (unlock : Bool) : State :=
  let ph := s.tmpPhase unlock
  let s := s.wr R.TMP_LATCH 0 (setBit (s.rd R.TMP_LATCH) k)
  let s := s.wr R.TMP_LAST 0 (word (at_ 32 (s.tb2Sec % 2 ^ 32) + at_ 16 ph + k))
  let n := s.nv.nvm.byte (tamperPlace + k)
  let s := s.nvmWrite (tamperPlace + k) [BitVec.ofNat 8 (min (n.toNat + 1) 0xFF)]
  (s.report 0x09 0 0x07 (s.rd R.TMP_LAST) (s.rd R.TMP_LATCH)).raise 0x09 0

theorem tamper_enabled {s : State} {k : Nat} (unlock : Bool) (h : s.rdb R.TMP_CFG 0 k = true) :
    s.tamper k unlock = (s.tamperNoted k unlock).tmpRespond k (s.tmpPhase unlock) := by
  rw [State.tamper, if_pos h, State.tamperNoted]

/-- A source that is not enabled leaves everything as it was (R468). -/
theorem tamper_disabled {s : State} {k : Nat} (unlock : Bool) (h : s.rdb R.TMP_CFG 0 k = false) : s.tamper k unlock = s := by
  rw [State.tamper, if_neg (by simp [h])]

theorem tamperNoted_only (s : State) (k : Nat) (unlock : Bool) : Only tamperKeys tamperParts s (s.tamperNoted k unlock) := by
  refine Only.raise (tamperKeys_of_mem (by decide)) (Only.report _ _ _ _ _ (fun j hj => ?_) (by decide) (Only.set_nv _ (by decide)
    (Only.wr _ (tamperKeys_of_mem (by decide)) (Only.wr _ (tamperKeys_of_mem (by decide)) (Only.refl _ _ s)))))
  exact tamperKeys_of_mem ((by decide : ∀ j ∈ reportKeys, keyPage j ∈ [0x09, 0x0B, 0x10]) j hj)

theorem armKeys_tamperKeys (k : Nat) (h : armKeys k) : tamperKeys k :=
  tamperKeys_of_mem (by rw [List.mem_singleton.mp h]; decide)

theorem tamper_only (s : State) (k : Nat) (unlock : Bool) : Only tamperKeys tamperParts s (s.tamper k unlock) := by
  cases h : s.rdb R.TMP_CFG 0 k with
  | false =>
    rw [tamper_disabled unlock h]
    exact Only.refl _ _ s
  | true =>
    rw [tamper_enabled unlock h]
    exact (tamperNoted_only s k unlock).trans ((tmpRespond_only _ k _).mono armKeys_tamperKeys (by decide))

/-- The conditions that persist at a start-up, and one latched in STANDBY (R469). -/
theorem wakeTamper_only (s : State) : Only tamperKeys tamperParts s s.wakeTamper := by
  have hlatched : Only tamperKeys tamperParts s (if s.tam.pendingWake then s.enterHold else s) :=
    Only.ite ((enterHold_only s).mono armKeys_tamperKeys (by decide)) (Only.refl _ _ s)
  unfold State.wakeTamper
  exact List.foldlRecOn _ _ hlatched fun t ht k _ => Only.ite (ht.trans (tamper_only t k false)) ht

/-- With nothing latched in STANDBY and the sources 3 and 4 off there is nothing to answer. -/
theorem wakeTamper_quiet {s : State} (hwake : s.tam.pendingWake = false) (h3 : s.rdb R.TMP_CFG 0 3 = false)
    (h4 : s.rdb R.TMP_CFG 0 4 = false) : s.wakeTamper = s := by
  simp only [State.wakeTamper, hwake, Bool.false_eq_true, if_false, List.foldl_cons, List.foldl_nil, tamper_disabled _ h3,
    ite_self, tamper_disabled _ h4]

-- A core start.

/-- A link with its next `SESSION` (R164). -/
def Link.nextSession (l : Link) : Link := { l with session := (l.session + 1) % 32768 }

/-- Each of the first `n` links has its next `SESSION`, and the others are as they were. -/
theorem lk_nextSessions (s : State) (n q : Nat) :
    ((List.range n).foldl (fun t k => t.setLk k (t.lk k).nextSession) s).lk q
      = if q < n then (s.lk q).nextSession else s.lk q := by
  induction n generalizing q with
  | zero => simp
  | succ n ih =>
    rw [List.range_succ, List.foldl_append, List.foldl_cons, List.foldl_nil]
    generalize hfold : (List.range n).foldl (fun t k => t.setLk k (t.lk k).nextSession) s = u at ih ⊢
    have hset : (u.setLk n (u.lk n).nextSession).lk q = if q = n then (u.lk n).nextSession else u.lk q :=
      mget_mset _ _ _ _ _
    rw [hset, ih n, ih q, if_neg (Nat.lt_irrefl n)]
    by_cases hq : q = n
    · rw [if_pos hq, if_pos (by omega), hq]
    · rw [if_neg hq, if_congr (by omega : q < n ↔ q < n + 1) rfl rfl]

theorem sessionsNext_session {s : State} {q : Nat} (h : q < 256) :
    (s.sessionsNext.lk q).session = ((s.lk q).session + 1) % 32768 := by
  have hlk : s.sessionsNext.lk q = (s.lk q).nextSession := (lk_nextSessions s 256 q).trans (if_pos h)
  rw [hlk, Link.nextSession]

theorem sessionsNext_only (s : State) : Only noRegs [.links] s s.sessionsNext :=
  List.foldlRecOn _ _ (Only.refl _ _ s) fun _ ht _ _ => ht.set_links _ (by decide)

/-- The core out of reset with one supervisor that boots, before the links' sessions and the tamper conditions (R33, R444). -/
def State.coreBooted (s : State) : State :=
  let t := ((s.setPwr fun p => { p with coreUp := true, coreReady := false, state := .boot, cause := p.lastStop
                                        standbyReady := false }).svReset true).setSv (if s.pwr.feedA then 0 else 1) .starting
  ({ t with sup := { t.sup with bootKind := .coreStart, unsupStart := some t.time.total } } : State).deriveTide

theorem coreStart_eq (s : State) : s.coreStart = s.coreBooted.sessionsNext.wakeTamper := rfl

theorem coreBooted_pwr (s : State) : s.coreBooted.pwr = { s.pwr with
    coreUp := true, coreReady := false, state := .boot, cause := s.pwr.lastStop, standbyReady := false } := rfl

theorem coreBooted_time (s : State) : ∃ tide pos, s.coreBooted.time = { s.time with tide := tide, pos := pos } := ⟨_, _, rfl⟩

/-- Beside its own parts a core start leaves what the sessions and the tamper conditions leave. -/
theorem coreStart_same {s : State} {p : Part} (hl : p ∉ [Part.links]) (ht : p ∉ tamperParts) :
    p.same s.coreBooted s.coreStart := Part.same_trans ((sessionsNext_only _).same hl) ((wakeTamper_only _).same ht)

theorem coreStart_pwr (s : State) : s.coreStart.pwr = { s.pwr with
    coreUp := true, coreReady := false, state := .boot, cause := s.pwr.lastStop, standbyReady := false } := by
  have hsame : s.coreStart.pwr = s.coreBooted.pwr := coreStart_same (p := .pwr) (by decide) (by decide)
  rw [hsame, coreBooted_pwr]

theorem coreStart_time (s : State) : ∃ tide pos, s.coreStart.time = { s.time with tide := tide, pos := pos } := by
  have hsame : s.coreStart.time = s.coreBooted.time := coreStart_same (p := .time) (by decide) (by decide)
  rw [hsame]
  exact coreBooted_time s

/-- The core as it is evaluated: started where it may run and does not (R33). -/
theorem coreEval_starts {s : State} (hrun : s.coreMayRun = true) (hup : s.pwr.coreUp = false) : s.coreEval = s.coreStart :=
  if_pos ⟨hrun, hup⟩

theorem coreEval_stays {s : State} (h : s.coreMayRun = false ∨ s.pwr.coreUp = true) : s.coreEval = s := by
  refine if_neg ?_
  rintro ⟨hrun, hup⟩
  rcases h with h | h
  · rw [h] at hrun
    exact Bool.false_ne_true hrun
  · rw [h] at hup
    exact Bool.false_ne_true hup.symm

/-- Whether the core is started or not, its evaluation leaves the supplies, the pins and the holds. -/
theorem coreEval_pwr (s : State) : ∃ up ready state cause standby, s.coreEval.pwr = { s.pwr with
    coreUp := up, coreReady := ready, state := state, cause := cause, standbyReady := standby } := by
  by_cases h : s.coreMayRun = true ∧ s.pwr.coreUp = false
  · exact ⟨_, _, _, _, _, by rw [coreEval_starts h.1 h.2, coreStart_pwr]⟩
  · exact ⟨_, _, _, _, _, by rw [State.coreEval, if_neg h]⟩

theorem coreEval_time (s : State) : ∃ tide pos, s.coreEval.time = { s.time with tide := tide, pos := pos } := by
  by_cases h : s.coreMayRun = true ∧ s.pwr.coreUp = false
  · rw [coreEval_starts h.1 h.2]
    exact coreStart_time s
  · exact ⟨_, _, by rw [State.coreEval, if_neg h]⟩

end Sys2Proof.Machine

/-! PROOFS. Feeds, order violations and the islands, and the settlement of `Obligations.FeedsSteerTheAlwaysOnDomain`. -/

namespace Sys2Proof.Machine

-- An order violation (R32).

/-- The core in reset, held, with the rails that rose early in `PWR_FAULT`, before the report. -/
def State.faulted (s : State) (rails : BitVec 8) : State :=
  (s.coreHalted.wr R.PWR_FAULT 0 (s.coreHalted.rd R.PWR_FAULT ||| word (at_ 8 rails.toNat))).setPwr
    fun p => { p with seqHold := true, state := .held, lastStop := 6 }

theorem violation_eq (s : State) (rails : BitVec 8) : s.violation rails
    = (s.faulted rails).report 0x08 0 0x02 (s.faulted rails).pwrStat ((s.faulted rails).rd R.PWR_FAULT) := rfl

theorem faulted_getReg {s : State} {rails : BitVec 8} {k : Nat} (h : k ≠ R.PWR_FAULT.key 0) :
    (s.faulted rails).getReg k = s.coreHalted.getReg k := by
  rw [State.faulted, setPwr_getReg]
  exact getReg_setReg_ne h

@[simp] theorem faulted_bitt (s : State) (rails : BitVec 8) : (s.faulted rails).bitt = s.coreHalted.bitt := by
  rw [State.faulted, setPwr_bitt, wr_bitt]

@[simp] theorem faulted_time (s : State) (rails : BitVec 8) : (s.faulted rails).time = s.coreHalted.time := by
  rw [State.faulted, setPwr_time, wr_time]

theorem faulted_fault (s : State) (rails : BitVec 8) :
    (s.faulted rails).rd R.PWR_FAULT = s.rd R.PWR_FAULT ||| word (at_ 8 rails.toNat) := by
  have hkept : s.coreHalted.rd R.PWR_FAULT = s.rd R.PWR_FAULT := coreHalted_getReg (by decide)
  rw [State.faulted, setPwr_rd, rd_wr_self, hkept]

theorem violation_pwr (s : State) (rails : BitVec 8) :
    (s.violation rails).pwr = { s.coreHalted.pwr with seqHold := true, state := .held, lastStop := 6 } := by
  rw [violation_eq, report_pwr, State.faulted, setPwr_pwr, wr_pwr]

theorem violation_fault (s : State) (rails : BitVec 8) :
    (s.violation rails).rd R.PWR_FAULT = s.rd R.PWR_FAULT ||| word (at_ 8 rails.toNat) := by
  rw [violation_eq, report_rd (by decide), faulted_fault]

/-- With the core in reset a violation changes the holds, the fault register and the bittern alone. -/
theorem violation_only {s : State} (rails : BitVec 8) (h : s.pwr.coreUp = false) :
    Only (regsIn (R.PWR_FAULT.key 0 :: reportKeys)) [.pwr, .bitt] s (s.violation rails) := by
  have hfaulted : Only (regsIn (R.PWR_FAULT.key 0 :: reportKeys)) [.pwr, .bitt] s (s.faulted rails) := by
    rw [State.faulted, coreHalted_down h]
    exact ((Only.refl _ _ s).wr _ (List.mem_cons_self ..)).setPwr _ (by decide)
  rw [violation_eq]
  exact hfaulted.report _ _ _ _ _ (fun k hk => List.mem_cons_of_mem _ hk) (by decide)

-- When the core may not run (R30 to R33).

theorem coreMayRun_por {s : State} (h : s.pwr.porN = false) : s.coreMayRun = false := by simp [State.coreMayRun, h]
theorem coreMayRun_warm {s : State} (h : s.pwr.warmN = false) : s.coreMayRun = false := by simp [State.coreMayRun, h]
theorem coreMayRun_held {s : State} (h : s.pwr.seqHold = true) : s.coreMayRun = false := by simp [State.coreMayRun, h]
theorem coreMayRun_feeds {s : State} (h : s.feedOk = false) : s.coreMayRun = false := by simp [State.coreMayRun, h]
theorem coreMayRun_rails {s : State} (h : s.pwr.railOk &&& 0x7F#8 ≠ 0x7F#8) : s.coreMayRun = false := by
  have hrails : (s.pwr.railOk &&& coreRails == coreRails) = false := beq_false_of_ne h
  simp [State.coreMayRun, hrails]

-- POR_N heeded (R33).

/-- Nothing to heed: the pin is low, or it is heeded already, or no feed is qualified. -/
theorem heedPor_still {s : State} (h : s.pwr.porPin = false ∨ s.pwr.porN = true ∨ s.feedOk = false) : s.heedPor = s := by
  refine if_neg ?_
  rintro ⟨hpin, hpor, hfeed⟩
  rcases h with h | h | h
  · simp [h] at hpin
  · simp [h] at hpor
  · simp [h] at hfeed

theorem heedPor_heeds {s : State} (hpin : s.pwr.porPin = true) (hpor : s.pwr.porN = false) (hfeed : s.feedOk = true) :
    s.heedPor = (if s.pwr.started &&& 0x7E#8 ≠ 0 then
        (s.setPwr fun p => { p with porN := true }).violation (s.pwr.started &&& 0x7E#8)
      else s.setPwr fun p => { p with porN := true }) := if_pos ⟨hpin, hpor, hfeed⟩

-- Feeds (R29).

theorem feedIs_congr {s t : State} (ha : t.pwr.feedA = s.pwr.feedA) (hb : t.pwr.feedB = s.pwr.feedB) (f : Feed) :
    t.feedIs f = s.feedIs f := by
  cases f
  · exact ha
  · exact hb

theorem feedOk_of_feedIs {s : State} {f : Feed} (h : s.feedIs f = true) : s.feedOk = true := by
  cases f
  · exact (Bool.or_eq_true _ _).mpr (.inl h)
  · exact (Bool.or_eq_true _ _).mpr (.inr h)

/-- Of two feeds neither of which is qualified none is. -/
theorem feedOk_of_neither {s : State} {f g : Feed} (hne : f ≠ g) (hf : s.feedIs f = false) (hg : s.feedIs g = false) :
    s.feedOk = false := by
  cases f <;> cases g
  · exact absurd rfl hne
  · exact Bool.or_eq_false_iff.mpr ⟨hf, hg⟩
  · exact Bool.or_eq_false_iff.mpr ⟨hg, hf⟩
  · exact absurd rfl hne

/-- The power part with a feed's qualification. -/
def Power.withFeed (p : Power) (f : Feed) (b : Bool) : Power :=
  match f with
  | .a => { p with feedA := b }
  | .b => { p with feedB := b }

/-- A feed's qualification touches no other field. -/
theorem withFeed_eq (p : Power) (f : Feed) (b : Bool) : ∃ x y, p.withFeed f b = { p with feedA := x, feedB := y } := by
  cases f
  · exact ⟨b, p.feedB, rfl⟩
  · exact ⟨p.feedA, b, rfl⟩

/-- The state with a feed's qualification. -/
abbrev State.withFeed (s : State) (f : Feed) (b : Bool) : State := s.setPwr fun p => p.withFeed f b

@[simp] theorem feedIs_withFeed_self (s : State) (f : Feed) (b : Bool) : (s.withFeed f b).feedIs f = b := by cases f <;> rfl

theorem feedIs_withFeed_ne {s : State} {f g : Feed} (h : f ≠ g) (b : Bool) : (s.withFeed f b).feedIs g = s.feedIs g := by
  cases f <;> cases g
  · exact absurd rfl h
  · rfl
  · rfl
  · exact absurd rfl h

/-- One feed alone carries the always-on domain. -/
theorem steer_alone {s : State} {f g : Feed} (h : f ≠ g) (hf : s.feedIs f = true) (hg : s.feedIs g = false) :
    s.steer = s.setPwr fun p => { p with load := some f } := by
  cases f <;> cases g
  · exact absurd rfl h
  · have ha : s.pwr.feedA = true := hf
    have hb : s.pwr.feedB = false := hg
    simp only [State.steer, ha, hb]
  · have hb : s.pwr.feedB = true := hf
    have ha : s.pwr.feedA = false := hg
    simp only [State.steer, ha, hb]
  · exact absurd rfl h

/-- With both qualified one carries it: which one is a free value. -/
theorem steer_both {s : State} {f g : Feed} (h : f ≠ g) (hf : s.feedIs f = true) (hg : s.feedIs g = true) :
    ∃ ld, s.steer = State.setPwr { s with free := s.free + 1 } fun p => { p with load := some ld } := by
  have hab : s.pwr.feedA = true ∧ s.pwr.feedB = true := by
    cases f <;> cases g
    · exact absurd rfl h
    · exact ⟨hf, hg⟩
    · exact ⟨hg, hf⟩
    · exact absurd rfl h
  obtain ⟨ha, hb⟩ := hab
  exact ⟨if Config.feedHigher s.free then .a else .b, by simp only [State.steer, ha, hb, State.fresh]; rfl⟩

/-- The power part once a feed has qualified, before the load moves: a dark device begins to boot. -/
def Power.woken (p : Power) (f : Feed) : Power :=
  { p.withFeed f true with state := if p.state = .off then .boot else p.state }

/-- The power part once a feed has qualified, the load on one of the feeds. -/
def Power.fed (p : Power) (f ld : Feed) : Power := { p.woken f with load := some ld }

@[simp] theorem fed_porN (p : Power) (f ld : Feed) : (p.fed f ld).porN = p.porN := by cases f <;> rfl
@[simp] theorem fed_porPin (p : Power) (f ld : Feed) : (p.fed f ld).porPin = p.porPin := by cases f <;> rfl
@[simp] theorem fed_warmN (p : Power) (f ld : Feed) : (p.fed f ld).warmN = p.warmN := by cases f <;> rfl
@[simp] theorem fed_coreUp (p : Power) (f ld : Feed) : (p.fed f ld).coreUp = p.coreUp := by cases f <;> rfl
@[simp] theorem fed_started (p : Power) (f ld : Feed) : (p.fed f ld).started = p.started := by cases f <;> rfl
@[simp] theorem fed_railOk (p : Power) (f ld : Feed) : (p.fed f ld).railOk = p.railOk := by cases f <;> rfl
@[simp] theorem fed_seqHold (p : Power) (f ld : Feed) : (p.fed f ld).seqHold = p.seqHold := by cases f <;> rfl
@[simp] theorem fed_load (p : Power) (f ld : Feed) : (p.fed f ld).load = some ld := rfl
@[simp] theorem fed_state (p : Power) (f ld : Feed) :
    (p.fed f ld).state = if p.state = .off then .boot else p.state := rfl

/-- A dark device that begins to boot is not in STANDBY. -/
theorem fed_state_standby (p : Power) (f ld : Feed) : (p.fed f ld).state = .standby ↔ p.state = .standby := by
  rw [fed_state]
  by_cases h : p.state = .off <;> simp [h]

theorem fed_feedIs_self {s t : State} {f ld : Feed} (h : t.pwr = s.pwr.fed f ld) : t.feedIs f = true :=
  (feedIs_congr (s := s.withFeed f true) (by rw [h]; rfl) (by rw [h]; rfl) f).trans (feedIs_withFeed_self s f true)

theorem fed_feedIs_ne {s t : State} {f g ld : Feed} (hne : f ≠ g) (h : t.pwr = s.pwr.fed f ld) : t.feedIs g = s.feedIs g :=
  (feedIs_congr (s := s.withFeed f true) (by rw [h]; rfl) (by rw [h]; rfl) g).trans (feedIs_withFeed_ne hne true)

/-- The state once a feed has qualified, before POR_N is heeded and its island acts. -/
def State.supply (s : State) (f : Feed) : State := (s.setPwr fun p => p.woken f).steer

theorem feedUp_eq (s : State) (f : Feed) : s.feedUp f = ((s.supply f).heedPor.islandUp (feedNum f)).coreEval := by
  have hwoken : (if s.pwr.state = .off then (s.withFeed f true).setPwr fun p => { p with state := .boot }
      else s.withFeed f true) = s.setPwr fun p => p.woken f := by
    obtain ⟨x, y, h⟩ := withFeed_eq s.pwr f true
    by_cases hoff : s.pwr.state = .off <;> simp [State.setPwr, Power.woken, hoff, h]
  rw [State.supply, ← hwoken]
  cases f <;> rfl

theorem woken_feedIs (s : State) {f g : Feed} (h : f ≠ g) :
    (s.setPwr fun p => p.woken f).feedIs f = true ∧ (s.setPwr fun p => p.woken f).feedIs g = s.feedIs g :=
  ⟨feedIs_withFeed_self s f true, feedIs_withFeed_ne h true⟩

theorem supply_alone {s : State} {f g : Feed} (h : f ≠ g) (hg : s.feedIs g = false) :
    s.supply f = s.setPwr fun p => p.fed f f := by
  obtain ⟨hself, hother⟩ := woken_feedIs s h
  exact steer_alone h hself (hother.trans hg)

theorem supply_both {s : State} {f g : Feed} (h : f ≠ g) (hg : s.feedIs g = true) :
    ∃ ld, s.supply f = State.setPwr { s with free := s.free + 1 } fun p => p.fed f ld := by
  obtain ⟨hself, hother⟩ := woken_feedIs s h
  exact steer_both h hself (hother.trans hg)

-- Islands (R444, R446).

@[simp] theorem sv_setSv_self (s : State) (i : Nat) (v : SvState) : (s.setSv i v).sv i = v := by
  by_cases h : i = 0 <;> simp [State.setSv, State.sv, h]

theorem sv_congr {s t : State} (h : t.sup = s.sup) (i : Nat) : t.sv i = s.sv i := by simp only [State.sv, h]

theorem sv_setSv_ne {s : State} {f g : Feed} (h : f ≠ g) (v : SvState) :
    (s.setSv (feedNum f) v).sv (feedNum g) = s.sv (feedNum g) := by
  cases f <;> cases g
  · exact absurd rfl h
  · rfl
  · rfl
  · exact absurd rfl h

@[simp] theorem finish_sv (s0 s1 : State) (i : Nat) : (s0.finish s1).sv i = s1.sv i := sv_congr (finish_sup s0 s1) i

@[simp] theorem finish_feedIs (s0 s1 : State) (f : Feed) : (s0.finish s1).feedIs f = s1.feedIs f :=
  feedIs_congr (by rw [finish_pwr]) (by rw [finish_pwr]) f

/-- While the core is in reset an island goes to STANDBY, but not in the state STANDBY. -/
theorem islandUp_reset {s : State} {i : Nat} (hoff : s.sv i = .off) (hup : s.pwr.coreUp = false) :
    s.islandUp i = if s.pwr.state = .standby then s else s.setSv i .standby := by
  rw [State.islandUp, if_neg (by simp [hoff]), if_pos hup]

/-- An island's start concerns the supervisors alone. -/
theorem islandUp_only (s : State) (i : Nat) : Only noRegs [.sup] s (s.islandUp i) :=
  Only.ite (Only.refl _ _ s) (Only.ite (Only.ite (Only.refl _ _ s) ((Only.refl _ _ s).setSv _ _ (by decide)))
    (Only.ite (Only.set_sup _ (by decide) ((Only.refl _ _ s).setSv _ _ (by decide))) ((Only.refl _ _ s).setSv _ _ (by decide))))

@[simp] theorem islandUp_pwr (s : State) (i : Nat) : (s.islandUp i).pwr = s.pwr :=
  (islandUp_only s i).same (p := .pwr) (by decide)

/-- Beside an acting supervisor it makes a qualifying boot. -/
theorem islandUp_beside {s : State} {i : Nat} (hoff : s.sv i = .off) (hup : s.pwr.coreUp = true)
    (hrole : s.svRole.isSome = true) : s.islandUp i = s.setSv i .qualifying := by
  obtain ⟨r, hr⟩ := Option.isSome_iff_exists.mp hrole
  simp [State.islandUp, hoff, hup, hr]

/-- With none acting it takes over. -/
theorem islandUp_takes {s : State} {i : Nat} (hoff : s.sv i = .off) (hup : s.pwr.coreUp = true)
    (hrole : s.svRole = none) (hdue : s.sup.takeoverDue = false) : s.islandUp i
      = { s with sup := { (s.setSv i .standby).sup with takeoverDue := true, bootKind := .takeover } } := by
  simp [State.islandUp, hoff, hup, hrole, hdue, State.setSv]

-- What a feed that qualifies does (R29, R33, R444).

theorem feedQualified_done {s : State} {f : Feed} (h : s.feedIs f = false) :
    exec (.feedQualified f) s = done s (s.feedUp f) := congrArg (done s) (if_neg (by simp [h]))

/-- The state in which a feed has qualified and carries the domain alone. -/
abbrev State.fedAlone (s : State) (f : Feed) : State := s.setPwr fun p => p.fed f f

/-- That state with POR_N heeded. -/
abbrev State.heeded (s : State) (f : Feed) : State := s.setPwr fun p => { p.fed f f with porN := true }

theorem fedAlone_feedOk (s : State) (f : Feed) : (s.fedAlone f).feedOk = true := feedOk_of_feedIs (fed_feedIs_self rfl)

/-- A feed that carries the domain alone, with nothing of POR_N to heed. -/
theorem feedUp_dark {s : State} {f g : Feed} (hfg : f ≠ g) (hg : s.feedIs g = false) (hpin : s.pwr.porPin = false)
    (hpor : s.pwr.porN = false) (hup : s.pwr.coreUp = false) (hst : s.pwr.state ≠ .standby) (hsv : s.sv (feedNum f) = .off) :
    s.feedUp f = (s.fedAlone f).setSv (feedNum f) .standby := by
  have hsv' : (s.fedAlone f).sv (feedNum f) = .off := hsv
  have hst' : ¬ (s.fedAlone f).pwr.state = .standby := mt (fed_state_standby s.pwr f f).mp hst
  rw [feedUp_eq, supply_alone hfg hg, heedPor_still (.inl (by simpa using hpin)), islandUp_reset hsv' (by simpa using hup),
    if_neg hst', coreEval_stays (.inl (coreMayRun_por (by simpa [State.setSv] using hpor)))]

/-- A feed that carries the domain alone, with POR_N high at its ball and no rail of steps 3 and 4 up. -/
theorem feedUp_heeds {s : State} {f g : Feed} (hfg : f ≠ g) (hg : s.feedIs g = false) (hpin : s.pwr.porPin = true)
    (hpor : s.pwr.porN = false) (hup : s.pwr.coreUp = false) (hst : s.pwr.state ≠ .standby) (hsv : s.sv (feedNum f) = .off)
    (hearly : s.pwr.started &&& 0x7E#8 = 0) (hrails : s.pwr.railOk &&& 0x7F#8 ≠ 0x7F#8) :
    s.feedUp f = (s.heeded f).setSv (feedNum f) .standby := by
  have hheed : (s.fedAlone f).heedPor = s.heeded f := by
    rw [heedPor_heeds (by simpa using hpin) (by simpa using hpor) (fedAlone_feedOk s f), if_neg (by simpa using hearly)]
    rfl
  have hsv' : (s.heeded f).sv (feedNum f) = .off := hsv
  have hst' : ¬ (s.heeded f).pwr.state = .standby := mt (fed_state_standby s.pwr f f).mp hst
  rw [feedUp_eq, supply_alone hfg hg, hheed, islandUp_reset hsv' (by simpa using hup), if_neg hst',
    coreEval_stays (.inl (coreMayRun_rails (by simpa [State.setSv] using hrails)))]

/-- Rails of steps 3 and 4 that are up when POR_N is heeded: an order violation. -/
theorem feedUp_early {s : State} {f g : Feed} (hfg : f ≠ g) (hg : s.feedIs g = false) (hpin : s.pwr.porPin = true)
    (hpor : s.pwr.porN = false) (hearly : s.pwr.started &&& 0x7E#8 ≠ 0) :
    s.feedUp f = ((s.heeded f).violation (s.pwr.started &&& 0x7E#8)).islandUp (feedNum f) := by
  have hheed : (s.fedAlone f).heedPor = (s.heeded f).violation (s.pwr.started &&& 0x7E#8) := by
    rw [heedPor_heeds (by simpa using hpin) (by simpa using hpor) (fedAlone_feedOk s f), if_pos (by simpa using hearly),
      setPwr_pwr, fed_started]
    rfl
  have hheld : (((s.heeded f).violation (s.pwr.started &&& 0x7E#8)).islandUp (feedNum f)).pwr.seqHold = true := by
    rw [islandUp_pwr, violation_pwr]
  rw [feedUp_eq, supply_alone hfg hg, hheed, coreEval_stays (.inl (coreMayRun_held hheld))]

/-- The state in which a second feed has qualified; which of the two carries the domain is a free value. -/
abbrev State.fedBeside (s : State) (f ld : Feed) : State := State.setPwr { s with free := s.free + 1 } fun p => p.fed f ld

/-- A second feed: POR_N is heeded already, and a core that runs or may not run stays as it is. -/
theorem feedUp_second {s : State} {f g : Feed} (hfg : f ≠ g) (hg : s.feedIs g = true) (hpor : s.pwr.porN = true)
    (hcore : s.pwr.coreUp = true ∨ s.pwr.warmN = false) :
    ∃ ld, s.feedUp f = (s.fedBeside f ld).islandUp (feedNum f) := by
  obtain ⟨ld, hsupply⟩ := supply_both hfg hg
  refine ⟨ld, ?_⟩
  rw [feedUp_eq, hsupply, heedPor_still (.inr (.inl (by simpa using hpor)))]
  refine coreEval_stays (hcore.elim (fun hup => .inr ?_) fun hwarm => .inl (coreMayRun_warm ?_))
  · rw [islandUp_pwr]
    simpa using hup
  · rw [islandUp_pwr]
    simpa using hwarm

theorem fedBeside_only (s : State) (f ld : Feed) : Only noRegs [.pwr, .sup, .free] s (s.fedBeside f ld) :=
  ((Only.refl _ _ s).set_free _ (by decide)).setPwr _ (by decide)

/-- The frame of a second feed and what its island makes of it. -/
theorem fedBeside_frame (s : State) (f ld : Feed) (u : Supers) :
    Frame noRegs [.pwr, .sup, .free] s (s.finish { s.fedBeside f ld with sup := u }) :=
  ((fedBeside_only s f ld).set_sup u (by decide)).frame

-- What a feed that is lost does (R29, R34, R446).

theorem feedDisqualified_done {s : State} {f : Feed} (h : s.feedIs f = true) :
    exec (.feedDisqualified f) s = done s (s.feedDown f) := congrArg (done s) (if_pos h)

/-- The state in which the load has moved to the other feed. -/
abbrev State.moved (s : State) (f g : Feed) : State := s.setPwr fun p => { p.withFeed f false with load := some g }

theorem feedDown_eq (s : State) (f : Feed) : s.feedDown f = if (s.withFeed f false).feedOk then
    ((s.withFeed f false).steer.report 0x08 0 0x01 (s.withFeed f false).pwrStat 0).islandDown (feedNum f)
      else (s.withFeed f false).allLost := by cases f <;> rfl

theorem feedDown_moves {s : State} {f g : Feed} (hfg : f ≠ g) (hg : s.feedIs g = true) : s.feedDown f
    = ((s.moved f g).report 0x08 0 0x01 (s.moved f g).pwrStat 0).islandDown (feedNum f) := by
  have hother : (s.withFeed f false).feedIs g = true := (feedIs_withFeed_ne hfg false).trans hg
  rw [feedDown_eq, if_pos (feedOk_of_feedIs hother), steer_alone hfg.symm hother (feedIs_withFeed_self s f false)]
  rfl

/-- The last feed lost takes the always-on domain down (R34). -/
theorem feedDown_last {s : State} {f g : Feed} (hfg : f ≠ g) (hg : s.feedIs g = false) :
    s.feedDown f = (s.withFeed f false).allLost := by
  have hnone : (s.withFeed f false).feedOk = false :=
    feedOk_of_neither hfg (feedIs_withFeed_self s f false) ((feedIs_withFeed_ne hfg false).trans hg)
  rw [feedDown_eq, if_neg (by simp [hnone])]

/-- The move of the load and its report. -/
theorem moved_only (s : State) (f g : Feed) : Only (regsIn reportKeys) [.pwr, .bitt, .sup] s
    ((s.moved f g).report 0x08 0 0x01 (s.moved f g).pwrStat 0) :=
  Only.report _ _ _ _ _ (fun _ hk => hk) (by decide) ((Only.refl _ _ s).setPwr _ (by decide))

/-- What both losses of one of two feeds share: the load moves and the loss is reported. -/
theorem moved_gives {s : State} {f g : Feed} {u : Supers} (hfg : f ≠ g) (hg : s.feedIs g = true) : 
    let t := s.finish { (s.moved f g).report 0x08 0 0x01 (s.moved f g).pwrStat 0 with sup := u }
    t.feedIs f = false ∧ t.feedIs g = true ∧ t.pwr.load = some g ∧ t.sup = u ∧ s.reports t 0x08 0 0x01 t.pwrStat 0
      ∧ Frame (regsIn reportKeys) [.pwr, .bitt, .sup] s t := by
  have hpwr : (s.finish { (s.moved f g).report 0x08 0 0x01 (s.moved f g).pwrStat 0 with sup := u }).pwr = (s.moved f g).pwr := by
    rw [finish_pwr]
    exact report_pwr ..
  have hself : (s.moved f g).feedIs f = false := feedIs_withFeed_self s f false
  have hother : (s.moved f g).feedIs g = s.feedIs g := feedIs_withFeed_ne hfg false
  refine ⟨?_, ?_, ?_, finish_sup .., ?_, ((moved_only s f g).set_sup u (by decide)).frame⟩
  · exact (feedIs_congr (by rw [hpwr]) (by rw [hpwr]) f).trans hself
  · exact (feedIs_congr (by rw [hpwr]) (by rw [hpwr]) g).trans (hother.trans hg)
  · rw [hpwr]
    rfl
  · rw [State.reports, pwrStat_congr hpwr, finish_bitt]
    exact report_bitt_congr rfl rfl rfl rfl rfl rfl

/-- With every register at its reset value the device is in no saltern. -/
theorem meshZ_of_regs_nil {s : State} (h : s.regs = []) : s.meshZ = 0 := by
  have hcfg : s.rd R.MESH_CFG = State.reset.rd R.MESH_CFG := rd_congr h _ _ _
  rw [State.meshZ, State.rdf, hcfg]
  exact reset_meshZ

/-- Outside a saltern a command's end leaves the registers. -/
theorem finish_regs_alone {s0 s1 : State} (h : s1.meshZ = 0) : (s0.finish s1).regs = s1.regs := by
  have htrack : State.meshTrack s0 s1 = s1 := if_pos h
  obtain ⟨pba, sent, hs, -⟩ := signal_spec s0 s1.condTrack
  rw [State.finish, htrack, hs]
  rfl

/-- What is left once no feed is qualified (R34, R78): non-volatile and one-time memory and the ROM. -/
theorem allLost_gives (s y : State) :
    let t := s.finish y.allLost
    t.pwr = { porPin := y.pwr.porPin, warmN := y.pwr.warmN, perstN := y.pwr.perstN, junction := y.pwr.junction, state := .off }
      ∧ t.regs = [] ∧ t.heap.mem = [] ∧ t.nv.nvm = y.nv.nvm ∧ t.nv.otp = y.nv.otp ∧ t.xbar.rom = y.xbar.rom := by
  refine ⟨finish_pwr _ _, finish_regs_alone (meshZ_of_regs_nil rfl), ?_, ?_, ?_, ?_⟩
  · rw [finish_heap]
    rfl
  · rw [finish_nv]
    rfl
  · rw [finish_nv]
    rfl
  · rw [finish_xbar]
    rfl

/-- A command that leaves everything as it was. -/
theorem stays_gives {c : Instr} {s : State} (h : exec c s = done s s) : Gives c s fun t => Frame noRegs [] s t :=
  Gives.done h (Only.refl _ _ s).frame

/-- A feed's island starts, and of the rest only the power part has changed. -/
theorem feedUp_frame {s : State} {f : Feed} {v : SvState} {p : Power → Power} :
    Frame noRegs [.pwr, .sup] s (s.finish ((s.setPwr p).setSv (feedNum f) v)) :=
  (((Only.refl _ _ s).setPwr p (by decide)).setSv _ v (by decide)).frame

/-- An acting supervisor whose feed is lost leaves the cause of a failover (R446). -/
theorem islandDown_acting {s : State} {i : Nat} (h : s.sv i = .active ∨ s.sv i = .starting) :
    s.islandDown i = { s with sup := { s.sup with failCause := some 2 } } := if_pos h

/-- An idle island goes off. -/
theorem islandDown_idle {s : State} {i : Nat} (ha : s.sv i ≠ .active) (hs : s.sv i ≠ .starting) : s.islandDown i
    = { s with sup := { (s.setSv i .off).sup with
        takeoverDue := (s.setSv i .off).sup.takeoverDue && (s.setSv i .off).sv (1 - i) == .standby } } :=
  if_neg (not_or.mpr ⟨ha, hs⟩)

/-- Settles O1: each clause by what the feed does in its case (`feedUp_dark`, `feedUp_heeds`, `feedUp_early`, `feedUp_second`,
`feedDown_moves`, `feedDown_last`) and what its island does then. -/
theorem feedsSteerTheAlwaysOnDomain : Obligations.FeedsSteerTheAlwaysOnDomain := by
  unfold Obligations.FeedsSteerTheAlwaysOnDomain
  refine ⟨?dark, ?heeds, ?early, ?beside, ?takes, ?reset, ?again, ?idleLost, ?actingLost, ?lastLost, ?lostAgain, ?both⟩
  case dark =>
    intro s f g hfg hf hg hpin hpor hup hst hsv
    refine Gives.done ((feedQualified_done hf).trans (congrArg (done s) (feedUp_dark hfg hg hpin hpor hup hst hsv)))
      ⟨?_, ?_, ?_, ?_, ?_, ?_, feedUp_frame⟩
    · rw [finish_feedIs]
      exact fed_feedIs_self (s := s) rfl
    · rw [finish_feedIs]
      exact (fed_feedIs_ne (s := s) hfg rfl).trans hg
    · rw [finish_pwr]
      rfl
    · rw [finish_sv, sv_setSv_self]
    · rw [finish_sv, sv_setSv_ne hfg]
      rfl
    · rw [finish_pwr]
      rfl
  case heeds =>
    intro s f g hfg hf hg hpin hpor hup hst hsv hearly hrails
    refine Gives.done ((feedQualified_done hf).trans (congrArg (done s)
      (feedUp_heeds hfg hg hpin hpor hup hst hsv hearly hrails))) ⟨?_, ?_, ?_, ?_, ?_, feedUp_frame⟩
    · rw [finish_feedIs]
      exact fed_feedIs_self (s := s) (t := s.fedAlone f) rfl
    · rw [finish_pwr]
      rfl
    · rw [finish_pwr]
      rfl
    · rw [finish_pwr]
      exact fed_seqHold s.pwr f f
    · rw [finish_sv, sv_setSv_self]
  case early =>
    intro s f g hfg hf hg hpin hpor hup hearly
    have hup' : (s.heeded f).pwr.coreUp = false := by simpa using hup
    have hpwr : (s.feedUp f).pwr = { (s.heeded f).pwr with seqHold := true, state := .held, lastStop := 6 } := by
      rw [feedUp_early hfg hg hpin hpor hearly, islandUp_pwr, violation_pwr, coreHalted_down hup']
    have honly : Only (regsIn (R.PWR_FAULT.key 0 :: reportKeys)) [.pwr, .sup, .bitt] s (s.feedUp f) := by
      rw [feedUp_early hfg hg hpin hpor hearly]
      exact ((((Only.refl _ _ s).setPwr _ (by decide)).trans ((violation_only _ hup').mono (fun _ h => h) (by decide)))).trans
        ((islandUp_only _ _).mono (fun _ h => h.elim) (by decide))
    refine Gives.done (feedQualified_done hf) ⟨?_, ?_, ?_, ?_, ?_, honly.frame⟩
    · rw [finish_feedIs]
      exact (feedIs_congr (s := s.fedAlone f) (by rw [hpwr]; rfl) (by rw [hpwr]; rfl) f).trans
        (fed_feedIs_self (s := s) rfl)
    · rw [finish_pwr, hpwr]
      rfl
    · rw [finish_pwr, hpwr]
    · rw [finish_pwr, hpwr]
    · have hisland : (s.feedUp f).rd R.PWR_FAULT = ((s.heeded f).violation (s.pwr.started &&& 0x7E#8)).rd R.PWR_FAULT := by
        rw [feedUp_early hfg hg hpin hpor hearly]
        exact (islandUp_only _ _).getReg id
      rw [finish_rd (by decide), hisland, violation_fault, setPwr_rd]
  case beside =>
    intro s f g hfg hf hg hpor hup hsv hrole
    obtain ⟨ld, hfeed⟩ := feedUp_second hfg hg hpor (.inl hup)
    have hisland : (s.fedBeside f ld).islandUp (feedNum f) = (s.fedBeside f ld).setSv (feedNum f) .qualifying :=
      islandUp_beside hsv (by simpa using hup) hrole
    refine Gives.done ((feedQualified_done hf).trans (congrArg (done s) (hfeed.trans hisland)))
      ⟨?_, ?_, ?_, ?_, fedBeside_frame s f ld _⟩
    · rw [finish_feedIs]
      exact fed_feedIs_self (s := s) (t := s.fedBeside f ld) rfl
    · rw [finish_pwr]
      rfl
    · rw [finish_sv, sv_setSv_self]
    · rw [finish_sv, sv_setSv_ne hfg]
      rfl
  case takes =>
    intro s f g hfg hf hg hpor hup hsv hrole hdue
    obtain ⟨ld, hfeed⟩ := feedUp_second hfg hg hpor (.inl hup)
    have hisland := islandUp_takes (s := s.fedBeside f ld) hsv (by simpa using hup) hrole hdue
    refine Gives.done ((feedQualified_done hf).trans (congrArg (done s) (hfeed.trans hisland)))
      ⟨?_, ?_, ?_, ?_, fedBeside_frame s f ld _⟩
    · rw [finish_feedIs]
      exact fed_feedIs_self (s := s) (t := s.fedBeside f ld) rfl
    · rw [finish_sv]
      exact sv_setSv_self (s.fedBeside f ld) (feedNum f) .standby
    · rw [finish_sup]
    · rw [finish_sup]
  case reset =>
    intro s f g hfg hf hg hpor hwarm hup hsv
    obtain ⟨ld, hfeed⟩ := feedUp_second hfg hg hpor (.inr hwarm)
    have hisland : (s.fedBeside f ld).islandUp (feedNum f) = if s.pwr.state = .standby then s.fedBeside f ld
        else (s.fedBeside f ld).setSv (feedNum f) .standby :=
      (islandUp_reset (s := s.fedBeside f ld) hsv (by simpa using hup)).trans (if_congr (fed_state_standby s.pwr f ld) rfl rfl)
    have hpwr : (s.feedUp f).pwr = s.pwr.fed f ld := by
      rw [hfeed, islandUp_pwr]
      rfl
    have honly : Only noRegs [.pwr, .sup, .free] s (s.feedUp f) := by
      rw [hfeed]
      exact (fedBeside_only s f ld).trans ((islandUp_only _ _).mono (fun _ h => h) (by decide))
    refine Gives.done (feedQualified_done hf) ⟨?_, ?_, ?_, honly.frame⟩
    · rw [finish_feedIs]
      exact fed_feedIs_self hpwr
    · rw [finish_pwr, hpwr]
      rfl
    · rw [finish_sv, hfeed, hisland]
      split
      · exact hsv
      · exact sv_setSv_self _ _ _
  case again =>
    intro s f hf
    exact stays_gives (congrArg (done s) (if_pos hf))
  case idleLost =>
    intro s f g hfg hf hg hactive hstarting
    have hdown := feedDown_moves hfg hg
    have hisland := islandDown_idle (s := (s.moved f g).report 0x08 0 0x01 (s.moved f g).pwrStat 0) (i := feedNum f)
      (by rwa [sv_congr (report_sup _ _ _ _ _ _)]) (by rwa [sv_congr (report_sup _ _ _ _ _ _)])
    obtain ⟨hself, hother, hload, hsup, hreports, hframe⟩ := moved_gives (s := s) hfg hg
    refine Gives.done ((feedDisqualified_done hf).trans (congrArg (done s) (hdown.trans hisland)))
      ⟨hself, hother, hload, ?_, ?_, hreports, hframe⟩
    · rw [finish_sv]
      exact sv_setSv_self _ _ _
    · rw [finish_sv]
      exact (sv_setSv_ne hfg .off).trans (sv_congr (report_sup ..) _)
  case actingLost =>
    intro s f g hfg hf hg hact
    have hisland : ((s.moved f g).report 0x08 0 0x01 (s.moved f g).pwrStat 0).islandDown (feedNum f)
        = { (s.moved f g).report 0x08 0 0x01 (s.moved f g).pwrStat 0 with sup := { s.sup with failCause := some 2 } } := by
      rw [islandDown_acting (by rwa [sv_congr (report_sup _ _ _ _ _ _)]), report_sup]
      rfl
    exact Gives.done ((feedDisqualified_done hf).trans (congrArg (done s) ((feedDown_moves hfg hg).trans hisland)))
      (moved_gives hfg hg)
  case lastLost =>
    intro s f g hfg hf hg
    obtain ⟨hpwr, hregs, hmem, hnvm, hotp, hrom⟩ := allLost_gives s (s.withFeed f false)
    exact Gives.done ((feedDisqualified_done hf).trans (congrArg (done s) (feedDown_last hfg hg)))
      ⟨by rw [hpwr], by rw [hpwr], by rw [hpwr], by rw [hpwr], hregs, hmem, hnvm, hotp, hrom⟩
  case lostAgain =>
    intro s f hf
    exact stays_gives (congrArg (done s) (if_neg (by simp [hf])))
  case both =>
    intro s hst
    obtain ⟨hpwr, hregs, hmem, hnvm, hotp, hrom⟩ := allLost_gives s s
    have hlost : exec .vaonBothLost s = done s s.allLost := congrArg (done s) (if_neg hst)
    exact Gives.done hlost ⟨by rw [hpwr], by rw [hpwr], by rw [hpwr], by rw [hpwr], hregs, hmem, hnvm, hotp, hrom⟩

end Sys2Proof.Machine

/-! PROOFS. The root PLL's states, switches and epochs as far as supplies meet them, and the refutation of
`Obligations.RailsRiseInOrder`: VANA's return counts a pending move's tide anew. -/

namespace Sys2Proof.Machine

/-- The parts that clocks and epochs may change: time, reports and notifications (R393, R411, R441). -/
abbrev clockParts : List Part := [.time, .bitt, .cmds, .net, .xbar, .free]

/-- A notification, in a frame that names no register. -/
theorem Only.notify {s t : State} (code : Nat) (rs : List Word) (h : Only anyReg clockParts s t) :
    Only anyReg clockParts s (t.notify code rs) :=
  h.trans ((notify_only t code rs).mono (fun _ _ => trivial) (by decide))

@[simp] theorem notify_time (s : State) (code : Nat) (rs : List Word) : (s.notify code rs).time = s.time :=
  (notify_only s code rs).same (p := .time) (by decide)

theorem tb0Eval_only (s : State) : Only anyReg clockParts s s.tb0Eval := by
  have hset := (Only.refl anyReg clockParts s).set_time { s.time with tb0St := s.tb0Want } (by decide)
  exact Only.ite (Only.refl _ _ s) (Only.ite (Only.raise trivial (Only.raise trivial hset)) (Only.raise trivial hset))

/-- Of the time TB0's state alone is evaluated (R399, R401). -/
theorem tb0Eval_time (s : State) : ∃ st, s.tb0Eval.time = { s.time with tb0St := st } := by
  unfold State.tb0Eval
  dsimp only
  split
  · exact ⟨s.time.tb0St, rfl⟩
  · split
    · exact ⟨s.tb0Want, rfl⟩
    · exact ⟨s.tb0Want, rfl⟩

/-- The root PLL in a new state with its event, before reports (R393). -/
def State.pllEntered (s : State) (v : PllState) : State :=
  let t := ({ s with time := { s.time with pll := v, lockedAll := s.time.lockedAll && v == .locked } } : State).raise 0x01 0
  if v = .acquiring then { t with time := { t.time with acqAt := t.time.total } } else t

/-- That state with the report of a holdover or a loss. -/
def State.pllReported (s : State) (v : PllState) : State :=
  if v = .holdover ∨ v = .lost then (s.pllEntered v).refReport 0x01 else s.pllEntered v

theorem setPll_changes {s : State} {v : PllState} (h : s.time.pll ≠ v) : s.setPll v
    = ((s.pllReported v).notify 0x8004 [(s.pllReported v).pllStat, (s.pllReported v).rd R.LAST_SWITCH]).tb0Eval := if_neg h

theorem pllReported_only (s : State) (v : PllState) : Only anyReg clockParts s (s.pllReported v) := by
  have hentered : Only anyReg clockParts s (s.pllEntered v) := by
    have hset := Only.raise (g := 0x01) (i := 0) trivial ((Only.refl anyReg clockParts s).set_time
      { s.time with pll := v, lockedAll := s.time.lockedAll && v == .locked } (by decide))
    exact Only.ite (hset.set_time _ (by decide)) hset
  exact Only.ite (hentered.report _ _ _ _ _ (fun _ _ => trivial) (by decide)) hentered

theorem pllReported_time (s : State) (v : PllState) : ∃ all acq, (s.pllReported v).time
    = { s.time with pll := v, lockedAll := all, acqAt := acq } := by
  have hentered : (s.pllReported v).time = (s.pllEntered v).time := by
    unfold State.pllReported
    split
    · exact report_time ..
    · rfl
  rw [hentered, State.pllEntered]
  dsimp only
  split
  · exact ⟨_, _, rfl⟩
  · exact ⟨_, _, rfl⟩

theorem setPll_only (s : State) (v : PllState) : Only anyReg clockParts s (s.setPll v) := by
  by_cases h : s.time.pll = v
  · rw [State.setPll, if_pos h]
    exact Only.refl _ _ s
  · rw [setPll_changes h]
    exact ((pllReported_only s v).notify _ _).trans (tb0Eval_only _)

/-- Of the time a new state of the root PLL brings that state, what is counted from it and TB0's state. -/
theorem setPll_time (s : State) (v : PllState) : ∃ all acq st, (s.setPll v).time
    = { s.time with pll := v, lockedAll := all, acqAt := acq, tb0St := st } := by
  by_cases h : s.time.pll = v
  · exact ⟨s.time.lockedAll, s.time.acqAt, s.time.tb0St, by rw [State.setPll, if_pos h, ← h]⟩
  · obtain ⟨all, acq, hreported⟩ := pllReported_time s v
    obtain ⟨st, heval⟩ := tb0Eval_time
      ((s.pllReported v).notify 0x8004 [(s.pllReported v).pllStat, (s.pllReported v).rd R.LAST_SWITCH])
    exact ⟨all, acq, st, by rw [setPll_changes h, heval, notify_time, hreported]⟩

/-- Two times with the same oscillator, epoch and tide. -/
abbrev Time.SameTide (t u : Time) : Prop := u.coarse = t.coarse ∧ u.epoch = t.epoch ∧ u.tide = t.tide

theorem setPll_sameTide (s : State) (v : PllState) : Time.SameTide s.time (s.setPll v).time := by
  obtain ⟨_, _, _, h⟩ := setPll_time s v
  exact ⟨by rw [h], by rw [h], by rw [h]⟩

/-- A switch counted and recorded (R391). -/
def State.switchNoted (s : State) (k cause : Nat) : State :=
  (s.count R.SWITCH_CNT 0).wr R.LAST_SWITCH 0
    (word (at_ 32 ((s.count R.SWITCH_CNT 0).tb2Sec % 2 ^ 32) + at_ 12 cause + at_ 4 s.time.src + k))

/-- The PLL on its way to another source, before its new state (R396, R397). -/
def State.switching (s : State) (k cause : Nat) (x : Int) : State :=
  let t := s.switchNoted k cause
  let goal := s.time.netTarget + s.theta k x
  ({ t with time := { t.time with
      src := k, absorb := s.theta k x, netTarget := goal, slewing := goal * 1000000 != s.time.netPhase
      switchAt := s.time.total, acqAt := s.time.total, ctrl := t.ctrlBase } } : State).raise 0x01 1

theorem switchTo_eq (s : State) (k cause : Nat) (x : Int) : s.switchTo k cause x
    = (if s.time.pll == .acquiring then (s.switching k cause x).notify 0x8004
        [(s.switching k cause x).pllStat, (s.switching k cause x).rd R.LAST_SWITCH]
      else s.switching k cause x).setPll .acquiring := rfl

theorem switching_only (s : State) (k cause : Nat) (x : Int) : Only anyReg clockParts s (s.switching k cause x) :=
  Only.raise trivial (Only.set_time _ (by decide) (Only.wr _ trivial (Only.wr _ trivial (Only.refl _ _ s))))

theorem switchTo_only (s : State) (k cause : Nat) (x : Int) : Only anyReg clockParts s (s.switchTo k cause x) := by
  rw [switchTo_eq]
  exact (Only.ite ((switching_only s k cause x).notify _ _) (switching_only s k cause x)).trans (setPll_only _ _)

theorem switching_sameTide (s : State) (k cause : Nat) (x : Int) : Time.SameTide s.time (s.switching k cause x).time := by
  have hnoted : (s.switchNoted k cause).time = s.time := by rw [State.switchNoted, wr_time, State.count, wr_time]
  rw [State.switching, raise_time, hnoted]
  exact ⟨rfl, rfl, rfl⟩

theorem switchTo_sameTide (s : State) (k cause : Nat) (x : Int) : Time.SameTide s.time (s.switchTo k cause x).time := by
  obtain ⟨hcoarse, hepoch, htide⟩ := switching_sameTide s k cause x
  rw [switchTo_eq]
  generalize hu : (if s.time.pll == .acquiring then (s.switching k cause x).notify 0x8004
    [(s.switching k cause x).pllStat, (s.switching k cause x).rd R.LAST_SWITCH] else s.switching k cause x) = u
  have htime : u.time = (s.switching k cause x).time := by
    rw [← hu]
    split
    · exact notify_time ..
    · rfl
  obtain ⟨hc, he, ht⟩ := setPll_sameTide u .acquiring
  rw [htime] at hc he ht
  exact ⟨hc.trans hcoarse, he.trans hepoch, ht.trans htide⟩

-- The opening of an epoch.

theorem unitsEpoch_only (s : State) (len : Nat) : Only noRegs [.slu, .links, .heap, .pans] s (s.unitsEpoch len) := by
  unfold State.unitsEpoch
  refine Only.set_pans _ (by decide) (List.foldlRecOn _ _ ?_ fun t ht r _ => ht.set_pans _ (by decide))
  exact (Only.refl _ _ s).parts rfl rfl fun p hq => by cases p <;> first | rfl | exact absurd (by decide) hq

/-- A new epoch in its first tide, with a pending move's tide counted anew, before TB0's evaluation and the events. -/
def State.epochBegun (s : State) (start : Int) (num : Nat) : State :=
  let t := s.time
  let len := t.tide * tideSclk
  let s := s.unitsEpoch len
  let t1 : Time := { t with
    epoch := num, epochStart := start, tb0 := start, tide := 0, pos := 0, armPend := false, jump := false
    stepUsed := false, havePrev := false, prevMt := 0, rI := 0, tb1 := if s.tb1Master then start else t.tb1 }
  { s with time := t1, links := { s.links with due := [] }
           sched := { s.sched with prevLen := len, prevNum := t.epoch, conds := [], flushed := [] }
           pwr := { s.pwr with req := s.pwr.req.shift (-(t.tide : Int)) } }

theorem openEpoch_eq (s : State) (start : Int) (num : Nat) : s.openEpoch start num
    = ([0x03, 0x04, 0x05, 0x06].foldl (fun s p => s.raise p 2) (s.epochBegun start num).tb0Eval).notify 0x8002
        [word num, word (timeSec start), timeNsWord start] := rfl

theorem epochBegun_pwr (s : State) (start : Int) (num : Nat) :
    (s.epochBegun start num).pwr = { s.pwr with req := s.pwr.req.shift (-(s.time.tide : Int)) } := by
  have hunits : (s.unitsEpoch (s.time.tide * tideSclk)).pwr = s.pwr := (unitsEpoch_only s _).same (p := .pwr) (by decide)
  rw [State.epochBegun, ← hunits]

theorem openEpoch_pwr (s : State) (start : Int) (num : Nat) :
    (s.openEpoch start num).pwr = { s.pwr with req := s.pwr.req.shift (-(s.time.tide : Int)) } := by
  have hopen : Only anyReg clockParts (s.epochBegun start num) (s.openEpoch start num) := by
    rw [openEpoch_eq]
    exact Only.notify _ _ (Only.raise trivial (Only.raise trivial (Only.raise trivial (Only.raise trivial (tb0Eval_only _)))))
  exact (hopen.same (p := .pwr) (by decide)).trans (epochBegun_pwr s start num)

theorem openEpoch_time (s : State) (start : Int) (num : Nat) :
    (s.openEpoch start num).time.coarse = s.time.coarse ∧ (s.openEpoch start num).time.epoch = num := by
  obtain ⟨st, heval⟩ := tb0Eval_time (s.epochBegun start num)
  have htime : (s.openEpoch start num).time = (s.epochBegun start num).tb0Eval.time := by
    rw [openEpoch_eq, notify_time]
    rfl
  rw [htime, heval]
  exact ⟨rfl, rfl⟩

-- VANA's return (R408).

/-- The device off its own oscillator. -/
def State.offOscillator (s : State) : State := { s with time := { s.time with coarse := false } }

/-- That state with a source chosen where one is eligible. -/
def State.reclocked (s : State) : State :=
  match s.offOscillator.candidate with
  | some k => s.offOscillator.fresh.2.switchTo k 2 (Config.restartPhase s.offOscillator.fresh.1)
  | none => s.offOscillator

theorem vanaBack_eq (s : State) : s.vanaBack
    = (s.reclocked.openEpoch s.reclocked.time.tb0 (nextEpoch s.reclocked.time.epoch)).tb0Eval := rfl

theorem reclocked_only (s : State) : Only anyReg clockParts s s.reclocked := by
  have hoff : Only anyReg clockParts s s.offOscillator := (Only.refl _ _ s).set_time _ (by decide)
  unfold State.reclocked
  split
  · exact (hoff.set_free _ (by decide)).trans (switchTo_only s.offOscillator.fresh.2 _ _ _)
  · exact hoff

theorem reclocked_time (s : State) :
    s.reclocked.time.coarse = false ∧ s.reclocked.time.epoch = s.time.epoch ∧ s.reclocked.time.tide = s.time.tide := by
  unfold State.reclocked
  split
  · exact switchTo_sameTide s.offOscillator.fresh.2 _ _ _
  · exact ⟨rfl, rfl, rfl⟩

/-- VANA's return opens an epoch: a pending move waits for the same boundary under its new number (R35, R85). -/
theorem vanaBack_pwr (s : State) :
    s.vanaBack.pwr = { s.pwr with req := s.pwr.req.shift (-(s.time.tide : Int)) } := by
  obtain ⟨-, -, htide⟩ := reclocked_time s
  have hclock : s.reclocked.pwr = s.pwr := (reclocked_only s).same (p := .pwr) (by decide)
  have heval : s.vanaBack.pwr
      = (s.reclocked.openEpoch s.reclocked.time.tb0 (nextEpoch s.reclocked.time.epoch)).pwr := by
    rw [vanaBack_eq]
    exact (tb0Eval_only _).same (p := .pwr) (by decide)
  rw [heval, openEpoch_pwr, hclock, htide]

theorem vanaBack_time (s : State) :
    s.vanaBack.time.coarse = false ∧ s.vanaBack.time.epoch = nextEpoch s.time.epoch := by
  obtain ⟨hcoarse, hepoch, -⟩ := reclocked_time s
  obtain ⟨st, heval⟩ := tb0Eval_time (s.reclocked.openEpoch s.reclocked.time.tb0 (nextEpoch s.reclocked.time.epoch))
  obtain ⟨hopen, hnum⟩ := openEpoch_time s.reclocked s.reclocked.time.tb0 (nextEpoch s.reclocked.time.epoch)
  rw [vanaBack_eq, heval]
  exact ⟨hopen.trans hcoarse, hnum.trans (by rw [hepoch])⟩

/-- VANA that qualifies while the core runs on the device's own oscillator. -/
theorem railQualified_vana_pwr {s : State} (hstarted : s.pwr.started.getLsbD Rail.vana.bit = true) (hcheck : s.checking = true)
    (hok : s.pwr.ok .vana = false) (hcoarse : s.time.coarse = true) (hup : s.pwr.coreUp = true) :
    Gives (.railQualified .vana) s fun t => t.pwr = { s.pwr with
      railOk := s.pwr.railOk ||| railMask .vana, req := s.pwr.req.shift (-(s.time.tide : Int)) } := by
  have hpwr := vanaBack_pwr (s.setPwr fun p => { p with railOk := p.railOk ||| railMask .vana })
  have hgood : s.railGood .vana = (s.setPwr fun p => { p with railOk := p.railOk ||| railMask .vana }).vanaBack := by
    rw [State.railGood, if_pos ⟨hstarted, .inl hcheck⟩]
    dsimp only
    rw [if_pos ⟨rfl, hcoarse⟩]
    exact coreEval_stays (.inr (by rw [hpwr]; exact hup))
  exact Gives.done (congrArg (done s) (if_neg (by simp [hok]))) (by rw [finish_pwr, hgood, hpwr]; rfl)

/-- A core that runs with a move to RUN asked for, on the device's own oscillator, while VANA has started. -/
def runAsked : State :=
  { pwr := { porN := true, feedA := true, started := 1, coreUp := true, req := .toRun 5 }, time := { coarse := true, tide := 5 } }

/-- Refutes O2: for a core that runs the third clause has VANA's qualification leave every other field of the power part, but with
the device on its own oscillator it opens an epoch (R408), and the move to RUN that waits for tide 5 then waits for tide 0. -/
theorem not_railsRiseInOrder : ¬ Obligations.RailsRiseInOrder := by
  unfold Obligations.RailsRiseInOrder
  rintro ⟨-, -, hqualified, -⟩
  obtain ⟨t, ht, -, -, hkept⟩ := hqualified runAsked .vana rfl (.inl rfl) rfl
  obtain ⟨u, hu, hpwr⟩ := railQualified_vana_pwr (s := runAsked) rfl rfl rfl rfl rfl
  obtain rfl : t = u := by injection ht.symm.trans hu
  have hreq : t.pwr.req = .toRun 0 := by rw [hpwr]; rfl
  have hasked : t.pwr.req = .toRun 5 := by rw [hkept rfl]; rfl
  exact absurd (hreq.symm.trans hasked) (by decide)

end Sys2Proof.Machine

/-! PROOFS. The loss of rails, VANA's loss and return, and the settlement of `Obligations.RailLossStopsTheCore`. -/

namespace Sys2Proof.Machine

theorem railMask_bit (r : Rail) : (railMask r).getLsbD r.bit = true := by cases r <;> rfl

/-- A rail taken out of a mask is not in it. -/
theorem getLsbD_without_rail (w : BitVec 8) (r : Rail) : (w &&& ~~~(railMask r)).getLsbD r.bit = false := by
  rw [BitVec.getLsbD_and, BitVec.getLsbD_not, railMask_bit, Bool.not_true, Bool.and_false, Bool.and_false]

/-- A rail put into a mask is in it. -/
theorem getLsbD_with_rail (w : BitVec 8) (r : Rail) : (w ||| railMask r).getLsbD r.bit = true := by
  rw [BitVec.getLsbD_or, railMask_bit, Bool.or_true]

/-- A rail's bit of `RAIL_UV` stands where `PWR_FAULT` took its mask in (R48). -/
theorem bit_with_rail (w : Word) (r : Rail) : bit (w ||| word (railMask r).toNat) r.bit = true := by
  have hmask : (word (railMask r).toNat).getLsbD r.bit = true := by cases r <;> rfl
  rw [bit, BitVec.getLsbD_or, hmask, Bool.or_true]

/-- The power part with a rail no longer qualified. -/
def Power.without (p : Power) (r : Rail) : Power := { p with railOk := p.railOk &&& ~~~(railMask r) }

theorem without_ok (p : Power) (r : Rail) : (p.without r).ok r = false := getLsbD_without_rail p.railOk r

theorem coreRailLoss_done {s : State} {r : Rail} (hvana : r ≠ .vana) (hvio : r ≠ .vio) (hok : s.pwr.ok r = true) :
    exec (.coreRailLoss r) s = done s (s.railDown r) := congrArg (done s) (if_pos ⟨hvana, hvio, hok⟩)

/-- After STANDBY_READY the rail's removal is the entry to STANDBY (R35, R37). -/
theorem railDown_standby {s : State} (r : Rail) (hup : s.pwr.coreUp = true) (hready : s.pwr.standbyReady = true) :
    s.railDown r = (s.coreReset true).setPwr fun p =>
      { p.without r with state := .standby, lastStop := 5, started := p.started &&& ~~~(railMask r) } := if_pos ⟨hup, hready⟩

/-- A core that runs, stopped by the loss of a rail, with `RAIL_UV` and before the report (R34). -/
def State.railLost (s : State) (r : Rail) : State :=
  let t := (s.coreReset false).setPwr fun p => { p.without r with state := .boot, lastStop := 3 }
  t.wr R.PWR_FAULT 0 (t.rd R.PWR_FAULT ||| word (railMask r).toNat)

theorem railDown_running {s : State} (r : Rail) (hup : s.pwr.coreUp = true) (hready : s.pwr.standbyReady = false) :
    s.railDown r = (s.railLost r).report 0x08 0 0x02 (s.railLost r).pwrStat ((s.railLost r).rd R.PWR_FAULT) := by
  rw [State.railDown, if_neg (by simp [hready]), if_pos hup]
  rfl

theorem railLost_pwr (s : State) (r : Rail) :
    (s.railLost r).pwr = { (s.coreReset false).pwr.without r with state := .boot, lastStop := 3 } := by
  rw [State.railLost, wr_pwr, setPwr_pwr]

theorem railLost_fault (s : State) (r : Rail) :
    (s.railLost r).rd R.PWR_FAULT = s.rd R.PWR_FAULT ||| word (railMask r).toNat := by
  have hkept : (s.coreReset false).rd R.PWR_FAULT = s.rd R.PWR_FAULT := coreReset_getReg (by decide)
  rw [State.railLost, rd_wr_self, setPwr_rd, hkept]

/-- The report of a rail's loss is the one that the core reset by it would have made. -/
theorem railLost_report {s : State} (r : Rail) (hup : s.pwr.coreUp = true) (d0 d1 : Word) :
    ((s.railLost r).report 0x08 0 0x02 d0 d1).bitt = (s.report 0x08 0 0x02 d0 d1).bitt := by
  rw [← coreHalted_report s (by decide), coreHalted_up hup]
  exact report_bitt_congr (by rw [State.railLost, wr_bitt, setPwr_bitt]) (getReg_setReg_ne (by decide))
    (by rw [State.railLost, wr_time, setPwr_time]) (by rw [State.railLost, wr_time, setPwr_time])
    (by rw [State.railLost, wr_time, setPwr_time]) (by rw [State.railLost, wr_time, setPwr_time])

/-- With the core in reset the rail is no longer qualified, and nothing else happens. -/
theorem railDown_reset {s : State} (r : Rail) (hup : s.pwr.coreUp = false) : s.railDown r = s.setPwr fun p =>
    if p.state = .standby then { p.without r with started := p.started &&& ~~~(railMask r) } else p.without r := by
  rw [State.railDown, if_neg (by simp [hup]), if_neg (by simp [hup])]
  rfl

-- VANA (R34, R408).

/-- The device on its own oscillator, its core in reset, before the root PLL's state. -/
def State.unclocked (s : State) : State :=
  let t := s.coreHalted.setPwr fun p => { p.without .vana with
    lastStop := if s.pwr.coreUp then 3 else p.lastStop, state := if s.pwr.coreUp then .boot else p.state }
  { t with time := { t.time with coarse := true, src := 15, ctrl := t.ctrlBase } }

theorem vanaDown_eq (s : State) : s.vanaDown = (s.unclocked.setPll .lost).tb0Eval := rfl

/-- Clocks leave the power part, the heap and non-volatile memory of what VANA's loss has made. -/
theorem vanaDown_only (s : State) : Only anyReg clockParts s.unclocked s.vanaDown := by
  rw [vanaDown_eq]
  exact (setPll_only _ _).trans (tb0Eval_only _)

theorem vanaDown_pwr (s : State) : s.vanaDown.pwr = { s.coreHalted.pwr.without .vana with
    lastStop := if s.pwr.coreUp then 3 else s.coreHalted.pwr.lastStop
    state := if s.pwr.coreUp then .boot else s.coreHalted.pwr.state } := (vanaDown_only s).same (p := .pwr) (by decide)

theorem vanaDown_mem (s : State) : s.vanaDown.heap.mem = s.heap.mem := by
  have hheap : s.vanaDown.heap = s.unclocked.heap := (vanaDown_only s).same (p := .heap) (by decide)
  rw [hheap]
  exact coreHalted_mem s

theorem vanaDown_time (s : State) : s.vanaDown.time.coarse = true ∧ s.vanaDown.time.src = 15 ∧ s.vanaDown.time.pll = .lost := by
  obtain ⟨_, _, _, hset⟩ := setPll_time s.unclocked .lost
  obtain ⟨_, heval⟩ := tb0Eval_time (s.unclocked.setPll .lost)
  rw [vanaDown_eq, heval, hset]
  exact ⟨rfl, rfl, rfl⟩

/-- Settles O3: by the three cases of a rail's loss (`railDown_standby`, `railDown_running`, `railDown_reset`), and by what the
root PLL's states and the opening of an epoch leave (`vanaDown_only`, `vanaBack_pwr`, `vanaBack_time`). -/
theorem railLossStopsTheCore : Obligations.RailLossStopsTheCore := by
  unfold Obligations.RailLossStopsTheCore
  refine ⟨?standby, ?running, ?reset, ?vanaLost, ?vanaAgain, ?vanaBack⟩
  case standby =>
    intro s r hvana hvio hok hup hready
    refine Gives.done ((coreRailLoss_done hvana hvio hok).trans (congrArg (done s) (railDown_standby r hup hready))) ?_
    rw [finish_pwr, finish_heap, finish_nv]
    exact ⟨rfl, rfl, rfl, getLsbD_without_rail .., coreReset_mem s true, rfl⟩
  case running =>
    intro s r hvana hvio hok hup hready
    have hpwr : (s.railDown r).pwr = (s.railLost r).pwr := by rw [railDown_running r hup hready, report_pwr]
    have hfault : (s.railDown r).rd R.PWR_FAULT = (s.railLost r).rd R.PWR_FAULT := by
      rw [railDown_running r hup hready, report_rd (by decide)]
    refine Gives.done (coreRailLoss_done hvana hvio hok) ?_
    rw [State.reports, pwrStat_congr (finish_pwr ..), pwrStat_congr hpwr, finish_rd (by decide), hfault, finish_pwr, hpwr,
      railLost_pwr, finish_heap, finish_nv, finish_bitt]
    refine ⟨rfl, rfl, rfl, without_ok _ r, ?_, ?_, ?_, ?_⟩
    · rw [railDown_running r hup hready, report_heap]
      exact coreReset_mem s false
    · rw [railDown_running r hup hready, report_nv, State.railLost, wr_nv, setPwr_nv, coreReset_nv]
    · rw [railLost_fault]
      exact bit_with_rail _ r
    · rw [railDown_running r hup hready]
      exact railLost_report r hup _ _
  case reset =>
    intro s r hvana hvio hok hup
    refine Gives.done ((coreRailLoss_done hvana hvio hok).trans (congrArg (done s) (railDown_reset r hup)))
      ⟨?_, ?_, ((Only.refl _ _ s).setPwr _ (by decide)).frame⟩
    · rw [finish_pwr, setPwr_pwr]
      split
      · exact without_ok _ r
      · exact without_ok _ r
    · rw [finish_pwr, setPwr_pwr]
      split <;> rfl
  case vanaLost =>
    intro s hok
    obtain ⟨hcoarse, hsrc, hpll⟩ := vanaDown_time s
    obtain ⟨_, _, _, _, _, hhalted⟩ := coreHalted_pwr s
    refine Gives.done (congrArg (done s) (if_pos hok)) ?_
    rw [finish_pwr, finish_time, finish_heap, vanaDown_pwr, hhalted]
    refine ⟨hcoarse, hsrc, hpll, without_ok _ .vana, rfl, fun hup => ?_, fun hup => ?_, vanaDown_mem s⟩
    · exact ⟨if_pos hup, if_pos hup⟩
    · exact ⟨if_neg (by simp [hup]), if_neg (by simp [hup])⟩
  case vanaAgain =>
    intro s hok
    exact stays_gives (congrArg (done s) (if_neg (by simp [hok])))
  case vanaBack =>
    intro s hcoarse hchecking
    generalize hu : (s.setPwr fun p => { p with
      started := p.started ||| railMask .vana, railOk := p.railOk ||| railMask .vana }) = u
    obtain ⟨_, _, _, _, _, hpwr⟩ := coreEval_pwr u.vanaBack
    obtain ⟨_, _, htime⟩ := coreEval_time u.vanaBack
    obtain ⟨hback, hepoch⟩ := vanaBack_time u
    have hdone : exec .vanaRestore s = done s u.vanaBack.coreEval := by
      rw [← hu]
      exact congrArg (done s) (if_pos ⟨hcoarse, hchecking⟩)
    refine Gives.done hdone ?_
    rw [finish_time, finish_pwr, hpwr, htime, vanaBack_pwr]
    refine ⟨hback, ?_, ?_⟩
    · rw [← hu]
      exact getLsbD_with_rail _ .vana
    · rw [← hu] at hepoch ⊢
      exact hepoch

end Sys2Proof.Machine

/-! PROOFS. POR_N, WARM_N and PERST_N, and the settlement of `Obligations.ResetPins`. -/

namespace Sys2Proof.Machine

-- POR_N (R33).

/-- POR_N asserted on a device that is not off clears the registers and keeps memory and what the supplies show. -/
theorem porDown_gives {s : State} (h : s.pwr.state ≠ .off) :
    let t := s.finish s.porDown
    t.pwr = { feedA := s.pwr.feedA, feedB := s.pwr.feedB, load := s.pwr.load, started := s.pwr.started, warmN := s.pwr.warmN
              perstN := s.pwr.perstN, junction := s.pwr.junction, state := .boot, lastStop := 1 }
      ∧ t.regs = [] ∧ t.nv = { nvm := s.nv.nvm, otp := s.nv.otp } ∧ t.heap.mem = s.heap.mem := by
  have hdown : s.porDown = s.aonReset true := if_neg h
  dsimp only
  rw [hdown, finish_pwr, finish_nv, finish_heap]
  exact ⟨rfl, finish_regs_alone (meshZ_of_regs_nil rfl), rfl, rfl⟩

/-- A command that answers a next state. -/
theorem Gives.next {c : Instr} {s t : State} {P : State → Prop} (h : exec c s = .next t) (hP : P t) : Gives c s P :=
  ⟨t, h, hP⟩

/-- A command that changes the power part alone. -/
theorem setPwr_gives {c : Instr} {s : State} (f : Power → Power) (h : exec c s = done s (s.setPwr f)) :
    Gives c s fun t => t.pwr = f s.pwr ∧ Frame noRegs [.pwr] s t :=
  Gives.done h ⟨by rw [finish_pwr, setPwr_pwr], ((Only.refl _ _ s).setPwr _ (by decide)).frame⟩

/-- The state in which POR_N is high at its ball. -/
abbrev State.porHigh (s : State) : State := s.setPwr fun p => { p with porPin := true }

/-- The state in which POR_N is high at its ball and heeded. -/
abbrev State.porHeeded (s : State) : State := s.setPwr fun p => { p with porPin := true, porN := true }

theorem porUp_heeds {s : State} (hpor : s.pwr.porN = false) (hfeed : s.feedOk = true) : s.porUp
    = (if s.pwr.started &&& 0x7E#8 ≠ 0 then s.porHeeded.violation (s.pwr.started &&& 0x7E#8) else s.porHeeded).coreEval :=
  congrArg State.coreEval (heedPor_heeds (s := s.porHigh) rfl hpor hfeed)

/-- POR_N heeded with no rail up too early, where the core runs or may not. -/
theorem porUp_quiet {s : State} (hpor : s.pwr.porN = false) (hfeed : s.feedOk = true) (hearly : s.pwr.started &&& 0x7E#8 = 0)
    (hcore : s.pwr.warmN = false ∨ s.pwr.coreUp = true ∨ s.pwr.railOk &&& 0x7F#8 ≠ 0x7F#8) : s.porUp = s.porHeeded := by
  rw [porUp_heeds hpor hfeed, if_neg (not_not.mpr hearly)]
  refine coreEval_stays ?_
  rcases hcore with hwarm | hup | hrails
  · exact .inl (coreMayRun_warm hwarm)
  · exact .inr hup
  · exact .inl (coreMayRun_rails hrails)

/-- With no feed qualified POR_N's release shows at its pin alone. -/
theorem porUp_dark {s : State} (hfeed : s.feedOk = false) : s.porUp = s.porHigh := by
  have hstill : s.porHigh.heedPor = s.porHigh := heedPor_still (.inr (.inr hfeed))
  exact (congrArg State.coreEval hstill).trans (coreEval_stays (.inl (coreMayRun_feeds hfeed)))

/-- Rails of steps 3 and 4 that are up when POR_N is heeded: an order violation. -/
theorem porUp_early {s : State} (hpor : s.pwr.porN = false) (hfeed : s.feedOk = true) (hearly : s.pwr.started &&& 0x7E#8 ≠ 0) :
    s.porUp = s.porHeeded.violation (s.pwr.started &&& 0x7E#8) := by
  rw [porUp_heeds hpor hfeed, if_pos hearly]
  exact coreEval_stays (.inl (coreMayRun_held (by rw [violation_pwr])))

-- WARM_N (R33, R39).

/-- The power part once WARM_N is asserted at a reading, the core in reset. -/
def Power.warmed (p : Power) (x : BitVec 8) : Power :=
  let p := { p with warmN := false, junction := x, lastStop := p.warmCause, tripHold := p.tripHold && !decide (x.toInt < 100) }
  { p with state := p.warmState }

/-- A thermal trip is held on where the reading is not below 100 °C. -/
theorem warmed_tripHold (p : Power) (x : BitVec 8) : (p.warmed x).tripHold = (p.tripHold && decide (100 ≤ x.toInt)) := by
  have hcool : (!decide (x.toInt < 100)) = decide (100 ≤ x.toInt) := by rw [← decide_not, decide_eq_decide.mpr not_lt]
  rw [← hcool]
  rfl

theorem warmDown_eq (s : State) (x : BitVec 8) : s.warmDown x = s.coreHalted.setPwr fun p => p.warmed x := rfl

theorem warmNAssert_done {s : State} {x : BitVec 8} (h : s.pwr.warmN = true) :
    exec (.warmNAssert x) s = .next (s.drained.finish (s.drained.warmDown x)) := if_pos h

/-- With nothing posted there is nothing to apply. -/
theorem drainPosted_nil {s : State} (h : s.fab.posted = []) : s.drainPosted = s := by
  rw [State.drainPosted, h]
  rfl

theorem drained_nil {s : State} (h : s.fab.posted = []) : s.drained = s := by rw [State.drained, drainPosted_nil h, ite_self]

/-- An always-on page is not the mesh's, whose events show the falls of R499. -/
theorem ne_agreeKey_of_aonPage {k : Nat} (h : aonPage (keyPage k) = true) : k ≠ agreeKey := by
  rintro rfl
  exact absurd h (by decide)

theorem warmState_boot {p : Power} (hstandby : p.state ≠ .standby) (hoff : p.state ≠ .off) (htrip : p.tripHold = false)
    (hseq : p.seqHold = false) (htemp : p.tempHold = false) : p.warmState = .boot := by
  unfold Power.warmState
  split
  · exact absurd ‹_› hstandby
  · exact absurd ‹_› hoff
  · simp [htrip, hseq, htemp]

theorem warmCause_warm {p : Power} (hstandby : p.state ≠ .standby) (htrip : p.tripHold = false) (hseq : p.seqHold = false)
    (htemp : p.tempHold = false) : p.warmCause = 2 := by simp [Power.warmCause, htrip, hseq, htemp, hstandby]

/-- The state in which WARM_N is high. -/
abbrev State.warmHigh (s : State) : State := s.setPwr fun p => { p with warmN := true }

theorem lk_congr {s t : State} (h : t.links = s.links) (q : Nat) : t.lk q = s.lk q := by rw [State.lk, State.lk, h]

/-- A core start with no tamper condition ends with the links' sessions. -/
theorem coreStart_quiet {s : State} (hwake : s.tam.pendingWake = false) (h3 : s.rdb R.TMP_CFG 0 3 = false)
    (h4 : s.rdb R.TMP_CFG 0 4 = false) : s.coreStart = s.coreBooted.sessionsNext := by
  have hcfg : s.coreBooted.sessionsNext.rd R.TMP_CFG = s.rd R.TMP_CFG := (sessionsNext_only s.coreBooted).getReg id
  have htam : s.coreBooted.sessionsNext.tam = s.tam := (sessionsNext_only s.coreBooted).same (p := .tam) (by decide)
  rw [coreStart_eq]
  refine wakeTamper_quiet (by rw [htam, hwake]) ?_ ?_
  · rw [State.rdb, hcfg]
    exact h3
  · rw [State.rdb, hcfg]
    exact h4

theorem coreBooted_sv (s : State) : s.coreBooted.sv (if s.pwr.feedA then 0 else 1) = .starting := by
  cases h : s.pwr.feedA <;> simp [State.coreBooted, State.deriveTide, State.setSv, State.sv, h]

-- PERST_N (R33, R78, R380).

theorem perstNAssert_done {s : State} (h : s.pwr.perstN = true) :
    exec .perstNAssert s = .next (s.drainPosted.finish s.drainPosted.perstDown) := if_pos h

theorem failOutbound_only (s : State) : Only noRegs [.pcie, .xbar] s s.failOutbound :=
  List.foldlRecOn _ _ (Only.refl _ _ s) fun _ ht _ _ => (ht.set_pcie _ (by decide)).respond _ _ _ _ (by decide)

theorem perstDown_only (s : State) : Only noRegs [.pwr, .pcie, .xbar] s s.perstDown :=
  (((failOutbound_only s).mono (fun _ h => h) (by decide)).set_pcie _ (by decide)).setPwr _ (by decide)

theorem perstDown_pwr (s : State) : s.perstDown.pwr = { s.pwr with perstN := false } := by
  have hfail : s.failOutbound.pwr = s.pwr := (failOutbound_only s).same (p := .pwr) (by decide)
  rw [State.perstDown, setPwr_pwr, ← hfail]

/-- With no outbound request waiting the endpoint alone is reset. -/
theorem perstDown_idle {s : State} (h : s.pcie.outbound = []) :
    s.perstDown = ({ s with pcie := {} } : State).setPwr fun p => { p with perstN := false } := by
  have hfail : s.failOutbound = s := by
    rw [State.failOutbound, h]
    rfl
  rw [State.perstDown, hfail]

/-- Settles O4: POR_N's clauses by what is heeded (`porUp_quiet`, `porUp_dark`, `porUp_early`), WARM_N's by the core's reset
(`warmDown_eq`) and start (`coreStart_quiet`), PERST_N's by the endpoint's reset (`perstDown_only`, `perstDown_idle`). -/
theorem resetPins : Obligations.ResetPins := by
  unfold Obligations.ResetPins
  refine ⟨?porDown, ?porOff, ?porQuiet, ?porDark, ?porEarly, ?warmDown, ?warmCause, ?warmAgain, ?warmStays, ?warmStarts,
    ?warmHigh, ?perstDown, ?perstIdle, ?perstAgain, ?perstUp⟩
  case porDown =>
    intro s hst
    obtain ⟨hpwr, hregs, hnv, hmem⟩ := porDown_gives hst
    refine Gives.done (s1 := s.porDown) rfl ?_
    rw [hpwr, hnv]
    exact ⟨rfl, rfl, rfl, rfl, hregs, rfl, rfl, rfl, rfl, rfl, hmem⟩
  case porOff =>
    intro s hst
    exact setPwr_gives (fun p => { p with porPin := false }) (congrArg (done s) (if_pos hst))
  case porQuiet =>
    intro s hpor hfeed hearly hcore
    exact setPwr_gives (fun p => { p with porPin := true, porN := true }) (congrArg (done s) (porUp_quiet hpor hfeed hearly hcore))
  case porDark =>
    intro s hfeed
    exact setPwr_gives (fun p => { p with porPin := true }) (congrArg (done s) (porUp_dark hfeed))
  case porEarly =>
    intro s hpor hfeed hearly
    obtain ⟨_, _, _, _, _, hhalted⟩ := coreHalted_pwr s.porHeeded
    refine Gives.done (congrArg (done s) (porUp_early hpor hfeed hearly)) ?_
    rw [finish_pwr, finish_rd (by decide), violation_pwr, violation_fault, hhalted]
    exact ⟨rfl, rfl, rfl, rfl, rfl, rfl⟩
  case warmDown =>
    rintro s x y hwarm rfl
    obtain ⟨_, _, _, _, _, hhalted⟩ := coreHalted_pwr s.drained
    obtain ⟨_, _, _, _, htime⟩ := coreHalted_time s.drained
    refine Gives.next (warmNAssert_done hwarm) ?_
    rw [finish_pwr, finish_heap, finish_nv, finish_time, warmDown_eq, setPwr_pwr, setPwr_heap, setPwr_nv, setPwr_time, hhalted,
      htime]
    refine ⟨rfl, rfl, rfl, warmed_tripHold _ x, coreHalted_mem _, coreHalted_nv _, rfl, fun k hk => ?_⟩
    rw [finish_getReg_ne (ne_agreeKey_of_aonPage hk), setPwr_getReg]
    exact coreHalted_getReg hk
  case warmCause =>
    intro s x hwarm hup hposted hstandby hoff htrip hseq htemp
    obtain ⟨_, _, _, _, _, hhalted⟩ := coreHalted_pwr s
    refine Gives.next (warmNAssert_done hwarm) ?_
    rw [drained_nil hposted, finish_pwr, warmDown_eq, setPwr_pwr, hhalted]
    exact ⟨warmState_boot hstandby hoff (by simp [htrip]) hseq htemp, warmCause_warm hstandby htrip hseq htemp⟩
  case warmAgain =>
    intro s x hwarm
    exact stays_gives (if_neg (by simp [hwarm]))
  case warmStays =>
    intro s hcore
    have hstays : s.warmHigh.coreEval = s.warmHigh := coreEval_stays hcore.symm
    exact setPwr_gives (fun p => { p with warmN := true }) (congrArg (done s) hstays)
  case warmStarts =>
    intro s hup hrun hwake h3 h4
    have hstart : s.warmHigh.coreEval = s.warmHigh.coreBooted.sessionsNext :=
      (coreEval_starts hrun hup).trans (coreStart_quiet hwake h3 h4)
    have hpwr : s.warmHigh.coreBooted.sessionsNext.pwr = s.warmHigh.coreBooted.pwr :=
      (sessionsNext_only _).same (p := .pwr) (by decide)
    have hsup : s.warmHigh.coreBooted.sessionsNext.sup = s.warmHigh.coreBooted.sup :=
      (sessionsNext_only _).same (p := .sup) (by decide)
    refine Gives.done (congrArg (done s) hstart) ?_
    rw [finish_pwr, hpwr, coreBooted_pwr, finish_sv, sv_congr hsup, finish_sup, hsup]
    refine ⟨rfl, rfl, rfl, rfl, rfl, coreBooted_sv s.warmHigh, rfl, fun q hq => ?_⟩
    rw [lk_congr (finish_links ..), sessionsNext_session hq]
    rfl
  case warmHigh =>
    intro s
    obtain ⟨_, _, _, _, _, hpwr⟩ := coreEval_pwr s.warmHigh
    refine Gives.done (s1 := s.warmHigh.coreEval) rfl ?_
    rw [finish_pwr, hpwr]
    rfl
  case perstDown =>
    rintro s y hperst rfl
    have hheap : s.drainPosted.perstDown.heap = s.drainPosted.heap := (perstDown_only _).same (p := .heap) (by decide)
    refine Gives.next (perstNAssert_done hperst) ?_
    rw [finish_pwr, perstDown_pwr, finish_pcie_up, finish_pcie_outbound, finish_pcie_table, finish_heap, hheap]
    exact ⟨rfl, rfl, rfl, rfl, rfl⟩
  case perstIdle =>
    intro s hperst hposted houtbound
    refine Gives.next (perstNAssert_done hperst) ?_
    rw [drainPosted_nil hposted, finish_pwr, perstDown_pwr, finish_pcie_up, finish_pcie_table, perstDown_idle houtbound]
    exact ⟨rfl, rfl, rfl, (((Only.refl _ _ s).set_pcie _ (by decide)).setPwr _ (by decide)).frame⟩
  case perstAgain =>
    intro s hperst
    exact stays_gives (if_neg (by simp [hperst]))
  case perstUp =>
    intro s
    exact setPwr_gives (fun p => { p with perstN := true }) rfl

end Sys2Proof.Machine

/-! PROOFS. Power states by command, dry mode and the end of the core start, and the settlement of
`Obligations.PowerStatesChangeByCommand`. -/

namespace Sys2Proof.Machine

-- The commands of R27, R35 and R37 on the power part.

theorem runEntry_waits {s : State} {n : Nat} (hreq : s.pwr.req = .toRun n) : exec .runEntry s = done s
    (if s.atBoundary ∧ n ≤ s.time.tide ∧ s.pwr.state = .idle ∧ s.pwr.rows = 16 then
      s.setPwr fun p => { p with state := .run, req := .none } else s) := by
  show execRunEntry s = _
  rw [execRunEntry, hreq]

theorem panRowUngate_waits {s : State} {n : Nat} (hreq : s.pwr.req = .toRun n) : exec .panRowUngate s = done s
    (if s.pwr.rows < 16 ∧ s.pwr.rowAt + 1500 ≤ s.time.total then
      s.setPwr fun p => { p with rows := p.rows + 1, rowAt := p.rowAt + 1500 } else s) := by
  show execPanRowUngate s = _
  rw [execPanRowUngate, hreq]

/-- With every row ungated, or before the next row's microsecond has passed, no row is ungated. -/
theorem panRowUngate_still {s : State} (h : s.pwr.rows = 16 ∨ s.time.total < s.pwr.rowAt + 1500) :
    exec .panRowUngate s = done s s := by
  show execPanRowUngate s = _
  unfold execPanRowUngate
  split
  · rw [if_neg (by omega)]
  · rfl

-- Dry mode (R28).

theorem dry_with_row (w : BitVec 16) {r i : Nat} (hi : i < 16) :
    (w ||| BitVec.ofNat 16 (2 ^ r)).getLsbD i = (w.getLsbD i || i == r) := by
  have hrow : (BitVec.ofNat 16 (2 ^ r)).getLsbD i = (i == r) := by
    rw [BitVec.getLsbD_ofNat, Nat.testBit_two_pow]
    simp [hi, eq_comm, Bool.beq_eq_decide_eq]
  rw [BitVec.getLsbD_or, hrow]

theorem dry_without_row (w : BitVec 16) {r i : Nat} (hi : i < 16) :
    (w &&& ~~~(BitVec.ofNat 16 (2 ^ r))).getLsbD i = (w.getLsbD i && i != r) := by
  have hrow : (~~~(BitVec.ofNat 16 (2 ^ r))).getLsbD i = (i != r) := by
    rw [BitVec.getLsbD_not, BitVec.getLsbD_ofNat, Nat.testBit_two_pow]
    simp [hi, bne, eq_comm, Bool.beq_eq_decide_eq]
  rw [BitVec.getLsbD_and, hrow]

/-- The power part with a pan row in dry mode, and with a row out of it. -/
def Power.dryRow (p : Power) (r : Nat) : Power := { p with dry := p.dry ||| BitVec.ofNat 16 (2 ^ r) }
def Power.wetRow (p : Power) (r : Nat) : Power :=
  let d := p.dry &&& ~~~(BitVec.ofNat 16 (2 ^ r))
  { p with dry := d, dryStop := p.dryStop && d != 0 }

theorem dryModeRowStart_done {s : State} (r : Fin 16) (h : s.dryStart = true) : exec (.dryModeRowStart r) s
    = done s ((s.pass (1500 * r.val - s.time.pos)).setPwr fun p => p.dryRow r.val) := congrArg (done s) (if_pos h)

theorem dryModeRowStop_done {s : State} (r : Fin 16) (hrun : s.sched.run = none) (h : s.dryStart = false) :
    exec (.dryModeRowStop r) s = done s ((s.pass (1500 * (r.val + 1) - s.time.pos)).setPwr fun p => p.wetRow r.val) :=
  congrArg (done s) (if_pos ⟨by rw [hrun]; rfl, h⟩)

/-- Time that passes while no unit has anything on its way, and a change of the power part. -/
theorem pass_setPwr_frame {s : State} (h : s.nextUnits = none) (n : Nat) (f : Power → Power) :
    Frame noRegs [.pwr, .time] s (s.finish ((s.pass n).setPwr f)) := by
  rw [pass_quiet h]
  exact (((Only.refl _ _ s).advance n (by decide)).setPwr f (by decide)).frame

/-- The end of the core start (R33, R81, R84): `CORE_READY` and IDLE at the place of the tide that TB0 gives. -/
def State.bootReady (s : State) : State :=
  (s.deriveTide.setPwr fun p => { p with coreReady := true, state := .idle }).raise 0 1

theorem reloadFirst_only (s : State) : Only (onPages [0x0B]) [.bitt] s s.reloadFirst := by
  unfold State.reloadFirst
  split
  · dsimp only
    split
    · exact Only.refl _ _ s
    · refine List.foldlRecOn _ _ ((Only.refl _ _ s).set_bitt _ (by decide)) fun t ht e he => ht.wr _ (onPages_iff.mpr ?_)
      have hreg : e.1 ∈ [R.FF_W0, R.FF_W1, R.FF_W2, R.FF_W3] := (List.of_mem_zip he).1
      exact (by decide : ∀ r ∈ [R.FF_W0, R.FF_W1, R.FF_W2, R.FF_W3], keyPage (r.key 0 0) ∈ [0x0B]) _ hreg
  · exact Only.refl _ _ s

/-- The pages of the heap groups. -/
abbrev heapPages : List Nat := (List.range 8).map (0x40 + ·)

theorem bit_setBit_ne {w : Word} {i j : Nat} (h : j ≠ i) : bit (setBit w i) j = bit w j := by
  rw [bit, setBit, BitVec.getLsbD_or, BitVec.getLsbD_ofNat, Nat.testBit_two_pow_of_ne h.symm, Bool.and_false, Bool.or_false, bit]

/-- Setting a page's `ENABLE` alone starts what the page starts, unless it is set already (R61, R62). -/
theorem ctrlPut_enable (s : State) (page : Nat) : s.ctrlPut page (setBit (s.hdr page hCtrl) 0)
    = if bit (s.hdr page hCtrl) 0 then s.setHdr page hCtrl (setBit (s.hdr page hCtrl) 0 &&& 3)
      else (s.setHdr page hCtrl (setBit (s.hdr page hCtrl) 0 &&& 3)).pageOn page := by
  have hset : bit (setBit (s.hdr page hCtrl) 0) 0 = true := bit_setBit (by decide)
  have hexpert : bit (setBit (s.hdr page hCtrl) 0) 1 = bit (s.hdr page hCtrl) 1 := bit_setBit_ne (by decide)
  simp only [State.ctrlPut, hset, hexpert]
  cases bit (s.hdr page hCtrl) 0 <;> simp

/-- A heap group's page starts its controllers (R223). -/
theorem pageOn_heap_only (s : State) {i : Nat} (hi : i < 8) : Only noRegs [.heap] s (s.pageOn (0x40 + i)) := by
  rw [State.pageOn, if_pos ⟨by omega, by omega⟩]
  exact List.foldlRecOn _ _ (Only.refl _ _ s) fun _ ht _ _ => ht.set_heap _ (by decide)

theorem ctrlPut_heap_only (s : State) {i : Nat} (hi : i < 8) :
    Only (onPages heapPages) [.heap] s (s.ctrlPut (0x40 + i) (setBit (s.hdr (0x40 + i) hCtrl) 0)) := by
  have hpage : keyPage (regKey 0 (0x40 + i) 0 hCtrl) ∈ heapPages := by
    rw [keyPage_regKey (by omega) (by decide) (by decide)]
    exact List.mem_map_of_mem (List.mem_range.mpr hi)
  have hset : Only (onPages heapPages) [.heap] s (s.setHdr (0x40 + i) hCtrl (setBit (s.hdr (0x40 + i) hCtrl) 0 &&& 3)) :=
    (Only.refl _ _ s).setHdr _ hpage
  rw [ctrlPut_enable]
  exact Only.ite hset (hset.trans ((pageOn_heap_only _ hi).mono (fun _ h => h.elim) (by decide)))

/-- The start's reload of the first-fault set and its heap groups' enabling concern the bittern, the heap and their pages. -/
theorem bootDone_only (s : State) : Only (onPages (0x0B :: heapPages)) [.bitt, .heap] s.bootReady s.bootDone := by
  have hreload : Only (onPages (0x0B :: heapPages)) [.bitt, .heap] s.bootReady s.bootReady.reloadFirst :=
    (reloadFirst_only _).mono (fun _ h => List.mem_cons.mpr (.inl (List.mem_singleton.mp h))) (by decide)
  refine List.foldlRecOn _ _ hreload fun t ht i hi => ht.trans ?_
  exact (ctrlPut_heap_only t (List.mem_range.mp hi)).mono (fun _ h => List.mem_cons_of_mem _ h) (by decide)

/-- Settles O5: the commands of the power part by their conditions, dry mode by the passing of time (`pass_setPwr_frame`), the end
of the core start by what its reloads leave (`bootDone_only`). -/
theorem powerStatesChangeByCommand : Obligations.PowerStatesChangeByCommand := by
  unfold Obligations.PowerStatesChangeByCommand
  refine ⟨?run, ?runWaits, ?ungate, ?ungateWaits, ?idle, ?idleWaits, ?standby, ?standbyWaits, ?dry, ?dryQuiet, ?dryNot, ?wet,
    ?wetQuiet, ?boot, ?bootNot⟩
  case run =>
    intro s n hreq hat hn hst hrows
    exact setPwr_gives (fun p => { p with state := .run, req := .none })
      ((runEntry_waits hreq).trans (congrArg (done s) (if_pos ⟨hat, hn, hst, hrows⟩)))
  case runWaits =>
    intro s n hreq h
    refine stays_gives ((runEntry_waits hreq).trans (congrArg (done s) (if_neg ?_)))
    rintro ⟨hat, hn, -, hrows⟩
    rcases h with h | h | h
    · exact Bool.false_ne_true (h.symm.trans hat)
    · exact absurd hn (by omega)
    · exact h hrows
  case ungate =>
    intro s n hreq hrows hat
    exact setPwr_gives (fun p => { p with rows := p.rows + 1, rowAt := p.rowAt + 1500 })
      ((panRowUngate_waits hreq).trans (congrArg (done s) (if_pos ⟨hrows, hat⟩)))
  case ungateWaits =>
    intro s h
    exact stays_gives (panRowUngate_still h)
  case idle =>
    intro s hreq hat
    exact setPwr_gives (fun p => { p with state := .idle, req := .none, rows := 0 }) (congrArg (done s) (if_pos ⟨hreq, hat⟩))
  case idleWaits =>
    intro s h
    refine stays_gives (congrArg (done s) (if_neg ?_))
    rintro ⟨hreq, hat⟩
    rcases h with h | h
    · exact h hreq
    · exact Bool.false_ne_true (h.symm.trans hat)
  case standby =>
    intro s hreq hrun hsaved hsup
    exact setPwr_gives (fun p => { p with standbyReady := true, req := .none })
      (congrArg (done s) (if_pos ⟨hreq, by rw [hrun]; rfl, hsaved, hsup⟩))
  case standbyWaits =>
    intro s h
    refine stays_gives (congrArg (done s) (if_neg ?_))
    rintro ⟨hreq, hrun, hsaved, hsup⟩
    rcases h with h | h | h | h
    · exact h hreq
    · rw [Option.isNone_iff_eq_none.mp hrun] at h
      exact Bool.false_ne_true h
    · exact Bool.false_ne_true (h.symm.trans hsaved)
    · exact Bool.false_ne_true (h.symm.trans hsup)
  case dry =>
    rintro s r x hdry rfl
    refine Gives.done (dryModeRowStart_done r hdry) ?_
    rw [finish_pwr, setPwr_pwr, finish_time]
    exact ⟨fun i hi => dry_with_row _ hi, rfl⟩
  case dryQuiet =>
    intro s r hdry hquiet
    refine Gives.done (dryModeRowStart_done r hdry) ⟨?_, ?_, pass_setPwr_frame hquiet _ _⟩
    · rw [finish_pwr, setPwr_pwr, pass_quiet hquiet]
      exact fun i hi => dry_with_row _ hi
    · rw [finish_time, setPwr_time, pass_quiet hquiet, advance_total]
  case dryNot =>
    intro s r hdry
    exact stays_gives (congrArg (done s) (if_neg (by simp [hdry])))
  case wet =>
    rintro s r x hrun hdry rfl
    refine Gives.done (dryModeRowStop_done r hrun hdry) ?_
    rw [finish_pwr, setPwr_pwr, finish_time]
    exact ⟨fun i hi => dry_without_row _ hi, rfl⟩
  case wetQuiet =>
    intro s r hrun hdry hquiet
    refine Gives.done (dryModeRowStop_done r hrun hdry) ⟨?_, ?_, pass_setPwr_frame hquiet _ _⟩
    · rw [finish_pwr, setPwr_pwr, pass_quiet hquiet]
      exact fun i hi => dry_without_row _ hi
    · rw [finish_time, setPwr_time, pass_quiet hquiet, advance_total]
  case boot =>
    intro s hup hready
    have honly := bootDone_only s
    have hpwr : s.bootDone.pwr = s.bootReady.pwr := honly.same (p := .pwr) (by decide)
    have htime : s.bootDone.time = s.bootReady.time := honly.same (p := .time) (by decide)
    have hnv : s.bootDone.nv = s.bootReady.nv := honly.same (p := .nv) (by decide)
    have hevt : s.bootDone.hdr 0 hEvt = s.bootReady.hdr 0 hEvt := honly.getReg (by
      rw [onPages_iff]
      decide)
    refine Gives.done (congrArg (done s) (if_pos ⟨hup, hready⟩)) ?_
    rw [finish_pwr, hpwr, finish_time, htime, finish_nv, hnv, finish_hdr (by decide) (by decide) (by decide), hevt]
    exact ⟨rfl, rfl, hdr_raise (by decide), rfl, rfl⟩
  case bootNot =>
    intro s h
    refine stays_gives (congrArg (done s) (if_neg ?_))
    rintro ⟨hup, hready⟩
    rcases h with h | h
    · exact Bool.false_ne_true (h.symm.trans hup)
    · exact Bool.false_ne_true (hready.symm.trans h)

end Sys2Proof.Machine

/-! PROOFS. Junction readings, what they report and the tamper condition that they may raise (spec/02 R39, spec/16 R468). -/

namespace Sys2Proof.Machine

/-- The registers in which a reading shows that it leaves a frozen calibration stale (R477). -/
abbrev calKeys : List Nat := [R.CAL_STAT.key 0, regKey 0 0x5B 0 hEvt]

theorem reading_only (s : State) (x : BitVec 8) : Only (regsIn calKeys) [.pwr] s (s.reading x) := by
  have hread : Only (regsIn calKeys) [.pwr] s (s.setPwr fun p => { p with junction := x }) :=
    (Only.refl _ _ s).setPwr _ (by decide)
  exact Only.ite (Only.raise (.tail _ (.head _)) (hread.wr _ (.head _))) hread

@[simp] theorem reading_pwr (s : State) (x : BitVec 8) : (s.reading x).pwr = { s.pwr with junction := x } := by
  unfold State.reading
  dsimp only
  split
  · exact (raise_pwr ..).trans (wr_pwr ..)
  · rfl

/-- `PWR_STAT` does not show the reading. -/
theorem reading_pwrStat (s : State) (x : BitVec 8) : (s.reading x).pwrStat = s.pwrStat := by
  simp only [State.pwrStat, reading_pwr]

theorem reading_stale {s : State} {x : BitVec 8} (h : s.calFar x.toInt = true) :
    (s.reading x).rdb R.CAL_STAT 0 1 = true ∧ bit ((s.reading x).hdr 0x5B hEvt) 5 = true := by
  have hread : s.reading x = ((s.setPwr fun p => { p with junction := x }).wrb R.CAL_STAT 0 1 true).raise 0x5B 5 := if_pos h
  rw [hread]
  refine ⟨?_, hdr_raise (by decide)⟩
  rw [State.rdb, rd_raise (by decide), State.wrb, rd_wr_self]
  exact bit_setBit (by decide)

theorem reading_fresh {s : State} {x : BitVec 8} (h : s.calFar x.toInt = false) :
    s.reading x = s.setPwr fun p => { p with junction := x } := if_neg (by simp [h])

/-- A report says the same before and after a reading. -/
theorem reading_report (s : State) (x : BitVec 8) (cls : Nat) (d0 d1 : Word) :
    ((s.reading x).report 0x08 0 cls d0 d1).bitt = (s.report 0x08 0 cls d0 d1).bitt := by
  have honly := reading_only s x
  have htime : (s.reading x).time = s.time := honly.same (p := .time) (by decide)
  have hlimit : regKey 0 0x0B 0x08 R.RL_CFG.off ∉ calKeys := by decide
  exact report_bitt_congr (honly.same (p := .bitt) (by decide)) (honly.getReg hlimit) (by rw [htime]) (by rw [htime])
    (by rw [htime]) (by rw [htime])

/-- The registers that a reported reading may write. -/
abbrev warnKeys : List Nat := R.CAL_STAT.key 0 :: regKey 0 0x5B 0 hEvt :: reportKeys

theorem warned_only (s : State) (x : BitVec 8) (cls : Nat) :
    Only (regsIn warnKeys) [.pwr, .bitt] s ((s.reading x).tempReport cls x) :=
  Only.report _ _ _ _ _ (fun _ hk => List.mem_cons_of_mem _ (List.mem_cons_of_mem _ hk)) (by decide)
    ((reading_only s x).mono (fun _ hk => List.mem_append_left reportKeys hk) (by decide))

theorem warned_pwr (s : State) (x : BitVec 8) (cls : Nat) :
    ((s.reading x).tempReport cls x).pwr = { s.pwr with junction := x } := by rw [State.tempReport, report_pwr, reading_pwr]

/-- A reading reported with its value (R39, R504). -/
theorem warned_gives (s : State) (x : BitVec 8) :
    let t := s.finish ((s.reading x).tempReport 0x03 x)
    t.pwr = { s.pwr with junction := x } ∧ s.reports t 0x08 0 0x03 s.pwrStat (wordI x.toInt)
      ∧ Frame (regsIn warnKeys) [.pwr, .bitt] s t := by
  refine ⟨?_, ?_, (warned_only s x 0x03).frame⟩
  · rw [finish_pwr, warned_pwr]
  · rw [State.reports, finish_bitt, State.tempReport, reading_pwrStat, reading_report]

/-- Readings report no event of the salinometer's page and leave its registers as the reading made them. -/
theorem tempReport_cal (s : State) (x : BitVec 8) (cls : Nat) : (s.tempReport cls x).rd R.CAL_STAT = s.rd R.CAL_STAT
    ∧ (s.tempReport cls x).hdr 0x5B hEvt = s.hdr 0x5B hEvt := ⟨report_rd (by decide), report_hdr (by decide)⟩

-- The tamper condition (R468).

theorem tmpPhase_lt (s : State) (unlock : Bool) : s.tmpPhase unlock < 4 := by
  unfold State.tmpPhase
  split
  · decide
  · split
    · decide
    · split <;> decide

/-- The phase rests on the power state, the command queues and the supervisors. -/
theorem tmpPhase_congr {s t : State} (hstate : t.pwr.state = s.pwr.state) (hcmds : t.cmds = s.cmds) (hsup : t.sup = s.sup)
    (unlock : Bool) : t.tmpPhase unlock = s.tmpPhase unlock := by
  have hkey : t.keyOp = s.keyOp := by simp only [State.keyOp, State.cchan, hcmds]
  rw [State.tmpPhase, State.tmpPhase, hstate, hkey, hsup]

/-- The fields of `TMP_LAST`: the time, the phase, the source (R473). -/
theorem tmpLast_fields (sec : Nat) {ph k : Nat} (hph : ph < 16) (hk : k < 16) :
    fld (word (at_ 32 (sec % 2 ^ 32) + at_ 16 ph + k)) 3 0 = k
      ∧ fld (word (at_ 32 (sec % 2 ^ 32) + at_ 16 ph + k)) 19 16 = ph := by
  simp only [fld, word, at_, BitVec.toNat_ofNat]
  omega

theorem nvmWrite_rd (s : State) (place : Nat) (data : List Byte) (r : Reg) (u k : Nat) :
    (s.nvmWrite place data).rd r u k = s.rd r u k := rfl

theorem tamperNoted_latch (s : State) {k : Nat} (unlock : Bool) (hk : k < 64) :
    (s.tamperNoted k unlock).rdb R.TMP_LATCH 0 k = true := by
  rw [State.tamperNoted, State.rdb, rd_raise (by decide), report_rd (by decide), nvmWrite_rd,
    rd_wr_ne (by decide) (by decide) (by decide), rd_wr_self]
  exact bit_setBit hk

theorem tamperNoted_last (s : State) (k : Nat) (unlock : Bool) : (s.tamperNoted k unlock).rd R.TMP_LAST
    = word (at_ 32 (s.tb2Sec % 2 ^ 32) + at_ 16 (s.tmpPhase unlock) + k) := by
  rw [State.tamperNoted, rd_raise (by decide), report_rd (by decide), nvmWrite_rd, rd_wr_self]
  simp only [State.tb2Sec, State.rclk, wr_time]

/-- An enabled source of a reading: the condition is latched and recorded, whatever the firmware answers. -/
theorem tamper_gives (s : State) {u : State} {k : Nat} (h : u.rdb R.TMP_CFG 0 k = true) (hk : k < 16) :
    let t := s.finish (u.tamper k)
    t.pwr = u.pwr ∧ t.rdb R.TMP_LATCH 0 k = true ∧ t.rdf R.TMP_LAST 0 3 0 = k
      ∧ t.rdf R.TMP_LAST 0 19 16 = u.tmpPhase false ∧ bit (t.hdr 0x09 hEvt) 0 = true := by
  have hanswer : Only armKeys holdParts (u.tamperNoted k false) (u.tamper k) := by
    rw [tamper_enabled false h]
    exact tmpRespond_only _ _ _
  have hpwr : (u.tamper k).pwr = u.pwr := (tamper_only u k false).same (p := .pwr) (by decide)
  have hlatch : (u.tamper k).rd R.TMP_LATCH = (u.tamperNoted k false).rd R.TMP_LATCH :=
    hanswer.getReg (mt onPages_iff.mp (by decide))
  have hlast : (u.tamper k).rd R.TMP_LAST = (u.tamperNoted k false).rd R.TMP_LAST :=
    hanswer.getReg (mt onPages_iff.mp (by decide))
  have hevt : (u.tamper k).hdr 0x09 hEvt = (u.tamperNoted k false).hdr 0x09 hEvt :=
    hanswer.getReg (mt onPages_iff.mp (by decide))
  obtain ⟨hsource, hphase⟩ := tmpLast_fields u.tb2Sec (Nat.lt_of_lt_of_le (tmpPhase_lt u false) (by decide)) hk
  dsimp only
  rw [finish_pwr, finish_rdb (by decide), finish_rdf (by decide), finish_rdf (by decide),
    finish_hdr (by decide) (by decide) (by decide), hevt]
  refine ⟨hpwr, ?_, ?_, ?_, hdr_raise (by decide)⟩
  · rw [State.rdb, hlatch]
    exact tamperNoted_latch u false (by omega)
  · rw [State.rdf, hlast, tamperNoted_last, hsource]
  · rw [State.rdf, hlast, tamperNoted_last, hphase]

theorem tempOutOfRange_hot {s : State} {x : BitVec 8} (hx : 105 < x.toInt) (hst : s.pwr.state ≠ .off) :
    exec (.tempOutOfRange x) s = done s (((s.reading x).tempReport 0x03 x).tamper 4) :=
  congrArg (done s) ((if_neg hst).trans (if_pos hx))

theorem tempOutOfRange_cold {s : State} {x : BitVec 8} (hx : x.toInt < -40) (hst : s.pwr.state ≠ .off) :
    exec (.tempOutOfRange x) s = done s ((s.reading x).tamper 4) :=
  congrArg (done s) ((if_neg hst).trans ((if_neg (by omega)).trans (if_pos hx)))

theorem tmpCfg_not_read : ¬regsIn warnKeys (R.TMP_CFG.key 0) ∧ ¬regsIn calKeys (R.TMP_CFG.key 0) :=
  (by decide : R.TMP_CFG.key 0 ∉ warnKeys ∧ R.TMP_CFG.key 0 ∉ calKeys)

/-- A reading leaves what a tamper condition rests on. -/
theorem warned_tmp {s u : State} {K : Nat → Prop} {ps : List Part} (h : Only K ps s u) (hcfg : ¬K (R.TMP_CFG.key 0))
    (hcmds : Part.cmds ∉ ps) (hsup : Part.sup ∉ ps) (hstate : u.pwr.state = s.pwr.state) :
    u.rdb R.TMP_CFG 0 4 = s.rdb R.TMP_CFG 0 4 ∧ u.tmpPhase false = s.tmpPhase false := by
  have hrd : u.rd R.TMP_CFG = s.rd R.TMP_CFG := h.getReg hcfg
  exact ⟨by rw [State.rdb, hrd, State.rdb], tmpPhase_congr hstate (h.same (p := .cmds) hcmds) (h.same (p := .sup) hsup) false⟩

-- A thermal trip and the low-temperature hold (R39).

/-- The core in reset by a trip at a reading, before the report. -/
def State.tripped (s : State) (x : BitVec 8) : State := (s.coreHalted.reading x).setPwr fun p =>
  { p with tripHold := true, lastStop := 4, state := if p.state = .standby then .standby else .held }

theorem trip_eq (s : State) (x : BitVec 8) : s.trip x = (s.tripped x).tempReport 0x04 x := rfl

theorem trip_pwr (s : State) (x : BitVec 8) : (s.trip x).pwr = { s.coreHalted.pwr with
    junction := x, tripHold := true, lastStop := 4
    state := if s.coreHalted.pwr.state = .standby then .standby else .held } := by
  rw [trip_eq, State.tempReport, report_pwr, State.tripped, setPwr_pwr, reading_pwr]

theorem trip_bitt (s : State) (x : BitVec 8) :
    (s.trip x).bitt = (s.report 0x08 0 0x04 (s.tripped x).pwrStat (wordI x.toInt)).bitt := by
  have hread : ((s.tripped x).report 0x08 0 0x04 (s.tripped x).pwrStat (wordI x.toInt)).bitt
      = ((s.coreHalted.reading x).report 0x08 0 0x04 (s.tripped x).pwrStat (wordI x.toInt)).bitt :=
    report_bitt_congr rfl rfl rfl rfl rfl rfl
  rw [trip_eq, State.tempReport, hread, reading_report, coreHalted_report s (by decide)]

theorem trip_mem_nv (s : State) (x : BitVec 8) : (s.trip x).heap.mem = s.heap.mem ∧ (s.trip x).nv = s.nv := by
  have hheap : (s.coreHalted.reading x).heap = s.coreHalted.heap := (reading_only _ x).same (p := .heap) (by decide)
  have hnv : (s.coreHalted.reading x).nv = s.coreHalted.nv := (reading_only _ x).same (p := .nv) (by decide)
  rw [trip_eq, State.tempReport, report_heap, report_nv, State.tripped, setPwr_heap, setPwr_nv, hheap, hnv]
  exact ⟨coreHalted_mem s, coreHalted_nv s⟩

/-- The state in which a core start's low-temperature hold ends (R39). -/
def State.warmEnough (s : State) (x : BitVec 8) : State :=
  (s.reading x).setPwr fun p => { p with tempHold := false, state := .boot }

theorem lowTempRelease_done {s : State} {x : BitVec 8} (hhold : s.pwr.tempHold = true) (hx : -10 ≤ x.toInt) :
    exec (.lowTempRelease x) s = done s (s.warmEnough x).coreEval := congrArg (done s) (if_pos ⟨hhold, hx⟩)

theorem warmEnough_pwr (s : State) (x : BitVec 8) :
    (s.warmEnough x).pwr = { s.pwr with junction := x, tempHold := false, state := .boot } := by
  rw [State.warmEnough, setPwr_pwr, reading_pwr]

end Sys2Proof.Machine

/-! PROOFS. Output pins: their event word, over-current, retries, contention and mismatches (spec/02 R44 to R49). -/

namespace Sys2Proof.Machine

theorem bit_clrBit {w : Word} {i j : Nat} (hj : j < 64) : bit (clrBit w i) j = (bit w j && j != i) := by
  have hmask : (~~~(BitVec.ofNat 64 (2 ^ i))).getLsbD j = (j != i) := by
    rw [BitVec.getLsbD_not, BitVec.getLsbD_ofNat, Nat.testBit_two_pow]
    simp [hj, bne, eq_comm, Bool.beq_eq_decide_eq]
  rw [bit, clrBit, BitVec.getLsbD_and, hmask, bit]

-- The event word (R49).

/-- `PIN_LAST_EVT` of an event. -/
def pinWord (tide kind a b : Nat) (multi : Bool) : Word :=
  word (at_ 32 (tide % 2 ^ 32) + at_ 24 (b2n multi) + at_ 16 b + at_ 8 a + kind)

theorem pinWord_fields (tide : Nat) {kind a b : Nat} (multi : Bool) (hkind : kind < 256) (ha : a < 256) (hb : b < 256) :
    fld (pinWord tide kind a b multi) 7 0 = kind ∧ fld (pinWord tide kind a b multi) 15 8 = a
      ∧ fld (pinWord tide kind a b multi) 23 16 = b ∧ bit (pinWord tide kind a b multi) 24 = multi := by
  have hmulti : b2n multi < 2 := by cases multi <;> decide
  have hfields : fld (pinWord tide kind a b multi) 7 0 = kind ∧ fld (pinWord tide kind a b multi) 15 8 = a
      ∧ fld (pinWord tide kind a b multi) 23 16 = b ∧ fld (pinWord tide kind a b multi) 24 24 = b2n multi := by
    simp only [pinWord, fld, word, at_, BitVec.toNat_ofNat]
    omega
  obtain ⟨hk, hfirst, hsecond, hflag⟩ := hfields
  refine ⟨hk, hfirst, hsecond, ?_⟩
  rw [fld_bit] at hflag
  revert hflag
  cases bit (pinWord tide kind a b multi) 24 <;> cases multi <;> decide

/-- The fields of an event that concerns one pin. -/
theorem pinWord_pin (tide : Nat) {kind : Nat} (hkind : kind < 256) (i : Fin 18) :
    fld (pinWord tide kind i 0xFF false) 7 0 = kind ∧ fld (pinWord tide kind i 0xFF false) 15 8 = i.val := by
  obtain ⟨hk, hpin, -⟩ := pinWord_fields tide false hkind (by omega : i.val < 256) (by decide : 0xFF < 256)
  exact ⟨hk, hpin⟩

theorem pinEvent_rd (s : State) (kind a b : Nat) (multi : Bool) :
    (s.pinEvent kind a b multi).rd R.PIN_LAST_EVT = pinWord s.time.tide kind a b multi := rd_wr_self ..

theorem pinEvent_rd_ne {s : State} {r : Reg} (kind a b : Nat) (multi : Bool) (hr : r.InPage) (h : r.off ≠ R.PIN_LAST_EVT.off) :
    (s.pinEvent kind a b multi).rd r = s.rd r := rd_wr_ne (by decide) hr (by simpa using h)

/-- The registers in which what befalls an output pin shows. -/
abbrev pinKeys : List Nat := [R.PIN_OE.key 0, R.PIN_FAULT.key 0, R.PIN_LAST_EVT.key 0, regKey 0 0x5C 0 hEvt]

theorem Only.pinEvent {K : Nat → Prop} {ps : List Part} {s t : State} (kind a b : Nat) (multi : Bool)
    (hk : K (R.PIN_LAST_EVT.key 0)) (h : Only K ps s t) : Only K ps s (t.pinEvent kind a b multi) := h.wr _ hk

-- An over-current (R44) and its retry (R45).

/-- A pin that hardware disables with its fault latched in a bit of `PIN_FAULT`. -/
def State.pinCut (s : State) (p i : Nat) : State := (s.pinOff p).wrb R.PIN_FAULT 0 i true

theorem pinOff_regs (s : State) (p : Nat) : (s.pinOff p).regs = (s.wrb R.PIN_OE 0 p false).regs := by rw [State.pinOff]

theorem pinOff_rd (s : State) (p : Nat) (r : Reg) (u k : Nat) : (s.pinOff p).rd r u k = (s.wrb R.PIN_OE 0 p false).rd r u k :=
  rd_congr (pinOff_regs s p) r u k

theorem pinCut_oe (s : State) (p i : Nat) : (s.pinCut p i).rd R.PIN_OE = putBit (s.rd R.PIN_OE) p false := by
  rw [State.pinCut, State.wrb, rd_wr_ne (by decide) (by decide) (by decide), pinOff_rd, State.wrb, rd_wr_self]

theorem pinCut_fault (s : State) (p i : Nat) : (s.pinCut p i).rd R.PIN_FAULT = putBit (s.rd R.PIN_FAULT) i true := by
  rw [State.pinCut, State.wrb, rd_wr_self, pinOff_rd, State.wrb, rd_wr_ne (by decide) (by decide) (by decide)]

theorem pinCut_only (s : State) (p i : Nat) : Only (regsIn pinKeys) [.pins] s (s.pinCut p i) :=
  Only.wr _ (.tail _ (.head _)) (Only.set_pins _ (by decide) ((Only.refl _ _ s).wr _ (.head _)))

/-- The state after an over-current, but for the event: the pin waits for its retry. -/
def State.overdriven (s : State) (p : Nat) : State :=
  let t := s.pinCut p p
  { t with pins := { t.pins with waits := pset t.pins.waits p (some t.time.total) } }

theorem pinOvercurrentDisable_done {s : State} {i : Fin 18} (h : bit s.pinOn i = true) : exec (.pinOvercurrentDisable i) s
    = done s (((s.overdriven i).pinEvent 1 i 0xFF false).raise 0x5C 0) := congrArg (done s) (if_pos h)

theorem overdriven_only (s : State) (p : Nat) : Only (regsIn pinKeys) [.pins] s (s.overdriven p) :=
  (pinCut_only s p p).set_pins _ (by decide)

theorem overdriven_rd (s : State) (p : Nat) (r : Reg) : (s.overdriven p).rd r = (s.pinCut p p).rd r :=
  rd_congr (by rw [State.overdriven]) r 0 0

theorem pinCut_time (s : State) (p i : Nat) : (s.pinCut p i).time = s.time := by
  rw [State.pinCut, State.wrb, wr_time, State.pinOff, State.wrb, wr_time]

theorem pinCut_retries (s : State) (p i : Nat) : (s.pinCut p i).pins.retries = s.pins.retries := by
  rw [State.pinCut, State.wrb, wr_pins, State.pinOff, State.wrb, wr_pins]

theorem overdriven_pins (s : State) (p : Nat) :
    pget (s.overdriven p).pins.waits p = some s.time.total ∧ (s.overdriven p).pins.retries = s.pins.retries := by
  rw [State.overdriven]
  exact ⟨by rw [pget_pset_self, pinCut_time], pinCut_retries s p p⟩

theorem pinEvent_pins (s : State) (kind a b : Nat) (multi : Bool) : (s.pinEvent kind a b multi).pins = s.pins := wr_pins ..

/-- The state after a retry, but for the event. -/
def State.retried (s : State) (p : Nat) : State :=
  State.wrb { s with pins := { s.pins with
      retries := mset (fun _ => 0) s.pins.retries p (mget (fun _ => 0) s.pins.retries p + 1), waits := pset s.pins.waits p none } }
    R.PIN_OE 0 p true

theorem retried_oe (s : State) (p : Nat) : (s.retried p).rd R.PIN_OE = putBit (s.rd R.PIN_OE) p true := by
  rw [State.retried, State.wrb, rd_wr_self]
  rfl

theorem retried_pins (s : State) (p : Nat) : mget (fun _ => 0) (s.retried p).pins.retries p
    = mget (fun _ => 0) s.pins.retries p + 1 ∧ pget (s.retried p).pins.waits p = none := by
  rw [State.retried, State.wrb, wr_pins]
  dsimp only
  exact ⟨by rw [mget_mset_self], by rw [pget_pset_self]⟩

theorem pinRetryReenable_done {s : State} {i : Fin 18} (hen : s.enabled 0x5C = true) (hmode : s.rdb R.PIN_RETRY 0 0 = true)
    (hdue : s.retryDue i = true) (hleft : mget (fun _ => 0) s.pins.retries i < s.rdf R.PIN_RETRY 0 15 12) :
    exec (.pinRetryReenable i) s = done s ((s.retried i).pinEvent 3 i 0xFF false) :=
  congrArg (done s) (if_pos ⟨hen, hmode, hdue, hleft⟩)

-- Contention (R46).

/-- Every output of a list disabled, with its contention latched. -/
def State.contended (s : State) (on : List Nat) : State := on.foldl (fun s p => s.pinCut p (32 + p)) s

theorem contended_only (s : State) (on : List Nat) : Only (regsIn pinKeys) [.pins] s (s.contended on) :=
  List.foldlRecOn _ _ (Only.refl _ _ s) fun t ht p _ => ht.trans (pinCut_only t p (32 + p))

theorem contended_cons (s : State) (p : Nat) (on : List Nat) :
    s.contended (p :: on) = (s.pinCut p (32 + p)).contended on := by rw [State.contended, List.foldl_cons, State.contended]

/-- The outputs of the list are disabled, and no other is. -/
theorem contended_oe (on : List Nat) (s : State) {q : Nat} (hq : q < 64) :
    (s.contended on).rdb R.PIN_OE 0 q = (s.rdb R.PIN_OE 0 q && !on.contains q) := by
  induction on generalizing s with
  | nil => simp [State.contended]
  | cons p on ih =>
    have hcut : (s.pinCut p (32 + p)).rdb R.PIN_OE 0 q = (s.rdb R.PIN_OE 0 q && q != p) := by
      rw [State.rdb, pinCut_oe]
      exact bit_clrBit hq
    rw [contended_cons, ih, hcut, List.contains_cons, Bool.not_or, Bool.and_assoc, bne]

/-- A latch stands where it stood, and for every output of the list. -/
theorem contended_fault (on : List Nat) (s : State) {q : Nat} (hq : q < 32)
    (h : q ∈ on ∨ s.rdb R.PIN_FAULT 0 (32 + q) = true) : (s.contended on).rdb R.PIN_FAULT 0 (32 + q) = true := by
  induction on generalizing s with
  | nil => exact h.resolve_left (List.not_mem_nil)
  | cons p on ih =>
    rw [contended_cons]
    refine ih (s.pinCut p (32 + p)) ?_
    rw [State.rdb, pinCut_fault]
    rcases h with h | h
    · rcases List.mem_cons.mp h with rfl | h
      · exact .inr (bit_setBit (by omega))
      · exact .inl h
    · by_cases hpq : 32 + q = 32 + p
      · exact .inr (by rw [hpq]; exact bit_setBit (by omega))
      · exact .inr ((bit_setBit_ne hpq).trans h)

/-- Contention of outputs of which the first two are recorded. -/
def State.contention (s : State) (on : List Nat) (a b : Nat) (multi : Bool) : State :=
  ((s.contended on).pinEvent 2 a b multi).raise 0x5C 1

theorem contention_only (s : State) (on : List Nat) (a b : Nat) (multi : Bool) :
    Only (regsIn pinKeys) [.pins] s (s.contention on a b multi) :=
  Only.raise (.tail _ (.tail _ (.tail _ (.head _)))) ((contended_only s on).pinEvent 2 a b multi (.tail _ (.tail _ (.head _))))

theorem contention_rdb {s : State} {on : List Nat} {a b q : Nat} {multi : Bool} {r : Reg} (hr : r.InPage)
    (h : r.off ≠ R.PIN_LAST_EVT.off) : (s.contention on a b multi).rdb r 0 q = (s.contended on).rdb r 0 q := by
  rw [State.contention, State.rdb, rd_raise hr, pinEvent_rd_ne _ _ _ _ hr h, State.rdb]

theorem contention_event (s : State) (on : List Nat) (a b : Nat) (multi : Bool) :
    (s.contention on a b multi).rd R.PIN_LAST_EVT = pinWord (s.contended on).time.tide 2 a b multi := by
  rw [State.contention, rd_raise (by decide), pinEvent_rd]

/-- The outputs among which contention is sought. -/
abbrev State.drivers (s : State) (ps : List (Fin 18)) : List Nat :=
  onesOf 18 ((ps.foldl (fun w p => setBit w p) 0) &&& s.pinOn).toNat

theorem lt_of_mem_onesOf {n w p : Nat} (h : p ∈ onesOf n w) : p < n := List.mem_range.mp (List.mem_filter.mp h).1

/-- Two outputs that drive opposite values: contention. -/
theorem pinContention_contends {s : State} {ps : List (Fin 18)} {a b : Nat} {rest : List Nat} (hon : s.drivers ps = a :: b :: rest)
    (hhigh : (a :: b :: rest).any (fun p => bit s.pinDrive p) = true)
    (hlow : (a :: b :: rest).any (fun p => !bit s.pinDrive p) = true) : exec (.pinContention ps) s
      = done s (s.contention (a :: b :: rest) a b (!rest.isEmpty)) := by
  obtain ⟨p, hp, hdriven⟩ := List.any_eq_true.mp hhigh
  obtain ⟨q, hq, hundriven⟩ := List.any_eq_true.mp hlow
  show execPinContention ps s = _
  unfold execPinContention
  unfold State.drivers at hon
  dsimp only
  rw [hon]
  refine congrArg (done s) (if_neg ?_)
  rintro (hempty | hall)
  · rw [List.isEmpty_iff, List.filter_eq_nil_iff] at hempty
    exact hempty p hp hdriven
  · rw [List.length_filter_eq_length_iff] at hall
    simp [hall q hq] at hundriven

/-- Outputs that all drive the same value do not contend. -/
theorem pinContention_agrees {s : State} {ps : List (Fin 18)} (h : (s.drivers ps).all (fun p => bit s.pinDrive p) = true
    ∨ (s.drivers ps).all (fun p => !bit s.pinDrive p) = true) : exec (.pinContention ps) s = done s s := by
  have hagree : ((s.drivers ps).filter fun p => bit s.pinDrive p).isEmpty = true
      ∨ ((s.drivers ps).filter fun p => bit s.pinDrive p).length = (s.drivers ps).length := by
    rcases h with h | h
    · exact .inr (List.length_filter_eq_length_iff.mpr (List.all_eq_true.mp h))
    · refine .inl (List.isEmpty_iff.mpr (List.filter_eq_nil_iff.mpr fun p hp => ?_))
      simpa using List.all_eq_true.mp h p hp
  show execPinContention ps s = _
  unfold execPinContention
  dsimp only
  split
  · exact congrArg (done s) (if_pos hagree)
  · rfl

/-- Where outputs drive opposite values there are two. -/
theorem two_of_opposite {on : List Nat} {f : Nat → Bool} (hhigh : on.any f = true) (hlow : on.any (fun p => !f p) = true) :
    ∃ a b rest, on = a :: b :: rest := by
  match on with
  | [] => simp at hhigh
  | [a] =>
    simp only [List.any_cons, List.any_nil, Bool.or_false] at hhigh hlow
    simp [hhigh] at hlow
  | a :: b :: rest => exact ⟨a, b, rest, rfl⟩

end Sys2Proof.Machine

/-! PROOFS. A refused write made alone, `PIN_OE`, and the settlement of `Obligations.TemperatureAndPins`. -/

namespace Sys2Proof.Machine

-- A write that a check refuses (R69, R71, R81).

/-- A write that an agent's port makes alone and that a check refuses leaves its record. -/
theorem write1_of_refused {s : State} {a : Agent} {page off : Nat} {v : Word} {c : Code} (hserved : s.served a (page % 128) = true)
    (hhost : a ≠ .host ∨ s.fab.posted = []) (hcode : s.writeCode (soleWrite a page off v) = some c) :
    s.write1 a page off v = s.recordRejects [s.rejectOf (soleWrite a page off v) c] := by
  have hport : s.portWrites [soleWrite a page off v] = [soleWrite a page off v] := by
    cases a <;> simp [State.portWrites, soleWrite, hserved]
  have hnow : s.writeAll [soleWrite a page off v] = s.writeNow [soleWrite a page off v] := by
    rcases hhost with hne | hempty
    · have hnone : [soleWrite a page off v].find? (fun w => w.agent = .host) = none := by simp [soleWrite, hne]
      rw [State.writeAll, hnone]
      cases s.fab.posted <;> rfl
    · rw [State.writeAll, hempty]
  have hjudge : s.judge [] [soleWrite a page off v] = [(soleWrite a page off v, some c)] := by
    simp [State.judge, State.codeAmong, hcode]
  have hkept : s.afterReject s (soleWrite a page off v) c = s := if_neg (by simp [hcode])
  show s.writeAll [soleWrite a page off v] = _
  rw [hnow, State.writeNow, hport, hjudge]
  cases hclear : clearsOnly (soleWrite a page off v) <;> simp [hclear, State.writeOne, hkept]

/-- One rejection recorded in `PG_REJECT` of its page. -/
def State.onPage (s : State) (j : Reject) : State := s.setHdr j.page hReject (rejectWord (s.hdr j.page hReject) 1 j false)

/-- One rejection on an allocated page, recorded there and in DEV. -/
theorem recordRejects_sole {s : State} {j : Reject} (h : (pageInfo j.page).isSome = true) : s.recordRejects [j]
    = ((s.onPage j).wr R.LAST_REJECT 0 (rejectWord ((s.onPage j).rd R.LAST_REJECT) 1 j true)).raise 0 0 := by
  obtain ⟨p, hp⟩ := Option.isSome_iff_exists.mp h
  have hpage : s.recordOnPage j.page [j] = s.onPage j := by
    simp [State.recordOnPage, State.onPage, lowestAgent, hp]
  have hpages : [j.page].eraseDups = [j.page] := rfl
  simp only [State.recordRejects, lowestAgent, List.map_cons, List.map_nil, hpages, List.foldl_cons, List.foldl_nil, hpage,
    List.length_cons, List.length_nil]

theorem recordRejects_sole_only {s : State} {j : Reject} (h : (pageInfo j.page).isSome = true) :
    Only (regsIn (rejectKeys j.page)) [] s (s.recordRejects [j]) := by
  rw [recordRejects_sole h]
  exact Only.raise (.tail _ (.tail _ (.head _))) (Only.wr _ (.tail _ (.head _)) ((Only.refl _ _ s).setHdr _ (.head _)))

/-- The code that `LAST_REJECT` shows (R58). -/
theorem rejectWord_code (old : Word) (n : Nat) {j : Reject} (dev : Bool) (hcode : j.code.num < 256) (hbank : j.bank < 256)
    (hagent : j.agent < 256) (hpage : j.page < 4096) (hoff : j.off < 4096) : fld (rejectWord old n j dev) 47 40 = j.code.num := by
  have hcount : satAdd 16 (fld old 63 48) n < 65536 := by
    unfold satAdd
    omega
  have hdev : (if dev then at_ 12 j.page else 0) ≤ 4095 * 2 ^ 12 := by
    split
    · unfold at_
      omega
    · decide
  unfold rejectWord
  generalize satAdd 16 (fld old 63 48) n = count at hcount
  generalize (if dev then at_ 12 j.page else 0) = place at hdev
  simp only [fld, word, at_, BitVec.toNat_ofNat]
  omega

/-- The code that judges a write of a register of its own on the one bank that it addresses. -/
theorem writeCode_of_alone {s : State} {a : Agent} {page k b : Nat} {r : Reg} {v : Word} (hr : r.Alone page k)
    (hinfo : (pageInfo page).isSome = true) (halign : (r.off + r.stride * k) % 8 = 0) (hb : banksOf r (s.bankOf a page) = [b]) :
    s.writeCode (soleWrite a page (r.off + r.stride * k) v)
      = firstCode ((s.quadsFull (soleWrite a page (r.off + r.stride * k) v) 0 (unitAt r page b), .range)
          :: s.reasons a page r (unitAt r page b) k v) := by
  obtain ⟨hpage, hlo, hhi, hfind, -⟩ := hr
  have hp : (soleWrite a page (r.off + r.stride * k) v).page.val = page := Nat.mod_eq_of_lt hpage
  have ho : (soleWrite a page (r.off + r.stride * k) v).off.val = r.off + r.stride * k := Nat.mod_eq_of_lt hhi
  have hsize : ¬((soleWrite a page (r.off + r.stride * k) v).size ≠ 8 ∨ (r.off + r.stride * k) % 8 ≠ 0) := by
    simp [soleWrite, halign]
  have hknown : ¬(pageInfo page).isNone = true := by simpa [Option.isSome_iff_ne_none] using hinfo
  unfold State.writeCode
  dsimp only
  rw [hp, ho, if_neg hsize, if_neg hknown, if_neg (by omega), hfind]
  simp only [soleWrite, hb, List.map_cons, List.map_nil]
  generalize firstCode _ = code
  cases code <;> rfl

/-- The limit of R145 concerns `QUAD_MODE` alone. -/
theorem quadsFull_of_alone {s : State} {a : Agent} {page k : Nat} {r : Reg} {v : Word} (hr : r.Alone page k)
    (hne : r ≠ R.QUAD_MODE) (taken u : Nat) : s.quadsFull (soleWrite a page (r.off + r.stride * k) v) taken u = false := by
  obtain ⟨hpage, -, hhi, hfind, -⟩ := hr
  have hp : (soleWrite a page (r.off + r.stride * k) v).page.val = page := Nat.mod_eq_of_lt hpage
  have ho : (soleWrite a page (r.off + r.stride * k) v).off.val = r.off + r.stride * k := Nat.mod_eq_of_lt hhi
  have hinto : s.quadsInto (soleWrite a page (r.off + r.stride * k) v) = [] := by
    simp only [State.quadsInto, hp, ho, hfind, hne, false_and, if_false]
  rw [State.quadsFull, hinto, List.contains_nil, Bool.false_and]

/-- A reason that does not hold gives no code. -/
theorem firstCode_false (c : Code) (rs : List Reason) : firstCode ((false, c) :: rs) = firstCode rs := by
  rw [firstCode]
  split
  · simp_all
  · simp_all

-- `PIN_OE` (R47).

theorem pinOe_alone : R.PIN_OE.Alone 0x5C 0 := by decide

theorem pinOe_bank (n : Nat) : banksOf R.PIN_OE n = [0] := if_pos rfl

theorem pinOe_put (s : State) (a : Agent) (v : Word) : s.put a R.PIN_OE 0 0 v
    = State.wr { s with pins := { s.pins with retries := [], waits := [] } } R.PIN_OE 0 v := rfl

theorem pinOe_static (v : Word) : staticReasons R.PIN_OE v = [] := rfl

theorem pinOe_guard (s : State) (a : Agent) (v : Word) : s.pageGuard a R.PIN_OE 0 0 v = s.pinGuard R.PIN_OE v := rfl

/-- A reserved register that no image holds gives its first five reasons by its owner and its reserved bits alone. -/
theorem pinOe_reasons (s : State) (a : Agent) (v : Word) : s.reasons a 0x5C R.PIN_OE 0 0 v
    = (false, .access) :: (s.secureOwned 0x5C && !s.secureWorld a, .owner) :: (false, .expert) :: resvReason R.PIN_OE v
      :: (false, .sched) :: s.pinGuard R.PIN_OE v := by
  have haccess : (R.PIN_OE.acc == .ro) = false := by decide
  have hexpert : decide (0x800 ≤ R.PIN_OE.off) = false := by decide
  have hheld : R.PIN_OE.held = false := by decide
  rw [State.reasons, pinOe_static, pinOe_guard, haccess, hexpert, State.heldReason, hheld]
  simp only [Bool.false_and, List.append_nil, List.cons_append, List.nil_append]

/-- A bit of `PIN_OE` whose fault is latched is refused with E_STATE, where no earlier check refuses the write. -/
theorem pinOe_refused {s : State} {a : Agent} {v : Word} (hworld : s.secureWorld a = true ∨ s.secureOwned 0x5C = false)
    (hresv : v &&& 0xFFFFFFFFFFFC0000#64 = 0)
    (hfault : v &&& (s.rd R.PIN_FAULT ||| (s.rd R.PIN_FAULT >>> 32)) &&& 0x3FFFF#64 ≠ 0) :
    s.writeCode (soleWrite a 0x5C R.PIN_OE.off v) = some .state := by
  have howner : (s.secureOwned 0x5C && !s.secureWorld a) = false := by
    rcases hworld with h | h <;> simp [h]
  have hbits : resvReason R.PIN_OE v = (false, .resv) := by
    rw [resvReason, show v &&& word R.PIN_OE.resv = 0 from hresv, bne_self_eq_false]
  have hguard : firstCode (s.pinGuard R.PIN_OE v) = some .state := by
    rw [State.pinGuard, if_pos rfl]
    dsimp only
    rw [bne_iff_ne.mpr hfault]
    cases (List.range 18).any (fun p => bit v p && pget s.pins.offAt p == some s.rclk) <;> rfl
  have halone := writeCode_of_alone (s := s) (a := a) (v := v) pinOe_alone (by decide) (by decide) (pinOe_bank _)
  rw [quadsFull_of_alone pinOe_alone (by decide), show unitAt R.PIN_OE 0x5C 0 = 0 from rfl, pinOe_reasons, howner, hbits] at halone
  refine halone.trans ?_
  simp only [firstCode_false, hguard]

/-- A write of `PIN_OE` that every check accepts begins the retries anew (R45). -/
theorem pinOeWrite_accepted {s : State} {a : Agent} {v : Word} (h : s.accepts a 0x5C R.PIN_OE.off v = true) :
    exec (.pinOeWrite a v) s
      = done s (State.wr { s with pins := { s.pins with retries := [], waits := [] } } R.PIN_OE 0 v) :=
  congrArg (done s) ((writeReg_of_accepts pinOe_alone (pinOe_bank _) h).trans (pinOe_put s a v))

/-- The record of a refused write of `PIN_OE`. -/
abbrev State.pinOeReject (s : State) (a : Agent) (v : Word) : Reject := s.rejectOf (soleWrite a 0x5C R.PIN_OE.off v) .state

theorem pinOeReject_page (s : State) (a : Agent) (v : Word) : (s.pinOeReject a v).page = 0x5C := rfl

theorem pinOeReject_info (s : State) (a : Agent) (v : Word) : (pageInfo (s.pinOeReject a v).page).isSome = true := by
  rw [pinOeReject_page]
  rfl

theorem pinOeReject_word (s : State) (a : Agent) (v old : Word) : fld (rejectWord old 1 (s.pinOeReject a v) true) 47 40 = 4 := by
  have hagent : a.code < 256 := by cases a <;> decide
  have hpage : (soleWrite a 0x5C R.PIN_OE.off v).page.val < 4096 := Nat.lt_trans (Fin.isLt _) (by decide)
  exact rejectWord_code (j := s.pinOeReject a v) old 1 true (by decide : Code.state.num < 256) (by decide : 0 < 256) hagent hpage
    (Fin.isLt _)

/-- Settles O6: readings by what they report and the tamper condition they raise (`warned_gives`, `tamper_gives`), the trip and
the holds by the core's reset, pins by the event word (`pinWord_fields`) and by what is disabled (`pinCut_oe`, `contended_oe`),
`PIN_OE` by the checks of R69 (`pinOe_refused`). -/
theorem temperatureAndPins : Obligations.TemperatureAndPins := by
  unfold Obligations.TemperatureAndPins
  refine ⟨?warn, ?hot, ?cold, ?tampered, ?trip, ?coldHold, ?noHold, ?release, ?noRelease, ?overCurrent, ?noOver, ?retry,
    ?noRetry, ?contend, ?agree, ?mismatch, ?noMismatch, ?oeWrite, ?oeRefused⟩
  case warn =>
    intro s x hx hst
    obtain ⟨hpwr, hreports, hframe⟩ := warned_gives s x
    obtain ⟨hcal, hevt⟩ := tempReport_cal (s.reading x) x 0x03
    refine Gives.done (congrArg (done s) (if_pos ⟨hx, hst⟩)) ⟨hpwr, hreports, fun hfar => ?_, fun hnear => ?_, hframe⟩
    · rw [State.rdb, finish_rd (by decide), hcal, finish_hdr (by decide) (by decide) (by decide), hevt]
      exact reading_stale hfar
    · rw [finish_rd (by decide), hcal, finish_hdr (by decide) (by decide) (by decide), hevt, reading_fresh hnear]
      exact ⟨rfl, rfl⟩
  case hot =>
    intro s x hx hst hcfg
    have hkept := (warned_tmp (warned_only s x 0x03) tmpCfg_not_read.1 (by decide) (by decide) (by rw [warned_pwr])).1
    exact Gives.done ((tempOutOfRange_hot hx hst).trans (congrArg (done s) (tamper_disabled false (hkept.trans hcfg))))
      (warned_gives s x)
  case cold =>
    intro s x hx hst hcfg
    have hkept := (warned_tmp (reading_only s x) tmpCfg_not_read.2 (by decide) (by decide) (by rw [reading_pwr])).1
    refine Gives.done ((tempOutOfRange_cold hx hst).trans (congrArg (done s) (tamper_disabled false (hkept.trans hcfg))))
      ⟨?_, (reading_only s x).frame⟩
    rw [finish_pwr, reading_pwr]
  case tampered =>
    intro s x hx hst hcfg
    rcases hx with hx | hx
    · obtain ⟨hkept, hphase⟩ :=
        warned_tmp (warned_only s x 0x03) tmpCfg_not_read.1 (by decide) (by decide) (by rw [warned_pwr])
      obtain ⟨hpwr, hlatched⟩ := tamper_gives s (hkept.trans hcfg) (by decide)
      rw [hphase] at hlatched
      exact Gives.done (tempOutOfRange_hot hx hst) ⟨by rw [hpwr, warned_pwr], hlatched⟩
    · obtain ⟨hkept, hphase⟩ :=
        warned_tmp (reading_only s x) tmpCfg_not_read.2 (by decide) (by decide) (by rw [reading_pwr])
      obtain ⟨hpwr, hlatched⟩ := tamper_gives s (hkept.trans hcfg) (by decide)
      rw [hphase] at hlatched
      exact Gives.done (tempOutOfRange_cold hx hst) ⟨by rw [hpwr, reading_pwr], hlatched⟩
  case trip =>
    intro s x hx hst
    obtain ⟨_, _, _, _, _, hhalted⟩ := coreHalted_pwr s
    obtain ⟨hmem, hnv⟩ := trip_mem_nv s x
    have hstat : (s.finish (s.trip x)).pwrStat = (s.tripped x).pwrStat := by
      rw [finish_pwrStat]
      exact pwrStat_congr (by rw [trip_eq, State.tempReport, report_pwr])
    refine Gives.done (congrArg (done s) (if_pos ⟨hx, hst⟩)) ?_
    rw [State.reports, hstat, finish_pwr, finish_bitt, finish_heap, finish_nv, trip_pwr, hhalted]
    exact ⟨rfl, rfl, rfl, rfl, rfl, trip_bitt s x, hmem, hnv⟩
  case coldHold =>
    intro s x hx hup hready
    have hnv : ((s.coreReset false).reading x).nv = s.nv := (reading_only _ x).same (p := .nv) (by decide)
    refine Gives.done (s1 := s.coldHold x) (congrArg (done s) (if_pos ⟨hx, hup, hready⟩)) ?_
    rw [finish_pwr, finish_nv, State.coldHold, setPwr_pwr, setPwr_nv, reading_pwr, coreReset_pwr, hnv]
    exact ⟨rfl, rfl, rfl, rfl, rfl, rfl⟩
  case noHold =>
    intro s x h
    refine stays_gives (congrArg (done s) (if_neg ?_))
    rintro ⟨hx, hup, hready⟩
    rcases h with h | h | h
    · omega
    · exact Bool.false_ne_true (h.symm.trans hup)
    · exact Bool.false_ne_true (hready.symm.trans h)
  case release =>
    intro s x hhold hx
    obtain ⟨_, _, _, _, _, hpwr⟩ := coreEval_pwr (s.warmEnough x)
    have hstays : s.pwr.warmN = false → (s.warmEnough x).coreEval = s.warmEnough x := fun hwarm =>
      coreEval_stays (.inl (coreMayRun_warm (by rw [warmEnough_pwr]; exact hwarm)))
    refine Gives.done (lowTempRelease_done hhold hx) ⟨?_, ?_, fun hwarm => ?_, fun hwarm => ?_⟩
    · rw [finish_pwr, hpwr, warmEnough_pwr]
    · rw [finish_pwr, hpwr, warmEnough_pwr]
    · rw [finish_pwr, hstays hwarm, warmEnough_pwr]
    · rw [hstays hwarm]
      exact ((reading_only s x).setPwr _ (by decide)).frame
  case noRelease =>
    intro s x h
    refine stays_gives (congrArg (done s) (if_neg ?_))
    rintro ⟨hhold, hx⟩
    rcases h with h | h
    · exact Bool.false_ne_true (h.symm.trans hhold)
    · omega
  case overCurrent =>
    intro s i hon
    obtain ⟨hkind, hpin⟩ := pinWord_pin s.time.tide (by decide : 1 < 256) i
    have honly : Only (regsIn pinKeys) [.pins] s (((s.overdriven i).pinEvent 1 i 0xFF false).raise 0x5C 0) :=
      Only.raise (.tail _ (.tail _ (.tail _ (.head _))))
        ((overdriven_only s i).pinEvent 1 i 0xFF false (.tail _ (.tail _ (.head _))))
    refine Gives.done (pinOvercurrentDisable_done hon) ⟨?_, ?_, ?_, ?_, ?_, ?_, ?_, honly.frame⟩
    · rw [finish_rd (by decide), rd_raise (by decide), pinEvent_rd_ne _ _ _ _ (by decide) (by decide), overdriven_rd, pinCut_oe]
    · rw [finish_rd (by decide), rd_raise (by decide), pinEvent_rd_ne _ _ _ _ (by decide) (by decide), overdriven_rd,
        pinCut_fault]
    · rw [finish_rdf (by decide), State.rdf, rd_raise (by decide), pinEvent_rd]
      exact hpin
    · rw [finish_rdf (by decide), State.rdf, rd_raise (by decide), pinEvent_rd]
      exact hkind
    · rw [finish_hdr (by decide) (by decide) (by decide)]
      exact hdr_raise (by decide)
    · rw [finish_pins, raise_pins, pinEvent_pins]
      exact (overdriven_pins s i).1
    · rw [finish_pins, raise_pins, pinEvent_pins]
      exact (overdriven_pins s i).2
  case noOver =>
    intro s i hoff
    exact stays_gives (congrArg (done s) (if_neg (by simp [hoff])))
  case retry =>
    intro s i hen hmode hdue hleft
    obtain ⟨hkind, hpin⟩ := pinWord_pin s.time.tide (by decide : 3 < 256) i
    have honly : Only (regsIn [R.PIN_OE.key 0, R.PIN_LAST_EVT.key 0]) [.pins] s ((s.retried i).pinEvent 3 i 0xFF false) :=
      (Only.wr _ (.head _) ((Only.refl _ _ s).set_pins _ (by decide))).pinEvent 3 i 0xFF false (.tail _ (.head _))
    refine Gives.done (pinRetryReenable_done hen hmode hdue hleft) ⟨?_, ?_, ?_, ?_, ?_, honly.frame⟩
    · rw [finish_rd (by decide), pinEvent_rd_ne _ _ _ _ (by decide) (by decide), retried_oe]
    · rw [finish_pins, pinEvent_pins]
      exact (retried_pins s i).1
    · rw [finish_pins, pinEvent_pins]
      exact (retried_pins s i).2
    · rw [finish_rdf (by decide), State.rdf, pinEvent_rd]
      exact hpin
    · rw [finish_rdf (by decide), State.rdf, pinEvent_rd]
      exact hkind
  case noRetry =>
    intro s i h
    refine stays_gives (congrArg (done s) (if_neg ?_))
    rintro ⟨hen, hmode, hdue, hleft⟩
    rcases h with h | h | h | h
    · exact Bool.false_ne_true (h.symm.trans hen)
    · exact Bool.false_ne_true (h.symm.trans hmode)
    · exact Bool.false_ne_true (h.symm.trans hdue)
    · exact absurd hleft (by omega)
  case contend =>
    intro s ps on hon hhigh hlow
    obtain ⟨a, b, rest, rfl⟩ := two_of_opposite hhigh hlow
    have hbelow : ∀ p ∈ a :: b :: rest, p < 18 := fun p hp => lt_of_mem_onesOf (hon ▸ hp)
    have ha := hbelow a (List.mem_cons_self ..)
    have hb := hbelow b (List.mem_cons_of_mem _ (List.mem_cons_self ..))
    obtain ⟨hkind, hfirst, hsecond, hmulti⟩ := pinWord_fields (s.contended (a :: b :: rest)).time.tide (!rest.isEmpty)
      (by decide : 2 < 256) (by omega : a < 256) (by omega : b < 256)
    refine Gives.done (pinContention_contends hon.symm hhigh hlow) ?_
    rw [finish_rdf (by decide), finish_rdf (by decide), finish_rdf (by decide), finish_rdb (by decide), State.rdf, State.rdf,
      State.rdf, State.rdb, contention_event, finish_hdr (by decide) (by decide) (by decide)]
    refine ⟨List.all_eq_true.mpr fun p hp => ?_, List.all_eq_true.mpr fun p hp => ?_, hkind, hfirst, hsecond, ?_,
      hdr_raise (by decide), (contention_only ..).frame⟩
    · have hp18 := hbelow p hp
      rw [finish_rdb (by decide), finish_rdb (by decide), contention_rdb (by decide) (by decide),
        contention_rdb (by decide) (by decide), contended_oe _ _ (by omega), contended_fault _ _ (by omega) (.inl hp),
        List.contains_iff_mem.mpr hp, Bool.not_true, Bool.and_false, Bool.not_false, Bool.and_true]
    · have hp18 := List.mem_range.mp hp
      rw [finish_rdb (by decide), contention_rdb (by decide) (by decide), contended_oe _ _ (by omega)]
      cases (a :: b :: rest).contains p <;> simp
    · rw [hmulti]
      cases rest <;> simp
  case agree =>
    rintro s ps on rfl h
    exact stays_gives (pinContention_agrees h)
  case mismatch =>
    intro s i hon
    obtain ⟨hkind, hpin⟩ := pinWord_pin s.time.tide (by decide : 4 < 256) i
    have honly : Only (regsIn [R.PIN_LAST_EVT.key 0, regKey 0 0x5C 0 hEvt]) [] s ((s.pinEvent 4 i 0xFF false).raise 0x5C 2) :=
      Only.raise (.tail _ (.head _)) ((Only.refl _ _ s).pinEvent 4 i 0xFF false (.head _))
    refine Gives.done (congrArg (done s) (if_pos hon)) ?_
    rw [finish_rdf (by decide), finish_rdf (by decide), State.rdf, State.rdf, rd_raise (by decide), pinEvent_rd,
      finish_hdr (by decide) (by decide) (by decide)]
    exact ⟨hkind, hpin, hdr_raise (by decide), honly.frame⟩
  case noMismatch =>
    intro s i hoff
    exact stays_gives (congrArg (done s) (if_neg (by simp [hoff])))
  case oeWrite =>
    intro s a v h
    refine Gives.done (pinOeWrite_accepted h) ⟨?_, ?_, (Only.wr _ (.head _) ((Only.refl _ _ s).set_pins _ (by decide))).frame⟩
    · rw [finish_rd (by decide), rd_wr_self]
    · rw [finish_pins, wr_pins]
  case oeRefused =>
    intro s a v hhost hserved hworld hresv hfault
    have hwrite : exec (.pinOeWrite a v) s = done s (s.recordRejects [s.pinOeReject a v]) :=
      congrArg (done s) (write1_of_refused hserved hhost (pinOe_refused hworld hresv hfault))
    have honly : Only (regsIn (rejectKeys 0x5C)) [] s (s.recordRejects [s.pinOeReject a v]) := by
      rw [← pinOeReject_page s a v]
      exact recordRejects_sole_only (pinOeReject_info s a v)
    have hoe : (s.recordRejects [s.pinOeReject a v]).rd R.PIN_OE = s.rd R.PIN_OE :=
      honly.getReg (by decide : R.PIN_OE.key 0 ∉ rejectKeys 0x5C)
    refine Gives.done hwrite ⟨?_, ?_, honly.frame⟩
    · rw [finish_rdf (by decide), State.rdf, recordRejects_sole (pinOeReject_info s a v), rd_raise (by decide), rd_wr_self]
      exact pinOeReject_word s a v _
    · rw [finish_rd (by decide), hoe]

end Sys2Proof.Machine

/-! PROOFS. Where a command's last RCLK starts and what its end sends, and the settlement of
`Obligations.EveryCommandSignalsItsEvents`, `Obligations.MessagesThatMayNotLeave` and `Obligations.StepRunsTheFrontCommand`. -/

namespace Sys2Proof.Machine

-- Where the last RCLK of a command starts (R54, R76, R78).

/-- A command that may wait for the host's posted writes starts its last RCLK at the state given or after them. -/
theorem start_ite {s u : State} {c : Prop} [Decidable c] (h : u = s ∨ u = s.drainPosted) :
    (if c then u else s) = s ∨ (if c then u else s) = s.drainPosted := by
  split
  · exact h
  · exact .inl rfl

theorem hostTurn_start (s : State) (a : Agent) : s.hostTurn a = s ∨ s.hostTurn a = s.drainPosted := start_ite (.inr rfl)

theorem drained_start (s : State) : s.drained = s ∨ s.drained = s.drainPosted := start_ite (.inr rfl)

/-- Every command ends in `done`, from the start of its last RCLK. -/
theorem exec_eq_done_lastStart (c : Instr) (s : State) : ∃ y x, exec c s = done y x ∧ lastStart c s y x := by
  cases c
  case pcieInboundRequest r => exact ⟨_, _, rfl, rfl⟩
  case xbarArbitration t => exact ⟨_, _, rfl, rfl⟩
  case warmNAssert t =>
    by_cases h : s.pwr.warmN = true
    · exact ⟨s.drained, _, if_pos h, drained_start s⟩
    · exact ⟨s, s, if_neg h, .inl rfl⟩
  case perstNAssert =>
    by_cases h : s.pwr.perstN = true
    · exact ⟨s.drainPosted, _, if_pos h, .inr rfl⟩
    · exact ⟨s, s, if_neg h, .inl rfl⟩
  case groupHeadRead a page off => exact ⟨s.hostTurn a, _, rfl, hostTurn_start s a⟩
  case refusedRead r => exact ⟨s.hostTurn r.agent, _, rfl, hostTurn_start s r.agent⟩
  case tapInstruction op => exact ⟨_, _, rfl, start_ite (drained_start s)⟩
  case checkpointDue => exact ⟨_, _, rfl, start_ite (.inr rfl)⟩
  all_goals exact ⟨s, _, rfl, .inl rfl⟩

-- What the end of a command sends (R82, R381).

/-- A command's effect with the view and R12's conditions tracked: the state whose signals end the RCLK. -/
def State.tracked (s0 s1 : State) : State := (State.meshTrack s0 s1).condTrack

theorem finish_eq_signal (s0 s1 : State) : s0.finish s1 = signal State.msixSend s0 (s0.tracked s1) := rfl

@[simp] theorem tracked_sent (s0 s1 : State) : (s0.tracked s1).sent = s1.sent := by
  obtain ⟨since, regs, hm, -⟩ := meshTrack_spec s0 s1
  rw [State.tracked, hm]
  rfl

/-- The signals write no register. -/
theorem finish_regs_tracked (s0 s1 : State) : (s0.finish s1).regs = (s0.tracked s1).regs := by
  obtain ⟨pba, sent, hs, -⟩ := signal_spec s0 (s0.tracked s1)
  rw [finish_eq_signal, hs]

/-- The signals change of the endpoint the pending bits alone. -/
theorem tracked_pcie (s0 s1 : State) :
    (s0.tracked s1).pcie = { (s0.finish s1).pcie with pba := (s0.tracked s1).pcie.pba } := by
  obtain ⟨pba, sent, hs, -⟩ := signal_spec s0 (s0.tracked s1)
  rw [finish_eq_signal, hs]

theorem evtPend_congr {s t : State} (h : t.regs = s.regs) : t.evtPend = s.evtPend := by
  funext page
  simp only [State.evtPend, State.hdr, getReg_congr h]

theorem evtSumLo_congr {s t : State} (h : t.regs = s.regs) : t.evtSumLo = s.evtSumLo := by
  rw [State.evtSumLo, evtPend_congr h, State.evtSumLo]

theorem evtSumHi_congr {s t : State} (h : t.regs = s.regs) : t.evtSumHi = s.evtSumHi := by
  rw [State.evtSumHi, evtPend_congr h, State.evtSumHi]

/-- Some bit of `EVT_SUM_LO` or `EVT_SUM_HI` goes from 0 to 1. -/
abbrev State.Rises (s t : State) : Prop := ¬(risen s.evtSumLo t.evtSumLo = 0 ∧ risen s.evtSumHi t.evtSumHi = 0)

/-- The supervisor's interrupt, which names every rise. -/
abbrev State.riseIrq (s t : State) : Output := .irq (risen s.evtSumLo t.evtSumLo) (risen s.evtSumHi t.evtSumHi)

/-- The vector on which rises are signalled. -/
abbrev State.evtVec (s : State) : Nat := s.rdf R.EVT_ROUTE 0 42 32

theorem rises_tracked {s0 s1 : State} : s0.Rises (s0.finish s1) ↔ s0.Rises (s0.tracked s1) := by
  rw [State.Rises, evtSumLo_congr (finish_regs_tracked s0 s1), evtSumHi_congr (finish_regs_tracked s0 s1)]

theorem riseIrq_tracked (s0 s1 : State) : s0.riseIrq (s0.finish s1) = s0.riseIrq (s0.tracked s1) := by
  rw [State.riseIrq, evtSumLo_congr (finish_regs_tracked s0 s1), evtSumHi_congr (finish_regs_tracked s0 s1)]

theorem rdb_congr {s t : State} (h : t.regs = s.regs) (r : Reg) (u i : Nat) : t.rdb r u i = s.rdb r u i := by
  rw [State.rdb, rd_congr h, State.rdb]

theorem rdf_congr {s t : State} (h : t.regs = s.regs) (r : Reg) (u hi lo : Nat) : t.rdf r u hi lo = s.rdf r u hi lo := by
  rw [State.rdf, rd_congr h, State.rdf]

/-- Without a rise nothing is sent. -/
theorem finish_quiet {s0 s1 : State} (h : ¬s0.Rises (s0.finish s1)) : s0.finish s1 = s0.tracked s1 :=
  if_pos (not_not.mp (rises_tracked.not.mp h))

/-- A rise without `MSIX_EN` interrupts the supervisor alone. -/
theorem finish_unrouted {s0 s1 : State} (h : s0.Rises (s0.finish s1)) (hroute : (s0.finish s1).rdb R.EVT_ROUTE 0 0 = false) :
    s0.finish s1 = (s0.tracked s1).emit (s0.riseIrq (s0.finish s1)) := by
  have hoff : (s0.tracked s1).rdb R.EVT_ROUTE 0 0 = false := (rdb_congr (finish_regs_tracked s0 s1) ..).symm.trans hroute
  rw [riseIrq_tracked, finish_eq_signal]
  exact (if_neg (rises_tracked.mp h)).trans (if_neg (ne_true_of_eq_false hoff))

/-- A rise with `MSIX_EN` is signalled on the vector too. -/
theorem finish_routed {s0 s1 : State} (h : s0.Rises (s0.finish s1)) (hroute : (s0.finish s1).rdb R.EVT_ROUTE 0 0 = true) :
    s0.finish s1 = ((s0.tracked s1).emit (s0.riseIrq (s0.finish s1))).msixSend (s0.finish s1).evtVec := by
  have hon : (s0.tracked s1).rdb R.EVT_ROUTE 0 0 = true := (rdb_congr (finish_regs_tracked s0 s1) ..).symm.trans hroute
  rw [riseIrq_tracked, State.evtVec, rdf_congr (finish_regs_tracked s0 s1), finish_eq_signal]
  exact (if_neg (rises_tracked.mp h)).trans (if_pos hon)

/-- A message that may not leave, or that is masked, is not sent (R380, R381). -/
theorem msixSend_silent {s : State} {v : Nat} (h : s.pcie.msixEn = false ∨ (s.msixOf v).masked = true ∨ s.pcie.maskAll = true
    ∨ s.pcieMaster = false) : (s.msixSend v).sent = s.sent := by
  unfold State.msixSend
  dsimp only
  split
  · rfl
  · split
    · rfl
    · split
      · rename_i hen hmask hm
        simp only [State.msixOf] at h
        simp_all
      · rfl

/-- What the endpoint shows when a command has ended it shows when the message of a rise is sent. -/
theorem tracked_endpoint (s0 s1 : State) : (s0.tracked s1).pcie.msixEn = (s0.finish s1).pcie.msixEn
    ∧ (s0.tracked s1).pcie.maskAll = (s0.finish s1).pcie.maskAll ∧ (s0.tracked s1).pcieMaster = (s0.finish s1).pcieMaster
    ∧ ∀ v, (s0.tracked s1).msixOf v = (s0.finish s1).msixOf v := by
  simp only [State.pcieMaster, State.msixOf]
  rw [tracked_pcie]
  exact ⟨rfl, rfl, rfl, fun _ => rfl⟩

section Routed

variable {s0 s1 : State} (h : s0.Rises (s0.finish s1)) (hroute : (s0.finish s1).rdb R.EVT_ROUTE 0 0 = true)
include h hroute

/-- One message on `MSIX_VEC` follows the interrupt where the function may send it. -/
theorem finish_message (hen : (s0.finish s1).pcie.msixEn = true) (hall : (s0.finish s1).pcie.maskAll = false)
    (hm : (s0.finish s1).pcieMaster = true) (hmask : ((s0.finish s1).msixOf (s0.finish s1).evtVec).masked = false) :
    (s0.finish s1).sent = .msix (s0.finish s1).evtVec ((s0.finish s1).msixOf (s0.finish s1).evtVec).addr
      ((s0.finish s1).msixOf (s0.finish s1).evtVec).data :: s0.riseIrq (s0.finish s1) :: s1.sent := by
  obtain ⟨ten, tall, tm, tof⟩ := tracked_endpoint s0 s1
  have hsend := msixSend_emits (s := (s0.tracked s1).emit (s0.riseIrq (s0.finish s1))) (ten.trans hen)
    ((congrArg MsixEntry.masked (tof _)).trans hmask) (tall.trans hall) (tm.trans hm)
  rw [congrArg State.sent (finish_routed h hroute), hsend, ← tof, ← tracked_sent s0 s1]
  rfl

/-- No message follows it where the vector or the function is masked or the function may not send. -/
theorem finish_no_message (hno : (s0.finish s1).pcie.msixEn = false ∨ ((s0.finish s1).msixOf (s0.finish s1).evtVec).masked = true
    ∨ (s0.finish s1).pcie.maskAll = true ∨ (s0.finish s1).pcieMaster = false) :
    (s0.finish s1).sent = s0.riseIrq (s0.finish s1) :: s1.sent := by
  obtain ⟨ten, tall, tm, tof⟩ := tracked_endpoint s0 s1
  rw [← ten, ← tall, ← tm, ← tof] at hno
  rw [congrArg State.sent (finish_routed h hroute), msixSend_silent (s := (s0.tracked s1).emit _) hno, ← tracked_sent s0 s1]
  rfl

/-- A message that is masked is held by its pending bit (R381). -/
theorem finish_holds_message (hen : (s0.finish s1).pcie.msixEn = true)
    (hmask : ((s0.finish s1).msixOf (s0.finish s1).evtVec).masked = true ∨ (s0.finish s1).pcie.maskAll = true) :
    mget (fun _ => false) (s0.finish s1).pcie.pba (s0.finish s1).evtVec = true := by
  obtain ⟨ten, tall, -, tof⟩ := tracked_endpoint s0 s1
  rw [← tall, ← tof] at hmask
  have hheld := msixSend_holds (s := (s0.tracked s1).emit (s0.riseIrq (s0.finish s1))) (ten.trans hen) hmask
  rwa [← finish_routed h hroute] at hheld

/-- The interrupt is sent whatever becomes of the message. -/
theorem finish_irq_routed : s0.riseIrq (s0.finish s1) ∈ (s0.finish s1).sent := by
  obtain ⟨pba, sent, hs, hsuf⟩ := msixSend_spec ((s0.tracked s1).emit (s0.riseIrq (s0.finish s1))) (s0.finish s1).evtVec
  rw [congrArg State.sent (finish_routed h hroute), hs]
  exact hsuf.subset (List.mem_cons_self ..)

end Routed

theorem finish_sent_unrouted {s0 s1 : State} (h : s0.Rises (s0.finish s1)) (hroute : (s0.finish s1).rdb R.EVT_ROUTE 0 0 = false) :
    (s0.finish s1).sent = s0.riseIrq (s0.finish s1) :: s1.sent := by
  rw [congrArg State.sent (finish_unrouted h hroute), ← tracked_sent s0 s1]
  rfl

/-- Settles O55: every command ends in `done` (`exec_eq_done_lastStart`), and what that sends is said of a rise that is routed and
of one that is not. -/
theorem everyCommandSignalsItsEvents : Obligations.EveryCommandSignalsItsEvents := by
  unfold Obligations.EveryCommandSignalsItsEvents
  intro c s
  obtain ⟨y, x, hexec, hstart⟩ := exec_eq_done_lastStart c s
  refine ⟨y, x, y.finish x, hexec, rfl, hstart, fun hlo hhi => ?_, fun hrise => ⟨?_, finish_sent_unrouted hrise, ?_⟩⟩
  · rw [finish_quiet (not_not.mpr ⟨hlo, hhi⟩), tracked_sent]
  · cases hroute : (y.finish x).rdb R.EVT_ROUTE 0 0 with
    | false =>
      rw [finish_sent_unrouted hrise hroute]
      exact List.mem_cons_self ..
    | true => exact finish_irq_routed hrise hroute
  · exact finish_message hrise

/-- Settles O56: a rise that is routed is signalled on its vector, and there the message is held or lost. -/
theorem messagesThatMayNotLeave : Obligations.MessagesThatMayNotLeave := by
  unfold Obligations.MessagesThatMayNotLeave
  intro c s
  obtain ⟨y, x, hexec, hstart⟩ := exec_eq_done_lastStart c s
  exact ⟨y, x, y.finish x, hexec, rfl, hstart, fun hrise hroute =>
    ⟨finish_no_message hrise hroute, finish_holds_message hrise hroute⟩⟩

/-- Settles O54: a step is its front command by definition, and with none waiting it is `State.idleSclk`. -/
theorem stepRunsTheFrontCommand : Obligations.StepRunsTheFrontCommand := by
  unfold Obligations.StepRunsTheFrontCommand
  refine ⟨fun c cs s => rfl, fun s hidle => ?_⟩
  have hstep : step s = done s s.idleSclk := by rw [step, hidle]
  refine ⟨fun hup => ?_, fun hdown => ?_⟩
  · rw [hstep, State.idleSclk, if_pos hup]
  · rw [hstep, State.idleSclk, if_neg (ne_true_of_eq_false hdown)]

end Sys2Proof.Machine

/-! PROOFS. One access of an RCLK: who is served, what is judged, the records of rejections, reads that are refused (spec/03 R51 to
R58, R69 to R75). -/

namespace Sys2Proof.Machine

-- The register tables and the header (R51, R57).

theorem findIn_below {off : Nat} : ∀ {rs : List Reg}, (∀ r ∈ rs, off < r.off) → findIn rs off = none
  | [], _ => rfl
  | r :: rs, h => by
    have hr : r.index? off = none := if_neg fun hin => absurd hin.1 (Nat.not_le.mpr (h r (List.mem_cons_self ..)))
    rw [findIn, hr]
    exact findIn_below fun q hq => h q (List.mem_cons_of_mem _ hq)

theorem findInTable_below {page off : Nat} : ∀ {t : List (Nat × Nat × List Reg)}, (∀ e ∈ t, ∀ r ∈ e.2.2, off < r.off) →
    findInTable t page off = none
  | [], _ => rfl
  | e :: t, h => by
    rw [findInTable, findIn_below (h e (List.mem_cons_self ..)), findInTable_below fun e he => h e (List.mem_cons_of_mem _ he)]
    exact ite_self _

theorem regTable_beyond_header : ∀ e ∈ regTable, ∀ r ∈ e.2.2, 0x100 ≤ r.off := by decide

/-- No register table lists an offset of the header. -/
theorem findReg_header {page off : Nat} (h : off < 0x100) : findReg page off = none :=
  findInTable_below fun e he r hr => h.trans_le (regTable_beyond_header e he r hr)

/-- The page that a table lists a register for. -/
theorem findInTable_page {page off : Nat} {x : Reg × Nat} : ∀ {t : List (Nat × Nat × List Reg)},
    findInTable t page off = some x → ∃ e ∈ t, e.1 ≤ page ∧ page < e.1 + e.2.1
  | [], h => absurd h (by simp [findInTable])
  | e :: t, h => by
    by_cases hin : e.1 ≤ page ∧ page < e.1 + e.2.1
    · exact ⟨e, List.mem_cons_self .., hin⟩
    · rw [findInTable, if_neg hin] at h
      obtain ⟨e', he', hpage⟩ := findInTable_page h
      exact ⟨e', List.mem_cons_of_mem _ he', hpage⟩

theorem regTable_allocated : ∀ e ∈ regTable, ∀ i < e.2.1, (pageInfo (e.1 + i)).isSome = true := by decide

/-- A page with a register is allocated. -/
theorem pageInfo_of_findReg {page off : Nat} {x : Reg × Nat} (h : findReg page off = some x) : (pageInfo page).isSome = true := by
  obtain ⟨e, he, hlo, hhi⟩ := findInTable_page h
  have halloc := regTable_allocated e he (page - e.1) (by omega)
  rwa [Nat.add_sub_cancel' hlo] at halloc

/-- A header register other than `PG_EVT` reads the same when a command has ended. -/
theorem finish_hdr_ne {s0 s1 : State} {page off : Nat} (ho : off < 4096) (h : off ≠ hEvt) :
    (s0.finish s1).hdr page off = s1.hdr page off :=
  finish_getReg_ne fun he => h (by rw [← regKey_mod (a := 0) (page := page) (bank := 0) ho, he]; decide)

@[simp] theorem hdr_setHdr_self (s : State) (page off : Nat) (v : Word) : (s.setHdr page off v).hdr page off = v :=
  getReg_setReg_self s _ v

/-- A header register at another offset than the one written. -/
theorem hdr_setHdr_ne {s : State} {page off page' off' : Nat} {v : Word} (ho : off < 4096) (ho' : off' < 4096) (h : off' ≠ off) :
    (s.setHdr page off v).hdr page' off' = s.hdr page' off' :=
  getReg_setReg_ne fun he => h (by rw [← regKey_mod ho', he, regKey_mod ho])

theorem hdr_wr {s : State} {r : Reg} {u k page off : Nat} {v : Word} (hr : r.InPage k) (ho : off < 0x100) :
    (s.wr r u v k).hdr page off = s.hdr page off :=
  getReg_setReg_ne (Reg.key_ne_hdr hr ho).symm

-- One access of an RCLK (R53, R69 to R73).

theorem soleWrite_self {w : Access} (h : w.size = 8) : soleWrite w.agent w.page w.off w.value = w := by
  obtain ⟨a, p, o, size, v⟩ := w
  subst h
  simp [soleWrite]

/-- The host finds no earlier write of its own waiting (R76, R77). -/
abbrev State.NoneEarlier (s : State) (a : Agent) : Prop := a ≠ .host ∨ s.fab.posted = []

/-- What `State.accepts` says of a whole write. -/
theorem accepts_iff {s : State} {w : Access} (h : w.size = 8) : s.accepts w.agent w.page w.off w.value = true
    ↔ s.served w.agent w.page = true ∧ s.codeAmong [] w = none ∧ s.NoneEarlier w.agent := by
  let u := soleWrite w.agent w.page w.off w.value
  have hu : u = w := soleWrite_self h
  show (s.served w.agent u.page && (s.codeAmong [] u).isNone && (w.agent != .host || s.fab.posted.isEmpty)) = true ↔ _
  rw [hu]
  simp only [Bool.and_eq_true, Bool.or_eq_true, Option.isNone_iff_eq_none, List.isEmpty_iff, bne_iff_ne, and_assoc]

theorem writeAll_sole {s : State} {w : Access} (h : s.NoneEarlier w.agent) : s.writeAll [w] = s.writeNow [w] := by
  rcases h with hne | hempty
  · have hnone : [w].find? (fun w => w.agent = .host) = none := by simp [hne]
    rw [State.writeAll, hnone]
    cases s.fab.posted <;> rfl
  · rw [State.writeAll, hempty]

theorem portWrites_served {s : State} {w : Access} (h : s.served w.agent w.page = true) : s.portWrites [w] = [w] := by
  obtain ⟨a, p, o, size, v⟩ := w
  cases a <;> simp [State.portWrites, show s.served _ p = true from h]

theorem portWrites_unserved {s : State} {w : Access} (h : s.served w.agent w.page = false) : s.portWrites [w] = [] := by
  obtain ⟨a, p, o, size, v⟩ := w
  cases a <;> simp [State.portWrites, show s.served _ p = false from h]

/-- A write of an agent that is not served does nothing. -/
theorem writeNow_unserved {s : State} {w : Access} (h : s.served w.agent w.page = false) : s.writeNow [w] = s := by
  rw [State.writeNow, portWrites_unserved h]
  rfl

/-- A write that every check passes has its effect, and where it changes the firewall's rules the generation steps on (R364). -/
theorem writeNow_accepted {s : State} {w : Access} (hserved : s.served w.agent w.page = true) (hcode : s.codeAmong [] w = none) :
    s.writeNow [w] = if isFwChange w then (s.writePut w).fwChange else s.writePut w := by
  have hjudge : s.judge [] [w] = [(w, none)] := by simp only [State.judge, List.nil_append, hcode]
  rw [State.writeNow, portWrites_served hserved, hjudge]
  cases hclear : clearsOnly w <;> simp [hclear, State.writeOne, State.recordRejects, lowestAgent]

/-- A write that a check refuses leaves its record, and drops what the agent holds where a group's head is refused. -/
theorem writeNow_refused {s : State} {w : Access} {c : Code} (hserved : s.served w.agent w.page = true)
    (hcode : s.codeAmong [] w = some c) : s.writeNow [w] = (s.afterReject s w c).recordRejects [s.rejectOf w c] := by
  have hjudge : s.judge [] [w] = [(w, some c)] := by simp only [State.judge, List.nil_append, hcode]
  rw [State.writeNow, portWrites_served hserved, hjudge]
  cases hclear : clearsOnly w <;> simp [hclear, State.writeOne]

/-- The firewall's rules do not lie in the header. -/
theorem isFwChange_header {w : Access} (h : w.off.val < 0x100) : isFwChange w = false := by
  rw [isFwChange, findReg_header h]

/-- An accepted write of a header register. -/
theorem writeNow_header {s : State} {w : Access} (hserved : s.served w.agent w.page = true) (hcode : s.codeAmong [] w = none)
    (ho : w.off.val < 0x100) : s.writeNow [w] = s.hdrPut w.agent w.page w.off w.value := by
  rw [writeNow_accepted hserved hcode, isFwChange_header ho, if_neg Bool.false_ne_true, State.writePut]
  exact if_pos ho

theorem registerWrite_header {s : State} {w : Access} (hsize : w.size = 8) (ho : w.off.val < 0x100)
    (h : s.accepts w.agent w.page w.off w.value = true) :
    exec (.registerWrite [w]) s = done s (s.hdrPut w.agent w.page w.off w.value) := by
  obtain ⟨hserved, hcode, hhost⟩ := (accepts_iff hsize).mp h
  exact congrArg (done s) ((writeAll_sole hhost).trans (writeNow_header hserved hcode ho))

/-- No reason of a list that gives no code holds. -/
theorem firstCode_eq_none : ∀ {rs : List Reason}, firstCode rs = none ↔ ∀ x ∈ rs, x.1 = false
  | [] => by simp [firstCode]
  | (b, c) :: rs => by
    have ih := firstCode_eq_none (rs := rs)
    rw [firstCode]
    cases hrs : firstCode rs with
    | none =>
      simp only [List.forall_mem_cons, iff_true_intro (ih.mp hrs), and_true]
      cases b <;> simp
    | some d =>
      have hsome : ¬∀ x ∈ rs, x.1 = false := fun hall => by simp [ih.mpr hall] at hrs
      simp only [List.forall_mem_cons, hsome, and_false, iff_false]
      split <;> exact Option.some_ne_none _

/-- The code that a list of reasons gives is that of one of them that holds. -/
theorem firstCode_mem {c : Code} : ∀ {rs : List Reason}, firstCode rs = some c → (true, c) ∈ rs
  | [], h => absurd h (by simp [firstCode])
  | (b, d) :: rs, h => by
    rw [firstCode] at h
    cases hrs : firstCode rs with
    | none =>
      cases b <;> simp [hrs] at h
      simp [h]
    | some e =>
      have ih := firstCode_mem hrs
      cases b
      · simp [hrs] at h
        exact List.mem_cons_of_mem _ (h ▸ ih)
      · simp only [hrs, true_and] at h
        split at h
        · rw [← Option.some.inj h]
          exact List.mem_cons_self ..
        · exact List.mem_cons_of_mem _ (Option.some.inj h ▸ ih)

/-- The code of a whole write of an allocated page's header. -/
theorem writeCode_header {s : State} {w : Access} (hsize : w.size = 8) (ho : w.off.val < 0x100) (halign : w.off.val % 8 = 0)
    (hinfo : (pageInfo w.page).isSome = true) :
    s.writeCode w = firstCode (s.hdrReasons w.agent w.page w.off w.value) := by
  have hfits : ¬(w.size ≠ 8 ∨ w.off.val % 8 ≠ 0) := by simp [hsize, halign]
  have hknown : ¬(pageInfo w.page).isNone = true := by simpa [Option.isSome_iff_ne_none] using hinfo
  unfold State.writeCode
  dsimp only
  rw [if_neg hfits, if_neg hknown, if_pos ho]

/-- A whole write that no check refuses is of an allocated page. -/
theorem pageInfo_of_writeCode {s : State} {w : Access} (h : s.writeCode w = none) :
    w.size = 8 ∧ w.off.val % 8 = 0 ∧ (pageInfo w.page).isSome = true := by
  unfold State.writeCode at h
  dsimp only at h
  split at h
  · exact absurd h (Option.some_ne_none _)
  · rename_i hfits
    split at h
    · exact absurd h (Option.some_ne_none _)
    · rename_i hinfo
      simp only [not_or, not_not] at hfits
      exact ⟨hfits.1, hfits.2, by simpa [Option.isSome_iff_ne_none] using hinfo⟩

/-- Of one write alone the code is that of its own checks, and of its group where it is a head. -/
theorem writeCode_of_codeAmong {s : State} {w : Access} (h : s.codeAmong [] w = none) : s.writeCode w = none := by
  cases hcode : s.writeCode w with
  | none => rfl
  | some c => exact absurd h (by simp [State.codeAmong, hcode])

theorem codeAmong_of_writeCode {s : State} {w : Access} {c : Code} (h : s.writeCode w = some c) : s.codeAmong [] w = some c := by
  simp [State.codeAmong, h]

theorem codeAmong_of_headCode {s : State} {w : Access} {c : Code} (hhead : isHead w = true) (h : s.writeCode w = none)
    (hc : s.headCode w = some c) : s.codeAmong [] w = some c := by
  simp [State.codeAmong, h, hhead, hc]

-- The records of rejections (R58, R71, R81).

/-- A rejection whose fields fit the record. -/
abbrev Reject.Fits (j : Reject) : Prop := j.bank < 256 ∧ j.agent < 256 ∧ j.page < 4096 ∧ j.off < 4096

theorem Code.num_lt (c : Code) : c.num < 256 := by cases c <;> decide

theorem Agent.code_lt (a : Agent) : a.code < 256 := by cases a <;> decide

theorem bankShown_lt (s : State) (a : Agent) (page off : Nat) : s.bankShown a page off < 256 := by
  unfold State.bankShown
  split
  · split
    · decide
    · exact bankOf_lt ..
  · decide

theorem rejectOf_fits (s : State) (w : Access) (c : Code) : (s.rejectOf w c).Fits :=
  ⟨bankShown_lt .., Agent.code_lt _, Nat.lt_trans w.page.isLt (by decide), w.off.isLt⟩

/-- The fields of a reject register after one rejection. -/
theorem rejectWord_fields (old : Word) {j : Reject} (dev : Bool) (h : j.Fits) :
    fld (rejectWord old 1 j dev) 47 40 = j.code.num ∧ fld (rejectWord old 1 j dev) 31 24 = j.agent
    ∧ fld (rejectWord old 1 j dev) 23 12 = (if dev then j.page else 0) ∧ fld (rejectWord old 1 j dev) 11 0 = j.off
    ∧ fld (rejectWord old 1 j dev) 63 48 = min (fld old 63 48 + 1) 65535 := by
  obtain ⟨hbank, hagent, hpage, hoff⟩ := h
  have hcode := j.code.num_lt
  have hplace : (if dev then at_ 12 j.page else 0) = (if dev then j.page else 0) * 2 ^ 12 := by cases dev <;> simp [at_]
  have hpage' : (if dev then j.page else 0) < 4096 := by split <;> omega
  unfold rejectWord
  rw [hplace]
  generalize (if dev then j.page else 0) = place at hpage'
  generalize fld old 63 48 = count
  rw [show satAdd 16 count 1 = min (count + 1) 65535 by simp [satAdd]]
  generalize hc : min (count + 1) 65535 = c
  have hsum : (word (at_ 48 c + at_ 40 j.code.num + at_ 32 j.bank + at_ 24 j.agent + place * 2 ^ 12 + j.off)).toNat
      = c * 2 ^ 48 + j.code.num * 2 ^ 40 + j.bank * 2 ^ 32 + j.agent * 2 ^ 24 + place * 2 ^ 12 + j.off := by
    simp only [word, at_, BitVec.toNat_ofNat]
    exact Nat.mod_eq_of_lt (by omega)
  simp only [fld, hsum]
  refine ⟨?_, ?_, ?_, ?_, ?_⟩ <;> omega

/-- What one rejection leaves in the records of an allocated page and of DEV, when the command has ended. -/
theorem recordRejects_shows (s0 u : State) {j : Reject} (hj : j.Fits) (hinfo : (pageInfo j.page).isSome = true) :
    (fld ((s0.finish (u.recordRejects [j])).rd R.LAST_REJECT) 47 40 = j.code.num
      ∧ fld ((s0.finish (u.recordRejects [j])).rd R.LAST_REJECT) 31 24 = j.agent
      ∧ fld ((s0.finish (u.recordRejects [j])).rd R.LAST_REJECT) 23 12 = j.page
      ∧ fld ((s0.finish (u.recordRejects [j])).rd R.LAST_REJECT) 11 0 = j.off)
    ∧ (fld ((s0.finish (u.recordRejects [j])).hdr j.page hReject) 47 40 = j.code.num
      ∧ fld ((s0.finish (u.recordRejects [j])).hdr j.page hReject) 31 24 = j.agent
      ∧ fld ((s0.finish (u.recordRejects [j])).hdr j.page hReject) 11 0 = j.off
      ∧ fld ((s0.finish (u.recordRejects [j])).hdr j.page hReject) 63 48 = min (fld (u.hdr j.page hReject) 63 48 + 1) 65535)
    ∧ bit ((s0.finish (u.recordRejects [j])).hdr 0 hEvt) 0 = true := by
  have hlast : (s0.finish (u.recordRejects [j])).rd R.LAST_REJECT = rejectWord ((u.onPage j).rd R.LAST_REJECT) 1 j true := by
    rw [finish_rd (by decide), recordRejects_sole hinfo, rd_raise (by decide), rd_wr_self]
  have hpage : (s0.finish (u.recordRejects [j])).hdr j.page hReject = rejectWord (u.hdr j.page hReject) 1 j false := by
    rw [finish_hdr_ne (by decide) (by decide), recordRejects_sole hinfo, State.raise,
      hdr_setHdr_ne (by decide) (by decide) (by decide), hdr_wr (by decide) (by decide), State.onPage, hdr_setHdr_self]
  obtain ⟨lcode, lagent, lpage, loff, -⟩ := rejectWord_fields ((u.onPage j).rd R.LAST_REJECT) true hj
  obtain ⟨pcode, pagent, -, poff, pcount⟩ := rejectWord_fields (u.hdr j.page hReject) false hj
  rw [hlast, hpage]
  refine ⟨⟨lcode, lagent, lpage, loff⟩, ⟨pcode, pagent, poff, pcount⟩, ?_⟩
  rw [finish_hdr (by decide) (by decide) (by decide), recordRejects_sole hinfo]
  exact hdr_raise (by decide)

/-- A rejection on a page that is not allocated is recorded in DEV alone (R52). -/
theorem recordRejects_unallocated {s : State} {j : Reject} (h : (pageInfo j.page).isNone = true) :
    s.recordRejects [j] = (s.wr R.LAST_REJECT 0 (rejectWord (s.rd R.LAST_REJECT) 1 j true)).raise 0 0 := by
  have hpage : s.recordOnPage j.page [j] = s := by
    simp [State.recordOnPage, lowestAgent, Option.isNone_iff_eq_none.mp h]
  have hpages : [j.page].eraseDups = [j.page] := rfl
  simp only [State.recordRejects, lowestAgent, List.map_cons, List.map_nil, hpages, List.foldl_cons, List.foldl_nil, hpage,
    List.length_cons, List.length_nil]

/-- A refused write drops at most what the agent holds. -/
theorem afterReject_only (s : State) (w : Access) (c : Code) : Only noRegs [.fab] s (s.afterReject s w c) := by
  unfold State.afterReject
  split
  · split
    · exact (Only.refl _ _ s).set_fab _ (by simp)
    · exact Only.refl _ _ s
  · exact Only.refl _ _ s

theorem afterReject_of_writeCode {s : State} {w : Access} {c d : Code} (h : s.writeCode w = some d) : s.afterReject s w c = s :=
  if_neg (by simp [h])

-- Reads that the fabric refuses (R54, R75).

theorem hostTurn_still {s : State} {a : Agent} (h : s.NoneEarlier a) : s.hostTurn a = s := by
  unfold State.hostTurn
  split
  · rename_i hhost
    exact drainPosted_nil (h.resolve_left (not_not.mpr hhost))
  · rfl

theorem refusedRead_still {s : State} {r : Access} (h : s.NoneEarlier r.agent) : exec (.refusedRead r) s = done s (s.read r).2 := by
  show done (s.hostTurn r.agent) ((s.hostTurn r.agent).read r).2 = _
  rw [hostTurn_still h]

theorem read_unserved {s : State} {r : Access} (h : s.served r.agent r.page = false) : (s.read r).2 = s := by
  rw [State.read, if_neg (by simp [h])]

/-- A read that is refused leaves its record. -/
theorem read_refused {s : State} {r : Access} {w : Word} {c : Code} (hserved : s.served r.agent r.page = true)
    (h : s.readFor r = (w, some c, s)) : (s.read r).2 = s.recordRejects [s.rejectOf r c] := by
  rw [State.read, if_pos hserved, h]

theorem readFor_misfit {s : State} {r : Access} (h : readFits r.off r.size = false) : s.readFor r = (0, some .align, s) := by
  unfold State.readFor
  dsimp only
  rw [if_neg (by simp [h])]

/-- A register of a page that the secure world owns is not read by the normal world (R75). -/
theorem readWord_secure {s : State} {a : Agent} {page off : Nat} (hinfo : (pageInfo page).isSome = true) (ho : 0x100 ≤ off)
    (hfind : (findReg page off).isSome = true) (howned : s.secureOwned page = true) (hworld : s.secureWorld a = false) :
    s.readWord a page off = (0, some .owner, s) := by
  obtain ⟨p, hp⟩ := Option.isSome_iff_exists.mp hinfo
  obtain ⟨⟨r, k⟩, hr⟩ := Option.isSome_iff_exists.mp hfind
  simp [State.readWord, hp, Nat.not_lt.mpr ho, hr, howned, hworld]

theorem readFor_secure {s : State} {r : Access} (hfits : readFits r.off r.size = true) (hinfo : (pageInfo r.page).isSome = true)
    (ho : 0x100 ≤ r.off.val / 8 * 8) (hfind : (findReg r.page (r.off.val / 8 * 8)).isSome = true)
    (howned : s.secureOwned r.page = true) (hworld : s.secureWorld r.agent = false) :
    ∃ w, s.readFor r = (w, some .owner, s) := by
  unfold State.readFor
  dsimp only
  rw [if_pos hfits, readWord_secure hinfo ho hfind howned hworld]
  exact ⟨_, rfl⟩

end Sys2Proof.Machine

/-! PROOFS. A refused access alone, two writes of one register, `SCRATCH`, and the settlement of
`Obligations.RegisterWritesPassTheirChecks`. -/

namespace Sys2Proof.Machine

/-- One write alone that a check refuses. -/
theorem registerWrite_refused {s : State} {w : Access} {c : Code} (hserved : s.served w.agent w.page = true)
    (hhost : s.NoneEarlier w.agent) (hcode : s.codeAmong [] w = some c) :
    exec (.registerWrite [w]) s = done s ((s.afterReject s w c).recordRejects [s.rejectOf w c]) :=
  congrArg (done s) ((writeAll_sole hhost).trans (writeNow_refused hserved hcode))

/-- A write of a header register that is put in place as it is. -/
theorem setHdr_gives {s : State} {c : Instr} {page off : Nat} {v : Word} (ho : off < 4096) (hne : page ≠ 0x5D ∨ off ≠ hEvt)
    (hp : page < 128) (h : exec c s = done s (s.setHdr page off v)) :
    Gives c s fun t => t.hdr page off = v ∧ Frame (regsIn [regKey 0 page 0 off]) [] s t := by
  refine Gives.done h ⟨?_, ((Only.refl _ _ s).setHdr _ (.head _)).frame⟩
  have hread : (s.finish (s.setHdr page off v)).hdr page off = (s.setHdr page off v).hdr page off := by
    rcases hne with hpage | hoff
    · exact finish_hdr hp ho hpage
    · exact finish_hdr_ne ho hoff
  rw [hread, hdr_setHdr_self]

/-- A bank select that passes every check fits the field that the fabric reads (R66). -/
theorem bank_fits {s : State} {w : Access} (ho : w.off.val = hBank) (h : s.codeAmong [] w = none) :
    fld w.value 7 0 = w.value.toNat := by
  have hcode := writeCode_of_codeAmong h
  obtain ⟨hsize, halign, hinfo⟩ := pageInfo_of_writeCode hcode
  rw [writeCode_header hsize (by rw [ho]; decide) halign hinfo, firstCode_eq_none] at hcode
  have hhigh : fld w.value 63 8 = 0 := by
    have := hcode (fld w.value 63 8 != 0, .resv) (by simp [State.hdrReasons, ho, hBank, hCtrl, hReject, hEvt, hEvtEn, hOwner, hPerturb])
    simpa using this
  simp only [fld] at hhigh ⊢
  omega

/-- What a refused write or read alone leaves. -/
theorem refused_gives {s u : State} {c : Instr} {w : Access} {code : Code} {ps : List Part} (hu : Only noRegs ps s u)
    (hinfo : (pageInfo w.page).isSome = true) (h : exec c s = done s (u.recordRejects [s.rejectOf w code])) :
    Gives c s fun t => (fld (t.rd R.LAST_REJECT) 47 40 = code.num ∧ fld (t.rd R.LAST_REJECT) 31 24 = w.agent.code
      ∧ fld (t.rd R.LAST_REJECT) 23 12 = w.page.val ∧ fld (t.rd R.LAST_REJECT) 11 0 = w.off.val)
      ∧ (fld (t.hdr w.page hReject) 47 40 = code.num ∧ fld (t.hdr w.page hReject) 31 24 = w.agent.code
        ∧ fld (t.hdr w.page hReject) 11 0 = w.off.val
        ∧ fld (t.hdr w.page hReject) 63 48 = min (fld (s.hdr w.page hReject) 63 48 + 1) 65535)
      ∧ bit (t.hdr 0 hEvt) 0 = true ∧ t.fab = u.fab ∧ Frame (regsIn (rejectKeys w.page)) ps s t := by
  have hrec := recordRejects_sole_only (s := u) (j := s.rejectOf w code) hinfo
  obtain ⟨hlast, hpage, hevt⟩ := recordRejects_shows s u (rejectOf_fits s w code) hinfo
  have hkept : u.hdr w.page hReject = s.hdr w.page hReject := hu.getReg id
  refine Gives.done h ⟨hlast, hkept ▸ hpage, hevt, ?_, ?_⟩
  · rw [finish_fab]
    exact hrec.same (p := .fab) (by simp)
  · exact ((hu.mono (fun _ h => h.elim) fun _ h => h).trans (hrec.mono (fun _ h => h) (by simp))).frame

-- Two writes of one register in an RCLK (R72).

theorem portWrites_pair {s : State} {x y : Access} (hlt : x.agent.code < y.agent.code) (hx : s.served x.agent x.page = true)
    (hy : s.served y.agent y.page = true) : s.portWrites [x, y] = [x, y] := by
  obtain ⟨a, p, o, size, v⟩ := x
  obtain ⟨b, q, o', size', v'⟩ := y
  replace hx : s.served a p = true := hx
  replace hy : s.served b q = true := hy
  replace hlt : a.code < b.code := hlt
  cases a <;> cases b <;> simp [Agent.code] at hlt <;> simp [State.portWrites, hx, hy]

/-- Writes of one shared header register meet. -/
theorem meets_header {s : State} {x y : Access} (hpage : x.page = y.page) (hoff : x.off = y.off) (ho : x.off.val < hBank)
    (halign : x.off.val % 8 = 0) (hinfo : (pageInfo x.page).isSome = true) : s.meets x y = true := by
  have hmul : x.off.val / 8 * 8 = x.off.val := Nat.div_mul_cancel (Nat.dvd_of_mod_eq_zero halign)
  have hlow : x.off.val < 0x100 := ho.trans (by decide)
  simp [State.meets, ← hpage, ← hoff, hmul, hlow, ho, hinfo]

/-- Of two agents' writes of a register that meet, the lower agent's has its effect and the other is recorded. -/
theorem writeNow_conflict {s : State} {x y : Access} (hlt : x.agent.code < y.agent.code) (hx : s.served x.agent x.page = true)
    (hy : s.served y.agent y.page = true) (hcode : s.codeAmong [] x = none) (hmeets : s.meets x y = true)
    (hclear : clearsOnly x = false ∧ clearsOnly y = false) (hfw : isFwChange x = false) :
    s.writeNow [x, y] = (s.writePut x).recordRejects [s.rejectOf y .conflict] := by
  have hsecond : s.codeAmong [(x, none)] y = some .conflict := by simp [State.codeAmong, hmeets]
  have hjudge : s.judge [] [x, y] = [(x, none), (y, some .conflict)] := by
    simp only [State.judge, List.nil_append, hcode, List.cons_append, hsecond]
  rw [State.writeNow, portWrites_pair hlt hx hy, hjudge]
  simp [hclear, State.writeOne, State.afterReject, hfw]

/-- `PG_EVT_EN` written by two agents at once. -/
theorem evtEn_conflict {s : State} {x y : Access} (hsize : x.size = 8) (ho : x.off.val = hEvtEn) (hoff : y.off = x.off)
    (hpage : y.page = x.page) (hlt : x.agent.code < y.agent.code) (hposted : s.fab.posted = [])
    (h : s.accepts x.agent x.page x.off x.value = true) (hy : s.served y.agent y.page = true) :
    exec (.registerWrite [x, y]) s
      = done s ((s.setHdr x.page hEvtEn x.value).recordRejects [s.rejectOf y .conflict]) := by
  obtain ⟨hx, hcode, -⟩ := (accepts_iff hsize).mp h
  obtain ⟨-, halign, hinfo⟩ := pageInfo_of_writeCode (writeCode_of_codeAmong hcode)
  have hlow : x.off.val < 0x100 := by rw [ho]; decide
  have hclear (w : Access) (hw : w.off = x.off) : clearsOnly w = false := by
    rw [clearsOnly, if_pos (by rw [hw]; exact hlow), hw, ho]
    decide
  have hput : s.writePut x = s.setHdr x.page hEvtEn x.value := by
    rw [State.writePut]
    dsimp only
    rw [if_pos hlow, ho]
    rfl
  have hall : s.writeAll [x, y] = s.writeNow [x, y] := by rw [State.writeAll, hposted]
  have hmeets := meets_header (s := s) hpage.symm hoff.symm (by rw [ho]; decide) halign hinfo
  refine congrArg (done s) (hall.trans ?_)
  rw [writeNow_conflict hlt hx hy hcode hmeets ⟨hclear x rfl, hclear y hoff⟩ (isFwChange_header hlow), hput]

-- `SCRATCH` (R81).

theorem scratch_alone : R.SCRATCH.Alone 0 0 := by decide +kernel

theorem scratch_bank (n : Nat) : banksOf R.SCRATCH n = [0] := if_pos rfl

theorem scratch_put (s : State) (a : Agent) (v : Word) : s.put a R.SCRATCH 0 0 v = s.wr R.SCRATCH 0 v := rfl

/-- `SCRATCH` holds what is written. -/
theorem scratch_of_accepts {s : State} {w : Access} (hsize : w.size = 8) (hpage : w.page = 0) (ho : w.off.val = R.SCRATCH.off)
    (h : s.accepts w.agent w.page w.off w.value = true) : exec (.registerWrite [w]) s = done s (s.wr R.SCRATCH 0 w.value) := by
  have hwrite : s.writeReg w.agent 0 R.SCRATCH w.value = s.wr R.SCRATCH 0 w.value :=
    (writeReg_of_accepts scratch_alone (scratch_bank _) (by rw [hpage, ho] at h; exact h)).trans (scratch_put s w.agent w.value)
  have hself := soleWrite_self hsize
  rw [hpage, ho] at hself
  refine congrArg (done s) (Eq.trans ?_ hwrite)
  rw [← hself]
  rfl

/-- Settles O7: an accepted write of the header by `registerWrite_header`, `SCRATCH` by its effect, a refused write or read by the
record that it leaves (`refused_gives`), two writes of one register by `evtEn_conflict`. -/
theorem registerWritesPassTheirChecks : Obligations.RegisterWritesPassTheirChecks := by
  unfold Obligations.RegisterWritesPassTheirChecks
  refine ⟨?evtEn, ?evt, ?reject, ?bank, ?scratch, ?refused, ?unallocated, ?unserved, ?conflict, ?misfit, ?secure, ?unread⟩
  case evtEn =>
    intro s w hsize ho h
    have hexec := registerWrite_header hsize (by rw [ho]; decide) h
    rw [ho] at hexec
    exact setHdr_gives (by decide) (.inr (by decide)) w.page.isLt hexec
  case evt =>
    intro s w hsize ho hpage h
    have hexec := registerWrite_header hsize (by rw [ho]; decide) h
    rw [ho] at hexec
    exact setHdr_gives (by decide) (.inl fun he => hpage (Fin.ext he)) w.page.isLt hexec
  case reject =>
    intro s w hsize ho h
    have hexec := registerWrite_header hsize (by rw [ho]; decide) h
    rw [ho] at hexec
    exact setHdr_gives (by decide) (.inr (by decide)) w.page.isLt hexec
  case bank =>
    intro s w hsize ho h
    obtain ⟨-, hcode, -⟩ := (accepts_iff hsize).mp h
    have hexec := registerWrite_header hsize (by rw [ho]; decide) h
    rw [ho] at hexec
    have hkey : regKey (1 + w.agent.code) w.page 0 hBank ≠ agreeKey := fun he =>
      absurd (by rw [← regKey_mod (by decide : hBank < 4096), he]; decide : hBank = hEvt) (by decide)
    refine Gives.done hexec ⟨?_, ((Only.refl _ _ s).setReg _ (.head _)).frame⟩
    rw [State.bankOf, finish_getReg_ne hkey]
    exact (congrArg (fld · 7 0) (getReg_setReg_self s _ w.value)).trans (bank_fits ho hcode)
  case scratch =>
    intro s w hsize hpage ho h
    refine Gives.done (scratch_of_accepts hsize hpage ho h) ⟨?_, ((Only.refl _ _ s).wr _ (.head _)).frame⟩
    rw [finish_rd (by decide), rd_wr_self]
  case refused =>
    intro s w c hserved hhost hcode hinfo
    obtain ⟨t, hexec, ⟨h1, h2, h3, h4⟩, ⟨h5, -, h6, h7⟩, hevt, hfab, hframe⟩ :=
      refused_gives (afterReject_only s w c) hinfo (registerWrite_refused hserved hhost hcode)
    refine ⟨t, hexec, h1, h2, h3, h4, h5, h6, h7, hevt, fun hown => ?_, hframe⟩
    rw [hfab, afterReject_of_writeCode hown]
  case unallocated =>
    intro s w hserved hhost hsize halign hinfo
    have hcode : s.writeCode w = some .access := by
      unfold State.writeCode
      dsimp only
      rw [if_neg (by simp [hsize, halign]), if_pos hinfo]
    have hexec := registerWrite_refused hserved hhost (codeAmong_of_writeCode hcode)
    rw [afterReject_of_writeCode hcode, recordRejects_unallocated hinfo] at hexec
    obtain ⟨hcode', -, -, -, hcount⟩ := rejectWord_fields (s.rd R.LAST_REJECT) true (rejectOf_fits s w .access)
    have hlast (v : Word) : (s.finish ((s.wr R.LAST_REJECT 0 v).raise 0 0)).rd R.LAST_REJECT = v := by
      rw [finish_rd (by decide), rd_raise (by decide), rd_wr_self]
    refine Gives.done hexec ?_
    rw [hlast, finish_hdr (by decide) (by decide) (by decide)]
    exact ⟨hcode', hcount, hdr_raise (by decide),
      (Only.raise (.tail _ (.head _)) ((Only.refl _ _ s).wr _ (.head _))).frame⟩
  case unserved =>
    intro s w hserved hhost
    exact stays_gives (congrArg (done s) ((writeAll_sole hhost).trans (writeNow_unserved hserved)))
  case conflict =>
    intro s x y hsize _ ho hoff hpage hlt hposted h hy
    have hinfo : (pageInfo y.page).isSome = true := by
      obtain ⟨-, hcode, -⟩ := (accepts_iff hsize).mp h
      rw [hpage]
      exact (pageInfo_of_writeCode (writeCode_of_codeAmong hcode)).2.2
    have hfirst : Only (regsIn [regKey 0 x.page 0 hEvtEn]) [] s (s.setHdr x.page hEvtEn x.value) :=
      (Only.refl _ _ s).setHdr _ (.head _)
    have hrec := recordRejects_sole_only (s := s.setHdr x.page hEvtEn x.value) (j := s.rejectOf y .conflict) hinfo
    obtain ⟨-, ⟨hcode, hagent, -⟩, -⟩ :=
      recordRejects_shows s (s.setHdr x.page hEvtEn x.value) (rejectOf_fits s y .conflict) hinfo
    rw [show (s.rejectOf y .conflict).page = x.page.val from congrArg Fin.val hpage] at hcode hagent hrec
    have hnot : ¬regsIn (rejectKeys x.page) (regKey 0 x.page 0 hEvtEn) := by
      simp [regsIn, rejectKeys, regKey, Reg.key, hEvtEn, hReject, hEvt, R.LAST_REJECT]
      omega
    refine Gives.done (evtEn_conflict hsize ho hoff hpage hlt hposted h hy) ⟨?_, hcode, hagent, ?_⟩
    · rw [finish_hdr_ne (by decide) (by decide), State.hdr, hrec.getReg hnot]
      exact hdr_setHdr_self ..
    · exact ((hfirst.mono (fun k hk => by simp_all [regsIn]) fun _ h => h).trans
        (hrec.mono (fun k hk => List.mem_cons_of_mem _ hk) fun _ h => h)).frame
  case misfit =>
    intro s r hserved hhost hfits hinfo
    have hexec := (refusedRead_still hhost).trans (congrArg (done s) (read_refused hserved (readFor_misfit hfits)))
    obtain ⟨t, hexec, ⟨h1, -⟩, ⟨h2, -, -, h3⟩, hevt, -, hframe⟩ := refused_gives (Only.refl _ [] s) hinfo hexec
    exact ⟨t, hexec, h1, h2, h3, hevt, hframe⟩
  case secure =>
    intro s r hserved hhost hfits hinfo hfind ho howned hworld
    obtain ⟨w, hread⟩ := readFor_secure hfits hinfo (by omega) hfind howned hworld
    have hexec := (refusedRead_still hhost).trans (congrArg (done s) (read_refused hserved hread))
    obtain ⟨t, hexec, ⟨h1, -⟩, ⟨h2, -⟩, hevt, -, hframe⟩ := refused_gives (Only.refl _ [] s) hinfo hexec
    exact ⟨t, hexec, h1, h2, hevt, hframe⟩
  case unread =>
    intro s r hserved hhost
    exact stays_gives ((refusedRead_still hhost).trans (congrArg (done s) (read_unserved hserved)))

end Sys2Proof.Machine

/-! PROOFS. The time at which an outbound transaction is answered, and the refutation of `Obligations.TheEndpointServesTheHost`. -/

namespace Sys2Proof.Machine

/-- A transaction that has no response yet is answered at the time in progress (R360). -/
theorem respond_txn {s : State} {id : Nat} {x : Txn} (err poison : Bool) (data : List Byte) (hx : pget s.xbar.txns id = some x)
    (hresp : x.resp = none) : pget (s.respond id err poison data).xbar.txns id
      = some { x with resp := some (err, poison, data), respAt := s.time.total } := by
  rw [State.respond, hx]
  dsimp only
  rw [if_neg (by simp [hresp])]
  simp only [State.setTxn, pget_pset_self]

/-- A completion with data answers its request (R380). -/
theorem outboundCompletion_done {s : State} {id : Nat} (d : List Byte) (h : s.pcie.outbound.contains id = true) :
    exec (.pcieOutboundCompletion id .ok d) s = done s ((s.outboundDone id).respond id false false d) :=
  congrArg (done s) (if_pos h)

/-- What the answered request holds when the command has ended: its response, and when it came. -/
theorem outboundCompletion_txn {s t : State} {id : Nat} {d : List Byte} {x : Txn} (h : s.pcie.outbound.contains id = true)
    (hx : pget s.xbar.txns id = some x) (hresp : x.resp = none) (ht : exec (.pcieOutboundCompletion id .ok d) s = .next t) :
    pget t.xbar.txns id = some { x with resp := some (false, false, d), respAt := s.time.total } := by
  have hfinish := Host.Outcome.next.inj ((outboundCompletion_done d h).symm.trans ht)
  rw [← hfinish, finish_xbar]
  exact respond_txn (s := s.outboundDone id) false false d hx hresp

/-- A read of 8 bytes of host memory. -/
def hostRead : Txn :=
  { master := 3, secure := false, write := false, addr := 0x800000001000, len := 8, data := [], qos := 0, waited := 0, port := 5
    gen := none, left := 0, resp := none, origin := .outside }

/-- A machine that has counted one SCLK and waits for that read's completion. -/
def awaiting : State :=
  { pwr := { porN := true, coreUp := true }, time := { total := 1 }, pcie := { up := true, bme := true, outbound := [4] }
    xbar := { next := 5, txns := [(4, some hostRead)] } }

/-- Refutes O36: its clause on outbound completions has the request keep every field but its response, but a response notes the
time at which it comes (`Txn.respAt`), as the clause on the completion timeout says. In `awaiting` that is SCLK 1, where the
request held 0. -/
theorem not_theEndpointServesTheHost : ¬ Obligations.TheEndpointServesTheHost := by
  unfold Obligations.TheEndpointServesTheHost
  rintro ⟨-, -, -, -, -, -, -, -, -, -, -, -, -, hcompletion, -⟩
  have hout : awaiting.pcie.outbound.contains 4 = true := rfl
  have hx : pget awaiting.xbar.txns 4 = some hostRead := rfl
  obtain ⟨t, hexec, -, hkept, -⟩ := hcompletion awaiting 4 .ok (List.replicate 8 0) hostRead hout hx rfl
  have hnoted := outboundCompletion_txn hout hx rfl hexec
  have htime : (0 : Nat) = 1 := congrArg Txn.respAt (Option.some.inj (hkept.symm.trans hnoted))
  exact absurd htime (by decide)

end Sys2Proof.Machine

/-! PROOFS. The checks of a write do not look at the posted writes (R77); members of a group, captures and held words (R55, R56). -/

namespace Sys2Proof.Machine

-- A state with other writes in the host's buffer (R77): no check looks there.

/-- The state with its posted writes replaced. -/
def State.withPosted (s : State) (ws : List Access) : State := { s with fab := { s.fab with posted := ws } }

theorem meshReach_congr {s t : State} (h : ∀ w, t.meshGrow w = s.meshGrow w) : ∀ n w, t.meshReach n w = s.meshReach n w
  | 0, _ => rfl
  | n + 1, w => by rw [State.meshReach, State.meshReach, h, meshReach_congr h n]

theorem leader_withPosted (s : State) (ws : List Access) : (s.withPosted ws).leader = s.leader := by
  have hmask : (s.withPosted ws).partMask = s.partMask := by
    rw [State.partMask, meshReach_congr (s := s) (t := s.withPosted ws) fun _ => rfl]
    rfl
  rw [State.leader, hmask]
  rfl

theorem stepReasons_withPosted (s : State) (ws : List Access) (v : Word) : (s.withPosted ws).stepReasons v = s.stepReasons v := by
  rw [State.stepReasons, leader_withPosted]
  rfl

theorem tbGuard_withPosted (s : State) (ws : List Access) (r : Reg) (i : Nat) (v : Word) :
    (s.withPosted ws).tbGuard r i v = s.tbGuard r i v := by
  rw [State.tbGuard, stepReasons_withPosted]
  rfl

theorem pageGuard_withPosted (s : State) (ws : List Access) (a : Agent) (r : Reg) (u k : Nat) (v : Word) :
    (s.withPosted ws).pageGuard a r u k v = s.pageGuard a r u k v := by
  rw [State.pageGuard, tbGuard_withPosted]
  rfl

theorem reasons_withPosted (s : State) (ws : List Access) (a : Agent) (page : Nat) (r : Reg) (u k : Nat) (v : Word) :
    (s.withPosted ws).reasons a page r u k v = s.reasons a page r u k v := by
  rw [State.reasons, pageGuard_withPosted]
  rfl

theorem hdrReasons_withPosted (s : State) (ws : List Access) (a : Agent) (page off : Nat) (v : Word) :
    (s.withPosted ws).hdrReasons a page off v = s.hdrReasons a page off v := rfl

theorem writeCode_withPosted (s : State) (ws : List Access) (w : Access) : (s.withPosted ws).writeCode w = s.writeCode w := by
  simp only [State.writeCode, reasons_withPosted, hdrReasons_withPosted]
  rfl

theorem codeAmong_withPosted (s : State) (ws : List Access) (w : Access) :
    (s.withPosted ws).codeAmong [] w = s.codeAmong [] w := by
  simp only [State.codeAmong, List.any_nil, List.filter_nil, List.map_nil, List.sum_nil, writeCode_withPosted]
  rfl

/-- The oldest posted write is applied to the state without it. -/
theorem applyPosted_cons {s : State} {w : Access} {ws : List Access} (h : s.fab.posted = w :: ws) :
    s.applyPosted = (s.withPosted ws).writeNow [w] := by
  rw [State.applyPosted, h]
  rfl

theorem applyPosted_nil {s : State} (h : s.fab.posted = []) : s.applyPosted = s := by rw [State.applyPosted, h]

theorem withPosted_only (s : State) (ws : List Access) : Only noRegs [.fab] s (s.withPosted ws) :=
  (Only.refl _ _ s).set_fab _ (by simp)


-- Groups (R56).

theorem findIn_index {rs : List Reg} {r : Reg} {off k : Nat} (h : findIn rs off = some (r, k)) : r.index? off = some k := by
  induction rs with
  | nil => simp [findIn] at h
  | cons q rs ih =>
    rw [findIn] at h
    cases hq : q.index? off with
    | none => exact ih (by simpa [hq] using h)
    | some j =>
      simp only [hq, Option.some.injEq, Prod.mk.injEq] at h
      rw [← h.1, ← h.2, hq]

theorem findInTable_index {page off : Nat} {r : Reg} {k : Nat} : ∀ {t : List (Nat × Nat × List Reg)},
    findInTable t page off = some (r, k) → r.index? off = some k
  | [], h => absurd h (by simp [findInTable])
  | (p, n, rs) :: t, h => by
    rw [findInTable] at h
    split at h
    · split at h
      · rename_i x hx
        exact findIn_index (hx.trans h)
      · exact findInTable_index h
    · exact findInTable_index h

/-- Where a register that a page's table lists lies. -/
theorem findReg_offset {page off : Nat} {r : Reg} {k : Nat} (h : findReg page off = some (r, k)) :
    off = r.off + r.stride * k ∧ k < r.count := by
  have hindex := findInTable_index h
  unfold Reg.index? at hindex
  split at hindex
  · rename_i hin
    obtain ⟨hle, hmod, hlt⟩ := hin
    have hk := Option.some.inj hindex
    have hdiv := Nat.div_add_mod (off - r.off) r.stride
    rw [hmod, hk] at hdiv
    exact ⟨by omega, hk ▸ hlt⟩
  · exact absurd hindex.symm (Option.some_ne_none _)

/-- The entries that a fold puts at keys of their own. -/
theorem pget_foldl_pset {α : Type} [DecidableEq α] {key : Nat → Nat} (hkey : key.Injective) (f : Nat → Option α) (m : PMap α)
    (j : Nat) : ∀ n, pget ((List.range n).foldl (fun m i => pset m (key i) (f i)) m) (key j) = if j < n then f j else pget m (key j)
  | 0 => by simp
  | n + 1 => by
    rw [List.range_succ, List.foldl_append, List.foldl_cons, List.foldl_nil]
    by_cases hj : j = n
    · subst hj
      rw [pget_pset_self, if_pos (Nat.lt_succ_self j)]
    · rw [pget_pset_ne fun he => hj (hkey he), pget_foldl_pset hkey f m j n]
      have hiff : j < n + 1 ↔ j < n := by omega
      simp only [hiff]

/-- An agent's keys of a group's members. -/
def memberKey (a : Agent) (page off i : Nat) : Nat := regKey (1 + a.code) page 0 (off + 8 * (i + 1))

theorem memberKey_injective (a : Agent) (page off : Nat) : (memberKey a page off).Injective := fun i j h => by
  simp only [memberKey, regKey] at h
  omega

/-- What is captured of a group's members. -/
theorem pget_capture {s : State} {a : Agent} {page off n i : Nat} (hi : i < n) :
    pget (s.capture a page off n).fab.captures (memberKey a page off i) = some (s.liveAt a page (off + 8 * (i + 1))) :=
  (pget_foldl_pset (memberKey_injective a page off) (fun i => some (s.liveAt a page (off + 8 * (i + 1)))) _ i n).trans (if_pos hi)

/-- Nothing is held of a group's members once they are dropped. -/
theorem pget_dropHeld {s : State} {a : Agent} {page off n i : Nat} (hi : i < n) :
    pget (s.dropHeld a page off n).fab.held (memberKey a page off i) = none :=
  (pget_foldl_pset (memberKey_injective a page off) (fun _ => none) _ i n).trans (if_pos hi)

theorem Only.dropHeld {K : Nat → Prop} {ps : List Part} {s t : State} (a : Agent) (page off n : Nat) (hp : Part.fab ∈ ps)
    (h : Only K ps s t) : Only K ps s (t.dropHeld a page off n) := h.set_fab _ hp

/-- A read of a group's head captures the members (R56). -/
theorem readFor_head {s : State} {a : Agent} {p : Fin 128} {o : Fin 4096} {r : Reg} {k : Nat} (hfind : findReg p o = some (r, k))
    (ho : 0x100 ≤ o.val) (halign : o.val % 8 = 0) (hhead : isMember r k = false) (hsize : 0 < groupSize r k)
    (hworld : s.secureOwned p = false ∨ s.secureWorld a = true) :
    s.readFor { agent := a, page := p, off := o } = (s.liveAt a p o, none, s.capture a p o (groupSize r k)) := by
  obtain ⟨info, hinfo⟩ := Option.isSome_iff_exists.mp (pageInfo_of_findReg hfind)
  have hmul : o.val / 8 * 8 = o.val := Nat.div_mul_cancel (Nat.dvd_of_mod_eq_zero halign)
  have hsees : ¬(s.secureOwned p = true ∧ s.secureWorld a = false) := by
    rintro ⟨howned, hnot⟩
    rcases hworld with h | h
    · exact Bool.false_ne_true (h.symm.trans howned)
    · exact Bool.false_ne_true (hnot.symm.trans h)
  have hword : s.readWord a p o = (s.liveAt a p o, none, s.capture a p o (groupSize r k)) := by
    simp only [State.readWord, hinfo, Nat.not_lt.mpr ho, if_false, hfind, if_neg hsees, hhead, Bool.false_eq_true,
      Nat.ne_of_gt hsize]
  simp [State.readFor, readFits, halign, hmul, hword]

theorem groupHeadRead_done {s : State} {a : Agent} {p : Fin 128} {o : Fin 4096} {r : Reg} {k : Nat} (hserved : s.served a p = true)
    (hhost : s.NoneEarlier a) (hfind : findReg p o = some (r, k)) (ho : 0x100 ≤ o.val) (halign : o.val % 8 = 0)
    (hhead : isMember r k = false) (hsize : 0 < groupSize r k) (hworld : s.secureOwned p = false ∨ s.secureWorld a = true) :
    exec (.groupHeadRead a p o) s = done s (s.capture a p o (groupSize r k)) := by
  show done (s.hostTurn a) ((s.hostTurn a).read { agent := a, page := p, off := o }).2 = _
  rw [hostTurn_still hhost, State.read, if_pos hserved, readFor_head hfind ho halign hhead hsize hworld]

theorem writeAll_accepted {s : State} {w : Access} (hsize : w.size = 8) (h : s.accepts w.agent w.page w.off w.value = true) :
    s.writeAll [w] = if isFwChange w then (s.writePut w).fwChange else s.writePut w := by
  obtain ⟨hserved, hcode, hhost⟩ := (accepts_iff hsize).mp h
  exact (writeAll_sole hhost).trans (writeNow_accepted hserved hcode)

/-- Of the firewall's rules only heads and registers of their own step the generation on (R364). -/
theorem isFwChange_of_findReg {w : Access} {r : Reg} {k : Nat} (hfind : findReg w.page w.off = some (r, k)) :
    isFwChange w = (r = R.XB_MAP || r = R.FW_CTRL || r = R.FW_RULE_A) := by
  rw [isFwChange, hfind]

theorem writePut_member {s : State} {w : Access} {r : Reg} {k : Nat} (ho : 0x100 ≤ w.off.val)
    (hfind : findReg w.page w.off = some (r, k)) (hmem : r.mem ≠ 0) : s.writePut w
      = { s with fab := { s.fab with held := pset s.fab.held (regKey (1 + w.agent.code) w.page 0 w.off) (some w.value) } } := by
  simp only [State.writePut, Nat.not_lt.mpr ho, if_false, hfind, if_pos hmem]

theorem writePut_head {s : State} {w : Access} {r : Reg} {k : Nat} (ho : 0x100 ≤ w.off.val)
    (hfind : findReg w.page w.off = some (r, k)) (hmem : r.mem = 0) (hgrp : r.grp ≠ 0) : s.writePut w
      = (s.groupPut w.agent r k w.value).dropHeld w.agent w.page w.off r.grp := by
  simp only [State.writePut, Nat.not_lt.mpr ho, if_false, hfind, hmem, ne_eq, not_true_eq_false, hgrp, not_false_eq_true, if_true]

/-- What an accepted write of a group's head does, where it is none of the firewall's. -/
theorem writeAll_head {s : State} {w : Access} {r : Reg} {k : Nat} (hsize : w.size = 8) (ho : 0x100 ≤ w.off.val)
    (hfind : findReg w.page w.off = some (r, k)) (hmem : r.mem = 0) (hgrp : r.grp ≠ 0)
    (hfw : (r = R.XB_MAP || r = R.FW_CTRL || r = R.FW_RULE_A) = false) (h : s.accepts w.agent w.page w.off w.value = true) :
    s.writeAll [w] = (s.groupPut w.agent r k w.value).dropHeld w.agent w.page w.off r.grp := by
  rw [writeAll_accepted hsize h, isFwChange_of_findReg hfind, hfw, if_neg Bool.false_ne_true, writePut_head ho hfind hmem hgrp]

end Sys2Proof.Machine

/-! PROOFS. What a page's `ENABLE` and `GATE` start and stop writes no `PG_CTRL` (R61, R62). -/

namespace Sys2Proof.Machine

-- What a page's `ENABLE` starts and stops writes no `PG_CTRL` (R61, R62).

/-- A key of a register that is no page's `PG_CTRL`. -/
abbrev offCtrl (k : Nat) : Prop := k % 4096 ≠ hCtrl

theorem offCtrl_key {r : Reg} {u k a : Nat} (hr : r.InPage k) : offCtrl (r.key u k a) := by
  have hlo : 0x100 ≤ r.off + k * r.stride := hr.1
  show r.key u k a % 4096 ≠ 0x10
  rw [Reg.key_mod hr.2]
  omega

theorem offCtrl_hdr {page off : Nat} (ho : off < 4096) (h : off ≠ hCtrl) : offCtrl (regKey 0 page 0 off) := by
  rwa [offCtrl, regKey_mod ho]

theorem offCtrl_reportKeys : ∀ k ∈ reportKeys, offCtrl k := by decide

/-- The parts that a page's `ENABLE` may change. -/
abbrev ctrlParts : List Part := [.heap, .xbar, .links, .bitt, .sal, .fab, .time, .mesh]

/-- What leaves every `PG_CTRL` as it is. -/
abbrev CtrlKept (s t : State) : Prop := Only offCtrl ctrlParts s t

section CtrlKept

variable {s t : State} (h : CtrlKept s t)
include h

theorem CtrlKept.wr {r : Reg} {u k : Nat} (v : Word) (hr : r.InPage k) : CtrlKept s (t.wr r u v k) := Only.wr v (offCtrl_key hr) h

theorem CtrlKept.raise (page i : Nat) : CtrlKept s (t.raise page i) := Only.raise (offCtrl_hdr (by decide) (by decide)) h

theorem CtrlKept.foldl {α : Type} {f : State → α → State} (hf : ∀ u a, CtrlKept s u → CtrlKept s (f u a)) (xs : List α) :
    CtrlKept s (xs.foldl f t) := foldl_keeps hf xs t h

theorem CtrlKept.laneBits (ls : List Nat) (i : Nat) (b : Bool) : CtrlKept s (t.laneBits ls i b) := by
  unfold State.laneBits
  exact h.foldl (fun u l hu => CtrlKept.wr (r := R.LANE_STAT) hu _ (by decide)) ls

theorem CtrlKept.lanesLost (ls : List Nat) (signal : Bool) : CtrlKept s (t.lanesLost ls signal) := by
  have hbits : CtrlKept s ((t.laneBits ls 1 false).laneBits ls 2 false) := (h.laneBits ls 1 false).laneBits ls 2 false
  unfold State.lanesLost
  exact CtrlKept.foldl (Only.ite (hbits.laneBits ls 0 false) hbits) (fun _ _ hu => Only.set_links _ (by decide) hu) ls

theorem CtrlKept.setLkState (q st : Nat) : CtrlKept s (t.setLkState q st) := by
  have hst : CtrlKept s (t.wrf R.LINK_STAT q 3 0 st) := h.wr _ (by decide)
  unfold State.setLkState
  exact Only.ite ((hst.laneBits _ 4 true).lanesLost _ true)
    (Only.ite (Only.set_links _ (by decide) ((hst.laneBits _ 4 false).laneBits _ 4 true))
      (Only.ite (hst.lanesLost _ false) hst))

theorem CtrlKept.lkDown (q st cause : Nat) : CtrlKept s (t.lkDown q st cause) := by
  have hdown : CtrlKept s (if t.lkUp q then t.raise (brinePage q) 1 else t) := Only.ite (h.raise _ _) h
  unfold State.lkDown
  dsimp only
  generalize (if t.lkUp q then t.raise (brinePage q) 1 else t) = u at hdown
  have hcause : CtrlKept s (if cause = 0 then u else u.wrf R.LINK_STAT q 47 40 cause) :=
    Only.ite hdown (hdown.wr _ (by decide))
  generalize (if cause = 0 then u else u.wrf R.LINK_STAT q 47 40 cause) = x at hcause
  have hstate : CtrlKept s (((x.setNeg q 0).wrb R.LINK_STAT q 30 false).setLkState q st) :=
    ((hcause.wr _ (by decide)).wr _ (by decide)).setLkState q st
  exact Only.ite hstate (Only.report _ _ _ _ _ offCtrl_reportKeys (by decide) hstate)

theorem CtrlKept.lkDetectEntry (q cause : Nat) : CtrlKept s (t.lkDetectEntry q cause) := by
  unfold State.lkDetectEntry
  exact CtrlKept.lanesLost (CtrlKept.lkDown (CtrlKept.wr (Only.set_links _ (by decide) h) _ (by decide)) q lkDetect cause) _ false

theorem CtrlKept.lkEval (q : Nat) (rate : Bool) : CtrlKept s (t.lkEval q rate) := by
  unfold State.lkEval
  exact Only.ite (Only.ite h (h.lkDown q lkDisabled _))
    (Only.ite (h.lkDetectEntry q 0) (Only.ite (h.lkDetectEntry q cMode) h))

theorem CtrlKept.ethDown (e : Nat) : CtrlKept s (t.ethDown e) := (h.wr _ (by decide)).raise _ _

theorem CtrlKept.ethEval (e : Nat) : CtrlKept s (t.ethEval e) := by
  unfold State.ethEval
  dsimp only
  refine Only.ite (Only.ite h (h.wr _ (by decide)))
    (Only.ite (Only.ite h ((h.wr _ (by decide)).raise _ _)) ?_)
  have hon : CtrlKept s (if t.ethState e = 0 ∨ t.ethState e = 6 then t.wr R.ETH_STAT e 1 else t) :=
    Only.ite (h.wr _ (by decide)) h
  generalize (if t.ethState e = 0 ∨ t.ethState e = 6 then t.wr R.ETH_STAT e 1 else t) = u at hon
  have hdown (c : Prop) [Decidable c] : CtrlKept s (if c then u.ethDown e else u) := Only.ite (hon.ethDown e) hon
  exact Only.ite (hdown _) ((hdown _).wr _ (by decide))

theorem CtrlKept.ethEvalAll : CtrlKept s t.ethEvalAll := h.foldl (fun _ e hu => hu.ethEval e) _

theorem CtrlKept.failQueue (j : Nat) : CtrlKept s (t.failQueue j) :=
  CtrlKept.foldl (Only.set_heap _ (by decide) h) (fun _ _ hu => Only.respond _ _ _ _ (by decide) hu) _

theorem CtrlKept.dropUnserved (c : Nat) : CtrlKept s (t.dropUnserved c) :=
  Only.ite h ((h.failQueue _).failQueue _)

theorem CtrlKept.salOn : CtrlKept s t.salOn :=
  Only.set_sal _ (by decide) (((h.wr _ (by decide)).wr _ (by decide)).wr _ (by decide))

theorem CtrlKept.salOff : CtrlKept s t.salOff := Only.set_sal _ (by decide) (h.wr _ (by decide))

theorem CtrlKept.setRole (v : Role) : CtrlKept s (t.setRole v) :=
  Only.ite h (CtrlKept.raise (CtrlKept.wr (Only.set_mesh _ (by decide) h) _ (by decide)) _ _)

theorem CtrlKept.pageOn (page : Nat) : CtrlKept s (t.pageOn page) := by
  have hheap (f : State → Nat → Nat) (g : State → Nat → Ctrl) (xs : List Nat) :
      CtrlKept s (xs.foldl (fun u b => u.setCtl (f u b) (g u b)) t) := h.foldl (fun _ _ hu => Only.set_heap _ (by decide) hu) xs
  have hbrine (f : Nat → Nat) (xs : List Nat) : CtrlKept s (xs.foldl (fun u b => u.lkEval (f b) false) t) :=
    h.foldl (fun _ _ hu => hu.lkEval _ false) xs
  unfold State.pageOn
  exact Only.ite (hheap ..) (Only.ite (hbrine ..) (Only.ite h.ethEvalAll (Only.ite h.salOn
    (Only.ite (Only.set_fab _ (by decide) h) (Only.ite (Only.set_time _ (by decide) h) h)))))

theorem CtrlKept.pageOff (page : Nat) : CtrlKept s (t.pageOff page) := by
  have hheap (f : Nat → Nat) (g : State → Nat → Ctrl) (xs : List Nat) :
      CtrlKept s (xs.foldl (fun u b => (u.setCtl (f b) (g u b)).dropUnserved (f b)) t) :=
    h.foldl (fun _ _ hu => CtrlKept.dropUnserved (Only.set_heap _ (by decide) hu) _) xs
  have hbrine (f : Nat → Nat) (xs : List Nat) : CtrlKept s (xs.foldl (fun u b => u.lkEval (f b) false) t) :=
    h.foldl (fun _ _ hu => hu.lkEval _ false) xs
  unfold State.pageOff
  exact Only.ite (hheap (fun b => 32 * (page - 0x40) + b) (fun u b => { u.ctl (32 * (page - 0x40) + b) with state := .disabled, train := .keep }) _)
    (Only.ite (hbrine (fun b => 64 * (page - 0x50) + b) _) (Only.ite h.ethEvalAll
    (Only.ite h.salOff (Only.ite (h.setRole _) h))))

end CtrlKept

theorem CtrlKept.refl (s : State) : CtrlKept s s := Only.refl _ _ s

theorem CtrlKept.hdr {s t : State} (h : CtrlKept s t) (page : Nat) : t.hdr page hCtrl = s.hdr page hCtrl :=
  h.getReg (by rw [offCtrl, regKey_mod (by decide)]; exact not_not.mpr rfl)

end Sys2Proof.Machine

/-! PROOFS. Header writes, groups' heads and posted writes, and the settlement of `Obligations.GroupsAndHeaders`. -/

namespace Sys2Proof.Machine

-- The header's writes by the agents' ports (R60 to R62, R74, R466).

/-- An accepted write of a header register that a port makes alone. -/
theorem write1_header {s : State} {a : Agent} {p : Fin 128} {off : Nat} {v : Word} (ho : off < 0x100)
    (h : s.accepts a p off v = true) : s.write1 a p off v = s.hdrPut a p off v := by
  have hp : (soleWrite a p off v).page.val = p.val := Nat.mod_eq_of_lt p.isLt
  have hoff : (soleWrite a p off v).off.val = off := Nat.mod_eq_of_lt (by omega)
  have hlow : (soleWrite a p off v).off.val < 0x100 := by rw [hoff]; exact ho
  rw [write1_of_accepts h]
  dsimp only
  rw [isFwChange_header hlow, if_neg Bool.false_ne_true, State.writePut]
  dsimp only
  rw [if_pos hlow, hp, hoff]
  rfl

theorem bit_and_three (v : Word) : bit (v &&& 3) 0 = bit v 0 := by simp [bit]

/-- `PG_CTRL` put in place reads the two bits that are implemented (R58, R60). -/
theorem ctrlPut_hdr (s : State) (page : Nat) (v : Word) : (s.ctrlPut page v).hdr page hCtrl = v &&& 3 := by
  have hput : (s.setHdr page hCtrl (v &&& 3)).hdr page hCtrl = v &&& 3 := hdr_setHdr_self ..
  have hexpert (c : Prop) [Decidable c] : CtrlKept (s.setHdr page hCtrl (v &&& 3))
      (if c then (s.setHdr page hCtrl (v &&& 3)).raise 0 2 else s.setHdr page hCtrl (v &&& 3)) :=
    Only.ite ((CtrlKept.refl _).raise 0 2) (CtrlKept.refl _)
  unfold State.ctrlPut
  dsimp only
  refine (CtrlKept.hdr (s := s.setHdr page hCtrl (v &&& 3)) ?_ page).trans hput
  exact Only.ite ((hexpert _).pageOn page) (Only.ite ((hexpert _).pageOff page) (hexpert _))

/-- A gating request that meets no secure use takes effect at once (R466). -/
theorem wrPgCtrl_put {s : State} {page : Nat} {v : Word} (h : s.enabled page = false ∨ bit v 0 = true ∨ s.secureOwned page = true
    ∨ s.secureUse page = false) : s.wrPgCtrl page v = s.ctrlPut page v := by
  refine if_neg ?_
  rintro ⟨hon, hoff, hworld, huse⟩
  rcases h with h | h | h | h
  · exact Bool.false_ne_true (h.symm.trans hon)
  · simp [h] at hoff
  · exact Bool.false_ne_true (hworld.symm.trans h)
  · exact Bool.false_ne_true (h.symm.trans huse)

theorem pgCtrlWrite_done {s : State} {a : Agent} {p : Fin 128} {v : Word} (h : s.accepts a p hCtrl v = true) :
    exec (.pgCtrlWrite a p v) s = done s (s.wrPgCtrl p v) :=
  congrArg (done s) (write1_header (by decide) h)

/-- On a page with nothing to start or stop `PG_CTRL` is a register alone. -/
theorem ctrlPut_pinio {s : State} {v : Word} (h : bit v 1 = false) : s.ctrlPut 0x5C v = s.setHdr 0x5C hCtrl (v &&& 3) := by
  have hon (u : State) : u.pageOn 0x5C = u := rfl
  have hoff (u : State) : u.pageOff 0x5C = u := rfl
  simp only [State.ctrlPut, h, Bool.false_eq_true, false_and, if_false, hon, hoff, ite_self]

/-- `PG_CTRL` written with `ENABLE` on a page that is enabled starts and stops nothing. -/
theorem ctrlPut_stays {s : State} {page : Nat} {v : Word} (hon : s.enabled page = true) (hv : bit v 0 = true) :
    (s.ctrlPut page v).sup = s.sup := by
  have hold : bit (s.hdr page hCtrl) 0 = true := hon
  simp only [State.ctrlPut, hold, hv, Bool.not_true, Bool.false_eq_true, and_false, false_and, if_false]
  split <;> rfl

/-- A gating request that meets a secure use waits for it with `ENABLE` kept (R466). -/
theorem wrPgCtrl_defer {s : State} {page : Nat} {v : Word} (hon : s.enabled page = true) (hoff : bit v 0 = false)
    (hworld : s.secureOwned page = false) (huse : s.secureUse page = true) :
    s.wrPgCtrl page v = (s.ctrlPut page (setBit v 0)).gateDefer page v :=
  if_pos ⟨hon, by simp [hoff], hworld, huse⟩

/-- PG_CTRL_WRITE whose gating request is deferred. -/
theorem gateDefer_gives {c : Instr} {s : State} {page : Nat} {v : Word} (hon : s.enabled page = true)
    (h : exec c s = done s ((s.ctrlPut page (setBit v 0)).gateDefer page v)) : Gives c s fun t => t.enabled page = true
      ∧ t.gatePending page = true ∧ t.sup.gateCode = 0x0C ∧ t.sup.gatePage = page
      ∧ t.sup.deferrals = min (s.sup.deferrals + 1) 65535 := by
  have hset : bit (setBit v 0) 0 = true := bit_setBit (by decide)
  have hkept : ((s.ctrlPut page (setBit v 0)).gateDefer page v).hdr page hCtrl = setBit v 0 &&& 3 := ctrlPut_hdr s page (setBit v 0)
  refine Gives.done h ?_
  rw [State.gatePending, finish_sup]
  refine ⟨?_, ?_, rfl, rfl, ?_⟩
  · rw [State.enabled, finish_hdr_ne (by decide) (by decide), hkept, bit_and_three, hset]
  · simp [State.gateDefer]
  · show min ((s.ctrlPut page (setBit v 0)).sup.deferrals + 1) (2 ^ 16 - 1) = _
    rw [ctrlPut_stays hon hset]
    rfl

-- What the heads put into effect (R336, R349, R364).

/-- Marking the rings that became ready changes a port's times alone. -/
theorem markReady_net (s s0 : State) : Only noRegs [.net] s (s.markReady s0) ∧ (s.markReady s0).net.ring = s.net.ring := by
  unfold State.markReady
  refine foldl_keeps (P := fun u => Only noRegs [.net] s u ∧ u.net.ring = s.net.ring) (fun u e hu => ?_) _ s ⟨Only.refl _ _ s, rfl⟩
  split
  · exact ⟨hu.1.set_net _ (by simp), hu.2⟩
  · exact hu

/-- A ring's descriptor put in place (R349, R352). -/
theorem ringPut_ring (s : State) (r : Nat) (d0 d1 d2 d3 : Word) : ((s.ringPut r d0 d1 d2 d3).ring r).d0 = d0
    ∧ ((s.ringPut r d0 d1 d2 d3).ring r).d2 = d2 ∧ ((s.ringPut r d0 d1 d2 d3).ring r).d3 = d3 := by
  unfold State.ringPut
  dsimp only
  rw [ring_setRing_self]
  split <;> exact ⟨rfl, rfl, rfl⟩

theorem groupPut_ring (s : State) (a : Agent) (v : Word) : s.groupPut a R.RING_D0 0 v
    = (s.ringPut (s.ringSel a) v (s.heldWord a 0x58 R.RING_D1.off (s.ring (s.ringSel a)).d1)
        (s.heldWord a 0x58 R.RING_D2.off (s.ring (s.ringSel a)).d2)
        (s.heldWord a 0x58 R.RING_D3.off (s.ring (s.ringSel a)).d3)).markReady s := rfl

theorem groupPut_rule (s : State) (a : Agent) (k : Nat) (v : Word) : s.groupPut a R.FW_RULE_A k v
    = (s.wr R.FW_RULE_A 0 v k).wr R.FW_RULE_B 0 (s.heldWord a 0x0C (R.FW_RULE_B.off + 16 * k) (s.rd R.FW_RULE_B 0 k)) k := rfl

/-- The filter that a head and an agent's held words make. -/
def State.filterMade (s : State) (a : Agent) (v : Word) : Filter :=
  { w0 := v, w1 := s.heldWord a 0x54 R.FLT_W1.off (s.fltOf a).w1, w2 := s.heldWord a 0x54 R.FLT_W2.off (s.fltOf a).w2 }

theorem groupPut_filter (s : State) (a : Agent) (v : Word) : s.groupPut a R.FLT_W0 0 v = { s with net := { s.net with
      filter := mset filterDflt s.net.filter (fld (s.rdAgent R.FLT_SEL 0 a) 9 0) (s.filterMade a v) } } := rfl


-- The commands of groups and headers.

/-- Dropping held words writes no register. -/
theorem dropHeld_rd (s : State) (a : Agent) (page off n : Nat) (r : Reg) (u k : Nat) :
    (s.dropHeld a page off n).rd r u k = s.rd r u k := rfl

/-- A group's head written and its held words dropped: what the drop leaves of the head's effect. -/
theorem dropHeld_gives {c : Instr} {s u : State} {w : Access} {n : Nat} {K : Nat → Prop} {ps : List Part} (hp : Part.fab ∈ ps)
    (hu : Only K ps s u) (h : exec c s = done s (u.dropHeld w.agent w.page w.off n)) : Gives c s fun t =>
      t = s.finish (u.dropHeld w.agent w.page w.off n)
      ∧ (∀ i < n, pget t.fab.held (memberKey w.agent w.page w.off i) = none) ∧ Frame K ps s t := by
  refine Gives.done h ⟨rfl, fun i hi => ?_, (hu.dropHeld _ _ _ _ hp).frame⟩
  rw [finish_fab]
  exact pget_dropHeld hi

/-- GROUP_HEAD_WRITE of a ring's descriptor (R349, R352). -/
theorem ringHead_gives {s : State} {w : Access} (hsize : w.size = 8) (hpage : w.page = 0x58) (ho : w.off.val = R.RING_D0.off)
    (h : s.accepts w.agent w.page w.off w.value = true) : Gives (.groupHeadWrite w) s fun t =>
      (t.ring (s.ringSel w.agent)).d0 = w.value
      ∧ (t.ring (s.ringSel w.agent)).d2 = s.heldWord w.agent 0x58 R.RING_D2.off (s.ring (s.ringSel w.agent)).d2
      ∧ (t.ring (s.ringSel w.agent)).d3 = s.heldWord w.agent 0x58 R.RING_D3.off (s.ring (s.ringSel w.agent)).d3
      ∧ (∀ i < 3, pget t.fab.held (memberKey w.agent w.page w.off i) = none) ∧ Frame noRegs [.net, .fab] s t := by
  have hfind : findReg w.page w.off = some (R.RING_D0, 0) := by rw [hpage, ho]; decide +kernel
  have hwrite := writeAll_head hsize (by rw [ho]; decide) hfind (by decide) (by decide) (by decide) h
  rw [groupPut_ring] at hwrite
  generalize s.heldWord w.agent 0x58 R.RING_D1.off (s.ring (s.ringSel w.agent)).d1 = d1 at hwrite
  generalize s.heldWord w.agent 0x58 R.RING_D2.off (s.ring (s.ringSel w.agent)).d2 = d2 at hwrite ⊢
  generalize s.heldWord w.agent 0x58 R.RING_D3.off (s.ring (s.ringSel w.agent)).d3 = d3 at hwrite ⊢
  obtain ⟨hmark, hrings⟩ := markReady_net (s.ringPut (s.ringSel w.agent) w.value d1 d2 d3) s
  obtain ⟨h0, h2, h3⟩ := ringPut_ring s (s.ringSel w.agent) w.value d1 d2 d3
  have hput : Only noRegs [.net, .fab] s (s.ringPut (s.ringSel w.agent) w.value d1 d2 d3) := (Only.refl _ _ s).set_net _ (by simp)
  obtain ⟨t, hexec, rfl, hheld, hframe⟩ := dropHeld_gives (c := .groupHeadWrite w) (by simp)
    (hput.trans (hmark.mono (fun _ hk => hk) (by simp))) (congrArg (done s) hwrite)
  have hring : (s.finish (((s.ringPut (s.ringSel w.agent) w.value d1 d2 d3).markReady s).dropHeld w.agent w.page w.off
      R.RING_D0.grp)).ring (s.ringSel w.agent) = (s.ringPut (s.ringSel w.agent) w.value d1 d2 d3).ring (s.ringSel w.agent) := by
    rw [State.ring, finish_net]
    exact congrArg (mget ringDflt · _) hrings
  exact ⟨_, hexec, by rw [hring, h0], by rw [hring, h2], by rw [hring, h3], hheld, hframe⟩

/-- GROUP_HEAD_WRITE of a firewall rule: both words in effect, the generation one further (R364, R365). -/
theorem ruleHead_gives {s : State} {w : Access} {k : Nat} (hsize : w.size = 8)
    (hfind : findReg w.page w.off = some (R.FW_RULE_A, k)) (h : s.accepts w.agent w.page w.off w.value = true) :
    Gives (.groupHeadWrite w) s fun t => t.rd R.FW_RULE_A 0 k = w.value
      ∧ t.rd R.FW_RULE_B 0 k = s.heldWord w.agent 0x0C (R.FW_RULE_B.off + 16 * k) (s.rd R.FW_RULE_B 0 k)
      ∧ pget t.fab.held (memberKey w.agent w.page w.off 0) = none
      ∧ t.rdf R.FW_GEN 0 31 0 = (s.rdf R.FW_GEN 0 31 0 + 1) % 2 ^ 32
      ∧ Frame (regsIn [R.FW_RULE_A.key 0 k, R.FW_RULE_B.key 0 k, R.FW_GEN.key 0]) [.fab] s t := by
  obtain ⟨hoff, hk⟩ := findReg_offset hfind
  replace hk : k < 32 := hk
  have hA : R.FW_RULE_A.InPage k := by simp only [Reg.InPage, R.FW_RULE_A]; omega
  have hB : R.FW_RULE_B.InPage k := by simp only [Reg.InPage, R.FW_RULE_B]; omega
  have hG : R.FW_GEN.InPage := by decide
  have hwrite : s.writeAll [w] = ((s.groupPut w.agent R.FW_RULE_A k w.value).dropHeld w.agent w.page w.off 1).fwChange := by
    rw [writeAll_accepted hsize h, isFwChange_of_findReg hfind,
      writePut_head (by rw [hoff]; exact Nat.le_trans (by decide) (Nat.le_add_right R.FW_RULE_A.off _)) hfind rfl (by decide)]
    rfl
  rw [groupPut_rule] at hwrite
  generalize s.heldWord w.agent 0x0C (R.FW_RULE_B.off + 16 * k) (s.rd R.FW_RULE_B 0 k) = b at hwrite ⊢
  have hAB : R.FW_RULE_A.off + k * R.FW_RULE_A.stride ≠ R.FW_RULE_B.off + k * R.FW_RULE_B.stride := by
    simp only [R.FW_RULE_A, R.FW_RULE_B]
    omega
  have hAG : R.FW_RULE_A.off + k * R.FW_RULE_A.stride ≠ R.FW_GEN.off + 0 * R.FW_GEN.stride := by
    simp only [R.FW_RULE_A, R.FW_GEN]
    omega
  have hBG : R.FW_RULE_B.off + k * R.FW_RULE_B.stride ≠ R.FW_GEN.off + 0 * R.FW_GEN.stride := by
    simp only [R.FW_RULE_B, R.FW_GEN]
    omega
  have hkept : ((s.wr R.FW_RULE_A 0 w.value k).wr R.FW_RULE_B 0 b k).rd R.FW_GEN = s.rd R.FW_GEN := by
    rw [rd_wr_ne hB hG hBG.symm, rd_wr_ne hA hG hAG.symm]
  refine Gives.done (congrArg (done s) hwrite) ⟨?_, ?_, ?_, ?_, ?_⟩
  · rw [finish_rd hA, State.fwChange, rd_wr_ne hG hA hAG, dropHeld_rd, rd_wr_ne hB hA hAB, rd_wr_self]
  · rw [finish_rd hB, State.fwChange, rd_wr_ne hG hB hBG, dropHeld_rd, rd_wr_self]
  · rw [finish_fab, State.fwChange, wr_fab]
    exact pget_dropHeld (Nat.lt_succ_self 0)
  · rw [finish_rdf hG, State.rdf, State.fwChange, rd_wr_self, State.rdf, dropHeld_rd, hkept, ← State.rdf]
    generalize s.rdf R.FW_GEN 0 31 0 = gen
    simp only [fld, word, BitVec.toNat_ofNat]
    omega
  · exact (((((Only.refl _ _ s).wr _ (.head _)).wr _ (.tail _ (.head _))).dropHeld _ _ _ _ (by simp)).wr _
      (.tail _ (.tail _ (.head _)))).frame

/-- GROUP_HEAD_WRITE of a filter (R336). -/
theorem filterHead_gives {s : State} {w : Access} (hsize : w.size = 8) (hfind : findReg w.page w.off = some (R.FLT_W0, 0))
    (h : s.accepts w.agent w.page w.off w.value = true) : Gives (.groupHeadWrite w) s fun t =>
      t.fltOf w.agent = s.filterMade w.agent w.value
      ∧ (∀ i < 2, pget t.fab.held (memberKey w.agent w.page w.off i) = none) ∧ Frame noRegs [.net, .fab] s t := by
  have ho : w.off.val = R.FLT_W0.off := (findReg_offset hfind).1
  have hwrite := writeAll_head hsize (by rw [ho]; decide) hfind (by decide) (by decide) (by decide) h
  rw [groupPut_filter] at hwrite
  obtain ⟨t, hexec, rfl, hheld, hframe⟩ := dropHeld_gives (c := .groupHeadWrite w) (K := noRegs) (ps := [.net, .fab]) (by simp)
    ((Only.refl _ _ s).set_net _ (by simp)) (congrArg (done s) hwrite)
  refine ⟨_, hexec, ?_, hheld, hframe⟩
  rw [State.fltOf, finish_net, finish_rdAgent (by decide)]
  exact mget_mset_self ..

/-- The checks of a group give none of an RCLK's conflicts (R56). -/
theorem headCode_ne_conflict {s : State} {w : Access} {c : Code} (h : s.headCode w = some c) : c ≠ .conflict := by
  rintro rfl
  unfold State.headCode at h
  split at h
  · have hmem := firstCode_mem h
    unfold State.groupReasons at hmem
    split at hmem
    · simp at hmem
    · split at hmem
      · simp [ringReasons] at hmem
      · split at hmem <;> simp at hmem
  · exact absurd h.symm (Option.some_ne_none _)

/-- What holds of every member, as the statement lists it. -/
theorem all_members {α : Type} [DecidableEq α] {m : PMap α} {a : Agent} {page off n : Nat} {f : Nat → Option α}
    (h : ∀ i < n, pget m (memberKey a page off i) = f i) :
    (List.range n).all (fun i => pget m (regKey (1 + a.code) page 0 (off + 8 * (i + 1))) == f i) = true :=
  List.all_eq_true.mpr fun i hi => beq_iff_eq.mpr (h i (List.mem_range.mp hi))

/-- GROUP_HEAD_WRITE refused by the group's checks (R56). -/
theorem refusedHead_gives {s : State} {w : Access} {r : Reg} {k : Nat} {c : Code} (hserved : s.served w.agent w.page = true)
    (hhost : s.NoneEarlier w.agent) (hfind : findReg w.page w.off = some (r, k)) (hhead : isHead w = true)
    (hown : s.writeCode w = none) (hc : s.headCode w = some c) : Gives (.groupHeadWrite w) s fun t =>
      (∀ i < r.grp, pget t.fab.held (memberKey w.agent w.page w.off i) = none) ∧ fld (t.hdr w.page hReject) 47 40 = c.num
      ∧ fld (t.rd R.LAST_REJECT) 47 40 = c.num ∧ Frame (regsIn (rejectKeys w.page)) [.fab] s t := by
  have hdrop : s.afterReject s w c = s.dropHeld w.agent w.page w.off r.grp := by
    rw [State.afterReject, if_pos ⟨headCode_ne_conflict hc, by simp [hown]⟩, hfind]
  have hwrite := (writeAll_sole hhost).trans (writeNow_refused hserved (codeAmong_of_headCode hhead hown hc))
  obtain ⟨t, hexec, ⟨hlast, -⟩, ⟨hpage, -⟩, -, hfab, hframe⟩ := refused_gives (c := .groupHeadWrite w)
    (afterReject_only s w c) (pageInfo_of_findReg hfind) (congrArg (done s) hwrite)
  refine ⟨t, hexec, fun i hi => ?_, hpage, hlast, hframe⟩
  rw [hfab, hdrop]
  exact pget_dropHeld hi

/-- POSTED_WRITE_APPLY of `PG_EVT_EN` (R77). -/
theorem postedEvtEn_done {s : State} {w : Access} {ws : List Access} (hposted : s.fab.posted = w :: ws) (hsize : w.size = 8)
    (ho : w.off.val = hEvtEn) (h : (s.withPosted []).accepts w.agent w.page w.off w.value = true) :
    exec .postedWriteApply s = done s ((s.withPosted ws).setHdr w.page hEvtEn w.value) := by
  obtain ⟨hserved, hcode, -⟩ := (accepts_iff hsize).mp h
  rw [codeAmong_withPosted] at hcode
  have hwrite := writeNow_header (s := s.withPosted ws) hserved ((codeAmong_withPosted s ws w).trans hcode) (by rw [ho]; decide)
  rw [ho] at hwrite
  exact congrArg (done s) ((applyPosted_cons hposted).trans hwrite)

/-- POSTED_WRITE_APPLY of a write that a check refuses (R71, R77). -/
theorem postedRefused_done {s : State} {w : Access} {ws : List Access} {c : Code} (hposted : s.fab.posted = w :: ws)
    (hserved : s.served w.agent w.page = true) (hcode : s.writeCode w = some c) :
    exec .postedWriteApply s = done s ((s.withPosted ws).recordRejects [s.rejectOf w c]) := by
  have hown : (s.withPosted ws).writeCode w = some c := (writeCode_withPosted s ws w).trans hcode
  have hwrite := writeNow_refused (s := s.withPosted ws) hserved (codeAmong_of_writeCode hown)
  rw [afterReject_of_writeCode hown] at hwrite
  exact congrArg (done s) ((applyPosted_cons hposted).trans hwrite)

/-- Settles O8: groups by their heads (`ringHead_gives`, `ruleHead_gives`, `filterHead_gives`, `refusedHead_gives`), `PG_CTRL` by
what it puts in place (`ctrlPut_hdr`) or defers (`gateDefer_gives`), posted writes by the oldest of them. -/
theorem groupsAndHeaders : Obligations.GroupsAndHeaders := by
  unfold Obligations.GroupsAndHeaders
  refine ⟨?headRead, ?member, ?ring, ?rule, ?filter, ?refused, ?ctrl, ?pinio, ?deferred, ?owner, ?posted, ?postedRefused, ?none⟩
  case headRead =>
    intro s a p o r k hserved hhost hfind ho halign hhead hsize hworld
    refine Gives.done (groupHeadRead_done hserved hhost hfind ho halign hhead hsize hworld) ⟨all_members fun i hi => ?_, ?_⟩
    · rw [finish_fab]
      exact pget_capture hi
    · exact ((Only.refl _ _ s).set_fab _ (by simp)).frame
  case member =>
    intro s w r k hsize ho hfind hmem h
    have hfw : (r = R.XB_MAP || r = R.FW_CTRL || r = R.FW_RULE_A) = false := by
      have hne (q : Reg) (hq : q.mem = 0) : decide (r = q) = false := decide_eq_false fun he => hmem (he ▸ hq)
      rw [hne R.XB_MAP rfl, hne R.FW_CTRL rfl, hne R.FW_RULE_A rfl]
      rfl
    have hwrite := writeAll_accepted hsize h
    rw [isFwChange_of_findReg hfind, hfw, if_neg Bool.false_ne_true, writePut_member ho hfind hmem] at hwrite
    refine Gives.done (congrArg (done s) hwrite) ⟨?_, ((Only.refl _ _ s).set_fab _ (by simp)).frame⟩
    rw [finish_fab]
    simp only [pget_pset_self]
  case ring =>
    intro s w hsize hpage ho h
    obtain ⟨t, hexec, h0, h2, h3, hheld, hframe⟩ := ringHead_gives hsize hpage ho h
    rw [hpage, ho] at hheld
    exact ⟨t, hexec, h0, h2, h3, hheld 0 (by decide), hheld 1 (by decide), hheld 2 (by decide), hframe⟩
  case rule =>
    intro s w k hsize hpage hfind h
    obtain ⟨t, hexec, hA, hB, hheld, hgen, hframe⟩ := ruleHead_gives hsize hfind h
    have hkey : R.FW_RULE_A.off + R.FW_RULE_A.stride * k + 8 * (0 + 1) = R.FW_RULE_B.off + 16 * k := by
      simp only [R.FW_RULE_A, R.FW_RULE_B]
      omega
    rw [memberKey, (findReg_offset hfind).1, hkey, hpage] at hheld
    exact ⟨t, hexec, hA, hB, hheld, hgen, hframe⟩
  case filter =>
    intro s w hsize hpage hfind h
    obtain ⟨t, hexec, hflt, hheld, hframe⟩ := filterHead_gives hsize hfind h
    rw [hpage, (findReg_offset hfind).1] at hheld
    exact ⟨t, hexec, hflt, hheld 0 (by decide), hheld 1 (by decide), hframe⟩
  case refused =>
    intro s w r k c hserved hhost hfind hhead hown hc
    obtain ⟨t, hexec, hheld, hpage, hlast, hframe⟩ := refusedHead_gives hserved hhost hfind hhead hown hc
    exact ⟨t, hexec, all_members hheld, hpage, hlast, hframe⟩
  case ctrl =>
    intro s a p v h hgate
    have hread : (s.finish (s.ctrlPut p v)).hdr p hCtrl = v &&& 3 :=
      (finish_hdr_ne (by decide) (by decide)).trans (ctrlPut_hdr s p v)
    refine Gives.done ((pgCtrlWrite_done h).trans (congrArg (done s) (wrPgCtrl_put hgate))) ⟨hread, ?_⟩
    rw [State.enabled, hread, bit_and_three]
  case pinio =>
    rintro s a p v rfl hexpert h hgate
    have hexec := (pgCtrlWrite_done h).trans (congrArg (done s) ((wrPgCtrl_put hgate).trans (ctrlPut_pinio hexpert)))
    exact setHdr_gives (by decide) (.inl (by decide)) (by decide) hexec
  case deferred =>
    intro s a p v h hon hoff hworld huse
    exact gateDefer_gives hon ((pgCtrlWrite_done h).trans (congrArg (done s) (wrPgCtrl_defer hon hoff hworld huse)))
  case owner =>
    intro s a p v h
    have hexec : exec (.pgOwnerWrite a p v) s = done s (s.setHdr p hOwner v) := congrArg (done s) (write1_header (by decide) h)
    obtain ⟨t, ht, hread, hframe⟩ := setHdr_gives (by decide) (.inr (by decide)) p.isLt hexec
    exact ⟨t, ht, hread, by rw [State.secureOwned, hread], hframe⟩
  case posted =>
    intro s w ws hposted hsize ho h
    refine Gives.done (postedEvtEn_done hposted hsize ho h) ⟨?_, ?_, ?_⟩
    · rw [finish_fab]
      rfl
    · rw [finish_hdr_ne (by decide) (by decide), hdr_setHdr_self]
    · exact (((withPosted_only s ws).mono (fun _ hk => hk.elim) fun _ hp => hp).setHdr _ (.head _)).frame
  case postedRefused =>
    intro s w ws c hposted hserved hcode hinfo
    obtain ⟨t, hexec, ⟨hlast, -⟩, ⟨hpage, -, -, hcount⟩, -, hfab, hframe⟩ :=
      refused_gives (withPosted_only s ws) hinfo (postedRefused_done hposted hserved hcode)
    exact ⟨t, hexec, hfab, hpage, hcount, hlast, hframe⟩
  case none =>
    intro s hposted
    exact stays_gives (congrArg (done s) (applyPosted_nil hposted))

end Sys2Proof.Machine

/-! PROOFS. The image stores' states and bytes, their commands and window, and the settlement of `Obligations.ImageStores`. -/

namespace Sys2Proof.Machine

-- A store's state and bytes, beside the other store's.

theorem storeSt_setStoreSt_other (s : State) (i : Fin 2) (v : StoreState) :
    (s.setStoreSt i v).storeSt (1 - i.val) = s.storeSt (1 - i.val) := by
  fin_cases i <;> rfl

@[simp] theorem storeMem_setStoreSt (s : State) (i j : Nat) (v : StoreState) : (s.setStoreSt i v).storeMem j = s.storeMem j := by
  by_cases hi : i = 0 <;> simp [State.storeMem, State.setStoreSt, hi]

@[simp] theorem storeSt_setStoreMem (s : State) (i j : Nat) (m : Memory) : (s.setStoreMem i m).storeSt j = s.storeSt j := by
  by_cases hi : i = 0 <;> simp [State.storeSt, State.setStoreMem, hi]

@[simp] theorem storeMem_setStoreMem_self (s : State) (i : Nat) (m : Memory) : (s.setStoreMem i m).storeMem i = m := by
  by_cases hi : i = 0 <;> simp [State.storeMem, State.setStoreMem, hi]

theorem storeMem_setStoreMem_other (s : State) (i : Fin 2) (m : Memory) :
    (s.setStoreMem i m).storeMem (1 - i.val) = s.storeMem (1 - i.val) := by
  fin_cases i <;> rfl

theorem storeMem_congr {s t : State} (h0 : t.sched.image0 = s.sched.image0) (h1 : t.sched.image1 = s.sched.image1) (i : Nat) :
    t.storeMem i = s.storeMem i := by
  rw [State.storeMem, State.storeMem, h0, h1]

@[simp] theorem finish_storeMem (s0 s1 : State) (i : Nat) : (s0.finish s1).storeMem i = s1.storeMem i :=
  storeMem_congr (by simp) (by simp) i

theorem Only.setStoreMem {K : Nat → Prop} {ps : List Part} {s t : State} (i : Nat) (m : Memory) (hp : Part.sched ∈ ps)
    (h : Only K ps s t) : Only K ps s (t.setStoreMem i m) := h.set_sched _ hp

/-- A byte of memory after a write of bytes. -/
theorem Memory.byte_write (bs : List Byte) (m : Memory) (a x : Nat) :
    (m.write a bs).byte x = if a ≤ x ∧ x < a + bs.length then bs.getD (x - a) 0 else m.byte x := by
  by_cases hlo : x < a
  · rw [Memory.byte_write_lt bs m a x hlo, if_neg (by omega)]
  · by_cases hhi : a + bs.length ≤ x
    · rw [Memory.byte_write_ge bs m a x hhi, if_neg (by omega)]
    · obtain ⟨i, rfl⟩ := Nat.exists_eq_add_of_le (Nat.le_of_not_lt hlo)
      rw [Memory.byte_write_mid bs m a i (by omega), if_pos (by omega), Nat.add_sub_cancel_left]

-- `LOAD_CMD` (R100, R104).

theorem loadCmd_of_accepts {s : State} {a : Agent} {v : Word} (h : s.accepts a 0x10 R.LOAD_CMD.off v = true) :
    s.writeReg a 0x10 R.LOAD_CMD v = s.loadCmd v :=
  writeReg_of_accepts (by decide +kernel : R.LOAD_CMD.Alone 0x10 0) (if_pos rfl : banksOf R.LOAD_CMD (s.bankOf a 0x10) = [0]) h

/-- The store put under its checks. -/
def State.checkBegun (s : State) (i : Nat) : State :=
  { s.setStoreSt i .checking with sched := { (s.setStoreSt i .checking).sched with check := some (i, s.time.total) } }

theorem loadCmd_load (s : State) (i : Fin 2) : s.loadCmd (word (at_ 8 i + 1)) = s.checkBegun i := by
  have hload : bit (word (at_ 8 i + 1)) 0 = true := by fin_cases i <;> rfl
  have hstore : fld (word (at_ 8 i + 1)) 8 8 = i := by fin_cases i <;> rfl
  rw [State.loadCmd, hload, hstore, if_pos rfl]
  rfl

theorem loadCmd_clear (s : State) (i : Fin 2) : s.loadCmd (word (at_ 8 i + 2)) = s.clearStore i := by
  have hload : bit (word (at_ 8 i + 2)) 0 = false := by fin_cases i <;> rfl
  have hstore : fld (word (at_ 8 i + 2)) 8 8 = i := by fin_cases i <;> rfl
  rw [State.loadCmd, hload, hstore, if_neg Bool.false_ne_true]

theorem checkBegun_only (s : State) (i : Nat) : Only noRegs [.sched] s (s.checkBegun i) :=
  Only.set_sched _ (by decide) (Only.setStoreSt i _ (by decide) (Only.refl _ _ s))

theorem clearStore_only (s : State) (i : Nat) : Only noRegs [.sched] s (s.clearStore i) :=
  Only.setStoreSt _ _ (by decide) (Only.setStoreMem _ _ (by decide) (Only.refl _ _ s))

-- The checks' end (R100, R102).

/-- A store's checks ended, with what `LOAD_STAT` and the page's event show. -/
def State.checked (s : State) (i : Nat) (v : StoreState) (w : Word) (e : Nat) : State :=
  ((State.setStoreSt { s with sched := { s.sched with check := none } } i v).wr R.LOAD_STAT 0 w).raise 0x10 e

theorem checked_only (s : State) (i : Nat) (v : StoreState) (w : Word) (e : Nat) :
    Only (regsIn [R.LOAD_STAT.key 0, regKey 0 0x10 0 hEvt]) [.sched] s (s.checked i v w e) :=
  Only.raise (by simp [regsIn]) (Only.wr _ (by simp [regsIn])
    (Only.setStoreSt _ _ (by decide) ((Only.refl _ _ s).set_sched _ (by decide))))

theorem checked_gives (s y : State) (i : Nat) (v : StoreState) (w : Word) {e : Nat} (he : e < 64) :
    (y.finish (s.checked i v w e)).sched.check = none ∧ (y.finish (s.checked i v w e)).storeSt i = v
    ∧ (y.finish (s.checked i v w e)).rd R.LOAD_STAT = w ∧ bit ((y.finish (s.checked i v w e)).hdr 0x10 hEvt) e = true
    ∧ (y.finish (s.checked i v w e)).storeMem i = s.storeMem i := by
  refine ⟨?_, ?_, ?_, ?_, ?_⟩
  · rw [finish_sched_check]
    by_cases hi : i = 0 <;> simp [State.checked, State.setStoreSt, hi]
  · rw [finish_storeSt]
    exact storeSt_setStoreSt_self _ _ _
  · rw [finish_rd (by decide), State.checked, rd_raise (by decide), rd_wr_self]
  · rw [finish_hdr (by decide) (by decide) (by decide)]
    exact hdr_raise he
  · rw [finish_storeMem]
    exact storeMem_setStoreSt _ _ _ _

theorem loadDone_valid {s : State} {us i x : Nat} (hc : s.sched.check = some (i, x)) (hs : s.supervised = true)
    (h : loadChecks (s.storeMem i) (s.rd R.MESH_CFG) s.nv.otp s.sigRequired = none) :
    s.loadDone us = s.checked i .valid (word (at_ 48 0xFFFF + at_ 32 0xFFFF + at_ 16 i + us)) 0 := by
  simp [State.loadDone, State.checked, hc, hs, h]

theorem loadDone_refused {s : State} {us i x r sec ent : Nat} (hc : s.sched.check = some (i, x)) (hs : s.supervised = true)
    (h : loadChecks (s.storeMem i) (s.rd R.MESH_CFG) s.nv.otp s.sigRequired = some (r, sec, ent)) :
    s.loadDone us = s.checked i .refused (word (at_ 48 ent + at_ 32 sec + at_ 24 r + at_ 16 i + us)) 1 := by
  simp [State.loadDone, State.checked, hc, hs, h]

/-- With no store under check, or no supervisor, nothing ends (R15). -/
theorem loadDone_open {s : State} {us : Nat} (h : s.sched.check = none ∨ s.supervised = false) : s.loadDone us = s := by
  cases hc : s.sched.check with
  | none => simp [State.loadDone, hc]
  | some e => simp [State.loadDone, hc, h.resolve_left (by simp [hc])]

-- The store window (R104, R357, R363).

/-- A write of the window that lies in it, in a core that runs, meets the firewall and then the store. -/
theorem storeWindow_done {s : State} {m : Fin 9} {i : Fin 2} {off : Nat} {data : List Byte} (hlen : off + data.length ≤ 0x1000000)
    (hne : data ≠ []) (hup : s.pwr.coreUp = true) : exec (.storeWindowWrite m i off data) s
      = done s (match s.fwRefusal m false true (0x008004000000 + 0x1000000 * i.val + off) data.length with
        | some (cause, rule) => s.fwDenied m true false cause rule (0x008004000000 + 0x1000000 * i.val + off)
        | none => match s.storeWrite i off data with
          | (s1, true) => s1
          | (s1, false) => s1.decodeError m true false (0x008004000000 + 0x1000000 * i.val + off)) :=
  congrArg (done s) (if_pos ⟨hlen, hne, hup⟩)

/-- A store with bytes written into it. -/
def State.storeWritten (s : State) (i off : Nat) (data : List Byte) : State :=
  (s.setStoreMem i ((s.storeMem i).write off data)).setStoreSt i .written

theorem storeWritten_only (s : State) (i off : Nat) (data : List Byte) : Only noRegs [.sched] s (s.storeWritten i off data) :=
  Only.setStoreSt _ _ (by decide) (Only.setStoreMem _ _ (by decide) (Only.refl _ _ s))

theorem storeWritten_mem (s : State) (i off : Nat) (data : List Byte) :
    (s.storeWritten i off data).storeMem i = (s.storeMem i).write off data := by
  rw [State.storeWritten, storeMem_setStoreSt, storeMem_setStoreMem_self]

theorem storeWritten_other (s : State) (i : Fin 2) (off : Nat) (data : List Byte) :
    (s.storeWritten i off data).storeMem (1 - i.val) = s.storeMem (1 - i.val)
    ∧ (s.storeWritten i off data).storeSt (1 - i.val) = s.storeSt (1 - i.val) := by
  rw [State.storeWritten, storeMem_setStoreSt, storeMem_setStoreMem_other, storeSt_setStoreSt_other, storeSt_setStoreMem]
  exact ⟨rfl, rfl⟩

theorem storeWrite_open {s : State} {i off : Nat} {data : List Byte} (h : s.storeLocked i = false) :
    s.storeWrite i off data = (s.storeWritten i off data, true) := by
  simp [State.storeWrite, State.storeWritten, h]

/-- A store that is checked, armed or running shows a write as refused (R104). -/
def State.storeRefused (s : State) : State := (s.raise 0x10 5).report 0x10 0 0x0B s.schedStat (s.rd R.LOAD_STAT)

theorem storeWrite_locked {s : State} {i off : Nat} {data : List Byte} (h : s.storeLocked i = true) :
    s.storeWrite i off data = (s.storeRefused, false) := by
  rw [State.storeWrite, if_pos h]
  rfl

theorem storeRefused_reports (s : State) : s.reports s.storeRefused 0x10 0 0x0B s.schedStat (s.rd R.LOAD_STAT) :=
  report_bitt_congr rfl (getReg_setReg_ne (by decide)) rfl rfl rfl rfl

theorem storeRefused_event (s : State) : bit (s.storeRefused.hdr 0x10 hEvt) 5 = true := by
  rw [State.storeRefused, report_hdr (by decide)]
  exact hdr_raise (by decide)

theorem decodeError_last (s : State) (m : Nat) (write secure : Bool) (a : Nat) :
    (s.decodeError m write secure a).rd R.FW_LAST = fwLastWord m write secure 6 63 a := by
  rw [State.decodeError, rd_raise (by decide), rd_wr_self]

theorem decodeError_event (s : State) (m : Nat) (write secure : Bool) (a : Nat) :
    bit ((s.decodeError m write secure a).hdr 0x0C hEvt) 1 = true := hdr_raise (by decide)

theorem decodeError_bitt (s : State) (m : Nat) (write secure : Bool) (a : Nat) : (s.decodeError m write secure a).bitt = s.bitt := by
  rw [State.decodeError, raise_bitt, wr_bitt, State.count, wr_bitt]

theorem decodeError_hdr {s : State} {page off : Nat} (m : Nat) (write secure : Bool) (a : Nat)
    (h : regKey 0 page 0 off ∉ decodeKeys) : (s.decodeError m write secure a).hdr page off = s.hdr page off :=
  (Only.decodeError (K := regsIn decodeKeys) (ps := []) m write secure a (fun _ hk => hk) (Only.refl _ _ s)).getReg h

theorem storeRefused_only (s : State) :
    Only (regsIn (regKey 0 0x10 0 hEvt :: R.XB_DECODE.key 0 :: R.FW_LAST.key 0 :: regKey 0 0x0C 0 hEvt :: reportKeys)) [.bitt] s
      s.storeRefused :=
  Only.report _ _ _ _ _ (by simp [regsIn, reportKeys]) (by decide) (Only.raise (by simp [regsIn]) (Only.refl _ _ s))

/-- The firewall's refusal recorded, before its event and its report (R363). -/
def State.fwNoted (s : State) (m : Nat) (write secure : Bool) (cause rule a : Nat) : State :=
  (s.count R.FW_DENIED 0).wr R.FW_LAST 0 (fwLastWord m write secure cause rule a)

theorem fwNoted_last (s : State) (m : Nat) (write secure : Bool) (cause rule a : Nat) :
    (s.fwNoted m write secure cause rule a).rd R.FW_LAST = fwLastWord m write secure cause rule a := by
  rw [State.fwNoted, rd_wr_self]

theorem fwNoted_gen (s : State) (m : Nat) (write secure : Bool) (cause rule a : Nat) :
    (s.fwNoted m write secure cause rule a).rd R.FW_GEN = s.rd R.FW_GEN := by
  rw [State.fwNoted, rd_wr_ne (by decide) (by decide) (by decide), State.count, rd_wr_ne (by decide) (by decide) (by decide)]

/-- What a refusal shows (R363, R382). -/
theorem fwDenied_eq (s : State) (m : Nat) (write secure : Bool) (cause rule a : Nat) :
    s.fwDenied m write secure cause rule a = ((s.fwNoted m write secure cause rule a).raise 0x0C 0).report 0x0C 0 0x16
      (fwLastWord m write secure cause rule a) (s.rd R.FW_GEN) := by
  rw [← fwNoted_last s m write secure cause rule a, ← fwNoted_gen s m write secure cause rule a]
  rfl

theorem fwDenied_only (s : State) (m : Nat) (write secure : Bool) (cause rule a : Nat) :
    Only (regsIn (R.FW_DENIED.key 0 :: R.FW_LAST.key 0 :: regKey 0 0x0C 0 hEvt :: reportKeys)) [.bitt] s
      (s.fwDenied m write secure cause rule a) :=
  Only.report _ _ _ _ _ (by simp [regsIn, reportKeys]) (by decide)
    (Only.raise (by simp [regsIn]) (Only.wr _ (by simp [regsIn]) (Only.wr _ (by simp [regsIn]) (Only.refl _ _ s))))

theorem fwDenied_last (s : State) (m : Nat) (write secure : Bool) (cause rule a : Nat) :
    (s.fwDenied m write secure cause rule a).rd R.FW_LAST = fwLastWord m write secure cause rule a := by
  rw [fwDenied_eq, report_rd (by decide), rd_raise (by decide), fwNoted_last]

theorem fwDenied_reports (s : State) (m : Nat) (write secure : Bool) (cause rule a : Nat) :
    s.reports (s.fwDenied m write secure cause rule a) 0x0C 0 0x16 (fwLastWord m write secure cause rule a) (s.rd R.FW_GEN) := by
  have hcfg : ((s.fwNoted m write secure cause rule a).raise 0x0C 0).getReg (regKey 0 0x0B 0x0C R.RL_CFG.off)
      = s.getReg (regKey 0 0x0B 0x0C R.RL_CFG.off) := by
    rw [State.raise, State.setHdr, getReg_setReg_ne (by decide), State.fwNoted, State.wr, getReg_setReg_ne (by decide), State.count,
      State.wr, getReg_setReg_ne (by decide)]
  have htime : ((s.fwNoted m write secure cause rule a).raise 0x0C 0).time = s.time := by
    rw [raise_time, State.fwNoted, wr_time, State.count, wr_time]
  have hbitt : ((s.fwNoted m write secure cause rule a).raise 0x0C 0).bitt = s.bitt := by
    rw [raise_bitt, State.fwNoted, wr_bitt, State.count, wr_bitt]
  rw [State.reports, fwDenied_eq]
  exact report_bitt_congr hbitt hcfg (by rw [htime]) (by rw [htime]) (by rw [htime]) (by rw [htime])

theorem fwDenied_event (s : State) (m : Nat) (write secure : Bool) (cause rule a : Nat) :
    bit ((s.fwDenied m write secure cause rule a).hdr 0x0C hEvt) 0 = true := by
  rw [fwDenied_eq, report_hdr (by decide)]
  exact hdr_raise (by decide)

/-- Settles O11: `LOAD_CMD` by its two commands (`loadCmd_load`, `loadCmd_clear`), the checks' end by its outcome
(`checked_gives`), a write of the window by what the firewall and the store make of it (`storeWindow_done`). -/
theorem imageStores : Obligations.ImageStores := by
  unfold Obligations.ImageStores
  refine ⟨?load, ?clear, ?checked, ?open_, ?write, ?locked, ?refused⟩
  case load =>
    intro s a i h
    refine Gives.done (congrArg (done s) ((loadCmd_of_accepts h).trans (loadCmd_load s i))) ⟨?_, ?_, ?_, ?_, ?_, (checkBegun_only s i).frame⟩
    · rw [finish_storeSt]
      exact storeSt_setStoreSt_self s i .checking
    · rw [finish_sched_check]
      rfl
    · rw [finish_storeSt]
      exact storeSt_setStoreSt_other s i .checking
    · rw [finish_sched_image0]
      fin_cases i <;> rfl
    · rw [finish_sched_image1]
      fin_cases i <;> rfl
  case clear =>
    intro s a i h
    refine Gives.done (congrArg (done s) ((loadCmd_of_accepts h).trans (loadCmd_clear s i))) ⟨?_, ?_, ?_, ?_, (clearStore_only s i).frame⟩
    · rw [finish_storeSt, State.clearStore, storeSt_setStoreSt_self]
    · rw [finish_storeMem, State.clearStore, storeMem_setStoreSt, storeMem_setStoreMem_self]
    · rw [finish_storeSt, State.clearStore, storeSt_setStoreSt_other, storeSt_setStoreMem]
    · rw [finish_storeMem, State.clearStore, storeMem_setStoreSt, storeMem_setStoreMem_other]
  case checked =>
    intro s us i x hc hi hs
    rcases hres : loadChecks (s.storeMem i) (s.rd R.MESH_CFG) s.nv.otp s.sigRequired with _ | ⟨r, sec, ent⟩
    · obtain ⟨hcheck, hst, hstat, hevt, hmem⟩ := checked_gives s s i .valid
        (word (at_ 48 0xFFFF + at_ 32 0xFFFF + at_ 16 i + us.toNat)) (e := 0) (by decide)
      exact Gives.done (congrArg (done s) (loadDone_valid hc hs hres)) ⟨hcheck, fun _ => ⟨hst, hstat, hevt⟩,
        fun _ _ hbad => absurd hbad.symm (Option.some_ne_none _), hmem, (checked_only ..).frame⟩
    · obtain ⟨hcheck, hst, hstat, hevt, hmem⟩ := checked_gives s s i .refused
        (word (at_ 48 ent + at_ 32 sec + at_ 24 r + at_ 16 i + us.toNat)) (e := 1) (by decide)
      refine Gives.done (congrArg (done s) (loadDone_refused hc hs hres)) ⟨hcheck, fun hnone => absurd hnone (Option.some_ne_none _), ?_,
        hmem, (checked_only ..).frame⟩
      rintro r' pl heq
      obtain ⟨rfl, rfl⟩ := Prod.mk.inj (Option.some.inj heq)
      exact ⟨hst, hstat, hevt⟩
  case open_ =>
    intro s us h
    exact stays_gives (congrArg (done s) (loadDone_open h))
  case write =>
    intro s m i off data hlen hne hup hfw hopen
    have hdone : exec (.storeWindowWrite m i off data) s = done s (s.storeWritten i off data) := by
      rw [storeWindow_done hlen hne hup, hfw, storeWrite_open hopen]
    obtain ⟨hmem, hst⟩ := storeWritten_other s i off data
    refine Gives.done hdone ⟨?_, fun x => ?_, ?_, ?_, (storeWritten_only ..).frame⟩
    · rw [finish_storeSt, State.storeWritten, storeSt_setStoreSt_self]
    · rw [finish_storeMem, storeWritten_mem, Memory.byte_write]
    · rw [finish_storeMem, hmem]
    · rw [finish_storeSt, hst]
  case locked =>
    intro s m i off data hlen hne hup hfw hlocked
    have hdone : exec (.storeWindowWrite m i off data) s
        = done s (s.storeRefused.decodeError m true false (0x008004000000 + 0x1000000 * i.val + off)) := by
      rw [storeWindow_done hlen hne hup, hfw, storeWrite_locked hlocked]
    refine Gives.done hdone ⟨?_, ?_, ?_, ?_, ?_⟩
    · rw [finish_hdr (by decide) (by decide) (by decide), decodeError_hdr _ _ _ _ (by decide), storeRefused_event]
    · rw [finish_hdr (by decide) (by decide) (by decide), decodeError_event]
    · rw [finish_rd (by decide), decodeError_last]
    · rw [State.reports, finish_bitt, decodeError_bitt]
      exact storeRefused_reports s
    · exact (Only.decodeError _ _ _ _ (by simp [regsIn, decodeKeys]) (storeRefused_only s)).frame
  case refused =>
    rintro s m i off data ⟨cause, rule⟩ hlen hne hup hfw
    have hdone : exec (.storeWindowWrite m i off data) s
        = done s (s.fwDenied m true false cause rule (0x008004000000 + 0x1000000 * i.val + off)) := by
      rw [storeWindow_done hlen hne hup, hfw]
    refine Gives.done hdone ⟨?_, ?_, ?_, (fwDenied_only ..).frame⟩
    · rw [finish_rd (by decide), fwDenied_last]
    · rw [finish_hdr (by decide) (by decide) (by decide), fwDenied_event]
    · rw [State.reports, finish_bitt, finish_rd (by decide), fwDenied_last]
      exact fwDenied_reports ..

end Sys2Proof.Machine

/-! PROOFS. What the end of the data path leaves of the schedule engine, and the refutation of `Obligations.SwapsAndHalts`. -/

namespace Sys2Proof.Machine

theorem sluStop_only (s : State) (u : Nat) : Only anyReg [.slu] s (s.sluStop u) :=
  Only.wr _ trivial ((Only.refl _ _ s).set_slu _ (by decide))

theorem linkrxStop_only (s : State) (q : Nat) : Only anyReg [] s (s.linkrxStop q) :=
  Only.ite (Only.wr _ trivial (Only.refl _ _ s)) (Only.refl _ _ s)

theorem endPreempt_only (s : State) (p : Nat) : Only anyReg [.pans] s (s.endPreempt p) :=
  Only.set_pans _ (by decide) (Only.ite (Only.raise trivial (Only.refl _ _ s)) (Only.refl _ _ s))

theorem opsNow_only (s : State) : Only noRegs [.pans] s s.opsNow :=
  List.foldlRecOn _ _ (Only.refl _ _ s) fun _ ht _ _ => ht.set_pans _ (by decide)

theorem ethEvalAll_sched (s : State) : s.ethEvalAll.sched = s.sched :=
  (CtrlKept.refl s).ethEvalAll.same (p := .sched) (by decide)

/-- The units' ends at a halt write no part but their own (R111, R159, R187, R274). -/
theorem unitsStop_only (s : State) : Only anyReg [.slu, .pans] s ((List.range 256).foldl State.endPreempt
    ((List.range 256).foldl (fun s u => (s.sluStop u).linkrxStop u) s)) :=
  List.foldlRecOn _ _
    (List.foldlRecOn _ _ (Only.refl _ _ s) fun t ht u _ =>
      ht.trans (((sluStop_only t u).mono (fun _ h => h) (by decide)).trans ((linkrxStop_only _ u).mono (fun _ h => h) (by decide))))
    fun t ht p _ => ht.trans ((endPreempt_only t p).mono (fun _ h => h) (by decide))

/-- A halt adopts what is committed and due, and leaves pending what that leaves. -/
theorem haltNow_pend {s : State} {i r : Nat} (h : s.sched.run = some i) :
    (s.haltNow r).sched.pend = s.adoptAll.sched.pend := by
  have hops (t : State) : t.opsNow.sched = t.sched := (opsNow_only t).same (p := .sched) (by decide)
  have hunits (t : State) : ((List.range 256).foldl State.endPreempt
      ((List.range 256).foldl (fun s u => (s.sluStop u).linkrxStop u) t)).sched = t.sched :=
    (unitsStop_only t).same (p := .sched) (by decide)
  unfold State.haltNow
  simp only [h]
  rw [swapResult_sched, ethEvalAll_sched, hunits]
  show (s.adoptAll.opsNow.setStoreSt i .valid).sched.pend = _
  rw [setStoreSt_pend, hops]

/-- An armed halt at its tide (R111). -/
theorem dataPathHalt_armed {s : State} {x : Arm} (hb : s.atBoundary = true) (hdue : s.sup.haltDue = false)
    (hstandby : s.sched.standbyHalt = false) (hp : s.sched.pend = some x) (hhalt : x.halt = true) (htide : x.tide = s.time.tide)
    (hcancel : s.sched.cancel = false) : exec .dataPathHalt s = done s (s.dropPend.haltNow 2) := by
  show execDataPathHalt s = _
  simp [execDataPathHalt, hb, hdue, hstandby, hp, hhalt, htide, hcancel]

/-- The one committed set, adopted where it is due. -/
theorem adoptAll_of_due {s : State} {c : Commit} (hc : s.fab.commits = [c]) (ha : s.adopts c = true) :
    s.adoptAll = s.uncommitted.adopt c.set := by
  rw [State.adoptAll]
  simp only [hc, List.filter_cons, List.filter_nil, ha, Bool.not_true, if_true, Bool.false_eq_true, if_false,
    List.foldl_cons, List.foldl_nil]

/-- An arm of the epoch in force, adopted, is pending (R105). -/
theorem adoptArm_pend {s : State} (h : s.armHeld.epoch = s.time.epoch) : s.adoptArm.sched.pend = some s.armHeld := by
  rw [adoptArm_eq, if_neg (fun hne => hne.1 h), wakePorts_sched, raise_sched]
  rfl

/-- A state at a boundary at which an armed halt is due, and beside it an arm is committed and due to be adopted. -/
def armBesideHalt : State :=
  { sched := { run := some 0, pend := some { halt := true, store := 0, stress := false, tide := 0, epoch := 0 } }
    fab := { commits := [{ set := .arm, wait := 0 }] } }

/-- `ARM_CTRL` holds an arm of the epoch in force. -/
theorem armBesideHalt_epoch : armBesideHalt.dropPend.uncommitted.armHeld.epoch = armBesideHalt.dropPend.uncommitted.time.epoch := by
  decide +kernel

/-- The halt drops its own arm, and adopts the one committed beside it. -/
theorem armBesideHalt_pend : (armBesideHalt.dropPend.haltNow 2).sched.pend.isSome = true := by
  rw [haltNow_pend (i := 0) rfl, adoptAll_of_due (c := { set := .arm, wait := 0 }) rfl (adopts_arm rfl), State.adopt,
    adoptArm_pend armBesideHalt_epoch, Option.isSome_some]

/-- Refutes O12: its clause on a halt at its tide says that no arm is pending afterwards, but the halt adopts what is committed
and due, and where an arm is committed beside the halt's own, that one is pending then. -/
theorem not_swapsAndHalts : ¬ Obligations.SwapsAndHalts := by
  unfold Obligations.SwapsAndHalts
  rintro ⟨-, -, -, -, -, -, -, -, -, hhalt, -⟩
  obtain ⟨t, hexec, -, hnone, -⟩ := hhalt armBesideHalt { halt := true, store := 0, stress := false, tide := 0, epoch := 0 } 0
    rfl rfl rfl rfl rfl rfl rfl rfl
  have hdone := dataPathHalt_armed (s := armBesideHalt) rfl rfl rfl rfl rfl rfl rfl
  obtain rfl : armBesideHalt.finish (armBesideHalt.dropPend.haltNow 2) = t := Host.Outcome.next.inj (hdone.symm.trans hexec)
  have hsome := armBesideHalt_pend
  rw [finish_sched_pend] at hnone
  rw [hnone] at hsome
  exact Bool.false_ne_true hsome

end Sys2Proof.Machine

/-! PROOFS. What the units' work as time passes leaves unchanged: the heap but for the transfers that wait at it, the time, the
always-on domain, the heap's error counters and every event raised (spec/05 R118). -/

namespace Sys2Proof.Machine

-- What a step of the units' work leaves as it is.

/-- The offsets of the registers in which an error of the heap shows (R235, R237). -/
abbrev heapErrOffs : List Nat := [R.ERR_CORR.off, R.ERR_UNCORR.off, R.FRZ_INFO.off]

/-- A key of a register that shows no error of the heap. -/
abbrev offHeapErr (k : Nat) : Prop := k % 4096 ∉ heapErrOffs

/-- An entry of an array of registers that show no error of the heap. -/
abbrev Reg.OffHeapErr (r : Reg) (k : Nat := 0) : Prop := r.InPage k ∧ r.off + k * r.stride ∉ heapErrOffs

theorem offHeapErr_key {r : Reg} {u k a : Nat} (h : r.OffHeapErr k) : offHeapErr (r.key u k a) := by
  rw [offHeapErr, Reg.key_mod h.1.2]
  exact h.2

theorem offHeapErr_evt (page : Nat) : offHeapErr (regKey 0 page 0 hEvt) := by
  rw [offHeapErr, regKey_mod (by decide)]
  decide

/-- The parts that the units' work may change. -/
abbrev unitParts : List Part := [.bitt, .fab, .sched, .heap, .xbar, .links, .dma, .mesh, .net, .slu, .pans, .free]

/-- What the units' work leaves: time, the always-on domain's parts, the registers of the heap's errors, all of the heap but what
its pseudo-channels hold, the bytes that each of them has moved, and every event that is raised. -/
structure UnitWork (s t : State) : Prop where
  only : Only offHeapErr unitParts s t
  heap : t.heap = { s.heap with pch := t.heap.pch }
  bytes : ∀ j, (t.pc j).bytes = (s.pc j).bytes
  events : ∀ page i, bit (s.hdr page hEvt) i = true → bit (t.hdr page hEvt) i = true

theorem UnitWork.refl (s : State) : UnitWork s s := ⟨Only.refl _ _ s, rfl, fun _ => rfl, fun _ _ h => h⟩

theorem bit_setBit_of_bit {w : Word} {i j : Nat} (h : bit w j = true) : bit (setBit w i) j = true := by
  by_cases hj : j = i
  · subst hj
    exact bit_setBit (by
      by_contra hlt
      rw [bit, BitVec.getLsbD_of_ge _ _ (by omega)] at h
      exact Bool.false_ne_true h)
  · rwa [bit_setBit_ne hj]

section UnitWork

variable {s t : State} (h : UnitWork s t)
include h

/-- A change of parts outside the heap. -/
theorem UnitWork.parts {u : State} (hr : u.regs = t.regs) (hs : u.sent = t.sent) (hh : u.heap = t.heap)
    (hp : ∀ p, p ∉ unitParts → p.same t u) : UnitWork s u where
  only := h.only.parts hr hs hp
  heap := by rw [hh]; exact h.heap
  bytes j := by rw [State.pc, hh]; exact h.bytes j
  events page i hb := by rw [State.hdr, getReg_congr hr]; exact h.events page i hb

theorem UnitWork.set_fab (v) : UnitWork s { t with fab := v } :=
  h.parts rfl rfl rfl fun p hq => by cases p <;> first | rfl | exact absurd (by decide) hq
theorem UnitWork.set_sched (v) : UnitWork s { t with sched := v } :=
  h.parts rfl rfl rfl fun p hq => by cases p <;> first | rfl | exact absurd (by decide) hq
theorem UnitWork.set_xbar (v) : UnitWork s { t with xbar := v } :=
  h.parts rfl rfl rfl fun p hq => by cases p <;> first | rfl | exact absurd (by decide) hq
theorem UnitWork.set_links (v) : UnitWork s { t with links := v } :=
  h.parts rfl rfl rfl fun p hq => by cases p <;> first | rfl | exact absurd (by decide) hq
theorem UnitWork.set_dma (v) : UnitWork s { t with dma := v } :=
  h.parts rfl rfl rfl fun p hq => by cases p <;> first | rfl | exact absurd (by decide) hq
theorem UnitWork.set_mesh (v) : UnitWork s { t with mesh := v } :=
  h.parts rfl rfl rfl fun p hq => by cases p <;> first | rfl | exact absurd (by decide) hq
theorem UnitWork.set_net (v) : UnitWork s { t with net := v } :=
  h.parts rfl rfl rfl fun p hq => by cases p <;> first | rfl | exact absurd (by decide) hq
theorem UnitWork.set_slu (v) : UnitWork s { t with slu := v } :=
  h.parts rfl rfl rfl fun p hq => by cases p <;> first | rfl | exact absurd (by decide) hq
theorem UnitWork.set_pans (v) : UnitWork s { t with pans := v } :=
  h.parts rfl rfl rfl fun p hq => by cases p <;> first | rfl | exact absurd (by decide) hq
theorem UnitWork.set_free (v) : UnitWork s { t with free := v } :=
  h.parts rfl rfl rfl fun p hq => by cases p <;> first | rfl | exact absurd (by decide) hq
theorem UnitWork.set_bitt (v) : UnitWork s { t with bitt := v } :=
  h.parts rfl rfl rfl fun p hq => by cases p <;> first | rfl | exact absurd (by decide) hq

theorem UnitWork.emit (o : Output) : UnitWork s (t.emit o) := ⟨h.only.emit o, h.heap, h.bytes, h.events⟩

theorem UnitWork.wr {r : Reg} {u k : Nat} (v : Word) (hr : r.OffHeapErr k) : UnitWork s (t.wr r u v k) where
  only := h.only.wr v (offHeapErr_key hr)
  heap := h.heap
  bytes := h.bytes
  events page i hb := by rw [hdr_wr hr.1 (by decide)]; exact h.events page i hb

theorem UnitWork.raise (page i : Nat) : UnitWork s (t.raise page i) where
  only := h.only.raise (offHeapErr_evt page)
  heap := h.heap
  bytes := h.bytes
  events page' j hb := by
    have ht := h.events page' j hb
    rw [State.raise, State.setHdr, State.hdr, getReg_setReg]
    split
    · next he => rw [State.hdr, ← he]; exact bit_setBit_of_bit ht
    · exact ht

theorem UnitWork.foldl {α : Type} {f : State → α → State} (hf : ∀ u a, UnitWork s u → UnitWork s (f u a)) (xs : List α) :
    UnitWork s (xs.foldl f t) := foldl_keeps hf xs t h

theorem UnitWork.ite {u : State} {c : Prop} [Decidable c] (g : UnitWork s u) : UnitWork s (if c then t else u) := by
  split
  · exact h
  · exact g

/-- Transfers that wait at a pseudo-channel, changed. -/
theorem UnitWork.setDue (j : Nat) (xs : List SXfer) : UnitWork s (t.setPc j { t.pc j with due := xs }) where
  only := h.only.set_heap _ (by decide)
  heap := congrArg (fun x : Heap => { x with pch := (t.setPc j { t.pc j with due := xs }).heap.pch }) h.heap
  bytes i := by
    rw [← h.bytes i, State.pc, State.setPc, mget_mset]
    split
    · next he => rw [he]
    · rfl
  events := h.events

theorem UnitWork.ask (x : SXfer) : UnitWork s (t.ask x) := h.setDue _ _

theorem UnitWork.askOver (x : SXfer) : UnitWork s (t.askOver x) := by
  unfold State.askOver
  exact UnitWork.ite (h.setDue _ _) (h.ask x)

theorem UnitWork.report (page bank cls : Nat) (d0 d1 : Word) : UnitWork s (t.report page bank cls d0 d1) := by
  unfold State.report
  exact UnitWork.ite (h.set_bitt _) (UnitWork.ite (UnitWork.set_bitt (h.set_bitt _) _)
    (((h.wr _ (by decide)).raise _ _).set_bitt _))

theorem UnitWork.breach {r : Reg} (kind unit : Nat) (hr : r.OffHeapErr) : UnitWork s (t.breach r kind unit) := by
  have hc : UnitWork s (t.count r 0) := h.wr _ hr
  unfold State.breach
  dsimp only
  generalize t.count r 0 = u at hc
  have hl : UnitWork s (if (u.sched.brLast.any fun b => b.1 = u.rclk) then u
      else { u with sched := { u.sched with brLast := some (u.rclk, word (at_ 32 (u.time.tide % 2 ^ 32) + at_ 20 u.slot + at_ 16 kind + unit)) } }) :=
    UnitWork.ite hc (hc.set_sched _)
  exact (UnitWork.ite (hl.wr _ (by decide)) hl).report _ _ _ _ _

theorem UnitWork.respond (id : Nat) (err poison : Bool) (data : List Byte) : UnitWork s (t.respond id err poison data) := by
  unfold State.respond
  split
  · exact UnitWork.ite h (h.set_xbar _)
  · exact h

theorem UnitWork.decodeError (m : Nat) (write secure : Bool) (a : Nat) : UnitWork s (t.decodeError m write secure a) :=
  ((h.wr _ (by decide)).wr _ (by decide)).raise _ _

theorem UnitWork.enter (m : Nat) (secure write : Bool) (a len : Nat) (data : List Byte) (qos : Option Nat) (o : Origin) :
    UnitWork s (t.enter m secure write a len data qos o) := by
  have hr : UnitWork s (t.request m secure write a len data qos o).2 := h.set_xbar _
  show UnitWork s (State.noTarget _ _)
  unfold State.noTarget
  split
  · exact UnitWork.ite ((hr.decodeError ..).respond ..) hr
  · exact hr

end UnitWork

theorem UnitWork.trans {s t u : State} (h : UnitWork s t) (g : UnitWork t u) : UnitWork s u where
  only := h.only.trans g.only
  heap := by rw [g.heap, h.heap]
  bytes j := (g.bytes j).trans (h.bytes j)
  events page i hb := g.events page i (h.events page i hb)

end Sys2Proof.Machine

/-! PROOFS. The DMA engines, links, ports and feeders brought up to now, as the units' work (spec/05 R118). -/

namespace Sys2Proof.Machine

section UnitWork

variable {s t : State} (h : UnitWork s t)
include h

-- The DMA engines (R367, R515).

theorem UnitWork.dmaWriteOne (c : Nat) : UnitWork s (t.dmaWriteOne c) := by
  unfold State.dmaWriteOne
  dsimp only
  split
  · exact h
  · exact UnitWork.enter (h.set_dma _) ..

theorem UnitWork.dmaReadOne (c : Nat) : UnitWork s (t.dmaReadOne c) := by
  unfold State.dmaReadOne
  refine UnitWork.ite (UnitWork.enter (h.set_dma _) ..) ?_
  split
  · exact h
  · exact UnitWork.ite (UnitWork.enter (h.set_dma _) ..) (UnitWork.set_dma (UnitWork.enter (h.set_dma _) ..) _)

theorem UnitWork.writeTurn {u : State} (hu : t.writeTurn = some u) : UnitWork s u := by
  unfold State.writeTurn at hu
  dsimp only at hu
  split at hu
  · split at hu
    · cases hu; exact h.set_dma _
    · cases hu
  · split at hu
    · split at hu
      · cases hu
      · cases hu; exact h.set_dma _
    · cases hu; exact UnitWork.dmaWriteOne (h.set_dma _) _

theorem UnitWork.readTurn {u : State} (hu : t.readTurn = some u) : UnitWork s u := by
  unfold State.readTurn at hu
  dsimp only at hu
  split at hu
  · split at hu
    · cases hu; exact h.set_dma _
    · cases hu
  · split at hu
    · split at hu
      · cases hu
      · cases hu; exact h.set_dma _
    · cases hu; exact UnitWork.dmaReadOne (h.set_dma _) _

omit h in
theorem UnitWork.dmaTurns : ∀ (n : Nat) {t : State}, UnitWork s t → UnitWork s (State.dmaTurns n t)
  | 0, _, h => h
  | n + 1, t, h => by
    unfold State.dmaTurns
    split
    · next u hu =>
      have hw := h.writeTurn hu
      refine UnitWork.dmaTurns n ?_
      cases hr : u.readTurn with
      | none => exact hw
      | some v => exact hw.readTurn hr
    · split
      · next u hu => exact UnitWork.dmaTurns n (h.readTurn hu)
      · exact h

theorem UnitWork.dmaNow : UnitWork s t.dmaNow := UnitWork.ite (UnitWork.dmaTurns _ h) h

-- The links: delayed cells, and expected cells that are absent (R138, R182, R491 to R494, R500).

theorem UnitWork.queueCell (q : Nat) (ws : List Word) : UnitWork s (t.queueCell q ws) := h.set_links _

theorem UnitWork.freeBuf (q type : Nat) : UnitWork s (t.freeBuf q type) := h.set_links _

theorem UnitWork.flood (except : Option Nat) (ws : List Word) : UnitWork s (t.flood except ws) :=
  h.foldl (fun _ _ hu => UnitWork.ite hu (hu.queueCell _ _)) _

theorem UnitWork.closeAdopt (origin : Nat) (l : Lsa) : UnitWork s (t.closeAdopt origin l) :=
  UnitWork.ite (UnitWork.set_fab (((h.wr _ (by decide)).wr _ (by decide)).wr _ (by decide)) _) h

theorem UnitWork.lsaTake (q : Nat) (ws : List Word) : UnitWork s (t.lsaTake q ws) :=
  UnitWork.ite (h.wr _ (by decide)) ((UnitWork.flood (h.set_mesh _) _ _).closeAdopt _ _)

theorem UnitWork.controlPass (q : Nat) (ws : List Word) (t2 t3 t4 : Nat) : UnitWork s (t.controlPass q ws t2 t3 t4) := by
  have hf : UnitWork s (t.freeBuf q 2) := h.freeBuf q 2
  exact UnitWork.ite (hf.wr _ (by decide)) (UnitWork.ite (hf.lsaTake q ws) (UnitWork.ite (hf.queueCell q _)
    (UnitWork.ite (hf.set_mesh _) hf)))

theorem UnitWork.meshSend (dst : Nat) (ws : List Word) : UnitWork s (t.meshSend dst ws) := by
  unfold State.meshSend
  split
  · exact h.queueCell _ _
  · exact h

theorem UnitWork.meshPass (q : Nat) (ws : List Word) : UnitWork s (t.meshPass q ws) :=
  UnitWork.ite ((h.freeBuf q 3).wr _ (by decide)) (UnitWork.ite (h.set_mesh _) ((h.freeBuf q 3).meshSend _ _))

theorem UnitWork.passHeld (q : Nat) : UnitWork s (t.passHeld q) :=
  UnitWork.foldl (h.set_links _) (fun _ _ hu => UnitWork.ite (hu.controlPass ..) (hu.meshPass ..)) _

theorem UnitWork.linkBreach (q : Nat) : UnitWork s (t.linkBreach q) := h.breach _ _ (by decide)

theorem UnitWork.expectNext (q stream time : Nat) : UnitWork s (t.expectNext q stream time) := by
  unfold State.expectNext
  split
  · exact h.set_links _
  · exact h

theorem UnitWork.absentNow : UnitWork s t.absentNow := by
  refine h.foldl (fun u e hu => ?_) _
  dsimp only
  have hb : UnitWork s (if u.cellWaits e.1 e.2.2 = true ∨ (!u.expects e.2.1 e.1) = true then u else u.linkBreach e.2.1) :=
    UnitWork.ite hu (hu.linkBreach _)
  split
  · exact hb.expectNext ..
  · exact hb.set_links _

theorem UnitWork.linksNow : UnitWork s t.linksNow := UnitWork.absentNow (h.foldl (fun _ _ hu => hu.passHeld _) _)

-- The ports (R334, R344, R345).

theorem UnitWork.flightOut (e : Nat) (x : Flight) : UnitWork s (t.flightOut e x) :=
  UnitWork.ite (h.wr _ (by decide)) (((h.wr _ (by decide)).wr _ (by decide)).emit _)

theorem UnitWork.flightsNow (e : Nat) : UnitWork s (t.flightsNow e) :=
  UnitWork.ite h (UnitWork.foldl (h.set_net _) (fun _ _ hu => hu.flightOut ..) _)

-- The feeders (R128, R263).

theorem UnitWork.feedBreach (f n : Nat) : UnitWork s (t.feedBreach f n) := h.foldl (fun _ _ hu => hu.breach _ _ (by decide)) _

theorem UnitWork.feedLand (f : Nat) (x : FLand) : UnitWork s (t.feedLand f x) := UnitWork.feedBreach (h.set_pans _) _ _

theorem UnitWork.emitOne (f entry addr pmask n : Nat) : UnitWork s (t.emitOne f entry addr pmask n) :=
  UnitWork.foldl (UnitWork.feedBreach (h.set_pans _) _ _) (fun _ _ hu => hu.set_pans _) _

theorem UnitWork.feedNext {f now : Nat} {u : State} (hu : t.feedNext f now = some u) : UnitWork s u := by
  unfold State.feedNext at hu
  dsimp only at hu
  split at hu
  · split at hu
    · cases hu; exact UnitWork.feedLand (h.set_pans _) _ _
    · cases hu
  · split at hu
    · cases hu; exact UnitWork.emitOne (h.set_pans _) ..
    · cases hu
  · cases hu

omit h in
theorem UnitWork.feedRun (f now : Nat) : ∀ (n : Nat) {t : State}, UnitWork s t → UnitWork s (t.feedRun f now n)
  | 0, _, h => h
  | n + 1, t, h => by
    unfold State.feedRun
    split
    · next u hu => exact UnitWork.feedRun f now n (h.feedNext hu)
    · exact h

theorem UnitWork.feedTo (f now : Nat) : UnitWork s (t.feedTo f now) := UnitWork.feedRun f now _ h

end UnitWork

end Sys2Proof.Machine

/-! PROOFS. The pans, beam rows and rakes brought up to now, as the units' work, and the passing of time (spec/05 R118). -/

namespace Sys2Proof.Machine

section UnitWork

variable {s t : State} (h : UnitWork s t)
include h

omit h in
/-- Of two states that a function answers with a result. -/
theorem UnitWork.ite_fst {α : Type} {x y : State × α} {c : Prop} [Decidable c] (hx : UnitWork s x.1) (hy : UnitWork s y.1) :
    UnitWork s (if c then x else y).1 := by
  split
  · exact hx
  · exact hy

-- The pans' banks (R126, R271, R278).

theorem UnitWork.incsTo (p now : Nat) : UnitWork s (t.incsTo p now) :=
  UnitWork.ite (h.set_pans _) (UnitWork.raise (UnitWork.wr (h.set_pans _) _ (by decide)) _ _)

-- The beam rows (R125, R255, R311 to R319, R322).

theorem UnitWork.rowReport (r : Nat) : UnitWork s (t.rowReport r) := h.report ..

theorem UnitWork.psCount (r hi lo n : Nat) : UnitWork s (t.psCount r hi lo n) := by
  have hc : UnitWork s (t.countf R.BF_PS_ERR (16 * r) hi lo n) := h.wr _ (by decide)
  exact UnitWork.ite h (UnitWork.ite hc (UnitWork.rowReport (hc.set_pans _) r))

theorem UnitWork.vbCount (r hi lo : Nat) : UnitWork s (t.vbCount r hi lo) := by
  have hc : UnitWork s (t.countf R.BF_VB_ERR (16 * r) hi lo) := h.wr _ (by decide)
  exact UnitWork.ite hc (UnitWork.rowReport (hc.set_pans _) r)

omit h in
theorem UnitWork.satCount (r : Nat) : ∀ (n : Nat) {t : State}, UnitWork s t → UnitWork s (t.satCount r n)
  | 0, _, h => h
  | n + 1, _, h => UnitWork.satCount r n (UnitWork.rowReport (h.wr _ (by decide)) r)

theorem UnitWork.psExport (r : Nat) (cl : Closing) (us : List (Int × Int)) (miss : List Bool) (gap poison : Bool) :
    UnitWork s (t.psExport r cl us miss gap poison) := by
  have hs (n : Nat) : UnitWork s (t.satCount r n) := UnitWork.satCount r n h
  exact UnitWork.ite h (UnitWork.ite ((hs _).psCount ..) (UnitWork.ite ((hs _).psCount ..) ((hs _).set_pans _)))

theorem UnitWork.psumAbsent (q row seq : Nat) : UnitWork s (t.psumAbsent q row seq) :=
  UnitWork.ite (h.set_links _) (h.linkBreach q)

theorem UnitWork.psTake (r k : Nat) (w : Word) : UnitWork s (t.psTake r k w).1 :=
  UnitWork.psCount (UnitWork.foldl (h.set_pans _) (fun _ _ hu => hu.psumAbsent ..) _) ..

theorem UnitWork.psImport (r : Nat) (cl : Closing) : UnitWork s (t.psImport r cl).1 := by
  unfold State.psImport
  split
  · exact h
  · exact h.psTake ..

theorem UnitWork.beamReg (v : Int) : UnitWork s (t.beamReg v).2 := by
  unfold State.beamReg
  split
  · exact h
  · exact h.set_free _

omit h in
theorem UnitWork.beamRegs : ∀ (us : List (Int × Int)) {t : State}, UnitWork s t → UnitWork s (t.beamRegs us).1
  | [], _, h => h
  | _ :: us, _, h => UnitWork.beamRegs us ((h.beamReg _).beamReg _)

theorem UnitWork.rsHand (n u m j nu : Nat) (v : Option (Int × Int)) (gap poison : Bool) :
    UnitWork s (t.rsHand n u m j nu v gap poison) := UnitWork.askOver (h.set_slu _) _

theorem UnitWork.rsRecord (r n j nu : Nat) (vs : List (Int × Int)) (miss : List Bool) (gap poison : Bool) :
    UnitWork s (t.rsRecord r n j nu vs miss gap poison) :=
  UnitWork.ite h (h.foldl (fun _ _ hu => hu.foldl (fun _ _ hx => hx.rsHand ..) _) _)

theorem UnitWork.writerRing (base spanW : Word) (ptr : Nat) : UnitWork s (t.writerRing base spanW ptr).2 := by
  unfold State.writerRing
  split
  · exact h.set_free _
  · exact h

omit h in
theorem UnitWork.writerAsk (r n : Nat) (g : Nat × Nat × Nat) (last : Dest) :
    ∀ (xs : List (Nat × List Byte)) {t : State}, UnitWork s t → UnitWork s (t.writerAsk r n g last xs)
  | [], _, h => h
  | _ :: xs, _, h => UnitWork.writerAsk r n g last xs (h.ask _)

theorem UnitWork.vbBegin (r gen z nu j : Nat) : UnitWork s (t.vbBegin r gen z nu j) := by
  have hc (c : Prop) [Decidable c] : UnitWork s (if c then t.vbCount r 63 48 else t) := UnitWork.ite (h.vbCount ..) h
  exact UnitWork.ite ((hc _).set_pans _) (UnitWork.wr ((hc _).set_pans _) _ (by decide))

theorem UnitWork.vbFinish (r n : Nat) (v : VBlk) : UnitWork s (t.vbFinish r n v) :=
  UnitWork.ite (h.set_pans _) (UnitWork.writerAsk _ _ _ _ _ (UnitWork.writerRing (h.set_pans _) ..))

theorem UnitWork.vbRecord (r : Nat) (cl : Closing) (vs : List (Int × Int)) (miss : List Bool) (gap poison : Bool) :
    UnitWork s (t.vbRecord r cl vs miss gap poison) := by
  unfold State.vbRecord
  split
  · exact h
  · next k nu j _ =>
    dsimp only
    have hr : UnitWork s (if nu < t.chanC then t.rsRecord r (cl.t + 43) j nu vs miss gap poison else t) :=
      UnitWork.ite (h.rsRecord ..) h
    generalize (if nu < t.chanC then t.rsRecord r (cl.t + 43) j nu vs miss gap poison else t) = u at hr
    have hb : UnitWork s (if k % 32 = 0 then u.vbBegin r cl.gen (k / 32) nu j else u) := UnitWork.ite (hr.vbBegin ..) hr
    split
    · exact hb
    · exact UnitWork.ite hb (UnitWork.ite (hb.vbFinish ..) (hb.set_pans _))

theorem UnitWork.detect (r : Nat) (cl : Closing) (vs : List (Int × Int)) (miss : List Bool) (gap poison : Bool) :
    UnitWork s (t.detect r cl vs miss gap poison) := h.set_pans _

theorem UnitWork.seqReport (u : SeqUnit) : UnitWork s (t.seqReport u) := by
  unfold State.seqReport
  refine UnitWork.ite h ?_
  have hset (q : Seq) : UnitWork s (t.setSeq u q) := by cases u <;> exact h.set_pans _
  cases u <;> exact (hset _).report ..

theorem UnitWork.panOrder (p : Nat) : UnitWork s (t.panOrder p) := UnitWork.seqReport ((h.wr _ (by decide)).raise _ _) _

theorem UnitWork.closeStep (r : Nat) (cl : Closing) (ch : ChainSum) : UnitWork s (t.closeStep r cl ch) := by
  unfold State.closeStep
  extract_lets b old last n
  have himp : UnitWork s (if last = true then t.psImport r cl
      else (t, List.replicate 64 (0, 0), List.replicate 64 false, false, false)).1 := by
    split
    · exact h.psImport r cl
    · exact h
  generalize (if last = true then t.psImport r cl else _) = x at himp
  obtain ⟨u, rho, miss, g, p⟩ := x
  dsimp -zeta only at himp ⊢
  extract_lets gap poison us b0 s0 s1 vs clips s2 s3
  have h0 : UnitWork s s0 := UnitWork.set_pans (UnitWork.beamRegs us himp) _
  have h1 : UnitWork s s1 := UnitWork.ite (h0.wr _ (by decide)) h0
  have h2 : UnitWork s s2 := UnitWork.ite h1 (h1.wr _ (by decide))
  have h3 : UnitWork s s3 := h2.psExport ..
  refine UnitWork.ite h0 ?_
  split
  · exact h3
  · exact h3.vbRecord ..
  · exact h3.detect ..

theorem UnitWork.settleSum (r n : Nat) (ch : ChainSum) : UnitWork s (t.settleSum r n ch) := by
  unfold State.settleSum
  dsimp only
  split
  · exact UnitWork.set_pans (UnitWork.closeStep (h.set_pans _) ..) _
  · exact UnitWork.panOrder (h.set_pans _) _

theorem UnitWork.rowDue (r now : Nat) : UnitWork s (t.rowDue r now) := by
  refine h.foldl (fun u e hu => ?_) _
  split
  · exact hu.settleSum ..
  · exact hu

-- The rakes (R280, R285, R291, R298 to R302).

theorem UnitWork.setBlk (k id : Nat) (b : Option RBlk) : UnitWork s (t.setBlk k id b) := h.set_pans _

theorem UnitWork.pushW (k : Nat) (ws : List RWrite) : UnitWork s (t.pushW k ws) := h.set_pans _

theorem UnitWork.tally (k : Nat) (n : Tally) : UnitWork s (t.tally k n) := by
  have h1 : UnitWork s (if n.promoted = 0 then t else t.count R.RK_PROMOTED (4 * k) n.promoted) := UnitWork.ite h (h.wr _ (by decide))
  unfold State.tally
  extract_lets s1 s2 s3
  have h2 : UnitWork s s2 := UnitWork.ite h1 (h1.wr _ (by decide))
  have h3 : UnitWork s s3 := UnitWork.ite h2 (h2.wr _ (by decide))
  exact UnitWork.ite h3 (h3.wr _ (by decide))

theorem UnitWork.startDump (k : Nat) (b : RBlk) (recd : List Word) : UnitWork s (t.startDump k b recd).1 := by
  have hf (c : Prop) [Decidable c] : UnitWork s (if c then t.fresh else (0, t)).2 := by
    split
    · exact h.set_free _
    · exact h
  have hw (c : Prop) [Decidable c] {v : Rake} {w : Word} : UnitWork s (((if c then t.fresh else (0, t)).2.setRk k v).wr R.RK_DUMP_PTR (4 * k) w) :=
    UnitWork.wr ((hf c).set_pans _) _ (by decide)
  exact UnitWork.ite ((hw _).wr _ (by decide)) (hw _)

theorem UnitWork.decideBlk (k : Nat) (b : RBlk) : UnitWork s (t.decideBlk k b).1 := by
  unfold State.decideBlk
  split
  · exact UnitWork.ite_fst h (UnitWork.ite_fst h (h.startDump ..))
  · exact h

theorem UnitWork.workPromote (k : Nat) (b : RBlk) (n : Nat) : UnitWork s (t.workPromote k b n) := by
  have hd (x : Tally) (ws : List RWrite) : UnitWork s (((t.decideBlk k b).1.tally k x).pushW k ws) :=
    ((h.decideBlk k b).tally k x).pushW k ws
  unfold State.workPromote
  refine UnitWork.ite ?_ ((hd _ _).setBlk ..)
  split
  · exact UnitWork.ite ((hd _ _).setBlk ..) (UnitWork.ite ((hd _ _).setBlk ..) (((hd _ _).pushW ..).setBlk ..))
  · exact (hd _ _).setBlk ..

theorem UnitWork.workFlush (k : Nat) (b : RBlk) (n : Nat) : UnitWork s (t.workFlush k b n) := by
  unfold State.workFlush
  split
  next u c hx =>
  have hu : UnitWork s u := by
    split at hx
    · show UnitWork s (u, c).1
      rw [← hx]
      exact UnitWork.ite_fst (UnitWork.set_sched (h.startDump ..) _) h
    · cases hx
      exact h
  refine UnitWork.ite (hu.setBlk ..) ?_
  exact UnitWork.ite (UnitWork.setBlk (((hu.tally ..).pushW ..).pushW ..) ..) (((hu.tally ..).pushW ..).setBlk ..)

theorem UnitWork.workSave (k : Nat) (b : RBlk) (n : Nat) : UnitWork s (t.workSave k b n) := by
  unfold State.workSave
  split
  · exact (h.setBlk ..).pushW ..
  · exact h

theorem UnitWork.workBlk (k id n : Nat) : UnitWork s (t.workBlk k id n) := by
  unfold State.workBlk
  split
  · exact h
  · split
    · exact h.workPromote ..
    · exact h.workFlush ..
    · exact h.workSave ..
    · exact h

theorem UnitWork.discardStream (k : Nat) : UnitWork s (t.discardStream k) :=
  UnitWork.report (UnitWork.set_pans (h.wr (r := R.RK_ERR) _ (by decide)) _) ..

theorem UnitWork.meetStream (k port : Nat) (st : Stream) : UnitWork s (t.meetStream k port st).1 := by
  unfold State.meetStream
  dsimp only
  split
  · exact UnitWork.ite h (h.discardStream k)
  · split
    · exact h.setBlk ..
    · split
      · exact (h.setBlk ..).discardStream k
      · exact h.setBlk ..

theorem UnitWork.arrive (k id e : Nat) (x : AccEntry) (tr : Trailer) (n : Nat) : UnitWork s (t.arrive k id e x tr n) := by
  unfold State.arrive
  split
  · exact h
  · refine UnitWork.ite ?_ (UnitWork.ite ((h.setBlk ..).workBlk ..) (h.setBlk ..))
    exact (UnitWork.setBlk (UnitWork.ite (h.breach _ _ (by decide)) h) ..).workBlk ..

theorem UnitWork.streamStep (k n port : Nat) (st : Stream) : UnitWork s (t.streamStep k n port st) := by
  unfold State.streamStep
  extract_lets e r s1
  have h1 : UnitWork s s1 := h.set_pans _
  have hm : UnitWork s (if e = 0 then s1.meetStream k port st else (s1, st.blk)).1 := UnitWork.ite_fst (h1.meetStream ..) h1
  generalize (if e = 0 then s1.meetStream k port st else (s1, st.blk)) = x at hm
  obtain ⟨u, blk⟩ := x
  dsimp only at hm ⊢
  have hs (x : Rake) : UnitWork s (if 4098 ≤ e then u else u.setRk k x) := UnitWork.ite hm (hm.set_pans _)
  cases blk <;> cases st.bank
  · exact hs _
  · exact (hs _).set_pans _
  · exact (hs _).arrive ..
  · exact UnitWork.arrive ((hs _).set_pans _) ..

theorem UnitWork.rakeTake (k : Nat) (x : RLand) : UnitWork s (t.rakeTake k x) := by
  have hset (v : Rake) : UnitWork s (t.setRk k v) := h.set_pans _
  unfold State.rakeTake
  dsimp only
  split
  · exact hset _
  · exact ((hset _).setBlk ..).workBlk ..

omit h in
theorem UnitWork.arrivals (k now : Nat) : ∀ (n : Nat) {t : State}, UnitWork s t → UnitWork s (t.arrivals k now n)
  | 0, _, h => h
  | n + 1, t, h => by
    have ht (x : RLand) := UnitWork.arrivals k now n (h.rakeTake k x)
    have hs (m port : Nat) (st : Stream) := UnitWork.arrivals k now n (h.streamStep k m port st)
    unfold State.arrivals
    split
    · exact h
    · exact UnitWork.ite (ht _) h
    · exact UnitWork.ite (hs ..) h
    · exact UnitWork.ite (UnitWork.ite (ht _) h) (UnitWork.ite (hs ..) h)

theorem UnitWork.rakeNow (k : Nat) : UnitWork s (t.rakeNow k) := UnitWork.arrivals _ _ _ h

theorem UnitWork.fillTo (p now : Nat) : UnitWork s (t.fillTo p now) := by
  unfold State.fillTo
  split
  · exact h
  · extract_lets k first upto b fault none0 s1 s2 v s3
    have h1 : UnitWork s s1 := UnitWork.ite (h.wr _ (by decide)) h
    have h2 : UnitWork s s2 := h1.foldl (fun _ _ hu => UnitWork.set_pans (UnitWork.ite (hu.wr _ (by decide)) hu) _) _
    have h3 : UnitWork s s3 := h2.set_pans _
    refine UnitWork.ite ?_ (h2.set_pans _)
    match b with
    | some _ => exact h3.setBlk ..
    | none => exact h3

end UnitWork

/-- The units brought up to now. -/
theorem unitWork_unitsNow (s : State) : UnitWork s s.unitsNow :=
  unitsNow_keeps (P := UnitWork s) (fun _ h => h.dmaNow) (fun _ h => h.linksNow) (fun _ e h => h.flightsNow e)
    (fun _ f n h => h.feedTo f n) (fun _ r n h => h.rowDue r n) (fun _ p n h => h.incsTo p n) (fun _ k h => h.rakeNow k)
    (fun _ p n h => h.fillTo p n) (UnitWork.refl s)

end Sys2Proof.Machine

/-! PROOFS. What the passing of a tide keeps, tide boundaries and openings of epochs, and the settlement of
`Obligations.TidesAndEpochsAdvance`. -/

namespace Sys2Proof.Machine

-- The moment, the heap's bytes and the memory that survives a loss of power, kept.

/-- The same SCLK of the same tide, with the heap's bytes and the non-volatile memory as they were. -/
structure TideKept (s t : State) : Prop where
  tide : t.time.tide = s.time.tide
  pos : t.time.pos = s.time.pos
  total : t.time.total = s.time.total
  epoch : t.time.epoch = s.time.epoch
  mem : t.heap.mem = s.heap.mem
  nv : t.nv = s.nv

theorem TideKept.refl (s : State) : TideKept s s := ⟨rfl, rfl, rfl, rfl, rfl, rfl⟩

theorem TideKept.trans {s t u : State} (h : TideKept s t) (g : TideKept t u) : TideKept s u :=
  ⟨g.tide.trans h.tide, g.pos.trans h.pos, g.total.trans h.total, g.epoch.trans h.epoch, g.mem.trans h.mem, g.nv.trans h.nv⟩

theorem TideKept.of_time {s t : State} (htime : t.time = s.time) (hmem : t.heap.mem = s.heap.mem) (hnv : t.nv = s.nv) :
    TideKept s t :=
  ⟨by rw [htime], by rw [htime], by rw [htime], by rw [htime], hmem, hnv⟩

theorem TideKept.of_only {K : Nat → Prop} {ps : List Part} {s t : State} (h : Only K ps s t)
    (hp : ∀ p ∈ [Part.time, .heap, .nv], p ∉ ps := by decide) : TideKept s t :=
  .of_time (h.same (p := .time) (hp _ (by decide))) (congrArg Heap.mem (h.same (p := .heap) (hp _ (by decide))))
    (h.same (p := .nv) (hp _ (by decide)))

theorem UnitWork.time {s t : State} (h : UnitWork s t) : t.time = s.time := h.only.same (p := .time) (by decide)

theorem UnitWork.mem {s t : State} (h : UnitWork s t) : t.heap.mem = s.heap.mem := by rw [h.heap]

theorem UnitWork.tideKept {s t : State} (h : UnitWork s t) : TideKept s t :=
  .of_time h.time h.mem (h.only.same (p := .nv) (by decide))

-- The passing of time within a tide.

/-- What counting and the units' events do to what is known of a moment and the SCLK still to pass, the passing of time does. -/
theorem passBy_ends {P : State → Nat → Prop} (count : ∀ (s : State) (d n : Nat), d ≤ n → P s n → P (s.advance d) (n - d))
    (units : ∀ (s : State) (n : Nat), P s n → P s.unitsNow n) :
    ∀ (fuel : Nat) {s : State} (n : Nat), P s n → P (State.passBy fuel s n) 0
  | 0, s, n, h => by
    have hall := count s n n le_rfl h
    rwa [Nat.sub_self] at hall
  | fuel + 1, s, n, h => by
    have hall := count s n n le_rfl h
    rw [Nat.sub_self] at hall
    unfold State.passBy
    split
    · exact hall
    · dsimp only
      split
      · next hd => exact passBy_ends count units fuel _ (units _ _ (count _ _ _ hd h))
      · exact hall

theorem pass_total (s : State) (n : Nat) : (s.pass n).time.total = s.time.total + n :=
  passBy_ends (P := fun u k => u.time.total + k = s.time.total + n)
    (fun u d k hd h => by rw [advance_total, Nat.add_assoc, Nat.add_sub_cancel' hd, h])
    (fun u k h => by rw [(unitWork_unitsNow u).time, h]) _ n rfl

/-- What the passing of time keeps: the tide and the epoch, the heap's bytes and the non-volatile memory. -/
theorem pass_tide (s : State) (n : Nat) : (s.pass n).time.tide = s.time.tide ∧ (s.pass n).time.epoch = s.time.epoch
    ∧ (s.pass n).heap.mem = s.heap.mem ∧ (s.pass n).nv = s.nv := by
  refine pass_keeps (P := fun u => u.time.tide = s.time.tide ∧ u.time.epoch = s.time.epoch ∧ u.heap.mem = s.heap.mem ∧ u.nv = s.nv)
    (fun _ _ h => h) (fun u h => ?_) n ⟨rfl, rfl, rfl, rfl⟩
  have hu := (unitWork_unitsNow u).tideKept
  exact ⟨hu.tide.trans h.1, hu.epoch.trans h.2.1, hu.mem.trans h.2.2.1, hu.nv.trans h.2.2.2⟩

-- What a tide boundary does.

theorem unsupCheck_kept (s : State) : TideKept s s.unsupCheck := by
  unfold State.unsupCheck
  split
  · exact .of_time rfl rfl rfl
  · exact .refl s

theorem budgetCheck_kept (s : State) : TideKept s s.budgetCheck := by
  have hbreach (js : List Nat) : UnitWork s (js.foldl (fun s j => s.breach R.BR_BUDGET 2 j) s) :=
    (UnitWork.refl s).foldl (fun _ _ hu => hu.breach _ _ (by decide)) js
  exact (hbreach _).tideKept.trans (.of_time rfl rfl rfl)

theorem setRole_only (s : State) (v : Role) : Only anyReg [.mesh] s (s.setRole v) :=
  Only.ite (Only.refl _ _ s) (Only.raise trivial (Only.wr _ trivial ((Only.refl _ _ s).set_mesh _ (by decide))))

theorem demote_time (s : State) : s.demote.time = { s.time with armPend := false } := by rw [State.demote, wr_time]

theorem demote_kept (s : State) : TideKept s s.demote := by
  have htime := demote_time s
  refine ⟨by rw [htime], by rw [htime], by rw [htime], by rw [htime], ?_, ?_⟩
  · rw [State.demote, wr_heap]
  · rw [State.demote, wr_nv]

theorem roleEval_kept (s : State) : TideKept s s.roleEval := by
  have hpend : TideKept s { s with mesh := { s.mesh with adoptPend := s.adoptionDue } } := .of_time rfl rfl rfl
  have hdemote (c : Prop) [Decidable c] (u : State) : TideKept u (if c then u.demote else u) := by
    split
    · exact demote_kept u
    · exact .refl u
  exact (hpend.trans (hdemote _ _)).trans (.of_only (setRole_only _ _))

theorem recentreDue_kept (s : State) : TideKept s s.recentreDue :=
  List.foldlRecOn _ _ (.refl s) fun u hu j _ => by
    split
    · exact hu.trans (.of_time rfl rfl rfl)
    · exact hu

theorem svRearm_kept (s : State) (i : Nat) : TideKept s (s.svRearm i) := by
  unfold State.svRearm
  split
  · exact .of_only ((Only.refl noRegs [.sup] s).setSv i .qualifying (by decide))
  · exact .refl s

theorem romRearm_kept (s : State) : TideKept s s.romRearm := by
  unfold State.romRearm
  split
  · refine List.foldlRecOn _ _ (.of_time rfl rfl rfl) fun u hu i _ => ?_
    split
    · exact hu
    · exact hu.trans (svRearm_kept u i)
  · exact .refl s

/-- The next tide's first SCLK, with what has happened at it so far. -/
theorem tideStep_gives (s : State) : s.tideStep.time.tide = s.time.tide + 1 ∧ s.tideStep.time.pos = 0
    ∧ s.tideStep.time.total = s.time.total + 1 ∧ s.tideStep.time.epoch = s.time.epoch ∧ s.tideStep.heap.mem = s.heap.mem
    ∧ s.tideStep.nv = s.nv := by
  unfold State.tideStep
  extract_lets t now fab sched cmds s1 time s2 s3
  have h3 : TideKept s2 s3 := by
    unfold s3
    split
    · exact .of_time rfl rfl rfl
    · exact .refl s2
  have hpin : TideKept s3 (if s3.rdb R.MESH_CFG 0 0 = true ∧ s3.time.tide % 15 = 0 then s3.pinEmit 16 .syncOut else s3) := by
    unfold State.pinEmit
    split
    · split
      · exact .of_time rfl rfl rfl
      · exact .refl s3
    · exact .refl s3
  have h := (h3.trans hpin).trans (unitWork_unitsNow _).tideKept
  exact ⟨h.tide, h.pos, h.total, h.epoch, h.mem, h.nv⟩

/-- All that a boundary does of itself. -/
abbrev State.boundaryDone (s : State) : State := s.unsupCheck.tideEnd.budgetCheck.roleEval.tideStep.recentreDue.tamperArm.romRearm

theorem tideBoundary_gives {s : State} (hup : s.pwr.coreUp = true) (hpos : s.time.pos < tideSclk) :
    Gives .tideBoundary s fun t => t.time.tide = s.time.tide + 1 ∧ t.time.pos = 0
      ∧ t.time.total = s.time.total + (tideSclk - s.time.pos) ∧ t.time.epoch = s.time.epoch ∧ t.heap.mem = s.heap.mem ∧ t.nv = s.nv := by
  have hcheck := unsupCheck_kept s
  have htotal : s.unsupCheck.tideEnd.time.total = s.unsupCheck.time.total + (tideSclk - 1 - s.unsupCheck.time.pos) := pass_total _ _
  obtain ⟨htide, hepoch, hmem, hnv⟩ := pass_tide s.unsupCheck (tideSclk - 1 - s.unsupCheck.time.pos)
  have hend := (budgetCheck_kept s.unsupCheck.tideEnd).trans (roleEval_kept _)
  obtain ⟨stide, spos, stotal, sepoch, smem, snv⟩ := tideStep_gives s.unsupCheck.tideEnd.budgetCheck.roleEval
  have hnext : TideKept s.unsupCheck.tideEnd.budgetCheck.roleEval.tideStep s.boundaryDone :=
    ((recentreDue_kept _).trans (.of_only (tamperArm_only _))).trans (romRearm_kept _)
  refine Gives.done (congrArg (done s) (if_pos hup)) ⟨?_, ?_, ?_, ?_, ?_, ?_⟩
  · rw [finish_time, hnext.tide, stide, hend.tide]
    exact congrArg (· + 1) (htide.trans hcheck.tide)
  · rw [finish_time, hnext.pos, spos]
  · rw [finish_time, hnext.total, stotal, hend.total, htotal, hcheck.total, hcheck.pos]
    omega
  · rw [finish_time, hnext.epoch, sepoch, hend.epoch]
    exact hepoch.trans hcheck.epoch
  · rw [finish_heap, hnext.mem, smem, hend.mem]
    exact hmem.trans hcheck.mem
  · rw [finish_nv, hnext.nv, snv, hend.nv]
    exact hnv.trans hcheck.nv

-- The opening of an epoch (R84, R85, R400).

theorem openEpoch_only (s : State) (start : Int) (num : Nat) :
    Only anyReg clockParts (s.epochBegun start num) (s.openEpoch start num) := by
  rw [openEpoch_eq]
  exact Only.notify _ _ (Only.raise trivial (Only.raise trivial (Only.raise trivial (Only.raise trivial (tb0Eval_only _)))))

/-- Of the new epoch's time TB0's state alone is still evaluated (R399, R401). -/
theorem openEpoch_clock (s : State) (start : Int) (num : Nat) :
    ∃ st, (s.openEpoch start num).time = { (s.epochBegun start num).time with tb0St := st } := by
  obtain ⟨st, heval⟩ := tb0Eval_time (s.epochBegun start num)
  refine ⟨st, ?_⟩
  rw [openEpoch_eq, notify_time]
  exact heval

theorem rowEpoch_heap (u : State) (r : Nat) : (u.rowEpoch r).heap = u.heap := by
  unfold State.rowEpoch State.setBm
  rfl

/-- The rows at tide 0 of an epoch leave the heap. -/
theorem rowEpochs_heap (u : State) (rs : List Nat) : (rs.foldl State.rowEpoch u).heap = u.heap :=
  foldl_keeps (P := fun v => v.heap = u.heap) (f := State.rowEpoch) (fun v r hv => (rowEpoch_heap v r).trans hv) rs u rfl

theorem unitsEpoch_mem (s : State) (len : Nat) : (s.unitsEpoch len).heap.mem = s.heap.mem := by
  unfold State.unitsEpoch
  dsimp only
  rw [rowEpochs_heap]

theorem openEpoch_mem (s : State) (start : Int) (num : Nat) : (s.openEpoch start num).heap.mem = s.heap.mem := by
  rw [(openEpoch_only s start num).same (p := .heap) (by decide), State.epochBegun]
  dsimp only
  rw [unitsEpoch_mem]

theorem openEpoch_nv (s : State) (start : Int) (num : Nat) : (s.openEpoch start num).nv = s.nv := by
  rw [(openEpoch_only s start num).same (p := .nv) (by decide), State.epochBegun]
  dsimp only
  rw [(unitsEpoch_only s _).same (p := .nv) (by decide)]

theorem dropPend_only (s : State) : Only noRegs [.sched] s s.dropPend := by
  unfold State.dropPend
  split
  · have hgone := (Only.refl noRegs [.sched] s).set_sched { s.sched with pend := none, cancel := false } (by decide)
    exact Only.ite hgone (hgone.setStoreSt _ _ (by decide))
  · exact Only.refl _ _ s

theorem dropOldEpoch_only (s : State) : Only anyReg [.sched, .cmds, .net, .xbar, .free] s s.dropOldEpoch := by
  have hdrop : Only anyReg [.sched, .cmds, .net, .xbar, .free] s s.dropPend :=
    (dropPend_only s).mono (fun _ _ => trivial) (by decide)
  have hshown : Only anyReg [.sched, .cmds, .net, .xbar, .free] s (s.dropPend.swapShown 6 0) :=
    Only.raise trivial (Only.wr _ trivial (Only.wr _ trivial hdrop))
  unfold State.dropOldEpoch
  split
  · exact Only.ite (Only.refl _ _ s) (hshown.trans ((swapResult_only _ _ _).mono (fun _ _ => trivial) (by decide)))
  · exact Only.refl _ _ s

/-- The state in which an epoch has opened and a swap of the one that ends is cancelled (R85). -/
abbrev State.opened (s : State) (start : Int) (num : Nat) : State := (s.openEpoch start num).dropOldEpoch

/-- What an opening makes of the time, and what it keeps. -/
theorem opened_gives (s : State) (start : Int) (num : Nat) :
    (∃ st, (s.opened start num).time = { (s.epochBegun start num).time with tb0St := st })
    ∧ (s.opened start num).heap.mem = s.heap.mem ∧ (s.opened start num).nv = s.nv := by
  have hdrop := dropOldEpoch_only (s.openEpoch start num)
  obtain ⟨st, hclock⟩ := openEpoch_clock s start num
  exact ⟨⟨st, (hdrop.same (p := .time) (by decide)).trans hclock⟩,
    (congrArg Heap.mem (hdrop.same (p := .heap) (by decide))).trans (openEpoch_mem s start num),
    (hdrop.same (p := .nv) (by decide)).trans (openEpoch_nv s start num)⟩

theorem epochOpen_gives {s : State} (hat : s.atBoundary = true) (hdue : s.epochDue = true) : Gives .epochOpen s fun t =>
    t.time.epoch = nextEpoch s.time.epoch ∧ t.time.epochStart = s.stepStart ∧ t.time.tb0 = s.stepStart ∧ t.time.tide = 0
      ∧ t.time.pos = 0 ∧ t.time.armPend = false ∧ t.heap.mem = s.heap.mem ∧ t.nv = s.nv := by
  obtain ⟨⟨st, htime⟩, hmem, hnv⟩ := opened_gives s s.stepStart (nextEpoch s.time.epoch)
  refine Gives.done (congrArg (done s) (if_pos ⟨hat, hdue⟩)) ?_
  rw [finish_time, finish_heap, finish_nv]
  dsimp only
  rw [htime]
  exact ⟨rfl, rfl, rfl, rfl, rfl, rfl, hmem, hnv⟩

-- The adoption of the reference epoch (R498).

/-- The reference epoch taken, with its tide, before the member's role is evaluated. -/
def State.adopted (s : State) : State :=
  let u := s.opened s.refEpoch.2 s.refEpoch.1
  { u with time := { u.time with tide := s.refTide s.refEpoch.2, tb0 := s.refEpoch.2 + s.refTide s.refEpoch.2 * (unitsSclk * tideSclk) }
           pwr := { u.pwr with req := u.pwr.req.shift (s.refTide s.refEpoch.2) }
           mesh := { u.mesh with adoptPend := false } }

theorem epochAdoption_done {s : State} (hat : s.atBoundary = true) (hpend : s.mesh.adoptPend = true) (hheld : s.viewHeld = true)
    (hmul : s.refTide s.refEpoch.2 % 15 = 0) :
    exec .epochAdoption s = done s ((s.adopted.raise 0x5D 2).setRole s.adopted.roleNow) :=
  congrArg (done s) (if_pos ⟨hat, hpend, hheld, hmul⟩)

theorem epochAdoption_stays {s : State} (h : s.atBoundary = false ∨ s.mesh.adoptPend = false ∨ s.viewHeld = false) :
    exec .epochAdoption s = done s s := by
  refine congrArg (done s) (if_neg ?_)
  rintro ⟨hat, hpend, hheld, -⟩
  simp [hat, hpend, hheld] at h

theorem adopted_gives (s : State) : s.adopted.time.epoch = s.refEpoch.1 ∧ s.adopted.time.epochStart = s.refEpoch.2
    ∧ s.adopted.time.tide = s.refTide s.refEpoch.2 ∧ s.adopted.time.pos = 0 ∧ s.adopted.mesh.adoptPend = false
    ∧ s.adopted.heap.mem = s.heap.mem := by
  obtain ⟨⟨st, htime⟩, hmem, -⟩ := opened_gives s s.refEpoch.2 s.refEpoch.1
  unfold State.adopted
  dsimp only
  rw [htime]
  exact ⟨rfl, rfl, rfl, rfl, rfl, hmem⟩

/-- What a role newly taken keeps of the time, the heap, and an adoption that was pending. -/
theorem setRole_kept (s : State) (v : Role) : (s.setRole v).time = s.time ∧ (s.setRole v).heap = s.heap
    ∧ (s.setRole v).mesh.adoptPend = s.mesh.adoptPend := by
  refine ⟨(setRole_only s v).same (p := .time) (by decide), (setRole_only s v).same (p := .heap) (by decide), ?_⟩
  unfold State.setRole
  split
  · rfl
  · rw [raise_mesh, wr_mesh]

theorem setRole_events {s : State} (v : Role) {page i : Nat} (h : bit (s.hdr page hEvt) i = true) :
    bit ((s.setRole v).hdr page hEvt) i = true := by
  have hset : UnitWork s (s.setRole v) :=
    UnitWork.ite (UnitWork.refl s) (UnitWork.raise (UnitWork.wr ((UnitWork.refl s).set_mesh _) _ (by decide)) _ _)
  exact hset.events page i h

theorem bit_meshFalls {a c : Bool} {w : Word} {i : Nat} (h : bit w i = true) : bit (meshFalls a c w) i = true := by
  have hset (b : Bool) (k : Nat) {v : Word} (hv : bit v i = true) : bit (if b then setBit v k else v) i = true := by
    cases b
    · exact hv
    · exact bit_setBit_of_bit hv
  exact hset c 3 (hset a 1 h)

/-- An event raised is there when the command has ended (R499). -/
theorem finish_events {s0 s1 : State} {page i : Nat} (h : bit (s1.hdr page hEvt) i = true) :
    bit ((s0.finish s1).hdr page hEvt) i = true := by
  rcases finish_getReg s0 s1 (regKey 0 page 0 hEvt) with hk | ⟨-, a, c, hk⟩
  · rwa [State.hdr, hk]
  · rw [State.hdr, hk]
    exact bit_meshFalls h

theorem epochAdoption_gives {s : State} (hat : s.atBoundary = true) (hpend : s.mesh.adoptPend = true) (hheld : s.viewHeld = true)
    (hmul : s.refTide s.refEpoch.2 % 15 = 0) : Gives .epochAdoption s fun t => t.time.epoch = s.refEpoch.1
      ∧ t.time.epochStart = s.refEpoch.2 ∧ t.time.tide = s.refTide s.refEpoch.2 ∧ t.time.pos = 0 ∧ t.mesh.adoptPend = false
      ∧ bit (t.hdr 0x5D hEvt) 2 = true ∧ t.heap.mem = s.heap.mem := by
  obtain ⟨hepoch, hstart, htide, hpos, hadopt, hmem⟩ := adopted_gives s
  obtain ⟨rtime, rheap, radopt⟩ := setRole_kept (s.adopted.raise 0x5D 2) s.adopted.roleNow
  refine Gives.done (epochAdoption_done hat hpend hheld hmul) ?_
  rw [finish_time, rtime, raise_time, finish_mesh_adoptPend, radopt, raise_mesh, finish_heap, rheap, raise_heap]
  exact ⟨hepoch, hstart, htide, hpos, hadopt, finish_events (setRole_events _ (hdr_raise (by decide))), hmem⟩

/-- Settles O9: a boundary by its steps in order (`tideBoundary_gives`), an opening by what it makes of the time (`opened_gives`), an
adoption as an opening at the reference's tide (`epochAdoption_gives`); where the conditions fail nothing is done. -/
theorem tidesAndEpochsAdvance : Obligations.TidesAndEpochsAdvance := by
  unfold Obligations.TidesAndEpochsAdvance
  refine ⟨fun s hup hpos => tideBoundary_gives hup hpos, ?reset, fun s hat hdue => epochOpen_gives hat hdue, ?notDue,
    fun s hat hpend hheld hmul => epochAdoption_gives hat hpend hheld hmul, fun s h => stays_gives (epochAdoption_stays h)⟩
  case reset =>
    intro s hdown
    exact stays_gives (congrArg (done s) (if_neg (by simp [hdown])))
  case notDue =>
    intro s h
    refine stays_gives (congrArg (done s) (if_neg ?_))
    rintro ⟨hat, hdue⟩
    simp [hat, hdue] at h

end Sys2Proof.Machine

/-! PROOFS. Deliveries of scheduled transfers as the units' work, units with nothing on their way, and a slot's plan (spec/05 R122,
R123, R138, R238). -/

namespace Sys2Proof.Machine

-- What a scheduled transfer delivers (R122, R238).

section UnitWork

variable {s t : State} (h : UnitWork s t)
include h

theorem UnitWork.askFragment (e : Nat) (f : Fragment) : UnitWork s (t.askFragment e f) :=
  UnitWork.foldl (h.set_net _) (fun _ _ hu => hu.ask _) _

theorem UnitWork.readNext (e : Nat) : UnitWork s (t.readNext e) := by
  unfold State.readNext
  dsimp only
  split
  · exact UnitWork.askFragment (h.set_net _) ..
  · exact h

theorem UnitWork.fragmentRead (time e place : Nat) (data : List Byte) (poison : Bool) :
    UnitWork s (t.fragmentRead time e place data poison) := by
  unfold State.fragmentRead
  split
  · exact h
  · exact UnitWork.ite (UnitWork.ite (UnitWork.askFragment (h.set_net _) ..) (UnitWork.readNext (h.set_net _) _)) (h.set_net _)

theorem UnitWork.rakeWriteLost (k : Nat) (d : Delivery) : UnitWork s (t.rakeWriteLost k d) := UnitWork.ite (h.set_pans _) h

theorem UnitWork.writerFreed (r : Nat) : UnitWork s (t.writerFreed r) := h.set_pans _

theorem UnitWork.blockDone (prod idx addr len : Nat) : UnitWork s (t.blockDone prod idx addr len) := h.set_pans _

theorem UnitWork.takeDelivery (start : Nat) (d : Delivery) : UnitWork s (t.takeDelivery start d) := by
  unfold State.takeDelivery
  split
  · exact h
  · exact h.set_pans _
  · exact UnitWork.ite h (h.set_slu _)
  · exact UnitWork.ite h (UnitWork.ask (h.set_slu _) _)
  · exact h.set_pans _
  · exact h.rakeWriteLost ..
  · exact UnitWork.ite (h.rakeWriteLost ..) (UnitWork.blockDone (h.wr _ (by decide)) ..)
  · exact h.writerFreed _
  · exact UnitWork.ite (h.writerFreed _) (UnitWork.blockDone (h.writerFreed _) ..)
  · exact h.fragmentRead ..

end UnitWork

/-- Deliveries taken by their units, which are then brought up to now. -/
def State.delivered (s : State) (start : Nat) (ds : List Delivery) : State :=
  (ds.foldl (fun t d => t.takeDelivery start d) s).unitsNow

theorem delivered_work (s : State) (start : Nat) (ds : List Delivery) : UnitWork s (s.delivered start ds) :=
  UnitWork.trans ((UnitWork.refl s).foldl (fun _ _ hu => hu.takeDelivery ..) ds) (unitWork_unitsNow _)

-- Units with nothing on their way.

theorem unitsNow_quiet {s : State} (h : s.quiet) : s.unitsNow = s := by
  obtain ⟨hdma, hport, hlinks, hpans⟩ := h
  have hengines : s.dmaNow = s := if_neg (by simp [hdma])
  have hcables : s.linksNow = s := by
    rw [State.linksNow, hlinks]
    show s.absentNow = s
    rw [State.absentNow, hlinks]
    rfl
  unfold State.unitsNow
  dsimp only
  rw [hengines, hcables, hport]
  simp only [List.map_nil, List.foldl_nil, hpans]

/-- Deliveries that go nowhere change nothing while the units have nothing on their way. -/
theorem delivered_quiet {s : State} (h : s.quiet) (start : Nat) {ds : List Delivery} (hds : ∀ d ∈ ds, d.dest = .none) :
    s.delivered start ds = s := by
  have hstay : ds.foldl (fun t d => t.takeDelivery start d) s = s := by
    refine List.foldlRecOn (motive := fun t => t = s) ds _ rfl fun t ht d hd => ?_
    rw [ht, State.takeDelivery, hds d hd]
  rw [State.delivered, hstay, unitsNow_quiet h]

-- A frame from the state at a slot of the tide, which the command has let come.

theorem Only.frameFrom {K : Nat → Prop} {ps : List Part} {y x : State} (s : State) (h : Only K ps y x) : Frame K ps y (s.finish x) :=
  ⟨fun k hk => by rw [← h.1 k hk]; exact finish_getReg s x k,
   fun p hp => Part.same_trans (Part.same_untracked (h.2.1 p hp)) (finish_same_untracked s x p),
   h.2.2.trans (finish_sent s x)⟩

-- How one transfer is planned for a slot (R122, R123, R138).

theorem fitsSlot_nil (write : Bool) (a : Nat) : fitsSlot [] write a = true := by
  simp [fitsSlot, rowsOf]

theorem planOne_issues {at_ start : Nat} {ok : Nat → Bool} {owner : Option Nat} {x : SXfer}
    (hready : x.now = true ∨ x.ready ≤ 2 * (if x.write then start + 28 else start)) (howner : owner = some x.owner)
    (hok : ok at_ = true) : planOne at_ ok owner start {} x = { issue := [{ x with addr := at_ }] } := by
  have hfit : fitsSlot (([] : List SXfer).map fun y => (y.write, y.addr)) x.write at_ = true := fitsSlot_nil ..
  unfold planOne
  dsimp only
  rw [hfit]
  by_cases hnow : x.now = true
  · rw [if_pos hnow, if_pos ⟨howner, hok, rfl⟩, List.nil_append]
  · have htime : ¬(owner ≠ some x.owner ∨ 2 * (if x.write then start + 28 + 3 * ([] : List SXfer).length else start) < x.ready) := by
      rintro (hne | hlate)
      · exact hne howner
      · have := hready.resolve_left hnow
        simp only [List.length_nil, Nat.mul_zero, Nat.add_zero] at hlate
        omega
    rw [if_neg hnow, if_neg htime, if_neg (by simp [hok]), if_pos rfl, List.nil_append]

theorem planOne_breaches {at_ start : Nat} {ok : Nat → Bool} {owner : Option Nat} {x : SXfer} (hnow : x.now = true)
    (hbad : owner ≠ some x.owner ∨ ok at_ = false) : planOne at_ ok owner start {} x = { breach := [{ x with addr := at_ }] } := by
  have hnot : ¬(owner = some x.owner ∧ ok at_ = true
      ∧ fitsSlot (([] : List SXfer).map fun y => (y.write, y.addr)) x.write at_ = true) := by
    rintro ⟨howner, hok, -⟩
    rcases hbad with hne | hno
    · exact hne howner
    · exact absurd (hok.symm.trans hno) Bool.noConfusion
  unfold planOne
  dsimp only
  rw [if_pos hnow, if_neg hnot, List.nil_append]

theorem planOne_waits {at_ start : Nat} {ok : Nat → Bool} {owner : Option Nat} {x : SXfer} (p : SlotPlan) (hnow : x.now = false)
    (howner : owner ≠ some x.owner) : planOne at_ ok owner start p x = { p with wait := p.wait ++ [x] } := by
  unfold planOne
  dsimp only
  rw [if_neg (by simp [hnow]), if_pos (.inl howner)]

/-- Transfers for other owners' slots all wait. -/
theorem plan_waits {f : SXfer → Nat} {start : Nat} {ok : Nat → Bool} {owner : Option Nat} :
    ∀ (xs : List SXfer) (p : SlotPlan), xs.all (fun x => !x.now && decide (owner ≠ some x.owner)) = true →
    xs.foldl (fun p x => planOne (f x) ok owner start p x) p = { p with wait := p.wait ++ xs }
  | [], p, _ => by simp
  | x :: xs, p, h => by
    rw [List.all_cons, Bool.and_eq_true, Bool.and_eq_true, Bool.not_eq_true', decide_eq_true_eq] at h
    obtain ⟨⟨hnow, howner⟩, hall⟩ := h
    rw [List.foldl_cons, planOne_waits p hnow howner, plan_waits xs _ hall]
    simp

end Sys2Proof.Machine

/-! PROOFS. A pseudo-channel's slot: what it counts of its transfers, its reads, writes and breaches (spec/05 R122, R123, R138; spec/08
R225, R231 to R233, R235 to R238). -/

namespace Sys2Proof.Machine

-- A pseudo-channel after a write of one.

theorem pc_setPc (s : State) (j i : Nat) (p : PCh) : (s.setPc j p).pc i = if i = j then p else s.pc i := mget_mset _ _ _ _ _

@[simp] theorem pc_setPc_self (s : State) (j : Nat) (p : PCh) : (s.setPc j p).pc j = p := by rw [pc_setPc, if_pos rfl]

theorem setPc_only {K : Nat → Prop} (s : State) (j : Nat) (p : PCh) : Only K [.heap] s (s.setPc j p) :=
  (Only.refl _ _ s).set_heap _ (by decide)

-- What a slot counts of its transfers (R225, R231 to R233).

/-- The registers in which a slot's activations show (R232). -/
abbrev actKeys (j : Nat) : List Nat := [R.MIT_OVF.key (j / 2), regKey 0 (0x40 + j / 64) 0 hEvt]

/-- What a slot's counts leave: all but its activations' registers and the tables of its pseudo-channels. -/
structure Booked (j : Nat) (s t : State) : Prop where
  only : Only (regsIn (actKeys j)) [.heap] s t
  heap : t.heap = { s.heap with pch := t.heap.pch }
  work : ∀ i, (t.pc i).due = (s.pc i).due ∧ (t.pc i).queue = (s.pc i).queue ∧ (t.pc i).bytes = (s.pc i).bytes
  events : ∀ page i, bit (s.hdr page hEvt) i = true → bit (t.hdr page hEvt) i = true

theorem Booked.refl (j : Nat) (s : State) : Booked j s s := ⟨Only.refl _ _ s, rfl, fun _ => ⟨rfl, rfl, rfl⟩, fun _ _ h => h⟩

/-- The tables of a pseudo-channel written, the transfers and requests that wait at it as they were. -/
theorem Booked.setPc {j : Nat} {s t : State} (h : Booked j s t) (i : Nat) {p : PCh}
    (hp : p.due = (t.pc i).due ∧ p.queue = (t.pc i).queue ∧ p.bytes = (t.pc i).bytes) : Booked j s (t.setPc i p) where
  only := h.only.set_heap _ (by decide)
  heap := congrArg (fun x : Heap => { x with pch := (t.setPc i p).heap.pch }) h.heap
  work k := by
    obtain ⟨hdue, hqueue, hbytes⟩ := h.work k
    rw [pc_setPc]
    split
    · next he =>
      subst he
      exact ⟨hp.1.trans hdue, hp.2.1.trans hqueue, hp.2.2.trans hbytes⟩
    · exact ⟨hdue, hqueue, hbytes⟩
  events := h.events

theorem activate_work (thresh : Nat) (p : PCh) (bank row : Nat) : (activate thresh p bank row).1.due = p.due
    ∧ (activate thresh p bank row).1.queue = p.queue ∧ (activate thresh p bank row).1.bytes = p.bytes := by
  unfold activate
  dsimp only
  split
  · exact ⟨rfl, rfl, rfl⟩
  · split
    · exact ⟨rfl, rfl, rfl⟩
    · split <;> exact ⟨rfl, rfl, rfl⟩

theorem Booked.activateRows {j : Nat} {s t : State} (h : Booked j s t) (rows : List (Nat × Nat)) :
    Booked j s (t.activateRows j rows) := by
  refine List.foldlRecOn rows _ h fun u hu r _ => ?_
  have hset := hu.setPc j (activate_work (u.rdf R.HC_CFG (j / 2) 47 32) (u.pc j) r.1 r.2)
  dsimp only
  split
  · have hraised (v : State) : UnitWork v ((v.count R.MIT_OVF (j / 2)).raise (0x40 + j / 64) 6) :=
      ((UnitWork.refl v).wr _ (by decide)).raise _ _
    exact ⟨Only.raise (by simp [regsIn]) (Only.wr _ (by simp [regsIn]) hset.only), hset.heap, hset.work,
      fun page i hb => (hraised _).events page i (hset.events page i hb)⟩
  · exact hset

theorem Booked.markSlot {j : Nat} {s t : State} (h : Booked j s t) (n : Nat) (writes : List Nat) :
    Booked j s (t.markSlot j n writes) := h.setPc j ⟨rfl, rfl, rfl⟩

theorem Booked.mem {j : Nat} {s t : State} (h : Booked j s t) : t.heap.mem = s.heap.mem := by rw [h.heap]

-- A slot's transfers in their parts (R122, R123, R138).

/-- The plan of a slot that starts at an SCLK of the data path. -/
def State.slotPlan (s : State) (j slot start : Nat) : SlotPlan :=
  (s.pc j).due.foldl (fun p x => planOne (s.servedAt x) (s.addrOk j) (s.slotOwner j slot) start p x) {}

/-- Transfers left to wait at a pseudo-channel. -/
def State.leftWaiting (s : State) (j : Nat) (xs : List SXfer) : State := s.setPc j { s.pc j with due := xs }

/-- What a slot counts of the transfers that it issued. -/
def State.slotCounted (s : State) (j : Nat) (served : Bool) (xs : List SXfer) : State :=
  let t := if served then (s.activateRows j (rowsOf (xs.map (·.addr)))).markSlot j (xs.map (·.addr)).length
      ((xs.filter (·.write)).map (·.addr)) else s
  t.setPc j { t.pc j with bytes := (t.pc j).bytes + 64 * (xs.map (·.addr)).length }

theorem slotTransfers_eq (s : State) (j slot start : Nat) (ecc : List EccObs) : s.slotTransfers j slot start ecc false
    = let p := s.slotPlan j slot start
      let w := s.leftWaiting j p.wait
      let c := w.carry j ecc 0 p.issue
      let b := (c.1.slotCounted j (w.serves (j / 2)) p.issue).breachAll j p.breach
      (b.1, c.2 ++ b.2) := rfl

theorem slotCounted_booked (s : State) (j : Nat) (served : Bool) (xs : List SXfer) : ∃ t, Booked j s t
    ∧ s.slotCounted j served xs = t.setPc j { t.pc j with bytes := (t.pc j).bytes + 64 * xs.length } := by
  refine ⟨if served then (s.activateRows j (rowsOf (xs.map (·.addr)))).markSlot j (xs.map (·.addr)).length
      ((xs.filter (·.write)).map (·.addr)) else s, ?_, ?_⟩
  · split
    · exact ((Booked.refl j s).activateRows _).markSlot _ _
    · exact Booked.refl j s
  · rw [State.slotCounted, List.length_map]

theorem slotCounted_only (s : State) (j : Nat) (served : Bool) (xs : List SXfer) :
    Only (regsIn (actKeys j)) [.heap] s (s.slotCounted j served xs) := by
  obtain ⟨t, ht, he⟩ := slotCounted_booked s j served xs
  rw [he]
  exact ht.only.trans (setPc_only ..)

theorem slotCounted_heap (s : State) (j : Nat) (served : Bool) (xs : List SXfer) :
    (s.slotCounted j served xs).heap.mem = s.heap.mem ∧ ((s.slotCounted j served xs).pc j).due = (s.pc j).due
    ∧ ((s.slotCounted j served xs).pc j).bytes = (s.pc j).bytes + 64 * xs.length := by
  obtain ⟨t, ht, he⟩ := slotCounted_booked s j served xs
  obtain ⟨hdue, -, hbytes⟩ := ht.work j
  rw [he]
  exact ⟨ht.mem, by rw [pc_setPc_self]; exact hdue, by rw [pc_setPc_self]; exact congrArg (· + 64 * xs.length) hbytes⟩

/-- A slot that issues nothing raises nothing. -/
theorem slotCounted_nil_only (s : State) (j : Nat) (served : Bool) : Only noRegs [.heap] s (s.slotCounted j served []) := by
  have hmark : Only noRegs [.heap] s (if served then (s.activateRows j []).markSlot j 0 [] else s) := by
    split
    · exact setPc_only ..
    · exact Only.refl _ _ s
  exact hmark.trans (setPc_only ..)

-- HEAP_SLOT_TRANSFER, by what its plan holds.

/-- The command from the slot's state on, with the sequencer at its cycle. -/
theorem heapSlotTransfer_done {s y : State} (j : Fin 512) (n : Fin 4096) (ecc : List EccObs) (hy : y = s.atSlot n) :
    exec (.heapSlotTransfer j n ecc false) s = done s ((y.slotTransfers j n (y.slotStart n) ecc false).1.delivered (y.slotStart n)
      (y.slotTransfers j n (y.slotStart n) ecc false).2) := by
  subst hy
  rfl

end Sys2Proof.Machine

/-! PROOFS. A slot that writes, reads, refuses or leaves its one transfer (spec/05 R122, R138). -/

namespace Sys2Proof.Machine

/-- A part that is not listed is as it was, so that units with nothing on their way still have nothing. -/
theorem Only.quiet {K : Nat → Prop} {ps : List Part} {s t : State} (h : Only K ps s t)
    (hp : ∀ p ∈ [Part.dma, .net, .links, .pans], p ∉ ps := by decide) (hq : s.quiet) : t.quiet := by
  obtain ⟨hdma, hport, hlinks, hpans⟩ := hq
  have hnet : t.net = s.net := h.same (p := .net) (hp _ (by decide))
  exact ⟨(h.same (p := .dma) (hp _ (by decide))).trans hdma, by rw [hnet, hport], (h.same (p := .links) (hp _ (by decide))).trans hlinks,
    (h.same (p := .pans) (hp _ (by decide))).trans hpans⟩

@[simp] theorem finish_pc (s0 s1 : State) (j : Nat) : (s0.finish s1).pc j = s1.pc j := by rw [State.pc, finish_heap, State.pc]

theorem leftWaiting_only {K : Nat → Prop} (s : State) (j : Nat) (xs : List SXfer) : Only K [.heap] s (s.leftWaiting j xs) := setPc_only ..

-- One write (R233, R234).

theorem writeXfer_only {K : Nat → Prop} (s : State) (j a : Nat) (data : List Byte) (mark : Bool) :
    Only K [.heap] s (s.writeXfer j a data mark) := ((Only.refl _ _ s).set_heap _ (by decide)).trans (setPc_only ..)

theorem writeXfer_mem (s : State) (j a : Nat) (data : List Byte) (mark : Bool) :
    (s.writeXfer j a data mark).heap.mem = s.heap.mem.write a data := rfl

theorem writeXfer_pc (s : State) (j a : Nat) (data : List Byte) (mark : Bool) :
    (s.writeXfer j a data mark).pc j = { s.pc j with queue := (s.pc j).queue.map (mergeWatch a data) } := pc_setPc_self ..

/-- The state that a slot leaves whose one transfer is a write, before its delivery. -/
def State.slotWritten (y : State) (j : Nat) (x : SXfer) : State :=
  ((y.leftWaiting j []).writeXfer j x.addr x.data x.mark).slotCounted j true [x]

/-- A slot whose one transfer is a write. -/
theorem slotTransfers_write {y : State} {j n start : Nat} {x : SXfer} (ecc : List EccObs) (hserves : y.serves (j / 2) = true)
    (hplan : y.slotPlan j n start = { issue := [x] }) (hw : x.write = true) : y.slotTransfers j n start ecc false
    = (y.slotWritten j x, [{ dest := x.dest, k := 0, data := x.data, poison := false, mark := x.mark }]) := by
  have hleft : (y.leftWaiting j []).serves (j / 2) = true := hserves
  rw [slotTransfers_eq, hplan]
  dsimp only
  rw [State.carry, if_pos hw, hleft]
  rfl

theorem slotWritten_only (y : State) (j : Nat) (x : SXfer) : Only (regsIn (actKeys j)) [.heap] y (y.slotWritten j x) :=
  ((leftWaiting_only y j []).trans (writeXfer_only ..)).trans (slotCounted_only ..)

theorem slotWritten_gives (y : State) (j : Nat) (x : SXfer) : (y.slotWritten j x).heap.mem = y.heap.mem.write x.addr x.data
    ∧ ((y.slotWritten j x).pc j).due = [] ∧ ((y.slotWritten j x).pc j).bytes = (y.pc j).bytes + 64 := by
  unfold State.slotWritten
  obtain ⟨hmem, hdue, hbytes⟩ := slotCounted_heap ((y.leftWaiting j []).writeXfer j x.addr x.data x.mark) j true [x]
  rw [writeXfer_pc, State.leftWaiting, pc_setPc_self] at hdue hbytes
  exact ⟨hmem.trans (writeXfer_mem ..), hdue, hbytes⟩

/-- A plan of one transfer that is served. -/
theorem slotPlan_issues {y : State} {j n start : Nat} {x : SXfer} (hdue : (y.pc j).due = [x])
    (hready : x.now = true ∨ x.ready ≤ 2 * (if x.write then start + 28 else start)) (howner : y.slotOwner j n = some x.owner)
    (hok : y.addrOk j (y.servedAt x) = true) : y.slotPlan j n start = { issue := [{ x with addr := y.servedAt x }] } := by
  rw [State.slotPlan, hdue]
  exact planOne_issues hready howner hok

/-- What the command leaves, where that is known of the slot's transfers and of all units' work after them; while the units have
nothing on their way and nothing is delivered to them, that work is none. -/
theorem heapSlot_gives {s y u : State} {j : Fin 512} {n : Fin 4096} {ecc : List EccObs} {ds : List Delivery} {P : State → Prop}
    (hy : y = s.atSlot n) (htransfers : y.slotTransfers j n (y.slotStart n) ecc false = (u, ds))
    (hP : ∀ v, UnitWork u v → (u.quiet → (∀ d ∈ ds, d.dest = .none) → v = u) → P (s.finish v)) :
    Gives (.heapSlotTransfer j n ecc false) s P := by
  have hcmd := heapSlotTransfer_done (s := s) j n ecc hy
  rw [htransfers] at hcmd
  exact Gives.done hcmd (hP _ (delivered_work ..) fun hq hds => delivered_quiet hq _ hds)

theorem heapSlot_write {s y : State} {j : Fin 512} {n : Fin 4096} {ecc : List EccObs} {x : SXfer} (hy : y = s.atSlot n)
    (hserves : y.serves (j.val / 2) = true) (hdue : (y.pc j).due = [x]) (hw : x.write = true)
    (hready : x.now = true ∨ 2 * (y.slotStart n + 28) ≥ x.ready) (hlen : x.data.length = 64)
    (howner : y.slotOwner j n = some x.owner) (hok : y.addrOk j x.addr = true) : Gives (.heapSlotTransfer j n ecc false) s fun t =>
      (∀ z, t.heap.mem.byte z = if x.addr ≤ z ∧ z < x.addr + 64 then x.data.getD (z - x.addr) 0 else y.heap.mem.byte z)
      ∧ (y.quiet → x.dest = .none → (t.pc j).due = []) ∧ (t.pc j).bytes = (y.pc j).bytes + 64
      ∧ (y.quiet → x.dest = .none → Frame (regsIn (actKeys j)) [.heap] y t) := by
  have haddr : y.servedAt x = x.addr := if_pos hw
  have hplan : y.slotPlan j n (y.slotStart n) = { issue := [x] } := by
    rw [slotPlan_issues hdue (by rwa [hw, if_pos rfl]) howner (by rwa [haddr]), haddr]
  obtain ⟨hmem, hdone, hbytes⟩ := slotWritten_gives y j x
  have honly := slotWritten_only y j x
  refine heapSlot_gives hy (slotTransfers_write ecc hserves hplan hw) fun v hwork hstay => ?_
  have hstay (hq : y.quiet) (hd : x.dest = .none) : v = y.slotWritten j x := hstay (honly.quiet (hq := hq)) (by simpa using hd)
  refine ⟨fun z => ?_, fun hq hd => ?_, ?_, fun hq hd => ?_⟩
  · rw [finish_heap, hwork.mem, hmem, Memory.byte_write, hlen]
  · rw [finish_pc, hstay hq hd, hdone]
  · rw [finish_pc, hwork.bytes, hbytes]
  · rw [hstay hq hd]
    exact honly.frameFrom s

-- One read (R222, R233, R237).

theorem satWord_zero (w : Word) : satWord w 0 = w := by
  have hlt := w.isLt
  simp only [satWord, satAdd, Nat.add_zero]
  rw [min_eq_left (by omega)]
  simp [word]

/-- The registers in which a read of a pseudo-channel may show. -/
abbrev readKeys (j : Nat) : List Nat :=
  [R.FWD_HITS, R.ERR_CORR, R.ERR_UNCORR, R.POISON_OUT, R.ERR_ADDR].map (fun r => r.key (j / 2))
    ++ regKey 0 (0x40 + j / 64) 0 hEvt :: reportKeys

theorem key_notMem_reportKeys {r : Reg} {u k : Nat} (hr : r.InPage k) (h : r.off + k * r.stride ≠ R.ERR_SUPPRESSED.off) :
    r.key u k ∉ reportKeys := by
  simp only [reportKeys, List.mem_cons, List.not_mem_nil, or_false, not_or]
  exact ⟨Reg.key_ne_key hr (by decide) (by simpa using h), Reg.key_ne_hdr hr (by decide)⟩

theorem stack_of_pch (j : Nat) : j / 2 / 32 = j / 64 := Nat.div_div_eq_div_mul j 2 32

theorem uncorrectable_only (s : State) (j a : Nat) : Only (regsIn (readKeys j)) [.bitt] s (s.uncorrectable (j / 2) a) := by
  have hcount : Only (regsIn (readKeys j)) [.bitt] s ((s.count R.ERR_UNCORR (j / 2)).count R.POISON_OUT (j / 2)) :=
    Only.wr _ (by simp [regsIn]) (Only.wr _ (by simp [regsIn]) (Only.refl _ _ s))
  unfold State.uncorrectable
  rw [stack_of_pch]
  exact Only.report _ _ _ _ _ (by simp [regsIn, reportKeys]) (by decide)
    (Only.raise (by simp [regsIn]) (Only.ite hcount (Only.wr _ (by simp [regsIn]) hcount)))

theorem uncorrectable_rd {s : State} {h a u : Nat} {r : Reg} (hr : r.InPage)
    (hoff : r.off ∉ [R.ERR_UNCORR.off, R.POISON_OUT.off, R.ERR_ADDR.off, R.ERR_SUPPRESSED.off]) :
    (s.uncorrectable h a).rd r u = s.rd r u := by
  simp only [List.mem_cons, List.not_mem_nil, or_false, not_or] at hoff
  obtain ⟨hunc, hpoison, haddr, hsup⟩ := hoff
  have hcount : ((s.count R.ERR_UNCORR h).count R.POISON_OUT h).rd r u = s.rd r u := by
    rw [State.count, rd_wr_ne (by decide) hr (by simpa using hpoison), State.count,
      rd_wr_ne (by decide) hr (by simpa using hunc)]
  rw [State.uncorrectable, report_rd (key_notMem_reportKeys hr (by simpa using hsup)), rd_raise hr]
  split
  · exact hcount
  · rw [rd_wr_ne (by decide) hr (by simpa using haddr), hcount]

theorem uncorrectable_counts (s : State) (h a : Nat) :
    (s.uncorrectable h a).rd R.ERR_UNCORR h = satWord (s.rd R.ERR_UNCORR h) 1 := by
  have hcount : ((s.count R.ERR_UNCORR h).count R.POISON_OUT h).rd R.ERR_UNCORR h = satWord (s.rd R.ERR_UNCORR h) 1 := by
    rw [State.count, rd_wr_ne (by decide) (by decide) (by decide), State.count, rd_wr_self]
  rw [State.uncorrectable, report_rd (key_notMem_reportKeys (by decide) (by decide)), rd_raise (by decide)]
  split
  · exact hcount
  · rw [rd_wr_ne (by decide) (by decide) (by decide), hcount]

theorem uncorrectable_event (s : State) (h a : Nat) : bit ((s.uncorrectable h a).hdr (0x40 + h / 32) hEvt) 2 = true :=
  ((UnitWork.refl _).report ..).events _ _ (hdr_raise (by decide))

/-- A read's counts of forwarded and corrected data, before what an uncorrectable word adds. -/
def State.readNoted (s : State) (j a corrected : Nat) : State :=
  let t := if s.holds j a then s.count R.FWD_HITS (j / 2) else s
  if corrected = 0 then t else t.count R.ERR_CORR (j / 2) corrected

theorem readXfer_eq (s : State) (j a corrected : Nat) (unc : Bool) : s.readXfer j a corrected unc
    = if unc then ((s.readNoted j a corrected).uncorrectable (j / 2) a, poisonData, true)
      else (s.readNoted j a corrected, (s.readNoted j a corrected).heapBytesAt a 64, false) := rfl

theorem readNoted_only (s : State) (j a corrected : Nat) :
    Only (regsIn ([R.FWD_HITS, R.ERR_CORR].map fun r => r.key (j / 2))) [] s (s.readNoted j a corrected) := by
  have hheld : Only (regsIn ([R.FWD_HITS, R.ERR_CORR].map fun r => r.key (j / 2))) [] s
      (if s.holds j a then s.count R.FWD_HITS (j / 2) else s) :=
    Only.ite (Only.wr _ (by simp [regsIn]) (Only.refl _ _ s)) (Only.refl _ _ s)
  exact Only.ite hheld (Only.wr _ (by simp [regsIn]) hheld)

theorem readNoted_rd (s : State) (j a corrected : Nat) :
    (s.readNoted j a corrected).rd R.ERR_CORR (j / 2) = satWord (s.rd R.ERR_CORR (j / 2)) corrected
    ∧ (s.readNoted j a corrected).rd R.ERR_UNCORR (j / 2) = s.rd R.ERR_UNCORR (j / 2) := by
  have hheld {r : Reg} (hr : r.InPage) (hoff : r.off ≠ R.FWD_HITS.off) :
      (if s.holds j a then s.count R.FWD_HITS (j / 2) else s).rd r (j / 2) = s.rd r (j / 2) := by
    split
    · rw [State.count, rd_wr_ne (by decide) hr (by simpa using hoff)]
    · rfl
  unfold State.readNoted
  dsimp only
  split
  · next hzero => exact ⟨by rw [hheld (by decide) (by decide), hzero, satWord_zero], hheld (by decide) (by decide)⟩
  · rw [State.count, rd_wr_self, rd_wr_ne (by decide) (by decide) (by decide)]
    exact ⟨by rw [hheld (by decide) (by decide)], hheld (by decide) (by decide)⟩

theorem readXfer_only (s : State) (j a corrected : Nat) (unc : Bool) :
    Only (regsIn (readKeys j)) [.bitt] s (s.readXfer j a corrected unc).1 := by
  have hnoted : Only (regsIn (readKeys j)) [.bitt] s (s.readNoted j a corrected) :=
    (readNoted_only s j a corrected).mono (by simp +contextual [regsIn, or_imp]) (by simp)
  rw [readXfer_eq]
  split
  · exact hnoted.trans (uncorrectable_only ..)
  · exact hnoted

theorem readXfer_rd (s : State) (j a corrected : Nat) (unc : Bool) :
    (s.readXfer j a corrected unc).1.rd R.ERR_CORR (j / 2) = satWord (s.rd R.ERR_CORR (j / 2)) corrected
    ∧ (s.readXfer j a corrected unc).1.rd R.ERR_UNCORR (j / 2) = satWord (s.rd R.ERR_UNCORR (j / 2)) (b2n unc) := by
  obtain ⟨hcorr, hunc⟩ := readNoted_rd s j a corrected
  rw [readXfer_eq]
  cases unc
  · exact ⟨hcorr, hunc.trans (satWord_zero _).symm⟩
  · exact ⟨(uncorrectable_rd (by decide) (by decide)).trans hcorr, (uncorrectable_counts ..).trans (by rw [hunc]; rfl)⟩

/-- The state that a slot leaves whose one transfer is a read. -/
def State.slotRead (y : State) (j : Nat) (ecc : List EccObs) (x : SXfer) : State :=
  ((y.leftWaiting j []).readXfer j x.addr (eccOf ecc 0).1 (eccOf ecc 0).2).1.slotCounted j true [x]

theorem slotTransfers_read {y : State} {j n start : Nat} {x : SXfer} (ecc : List EccObs) (hserves : y.serves (j / 2) = true)
    (hplan : y.slotPlan j n start = { issue := [x] }) (hw : x.write = false) : ∃ d : Delivery, d.dest = x.dest
    ∧ y.slotTransfers j n start ecc false = (y.slotRead j ecc x, [d]) := by
  have hleft : (y.leftWaiting j []).serves (j / 2) = true := hserves
  rw [slotTransfers_eq, hplan]
  dsimp only
  rw [State.carry, if_neg (by simp [hw]), if_pos hleft, hleft]
  exact ⟨_, rfl, rfl⟩

theorem slotRead_only (y : State) (j : Nat) (ecc : List EccObs) (x : SXfer) :
    Only (regsIn (R.MIT_OVF.key (j / 2) :: readKeys j)) [.heap, .bitt] y (y.slotRead j ecc x) := by
  have hact : ∀ k, regsIn (actKeys j) k → regsIn (R.MIT_OVF.key (j / 2) :: readKeys j) k := by
    simp +contextual [regsIn, or_imp]
  exact (((leftWaiting_only y j []).mono (fun _ hk => hk) (by decide)).trans
    ((readXfer_only ..).mono (fun _ => List.mem_cons_of_mem _) (by decide))).trans ((slotCounted_only ..).mono hact (by decide))

theorem slotRead_gives (y : State) (j : Nat) (ecc : List EccObs) (x : SXfer) : (y.slotRead j ecc x).heap.mem = y.heap.mem
    ∧ ((y.slotRead j ecc x).pc j).bytes = (y.pc j).bytes + 64
    ∧ (y.slotRead j ecc x).rd R.ERR_CORR (j / 2) = satWord (y.rd R.ERR_CORR (j / 2)) (eccOf ecc 0).1
    ∧ (y.slotRead j ecc x).rd R.ERR_UNCORR (j / 2) = satWord (y.rd R.ERR_UNCORR (j / 2)) (b2n (eccOf ecc 0).2) := by
  unfold State.slotRead
  have hheap : ((y.leftWaiting j []).readXfer j x.addr (eccOf ecc 0).1 (eccOf ecc 0).2).1.heap = (y.leftWaiting j []).heap :=
    (readXfer_only ..).same (p := .heap) (by decide)
  obtain ⟨hcorr, hunc⟩ := readXfer_rd (y.leftWaiting j []) j x.addr (eccOf ecc 0).1 (eccOf ecc 0).2
  generalize ((y.leftWaiting j []).readXfer j x.addr (eccOf ecc 0).1 (eccOf ecc 0).2).1 = u at hheap hcorr hunc
  obtain ⟨hmem, -, hbytes⟩ := slotCounted_heap u j true [x]
  have hrd {r : Reg} (hr : r.InPage) (hoff : r.off ≠ R.MIT_OVF.off) : (u.slotCounted j true [x]).rd r (j / 2) = u.rd r (j / 2) := by
    refine (slotCounted_only u j true [x]).getReg ?_
    simp only [regsIn, List.mem_cons, List.not_mem_nil, or_false, not_or]
    exact ⟨Reg.key_ne_key hr (by decide) (by simpa using hoff), Reg.key_ne_hdr hr (by decide)⟩
  have hpc : u.pc j = (y.leftWaiting j []).pc j := by rw [State.pc, hheap, State.pc]
  refine ⟨hmem.trans (congrArg Heap.mem hheap :), ?_, (hrd (by decide) (by decide)).trans hcorr, (hrd (by decide) (by decide)).trans hunc⟩
  rw [hbytes, hpc, State.leftWaiting, pc_setPc_self]
  rfl

/-- The registers of the heap's errors after the units' work. -/
theorem UnitWork.rd {s t : State} (h : UnitWork s t) {r : Reg} {u : Nat} (hr : r.InPage) (hoff : r.off ∈ heapErrOffs) :
    t.rd r u = s.rd r u :=
  h.only.getReg (by rw [offHeapErr, Reg.key_mod hr.2, Nat.zero_mul, Nat.add_zero]; exact not_not.mpr hoff)

theorem heapSlot_read {s y : State} {j : Fin 512} {n : Fin 4096} {ecc : List EccObs} {x : SXfer} (hy : y = s.atSlot n)
    (hserves : y.serves (j.val / 2) = true) (hdue : (y.pc j).due = [x]) (hw : x.write = false)
    (hready : x.now = true ∨ 2 * y.slotStart n ≥ x.ready) (howner : y.slotOwner j n = some x.owner)
    (hok : y.addrOk j (y.redirect x.addr) = true) : Gives (.heapSlotTransfer j n ecc false) s fun t =>
      t.heap.mem = y.heap.mem ∧ (t.pc j).bytes = (y.pc j).bytes + 64
      ∧ t.rd R.ERR_CORR (j.val / 2) = satWord (y.rd R.ERR_CORR (j.val / 2)) (eccOf ecc 0).1
      ∧ t.rd R.ERR_UNCORR (j.val / 2) = satWord (y.rd R.ERR_UNCORR (j.val / 2)) (b2n (eccOf ecc 0).2)
      ∧ (y.quiet → x.dest = .none → Frame (regsIn (R.MIT_OVF.key (j.val / 2) :: readKeys j)) [.heap, .bitt, .xbar] y t) := by
  have haddr : y.servedAt x = y.redirect x.addr := if_neg (by simp [hw])
  have hplan := slotPlan_issues (start := y.slotStart n) hdue (by rwa [hw, if_neg Bool.false_ne_true]) howner (by rwa [haddr])
  obtain ⟨d, hd, htransfers⟩ := slotTransfers_read ecc hserves hplan hw
  obtain ⟨hmem, hbytes, hcorr, hunc⟩ := slotRead_gives y j ecc { x with addr := y.servedAt x }
  have honly := slotRead_only y j ecc { x with addr := y.servedAt x }
  refine heapSlot_gives hy htransfers fun v hwork hstay => ⟨?_, ?_, ?_, ?_, fun hq hdest => ?_⟩
  · rw [finish_heap, hwork.mem, hmem]
  · rw [finish_pc, hwork.bytes, hbytes]
  · rw [finish_rd (by decide), hwork.rd (by decide) (by decide), hcorr]
  · rw [finish_rd (by decide), hwork.rd (by decide) (by decide), hunc]
  · rw [hstay (honly.quiet (hq := hq)) (by simp [hd, hdest])]
    exact (honly.mono (fun _ hk => hk) (by decide)).frameFrom s

end Sys2Proof.Machine

/-! PROOFS. A slot that refuses its transfer, leaves all waiting, or whose sequencer check fails (spec/05 R122, R138; spec/08
R235). -/

namespace Sys2Proof.Machine

-- A counted breach (R138, R143).

theorem breach_only (s : State) (r : Reg) (kind unit : Nat) :
    Only (regsIn ([r.key 0, R.BR_FIRST.key 0] ++ reportKeys)) [.sched, .bitt] s (s.breach r kind unit) := by
  have hcount : Only (regsIn ([r.key 0, R.BR_FIRST.key 0] ++ reportKeys)) [.sched, .bitt] s (s.count r 0) :=
    Only.wr _ (by simp [regsIn]) (Only.refl _ _ s)
  unfold State.breach
  dsimp only
  generalize s.count r 0 = t at hcount
  have hlast := Only.ite (c := (t.sched.brLast.any fun b => b.1 = t.rclk) = true) hcount (hcount.set_sched { t.sched with
    brLast := some (t.rclk, word (at_ 32 (t.time.tide % 2 ^ 32) + at_ 20 t.slot + at_ 16 kind + unit)) } (by decide))
  exact Only.report _ _ _ _ _ (by simp [regsIn, reportKeys]) (by decide) (Only.ite (Only.wr _ (by simp [regsIn]) hlast) hlast)

/-- A breach counts in its register (R143). -/
theorem breach_counts {s : State} {r : Reg} {kind unit : Nat} (hr : r.InPage)
    (hoff : r.off ∉ [R.BR_FIRST.off, R.ERR_SUPPRESSED.off]) : (s.breach r kind unit).rd r = satWord (s.rd r) 1 := by
  simp only [List.mem_cons, List.not_mem_nil, or_false, not_or] at hoff
  obtain ⟨hfirst, hsup⟩ := hoff
  have hcount : (s.count r 0).rd r = satWord (s.rd r) 1 := rd_wr_self ..
  unfold State.breach
  rw [report_rd (key_notMem_reportKeys hr (by simpa using hsup))]
  generalize s.count r 0 = t at hcount
  have hlast (c : Prop) [Decidable c] (v : Sched) : (if c then t else { t with sched := v }).rd r = satWord (s.rd r) 1 := by
    split <;> exact hcount
  have hmark (u : State) (w : Word) (hu : u.rd r = satWord (s.rd r) 1) :
      (if u.rdf R.BR_FIRST 0 19 16 = 0 then u.wr R.BR_FIRST 0 w else u).rd r = satWord (s.rd r) 1 := by
    split
    · rw [rd_wr_ne (by decide) hr (by simpa using hfirst), hu]
    · exact hu
  exact hmark _ _ (hlast ..)

/-- The state that a slot leaves which issues nothing and leaves these waiting, before its breaches. -/
def State.slotIdle (y : State) (j : Nat) (xs : List SXfer) : State := (y.leftWaiting j xs).slotCounted j (y.serves (j / 2)) []

theorem slotIdle_only (y : State) (j : Nat) (xs : List SXfer) : Only noRegs [.heap] y (y.slotIdle j xs) :=
  (leftWaiting_only ..).trans (slotCounted_nil_only ..)

theorem slotIdle_gives (y : State) (j : Nat) (xs : List SXfer) :
    (y.slotIdle j xs).heap.mem = y.heap.mem ∧ ((y.slotIdle j xs).pc j).due = xs := by
  obtain ⟨hmem, hdue, -⟩ := slotCounted_heap (y.leftWaiting j xs) j (y.serves (j / 2)) []
  exact ⟨hmem, hdue.trans (by rw [State.leftWaiting, pc_setPc_self])⟩

theorem slotTransfers_breach {y : State} {j n start : Nat} {x : SXfer} (ecc : List EccObs)
    (hplan : y.slotPlan j n start = { breach := [x] }) : ∃ d : Delivery, d.dest = x.dest
    ∧ y.slotTransfers j n start ecc false = ((y.slotIdle j []).breach R.BR_HEAP 1 j, [d]) := by
  rw [slotTransfers_eq, hplan]
  exact ⟨_, rfl, rfl⟩

theorem slotTransfers_waits {y : State} {j n start : Nat} {xs : List SXfer} (ecc : List EccObs)
    (hplan : y.slotPlan j n start = { wait := xs }) : y.slotTransfers j n start ecc false = (y.slotIdle j xs, []) := by
  rw [slotTransfers_eq, hplan]
  rfl

theorem heapSlot_breach {s y : State} {j : Fin 512} {n : Fin 4096} {ecc : List EccObs} {x : SXfer} (hy : y = s.atSlot n)
    (hdue : (y.pc j).due = [x]) (hnow : x.now = true)
    (hbad : y.slotOwner j n ≠ some x.owner ∨ y.addrOk j (y.servedAt x) = false) : Gives (.heapSlotTransfer j n ecc false) s fun t =>
      t.heap.mem = y.heap.mem ∧ (y.quiet → x.dest = .none → t.rd R.BR_HEAP = satWord (y.rd R.BR_HEAP) 1)
      ∧ (y.quiet → x.dest = .none → Frame (regsIn ([R.BR_HEAP.key 0, R.BR_FIRST.key 0] ++ reportKeys)) [.heap, .sched, .bitt, .xbar] y t) := by
  have hplan : y.slotPlan j n (y.slotStart n) = { breach := [{ x with addr := y.servedAt x }] } := by
    rw [State.slotPlan, hdue]
    exact planOne_breaches hnow hbad
  obtain ⟨d, hd, htransfers⟩ := slotTransfers_breach ecc hplan
  obtain ⟨hmem, -⟩ := slotIdle_gives y j []
  have hidle := slotIdle_only y j []
  have hbreach := breach_only (y.slotIdle j []) R.BR_HEAP 1 j
  have hrd : (y.slotIdle j []).rd R.BR_HEAP = y.rd R.BR_HEAP := hidle.getReg (show ¬noRegs _ from id)
  have hcount : ((y.slotIdle j []).breach R.BR_HEAP 1 j).rd R.BR_HEAP = satWord (y.rd R.BR_HEAP) 1 := by
    rw [breach_counts (by decide) (by decide), hrd]
  have honly : Only (regsIn ([R.BR_HEAP.key 0, R.BR_FIRST.key 0] ++ reportKeys)) [.heap, .sched, .bitt, .xbar] y
      ((y.slotIdle j []).breach R.BR_HEAP 1 j) := (hidle.mono (fun _ hk => hk.elim) (by decide)).trans (hbreach.mono (fun _ hk => hk) (by decide))
  have hheap : ((y.slotIdle j []).breach R.BR_HEAP 1 j).heap.mem = y.heap.mem :=
    (congrArg Heap.mem (hbreach.same (p := .heap) (by decide))).trans hmem
  refine heapSlot_gives hy htransfers fun v hwork hstay => ?_
  have hstay (hq : y.quiet) (hdest : x.dest = .none) := hstay (honly.quiet (hq := hq)) (by simp [hd, hdest])
  refine ⟨by rw [finish_heap, hwork.mem, hheap], fun hq hdest => ?_, fun hq hdest => ?_⟩
  · rw [finish_rd (by decide), hstay hq hdest, hcount]
  · rw [hstay hq hdest]
    exact honly.frameFrom s

theorem heapSlot_waits {s y : State} {j : Fin 512} {n : Fin 4096} {ecc : List EccObs} (hy : y = s.atSlot n) (hq : y.quiet)
    (hall : (y.pc j).due.all (fun x => !x.now && decide (y.slotOwner j n ≠ some x.owner)) = true) :
    Gives (.heapSlotTransfer j n ecc false) s fun t =>
      (t.pc j).due = (y.pc j).due ∧ t.heap.mem = y.heap.mem ∧ Frame noRegs [.heap] y t := by
  have hplan : y.slotPlan j n (y.slotStart n) = { wait := (y.pc j).due } := plan_waits _ {} hall
  obtain ⟨hmem, hdue⟩ := slotIdle_gives y j (y.pc j).due
  have honly := slotIdle_only y j (y.pc j).due
  refine heapSlot_gives hy (slotTransfers_waits ecc hplan) fun v _ hstay => ?_
  rw [hstay (honly.quiet (hq := hq)) (by simp), finish_pc, finish_heap]
  exact ⟨hdue, hmem, honly.frameFrom s⟩

-- The sequencer check (R235).

/-- A controller's freeze as it shows: its state, `FRZ_INFO` and its page's event. -/
structure ShowsFreeze (h : Nat) (w : Word) (t : State) : Prop where
  frozen : (t.ctl h).state = .frozen
  info : t.rd R.FRZ_INFO h = w
  event : bit (t.hdr (0x40 + h / 32) hEvt) 0 = true

section ShowsFreeze

variable {h : Nat} {w : Word} {t : State} (hf : ShowsFreeze h w t)
include hf

theorem ShowsFreeze.work {u : State} (g : UnitWork t u) : ShowsFreeze h w u where
  frozen := by rw [State.ctl, g.heap]; exact hf.frozen
  info := (g.rd (by decide) (by decide)).trans hf.info
  event := g.events _ _ hf.event

theorem ShowsFreeze.setPc (j : Nat) (p : PCh) : ShowsFreeze h w (t.setPc j p) := ⟨hf.frozen, hf.info, hf.event⟩

theorem ShowsFreeze.serves : t.serves h = false := by
  rw [State.serves, hf.frozen]
  rfl

omit hf in
/-- A frozen controller answers reads with poison and discards writes (R236). -/
theorem ShowsFreeze.carry {j : Nat} (ecc : List EccObs) : ∀ (xs : List SXfer) (k : Nat) {t : State}, ShowsFreeze (j / 2) w t →
    ShowsFreeze (j / 2) w (t.carry j ecc k xs).1
  | [], _, _, hf => hf
  | x :: xs, k, t, hf => by
    unfold State.carry
    split
    · rw [hf.serves]
      exact ShowsFreeze.carry ecc xs (k + 1) hf
    · rw [hf.serves]
      exact ShowsFreeze.carry ecc xs (k + 1) (hf.work ((UnitWork.refl t).wr _ (by decide)))

theorem ShowsFreeze.failQueue (j : Nat) : ShowsFreeze h w (t.failQueue j) :=
  (hf.setPc j _).work ((UnitWork.refl _).foldl (fun _ _ hu => hu.respond ..) _)

theorem ShowsFreeze.dropUnserved (c : Nat) : ShowsFreeze h w (t.dropUnserved c) := by
  unfold State.dropUnserved
  split
  · exact hf
  · exact (hf.failQueue _).failQueue _

end ShowsFreeze

/-- A sequencer check's word in `FRZ_INFO`. -/
abbrev State.freezeWord (s : State) (m cause : Nat) : Word := word (at_ 32 (s.time.tide % 2 ^ 32) + at_ 20 s.slot + at_ 16 m + cause)

theorem stopCtl_shows (s : State) (h m : Nat) : ShowsFreeze h (s.freezeWord m 2) (s.stopCtl h m 2) := by
  unfold State.stopCtl
  dsimp only
  rw [if_neg (by decide : ¬(2 = 5)), if_neg (by decide : ¬(2 = 5)), if_neg (by decide : ¬(2 = 5))]
  refine ShowsFreeze.work ?_ ((UnitWork.refl _).report ..)
  refine ⟨?_, ?_, hdr_raise (by decide)⟩
  · rw [State.ctl, raise_heap, wr_heap, State.setCtl, mget_mset_self]
  · rw [rd_raise (by decide), rd_wr_self]
    rfl

/-- A slot's transfers in their parts, the sequencer check among them. -/
theorem slotTransfers_parts (s : State) (j slot start : Nat) (ecc : List EccObs) (seqFail : Bool) :
    s.slotTransfers j slot start ecc seqFail
    = let p := s.slotPlan j slot start
      let w := s.leftWaiting j p.wait
      let f := if seqFail ∧ w.serves (j / 2) then w.stopCtl (j / 2) (j % 2) 2 else w
      let c := f.carry j ecc 0 p.issue
      let b := (c.1.slotCounted j (f.serves (j / 2)) p.issue).breachAll j p.breach
      (b.1, c.2 ++ b.2) := rfl

/-- A serving controller's slot whose sequencer check fails. -/
theorem slotTransfers_freezes {y : State} (j slot start : Nat) (ecc : List EccObs) (hserves : y.serves (j / 2) = true) :
    ShowsFreeze (j / 2) (y.freezeWord (j % 2) 2) (y.slotTransfers j slot start ecc true).1 := by
  have hstop := stopCtl_shows (y.leftWaiting j (y.slotPlan j slot start).wait) (j / 2) (j % 2)
  have hleft : (y.leftWaiting j (y.slotPlan j slot start).wait).serves (j / 2) = true := hserves
  have hcarry := ShowsFreeze.carry (j := j) ecc (y.slotPlan j slot start).issue 0 hstop
  have hcount (xs : List SXfer) (t : State) (ht : ShowsFreeze (j / 2) (y.freezeWord (j % 2) 2) t) :
      ShowsFreeze (j / 2) (y.freezeWord (j % 2) 2) (xs.foldl (fun s _ => s.breach R.BR_HEAP 1 j) t) :=
    ht.work ((UnitWork.refl t).foldl (fun _ _ hu => hu.breach _ _ (by decide)) xs)
  rw [slotTransfers_parts]
  dsimp only
  rw [if_pos ⟨rfl, hleft⟩, hstop.serves]
  exact hcount _ _ (hcarry.setPc _ _)

theorem heapSlot_freezes {s y : State} {j : Fin 512} {n : Fin 4096} {ecc : List EccObs} (hy : y = s.atSlot n)
    (hserves : y.serves (j.val / 2) = true) : Gives (.heapSlotTransfer j n ecc true) s fun t => (t.ctl (j.val / 2)).state = .frozen
      ∧ t.rd R.FRZ_INFO (j.val / 2) = y.freezeWord (j.val % 2) 2 ∧ bit (t.hdr (0x40 + j.val / 64) hEvt) 0 = true := by
  have hcmd : exec (.heapSlotTransfer j n ecc true) s = done s (((y.slotTransfers j n (y.slotStart n) ecc true).1.dropUnserved
      (j.val / 2)).delivered (y.slotStart n) (y.slotTransfers j n (y.slotStart n) ecc true).2) := by
    subst hy
    rfl
  obtain ⟨hfrozen, hinfo, hevent⟩ :=
    ((slotTransfers_freezes j n (y.slotStart n) ecc hserves).dropUnserved (j.val / 2)).work (delivered_work _ (y.slotStart n)
      (y.slotTransfers j n (y.slotStart n) ecc true).2)
  rw [stack_of_pch] at hevent
  refine Gives.done hcmd ⟨?_, ?_, finish_events hevent⟩
  · rw [State.ctl, finish_heap]
    exact hfrozen
  · rw [finish_rd (by decide)]
    exact hinfo

end Sys2Proof.Machine

/-! PROOFS. One open request of a pseudo-channel: how it is chosen for an `OPEN` slot, and what its reads, merges and writes do
(spec/05 R124; spec/08 R234, R237, R245). -/

namespace Sys2Proof.Machine

-- A slot's choice of its one request (R124).

theorem serviceOrder_one (q : HReq) : serviceOrder [q] = [q] := by
  have hlt : min q.qos 15 < 16 := by omega
  unfold serviceOrder
  simp only [List.filter_singleton]
  generalize min q.qos 15 = m at hlt
  interval_cases m <;> rfl

theorem ready_one (q : HReq) : ((serviceOrder [q]).filter fun r => !heldBack (beforeReq [q] r) r) = [q] := by
  rw [serviceOrder_one]
  simp [beforeReq, heldBack]

theorem takeReqs_one {q : HReq} {x : HPart} (h : reqWork q = [x]) : takeReqs [] [] [q] = [q] := by
  simp [takeReqs, h, fitsSlot_nil]

/-- An `OPEN` slot whose one request is served by one transfer. -/
theorem openSlot_one {z : State} {j : Nat} {q : HReq} {x : HPart} (ecc : List EccObs) (hqueue : (z.pc j).queue = [q])
    (hrefused : z.reqRefused q = false) (hwork : reqWork q = [x]) : Booked j (z.serveReq j ecc 0 q) (z.openSlot j ecc) := by
  have hnone : ([q].filter z.reqRefused).foldl (fun s q => s.serveReq j ecc 0 q) z = z := by
    rw [List.filter_singleton, hrefused]
    rfl
  unfold State.openSlot
  rw [hqueue, hnone]
  dsimp only
  rw [hqueue]
  rw [ready_one, takeReqs_one hwork]
  simp only [List.head?_cons, Option.map_some, Option.getD_some, beq_self_eq_true, List.filter_cons, if_true, List.filter_nil,
    List.map_cons, List.map_nil, hwork, List.flatten_cons, List.flatten_nil, List.append_nil, State.serveAll, List.length_cons,
    List.length_nil]
  have hbooked (s : State) (n : Nat) (rows : List (Nat × Nat)) (writes : List Nat) :
      Booked j s (if n = 0 then s else (s.activateRows j rows).markSlot j n writes) := by
    split
    · exact Booked.refl j s
    · exact ((Booked.refl j s).activateRows _).markSlot _ _
  exact hbooked ..

/-- An `OPEN` slot whose one request is refused. -/
theorem openSlot_refuses {z : State} {j : Nat} {q : HReq} (ecc : List EccObs) (hqueue : (z.pc j).queue = [q])
    (hrefused : z.reqRefused q = true) (hstress : (z.serveReq j ecc 0 q).sched.stress = false)
    (hleft : ((z.serveReq j ecc 0 q).pc j).queue = []) : z.openSlot j ecc = z.serveReq j ecc 0 q := by
  have hone : ([q].filter z.reqRefused).foldl (fun s q => s.serveReq j ecc 0 q) z = z.serveReq j ecc 0 q := by
    rw [List.filter_singleton, hrefused]
    rfl
  unfold State.openSlot
  rw [hqueue, hone]
  dsimp only
  rw [hleft]
  have hnone : serviceOrder [] = [] := rfl
  simp [hnone, takeReqs, State.serveAll, hstress]

-- A request's place in its queue.

theorem requeue_only {K : Nat → Prop} (s : State) (j : Nat) (old : HReq) (new : Option HReq) :
    Only K [.heap] s (s.requeue j old new) := setPc_only ..

theorem requeue_mem (s : State) (j : Nat) (old : HReq) (new : Option HReq) : (s.requeue j old new).heap.mem = s.heap.mem := rfl

/-- The one request of a queue done. -/
theorem requeue_none {s : State} {j : Nat} {q : HReq} (h : (s.pc j).queue = [q]) : ((s.requeue j q none).pc j).queue = [] := by
  rw [State.requeue, pc_setPc_self, h]
  simp

/-- The one request of a queue replaced. -/
theorem requeue_some {s : State} {j : Nat} {q r : HReq} (h : (s.pc j).queue = [q]) : ((s.requeue j q (some r)).pc j).queue = [r] := by
  rw [State.requeue, pc_setPc_self, h]
  simp

-- A part of a transaction done, which was its last (R234, R238, R360).

/-- The transaction of a part, with the data of a read placed and the part counted. -/
def Txn.part (y : Txn) (off : Nat) (data : List Byte) (poison : Bool) : Txn :=
  { y with data := if y.write then y.data else y.data.take off ++ data ++ y.data.drop (off + data.length), left := y.left - 1
           bad := y.bad || poison }

theorem partDone_only {K : Nat → Prop} {ps : List Part} {s t : State} (id off : Nat) (data : List Byte) (poison : Bool)
    (hp : Part.xbar ∈ ps) (h : Only K ps s t) : Only K ps s (t.partDone id off data poison) := by
  unfold State.partDone
  split
  · exact h
  · exact Only.ite (Only.respond _ _ _ _ hp (h.set_xbar _ hp)) (h.set_xbar _ hp)

theorem partDone_last {s : State} {id : Nat} {y : Txn} (off : Nat) (data : List Byte) (poison : Bool)
    (hy : pget s.xbar.txns id = some y) (hleft : y.left = 1) (hresp : y.resp = none) :
    pget (s.partDone id off data poison).xbar.txns id = some { y.part off data poison with
      resp := some ((y.part off data poison).bad, (y.part off data poison).bad, (y.part off data poison).data), respAt := s.time.total } := by
  have hzero : (y.part off data poison).left = 0 := by rw [Txn.part, hleft]
  have hset : pget (s.setTxn id (some (y.part off data poison))).xbar.txns id = some (y.part off data poison) := by
    rw [State.setTxn, pget_pset_self]
  have hdone : s.partDone id off data poison = (s.setTxn id (some (y.part off data poison))).respond id (y.part off data poison).bad
      (y.part off data poison).bad (y.part off data poison).data := by
    rw [State.partDone, hy]
    exact if_pos hzero
  rw [hdone, respond_txn _ _ _ hset hresp]
  rfl

-- One open read (R237, R245).

/-- Whether an open read finds its word uncorrectable. -/
abbrev State.readBad (s : State) (j : Nat) (ecc : List EccObs) (k : Nat) : Bool := (eccOf ecc k).2 || s.injected (j / 2)

theorem openRead_only (s : State) (j a k : Nat) (ecc : List EccObs) :
    Only (regsIn (readKeys j)) [.bitt, .heap] s (s.openRead j a k ecc).1 :=
  Only.set_heap _ (by decide) ((readXfer_only s j a (eccOf ecc k).1 (s.readBad j ecc k)).mono (fun _ hk => hk) (by decide))

theorem openRead_heap (s : State) (j a k : Nat) (ecc : List EccObs) : (s.openRead j a k ecc).1.heap.mem = s.heap.mem
    ∧ (s.openRead j a k ecc).1.heap.pch = s.heap.pch := by
  have hheap : (s.readXfer j a (eccOf ecc k).1 (s.readBad j ecc k)).1.heap = s.heap := (readXfer_only ..).same (p := .heap) (by decide)
  exact ⟨(congrArg Heap.mem hheap :), (congrArg Heap.pch hheap :)⟩

theorem openRead_good {s : State} {j k : Nat} {ecc : List EccObs} (a : Nat) (h : s.readBad j ecc k = false) :
    (s.openRead j a k ecc).2 = (s.heapBytesAt a 64, false)
    ∧ Only (regsIn ([R.FWD_HITS, R.ERR_CORR].map fun r => r.key (j / 2))) [.heap] s (s.openRead j a k ecc).1 := by
  have hnoted := readNoted_only s j a (eccOf ecc k).1
  have hread : s.readXfer j a (eccOf ecc k).1 (s.readBad j ecc k)
      = (s.readNoted j a (eccOf ecc k).1, (s.readNoted j a (eccOf ecc k).1).heapBytesAt a 64, false) := by
    rw [readXfer_eq, h]
    rfl
  have hbytes : (s.readNoted j a (eccOf ecc k).1).heapBytesAt a 64 = s.heapBytesAt a 64 := by
    rw [State.heapBytesAt, hnoted.same (p := .heap) (by decide), State.heapBytesAt]
  refine ⟨(congrArg Prod.snd hread).trans (by rw [hbytes]), Only.set_heap _ (by decide) ?_⟩
  rw [hread]
  exact hnoted.mono (fun _ hk => hk) (by decide)

theorem openRead_bad {s : State} {j k : Nat} {ecc : List EccObs} (a : Nat) (h : s.readBad j ecc k = true) :
    (s.openRead j a k ecc).2 = (poisonData, true)
    ∧ (s.openRead j a k ecc).1.rd R.ERR_UNCORR (j / 2) = satWord (s.rd R.ERR_UNCORR (j / 2)) 1
    ∧ bit ((s.openRead j a k ecc).1.hdr (0x40 + j / 64) hEvt) 2 = true := by
  have hread : s.readXfer j a (eccOf ecc k).1 (s.readBad j ecc k)
      = ((s.readNoted j a (eccOf ecc k).1).uncorrectable (j / 2) a, poisonData, true) := by
    rw [readXfer_eq, h]
    rfl
  obtain ⟨-, hunc⟩ := readXfer_rd s j a (eccOf ecc k).1 (s.readBad j ecc k)
  have hevent := uncorrectable_event (s.readNoted j a (eccOf ecc k).1) (j / 2) a
  have hfst : (s.readXfer j a (eccOf ecc k).1 (s.readBad j ecc k)).1 = (s.readNoted j a (eccOf ecc k).1).uncorrectable (j / 2) a :=
    congrArg Prod.fst hread
  rw [stack_of_pch, ← hfst] at hevent
  exact ⟨congrArg Prod.snd hread, hunc.trans (by rw [h]; rfl), hevent⟩

end Sys2Proof.Machine

/-! PROOFS. `OPEN` slots by what waits at their pseudo-channel (spec/05 R113, R124; spec/08 R234, R236, R237, R309). -/

namespace Sys2Proof.Machine

/-- The command in an `OPEN` slot of a controller that serves. -/
theorem openSlotService_done {s z : State} {j : Fin 512} {n : Fin 4096} {ecc : List EccObs} (hz : z = s.atSlot n)
    (hserves : z.serves (j.val / 2) = true) (hopen : z.hasOpen 0 j = true) (hclass : z.classAt 0 j n = some .open_) :
    exec (.openSlotService j n ecc) s = done s (z.openSlot j ecc) := by
  subst hz
  exact congrArg (done s) ((if_pos hserves).trans ((if_neg (by simp [hopen])).trans (if_pos hclass)))

theorem Booked.queue {j : Nat} {s t : State} (h : Booked j s t) : (t.pc j).queue = (s.pc j).queue := (h.work j).2.1

theorem Booked.xbar {j : Nat} {s t : State} (h : Booked j s t) : t.xbar = s.xbar := h.only.same (p := .xbar) (by decide)

theorem reqRefused_one (z : State) (id qos : Nat) (x : HPart) :
    z.reqRefused { txn := id, qos := qos, write := true, parts := [x] } = z.weightRefused (x.addr + x.lo) x.len := by
  simp [State.reqRefused]

-- A write that needs no merge, or has its merge buffer filled (R234).

theorem wantsWrite_one {id qos : Nat} {x : HPart} (h : x.len = 64 ∨ x.merge.isSome = true) :
    wantsWrite { txn := id, qos := qos, write := true, parts := [x] } = true := by
  rcases h with h | h <;> simp [wantsWrite, needsMerge, h]

/-- The state in which the one request of a pseudo-channel, a write, is done. -/
def State.openWritten (z : State) (j : Nat) (q : HReq) (x : HPart) : State :=
  ((z.requeue j q none).writeXfer j x.addr (x.merge.getD x.data)).partDone q.txn 0 [] false

theorem serveReq_write {z : State} {j id qos : Nat} {x : HPart} (ecc : List EccObs) (h : x.len = 64 ∨ x.merge.isSome = true)
    (hrefused : z.weightRefused (x.addr + x.lo) x.len = false) :
    z.serveReq j ecc 0 { txn := id, qos := qos, write := true, parts := [x] }
      = z.openWritten j { txn := id, qos := qos, write := true, parts := [x] } x := by
  rw [State.serveReq, reqRefused_one, hrefused, wantsWrite_one h]
  rfl

theorem openWritten_only (z : State) (j : Nat) (q : HReq) (x : HPart) : Only noRegs [.heap, .xbar] z (z.openWritten j q x) :=
  partDone_only _ _ _ _ (by decide) (((requeue_only z j q none).trans (writeXfer_only ..)).mono (fun _ hk => hk) (by decide))

theorem openWritten_heap {z : State} {j : Nat} {q : HReq} {x : HPart} (hqueue : (z.pc j).queue = [q]) :
    (z.openWritten j q x).heap.mem = z.heap.mem.write x.addr (x.merge.getD x.data) ∧ ((z.openWritten j q x).pc j).queue = [] := by
  have hheap : (z.openWritten j q x).heap = ((z.requeue j q none).writeXfer j x.addr (x.merge.getD x.data)).heap :=
    (partDone_only (K := noRegs) (ps := [.xbar]) _ _ _ _ (by decide) (Only.refl _ _ _)).same (p := .heap) (by decide)
  refine ⟨by rw [hheap, writeXfer_mem, requeue_mem], ?_⟩
  rw [State.pc, hheap, ← State.pc, writeXfer_pc, requeue_none hqueue]
  rfl

theorem openWritten_txn {z : State} {j : Nat} {q : HReq} {y : Txn} (x : HPart) (hy : pget z.xbar.txns q.txn = some y)
    (hleft : y.left = 1) (hw : y.write = true) (hgood : y.bad = false) (hresp : y.resp = none) :
    pget (z.openWritten j q x).xbar.txns q.txn
      = some { y with left := 0, resp := some (false, false, y.data), respAt := z.time.total } := by
  have hpart : y.part 0 [] false = { y with left := 0 } := by
    rw [Txn.part, if_pos hw, hleft, Bool.or_false]
  have hlast := partDone_last (s := (z.requeue j q none).writeXfer j x.addr (x.merge.getD x.data)) 0 [] false hy hleft hresp
  rw [hpart] at hlast
  dsimp only at hlast
  rw [hgood] at hlast
  rw [State.openWritten, hlast, ← hgood]
  rfl

theorem openSlot_writes {s z : State} {j : Fin 512} {n : Fin 4096} {ecc : List EccObs} {x : HPart} {y : Txn} {id q : Nat}
    (hz : z = s.atSlot n) (hserves : z.serves (j.val / 2) = true) (hopen : z.hasOpen 0 j = true)
    (hclass : z.classAt 0 j n = some .open_) (hqueue : (z.pc j).queue = [{ txn := id, qos := q, write := true, parts := [x] }])
    (hwhole : x.len = 64 ∨ x.merge.isSome = true) (hlen : (x.merge.getD x.data).length = 64)
    (hrefused : z.weightRefused (x.addr + x.lo) x.len = false) (hy : pget z.xbar.txns id = some y) (hleft : y.left = 1)
    (hw : y.write = true) (hgood : y.bad = false) (hresp : y.resp = none) : Gives (.openSlotService j n ecc) s fun t =>
      (∀ a, t.heap.mem.byte a = if x.addr ≤ a ∧ a < x.addr + 64 then (x.merge.getD x.data).getD (a - x.addr) 0 else z.heap.mem.byte a)
      ∧ (t.pc j).queue = []
      ∧ pget t.xbar.txns id = some { y with left := 0, resp := some (false, false, y.data), respAt := z.time.total }
      ∧ Frame (regsIn (actKeys j)) [.heap, .xbar] z t := by
  have hbooked := openSlot_one ecc hqueue ((reqRefused_one ..).trans hrefused) (by rw [reqWork, wantsWrite_one hwhole]; rfl)
  rw [serveReq_write ecc hwhole hrefused] at hbooked
  obtain ⟨hmem, hempty⟩ := openWritten_heap (x := x) hqueue
  have honly := openWritten_only z j { txn := id, qos := q, write := true, parts := [x] } x
  have htxn := openWritten_txn (j := j) (q := { txn := id, qos := q, write := true, parts := [x] }) x hy hleft hw hgood hresp
  refine Gives.done (openSlotService_done hz hserves hopen hclass) ⟨fun a => ?_, ?_, ?_, ?_⟩
  · rw [finish_heap, hbooked.mem, hmem, Memory.byte_write, hlen]
  · rw [finish_pc, hbooked.queue, hempty]
  · rw [finish_xbar, hbooked.xbar, htxn]
  · exact ((honly.mono (fun _ hk => hk.elim) (by decide)).trans (hbooked.only.mono (fun _ hk => hk) (by decide))).frameFrom s

-- A partial write is read first (R234).

theorem wantsWrite_partial {id qos : Nat} {x : HPart} (hlen : x.len < 64) (hmerge : x.merge = none) :
    wantsWrite { txn := id, qos := qos, write := true, parts := [x] } = false ∧ needsMerge true x = true := by
  have hne : x.len ≠ 64 := by omega
  simp [wantsWrite, needsMerge, hne, hmerge]

/-- A part with its merge buffer filled from what the heap holds. -/
def State.mergedPart (z : State) (x : HPart) : HPart :=
  { x with merge := some ((z.heapBytesAt x.addr 64).take x.lo ++ x.data ++ (z.heapBytesAt x.addr 64).drop (x.lo + x.len)) }

/-- The state in which the one request of a pseudo-channel has been read for its merge. -/
def State.openMerged (z : State) (j : Nat) (ecc : List EccObs) (q : HReq) (x : HPart) : State :=
  (z.openRead j x.addr 0 ecc).1.requeue j q (some { q with parts := [z.mergedPart x] })

theorem serveReq_merge {z : State} {j id qos : Nat} {x : HPart} {ecc : List EccObs} (hlen : x.len < 64) (hmerge : x.merge = none)
    (hrefused : z.weightRefused (x.addr + x.lo) x.len = false) (hgood : z.readBad j ecc 0 = false) :
    z.serveReq j ecc 0 { txn := id, qos := qos, write := true, parts := [x] }
      = z.openMerged j ecc { txn := id, qos := qos, write := true, parts := [x] } x := by
  obtain ⟨hwants, hneeds⟩ := wantsWrite_partial (id := id) (qos := qos) hlen hmerge
  obtain ⟨hdata, -⟩ := openRead_good x.addr hgood
  have hreads : z.mergeReads j ecc 0 [x] = ((z.openRead j x.addr 0 ecc).1, [z.mergedPart x], false) := by
    have hread : z.openRead j x.addr 0 ecc = ((z.openRead j x.addr 0 ecc).1, z.heapBytesAt x.addr 64, false) := Prod.ext rfl hdata
    generalize (z.openRead j x.addr 0 ecc).1 = u at hread ⊢
    rw [State.mergeReads, if_pos hneeds, hread]
    rfl
  rw [State.serveReq, reqRefused_one, hrefused, hwants]
  dsimp only
  rw [hreads]
  rfl

/-- The registers in which an `OPEN` slot's correctable reads and activations may show. -/
abbrev openKeys (j : Nat) : List Nat := regKey 0 (0x40 + j / 64) 0 hEvt :: [R.MIT_OVF, R.FWD_HITS, R.ERR_CORR].map fun r => r.key (j / 2)

theorem openKeys_of_read {j : Nat} : ∀ k, regsIn ([R.FWD_HITS, R.ERR_CORR].map fun r => r.key (j / 2)) k → regsIn (openKeys j) k := by
  simp +contextual [regsIn]

theorem openKeys_of_act {j : Nat} : ∀ k, regsIn (actKeys j) k → regsIn (openKeys j) k := by
  simp +contextual [regsIn, or_imp]

theorem openMerged_booked {z : State} {j id q : Nat} {ecc : List EccObs} {x : HPart}
    (hqueue : (z.pc j).queue = [{ txn := id, qos := q, write := true, parts := [x] }]) (hlen : x.len < 64) (hmerge : x.merge = none)
    (hrefused : z.weightRefused (x.addr + x.lo) x.len = false) (hgood : z.readBad j ecc 0 = false) :
    Booked j (z.openMerged j ecc { txn := id, qos := q, write := true, parts := [x] } x) (z.openSlot j ecc) := by
  obtain ⟨hwants, hneeds⟩ := wantsWrite_partial (id := id) (qos := q) hlen hmerge
  have hwork : reqWork { txn := id, qos := q, write := true, parts := [x] } = [x] := by
    rw [reqWork, hwants]
    simp [hneeds]
  have hbooked := openSlot_one ecc hqueue ((reqRefused_one ..).trans hrefused) hwork
  rwa [serveReq_merge hlen hmerge hrefused hgood] at hbooked

theorem openMerged_gives {z : State} {j : Nat} {ecc : List EccObs} {q : HReq} {x : HPart} (hqueue : (z.pc j).queue = [q])
    (hgood : z.readBad j ecc 0 = false) : ((z.openMerged j ecc q x).pc j).queue = [{ q with parts := [z.mergedPart x] }]
    ∧ (z.openMerged j ecc q x).heap.mem = z.heap.mem
    ∧ Only (regsIn ([R.FWD_HITS, R.ERR_CORR].map fun r => r.key (j / 2))) [.heap] z (z.openMerged j ecc q x) := by
  obtain ⟨-, hread⟩ := openRead_good x.addr hgood
  obtain ⟨hmem, hpch⟩ := openRead_heap z j x.addr 0 ecc
  have hstill : ((z.openRead j x.addr 0 ecc).1.pc j).queue = [q] := by
    rw [State.pc, hpch, ← State.pc, hqueue]
  exact ⟨by rw [State.openMerged, requeue_some hstill], hmem, hread.trans (requeue_only ..)⟩

theorem openSlot_merges {s z : State} {j : Fin 512} {n : Fin 4096} {ecc : List EccObs} {x : HPart} {id q : Nat}
    (hz : z = s.atSlot n) (hserves : z.serves (j.val / 2) = true) (hopen : z.hasOpen 0 j = true)
    (hclass : z.classAt 0 j n = some .open_) (hqueue : (z.pc j).queue = [{ txn := id, qos := q, write := true, parts := [x] }])
    (hlen : x.len < 64) (hmerge : x.merge = none) (hecc : (eccOf ecc 0).2 = false) (hinj : z.injected (j.val / 2) = false)
    (hrefused : z.weightRefused (x.addr + x.lo) x.len = false) : Gives (.openSlotService j n ecc) s fun t =>
      (t.pc j).queue = [{ txn := id, qos := q, write := true, parts := [z.mergedPart x] }]
      ∧ t.heap.mem = z.heap.mem ∧ t.xbar = z.xbar ∧ Frame (regsIn (openKeys j)) [.heap] z t := by
  have hgood : z.readBad j ecc 0 = false := by rw [State.readBad, hecc, hinj]; rfl
  have hbooked := openMerged_booked hqueue hlen hmerge hrefused hgood
  obtain ⟨hwaits, hmem, honly⟩ := openMerged_gives (x := x) hqueue hgood
  refine Gives.done (openSlotService_done hz hserves hopen hclass) ⟨?_, ?_, ?_, ?_⟩
  · rw [finish_pc, hbooked.queue, hwaits]
  · rw [finish_heap, hbooked.mem, hmem]
  · rw [finish_xbar, hbooked.xbar]
    exact honly.same (p := .xbar) (by decide)
  · exact ((honly.mono openKeys_of_read (by decide)).trans (hbooked.only.mono openKeys_of_act (by decide))).frameFrom s

end Sys2Proof.Machine

/-! PROOFS. `OPEN` slots that read, refuse or cannot serve (spec/05 R113, R124; spec/08 R234, R236, R237, R309). -/

namespace Sys2Proof.Machine

-- A read (R124, R237).

/-- The state in which the one request of a pseudo-channel, a read, is done: its data placed at an offset. -/
def State.openAnswered (z : State) (j : Nat) (ecc : List EccObs) (q : HReq) (x : HPart) (off : Nat) : State :=
  let r := (z.requeue j q none).openRead j x.addr 0 ecc
  r.1.partDone q.txn off ((r.2.1.drop x.lo).take x.len) r.2.2

theorem serveReq_read {z : State} {j id qos : Nat} {x : HPart} {y : Txn} (ecc : List EccObs) (hy : pget z.xbar.txns id = some y) :
    z.serveReq j ecc 0 { txn := id, qos := qos, write := false, parts := [x] }
      = z.openAnswered j ecc { txn := id, qos := qos, write := false, parts := [x] } x (x.addr + x.lo - y.addr) := by
  have hnot : z.reqRefused { txn := id, qos := qos, write := false, parts := [x] } = false := by simp [State.reqRefused]
  rw [State.serveReq, hnot, hy]
  rfl

theorem openAnswered_heap {z : State} {j : Nat} {q : HReq} (ecc : List EccObs) (x : HPart) (off : Nat)
    (hqueue : (z.pc j).queue = [q]) : (z.openAnswered j ecc q x off).heap.mem = z.heap.mem
    ∧ ((z.openAnswered j ecc q x off).pc j).queue = [] := by
  have hheap : (z.openAnswered j ecc q x off).heap = ((z.requeue j q none).openRead j x.addr 0 ecc).1.heap :=
    (partDone_only (K := noRegs) (ps := [.xbar]) _ _ _ _ (by decide) (Only.refl _ _ _)).same (p := .heap) (by decide)
  obtain ⟨hmem, hpch⟩ := openRead_heap (z.requeue j q none) j x.addr 0 ecc
  refine ⟨by rw [hheap, hmem, requeue_mem], ?_⟩
  rw [State.pc, hheap, hpch, ← State.pc, requeue_none hqueue]

theorem openAnswered_booked {z : State} {j : Nat} {x : HPart} {y : Txn} {id q : Nat} (ecc : List EccObs)
    (hqueue : (z.pc j).queue = [{ txn := id, qos := q, write := false, parts := [x] }]) (hy : pget z.xbar.txns id = some y) :
    Booked j (z.openAnswered j ecc { txn := id, qos := q, write := false, parts := [x] } x (x.addr + x.lo - y.addr)) (z.openSlot j ecc) := by
  have hbooked := openSlot_one (x := x) ecc hqueue (by simp [State.reqRefused]) (by simp [reqWork])
  rwa [serveReq_read ecc hy] at hbooked

theorem heapBytesAt_length (s : State) (a n : Nat) : (s.heapBytesAt a n).length = n := by
  have hlen (m : Memory) : ∀ (k b : Nat), (m.bytes b k).length = k := by
    intro k
    induction k with
    | zero => intro b; rfl
    | succ k ih => intro b; rw [Memory.bytes, List.length_cons, ih]
  rw [State.heapBytesAt, List.length_map, List.length_zipIdx, hlen]

/-- What the transaction holds: its data or poison, and its response. -/
theorem openAnswered_txn {z : State} {j off : Nat} {ecc : List EccObs} {q : HReq} {x : HPart} {y : Txn} {d : List Byte} {bad : Bool}
    (hread : ((z.requeue j q none).openRead j x.addr 0 ecc).2 = (d, bad)) (hy : pget z.xbar.txns q.txn = some y) (hleft : y.left = 1)
    (hresp : y.resp = none) : pget (z.openAnswered j ecc q x off).xbar.txns q.txn = some { y.part off ((d.drop x.lo).take x.len) bad with
      resp := some (y.bad || bad, y.bad || bad, (y.part off ((d.drop x.lo).take x.len) bad).data), respAt := z.time.total } := by
  have honly := openRead_only (z.requeue j q none) j x.addr 0 ecc
  have htime : ((z.requeue j q none).openRead j x.addr 0 ecc).1.time = z.time := honly.same (p := .time) (by decide)
  have hxbar : ((z.requeue j q none).openRead j x.addr 0 ecc).1.xbar = z.xbar := honly.same (p := .xbar) (by decide)
  have hlast := partDone_last off ((d.drop x.lo).take x.len) bad (hxbar ▸ hy) hleft hresp
  rw [htime] at hlast
  have hanswer : z.openAnswered j ecc q x off
      = ((z.requeue j q none).openRead j x.addr 0 ecc).1.partDone q.txn off ((d.drop x.lo).take x.len) bad := by
    rw [State.openAnswered, hread]
  rw [hanswer, hlast]
  rfl

/-- A read's data in the place of all that its transaction held. -/
theorem part_read {y : Txn} {d : List Byte} (hw : y.write = false) (hleft : y.left = 1) (hlen : d.length = y.data.length) :
    y.part 0 d false = { y with left := 0, data := d } := by
  rw [Txn.part, if_neg (by simp [hw]), hleft, Bool.or_false, Nat.zero_add, hlen, List.drop_length, List.take_zero, List.nil_append,
    List.append_nil]

theorem openSlot_reads {s z : State} {j : Fin 512} {n : Fin 4096} {ecc : List EccObs} {x : HPart} {y : Txn} {id q : Nat}
    (hz : z = s.atSlot n) (hserves : z.serves (j.val / 2) = true) (hopen : z.hasOpen 0 j = true)
    (hclass : z.classAt 0 j n = some .open_) (hqueue : (z.pc j).queue = [{ txn := id, qos := q, write := false, parts := [x] }])
    (hecc : (eccOf ecc 0).2 = false) (hinj : z.injected (j.val / 2) = false) (hfit : x.lo + x.len ≤ 64)
    (hy : pget z.xbar.txns id = some y) (haddr : y.addr = x.addr + x.lo) (hlen : y.data.length = x.len) (hleft : y.left = 1)
    (hw : y.write = false) (hgood : y.bad = false) (hresp : y.resp = none) : Gives (.openSlotService j n ecc) s fun t =>
      pget t.xbar.txns id = some { y with left := 0, data := ((z.heapBytesAt x.addr 64).drop x.lo).take x.len, resp := some (false, false, ((z.heapBytesAt x.addr 64).drop x.lo).take x.len), respAt := z.time.total }
      ∧ (t.pc j).queue = [] ∧ t.heap.mem = z.heap.mem ∧ Frame (regsIn (openKeys j)) [.heap, .xbar] z t := by
  have hbooked := openAnswered_booked ecc hqueue hy
  obtain ⟨hmem, hempty⟩ := openAnswered_heap ecc x (x.addr + x.lo - y.addr) hqueue
  rw [haddr, Nat.sub_self] at hbooked hmem hempty
  obtain ⟨hdata, hread⟩ := openRead_good (s := z.requeue j { txn := id, qos := q, write := false, parts := [x] } none) (k := 0)
    (ecc := ecc) x.addr (show z.readBad j ecc 0 = false by rw [State.readBad, hecc, hinj]; rfl)
  have hcount : (((z.heapBytesAt x.addr 64).drop x.lo).take x.len).length = y.data.length := by
    rw [List.length_take, List.length_drop, heapBytesAt_length, hlen]
    omega
  have hsame : (z.requeue j { txn := id, qos := q, write := false, parts := [x] } none).heapBytesAt x.addr 64 = z.heapBytesAt x.addr 64 := by
    rw [State.heapBytesAt, requeue_mem]
    rfl
  have htxn := openAnswered_txn (off := 0) (hsame ▸ hdata) hy hleft hresp
  have hplaced := part_read (d := ((z.heapBytesAt x.addr 64).drop x.lo).take x.len) hw hleft hcount
  have honly : Only (regsIn ([R.FWD_HITS, R.ERR_CORR].map fun r => r.key (j.val / 2))) [.heap, .xbar] z
      (z.openAnswered j ecc { txn := id, qos := q, write := false, parts := [x] } x 0) :=
    partDone_only _ _ _ _ (by decide) (((requeue_only ..).trans hread).mono (fun _ hk => hk) (by decide))
  refine Gives.done (openSlotService_done hz hserves hopen hclass) ⟨?_, ?_, ?_, ?_⟩
  · rw [finish_xbar, hbooked.xbar, htxn, hplaced, hgood, Bool.or_self]
  · rw [finish_pc, hbooked.queue, hempty]
  · rw [finish_heap, hbooked.mem, hmem]
  · exact ((honly.mono openKeys_of_read (by decide)).trans (hbooked.only.mono openKeys_of_act (by decide))).frameFrom s

-- An uncorrectable read (R237, R245).

theorem Booked.rd {j : Nat} {s t : State} (h : Booked j s t) {r : Reg} {u : Nat} (hr : r.InPage) (hoff : r.off ≠ R.MIT_OVF.off) :
    t.rd r u = s.rd r u := by
  refine h.only.getReg ?_
  simp only [regsIn, List.mem_cons, List.not_mem_nil, or_false, not_or]
  exact ⟨Reg.key_ne_key hr (by decide) (by simpa using hoff), Reg.key_ne_hdr hr (by decide)⟩

theorem openSlot_poisons {s z : State} {j : Fin 512} {n : Fin 4096} {ecc : List EccObs} {x : HPart} {y : Txn} {id q : Nat}
    (hz : z = s.atSlot n) (hserves : z.serves (j.val / 2) = true) (hopen : z.hasOpen 0 j = true)
    (hclass : z.classAt 0 j n = some .open_) (hqueue : (z.pc j).queue = [{ txn := id, qos := q, write := false, parts := [x] }])
    (hbad : (eccOf ecc 0).2 = true ∨ z.injected (j.val / 2) = true) (hy : pget z.xbar.txns id = some y) (hleft : y.left = 1)
    (hresp : y.resp = none) : Gives (.openSlotService j n ecc) s fun t =>
      (pget t.xbar.txns id).bind (fun y => y.resp.map fun r => (r.1, r.2.1)) = some (true, true)
      ∧ t.rd R.ERR_UNCORR (j.val / 2) = satWord (z.rd R.ERR_UNCORR (j.val / 2)) 1
      ∧ bit (t.hdr (0x40 + j.val / 64) hEvt) 2 = true ∧ (t.pc j).queue = [] ∧ t.heap.mem = z.heap.mem := by
  have hbooked := openAnswered_booked ecc hqueue hy
  obtain ⟨hmem, hempty⟩ := openAnswered_heap ecc x (x.addr + x.lo - y.addr) hqueue
  obtain ⟨hdata, hunc, hevent⟩ := openRead_bad (s := z.requeue j { txn := id, qos := q, write := false, parts := [x] } none) (k := 0)
    (ecc := ecc) x.addr (show z.readBad j ecc 0 = true by simpa [State.readBad] using hbad)
  have htxn := openAnswered_txn (off := x.addr + x.lo - y.addr) hdata hy hleft hresp
  have hpart : Only noRegs [.xbar] ((z.requeue j { txn := id, qos := q, write := false, parts := [x] } none).openRead j x.addr 0 ecc).1
      (z.openAnswered j ecc { txn := id, qos := q, write := false, parts := [x] } x (x.addr + x.lo - y.addr)) :=
    partDone_only _ _ _ _ (by decide) (Only.refl _ _ _)
  have hcounted : (z.openAnswered j ecc { txn := id, qos := q, write := false, parts := [x] } x (x.addr + x.lo - y.addr)).rd R.ERR_UNCORR
      (j.val / 2) = satWord (z.rd R.ERR_UNCORR (j.val / 2)) 1 := (hpart.getReg (show ¬noRegs _ from fun h => h)).trans hunc
  have hraised : bit ((z.openAnswered j ecc { txn := id, qos := q, write := false, parts := [x] } x (x.addr + x.lo - y.addr)).hdr
      (0x40 + j.val / 64) hEvt) 2 = true := by
    rw [State.hdr, hpart.getReg (show ¬noRegs _ from fun h => h)]
    exact hevent
  refine Gives.done (openSlotService_done hz hserves hopen hclass) ⟨?_, ?_, ?_, ?_, ?_⟩
  · rw [finish_xbar, hbooked.xbar, htxn]
    simp
  · rw [finish_rd (by decide), hbooked.rd (by decide) (by decide), hcounted]
  · exact finish_events (hbooked.events _ _ hraised)
  · rw [finish_pc, hbooked.queue, hempty]
  · rw [finish_heap, hbooked.mem, hmem]

-- A write into the weight copy in use (R309).

/-- The state in which the one request of a pseudo-channel has been refused. -/
def State.openRefused (z : State) (j : Nat) (q : HReq) : State :=
  ((z.requeue j q none).count R.WT_REFUSED 0).respond q.txn true false []

theorem serveReq_refused {z : State} {j id qos : Nat} {x : HPart} (ecc : List EccObs)
    (hrefused : z.weightRefused (x.addr + x.lo) x.len = true) : z.serveReq j ecc 0 { txn := id, qos := qos, write := true, parts := [x] }
      = z.openRefused j { txn := id, qos := qos, write := true, parts := [x] } := by
  rw [State.serveReq, reqRefused_one, hrefused]
  rfl

theorem openRefused_only (z : State) (j : Nat) (q : HReq) :
    Only (regsIn [R.WT_REFUSED.key 0]) [.heap, .xbar] z (z.openRefused j q) :=
  Only.respond _ _ _ _ (by decide) (Only.wr _ (by simp [regsIn]) ((requeue_only z j q none).mono (fun _ hk => hk) (by decide)))

theorem openRefused_gives {z : State} {j : Nat} {q : HReq} {y : Txn} (hqueue : (z.pc j).queue = [q])
    (hy : pget z.xbar.txns q.txn = some y) (hresp : y.resp = none) :
    pget (z.openRefused j q).xbar.txns q.txn = some { y with resp := some (true, false, []), respAt := z.time.total }
    ∧ (z.openRefused j q).rd R.WT_REFUSED = satWord (z.rd R.WT_REFUSED) 1 ∧ ((z.openRefused j q).pc j).queue = []
    ∧ (z.openRefused j q).heap.mem = z.heap.mem := by
  have hanswer : Only noRegs [.xbar] ((z.requeue j q none).count R.WT_REFUSED 0) (z.openRefused j q) :=
    Only.respond _ _ _ _ (by decide) (Only.refl _ _ _)
  have hheap : (z.openRefused j q).heap = (z.requeue j q none).heap := hanswer.same (p := .heap) (by decide)
  refine ⟨respond_txn (s := (z.requeue j q none).count R.WT_REFUSED 0) true false [] hy hresp, ?_, ?_, by rw [hheap, requeue_mem]⟩
  · have hrd : (z.openRefused j q).rd R.WT_REFUSED = ((z.requeue j q none).count R.WT_REFUSED 0).rd R.WT_REFUSED :=
      hanswer.getReg (show ¬noRegs _ from fun h => h)
    rw [hrd, State.count, rd_wr_self]
    rfl
  · rw [State.pc, hheap, ← State.pc, requeue_none hqueue]

theorem openSlot_refusal {s z : State} {j : Fin 512} {n : Fin 4096} {ecc : List EccObs} {x : HPart} {y : Txn} {id q : Nat}
    (hz : z = s.atSlot n) (hserves : z.serves (j.val / 2) = true) (hopen : z.hasOpen 0 j = true)
    (hclass : z.classAt 0 j n = some .open_) (hstress : z.sched.stress = false)
    (hqueue : (z.pc j).queue = [{ txn := id, qos := q, write := true, parts := [x] }])
    (hrefused : z.weightRefused (x.addr + x.lo) x.len = true) (hy : pget z.xbar.txns id = some y) (hresp : y.resp = none) :
    Gives (.openSlotService j n ecc) s fun t =>
      pget t.xbar.txns id = some { y with resp := some (true, false, []), respAt := z.time.total }
      ∧ t.rd R.WT_REFUSED = satWord (z.rd R.WT_REFUSED) 1 ∧ (t.pc j).queue = [] ∧ t.heap.mem = z.heap.mem
      ∧ Frame (regsIn [R.WT_REFUSED.key 0]) [.heap, .xbar] z t := by
  have honly := openRefused_only z j { txn := id, qos := q, write := true, parts := [x] }
  obtain ⟨htxn, hcount, hempty, hmem⟩ := openRefused_gives hqueue hy hresp
  have hsched : (z.openRefused j { txn := id, qos := q, write := true, parts := [x] }).sched = z.sched := honly.same (p := .sched) (by decide)
  have hslot : z.openSlot j ecc = z.openRefused j { txn := id, qos := q, write := true, parts := [x] } := by
    rw [← serveReq_refused ecc hrefused] at hsched hempty ⊢
    exact openSlot_refuses ecc hqueue ((reqRefused_one ..).trans hrefused) (by rw [hsched, hstress]) hempty
  refine Gives.done ((openSlotService_done hz hserves hopen hclass).trans (by rw [hslot])) ?_
  rw [finish_xbar, finish_rd (by decide), finish_pc, finish_heap]
  exact ⟨htxn, hcount, hempty, hmem, honly.frameFrom s⟩

end Sys2Proof.Machine

/-! PROOFS. Open requests that nothing can serve (spec/05 R113; spec/08 R236). -/

namespace Sys2Proof.Machine

-- Transactions that have their response (R360).

/-- A transaction that is known and has its response. -/
abbrev State.answered (s : State) (id : Nat) : Prop := (pget s.xbar.txns id).map (·.resp.isSome) = some true

theorem respond_answers {s : State} {id : Nat} {y : Txn} (err poison : Bool) (data : List Byte) (hy : pget s.xbar.txns id = some y) :
    (s.respond id err poison data).answered id := by
  cases hresp : y.resp with
  | none => rw [State.answered, respond_txn err poison data hy hresp]; rfl
  | some r =>
    have hstays : s.respond id err poison data = s := by
      rw [State.respond, hy]
      exact if_pos (by rw [hresp]; rfl)
    rw [hstays, State.answered, hy, Option.map_some, hresp]
    rfl

theorem respond_txn_ne {s : State} {id i : Nat} (err poison : Bool) (data : List Byte) (h : i ≠ id) :
    pget (s.respond id err poison data).xbar.txns i = pget s.xbar.txns i := by
  unfold State.respond
  split
  · split
    · rfl
    · rw [State.setTxn, pget_pset_ne h]
  · rfl

theorem respond_keeps_answered {s : State} {i : Nat} (id : Nat) (err poison : Bool) (data : List Byte) (h : s.answered i) :
    (s.respond id err poison data).answered i := by
  by_cases hi : i = id
  · subst hi
    obtain ⟨y, hy, -⟩ := Option.map_eq_some_iff.mp h
    exact respond_answers err poison data hy
  · rwa [State.answered, respond_txn_ne err poison data hi]

theorem respond_keeps_known {s : State} {i : Nat} (id : Nat) (err poison : Bool) (data : List Byte)
    (h : ∃ y, pget s.xbar.txns i = some y) : ∃ y, pget (s.respond id err poison data).xbar.txns i = some y := by
  obtain ⟨y, hy⟩ := h
  by_cases hi : i = id
  · subst hi
    obtain ⟨z, hz, -⟩ := Option.map_eq_some_iff.mp (respond_answers err poison data hy)
    exact ⟨z, hz⟩
  · exact ⟨y, by rw [respond_txn_ne err poison data hi, hy]⟩

-- Requests answered with an error response.

/-- Every request of a list answered with an error response. -/
def State.failAll (s : State) (q : List HReq) : State := q.foldl (fun s r => s.respond r.txn true false []) s

theorem failAll_only (s : State) (q : List HReq) : Only noRegs [.xbar] s (s.failAll q) :=
  List.foldlRecOn (motive := Only noRegs [.xbar] s) q _ (Only.refl _ _ s) fun _ h r _ => h.respond r.txn true false [] (by decide)

theorem failAll_keeps_answered {s : State} {i : Nat} (q : List HReq) (h : s.answered i) : (s.failAll q).answered i :=
  List.foldlRecOn (motive := fun t : State => t.answered i) q _ h fun _ ht r _ => respond_keeps_answered r.txn true false [] ht

theorem failAll_keeps_known {s : State} {i : Nat} (q : List HReq) (h : ∃ y, pget s.xbar.txns i = some y) :
    ∃ y, pget (s.failAll q).xbar.txns i = some y :=
  List.foldlRecOn (motive := fun t : State => ∃ y, pget t.xbar.txns i = some y) q _ h
    fun _ ht r _ => respond_keeps_known r.txn true false [] ht

theorem failAll_answers (q : List HReq) : ∀ (s : State), ∀ r ∈ q, (∃ y, pget s.xbar.txns r.txn = some y) → (s.failAll q).answered r.txn := by
  induction q with
  | nil => exact fun _ _ hr => absurd hr List.not_mem_nil
  | cons x q ih =>
    intro s r hr hknown
    rcases List.mem_cons.mp hr with rfl | hr
    · obtain ⟨y, hy⟩ := hknown
      exact failAll_keeps_answered q (respond_answers true false [] hy)
    · exact ih _ r hr (respond_keeps_known x.txn true false [] hknown)

-- A pseudo-channel's queue, answered (R113, R236).

theorem failQueue_only (s : State) (j : Nat) : Only noRegs [.heap, .xbar] s (s.failQueue j) :=
  ((setPc_only s j _).mono (fun _ hk => hk) (by decide)).trans ((failAll_only _ _).mono (fun _ hk => hk) (by decide))

theorem failQueue_heap (s : State) (j : Nat) : (s.failQueue j).heap = (s.setPc j { s.pc j with queue := [] }).heap :=
  (failAll_only _ _).same (p := .heap) (by decide)

theorem failQueue_mem (s : State) (j : Nat) : (s.failQueue j).heap.mem = s.heap.mem :=
  (congrArg Heap.mem (failQueue_heap s j)).trans rfl

theorem failQueue_pc (s : State) (j i : Nat) : (s.failQueue j).pc i = if i = j then { s.pc j with queue := [] } else s.pc i := by
  rw [State.pc, failQueue_heap]
  exact pc_setPc ..

theorem failQueue_answers {s : State} {j : Nat} {r : HReq} (hr : r ∈ (s.pc j).queue) (hknown : ∃ y, pget s.xbar.txns r.txn = some y) :
    (s.failQueue j).answered r.txn := failAll_answers _ (s.setPc j { s.pc j with queue := [] }) r hr hknown

theorem failQueue_keeps_answered {s : State} {i : Nat} (j : Nat) (h : s.answered i) : (s.failQueue j).answered i :=
  failAll_keeps_answered (s := s.setPc j { s.pc j with queue := [] }) _ h

theorem failQueue_keeps_known {s : State} {i : Nat} (j : Nat) (h : ∃ y, pget s.xbar.txns i = some y) :
    ∃ y, pget (s.failQueue j).xbar.txns i = some y := failAll_keeps_known (s := s.setPc j { s.pc j with queue := [] }) _ h

/-- Nothing waits at a pseudo-channel, and what waited has its answer, no byte changed. -/
structure Emptied (j : Nat) (s t : State) : Prop where
  queue : (t.pc j).queue = []
  answered : ∀ q, q ∈ (s.pc j).queue → ∀ y, pget s.xbar.txns q.txn = some y → t.answered q.txn
  mem : t.heap.mem = s.heap.mem
  only : Only noRegs [.heap, .xbar] s t

theorem failQueue_empties (s : State) (j : Nat) : Emptied j s (s.failQueue j) where
  queue := by rw [failQueue_pc, if_pos rfl]
  answered _ hq y hy := failQueue_answers hq ⟨y, hy⟩
  mem := failQueue_mem s j
  only := failQueue_only s j

/-- The other pseudo-channel's queue answered after it. -/
theorem Emptied.failQueue {j : Nat} {s t : State} (h : Emptied j s t) (i : Nat) : Emptied j s (t.failQueue i) where
  queue := by
    rw [failQueue_pc]
    split
    · rfl
    · exact h.queue
  answered q hq y hy := failQueue_keeps_answered i (h.answered q hq y hy)
  mem := (failQueue_mem t i).trans h.mem
  only := h.only.trans (failQueue_only t i)

/-- The other pseudo-channel's queue answered before it. -/
theorem emptied_after (s : State) {i j : Nat} (h : j ≠ i) : Emptied j s ((s.failQueue i).failQueue j) where
  queue := (failQueue_empties _ j).queue
  answered q hq y hy := failQueue_answers (by rwa [failQueue_pc, if_neg h]) (failQueue_keeps_known i ⟨y, hy⟩)
  mem := (failQueue_mem _ j).trans (failQueue_mem s i)
  only := (failQueue_only s i).trans (failQueue_only _ j)

theorem dropUnserved_empties {s : State} (j : Nat) (h : s.serves (j / 2) = false) : Emptied j s (s.dropUnserved (j / 2)) := by
  rw [State.dropUnserved, if_neg (by simp [h])]
  rcases Nat.even_or_odd' j with ⟨k, rfl | rfl⟩
  · rw [Nat.mul_div_cancel_left k (by decide)]
    exact (failQueue_empties s (2 * k)).failQueue _
  · rw [show (2 * k + 1) / 2 = k by omega]
    exact emptied_after s (by omega)

theorem openSlot_unserved {s z : State} {j : Fin 512} {n : Fin 4096} {ecc : List EccObs} (hz : z = s.atSlot n)
    (hnone : z.serves (j.val / 2) = false ∨ z.hasOpen 0 j = false) : Gives (.openSlotService j n ecc) s fun t => (t.pc j).queue = []
      ∧ (∀ q, q ∈ (z.pc j).queue → ∀ y, pget z.xbar.txns q.txn = some y → (pget t.xbar.txns q.txn).map (·.resp.isSome) = some true)
      ∧ t.heap.mem = z.heap.mem ∧ Frame noRegs [.heap, .xbar] z t := by
  have gives {x : State} (hexec : exec (.openSlotService j n ecc) s = done s x) (h : Emptied j z x) : Gives (.openSlotService j n ecc) s
      fun t => (t.pc j).queue = [] ∧ (∀ q, q ∈ (z.pc j).queue → ∀ y, pget z.xbar.txns q.txn = some y → t.answered q.txn)
      ∧ t.heap.mem = z.heap.mem ∧ Frame noRegs [.heap, .xbar] z t := by
    refine Gives.done hexec ⟨by rw [finish_pc, h.queue], fun q hq y hy => ?_, by rw [finish_heap, h.mem], h.only.frameFrom s⟩
    rw [State.answered, finish_xbar]
    exact h.answered q hq y hy
  subst hz
  cases hserves : (s.atSlot n).serves (j.val / 2) with
  | false => exact gives (congrArg (done s) (if_neg (by simp [hserves]))) (dropUnserved_empties j hserves)
  | true =>
    have hopen : (s.atSlot n).hasOpen 0 j = false := hnone.resolve_left (by simp [hserves])
    exact gives (congrArg (done s) ((if_pos hserves).trans (if_pos (by simp [hopen])))) (failQueue_empties _ j)

/-- A slot of another class serves nothing (R124). -/
theorem openSlot_other {s z : State} {j : Fin 512} {n : Fin 4096} {ecc : List EccObs} (hz : z = s.atSlot n)
    (hserves : z.serves (j.val / 2) = true) (hopen : z.hasOpen 0 j = true) (hclass : z.classAt 0 j n ≠ some .open_) :
    Gives (.openSlotService j n ecc) s fun t => Frame noRegs [] z t := by
  subst hz
  exact Gives.done (congrArg (done s) ((if_pos hserves).trans ((if_neg (by simp [hopen])).trans (if_neg hclass))))
    ((Only.refl _ _ _).frameFrom s)

end Sys2Proof.Machine

/-! PROOFS. Open requests at the heap bridge (spec/05 R113, R134; spec/08 R236, R309), and the settlement of
`Obligations.HeapTransfers`. -/

namespace Sys2Proof.Machine

-- A request entered (R134, R360).

/-- The transaction of an open request, as the bridge takes it. -/
def State.heapTxn (s : State) (r : XbarReq) (qos : Nat) : Txn :=
  { master := r.master, secure := r.secure, write := r.write, addr := s.mapAddr r.master r.addr.toNat, len := r.len, data := r.data,
    qos := qos, waited := s.time.total, port := match rowOfRange (s.mapAddr r.master r.addr.toNat) r.len with
      | some x => x.2.2.port
      | none => 8
    gen := some (s.rdf R.FW_GEN 0 31 0), left := 0, resp := none, origin := .outside }

/-- The state with that transaction entered. -/
def State.heapAsked (s : State) (r : XbarReq) (qos : Nat) : State :=
  (s.request r.master r.secure r.write r.addr.toNat r.len r.data (some qos) .outside).2.setTxn s.xbar.next (some (s.heapTxn r qos))

theorem heapAsked_txn (s : State) (r : XbarReq) (qos : Nat) :
    pget (s.heapAsked r qos).xbar.txns s.xbar.next = some (s.heapTxn r qos) := by
  rw [State.heapAsked, State.setTxn, pget_pset_self]

theorem heapAsked_only (s : State) (r : XbarReq) (qos : Nat) : Only noRegs [.xbar] s (s.heapAsked r qos) :=
  ((Only.refl _ _ s).set_xbar _ (by decide)).set_xbar _ (by decide)

theorem heapOpenRequest_done (s : State) (r : XbarReq) (n : Fin 16) : exec (.heapOpenRequest r n) s = done s (
    if s.mapAddr r.master r.addr.toNat + r.len ≤ heapBytes then
      if r.write ∧ s.weightRefused (s.mapAddr r.master r.addr.toNat) r.len = true then
        ((s.heapAsked r n).count R.WT_REFUSED 0).respond s.xbar.next true false []
      else (s.heapAsked r n).heapAccept s.xbar.next
    else (s.heapAsked r n).respond s.xbar.next true false []) := by
  refine congrArg (done s) ?_
  dsimp only [State.request]
  rw [pget_pset_self]
  rfl

-- The parts of a request (R234).

theorem heapParts_ne_nil {len : Nat} (a : Nat) (data : List Byte) (h : 0 < len) : heapParts a len data (len + 1) ≠ [] := by
  rw [heapParts, if_neg (by omega)]
  exact List.cons_ne_nil _ _

-- Requests queued at their pseudo-channels (R134).

/-- A request put at the end of a pseudo-channel's queue. -/
def State.enqueue (s : State) (j : Nat) (q : HReq) : State := s.setPc j { s.pc j with queue := (s.pc j).queue ++ [q] }

/-- A request of its own put at the end of each pseudo-channel's queue. -/
def State.enqueueAll (s : State) (js : List Nat) (f : Nat → HReq) : State := js.foldl (fun s j => s.enqueue j (f j)) s

theorem enqueue_queue (s : State) (i j : Nat) (q : HReq) :
    ((s.enqueue j q).pc i).queue = (s.pc i).queue ++ (if i = j then [q] else []) := by
  rw [State.enqueue, pc_setPc]
  split
  case isTrue h => rw [h]
  case isFalse => rw [List.append_nil]

theorem enqueueAll_mem (s : State) (js : List Nat) (f : Nat → HReq) : (s.enqueueAll js f).heap.mem = s.heap.mem :=
  List.foldlRecOn (motive := fun t : State => t.heap.mem = s.heap.mem) js _ rfl fun _ h _ _ => h

theorem enqueueAll_only (s : State) (js : List Nat) (f : Nat → HReq) : Only noRegs [.heap] s (s.enqueueAll js f) :=
  List.foldlRecOn (motive := Only noRegs [.heap] s) js _ (Only.refl _ _ s) fun _ h j _ => h.trans (setPc_only _ j _)

theorem enqueueAll_queue (f : Nat → HReq) (i : Nat) {js : List Nat} (hjs : js.Nodup) : ∀ s : State,
    ((s.enqueueAll js f).pc i).queue = (s.pc i).queue ++ (if i ∈ js then [f i] else []) := by
  induction js with
  | nil => exact fun s => (List.append_nil _).symm
  | cons j js ih =>
    intro s
    obtain ⟨hj, hrest⟩ := List.nodup_cons.mp hjs
    have hstep : ((s.enqueueAll (j :: js) f).pc i).queue = _ := ih hrest (s.enqueue j (f j))
    rw [hstep, enqueue_queue, List.append_assoc]
    by_cases hi : i = j
    · simp [hi, hj]
    · simp [hi]

theorem nodup_eraseDups (l : List Nat) : l.eraseDups.Nodup := by
  induction hn : l.length using Nat.strong_induction_on generalizing l with
  | _ n ih =>
    cases l with
    | nil => exact List.nodup_nil
    | cons a l =>
      rw [List.eraseDups_cons]
      have hshort : (l.filter fun b => !b == a).length < n := hn ▸ Nat.lt_succ_of_le (List.length_filter_le _ l)
      exact List.nodup_cons.mpr ⟨by simp, ih _ hshort _ rfl⟩

-- An accepted request (R113, R236).

/-- A request's share at a pseudo-channel. -/
def Txn.share (y : Txn) (id : Nat) (ps : List HPart) (j : Nat) : HReq :=
  { txn := id, qos := y.qos, write := y.write, parts := ps.filter fun x => hPch x.addr = j }

/-- A transaction whose parts wait. -/
def Txn.waits (y : Txn) (ps : List HPart) : Txn :=
  { y with left := ps.length, data := if y.write then y.data else List.replicate y.len 0 }

theorem heapAccept_queues {s : State} {id : Nat} {y : Txn} {ps : List HPart} (hy : pget s.xbar.txns id = some y)
    (hps : ps = heapParts y.addr y.len y.data (y.len + 1)) (hlen : 0 < y.len) (hqueue : ps.all s.canQueue = true)
    (hbridge : ps.any (fun x => s.bridgeRefuses (hCtl x.addr)) = false) : s.heapAccept id
      = (s.setTxn id (some (y.waits ps))).enqueueAll (ps.map fun x => hPch x.addr).eraseDups (y.share id ps) := by
  subst hps
  rw [State.heapAccept, hy]
  dsimp only
  rw [if_neg (by simpa using heapParts_ne_nil y.addr y.data hlen), if_pos ⟨hqueue, by rw [hbridge]; rfl⟩]
  rfl

/-- The state with an error response, each controller that does not serve having counted its part. -/
def State.bridgeError (s : State) (id : Nat) (ps : List HPart) : State :=
  ((ps.filter fun x => !s.serves (hCtl x.addr)).foldl (fun s x => s.count R.POISON_OUT (hCtl x.addr)) s).respond id true false []

theorem heapAccept_refuses {s : State} {id : Nat} {y : Txn} {ps : List HPart} (hy : pget s.xbar.txns id = some y)
    (hps : ps = heapParts y.addr y.len y.data (y.len + 1)) (hlen : 0 < y.len)
    (h : ps.all s.canQueue = false ∨ ps.any (fun x => s.bridgeRefuses (hCtl x.addr)) = true) :
    s.heapAccept id = s.bridgeError id ps := by
  subst hps
  rw [State.heapAccept, hy]
  dsimp only
  rw [if_neg (by simpa using heapParts_ne_nil y.addr y.data hlen), if_neg]
  · rfl
  · rintro ⟨hqueue, hbridge⟩
    rcases h with h | h
    · exact Bool.false_ne_true (h.symm.trans hqueue)
    · rw [h] at hbridge
      exact Bool.false_ne_true hbridge

theorem bridgeError_only (s : State) (id : Nat) (ps : List HPart) : Only (fun _ => True) [.xbar] s (s.bridgeError id ps) :=
  Only.respond _ _ _ _ (by decide) (List.foldlRecOn (motive := Only (fun _ => True) [.xbar] s) _ _ (Only.refl _ _ s)
    fun _ h _ _ => Only.wr _ trivial h)

theorem bridgeError_served {s : State} {ps : List HPart} (id : Nat) (h : ps.all (fun x => s.serves (hCtl x.addr)) = true) :
    s.bridgeError id ps = s.respond id true false [] := by
  have hnone : (ps.filter fun x => !s.serves (hCtl x.addr)) = [] := by simpa using h
  rw [State.bridgeError, hnone]
  rfl

theorem bridgeError_txn {s : State} {id : Nat} {y : Txn} (ps : List HPart) (hy : pget s.xbar.txns id = some y) (hresp : y.resp = none) :
    (pget (s.bridgeError id ps).xbar.txns id).bind (·.resp) = some (true, false, []) := by
  have hxbar : ((ps.filter fun x => !s.serves (hCtl x.addr)).foldl (fun s x => s.count R.POISON_OUT (hCtl x.addr)) s).xbar = s.xbar :=
    List.foldlRecOn (motive := fun t : State => t.xbar = s.xbar) _ _ rfl fun _ h _ _ => h
  rw [State.bridgeError, respond_txn true false [] (hxbar ▸ hy) hresp]
  rfl

-- The command's outcomes (R134, R236, R309).

section

variable {s : State} {n : Fin 16} {r : XbarReq} {a : Nat} {ps : List HPart}

theorem heapOpenRequest_accepts (ha : a = s.mapAddr r.master r.addr.toNat) (hfit : a + r.len ≤ heapBytes)
    (hw : r.write = false ∨ s.weightRefused a r.len = false) :
    exec (.heapOpenRequest r n) s = done s ((s.heapAsked r n).heapAccept s.xbar.next) := by
  subst ha
  refine (heapOpenRequest_done s r n).trans (congrArg (done s) ((if_pos hfit).trans (if_neg ?_)))
  rintro ⟨hwrite, hin⟩
  rcases hw with h | h
  · exact Bool.false_ne_true (h.symm.trans hwrite)
  · exact Bool.false_ne_true (h.symm.trans hin)

theorem heapOpenRequest_queues (ha : a = s.mapAddr r.master r.addr.toNat) (hps : ps = heapParts a r.len r.data (r.len + 1))
    (hfit : a + r.len ≤ heapBytes) (hlen : 0 < r.len) (hw : r.write = false ∨ s.weightRefused a r.len = false)
    (hqueue : ps.all s.canQueue = true) (hbridge : ps.any (fun x => s.bridgeRefuses (hCtl x.addr)) = false) :
    Gives (.heapOpenRequest r n) s fun t => t.xbar.next = s.xbar.next + 1
      ∧ (∀ j, (t.pc j).queue = (s.pc j).queue ++ (if ps.any (fun x => hPch x.addr = j) then [{ txn := s.xbar.next, qos := n.val, write := r.write, parts := ps.filter fun x => hPch x.addr = j }] else []))
      ∧ (pget t.xbar.txns s.xbar.next).map (fun y => (y.resp, y.left, y.addr, y.len, y.write)) = some (none, ps.length, a, r.len, r.write)
      ∧ t.heap.mem = s.heap.mem ∧ Frame noRegs [.heap, .xbar] s t := by
  subst ha
  have haccept := heapAccept_queues (heapAsked_txn s r n) hps hlen hqueue hbridge
  have honly := enqueueAll_only ((s.heapAsked r n).setTxn s.xbar.next (some ((s.heapTxn r n).waits ps)))
    (ps.map fun x => hPch x.addr).eraseDups ((s.heapTxn r n).share s.xbar.next ps)
  have hxbar := honly.same (p := .xbar) (by decide)
  have hentered : Only noRegs [.xbar] s ((s.heapAsked r n).setTxn s.xbar.next (some ((s.heapTxn r n).waits ps))) :=
    (heapAsked_only s r n).set_xbar _ (by decide)
  refine Gives.done ((heapOpenRequest_accepts rfl hfit hw).trans (by rw [haccept])) ⟨?_, fun j => ?_, ?_, ?_, ?_⟩
  · rw [finish_xbar]
    exact congrArg Xbar.next hxbar
  · rw [finish_pc, enqueueAll_queue _ _ (nodup_eraseDups _)]
    have hmem : (j ∈ (ps.map fun x => hPch x.addr).eraseDups) ↔ ps.any (fun x => hPch x.addr = j) = true := by simp
    exact congrArg ((s.pc j).queue ++ ·) (if_congr hmem rfl rfl)
  · have htxns : pget _ s.xbar.next = pget _ s.xbar.next := congrArg (fun x : Xbar => pget x.txns s.xbar.next) hxbar
    rw [finish_xbar, htxns, State.setTxn, pget_pset_self]
    rfl
  · rw [finish_heap, enqueueAll_mem]
    rfl
  · exact ((hentered.mono (fun _ hk => hk) (by decide)).trans (honly.mono (fun _ hk => hk) (by decide))).frame

theorem heapOpenRequest_errors (ha : a = s.mapAddr r.master r.addr.toNat) (hps : ps = heapParts a r.len r.data (r.len + 1))
    (hfit : a + r.len ≤ heapBytes) (hlen : 0 < r.len) (hw : r.write = false ∨ s.weightRefused a r.len = false)
    (hno : ps.all s.canQueue = false ∨ ps.any (fun x => s.bridgeRefuses (hCtl x.addr)) = true) :
    Gives (.heapOpenRequest r n) s fun t => (pget t.xbar.txns s.xbar.next).bind (·.resp) = some (true, false, [])
      ∧ t.heap = s.heap ∧ (ps.all (fun x => s.serves (hCtl x.addr)) = true → Frame noRegs [.xbar] s t) := by
  subst ha
  have haccept := heapAccept_refuses (heapAsked_txn s r n) hps hlen hno
  refine Gives.done ((heapOpenRequest_accepts rfl hfit hw).trans (by rw [haccept])) ⟨?_, ?_, fun hserve => ?_⟩
  · rw [finish_xbar]
    exact bridgeError_txn ps (heapAsked_txn s r n) rfl
  · rw [finish_heap]
    exact (bridgeError_only (s.heapAsked r n) s.xbar.next ps).same (p := .heap) (by decide)
  · rw [bridgeError_served (s := s.heapAsked r n) s.xbar.next hserve]
    exact (Only.respond _ _ _ _ (by decide) (heapAsked_only s r n)).frame

theorem heapOpenRequest_weights (ha : a = s.mapAddr r.master r.addr.toNat) (hfit : a + r.len ≤ heapBytes) (hwrite : r.write = true)
    (hin : s.weightRefused a r.len = true) : Gives (.heapOpenRequest r n) s fun t =>
      (pget t.xbar.txns s.xbar.next).bind (·.resp) = some (true, false, [])
      ∧ t.rd R.WT_REFUSED = satWord (s.rd R.WT_REFUSED) 1 ∧ Frame (regsIn [R.WT_REFUSED.key 0]) [.xbar] s t := by
  subst ha
  refine Gives.done ((heapOpenRequest_done s r n).trans (congrArg (done s) ((if_pos hfit).trans (if_pos ⟨hwrite, hin⟩)))) ⟨?_, ?_, ?_⟩
  · rw [finish_xbar, respond_txn (s := (s.heapAsked r n).count R.WT_REFUSED 0) true false [] (heapAsked_txn s r n) rfl]
    rfl
  · have hrd : (((s.heapAsked r n).count R.WT_REFUSED 0).respond s.xbar.next true false []).rd R.WT_REFUSED
        = ((s.heapAsked r n).count R.WT_REFUSED 0).rd R.WT_REFUSED :=
      (Only.respond (K := noRegs) (ps := [.xbar]) _ _ _ _ (by decide) (Only.refl _ _ _)).getReg (show ¬noRegs _ from fun h => h)
    rw [finish_rd (by decide), hrd, State.count, rd_wr_self]
    rfl
  · exact (Only.respond _ _ _ _ (by decide) (Only.wr _ (by simp [regsIn])
      ((heapAsked_only s r n).mono (fun _ hk => hk.elim) (by decide)))).frame

theorem heapOpenRequest_beyond (h : heapBytes < s.mapAddr r.master r.addr.toNat + r.len) : Gives (.heapOpenRequest r n) s fun t =>
    (pget t.xbar.txns s.xbar.next).bind (·.resp) = some (true, false, []) ∧ Frame noRegs [.xbar] s t := by
  refine Gives.done ((heapOpenRequest_done s r n).trans (congrArg (done s) (if_neg (Nat.not_le.mpr h)))) ⟨?_, ?_⟩
  · rw [finish_xbar, respond_txn true false [] (heapAsked_txn s r n) rfl]
    rfl
  · exact (Only.respond _ _ _ _ (by decide) (heapAsked_only s r n)).frame

end

-- The settlement.

/-- Settles O13: one lemma per outcome. A scheduled transfer follows its plan for the slot (`heapSlot_…`), an `OPEN` slot the one
request that waits (`openSlot_…`), and an open request what the bridge makes of its parts (`heapOpenRequest_…`). -/
theorem heapTransfers : Obligations.HeapTransfers := by
  unfold Obligations.HeapTransfers
  refine ⟨?write, ?read, ?breach, ?waits, ?freezes, ?openWrite, ?merge, ?openRead, ?poison, ?refused, ?unserved, ?other, ?queued,
    ?error, ?weights, ?beyond⟩
  case write => exact fun s j n ecc x y hy hs hdue hw hr hl ho hok => heapSlot_write hy hs hdue hw hr hl ho hok
  case read => exact fun s j n ecc x y hy hs hdue hw hr ho hok => heapSlot_read hy hs hdue hw hr ho hok
  case breach => exact fun s j n ecc x y hy hdue hnow hbad => heapSlot_breach hy hdue hnow hbad
  case waits => exact fun s j n ecc y hy hq hall => heapSlot_waits hy hq hall
  case freezes => exact fun s j n ecc y hy hs => heapSlot_freezes hy hs
  case openWrite =>
    exact fun s j n ecc x y id q z hz hs ho hc hq hwhole hl hr hy hleft hw hgood hresp =>
      openSlot_writes hz hs ho hc hq hwhole hl hr hy hleft hw hgood hresp
  case merge => exact fun s j n ecc x id q z hz hs ho hc hq hl hm hecc hinj hr => openSlot_merges hz hs ho hc hq hl hm hecc hinj hr
  case openRead =>
    exact fun s j n ecc x y id q z hz hs ho hc hq hecc hinj hfit hy ha hl hleft hw hgood hresp =>
      openSlot_reads hz hs ho hc hq hecc hinj hfit hy ha hl hleft hw hgood hresp
  case poison => exact fun s j n ecc x y id q z hz hs ho hc hq hbad hy hleft hresp => openSlot_poisons hz hs ho hc hq hbad hy hleft hresp
  case refused =>
    exact fun s j n ecc x y id q z hz hs ho hc hstress hq hr hy hresp => openSlot_refusal hz hs ho hc hstress hq hr hy hresp
  case unserved => exact fun s j n ecc z hz hnone => openSlot_unserved hz hnone
  case other => exact fun s j n ecc z hz hs ho hc => openSlot_other hz hs ho hc
  case queued =>
    exact fun s n r a ps ha hps hfit hlen hw hqueue hbridge => heapOpenRequest_queues ha hps hfit hlen hw hqueue hbridge
  case error => exact fun s n r a ps ha hps hfit hlen hw hno => heapOpenRequest_errors ha hps hfit hlen hw hno
  case weights => exact fun s n r a ha hfit hwrite hin => heapOpenRequest_weights ha hfit hwrite hin
  case beyond => exact fun s n r h => heapOpenRequest_beyond h

end Sys2Proof.Machine

/-! PROOFS. A saltern's view and the end of a command (R495): what `State.finish` leaves of `viewSince`; with it, O16. -/

namespace Sys2Proof.Machine

theorem meshTrack_viewSince {s0 s1 : State} (h : s1.meshZ ≠ 0) : (State.meshTrack s0 s1).mesh.viewSince
    = if s1.primaryView then some (s1.mesh.viewSince.getD s1.time.total) else none := by
  rw [State.meshTrack, if_neg h]
  dsimp only
  generalize (if s1.primaryView = true then some (s1.mesh.viewSince.getD s1.time.total) else none) = since
  split <;> split <;> rfl

/-- In a saltern every command's end tracks since when the view has met the `PRIMARY` condition (R495). -/
theorem finish_viewSince {s0 s1 : State} (h : s1.meshZ ≠ 0) : (s0.finish s1).mesh.viewSince
    = if s1.primaryView then some (s1.mesh.viewSince.getD s1.time.total) else none := by
  obtain ⟨pba, sent, hs, -⟩ := signal_spec s0 (State.meshTrack s0 s1).condTrack
  rw [State.finish, hs, ← meshTrack_viewSince h]
  rfl

/-- An accepted control cell is held while test delay acts (R182). -/
theorem controlRx_held {s x : State} {q t2 t3 t4 : Nat} {ws : List Word} (htype : cellType ws = 2) (hcrc : cellOk ws = true)
    (hform : cellFormBad ws = false) (hroom : s.rxHeld q 2 < 32) (hseq : fld (cellWord ws 0) 55 44 = (s.lk q).rxSeq)
    (hx : x = (s.setLk q { s.lk q with nak := false, rxSeq := ((s.lk q).rxSeq + 1) % 4096 }).count R.CELLS_RX q)
    (hdelay : x.rxDelay q ≠ 0) : s.controlRx q ws t2 t3 t4 = x.holdCell q ws t2 t3 t4 := by
  have hacc : s.rxInOrder q ws = (x, true) := by
    simp [State.rxInOrder, htype, hcrc, hform, hroom, hseq, hx]
  rw [State.controlRx, hacc]
  exact if_neg fun h => hdelay h.1

/-- A member of a saltern of one whose link 255 is ACTIVE under test delay, and whose view meets the `PRIMARY` condition though
nothing tracks since when. -/
def loneMember : State :=
  { State.reset with regs := [(R.LINK_STAT.key 255, 5), (regKey 0 (brinePage 255) 0 hPerturb, 5), (R.MESH_CFG.key 0, word (at_ 32 1))] }

/-- A control cell with SEQ 0 and the CRC it should have. -/
def firstControl : List Word := sealCell (word (at_ 60 2) :: List.replicate 31 0) false

/-- `loneMember` with `firstControl` accepted on link 255. -/
def loneMemberAcc : State :=
  (loneMember.setLk 255 { loneMember.lk 255 with nak := false, rxSeq := ((loneMember.lk 255).rxSeq + 1) % 4096 }).count R.CELLS_RX 255

/-- The cell held for its delay. -/
def loneMemberRx : State :=
  loneMemberAcc.holdCell 255 firstControl loneMember.phase16 loneMember.phase16 loneMember.phase16

theorem loneMember_link : loneMember.lkUp 255 = true ∧ loneMember.rxHeld 255 2 < 32 ∧ loneMember.rxDelay 255 ≠ 0
    ∧ fld (cellWord firstControl 0) 55 44 = (loneMember.lk 255).rxSeq := by
  decide +kernel

theorem firstControl_sound : firstControl.length = 32 ∧ cellType firstControl = 2 ∧ cellOk firstControl = true
    ∧ cellFormBad firstControl = false := by
  decide +kernel

theorem loneMemberRx_view : loneMemberAcc.rxDelay 255 ≠ 0 ∧ loneMemberRx.meshZ ≠ 0 ∧ loneMemberRx.primaryView = true := by
  decide +kernel

theorem exec_firstControl : exec (.controlCellRx 255 firstControl) loneMember = done loneMember loneMemberRx := by
  obtain ⟨hup, hroom, -, hseq⟩ := loneMember_link
  obtain ⟨hlen, htype, hcrc, hform⟩ := firstControl_sound
  have hheld := controlRx_held (t2 := loneMember.phase16) (t3 := loneMember.phase16) (t4 := loneMember.phase16)
    htype hcrc hform hroom hseq rfl loneMemberRx_view.1
  exact congrArg (done loneMember) ((if_pos ⟨hup, hlen, htype⟩).trans hheld)

/-- Refutes O16: a control cell that test delay holds leaves the saltern's own state alone, but the command's end tracks the view
(R495), so `mesh` changes where the view meets the `PRIMARY` condition and nothing has tracked it yet. -/
theorem not_cellsArriveAndAreReleased : ¬ Obligations.CellsArriveAndAreReleased := by
  unfold Obligations.CellsArriveAndAreReleased
  rintro ⟨-, -, -, -, -, -, -, -, -, -, -, -, -, -, -, -, -, hheld, -⟩
  obtain ⟨hup, hroom, hdelay, hseq⟩ := loneMember_link
  obtain ⟨hlen, htype, hcrc, hform⟩ := firstControl_sound
  obtain ⟨-, hz, hview⟩ := loneMemberRx_view
  obtain ⟨t, ht, -, hmesh, -⟩ := hheld loneMember 255 firstControl hup hlen htype hcrc hform hroom hseq hdelay
  have hfin : loneMember.finish loneMemberRx = t := Host.Outcome.next.inj (exec_firstControl.symm.trans ht)
  have htracked : t.mesh.viewSince = some (loneMemberRx.mesh.viewSince.getD loneMemberRx.time.total) := by
    rw [← hfin, finish_viewSince hz, if_pos hview]
  have hnone : loneMember.mesh.viewSince = none := rfl
  rw [hmesh, hnone] at htracked
  exact absurd htracked (by simp)

end Sys2Proof.Machine

/-! PROOFS. What a link that is not ACTIVE sends in a slot (R163, R169), and what the command's end sends with it (R82); with
these, O17. -/

namespace Sys2Proof.Machine

theorem trainSend_asleep {s : State} {q : Nat} (h : s.lkState q = lkSleep) : s.trainSend q = s := by
  simp [State.trainSend, h, lkSleep, lkPrbs, lkDetect, lkLock, lkDeskew, lkParam, lkWake]

/-- Link 0 is ACTIVE with a negotiation of sleep under way, and the event that tells of sleep is enabled. -/
def fallingAsleep : State :=
  { State.reset with
    regs := [(R.QUAD_MODE.key 0, 1), (R.LINK_STAT.key 0, 0x4000005), (R.LANE_STAT.key 0, 2), (regKey 0 (brinePage 0) 0 hEvtEn, 16)]
    links := { State.reset.links with link := [(0, { kind := .sleep })] } }

/-- The partner's COMMIT, as a `NEG` block on lane 0. -/
def commitBlock : LaneBlock := { lane := 0, sync := 2, payload := (scramble 0 (ctlPayload blkNeg 0 0 (at_ 38 5))).1 }

/-- Link 0 has taken the COMMIT. -/
def asleep : State := (fallingAsleep.atSlot 0).blocksRx 0 [commitBlock]

theorem asleep_link : asleep.lkUp 0 = false ∧ asleep.lkState 0 = lkSleep := by
  decide +kernel

theorem asleep_rises : fallingAsleep.Rises (fallingAsleep.finish asleep)
    ∧ (fallingAsleep.finish asleep).rdb R.EVT_ROUTE 0 0 = false := by
  decide +kernel

theorem exec_commitBlock : exec (.linkTxSlot 0 0 [commitBlock]) fallingAsleep = done fallingAsleep asleep :=
  congrArg (done fallingAsleep)
    ((if_pos (congrArg (!·) asleep_link.1)).trans (trainSend_asleep asleep_link.2))

/-- Refutes O17: a link that sleeps sends nothing on its lanes, but the COMMIT received in this slot is what put it to sleep, and
where the event of that is enabled the command's end sends the supervisor's interrupt (R82). -/
theorem not_cellsAreSentAndResent : ¬ Obligations.CellsAreSentAndResent := by
  unfold Obligations.CellsAreSentAndResent
  rintro ⟨-, -, -, -, hidle, -⟩
  obtain ⟨hdown, hsleep⟩ := asleep_link
  obtain ⟨hrise, hroute⟩ := asleep_rises
  obtain ⟨t, ht, -, hquiet, -⟩ := hidle fallingAsleep 0 0 [commitBlock] asleep rfl hdown
  have hfin : fallingAsleep.finish asleep = t := Host.Outcome.next.inj (exec_commitBlock.symm.trans ht)
  have hsent := finish_sent_unrouted hrise hroute
  rw [hfin, hquiet hsleep] at hsent
  exact List.cons_ne_self _ _ hsent.symm

end Sys2Proof.Machine

/-! PROOFS. A unit's current instruction carried out (R264, R269), and what BANK, DRAIN and FILL make of a pan (R270, R271, R299);
with these, O25. -/

namespace Sys2Proof.Machine

-- A current instruction carried out, and one that is not current.

section Issue

variable {c : Instr} {s : State} {u : SeqUnit} {op : Nat} {f : Word → Nat → State → State}

/-- Where `f` makes `z` of the state at the issue, the command ends with the next issue one SCLK later and what is due taken. -/
theorem issue_gives {w : Word} {y z : State} (hexec : exec c s = done s (s.issue u op f)) (hcur : s.current u op = some (w, y))
    (hz : f w (y.seqOf u).at_ y = z) :
    Gives c s fun t => Frame noRegs [] ((z.setSeq u ((z.seqOf u).issued 1)).unitsNow) t := by
  have hissue : s.issue u op f = (z.setSeq u ((z.seqOf u).issued 1)).unitsNow := by rw [State.issue, hcur, ← hz]
  exact Gives.done (hexec.trans (congrArg (done s) hissue)) ((Only.refl _ _ _).frameFrom s)

theorem issue_none_gives (hexec : exec c s = done s (s.issue u op f)) (hcur : s.current u op = none) :
    Gives c s fun t => Frame noRegs [] s t := by
  have hissue : s.issue u op f = s := by rw [State.issue, hcur]
  exact Gives.done (hexec.trans (congrArg (done s) hissue)) (Only.refl _ _ _).frame

end Issue

-- The banks of a pan (R270).

theorem panOrder_eq (s : State) (p : Fin 256) :
    s.panOrder p = ((s.countf R.PAN_ERR p 31 16).raise (panPage p) 2).seqReport (.pan p) := by
  have hp : Fin.ofNat 256 p.val = p := Fin.ext (Nat.mod_eq_of_lt p.isLt)
  rw [State.panOrder, hp]

section Banks

variable {y : State} {p : Fin 256} {a : Nat}

theorem switchBank_free (h : y.panStreams p a = false) : y.switchBank p a = y.setPn p { y.pn p with bank := !(y.pn p).bank } :=
  if_neg (ne_true_of_eq_false h)

theorem switchBank_order (h : y.panStreams p a = true) : y.switchBank p a = y.panOrder p := if_pos h

theorem streamBank_order {save : Bool} (h : y.panStreams p a = true ∨ (y.pn p).jobRun = true) :
    y.streamBank p a save = y.panOrder p := if_pos h

theorem fillBank_order (h : y.panStreams p a = true ∨ (y.pn p).jobRun = true) : y.fillBank p a = y.panOrder p := if_pos h

variable (hfree : y.panStreams p a = false) (hjob : (y.pn p).jobRun = false)
include hfree hjob

theorem notOrdered : ¬(y.panStreams p a = true ∨ (y.pn p).jobRun = true) := by
  simp [hfree, hjob]

/-- A stream of the idle bank, after the bank timer's check (R138, R253). -/
theorem streamBank_begins {save early : Bool} {x : Nat} {z : State} (hx : x = y.hclk (2 * a + 24))
    (he : early = decide (x < 2 * (if (y.pn p).bank then (y.pn p).visible0 else (y.pn p).visible1)))
    (hz : z = if early then y.breach R.BR_BANK 3 p else y) :
    y.streamBank p a save = (z.setPn p { z.pn p with busy := x + 3 * 4098 }).setRk (p.val / 4)
      { z.rk (p.val / 4) with streams := (z.rk (p.val / 4)).streams
          ++ [(p.val % 4, { first := x, save := save, bank := some (!(y.pn p).bank), early := early })] } := by
  have hidle : (if (!(y.pn p).bank) = true then (y.pn p).visible1 else (y.pn p).visible0)
      = if (y.pn p).bank then (y.pn p).visible0 else (y.pn p).visible1 := by cases (y.pn p).bank <;> rfl
  subst hz he hx
  rw [State.streamBank, if_neg (notOrdered hfree hjob)]
  dsimp only
  rw [hidle]

/-- A fill of the idle bank with what its port's binding gives (R271, R299). -/
theorem fillBank_begins {early : Bool} {x : Nat} {z : State} {blk : Option Nat} (hx : x = y.hclk (2 * a + 48))
    (he : early = decide (a < if (y.pn p).bank then (y.pn p).visible0 else (y.pn p).visible1))
    (hz : (if early then y.breach R.BR_BANK 3 p else y).takeFill p = (z, blk)) :
    y.fillBank p a = z.setPn p { z.pn p with
      filling := x + 3 * 4098, fill := some { t := a, bank := !(y.pn p).bank, blk := blk, early := early } } := by
  subst he hx
  rw [State.fillBank, if_neg (notOrdered hfree hjob)]
  dsimp only
  rw [hz]

end Banks

/-- A fill with no binding counts in `NOBIND` (R299). -/
theorem takeFill_none {s z : State} {p : Nat} (hz : z = s.rakeNow (p / 4))
    (h : (z.rk (p / 4)).blks.find? (fun b => b.port = p % 4 ∧ b.taken = false ∧ b.kind = .fill) = none) :
    s.takeFill p = (z.countf R.RK_ERR (4 * (p / 4)) 47 32, none) := by
  subst hz
  rw [State.takeFill, h]
  rfl

theorem takeFill_some {s z : State} {p : Nat} {b : RBlk} (hz : z = s.rakeNow (p / 4))
    (h : (z.rk (p / 4)).blks.find? (fun b => b.port = p % 4 ∧ b.taken = false ∧ b.kind = .fill) = some b) :
    s.takeFill p = (z.setBlk (p / 4) b.id (some { b with taken := true }), some b.id) := by
  subst hz
  rw [State.takeFill, h]

theorem drain_gives {s y z1 z : State} {p : Fin 256} {w : Word} {a x : Nat} {early : Bool} (hcur : s.current (.pan p) 0x06 = some (w, y))
    (ha : a = (y.pn p).seq.at_) (hfree : y.panStreams p a = false) (hjob : (y.pn p).jobRun = false) (hx : x = y.hclk (2 * a + 24))
    (he : early = decide (x < 2 * (if (y.pn p).bank then (y.pn p).visible0 else (y.pn p).visible1)))
    (hz1 : z1 = if early then y.breach R.BR_BANK 3 p else y)
    (hz : z = (z1.setPn p { z1.pn p with busy := x + 3 * 4098 }).setRk (p.val / 4)
      { z1.rk (p.val / 4) with streams := (z1.rk (p.val / 4)).streams
          ++ [(p.val % 4, { first := x, save := bit w 57, bank := some (!(y.pn p).bank), early := early })] }) :
    Gives (.drain p) s fun t => Frame noRegs [] ((z.setSeq (.pan p) ((z.pn p).seq.issued 1)).unitsNow) t := by
  subst ha
  exact issue_gives rfl hcur ((streamBank_begins hfree hjob hx he hz1).trans hz.symm)

/-- Settles O25: each command is its instruction issued (`issue_gives`) with what `switchBank`, `streamBank` and `fillBank` make of
the pan. -/
theorem banksStreamAndFill : Obligations.BanksStreamAndFill := by
  unfold Obligations.BanksStreamAndFill
  refine ⟨?bank, ?bankOrder, ?bankNone, ?drain, ?drainAgain, ?drainOrder, ?drainNone, ?fillUnbound, ?fillBound, ?fillOrder, ?fillNone⟩
  case bank =>
    rintro s p w y a z hcur rfl hfree rfl
    exact issue_gives rfl hcur (switchBank_free hfree)
  case bankOrder =>
    rintro s p w y a z hcur rfl hbusy rfl
    exact issue_gives rfl hcur ((switchBank_order hbusy).trans (panOrder_eq y p))
  case bankNone => exact fun s p hcur => issue_none_gives rfl hcur
  case drain => exact fun s p w y a x early z1 z hcur ha hfree hjob hx he hz1 hz => drain_gives hcur ha hfree hjob hx he hz1 hz
  case drainAgain => exact fun s p w y a x early z1 z hcur ha hfree hjob hx he hz1 hz => drain_gives hcur ha hfree hjob hx he hz1 hz
  case drainOrder =>
    rintro s p w y a z hcur rfl hbusy rfl
    exact issue_gives rfl hcur ((streamBank_order hbusy).trans (panOrder_eq y p))
  case drainNone => exact fun s p hcur => issue_none_gives rfl hcur
  case fillUnbound =>
    rintro s p w y a x early z1 z2 z hcur rfl hfree hjob hx he hz1 hnone rfl rfl
    exact issue_gives rfl hcur (fillBank_begins hfree hjob hx he (takeFill_none hz1 hnone))
  case fillBound =>
    rintro s p w y a x early z1 z2 z b hcur rfl hfree hjob hx he hz1 hbound rfl rfl
    exact issue_gives rfl hcur (fillBank_begins hfree hjob hx he (takeFill_some hz1 hbound))
  case fillOrder =>
    rintro s p w y a z hcur rfl hbusy rfl
    exact issue_gives rfl hcur ((fillBank_order hbusy).trans (panOrder_eq y p))
  case fillNone => exact fun s p hcur => issue_none_gives rfl hcur

end Sys2Proof.Machine

/-! PROOFS. A feeder's address registers stepped and read through, and its emitter (R259 to R263, R268); with these, O26. -/

namespace Sys2Proof.Machine

-- A feeder's record read and written.

@[simp] theorem fd_setFd (s : State) (f : Nat) (v : Feeder) : (s.setFd f v).fd f = v := mget_mset_self ..

@[simp] theorem setFd_setFd (s : State) (f : Nat) (v w : Feeder) : (s.setFd f v).setFd f w = s.setFd f w := by
  simp [State.setFd]

theorem finish_fd (s0 s1 : State) (f : Nat) : (s0.finish s1).fd f = s1.fd f := by
  rw [State.fd, finish_pans, State.fd]

section Setup

variable {c : Instr} {s y : State} {i : Fin 32} {op : Nat} {f : Word → Nat → State → State} {w : Word}

/-- A setup instruction of a feeder that sets its registers to `regs` and may draw from the choices left open. -/
theorem setupOp_feeder_gives {y2 : State} {regs : Map AReg} {P : State → Prop}
    (hexec : exec c s = done s (s.setupOp (.feeder i) op f)) (hcur : s.current (.feeder i) op = some (w, y))
    (hf : f w (y.fd i).seq.at_ y = y2.setFd i { y.fd i with regs := regs })
    (hP : P (s.finish (y2.setFd i { y.fd i with regs := regs, seq := (y.fd i).seq.setup }))) : Gives c s P := by
  have hstep : s.setupOp (.feeder i) op f = y2.setFd i { y.fd i with regs := regs, seq := (y.fd i).seq.setup } := by
    simp only [State.setupOp, hcur, State.setSeq, State.seqOf, hf, fd_setFd, setFd_setFd]
  exact Gives.done (hexec.trans (congrArg (done s) hstep)) hP

theorem setupOp_none_gives {u : SeqUnit} (hexec : exec c s = done s (s.setupOp u op f)) (hcur : s.current u op = none) :
    Gives c s fun t => Frame noRegs [] s t := by
  have hstay : s.setupOp u op f = s := by rw [State.setupOp, hcur]
  exact Gives.done (hexec.trans (congrArg (done s) hstay)) (Only.refl _ _ _).frame

/-- What shows after a feeder's record was set. -/
theorem finish_setFd_shows (s y : State) (i : Nat) (d : Feeder) : let t := s.finish (y.setFd i d)
    t.fd i = d ∧ t.pans = (y.setFd i (t.fd i)).pans ∧ Frame noRegs [.pans] y t := by
  have hd : (s.finish (y.setFd i d)).fd i = d := (finish_fd ..).trans (fd_setFd ..)
  refine ⟨hd, ?_, ((Only.refl _ _ _).set_pans _ (by decide)).frameFrom s⟩
  rw [hd, finish_pans]

/-- The same where indices left open were drawn. -/
theorem finish_setFd_drawn_shows (s y : State) (i : Nat) (d : Feeder) (n : Nat) : let t := s.finish ({ y with free := n }.setFd i d)
    t.fd i = d ∧ t.pans = (y.setFd i (t.fd i)).pans ∧ t.free = n ∧ Frame noRegs [.pans, .free] y t := by
  have hd : (s.finish ({ y with free := n }.setFd i d)).fd i = d := (finish_fd ..).trans (fd_setFd ..)
  refine ⟨hd, ?_, finish_free .., (((Only.refl _ _ _).set_free _ (by decide)).set_pans _ (by decide)).frameFrom s⟩
  rw [hd, finish_pans]
  rfl

end Setup

theorem fcfg_gives {s y : State} {i : Fin 32} {w : Word} {P : State → Prop} (hcur : s.current (.feeder i) 0x10 = some (w, y))
    (hP : P (s.finish (y.setFd i { y.fd i with
      regs := mset aregDflt (y.fd i).regs (fld w 57 55) ((mget aregDflt (y.fd i).regs (fld w 57 55)).config w)
      seq := (y.fd i).seq.setup }))) : Gives (.fcfg i) s P :=
  setupOp_feeder_gives rfl hcur rfl hP

/-- The part of an address register that `FCFG` sets (R268). -/
theorem config_part (g : AReg) (w : Word) :
    (fld w 54 52 = 0 → g.config w = { g with base := fld w 51 19, inner := 0, outer := 0, anchor := none })
    ∧ (fld w 54 52 = 1 → g.config w = { g with wrap := fld w 51 19 })
    ∧ (fld w 54 52 = 2 → g.config w = { g with p := fld w 51 19 + 1 })
    ∧ (fld w 54 52 = 3 → g.config w = { g with lag := fld w 51 19 })
    ∧ (fld w 54 52 = 4 → g.config w = { g with ostep := fld w 51 19 })
    ∧ (fld w 54 52 = 5 → g.config w = { g with omod := fld w 51 19 }) := by
  unfold AReg.config
  refine ⟨?_, ?_, ?_, ?_, ?_, ?_⟩ <;> (intro h; rw [h]; rfl)

-- The indices of an address register stepped (R260, R268).

theorem modIndex_pos {s : State} {v : Int} {m : Nat} (h : 0 < m) : s.modIndex v m = ((v % m).toNat, s) := if_neg h.ne'

theorem modIndex_zero (s : State) (v : Int) :
    s.modIndex v 0 = ((Config.indexOpen s.free).toNat, { s with free := s.free + 1 }) := rfl

/-- Register `g`, its indices stepped to those of `g1`, with its anchor as an `FADV` at SCLK `t` leaves it (R260). -/
def AReg.anchored (g g1 : AReg) (y : State) (t : Nat) (w : Word) : AReg :=
  if bit w 29 then
    (if y.arr t < g.lag then { g1 with anchor := none }
     else { g1 with
              anchor := some (((y.arr t).toNat - g.lag) / (y.chanC * g.p * 2 ^ fld w 28 24) * 2 ^ fld w 28 24, y.time.epoch)
              inner := 0 })
  else g1

/-- The outer index after an `FADV`, and the state where it drew an index left open. -/
def State.outerStep (y : State) (g : AReg) (w : Word) : Nat × State :=
  if bit w 54 then y.modIndex (g.outer + g.ostep : Nat) g.omod else (g.outer, y)

theorem outerStep_fixed {y : State} {g : AReg} {w : Word} (h : bit w 54 = false ∨ 0 < g.omod) :
    y.outerStep g w = (if bit w 54 then (g.outer + g.ostep) % g.omod else g.outer, y) := by
  unfold State.outerStep
  split
  case isTrue hb =>
    have hm : 0 < g.omod := h.resolve_left (by simp [hb])
    rw [modIndex_pos hm, ← Int.natCast_mod, Int.toNat_natCast]
  case isFalse => rfl

theorem outerStep_open {y : State} {g : AReg} {w : Word} (hb : bit w 54 = true) (hm : g.omod = 0) :
    y.outerStep g w = ((Config.indexOpen y.free).toNat, { y with free := y.free + 1 }) := by
  rw [State.outerStep, if_pos hb, hm, modIndex_zero]

theorem advOp_eq {y y1 : State} {f t o i n : Nat} {w : Word} {g : AReg} (hg : g = mget aregDflt (y.fd f).regs (fld w 57 55))
    (ho : y.outerStep g w = (o, y1)) (hi : y1.modIndex ((g.inner : Int) + sfld w 53 30) g.wrap = (i, { y with free := n })) :
    y.advOp f t w = { y with free := n }.setFd f { y.fd f with
      regs := mset aregDflt (y.fd f).regs (fld w 57 55) (g.anchored { g with outer := o, inner := i } y t w) } := by
  subst hg
  unfold State.outerStep at ho
  unfold State.advOp
  dsimp only
  rw [ho]
  dsimp only
  rw [hi]
  rfl

section Advance

variable {s y : State} {i : Fin 32} {w : Word} {a : Nat} {g g1 g2 : AReg} (hcur : s.current (.feeder i) 0x12 = some (w, y))
  (ha : a = (y.fd i).seq.at_) (hg : g = mget aregDflt (y.fd i).regs (fld w 57 55)) (hg2 : g2 = g.anchored g1 y a w)
include hcur ha hg hg2

/-- An `FADV` of a register with lengths draws nothing. -/
theorem fadv_fixed (hwrap : 0 < g.wrap) (hom : bit w 54 = false ∨ 0 < g.omod)
    (hg1 : g1 = { g with outer := if bit w 54 then (g.outer + g.ostep) % g.omod else g.outer
                         inner := (((g.inner : Int) + sfld w 53 30) % g.wrap).toNat }) :
    Gives (.fadv i) s fun t =>
      t.fd i = { y.fd i with regs := mset aregDflt (y.fd i).regs (fld w 57 55) g2, seq := (y.fd i).seq.setup }
      ∧ t.pans = (y.setFd i (t.fd i)).pans ∧ Frame noRegs [.pans] y t := by
  subst ha hg2 hg1
  exact setupOp_feeder_gives rfl hcur (advOp_eq (n := y.free) hg (outerStep_fixed hom) (modIndex_pos hwrap))
    (finish_setFd_shows s y i _)

/-- One whose indices come of `n` choices drawn shows them drawn. -/
theorem fadv_drawn {o j n : Nat} {y1 : State} (ho : y.outerStep g w = (o, y1))
    (hi : y1.modIndex ((g.inner : Int) + sfld w 53 30) g.wrap = (j, { y with free := n }))
    (hg1 : g1 = { g with outer := o, inner := j }) :
    Gives (.fadv i) s fun t =>
      t.fd i = { y.fd i with regs := mset aregDflt (y.fd i).regs (fld w 57 55) g2, seq := (y.fd i).seq.setup }
      ∧ t.pans = (y.setFd i (t.fd i)).pans ∧ t.free = n ∧ Frame noRegs [.pans, .free] y t := by
  subst ha hg2 hg1
  exact setupOp_feeder_gives rfl hcur (advOp_eq hg ho hi) (finish_setFd_drawn_shows s y i _ n)

end Advance

-- The running image under what counts and reports.

theorem image_congr {s t : State} (hrun : t.sched.run = s.sched.run) (h0 : t.sched.image0 = s.sched.image0)
    (h1 : t.sched.image1 = s.sched.image1) : t.image = s.image := by
  have hmem : t.storeMem = s.storeMem := funext (storeMem_congr h0 h1)
  rw [State.image, State.image, hrun, hmem]

theorem report_sched (s : State) (page bank cls : Nat) (d0 d1 : Word) : (s.report page bank cls d0 d1).sched = s.sched :=
  (report_only s page bank cls d0 d1).same (p := .sched) (by decide)

/-- A breach counts and reports; it leaves the running image. -/
theorem breach_image (s : State) (r : Reg) (kind unit : Nat) : (s.breach r kind unit).image = s.image := by
  unfold State.breach
  dsimp only
  refine (image_congr ?_ ?_ ?_).trans (?_ : (s.count r 0).image = s.image)
  case refine_4 => rfl
  all_goals
    rw [report_sched]
    split <;> split <;> rfl

theorem feederCount_image (s : State) (f hi lo n : Nat) : (s.feederCount f hi lo n).image = s.image := by
  unfold State.feederCount
  split <;> rfl

theorem specWord_congr {s t : State} (h : t.image = s.image) : t.specWord = s.specWord := by
  rw [State.specWord, State.sampleBits, h, State.specWord, State.sampleBits]

-- The transfers of an `FREAD` (R259 to R262).

section Read

variable {s y : State} {i : Fin 32} {w : Word} {a : Nat} {g : AReg}

/-- One transfer of a group without an anchor: the zero-weight code lands and is counted. -/
theorem readOne_zero {f n : Nat} (hraw : bit w 51 = false) (hanchor : g.anchor = none) : y.readOne f a w g n
    = (y.feedData f (xferTime (a / 256 * 256) n) ((fld w 41 34 + y.specWord * n) % 256) (fld w 50 49)
        (List.replicate 64 (zeroCode y.sampleBits)) false false).feederCount f 15 0 := by
  simp [State.readOne, State.zeroGroup, hraw, hanchor]

/-- One raw transfer that the slot is not budgeted for breaches and lands as poison. -/
theorem readOne_unbudgeted {f n : Nat} (hraw : bit w 51 = true) (hslot : y.entry 1 f (a / 256 % 4096) ≠ 4096 + 3072 + fld w 54 52) :
    y.readOne f a w g n = (y.breach R.BR_HEAP 1 (hPch ((g.base + g.outer + (g.inner + n) % g.wrap) * 64) % 512)).feedData f
      (xferTime (a / 256 * 256) n) ((fld w 41 34 + n) % 256) 8 poisonData true true := by
  simp [State.readOne, hraw, hslot]

/-- One raw transfer in a slot that is budgeted is asked of the heap. -/
theorem readOne_asked {f n : Nat} (hraw : bit w 51 = true) (hslot : y.entry 1 f (a / 256 % 4096) = 4096 + 3072 + fld w 54 52) :
    y.readOne f a w g n = y.ask { owner := 512 + f, now := true, write := false
                                  addr := (g.base + g.outer + (g.inner + n) % g.wrap) * 64, data := []
                                  dest := .feeder f ((fld w 41 34 + n) % 256) 8 } := by
  simp [State.readOne, hraw, hslot]

theorem readOp_onTime {f : Nat} {z : State} (hg : g = mget aregDflt (y.fd f).regs (fld w 57 55)) (hearly : a % 256 < 16)
    (hz : z = (List.range (fld w 48 42)).foldl (fun x n => x.readOne f a w g n) y) :
    y.readOp f a w = z.setFd f { z.fd f with
      regs := mset aregDflt (z.fd f).regs (fld w 57 55) { g with inner := (g.inner + fld w 48 42) % g.wrap } } := by
  have hnot : ¬(decide (16 ≤ a % 256) = true) := by simpa using hearly
  subst hz hg
  rw [State.readOp]
  dsimp only
  rw [if_neg hnot]

/-- Transfers that land as poison leave the pond word's size (R241), so it may be read before them all. -/
theorem foldl_feedData_word {f m : Nat} (time : Nat → Nat) (e : Nat) (raw : Bool) (pos : Nat) (xs : List Nat) (z : State)
    (hz : z.specWord = m) :
    xs.foldl (fun x n => x.feedData f (time n) ((e + (if raw then n else x.specWord * n)) % 256) pos poisonData true true) z
      = xs.foldl (fun x n => x.feedData f (time n) ((e + (if raw then n else m * n)) % 256) pos poisonData true true) z := by
  induction xs generalizing z with
  | nil => rfl
  | cons n xs ih =>
    rw [List.foldl_cons, List.foldl_cons, hz]
    exact ih _ hz

/-- One past offset 15 counts in `LATE`, breaches and lands poison. -/
theorem readOp_late {f : Nat} {z : State} (hg : g = mget aregDflt (y.fd f).regs (fld w 57 55)) (hlate : 16 ≤ a % 256)
    (hz : z = (List.range (fld w 48 42)).foldl (fun x n => x.feedData f (xferTime (a / 256 * 256) n)
      ((fld w 41 34 + (if bit w 51 then n else y.specWord * n)) % 256) (if bit w 51 then 8 else fld w 50 49) poisonData true true)
      ((y.feederCount f 31 16).breach R.BR_HEAP 1 (hPch (g.base * 64) % 512))) :
    y.readOp f a w = z.setFd f { z.fd f with
      regs := mset aregDflt (z.fd f).regs (fld w 57 55) { g with inner := (g.inner + fld w 48 42) % g.wrap } } := by
  have hword : ((y.feederCount f 31 16).breach R.BR_HEAP 1 (hPch (g.base * 64) % 512)).specWord = y.specWord :=
    (specWord_congr (breach_image ..)).trans (specWord_congr (feederCount_image ..))
  subst hz hg
  rw [State.readOp]
  dsimp only
  rw [if_pos (decide_eq_true hlate), foldl_feedData_word _ _ _ _ _ _ hword]

/-- An `FREAD` through a register with lengths is `readOp`. -/
theorem fread_gives {z : State} (hcur : s.current (.feeder i) 0x11 = some (w, y)) (ha : a = (y.fd i).seq.at_)
    (hg : g = mget aregDflt (y.fd i).regs (fld w 57 55)) (hwrap : 0 < g.wrap) (hom : 0 < g.omod) (hz : y.readOp i a w = z) :
    Gives (.fread i) s fun t => Frame noRegs [] ((z.setSeq (.feeder i) ((z.fd i).seq.issued 1)).unitsNow) t := by
  subst ha hg
  exact issue_gives rfl hcur ((if_neg (not_or.mpr ⟨hwrap.ne', hom.ne'⟩)).trans hz)

/-- The single transfer of an `FREAD` with a count of 1. -/
theorem foldl_readOne_single {f : Nat} (hone : fld w 48 42 = 1) :
    (List.range (fld w 48 42)).foldl (fun x n => x.readOne f a w g n) y = y.readOne f a w g 0 := by
  rw [hone]
  rfl

end Read


/-- Settles O26: FREAD and FEMIT are their instruction issued (`issue_gives`) with `readOp` and `emitOp`, FCFG and FADV the feeder's
record with its register set (`fcfg_gives`, `fadv_fixed`, `fadv_drawn`). -/
theorem feedersReadAndEmit : Obligations.FeedersReadAndEmit := by
  unfold Obligations.FeedersReadAndEmit
  refine ⟨?fcfg, ?fcfgNone, ?illegal, ?onTime, ?late, ?zero, ?unbudgeted, ?asked, ?freadNone, ?fadv, ?fadvAgain, ?innerOpen,
    ?outerOpen, ?bothOpen, ?fadvNone, ?femit, ?femitNone⟩
  case fcfg =>
    rintro s i w y g hcur rfl
    refine fcfg_gives hcur ?_
    obtain ⟨hd, hpans, hframe⟩ := finish_setFd_shows s y i { y.fd i with
      regs := mset aregDflt (y.fd i).regs (fld w 57 55) ((mget aregDflt (y.fd i).regs (fld w 57 55)).config w)
      seq := (y.fd i).seq.setup }
    obtain ⟨h0, h1, h2, h3, h4, h5⟩ := config_part (mget aregDflt (y.fd i).regs (fld w 57 55)) w
    refine ⟨?_, ?_, ?_, ?_, ?_, ?_, ?_, hpans, hframe⟩ <;> simp only [hd, mget_mset_self] <;> assumption
  case fcfgNone => exact fun s i hcur => setupOp_none_gives rfl hcur
  case illegal =>
    rintro s i w y a g z hcur rfl rfl hno rfl
    exact issue_gives rfl hcur (if_pos hno)
  case onTime =>
    rintro s i w y a g z1 z hcur ha hg hwrap hom hearly hz1 rfl
    exact fread_gives hcur ha hg hwrap hom (readOp_onTime hg hearly hz1)
  case late =>
    rintro s i w y a g z1 z hcur ha hg hwrap hom hlate hz1 rfl
    exact fread_gives hcur ha hg hwrap hom (readOp_late hg hlate hz1)
  case zero =>
    rintro s i w y a g z1 z hcur ha hg hwrap hom hearly hone hraw hanchor hz1 rfl
    refine fread_gives hcur ha hg hwrap hom (readOp_onTime hg hearly (hz1.trans ?_))
    rw [foldl_readOne_single hone, readOne_zero hraw hanchor, Nat.mul_zero, Nat.add_zero]
  case unbudgeted =>
    rintro s i w y a g z1 z hcur ha hg hwrap hom hearly hone hraw hslot hz1 rfl
    refine fread_gives hcur ha hg hwrap hom (readOp_onTime hg hearly (hz1.trans ?_))
    rw [foldl_readOne_single hone, readOne_unbudgeted hraw hslot, Nat.add_zero, Nat.add_zero]
  case asked =>
    rintro s i w y a g z1 z hcur ha hg hwrap hom hearly hone hraw hslot hz1 rfl
    refine fread_gives hcur ha hg hwrap hom (readOp_onTime hg hearly (hz1.trans ?_))
    rw [foldl_readOne_single hone, readOne_asked hraw hslot, Nat.add_zero, Nat.add_zero]
  case freadNone => exact fun s i hcur => issue_none_gives rfl hcur
  case fadv => exact fun s i w y a g g1 g2 hcur ha hg hwrap hom hg1 hg2 => fadv_fixed hcur ha hg hg2 hwrap hom hg1
  case fadvAgain => exact fun s i w y a g g1 g2 hcur ha hg hwrap hom hg1 hg2 => fadv_fixed hcur ha hg hg2 hwrap hom hg1
  case innerOpen =>
    intro s i w y a g g1 g2 hcur ha hg hwrap hom hg1 hg2
    exact fadv_drawn hcur ha hg hg2 (outerStep_fixed hom) (by rw [hwrap, modIndex_zero]) hg1
  case outerOpen =>
    intro s i w y a g g1 g2 hcur ha hg hwrap hb hom hg1 hg2
    exact fadv_drawn hcur ha hg hg2 (outerStep_open hb hom) (modIndex_pos hwrap) hg1
  case bothOpen =>
    intro s i w y a g g1 g2 hcur ha hg hwrap hb hom hg1 hg2
    exact fadv_drawn hcur ha hg hg2 (outerStep_open hb hom) (by rw [hwrap, modIndex_zero]) hg1
  case fadvNone => exact fun s i hcur => setupOp_none_gives rfl hcur
  case femit =>
    rintro s i w y a g z1 c z hcur rfl - rfl rfl rfl
    exact issue_gives rfl hcur rfl
  case femitNone => exact fun s i hcur => issue_none_gives rfl hcur

end Sys2Proof.Machine

/-! PROOFS. A controller that stops with a cause and answers what waits for it (R224, R235, R236): the rules that the heap's upkeep
rests on. -/

namespace Sys2Proof.Machine

-- A controller after a write of one, and what leaves the controllers and pseudo-channels.

@[simp] theorem ctl_setCtl_self (s : State) (h : Nat) (c : Ctrl) : (s.setCtl h c).ctl h = c := mget_mset_self ..

@[simp] theorem pc_setCtl (s : State) (h j : Nat) (c : Ctrl) : (s.setCtl h c).pc j = s.pc j := rfl

@[simp] theorem mem_setCtl (s : State) (h : Nat) (c : Ctrl) : (s.setCtl h c).heap.mem = s.heap.mem := rfl

@[simp] theorem mem_setPc (s : State) (j : Nat) (p : PCh) : (s.setPc j p).heap.mem = s.heap.mem := rfl

@[simp] theorem ctl_raise (s : State) (h g i : Nat) : (s.raise g i).ctl h = s.ctl h := rfl

@[simp] theorem pc_raise (s : State) (j g i : Nat) : (s.raise g i).pc j = s.pc j := rfl

@[simp] theorem finish_ctl (s0 s1 : State) (h : Nat) : (s0.finish s1).ctl h = s1.ctl h := by rw [State.ctl, finish_heap, State.ctl]

-- The open requests of a controller that does not serve, answered (R236).

theorem failQueue_ctl (s : State) (j h : Nat) : (s.failQueue j).ctl h = s.ctl h := by
  rw [State.ctl, failQueue_heap]
  rfl

/-- What a request's answer leaves of a pseudo-channel. -/
theorem failQueue_pc_kept (s : State) (i j : Nat) :
    (s.failQueue i).pc j = { s.pc j with queue := ((s.failQueue i).pc j).queue } := by
  rw [failQueue_pc]
  split
  · next h => rw [h]
  · rfl

theorem dropUnserved_only (s : State) (h : Nat) : Only noRegs [.heap, .xbar] s (s.dropUnserved h) :=
  Only.ite (Only.refl _ _ s) ((failQueue_only _ _).trans (failQueue_only _ _))

theorem dropUnserved_ctl (s : State) (h i : Nat) : (s.dropUnserved h).ctl i = s.ctl i := by
  unfold State.dropUnserved
  split
  · rfl
  · rw [failQueue_ctl, failQueue_ctl]

theorem dropUnserved_mem (s : State) (h : Nat) : (s.dropUnserved h).heap.mem = s.heap.mem := by
  unfold State.dropUnserved
  split
  · rfl
  · rw [failQueue_mem, failQueue_mem]

theorem dropUnserved_pc (s : State) (h j : Nat) :
    (s.dropUnserved h).pc j = { s.pc j with queue := ((s.dropUnserved h).pc j).queue } := by
  unfold State.dropUnserved
  split
  · rfl
  · refine (failQueue_pc_kept (s.failQueue (2 * h)) (2 * h + 1) j).trans ?_
    rw [failQueue_pc_kept s (2 * h) j]

-- A controller stopped (R224, R235).

section Stop

variable (s : State) (h m cause : Nat)

theorem stopCtl_ctl : (s.stopCtl h m cause).ctl h = { s.ctl h with state := if cause = 5 then .fault else .frozen } := by
  unfold State.stopCtl
  dsimp only
  rw [State.ctl, report_heap, raise_heap, wr_heap, State.setCtl, mget_mset_self]
  split <;> rfl

theorem stopCtl_pc (j : Nat) : (s.stopCtl h m cause).pc j = s.pc j := by
  unfold State.stopCtl
  dsimp only
  rw [State.pc, report_heap, raise_heap, wr_heap]
  split <;> rfl

theorem stopCtl_info : (s.stopCtl h m cause).rd R.FRZ_INFO h = s.freezeWord m cause := by
  unfold State.stopCtl
  dsimp only
  rw [report_rd (key_notMem_reportKeys (by decide) (by decide)), rd_raise (by decide), rd_wr_self]
  split <;> rfl

theorem stopCtl_event : bit ((s.stopCtl h m cause).hdr (0x40 + h / 32) hEvt) (if cause = 5 then 1 else 0) = true :=
  ((UnitWork.refl _).report ..).events _ _ (hdr_raise (by split <;> decide))

theorem stopCtl_events {page i : Nat} (hb : bit (s.hdr page hEvt) i = true) : bit ((s.stopCtl h m cause).hdr page hEvt) i = true := by
  unfold State.stopCtl
  refine (((UnitWork.refl _).raise _ _).report ..).events page i ?_
  rw [hdr_wr (by decide) (by decide)]
  split <;> exact hb

end Stop

/-- A failed training stops the controller without loss of data (R224). -/
theorem stopCtl_fault_only (s : State) (h m : Nat) :
    Only (regsIn (regKey 0 (0x40 + h / 32) 0 hEvt :: R.FRZ_INFO.key h :: reportKeys)) [.heap, .xbar, .bitt] s (s.stopCtl h m 5) :=
  Only.report _ _ _ _ _ (fun k hk => by simp [regsIn, hk]) (by decide)
    (Only.raise (by simp [regsIn]) (Only.wr _ (by simp [regsIn]) ((Only.refl _ _ s).set_heap _ (by decide))))

theorem stopCtl_fault_mem (s : State) (h m : Nat) : (s.stopCtl h m 5).heap.mem = s.heap.mem := by
  unfold State.stopCtl
  dsimp only
  rw [report_heap, raise_heap, wr_heap, mem_setCtl, if_pos rfl]

/-- A word's lowest four bits. -/
theorem fld_word_nibble (n : Nat) : fld (word n) 3 0 = n % 16 := by
  rw [fld, word, BitVec.toNat_ofNat]
  omega

/-- The cause that `FRZ_INFO` shows (R246). -/
theorem fld_freezeWord (s : State) (m : Nat) {cause : Nat} (hc : cause < 16) : fld (s.freezeWord m cause) 3 0 = cause := by
  have hsum (a b c : Nat) : (at_ 32 a + at_ 20 b + at_ 16 c + cause) % 16 = cause := by
    simp only [at_]
    omega
  exact (fld_word_nibble _).trans (hsum ..)

section Freeze

variable (s : State) (h m cause : Nat)

theorem freeze_ctl : (s.freeze h m cause).ctl h = { s.ctl h with state := if cause = 5 then .fault else .frozen } :=
  (dropUnserved_ctl ..).trans (stopCtl_ctl ..)

theorem freeze_pc (j : Nat) : (s.freeze h m cause).pc j = { s.pc j with queue := ((s.freeze h m cause).pc j).queue } := by
  rw [← stopCtl_pc s h m cause j]
  exact dropUnserved_pc ..

theorem freeze_info : (s.freeze h m cause).rd R.FRZ_INFO h = s.freezeWord m cause :=
  ((dropUnserved_only ..).getReg (fun hk => hk)).trans (stopCtl_info ..)

theorem freeze_hdr (page : Nat) : (s.freeze h m cause).hdr page hEvt = (s.stopCtl h m cause).hdr page hEvt :=
  (dropUnserved_only ..).getReg (fun hk => hk)

end Freeze

end Sys2Proof.Machine

/-! PROOFS. Refresh, mitigation, re-centring and training of the heap (R141, R223 to R232, R239); with these, O14. -/

namespace Sys2Proof.Machine

-- Refresh steps and the stack's temperature (R228, R229).

theorem readTemp_again {y : State} {h : Nat} {x : BitVec 8} (hread : pget y.heap.tempTide (h / 32) = some y.time.tide) :
    y.readTemp h x = y := if_pos hread

/-- The stack's temperature and `HOT`, written. -/
def State.tempSet (y : State) (h : Nat) (x : BitVec 8) : State :=
  ({ y with heap := { y.heap with tempTide := pset y.heap.tempTide (h / 32) (some y.time.tide) } }).wr R.HC_TEMP (h / 32 * 32)
    (word (at_ 8 (b2n (decide (85 < x.toInt) || (decide (83 < x.toInt) && y.stackHot h))) + x.toNat))

theorem readTemp_first {y : State} {h : Nat} {x : BitVec 8} (hread : pget y.heap.tempTide (h / 32) ≠ some y.time.tide) :
    y.readTemp h x = if 85 < x.toInt then (y.tempSet h x).raise (0x40 + h / 32) 5 else y.tempSet h x := by
  have hnow (hot : Bool) : (if 85 < x.toInt then true else if x.toInt ≤ 83 then false else hot)
      = (decide (85 < x.toInt) || (decide (83 < x.toInt) && hot)) := by
    by_cases hhot : 85 < x.toInt
    · simp [hhot]
    · by_cases hcool : x.toInt ≤ 83
      · simp [hhot, hcool]
      · simp [hhot, hcool, Int.not_le.mp hcool]
  rw [State.readTemp, if_neg hread]
  dsimp only
  rw [hnow]
  rfl

/-- What a first reading leaves of the heap. -/
theorem readTemp_heap {y : State} {h : Nat} {x : BitVec 8} (hread : pget y.heap.tempTide (h / 32) ≠ some y.time.tide) :
    (y.readTemp h x).heap = { y.heap with tempTide := pset y.heap.tempTide (h / 32) (some y.time.tide) } := by
  rw [readTemp_first hread]
  split <;> rfl

theorem readTemp_rd {y : State} {h : Nat} {x : BitVec 8} (hread : pget y.heap.tempTide (h / 32) ≠ some y.time.tide) :
    (y.readTemp h x).rd R.HC_TEMP (h / 32 * 32)
      = word (at_ 8 (b2n (decide (85 < x.toInt) || (decide (83 < x.toInt) && y.stackHot h))) + x.toNat) := by
  rw [readTemp_first hread]
  split
  · rw [rd_raise (by decide), State.tempSet, rd_wr_self]
  · rw [State.tempSet, rd_wr_self]

theorem readTemp_only {y : State} {h : Nat} {x : BitVec 8} (hread : pget y.heap.tempTide (h / 32) ≠ some y.time.tide) :
    Only (regsIn [R.HC_TEMP.key (h / 32 * 32), regKey 0 (0x40 + h / 32) 0 hEvt]) [.heap] y (y.readTemp h x) := by
  have hset : Only (regsIn [R.HC_TEMP.key (h / 32 * 32), regKey 0 (0x40 + h / 32) 0 hEvt]) [.heap] y (y.tempSet h x) :=
    Only.wr _ (by simp [regsIn]) ((Only.refl _ _ y).set_heap _ (by decide))
  rw [readTemp_first hread]
  exact Only.ite (hset.raise (by simp [regsIn])) hset

section Refresh

variable {s y : State} {j : Fin 512} {n : Fin 4096} {x : BitVec 8} (hy : y = s.atSlot n)
  (hrefreshes : (y.ctl (j.val / 2)).refreshes = true)
include hy hrefreshes

theorem exec_refresh (hclass : y.classAt 0 j n = some .refresh) : exec (.refreshStep j n x) s
    = done s ((y.readTemp (j.val / 2) x).setPc j ((y.readTemp (j.val / 2) x).pc j).refreshed) := by
  subst hy
  refine congrArg (done s) ((if_neg (by simp [hrefreshes])).trans ?_)
  rw [hclass]

theorem exec_refresh2 (hclass : y.classAt 0 j n = some .refresh2) : exec (.refreshStep j n x) s
    = done s (if y.stackHot (j.val / 2) = true ∨ y.rdb R.HC_XCFG (j.val / 2) 1 = true ∨ y.sched.stress = true
        then y.setPc j (y.pc j).refreshed else y) := by
  subst hy
  refine congrArg (done s) ((if_neg (by simp [hrefreshes])).trans ?_)
  rw [hclass]

/-- A tide's first `REFRESH` slot of a stack (R229). -/
theorem refresh_first (hclass : y.classAt 0 j n = some .refresh) (hread : pget y.heap.tempTide (j.val / 64) ≠ some y.time.tide) :
    Gives (.refreshStep j n x) s fun t =>
      t.pc j = (y.pc j).refreshed
      ∧ t.rd R.HC_TEMP (j.val / 64 * 32)
        = word (at_ 8 (b2n (decide (85 < x.toInt) || (decide (83 < x.toInt) && y.rdb R.HC_TEMP (j.val / 64 * 32) 8))) + x.toNat)
      ∧ (85 < x.toInt → bit (t.hdr (0x40 + j.val / 64) hEvt) 5 = true)
      ∧ (x.toInt ≤ 85 → t.hdr (0x40 + j.val / 64) hEvt = y.hdr (0x40 + j.val / 64) hEvt)
      ∧ pget t.heap.tempTide (j.val / 64) = some y.time.tide ∧ t.heap.mem = y.heap.mem
      ∧ Frame (regsIn [R.HC_TEMP.key (j.val / 64 * 32), regKey 0 (0x40 + j.val / 64) 0 hEvt]) [.heap] y t := by
  have hpage : 0x40 + j.val / 64 < 128 ∧ 0x40 + j.val / 64 ≠ 0x5D := by have := j.isLt; omega
  rw [← stack_of_pch] at hread hpage ⊢
  have hheap := readTemp_heap (x := x) hread
  have hpc : (y.readTemp (j.val / 2) x).pc j = y.pc j := by rw [State.pc, hheap, State.pc]
  refine Gives.done (exec_refresh hy hrefreshes hclass) ⟨?_, ?_, fun hhot => finish_events ?_, fun hcool => ?_, ?_, ?_, ?_⟩
  · rw [finish_pc, pc_setPc_self, hpc]
  · exact (finish_rd (by decide)).trans (readTemp_rd hread)
  · show bit ((y.readTemp (j.val / 2) x).hdr _ hEvt) 5 = true
    rw [readTemp_first hread, if_pos hhot]
    exact hdr_raise (by decide)
  · refine (finish_hdr hpage.1 (by decide) hpage.2).trans ?_
    show (y.readTemp (j.val / 2) x).hdr _ hEvt = _
    rw [readTemp_first hread, if_neg (Int.not_lt.mpr hcool), State.tempSet, hdr_wr (by decide) (by decide)]
    rfl
  · rw [finish_heap]
    show pget (y.readTemp (j.val / 2) x).heap.tempTide _ = _
    rw [hheap, pget_pset_self]
  · rw [finish_heap, mem_setPc, hheap]
  · exact ((readTemp_only hread).trans ((setPc_only _ _ _))).frameFrom s

end Refresh

-- Mitigation (R232).

theorem mitigate_gives {s y : State} {j : Fin 512} {n : Fin 4096} {m : Nat} (hy : y = s.atSlot n) (hserves : y.serves (j.val / 2) = true)
    (hclass : y.classAt 0 j n = some .mitigate)
    (hm : m = min 4 (y.pc j).mits.length + (if y.sched.stress then min (4 - min 4 (y.pc j).mits.length) (y.pc j).acts.length else 0)) :
    Gives (.mitigateSlot j n) s fun t => t.pc j = { y.pc j with mits := (y.pc j).mits.drop 4 }
      ∧ t.rd R.MIT_COUNT (j.val / 2) = satWord (y.rd R.MIT_COUNT (j.val / 2)) m ∧ t.heap.mem = y.heap.mem
      ∧ Frame (regsIn [R.MIT_COUNT.key (j.val / 2)]) [.heap] y t := by
  have hpc := setPc_only (K := regsIn [R.MIT_COUNT.key (j.val / 2)]) y j { y.pc j with mits := (y.pc j).mits.drop 4 }
  have hexec : exec (.mitigateSlot j n) s = done s (if m = 0 then y.setPc j { y.pc j with mits := (y.pc j).mits.drop 4 }
      else (y.setPc j { y.pc j with mits := (y.pc j).mits.drop 4 }).count R.MIT_COUNT (j.val / 2) m) := by
    subst hy hm
    exact congrArg (done s) (if_pos ⟨hserves, hclass⟩)
  refine Gives.done hexec ⟨?_, ?_, ?_, (Only.ite hpc (hpc.wr _ (by simp [regsIn]))).frameFrom s⟩
  · rw [finish_pc]
    split <;> exact pc_setPc_self ..
  · rw [finish_rd (by decide)]
    split
    · next h0 =>
      rw [h0, satWord_zero]
      rfl
    · exact rd_wr_self ..
  · rw [finish_heap]
    split <;> rfl

-- Re-centring (R227).

/-- A `TRIM` slot that adds taps to a re-centring, its sixteenth excepted. -/
theorem trim_adds {s y : State} {j : Fin 512} {n : Fin 4096} {ps : List (BitVec 8)} {x : Trim} (hy : y = s.atSlot n)
    (hserves : y.serves (j.val / 2) = true) (hclass : y.classAt 0 j n = some .trim)
    (hx : (y.pc j).trim = some x ∨ ((y.pc j).trim = none ∧ ((y.pc j).rcDue = true ∨ y.sched.stress = true)
      ∧ x = { step := 0, masks := [], act := y.loadMark j, temp := y.stackTemp (j.val / 2) }))
    (hstep : x.step < 15) : Gives (.trimSlot j n ps) s fun t =>
      t.pc j = { y.pc j with trim := some { x with step := x.step + 1, masks := addTaps x.step x.masks ps } }
      ∧ t.heap.mem = y.heap.mem ∧ Frame noRegs [.heap] y t := by
  have htrim : (y.pc j).trim.getD { step := 0, masks := [], act := y.loadMark j, temp := y.stackTemp (j.val / 2) } = x := by
    rcases hx with h | ⟨h, -, rfl⟩ <;> rw [h] <;> rfl
  have hgo : (y.pc j).rcDue = true ∨ (y.pc j).trim.isSome = true ∨ y.sched.stress = true := by
    rcases hx with h | ⟨-, h | h, -⟩
    · exact Or.inr (Or.inl (by rw [h]; rfl))
    · exact Or.inl h
    · exact Or.inr (Or.inr h)
  have hexec : exec (.trimSlot j n ps) s
      = done s (y.setPc j { y.pc j with trim := some { x with step := x.step + 1, masks := addTaps x.step x.masks ps } }) := by
    subst hy
    refine congrArg (done s) ((if_pos ⟨hserves, hclass, hgo⟩).trans ?_)
    dsimp only
    rw [htrim]
    exact if_pos (by omega)
  refine Gives.done hexec ⟨?_, ?_, (setPc_only ..).frameFrom s⟩
  · rw [finish_pc, pc_setPc_self]
  · rw [finish_heap]
    rfl

/-- The sixteenth `TRIM` slot of a re-centring ends it. -/
theorem exec_trim_ends {s y : State} {j : Fin 512} {n : Fin 4096} {ps : List (BitVec 8)} {x : Trim} (hy : y = s.atSlot n)
    (hserves : y.serves (j.val / 2) = true) (hclass : y.classAt 0 j n = some .trim) (hx : (y.pc j).trim = some x) (hstep : x.step = 15) :
    exec (.trimSlot j n ps) s = done s (if eyesOpen (addTaps 15 x.masks ps) = true
      then y.recentred j { x with step := 16, masks := addTaps 15 x.masks ps } else y.recentreFailed j) := by
  subst hy
  refine congrArg (done s) ((if_pos ⟨hserves, hclass, Or.inr (Or.inl (by rw [hx]; rfl))⟩).trans ?_)
  dsimp only
  rw [hx, Option.getD_some, hstep]
  exact if_neg (by decide)

/-- Registers of an array written one by one. -/
theorem Only.foldl_wr {K : Nat → Prop} {ps : List Part} {s t : State} {r : Reg} {u : Nat} {v : Nat → Word} {k : Nat → Nat}
    (xs : List Nat) (hK : ∀ l ∈ xs, K (r.key u (k l))) (h : Only K ps s t) :
    Only K ps s (xs.foldl (fun s l => s.wr r u (v l) (k l)) t) :=
  List.foldlRecOn (motive := fun t => Only K ps s t) xs _ h fun _ ht l hl => ht.wr _ (hK l hl)

theorem foldl_wr_heap {s : State} {r : Reg} {u : Nat} {v : Nat → Word} {k : Nat → Nat} (xs : List Nat) :
    (xs.foldl (fun s l => s.wr r u (v l) (k l)) s).heap = s.heap :=
  List.foldlRecOn (motive := fun t : State => t.heap = s.heap) xs _ rfl fun _ ht _ _ => ht

theorem recentred_gives {s y : State} {j : Fin 512} (x : Trim) : let t := s.finish (y.recentred j x)
    t.pc j = { y.pc j with trim := none, rcDue := false, actTag := x.act, tempTag := x.temp, recentres := satAdd 16 (y.pc j).recentres 1 }
      ∧ (t.ctl (j.val / 2)).rcFails = 0 ∧ bit (t.hdr (0x40 + j.val / 64) hEvt) 3 = true ∧ t.heap.mem = y.heap.mem
      ∧ Frame (regsIn (regKey 0 (0x40 + j.val / 64) 0 hEvt
        :: (List.range 4).map fun l => R.TRN_LANE.key (j.val / 2) (4 * (j.val % 2) + l))) [.heap] y t := by
  rw [← stack_of_pch]
  unfold State.recentred
  dsimp only
  have hlanes : Only (regsIn (regKey 0 (0x40 + j.val / 2 / 32) 0 hEvt
        :: (List.range 4).map fun l => R.TRN_LANE.key (j.val / 2) (4 * (j.val % 2) + l))) [.heap] y
      ((List.range 4).foldl (fun s l => s.wr R.TRN_LANE (j.val / 2)
        (laneWord (x.masks.getD (2 * l) 0) (x.masks.getD (2 * l + 1) 0)) (4 * (j.val % 2) + l)) y) :=
    Only.foldl_wr _ (fun l hl => List.mem_cons_of_mem _ (List.mem_map_of_mem hl)) (Only.refl _ _ y)
  have hheap := foldl_wr_heap (s := y) (r := R.TRN_LANE) (u := j.val / 2)
    (v := fun l => laneWord (x.masks.getD (2 * l) 0) (x.masks.getD (2 * l + 1) 0)) (k := fun l => 4 * (j.val % 2) + l) (List.range 4)
  generalize (List.range 4).foldl (fun s l => s.wr R.TRN_LANE (j.val / 2)
    (laneWord (x.masks.getD (2 * l) 0) (x.masks.getD (2 * l + 1) 0)) (4 * (j.val % 2) + l)) y = z at hlanes hheap
  have hpc : z.pc j = y.pc j := by rw [State.pc, hheap, State.pc]
  refine ⟨?_, ?_, finish_events (hdr_raise (by decide)), ?_, ?_⟩
  · rw [finish_pc, hpc, pc_raise, pc_setCtl, pc_setPc_self]
  · rw [finish_ctl, ctl_raise, ctl_setCtl_self]
  · rw [finish_heap, raise_heap, mem_setCtl, mem_setPc, hheap]
  · exact (((hlanes.set_heap _ (by decide)).set_heap _ (by decide)).raise (by simp [regsIn])).frameFrom s

/-- A failed re-centring before it may freeze the controller. -/
def State.recentreCounted (y : State) (j : Nat) : State :=
  let z := y.setPc j { y.pc j with trim := none, rcDue := true }
  let w := (z.setCtl (j / 2) { z.ctl (j / 2) with rcFails := min 3 ((z.ctl (j / 2)).rcFails + 1) }).raise (0x40 + j / 2 / 32) 4
  w.report (0x40 + j / 2 / 32) (j / 2 % 32) 0x0E (w.hcStat (j / 2)) 0

theorem recentreCounted_gives (y : State) (j : Nat) :
    (y.recentreCounted j).pc j = { y.pc j with trim := none, rcDue := true }
    ∧ (y.recentreCounted j).ctl (j / 2) = { y.ctl (j / 2) with rcFails := min 3 ((y.ctl (j / 2)).rcFails + 1) }
    ∧ bit ((y.recentreCounted j).hdr (0x40 + j / 2 / 32) hEvt) 4 = true := by
  unfold State.recentreCounted
  dsimp only
  refine ⟨?_, ?_, ((UnitWork.refl _).report ..).events _ _ (hdr_raise (by decide))⟩
  · rw [State.pc, report_heap]
    exact pc_setPc_self y j { y.pc j with trim := none, rcDue := true }
  · rw [State.ctl, report_heap]
    exact ctl_setCtl_self ..

theorem recentreFailed_gives {s y : State} {j : Fin 512} : let t := s.finish (y.recentreFailed j)
    (t.pc j).trim = none ∧ (t.pc j).rcDue = true ∧ bit (t.hdr (0x40 + j.val / 64) hEvt) 4 = true
      ∧ (t.ctl (j.val / 2)).rcFails = min 3 ((y.ctl (j.val / 2)).rcFails + 1)
      ∧ ((y.ctl (j.val / 2)).rcFails < 2 → t.ctl (j.val / 2) = { y.ctl (j.val / 2) with rcFails := (y.ctl (j.val / 2)).rcFails + 1 })
      ∧ (2 ≤ (y.ctl (j.val / 2)).rcFails → (t.ctl (j.val / 2)).state = .frozen ∧ fld (t.rd R.FRZ_INFO (j.val / 2)) 3 0 = 3) := by
  obtain ⟨hpc, hctl, hevent⟩ := recentreCounted_gives y j
  have hsplit : y.recentreFailed j = if 3 ≤ ((y.recentreCounted j).ctl (j.val / 2)).rcFails
      then (y.recentreCounted j).freeze (j.val / 2) (j.val % 2) 3 else y.recentreCounted j := rfl
  rw [← stack_of_pch, hsplit]
  generalize y.recentreCounted j = z at hpc hctl hevent
  have hfails : (z.ctl (j.val / 2)).rcFails = min 3 ((y.ctl (j.val / 2)).rcFails + 1) := congrArg Ctrl.rcFails hctl
  dsimp only
  by_cases h3 : 3 ≤ (z.ctl (j.val / 2)).rcFails
  · rw [if_pos h3, finish_pc, finish_ctl, freeze_pc, freeze_ctl, hpc, finish_rd (by decide), freeze_info]
    refine ⟨rfl, rfl, finish_events ?_, hfails, fun hfew => by omega, fun _ => ⟨rfl, fld_freezeWord _ _ (by decide)⟩⟩
    rw [freeze_hdr]
    exact stopCtl_events _ _ _ _ hevent
  · rw [if_neg h3, finish_pc, finish_ctl, hpc]
    refine ⟨rfl, rfl, finish_events hevent, hfails, fun hfew => ?_, fun hmany => by omega⟩
    rw [hctl, min_eq_right (by omega)]

-- Training (R223, R224, R239).

/-- A pseudo-channel's marks after a training. -/
def State.trainTagged (train : TrainKind) (x : BitVec 8) (s : State) (j : Nat) : State :=
  s.setPc j { s.pc j with tempTag := x, actTag := if train = .retrain then s.loadMark j else 0, trim := none }

section Tagged

variable (train : TrainKind) (x : BitVec 8) (s : State) (j : Nat)

theorem trainTagged_ctl (h : Nat) : (s.trainTagged train x j).ctl h = s.ctl h := rfl

theorem trainTagged_mem : (s.trainTagged train x j).heap.mem = s.heap.mem := rfl

theorem trainTagged_tag : ((s.trainTagged train x j).pc j).tempTag = x := by
  rw [State.trainTagged, pc_setPc_self]

theorem trainTagged_pc_ne {i : Nat} (h : i ≠ j) : (s.trainTagged train x j).pc i = s.pc i := by
  rw [State.trainTagged, pc_setPc, if_neg h]

end Tagged

theorem Only.trainTagged {K : Nat → Prop} {s t : State} {train : TrainKind} {x : BitVec 8} {j : Nat} (h : Only K [.heap] s t) :
    Only K [.heap] s (t.trainTagged train x j) := h.set_heap _ (by decide)

/-- A trained controller's lanes, its bytes zeroed by a full training. -/
def State.trainSet (s : State) (i : Nat) (masks : List Nat) : State :=
  (List.range 8).foldl (fun s k => s.wr R.TRN_LANE i (laneWord (masks.getD (2 * k) 0) (masks.getD (2 * k + 1) 0)) k)
    (if (s.ctl i).train = .full then s.zeroFill i else s)

theorem exec_trained {s : State} {i : Fin 256} {sw : List (BitVec 128)} {x : BitVec 8} {z : State}
    (hz : z = ((s.trainSet i ((List.range 16).map fun k => (sw.getD k 0).toNat)).trainTagged (s.ctl i).train x (2 * i.val)).trainTagged
      (s.ctl i).train x (2 * i.val + 1))
    (hstate : (s.ctl i).state = .starting) (hopen : eyesOpen ((List.range 16).map fun k => (sw.getD k 0).toNat) = true) :
    exec (.heapTrainDone i sw x) s = done s ((z.setCtl i { z.ctl i with state := .ready }).raise (0x40 + i.val / 32) 7) := by
  subst hz
  exact congrArg (done s) ((if_neg (not_not.mpr hstate)).trans (if_pos hopen))

theorem trainSet_heap (s : State) (i : Nat) (masks : List Nat) :
    (s.trainSet i masks).heap = (if (s.ctl i).train = .full then s.zeroFill i else s).heap := foldl_wr_heap _

theorem trainSet_only (s : State) (i : Nat) (masks : List Nat) :
    Only (regsIn ((List.range 8).map fun k => R.TRN_LANE.key i k)) [.heap] s (s.trainSet i masks) :=
  Only.foldl_wr (k := id) _ (fun _ hk => List.mem_map_of_mem hk) (Only.ite ((Only.refl _ _ s).set_heap _ (by decide)) (Only.refl _ _ s))

theorem trainSet_ctl (s : State) (i : Nat) (masks : List Nat) : (s.trainSet i masks).ctl i = s.ctl i := by
  rw [State.ctl, trainSet_heap]
  split <;> rfl

/-- A full training leaves zero in every transfer of its controller (R223). -/
theorem trainSet_byte (s : State) (i : Nat) (masks : List Nat) (a : Nat) : (s.trainSet i masks).heap.mem.byte a
    = if (s.ctl i).train = .full ∧ hCtl a = i then 0 else s.heap.mem.byte a := by
  rw [trainSet_heap]
  by_cases hfull : (s.ctl i).train = .full
  · rw [if_pos hfull]
    refine (Memory.byte_keep (fun a => hCtl a ≠ i) a s.heap.mem).trans ?_
    by_cases ha : hCtl a = i <;> simp [hfull, ha]
  · rw [if_neg hfull, if_neg (fun h => hfull h.1)]

theorem trained_gives {s : State} {i : Fin 256} {sw : List (BitVec 128)} {x : BitVec 8} (hstate : (s.ctl i).state = .starting)
    (hopen : eyesOpen ((List.range 16).map fun k => (sw.getD k 0).toNat) = true) : Gives (.heapTrainDone i sw x) s fun t =>
      t.ctl i = { s.ctl i with state := .ready } ∧ (t.pc (2 * i.val)).tempTag = x ∧ (t.pc (2 * i.val + 1)).tempTag = x
      ∧ (∀ y, t.heap.mem.byte y = if (s.ctl i).train = .full ∧ hCtl y = i.val then 0 else s.heap.mem.byte y)
      ∧ bit (t.hdr (0x40 + i.val / 32) hEvt) 7 = true
      ∧ Frame (regsIn (regKey 0 (0x40 + i.val / 32) 0 hEvt :: (List.range 8).map fun k => R.TRN_LANE.key i k)) [.heap] s t := by
  have hexec := exec_trained (x := x) rfl hstate hopen
  have honly := trainSet_only s i ((List.range 16).map fun k => (sw.getD k 0).toNat)
  have hctl := trainSet_ctl s i ((List.range 16).map fun k => (sw.getD k 0).toNat)
  have hbyte := trainSet_byte s i ((List.range 16).map fun k => (sw.getD k 0).toNat)
  generalize s.trainSet i ((List.range 16).map fun k => (sw.getD k 0).toNat) = z at hexec honly hctl hbyte
  refine Gives.done hexec ⟨?_, ?_, ?_, fun a => ?_, finish_events (hdr_raise (by decide)), ?_⟩
  · rw [finish_ctl, ctl_raise, ctl_setCtl_self, trainTagged_ctl, trainTagged_ctl, hctl]
  · rw [finish_pc, pc_raise, pc_setCtl, trainTagged_pc_ne _ _ _ _ (by omega), trainTagged_tag]
  · rw [finish_pc, pc_raise, pc_setCtl, trainTagged_tag]
  · rw [finish_heap, raise_heap, mem_setCtl, trainTagged_mem, trainTagged_mem]
    exact hbyte a
  · have hlanes := honly.mono (fun _ hk => List.mem_cons_of_mem (regKey 0 (0x40 + i.val / 32) 0 hEvt) hk) (fun _ hp => hp)
    exact (((hlanes.trainTagged.trainTagged).set_heap _ (by decide)).raise (List.mem_cons_self ..)).frameFrom s

theorem trainFailed_gives {s : State} {i : Fin 256} {sw : List (BitVec 128)} {x : BitVec 8} (hstate : (s.ctl i).state = .starting)
    (hclosed : eyesOpen ((List.range 16).map fun k => (sw.getD k 0).toNat) = false) : Gives (.heapTrainDone i sw x) s fun t =>
      t.ctl i = { s.ctl i with state := .fault } ∧ fld (t.rd R.FRZ_INFO i) 3 0 = 5
      ∧ bit (t.hdr (0x40 + i.val / 32) hEvt) 1 = true ∧ t.heap.mem = s.heap.mem
      ∧ Frame (regsIn (regKey 0 (0x40 + i.val / 32) 0 hEvt :: R.FRZ_INFO.key i :: reportKeys)) [.heap, .xbar, .bitt] s t := by
  have hexec : exec (.heapTrainDone i sw x) s = done s (s.freeze i 0 5) :=
    congrArg (done s) ((if_neg (not_not.mpr hstate)).trans (if_neg (ne_true_of_eq_false hclosed)))
  refine Gives.done hexec ⟨?_, ?_, finish_events ?_, ?_, ?_⟩
  · rw [finish_ctl, freeze_ctl]
    rfl
  · rw [finish_rd (by decide), freeze_info, fld_freezeWord _ _ (by decide)]
  · rw [freeze_hdr]
    exact stopCtl_event s i 0 5
  · rw [finish_heap]
    exact (dropUnserved_mem ..).trans (stopCtl_fault_mem ..)
  · exact ((stopCtl_fault_only s i 0).trans ((dropUnserved_only _ _).mono (fun _ hk => hk.elim) (by decide))).frameFrom s

/-- Settles O14: one lemma for what each slot and training does, and the slots that do nothing. -/
theorem heapUpkeep : Obligations.HeapUpkeep := by
  unfold Obligations.HeapUpkeep
  refine ⟨?refresh, ?first, ?refresh2, ?noRefresh, ?mitigate, ?noMitigate, ?trim, ?recentred, ?failed, ?noTrim, ?trained,
    ?trainFailed, ?noTraining⟩
  case refresh =>
    intro s j n x y hy hrefreshes hclass hread
    have hagain := readTemp_again (x := x) (h := j.val / 2) (by rwa [stack_of_pch])
    refine Gives.done (exec_refresh hy hrefreshes hclass) ?_
    rw [hagain, finish_pc, pc_setPc_self, finish_heap]
    exact ⟨rfl, rfl, (setPc_only ..).frameFrom s⟩
  case first => exact fun s j n x y hy hrefreshes hclass hread => refresh_first hy hrefreshes hclass hread
  case refresh2 =>
    intro s j n x y hy hrefreshes hclass
    refine Gives.done (exec_refresh2 hy hrefreshes hclass) ⟨?_, ?_, (Only.ite (setPc_only ..) (Only.refl _ _ y)).frameFrom s⟩
    · rw [finish_pc]
      split
      · exact pc_setPc_self ..
      · rfl
    · rw [finish_heap]
      split <;> rfl
  case noRefresh =>
    rintro s j n x y rfl hno
    refine Gives.done (s1 := s.atSlot n) (congrArg (done s) ?_) ((Only.refl _ _ _).frameFrom s)
    split
    · rfl
    · next hon =>
      obtain ⟨h1, h2⟩ := hno.resolve_left (by simpa using hon)
      split
      · next hclass => exact absurd hclass h1
      · next hclass => exact absurd hclass h2
      · rfl
  case mitigate => exact fun s j n y m hy hserves hclass hm => mitigate_gives hy hserves hclass hm
  case noMitigate =>
    rintro s j n y rfl hno
    refine Gives.done (s1 := s.atSlot n) (congrArg (done s) (if_neg fun h => ?_)) ((Only.refl _ _ _).frameFrom s)
    rcases hno with hserves | hclass
    · exact absurd h.1 (ne_true_of_eq_false hserves)
    · exact hclass h.2
  case trim => exact fun s j n ps x y hy hserves hclass hx hstep => trim_adds hy hserves hclass hx hstep
  case recentred =>
    intro s j n ps x y hy hserves hclass hx hstep hopen
    exact Gives.done ((exec_trim_ends hy hserves hclass hx hstep).trans (congrArg (done s) (if_pos hopen))) (recentred_gives _)
  case failed =>
    intro s j n ps x y hy hserves hclass hx hstep hclosed
    exact Gives.done ((exec_trim_ends hy hserves hclass hx hstep).trans (congrArg (done s) (if_neg (ne_true_of_eq_false hclosed))))
      recentreFailed_gives
  case noTrim =>
    rintro s j n ps y rfl hno
    refine Gives.done (s1 := s.atSlot n) (congrArg (done s) (if_neg fun h => ?_)) ((Only.refl _ _ _).frameFrom s)
    obtain ⟨hserves, hclass, hgo⟩ := h
    rcases hno with hoff | hother | ⟨hdue, htrim, hcalm⟩
    · exact absurd hserves (ne_true_of_eq_false hoff)
    · exact hother hclass
    · rw [hdue, htrim, hcalm] at hgo
      exact absurd hgo (by decide)
  case trained => exact fun s i sw x hstate hopen => trained_gives hstate hopen
  case trainFailed => exact fun s i sw x hstate hclosed => trainFailed_gives hstate hclosed
  case noTraining =>
    intro s i sw x hstate
    exact Gives.done (congrArg (done s) (if_pos hstate)) (Only.refl _ _ s).frame

end Sys2Proof.Machine

/-! PROOFS. A field of a counter, a request entered at the crossbar and a port written (R78, R357, R360): the rules that the ports'
transmit side rests on. -/

namespace Sys2Proof.Machine

-- A field of a word replaced.

/-- The bits of a number between `B` and `B * N`, replaced. -/
theorem replace_field (B N q f r g : Nat) : B * (N * q + f) + r - f * B + g * B = r + B * (N * q + g) := by
  have hsum : B * (N * q + f) + r = f * B + (r + B * (N * q)) := by ring
  rw [hsum, Nat.add_sub_cancel_left]
  ring

theorem fld_setFld {w : Word} {hi lo v : Nat} (hlo : lo ≤ hi) (hhi : hi < 64) :
    fld (setFld w hi lo v) hi lo = v % 2 ^ (hi + 1 - lo) := by
  have hpow : 2 ^ 64 = 2 ^ lo * 2 ^ (64 - lo) := by rw [← pow_add]; congr 1; omega
  have hdvd : 2 ^ (hi + 1 - lo) ∣ 2 ^ (64 - lo) := Nat.pow_dvd_pow 2 (by omega)
  have hparts : w.toNat = 2 ^ lo * (2 ^ (hi + 1 - lo) * (w.toNat / 2 ^ lo / 2 ^ (hi + 1 - lo)) + fld w hi lo) + w.toNat % 2 ^ lo := by
    rw [fld, Nat.div_add_mod, Nat.div_add_mod]
  have hset : w.toNat - fld w hi lo * 2 ^ lo + v % 2 ^ (hi + 1 - lo) * 2 ^ lo
      = w.toNat % 2 ^ lo + 2 ^ lo * (2 ^ (hi + 1 - lo) * (w.toNat / 2 ^ lo / 2 ^ (hi + 1 - lo)) + v % 2 ^ (hi + 1 - lo)) := by
    rw [← replace_field _ _ _ (fld w hi lo), ← hparts]
  have hlow : w.toNat % 2 ^ lo / 2 ^ lo = 0 := Nat.div_eq_of_lt (Nat.mod_lt _ (Nat.two_pow_pos lo))
  rw [fld, setFld, BitVec.toNat_ofNat, hset, hpow, Nat.mod_mul_right_div_self, Nat.mod_mod_of_dvd _ hdvd,
    Nat.add_mul_div_left _ _ (Nat.two_pow_pos lo), hlow, Nat.zero_add, Nat.mul_add_mod_self_left, Nat.mod_mod]

/-- A field of a counter that counted one more, saturating (R78). -/
theorem rdf_countf {s : State} {r : Reg} {u hi lo : Nat} (hlo : lo ≤ hi) (hhi : hi < 64) (h16 : hi + 1 - lo = 16) :
    (s.countf r u hi lo).rdf r u hi lo = min (s.rdf r u hi lo + 1) 65535 := by
  rw [State.countf, State.rdf, rd_wr_self, satFld, fld_setFld hlo hhi, h16, satAdd, State.rdf]
  exact Nat.mod_eq_of_lt (by omega)

-- A request entered (R357, R360).

/-- A register at another offset than those of a decode error's. -/
theorem key_notMem_decodeKeys {r : Reg} {u k : Nat} (hr : r.InPage k)
    (h : r.off + k * r.stride ∉ [R.XB_DECODE.off, R.FW_LAST.off]) : r.key u k ∉ decodeKeys := by
  simp only [List.mem_cons, List.not_mem_nil, or_false, not_or] at h
  simp only [decodeKeys, List.mem_cons, List.not_mem_nil, or_false, not_or]
  exact ⟨Reg.key_ne_key hr (by decide) (by simpa using h.1), Reg.key_ne_key hr (by decide) (by simpa using h.2),
    Reg.key_ne_hdr hr (by decide)⟩

theorem decodeError_xbar (s : State) (m : Nat) (write secure : Bool) (a : Nat) : (s.decodeError m write secure a).xbar = s.xbar := by
  rw [State.decodeError, raise_xbar, wr_xbar, State.count, wr_xbar]

theorem respond_next (s : State) (id : Nat) (err poison : Bool) (data : List Byte) :
    (s.respond id err poison data).xbar.next = s.xbar.next := by
  unfold State.respond
  split
  · split <;> rfl
  · rfl

theorem noTarget_txn {s : State} {id : Nat} {x : Txn} (hx : pget s.xbar.txns id = some x) :
    ∃ resp t, pget (s.noTarget id).xbar.txns id = some { x with resp := resp, respAt := t } := by
  rw [State.noTarget, hx]
  dsimp only
  split
  · next h =>
    have hdec : pget (s.decodeError x.master x.write x.secure x.addr).xbar.txns id = some x := by
      rw [decodeError_xbar, hx]
    exact ⟨_, _, respond_txn true false [] hdec (Option.isNone_iff_eq_none.mp h.2)⟩
  · exact ⟨x.resp, x.respAt, hx⟩

section Enter

variable (s : State) (m : Nat) (secure write : Bool) (a len : Nat) (data : List Byte) (qos : Option Nat) (o : Origin)

theorem enter_only : Only (regsIn decodeKeys) [.xbar] s (s.enter m secure write a len data qos o) :=
  Only.enter _ _ _ _ _ _ _ _ (fun _ hk => hk) (by decide) (Only.refl _ _ s)

theorem enter_net : (s.enter m secure write a len data qos o).net = s.net :=
  (enter_only s m secure write a len data qos o).same (p := .net) (by decide)

theorem enter_rd {r : Reg} {u k : Nat} (hr : r.InPage k) (h : r.off + k * r.stride ∉ [R.XB_DECODE.off, R.FW_LAST.off]) :
    (s.enter m secure write a len data qos o).rd r u k = s.rd r u k :=
  (enter_only s m secure write a len data qos o).getReg (key_notMem_decodeKeys hr h)

theorem noTarget_next (id : Nat) : (s.noTarget id).xbar.next = s.xbar.next := by
  unfold State.noTarget
  split
  · split
    · rw [respond_next, decodeError_xbar]
    · rfl
  · rfl

theorem enter_next : (s.enter m secure write a len data qos o).xbar.next = s.xbar.next + 1 := noTarget_next ..

/-- The transaction of a request, as it stands whether or not a target holds its range. -/
theorem enter_txn : ∃ y, pget (s.enter m secure write a len data qos o).xbar.txns s.xbar.next = some y
    ∧ y.write = write ∧ y.len = len ∧ y.data = data ∧ y.origin = o := by
  obtain ⟨x, hx, hshape⟩ : ∃ x, pget (s.request m secure write a len data qos o).2.xbar.txns s.xbar.next = some x
      ∧ x.write = write ∧ x.len = len ∧ x.data = data ∧ x.origin = o := by
    unfold State.request
    dsimp only
    exact ⟨_, pget_pset_self .., rfl, rfl, rfl, rfl⟩
  obtain ⟨resp, t, hy⟩ := noTarget_txn hx
  exact ⟨_, hy, hshape⟩

end Enter

-- A port written.

@[simp] theorem port_setPort_self (s : State) (e : Nat) (p : Port) : (s.setPort e p).port e = p := mget_mset_self ..

@[simp] theorem setPort_setPort (s : State) (e : Nat) (p q : Port) : (s.setPort e p).setPort e q = s.setPort e q := by
  simp [State.setPort]

theorem port_congr {s t : State} (h : t.net = s.net) (e : Nat) : t.port e = s.port e := by rw [State.port, h, State.port]

@[simp] theorem finish_port (s0 s1 : State) (e : Nat) : (s0.finish s1).port e = s1.port e := port_congr (finish_net _ _) e

@[simp] theorem enter_port (s : State) (m : Nat) (secure write : Bool) (a len : Nat) (data : List Byte) (qos : Option Nat) (o : Origin)
    (e : Nat) : (s.enter m secure write a len data qos o).port e = s.port e := port_congr (enter_net ..) e

theorem setPort_only {K : Nat → Prop} (s : State) (e : Nat) (p : Port) : Only K [.net] s (s.setPort e p) :=
  (Only.refl _ _ s).set_net _ (by decide)

end Sys2Proof.Machine

/-! PROOFS. A port's transmit reader carried one step on (R339, R340, R347), and ready fragments given their place (R334, R343, R345);
with these, O31. -/

namespace Sys2Proof.Machine

-- The steps of the transmit reader (R339, R340).

section Idle

variable {s : State} {e : Nat} (htx : (s.port e).tx = none)
include htx

theorem txStep_idle (hring : s.txRing e = none) : s.txStep e = s := by
  simp only [State.txStep, htx, hring]

theorem txStep_asks {r : Nat} (hring : s.txRing e = some r) : s.txStep e
    = ((s.setRing r { s.ring r with fetched := ((s.ring r).fetched + 1) % 2 ^ 32 }).setPort e
        { s.port e with tx := some { ring := r, idx := (s.ring r).fetched, left := 1 } }).enter 8 false false
        ((s.ring r).slot (s.ring r).fetched) 64 [] none (.txEntry e) := by
  simp only [State.txStep, htx, hring]
  rfl

end Idle

theorem txStep_unread {s : State} {e : Nat} {x : TxJob} (htx : (s.port e).tx = some x) (hentry : x.entry = none) : s.txStep e = s := by
  simp only [State.txStep, htx, hentry]

theorem TxJob.not_lost {x : TxJob} (hgo : x.bad = false ∨ x.left ≠ 0) : ¬(x.bad = true ∧ x.left = 0) :=
  fun h => hgo.elim (fun hb => Bool.false_ne_true (hb.symm.trans h.1)) (fun hl => hl h.2)

theorem someRunFits_of_run {s : State} {e c n0 : Nat} (hn0 : n0 < 4096) (hheld : fitsRun 0 c (s.runAfter e .open_ 4096 n0) = true) :
    ¬((!s.someRunFits e .open_ c) = true) := by
  have hfits : s.someRunFits e .open_ c = true := List.any_eq_true.mpr ⟨n0, List.mem_range.mpr hn0, hheld⟩
  simp [hfits]

section Job

variable {s : State} {e : Nat} {x : TxJob} {ws : List Word} (htx : (s.port e).tx = some x) (hentry : x.entry = some ws)
include htx hentry

/-- An entry whose frame could not be read (R340). -/
theorem txStep_lost (hbad : x.bad = true) (hleft : x.left = 0) : s.txStep e = s.txComplete e x 2 none := by
  simp only [State.txStep, htx, hentry]
  exact if_pos ⟨hbad, hleft⟩

section Ready

variable (hgo : x.bad = false ∨ x.left ≠ 0) (hready : x.ready = true) {c : Nat} (hc : c = max 60 (fld (ws.getD 0 0) 63 48) + 4)
include hgo hready hc

theorem txStep_ready : s.txStep e = if !s.someRunFits e .open_ c then s.txComplete e x 3 none
    else match s.ethRun e .open_ with
      | none => s
      | some (first, n) =>
        if !fitsRun (s.runOffset e first) c n ∨ s.rdb R.ETH_STAT e 11 = true ∨ s.time.total < (s.port e).wakeAt then s
        else
          let (q, t) := s.txStamp e first (s.runOffset e first)
          ((t.ethTake e first (s.runOffset e first) c).ethSend e
            (withFcs (if bit (ws.getD 0 0) 46 then oneStep (ws.getD 0 0) x.frame q else x.frame))).txComplete e x 0
            (if bit (ws.getD 0 0) 47 then some q else none) := by
  subst hc
  simp only [State.txStep, htx, hentry]
  rw [if_neg (TxJob.not_lost hgo), if_pos hready] <;> rfl

theorem txStep_unheld (hrun : s.someRunFits e .open_ c = false) : s.txStep e = s.txComplete e x 3 none := by
  rw [txStep_ready htx hentry hgo hready hc, if_pos (by rw [hrun]; rfl)]

variable {n0 : Nat} (hn0 : n0 < 4096) (hheld : fitsRun 0 c (s.runAfter e .open_ 4096 n0) = true)
include hn0 hheld

/-- A ready frame waits for its run, for room in it and for the transmitter to wake (R133, R348). -/
theorem txStep_waits (hno : s.ethRun e .open_ = none ∨ ∃ z n, s.ethRun e .open_ = some (z, n)
    ∧ (fitsRun (s.runOffset e z) c n = false ∨ s.rdb R.ETH_STAT e 11 = true ∨ s.time.total < (s.port e).wakeAt)) :
    s.txStep e = s := by
  rw [txStep_ready htx hentry hgo hready hc, if_neg (someRunFits_of_run hn0 hheld)]
  rcases hno with hrun | ⟨z, n, hrun, hwait⟩
  · rw [hrun]
  · rw [hrun]
    exact if_pos (hwait.imp_left fun h => by rw [h]; rfl)

theorem txStep_sends {z n o : Nat} (hrun : s.ethRun e .open_ = some (z, n)) (ho : o = s.runOffset e z) (hfits : fitsRun o c n = true)
    (hlpi : s.rdb R.ETH_STAT e 11 = false) (hwake : (s.port e).wakeAt ≤ s.time.total) {q : Int} (hq : q = (s.txStamp e z o).1) :
    s.txStep e = ((({ s with free := s.free + 1 }).ethTake e z o c).ethSend e
      (withFcs (if bit (ws.getD 0 0) 46 then oneStep (ws.getD 0 0) x.frame q else x.frame))).txComplete e x 0
      (if bit (ws.getD 0 0) 47 then some q else none) := by
  subst ho hq
  rw [txStep_ready htx hentry hgo hready hc, if_neg (someRunFits_of_run hn0 hheld), hrun]
  exact if_neg (by simp [hfits, hlpi, hwake])

end Ready

section Unready

variable (hready : x.ready = false)
include hready

theorem txStep_unready (hgo : x.bad = false ∨ x.left ≠ 0) : s.txStep e = if x.left ≠ 0 then s
    else if txEntryBad (s.ethMax e) ws then s.txComplete e x 1 none
    else s.txFetch e x (fld (ws.getD 1 0) 47 0) (fld (ws.getD 0 0) 63 48) := by
  simp only [State.txStep, htx, hentry]
  rw [if_neg (TxJob.not_lost hgo), if_neg (ne_true_of_eq_false hready)]

theorem txStep_reading (hgo : x.bad = false ∨ x.left ≠ 0) (hleft : x.left ≠ 0) : s.txStep e = s := by
  rw [txStep_unready htx hentry hready hgo, if_pos hleft]

theorem txStep_wrong (hgood : x.bad = false) (hleft : x.left = 0) (hwrong : txEntryBad (s.ethMax e) ws = true) :
    s.txStep e = s.txComplete e x 1 none := by
  rw [txStep_unready htx hentry hready (Or.inl hgood), if_neg (not_not.mpr hleft), if_pos hwrong]

theorem txStep_fetches (hgood : x.bad = false) (hleft : x.left = 0) (hsound : txEntryBad (s.ethMax e) ws = false) :
    s.txStep e = s.txFetch e x (fld (ws.getD 1 0) 47 0) (fld (ws.getD 0 0) 63 48) := by
  rw [txStep_unready htx hentry hready (Or.inl hgood), if_neg (not_not.mpr hleft), if_neg (ne_true_of_eq_false hsound)]

end Unready

end Job

/-- The reader of an ACTIVE port carries one step on. -/
theorem exec_txStep {s : State} {e : Fin 32} {z : State} (hact : s.ethState e = 3) (hz : s.txStep e = z) :
    exec (.ethRingFrameTx e) s = done s z := congrArg (done s) ((if_pos hact).trans hz)

theorem txStays_gives {s : State} {e : Fin 32} (hact : s.ethState e = 3) (hz : s.txStep e = s) :
    Gives (.ethRingFrameTx e) s fun t => Frame noRegs [] s t := Gives.done (exec_txStep hact hz) (Only.refl _ _ s).frame

-- The next entry asked for, and its frame (R339).

theorem txAsks_gives {s : State} {e : Fin 32} {r : Nat} (hact : s.ethState e = 3) (htx : (s.port e).tx = none)
    (hring : s.txRing e = some r) : Gives (.ethRingFrameTx e) s fun t =>
      t.ring r = { s.ring r with fetched := ((s.ring r).fetched + 1) % 2 ^ 32 }
      ∧ (t.port e).tx = some { ring := r, idx := (s.ring r).fetched, left := 1 } ∧ t.xbar.next = s.xbar.next + 1
      ∧ (pget t.xbar.txns s.xbar.next).map (fun y => (y.write, y.len, y.origin)) = some (false, 64, .txEntry e)
      ∧ Frame (regsIn decodeKeys) [.net, .xbar] s t := by
  refine Gives.done (exec_txStep hact (txStep_asks htx hring)) ⟨?_, ?_, ?_, ?_, ?_⟩
  · rw [ring_congr (finish_net ..), ring_congr (enter_net ..)]
    exact ring_setRing_self ..
  · rw [finish_port, enter_port, port_setPort_self]
  · rw [finish_xbar, enter_next]
    rfl
  · obtain ⟨y, hy, hwrite, hlen, -, horigin⟩ := enter_txn ((s.setRing r { s.ring r with
      fetched := ((s.ring r).fetched + 1) % 2 ^ 32 }).setPort e
      { s.port e with tx := some { ring := r, idx := (s.ring r).fetched, left := 1 } })
      8 false false ((s.ring r).slot (s.ring r).fetched) 64 [] none (.txEntry e)
    rw [finish_xbar]
    refine (congrArg (Option.map _) hy).trans ?_
    rw [Option.map_some, hwrite, hlen, horigin]
  · exact (Only.enter _ _ _ _ _ _ _ _ (fun _ hk => hk) (by decide)
      (((Only.refl _ _ s).set_net _ (by decide)).set_net _ (by decide))).frame

/-- A frame's reads, all entered. -/
theorem foldl_enter (f : Nat × Nat → Nat) (e : Nat) : ∀ (bs : List (Nat × Nat)) (s : State),
    (bs.foldl (fun v b => v.enter 8 false false (f b) b.2 [] none (.txRead e b.1)) s).xbar.next = s.xbar.next + bs.length
    ∧ (bs.foldl (fun v b => v.enter 8 false false (f b) b.2 [] none (.txRead e b.1)) s).net = s.net
  | [], _ => ⟨rfl, rfl⟩
  | b :: bs, s => by
    obtain ⟨hnext, hnet⟩ := foldl_enter f e bs (s.enter 8 false false (f b) b.2 [] none (.txRead e b.1))
    rw [List.foldl_cons, hnext, hnet, enter_next, enter_net, List.length_cons]
    exact ⟨by omega, rfl⟩

section Fetch

variable {s : State} {e : Nat} {x : TxJob} {a len : Nat}

theorem txFetch_reads (h : s.fetchWaits e = false) : s.txFetch e x a len
    = (bursts a len (len + 1) 0).foldl (fun v b => v.enter 8 false false (a + b.1) b.2 [] none (.txRead e b.1))
      (s.setPort e { s.port e with
        tx := some { x with frame := List.replicate len 0, left := (bursts a len (len + 1) 0).length }, fetchAt := none }) :=
  if_neg (ne_true_of_eq_false h)

theorem txFetch_delays (h : s.fetchWaits e = true) (hat : (s.port e).fetchAt = none) : s.txFetch e x a len
    = s.setPort e { s.port e with fetchAt := some (s.time.total + 2 * fld (s.hdr (ethPage e) hPerturb) 9 0) } :=
  (if_pos h).trans (if_neg (by rw [hat]; decide))

theorem txFetch_waits {n : Nat} (h : s.fetchWaits e = true) (hat : (s.port e).fetchAt = some n) : s.txFetch e x a len = s :=
  (if_pos h).trans (if_pos (by rw [hat]; rfl))

end Fetch

-- Entries completed (R340).

/-- Words 5 to 7 of a completed entry, in bytes. -/
def entryWords (ns sec w : Word) : List Byte := ([ns, sec, w].map fun w => leBytes 8 w.toNat).flatten

/-- Those of an entry without a time stamp. -/
theorem entryWords_unstamped (w : Word) : entryWords 0 0 w = List.replicate 16 0 ++ leBytes 8 w.toNat := by
  have hzero : leBytes 8 0 = List.replicate 8 0 := by decide
  show leBytes 8 0 ++ (leBytes 8 0 ++ (leBytes 8 w.toNat ++ [])) = _
  rw [hzero, List.append_nil]
  rfl

/-- A state with an entry's completion written. -/
def State.txWritten (s : State) (e : Nat) (x : TxJob) (data : List Byte) : State :=
  let t := s.setPort e { s.port e with tx := none, last := x.ring, lastReady := s.time.total }
  t.enter 8 false true ((t.ring x.ring).slot x.idx + 40) 24 data none (.txDone e x.ring x.idx)

/-- The words of a time stamp, seconds first; those of none are 0. -/
abbrev stampOf (stamp : Option Int) : Word × Word := (stamp.map stampWords).getD (0, 0)

section Complete

variable (s : State) (e : Nat) (x : TxJob)

theorem txComplete_wrong : s.txComplete e x 1 none
    = (s.countf R.TX_ERR e 47 32).txWritten e x (entryWords 0 0 (word (at_ 63 1 + at_ 56 1))) := by
  simp only [State.txComplete, Option.map_none, Option.getD_none, State.txWritten, entryWords]

theorem txComplete_lost : s.txComplete e x 2 none
    = (s.countf R.TX_ERR e 47 32).txWritten e x (entryWords 0 0 (word (at_ 63 1 + at_ 56 2))) := by
  simp only [State.txComplete, Option.map_none, Option.getD_none, State.txWritten, entryWords]

theorem txComplete_unheld : s.txComplete e x 3 none
    = (s.countf R.TX_ERR e 63 48).txWritten e x (entryWords 0 0 (word (at_ 63 1 + at_ 56 3))) := by
  simp only [State.txComplete, Option.map_none, Option.getD_none, State.txWritten, entryWords]

/-- A sent entry is completed with its time stamp, if it asks for one. -/
theorem txComplete_sent (stamp : Option Int) : s.txComplete e x 0 stamp
    = s.txWritten e x (entryWords (stampOf stamp).2 (stampOf stamp).1 (word (at_ 63 1))) := by
  have hword : word (at_ 63 1 + at_ 56 0) = word (at_ 63 1) := rfl
  simp only [State.txComplete, State.txWritten, entryWords, stampOf, hword]

end Complete

theorem txWritten_port (s : State) (e : Nat) (x : TxJob) (data : List Byte) :
    (s.txWritten e x data).port e = { s.port e with tx := none, last := x.ring, lastReady := s.time.total } := by
  rw [State.txWritten, enter_port, port_setPort_self]

theorem txWritten_next (s : State) (e : Nat) (x : TxJob) (data : List Byte) : (s.txWritten e x data).xbar.next = s.xbar.next + 1 :=
  enter_next ..

theorem txWritten_txn (s : State) (e : Nat) (x : TxJob) (data : List Byte) :
    (pget (s.txWritten e x data).xbar.txns s.xbar.next).map (fun y => (y.write, y.len, y.data, y.origin))
      = some (true, 24, data, .txDone e x.ring x.idx) := by
  obtain ⟨y, hy, hwrite, hlen, hdata, horigin⟩ := enter_txn (s.setPort e { s.port e with
    tx := none, last := x.ring, lastReady := s.time.total }) 8 false true _ 24 data none (.txDone e x.ring x.idx)
  refine (congrArg (Option.map _) hy).trans ?_
  rw [Option.map_some, hwrite, hlen, hdata, horigin]

theorem Only.txWritten {K : Nat → Prop} {ps : List Part} {s t : State} (e : Nat) (x : TxJob) (data : List Byte)
    (hK : ∀ k ∈ decodeKeys, K k) (hnet : Part.net ∈ ps) (hx : Part.xbar ∈ ps) (h : Only K ps s t) :
    Only K ps s (t.txWritten e x data) := Only.enter _ _ _ _ _ _ _ _ hK hx (h.set_net _ hnet)

theorem txWritten_rd (s : State) (e : Nat) (x : TxJob) (data : List Byte) {r : Reg} {u k : Nat} (hr : r.InPage k)
    (h : r.off + k * r.stride ∉ [R.XB_DECODE.off, R.FW_LAST.off]) : (s.txWritten e x data).rd r u k = s.rd r u k :=
  enter_rd _ _ _ _ _ _ _ _ _ hr h

/-- An entry completed without being sent: counted in a field of `TX_ERR`, with no time stamp. -/
theorem txFails_gives {s : State} {e : Fin 32} {x : TxJob} {status hi lo : Nat} (hact : s.ethState e = 3)
    (hstep : s.txStep e = (s.countf R.TX_ERR e hi lo).txWritten e x (entryWords 0 0 (word (at_ 63 1 + at_ 56 status))))
    (hlo : lo ≤ hi) (hhi : hi < 64) (h16 : hi + 1 - lo = 16) : Gives (.ethRingFrameTx e) s fun t =>
      t.rdf R.TX_ERR e hi lo = min (s.rdf R.TX_ERR e hi lo + 1) 65535 ∧ (t.port e).tx = none ∧ (t.port e).last = x.ring
      ∧ (t.port e).lastReady = s.time.total ∧ t.xbar.next = s.xbar.next + 1
      ∧ (pget t.xbar.txns s.xbar.next).map (fun y => (y.write, y.len, y.data, y.origin))
        = some (true, 24, List.replicate 16 0 ++ leBytes 8 (word (at_ 63 1 + at_ 56 status)).toNat, .txDone e x.ring x.idx)
      ∧ Frame (regsIn (R.TX_ERR.key e :: decodeKeys)) [.net, .xbar] s t := by
  refine Gives.done (exec_txStep hact hstep) ⟨?_, ?_, ?_, ?_, ?_, ?_, ?_⟩
  · rw [finish_rdf (by decide), State.rdf, txWritten_rd _ _ _ _ (by decide) (by decide)]
    exact rdf_countf hlo hhi h16
  · rw [finish_port, txWritten_port]
  · rw [finish_port, txWritten_port]
  · rw [finish_port, txWritten_port]
    rfl
  · rw [finish_xbar, txWritten_next]
    rfl
  · rw [finish_xbar, ← entryWords_unstamped]
    exact txWritten_txn ..
  · exact (Only.txWritten _ _ _ (fun _ hk => List.mem_cons_of_mem _ hk) (by decide) (by decide)
      (Only.wr _ (List.mem_cons_self ..) (Only.refl _ _ s))).frame

-- A frame sent in its run (R133, R340, R347).

theorem length_leBytes : ∀ n v : Nat, (leBytes n v).length = n
  | 0, _ => rfl
  | n + 1, v => congrArg (· + 1) (length_leBytes n (v / 256))

/-- The time stamp and the status of a completed entry. -/
theorem entryWords_parts (ns sec w : Word) : (entryWords ns sec w).drop 16 = leBytes 8 w.toNat
    ∧ (entryWords ns sec w).take 16 = leBytes 8 ns.toNat ++ leBytes 8 sec.toNat := by
  have hflat : entryWords ns sec w = (leBytes 8 ns.toNat ++ leBytes 8 sec.toNat) ++ leBytes 8 w.toNat := by simp [entryWords]
  have hlen : (leBytes 8 ns.toNat ++ leBytes 8 sec.toNat).length = 16 := by rw [List.length_append, length_leBytes, length_leBytes]
  rw [hflat]
  exact ⟨List.drop_left' hlen, List.take_left' hlen⟩

/-- A state with a frame on the line, in its place of the run. -/
def State.txOnLine (s : State) (e z o c : Nat) (fr : List Byte) : State :=
  (({ s with free := s.free + 1 } : State).ethTake e z o c).ethSend e fr

section OnLine

variable (s : State) (e z o c : Nat) (fr : List Byte)

theorem txOnLine_port : (s.txOnLine e z o c fr).port e = { s.port e with run := some (z, o + 3 * (c + 20)) } := port_setPort_self ..

theorem txOnLine_sent : .frame e fr ∈ (s.txOnLine e z o c fr).sent := List.mem_cons_self ..

theorem txOnLine_frames : (s.txOnLine e z o c fr).rd R.TX_FRAMES e = satWord (s.rd R.TX_FRAMES e) 1 :=
  (rd_wr_ne (by decide) (by decide) (by decide)).trans (rd_wr_self ..)

theorem txOnLine_bytes : (s.txOnLine e z o c fr).rd R.TX_BYTES e = satWord (s.rd R.TX_BYTES e) fr.length := by
  refine (rd_wr_self ..).trans (congrArg (satWord · fr.length) ?_)
  exact rd_wr_ne (by decide) (by decide) (by decide)

theorem txOnLine_only {K : Nat → Prop} (hf : K (R.TX_FRAMES.key e)) (hb : K (R.TX_BYTES.key e)) :
    Only K [.net, .xbar, .free] s (s.txOnLine e z o c fr) :=
  (Only.wr _ hb (Only.wr _ hf (((Only.refl _ _ s).set_free _ (by decide)).set_net _ (by decide)))).emit _

end OnLine

/-- The ready frame of a job, sent. -/
theorem txSends_gives {s : State} {e : Fin 32} {x : TxJob} {z o c : Nat} {fr : List Byte} {stamp : Option Int} (hact : s.ethState e = 3)
    (hstep : s.txStep e = (s.txOnLine e z o c fr).txComplete e x 0 stamp) : Gives (.ethRingFrameTx e) s fun t =>
      .frame e fr ∈ t.sent ∧ t.rd R.TX_FRAMES e = satWord (s.rd R.TX_FRAMES e) 1
      ∧ t.rd R.TX_BYTES e = satWord (s.rd R.TX_BYTES e) fr.length ∧ (t.port e).tx = none ∧ (t.port e).last = x.ring
      ∧ (t.port e).run = some (z, o + 3 * (c + 20)) ∧ t.free = s.free + 1
      ∧ (pget t.xbar.txns s.xbar.next).map (fun y => (y.write, y.len, y.data.drop 16, y.origin))
        = some (true, 24, leBytes 8 (word (at_ 63 1)).toNat, .txDone e x.ring x.idx)
      ∧ (∀ q, stamp = some q → (pget t.xbar.txns s.xbar.next).map (fun y => y.data.take 16)
        = some (leBytes 8 (stampWords q).2.toNat ++ leBytes 8 (stampWords q).1.toNat))
      ∧ Frame (regsIn (R.TX_FRAMES.key e :: R.TX_BYTES.key e :: decodeKeys)) [.net, .xbar, .free] s t := by
  have hwritten := hstep.trans (txComplete_sent ..)
  have hport := txOnLine_port s e z o c fr
  have honly := txOnLine_only (K := regsIn (R.TX_FRAMES.key e :: R.TX_BYTES.key e :: decodeKeys)) s e z o c fr (by simp [regsIn])
    (by simp [regsIn])
  have hframes := txOnLine_frames s e z o c fr
  have hbytes := txOnLine_bytes s e z o c fr
  have hsent := txOnLine_sent s e z o c fr
  have hfree : (s.txOnLine e z o c fr).free = s.free + 1 := rfl
  have hnext : (s.txOnLine e z o c fr).xbar.next = s.xbar.next := rfl
  generalize s.txOnLine e z o c fr = v at hwritten hport honly hframes hbytes hsent hfree hnext
  have hkeep := Only.txWritten (K := regsIn decodeKeys) (ps := [.net, .xbar]) e x
    (entryWords (stampOf stamp).2 (stampOf stamp).1 (word (at_ 63 1))) (fun _ hk => hk) (by decide) (by decide) (Only.refl _ _ v)
  have htxn := txWritten_txn v e x (entryWords (stampOf stamp).2 (stampOf stamp).1 (word (at_ 63 1)))
  obtain ⟨hdrop, htake⟩ := entryWords_parts (stampOf stamp).2 (stampOf stamp).1 (word (at_ 63 1))
  rw [hnext] at htxn
  obtain ⟨y, hy, hshape⟩ := Option.map_eq_some_iff.mp htxn
  simp only [Prod.mk.injEq] at hshape
  obtain ⟨hwrite, hlen, hdata, horigin⟩ := hshape
  refine Gives.done (exec_txStep hact hwritten) ⟨?_, ?_, ?_, ?_, ?_, ?_, ?_, ?_, fun q hq => ?_, ?_⟩
  · exact (finish_sent _ _).subset (hkeep.sent.subset hsent)
  · rw [finish_rd (by decide), txWritten_rd _ _ _ _ (by decide) (by decide), hframes]
  · rw [finish_rd (by decide), txWritten_rd _ _ _ _ (by decide) (by decide), hbytes]
  · rw [finish_port, txWritten_port]
  · rw [finish_port, txWritten_port]
  · rw [finish_port, txWritten_port, hport]
  · rw [finish_free, ← hfree]
    exact hkeep.same (p := .free) (by decide)
  · rw [finish_xbar, hy, Option.map_some, hwrite, hlen, hdata, hdrop, horigin]
  · rw [finish_xbar, hy, Option.map_some, hdata, htake, hq]
    rfl
  · exact (Only.txWritten _ _ _ (fun _ hk => List.mem_cons_of_mem _ (List.mem_cons_of_mem _ hk)) (by decide) (by decide) honly).frame

-- Ready fragments (R334, R343, R345).

section Fragment

variable {s : State} {e : Nat} {x : Fragment} {rest : List Fragment} {z n : Nat} (hready : (s.port e).ready = x :: rest)
include hready

theorem brynizSend_waits (h : s.imgNow < x.time ∨ s.ethRun e .unit = none) : s.brynizSend e = s := by
  cases hrun : s.ethRun e .unit with
  | none => simp only [State.brynizSend, hready, hrun]
  | some r =>
    have htime : s.imgNow < x.time := h.resolve_right (by simp [hrun])
    simp only [State.brynizSend, hready, hrun]
    exact if_pos htime

variable (hrun : s.ethRun e .unit = some (z, n)) (htime : x.time ≤ s.imgNow)
include hrun htime

theorem brynizSend_due : s.brynizSend e = if s.ethState e ≠ 3 then (s.countf R.TX_ERR e 31 16).passFragment e x
    else if !fitsRun 0 (s.headBytes e x.block.src + x.len) n then (s.breach R.BR_ETH 7 e).passFragment e x
    else if !fitsRun (s.runOffset e z) (s.headBytes e x.block.src + x.len) n then s
    else
      let t := (s.ethTake e z (s.runOffset e z) (s.headBytes e x.block.src + x.len)).passFragment e x
      let u := t.setPort e { t.port e with flight := (t.port e).flight ++ [{
        time := s.time.total - s.time.pos + s.slot * 256 + z * 256 + s.runOffset e z / 25 + 64 - s.absSlot * 256
        frag := x, seq := (s.src e x.block.src).streamSeq, skip := (s.src e x.block.src).skip }] }
      u.setSrc e x.block.src { u.src e x.block.src with skip := false } := by
  simp only [State.brynizSend, hready, hrun]
  rw [if_neg (Nat.not_lt.mpr htime)]

end Fragment

/-- A port with its first ready fragment passed and the source of that written. -/
def State.passed (s : State) (e k : Nat) (p : Port) (v : Source) : State :=
  s.setPort e { p with sources := mset sourceDflt p.sources k v }

theorem src_passed (s : State) (e k : Nat) (p : Port) (v : Source) : (s.passed e k p v).src e k = v := by
  rw [State.src, State.passed, port_setPort_self]
  exact mget_mset_self ..

theorem src_congr {s t : State} (h : t.net = s.net) (e k : Nat) : t.src e k = s.src e k := by rw [State.src, port_congr h, State.src]

/-- A passed fragment uses its packet number (R345); the ports are those of `s`. -/
theorem passFragment_eq {s u : State} {e : Nat} {x : Fragment} {rest : List Fragment} (hu : u.net = s.net)
    (hready : (s.port e).ready = x :: rest) : u.passFragment e x = u.passed e x.block.src { s.port e with ready := rest }
      { s.src e x.block.src with streamSeq := ((s.src e x.block.src).streamSeq + 1) % 2 ^ 32 } := by
  unfold State.passFragment State.passed State.setSrc State.src
  simp only [hready, port_congr hu, port_setPort_self, setPort_setPort, List.drop_one, List.tail_cons]

theorem countf_net (s : State) (r : Reg) (u hi lo n : Nat) : (s.countf r u hi lo n).net = s.net := rfl

/-- What shows of a port after a fragment was passed on a state whose ports are those of `s`. -/
theorem passed_shows (s0 s u : State) {e k : Nat} {p : Port} {v : Source} (hu : u.net = s.net) :
    let t := s0.finish (u.passed e k p v)
    (t.port e).ready = p.ready ∧ (t.port e).run = p.run ∧ (t.port e).flight = p.flight ∧ t.src e k = v
      ∧ t.net = (s.setPort e { p with sources := (t.port e).sources }).net := by
  have hport : (s0.finish (u.passed e k p v)).port e = { p with sources := mset sourceDflt p.sources k v } := by
    rw [finish_port, State.passed, port_setPort_self]
  refine ⟨by rw [hport], by rw [hport], by rw [hport], ?_, ?_⟩
  · rw [src_congr (finish_net ..), src_passed]
  · rw [finish_net, hport, State.passed, State.setPort, hu]
    rfl

/-- The next packet in its place of the run: the fragment passed, and the packet on its way. -/
theorem brynizSend_sends {s : State} {e : Nat} {x : Fragment} {rest : List Fragment} {z n o : Nat} (hready : (s.port e).ready = x :: rest)
    (hrun : s.ethRun e .unit = some (z, n)) (htime : x.time ≤ s.imgNow) (hact : s.ethState e = 3)
    (hlong : fitsRun 0 (s.headBytes e x.block.src + x.len) n = true) (ho : o = s.runOffset e z)
    (hfits : fitsRun o (s.headBytes e x.block.src + x.len) n = true) : s.brynizSend e
      = s.passed e x.block.src { s.port e with
          ready := rest, run := some (z, o + 3 * (s.headBytes e x.block.src + x.len + 20))
          flight := (s.port e).flight ++ [{
            time := s.time.total - s.time.pos + s.slot * 256 + z * 256 + o / 25 + 64 - s.absSlot * 256
            frag := x, seq := (s.src e x.block.src).streamSeq, skip := (s.src e x.block.src).skip }] }
        { s.src e x.block.src with streamSeq := ((s.src e x.block.src).streamSeq + 1) % 2 ^ 32, skip := false } := by
  have hready' : ((s.ethTake e z o (s.headBytes e x.block.src + x.len)).port e).ready = x :: rest := by
    rw [State.ethTake, port_setPort_self, hready]
  rw [brynizSend_due hready hrun htime, if_neg (not_not.mpr hact), if_neg (by simp [hlong]), ← ho, if_neg (by simp [hfits]),
    passFragment_eq rfl hready']
  simp only [State.passed, State.setSrc, State.src, State.ethTake, port_setPort_self, setPort_setPort, mget_mset_self, mset_mset_self]

-- What the two commands do.

/-- A fragment passed over on a port that is not ACTIVE is counted (R334). -/
theorem brynizPassed_gives {s : State} {e : Fin 32} {x : Fragment} {rest : List Fragment} {z n : Nat}
    (hready : (s.port e).ready = x :: rest) (hrun : s.ethRun e .unit = some (z, n)) (htime : x.time ≤ s.imgNow)
    (hdown : s.ethState e ≠ 3) : Gives (.brynizPacketSend e) s fun t =>
      (t.port e).ready = rest ∧ (t.src e x.block.src).streamSeq = ((s.src e x.block.src).streamSeq + 1) % 2 ^ 32
      ∧ t.rdf R.TX_ERR e 31 16 = min (s.rdf R.TX_ERR e 31 16 + 1) 65535
      ∧ t.net = (s.setPort e { s.port e with ready := rest, sources := (t.port e).sources }).net
      ∧ Frame (regsIn [R.TX_ERR.key e]) [.net] s t := by
  have hsend : s.brynizSend e = (s.countf R.TX_ERR e 31 16).passed e x.block.src { s.port e with ready := rest }
      { s.src e x.block.src with streamSeq := ((s.src e x.block.src).streamSeq + 1) % 2 ^ 32 } := by
    rw [brynizSend_due hready hrun htime, if_pos hdown, passFragment_eq (countf_net ..) hready]
  obtain ⟨hrest, -, -, hsrc, hnet⟩ := passed_shows s s (s.countf R.TX_ERR e 31 16) (e := e) (k := x.block.src)
    (p := { s.port e with ready := rest })
    (v := { s.src e x.block.src with streamSeq := ((s.src e x.block.src).streamSeq + 1) % 2 ^ 32 }) rfl
  refine Gives.done (congrArg (done s) hsend) ⟨hrest, congrArg Source.streamSeq hsrc, ?_, hnet, ?_⟩
  · rw [finish_rdf (by decide)]
    exact rdf_countf (by decide) (by decide) (by decide)
  · exact ((Only.wr _ (List.mem_cons_self ..) (Only.refl _ _ s)).set_net _ (by decide)).frame

/-- A fragment too long for its run breaches and is passed over (R138, R343). -/
theorem brynizTooLong_gives {s y : State} {e : Fin 32} {x : Fragment} {rest : List Fragment} {z n : Nat}
    (hready : (s.port e).ready = x :: rest) (hrun : s.ethRun e .unit = some (z, n)) (htime : x.time ≤ s.imgNow)
    (hact : s.ethState e = 3) (hlong : fitsRun 0 (s.headBytes e x.block.src + x.len) n = false) (hy : y = s.breach R.BR_ETH 7 e) :
    Gives (.brynizPacketSend e) s fun t => (t.port e).ready = rest
      ∧ (t.src e x.block.src).streamSeq = ((s.src e x.block.src).streamSeq + 1) % 2 ^ 32 ∧ Frame noRegs [.net] y t := by
  have hynet : y.net = s.net := by
    rw [hy]
    exact (breach_only ..).same (p := .net) (by decide)
  have hsend : s.brynizSend e = y.passed e x.block.src { s.port e with ready := rest }
      { s.src e x.block.src with streamSeq := ((s.src e x.block.src).streamSeq + 1) % 2 ^ 32 } := by
    rw [brynizSend_due hready hrun htime, if_neg (not_not.mpr hact), if_pos (by rw [hlong]; rfl), ← hy, passFragment_eq hynet hready]
  obtain ⟨hrest, -, -, hsrc, -⟩ := passed_shows s s y (e := e) (k := x.block.src) (p := { s.port e with ready := rest })
    (v := { s.src e x.block.src with streamSeq := ((s.src e x.block.src).streamSeq + 1) % 2 ^ 32 }) hynet
  exact Gives.done (congrArg (done s) hsend) ⟨hrest, congrArg Source.streamSeq hsrc, (setPort_only ..).frameFrom s⟩

theorem brynizSent_gives {s : State} {e : Fin 32} {x : Fragment} {rest : List Fragment} {z n o : Nat}
    (hready : (s.port e).ready = x :: rest) (hrun : s.ethRun e .unit = some (z, n)) (htime : x.time ≤ s.imgNow)
    (hact : s.ethState e = 3) (hlong : fitsRun 0 (s.headBytes e x.block.src + x.len) n = true) (ho : o = s.runOffset e z)
    (hfits : fitsRun o (s.headBytes e x.block.src + x.len) n = true) : Gives (.brynizPacketSend e) s fun t =>
      (t.port e).ready = rest
      ∧ (t.src e x.block.src).streamSeq = ((s.src e x.block.src).streamSeq + 1) % 2 ^ 32 ∧ (t.src e x.block.src).skip = false
      ∧ (t.port e).run = some (z, o + 3 * (s.headBytes e x.block.src + x.len + 20))
      ∧ (t.port e).flight = (s.port e).flight ++ [{
          time := s.time.total - s.time.pos + s.slot * 256 + z * 256 + o / 25 + 64 - s.absSlot * 256, frag := x
          seq := (s.src e x.block.src).streamSeq, skip := (s.src e x.block.src).skip }]
      ∧ t.net = (s.setPort e { s.port e with
          ready := rest, run := (t.port e).run, flight := (t.port e).flight, sources := (t.port e).sources }).net
      ∧ Frame noRegs [.net] s t := by
  have hsend := brynizSend_sends hready hrun htime hact hlong ho hfits
  have hshows (p : Port) (v : Source) := passed_shows s s s (e := e) (k := x.block.src) (p := p) (v := v) rfl
  obtain ⟨hrest, hplace, hflight, hsrc, hnet⟩ := hshows _ _
  refine Gives.done (congrArg (done s) hsend) ⟨hrest, congrArg Source.streamSeq hsrc, congrArg Source.skip hsrc, hplace, hflight, ?_,
    (setPort_only ..).frame⟩
  rw [hplace, hflight]
  exact hnet

/-- Settles O31: `txStep`'s steps each by one lemma of what they give, `brynizSend`'s likewise, and the steps that wait. -/
theorem portsSendFrames : Obligations.PortsSendFrames := by
  unfold Obligations.PortsSendFrames
  refine ⟨?inactive, ?idle, ?asks, ?unread, ?lost, ?unheld, ?sends, ?waits, ?noRoom, ?reading, ?wrong, ?reads, ?delays, ?delayed,
    ?passed, ?tooLong, ?packet, ?noFragment, ?notDue, ?packetWaits⟩
  case inactive => exact fun s e hact => Gives.done (congrArg (done s) (if_neg hact)) (Only.refl _ _ s).frame
  case idle => exact fun s e hact htx hring => txStays_gives hact (txStep_idle htx hring)
  case asks => exact fun s e r hact htx hring => txAsks_gives hact htx hring
  case unread => exact fun s e x hact htx hentry => txStays_gives hact (txStep_unread htx hentry)
  case lost =>
    intro s e x ws hact htx hentry hbad hleft
    exact txFails_gives hact ((txStep_lost htx hentry hbad hleft).trans (txComplete_lost ..)) (by decide) (by decide) rfl
  case unheld =>
    intro s e x ws c hact htx hentry hgo hready hc hrun
    exact txFails_gives hact ((txStep_unheld htx hentry hgo hready hc hrun).trans (txComplete_unheld ..)) (by decide) (by decide) rfl
  case sends =>
    intro s e x ws c n0 z n o q fr hact htx hentry hgo hready hc hn0 hheld hrun ho hfits hlpi hwake hq hfr
    have hstep := txStep_sends htx hentry hgo hready hc hn0 hheld hrun ho hfits hlpi hwake hq
    rw [← hfr, ← State.txOnLine] at hstep
    obtain ⟨t, ht, hsent, hframes, hbytes, htx', hlast, hrun', hfree, htxn, hstamp, hframe⟩ := txSends_gives hact hstep
    exact ⟨t, ht, hsent, hframes, hbytes, htx', hlast, hrun', hfree, htxn, fun hbit => hstamp q (if_pos hbit), hframe⟩
  case waits =>
    intro s e x ws c n0 hact htx hentry hgo hready hc hn0 hheld hno
    refine txStays_gives hact (txStep_waits htx hentry hgo hready hc hn0 hheld ?_)
    cases hrun : s.ethRun e .open_ with
    | none => exact Or.inl rfl
    | some r => exact Or.inr ⟨r.1, r.2, rfl, Or.inr (hno.resolve_left (by simp [hrun]))⟩
  case noRoom =>
    intro s e x ws c n0 z n hact htx hentry hgo hready hc hn0 hheld hrun hfull
    exact txStays_gives hact (txStep_waits htx hentry hgo hready hc hn0 hheld (Or.inr ⟨z, n, hrun, Or.inl hfull⟩))
  case reading =>
    exact fun s e x ws hact htx hentry hgo hready hleft => txStays_gives hact (txStep_reading htx hentry hready hgo hleft)
  case wrong =>
    intro s e x ws hact htx hentry hgood hready hleft hwrong
    exact txFails_gives hact ((txStep_wrong htx hentry hready hgood hleft hwrong).trans (txComplete_wrong ..)) (by decide) (by decide) rfl
  case reads =>
    rintro s e x ws bs y hact htx hentry hgood hready hleft hsound hnow rfl hy
    have hstep := (txStep_fetches htx hentry hready hgood hleft hsound).trans (txFetch_reads hnow)
    obtain ⟨hnext, hnet⟩ := foldl_enter (fun b => fld (ws.getD 1 0) 47 0 + b.1) e
      (bursts (fld (ws.getD 1 0) 47 0) (fld (ws.getD 0 0) 63 48) (fld (ws.getD 0 0) 63 48 + 1) 0)
      (s.setPort e { s.port e with
        tx := some { x with
          frame := List.replicate (fld (ws.getD 0 0) 63 48) 0
          left := (bursts (fld (ws.getD 1 0) 47 0) (fld (ws.getD 0 0) 63 48) (fld (ws.getD 0 0) 63 48 + 1) 0).length }
        fetchAt := none })
    rw [← hy] at hstep hnext hnet
    refine Gives.done (exec_txStep hact hstep) ⟨?_, ?_, ?_, (Only.refl _ _ y).frameFrom s⟩
    · rw [finish_xbar, hnext]
      rfl
    · rw [finish_port, port_congr hnet, port_setPort_self]
    · rw [finish_port, port_congr hnet, port_setPort_self]
  case delays =>
    intro s e x ws hact htx hentry hgood hready hleft hsound hwaits hat
    have hstep := (txStep_fetches htx hentry hready hgood hleft hsound).trans (txFetch_delays hwaits hat)
    refine Gives.done (exec_txStep hact hstep) ⟨?_, ?_, (setPort_only ..).frame⟩
    · rw [finish_port, port_setPort_self]
    · rw [finish_net, finish_port, port_setPort_self]
  case delayed =>
    intro s e x ws n hact htx hentry hgood hready hleft hsound hwaits hat
    exact txStays_gives hact ((txStep_fetches htx hentry hready hgood hleft hsound).trans (txFetch_waits hwaits hat))
  case passed => exact fun s e x rest z n hready hrun htime hdown => brynizPassed_gives hready hrun htime hdown
  case tooLong =>
    exact fun s e x rest z n y hready hrun htime hact hlong hy => brynizTooLong_gives hready hrun htime hact hlong hy
  case packet =>
    exact fun s e x rest z n o hready hrun htime hact hlong ho hfits => brynizSent_gives hready hrun htime hact hlong ho hfits
  case noFragment =>
    intro s e hready
    refine Gives.done (s1 := s) (congrArg (done s) ?_) (Only.refl _ _ s).frame
    simp only [State.brynizSend, hready]
  case notDue =>
    exact fun s e x rest hready h => Gives.done (congrArg (done s) (brynizSend_waits hready h)) (Only.refl _ _ s).frame
  case packetWaits =>
    intro s e x rest z n hready hrun htime hact hlong hfull
    refine Gives.done (s1 := s) (congrArg (done s) ?_) (Only.refl _ _ s).frame
    rw [brynizSend_due hready hrun htime, if_neg (not_not.mpr hact), if_neg (by simp [hlong]), if_pos (by rw [hfull]; rfl)]

end Sys2Proof.Machine

/-! PROOFS. Bits and fields of a word, and links and lanes read after a write (R78, R145, R163, R181). -/

namespace Sys2Proof.Machine

-- Fields and bits of a word.

theorem bit_eq_testBit (w : Word) (i : Nat) : bit w i = w.toNat.testBit i := rfl

/-- A bit of a word of which a field was replaced. -/
theorem bit_setFld {w : Word} {hi lo v i : Nat} (hlo : lo ≤ hi) (hhi : hi < 64) :
    bit (setFld w hi lo v) i = if lo ≤ i ∧ i ≤ hi then v.testBit (i - lo) else bit w i := by
  have hpow : 2 ^ (hi + 1) = 2 ^ lo * 2 ^ (hi + 1 - lo) := by rw [← pow_add]; congr 1; omega
  have hparts : w.toNat = 2 ^ lo * (2 ^ (hi + 1 - lo) * (w.toNat / 2 ^ (hi + 1)) + fld w hi lo) + w.toNat % 2 ^ lo := by
    rw [hpow, ← Nat.div_div_eq_div_mul, fld, Nat.div_add_mod, Nat.div_add_mod]
  have hset : w.toNat - fld w hi lo * 2 ^ lo + v % 2 ^ (hi + 1 - lo) * 2 ^ lo
      = 2 ^ lo * (2 ^ (hi + 1 - lo) * (w.toNat / 2 ^ (hi + 1)) + v % 2 ^ (hi + 1 - lo)) + w.toNat % 2 ^ lo := by
    conv_lhs => rw [hparts]
    rw [replace_field, Nat.add_comm]
  by_cases h64 : i < 64
  · rw [bit, setFld, hset, BitVec.getLsbD_ofNat, Nat.testBit_two_pow_mul_add _ (Nat.mod_lt _ (Nat.two_pow_pos _)),
      Nat.testBit_two_pow_mul_add _ (Nat.mod_lt _ (Nat.two_pow_pos _)), Nat.testBit_mod_two_pow, Nat.testBit_mod_two_pow,
      Nat.testBit_div_two_pow, bit_eq_testBit]
    by_cases hl : i < lo
    · simp [hl, h64, show ¬lo ≤ i by omega]
    · by_cases hh : i ≤ hi
      · simp [hl, h64, show lo ≤ i by omega, hh, show i - lo < hi + 1 - lo by omega]
      · simp [hl, h64, hh, show ¬i - lo < hi + 1 - lo by omega, show i - lo - (hi + 1 - lo) + (hi + 1) = i by omega]
  · have hw (x : Word) : bit x i = false := BitVec.getLsbD_of_ge x i (by omega)
    rw [hw, hw, if_neg (by omega)]

theorem bit_setFld_ne {w : Word} {hi lo v i : Nat} (hlo : lo ≤ hi) (hhi : hi < 64) (h : i < lo ∨ hi < i) :
    bit (setFld w hi lo v) i = bit w i := by
  rw [bit_setFld hlo hhi, if_neg (by omega)]

theorem testBit_fld (w : Word) (hi lo i : Nat) : (fld w hi lo).testBit i = (decide (i < hi + 1 - lo) && bit w (lo + i)) := by
  rw [fld, Nat.testBit_mod_two_pow, Nat.testBit_div_two_pow, bit_eq_testBit, Nat.add_comm lo i]

/-- A field is its bits. -/
theorem fld_congr {w x : Word} {hi lo : Nat} (h : ∀ i, lo ≤ i → i ≤ hi → bit w i = bit x i) : fld w hi lo = fld x hi lo := by
  refine Nat.eq_of_testBit_eq fun i => ?_
  rw [testBit_fld, testBit_fld]
  by_cases hi' : i < hi + 1 - lo
  · rw [h (lo + i) (by omega) (by omega)]
  · simp [hi']

theorem fld_setFld_ne {w : Word} {hi lo v hi' lo' : Nat} (hlo : lo ≤ hi) (hhi : hi < 64) (h : hi' < lo ∨ hi < lo') :
    fld (setFld w hi lo v) hi' lo' = fld w hi' lo' :=
  fld_congr fun _ _ _ => bit_setFld_ne hlo hhi (by omega)

theorem bit_putBit_self {w : Word} {i : Nat} {b : Bool} (h : i < 64) : bit (putBit w i b) i = b := by
  cases b
  · simp [putBit, bit_clrBit h]
  · simp [putBit, bit_setBit h]

theorem bit_putBit_ne {w : Word} {i j : Nat} {b : Bool} (hj : j < 64) (h : j ≠ i) : bit (putBit w i b) j = bit w j := by
  cases b
  · simp [putBit, bit_clrBit hj, h]
  · simp [putBit, bit_setBit_ne h]

theorem fld_putBit_ne {w : Word} {hi lo i : Nat} {b : Bool} (hhi : hi < 64) (h : i < lo ∨ hi < i) :
    fld (putBit w i b) hi lo = fld w hi lo :=
  fld_congr fun _ _ _ => bit_putBit_ne (by omega) (by omega)

/-- A counter counted on twice counts the sum (R78). -/
theorem satWord_satWord (w : Word) (m n : Nat) : satWord (satWord w m) n = satWord w (m + n) := by
  have hlt : min (w.toNat + m) (2 ^ 64 - 1) < 2 ^ 64 := by omega
  simp only [satWord, satAdd, word, BitVec.toNat_ofNat, Nat.mod_eq_of_lt hlt]
  congr 1
  omega

-- A link and a lane, read after a write.

@[simp] theorem lk_setLk_self (s : State) (q : Nat) (l : Link) : (s.setLk q l).lk q = l := mget_mset_self ..

@[simp] theorem setLk_setLk (s : State) (q : Nat) (l m : Link) : (s.setLk q l).setLk q m = s.setLk q m := by
  simp [State.setLk]

@[simp] theorem lk_wr (s : State) (r : Reg) (u k : Nat) (v : Word) (q : Nat) : (s.wr r u v k).lk q = s.lk q := lk_congr rfl q
@[simp] theorem lk_raise (s : State) (g i q : Nat) : (s.raise g i).lk q = s.lk q := lk_congr rfl q
@[simp] theorem lk_emit (s : State) (o : Output) (q : Nat) : (s.emit o).lk q = s.lk q := lk_congr rfl q
@[simp] theorem lk_setLane (s : State) (l : Nat) (v : Lane) (q : Nat) : (s.setLane l v).lk q = s.lk q := lk_congr rfl q
@[simp] theorem lk_report (s : State) (page bank cls : Nat) (d0 d1 : Word) (q : Nat) :
    (s.report page bank cls d0 d1).lk q = s.lk q :=
  lk_congr ((report_only s page bank cls d0 d1).same (p := .links) (by decide)) q
@[simp] theorem finish_lk (s0 s1 : State) (q : Nat) : (s0.finish s1).lk q = s1.lk q := lk_congr (finish_links s0 s1) q

theorem lane_congr {s t : State} (h : t.links = s.links) (l : Nat) : t.lane l = s.lane l := by rw [State.lane, h, State.lane]

@[simp] theorem lane_setLane_self (s : State) (l : Nat) (v : Lane) : (s.setLane l v).lane l = v := mget_mset_self ..
@[simp] theorem lane_wr (s : State) (r : Reg) (u k : Nat) (v : Word) (l : Nat) : (s.wr r u v k).lane l = s.lane l := lane_congr rfl l
@[simp] theorem finish_lane (s0 s1 : State) (l : Nat) : (s0.finish s1).lane l = s1.lane l := lane_congr (finish_links s0 s1) l

@[simp] theorem rd_setLk (s : State) (q : Nat) (l : Link) (r : Reg) (u k : Nat) : (s.setLk q l).rd r u k = s.rd r u k := rd_congr rfl r u k
@[simp] theorem rd_setLane (s : State) (l : Nat) (v : Lane) (r : Reg) (u k : Nat) : (s.setLane l v).rd r u k = s.rd r u k := rd_congr rfl r u k

@[simp] theorem hdr_setLk (s : State) (q : Nat) (l : Link) (g i : Nat) : (s.setLk q l).hdr g i = s.hdr g i := getReg_congr rfl _

theorem Only.setLk {K : Nat → Prop} {ps : List Part} {s t : State} (q : Nat) (l : Link) (hp : Part.links ∈ ps) (h : Only K ps s t) :
    Only K ps s (t.setLk q l) := h.set_links _ hp

theorem Only.setLane {K : Nat → Prop} {ps : List Part} {s t : State} (l : Nat) (v : Lane) (hp : Part.links ∈ ps)
    (h : Only K ps s t) : Only K ps s (t.setLane l v) := h.set_links _ hp

-- The lanes' `LANE_STAT` (R145, R163, R181).

/-- Lanes have each a `LANE_STAT` of their own. -/
theorem laneStat_inj {l m : Nat} (h : R.LANE_STAT.key l = R.LANE_STAT.key m) : l = m := by
  simp only [Reg.key, regKey, R.LANE_STAT] at h
  omega

/-- A bit of a lane's `LANE_STAT` after a bit of a lane's was put. -/
theorem rdb_wrb_lane {s : State} {l m i j : Nat} {b : Bool} (hj : j < 64) : (s.wrb R.LANE_STAT l i b).rdb R.LANE_STAT m j
    = if m = l ∧ j = i then b else s.rdb R.LANE_STAT m j := by
  by_cases hm : m = l
  · subst hm
    rw [State.rdb, State.wrb, rd_wr_self]
    by_cases hi : j = i
    · subst hi
      rw [bit_putBit_self hj, if_pos ⟨rfl, rfl⟩]
    · rw [bit_putBit_ne hj hi, if_neg fun h => hi h.2, State.rdb]
  · rw [State.rdb, State.wrb, State.rd, State.wr, getReg_setReg_ne fun h => hm (laneStat_inj h), if_neg fun h => hm h.1]
    rfl

/-- What each step of a fold over a list's members leaves unchanged, the fold does. -/
theorem Only.foldl_mem {α : Type} {K : Nat → Prop} {ps : List Part} {s : State} {f : State → α → State} :
    ∀ {xs : List α} {t : State}, (∀ u, ∀ a ∈ xs, Only K ps s u → Only K ps s (f u a)) → Only K ps s t → Only K ps s (xs.foldl f t)
  | [], _, _, h => h
  | x :: xs, t, hf, h =>
    Only.foldl_mem (xs := xs) (fun u a ha => hf u a (List.mem_cons_of_mem x ha)) (hf t x (List.mem_cons_self ..) h)

theorem Only.laneBits {K : Nat → Prop} {ps : List Part} {s t : State} {ls : List Nat} (i : Nat) (b : Bool)
    (hK : ∀ l ∈ ls, K (R.LANE_STAT.key l)) (h : Only K ps s t) : Only K ps s (t.laneBits ls i b) :=
  Only.foldl_mem (fun _ l hl hu => Only.wr _ (hK l hl) hu) h

theorem Only.lanesLost {K : Nat → Prop} {ps : List Part} {s t : State} {ls : List Nat} (signal : Bool)
    (hK : ∀ l ∈ ls, K (R.LANE_STAT.key l)) (hp : Part.links ∈ ps) (h : Only K ps s t) : Only K ps s (t.lanesLost ls signal) := by
  have hbits : Only K ps s ((t.laneBits ls 1 false).laneBits ls 2 false) := (h.laneBits 1 false hK).laneBits 2 false hK
  exact Only.foldl_mem (fun _ l _ hu => hu.setLane l _ hp) (Only.ite (hbits.laneBits 0 false hK) hbits)

/-- The keys of lanes' `LANE_STAT`. -/
abbrev laneStats (k : Nat) : Prop := ∃ l, k = R.LANE_STAT.key l

theorem not_laneStats_key {r : Reg} {u k : Nat} (hr : r.InPage k) (h : r.off + k * r.stride ≠ R.LANE_STAT.off) :
    ¬laneStats (r.key u k) := fun ⟨_, hl⟩ => Reg.key_ne_key hr (by decide) (by simpa using h) hl

theorem not_laneStats_evt (page : Nat) : ¬laneStats (regKey 0 page 0 hEvt) :=
  fun ⟨_, hl⟩ => Reg.key_ne_hdr (by decide) (by decide) hl.symm

theorem laneBits_only (s : State) (ls : List Nat) (i : Nat) (b : Bool) : Only laneStats [] s (s.laneBits ls i b) :=
  (Only.refl _ _ s).laneBits i b fun l _ => ⟨l, rfl⟩

theorem lanesLost_only (s : State) (ls : List Nat) (signal : Bool) : Only laneStats [.links] s (s.lanesLost ls signal) :=
  (Only.refl _ _ s).lanesLost signal (fun l _ => ⟨l, rfl⟩) (by decide)

theorem rd_laneBits {s : State} {ls : List Nat} {i : Nat} {b : Bool} {r : Reg} {u k : Nat} (hr : r.InPage k)
    (h : r.off + k * r.stride ≠ R.LANE_STAT.off) : (s.laneBits ls i b).rd r u k = s.rd r u k :=
  (laneBits_only s ls i b).getReg (not_laneStats_key hr h)

@[simp] theorem lk_laneBits (s : State) (ls : List Nat) (i : Nat) (b : Bool) (q : Nat) : (s.laneBits ls i b).lk q = s.lk q :=
  lk_congr ((laneBits_only s ls i b).same (p := .links) (by decide)) q

theorem rd_lanesLost {s : State} {ls : List Nat} {signal : Bool} {r : Reg} {u k : Nat} (hr : r.InPage k)
    (h : r.off + k * r.stride ≠ R.LANE_STAT.off) : (s.lanesLost ls signal).rd r u k = s.rd r u k :=
  (lanesLost_only s ls signal).getReg (not_laneStats_key hr h)

@[simp] theorem hdr_lanesLost (s : State) (ls : List Nat) (signal : Bool) (page : Nat) :
    (s.lanesLost ls signal).hdr page hEvt = s.hdr page hEvt := (lanesLost_only s ls signal).getReg (not_laneStats_evt page)

/-- A lane's bits in all that a fold over lanes does to their part alone. -/
theorem foldl_setLane {f : State → Nat → Lane} : ∀ (ls : List Nat) (s : State),
    (∀ q, (ls.foldl (fun u l => u.setLane l (f u l)) s).lk q = s.lk q)
      ∧ ∀ r u k, (ls.foldl (fun u l => u.setLane l (f u l)) s).rd r u k = s.rd r u k
  | [], _ => ⟨fun _ => rfl, fun _ _ _ => rfl⟩
  | l :: ls, s => by
    obtain ⟨hlk, hrd⟩ := foldl_setLane ls (s.setLane l (f s l))
    exact ⟨hlk, hrd⟩

@[simp] theorem lk_lanesLost (s : State) (ls : List Nat) (signal : Bool) (q : Nat) : (s.lanesLost ls signal).lk q = s.lk q := by
  rw [State.lanesLost, (foldl_setLane ls _).1 q]
  split <;> simp

theorem rdb_laneBits {m i j : Nat} {b : Bool} (hj : j < 64) : ∀ {ls : List Nat} {s : State},
    (s.laneBits ls i b).rdb R.LANE_STAT m j = if m ∈ ls ∧ j = i then b else s.rdb R.LANE_STAT m j
  | [], s => by simp [State.laneBits]
  | l :: ls, s => by
    rw [State.laneBits, List.foldl_cons, ← State.laneBits, rdb_laneBits hj, rdb_wrb_lane hj]
    by_cases hi : j = i <;> by_cases hm : m ∈ ls <;> by_cases hl : m = l <;> simp [hi, hm, hl]

/-- Lanes that lose their blocks have no block lock. -/
theorem rdb_lanesLost_lock {s : State} {ls : List Nat} {signal : Bool} {m : Nat} (h : m ∈ ls) :
    (s.lanesLost ls signal).rdb R.LANE_STAT m 1 = false := by
  have hrd : (s.lanesLost ls signal).rd R.LANE_STAT m = (if signal then ((s.laneBits ls 1 false).laneBits ls 2 false).laneBits ls 0 false
      else (s.laneBits ls 1 false).laneBits ls 2 false).rd R.LANE_STAT m := (foldl_setLane ls _).2 _ _ _
  rw [State.rdb, hrd, ← State.rdb]
  cases signal <;> simp (disch := decide) [rdb_laneBits, h]

end Sys2Proof.Machine

/-! PROOFS. A link's state code with what it makes of the lanes, and a link that is brought down, retrains or returns to DETECT (R145, R163,
R164, R177, R178, R181). -/

namespace Sys2Proof.Machine

-- The keys in which a link shows.

theorem linkStat_mem (q : Nat) : R.LINK_STAT.key q ∈ linkKeys q := List.mem_cons_self ..
theorem negCount_mem (q : Nat) : R.NEG_COUNT.key q ∈ linkKeys q := by simp [linkKeys]
theorem linkEvt_mem (q : Nat) : regKey 0 (brinePage q) 0 hEvt ∈ linkKeys q := by simp [linkKeys]
theorem laneStat_mem {q l : Nat} (h : l ∈ quadLanes q 4) : R.LANE_STAT.key l ∈ linkKeys q := by
  simp only [linkKeys, List.mem_cons, List.mem_map]
  exact Or.inr (Or.inr (Or.inr ⟨l, h, rfl⟩))

theorem mem_quadLanes {q n l : Nat} : l ∈ quadLanes q n ↔ 4 * q ≤ l ∧ l < 4 * q + n := by
  simp only [quadLanes, List.mem_map, List.mem_range]
  constructor
  · rintro ⟨i, hi, rfl⟩
    omega
  · exact fun h => ⟨l - 4 * q, by omega, by omega⟩

/-- A width code's lanes are lanes of the quad. -/
theorem quadLanes_lanesOf {q w l : Nat} (hw : w ≤ 2) (h : l ∈ quadLanes q (lanesOf w)) : l ∈ quadLanes q 4 := by
  have hle : lanesOf w ≤ 2 ^ 2 := Nat.pow_le_pow_right (by decide) hw
  rw [mem_quadLanes] at h ⊢
  omega

/-- The registers of a page from 0x0C on are none that a report writes. -/
theorem notMem_reportKeys {k : Nat} (h : 0x0C * 1048576 ≤ k) : k ∉ reportKeys := by
  have hlt : ∀ j ∈ reportKeys, j < 0x0C * 1048576 := by decide
  exact fun hk => absurd (hlt k hk) (by omega)

theorem pageKey_notMem_reportKeys {r : Reg} {u k : Nat} (h : 0x0C ≤ r.page) : r.key u k ∉ reportKeys := by
  refine notMem_reportKeys ?_
  simp only [Reg.key, regKey]
  generalize u % r.banks / r.share * r.share = b
  generalize u / r.banks = c
  omega

theorem evt_notMem_reportKeys {page : Nat} (h : 0x0C ≤ page) : regKey 0 page 0 hEvt ∉ reportKeys := by
  refine notMem_reportKeys ?_
  simp only [regKey]
  omega

theorem rd_report {s : State} {page bank cls : Nat} {d0 d1 : Word} {r : Reg} {u k : Nat} (h : 0x0C ≤ r.page) :
    (s.report page bank cls d0 d1).rd r u k = s.rd r u k := report_rd (pageKey_notMem_reportKeys h)

-- A link's state code, written (R145, R163, R181).

/-- A link with what belongs to its line alone put aside: its blocks, its round and its fragments (R150, R151, R163). -/
def Link.core (l : Link) : Link :=
  { l with txBlk := 0, blkAt := 0, cell := none, round := none, skews := [], tsOut := false, frags := [], readies := 0, trainAt := 0 }

/-- What a link's core holds is the same in links of the same core. -/
theorem Link.of_core {α : Type} {l m : Link} (f : Link → α) (hf : ∀ l : Link, f l.core = f l) (h : l.core = m.core) : f l = f m := by
  rw [← hf l, h, hf m]

theorem setLkState_plain {s : State} {q st : Nat} (h : st = lkDeskew ∨ st = lkParam ∨ st = lkActive) :
    s.setLkState q st = s.wrf R.LINK_STAT q 3 0 st := by
  rcases h with rfl | rfl | rfl <;> rfl

/-- What a link makes of its lanes and of its line when its state code changes. -/
theorem setLkState_rest (s : State) (q st : Nat) :
    Only laneStats [.links] (s.wrf R.LINK_STAT q 3 0 st) (s.setLkState q st)
      ∧ ((s.setLkState q st).lk q).core = (s.lk q).core := by
  have h := Only.refl laneStats [.links] (s.wrf R.LINK_STAT q 3 0 st)
  have hlane : ∀ ls : List Nat, ∀ l ∈ ls, laneStats (R.LANE_STAT.key l) := fun _ l _ => ⟨l, rfl⟩
  unfold State.setLkState
  dsimp only
  split
  · exact ⟨(h.laneBits 4 true (hlane _)).lanesLost true (hlane _) (by decide), by simp [State.wrf]⟩
  · split
    · exact ⟨((h.laneBits 4 false (hlane _)).laneBits 4 true (hlane _)).setLk q _ (by decide), by simp [State.wrf, Link.core]⟩
    · split
      · exact ⟨h.lanesLost false (hlane _) (by decide), by simp [State.wrf]⟩
      · exact ⟨h, rfl⟩

theorem Only.setLkState {K : Nat → Prop} {ps : List Part} {s t : State} (q st : Nat) (hK : ∀ k ∈ linkKeys q, K k)
    (hp : Part.links ∈ ps) (h : Only K ps s t) : Only K ps s (t.setLkState q st) := by
  have hlane : ∀ l ∈ quadLanes q 4, K (R.LANE_STAT.key l) := fun l hl => hK _ (laneStat_mem hl)
  have hst : Only K ps s (t.wrf R.LINK_STAT q 3 0 st) := h.wr _ (hK _ (linkStat_mem q))
  unfold State.setLkState
  exact Only.ite ((hst.laneBits 4 true hlane).lanesLost true hlane hp)
    (Only.ite (Only.setLk q _ hp ((hst.laneBits 4 false fun l hl => hlane l (List.mem_of_mem_take hl)).laneBits 4 true
        fun l hl => hlane l (List.mem_of_mem_drop hl)))
      (Only.ite (hst.lanesLost false hlane hp) hst))

theorem rd_setLkState_stat (s : State) (q st : Nat) :
    (s.setLkState q st).rd R.LINK_STAT q = setFld (s.rd R.LINK_STAT q) 3 0 st := by
  rw [State.rd, (setLkState_rest s q st).1.getReg (not_laneStats_key (by decide) (by decide)), ← State.rd, State.wrf, rd_wr_self]

theorem rd_setLkState {s : State} {q st : Nat} {r : Reg} {u k : Nat} (hr : r.InPage k)
    (hlane : r.off + k * r.stride ≠ R.LANE_STAT.off) (hlink : r.off + k * r.stride ≠ R.LINK_STAT.off) :
    (s.setLkState q st).rd r u k = s.rd r u k := by
  rw [State.rd, (setLkState_rest s q st).1.getReg (not_laneStats_key hr hlane), ← State.rd, State.wrf,
    rd_wr_ne (by decide) hr (by simpa using hlink)]

theorem hdr_wr_evt {s : State} {r : Reg} {u k : Nat} {v : Word} (hr : r.InPage k) (page : Nat) :
    (s.wr r u v k).hdr page hEvt = s.hdr page hEvt := hdr_wr hr (by decide)

@[simp] theorem hdr_setLkState (s : State) (q st page : Nat) : (s.setLkState q st).hdr page hEvt = s.hdr page hEvt :=
  ((setLkState_rest s q st).1.getReg (not_laneStats_evt page)).trans (hdr_wr (by decide) (by decide))

theorem core_setLkState (s : State) (q st : Nat) : ((s.setLkState q st).lk q).core = (s.lk q).core := (setLkState_rest s q st).2

-- A link that leaves ACTIVE, fails its training, retrains or returns to DETECT (R163, R164, R177, R178).

/-- `LINK_STAT` of a link brought down into a state: the cause if there is one, no negotiation, the state. -/
def downWord (w : Word) (st cause : Nat) : Word :=
  setFld (putBit (setFld (if cause = 0 then w else setFld w 47 40 cause) 27 24 0) 30 false) 3 0 st

theorem downWord_state (w : Word) {st : Nat} (cause : Nat) (h : st < 16) : fld (downWord w st cause) 3 0 = st := by
  rw [downWord, fld_setFld (by decide) (by decide)]
  exact Nat.mod_eq_of_lt h

theorem downWord_neg (w : Word) (st cause : Nat) : fld (downWord w st cause) 27 24 = 0 := by
  simp (disch := decide) [downWord, fld_setFld, fld_setFld_ne, fld_putBit_ne]

theorem downWord_cause (w : Word) (st : Nat) {cause : Nat} (h : cause ≠ 0) : fld (downWord w st cause) 47 40 = cause % 256 := by
  simp (disch := decide) [downWord, fld_setFld, fld_setFld_ne, fld_putBit_ne, h]

theorem Only.lkDown {K : Nat → Prop} {ps : List Part} {s t : State} (q st : Nat) {cause : Nat} (hK : ∀ k ∈ linkKeys q, K k)
    (hp : Part.links ∈ ps) (hrep : cause ≠ 0 → (∀ k ∈ reportKeys, K k) ∧ Part.bitt ∈ ps) (h : Only K ps s t) :
    Only K ps s (t.lkDown q st cause) := by
  have hstat : K (R.LINK_STAT.key q) := hK _ (linkStat_mem q)
  have hdown : Only K ps s (if t.lkUp q then t.raise (brinePage q) 1 else t) := Only.ite (h.raise (hK _ (linkEvt_mem q))) h
  unfold State.lkDown
  dsimp only
  generalize (if t.lkUp q then t.raise (brinePage q) 1 else t) = u at hdown
  have hcause : Only K ps s (if cause = 0 then u else u.wrf R.LINK_STAT q 47 40 cause) := Only.ite hdown (hdown.wr _ hstat)
  generalize (if cause = 0 then u else u.wrf R.LINK_STAT q 47 40 cause) = x at hcause
  have hstate : Only K ps s (((x.setNeg q 0).wrb R.LINK_STAT q 30 false).setLkState q st) :=
    ((hcause.wr _ hstat).wr _ hstat).setLkState q st hK hp
  split
  · exact hstate
  · next hc =>
    obtain ⟨hkeys, hbitt⟩ := hrep hc
    exact hstate.report _ _ _ _ _ hkeys hbitt

/-- LINK_DOWN, of a link that was ACTIVE. -/
def State.downRaised (s : State) (q : Nat) : State := if s.lkUp q then s.raise (brinePage q) 1 else s

/-- `LAST_CAUSE`, if there is a cause. -/
def State.causeShown (s : State) (q cause : Nat) : State := if cause = 0 then s else s.wrf R.LINK_STAT q 47 40 cause

/-- A link brought down, before its lanes follow and before the report: LINK_DOWN if it was ACTIVE, and `LINK_STAT`. -/
def State.downShown (s : State) (q cause : Nat) : State :=
  (((s.downRaised q).causeShown q cause).setNeg q 0).wrb R.LINK_STAT q 30 false

theorem lkDown_silent {s : State} {q st cause : Nat} (h : cause = 0) : s.lkDown q st cause = (s.downShown q cause).setLkState q st :=
  if_pos h

theorem lkDown_reported {s : State} {q st cause : Nat} (h : cause ≠ 0) : s.lkDown q st cause
    = ((s.downShown q cause).setLkState q st).report (brinePage q) (q % 64) 0x0F
      (((s.downShown q cause).setLkState q st).linkStat q) (((s.downShown q cause).setLkState q st).rd R.LANE_STAT (4 * q)) :=
  if_neg h

section DownShown

variable (s : State) (q cause : Nat)

theorem rd_downRaised {r : Reg} {u : Nat} (hr : r.InPage) : (s.downRaised q).rd r u = s.rd r u := by
  rw [State.downRaised]
  split
  · exact rd_raise hr
  · rfl

theorem rd_causeShown {r : Reg} {u : Nat} (hr : r.InPage) (h : r.off ≠ R.LINK_STAT.off) : (s.causeShown q cause).rd r u = s.rd r u := by
  rw [State.causeShown]
  split
  · rfl
  · rw [State.wrf, rd_wr_ne (by decide) hr (by simpa using h)]

theorem hdr_causeShown (page : Nat) : (s.causeShown q cause).hdr page hEvt = s.hdr page hEvt := by
  rw [State.causeShown]
  split
  · rfl
  · exact hdr_wr (by decide) (by decide)

theorem lk_downShown (q' : Nat) : (s.downShown q cause).lk q' = s.lk q' := by
  rw [State.downShown, State.wrb, State.setNeg, State.wrf, lk_wr, lk_wr, State.causeShown, State.downRaised]
  split <;> split <;> simp [State.wrf]

theorem hdr_downShown : (s.downShown q cause).hdr (brinePage q) hEvt
    = if s.lkUp q then setBit (s.hdr (brinePage q) hEvt) 1 else s.hdr (brinePage q) hEvt := by
  rw [State.downShown, State.wrb, State.setNeg, State.wrf, hdr_wr_evt (by decide), hdr_wr_evt (by decide), hdr_causeShown, State.downRaised]
  split
  · rw [State.raise, hdr_setHdr_self]
  · rfl

theorem rd_downShown {r : Reg} {u : Nat} (hr : r.InPage) (h : r.off ≠ R.LINK_STAT.off) : (s.downShown q cause).rd r u = s.rd r u := by
  rw [State.downShown, State.wrb, State.setNeg, State.wrf, rd_wr_ne (by decide) hr (by simpa using h),
    rd_wr_ne (by decide) hr (by simpa using h), rd_causeShown _ q cause hr h, rd_downRaised s q hr]

/-- `LINK_STAT` of a link brought down into a state: the cause if there is one, no negotiation, the state. -/
theorem rd_downShown_stat (st : Nat) : setFld ((s.downShown q cause).rd R.LINK_STAT q) 3 0 st = downWord (s.rd R.LINK_STAT q) st cause := by
  rw [State.downShown, State.wrb, State.setNeg, State.wrf, rd_wr_self, rd_wr_self, State.causeShown, downWord]
  split
  · rw [rd_downRaised s q (by decide)]
  · rw [State.wrf, rd_wr_self, rd_downRaised s q (by decide)]

end DownShown

/-- What a link brought down shows, keeps and raises. -/
structure LkDown (s t : State) (q st cause : Nat) : Prop where
  stat : t.rd R.LINK_STAT q = downWord (s.rd R.LINK_STAT q) st cause
  core : (t.lk q).core = (s.lk q).core
  others : ∀ {r : Reg} {u : Nat}, r.InPage → r.off ∉ [R.LANE_STAT.off, R.LINK_STAT.off] → 0x0C ≤ r.page → t.rd r u = s.rd r u
  evt : t.hdr (brinePage q) hEvt = if s.lkUp q then setBit (s.hdr (brinePage q) hEvt) 1 else s.hdr (brinePage q) hEvt

theorem lkDown_down (s : State) (q st cause : Nat) : LkDown s (s.lkDown q st cause) q st cause := by
  have hstate : LkDown s ((s.downShown q cause).setLkState q st) q st cause := by
    refine ⟨?_, ?_, fun {r u} hr hne _ => ?_, ?_⟩
    · rw [rd_setLkState_stat, rd_downShown_stat]
    · rw [core_setLkState, lk_downShown]
    · simp only [List.mem_cons, List.not_mem_nil, or_false, not_or] at hne
      rw [rd_setLkState hr (by simpa using hne.1) (by simpa using hne.2), rd_downShown s q cause hr hne.2]
    · rw [hdr_setLkState, hdr_downShown]
  by_cases hc : cause = 0
  · exact lkDown_silent hc ▸ hstate
  · rw [lkDown_reported hc]
    obtain ⟨hstat, hcore, hothers, hevt⟩ := hstate
    refine ⟨(rd_report (by decide)).trans hstat, ?_, fun hr hne hpage => (rd_report hpage).trans (hothers hr hne hpage), ?_⟩
    · rw [lk_report, hcore]
    · exact (report_hdr (evt_notMem_reportKeys (by unfold brinePage; omega))).trans hevt

theorem LkDown.state {s t : State} {q st cause : Nat} (h : LkDown s t q st cause) (hst : st < 16) : t.lkState q = st := by
  rw [State.lkState, State.rdf, h.stat, downWord_state _ _ hst]

theorem LkDown.neg {s t : State} {q st cause : Nat} (h : LkDown s t q st cause) : t.lkNeg q = 0 := by
  rw [State.lkNeg, State.rdf, h.stat, downWord_neg]

theorem LkDown.cause {s t : State} {q st cause : Nat} (h : LkDown s t q st cause) (hc : cause ≠ 0) :
    t.rdf R.LINK_STAT q 47 40 = cause % 256 := by
  rw [State.rdf, h.stat, downWord_cause _ _ hc]

theorem LkDown.down {s t : State} {q st cause : Nat} (h : LkDown s t q st cause) (hup : s.lkUp q = true) :
    bit (t.hdr (brinePage q) hEvt) 1 = true := by
  rw [h.evt, if_pos hup]
  exact bit_setBit (by decide)

/-- An event that stood in the link's page still does. -/
theorem LkDown.stands {s t : State} {q st cause i : Nat} (h : LkDown s t q st cause) (hi : bit (s.hdr (brinePage q) hEvt) i = true) :
    bit (t.hdr (brinePage q) hEvt) i = true := by
  rw [h.evt]
  split
  · exact bit_setBit_of_bit hi
  · exact hi

/-- Lanes that lose their blocks after the link is down change no more of what it shows. -/
theorem LkDown.lanesLost {s t : State} {q st cause : Nat} (h : LkDown s t q st cause) (ls : List Nat) (signal : Bool) :
    LkDown s (t.lanesLost ls signal) q st cause := by
  obtain ⟨hstat, hcore, hothers, hevt⟩ := h
  refine ⟨(rd_lanesLost (by decide) (by decide)).trans hstat, ?_, fun {r u} hr hne hpage => ?_, ?_⟩
  · rw [lk_lanesLost, hcore]
  · exact (rd_lanesLost hr (by simp only [List.mem_cons, not_or] at hne; simpa using hne.1)).trans (hothers hr hne hpage)
  · rw [hdr_lanesLost, hevt]

-- A retrain (R163, R177, R178).

/-- A retrain, before the link leaves ACTIVE: counted, and no full training. -/
def State.retrainBegun (s : State) (q : Nat) : State :=
  let u := s.countf R.NEG_COUNT q 63 48
  u.setLk q { u.lk q with full := false, trainAt := u.time.total }

theorem lkRetrain_eq (s : State) (q cause : Nat) :
    s.lkRetrain q cause = ((s.retrainBegun q).lkDown q lkLock cause).lanesLost (quadLanes q 4) false := rfl

theorem rd_retrainBegun {s : State} {q : Nat} {r : Reg} {u : Nat} (hr : r.InPage) (h : r.off ≠ R.NEG_COUNT.off) :
    (s.retrainBegun q).rd r u = s.rd r u := by
  rw [State.retrainBegun, rd_setLk, State.countf, rd_wr_ne (by decide) hr (by simpa using h)]

theorem hdr_retrainBegun (s : State) (q page : Nat) : (s.retrainBegun q).hdr page hEvt = s.hdr page hEvt := by
  rw [State.retrainBegun, hdr_setLk, State.countf, hdr_wr_evt (by decide)]

theorem lkUp_congr {s t : State} {q : Nat} (h : t.rd R.LINK_STAT q = s.rd R.LINK_STAT q) : t.lkUp q = s.lkUp q := by
  rw [State.lkUp, State.lkState, State.rdf, h, State.lkUp, State.lkState, State.rdf]

theorem Only.lkRetrain {K : Nat → Prop} {ps : List Part} {s t : State} (q : Nat) {cause : Nat} (hK : ∀ k ∈ linkKeys q, K k)
    (hp : Part.links ∈ ps) (hrep : cause ≠ 0 → (∀ k ∈ reportKeys, K k) ∧ Part.bitt ∈ ps) (h : Only K ps s t) :
    Only K ps s (t.lkRetrain q cause) :=
  (Only.lkDown q lkLock hK hp hrep (Only.setLk q _ hp (h.wr _ (hK _ (negCount_mem q))))).lanesLost false
    (fun _ hl => hK _ (laneStat_mem hl)) hp

/-- A link that retrains. -/
theorem lkRetrain_down (s : State) (q cause : Nat) : LkDown (s.retrainBegun q) (s.lkRetrain q cause) q lkLock cause :=
  (lkDown_down (s.retrainBegun q) q lkLock cause).lanesLost _ _

theorem lkRetrain_state (s : State) (q cause : Nat) : (s.lkRetrain q cause).lkState q = lkLock :=
  (lkRetrain_down s q cause).state (by decide)

theorem lkRetrain_counts (s : State) (q cause : Nat) :
    (s.lkRetrain q cause).rdf R.NEG_COUNT q 63 48 = min (s.rdf R.NEG_COUNT q 63 48 + 1) 65535 := by
  rw [State.rdf, (lkRetrain_down s q cause).others (by decide) (by decide) (by decide), ← State.rdf, State.retrainBegun,
    State.rdf, rd_setLk, ← State.rdf, rdf_countf (by decide) (by decide) (by decide)]

/-- What a retrain leaves of the link itself. -/
theorem lkRetrain_core (s : State) (q cause : Nat) : ((s.lkRetrain q cause).lk q).core = { (s.lk q) with full := false }.core := by
  rw [(lkRetrain_down s q cause).core, State.retrainBegun, lk_setLk_self, State.countf, lk_wr]
  rfl

theorem lkRetrain_event {s : State} {q : Nat} (cause : Nat) (h : s.lkUp q = true) :
    bit ((s.lkRetrain q cause).hdr (brinePage q) hEvt) 1 = true :=
  (lkRetrain_down s q cause).down ((lkUp_congr (rd_retrainBegun (by decide) (by decide))).trans h)

theorem lkRetrain_stands {s : State} {q i : Nat} (cause : Nat) (h : bit (s.hdr (brinePage q) hEvt) i = true) :
    bit ((s.lkRetrain q cause).hdr (brinePage q) hEvt) i = true :=
  (lkRetrain_down s q cause).stands (by rwa [hdr_retrainBegun])

-- A full training from DETECT on (R163, R164).

/-- A full training begun, before the link is brought down to DETECT: a new `SESSION` from DISABLED and FAULT. -/
def State.detectBegun (s : State) (q : Nat) : State :=
  (s.setLk q { s.lk q with
    full := true, later := none
    session := if s.lkState q = lkDisabled ∨ s.lkState q = lkFault then ((s.lk q).session + 1) % 32768 else (s.lk q).session }).wrb
      R.LINK_STAT q 29 false

theorem Only.lkDetectEntry {K : Nat → Prop} {ps : List Part} {s t : State} (q : Nat) {cause : Nat} (hK : ∀ k ∈ linkKeys q, K k)
    (hp : Part.links ∈ ps) (hrep : cause ≠ 0 → (∀ k ∈ reportKeys, K k) ∧ Part.bitt ∈ ps) (h : Only K ps s t) :
    Only K ps s (t.lkDetectEntry q cause) :=
  (Only.lkDown q lkDetect hK hp hrep (Only.wr _ (hK _ (linkStat_mem q)) (h.setLk q _ hp))).lanesLost false
    (fun _ hl => hK _ (laneStat_mem hl)) hp

theorem lkDetectEntry_down (s : State) (q cause : Nat) : LkDown (s.detectBegun q) (s.lkDetectEntry q cause) q lkDetect cause :=
  (lkDown_down (s.detectBegun q) q lkDetect cause).lanesLost _ _

theorem lkDetectEntry_state (s : State) (q cause : Nat) : (s.lkDetectEntry q cause).lkState q = lkDetect :=
  (lkDetectEntry_down s q cause).state (by decide)

theorem lkDetectEntry_session {s : State} {q : Nat} (cause : Nat) (h : s.lkState q = lkDisabled ∨ s.lkState q = lkFault) :
    ((s.lkDetectEntry q cause).lk q).session = ((s.lk q).session + 1) % 32768 := by
  have hcore := congrArg Link.session (lkDetectEntry_down s q cause).core
  rw [State.detectBegun, State.wrb, lk_wr, lk_setLk_self, if_pos h] at hcore
  exact hcore

end Sys2Proof.Machine

/-! PROOFS. NEG and what is sent with it, requests and their ends (R150, R173 to R178), and a link that enters ACTIVE (R163). -/

namespace Sys2Proof.Machine

-- Blocks sent on a link's lanes (R150, R151, R173).

/-- Blocks sent change the links' part alone, and of the link its count of blocks. -/
structure Sends (s t : State) (q : Nat) : Prop where
  only : Only noRegs [.links] s t
  link : ∃ n, t.lk q = { s.lk q with txBlk := n }

theorem Sends.refl (s : State) (q : Nat) : Sends s s q := ⟨Only.refl _ _ s, (s.lk q).txBlk, rfl⟩

theorem Sends.trans {s t u : State} {q : Nat} (h : Sends s t q) (g : Sends t u q) : Sends s u q := by
  obtain ⟨n, hn⟩ := h.link
  obtain ⟨m, hm⟩ := g.link
  exact ⟨h.only.trans g.only, m, by rw [hm, hn]⟩

theorem laneSend_sends (s : State) (l rate : Nat) (sync : BitVec 2) (payload : Word) (q : Nat) :
    Sends s (s.laneSend l rate sync payload) q :=
  ⟨Only.emit _ ((Only.refl _ _ s).setLane l _ (by decide)), (s.lk q).txBlk, by simp [State.laneSend]⟩

theorem sendBlocks_sends (q : Nat) : ∀ (bs : List TxBlock) (s : State), Sends s (s.sendBlocks q bs) q
  | [], s => Sends.refl s q
  | b :: bs, s => by
    rw [State.sendBlocks, List.foldl_cons, ← State.sendBlocks]
    refine Sends.trans (Sends.trans ?_ (laneSend_sends ..)) (sendBlocks_sends q bs _)
    exact ⟨(Only.refl _ _ s).setLk q _ (by decide), _, lk_setLk_self ..⟩

theorem sendNeg_sends (s : State) (q kind target token : Nat) : Sends s (s.sendNeg q kind target token) q := by
  refine Sends.trans ?_ (sendBlocks_sends q _ _)
  exact ⟨Only.emit _ ((Only.refl _ _ s).setLk q _ (by decide)), _, (lk_emit ..).trans (lk_setLk_self ..)⟩

theorem sendNeg_sent (s : State) (q kind target token : Nat) :
    .control q blkNeg (word (at_ 38 kind + at_ 36 target + at_ 28 token)) ∈ (s.sendNeg q kind target token).sent :=
  (sendBlocks_sends q _ _).only.sent.subset (List.mem_cons_self ..)

@[simp] theorem rd_sendNeg (s : State) (q kind target token : Nat) (r : Reg) (u k : Nat) :
    (s.sendNeg q kind target token).rd r u k = s.rd r u k := (sendNeg_sends s q kind target token).only.getReg id

theorem lk_sendNeg (s : State) (q kind target token : Nat) :
    ∃ n, (s.sendNeg q kind target token).lk q = { s.lk q with txBlk := n } := (sendNeg_sends s q kind target token).link

theorem core_sendNeg (s : State) (q kind target token : Nat) : ((s.sendNeg q kind target token).lk q).core = (s.lk q).core := by
  obtain ⟨n, hn⟩ := lk_sendNeg s q kind target token
  rw [hn]
  rfl

theorem Only.sendNeg {K : Nat → Prop} {ps : List Part} {s t : State} (q kind target token : Nat) (hp : Part.links ∈ ps)
    (h : Only K ps s t) : Only K ps s (t.sendNeg q kind target token) :=
  h.trans ((sendNeg_sends t q kind target token).only.mono (fun _ hk => hk.elim) (by simpa using hp))

-- `LINK_STAT.NEG` and what stands beside it (R173, R183).

/-- From `s` to `t` a link's `LINK_STAT` differs in NEG, which is `n`, and in bit 30 at most. -/
structure NegShows (s t : State) (q n : Nat) : Prop where
  neg : t.lkNeg q = n
  kept : ∀ i, i < 24 ∨ 27 < i → i ≠ 30 → bit (t.rd R.LINK_STAT q) i = bit (s.rd R.LINK_STAT q) i

theorem NegShows.rdf {s t : State} {q n hi lo : Nat} (h : NegShows s t q n) (hk : hi < 24 ∨ 27 < lo) (h30 : hi < 30 ∨ 30 < lo) :
    t.rdf R.LINK_STAT q hi lo = s.rdf R.LINK_STAT q hi lo :=
  fld_congr fun i _ _ => h.kept i (by omega) (by omega)

theorem NegShows.state {s t : State} {q n : Nat} (h : NegShows s t q n) : t.lkState q = s.lkState q :=
  h.rdf (by decide) (by decide)

theorem NegShows.up {s t : State} {q n : Nat} (h : NegShows s t q n) : t.lkUp q = s.lkUp q := by
  rw [State.lkUp, h.state, State.lkUp]

theorem NegShows.width {s t : State} {q n : Nat} (h : NegShows s t q n) : t.lkWidth q = s.lkWidth q := h.rdf (by decide) (by decide)

theorem NegShows.trans {s t u : State} {q n m : Nat} (h : NegShows s t q n) (g : NegShows t u q m) : NegShows s u q m :=
  ⟨g.neg, fun i hi h30 => (g.kept i hi h30).trans (h.kept i hi h30)⟩

/-- A state with the same `LINK_STAT` shows the same negotiation. -/
theorem NegShows.congr {s t u : State} {q n : Nat} (h : NegShows s t q n) (hu : u.rd R.LINK_STAT q = t.rd R.LINK_STAT q) :
    NegShows s u q n := by
  refine ⟨?_, fun i hi h30 => hu ▸ h.kept i hi h30⟩
  rw [State.lkNeg, State.rdf, hu]
  exact h.neg

theorem NegShows.of_eq {s t : State} {q n : Nat} (hn : s.lkNeg q = n) (h : t.rd R.LINK_STAT q = s.rd R.LINK_STAT q) :
    NegShows s t q n :=
  NegShows.congr ⟨hn, fun _ _ _ => rfl⟩ h

theorem setNeg_shows (s : State) (q : Nat) {n : Nat} (hn : n < 16) : NegShows s (s.setNeg q n) q n := by
  refine ⟨?_, fun i hi _ => ?_⟩
  · rw [State.lkNeg, State.rdf, State.setNeg, State.wrf, rd_wr_self, fld_setFld (by decide) (by decide)]
    exact Nat.mod_eq_of_lt hn
  · rw [State.setNeg, State.wrf, rd_wr_self, bit_setFld_ne (by decide) (by decide) hi]

theorem wrb_shows (s : State) (q : Nat) (b : Bool) : NegShows s (s.wrb R.LINK_STAT q 30 b) q (s.lkNeg q) := by
  refine ⟨?_, fun i hi h30 => ?_⟩
  · rw [State.lkNeg, State.rdf, State.wrb, rd_wr_self, fld_putBit_ne (by decide) (by decide)]
    rfl
  · rw [State.wrb, rd_wr_self]
    by_cases h64 : i < 64
    · exact bit_putBit_ne h64 h30
    · rw [bit, bit, BitVec.getLsbD_of_ge _ _ (by omega), BitVec.getLsbD_of_ge _ _ (by omega)]

/-- NEG and bit 30 written together. -/
theorem setNeg_wrb_shows (s : State) (q : Nat) {n : Nat} (b : Bool) (hn : n < 16) :
    NegShows s ((s.setNeg q n).wrb R.LINK_STAT q 30 b) q n := by
  have h := (setNeg_shows s q hn).trans (wrb_shows (s.setNeg q n) q b)
  rwa [(setNeg_shows s q hn).neg] at h

theorem rdb_wrb_self {s : State} {r : Reg} {u i : Nat} {b : Bool} (h : i < 64) : (s.wrb r u i b).rdb r u i = b := by
  rw [State.rdb, State.wrb, rd_wr_self, bit_putBit_self h]

theorem Only.setNeg {K : Nat → Prop} {ps : List Part} {s t : State} {q : Nat} (n : Nat) (hK : K (R.LINK_STAT.key q))
    (h : Only K ps s t) : Only K ps s (t.setNeg q n) := Only.wr _ hK h

theorem Only.wrb {K : Nat → Prop} {ps : List Part} {s t : State} {r : Reg} {u : Nat} (i : Nat) (b : Bool) (hK : K (r.key u))
    (h : Only K ps s t) : Only K ps s (t.wrb r u i b) := Only.wr _ hK h

@[simp] theorem lk_setNeg (s : State) (q n q' : Nat) : (s.setNeg q n).lk q' = s.lk q' := lk_wr ..
@[simp] theorem lk_wrb (s : State) (r : Reg) (u i : Nat) (b : Bool) (q : Nat) : (s.wrb r u i b).lk q = s.lk q := lk_wr ..
@[simp] theorem lk_wrf (s : State) (r : Reg) (u hi lo v q : Nat) : (s.wrf r u hi lo v).lk q = s.lk q := lk_wr ..
@[simp] theorem lk_countf (s : State) (r : Reg) (u hi lo n q : Nat) : (s.countf r u hi lo n).lk q = s.lk q := lk_wr ..
@[simp] theorem lk_count (s : State) (r : Reg) (u n q : Nat) : (s.count r u n).lk q = s.lk q := lk_wr ..

@[simp] theorem sent_setNeg (s : State) (q n : Nat) : (s.setNeg q n).sent = s.sent := wr_sent ..
@[simp] theorem sent_wrb (s : State) (r : Reg) (u i : Nat) (b : Bool) : (s.wrb r u i b).sent = s.sent := wr_sent ..

-- Requests (R173, R178).

/-- The link with a request of its own open. -/
def Link.asking (l : Link) (k : NegKind) (target cause : Nat) : Link :=
  { l with kind := k, mine := true, token := l.nextToken, target := target, cause := cause, peerCommit := false
           lanesReady := false, nextToken := (l.nextToken + 1) % 256 }

/-- A request opened from `s` to `t`: NEG 1, the link asks, and the request is sent. -/
structure Requested (s t : State) (q : Nat) (k : NegKind) (target cause : Nat) : Prop where
  shows_ : NegShows s t q 1
  open_ : t.rdb R.LINK_STAT q 30 = true
  link : ∃ n, t.lk q = { (s.lk q).asking k target cause with txBlk := n }
  sent : .control q blkNeg (word (at_ 38 k.code + at_ 36 target + at_ 28 (s.lk q).nextToken)) ∈ t.sent
  only : Only (regsIn [R.LINK_STAT.key q]) [.links] s t

theorem negRequest_opens {s : State} {q : Nat} (k : NegKind) (target cause : Nat) (h : s.lkNeg q = 0 ∨ s.lkNeg q = 6) :
    Requested s (s.negRequest q k target cause) q k target cause := by
  have heq : s.negRequest q k target cause = (((s.setLk q ((s.lk q).asking k target cause)).sendNeg q k.code target
      (s.lk q).nextToken).setNeg q 1).wrb R.LINK_STAT q 30 true := if_neg fun hb => h.elim hb.1 hb.2
  have hself : R.LINK_STAT.key q ∈ [R.LINK_STAT.key q] := List.mem_cons_self ..
  rw [heq]
  refine ⟨?_, rdb_wrb_self (by decide), ?_, ?_, ?_⟩
  · refine NegShows.trans (NegShows.of_eq (n := s.lkNeg q) rfl ?_) (setNeg_wrb_shows _ q true (by decide))
    rw [rd_sendNeg, rd_setLk]
  · obtain ⟨n, hn⟩ := lk_sendNeg (s.setLk q ((s.lk q).asking k target cause)) q k.code target (s.lk q).nextToken
    exact ⟨n, by rw [lk_wrb, lk_setNeg, hn, lk_setLk_self]⟩
  · rw [sent_wrb, sent_setNeg]
    exact sendNeg_sent ..
  · exact ((((Only.refl _ _ s).setLk q _ (by decide)).sendNeg q _ _ _ (by decide)).setNeg 1 hself).wrb 30 true hself

theorem negRequest_busy {s : State} {q : Nat} (k : NegKind) (target cause : Nat) (h0 : s.lkNeg q ≠ 0) (h6 : s.lkNeg q ≠ 6) :
    s.negRequest q k target cause = s.setLk q { s.lk q with later := some (k, target, cause) } := if_pos ⟨h0, h6⟩

-- Negotiations that end (R173, R175 to R178).

theorem takeLater_none {s : State} {q : Nat} (h : (s.lk q).later = none) : s.takeLater q = s := by rw [State.takeLater, h]

theorem takeLater_retrain {s : State} {q n : Nat} (h : (s.lk q).later = some (.retrain, 0, n)) (hup : s.lkUp q = true) :
    s.takeLater q = (s.setLk q { s.lk q with later := none }).negRequest q .retrain 0 n := by
  have hdue : (s.setLk q { s.lk q with later := none }).stillDue q .retrain 0 = true := by
    rw [State.stillDue, lkUp_congr (rd_setLk ..), hup]
    rfl
  rw [State.takeLater, h]
  exact if_pos hdue

/-- The state in which a negotiation has closed, before a request noted for later is taken up. -/
abbrev State.negClosed (s : State) (q : Nat) : State := (s.setNeg q 0).wrb R.LINK_STAT q 30 false

theorem negClosed_shows (s : State) (q : Nat) : NegShows s (s.negClosed q) q 0 := setNeg_wrb_shows s q false (by decide)

theorem Only.negClosed {K : Nat → Prop} {ps : List Part} {s t : State} {q : Nat} (hK : K (R.LINK_STAT.key q))
    (h : Only K ps s t) : Only K ps s (t.negClosed q) := (h.setNeg 0 hK).wrb 30 false hK

theorem negClose_none {s : State} {q : Nat} (h : (s.lk q).later = none) : s.negClose q = s.negClosed q :=
  takeLater_none (by rw [lk_wrb, lk_setNeg, h])

theorem negClose_retrain {s : State} {q n : Nat} (h : (s.lk q).later = some (.retrain, 0, n)) (hup : s.lkUp q = true) :
    s.negClose q = ((s.negClosed q).setLk q { s.lk q with later := none }).negRequest q .retrain 0 n := by
  have hlk : (s.negClosed q).lk q = s.lk q := (lk_wrb ..).trans (lk_setNeg ..)
  have hlater : ((s.negClosed q).lk q).later = some (.retrain, 0, n) := by rw [hlk, h]
  have htake := takeLater_retrain hlater ((negClosed_shows s q).up.trans hup)
  rw [hlk] at htake
  exact htake

theorem lkSched_congr {s t : State} (h : t.sched = s.sched) (q : Nat) : t.lkSched q = s.lkSched q := by
  have himage : t.image = s.image := image_congr (by rw [h]) (by rw [h]) (by rw [h])
  rw [State.lkSched, State.hasUnit, himage, State.lkSched, State.hasUnit]

-- A link's width, changed (R175).

/-- What a link makes of its lanes and of its line when its width changes. -/
theorem setWidth_rest (s : State) (q w : Nat) : Only laneStats [.links] (s.wrf R.LINK_STAT q 17 16 w) (s.setWidth q w)
    ∧ ((s.setWidth q w).lk q).core = (s.lk q).core := by
  have hlane : ∀ ls : List Nat, ∀ l ∈ ls, laneStats (R.LANE_STAT.key l) := fun _ l _ => ⟨l, rfl⟩
  unfold State.setWidth
  dsimp only
  constructor
  · exact Only.setLk q _ (by decide) (((((Only.refl _ _ _).laneBits 4 false (hlane _)).laneBits 4 true (hlane _)).lanesLost true
      (hlane _) (by decide)))
  · rw [lk_setLk_self, lk_lanesLost, lk_laneBits, lk_laneBits, lk_wrf]
    rfl

theorem Only.setWidth {K : Nat → Prop} {ps : List Part} {s t : State} (q : Nat) {w : Nat} (hw : w ≤ 2) (hK : ∀ k ∈ linkKeys q, K k)
    (hp : Part.links ∈ ps) (h : Only K ps s t) : Only K ps s (t.setWidth q w) := by
  have hlane : ∀ l ∈ quadLanes q 4, K (R.LANE_STAT.key l) := fun l hl => hK _ (laneStat_mem hl)
  have hoff : ∀ l ∈ (quadLanes q 4).drop (lanesOf w), K (R.LANE_STAT.key l) := fun l hl => hlane l (List.mem_of_mem_drop hl)
  have hst : Only K ps s (t.wrf R.LINK_STAT q 17 16 w) := h.wr _ (hK _ (linkStat_mem q))
  exact Only.setLk q _ hp (((hst.laneBits 4 false fun l hl => hlane l (quadLanes_lanesOf hw hl)).laneBits 4 true hoff).lanesLost true hoff hp)

theorem rd_setWidth_stat (s : State) (q w : Nat) :
    (s.setWidth q w).rd R.LINK_STAT q = setFld (s.rd R.LINK_STAT q) 17 16 w := by
  rw [State.rd, (setWidth_rest s q w).1.getReg (not_laneStats_key (by decide) (by decide)), ← State.rd, State.wrf, rd_wr_self]

theorem rd_setWidth {s : State} {q w : Nat} {r : Reg} {u k : Nat} (hr : r.InPage k)
    (hlane : r.off + k * r.stride ≠ R.LANE_STAT.off) (hlink : r.off + k * r.stride ≠ R.LINK_STAT.off) :
    (s.setWidth q w).rd r u k = s.rd r u k := by
  rw [State.rd, (setWidth_rest s q w).1.getReg (not_laneStats_key hr hlane), ← State.rd, State.wrf,
    rd_wr_ne (by decide) hr (by simpa using hlink)]

@[simp] theorem hdr_setWidth (s : State) (q w page : Nat) : (s.setWidth q w).hdr page hEvt = s.hdr page hEvt :=
  ((setWidth_rest s q w).1.getReg (not_laneStats_evt page)).trans (hdr_wr (by decide) (by decide))

theorem core_setWidth (s : State) (q w : Nat) : ((s.setWidth q w).lk q).core = (s.lk q).core := (setWidth_rest s q w).2

-- ACTIVE at a width (R163, R178).

/-- A link's configuration is none of the registers in which its state shows. -/
theorem linkCfg_notMem {q : Nat} (hq : q < 256) : R.LINK_CFG.key q ∉ linkKeys q := by
  simp only [linkKeys, List.mem_cons, List.mem_map, not_or, not_exists, not_and]
  refine ⟨Reg.key_ne_key (by decide) (by decide) (by decide), Reg.key_ne_key (by decide) (by decide) (by decide),
    Reg.key_ne_hdr (by decide) (by decide), fun l hl => ?_⟩
  rw [mem_quadLanes] at hl
  simp only [Reg.key, regKey, R.LINK_CFG, R.LANE_STAT]
  omega

theorem prbsOn_congr {s t : State} (h : ∀ l, t.rd R.PRBS_CTRL l = s.rd R.PRBS_CTRL l) : t.prbsOn = s.prbsOn := by
  funext l
  rw [State.prbsOn, State.rdb, State.rdb, h, State.prbsOn, State.rdb, State.rdb]

/-- A link with no PRBS enable on its lanes and not in PRBS stays as it is. -/
theorem prbsEval_still {s : State} {q : Nat} (hon : (quadLanes q (lanesOf (s.lkWidth q))).any s.prbsOn = false)
    (hst : s.lkState q ≠ lkPrbs) : s.prbsEval q = s := by
  rw [State.prbsEval, hon]
  simp [hst]

/-- A link in ACTIVE at a width, before what entry to ACTIVE tells of it. -/
def State.atWidth (s : State) (q w : Nat) : State := (s.setLkState q lkActive).setWidth q w

theorem rd_atWidth_stat (s : State) (q w : Nat) :
    (s.atWidth q w).rd R.LINK_STAT q = setFld (setFld (s.rd R.LINK_STAT q) 3 0 lkActive) 17 16 w := by
  rw [State.atWidth, rd_setWidth_stat, rd_setLkState_stat]

theorem lkState_atWidth (s : State) (q w : Nat) : (s.atWidth q w).lkState q = lkActive := by
  rw [State.lkState, State.rdf, rd_atWidth_stat, fld_setFld_ne (by decide) (by decide) (by decide), fld_setFld (by decide) (by decide)]
  rfl

theorem lkWidth_atWidth {s : State} {q w : Nat} (hw : w ≤ 2) : (s.atWidth q w).lkWidth q = w := by
  rw [State.lkWidth, State.rdf, rd_atWidth_stat, fld_setFld (by decide) (by decide)]
  exact Nat.mod_eq_of_lt (by omega)

theorem rd_atWidth {s : State} {q w : Nat} {r : Reg} {u : Nat} (hr : r.InPage) (hlane : r.off ≠ R.LANE_STAT.off)
    (hlink : r.off ≠ R.LINK_STAT.off) : (s.atWidth q w).rd r u = s.rd r u := by
  rw [State.atWidth, rd_setWidth hr (by simpa using hlane) (by simpa using hlink), rd_setLkState hr (by simpa using hlane) (by simpa using hlink)]

theorem core_atWidth (s : State) (q w : Nat) : ((s.atWidth q w).lk q).core = (s.lk q).core := by
  rw [State.atWidth, core_setWidth, core_setLkState]

@[simp] theorem hdr_atWidth (s : State) (q w page : Nat) : (s.atWidth q w).hdr page hEvt = s.hdr page hEvt := by
  rw [State.atWidth, hdr_setWidth, hdr_setLkState]

theorem Only.atWidth {K : Nat → Prop} {ps : List Part} {s t : State} (q : Nat) {w : Nat} (hw : w ≤ 2) (hK : ∀ k ∈ linkKeys q, K k)
    (hp : Part.links ∈ ps) (h : Only K ps s t) : Only K ps s (t.atWidth q w) := (h.setLkState q lkActive hK hp).setWidth q hw hK hp

/-- Nothing is to be done after entry to ACTIVE where no request waits and no PRBS enable stands. -/
theorem activeRest_still {s x : State} {q w : Nat} (hlater : (x.lk q).later = none)
    (hon : (quadLanes q (lanesOf w)).any s.prbsOn = false) (hprbs : ∀ l, x.rd R.PRBS_CTRL l = s.rd R.PRBS_CTRL l)
    (hst : x.lkState q = lkActive) (hwidth : x.lkWidth q = w) : (x.takeLater q).prbsEval q = x := by
  rw [takeLater_none hlater]
  refine prbsEval_still ?_ (by rw [hst]; decide)
  rw [hwidth, prbsOn_congr hprbs, hon]

theorem lkActivate_woken {s : State} {q w : Nat} (hw : w ≤ 2) (hwake : s.lkState q = lkWake) (hlater : (s.lk q).later = none)
    (hon : (quadLanes q (lanesOf w)).any s.prbsOn = false) : s.lkActivate q w = s.atWidth q w := by
  have hrest : ((s.atWidth q w).takeLater q).prbsEval q = s.atWidth q w :=
    activeRest_still ((Link.of_core Link.later (fun _ => rfl) (core_atWidth s q w)).trans hlater) hon (fun _ => rd_atWidth (by decide) (by decide) (by decide))
      (lkState_atWidth s q w) (lkWidth_atWidth hw)
  rw [State.lkActivate]
  simp only [hwake, if_true]
  exact hrest

/-- A link that a full training or a retrain has brought to ACTIVE: the width agreed, DEGRADED, LINK_UP. -/
def State.trained (s : State) (q w : Nat) : State :=
  (((s.atWidth q w).setLk q { (s.atWidth q w).lk q with agreed := w }).wrb R.LINK_STAT q 29
    (decide (w < (s.atWidth q w).rdf R.LINK_CFG q 1 0))).raise (brinePage q) 0

section Trained

variable (s : State) (q w : Nat)

theorem lk_trained : (s.trained q w).lk q = { (s.atWidth q w).lk q with agreed := w } := by
  rw [State.trained, lk_raise, lk_wrb, lk_setLk_self]

theorem core_trained : ((s.trained q w).lk q).core = { s.lk q with agreed := w }.core := by
  rw [lk_trained]
  exact congrArg (fun l : Link => { l with agreed := w }) (core_atWidth s q w)

theorem rd_trained_stat : (s.trained q w).rd R.LINK_STAT q
    = putBit ((s.atWidth q w).rd R.LINK_STAT q) 29 (decide (w < (s.atWidth q w).rdf R.LINK_CFG q 1 0)) := by
  rw [State.trained, rd_raise (by decide), State.wrb, rd_wr_self, rd_setLk]

theorem rd_trained {r : Reg} {u : Nat} (hr : r.InPage) (hlane : r.off ≠ R.LANE_STAT.off) (hlink : r.off ≠ R.LINK_STAT.off) :
    (s.trained q w).rd r u = s.rd r u := by
  rw [State.trained, rd_raise hr, State.wrb, rd_wr_ne (by decide) hr (by simpa using hlink), rd_setLk, rd_atWidth hr hlane hlink]

theorem lkState_trained : (s.trained q w).lkState q = lkActive := by
  rw [State.lkState, State.rdf, rd_trained_stat, fld_putBit_ne (by decide) (by decide)]
  exact lkState_atWidth s q w

theorem lkWidth_trained (hw : w ≤ 2) : (s.trained q w).lkWidth q = w := by
  rw [State.lkWidth, State.rdf, rd_trained_stat, fld_putBit_ne (by decide) (by decide)]
  exact lkWidth_atWidth hw

theorem event_trained : bit ((s.trained q w).hdr (brinePage q) hEvt) 0 = true := hdr_raise (by decide)

/-- The events of the link's page stand. -/
theorem stands_trained {i : Nat} (h : bit (s.hdr (brinePage q) hEvt) i = true) : bit ((s.trained q w).hdr (brinePage q) hEvt) i = true := by
  rw [State.trained, State.raise, hdr_setHdr_self, State.wrb, hdr_wr_evt (by decide), hdr_setLk, hdr_atWidth]
  exact bit_setBit_of_bit h

theorem Only.trained {K : Nat → Prop} {ps : List Part} {s t : State} (q : Nat) {w : Nat} (hw : w ≤ 2) (hK : ∀ k ∈ linkKeys q, K k)
    (hp : Part.links ∈ ps) (h : Only K ps s t) : Only K ps s (t.trained q w) :=
  Only.raise (hK _ (linkEvt_mem q)) (Only.wrb 29 _ (hK _ (linkStat_mem q)) (Only.setLk q _ hp (h.atWidth q hw hK hp)))

/-- DEGRADED says that the width is less than the one configured. -/
theorem degraded_trained {s : State} {q w : Nat} (hq : q < 256) (hw : w ≤ 2) :
    (s.trained q w).rdb R.LINK_STAT q 29 = decide (w < s.rdf R.LINK_CFG q 1 0) := by
  have hcfg : (s.atWidth q w).rd R.LINK_CFG q = s.rd R.LINK_CFG q :=
    (Only.atWidth (K := regsIn (linkKeys q)) (ps := [.links]) q hw (fun _ hk => hk) (by decide) (Only.refl _ _ s)).getReg (linkCfg_notMem hq)
  rw [State.rdb, rd_trained_stat, bit_putBit_self (by decide), State.rdf, hcfg, State.rdf]

end Trained

theorem lkActivate_trained {s : State} {q w : Nat} (hw : w ≤ 2) (hwake : s.lkState q ≠ lkWake) (hlater : (s.lk q).later = none)
    (hon : (quadLanes q (lanesOf w)).any s.prbsOn = false) : s.lkActivate q w = s.trained q w := by
  have hrest : ((s.trained q w).takeLater q).prbsEval q = s.trained q w :=
    activeRest_still ((Link.of_core Link.later (fun _ => rfl) (core_trained s q w)).trans hlater) hon
      (fun _ => rd_trained s q w (by decide) (by decide) (by decide)) (lkState_trained s q w) (lkWidth_trained s q w hw)
  rw [State.lkActivate]
  simp only [hwake, if_false]
  exact hrest

-- COMMIT and the end of a negotiation (R175, R176).

theorem committed_width {s : State} {q : Nat} (hkind : (s.lk q).kind = .width) :
    s.committed q = ((s.setWidth q (s.lk q).target).countf R.NEG_COUNT q 15 0).negDone q := by
  rw [State.committed, hkind]

theorem committed_sleep {s : State} {q : Nat} (hkind : (s.lk q).kind = .sleep) :
    s.committed q = ((((s.countf R.NEG_COUNT q 47 32).raise (brinePage q) 4).negClosed q).setLkState q lkSleep) := by
  rw [State.committed, hkind]

/-- This end has sent its COMMIT. -/
abbrev State.committing (s : State) (q : Nat) : State := (s.sendNeg q 5 (s.lk q).target (s.lk q).token).setNeg q 4

theorem core_committing (s : State) (q : Nat) : ((s.committing q).lk q).core = (s.lk q).core := by
  rw [lk_setNeg, core_sendNeg]

theorem committing_shows (s : State) (q : Nat) : NegShows s (s.committing q) q 4 :=
  (NegShows.of_eq rfl (rd_sendNeg ..)).trans (setNeg_shows _ q (by decide))

theorem committing_sent (s : State) (q : Nat) :
    .control q blkNeg (word (at_ 38 5 + at_ 36 (s.lk q).target + at_ 28 (s.lk q).token)) ∈ (s.committing q).sent := by
  rw [sent_setNeg]
  exact sendNeg_sent ..

theorem Only.committing {K : Nat → Prop} {ps : List Part} {s t : State} {q : Nat} (hK : K (R.LINK_STAT.key q)) (hp : Part.links ∈ ps)
    (h : Only K ps s t) : Only K ps s (t.committing q) := (h.sendNeg q _ _ _ hp).setNeg 4 hK

theorem sendCommit_alone {s : State} {q : Nat} (h : (s.lk q).peerCommit = false) : s.sendCommit q = s.committing q := by
  have hp : ((s.committing q).lk q).peerCommit = false := (congrArg Link.peerCommit (core_committing s q)).trans h
  exact if_neg (by rw [hp]; decide)

theorem sendCommit_both {s : State} {q : Nat} (h : (s.lk q).peerCommit = true) : s.sendCommit q = (s.committing q).committed q := by
  have hp : ((s.committing q).lk q).peerCommit = true := (congrArg Link.peerCommit (core_committing s q)).trans h
  exact if_pos hp

end Sys2Proof.Machine

/-! PROOFS. Received requests taken up and refused, and what a command's end leaves of a link (R167, R173 to R178). -/

namespace Sys2Proof.Machine

-- An end that has become agreed, and a request answered (R173, R175, R178).

section Agreed

variable {s : State} {q : Nat}

theorem agreed_retrain (hkind : (s.lk q).kind = .retrain) :
    s.agreed q = (s.raise (brinePage q) 4).lkRetrain q (s.lk q).cause := by
  rw [State.agreed, hkind]

theorem agreed_waits (hkind : (s.lk q).kind = .width) (hw : s.lkWidth q < (s.lk q).target) (hready : (s.lk q).lanesReady = false) :
    s.agreed q = s.setNeg q 3 := by
  rw [State.agreed, hkind]
  exact if_pos ⟨hw, by rw [hready]; rfl⟩

theorem agreed_commits (hkind : (s.lk q).kind = .sleep
    ∨ ((s.lk q).kind = .width ∧ ((s.lk q).target ≤ s.lkWidth q ∨ (s.lk q).lanesReady = true))) : s.agreed q = s.sendCommit q := by
  rcases hkind with hkind | ⟨hkind, hw⟩
  · rw [State.agreed, hkind]
  · rw [State.agreed, hkind]
    refine if_neg fun h => hw.elim (fun hle => absurd h.1 (by omega)) fun hr => ?_
    rw [hr] at h
    exact absurd h.2 (by decide)

end Agreed

/-- The link of an end that takes up a received request. -/
def Link.accepting (l : Link) (k : NegKind) (target token : Nat) : Link :=
  { l with kind := k, mine := false, token := token, target := target, cause := cPeer, peerCommit := false, lanesReady := false }

/-- A received request answered ACK, before what this end makes of it. -/
def State.acknowledged (s : State) (q : Nat) (k : NegKind) (target token : Nat) : State :=
  (((s.setLk q ((s.lk q).accepting k target token)).sendNeg q 3 target token).wrb R.LINK_STAT q 30 false).setNeg q 3

theorem negAccept_eq (s : State) (q : Nat) (k : NegKind) (target token : Nat) :
    s.negAccept q k target token = (s.acknowledged q k target token).agreed q := rfl

section Acknowledged

variable (s : State) (q : Nat) (k : NegKind) (target token : Nat)

theorem core_acknowledged : ((s.acknowledged q k target token).lk q).core = ((s.lk q).accepting k target token).core := by
  rw [State.acknowledged, lk_setNeg, lk_wrb, core_sendNeg, lk_setLk_self]

theorem acknowledged_shows : NegShows s (s.acknowledged q k target token) q 3 := by
  refine NegShows.trans (NegShows.trans (NegShows.of_eq rfl ?_) (wrb_shows _ q false)) (setNeg_shows _ q (by decide))
  rw [rd_sendNeg, rd_setLk]

theorem acknowledged_sent : .control q blkNeg (word (at_ 38 3 + at_ 36 target + at_ 28 token)) ∈ (s.acknowledged q k target token).sent := by
  rw [State.acknowledged, sent_setNeg, sent_wrb]
  exact sendNeg_sent ..

theorem Only.acknowledged {K : Nat → Prop} {ps : List Part} {s t : State} {q : Nat} {k : NegKind} {target token : Nat}
    (hK : K (R.LINK_STAT.key q)) (hp : Part.links ∈ ps) (h : Only K ps s t) : Only K ps s (t.acknowledged q k target token) :=
  (((h.setLk q _ hp).sendNeg q _ _ _ hp).wrb 30 false hK).setNeg 3 hK

end Acknowledged

/-- This end abandons its own request for a received one, and notes it for later (R178). -/
abbrev State.abandoning (s : State) (q : Nat) : State :=
  s.setLk q { s.lk q with later := some ((s.lk q).kind, (s.lk q).target, (s.lk q).cause) }

section Yields

variable {s : State} {q : Nat}

theorem yields_idle (h : s.lkNeg q = 0 ∨ s.lkNeg q = 6) : s.yields q = some s := if_pos h

theorem yields_abandons (h1 : s.lkNeg q = 1) (hlead : s.leads q = false) : s.yields q = some (s.abandoning q) := by
  rw [State.yields]
  simp [h1, hlead]

theorem yields_refused (h : (s.lkNeg q = 1 ∧ s.leads q = true) ∨ (s.lkNeg q ≠ 0 ∧ s.lkNeg q ≠ 1 ∧ s.lkNeg q ≠ 6)) :
    s.yields q = none := by
  rcases h with ⟨h1, hlead⟩ | ⟨h0, h1, h6⟩
  · simp [State.yields, h1, hlead]
  · simp [State.yields, h0, h1, h6]

end Yields

-- What a command's end leaves of links and lanes.

section Finish

variable (s0 s1 : State) (q : Nat)

@[simp] theorem finish_lkState : (s0.finish s1).lkState q = s1.lkState q := finish_rdf (by decide)
@[simp] theorem finish_lkWidth : (s0.finish s1).lkWidth q = s1.lkWidth q := finish_rdf (by decide)
@[simp] theorem finish_lkNeg : (s0.finish s1).lkNeg q = s1.lkNeg q := finish_rdf (by decide)
@[simp] theorem finish_lkUp : (s0.finish s1).lkUp q = s1.lkUp q := by rw [State.lkUp, finish_lkState, State.lkUp]

variable {s0 s1 q}

theorem finish_linkEvt (hq : q < 256) : (s0.finish s1).hdr (brinePage q) hEvt = s1.hdr (brinePage q) hEvt := by
  have hp : brinePage q < 0x54 := by unfold brinePage; omega
  exact finish_hdr (by omega) (by decide) (by omega)

theorem finish_laneEvt {l : Nat} (hl : l < 1024) : (s0.finish s1).hdr (lanePage l) hEvt = s1.hdr (lanePage l) hEvt := by
  have hp : lanePage l < 0x50 := by unfold lanePage; omega
  exact finish_hdr (by omega) (by decide) (by omega)

theorem finish_mem {o : Output} (h : o ∈ s1.sent) : o ∈ (s0.finish s1).sent := (finish_sent s0 s1).subset h

end Finish

/-- A command that ends where it began leaves all as it was. -/
theorem still_gives {c : Instr} {s s1 : State} (h : exec c s = done s s1) (hs : s1 = s) : Gives c s fun t => Frame noRegs [] s t :=
  by
  subst hs
  exact Gives.done h (Only.refl _ _ s1).frame

section Commands

variable {c : Instr} {s x : State} {q : Nat}

/-- A command that acts on a link that is up. -/
theorem exec_up (hup : s.lkUp q = true) (h : exec c s = done s (if s.lkUp q then x else s)) : exec c s = done s x :=
  h.trans (congrArg (done s) (if_pos hup))

end Commands

theorem statKey_linkKeys {q : Nat} : ∀ k, regsIn [R.LINK_STAT.key q] k → regsIn (linkKeys q) k := by
  simp [regsIn, linkStat_mem]

-- Received requests (R167, R173 to R178).

/-- A received request that this end has taken up, with NEG `n`. -/
structure Agreed (s t : State) (q : Nat) (k : NegKind) (target token n : Nat) : Prop where
  shows_ : NegShows s t q n
  core : (t.lk q).core = ((s.lk q).accepting k target token).core
  ack : .control q blkNeg (word (at_ 38 3 + at_ 36 target + at_ 28 token)) ∈ t.sent
  only : Only (regsIn [R.LINK_STAT.key q]) [.links] s t

section Accept

variable {s : State} {q target token : Nat}

theorem negAccept_wider (hw : s.lkWidth q < target) : Agreed s (s.negAccept q .width target token) q .width target token 3 := by
  have hshows := acknowledged_shows s q .width target token
  have hcore := core_acknowledged s q .width target token
  have hkind : ((s.acknowledged q .width target token).lk q).kind = .width := congrArg Link.kind hcore
  have htarget : ((s.acknowledged q .width target token).lk q).target = target := congrArg Link.target hcore
  have hready : ((s.acknowledged q .width target token).lk q).lanesReady = false := congrArg Link.lanesReady hcore
  rw [negAccept_eq, agreed_waits hkind (by rw [hshows.width, htarget]; exact hw) hready]
  refine ⟨hshows.trans (setNeg_shows _ q (by decide)), ?_, ?_, ?_⟩
  · rw [lk_setNeg, hcore]
  · rw [sent_setNeg]
    exact acknowledged_sent ..
  · exact Only.setNeg 3 (List.mem_cons_self ..) (Only.acknowledged (List.mem_cons_self ..) (by decide) (Only.refl _ _ s))

theorem negAccept_commits {k : NegKind} (hk : k = .sleep ∨ (k = .width ∧ target ≤ s.lkWidth q)) :
    Agreed s (s.negAccept q k target token) q k target token 4
      ∧ .control q blkNeg (word (at_ 38 5 + at_ 36 target + at_ 28 token)) ∈ (s.negAccept q k target token).sent := by
  have hshows := acknowledged_shows s q k target token
  have hcore := core_acknowledged s q k target token
  have hkind : ((s.acknowledged q k target token).lk q).kind = k := congrArg Link.kind hcore
  have htarget : ((s.acknowledged q k target token).lk q).target = target := congrArg Link.target hcore
  have htoken : ((s.acknowledged q k target token).lk q).token = token := congrArg Link.token hcore
  have hpeer : ((s.acknowledged q k target token).lk q).peerCommit = false := congrArg Link.peerCommit hcore
  have hcommits : s.negAccept q k target token = (s.acknowledged q k target token).committing q := by
    rw [negAccept_eq, agreed_commits (by rw [hkind, htarget, hshows.width]; exact hk.imp_right fun h => ⟨h.1, Or.inl h.2⟩),
      sendCommit_alone hpeer]
  have honly : Only (regsIn [R.LINK_STAT.key q]) [.links] (s.acknowledged q k target token) ((s.acknowledged q k target token).committing q) :=
    Only.committing (List.mem_cons_self ..) (by decide) (Only.refl _ _ _)
  rw [hcommits]
  refine ⟨⟨hshows.trans (committing_shows _ q), ?_, ?_, ?_⟩, ?_⟩
  · rw [core_committing, hcore]
  · exact honly.sent.subset (acknowledged_sent ..)
  · exact (Only.acknowledged (List.mem_cons_self ..) (by decide) (Only.refl _ _ s)).trans honly
  · have hsent := committing_sent (s.acknowledged q k target token) q
    rwa [htarget, htoken] at hsent

/-- A request refused: NAK, and no negotiation. -/
theorem negRefuse_closes (hlater : (s.lk q).later = none) :
    NegShows s (s.negRefuse q target token) q 0
      ∧ .control q blkNeg (word (at_ 38 4 + at_ 36 target + at_ 28 token)) ∈ (s.negRefuse q target token).sent
      ∧ Only (regsIn [R.LINK_STAT.key q]) [.links] s (s.negRefuse q target token) := by
  have hcore : (((s.sendNeg q 4 target token).setNeg q 0).lk q).core = (s.lk q).core := by rw [lk_setNeg, core_sendNeg]
  have hclose : s.negRefuse q target token = ((s.sendNeg q 4 target token).setNeg q 0).negClosed q :=
    negClose_none ((congrArg Link.later hcore).trans hlater)
  rw [hclose]
  refine ⟨?_, ?_, ?_⟩
  · exact (NegShows.of_eq rfl (rd_sendNeg ..)).trans ((setNeg_shows _ q (by decide)).trans (negClosed_shows _ q))
  · rw [sent_wrb, sent_setNeg, sent_setNeg]
    exact sendNeg_sent ..
  · exact (((Only.refl _ _ s).sendNeg q _ _ _ (by decide)).setNeg 0 (List.mem_cons_self ..)).negClosed (List.mem_cons_self ..)

end Accept

/-- Whether this end accepts a width (R167, R174). -/
def State.takesWidth (s : State) (q target : Nat) : Bool :=
  !s.lkSched q && s.rdb R.LINK_CFG q 4 && (if s.lkWidth q < target then true else s.utilLow q)

/-- Whether this end accepts to sleep (R167, R176). -/
def State.takesSleep (s : State) (q : Nat) : Bool :=
  !s.lkSched q && (s.lk q).replay.isEmpty && (s.lk q).txq.isEmpty && s.rdb R.LINK_CFG q 5

theorem negWidthReq_of_yields {s y : State} {q : Nat} (target token : Nat) (h : s.yields q = some y) : s.negWidthReq q target token
    = if y.takesWidth q target then y.negAccept q .width target token else y.negRefuse q target token := by
  rw [State.negWidthReq, h]
  rfl

theorem negSleepReq_of_yields {s y : State} {q : Nat} (token : Nat) (h : s.yields q = some y) : s.negSleepReq q token
    = if y.takesSleep q then y.negAccept q .sleep 0 token else y.negRefuse q 0 token := by
  rw [State.negSleepReq, h]
  rfl

theorem negRetrainReq_of_yields {s y : State} {q : Nat} (token : Nat) (h : s.yields q = some y) :
    s.negRetrainReq q token = y.negAccept q .retrain 0 token := by
  rw [State.negRetrainReq, h]

@[simp] theorem rdf_setLk (s : State) (q : Nat) (l : Link) (r : Reg) (u hi lo : Nat) : (s.setLk q l).rdf r u hi lo = s.rdf r u hi lo :=
  rdf_congr rfl r u hi lo
@[simp] theorem rdb_setLk (s : State) (q : Nat) (l : Link) (r : Reg) (u i : Nat) : (s.setLk q l).rdb r u i = s.rdb r u i :=
  rdb_congr rfl r u i
@[simp] theorem lkWidth_setLk (s : State) (q : Nat) (l : Link) (q' : Nat) : (s.setLk q l).lkWidth q' = s.lkWidth q' := rdf_setLk ..
@[simp] theorem lkSched_setLk (s : State) (q : Nat) (l : Link) (q' : Nat) : (s.setLk q l).lkSched q' = s.lkSched q' := lkSched_congr rfl q'

/-- What shows of a request that was taken up when the command has ended. -/
theorem Agreed.finish {s t : State} {q target token n : Nat} {k : NegKind} (h : Agreed s t q k target token n) (s0 : State) :
    let u := s0.finish t
    u.lkNeg q = n ∧ (u.lk q).kind = k ∧ (u.lk q).target = target ∧ (u.lk q).token = token ∧ (u.lk q).mine = false
      ∧ (u.lk q).lanesReady = false ∧ (u.lk q).later = (s.lk q).later ∧ u.lkWidth q = s.lkWidth q ∧ u.lkUp q = s.lkUp q
      ∧ .control q blkNeg (word (at_ 38 3 + at_ 36 target + at_ 28 token)) ∈ u.sent := by
  obtain ⟨hshows, hcore, hack, -⟩ := h
  have hfield {α : Type} (f : Link → α) (hf : ∀ l : Link, f l.core = f l) : f (t.lk q) = f ((s.lk q).accepting k target token) :=
    Link.of_core f hf hcore
  dsimp only
  rw [finish_lkNeg, finish_lk, finish_lkWidth, finish_lkUp]
  exact ⟨hshows.neg, hfield Link.kind fun _ => rfl, hfield Link.target fun _ => rfl, hfield Link.token fun _ => rfl,
    hfield Link.mine fun _ => rfl, hfield Link.lanesReady fun _ => rfl, hfield Link.later fun _ => rfl, hshows.width, hshows.up,
    finish_mem hack⟩

theorem takesWidth_wider {s : State} {q target : Nat} (hsched : s.lkSched q = false) (hcfg : s.rdb R.LINK_CFG q 4 = true)
    (hw : s.lkWidth q < target) : s.takesWidth q target = true := by
  simp [State.takesWidth, hsched, hcfg, hw]

theorem takesWidth_narrower {s : State} {q target : Nat} (hsched : s.lkSched q = false) (hcfg : s.rdb R.LINK_CFG q 4 = true)
    (hlow : s.utilLow q = true) : s.takesWidth q target = true := by
  simp [State.takesWidth, hsched, hcfg, hlow]

theorem takesWidth_refused {s : State} {q target : Nat}
    (h : s.lkSched q = true ∨ s.rdb R.LINK_CFG q 4 = false ∨ (target ≤ s.lkWidth q ∧ s.utilLow q = false)) :
    s.takesWidth q target = false := by
  rcases h with h | h | ⟨hw, hlow⟩
  · simp [State.takesWidth, h]
  · simp [State.takesWidth, h]
  · simp [State.takesWidth, hlow, Nat.not_lt.mpr hw]

theorem takesSleep_idle {s : State} {q : Nat} (hsched : s.lkSched q = false) (hreplay : (s.lk q).replay = []) (htxq : (s.lk q).txq = [])
    (hcfg : s.rdb R.LINK_CFG q 5 = true) : s.takesSleep q = true := by
  simp [State.takesSleep, hsched, hreplay, htxq, hcfg]

theorem takesSleep_refused {s : State} {q : Nat}
    (h : s.lkSched q = true ∨ (s.lk q).replay ≠ [] ∨ (s.lk q).txq ≠ [] ∨ s.rdb R.LINK_CFG q 5 = false) : s.takesSleep q = false := by
  rcases h with h | h | h | h <;> simp [State.takesSleep, h]

end Sys2Proof.Machine

/-! PROOFS. What the messages and events of a negotiation give (R173 to R178); with these, O19. -/

namespace Sys2Proof.Machine

-- Received requests, by what they give (R173 to R178).

/-- What a command gives, by less that it gives. -/
theorem Gives.imp {c : Instr} {s : State} {P Q : State → Prop} (h : Gives c s P) (hPQ : ∀ t, P t → Q t) : Gives c s Q := by
  obtain ⟨t, ht, hP⟩ := h
  exact ⟨t, ht, hPQ t hP⟩

/-- A frame, widened. -/
theorem Frame.mono {K L : Nat → Prop} {ps qs : List Part} {s t : State} (hK : ∀ k, K k → L k) (hp : ∀ p, p ∈ ps → p ∈ qs)
    (h : Frame K ps s t) : Frame L qs s t := by
  obtain ⟨hregs, hparts, hsent⟩ := h
  exact ⟨fun k hk => hregs k (mt (hK k) hk), fun p hq => hparts p (mt (hp p) hq), hsent⟩

theorem at_zero (n : Nat) : at_ n 0 = 0 := Nat.zero_mul _

/-- A command that takes up a request after this end has yielded to it. -/
theorem taken_gives {c : Instr} {s y u : State} {q target token n : Nat} {k : NegKind} (hexec : exec c s = done s u)
    (hagreed : Agreed y u q k target token n) (honly : Only (regsIn (linkKeys q)) [.links] s y) : Gives c s fun t =>
      (t.lkNeg q = n ∧ (t.lk q).kind = k ∧ (t.lk q).target = target ∧ (t.lk q).token = token ∧ (t.lk q).mine = false
        ∧ (t.lk q).lanesReady = false ∧ (t.lk q).later = (y.lk q).later ∧ t.lkWidth q = y.lkWidth q ∧ t.lkUp q = y.lkUp q
        ∧ .control q blkNeg (word (at_ 38 3 + at_ 36 target + at_ 28 token)) ∈ t.sent)
      ∧ (∀ o ∈ u.sent, o ∈ t.sent) ∧ Frame (regsIn (linkKeys q)) [.links] s t :=
  Gives.done hexec ⟨hagreed.finish s, fun _ => finish_mem,
    (honly.trans (hagreed.only.mono statKey_linkKeys fun _ h => h)).frame⟩

/-- A command that refuses a request. -/
theorem negRefuse_gives {c : Instr} {s : State} {q target token : Nat} (hexec : exec c s = done s (s.negRefuse q target token))
    (hlater : (s.lk q).later = none) : Gives c s fun t => t.lkNeg q = 0 ∧ t.lkWidth q = s.lkWidth q ∧ t.lkUp q = s.lkUp q
      ∧ .control q blkNeg (word (at_ 38 4 + at_ 36 target + at_ 28 token)) ∈ t.sent ∧ Frame (regsIn (linkKeys q)) [.links] s t := by
  obtain ⟨hshows, hnak, honly⟩ := negRefuse_closes (target := target) (token := token) hlater
  refine Gives.done hexec ⟨?_, ?_, ?_, finish_mem hnak, (honly.mono statKey_linkKeys fun _ h => h).frame⟩
  · rw [finish_lkNeg, hshows.neg]
  · rw [finish_lkWidth, hshows.width]
  · rw [finish_lkUp, hshows.up]

/-- This end abandoning its own request changes its link's part alone. -/
theorem abandoning_only (s : State) (q : Nat) : Only (regsIn (linkKeys q)) [.links] s (s.abandoning q) :=
  (Only.refl _ _ s).setLk q _ (by decide)

theorem later_abandoning (s : State) (q : Nat) :
    ((s.abandoning q).lk q).later = some ((s.lk q).kind, (s.lk q).target, (s.lk q).cause) := by rw [lk_setLk_self]

section WidthReq

variable {s : State} {q : Fin 256} {x : BitVec 2} {k : BitVec 8}

theorem exec_negWidthReq {y : State} (hup : s.lkUp q = true) (hyields : s.yields q = some y) :
    exec (.negWidthReq q x k) s = done s (if y.takesWidth q x.toNat then y.negAccept q .width x.toNat k.toNat
      else y.negRefuse q x.toNat k.toNat) :=
  (exec_up hup rfl).trans (congrArg (done s) (negWidthReq_of_yields x.toNat k.toNat hyields))

theorem exec_negWidthReq_takes {y : State} (hup : s.lkUp q = true) (hyields : s.yields q = some y)
    (htakes : y.takesWidth q x.toNat = true) :
    exec (.negWidthReq q x k) s = done s (y.negAccept q .width x.toNat k.toNat) :=
  (exec_negWidthReq hup hyields).trans (congrArg (done s) (if_pos htakes))

theorem exec_negSleepReq_takes {y : State} (hup : s.lkUp q = true) (hyields : s.yields q = some y) (htakes : y.takesSleep q = true) :
    exec (.negSleepReq q k) s = done s (y.negAccept q .sleep 0 k.toNat) :=
  (exec_up hup rfl).trans (congrArg (done s) ((negSleepReq_of_yields k.toNat hyields).trans (if_pos htakes)))

/-- A received request that this end may not yield to is ignored. -/
theorem request_ignored (h : s.lkUp q = false ∨ (s.lkNeg q = 1 ∧ s.leads q = true)
      ∨ (s.lkNeg q ≠ 0 ∧ s.lkNeg q ≠ 1 ∧ s.lkNeg q ≠ 6)) :
    (if s.lkUp q then s.negWidthReq q x.toNat k.toNat else s) = s ∧ (if s.lkUp q then s.negSleepReq q k.toNat else s) = s
      ∧ (if s.lkUp q then s.negRetrainReq q k.toNat else s) = s := by
  rcases h with hup | hyields
  · simp [hup]
  · simp [State.negWidthReq, State.negSleepReq, State.negRetrainReq, yields_refused hyields]

end WidthReq

/-- A received `RETRAIN_REQ` that this end yields to: `ACK`, and the link in LOCK with the peer's cause. -/
theorem retrainReq_gives {s y : State} {q : Fin 256} {k : BitVec 8} (hup : s.lkUp q = true) (hyields : s.yields q = some y)
    (honly : Only (regsIn (linkKeys q ++ reportKeys)) [.links, .bitt] s y) :
    Gives (.negRetrainReq q k) s fun t => t.lkState q = lkLock ∧ t.lkNeg q = 0 ∧ t.rdf R.LINK_STAT q 47 40 = cPeer
      ∧ (t.lk q).later = (y.lk q).later ∧ .control q blkNeg (word (at_ 38 3 + at_ 28 k.toNat)) ∈ t.sent
      ∧ bit (t.hdr (brinePage q) hEvt) 4 = true ∧ Frame (regsIn (linkKeys q ++ reportKeys)) [.links, .bitt] s t := by
  have hcore := core_acknowledged y q .retrain 0 k.toNat
  have hack := acknowledged_sent y q .retrain 0 k.toNat
  rw [at_zero, Nat.add_zero] at hack
  have hacked : Only (regsIn (linkKeys q ++ reportKeys)) [.links, .bitt] s (y.acknowledged q .retrain 0 k.toNat) :=
    Only.acknowledged (by simp [regsIn, linkStat_mem]) (by decide) honly
  have hkind : ((y.acknowledged q .retrain 0 k.toNat).lk q).kind = .retrain := Link.of_core Link.kind (fun _ => rfl) hcore
  have hcause : ((y.acknowledged q .retrain 0 k.toNat).lk q).cause = cPeer := Link.of_core Link.cause (fun _ => rfl) hcore
  have hlater : ((y.acknowledged q .retrain 0 k.toNat).lk q).later = (y.lk q).later :=
    (Link.of_core Link.later (fun _ => rfl) hcore).trans rfl
  have haccept := (negAccept_eq y q .retrain 0 k.toNat).trans (agreed_retrain hkind)
  rw [hcause] at haccept
  generalize y.acknowledged q .retrain 0 k.toNat = a at hlater hack hacked haccept
  have hevt : bit ((a.raise (brinePage q) 4).hdr (brinePage q) hEvt) 4 = true := hdr_raise (by decide)
  have hraise : Only (regsIn (linkKeys q ++ reportKeys)) [.links, .bitt] s (a.raise (brinePage q) 4) :=
    hacked.raise (by simp [regsIn, linkEvt_mem])
  have hlk : (a.raise (brinePage q) 4).lk q = a.lk q := lk_raise ..
  have hsent : .control q blkNeg (word (at_ 38 3 + at_ 28 k.toNat)) ∈ (a.raise (brinePage q) 4).sent := by rwa [raise_sent]
  generalize a.raise (brinePage q) 4 = r at haccept hevt hraise hlk hsent
  have hretrain : Only (regsIn (linkKeys q ++ reportKeys)) [.links, .bitt] r (r.lkRetrain q cPeer) :=
    Only.lkRetrain q (by simp +contextual [regsIn]) (by decide) (fun _ => ⟨by simp +contextual [regsIn], by decide⟩) (Only.refl _ _ r)
  refine Gives.done ((exec_up hup rfl).trans (congrArg (done s) ((negRetrainReq_of_yields k.toNat hyields).trans haccept)))
    ⟨?_, ?_, ?_, ?_, ?_, ?_, ?_⟩
  · rw [finish_lkState, lkRetrain_state]
  · rw [finish_lkNeg, (lkRetrain_down ..).neg]
  · rw [finish_rdf (by decide), (lkRetrain_down ..).cause (by decide)]
    rfl
  · rw [finish_lk, Link.of_core Link.later (fun _ => rfl) (lkRetrain_core r q cPeer)]
    exact (congrArg Link.later hlk).trans hlater
  · exact finish_mem (hretrain.sent.subset hsent)
  · rw [finish_linkEvt q.isLt]
    exact lkRetrain_stands cPeer hevt
  · exact (hraise.trans hretrain).frame

-- Answers, COMMIT and the ends of negotiations, by what they give (R173, R175 to R178).

/-- What a negotiation committed to a width shows. -/
structure WidthDone (s t : State) (q w : Nat) : Prop where
  width : t.lkWidth q = w
  neg : t.lkNeg q = 0
  up : t.lkUp q = s.lkUp q
  count : t.rdf R.NEG_COUNT q 15 0 = min (s.rdf R.NEG_COUNT q 15 0 + 1) 65535
  event : bit (t.hdr (brinePage q) hEvt) 4 = true
  only : Only (regsIn (linkKeys q)) [.links] s t

theorem committed_widthDone {s : State} {q : Nat} (hkind : (s.lk q).kind = .width) (hw : (s.lk q).target ≤ 2)
    (hlater : (s.lk q).later = none) : WidthDone s (s.committed q) q (s.lk q).target := by
  generalize hx : (s.setWidth q (s.lk q).target).countf R.NEG_COUNT q 15 0 = x
  have hstat : x.rd R.LINK_STAT q = setFld (s.rd R.LINK_STAT q) 17 16 (s.lk q).target := by
    rw [← hx, State.countf, rd_wr_ne (by decide) (by decide) (by decide), rd_setWidth_stat]
  have hcount : x.rdf R.NEG_COUNT q 15 0 = min (s.rdf R.NEG_COUNT q 15 0 + 1) 65535 := by
    rw [← hx, rdf_countf (by decide) (by decide) (by decide), State.rdf, rd_setWidth (by decide) (by decide) (by decide), ← State.rdf]
  have hcore : (x.lk q).core = (s.lk q).core := by rw [← hx, lk_countf, core_setWidth]
  have honly : Only (regsIn (linkKeys q)) [.links] s x :=
    hx ▸ ((Only.refl _ _ s).setWidth q hw (fun _ hk => hk) (by decide)).wr _ (negCount_mem q)
  have hend : s.committed q = (x.raise (brinePage q) 4).negClosed q := by
    rw [committed_width hkind, hx, State.negDone]
    exact negClose_none (by rw [lk_raise, Link.of_core Link.later (fun _ => rfl) hcore, hlater])
  have hshows : NegShows x (s.committed q) q 0 :=
    hend ▸ (NegShows.of_eq rfl (rd_raise (by decide))).trans (negClosed_shows _ q)
  refine ⟨?_, hshows.neg, ?_, ?_, ?_, ?_⟩
  · rw [hshows.width, State.lkWidth, State.rdf, hstat, fld_setFld (by decide) (by decide)]
    exact Nat.mod_eq_of_lt (by omega)
  · rw [hshows.up, State.lkUp, State.lkState, State.rdf, hstat, fld_setFld_ne (by decide) (by decide) (by decide)]
    rfl
  · rw [hend, State.rdf, State.negClosed, State.setNeg, State.wrb, State.wrf, rd_wr_ne (by decide) (by decide) (by decide),
      rd_wr_ne (by decide) (by decide) (by decide), rd_raise (by decide), ← State.rdf, hcount]
  · rw [hend, State.negClosed, State.setNeg, State.wrb, State.wrf, hdr_wr_evt (by decide), hdr_wr_evt (by decide)]
    exact hdr_raise (by decide)
  · exact hend ▸ (honly.raise (linkEvt_mem q)).negClosed (linkStat_mem q)

theorem widthDone_gives {c : Instr} {s y u : State} {q : Fin 256} {w : Nat} (hexec : exec c s = done s u) (h : WidthDone y u q w)
    (honly : Only (regsIn (linkKeys q)) [.links] s y) : Gives c s fun t => t.lkWidth q = w ∧ t.lkNeg q = 0 ∧ t.lkUp q = y.lkUp q
      ∧ t.rdf R.NEG_COUNT q 15 0 = min (y.rdf R.NEG_COUNT q 15 0 + 1) 65535 ∧ bit (t.hdr (brinePage q) hEvt) 4 = true
      ∧ Frame (regsIn (linkKeys q)) [.links] s t := by
  obtain ⟨hwidth, hneg, hup, hcount, hevent, hfrom⟩ := h
  refine Gives.done hexec ⟨?_, ?_, ?_, ?_, ?_, (honly.trans hfrom).frame⟩
  · rw [finish_lkWidth, hwidth]
  · rw [finish_lkNeg, hneg]
  · rw [finish_lkUp, hup]
  · rw [finish_rdf (by decide), hcount]
  · rw [finish_linkEvt q.isLt, hevent]

/-- `COMMIT` of a sleep with this end's own: SLEEP. -/
theorem sleepDone_gives {c : Instr} {s : State} {q : Fin 256} (hexec : exec c s = done s (s.committed q)) (hkind : (s.lk q).kind = .sleep) :
    Gives c s fun t => t.lkState q = lkSleep ∧ t.lkNeg q = 0
      ∧ t.rdf R.NEG_COUNT q 47 32 = min (s.rdf R.NEG_COUNT q 47 32 + 1) 65535 ∧ bit (t.hdr (brinePage q) hEvt) 4 = true
      ∧ Frame (regsIn (linkKeys q)) [.links] s t := by
  rw [committed_sleep hkind] at hexec
  have hneg := (negClosed_shows ((s.countf R.NEG_COUNT q 47 32).raise (brinePage q) 4) q).neg
  refine Gives.done hexec ⟨?_, ?_, ?_, ?_, ?_⟩
  · rw [finish_lkState, State.lkState, State.rdf, rd_setLkState_stat, fld_setFld (by decide) (by decide)]
    rfl
  · rw [finish_lkNeg, State.lkNeg, State.rdf, rd_setLkState_stat, fld_setFld_ne (by decide) (by decide) (by decide)]
    exact hneg
  · rw [finish_rdf (by decide), State.rdf, rd_setLkState (by decide) (by decide) (by decide), State.negClosed, State.setNeg,
      State.wrb, State.wrf, rd_wr_ne (by decide) (by decide) (by decide), rd_wr_ne (by decide) (by decide) (by decide),
      rd_raise (by decide), ← State.rdf, rdf_countf (by decide) (by decide) (by decide)]
  · rw [finish_linkEvt q.isLt, hdr_setLkState, State.negClosed, State.setNeg, State.wrb, State.wrf, hdr_wr_evt (by decide),
      hdr_wr_evt (by decide)]
    exact hdr_raise (by decide)
  · exact Only.frame (Only.setLkState q _ (fun _ hk => hk) (by decide) (Only.negClosed (linkStat_mem q)
      (Only.raise (linkEvt_mem q) (Only.wr _ (negCount_mem q) (Only.refl _ _ s)))))

section Close

variable {c : Instr} {s : State} {q : Nat}

/-- A negotiation closed with no request noted for later. -/
theorem close_gives (hexec : exec c s = done s (s.negClose q)) (hlater : (s.lk q).later = none) : Gives c s fun t =>
      t.lkNeg q = 0 ∧ t.rdb R.LINK_STAT q 30 = false ∧ t.lkUp q = s.lkUp q ∧ t.lkWidth q = s.lkWidth q
      ∧ Frame (regsIn [R.LINK_STAT.key q]) [] s t := by
  have hshows := negClosed_shows s q
  rw [negClose_none hlater] at hexec
  refine Gives.done hexec ⟨?_, ?_, ?_, ?_, ?_⟩
  · rw [finish_lkNeg, hshows.neg]
  · rw [finish_rdb (by decide), State.negClosed, rdb_wrb_self (by decide)]
  · rw [finish_lkUp, hshows.up]
  · rw [finish_lkWidth, hshows.width]
  · exact ((Only.refl _ _ s).negClosed (List.mem_cons_self ..)).frame

/-- A command by which this end requests. -/
theorem request_gives {y u : State} {k : NegKind} {target cause : Nat} (hexec : exec c s = done s u)
    (h : Requested y u q k target cause) (honly : Only (regsIn [R.LINK_STAT.key q]) [.links] s y) : Gives c s fun t =>
      t.lkNeg q = 1 ∧ (t.lk q).kind = k ∧ (t.lk q).target = target ∧ (t.lk q).cause = cause ∧ (t.lk q).token = (y.lk q).nextToken
      ∧ (t.lk q).mine = true ∧ (t.lk q).later = (y.lk q).later ∧ t.rdb R.LINK_STAT q 30 = true
      ∧ .control q blkNeg (word (at_ 38 k.code + at_ 36 target + at_ 28 (y.lk q).nextToken)) ∈ t.sent
      ∧ Frame (regsIn [R.LINK_STAT.key q]) [.links] s t := by
  obtain ⟨hshows, hopen, ⟨n, hn⟩, hsent, hfrom⟩ := h
  have hlk : (s.finish u).lk q = { (y.lk q).asking k target cause with txBlk := n } := (finish_lk ..).trans hn
  refine Gives.done hexec ?_
  rw [hlk, finish_lkNeg, finish_rdb (by decide)]
  exact ⟨hshows.neg, rfl, rfl, rfl, rfl, rfl, rfl, hopen, finish_mem hsent, (honly.trans hfrom).frame⟩

/-- A negotiation closed with a retrain noted for later, which is then requested. -/
theorem closeThenRetrain_gives {n : Nat} (hexec : exec c s = done s (s.negClose q)) (hlater : (s.lk q).later = some (.retrain, 0, n))
    (hup : s.lkUp q = true) : Gives c s fun t => t.lkNeg q = 1 ∧ (t.lk q).kind = .retrain ∧ (t.lk q).cause = n
      ∧ (t.lk q).later = none ∧ Frame (regsIn [R.LINK_STAT.key q]) [.links] s t := by
  have hneg : ((s.negClosed q).setLk q { s.lk q with later := none }).lkNeg q = 0 := (rdf_setLk ..).trans (negClosed_shows s q).neg
  have honly : Only (regsIn [R.LINK_STAT.key q]) [.links] s ((s.negClosed q).setLk q { s.lk q with later := none }) :=
    ((Only.refl _ _ s).negClosed (List.mem_cons_self ..)).setLk q _ (by decide)
  rw [negClose_retrain hlater hup] at hexec
  refine (request_gives hexec (negRequest_opens .retrain 0 n (Or.inl hneg)) honly).imp fun t ht => ?_
  obtain ⟨hn, hkind, -, hcause, -, -, hlater, -, -, hframe⟩ := ht
  exact ⟨hn, hkind, hcause, hlater.trans (by rw [lk_setLk_self]), hframe⟩

end Close

section Ack

variable {s : State} {q : Fin 256} {k : BitVec 8}

/-- `ACK` with the token makes the requester agreed. -/
theorem exec_negAck (hup : s.lkUp q = true) (hneg : s.lkNeg q = 1) (htoken : (s.lk q).token = k.toNat) :
    exec (.negAck q k) s = done s ((s.setNeg q 3).agreed q) :=
  (exec_up hup rfl).trans (congrArg (done s) (if_pos ⟨hneg, htoken⟩))

theorem setNeg_only (s : State) (q n : Nat) : Only (regsIn [R.LINK_STAT.key q]) [] s (s.setNeg q n) :=
  (Only.refl _ _ s).setNeg n (List.mem_cons_self ..)

theorem ack_commits (hup : s.lkUp q = true) (hneg : s.lkNeg q = 1) (htoken : (s.lk q).token = k.toNat)
    (hkind : (s.lk q).kind = .sleep ∨ ((s.lk q).kind = .width ∧ ((s.lk q).target ≤ s.lkWidth q ∨ (s.lk q).lanesReady = true)))
    (hpeer : (s.lk q).peerCommit = false) : Gives (.negAck q k) s fun t => t.lkNeg q = 4 ∧ t.lkUp q = true
      ∧ t.lkWidth q = s.lkWidth q ∧ .control q blkNeg (word (at_ 38 5 + at_ 36 (s.lk q).target + at_ 28 k.toNat)) ∈ t.sent
      ∧ Frame (regsIn [R.LINK_STAT.key q]) [.links] s t := by
  have hlk : (s.setNeg q 3).lk q = s.lk q := lk_setNeg ..
  have hset := setNeg_shows s q (n := 3) (by decide)
  have hagreed : (s.setNeg q 3).agreed q = (s.setNeg q 3).committing q := by
    rw [agreed_commits (by rwa [hlk, hset.width]), sendCommit_alone (by rw [hlk, hpeer])]
  have hshows := hset.trans (committing_shows (s.setNeg q 3) q)
  have hsent := committing_sent (s.setNeg q 3) q
  rw [hlk, htoken] at hsent
  refine Gives.done ((exec_negAck hup hneg htoken).trans (congrArg (done s) hagreed)) ⟨?_, ?_, ?_, finish_mem hsent, ?_⟩
  · rw [finish_lkNeg, hshows.neg]
  · rw [finish_lkUp, hshows.up, hup]
  · rw [finish_lkWidth, hshows.width]
  · exact (Only.committing (List.mem_cons_self ..) (by decide) ((setNeg_only s q 3).mono (fun _ h => h) (by simp))).frame

theorem ack_waits (hup : s.lkUp q = true) (hneg : s.lkNeg q = 1) (htoken : (s.lk q).token = k.toNat)
    (hkind : (s.lk q).kind = .width) (hw : s.lkWidth q < (s.lk q).target) (hready : (s.lk q).lanesReady = false) :
    Gives (.negAck q k) s fun t => t.lkNeg q = 3 ∧ t.lkWidth q = s.lkWidth q ∧ Frame (regsIn [R.LINK_STAT.key q]) [] s t := by
  have hlk : (s.setNeg q 3).lk q = s.lk q := lk_setNeg ..
  have hset := setNeg_shows s q (n := 3) (by decide)
  have hagreed : (s.setNeg q 3).agreed q = (s.setNeg q 3).setNeg q 3 :=
    agreed_waits (by rw [hlk, hkind]) (by rwa [hlk, hset.width]) (by rw [hlk, hready])
  have hshows := hset.trans (setNeg_shows (s.setNeg q 3) q (n := 3) (by decide))
  refine Gives.done ((exec_negAck hup hneg htoken).trans (congrArg (done s) hagreed)) ⟨?_, ?_, ?_⟩
  · rw [finish_lkNeg, hshows.neg]
  · rw [finish_lkWidth, hshows.width]
  · exact ((setNeg_only s q 3).setNeg 3 (List.mem_cons_self ..)).frame

theorem ack_retrains (hup : s.lkUp q = true) (hneg : s.lkNeg q = 1) (htoken : (s.lk q).token = k.toNat)
    (hkind : (s.lk q).kind = .retrain) : Gives (.negAck q k) s fun t => t.lkState q = lkLock
      ∧ t.lkNeg q = 0 ∧ ((s.lk q).cause ≠ 0 → t.rdf R.LINK_STAT q 47 40 = (s.lk q).cause % 256)
      ∧ bit (t.hdr (brinePage q) hEvt) 4 = true ∧ Frame (regsIn (linkKeys q ++ reportKeys)) [.links, .bitt] s t := by
  have hlk : (s.setNeg q 3).lk q = s.lk q := lk_setNeg ..
  have hagreed : (s.setNeg q 3).agreed q = ((s.setNeg q 3).raise (brinePage q) 4).lkRetrain q (s.lk q).cause := by
    rw [agreed_retrain (by rw [hlk, hkind]), hlk]
  have hdown := lkRetrain_down ((s.setNeg q 3).raise (brinePage q) 4) q (s.lk q).cause
  have hraise : Only (regsIn (linkKeys q ++ reportKeys)) [.links, .bitt] s ((s.setNeg q 3).raise (brinePage q) 4) :=
    Only.raise (by simp [regsIn, linkEvt_mem]) ((Only.refl _ _ s).setNeg 3 (by simp [regsIn, linkStat_mem]))
  refine Gives.done ((exec_negAck hup hneg htoken).trans (congrArg (done s) hagreed)) ⟨?_, ?_, fun hcause => ?_, ?_, ?_⟩
  · rw [finish_lkState, lkRetrain_state]
  · rw [finish_lkNeg, hdown.neg]
  · rw [finish_rdf (by decide), hdown.cause hcause]
  · rw [finish_linkEvt q.isLt]
    exact lkRetrain_stands _ (hdr_raise (by decide))
  · exact (Only.lkRetrain q (by simp +contextual [regsIn]) (by decide) (fun _ => ⟨by simp +contextual [regsIn], by decide⟩) hraise).frame

end Ack

section Wake

variable {c : Instr} {s : State} {q : Fin 256}

/-- A sleeping link enters WAKE, after what it has emitted. -/
theorem wake_gives {u : State} (hexec : exec c s = done s (u.setLkState q lkWake))
    (honly : Only (regsIn (linkKeys q)) [.links] s u) : Gives c s fun t =>
      t.lkState q = lkWake ∧ t.lkNeg q = u.lkNeg q ∧ t.rdb R.LINK_STAT q 30 = u.rdb R.LINK_STAT q 30
      ∧ (∀ o ∈ u.sent, o ∈ t.sent) ∧ Frame (regsIn (linkKeys q)) [.links] s t := by
  have hsent := (Only.setLkState (K := regsIn (linkKeys q)) (ps := [.links]) q.val lkWake (fun _ hk => hk) (by decide) (Only.refl _ _ u)).sent
  refine Gives.done hexec ⟨?_, ?_, ?_, fun o ho => finish_mem (hsent.subset ho), (honly.setLkState q _ (fun _ hk => hk) (by decide)).frame⟩
  · rw [finish_lkState, State.lkState, State.rdf, rd_setLkState_stat, fld_setFld (by decide) (by decide)]
    rfl
  · rw [finish_lkNeg, State.lkNeg, State.rdf, rd_setLkState_stat, fld_setFld_ne (by decide) (by decide) (by decide)]
    rfl
  · rw [finish_rdb (by decide), State.rdb, rd_setLkState_stat, bit_setFld_ne (by decide) (by decide) (by decide)]
    rfl

/-- A wake event of a sleeping link (R177). -/
theorem wakeUp_sleeping {s : State} {q : Nat} (h : s.lkState q = lkSleep) :
    s.wakeUp q = (s.emit (.laneEvent (4 * q) 1 0)).setLkState q lkWake := if_pos h

/-- `ABORT` sent and counted (R177). -/
def State.aborting (s : State) (q : Nat) : State := (s.sendNeg q 6 0 (s.lk q).token).countf R.NEG_COUNT q 31 16

theorem wakeUp_agreed {s : State} {q : Nat} (hup : s.lkUp q = true) (hkind : (s.lk q).kind = .sleep) (hneg : s.lkNeg q = 3 ∨ s.lkNeg q = 4) :
    s.wakeUp q = (s.aborting q).setNeg q 6 := by
  have hst : s.lkState q ≠ lkSleep := fun h => by simp [State.lkUp, h, lkSleep, lkActive] at hup
  rw [State.wakeUp]
  simp only [hst, if_false, hup, hkind, and_self, if_true]
  rcases hneg with h | h <;> simp [h, State.aborting]

theorem wakeUp_requesting {s : State} {q : Nat} (hup : s.lkUp q = true) (hkind : (s.lk q).kind = .sleep) (hneg : s.lkNeg q = 1) :
    s.wakeUp q = (s.aborting q).negClose q := by
  have hst : s.lkState q ≠ lkSleep := fun h => by simp [State.lkUp, h, lkSleep, lkActive] at hup
  rw [State.wakeUp]
  simp only [hst, if_false, hup, hkind, hneg, and_self, if_true, State.aborting]

theorem wakeUp_still {s : State} {q : Nat} (hst : s.lkState q ≠ lkSleep) (h : s.lkUp q = false ∨ (s.lk q).kind ≠ .sleep ∨ s.lkNeg q = 0) :
    s.wakeUp q = s := by
  rw [State.wakeUp]
  rcases h with h | h | h <;> simp [hst, h]

section Aborting

variable (s : State) (q : Nat)

theorem aborting_shows : NegShows s (s.aborting q) q (s.lkNeg q) := by
  refine NegShows.of_eq rfl ?_
  rw [State.aborting, State.countf, rd_wr_ne (by decide) (by decide) (by decide), rd_sendNeg]

theorem core_aborting : ((s.aborting q).lk q).core = (s.lk q).core := by rw [State.aborting, lk_countf, core_sendNeg]

theorem aborting_counts : (s.aborting q).rdf R.NEG_COUNT q 31 16 = min (s.rdf R.NEG_COUNT q 31 16 + 1) 65535 := by
  rw [State.aborting, rdf_countf (by decide) (by decide) (by decide), State.rdf, rd_sendNeg, ← State.rdf]

theorem aborting_sent : .control q blkNeg (word (at_ 38 6 + at_ 28 (s.lk q).token)) ∈ (s.aborting q).sent := by
  have h := sendNeg_sent s q 6 0 (s.lk q).token
  rwa [at_zero, Nat.add_zero] at h

theorem aborting_only : Only (regsIn [R.LINK_STAT.key q, R.NEG_COUNT.key q]) [.links] s (s.aborting q) :=
  ((Only.refl _ _ s).sendNeg q _ _ _ (by decide)).wr _ (by simp [regsIn])

end Aborting

/-- A wake event in a sleep negotiation (R177): `ABORT`, then what this end makes of NEG. -/
theorem abort_gives {u : State} {n : Nat} (hexec : exec c s = done s u) (hshows : NegShows s u q n)
    (hu : Only (regsIn [R.LINK_STAT.key q]) [] (s.aborting q) u) : Gives c s fun t => t.lkNeg q = n ∧ t.lkUp q = s.lkUp q
      ∧ .control q blkNeg (word (at_ 38 6 + at_ 28 (s.lk q).token)) ∈ t.sent
      ∧ t.rdf R.NEG_COUNT q 31 16 = min (s.rdf R.NEG_COUNT q 31 16 + 1) 65535
      ∧ Frame (regsIn [R.LINK_STAT.key q, R.NEG_COUNT.key q]) [.links] s t := by
  have hcount : R.NEG_COUNT.key q.val ∉ [R.LINK_STAT.key q.val] := by
    simpa using Reg.key_ne_key (r := R.NEG_COUNT) (q := R.LINK_STAT) (by decide) (by decide) (by decide)
  refine Gives.done hexec ⟨?_, ?_, finish_mem (hu.sent.subset (aborting_sent s q)), ?_, ?_⟩
  · rw [finish_lkNeg, hshows.neg]
  · rw [finish_lkUp, hshows.up]
  · rw [finish_rdf (by decide), State.rdf, State.rd, hu.getReg hcount]
    exact aborting_counts s q
  · exact ((aborting_only s q).trans (hu.mono (by simp +contextual [regsIn]) (by simp))).frame

/-- The short training of WAKE is done: ACTIVE without LINK_UP. -/
theorem wakeDone_gives {u : State} {w : Nat} {us : Word} (hexec : exec c s = done s ((u.lkActivate q w).wr R.TRAIN_TIME q us))
    (hw : w ≤ 2) (hwake : u.lkState q = lkWake) (hlater : (u.lk q).later = none)
    (hon : (quadLanes q (lanesOf w)).any u.prbsOn = false)
    (honly : Only (regsIn (R.TRAIN_TIME.key q :: linkKeys q)) [.links] s u) : Gives c s fun t => t.lkUp q = true ∧ t.lkWidth q = w
      ∧ (t.lk q).agreed = (u.lk q).agreed ∧ t.rd R.TRAIN_TIME q = us ∧ t.hdr (brinePage q) hEvt = u.hdr (brinePage q) hEvt
      ∧ Frame (regsIn (R.TRAIN_TIME.key q :: linkKeys q)) [.links] s t := by
  rw [lkActivate_woken hw hwake hlater hon] at hexec
  have hstat : ((u.atWidth q w).wr R.TRAIN_TIME q us).rd R.LINK_STAT q = (u.atWidth q w).rd R.LINK_STAT q :=
    rd_wr_ne (by decide) (by decide) (by decide)
  refine Gives.done hexec ⟨?_, ?_, ?_, ?_, ?_, ?_⟩
  · rw [finish_lkUp, lkUp_congr hstat, State.lkUp, lkState_atWidth]
    rfl
  · rw [finish_lkWidth, State.lkWidth, State.rdf, hstat]
    exact lkWidth_atWidth hw
  · rw [finish_lk, lk_wr, Link.of_core Link.agreed (fun _ => rfl) (core_atWidth u q w)]
  · rw [finish_rd (by decide), rd_wr_self]
  · rw [finish_linkEvt q.isLt, hdr_wr_evt (by decide), hdr_atWidth]
  · exact Only.frame (Only.wr _ (List.mem_cons_self ..) (honly.atWidth q hw (fun _ hk => List.mem_cons_of_mem _ hk) (by decide)))

end Wake

/-- A received `SLEEP_REQ` that this end takes up: `ACK` and its `COMMIT` at once. -/
theorem sleepReq_commits {s y : State} {q : Fin 256} {k : BitVec 8} (hup : s.lkUp q = true) (hyields : s.yields q = some y)
    (htakes : y.takesSleep q = true) (honly : Only (regsIn (linkKeys q)) [.links] s y) : Gives (.negSleepReq q k) s fun t =>
      t.lkNeg q = 4 ∧ (t.lk q).kind = .sleep ∧ (t.lk q).token = k.toNat ∧ (t.lk q).mine = false ∧ (t.lk q).later = (y.lk q).later
      ∧ t.lkUp q = y.lkUp q ∧ .control q blkNeg (word (at_ 38 3 + at_ 28 k.toNat)) ∈ t.sent
      ∧ .control q blkNeg (word (at_ 38 5 + at_ 28 k.toNat)) ∈ t.sent ∧ Frame (regsIn (linkKeys q)) [.links] s t := by
  obtain ⟨hagreed, hcommit⟩ := negAccept_commits (s := y) (q := q) (target := 0) (token := k.toNat) (k := .sleep) (Or.inl rfl)
  refine (taken_gives (exec_negSleepReq_takes hup hyields htakes) hagreed honly).imp fun t ht => ?_
  obtain ⟨⟨hneg, hkind, -, htoken, hmine, -, hlater, -, hlink, hack⟩, hsent, hframe⟩ := ht
  rw [at_zero, Nat.add_zero] at hack hcommit
  exact ⟨hneg, hkind, htoken, hmine, hlater, hlink, hack, hsent _ hcommit, hframe⟩

/-- The lanes of a wider link are ready: the agreed end commits (R175). -/
theorem exec_lanesReady {s : State} {q : Fin 256} (hup : s.lkUp q = true) (hneg : s.lkNeg q = 3) (hkind : (s.lk q).kind = .width) :
    exec (.widthIncreaseLanesReady q) s = done s ((s.setLk q { s.lk q with lanesReady := true }).sendCommit q) :=
  Eq.trans rfl (congrArg (done s) (if_pos ⟨hup, hneg, hkind⟩))

theorem lanesReady_commits {s : State} {q : Fin 256} (hup : s.lkUp q = true) (hneg : s.lkNeg q = 3) (hkind : (s.lk q).kind = .width)
    (hpeer : (s.lk q).peerCommit = false) : Gives (.widthIncreaseLanesReady q) s fun t => t.lkNeg q = 4 ∧ (t.lk q).lanesReady = true
      ∧ .control q blkNeg (word (at_ 38 5 + at_ 36 (s.lk q).target + at_ 28 (s.lk q).token)) ∈ t.sent
      ∧ Frame (regsIn [R.LINK_STAT.key q]) [.links] s t := by
  have hexec := exec_lanesReady hup hneg hkind
  generalize hy : s.setLk q { s.lk q with lanesReady := true } = y at hexec
  have hlk : y.lk q = { s.lk q with lanesReady := true } := hy ▸ lk_setLk_self ..
  have honly : Only (regsIn [R.LINK_STAT.key q]) [.links] s y := hy ▸ (Only.refl _ _ s).setLk q _ (by decide)
  rw [sendCommit_alone (by rw [hlk, ← hpeer])] at hexec
  have hsent := committing_sent y q
  rw [hlk] at hsent
  refine Gives.done hexec ⟨?_, ?_, finish_mem hsent, (honly.committing (List.mem_cons_self ..) (by decide)).frame⟩
  · rw [finish_lkNeg, (committing_shows y q).neg]
  · rw [finish_lk, Link.of_core Link.lanesReady (fun _ => rfl) (core_committing y q), hlk]

theorem lanesReady_committed {s : State} {q : Fin 256} (hup : s.lkUp q = true) (hneg : s.lkNeg q = 3) (hkind : (s.lk q).kind = .width)
    (hpeer : (s.lk q).peerCommit = true) (hw : (s.lk q).target ≤ 2) (hlater : (s.lk q).later = none) :
    Gives (.widthIncreaseLanesReady q) s fun t => t.lkNeg q = 0 ∧ t.lkWidth q = (s.lk q).target
      ∧ t.rdf R.NEG_COUNT q 15 0 = min (s.rdf R.NEG_COUNT q 15 0 + 1) 65535 ∧ Frame (regsIn (linkKeys q)) [.links] s t := by
  have hexec := exec_lanesReady hup hneg hkind
  generalize hy : s.setLk q { s.lk q with lanesReady := true } = y at hexec
  have hlk : y.lk q = { s.lk q with lanesReady := true } := hy ▸ lk_setLk_self ..
  have honly : Only (regsIn (linkKeys q)) [.links] s y := hy ▸ (Only.refl _ _ s).setLk q _ (by decide)
  have hcounted : y.rdf R.NEG_COUNT q 15 0 = s.rdf R.NEG_COUNT q 15 0 := hy ▸ rdf_setLk ..
  rw [sendCommit_both (by rw [hlk, ← hpeer])] at hexec
  have hcore := core_committing y q
  have hcounts : (y.committing q).rdf R.NEG_COUNT q 15 0 = y.rdf R.NEG_COUNT q 15 0 := by
    rw [State.committing, State.setNeg, State.rdf, State.wrf, rd_wr_ne (by decide) (by decide) (by decide), rd_sendNeg, ← State.rdf]
  have hfrom : Only (regsIn (linkKeys q)) [.links] s (y.committing q) := honly.committing (linkStat_mem q.val) (by decide)
  generalize y.committing q = z at hexec hcore hcounts hfrom
  rw [hlk] at hcore
  have htarget : (z.lk q).target = (s.lk q).target := (Link.of_core Link.target (fun _ => rfl) hcore).trans rfl
  have hdone : WidthDone z (z.committed q) q (s.lk q).target := htarget ▸ committed_widthDone
    ((Link.of_core Link.kind (fun _ => rfl) hcore).trans hkind) (htarget.trans_le hw)
    ((Link.of_core Link.later (fun _ => rfl) hcore).trans hlater)
  refine (widthDone_gives hexec hdone hfrom).imp fun t ht => ?_
  obtain ⟨hwidth, hn, -, hcount, -, hframe⟩ := ht
  rw [hcounts, hcounted] at hcount
  exact ⟨hn, hwidth, hcount, hframe⟩

/-- A command whose premises are met acts. -/
theorem exec_if {c : Instr} {s x : State} {p : Prop} [Decidable p] (hp : p) (h : exec c s = done s (if p then x else s)) :
    exec c s = done s x := h.trans (congrArg (done s) (if_pos hp))

/-- A wake event in an agreed sleep negotiation: NEG is 6. -/
theorem wakeUp_agreed_shows {s : State} {q : Nat} : NegShows s ((s.aborting q).setNeg q 6) q 6 :=
  (aborting_shows s q).trans (setNeg_shows _ q (n := 6) (by decide))

/-- Settles O19: each message and event by what this end makes of NEG, of the link and of what it sends. -/
theorem linkNegotiations : Obligations.LinkNegotiations := by
  unfold Obligations.LinkNegotiations
  refine ⟨?widthUp, ?widthDown, ?widthRefused, ?widthYields, ?widthIgnored, ?sleepIgnored, ?retrainIgnored, ?sleepAccepted,
    ?sleepRefused, ?sleepYields, ?retrainReq, ?ackCommits, ?ackWaits, ?ackRetrains, ?ackIgnored, ?nakCloses, ?nakIgnored,
    ?commitWidth, ?commitSleep, ?commitNoted, ?commitIgnored, ?abortCloses, ?abortThenLater, ?abortIgnored, ?lapseCloses,
    ?lapseThenLater, ?lapseIgnored, ?lowUtil, ?lowIgnored, ?highUtil, ?highIgnored, ?idle, ?idleIgnored, ?wakeSleeping,
    ?wakeAborts, ?wakeAbortsRequest, ?wakeIgnored, ?burst, ?burstIgnored, ?peerIdle, ?peerIdleIgnored, ?wakeDone, ?wakeDoneIgnored,
    ?lanesReady, ?lanesReadyCommitted, ?lanesReadyIgnored⟩
  case widthUp =>
    intro s q x k hup hneg hsched hcfg hw
    refine (taken_gives (exec_negWidthReq_takes hup (yields_idle hneg) (takesWidth_wider hsched hcfg hw)) (negAccept_wider hw)
      (Only.refl _ _ s)).imp fun t ht => ?_
    obtain ⟨⟨hn, hkind, htarget, htoken, hmine, hready, -, hwidth, -, hack⟩, -, hframe⟩ := ht
    exact ⟨hn, hkind, htarget, htoken, hmine, hready, hwidth, hack, hframe⟩
  case widthDown =>
    intro s q x k hup hneg hsched hcfg hw hlow
    obtain ⟨hagreed, hcommit⟩ := negAccept_commits (q := q) (token := k.toNat) (k := .width) (Or.inr ⟨rfl, hw⟩)
    refine (taken_gives (exec_negWidthReq_takes hup (yields_idle hneg) (takesWidth_narrower hsched hcfg hlow)) hagreed
      (Only.refl _ _ s)).imp fun t ht => ?_
    obtain ⟨⟨hn, hkind, htarget, htoken, hmine, -, -, hwidth, -, hack⟩, hsent, hframe⟩ := ht
    exact ⟨hn, hkind, htarget, htoken, hmine, hwidth, hack, hsent _ hcommit, hframe⟩
  case widthRefused =>
    intro s q x k hup hneg hnot hlater
    have hexec := (exec_negWidthReq (k := k) hup (yields_idle hneg)).trans
      (congrArg (done s) (if_neg (by rw [takesWidth_refused hnot]; decide)))
    refine (negRefuse_gives hexec hlater).imp fun t ht => ?_
    obtain ⟨hn, hwidth, -, hnak, hframe⟩ := ht
    exact ⟨hn, hwidth, hnak, hframe⟩
  case widthYields =>
    intro s q x k hup hneg hlead hsched hcfg hw
    have hw' : (s.abandoning q).lkWidth q < x.toNat := by rwa [lkWidth_setLk]
    have htakes := takesWidth_wider ((lkSched_setLk s q _ q).trans hsched) ((rdb_setLk s q _ ..).trans hcfg) hw'
    refine (taken_gives (exec_negWidthReq_takes hup (yields_abandons hneg hlead) htakes) (negAccept_wider hw')
      (abandoning_only s q)).imp fun t ht => ?_
    obtain ⟨⟨hn, -, -, htoken, hmine, -, hlater, -, -, hack⟩, -, hframe⟩ := ht
    exact ⟨hn, hmine, htoken, hlater.trans (later_abandoning s q), hack, hframe⟩
  case widthIgnored =>
    intro s q x k h
    obtain ⟨hwidth, -, -⟩ := request_ignored (x := x) (k := k) h
    exact still_gives rfl hwidth
  case sleepIgnored =>
    intro s q k h
    obtain ⟨-, hsleep, -⟩ := request_ignored (x := 0) (k := k) h
    exact still_gives rfl hsleep
  case retrainIgnored =>
    intro s q k h
    obtain ⟨-, -, hretrain⟩ := request_ignored (x := 0) (k := k) h
    exact still_gives rfl hretrain
  case sleepAccepted =>
    intro s q k hup hneg hsched hreplay htxq hcfg
    refine (sleepReq_commits hup (yields_idle hneg) (takesSleep_idle hsched hreplay htxq hcfg) (Only.refl _ _ s)).imp fun t ht => ?_
    obtain ⟨hn, hkind, htoken, -, -, hlink, hack, hcommit, hframe⟩ := ht
    exact ⟨hn, hkind, htoken, hlink.trans hup, hack, hcommit, hframe⟩
  case sleepRefused =>
    intro s q k hup hneg hnot hlater
    have hreq := (negSleepReq_of_yields k.toNat (yields_idle hneg)).trans (if_neg (by rw [takesSleep_refused hnot]; decide))
    refine (negRefuse_gives ((exec_up hup rfl).trans (congrArg (done s) hreq)) hlater).imp fun t ht => ?_
    obtain ⟨hn, -, hlink, hnak, hframe⟩ := ht
    rw [at_zero, Nat.add_zero] at hnak
    exact ⟨hn, hlink.trans hup, hnak, hframe⟩
  case sleepYields =>
    intro s q k hup hneg hlead hsched hreplay htxq hcfg
    have htakes : (s.abandoning q).takesSleep q = true :=
      takesSleep_idle ((lkSched_setLk s q _ q).trans hsched) (by rwa [lk_setLk_self]) (by rwa [lk_setLk_self])
        ((rdb_setLk s q _ ..).trans hcfg)
    refine (sleepReq_commits hup (yields_abandons hneg hlead) htakes (abandoning_only s q)).imp fun t ht => ?_
    obtain ⟨hn, hkind, -, hmine, hlater, -, -, -, hframe⟩ := ht
    exact ⟨hn, hkind, hmine, hlater.trans (later_abandoning s q), hframe⟩
  case retrainReq =>
    intro s q k hup hneg _
    rw [← or_assoc] at hneg
    rcases hneg with hidle | ⟨h1, hlead⟩
    · refine (retrainReq_gives (k := k) hup (yields_idle hidle) (Only.refl _ _ s)).imp fun t ht => ?_
      obtain ⟨hst, hn, hcause, -, hack, hevt, hframe⟩ := ht
      exact ⟨hst, hn, hcause, fun h1 => absurd h1 (by omega), hack, hevt, hframe⟩
    · refine (retrainReq_gives (k := k) hup (yields_abandons h1 hlead) ((Only.refl _ _ s).setLk q _ (by decide))).imp fun t ht => ?_
      obtain ⟨hst, hn, hcause, hlater, hack, hevt, hframe⟩ := ht
      exact ⟨hst, hn, hcause, fun _ => hlater.trans (later_abandoning s q), hack, hevt, hframe⟩
  case ackCommits => exact fun s q k hup hneg htoken hkind hpeer => ack_commits hup hneg htoken hkind hpeer
  case ackWaits => exact fun s q k hup hneg htoken hkind hw hready => ack_waits hup hneg htoken hkind hw hready
  case ackRetrains => exact fun s q k hup hneg htoken hkind _ => ack_retrains hup hneg htoken hkind
  case ackIgnored =>
    refine fun s q k h => still_gives (s1 := if s.lkUp q then s.negAcked q k.toNat else s) rfl ?_
    rcases h with h | h | h <;> simp [State.negAcked, h]
  case nakCloses =>
    intro s q k hup hneg htoken hlater
    refine (close_gives ((exec_up hup rfl).trans (congrArg (done s) (if_pos ⟨hneg, htoken⟩))) hlater).imp fun t ht => ?_
    obtain ⟨hn, hopen, hlink, hwidth, hframe⟩ := ht
    exact ⟨hn, hopen, hlink.trans hup, hwidth, hframe⟩
  case nakIgnored =>
    refine fun s q k h => still_gives (s1 := if s.lkUp q then s.negNaked q k.toNat else s) rfl ?_
    rcases h with h | h | h <;> simp [State.negNaked, h]
  case commitWidth =>
    intro s q hup hneg hkind hw hlater
    refine (widthDone_gives ((exec_up hup rfl).trans (congrArg (done s) (if_pos hneg))) (committed_widthDone hkind hw hlater)
      (Only.refl _ _ s)).imp fun t ht => ?_
    obtain ⟨hwidth, hn, hlink, hcount, hevt, hframe⟩ := ht
    exact ⟨hwidth, hn, hlink.trans hup, hcount, hevt, hframe⟩
  case commitSleep =>
    exact fun s q hup hneg hkind => sleepDone_gives ((exec_up hup rfl).trans (congrArg (done s) (if_pos hneg))) hkind
  case commitNoted =>
    intro s q hup hneg
    have hnoted : s.negCommit q = s.setLk q { s.lk q with peerCommit := true } := by simp [State.negCommit, hneg]
    exact Gives.done ((exec_up hup rfl).trans (congrArg (done s) hnoted))
      ⟨(finish_lk ..).trans (lk_setLk_self ..), ((Only.refl _ _ s).setLk q _ (by decide)).frame⟩
  case commitIgnored =>
    refine fun s q h => still_gives (s1 := if s.lkUp q then s.negCommit q else s) rfl ?_
    rcases h with h | ⟨h3, h4⟩
    · simp [h]
    · simp [State.negCommit, h3, h4]
  case abortCloses =>
    intro s q hup hneg hlater
    refine (close_gives ((exec_up hup rfl).trans (congrArg (done s) (if_pos hneg))) hlater).imp fun t ht => ?_
    obtain ⟨hn, hopen, hlink, hwidth, hframe⟩ := ht
    exact ⟨hn, hopen, hlink.trans hup, hwidth, hframe⟩
  case abortThenLater =>
    exact fun s q n hup hneg hlater =>
      closeThenRetrain_gives ((exec_up hup rfl).trans (congrArg (done s) (if_pos hneg))) hlater hup
  case abortIgnored =>
    refine fun s q h => still_gives (s1 := if s.lkUp q then s.negAborted q else s) rfl ?_
    rcases h with h | h <;> simp [State.negAborted, h]
  case lapseCloses =>
    intro s q hup hneg hlater
    have hexec : exec (.negRequestLapse q) s = done s (s.negClose q) := exec_if ⟨hup, hneg⟩ rfl
    refine (close_gives hexec hlater).imp fun t ht => ?_
    obtain ⟨hn, hopen, hlink, hwidth, hframe⟩ := ht
    exact ⟨hn, hopen, hlink.trans hup, hwidth, hframe⟩
  case lapseThenLater =>
    exact fun s q n hup hneg hlater => closeThenRetrain_gives (c := .negRequestLapse q) (exec_if ⟨hup, hneg⟩ rfl) hlater hup
  case lapseIgnored =>
    refine fun s q h => still_gives rfl (if_neg fun hdo => ?_)
    rcases h with h | ⟨h1, h6⟩
    · exact absurd hdo.1 (by simp [h])
    · exact hdo.2.elim h1 h6
  case lowUtil =>
    intro s q hup hneg hsched hcfg hw
    have hexec : exec (.lowUtilTimer q) s = done s (s.negRequest q .width (s.lkWidth q - 1) 0) :=
      exec_if ⟨hup, hneg, by rw [hsched]; rfl, hcfg, hw⟩ rfl
    refine (request_gives hexec
      (negRequest_opens .width _ _ (Or.inl hneg)) (Only.refl _ _ s)).imp fun t ht => ?_
    obtain ⟨hn, hkind, htarget, -, htoken, hmine, -, hopen, hsent, hframe⟩ := ht
    exact ⟨hn, hkind, htarget, htoken, hmine, hopen, hsent, hframe⟩
  case lowIgnored =>
    refine fun s q h => still_gives rfl (if_neg ?_)
    rcases h with h | h | h | h | h <;> simp [h]
  case highUtil =>
    intro s q hup hneg hsched hcfg hw
    have hexec : exec (.highUtilTrigger q) s = done s (s.negRequest q .width (s.lkWidth q + 1) 0) :=
      exec_if ⟨hup, hneg, by rw [hsched]; rfl, hcfg, hw⟩ rfl
    refine (request_gives hexec
      (negRequest_opens .width _ _ (Or.inl hneg)) (Only.refl _ _ s)).imp fun t ht => ?_
    obtain ⟨hn, hkind, htarget, -, htoken, hmine, -, hopen, hsent, hframe⟩ := ht
    exact ⟨hn, hkind, htarget, htoken, hmine, hopen, hsent, hframe⟩
  case highIgnored =>
    refine fun s q h => still_gives rfl (if_neg ?_)
    rcases h with h | h | h | h | h <;> simp [h]
  case idle =>
    intro s q hup hneg hsched hcfg
    have hexec : exec (.sleepIdleTimer q) s = done s (s.negRequest q .sleep 0 0) := exec_if ⟨hup, hneg, by rw [hsched]; rfl, hcfg⟩ rfl
    refine (request_gives hexec
      (negRequest_opens .sleep _ _ (Or.inl hneg)) (Only.refl _ _ s)).imp fun t ht => ?_
    obtain ⟨hn, hkind, htarget, -, htoken, hmine, -, hopen, hsent, hframe⟩ := ht
    exact ⟨hn, hkind, htarget, htoken, hmine, hopen, hsent, hframe⟩
  case idleIgnored =>
    refine fun s q h => still_gives rfl (if_neg ?_)
    rcases h with h | h | h | h <;> simp [h]
  case wakeSleeping =>
    intro s q hst _
    have hexec : exec (.wakeEvent q) s = done s ((s.emit (.laneEvent (4 * q) 1 0)).setLkState q lkWake) :=
      Eq.trans rfl (congrArg (done s) (wakeUp_sleeping hst))
    refine (wake_gives hexec (Only.emit _ (Only.refl _ _ s))).imp fun t ht => ?_
    obtain ⟨hwake, -, -, hsent, hframe⟩ := ht
    exact ⟨hwake, hsent _ (List.mem_cons_self ..), hframe⟩
  case wakeAborts =>
    intro s q hup hkind hneg
    have hexec : exec (.wakeEvent q) s = done s ((s.aborting q).setNeg q 6) :=
      Eq.trans rfl (congrArg (done s) (wakeUp_agreed hup hkind hneg))
    refine (abort_gives hexec wakeUp_agreed_shows
      (setNeg_only _ q 6)).imp fun t ht => ?_
    obtain ⟨hn, -, hsent, hcount, hframe⟩ := ht
    exact ⟨hn, hsent, hcount, hframe⟩
  case wakeAbortsRequest =>
    intro s q hup hkind hneg hlater
    have hclosed : (s.aborting q).negClose q = (s.aborting q).negClosed q :=
      negClose_none ((Link.of_core Link.later (fun _ => rfl) (core_aborting s q)).trans hlater)
    have hexec : exec (.wakeEvent q) s = done s ((s.aborting q).negClosed q) :=
      Eq.trans rfl (congrArg (done s) ((wakeUp_requesting hup hkind hneg).trans hclosed))
    refine (abort_gives hexec
      ((aborting_shows s q).trans (negClosed_shows _ q)) ((Only.refl _ _ _).negClosed (List.mem_cons_self ..))).imp fun t ht => ?_
    obtain ⟨hn, hlink, hsent, hcount, hframe⟩ := ht
    exact ⟨hn, hlink.trans hup, hsent, hcount, hframe⟩
  case wakeIgnored => exact fun s q hst h => still_gives rfl (wakeUp_still hst h)
  case burst =>
    intro s q hst _
    have hexec : exec (.wakeBurstDetect q) s = done s (s.setLkState q lkWake) := exec_if hst rfl
    refine (wake_gives hexec (Only.refl _ _ s)).imp fun t ht => ?_
    obtain ⟨hwake, -, -, -, hframe⟩ := ht
    exact ⟨hwake, hframe⟩
  case burstIgnored => exact fun s q hst => still_gives rfl (if_neg hst)
  case peerIdle =>
    intro s q hup hneg _
    have hexec : exec (.peerIdleDetect q) s = done s (((s.emit (.laneEvent (4 * q.val) 1 0)).negClosed q).setLkState q lkWake) :=
      exec_if ⟨hup, hneg⟩ rfl
    refine (wake_gives hexec
      (Only.negClosed (linkStat_mem q.val) (Only.emit _ (Only.refl _ _ s)))).imp
      fun t ht => ?_
    obtain ⟨hwake, hn, hopen, hsent, hframe⟩ := ht
    refine ⟨hwake, hn.trans (negClosed_shows _ q).neg, hopen.trans (rdb_wrb_self (by decide)), hsent _ ?_, hframe⟩
    rw [sent_wrb, sent_setNeg]
    exact List.mem_cons_self ..
  case peerIdleIgnored =>
    refine fun s q h => still_gives rfl (if_neg ?_)
    rcases h with h | h <;> simp [h]
  case wakeDone =>
    intro s q us hst hw hlater hon
    have hexec : exec (.linkWakeDone q us) s
        = done s ((s.lkActivate q (if s.lkSched q then (s.lk q).agreed else s.lkWidth q)).wr R.TRAIN_TIME q (word us.toNat)) :=
      exec_if hst rfl
    refine (wakeDone_gives hexec hw hst hlater hon (Only.refl _ _ s)).imp fun t ht => ?_
    obtain ⟨hlink, hwidth, -, htime, hevt, hframe⟩ := ht
    exact ⟨hlink, hwidth, htime, hevt, hframe⟩
  case wakeDoneIgnored => exact fun s q us hst => still_gives rfl (if_neg hst)
  case lanesReady => exact fun s q hup hneg hkind hpeer => lanesReady_commits hup hneg hkind hpeer
  case lanesReadyCommitted =>
    exact fun s q hup hneg hkind hpeer hw hlater => lanesReady_committed hup hneg hkind hpeer hw hlater
  case lanesReadyIgnored =>
    refine fun s q h => still_gives rfl (if_neg ?_)
    rcases h with h | h | h <;> simp [h]

end Sys2Proof.Machine

/-! PROOFS. Registers written with what they hold, lanes trained, and the phases of a training (R163 to R168). -/

namespace Sys2Proof.Machine

-- Registers written with the value that they hold, and lanes trained (R168).

/-- A register written with what it holds changes nothing. -/
theorem Only.wr_held {K : Nat → Prop} {ps : List Part} {s t : State} {r : Reg} {u i : Nat} {v : Word} (hv : v = t.rd r u i)
    (h : Only K ps s t) : Only K ps s (t.wr r u v i) := by
  have hwr : Only (fun k => K k ∨ k = r.key u i) ps s (t.wr r u v i) := Only.wr v (Or.inr rfl) (h.mono (fun _ hk => Or.inl hk) fun _ hp => hp)
  obtain ⟨hregs, -, -⟩ := h
  obtain ⟨-, hparts, hsent⟩ := hwr
  refine ⟨fun k hk => ?_, hparts, hsent⟩
  rw [← hregs k hk, State.wr, getReg_setReg]
  split
  · next hkey => rw [hv, hkey]; rfl
  · rfl

theorem Only.count_zero {K : Nat → Prop} {ps : List Part} {s t : State} {r : Reg} {u : Nat} (h : Only K ps s t) :
    Only K ps s (t.count r u 0) := h.wr_held (satWord_zero _)

theorem Only.laneTrained {K : Nat → Prop} {ps : List Part} {s t : State} {l : Nat} (hK : K (R.LANE_STAT.key l)) (hp : Part.free ∈ ps)
    (h : Only K ps s t) : Only K ps s (t.laneTrained l) :=
  Only.wrb 0 true hK (Only.wrb 1 true hK (Only.wr _ hK (Only.wr _ hK (Only.wr _ hK (h.set_free _ hp)))))

theorem Only.lanesTrained {K : Nat → Prop} {ps : List Part} {s t : State} {ls : List Nat} (hK : ∀ l ∈ ls, K (R.LANE_STAT.key l))
    (hp : Part.free ∈ ps) (h : Only K ps s t) : Only K ps s (t.lanesTrained ls) :=
  Only.foldl_mem (fun _ l hl hu => hu.laneTrained (hK l hl) hp) h

theorem lanesTrained_only (s : State) (ls : List Nat) : Only laneStats [.free] s (s.lanesTrained ls) :=
  (Only.refl _ _ s).lanesTrained (fun l _ => ⟨l, rfl⟩) (by decide)

theorem rd_lanesTrained {s : State} {ls : List Nat} {r : Reg} {u k : Nat} (hr : r.InPage k)
    (h : r.off + k * r.stride ≠ R.LANE_STAT.off) : (s.lanesTrained ls).rd r u k = s.rd r u k :=
  (lanesTrained_only s ls).getReg (not_laneStats_key hr h)

/-- A lane trained has block lock, and the others keep theirs. -/
theorem rdb_laneTrained_lock {s : State} {l m : Nat} :
    (s.laneTrained l).rdb R.LANE_STAT m 1 = if m = l then true else s.rdb R.LANE_STAT m 1 := by
  rw [State.laneTrained, rdb_wrb_lane (by decide), if_neg (by simp), rdb_wrb_lane (by decide)]
  by_cases hm : m = l
  · simp [hm]
  · rw [if_neg (fun h => hm h.1), if_neg hm]
    exact congrArg (fun w => bit w 1) (by
      simp only [State.wrf, State.rd, State.wr, getReg_setReg_ne fun h => hm (laneStat_inj h)]
      rfl)

theorem rdb_lanesTrained_lock {m : Nat} : ∀ {ls : List Nat} {s : State}, m ∈ ls ∨ s.rdb R.LANE_STAT m 1 = true →
    (s.lanesTrained ls).rdb R.LANE_STAT m 1 = true
  | [], _, h => h.resolve_left (List.not_mem_nil)
  | l :: ls, s, h => by
    refine rdb_lanesTrained_lock (ls := ls) (s := s.laneTrained l) ?_
    rw [rdb_laneTrained_lock]
    by_cases hm : m = l
    · exact Or.inr (if_pos hm)
    · exact h.imp (fun hmem => (List.mem_cons.mp hmem).resolve_left hm) fun hs => by rw [if_neg hm, hs]

/-- A link in a state in which its lanes send keeps what they receive (R145, R163). -/
theorem rdb_setLkState_sends {s : State} {q st l i : Nat} (h : st = lkDetect ∨ st = lkLock ∨ st = lkWake) (hi : i ≠ 4) (h64 : i < 64) :
    (s.setLkState q st).rdb R.LANE_STAT l i = s.rdb R.LANE_STAT l i := by
  have hidle : ¬ (st = lkDisabled ∨ st = lkSleep ∨ st = lkFault) := by rcases h with rfl | rfl | rfl <;> decide
  rw [State.setLkState, if_neg hidle, if_pos h, rdb_setLk, rdb_laneBits h64, if_neg (fun hb => hi hb.2), rdb_laneBits h64,
    if_neg (fun hb => hi hb.2), State.rdb, State.wrf, rd_wr_ne (by decide) (by decide) (by decide), State.rdb]

-- The widest of the locked widths (R163).

theorem foldl_max_le {n : Nat} : ∀ {ws : List Nat} {a : Nat}, (∀ w ∈ ws, w ≤ n) → a ≤ n → ws.foldl Nat.max a ≤ n
  | [], _, _, ha => ha
  | w :: ws, _, h, ha => foldl_max_le (ws := ws) (fun x hx => h x (List.mem_cons_of_mem w hx))
      (Nat.max_le.mpr ⟨ha, h w (List.mem_cons_self ..)⟩)

theorem widestLocked_le (n : Nat) (x : BitVec 4) : widestLocked n x ≤ n :=
  foldl_max_le (fun w hw => by
    have hmem := (List.mem_filter.mp hw).1
    rw [List.mem_range] at hmem
    omega) (Nat.zero_le _)

-- A training's phases, by what they give (R163 to R168).

section Phases

variable {c : Instr} {s : State} {q : Fin 256}

/-- A training that fails: DETECT with its cause. -/
theorem detect_gives {cause : Nat} (hexec : exec c s = done s (s.lkDetectEntry q cause)) (hc : cause ≠ 0) :
    Gives c s fun t => t.lkState q = lkDetect ∧ t.rdf R.LINK_STAT q 47 40 = cause % 256
      ∧ Frame (regsIn (linkKeys q ++ reportKeys)) [.links, .bitt] s t := by
  refine Gives.done hexec ⟨?_, ?_, ?_⟩
  · rw [finish_lkState, lkDetectEntry_state]
  · rw [finish_rdf (by decide), (lkDetectEntry_down s q cause).cause hc]
  · exact (Only.lkDetectEntry q (by simp +contextual [regsIn]) (by decide) (fun _ => ⟨by simp +contextual [regsIn], by decide⟩)
      (Only.refl _ _ s)).frame

/-- DESKEW and PARAM leave the lanes as they are. -/
theorem lkState_plain {st : Nat} (h : st = lkDeskew ∨ st = lkParam) (s : State) (q : Nat) : (s.setLkState q st).lkState q = st := by
  rw [State.lkState, State.rdf, rd_setLkState_stat, fld_setFld (by decide) (by decide)]
  rcases h with rfl | rfl <;> rfl

theorem rdb_plain_lane {st : Nat} (h : st = lkDeskew ∨ st = lkParam) (s : State) (q l i : Nat) :
    (s.setLkState q st).rdb R.LANE_STAT l i = s.rdb R.LANE_STAT l i := by
  rw [setLkState_plain (h.imp_right Or.inl), State.rdb, State.wrf, rd_wr_ne (by decide) (by decide) (by decide), State.rdb]

/-- Signal on lane 0 (R163). -/
theorem signal_locks (hst : s.lkState q = lkDetect) : Gives (.linkSignalDetect q) s fun t =>
    t.lkState q = lkLock ∧ t.rdb R.LANE_STAT (4 * q.val) 0 = true ∧ Frame (regsIn (linkKeys q)) [.links] s t := by
  have hexec : exec (.linkSignalDetect q) s = done s ((s.wrb R.LANE_STAT (4 * q) 0 true).setLkState q lkLock) := exec_if hst rfl
  refine Gives.done hexec ⟨?_, ?_, ?_⟩
  · rw [finish_lkState, State.lkState, State.rdf, rd_setLkState_stat, fld_setFld (by decide) (by decide)]
    rfl
  · rw [finish_rdb (by decide), rdb_setLkState_sends (by decide) (by decide) (by decide), rdb_wrb_self (by decide)]
  · exact Only.frame (Only.setLkState q _ (fun _ hk => hk) (by decide) (Only.wrb 0 true (laneStat_mem (mem_quadLanes.mpr (by omega)))
      (Only.refl _ _ s)))

/-- The lanes of a width locked: DESKEW at that width (R163, R168). -/
theorem locked_deskews {u : State} {w : Nat} (hexec : exec c s = done s (u.setLkState q lkDeskew)) (hown : (u.lk q).own = w)
    (hlock : ∀ l ∈ quadLanes q (lanesOf w), u.rdb R.LANE_STAT l 1 = true) (honly : Only (regsIn (linkKeys q)) [.links, .free] s u) :
    Gives c s fun t => t.lkState q = lkDeskew ∧ (t.lk q).own = w
      ∧ (quadLanes q (lanesOf w)).all (fun l => t.rdb R.LANE_STAT l 1) = true ∧ t.rdb R.LINK_STAT q 29 = u.rdb R.LINK_STAT q 29
      ∧ Frame (regsIn (linkKeys q)) [.links, .free] s t := by
  refine Gives.done hexec ⟨?_, ?_, ?_, ?_, (honly.setLkState q _ (fun _ hk => hk) (by decide)).frame⟩
  · rw [finish_lkState, lkState_plain (Or.inl rfl)]
  · rw [finish_lk, Link.of_core Link.own (fun _ => rfl) (core_setLkState u q _), hown]
  · rw [List.all_eq_true]
    intro l hl
    rw [finish_rdb (by decide), rdb_plain_lane (Or.inl rfl), hlock l hl]
  · rw [finish_rdb (by decide), State.rdb, rd_setLkState_stat, bit_setFld_ne (by decide) (by decide) (by decide), State.rdb]

/-- The lanes of a width trained, and the width noted as this end's own. -/
abbrev State.ownTrained (s : State) (q w : Nat) : State :=
  (s.lanesTrained (quadLanes q (lanesOf w))).setLk q { (s.lanesTrained (quadLanes q (lanesOf w))).lk q with own := w }

theorem ownTrained_own (s : State) (q w : Nat) : ((s.ownTrained q w).lk q).own = w := by rw [lk_setLk_self]

theorem ownTrained_lock (s : State) (q w : Nat) : ∀ l ∈ quadLanes q (lanesOf w), (s.ownTrained q w).rdb R.LANE_STAT l 1 = true :=
  fun l hl => by rw [rdb_setLk, rdb_lanesTrained_lock (Or.inl hl)]

theorem ownTrained_only (s : State) (q : Nat) {w : Nat} (hw : w ≤ 2) : Only (regsIn (linkKeys q)) [.links, .free] s (s.ownTrained q w) :=
  ((Only.refl _ _ s).lanesTrained (fun _ hl => laneStat_mem (quadLanes_lanesOf hw hl)) (by decide)).setLk q _ (by decide)

theorem lkState_ownTrained (s : State) (q w : Nat) : (s.ownTrained q w).lkState q = s.lkState q := by
  rw [State.lkState, rdf_setLk, State.rdf, rd_lanesTrained (by decide) (by decide), State.lkState, State.rdf]

/-- Every lane up to `WIDTH_MAX` locked (R163). -/
theorem lockDone_deskews (hst : s.lkState q = lkLock) (hw : s.rdf R.LINK_CFG q 1 0 ≤ 2) : Gives (.linkLockDone q) s fun t =>
      t.lkState q = lkDeskew ∧ (t.lk q).own = s.rdf R.LINK_CFG q 1 0
      ∧ (quadLanes q (lanesOf (s.rdf R.LINK_CFG q 1 0))).all (fun l => t.rdb R.LANE_STAT l 1) = true
      ∧ Frame (regsIn (linkKeys q)) [.links, .free] s t := by
  have hexec : exec (.linkLockDone q) s = done s ((s.ownTrained q (s.rdf R.LINK_CFG q 1 0)).setLkState q lkDeskew) := exec_if hst rfl
  refine (locked_deskews hexec (ownTrained_own ..) (ownTrained_lock s q _) (ownTrained_only s q hw)).imp fun t ht => ?_
  obtain ⟨hdeskew, hown, hlock, -, hframe⟩ := ht
  exact ⟨hdeskew, hown, hlock, hframe⟩

/-- Not every lane locked in time: DESKEW at the widest width whose lanes are, with DEGRADED (R163). -/
theorem lockTimeout_deskews {x : BitVec 4} (hst : s.lkState q = lkLock) (hx : x.getLsbD 0 = true) (hw : s.rdf R.LINK_CFG q 1 0 ≤ 2) :
    Gives (.linkLockTimeout q x) s fun t => t.lkState q = lkDeskew ∧ (t.lk q).own = widestLocked (s.rdf R.LINK_CFG q 1 0) x
      ∧ t.rdb R.LINK_STAT q 29 = decide (widestLocked (s.rdf R.LINK_CFG q 1 0) x < s.rdf R.LINK_CFG q 1 0)
      ∧ Frame (regsIn (linkKeys q)) [.links, .free] s t := by
  have hle := widestLocked_le (s.rdf R.LINK_CFG q 1 0) x
  have hif := Eq.trans (show exec (.linkLockTimeout q x) s = _ from rfl) (congrArg (done s) (if_pos (Or.inl hst)))
  simp only [hx, hst, if_true] at hif
  generalize widestLocked (s.rdf R.LINK_CFG q 1 0) x = w at hif hle ⊢
  have hown : (((s.ownTrained q w).wrb R.LINK_STAT q 29 (decide (w < s.rdf R.LINK_CFG q 1 0))).lk q).own = w := by
    rw [lk_wrb, ownTrained_own]
  have hlkState : ((s.ownTrained q w).wrb R.LINK_STAT q 29 (decide (w < s.rdf R.LINK_CFG q 1 0))).lkState q = lkLock := by
    rw [State.lkState, State.rdf, State.wrb, rd_wr_self, fld_putBit_ne (by decide) (by decide)]
    exact (lkState_ownTrained s q w).trans hst
  have hexec := hif.trans (congrArg (done s) (if_pos hlkState))
  refine (locked_deskews hexec hown (fun l hl => ?_) (Only.wrb 29 _ (linkStat_mem q.val) (ownTrained_only s q (hle.trans hw)))).imp fun t ht => ?_
  · rw [State.rdb, State.wrb, rd_wr_ne (by decide) (by decide) (by decide), ← State.rdb, ownTrained_lock s q w l hl]
  · obtain ⟨hdeskew, ho, -, hdegraded, hframe⟩ := ht
    exact ⟨hdeskew, ho, hdegraded.trans (rdb_wrb_self (by decide)), hframe⟩

/-- In WAKE the width alone is noted (R165). -/
theorem lockTimeout_wakes {x : BitVec 4} (hst : s.lkState q = lkWake) (hx : x.getLsbD 0 = true) :
    Gives (.linkLockTimeout q x) s fun t => t.lkState q = lkWake ∧ (t.lk q).own = widestLocked (s.rdf R.LINK_CFG q 1 0) x
      ∧ t.rdb R.LINK_STAT q 29 = decide (widestLocked (s.rdf R.LINK_CFG q 1 0) x < s.rdf R.LINK_CFG q 1 0)
      ∧ Frame (regsIn [R.LINK_STAT.key q]) [.links] s t := by
  have hif := Eq.trans (show exec (.linkLockTimeout q x) s = _ from rfl) (congrArg (done s) (if_pos (Or.inr hst)))
  have hlock : ¬ s.lkState q = lkLock := by rw [hst]; decide
  simp only [hx, if_true, if_neg hlock] at hif
  generalize widestLocked (s.rdf R.LINK_CFG q 1 0) x = w at hif ⊢
  have hwake : ((s.setLk q { s.lk q with own := w }).wrb R.LINK_STAT q 29 (decide (w < s.rdf R.LINK_CFG q 1 0))).lkState q = lkWake := by
    rw [State.lkState, State.rdf, State.wrb, rd_wr_self, fld_putBit_ne (by decide) (by decide), rd_setLk]
    exact hst
  have hexec := hif.trans (congrArg (done s) (if_neg (by rw [hwake]; decide)))
  refine Gives.done hexec ⟨?_, ?_, ?_, (Only.wrb 29 _ (List.mem_cons_self ..) ((Only.refl _ _ s).setLk q _ (by decide))).frame⟩
  · rw [finish_lkState, hwake]
  · rw [finish_lk, lk_wrb, lk_setLk_self]
  · rw [finish_rdb (by decide), rdb_wrb_self (by decide)]

end Phases

end Sys2Proof.Machine

/-! PROOFS. Alignment, the exchange of parameters, and what takes a link out of ACTIVE (R151, R163 to R166, R170, R178); with these, O18. -/

namespace Sys2Proof.Machine

-- The end of a training's phases, and what takes a link out of ACTIVE (R151, R163, R164, R178).

/-- A register at an offset of its own is none in which a link shows. -/
theorem key_notMem_linkKeys {r : Reg} {u q : Nat} (hr : r.InPage) (h : r.off ∉ [R.LINK_STAT.off, R.NEG_COUNT.off, R.LANE_STAT.off]) :
    r.key u ∉ linkKeys q := by
  simp only [List.mem_cons, List.not_mem_nil, or_false, not_or] at h
  obtain ⟨hlink, hneg, hlane⟩ := h
  simp only [linkKeys, List.mem_cons, List.mem_map, not_or, not_exists, not_and]
  exact ⟨Reg.key_ne_key hr (by decide) (by simpa using hlink), Reg.key_ne_key hr (by decide) (by simpa using hneg),
    Reg.key_ne_hdr hr (by decide), fun l _ => Reg.key_ne_key (by decide) hr (by simpa using Ne.symm hlane)⟩

/-- A lane's events are none of the registers in which a link shows. -/
theorem laneEvt_notMem_linkKeys {l q : Nat} (hl : l < 1024) (hq : q < 256) : regKey 0 (lanePage l) 0 hEvt ∉ linkKeys q := by
  have hlane : lanePage l < 0x50 := by unfold lanePage; omega
  have hlink : 0x50 ≤ brinePage q ∧ brinePage q < 128 := by unfold brinePage; omega
  simp only [linkKeys, List.mem_cons, List.mem_map, not_or, not_exists, not_and]
  exact ⟨(Reg.key_ne_hdr (by decide) (by decide)).symm, (Reg.key_ne_hdr (by decide) (by decide)).symm,
    hdr_ne_hdr (by omega) (by omega) (by decide) (by decide) (by omega), fun _ _ => Reg.key_ne_hdr (by decide) (by decide)⟩

theorem lkRetrain_only (s : State) (q cause : Nat) :
    Only (regsIn (linkKeys q ++ reportKeys)) [.links, .bitt] s (s.lkRetrain q cause) :=
  Only.lkRetrain q (by simp +contextual [regsIn]) (by decide) (fun _ => ⟨by simp +contextual [regsIn], by decide⟩) (Only.refl _ _ s)

section Down

variable {c : Instr} {s : State} {q : Fin 256}

/-- Alignment: PARAM, or on in WAKE (R163, R165). -/
theorem deskew_aligned (hst : s.lkState q = lkDeskew ∨ s.lkState q = lkWake) (hown : (s.lk q).own ≤ 2) :
    Gives (.linkDeskewDone q .aligned) s fun t => t.lkState q = (if s.lkState q = lkDeskew then lkParam else lkWake)
      ∧ (quadLanes q (lanesOf (s.lk q).own)).all (fun l => t.rdb R.LANE_STAT l 2) = true
      ∧ Frame (regsIn (linkKeys q)) [.links] s t := by
  generalize hu : s.laneBits (quadLanes q (lanesOf (s.lk q).own)) 2 true = u
  have hexec : exec (.linkDeskewDone q .aligned) s = done s (if u.lkState q = lkDeskew then u.setLkState q lkParam else u) := by
    rw [← hu]
    exact exec_if hst rfl
  have hsame : u.lkState q = s.lkState q := by
    rw [← hu, State.lkState, State.rdf, rd_laneBits (by decide) (by decide), State.lkState, State.rdf]
  have hbits : ∀ l ∈ quadLanes q (lanesOf (s.lk q).own), u.rdb R.LANE_STAT l 2 = true := fun l hl => by
    rw [← hu, rdb_laneBits (by decide), if_pos ⟨hl, rfl⟩]
  have honly : Only (regsIn (linkKeys q)) [.links] s u := by
    rw [← hu]
    exact (Only.refl _ _ s).laneBits 2 true fun l hl => laneStat_mem (quadLanes_lanesOf hown hl)
  rw [hsame] at hexec
  rcases hst with hst | hst
  · rw [if_pos hst] at hexec ⊢
    refine Gives.done hexec ⟨?_, ?_, (honly.setLkState q _ (fun _ hk => hk) (by decide)).frame⟩
    · rw [finish_lkState, lkState_plain (Or.inr rfl)]
    · rw [List.all_eq_true]
      intro l hl
      rw [finish_rdb (by decide), rdb_plain_lane (Or.inr rfl), hbits l hl]
  · have hne : ¬ s.lkState q = lkDeskew := by rw [hst]; decide
    rw [if_neg hne] at hexec ⊢
    refine Gives.done hexec ⟨?_, ?_, honly.frame⟩
    · rw [finish_lkState, hsame, hst]
    · rw [List.all_eq_true]
      intro l hl
      rw [finish_rdb (by decide), hbits l hl]

/-- A retrain of a link that is up. -/
theorem retrain_gives {u : State} {cause : Nat} (hexec : exec c s = done s (u.lkRetrain q cause)) (hup : u.lkUp q = true)
    (hc : cause ≠ 0) {K : Nat → Prop} (hK : ∀ k ∈ linkKeys q ++ reportKeys, K k) (honly : Only K [.links, .bitt] s u) :
    Gives c s fun t => t.lkState q = lkLock ∧ t.rdf R.LINK_STAT q 47 40 = cause % 256
      ∧ t.rdf R.NEG_COUNT q 63 48 = min (u.rdf R.NEG_COUNT q 63 48 + 1) 65535 ∧ (t.lk q).full = false
      ∧ bit (t.hdr (brinePage q) hEvt) 1 = true ∧ Frame K [.links, .bitt] s t := by
  refine Gives.done hexec ⟨?_, ?_, ?_, ?_, ?_, (honly.trans ((lkRetrain_only u q cause).mono hK fun _ h => h)).frame⟩
  · rw [finish_lkState, lkRetrain_state]
  · rw [finish_rdf (by decide), (lkRetrain_down u q cause).cause hc]
  · rw [finish_rdf (by decide), lkRetrain_counts]
  · rw [finish_lk, Link.of_core Link.full (fun _ => rfl) (lkRetrain_core u q cause)]
  · rw [finish_linkEvt q.isLt, lkRetrain_event cause hup]

end Down

-- Block lock lost (R151, R163, R170).

/-- Invalid headers of a lane counted. -/
def State.headersCounted (s : State) (l n : Nat) : State := if n = 0 then s else s.count R.BLK_ERR l n

theorem headersCounted_errors (s : State) (l n : Nat) : (s.headersCounted l n).rd R.BLK_ERR l = satWord (s.rd R.BLK_ERR l) n := by
  rw [State.headersCounted]
  split
  · next h => rw [h, satWord_zero]
  · rw [State.count, rd_wr_self]

theorem rd_headersCounted {s : State} {l n : Nat} {r : Reg} {u : Nat} (hr : r.InPage) (h : r.off ≠ R.BLK_ERR.off) :
    (s.headersCounted l n).rd r u = s.rd r u := by
  rw [State.headersCounted]
  split
  · rfl
  · rw [State.count, rd_wr_ne (by decide) hr (by simpa using h)]

/-- A lane that has lost its block lock, before its link follows. -/
def State.laneUnlocked (s : State) (l n : Nat) : State :=
  (((s.headersCounted l n).count R.LOCK_LOSS l).lanesLost [l] false).raise (lanePage l) 0

theorem lockLost_eq (s : State) (l n : Nat) : s.lockLost l n
    = if (s.laneUnlocked l n).lkUp (l / 4) ∧ l % 4 < lanesOf ((s.laneUnlocked l n).lkWidth (l / 4))
      then (s.laneUnlocked l n).lkRetrain (l / 4) cLockLoss else s.laneUnlocked l n := rfl

section Unlocked

variable (s : State) (l n : Nat)

theorem rd_laneUnlocked {r : Reg} {u : Nat} (hr : r.InPage) (h : r.off ∉ [R.BLK_ERR.off, R.LOCK_LOSS.off, R.LANE_STAT.off]) :
    (s.laneUnlocked l n).rd r u = s.rd r u := by
  simp only [List.mem_cons, List.not_mem_nil, or_false, not_or] at h
  obtain ⟨herr, hloss, hlane⟩ := h
  rw [State.laneUnlocked, rd_raise hr, rd_lanesLost hr (by simpa using hlane), State.count, rd_wr_ne (by decide) hr (by simpa using hloss),
    rd_headersCounted hr herr]

theorem laneUnlocked_errors : (s.laneUnlocked l n).rd R.BLK_ERR l = satWord (s.rd R.BLK_ERR l) n := by
  rw [State.laneUnlocked, rd_raise (by decide), rd_lanesLost (by decide) (by decide), State.count,
    rd_wr_ne (by decide) (by decide) (by decide), headersCounted_errors]

theorem laneUnlocked_losses : (s.laneUnlocked l n).rd R.LOCK_LOSS l = satWord (s.rd R.LOCK_LOSS l) 1 := by
  rw [State.laneUnlocked, rd_raise (by decide), rd_lanesLost (by decide) (by decide), State.count, rd_wr_self,
    rd_headersCounted (by decide) (by decide)]

theorem laneUnlocked_lock : (s.laneUnlocked l n).rdb R.LANE_STAT l 1 = false := by
  rw [State.rdb, State.laneUnlocked, rd_raise (by decide), ← State.rdb, rdb_lanesLost_lock (List.mem_cons_self ..)]

theorem laneUnlocked_event : bit ((s.laneUnlocked l n).hdr (lanePage l) hEvt) 0 = true := hdr_raise (by decide)

theorem laneUnlocked_stat (q : Nat) : (s.laneUnlocked l n).rd R.LINK_STAT q = s.rd R.LINK_STAT q :=
  rd_laneUnlocked s l n (by decide) (by decide)

theorem lkWidth_laneUnlocked (q : Nat) : (s.laneUnlocked l n).lkWidth q = s.lkWidth q := by
  rw [State.lkWidth, State.rdf, laneUnlocked_stat, State.lkWidth, State.rdf]

theorem Only.laneUnlocked {K : Nat → Prop} {ps : List Part} {s t : State} {l : Nat} (n : Nat) (herr : K (R.BLK_ERR.key l))
    (hloss : K (R.LOCK_LOSS.key l)) (hevt : K (regKey 0 (lanePage l) 0 hEvt)) (hlane : K (R.LANE_STAT.key l)) (hp : Part.links ∈ ps)
    (h : Only K ps s t) : Only K ps s (t.laneUnlocked l n) := by
  have hcounted : Only K ps s (t.headersCounted l n) := Only.ite h (h.wr _ herr)
  exact Only.raise hevt (Only.lanesLost false (by simpa using hlane) hp (Only.wr _ hloss hcounted))

end Unlocked

section LockLost

variable {s : State} {i : Fin 1024}

/-- A lane in use that loses its lock sends its link to LOCK. -/
theorem lockLost_retrains (hlock : s.rdb R.LANE_STAT i 1 = true) (hup : s.lkUp (i.val / 4) = true)
    (hused : i.val % 4 < lanesOf (s.lkWidth (i.val / 4))) : Gives (.blockLockLost i) s fun t =>
      t.lkState (i.val / 4) = lkLock ∧ t.rdf R.LINK_STAT (i.val / 4) 47 40 = cLockLoss
      ∧ t.rd R.BLK_ERR i = satWord (s.rd R.BLK_ERR i) (16 - (s.lane i).bads)
      ∧ t.rd R.LOCK_LOSS i = satWord (s.rd R.LOCK_LOSS i) 1 ∧ t.rdb R.LANE_STAT i 1 = false
      ∧ bit (t.hdr (lanePage i) hEvt) 0 = true
      ∧ Frame (regsIn (R.BLK_ERR.key i :: R.LOCK_LOSS.key i :: regKey 0 (lanePage i) 0 hEvt :: linkKeys (i.val / 4) ++ reportKeys)) [.links, .bitt] s t := by
  generalize hn : 16 - (s.lane i).bads = n
  have hq : i.val / 4 < 256 := by omega
  have hin : i.val ∈ quadLanes (i.val / 4) 4 := mem_quadLanes.mpr (by omega)
  have hupU : (s.laneUnlocked i n).lkUp (i.val / 4) = true := (lkUp_congr (laneUnlocked_stat s i n _)).trans hup
  have hexec : exec (.blockLockLost i) s = done s ((s.laneUnlocked i n).lkRetrain (i.val / 4) cLockLoss) := by
    rw [← hn]
    refine (exec_if hlock rfl).trans (congrArg (done s) ((lockLost_eq ..).trans (if_pos ?_)))
    rw [hn, lkWidth_laneUnlocked]
    exact ⟨hupU, hused⟩
  have hkeep {k : Nat} (hl : k ∉ linkKeys (i.val / 4)) (hr : k ∉ reportKeys) :
      ((s.laneUnlocked i n).lkRetrain (i.val / 4) cLockLoss).getReg k = (s.laneUnlocked i n).getReg k :=
    (lkRetrain_only ..).getReg (by simp [regsIn, hl, hr])
  have honly : Only (regsIn (R.BLK_ERR.key i :: R.LOCK_LOSS.key i :: regKey 0 (lanePage i) 0 hEvt :: linkKeys (i.val / 4) ++ reportKeys))
      [.links, .bitt] s (s.laneUnlocked i n) :=
    (Only.refl _ _ s).laneUnlocked n (by simp [regsIn]) (by simp [regsIn]) (by simp [regsIn]) (by simp [regsIn, laneStat_mem hin]) (by decide)
  refine Gives.done hexec ⟨?_, ?_, ?_, ?_, ?_, ?_, (honly.trans ((lkRetrain_only ..).mono (by simp +contextual [regsIn]) fun _ h => h)).frame⟩
  · rw [finish_lkState, lkRetrain_state]
  · rw [finish_rdf (by decide), (lkRetrain_down ..).cause (by decide)]
    rfl
  · rw [finish_rd (by decide), State.rd, hkeep (key_notMem_linkKeys (by decide) (by decide)) (pageKey_notMem_reportKeys (by decide))]
    exact laneUnlocked_errors s i n
  · rw [finish_rd (by decide), State.rd, hkeep (key_notMem_linkKeys (by decide) (by decide)) (pageKey_notMem_reportKeys (by decide))]
    exact laneUnlocked_losses s i n
  · rw [finish_rdb (by decide), lkRetrain_eq, rdb_lanesLost_lock hin]
  · rw [finish_laneEvt i.isLt, State.hdr, hkeep (laneEvt_notMem_linkKeys i.isLt hq)
      (evt_notMem_reportKeys (by unfold lanePage; omega))]
    exact laneUnlocked_event s i n

/-- A lane not in use only loses its lock. -/
theorem lockLost_counts (hlock : s.rdb R.LANE_STAT i 1 = true)
    (hunused : s.lkUp (i.val / 4) = false ∨ lanesOf (s.lkWidth (i.val / 4)) ≤ i.val % 4) : Gives (.blockLockLost i) s fun t =>
      t.rd R.BLK_ERR i = satWord (s.rd R.BLK_ERR i) (16 - (s.lane i).bads)
      ∧ t.rd R.LOCK_LOSS i = satWord (s.rd R.LOCK_LOSS i) 1 ∧ t.rdb R.LANE_STAT i 1 = false
      ∧ bit (t.hdr (lanePage i) hEvt) 0 = true
      ∧ Frame (regsIn (R.BLK_ERR.key i :: R.LOCK_LOSS.key i :: regKey 0 (lanePage i) 0 hEvt :: [R.LANE_STAT.key i])) [.links] s t := by
  generalize hn : 16 - (s.lane i).bads = n
  have hexec : exec (.blockLockLost i) s = done s (s.laneUnlocked i n) := by
    rw [← hn]
    refine (exec_if hlock rfl).trans (congrArg (done s) ((lockLost_eq ..).trans (if_neg fun hdo => ?_)))
    rw [lkUp_congr (laneUnlocked_stat ..), lkWidth_laneUnlocked] at hdo
    exact hunused.elim (fun h => absurd hdo.1 (by simp [h])) fun h => absurd hdo.2 (by omega)
  refine Gives.done hexec ⟨?_, ?_, ?_, ?_, ?_⟩
  · rw [finish_rd (by decide), laneUnlocked_errors]
  · rw [finish_rd (by decide), laneUnlocked_losses]
  · rw [finish_rdb (by decide), laneUnlocked_lock]
  · rw [finish_laneEvt i.isLt, laneUnlocked_event]
  · exact ((Only.refl _ _ s).laneUnlocked n (by simp [regsIn]) (by simp [regsIn]) (by simp [regsIn]) (by simp [regsIn]) (by decide)).frame

end LockLost

-- `BCNT` mismatches (R151, R178).

/-- The times of the mismatches that are not older than 1 ms. -/
def State.recentSkews (s : State) (q : Nat) : List Nat := (s.lk q).skews.filter fun z => s.time.total < z + 1500000

/-- A mismatch counted on its lane: nothing else but the link changes. -/
structure Skewed (s u : State) (l n : Nat) : Prop where
  errors : u.rd R.BLK_ERR l = satWord (s.rd R.BLK_ERR l) n
  only : Only (regsIn [R.BLK_ERR.key l]) [.links] s u

theorem Skewed.stat {s u : State} {l n q : Nat} (h : Skewed s u l n) : u.rd R.LINK_STAT q = s.rd R.LINK_STAT q :=
  h.only.getReg (by simpa [regsIn] using Reg.key_ne_key (r := R.LINK_STAT) (q := R.BLK_ERR) (by decide) (by decide) (by decide))

theorem Skewed.time {s u : State} {l n : Nat} (h : Skewed s u l n) : u.time = s.time := h.only.same (p := .time) (by decide)

theorem count_skewed (s : State) (q l : Nat) (k : Link) : Skewed s ((s.count R.BLK_ERR l).setLk q k) l 1 := by
  refine ⟨?_, Only.setLk q k (by decide) (Only.wr _ (List.mem_cons_self ..) (Only.refl _ _ s))⟩
  rw [rd_setLk, State.count, rd_wr_self]

theorem skewMiss_few {s : State} {q i : Nat} (h : (s.recentSkews q).length < 7) : s.skewMiss q i
    = (s.count R.BLK_ERR (4 * q + i)).setLk q { s.lk q with skews := s.time.total :: s.recentSkews q } := by
  have hfew : ¬ (8 ≤ (s.time.total :: s.recentSkews q).length ∧ (s.count R.BLK_ERR (4 * q + i)).lkUp q = true) :=
    fun hmany => by simp only [List.length_cons] at hmany; omega
  have hlk : (s.count R.BLK_ERR (4 * q + i)).lk q = s.lk q := lk_count ..
  rw [State.skewMiss]
  simp only [hlk]
  exact if_neg hfew

theorem skewMiss_many {s : State} {q i : Nat} (hup : s.lkUp q = true) (h : 7 ≤ (s.recentSkews q).length) : s.skewMiss q i
    = ((s.count R.BLK_ERR (4 * q + i)).setLk q { s.lk q with skews := [] }).negRequest q .retrain 0 cSkew := by
  have hupC : (s.count R.BLK_ERR (4 * q + i)).lkUp q = true :=
    (lkUp_congr (rd_wr_ne (by decide) (by decide) (by decide))).trans hup
  have hmany : 8 ≤ (s.time.total :: s.recentSkews q).length ∧ (s.count R.BLK_ERR (4 * q + i)).lkUp q = true :=
    ⟨by simp only [List.length_cons]; omega, hupC⟩
  have hlk : (s.count R.BLK_ERR (4 * q + i)).lk q = s.lk q := lk_count ..
  rw [State.skewMiss]
  simp only [hlk]
  exact if_pos hmany

/-- Mismatches at one time, fewer than eight: the lane counts them and the link notes them. -/
theorem skewMiss_replicate {s : State} {q i : Nat} (hskews : (s.lk q).skews = []) : ∀ n ≤ 7,
    Skewed s ((List.replicate n i).foldl (fun u i => u.skewMiss q i) s) (4 * q + i) n
      ∧ ((List.replicate n i).foldl (fun u i => u.skewMiss q i) s).lk q = { s.lk q with skews := List.replicate n s.time.total }
  | 0, _ => ⟨⟨(satWord_zero _).symm, Only.refl _ _ s⟩, by rw [List.replicate_zero, List.foldl_nil, List.replicate_zero, ← hskews]⟩
  | n + 1, hn => by
    obtain ⟨hskewed, hlk⟩ := skewMiss_replicate (i := i) hskews n (by omega)
    rw [List.replicate_succ', List.foldl_append, List.foldl_cons, List.foldl_nil]
    generalize (List.replicate n i).foldl (fun u i => u.skewMiss q i) s = u at hskewed hlk
    have hrecent : u.recentSkews q = List.replicate n s.time.total := by
      rw [State.recentSkews, hlk, hskewed.time]
      exact List.filter_eq_self.mpr fun z hz => by simp [List.eq_of_mem_replicate hz]
    rw [skewMiss_few (by rw [hrecent, List.length_replicate]; omega), hrecent, hskewed.time]
    have hnext := count_skewed u q (4 * q + i) { u.lk q with skews := s.time.total :: List.replicate n s.time.total }
    refine ⟨⟨?_, hskewed.only.trans hnext.only⟩, ?_⟩
    · rw [hnext.errors, hskewed.errors, satWord_satWord]
    · rw [lk_setLk_self, hlk, List.replicate_succ]

section Skew

variable {c : Instr} {s : State} {q : Fin 256} {i : Fin 4}

theorem exec_skewRetrain (hup : s.lkUp q = true) (x : List (Fin 4)) : exec (.skewRetrain ⟨q, x⟩) s
    = done s ((x.map (·.val)).foldl (fun u i => u.skewMiss q i) s) := by
  have hexec : exec (.skewRetrain ⟨q, x⟩) s = done s (if s.lkUp q then x.foldl (fun u i => u.skewMiss q i) s else s) := rfl
  have hlanes : (do let a ← x; pure a.val : List Nat) = x.map (·.val) := List.map_eq_flatMap.symm
  rw [hexec, if_pos hup, hlanes]

theorem exec_skewRetrain_one (hup : s.lkUp q = true) : exec (.skewRetrain ⟨q, [i]⟩) s = done s (s.skewMiss q i) :=
  exec_skewRetrain hup [i]

/-- The eighth mismatch within 1 ms requests a retrain. -/
theorem eighthSkew_gives {u : State} {n : Nat} (hexec : exec c s = done s (u.skewMiss q i)) (hskewed : Skewed s u (4 * q + i) n)
    (hup : s.lkUp q = true) (hmany : 7 ≤ (u.recentSkews q).length) (hneg : s.lkNeg q = 0 ∨ s.lkNeg q = 6) :
    Gives c s fun t => t.rd R.BLK_ERR (4 * q.val + i.val) = satWord (s.rd R.BLK_ERR (4 * q.val + i.val)) (n + 1) ∧ t.lkNeg q = 1
      ∧ (t.lk q).kind = .retrain ∧ (t.lk q).cause = cSkew ∧ (t.lk q).skews = []
      ∧ Frame (regsIn (R.BLK_ERR.key (4 * q.val + i.val) :: linkKeys q)) [.links] s t := by
  rw [skewMiss_many ((lkUp_congr hskewed.stat).trans hup) hmany] at hexec
  have hcount := count_skewed u q (4 * q + i) { u.lk q with skews := [] }
  have hnegY : ((u.count R.BLK_ERR (4 * q + i)).setLk q { u.lk q with skews := [] }).lkNeg q = s.lkNeg q := by
    rw [State.lkNeg, State.rdf, hcount.stat, hskewed.stat, State.lkNeg, State.rdf]
  have hlkY : ((u.count R.BLK_ERR (4 * q + i)).setLk q { u.lk q with skews := [] }).lk q = { u.lk q with skews := [] } := lk_setLk_self ..
  generalize (u.count R.BLK_ERR (4 * q + i)).setLk q { u.lk q with skews := [] } = y at hexec hcount hnegY hlkY
  obtain ⟨-, -, ⟨m, hm⟩, -, honly⟩ := negRequest_opens .retrain 0 cSkew (by rwa [hnegY])
  have hshows := (negRequest_opens .retrain 0 cSkew (by rwa [hnegY])).shows_
  have hlk : (s.finish (y.negRequest q .retrain 0 cSkew)).lk q = { (y.lk q).asking .retrain 0 cSkew with txBlk := m } :=
    (finish_lk ..).trans hm
  have herr : R.BLK_ERR.key (4 * q.val + i.val) ∉ [R.LINK_STAT.key q.val] := by
    simpa using Reg.key_ne_key (r := R.BLK_ERR) (q := R.LINK_STAT) (by decide) (by decide) (by decide)
  refine Gives.done hexec ⟨?_, ?_, ?_, ?_, ?_, ?_⟩
  · rw [finish_rd (by decide), State.rd, honly.getReg herr, ← State.rd, hcount.errors, hskewed.errors, satWord_satWord]
  · rw [finish_lkNeg, hshows.neg]
  · rw [hlk, Link.asking]
  · rw [hlk, Link.asking]
  · rw [hlk, Link.asking, hlkY]
  · have hfrom := (hskewed.only.trans hcount.only).mono (L := regsIn (R.BLK_ERR.key (4 * q.val + i.val) :: linkKeys q)) (qs := [.links])
      (by simp +contextual [regsIn]) fun _ h => h
    exact (hfrom.trans (honly.mono (by simp +contextual [regsIn, linkStat_mem]) fun _ h => h)).frame

/-- Fewer than eight mismatches within 1 ms. -/
theorem fewSkews_gives (hup : s.lkUp q = true) (hfew : (s.recentSkews q).length < 7) : Gives (.skewRetrain ⟨q, [i]⟩) s fun t =>
      t.rd R.BLK_ERR (4 * q.val + i.val) = satWord (s.rd R.BLK_ERR (4 * q.val + i.val)) 1
      ∧ t.lk q = { s.lk q with skews := s.time.total :: s.recentSkews q }
      ∧ Frame (regsIn [R.BLK_ERR.key (4 * q.val + i.val)]) [.links] s t := by
  have hskewed := count_skewed s q (4 * q + i) { s.lk q with skews := s.time.total :: s.recentSkews q }
  refine Gives.done ((exec_skewRetrain_one hup).trans (congrArg (done s) (skewMiss_few hfew))) ⟨?_, ?_, hskewed.only.frame⟩
  · rw [finish_rd (by decide), hskewed.errors]
  · rw [finish_lk, lk_setLk_self]

/-- The eighth mismatch with a negotiation open: the retrain is noted for later. -/
theorem busySkew_gives (hup : s.lkUp q = true) (hmany : 7 ≤ (s.recentSkews q).length) (h0 : s.lkNeg q ≠ 0) (h6 : s.lkNeg q ≠ 6) :
    Gives (.skewRetrain ⟨q, [i]⟩) s fun t =>
      t.rd R.BLK_ERR (4 * q.val + i.val) = satWord (s.rd R.BLK_ERR (4 * q.val + i.val)) 1
      ∧ t.lk q = { s.lk q with skews := [], later := some (.retrain, 0, cSkew) }
      ∧ Frame (regsIn [R.BLK_ERR.key (4 * q.val + i.val)]) [.links] s t := by
  have hcount := count_skewed s q (4 * q + i) { s.lk q with skews := [] }
  have hneg : ((s.count R.BLK_ERR (4 * q + i)).setLk q { s.lk q with skews := [] }).lkNeg q = s.lkNeg q := by
    rw [State.lkNeg, State.rdf, hcount.stat, State.lkNeg, State.rdf]
  have hnoted : s.skewMiss q i
      = (s.count R.BLK_ERR (4 * q + i)).setLk q { s.lk q with skews := [], later := some (.retrain, 0, cSkew) } := by
    rw [skewMiss_many hup hmany, negRequest_busy .retrain 0 cSkew (by rwa [hneg]) (by rwa [hneg]), setLk_setLk, lk_setLk_self]
  have hskewed := count_skewed s q (4 * q + i) { s.lk q with skews := [], later := some (.retrain, 0, cSkew) }
  refine Gives.done ((exec_skewRetrain_one hup).trans (congrArg (done s) hnoted)) ⟨?_, ?_, hskewed.only.frame⟩
  · rw [finish_rd (by decide), hskewed.errors]
  · rw [finish_lk, lk_setLk_self]

end Skew

-- The parameters exchanged (R163, R164, R166).

/-- The link whose partner is the one it had: new credits in a full training, and the replay buffer resent (R166). -/
def Link.kept (l : Link) : Link :=
  let m := if l.full then
      { l with sentC := 0, sentM := 0, credC := 32, credM := 256, freedC := 32, freedM := 256, outC := 32, outM := 256 } else l
  { m with resend := if l.replay.isEmpty then none else some 0, full := false }

theorem kept_credits {l : Link} (h : l.full = true) : l.kept.credC = 32 ∧ l.kept.credM = 256 := by simp [Link.kept, h]

theorem kept_peer (l : Link) : l.kept.peer = l.peer := by unfold Link.kept; cases l.full <;> rfl
theorem kept_replay (l : Link) : l.kept.replay = l.replay := by unfold Link.kept; cases l.full <;> rfl
theorem kept_later (l : Link) : l.kept.later = l.later := by unfold Link.kept; cases l.full <;> rfl
theorem kept_agreed (l : Link) : l.kept.agreed = l.agreed := by unfold Link.kept; cases l.full <;> rfl

/-- The link with another partner: no replay state and new credits (R166). -/
def Link.renewed (l : Link) (p : Peer) : Link :=
  { l with replay := [], resend := none, resends := 0, txSeq := 0, rxSeq := 0, nak := false, sentC := 0, sentM := 0, credC := 32
           credM := 256, freedC := 32, freedM := 256, outC := 32, outM := 256, peer := some p, full := false }

section Partner

variable {s : State} {q : Nat} {p : Peer} {w us : Nat}

theorem paramDone_known (hself : ¬ (p.serial = s.nv.otp.serial ∧ p.quad = q)) (hpeer : (s.lk q).peer = some p) :
    s.paramDone q p w us = ((s.setLk q (s.lk q).kept).lkActivate q (min (s.lk q).own w)).wr R.TRAIN_TIME q (word us) := by
  rw [State.paramDone]
  simp only [if_neg hself, if_pos hpeer]
  cases hfull : (s.lk q).full <;> simp [State.creditReset, Link.kept, hfull]

/-- The state in which another partner is recorded, before the link is ACTIVE. -/
def State.partnerNew (s : State) (q : Nat) (p : Peer) : State := let u := s.newPartner q p; u.setLk q { u.lk q with full := false }

theorem paramDone_new (hself : ¬ (p.serial = s.nv.otp.serial ∧ p.quad = q)) (hpeer : (s.lk q).peer ≠ some p) :
    s.paramDone q p w us = ((s.partnerNew q p).lkActivate q (min (s.lk q).own w)).wr R.TRAIN_TIME q (word us) := by
  rw [State.paramDone]
  simp only [if_neg hself, if_neg hpeer]
  rfl

theorem paramDone_loop (hself : p.serial = s.nv.otp.serial ∧ p.quad = q) : s.paramDone q p w us = s.lkDown q lkFault cSelfLoop :=
  if_pos hself

/-- What is recorded of another partner where no cell waits for its acknowledgement. -/
structure PartnerNew (s u : State) (q : Nat) (p : Peer) : Prop where
  link : u.lk q = (s.lk q).renewed p
  stat : u.rd R.LINK_STAT q = s.rd R.LINK_STAT q
  prbs : ∀ l, u.rd R.PRBS_CTRL l = s.rd R.PRBS_CTRL l
  serial : u.rd R.PEER_SERIAL q = p.serial
  port : u.rd R.PEER_PORT q = word (at_ 9 p.session + at_ 8 1 + p.quad)
  event : (s.lk q).peer.isSome = true → bit (u.hdr (brinePage q) hEvt) 2 = true
  only : Only (regsIn (R.TRAIN_TIME.key q :: R.PEER_SERIAL.key q :: R.PEER_PORT.key q :: linkKeys q)) [.links] s u

/-- Another partner recorded, with or without the event that it differs. -/
theorem recorded_partnerNew (raised : Bool) (hraised : (s.lk q).peer.isSome = true → raised = true) {x : State}
    (hx : x = (s.count R.REPLAYS q 0).setLk q { (s.lk q).renewed p with full := (s.lk q).full })
    {y : State} (hy : y = (x.wr R.PEER_SERIAL q p.serial).wr R.PEER_PORT q (word (at_ 9 p.session + at_ 8 1 + p.quad)))
    {z : State} (hz : z = if raised then y.raise (brinePage q) 2 else y) : PartnerNew s (z.setLk q ((s.lk q).renewed p)) q p := by
  have hrd {r : Reg} {u : Nat} (hr : r.InPage) : z.rd r u = y.rd r u := by
    rw [hz]
    split
    · exact rd_raise hr
    · rfl
  have hrest {r : Reg} {u : Nat} (hr : r.InPage) (hne : r.off ∉ [R.REPLAYS.off, R.PEER_SERIAL.off, R.PEER_PORT.off]) :
      z.rd r u = s.rd r u := by
    simp only [List.mem_cons, List.not_mem_nil, or_false, not_or] at hne
    obtain ⟨hreplays, hserial, hport⟩ := hne
    rw [hrd hr, hy, rd_wr_ne (by decide) hr (by simpa using hport), rd_wr_ne (by decide) hr (by simpa using hserial), hx, rd_setLk,
      State.count, rd_wr_ne (by decide) hr (by simpa using hreplays)]
  have hfrom : Only (regsIn (R.TRAIN_TIME.key q :: R.PEER_SERIAL.key q :: R.PEER_PORT.key q :: linkKeys q)) [.links] s y := by
    rw [hy, hx]
    exact Only.wr _ (by simp [regsIn]) (Only.wr _ (by simp [regsIn]) (Only.setLk q _ (by decide) (Only.refl _ _ s).count_zero))
  have honly : Only (regsIn (R.TRAIN_TIME.key q :: R.PEER_SERIAL.key q :: R.PEER_PORT.key q :: linkKeys q)) [.links] s z := by
    rw [hz]
    exact Only.ite (hfrom.raise (by simp [regsIn, linkEvt_mem])) hfrom
  refine ⟨lk_setLk_self .., ?_, fun l => ?_, ?_, ?_, fun hsome => ?_, honly.setLk q _ (by decide)⟩
  · rw [rd_setLk, hrest (by decide) (by decide)]
  · rw [rd_setLk, hrest (by decide) (by decide)]
  · rw [rd_setLk, hrd (by decide), hy, rd_wr_ne (by decide) (by decide) (by decide), rd_wr_self]
  · rw [rd_setLk, hrd (by decide), hy, rd_wr_self]
  · rw [hdr_setLk, hz, if_pos (hraised hsome)]
    exact hdr_raise (by decide)

/-- Another partner's record in the registers and in the link, before the event that it differs. -/
def State.peerRecorded (s : State) (q : Nat) (p : Peer) : State :=
  (((s.count R.REPLAYS q 0).setLk q { (s.lk q).renewed p with full := (s.lk q).full }).wr R.PEER_SERIAL q p.serial).wr R.PEER_PORT q
    (word (at_ 9 p.session + at_ 8 1 + p.quad))

theorem lk_peerRecorded : (s.peerRecorded q p).lk q = { (s.lk q).renewed p with full := (s.lk q).full } := by
  rw [State.peerRecorded, lk_wr, lk_wr, lk_setLk_self]

/-- Whether a partner is another than the one before, or than the one kept over a power cycle (R166). -/
def Link.differs (l : Link) (p : Peer) : Bool :=
  match l.peer with
  | some _ => true
  | none => match l.saved with
    | some o => o != p
    | none => false

theorem newPartner_eq (hreplay : (s.lk q).replay = []) : s.newPartner q p
    = if (s.lk q).differs p then (s.peerRecorded q p).raise (brinePage q) 2 else s.peerRecorded q p := by
  have hlk : (s.count R.REPLAYS q 0).lk q = s.lk q := lk_count ..
  have hcells (u : State) : u.meshFailCells [] = u := rfl
  unfold State.newPartner
  simp only [hreplay, List.length_nil, hcells, hlk, State.creditReset, State.recordPeer, setLk_setLk, lk_setLk_self]
  rfl

theorem partnerNew_recorded (hreplay : (s.lk q).replay = []) : PartnerNew s (s.partnerNew q p) q p := by
  have hlink : ((s.newPartner q p).lk q) = { (s.lk q).renewed p with full := (s.lk q).full } := by
    rw [newPartner_eq hreplay]
    split
    · rw [lk_raise, lk_peerRecorded]
    · rw [lk_peerRecorded]
  have hpartner : s.partnerNew q p = (s.newPartner q p).setLk q ((s.lk q).renewed p) := by
    rw [State.partnerNew]
    simp only [hlink]
    rfl
  rw [hpartner]
  refine recorded_partnerNew ((s.lk q).differs p) (fun hsome => ?_) rfl rfl (newPartner_eq hreplay)
  obtain ⟨o, ho⟩ := Option.isSome_iff_exists.mp hsome
  rw [Link.differs, ho]

end Partner

section Trained

variable {c : Instr} {s u : State} {q : Fin 256} {w : Nat} {us : Word}

/-- A training that ends in ACTIVE, after what the partner made of the link. -/
theorem param_gives {K : Nat → Prop} (hexec : exec c s = done s ((u.lkActivate q w).wr R.TRAIN_TIME q us)) (hw : w ≤ 2)
    (hst : s.lkState q = lkParam) (hstat : u.rd R.LINK_STAT q = s.rd R.LINK_STAT q) (hlater : (u.lk q).later = none)
    (hprbs : ∀ l, u.rd R.PRBS_CTRL l = s.rd R.PRBS_CTRL l) (hon : (quadLanes q (lanesOf w)).any s.prbsOn = false)
    (hK : ∀ k ∈ R.TRAIN_TIME.key q :: linkKeys q, K k) (honly : Only K [.links] s u) :
    Gives c s fun t => t.lkUp q = true ∧ t.lkWidth q = w ∧ (t.lk q).core = { u.lk q with agreed := w }.core
      ∧ t.rdb R.LINK_STAT q 29 = decide (w < u.rdf R.LINK_CFG q 1 0) ∧ t.rd R.TRAIN_TIME q = us
      ∧ bit (t.hdr (brinePage q) hEvt) 0 = true
      ∧ (bit (u.hdr (brinePage q) hEvt) 2 = true → bit (t.hdr (brinePage q) hEvt) 2 = true)
      ∧ (∀ r : Reg, r.InPage → r.off ∉ [R.TRAIN_TIME.off, R.LINK_STAT.off, R.LANE_STAT.off] → t.rd r q = u.rd r q)
      ∧ Frame K [.links] s t := by
  have hwake : u.lkState q ≠ lkWake := by
    rw [State.lkState, State.rdf, hstat]
    exact fun h => absurd (hst.symm.trans h) (by decide)
  rw [lkActivate_trained hw hwake hlater (by rwa [prbsOn_congr hprbs])] at hexec
  have hrd {r : Reg} (hr : r.InPage) (hne : r.off ≠ R.TRAIN_TIME.off) :
      ((u.trained q w).wr R.TRAIN_TIME q us).rd r q = (u.trained q w).rd r q := rd_wr_ne (by decide) hr (by simpa using hne)
  have hevt : ((u.trained q w).wr R.TRAIN_TIME q us).hdr (brinePage q) hEvt = (u.trained q w).hdr (brinePage q) hEvt :=
    hdr_wr_evt (by decide) _
  refine Gives.done hexec ⟨?_, ?_, ?_, ?_, ?_, ?_, fun hbit => ?_, fun r hr hne => ?_, ?_⟩
  · rw [finish_lkUp, lkUp_congr (hrd (by decide) (by decide)), State.lkUp, lkState_trained]
    rfl
  · rw [finish_lkWidth, State.lkWidth, State.rdf, hrd (by decide) (by decide)]
    exact lkWidth_trained u q w hw
  · rw [finish_lk, lk_wr, core_trained]
  · rw [finish_rdb (by decide), State.rdb, hrd (by decide) (by decide)]
    exact degraded_trained q.isLt hw
  · rw [finish_rd (by decide), rd_wr_self]
  · rw [finish_linkEvt q.isLt, hevt, event_trained]
  · rw [finish_linkEvt q.isLt, hevt, stands_trained u q w hbit]
  · simp only [List.mem_cons, List.not_mem_nil, or_false, not_or] at hne
    obtain ⟨htime, hlink, hlane⟩ := hne
    rw [finish_rd hr, hrd hr htime, rd_trained u q w hr hlane hlink]
  · exact (Only.wr _ (hK _ (List.mem_cons_self ..)) (honly.trained q hw (fun k hk => hK k (List.mem_cons_of_mem _ hk)) (by decide))).frame

end Trained

section Param

variable {s : State} {q : Fin 256} {y : Word} {pq : BitVec 8} {ss : BitVec 15} {wd : BitVec 2} {us : BitVec 32}

/-- The partner that the parameters name. -/
abbrev peerNamed (y : Word) (pq : BitVec 8) (ss : BitVec 15) : Peer := { serial := y, quad := pq.toNat, session := ss.toNat }

theorem exec_paramDone (hst : s.lkState q = lkParam ∨ s.lkState q = lkWake) :
    exec (.linkParamDone q y pq ss wd us) s = done s (s.paramDone q (peerNamed y pq ss) (min wd.toNat 2) us.toNat) := exec_if hst rfl

theorem agreedWidth_le (n : Nat) (wd : BitVec 2) : min n (min wd.toNat 2) ≤ 2 := by omega

/-- A known partner: ACTIVE at the narrower width. -/
theorem paramKnown_gives (hst : s.lkState q = lkParam) (hself : ¬ (y = s.nv.otp.serial ∧ pq.toNat = q.val))
    (hpeer : (s.lk q).peer = some (peerNamed y pq ss)) (hlater : (s.lk q).later = none)
    (hon : (quadLanes q (lanesOf (min (s.lk q).own (min wd.toNat 2)))).any s.prbsOn = false) :
    Gives (.linkParamDone q y pq ss wd us) s fun t => t.lkUp q = true ∧ t.lkWidth q = min (s.lk q).own (min wd.toNat 2)
      ∧ (t.lk q).agreed = min (s.lk q).own (min wd.toNat 2)
      ∧ t.rdb R.LINK_STAT q 29 = decide (min (s.lk q).own (min wd.toNat 2) < s.rdf R.LINK_CFG q 1 0) ∧ (t.lk q).full = false
      ∧ (t.lk q).peer = (s.lk q).peer ∧ (t.lk q).replay = (s.lk q).replay
      ∧ ((s.lk q).full = true → (t.lk q).credC = 32 ∧ (t.lk q).credM = 256) ∧ t.rd R.TRAIN_TIME q = word us.toNat
      ∧ bit (t.hdr (brinePage q) hEvt) 0 = true ∧ Frame (regsIn (R.TRAIN_TIME.key q :: linkKeys q)) [.links] s t := by
  have hexec := (exec_paramDone (wd := wd) (us := us) (Or.inl hst)).trans (congrArg (done s) (paramDone_known hself hpeer))
  have hlk : (s.setLk q (s.lk q).kept).lk q = (s.lk q).kept := lk_setLk_self ..
  refine (param_gives hexec (agreedWidth_le ..) hst (rd_setLk ..) (by rw [hlk, kept_later, hlater]) (fun l => rd_setLk ..) hon
    (K := regsIn (R.TRAIN_TIME.key q :: linkKeys q)) (fun _ hk => hk) ((Only.refl _ _ s).setLk q _ (by decide))).imp fun t ht => ?_
  obtain ⟨hup, hwidth, hcore, hdegraded, htime, hevt, -, -, hframe⟩ := ht
  rw [hlk] at hcore
  rw [rdf_setLk] at hdegraded
  have hfield {α : Type} (f : Link → α) (hf : ∀ l : Link, f l.core = f l) :
      f (t.lk q) = f { (s.lk q).kept with agreed := min (s.lk q).own (min wd.toNat 2) } := Link.of_core f hf hcore
  exact ⟨hup, hwidth, hfield Link.agreed fun _ => rfl, hdegraded, hfield Link.full fun _ => rfl,
    (hfield Link.peer fun _ => rfl).trans (kept_peer (s.lk q)), (hfield Link.replay fun _ => rfl).trans (kept_replay (s.lk q)),
    fun hfull => ⟨(hfield Link.credC fun _ => rfl).trans (kept_credits hfull).1, (hfield Link.credM fun _ => rfl).trans (kept_credits hfull).2⟩,
    htime, hevt, hframe⟩

/-- Another partner with no cell unacknowledged: recorded, and ACTIVE with nothing of the former one's. -/
theorem paramNew_gives (hst : s.lkState q = lkParam) (hself : ¬ (y = s.nv.otp.serial ∧ pq.toNat = q.val))
    (hpeer : (s.lk q).peer ≠ some (peerNamed y pq ss)) (hreplay : (s.lk q).replay = []) (hlater : (s.lk q).later = none)
    (hon : (quadLanes q (lanesOf (min (s.lk q).own (min wd.toNat 2)))).any s.prbsOn = false) :
    Gives (.linkParamDone q y pq ss wd us) s fun t => t.lkUp q = true ∧ t.lkWidth q = min (s.lk q).own (min wd.toNat 2)
      ∧ (t.lk q).peer = some (peerNamed y pq ss) ∧ t.rd R.PEER_SERIAL q = y
      ∧ t.rd R.PEER_PORT q = word (at_ 9 ss.toNat + at_ 8 1 + pq.toNat) ∧ (t.lk q).txSeq = 0 ∧ (t.lk q).rxSeq = 0
      ∧ (t.lk q).credC = 32 ∧ (t.lk q).credM = 256 ∧ ((s.lk q).peer.isSome = true → bit (t.hdr (brinePage q) hEvt) 2 = true)
      ∧ bit (t.hdr (brinePage q) hEvt) 0 = true
      ∧ Frame (regsIn (R.TRAIN_TIME.key q :: R.PEER_SERIAL.key q :: R.PEER_PORT.key q :: linkKeys q)) [.links] s t := by
  have hexec := (exec_paramDone (wd := wd) (us := us) (Or.inl hst)).trans (congrArg (done s) (paramDone_new hself hpeer))
  obtain ⟨hlink, hstat, hprbs, hserial, hport, hdiffers, honly⟩ := partnerNew_recorded (p := peerNamed y pq ss) hreplay
  refine (param_gives hexec (agreedWidth_le ..) hst hstat (by rw [hlink]; exact hlater) hprbs hon
    (by simp +contextual [regsIn]) honly).imp fun t ht => ?_
  obtain ⟨hup, hwidth, hcore, -, -, hevt, hstands, hothers, hframe⟩ := ht
  rw [hlink] at hcore
  have hfield {α : Type} (f : Link → α) (hf : ∀ l : Link, f l.core = f l) :
      f (t.lk q) = f { (s.lk q).renewed (peerNamed y pq ss) with agreed := min (s.lk q).own (min wd.toNat 2) } := Link.of_core f hf hcore
  exact ⟨hup, hwidth, hfield Link.peer fun _ => rfl, (hothers R.PEER_SERIAL (by decide) (by decide)).trans hserial,
    (hothers R.PEER_PORT (by decide) (by decide)).trans hport, hfield Link.txSeq fun _ => rfl, hfield Link.rxSeq fun _ => rfl,
    hfield Link.credC fun _ => rfl, hfield Link.credM fun _ => rfl, fun hsome => hstands (hdiffers hsome), hevt, hframe⟩

/-- This port's own identity: FAULT. -/
theorem paramLoop_gives (hst : s.lkState q = lkParam ∨ s.lkState q = lkWake) (hself : y = s.nv.otp.serial ∧ pq.toNat = q.val) :
    Gives (.linkParamDone q y pq ss wd us) s fun t => t.lkState q = lkFault ∧ t.rdf R.LINK_STAT q 47 40 = cSelfLoop
      ∧ Frame (regsIn (linkKeys q ++ reportKeys)) [.links, .bitt] s t := by
  have hexec := (exec_paramDone (ss := ss) (wd := wd) (us := us) hst).trans (congrArg (done s) (paramDone_loop hself))
  have hdown := lkDown_down s q lkFault cSelfLoop
  refine Gives.done hexec ⟨?_, ?_, ?_⟩
  · rw [finish_lkState, hdown.state (by decide)]
  · rw [finish_rdf (by decide), hdown.cause (by decide)]
    rfl
  · exact (Only.lkDown q lkFault (by simp +contextual [regsIn]) (by decide) (fun _ => ⟨by simp +contextual [regsIn], by decide⟩)
      (Only.refl _ _ s)).frame

/-- The known partner at the end of WAKE: ACTIVE without LINK_UP. -/
theorem paramWoken_gives (hst : s.lkState q = lkWake) (hself : ¬ (y = s.nv.otp.serial ∧ pq.toNat = q.val))
    (hpeer : (s.lk q).peer = some (peerNamed y pq ss)) (hlater : (s.lk q).later = none)
    (hon : (quadLanes q (lanesOf (min (s.lk q).own (min wd.toNat 2)))).any s.prbsOn = false) :
    Gives (.linkParamDone q y pq ss wd us) s fun t => t.lkUp q = true ∧ t.lkWidth q = min (s.lk q).own (min wd.toNat 2)
      ∧ (t.lk q).agreed = (s.lk q).agreed ∧ t.rd R.TRAIN_TIME q = word us.toNat
      ∧ t.hdr (brinePage q) hEvt = s.hdr (brinePage q) hEvt ∧ Frame (regsIn (R.TRAIN_TIME.key q :: linkKeys q)) [.links] s t := by
  have hexec := (exec_paramDone (wd := wd) (us := us) (Or.inr hst)).trans (congrArg (done s) (paramDone_known hself hpeer))
  have hlk : (s.setLk q (s.lk q).kept).lk q = (s.lk q).kept := lk_setLk_self ..
  refine (wakeDone_gives hexec (agreedWidth_le ..) ((rdf_setLk ..).trans hst) (by rw [hlk, kept_later, hlater])
    (by rwa [prbsOn_congr fun l => rd_setLk ..]) ((Only.refl _ _ s).setLk q _ (by decide))).imp fun t ht => ?_
  obtain ⟨hup, hwidth, hagreed, htime, hevt, hframe⟩ := ht
  exact ⟨hup, hwidth, hagreed.trans (by rw [hlk, kept_agreed]), htime, hevt.trans (hdr_setLk ..), hframe⟩

end Param

/-- Settles O18: each phase of a training by the state it leads to, and what takes a link out of ACTIVE. -/
theorem linkTraining : Obligations.LinkTraining := by
  unfold Obligations.LinkTraining
  refine ⟨?signal, ?signalIgnored, ?lockDone, ?lockIgnored, ?lockTimeout, ?lockTimeoutWake, ?noLock, ?lockTimeoutIgnored, ?deskew,
    ?deskewIgnored, ?known, ?other, ?selfLoop, ?woken, ?paramIgnored, ?paramTimeout, ?paramTimeoutIgnored, ?tsReceived, ?tsIgnored,
    ?lockLost, ?lockLostUnused, ?lockLostIgnored, ?fewSkews, ?eighthSkew, ?busySkew, ?eightSkews, ?skewIgnored⟩
  case signal => exact fun s q hst _ => signal_locks hst
  case signalIgnored => exact fun s q hst => still_gives rfl (if_neg hst)
  case lockDone => exact fun s q hst hw => lockDone_deskews hst hw
  case lockIgnored => exact fun s q hst => still_gives rfl (if_neg hst)
  case lockTimeout => exact fun s q x hst hx hw => lockTimeout_deskews hst hx hw
  case lockTimeoutWake => exact fun s q x hst hx => lockTimeout_wakes hst hx
  case noLock =>
    intro s q x hst hx _
    have hif := Eq.trans (show exec (.linkLockTimeout q x) s = _ from rfl) (congrArg (done s) (if_pos hst))
    exact detect_gives (hif.trans (congrArg (done s) (if_neg (by rw [hx]; decide)))) (by decide)
  case lockTimeoutIgnored => exact fun s q x hlock hwake => still_gives rfl (if_neg (not_or.mpr ⟨hlock, hwake⟩))
  case deskew =>
    intro s q r hst _ hown
    cases r with
    | aligned =>
      refine (deskew_aligned hst hown).imp fun t ht => ?_
      obtain ⟨hparam, hlanes, hframe⟩ := ht
      exact ⟨fun _ => hparam, fun _ => hlanes, fun h => absurd rfl h, nofun, nofun,
        hframe.mono (fun _ hk => List.mem_append_left _ hk) (by simp)⟩
    | skew =>
      have hexec : exec (.linkDeskewDone q .skew) s = done s (s.lkDetectEntry q cSkew) := exec_if hst rfl
      refine (detect_gives hexec (by decide)).imp fun t ht => ?_
      obtain ⟨hdetect, hcause, hframe⟩ := ht
      exact ⟨nofun, nofun, fun _ => hdetect, fun _ => hcause, nofun, hframe⟩
    | crossed =>
      have hexec : exec (.linkDeskewDone q .crossed) s = done s (s.lkDetectEntry q cLaneOrder) := exec_if hst rfl
      refine (detect_gives hexec (by decide)).imp fun t ht => ?_
      obtain ⟨hdetect, hcause, hframe⟩ := ht
      exact ⟨nofun, nofun, fun _ => hdetect, nofun, fun _ => hcause, hframe⟩
  case deskewIgnored => exact fun s q r hdeskew hwake => still_gives rfl (if_neg (not_or.mpr ⟨hdeskew, hwake⟩))
  case known => exact fun s q y pq ss wd us hst hself hpeer hlater hon => paramKnown_gives hst hself hpeer hlater hon
  case other =>
    exact fun s q y pq ss wd us hst hself hpeer hreplay hlater hon => paramNew_gives hst hself hpeer hreplay hlater hon
  case selfLoop => exact fun s q y pq ss wd us hst hy hpq => paramLoop_gives hst ⟨hy, hpq⟩
  case woken => exact fun s q y pq ss wd us hst hself hpeer hlater hon => paramWoken_gives hst hself hpeer hlater hon
  case paramIgnored => exact fun s q y pq ss wd us hparam hwake => still_gives rfl (if_neg (not_or.mpr ⟨hparam, hwake⟩))
  case paramTimeout => exact fun s q hst _ => detect_gives (c := .linkParamTimeout q) (cause := cParamTimeout) (exec_if hst rfl) (by decide)
  case paramTimeoutIgnored => exact fun s q hparam hwake => still_gives rfl (if_neg (not_or.mpr ⟨hparam, hwake⟩))
  case tsReceived =>
    intro s q hup _
    have hexec : exec (.tsReceivedActive q) s = done s (s.lkRetrain q cPeer) := exec_up hup rfl
    exact retrain_gives hexec hup (by decide) (fun _ hk => hk) (Only.refl _ _ s)
  case tsIgnored => exact fun s q hup => still_gives rfl (if_neg (by simp [hup]))
  case lockLost => exact fun s i hlock hup hused _ => lockLost_retrains hlock hup hused
  case lockLostUnused => exact fun s i hlock hunused => lockLost_counts hlock hunused
  case lockLostIgnored => exact fun s i hlock => still_gives rfl (if_neg (by simp [hlock]))
  case fewSkews => exact fun s q i hup hfew => fewSkews_gives hup hfew
  case eighthSkew =>
    intro s q i hup hmany hneg
    exact eighthSkew_gives (exec_skewRetrain_one hup) ⟨(satWord_zero _).symm, Only.refl _ _ s⟩ hup hmany hneg
  case busySkew => exact fun s q i hup hmany h0 h6 => busySkew_gives hup hmany h0 h6
  case eightSkews =>
    intro s q i hup hneg hskews
    obtain ⟨hskewed, hlk⟩ := skewMiss_replicate (i := i.val) hskews 7 (by decide)
    have hrecent : (((List.replicate 7 i.val).foldl (fun u i => u.skewMiss q i) s).recentSkews q) = List.replicate 7 s.time.total := by
      rw [State.recentSkews, hlk, hskewed.time]
      exact List.filter_eq_self.mpr fun z hz => by simp [List.eq_of_mem_replicate hz]
    have hexec := exec_skewRetrain hup (List.replicate 8 i)
    rw [List.map_replicate, List.replicate_succ' (n := 7) (a := i.val), List.foldl_append, List.foldl_cons, List.foldl_nil] at hexec
    refine (eighthSkew_gives hexec hskewed hup (by rw [hrecent, List.length_replicate]) (Or.inl hneg)).imp fun t ht => ?_
    obtain ⟨herr, hn, hkind, -, -, hframe⟩ := ht
    exact ⟨herr, hn, hkind, hframe⟩
  case skewIgnored => exact fun s q x hup => still_gives rfl (if_neg (by simp [hup]))

end Sys2Proof.Machine

/-! PROOFS. Accepted writes of link and lane registers, Ethernet ports that are off, and the commands' bits (R66, R169, R171, R172, R174, R176 to
R178, R183, R331). -/

namespace Sys2Proof.Machine

-- Accepted writes of link and lane registers (R66, R183).

/-- A register that each link has of its own, written by agents to an effect of its chapter. -/
abbrev Reg.OfLink (r : Reg) : Prop :=
  r.page = 0x50 ∧ r.banks = 64 ∧ r.share = 1 ∧ r.perAgent = false ∧ r.acc ≠ .w1c ∧ ∀ g : Fin 4, r.Alone (0x50 + g.val) 0

/-- A register that each lane has of its own, written by agents to an effect of its chapter. -/
abbrev Reg.OfLane (r : Reg) : Prop :=
  r.page = 0x48 ∧ r.banks = 128 ∧ r.share = 1 ∧ r.perAgent = false ∧ r.acc ≠ .w1c ∧ ∀ g : Fin 8, r.Alone (0x48 + g.val) 0

theorem linkWrite_of_accepts {s : State} {a : Agent} {g : Fin 4} {r : Reg} {n : Nat} {v : Word} (hr : r.OfLink)
    (h : s.accepts a (0x50 + g.val) r.off v = true) (hn : s.bankOf a (0x50 + g.val) = n) (hlt : n < 64) :
    s.writeReg a (0x50 + g.val) r v = s.brinePut r (64 * g.val + n) v := by
  obtain ⟨hpage, hbanks, hshare, hagent, hacc, halone⟩ := hr
  have hb : banksOf r (s.bankOf a (0x50 + g.val)) = [n] := by
    rw [hn]
    exact banksOf_unshared hshare (by omega) (by omega)
  have hu : unitAt r (0x50 + g.val) n = 64 * g.val + n := by
    rw [unitAt, hpage, hbanks]
    omega
  rw [writeReg_of_accepts (halone g) hb h, hu]
  simp [State.put, hpage, hagent, hacc]

theorem laneWrite_of_accepts {s : State} {a : Agent} {g : Fin 8} {r : Reg} {n : Nat} {v : Word} (hr : r.OfLane)
    (h : s.accepts a (0x48 + g.val) r.off v = true) (hn : s.bankOf a (0x48 + g.val) = n) (hlt : n < 128) :
    s.writeReg a (0x48 + g.val) r v = s.lanePut r (128 * g.val + n) v := by
  obtain ⟨hpage, hbanks, hshare, hagent, hacc, halone⟩ := hr
  have hb : banksOf r (s.bankOf a (0x48 + g.val)) = [n] := by
    rw [hn]
    exact banksOf_unshared hshare (by omega) (by omega)
  have hu : unitAt r (0x48 + g.val) n = 128 * g.val + n := by
    rw [unitAt, hpage, hbanks]
    omega
  rw [writeReg_of_accepts (halone g) hb h, hu]
  simp [State.put, hpage, hagent, hacc]

theorem linkCmd_ofLink : R.LINK_CMD.OfLink := by decide +kernel
theorem quadMode_ofLink : R.QUAD_MODE.OfLink := by decide +kernel
theorem laneCmd_ofLane : R.LANE_CMD.OfLane := by decide +kernel
theorem prbsCtrl_ofLane : R.PRBS_CTRL.OfLane := by decide +kernel

/-- An accepted `LINK_CMD` (R183). -/
theorem linkCmd_of_accepts {s : State} {a : Agent} {g : Fin 4} {n q : Nat} {v : Word}
    (h : s.accepts a (0x50 + g.val) R.LINK_CMD.off v = true) (hn : s.bankOf a (0x50 + g.val) = n) (hlt : n < 64)
    (hq : q = 64 * g.val + n) : s.writeReg a (0x50 + g.val) R.LINK_CMD v = s.linkCmd q v := by
  rw [linkWrite_of_accepts linkCmd_ofLink h hn hlt, hq]
  exact (if_neg (by decide)).trans (if_pos rfl)

/-- An accepted `LANE_CMD` (R169, R171, R172). -/
theorem laneCmd_of_accepts {s : State} {a : Agent} {g : Fin 8} {n i : Nat} {v : Word}
    (h : s.accepts a (0x48 + g.val) R.LANE_CMD.off v = true) (hn : s.bankOf a (0x48 + g.val) = n) (hlt : n < 128)
    (hi : i = 128 * g.val + n) : s.writeReg a (0x48 + g.val) R.LANE_CMD v = s.laneCmd i v := by
  rw [laneWrite_of_accepts laneCmd_ofLane h hn hlt, hi]
  exact (if_neg (by decide)).trans ((if_neg (by decide)).trans ((if_neg (by decide)).trans (if_pos rfl)))

-- Ethernet ports that are off (R331).

/-- A port off stays as it is. -/
theorem ethEval_off {s : State} {e : Nat} (hen : s.enabled (ethPage e) = false) (hstat : s.rd R.ETH_STAT e = 0) : s.ethEval e = s := by
  rw [State.ethEval]
  simp [hen, hstat]

theorem portsOff_iff {s : State} : s.portsOff = true ↔ ∀ e < 32, s.enabled (ethPage e) = false ∧ s.rd R.ETH_STAT e = 0 := by
  simp [State.portsOff]

theorem ethEvalAll_off {s : State} (h : s.portsOff = true) : s.ethEvalAll = s := by
  rw [portsOff_iff] at h
  have hstep : ∀ es : List Nat, (∀ e ∈ es, e < 32) → es.foldl State.ethEval s = s := by
    intro es
    induction es with
    | nil => exact fun _ => rfl
    | cons e es ih =>
      intro hlt
      obtain ⟨hen, hstat⟩ := h e (hlt e (List.mem_cons_self ..))
      rw [List.foldl_cons, ethEval_off hen hstat]
      exact ih fun x hx => hlt x (List.mem_cons_of_mem e hx)
  exact hstep _ fun e he => List.mem_range.mp he

/-- The pages before the Ethernet ports'. -/
abbrev beforePorts (k : Nat) : Prop := k < 0x54 * 1048576

theorem portsOff_kept {K : Nat → Prop} {ps : List Part} {s t : State} (h : Only K ps s t) (hK : ∀ k, K k → beforePorts k)
    (hoff : s.portsOff = true) : t.portsOff = true := by
  rw [portsOff_iff] at hoff ⊢
  intro e he
  obtain ⟨hen, hstat⟩ := hoff e he
  have hkeep {k : Nat} (hk : 0x54 * 1048576 ≤ k) : t.getReg k = s.getReg k := h.getReg fun hKk => absurd (hK k hKk) (by simp [beforePorts, hk])
  refine ⟨?_, ?_⟩
  · rw [State.enabled, State.hdr, hkeep (by simp only [regKey, ethPage]; omega), ← State.hdr, ← State.enabled, hen]
  · rw [State.rd, hkeep (by simp only [Reg.key, regKey, R.ETH_STAT]; omega), ← State.rd, hstat]

theorem linkKeys_beforePorts {q : Nat} (hq : q < 256) : ∀ k ∈ linkKeys q, beforePorts k := by
  intro k hk
  simp only [linkKeys, List.mem_cons, List.mem_map] at hk
  rcases hk with rfl | rfl | rfl | ⟨l, hl, rfl⟩
  · simp only [beforePorts, Reg.key, regKey, R.LINK_STAT]; omega
  · simp only [beforePorts, Reg.key, regKey, R.NEG_COUNT]; omega
  · simp only [beforePorts, regKey, brinePage, hEvt]; omega
  · rw [mem_quadLanes] at hl
    simp only [beforePorts, Reg.key, regKey, R.LANE_STAT]; omega

theorem reportKeys_beforePorts : ∀ k ∈ reportKeys, beforePorts k := by decide

-- `LINK_CMD` by its bits (R174, R176 to R178).

section LinkCmd

variable (s : State) (q : Nat)

theorem linkCmd_retrain : s.linkCmd q 1 = if s.lkState q = lkFault then s.lkDetectEntry q 0
    else if s.lkUp q then s.negRequest q .retrain 0 cCommand else s := if_pos (by decide)

theorem linkCmd_sleep : s.linkCmd q 2 = if s.rdb R.LINK_CFG q 5 then s.negRequest q .sleep 0 0 else s :=
  (if_neg (by decide)).trans (if_pos (by decide))

theorem linkCmd_wake : s.linkCmd q 4 = s.wakeUp q := (if_neg (by decide)).trans ((if_neg (by decide)).trans (if_pos (by decide)))

theorem linkCmd_widthUp : s.linkCmd q 8 = if s.rdb R.LINK_CFG q 4 = true ∧ s.lkWidth q < (s.lk q).agreed then
    s.negRequest q .width (s.lkWidth q + 1) 0 else s :=
  (if_neg (by decide)).trans ((if_neg (by decide)).trans ((if_neg (by decide)).trans (if_pos (by decide))))

end LinkCmd

section Commands

variable {c : Instr} {s : State} {q : Nat}

/-- FAULT left for DETECT by command, with a new `SESSION` (R163, R164). -/
theorem faultLeft_gives (hexec : exec c s = done s (s.lkDetectEntry q 0)) (hst : s.lkState q = lkFault) : Gives c s fun t =>
    t.lkState q = lkDetect ∧ (t.lk q).session = ((s.lk q).session + 1) % 32768 ∧ Frame (regsIn (linkKeys q)) [.links] s t := by
  refine Gives.done hexec ⟨?_, ?_, ?_⟩
  · rw [finish_lkState, lkDetectEntry_state]
  · rw [finish_lk, lkDetectEntry_session 0 (Or.inr hst)]
  · exact (Only.lkDetectEntry q (fun _ hk => hk) (by decide) (fun h => absurd rfl h) (Only.refl _ _ s)).frame

/-- A request commanded with a negotiation open is noted for later (R178). -/
theorem requestNoted_gives {k : NegKind} {target cause : Nat} (hexec : exec c s = done s (s.negRequest q k target cause))
    (h0 : s.lkNeg q ≠ 0) (h6 : s.lkNeg q ≠ 6) : Gives c s fun t =>
      t.lk q = { s.lk q with later := some (k, target, cause) } ∧ Frame noRegs [.links] s t := by
  rw [negRequest_busy k target cause h0 h6] at hexec
  exact Gives.done hexec ⟨(finish_lk ..).trans (lk_setLk_self ..), ((Only.refl _ _ s).setLk q _ (by decide)).frame⟩

end Commands

-- The PRBS checker's count and lock (R169).

section Prbs

variable (s : State) (l : Nat)

/-- The checker's bits counted. -/
def State.prbsCounted : State := if s.prbsNew l = 0 then s else s.count R.PRBS_BITS l (s.prbsNew l)

theorem prbsFold_eq (next : Option Nat) : s.prbsFold l next = if ((s.prbsCounted l).lane l).prbsAt = next then s.prbsCounted l
    else (s.prbsCounted l).setLane l { (s.prbsCounted l).lane l with prbsAt := next } := rfl

theorem lane_prbsCounted (m : Nat) : (s.prbsCounted l).lane m = s.lane m := by
  rw [State.prbsCounted]
  split
  · rfl
  · rw [State.count, lane_wr]

theorem lk_prbsCounted (q : Nat) : (s.prbsCounted l).lk q = s.lk q := by
  rw [State.prbsCounted]
  split
  · rfl
  · rw [lk_count]

theorem rd_prbsCounted_bits : (s.prbsCounted l).rd R.PRBS_BITS l = satWord (s.rd R.PRBS_BITS l) (s.prbsNew l) := by
  rw [State.prbsCounted]
  split
  · next h => rw [h, satWord_zero]
  · rw [State.count, rd_wr_self]

theorem rd_prbsCounted {r : Reg} {u : Nat} (hr : r.InPage) (h : r.off ≠ R.PRBS_BITS.off) : (s.prbsCounted l).rd r u = s.rd r u := by
  rw [State.prbsCounted]
  split
  · rfl
  · rw [State.count, rd_wr_ne (by decide) hr (by simpa using h)]

theorem rd_prbsFold (next : Option Nat) (r : Reg) (u : Nat) : (s.prbsFold l next).rd r u = (s.prbsCounted l).rd r u := by
  rw [prbsFold_eq]
  split
  · rfl
  · rw [rd_setLane]

theorem lane_prbsFold (next : Option Nat) : (s.prbsFold l next).lane l = { s.lane l with prbsAt := next } := by
  rw [prbsFold_eq, lane_prbsCounted]
  split
  · next h => rw [lane_prbsCounted, ← h]
  · rw [lane_setLane_self]

@[simp] theorem lk_prbsFold (next : Option Nat) (q : Nat) : (s.prbsFold l next).lk q = s.lk q := by
  rw [prbsFold_eq]
  split
  · rw [lk_prbsCounted]
  · rw [lk_setLane, lk_prbsCounted]

variable {s l}

theorem Only.prbsFold {K : Nat → Prop} {ps : List Part} {t : State} (next : Option Nat) (hbits : K (R.PRBS_BITS.key l))
    (hp : Part.links ∈ ps) (h : Only K ps s t) : Only K ps s (t.prbsFold l next) := by
  have hcounted : Only K ps s (t.prbsCounted l) := Only.ite h (h.wr _ hbits)
  rw [prbsFold_eq]
  exact Only.ite hcounted (hcounted.setLane l _ hp)

theorem Only.prbsLock {K : Nat → Prop} {ps : List Part} {t : State} (on : Bool) (hbits : K (R.PRBS_BITS.key l))
    (hlane : K (R.LANE_STAT.key l)) (hp : Part.links ∈ ps) (h : Only K ps s t) : Only K ps s (t.prbsLock l on) :=
  (h.prbsFold _ hbits hp).wrb 3 on hlane

theorem Only.prbsReseed {K : Nat → Prop} {ps : List Part} {t : State} (hbits : K (R.PRBS_BITS.key l))
    (hlane : K (R.LANE_STAT.key l)) (hp : Part.links ∈ ps) (h : Only K ps s t) : Only K ps s (t.prbsReseed l) :=
  (h.prbsLock false hbits hlane hp).setLane l _ hp

variable (s l)

theorem prbsLock_lock (on : Bool) : (s.prbsLock l on).rdb R.LANE_STAT l 3 = on := rdb_wrb_self (by decide)

theorem lane_prbsLock (on : Bool) : (s.prbsLock l on).lane l = { s.lane l with prbsAt := if on then some s.time.total else none } := by
  rw [State.prbsLock, State.wrb, lane_wr, lane_prbsFold]

theorem rd_prbsLock (on : Bool) {r : Reg} {u : Nat} (hr : r.InPage) (h : r.off ≠ R.LANE_STAT.off) :
    (s.prbsLock l on).rd r u = (s.prbsCounted l).rd r u := by
  rw [State.prbsLock, State.wrb, rd_wr_ne (by decide) hr (by simpa using h), rd_prbsFold]

theorem prbsReseed_lock : (s.prbsReseed l).rdb R.LANE_STAT l 3 = false := by
  rw [State.prbsReseed, State.rdb, rd_setLane, ← State.rdb, prbsLock_lock]

theorem prbsReseed_bits : (s.prbsReseed l).rd R.PRBS_BITS l = satWord (s.rd R.PRBS_BITS l) (s.prbsNew l) := by
  rw [State.prbsReseed, rd_setLane, rd_prbsLock s l false (by decide) (by decide), rd_prbsCounted_bits]

theorem rd_prbsReseed {r : Reg} {u : Nat} (hr : r.InPage) (h : r.off ∉ [R.LANE_STAT.off, R.PRBS_BITS.off]) :
    (s.prbsReseed l).rd r u = s.rd r u := by
  simp only [List.mem_cons, List.not_mem_nil, or_false, not_or] at h
  obtain ⟨hlane, hbits⟩ := h
  rw [State.prbsReseed, rd_setLane, rd_prbsLock s l false hr hlane, rd_prbsCounted s l hr hbits]

theorem lane_prbsReseed : (s.prbsReseed l).lane l = { s.lane l with prbsAt := none, chk := 0, chkGot := 0, chkRun := 0, chkHits := [] } := by
  rw [State.prbsReseed, lane_setLane_self, lane_prbsLock]
  rfl

end Prbs

-- `LANE_CMD` by its bits (R169, R171, R172).

@[simp] theorem lane_emit (s : State) (o : Output) (l : Nat) : (s.emit o).lane l = s.lane l := lane_congr rfl l

section LaneCmd

variable (s : State) (l : Nat)

theorem laneCmd_slip : s.laneCmd l 1 = (s.setLane l { s.lane l with slip := ((s.lane l).slip + 1) % 66 }).wrb R.LANE_STAT l 1 false := by
  rw [State.laneCmd]
  simp only [show bit (1 : Word) 0 = true by decide, show bit (1 : Word) 1 = false by decide, show bit (1 : Word) 2 = false by decide,
    if_true, Bool.false_eq_true, if_false]

theorem laneCmd_burst : s.laneCmd l 2 = (s.setLane l { s.lane l with inj := (s.lane l).inj + s.rdf R.LANE_INJ l 23 16 }).emit
    (.laneEvent l 2 (s.rdf R.LANE_INJ l 23 16)) := by
  rw [State.laneCmd]
  simp only [show bit (2 : Word) 0 = false by decide, show bit (2 : Word) 1 = true by decide, show bit (2 : Word) 2 = false by decide,
    if_true, Bool.false_eq_true, if_false]

theorem laneCmd_resync : s.laneCmd l 4 = s.prbsReseed l := by
  rw [State.laneCmd]
  simp only [show bit (4 : Word) 0 = false by decide, show bit (4 : Word) 1 = false by decide, show bit (4 : Word) 2 = true by decide,
    if_true, Bool.false_eq_true, if_false]

end LaneCmd

end Sys2Proof.Machine

/-! PROOFS. A checker's received bits, the equaliser, and `PRBS_CTRL` and `QUAD_MODE` put into force (R144 to R146, R163, R168 to R170); with
these, O20. -/

namespace Sys2Proof.Machine

-- A received bit in a lane's checker (R169, R170).

section Bit

variable (s : State) (l : Nat) (b : Bool)

/-- Whether a received bit is the one that the checker expects. -/
def State.bitHits : Bool := decide (prbsNext (s.rdf R.PRBS_CTRL l 11 10) (s.lane l).chk = b2n b)

/-- A locked checker's lane after a bit. -/
def State.laneChecked : Lane :=
  { s.lane l with chk := prbsPush (s.rdf R.PRBS_CTRL l 11 10) (s.lane l).chk (prbsNext (s.rdf R.PRBS_CTRL l 11 10) (s.lane l).chk)
                  chkHits := (s.bitHits l b :: (s.lane l).chkHits).take 64 }

/-- A bit in a locked checker, before it may lose its lock. -/
def State.bitChecked : State :=
  if s.bitHits l b then s.setLane l (s.laneChecked l b) else (s.setLane l (s.laneChecked l b)).count R.PRBS_ERR l

/-- An unlocked checker's lane after a bit. -/
def State.laneSeeded : Lane :=
  { s.lane l with chk := prbsPush (s.rdf R.PRBS_CTRL l 11 10) (s.lane l).chk (b2n b), chkGot := (s.lane l).chkGot + 1
                  chkRun := if (prbsTaps (s.rdf R.PRBS_CTRL l 11 10)).1 ≤ (s.lane l).chkGot ∧ s.bitHits l b = true then (s.lane l).chkRun + 1 else 0
                  chkHits := [] }

theorem prbsBit_locked (h : s.rdb R.LANE_STAT l 3 = true) : s.prbsBit l b
    = if (s.laneChecked l b).lostPrbs then (((s.bitChecked l b).prbsReseed l).count R.PRBS_RESYNC l).raise (lanePage l) 1
      else s.bitChecked l b := by
  simp only [State.prbsBit, h, if_true, beq_eq_decide]
  rfl

theorem prbsBit_unlocked (h : s.rdb R.LANE_STAT l 3 = false) : s.prbsBit l b
    = if (s.laneSeeded l b).chkRun = 64 then (s.setLane l (s.laneSeeded l b)).prbsLock l true else s.setLane l (s.laneSeeded l b) := by
  simp only [State.prbsBit, h, Bool.false_eq_true, if_false, beq_eq_decide, Bool.and_eq_true, decide_eq_true_eq, State.laneSeeded,
    State.bitHits]

theorem bitChecked_errors : (s.bitChecked l b).rd R.PRBS_ERR l = satWord (s.rd R.PRBS_ERR l) (b2n (!s.bitHits l b)) := by
  rw [State.bitChecked]
  cases s.bitHits l b
  · rw [if_neg (by decide), State.count, rd_wr_self, rd_setLane]
    rfl
  · rw [if_pos rfl, rd_setLane]
    exact (satWord_zero _).symm

theorem rd_bitChecked {r : Reg} {u : Nat} (hr : r.InPage) (h : r.off ≠ R.PRBS_ERR.off) : (s.bitChecked l b).rd r u = s.rd r u := by
  rw [State.bitChecked]
  split
  · rw [rd_setLane]
  · rw [State.count, rd_wr_ne (by decide) hr (by simpa using h), rd_setLane]

theorem bitChecked_only : Only (regsIn [R.PRBS_ERR.key l]) [.links] s (s.bitChecked l b) := by
  have hlane : Only (regsIn [R.PRBS_ERR.key l]) [.links] s (s.setLane l (s.laneChecked l b)) := (Only.refl _ _ s).setLane l _ (by decide)
  exact Only.ite hlane (hlane.wr _ (List.mem_cons_self ..))

end Bit

section Bits

variable {c : Instr} {s : State} {i : Fin 1024} {x : Bool}

theorem prbsCheck_one (hen : s.rdb R.PRBS_CTRL i 9 = true) : s.prbsCheck i [x] = s.prbsBit i x := if_pos hen

theorem exec_prbsLockLost (hen : s.rdb R.PRBS_CTRL i 9 = true) (hlock : s.rdb R.LANE_STAT i 3 = true) :
    exec (.prbsLockLost ⟨i, [x]⟩) s = done s (s.prbsBit i x) := by
  have hexec : exec (.prbsLockLost ⟨i, [x]⟩) s = done s (s.prbsCheck i [x]) := exec_if hlock rfl
  rw [hexec, prbsCheck_one hen]

theorem exec_prbsLock (hen : s.rdb R.PRBS_CTRL i 9 = true) : exec (.prbsLock ⟨i, [x]⟩) s = done s (s.prbsBit i x) := by
  have hexec : exec (.prbsLock ⟨i, [x]⟩) s = done s (s.prbsCheck i [x]) := rfl
  rw [hexec, prbsCheck_one hen]

/-- The 64th matching bit in a row locks the checker. -/
theorem prbsLocks_gives (hexec : exec c s = done s (s.prbsBit i x)) (hlock : s.rdb R.LANE_STAT i 3 = false)
    (hrun : (s.laneSeeded i x).chkRun = 64) : Gives c s fun t => t.rdb R.LANE_STAT i 3 = true
      ∧ (t.lane i).prbsAt = some s.time.total ∧ Frame (regsIn [R.LANE_STAT.key i, R.PRBS_BITS.key i]) [.links] s t := by
  rw [prbsBit_unlocked s i x hlock, if_pos hrun] at hexec
  refine Gives.done hexec ⟨?_, ?_, ?_⟩
  · rw [finish_rdb (by decide), prbsLock_lock]
  · rw [finish_lane, lane_prbsLock]
    rfl
  · exact (((Only.refl _ _ s).setLane _ _ (by decide)).prbsLock true (by simp [regsIn]) (by simp [regsIn]) (by decide)).frame

/-- Another bit goes into the checker's register and run. -/
theorem prbsSeeds_gives (hexec : exec c s = done s (s.prbsBit i x)) (hlock : s.rdb R.LANE_STAT i 3 = false)
    (hrun : (s.laneSeeded i x).chkRun ≠ 64) : Gives c s fun t => t.rdb R.LANE_STAT i 3 = false
      ∧ t.lane i = s.laneSeeded i x ∧ Frame noRegs [.links] s t := by
  rw [prbsBit_unlocked s i x hlock, if_neg hrun] at hexec
  refine Gives.done hexec ⟨?_, ?_, ((Only.refl _ _ s).setLane _ _ (by decide)).frame⟩
  · rw [finish_rdb (by decide), State.rdb, rd_setLane, ← State.rdb, hlock]
  · rw [finish_lane, lane_setLane_self]

/-- Sixteen mismatches in 64 bits drop the checker's lock. -/
theorem prbsDrops_gives (hexec : exec c s = done s (s.prbsBit i x)) (hlock : s.rdb R.LANE_STAT i 3 = true)
    (hlost : (s.laneChecked i x).lostPrbs = true) : Gives c s fun t => t.rdb R.LANE_STAT i 3 = false
      ∧ t.rd R.PRBS_RESYNC i = satWord (s.rd R.PRBS_RESYNC i) 1
      ∧ t.rd R.PRBS_ERR i = satWord (s.rd R.PRBS_ERR i) (b2n (!s.bitHits i x)) ∧ bit (t.hdr (lanePage i) hEvt) 1 = true
      ∧ Frame (regsIn [R.LANE_STAT.key i, R.PRBS_BITS.key i, R.PRBS_RESYNC.key i, R.PRBS_ERR.key i, regKey 0 (lanePage i) 0 hEvt]) [.links] s t := by
  rw [prbsBit_locked s i x hlock, if_pos hlost] at hexec
  refine Gives.done hexec ⟨?_, ?_, ?_, ?_, ?_⟩
  · rw [finish_rdb (by decide), State.rdb, rd_raise (by decide), State.count, rd_wr_ne (by decide) (by decide) (by decide), ← State.rdb,
      prbsReseed_lock]
  · rw [finish_rd (by decide), rd_raise (by decide), State.count, rd_wr_self, rd_prbsReseed _ _ (by decide) (by decide),
      rd_bitChecked s i x (by decide) (by decide)]
  · rw [finish_rd (by decide), rd_raise (by decide), State.count, rd_wr_ne (by decide) (by decide) (by decide),
      rd_prbsReseed _ _ (by decide) (by decide), bitChecked_errors]
  · rw [finish_laneEvt i.isLt]
    exact hdr_raise (by decide)
  · have hchecked := (bitChecked_only s i x).mono (L := regsIn [R.LANE_STAT.key i, R.PRBS_BITS.key i, R.PRBS_RESYNC.key i, R.PRBS_ERR.key i,
      regKey 0 (lanePage i) 0 hEvt]) (by simp +contextual [regsIn]) fun _ h => h
    exact (Only.raise (by simp [regsIn]) (Only.wr _ (by simp [regsIn])
      (hchecked.prbsReseed (by simp [regsIn]) (by simp [regsIn]) (by decide)))).frame

/-- A locked checker counts a mismatch. -/
theorem prbsCounts_gives (hexec : exec c s = done s (s.prbsBit i x)) (hlock : s.rdb R.LANE_STAT i 3 = true)
    (hkept : (s.laneChecked i x).lostPrbs = false) : Gives c s fun t => t.rdb R.LANE_STAT i 3 = true
      ∧ t.rd R.PRBS_ERR i = satWord (s.rd R.PRBS_ERR i) (b2n (!s.bitHits i x))
      ∧ t.rd R.PRBS_RESYNC i = s.rd R.PRBS_RESYNC i ∧ Frame (regsIn [R.PRBS_ERR.key i]) [.links] s t := by
  rw [prbsBit_locked s i x hlock, if_neg (by simp [hkept])] at hexec
  refine Gives.done hexec ⟨?_, ?_, ?_, (bitChecked_only s i x).frame⟩
  · rw [finish_rdb (by decide), State.rdb, rd_bitChecked s i x (by decide) (by decide), ← State.rdb, hlock]
  · rw [finish_rd (by decide), bitChecked_errors]
  · rw [finish_rd (by decide), rd_bitChecked s i x (by decide) (by decide)]

-- The equaliser's adaptation (R168).

/-- The step in force after an adaptation. -/
def adapted (peak below here above : Nat) : Nat :=
  if above ≤ below ∧ here < below ∧ 0 < peak then peak - 1 else if here < above ∧ peak < 15 then peak + 1 else peak

/-- Whether a lane's equaliser has not moved within 1 ms. -/
def Lane.mayMove (v : Lane) (now : Nat) : Bool := v.moved.all fun z => decide (z + 1500000 ≤ now)

theorem match_eq_all (o : Option Nat) (f : Nat → Bool) : (match o with
    | some t => f t
    | none => true) = o.all f := by
  cases o <;> rfl

/-- The equaliser moved to another step. -/
theorem adapts_gives {below here above n : Nat} (hcfg : s.rdb R.LANE_CFG i 12 = false) (hlock : s.rdb R.LANE_STAT i 1 = true)
    (hfree : (s.lane i).mayMove s.time.total = true) (hn : adapted (s.rdf R.LANE_STAT i 23 20) below here above = n)
    (hne : n ≠ s.rdf R.LANE_STAT i 23 20) (hlt : n < 16) : Gives (.eqAdapt i below here above) s fun t =>
      t.rdf R.LANE_STAT i 23 20 = n ∧ (t.lane i).moved = some s.time.total ∧ Frame (regsIn [R.LANE_STAT.key i]) [.links] s t := by
  have hexec : exec (.eqAdapt i below here above) s = done s ((s.wrf R.LANE_STAT i 23 20
      (adapted (s.rdf R.LANE_STAT i 23 20) below here above)).setLane i { s.lane i with moved := some s.time.total }) :=
    exec_if ⟨by rw [hcfg]; rfl, hlock, (match_eq_all _ fun z => decide (z + 1500000 ≤ s.time.total)).trans hfree, hn.trans_ne hne⟩ rfl
  rw [hn] at hexec
  refine Gives.done hexec ⟨?_, ?_, ?_⟩
  · rw [finish_rdf (by decide), State.rdf, rd_setLane, State.wrf, rd_wr_self, fld_setFld (by decide) (by decide)]
    exact Nat.mod_eq_of_lt hlt
  · rw [finish_lane, lane_setLane_self]
  · exact (Only.setLane i _ (by decide) (Only.wr _ (List.mem_cons_self ..) (Only.refl _ _ s))).frame

end Bits

-- `PRBS_CTRL` written (R144, R163, R169).

/-- A link that is not up and not in PRBS stays as it is. -/
theorem prbsEval_down {s : State} {q : Nat} (hup : s.lkUp q = false) (hst : s.lkState q ≠ lkPrbs) : s.prbsEval q = s := by
  rw [State.prbsEval]
  simp [hup, hst]

/-- A link that is up with a PRBS enable on a lane of its width enters PRBS. -/
theorem prbsEval_enters {s : State} {q l : Nat} (hup : s.lkUp q = true) (hl : l ∈ quadLanes q (lanesOf (s.lkWidth q)))
    (hon : s.prbsOn l = true) : s.prbsEval q = s.lkDown q lkPrbs 0 := if_pos ⟨hup, List.any_eq_true.mpr ⟨l, hl, hon⟩⟩

/-- `PRBS_CTRL` written, with the generator started and the checker reseeded by it, before the link follows. -/
def State.prbsSet (s : State) (l : Nat) (v : Word) : State :=
  let old := s.rd R.PRBS_CTRL l
  let s := s.wr R.PRBS_CTRL l v
  let s := if bit v 1 ∧ (bit old 1 = false ∨ fld v 3 2 ≠ fld old 3 2) then s.genStart l else s
  if bit v 9 then s else s.prbsReseed l

theorem prbsCtrl_of_accepts {s : State} {a : Agent} {g : Fin 8} {n i : Nat} {v : Word}
    (h : s.accepts a (0x48 + g.val) R.PRBS_CTRL.off v = true) (hn : s.bankOf a (0x48 + g.val) = n) (hlt : n < 128)
    (hi : i = 128 * g.val + n) : s.writeReg a (0x48 + g.val) R.PRBS_CTRL v = ((s.prbsSet i v).prbsEval (i / 4)).ethEvalAll := by
  rw [laneWrite_of_accepts prbsCtrl_ofLane h hn hlt, hi]
  exact (if_neg (by decide)).trans (if_pos rfl)

section PrbsCtrl

variable (s : State) (l : Nat) (v : Word)

/-- The registers that a write of `PRBS_CTRL` reaches on its lane. -/
abbrev prbsKeys (l : Nat) : List Nat := [R.PRBS_CTRL.key l, R.PRBS_BITS.key l, R.LANE_STAT.key l]

theorem prbsSet_only : Only (regsIn (prbsKeys l)) [.links, .free] s (s.prbsSet l v) := by
  have hwr : Only (regsIn (prbsKeys l)) [.links, .free] s (s.wr R.PRBS_CTRL l v) := Only.wr v (by simp [regsIn]) (Only.refl _ _ s)
  have hgen : Only (regsIn (prbsKeys l)) [.links, .free] s ((s.wr R.PRBS_CTRL l v).genStart l) :=
    Only.setLane l _ (by decide) (hwr.set_free _ (by decide))
  unfold State.prbsSet
  dsimp only
  exact Only.ite (Only.ite hgen hwr) (Only.prbsReseed (by simp [regsIn]) (by simp [regsIn]) (by decide) (Only.ite hgen hwr))

theorem prbsSet_ctrl : (s.prbsSet l v).rd R.PRBS_CTRL l = v := by
  have hgen : ((s.wr R.PRBS_CTRL l v).genStart l).rd R.PRBS_CTRL l = v := by
    rw [State.genStart, rd_setLane]
    exact (rd_congr rfl ..).trans (rd_wr_self ..)
  unfold State.prbsSet
  dsimp only
  split
  · split
    · exact hgen
    · exact rd_wr_self ..
  · rw [rd_prbsReseed _ _ (by decide) (by decide)]
    split
    · exact hgen
    · exact rd_wr_self ..

theorem prbsSet_stat (q : Nat) : (s.prbsSet l v).rd R.LINK_STAT q = s.rd R.LINK_STAT q :=
  (prbsSet_only s l v).getReg (by
    simp only [regsIn, List.mem_cons, List.not_mem_nil, or_false, not_or]
    exact ⟨Reg.key_ne_key (by decide) (by decide) (by decide), Reg.key_ne_key (by decide) (by decide) (by decide),
      Reg.key_ne_key (by decide) (by decide) (by decide)⟩)

theorem prbsKeys_beforePorts {l : Nat} (hl : l < 1024) : ∀ k, regsIn (prbsKeys l) k → beforePorts k := by
  intro k hk
  simp only [regsIn, List.mem_cons, List.not_mem_nil, or_false] at hk
  rcases hk with rfl | rfl | rfl
  · simp only [beforePorts, Reg.key, regKey, R.PRBS_CTRL]; omega
  · simp only [beforePorts, Reg.key, regKey, R.PRBS_BITS]; omega
  · simp only [beforePorts, Reg.key, regKey, R.LANE_STAT]; omega

end PrbsCtrl

section PrbsCtrlGives

variable {c : Instr} {s : State} {i : Nat} {v : Word}

/-- An enable written on a lane in use: PRBS. -/
theorem prbsCtrl_enters (hexec : exec c s = done s ((s.prbsSet i v).prbsEval (i / 4)).ethEvalAll) (hi : i < 1024)
    (hoff : s.portsOff = true) (hup : s.lkUp (i / 4) = true) (hv : bit v 1 = true) (hused : i % 4 < lanesOf (s.lkWidth (i / 4))) :
    Gives c s fun t => t.rd R.PRBS_CTRL i = v ∧ t.lkState (i / 4) = lkPrbs ∧ bit (t.hdr (brinePage (i / 4)) hEvt) 1 = true
      ∧ Frame (regsIn (R.PRBS_CTRL.key i :: R.PRBS_BITS.key i :: linkKeys (i / 4))) [.links, .free] s t := by
  have hctrl := prbsSet_ctrl s i v
  have hstat := prbsSet_stat s i v (i / 4)
  have hlane : R.LANE_STAT.key i ∈ linkKeys (i / 4) := laneStat_mem (mem_quadLanes.mpr (by omega))
  have hset : Only (regsIn (R.PRBS_CTRL.key i :: R.PRBS_BITS.key i :: linkKeys (i / 4))) [.links, .free] s (s.prbsSet i v) :=
    (prbsSet_only s i v).mono (fun k hk => by
      simp only [regsIn, List.mem_cons, List.not_mem_nil, or_false] at hk ⊢
      rcases hk with rfl | rfl | rfl
      · exact Or.inl rfl
      · exact Or.inr (Or.inl rfl)
      · exact Or.inr (Or.inr hlane)) fun _ h => h
  generalize s.prbsSet i v = u at hexec hctrl hstat hset
  have hupU : u.lkUp (i / 4) = true := (lkUp_congr hstat).trans hup
  have hin : i ∈ quadLanes (i / 4) (lanesOf (u.lkWidth (i / 4))) := by
    rw [State.lkWidth, State.rdf, hstat, ← State.rdf, ← State.lkWidth, mem_quadLanes]
    omega
  have hon : u.prbsOn i = true := by rw [State.prbsOn, State.rdb, hctrl, hv, Bool.true_or]
  have honly : Only (regsIn (R.PRBS_CTRL.key i :: R.PRBS_BITS.key i :: linkKeys (i / 4))) [.links, .free] s (u.lkDown (i / 4) lkPrbs 0) :=
    hset.lkDown (i / 4) lkPrbs (fun k hk => by simp [regsIn, hk]) (by decide) fun h => absurd rfl h
  have hoffT : (u.lkDown (i / 4) lkPrbs 0).portsOff = true := portsOff_kept honly (fun k hk => by
    simp only [regsIn, List.mem_cons] at hk
    rcases hk with rfl | rfl | hk
    · exact prbsKeys_beforePorts hi _ (by simp [regsIn])
    · exact prbsKeys_beforePorts hi _ (by simp [regsIn])
    · exact linkKeys_beforePorts (by omega) k hk) hoff
  rw [prbsEval_enters hupU hin hon, ethEvalAll_off hoffT] at hexec
  have hdown := lkDown_down u (i / 4) lkPrbs 0
  refine Gives.done hexec ⟨?_, ?_, ?_, honly.frame⟩
  · rw [finish_rd (by decide), hdown.others (by decide) (by decide) (by decide), hctrl]
  · rw [finish_lkState, hdown.state (by decide)]
  · rw [finish_linkEvt (by omega), hdown.down hupU]

/-- A write on a link that is not up. -/
theorem prbsCtrl_down (hexec : exec c s = done s ((s.prbsSet i v).prbsEval (i / 4)).ethEvalAll) (hi : i < 1024)
    (hoff : s.portsOff = true) (hup : s.lkUp (i / 4) = false) (hst : s.lkState (i / 4) ≠ lkPrbs) : Gives c s fun t =>
      t.rd R.PRBS_CTRL i = v ∧ t.lkState (i / 4) = s.lkState (i / 4)
      ∧ Frame (regsIn [R.PRBS_CTRL.key i, R.PRBS_BITS.key i, R.LANE_STAT.key i]) [.links, .free] s t := by
  have hstat := prbsSet_stat s i v (i / 4)
  have hstate : (s.prbsSet i v).lkState (i / 4) = s.lkState (i / 4) := by rw [State.lkState, State.rdf, hstat, State.lkState, State.rdf]
  have hoffT := portsOff_kept (prbsSet_only s i v) (prbsKeys_beforePorts hi) hoff
  rw [prbsEval_down ((lkUp_congr hstat).trans hup) (hstate.trans_ne hst), ethEvalAll_off hoffT] at hexec
  refine Gives.done hexec ⟨?_, ?_, (prbsSet_only s i v).frame⟩
  · rw [finish_rd (by decide), prbsSet_ctrl]
  · rw [finish_lkState, hstate]

end PrbsCtrlGives

-- `QUAD_MODE` written (R145, R146, R163).

section QuadMode

variable (s : State) (q : Nat) (v : Word)

/-- What the checkers of a quad's lanes have checked, counted up to now. -/
def State.quadCounted : State := (quadLanes q 4).foldl (fun s l => s.prbsFold l ((s.lane l).prbsAt.map fun _ => s.time.total)) s

/-- The quad's mode in its register, before the link follows. -/
def State.modeWritten : State := (s.quadCounted q).wr R.QUAD_MODE q v

theorem setQuadMode_eq {s : State} {q : Nat} {v : Word} (h : v ≠ s.rd R.QUAD_MODE q) : s.setQuadMode q v
    = if fld v 1 0 = 1 then (s.modeWritten q v).lkEval q true
      else ((s.modeWritten q v).lkEval q true).laneBits (quadLanes q 4) 4 (fld v 1 0 != 2) := if_neg h

theorem quadMode_of_accepts {s : State} {a : Agent} {g : Fin 4} {n q : Nat} {v : Word}
    (h : s.accepts a (0x50 + g.val) R.QUAD_MODE.off v = true) (hn : s.bankOf a (0x50 + g.val) = n) (hlt : n < 64)
    (hq : q = 64 * g.val + n) : s.writeReg a (0x50 + g.val) R.QUAD_MODE v = (s.setQuadMode q v).ethEvalAll := by
  rw [linkWrite_of_accepts quadMode_ofLink h hn hlt, hq]
  exact if_pos rfl

theorem Only.quadCounted {K : Nat → Prop} {ps : List Part} {s t : State} (q : Nat) (hK : ∀ l ∈ quadLanes q 4, K (R.PRBS_BITS.key l))
    (hp : Part.links ∈ ps) (h : Only K ps s t) : Only K ps s (t.quadCounted q) :=
  Only.foldl_mem (fun _ l hl hu => hu.prbsFold _ (hK l hl) hp) h

theorem lk_quadCounted (p : Nat) : (s.quadCounted q).lk p = s.lk p := by
  have hfold : ∀ (ls : List Nat) (u : State),
      (ls.foldl (fun s l => s.prbsFold l ((s.lane l).prbsAt.map fun _ => s.time.total)) u).lk p = u.lk p := by
    intro ls
    induction ls with
    | nil => exact fun _ => rfl
    | cons l ls ih => exact fun u => (ih _).trans (lk_prbsFold ..)
  exact hfold _ s

/-- The registers in which checked bits are counted. -/
abbrev checkedBits (k : Nat) : Prop := ∃ l, k = R.PRBS_BITS.key l

theorem quadCounted_only : Only checkedBits [.links] s (s.quadCounted q) := (Only.refl _ _ s).quadCounted q (fun l _ => ⟨l, rfl⟩) (by decide)

theorem rd_quadCounted {r : Reg} {u : Nat} (hr : r.InPage) (h : r.off ≠ R.PRBS_BITS.off) : (s.quadCounted q).rd r u = s.rd r u :=
  (quadCounted_only s q).getReg fun ⟨_, hl⟩ => Reg.key_ne_key hr (by decide) (by simpa using h) hl

theorem modeWritten_mode : (s.modeWritten q v).rd R.QUAD_MODE q = v := rd_wr_self ..

theorem rd_modeWritten {r : Reg} {u : Nat} (hr : r.InPage) (hbits : r.off ≠ R.PRBS_BITS.off) (hmode : r.off ≠ R.QUAD_MODE.off) :
    (s.modeWritten q v).rd r u = s.rd r u := by
  rw [State.modeWritten, rd_wr_ne (by decide) hr (by simpa using hmode), rd_quadCounted s q hr hbits]

theorem lkState_modeWritten : (s.modeWritten q v).lkState q = s.lkState q := by
  rw [State.lkState, State.rdf, rd_modeWritten s q v (by decide) (by decide) (by decide), State.lkState, State.rdf]

theorem lk_modeWritten : (s.modeWritten q v).lk q = s.lk q := by rw [State.modeWritten, lk_wr, lk_quadCounted]

theorem enabled_modeWritten (page : Nat) : (s.modeWritten q v).enabled page = s.enabled page := by
  have hctrl : (s.quadCounted q).hdr page hCtrl = s.hdr page hCtrl :=
    (quadCounted_only s q).getReg fun ⟨_, hl⟩ => Reg.key_ne_hdr (by decide) (by decide) hl.symm
  rw [State.enabled, State.modeWritten, hdr_wr (by decide) (by decide), hctrl, State.enabled]

/-- The registers that a write of `QUAD_MODE` reaches beside those in which its link shows. -/
abbrev modeKeys (q : Nat) : List Nat := R.QUAD_MODE.key q :: (quadLanes q 4).map fun i => R.PRBS_BITS.key i

theorem modeWritten_only : Only (regsIn (modeKeys q)) [.links] s (s.modeWritten q v) :=
  Only.wr v (List.mem_cons_self ..) ((Only.refl _ _ s).quadCounted q (fun _ hl => List.mem_cons_of_mem _ (List.mem_map_of_mem hl)) (by decide))

theorem modeKeys_beforePorts {q : Nat} (hq : q < 256) : ∀ k ∈ modeKeys q, beforePorts k := by
  intro k hk
  simp only [List.mem_cons, List.mem_map] at hk
  rcases hk with rfl | ⟨l, hl, rfl⟩
  · simp only [beforePorts, Reg.key, regKey, R.QUAD_MODE]; omega
  · rw [mem_quadLanes] at hl
    simp only [beforePorts, Reg.key, regKey, R.PRBS_BITS]; omega

end QuadMode

/-- A link whose quad is in brine mode with its page enabled leaves DISABLED (R163). -/
theorem lkEval_on {s : State} {q : Nat} (hen : s.enabled (brinePage q) = true) (hmode : s.quadMode q = 1) (hst : s.lkState q = lkDisabled) :
    s.lkEval q true = s.lkDetectEntry q 0 := by
  simp [State.lkEval, hen, hmode, hst]

/-- A link whose quad is in another mode, or its page off, is DISABLED (R163). -/
theorem lkEval_off {s : State} {q : Nat} (h : s.quadMode q ≠ 1 ∨ s.enabled (brinePage q) = false) :
    s.lkEval q true = if s.lkState q = lkDisabled then s else s.lkDown q lkDisabled cMode := by
  rcases h with h | h <;> simp [State.lkEval, h]

section QuadModeGives

variable {c : Instr} {s : State} {q : Nat} {v : Word}

theorem quadMode_modeWritten : (s.modeWritten q v).quadMode q = fld v 1 0 := by rw [State.quadMode, State.rdf, modeWritten_mode]

/-- The quad put into brine mode: a full training from DISABLED. -/
theorem quadMode_detects (hexec : exec c s = done s (s.setQuadMode q v).ethEvalAll) (hq : q < 256) (hoff : s.portsOff = true)
    (hne : v ≠ s.rd R.QUAD_MODE q) (hv : fld v 1 0 = 1) (hen : s.enabled (brinePage q) = true) (hst : s.lkState q = lkDisabled) :
    Gives c s fun t => t.rd R.QUAD_MODE q = v ∧ t.lkState q = lkDetect ∧ (t.lk q).session = ((s.lk q).session + 1) % 32768
      ∧ Frame (regsIn (R.QUAD_MODE.key q :: linkKeys q ++ (quadLanes q 4).map fun i => R.PRBS_BITS.key i)) [.links] s t := by
  have hset : s.setQuadMode q v = (s.modeWritten q v).lkDetectEntry q 0 := by
    rw [setQuadMode_eq hne, if_pos hv, lkEval_on ((enabled_modeWritten s q v _).trans hen) (quadMode_modeWritten.trans hv)
      ((lkState_modeWritten s q v).trans hst)]
  have honly : Only (regsIn (R.QUAD_MODE.key q :: linkKeys q ++ (quadLanes q 4).map fun i => R.PRBS_BITS.key i)) [.links] s
      ((s.modeWritten q v).lkDetectEntry q 0) :=
    Only.lkDetectEntry q (fun k hk => by simp [regsIn, hk]) (by decide) (fun h => absurd rfl h)
      ((modeWritten_only s q v).mono (fun k hk => by
        simp only [regsIn, List.mem_cons, List.mem_append] at hk ⊢
        exact hk.elim (fun h => Or.inl (Or.inl h)) Or.inr) fun _ h => h)
  have hoffT := portsOff_kept honly (fun k hk => by
    simp only [regsIn, List.mem_append, List.mem_cons] at hk
    rcases hk with (rfl | hk) | hk
    · exact modeKeys_beforePorts hq _ (List.mem_cons_self ..)
    · exact linkKeys_beforePorts hq k hk
    · exact modeKeys_beforePorts hq k (List.mem_cons_of_mem _ hk)) hoff
  rw [hset, ethEvalAll_off hoffT] at hexec
  refine Gives.done hexec ⟨?_, ?_, ?_, honly.frame⟩
  · rw [finish_rd (by decide), (lkDetectEntry_down ..).others (by decide) (by decide) (by decide), State.detectBegun, State.wrb,
      rd_wr_ne (by decide) (by decide) (by decide), rd_setLk, modeWritten_mode]
  · rw [finish_lkState, lkDetectEntry_state]
  · rw [finish_lk, lkDetectEntry_session 0 (Or.inl ((lkState_modeWritten s q v).trans hst)), lk_modeWritten]

/-- The registers in which a quad's fall to DISABLED shows. -/
abbrev modeDownKeys (q : Nat) : List Nat :=
  R.QUAD_MODE.key q :: linkKeys q ++ reportKeys ++ (quadLanes q 4).map fun i => R.PRBS_BITS.key i

/-- The link of a quad that is off or in another mode, evaluated: DISABLED with the mode written. -/
theorem modeOff_disabled (hv : fld v 1 0 ≠ 1 ∨ s.enabled (brinePage q) = false) :
    ((s.modeWritten q v).lkEval q true).rd R.QUAD_MODE q = v ∧ ((s.modeWritten q v).lkEval q true).lkState q = lkDisabled
      ∧ Only (regsIn (modeDownKeys q)) [.links, .bitt] s ((s.modeWritten q v).lkEval q true) := by
  have honly : Only (regsIn (modeDownKeys q)) [.links, .bitt] s (s.modeWritten q v) :=
    (modeWritten_only s q v).mono (fun k hk => by
      simp only [regsIn, List.mem_cons, List.mem_append] at hk ⊢
      exact hk.elim (fun h => Or.inl (Or.inl (Or.inl h))) Or.inr) (by simp)
  rw [lkEval_off (by rwa [quadMode_modeWritten, enabled_modeWritten])]
  split
  · next hst => exact ⟨modeWritten_mode s q v, hst, honly⟩
  · have hdown := lkDown_down (s.modeWritten q v) q lkDisabled cMode
    refine ⟨?_, hdown.state (by decide), ?_⟩
    · rw [hdown.others (by decide) (by decide) (by decide), modeWritten_mode]
    · exact honly.lkDown q lkDisabled (fun k hk => by simp [regsIn, hk]) (by decide)
        fun _ => ⟨fun k hk => by simp [regsIn, hk], by decide⟩

/-- The quad put into another mode than brine, or with its page off: DISABLED. -/
theorem quadMode_disables (hexec : exec c s = done s (s.setQuadMode q v).ethEvalAll) (hq : q < 256) (hoff : s.portsOff = true)
    (hne : v ≠ s.rd R.QUAD_MODE q) (hv : fld v 1 0 ≠ 1 ∨ s.enabled (brinePage q) = false) :
    Gives c s fun t => t.rd R.QUAD_MODE q = v ∧ t.lkState q = lkDisabled
      ∧ (fld v 1 0 = 0 → (quadLanes q 4).all (fun l => t.rdb R.LANE_STAT l 4) = true)
      ∧ Frame (regsIn (R.QUAD_MODE.key q :: linkKeys q ++ reportKeys ++ (quadLanes q 4).map fun i => R.PRBS_BITS.key i)) [.links, .bitt] s t := by
  obtain ⟨hmode, hst, honly⟩ := modeOff_disabled hv
  have heq := setQuadMode_eq hne
  generalize (s.modeWritten q v).lkEval q true = z at hmode hst honly heq
  have hset : (s.setQuadMode q v).rd R.QUAD_MODE q = v ∧ (s.setQuadMode q v).lkState q = lkDisabled
      ∧ Only (regsIn (modeDownKeys q)) [.links, .bitt] s (s.setQuadMode q v) := by
    rw [heq]
    split
    · exact ⟨hmode, hst, honly⟩
    · refine ⟨?_, ?_, honly.laneBits 4 _ fun l hl => by simp [regsIn, laneStat_mem hl]⟩
      · rw [rd_laneBits (by decide) (by decide), hmode]
      · rw [State.lkState, State.rdf, rd_laneBits (by decide) (by decide)]
        exact hst
  obtain ⟨hmodeT, hstT, honlyT⟩ := hset
  have hoffT := portsOff_kept honlyT (fun k hk => by
    simp only [regsIn, List.mem_append, List.mem_cons] at hk
    rcases hk with ((rfl | hk) | hk) | hk
    · exact modeKeys_beforePorts hq _ (List.mem_cons_self ..)
    · exact linkKeys_beforePorts hq k hk
    · exact reportKeys_beforePorts k hk
    · exact modeKeys_beforePorts hq k (List.mem_cons_of_mem _ hk)) hoff
  rw [ethEvalAll_off hoffT] at hexec
  refine Gives.done hexec ⟨?_, ?_, fun h0 => ?_, honlyT.frame⟩
  · rw [finish_rd (by decide), hmodeT]
  · rw [finish_lkState, hstT]
  · rw [List.all_eq_true]
    intro l hl
    rw [finish_rdb (by decide), heq, if_neg (by rw [h0]; decide), rdb_laneBits (by decide), if_pos ⟨hl, rfl⟩, h0]
    rfl

end QuadModeGives

section

variable {s : State} {i : Fin 1024} {x : Bool}

/-- The run of matching bits after a bit, by what the checker expects of it. -/
theorem laneSeeded_run : (s.laneSeeded i x).chkRun = if (prbsTaps (s.rdf R.PRBS_CTRL i 11 10)).1 ≤ (s.lane i).chkGot
    ∧ prbsNext (s.rdf R.PRBS_CTRL i 11 10) (s.lane i).chk = b2n x then (s.lane i).chkRun + 1 else 0 := by
  simp only [State.laneSeeded, State.bitHits, decide_eq_true_eq]

theorem not_bitHits : (!s.bitHits i x) = decide (prbsNext (s.rdf R.PRBS_CTRL i 11 10) (s.lane i).chk ≠ b2n x) := (decide_not ..).symm

/-- An equaliser that has moved within 1 ms may not move. -/
theorem not_mayMove {v : Lane} {now : Nat} (h : v.moved.any (fun z => decide (now < z + 1500000)) = true) : v.mayMove now = false := by
  rw [Option.any_eq_true] at h
  obtain ⟨z, hz, hlt⟩ := h
  rw [Lane.mayMove, hz, Option.all_some]
  simpa using hlt

/-- With neither neighbour better the step stays. -/
theorem adapted_best {peak below here above : Nat} (ha : above ≤ here) (hb : below ≤ here) : adapted peak below here above = peak := by
  rw [adapted, if_neg (by omega), if_neg (by omega)]

theorem eqAdapt_still (below here above : Nat) (h : s.rdb R.LANE_CFG i 12 = true ∨ s.rdb R.LANE_STAT i 1 = false
    ∨ (s.lane i).mayMove s.time.total = false ∨ adapted (s.rdf R.LANE_STAT i 23 20) below here above = s.rdf R.LANE_STAT i 23 20) :
    Gives (.eqAdapt i below here above) s fun t => Frame noRegs [] s t := by
  refine still_gives rfl (if_neg fun hdo => ?_)
  obtain ⟨hcfg, hlock, hfree, hne⟩ := hdo
  have hmay : (s.lane i).mayMove s.time.total = true := (match_eq_all _ fun z => decide (z + 1500000 ≤ s.time.total)).symm.trans hfree
  rcases h with h | h | h | h
  · rw [h] at hcfg
    exact absurd hcfg (by decide)
  · rw [h] at hlock
    exact absurd hlock (by decide)
  · rw [h] at hmay
    exact absurd hmay (by decide)
  · exact hne h

end

/-- Settles O20: each command by the request, mode or lane that it reaches, each received bit by the checker's lock, and the
equaliser by the step that it takes. -/
theorem linkAndLaneCommands : Obligations.LinkAndLaneCommands := by
  unfold Obligations.LinkAndLaneCommands
  refine ⟨?retrain, ?retrainBusy, ?leaveFault, ?retrainIgnored, ?sleep, ?sleepBusy, ?sleepIgnored, ?wake, ?widthUp, ?widthUpBusy,
    ?widthUpIgnored, ?bitSlip, ?burst, ?resync, ?prbsEnters, ?prbsDown, ?modeBrine, ?modeOff, ?locks, ?seeds, ?seedIgnored, ?drops,
    ?counts, ?lostIgnored, ?stepUp, ?stepDown, ?stays, ?limit, ?limitIgnored⟩
  case retrain =>
    intro s a g n q hacc hn hlt hq hup hneg
    have hst : s.lkState q ≠ lkFault := fun h => by simp [State.lkUp, h, lkFault, lkActive] at hup
    have hcmd := (linkCmd_of_accepts hacc hn hlt hq).trans ((linkCmd_retrain s q).trans ((if_neg hst).trans (if_pos hup)))
    have hexec : exec (.linkCmdRetrain a g) s = done s (s.negRequest q .retrain 0 cCommand) := Eq.trans rfl (congrArg (done s) hcmd)
    refine (request_gives hexec (negRequest_opens .retrain 0 cCommand hneg) (Only.refl _ _ s)).imp fun t ht => ?_
    obtain ⟨hn1, hkind, -, hcause, -, -, -, -, hsent, hframe⟩ := ht
    rw [at_zero, Nat.add_zero] at hsent
    exact ⟨hn1, hkind, hcause, hsent, hframe⟩
  case retrainBusy =>
    intro s a g n q hacc hn hlt hq hup h0 h6
    have hst : s.lkState q ≠ lkFault := fun h => by simp [State.lkUp, h, lkFault, lkActive] at hup
    have hcmd := (linkCmd_of_accepts hacc hn hlt hq).trans ((linkCmd_retrain s q).trans ((if_neg hst).trans (if_pos hup)))
    have hexec : exec (.linkCmdRetrain a g) s = done s (s.negRequest q .retrain 0 cCommand) := Eq.trans rfl (congrArg (done s) hcmd)
    exact requestNoted_gives hexec h0 h6
  case leaveFault =>
    intro s a g n q hacc hn hlt hq hst _
    have hcmd := (linkCmd_of_accepts hacc hn hlt hq).trans ((linkCmd_retrain s q).trans (if_pos hst))
    have hexec : exec (.linkCmdRetrain a g) s = done s (s.lkDetectEntry q 0) := Eq.trans rfl (congrArg (done s) hcmd)
    exact faultLeft_gives hexec hst
  case retrainIgnored =>
    intro s a g n q hacc hn hlt hq hup hst
    exact still_gives rfl ((linkCmd_of_accepts hacc hn hlt hq).trans ((linkCmd_retrain s q).trans
      ((if_neg hst).trans (if_neg (by simp [hup])))))
  case sleep =>
    intro s a g n q hacc hn hlt hq hcfg hneg
    have hcmd := (linkCmd_of_accepts hacc hn hlt hq).trans ((linkCmd_sleep s q).trans (if_pos hcfg))
    have hexec : exec (.linkCmdSleep a g) s = done s (s.negRequest q .sleep 0 0) := Eq.trans rfl (congrArg (done s) hcmd)
    refine (request_gives hexec (negRequest_opens .sleep 0 0 hneg) (Only.refl _ _ s)).imp fun t ht => ?_
    obtain ⟨hn1, hkind, -, -, -, -, -, -, hsent, hframe⟩ := ht
    rw [at_zero, Nat.add_zero] at hsent
    exact ⟨hn1, hkind, hsent, hframe⟩
  case sleepBusy =>
    intro s a g n q hacc hn hlt hq hcfg h0 h6
    have hcmd := (linkCmd_of_accepts hacc hn hlt hq).trans ((linkCmd_sleep s q).trans (if_pos hcfg))
    have hexec : exec (.linkCmdSleep a g) s = done s (s.negRequest q .sleep 0 0) := Eq.trans rfl (congrArg (done s) hcmd)
    exact requestNoted_gives hexec h0 h6
  case sleepIgnored =>
    intro s a g n q hacc hn hlt hq hcfg
    exact still_gives rfl ((linkCmd_of_accepts hacc hn hlt hq).trans ((linkCmd_sleep s q).trans (if_neg (by simp [hcfg]))))
  case wake =>
    intro s a g n q hacc hn hlt hq hst _
    have hcmd := (linkCmd_of_accepts hacc hn hlt hq).trans ((linkCmd_wake s q).trans (wakeUp_sleeping hst))
    have hexec : exec (.linkCmdWake a g) s = done s ((s.emit (.laneEvent (4 * q) 1 0)).setLkState q lkWake) :=
      Eq.trans rfl (congrArg (done s) hcmd)
    refine (wake_gives (q := ⟨q, by omega⟩) hexec (Only.emit _ (Only.refl _ _ s))).imp fun t ht => ?_
    obtain ⟨hwake, -, -, hsent, hframe⟩ := ht
    exact ⟨hwake, hsent _ (List.mem_cons_self ..), hframe⟩
  case widthUp =>
    intro s a g n q hacc hn hlt hq hcfg hw hneg
    have hcmd := (linkCmd_of_accepts hacc hn hlt hq).trans ((linkCmd_widthUp s q).trans (if_pos ⟨hcfg, hw⟩))
    have hexec : exec (.linkCmdWidthUp a g) s = done s (s.negRequest q .width (s.lkWidth q + 1) 0) := Eq.trans rfl (congrArg (done s) hcmd)
    refine (request_gives hexec (negRequest_opens .width _ 0 hneg) (Only.refl _ _ s)).imp fun t ht => ?_
    obtain ⟨hn1, hkind, htarget, -, -, -, -, -, hsent, hframe⟩ := ht
    rw [show NegKind.width.code = 0 from rfl, at_zero, Nat.zero_add] at hsent
    exact ⟨hn1, hkind, htarget, hsent, hframe⟩
  case widthUpBusy =>
    intro s a g n q hacc hn hlt hq hcfg hw h0 h6
    have hcmd := (linkCmd_of_accepts hacc hn hlt hq).trans ((linkCmd_widthUp s q).trans (if_pos ⟨hcfg, hw⟩))
    have hexec : exec (.linkCmdWidthUp a g) s = done s (s.negRequest q .width (s.lkWidth q + 1) 0) := Eq.trans rfl (congrArg (done s) hcmd)
    exact requestNoted_gives hexec h0 h6
  case widthUpIgnored =>
    intro s a g n q hacc hn hlt hq hnot
    refine still_gives rfl ((linkCmd_of_accepts hacc hn hlt hq).trans ((linkCmd_widthUp s q).trans (if_neg fun hdo => ?_)))
    obtain ⟨hcfg, hw⟩ := hdo
    exact hnot.elim (fun h => absurd hcfg (by simp [h])) fun h => absurd hw (by omega)
  case bitSlip =>
    intro s a g n i hacc hn hlt hi
    refine Gives.done (Eq.trans rfl (congrArg (done s) ((laneCmd_of_accepts hacc hn hlt hi).trans (laneCmd_slip s i)))) ⟨?_, ?_, ?_⟩
    · rw [finish_lane, State.wrb, lane_wr, lane_setLane_self]
    · rw [finish_rdb (by decide), rdb_wrb_self (by decide)]
    · exact (Only.wrb 1 false (List.mem_cons_self ..) ((Only.refl _ _ s).setLane i _ (by decide))).frame
  case burst =>
    intro s a g n i hacc hn hlt hi
    refine Gives.done (Eq.trans rfl (congrArg (done s) ((laneCmd_of_accepts hacc hn hlt hi).trans (laneCmd_burst s i)))) ⟨?_, ?_, ?_⟩
    · rw [finish_lane, lane_emit, lane_setLane_self]
    · exact finish_mem (List.mem_cons_self ..)
    · exact (Only.emit _ ((Only.refl _ _ s).setLane i _ (by decide))).frame
  case resync =>
    intro s a g n i hacc hn hlt hi
    refine Gives.done (Eq.trans rfl (congrArg (done s) ((laneCmd_of_accepts hacc hn hlt hi).trans (laneCmd_resync s i)))) ⟨?_, ?_, ?_, ?_, ?_⟩
    · rw [finish_rdb (by decide), prbsReseed_lock]
    · rw [finish_lane, lane_prbsReseed]
    · rw [finish_lane, lane_prbsReseed]
    · rw [finish_rd (by decide), prbsReseed_bits]
    · exact ((Only.refl _ _ s).prbsReseed (by simp [regsIn]) (by simp [regsIn]) (by decide)).frame
  case prbsEnters =>
    intro s a g v n i hacc hn hlt hi hoff hup hv hused
    exact prbsCtrl_enters (Eq.trans rfl (congrArg (done s) (prbsCtrl_of_accepts hacc hn hlt hi))) (by omega) hoff hup hv hused
  case prbsDown =>
    intro s a g v n i hacc hn hlt hi hoff hup hst
    exact prbsCtrl_down (Eq.trans rfl (congrArg (done s) (prbsCtrl_of_accepts hacc hn hlt hi))) (by omega) hoff hup hst
  case modeBrine =>
    intro s a g v n q hacc hn hlt hq hoff hne hv hen hst _
    have hpage : brinePage q = 0x50 + g.val := by rw [brinePage]; omega
    exact quadMode_detects (Eq.trans rfl (congrArg (done s) (quadMode_of_accepts hacc hn hlt hq))) (by omega) hoff hne hv
      (by rwa [hpage]) hst
  case modeOff =>
    intro s a g v n q hacc hn hlt hq hoff hne hv _
    have hpage : brinePage q = 0x50 + g.val := by rw [brinePage]; omega
    exact quadMode_disables (Eq.trans rfl (congrArg (done s) (quadMode_of_accepts hacc hn hlt hq))) (by omega) hoff hne (by rwa [hpage])
  case locks =>
    intro s i x hen hlock hseeded hhit hrun
    exact prbsLocks_gives (exec_prbsLock hen) hlock (by rw [laneSeeded_run, if_pos ⟨hseeded, hhit⟩, hrun])
  case seeds =>
    intro s i x hen hlock hnot
    have hrun : (s.laneSeeded i x).chkRun ≠ 64 := by
      rw [laneSeeded_run]
      split
      · next h =>
        obtain ⟨hseeded, hhit⟩ := h
        exact fun h64 => hnot ⟨hseeded, hhit, by omega⟩
      · decide
    refine (prbsSeeds_gives (exec_prbsLock hen) hlock hrun).imp fun t ht => ?_
    obtain ⟨hunlocked, hlane, hframe⟩ := ht
    exact ⟨hunlocked, by rw [hlane]; rfl, by rw [hlane, laneSeeded_run], hframe⟩
  case seedIgnored =>
    refine fun s i x h => still_gives (s1 := s.prbsCheck i x) rfl ?_
    rcases h with h | h <;> simp [State.prbsCheck, h]
  case drops =>
    intro s i x hen hlock hlost
    refine (prbsDrops_gives (exec_prbsLockLost hen hlock) hlock (decide_eq_true hlost)).imp fun t ht => ?_
    rwa [not_bitHits] at ht
  case counts =>
    intro s i x hen hlock hfew
    refine (prbsCounts_gives (exec_prbsLockLost hen hlock) hlock (decide_eq_false (Nat.not_le.mpr hfew))).imp fun t ht => ?_
    obtain ⟨hkept, herrors, hresync, hframe⟩ := ht
    rw [not_bitHits] at herrors
    exact ⟨hkept, herrors, hresync, hframe⟩
  case lostIgnored =>
    refine fun s i x h => still_gives (s1 := if s.rdb R.LANE_STAT i 3 then s.prbsCheck i x else s) rfl ?_
    rcases h with h | h <;> simp [State.prbsCheck, h]
  case stepUp =>
    intro s i lo here hi hcfg hlock hfree hlo hhere hpeak
    exact adapts_gives hcfg hlock hfree (by rw [adapted, if_neg (by omega), if_pos ⟨hhere, hpeak⟩]) (by omega) (by omega)
  case stepDown =>
    intro s i lo here hi hcfg hlock hfree hlo hhere hpeak
    have hlt : s.rdf R.LANE_STAT i 23 20 < 16 := Nat.mod_lt _ (by decide)
    exact adapts_gives hcfg hlock hfree (by rw [adapted, if_pos ⟨hlo, hhere, hpeak⟩]) (by omega) (by omega)
  case stays =>
    intro s i lo here hi h
    refine eqAdapt_still lo here hi ?_
    rcases h with h | h | h | ⟨ha, hb⟩
    · exact Or.inl h
    · exact Or.inr (Or.inl h)
    · exact Or.inr (Or.inr (Or.inl (not_mayMove h)))
    · exact Or.inr (Or.inr (Or.inr (adapted_best ha hb)))
  case limit =>
    intro s i hcfg hpeak
    have hexec : exec (.eqLimit i) s = done s (s.raise (lanePage i) 2) := exec_if ⟨by rw [hcfg]; rfl, hpeak⟩ rfl
    refine Gives.done hexec ⟨?_, ((Only.refl _ _ s).raise (List.mem_cons_self ..)).frame⟩
    rw [finish_laneEvt i.isLt]
    exact hdr_raise (by decide)
  case limitIgnored =>
    refine fun s i h => still_gives rfl (if_neg fun hdo => ?_)
    obtain ⟨hcfg, hpeak⟩ := hdo
    rcases h with h | ⟨h0, h15⟩
    · rw [h] at hcfg
      exact absurd hcfg (by decide)
    · exact hpeak.elim h0 h15

end Sys2Proof.Machine
